-- ==== Sys2Proof/Word.lean ====
section
/-! DEFINITION. Word types of the LX204: a register word (R6), a byte, and the wider words the spec numbers as bits. -/

namespace Sys2Proof

/-- A register word: every register is 32 bits wide (R6). -/
abbrev Word := BitVec 32
/-- A byte of a frame, of a table row or of host memory. -/
abbrev Byte := BitVec 8
/-- A 64-bit value: a stroke number, a counter (R35). -/
abbrev W64 := BitVec 64

/-- A byte string, first byte first. -/
abbrev Bytes := List Byte

end Sys2Proof
end

