-- ==== Sys2Proof/Syntax.lean ====
section
/-! DEFINITION. The commands of the LX204, one constructor for each row of the command table, with what the sender says in each.
An operand named `cyc` is the core cycle of the stroke, 0 to 255; `raw` is a moment, in 2^-16 ns, told from the start of that
cycle; `data` is the word written, whose trigger bit the row itself fixes. -/

namespace Sys2Proof

/-- Which management path an access comes by (R355, R360): the host's PCIe port, or SMBus. -/
inductive Source where
  | pcie | smbus
deriving DecidableEq, Repr

/-- Where a register access enters (R332, R372, R435): BAR0 of the PF, SMBus, BAR0 of VF `f`, BAR2 of VF `f`, or the PCIe
configuration space of function `f` (R4, R332, R350). -/
inductive Via where
  | pf
  | smbus
  | vf (f : Nat)
  | view (f : Nat)
  | config (f : Nat)
deriving DecidableEq, Repr

/-- An SMBus Block Write: its command code, and the bytes after its count, which is their number (R435). -/
structure SmbBlock where
  cmd : BitVec 8
  data : Bytes
deriving DecidableEq, Repr

/-- An SMBus Block Read: its command code, and whether the master clocks a PEC byte (R435). -/
structure SmbRead where
  cmd : BitVec 8
  pec : Bool
deriving DecidableEq, Repr

/-- The levels of the balls of the boundary-scan chain, 1 for high; bit k is the ball that `Ball.cell` numbers k (R437). -/
abbrev BallLevels := BitVec 47

/-- A droop of VDD_CORE: the core cycle in which it is seen, and how many mV below the target of R375 the voltage lies (R385). -/
structure Droop where
  cyc : Nat
  mv : Nat
deriving DecidableEq, Repr

/-- What a ring reads in host memory (R335, R340, R342): an entry, a TX entry's frame, or a table row. -/
inductive HostRead where
  | entry | frame | tableRow
deriving DecidableEq, Repr

/-- What a PTP message says, as the TSU reads it: its header, and the time in its body (R264 to R266). -/
structure PtpMsg where
  domain : BitVec 8
  /-- sourcePortIdentity: clockIdentity and portNumber -/
  srcId : BitVec 64
  srcPort : BitVec 16
  seq : BitVec 16
  correction : BitVec 64
  twoStep : Bool
  /-- originTimestamp, preciseOriginTimestamp or receiveTimestamp -/
  sec : BitVec 48
  ns : BitVec 32
  /-- requestingPortIdentity, of a response -/
  reqId : BitVec 64
  reqPort : BitVec 16
  /-- cumulativeScaledRateOffset of a Follow_Up information TLV -/
  rateOfs : BitVec 32
deriving DecidableEq, Repr

/-- A command. -/
inductive Instr where
  /-- Every supply reaches its range and the device leaves OFF for RESET. (R26) Operands: the straps SMB_ADDR1 and
  SMB_ADDR0. -/
  | powerUp (smbAddr : Nat)
  /-- A rail stays outside its range for 10 µs and the device enters OFF. (R405) -/
  | supplyOutOfRange
  /-- PERST_N rises, or a register-made reset ends its hold, and the device enters BOOT. (R407) Operands: the straps
  GPIO1 and GPIO0, and how long RESET lasted in ns. -/
  | resetRelease (gpio : Nat) (ns : Nat)
  /-- A boot image is fetched from the next source and checked; a failure clears the banks loaded and moves on to the
  next source. (R413) Operands: what the source holds; none where it gives no valid read. -/
  | bootSourceAttempt (img : Option Bytes)
  /-- A verified image is applied: register list, AVS target, HBM3E and link training, memory initialisation, sequencer
  start and optional boot lock, and then the device enters CONFIG. (R414) Operands: the regulator acknowledges; the
  HBM3E stacks with no repair resource left; the link lanes (link, direction, lane) that fail training. -/
  | bootImageComplete (ack : Bool) (spent : List Nat) (failed : List (Nat × Nat × Nat))
  /-- A write of BOOT_DL_CMD.GO starts a host download of the boot image. (R415) -/
  | bootDlGo (src : Source)
  /-- A write of 1 to TOP.DEV_CTRL.GO requests RUN or DEGRADED; outside CONFIG it is recorded as an error. (R26) -/
  | devGo (src : Source)
  /-- At the boundary after GO, the device enters RUN or DEGRADED and grants the extension-table, ledger and flow
  billets. (R26) -/
  | enterRun
  /-- A sensor reaches 120 °C and the device enters THERMAL_SHUTDOWN. (R384) Operands: the reading. -/
  | thermalShutdown (celsius : Int)
  /-- A write of RESET_CTRL.COLD makes a full cold reset at the next boundary. (R408) -/
  | coldReset (src : Source)
  /-- A write of RESET_CTRL.WARM makes a warm reset that keeps the time and the ledger. (R408) -/
  | warmReset (src : Source)
  /-- PERST_N falls and makes a host, warm or cold reset as PERST_MODE selects. (R408) -/
  | perstFall
  /-- The 1 ms RESET hold of a register-made reset ends. (R408) Operands: the straps GPIO1 and GPIO0. -/
  | resetHoldExpire (gpio : Nat)
  /-- A write to TOP.GAL_FENCE_REQ requests that a gallery be fenced at the next boundary. (R29) -/
  | galFenceReq (src : Source) (mask : Word)
  /-- At a boundary, a gallery is fenced: its budgets become zero, its ports send local fault, its anvils stop, and RUN
  becomes DEGRADED. (R30) -/
  | galleryFence
  /-- Housekeeping discards packets of a fenced gallery and returns their cells and billets under its budgets. (R31) -/
  | fenceDiscardStep
  /-- A gallery starts no pass, or an UP port starts no frame, for 64 strokes, and the gallery is fenced. (R396) -/
  | galleryWatchdog (gal : Nat)
  /-- The gallery logic reports a parity error, which counts toward its permanent-fault threshold. (R396) -/
  | galleryParityError (gal : Nat)
  /-- A fault in shared core logic fences all 32 galleries at the next boundary and sets FATAL. (R397) Operands: 0 the
  core PLL loses lock, 1 the free-list or queue-link memory, 2 a crossbar parity error. -/
  | fatalFault (kind : Nat)
  /-- A stroke of 256 core cycles ends: the stroke counter increments, budgets are renewed, and boundary work is done.
  (R35) -/
  | strokeBoundary
  /-- A write of GEN_CTRL.FLIP requests a generation flip, which may be refused with a result code. (R46) -/
  | genFlipRequest (src : Source) (data : Word)
  /-- At the flip boundary, every gallery that is not fenced begins using G + 1, and G enters DRAINING. (R47) -/
  | genFlip
  /-- At the first boundary with no packet of the draining generation left, it is reclaimed and RESYNC starts. (R49) -/
  | genReclaim
  /-- The rebuild of the freed slot ends, and G + 2 opens as staging in STEADY. (R50) -/
  | genResyncEnd
  /-- A write of SNAP_CTRL.REQ requests a snapshot at the next boundary, or it is merged. (R54) -/
  | snapReq (src : Source)
  /-- A write of SNAP_PERIOD restarts the periodic snapshot count from the boundary at which it takes effect. (R54) -/
  | snapPeriodWrite (src : Source) (period : Word)
  /-- At a boundary, every counter is copied into its snapshot copy. (R54) -/
  | snapshot
  /-- The periodic snapshot count expires and a snapshot is taken or merged. (R54) -/
  | snapPeriodic
  /-- The copies of a snapshot are complete and REQ reads 0. (R55) -/
  | snapCopiesComplete
  /-- A read of SNAP_CTRL returns MERGED and clears it. (R55) -/
  | snapMergedRead (src : Source)
  /-- A write of TOP.PROFILE.STAGED stages a profile and starts vacating the regions it takes away. (R64) -/
  | profileStage (src : Source) (staged : Nat)
  /-- The core steps down to 1.600 GHz at a boundary with no quench, and the voltage target is then lowered. (R376) -/
  | coreFreqDown
  /-- The core steps up to 2.000 GHz at the first boundary at which the readback reaches the target. (R376) -/
  | coreFreqUp
  /-- Every 100 µs the VDD_CORE voltage and current are read back over AVSBus. (R375) Operands: acknowledged; the
  voltage in mV and the current in A. -/
  | avsReadback (ack : Bool) (mv : Nat) (amps : Nat)
  /-- A chiplet reference goes absent or out of tolerance, REF_BAD is set, and its lanes hold WAIT_SIGNAL. (R73) -/
  | refClockLost (chiplet : Nat)
  /-- A chiplet reference returns, REF_BAD clears at the next boundary, and bring-up proceeds. (R444) -/
  | refClockRestored (chiplet : Nat)
  /-- SIG_DET rises on a lane, and its port starts AN or training, or wakes from DORMANT. (R79) -/
  | signalDetect (lane : Nat) (cyc : Nat)
  /-- SIG_DET is lost on a lane in UP, and the port returns to WAIT_SIGNAL without charge. (R81) -/
  | signalLost (lane : Nat) (cyc : Nat)
  /-- A Clause 73 page is received and auto-negotiation resolves a common rate or sets NO_COMMON. (R79) Operands: the
  RATES and FEC bits of the partner's page. -/
  | anPageReceive (port : Nat) (rates : Nat) (fec : Nat)
  /-- Link training of a port converges and its lanes enter ALIGN. (R79) -/
  | trainingConverged (port : Nat)
  /-- Training does not converge within TRAIN_TMO; TRAIN_FAIL counts and the port restarts. (R79) -/
  | trainingTimeout (port : Nat)
  /-- A lane finds marker or header lock, and polarity and lane order are found. (R80) Operands: polarity and lane order
  found; the clock-recovery phase. -/
  | blockLockAcquired (lane : Nat) (inverted : Bool) (reversed : Bool) (phase : Int)
  /-- At the next boundary after every lane of a port holds lock, the lanes enter UP. (R80) -/
  | laneUp (port : Nat)
  /-- A lane in UP loses block lock and its port enters RETRAIN. (R81) -/
  | blockLockLost (lane : Nat) (cyc : Nat)
  /-- More than RETRAIN_UNC uncorrectable codewords in a 1 ms window trigger a retrain. (R81) Operands: the
  uncorrectable codewords of the window. -/
  | fecUncorrLimit (lane : Nat) (n : Nat) (cyc : Nat)
  /-- RX_SNR stays below SNR_MIN for 1 ms and triggers a retrain. (R81) Operands: RX_SNR. -/
  | snrLow (lane : Nat) (snr : Nat) (cyc : Nat)
  /-- A write that clears a lane's EN takes its port down with DOWN_CAUSE 0x5. (R81) -/
  | laneDisable (src : Source) (lane : Nat) (data : Word)
  /-- A write of LN_CTRL.TEST = 1 moves the lane out of its port into TEST. (R84) -/
  | laneTestEnter (src : Source) (lane : Nat) (data : Word)
  /-- A write of TEST = 0 returns the lane to its port, which restarts bring-up. (R84) -/
  | laneTestExit (src : Source) (lane : Nat) (data : Word)
  /-- A write of DORMANT_REQ = 1 puts a port of four lanes or more into DORMANT. (R86) -/
  | dormantRequest (src : Source) (port : Nat) (data : Word)
  /-- A write that clears DORMANT_REQ starts full bring-up of the port. (R86) -/
  | dormantRelease (src : Source) (port : Nat) (data : Word)
  /-- In P7, a port of four lanes or more whose link has been down for 1 s becomes dormant. (R57) -/
  | p7DormantEntry (port : Nat)
  /-- In P7, a port woken by signal detect that is not UP within 1 s becomes dormant again. (R86) -/
  | p7WakeTimeout (port : Nat)
  /-- Every queue of a port has been empty for LPI_IDLE µs and the transmit MAC enters low-power idle. (R102) -/
  | lpiEnter (port : Nat) (cyc : Nat)
  /-- A frame is queued, or a flow-control frame must be sent, and transmit low-power idle ends. (R102) -/
  | lpiExit (port : Nat) (cyc : Nat)
  /-- The link partner signals entry to or exit from low-power idle on the receive direction. (R102) -/
  | lpiPartnerSignal (port : Nat) (cyc : Nat) (enter : Bool)
  /-- The PRBS checker sees 256 error-free bits and sets RX_LOCK. (R85) -/
  | prbsLock (lane : Nat)
  /-- More than 64 errors in 256 bits clear RX_LOCK, and the checker hunts again. (R85) Operands: the bit errors since
  the last report. -/
  | prbsLockLost (lane : Nat) (errs : Nat)
  /-- A write of LN_PRBS.CLEAR clears the PRBS error count. (R84) -/
  | prbsClear (src : Source) (lane : Nat) (data : Word)
  /-- A write of LN_INJ.GO injects errors once, or starts periodic injection. (R85) -/
  | errorInjectGo (src : Source) (lane : Nat) (data : Word)
  /-- The injection period expires and errors are injected again. (R85) -/
  | errorInjectPeriodic (lane : Nat) (cyc : Nat)
  /-- A write of LN_BITSLIP.SLIP moves the receive word boundary and restarts the checker hunt. (R84) -/
  | bitslip (src : Source) (lane : Nat)
  /-- A die-to-die link finishes training: clock lock, deskew, lane test and spare mapping, and it enters UP. (R88)
  Operands: the data lanes that failed, out and in. -/
  | linkTrain (link : Nat) (failedOut : List Nat) (failedIn : List Nat)
  /-- A write of LK_CTRL.RETRAIN retrains a link and takes its ports down. (R93) -/
  | linkRetrain (src : Source) (link : Nat) (data : Word)
  /-- A flit fails its CRC and is replayed within the fixed latency, and the replay is charged to a lane. (R89)
  Operands: the data lanes at fault; the replay met its latency. -/
  | d2dFlitReplay (link : Nat) (dir : Nat) (lanes : List Nat) (delivered : Bool)
  /-- A link direction whose lanes have all been idle for 8 strokes goes to sleep. (R92) -/
  | d2dSleep (link : Nat) (dir : Nat)
  /-- A lane of a sleeping direction leaves idle and the direction wakes within 256 ns. (R92) -/
  | d2dWake (link : Nat) (dir : Nat)
  /-- A write of LK_SLIP.GO slips a die-to-die receive lane by one UI. (R93) -/
  | lkSlipGo (src : Source) (link : Nat) (data : Word)
  /-- A write of PT_CFG.EN from 0 to 1 checks the port configuration and enables the port, or refuses it. (R96) -/
  | portEnable (src : Source) (port : Nat) (data : Word)
  /-- A write that clears PT_CFG.EN takes the port down and flushes its queues. (R110) -/
  | portDisable (src : Source) (port : Nat) (data : Word)
  /-- All lanes of a port are UP with no fault sequence, and the port is UP. (R108) -/
  | portUp (port : Nat)
  /-- At the boundary where a port goes down, its queues are flushed, its PFC stops cleared and its frames in reception
  ended. (R108) Operands: the fault sequence received: 1 local, 2 remote, 0 none. -/
  | portDown (port : Nat) (fault : Nat)
  /-- The receive MAC passes the first DA byte of a frame: the parse window opens and the ingress timestamp is taken.
  (R21) Operands: a valid start-of-frame delimiter; the first bytes. -/
  | frameReceiveStart (port : Nat) (cyc : Nat) (lane : Nat) (raw : Int) (sfd : Bool) (bytes : Bytes)
  /-- A ready header takes one of the gallery's four header positions, is stamped and starts its pass. (R19) -/
  | headerAccept (gal : Nat) (cyc : Nat)
  /-- A parse waiting for a byte resumes when the byte arrives or the frame ends. (R111) Operands: more bytes of the
  frame. -/
  | parseResume (port : Nat) (cyc : Nat) (bytes : Bytes)
  /-- A fragment in the fragment hold re-enters at FFT_STAGE at the next boundary. (R136) -/
  | fragmentHoldReenter (gal : Nat)
  /-- A fragment-follow entry matures FFT_TTL after its insert. (R130) -/
  | fftEntryExpire (index : Nat)
  /-- A write of FFT_CFG.FLUSH frees every fragment-follow entry at the next boundary. (R130) -/
  | fftFlush (src : Source) (data : Word)
  /-- An extension-lookup result returns to the waiting stair entry. (R143) -/
  | extLookupReturn (gal : Nat)
  /-- A pass ends: its dispositions are settled and the packet is forwarded, dropped, trapped, recirculated or sent to
  an anvil. (R139) -/
  | ingressPassEnd (gal : Nat) (cyc : Nat)
  /-- A stair entry is granted a free header position and a stair slot, and starts a new pass. (R144) -/
  | stairGrant (gal : Nat) (cyc : Nat)
  /-- A stair entry that has waited WAIT_MAX boundaries is dropped with STAIR_FULL. (R145) -/
  | stairWaitExpire (gal : Nat)
  /-- A frame ends: the FCS is checked, deferred length checks are completed, and charge estimates are corrected. (R98)
  Operands: the last bytes; the codewords since the last report, each with its symbol errors and how many frames it touches, from
  this one on. -/
  | frameReceiveEnd (port : Nat) (cyc : Nat) (bytes : Bytes) (codewords : List (Nat × Nat))
  /-- The integrity check of a received frame completes, and the frame passes or fails, possibly stomping its egress
  copy. (R242) -/
  | icvCheckResult (port : Nat) (cyc : Nat)
  /-- A received PFC frame stops, or restarts, the queues of its priorities. (R105) Operands: the class-enable bits and
  the quanta of the eight priorities. -/
  | pfcReceive (port : Nat) (en : Nat) (quanta : List Nat)
  /-- A received pause frame stops every queue of the port for its quanta. (R105) -/
  | pauseReceive (port : Nat) (quanta : Nat)
  /-- The quanta of a priority or pause stop run out and the queue restarts. (R105) -/
  | pfcStopExpire (port : Nat) (cyc : Nat)
  /-- Every 32,768 quanta while a class stays above XON, the XOFF frame is sent again. (R104) -/
  | pfcXoffRepeat (port : Nat) (cyc : Nat)
  /-- A port sends a peer-delay request on entering UP and then once per second. (R106) -/
  | pdelayExchange (port : Nat) (cyc : Nat) (lane : Nat) (raw : Int)
  /-- A peer-delay response arrives and D is computed. (R106) Operands: sequenceId, requestingPortIdentity, and the
  partner's times in 2^-16 ns. -/
  | pdelayRespReceive (port : Nat) (cyc : Nat) (lane : Nat) (raw : Int) (seq : Nat) (reqId : Nat) (t2 : Nat) (t3 : Nat)
  /-- A partner's peer-delay request is answered in hardware. (R106) Operands: the request's sequenceId,
  sourcePortIdentity and correctionField. -/
  | pdelayReqAnswer (port : Nat) (cyc : Nat) (rxLane : Nat) (rxRaw : Int) (txLane : Nat) (txRaw : Int) (seq : Nat) (srcId : Nat) (corr : Nat)
  /-- A write of PARSE_BANK.SWITCH requests a bank switch at the next flip. (R119) -/
  | parseBankSwitchReq (src : Source)
  /-- ACT_CMD.WRITE writes an action word, in every gallery with BCAST. (R149) -/
  | actWordWrite (src : Source) (gal : Nat)
  /-- ACT_CMD.READ places an action word in ACT_DATA. (R149) -/
  | actWordRead (src : Source) (gal : Nat)
  /-- The scheduler selects a queue whose head frame it sends, and the frame's egress processing begins. (R207) -/
  | egressSelect (port : Nat) (cyc : Nat)
  /-- A frame's first byte reaches the transmit MAC: timestamp, correctionField and MACsec are settled. (R262) -/
  | egressFirstByte (port : Nat) (cyc : Nat) (lane : Nat) (raw : Int)
  /-- A frame finishes transmission, and its packet's flow record is updated when this is its first copy. (R277) -/
  | frameTransmitEnd (port : Nat)
  /-- The next cell of a cut-through frame to a faster port is not ready, and the frame is stomped. (R179) -/
  | ctUnderrun (port : Nat)
  /-- A cell read finds an uncorrectable error and the packet is dropped or stomped. (R180) -/
  | cellEccUncorrectable (port : Nat)
  /-- The spill engine moves a landing packet into granted billets and frees its cells. (R192) -/
  | spillMove (gal : Nat) (bad : Bool)
  /-- The return engine moves the oldest middle packet back into head cells and frees its billets. (R193) Operands: the
  read finds an uncorrectable error. -/
  | spillReturn (gal : Nat) (bad : Bool)
  /-- The live cells of a retired bank are copied to a spare under the housekeeping budget. (R188) Operands: the copy of
  the next cell finds an uncorrectable error. -/
  | bankCopy (bad : Bool)
  /-- At the boundary after the last copy, the logical bank maps to its spare. (R188) -/
  | bankRemap
  /-- The last cell of a retired bank with no spare is freed, and the shared total falls by 1,024. (R189) -/
  | bankLost
  /-- REP_CMD.WRITE writes a word of a replication list. (R190) -/
  | repListWrite (src : Source)
  /-- REP_CMD.READ reads a word of a replication list into REP_DATA. (R190) -/
  | repListRead (src : Source)
  /-- A pool grants one eligible billet request per clock in rotation. (R200) -/
  | billetGrant (pool : Nat)
  /-- A billet free is accepted, refused as BAD_PTR, or ignored as a double free. (R201) -/
  | billetFree (pool : Nat)
  /-- A pool cache below 128 pointers reads 64 from its ring, discarding bad pointers. (R198) -/
  | billetCacheRefill (pool : Nat)
  /-- A pool cache above 448 pointers writes 64 back to its ring. (R198) -/
  | billetCacheWriteback (pool : Nat)
  /-- A write of GT_CTRL.COMMIT checks the pending gate list and makes it pending, or refuses it. (R220) -/
  | gateCommit (src : Source) (port : Nat) (data : Word)
  /-- A committed gate list takes over at its first cycle start. (R220) -/
  | gateListTakeover (port : Nat) (cyc : Nat)
  /-- A gate-list entry boundary falls and the gate states change. (R217) -/
  | gateEdge (port : Nat) (cyc : Nat)
  /-- KEY_CMD.COMMIT loads a key into the selected slot and computes its hash subkey. (R250) -/
  | keyCommit (src : Source) (aes256 : Bool)
  /-- KEY_CMD.ERASE empties the selected key slot. (R250) -/
  | keyErase (src : Source) (aes256 : Bool)
  /-- A commit or erase completes and BUSY returns to 0. (R246) Operands: the absolute core cycle. -/
  | keyCommitPoint (at_ : Nat)
  /-- A write of SA_PN_HI commits a transmit SA's next PN when allowed. (R251) -/
  | saPnWrite (src : Source) (gal : Nat) (hi : Word)
  /-- STEP_CTRL.SET loads STEP_SEC and STEP_NS into the device clock. (R257) -/
  | clockStepSet (src : Source)
  /-- STEP_CTRL.ADD adds or subtracts the step value to the device clock. (R257) -/
  | clockStepAdd (src : Source)
  /-- A step is made in every clock copy, BUSY clears and STEPPED is set. (R257) -/
  | clockStepDone (cyc : Nat)
  /-- A read of NOW_FRAC latches the rest of the device clock. (R257) -/
  | nowRead (src : Source)
  /-- The 10 MHz input is lost; the time clock falls back or holds its frequency. (R255) -/
  | ext10mLost (cyc : Nat)
  /-- The 10 MHz input returns and the PLL locks to it without a phase jump. (R255) -/
  | ext10mRestored (cyc : Nat)
  /-- At a second carry, a tagged 64-byte ledger record is written to the ring. (R273) -/
  | ledgerRecord (cyc : Nat)
  /-- LEDGER_CTRL.COPY copies COPY_COUNT records to host memory. (R275) -/
  | ledgerCopy (src : Source) (data : Word)
  /-- A ledger copy ends and COPY_DONE is set. (R275) -/
  | ledgerCopyDone
  /-- A master port sends a one-step Sync every 2^SYNC_LOG s. (R264) -/
  | syncSend (port : Nat) (cyc : Nat)
  /-- A Delay_Req received on a master port is answered with a Delay_Resp. (R264) Operands: the Delay_Req. -/
  | delayRespSend (port : Nat) (cyc : Nat) (lane : Nat) (raw : Int) (m : PtpMsg)
  /-- The servo source port sends a Delay_Req every 2^DREQ_LOG s. (R266) -/
  | delayReqSend (cyc : Nat)
  /-- A Delay_Resp updates the E2E path delay m. (R266) Operands: the Delay_Resp. -/
  | delayRespReceive (port : Nat) (cyc : Nat) (m : PtpMsg)
  /-- A Sync from the servo source yields a sample that drives the servo loop. (R266) Operands: the Sync. -/
  | syncReceiveSample (port : Nat) (cyc : Nat) (lane : Nat) (raw : Int) (m : PtpMsg)
  /-- A Follow_Up matching a two-step Sync completes its sample. (R266) Operands: the Follow_Up. -/
  | followUpReceive (port : Nat) (cyc : Nat) (m : PtpMsg)
  /-- No accepted sample for LOSS_S s moves the servo to HOLDOVER or FREE. (R267) -/
  | servoLossTimeout
  /-- A PPS input rising edge is captured and may be a servo sample. (R272) -/
  | ppsInEdge (k : Nat) (cyc : Nat) (raw : Nat)
  /-- A TIME_EVT edge is captured into its FIFO, or lost when it is full. (R272) -/
  | timeEvtEdge (k : Nat) (cyc : Nat) (raw : Nat) (rising : Bool)
  /-- A read of EV_FRAC removes the oldest capture and latches the rest. (R272) -/
  | evtFifoRead (src : Source) (k : Nat)
  /-- A PPS output rises at each second plus OFS and falls after WIDTH. (R271) -/
  | ppsOutEdge (k : Nat) (cyc : Nat)
  /-- A write of TR_CTRL.EN arms a trigger, or sets TRIG_LATE. (R271) -/
  | triggerEnable (src : Source) (k : Nat) (data : Word)
  /-- A TIME_TRIG pulse is due and is given. (R271) -/
  | triggerPulse (k : Nat) (cyc : Nat)
  /-- A flow bucket not in the cache is fetched, and an update from the miss queue is made. (R280) -/
  | flowMissFetch
  /-- The sweep visits a bucket, exporting records as interval or idle-end. (R283) -/
  | flowSweepVisit
  /-- FS_CFG.FLUSH closes every live record at the next sweep step. (R283) -/
  | flowFlush (src : Source) (data : Word)
  /-- A datagram closes at MAX_RECS or FLUSH_US and is injected into its gallery. (R292) -/
  | datagramClose (packer : Nat) (coll : Nat) (kind : Nat)
  /-- A group enable reserves granules at the next boundary, or is refused. (R305) -/
  | groupEnable (src : Source) (data : Word)
  /-- A group disable releases every chunk and its granules at the next boundary. (R306) -/
  | groupDisable (src : Source) (data : Word)
  /-- The anvil accumulates a CONTRIB into its chunk and forms the result when complete. (R307) -/
  | contribReceive (anvil : Nat)
  /-- The parent's RESULT is sent down and the chunk is released. (R308) -/
  | resultReceive (anvil : Nat)
  /-- A NACK from the parent naming MY_INDEX makes the chunk resend its CONTRIB up. (R309) -/
  | nackReceive (anvil : Nat)
  /-- An ABORT received for a held chunk aborts it. (R310) -/
  | abortReceive (anvil : Nat)
  /-- A GATHERING chunk's NACK timer matures and it sends a NACK, or aborts. (R309) -/
  | nackTimerExpire (group : Nat)
  /-- An AWAIT_PARENT chunk's UP timer matures and it resends its CONTRIB, or aborts. (R309) -/
  | upTimerExpire (group : Nat)
  /-- A retained result is written to its billet and its index entry written. (R312) -/
  | retainComplete (anvil : Nat)
  /-- A retained result expires RETAIN_MS after release and its billet is freed. (R312) -/
  | retainExpire (group : Nat)
  /-- A sequencer issues a microword, carries out its operation and applies FLOW. (R320) -/
  | microwordIssue (seq : Nat) (cyc : Nat)
  /-- The condition of a WAIT word holds and the sequencer goes to NEXT. (R320) -/
  | waitConditionMet (seq : Nat) (cyc : Nat)
  /-- A WAIT timer matures and the sequencer goes to ALT. (R320) -/
  | waitTimeout (seq : Nat)
  /-- An LD, ST or RMW completes and the sequencer continues. (R321) -/
  | busAccessComplete (seq : Nat) (cyc : Nat)
  /-- A Lower Hall transfer completes and LH_DONE holds. (R321) -/
  | lhTransferComplete (seq : Nat)
  /-- A unit posts an event to its sequencer's queue, or it is lost when the queue is full. (R322) -/
  | seqEventPost (seq : Nat) (ev : Nat)
  /-- RL_CMD.LOAD starts fetching an image into the idle banks of a role. (R326) -/
  | imageLoad (src : Source) (role : Nat) (data : Word)
  /-- An image load ends with the idle banks VALID, or INVALID with a result code. (R326) Operands: what host memory
  holds at LOAD_ADDR. -/
  | imageLoadDone (role : Nat) (img : Bytes)
  /-- RL_CMD.SWITCH requests a bank switch of every sequencer of the role. (R328) -/
  | imageSwitch (src : Source) (role : Nat) (data : Word)
  /-- At a boundary where every sequencer is safe, the banks exchange and start at ENTRY. (R328) -/
  | imageSwitchMade (role : Nat)
  /-- A switch not made within 8,192 strokes is abandoned with SWITCH_TMO. (R328) -/
  | imageSwitchTimeout (role : Nat)
  /-- SQ_CTRL.RESTART clears a fault and starts the active bank at the next boundary. (R329) -/
  | seqRestart (src : Source) (seq : Nat)
  /-- SQ_CTRL.STOP halts a sequencer at the next boundary. (R329) -/
  | seqStop (src : Source) (seq : Nat)
  /-- A write of SQ_MBOX_IN sets MBOX for the sequencer. (R329) -/
  | mboxWrite (src : Source) (seq : Nat) (value : Word)
  /-- A queued learn event is admitted under the learning budget and inserted, moved or found present. (R166) -/
  | learnAdmit (cyc : Nat)
  /-- Every AGE_10MS × 10 ms the ager starts a sweep. (R168) -/
  | ageSweepStart
  /-- Re-placement ends, REPLACE clears and REPLACE_DONE is set. (R159) -/
  | replaceDone
  /-- A row lock matures and is released with a LOCK_EXPIRED notice. (R172) -/
  | lockExpire (row : Nat)
  /-- A table-DMA READ copies rows to host memory. (R170) -/
  | tdmaRead (ring : Nat)
  /-- A table-DMA WRITE copies host memory to rows, subject to generation and lock checks. (R170) Operands: the row in
  host memory; none where the read is answered with an error. -/
  | tdmaWrite (ring : Nat) (data : Option Bytes)
  /-- A table-DMA LOCK locks EM rows for LOCK_TMO strokes. (R172) -/
  | tdmaLock (ring : Nat)
  /-- A table-DMA UNLOCK unlocks EM rows. (R170) -/
  | tdmaUnlock (ring : Nat)
  /-- A write of RW_CTRL.EN = 1 checks the ring window and enables the ring, or refuses it. (R347) -/
  | ringEnable (via : Via) (ring : Nat) (data : Word)
  /-- A write clearing EN stops the ring and gives back unfilled held entries. (R336) -/
  | ringDisable (via : Via) (ring : Nat) (data : Word)
  /-- Every POLL_INTERVAL strokes a polling ring reads the entry at K. (R336) -/
  | ringPoll (ring : Nat)
  /-- An entry read completes and is found empty, valid and carried out, or out of sequence. (R335) Operands: the entry,
  and the body a TX entry points at; none where a read is answered with an error. -/
  | ringEntryRead (ring : Nat) (entry : Option Bytes) (body : Option Bytes)
  /-- A trapped packet is written with its receive record into a held RX entry, or dropped. (R341) -/
  | rxPacketWrite (ring : Nat)
  /-- A table notice is written into a held NOTIFY entry, or lost. (R341) -/
  | noticeWrite
  /-- A ring read meets its completion timeout and waits for retry, or halts the ring. (R345) Operands: what
  it reads. -/
  | hostReadTimeout (ring : Nat) (read : HostRead)
  /-- A timed-out read is issued again at the first boundary 1 ms later. (R345) -/
  | hostReadRetry (ring : Nat)
  /-- RW_CTRL.RESUME re-reads the failing entry of a halted ring at the next boundary. (R346) -/
  | ringResume (via : Via) (ring : Nat) (data : Word)
  /-- An FLR of a VF moves its rings to IDLE without head writes and sets FLR_DONE. (R350) -/
  | functionLevelReset (vf : Nat)
  /-- A write to a register with no row of its own acts by its fields' access types. (R7) Operands: the offset, the byte
  enables from it, the data, and the core cycle that the write meets, where events of that cycle meet it; none: it comes
  after every event so far. (R10) -/
  | registerWrite (via : Via) (addr : Nat) (be : Nat) (data : Word) (cyc : Option Nat)
  /-- A read of the LO half of a 64-bit pair latches its HI half. (R11) Operands: the offset and the byte enables. -/
  | loReadLatch (via : Via) (addr : Nat) (be : Nat)
  /-- A write of TOP.BOOT_LOCK.LOCKED locks every RWL field until a cold reset. (R359) -/
  | bootLock (src : Source)
  /-- PAGE_CTRL.ERR_CLR clears ERR_COUNT and ERR_FIRST of the page. (R354) Operands: the page index; the core cycle of the
  write, where its events are to meet it. -/
  | errClr (src : Source) (page : Nat) (cyc : Option Nat)
  /-- A write of IRQ_FORCE sets IRQ_STAT bits as if their events had occurred. (R354) Operands: the page index. -/
  | irqForce (src : Source) (page : Nat) (bits : Word)
  /-- A read of STAIR STAT returns PEAK and resets it to the current depth. (R150) -/
  | stairPeakRead (src : Source) (gal : Nat)
  /-- A read of DAMPER.PEAK or TEMP returns the peak and clears it. (R387) Operands: TEMP is read, not PEAK. -/
  | damperPeakRead (src : Source) (temp : Bool)
  /-- A read of RAS.LOG[0] removes the oldest log entry and latches the rest. (R402) -/
  | rasLogRead (src : Source)
  /-- A read of SMP[0] removes the oldest sample record and latches the rest. (R368) -/
  | sampleFifoRead (src : Source) (gal : Nat)
  /-- A commit of PC_VAL sets a counter, and arms sampling when SAMPLE_EN is set. (R367) Operands: a gallery, or none
  for the device page; the counter; PC_VAL_HI; the core cycle of the write, where its events are to meet it. -/
  | pcValCommit (src : Source) (page : Option Nat) (k : Nat) (hi : Word) (cyc : Option Nat)
  /-- PC_GCTL.CLR_ALL zeroes every counter of the page at the next boundary. (R365) Operands: a gallery, or none for the
  device page. -/
  | pcClearAll (src : Source) (page : Option Nat) (freeze : Bool)
  /-- A sample of a non-packet event names the first header accepted within 16 cycles, or none. (R368) -/
  | sampleSkidEnd (gal : Nat) (cyc : Nat)
  /-- VR_THROTTLE_N low for 100 ns sets the VR demand to LEVEL_MAX. (R380) -/
  | vrThrottleAssert
  /-- VR_THROTTLE_N rises and the VR demand starts to fall. (R380) -/
  | vrThrottleRelease
  /-- Every 10 µs the sensors are read and TJ_MAX updated. (R384) Operands: the 84 readings in °C. -/
  | thermalSensorRead (temps : List Nat)
  /-- Every 1 ms the THERMAL demand rises or falls with the hottest sensor. (R380) -/
  | thermalDemandStep
  /-- Every 1 ms PACE_LEVEL rises while the cap is unreachable or falls while power is low. (R383) -/
  | paceLevelStep
  /-- A 32 µs pacing period starts and lossless classes are driven to XOFF for k × 2 µs. (R383) -/
  | pacingPeriod
  /-- VDD_CORE droops beyond DROOP_MV and every core cycle is lengthened. (R385) -/
  | quenchStart (at_ : Droop)
  /-- The voltage holds within DROOP_MV for HOLD_CYC cycles and the quench ends. (R385) -/
  | quenchRelease (cyc : Nat)
  /-- A single-bit on-die SRAM error is corrected, rewritten and logged. (R389) -/
  | sramEccCorrected (unit : Nat) (inst : Nat) (addr : Nat)
  /-- An uncorrectable SRAM error takes its row out of use for the row test. (R391) -/
  | sramEccUncorrectable (unit : Nat) (inst : Nat) (addr : Nat)
  /-- A row test ends: the row returns to use or is permanent. (R391) Operands: the row passed. -/
  | rowTestComplete (unit : Nat) (inst : Nat) (addr : Nat) (ok : Bool)
  /-- A failed row's copy to a spare completes and its address switches at the boundary. (R393) -/
  | rowRepairSwitch
  /-- A correctable Lower Hall error is corrected, rewritten and counted. (R389) Operands: the stack has a post-package
  repair resource left. -/
  | lhEccCorrected (stack : Nat) (unit : Nat) (resource : Bool)
  /-- The retirement record is written to a flash copy within 100 ms of a change. (R399) Operands: the flash took it. -/
  | recordWrite (ok : Bool)
  /-- RR_CFG.CLEAR in CONFIG erases both copies of the retirement record. (R400) -/
  | rrClear (src : Source) (data : Word)
  /-- An SMBus Block Write, command 0x01, writes a BAR0 register. (R435) Operands: the address, the command code and the bytes
  after the count, and the PEC byte if one is sent. -/
  | smbusWrite (to_ : Nat) (block : SmbBlock) (pec : Option Byte)
  /-- An SMBus Block Write, command 0x02, sets the read address. (R435) -/
  | smbusSetAddress (to_ : Nat) (block : SmbBlock) (pec : Option Byte)
  /-- An SMBus Block Read, command 0x03, returns the data at the set address and advances it. (R435) Operands: the
  command code, and whether the master clocks a PEC byte. -/
  | smbusRead (to_ : Nat) (read : SmbRead)
  /-- SMB_CLK held low for 25–35 ms resets the SMBus interface. (R435) -/
  | smbusTimeout
  /-- The IDCODE instruction selects the identification register, 0x1020_4D2B. (R437) -/
  | jtagIdcode
  /-- The BYPASS instruction selects the bypass register. (R437) -/
  | jtagBypass
  /-- The SAMPLE/PRELOAD instruction captures and preloads the boundary-scan chain. (R437) Operands: the levels of the
  balls, and those shifted in. -/
  | jtagSamplePreload (levels : BallLevels) (preload : BallLevels)
  /-- The EXTEST instruction drives the boundary-scan balls in RESET and CONFIG, and acts as BYPASS otherwise. (R437)
  Operands: the levels of the balls. -/
  | jtagExtest (levels : BallLevels)
  /-- The CLAMP instruction holds the balls at preloaded values in RESET and CONFIG. (R437) -/
  | jtagClamp
  /-- The HIGHZ instruction sets the balls to high impedance in RESET and CONFIG. (R437) -/
  | jtagHighz
  /-- TRST_N low holds the TAP in Test-Logic-Reset. (R437) -/
  | jtagTrst (low : Bool)
  /-- The host clears a vector's MSI-X mask bit, and a message held in the Pending Bit Array is sent. (R356) Operands:
  the entry of the MSI-X table: 64 for each function. -/
  | msixVectorUnmask (entry : Nat)
  /-- A Delay_Resp does not arrive within 1 s of its Delay_Req; m is left unchanged and DRESP_MISSED counts. (R266) -/
  | delayRespMissed
  /-- A read of PPS_IN_CAP FRAC latches the NS, SEC_LO and SEC_HI of that capture. (R272) -/
  | ppsInCapRead (src : Source) (k : Nat)
  /-- A read of RAS.LOG_STAT returns OVF and clears it. (R402) -/
  | rasLogStatRead (src : Source)
  /-- A programmable counter counting CYCLES reaches 2^48 in a core cycle, wraps, sets OVF and may reload and sample.
  (R362) -/
  | cycleCounterWrap (page : Option Nat) (k : Nat) (cyc : Nat)
  /-- A host read of a sequencer image, or of a boot-download image (R415), times out; it is retried once after 1 ms,
  and a second timeout ends the load with HOST_MEM_ERR. (R326) Operands: 0 the boot download, 1 to 5 a role. -/
  | imageReadTimeout (role : Nat)
deriving DecidableEq, Repr

end Sys2Proof
end

