-- ==== Sys2Proof/Decode.lean ====
section
/-! DEFINITION. Commands spelled as words. The command table gives no row any bits: the LX204 takes no instruction words. -/

namespace Sys2Proof

/-- The command that a word of `nbits` bits spells by the table's bits: none, since no row of the table has bits. -/
def decodeTableWord (_nbits _w : Nat) : Option Instr := none

end Sys2Proof
end

