-- ==== Sys2Proof/Machine/Bits.lean ====
section
/-! DEFINITION. Bit fields, byte orders and the wrapped comparisons of R12: the helpers every family uses. -/

namespace Sys2Proof.Machine

/-- A field of a register: its lowest bit and its width. -/
structure Fld where
  lo : Nat
  w : Nat
deriving DecidableEq, Repr

/-- Bits [lo + w - 1 : lo] of `n`. -/
def bitsOf (n lo w : Nat) : Nat := n / 2 ^ lo % 2 ^ w

/-- The field `f` of a register word. -/
def Fld.get (f : Fld) (v : Word) : Nat := bitsOf v.toNat f.lo f.w

/-- The mask of a field in a register word. -/
def Fld.mask (f : Fld) : Nat := (2 ^ f.w - 1) * 2 ^ f.lo

/-- A register word with field `f` set to `n` (its low `f.w` bits). -/
def Fld.put (f : Fld) (v : Word) (n : Nat) : Word :=
  BitVec.ofNat 32 (v.toNat - bitsOf v.toNat f.lo f.w * 2 ^ f.lo + n % 2 ^ f.w * 2 ^ f.lo)

/-- Bit `k` of `n`. -/
def bit (n k : Nat) : Bool := n.testBit k

/-- 1 for true, 0 for false. -/
def b2n (b : Bool) : Nat := if b then 1 else 0

/-- `n` with bit `k` set. -/
def setBit (n k : Nat) : Nat := n ||| 2 ^ k

/-- `n` with bit `k` clear. -/
def clearBit (n k : Nat) : Nat := if n.testBit k then n - 2 ^ k else n

/-- The number of ones in the low `w` bits of `n`. -/
def popCount (n w : Nat) : Nat := ((List.range w).filter fun k => n.testBit k).length

/-- The lowest set bit among the low `w` bits of `n`. -/
def lowestBit (n w : Nat) : Option Nat := (List.range w).find? fun k => n.testBit k

/-- The integer value of a `w`-bit two's-complement field. -/
def signed (n w : Nat) : Int := if n % 2 ^ w < 2 ^ (w - 1) then Int.ofNat (n % 2 ^ w) else Int.ofNat (n % 2 ^ w) - Int.ofNat (2 ^ w)

/-- The `w`-bit two's-complement field of an integer. -/
def unsignedOf (i : Int) (w : Nat) : Nat := (i % Int.ofNat (2 ^ w)).toNat

/-- R12: `a` is later than `b`, both counted modulo 2^w. -/
def laterMod (w a b : Nat) : Bool :=
  let d := (a + 2 ^ w - b % 2 ^ w) % 2 ^ w
  decide (1 ≤ d ∧ d ≤ 2 ^ (w - 1) - 1)

/-- R12: `a` is at or beyond `b`, both counted modulo 2^w. -/
def atOrLaterMod (w a b : Nat) : Bool := decide (a % 2 ^ w = b % 2 ^ w) || laterMod w a b

/-- R12: `a` lies before `b`, both counted modulo 2^w (a difference of exactly half answers yes). -/
def beforeMod (w a b : Nat) : Bool := !atOrLaterMod w a b

/-- The difference `a - b` modulo 2^w. -/
def subMod (w a b : Nat) : Nat := (a % 2 ^ w + 2 ^ w - b % 2 ^ w) % 2 ^ w

/-- The number whose bytes, most significant first, are `bs` (network byte order). -/
def beNat (bs : Bytes) : Nat := bs.foldl (fun a b => a * 256 + b.toNat) 0

/-- The number whose bytes, least significant first, are `bs`. -/
def leNat : Bytes → Nat
  | [] => 0
  | b :: t => b.toNat + 256 * leNat t

/-- `k` bytes of `n`, least significant first. -/
def leBytes : Nat → Nat → Bytes
  | 0, _ => []
  | k + 1, n => BitVec.ofNat 8 n :: leBytes k (n / 256)

/-- `k` bytes of `n`, most significant first. -/
def beBytes (k n : Nat) : Bytes := (leBytes k n).reverse

/-- `k` zero bytes. -/
def zeroBytes (k : Nat) : Bytes := List.replicate k 0

/-- Byte `k` of a string, 0 past its end. -/
def byteAt (bs : Bytes) (k : Nat) : Nat := (bs.getD k 0).toNat

/-- `n` bytes of a string from offset `k`, padded with zeros past its end. -/
def sliceBytes (bs : Bytes) (k n : Nat) : Bytes := (List.range n).map fun j => bs.getD (k + j) 0

/-- The number held most significant byte first in `n` bytes at offset `k`. -/
def beAt (bs : Bytes) (k n : Nat) : Nat := beNat (sliceBytes bs k n)

/-- The number held least significant byte first in `n` bytes at offset `k`. -/
def leAt (bs : Bytes) (k n : Nat) : Nat := leNat (sliceBytes bs k n)

/-- A string with `new` written over it from offset `k` (bytes past its end are dropped). -/
def patchBytes (bs : Bytes) (k : Nat) (new : Bytes) : Bytes :=
  (List.range bs.length).map fun j => if k ≤ j ∧ j < k + new.length then new.getD (j - k) 0 else bs.getD j 0

/-- Replace element `i` of a list by its image. -/
def modifyAt {α : Type} (l : List α) (i : Nat) (f : α → α) : List α :=
  match l, i with
  | [], _ => []
  | a :: t, 0 => f a :: t
  | a :: t, n + 1 => a :: modifyAt t n f

/-- The ceiling of a quotient. -/
def ceilDiv (a b : Nat) : Nat := (a + b - 1) / b

end Sys2Proof.Machine
end

