-- ==== Sys2Proof/Machine/Sig.lean ====
section
/-! DEFINITION. SHA-384 and the check of an ECDSA P-384 signature, which R325 and R412 name: the spec gives no formulas, so
these are PRESUMED from the standards (FIPS 180-4, FIPS 186-4, SEC 1). -/

namespace Sys2Proof.Machine

/-- The round constants of SHA-384. -/
def shaK : List Nat :=
  [0x428A2F98D728AE22, 0x7137449123EF65CD, 0xB5C0FBCFEC4D3B2F, 0xE9B5DBA58189DBBC,
   0x3956C25BF348B538, 0x59F111F1B605D019, 0x923F82A4AF194F9B, 0xAB1C5ED5DA6D8118,
   0xD807AA98A3030242, 0x12835B0145706FBE, 0x243185BE4EE4B28C, 0x550C7DC3D5FFB4E2,
   0x72BE5D74F27B896F, 0x80DEB1FE3B1696B1, 0x9BDC06A725C71235, 0xC19BF174CF692694,
   0xE49B69C19EF14AD2, 0xEFBE4786384F25E3, 0x0FC19DC68B8CD5B5, 0x240CA1CC77AC9C65] ++
  [0x2DE92C6F592B0275, 0x4A7484AA6EA6E483, 0x5CB0A9DCBD41FBD4, 0x76F988DA831153B5,
   0x983E5152EE66DFAB, 0xA831C66D2DB43210, 0xB00327C898FB213F, 0xBF597FC7BEEF0EE4,
   0xC6E00BF33DA88FC2, 0xD5A79147930AA725, 0x06CA6351E003826F, 0x142929670A0E6E70,
   0x27B70A8546D22FFC, 0x2E1B21385C26C926, 0x4D2C6DFC5AC42AED, 0x53380D139D95B3DF,
   0x650A73548BAF63DE, 0x766A0ABB3C77B2A8, 0x81C2C92E47EDAEE6, 0x92722C851482353B] ++
  [0xA2BFE8A14CF10364, 0xA81A664BBC423001, 0xC24B8B70D0F89791, 0xC76C51A30654BE30,
   0xD192E819D6EF5218, 0xD69906245565A910, 0xF40E35855771202A, 0x106AA07032BBD1B8,
   0x19A4C116B8D2D0C8, 0x1E376C085141AB53, 0x2748774CDF8EEB99, 0x34B0BCB5E19B48A8,
   0x391C0CB3C5C95A63, 0x4ED8AA4AE3418ACB, 0x5B9CCA4F7763E373, 0x682E6FF3D6B2B8A3,
   0x748F82EE5DEFB2FC, 0x78A5636F43172F60, 0x84C87814A1F0AB72, 0x8CC702081A6439EC] ++
  [0x90BEFFFA23631E28, 0xA4506CEBDE82BDE9, 0xBEF9A3F7B2C67915, 0xC67178F2E372532B,
   0xCA273ECEEA26619C, 0xD186B8C721C0C207, 0xEADA7DD6CDE0EB1E, 0xF57D4F7FEE6ED178,
   0x06F067AA72176FBA, 0x0A637DC5A2C898A6, 0x113F9804BEF90DAE, 0x1B710B35131C471B,
   0x28DB77F523047D84, 0x32CAAB7B40C72493, 0x3C9EBE0A15C9BEBC, 0x431D67C49C100D4C,
   0x4CC5D4BECB3E42B6, 0x597F299CFC657E2A, 0x5FCB6FAB3AD6FAEC, 0x6C44198C4A475817]

/-- Its initial state. -/
def shaInit : List Nat :=
  [0xCBBB9D5DC1059ED8, 0x629A292A367CD507, 0x9159015A3070DD17, 0x152FECD8F70E5939,
   0x67332667FFC00B31, 0x8EB44A8768581511, 0xDB0C2E0D64F98FA7, 0x47B5481DBEFA4FA4]

/-- Addition of 64-bit words. -/
def add64 (l : List Nat) : Nat := l.sum % 2 ^ 64

def rotr64 (x n : Nat) : Nat := (x / 2 ^ n ||| x * 2 ^ (64 - n)) % 2 ^ 64

/-- The message schedule: 16 words of block, then `n` more; the newest word is first. -/
def shaExpand : Nat → List Nat → List Nat
  | 0, ws => ws
  | n + 1, ws =>
    let w (k : Nat) := ws.getD (k - 1) 0
    let s0 := rotr64 (w 15) 1 ^^^ rotr64 (w 15) 8 ^^^ w 15 / 2 ^ 7
    let s1 := rotr64 (w 2) 19 ^^^ rotr64 (w 2) 61 ^^^ w 2 / 2 ^ 6
    shaExpand n (add64 [w 16, s0, w 7, s1] :: ws)

/-- One round, on the eight working words. -/
def shaRound (s : List Nat) (kw : Nat) : List Nat :=
  match s with
  | [a, b, c, d, e, f, g, h] =>
    let s1 := rotr64 e 14 ^^^ rotr64 e 18 ^^^ rotr64 e 41
    let ch := (e &&& f) ^^^ ((2 ^ 64 - 1 - e) &&& g)
    let t1 := add64 [h, s1, ch, kw]
    let s0 := rotr64 a 28 ^^^ rotr64 a 34 ^^^ rotr64 a 39
    let maj := (a &&& b) ^^^ (a &&& c) ^^^ (b &&& c)
    [add64 [t1, s0, maj], a, b, c, add64 [d, t1], e, f, g]
  | _ => s

/-- A block of 16 words changes the state. -/
def shaBlock (s ws : List Nat) : List Nat :=
  let kw := List.zipWith (fun a b => a + b) shaK (shaExpand 64 ws.reverse).reverse
  List.zipWith (fun a b => (a + b) % 2 ^ 64) s (kw.foldl shaRound s)

/-- The SHA-384 digest of a byte string, 48 bytes. -/
def sha384 (bs : Bytes) : Bytes :=
  let pad := 1 + (239 - bs.length % 128) % 128
  let m := bs ++ [0x80] ++ zeroBytes (pad - 1) ++ beBytes 16 (8 * bs.length)
  let words := (List.range (m.length / 8)).map fun j => beNat ((m.drop (8 * j)).take 8)
  let s := (List.range (words.length / 16)).foldl (fun s j => shaBlock s ((words.drop (16 * j)).take 16)) shaInit
  (s.take 6).flatMap fun x => beBytes 8 x

-- P-384 ------------------------------------------------------------------------------------------------------------

/-- The field of P-384, the order of its group, and its coefficient b. -/
def p384P : Nat := 2 ^ 384 - 2 ^ 128 - 2 ^ 96 + 2 ^ 32 - 1
def p384N : Nat := 0xFFFFFFFFFFFFFFFFFFFFFFFFFFFFFFFFFFFFFFFFFFFFFFFFC7634D81F4372DDF581A0DB248B0A77AECEC196ACCC52973
def p384B : Nat := 0xB3312FA7E23EE7E4988E056BE3F82D19181D9C6EFE8141120314088F5013875AC656398D8A2ED19D2A85C8EDD3EC2AEF
/-- Its base point. -/
def p384G : Nat × Nat :=
  (0xAA87CA22BE8B05378EB1C71EF320AD746E1D3B628BA79B9859F741E082542A385502F25DBF55296C3A545E3872760AB7,
   0x3617DE4A96262C6F5D9E98BF9292DC29F8F41DBD289A147CE9DA3113B5F0B8C00A60B1CE1D7E819D7A431D7C90EA0E5F)

/-- A power modulo `m`, over the 384 bits of the exponent. -/
def powMod (m a e : Nat) : Nat :=
  ((List.range 384).foldl (fun (s : Nat × Nat) k =>
    (if bit e k then s.1 * s.2 % m else s.1, s.2 * s.2 % m)) (1 % m, a % m)).1

/-- The inverse modulo a prime. -/
def invMod (m a : Nat) : Nat := powMod m a (m - 2)

/-- Addition on the curve; none is the neutral element. -/
def ecAdd (a b : Option (Nat × Nat)) : Option (Nat × Nat) :=
  match a, b with
  | none, q => q
  | q, none => q
  | some (x1, y1), some (x2, y2) =>
    let p := p384P
    if x1 = x2 ∧ (y1 + y2) % p = 0 then none
    else
      let l := if x1 = x2 then (3 * x1 * x1 + (p - 3)) * invMod p (2 * y1) % p
        else (y2 + (p - y1)) * invMod p (x2 + (p - x1)) % p
      let x3 := (l * l + (p - x1) + (p - x2)) % p
      some (x3, (l * (x1 + (p - x3)) + (p - y1)) % p)

/-- A multiple of a point. -/
def ecMul (k : Nat) (q : Nat × Nat) : Option (Nat × Nat) :=
  (List.range 384).foldl (fun acc j =>
    let acc := ecAdd acc acc
    if bit k (383 - j) then ecAdd acc (some q) else acc) none

/-- A point of the curve. -/
def ecOn (q : Nat × Nat) : Bool :=
  decide (q.1 < p384P ∧ q.2 < p384P) &&
    decide (q.2 * q.2 % p384P = (q.1 * q.1 * q.1 + (p384P - 3) * q.1 + p384B) % p384P)

/-- Does the signature `r ‖ s` verify over a digest under the public key `x ‖ y`? -/
def ecdsaVerify (key digest sig : Bytes) : Bool :=
  let q := (beNat (key.take 48), beNat (key.drop 48))
  let r := beNat (sig.take 48)
  let s := beNat (sig.drop 48)
  if !ecOn q ∨ r = 0 ∨ p384N ≤ r ∨ s = 0 ∨ p384N ≤ s then false
  else
    let w := invMod p384N s
    match ecAdd (ecMul (beNat digest * w % p384N) p384G) (ecMul (r * w % p384N) q) with
    | none => false
    | some (x, _) => x % p384N == r

end Sys2Proof.Machine
end

