-- ==== Sys2Proof/Machine/Gcm.lean ====
section
/-! DEFINITION. AES and GMAC, the authentication-only mode of AES-GCM that R239 to R249 name: the spec gives no formulas,
so these are PRESUMED from the standards it cites (FIPS 197, SP 800-38D). Blocks are lists of 16 byte values. -/

namespace Sys2Proof.Machine

/-- Doubling in the field of AES. -/
def aesX (a : Nat) : Nat := if 128 ≤ a then (2 * a ^^^ 0x11B) % 256 else 2 * a

/-- Multiplication in the field of AES. -/
def aesMul (a b : Nat) : Nat :=
  ((List.range 8).foldl (fun (s : Nat × Nat) k => (if bit b k then s.1 ^^^ s.2 else s.1, aesX s.2)) (0, a)).1

/-- The inverse in the field of AES, as the 254th power; 0 has 0. -/
def aesInv (a : Nat) : Nat :=
  let a2 := aesMul a a
  let a3 := aesMul a2 a
  let a6 := aesMul a3 a3
  let a12 := aesMul a6 a6
  let a15 := aesMul a12 a3
  let a30 := aesMul a15 a15
  let a60 := aesMul a30 a30
  let a120 := aesMul a60 a60
  let a126 := aesMul a120 a6
  let a127 := aesMul a126 a
  aesMul a127 a127

/-- Rotate a byte left. -/
def rotByte (a k : Nat) : Nat := (a * 2 ^ k ||| a / 2 ^ (8 - k)) % 256

/-- The substitution of AES. -/
def aesSub (a : Nat) : Nat :=
  let b := aesInv a
  b ^^^ rotByte b 1 ^^^ rotByte b 2 ^^^ rotByte b 3 ^^^ rotByte b 4 ^^^ 0x63

/-- XOR of two lists, byte by byte. -/
def xorList (a b : List Nat) : List Nat := List.zipWith (· ^^^ ·) a b

/-- The round keys as 4-byte words: `k` words of key, `n` words in all, given in reverse order. -/
def aesExpand (k : Nat) : Nat → List (List Nat) → Nat → List (List Nat)
  | 0, ws, _ => ws
  | n + 1, ws, rcon =>
    let i := ws.length
    let prev := ws.headD []
    let t :=
      if i % k = 0 then
        let r := (prev.drop 1 ++ prev.take 1).map aesSub
        (r.headD 0 ^^^ rcon) :: r.drop 1
      else if k > 6 ∧ i % k = 4 then prev.map aesSub
      else prev
    aesExpand k n (xorList (ws.getD (k - 1) []) t :: ws) (if i % k = 0 then aesX rcon else rcon)

/-- The round keys of a key of 16 or 32 bytes, as blocks. -/
def aesKeys (key : List Nat) : List (List Nat) :=
  let k := key.length / 4
  let words := (List.range k).map fun j => (key.drop (4 * j)).take 4
  let all := (aesExpand k (4 * (k + 7) - k) words.reverse 1).reverse
  (List.range (k + 7)).map fun r => ((all.drop (4 * r)).take 4).flatten

/-- The row shift of AES on a block held column by column. -/
def aesShift (s : List Nat) : List Nat := (List.range 16).map fun j => s.getD ((j + 4 * (j % 4)) % 16) 0

/-- The column mix of AES. -/
def aesMix (s : List Nat) : List Nat :=
  (List.range 16).map fun j =>
    let c := j / 4 * 4
    let at_ (r : Nat) := s.getD (c + (j + r) % 4) 0
    aesX (at_ 0) ^^^ (aesX (at_ 1) ^^^ at_ 1) ^^^ at_ 2 ^^^ at_ 3

/-- The rounds after the first key addition. -/
def aesRounds : List (List Nat) → List Nat → List Nat
  | [], s => s
  | [k], s => xorList (aesShift (s.map aesSub)) k
  | k :: t, s => aesRounds t (xorList (aesMix (aesShift (s.map aesSub))) k)

/-- Encrypt one block. -/
def aesBlock (key block : List Nat) : List Nat :=
  match aesKeys key with
  | [] => block
  | k :: t => aesRounds t (xorList block k)

/-- The number of a block, most significant byte first. -/
def blockNat (b : List Nat) : Nat := b.foldl (fun a x => a * 256 + x) 0

/-- Multiplication in the field of GCM: bit 0 of a block is its most significant. -/
def gcmMul (x y : Nat) : Nat :=
  ((List.range 128).foldl (fun (s : Nat × Nat) k =>
    (if bit x (127 - k) then s.1 ^^^ s.2 else s.1,
     if s.2 % 2 = 1 then s.2 / 2 ^^^ 0xE1 * 2 ^ 120 else s.2 / 2)) (0, y)).1

/-- GHASH over whole blocks. -/
def ghash (h : Nat) (blocks : List Nat) : Nat := blocks.foldl (fun a b => gcmMul (a ^^^ b) h) 0

/-- GMAC: the 16-byte check value of `data` under a key of 16 or 32 bytes and a 96-bit IV. -/
def gmac (key : Bytes) (iv : Nat) (data : Bytes) : Bytes :=
  let k := key.map (·.toNat)
  let h := blockNat (aesBlock k (List.replicate 16 0))
  let blocks := (List.range ((data.length + 15) / 16)).map fun j => beAt data (16 * j) 16
  let s := ghash h (blocks ++ [8 * data.length * 2 ^ 64])
  let e := blockNat (aesBlock k ((beBytes 12 iv ++ beBytes 4 1).map fun (x : BitVec 8) => x.toNat))
  beBytes 16 (s ^^^ e)

end Sys2Proof.Machine
end

