-- ==== Sys2Proof/Machine/Fields.lean ====
section
/-! DEFINITION. The BAR0 address of every register (R351 and the register tables) and the bit range of every field the
meanings read or write, by the spec's names. -/

namespace Sys2Proof.Machine

def A.TOP_DEVICE_ID : Nat := 0x0 + 0x100
def A.TOP_DEV_STATE : Nat := 0x0 + 0x104
def A.TOP_DEV_CTRL : Nat := 0x0 + 0x108
def A.TOP_GAL_FENCED : Nat := 0x0 + 0x10c
def A.TOP_GAL_FENCE_DONE : Nat := 0x0 + 0x110
def A.TOP_GAL_FENCE_REQ : Nat := 0x0 + 0x114
def A.TOP_STROKE_LO : Nat := 0x0 + 0x120
def A.TOP_STROKE_HI : Nat := 0x0 + 0x124
def A.TOP_GEN_ACTIVE : Nat := 0x0 + 0x130
def A.TOP_GEN_STAGING : Nat := 0x0 + 0x134
def A.TOP_GEN_DRAIN : Nat := 0x0 + 0x138
def A.TOP_GEN_CTRL : Nat := 0x0 + 0x13c
def A.TOP_GEN_STAT : Nat := 0x0 + 0x140
def A.TOP_GEN_FLIP_AT_LO : Nat := 0x0 + 0x144
def A.TOP_GEN_FLIP_AT_HI : Nat := 0x0 + 0x148
def A.TOP_GEN_DRAIN_STK : Nat := 0x0 + 0x14c
def A.TOP_GEN_RESYNC_STK : Nat := 0x0 + 0x150
def A.TOP_GEN_NOTIFY_ADDR_LO : Nat := 0x0 + 0x154
def A.TOP_GEN_NOTIFY_ADDR_HI : Nat := 0x0 + 0x158
def A.TOP_SNAP_CTRL : Nat := 0x0 + 0x160
def A.TOP_SNAP_PERIOD : Nat := 0x0 + 0x164
def A.TOP_SNAP_STROKE_LO : Nat := 0x0 + 0x168
def A.TOP_SNAP_STROKE_HI : Nat := 0x0 + 0x16c
def A.TOP_SNAP_GEN : Nat := 0x0 + 0x170
def A.TOP_BUDGET_SEL : Nat := 0x0 + 0x180
def A.TOP_BUDGET_LIMIT : Nat := 0x0 + 0x184
def A.TOP_BUDGET_USED : Nat := 0x0 + 0x188
def A.TOP_BUDGET_WAIT_LO : Nat := 0x0 + 0x18c
def A.TOP_BUDGET_WAIT_HI : Nat := 0x0 + 0x190
def A.TOP_PROFILE : Nat := 0x0 + 0x1a0
def A.TOP_PROFILE_BUSY : Nat := 0x0 + 0x1a4
def A.TOP_PARSE_BANK : Nat := 0x0 + 0x1c0
def A.TOP_DROP_FENCED_LO : Nat := 0x0 + 0x1d0
def A.TOP_DROP_FENCED_HI : Nat := 0x0 + 0x1d4
def A.TOP_BOOT_LOCK : Nat := 0x0 + 0x1e0
def A.TOP_RESET_CTRL : Nat := 0x0 + 0x1e4
def A.TOP_RESET_CFG : Nat := 0x0 + 0x1e8
def A.TOP_BOOT_STAT : Nat := 0x0 + 0x1ec
def A.TOP_BOOT_DL_ADDR_LO : Nat := 0x0 + 0x1f0
def A.TOP_BOOT_DL_ADDR_HI : Nat := 0x0 + 0x1f4
def A.TOP_BOOT_DL_LEN : Nat := 0x0 + 0x1f8
def A.TOP_BOOT_DL_CMD : Nat := 0x0 + 0x1fc
def A.TOP_IRQ_PEND (i : Nat) : Nat := 0x0 + 0x200 + i * 0x4
def A.TOP_BOOT_SVN : Nat := 0x0 + 0x260
def A.TOP_BOOT_SVN_MIN : Nat := 0x0 + 0x264
def A.TOP_BOOT_KEY_FUSE (i : Nat) : Nat := 0x0 + 0x268 + i * 0x4
def A.TOP_GPIO_OUT : Nat := 0x0 + 0x2a0
def A.TOP_GPIO_OE : Nat := 0x0 + 0x2a4
def A.TOP_GPIO_IN : Nat := 0x0 + 0x2a8
def A.TOP_IPV4_HDR_IDS_LO : Nat := 0x0 + 0x2b0
def A.TOP_IPV4_HDR_IDS_HI : Nat := 0x0 + 0x2b4
def A.TOP_MIRROR (i : Nat) : Nat := 0x0 + 0x400 + i * 0x4
def A.LANE_EVT_UP (n i : Nat) : Nat := 0x200000 + n * 0x10000 + 0x100 + i * 0x4
def A.LANE_EVT_DOWN (n i : Nat) : Nat := 0x200000 + n * 0x10000 + 0x110 + i * 0x4
def A.LANE_LN_CTRL (n i : Nat) : Nat := 0x200000 + n * 0x10000 + 0x1000 + i * 0x80
def A.LANE_LN_STAT (n i : Nat) : Nat := 0x200000 + n * 0x10000 + 0x1004 + i * 0x80
def A.LANE_LN_TXEQ (n i : Nat) : Nat := 0x200000 + n * 0x10000 + 0x1008 + i * 0x80
def A.LANE_LN_RXEQ (n i : Nat) : Nat := 0x200000 + n * 0x10000 + 0x100c + i * 0x80
def A.LANE_LN_BRINGUP (n i : Nat) : Nat := 0x200000 + n * 0x10000 + 0x1010 + i * 0x80
def A.LANE_LN_AN_ADV (n i : Nat) : Nat := 0x200000 + n * 0x10000 + 0x1014 + i * 0x80
def A.LANE_LN_AN_LP (n i : Nat) : Nat := 0x200000 + n * 0x10000 + 0x1018 + i * 0x80
def A.LANE_LN_PRBS (n i : Nat) : Nat := 0x200000 + n * 0x10000 + 0x101c + i * 0x80
def A.LANE_LN_INJ (n i : Nat) : Nat := 0x200000 + n * 0x10000 + 0x1020 + i * 0x80
def A.LANE_LN_PRBS_ERR_LO (n i : Nat) : Nat := 0x200000 + n * 0x10000 + 0x1024 + i * 0x80
def A.LANE_LN_PRBS_ERR_HI (n i : Nat) : Nat := 0x200000 + n * 0x10000 + 0x1028 + i * 0x80
def A.LANE_LN_BITSLIP (n i : Nat) : Nat := 0x200000 + n * 0x10000 + 0x102c + i * 0x80
def A.LANE_LN_CNT (n i : Nat) : Nat := 0x200000 + n * 0x10000 + 0x1030 + i * 0x80
def A.D2D_LK_CTRL (n i : Nat) : Nat := 0x300000 + n * 0x10000 + 0x1000 + i * 0x100
def A.D2D_LK_STAT (n i : Nat) : Nat := 0x300000 + n * 0x10000 + 0x1004 + i * 0x100
def A.D2D_LK_REPAIR_OUT (n i : Nat) : Nat := 0x300000 + n * 0x10000 + 0x1008 + i * 0x100
def A.D2D_LK_REPAIR_IN (n i : Nat) : Nat := 0x300000 + n * 0x10000 + 0x100c + i * 0x100
def A.D2D_LK_REPLAY_LO (n i : Nat) : Nat := 0x300000 + n * 0x10000 + 0x1010 + i * 0x100
def A.D2D_LK_REPLAY_HI (n i : Nat) : Nat := 0x300000 + n * 0x10000 + 0x1014 + i * 0x100
def A.D2D_LK_ERRFLIT_LO (n i : Nat) : Nat := 0x300000 + n * 0x10000 + 0x1018 + i * 0x100
def A.D2D_LK_ERRFLIT_HI (n i : Nat) : Nat := 0x300000 + n * 0x10000 + 0x101c + i * 0x100
def A.D2D_LK_SLIP (n i : Nat) : Nat := 0x300000 + n * 0x10000 + 0x1020 + i * 0x100
def A.PORT_PT_CFG (n i : Nat) : Nat := 0x1000000 + n * 0x100000 + 0x10000 + 0x1000 + i * 0x400
def A.PORT_PT_FRAME (n i : Nat) : Nat := 0x1000000 + n * 0x100000 + 0x10000 + 0x1004 + i * 0x400
def A.PORT_PT_LPI (n i : Nat) : Nat := 0x1000000 + n * 0x100000 + 0x10000 + 0x1008 + i * 0x400
def A.PORT_PT_STAT (n i : Nat) : Nat := 0x1000000 + n * 0x100000 + 0x10000 + 0x100c + i * 0x400
def A.PORT_PT_PFC (n i : Nat) : Nat := 0x1000000 + n * 0x100000 + 0x10000 + 0x1010 + i * 0x400
def A.PORT_PT_PRI_Q (n i : Nat) : Nat := 0x1000000 + n * 0x100000 + 0x10000 + 0x1014 + i * 0x400
def A.PORT_PT_DELAY (n i : Nat) : Nat := 0x1000000 + n * 0x100000 + 0x10000 + 0x1018 + i * 0x400
def A.PORT_PT_DELAY_CFG (n i : Nat) : Nat := 0x1000000 + n * 0x100000 + 0x10000 + 0x101c + i * 0x400
def A.PORT_PT_HDRM (n i j : Nat) : Nat := 0x1000000 + n * 0x100000 + 0x10000 + 0x1020 + i * 0x400 + j * 0x4
def A.PORT_PT_MAC_LO (n i : Nat) : Nat := 0x1000000 + n * 0x100000 + 0x10000 + 0x1030 + i * 0x400
def A.PORT_PT_MAC_HI (n i : Nat) : Nat := 0x1000000 + n * 0x100000 + 0x10000 + 0x1034 + i * 0x400
def A.PORT_PT_CNT (n i j : Nat) : Nat := 0x1000000 + n * 0x100000 + 0x10000 + 0x1100 + i * 0x400 + j * 0x8
def A.PARSE_PS_PCLASS (n i : Nat) : Nat := 0x1000000 + n * 0x100000 + 0x20000 + 0x110 + i * 0x4
def A.PARSE_IC_CFG (n i : Nat) : Nat := 0x1000000 + n * 0x100000 + 0x20000 + 0x200 + i * 0x10
def A.PARSE_IC_HASH (n i : Nat) : Nat := 0x1000000 + n * 0x100000 + 0x20000 + 0x204 + i * 0x10
def A.PARSE_IC_AUX (n i : Nat) : Nat := 0x1000000 + n * 0x100000 + 0x20000 + 0x208 + i * 0x10
def A.PARSE_HP_CFG (n i : Nat) : Nat := 0x1000000 + n * 0x100000 + 0x20000 + 0x400 + i * 0x80
def A.PARSE_HP_SEED (n i : Nat) : Nat := 0x1000000 + n * 0x100000 + 0x20000 + 0x404 + i * 0x80
def A.PARSE_HP_SEL (n i j : Nat) : Nat := 0x1000000 + n * 0x100000 + 0x20000 + 0x408 + i * 0x80 + j * 0x4
def A.PARSE_HP_KEY (n i j : Nat) : Nat := 0x1000000 + n * 0x100000 + 0x20000 + 0x448 + i * 0x80 + j * 0x4
def A.PARSE_PS_CNT (n i : Nat) : Nat := 0x1000000 + n * 0x100000 + 0x20000 + 0x800 + i * 0x8
def A.PARSE_ST_HDR (n i j : Nat) : Nat := 0x1000000 + n * 0x100000 + 0x20000 + 0x4000 + i * 0x4000 + j * 0x100
def A.PARSE_ST_LEN (n i j : Nat) : Nat := 0x1000000 + n * 0x100000 + 0x20000 + 0x4004 + i * 0x4000 + j * 0x100
def A.PARSE_ST_KEY (n i j : Nat) : Nat := 0x1000000 + n * 0x100000 + 0x20000 + 0x4008 + i * 0x4000 + j * 0x100
def A.PARSE_ST_DEFAULT (n i j : Nat) : Nat := 0x1000000 + n * 0x100000 + 0x20000 + 0x400c + i * 0x4000 + j * 0x100
def A.PARSE_ST_TR_MATCH (n i j k : Nat) : Nat := 0x1000000 + n * 0x100000 + 0x20000 + 0x4010 + i * 0x4000 + j * 0x100 + k * 0x8
def A.PARSE_ST_TR_NEXT (n i j k : Nat) : Nat := 0x1000000 + n * 0x100000 + 0x20000 + 0x4014 + i * 0x4000 + j * 0x100 + k * 0x8
def A.PARSE_ST_EX (n i j k : Nat) : Nat := 0x1000000 + n * 0x100000 + 0x20000 + 0x4050 + i * 0x4000 + j * 0x100 + k * 0x4
def A.MATCH_ACT_ADDR (n : Nat) : Nat := 0x1000000 + n * 0x100000 + 0x30000 + 0x100
def A.MATCH_ACT_DATA (n i : Nat) : Nat := 0x1000000 + n * 0x100000 + 0x30000 + 0x104 + i * 0x4
def A.MATCH_ACT_CMD (n : Nat) : Nat := 0x1000000 + n * 0x100000 + 0x30000 + 0x114
def A.MATCH_MATCH_CNT (n i : Nat) : Nat := 0x1000000 + n * 0x100000 + 0x30000 + 0x800 + i * 0x8
def A.MATCH_LU_CFG (n i j k : Nat) : Nat := 0x1000000 + n * 0x100000 + 0x30000 + 0x1000 + i * 0x2000 + j * 0x100 + k * 0x10
def A.MATCH_LU_AUX (n i j k : Nat) : Nat := 0x1000000 + n * 0x100000 + 0x30000 + 0x1004 + i * 0x2000 + j * 0x100 + k * 0x10
def A.STAIR_CTRL (n : Nat) : Nat := 0x1000000 + n * 0x100000 + 0x40000 + 0x100
def A.STAIR_STAT (n : Nat) : Nat := 0x1000000 + n * 0x100000 + 0x40000 + 0x104
def A.STAIR_STAIR_CNT (n i : Nat) : Nat := 0x1000000 + n * 0x100000 + 0x40000 + 0x200 + i * 0x8
def A.EGRESS_T_CFG (n i : Nat) : Nat := 0x1000000 + n * 0x100000 + 0x50000 + 0x100 + i * 0x4
def A.EGRESS_LU_CFG (n i j k : Nat) : Nat := 0x1000000 + n * 0x100000 + 0x50000 + 0x4000 + i * 0x800 + j * 0x100 + k * 0x10
def A.EGRESS_LU_AUX (n i j k : Nat) : Nat := 0x1000000 + n * 0x100000 + 0x50000 + 0x4004 + i * 0x800 + j * 0x100 + k * 0x10
def A.EGRESS_T_BYTES (n i j : Nat) : Nat := 0x1000000 + n * 0x100000 + 0x50000 + 0x8000 + i * 0x80 + j * 0x4
def A.TABLE_LEARN_CFG : Nat := 0x80000 + 0x100
def A.TABLE_LEARN_PROF (i : Nat) : Nat := 0x80000 + 0x110 + i * 0x4
def A.TABLE_AGE_CFG : Nat := 0x80000 + 0x120
def A.TABLE_LOCK_CFG : Nat := 0x80000 + 0x124
def A.TABLE_LOCK_STAT : Nat := 0x80000 + 0x128
def A.TABLE_LOCK_EXP_ROW : Nat := 0x80000 + 0x12c
def A.TABLE_EM_SEED0 : Nat := 0x80000 + 0x130
def A.TABLE_EM_SEED1 : Nat := 0x80000 + 0x134
def A.TABLE_EM_SEED2 : Nat := 0x80000 + 0x138
def A.TABLE_EM_SEED3 : Nat := 0x80000 + 0x13c
def A.TABLE_EXT_SEED0 : Nat := 0x80000 + 0x140
def A.TABLE_EXT_SEED1 : Nat := 0x80000 + 0x144
def A.TABLE_EXT_CFG : Nat := 0x80000 + 0x148
def A.TABLE_EM_STAT : Nat := 0x80000 + 0x14c
def A.TABLE_FFT_CFG : Nat := 0x80000 + 0x400
def A.TABLE_FFT_USED : Nat := 0x80000 + 0x404
def A.TABLE_FFT_EVICT_LO : Nat := 0x80000 + 0x408
def A.TABLE_FFT_EVICT_HI : Nat := 0x80000 + 0x40c
def A.TABLE_TBL_CNT (i : Nat) : Nat := 0x80000 + 0x800 + i * 0x8
def A.HALL_Q_SEL : Nat := 0x90000 + 0x100
def A.HALL_Q_CFG : Nat := 0x90000 + 0x104
def A.HALL_Q_SPILL : Nat := 0x90000 + 0x108
def A.HALL_Q_STAT0 : Nat := 0x90000 + 0x10c
def A.HALL_Q_STAT1 : Nat := 0x90000 + 0x110
def A.HALL_Q_MARK : Nat := 0x90000 + 0x114
def A.HALL_Q_AVG : Nat := 0x90000 + 0x118
def A.HALL_P_SEL : Nat := 0x90000 + 0x120
def A.HALL_P_CFG : Nat := 0x90000 + 0x124
def A.HALL_C_CFG (i : Nat) : Nat := 0x90000 + 0x130 + i * 0x4
def A.HALL_C_STAT (i : Nat) : Nat := 0x90000 + 0x140 + i * 0x4
def A.HALL_C_HDRM (i : Nat) : Nat := 0x90000 + 0x150 + i * 0x4
def A.HALL_FREE_SHARED : Nat := 0x90000 + 0x180
def A.HALL_SHARED_TOTAL : Nat := 0x90000 + 0x184
def A.HALL_MIN_SUM : Nat := 0x90000 + 0x188
def A.HALL_SPARES : Nat := 0x90000 + 0x18c
def A.HALL_ECN_CFG : Nat := 0x90000 + 0x190
def A.HALL_REP_ADDR : Nat := 0x90000 + 0x200
def A.HALL_REP_DATA : Nat := 0x90000 + 0x204
def A.HALL_REP_CMD : Nat := 0x90000 + 0x208
def A.HALL_WP_MIN (i : Nat) : Nat := 0x90000 + 0x300 + i * 0x10
def A.HALL_WP_MAX (i : Nat) : Nat := 0x90000 + 0x304 + i * 0x10
def A.HALL_WP_CFG (i : Nat) : Nat := 0x90000 + 0x308 + i * 0x10
def A.HALL_HALL_CNT (i : Nat) : Nat := 0x90000 + 0x800 + i * 0x8
def A.LHALL_POOL_SIZE0 : Nat := 0xa0000 + 0x100
def A.LHALL_POOL_SIZE1 : Nat := 0xa0000 + 0x104
def A.LHALL_POOL_SIZE2 : Nat := 0xa0000 + 0x108
def A.LHALL_POOL_SIZE3 : Nat := 0xa0000 + 0x10c
def A.LHALL_OWN_RES0_0 : Nat := 0xa0000 + 0x200
def A.LHALL_OWN_RES0_1 : Nat := 0xa0000 + 0x204
def A.LHALL_OWN_RES0_2 : Nat := 0xa0000 + 0x208
def A.LHALL_OWN_RES0_3 : Nat := 0xa0000 + 0x20c
def A.LHALL_OWN_RES1_0 : Nat := 0xa0000 + 0x210
def A.LHALL_OWN_RES1_1 : Nat := 0xa0000 + 0x214
def A.LHALL_OWN_RES1_2 : Nat := 0xa0000 + 0x218
def A.LHALL_OWN_RES1_3 : Nat := 0xa0000 + 0x21c
def A.LHALL_OWN_RES2_0 : Nat := 0xa0000 + 0x220
def A.LHALL_OWN_RES2_1 : Nat := 0xa0000 + 0x224
def A.LHALL_OWN_RES2_2 : Nat := 0xa0000 + 0x228
def A.LHALL_OWN_RES2_3 : Nat := 0xa0000 + 0x22c
def A.LHALL_OWN_RES3_0 : Nat := 0xa0000 + 0x230
def A.LHALL_OWN_RES3_1 : Nat := 0xa0000 + 0x234
def A.LHALL_OWN_RES3_2 : Nat := 0xa0000 + 0x238
def A.LHALL_OWN_RES3_3 : Nat := 0xa0000 + 0x23c
def A.LHALL_OWN_RES4_0 : Nat := 0xa0000 + 0x240
def A.LHALL_OWN_RES4_1 : Nat := 0xa0000 + 0x244
def A.LHALL_OWN_RES4_2 : Nat := 0xa0000 + 0x248
def A.LHALL_OWN_RES4_3 : Nat := 0xa0000 + 0x24c
def A.LHALL_OWN_RES5_0 : Nat := 0xa0000 + 0x250
def A.LHALL_OWN_RES5_1 : Nat := 0xa0000 + 0x254
def A.LHALL_OWN_RES5_2 : Nat := 0xa0000 + 0x258
def A.LHALL_OWN_RES5_3 : Nat := 0xa0000 + 0x25c
def A.LHALL_OWN_MAX (i : Nat) : Nat := 0xa0000 + 0x300 + i * 0x4
def A.LHALL_OWN_HELD (i j : Nat) : Nat := 0xa0000 + 0x400 + i * 0x10 + j * 0x4
def A.LHALL_LH_STAT : Nat := 0xa0000 + 0x500
def A.BILLET_POOL_STAT (i : Nat) : Nat := 0xb0000 + 0x100 + i * 0x4
def A.BILLET_POOL_FREE (i : Nat) : Nat := 0xb0000 + 0x110 + i * 0x4
def A.BILLET_ERR_PTR : Nat := 0xb0000 + 0x120
def A.BILLET_ERR_SRC : Nat := 0xb0000 + 0x124
def A.BILLET_BILLET_CNT (i : Nat) : Nat := 0xb0000 + 0x800 + i * 0x8
def A.SCHED_Q_SCHED (n i : Nat) : Nat := 0x1000000 + n * 0x100000 + 0x60000 + 0x1000 + i * 0x20
def A.SCHED_Q_RATE (n i : Nat) : Nat := 0x1000000 + n * 0x100000 + 0x60000 + 0x1004 + i * 0x20
def A.SCHED_Q_BURST (n i : Nat) : Nat := 0x1000000 + n * 0x100000 + 0x60000 + 0x1008 + i * 0x20
def A.SCHED_Q_TOKENS (n i : Nat) : Nat := 0x1000000 + n * 0x100000 + 0x60000 + 0x100c + i * 0x20
def A.SCHED_Q_STAT (n i : Nat) : Nat := 0x1000000 + n * 0x100000 + 0x60000 + 0x1010 + i * 0x20
def A.SCHED_P_SCHED (n i : Nat) : Nat := 0x1000000 + n * 0x100000 + 0x60000 + 0x5000 + i * 0x20
def A.SCHED_P_RATE (n i : Nat) : Nat := 0x1000000 + n * 0x100000 + 0x60000 + 0x5004 + i * 0x20
def A.SCHED_P_BURST (n i : Nat) : Nat := 0x1000000 + n * 0x100000 + 0x60000 + 0x5008 + i * 0x20
def A.SCHED_P_TOKENS (n i : Nat) : Nat := 0x1000000 + n * 0x100000 + 0x60000 + 0x500c + i * 0x20
def A.SCHED_P_STAT (n i : Nat) : Nat := 0x1000000 + n * 0x100000 + 0x60000 + 0x5010 + i * 0x20
def A.SCHED_G_RATE (n i : Nat) : Nat := 0x1000000 + n * 0x100000 + 0x60000 + 0x5404 + i * 0x20
def A.SCHED_G_BURST (n i : Nat) : Nat := 0x1000000 + n * 0x100000 + 0x60000 + 0x5408 + i * 0x20
def A.SCHED_G_TOKENS (n i : Nat) : Nat := 0x1000000 + n * 0x100000 + 0x60000 + 0x540c + i * 0x20
def A.SCHED_G_STAT (n i : Nat) : Nat := 0x1000000 + n * 0x100000 + 0x60000 + 0x5410 + i * 0x20
def A.SCHED_Q_CNT (n i j : Nat) : Nat := 0x1000000 + n * 0x100000 + 0x60000 + 0x8000 + i * 0x40 + j * 0x8
def A.GATE_GT_CTRL (n i : Nat) : Nat := 0x1000000 + n * 0x100000 + 0x70000 + 0x100 + i * 0x20
def A.GATE_GT_CYCLE (n i : Nat) : Nat := 0x1000000 + n * 0x100000 + 0x70000 + 0x104 + i * 0x20
def A.GATE_GT_BASE_NS (n i : Nat) : Nat := 0x1000000 + n * 0x100000 + 0x70000 + 0x108 + i * 0x20
def A.GATE_GT_BASE_SEC_LO (n i : Nat) : Nat := 0x1000000 + n * 0x100000 + 0x70000 + 0x10c + i * 0x20
def A.GATE_GT_BASE_SEC_HI (n i : Nat) : Nat := 0x1000000 + n * 0x100000 + 0x70000 + 0x110 + i * 0x20
def A.GATE_GT_STAT (n i : Nat) : Nat := 0x1000000 + n * 0x100000 + 0x70000 + 0x114 + i * 0x20
def A.GATE_GT_OVERRUN (n i : Nat) : Nat := 0x1000000 + n * 0x100000 + 0x70000 + 0x118 + i * 0x20
def A.GATE_GT_GATES (n i j k : Nat) : Nat := 0x1000000 + n * 0x100000 + 0x70000 + 0x8000 + i * 0x400 + j * 0x200 + k * 0x8
def A.GATE_GT_INTERVAL (n i j k : Nat) : Nat := 0x1000000 + n * 0x100000 + 0x70000 + 0x8004 + i * 0x400 + j * 0x200 + k * 0x8
def A.POLICE_M_SEL (n : Nat) : Nat := 0x1000000 + n * 0x100000 + 0x80000 + 0x100
def A.POLICE_M_CFG (n : Nat) : Nat := 0x1000000 + n * 0x100000 + 0x80000 + 0x104
def A.POLICE_M_CIR (n : Nat) : Nat := 0x1000000 + n * 0x100000 + 0x80000 + 0x108
def A.POLICE_M_CBS (n : Nat) : Nat := 0x1000000 + n * 0x100000 + 0x80000 + 0x10c
def A.POLICE_M_PIR (n : Nat) : Nat := 0x1000000 + n * 0x100000 + 0x80000 + 0x110
def A.POLICE_M_PBS (n : Nat) : Nat := 0x1000000 + n * 0x100000 + 0x80000 + 0x114
def A.POLICE_M_TC (n : Nat) : Nat := 0x1000000 + n * 0x100000 + 0x80000 + 0x118
def A.POLICE_M_TP (n : Nat) : Nat := 0x1000000 + n * 0x100000 + 0x80000 + 0x11c
def A.POLICE_M_CNT (n i : Nat) : Nat := 0x1000000 + n * 0x100000 + 0x80000 + 0x200 + i * 0x8
def A.GAL_DROP_CFG (n : Nat) : Nat := 0x1000000 + n * 0x100000 + 0x0 + 0x100
def A.GAL_DROP_STAT (n : Nat) : Nat := 0x1000000 + n * 0x100000 + 0x0 + 0x104
def A.GAL_FS_CLASS (n i : Nat) : Nat := 0x1000000 + n * 0x100000 + 0x0 + 0x200 + i * 0x4
def A.GAL_DROP_CNT (n i : Nat) : Nat := 0x1000000 + n * 0x100000 + 0x0 + 0x800 + i * 0x8
def A.GAL_DROP_AGG (n i : Nat) : Nat := 0x1000000 + n * 0x100000 + 0x0 + 0x1000 + i * 0x8
def A.KEYS_KEY_SEL : Nat := 0xe0000 + 0x100
def A.KEYS_KEY_DATA (i : Nat) : Nat := 0xe0000 + 0x110 + i * 0x4
def A.KEYS_KEY_SALT (i : Nat) : Nat := 0xe0000 + 0x130 + i * 0x4
def A.KEYS_KEY_CMD : Nat := 0xe0000 + 0x140
def A.KEYS_SLOT_STAT : Nat := 0xe0000 + 0x144
def A.INTEG_P_CFG (n i : Nat) : Nat := 0x1000000 + n * 0x100000 + 0x90000 + 0x100 + i * 0x4
def A.INTEG_TX_SCI_LO (n i : Nat) : Nat := 0x1000000 + n * 0x100000 + 0x90000 + 0x200 + i * 0x8
def A.INTEG_TX_SCI_HI (n i : Nat) : Nat := 0x1000000 + n * 0x100000 + 0x90000 + 0x204 + i * 0x8
def A.INTEG_SA_SEL (n : Nat) : Nat := 0x1000000 + n * 0x100000 + 0x90000 + 0x400
def A.INTEG_SA_CFG (n : Nat) : Nat := 0x1000000 + n * 0x100000 + 0x90000 + 0x404
def A.INTEG_SA_PN_LO (n : Nat) : Nat := 0x1000000 + n * 0x100000 + 0x90000 + 0x408
def A.INTEG_SA_PN_HI (n : Nat) : Nat := 0x1000000 + n * 0x100000 + 0x90000 + 0x40c
def A.INTEG_SA_SSCI (n : Nat) : Nat := 0x1000000 + n * 0x100000 + 0x90000 + 0x410
def A.INTEG_SA_WINDOW (n : Nat) : Nat := 0x1000000 + n * 0x100000 + 0x90000 + 0x414
def A.INTEG_SA_STAT (n : Nat) : Nat := 0x1000000 + n * 0x100000 + 0x90000 + 0x418
def A.INTEG_PN_THRESH_LO (n : Nat) : Nat := 0x1000000 + n * 0x100000 + 0x90000 + 0x420
def A.INTEG_PN_THRESH_HI (n : Nat) : Nat := 0x1000000 + n * 0x100000 + 0x90000 + 0x424
def A.INTEG_RSC_SEL (n : Nat) : Nat := 0x1000000 + n * 0x100000 + 0x90000 + 0x500
def A.INTEG_RSC_SCI_LO (n : Nat) : Nat := 0x1000000 + n * 0x100000 + 0x90000 + 0x504
def A.INTEG_RSC_SCI_HI (n : Nat) : Nat := 0x1000000 + n * 0x100000 + 0x90000 + 0x508
def A.INTEG_RSC_CFG (n : Nat) : Nat := 0x1000000 + n * 0x100000 + 0x90000 + 0x50c
def A.INTEG_PTP_SPP (n i : Nat) : Nat := 0x1000000 + n * 0x100000 + 0x90000 + 0x600 + i * 0x8
def A.INTEG_PTP_KEYID (n i : Nat) : Nat := 0x1000000 + n * 0x100000 + 0x90000 + 0x604 + i * 0x8
def A.INTEG_INTEG_CNT (n i : Nat) : Nat := 0x1000000 + n * 0x100000 + 0x90000 + 0x800 + i * 0x8
def A.TIME_NOW_FRAC : Nat := 0x30000 + 0x100
def A.TIME_NOW_NS : Nat := 0x30000 + 0x104
def A.TIME_NOW_SEC_LO : Nat := 0x30000 + 0x108
def A.TIME_NOW_SEC_HI : Nat := 0x30000 + 0x10c
def A.TIME_RATE_LO : Nat := 0x30000 + 0x110
def A.TIME_RATE_HI : Nat := 0x30000 + 0x114
def A.TIME_STEP_NS : Nat := 0x30000 + 0x118
def A.TIME_STEP_SEC_LO : Nat := 0x30000 + 0x11c
def A.TIME_STEP_SEC_HI : Nat := 0x30000 + 0x120
def A.TIME_STEP_CTRL : Nat := 0x30000 + 0x124
def A.TIME_CLK_CFG : Nat := 0x30000 + 0x130
def A.TIME_CLOCK_ID_LO : Nat := 0x30000 + 0x138
def A.TIME_CLOCK_ID_HI : Nat := 0x30000 + 0x13c
def A.TIME_SERVO_CTRL : Nat := 0x30000 + 0x140
def A.TIME_SRC_ID_LO : Nat := 0x30000 + 0x144
def A.TIME_SRC_ID_HI : Nat := 0x30000 + 0x148
def A.TIME_SRC_PNUM : Nat := 0x30000 + 0x14c
def A.TIME_SERVO_GAIN : Nat := 0x30000 + 0x150
def A.TIME_SERVO_THRESH : Nat := 0x30000 + 0x154
def A.TIME_SERVO_STAT : Nat := 0x30000 + 0x158
def A.TIME_OFFSET_LO : Nat := 0x30000 + 0x160
def A.TIME_OFFSET_HI : Nat := 0x30000 + 0x164
def A.TIME_PATH_DELAY : Nat := 0x30000 + 0x168
def A.TIME_HOLD_RATE_LO : Nat := 0x30000 + 0x16c
def A.TIME_HOLD_RATE_HI : Nat := 0x30000 + 0x170
def A.TIME_PTP_CFG : Nat := 0x30000 + 0x180
def A.TIME_SRV_CNT (i : Nat) : Nat := 0x30000 + 0x190 + i * 0x8
def A.TIME_PPS_OUT_CFG (i : Nat) : Nat := 0x30000 + 0x200 + i * 0x4
def A.TIME_PPS_OUT_OFS (i : Nat) : Nat := 0x30000 + 0x208 + i * 0x4
def A.TIME_PPS_IN_CAP_FRAC (i : Nat) : Nat := 0x30000 + 0x220 + i * 0x10
def A.TIME_PPS_IN_CAP_NS (i : Nat) : Nat := 0x30000 + 0x224 + i * 0x10
def A.TIME_PPS_IN_CAP_SEC_LO (i : Nat) : Nat := 0x30000 + 0x228 + i * 0x10
def A.TIME_PPS_IN_CAP_SEC_HI (i : Nat) : Nat := 0x30000 + 0x22c + i * 0x10
def A.TIME_TR_CTRL (i : Nat) : Nat := 0x30000 + 0x300 + i * 0x20
def A.TIME_TR_START_NS (i : Nat) : Nat := 0x30000 + 0x304 + i * 0x20
def A.TIME_TR_START_SEC_LO (i : Nat) : Nat := 0x30000 + 0x308 + i * 0x20
def A.TIME_TR_START_SEC_HI (i : Nat) : Nat := 0x30000 + 0x30c + i * 0x20
def A.TIME_TR_PERIOD (i : Nat) : Nat := 0x30000 + 0x310 + i * 0x20
def A.TIME_TR_WIDTH (i : Nat) : Nat := 0x30000 + 0x314 + i * 0x20
def A.TIME_TR_COUNT (i : Nat) : Nat := 0x30000 + 0x318 + i * 0x20
def A.TIME_EV_CTRL (i : Nat) : Nat := 0x30000 + 0x400 + i * 0x20
def A.TIME_EV_FRAC (i : Nat) : Nat := 0x30000 + 0x404 + i * 0x20
def A.TIME_EV_NS (i : Nat) : Nat := 0x30000 + 0x408 + i * 0x20
def A.TIME_EV_SEC_LO (i : Nat) : Nat := 0x30000 + 0x40c + i * 0x20
def A.TIME_EV_SEC_HI (i : Nat) : Nat := 0x30000 + 0x410 + i * 0x20
def A.TIME_SYNCE (i : Nat) : Nat := 0x30000 + 0x500 + i * 0x4
def A.TIME_LEDGER_CTRL : Nat := 0x30000 + 0x600
def A.TIME_LEDGER_SEQ_LO : Nat := 0x30000 + 0x604
def A.TIME_LEDGER_SEQ_HI : Nat := 0x30000 + 0x608
def A.TIME_LEDGER_ID : Nat := 0x30000 + 0x60c
def A.TIME_LEDGER_EXP_ADDR_LO : Nat := 0x30000 + 0x610
def A.TIME_LEDGER_EXP_ADDR_HI : Nat := 0x30000 + 0x614
def A.TIME_COPY_FROM_LO : Nat := 0x30000 + 0x618
def A.TIME_COPY_FROM_HI : Nat := 0x30000 + 0x61c
def A.TIME_COPY_COUNT : Nat := 0x30000 + 0x620
def A.TIME_COPY_ADDR_LO : Nat := 0x30000 + 0x624
def A.TIME_COPY_ADDR_HI : Nat := 0x30000 + 0x628
def A.TIME_LEDGER_LOST : Nat := 0x30000 + 0x62c
def A.TIME_EXPORT_ERR : Nat := 0x30000 + 0x630
def A.TIME_LEDGER_UNTAGGED : Nat := 0x30000 + 0x634
def A.TSU_TPL_CFG (n i : Nat) : Nat := 0x1000000 + n * 0x100000 + 0xa0000 + 0x100 + i * 0x4
def A.TSU_TS_CAL (n i : Nat) : Nat := 0x1000000 + n * 0x100000 + 0xa0000 + 0x800 + i * 0x4
def A.TSU_TSU_CNT (n i : Nat) : Nat := 0x1000000 + n * 0x100000 + 0xa0000 + 0xa00 + i * 0x8
def A.TSU_TS_CFG (n i : Nat) : Nat := 0x1000000 + n * 0x100000 + 0xa0000 + 0x1000 + i * 0x40
def A.TSU_TS_BOARD (n i : Nat) : Nat := 0x1000000 + n * 0x100000 + 0xa0000 + 0x1004 + i * 0x40
def A.TSU_TS_ASYM (n i : Nat) : Nat := 0x1000000 + n * 0x100000 + 0xa0000 + 0x1008 + i * 0x40
def A.TSU_TS_LOOP_FWD (n i : Nat) : Nat := 0x1000000 + n * 0x100000 + 0xa0000 + 0x100c + i * 0x40
def A.TSU_TS_LOOP_REV (n i : Nat) : Nat := 0x1000000 + n * 0x100000 + 0xa0000 + 0x1010 + i * 0x40
def A.TSU_TPL_BYTES (n i j : Nat) : Nat := 0x1000000 + n * 0x100000 + 0xa0000 + 0x4000 + i * 0x80 + j * 0x4
def A.TELEM_FS_CFG : Nat := 0xd0000 + 0x100
def A.TELEM_FS_SEED : Nat := 0xd0000 + 0x104
def A.TELEM_FS_STAT : Nat := 0xd0000 + 0x108
def A.TELEM_LAT_BASE : Nat := 0xd0000 + 0x10c
def A.TELEM_IOAM_CFG : Nat := 0xd0000 + 0x110
def A.TELEM_IOAM_NODE : Nat := 0xd0000 + 0x114
def A.TELEM_TEL_CNT (i : Nat) : Nat := 0xd0000 + 0x800 + i * 0x8
def A.TELEM_C_CFG (i : Nat) : Nat := 0xd0000 + 0x1000 + i * 0x100
def A.TELEM_C_TPL (i : Nat) : Nat := 0xd0000 + 0x1004 + i * 0x100
def A.TELEM_C_FLUSH (i : Nat) : Nat := 0xd0000 + 0x1008 + i * 0x100
def A.TELEM_C_SEQ_LO (i : Nat) : Nat := 0xd0000 + 0x100c + i * 0x100
def A.TELEM_C_SEQ_HI (i : Nat) : Nat := 0xd0000 + 0x1010 + i * 0x100
def A.TELEM_C_SENT_LO (i : Nat) : Nat := 0xd0000 + 0x1014 + i * 0x100
def A.TELEM_C_SENT_HI (i : Nat) : Nat := 0xd0000 + 0x1018 + i * 0x100
def A.TELEM_C_DROPPED_LO (i : Nat) : Nat := 0xd0000 + 0x101c + i * 0x100
def A.TELEM_C_DROPPED_HI (i : Nat) : Nat := 0xd0000 + 0x1020 + i * 0x100
def A.TELEM_C_TPL_BYTES (i j : Nat) : Nat := 0xd0000 + 0x1080 + i * 0x100 + j * 0x4
def A.ANVIL_A_CFG : Nat := 0xc0000 + 0x100
def A.ANVIL_G_SEL : Nat := 0xc0000 + 0x110
def A.ANVIL_G_CFG : Nat := 0xc0000 + 0x114
def A.ANVIL_G_MEMBERS : Nat := 0xc0000 + 0x118
def A.ANVIL_G_EPOCH : Nat := 0xc0000 + 0x11c
def A.ANVIL_G_PARENT : Nat := 0xc0000 + 0x120
def A.ANVIL_G_TPL : Nat := 0xc0000 + 0x124
def A.ANVIL_G_TMR : Nat := 0xc0000 + 0x128
def A.ANVIL_G_RETAIN : Nat := 0xc0000 + 0x12c
def A.ANVIL_G_LOW : Nat := 0xc0000 + 0x130
def A.ANVIL_G_STAT : Nat := 0xc0000 + 0x134
def A.ANVIL_A_STAT (i : Nat) : Nat := 0xc0000 + 0x200 + i * 0x4
def A.ANVIL_T_CFG (i : Nat) : Nat := 0xc0000 + 0x400 + i * 0x4
def A.ANVIL_ANV_CNT (i : Nat) : Nat := 0xc0000 + 0x800 + i * 0x8
def A.ANVIL_T_BYTES (i j : Nat) : Nat := 0xc0000 + 0x1000 + i * 0x80 + j * 0x4
def A.SEQ_RL_CMD (i : Nat) : Nat := 0x60000 + 0x140 + i * 0x40
def A.SEQ_RL_STAT (i : Nat) : Nat := 0x60000 + 0x144 + i * 0x40
def A.SEQ_RL_LOAD_ADDR_LO (i : Nat) : Nat := 0x60000 + 0x148 + i * 0x40
def A.SEQ_RL_LOAD_ADDR_HI (i : Nat) : Nat := 0x60000 + 0x14c + i * 0x40
def A.SEQ_RL_LOAD_LEN (i : Nat) : Nat := 0x60000 + 0x150 + i * 0x40
def A.SEQ_RL_SVN_MIN (i : Nat) : Nat := 0x60000 + 0x154 + i * 0x40
def A.SEQ_RL_SVN (i : Nat) : Nat := 0x60000 + 0x158 + i * 0x40
def A.SEQ_RL_DIGEST (i : Nat) : Nat := 0x60000 + 0x15c + i * 0x40
def A.SEQ_CKEY (i j : Nat) : Nat := 0x60000 + 0x440 + i * 0x40 + j * 0x4
def A.SEQ_CKEY_VALID (i : Nat) : Nat := 0x60000 + 0x470 + i * 0x40
def A.SEQ_SQ_CTRL (i : Nat) : Nat := 0x60000 + 0x1000 + i * 0x100
def A.SEQ_SQ_STAT (i : Nat) : Nat := 0x60000 + 0x1004 + i * 0x100
def A.SEQ_SQ_FAULT (i : Nat) : Nat := 0x60000 + 0x1008 + i * 0x100
def A.SEQ_SQ_MBOX_IN (i : Nat) : Nat := 0x60000 + 0x100c + i * 0x100
def A.SEQ_SQ_MBOX_OUT (i : Nat) : Nat := 0x60000 + 0x1010 + i * 0x100
def A.SEQ_SQ_FLAGS (i : Nat) : Nat := 0x60000 + 0x1014 + i * 0x100
def A.SEQ_SQ_SIG (i : Nat) : Nat := 0x60000 + 0x1018 + i * 0x100
def A.SEQ_SQ_CNT (i j : Nat) : Nat := 0x60000 + 0x1020 + i * 0x100 + j * 0x8
def A.HOST_HALTED (i : Nat) : Nat := 0x10000 + 0x100 + i * 0x4
def A.HOST_VEC_LOST : Nat := 0x10000 + 0x140
def A.HOST_TRAP_NO_RING_LO : Nat := 0x10000 + 0x148
def A.HOST_TRAP_NO_RING_HI : Nat := 0x10000 + 0x14c
def A.HOST_RING_FN (i : Nat) : Nat := 0x10000 + 0x1000 + i * 0x4
def A.HOST_FN_WIN_BASE_LO (i : Nat) : Nat := 0x10000 + 0x2000 + i * 0x10
def A.HOST_FN_WIN_BASE_HI (i : Nat) : Nat := 0x10000 + 0x2004 + i * 0x10
def A.HOST_FN_WIN_LIMIT_LO (i : Nat) : Nat := 0x10000 + 0x2008 + i * 0x10
def A.HOST_FN_WIN_LIMIT_HI (i : Nat) : Nat := 0x10000 + 0x200c + i * 0x10
def A.RINGS_RW_CTRL (i : Nat) : Nat := 0x100000 + 0x0 + i * 0x100
def A.RINGS_RW_POLL (i : Nat) : Nat := 0x100000 + 0x4 + i * 0x100
def A.RINGS_RW_BASE_LO (i : Nat) : Nat := 0x100000 + 0x8 + i * 0x100
def A.RINGS_RW_BASE_HI (i : Nat) : Nat := 0x100000 + 0xc + i * 0x100
def A.RINGS_RW_HEAD_ADDR_LO (i : Nat) : Nat := 0x100000 + 0x10 + i * 0x100
def A.RINGS_RW_HEAD_ADDR_HI (i : Nat) : Nat := 0x100000 + 0x14 + i * 0x100
def A.RINGS_RW_START (i : Nat) : Nat := 0x100000 + 0x18 + i * 0x100
def A.RINGS_RW_CONS (i : Nat) : Nat := 0x100000 + 0x1c + i * 0x100
def A.RINGS_RW_STAT (i : Nat) : Nat := 0x100000 + 0x20 + i * 0x100
def A.RINGS_RW_ERR_INDEX (i : Nat) : Nat := 0x100000 + 0x24 + i * 0x100
def A.RINGS_RW_ERR_ROW (i : Nat) : Nat := 0x100000 + 0x28 + i * 0x100
def A.RINGS_RW_DONE_LO (i : Nat) : Nat := 0x100000 + 0x30 + i * 0x100
def A.RINGS_RW_DONE_HI (i : Nat) : Nat := 0x100000 + 0x34 + i * 0x100
def A.RINGS_RW_NONFATAL_LO (i : Nat) : Nat := 0x100000 + 0x38 + i * 0x100
def A.RINGS_RW_NONFATAL_HI (i : Nat) : Nat := 0x100000 + 0x3c + i * 0x100
def A.RINGS_RW_RETRY_LO (i : Nat) : Nat := 0x100000 + 0x40 + i * 0x100
def A.RINGS_RW_RETRY_HI (i : Nat) : Nat := 0x100000 + 0x44 + i * 0x100
def A.GCNT_PC_GCTL (n : Nat) : Nat := 0x1000000 + n * 0x100000 + 0xb0000 + 0x100
def A.GCNT_PC_SEL (n i : Nat) : Nat := 0x1000000 + n * 0x100000 + 0xb0000 + 0x1000 + i * 0x40
def A.GCNT_PC_FILT (n i : Nat) : Nat := 0x1000000 + n * 0x100000 + 0xb0000 + 0x1004 + i * 0x40
def A.GCNT_PC_RANGE_LO (n i : Nat) : Nat := 0x1000000 + n * 0x100000 + 0xb0000 + 0x1008 + i * 0x40
def A.GCNT_PC_RANGE_HI (n i : Nat) : Nat := 0x1000000 + n * 0x100000 + 0xb0000 + 0x100c + i * 0x40
def A.GCNT_PC_VAL_LO (n i : Nat) : Nat := 0x1000000 + n * 0x100000 + 0xb0000 + 0x1010 + i * 0x40
def A.GCNT_PC_VAL_HI (n i : Nat) : Nat := 0x1000000 + n * 0x100000 + 0xb0000 + 0x1014 + i * 0x40
def A.GCNT_PC_RELOAD_LO (n i : Nat) : Nat := 0x1000000 + n * 0x100000 + 0xb0000 + 0x1018 + i * 0x40
def A.GCNT_PC_RELOAD_HI (n i : Nat) : Nat := 0x1000000 + n * 0x100000 + 0xb0000 + 0x101c + i * 0x40
def A.GCNT_PC_SNAP_LO (n i : Nat) : Nat := 0x1000000 + n * 0x100000 + 0xb0000 + 0x1020 + i * 0x40
def A.GCNT_PC_SNAP_HI (n i : Nat) : Nat := 0x1000000 + n * 0x100000 + 0xb0000 + 0x1024 + i * 0x40
def A.GCNT_PC_STAT (n i : Nat) : Nat := 0x1000000 + n * 0x100000 + 0xb0000 + 0x1028 + i * 0x40
def A.GCNT_SMP_STAT (n : Nat) : Nat := 0x1000000 + n * 0x100000 + 0xb0000 + 0x2000
def A.GCNT_SMP (n i : Nat) : Nat := 0x1000000 + n * 0x100000 + 0xb0000 + 0x2010 + i * 0x4
def A.GCNT_VIEW (n i : Nat) : Nat := 0x1000000 + n * 0x100000 + 0xb0000 + 0x8000 + i * 0x4
def A.CNT_PC_GCTL : Nat := 0x70000 + 0x100
def A.CNT_PC_SEL (i : Nat) : Nat := 0x70000 + 0x1000 + i * 0x40
def A.CNT_PC_FILT (i : Nat) : Nat := 0x70000 + 0x1004 + i * 0x40
def A.CNT_PC_RANGE_LO (i : Nat) : Nat := 0x70000 + 0x1008 + i * 0x40
def A.CNT_PC_RANGE_HI (i : Nat) : Nat := 0x70000 + 0x100c + i * 0x40
def A.CNT_PC_VAL_LO (i : Nat) : Nat := 0x70000 + 0x1010 + i * 0x40
def A.CNT_PC_VAL_HI (i : Nat) : Nat := 0x70000 + 0x1014 + i * 0x40
def A.CNT_PC_RELOAD_LO (i : Nat) : Nat := 0x70000 + 0x1018 + i * 0x40
def A.CNT_PC_RELOAD_HI (i : Nat) : Nat := 0x70000 + 0x101c + i * 0x40
def A.CNT_PC_SNAP_LO (i : Nat) : Nat := 0x70000 + 0x1020 + i * 0x40
def A.CNT_PC_SNAP_HI (i : Nat) : Nat := 0x70000 + 0x1024 + i * 0x40
def A.CNT_PC_STAT (i : Nat) : Nat := 0x70000 + 0x1028 + i * 0x40
def A.CNT_STAT_SEL : Nat := 0x70000 + 0x110
def A.CNT_VF_MAP (i : Nat) : Nat := 0x70000 + 0x184 + i * 0x4
def A.CNT_STATV_PT (i j : Nat) : Nat := 0x70000 + 0x2000 + i * 0xc0 + j * 0x8
def A.CNT_STATV_Q (i j : Nat) : Nat := 0x70000 + 0x8000 + i * 0x40 + j * 0x8
def A.DAMPER_CAP : Nat := 0x40000 + 0x100
def A.DAMPER_RELEASE : Nat := 0x40000 + 0x104
def A.DAMPER_DMP_STAT : Nat := 0x40000 + 0x108
def A.DAMPER_POWER : Nat := 0x40000 + 0x10c
def A.DAMPER_PEAK : Nat := 0x40000 + 0x110
def A.DAMPER_ACT : Nat := 0x40000 + 0x114
def A.DAMPER_THERM_CFG : Nat := 0x40000 + 0x118
def A.DAMPER_TEMP : Nat := 0x40000 + 0x11c
def A.DAMPER_QUENCH_CFG : Nat := 0x40000 + 0x120
def A.DAMPER_AVS_CFG : Nat := 0x40000 + 0x124
def A.DAMPER_AVS_STAT : Nat := 0x40000 + 0x128
def A.DAMPER_AVS_FUSE : Nat := 0x40000 + 0x12c
def A.DAMPER_DMP_TIME (i : Nat) : Nat := 0x40000 + 0x200 + i * 0x8
def A.DAMPER_DMP_EVENTS (i : Nat) : Nat := 0x40000 + 0x240 + i * 0x8
def A.RAS_LOG_STAT : Nat := 0x50000 + 0x100
def A.RAS_LOG (i : Nat) : Nat := 0x50000 + 0x110 + i * 0x4
def A.RAS_RR_CFG : Nat := 0x50000 + 0x140
def A.RAS_RR_STAT : Nat := 0x50000 + 0x144
def A.RAS_RAS_STAT : Nat := 0x50000 + 0x148
def A.RAS_RAS_CNT (i : Nat) : Nat := 0x50000 + 0x800 + i * 0x8

def F.TOP_DEVICE_ID_DEVICE_ID : Fld := ⟨0, 32⟩
def F.TOP_DEV_STATE_STATE : Fld := ⟨0, 4⟩
def F.TOP_DEV_STATE_FENCED_COUNT : Fld := ⟨4, 6⟩
def F.TOP_DEV_CTRL_GO : Fld := ⟨0, 1⟩
def F.TOP_GAL_FENCED_FENCED : Fld := ⟨0, 32⟩
def F.TOP_GAL_FENCE_DONE_DONE : Fld := ⟨0, 32⟩
def F.TOP_GAL_FENCE_REQ_REQ : Fld := ⟨0, 32⟩
def F.TOP_STROKE_LO_STROKE_LO : Fld := ⟨0, 32⟩
def F.TOP_STROKE_HI_STROKE_HI : Fld := ⟨0, 32⟩
def F.TOP_GEN_ACTIVE_ACTIVE : Fld := ⟨0, 32⟩
def F.TOP_GEN_STAGING_STAGING : Fld := ⟨0, 32⟩
def F.TOP_GEN_DRAIN_DRAIN : Fld := ⟨0, 32⟩
def F.TOP_GEN_CTRL_FLIP : Fld := ⟨0, 1⟩
def F.TOP_GEN_CTRL_AT_EN : Fld := ⟨1, 1⟩
def F.TOP_GEN_CTRL_NOTIFY_EN : Fld := ⟨2, 1⟩
def F.TOP_GEN_CTRL_NOTIFY_VEC : Fld := ⟨3, 11⟩
def F.TOP_GEN_STAT_STATE : Fld := ⟨0, 2⟩
def F.TOP_GEN_STAT_RESULT : Fld := ⟨2, 4⟩
def F.TOP_GEN_STAT_NOTIFY_ERR : Fld := ⟨6, 1⟩
def F.TOP_GEN_FLIP_AT_LO_FLIP_AT : Fld := ⟨0, 32⟩
def F.TOP_GEN_FLIP_AT_HI_FLIP_AT : Fld := ⟨0, 32⟩
def F.TOP_GEN_DRAIN_STK_COUNT : Fld := ⟨0, 32⟩
def F.TOP_GEN_RESYNC_STK_COUNT : Fld := ⟨0, 32⟩
def F.TOP_GEN_NOTIFY_ADDR_LO_ADDR : Fld := ⟨0, 32⟩
def F.TOP_GEN_NOTIFY_ADDR_HI_ADDR : Fld := ⟨0, 32⟩
def F.TOP_SNAP_CTRL_REQ : Fld := ⟨0, 1⟩
def F.TOP_SNAP_CTRL_MERGED : Fld := ⟨16, 8⟩
def F.TOP_SNAP_PERIOD_PERIOD : Fld := ⟨0, 32⟩
def F.TOP_SNAP_STROKE_LO_STROKE : Fld := ⟨0, 32⟩
def F.TOP_SNAP_STROKE_HI_STROKE : Fld := ⟨0, 32⟩
def F.TOP_SNAP_GEN_GEN : Fld := ⟨0, 32⟩
def F.TOP_BUDGET_SEL_ACTIVITY : Fld := ⟨0, 8⟩
def F.TOP_BUDGET_SEL_INST : Fld := ⟨8, 8⟩
def F.TOP_BUDGET_LIMIT_LIMIT : Fld := ⟨0, 32⟩
def F.TOP_BUDGET_USED_USED : Fld := ⟨0, 32⟩
def F.TOP_BUDGET_WAIT_LO_WAIT : Fld := ⟨0, 32⟩
def F.TOP_BUDGET_WAIT_HI_WAIT : Fld := ⟨0, 32⟩
def F.TOP_PROFILE_ACTIVE : Fld := ⟨0, 3⟩
def F.TOP_PROFILE_STAGED : Fld := ⟨4, 3⟩
def F.TOP_PROFILE_BUSY_REGION : Fld := ⟨0, 8⟩
def F.TOP_PROFILE_BUSY_REMAIN : Fld := ⟨8, 24⟩
def F.TOP_PARSE_BANK_ACTIVE : Fld := ⟨0, 1⟩
def F.TOP_PARSE_BANK_SWITCH : Fld := ⟨1, 1⟩
def F.TOP_PARSE_BANK_OLD_HELD : Fld := ⟨2, 1⟩
def F.TOP_DROP_FENCED_LO_COUNT : Fld := ⟨0, 32⟩
def F.TOP_DROP_FENCED_HI_COUNT : Fld := ⟨0, 32⟩
def F.TOP_BOOT_LOCK_LOCKED : Fld := ⟨0, 1⟩
def F.TOP_RESET_CTRL_COLD : Fld := ⟨0, 1⟩
def F.TOP_RESET_CTRL_WARM : Fld := ⟨1, 1⟩
def F.TOP_RESET_CFG_PERST_MODE : Fld := ⟨0, 2⟩
def F.TOP_BOOT_STAT_SRC : Fld := ⟨0, 2⟩
def F.TOP_BOOT_STAT_FROM : Fld := ⟨2, 2⟩
def F.TOP_BOOT_STAT_RESULT : Fld := ⟨4, 4⟩
def F.TOP_BOOT_STAT_ROLE_MISSING : Fld := ⟨8, 5⟩
def F.TOP_BOOT_STAT_WARM : Fld := ⟨13, 1⟩
def F.TOP_BOOT_STAT_IMAGE_LOCKED : Fld := ⟨14, 1⟩
def F.TOP_BOOT_DL_ADDR_LO_ADDR : Fld := ⟨0, 32⟩
def F.TOP_BOOT_DL_ADDR_HI_ADDR : Fld := ⟨0, 32⟩
def F.TOP_BOOT_DL_LEN_LEN : Fld := ⟨0, 25⟩
def F.TOP_BOOT_DL_CMD_GO : Fld := ⟨0, 1⟩
def F.TOP_BOOT_DL_CMD_BUSY : Fld := ⟨1, 1⟩
def F.TOP_IRQ_PEND_PEND : Fld := ⟨0, 32⟩
def F.TOP_BOOT_SVN_SVN : Fld := ⟨0, 32⟩
def F.TOP_BOOT_SVN_MIN_SVN : Fld := ⟨0, 32⟩
def F.TOP_BOOT_KEY_FUSE_HASH : Fld := ⟨0, 32⟩
def F.TOP_GPIO_OUT_OUT : Fld := ⟨0, 16⟩
def F.TOP_GPIO_OE_OE : Fld := ⟨0, 16⟩
def F.TOP_GPIO_IN_IN : Fld := ⟨0, 16⟩
def F.TOP_IPV4_HDR_IDS_LO_MAP : Fld := ⟨0, 32⟩
def F.TOP_IPV4_HDR_IDS_HI_MAP : Fld := ⟨0, 32⟩
def F.TOP_MIRROR_PORT : Fld := ⟨0, 10⟩
def F.TOP_MIRROR_QUEUE : Fld := ⟨10, 4⟩
def F.TOP_MIRROR_EN : Fld := ⟨14, 1⟩
def F.TOP_MIRROR_TRUNC : Fld := ⟨16, 8⟩
def F.LANE_EVT_UP_UP : Fld := ⟨0, 32⟩
def F.LANE_EVT_DOWN_DOWN : Fld := ⟨0, 32⟩
def F.LANE_LN_CTRL_EN : Fld := ⟨0, 1⟩
def F.LANE_LN_CTRL_RATE : Fld := ⟨1, 2⟩
def F.LANE_LN_CTRL_TX_POL_INV : Fld := ⟨3, 1⟩
def F.LANE_LN_CTRL_RX_POL_AUTO : Fld := ⟨4, 1⟩
def F.LANE_LN_CTRL_RX_POL_INV : Fld := ⟨5, 1⟩
def F.LANE_LN_CTRL_TEST : Fld := ⟨6, 1⟩
def F.LANE_LN_STAT_STATE : Fld := ⟨0, 4⟩
def F.LANE_LN_STAT_SIG_DET : Fld := ⟨4, 1⟩
def F.LANE_LN_STAT_CDR_LOCK : Fld := ⟨5, 1⟩
def F.LANE_LN_STAT_BLOCK_LOCK : Fld := ⟨6, 1⟩
def F.LANE_LN_STAT_RX_POL_DET : Fld := ⟨7, 1⟩
def F.LANE_LN_STAT_REV_DET : Fld := ⟨8, 1⟩
def F.LANE_LN_STAT_TX_LPI : Fld := ⟨9, 1⟩
def F.LANE_LN_STAT_RX_LPI : Fld := ⟨10, 1⟩
def F.LANE_LN_STAT_EQ_CLIP : Fld := ⟨11, 1⟩
def F.LANE_LN_STAT_RX_SNR : Fld := ⟨12, 8⟩
def F.LANE_LN_STAT_DOWN_CAUSE : Fld := ⟨20, 4⟩
def F.LANE_LN_STAT_RECENT : Fld := ⟨24, 2⟩
def F.LANE_LN_TXEQ_PRE3 : Fld := ⟨0, 4⟩
def F.LANE_LN_TXEQ_PRE2 : Fld := ⟨4, 5⟩
def F.LANE_LN_TXEQ_PRE1 : Fld := ⟨9, 6⟩
def F.LANE_LN_TXEQ_MAIN : Fld := ⟨15, 6⟩
def F.LANE_LN_TXEQ_POST1 : Fld := ⟨21, 6⟩
def F.LANE_LN_RXEQ_ADAPT : Fld := ⟨0, 2⟩
def F.LANE_LN_RXEQ_CTLE : Fld := ⟨2, 5⟩
def F.LANE_LN_RXEQ_DFE_EN : Fld := ⟨7, 1⟩
def F.LANE_LN_BRINGUP_MODE : Fld := ⟨0, 1⟩
def F.LANE_LN_BRINGUP_TRAIN_EN : Fld := ⟨1, 1⟩
def F.LANE_LN_BRINGUP_REV_AUTO : Fld := ⟨2, 1⟩
def F.LANE_LN_BRINGUP_DORMANT_REQ : Fld := ⟨3, 1⟩
def F.LANE_LN_BRINGUP_WAKE_SD : Fld := ⟨4, 1⟩
def F.LANE_LN_BRINGUP_TRAIN_TMO : Fld := ⟨5, 8⟩
def F.LANE_LN_BRINGUP_RETRAIN_UNC : Fld := ⟨13, 8⟩
def F.LANE_LN_BRINGUP_SNR_MIN : Fld := ⟨21, 8⟩
def F.LANE_LN_AN_ADV_RATES : Fld := ⟨0, 4⟩
def F.LANE_LN_AN_ADV_FEC : Fld := ⟨4, 2⟩
def F.LANE_LN_AN_LP_RATES : Fld := ⟨0, 4⟩
def F.LANE_LN_AN_LP_FEC : Fld := ⟨4, 2⟩
def F.LANE_LN_AN_LP_RESOLVED : Fld := ⟨8, 4⟩
def F.LANE_LN_AN_LP_AN_DONE : Fld := ⟨12, 1⟩
def F.LANE_LN_AN_LP_NO_COMMON : Fld := ⟨13, 1⟩
def F.LANE_LN_PRBS_TX_PAT : Fld := ⟨0, 4⟩
def F.LANE_LN_PRBS_RX_PAT : Fld := ⟨4, 4⟩
def F.LANE_LN_PRBS_TX_EN : Fld := ⟨8, 1⟩
def F.LANE_LN_PRBS_RX_EN : Fld := ⟨9, 1⟩
def F.LANE_LN_PRBS_RX_LOCK : Fld := ⟨10, 1⟩
def F.LANE_LN_PRBS_CLEAR : Fld := ⟨11, 1⟩
def F.LANE_LN_INJ_KIND : Fld := ⟨0, 2⟩
def F.LANE_LN_INJ_LEN : Fld := ⟨2, 8⟩
def F.LANE_LN_INJ_GO : Fld := ⟨10, 1⟩
def F.LANE_LN_INJ_PERIODIC : Fld := ⟨11, 1⟩
def F.LANE_LN_INJ_PERIOD : Fld := ⟨12, 16⟩
def F.LANE_LN_PRBS_ERR_LO_COUNT : Fld := ⟨0, 32⟩
def F.LANE_LN_PRBS_ERR_HI_COUNT : Fld := ⟨0, 32⟩
def F.LANE_LN_BITSLIP_SLIP : Fld := ⟨0, 1⟩
def F.LANE_LN_CNT_RETRAIN : Fld := ⟨0, 16⟩
def F.LANE_LN_CNT_TRAIN_FAIL : Fld := ⟨16, 16⟩
def F.D2D_LK_CTRL_SLEEP_EN : Fld := ⟨0, 1⟩
def F.D2D_LK_CTRL_RETRAIN : Fld := ⟨1, 1⟩
def F.D2D_LK_CTRL_TEST : Fld := ⟨2, 1⟩
def F.D2D_LK_STAT_STATE : Fld := ⟨0, 3⟩
def F.D2D_LK_STAT_OUT_SLEEP : Fld := ⟨3, 1⟩
def F.D2D_LK_STAT_IN_SLEEP : Fld := ⟨4, 1⟩
def F.D2D_LK_STAT_OUT_SPARES_USED : Fld := ⟨5, 3⟩
def F.D2D_LK_STAT_IN_SPARES_USED : Fld := ⟨8, 3⟩
def F.D2D_LK_STAT_LANES_RETIRED : Fld := ⟨11, 1⟩
def F.D2D_LK_REPAIR_OUT_LANE_0 : Fld := ⟨0, 6⟩
def F.D2D_LK_REPAIR_OUT_VALID_0 : Fld := ⟨7, 1⟩
def F.D2D_LK_REPAIR_OUT_LANE_1 : Fld := ⟨8, 6⟩
def F.D2D_LK_REPAIR_OUT_VALID_1 : Fld := ⟨15, 1⟩
def F.D2D_LK_REPAIR_OUT_LANE_2 : Fld := ⟨16, 6⟩
def F.D2D_LK_REPAIR_OUT_VALID_2 : Fld := ⟨23, 1⟩
def F.D2D_LK_REPAIR_OUT_LANE_3 : Fld := ⟨24, 6⟩
def F.D2D_LK_REPAIR_OUT_VALID_3 : Fld := ⟨31, 1⟩
def F.D2D_LK_REPAIR_IN_LANE_0 : Fld := ⟨0, 6⟩
def F.D2D_LK_REPAIR_IN_VALID_0 : Fld := ⟨7, 1⟩
def F.D2D_LK_REPAIR_IN_LANE_1 : Fld := ⟨8, 6⟩
def F.D2D_LK_REPAIR_IN_VALID_1 : Fld := ⟨15, 1⟩
def F.D2D_LK_REPAIR_IN_LANE_2 : Fld := ⟨16, 6⟩
def F.D2D_LK_REPAIR_IN_VALID_2 : Fld := ⟨23, 1⟩
def F.D2D_LK_REPAIR_IN_LANE_3 : Fld := ⟨24, 6⟩
def F.D2D_LK_REPAIR_IN_VALID_3 : Fld := ⟨31, 1⟩
def F.D2D_LK_REPLAY_LO_COUNT : Fld := ⟨0, 32⟩
def F.D2D_LK_REPLAY_HI_COUNT : Fld := ⟨0, 32⟩
def F.D2D_LK_ERRFLIT_LO_COUNT : Fld := ⟨0, 32⟩
def F.D2D_LK_ERRFLIT_HI_COUNT : Fld := ⟨0, 32⟩
def F.D2D_LK_SLIP_LANE : Fld := ⟨0, 7⟩
def F.D2D_LK_SLIP_DIR : Fld := ⟨7, 1⟩
def F.D2D_LK_SLIP_GO : Fld := ⟨8, 1⟩
def F.PORT_PT_CFG_EN : Fld := ⟨0, 1⟩
def F.PORT_PT_CFG_WIDTH : Fld := ⟨1, 2⟩
def F.PORT_PT_CFG_SPEED : Fld := ⟨3, 3⟩
def F.PORT_PT_CFG_FEC : Fld := ⟨6, 2⟩
def F.PORT_PT_CFG_FEC_LL : Fld := ⟨8, 1⟩
def F.PORT_PT_CFG_SF : Fld := ⟨9, 1⟩
def F.PORT_PT_CFG_LPI_EN : Fld := ⟨10, 1⟩
def F.PORT_PT_CFG_FC_MODE : Fld := ⟨11, 2⟩
def F.PORT_PT_FRAME_MAX_FRAME : Fld := ⟨0, 14⟩
def F.PORT_PT_LPI_LPI_IDLE : Fld := ⟨0, 16⟩
def F.PORT_PT_STAT_UP : Fld := ⟨0, 1⟩
def F.PORT_PT_STAT_DOWN_REASON : Fld := ⟨1, 3⟩
def F.PORT_PT_STAT_FEC_IN_USE : Fld := ⟨4, 2⟩
def F.PORT_PT_STAT_HDRM_SHORT : Fld := ⟨6, 1⟩
def F.PORT_PT_STAT_RX_PAUSED : Fld := ⟨7, 1⟩
def F.PORT_PT_STAT_PFC_STOPPED : Fld := ⟨8, 8⟩
def F.PORT_PT_PFC_LOSSLESS : Fld := ⟨0, 8⟩
def F.PORT_PT_PFC_RX_EN : Fld := ⟨8, 8⟩
def F.PORT_PT_PRI_Q_Q0 : Fld := ⟨0, 4⟩
def F.PORT_PT_PRI_Q_Q1 : Fld := ⟨4, 4⟩
def F.PORT_PT_PRI_Q_Q2 : Fld := ⟨8, 4⟩
def F.PORT_PT_PRI_Q_Q3 : Fld := ⟨12, 4⟩
def F.PORT_PT_PRI_Q_Q4 : Fld := ⟨16, 4⟩
def F.PORT_PT_PRI_Q_Q5 : Fld := ⟨20, 4⟩
def F.PORT_PT_PRI_Q_Q6 : Fld := ⟨24, 4⟩
def F.PORT_PT_PRI_Q_Q7 : Fld := ⟨28, 4⟩
def F.PORT_PT_DELAY_DELAY : Fld := ⟨0, 24⟩
def F.PORT_PT_DELAY_SRC : Fld := ⟨24, 2⟩
def F.PORT_PT_DELAY_CFG_DELAY_DEFAULT : Fld := ⟨0, 16⟩
def F.PORT_PT_DELAY_CFG_PEER_RESP : Fld := ⟨16, 12⟩
def F.PORT_PT_DELAY_CFG_EXCH_EN : Fld := ⟨28, 1⟩
def F.PORT_PT_HDRM_COMPUTED : Fld := ⟨0, 16⟩
def F.PORT_PT_HDRM_OVERRIDE : Fld := ⟨16, 16⟩
def F.PORT_PT_MAC_LO_ADDR : Fld := ⟨0, 32⟩
def F.PORT_PT_MAC_HI_ADDR : Fld := ⟨0, 16⟩
def F.PORT_PT_CNT_COUNT : Fld := ⟨0, 64⟩
def F.PARSE_PS_PCLASS_CLASS_0 : Fld := ⟨0, 4⟩
def F.PARSE_PS_PCLASS_CLASS_1 : Fld := ⟨4, 4⟩
def F.PARSE_PS_PCLASS_CLASS_2 : Fld := ⟨8, 4⟩
def F.PARSE_PS_PCLASS_CLASS_3 : Fld := ⟨12, 4⟩
def F.PARSE_PS_PCLASS_CLASS_4 : Fld := ⟨16, 4⟩
def F.PARSE_PS_PCLASS_CLASS_5 : Fld := ⟨20, 4⟩
def F.PARSE_PS_PCLASS_CLASS_6 : Fld := ⟨24, 4⟩
def F.PARSE_PS_PCLASS_CLASS_7 : Fld := ⟨28, 4⟩
def F.PARSE_IC_CFG_START : Fld := ⟨0, 6⟩
def F.PARSE_IC_CFG_TRUNC_ACT : Fld := ⟨6, 2⟩
def F.PARSE_IC_CFG_OVERRUN_ACT : Fld := ⟨8, 2⟩
def F.PARSE_IC_CFG_UNDERRUN_ACT : Fld := ⟨10, 2⟩
def F.PARSE_IC_CFG_FFT_EN : Fld := ⟨12, 1⟩
def F.PARSE_IC_CFG_FFT_STAGE : Fld := ⟨13, 5⟩
def F.PARSE_IC_HASH_H0_PROF : Fld := ⟨0, 3⟩
def F.PARSE_IC_HASH_H1_PROF : Fld := ⟨4, 3⟩
def F.PARSE_IC_HASH_H1_EN : Fld := ⟨7, 1⟩
def F.PARSE_IC_AUX_TRAP_RING : Fld := ⟨0, 9⟩
def F.PARSE_IC_AUX_L4_CONT : Fld := ⟨9, 7⟩
def F.PARSE_HP_CFG_FUNC : Fld := ⟨0, 3⟩
def F.PARSE_HP_CFG_SYM_PAIR : Fld := ⟨4, 8⟩
def F.PARSE_HP_CFG_NSEL : Fld := ⟨12, 5⟩
def F.PARSE_HP_CFG_OVERLEN : Fld := ⟨17, 1⟩
def F.PARSE_HP_CFG_SYM_BAD : Fld := ⟨18, 1⟩
def F.PARSE_HP_SEED_SEED : Fld := ⟨0, 32⟩
def F.PARSE_HP_SEL_CONT : Fld := ⟨0, 7⟩
def F.PARSE_HP_SEL_NCONT : Fld := ⟨7, 2⟩
def F.PARSE_HP_SEL_BYTE_EN : Fld := ⟨9, 16⟩
def F.PARSE_HP_KEY_KEY : Fld := ⟨0, 32⟩
def F.PARSE_PS_CNT_COUNT : Fld := ⟨0, 64⟩
def F.PARSE_ST_HDR_FIXED_LEN : Fld := ⟨0, 8⟩
def F.PARSE_ST_HDR_LEN_MODE : Fld := ⟨8, 1⟩
def F.PARSE_ST_HDR_LCHK : Fld := ⟨9, 3⟩
def F.PARSE_ST_HDR_FRAG : Fld := ⟨12, 2⟩
def F.PARSE_ST_HDR_HDR_ID : Fld := ⟨14, 6⟩
def F.PARSE_ST_HDR_VALID : Fld := ⟨20, 1⟩
def F.PARSE_ST_LEN_OFFSET : Fld := ⟨0, 6⟩
def F.PARSE_ST_LEN_WIDTH : Fld := ⟨6, 1⟩
def F.PARSE_ST_LEN_SHIFT : Fld := ⟨7, 4⟩
def F.PARSE_ST_LEN_MBITS : Fld := ⟨11, 4⟩
def F.PARSE_ST_LEN_MULT : Fld := ⟨15, 2⟩
def F.PARSE_ST_LEN_ADD : Fld := ⟨17, 8⟩
def F.PARSE_ST_KEY_OFFSET : Fld := ⟨0, 7⟩
def F.PARSE_ST_KEY_WIDTH : Fld := ⟨7, 1⟩
def F.PARSE_ST_DEFAULT_NEXT : Fld := ⟨0, 7⟩
def F.PARSE_ST_TR_MATCH_VALUE : Fld := ⟨0, 16⟩
def F.PARSE_ST_TR_MATCH_MASK : Fld := ⟨16, 16⟩
def F.PARSE_ST_TR_NEXT_NEXT : Fld := ⟨0, 7⟩
def F.PARSE_ST_TR_NEXT_VALID : Fld := ⟨7, 1⟩
def F.PARSE_ST_EX_CONT : Fld := ⟨0, 7⟩
def F.PARSE_ST_EX_VALID : Fld := ⟨7, 1⟩
def F.PARSE_ST_EX_OFFSET : Fld := ⟨8, 7⟩
def F.PARSE_ST_EX_SIZE : Fld := ⟨15, 2⟩
def F.MATCH_ACT_ADDR_INDEX : Fld := ⟨0, 12⟩
def F.MATCH_ACT_ADDR_STAGE : Fld := ⟨12, 5⟩
def F.MATCH_ACT_ADDR_SLOT : Fld := ⟨17, 1⟩
def F.MATCH_ACT_ADDR_BCAST : Fld := ⟨31, 1⟩
def F.MATCH_ACT_DATA_DATA : Fld := ⟨0, 32⟩
def F.MATCH_ACT_CMD_WRITE : Fld := ⟨0, 1⟩
def F.MATCH_ACT_CMD_READ : Fld := ⟨1, 1⟩
def F.MATCH_ACT_CMD_BUSY : Fld := ⟨2, 1⟩
def F.MATCH_MATCH_CNT_COUNT : Fld := ⟨0, 64⟩
def F.MATCH_LU_CFG_TABLE : Fld := ⟨0, 3⟩
def F.MATCH_LU_CFG_KEY_CONT : Fld := ⟨3, 7⟩
def F.MATCH_LU_CFG_KEY_NCONT : Fld := ⟨10, 3⟩
def F.MATCH_LU_CFG_PASS_MASK : Fld := ⟨13, 5⟩
def F.MATCH_LU_CFG_MISS_ACT : Fld := ⟨18, 12⟩
def F.MATCH_LU_CFG_MISS_EN : Fld := ⟨30, 1⟩
def F.MATCH_LU_AUX_KEY_TYPE : Fld := ⟨0, 8⟩
def F.STAIR_CTRL_PASS_LIMIT : Fld := ⟨0, 3⟩
def F.STAIR_CTRL_WAIT_MAX : Fld := ⟨3, 8⟩
def F.STAIR_STAT_DEPTH : Fld := ⟨0, 9⟩
def F.STAIR_STAT_PEAK : Fld := ⟨9, 9⟩
def F.STAIR_STAIR_CNT_COUNT : Fld := ⟨0, 64⟩
def F.EGRESS_T_CFG_LEN : Fld := ⟨0, 8⟩
def F.EGRESS_T_CFG_AFTER_HDR : Fld := ⟨8, 5⟩
def F.EGRESS_T_CFG_FIX_IP_EN : Fld := ⟨13, 1⟩
def F.EGRESS_T_CFG_FIX_UDP_EN : Fld := ⟨14, 1⟩
def F.EGRESS_T_CFG_FIX_IP_OFS : Fld := ⟨15, 7⟩
def F.EGRESS_T_CFG_FIX_UDP_OFS : Fld := ⟨22, 7⟩
def F.EGRESS_LU_CFG_TABLE : Fld := ⟨0, 3⟩
def F.EGRESS_LU_CFG_KEY_CONT : Fld := ⟨3, 7⟩
def F.EGRESS_LU_CFG_KEY_NCONT : Fld := ⟨10, 3⟩
def F.EGRESS_LU_CFG_PASS_MASK : Fld := ⟨13, 5⟩
def F.EGRESS_LU_CFG_MISS_ACT : Fld := ⟨18, 12⟩
def F.EGRESS_LU_CFG_MISS_EN : Fld := ⟨30, 1⟩
def F.EGRESS_LU_AUX_KEY_TYPE : Fld := ⟨0, 8⟩
def F.EGRESS_T_BYTES_DATA : Fld := ⟨0, 32⟩
def F.TABLE_LEARN_CFG_EN : Fld := ⟨0, 1⟩
def F.TABLE_LEARN_CFG_NOTIFY_RING : Fld := ⟨1, 9⟩
def F.TABLE_LEARN_CFG_NOTIFY_EN : Fld := ⟨10, 1⟩
def F.TABLE_LEARN_PROF_ACT_IDX : Fld := ⟨0, 12⟩
def F.TABLE_LEARN_PROF_ADATA_SRC : Fld := ⟨12, 1⟩
def F.TABLE_LEARN_PROF_ADATA_CONT : Fld := ⟨13, 7⟩
def F.TABLE_LEARN_PROF_MOVE_EN : Fld := ⟨20, 1⟩
def F.TABLE_LEARN_PROF_STATIC_DROP : Fld := ⟨21, 1⟩
def F.TABLE_AGE_CFG_AGE_10MS : Fld := ⟨0, 16⟩
def F.TABLE_AGE_CFG_EN : Fld := ⟨16, 1⟩
def F.TABLE_LOCK_CFG_LOCK_TMO : Fld := ⟨0, 16⟩
def F.TABLE_LOCK_STAT_HELD : Fld := ⟨0, 9⟩
def F.TABLE_LOCK_EXP_ROW_ROW : Fld := ⟨0, 20⟩
def F.TABLE_EM_SEED0_SEED : Fld := ⟨0, 32⟩
def F.TABLE_EM_SEED1_SEED : Fld := ⟨0, 32⟩
def F.TABLE_EM_SEED2_SEED : Fld := ⟨0, 32⟩
def F.TABLE_EM_SEED3_SEED : Fld := ⟨0, 32⟩
def F.TABLE_EXT_SEED0_SEED : Fld := ⟨0, 32⟩
def F.TABLE_EXT_SEED1_SEED : Fld := ⟨0, 32⟩
def F.TABLE_EXT_CFG_LOG2_ROWS : Fld := ⟨0, 5⟩
def F.TABLE_EM_STAT_REPLACE : Fld := ⟨0, 1⟩
def F.TABLE_EM_STAT_EXT_ALLOC_FAIL : Fld := ⟨1, 1⟩
def F.TABLE_EM_STAT_LEARN_Q : Fld := ⟨2, 13⟩
def F.TABLE_FFT_CFG_TTL_MS : Fld := ⟨0, 16⟩
def F.TABLE_FFT_CFG_REMOVE_ON_LAST : Fld := ⟨16, 1⟩
def F.TABLE_FFT_CFG_FLUSH : Fld := ⟨17, 1⟩
def F.TABLE_FFT_USED_USED : Fld := ⟨0, 15⟩
def F.TABLE_FFT_EVICT_LO_COUNT : Fld := ⟨0, 32⟩
def F.TABLE_FFT_EVICT_HI_COUNT : Fld := ⟨0, 32⟩
def F.TABLE_TBL_CNT_COUNT : Fld := ⟨0, 64⟩
def F.HALL_Q_SEL_QUEUE : Fld := ⟨0, 14⟩
def F.HALL_Q_CFG_QMIN : Fld := ⟨0, 8⟩
def F.HALL_Q_CFG_ALPHA : Fld := ⟨8, 4⟩
def F.HALL_Q_CFG_SPILL_EN : Fld := ⟨12, 1⟩
def F.HALL_Q_CFG_LAND_MAX : Fld := ⟨14, 8⟩
def F.HALL_Q_SPILL_SPILL_MAX : Fld := ⟨0, 17⟩
def F.HALL_Q_SPILL_RETURN_LOW : Fld := ⟨17, 12⟩
def F.HALL_Q_STAT0_HELD : Fld := ⟨0, 21⟩
def F.HALL_Q_STAT1_LH_PKTS : Fld := ⟨0, 25⟩
def F.HALL_Q_STAT1_SPILLING : Fld := ⟨25, 1⟩
def F.HALL_Q_MARK_PROF_G : Fld := ⟨0, 4⟩
def F.HALL_Q_MARK_PROF_Y : Fld := ⟨4, 4⟩
def F.HALL_Q_MARK_PROF_R : Fld := ⟨8, 4⟩
def F.HALL_Q_MARK_ECN_EN : Fld := ⟨12, 1⟩
def F.HALL_Q_MARK_WRED_EN : Fld := ⟨13, 1⟩
def F.HALL_Q_MARK_AVG_W : Fld := ⟨14, 3⟩
def F.HALL_Q_AVG_AVG : Fld := ⟨0, 21⟩
def F.HALL_P_SEL_PORT : Fld := ⟨0, 10⟩
def F.HALL_P_CFG_IMIN : Fld := ⟨0, 12⟩
def F.HALL_C_CFG_LMIN : Fld := ⟨0, 12⟩
def F.HALL_C_CFG_ALPHA : Fld := ⟨12, 4⟩
def F.HALL_C_CFG_XON_DELTA : Fld := ⟨16, 12⟩
def F.HALL_C_STAT_HELD : Fld := ⟨0, 21⟩
def F.HALL_C_STAT_XOFF : Fld := ⟨21, 1⟩
def F.HALL_C_HDRM_USED : Fld := ⟨0, 16⟩
def F.HALL_FREE_SHARED_CELLS : Fld := ⟨0, 21⟩
def F.HALL_SHARED_TOTAL_CELLS : Fld := ⟨0, 21⟩
def F.HALL_MIN_SUM_CELLS : Fld := ⟨0, 21⟩
def F.HALL_SPARES_USED : Fld := ⟨0, 6⟩
def F.HALL_SPARES_LAST_BANK : Fld := ⟨6, 11⟩
def F.HALL_SPARES_COPYING : Fld := ⟨17, 1⟩
def F.HALL_ECN_CFG_V4_ID : Fld := ⟨0, 6⟩
def F.HALL_ECN_CFG_V6_ID : Fld := ⟨6, 6⟩
def F.HALL_REP_ADDR_LIST : Fld := ⟨0, 12⟩
def F.HALL_REP_ADDR_WORD : Fld := ⟨12, 6⟩
def F.HALL_REP_DATA_DATA : Fld := ⟨0, 32⟩
def F.HALL_REP_CMD_WRITE : Fld := ⟨0, 1⟩
def F.HALL_REP_CMD_READ : Fld := ⟨1, 1⟩
def F.HALL_REP_CMD_BUSY : Fld := ⟨2, 1⟩
def F.HALL_WP_MIN_CELLS : Fld := ⟨0, 21⟩
def F.HALL_WP_MAX_CELLS : Fld := ⟨0, 21⟩
def F.HALL_WP_CFG_PMAX : Fld := ⟨0, 8⟩
def F.HALL_WP_CFG_EN : Fld := ⟨8, 1⟩
def F.HALL_HALL_CNT_COUNT : Fld := ⟨0, 64⟩
def F.LHALL_POOL_SIZE0_UNITS : Fld := ⟨0, 9⟩
def F.LHALL_POOL_SIZE1_UNITS : Fld := ⟨0, 9⟩
def F.LHALL_POOL_SIZE2_UNITS : Fld := ⟨0, 9⟩
def F.LHALL_POOL_SIZE3_UNITS : Fld := ⟨0, 9⟩
def F.LHALL_OWN_RES0_0_MIB : Fld := ⟨0, 16⟩
def F.LHALL_OWN_RES0_1_MIB : Fld := ⟨0, 16⟩
def F.LHALL_OWN_RES0_2_MIB : Fld := ⟨0, 16⟩
def F.LHALL_OWN_RES0_3_MIB : Fld := ⟨0, 16⟩
def F.LHALL_OWN_RES1_0_MIB : Fld := ⟨0, 16⟩
def F.LHALL_OWN_RES1_1_MIB : Fld := ⟨0, 16⟩
def F.LHALL_OWN_RES1_2_MIB : Fld := ⟨0, 16⟩
def F.LHALL_OWN_RES1_3_MIB : Fld := ⟨0, 16⟩
def F.LHALL_OWN_RES2_0_MIB : Fld := ⟨0, 16⟩
def F.LHALL_OWN_RES2_1_MIB : Fld := ⟨0, 16⟩
def F.LHALL_OWN_RES2_2_MIB : Fld := ⟨0, 16⟩
def F.LHALL_OWN_RES2_3_MIB : Fld := ⟨0, 16⟩
def F.LHALL_OWN_RES3_0_MIB : Fld := ⟨0, 16⟩
def F.LHALL_OWN_RES3_1_MIB : Fld := ⟨0, 16⟩
def F.LHALL_OWN_RES3_2_MIB : Fld := ⟨0, 16⟩
def F.LHALL_OWN_RES3_3_MIB : Fld := ⟨0, 16⟩
def F.LHALL_OWN_RES4_0_MIB : Fld := ⟨0, 16⟩
def F.LHALL_OWN_RES4_1_MIB : Fld := ⟨0, 16⟩
def F.LHALL_OWN_RES4_2_MIB : Fld := ⟨0, 16⟩
def F.LHALL_OWN_RES4_3_MIB : Fld := ⟨0, 16⟩
def F.LHALL_OWN_RES5_0_MIB : Fld := ⟨0, 16⟩
def F.LHALL_OWN_RES5_1_MIB : Fld := ⟨0, 16⟩
def F.LHALL_OWN_RES5_2_MIB : Fld := ⟨0, 16⟩
def F.LHALL_OWN_RES5_3_MIB : Fld := ⟨0, 16⟩
def F.LHALL_OWN_MAX_MIB : Fld := ⟨0, 17⟩
def F.LHALL_OWN_HELD_BILLETS : Fld := ⟨0, 26⟩
def F.LHALL_LH_STAT_POOL_CFG_BAD : Fld := ⟨0, 1⟩
def F.BILLET_POOL_STAT_CACHE : Fld := ⟨0, 10⟩
def F.BILLET_POOL_STAT_EMPTY : Fld := ⟨10, 1⟩
def F.BILLET_POOL_FREE_FREE : Fld := ⟨0, 26⟩
def F.BILLET_ERR_PTR_PTR : Fld := ⟨0, 32⟩
def F.BILLET_ERR_SRC_REQ : Fld := ⟨0, 7⟩
def F.BILLET_ERR_SRC_KIND : Fld := ⟨7, 2⟩
def F.BILLET_BILLET_CNT_COUNT : Fld := ⟨0, 64⟩
def F.SCHED_Q_SCHED_WEIGHT : Fld := ⟨0, 8⟩
def F.SCHED_Q_SCHED_GROUP : Fld := ⟨8, 7⟩
def F.SCHED_Q_SCHED_GROUP_EN : Fld := ⟨15, 1⟩
def F.SCHED_Q_SCHED_AGE_LIMIT : Fld := ⟨16, 16⟩
def F.SCHED_Q_RATE_RATE : Fld := ⟨0, 17⟩
def F.SCHED_Q_RATE_EN : Fld := ⟨17, 1⟩
def F.SCHED_Q_RATE_TOC : Fld := ⟨18, 1⟩
def F.SCHED_Q_BURST_BURST : Fld := ⟨0, 13⟩
def F.SCHED_Q_TOKENS_TOKENS : Fld := ⟨0, 32⟩
def F.SCHED_Q_STAT_IN_DEBT : Fld := ⟨0, 1⟩
def F.SCHED_Q_STAT_BURST_LOW : Fld := ⟨1, 1⟩
def F.SCHED_Q_STAT_GATE_WAIT : Fld := ⟨2, 1⟩
def F.SCHED_Q_STAT_PFC_STOP : Fld := ⟨3, 1⟩
def F.SCHED_P_SCHED_PORT_OVERHEAD : Fld := ⟨0, 7⟩
def F.SCHED_P_RATE_RATE : Fld := ⟨0, 17⟩
def F.SCHED_P_RATE_EN : Fld := ⟨17, 1⟩
def F.SCHED_P_RATE_TOC : Fld := ⟨18, 1⟩
def F.SCHED_P_BURST_BURST : Fld := ⟨0, 13⟩
def F.SCHED_P_TOKENS_TOKENS : Fld := ⟨0, 32⟩
def F.SCHED_P_STAT_IN_DEBT : Fld := ⟨0, 1⟩
def F.SCHED_P_STAT_BURST_LOW : Fld := ⟨1, 1⟩
def F.SCHED_G_RATE_RATE : Fld := ⟨0, 17⟩
def F.SCHED_G_RATE_EN : Fld := ⟨17, 1⟩
def F.SCHED_G_RATE_TOC : Fld := ⟨18, 1⟩
def F.SCHED_G_BURST_BURST : Fld := ⟨0, 13⟩
def F.SCHED_G_TOKENS_TOKENS : Fld := ⟨0, 32⟩
def F.SCHED_G_STAT_IN_DEBT : Fld := ⟨0, 1⟩
def F.SCHED_G_STAT_BURST_LOW : Fld := ⟨1, 1⟩
def F.SCHED_Q_CNT_COUNT : Fld := ⟨0, 64⟩
def F.GATE_GT_CTRL_EN : Fld := ⟨0, 1⟩
def F.GATE_GT_CTRL_COMMIT : Fld := ⟨1, 1⟩
def F.GATE_GT_CTRL_LEN : Fld := ⟨2, 7⟩
def F.GATE_GT_CYCLE_CYCLE : Fld := ⟨0, 30⟩
def F.GATE_GT_BASE_NS_NS : Fld := ⟨0, 30⟩
def F.GATE_GT_BASE_SEC_LO_SEC : Fld := ⟨0, 32⟩
def F.GATE_GT_BASE_SEC_HI_SEC : Fld := ⟨0, 16⟩
def F.GATE_GT_STAT_ACTIVE_BANK : Fld := ⟨0, 1⟩
def F.GATE_GT_STAT_PENDING : Fld := ⟨1, 1⟩
def F.GATE_GT_STAT_LEN_ACTIVE : Fld := ⟨2, 7⟩
def F.GATE_GT_STAT_COMMIT_BAD : Fld := ⟨9, 1⟩
def F.GATE_GT_STAT_NEVER_OPEN : Fld := ⟨16, 16⟩
def F.GATE_GT_OVERRUN_COUNT : Fld := ⟨0, 32⟩
def F.GATE_GT_GATES_GATES : Fld := ⟨0, 16⟩
def F.GATE_GT_INTERVAL_INTERVAL : Fld := ⟨0, 30⟩
def F.POLICE_M_SEL_METER : Fld := ⟨0, 13⟩
def F.POLICE_M_CFG_EN : Fld := ⟨0, 1⟩
def F.POLICE_M_CFG_MODE : Fld := ⟨1, 1⟩
def F.POLICE_M_CFG_AWARE : Fld := ⟨2, 1⟩
def F.POLICE_M_CFG_RED_DROP : Fld := ⟨3, 1⟩
def F.POLICE_M_CFG_TOC : Fld := ⟨4, 1⟩
def F.POLICE_M_CFG_LEN_ADJ : Fld := ⟨5, 7⟩
def F.POLICE_M_CFG_COL_CONT : Fld := ⟨12, 7⟩
def F.POLICE_M_CFG_COL_CONT_EN : Fld := ⟨19, 1⟩
def F.POLICE_M_CIR_RATE : Fld := ⟨0, 17⟩
def F.POLICE_M_CBS_BURST : Fld := ⟨0, 13⟩
def F.POLICE_M_PIR_RATE : Fld := ⟨0, 17⟩
def F.POLICE_M_PBS_BURST : Fld := ⟨0, 13⟩
def F.POLICE_M_TC_BYTES : Fld := ⟨0, 32⟩
def F.POLICE_M_TP_BYTES : Fld := ⟨0, 32⟩
def F.POLICE_M_CNT_COUNT : Fld := ⟨0, 64⟩
def F.GAL_DROP_CFG_REC_MAX : Fld := ⟨0, 11⟩
def F.GAL_DROP_CFG_AGG_REC_EN : Fld := ⟨11, 1⟩
def F.GAL_DROP_STAT_AGGREGATED : Fld := ⟨0, 1⟩
def F.GAL_DROP_STAT_LAST_CODE : Fld := ⟨1, 8⟩
def F.GAL_FS_CLASS_EN : Fld := ⟨0, 1⟩
def F.GAL_FS_CLASS_KEY_CONT : Fld := ⟨1, 7⟩
def F.GAL_FS_CLASS_KEY_NCONT : Fld := ⟨8, 2⟩
def F.GAL_DROP_CNT_COUNT : Fld := ⟨0, 64⟩
def F.GAL_DROP_AGG_COUNT : Fld := ⟨0, 64⟩
def F.KEYS_KEY_SEL_SLOT : Fld := ⟨0, 13⟩
def F.KEYS_KEY_SEL_GALLERY : Fld := ⟨13, 5⟩
def F.KEYS_KEY_SEL_BCAST : Fld := ⟨18, 1⟩
def F.KEYS_KEY_SEL_DEVICE : Fld := ⟨19, 1⟩
def F.KEYS_KEY_DATA_DATA : Fld := ⟨0, 32⟩
def F.KEYS_KEY_SALT_DATA : Fld := ⟨0, 32⟩
def F.KEYS_KEY_CMD_COMMIT : Fld := ⟨0, 1⟩
def F.KEYS_KEY_CMD_ERASE : Fld := ⟨1, 1⟩
def F.KEYS_KEY_CMD_CIPHER : Fld := ⟨2, 1⟩
def F.KEYS_KEY_CMD_BUSY : Fld := ⟨3, 1⟩
def F.KEYS_SLOT_STAT_VALID : Fld := ⟨0, 1⟩
def F.KEYS_SLOT_STAT_CIPHER : Fld := ⟨1, 1⟩
def F.KEYS_SLOT_STAT_COMMITS : Fld := ⟨2, 16⟩
def F.INTEG_P_CFG_TX_EN : Fld := ⟨0, 1⟩
def F.INTEG_P_CFG_RX_MODE : Fld := ⟨1, 2⟩
def F.INTEG_P_CFG_RX_CT : Fld := ⟨3, 1⟩
def F.INTEG_P_CFG_TX_AN : Fld := ⟨4, 2⟩
def F.INTEG_P_CFG_TX_SA_BASE : Fld := ⟨6, 11⟩
def F.INTEG_P_CFG_TX_SC : Fld := ⟨17, 1⟩
def F.INTEG_P_CFG_TX_ES : Fld := ⟨18, 1⟩
def F.INTEG_P_CFG_PTP_AUTH : Fld := ⟨19, 1⟩
def F.INTEG_TX_SCI_LO_SCI : Fld := ⟨0, 32⟩
def F.INTEG_TX_SCI_HI_SCI : Fld := ⟨0, 32⟩
def F.INTEG_SA_SEL_SA : Fld := ⟨0, 13⟩
def F.INTEG_SA_CFG_VALID : Fld := ⟨0, 1⟩
def F.INTEG_SA_CFG_DIR : Fld := ⟨1, 1⟩
def F.INTEG_SA_CFG_XPN : Fld := ⟨2, 1⟩
def F.INTEG_SA_CFG_REPLAY_EN : Fld := ⟨3, 1⟩
def F.INTEG_SA_CFG_KEY_SLOT : Fld := ⟨4, 13⟩
def F.INTEG_SA_PN_LO_PN : Fld := ⟨0, 32⟩
def F.INTEG_SA_PN_HI_PN : Fld := ⟨0, 32⟩
def F.INTEG_SA_SSCI_SSCI : Fld := ⟨0, 32⟩
def F.INTEG_SA_WINDOW_WINDOW : Fld := ⟨0, 30⟩
def F.INTEG_SA_STAT_THRESH : Fld := ⟨0, 1⟩
def F.INTEG_SA_STAT_EXHAUSTED : Fld := ⟨1, 1⟩
def F.INTEG_PN_THRESH_LO_T : Fld := ⟨0, 32⟩
def F.INTEG_PN_THRESH_HI_T : Fld := ⟨0, 32⟩
def F.INTEG_RSC_SEL_SC : Fld := ⟨0, 10⟩
def F.INTEG_RSC_SCI_LO_SCI : Fld := ⟨0, 32⟩
def F.INTEG_RSC_SCI_HI_SCI : Fld := ⟨0, 32⟩
def F.INTEG_RSC_CFG_VALID : Fld := ⟨0, 1⟩
def F.INTEG_RSC_CFG_PORT : Fld := ⟨1, 5⟩
def F.INTEG_RSC_CFG_SA_BASE : Fld := ⟨6, 11⟩
def F.INTEG_PTP_SPP_SPP : Fld := ⟨0, 8⟩
def F.INTEG_PTP_SPP_KEY_SLOT : Fld := ⟨8, 13⟩
def F.INTEG_PTP_SPP_VALID : Fld := ⟨21, 1⟩
def F.INTEG_PTP_KEYID_KEY_ID : Fld := ⟨0, 32⟩
def F.INTEG_INTEG_CNT_COUNT : Fld := ⟨0, 64⟩
def F.TIME_NOW_FRAC_FRAC : Fld := ⟨0, 16⟩
def F.TIME_NOW_NS_NS : Fld := ⟨0, 30⟩
def F.TIME_NOW_SEC_LO_SEC : Fld := ⟨0, 32⟩
def F.TIME_NOW_SEC_HI_SEC : Fld := ⟨0, 16⟩
def F.TIME_RATE_LO_RATE : Fld := ⟨0, 32⟩
def F.TIME_RATE_HI_RATE : Fld := ⟨0, 8⟩
def F.TIME_STEP_NS_NS : Fld := ⟨0, 30⟩
def F.TIME_STEP_NS_NEG : Fld := ⟨31, 1⟩
def F.TIME_STEP_SEC_LO_SEC : Fld := ⟨0, 32⟩
def F.TIME_STEP_SEC_HI_SEC : Fld := ⟨0, 16⟩
def F.TIME_STEP_CTRL_SET : Fld := ⟨0, 1⟩
def F.TIME_STEP_CTRL_ADD : Fld := ⟨1, 1⟩
def F.TIME_STEP_CTRL_BUSY : Fld := ⟨2, 1⟩
def F.TIME_CLK_CFG_SRC : Fld := ⟨0, 1⟩
def F.TIME_CLK_CFG_EXT10M_OK : Fld := ⟨1, 1⟩
def F.TIME_CLK_CFG_AUTO_FALLBACK : Fld := ⟨2, 1⟩
def F.TIME_CLOCK_ID_LO_ID : Fld := ⟨0, 32⟩
def F.TIME_CLOCK_ID_HI_ID : Fld := ⟨0, 32⟩
def F.TIME_SERVO_CTRL_EN : Fld := ⟨0, 1⟩
def F.TIME_SERVO_CTRL_SRC_KIND : Fld := ⟨1, 2⟩
def F.TIME_SERVO_CTRL_SRC_PORT : Fld := ⟨3, 10⟩
def F.TIME_SERVO_CTRL_DELAY_MODE : Fld := ⟨13, 1⟩
def F.TIME_SERVO_CTRL_DREQ_LOG : Fld := ⟨14, 4⟩
def F.TIME_SERVO_CTRL_STEP_EN : Fld := ⟨18, 1⟩
def F.TIME_SERVO_CTRL_FORCE_HOLD : Fld := ⟨19, 1⟩
def F.TIME_SERVO_CTRL_DOMAIN : Fld := ⟨20, 8⟩
def F.TIME_SRC_ID_LO_ID : Fld := ⟨0, 32⟩
def F.TIME_SRC_ID_HI_ID : Fld := ⟨0, 32⟩
def F.TIME_SRC_PNUM_PNUM : Fld := ⟨0, 16⟩
def F.TIME_SERVO_GAIN_KP_SHIFT : Fld := ⟨0, 5⟩
def F.TIME_SERVO_GAIN_KI_SHIFT : Fld := ⟨5, 5⟩
def F.TIME_SERVO_GAIN_FILTER_NS : Fld := ⟨10, 16⟩
def F.TIME_SERVO_THRESH_LOCK_NS : Fld := ⟨0, 8⟩
def F.TIME_SERVO_THRESH_UNLOCK_NS : Fld := ⟨8, 8⟩
def F.TIME_SERVO_THRESH_STEP_US : Fld := ⟨16, 8⟩
def F.TIME_SERVO_THRESH_LOSS_S : Fld := ⟨24, 8⟩
def F.TIME_SERVO_STAT_STATE : Fld := ⟨0, 2⟩
def F.TIME_SERVO_STAT_EVER_LOCKED : Fld := ⟨2, 1⟩
def F.TIME_OFFSET_LO_OFS : Fld := ⟨0, 32⟩
def F.TIME_OFFSET_HI_OFS : Fld := ⟨0, 32⟩
def F.TIME_PATH_DELAY_M : Fld := ⟨0, 32⟩
def F.TIME_HOLD_RATE_LO_RATE : Fld := ⟨0, 32⟩
def F.TIME_HOLD_RATE_HI_RATE : Fld := ⟨0, 8⟩
def F.TIME_PTP_CFG_HDR_ID : Fld := ⟨0, 6⟩
def F.TIME_SRV_CNT_COUNT : Fld := ⟨0, 64⟩
def F.TIME_PPS_OUT_CFG_EN : Fld := ⟨0, 1⟩
def F.TIME_PPS_OUT_CFG_WIDTH : Fld := ⟨1, 20⟩
def F.TIME_PPS_OUT_OFS_OFS : Fld := ⟨0, 30⟩
def F.TIME_PPS_IN_CAP_FRAC_FRAC : Fld := ⟨0, 16⟩
def F.TIME_PPS_IN_CAP_NS_NS : Fld := ⟨0, 30⟩
def F.TIME_PPS_IN_CAP_SEC_LO_SEC_LO : Fld := ⟨0, 32⟩
def F.TIME_PPS_IN_CAP_SEC_HI_SEC_HI : Fld := ⟨0, 16⟩
def F.TIME_TR_CTRL_EN : Fld := ⟨0, 1⟩
def F.TIME_TR_CTRL_POL : Fld := ⟨1, 1⟩
def F.TIME_TR_CTRL_ARMED : Fld := ⟨2, 1⟩
def F.TIME_TR_START_NS_NS : Fld := ⟨0, 30⟩
def F.TIME_TR_START_SEC_LO_SEC : Fld := ⟨0, 32⟩
def F.TIME_TR_START_SEC_HI_SEC : Fld := ⟨0, 16⟩
def F.TIME_TR_PERIOD_NS : Fld := ⟨0, 32⟩
def F.TIME_TR_WIDTH_NS : Fld := ⟨0, 30⟩
def F.TIME_TR_COUNT_PULSES : Fld := ⟨0, 32⟩
def F.TIME_EV_CTRL_EDGE : Fld := ⟨0, 2⟩
def F.TIME_EV_CTRL_LEVEL : Fld := ⟨2, 5⟩
def F.TIME_EV_CTRL_OVF : Fld := ⟨16, 16⟩
def F.TIME_EV_FRAC_FRAC : Fld := ⟨0, 16⟩
def F.TIME_EV_FRAC_EDGE : Fld := ⟨31, 1⟩
def F.TIME_EV_NS_NS : Fld := ⟨0, 30⟩
def F.TIME_EV_SEC_LO_SEC_LO : Fld := ⟨0, 32⟩
def F.TIME_EV_SEC_HI_SEC_HI : Fld := ⟨0, 16⟩
def F.TIME_SYNCE_LANE : Fld := ⟨0, 10⟩
def F.TIME_SYNCE_EN : Fld := ⟨10, 1⟩
def F.TIME_SYNCE_DIV : Fld := ⟨11, 3⟩
def F.TIME_SYNCE_SQUELCHED : Fld := ⟨14, 1⟩
def F.TIME_LEDGER_CTRL_EN : Fld := ⟨0, 1⟩
def F.TIME_LEDGER_CTRL_EXPORT_EN : Fld := ⟨1, 1⟩
def F.TIME_LEDGER_CTRL_EXP_LOG2 : Fld := ⟨2, 4⟩
def F.TIME_LEDGER_CTRL_COPY : Fld := ⟨6, 1⟩
def F.TIME_LEDGER_CTRL_COPY_BUSY : Fld := ⟨7, 1⟩
def F.TIME_LEDGER_SEQ_LO_SEQ : Fld := ⟨0, 32⟩
def F.TIME_LEDGER_SEQ_HI_SEQ : Fld := ⟨0, 32⟩
def F.TIME_LEDGER_ID_SWITCH_ID : Fld := ⟨0, 16⟩
def F.TIME_LEDGER_EXP_ADDR_LO_ADDR : Fld := ⟨0, 32⟩
def F.TIME_LEDGER_EXP_ADDR_HI_ADDR : Fld := ⟨0, 32⟩
def F.TIME_COPY_FROM_LO_SEQ : Fld := ⟨0, 32⟩
def F.TIME_COPY_FROM_HI_SEQ : Fld := ⟨0, 32⟩
def F.TIME_COPY_COUNT_COUNT : Fld := ⟨0, 17⟩
def F.TIME_COPY_ADDR_LO_ADDR : Fld := ⟨0, 32⟩
def F.TIME_COPY_ADDR_HI_ADDR : Fld := ⟨0, 32⟩
def F.TIME_LEDGER_LOST_COUNT : Fld := ⟨0, 16⟩
def F.TIME_EXPORT_ERR_COUNT : Fld := ⟨0, 16⟩
def F.TIME_LEDGER_UNTAGGED_COUNT : Fld := ⟨0, 16⟩
def F.TSU_TPL_CFG_LEN : Fld := ⟨0, 7⟩
def F.TSU_TPL_CFG_PTP_OFS : Fld := ⟨7, 7⟩
def F.TSU_TPL_CFG_XPORT : Fld := ⟨14, 2⟩
def F.TSU_TPL_CFG_TLV_FILL : Fld := ⟨16, 1⟩
def F.TSU_TS_CAL_RX : Fld := ⟨0, 16⟩
def F.TSU_TS_CAL_TX : Fld := ⟨16, 16⟩
def F.TSU_TSU_CNT_COUNT : Fld := ⟨0, 64⟩
def F.TSU_TS_CFG_ROLE : Fld := ⟨0, 2⟩
def F.TSU_TS_CFG_TC_EN : Fld := ⟨2, 1⟩
def F.TSU_TS_CFG_TC_P2P : Fld := ⟨3, 1⟩
def F.TSU_TS_CFG_SYNC_LOG : Fld := ⟨4, 4⟩
def F.TSU_TS_CFG_SA_PORT : Fld := ⟨8, 1⟩
def F.TSU_TS_CFG_PTP_Q : Fld := ⟨9, 4⟩
def F.TSU_TS_CFG_PTP_PORTNUM : Fld := ⟨13, 16⟩
def F.TSU_TS_BOARD_RX : Fld := ⟨0, 16⟩
def F.TSU_TS_BOARD_TX : Fld := ⟨16, 16⟩
def F.TSU_TS_ASYM_PS : Fld := ⟨0, 32⟩
def F.TSU_TS_LOOP_FWD_PS : Fld := ⟨0, 32⟩
def F.TSU_TS_LOOP_REV_PS : Fld := ⟨0, 32⟩
def F.TSU_TPL_BYTES_DATA : Fld := ⟨0, 32⟩
def F.TELEM_FS_CFG_EXPORT_S : Fld := ⟨0, 8⟩
def F.TELEM_FS_CFG_IDLE_S : Fld := ⟨8, 8⟩
def F.TELEM_FS_CFG_EN : Fld := ⟨16, 1⟩
def F.TELEM_FS_CFG_FLUSH : Fld := ⟨17, 1⟩
def F.TELEM_FS_SEED_SEED : Fld := ⟨0, 32⟩
def F.TELEM_FS_STAT_LIVE : Fld := ⟨0, 23⟩
def F.TELEM_FS_STAT_RESIZING : Fld := ⟨23, 1⟩
def F.TELEM_LAT_BASE_BASE : Fld := ⟨0, 16⟩
def F.TELEM_IOAM_CFG_HDR_ID : Fld := ⟨0, 6⟩
def F.TELEM_IOAM_CFG_NS_ID : Fld := ⟨6, 16⟩
def F.TELEM_IOAM_CFG_NS_CONT : Fld := ⟨22, 7⟩
def F.TELEM_IOAM_NODE_NODE_ID : Fld := ⟨0, 24⟩
def F.TELEM_TEL_CNT_COUNT : Fld := ⟨0, 64⟩
def F.TELEM_C_CFG_EN : Fld := ⟨0, 1⟩
def F.TELEM_C_CFG_TYPE_MASK : Fld := ⟨1, 7⟩
def F.TELEM_C_CFG_MAX_RECS : Fld := ⟨8, 7⟩
def F.TELEM_C_CFG_TAG_EN : Fld := ⟨15, 1⟩
def F.TELEM_C_CFG_INJ_GAL : Fld := ⟨16, 5⟩
def F.TELEM_C_CFG_ICLASS : Fld := ⟨21, 4⟩
def F.TELEM_C_TPL_LEN : Fld := ⟨0, 8⟩
def F.TELEM_C_TPL_IP_OFS : Fld := ⟨8, 7⟩
def F.TELEM_C_TPL_UDP_OFS : Fld := ⟨15, 7⟩
def F.TELEM_C_TPL_V6 : Fld := ⟨22, 1⟩
def F.TELEM_C_FLUSH_FLUSH_US : Fld := ⟨0, 16⟩
def F.TELEM_C_SEQ_LO_SEQ : Fld := ⟨0, 32⟩
def F.TELEM_C_SEQ_HI_SEQ : Fld := ⟨0, 32⟩
def F.TELEM_C_SENT_LO_COUNT : Fld := ⟨0, 32⟩
def F.TELEM_C_SENT_HI_COUNT : Fld := ⟨0, 32⟩
def F.TELEM_C_DROPPED_LO_COUNT : Fld := ⟨0, 32⟩
def F.TELEM_C_DROPPED_HI_COUNT : Fld := ⟨0, 32⟩
def F.TELEM_C_TPL_BYTES_DATA : Fld := ⟨0, 32⟩
def F.ANVIL_A_CFG_HDR_ID : Fld := ⟨0, 6⟩
def F.ANVIL_A_CFG_ALPHA : Fld := ⟨6, 4⟩
def F.ANVIL_G_SEL_GROUP : Fld := ⟨0, 16⟩
def F.ANVIL_G_CFG_VALID : Fld := ⟨0, 1⟩
def F.ANVIL_G_CFG_ANVIL : Fld := ⟨1, 6⟩
def F.ANVIL_G_CFG_ETYPE : Fld := ⟨7, 4⟩
def F.ANVIL_G_CFG_OP : Fld := ⟨11, 2⟩
def F.ANVIL_G_CFG_ROOT : Fld := ⟨13, 1⟩
def F.ANVIL_G_CFG_WINDOW_M1 : Fld := ⟨14, 6⟩
def F.ANVIL_G_CFG_CHUNK_64 : Fld := ⟨20, 7⟩
def F.ANVIL_G_MEMBERS_MEMBERS : Fld := ⟨0, 11⟩
def F.ANVIL_G_MEMBERS_MY_INDEX : Fld := ⟨11, 10⟩
def F.ANVIL_G_EPOCH_EPOCH : Fld := ⟨0, 32⟩
def F.ANVIL_G_PARENT_PARENT_ID : Fld := ⟨0, 16⟩
def F.ANVIL_G_TPL_TPL_UP : Fld := ⟨0, 8⟩
def F.ANVIL_G_TPL_TPL_DOWN : Fld := ⟨8, 8⟩
def F.ANVIL_G_TMR_NACK_STK : Fld := ⟨0, 12⟩
def F.ANVIL_G_TMR_NACK_MAX : Fld := ⟨12, 4⟩
def F.ANVIL_G_TMR_UP_STK : Fld := ⟨16, 12⟩
def F.ANVIL_G_TMR_UP_MAX : Fld := ⟨28, 4⟩
def F.ANVIL_G_RETAIN_RETAIN_MS : Fld := ⟨0, 16⟩
def F.ANVIL_G_LOW_LOW : Fld := ⟨0, 32⟩
def F.ANVIL_G_STAT_OPEN : Fld := ⟨0, 7⟩
def F.ANVIL_G_STAT_NO_ROOM : Fld := ⟨7, 1⟩
def F.ANVIL_G_STAT_BAD_CFG : Fld := ⟨8, 1⟩
def F.ANVIL_G_STAT_INDEX_OK : Fld := ⟨9, 1⟩
def F.ANVIL_A_STAT_GRAN_FREE : Fld := ⟨0, 9⟩
def F.ANVIL_A_STAT_STAGED : Fld := ⟨9, 5⟩
def F.ANVIL_A_STAT_INQ : Fld := ⟨14, 12⟩
def F.ANVIL_A_STAT_FLOOR : Fld := ⟨26, 1⟩
def F.ANVIL_T_CFG_LEN : Fld := ⟨0, 8⟩
def F.ANVIL_T_CFG_IP_OFS : Fld := ⟨8, 7⟩
def F.ANVIL_T_CFG_UDP_OFS : Fld := ⟨15, 7⟩
def F.ANVIL_T_CFG_V6 : Fld := ⟨22, 1⟩
def F.ANVIL_T_CFG_ICLASS : Fld := ⟨23, 4⟩
def F.ANVIL_ANV_CNT_COUNT : Fld := ⟨0, 64⟩
def F.ANVIL_T_BYTES_DATA : Fld := ⟨0, 32⟩
def F.SEQ_RL_CMD_LOAD : Fld := ⟨0, 1⟩
def F.SEQ_RL_CMD_SWITCH : Fld := ⟨1, 1⟩
def F.SEQ_RL_CMD_LOAD_CLASS : Fld := ⟨2, 3⟩
def F.SEQ_RL_STAT_ACTIVE_BANK : Fld := ⟨0, 1⟩
def F.SEQ_RL_STAT_IDLE_STATE : Fld := ⟨1, 2⟩
def F.SEQ_RL_STAT_RESULT : Fld := ⟨3, 4⟩
def F.SEQ_RL_LOAD_ADDR_LO_ADDR : Fld := ⟨0, 32⟩
def F.SEQ_RL_LOAD_ADDR_HI_ADDR : Fld := ⟨0, 32⟩
def F.SEQ_RL_LOAD_LEN_LEN : Fld := ⟨0, 21⟩
def F.SEQ_RL_SVN_MIN_SVN : Fld := ⟨0, 32⟩
def F.SEQ_RL_SVN_SVN : Fld := ⟨0, 32⟩
def F.SEQ_RL_DIGEST_D : Fld := ⟨0, 32⟩
def F.SEQ_CKEY_HASH : Fld := ⟨0, 32⟩
def F.SEQ_CKEY_VALID_VALID : Fld := ⟨0, 1⟩
def F.SEQ_SQ_CTRL_RESTART : Fld := ⟨0, 1⟩
def F.SEQ_SQ_CTRL_STOP : Fld := ⟨1, 1⟩
def F.SEQ_SQ_STAT_STATE : Fld := ⟨0, 2⟩
def F.SEQ_SQ_STAT_PC : Fld := ⟨2, 15⟩
def F.SEQ_SQ_STAT_EVQ : Fld := ⟨17, 7⟩
def F.SEQ_SQ_FAULT_ADDR : Fld := ⟨0, 15⟩
def F.SEQ_SQ_FAULT_CODE : Fld := ⟨15, 4⟩
def F.SEQ_SQ_MBOX_IN_V : Fld := ⟨0, 32⟩
def F.SEQ_SQ_MBOX_OUT_V : Fld := ⟨0, 32⟩
def F.SEQ_SQ_FLAGS_FLAGS : Fld := ⟨0, 16⟩
def F.SEQ_SQ_SIG_SIG : Fld := ⟨0, 32⟩
def F.SEQ_SQ_CNT_COUNT : Fld := ⟨0, 64⟩
def F.HOST_HALTED_RING : Fld := ⟨0, 32⟩
def F.HOST_VEC_LOST_COUNT : Fld := ⟨0, 16⟩
def F.HOST_TRAP_NO_RING_LO_COUNT : Fld := ⟨0, 32⟩
def F.HOST_TRAP_NO_RING_HI_COUNT : Fld := ⟨0, 32⟩
def F.HOST_RING_FN_FN : Fld := ⟨0, 5⟩
def F.HOST_FN_WIN_BASE_LO_ADDR : Fld := ⟨0, 32⟩
def F.HOST_FN_WIN_BASE_HI_ADDR : Fld := ⟨0, 32⟩
def F.HOST_FN_WIN_LIMIT_LO_ADDR : Fld := ⟨0, 32⟩
def F.HOST_FN_WIN_LIMIT_HI_ADDR : Fld := ⟨0, 32⟩
def F.RINGS_RW_CTRL_EN : Fld := ⟨0, 1⟩
def F.RINGS_RW_CTRL_TYPE : Fld := ⟨1, 3⟩
def F.RINGS_RW_CTRL_LOG2_SIZE : Fld := ⟨4, 5⟩
def F.RINGS_RW_CTRL_CLASS : Fld := ⟨9, 3⟩
def F.RINGS_RW_CTRL_IRQ_EN : Fld := ⟨12, 1⟩
def F.RINGS_RW_CTRL_VEC : Fld := ⟨13, 11⟩
def F.RINGS_RW_CTRL_RESUME : Fld := ⟨24, 1⟩
def F.RINGS_RW_POLL_POLL_INTERVAL : Fld := ⟨0, 16⟩
def F.RINGS_RW_POLL_IRQ_BATCH : Fld := ⟨16, 16⟩
def F.RINGS_RW_BASE_LO_ADDR : Fld := ⟨0, 32⟩
def F.RINGS_RW_BASE_HI_ADDR : Fld := ⟨0, 32⟩
def F.RINGS_RW_HEAD_ADDR_LO_ADDR : Fld := ⟨0, 32⟩
def F.RINGS_RW_HEAD_ADDR_HI_ADDR : Fld := ⟨0, 32⟩
def F.RINGS_RW_START_START : Fld := ⟨0, 32⟩
def F.RINGS_RW_CONS_K : Fld := ⟨0, 32⟩
def F.RINGS_RW_STAT_STATE : Fld := ⟨0, 2⟩
def F.RINGS_RW_STAT_CODE : Fld := ⟨2, 4⟩
def F.RINGS_RW_ERR_INDEX_INDEX : Fld := ⟨0, 32⟩
def F.RINGS_RW_ERR_ROW_ROW : Fld := ⟨0, 4⟩
def F.RINGS_RW_DONE_LO_COUNT : Fld := ⟨0, 32⟩
def F.RINGS_RW_DONE_HI_COUNT : Fld := ⟨0, 32⟩
def F.RINGS_RW_NONFATAL_LO_COUNT : Fld := ⟨0, 32⟩
def F.RINGS_RW_NONFATAL_HI_COUNT : Fld := ⟨0, 32⟩
def F.RINGS_RW_RETRY_LO_COUNT : Fld := ⟨0, 32⟩
def F.RINGS_RW_RETRY_HI_COUNT : Fld := ⟨0, 32⟩
def F.GCNT_PC_GCTL_FREEZE : Fld := ⟨0, 1⟩
def F.GCNT_PC_GCTL_CLR_ALL : Fld := ⟨1, 1⟩
def F.GCNT_PC_SEL_EVENT : Fld := ⟨0, 16⟩
def F.GCNT_PC_SEL_EN : Fld := ⟨16, 1⟩
def F.GCNT_PC_SEL_SAMPLE_EN : Fld := ⟨17, 1⟩
def F.GCNT_PC_SEL_FN_MODE : Fld := ⟨18, 2⟩
def F.GCNT_PC_SEL_FN : Fld := ⟨20, 5⟩
def F.GCNT_PC_SEL_RANGE_EN : Fld := ⟨25, 1⟩
def F.GCNT_PC_FILT_SRC : Fld := ⟨0, 8⟩
def F.GCNT_PC_FILT_CLASS : Fld := ⟨8, 16⟩
def F.GCNT_PC_RANGE_LO_BOUND : Fld := ⟨0, 24⟩
def F.GCNT_PC_RANGE_HI_BOUND : Fld := ⟨0, 24⟩
def F.GCNT_PC_VAL_LO_VALUE : Fld := ⟨0, 32⟩
def F.GCNT_PC_VAL_HI_VALUE : Fld := ⟨0, 16⟩
def F.GCNT_PC_RELOAD_LO_RELOAD : Fld := ⟨0, 32⟩
def F.GCNT_PC_RELOAD_HI_RELOAD : Fld := ⟨0, 16⟩
def F.GCNT_PC_SNAP_LO_VALUE : Fld := ⟨0, 32⟩
def F.GCNT_PC_SNAP_HI_VALUE : Fld := ⟨0, 16⟩
def F.GCNT_PC_STAT_OVF : Fld := ⟨0, 1⟩
def F.GCNT_PC_STAT_SNAP_OVF : Fld := ⟨1, 1⟩
def F.GCNT_SMP_STAT_LEVEL : Fld := ⟨0, 5⟩
def F.GCNT_SMP_STAT_LOST : Fld := ⟨16, 16⟩
def F.GCNT_SMP_WORD : Fld := ⟨0, 32⟩
def F.GCNT_VIEW_V : Fld := ⟨0, 32⟩
def F.CNT_PC_GCTL_FREEZE : Fld := ⟨0, 1⟩
def F.CNT_PC_GCTL_CLR_ALL : Fld := ⟨1, 1⟩
def F.CNT_PC_SEL_EVENT : Fld := ⟨0, 16⟩
def F.CNT_PC_SEL_EN : Fld := ⟨16, 1⟩
def F.CNT_PC_SEL_FN_MODE : Fld := ⟨18, 2⟩
def F.CNT_PC_SEL_FN : Fld := ⟨20, 5⟩
def F.CNT_PC_SEL_RANGE_EN : Fld := ⟨25, 1⟩
def F.CNT_PC_FILT_SRC : Fld := ⟨0, 8⟩
def F.CNT_PC_FILT_CLASS : Fld := ⟨8, 16⟩
def F.CNT_PC_RANGE_LO_BOUND : Fld := ⟨0, 24⟩
def F.CNT_PC_RANGE_HI_BOUND : Fld := ⟨0, 24⟩
def F.CNT_PC_VAL_LO_VALUE : Fld := ⟨0, 32⟩
def F.CNT_PC_VAL_HI_VALUE : Fld := ⟨0, 16⟩
def F.CNT_PC_RELOAD_LO_RELOAD : Fld := ⟨0, 32⟩
def F.CNT_PC_RELOAD_HI_RELOAD : Fld := ⟨0, 16⟩
def F.CNT_PC_SNAP_LO_VALUE : Fld := ⟨0, 32⟩
def F.CNT_PC_SNAP_HI_VALUE : Fld := ⟨0, 16⟩
def F.CNT_PC_STAT_OVF : Fld := ⟨0, 1⟩
def F.CNT_PC_STAT_SNAP_OVF : Fld := ⟨1, 1⟩
def F.CNT_STAT_SEL_GALLERY : Fld := ⟨0, 5⟩
def F.CNT_STAT_SEL_COPY : Fld := ⟨5, 1⟩
def F.CNT_VF_MAP_GAL : Fld := ⟨0, 5⟩
def F.CNT_VF_MAP_VALID : Fld := ⟨5, 1⟩
def F.CNT_STATV_PT_COUNT : Fld := ⟨0, 64⟩
def F.CNT_STATV_Q_COUNT : Fld := ⟨0, 64⟩
def F.DAMPER_CAP_CAP_W : Fld := ⟨0, 10⟩
def F.DAMPER_CAP_GUARD_W : Fld := ⟨10, 7⟩
def F.DAMPER_CAP_ADMIT_PACING : Fld := ⟨17, 1⟩
def F.DAMPER_RELEASE_RELEASE_US : Fld := ⟨0, 16⟩
def F.DAMPER_RELEASE_HYST_W : Fld := ⟨16, 7⟩
def F.DAMPER_DMP_STAT_LEVEL : Fld := ⟨0, 5⟩
def F.DAMPER_DMP_STAT_LEVEL_MAX : Fld := ⟨5, 5⟩
def F.DAMPER_DMP_STAT_AT_FLOOR : Fld := ⟨10, 1⟩
def F.DAMPER_DMP_STAT_QUENCH : Fld := ⟨11, 1⟩
def F.DAMPER_DMP_STAT_VR_THROTTLE : Fld := ⟨12, 1⟩
def F.DAMPER_DMP_STAT_THERMAL : Fld := ⟨13, 1⟩
def F.DAMPER_DMP_STAT_CAP_UNREACHABLE : Fld := ⟨14, 1⟩
def F.DAMPER_DMP_STAT_CORE_LOW : Fld := ⟨15, 1⟩
def F.DAMPER_DMP_STAT_FREQ_DEFERRED : Fld := ⟨16, 1⟩
def F.DAMPER_DMP_STAT_PACE_LEVEL : Fld := ⟨17, 4⟩
def F.DAMPER_POWER_WINDOW_W : Fld := ⟨0, 12⟩
def F.DAMPER_POWER_FLOOR_W : Fld := ⟨12, 12⟩
def F.DAMPER_PEAK_PEAK_W : Fld := ⟨0, 12⟩
def F.DAMPER_ACT_ANVIL_SLOTS : Fld := ⟨0, 9⟩
def F.DAMPER_ACT_SEQ_SLOTS : Fld := ⟨9, 9⟩
def F.DAMPER_ACT_STAIR_SLOTS : Fld := ⟨18, 8⟩
def F.DAMPER_THERM_CFG_THROTTLE_C : Fld := ⟨0, 7⟩
def F.DAMPER_THERM_CFG_HYST_C : Fld := ⟨7, 4⟩
def F.DAMPER_TEMP_TJ_MAX : Fld := ⟨0, 8⟩
def F.DAMPER_TEMP_TJ_PEAK : Fld := ⟨8, 8⟩
def F.DAMPER_TEMP_SENSOR : Fld := ⟨16, 7⟩
def F.DAMPER_QUENCH_CFG_DROOP_MV : Fld := ⟨0, 7⟩
def F.DAMPER_QUENCH_CFG_HOLD_CYC : Fld := ⟨7, 9⟩
def F.DAMPER_AVS_CFG_AVS_EN : Fld := ⟨0, 1⟩
def F.DAMPER_AVS_CFG_MARGIN_MV : Fld := ⟨1, 7⟩
def F.DAMPER_AVS_STAT_VTARGET_MV : Fld := ⟨0, 10⟩
def F.DAMPER_AVS_STAT_VREAD_MV : Fld := ⟨10, 10⟩
def F.DAMPER_AVS_STAT_IREAD_A : Fld := ⟨20, 10⟩
def F.DAMPER_AVS_STAT_AVS_ERR : Fld := ⟨30, 1⟩
def F.DAMPER_AVS_FUSE_V_2G0 : Fld := ⟨0, 10⟩
def F.DAMPER_AVS_FUSE_V_1G6 : Fld := ⟨10, 10⟩
def F.DAMPER_DMP_TIME_COUNT : Fld := ⟨0, 64⟩
def F.DAMPER_DMP_EVENTS_COUNT : Fld := ⟨0, 64⟩
def F.RAS_LOG_STAT_LEVEL : Fld := ⟨0, 9⟩
def F.RAS_LOG_STAT_OVF : Fld := ⟨9, 16⟩
def F.RAS_LOG_DATA : Fld := ⟨0, 32⟩
def F.RAS_RR_CFG_APPLY : Fld := ⟨0, 1⟩
def F.RAS_RR_CFG_CLEAR : Fld := ⟨1, 1⟩
def F.RAS_RR_STAT_COUNT : Fld := ⟨0, 8⟩
def F.RAS_RR_STAT_FULL : Fld := ⟨8, 1⟩
def F.RAS_RR_STAT_WR_ERR : Fld := ⟨9, 1⟩
def F.RAS_RR_STAT_NONE_VALID : Fld := ⟨10, 1⟩
def F.RAS_RAS_STAT_FATAL : Fld := ⟨0, 1⟩
def F.RAS_RAS_CNT_COUNT : Fld := ⟨0, 64⟩

end Sys2Proof.Machine
end

