-- ==== Sys2Proof/Config.lean ====
section
/-! DEFINITION. What the spec leaves open (free values) and what one part's fuses hold. Each is an opaque constant: it
has no value that Lean could compute or prove, so a theorem holds whatever it is. -/

namespace Sys2Proof.Config

/-- The free value of width `w` that the `n`-th open value of a run takes. -/
opaque freeValue (w : Nat) : Nat → BitVec w

/-- The set that a fragment-follow key falls in: the spec gives no function (R130). -/
opaque fftSet : BitVec 320 → BitVec 12

/-- TS_CAL fused for a lane at production, receive and transmit, in ps (R259, R269). -/
opaque tsCalRx : Nat → BitVec 16
opaque tsCalTx : Nat → BitVec 16

/-- The transmit taps of a lane in training, at a core cycle: the link partner's requests change them (R77), and no command tells
what it asked for. -/
opaque trainTaps : Nat → Nat → BitVec 27

/-- The CTLE code that a lane's receiver has adapted to, with the DFE enabled or not, at a core cycle (R78). -/
opaque adaptedCtle : Nat → Bool → Nat → BitVec 5

/-- The core voltages fused into a part, for 2.000 GHz and 1.600 GHz, in mV (R375). -/
opaque avsFuse2g0 : BitVec 10
opaque avsFuse1g6 : BitVec 10

/-- The hash of the boot root key fused into a part, and the lowest security version it accepts (R412). -/
opaque bootKeyHash : BitVec 384
opaque bootSvnMin : BitVec 32

/-- The hash of the Idzan root key, fixed in the silicon (R325, R412). -/
opaque idzanRootHash : BitVec 384

/-- What a bus address of a sequencer's role decodes to (R321, R323): the spec names the units, and gives no addresses. -/
inductive BusTarget where
  /-- no unit of the role -/
  | nothing
  /-- the sequencer's own inbound and outbound mailbox -/
  | mboxIn | mboxOut
  /-- a register of a unit of the role, in a gallery or in none -/
  | unit (gal : Option (BitVec 5))
deriving DecidableEq, Repr, Inhabited

/-- The bus map of a role: what each address decodes to. -/
opaque busMap : Nat → Nat → BusTarget

/-- The fused power coefficients of R377 in a part: the power of a stroke in mW from its activity counts. -/
opaque strokePower : List Nat → BitVec 32

/-- The Damper's estimate of a stroke's power with the ladder at its floor, in W, from the same (R382). -/
opaque floorPower : List Nat → BitVec 12

end Sys2Proof.Config
end

