-- ==== Sys2Proof/Machine/RegMap.lean ====
section
/-! DEFINITION. The register map: one row per register of the spec's register tables, with its page, offset, array
dimensions, fields (bit range, access type of R7, reset value) and the attributes the chapters give it. -/

namespace Sys2Proof.Machine

/-- The pages of BAR0 (R351); the gallery sub-pages follow the device pages in the order of their numbers. -/
inductive Page where
  | top | host | time | damper | ras | seq | cnt | table | hall | lhall | billet | anvil | telem | keys | rings
  | lane | d2d
  | gal | port | parse | match | stair | egress | sched | gate | police | integ | tsu | gcnt
deriving DecidableEq, Repr

/-- The access type of a field (R7). -/
inductive Acc where
  | rw | ro | w1c | w1s | wo | rwl
deriving DecidableEq, Repr

/-- What a chapter says of a register beyond its fields' access types. -/
inductive RegAttr where
  /-- read from the structured state, not from the register file -/
  | live
  /-- a write has an action of its own -/
  | hook
  /-- a change takes effect at the next stroke boundary -/
  | atBoundary
  /-- writable in CONFIG only -/
  | configOnly
  /-- LO half of a writable pair (R11) -/
  | pairLo
  /-- HI half of a writable pair: the write commits both (R11) -/
  | pairHi
  /-- LO half of a read-only pair: a read latches HI (R11) -/
  | roLo
  /-- HI half of a read-only pair -/
  | roHi
  /-- half of a 64-bit counter -/
  | cnt64
  /-- array of 64-bit counters, LO at +0 and HI at +4 of each 8-byte slot -/
  | cntArr
  /-- copied at a snapshot (R54) -/
  | snap
  /-- a view of another page's counters -/
  | view
  /-- a read latches the rest of its group -/
  | group0
  /-- read from the latch of its group -/
  | groupN
  /-- part of the trigger start value, committed by its last word -/
  | tripleLo
  /-- the word that commits the trigger start value -/
  | tripleHi
  /-- the spec states no reset value -/
  | noReset
  /-- one register per queue, chosen by HALL.Q_SEL -/
  | bankQ
  /-- one register per port, chosen by HALL.P_SEL -/
  | bankP
  /-- one register per meter, chosen by POLICE.M_SEL -/
  | bankM
  /-- one register per secure association, chosen by INTEG.SA_SEL -/
  | bankSA
  /-- one register per secure channel, chosen by INTEG.RSC_SEL -/
  | bankRSC
  /-- one register per reduction group, chosen by ANVIL.G_SEL -/
  | bankG
  /-- a write is ignored while the ring is enabled (R347) -/
  | whileEn
deriving DecidableEq, Repr

/-- A field of a register row. -/
structure RegField where
  name : String
  lo : Nat
  w : Nat
  acc : Acc
  reset : Nat
deriving DecidableEq, Repr

/-- The registers of the spec, each named by its page and its own name. -/
inductive RegId where
  | TOP_DEVICE_ID | TOP_DEV_STATE | TOP_DEV_CTRL | TOP_GAL_FENCED | TOP_GAL_FENCE_DONE | TOP_GAL_FENCE_REQ | TOP_STROKE_LO | TOP_STROKE_HI | TOP_GEN_ACTIVE | TOP_GEN_STAGING | TOP_GEN_DRAIN | TOP_GEN_CTRL | TOP_GEN_STAT | TOP_GEN_FLIP_AT_LO | TOP_GEN_FLIP_AT_HI | TOP_GEN_DRAIN_STK | TOP_GEN_RESYNC_STK | TOP_GEN_NOTIFY_ADDR_LO | TOP_GEN_NOTIFY_ADDR_HI | TOP_SNAP_CTRL | TOP_SNAP_PERIOD | TOP_SNAP_STROKE_LO | TOP_SNAP_STROKE_HI | TOP_SNAP_GEN | TOP_BUDGET_SEL | TOP_BUDGET_LIMIT | TOP_BUDGET_USED | TOP_BUDGET_WAIT_LO | TOP_BUDGET_WAIT_HI | TOP_PROFILE | TOP_PROFILE_BUSY | TOP_PARSE_BANK | TOP_DROP_FENCED_LO | TOP_DROP_FENCED_HI | TOP_BOOT_LOCK | TOP_RESET_CTRL | TOP_RESET_CFG | TOP_BOOT_STAT | TOP_BOOT_DL_ADDR_LO | TOP_BOOT_DL_ADDR_HI | TOP_BOOT_DL_LEN | TOP_BOOT_DL_CMD | TOP_IRQ_PEND | TOP_BOOT_SVN | TOP_BOOT_SVN_MIN | TOP_BOOT_KEY_FUSE | TOP_GPIO_OUT | TOP_GPIO_OE | TOP_GPIO_IN | TOP_IPV4_HDR_IDS_LO | TOP_IPV4_HDR_IDS_HI | TOP_MIRROR
  | LANE_EVT_UP | LANE_EVT_DOWN | LANE_LN_CTRL | LANE_LN_STAT | LANE_LN_TXEQ | LANE_LN_RXEQ | LANE_LN_BRINGUP | LANE_LN_AN_ADV | LANE_LN_AN_LP | LANE_LN_PRBS | LANE_LN_INJ | LANE_LN_PRBS_ERR_LO | LANE_LN_PRBS_ERR_HI | LANE_LN_BITSLIP | LANE_LN_CNT
  | D2D_LK_CTRL | D2D_LK_STAT | D2D_LK_REPAIR_OUT | D2D_LK_REPAIR_IN | D2D_LK_REPLAY_LO | D2D_LK_REPLAY_HI | D2D_LK_ERRFLIT_LO | D2D_LK_ERRFLIT_HI | D2D_LK_SLIP
  | PORT_PT_CFG | PORT_PT_FRAME | PORT_PT_LPI | PORT_PT_STAT | PORT_PT_PFC | PORT_PT_PRI_Q | PORT_PT_DELAY | PORT_PT_DELAY_CFG | PORT_PT_HDRM | PORT_PT_MAC_LO | PORT_PT_MAC_HI | PORT_PT_CNT
  | PARSE_PS_PCLASS | PARSE_IC_CFG | PARSE_IC_HASH | PARSE_IC_AUX | PARSE_HP_CFG | PARSE_HP_SEED | PARSE_HP_SEL | PARSE_HP_KEY | PARSE_PS_CNT | PARSE_ST_HDR | PARSE_ST_LEN | PARSE_ST_KEY | PARSE_ST_DEFAULT | PARSE_ST_TR_MATCH | PARSE_ST_TR_NEXT | PARSE_ST_EX
  | MATCH_ACT_ADDR | MATCH_ACT_DATA | MATCH_ACT_CMD | MATCH_MATCH_CNT | MATCH_LU_CFG | MATCH_LU_AUX
  | STAIR_CTRL | STAIR_STAT | STAIR_STAIR_CNT
  | EGRESS_T_CFG | EGRESS_LU_CFG | EGRESS_LU_AUX | EGRESS_T_BYTES
  | TABLE_LEARN_CFG | TABLE_LEARN_PROF | TABLE_AGE_CFG | TABLE_LOCK_CFG | TABLE_LOCK_STAT | TABLE_LOCK_EXP_ROW | TABLE_EM_SEED0 | TABLE_EM_SEED1 | TABLE_EM_SEED2 | TABLE_EM_SEED3 | TABLE_EXT_SEED0 | TABLE_EXT_SEED1 | TABLE_EXT_CFG | TABLE_EM_STAT | TABLE_FFT_CFG | TABLE_FFT_USED | TABLE_FFT_EVICT_LO | TABLE_FFT_EVICT_HI | TABLE_TBL_CNT
  | HALL_Q_SEL | HALL_Q_CFG | HALL_Q_SPILL | HALL_Q_STAT0 | HALL_Q_STAT1 | HALL_Q_MARK | HALL_Q_AVG | HALL_P_SEL | HALL_P_CFG | HALL_C_CFG | HALL_C_STAT | HALL_C_HDRM | HALL_FREE_SHARED | HALL_SHARED_TOTAL | HALL_MIN_SUM | HALL_SPARES | HALL_ECN_CFG | HALL_REP_ADDR | HALL_REP_DATA | HALL_REP_CMD | HALL_WP_MIN | HALL_WP_MAX | HALL_WP_CFG | HALL_HALL_CNT
  | LHALL_POOL_SIZE0 | LHALL_POOL_SIZE1 | LHALL_POOL_SIZE2 | LHALL_POOL_SIZE3 | LHALL_OWN_RES0_0 | LHALL_OWN_RES0_1 | LHALL_OWN_RES0_2 | LHALL_OWN_RES0_3 | LHALL_OWN_RES1_0 | LHALL_OWN_RES1_1 | LHALL_OWN_RES1_2 | LHALL_OWN_RES1_3 | LHALL_OWN_RES2_0 | LHALL_OWN_RES2_1 | LHALL_OWN_RES2_2 | LHALL_OWN_RES2_3 | LHALL_OWN_RES3_0 | LHALL_OWN_RES3_1 | LHALL_OWN_RES3_2 | LHALL_OWN_RES3_3 | LHALL_OWN_RES4_0 | LHALL_OWN_RES4_1 | LHALL_OWN_RES4_2 | LHALL_OWN_RES4_3 | LHALL_OWN_RES5_0 | LHALL_OWN_RES5_1 | LHALL_OWN_RES5_2 | LHALL_OWN_RES5_3 | LHALL_OWN_MAX | LHALL_OWN_HELD | LHALL_LH_STAT
  | BILLET_POOL_STAT | BILLET_POOL_FREE | BILLET_ERR_PTR | BILLET_ERR_SRC | BILLET_BILLET_CNT
  | SCHED_Q_SCHED | SCHED_Q_RATE | SCHED_Q_BURST | SCHED_Q_TOKENS | SCHED_Q_STAT | SCHED_P_SCHED | SCHED_P_RATE | SCHED_P_BURST | SCHED_P_TOKENS | SCHED_P_STAT | SCHED_G_RATE | SCHED_G_BURST | SCHED_G_TOKENS | SCHED_G_STAT | SCHED_Q_CNT
  | GATE_GT_CTRL | GATE_GT_CYCLE | GATE_GT_BASE_NS | GATE_GT_BASE_SEC_LO | GATE_GT_BASE_SEC_HI | GATE_GT_STAT | GATE_GT_OVERRUN | GATE_GT_GATES | GATE_GT_INTERVAL
  | POLICE_M_SEL | POLICE_M_CFG | POLICE_M_CIR | POLICE_M_CBS | POLICE_M_PIR | POLICE_M_PBS | POLICE_M_TC | POLICE_M_TP | POLICE_M_CNT
  | GAL_DROP_CFG | GAL_DROP_STAT | GAL_FS_CLASS | GAL_DROP_CNT | GAL_DROP_AGG
  | KEYS_KEY_SEL | KEYS_KEY_DATA | KEYS_KEY_SALT | KEYS_KEY_CMD | KEYS_SLOT_STAT
  | INTEG_P_CFG | INTEG_TX_SCI_LO | INTEG_TX_SCI_HI | INTEG_SA_SEL | INTEG_SA_CFG | INTEG_SA_PN_LO | INTEG_SA_PN_HI | INTEG_SA_SSCI | INTEG_SA_WINDOW | INTEG_SA_STAT | INTEG_PN_THRESH_LO | INTEG_PN_THRESH_HI | INTEG_RSC_SEL | INTEG_RSC_SCI_LO | INTEG_RSC_SCI_HI | INTEG_RSC_CFG | INTEG_PTP_SPP | INTEG_PTP_KEYID | INTEG_INTEG_CNT
  | TIME_NOW_FRAC | TIME_NOW_NS | TIME_NOW_SEC_LO | TIME_NOW_SEC_HI | TIME_RATE_LO | TIME_RATE_HI | TIME_STEP_NS | TIME_STEP_SEC_LO | TIME_STEP_SEC_HI | TIME_STEP_CTRL | TIME_CLK_CFG | TIME_CLOCK_ID_LO | TIME_CLOCK_ID_HI | TIME_SERVO_CTRL | TIME_SRC_ID_LO | TIME_SRC_ID_HI | TIME_SRC_PNUM | TIME_SERVO_GAIN | TIME_SERVO_THRESH | TIME_SERVO_STAT | TIME_OFFSET_LO | TIME_OFFSET_HI | TIME_PATH_DELAY | TIME_HOLD_RATE_LO | TIME_HOLD_RATE_HI | TIME_PTP_CFG | TIME_SRV_CNT | TIME_PPS_OUT_CFG | TIME_PPS_OUT_OFS | TIME_PPS_IN_CAP_FRAC | TIME_PPS_IN_CAP_NS | TIME_PPS_IN_CAP_SEC_LO | TIME_PPS_IN_CAP_SEC_HI | TIME_TR_CTRL | TIME_TR_START_NS | TIME_TR_START_SEC_LO | TIME_TR_START_SEC_HI | TIME_TR_PERIOD | TIME_TR_WIDTH | TIME_TR_COUNT | TIME_EV_CTRL | TIME_EV_FRAC | TIME_EV_NS | TIME_EV_SEC_LO | TIME_EV_SEC_HI | TIME_SYNCE | TIME_LEDGER_CTRL | TIME_LEDGER_SEQ_LO | TIME_LEDGER_SEQ_HI | TIME_LEDGER_ID | TIME_LEDGER_EXP_ADDR_LO | TIME_LEDGER_EXP_ADDR_HI | TIME_COPY_FROM_LO | TIME_COPY_FROM_HI | TIME_COPY_COUNT | TIME_COPY_ADDR_LO | TIME_COPY_ADDR_HI | TIME_LEDGER_LOST | TIME_EXPORT_ERR | TIME_LEDGER_UNTAGGED
  | TSU_TPL_CFG | TSU_TS_CAL | TSU_TSU_CNT | TSU_TS_CFG | TSU_TS_BOARD | TSU_TS_ASYM | TSU_TS_LOOP_FWD | TSU_TS_LOOP_REV | TSU_TPL_BYTES
  | TELEM_FS_CFG | TELEM_FS_SEED | TELEM_FS_STAT | TELEM_LAT_BASE | TELEM_IOAM_CFG | TELEM_IOAM_NODE | TELEM_TEL_CNT | TELEM_C_CFG | TELEM_C_TPL | TELEM_C_FLUSH | TELEM_C_SEQ_LO | TELEM_C_SEQ_HI | TELEM_C_SENT_LO | TELEM_C_SENT_HI | TELEM_C_DROPPED_LO | TELEM_C_DROPPED_HI | TELEM_C_TPL_BYTES
  | ANVIL_A_CFG | ANVIL_G_SEL | ANVIL_G_CFG | ANVIL_G_MEMBERS | ANVIL_G_EPOCH | ANVIL_G_PARENT | ANVIL_G_TPL | ANVIL_G_TMR | ANVIL_G_RETAIN | ANVIL_G_LOW | ANVIL_G_STAT | ANVIL_A_STAT | ANVIL_T_CFG | ANVIL_ANV_CNT | ANVIL_T_BYTES
  | SEQ_RL_CMD | SEQ_RL_STAT | SEQ_RL_LOAD_ADDR_LO | SEQ_RL_LOAD_ADDR_HI | SEQ_RL_LOAD_LEN | SEQ_RL_SVN_MIN | SEQ_RL_SVN | SEQ_RL_DIGEST | SEQ_CKEY | SEQ_CKEY_VALID | SEQ_SQ_CTRL | SEQ_SQ_STAT | SEQ_SQ_FAULT | SEQ_SQ_MBOX_IN | SEQ_SQ_MBOX_OUT | SEQ_SQ_FLAGS | SEQ_SQ_SIG | SEQ_SQ_CNT
  | HOST_HALTED | HOST_VEC_LOST | HOST_TRAP_NO_RING_LO | HOST_TRAP_NO_RING_HI | HOST_RING_FN | HOST_FN_WIN_BASE_LO | HOST_FN_WIN_BASE_HI | HOST_FN_WIN_LIMIT_LO | HOST_FN_WIN_LIMIT_HI
  | RINGS_RW_CTRL | RINGS_RW_POLL | RINGS_RW_BASE_LO | RINGS_RW_BASE_HI | RINGS_RW_HEAD_ADDR_LO | RINGS_RW_HEAD_ADDR_HI | RINGS_RW_START | RINGS_RW_CONS | RINGS_RW_STAT | RINGS_RW_ERR_INDEX | RINGS_RW_ERR_ROW | RINGS_RW_DONE_LO | RINGS_RW_DONE_HI | RINGS_RW_NONFATAL_LO | RINGS_RW_NONFATAL_HI | RINGS_RW_RETRY_LO | RINGS_RW_RETRY_HI
  | GCNT_PC_GCTL | GCNT_PC_SEL | GCNT_PC_FILT | GCNT_PC_RANGE_LO | GCNT_PC_RANGE_HI | GCNT_PC_VAL_LO | GCNT_PC_VAL_HI | GCNT_PC_RELOAD_LO | GCNT_PC_RELOAD_HI | GCNT_PC_SNAP_LO | GCNT_PC_SNAP_HI | GCNT_PC_STAT | GCNT_SMP_STAT | GCNT_SMP | GCNT_VIEW
  | CNT_PC_GCTL | CNT_PC_SEL | CNT_PC_FILT | CNT_PC_RANGE_LO | CNT_PC_RANGE_HI | CNT_PC_VAL_LO | CNT_PC_VAL_HI | CNT_PC_RELOAD_LO | CNT_PC_RELOAD_HI | CNT_PC_SNAP_LO | CNT_PC_SNAP_HI | CNT_PC_STAT | CNT_STAT_SEL | CNT_VF_MAP | CNT_STATV_PT | CNT_STATV_Q
  | DAMPER_CAP | DAMPER_RELEASE | DAMPER_DMP_STAT | DAMPER_POWER | DAMPER_PEAK | DAMPER_ACT | DAMPER_THERM_CFG | DAMPER_TEMP | DAMPER_QUENCH_CFG | DAMPER_AVS_CFG | DAMPER_AVS_STAT | DAMPER_AVS_FUSE | DAMPER_DMP_TIME | DAMPER_DMP_EVENTS
  | RAS_LOG_STAT | RAS_LOG | RAS_RR_CFG | RAS_RR_STAT | RAS_RAS_STAT | RAS_RAS_CNT
deriving DecidableEq, Repr

/-- A register row: `dims` lists (count, stride) of its array dimensions, widest first; `rule` is the spec's rule. -/
structure RegRow where
  id : RegId
  page : Page
  off : Nat
  dims : List (Nat × Nat)
  rule : Nat
  attrs : List RegAttr
  fields : List RegField
deriving DecidableEq, Repr

/-- The registers of page TOP. -/
def rows_TOP : List RegRow := [
  ⟨.TOP_DEVICE_ID, .top, 0x100, [], 29, [],
    [⟨"DEVICE_ID", 0, 32, .ro, 0x4c580204⟩]⟩,
  ⟨.TOP_DEV_STATE, .top, 0x104, [], 29, [.live],
    [⟨"STATE", 0, 4, .ro, 1⟩, ⟨"FENCED_COUNT", 4, 6, .ro, 0⟩]⟩,
  ⟨.TOP_DEV_CTRL, .top, 0x108, [], 29, [.hook],
    [⟨"GO", 0, 1, .w1s, 0⟩]⟩,
  ⟨.TOP_GAL_FENCED, .top, 0x10c, [], 29, [.live],
    [⟨"FENCED", 0, 32, .ro, 0⟩]⟩,
  ⟨.TOP_GAL_FENCE_DONE, .top, 0x110, [], 29, [.live],
    [⟨"DONE", 0, 32, .ro, 0⟩]⟩,
  ⟨.TOP_GAL_FENCE_REQ, .top, 0x114, [], 29, [.live, .hook],
    [⟨"REQ", 0, 32, .w1s, 0⟩]⟩,
  ⟨.TOP_STROKE_LO, .top, 0x120, [], 36, [.live, .roLo],
    [⟨"STROKE_LO", 0, 32, .ro, 0⟩]⟩,
  ⟨.TOP_STROKE_HI, .top, 0x124, [], 36, [.live, .roHi],
    [⟨"STROKE_HI", 0, 32, .ro, 0⟩]⟩,
  ⟨.TOP_GEN_ACTIVE, .top, 0x130, [], 52, [.live],
    [⟨"ACTIVE", 0, 32, .ro, 0⟩]⟩,
  ⟨.TOP_GEN_STAGING, .top, 0x134, [], 52, [.live],
    [⟨"STAGING", 0, 32, .ro, 1⟩]⟩,
  ⟨.TOP_GEN_DRAIN, .top, 0x138, [], 52, [.live],
    [⟨"DRAIN", 0, 32, .ro, 0xffffffff⟩]⟩,
  ⟨.TOP_GEN_CTRL, .top, 0x13c, [], 52, [.live, .hook],
    [⟨"FLIP", 0, 1, .w1s, 0⟩, ⟨"AT_EN", 1, 1, .rw, 0⟩, ⟨"NOTIFY_EN", 2, 1, .rw, 0⟩, ⟨"NOTIFY_VEC", 3, 11, .rw, 0x7ff⟩]⟩,
  ⟨.TOP_GEN_STAT, .top, 0x140, [], 52, [.live],
    [⟨"STATE", 0, 2, .ro, 0⟩, ⟨"RESULT", 2, 4, .ro, 0⟩, ⟨"NOTIFY_ERR", 6, 1, .w1c, 0⟩]⟩,
  ⟨.TOP_GEN_FLIP_AT_LO, .top, 0x144, [], 52, [.pairLo],
    [⟨"FLIP_AT", 0, 32, .rw, 0⟩]⟩,
  ⟨.TOP_GEN_FLIP_AT_HI, .top, 0x148, [], 52, [.pairHi],
    [⟨"FLIP_AT", 0, 32, .rw, 0⟩]⟩,
  ⟨.TOP_GEN_DRAIN_STK, .top, 0x14c, [], 52, [.live],
    [⟨"COUNT", 0, 32, .ro, 0⟩]⟩,
  ⟨.TOP_GEN_RESYNC_STK, .top, 0x150, [], 52, [.live],
    [⟨"COUNT", 0, 32, .ro, 0⟩]⟩,
  ⟨.TOP_GEN_NOTIFY_ADDR_LO, .top, 0x154, [], 52, [.pairLo],
    [⟨"ADDR", 0, 32, .rw, 0⟩]⟩,
  ⟨.TOP_GEN_NOTIFY_ADDR_HI, .top, 0x158, [], 52, [.pairHi],
    [⟨"ADDR", 0, 32, .rw, 0⟩]⟩,
  ⟨.TOP_SNAP_CTRL, .top, 0x160, [], 55, [.live, .hook],
    [⟨"REQ", 0, 1, .w1s, 0⟩, ⟨"MERGED", 16, 8, .ro, 0⟩]⟩,
  ⟨.TOP_SNAP_PERIOD, .top, 0x164, [], 55, [.atBoundary, .hook],
    [⟨"PERIOD", 0, 32, .rw, 0⟩]⟩,
  ⟨.TOP_SNAP_STROKE_LO, .top, 0x168, [], 55, [.live, .roLo],
    [⟨"STROKE", 0, 32, .ro, 0⟩]⟩,
  ⟨.TOP_SNAP_STROKE_HI, .top, 0x16c, [], 55, [.live, .roHi],
    [⟨"STROKE", 0, 32, .ro, 0⟩]⟩,
  ⟨.TOP_SNAP_GEN, .top, 0x170, [], 55, [.live],
    [⟨"GEN", 0, 32, .ro, 0⟩]⟩,
  ⟨.TOP_BUDGET_SEL, .top, 0x180, [], 40, [],
    [⟨"ACTIVITY", 0, 8, .rw, 1⟩, ⟨"INST", 8, 8, .rw, 0⟩]⟩,
  ⟨.TOP_BUDGET_LIMIT, .top, 0x184, [], 40, [.live],
    [⟨"LIMIT", 0, 32, .ro, 0x400⟩]⟩,
  ⟨.TOP_BUDGET_USED, .top, 0x188, [], 40, [.live],
    [⟨"USED", 0, 32, .ro, 0⟩]⟩,
  ⟨.TOP_BUDGET_WAIT_LO, .top, 0x18c, [], 40, [.live, .roLo],
    [⟨"WAIT", 0, 32, .ro, 0⟩]⟩,
  ⟨.TOP_BUDGET_WAIT_HI, .top, 0x190, [], 40, [.live, .roHi],
    [⟨"WAIT", 0, 32, .ro, 0⟩]⟩,
  ⟨.TOP_PROFILE, .top, 0x1a0, [], 64, [.live, .hook],
    [⟨"ACTIVE", 0, 3, .ro, 0⟩, ⟨"STAGED", 4, 3, .rw, 0⟩]⟩] ++ [
  ⟨.TOP_PROFILE_BUSY, .top, 0x1a4, [], 64, [.live],
    [⟨"REGION", 0, 8, .ro, 0⟩, ⟨"REMAIN", 8, 24, .ro, 0⟩]⟩,
  ⟨.TOP_PARSE_BANK, .top, 0x1c0, [], 119, [.live, .hook],
    [⟨"ACTIVE", 0, 1, .ro, 0⟩, ⟨"SWITCH", 1, 1, .w1s, 0⟩, ⟨"OLD_HELD", 2, 1, .ro, 0⟩]⟩,
  ⟨.TOP_DROP_FENCED_LO, .top, 0x1d0, [], 235, [.roLo, .cnt64],
    [⟨"COUNT", 0, 32, .ro, 0⟩]⟩,
  ⟨.TOP_DROP_FENCED_HI, .top, 0x1d4, [], 235, [.roHi, .cnt64],
    [⟨"COUNT", 0, 32, .ro, 0⟩]⟩,
  ⟨.TOP_BOOT_LOCK, .top, 0x1e0, [], 359, [.live, .hook],
    [⟨"LOCKED", 0, 1, .w1s, 0⟩]⟩,
  ⟨.TOP_RESET_CTRL, .top, 0x1e4, [], 416, [.hook],
    [⟨"COLD", 0, 1, .w1s, 0⟩, ⟨"WARM", 1, 1, .w1s, 0⟩]⟩,
  ⟨.TOP_RESET_CFG, .top, 0x1e8, [], 416, [],
    [⟨"PERST_MODE", 0, 2, .rw, 2⟩]⟩,
  ⟨.TOP_BOOT_STAT, .top, 0x1ec, [], 416, [.live],
    [⟨"SRC", 0, 2, .ro, 0⟩, ⟨"FROM", 2, 2, .ro, 0⟩, ⟨"RESULT", 4, 4, .ro, 0⟩, ⟨"ROLE_MISSING", 8, 5, .ro, 0⟩, ⟨"WARM", 13, 1, .ro, 0⟩, ⟨"IMAGE_LOCKED", 14, 1, .ro, 0⟩]⟩,
  ⟨.TOP_BOOT_DL_ADDR_LO, .top, 0x1f0, [], 416, [.pairLo],
    [⟨"ADDR", 0, 32, .rw, 0⟩]⟩,
  ⟨.TOP_BOOT_DL_ADDR_HI, .top, 0x1f4, [], 416, [.pairHi],
    [⟨"ADDR", 0, 32, .rw, 0⟩]⟩,
  ⟨.TOP_BOOT_DL_LEN, .top, 0x1f8, [], 416, [],
    [⟨"LEN", 0, 25, .rw, 0⟩]⟩,
  ⟨.TOP_BOOT_DL_CMD, .top, 0x1fc, [], 416, [.live, .hook],
    [⟨"GO", 0, 1, .w1s, 0⟩, ⟨"BUSY", 1, 1, .ro, 0⟩]⟩,
  ⟨.TOP_IRQ_PEND, .top, 0x200, [(24, 0x4)], 356, [.live],
    [⟨"PEND", 0, 32, .ro, 0⟩]⟩,
  ⟨.TOP_BOOT_SVN, .top, 0x260, [], 416, [.live],
    [⟨"SVN", 0, 32, .ro, 0⟩]⟩,
  ⟨.TOP_BOOT_SVN_MIN, .top, 0x264, [], 416, [.live],
    [⟨"SVN", 0, 32, .ro, 0⟩]⟩,
  ⟨.TOP_BOOT_KEY_FUSE, .top, 0x268, [(12, 0x4)], 416, [.live],
    [⟨"HASH", 0, 32, .ro, 0⟩]⟩,
  ⟨.TOP_GPIO_OUT, .top, 0x2a0, [], 441, [],
    [⟨"OUT", 0, 16, .rw, 0⟩]⟩,
  ⟨.TOP_GPIO_OE, .top, 0x2a4, [], 441, [],
    [⟨"OE", 0, 16, .rw, 0⟩]⟩,
  ⟨.TOP_GPIO_IN, .top, 0x2a8, [], 441, [.live],
    [⟨"IN", 0, 16, .ro, 0⟩]⟩,
  ⟨.TOP_IPV4_HDR_IDS_LO, .top, 0x2b0, [], 446, [.pairLo, .atBoundary],
    [⟨"MAP", 0, 32, .rw, 0⟩]⟩,
  ⟨.TOP_IPV4_HDR_IDS_HI, .top, 0x2b4, [], 446, [.pairHi, .atBoundary],
    [⟨"MAP", 0, 32, .rw, 0⟩]⟩,
  ⟨.TOP_MIRROR, .top, 0x400, [(64, 0x4)], 141, [],
    [⟨"PORT", 0, 10, .rw, 0⟩, ⟨"QUEUE", 10, 4, .rw, 0⟩, ⟨"EN", 14, 1, .rw, 0⟩, ⟨"TRUNC", 16, 8, .rw, 0⟩]⟩]

/-- The registers of page LANE. -/
def rows_LANE : List RegRow := [
  ⟨.LANE_EVT_UP, .lane, 0x100, [(4, 0x4)], 75, [],
    [⟨"UP", 0, 32, .w1c, 0⟩]⟩,
  ⟨.LANE_EVT_DOWN, .lane, 0x110, [(4, 0x4)], 75, [],
    [⟨"DOWN", 0, 32, .w1c, 0⟩]⟩,
  ⟨.LANE_LN_CTRL, .lane, 0x1000, [(128, 0x80)], 74, [.hook],
    [⟨"EN", 0, 1, .rw, 0⟩, ⟨"RATE", 1, 2, .rw, 3⟩, ⟨"TX_POL_INV", 3, 1, .rw, 0⟩, ⟨"RX_POL_AUTO", 4, 1, .rw, 1⟩, ⟨"RX_POL_INV", 5, 1, .rw, 0⟩, ⟨"TEST", 6, 1, .rw, 0⟩]⟩,
  ⟨.LANE_LN_STAT, .lane, 0x1004, [(128, 0x80)], 74, [.live],
    [⟨"STATE", 0, 4, .ro, 0⟩, ⟨"SIG_DET", 4, 1, .ro, 0⟩, ⟨"CDR_LOCK", 5, 1, .ro, 0⟩, ⟨"BLOCK_LOCK", 6, 1, .ro, 0⟩, ⟨"RX_POL_DET", 7, 1, .ro, 0⟩, ⟨"REV_DET", 8, 1, .ro, 0⟩, ⟨"TX_LPI", 9, 1, .ro, 0⟩, ⟨"RX_LPI", 10, 1, .ro, 0⟩, ⟨"EQ_CLIP", 11, 1, .w1c, 0⟩, ⟨"RX_SNR", 12, 8, .ro, 0⟩, ⟨"DOWN_CAUSE", 20, 4, .ro, 0⟩, ⟨"RECENT", 24, 2, .ro, 0⟩]⟩,
  ⟨.LANE_LN_TXEQ, .lane, 0x1008, [(128, 0x80)], 77, [.live, .hook],
    [⟨"PRE3", 0, 4, .rw, 0⟩, ⟨"PRE2", 4, 5, .rw, 0⟩, ⟨"PRE1", 9, 6, .rw, 0x38⟩, ⟨"MAIN", 15, 6, .rw, 0x33⟩, ⟨"POST1", 21, 6, .rw, 0x3c⟩]⟩,
  ⟨.LANE_LN_RXEQ, .lane, 0x100c, [(128, 0x80)], 78, [.live, .hook],
    [⟨"ADAPT", 0, 2, .rw, 0⟩, ⟨"CTLE", 2, 5, .rw, 0x10⟩, ⟨"DFE_EN", 7, 1, .rw, 1⟩]⟩,
  ⟨.LANE_LN_BRINGUP, .lane, 0x1010, [(128, 0x80)], 79, [.hook],
    [⟨"MODE", 0, 1, .rw, 1⟩, ⟨"TRAIN_EN", 1, 1, .rw, 1⟩, ⟨"REV_AUTO", 2, 1, .rw, 1⟩, ⟨"DORMANT_REQ", 3, 1, .rw, 0⟩, ⟨"WAKE_SD", 4, 1, .rw, 1⟩, ⟨"TRAIN_TMO", 5, 8, .rw, 0x96⟩, ⟨"RETRAIN_UNC", 13, 8, .rw, 0x10⟩, ⟨"SNR_MIN", 21, 8, .rw, 0x38⟩]⟩,
  ⟨.LANE_LN_AN_ADV, .lane, 0x1014, [(128, 0x80)], 79, [],
    [⟨"RATES", 0, 4, .rw, 0xf⟩, ⟨"FEC", 4, 2, .rw, 3⟩]⟩,
  ⟨.LANE_LN_AN_LP, .lane, 0x1018, [(128, 0x80)], 79, [],
    [⟨"RATES", 0, 4, .ro, 0⟩, ⟨"FEC", 4, 2, .ro, 0⟩, ⟨"RESOLVED", 8, 4, .ro, 0⟩, ⟨"AN_DONE", 12, 1, .ro, 0⟩, ⟨"NO_COMMON", 13, 1, .ro, 0⟩]⟩,
  ⟨.LANE_LN_PRBS, .lane, 0x101c, [(128, 0x80)], 84, [.live, .hook],
    [⟨"TX_PAT", 0, 4, .rw, 0⟩, ⟨"RX_PAT", 4, 4, .rw, 0⟩, ⟨"TX_EN", 8, 1, .rw, 0⟩, ⟨"RX_EN", 9, 1, .rw, 0⟩, ⟨"RX_LOCK", 10, 1, .ro, 0⟩, ⟨"CLEAR", 11, 1, .w1s, 0⟩]⟩,
  ⟨.LANE_LN_INJ, .lane, 0x1020, [(128, 0x80)], 85, [.live, .hook],
    [⟨"KIND", 0, 2, .rw, 0⟩, ⟨"LEN", 2, 8, .rw, 2⟩, ⟨"GO", 10, 1, .w1s, 0⟩, ⟨"PERIODIC", 11, 1, .rw, 0⟩, ⟨"PERIOD", 12, 16, .rw, 0x3e8⟩]⟩,
  ⟨.LANE_LN_PRBS_ERR_LO, .lane, 0x1024, [(128, 0x80)], 85, [.roLo, .cnt64],
    [⟨"COUNT", 0, 32, .ro, 0⟩]⟩,
  ⟨.LANE_LN_PRBS_ERR_HI, .lane, 0x1028, [(128, 0x80)], 85, [.roHi, .cnt64],
    [⟨"COUNT", 0, 32, .ro, 0⟩]⟩,
  ⟨.LANE_LN_BITSLIP, .lane, 0x102c, [(128, 0x80)], 85, [.hook],
    [⟨"SLIP", 0, 1, .wo, 0⟩]⟩,
  ⟨.LANE_LN_CNT, .lane, 0x1030, [(128, 0x80)], 74, [.live],
    [⟨"RETRAIN", 0, 16, .ro, 0⟩, ⟨"TRAIN_FAIL", 16, 16, .ro, 0⟩]⟩]

/-- The registers of page D2D. -/
def rows_D2D : List RegRow := [
  ⟨.D2D_LK_CTRL, .d2d, 0x1000, [(16, 0x100)], 93, [.live, .hook],
    [⟨"SLEEP_EN", 0, 1, .rw, 1⟩, ⟨"RETRAIN", 1, 1, .w1s, 0⟩, ⟨"TEST", 2, 1, .rw, 0⟩]⟩,
  ⟨.D2D_LK_STAT, .d2d, 0x1004, [(16, 0x100)], 93, [.live],
    [⟨"STATE", 0, 3, .ro, 0⟩, ⟨"OUT_SLEEP", 3, 1, .ro, 0⟩, ⟨"IN_SLEEP", 4, 1, .ro, 0⟩, ⟨"OUT_SPARES_USED", 5, 3, .ro, 0⟩, ⟨"IN_SPARES_USED", 8, 3, .ro, 0⟩, ⟨"LANES_RETIRED", 11, 1, .ro, 0⟩]⟩,
  ⟨.D2D_LK_REPAIR_OUT, .d2d, 0x1008, [(16, 0x100)], 93, [.live],
    [⟨"LANE_0", 0, 6, .ro, 0⟩, ⟨"VALID_0", 7, 1, .ro, 0⟩, ⟨"LANE_1", 8, 6, .ro, 0⟩, ⟨"VALID_1", 15, 1, .ro, 0⟩, ⟨"LANE_2", 16, 6, .ro, 0⟩, ⟨"VALID_2", 23, 1, .ro, 0⟩, ⟨"LANE_3", 24, 6, .ro, 0⟩, ⟨"VALID_3", 31, 1, .ro, 0⟩]⟩,
  ⟨.D2D_LK_REPAIR_IN, .d2d, 0x100c, [(16, 0x100)], 93, [.live],
    [⟨"LANE_0", 0, 6, .ro, 0⟩, ⟨"VALID_0", 7, 1, .ro, 0⟩, ⟨"LANE_1", 8, 6, .ro, 0⟩, ⟨"VALID_1", 15, 1, .ro, 0⟩, ⟨"LANE_2", 16, 6, .ro, 0⟩, ⟨"VALID_2", 23, 1, .ro, 0⟩, ⟨"LANE_3", 24, 6, .ro, 0⟩, ⟨"VALID_3", 31, 1, .ro, 0⟩]⟩,
  ⟨.D2D_LK_REPLAY_LO, .d2d, 0x1010, [(16, 0x100)], 93, [.roLo, .cnt64],
    [⟨"COUNT", 0, 32, .ro, 0⟩]⟩,
  ⟨.D2D_LK_REPLAY_HI, .d2d, 0x1014, [(16, 0x100)], 93, [.roHi, .cnt64],
    [⟨"COUNT", 0, 32, .ro, 0⟩]⟩,
  ⟨.D2D_LK_ERRFLIT_LO, .d2d, 0x1018, [(16, 0x100)], 93, [.roLo, .cnt64],
    [⟨"COUNT", 0, 32, .ro, 0⟩]⟩,
  ⟨.D2D_LK_ERRFLIT_HI, .d2d, 0x101c, [(16, 0x100)], 93, [.roHi, .cnt64],
    [⟨"COUNT", 0, 32, .ro, 0⟩]⟩,
  ⟨.D2D_LK_SLIP, .d2d, 0x1020, [(16, 0x100)], 93, [.hook],
    [⟨"LANE", 0, 7, .rw, 0⟩, ⟨"DIR", 7, 1, .rw, 0⟩, ⟨"GO", 8, 1, .w1s, 0⟩]⟩]

/-- The registers of page PORT. -/
def rows_PORT : List RegRow := [
  ⟨.PORT_PT_CFG, .port, 0x1000, [(32, 0x400)], 97, [.hook],
    [⟨"EN", 0, 1, .rw, 0⟩, ⟨"WIDTH", 1, 2, .rw, 0⟩, ⟨"SPEED", 3, 3, .rw, 3⟩, ⟨"FEC", 6, 2, .rw, 2⟩, ⟨"FEC_LL", 8, 1, .rw, 0⟩, ⟨"SF", 9, 1, .rw, 0⟩, ⟨"LPI_EN", 10, 1, .rw, 0⟩, ⟨"FC_MODE", 11, 2, .rw, 0⟩]⟩,
  ⟨.PORT_PT_FRAME, .port, 0x1004, [(32, 0x400)], 97, [],
    [⟨"MAX_FRAME", 0, 14, .rw, 0x2400⟩]⟩,
  ⟨.PORT_PT_LPI, .port, 0x1008, [(32, 0x400)], 102, [],
    [⟨"LPI_IDLE", 0, 16, .rw, 0xa⟩]⟩,
  ⟨.PORT_PT_STAT, .port, 0x100c, [(32, 0x400)], 97, [.live],
    [⟨"UP", 0, 1, .ro, 0⟩, ⟨"DOWN_REASON", 1, 3, .ro, 1⟩, ⟨"FEC_IN_USE", 4, 2, .ro, 0⟩, ⟨"HDRM_SHORT", 6, 1, .ro, 0⟩, ⟨"RX_PAUSED", 7, 1, .ro, 0⟩, ⟨"PFC_STOPPED", 8, 8, .ro, 0⟩]⟩,
  ⟨.PORT_PT_PFC, .port, 0x1010, [(32, 0x400)], 103, [.hook],
    [⟨"LOSSLESS", 0, 8, .rw, 0⟩, ⟨"RX_EN", 8, 8, .rw, 0xff⟩]⟩,
  ⟨.PORT_PT_PRI_Q, .port, 0x1014, [(32, 0x400)], 103, [],
    [⟨"Q0", 0, 4, .rw, 0⟩, ⟨"Q1", 4, 4, .rw, 2⟩, ⟨"Q2", 8, 4, .rw, 4⟩, ⟨"Q3", 12, 4, .rw, 6⟩, ⟨"Q4", 16, 4, .rw, 8⟩, ⟨"Q5", 20, 4, .rw, 0xa⟩, ⟨"Q6", 24, 4, .rw, 0xc⟩, ⟨"Q7", 28, 4, .rw, 0xe⟩]⟩,
  ⟨.PORT_PT_DELAY, .port, 0x1018, [(32, 0x400)], 106, [.live],
    [⟨"DELAY", 0, 24, .ro, 0⟩, ⟨"SRC", 24, 2, .ro, 0⟩]⟩,
  ⟨.PORT_PT_DELAY_CFG, .port, 0x101c, [(32, 0x400)], 106, [],
    [⟨"DELAY_DEFAULT", 0, 16, .rw, 0x3e8⟩, ⟨"PEER_RESP", 16, 12, .rw, 0x258⟩, ⟨"EXCH_EN", 28, 1, .rw, 1⟩]⟩,
  ⟨.PORT_PT_HDRM, .port, 0x1020, [(32, 0x400), (4, 0x4)], 107, [],
    [⟨"COMPUTED", 0, 16, .ro, 0⟩, ⟨"OVERRIDE", 16, 16, .rw, 0⟩]⟩,
  ⟨.PORT_PT_MAC_LO, .port, 0x1030, [(32, 0x400)], 445, [.pairLo],
    [⟨"ADDR", 0, 32, .rw, 0⟩]⟩,
  ⟨.PORT_PT_MAC_HI, .port, 0x1034, [(32, 0x400)], 445, [.pairHi],
    [⟨"ADDR", 0, 16, .rw, 0⟩]⟩,
  ⟨.PORT_PT_CNT, .port, 0x1100, [(32, 0x400), (23, 0x8)], 109, [.cntArr, .snap],
    [⟨"COUNT", 0, 64, .ro, 0⟩]⟩]

/-- The registers of page PARSE. -/
def rows_PARSE : List RegRow := [
  ⟨.PARSE_PS_PCLASS, .parse, 0x110, [(4, 0x4)], 124, [.atBoundary],
    [⟨"CLASS_0", 0, 4, .rw, 0⟩, ⟨"CLASS_1", 4, 4, .rw, 0⟩, ⟨"CLASS_2", 8, 4, .rw, 0⟩, ⟨"CLASS_3", 12, 4, .rw, 0⟩, ⟨"CLASS_4", 16, 4, .rw, 0⟩, ⟨"CLASS_5", 20, 4, .rw, 0⟩, ⟨"CLASS_6", 24, 4, .rw, 0⟩, ⟨"CLASS_7", 28, 4, .rw, 0⟩]⟩,
  ⟨.PARSE_IC_CFG, .parse, 0x200, [(16, 0x10)], 124, [.atBoundary],
    [⟨"START", 0, 6, .rw, 0⟩, ⟨"TRUNC_ACT", 6, 2, .rw, 0⟩, ⟨"OVERRUN_ACT", 8, 2, .rw, 0⟩, ⟨"UNDERRUN_ACT", 10, 2, .rw, 0⟩, ⟨"FFT_EN", 12, 1, .rw, 0⟩, ⟨"FFT_STAGE", 13, 5, .rw, 4⟩]⟩,
  ⟨.PARSE_IC_HASH, .parse, 0x204, [(16, 0x10)], 124, [.atBoundary],
    [⟨"H0_PROF", 0, 3, .rw, 0⟩, ⟨"H1_PROF", 4, 3, .rw, 1⟩, ⟨"H1_EN", 7, 1, .rw, 1⟩]⟩,
  ⟨.PARSE_IC_AUX, .parse, 0x208, [(16, 0x10)], 124, [.atBoundary],
    [⟨"TRAP_RING", 0, 9, .rw, 0⟩, ⟨"L4_CONT", 9, 7, .rw, 0⟩]⟩,
  ⟨.PARSE_HP_CFG, .parse, 0x400, [(8, 0x80)], 126, [.atBoundary, .live],
    [⟨"FUNC", 0, 3, .rw, 0⟩, ⟨"SYM_PAIR", 4, 8, .rw, 0⟩, ⟨"NSEL", 12, 5, .rw, 0⟩, ⟨"OVERLEN", 17, 1, .ro, 0⟩, ⟨"SYM_BAD", 18, 1, .ro, 0⟩]⟩,
  ⟨.PARSE_HP_SEED, .parse, 0x404, [(8, 0x80)], 126, [.atBoundary],
    [⟨"SEED", 0, 32, .rw, 0xffffffff⟩]⟩,
  ⟨.PARSE_HP_SEL, .parse, 0x408, [(8, 0x80), (16, 0x4)], 126, [.atBoundary],
    [⟨"CONT", 0, 7, .rw, 0⟩, ⟨"NCONT", 7, 2, .rw, 0⟩, ⟨"BYTE_EN", 9, 16, .rw, 0xffff⟩]⟩,
  ⟨.PARSE_HP_KEY, .parse, 0x448, [(8, 0x80), (10, 0x4)], 126, [.atBoundary],
    [⟨"KEY", 0, 32, .rw, 0⟩]⟩,
  ⟨.PARSE_PS_CNT, .parse, 0x800, [(11, 0x8)], 124, [.cntArr, .snap],
    [⟨"COUNT", 0, 64, .ro, 0⟩]⟩,
  ⟨.PARSE_ST_HDR, .parse, 0x4000, [(2, 0x4000), (64, 0x100)], 118, [],
    [⟨"FIXED_LEN", 0, 8, .rw, 0⟩, ⟨"LEN_MODE", 8, 1, .rw, 0⟩, ⟨"LCHK", 9, 3, .rw, 0⟩, ⟨"FRAG", 12, 2, .rw, 0⟩, ⟨"HDR_ID", 14, 6, .rw, 0⟩, ⟨"VALID", 20, 1, .rw, 0⟩]⟩,
  ⟨.PARSE_ST_LEN, .parse, 0x4004, [(2, 0x4000), (64, 0x100)], 118, [],
    [⟨"OFFSET", 0, 6, .rw, 0⟩, ⟨"WIDTH", 6, 1, .rw, 0⟩, ⟨"SHIFT", 7, 4, .rw, 0⟩, ⟨"MBITS", 11, 4, .rw, 0⟩, ⟨"MULT", 15, 2, .rw, 0⟩, ⟨"ADD", 17, 8, .rw, 0⟩]⟩,
  ⟨.PARSE_ST_KEY, .parse, 0x4008, [(2, 0x4000), (64, 0x100)], 118, [],
    [⟨"OFFSET", 0, 7, .rw, 0⟩, ⟨"WIDTH", 7, 1, .rw, 0⟩]⟩,
  ⟨.PARSE_ST_DEFAULT, .parse, 0x400c, [(2, 0x4000), (64, 0x100)], 118, [],
    [⟨"NEXT", 0, 7, .rw, 0x41⟩]⟩,
  ⟨.PARSE_ST_TR_MATCH, .parse, 0x4010, [(2, 0x4000), (64, 0x100), (8, 0x8)], 118, [],
    [⟨"VALUE", 0, 16, .rw, 0⟩, ⟨"MASK", 16, 16, .rw, 0⟩]⟩,
  ⟨.PARSE_ST_TR_NEXT, .parse, 0x4014, [(2, 0x4000), (64, 0x100), (8, 0x8)], 118, [],
    [⟨"NEXT", 0, 7, .rw, 0x41⟩, ⟨"VALID", 7, 1, .rw, 0⟩]⟩,
  ⟨.PARSE_ST_EX, .parse, 0x4050, [(2, 0x4000), (64, 0x100), (12, 0x4)], 118, [],
    [⟨"CONT", 0, 7, .rw, 0⟩, ⟨"VALID", 7, 1, .rw, 0⟩, ⟨"OFFSET", 8, 7, .rw, 0⟩, ⟨"SIZE", 15, 2, .rw, 0⟩]⟩]

/-- The registers of page MATCH. -/
def rows_MATCH : List RegRow := [
  ⟨.MATCH_ACT_ADDR, .match, 0x100, [], 149, [],
    [⟨"INDEX", 0, 12, .rw, 0⟩, ⟨"STAGE", 12, 5, .rw, 0⟩, ⟨"SLOT", 17, 1, .rw, 0⟩, ⟨"BCAST", 31, 1, .rw, 0⟩]⟩,
  ⟨.MATCH_ACT_DATA, .match, 0x104, [(4, 0x4)], 149, [],
    [⟨"DATA", 0, 32, .rw, 0⟩]⟩,
  ⟨.MATCH_ACT_CMD, .match, 0x114, [], 149, [.hook],
    [⟨"WRITE", 0, 1, .w1s, 0⟩, ⟨"READ", 1, 1, .w1s, 0⟩, ⟨"BUSY", 2, 1, .ro, 0⟩]⟩,
  ⟨.MATCH_MATCH_CNT, .match, 0x800, [(6, 0x8)], 148, [.cntArr, .snap],
    [⟨"COUNT", 0, 64, .ro, 0⟩]⟩,
  ⟨.MATCH_LU_CFG, .match, 0x1000, [(2, 0x2000), (24, 0x100), (2, 0x10)], 148, [],
    [⟨"TABLE", 0, 3, .rw, 0⟩, ⟨"KEY_CONT", 3, 7, .rw, 0⟩, ⟨"KEY_NCONT", 10, 3, .rw, 0⟩, ⟨"PASS_MASK", 13, 5, .rw, 1⟩, ⟨"MISS_ACT", 18, 12, .rw, 0⟩, ⟨"MISS_EN", 30, 1, .rw, 0⟩]⟩,
  ⟨.MATCH_LU_AUX, .match, 0x1004, [(2, 0x2000), (24, 0x100), (2, 0x10)], 148, [],
    [⟨"KEY_TYPE", 0, 8, .rw, 0⟩]⟩]

/-- The registers of page STAIR. -/
def rows_STAIR : List RegRow := [
  ⟨.STAIR_CTRL, .stair, 0x100, [], 150, [.atBoundary],
    [⟨"PASS_LIMIT", 0, 3, .rw, 1⟩, ⟨"WAIT_MAX", 3, 8, .rw, 0x10⟩]⟩,
  ⟨.STAIR_STAT, .stair, 0x104, [], 150, [.live],
    [⟨"DEPTH", 0, 9, .ro, 0⟩, ⟨"PEAK", 9, 9, .ro, 0⟩]⟩,
  ⟨.STAIR_STAIR_CNT, .stair, 0x200, [(7, 0x8)], 150, [.cntArr, .snap],
    [⟨"COUNT", 0, 64, .ro, 0⟩]⟩]

/-- The registers of page EGRESS. -/
def rows_EGRESS : List RegRow := [
  ⟨.EGRESS_T_CFG, .egress, 0x100, [(256, 0x4)], 151, [.atBoundary],
    [⟨"LEN", 0, 8, .rw, 0⟩, ⟨"AFTER_HDR", 8, 5, .rw, 0⟩, ⟨"FIX_IP_EN", 13, 1, .rw, 0⟩, ⟨"FIX_UDP_EN", 14, 1, .rw, 0⟩, ⟨"FIX_IP_OFS", 15, 7, .rw, 0⟩, ⟨"FIX_UDP_OFS", 22, 7, .rw, 0⟩]⟩,
  ⟨.EGRESS_LU_CFG, .egress, 0x4000, [(2, 0x800), (8, 0x100), (2, 0x10)], 148, [],
    [⟨"TABLE", 0, 3, .rw, 0⟩, ⟨"KEY_CONT", 3, 7, .rw, 0⟩, ⟨"KEY_NCONT", 10, 3, .rw, 0⟩, ⟨"PASS_MASK", 13, 5, .rw, 1⟩, ⟨"MISS_ACT", 18, 12, .rw, 0⟩, ⟨"MISS_EN", 30, 1, .rw, 0⟩]⟩,
  ⟨.EGRESS_LU_AUX, .egress, 0x4004, [(2, 0x800), (8, 0x100), (2, 0x10)], 148, [],
    [⟨"KEY_TYPE", 0, 8, .rw, 0⟩]⟩,
  ⟨.EGRESS_T_BYTES, .egress, 0x8000, [(256, 0x80), (32, 0x4)], 151, [.atBoundary, .noReset],
    [⟨"DATA", 0, 32, .rw, 0⟩]⟩]

/-- The registers of page TABLE. -/
def rows_TABLE : List RegRow := [
  ⟨.TABLE_LEARN_CFG, .table, 0x100, [], 175, [],
    [⟨"EN", 0, 1, .rw, 1⟩, ⟨"NOTIFY_RING", 1, 9, .rw, 0⟩, ⟨"NOTIFY_EN", 10, 1, .rw, 0⟩]⟩,
  ⟨.TABLE_LEARN_PROF, .table, 0x110, [(4, 0x4)], 175, [],
    [⟨"ACT_IDX", 0, 12, .rw, 0⟩, ⟨"ADATA_SRC", 12, 1, .rw, 0⟩, ⟨"ADATA_CONT", 13, 7, .rw, 0⟩, ⟨"MOVE_EN", 20, 1, .rw, 1⟩, ⟨"STATIC_DROP", 21, 1, .rw, 0⟩]⟩,
  ⟨.TABLE_AGE_CFG, .table, 0x120, [], 175, [.atBoundary],
    [⟨"AGE_10MS", 0, 16, .rw, 0x2710⟩, ⟨"EN", 16, 1, .rw, 1⟩]⟩,
  ⟨.TABLE_LOCK_CFG, .table, 0x124, [], 175, [],
    [⟨"LOCK_TMO", 0, 16, .rw, 0x1e85⟩]⟩,
  ⟨.TABLE_LOCK_STAT, .table, 0x128, [], 175, [.live],
    [⟨"HELD", 0, 9, .ro, 0⟩]⟩,
  ⟨.TABLE_LOCK_EXP_ROW, .table, 0x12c, [], 175, [],
    [⟨"ROW", 0, 20, .ro, 0⟩]⟩,
  ⟨.TABLE_EM_SEED0, .table, 0x130, [], 175, [],
    [⟨"SEED", 0, 32, .rwl, 0x9e3779b9⟩]⟩,
  ⟨.TABLE_EM_SEED1, .table, 0x134, [], 175, [],
    [⟨"SEED", 0, 32, .rwl, 0x7f4a7c15⟩]⟩,
  ⟨.TABLE_EM_SEED2, .table, 0x138, [], 175, [],
    [⟨"SEED", 0, 32, .rwl, 0xf39cc060⟩]⟩,
  ⟨.TABLE_EM_SEED3, .table, 0x13c, [], 175, [],
    [⟨"SEED", 0, 32, .rwl, 0x5cedc834⟩]⟩,
  ⟨.TABLE_EXT_SEED0, .table, 0x140, [], 175, [],
    [⟨"SEED", 0, 32, .rwl, 0x2545f491⟩]⟩,
  ⟨.TABLE_EXT_SEED1, .table, 0x144, [], 175, [],
    [⟨"SEED", 0, 32, .rwl, 0x4f6cdd1d⟩]⟩,
  ⟨.TABLE_EXT_CFG, .table, 0x148, [], 175, [.configOnly],
    [⟨"LOG2_ROWS", 0, 5, .rw, 0⟩]⟩,
  ⟨.TABLE_EM_STAT, .table, 0x14c, [], 175, [.live],
    [⟨"REPLACE", 0, 1, .ro, 0⟩, ⟨"EXT_ALLOC_FAIL", 1, 1, .ro, 0⟩, ⟨"LEARN_Q", 2, 13, .ro, 0⟩]⟩,
  ⟨.TABLE_FFT_CFG, .table, 0x400, [], 130, [.live, .hook],
    [⟨"TTL_MS", 0, 16, .rw, 0xfa⟩, ⟨"REMOVE_ON_LAST", 16, 1, .rw, 0⟩, ⟨"FLUSH", 17, 1, .w1s, 0⟩]⟩,
  ⟨.TABLE_FFT_USED, .table, 0x404, [], 130, [.live],
    [⟨"USED", 0, 15, .ro, 0⟩]⟩,
  ⟨.TABLE_FFT_EVICT_LO, .table, 0x408, [], 130, [.roLo, .cnt64],
    [⟨"COUNT", 0, 32, .ro, 0⟩]⟩,
  ⟨.TABLE_FFT_EVICT_HI, .table, 0x40c, [], 130, [.roHi, .cnt64],
    [⟨"COUNT", 0, 32, .ro, 0⟩]⟩,
  ⟨.TABLE_TBL_CNT, .table, 0x800, [(25, 0x8)], 175, [.cntArr, .snap],
    [⟨"COUNT", 0, 64, .ro, 0⟩]⟩]

/-- The registers of page HALL. -/
def rows_HALL : List RegRow := [
  ⟨.HALL_Q_SEL, .hall, 0x100, [], 190, [],
    [⟨"QUEUE", 0, 14, .rw, 0⟩]⟩,
  ⟨.HALL_Q_CFG, .hall, 0x104, [], 190, [.atBoundary, .hook, .bankQ],
    [⟨"QMIN", 0, 8, .rw, 4⟩, ⟨"ALPHA", 8, 4, .rw, 7⟩, ⟨"SPILL_EN", 12, 1, .rw, 0⟩, ⟨"LAND_MAX", 14, 8, .rw, 0x40⟩]⟩,
  ⟨.HALL_Q_SPILL, .hall, 0x108, [], 190, [.atBoundary, .bankQ],
    [⟨"SPILL_MAX", 0, 17, .rw, 0x400⟩, ⟨"RETURN_LOW", 17, 12, .rw, 0x200⟩]⟩,
  ⟨.HALL_Q_STAT0, .hall, 0x10c, [], 190, [.live, .bankQ],
    [⟨"HELD", 0, 21, .ro, 0⟩]⟩,
  ⟨.HALL_Q_STAT1, .hall, 0x110, [], 190, [.live, .bankQ],
    [⟨"LH_PKTS", 0, 25, .ro, 0⟩, ⟨"SPILLING", 25, 1, .ro, 0⟩]⟩,
  ⟨.HALL_Q_MARK, .hall, 0x114, [], 232, [.atBoundary, .bankQ],
    [⟨"PROF_G", 0, 4, .rw, 0⟩, ⟨"PROF_Y", 4, 4, .rw, 0⟩, ⟨"PROF_R", 8, 4, .rw, 0⟩, ⟨"ECN_EN", 12, 1, .rw, 0⟩, ⟨"WRED_EN", 13, 1, .rw, 0⟩, ⟨"AVG_W", 14, 3, .rw, 0⟩]⟩,
  ⟨.HALL_Q_AVG, .hall, 0x118, [], 232, [.live, .bankQ],
    [⟨"AVG", 0, 21, .ro, 0⟩]⟩,
  ⟨.HALL_P_SEL, .hall, 0x120, [], 190, [],
    [⟨"PORT", 0, 10, .rw, 0⟩]⟩,
  ⟨.HALL_P_CFG, .hall, 0x124, [], 190, [.atBoundary, .hook, .bankP],
    [⟨"IMIN", 0, 12, .rw, 0x20⟩]⟩,
  ⟨.HALL_C_CFG, .hall, 0x130, [(4, 0x4)], 190, [.atBoundary, .hook, .bankP],
    [⟨"LMIN", 0, 12, .rw, 0⟩, ⟨"ALPHA", 12, 4, .rw, 7⟩, ⟨"XON_DELTA", 16, 12, .rw, 0x40⟩]⟩,
  ⟨.HALL_C_STAT, .hall, 0x140, [(4, 0x4)], 190, [.live, .bankP],
    [⟨"HELD", 0, 21, .ro, 0⟩, ⟨"XOFF", 21, 1, .ro, 0⟩]⟩,
  ⟨.HALL_C_HDRM, .hall, 0x150, [(4, 0x4)], 190, [.live, .bankP],
    [⟨"USED", 0, 16, .ro, 0⟩]⟩,
  ⟨.HALL_FREE_SHARED, .hall, 0x180, [], 190, [.live],
    [⟨"CELLS", 0, 21, .ro, 0x128000⟩]⟩,
  ⟨.HALL_SHARED_TOTAL, .hall, 0x184, [], 190, [.live],
    [⟨"CELLS", 0, 21, .ro, 0x128000⟩]⟩,
  ⟨.HALL_MIN_SUM, .hall, 0x188, [], 190, [.live],
    [⟨"CELLS", 0, 21, .ro, 0x18000⟩]⟩,
  ⟨.HALL_SPARES, .hall, 0x18c, [], 190, [.live],
    [⟨"USED", 0, 6, .ro, 0⟩, ⟨"LAST_BANK", 6, 11, .ro, 0x7ff⟩, ⟨"COPYING", 17, 1, .ro, 0⟩]⟩,
  ⟨.HALL_ECN_CFG, .hall, 0x190, [], 232, [.atBoundary],
    [⟨"V4_ID", 0, 6, .rw, 0⟩, ⟨"V6_ID", 6, 6, .rw, 0⟩]⟩,
  ⟨.HALL_REP_ADDR, .hall, 0x200, [], 190, [],
    [⟨"LIST", 0, 12, .rw, 0⟩, ⟨"WORD", 12, 6, .rw, 0⟩]⟩,
  ⟨.HALL_REP_DATA, .hall, 0x204, [], 190, [],
    [⟨"DATA", 0, 32, .rw, 0⟩]⟩,
  ⟨.HALL_REP_CMD, .hall, 0x208, [], 190, [.hook],
    [⟨"WRITE", 0, 1, .w1s, 0⟩, ⟨"READ", 1, 1, .w1s, 0⟩, ⟨"BUSY", 2, 1, .ro, 0⟩]⟩,
  ⟨.HALL_WP_MIN, .hall, 0x300, [(16, 0x10)], 232, [.atBoundary],
    [⟨"CELLS", 0, 21, .rw, 0⟩]⟩,
  ⟨.HALL_WP_MAX, .hall, 0x304, [(16, 0x10)], 232, [.atBoundary],
    [⟨"CELLS", 0, 21, .rw, 0⟩]⟩,
  ⟨.HALL_WP_CFG, .hall, 0x308, [(16, 0x10)], 232, [.atBoundary],
    [⟨"PMAX", 0, 8, .rw, 0⟩, ⟨"EN", 8, 1, .rw, 0⟩]⟩,
  ⟨.HALL_HALL_CNT, .hall, 0x800, [(13, 0x8)], 190, [.cntArr, .snap],
    [⟨"COUNT", 0, 64, .ro, 0⟩]⟩]

/-- The registers of page LHALL. -/
def rows_LHALL : List RegRow := [
  ⟨.LHALL_POOL_SIZE0, .lhall, 0x100, [], 202, [.configOnly],
    [⟨"UNITS", 0, 9, .rw, 0x20⟩]⟩,
  ⟨.LHALL_POOL_SIZE1, .lhall, 0x104, [], 202, [.configOnly],
    [⟨"UNITS", 0, 9, .rw, 0x20⟩]⟩,
  ⟨.LHALL_POOL_SIZE2, .lhall, 0x108, [], 202, [.configOnly],
    [⟨"UNITS", 0, 9, .rw, 0x40⟩]⟩,
  ⟨.LHALL_POOL_SIZE3, .lhall, 0x10c, [], 202, [.configOnly],
    [⟨"UNITS", 0, 9, .rw, 0xff⟩]⟩,
  ⟨.LHALL_OWN_RES0_0, .lhall, 0x200, [], 202, [.configOnly],
    [⟨"MIB", 0, 16, .rw, 0⟩]⟩,
  ⟨.LHALL_OWN_RES0_1, .lhall, 0x204, [], 202, [.configOnly],
    [⟨"MIB", 0, 16, .rw, 0x400⟩]⟩,
  ⟨.LHALL_OWN_RES0_2, .lhall, 0x208, [], 202, [.configOnly],
    [⟨"MIB", 0, 16, .rw, 0x800⟩]⟩,
  ⟨.LHALL_OWN_RES0_3, .lhall, 0x20c, [], 202, [.configOnly],
    [⟨"MIB", 0, 16, .rw, 0x1000⟩]⟩,
  ⟨.LHALL_OWN_RES1_0, .lhall, 0x210, [], 202, [.configOnly],
    [⟨"MIB", 0, 16, .rw, 0x100⟩]⟩,
  ⟨.LHALL_OWN_RES1_1, .lhall, 0x214, [], 202, [.configOnly],
    [⟨"MIB", 0, 16, .rw, 0⟩]⟩,
  ⟨.LHALL_OWN_RES1_2, .lhall, 0x218, [], 202, [.configOnly],
    [⟨"MIB", 0, 16, .rw, 0⟩]⟩,
  ⟨.LHALL_OWN_RES1_3, .lhall, 0x21c, [], 202, [.configOnly],
    [⟨"MIB", 0, 16, .rw, 0⟩]⟩,
  ⟨.LHALL_OWN_RES2_0, .lhall, 0x220, [], 202, [.configOnly],
    [⟨"MIB", 0, 16, .rw, 0⟩]⟩,
  ⟨.LHALL_OWN_RES2_1, .lhall, 0x224, [], 202, [.configOnly],
    [⟨"MIB", 0, 16, .rw, 0⟩]⟩,
  ⟨.LHALL_OWN_RES2_2, .lhall, 0x228, [], 202, [.configOnly],
    [⟨"MIB", 0, 16, .rw, 0⟩]⟩,
  ⟨.LHALL_OWN_RES2_3, .lhall, 0x22c, [], 202, [.configOnly],
    [⟨"MIB", 0, 16, .rw, 0x400⟩]⟩,
  ⟨.LHALL_OWN_RES3_0, .lhall, 0x230, [], 202, [.configOnly],
    [⟨"MIB", 0, 16, .rw, 0⟩]⟩,
  ⟨.LHALL_OWN_RES3_1, .lhall, 0x234, [], 202, [.configOnly],
    [⟨"MIB", 0, 16, .rw, 0⟩]⟩,
  ⟨.LHALL_OWN_RES3_2, .lhall, 0x238, [], 202, [.configOnly],
    [⟨"MIB", 0, 16, .rw, 0x400⟩]⟩,
  ⟨.LHALL_OWN_RES3_3, .lhall, 0x23c, [], 202, [.configOnly],
    [⟨"MIB", 0, 16, .rw, 0x400⟩]⟩,
  ⟨.LHALL_OWN_RES4_0, .lhall, 0x240, [], 202, [.configOnly],
    [⟨"MIB", 0, 16, .rw, 0⟩]⟩,
  ⟨.LHALL_OWN_RES4_1, .lhall, 0x244, [], 202, [.configOnly],
    [⟨"MIB", 0, 16, .rw, 0⟩]⟩,
  ⟨.LHALL_OWN_RES4_2, .lhall, 0x248, [], 202, [.configOnly],
    [⟨"MIB", 0, 16, .rw, 0⟩]⟩,
  ⟨.LHALL_OWN_RES4_3, .lhall, 0x24c, [], 202, [.configOnly],
    [⟨"MIB", 0, 16, .rw, 0x80⟩]⟩,
  ⟨.LHALL_OWN_RES5_0, .lhall, 0x250, [], 202, [.configOnly],
    [⟨"MIB", 0, 16, .rw, 0⟩]⟩,
  ⟨.LHALL_OWN_RES5_1, .lhall, 0x254, [], 202, [.configOnly],
    [⟨"MIB", 0, 16, .rw, 0x200⟩]⟩,
  ⟨.LHALL_OWN_RES5_2, .lhall, 0x258, [], 202, [.configOnly],
    [⟨"MIB", 0, 16, .rw, 0x200⟩]⟩,
  ⟨.LHALL_OWN_RES5_3, .lhall, 0x25c, [], 202, [.configOnly],
    [⟨"MIB", 0, 16, .rw, 0⟩]⟩,
  ⟨.LHALL_OWN_MAX, .lhall, 0x300, [(6, 0x4)], 202, [.configOnly],
    [⟨"MIB", 0, 17, .rw, 0x1ffff⟩]⟩,
  ⟨.LHALL_OWN_HELD, .lhall, 0x400, [(6, 0x10), (4, 0x4)], 202, [.live],
    [⟨"BILLETS", 0, 26, .ro, 0⟩]⟩] ++ [
  ⟨.LHALL_LH_STAT, .lhall, 0x500, [], 202, [.live],
    [⟨"POOL_CFG_BAD", 0, 1, .ro, 0⟩]⟩]

/-- The registers of page BILLET. -/
def rows_BILLET : List RegRow := [
  ⟨.BILLET_POOL_STAT, .billet, 0x100, [(4, 0x4)], 203, [.live],
    [⟨"CACHE", 0, 10, .ro, 0⟩, ⟨"EMPTY", 10, 1, .ro, 1⟩]⟩,
  ⟨.BILLET_POOL_FREE, .billet, 0x110, [(4, 0x4)], 203, [.live],
    [⟨"FREE", 0, 26, .ro, 0⟩]⟩,
  ⟨.BILLET_ERR_PTR, .billet, 0x120, [], 203, [],
    [⟨"PTR", 0, 32, .ro, 0⟩]⟩,
  ⟨.BILLET_ERR_SRC, .billet, 0x124, [], 203, [],
    [⟨"REQ", 0, 7, .ro, 0⟩, ⟨"KIND", 7, 2, .ro, 0⟩]⟩,
  ⟨.BILLET_BILLET_CNT, .billet, 0x800, [(10, 0x8)], 203, [.cntArr, .snap],
    [⟨"COUNT", 0, 64, .ro, 0⟩]⟩]

/-- The registers of page SCHED. -/
def rows_SCHED : List RegRow := [
  ⟨.SCHED_Q_SCHED, .sched, 0x1000, [(512, 0x20)], 215, [.atBoundary],
    [⟨"WEIGHT", 0, 8, .rw, 1⟩, ⟨"GROUP", 8, 7, .rw, 0⟩, ⟨"GROUP_EN", 15, 1, .rw, 0⟩, ⟨"AGE_LIMIT", 16, 16, .rw, 0⟩]⟩,
  ⟨.SCHED_Q_RATE, .sched, 0x1004, [(512, 0x20)], 215, [.atBoundary],
    [⟨"RATE", 0, 17, .rw, 0⟩, ⟨"EN", 17, 1, .rw, 0⟩, ⟨"TOC", 18, 1, .rw, 0⟩]⟩,
  ⟨.SCHED_Q_BURST, .sched, 0x1008, [(512, 0x20)], 215, [.atBoundary],
    [⟨"BURST", 0, 13, .rw, 0xa10⟩]⟩,
  ⟨.SCHED_Q_TOKENS, .sched, 0x100c, [(512, 0x20)], 215, [.live],
    [⟨"TOKENS", 0, 32, .ro, 0⟩]⟩,
  ⟨.SCHED_Q_STAT, .sched, 0x1010, [(512, 0x20)], 215, [.live],
    [⟨"IN_DEBT", 0, 1, .ro, 0⟩, ⟨"BURST_LOW", 1, 1, .w1c, 0⟩, ⟨"GATE_WAIT", 2, 1, .ro, 0⟩, ⟨"PFC_STOP", 3, 1, .ro, 0⟩]⟩,
  ⟨.SCHED_P_SCHED, .sched, 0x5000, [(32, 0x20)], 215, [.atBoundary],
    [⟨"PORT_OVERHEAD", 0, 7, .rw, 0x14⟩]⟩,
  ⟨.SCHED_P_RATE, .sched, 0x5004, [(32, 0x20)], 215, [.atBoundary],
    [⟨"RATE", 0, 17, .rw, 0⟩, ⟨"EN", 17, 1, .rw, 0⟩, ⟨"TOC", 18, 1, .rw, 0⟩]⟩,
  ⟨.SCHED_P_BURST, .sched, 0x5008, [(32, 0x20)], 215, [.atBoundary],
    [⟨"BURST", 0, 13, .rw, 0xa10⟩]⟩,
  ⟨.SCHED_P_TOKENS, .sched, 0x500c, [(32, 0x20)], 215, [.live],
    [⟨"TOKENS", 0, 32, .ro, 0⟩]⟩,
  ⟨.SCHED_P_STAT, .sched, 0x5010, [(32, 0x20)], 215, [.live],
    [⟨"IN_DEBT", 0, 1, .ro, 0⟩, ⟨"BURST_LOW", 1, 1, .w1c, 0⟩]⟩,
  ⟨.SCHED_G_RATE, .sched, 0x5404, [(128, 0x20)], 215, [.atBoundary],
    [⟨"RATE", 0, 17, .rw, 0⟩, ⟨"EN", 17, 1, .rw, 0⟩, ⟨"TOC", 18, 1, .rw, 0⟩]⟩,
  ⟨.SCHED_G_BURST, .sched, 0x5408, [(128, 0x20)], 215, [.atBoundary],
    [⟨"BURST", 0, 13, .rw, 0xa10⟩]⟩,
  ⟨.SCHED_G_TOKENS, .sched, 0x540c, [(128, 0x20)], 215, [.live],
    [⟨"TOKENS", 0, 32, .ro, 0⟩]⟩,
  ⟨.SCHED_G_STAT, .sched, 0x5410, [(128, 0x20)], 215, [.live],
    [⟨"IN_DEBT", 0, 1, .ro, 0⟩, ⟨"BURST_LOW", 1, 1, .w1c, 0⟩]⟩,
  ⟨.SCHED_Q_CNT, .sched, 0x8000, [(512, 0x40), (8, 0x8)], 216, [.cntArr, .snap],
    [⟨"COUNT", 0, 64, .ro, 0⟩]⟩]

/-- The registers of page GATE. -/
def rows_GATE : List RegRow := [
  ⟨.GATE_GT_CTRL, .gate, 0x100, [(32, 0x20)], 221, [.hook],
    [⟨"EN", 0, 1, .rw, 0⟩, ⟨"COMMIT", 1, 1, .w1s, 0⟩, ⟨"LEN", 2, 7, .rw, 1⟩]⟩,
  ⟨.GATE_GT_CYCLE, .gate, 0x104, [(32, 0x20)], 221, [],
    [⟨"CYCLE", 0, 30, .rw, 0xf4240⟩]⟩,
  ⟨.GATE_GT_BASE_NS, .gate, 0x108, [(32, 0x20)], 221, [],
    [⟨"NS", 0, 30, .rw, 0⟩]⟩,
  ⟨.GATE_GT_BASE_SEC_LO, .gate, 0x10c, [(32, 0x20)], 221, [.pairLo],
    [⟨"SEC", 0, 32, .rw, 0⟩]⟩,
  ⟨.GATE_GT_BASE_SEC_HI, .gate, 0x110, [(32, 0x20)], 221, [.pairHi],
    [⟨"SEC", 0, 16, .rw, 0⟩]⟩,
  ⟨.GATE_GT_STAT, .gate, 0x114, [(32, 0x20)], 221, [.live],
    [⟨"ACTIVE_BANK", 0, 1, .ro, 0⟩, ⟨"PENDING", 1, 1, .ro, 0⟩, ⟨"LEN_ACTIVE", 2, 7, .ro, 0⟩, ⟨"COMMIT_BAD", 9, 1, .w1c, 0⟩, ⟨"NEVER_OPEN", 16, 16, .ro, 0⟩]⟩,
  ⟨.GATE_GT_OVERRUN, .gate, 0x118, [(32, 0x20)], 221, [.live],
    [⟨"COUNT", 0, 32, .ro, 0⟩]⟩,
  ⟨.GATE_GT_GATES, .gate, 0x8000, [(32, 0x400), (2, 0x200), (64, 0x8)], 221, [],
    [⟨"GATES", 0, 16, .rw, 0xffff⟩]⟩,
  ⟨.GATE_GT_INTERVAL, .gate, 0x8004, [(32, 0x400), (2, 0x200), (64, 0x8)], 221, [],
    [⟨"INTERVAL", 0, 30, .rw, 0⟩]⟩]

/-- The registers of page POLICE. -/
def rows_POLICE : List RegRow := [
  ⟨.POLICE_M_SEL, .police, 0x100, [], 224, [],
    [⟨"METER", 0, 13, .rw, 0⟩]⟩,
  ⟨.POLICE_M_CFG, .police, 0x104, [], 224, [.atBoundary, .bankM],
    [⟨"EN", 0, 1, .rw, 0⟩, ⟨"MODE", 1, 1, .rw, 0⟩, ⟨"AWARE", 2, 1, .rw, 0⟩, ⟨"RED_DROP", 3, 1, .rw, 0⟩, ⟨"TOC", 4, 1, .rw, 0⟩, ⟨"LEN_ADJ", 5, 7, .rw, 0⟩, ⟨"COL_CONT", 12, 7, .rw, 0⟩, ⟨"COL_CONT_EN", 19, 1, .rw, 0⟩]⟩,
  ⟨.POLICE_M_CIR, .police, 0x108, [], 224, [.atBoundary, .bankM],
    [⟨"RATE", 0, 17, .rw, 0⟩]⟩,
  ⟨.POLICE_M_CBS, .police, 0x10c, [], 224, [.atBoundary, .bankM],
    [⟨"BURST", 0, 13, .rw, 0xa10⟩]⟩,
  ⟨.POLICE_M_PIR, .police, 0x110, [], 224, [.atBoundary, .bankM],
    [⟨"RATE", 0, 17, .rw, 0⟩]⟩,
  ⟨.POLICE_M_PBS, .police, 0x114, [], 224, [.atBoundary, .bankM],
    [⟨"BURST", 0, 13, .rw, 0xa10⟩]⟩,
  ⟨.POLICE_M_TC, .police, 0x118, [], 224, [.live, .bankM],
    [⟨"BYTES", 0, 32, .ro, 0⟩]⟩,
  ⟨.POLICE_M_TP, .police, 0x11c, [], 224, [.live, .bankM],
    [⟨"BYTES", 0, 32, .ro, 0⟩]⟩,
  ⟨.POLICE_M_CNT, .police, 0x200, [(7, 0x8)], 224, [.cntArr, .snap, .bankM],
    [⟨"COUNT", 0, 64, .ro, 0⟩]⟩]

/-- The registers of page GAL. -/
def rows_GAL : List RegRow := [
  ⟨.GAL_DROP_CFG, .gal, 0x100, [], 236, [.atBoundary],
    [⟨"REC_MAX", 0, 11, .rw, 0x20⟩, ⟨"AGG_REC_EN", 11, 1, .rw, 1⟩]⟩,
  ⟨.GAL_DROP_STAT, .gal, 0x104, [], 236, [],
    [⟨"AGGREGATED", 0, 1, .w1c, 0⟩, ⟨"LAST_CODE", 1, 8, .ro, 0⟩]⟩,
  ⟨.GAL_FS_CLASS, .gal, 0x200, [(16, 0x4)], 278, [],
    [⟨"EN", 0, 1, .rw, 1⟩, ⟨"KEY_CONT", 1, 7, .rw, 0⟩, ⟨"KEY_NCONT", 8, 2, .rw, 3⟩]⟩,
  ⟨.GAL_DROP_CNT, .gal, 0x800, [(256, 0x8)], 236, [.cntArr, .snap],
    [⟨"COUNT", 0, 64, .ro, 0⟩]⟩,
  ⟨.GAL_DROP_AGG, .gal, 0x1000, [(256, 0x8)], 236, [.cntArr, .snap],
    [⟨"COUNT", 0, 64, .ro, 0⟩]⟩]

/-- The registers of page KEYS. -/
def rows_KEYS : List RegRow := [
  ⟨.KEYS_KEY_SEL, .keys, 0x100, [], 250, [],
    [⟨"SLOT", 0, 13, .rw, 0⟩, ⟨"GALLERY", 13, 5, .rw, 0⟩, ⟨"BCAST", 18, 1, .rw, 0⟩, ⟨"DEVICE", 19, 1, .rw, 0⟩]⟩,
  ⟨.KEYS_KEY_DATA, .keys, 0x110, [(8, 0x4)], 250, [],
    [⟨"DATA", 0, 32, .wo, 0⟩]⟩,
  ⟨.KEYS_KEY_SALT, .keys, 0x130, [(3, 0x4)], 250, [],
    [⟨"DATA", 0, 32, .wo, 0⟩]⟩,
  ⟨.KEYS_KEY_CMD, .keys, 0x140, [], 250, [.live, .hook],
    [⟨"COMMIT", 0, 1, .w1s, 0⟩, ⟨"ERASE", 1, 1, .w1s, 0⟩, ⟨"CIPHER", 2, 1, .rw, 0⟩, ⟨"BUSY", 3, 1, .ro, 0⟩]⟩,
  ⟨.KEYS_SLOT_STAT, .keys, 0x144, [], 250, [.live],
    [⟨"VALID", 0, 1, .ro, 0⟩, ⟨"CIPHER", 1, 1, .ro, 0⟩, ⟨"COMMITS", 2, 16, .ro, 0⟩]⟩]

/-- The registers of page INTEG. -/
def rows_INTEG : List RegRow := [
  ⟨.INTEG_P_CFG, .integ, 0x100, [(32, 0x4)], 251, [],
    [⟨"TX_EN", 0, 1, .rw, 0⟩, ⟨"RX_MODE", 1, 2, .rw, 0⟩, ⟨"RX_CT", 3, 1, .rw, 1⟩, ⟨"TX_AN", 4, 2, .rw, 0⟩, ⟨"TX_SA_BASE", 6, 11, .rw, 0⟩, ⟨"TX_SC", 17, 1, .rw, 1⟩, ⟨"TX_ES", 18, 1, .rw, 0⟩, ⟨"PTP_AUTH", 19, 1, .rw, 0⟩]⟩,
  ⟨.INTEG_TX_SCI_LO, .integ, 0x200, [(32, 0x8)], 251, [.pairLo],
    [⟨"SCI", 0, 32, .rw, 0⟩]⟩,
  ⟨.INTEG_TX_SCI_HI, .integ, 0x204, [(32, 0x8)], 251, [.pairHi],
    [⟨"SCI", 0, 32, .rw, 0⟩]⟩,
  ⟨.INTEG_SA_SEL, .integ, 0x400, [], 251, [],
    [⟨"SA", 0, 13, .rw, 0⟩]⟩,
  ⟨.INTEG_SA_CFG, .integ, 0x404, [], 251, [.bankSA],
    [⟨"VALID", 0, 1, .rw, 0⟩, ⟨"DIR", 1, 1, .rw, 0⟩, ⟨"XPN", 2, 1, .rw, 0⟩, ⟨"REPLAY_EN", 3, 1, .rw, 1⟩, ⟨"KEY_SLOT", 4, 13, .rw, 0⟩]⟩,
  ⟨.INTEG_SA_PN_LO, .integ, 0x408, [], 251, [.live, .pairLo, .bankSA],
    [⟨"PN", 0, 32, .rw, 1⟩]⟩,
  ⟨.INTEG_SA_PN_HI, .integ, 0x40c, [], 251, [.live, .pairHi, .bankSA, .hook],
    [⟨"PN", 0, 32, .rw, 0⟩]⟩,
  ⟨.INTEG_SA_SSCI, .integ, 0x410, [], 251, [.bankSA],
    [⟨"SSCI", 0, 32, .rw, 0⟩]⟩,
  ⟨.INTEG_SA_WINDOW, .integ, 0x414, [], 251, [.bankSA],
    [⟨"WINDOW", 0, 30, .rw, 0⟩]⟩,
  ⟨.INTEG_SA_STAT, .integ, 0x418, [], 251, [.live, .bankSA],
    [⟨"THRESH", 0, 1, .w1c, 0⟩, ⟨"EXHAUSTED", 1, 1, .ro, 0⟩]⟩,
  ⟨.INTEG_PN_THRESH_LO, .integ, 0x420, [], 251, [.pairLo],
    [⟨"T", 0, 32, .rw, 0xc0000000⟩]⟩,
  ⟨.INTEG_PN_THRESH_HI, .integ, 0x424, [], 251, [.pairHi],
    [⟨"T", 0, 32, .rw, 0xc0000000⟩]⟩,
  ⟨.INTEG_RSC_SEL, .integ, 0x500, [], 251, [],
    [⟨"SC", 0, 10, .rw, 0⟩]⟩,
  ⟨.INTEG_RSC_SCI_LO, .integ, 0x504, [], 251, [.pairLo, .bankRSC],
    [⟨"SCI", 0, 32, .rw, 0⟩]⟩,
  ⟨.INTEG_RSC_SCI_HI, .integ, 0x508, [], 251, [.pairHi, .bankRSC],
    [⟨"SCI", 0, 32, .rw, 0⟩]⟩,
  ⟨.INTEG_RSC_CFG, .integ, 0x50c, [], 251, [.bankRSC],
    [⟨"VALID", 0, 1, .rw, 0⟩, ⟨"PORT", 1, 5, .rw, 0⟩, ⟨"SA_BASE", 6, 11, .rw, 0⟩]⟩,
  ⟨.INTEG_PTP_SPP, .integ, 0x600, [(16, 0x8)], 251, [],
    [⟨"SPP", 0, 8, .rw, 0⟩, ⟨"KEY_SLOT", 8, 13, .rw, 0⟩, ⟨"VALID", 21, 1, .rw, 0⟩]⟩,
  ⟨.INTEG_PTP_KEYID, .integ, 0x604, [(16, 0x8)], 251, [],
    [⟨"KEY_ID", 0, 32, .rw, 0⟩]⟩,
  ⟨.INTEG_INTEG_CNT, .integ, 0x800, [(12, 0x8)], 252, [.cntArr, .snap],
    [⟨"COUNT", 0, 64, .ro, 0⟩]⟩]

/-- The registers of page TIME. -/
def rows_TIME : List RegRow := [
  ⟨.TIME_NOW_FRAC, .time, 0x100, [], 257, [.live, .group0],
    [⟨"FRAC", 0, 16, .ro, 0⟩]⟩,
  ⟨.TIME_NOW_NS, .time, 0x104, [], 257, [.live, .groupN],
    [⟨"NS", 0, 30, .ro, 0⟩]⟩,
  ⟨.TIME_NOW_SEC_LO, .time, 0x108, [], 257, [.live, .groupN],
    [⟨"SEC", 0, 32, .ro, 0⟩]⟩,
  ⟨.TIME_NOW_SEC_HI, .time, 0x10c, [], 257, [.live, .groupN],
    [⟨"SEC", 0, 16, .ro, 0⟩]⟩,
  ⟨.TIME_RATE_LO, .time, 0x110, [], 257, [.live, .pairLo],
    [⟨"RATE", 0, 32, .rw, 0⟩]⟩,
  ⟨.TIME_RATE_HI, .time, 0x114, [], 257, [.live, .pairHi],
    [⟨"RATE", 0, 8, .rw, 0⟩]⟩,
  ⟨.TIME_STEP_NS, .time, 0x118, [], 257, [],
    [⟨"NS", 0, 30, .rw, 0⟩, ⟨"NEG", 31, 1, .rw, 0⟩]⟩,
  ⟨.TIME_STEP_SEC_LO, .time, 0x11c, [], 257, [.pairLo],
    [⟨"SEC", 0, 32, .rw, 0⟩]⟩,
  ⟨.TIME_STEP_SEC_HI, .time, 0x120, [], 257, [.pairHi],
    [⟨"SEC", 0, 16, .rw, 0⟩]⟩,
  ⟨.TIME_STEP_CTRL, .time, 0x124, [], 257, [.live, .hook],
    [⟨"SET", 0, 1, .w1s, 0⟩, ⟨"ADD", 1, 1, .w1s, 0⟩, ⟨"BUSY", 2, 1, .ro, 0⟩]⟩,
  ⟨.TIME_CLK_CFG, .time, 0x130, [], 257, [.live, .hook],
    [⟨"SRC", 0, 1, .rw, 0⟩, ⟨"EXT10M_OK", 1, 1, .ro, 0⟩, ⟨"AUTO_FALLBACK", 2, 1, .rw, 1⟩]⟩,
  ⟨.TIME_CLOCK_ID_LO, .time, 0x138, [], 257, [.pairLo],
    [⟨"ID", 0, 32, .rw, 0⟩]⟩,
  ⟨.TIME_CLOCK_ID_HI, .time, 0x13c, [], 257, [.pairHi],
    [⟨"ID", 0, 32, .rw, 0⟩]⟩,
  ⟨.TIME_SERVO_CTRL, .time, 0x140, [], 268, [.hook],
    [⟨"EN", 0, 1, .rw, 0⟩, ⟨"SRC_KIND", 1, 2, .rw, 0⟩, ⟨"SRC_PORT", 3, 10, .rw, 0⟩, ⟨"DELAY_MODE", 13, 1, .rw, 0⟩, ⟨"DREQ_LOG", 14, 4, .rw, 0⟩, ⟨"STEP_EN", 18, 1, .rw, 1⟩, ⟨"FORCE_HOLD", 19, 1, .rw, 0⟩, ⟨"DOMAIN", 20, 8, .rw, 0⟩]⟩,
  ⟨.TIME_SRC_ID_LO, .time, 0x144, [], 268, [.pairLo],
    [⟨"ID", 0, 32, .rw, 0⟩]⟩,
  ⟨.TIME_SRC_ID_HI, .time, 0x148, [], 268, [.pairHi],
    [⟨"ID", 0, 32, .rw, 0⟩]⟩,
  ⟨.TIME_SRC_PNUM, .time, 0x14c, [], 268, [],
    [⟨"PNUM", 0, 16, .rw, 0⟩]⟩,
  ⟨.TIME_SERVO_GAIN, .time, 0x150, [], 268, [],
    [⟨"KP_SHIFT", 0, 5, .rw, 2⟩, ⟨"KI_SHIFT", 5, 5, .rw, 6⟩, ⟨"FILTER_NS", 10, 16, .rw, 0x64⟩]⟩,
  ⟨.TIME_SERVO_THRESH, .time, 0x154, [], 268, [],
    [⟨"LOCK_NS", 0, 8, .rw, 0x14⟩, ⟨"UNLOCK_NS", 8, 8, .rw, 0x64⟩, ⟨"STEP_US", 16, 8, .rw, 1⟩, ⟨"LOSS_S", 24, 8, .rw, 3⟩]⟩,
  ⟨.TIME_SERVO_STAT, .time, 0x158, [], 268, [.live],
    [⟨"STATE", 0, 2, .ro, 0⟩, ⟨"EVER_LOCKED", 2, 1, .ro, 0⟩]⟩,
  ⟨.TIME_OFFSET_LO, .time, 0x160, [], 268, [.live, .roLo],
    [⟨"OFS", 0, 32, .ro, 0⟩]⟩,
  ⟨.TIME_OFFSET_HI, .time, 0x164, [], 268, [.live, .roHi],
    [⟨"OFS", 0, 32, .ro, 0⟩]⟩,
  ⟨.TIME_PATH_DELAY, .time, 0x168, [], 268, [.live],
    [⟨"M", 0, 32, .ro, 0⟩]⟩,
  ⟨.TIME_HOLD_RATE_LO, .time, 0x16c, [], 268, [.live, .roLo],
    [⟨"RATE", 0, 32, .ro, 0⟩]⟩,
  ⟨.TIME_HOLD_RATE_HI, .time, 0x170, [], 268, [.live, .roHi],
    [⟨"RATE", 0, 8, .ro, 0⟩]⟩,
  ⟨.TIME_PTP_CFG, .time, 0x180, [], 268, [],
    [⟨"HDR_ID", 0, 6, .rw, 0⟩]⟩,
  ⟨.TIME_SRV_CNT, .time, 0x190, [(4, 0x8)], 268, [.cntArr],
    [⟨"COUNT", 0, 64, .ro, 0⟩]⟩,
  ⟨.TIME_PPS_OUT_CFG, .time, 0x200, [(2, 0x4)], 272, [],
    [⟨"EN", 0, 1, .rw, 0⟩, ⟨"WIDTH", 1, 20, .rw, 0x186a0⟩]⟩,
  ⟨.TIME_PPS_OUT_OFS, .time, 0x208, [(2, 0x4)], 272, [],
    [⟨"OFS", 0, 30, .rw, 0⟩]⟩,
  ⟨.TIME_PPS_IN_CAP_FRAC, .time, 0x220, [(2, 0x10)], 272, [.live, .group0],
    [⟨"FRAC", 0, 16, .ro, 0⟩]⟩] ++ [
  ⟨.TIME_PPS_IN_CAP_NS, .time, 0x224, [(2, 0x10)], 272, [.live, .groupN],
    [⟨"NS", 0, 30, .ro, 0⟩]⟩,
  ⟨.TIME_PPS_IN_CAP_SEC_LO, .time, 0x228, [(2, 0x10)], 272, [.live, .groupN],
    [⟨"SEC_LO", 0, 32, .ro, 0⟩]⟩,
  ⟨.TIME_PPS_IN_CAP_SEC_HI, .time, 0x22c, [(2, 0x10)], 272, [.live, .groupN],
    [⟨"SEC_HI", 0, 16, .ro, 0⟩]⟩,
  ⟨.TIME_TR_CTRL, .time, 0x300, [(4, 0x20)], 272, [.live, .hook],
    [⟨"EN", 0, 1, .rw, 0⟩, ⟨"POL", 1, 1, .rw, 0⟩, ⟨"ARMED", 2, 1, .ro, 0⟩]⟩,
  ⟨.TIME_TR_START_NS, .time, 0x304, [(4, 0x20)], 272, [.tripleLo],
    [⟨"NS", 0, 30, .rw, 0⟩]⟩,
  ⟨.TIME_TR_START_SEC_LO, .time, 0x308, [(4, 0x20)], 272, [.tripleLo],
    [⟨"SEC", 0, 32, .rw, 0⟩]⟩,
  ⟨.TIME_TR_START_SEC_HI, .time, 0x30c, [(4, 0x20)], 272, [.tripleHi],
    [⟨"SEC", 0, 16, .rw, 0⟩]⟩,
  ⟨.TIME_TR_PERIOD, .time, 0x310, [(4, 0x20)], 272, [],
    [⟨"NS", 0, 32, .rw, 0⟩]⟩,
  ⟨.TIME_TR_WIDTH, .time, 0x314, [(4, 0x20)], 272, [],
    [⟨"NS", 0, 30, .rw, 0x64⟩]⟩,
  ⟨.TIME_TR_COUNT, .time, 0x318, [(4, 0x20)], 272, [.live],
    [⟨"PULSES", 0, 32, .rw, 0⟩]⟩,
  ⟨.TIME_EV_CTRL, .time, 0x400, [(4, 0x20)], 272, [.live],
    [⟨"EDGE", 0, 2, .rw, 0⟩, ⟨"LEVEL", 2, 5, .ro, 0⟩, ⟨"OVF", 16, 16, .ro, 0⟩]⟩,
  ⟨.TIME_EV_FRAC, .time, 0x404, [(4, 0x20)], 272, [.live, .group0],
    [⟨"FRAC", 0, 16, .ro, 0⟩, ⟨"EDGE", 31, 1, .ro, 0⟩]⟩,
  ⟨.TIME_EV_NS, .time, 0x408, [(4, 0x20)], 272, [.live, .groupN],
    [⟨"NS", 0, 30, .ro, 0⟩]⟩,
  ⟨.TIME_EV_SEC_LO, .time, 0x40c, [(4, 0x20)], 272, [.live, .groupN],
    [⟨"SEC_LO", 0, 32, .ro, 0⟩]⟩,
  ⟨.TIME_EV_SEC_HI, .time, 0x410, [(4, 0x20)], 272, [.live, .groupN],
    [⟨"SEC_HI", 0, 16, .ro, 0⟩]⟩,
  ⟨.TIME_SYNCE, .time, 0x500, [(2, 0x4)], 270, [.live],
    [⟨"LANE", 0, 10, .rw, 0⟩, ⟨"EN", 10, 1, .rw, 0⟩, ⟨"DIV", 11, 3, .rw, 0⟩, ⟨"SQUELCHED", 14, 1, .ro, 1⟩]⟩,
  ⟨.TIME_LEDGER_CTRL, .time, 0x600, [], 275, [.live, .hook],
    [⟨"EN", 0, 1, .rw, 1⟩, ⟨"EXPORT_EN", 1, 1, .rw, 0⟩, ⟨"EXP_LOG2", 2, 4, .rw, 0⟩, ⟨"COPY", 6, 1, .w1s, 0⟩, ⟨"COPY_BUSY", 7, 1, .ro, 0⟩]⟩,
  ⟨.TIME_LEDGER_SEQ_LO, .time, 0x604, [], 275, [.live, .pairLo, .configOnly],
    [⟨"SEQ", 0, 32, .rw, 0⟩]⟩,
  ⟨.TIME_LEDGER_SEQ_HI, .time, 0x608, [], 275, [.live, .pairHi, .configOnly],
    [⟨"SEQ", 0, 32, .rw, 0⟩]⟩,
  ⟨.TIME_LEDGER_ID, .time, 0x60c, [], 275, [],
    [⟨"SWITCH_ID", 0, 16, .rw, 0⟩]⟩,
  ⟨.TIME_LEDGER_EXP_ADDR_LO, .time, 0x610, [], 275, [.pairLo],
    [⟨"ADDR", 0, 32, .rw, 0⟩]⟩,
  ⟨.TIME_LEDGER_EXP_ADDR_HI, .time, 0x614, [], 275, [.pairHi],
    [⟨"ADDR", 0, 32, .rw, 0⟩]⟩,
  ⟨.TIME_COPY_FROM_LO, .time, 0x618, [], 275, [.pairLo],
    [⟨"SEQ", 0, 32, .rw, 0⟩]⟩,
  ⟨.TIME_COPY_FROM_HI, .time, 0x61c, [], 275, [.pairHi],
    [⟨"SEQ", 0, 32, .rw, 0⟩]⟩,
  ⟨.TIME_COPY_COUNT, .time, 0x620, [], 275, [],
    [⟨"COUNT", 0, 17, .rw, 1⟩]⟩,
  ⟨.TIME_COPY_ADDR_LO, .time, 0x624, [], 275, [.pairLo],
    [⟨"ADDR", 0, 32, .rw, 0⟩]⟩,
  ⟨.TIME_COPY_ADDR_HI, .time, 0x628, [], 275, [.pairHi],
    [⟨"ADDR", 0, 32, .rw, 0⟩]⟩,
  ⟨.TIME_LEDGER_LOST, .time, 0x62c, [], 275, [],
    [⟨"COUNT", 0, 16, .ro, 0⟩]⟩,
  ⟨.TIME_EXPORT_ERR, .time, 0x630, [], 275, [],
    [⟨"COUNT", 0, 16, .ro, 0⟩]⟩,
  ⟨.TIME_LEDGER_UNTAGGED, .time, 0x634, [], 275, [],
    [⟨"COUNT", 0, 16, .ro, 0⟩]⟩]

/-- The registers of page TSU. -/
def rows_TSU : List RegRow := [
  ⟨.TSU_TPL_CFG, .tsu, 0x100, [(3, 0x4)], 269, [.atBoundary],
    [⟨"LEN", 0, 7, .rw, 0⟩, ⟨"PTP_OFS", 7, 7, .rw, 0⟩, ⟨"XPORT", 14, 2, .rw, 0⟩, ⟨"TLV_FILL", 16, 1, .rw, 0⟩]⟩,
  ⟨.TSU_TS_CAL, .tsu, 0x800, [(32, 0x4)], 269, [.live],
    [⟨"RX", 0, 16, .ro, 0⟩, ⟨"TX", 16, 16, .ro, 0⟩]⟩,
  ⟨.TSU_TSU_CNT, .tsu, 0xa00, [(5, 0x8)], 269, [.cntArr, .snap],
    [⟨"COUNT", 0, 64, .ro, 0⟩]⟩,
  ⟨.TSU_TS_CFG, .tsu, 0x1000, [(32, 0x40)], 269, [.atBoundary],
    [⟨"ROLE", 0, 2, .rw, 0⟩, ⟨"TC_EN", 2, 1, .rw, 0⟩, ⟨"TC_P2P", 3, 1, .rw, 0⟩, ⟨"SYNC_LOG", 4, 4, .rw, 0⟩, ⟨"SA_PORT", 8, 1, .rw, 1⟩, ⟨"PTP_Q", 9, 4, .rw, 0⟩, ⟨"PTP_PORTNUM", 13, 16, .rw, 1⟩]⟩,
  ⟨.TSU_TS_BOARD, .tsu, 0x1004, [(32, 0x40)], 269, [.atBoundary],
    [⟨"RX", 0, 16, .rw, 0⟩, ⟨"TX", 16, 16, .rw, 0⟩]⟩,
  ⟨.TSU_TS_ASYM, .tsu, 0x1008, [(32, 0x40)], 269, [.atBoundary],
    [⟨"PS", 0, 32, .rw, 0⟩]⟩,
  ⟨.TSU_TS_LOOP_FWD, .tsu, 0x100c, [(32, 0x40)], 269, [],
    [⟨"PS", 0, 32, .ro, 0⟩]⟩,
  ⟨.TSU_TS_LOOP_REV, .tsu, 0x1010, [(32, 0x40)], 269, [],
    [⟨"PS", 0, 32, .ro, 0⟩]⟩,
  ⟨.TSU_TPL_BYTES, .tsu, 0x4000, [(3, 0x80), (32, 0x4)], 269, [.atBoundary, .noReset],
    [⟨"DATA", 0, 32, .rw, 0⟩]⟩]

/-- The registers of page TELEM. -/
def rows_TELEM : List RegRow := [
  ⟨.TELEM_FS_CFG, .telem, 0x100, [], 294, [.atBoundary, .live, .hook],
    [⟨"EXPORT_S", 0, 8, .rw, 0xa⟩, ⟨"IDLE_S", 8, 8, .rw, 0x1e⟩, ⟨"EN", 16, 1, .rw, 1⟩, ⟨"FLUSH", 17, 1, .w1s, 0⟩]⟩,
  ⟨.TELEM_FS_SEED, .telem, 0x104, [], 294, [.atBoundary],
    [⟨"SEED", 0, 32, .rwl, 0x6a09e667⟩]⟩,
  ⟨.TELEM_FS_STAT, .telem, 0x108, [], 294, [.live],
    [⟨"LIVE", 0, 23, .ro, 0⟩, ⟨"RESIZING", 23, 1, .ro, 0⟩]⟩,
  ⟨.TELEM_LAT_BASE, .telem, 0x10c, [], 294, [.atBoundary],
    [⟨"BASE", 0, 16, .rw, 0x40⟩]⟩,
  ⟨.TELEM_IOAM_CFG, .telem, 0x110, [], 294, [.atBoundary],
    [⟨"HDR_ID", 0, 6, .rw, 0⟩, ⟨"NS_ID", 6, 16, .rw, 0⟩, ⟨"NS_CONT", 22, 7, .rw, 0⟩]⟩,
  ⟨.TELEM_IOAM_NODE, .telem, 0x114, [], 294, [.atBoundary],
    [⟨"NODE_ID", 0, 24, .rw, 0⟩]⟩,
  ⟨.TELEM_TEL_CNT, .telem, 0x800, [(12, 0x8)], 294, [.cntArr, .snap],
    [⟨"COUNT", 0, 64, .ro, 0⟩]⟩,
  ⟨.TELEM_C_CFG, .telem, 0x1000, [(16, 0x100)], 294, [.atBoundary, .hook],
    [⟨"EN", 0, 1, .rw, 0⟩, ⟨"TYPE_MASK", 1, 7, .rw, 0⟩, ⟨"MAX_RECS", 8, 7, .rw, 0x16⟩, ⟨"TAG_EN", 15, 1, .rw, 0⟩, ⟨"INJ_GAL", 16, 5, .rw, 0⟩, ⟨"ICLASS", 21, 4, .rw, 0⟩]⟩,
  ⟨.TELEM_C_TPL, .telem, 0x1004, [(16, 0x100)], 294, [.atBoundary],
    [⟨"LEN", 0, 8, .rw, 0⟩, ⟨"IP_OFS", 8, 7, .rw, 0⟩, ⟨"UDP_OFS", 15, 7, .rw, 0⟩, ⟨"V6", 22, 1, .rw, 0⟩]⟩,
  ⟨.TELEM_C_FLUSH, .telem, 0x1008, [(16, 0x100)], 294, [.atBoundary],
    [⟨"FLUSH_US", 0, 16, .rw, 0x64⟩]⟩,
  ⟨.TELEM_C_SEQ_LO, .telem, 0x100c, [(16, 0x100)], 294, [.pairLo, .atBoundary],
    [⟨"SEQ", 0, 32, .rw, 0⟩]⟩,
  ⟨.TELEM_C_SEQ_HI, .telem, 0x1010, [(16, 0x100)], 294, [.pairHi, .atBoundary],
    [⟨"SEQ", 0, 32, .rw, 0⟩]⟩,
  ⟨.TELEM_C_SENT_LO, .telem, 0x1014, [(16, 0x100)], 294, [.roLo, .cnt64],
    [⟨"COUNT", 0, 32, .ro, 0⟩]⟩,
  ⟨.TELEM_C_SENT_HI, .telem, 0x1018, [(16, 0x100)], 294, [.roHi, .cnt64],
    [⟨"COUNT", 0, 32, .ro, 0⟩]⟩,
  ⟨.TELEM_C_DROPPED_LO, .telem, 0x101c, [(16, 0x100)], 294, [.roLo, .cnt64],
    [⟨"COUNT", 0, 32, .ro, 0⟩]⟩,
  ⟨.TELEM_C_DROPPED_HI, .telem, 0x1020, [(16, 0x100)], 294, [.roHi, .cnt64],
    [⟨"COUNT", 0, 32, .ro, 0⟩]⟩,
  ⟨.TELEM_C_TPL_BYTES, .telem, 0x1080, [(16, 0x100), (32, 0x4)], 294, [.atBoundary],
    [⟨"DATA", 0, 32, .rw, 0⟩]⟩]

/-- The registers of page ANVIL. -/
def rows_ANVIL : List RegRow := [
  ⟨.ANVIL_A_CFG, .anvil, 0x100, [], 315, [],
    [⟨"HDR_ID", 0, 6, .rw, 0⟩, ⟨"ALPHA", 6, 4, .rw, 7⟩]⟩,
  ⟨.ANVIL_G_SEL, .anvil, 0x110, [], 315, [],
    [⟨"GROUP", 0, 16, .rw, 0⟩]⟩,
  ⟨.ANVIL_G_CFG, .anvil, 0x114, [], 315, [.live, .bankG, .hook],
    [⟨"VALID", 0, 1, .rw, 0⟩, ⟨"ANVIL", 1, 6, .rw, 0⟩, ⟨"ETYPE", 7, 4, .rw, 0⟩, ⟨"OP", 11, 2, .rw, 0⟩, ⟨"ROOT", 13, 1, .rw, 0⟩, ⟨"WINDOW_M1", 14, 6, .rw, 7⟩, ⟨"CHUNK_64", 20, 7, .rw, 0x40⟩]⟩,
  ⟨.ANVIL_G_MEMBERS, .anvil, 0x118, [], 315, [.bankG],
    [⟨"MEMBERS", 0, 11, .rw, 1⟩, ⟨"MY_INDEX", 11, 10, .rw, 0⟩]⟩,
  ⟨.ANVIL_G_EPOCH, .anvil, 0x11c, [], 315, [.bankG],
    [⟨"EPOCH", 0, 32, .rw, 0⟩]⟩,
  ⟨.ANVIL_G_PARENT, .anvil, 0x120, [], 315, [.bankG],
    [⟨"PARENT_ID", 0, 16, .rw, 0⟩]⟩,
  ⟨.ANVIL_G_TPL, .anvil, 0x124, [], 315, [.bankG],
    [⟨"TPL_UP", 0, 8, .rw, 0⟩, ⟨"TPL_DOWN", 8, 8, .rw, 0⟩]⟩,
  ⟨.ANVIL_G_TMR, .anvil, 0x128, [], 315, [.bankG],
    [⟨"NACK_STK", 0, 12, .rw, 0x4e⟩, ⟨"NACK_MAX", 12, 4, .rw, 3⟩, ⟨"UP_STK", 16, 12, .rw, 0x4e⟩, ⟨"UP_MAX", 28, 4, .rw, 3⟩]⟩,
  ⟨.ANVIL_G_RETAIN, .anvil, 0x12c, [], 315, [.bankG],
    [⟨"RETAIN_MS", 0, 16, .rw, 0⟩]⟩,
  ⟨.ANVIL_G_LOW, .anvil, 0x130, [], 315, [.live, .bankG, .hook],
    [⟨"LOW", 0, 32, .rw, 0⟩]⟩,
  ⟨.ANVIL_G_STAT, .anvil, 0x134, [], 315, [.live, .bankG],
    [⟨"OPEN", 0, 7, .ro, 0⟩, ⟨"NO_ROOM", 7, 1, .w1c, 0⟩, ⟨"BAD_CFG", 8, 1, .w1c, 0⟩, ⟨"INDEX_OK", 9, 1, .ro, 0⟩]⟩,
  ⟨.ANVIL_A_STAT, .anvil, 0x200, [(64, 0x4)], 315, [.live],
    [⟨"GRAN_FREE", 0, 9, .ro, 0x100⟩, ⟨"STAGED", 9, 5, .ro, 0⟩, ⟨"INQ", 14, 12, .ro, 0⟩, ⟨"FLOOR", 26, 1, .ro, 0⟩]⟩,
  ⟨.ANVIL_T_CFG, .anvil, 0x400, [(256, 0x4)], 315, [],
    [⟨"LEN", 0, 8, .rw, 0⟩, ⟨"IP_OFS", 8, 7, .rw, 0⟩, ⟨"UDP_OFS", 15, 7, .rw, 0⟩, ⟨"V6", 22, 1, .rw, 0⟩, ⟨"ICLASS", 23, 4, .rw, 0⟩]⟩,
  ⟨.ANVIL_ANV_CNT, .anvil, 0x800, [(16, 0x8)], 315, [.cntArr, .snap],
    [⟨"COUNT", 0, 64, .ro, 0⟩]⟩,
  ⟨.ANVIL_T_BYTES, .anvil, 0x1000, [(256, 0x80), (32, 0x4)], 315, [.noReset],
    [⟨"DATA", 0, 32, .rw, 0⟩]⟩]

/-- The registers of page SEQ. -/
def rows_SEQ : List RegRow := [
  ⟨.SEQ_RL_CMD, .seq, 0x140, [(5, 0x40)], 329, [.live, .hook],
    [⟨"LOAD", 0, 1, .w1s, 0⟩, ⟨"SWITCH", 1, 1, .w1s, 0⟩, ⟨"LOAD_CLASS", 2, 3, .rw, 7⟩]⟩,
  ⟨.SEQ_RL_STAT, .seq, 0x144, [(5, 0x40)], 329, [.live],
    [⟨"ACTIVE_BANK", 0, 1, .ro, 0⟩, ⟨"IDLE_STATE", 1, 2, .ro, 0⟩, ⟨"RESULT", 3, 4, .ro, 0⟩]⟩,
  ⟨.SEQ_RL_LOAD_ADDR_LO, .seq, 0x148, [(5, 0x40)], 329, [.pairLo],
    [⟨"ADDR", 0, 32, .rw, 0⟩]⟩,
  ⟨.SEQ_RL_LOAD_ADDR_HI, .seq, 0x14c, [(5, 0x40)], 329, [.pairHi],
    [⟨"ADDR", 0, 32, .rw, 0⟩]⟩,
  ⟨.SEQ_RL_LOAD_LEN, .seq, 0x150, [(5, 0x40)], 329, [],
    [⟨"LEN", 0, 21, .rw, 0⟩]⟩,
  ⟨.SEQ_RL_SVN_MIN, .seq, 0x154, [(5, 0x40)], 329, [.hook],
    [⟨"SVN", 0, 32, .rwl, 0⟩]⟩,
  ⟨.SEQ_RL_SVN, .seq, 0x158, [(5, 0x40)], 329, [.live],
    [⟨"SVN", 0, 32, .ro, 0⟩]⟩,
  ⟨.SEQ_RL_DIGEST, .seq, 0x15c, [(5, 0x40)], 329, [.live],
    [⟨"D", 0, 32, .ro, 0⟩]⟩,
  ⟨.SEQ_CKEY, .seq, 0x440, [(4, 0x40), (12, 0x4)], 329, [],
    [⟨"HASH", 0, 32, .rwl, 0⟩]⟩,
  ⟨.SEQ_CKEY_VALID, .seq, 0x470, [(4, 0x40)], 329, [],
    [⟨"VALID", 0, 1, .rwl, 0⟩]⟩,
  ⟨.SEQ_SQ_CTRL, .seq, 0x1000, [(16, 0x100)], 329, [.live, .hook],
    [⟨"RESTART", 0, 1, .w1s, 0⟩, ⟨"STOP", 1, 1, .w1s, 0⟩]⟩,
  ⟨.SEQ_SQ_STAT, .seq, 0x1004, [(16, 0x100)], 329, [.live],
    [⟨"STATE", 0, 2, .ro, 0⟩, ⟨"PC", 2, 15, .ro, 0⟩, ⟨"EVQ", 17, 7, .ro, 0⟩]⟩,
  ⟨.SEQ_SQ_FAULT, .seq, 0x1008, [(16, 0x100)], 329, [.live],
    [⟨"ADDR", 0, 15, .ro, 0⟩, ⟨"CODE", 15, 4, .ro, 0⟩]⟩,
  ⟨.SEQ_SQ_MBOX_IN, .seq, 0x100c, [(16, 0x100)], 329, [.hook],
    [⟨"V", 0, 32, .rw, 0⟩]⟩,
  ⟨.SEQ_SQ_MBOX_OUT, .seq, 0x1010, [(16, 0x100)], 329, [],
    [⟨"V", 0, 32, .ro, 0⟩]⟩,
  ⟨.SEQ_SQ_FLAGS, .seq, 0x1014, [(16, 0x100)], 329, [.hook],
    [⟨"FLAGS", 0, 16, .rw, 0⟩]⟩,
  ⟨.SEQ_SQ_SIG, .seq, 0x1018, [(16, 0x100)], 329, [],
    [⟨"SIG", 0, 32, .w1c, 0⟩]⟩,
  ⟨.SEQ_SQ_CNT, .seq, 0x1020, [(16, 0x100), (4, 0x8)], 329, [.cntArr, .snap],
    [⟨"COUNT", 0, 64, .ro, 0⟩]⟩]

/-- The registers of page HOST. -/
def rows_HOST : List RegRow := [
  ⟨.HOST_HALTED, .host, 0x100, [(16, 0x4)], 348, [],
    [⟨"RING", 0, 32, .w1c, 0⟩]⟩,
  ⟨.HOST_VEC_LOST, .host, 0x140, [], 348, [],
    [⟨"COUNT", 0, 16, .ro, 0⟩]⟩,
  ⟨.HOST_TRAP_NO_RING_LO, .host, 0x148, [], 348, [.roLo, .cnt64, .snap],
    [⟨"COUNT", 0, 32, .ro, 0⟩]⟩,
  ⟨.HOST_TRAP_NO_RING_HI, .host, 0x14c, [], 348, [.roHi, .cnt64, .snap],
    [⟨"COUNT", 0, 32, .ro, 0⟩]⟩,
  ⟨.HOST_RING_FN, .host, 0x1000, [(512, 0x4)], 348, [.hook],
    [⟨"FN", 0, 5, .rw, 0⟩]⟩,
  ⟨.HOST_FN_WIN_BASE_LO, .host, 0x2000, [(32, 0x10)], 348, [.pairLo],
    [⟨"ADDR", 0, 32, .rw, 0⟩]⟩,
  ⟨.HOST_FN_WIN_BASE_HI, .host, 0x2004, [(32, 0x10)], 348, [.pairHi],
    [⟨"ADDR", 0, 32, .rw, 0⟩]⟩,
  ⟨.HOST_FN_WIN_LIMIT_LO, .host, 0x2008, [(32, 0x10)], 348, [.pairLo],
    [⟨"ADDR", 0, 32, .rw, 0xffffffff⟩]⟩,
  ⟨.HOST_FN_WIN_LIMIT_HI, .host, 0x200c, [(32, 0x10)], 348, [.pairHi],
    [⟨"ADDR", 0, 32, .rw, 0xffffffff⟩]⟩]

/-- The registers of page RINGS. -/
def rows_RINGS : List RegRow := [
  ⟨.RINGS_RW_CTRL, .rings, 0x0, [(512, 0x100)], 347, [.hook],
    [⟨"EN", 0, 1, .rw, 0⟩, ⟨"TYPE", 1, 3, .rw, 0⟩, ⟨"LOG2_SIZE", 4, 5, .rw, 4⟩, ⟨"CLASS", 9, 3, .rw, 0⟩, ⟨"IRQ_EN", 12, 1, .rw, 0⟩, ⟨"VEC", 13, 11, .rw, 0⟩, ⟨"RESUME", 24, 1, .w1s, 0⟩]⟩,
  ⟨.RINGS_RW_POLL, .rings, 0x4, [(512, 0x100)], 347, [],
    [⟨"POLL_INTERVAL", 0, 16, .rw, 8⟩, ⟨"IRQ_BATCH", 16, 16, .rw, 1⟩]⟩,
  ⟨.RINGS_RW_BASE_LO, .rings, 0x8, [(512, 0x100)], 347, [.pairLo, .whileEn],
    [⟨"ADDR", 0, 32, .rw, 0⟩]⟩,
  ⟨.RINGS_RW_BASE_HI, .rings, 0xc, [(512, 0x100)], 347, [.pairHi, .whileEn],
    [⟨"ADDR", 0, 32, .rw, 0⟩]⟩,
  ⟨.RINGS_RW_HEAD_ADDR_LO, .rings, 0x10, [(512, 0x100)], 347, [.pairLo, .whileEn],
    [⟨"ADDR", 0, 32, .rw, 0⟩]⟩,
  ⟨.RINGS_RW_HEAD_ADDR_HI, .rings, 0x14, [(512, 0x100)], 347, [.pairHi, .whileEn],
    [⟨"ADDR", 0, 32, .rw, 0⟩]⟩,
  ⟨.RINGS_RW_START, .rings, 0x18, [(512, 0x100)], 347, [.whileEn],
    [⟨"START", 0, 32, .rw, 0⟩]⟩,
  ⟨.RINGS_RW_CONS, .rings, 0x1c, [(512, 0x100)], 347, [.live],
    [⟨"K", 0, 32, .ro, 0⟩]⟩,
  ⟨.RINGS_RW_STAT, .rings, 0x20, [(512, 0x100)], 347, [.live],
    [⟨"STATE", 0, 2, .ro, 0⟩, ⟨"CODE", 2, 4, .ro, 0⟩]⟩,
  ⟨.RINGS_RW_ERR_INDEX, .rings, 0x24, [(512, 0x100)], 347, [.live],
    [⟨"INDEX", 0, 32, .ro, 0⟩]⟩,
  ⟨.RINGS_RW_ERR_ROW, .rings, 0x28, [(512, 0x100)], 347, [.live],
    [⟨"ROW", 0, 4, .ro, 0⟩]⟩,
  ⟨.RINGS_RW_DONE_LO, .rings, 0x30, [(512, 0x100)], 347, [.roLo, .cnt64, .snap],
    [⟨"COUNT", 0, 32, .ro, 0⟩]⟩,
  ⟨.RINGS_RW_DONE_HI, .rings, 0x34, [(512, 0x100)], 347, [.roHi, .cnt64, .snap],
    [⟨"COUNT", 0, 32, .ro, 0⟩]⟩,
  ⟨.RINGS_RW_NONFATAL_LO, .rings, 0x38, [(512, 0x100)], 347, [.roLo, .cnt64, .snap],
    [⟨"COUNT", 0, 32, .ro, 0⟩]⟩,
  ⟨.RINGS_RW_NONFATAL_HI, .rings, 0x3c, [(512, 0x100)], 347, [.roHi, .cnt64, .snap],
    [⟨"COUNT", 0, 32, .ro, 0⟩]⟩,
  ⟨.RINGS_RW_RETRY_LO, .rings, 0x40, [(512, 0x100)], 347, [.roLo, .cnt64, .snap],
    [⟨"COUNT", 0, 32, .ro, 0⟩]⟩,
  ⟨.RINGS_RW_RETRY_HI, .rings, 0x44, [(512, 0x100)], 347, [.roHi, .cnt64, .snap],
    [⟨"COUNT", 0, 32, .ro, 0⟩]⟩]

/-- The registers of page GCNT. -/
def rows_GCNT : List RegRow := [
  ⟨.GCNT_PC_GCTL, .gcnt, 0x100, [], 365, [.atBoundary, .hook],
    [⟨"FREEZE", 0, 1, .rw, 0⟩, ⟨"CLR_ALL", 1, 1, .w1s, 0⟩]⟩,
  ⟨.GCNT_PC_SEL, .gcnt, 0x1000, [(8, 0x40)], 365, [.atBoundary],
    [⟨"EVENT", 0, 16, .rw, 0⟩, ⟨"EN", 16, 1, .rw, 0⟩, ⟨"SAMPLE_EN", 17, 1, .rw, 0⟩, ⟨"FN_MODE", 18, 2, .rw, 0⟩, ⟨"FN", 20, 5, .rw, 0⟩, ⟨"RANGE_EN", 25, 1, .rw, 0⟩]⟩,
  ⟨.GCNT_PC_FILT, .gcnt, 0x1004, [(8, 0x40)], 365, [.atBoundary],
    [⟨"SRC", 0, 8, .rw, 0xff⟩, ⟨"CLASS", 8, 16, .rw, 0xffff⟩]⟩,
  ⟨.GCNT_PC_RANGE_LO, .gcnt, 0x1008, [(8, 0x40)], 365, [.atBoundary],
    [⟨"BOUND", 0, 24, .rw, 0⟩]⟩,
  ⟨.GCNT_PC_RANGE_HI, .gcnt, 0x100c, [(8, 0x40)], 365, [.atBoundary],
    [⟨"BOUND", 0, 24, .rw, 0xffffff⟩]⟩,
  ⟨.GCNT_PC_VAL_LO, .gcnt, 0x1010, [(8, 0x40)], 365, [.live, .pairLo],
    [⟨"VALUE", 0, 32, .rw, 0⟩]⟩,
  ⟨.GCNT_PC_VAL_HI, .gcnt, 0x1014, [(8, 0x40)], 365, [.live, .pairHi, .hook],
    [⟨"VALUE", 0, 16, .rw, 0⟩]⟩,
  ⟨.GCNT_PC_RELOAD_LO, .gcnt, 0x1018, [(8, 0x40)], 365, [.pairLo],
    [⟨"RELOAD", 0, 32, .rw, 0⟩]⟩,
  ⟨.GCNT_PC_RELOAD_HI, .gcnt, 0x101c, [(8, 0x40)], 365, [.pairHi],
    [⟨"RELOAD", 0, 16, .rw, 0⟩]⟩,
  ⟨.GCNT_PC_SNAP_LO, .gcnt, 0x1020, [(8, 0x40)], 365, [.live, .roLo],
    [⟨"VALUE", 0, 32, .ro, 0⟩]⟩,
  ⟨.GCNT_PC_SNAP_HI, .gcnt, 0x1024, [(8, 0x40)], 365, [.live, .roHi],
    [⟨"VALUE", 0, 16, .ro, 0⟩]⟩,
  ⟨.GCNT_PC_STAT, .gcnt, 0x1028, [(8, 0x40)], 365, [.live],
    [⟨"OVF", 0, 1, .w1c, 0⟩, ⟨"SNAP_OVF", 1, 1, .ro, 0⟩]⟩,
  ⟨.GCNT_SMP_STAT, .gcnt, 0x2000, [], 368, [.live],
    [⟨"LEVEL", 0, 5, .ro, 0⟩, ⟨"LOST", 16, 16, .ro, 0⟩]⟩,
  ⟨.GCNT_SMP, .gcnt, 0x2010, [(6, 0x4)], 368, [.live],
    [⟨"WORD", 0, 32, .ro, 0⟩]⟩,
  ⟨.GCNT_VIEW, .gcnt, 0x8000, [(8192, 0x4)], 372, [.live],
    [⟨"V", 0, 32, .ro, 0⟩]⟩]

/-- The registers of page CNT. -/
def rows_CNT : List RegRow := [
  ⟨.CNT_PC_GCTL, .cnt, 0x100, [], 365, [.atBoundary, .hook],
    [⟨"FREEZE", 0, 1, .rw, 0⟩, ⟨"CLR_ALL", 1, 1, .w1s, 0⟩]⟩,
  ⟨.CNT_PC_SEL, .cnt, 0x1000, [(16, 0x40)], 365, [.atBoundary],
    [⟨"EVENT", 0, 16, .rw, 0⟩, ⟨"EN", 16, 1, .rw, 0⟩, ⟨"FN_MODE", 18, 2, .rw, 0⟩, ⟨"FN", 20, 5, .rw, 0⟩, ⟨"RANGE_EN", 25, 1, .rw, 0⟩]⟩,
  ⟨.CNT_PC_FILT, .cnt, 0x1004, [(16, 0x40)], 365, [.atBoundary],
    [⟨"SRC", 0, 8, .rw, 0xff⟩, ⟨"CLASS", 8, 16, .rw, 0xffff⟩]⟩,
  ⟨.CNT_PC_RANGE_LO, .cnt, 0x1008, [(16, 0x40)], 365, [.atBoundary],
    [⟨"BOUND", 0, 24, .rw, 0⟩]⟩,
  ⟨.CNT_PC_RANGE_HI, .cnt, 0x100c, [(16, 0x40)], 365, [.atBoundary],
    [⟨"BOUND", 0, 24, .rw, 0xffffff⟩]⟩,
  ⟨.CNT_PC_VAL_LO, .cnt, 0x1010, [(16, 0x40)], 365, [.live, .pairLo],
    [⟨"VALUE", 0, 32, .rw, 0⟩]⟩,
  ⟨.CNT_PC_VAL_HI, .cnt, 0x1014, [(16, 0x40)], 365, [.live, .pairHi, .hook],
    [⟨"VALUE", 0, 16, .rw, 0⟩]⟩,
  ⟨.CNT_PC_RELOAD_LO, .cnt, 0x1018, [(16, 0x40)], 365, [.pairLo],
    [⟨"RELOAD", 0, 32, .rw, 0⟩]⟩,
  ⟨.CNT_PC_RELOAD_HI, .cnt, 0x101c, [(16, 0x40)], 365, [.pairHi],
    [⟨"RELOAD", 0, 16, .rw, 0⟩]⟩,
  ⟨.CNT_PC_SNAP_LO, .cnt, 0x1020, [(16, 0x40)], 365, [.live, .roLo],
    [⟨"VALUE", 0, 32, .ro, 0⟩]⟩,
  ⟨.CNT_PC_SNAP_HI, .cnt, 0x1024, [(16, 0x40)], 365, [.live, .roHi],
    [⟨"VALUE", 0, 16, .ro, 0⟩]⟩,
  ⟨.CNT_PC_STAT, .cnt, 0x1028, [(16, 0x40)], 365, [.live],
    [⟨"OVF", 0, 1, .w1c, 0⟩, ⟨"SNAP_OVF", 1, 1, .ro, 0⟩]⟩,
  ⟨.CNT_STAT_SEL, .cnt, 0x110, [], 371, [.atBoundary],
    [⟨"GALLERY", 0, 5, .rw, 0⟩, ⟨"COPY", 5, 1, .rw, 0⟩]⟩,
  ⟨.CNT_VF_MAP, .cnt, 0x184, [(31, 0x4)], 372, [],
    [⟨"GAL", 0, 5, .rw, 0⟩, ⟨"VALID", 5, 1, .rw, 0⟩]⟩,
  ⟨.CNT_STATV_PT, .cnt, 0x2000, [(32, 0xc0), (23, 0x8)], 371, [.cntArr, .view],
    [⟨"COUNT", 0, 64, .ro, 0⟩]⟩,
  ⟨.CNT_STATV_Q, .cnt, 0x8000, [(512, 0x40), (8, 0x8)], 371, [.cntArr, .view],
    [⟨"COUNT", 0, 64, .ro, 0⟩]⟩]

/-- The registers of page DAMPER. -/
def rows_DAMPER : List RegRow := [
  ⟨.DAMPER_CAP, .damper, 0x100, [], 387, [.atBoundary],
    [⟨"CAP_W", 0, 10, .rw, 0x3c0⟩, ⟨"GUARD_W", 10, 7, .rw, 0x14⟩, ⟨"ADMIT_PACING", 17, 1, .rw, 0⟩]⟩,
  ⟨.DAMPER_RELEASE, .damper, 0x104, [], 387, [.atBoundary],
    [⟨"RELEASE_US", 0, 16, .rw, 0x64⟩, ⟨"HYST_W", 16, 7, .rw, 0x14⟩]⟩,
  ⟨.DAMPER_DMP_STAT, .damper, 0x108, [], 387, [.live],
    [⟨"LEVEL", 0, 5, .ro, 0⟩, ⟨"LEVEL_MAX", 5, 5, .ro, 0x12⟩, ⟨"AT_FLOOR", 10, 1, .ro, 0⟩, ⟨"QUENCH", 11, 1, .ro, 0⟩, ⟨"VR_THROTTLE", 12, 1, .ro, 0⟩, ⟨"THERMAL", 13, 1, .ro, 0⟩, ⟨"CAP_UNREACHABLE", 14, 1, .ro, 0⟩, ⟨"CORE_LOW", 15, 1, .ro, 0⟩, ⟨"FREQ_DEFERRED", 16, 1, .ro, 0⟩, ⟨"PACE_LEVEL", 17, 4, .ro, 0⟩]⟩,
  ⟨.DAMPER_POWER, .damper, 0x10c, [], 387, [.live],
    [⟨"WINDOW_W", 0, 12, .ro, 0⟩, ⟨"FLOOR_W", 12, 12, .ro, 0⟩]⟩,
  ⟨.DAMPER_PEAK, .damper, 0x110, [], 387, [.live, .hook],
    [⟨"PEAK_W", 0, 12, .ro, 0⟩]⟩,
  ⟨.DAMPER_ACT, .damper, 0x114, [], 387, [.live],
    [⟨"ANVIL_SLOTS", 0, 9, .ro, 0xc0⟩, ⟨"SEQ_SLOTS", 9, 9, .ro, 0x100⟩, ⟨"STAIR_SLOTS", 18, 8, .ro, 0x80⟩]⟩,
  ⟨.DAMPER_THERM_CFG, .damper, 0x118, [], 387, [.atBoundary],
    [⟨"THROTTLE_C", 0, 7, .rw, 0x69⟩, ⟨"HYST_C", 7, 4, .rw, 3⟩]⟩,
  ⟨.DAMPER_TEMP, .damper, 0x11c, [], 387, [.live],
    [⟨"TJ_MAX", 0, 8, .ro, 0⟩, ⟨"TJ_PEAK", 8, 8, .ro, 0⟩, ⟨"SENSOR", 16, 7, .ro, 0⟩]⟩,
  ⟨.DAMPER_QUENCH_CFG, .damper, 0x120, [], 387, [.atBoundary],
    [⟨"DROOP_MV", 0, 7, .rwl, 0x28⟩, ⟨"HOLD_CYC", 7, 9, .rwl, 0x40⟩]⟩,
  ⟨.DAMPER_AVS_CFG, .damper, 0x124, [], 387, [.atBoundary],
    [⟨"AVS_EN", 0, 1, .rwl, 1⟩, ⟨"MARGIN_MV", 1, 7, .rwl, 0xa⟩]⟩,
  ⟨.DAMPER_AVS_STAT, .damper, 0x128, [], 387, [.live],
    [⟨"VTARGET_MV", 0, 10, .ro, 0⟩, ⟨"VREAD_MV", 10, 10, .ro, 0⟩, ⟨"IREAD_A", 20, 10, .ro, 0⟩, ⟨"AVS_ERR", 30, 1, .w1c, 0⟩]⟩,
  ⟨.DAMPER_AVS_FUSE, .damper, 0x12c, [], 387, [.live],
    [⟨"V_2G0", 0, 10, .ro, 0⟩, ⟨"V_1G6", 10, 10, .ro, 0⟩]⟩,
  ⟨.DAMPER_DMP_TIME, .damper, 0x200, [(5, 0x8)], 387, [.cntArr, .snap],
    [⟨"COUNT", 0, 64, .ro, 0⟩]⟩,
  ⟨.DAMPER_DMP_EVENTS, .damper, 0x240, [(5, 0x8)], 387, [.cntArr, .snap],
    [⟨"COUNT", 0, 64, .ro, 0⟩]⟩]

/-- The registers of page RAS. -/
def rows_RAS : List RegRow := [
  ⟨.RAS_LOG_STAT, .ras, 0x100, [], 402, [.live],
    [⟨"LEVEL", 0, 9, .ro, 0⟩, ⟨"OVF", 9, 16, .ro, 0⟩]⟩,
  ⟨.RAS_LOG, .ras, 0x110, [(8, 0x4)], 402, [.live],
    [⟨"DATA", 0, 32, .ro, 0⟩]⟩,
  ⟨.RAS_RR_CFG, .ras, 0x140, [], 402, [.hook],
    [⟨"APPLY", 0, 1, .rwl, 1⟩, ⟨"CLEAR", 1, 1, .w1s, 0⟩]⟩,
  ⟨.RAS_RR_STAT, .ras, 0x144, [], 402, [.live],
    [⟨"COUNT", 0, 8, .ro, 0⟩, ⟨"FULL", 8, 1, .ro, 0⟩, ⟨"WR_ERR", 9, 1, .w1c, 0⟩, ⟨"NONE_VALID", 10, 1, .ro, 0⟩]⟩,
  ⟨.RAS_RAS_STAT, .ras, 0x148, [], 402, [.live],
    [⟨"FATAL", 0, 1, .ro, 0⟩]⟩,
  ⟨.RAS_RAS_CNT, .ras, 0x800, [(7, 0x8)], 402, [.cntArr, .snap],
    [⟨"COUNT", 0, 64, .ro, 0⟩]⟩]

/-- The register rows of a page. -/
def rowsOf : Page → List RegRow
  | .top => rows_TOP
  | .host => rows_HOST
  | .time => rows_TIME
  | .damper => rows_DAMPER
  | .ras => rows_RAS
  | .seq => rows_SEQ
  | .cnt => rows_CNT
  | .table => rows_TABLE
  | .hall => rows_HALL
  | .lhall => rows_LHALL
  | .billet => rows_BILLET
  | .anvil => rows_ANVIL
  | .telem => rows_TELEM
  | .keys => rows_KEYS
  | .rings => rows_RINGS
  | .lane => rows_LANE
  | .d2d => rows_D2D
  | .gal => rows_GAL
  | .port => rows_PORT
  | .parse => rows_PARSE
  | .match => rows_MATCH
  | .stair => rows_STAIR
  | .egress => rows_EGRESS
  | .sched => rows_SCHED
  | .gate => rows_GATE
  | .police => rows_POLICE
  | .integ => rows_INTEG
  | .tsu => rows_TSU
  | .gcnt => rows_GCNT

/-- PAGE_CAP.IRQ_BITS: the number of defined IRQ_STAT bits of each page (R354). -/
def irqBits : Page → Nat
  | .top => 3
  | .host => 2
  | .time => 10
  | .damper => 7
  | .ras => 4
  | .seq => 6
  | .cnt => 0
  | .table => 6
  | .hall => 4
  | .lhall => 0
  | .billet => 3
  | .anvil => 4
  | .telem => 3
  | .keys => 0
  | .rings => 0
  | .lane => 5
  | .d2d => 0
  | .gal => 1
  | .port => 0
  | .parse => 0
  | .match => 0
  | .stair => 0
  | .egress => 0
  | .sched => 0
  | .gate => 0
  | .police => 0
  | .integ => 3
  | .tsu => 0
  | .gcnt => 2

end Sys2Proof.Machine
end

