-- ==== Sys2Proof/Machine/Addr.lean ====
section
/-! DEFINITION. Where an address of BAR0 lies (R351): its page, its register row, and what it reads as after reset. -/

namespace Sys2Proof.Machine

/-- The reset value of a register row: its fields' reset values in place (R354 and the register tables). -/
def RegRow.resetWord (r : RegRow) : Nat := (r.fields.map fun f => f.reset % 2 ^ f.w * 2 ^ f.lo).sum

/-- Does offset `rel` from the first element fall on an element of an array with these dimensions? The index of each
dimension, and what is left over. -/
def dimIndex : List (Nat × Nat) → Nat → Option (List Nat × Nat)
  | [], rel => some ([], rel)
  | (n, st) :: t, rel =>
    if rel / st < n then (dimIndex t (rel % st)).map fun p => (rel / st :: p.1, p.2) else none

/-- Offset `off` of the page belongs to row `r`: its indices and the byte offset left over (0, or 4 for the HI half of
an array of 64-bit counters). -/
def RegRow.matchOff (r : RegRow) (off : Nat) : Option (List Nat × Nat) :=
  if off < r.off then none
  else match dimIndex r.dims (off - r.off) with
    | some (ix, rest) =>
      if rest = 0 then some (ix, 0)
      else if rest = 4 ∧ r.attrs.contains .cntArr then some (ix, 4) else none
    | none => none

/-- The rows that begin at or below `off`, matched in order. -/
def findRow (off : Nat) : List RegRow → Option (RegRow × List Nat × Nat)
  | [] => none
  | r :: t => match r.matchOff off with
    | some (ix, rest) => some (r, ix, rest)
    | none => findRow off t

/-- The gallery sub-pages in the order of R351. -/
def subPage : Nat → Option Page
  | 0 => some .gal | 1 => some .port | 2 => some .parse | 3 => some .match | 4 => some .stair | 5 => some .egress
  | 6 => some .sched | 7 => some .gate | 8 => some .police | 9 => some .integ | 10 => some .tsu | 11 => some .gcnt
  | _ => none

/-- The page that address `a` lies on, with its instance and its base address (R351); none where nothing is mapped. -/
def pageOf (a : Nat) : Option (Page × Nat × Nat) :=
  let ix := a / 0x10000
  if a < 0xF0000 then
    match ix with
    | 0 => some (.top, 0, 0) | 1 => some (.host, 0, 0x10000) | 3 => some (.time, 0, 0x30000)
    | 4 => some (.damper, 0, 0x40000) | 5 => some (.ras, 0, 0x50000) | 6 => some (.seq, 0, 0x60000)
    | 7 => some (.cnt, 0, 0x70000) | 8 => some (.table, 0, 0x80000) | 9 => some (.hall, 0, 0x90000)
    | 10 => some (.lhall, 0, 0xA0000) | 11 => some (.billet, 0, 0xB0000) | 12 => some (.anvil, 0, 0xC0000)
    | 13 => some (.telem, 0, 0xD0000) | 14 => some (.keys, 0, 0xE0000) | _ => none
  else if 0x100000 ≤ a ∧ a < 0x120000 then some (.rings, 0, 0x100000)
  else if 0x200000 ≤ a ∧ a < 0x280000 then some (.lane, ix - 0x20, ix * 0x10000)
  else if 0x300000 ≤ a ∧ a < 0x380000 then some (.d2d, ix - 0x30, ix * 0x10000)
  else if 0x1000000 ≤ a ∧ a < 0x3000000 then
    (subPage (ix % 16)).map fun p => (p, (ix - 0x100) / 16, ix * 0x10000)
  else none

/-- The register row at BAR0 address `a`, with its indices and the byte offset left over. -/
def rowAt (a : Nat) : Option (RegRow × List Nat × Nat) :=
  match pageOf a with
  | some (p, _, base) => findRow (a - base) (rowsOf p)
  | none => none

/-- What a register reads as until something writes it: the reset value its row states, IRQ_MASK all ones (R354). A key
above BAR0 is a register banked behind a selector, and resets as its row does. -/
def regReset (key : Nat) : Word :=
  let a := key % 0x10000000
  match rowAt a with
  | some (r, _, _) => BitVec.ofNat 32 r.resetWord
  | none =>
    match pageOf a with
    | some (p, _, base) => if a - base = 0x14 ∧ p ≠ .rings then 0xFFFFFFFF#32 else 0#32
    | none => 0#32

end Sys2Proof.Machine
end

