-- ==== Sys2Proof/Machine/Tab.lean ====
section
/-! DEFINITION. Sparse tables keyed by a number, held in one canonical form: keys strictly rising, and no entry that
equals what an unlisted key reads as. Registers, counters and the on-die memories are kept this way. -/

namespace Sys2Proof.Machine

/-- A sparse table: (key, value) pairs in rising key order. -/
abbrev Tab (α : Type) := List (Nat × α)

/-- What key `k` reads as; `dflt k` where the table lists nothing. -/
def tabGet {α : Type} (dflt : Nat → α) : Tab α → Nat → α
  | [], k => dflt k
  | (j, v) :: t, k => if k = j then v else if k < j then dflt k else tabGet dflt t k

/-- The table without an entry for `k`. -/
def tabErase {α : Type} : Tab α → Nat → Tab α
  | [], _ => []
  | (j, v) :: t, k => if k = j then t else if k < j then (j, v) :: t else (j, v) :: tabErase t k

/-- The table with an entry for `k`, in its place. -/
def tabPut {α : Type} : Tab α → Nat → α → Tab α
  | [], k, v => [(k, v)]
  | (j, w) :: t, k, v =>
    if k = j then (j, v) :: t else if k < j then (k, v) :: (j, w) :: t else (j, w) :: tabPut t k v

/-- Write `v` at `k`, keeping the canonical form: a value equal to the unlisted reading takes no entry. -/
def tabSet {α : Type} [DecidableEq α] (dflt : Nat → α) (t : Tab α) (k : Nat) (v : α) : Tab α :=
  if v = dflt k then tabErase t k else tabPut t k v

/-- The keys rise strictly above `lo` and no entry equals the unlisted reading. -/
def tabWfFrom {α : Type} [DecidableEq α] (dflt : Nat → α) : Nat → Tab α → Bool
  | _, [] => true
  | lo, (j, v) :: t => decide (lo ≤ j) && decide (v ≠ dflt j) && tabWfFrom dflt (j + 1) t

/-- The canonical form of a sparse table. -/
def tabWf {α : Type} [DecidableEq α] (dflt : Nat → α) (t : Tab α) : Bool := tabWfFrom dflt 0 t

/-- Write consecutive keys from `k`. -/
def tabSetMany {α : Type} [DecidableEq α] (dflt : Nat → α) : Tab α → Nat → List α → Tab α
  | t, _, [] => t
  | t, k, v :: vs => tabSetMany dflt (tabSet dflt t k v) (k + 1) vs

/-- Read `n` consecutive keys from `k`. -/
def tabGetMany {α : Type} (dflt : Nat → α) (t : Tab α) (k n : Nat) : List α :=
  (List.range n).map fun j => tabGet dflt t (k + j)

/-- Zero as the unlisted reading, for tables of numbers. -/
def zeroNat : Nat → Nat := fun _ => 0

/-- Read a table of numbers whose unlisted keys read 0. -/
def tnat (t : Tab Nat) (k : Nat) : Nat := tabGet zeroNat t k

/-- Write a table of numbers whose unlisted keys read 0. -/
def tnatSet (t : Tab Nat) (k v : Nat) : Tab Nat := tabSet zeroNat t k v

/-- The first entry of an association list with key `k` (no order, no default). -/
def assoc {α : Type} : List (Nat × α) → Nat → Option α
  | [], _ => none
  | (j, v) :: t, k => if k = j then some v else assoc t k

/-- Replace or add the entry of `k` in an association list. -/
def assocSet {α : Type} : List (Nat × α) → Nat → α → List (Nat × α)
  | [], k, v => [(k, v)]
  | (j, w) :: t, k, v => if k = j then (j, v) :: t else (j, w) :: assocSet t k v

/-- Drop the entry of `k` from an association list. -/
def assocDel {α : Type} (t : List (Nat × α)) (k : Nat) : List (Nat × α) := t.filter fun e => e.1 ≠ k

end Sys2Proof.Machine
end

