-- ==== Sys2Proof/Machine/State.lean ====
section
/-! DEFINITION. The state of the LX204 as plain data: one structure for each unit the spec describes, the register file
and counters, and the queue of waiting commands. Every register the spec tables is either held in `regs` (keyed by its
BAR0 address, or by that address and its selector) or read from the unit that owns it. -/

namespace Sys2Proof.Machine

/-- The device states of R25. -/
inductive DevState where
  | off | reset | boot | config | run | degraded | thermal
deriving DecidableEq, Repr

/-- The device state and the fences of R25 to R34. -/
structure DevCtl where
  state : DevState := .reset
  /-- GO was written in CONFIG and waits for the boundary -/
  goPending : Bool := false
  /-- that boundary has passed: the transition is to be made -/
  goDue : Bool := false
  fenced : Word := 0
  fenceReq : Word := 0
  /-- galleries whose fence takes effect at the boundary just made -/
  fenceDue : Word := 0
  fenceDone : Word := 0
  /-- GEN_SEEN of each fenced gallery's sub-pages, kept from the fence (R358) -/
  fenceGen : List (Nat × Word) := []
  /-- a fence asked for by the hardware (R394), and so named in the retirement record -/
  hwFence : Word := 0
deriving DecidableEq, Repr

/-- The stroke counter (R35). -/
structure StrokeCtl where
  /-- the number of the stroke now running (R36) -/
  num : W64 := 0
  /-- how often that number has wrapped: the model's own count, so that timers compare as R12 states across a wrap -/
  wraps : Nat := 0
  /-- the cycle of this stroke that the last command naming one acted in (R38) -/
  cyc : Nat := 0
  /-- core time from the stroke's first cycle to that one, in 2^-16 ns -/
  inT : Nat := 0
deriving DecidableEq, Repr

/-- The four states of R45's life of a generation. -/
inductive GenState where
  | steady | pending | draining | resync
deriving DecidableEq, Repr

/-- The generation unit (R43 to R53). -/
structure GenUnit where
  state : GenState := .steady
  active : Word := 0
  /-- the result code of R46 -/
  result : Nat := 0
  /-- the generation in DRAINING, otherwise the last reclaimed (R52) -/
  drain : Word := 0xFFFFFFFF#32
  drainStk : Word := 0
  resyncStk : Word := 0
  /-- boundaries passed in the present drain or rebuild -/
  phaseStk : Nat := 0
  notifyErr : Bool := false
  /-- the boundary of the pending flip has come -/
  flipDue : Bool := false
  /-- the generation that was active in the stroke that ended last -/
  last : Word := 0
  /-- what the rebuild has taken of the present stroke's table-DMA budget (R50) -/
  took : Nat := 0
deriving DecidableEq, Repr

/-- Counter snapshots (R54, R55). -/
structure SnapUnit where
  /-- a request waits for its boundary -/
  req : Bool := false
  /-- the boundary just made takes a requested snapshot -/
  due : Bool := false
  /-- the copies of a snapshot are being written, and that snapshot was requested -/
  copying : Bool := false
  reqCopy : Bool := false
  /-- a request, or a periodic snapshot, was merged and waits for those copies -/
  mergedReq : Bool := false
  mergedPer : Bool := false
  merged : Nat := 0
  /-- PERIOD as in force at the last boundary -/
  every : Nat := 0
  /-- the write of PERIOD restarts the count at the next boundary -/
  restart : Bool := false
  /-- the stroke number at whose boundary the next periodic snapshot falls -/
  periodNext : Option Nat := none
  /-- a periodic snapshot fell at the boundary just made, and is not taken yet -/
  periodDue : Bool := false
  stroke : W64 := 0
  gen : Word := 0
deriving DecidableEq, Repr

/-- A request that was not admitted: its activity and instance, what tells it from the others of that instance, its size, and
the stroke in which it was last presented (R38). -/
structure BudWait where
  act : Nat
  inst : Nat
  tag : Nat
  size : Nat
  seen : Nat
deriving DecidableEq, Repr

/-- Budgets per stroke (R37 to R40), keyed by 256 * activity + instance. -/
structure BudgetUnit where
  used : Tab Nat := []
  /-- the amount used in the last complete stroke, latched at the boundary -/
  last : Tab Nat := []
  wait : Tab Nat := []
  /-- the wait counts latched at the most recent boundary -/
  waitShown : Tab Nat := []
  /-- what a request in progress has had admitted of it already, by its key and its tag (R38) -/
  partly : List (Nat × Nat) := []
  /-- the ring of each host DMA class whose work was admitted last (R336) -/
  lastRing : Tab Nat := []
  /-- requests that wait, in the order in which they were first presented -/
  waiting : List BudWait := []
deriving DecidableEq, Repr

/-- The operating profile (R64). -/
structure ProfileUnit where
  active : Nat := 0
  staged : Nat := 0
  /-- STAGED as the last boundary found it: what learning and re-placement go by (R69) -/
  vacate : Nat := 0
  busyRegion : Nat := 0
  busyRemain : Nat := 0
deriving DecidableEq, Repr

/-- A register write in a named cycle (R360): the cycle, its source, where and what it wrote, and whether it locked the boot lock. -/
structure BusAcc where
  at_ : Nat
  src : Source
  addr : Nat
  be : Nat
  data : Word
  locks : Bool := false
deriving DecidableEq, Repr

/-- The register file: values software writes, what is still in force this stroke, counters and latches. -/
structure RegFile where
  /-- register values as software reads them, keyed by BAR0 address (a banked register by 2^28 * (1 + selector) more) -/
  regs : Tab Word := []
  /-- values still in force for registers written in this stroke whose change waits for the boundary -/
  held : List (Nat × Word) := []
  /-- 64-bit counters by the address of their LO half, and their snapshot copies (R54) -/
  cnt : Tab Nat := []
  snap : Tab Nat := []
  /-- the counters as the last boundary found them -/
  edge : Tab Nat := []
  /-- HI halves latched by a LO read (R11, R360), keyed by 2 * address + source -/
  latch : Tab Nat := []
  /-- LO halves written and not committed, keyed by 2 * address + source -/
  loHeld : List (Nat × Word) := []
  /-- page indices that asked for a message in this stroke (R356) -/
  irqAsk : List Nat := []
  /-- W1C bits that the hardware set in the cycle it last set one in: that cycle, the register's address, the bit (R10) -/
  setNow : List (Nat × Nat × Nat) := []
  /-- accesses recorded in the present cycle: the cycle, the page and the word for ERR_FIRST (R361) -/
  errNow : List (Nat × Nat × Word) := []
  /-- writes that named the latest cycle one has named, in order (R360) -/
  busNow : List BusAcc := []
  /-- every RWL field is locked (R359) -/
  locked : Bool := false
  /-- the data of the last register read, by source -/
  pcieData : Word := 0
  smbusData : Word := 0
deriving DecidableEq, Repr

/-- What the device has sent to the world outside it: kept by the model so that statements can speak of it. -/
inductive Output where
  /-- a posted write to host memory -/
  | hostWrite (fn addr : Nat) (bytes : Bytes)
  /-- an MSI-X message: function and vector -/
  | msix (fn vec : Nat)
  /-- a frame or MAC control frame handed to a port's transmit MAC -/
  | frame (port : Nat) (bytes : Bytes)
  /-- a frame ended on a port with an inverted FCS before its whole length was sent -/
  | stomped (port : Nat)
  /-- a port begins or ends transmitting the remote fault sequence (R108) -/
  | remoteFault (port : Nat) (on : Bool)
  /-- errors injected into a lane's transmitted stream: kind and length (R85) -/
  | inject (lane kind len : Nat)
  /-- a host read asked for: ring, address, bytes -/
  | hostRead (ring addr len : Nat)
  /-- a pulse or level on a time output -/
  | pin (name : String) (level : Bool)
  /-- a pulse on a trigger output: its number, active low, and its width in ns -/
  | pulse (trig : Nat) (activeLow : Bool) (width : Nat)
  /-- pulses given while the device stood in a warm RESET: the output, how many, and their width in ns (R409) -/
  | pulses (output : String) (n width : Nat)
  /-- a recovered-clock output changes: the lane whose clock it gives and the exponent of its divider; none: held low (R270) -/
  | rclk (out : Nat) (clock : Option (Nat × Nat))
  /-- data answered over SMBus -/
  | smbus (bytes : Bytes)
  /-- an SMBus transaction that is not acknowledged (R435) -/
  | smbusNak
  /-- a message of the management block: AVSBus target, flash write -/
  | mgmt (name : String) (value : Nat)
deriving DecidableEq, Repr

/-- The lane states of R76. -/
inductive LaneState where
  | disabled | waitSignal | an | train | align | up | retrain | dormant | test | retired | faultTx
deriving DecidableEq, Repr

/-- A lane (chapter 04): what its registers do not hold as plain fields. -/
structure LaneSt where
  st : LaneState := .disabled
  sigDet : Bool := false
  cdr : Bool := false
  blockLock : Bool := false
  polDet : Bool := false
  /-- first lane only: the receive lanes arrive reversed and are remapped (R79) -/
  revDet : Bool := false
  txLpi : Bool := false
  rxLpi : Bool := false
  eqClip : Bool := false
  snr : Nat := 0
  downCause : Nat := 0
  /-- since which cycle receive adaptation has been frozen; none: it adapts (R78) -/
  frozenAt : Option Nat := none
  /-- one more than the stroke in which SIG_DET last rose, in which a retrain was last charged, and in which EN was last
  cleared while the lane was UP (R87); 0: none -/
  sigIn : Nat := 0
  chargeIn : Nat := 0
  enIn : Nat := 0
  retrains : Nat := 0
  trainFails : Nat := 0
  /-- elapsed times of the retrains charged in the last 10 minutes (R82) -/
  charges : List Nat := []
  prbsLock : Bool := false
  /-- a one-shot injection is pending (R85) -/
  injPending : Bool := false
  /-- when the next periodic injection falls -/
  injNext : Option Nat := none
  /-- receive word-boundary slips made so far (R84) -/
  slips : Nat := 0
  /-- the strokes in which the lane's outbound and inbound quiet conditions of R92 began -/
  outQuiet : Nat := 0
  inQuiet : Nat := 0
deriving DecidableEq, Repr

/-- Link bring-up of a port, kept beside its first lane (R79). -/
structure BringUp where
  /-- training must converge by this time -/
  trainBy : Option Nat := none
  /-- when the port woke from DORMANT on signal detect in P7 (R86) -/
  wokeAt : Option Nat := none
  /-- since when the link has been down (R57) -/
  downSince : Nat := 0
  /-- when the port last entered RETRAIN (R81) -/
  retrainAt : Option Nat := none
  /-- uncorrectable codewords counted within the last 1 ms: when, and how many (R81) -/
  uncs : List (Nat × Nat) := []
  /-- the port's lanes enter UP at the next boundary (R80) -/
  upDue : Bool := false
  /-- one more than the stroke in which the port entered DORMANT (R87) -/
  dormantIn : Nat := 0
deriving DecidableEq, Repr

/-- The states of a die-to-die link (R93). -/
inductive LinkState where
  | down | clockLock | deskew | laneTest | up
deriving DecidableEq, Repr

/-- A die-to-die link (R88 to R94). Direction 0 is outbound, 1 inbound. -/
structure LinkSt where
  st : LinkState := .down
  outSleep : Bool := false
  inSleep : Bool := false
  /-- the moves onto spares of a direction, oldest first: the spare and the data lane whose traffic it took (R90) -/
  repairOut : List (Nat × Nat) := []
  repairIn : List (Nat × Nat) := []
  lanesRetired : Bool := false
  /-- charged replays of the last second: 64 * direction + lane, and when -/
  charged : List (Nat × Nat) := []
  /-- RETRAIN was written and the link is not UP yet -/
  retraining : Bool := false
  /-- one more than the stroke in which RETRAIN was last written (R94); 0: none -/
  retrainIn : Nat := 0
  /-- unit intervals slipped on request, per receive lane: 128 * direction + lane, and how many -/
  slipped : Tab Nat := []
deriving DecidableEq, Repr

/-- The lanes and links of the eight chiplets. -/
structure LaneUnit where
  lanes : Tab LaneSt := []
  bring : Tab BringUp := []
  links : Tab LinkSt := []
  /-- bit c: the reference of chiplet c is absent or out of tolerance (R73) -/
  refBad : Nat := 0
  /-- REF_BAD is cleared at the next boundary (R444) -/
  refBack : Nat := 0
deriving DecidableEq, Repr

/-- Why a port is down (R97). -/
inductive DownReason where
  | none | disabled | bringup | localFault | remoteFault | laneRetired
deriving DecidableEq, Repr

/-- A port's MAC and flow control (chapter 05): what its registers do not hold as plain fields. -/
structure PortSt where
  up : Bool := false
  /-- the conditions of UP have failed, and the port goes down at the next boundary (R108) -/
  downDue : Bool := false
  /-- the state of the port that its AUTO members show (R163) -/
  shown : Bool := false
  /-- the port transmits the remote fault sequence (R108) -/
  txRemote : Bool := false
  /-- the fault sequence the PCS receives -/
  rxFault : DownReason := .none
  fecInUse : Nat := 0
  /-- frames still to end that an uncorrectable codeword reported before has touched (R99) -/
  badNext : Nat := 0
  hdrmShort : Bool := false
  /-- the stop of each priority 0 to 7, and of link-level pause as 8: when it ends (R105) -/
  stops : List (Nat × Nat) := []
  /-- one-way link delay D in 0.25 ns units, and where it comes from (R106) -/
  delay : Nat := 0
  delaySrc : Nat := 0
  /-- sequence number and send time of the open peer-delay request -/
  pdelayOpen : Option (Nat × Nat) := none
  pdelaySeq : Nat := 0
  /-- requests in a row without a valid response -/
  delayFails : Nat := 0
  /-- when the next request falls due -/
  pdelayNext : Option Nat := none
  /-- headroom reserved for each lossless class, in cells (R107) -/
  hdrm : List Nat := []
  /-- a measurement or a configuration change asks for headroom again at the boundary -/
  hdrmDirty : Bool := false
  /-- the same for a new measurement of D alone (R110) -/
  hdrmNewD : Bool := false
  /-- priorities whose XOFF is in force (R104), as a bit map -/
  xoff : Nat := 0
  /-- priorities that the flow-control frame names which waits for the frame in transmission; 0: none waits (R104) -/
  fcEn : Nat := 0
  /-- when XOFF was last sent for a priority; 8 is link-level pause (R104) -/
  xoffAt : List (Nat × Nat) := []
  /-- since when every queue of the port has been empty -/
  idleSince : Nat := 0
  /-- since when the transmit and receive directions are in low-power idle -/
  lpiTxAt : Option Nat := none
  lpiRxAt : Option Nat := none
deriving DecidableEq, Repr

/-- A header of HDR_LIST (R112), with the length the parse gave it. -/
structure HdrEnt where
  id : Nat
  ofs : Nat
  len : Nat
  /-- the encapsulation template it was inserted from (R151) -/
  tpl : Option Nat := none
deriving DecidableEq, Repr

/-- An extraction that a parse made: container, byte offset in the window, bytes, and the value extracted (R147). -/
structure Extr where
  cont : Nat
  ofs : Nat
  size : Nat
  val : Nat
deriving DecidableEq, Repr

/-- The packet header vector (R112). -/
structure Phv where
  /-- containers C0 to C95 -/
  c : Tab Nat := []
  ext : List Extr := []
  hdrs : List HdrEnt := []
  payload : Nat := 0
  parseTrunc : Bool := false
  lenUnder : Bool := false
  frag : Bool := false
  fragFirst : Bool := false
  /-- the fragmented header: its offset, IPv6, and its more-fragments bit (R128, R129) -/
  fragOfs : Nat := 0
  fragV6 : Bool := false
  fragMore : Bool := false
  fftHit : Bool := false
  fragMiss : Bool := false
  h0 : Nat := 0
  h1 : Nat := 0
deriving DecidableEq, Repr

/-- A hash profile as a parse found it in force (R120, R125). -/
structure HashCfg where
  func : Nat := 0
  sym : Nat := 0
  sels : List Word := []
  seed : Nat := 0
  key : Nat := 0
deriving DecidableEq, Repr

/-- The parser settings of a class in force in the cycle in which a parse begins (R120): what length faults and truncation do
(0 go on, 1 TRAP, 2 DROP; R116, R122), fragment-follow, and the hash profiles. -/
structure ParseCfg where
  overLen : Nat := 2
  under : Nat := 0
  trunc : Nat := 0
  fftEn : Bool := false
  h0 : HashCfg := {}
  h1 : Option HashCfg := none
deriving DecidableEq, Repr

/-- A length check that waits for the end of the frame (R123): where the header says the packet ends, the end left by the
check before it where there was one (the region ends there, or at the frame's end if that comes first), and the ingress
class and the settings of the pass that made the check. -/
structure LenCheck where
  stated : Nat
  bound : Option Nat
  iclass : Nat
  overLen : Nat
  under : Nat
  /-- the frame's change of header length when the check was made -/
  delta : Int := 0
deriving DecidableEq, Repr

/-- The outcome of a parse. -/
inductive ParseEnd where
  /-- a byte it reads has not arrived (R111) -/
  | waiting
  | accepted
  /-- stopped at the window or at a 21st header (R116) -/
  | truncated
  /-- a parse error (R117) -/
  | failed
deriving DecidableEq, Repr

/-- What a parse yields. -/
structure ParseResult where
  fin : ParseEnd := .waiting
  phv : Phv := {}
  overruns : Nat := 0
  underruns : Nat := 0
  fragOuter : Bool := false
  deferred : List LenCheck := []
  /-- where the first length check says the packet ends (R209) -/
  outer : Option Nat := none
deriving DecidableEq, Repr

/-- A fragment-follow entry (R129, R130). -/
structure FftEntry where
  key : Nat
  l4 : Nat
  h0 : Nat
  h1 : Nat
  /-- the stroke of the insert: visible from the next one (R131) -/
  stroke : Nat
  /-- the cycle of the insert, and its gallery -/
  acc : Nat
  gal : Nat
  /-- when it matures, in elapsed time -/
  dies : Nat
deriving DecidableEq, Repr

/-- The fragment-follow table: entries by set (0 to 4,095), at most four in each. -/
structure FftUnit where
  sets : Tab (List FftEntry) := []
  flush : Bool := false
deriving DecidableEq, Repr

/-- Where a packet in ingress comes from (R19). -/
inductive FlightSrc where
  /-- received on a port -/
  | port (p : Nat)
  /-- injected by the host in PIPE mode from a ring (R340) -/
  | host (ring : Nat)
  /-- sent by anvil 0 or 1 of the gallery (R314) -/
  | anvil (k : Nat)
  /-- a record datagram of a collector (R293) -/
  | telem (c : Nat)
deriving DecidableEq, Repr

/-- Where a packet in ingress stands. -/
inductive FlightPhase where
  /-- its header is ready and waits for a position (R19) -/
  | ready
  /-- its parse has begun and waits for bytes (R111) -/
  | parsing
  /-- parsed; in the ingress stages (R133) -/
  | staging
  /-- its stages are made, or its parse has judged it; the pass is to end -/
  | stages
  /-- in the fragment hold (R136) -/
  | hold
  /-- in the stair queue (R144) -/
  | stair
deriving DecidableEq, Repr

/-- A meter's charge whose length was estimated (R223): meter, estimate, what was taken from each bucket, and its result
colour. -/
structure MeterCharge where
  meter : Nat
  est : Int
  /-- by how much the metered length departs from the length as received, and the bytes a truncated mirror copy keeps -/
  delta : Int := 0
  cap : Option Nat := none
  tookC : Bool
  tookP : Bool
  colour : Nat
  dropped : Bool
deriving DecidableEq, Repr

/-- What the actions of a pass have set (R138 to R141). -/
structure PassActs where
  /-- the first DROP: code, stage and action index -/
  drop : Option (Nat × Nat × Nat) := none
  /-- the last TRAP: its ring, stage and action index -/
  trap : Option (Nat × Nat × Nat) := none
  /-- the last of the other dispositions: DISP, DARG, HSEL -/
  other : Option (Nat × Nat × Nat) := none
  queue : Nat := 4
  colour : Nat := 0
  encap : Option Nat := none
  decap : Option Nat := none
  ioam : Bool := false
  /-- mirror sessions asked for, in order -/
  mirrors : List Nat := []
  /-- lookups made on this pass: EM, LPM, ternary, indirection, extension -/
  usedEm : Nat := 0
  usedLpm : Nat := 0
  usedTern : Nat := 0
  usedInd : Nat := 0
  usedExt : Nat := 0
  /-- meters charged on an estimate -/
  charges : List MeterCharge := []
  /-- action counters to correct at the frame's end -/
  counted : List Nat := []
deriving DecidableEq, Repr

/-- An extension lookup that a packet on the stair waits for (R143). -/
structure ExtLookup where
  key : Nat
  ktype : Nat
  wide : Bool
  missEn : Bool
  missAct : Nat
  /-- admitted under the extension budget -/
  issued : Bool := false
  /-- the result has returned: hit, ACT_IDX, ADATA -/
  result : Option (Bool × Nat × Nat) := none
deriving DecidableEq, Repr

/-- What a parse decided for its packet (R116, R117, R122): dropped with a code, or trapped to the class's ring for a
cause of R341. -/
inductive Verdict where
  | drop (code : Nat)
  | trap (cause iclass : Nat)
deriving DecidableEq, Repr

/-- A packet in ingress: from its header's readiness to the end of its last pass. Its bytes are in the frame store. -/
structure Flight where
  id : Nat
  gal : Nat
  src : FlightSrc
  /-- when the header became ready: 256 * stroke + cycle (R19) -/
  ready : Nat
  phase : FlightPhase := .ready
  stamp : Word := 0
  pbank : Nat := 0
  iclass : Nat := 0
  pass : Nat := 0
  /-- the profile of its stamp's generation (R68) -/
  prof : Nat := 0
  /-- bytes of the frame that the parse window shows (R111, R144) -/
  vis : Nat := 0
  start : Nat := 0
  /-- the start state is its class's, read when the parse of its stair pass begins (R120, R143) -/
  startOfClass : Bool := false
  /-- the parser settings of the pass -/
  pcfg : ParseCfg := {}
  phv : Phv := {}
  /-- the cycle of its header position, and the cycle in which stage 0 of the pass begins (R111, R133) -/
  acc : Nat := 0
  due : Nat := 0
  /-- the stages made in this pass, and whether its fragment-follow step is made (R136) -/
  stage : Nat := 0
  fft : Bool := false
  acts : PassActs := {}
  /-- decided by a late length fault, or by a parse that is over -/
  verdict : Option Verdict := none
  ext : Option ExtLookup := none
  /-- boundaries waited in the stair queue (R145) -/
  waited : Nat := 0
  /-- the stroke in which it was held or joined the stair, and the cycle -/
  since : Nat := 0
  /-- cells charged on the stair: ingress minimum and shared (R181) -/
  stairMin : Nat := 0
  stairShared : Nat := 0
deriving DecidableEq, Repr

/-- A key and its salt, as a frame latches them (R246). -/
structure KeyMat where
  key : Bytes
  salt : Nat := 0
deriving DecidableEq, Repr

/-- What a transmitted frame latches at its first byte: key, IV and the fields of its SecTAG (R244). -/
structure TxMac where
  key : Bytes
  iv : Nat
  es : Bool
  sc : Bool
  an : Nat
  pn : Nat
  sci : Nat
deriving DecidableEq, Repr

/-- The integrity check of a received MACsec frame (R242). -/
structure RxCheck where
  /-- bytes of SecTAG removed after DA and SA -/
  tag : Nat
  strict : Bool
  /-- secure association, by its number in the gallery, and packet number -/
  sa : Nat := 0
  /-- INTEG writes made before the frame began (R251) -/
  seq : Nat := 0
  pn : Nat := 0
  iv : Nat := 0
  xpn : Bool := false
  key : Option KeyMat := none
  /-- the drop that the lookup decided -/
  verdict : Option Nat := none
  /-- INTEG counters to count once the MAC checks have passed -/
  counts : List Nat := []
deriving DecidableEq, Repr

/-- A frame whose bytes packets and copies share. -/
structure Frame where
  id : Nat
  /-- gallery that wrote it -/
  gal : Nat
  inPort : Nat
  /-- received on a port (false: injected) -/
  rx : Bool := true
  /-- 0 port, 1 host pipe, 2 host direct, 3 anvil, 4 telemetry datagram (R364) -/
  origin : Nat := 0
  /-- sent by an anvil or a collector: it updates no flow record (R277) -/
  untracked : Bool := false
  /-- a MAC control frame, or a peer-delay message that the port answers: consumed, never forwarded (R98, R261) -/
  consumed : Bool := false
  bytes : Bytes := []
  /-- the frame as the receive MAC passed it, where it was received -/
  raw : Bytes := []
  /-- how many bytes that is, or an injected frame's length -/
  got : Nat := 0
  ended : Bool := false
  /-- the last byte and the integrity check are in: egress may begin in store-and-forward -/
  checked : Bool := true
  /-- MACsec removed from it, or what decides its drop -/
  sec : Option RxCheck := none
  /-- the SecTAG is looked for: its bytes have not come -/
  secOpen : Bool := false
  /-- cycles from reset to its first byte, and the INTEG writes made before it (R246, R251) -/
  start : Nat := 0
  integSeq : Nat := 0
  /-- offset of the PTP header in the frame as received, and the outcome of its check (R248) -/
  ptpOfs : Option Nat := none
  ptpOk : Option Bool := none
  /-- ingress timestamp on the device clock and on the step-free counter, in 2^-16 ns (R258) -/
  tsClk : Nat := 0
  tsFree : Nat := 0
  stamp : Word := 0
  iclass : Nat := 0
  pass : Nat := 0
  h0 : Nat := 0
  /-- where the outermost length check of the first pass says the packet ends (R209) -/
  stated : Option Nat := none
  /-- change of header length made by the rebuilds so far (R209) -/
  delta : Int := 0
  /-- a TX entry asks for origin insertion: where its PTP header stands now (R340) -/
  originAt : Option Nat := none
  /-- MAX_FRAME of the ingress port when it began -/
  maxFrame : Nat := 0
  /-- addresses of the cells it holds, in writing order: 1,024 * logical bank + index (R176) -/
  cells : List Nat := []
  /-- cells of its beginning that have been read by every copy and given back (R178) -/
  gone : Nat := 0
  /-- copies admitted before its length was known: queue, and the bytes a mirror session keeps (R216) -/
  enqOpen : List (Nat × Option Nat) := []
  /-- cells its copies took from the free shared count (R187) -/
  sharedTaken : Nat := 0
  deferred : List LenCheck := []
  /-- meters charged on an estimate, with their galleries (R223) -/
  charges : List (Nat × MeterCharge) := []
  /-- addresses of action counters to correct at the frame's end -/
  counted : List Nat := []
  /-- the class has flow records, and the key at the end of the last pass (R278) -/
  tracked : Bool := false
  flowKey : Nat := 0
  /-- its flow record was updated already (R277) -/
  flowDone : Bool := false
  /-- port and queue of the copy that its life ended with, and the most that a queue admitting it held (R281, R282) -/
  eg : Option (Nat × Nat) := none
  held : Option Nat := none
  /-- its life ended before its length was known: drop code and residence time, to be recorded at its end -/
  flowPend : Option (Option Nat × Option Nat) := none
  /-- the collector whose datagram it is (R293) -/
  coll : Option Nat := none
  /-- the ring whose TX entry it came from (R338) -/
  ring : Option Nat := none
deriving DecidableEq, Repr

/-- Which total and holder a cell is charged to (R181). -/
inductive Charge where
  | qMin | qShared | landing | iMin (port : Nat) | iShared (port : Nat) | cMin (port cls : Nat) | cShared (port cls : Nat) | cHdrm (port cls : Nat)
deriving DecidableEq, Repr

/-- What a copy in the halls is. -/
inductive CopyKind where
  | original | replica | mirror | direct
deriving DecidableEq, Repr

/-- The segments of a queue in spill state (R191). -/
inductive Segment where
  | head | middle | landing
deriving DecidableEq, Repr

/-- Where a copy stands. -/
inductive CopyPhase where
  /-- in its queue -/
  | queued
  /-- selected, or granted cut-through; its first byte has not reached the transmit MAC -/
  | selected
  /-- in transmission: it has begun on egress (R227) -/
  | sending
deriving DecidableEq, Repr

/-- The 32-byte header of a packet in the Lower Hall (R192). -/
structure SpillHdr where
  /-- pointers of the next packet of its queue and of its own second billet; 0: none -/
  next : Nat := 0
  second : Nat := 0
  len : Nat
  colour : Nat
  stamp : Word
  /-- when it was admitted to its queue -/
  queued : Nat
deriving DecidableEq, Repr

/-- A copy of a packet, from admission to the end of its transmission. -/
structure Copy where
  uid : Nat
  frame : Nat
  /-- global queue number -/
  queue : Nat
  kind : CopyKind := .original
  phase : CopyPhase := .queued
  seg : Segment := .head
  colour : Nat := 0
  /-- the cells charged, in the order of charging -/
  charges : List (Charge × Nat) := []
  /-- the pool that admission chose for the cells beyond the minimum (R184) -/
  poolCharge : Charge := .qShared
  /-- this copy's charges take the cells from the free count (R187) -/
  ownCells : Bool := true
  /-- when it was admitted, in elapsed time (R214) -/
  at16 : Nat := 0
  ecn : Bool := false
  ioam : Bool := false
  /-- HELD of its queue at admission (R287) -/
  depth : Nat := 0
  cut : Bool := false
  phv : Phv := {}
  pass : Nat := 0
  /-- bytes the mirror session keeps; none keeps all (R141) -/
  trunc : Option Nat := none
  /-- cells of it read by its egress gallery, and how many of its charges have been given back (R178) -/
  read : Nat := 0
  returned : Nat := 0
  /-- the cell read last (R180) -/
  lastCell : Option Nat := none
  /-- its transmission was cut by a fence: the drop is recorded, and its cells wait for the discard (R31) -/
  lost : Bool := false
  /-- charged length taken at selection, and the buckets charged, by their keys in the scheduler (R209, R211) -/
  charged : Int := 0
  chargedAt : List Nat := []
  /-- that length was an estimate -/
  est : Bool := false
  /-- what MACsec was taken to add when it was charged (R209, R244) -/
  secAt : Nat := 0
  /-- generation under which its egress began (R48) -/
  egGen : Word := 0
  /-- header bytes after the deparser, and the bytes of the frame they stand for -/
  egHdr : Bytes := []
  egSkip : Nat := 0
  /-- the rebuilt header list, for what is written over the bytes later -/
  egHdrs : List HdrEnt := []
  /-- bytes written over the frame as transmitted, by offset (R262, R288, R340) -/
  egPatch : List (Nat × Bytes) := []
  /-- offset of the IOAM transit delay, written when the first byte leaves (R287) -/
  ioamAt : Option Nat := none
  /-- the TELEM counter of its IOAM write, counted when the first byte leaves: a packet dropped on egress has none (R286) -/
  ioamCnt : Option Nat := none
  /-- mirror sessions asked for on egress, until the frame's bytes are complete (R141) -/
  egMirrors : List Nat := []
  billets : List Nat := []
  /-- what is written before it in the Lower Hall -/
  spillHdr : Option SpillHdr := none
  /-- ask for one-step origin insertion: offset of the PTP header in the frame, and in the copy as formed (R264, R340) -/
  originAt : Option Nat := none
  originEg : Option Nat := none
  /-- what the integrity engine will protect it with (R244) -/
  mac : Option TxMac := none
  /-- its correctionField was changed on a port with PTP authentication: the offset of the PTP header as transmitted; its tag is
  written once the frame's bytes and its receive check are known (R248, R263) -/
  retag : Option Nat := none
  /-- the cycle of its first byte, and the INTEG writes made before it (R246, R251) -/
  txCyc : Nat := 0
  integSeq : Nat := 0
  /-- egress timestamp on the step-free counter -/
  txFree : Nat := 0
  /-- the change of its frame's delta that egress makes -/
  egDelta : Int := 0
deriving DecidableEq, Repr

/-- A queue's accounting in the halls (R181 to R193). -/
structure QueueSt where
  held : Nat := 0
  heldMin : Nat := 0
  heldShared : Nat := 0
  heldLand : Nat := 0
  lhBytes : Nat := 0
  lhPkts : Nat := 0
  spilling : Bool := false
  /-- average occupancy A (R229) -/
  avg : Int := 0
deriving DecidableEq, Repr

/-- A lossless class's accounting (R184, R185). -/
structure ClassSt where
  heldMin : Nat := 0
  heldShared : Nat := 0
  heldHdrm : Nat := 0
  xoff : Bool := false
deriving DecidableEq, Repr

/-- A bank being copied to a spare (R188). -/
structure BankCopy where
  bank : Nat
  spare : Nat
  /-- addresses of the cells that are to be copied -/
  todo : List Nat
  /-- the stroke of the last copy, or of the start -/
  last : Nat
deriving DecidableEq, Repr

/-- The Upper Hall. -/
structure HallUnit where
  copies : List Copy := []
  nextUid : Nat := 0
  queues : Tab QueueSt := []
  /-- lossless classes, keyed by 4 * port + class -/
  classes : Tab ClassSt := []
  /-- cells each port holds on the stair: ingress minimum, and shared (R181) -/
  inMin : Tab Nat := []
  inShared : Tab Nat := []
  /-- live count of free shared cells -/
  free : Nat := 1212416
  /-- FREE_SHARED as latched at the last boundary (R183) -/
  freeShown : Nat := 1212416
  /-- cells by which what is held exceeds a total that a flip or a lost bank has made smaller -/
  owed : Nat := 0
  sharedTotal : Nat := 1212416
  /-- MIN_SUM as latched at the last boundary, and with this stroke's writes (R182) -/
  minSum : Nat := 98304
  minNext : Nat := 98304
  minScaled : Bool := false
  /-- lowest port and class without its headroom (R190) -/
  short : Option (Nat × Nat) := none
  /-- each gallery's rotating bank pointer -/
  bankPtr : Tab Nat := []
  /-- physical bank of each remapped logical bank, 0xFFFF for one that is lost; every other bank maps to itself (R176) -/
  bankMap : Tab Nat := []
  sparesUsed : Nat := 0
  lastBank : Nat := 0x7FF
  copying : Option BankCopy := none
  /-- retired banks waiting for a copy, and those whose cells only drain (R189) -/
  bankQueue : List Nat := []
  bankDrain : List Nat := []
  /-- cells freed by reads and drops of this stroke, returned at its boundary (R178): their addresses -/
  freeing : List Nat := []
  /-- charges to release at the boundary: queue, charge and cells; and shared cells that the free count then gains -/
  releasing : List (Nat × Charge × Nat) := []
  freeGain : Nat := 0
  /-- replication list words, keyed by 64 * list + word, and those of this stroke (R187) -/
  repl : Tab Nat := []
  replNew : List (Nat × Nat) := []
deriving DecidableEq, Repr

/-- Packets in ingress: frames, flights and the position counters of R19. -/
structure PacketUnit where
  frames : List (Nat × Frame) := []
  flights : List Flight := []
  nextId : Nat := 0
  /-- headers accepted in the present cycle, by gallery: 4 * (256 * stroke + cycle) + count -/
  accepted : Tab Nat := []
  /-- egress packets started in this stroke, by gallery (R135) -/
  egStarts : Tab Nat := []
  /-- ports that started a frame in this stroke -/
  portStarts : List Nat := []
  /-- egress mirror copies whose cells wait for the write budget: frame and cells (R177) -/
  mirrorWait : List (Nat × Nat) := []
  /-- copies that ended before the bytes of the egress mirror copies they ask for were complete (R141, R152) -/
  lateMirrors : List Copy := []
  /-- highest stair depth since the last read, by gallery (R150) -/
  stairPeak : Tab Nat := []
  /-- the frame that each port is receiving: port, frame -/
  receiving : List (Nat × Nat) := []
  /-- the copy that each port is transmitting: port, copy -/
  sending : List (Nat × Nat) := []
  /-- action words, keyed by (((gallery * 32 + stage) * 2 + slot) * 4096 + index) -/
  acts : Tab Nat := []
deriving DecidableEq, Repr

/-- A learn event (R165). -/
structure LearnEvent where
  ktype : Nat
  wide : Bool
  key : Nat
  /-- flow-key region -/
  flow : Bool
  actIdx : Nat
  value : Nat
  gal : Nat
  /-- the cycle it was raised in -/
  cyc : Nat
deriving DecidableEq, Repr

/-- What a table notice reports (R166, R341). -/
inductive NoticeKind where
  | insert | move | aged | removed | lockExpired
deriving DecidableEq, Repr

/-- A notice waiting to be written to its host ring. -/
structure Notice where
  kind : NoticeKind
  row : Nat
  slot : Nat
  /-- the entry's first slot, and the second of a wide one -/
  entry : Nat
  entry2 : Nat
  /-- the stroke of the event -/
  stroke : Nat
deriving DecidableEq, Repr

/-- A step of re-placement (R159). -/
structure Replacing where
  /-- the layout before the flip: F and E -/
  oldF : Nat
  oldE : Nat
  /-- the next row to walk, and where the walk ends -/
  pos : Nat
  stop : Nat
  /-- locked rows to be revisited -/
  again : List Nat
deriving DecidableEq, Repr

/-- The shared tables (chapter 08). Rows are 512-bit numbers. -/
structure TableUnit where
  /-- rows of the flexible pool -/
  pool : Tab Nat := []
  /-- ternary rows, keyed by slot * 262,144 + row -/
  tern : Tab Nat := []
  groups : Tab Nat := []
  members : Tab Nat := []
  ext : Tab Nat := []
  /-- rows of the extension table granted (R164) -/
  extRows : Nat := 0
  extFail : Bool := false
  rot : Nat := 0
  queue : List LearnEvent := []
  /-- events that have left the queue: they number the waiting ones (R40) -/
  learned : Nat := 0
  raised : List LearnEvent := []
  /-- locked rows, and the stroke at whose beginning each lock is mature (R172) -/
  locks : List (Nat × Nat) := []
  /-- when the next sweep starts, in elapsed time -/
  sweepNext : Option Nat := none
  /-- the start of the last sweep -/
  sweepLast : Nat := 0
  /-- the next row of the sweep in progress, counted within the two regions -/
  sweepPos : Option Nat := none
  /-- the entries hit in the last cycle in which any was, by row and slot, and that cycle (R168, R173) -/
  hits : List (Nat × Nat) := []
  hitCyc : Nat := 0
  /-- AGE_CFG as in force at the last boundary: EN and AGE_10MS -/
  ageOn : Bool := false
  ageEvery : Nat := 0
  replacing : Option Replacing := none
  notices : List Notice := []
  /-- LPM writes that lookups see from the next stroke (R161): row and its old value -/
  lpmOld : List (Nat × Nat) := []
  /-- rows out of use for a row test or for good (R391): table code of R169 and row -/
  outRows : List (Nat × Nat) := []
deriving DecidableEq, Repr

/-- A billet pool (R195 to R201). Pointers are as R196 lays them out. -/
structure Pool where
  /-- billets of the pool -/
  size : Nat := 0
  /-- first billet index never granted: the ring's unused part holds this index and those after it -/
  fresh : Nat := 0
  /-- pointers written back to the ring, oldest first -/
  ring : List Nat := []
  cache : List Nat := []
  /-- requests waiting: requester, and what it is for -/
  waiting : List (Nat × Nat) := []
  /-- requests already counted in BILLET_WAIT -/
  counted : List (Nat × Nat) := []
  /-- the rotating pointers over requesters 0 to 99, for grants and for frees -/
  rot : Nat := 0
  freeRot : Nat := 0
  /-- billets lost to a bad ring pointer -/
  lost : Nat := 0
  /-- grants made in the stroke now running (R200) -/
  grants : Nat := 0
deriving DecidableEq, Repr

/-- A requester that takes many billets of one pool, one after another (R164, R200, R274, R280): how many are still to come, and
whether the request that it now presents has been counted in BILLET_WAIT. -/
structure BulkJob where
  req : Nat
  pool : Nat
  left : Nat
  counted : Bool := false
deriving DecidableEq, Repr

/-- The billet allocator. -/
structure BilletUnit where
  pools : List Pool := [{}, {}, {}, {}]
  /-- the split in force, in 256 MiB units -/
  units : List Nat := [32, 32, 64, 255]
  cfgBad : Bool := false
  /-- billets granted: pointer, and 1 + requester (0: free, the state bit of R195) -/
  out : Tab Nat := []
  /-- requesters that take many billets -/
  jobs : List BulkJob := []
  /-- billets held, keyed by 4 * owner + pool -/
  held : Tab Nat := []
  /-- grants not yet taken up: requester, what it was for, pointer -/
  granted : List (Nat × Nat × Nat) := []
  /-- frees held until accepted: requester and pointer -/
  freeing : List (Nat × Nat) := []
  /-- pointers among them that a fence's discard frees, with the fenced gallery (R31) -/
  discards : List (Nat × Nat) := []
  /-- billets out of use for good (R394) -/
  quarantined : List Nat := []
deriving DecidableEq, Repr

/-- A port's DWRR (R207). -/
structure DwrrSt where
  cur : Nat := 4
  deficit : Tab Int := []
  /-- bit q: queue q has had its quantum in this visit -/
  visited : Nat := 0
deriving DecidableEq, Repr

/-- A gate list in time (R217 to R220). -/
structure GateSt where
  bank : Nat := 0
  pending : Bool := false
  len : Nat := 0
  cycle : Nat := 0
  /-- BASE on the device clock, in 2^-16 ns -/
  base : Nat := 0
  pendLen : Nat := 0
  pendCycle : Nat := 0
  pendBase : Nat := 0
  /-- when the committed list takes over -/
  takeAt : Nat := 0
  commitBad : Bool := false
  neverOpen : Nat := 0
  overrun : Nat := 0
  /-- the gate state after the last edge -/
  gates : Nat := 0xFFFF
deriving DecidableEq, Repr

/-- Schedulers, shapers, gates and meters (chapter 10). Buckets are in units of 2^-16 byte. -/
structure SchedUnit where
  dwrr : Tab DwrrSt := []
  /-- buckets: queues at q, ports at 16,384 + p, groups at 20,480 + g -/
  tokens : Tab Int := []
  /-- the same as at the last boundary, in whole bytes -/
  shown : Tab Int := []
  /-- bit 0: BURST_LOW -/
  burstLow : Tab Nat := []
  /-- shapers whose configuration was written in this stroke -/
  dirty : List Nat := []
  gates : Tab GateSt := []
  /-- meters: Tc at 2m and Tp or Te at 2m + 1, m counted over all galleries -/
  meters : Tab Nat := []
  metersShown : Tab Nat := []
  meterDirty : List Nat := []
deriving DecidableEq, Repr

/-- A drop record or an aggregate record (R289), as bytes. -/
structure DropRec where
  gal : Nat
  code : Nat
  bytes : Bytes
deriving DecidableEq, Repr

/-- Drops of the stroke in progress (R235). -/
structure DropUnit where
  /-- records made in this stroke, by gallery (32: housekeeping) -/
  made : Tab Nat := []
  /-- drops aggregated in this stroke, keyed by 256 * gallery + code -/
  agg : Tab Nat := []
  /-- records waiting for the telemetry packers, oldest first -/
  records : List DropRec := []
deriving DecidableEq, Repr

/-- A key slot (R246, R250). -/
structure KeySlot where
  mat : Option KeyMat := none
  commits : Nat := 0
  /-- the number of its last commit, counting every commit of the device -/
  seq : Nat := 0
  /-- commit points, newest first: cycles from reset, and what the slot held until then -/
  past : List (Nat × Option KeyMat) := []
deriving DecidableEq, Repr

/-- A commit or erase in progress: the slots it reaches, and what they will hold. -/
structure KeyJob where
  slots : List Nat
  mat : Option KeyMat
deriving DecidableEq, Repr

/-- A secure association: what its registers do not hold as plain fields (R251). -/
structure SaSt where
  pn : Nat := 1
  thresh : Bool := false
  exhausted : Bool := false
  /-- the threshold was reached since the last accepted PN write -/
  reached : Bool := false
  /-- the number of commits made in the device before its last accepted PN write (R251) -/
  wrote : Nat := 0
  /-- what PN writes replaced while a frame that started before them is still unfinished, newest first: the number of the INTEG
  write, next PN and EXHAUSTED (R251) -/
  past : List (Nat × Nat × Bool) := []
deriving DecidableEq, Repr

/-- The integrity engines and the key slots (chapter 12). -/
structure IntegUnit where
  /-- keyed by 8192 * gallery + slot; the device slots D0 and D1 are 262,144 and 262,145 -/
  slots : Tab KeySlot := []
  /-- keyed by 8192 * gallery + association -/
  sas : Tab SaSt := []
  job : Option KeyJob := none
  /-- commits made so far -/
  seq : Nat := 0
  /-- writes to INTEG registers so far, and what they replaced while a frame that started before them is still unfinished,
  newest first: the write's number, the register and its old word (R251) -/
  writes : Nat := 0
  past : List (Nat × Nat × Word) := []
deriving DecidableEq, Repr

/-- The servo states of R267. -/
inductive ServoState where
  | free | acquiring | locked | holdover
deriving DecidableEq, Repr

/-- The device clock (R254 to R257). Both counts are in units of 2^-64 ns, so that no adjustment is lost. -/
structure ClockUnit where
  /-- the device clock: seconds, nanoseconds and fraction together -/
  clk : Nat := 0
  /-- the rate-adjusted counter that steps do not move (R257) -/
  stepFree : Nat := 0
  /-- RATE in force, in units of 2^-48 -/
  rate : Int := 0
  /-- a step waits to be made: true for SET, false for ADD -/
  stepBusy : Option Bool := none
  /-- the 10 MHz input is present -/
  ext10m : Bool := false
  /-- the device clock runs from the 10 MHz input, or holds its frequency (R255) -/
  srcExt : Bool := false
deriving DecidableEq, Repr

/-- A Delay_Req that waits for its Delay_Resp: sequenceId, its frame, t3 once it has left, and the time the wait began. -/
structure DreqOpen where
  seq : Nat
  frame : Nat
  t3 : Option Int := none
  since : Nat
deriving DecidableEq, Repr

/-- The servo (R266 to R268). -/
structure ServoUnit where
  state : ServoState := .free
  everLocked : Bool := false
  /-- the loop's integral term, a fractional frequency -/
  integ : Rat := 0
  /-- step-free time of the last accepted sample, in 2^-16 ns, like every time of this unit -/
  lastAt : Option Nat := none
  /-- the loss timer runs from here -/
  lossFrom : Nat := 0
  inLock : Nat := 0
  outLock : Nat := 0
  offset : Int := 0
  /-- path delay of the latest matched exchange, and the m in use -/
  delayM : Option Int := none
  pathM : Int := 0
  /-- the m of the last 16 samples, newest first (R266) -/
  window : List Int := []
  holdRate : Int := 0
  /-- t2 - t1 - c_s of the latest sample -/
  lastForward : Option Int := none
  /-- a two-step Sync waiting for its Follow_Up: sequenceId, t2, correctionField, arrival -/
  syncOpen : Option (Nat × Int × Int × Nat) := none
  dreqs : List DreqOpen := []
  /-- cumulativeScaledRateOffset received with the latest Sync (R265) -/
  cumRate : Int := 0
deriving DecidableEq, Repr

/-- A TIME_TRIG output (R271). -/
structure Trigger where
  armed : Bool := false
  /-- the next pulse, on the device clock, in 2^-16 ns -/
  next : Nat := 0
  /-- pulses given since it was armed -/
  given : Nat := 0
  /-- the committed start: seconds and nanoseconds -/
  startSec : Nat := 0
  startNs : Nat := 0
deriving DecidableEq, Repr

/-- A captured edge: rising or not, and the device clock in 2^-16 ns. -/
structure Capture where
  rising : Bool := true
  at16 : Nat := 0
deriving DecidableEq, Repr

/-- Pulses, triggers and captures (R271, R272). -/
structure PulseUnit where
  /-- level of each PPS output -/
  ppsHigh : List Bool := [false, false]
  /-- when each high PPS output falls, on the step-free counter in 2^-16 ns -/
  ppsFall : List Nat := [0, 0]
  /-- one more than the stroke in which each last rose -/
  ppsRose : List Nat := [0, 0]
  ppsIn : List (Option Capture) := [none, none]
  trig : Tab Trigger := []
  /-- captures of TIME_EVT0 to 3, oldest first, at most 16 each -/
  evt : List (List Capture) := [[], [], [], []]
  evtOvf : List Nat := [0, 0, 0, 0]
  /-- step-free time of the last edge captured on each, in 2^-16 ns -/
  evtLast : List (Option Nat) := [none, none, none, none]
  /-- what each recovered-clock output gives since the last boundary: its lane, and the exponent of its divider; none while it is
  squelched (R270) -/
  rclk : List (Option (Nat × Nat)) := [none, none]
deriving DecidableEq, Repr

/-- The time ledger (R273 to R275). -/
structure LedgerUnit where
  seq : Nat := 0
  /-- the ring in the Lower Hall: ring index and record -/
  ring : Tab Bytes := []
  /-- billets granted at the transition to RUN or DEGRADED (R274) -/
  granted : Bool := false
  stepped : Bool := false
  lastSec : Nat := 0
  /-- the cycle of the last record made, and of the last one written with its ring index (R276) -/
  madeAt : Option Nat := none
  wrote : Option (Nat × Nat) := none
  /-- records made that wait for the time-ledger budget: SEQ and bytes (R38, R274) -/
  waits : List (Nat × Bytes) := []
  /-- exports that wait for the host DMA budget: SEQ and the ring class charged (R275) -/
  exports : List (Nat × Nat) := []
  copyBusy : Bool := false
  /-- the copy in progress: first SEQ, records, host address, ring class charged, records done -/
  copyFrom : Nat := 0
  copyCount : Nat := 0
  copyAddr : Nat := 0
  copyClass : Nat := 0
  copied : Nat := 0
deriving DecidableEq, Repr

/-- A port's timestamp unit: one message count per type, and what falls due when (R264, R260). -/
structure TsuSt where
  seqSync : Nat := 0
  seqDreq : Nat := 0
  syncNext : Option Nat := none
  dreqNext : Option Nat := none
  /-- the last 16 looped one-way delays, forward and back, in ps -/
  loopFwd : List Int := []
  loopRev : List Int := []
  /-- clock-recovery phase correction of the lane at its last lock, in 2^-16 ns -/
  phase : Int := 0
deriving DecidableEq, Repr

/-- A flow record (R281); times in 2^-16 ns of the device clock. -/
structure FlowRec where
  key : Nat := 0
  inPort : Nat := 0
  iclass : Nat := 0
  /-- 1 live, 3 new (R281); a free or closed record is not listed -/
  st : Nat := 3
  egPort : Nat := 0
  queue : Nat := 0
  /-- the interval has an egress port already -/
  hasEg : Bool := false
  multiEg : Bool := false
  sat : Bool := false
  pkts : Nat := 0
  octets : Nat := 0
  first : Option Nat := none
  last : Nat := 0
  hist : List Nat := [0, 0, 0, 0, 0, 0, 0, 0]
  latMax : Nat := 0
  qpeak : Nat := 0
  drops : Nat := 0
  lastDrop : Nat := 0
deriving DecidableEq, Repr

/-- What the end of a packet's life tells its record (R277, R282). -/
structure FlowUpd where
  inPort : Nat
  key : Nat
  iclass : Nat
  gal : Nat
  len : Nat
  tsClk : Nat
  /-- residence time of a transmitted packet, in 2^-16 ns -/
  res : Option Nat := none
  /-- egress port and queue, and the most that a queue admitting it held -/
  eg : Option (Nat × Nat) := none
  held : Option Nat := none
  drop : Option Nat := none
  /-- the cycle in which the life ended -/
  at_ : Nat := 0
deriving DecidableEq, Repr

/-- A port's overflow bucket (R285): NOT_TRACKED, BUCKET_FULL, QUEUE_FULL, NO_STORAGE, and the record. -/
structure OverflowRec where
  counts : List Nat := [0, 0, 0, 0]
  body : FlowRec := {}
deriving DecidableEq, Repr

/-- An open datagram of a collector: its records have one type (R290). -/
structure Datagram where
  id : Nat
  /-- the telemetry sequencer that packs it (R292) -/
  packer : Nat
  coll : Nat
  rtype : Nat
  records : List Bytes := []
  /-- when its first record came -/
  since : Nat
  /-- D1's key as latched at the opening (R291) -/
  key : Option Bytes := none
deriving DecidableEq, Repr

/-- Telemetry (chapter 14). -/
structure TelemUnit where
  /-- records by bucket, at most four in each -/
  buckets : Tab (List FlowRec) := []
  live : Nat := 0
  /-- the Lower Hall holds the table's billets -/
  granted : Bool := false
  resizing : Bool := false
  /-- the billets of a table that a flip has left, held until its export is over (R284) -/
  oldBillets : List Nat := []
  /-- packer and record of a table left by a flip, waiting for export (R284) -/
  old : List (Nat × FlowRec) := []
  /-- that table's records in the profile it was built for, for the billets it gives back -/
  oldSize : Nat := 0
  overflow : Tab OverflowRec := []
  /-- the hot cache: cached buckets of each set with their dirty bits, latest updated first (R280) -/
  cache : Tab (List (Nat × Bool)) := []
  misses : List (Nat × FlowUpd) := []
  /-- the bucket in which the last free record was taken last, and the update that took it (R425) -/
  lastNew : Option (Nat × FlowUpd) := none
  /-- the next place of the sweep, and when the sweep began -/
  sweep : Nat := 0
  sweepFrom : Nat := 0
  /-- places that a flush has still to pass, and one asked for that begins at the boundary -/
  flushLeft : Nat := 0
  flushAsk : Bool := false
  open_ : List Datagram := []
  nextDgram : Nat := 0
deriving DecidableEq, Repr

/-- An element's accumulator (R299, R300): the exact sum in units of the type's smallest step, what special values were
met, and the extreme so far. -/
structure ElemAcc where
  sum : Int := 0
  nan : Bool := false
  posInf : Bool := false
  negInf : Bool := false
  /-- every contribution was minus zero -/
  negZero : Bool := true
  best : Option Nat := none
deriving DecidableEq, Repr

/-- The states of a chunk (R307, R308). -/
inductive ChunkState where
  | gathering
  /-- every member has contributed, and the result waits for its issue slots (R38, R296) -/
  | forming
  | awaitParent
deriving DecidableEq, Repr

/-- A chunk that a group holds. -/
structure Chunk where
  seq : Nat
  st : ChunkState := .gathering
  /-- LENGTH of its first contribution -/
  len : Nat
  /-- bit m: member m has contributed -/
  bits : Nat := 0
  folded : Nat := 0
  acc : List ElemAcc := []
  /-- a contribution came with SAT = 1 -/
  satIn : Bool := false
  /-- the result as formed -/
  payload : Bytes := []
  sat : Bool := false
  /-- NACKs or resends sent -/
  tries : Nat := 0
  /-- the stroke in which its timer was armed, and the one at whose start it matures (R41, R309) -/
  armed : Nat := 0
  due : Nat := 0
deriving DecidableEq, Repr

/-- A retained result (R312). -/
structure Retained where
  seq : Nat
  payload : Bytes
  sat : Bool
  folded : Nat
  billet : Nat
  /-- when it expires, and when its chunk was released, in elapsed time -/
  dies : Nat
  since : Nat
  /-- late contributions that came before it expired and wait to be served from it (R42) -/
  serves : List Nat := []
deriving DecidableEq, Repr

/-- A reduction group's state (R304 to R312); its descriptor is in the register file. -/
structure RedGroup where
  valid : Bool := false
  /-- an enable or a disable waits for the boundary -/
  want : Option Bool := none
  wantSrc : Source := .pcie
  low : Nat := 0
  /-- chunks above LOW that are released -/
  released : List Nat := []
  chunks : List Chunk := []
  /-- granules reserved -/
  gran : Nat := 0
  noRoom : Bool := false
  badCfg : Bool := false
  /-- its index page -/
  index : Option Nat := none
  /-- retained results, by index entry -/
  kept : List (Nat × Retained) := []
deriving DecidableEq, Repr

/-- A result in an anvil's staging, on its way to a billet (R312). -/
structure Staged where
  tag : Nat
  anvil : Nat
  group : Nat
  seq : Nat
  payload : Bytes
  sat : Bool
  folded : Nat
  dies : Nat
  since : Nat
deriving DecidableEq, Repr

/-- The anvils (chapter 15). -/
structure AnvilUnit where
  groups : Tab RedGroup := []
  staged : List Staged := []
  nextTag : Nat := 0
  /-- every anvil was held at the Damper's floor in the last stroke (R313) -/
  floor : Bool := false
deriving DecidableEq, Repr

/-- The states of a sequencer (R329). -/
inductive SeqState where
  | halted | running | waiting | fault
deriving DecidableEq, Repr

/-- A bus access under way (R321): a load into a register, a store, or a masked store. -/
inductive SeqBus where
  | ld (addr dst : Nat)
  | st (addr val : Nat)
  | rmw (addr val mask : Nat)
deriving DecidableEq, Repr

/-- A Lower Hall transfer under way (R321): towards the scratch memory or away from it, its address and units. -/
structure SeqLh where
  toScratch : Bool
  addr : Nat
  ofs : Nat
  units : Nat
  /-- the budget it is charged to: activity and instance -/
  act : Nat
  inst : Nat
deriving DecidableEq, Repr

/-- A sequencer (R318). -/
structure SeqSt where
  st : SeqState := .halted
  pc : Nat := 0
  /-- G0 to G31 -/
  g : Tab Nat := []
  z : Bool := false
  n : Bool := false
  c : Bool := false
  v : Bool := false
  /-- the event queue, oldest first -/
  evq : List Nat := []
  /-- SQ_MBOX_IN holds an unread value -/
  mbox : Bool := false
  faultAddr : Nat := 0
  faultCode : Nat := 0
  /-- the stroke in which the word that waits was issued, and the one at whose start its timer matures -/
  issued : Nat := 0
  due : Option Nat := none
  /-- the cycle of the last issue: one microword a cycle (R318) -/
  issuedAt : Option Nat := none
  /-- the condition of the word that waits held in a cycle before its timer matured (R320) -/
  held : Bool := false
  bus : Option SeqBus := none
  /-- Lower Hall transfers under way, in order -/
  lh : List SeqLh := []
  lhDone : Bool := false
  /-- 64-byte units of scratch memory that transfers have filled, by offset in units: one more than the unit's 512 bits -/
  scratch : Tab Nat := []
  /-- the last event that found the queue full, and its cycle: a POP in the same cycle makes room for it (R330) -/
  lost : Option (Nat × Nat) := none
  /-- words of its control stores with an uncorrectable error: bank and address (R327) -/
  bad : List (Nat × Nat) := []
  /-- RESTART and STOP wait for the boundary -/
  restart : Bool := false
  stop : Bool := false
deriving DecidableEq, Repr

/-- A bank of a role's control stores (R318, R326). State 0 EMPTY, 1 LOADING, 2 VALID, 3 INVALID. -/
structure SeqBank where
  st : Nat := 0
  words : Tab Nat := []
  entry : Nat := 0
  svn : Nat := 0
  /-- the digest of the image, 48 bytes -/
  digest : Bytes := []
deriving DecidableEq, Repr

/-- An image load in progress (R326). -/
structure SeqLoad where
  addr : Nat
  len : Nat
  cls : Nat
  /-- bytes already charged to the host DMA budget -/
  paid : Nat := 0
  /-- the read of its header, and of its body, has met its completion timeout once -/
  late : Bool := false
  lateBody : Bool := false
  /-- such a read is issued again from here on -/
  retryAt : Option Nat := none
deriving DecidableEq, Repr

/-- A role (R317). -/
structure SeqRole where
  /-- the active bank: 0 for A, 1 for B -/
  active : Nat := 0
  banks : List SeqBank := [{}, {}]
  result : Nat := 0
  load : Option SeqLoad := none
  /-- a switch is requested, and is abandoned at the start of this stroke -/
  switchBy : Option Nat := none
deriving DecidableEq, Repr

/-- The Ryinapor sequencers (chapter 16). -/
structure SeqUnit where
  seqs : Tab SeqSt := []
  /-- roles 1 to 5 -/
  roles : Tab SeqRole := []
  /-- what sequencers stored last to their units' bus addresses: role * 2^32 + address, and the word (R321) -/
  stores : Tab Nat := []
  /-- 64-byte units of the Lower Hall that sequencers wrote, by address in units: one more than the unit's 512 bits (R321) -/
  lhMem : Tab Nat := []
deriving DecidableEq, Repr

/-- A trapped packet on its way to a host ring (R341). -/
structure TrapPkt where
  frame : Nat
  ring : Nat
  cause : Nat
  phv : Phv
  pass : Nat
  stage : Nat := 0xFF
  actIx : Nat := 0
  gal : Nat
  /-- the stroke of the trap -/
  stroke : Nat
deriving DecidableEq, Repr

/-- The states of a ring (R336). -/
inductive RingState where
  | idle | polling | active | halted
deriving DecidableEq, Repr

/-- An RX or NOTIFY entry held ahead of need (R336): its number, buffer and size in bytes. -/
structure HeldEntry where
  num : Nat
  addr : Nat
  size : Nat
deriving DecidableEq, Repr

/-- A table-DMA entry that has been taken (R342), with the rows done of it. -/
structure TdmaJob where
  num : Nat
  op : Nat
  reqLock : Bool
  slot : Nat
  table : Nat
  row : Nat
  count : Nat
  addr : Nat
  next : Nat := 0
deriving DecidableEq, Repr

/-- A ring (R335 to R347): what its window does not hold as plain fields. -/
structure RingSt where
  st : RingState := .idle
  /-- consumer count: the next entry to read -/
  k : Nat := 0
  /-- every entry before this number is done (R337) -/
  done : Nat := 0
  code : Nat := 0
  errIndex : Nat := 0
  errRow : Nat := 0
  /-- the stroke of the enable; polls fall every POLL_INTERVAL strokes from the boundary that ends it -/
  base : Nat := 0
  /-- the next stroke with a poll, and a poll's read is on its way -/
  pollAt : Nat := 0
  polled : Bool := false
  held : List HeldEntry := []
  jobs : List TdmaJob := []
  /-- bytes already charged to the DMA budget of the entry read in progress with its frame, and of the packet, notice or row (R38) -/
  paid : Nat := 0
  paidOut : Nat := 0
  /-- a read has met its completion timeout once: of an entry, of its frame, and of a table row -/
  lateEntry : Bool := false
  lateData : Bool := false
  lateRow : Bool := false
  /-- such a read is issued again from here on -/
  retryAt : Option Nat := none
  /-- a halt that waits for the entries taken before it: code and entry number -/
  halting : Option (Nat × Nat) := none
  /-- EN was cleared and entries taken are not done yet -/
  stopping : Bool := false
  /-- RESUME was written: the entry is read again after the next boundary -/
  resume : Bool := false
  /-- the head is to be written at the boundary, and the vector signalled whatever the batch -/
  headDue : Bool := false
  haltIrq : Bool := false
  /-- completions since the last signal, and a return to POLLING with some -/
  fresh : Nat := 0
  wentIdle : Bool := false
deriving DecidableEq, Repr

/-- The host port and its rings (chapter 17). -/
structure HostUnit where
  traps : List TrapPkt := []
  rings : Tab RingSt := []
  /-- bit f: Bus Master Enable of function f is 0 -/
  busOff : Nat := 0
  /-- bit f: VF f is enabled; and NumVFs of the SR-IOV capability, with which they are -/
  vfs : Nat := 0
  numVfs : Nat := 0
  /-- functions whose Advanced Error Reporting shows a completion timeout (R398) -/
  aer : List Nat := []
  /-- entries of the MSI-X table whose mask bit is clear, and those whose message is held (R333, R356) -/
  unmasked : List Nat := []
  held : List Nat := []
deriving DecidableEq, Repr

/-- A sample record (R368): its six words, and its packet's frame as in `EvPkt.parsing`. -/
structure Sample where
  words : List Nat
  parsing : Nat := 0
deriving DecidableEq, Repr

/-- A wrap of the present cycle (R367, R368): the cycle, the counter's window, OVF and IRQ_STAT.SAMPLE as they stood before it, and
what it made: 0 a record, 1 a record that waits, 2 a record lost, 3 none. -/
structure PcWrap where
  at_ : Nat
  win : Nat
  ovf : Bool
  irq : Bool
  made : Nat
deriving DecidableEq, Repr

/-- What an occurrence says of its packet (R364). Origin 7: no packet. -/
structure EvPkt where
  origin : Nat := 7
  iclass : Nat := 0
  inPort : Nat := 0
  pass : Nat := 0
  h0 : Nat := 0
  stamp : Word := 0
  /-- the function that owns its ring, for packets of the host and host DMA -/
  fn : Option Nat := none
  /-- one more than the id of a frame whose H0 the parse in progress has still to give, or 0 -/
  parsing : Nat := 0
deriving DecidableEq, Repr

/-- A sample that waits for the next header (R368). -/
structure Skid where
  gal : Nat
  counter : Nat
  /-- stroke and cycle of the wrap -/
  stroke : Nat
  cyc : Nat
deriving DecidableEq, Repr

/-- Programmable counters (chapter 19), keyed by the address of their window. -/
structure PerfUnit where
  val : Tab Nat := []
  /-- the same as the last boundary found them, and their snapshot copies (R54) -/
  edge : Tab Nat := []
  snap : Tab Nat := []
  /-- windows whose OVF the last boundary, and the last snapshot, found set -/
  edgeOvf : List Nat := []
  snapOvf : List Nat := []
  /-- cycles of this stroke already added to a counter of CYCLES -/
  cycDone : Tab Nat := []
  /-- what counters have added in the latest cycle of counting: the cycle, the counter, the amount and the packet (R367) -/
  added : List (Nat × Nat × Nat × Option EvPkt) := []
  /-- the wraps of that cycle -/
  wraps : List PcWrap := []
  /-- the counter whose value the write being carried out has committed -/
  committed : Option Nat := none
  /-- the first header that each gallery accepted in its latest cycle of acceptance: gallery, cycle and packet (R368) -/
  firstHdr : List (Nat × Nat × EvPkt) := []
  /-- one more than the cycle of a counter's last sample (R368) -/
  sampled : Tab Nat := []
  /-- sample FIFOs by gallery, oldest first -/
  fifo : Tab (List Sample) := []
  lost : Tab Nat := []
  skids : List Skid := []
  /-- pages whose CLR_ALL waits for the boundary, by their base -/
  clearAll : List Nat := []
deriving DecidableEq, Repr

/-- The Damper, quench and the core clock (chapter 20). -/
structure DamperUnit where
  /-- the core runs at 1.600 GHz -/
  slow : Bool := false
  /-- budgets the present level allows (R378) -/
  anvilSlots : Nat := 192
  seqSlots : Nat := 256
  stairSlots : Nat := 128
  /-- ingress pacing holds every lossless class at XOFF (R383) -/
  paced : Bool := false
  level : Nat := 0
  /-- the demands of CAP_WINDOW, VR_THROTTLE and THERMAL (R380) -/
  capD : Nat := 0
  vrD : Nat := 0
  thermD : Nat := 0
  /-- VR_THROTTLE_N is low; and it has been since the last boundary (R380) -/
  vrLow : Bool := false
  vrSeen : Bool := false
  /-- a quench is in force; one was in this stroke; and the stroke that ended last held none (R385, R386) -/
  quench : Bool := false
  quenched : Bool := false
  calm : Bool := true
  /-- from when the time of the quench in force is still to be counted -/
  quenchFrom : Nat := 0
  /-- the core cycle, from the release of reset, in which the latest quench began (R385) -/
  quenchCyc : Nat := 0
  /-- the strokes of the last 2 ms, oldest first: length in 2^-16 ns, and power in mW (R377) -/
  window : List (Nat × Nat) := []
  /-- since when every stroke's power has been low enough for a release step -/
  lowFrom : Option Nat := none
  unreachable : Bool := false
  windowW : Nat := 0
  floorW : Nat := 0
  peakW : Nat := 0
  tj : Nat := 0
  tjPeak : Nat := 0
  sensor : Nat := 0
  /-- the target written, and the last readback (R375) -/
  vTarget : Nat := 0
  vRead : Nat := 0
  iRead : Nat := 0
  avsErr : Bool := false
  /-- since when the readback has been more than 25 mV low, and since when an up-step has waited for it -/
  vLow : Option Nat := none
  upFrom : Option Nat := none
  /-- the readback has reached the target of that up-step (R376) -/
  upOk : Bool := false
  /-- time of each cause that DMP_TIME does not show yet, in 2^-16 ns -/
  spent : List Nat := [0, 0, 0, 0, 0]
  /-- when the next thermal step and pace step fall -/
  thermNext : Nat := 65536000000
  paceNext : Nat := 65536000000
  paceLevel : Nat := 0
  /-- the last pacing period, counted on the device clock, and when its XOFF ends -/
  pacePeriod : Option Nat := none
  paceUntil : Nat := 0
deriving DecidableEq, Repr

/-- A place that faults occur at: the unit code of R401, the instance and the address. -/
structure FaultPlace where
  unit : Nat
  inst : Nat
  addr : Nat
deriving DecidableEq, Repr

/-- The history of a place: the device-clock times of its last two occurrences (R390). -/
structure FaultHist where
  place : FaultPlace
  times : List Nat
deriving DecidableEq, Repr

/-- An entry of the retirement record (R399). -/
structure RecEntry where
  kind : Nat
  unit : Nat
  inst : Nat
  addr : Nat
  spare : Nat := 0xFFFF
  sec : Nat
deriving DecidableEq, Repr

/-- A row that is being copied to a spare row; `left` is 0 once the copy is complete (R393). -/
structure RowRepair where
  place : FaultPlace
  spare : Nat
deriving DecidableEq, Repr

/-- Faults, retirement and availability (chapter 21). -/
structure RasUnit where
  /-- unread log entries, oldest first, 32 bytes each -/
  log : List Bytes := []
  logOvf : Nat := 0
  /-- the entry that the last read of LOG[0] removed -/
  logLatch : Bytes := []
  hist : List FaultHist := []
  /-- the words corrected in the latest cycle that corrected any, and that cycle (R330, R404) -/
  fixed : List FaultPlace × Nat := ([], 0)
  entries : List RecEntry := []
  /-- the stroke of the latest retirement, and how many entries are of that stroke (R404) -/
  newest : Nat × Nat := (0, 0)
  full : Bool := false
  noneValid : Bool := false
  /-- the copies in the flash, 4 KiB each, none where it is erased or torn; and which is written next (R399) -/
  copies : List Bytes := [[], []]
  next : Nat := 0
  /-- the record has changed and is to be written by this time -/
  writeBy : Option Nat := none
  fatal : Bool := false
  /-- fatal fault found, not yet acted on at the boundary -/
  fatalPending : Bool := false
  /-- galleries that the record names, to be fenced at GO -/
  fenceAtGo : Nat := 0
  /-- the fatal fault found takes effect at this boundary (R397) -/
  fatalDue : Bool := false
  /-- since when forwarding is interrupted, and up to when what is over has been counted (R403) -/
  intFrom : Option Nat := none
  intTo : Nat := 0
  /-- galleries whose watchdog has asked for the fence that is still to come (R396, R403) -/
  stuck : List Nat := []
  /-- spare rows used, by array (unit, instance and block) -/
  spares : Tab Nat := []
  testing : List FaultPlace := []
  repairs : List RowRepair := []
  /-- rows switched to a spare row, and that spare -/
  spared : List RowRepair := []
  /-- configuration rows out of service, which read as zero -/
  dead : List FaultPlace := []
  /-- configuration words that read as zero until they are rewritten -/
  poison : List FaultPlace := []
  /-- galleries with headers waiting that start no pass, and UP ports with an eligible queue that start no frame: for how many
  strokes, and from when -/
  stallGal : Tab (Nat × Nat) := []
  stallPort : Tab (Nat × Nat) := []
  /-- Lower Hall units whose billets are out of use (R394) -/
  lhQuar : List Nat := []
  /-- the next Upper Hall row, Lower Hall unit, shared-table row and configuration row that sequencer 15 scrubs, and the next word
  of each control-store bank that its own scrubber reads (R327, R389) -/
  scrubRow : Nat := 0
  scrubUnit : Nat := 0
  scrubTable : Nat := 0
  scrubWord : Nat := 0
  scrubStore : Nat := 0
deriving DecidableEq, Repr

/-- A host download of the boot image in progress (R415). -/
structure BootDl where
  /-- the ring class whose budget it is charged to: not stated, so a free one -/
  cls : Nat
  paid : Nat := 0
  late : Bool := false
  retryAt : Option Nat := none
deriving DecidableEq, Repr

/-- Reset and boot (chapter 22). -/
structure BootUnit where
  /-- PERST_N is low -/
  perstLow : Bool := true
  /-- a register-made reset holds RESET -/
  hold : Bool := false
  /-- RESET_CTRL writes that wait for the boundary -/
  cold : Bool := false
  warm : Bool := false
  /-- the boot source sampled from GPIO1 and GPIO0 -/
  strap : Nat := 0
  /-- a flash read of this BOOT has yielded MAGIC: the read sampling point is set (R436) -/
  sampling : Bool := false
  /-- sources tried so far in this BOOT -/
  tried : Nat := 0
  from_ : Nat := 0
  result : Nat := 0
  missing : Nat := 0
  wasWarm : Bool := false
  imageLocked : Bool := false
  svn : Nat := 0
  /-- the verified image: its register list, and LOCK_AT_CONFIG -/
  ready : Option (List (Nat × Nat) × Bool) := none
  dl : Option BootDl := none
deriving DecidableEq, Repr

/-- The JTAG instructions of R437. -/
inductive JtagInstr where
  | idcode | bypass | sample | extest | clamp | highz
deriving DecidableEq, Repr

/-- The management balls: SMBus and JTAG (R435, R437). -/
structure MgmtUnit where
  /-- SMB_ADDR1 and SMB_ADDR0 as sampled when the device left OFF -/
  smbStrap : Nat := 0
  /-- the BAR0 offset that the next SMBus read is made at -/
  smbAddr : Word := 0
  /-- the instruction in the TAP's instruction register -/
  jtag : JtagInstr := .idcode
  /-- what the selected data register captured: the identification code, the ball levels, or the bypass register's 0 -/
  shift : Nat := 0x10204D2B
  /-- the levels preloaded into the boundary-scan chain -/
  preload : BallLevels := 0
  /-- TRST_N is low (it is pulled down), and holds the TAP in Test-Logic-Reset -/
  trstLow : Bool := true
deriving DecidableEq, Repr

/-- The LX204, unit by unit. -/
structure Device where
  dev : DevCtl := {}
  stroke : StrokeCtl := {}
  file : RegFile := {}
  gen : GenUnit := {}
  snap : SnapUnit := {}
  budget : BudgetUnit := {}
  profile : ProfileUnit := {}
  lane : LaneUnit := {}
  ports : Tab PortSt := []
  fft : FftUnit := {}
  pkt : PacketUnit := {}
  hall : HallUnit := {}
  table : TableUnit := {}
  billet : BilletUnit := {}
  sched : SchedUnit := {}
  drops : DropUnit := {}
  clock : ClockUnit := {}
  servo : ServoUnit := {}
  pulse : PulseUnit := {}
  ledger : LedgerUnit := {}
  tsu : Tab TsuSt := []
  damper : DamperUnit := {}
  telem : TelemUnit := {}
  integ : IntegUnit := {}
  host : HostUnit := {}
  perf : PerfUnit := {}
  anvil : AnvilUnit := {}
  ras : RasUnit := {}
  seq : SeqUnit := {}
  boot : BootUnit := {}
  mgmt : MgmtUnit := {}
  /-- everything sent out so far, oldest first: the model's own record -/
  sent : List Output := []
  /-- the next free value of Config: the model's own counter -/
  freeCtr : Nat := 0
deriving DecidableEq, Repr

/-- The machine: the device, and the commands that wait, first in, first out. -/
structure State where
  dev : Device
  pending : List Sys2Proof.Instr
deriving DecidableEq, Repr

/-- Right after power-up: every unit at its reset value, in device state RESET (R25, R29), no command waiting. -/
def State.reset : State := { dev := {}, pending := [] }

/-- Why a step stops with a fault. No command of this model raises one: the LX204 reports errors in its registers. -/
inductive Fault where
  /-- raised by no meaning; kept so that the type is not empty. Safe. -/
  | none
deriving DecidableEq, Repr

/-- Why a command has no outcome in the model. -/
inductive Refusal where
  /-- raised by a dispatch arm whose command has no meaning yet; safe, since the machine stops -/
  | notModelled (mnemonic : String)
  /-- raised by every meaning for a command with an operand that names nothing: the spec has no such port, lane, ring or cycle
  (WellFormed.lean); safe, since the machine stops -/
  | noSuchCommand
deriving DecidableEq, Repr

/-- The outcome type of every meaning. -/
abbrev Result := Host.Outcome State Fault Refusal

end Sys2Proof.Machine
end

