-- ==== Sys2Proof/Machine/Codes.lean ====
section
/-! DEFINITION. The codes by which registers show the states of the units. -/

namespace Sys2Proof.Machine

/-- The encodings of R25 (OFF cannot be read). -/
def DevState.code : DevState → Nat
  | .off => 0 | .reset => 1 | .boot => 2 | .config => 3 | .run => 4 | .degraded => 5 | .thermal => 6

/-- The code of a GenState. -/
def GenState.code : GenState → Nat
  | .steady => 0 | .pending => 1 | .draining => 2 | .resync => 3

/-- The codes of R76. -/
def LaneState.code : LaneState → Nat
  | .disabled => 0 | .waitSignal => 1 | .an => 2 | .train => 3 | .align => 4 | .up => 5
  | .retrain => 6 | .dormant => 7 | .test => 8 | .retired => 9 | .faultTx => 10

/-- The code of a LinkState. -/
def LinkState.code : LinkState → Nat
  | .down => 0 | .clockLock => 1 | .deskew => 2 | .laneTest => 3 | .up => 4

/-- The code of a DownReason. -/
def DownReason.code : DownReason → Nat
  | .none => 0 | .disabled => 1 | .bringup => 2 | .localFault => 3 | .remoteFault => 4 | .laneRetired => 5

/-- The code of a ServoState. -/
def ServoState.code : ServoState → Nat
  | .free => 0 | .acquiring => 1 | .locked => 2 | .holdover => 3

/-- The code of a SeqState. -/
def SeqState.code : SeqState → Nat
  | .halted => 0 | .running => 1 | .waiting => 2 | .fault => 3

/-- The code of a RingState. -/
def RingState.code : RingState → Nat
  | .idle => 0 | .polling => 1 | .active => 2 | .halted => 3

end Sys2Proof.Machine
end

