-- ==== Sys2Proof/Machine/Profile.lean ====
section
/-! DEFINITION. The profile tables: path and size settings (R56), the flexible pool's split (R58), the Upper Hall's
division (R59) and the budgets per stroke (R61 to R63). -/

namespace Sys2Proof.Machine

/-- Element `p` of a table over P0 to P7. -/
def ofProfile (l : List Nat) (p : Nat) : Nat := l.getD p 0

/-- F: blocks of the flow-key region (R58). -/
def profF (p : Nat) : Nat := ofProfile [2, 2, 2, 2, 2, 2, 4, 2] p
/-- E: blocks of the EM (R58). -/
def profE (p : Nat) : Nat := ofProfile [12, 8, 12, 12, 12, 14, 16, 12] p
/-- Reserved minima, in cells (R59). -/
def profMinima (p : Nat) : Nat := ofProfile [196608, 131072, 196608, 196608, 262144, 196608, 196608, 196608] p
/-- Headroom pool, in cells (R59). -/
def profHeadroom (p : Nat) : Nat := ofProfile [131072, 65536, 131072, 393216, 131072, 196608, 131072, 131072] p
/-- Shared pool with every bank healthy, in cells (R59). -/
def profShared (p : Nat) : Nat :=
  ofProfile [1212416, 1343488, 1212416, 950272, 1146880, 1146880, 1212416, 1212416] p
/-- Flow-state records (R56). -/
def profFlows (p : Nat) : Nat := ofProfile [1048576, 131072, 1048576, 1048576, 1048576, 1048576, 4194304, 262144] p
/-- Lossless classes per port (R56). -/
def profLossless (p : Nat) : Nat := if p = 3 then 4 else 2
/-- Parse window in bytes (R56, R111). -/
def profWindow (p : Nat) : Nat := if p = 1 then 256 else 384
/-- The profile allows spill at all (R56, R62). -/
def profSpill (p : Nat) : Bool := p != 1
/-- A queue may spill: SPILL_EN, forced to 1 in P2 and to 0 in P1 (R190). -/
def spillEnabled (p : Nat) (en : Bool) : Bool := if p = 1 then false else if p = 2 then true else en
/-- Records per stroke a profile caps a gallery's drop records at (R235). -/
def profDropCap (p : Nat) : Nat := if p = 6 then 1024 else 64
/-- The core clock of the profile is 1.600 GHz (R56). -/
def profSlow (p : Nat) : Bool := p == 7

/-- The profile's budget of an activity and instance per stroke (R37, R61 to R63); none where the ID or the instance
does not exist. -/
def profBudget (p act inst : Nat) : Option Nat :=
  match act with
  | 0x01 => if inst < 32 then some 1024 else none
  | 0x02 => if inst < 32 then some (ofProfile [128, 64, 128, 128, 128, 192, 192, 128] p) else none
  | 0x03 => if inst < 160 then some ([3072, 1024, 2048, 1024, 256].getD (inst % 5) 0) else none
  | 0x04 => if inst < 32 then some 1152 else none
  | 0x05 => if inst < 32 then some 1280 else none
  | 0x06 => if inst < 64 then some (ofProfile [64, 0, 125, 64, 64, 32, 48, 32] p) else none
  | 0x07 => if inst < 32 then some (ofProfile [16, 16, 8, 16, 16, 16, 32, 16] p) else none
  | 0x08 => if inst < 1 then some (ofProfile [512, 512, 256, 512, 512, 256, 2048, 512] p) else none
  | 0x09 => if inst < 64 then some (ofProfile [16, 16, 8, 16, 16, 96, 16, 4] p) else none
  | 0x0A => if inst < 1 then some 4 else none
  | 0x0B => if inst < 1 then some (ofProfile [512, 256, 256, 512, 512, 256, 1024, 512] p) else none
  | 0x0C => if inst < 1 then some 64 else none
  | 0x0D => if inst < 64 then some (ofProfile [192, 128, 128, 192, 128, 256, 128, 64] p) else none
  | 0x0E => if inst < 8 then some 1024 else none
  | 0x0F => if inst < 16 then some 256 else none
  | 0x10 => if inst < 1 then some 128 else none
  | 0x11 => if inst < 1 then some 256 else none
  | 0x12 => if inst < 1 then some 64 else none
  | _ => none

end Sys2Proof.Machine
end

