-- ==== Sys2Proof/Machine/Ops.lean ====
section
/-! DEFINITION. The named operations every family uses: registers, counters, page events, errors, free values, time and
budgets. -/

namespace Sys2Proof.Machine

-- Time of the present command ---------------------------------------------------------------------------------------

/-- The number of the stroke now running, counted on over every wrap of the 64-bit counter: what a timer of strokes is compared
with, so that it matures as R12 and R41 state. Its low 64 bits are the number that R36 shows. -/
def Device.strokeNo (d : Device) : Nat := d.stroke.wraps * 2 ^ 64 + d.stroke.num.toNat

/-- The cycles from the release of reset to the present command. -/
def Device.absCyc (d : Device) : Nat := d.strokeNo * 256 + d.stroke.cyc

-- Registers --------------------------------------------------------------------------------------------------------

/-- A register as software reads it. -/
def Device.reg (d : Device) (a : Nat) : Word := tabGet regReset d.file.regs a

/-- A register's value in force: what it held before a write of this stroke whose change waits for the boundary. -/
def Device.cfg (d : Device) (a : Nat) : Word := (assoc d.file.held a).getD (d.reg a)

/-- The device changes a register's value in force; a write that waits for the boundary still waits. -/
def Device.setCfg (d : Device) (a : Nat) (v : Word) : Device :=
  if (assoc d.file.held a).isSome then { d with file := { d.file with held := assocSet d.file.held a v } }
  else { d with file := { d.file with regs := tabSet regReset d.file.regs a v } }

/-- Store a register. -/
def Device.setReg (d : Device) (a : Nat) (v : Word) : Device :=
  { d with file := { d.file with regs := tabSet regReset d.file.regs a v } }

/-- Store a register whose change takes effect at the next boundary: the value in force is kept until then. -/
def Device.setRegHeld (d : Device) (a : Nat) (v : Word) : Device :=
  { d with file := { d.file with
      held := if (assoc d.file.held a).isSome then d.file.held else (a, d.reg a) :: d.file.held
      regs := tabSet regReset d.file.regs a v } }

/-- A field in force. -/
def Device.fld (d : Device) (a : Nat) (f : Fld) : Nat := f.get (d.cfg a)

/-- A one-bit field in force. -/
def Device.flag (d : Device) (a : Nat) (f : Fld) : Bool := d.fld a f == 1

/-- Store one field of a register. -/
def Device.setFld (d : Device) (a : Nat) (f : Fld) (n : Nat) : Device := d.setReg a (f.put (d.reg a) n)

/-- A 64-bit pair in force (R11). -/
def Device.pair (d : Device) (lo hi : Nat) : Nat := (d.cfg hi).toNat * 2 ^ 32 + (d.cfg lo).toNat

/-- Key of a register banked behind a selector. -/
def banked (a sel : Nat) : Nat := a + 0x10000000 * (1 + sel)

-- Counters ---------------------------------------------------------------------------------------------------------

/-- A 64-bit counter, by the address of its LO half. -/
def Device.cnt (d : Device) (a : Nat) : Nat := tnat d.file.cnt a

/-- Add to a 64-bit counter, which wraps. -/
def Device.countN (d : Device) (a n : Nat) : Device :=
  { d with file := { d.file with cnt := tnatSet d.file.cnt a ((tnat d.file.cnt a + n) % 2 ^ 64) } }

/-- Add one to a 64-bit counter. -/
def Device.count (d : Device) (a : Nat) : Device := d.countN a 1

/-- Take back one that an event of the same cycle has undone. -/
def Device.uncount (d : Device) (a : Nat) : Device :=
  { d with file := { d.file with cnt := tnatSet d.file.cnt a ((tnat d.file.cnt a + (2 ^ 64 - 1)) % 2 ^ 64) } }

/-- Add one to a saturating counter held in a register field. -/
def Device.countSat (d : Device) (a : Nat) (f : Fld) : Device :=
  let n := f.get (d.reg a)
  d.setFld a f (if n + 1 < 2 ^ f.w then n + 1 else n)

-- Page events (R354 to R361) ---------------------------------------------------------------------------------------

/-- The base address of a page by its index (R351). -/
def pageBase (ix : Nat) : Nat := ix * 0x10000

/-- Base of gallery `n`'s sub-page `s` (R351). -/
def galBase (n s : Nat) : Nat := 0x1000000 + n * 0x100000 + s * 0x10000

/-- A page is pending while IRQ_STAT and not IRQ_MASK is not 0 (R356). -/
def Device.pagePending (d : Device) (base : Nat) : Bool :=
  ((d.reg (base + 0x10)) &&& ~~~ (d.reg (base + 0x14))) != 0#32

/-- The hardware sets the W1C bit `bitNo` of the register at `a` in the present cycle (R10). -/
def Device.markSet (d : Device) (a bitNo : Nat) : Device :=
  { d with file := { d.file with
      setNow := (d.absCyc, a, bitNo) :: d.file.setNow.filter fun e => e.1 = d.absCyc } }

/-- The W1C bits of the register at `a` that the hardware has set in the present cycle: a write of 1 in that cycle leaves them
set (R10). -/
def Device.newBits (d : Device) (a : Nat) : Word :=
  (d.file.setNow.filter fun e => e.1 = d.absCyc ∧ e.2.1 = a).foldl (fun w e => w ||| BitVec.ofNat 32 (2 ^ e.2.2)) 0#32

/-- The hardware sets a W1C bit that software reads in the register at `a`. -/
def Device.setW1c (d : Device) (a bitNo : Nat) : Device :=
  (d.markSet a bitNo).setReg a (d.reg a ||| BitVec.ofNat 32 (2 ^ bitNo))

/-- Set a bit of a page's IRQ_STAT; a page that becomes pending asks for its message (R356). -/
def Device.raise (d : Device) (base bitNo : Nat) : Device :=
  let was := d.pagePending base
  let d := d.setW1c (base + 0x10) bitNo
  if !was && d.pagePending base then
    { d with file := { d.file with irqAsk := (base / 0x10000) :: d.file.irqAsk } }
  else d

/-- The kinds of recorded access (R354). -/
inductive ErrKind where
  | locked | refused | badAccess | fenced | unmapped
deriving DecidableEq, Repr

def ErrKind.code : ErrKind → Nat
  | .locked => 1 | .refused => 2 | .badAccess => 3 | .fenced => 4 | .unmapped => 5

/-- ERR_COUNT counts one more, and the first since a clear becomes ERR_FIRST (R355). -/
def Device.errWord (d : Device) (base : Nat) (w : Word) : Device :=
  let n := (d.reg (base + 0x24)).toNat
  let d := if n = 0 then d.setReg (base + 0x20) w else d
  d.setReg (base + 0x24) (BitVec.ofNat 32 (min (n + 1) 0xFFFF))

/-- Record an access in a page's ERR_COUNT, and in ERR_FIRST when the count was 0 (R355). -/
def Device.err (d : Device) (base off : Nat) (k : ErrKind) (src : Source) : Device :=
  let w := BitVec.ofNat 32 (off % 65536 + k.code * 65536 + if src = .smbus then 0x80000 else 0)
  let d := d.errWord base w
  { d with file := { d.file with errNow := d.file.errNow.filter (fun e => e.1 = d.absCyc) ++ [(d.absCyc, base, w)] } }

/-- ERR_CLR and a recorded access in the same cycle: the clear comes first, and the access is recorded (R361). -/
def Device.errAgain (d : Device) (base : Nat) : Device :=
  if d.reg (base + 0x24) ≠ 0#32 then d
  else (d.file.errNow.filter fun e => e.1 = d.absCyc ∧ e.2.1 = base).foldl (fun d e => d.errWord base e.2.2) d

/-- A write ignored under a block's rule, by the register's address. -/
def Device.refuse (d : Device) (src : Source) (a : Nat) : Device :=
  d.err (a / 0x10000 * 0x10000) (a % 0x10000) .refused src

/-- The page base of a ring window is the HOST page's, whose header records its accesses (R347). -/
def Device.refuseRing (d : Device) (src : Source) (off : Nat) : Device := d.err 0x10000 off .refused src

-- Output and free values -------------------------------------------------------------------------------------------

/-- Hand something to the world outside. -/
def Device.send (d : Device) (o : Output) : Device := { d with sent := d.sent ++ [o] }

/-- The next free value of width `w`: nothing constrains it. -/
def Device.free (d : Device) (w : Nat) : Nat × Device :=
  ((Config.freeValue w d.freeCtr).toNat, { d with freeCtr := d.freeCtr + 1 })

/-- A quotient whose rounding the spec does not state: exact where it divides, otherwise the floor or one more, as a
free value says. -/
def Device.roundDiv (d : Device) (n : Int) (m : Nat) : Int × Device :=
  if n % (Int.ofNat m) = 0 then (n / Int.ofNat m, d)
  else let r := d.free 1; (n / Int.ofNat m + Int.ofNat r.1, r.2)

-- Time -------------------------------------------------------------------------------------------------------------

/-- Nanoseconds, microseconds, milliseconds and seconds in 2^-16 ns. -/
def nsT (n : Nat) : Nat := n * 65536
def usT (n : Nat) : Nat := n * 65536000
def msT (n : Nat) : Nat := n * 65536000000
def secT (n : Nat) : Nat := n * 65536000000000

/-- The length of a core cycle in 2^-16 ns: 0.5 ns, or 0.625 ns at 1.600 GHz (R35), a quarter more in a quench (R385). -/
def Device.cycleLen (d : Device) : Nat :=
  let n := if d.damper.slow then 40960 else 32768
  if d.damper.quench then n + n / 4 else n

/-- The time from the stroke's first cycle to the cycle of the present command. -/
def Device.inStroke (d : Device) : Nat := d.stroke.inT

/-- The present command acts in cycle `c` of the stroke, or in that of the last command where `c` lies before it. -/
def Device.atCyc (d : Device) (c : Nat) : Device :=
  { d with stroke := { d.stroke with
      cyc := max d.stroke.cyc c
      inT := d.stroke.inT + (c - d.stroke.cyc) * d.cycleLen } }

/-- What the device clock gains over an elapsed time of `t` (R255), in 2^-64 ns. -/
def Device.clockGain (d : Device) (t : Nat) : Nat := (Int.ofNat t * (2 ^ 48 + d.clock.rate)).toNat

/-- The device clock wraps when its 48-bit seconds do (R254). -/
def clockWrap : Nat := 2 ^ 48 * 1000000000 * 2 ^ 64

/-- The device clock at the present command, in 2^-16 ns. -/
def Device.clockNow (d : Device) : Nat := (d.clock.clk + d.clockGain d.inStroke) % clockWrap / 2 ^ 48

/-- The step-free counter at the present command, in 2^-16 ns (R257). -/
def Device.stepFreeNow (d : Device) : Nat := (d.clock.stepFree + d.clockGain d.inStroke) / 2 ^ 48

/-- Time for every duration given in ns, µs, ms or s: the device clock's rate without its steps (R5, R257), in 2^-16 ns. -/
def Device.now (d : Device) : Nat := d.stepFreeNow

/-- The same at the boundary that began the stroke now running. -/
def Device.elapsed (d : Device) : Nat := d.clock.stepFree / 2 ^ 48

/-- A timer of a wall-clock duration matures at the first boundary at or after its deadline (R41): has it? -/
def Device.matured (d : Device) (deadline : Nat) : Bool := decide (deadline ≤ d.elapsed)

/-- Seconds and nanoseconds of a clock reading in 2^-16 ns. -/
def clkSec (t : Nat) : Nat := t / 65536 / 1000000000
def clkNs (t : Nat) : Nat := t / 65536 % 1000000000
def clkFrac (t : Nat) : Nat := t % 65536

/-- The device clock and the step-free counter advance by a core time of `t` (R255, R257). -/
def Device.advance (d : Device) (t : Nat) : Device :=
  { d with clock := { d.clock with
      clk := (d.clock.clk + d.clockGain t) % clockWrap
      stepFree := d.clock.stepFree + d.clockGain t } }

/-- What a core time of `t` from the last boundary adds to the time of `elapsed`. -/
def Device.elapsedGain (d : Device) (t : Nat) : Nat := (d.clock.stepFree + d.clockGain t) / 2 ^ 48 - d.elapsed

-- Budgets (R37 to R40) ---------------------------------------------------------------------------------------------

/-- The budget in force of an activity and instance: the profile's, lowered by the Damper (R63), 0 for a fenced gallery
(R30). -/
def Device.budgetLimit (d : Device) (act inst : Nat) : Option Nat :=
  match profBudget d.profile.active act inst with
  | none => none
  | some b =>
    let gal := if act = 0x03 then inst / 5 else if act = 0x06 then inst / 2 else if act = 0x09 ∨ act = 0x0D then inst / 2
      else inst
    let ofGallery := act ≤ 0x07 ∨ act = 0x09 ∨ act = 0x0D
    if ofGallery ∧ bit d.dev.fenced.toNat gal then some 0
    else if act = 0x02 then some (min b d.damper.stairSlots)
    else if act = 0x0D then some (min b d.damper.anvilSlots)
    else if act = 0x0F then some (min b d.damper.seqSlots)
    else some b

/-- Key of an activity and instance. -/
def budKey (act inst : Nat) : Nat := act * 256 + inst

/-- Key of a request: of its activity and instance, and its tag. -/
def reqKey (act inst tag : Nat) : Nat := tag * 8192 + budKey act inst

/-- What is left of a budget in this stroke. -/
def Device.budgetLeft (d : Device) (act inst : Nat) : Nat :=
  (d.budgetLimit act inst).getD 0 - tnat d.budget.used (budKey act inst)

/-- Is `w` the waiting request `tag` of an activity and instance? -/
def BudWait.is (w : BudWait) (act inst tag : Nat) : Bool := w.act == act && w.inst == inst && w.tag == tag

/-- A host DMA request that is a ring's: its tag is twice the ring's number, or one more. -/
def ringTag (act tag : Nat) : Bool := act == 0x0E && decide (tag < 1024)

/-- How far a ring's request stands from the turn of its class's budget, which goes round by ring number (R336). -/
def Device.ringTurn (d : Device) (cls tag : Nat) : Nat := (tag + 1024 - 2 * (tnat d.budget.lastRing cls + 1)) % 1024

/-- What the requests ahead of `tag` take of the stroke's budget: those that have waited since the stroke before, and are
presented at its boundary, ahead of requests first presented in this stroke (R38). They go in the order in which they were first
presented, but those of rings in the turn of their class (R336; DEDUCED, log entry 74). -/
def Device.budgetAhead (d : Device) (act inst tag : Nat) : Nat :=
  let place := d.budget.waiting.findIdx fun w => w.is act inst tag
  let waits := decide (place < d.budget.waiting.length)
  let ahead (w : BudWait) (k : Nat) : Bool :=
    if waits && ringTag act w.tag && ringTag act tag then decide (d.ringTurn inst w.tag < d.ringTurn inst tag) else decide (k < place)
  ((d.budget.waiting.zipIdx.filter fun e =>
    e.1.act = act ∧ e.1.inst = inst ∧ e.1.seen + 1 = d.strokeNo ∧ ahead e.1 e.2).map (·.1.size)).sum

/-- What is left for the request `tag`. -/
def Device.budgetFor (d : Device) (act inst tag : Nat) : Nat := d.budgetLeft act inst - d.budgetAhead act inst tag

/-- R38: may the request `tag` of `size`, taking `n` issue cycles from cycle `k`, be admitted in this stroke? -/
def Device.canAdmit (d : Device) (act inst size n k tag : Nat) : Bool :=
  decide (size ≤ d.budgetFor act inst tag ∧ k + n ≤ 256)

/-- Subtract an admitted request from its budget; it waits no longer. -/
def Device.spend (d : Device) (act inst size tag : Nat) : Device :=
  { d with budget := { d.budget with
      used := tnatSet d.budget.used (budKey act inst) (tnat d.budget.used (budKey act inst) + size)
      waiting := d.budget.waiting.filter fun w => !w.is act inst tag } }

/-- A request that can exceed one stroke's budget is admitted in pieces of at most 256 bytes, 4 cells, 4 lookups or as many
64-byte units (R38). -/
def pieceSize (act : Nat) : Nat := if act = 0x0E then 256 else 4

/-- How much of the `need` that a request has left is admitted with `left`: all of it, or as many whole pieces as go in. -/
def pieceTake (act need left : Nat) : Nat := if need ≤ left then need else left / pieceSize act * pieceSize act

-- Galleries, lanes and ports ---------------------------------------------------------------------------------------

/-- Is gallery `n` fenced? -/
def Device.isFenced (d : Device) (n : Nat) : Bool := bit d.dev.fenced.toNat n

/-- The device forwards: RUN or DEGRADED (R25). -/
def Device.running (d : Device) : Bool := d.dev.state == .run || d.dev.state == .degraded

/-- A port's MAC state. -/
def Device.port (d : Device) (p : Nat) : PortSt := tabGet (fun _ => {}) d.ports p
def Device.setPort (d : Device) (p : Nat) (v : PortSt) : Device := { d with ports := tabSet (fun _ => {}) d.ports p v }
def Device.modPort (d : Device) (p : Nat) (f : PortSt → PortSt) : Device := d.setPort p (f (d.port p))

/-- Address of a port register from its window accessor: gallery and local port (R97). -/
def ofPort (a : Nat → Nat → Nat) (p : Nat) : Nat := a (p / 32) (p % 32)
/-- Address of a lane register: chiplet and lane window (R74). -/
def ofLane (a : Nat → Nat → Nat) (l : Nat) : Nat := a (l / 128) (l % 128)
/-- Address of a link register: chiplet and link (R93). -/
def ofLink (a : Nat → Nat → Nat) (k : Nat) : Nat := a (k / 16) (k % 16)

/-- Address of a port's fixed statistic (R109). -/
def ptCnt (p x : Nat) : Nat := A.PORT_PT_CNT (p / 32) (p % 32) x
/-- Address of a queue's statistic (R216). -/
def qCnt (q x : Nat) : Nat := A.SCHED_Q_CNT (q / 512) (q % 512) x

/-- Count a fixed port statistic, which a fence freezes (R34). -/
def Device.portCount (d : Device) (p x n : Nat) : Device := if d.isFenced (p / 32) then d else d.countN (ptCnt p x) n
/-- Count a queue statistic, which a fence freezes. -/
def Device.queueCount (d : Device) (q x n : Nat) : Device := if d.isFenced (q / 512) then d else d.countN (qCnt q x) n

/-- The port is enabled (R96). -/
def Device.portEn (d : Device) (p : Nat) : Bool := d.flag (ofPort A.PORT_PT_CFG p) F.PORT_PT_CFG_EN
/-- The number of lanes of a port (R97). -/
def Device.portWidth (d : Device) (p : Nat) : Nat := 2 ^ d.fld (ofPort A.PORT_PT_CFG p) F.PORT_PT_CFG_WIDTH
/-- The speed code of a port (R95). -/
def Device.portSpeed (d : Device) (p : Nat) : Nat := d.fld (ofPort A.PORT_PT_CFG p) F.PORT_PT_CFG_SPEED
/-- The data rate of a speed code, in Gbit/s (R95). -/
def speedGb (s : Nat) : Nat := 25 * 2 ^ min s 6
/-- The data rate of a port, in Gbit/s. -/
def Device.portGb (d : Device) (p : Nat) : Nat := speedGb (d.portSpeed p)
/-- MAX_FRAME of a port: values below 64 are treated as 64 (R97). -/
def Device.maxFrame (d : Device) (p : Nat) : Nat := max 64 (d.fld (ofPort A.PORT_PT_FRAME p) F.PORT_PT_FRAME_MAX_FRAME)

/-- The time `n` bytes take on a port, in 2^-16 ns, rounded up. -/
def Device.lineTime (d : Device) (p n : Nat) : Nat := ceilDiv (n * 8 * 65536) (d.portGb p)

/-- A lossless class index is the i-th set bit of PT_PFC.LOSSLESS (R103): the priorities, in order. -/
def Device.losslessPris (d : Device) (p : Nat) : List Nat :=
  (List.range 8).filter fun q => bit (d.fld (ofPort A.PORT_PT_PFC p) F.PORT_PT_PFC_LOSSLESS) q

/-- The queue that carries priority `q` on a port (R103's PT_PRI_Q). -/
def Device.priQueue (d : Device) (p q : Nat) : Nat := bitsOf (d.cfg (ofPort A.PORT_PT_PRI_Q p)).toNat (4 * q) 4

-- Sequencers (R317, R324) ------------------------------------------------------------------------------------------

/-- A sequencer's state. -/
def Device.seqSt (d : Device) (s : Nat) : SeqSt := tabGet (fun _ => {}) d.seq.seqs s
def Device.setSeq (d : Device) (s : Nat) (v : SeqSt) : Device :=
  { d with seq := { d.seq with seqs := tabSet (fun _ => {}) d.seq.seqs s v } }
def Device.modSeq (d : Device) (s : Nat) (f : SeqSt → SeqSt) : Device := d.setSeq s (f (d.seqSt s))

/-- A sequencer serves its units: it is running, or waiting on a word (R324). -/
def Device.seqOn (d : Device) (s : Nat) : Bool := (d.seqSt s).st == .running || (d.seqSt s).st == .waiting

/-- A gallery's generation slot of a stamp (R44). -/
def slotOf (stamp : Word) : Nat := stamp.toNat % 2

end Sys2Proof.Machine
end

