-- ==== Sys2Proof/Machine/Flags.lean ====
section
/-! DEFINITION. Codes the spec computes with: rate and burst codes (R210), colours, meters (R222, R223), and the IPv4
checksum and FCS. -/

namespace Sys2Proof.Machine

/-- A 17-bit rate code, in kbit/s (R210). -/
def rateKbit (code : Nat) : Nat := code % 4096 * 2 ^ min (code / 4096 % 32) 20

/-- A 13-bit burst code, in bytes (R210). -/
def burstBytes (code : Nat) : Nat := code % 256 * 2 ^ min (code / 256 % 32) 16

/-- What a rate adds over `t` (in 2^-16 ns), in 2^-16 byte: RATE * t / 8 (R211), the last place rounded as a free value
says. A kbit/s is 10^-6 bit per ns. -/
def Device.tokenRefill (d : Device) (code t : Nat) : Int × Device := d.roundDiv (Int.ofNat (rateKbit code * t)) 8000000

/-- A 7-bit signed byte count, -64 to -33 treated as -32 (R209, R224). -/
def signedAdj (n : Nat) : Int := max (signed n 7) (-32)

/-- The ones' complement sum of the 16-bit words of a byte string (a last odd byte is padded with 0). -/
def onesSum (bs : Bytes) : Nat :=
  let raw := ((List.range ((bs.length + 1) / 2)).map fun k => beAt bs (2 * k) 2).sum
  let s := raw % 65536 + raw / 65536
  let s := s % 65536 + s / 65536
  s % 65536 + s / 65536

/-- The IPv4 header with its checksum, at bytes 10 and 11, computed over it (R147). -/
def ipv4Checksum (h : Bytes) : Bytes :=
  patchBytes h 10 (beBytes 2 (65535 - onesSum (patchBytes h 10 (zeroBytes 2))))

/-- Adjust a checksum field for 16-bit words changed from `old` to `new` (R262, R288). -/
def adjustChecksum (sum : Nat) (old new : Bytes) : Nat :=
  let raw := (65535 - sum) + (65535 - onesSum old) + onesSum new
  let s := raw % 65536 + raw / 65536
  let s := s % 65536 + s / 65536
  65535 - s

/-- One step of the reflected CRC-32 of IEEE 802.3. -/
def fcsStep (acc : Nat) : Nat := if acc % 2 = 1 then acc / 2 ^^^ 0xEDB88320 else acc / 2

/-- The frame check sequence over the bytes before it, in transmission order (R98). -/
def fcsOf (bs : Bytes) : Bytes :=
  let r := bs.foldl (fun a b => (List.range 8).foldl (fun a _ => fcsStep a) (a ^^^ b.toNat)) 0xFFFFFFFF
  leBytes 4 (r ^^^ 0xFFFFFFFF)

/-- The same four bytes inverted, as a stomped frame carries them (R98). -/
def invertBytes (bs : Bytes) : Bytes := bs.map fun b => ~~~ b

/-- Does a whole frame, DA to FCS, carry the right FCS? -/
def fcsGood (bs : Bytes) : Bool :=
  decide (4 ≤ bs.length) && bs.drop (bs.length - 4) == fcsOf (bs.take (bs.length - 4))

/-- The worse of two colours: green 0, yellow 1, red 2 (R141). -/
def worse (a b : Nat) : Nat := max a b

/-- Register of meter `m` of gallery `n` (R224). -/
def meterReg (a : Nat → Nat) (n m : Nat) : Nat := banked (a n) m

/-- The sizes of a meter's two buckets in 2^-16 byte: CBS, and EBS or PBS (R222). -/
def Device.meterSizes (d : Device) (n m : Nat) : Nat × Nat :=
  (burstBytes (d.fld (meterReg A.POLICE_M_CBS n m) F.POLICE_M_CBS_BURST) * 65536,
   burstBytes (d.fld (meterReg A.POLICE_M_PBS n m) F.POLICE_M_PBS_BURST) * 65536)

/-- The two algorithms of R222: the result colour, and whether each bucket is charged. -/
def meterColour (trtcm aware : Bool) (inCol tc tp b : Nat) : Nat × Bool × Bool :=
  if trtcm then
    if (aware ∧ inCol = 2) ∨ tp < b then (2, false, false)
    else if (aware ∧ inCol = 1) ∨ tc < b then (1, false, true)
    else (0, true, true)
  else
    if aware ∧ inCol = 2 then (2, false, false)
    else if (¬ aware ∨ inCol = 0) ∧ b ≤ tc then (0, true, false)
    else if b ≤ tp then (1, false, true)
    else (2, false, false)

/-- Apply meter `m` of gallery `n` to a packet of metered length `len` (R222, R223): the device, the charge made and the
result colour; none where the meter is not in use. -/
def Device.applyMeter (d : Device) (n m inCol : Nat) (len : Int) : Device × Option MeterCharge :=
  let cfg := d.cfg (meterReg A.POLICE_M_CFG n m)
  if F.POLICE_M_CFG_EN.get cfg = 0 then (d, none)
  else
    let b := ((len + signedAdj (F.POLICE_M_CFG_LEN_ADJ.get cfg)) * 65536).toNat
    let ix := n * 8192 + m
    let tc := tnat d.sched.meters (2 * ix)
    let tp := tnat d.sched.meters (2 * ix + 1)
    let r := meterColour (F.POLICE_M_CFG_MODE.get cfg = 1) (F.POLICE_M_CFG_AWARE.get cfg = 1) inCol tc tp b
    let t := tnatSet d.sched.meters (2 * ix) (if r.2.1 then tc - b else tc)
    let t := tnatSet t (2 * ix + 1) (if r.2.2 then tp - b else tp)
    ({ d with sched := { d.sched with meters := t } },
      some { meter := m, est := len, tookC := r.2.1, tookP := r.2.2, colour := r.1,
             dropped := r.1 = 2 && F.POLICE_M_CFG_RED_DROP.get cfg = 1 })

/-- Count a meter's result with the final frame length (R223, R224). -/
def Device.meterCount (d : Device) (n : Nat) (c : MeterCharge) (len : Nat) : Device :=
  let at_ (x : Nat) := banked (A.POLICE_M_CNT n x) c.meter
  let d := (d.count (at_ (2 * c.colour))).countN (at_ (2 * c.colour + 1)) len
  if c.dropped then d.count (at_ 6) else d

/-- Correct one bucket for the difference between estimate and length: back up to its size, or down to 0 (R223). -/
def correctBucket (size cur : Nat) (diff : Int) : Nat :=
  min (max ((Int.ofNat cur + diff * 65536).toNat) 0) (max size cur)

/-- The metered length of a charge, now that the frame's length as received is known (R223): the header bytes that rebuilds had
added by then count, and of a truncated mirror copy no more than it keeps. -/
def MeterCharge.final (c : MeterCharge) (len : Nat) : Nat :=
  let l := (Int.ofNat len + c.delta).toNat
  match c.cap with
  | some k => min l k
  | none => l

/-- R223 at the frame's end: correct the buckets that were charged, and count. `len` is the frame's length as received. -/
def Device.settleMeter (d : Device) (n : Nat) (len : Nat) (c : MeterCharge) : Device :=
  let len := c.final len
  let ix := n * 8192 + c.meter
  let sz := d.meterSizes n c.meter
  let diff := c.est - Int.ofNat len
  let t := d.sched.meters
  let t := if c.tookC then tnatSet t (2 * ix) (correctBucket sz.1 (tnat t (2 * ix)) diff) else t
  let t := if c.tookP then tnatSet t (2 * ix + 1) (correctBucket sz.2 (tnat t (2 * ix + 1)) diff) else t
  ({ d with sched := { d.sched with meters := t } }).meterCount n c len

end Sys2Proof.Machine
end

