-- ==== Sys2Proof/Machine/Perf.lean ====
section
/-! DEFINITION. Programmable counters: events, filters, wraps and sampling (R362 to R368), and the requests that first
wait, which they can count (R40). -/

namespace Sys2Proof.Machine

/-- The window of counter `k` of a counter page (R365). -/
def pcWin (base k : Nat) : Nat := base + 0x1000 + 0x40 * k

/-- Base of a gallery's counter page, and of the device's. -/
def pcPage : Option Nat → Nat
  | some n => galBase n 11
  | none => 0x70000

/-- The events of R363 that belong to one packet. -/
def packetEvent (code : Nat) : Bool := decide (0x1001 ≤ code ∧ code ≤ 0x5001)

/-- A record goes behind those that are there, but before the records of counters above its own for the same packet in the same cycle:
two counters that wrap on one packet's occurrences make two records, lower k first (R373). -/
def placeSample (l : List Sample) (s : Sample) : List Sample :=
  let later (o : Sample) : Bool :=
    s.words.drop 1 == o.words.drop 1 && !bit (s.words.headD 0) 3 && decide (s.words.headD 0 % 8 < o.words.headD 0 % 8)
  let k := (l.reverse.takeWhile later).length
  l.take (l.length - k) ++ s :: l.drop (l.length - k)

/-- A write into a sample FIFO (R368). -/
def Device.pushSample (d : Device) (n : Nat) (s : Sample) : Device :=
  let l := tabGet (fun _ => ([] : List Sample)) d.perf.fifo n
  let d := { d with perf := { d.perf with
    fifo := tabSet (fun _ => ([] : List Sample)) d.perf.fifo n ((placeSample l s).take 16) } }
  if l.length ≥ 16 then
    ({ d with perf := { d.perf with lost := tnatSet d.perf.lost n (min (tnat d.perf.lost n + 1) 0xFFFF) } }).raise
      (galBase n 11) 1
  else if l.isEmpty then d.raise (galBase n 11) 0 else d

/-- The words of a sample record (R368). -/
def sampleOf (k : Nat) (noPkt : Bool) (skid stroke cyc : Nat) (p : EvPkt) : Sample :=
  { words := [k + b2n noPkt * 8 + skid * 16, stroke % 2 ^ 32, stroke / 2 ^ 32,
      if noPkt then cyc else cyc + p.inPort * 256 + p.iclass * 2 ^ 18 + p.pass * 2 ^ 22,
      if noPkt then 0 else p.h0, if noPkt then 0 else p.stamp.toNat]
    parsing := p.parsing }

/-- The parse of frame `id` has given its packet's H0: the records that wait for it in gallery `n`'s FIFO take it (R368). -/
def Device.nameH0 (d : Device) (n id h0 : Nat) : Device :=
  let l := tabGet (fun _ => ([] : List Sample)) d.perf.fifo n
  if l.any fun s => s.parsing = id + 1 then
    let l := l.map fun (s : Sample) => if s.parsing = id + 1 then ({ words := s.words.set 4 h0 } : Sample) else s
    { d with perf := { d.perf with fifo := tabSet (fun _ => ([] : List Sample)) d.perf.fifo n l } }
  else d

/-- A counter makes at most one sample in a cycle (R368). -/
def Device.sampleNow (d : Device) (w cyc : Nat) : Bool := tnat d.perf.sampled w == d.strokeNo * 256 + cyc + 1

/-- Keep a wrap of the present cycle, for a commit of PC_VAL in it (R367). -/
def Device.noteWrap (d : Device) (w : Nat) (ovf irq : Bool) (made : Nat) : Device :=
  { d with perf := { d.perf with
    wraps := d.perf.wraps.filter (fun e => e.at_ = d.absCyc) ++ [(⟨d.absCyc, w, ovf, irq, made⟩ : PcWrap)] } }

/-- The packet that names a sample of a wrap in cycle `cyc` of this stroke: that of the occurrence, or the first header that the gallery
accepted in that very cycle (R368). -/
def Device.samplePkt (d : Device) (n cyc : Nat) (pkt : Option EvPkt) : Option EvPkt :=
  pkt <|> (d.perf.firstHdr.find? fun e => e.1 = n ∧ e.2.1 = d.strokeNo * 256 + cyc).map (·.2.2)

/-- Add an amount to a counter, wrapping, reloading and sampling (R362, R368). -/
def Device.pcAdd (d : Device) (gal : Option Nat) (k amount : Nat) (pkt : Option EvPkt) (cyc : Nat) : Device :=
  let w := pcWin (pcPage gal) k
  let sum := tnat d.perf.val w + amount
  if sum < 2 ^ 48 then { d with perf := { d.perf with val := tnatSet d.perf.val w sum } }
  else
    let sel := d.cfg w
    let sampling := gal.isSome ∧ bit sel.toNat 17
    let reload := bitsOf (d.pair (w + 0x18) (w + 0x1C)) 0 48
    let v := if sampling then (reload + (sum - 2 ^ 48)) % 2 ^ 48 else sum % 2 ^ 48
    let ovf := bit (d.reg (w + 0x28)).toNat 0
    let d := { d with perf := { d.perf with val := tnatSet d.perf.val w v } }
    let d := d.setW1c (w + 0x28) 0
    match gal with
    | some n =>
      if sampling && !d.sampleNow w cyc then
        let irq := bit (d.reg (galBase n 11 + 0x10)).toNat 0
        let d := { d with perf := { d.perf with sampled := tnatSet d.perf.sampled w (d.strokeNo * 256 + cyc + 1) } }
        match d.samplePkt n cyc pkt with
        | some p =>
          let full := decide (16 ≤ (tabGet (fun _ => ([] : List Sample)) d.perf.fifo n).length)
          (d.pushSample n (sampleOf k false 0 d.strokeNo cyc p)).noteWrap w ovf irq (if full then 2 else 0)
        | none =>
          ({ d with perf := { d.perf with skids := d.perf.skids ++ [(⟨n, k, d.strokeNo, cyc⟩ : Skid)] } }).noteWrap w ovf irq 1
      else d.noteWrap w ovf false 3
    | none => d.noteWrap w ovf false 3

/-- Keep what counter `w` has added in the present cycle (R367). -/
def Device.noteAdded (d : Device) (w amount : Nat) (pkt : Option EvPkt) : Device :=
  { d with perf := { d.perf with
    added := d.perf.added.filter (fun e => e.1 = d.absCyc) ++ [(d.absCyc, w, amount, pkt)] } }

/-- A record of the wrap `u` is taken back: the newest of its counter's in that cycle. -/
def dropSample (l : List Sample) (k stroke : Nat) : List Sample :=
  let mine (s : Sample) : Bool := s.words.headD 0 % 8 == k && s.words.getD 1 0 == stroke % 2 ^ 32
  match l.reverse.findIdx? mine with
  | some i => l.eraseIdx (l.length - 1 - i)
  | none => l

/-- What a wrap of the present cycle left is taken back: a commit of PC_VAL replaces the value that wrapped (R367). -/
def Device.undoWrap (d : Device) (gal : Option Nat) (k : Nat) : Device :=
  let w := pcWin (pcPage gal) k
  match d.perf.wraps.find? fun u => u.at_ = d.absCyc ∧ u.win = w with
  | none => d
  | some u =>
    let d := if u.ovf then d else
      ({ d with file := { d.file with setNow := d.file.setNow.filter fun e => e.2.1 ≠ w + 0x28 } }).setReg (w + 0x28)
        (d.reg (w + 0x28) &&& ~~~1#32)
    let d := { d with perf := { d.perf with
      wraps := d.perf.wraps.filter fun x => x.win ≠ w
      sampled := tnatSet d.perf.sampled w 0 } }
    match gal, u.made with
    | some n, 0 =>
      let l := dropSample (tabGet (fun _ => ([] : List Sample)) d.perf.fifo n) k d.strokeNo
      let d := { d with perf := { d.perf with fifo := tabSet (fun _ => ([] : List Sample)) d.perf.fifo n l } }
      if l.isEmpty ∧ !u.irq then d.setReg (galBase n 11 + 0x10) (d.reg (galBase n 11 + 0x10) &&& ~~~1#32) else d
    | some n, 1 =>
      { d with perf := { d.perf with skids := d.perf.skids.filter fun s => ¬(s.gal = n ∧ s.counter = k ∧
        s.stroke * 256 + s.cyc = d.absCyc) } }
    | some n, 2 => { d with perf := { d.perf with lost := tnatSet d.perf.lost n (tnat d.perf.lost n - 1) } }
    | _, _ => d

/-- Does an occurrence pass counter `w`'s filters (R364)? -/
def Device.pcPass (d : Device) (w code : Nat) (attr : Option Nat) (p : EvPkt) : Bool :=
  let sel := (d.cfg w).toNat
  let filt := (d.cfg (w + 4)).toNat
  let mode := bitsOf sel 18 2
  let lo := bitsOf (d.cfg (w + 8)).toNat 0 24
  let hi := bitsOf (d.cfg (w + 12)).toNat 0 24
  bit sel 16 && bitsOf sel 0 16 == code &&
    bit filt p.origin && (!packetEvent code || bit filt (8 + p.iclass)) &&
    (match mode with
     | 0 => true
     | 1 => p.fn == some 0
     | 2 => (p.fn.map fun f => f != 0).getD false
     | _ => p.fn == some (bitsOf sel 20 5)) &&
    (!bit sel 25 || (attr.map fun a => decide (lo ≤ a ∧ a ≤ hi)).getD false)

/-- An occurrence of an event in a gallery (scope G) or in the device (scope D), counted by each counter that selects it
(R362). A fenced gallery's counters hold. -/
def Device.event (d : Device) (gal : Option Nat) (code amount : Nat) (attr : Option Nat) (p : EvPkt) : Device :=
  let base := pcPage gal
  if bit (d.cfg (base + 0x100)).toNat 0 ∨ (gal.map d.isFenced).getD false then d
  else (List.range (if gal.isSome then 8 else 16)).foldl (fun d k =>
    if d.pcPass (pcWin base k) code attr p then
      let pkt := if packetEvent code then some p else none
      (d.pcAdd gal k amount pkt d.stroke.cyc).noteAdded (pcWin base k) amount pkt
    else d) d

/-- 64-byte units moved to or from the Lower Hall, whose address in 64 KiB units is the attribute; where no rule says where
they lie it is a free value (R363). -/
def Device.lhMoved (d : Device) (units : Nat) (attr : Option Nat) : Device :=
  if units = 0 then d
  else match attr with
    | some a => d.event none 0x8003 units (some a) {}
    | none =>
      let (a, d) := d.free 24
      d.event none 0x8003 units (some (a % (1536 * 2 ^ 10))) {}

/-- The occurrences that counter `w` has counted in the present cycle: the amount and the packet of each (R367). -/
def Device.addedNow (d : Device) (w : Nat) : List (Nat × Option EvPkt) :=
  (d.perf.added.filter fun e => e.1 = d.absCyc ∧ e.2.1 = w).map (·.2.2)

/-- A commit of PC_VAL in a named cycle: the value written, and then the occurrences of that cycle (R367). -/
def Device.countAgain (d : Device) (gal : Option Nat) (k : Nat) : Device :=
  if (gal.map d.isFenced).getD false then d
  else (d.addedNow (pcWin (pcPage gal) k)).foldl (fun d e => d.pcAdd gal k e.1 e.2 d.stroke.cyc) (d.undoWrap gal k)

/-- A counter counts CYCLES now. -/
def Device.pcCycles (d : Device) (gal : Option Nat) (k : Nat) : Bool :=
  !bit (d.cfg (pcPage gal + 0x100)).toNat 0 && !(gal.map d.isFenced).getD false &&
    d.pcPass (pcWin (pcPage gal) k) 1 none {}

/-- Bring a counter of CYCLES up to the end of cycle `c - 1` of this stroke. -/
def Device.pcSync (d : Device) (gal : Option Nat) (k c : Nat) : Device :=
  if d.pcCycles gal k then
    let w := pcWin (pcPage gal) k
    let dn := tnat d.perf.cycDone w
    if c ≤ dn then d
    else
      let d := { d with perf := { d.perf with cycDone := tnatSet d.perf.cycDone w c } }
      d.pcAdd gal k (c - dn) none (dn + (2 ^ 48 - 1 - min (tnat d.perf.val w) (2 ^ 48 - 1)))
  else d

/-- The counter whose PC_SEL is at address `a`: its gallery, or none for the device's page, and its number. -/
def pcAt (a : Nat) : Option (Option Nat × Nat) :=
  if a % 0x40 ≠ 0 then none
  else if 0x71000 ≤ a ∧ a < 0x71400 then some (none, (a - 0x71000) / 0x40)
  else if 0x10B1000 ≤ a ∧ a < 0x3000000 ∧ 0xB1000 ≤ a % 0x100000 ∧ a % 0x100000 < 0xB1200 then
    some (some ((a - 0x1000000) / 0x100000), (a % 0x100000 - 0xB1000) / 0x40)
  else none

/-- The counters in use: a PC_SEL that is not listed is at reset, with EN = 0. -/
def Device.pcEnabled (d : Device) : List (Option Nat × Nat) :=
  ((d.file.regs.map (·.1)).filter fun a => bit (d.cfg a).toNat 16).filterMap pcAt ++
    (((d.file.held.map (·.1)).filter fun a =>
      !(d.file.regs.any fun e => e.1 = a) && bit (d.cfg a).toNat 16).filterMap pcAt)

/-- The counters at the end of a stroke: its cycles, and the boundary itself (R363). -/
def Device.pcBoundary (d : Device) : Device :=
  let on := d.pcEnabled
  let d := on.foldl (fun d g => d.pcSync g.1 g.2 256) d
  let d := { d with perf := { d.perf with cycDone := [] } }
  on.foldl (fun d g =>
    if !bit (d.cfg (pcPage g.1 + 0x100)).toNat 0 && !(g.1.map d.isFenced).getD false &&
        d.pcPass (pcWin (pcPage g.1) g.2) 2 none {} then
      d.pcAdd g.1 g.2 1 none 255
    else d) d

/-- A header accepted in cycle `c` names the samples that wait for one (R368). -/
def Device.skidHeader (d : Device) (n c : Nat) (p : EvPkt) : Device :=
  let mine := d.perf.skids.filter fun s => s.gal = n
  let now := d.strokeNo * 256 + c
  let first := d.perf.firstHdr.any fun e => e.1 = n ∧ e.2.1 = now
  let d := { d with perf := { d.perf with
    skids := d.perf.skids.filter fun s => s.gal ≠ n
    firstHdr := if first then d.perf.firstHdr else (d.perf.firstHdr.filter fun e => e.1 ≠ n) ++ [(n, now, p)] } }
  mine.foldl (fun d s =>
    let dist := (d.strokeNo * 256 + c) - (s.stroke * 256 + s.cyc)
    if dist ≤ 16 then d.pushSample n (sampleOf s.counter false dist s.stroke s.cyc p)
    else d.pushSample n (sampleOf s.counter true 0 s.stroke s.cyc {})) d

-- Waiting (R40) ----------------------------------------------------------------------------------------------------

/-- The gallery an activity's instance belongs to; none for a device activity (R37, R363). -/
def budgetGal (act inst : Nat) : Option Nat :=
  if act = 0x03 then some (inst / 5) else if act = 0x06 ∨ act = 0x09 ∨ act = 0x0D then some (inst / 2)
  else if act ≤ 0x07 then some inst else none

/-- A request of `size` that is not admitted waits, in its place among those that wait; it is counted once, whatever number
of boundaries it waits (R38, R40). -/
def Device.mustWait (d : Device) (act inst tag size : Nat) : Device :=
  if d.budget.waiting.any fun w => w.is act inst tag then
    { d with budget := { d.budget with
      waiting := d.budget.waiting.map fun w => if w.is act inst tag then { w with size := size, seen := d.strokeNo } else w } }
  else
    let d := { d with budget := { d.budget with
      wait := tnatSet d.budget.wait (budKey act inst) ((tnat d.budget.wait (budKey act inst) + 1) % 2 ^ 64)
      waiting := d.budget.waiting ++ [(⟨act, inst, tag, size, d.strokeNo⟩ : BudWait)] } }
    match budgetGal act inst with
    | some n => d.event (some n) 0x6001 1 (some act) {}
    | none => d.event none 0x8008 1 (some act) {}

/-- A request that waits is withdrawn: what asked for it is gone. -/
def Device.noWait (d : Device) (act inst tag : Nat) : Device :=
  { d with budget := { d.budget with
      waiting := d.budget.waiting.filter fun w => !w.is act inst tag
      partly := assocDel d.budget.partly (reqKey act inst tag) } }

/-- Part of a request is admitted, and the rest of it waits in its place (R38). -/
def Device.spendPart (d : Device) (act inst take rest tag : Nat) : Device :=
  let d := d.mustWait act inst tag rest
  { d with budget := { d.budget with
      used := tnatSet d.budget.used (budKey act inst) (tnat d.budget.used (budKey act inst) + take) } }

/-- A request of `need` of which `had` is admitted already: as many of its pieces as the stroke's budget holds are admitted,
and it is whole once all are (R38). The amount admitted now. -/
def Device.takePieces (d : Device) (act inst need had tag : Nat) : Device × Nat :=
  let more := need - had
  let n := pieceTake act more (d.budgetFor act inst tag)
  if n = more then (d.spend act inst more tag, more) else (d.spendPart act inst n (more - n) tag, n)

/-- The same for a request whose progress the budget unit keeps. -/
def Device.inPieces (d : Device) (act inst need tag : Nat) : Device × Bool :=
  let key := reqKey act inst tag
  let had := (assoc d.budget.partly key).getD 0
  let (d, n) := d.takePieces act inst need had tag
  let whole := decide (need ≤ had + n)
  ({ d with budget := { d.budget with
      partly := if whole then assocDel d.budget.partly key else assocSet d.budget.partly key (had + n) } }, whole)

end Sys2Proof.Machine
end

