-- ==== Sys2Proof/Machine/Parser.lean ====
section
/-! DEFINITION. Parsing (R111 to R123), hashing (R125, R126) and member selection (R127): functions of the bytes a frame
has brought so far and of the registers in force. -/

namespace Sys2Proof.Machine

/-- A state of the parse graph, as its window holds it (R118). -/
structure ParseState where
  valid : Bool
  fixedLen : Nat
  lenMode : Bool
  lchk : Nat
  frag : Nat
  hdrId : Nat
  lenOfs : Nat
  lenWide : Bool
  shift : Nat
  mbits : Nat
  mult : Nat
  add : Nat
  keyOfs : Nat
  keyWide : Bool
  dflt : Nat
  /-- value, mask and NEXT of the valid transitions, lowest number first -/
  trans : List (Nat × Nat × Nat)
  /-- container, offset and byte count of the extractions in use -/
  exts : List (Nat × Nat × Nat)
deriving DecidableEq, Repr

/-- State `st` of bank `b` of gallery `n` (R118). -/
def readParseState (d : Device) (n b st : Nat) : ParseState :=
  let hdr := d.reg (A.PARSE_ST_HDR n b st)
  let len := d.reg (A.PARSE_ST_LEN n b st)
  let key := d.reg (A.PARSE_ST_KEY n b st)
  let tr := (List.range 8).filterMap fun t =>
    let m := d.reg (A.PARSE_ST_TR_MATCH n b st t)
    let x := d.reg (A.PARSE_ST_TR_NEXT n b st t)
    if F.PARSE_ST_TR_NEXT_VALID.get x = 1 then
      some (F.PARSE_ST_TR_MATCH_VALUE.get m, F.PARSE_ST_TR_MATCH_MASK.get m, F.PARSE_ST_TR_NEXT_NEXT.get x)
    else none
  let ex := (List.range 12).filterMap fun e =>
    let x := d.reg (A.PARSE_ST_EX n b st e)
    if F.PARSE_ST_EX_VALID.get x = 1 ∧ F.PARSE_ST_EX_CONT.get x < 96 ∧ F.PARSE_ST_EX_SIZE.get x < 3 then
      some (F.PARSE_ST_EX_CONT.get x, F.PARSE_ST_EX_OFFSET.get x, 2 ^ F.PARSE_ST_EX_SIZE.get x)
    else none
  { valid := F.PARSE_ST_HDR_VALID.get hdr = 1, fixedLen := F.PARSE_ST_HDR_FIXED_LEN.get hdr,
    lenMode := F.PARSE_ST_HDR_LEN_MODE.get hdr = 1, lchk := F.PARSE_ST_HDR_LCHK.get hdr,
    frag := F.PARSE_ST_HDR_FRAG.get hdr, hdrId := F.PARSE_ST_HDR_HDR_ID.get hdr,
    lenOfs := F.PARSE_ST_LEN_OFFSET.get len, lenWide := F.PARSE_ST_LEN_WIDTH.get len = 1,
    shift := F.PARSE_ST_LEN_SHIFT.get len, mbits := F.PARSE_ST_LEN_MBITS.get len,
    mult := F.PARSE_ST_LEN_MULT.get len, add := F.PARSE_ST_LEN_ADD.get len,
    keyOfs := F.PARSE_ST_KEY_OFFSET.get key, keyWide := F.PARSE_ST_KEY_WIDTH.get key = 1,
    dflt := F.PARSE_ST_DEFAULT_NEXT.get (d.reg (A.PARSE_ST_DEFAULT n b st)), trans := tr, exts := ex }

/-- What a read that ends at byte `e` (exclusive) of the window meets: none where the byte is there. -/
def reach (bytes : Bytes) (ended : Bool) (vis e : Nat) : Option ParseEnd :=
  if e ≤ vis ∧ e ≤ bytes.length then none
  else if e > vis then
    if bytes.length > vis then some .truncated else if ended then some .failed else some .waiting
  else if ended then some .failed else some .waiting

/-- The header length of a state at offset `ofs` (R114, R118). -/
def headerLen (p : ParseState) (bytes : Bytes) (ofs : Nat) : Nat :=
  if p.lenMode then
    let fld := beAt bytes (ofs + p.lenOfs) (if p.lenWide then 2 else 1)
    fld / 2 ^ p.shift % 2 ^ (p.mbits + 1) * 2 ^ p.mult + p.add
  else p.fixedLen

/-- The furthest byte (exclusive) a state reads, once its header length is known (R115, R116). The bytes of a length check and
of fragment handling count among them: R116 lists the header, its length field, the key and the extractions, and says of those
bytes nothing (DESIGN CHOICE, log entry 67). -/
def stateExtent (p : ParseState) (ofs len : Nat) : Nat :=
  let key := if p.trans.isEmpty then 0 else ofs + p.keyOfs + (if p.keyWide then 2 else 1)
  let chk := if p.lchk = 1 then ofs + 4 else if p.lchk = 2 ∨ p.lchk = 3 then ofs + 6 else 0
  let frg := if p.frag = 1 then ofs + 8 else if p.frag = 2 then ofs + 4 else 0
  p.exts.foldl (fun m x => max m (ofs + x.2.1 + x.2.2)) (max (max (ofs + len) key) (max chk frg))

/-- The NEXT code of a state (R115). -/
def nextCode (p : ParseState) (bytes : Bytes) (ofs : Nat) : Nat :=
  if p.trans.isEmpty then p.dflt
  else
    let key := beAt bytes (ofs + p.keyOfs) (if p.keyWide then 2 else 1)
    match p.trans.find? fun t => key &&& t.2.1 = t.1 &&& t.2.1 with
    | some t => t.2.2
    | none => p.dflt

/-- A running parse. -/
structure ParseRun where
  res : ParseResult := {}
  /-- region_end of R121 where it is known; otherwise it is the end of a frame not yet ended, or `bound` if that comes
  first -/
  region : Option Nat := none
  bound : Option Nat := none
  branches : Nat := 0
deriving DecidableEq, Repr

/-- The region's end where it is known: its bound too, once the frame is known to reach beyond it. `got` bytes have come. -/
def ParseRun.regionBy (r : ParseRun) (got : Nat) : Option Nat :=
  match r.region, r.bound with
  | some e, _ => some e
  | none, some b => if b + 4 ≤ got then some b else none
  | none, none => none

/-- R121 on one header: `stated` against the region; a check against an unknown frame end is deferred, unless it overruns
whatever that end is (R123). -/
def lengthCheck (c : ParseCfg) (r : ParseRun) (got stated iclass : Nat) : ParseRun :=
  let r := { r with res := { r.res with outer := some (r.res.outer.getD stated) } }
  let overLen : ParseRun := { r with res := { r.res with overruns := r.res.overruns + 1 } }
  match r.regionBy got with
  | some e =>
    if stated > e then overLen
    else if stated < e then { r with region := some stated, res := { r.res with underruns := r.res.underruns + 1 } }
    else r
  | none =>
    if (r.bound.map fun b => decide (b < stated)).getD false then overLen
    else { r with
      bound := some stated
      res := { r.res with deferred := r.res.deferred ++
        [{ stated := stated, bound := r.bound, iclass := iclass, overLen := c.overLen, under := c.under }] } }

/-- The bytes that an extraction of `n` bytes at `o` takes: those beyond the region's end, as far as it is known, are padding,
which is neither hashed nor classified, and give 0 (R121; DEDUCED, log entry 67). -/
def takeField (bytes : Bytes) (limit : Option Nat) (o n : Nat) : Nat :=
  match limit with
  | none => beAt bytes o n
  | some e => beNat ((List.range n).map fun k => if o + k < e then BitVec.ofNat 8 (byteAt bytes (o + k)) else 0)

/-- The extractions of a state (R112, R118): on a stair pass those into C80 to C95 are ignored (R144). -/
def extractAll (exts : List (Nat × Nat × Nat)) (bytes : Bytes) (limit : Option Nat) (ofs : Nat) (stairPass : Bool) (v : Phv) : Phv :=
  exts.foldl (fun v x =>
    if stairPass ∧ 80 ≤ x.1 then v
    else
      let n := takeField bytes limit (ofs + x.2.1) x.2.2
      { v with c := tnatSet v.c x.1 n, ext := v.ext ++ [⟨x.1, ofs + x.2.1, x.2.2, n⟩] }) v

/-- The parse from state `st` at offset `ofs` (R114 to R117, R121, R128). -/
def parseFrom (graph : Nat → ParseState) (bytes : Bytes) (ended : Bool) (vis : Nat) (stairPass : Bool)
    (iclass : Nat) (cfg : ParseCfg) : Nat → Nat → Nat → ParseRun → ParseResult
  | 0, _, _, r => { r.res with fin := .failed }
  | fuel + 1, st, ofs, r =>
    let stop (e : ParseEnd) : ParseResult := { r.res with fin := e, phv := { r.res.phv with payload := ofs } }
    let p := graph st
    if !p.valid then stop .failed
    else match (if p.lenMode then reach bytes ended vis (ofs + p.lenOfs + if p.lenWide then 2 else 1) else none) with
    | some e => stop e
    | none =>
      let len := headerLen p bytes ofs
      if len ≥ 1 ∧ r.res.phv.hdrs.length ≥ 20 then stop .truncated
      else if p.lenMode ∧ len < p.fixedLen then stop .failed
      else match reach bytes ended vis (stateExtent p ofs len) with
      | some e => stop e
      | none =>
        let limit := match r.region with
          | some e => some e
          | none => r.bound
        let v := extractAll p.exts bytes limit ofs stairPass r.res.phv
        let v := if len ≥ 1 then { v with hdrs := v.hdrs ++ [⟨p.hdrId, ofs, len, none⟩] } else v
        let r := { r with res := { r.res with phv := v }, branches := if len ≥ 1 then 0 else r.branches + 1 }
        -- R121: the exempt headers keep the region as it is
        let r :=
          if p.lchk = 1 then lengthCheck cfg r bytes.length (ofs + beAt bytes (ofs + 2) 2) iclass
          else if p.lchk = 2 ∧ beAt bytes (ofs + 4) 2 ≠ 0 then lengthCheck cfg r bytes.length (ofs + 40 + beAt bytes (ofs + 4) 2) iclass
          else if p.lchk = 3 ∧ beAt bytes (ofs + 4) 2 ≠ 0 ∧ !r.res.phv.fragFirst then
            lengthCheck cfg r bytes.length (ofs + beAt bytes (ofs + 4) 2) iclass
          else r
        -- R128; where two headers of one parse mark the packet as a fragment, the later one stands (DESIGN CHOICE, log entry 67)
        let w := if p.frag = 1 then beAt bytes (ofs + 6) 2 else beAt bytes (ofs + 2) 2
        let offs := if p.frag = 1 then w % 8192 else w / 8
        let more := if p.frag = 1 then bit w 13 else bit w 0
        let isFrag := (p.frag = 1 ∧ (more ∨ offs ≠ 0)) ∨ p.frag = 2
        let isFirst := isFrag ∧ offs = 0 ∧ more
        let r := if isFrag then { r with res := { r.res with
            phv := { r.res.phv with frag := true, fragFirst := decide isFirst, fragOfs := ofs,
                                    fragV6 := p.frag == 2, fragMore := more } } } else r
        if isFrag ∧ (¬ isFirst ∨ !cfg.fftEn) then
          { r.res with fin := .accepted, fragOuter := true, phv := { r.res.phv with payload := ofs + len } }
        else if r.branches ≥ 64 then { r.res with fin := .failed, phv := { r.res.phv with payload := ofs + len } }
        else
          let nx := nextCode p bytes ofs
          if nx < 0x40 then parseFrom graph bytes ended vis stairPass iclass cfg fuel nx (ofs + len) r
          else { r.res with fin := if nx = 0x40 then .accepted else .failed,
                            phv := { r.res.phv with payload := ofs + len } }

/-- More steps than any path takes: at most 20 headers, each followed by fewer than 64 branch states. -/
def parseFuel : Nat := 1400

/-- One polynomial step of a CRC computed most significant bit first. -/
def crcStep (poly acc : Nat) (b : Bool) : Nat :=
  let top := bit acc 31
  let sh := acc * 2 % 2 ^ 32
  if top != b then sh ^^^ poly else sh

/-- An unreflected CRC over bytes, with no final inversion (R125). -/
def crcMsb (poly seed : Nat) (bs : Bytes) : Nat :=
  bs.foldl (fun a b => [7, 6, 5, 4, 3, 2, 1, 0].foldl (fun a k => crcStep poly a (bit b.toNat k)) a) seed

/-- The Toeplitz hash of the first 36 bytes with a key of 320 bits, most significant bit first (R125). -/
def toeplitz (key : Nat) (bs : Bytes) : Nat :=
  (List.range (8 * min bs.length 36)).foldl (fun a i =>
    if bit (byteAt bs (i / 8)) (7 - i % 8) then a ^^^ bitsOf key (320 - 32 - i) 32 else a) 0

/-- The byte span of one selector (R125): container bytes big-endian, disabled bytes and bytes past C95 as 0. -/
def selSpan (c : Tab Nat) (sel : Word) : Bytes :=
  let first := F.PARSE_HP_SEL_CONT.get sel
  let en := F.PARSE_HP_SEL_BYTE_EN.get sel
  (List.range (4 * (F.PARSE_HP_SEL_NCONT.get sel + 1))).map fun b =>
    let k := first + b / 4
    if bit en b ∧ k < 96 then BitVec.ofNat 8 (tnat c k / 2 ^ (8 * (3 - b % 4))) else 0

/-- The selectors in use by a profile (R126). -/
def hpSelectors (d : Device) (n h : Nat) : List Word :=
  let ns := F.PARSE_HP_CFG_NSEL.get (d.cfg (A.PARSE_HP_CFG n h))
  (List.range (min ns 16)).map fun k => d.cfg (A.PARSE_HP_SEL n h k)

/-- The spans of the selectors, symmetric pairs put in order (R126). -/
def pairSpans (sym : Nat) : Nat → List Bytes → List Bytes
  | k, a :: b :: t =>
    let ab := if bit sym k ∧ a.length = b.length ∧ beNat b < beNat a then [b, a] else [a, b]
    ab ++ pairSpans sym (k + 1) t
  | _, [a] => [a]
  | _, [] => []

/-- Hash profile `h` of gallery `n` as in force. -/
def Device.hashCfg (d : Device) (n h : Nat) : HashCfg :=
  let cfg := d.cfg (A.PARSE_HP_CFG n h)
  { func := F.PARSE_HP_CFG_FUNC.get cfg
    sym := F.PARSE_HP_CFG_SYM_PAIR.get cfg
    sels := hpSelectors d n h
    seed := (d.cfg (A.PARSE_HP_SEED n h)).toNat
    key := beNat ((List.range 10).flatMap fun m => beBytes 4 (d.cfg (A.PARSE_HP_KEY n h m)).toNat) }

/-- A hash profile over the containers (R125, R126). FUNC 5 to 7 are treated as 0: CRC32. -/
def HashCfg.hash (g : HashCfg) (c : Tab Nat) : Nat :=
  let stream := (pairSpans g.sym 0 (g.sels.map (selSpan c))).flatten
  match g.func with
  | 1 => crcMsb 0x1EDC6F41 g.seed stream
  | 2 => crcMsb 0x741B8CD7 g.seed stream
  | 3 => crcMsb 0x814141AB g.seed stream
  | 4 => toeplitz g.key stream
  | _ => crcMsb 0x04C11DB7 g.seed stream

/-- What the class does with length faults: 0 go on, 1 TRAP, 2 DROP (R122). -/
def Device.overrunAct (d : Device) (n iclass : Nat) : Nat :=
  match d.fld (A.PARSE_IC_CFG n iclass) F.PARSE_IC_CFG_OVERRUN_ACT with
  | 1 => 1 | 2 => 0 | _ => 2
def Device.underrunAct (d : Device) (n iclass : Nat) : Nat :=
  match d.fld (A.PARSE_IC_CFG n iclass) F.PARSE_IC_CFG_UNDERRUN_ACT with
  | 1 => 1 | 2 => 2 | _ => 0
/-- What it does with truncation (R116). -/
def Device.truncAct (d : Device) (n iclass : Nat) : Nat :=
  match d.fld (A.PARSE_IC_CFG n iclass) F.PARSE_IC_CFG_TRUNC_ACT with
  | 1 => 1 | 2 => 2 | _ => 0

/-- The parser settings of class `iclass` of gallery `n` in force (R120, R124). -/
def Device.parseCfg (d : Device) (n iclass : Nat) : ParseCfg :=
  let ih := d.cfg (A.PARSE_IC_HASH n iclass)
  { overLen := d.overrunAct n iclass, under := d.underrunAct n iclass, trunc := d.truncAct n iclass
    fftEn := d.flag (A.PARSE_IC_CFG n iclass) F.PARSE_IC_CFG_FFT_EN
    h0 := d.hashCfg n (F.PARSE_IC_HASH_H0_PROF.get ih)
    h1 := if F.PARSE_IC_HASH_H1_EN.get ih = 1 then some (d.hashCfg n (F.PARSE_IC_HASH_H1_PROF.get ih)) else none }

/-- HP_CFG.OVERLEN of the configuration in force (R126). -/
def hpOverlen (d : Device) (n h : Nat) : Bool :=
  let cfg := d.cfg (A.PARSE_HP_CFG n h)
  F.PARSE_HP_CFG_FUNC.get cfg = 4 &&
    decide (((hpSelectors d n h).map fun s => 4 * (F.PARSE_HP_SEL_NCONT.get s + 1)).sum > 36)

/-- HP_CFG.SYM_BAD of the configuration in force (R126). -/
def hpSymBad (d : Device) (n h : Nat) : Bool :=
  let cfg := d.cfg (A.PARSE_HP_CFG n h)
  let sym := F.PARSE_HP_CFG_SYM_PAIR.get cfg
  let ns := min (F.PARSE_HP_CFG_NSEL.get cfg) 16
  (List.range 8).any fun k => bit sym k &&
    (decide (ns < 2 * k + 2) ||
      F.PARSE_HP_SEL_NCONT.get (d.cfg (A.PARSE_HP_SEL n h (2 * k))) !=
      F.PARSE_HP_SEL_NCONT.get (d.cfg (A.PARSE_HP_SEL n h (2 * k + 1))))

/-- Slot index of a hash in a range of `size` (R127). -/
def hashIndex (h size : Nat) : Nat := h * size / 2 ^ 32

/-- The hashes of a pass (R125, R124). -/
def ParseCfg.withHashes (c : ParseCfg) (v : Phv) : Phv :=
  { v with h0 := c.h0.hash v.c, h1 := (c.h1.map fun g => g.hash v.c).getD 0 }

/-- The parse of a pass: class `iclass` of gallery `n`, bank `bank`, from state `start`, with the settings `cfg`. On a stair pass
C80 to C95 keep their values (R144). A frame that has ended within the window has its checks made at once; the checks of one that
goes on beyond it are deferred, whether or not its end has come (R123, R144). -/
def parsePass (d : Device) (n bank iclass start : Nat) (cfg : ParseCfg) (stairPass : Bool) (old : Tab Nat) (bytes : Bytes)
    (ended : Bool) (vis : Nat) : ParseResult :=
  let keep := if stairPass then old.filter fun e => 80 ≤ e.1 else []
  let whole := ended && decide (bytes.length ≤ vis)
  let run : ParseRun := { res := { phv := { c := keep } }, region := if whole then some (bytes.length - 4) else none }
  let r := parseFrom (readParseState d n bank) bytes ended vis stairPass iclass cfg parseFuel start 0 run
  { r with phv := cfg.withHashes r.phv }

end Sys2Proof.Machine
end

