-- ==== Sys2Proof/Machine/Tables.lean ====
section
/-! DEFINITION. The shared tables: entry formats and placement (R153 to R156), cuckoo insertion (R157, R158), LPM,
ternary, indirection and extension lookups (R127, R160 to R164). -/

namespace Sys2Proof.Machine

/-- Address of TABLE counter `x` (R175). -/
def tblCnt (x : Nat) : Nat := A.TABLE_TBL_CNT x

-- Rows and entries -------------------------------------------------------------------------------------------------

/-- Slot `s` of an EM or extension row. -/
def emSlot (row s : Nat) : Nat := bitsOf row (128 * s) 128

/-- A row with slot `s` replaced. -/
def emPut (row s v : Nat) : Nat := row - emSlot row s * 2 ^ (128 * s) + v % 2 ^ 128 * 2 ^ (128 * s)

def emGm (e : Nat) : Nat := e % 4
def emWide (e : Nat) : Bool := bit e 2
def emStatic (e : Nat) : Bool := bit e 4
def emKtype (e : Nat) : Nat := bitsOf e 7 3
def emActIdx (e : Nat) : Nat := bitsOf e 10 12
def emAdata (e : Nat) : Nat := bitsOf e 22 32

/-- An entry with bits [lo + w - 1 : lo] replaced. -/
def putBits (e lo w v : Nat) : Nat := e - bitsOf e lo w * 2 ^ lo + v % 2 ^ w * 2 ^ lo

/-- Slot 1 or 3 is the second slot of a wide pair when the slot before it has WIDE = 1 (R154). -/
def emSecond (row s : Nat) : Bool := s % 2 == 1 && emWide (emSlot row (s - 1))

/-- Is a slot free (R154)? -/
def emFree (row s : Nat) : Bool := emGm (emSlot row (if emSecond row s then s - 1 else s)) == 0

/-- The key of the entry that begins at slot `s` (R154). -/
def emKey (row s : Nat) : Nat :=
  let e := emSlot row s
  if emWide e then bitsOf e 54 74 + emSlot row (s + 1) * 2 ^ 74 else bitsOf e 54 74

/-- The entries of a row: the slots where an entry that is not free begins. -/
def emEntries (row : Nat) : List Nat :=
  (List.range 4).filter fun s => !emSecond row s && emGm (emSlot row s) != 0

/-- The first slots, in order, where an entry of this width finds room (R157). -/
def emRoom (row : Nat) (wide : Bool) : List Nat :=
  if wide then [0, 2].filter fun s => emFree row s && emFree row (s + 1)
  else (List.range 4).filter fun s => emFree row s

/-- Free the entry at slot `s`: GM = 0, and a wide entry's second slot is zeroed with it (R154). -/
def emClear (row s : Nat) : Nat :=
  let e := emSlot row s
  let r := emPut row s (putBits e 0 2 0)
  if emWide e then emPut r (s + 1) 0 else r

/-- Write an entry at slot `s`; a narrow one written into a freed wide pair zeroes the pair's other slot (R154). -/
def emWrite (row s : Nat) (wide : Bool) (e e2 : Nat) : Nat :=
  if wide then emPut (emPut row s e) (s + 1) e2
  else
    let base := s / 2 * 2
    let row := if emWide (emSlot row base) then emPut (emPut row base 0) (base + 1) 0 else row
    emPut row s e

-- Placement (R156) -------------------------------------------------------------------------------------------------

/-- A key with its type and width: what an EM lookup seeks. -/
structure EmKey where
  ktype : Nat
  wide : Bool
  key : Nat
deriving DecidableEq, Repr

/-- The key record of R156 as 26 bytes, most significant first. -/
def keyRecord (k : EmKey) : Bytes :=
  beBytes 26 ((k.ktype * 8 + b2n k.wide * 4) * 2 ^ 202 + k.key % 2 ^ 202)

/-- A candidate row: base + floor(h * n / 2^32) (R156). -/
def candRow (seed base n : Nat) (rec : Bytes) : Nat := base + crcMsb 0x1EDC6F41 seed rec * n / 2 ^ 32

/-- Keep the first of equal numbers. -/
def dedup : List Nat → List Nat
  | [] => []
  | a :: t => a :: (dedup t).filter fun b => b ≠ a

/-- The EM's hash seeds. -/
def Device.emSeeds (d : Device) : List Nat :=
  [(d.reg A.TABLE_EM_SEED0).toNat, (d.reg A.TABLE_EM_SEED1).toNat, (d.reg A.TABLE_EM_SEED2).toNat,
   (d.reg A.TABLE_EM_SEED3).toNat]

/-- The candidate rows of a key in a region of a layout with F flow-key blocks and E EM blocks (R156). -/
def emCands (seeds : List Nat) (f e : Nat) (flow : Bool) (k : EmKey) : List Nat :=
  let rec_ := keyRecord k
  let base := if flow then 0 else 65536 * f
  let n := if flow then 65536 * f else 65536 * (e - f)
  dedup (seeds.map fun sd => candRow sd base n rec_)

/-- The candidate rows in the layout in force. -/
def Device.emRows (d : Device) (flow : Bool) (k : EmKey) : List Nat :=
  emCands d.emSeeds (profF d.profile.active) (profE d.profile.active) flow k

/-- The rows an EM lookup probes: while re-placement runs, those of the old layout too (R159). -/
def Device.emProbe (d : Device) (flow : Bool) (k : EmKey) : List Nat :=
  match d.table.replacing with
  | none => d.emRows flow k
  | some r => dedup (d.emRows flow k ++ emCands d.emSeeds r.oldF r.oldE flow k)

/-- A row of the flexible pool; a row out of use reads as empty (R391). -/
def Device.poolRow (d : Device) (row : Nat) : Nat := tnat d.table.pool row

/-- Store a pool row. -/
def Device.setPoolRow (d : Device) (row v : Nat) : Device :=
  { d with table := { d.table with pool := tnatSet d.table.pool row v } }

/-- A row is out of use (R391). -/
def Device.rowOut (d : Device) (code row : Nat) : Bool := d.table.outRows.contains (code, row)

/-- The places in these rows that hold the key in a generation slot, in probe and slot order (R156). -/
def emFindIn (row : Nat → Nat) (slot : Nat) (k : EmKey) (rows : List Nat) : List (Nat × Nat) :=
  rows.flatMap fun r => ((emEntries (row r)).filter fun s =>
    let e := emSlot (row r) s
    bit (emGm e) slot && emKtype e == k.ktype && emWide e == k.wide && emKey (row r) s == k.key).map fun s => (r, s)

/-- An entry is hit in cycle `cyc`: the hits of the last such cycle are kept for a sweep of that cycle (R168, R173). -/
def Device.noteHit (d : Device) (cyc : Nat) (pl : Nat × Nat) : Device :=
  if cyc < d.table.hitCyc then d
  else { d with table := { d.table with
    hits := pl :: (if cyc = d.table.hitCyc then d.table.hits else [])
    hitCyc := cyc } }

/-- An EM lookup in cycle `cyc`: the entry, and the device with HIT set and duplicates counted (R156). -/
def Device.emLookup (d : Device) (cyc slot : Nat) (flow : Bool) (k : EmKey) : Option (Nat × Nat) × Device :=
  let hits := emFindIn (fun r => if d.rowOut 0 r then 0 else d.poolRow r) slot k (d.emProbe flow k)
  let d := if hits.length ≥ 2 then d.count (tblCnt 12) else d
  match hits with
  | (r, s) :: _ =>
    let row := d.poolRow r
    let e := emSlot row s
    (some (e, r), (d.setPoolRow r (emPut row s (putBits e 5 1 1))).noteHit cyc (r, s))
  | [] => (none, d.count (tblCnt (17 + k.ktype)))

/-- An extension lookup (R164). -/
def Device.extLookup (d : Device) (slot : Nat) (k : EmKey) : Option Nat × Device :=
  if d.table.extRows = 0 then (none, d)
  else
    let seeds := [(d.reg A.TABLE_EXT_SEED0).toNat, (d.reg A.TABLE_EXT_SEED1).toNat]
    let rows := dedup (seeds.map fun sd => candRow sd 0 d.table.extRows (keyRecord k))
    let hits := emFindIn (tnat d.table.ext) slot k rows
    let d := if hits.length ≥ 2 then d.count (tblCnt 12) else d
    (hits.head?.map fun p => emSlot (tnat d.table.ext p.1) p.2, d)

-- Vacating regions (R66) -------------------------------------------------------------------------------------------

/-- The region of a pool block in a profile: 0 flow keys, 1 general EM, 2 LPM (R58). -/
def blockRegion (p b : Nat) : Nat := if b < profF p then 0 else if b < profE p then 1 else 2

/-- A block leaves its region under the staged profile (R66). -/
def Device.vacating (d : Device) (row : Nat) : Bool :=
  blockRegion d.profile.active (row / 65536) != blockRegion d.profile.staged (row / 65536)

/-- Learning and re-placement use a block's rows until the boundary that follows the write of STAGED that vacates it: an
insert of the same stroke is made, and its entry counts in REMAIN (R66, R69). -/
def Device.learnVacating (d : Device) (row : Nat) : Bool :=
  blockRegion d.profile.active (row / 65536) != blockRegion d.profile.vacate (row / 65536)

/-- A row is locked, until its lock matures (R172). -/
def Device.rowLocked (d : Device) (row : Nat) : Bool := ((assoc d.table.locks row).map fun due => decide (d.strokeNo < due)).getD false

/-- A row that learning, ageing and re-placement pass by: a locked one, and one under test or out of service, which counts as locked
(R172, R391, R393). -/
def Device.rowHeld (d : Device) (row : Nat) : Bool := d.rowLocked row || d.rowOut 0 row

/-- A row that learning and re-placement may use (R157). -/
def Device.rowUsable (d : Device) (row : Nat) : Bool := !d.rowHeld row && !d.learnVacating row

-- Cuckoo insertion (R157) ------------------------------------------------------------------------------------------

/-- A place: row and first slot. -/
abbrev Place := Nat × Nat

/-- The key of the entry at a place. -/
def keyAt (pool : Tab Nat) (pl : Place) : EmKey :=
  let row := tnat pool pl.1
  ⟨emKtype (emSlot row pl.2), emWide (emSlot row pl.2), emKey row pl.2⟩

/-- The first free place of this width among rows. -/
def firstRoom (pool : Tab Nat) (usable : Nat → Bool) (wide : Bool) (rows : List Nat) : Option Place :=
  (rows.filter usable).findSome? fun r => ((emRoom (tnat pool r) wide).head?).map fun s => (r, s)

/-- What the search of R157 finds: the path and the free place of its last entry, and rot after it. The entry at `src`, which
re-placement inserts again, is none of the entries moved for it. -/
def cuckooSearch (pool : Tab Nat) (usable : Nat → Bool) (cands : EmKey → List Nat) (wide : Bool) (src : Option Place) :
    Nat → EmKey → Option Nat → List Place → Nat → Option (List Place × Place) × Nat
  | 0, _, _, _, rot => (none, rot)
  | n + 1, cur, own, path, rot =>
    let vs := ((cands cur).filter fun r => usable r && own != some r).flatMap fun r =>
      ((emEntries (tnat pool r)).filter fun s => emWide (emSlot (tnat pool r) s) == wide &&
        !path.contains (r, s) && src != some (r, s)).map fun s => (r, s)
    let movable := vs.findSome? fun v =>
      (firstRoom pool usable wide ((cands (keyAt pool v)).filter fun r => r != v.1)).map fun pl => (v, pl)
    match movable with
    | some (v, pl) => (some (path ++ [v], pl), rot)
    | none =>
      match vs[rot % max vs.length 1]? with
      | none => (none, rot)
      | some v => cuckooSearch pool usable cands wide src n (keyAt pool v) (some v.1) (path ++ [v]) ((rot + 1) % 4)

/-- Move the entry at `src` to `dst`, bit for bit (R158). -/
def moveEntry (pool : Tab Nat) (wide : Bool) (src dst : Place) : Tab Nat :=
  let row := tnat pool src.1
  let e := emSlot row src.2
  let e2 := emSlot row (src.2 + 1)
  let pool := tnatSet pool dst.1 (emWrite (tnat pool dst.1) dst.2 wide e e2)
  tnatSet pool src.1 (emClear (tnat pool src.1) src.2)

/-- Move the path's entries, last first, each to the place left by the one after it. -/
def moveAll (pool : Tab Nat) (wide : Bool) : List Place → Place → Tab Nat
  | [], _ => pool
  | v :: t, dst =>
    -- `v :: t` is the path reversed: last entry first
    moveAll (moveEntry pool wide v dst) wide t v

/-- The outcome of an insert: the pool, rot, the destination row of each move in the order made, and the place written; none for
noroom. `src` is the place of an entry that is being re-placed. -/
def cuckooInsert (pool : Tab Nat) (usable : Nat → Bool) (cands : EmKey → List Nat) (rot : Nat) (k : EmKey)
    (src : Option Place) (e e2 : Nat) : Option (Tab Nat × List Nat × Place) × Nat :=
  match firstRoom pool usable k.wide (cands k) with
  | some pl => (some (tnatSet pool pl.1 (emWrite (tnat pool pl.1) pl.2 k.wide e e2), [], pl), rot)
  | none =>
    match cuckooSearch pool usable cands k.wide src 8 k (src.map (·.1)) [] rot with
    | (none, rot) => (none, rot)
    | (some (path, dst), rot) =>
      let pool := moveAll pool k.wide path.reverse dst
      match path.head? with
      | none => (none, rot)
      | some pl => (some (tnatSet pool pl.1 (emWrite (tnat pool pl.1) pl.2 k.wide e e2),
          dst.1 :: (path.drop 1).reverse.map (·.1), pl), rot)

/-- The two slots of an entry from its fields (R154). -/
def emCompose (gm : Nat) (static_ hit age : Bool) (k : EmKey) (actIdx adata : Nat) : Nat × Nat :=
  let e := gm + b2n k.wide * 4 + b2n static_ * 16 + b2n hit * 32 + b2n age * 64 + k.ktype * 128 +
    actIdx % 4096 * 1024 + adata % 2 ^ 32 * 2 ^ 22 + k.key % 2 ^ 74 * 2 ^ 54
  (e, k.key / 2 ^ 74 % 2 ^ 128)

-- LPM (R160, R161) -------------------------------------------------------------------------------------------------

/-- Unit `u` of an LPM row. -/
def lpmUnit (row u : Nat) : Nat := bitsOf row (256 * u) 128

/-- A unit that matches: its prefix length, or none. -/
def lpmMatch (row u slot : Nat) (v6 : Bool) (vrf addr : Nat) : Option Nat :=
  let e := lpmUnit row u
  let taken := u = 1 ∧ bit (lpmUnit row 0) 2 ∧ lpmUnit row 0 % 4 ≠ 0
  let len := bitsOf e 3 8
  let w := if v6 then 128 else 32
  let pfx := if v6 then lpmUnit row 1 else bitsOf e 67 32
  if ¬ taken ∧ (v6 → u = 0) ∧ bit e slot ∧ bit e 2 = v6 ∧ len ≤ w ∧ bitsOf e 11 12 = vrf ∧
      pfx / 2 ^ (w - len) = addr / 2 ^ (w - len) then some len else none

/-- An LPM row as lookups of this stroke see it (R161). -/
def Device.lpmRow (d : Device) (row : Nat) : Nat := (assoc d.table.lpmOld row).getD (d.poolRow row)

/-- The longest matching prefix: its unit's entry (R161). -/
def Device.lpmLookup (d : Device) (slot : Nat) (v6 : Bool) (vrf addr : Nat) : Option Nat × Device :=
  let first := 65536 * profE d.profile.active
  let rows := dedup ((d.table.pool.map (·.1) ++ d.table.lpmOld.map (·.1)).filter fun r => first ≤ r && !d.rowOut 1 r)
  let hits := rows.flatMap fun r => [0, 1].filterMap fun u =>
    (lpmMatch (d.lpmRow r) u slot v6 vrf addr).map fun len => (len, r, u)
  let best := hits.foldl (fun m h => max m (h.1 + 1)) 0
  let tops := hits.filter fun h => h.1 + 1 = best
  let d := if tops.length ≥ 2 then d.count (tblCnt 13) else d
  let low := tops.foldl (fun (m : Option (Nat × Nat)) h =>
    match m with
    | some q => if 2 * h.2.1 + h.2.2 < 2 * q.1 + q.2 then some h.2 else m
    | none => some h.2) none
  (low.map fun h => lpmUnit (d.lpmRow h.1) h.2, d)

-- Ternary (R162) ---------------------------------------------------------------------------------------------------

/-- A ternary row of a generation slot. -/
def Device.ternRow (d : Device) (slot row : Nat) : Nat :=
  if d.rowOut 2 (slot * 262144 + row) then 0 else tnat d.table.tern (slot * 262144 + row)

/-- The rows of an entry of `m` rows all match: part 0 of the key is the most significant five containers. -/
def ternMatch (rowAt : Nat → Nat) (row m : Nat) (parts : List Nat) : Bool :=
  (List.range m).all fun j =>
    let r := rowAt (row + j)
    ((parts.getD j 0 ^^^ bitsOf r 0 160) &&& bitsOf r 160 160) == 0

/-- A ternary lookup: the entry's first row (R162). -/
def Device.ternLookup (d : Device) (slot list m : Nat) (parts : List Nat) : Option Nat :=
  let rows := (d.table.tern.map (·.1)).filterMap fun k => if k / 262144 = slot then some (k % 262144) else none
  let join := if m = 1 then 0 else if m = 2 then 1 else 2
  (rows.find? fun r =>
    let v := d.ternRow slot r
    bit v 372 && bitsOf v 364 6 == list && bitsOf v 370 2 == join && r % m == 0 &&
      ternMatch (d.ternRow slot) r m parts).map fun r => d.ternRow slot r

-- Indirection (R127, R163) -----------------------------------------------------------------------------------------

/-- Member slot `j`: one of a row that is out of use is not live (R391, R395). -/
def Device.member (d : Device) (j : Nat) : Nat :=
  if d.rowOut 4 (j / 16) then 0 else bitsOf (tnat d.table.members (j / 16)) (32 * (j % 16)) 32

/-- Descriptor `g`: one of a row that is out of use has no member (R391, R395). -/
def Device.group (d : Device) (g : Nat) : Nat :=
  if d.rowOut 3 (g / 8) then 0 else bitsOf (tnat d.table.groups (g / 8)) (64 * (g % 8)) 64

/-- Selection through the indirection table: the result, with the probe and fallback counters of gallery `n` (R127). -/
def Device.select (d : Device) (n g h : Nat) : Nat × Device :=
  let desc := d.group g
  let base := bitsOf desc 0 20
  let size0 := min (bitsOf desc 20 13) 4096
  let fallback := bitsOf desc 33 16
  let bad := base + size0 > 1048576
  let d := if bad then d.count (tblCnt 14) else d
  let size := if bad then 0 else size0
  if size = 0 then (fallback, d)
  else
    let idx := hashIndex h size
    match (List.range 8).find? fun p => bit (d.member (base + (idx + p) % size)) 16 with
    | some p =>
      (d.member (base + (idx + p) % size) % 65536, if p ≥ 1 then d.count (A.PARSE_PS_CNT n 9) else d)
    | none => (fallback, d.count (A.PARSE_PS_CNT n 10))

/-- AUTO members follow their port (R163). -/
def Device.autoMembers (d : Device) (p : Nat) (live : Bool) : Device :=
  let fixSlot (m : Nat) : Nat :=
    if bit m 17 ∧ m % 1024 = p then (if live then setBit m 16 else clearBit m 16) else m
  let fixRow (r : Nat) : Nat := ((List.range 16).map fun j => fixSlot (bitsOf r (32 * j) 32) * 2 ^ (32 * j)).sum
  { d with table := { d.table with
      members := d.table.members.foldl (fun t e => tnatSet t e.1 (fixRow e.2)) d.table.members } }

end Sys2Proof.Machine
end

