-- ==== Sys2Proof/Machine/Flow.lean ====
section
/-! DEFINITION. Flow records and overflow buckets: what the end of a packet's life does to them (R277 to R285). -/

namespace Sys2Proof.Machine

/-- Address of TELEM counter `x` (R294). -/
def telCnt (x : Nat) : Nat := A.TELEM_TEL_CNT x

/-- The number of buckets of a profile's flow table (R279). -/
def flowBuckets (p : Nat) : Nat := profFlows p / 4

/-- The whole table is on die (R280). -/
def flowOnDie (p : Nat) : Bool := profFlows p == 131072

/-- A flow's home bucket (R279). -/
def Device.flowHome (d : Device) (inPort key : Nat) : Nat :=
  let h := crcMsb 0x1EDC6F41 (d.cfg A.TELEM_FS_SEED).toNat (beBytes 18 (inPort * 2 ^ 128 + key))
  h * flowBuckets d.profile.active / 2 ^ 32

/-- The flow key of a PHV for an ingress class (R278), and whether the class has records. -/
def Device.flowKey (d : Device) (n iclass : Nat) (c : Tab Nat) : Bool × Nat :=
  let w := d.cfg (A.GAL_FS_CLASS n iclass)
  let first := F.GAL_FS_CLASS_KEY_CONT.get w
  let k := F.GAL_FS_CLASS_KEY_NCONT.get w + 1
  let v := (List.range 4).foldl (fun a j =>
    a * 2 ^ 32 + (if j < k ∧ first + j < 96 then tnat c (first + j) else 0)) 0
  (F.GAL_FS_CLASS_EN.get w == 1, if F.GAL_FS_CLASS_EN.get w = 1 then v else 0)

/-- Add to a counter that stops at its largest value: the count, and whether it stopped short. -/
def satAdd (w a n : Nat) : Nat × Bool := if a + n < 2 ^ w then (a + n, false) else (2 ^ w - 1, decide (a + n ≥ 2 ^ w))

/-- The histogram bin of a residence time in ns (R282). -/
def latBin (b r : Nat) : Nat :=
  if r < b then 0 else ((List.range 6).find? fun k => r < b * 2 ^ (k + 1)).elim 7 (· + 1)

/-- A record after one packet (R281, R282). -/
def FlowRec.update (r : FlowRec) (b : Nat) (u : FlowUpd) : FlowRec :=
  let ns := (u.res.getD 0) / 65536
  let bin := latBin b ns
  let h := satAdd 16 (r.hist.getD bin 0) (if u.res.isSome then 1 else 0)
  let lat := min (ns / 8) 65535
  let qp := (u.held.map fun h => min (h / 16) 65535).getD 0
  let dr := satAdd 16 r.drops (if u.drop.isSome then 1 else 0)
  { r with
    iclass := u.iclass
    egPort := (u.eg.map (·.1)).getD r.egPort
    queue := (u.eg.map (·.2)).getD r.queue
    hasEg := r.hasEg || u.eg.isSome
    multiEg := r.multiEg || (r.hasEg && (u.eg.map fun e => e.1 != r.egPort).getD false)
    sat := r.sat || h.2 || dr.2 || decide (ns / 8 > 65535) ||
      ((u.held.map fun h => decide (h / 16 > 65535)).getD false)
    pkts := (r.pkts + 1) % 2 ^ 40
    octets := (r.octets + u.len) % 2 ^ 48
    first := some (r.first.getD u.tsClk)
    last := u.tsClk
    hist := modifyAt r.hist bin fun _ => h.1
    latMax := if u.res.isSome then max r.latMax lat else r.latMax
    qpeak := max r.qpeak qp
    drops := dr.1
    lastDrop := u.drop.getD r.lastDrop }

/-- LAT_BASE in force: 0 is treated as 1 (R294). -/
def Device.latBase (d : Device) : Nat := max 1 (d.fld A.TELEM_LAT_BASE F.TELEM_LAT_BASE_BASE)

/-- Count a packet in its port's overflow bucket under reason `x` (R285); its counts saturate. -/
def Device.overflowUpd (d : Device) (x : Nat) (u : FlowUpd) : Device :=
  let o := tabGet (fun _ => ({} : OverflowRec)) d.telem.overflow u.inPort
  let r := o.body.update d.latBase u
  let r := { r with inPort := u.inPort, pkts := min (o.body.pkts + 1) (2 ^ 40 - 1),
                    octets := min (o.body.octets + u.len) (2 ^ 48 - 1) }
  let o := { counts := modifyAt o.counts x fun c => min (c + 1) (2 ^ 32 - 1), body := r }
  { d with telem := { d.telem with overflow := tabSet (fun _ => ({} : OverflowRec)) d.telem.overflow u.inPort o } }

/-- A new flow's record, in a list of a bucket's. -/
def Device.newRec (d : Device) (rs : List FlowRec) (u : FlowUpd) : List FlowRec :=
  rs ++ [({ key := u.key, inPort := u.inPort } : FlowRec).update d.latBase u]

/-- The update that took the bucket's last free record in the cycle in which `u` ends, from a gallery above `u`'s: it gives the record
up, unless another update of its flow has come (R425). -/
def Device.yields (d : Device) (b : Nat) (rs : List FlowRec) (u : FlowUpd) : Option FlowUpd :=
  match d.telem.lastNew with
  | some (b', o) =>
    if b' = b ∧ o.at_ = u.at_ ∧ u.gal < o.gal ∧ rs.any (fun r => r.key = o.key ∧ r.inPort = o.inPort ∧ r.pkts = 1) then some o
    else none
  | none => none

/-- Make an update in a bucket that is at hand (R279, R281). Of two new flows that meet at the last free record in one cycle the one
of the lower gallery takes it (R425). -/
def Device.bucketUpd (d : Device) (b : Nat) (u : FlowUpd) : Device :=
  let rs := tabGet (fun _ => ([] : List FlowRec)) d.telem.buckets b
  let put (rs : List FlowRec) (live : Nat) (d : Device) : Device :=
    { d with telem := { d.telem with buckets := tabSet (fun _ => ([] : List FlowRec)) d.telem.buckets b rs,
                                     live := live } }
  match rs.findIdx? fun r => r.key = u.key ∧ r.inPort = u.inPort with
  | some i => put (modifyAt rs i fun r => r.update d.latBase u) d.telem.live d
  | none =>
    -- R66: no new record beyond a smaller staged size
    if profFlows d.profile.staged < profFlows d.profile.active ∧ profFlows d.profile.staged ≤ d.telem.live then
      d.overflowUpd 3 u
    else if rs.length ≥ 4 then
      match d.yields b rs u with
      | none => d.overflowUpd 1 u
      | some o =>
        let rs := rs.filter fun r => ¬(r.key = o.key ∧ r.inPort = o.inPort)
        let d := put (d.newRec rs u) d.telem.live d
        ({ d with telem := { d.telem with lastNew := some (b, u) } }).overflowUpd 1 o
    else
      let d := if rs.length = 3 then { d with telem := { d.telem with lastNew := some (b, u) } } else d
      (put (d.newRec rs u) (d.telem.live + 1) d).count (telCnt 0)

/-- The cached buckets of a set. -/
def Device.cacheSet (d : Device) (b : Nat) : List (Nat × Bool) :=
  tabGet (fun _ => ([] : List (Nat × Bool))) d.telem.cache (b % 4096)

def Device.setCache (d : Device) (b : Nat) (l : List (Nat × Bool)) : Device :=
  { d with telem := { d.telem with cache := tabSet (fun _ => ([] : List (Nat × Bool))) d.telem.cache (b % 4096) l } }

/-- The end of a packet's life: its flow record or its port's overflow bucket is updated, once (R277 to R280). -/
def Device.flowEnd (d : Device) (tracked : Bool) (u : FlowUpd) : Device :=
  let u := { u with at_ := d.absCyc }
  if !tracked || d.fld A.TELEM_FS_CFG F.TELEM_FS_CFG_EN == 0 then d.overflowUpd 0 u
  else
    let b := d.flowHome u.inPort u.key
    if flowOnDie d.profile.active then d.bucketUpd b u
    else if !d.telem.granted then d.overflowUpd 3 u
    else if (d.cacheSet b).any fun e => e.1 = b then
      (d.setCache b ((b, true) :: (d.cacheSet b).filter fun e => e.1 ≠ b)).bucketUpd b u
    else if d.telem.misses.length ≥ 4096 then ((d.overflowUpd 2 u).count (telCnt 5)).raise 0xD0000 0
    else { d with telem := { d.telem with misses := d.telem.misses ++ [(b, u)] } }

/-- FLOW_MISS_FETCH: the bucket of the oldest missed update is fetched under the flow-state budget, displacing the way
longest without an update, and the update is made; a bucket that an earlier fetch has brought is at hand (R280). -/
def flowMissFetch (d : Device) : Device :=
  match d.telem.misses with
  | [] => d
  | (b, u) :: rest =>
    let set := d.cacheSet b
    if set.any fun e => e.1 = b then
      let d := { d with telem := { d.telem with misses := rest } }
      (d.setCache b ((b, true) :: set.filter fun e => e.1 ≠ b)).bucketUpd b u
    else
    let victim := if set.length ≥ 8 then set.getLast? else none
    let dirty := (victim.map (·.2)).getD false
    let size := if dirty then 8 else 4
    if !d.canAdmit 0x08 0 size 1 d.stroke.cyc b then d.mustWait 0x08 0 b size
    else
      let d := (d.spend 0x08 0 size b).lhMoved size none
      let d := { d with telem := { d.telem with misses := rest } }
      let d := if dirty then d.count (telCnt 4) else d
      let d := (d.count (telCnt 3)).setCache b ((b, true) :: (set.take 7))
      d.bucketUpd b u

end Sys2Proof.Machine
end

