-- ==== Sys2Proof/Machine/Drops.lean ====
section
/-! DEFINITION. Drop counts, drop records and their aggregation (R234 to R237, R289). -/

namespace Sys2Proof.Machine

/-- What is known of a dropped packet when the drop is decided (R289). -/
structure DropInfo where
  code : Nat
  /-- the gallery it is charged to: the one that decides it (R235) -/
  gal : Nat
  inPort : Nat := 0
  iclass : Nat := 0
  pass : Nat := 0
  len : Nat := 0
  stamp : Word := 0
  h0 : Nat := 0
  key : Nat := 0
  stomped : Bool := false
  mirror : Bool := false
  replica : Bool := false
  egress : Bool := false
  host : Bool := false
  /-- origin and function of the packet (R364) -/
  org : Nat := 0
  fn : Option Nat := none
  /-- global queue number, and its HELD -/
  queue : Option (Nat × Nat) := none
  /-- stage and ACT_IDX of the deciding action word -/
  act : Option (Nat × Nat) := none
deriving DecidableEq, Repr

/-- The 64 bytes of a full drop record; its first 32 are the standard record (R289). -/
def dropBytes (d : Device) (i : DropInfo) : Bytes :=
  let t := d.clockNow
  let flags := b2n i.stomped + 2 * b2n i.mirror + 4 * b2n i.replica + 8 * b2n i.egress + 16 * b2n i.host +
    32 * b2n i.queue.isSome
  let q := (i.queue.map (·.1)).getD 0
  beBytes 8 d.strokeNo ++ beBytes 5 (clkSec t % 1024 * 2 ^ 30 + clkNs t) ++ beBytes 1 i.code ++ beBytes 1 flags ++
    beBytes 1 (i.gal % 32 + i.pass * 32) ++ beBytes 2 (i.inPort + i.iclass * 1024) ++
    beBytes 2 (q / 16 + q % 16 * 1024) ++ beBytes 2 i.len ++ beBytes 4 i.stamp.toNat ++ beBytes 4 i.h0 ++ zeroBytes 2 ++
    beBytes 16 i.key ++ beBytes 4 ((i.queue.map (·.2)).getD 0) ++ beBytes 4 d.hall.freeShown ++
    beBytes 2 ((i.act.map (·.2)).getD 0) ++ beBytes 1 ((i.act.map (·.1)).getD 0xFF) ++ zeroBytes 5

/-- Records a gallery may make in a stroke: the lower of REC_MAX and the profile's cap (R235). -/
def Device.dropCap (d : Device) (n : Nat) : Nat :=
  min (min (d.fld (A.GAL_DROP_CFG n) F.GAL_DROP_CFG_REC_MAX) 1024) (profDropCap d.profile.active)

/-- Add a drop to its reason's aggregate of this stroke (R235). DROP_AGG of a fenced gallery keeps its value (R237). -/
def Device.aggregate (d : Device) (n code : Nat) : Device :=
  let d := { d with drops := { d.drops with agg := tnatSet d.drops.agg (256 * n + code) (tnat d.drops.agg (256 * n + code) + 1) } }
  let a := A.GAL_DROP_STAT n
  let d := (if d.isFenced n then d else d.count (A.GAL_DROP_AGG n code)).markSet a 0
  let d := d.setReg a (F.GAL_DROP_STAT_LAST_CODE.put (F.GAL_DROP_STAT_AGGREGATED.put (d.reg a) 1) code)
  d.raise (galBase n 0) 0

/-- A drop record joins its gallery's buffer of 256, full in P6 and standard otherwise, or is folded into the aggregate
(R289, R292). -/
def Device.pushRecord (d : Device) (i : DropInfo) : Device :=
  if (d.drops.records.filter fun r => r.gal = i.gal).length ≥ 256 then
    ((d.aggregate i.gal i.code).count (telCnt 6)).raise 0xD0000 1
  else { d with drops := { d.drops with records := d.drops.records ++
    [⟨i.gal, i.code, (dropBytes d i).take (if d.profile.active = 6 then 64 else 32)⟩] } }

/-- A record for a drop of this stroke, or a place in the aggregate once the gallery has made its share (R235). -/
def Device.recordDrop (d : Device) (i : DropInfo) : Device :=
  let made := tnat d.drops.made i.gal
  if made < d.dropCap i.gal then
    ({ d with drops := { d.drops with made := tnatSet d.drops.made i.gal (made + 1) } }).pushRecord i
  else d.aggregate i.gal i.code

/-- A drop is counted: by its gallery and code, with the event DROP, or for a fenced gallery in TOP.DROP_FENCED (R31, R234,
R363). -/
def Device.dropCount (d : Device) (i : DropInfo) : Device :=
  if d.isFenced i.gal then d.count A.TOP_DROP_FENCED_LO
  else (d.count (A.GAL_DROP_CNT i.gal i.code)).event (some i.gal) 0x5001 1 (some i.code)
    { origin := i.org, iclass := i.iclass, inPort := i.inPort, pass := i.pass, h0 := i.h0, stamp := i.stamp, fn := i.fn }

/-- Account a drop: its count, and a record or a place in the aggregate (R235). A packet that a fenced gallery still held
ends as a fence discard, recorded by housekeeping on the same terms (R31, R235, R237). -/
def Device.drop (d : Device) (i : DropInfo) : Device :=
  (d.dropCount i).recordDrop (if d.isFenced i.gal then { i with code := 0xB0 } else i)

/-- The aggregate record of a reason (R289). -/
def aggBytes (stroke code n count : Nat) : Bytes :=
  beBytes 8 stroke ++ beBytes 1 code ++ beBytes 1 n ++ zeroBytes 2 ++ beBytes 4 count

/-- DROP_AGGREGATE_RECORD, at the boundary that ends a stroke: one record for each reason aggregated in it (R235). -/
def Device.dropBoundary (d : Device) : Device :=
  let recs := d.drops.agg.filterMap fun e =>
    let n := e.1 / 256
    if d.flag (A.GAL_DROP_CFG n) F.GAL_DROP_CFG_AGG_REC_EN then
      some (⟨n, e.1 % 256, aggBytes d.strokeNo (e.1 % 256) n e.2⟩ : DropRec)
    else none
  { d with drops := { made := [], agg := [], records := d.drops.records ++ recs } }

end Sys2Proof.Machine
end

