-- ==== Sys2Proof/Machine/Stages.lean ====
section
/-! DEFINITION. The match-action stages: lookup units and their limits (R134, R135, R155, R161, R162), action words
(R137 to R142), learn events (R165) and the fragment-follow table (R129 to R131). -/

namespace Sys2Proof.Machine

/-- Address of MATCH counter `x` of gallery `n` (R148). -/
def matchCnt (n x : Nat) : Nat := A.MATCH_MATCH_CNT n x
/-- Address of parser counter `x` of gallery `n` (R124). -/
def psCnt (n x : Nat) : Nat := A.PARSE_PS_CNT n x
/-- Addresses of an action counter's packet and byte counts (R370). -/
def actCntPkts (n i : Nat) : Nat := 0x4000000 + n * 0x200000 + 16 * i
def actCntBytes (n i : Nat) : Nat := actCntPkts n i + 8

/-- Key of an action word (R149): stages 24 to 31 are the egress stages. -/
def actKey (n stage slot ix : Nat) : Nat := ((n * 32 + stage) * 2 + slot) * 4096 + ix

/-- The fields of an action word (R138). -/
structure ActWord where
  disp : Nat
  darg : Nat
  hsel : Nat
  queue : Option Nat
  colour : Option Nat
  mirror : Option Nat
  meter : Option Nat
  counter : Option Nat
  edit : Nat
  a : Nat
  b : Nat
  valid : Bool
deriving DecidableEq, Repr

/-- Read the fields of an action word, with the hit entry's ADATA (0 on a miss). -/
def actFields (w adata : Nat) : ActWord :=
  { disp := bitsOf w 0 3
    darg := if bit w 108 then adata % 65536 else bitsOf w 3 16
    hsel := bitsOf w 19 1
    queue := if bit w 24 then some (bitsOf w 20 4) else none
    colour := if bitsOf w 25 2 = 3 then none else some (bitsOf w 25 2)
    mirror := if bit w 33 then some (bitsOf w 27 6) else none
    meter := if bit w 47 then some (bitsOf w 34 13) else none
    counter := if bit w 64 then some (bitsOf w 48 16) else none
    edit := bitsOf w 65 3
    a := bitsOf w 68 8
    b := if bit w 109 then adata else bitsOf w 76 32
    valid := bit w 127 }

/-- A container (R112); one beyond C95 reads 0. -/
def cont (v : Phv) (k : Nat) : Nat := if k < 96 then tnat v.c k else 0
def setCont (v : Phv) (k x : Nat) : Phv := { v with c := tnatSet v.c k (x % 2 ^ 32) }

/-- Containers `k` to `k + n - 1` as one string, the first most significant. -/
def contString (v : Phv) (k n : Nat) : Nat := (List.range n).foldl (fun a j => a * 2 ^ 32 + cont v (k + j)) 0

/-- A packet's passage through the stages of one side of a gallery. -/
structure StageRun where
  d : Device
  v : Phv
  a : PassActs
  /-- an extension lookup asked for on this pass -/
  ext : Option ExtLookup := none
deriving DecidableEq, Repr

/-- What the stages need to know of the packet. -/
structure StageCtx where
  gal : Nat
  inPort : Nat
  /-- generation slot -/
  slot : Nat
  pass : Nat
  egress : Bool
  /-- profile: in P1 egress stages make no lookups (R447) -/
  prof : Nat
  /-- frame length as received where the frame has ended, and the estimate of R209 for it otherwise -/
  len : Int
  ended : Bool
  /-- the change of header length that rebuilds have made, and the bytes a truncated mirror copy keeps (R209, R223) -/
  delta : Int := 0
  cap : Option Nat := none
  /-- cycles from reset to the beginning of stage 0; on egress, to the present command -/
  base : Nat := 0
  /-- what programmable counters see of it -/
  ev : EvPkt := {}
deriving DecidableEq, Repr

/-- The cycle in which a stage begins (R133). -/
def StageCtx.cycOf (x : StageCtx) (stage : Nat) : Nat := if x.egress then x.base else x.base + 2 * stage

/-- A DROP code of an action word: any unlisted code is recorded as ACL_DENY (R139). -/
def dropCodeOf (c : Nat) : Nat := if c = 0x30 ∨ c = 0x31 ∨ c = 0x32 ∨ c = 0x33 then c else 0x40

/-- Set a DROP unless one was set before it (R139). -/
def PassActs.setDrop (a : PassActs) (code stage ix : Nat) : PassActs :=
  if a.drop.isSome then a else { a with drop := some (code, stage, ix) }

/-- The disposition and the fields beside it (R139, R142). -/
def applyDisp (x : StageCtx) (w : ActWord) (stage ix : Nat) (r : StageRun) : StageRun :=
  if x.egress then
    let r := if (w.disp ≠ 0 ∧ w.disp ≠ 2) ∨ w.queue.isSome then { r with d := r.d.count (matchCnt x.gal 3) } else r
    if w.disp = 2 then { r with a := r.a.setDrop (dropCodeOf (w.darg % 256)) stage ix } else r
  else
    let a := { r.a with queue := w.queue.getD r.a.queue }
    let a := match w.disp with
      | 0 => a
      | 2 => a.setDrop (dropCodeOf (w.darg % 256)) stage ix
      | 3 => { a with trap := some (w.darg % 512, stage, ix) }
      | k => { a with other := some (k, w.darg, w.hsel) }
    { r with a := a }

/-- The edit of an action word (R140). -/
def applyEdit (x : StageCtx) (w : ActWord) (r : StageRun) : StageRun :=
  match w.edit with
  | 1 => if w.a < 96 then { r with v := setCont r.v w.a w.b } else r
  | 2 => if w.a < 96 then { r with v := setCont r.v w.a (cont r.v w.a + w.b) } else r
  | 3 => if w.a < 96 ∧ w.b % 128 < 96 then { r with v := setCont r.v w.a (cont r.v (w.b % 128)) } else r
  | 4 => { r with a := { r.a with encap := some w.a } }
  | 5 => if 1 ≤ w.a ∧ w.a ≤ r.v.hdrs.length then { r with a := { r.a with decap := some w.a } } else r
  | 6 =>
    if x.prof = 1 then { r with d := r.d.count (matchCnt x.gal 5) }
    else if r.v.hdrs.any fun h => h.id = r.d.fld A.TELEM_IOAM_CFG F.TELEM_IOAM_CFG_HDR_ID then
      { r with a := { r.a with ioam := true } }
    else { r with d := r.d.count (matchCnt x.gal 4) }
  | _ => r

/-- The length that a meter of a stage charges, LEN_ADJ apart (R223). -/
def StageCtx.metered (x : StageCtx) : Int :=
  match x.cap with
  | some k => min (x.len + x.delta) (Int.ofNat k)
  | none => x.len + x.delta

/-- The meter of an action word (R141, R222, R223). -/
def applyMeterAct (x : StageCtx) (inCol : Nat) (stage ix : Nat) (w : ActWord) (r : StageRun) : StageRun :=
  match w.meter with
  | none => r
  | some m =>
    match r.d.applyMeter x.gal m inCol x.metered with
    | (d, none) => { r with d := d }
    | (d, some c) =>
      let cfg := d.cfg (meterReg A.POLICE_M_CFG x.gal m)
      let col := worse inCol c.colour
      let cc := F.POLICE_M_CFG_COL_CONT.get cfg
      let v := if F.POLICE_M_CFG_COL_CONT_EN.get cfg = 1 ∧ cc < 96 then
          setCont r.v cc (cont r.v cc / 4 * 4 + col) else r.v
      let a := { r.a with colour := worse r.a.colour col }
      let a := if c.dropped then a.setDrop 0x41 stage ix else a
      if x.ended then { r with d := d.meterCount x.gal c x.metered.toNat, v := v, a := a }
      else { r with d := d, v := v, a := { a with charges := a.charges ++ [{ c with delta := x.delta, cap := x.cap }] } }

/-- Apply the action word `ix` of a stage with a hit entry's ADATA (R137 to R142). -/
def applyAction (x : StageCtx) (stage ix adata inCol : Nat) (r : StageRun) : StageRun :=
  let w := actFields (tnat r.d.pkt.acts (actKey x.gal stage x.slot ix)) adata
  if !w.valid then r
  else
    let r := applyDisp x w stage ix r
    let r := { r with a := { r.a with
        colour := worse r.a.colour (w.colour.getD 0)
        mirrors := match w.mirror with
          | some m => r.a.mirrors ++ [m]
          | none => r.a.mirrors } }
    let r := match w.counter with
      | some c =>
        let d := r.d.count (actCntPkts x.gal c)
        if x.ended then { r with d := d.countN (actCntBytes x.gal c) x.len.toNat }
        else { r with d := d, a := { r.a with counted := r.a.counted ++ [c] } }
      | none => r
    applyEdit x w (applyMeterAct x inCol stage ix w r)

/-- Raise a learn event (R165): it joins the queue at the boundary that ends the stroke. -/
def Device.raiseLearn (d : Device) (e : LearnEvent) : Device :=
  if d.flag A.TABLE_LEARN_CFG F.TABLE_LEARN_CFG_EN then
    ({ d with table := { d.table with raised := d.table.raised ++ [e] } }).count (tblCnt 0)
  else d

/-- What a lookup unit found: an action index and ADATA, or a miss. -/
abbrev Found := Option (Nat × Nat)

/-- The outcome of a unit that ran: what it found, its LU_CFG, and the entry of a static conflict that blocks the packet
(R165). -/
structure UnitOut where
  found : Found
  cfg : Word
  block : Option Nat := none
deriving DecidableEq, Repr

/-- An EM lookup of a unit, with its learn event and the static conflict of R165. -/
def unitEm (x : StageCtx) (stage : Nat) (v : Phv) (kc kn aux : Nat) (r : StageRun) : StageRun × Found × Option Nat :=
  let wide := bit aux 3
  let flow := bit aux 4
  let raw := contString v kc kn
  let k : EmKey := ⟨aux % 8, wide, if wide then raw % 2 ^ 202 else raw % 2 ^ 74⟩
  let (hit, d) := r.d.emLookup (x.cycOf stage) x.slot flow k
  let prof := d.cfg (A.TABLE_LEARN_PROF (aux / 64 % 4))
  let value := if F.TABLE_LEARN_PROF_ADATA_SRC.get prof = 1 then cont v (F.TABLE_LEARN_PROF_ADATA_CONT.get prof)
    else x.inPort
  let ev : LearnEvent := ⟨k.ktype, k.wide, k.key, flow, F.TABLE_LEARN_PROF_ACT_IDX.get prof, value, x.gal, x.cycOf stage⟩
  let d := (d.spend 0x03 (x.gal * 5) 1 0).event (some x.gal) 0x2001 1 (some stage) x.ev
  let d := if hit.isSome then d.event (some x.gal) 0x2002 1 (some stage) x.ev else d
  let r := { r with d := d }
  match hit with
  | none => (if bit aux 5 then { r with d := r.d.raiseLearn ev } else r, none, none)
  | some (e, _) =>
    let differs := emAdata e ≠ value
    let conflict := bit aux 5 ∧ differs
    let block := if conflict ∧ emStatic e ∧ F.TABLE_LEARN_PROF_STATIC_DROP.get prof = 1 then some (emActIdx e) else none
    let r := if conflict ∧ !emStatic e ∧ F.TABLE_LEARN_PROF_MOVE_EN.get prof = 1 then { r with d := r.d.raiseLearn ev } else r
    (r, some (emActIdx e, emAdata e), block)

/-- An LPM lookup of a unit (R161). -/
def unitLpm (x : StageCtx) (stage : Nat) (v : Phv) (kc aux : Nat) (r : StageRun) : StageRun × Found :=
  let v6 := bit aux 0
  let addr := contString v (kc + 1) (if v6 then 4 else 1)
  let (hit, d) := r.d.lpmLookup x.slot v6 (cont v kc % 4096) addr
  ({ r with d := (d.spend 0x03 (x.gal * 5 + 1) 1 0).event (some x.gal) 0x2003 1 (some stage) x.ev }, hit.map fun e => (bitsOf e 23 12, bitsOf e 35 32))

/-- A ternary lookup of a unit (R162). -/
def unitTern (x : StageCtx) (stage : Nat) (v : Phv) (kc aux : Nat) (r : StageRun) : StageRun × Found :=
  let m := if aux / 64 = 1 then 2 else if aux / 64 = 2 then 4 else 1
  let parts := (List.range m).map fun j => contString v (kc + 5 * j) 5
  ({ r with d := (r.d.spend 0x03 (x.gal * 5 + 2) 1 0).event (some x.gal) 0x2004 1 (some stage) x.ev },
   (r.d.ternLookup x.slot (aux % 64) m parts).map fun e => (bitsOf e 320 12, bitsOf e 332 32))

/-- The table a unit looks up: 0 none, 1 EM, 2 LPM, 3 ternary, 4 EXT (R148, R447). -/
def unitTable (x : StageCtx) (cfg : Word) : Nat :=
  let t := F.MATCH_LU_CFG_TABLE.get cfg
  if t > 4 then 0
  else if x.egress then (if x.prof = 1 ∨ t = 2 ∨ t = 4 then 0 else t)
  else t

/-- Registers of a lookup unit (R148). -/
def Device.unitCfg (d : Device) (x : StageCtx) (stage u : Nat) : Word × Nat :=
  if x.egress then
    (d.reg (A.EGRESS_LU_CFG x.gal x.slot (stage - 24) u), (d.reg (A.EGRESS_LU_AUX x.gal x.slot (stage - 24) u)).toNat % 256)
  else (d.reg (A.MATCH_LU_CFG x.gal x.slot stage u), (d.reg (A.MATCH_LU_AUX x.gal x.slot stage u)).toNat % 256)

/-- One lookup unit of a stage: what it found, none where it did not run (R134, R135). `v` is the PHV at the stage's
start. -/
def runUnit (x : StageCtx) (stage u : Nat) (v : Phv) (r : StageRun) : StageRun × Option UnitOut :=
  let (cfg, aux) := r.d.unitCfg x stage u
  let t := unitTable x cfg
  let runs := x.egress || bit (F.MATCH_LU_CFG_PASS_MASK.get cfg) x.pass
  let kc := F.MATCH_LU_CFG_KEY_CONT.get cfg
  let kn := min (F.MATCH_LU_CFG_KEY_NCONT.get cfg) 4 + 1
  if t = 0 ∨ !runs then (r, none)
  else
    let spent (r : StageRun) := ({ r with d := r.d.count (matchCnt x.gal 0) }, some { found := none, cfg := cfg })
    match t with
    | 1 =>
      if r.a.usedEm ≥ (if x.egress then 1 else 2) then spent r
      else
        let q := unitEm x stage v kc kn aux { r with a := { r.a with usedEm := r.a.usedEm + 1 } }
        (q.1, some { found := q.2.1, cfg := cfg, block := q.2.2 })
    | 2 =>
      if r.a.usedLpm ≥ 1 then spent r
      else
        let q := unitLpm x stage v kc aux { r with a := { r.a with usedLpm := r.a.usedLpm + 1 } }
        (q.1, some { found := q.2, cfg := cfg })
    | 3 =>
      if r.a.usedTern ≥ 1 then spent r
      else
        let q := unitTern x stage v kc aux { r with a := { r.a with usedTern := r.a.usedTern + 1 } }
        (q.1, some { found := q.2, cfg := cfg })
    | _ =>
      if r.a.usedExt ≥ 1 then spent r
      else
        let raw := contString v kc kn
        let k := if bit aux 3 then raw % 2 ^ 202 else raw % 2 ^ 74
        let e : ExtLookup :=
          { key := k, ktype := aux % 8, wide := bit aux 3
            missEn := F.MATCH_LU_CFG_MISS_EN.get cfg == 1
            missAct := F.MATCH_LU_CFG_MISS_ACT.get cfg }
        ({ r with a := { r.a with usedExt := 1 }, ext := some e }, none)

/-- The action of a unit's outcome: the entry's on a hit, MISS_ACT on a miss if MISS_EN = 1 (R137); a static conflict has set
its DROP before it (R165). -/
def unitAction (x : StageCtx) (stage inCol : Nat) (o : Option UnitOut) (r : StageRun) : StageRun :=
  match o with
  | none => r
  | some u =>
    let r := match u.block with
      | some ix => { r with a := r.a.setDrop 0x33 stage ix }
      | none => r
    match u.found with
    | some (ix, adata) => applyAction x stage ix adata inCol r
    | none =>
      if F.MATCH_LU_CFG_MISS_EN.get u.cfg = 1 then applyAction x stage (F.MATCH_LU_CFG_MISS_ACT.get u.cfg) 0 inCol r else r

/-- One stage: both units look up on the PHV as it stands at the start, then unit 0's action and unit 1's (R134). Both meter the
colour that the packet had when the stage began (R223). -/
def runStage (x : StageCtx) (stage : Nat) (r : StageRun) : StageRun :=
  let v := r.v
  let col := r.a.colour
  let (r, o0) := runUnit x stage 0 v r
  let (r, o1) := runUnit x stage 1 v r
  unitAction x stage col o1 (unitAction x stage col o0 r)

/-- Stages `s` to `s + n - 1`. -/
def runStages (x : StageCtx) : Nat → Nat → StageRun → StageRun
  | 0, _, r => r
  | n + 1, s, r => runStages x n (s + 1) (runStage x s r)

-- Fragment-follow (R128 to R131) -----------------------------------------------------------------------------------

/-- The VRF in force for a fragment at FFT_STAGE: the low 12 bits of the key container of the pass's first LPM unit, 0 where no unit
of the pass is one. The spec does not say what 'the VRF in force' is (DESIGN CHOICE, log entry 67). -/
def Device.vrfOf (d : Device) (x : StageCtx) (v : Phv) : Nat :=
  let units := (List.range 24).flatMap fun s => [(s, 0), (s, 1)]
  let lpm := units.find? fun q =>
    let c := (d.unitCfg x q.1 q.2).1
    unitTable x c == 2 && bit (F.MATCH_LU_CFG_PASS_MASK.get c) x.pass
  match lpm with
  | some q => cont v (F.MATCH_LU_CFG_KEY_CONT.get (d.unitCfg x q.1 q.2).1) % 4096
  | none => 0

/-- The IPv6 extension headers that may stand between an IPv6 header and its fragment header. -/
def ipv6Ext (nh : Nat) : Bool := [0, 43, 51, 60, 135, 139, 140].contains nh

/-- Does the chain of next headers from `nh`, over these headers, end at the fragment header (44) at `frag`? -/
def chainsTo (bytes : Bytes) (frag nh : Nat) : List HdrEnt → Bool
  | [] => false
  | h :: t => if h.ofs = frag then nh == 44 else ipv6Ext nh && chainsTo bytes frag (byteAt bytes h.ofs) t

/-- The IPv6 header of the fragment header at `frag`: a 40-byte header of version 6 whose extension headers lead to it; the frame's
start where no such header was parsed. The spec does not say how the addresses are found (DESIGN CHOICE, log entry 67). -/
def ipv6Of (bytes : Bytes) (frag : Nat) : List HdrEnt → Nat
  | [] => 0
  | h :: t =>
    if h.len = 40 ∧ byteAt bytes h.ofs / 16 = 6 ∧ chainsTo bytes frag (byteAt bytes (h.ofs + 6)) t then h.ofs
    else ipv6Of bytes frag t

/-- The key of a fragment (R129). -/
def fragKey (v : Phv) (vrf : Nat) (bytes : Bytes) : Nat :=
  if v.fragV6 then
    let ip := ipv6Of bytes v.fragOfs (v.hdrs.filter fun h => h.len ≠ 0)
    (((beAt bytes (ip + 8) 32 * 256 + byteAt bytes v.fragOfs) * 2 ^ 32 + beAt bytes (v.fragOfs + 4) 4) * 4096 + vrf) * 2 + 1
  else
    (((beAt bytes (v.fragOfs + 12) 8 * 256 + byteAt bytes (v.fragOfs + 9)) * 2 ^ 16 +
      beAt bytes (v.fragOfs + 4) 2) * 4096 + vrf) * 2

/-- The entries of a fragment-follow set. -/
def Device.fftSet (d : Device) (s : Nat) : List FftEntry := tabGet (fun _ => ([] : List FftEntry)) d.fft.sets s
def Device.setFft (d : Device) (s : Nat) (l : List FftEntry) : Device :=
  { d with fft := { d.fft with sets := tabSet (fun _ => ([] : List FftEntry)) d.fft.sets s l } }

/-- The set a key falls in: the spec does not give the function (R130). -/
def fftSetOf (key : Nat) : Nat := (Config.fftSet (BitVec.ofNat 320 key)).toNat

/-- FFT_TTL in ms: 0 is treated as 1 (R130). -/
def Device.fftTtl (d : Device) : Nat := max 1 (d.fld A.TABLE_FFT_CFG F.TABLE_FFT_CFG_TTL_MS)

/-- Time in cycle `c`, counted from reset, of the stroke now running: also for a stage that is made after its cycle, or ahead of
the next command. -/
def Device.nowAt (d : Device) (c : Nat) : Nat :=
  (d.clock.stepFree + d.clockGain (d.inStroke + (c - d.absCyc) * d.cycleLen - (d.absCyc - c) * d.cycleLen)) / 2 ^ 48

/-- Insert a first fragment whose slot was admitted in cycle `acc` (R129, R130). Of two inserts of one key in a stroke the later
one's content stands, the higher gallery's where they share a cycle (R131). -/
def Device.fftInsert (d : Device) (n acc key l4 h0 h1 : Nat) : Device :=
  let s := fftSetOf key
  let e : FftEntry := ⟨key, l4, h0, h1, d.strokeNo, acc, n, d.nowAt acc + msT d.fftTtl⟩
  let l := d.fftSet s
  let d := d.count (psCnt n 6)
  match l.find? fun o => o.key = key with
  | some o =>
    if o.stroke = d.strokeNo ∧ (acc < o.acc ∨ (acc = o.acc ∧ n < o.gal)) then d
    else d.setFft s ((l.filter fun o => o.key ≠ key) ++ [e])
  | none =>
    if l.length < 4 then d.setFft s (l ++ [e])
    else match l.find? fun o => d.matured o.dies with
      | some o => d.setFft s ((l.filter fun q => q.key ≠ o.key) ++ [e])
      | none => (d.setFft s (l.drop 1 ++ [e])).count A.TABLE_FFT_EVICT_LO

/-- Look a later fragment up: an entry inserted in this stroke is not visible yet (R131). -/
def Device.fftLookup (d : Device) (key : Nat) : Option FftEntry :=
  (d.fftSet (fftSetOf key)).find? fun o => o.key = key ∧ o.stroke ≠ d.strokeNo ∧ !d.matured o.dies

/-- The fragment-follow step at FFT_STAGE: none while it must wait for its lookup slot (R129, R136). -/
def fftStep (x : StageCtx) (stage iclass : Nat) (bytes : Bytes) (r : StageRun) : StageRun :=
  let key := fragKey r.v (r.d.vrfOf x r.v) bytes
  let l4 := F.PARSE_IC_AUX_L4_CONT.get (r.d.cfg (A.PARSE_IC_AUX x.gal iclass))
  if r.v.fragFirst then { r with d := r.d.fftInsert x.gal (x.cycOf stage) key (cont r.v l4) r.v.h0 r.v.h1 }
  else match r.d.fftLookup key with
    | some e =>
      let v := { (if l4 < 96 then setCont r.v l4 e.l4 else r.v) with h0 := e.h0, h1 := e.h1, fftHit := true }
      let d := r.d.count (psCnt x.gal 7)
      let drop := d.flag A.TABLE_FFT_CFG F.TABLE_FFT_CFG_REMOVE_ON_LAST && !r.v.fragMore
      let s := fftSetOf key
      { r with d := if drop then d.setFft s ((d.fftSet s).filter fun o => o.key ≠ key) else d, v := v }
    | none => { r with d := r.d.count (psCnt x.gal 8), v := { r.v with fragMiss := true } }

/-- A fragment that uses the table in its class (R129). -/
def usesFft (d : Device) (n iclass : Nat) (v : Phv) : Bool :=
  v.frag && d.flag (A.PARSE_IC_CFG n iclass) F.PARSE_IC_CFG_FFT_EN

/-- FFT_STAGE in force: 0 is treated as 1, and 24 to 31 as 23 (R124). -/
def Device.fftStage (d : Device) (n iclass : Nat) : Nat :=
  min (max (d.fld (A.PARSE_IC_CFG n iclass) F.PARSE_IC_CFG_FFT_STAGE) 1) 23

end Sys2Proof.Machine
end

