-- ==== Sys2Proof/Machine/Deparse.lean ====
section
/-! DEFINITION. Rebuilding headers: the ingress rebuild, the egress deparser (R147, R151) and the ECN mark (R231). -/

namespace Sys2Proof.Machine

/-- A header as it is emitted: its list entry, its bytes, and whether they differ from what arrived. -/
structure OutHdr where
  id : Nat
  /-- offset it had before the rebuild; none for a template inserted by this rebuild -/
  was : Option Nat
  bytes : Bytes
  changed : Bool
  /-- template number of a template entry, whose length fields are filled (R151) -/
  tpl : Option Nat := none
  /-- the bytes before it that are part of no entry: in a mirror copy, the template that the egress deparser inserted (R151) -/
  lead : Bytes := []
  /-- bytes of a template that is part of it, ahead of its own (R147, R151) -/
  pre : Nat := 0
deriving DecidableEq, Repr

/-- The header as emitted. -/
def OutHdr.out (h : OutHdr) : Bytes := h.lead ++ h.bytes

/-- Write back the containers that an action changed to the bytes they came from (R147). -/
def writeBack (v : Phv) (bytes : Bytes) : Bytes :=
  let last (e : Extr) (rest : List Extr) : Bool := !(rest.any fun o => o.cont = e.cont)
  let rec go : List Extr → Bytes → Bytes
    | [], bs => bs
    | e :: t, bs =>
      let n := tnat v.c e.cont
      if last e t ∧ n ≠ e.val then go t (patchBytes bs e.ofs (beBytes e.size n)) else go t bs
  go v.ext bytes

/-- The 128 template bytes of gallery `n`, template `t`, cut to its length (R151). -/
def Device.template (d : Device) (n t : Nat) : Bytes :=
  let len := min (d.fld (A.EGRESS_T_CFG n t) F.EGRESS_T_CFG_LEN) 128
  ((List.range 32).flatMap fun w => beBytes 4 (d.cfg (A.EGRESS_T_BYTES n t w)).toNat).take len

/-- Fill a template's length fields: `after` bytes of the packet follow it, padding and FCS apart (R151). -/
def fillTemplate (cfg : Word) (t : Bytes) (after : Nat) : Bytes :=
  let ip := F.EGRESS_T_CFG_FIX_IP_OFS.get cfg
  let udp := F.EGRESS_T_CFG_FIX_UDP_OFS.get cfg
  let ver := byteAt t ip / 16
  let fixIp := F.EGRESS_T_CFG_FIX_IP_EN.get cfg = 1
  let t := if fixIp ∧ ver = 4 then patchBytes t (ip + 2) (beBytes 2 (t.length - ip + after)) else t
  let t := if fixIp ∧ ver = 6 then patchBytes t (ip + 4) (beBytes 2 (t.length - ip - 40 + after)) else t
  let t := if F.EGRESS_T_CFG_FIX_UDP_EN.get cfg = 1 then
      patchBytes (patchBytes t (udp + 4) (beBytes 2 (t.length - udp + after))) (udp + 6) (zeroBytes 2) else t
  if fixIp ∧ ver = 4 then
    patchBytes t ip (ipv4Checksum (sliceBytes t ip (min (byteAt t ip % 16 * 4) (t.length - ip))))
  else t

/-- An HDR_ID marked as an IPv4 header (R446). -/
def Device.ipv4Marked (d : Device) (id : Nat) : Bool := bit (d.pair A.TOP_IPV4_HDR_IDS_LO A.TOP_IPV4_HDR_IDS_HI) id

/-- IPv4 headers have their checksum recomputed when their bytes changed (R147, R446). -/
def Device.fixIpv4 (d : Device) (h : OutHdr) : OutHdr :=
  if h.changed ∧ d.ipv4Marked h.id ∧ h.tpl.isNone ∧ h.id ≠ 0x3F then { h with bytes := ipv4Checksum h.bytes } else h

/-- Set the ECN bits of the outermost header tagged V4_ID or V6_ID to CE (R231). -/
def Device.markCe (d : Device) : List OutHdr → List OutHdr
  | [] => []
  | h :: t =>
    let v4 := d.fld A.HALL_ECN_CFG F.HALL_ECN_CFG_V4_ID
    let v6 := d.fld A.HALL_ECN_CFG F.HALL_ECN_CFG_V6_ID
    if h.id = v4 then
      let b := patchBytes h.bytes 1 [BitVec.ofNat 8 (byteAt h.bytes 1 / 4 * 4 + 3)]
      { h with bytes := if b != h.bytes && d.ipv4Marked h.id then ipv4Checksum b else b } :: t
    else if h.id = v6 then
      { h with bytes := patchBytes h.bytes 1 [BitVec.ofNat 8 (byteAt h.bytes 1 / 64 * 64 + 48 + byteAt h.bytes 1 % 16)] } :: t
    else h :: d.markCe t

/-- The ECN field of the outermost tagged header; none where there is no such header (R231). -/
def Device.ecnOf (d : Device) (hdrs : List HdrEnt) (bytes : Bytes) : Option Nat :=
  let v4 := d.fld A.HALL_ECN_CFG F.HALL_ECN_CFG_V4_ID
  let v6 := d.fld A.HALL_ECN_CFG F.HALL_ECN_CFG_V6_ID
  (hdrs.find? fun h => h.id = v4 ∨ h.id = v6).map fun h =>
    if h.id = v4 then byteAt bytes (h.ofs + 1) % 4 else byteAt bytes (h.ofs + 1) / 16 % 4

/-- A rebuild's outcome: the header bytes, the list as rebuilt, and the old offset of the first byte kept after them. -/
structure Rebuilt where
  hdr : Bytes
  phv : Phv
  skip : Nat
  laid : List (HdrEnt × Option (Nat × Nat)) := []
deriving DecidableEq, Repr

/-- Insert a template after entry `k` (R151). -/
def insertAfter (l : List OutHdr) (k : Nat) (t : OutHdr) : List OutHdr := l.take k ++ [t] ++ l.drop k

/-- Entries of the rebuilt list with their new offsets, each with its old offset and the bytes now ahead of its own. -/
def layOut : List OutHdr → Nat → List (HdrEnt × Option (Nat × Nat))
  | [], _ => []
  | h :: t, o =>
    (⟨h.id, o + h.lead.length, h.bytes.length, h.tpl⟩, h.was.map fun w => (w, h.pre)) :: layOut t (o + h.out.length)

/-- Where a byte at old offset `o` is after a rebuild; none where its header was removed. -/
def newOffset (old : List HdrEnt) (laid : List (HdrEnt × Option (Nat × Nat))) (payload newPayload o : Nat) : Option Nat :=
  if payload ≤ o then some (newPayload + (o - payload))
  else
    match old.find? fun h => h.ofs ≤ o ∧ o < h.ofs + h.len with
    | some h => (laid.find? fun q => q.2.map (·.1) = some h.ofs).map fun q =>
        q.1.ofs + (q.2.map (·.2)).getD 0 + (o - h.ofs)
    | none => none

/-- Fill the length fields of every template entry, each over what follows it (R151). -/
def fillAll (d : Device) (n payload : Nat) : List OutHdr → List OutHdr
  | [] => []
  | h :: t =>
    let t := fillAll d n payload t
    match h.tpl with
    | none => h :: t
    | some k =>
      let after := (t.map fun q => q.out.length).sum + payload
      { h with bytes := fillTemplate (d.cfg (A.EGRESS_T_CFG n k)) h.bytes after } :: t

/-- The headers of a list as they stand: `at_` is where the one before ended, `old` the bytes before the containers were written
back to them. -/
def openHdrs (old now : Bytes) : Nat → List HdrEnt → List OutHdr
  | _, [] => []
  | at_, h :: t =>
    let len := min h.len (now.length - h.ofs)
    let b := sliceBytes now h.ofs len
    { id := h.id, was := some h.ofs, bytes := b, changed := b != sliceBytes old h.ofs len, tpl := h.tpl,
      lead := sliceBytes now at_ (h.ofs - at_) } :: openHdrs old now (h.ofs + h.len) t

/-- Form a packet's header: write back containers, remove and insert headers, fill lengths and checksums (R147, R151).
`total` is the packet's length without FCS where it is known, or the estimate of R209; `final`: a template it inserts
enters no list, as the egress deparser's does. -/
def rebuild (d : Device) (n : Nat) (v : Phv) (bytes : Bytes) (encap decap : Option Nat) (ce final : Bool) (total : Nat) :
    Rebuilt :=
  let now := writeBack v bytes
  let hs := openHdrs bytes now 0 v.hdrs
  let hs := match decap with
    | some a => if 1 ≤ a ∧ a ≤ hs.length then hs.drop a else hs
    | none => hs
  let hs := hs.map d.fixIpv4
  let payload := total - v.payload
  let hs := match encap with
    | none => hs
    | some t =>
      let k := min (d.fld (A.EGRESS_T_CFG n t) F.EGRESS_T_CFG_AFTER_HDR) hs.length
      insertAfter hs k { id := 0x3F, was := none, bytes := d.template n t, changed := true, tpl := some t }
  let hs := fillAll d n payload hs
  -- a 21st entry is emitted as part of the entry before it, or of the one after it
  let hs := if hs.length ≤ 20 then hs else
    match encap with
    | none => hs
    | some t =>
      let k := min (d.fld (A.EGRESS_T_CFG n t) F.EGRESS_T_CFG_AFTER_HDR) (hs.length - 1)
      let bs := ((hs[k]?).map (·.out)).getD []
      let rest := hs.take k ++ hs.drop (k + 1)
      if k = 0 then modifyAt rest 0 fun h => { h with bytes := bs ++ h.bytes, pre := bs.length }
      else modifyAt rest (k - 1) fun h => { h with bytes := h.bytes ++ bs }
  let hs := if ce then d.markCe hs else hs
  let hdr := hs.flatMap OutHdr.out
  let laid := layOut hs 0
  let ext := v.ext.filterMap fun e =>
    (newOffset v.hdrs laid v.payload hdr.length e.ofs).map fun o => { e with ofs := o, val := tnat v.c e.cont }
  let list := if final then laid.filter fun q => q.2.isSome else laid
  { hdr := hdr, phv := { v with hdrs := list.map (·.1), ext := ext, payload := hdr.length }, skip := v.payload, laid := laid }

/-- Where a byte of the frame stands after a rebuild. -/
def Rebuilt.at_ (r : Rebuilt) (v : Phv) (o : Nat) : Option Nat := newOffset v.hdrs r.laid v.payload r.hdr.length o

/-- The bytes of a frame after a rebuild. -/
def Rebuilt.apply (r : Rebuilt) (v : Phv) (bytes : Bytes) : Bytes := r.hdr ++ (writeBack v bytes).drop r.skip

end Sys2Proof.Machine
end

