-- ==== Sys2Proof/Machine/Raslog.lean ====
section
/-! DEFINITION. The error log, the fault histories and the retirement record (R390, R399, R401). -/

namespace Sys2Proof.Machine

/-- Address of RAS counter `x` (R402). -/
def rasCnt (x : Nat) : Nat := A.RAS_RAS_CNT x

/-- Add an entry to the error log; the oldest is overwritten when 256 are unread (R401). -/
def Device.logFault (d : Device) (pl : FaultPlace) (event action count : Nat) : Device :=
  let t := d.clockNow
  let e := beBytes 8 d.strokeNo ++ beBytes 6 (clkSec t) ++ beBytes 4 (clkNs t) ++ beBytes 1 pl.unit ++ beBytes 1 event ++
    beBytes 2 pl.inst ++ beBytes 4 pl.addr ++ beBytes 1 action ++ beBytes 1 count ++ zeroBytes 4
  let full := 256 ≤ d.ras.log.length
  let log := (if full then d.ras.log.drop 1 else d.ras.log) ++ [e]
  let ovf := if full then min (d.ras.logOvf + 1) 0xFFFF else d.ras.logOvf
  ({ d with ras := { d.ras with log := log, logOvf := ovf } }).raise 0x50000 0

/-- The row of an Upper Hall cell (R399, R401). -/
def cellPlace (a : Nat) : FaultPlace := ⟨1, 0, a⟩

/-- Nanoseconds of a day on the device clock, in 2^-16 ns. -/
def dayT : Nat := secT 86400

/-- The window of a unit's faults (R390). -/
def faultWindow (unit : Nat) : Nat := if unit = 6 then secT 600 else if unit = 7 then secT 1 else dayT

/-- The times of a place's last two occurrences within its window (R390). -/
def Device.pastFaults (d : Device) (pl : FaultPlace) : List Nat :=
  match d.ras.hist.find? fun h => h.place = pl with
  | some h => h.times.filter fun t => d.clockNow < t + faultWindow pl.unit
  | none => []

/-- The occurrences of a place's window, one that is now met among them: 1 to 3 (R401). -/
def Device.seenFaults (d : Device) (pl : FaultPlace) : Nat := min ((d.pastFaults pl).length + 1) 3

/-- A row with an uncorrectable error is logged, and taken out of use for the row test (R389, R391). -/
def Device.rowBad (d : Device) (pl : FaultPlace) : Device :=
  if d.ras.testing.contains pl then d
  else
    let d := (d.count (rasCnt 1)).logFault pl 2 0 (d.seenFaults pl)
    { d with ras := { d.ras with testing := d.ras.testing ++ [pl] } }

/-- An entry is taken from a place, which counts; a lane's charges were held in it (R82, R390). -/
def Device.evict (d : Device) (h : FaultHist) : Device :=
  let d := d.count (rasCnt 5)
  if h.place.unit = 6 then
    let s := tabGet (fun _ => {}) d.lane.lanes h.place.addr
    { d with lane := { d.lane with lanes := tabSet (fun _ => {}) d.lane.lanes h.place.addr { s with charges := [] } } }
  else d

/-- An occurrence at a place enters the history of 1,024 places: an entry that both its times have left is free, and where none
is, the entry whose last occurrence is oldest is taken (R390). DESIGN CHOICE (log entry 11): the windows compare what the device
clock shows, its steps included. -/
def Device.track (d : Device) (pl : FaultPlace) : Device :=
  let now := d.clockNow
  let old := d.pastFaults pl
  let others := d.ras.hist.filter fun h =>
    h.place ≠ pl && h.times.any fun t => decide (now < t + faultWindow h.place.unit)
  let oldest := others.foldl (fun (m : Option FaultHist) h =>
    match m with
    | none => some h
    | some g => if h.times.headD 0 < g.times.headD 0 then some h else some g) none
  let gone := if 1024 ≤ others.length then oldest else none
  let d := match gone with
    | some h => d.evict h
    | none => d
  { d with ras := { d.ras with hist := (others.filter fun h => some h ≠ gone) ++ [⟨pl, (now :: old).take 2⟩] } }

/-- An occurrence of a fault at a place: how many there are with it in its window, at most 3 (R390). -/
def Device.occurrence (d : Device) (pl : FaultPlace) : Nat × Device := (d.seenFaults pl, d.track pl)

/-- A place's history ends with its retirement. -/
def Device.forget (d : Device) (pl : FaultPlace) : Device :=
  { d with ras := { d.ras with hist := d.ras.hist.filter fun h => h.place ≠ pl } }

/-- The occurrence entered last at a place is taken back, with its entry in the error log if that is unread. -/
def Device.untrack (d : Device) (pl : FaultPlace) : Device :=
  let ours (e : Bytes) : Bool := beAt e 18 1 == pl.unit && beAt e 20 2 == pl.inst && beAt e 22 4 == pl.addr
  let log := match d.ras.log.reverse.findIdx? ours with
    | some k => d.ras.log.eraseIdx (d.ras.log.length - 1 - k)
    | none => d.ras.log
  { d with ras := { d.ras with
      log := log
      hist := d.ras.hist.map fun h => if h.place = pl then { h with times := h.times.drop 1 } else h } }

/-- A completion timeout of a read of function `fn` is reported: in Advanced Error Reporting and in the error log, with ACTION `act`.
The ADDRESS is the ring, or 0x10000 and the role for a read that is no ring's (R389, R398, R401). -/
def Device.readTimedOut (d : Device) (fn addr act : Nat) : Device :=
  let aer := if d.host.aer.contains fn then d.host.aer else d.host.aer ++ [fn]
  ({ d with host := { d.host with aer := aer } }).logFault ⟨8, fn, addr⟩ 5 act 1

/-- Order of entries made at one boundary: unit code, then address (R404). -/
def recBefore (a b : RecEntry) : Bool := decide (a.unit < b.unit) || (decide (a.unit = b.unit) && decide (a.addr < b.addr))

/-- Put an entry among those of its boundary. -/
def insertEntry (e : RecEntry) : List RecEntry → List RecEntry
  | [] => [e]
  | a :: t => if recBefore e a then e :: a :: t else a :: insertEntry e t

/-- Add a retirement to the record, those of one stroke in their order; it is written to flash within 100 ms. One that finds it full
takes effect all the same (R399, R404). -/
def Device.retireRecord (d : Device) (kind : Nat) (pl : FaultPlace) (spare : Nat) : Device :=
  let d := d.raise 0x50000 1
  if 254 ≤ d.ras.entries.length then { d with ras := { d.ras with full := true } }
  else
    let e : RecEntry := ⟨kind, pl.unit, pl.inst, pl.addr, spare, clkSec d.clockNow⟩
    let old := d.ras.entries
    let n := if d.ras.newest.1 = d.strokeNo then min d.ras.newest.2 old.length else 0
    { d with ras := { d.ras with
        entries := old.take (old.length - n) ++ insertEntry e (old.drop (old.length - n))
        newest := (d.strokeNo, n + 1)
        writeBy := some (d.ras.writeBy.getD (d.now + msT 100)) } }

-- The record in the flash (R399) --------------------------------------------------------------------------------------

/-- Offset of a copy in the QSPI flash (R411). -/
def recordOffset (i : Nat) : Nat := 0x2000000 + 0x1000 * i

/-- An entry of the record: 16 bytes. -/
def RecEntry.bytes (e : RecEntry) : Bytes :=
  beBytes 1 e.kind ++ beBytes 1 e.unit ++ beBytes 2 e.inst ++ beBytes 4 e.addr ++ beBytes 2 e.spare ++ beBytes 6 e.sec

/-- The header of a copy, with `crc` as its last field. -/
def recordHeader (seq count intUs crc : Nat) : Bytes :=
  beBytes 4 0x52524543 ++ beBytes 4 seq ++ beBytes 2 count ++ beBytes 8 intUs ++ zeroBytes 10 ++ beBytes 4 crc

/-- CRC-32 of a copy: the one of IEEE 802.3, whose polynomial R399 names (DESIGN CHOICE, log entry 79). -/
def recordCrc (bs : Bytes) : Nat := beAt (fcsOf bs).reverse 0 4

/-- A copy of the record: 4 KiB, zeros after the last entry. -/
def recordBytes (seq intUs : Nat) (es : List RecEntry) : Bytes :=
  let body := es.flatMap RecEntry.bytes
  let body := body ++ zeroBytes (4064 - body.length)
  recordHeader seq es.length intUs (recordCrc (recordHeader seq es.length intUs 0 ++ body)) ++ body

/-- SEQ, INT_US and the COUNT of a copy. -/
def recordSeq (bs : Bytes) : Nat := beAt bs 4 4
def recordInt (bs : Bytes) : Nat := beAt bs 10 8
def recordCount (bs : Bytes) : Nat := beAt bs 8 2

/-- A copy is whole: its MAGIC and its CRC are right. -/
def recordValid (bs : Bytes) : Bool :=
  decide (bs.length = 4096 ∧ beAt bs 0 4 = 0x52524543 ∧ recordCount bs ≤ 254) &&
    beAt bs 28 4 == recordCrc (bs.take 28 ++ zeroBytes 4 ++ bs.drop 32)

/-- The entries of a copy. -/
def recordEntries (bs : Bytes) : List RecEntry :=
  (List.range (recordCount bs)).map fun i =>
    let o := 32 + 16 * i
    ⟨beAt bs o 1, beAt bs (o + 1) 1, beAt bs (o + 2) 2, beAt bs (o + 4) 4, beAt bs (o + 8) 2, beAt bs (o + 10) 6⟩

end Sys2Proof.Machine
end

