-- ==== Sys2Proof/Machine/Hall.lean ====
section
/-! DEFINITION. The Upper Hall: accounting, thresholds, admission, marking, replication and the release of cells
(R176 to R187, R229, R230). -/

namespace Sys2Proof.Machine

/-- Address of HALL counter `x` (R190). -/
def hallCnt (x : Nat) : Nat := A.HALL_HALL_CNT x

-- Holders ----------------------------------------------------------------------------------------------------------

def Device.queueSt (d : Device) (q : Nat) : QueueSt := tabGet (fun _ => {}) d.hall.queues q
def Device.setQueueSt (d : Device) (q : Nat) (v : QueueSt) : Device :=
  { d with hall := { d.hall with queues := tabSet (fun _ => {}) d.hall.queues q v } }
def Device.classSt (d : Device) (p c : Nat) : ClassSt := tabGet (fun _ => {}) d.hall.classes (4 * p + c)
def Device.setClassSt (d : Device) (p c : Nat) (v : ClassSt) : Device :=
  { d with hall := { d.hall with classes := tabSet (fun _ => {}) d.hall.classes (4 * p + c) v } }

/-- A register of queue `q` behind HALL.Q_SEL, and of port `p` behind HALL.P_SEL (R190). -/
def qReg (a q : Nat) : Nat := banked a q
def pReg (a p : Nat) : Nat := banked a p

/-- A configured minimum as in force: scaled while MIN_SUM exceeds the profile's total (R182). -/
def Device.minEff (d : Device) (n : Nat) : Nat :=
  if d.hall.minScaled then n * profMinima d.profile.active / max d.hall.minSum 1 else n

/-- An anvil's input queue is admitted as a lossy queue with a minimum of 0 (R303): anvil `a` has number 16,384 + a. -/
def anvilQueue (a : Nat) : Nat := 16384 + a

def Device.qMinEff (d : Device) (q : Nat) : Nat :=
  if q ≥ 16384 then 0 else d.minEff (d.fld (qReg A.HALL_Q_CFG q) F.HALL_Q_CFG_QMIN)
def Device.iMinEff (d : Device) (p : Nat) : Nat := d.minEff (d.fld (pReg A.HALL_P_CFG p) F.HALL_P_CFG_IMIN)
def Device.cMinEff (d : Device) (p c : Nat) : Nat := d.minEff (d.fld (pReg (A.HALL_C_CFG c) p) F.HALL_C_CFG_LMIN)

/-- The gallery of a queue: of its port, or of its anvil (R303). -/
def queueGal (q : Nat) : Nat := if q < 16384 then q / 512 else (q - 16384) / 2

/-- Cells charged to the reserved minima of galleries that are not FENCED: a profile change is checked against the remaining
galleries (R33). -/
def Device.heldMinima (d : Device) : Nat :=
  (d.hall.queues.map fun e => if d.isFenced (queueGal e.1) then 0 else e.2.heldMin).sum +
    (d.hall.classes.map fun e => if d.isFenced (e.1 / 128) then 0 else e.2.heldMin).sum +
    (d.hall.inMin.map fun e => if d.isFenced (e.1 / 32) then 0 else e.2).sum

/-- Cells of the reserved minima that no charge holds. The holders together never hold more than the profile's total (R59), so
that a change which R70 calls free is never refused over them (DEDUCED, log entry 77: R184 tests each holder by itself, which
could pass the total only after a flip has scaled minima that some holders already exceed). -/
def Device.minLeft (d : Device) : Nat := profMinima d.profile.active - d.heldMinima

/-- The dynamic threshold from the free cells latched at the boundary (R183). -/
def Device.threshold (d : Device) (alpha : Nat) : Nat := d.hall.freeShown * 2 ^ min alpha 10 / 128

def Device.qAlpha (d : Device) (q : Nat) : Nat :=
  if q ≥ 16384 then d.fld A.ANVIL_A_CFG F.ANVIL_A_CFG_ALPHA else d.fld (qReg A.HALL_Q_CFG q) F.HALL_Q_CFG_ALPHA
def Device.cAlpha (d : Device) (p c : Nat) : Nat := d.fld (pReg (A.HALL_C_CFG c) p) F.HALL_C_CFG_ALPHA

/-- T of a class: ALPHA 15 gives no shared access (R183). -/
def Device.classT (d : Device) (p c : Nat) : Nat := if d.cAlpha p c = 15 then 0 else d.threshold (d.cAlpha p c)

/-- LAND_MAX in cells: 0 is treated as 1 (R190). -/
def Device.landMax (d : Device) (q : Nat) : Nat := 16 * max 1 (d.fld (qReg A.HALL_Q_CFG q) F.HALL_Q_CFG_LAND_MAX)
def Device.spillMax (d : Device) (q : Nat) : Nat := d.fld (qReg A.HALL_Q_SPILL q) F.HALL_Q_SPILL_SPILL_MAX * 1048576

/-- The profile allows spill: its spill budget is not 0, and no staged profile has spill off (R194). -/
def Device.spillAllowed (d : Device) : Bool := profSpill d.profile.active && profSpill d.profile.staged

/-- A queue may enter spill state (R191, R194). -/
def Device.maySpill (d : Device) (q : Nat) : Bool :=
  decide (q < 16384) && spillEnabled d.profile.active (d.flag (qReg A.HALL_Q_CFG q) F.HALL_Q_CFG_SPILL_EN) && d.spillAllowed

/-- The headroom reserved for class `c` of a port, in cells (R107). -/
def Device.classH (d : Device) (p c : Nat) : Nat := (d.port p).hdrm.getD c 0

/-- The lossless class of a packet from ingress port `p` for egress queue `q` of its port (R185). -/
def Device.losslessClass (d : Device) (p q : Nat) : Option Nat :=
  match (List.range 8).find? fun k => d.priQueue p k = q % 16 with
  | none => none
  | some k =>
    match (d.losslessPris p).findIdx? (· = k) with
    | some c => if d.classH p c > 0 then some c else none
    | none => none

/-- Cells that `n` bytes occupy (R176). -/
def cellsOf (n : Nat) : Nat := ceilDiv n 256

-- Charging ---------------------------------------------------------------------------------------------------------

/-- A charge that draws on the shared pool (R181). -/
def Charge.shared : Charge → Bool
  | .qShared | .landing | .cShared _ _ | .iShared _ => true
  | _ => false

/-- Add `n` cells to a holder's charge; HELD of the queue counts every cell (R190). -/
def Device.addCharge (d : Device) (q : Nat) (c : Charge) (n : Nat) : Device :=
  let s := d.queueSt q
  let s := { s with held := s.held + n }
  match c with
  | .qMin => d.setQueueSt q { s with heldMin := s.heldMin + n }
  | .qShared => d.setQueueSt q { s with heldShared := s.heldShared + n }
  | .iMin p => { d with hall := { d.hall with inMin := tnatSet d.hall.inMin p (tnat d.hall.inMin p + n) } }
  | .iShared p => { d with hall := { d.hall with inShared := tnatSet d.hall.inShared p (tnat d.hall.inShared p + n) } }
  | .landing => d.setQueueSt q { s with heldLand := s.heldLand + n }
  | .cMin p k => (d.setQueueSt q s).setClassSt p k { d.classSt p k with heldMin := (d.classSt p k).heldMin + n }
  | .cShared p k => (d.setQueueSt q s).setClassSt p k { d.classSt p k with heldShared := (d.classSt p k).heldShared + n }
  | .cHdrm p k =>
    (d.setQueueSt q s).setClassSt p k
      { d.classSt p k with heldHdrm := (d.classSt p k).heldHdrm + n, xoff := (d.classSt p k).xoff || decide (0 < n) }

/-- Take `n` cells from a holder's charge. -/
def Device.dropCharge (d : Device) (q : Nat) (c : Charge) (n : Nat) : Device :=
  let s := d.queueSt q
  let s := { s with held := s.held - n }
  match c with
  | .qMin => d.setQueueSt q { s with heldMin := s.heldMin - n }
  | .qShared => d.setQueueSt q { s with heldShared := s.heldShared - n }
  | .iMin p => { d with hall := { d.hall with inMin := tnatSet d.hall.inMin p (tnat d.hall.inMin p - n) } }
  | .iShared p => { d with hall := { d.hall with inShared := tnatSet d.hall.inShared p (tnat d.hall.inShared p - n) } }
  | .landing => d.setQueueSt q { s with heldLand := s.heldLand - n }
  | .cMin p k => (d.setQueueSt q s).setClassSt p k { d.classSt p k with heldMin := (d.classSt p k).heldMin - n }
  | .cShared p k => (d.setQueueSt q s).setClassSt p k { d.classSt p k with heldShared := (d.classSt p k).heldShared - n }
  | .cHdrm p k => (d.setQueueSt q s).setClassSt p k { d.classSt p k with heldHdrm := (d.classSt p k).heldHdrm - n }

/-- How many of `n` cells the minimum of a copy's holder still takes: a lossless packet is charged to its class, any
other to its queue (R184). -/
def Device.minRoom (d : Device) (q : Nat) (pool : Charge) : Charge × Nat :=
  match pool with
  | .cMin p k | .cShared p k | .cHdrm p k => (.cMin p k, min (d.cMinEff p k - (d.classSt p k).heldMin) d.minLeft)
  | _ => (.qMin, min (d.qMinEff q - (d.queueSt q).heldMin) d.minLeft)

def Device.frame (d : Device) (id : Nat) : Option Frame := assoc d.pkt.frames id
def Device.setFrame (d : Device) (f : Frame) : Device :=
  { d with pkt := { d.pkt with frames := assocSet d.pkt.frames f.id f } }
def Device.modFrame (d : Device) (id : Nat) (g : Frame → Frame) : Device :=
  match d.frame id with
  | some f => d.setFrame (g f)
  | none => d

def Device.copy (d : Device) (uid : Nat) : Option Copy := d.hall.copies.find? fun c => c.uid = uid
def Device.modCopy (d : Device) (uid : Nat) (g : Copy → Copy) : Device :=
  { d with hall := { d.hall with copies := d.hall.copies.map fun c => if c.uid = uid then g c else c } }

/-- Cells a copy holds in the Upper Hall. -/
def Copy.cells (c : Copy) : Nat := (c.charges.map (·.2)).sum

/-- A frame's place in a list of copies: ahead of the first that passes a test, or at the end. -/
def putBefore (l : List Copy) (c : Copy) (after : Copy → Bool) : List Copy :=
  l.takeWhile (fun x => !after x) ++ c :: l.dropWhile fun x => !after x

/-- A message joins an anvil's input queue: of those that come in one cycle, the one of the lower ingress gallery is ahead
(R303). Any other copy joins at the end. -/
def Device.joinCopies (d : Device) (c : Copy) (gal : Nat) : List Copy :=
  let galOf (x : Copy) : Nat := ((d.frame x.frame).map (·.gal)).getD 0
  putBefore d.hall.copies c fun x => decide (16384 ≤ c.queue ∧ x.queue = c.queue ∧ x.at16 = c.at16 ∧ gal < galOf x)

/-- The fenced gallery that a copy is discarded for, where there is one: that of its queue, or the one that wrote it
(R31). -/
def Device.doomedBy (d : Device) (c : Copy) : Option Nat :=
  let g := queueGal c.queue
  if c.phase = .sending then none
  else if d.isFenced g then some g
  else match d.frame c.frame with
    | some f => if d.isFenced f.gal then some f.gal else none
    | none => none

/-- The copy waits for a fence's discard. -/
def Device.doomed (d : Device) (c : Copy) : Bool := (d.doomedBy c).isSome

/-- Charge `n` more cells of a copy: to the minimum while it has room, then to the pool chosen (R184). -/
def Device.chargeMore (d : Device) (c : Copy) (n : Nat) : Device :=
  if n = 0 then d
  else
    let (mc, room) := d.minRoom c.queue c.poolCharge
    let m := min n room
    let rest := n - m
    let add (l : List (Charge × Nat)) (x : Charge) (k : Nat) := if k = 0 then l else l ++ [(x, k)]
    let d := d.addCharge c.queue mc m
    let d := if rest = 0 then d else d.addCharge c.queue c.poolCharge rest
    let d := d.modCopy c.uid fun c => { c with charges := add (add c.charges mc m) c.poolCharge rest }
    if c.ownCells ∧ c.poolCharge.shared then
      let taken := min rest d.hall.free
      ({ d with hall := { d.hall with free := d.hall.free - taken } }).modFrame c.frame
        fun f => { f with sharedTaken := f.sharedTaken + taken }
    else d

/-- A bank takes no new cells while it is retired (R188, R189). -/
def Device.bankClosed (d : Device) (b : Nat) : Bool :=
  d.hall.bankQueue.contains b || d.hall.bankDrain.contains b || (d.hall.copying.map (·.bank)) == some b

/-- A cell is live until the boundary that frees it (R178). -/
def Device.cellLive (d : Device) (a : Nat) : Bool :=
  d.hall.freeing.contains a || d.pkt.frames.any fun e => e.2.cells.contains a

/-- The lowest free cell index of a bank; a bank holds 1,024 cells (R176). A cell whose row is under test is not free (R391). -/
def Device.freeIndex (d : Device) (b : Nat) : Option Nat :=
  (List.range 1024).find? fun k => !d.cellLive (1024 * b + k) && !d.ras.testing.contains (cellPlace (1024 * b + k))

/-- The next cell from logical bank `b`, modulo 1,504: banks that are retired or full are passed over (R176). -/
def Device.nextCell (d : Device) : Nat → Nat → Option Nat
  | 0, _ => none
  | n + 1, b =>
    if d.bankClosed (b % 1504) then d.nextCell n (b + 1)
    else match d.freeIndex (b % 1504) with
      | some k => some (1024 * (b % 1504) + k)
      | none => d.nextCell n (b + 1)

/-- Give a frame its cells, in successive banks from its gallery's pointer. -/
def Device.allocCells (d : Device) (id gal : Nat) : Nat → Device
  | 0 => d
  | n + 1 =>
    match d.nextCell 1504 (tnat d.hall.bankPtr gal) with
    | none => d
    | some a =>
      let d := { d with hall := { d.hall with bankPtr := tnatSet d.hall.bankPtr gal ((a / 1024 + 1) % 1504) } }
      (d.modFrame id fun f => { f with cells := f.cells ++ [a] }).allocCells id gal n

/-- The bytes of a frame that a copy of at most `trunc` bytes carries: a mirror session that keeps fewer appends a new FCS
(R141). -/
def Frame.kept (f : Frame) (trunc : Option Nat) : Nat :=
  match trunc with
  | some t => if f.bytes.length - 4 ≤ t then f.bytes.length else t + 4
  | none => f.bytes.length
def Copy.bytesOf (c : Copy) (f : Frame) : Nat := f.kept c.trunc

/-- What programmable counters see of a packet made from frame `f` (R364). -/
def Device.evOf (d : Device) (f : Frame) (pass : Nat) (copy : Bool) : EvPkt :=
  { origin := if copy then 6 else if pass > 0 then 5 else f.origin, iclass := f.iclass, inPort := f.inPort, pass := pass,
    h0 := f.h0, stamp := f.stamp, fn := f.ring.map fun r => d.fld (A.HOST_RING_FN r) F.HOST_RING_FN_FN
    parsing := if d.pkt.flights.any fun x => x.id = f.id ∧ (x.phase = .ready ∨ x.phase = .parsing) then f.id + 1 else 0 }

/-- Cells written for a frame as its bytes come, and charged to each of its copies in the Upper Hall. -/
def Device.growFrame (d : Device) (id : Nat) : Device :=
  match d.frame id with
  | none => d
  | some f =>
    let cs := d.hall.copies.filter fun c => c.frame = id ∧ c.seg ≠ .middle
    if cs.isEmpty ∨ d.isFenced f.gal then d
    else
      let n := cellsOf f.bytes.length - (f.gone + f.cells.length)
      let d := d.allocCells id f.gal n
      -- an egress mirror copy that waits for the write budget is written later (R177)
      let waits := !f.rx && !f.checked
      let d := if n = 0 ∨ waits then d else
        (d.spend 0x04 f.gal n id).event (some f.gal) 0x3003 n (cs.head?.map (·.queue)) (d.evOf f f.pass false)
      cs.foldl (fun d c => d.chargeMore c (cellsOf (c.bytesOf f) - (c.cells + c.returned))) d

-- Release (R178, R186) ---------------------------------------------------------------------------------------------

/-- The last of a frame's copies is gone and nothing more of it will be admitted: its cells are freed at the boundary. -/
def Device.releaseFrame (d : Device) (id : Nat) : Device :=
  match d.frame id with
  | none => d
  | some f =>
    let busy := (d.hall.copies.any fun c => c.frame = id) || (d.pkt.flights.any fun x => x.id = id) ||
        (d.host.traps.any fun t => t.frame = id)
    if busy then d
    else
      let d := { d with hall := { d.hall with
          freeing := d.hall.freeing ++ f.cells, freeGain := d.hall.freeGain + f.sharedTaken } }
      if f.ended ∧ f.checked then { d with pkt := { d.pkt with frames := assocDel d.pkt.frames id } }
      else d.setFrame { f with gone := f.gone + f.cells.length, cells := [], sharedTaken := 0 }

/-- Bytes a packet takes in the Lower Hall: a 32-byte header and the packet (R192). -/
def spillBytes (l : Nat) : Nat := l + 32

/-- A packet leaves the Lower Hall: its billets, and its place in its queue's account. -/
def Device.leaveLower (d : Device) (c : Copy) (l : Nat) : Device :=
  let s := d.queueSt c.queue
  let d := d.setQueueSt c.queue { s with lhBytes := s.lhBytes - spillBytes l, lhPkts := s.lhPkts - 1 }
  let d := { d with billet := { d.billet with freeing := d.billet.freeing ++ c.billets.map fun b => (c.queue / 512, b) } }
  d.modCopy c.uid fun c => { c with billets := [], spillHdr := none }

/-- Of a list of charges in their order, the `n` charged last, and what is left (R186). -/
def takeBack : Nat → List (Charge × Nat) → List (Charge × Nat) × List (Charge × Nat)
  | _, [] => ([], [])
  | n, (x, k) :: t =>
    let r := takeBack n t
    let left := n - (r.1.map (·.2)).sum
    let m := min left k
    (if m = 0 then r.1 else r.1 ++ [(x, m)], if k = m then r.2 else (x, k - m) :: r.2)

/-- Charges of `n` of a copy's cells are released at the boundary, the last charged first (R186). -/
def Device.returnCells (d : Device) (c : Copy) (n : Nat) : Device :=
  let r := takeBack n c.charges
  let d := { d with hall := { d.hall with releasing := d.hall.releasing ++ r.1.map fun (x : Charge × Nat) => (c.queue, x.1, x.2) } }
  d.modCopy c.uid fun o => { o with charges := r.2, returned := o.returned + (r.1.map (·.2)).sum }

/-- How many of its frame's cells a copy needs no longer: those it has read, or all once it has read every cell of its own. -/
def Copy.passedBy (c : Copy) (f : Frame) : Nat :=
  if c.seg ≠ .head ∨ c.phase = .queued then 0
  else if f.ended ∧ cellsOf (c.bytesOf f) ≤ c.read then f.gone + f.cells.length
  else c.read

/-- CELL_FREE of cells that the last copy that needs them has read: they return at the boundary (R178). -/
def Device.freeRead (d : Device) (id : Nat) : Device :=
  match d.frame id with
  | none => d
  | some f =>
    let cs := d.hall.copies.filter fun c => c.frame = id ∧ c.seg ≠ .middle
    let asked := (d.pkt.flights.any fun x => x.id = id) || (d.host.traps.any fun t => t.frame = id)
    let past := cs.foldl (fun m c => min m (c.passedBy f)) (f.gone + f.cells.length)
    let n := past - f.gone
    if asked ∨ cs.isEmpty ∨ n = 0 then d
    else
      let gain := min n f.sharedTaken
      let d := { d with hall := { d.hall with
          freeing := d.hall.freeing ++ f.cells.take n, freeGain := d.hall.freeGain + gain } }
      let d := d.setFrame { f with cells := f.cells.drop n, gone := f.gone + n, sharedTaken := f.sharedTaken - gain }
      cs.foldl (fun d c => d.returnCells c n) d

/-- The egress gallery reads a copy's cells once they are complete, as far as its cell-read budget reaches; the rest waits
(R38, R178). -/
def Device.readCells (d : Device) (uid : Nat) : Device :=
  match d.copy uid with
  | none => d
  | some c =>
    match d.frame c.frame with
    | none => d
    | some f =>
      let there := if f.ended then cellsOf (c.bytesOf f) else f.bytes.length / 256
      if c.phase = .queued ∨ c.seg ≠ .head ∨ there ≤ c.read then d
      else
        let r := d.takePieces 0x05 (queueGal c.queue) (there - c.read) 0 uid
        let last := if r.2 = 0 then c.lastCell else f.cells[c.read + r.2 - 1 - f.gone]?
        (r.1.modCopy uid fun c => { c with read := c.read + r.2, lastCell := last }).freeRead c.frame

/-- The reads of a frame's copies that have begun on egress follow its bytes. -/
def Device.readFrame (d : Device) (id : Nat) : Device :=
  (d.hall.copies.filter fun c => c.frame = id ∧ c.phase ≠ .queued).foldl (fun d c => d.readCells c.uid) d

/-- Cell reads that waited are presented again at the boundary (R38). -/
def Device.readBoundary (d : Device) : Device :=
  (d.hall.copies.filter fun c => c.phase ≠ .queued).foldl (fun d c => d.readCells c.uid) d

/-- A copy leaves the halls: its charges are released at the boundary, and its frame's cells with its last copy. -/
def Device.endCopy (d : Device) (uid : Nat) : Device :=
  match d.copy uid with
  | none => d
  | some c =>
    let d := if c.seg = .middle then
        d.leaveLower c (((d.frame c.frame).map fun f => c.bytesOf f).getD 0)
      else d
    let d := { d with hall := { d.hall with
        copies := d.hall.copies.filter fun x => x.uid ≠ uid
        releasing := d.hall.releasing ++ (c.charges.reverse.map fun (x : Charge × Nat) => (c.queue, x.1, x.2)) } }
    let d := if c.egMirrors.isEmpty then d else { d with pkt := { d.pkt with lateMirrors := d.pkt.lateMirrors ++ [c] } }
    let d := (d.noWait 0x05 (queueGal c.queue) uid).noWait 0x06 (2 * (c.queue / 512)) uid
    let d := if c.queue < 16384 ∧ !(d.hall.copies.any fun x => x.queue / 16 = c.queue / 16) then
        d.modPort (c.queue / 16) fun s => { s with idleSince := d.now }
      else d
    (d.releaseFrame c.frame).freeRead c.frame

/-- Free shared cells after `n` more have become free: cells held beyond a smaller total are made up first. -/
def Device.gainShared (d : Device) (n : Nat) : Device :=
  let pay := min n d.hall.owed
  { d with hall := { d.hall with owed := d.hall.owed - pay, free := d.hall.free + (n - pay) } }

/-- The shared total changes; what is held stays held (R60, R68). -/
def Device.resizeShared (d : Device) (total : Nat) : Device :=
  let old := d.hall.sharedTotal
  let d := { d with hall := { d.hall with sharedTotal := total } }
  if old ≤ total then d.gainShared (total - old)
  else
    let cut := old - total
    let taken := min cut d.hall.free
    { d with hall := { d.hall with free := d.hall.free - taken, owed := d.hall.owed + (cut - taken) } }

/-- CELL_FREE, at the boundary: charges are credited and cells return to their pools (R178, R186). -/
def Device.hallRelease (d : Device) : Device :=
  let d := d.hall.releasing.foldl (fun d r => d.dropCharge r.1 r.2.1 r.2.2) d
  let gain := d.hall.freeGain
  ({ d with hall := { d.hall with freeGain := 0, releasing := [], freeing := [] } }).gainShared gain

-- Marking (R229, R230) ---------------------------------------------------------------------------------------------

/-- What the marking test decides. -/
inductive Mark where
  | pass | ce | refuse
deriving DecidableEq, Repr

/-- mark_check: `r` is the value the gallery's generator gives; `ecnOnly` for a lossless packet (R229, R230). -/
def Device.markCheck (d : Device) (q colour : Nat) (ecn : Option Nat) (ecnOnly : Bool) (r : Nat) : Mark :=
  let w := d.cfg (qReg A.HALL_Q_MARK q)
  let k := if colour = 0 then F.HALL_Q_MARK_PROF_G.get w else if colour = 1 then F.HALL_Q_MARK_PROF_Y.get w
    else F.HALL_Q_MARK_PROF_R.get w
  let lo := d.fld (A.HALL_WP_MIN k) F.HALL_WP_MIN_CELLS
  let hi := d.fld (A.HALL_WP_MAX k) F.HALL_WP_MAX_CELLS
  let cfg := d.cfg (A.HALL_WP_CFG k)
  let a := ((d.queueSt q).avg).toNat
  if q ≥ 16384 ∨ F.HALL_WP_CFG_EN.get cfg = 0 ∨ a < lo then .pass
  else
    let pr := if a ≥ hi then 256 else F.HALL_WP_CFG_PMAX.get cfg * (a - lo) / (hi - lo)
    if r ≥ pr then .pass
    else if F.HALL_Q_MARK_ECN_EN.get w = 1 ∧ (ecn = some 1 ∨ ecn = some 2 ∨ ecn = some 3) then .ce
    else if F.HALL_Q_MARK_WRED_EN.get w = 1 ∧ !ecnOnly then .refuse
    else .pass

-- Admission (R184) -------------------------------------------------------------------------------------------------

/-- Where admission puts a packet, or the drop code it refuses it with. -/
inductive Admission where
  | to (pool : Charge)
  | refused (code : Nat)
deriving DecidableEq, Repr

/-- The landing of R184: `l` bytes and `n` cells. LH bytes count each packet's 32-byte header in the Lower Hall, and those
of the landing's packets and of this one are added here. -/
def Device.admitLand (d : Device) (q n l free : Nat) : Admission :=
  let s := d.queueSt q
  let mine := d.hall.copies.filter fun c => c.queue = q ∧ c.seg = .landing
  let bytes := (mine.map fun c => ((d.frame c.frame).map fun f => c.bytesOf f).getD 0).sum
  if s.lhBytes + bytes + 32 * (mine.length + 1) + l > d.spillMax q then .refused 0x52
  else if s.heldLand + n > d.landMax q ∨ n > free then .refused 0x50
  else .to .landing

/-- R184 for a lossy packet of `n` cells and `l` bytes; `free` counts the cells it already holds. The flag tells that the
queue enters spill state by it, whatever the landing answers (R191). -/
def Device.admitLossy (d : Device) (q n l free : Nat) : Admission × Bool :=
  let s := d.queueSt q
  if s.spilling then (if d.spillAllowed then d.admitLand q n l free else .refused 0x50, false)
  else
    let need := n - min (d.qMinEff q - s.heldMin) d.minLeft
    if need = 0 then (.to .qMin, false)
    else if d.qAlpha q = 15 then (.refused 0x51, false)
    else if s.heldShared + need ≤ d.threshold (d.qAlpha q) ∧ need ≤ free then (.to .qShared, false)
    else if d.maySpill q then (d.admitLand q n l free, true)
    else (.refused 0x50, false)

/-- R184 for a lossless packet of class `c` of ingress port `p`. -/
def Device.admitLossless (d : Device) (p c n free : Nat) : Admission :=
  let s := d.classSt p c
  if s.heldMin + n ≤ d.cMinEff p c ∧ n ≤ d.minLeft then .to (.cMin p c)
  else if s.heldShared + n ≤ d.classT p c ∧ n ≤ free then .to (.cShared p c)
  else if s.heldHdrm + n ≤ d.classH p c then .to (.cHdrm p c)
  else .refused 0x54

/-- A packet asking to join a queue. -/
structure AdmitReq where
  frame : Nat
  queue : Nat
  kind : CopyKind
  colour : Nat := 0
  ioam : Bool := false
  phv : Phv := {}
  pass : Nat := 0
  trunc : Option Nat := none
  /-- the gallery that decides -/
  gal : Nat
  originAt : Option Nat := none
deriving DecidableEq, Repr

/-- The HALL counter of a refusal (R184, R190, R232). -/
def refusalCnt : Nat → Option Nat
  | 0x50 => some 0 | 0x51 => some 1 | 0x54 => some 2 | 0x52 => some 3 | 0x53 => some 11 | _ => none

/-- What a drop record says of a copy or of a packet that asked for a queue. -/
def Device.dropInfoOf (d : Device) (f : Frame) (code gal q held pass : Nat) (kind : CopyKind) (len : Nat) (egress stomped : Bool) : DropInfo :=
  { code := code, gal := gal, inPort := f.inPort, iclass := f.iclass, pass := pass, len := len, stamp := f.stamp,
    h0 := f.h0, key := f.flowKey, stomped := stomped, mirror := kind == .mirror, replica := kind == .replica,
    egress := egress, host := f.ring.isSome, org := (d.evOf f pass (kind == .mirror || kind == .replica)).origin,
    fn := (d.evOf f pass false).fn,
    queue := if q < 16384 then some (q, held) else none }

/-- Length of a frame where it is known, else 0, as drop records give it. -/
def Frame.knownLen (f : Frame) : Nat := if f.ended then f.bytes.length else 0

/-- Account a drop of a packet made from frame `f`: a record datagram makes no record (R293), and a ring's frame counts in
its ring too (R338). -/
def Device.loseOne (d : Device) (f : Frame) (i : DropInfo) : Device :=
  let d := match f.coll with
    | some k => (d.dropCount i).count (A.TELEM_C_DROPPED_LO k)
    | none => d.drop i
  match f.ring with
  | some r => d.count (A.RINGS_RW_NONFATAL_LO r)
  | none => d

/-- The end of a packet's life: its flow record is updated, once, or when the frame's length is known (R277). -/
def Device.flowFinish (d : Device) (id : Nat) (drop res : Option Nat) : Device :=
  match d.frame id with
  | none => d
  | some f =>
    if f.flowDone ∨ f.untracked then d
    else
      let d := d.setFrame { f with flowDone := true, flowPend := if f.ended then none else some (drop, res) }
      if f.ended then
        d.flowEnd f.tracked
          { inPort := f.inPort, key := f.flowKey, iclass := f.iclass, gal := f.gal, len := f.got, tsClk := f.tsClk,
            res := res, eg := f.eg, held := f.held, drop := drop }
      else d

/-- The egress port and queue of a copy; an anvil's input queue has none (R281). -/
def Copy.egress (c : Copy) : Option (Nat × Nat) := if c.queue < 16384 then some (c.queue / 16, c.queue % 16) else none

/-- The packet's life ends with copy `c`, transmitted or dropped: a mirror copy ends none (R277, R281). -/
def Device.flowCopy (d : Device) (c : Copy) (drop res : Option Nat) : Device :=
  if c.kind = .mirror then d
  else (d.modFrame c.frame fun f => if f.flowDone then f else { f with eg := c.egress }).flowFinish c.frame drop res

/-- Anything of the packet besides copy `uid` still lives: a copy other than a mirror's, its passage through ingress, or
a trap. -/
def Device.othersLive (d : Device) (id : Nat) (uid : Option Nat) : Bool :=
  (d.hall.copies.any fun c => c.frame = id ∧ some c.uid ≠ uid ∧ c.kind ≠ .mirror ∧ !c.lost) ||
    (d.pkt.flights.any fun x => x.id = id) || (d.host.traps.any fun t => t.frame = id)

/-- Refuse a packet at admission: its counters and its drop record. -/
def Device.refuseAdmission (d : Device) (f : Frame) (r : AdmitReq) (code : Nat) : Device :=
  let d := match refusalCnt code with
    | some x => d.count (hallCnt x)
    | none => d
  let d := if code = 0x54 then d.portCount f.inPort 21 1 else d
  let d := if code = 0x61 then (d.portCount (r.queue / 16) 22 1).queueCount r.queue 7 1
    else if r.queue < 16384 then d.queueCount r.queue 4 1 else d
  let d := if r.kind = .replica then d.count (hallCnt 7) else d
  d.loseOne f (d.dropInfoOf f code r.gal r.queue (d.queueSt r.queue).held r.pass r.kind f.knownLen false false)

/-- What came of a request: the copy's number, or the drop code. -/
inductive Admitted where
  | copy (uid : Nat)
  | refused (code : Nat)
deriving DecidableEq, Repr

/-- Admit a packet to its queue, or refuse it (R184 to R187, R108): the new copy's number on admission. `extra` counts
cells it held on the stair, released for the decision. -/
def Device.admitCopy (d : Device) (r : AdmitReq) (ownCells : Bool) (extra : Nat) : Device × Admitted :=
  match d.frame r.frame with
  | none => (d, .refused 0)
  | some f =>
    let egPort := r.queue / 16
    if r.queue < 16384 ∧ (!(d.port egPort).up ∨ d.isFenced (egPort / 32)) then (d.refuseAdmission f r 0x61, .refused 0x61)
    else if 16384 ≤ r.queue ∧ 4096 ≤ (d.hall.copies.filter fun c => c.queue = r.queue).length then
      (d.refuseAdmission f r 0x50, .refused 0x50)
    else
      let proto : Copy :=
        { uid := d.hall.nextUid
          frame := r.frame
          queue := r.queue
          kind := r.kind
          colour := r.colour
          ioam := r.ioam
          phv := r.phv
          pass := r.pass
          trunc := r.trunc
          ownCells := ownCells
          at16 := d.now
          depth := (d.queueSt r.queue).held
          originAt := r.originAt }
      let l := if f.ended then proto.bytesOf f else f.maxFrame
      let n := cellsOf l
      let free := d.hall.free + extra
      let cls := if r.kind = .original ∧ f.origin ≠ 2 ∧ r.queue < 16384 then d.losslessClass f.inPort r.queue else none
      let (dec, enter) := match cls with
        | some c => (d.admitLossless f.inPort c n free, false)
        | none => d.admitLossy r.queue n l free
      let d := if enter then d.setQueueSt r.queue { d.queueSt r.queue with spilling := true } else d
      match dec with
      | .refused code => (d.refuseAdmission f r code, .refused code)
      | .to pool =>
        let (rnd, d) := d.free 8
        let tested := cls.isSome || pool == .qShared
        let mark := if tested then d.markCheck r.queue r.colour (d.ecnOf r.phv.hdrs f.bytes) cls.isSome rnd else .pass
        if mark = .refuse then (d.refuseAdmission f r 0x53, .refused 0x53)
        else
          let d := if mark = .ce then d.count (hallCnt 12) else d
          let pool : Charge := if pool = .qMin then .qShared else pool
          let c := { proto with poolCharge := pool, ecn := mark == .ce, seg := if pool = .landing then .landing else .head }
          let d := { d with hall := { d.hall with copies := d.joinCopies c r.gal, nextUid := d.hall.nextUid + 1 } }
          let d := if r.kind = .mirror then d else
            d.modFrame r.frame fun f => { f with held := some (max (f.held.getD 0) c.depth) }
          let d := if 16384 ≤ r.queue then d
            else if f.ended then (d.queueCount r.queue 0 1).queueCount r.queue 1 (c.bytesOf f)
            else (d.queueCount r.queue 0 1).modFrame r.frame fun f => { f with enqOpen := f.enqOpen ++ [(r.queue, r.trunc)] }
          let d := if r.kind = .replica then d.count (hallCnt 6) else d
          let d := d.event (some r.gal) 0x3001 1 (some r.queue) (d.evOf f r.pass (r.kind == .mirror || r.kind == .replica))
          (d.growFrame r.frame, .copy c.uid)

/-- Is bit `p` of a replication list set, and its PRUNE_IN (R187, R190)? -/
def Device.replPort (d : Device) (list p : Nat) : Bool := bit (tnat d.hall.repl (64 * list + p / 32)) (p % 32)
def Device.replPrune (d : Device) (list : Nat) : Bool := bit (tnat d.hall.repl (64 * list + 32)) 0

/-- The ports a replication list copies to (R187). -/
def Device.replPorts (d : Device) (list inPort : Nat) : List Nat :=
  (List.range 1024).filter fun p => d.replPort list p && !(d.replPrune list && p == inPort)

end Sys2Proof.Machine
end

