-- ==== Sys2Proof/Machine/LaneBase.lean ====
section
/-! DEFINITION. A lane's state as it is stored (R71, R76), its quiet conditions (R92) and its receive adaptation (R78). -/

namespace Sys2Proof.Machine

-- Lanes ------------------------------------------------------------------------------------------------------------

/-- Base of the page of a lane's chiplet (R71, R74). -/
def laneBase (l : Nat) : Nat := 0x200000 + l / 128 * 0x10000

def Device.laneSt (d : Device) (l : Nat) : LaneSt := tabGet (fun _ => {}) d.lane.lanes l

/-- The lane is quiet in its outbound and its inbound direction (R92). -/
def LaneSt.quietOut (s : LaneSt) : Bool := s.txLpi || s.st == .dormant || s.st == .disabled || s.st == .retired
def LaneSt.quietIn (s : LaneSt) : Bool := s.rxLpi || s.st == .dormant || s.st == .disabled || s.st == .retired

/-- The receiver of a lane in this state adapts: not with ADAPT frozen, nor frozen by its reaching UP, nor in DORMANT or
receive low-power idle, which hold it (R78, R86). -/
def Device.adapts (d : Device) (l : Nat) (s : LaneSt) : Bool :=
  let adapt := F.LANE_LN_RXEQ_ADAPT.get (d.reg (ofLane A.LANE_LN_RXEQ l))
  adapt != 2 && !(adapt == 1 && s.st == .up) && s.st != .dormant && !s.rxLpi

/-- Store a lane; the stroke in which a direction becomes quiet is kept (R92), and the cycle in which its adaptation freezes
(R78). -/
def Device.setLane (d : Device) (l : Nat) (s : LaneSt) : Device :=
  let old := d.laneSt l
  let s := { s with
    frozenAt := if d.adapts l s then none else some (old.frozenAt.getD d.absCyc)
    outQuiet := if s.quietOut && !old.quietOut then d.strokeNo else old.outQuiet
    inQuiet := if s.quietIn && !old.quietIn then d.strokeNo else old.inQuiet }
  { d with lane := { d.lane with lanes := tabSet (fun _ => {}) d.lane.lanes l s } }

def Device.modLane (d : Device) (l : Nat) (f : LaneSt → LaneSt) : Device := d.setLane l (f (d.laneSt l))

/-- The lanes of a port, lowest first. -/
def Device.portLanes (d : Device) (p : Nat) : List Nat := (List.range (d.portWidth p)).map fun k => p + k

end Sys2Proof.Machine
end

