-- ==== Sys2Proof/Machine/FlowCtl.lean ====
section
/-! DEFINITION. The flow-control frames that a port sends, between the frames of its queues (R102, R104, R445). -/

namespace Sys2Proof.Machine

/-- A port's station address in transmission order (R445). -/
def Device.portMac (d : Device) (p : Nat) : Bytes :=
  beBytes 6 ((d.reg (ofPort A.PORT_PT_MAC_HI p)).toNat % 65536 * 2 ^ 32 + (d.reg (ofPort A.PORT_PT_MAC_LO p)).toNat)

/-- A frame of the MAC padded to 60 bytes, without its FCS. -/
def macBody (body : Bytes) : Bytes := body ++ zeroBytes (60 - body.length)

/-- The same with its FCS. -/
def macFrame (body : Bytes) : Bytes := macBody body ++ fcsOf (macBody body)

/-- A MAC control frame of port `p` (R445). -/
def Device.controlFrame (d : Device) (p : Nat) (body : Bytes) : Bytes :=
  macFrame ([0x01, 0x80, 0xC2, 0x00, 0x00, 0x01] ++ d.portMac p ++ [0x88, 0x08] ++ body)

/-- FC_MODE of a port. -/
def Device.fcMode (d : Device) (p : Nat) : Nat := d.fld (ofPort A.PORT_PT_CFG p) F.PORT_PT_CFG_FC_MODE

/-- Quanta of 512 bit times at the port's rate, in 2^-16 ns (R104). -/
def Device.quantaTime (d : Device) (p n : Nat) : Nat := d.lineTime p (64 * n)

/-- Leave transmit low-power idle: whole microseconds count (R102). -/
def Device.leaveLpiTx (d : Device) (p : Nat) : Device :=
  match (d.port p).lpiTxAt with
  | none => d
  | some t =>
    let d := (d.portCount p 17 ((d.now - t) / usT 1)).modPort p fun s => { s with lpiTxAt := none }
    (d.portLanes p).foldl (fun d l => d.modLane l fun s => { s with txLpi := false }) d

/-- The priorities of `en` whose XOFF is sent now are noted with its time, and those sent 0 are forgotten; 8 is pause (R104). -/
def PortSt.sentFc (s : PortSt) (pause : Bool) (en stop now : Nat) : PortSt :=
  let names := if pause then [8] else (List.range 8).filter fun q => bit en q
  let on := names.filter fun k => if k = 8 then stop ≠ 0 else bit stop k
  { s with xoffAt := (s.xoffAt.filter fun e => !names.contains e.1) ++ on.map fun k => (k, now) }

/-- Send a flow-control frame: for PFC the priorities of `en`, those in `stop` at 0xFFFF and the others at 0; for pause the
port as a whole (R104). -/
def Device.sendFc (d : Device) (p en stop : Nat) : Device :=
  let d := d.modPort p fun s => { s with fcEn := 0 }
  if !(d.port p).up ∨ en = 0 then d
  else if d.fcMode p = 2 then
    let quanta := (List.range 8).flatMap fun q => if bit en q && bit stop q then [0xFF, 0xFF] else [0, 0]
    let d := (d.leaveLpiTx p).modPort p fun s => s.sentFc false en stop d.now
    (d.portCount p 12 1).send (.frame p (d.controlFrame p ([0x01, 0x01, 0x00, BitVec.ofNat 8 en] ++ quanta)))
  else if d.fcMode p = 1 then
    let q : Bytes := if stop = 0 then [0, 0] else [0xFF, 0xFF]
    let d := (d.leaveLpiTx p).modPort p fun s => s.sentFc true en stop d.now
    (d.portCount p 11 1).send (.frame p (d.controlFrame p ([0x00, 0x01] ++ q)))
  else d

/-- A flow-control frame is due: it leaves at once, or after the frame in transmission and ahead of any queued frame (R104). -/
def Device.askFc (d : Device) (p en : Nat) : Device :=
  if d.pkt.sending.any fun e => e.1 = p then d.modPort p fun s => { s with fcEn := s.fcEn ||| en }
  else d.sendFc p ((d.port p).fcEn ||| en) (d.port p).xoff

end Sys2Proof.Machine
end

