-- ==== Sys2Proof/Machine/Copies.lean ====
section
/-! DEFINITION. How a copy's life ends early: dropped before its first byte, or ended with an inverted FCS (R98, R211,
R227), and what that does to its buckets, its frame and its flow record. -/

namespace Sys2Proof.Machine

-- Buckets ----------------------------------------------------------------------------------------------------------

/-- Keys of the shaper buckets: queues, ports and groups (R211). -/
def queueBucket (q : Nat) : Nat := q
def portBucket (p : Nat) : Nat := 16384 + p
def groupBucket (g : Nat) : Nat := 20480 + g

def Device.tokens (d : Device) (k : Nat) : Int := tabGet (fun _ => (0 : Int)) d.sched.tokens k
def Device.setTokens (d : Device) (k : Nat) (v : Int) : Device :=
  { d with sched := { d.sched with tokens := tabSet (fun _ => (0 : Int)) d.sched.tokens k v } }

def Device.dwrrOf (d : Device) (p : Nat) : DwrrSt := tabGet (fun _ => {}) d.sched.dwrr p
def Device.setDwrr (d : Device) (p : Nat) (v : DwrrSt) : Device :=
  { d with sched := { d.sched with dwrr := tabSet (fun _ => {}) d.sched.dwrr p v } }

/-- Add to a queue's deficit (queues 4 to 15 of its port). -/
def Device.addDeficit (d : Device) (q : Nat) (n : Int) : Device :=
  if q % 16 < 4 then d
  else
    let s := d.dwrrOf (q / 16)
    let k := q % 16
    let t := tabSet (fun _ => (0 : Int)) s.deficit k (tabGet (fun _ => (0 : Int)) s.deficit k + n)
    d.setDwrr (q / 16) { s with deficit := t }

/-- Give `n` bytes back to every bucket a copy was charged to, and to its queue's deficit (R209, R211). -/
def Device.giveBack (d : Device) (c : Copy) (n : Int) : Device :=
  let d := c.chargedAt.foldl (fun d k => d.setTokens k (d.tokens k + n * 65536)) d
  if c.chargedAt.isEmpty ∧ c.charged = 0 then d else d.addDeficit c.queue n

-- Ends -------------------------------------------------------------------------------------------------------------

/-- A copy charged on an estimate has its charge corrected to its length as transmitted, `n` bytes (R209). -/
def Device.correctTo (d : Device) (c : Copy) (n : Nat) : Device :=
  if c.est then d.giveBack c (c.charged - (Int.ofNat n + signedAdj (d.fld (A.SCHED_P_SCHED (c.queue / 512) (c.queue / 16 % 32))
    F.SCHED_P_SCHED_PORT_OVERHEAD))) else d

/-- The port is no longer sending this copy, and the flow-control frame that waited for it leaves (R104). -/
def Device.stopSending (d : Device) (uid : Nat) : Device :=
  let ports := d.pkt.sending.filterMap fun e => if e.2 = uid ∧ (d.port e.1).fcEn ≠ 0 then some e.1 else none
  let d := { d with pkt := { d.pkt with sending := d.pkt.sending.filter fun e => e.2 ≠ uid } }
  ports.foldl (fun d p => d.askFc p 0) d

/-- A frame has left a port, whole or stomped (R109, R216). -/
def Device.countSent (d : Device) (q n : Nat) : Device :=
  (((d.portCount (q / 16) 8 1).portCount (q / 16) 9 n).queueCount q 2 1).queueCount q 3 n

/-- A copy has left its port stomped after `n` bytes: transmitted like any other, with the event TX_BYTES, and in TX_STOMPED (R109,
R216, R363). -/
def Device.countStomped (d : Device) (c : Copy) (n : Nat) : Device :=
  let d := match d.frame c.frame with
    | some f => d.event (some (c.queue / 512)) 0x4002 n (some (c.queue / 16))
        (d.evOf f c.pass (c.kind == CopyKind.mirror || c.kind == CopyKind.replica))
    | none => d
  (d.countSent c.queue n).portCount (c.queue / 16) 10 1

/-- The transmit MAC ends a copy with an inverted FCS. How many bytes it had sent is open: a free value counts them. -/
def Device.stompOut (d : Device) (c : Copy) : Device :=
  let (n, d) := d.free 14
  ((d.correctTo c n).countStomped c n).send (.stomped (c.queue / 16))

/-- A copy is dropped with a code: ended with an inverted FCS when it has begun on egress, otherwise nothing is sent and
its charge is given back (R211, R227). `act` names the stage and action that decided it. -/
def Device.dropCopy (d : Device) (uid code gal : Nat) (egress : Bool) (act : Option (Nat × Nat)) : Device :=
  match d.copy uid with
  | none => d
  | some c =>
    match d.frame c.frame with
    | none => d
    | some f =>
      if c.lost then d.endCopy uid
      else
      let begun := c.phase == .sending
      let d := if begun then d.stompOut c else d.giveBack c c.charged
      let info := d.dropInfoOf f code gal c.queue (d.queueSt c.queue).held c.pass c.kind f.knownLen egress begun
      let d := d.loseOne f { info with act := act }
      let d := if d.othersLive c.frame (some uid) then d else d.flowCopy c (some code) none
      (d.stopSending uid).endCopy uid

/-- The copies of a frame, in the order of their numbers. -/
def Device.copiesOf (d : Device) (id : Nat) : List Copy := d.hall.copies.filter fun c => c.frame = id

/-- Drop every copy of a frame that passes a test. -/
def Device.dropCopies (d : Device) (id code gal : Nat) (which : Copy → Bool) : Device :=
  ((d.copiesOf id).filter which).foldl (fun d c => d.dropCopy c.uid code gal false none) d

/-- A packet still in ingress: its flight. -/
def Device.flight (d : Device) (id : Nat) : Option Flight := d.pkt.flights.find? fun x => x.id = id
def Device.setFlight (d : Device) (x : Flight) : Device :=
  { d with pkt := { d.pkt with flights := d.pkt.flights.map fun y => if y.id = x.id then x else y } }
/-- It leaves ingress, and the requests it has waiting are withdrawn. -/
def Device.endFlight (d : Device) (id : Nat) : Device :=
  { d with
    pkt := { d.pkt with flights := d.pkt.flights.filter fun y => y.id ≠ id }
    budget := { d.budget with waiting := d.budget.waiting.filter fun w => !(w.tag = id ∧ [1, 2, 3, 7].contains w.act) } }

/-- The cells of a packet dropped on the stair go back at the boundary (R146, R178, R181). -/
def Device.freeStair (d : Device) (x : Flight) (port : Nat) : Device :=
  let mine := (if x.stairMin = 0 then [] else [(0, Charge.iMin port, x.stairMin)]) ++
    (if x.stairShared = 0 then [] else [(0, Charge.iShared port, x.stairShared)])
  { d with hall := { d.hall with releasing := d.hall.releasing ++ mine, freeGain := d.hall.freeGain + x.stairShared } }

/-- Length of a frame, DA to FCS, as received: what meters and counters use; the estimate of R209 until it ends. -/
def Frame.rxLen (f : Frame) : Int :=
  if f.ended then Int.ofNat f.bytes.length - f.delta
  else match f.stated with
    | some s => Int.ofNat s + 4
    | none => Int.ofNat f.maxFrame

/-- Length of a frame without its FCS as it stands, or the estimate of R209. -/
def Frame.bodyLen (f : Frame) : Nat :=
  if f.ended then f.bytes.length - 4 else (f.rxLen + f.delta - 4).toNat

/-- Mirror session `m`: its queue and truncation, where it is enabled (R141). -/
def Device.mirrorOf (d : Device) (m : Nat) : Option (Nat × Option Nat) :=
  let w := d.cfg (A.TOP_MIRROR m)
  if F.TOP_MIRROR_EN.get w = 0 then none
  else
    let t := F.TOP_MIRROR_TRUNC.get w
    some (F.TOP_MIRROR_PORT.get w * 16 + F.TOP_MIRROR_QUEUE.get w, if t = 0 then none else some (64 * t))

/-- The ingress rebuild at the end of a pass: the frame's bytes and the PHV as rebuilt (R147). -/
def Device.formIngress (d : Device) (x : Flight) : Device × Phv :=
  match d.frame x.id with
  | none => (d, x.phv)
  | some f =>
    let r := rebuild d x.gal x.phv f.bytes x.acts.encap x.acts.decap false false f.bodyLen
    let bytes := r.apply x.phv f.bytes
    let delta := f.delta + (Int.ofNat r.hdr.length - Int.ofNat r.skip)
    let k := d.flowKey x.gal x.iclass x.phv.c
    (d.setFrame { f with
      bytes := bytes, delta := delta, originAt := f.originAt.bind (r.at_ x.phv), stamp := x.stamp, iclass := x.iclass, pass := x.pass, h0 := x.phv.h0
      tracked := k.1, flowKey := k.2 }, r.phv)

/-- The ingress mirror copies that the actions met asked for (R141); the frame is as it will be copied. `own` tells that no
copy has taken the frame's cells yet. -/
def Device.ingressMirrors (d : Device) (x : Flight) (phv : Phv) (own : Bool) (extra : Nat) : Device × Bool :=
  x.acts.mirrors.foldl (fun (r : Device × Bool) m =>
    match r.1.mirrorOf m with
    | none => r
    | some (q, trunc) =>
      let (d, a) := r.1.admitCopy
        { frame := x.id, queue := q, kind := .mirror, colour := x.acts.colour, phv := phv, pass := x.pass, trunc := trunc,
          gal := x.gal } r.2 (if r.2 then extra else 0)
      match a with
      | .copy _ => (d, false)
      | .refused _ => (d, r.2)) (d, own)

/-- A packet that ends in ingress is mirrored all the same, as rebuilt where its pass was over. -/
def Device.mirrorEnded (d : Device) (x : Flight) : Device :=
  if x.acts.mirrors.isEmpty then d
  else
    let (d, phv) := if x.phase = .stages ∧ x.stage ≠ 0 then d.formIngress x else (d, x.phv)
    (d.ingressMirrors x phv true 0).1

/-- Mirror copies that were asked for and are not made, because the frame they would carry has failed or is lost: each is a drop
of its own with the same code (R98, R227). `info` is what the record of the packet says. -/
def Device.loseMirrors (d : Device) (f : Frame) (info : DropInfo) (ms : List Nat) : Device :=
  ms.foldl (fun d m =>
    match d.mirrorOf m with
    | none => d
    | some (q, _) => d.loseOne f { info with mirror := true, replica := false, stomped := false, act := none,
                                             queue := some (q, (d.queueSt q).held) }) d

/-- What a drop record says of a packet in ingress. -/
def Device.flightInfo (d : Device) (x : Flight) (f : Frame) (code : Nat) (act : Option (Nat × Nat)) : DropInfo :=
  { code := code, gal := x.gal, inPort := f.inPort, iclass := x.iclass, pass := x.pass, len := f.knownLen,
    stamp := x.stamp, h0 := x.phv.h0, key := (d.flowKey x.gal x.iclass x.phv.c).2, host := f.ring.isSome,
    org := (d.evOf f x.pass false).origin, fn := (d.evOf f x.pass false).fn, act := act }

/-- What a packet's life in ingress tells its flow record (R278). -/
def Device.flowOfFlight (d : Device) (x : Flight) : Device :=
  let k := d.flowKey x.gal x.iclass x.phv.c
  d.modFrame x.id fun f => { f with iclass := x.iclass, tracked := k.1, flowKey := k.2 }

/-- A packet in ingress is dropped: its record, its flow record and its cells. -/
def Device.dropFlight (d : Device) (id code : Nat) (act : Option (Nat × Nat)) : Device :=
  match d.flight id, d.frame id with
  | some x, some f =>
    let d := (d.loseOne f (d.flightInfo x f code act)).freeStair x f.inPort
    let d := ((d.mirrorEnded x).endFlight id).flowOfFlight x
    let d := if d.othersLive id none then d else d.flowFinish id (some code) none
    d.releaseFrame id
  | _, _ => d

/-- A packet in ingress whose frame has failed is dropped, and with it every mirror copy that its actions have asked for (R98,
R227). -/
def Device.failFlight (d : Device) (id code : Nat) : Device :=
  match d.flight id, d.frame id with
  | some x, some f =>
    let d := d.loseMirrors f (d.flightInfo x f code none) x.acts.mirrors
    (d.setFlight { x with acts := { x.acts with mirrors := [] } }).dropFlight id code none
  | _, _ => d

/-- The egress mirror copies that copy `c` asked for and that were still to be made are lost with their frame. -/
def Device.loseEgMirrors (d : Device) (f : Frame) (c : Copy) (code gal : Nat) : Device :=
  d.loseMirrors f (d.dropInfoOf f code gal c.queue 0 c.pass .mirror f.knownLen true false) c.egMirrors

/-- A packet that is trapped and not written yet is dropped. -/
def Device.dropTrap (d : Device) (t : TrapPkt) (code : Nat) : Device :=
  let d := { d with host := { d.host with traps := d.host.traps.filter fun u => u ≠ t } }
  match d.frame t.frame with
  | none => d
  | some f =>
    let d := d.loseOne f
      { code := code, gal := t.gal, inPort := f.inPort, iclass := f.iclass, pass := t.pass, len := f.knownLen,
        stamp := f.stamp, h0 := f.h0, key := f.flowKey, host := f.ring.isSome, org := (d.evOf f t.pass false).origin,
        fn := (d.evOf f t.pass false).fn }
    let d := if d.othersLive t.frame none then d else d.flowFinish t.frame (some code) none
    d.releaseFrame t.frame

end Sys2Proof.Machine
end

