-- ==== Sys2Proof/Machine/Ingress.lean ====
section
/-! DEFINITION. A packet in ingress: taking a header position (R19), the parse and its verdicts (R116 to R123), the ingress
stages, the fragment hold (R136) and extension lookups (R143). -/

namespace Sys2Proof.Machine

/-- The sources of R19 in their order: 32 local ports, host injection, two anvils, telemetry injection. -/
def FlightSrc.rank : FlightSrc → Nat
  | .port p => p % 32
  | .host _ => 32
  | .anvil k => 33 + k
  | .telem _ => 35

/-- A flight moves to the end of the list, so that the list is in the order of the last step made. -/
def Device.toBack (d : Device) (x : Flight) : Device :=
  { d with pkt := { d.pkt with flights := (d.pkt.flights.filter fun y => y.id ≠ x.id) ++ [x] } }

/-- Of two headers, the one that became ready first, or that the rotating pointer reaches first (R19). -/
def headerFirst (ptr : Nat) (a b : Flight) : Bool :=
  decide (a.ready < b.ready) ||
    (decide (a.ready = b.ready) && decide ((a.src.rank + 36 - ptr) % 36 ≤ (b.src.rank + 36 - ptr) % 36))

/-- The ready header of gallery `n` that takes the next position (R19). The pointer is the cycle count modulo 36. -/
def Device.nextHeader (d : Device) (n : Nat) : Option Flight :=
  (d.pkt.flights.filter fun x => x.gal = n ∧ x.phase = .ready ∧ x.ready ≤ d.absCyc).foldl (fun m x =>
    match m with
    | none => some x
    | some y => if headerFirst (d.absCyc % 36) y x then some y else some x) none

/-- Header positions taken in the present cycle (R19). -/
def Device.taken (d : Device) (n : Nat) : Nat :=
  let t := tnat d.pkt.accepted n
  if t / 8 = d.absCyc then t % 8 else 0

/-- One more position is taken. -/
def Device.takePosition (d : Device) (n : Nat) : Device :=
  { d with pkt := { d.pkt with accepted := tnatSet d.pkt.accepted n (8 * d.absCyc + d.taken n + 1) } }

/-- What the stages need to know of a flight. -/
def Device.stageCtx (d : Device) (x : Flight) (f : Frame) : StageCtx :=
  { gal := x.gal, inPort := f.inPort, slot := slotOf x.stamp, pass := x.pass, egress := false, prof := x.prof,
    len := f.rxLen, ended := f.ended, delta := f.delta, base := x.due, ev := { d.evOf f x.pass false with iclass := x.iclass, stamp := x.stamp, h0 := x.phv.h0 } }

/-- Ask for an extension lookup: admitted under the extension budget, its two row reads as 2 units, or it waits (R143, R164). -/
def Device.issueExt (d : Device) (id : Nat) : Device :=
  match d.flight id with
  | none => d
  | some x =>
    match x.ext with
    | none => d
    | some e =>
      if e.issued then d
      else if d.canAdmit 0x07 x.gal 2 1 d.stroke.cyc id then
        (((d.spend 0x07 x.gal 2 id).lhMoved 2 none).setFlight { x with ext := some { e with issued := true } }).count
          (A.STAIR_STAIR_CNT x.gal 4)
      else d.mustWait 0x07 x.gal id 2

/-- Extension lookups that waited are asked for again at the boundary (R38, R143). -/
def Device.extBoundary (d : Device) : Device :=
  (d.pkt.flights.filter fun x => !d.isFenced x.gal && (x.ext.map fun e => !e.issued).getD false).foldl (fun d x => d.issueExt x.id) d

/-- Store what the stages made of a flight, and its frame's part of it. -/
def Device.keepStages (_d : Device) (x : Flight) (r : StageRun) (phase : FlightPhase) (stage : Nat) : Device :=
  let a := { r.a with charges := [], counted := [] }
  let d := r.d.modFrame x.id fun f =>
    { f with charges := f.charges ++ r.a.charges.map fun c => (x.gal, c)
             counted := f.counted ++ r.a.counted.map fun c => actCntBytes x.gal c }
  let d := d.setFlight { x with phv := r.v, acts := a, phase := phase, stage := stage, ext := r.ext, since := d.strokeNo }
  d.issueExt x.id

/-- The fragment-follow step before stage `k`: a fragment whose lookup slot is not admitted goes to the hold, or, with the
hold full, goes on as a miss (R136). The Bool tells that it is held. -/
def Device.fragStep (x : Flight) (c : StageCtx) (bytes : Bytes) (r : StageRun) : StageRun × Bool :=
  let s := x.gal * 5 + 4
  if r.d.canAdmit 0x03 s 1 1 r.d.stroke.cyc x.id then
    (fftStep c x.stage x.iclass bytes { r with d := r.d.spend 0x03 s 1 x.id }, false)
  else
    let d := r.d.mustWait 0x03 s x.id 1
    if (d.pkt.flights.filter fun y => y.gal = x.gal ∧ y.phase = .hold).length < 64 then ({ r with d := d }, true)
    else
      let d := (d.noWait 0x03 s x.id).count (matchCnt x.gal 2)
      if r.v.fragFirst then ({ r with d := d }, false)
      else ({ r with d := d.count (psCnt x.gal 8), v := { r.v with fragMiss := true } }, false)

/-- The result of an extension lookup acts before stage 0's own units (R143). -/
def extStep (x : Flight) (c : StageCtx) (r : StageRun) : StageRun :=
  match x.ext with
  | some e => match e.result with
    | some (true, ix, ad) => applyAction c 0 ix ad x.acts.colour r
    | some (false, _, _) => if e.missEn then applyAction c 0 e.missAct 0 x.acts.colour r else r
    | none => r
  | none => r

/-- Make a pass's next ingress stage, with the fragment-follow step before it at FFT_STAGE (R134 to R136). -/
def Device.stageOne (d : Device) (x : Flight) (f : Frame) : Device :=
  let c := d.stageCtx x f
  let r : StageRun := { d := d, v := x.phv, a := x.acts }
  let r := if x.stage = 0 then extStep x c r else { r with ext := x.ext }
  let make (x : Flight) (r : StageRun) : Device :=
    let r := runStage c x.stage r
    r.d.keepStages x r (if x.stage = 23 then .stages else .staging) (x.stage + 1)
  if usesFft d x.gal x.iclass x.phv ∧ x.stage = d.fftStage x.gal x.iclass ∧ !x.fft then
    match Device.fragStep x c f.bytes r with
    | (r, true) => r.d.keepStages x r .hold x.stage
    | (r, false) => make { x with fft := true } r
  else make x r

/-- The cycle in which a flight's next stage begins: one in every two cycles from that of stage 0 (R133). -/
def Flight.nextAt (x : Flight) : Nat := x.due + 2 * x.stage

/-- The packet in ingress whose next stage begins first, by cycle `now`; the earlier in the list where two share a cycle. The
packets of a fenced gallery stand still (R30). -/
def Device.nextStage (d : Device) (now : Nat) : Option (Flight × Frame) :=
  (d.pkt.flights.filter fun x => x.phase = .staging ∧ x.nextAt ≤ now ∧ !d.isFenced x.gal).foldl (fun m x =>
    match m, d.frame x.id with
    | m, none => m
    | none, some f => some (x, f)
    | some (y, g), some f => if x.nextAt < y.nextAt then some (x, f) else some (y, g)) none

/-- At most `n` stages, in the order in which they begin. -/
def Device.makeStages (now : Nat) : Nat → Device → Device
  | 0, d => d
  | n + 1, d => match d.nextStage now with
    | none => d
    | some (x, f) => Device.makeStages now n (d.stageOne x f)

/-- The stages of packets in ingress that have begun by cycle `now` are made, across all galleries in the order in which they
begin. -/
def Device.catchUp (d : Device) (now : Nat) : Device := Device.makeStages now (24 * d.pkt.flights.length) d

/-- Cycle `c` of the stroke is reached, and with it the stages that have begun by then. -/
def Device.atStage (d : Device) (c : Nat) : Device := let d := d.atCyc c; d.catchUp d.absCyc

/-- FRAGMENT_HOLD_REENTER: the gallery's oldest held fragment re-enters at FFT_STAGE, from the next boundary on, if its
lookup slot is admitted; its stages go on from there (R136). -/
def fragReenter (d : Device) (n : Nat) : Device :=
  match d.pkt.flights.find? fun x => x.gal = n ∧ x.phase = .hold with
  | none => d
  | some x =>
    if d.strokeNo ≤ x.since ∨ d.isFenced n then d
    else if !d.canAdmit 0x03 (n * 5 + 4) 1 1 d.stroke.cyc x.id then d.mustWait 0x03 (n * 5 + 4) x.id 1
    else match d.frame x.id with
      | none => d
      | some f =>
        let x := { x with due := d.absCyc - 2 * x.stage, fft := true }
        let r : StageRun := { d := d.spend 0x03 (n * 5 + 4) 1 x.id, v := x.phv, a := x.acts, ext := x.ext }
        let r := fftStep (d.stageCtx x f) x.stage x.iclass f.bytes r
        r.d.keepStages x r .staging x.stage

/-- A packet is trapped: it waits to be handed to its ring (R341). `x` as its pass ended. -/
def Device.trapFlight (d : Device) (x : Flight) (ring cause : Nat) (act : Option (Nat × Nat)) : Device :=
  match d.frame x.id with
  | none => d
  | some f =>
    let t : TrapPkt :=
      { frame := x.id, ring := ring, cause := cause, phv := x.phv, pass := x.pass, stage := (act.map (·.1)).getD 0xFF,
        actIx := (act.map (·.2)).getD 0, gal := x.gal, stroke := d.strokeNo }
    let d := (d.freeStair x f.inPort).endFlight x.id
    let d := { d with host := { d.host with traps := d.host.traps ++ [t] } }
    (d.modFrame x.id fun f => { f with pass := x.pass, h0 := x.phv.h0 }).flowOfFlight x

/-- TRAP_RING of a class (R124). -/
def Device.trapRing (d : Device) (n iclass : Nat) : Nat := d.fld (A.PARSE_IC_AUX n iclass) F.PARSE_IC_AUX_TRAP_RING

/-- A length fault: whether it is an overrun, what is to be done with it, and the class that says so (R122). -/
structure LenFault where
  overLen : Bool
  act : Nat
  iclass : Nat
deriving DecidableEq, Repr

/-- What a packet's length faults come to: DROP wins over TRAP, and TRAP over FORWARD or PAD (R132). Where an overrun and an
underrun both ask for the same, the overrun's code or cause stands: the spec does not say which (DESIGN CHOICE, log entry 67). -/
def lenVerdict (l : List LenFault) : Option Verdict :=
  if l.any fun q => q.overLen && q.act == 2 then some (.drop 0x20)
  else if l.any fun q => q.act == 2 then some (.drop 0x21)
  else match l.find? fun q => q.overLen && q.act == 1 with
    | some q => some (.trap 3 q.iclass)
    | none => (l.find? fun q => q.act == 1).map fun q => .trap 4 q.iclass

/-- The verdict of a parse: its length faults' action first, then that of truncation (R116, R122, R132). With
both length faults set to one action the overrun's code or cause stands, whichever header came first (DESIGN CHOICE, log entry 67). -/
def parseVerdict (c : ParseCfg) (iclass : Nat) (r : ParseResult) : Option Verdict :=
  let faults := List.replicate r.overruns (LenFault.mk true c.overLen iclass) ++ List.replicate r.underruns (LenFault.mk false c.under iclass)
  match lenVerdict faults with
  | some v => some v
  | none =>
    if r.fin ≠ .truncated then none
    else if c.trunc = 1 then some (.trap 2 iclass)
    else if c.trunc = 2 then some (.drop 0x10)
    else none

/-- Add to a counter. -/
def Device.countMany (d : Device) (a n : Nat) : Device := if n = 0 then d else d.countN a n

/-- The verdict that stands when a second one is decided: a length fault's over truncation's, which applies only if the fault lets
the packet go on (R132), a drop over a trap, else the first (R227). -/
def laterVerdict (old : Option Verdict) (new : Verdict) : Option Verdict :=
  match old, new with
  | some (.drop 0x10), v => some v
  | some (.trap 2 _), v => some v
  | some (.trap _ _), .drop c => some (.drop c)
  | some v, _ => some v
  | none, v => some v

/-- Late length faults act on the packet's forwarded copies, or on its passage through ingress: a packet that waits on the stair
ends at once, any other at the end of its pass (R123, R227). `code` is the fault's. -/
def Device.lateFault (d : Device) (id code : Nat) (v : Verdict) : Device :=
  match d.frame id with
  | none => d
  | some f =>
    match d.flight id with
    | some x =>
      if x.phase ≠ .stair then d.setFlight { x with verdict := laterVerdict x.verdict v }
      else match v with
        | .drop code => d.dropFlight id code none
        | .trap cause iclass => (d.ingressMirrors x x.phv true 0).1.trapFlight x (d.trapRing x.gal iclass) cause none
    | none =>
      let cs := (d.copiesOf id).filter fun c => c.kind ≠ .mirror
      let begun := cs.any fun c => c.phase == .sending
      if cs.isEmpty then d
      else
        let d := if begun then d.count (psCnt f.gal 4) else d
        let phv := (cs.head?.map (·.phv)).getD {}
        let d : Device := match begun, v with
          | false, .trap cause iclass => { d with host := { d.host with traps := d.host.traps ++
              [{ frame := id, ring := d.trapRing f.gal iclass, cause := cause, phv := phv, pass := f.pass, gal := f.gal,
                 stroke := d.strokeNo }] } }
          | _, _ => d
        d.dropCopies id code f.gal fun c => c.kind ≠ .mirror

/-- A packet still in ingress takes the flag LEN_UNDERRUN (R122). -/
def Device.flagUnder (d : Device) (id : Nat) : Device :=
  match d.flight id with
  | some x => d.setFlight { x with phv := { x.phv with lenUnder := true } }
  | none => d

/-- The fault of a length check that was deferred, now that the frame has ended (R121, R123). -/
def LenCheck.fault (k : LenCheck) (f : Frame) : Option LenFault :=
  let fin : Int := Int.ofNat f.bytes.length - (f.delta - k.delta) - 4
  let fin := match k.bound with
    | some b => min (Int.ofNat b) fin
    | none => fin
  if Int.ofNat k.stated > fin then some ⟨true, k.overLen, k.iclass⟩
  else if Int.ofNat k.stated < fin then some ⟨false, k.under, k.iclass⟩
  else none

/-- The length checks deferred on every pass are completed: every fault counts, and together they have one outcome (R122, R123,
R132). -/
def Device.lateChecks (d : Device) (id : Nat) (checks : List LenCheck) : Device :=
  match d.frame id with
  | none => d
  | some f =>
    let faults := checks.filterMap fun k => k.fault f
    let overs := (faults.filter fun q => q.overLen).length
    let unders := (faults.filter fun q => !q.overLen).length
    let d := (d.countMany (psCnt f.gal 2) overs).countMany (psCnt f.gal 3) unders
    let d := if unders = 0 then d else d.flagUnder id
    match lenVerdict faults with
    | none => d
    | some (.drop code) => d.lateFault id code (.drop code)
    | some (.trap cause iclass) => d.lateFault id (if cause = 3 then 0x20 else 0x21) (.trap cause iclass)

/-- The port runs the peer-delay exchange (R106). -/
def Device.exchOn (d : Device) (p : Nat) : Bool := d.flag (ofPort A.PORT_PT_DELAY_CFG p) F.PORT_PT_DELAY_CFG_EXCH_EN

/-- A peer-delay message: Pdelay_Req, Pdelay_Resp or Pdelay_Resp_Follow_Up, with its PTP header at `o`. -/
def isPdelay (bs : Bytes) (o : Nat) : Bool := [2, 3, 10].contains (byteAt bs o % 16)

/-- A parse that finds a peer-delay message in a frame received on a port that answers them: it is never forwarded (R261). -/
def Device.keepPdelay (d : Device) (id : Nat) : Device :=
  match d.frame id with
  | none => d
  | some f =>
    match f.ptpOfs with
    | none => d
    | some o =>
      if f.rx && f.origin == 0 && d.exchOn f.inPort && isPdelay f.bytes o then
        ((d.endFlight id).setFrame { f with consumed := true }).releaseFrame id
      else d

/-- The deferred length checks of a frame whose end has come are completed, all together (R123, R132, R144). -/
def Device.completeChecks (d : Device) (id : Nat) : Device :=
  match d.frame id with
  | none => d
  | some f =>
    if !f.ended ∨ f.deferred.isEmpty then d else (d.setFrame { f with deferred := [] }).lateChecks id f.deferred

/-- The parse of a flight (R111 to R123). One that waits for a byte leaves all as it is, and so does one whose frame's SecTAG is
still looked for: its window begins with DA, SA and the original EtherType (R242). A parse
that drops or traps the packet skips the stages, and its verdict acts at the next INGRESS_PASS_END, 14 cycles after c+0,
behind a MAC check that has failed by then (R111, R227; DEDUCED). A parse error is alone: no other fault counts (R132). -/
def Device.parseStep (d : Device) (id : Nat) : Device :=
  match d.flight id, d.frame id with
  | some x, some f =>
    if f.secOpen then d
    else
    let r := parsePass d x.gal x.pbank x.iclass x.start x.pcfg (decide (0 < x.pass)) x.phv.c f.bytes f.ended x.vis
    let x := { x with phv := r.phv }
    match r.fin with
    | .waiting => d
    | .failed =>
      ((d.setFrame { f with deferred := [] }).setFlight
        { x with phase := .stages, stage := 0, verdict := laterVerdict x.verdict (.drop 0x11) }).count (psCnt x.gal 1)
    | fin =>
      let d := if fin = .truncated then d.count (psCnt x.gal 0) else d
      let d := if r.fragOuter then d.count (psCnt x.gal 5) else d
      let d := (d.countMany (psCnt x.gal 2) r.overruns).countMany (psCnt x.gal 3) r.underruns
      let x := { x with phv := { x.phv with parseTrunc := fin == .truncated, lenUnder := decide (0 < r.underruns) } }
      let checks := r.deferred.map fun k => { k with delta := f.delta }
      let ptp := (x.phv.hdrs.find? fun h => h.id = d.fld A.TIME_PTP_CFG F.TIME_PTP_CFG_HDR_ID).map (·.ofs)
      let d := ((d.setFlight x).nameH0 x.gal id x.phv.h0).modFrame id fun f =>
        { f with
          h0 := x.phv.h0
          stated := if x.pass = 0 then r.outer else f.stated
          ptpOfs := if x.pass = 0 then ptp else f.ptpOfs
          deferred := f.deferred ++ checks }
      let d := if x.pass = 0 then d.keepPdelay id else d
      match parseVerdict x.pcfg x.iclass { r with fin := fin } with
      | some v => d.setFlight { x with phase := .stages, stage := 0, verdict := laterVerdict x.verdict v }
      | none =>
        let due := if d.absCyc ≤ x.acc + 10 then x.acc + 24 else d.absCyc + 14
        d.setFlight { x with phase := .staging, stage := 0, fft := false, due := due }
  | _, _ => d

/-- The parse of a flight, and the length checks that wait for nothing more (R123, R144). -/
def Device.runParse (d : Device) (id : Nat) : Device := (d.parseStep id).completeChecks id

/-- A budget is spent: every packet in ingress that asks for it waits (R38, R40). -/
def Device.allWait (d : Device) (act inst : Nat) (asks : Flight → Bool) : Device :=
  (d.pkt.flights.filter asks).foldl (fun d x => d.mustWait act inst x.id 1) d

/-- HEADER_ACCEPT: the next ready header of a gallery takes a position of the cycle and a packet slot, is stamped, and
its pass begins (R19, R48). -/
def headerAccept (d : Device) (n c : Nat) : Device :=
  let d := d.atStage c
  if !d.running ∨ d.isFenced n ∨ 4 ≤ d.taken n then d
  else match d.nextHeader n with
    | none => d
    | some x =>
      if !d.canAdmit 0x01 n 1 1 c x.id then
        d.allWait 0x01 n fun x => x.gal = n ∧ x.phase = .ready ∧ x.ready ≤ d.absCyc
      else match d.frame x.id with
        | none => d
        | some f =>
          let stamp := d.gen.active
          let d := (d.spend 0x01 n 1 x.id).takePosition n
          let ev : EvPkt := { d.evOf f 0 false with iclass := x.iclass, stamp := stamp, parsing := x.id + 1 }
          let d := (d.event (some n) 0x1001 1 (some f.inPort) ev).skidHeader n c ev
          let x := { x with
            phase := .parsing
            acc := d.absCyc
            stamp := stamp
            pbank := d.fld A.TOP_PARSE_BANK F.TOP_PARSE_BANK_ACTIVE
            prof := d.profile.active
            vis := profWindow d.profile.active
            pcfg := d.parseCfg n x.iclass
            start := d.fld (A.PARSE_IC_CFG n x.iclass) F.PARSE_IC_CFG_START }
          let d := (d.toBack x).modFrame x.id fun f => { f with stamp := stamp, iclass := x.iclass }
          d.runParse x.id

/-- EXT_LOOKUP_RETURN: the gallery's oldest request that was issued brings its result (R143, R164). -/
def extReturn (d : Device) (n : Nat) : Device :=
  let issued (x : Flight) : Bool := (x.ext.map fun e => e.issued && e.result.isNone).getD false
  match d.pkt.flights.find? fun x => x.gal = n ∧ issued x with
  | none => d
  | some x =>
    match x.ext with
    | none => d
    | some e =>
      let (hit, d) := d.extLookup (slotOf x.stamp) ⟨e.ktype, e.wide, e.key⟩
      let d := if hit.isSome then d.count (A.STAIR_STAIR_CNT n 5) else d
      let res := match hit with
        | some v => (true, emActIdx v, emAdata v)
        | none => (false, 0, 0)
      d.setFlight { x with ext := some { e with result := some res } }

-- The stair (R144 to R146) -----------------------------------------------------------------------------------------

/-- Entries of a gallery's stair queue (R144). -/
def Device.stairDepth (d : Device) (n : Nat) : Nat := (d.pkt.flights.filter fun x => x.gal = n ∧ x.phase = .stair).length

/-- PASS_LIMIT and WAIT_MAX in force (R150). -/
def Device.passLimit (d : Device) (n : Nat) : Nat := min 4 (max 1 (d.fld (A.STAIR_CTRL n) F.STAIR_CTRL_PASS_LIMIT))
def Device.waitMax (d : Device) (n : Nat) : Nat := max 1 (d.fld (A.STAIR_CTRL n) F.STAIR_CTRL_WAIT_MAX)

/-- Charge one more cell of a packet on the stair: the ingress minimum, then shared under its threshold with α = 1
(R181). -/
def Device.stairCell (d : Device) (x : Flight) (p : Nat) : Option (Device × Flight) :=
  if tnat d.hall.inMin p < d.iMinEff p ∧ 0 < d.minLeft then
    some (d.addCharge 0 (.iMin p) 1, { x with stairMin := x.stairMin + 1 })
  else if tnat d.hall.inShared p + 1 ≤ d.threshold 7 ∧ 1 ≤ d.hall.free then
    some ({ (d.addCharge 0 (.iShared p) 1) with hall := { (d.addCharge 0 (.iShared p) 1).hall with free := d.hall.free - 1 } },
      { x with stairShared := x.stairShared + 1 })
  else none

/-- Charge `n` more cells; a cell that cannot be charged drops the packet with HALL_SHARED_FULL (R181). -/
def Device.stairCells (d : Device) (x : Flight) (p : Nat) : Nat → Device
  | 0 => d.setFlight x
  | n + 1 =>
    match d.stairCell x p with
    | some (d, x) => d.stairCells x p n
    | none =>
      ((d.setFlight x).count (hallCnt 0)).dropFlight x.id 0x50 none

/-- A packet is on the stair: it waits there, or makes a stair pass (R146). -/
def Flight.onStair (x : Flight) : Bool := x.phase == .stair || decide (0 < x.pass)

/-- The frame bytes beyond the parse window are written under the cell-write budget, and charged, as they arrive (R146, R177). -/
def Device.stairGrow (d : Device) (id : Nat) : Device :=
  match d.flight id, d.frame id with
  | some x, some f =>
    let n := cellsOf (f.bytes.length - x.vis) - (x.stairMin + x.stairShared)
    if !x.onStair ∨ n = 0 ∨ d.isFenced x.gal then d
    else
      let d := d.stairCells x f.inPort n
      if (d.flight id).isNone then d
      else ((d.allocCells id x.gal n).spend 0x04 x.gal n id).event (some x.gal) 0x3003 n none (d.evOf f x.pass false)
  | _, _ => d

/-- Count a drop of the stair (R145). -/
def Device.stairDrop (d : Device) (x : Flight) (code : Nat) : Device :=
  (d.count (A.STAIR_STAIR_CNT x.gal (if code = 0x80 then 2 else 3))).dropFlight x.id code none

/-- A packet takes the stair: its window is rebuilt and it joins the queue (R144, R145). -/
def Device.stairJoin (d : Device) (id : Nat) : Device :=
  match d.flight id, d.frame id with
  | some x, some f =>
    if x.pass ≥ d.passLimit x.gal then d.stairDrop x 0x80
    else if d.stairDepth x.gal ≥ 256 then d.stairDrop x 0x81
    else
      let r := rebuild d x.gal x.phv f.bytes x.acts.encap x.acts.decap false false f.bodyLen
      let recirc := (x.acts.other.map fun o => o.1 == 4).getD false
      let arg := (x.acts.other.map (·.2.1)).getD 0
      let iclass := if recirc ∧ bit arg 10 then bitsOf arg 6 4 else x.iclass
      let start := if recirc then bitsOf arg 0 6 else d.fld (A.PARSE_IC_CFG x.gal iclass) F.PARSE_IC_CFG_START
      let bytes := r.apply x.phv f.bytes
      let vis := min (profWindow x.prof) (r.hdr.length + (x.vis - x.phv.payload))
      let x := { x with
        phase := .stair, iclass := iclass, start := start, startOfClass := !recirc, vis := vis, phv := r.phv, waited := 0, since := d.absCyc
        acts := { x.acts with
          drop := none, trap := none, other := none, encap := none, decap := none
          usedEm := 0, usedLpm := 0, usedTern := 0, usedInd := 0, usedExt := 0 } }
      let d := (d.toBack x).modFrame id fun f =>
        { f with
          bytes := bytes, delta := f.delta + (Int.ofNat r.hdr.length - Int.ofNat r.skip)
          originAt := f.originAt.bind (r.at_ x.phv) }
      let n := d.stairDepth x.gal
      let d := { d with pkt := { d.pkt with
        stairPeak := tnatSet d.pkt.stairPeak x.gal (max n (tnat d.pkt.stairPeak x.gal)) } }
      d.stairGrow id
  | _, _ => d

/-- A stair entry may be granted in this cycle: it joined in an earlier one, and its lookup's result is there. -/
def Flight.grantable (x : Flight) (cyc : Nat) : Bool :=
  x.phase == .stair && decide (x.since < cyc) && (x.ext.map fun e => e.result.isSome).getD true

/-- It is, and its wait limit has not passed: from the boundary at which that timer matures it leaves the queue instead (R42, R145). -/
def Device.mayGrant (d : Device) (n : Nat) (x : Flight) : Bool :=
  x.gal == n && x.grantable d.absCyc && decide (x.waited ≤ d.waitMax n)

/-- STAIR_GRANT: the oldest entry that may go takes a position that first-pass headers leave free, a packet slot and a
stair slot, and starts its next pass (R144). -/
def stairGrant (d : Device) (n c : Nat) : Device :=
  let d := d.atStage c
  let firsts := (d.pkt.flights.filter fun x => x.gal = n ∧ x.phase = .ready ∧ x.ready ≤ d.absCyc).length
  if !d.running ∨ d.isFenced n ∨ 4 ≤ d.taken n + firsts then d
  else match d.pkt.flights.find? (d.mayGrant n) with
    | none => d
    | some x =>
      if !d.canAdmit 0x01 n 1 1 c x.id then d.allWait 0x01 n (d.mayGrant n)
      else if !d.canAdmit 0x02 n 1 1 c x.id then d.allWait 0x02 n (d.mayGrant n)
      else match d.frame x.id with
        | none => d
        | some f =>
          let d := ((d.spend 0x01 n 1 x.id).spend 0x02 n 1 x.id).takePosition n
          let ev : EvPkt := { d.evOf f (x.pass + 1) false with iclass := x.iclass, parsing := x.id + 1 }
          let d := ((d.event (some n) 0x1001 1 (some f.inPort) ev).event (some n) 0x1002 1 (some f.inPort) ev).skidHeader n c ev
          let d := d.count (A.STAIR_STAIR_CNT n 0)
          let x := { x with
            phase := .parsing, acc := d.absCyc, pass := x.pass + 1, pcfg := d.parseCfg n x.iclass
            start := if x.startOfClass then d.fld (A.PARSE_IC_CFG n x.iclass) F.PARSE_IC_CFG_START else x.start }
          let d := (d.toBack x).modFrame x.id fun f => { f with iclass := x.iclass, pass := x.pass }
          (d.runParse x.id).stairGrow x.id

/-- One boundary more for the entries of the stair queues (R145, R150): those that wait their first are counted. -/
def Device.stairBoundary (d : Device) : Device :=
  let first := d.pkt.flights.filter fun x => x.phase = .stair ∧ x.waited = 0
  let d := first.foldl (fun d x => d.count (A.STAIR_STAIR_CNT x.gal 1)) d
  { d with pkt := { d.pkt with flights := d.pkt.flights.map fun x =>
      if x.phase = .stair then { x with waited := x.waited + 1 } else x } }

/-- STAIR_WAIT_EXPIRE: an entry that has waited WAIT_MAX boundaries leaves the queue at the next one (R145). -/
def stairExpire (d : Device) (n : Nat) : Device :=
  match d.pkt.flights.find? fun x => x.gal = n ∧ x.phase = .stair ∧ x.waited > d.waitMax n with
  | none => d
  | some x =>
    if d.isFenced n then d
    else (d.count (A.STAIR_STAIR_CNT n 6)).stairDrop x 0x81

end Sys2Proof.Machine
end

