-- ==== Sys2Proof/Machine/Integ.lean ====
section
/-! DEFINITION. The integrity engines: key slots and their commit points (R246, R250), secure associations (R243 to R245,
R251), the SecTAG (R242, R244) and PTP authentication (R248). -/

namespace Sys2Proof.Machine

/-- Address of INTEG counter `x` of gallery `n` (R252). -/
def integCnt (n x : Nat) : Nat := A.INTEG_INTEG_CNT n x
/-- A register of secure association `sa` or secure channel `sc`, behind its selector (R251). -/
def saReg (a : Nat → Nat) (n sa : Nat) : Nat := banked (a n) sa

def Device.saSt (d : Device) (n sa : Nat) : SaSt := tabGet (fun _ => {}) d.integ.sas (8192 * n + sa)
def Device.setSa (d : Device) (n sa : Nat) (v : SaSt) : Device :=
  { d with integ := { d.integ with sas := tabSet (fun _ => {}) d.integ.sas (8192 * n + sa) v } }

/-- Key of slot `k` of gallery `n`, and of the device slots D0 and D1 (R249). -/
def slotKey (n k : Nat) : Nat := 8192 * n + k
def devSlot (k : Nat) : Nat := 262144 + k

def Device.keySlot (d : Device) (k : Nat) : KeySlot := tabGet (fun _ => {}) d.integ.slots k
def Device.setKeySlot (d : Device) (k : Nat) (v : KeySlot) : Device :=
  { d with integ := { d.integ with slots := tabSet (fun _ => {}) d.integ.slots k v } }

/-- What a slot held for a frame that started in absolute cycle `t`: one that started at or before a commit point keeps
the old key (R246). `past` runs from the newest commit point back. -/
def keyFor (t : Nat) : Option KeyMat → List (Nat × Option KeyMat) → Option KeyMat
  | cur, [] => cur
  | cur, (c, old) :: rest => if t ≤ c then keyFor t old rest else cur

def Device.keyAt (d : Device) (k t : Nat) : Option KeyMat := keyFor t (d.keySlot k).mat (d.keySlot k).past

/-- What a register held when `n` writes had been made, from what it holds now and what the writes since replaced. -/
def integFor (n k : Nat) : Word → List (Nat × Nat × Word) → Word
  | cur, [] => cur
  | cur, (w, k', old) :: rest => if k' = k ∧ n ≤ w then integFor n k old rest else integFor n k cur rest

/-- An INTEG register as a frame sees it that started after `n` writes (R251). -/
def Device.integAt (d : Device) (n k : Nat) : Word := integFor n k (d.reg k) d.integ.past

/-- Some frame may still need what an INTEG register or a key slot held when it started. -/
def Device.integNeeds (d : Device) : Bool := (d.pkt.frames.any fun e => e.2.rx && !e.2.checked) || !d.pkt.sending.isEmpty

/-- An INTEG register is about to be written. -/
def Device.integKeep (d : Device) (k : Nat) : Device :=
  { d with integ := { d.integ with
    writes := d.integ.writes + 1
    past := if d.integNeeds then (d.integ.writes, k, d.reg k) :: d.integ.past else [] } }

/-- The largest packet number (R243). -/
def maxPn (xpn : Bool) : Nat := if xpn then 2 ^ 64 - 1 else 2 ^ 32 - 1

/-- The IV of a MACsec frame (R242). -/
def macsecIv (xpn : Bool) (sci ssci salt pn : Nat) : Nat :=
  if xpn then (ssci * 2 ^ 64 + pn) ^^^ salt else sci * 2 ^ 32 + pn % 2 ^ 32

-- Transmit ---------------------------------------------------------------------------------------------------------

def Device.integCfg (d : Device) (p : Nat) : Word := d.reg (A.INTEG_P_CFG (p / 32) (p % 32))

/-- Bytes that MACsec adds to a frame transmitted on a port (R244). -/
def Device.macsecAdds (d : Device) (p : Nat) : Nat :=
  let w := d.integCfg p
  if F.INTEG_P_CFG_TX_EN.get w = 0 then 0 else if F.INTEG_P_CFG_TX_SC.get w = 1 then 32 else 24

/-- Bytes that MACsec adds to a copy: those of what it latched, once it has begun (R244). -/
def Device.secAdds (d : Device) (c : Copy) : Nat :=
  if c.phase = .sending then (c.mac.map fun m => if m.sc then 32 else 24).getD 0 else d.macsecAdds (c.queue / 16)

/-- What a frame gets from its secure association in the cycle of its first byte. -/
inductive TxSa where
  | off
  /-- dropped before its first byte, with this code -/
  | lost (code : Nat)
  | took (m : TxMac)
deriving DecidableEq, Repr

/-- SA_STAT.THRESH is set, where SA_SEL shows the association (R10). -/
def Device.markSaThresh (d : Device) (n sa : Nat) : Device :=
  if F.INTEG_SA_SEL_SA.get (d.reg (A.INTEG_SA_SEL n)) = sa then d.markSet (A.INTEG_SA_STAT n) 0 else d

/-- SA_PN_LATCH and SA_EXHAUST: the frame latches its association's next PN and key slot (R244, R245). -/
def Device.txLatch (d : Device) (p : Nat) : Device × TxSa :=
  let n := p / 32
  let w := d.integCfg p
  if F.INTEG_P_CFG_TX_EN.get w = 0 then (d, .off)
  else
    let sa := (F.INTEG_P_CFG_TX_SA_BASE.get w * 4 + F.INTEG_P_CFG_TX_AN.get w) % 8192
    let cfg := d.reg (saReg A.INTEG_SA_CFG n sa)
    let st := d.saSt n sa
    let key := d.keyAt (slotKey n (F.INTEG_SA_CFG_KEY_SLOT.get cfg)) d.absCyc
    match key with
    | none => (d, .lost 0x73)
    | some k =>
      if F.INTEG_SA_CFG_VALID.get cfg = 0 ∨ F.INTEG_SA_CFG_DIR.get cfg = 0 then (d, .lost 0x73)
      else if st.exhausted then (d.count (integCnt n 8), .lost 0x72)
      else
        let xpn := F.INTEG_SA_CFG_XPN.get cfg = 1
        let pn := st.pn
        let lim := if xpn then d.pair (A.INTEG_PN_THRESH_LO n) (A.INTEG_PN_THRESH_HI n)
          else (d.cfg (A.INTEG_PN_THRESH_LO n)).toNat
        let atThresh := decide (lim ≤ pn) && !st.reached
        let atMax := pn == maxPn xpn
        let st := { st with
          pn := if atMax then pn else pn + 1
          thresh := st.thresh || atThresh
          reached := st.reached || atThresh
          exhausted := st.exhausted || atMax }
        let d := d.setSa n sa st
        let d := if atThresh then (d.markSaThresh n sa).raise (galBase n 9) 0 else d
        let d := if atMax then d.raise (galBase n 9) 1 else d
        let sci := d.pair (A.INTEG_TX_SCI_LO n (p % 32)) (A.INTEG_TX_SCI_HI n (p % 32))
        let m : TxMac :=
          { key := k.key, iv := macsecIv xpn sci (d.reg (saReg A.INTEG_SA_SSCI n sa)).toNat k.salt pn
            es := F.INTEG_P_CFG_TX_ES.get w == 1, sc := F.INTEG_P_CFG_TX_SC.get w == 1, an := sa % 4, pn := pn, sci := sci }
        (d.count (integCnt n 7), .took m)

/-- The SecTAG of a transmitted frame whose user data is `user` bytes (R244): E = 0, C = 0. -/
def secTag (es sc : Bool) (an pn sci user : Nat) : Bytes :=
  beBytes 2 0x88E5 ++ beBytes 1 (b2n es * 64 + b2n sc * 32 + an) ++ beBytes 1 (if user < 48 then user else 0) ++
    beBytes 4 pn ++ (if sc then beBytes 8 sci else [])

/-- A frame, without its FCS, as MACsec protects it: SecTAG after DA and SA, ICV at the end (R244). -/
def TxMac.protect (m : TxMac) (bs : Bytes) : Bytes :=
  let body := bs.take 12 ++ secTag m.es m.sc m.an m.pn m.sci (bs.length - 12) ++ bs.drop 12
  body ++ gmac m.key m.iv body

-- Receive ----------------------------------------------------------------------------------------------------------

/-- The PN of a received frame in full (R243). -/
def recoverPn (xpn : Bool) (low carried : Nat) : Nat :=
  if !xpn then carried
  else
    let hi := low / 2 ^ 32
    (if low % 2 ^ 32 ≤ carried then hi else hi + 1) * 2 ^ 32 + carried

/-- The earliest PN write that a frame which started after `s` INTEG writes does not see. -/
def SaSt.unseen (st : SaSt) (s : Nat) : Option (Nat × Nat × Bool) := (st.past.filter fun e => s ≤ e.1).getLast?

/-- NEXT_PN and EXHAUSTED of an association as such a frame sees them: writes apply to frames that start after them (R251). -/
def SaSt.seen (st : SaSt) (s : Nat) : Nat × Bool := ((st.unseen s).map (·.2)).getD (st.pn, st.exhausted)

/-- They become `v` for it; what a write has replaced since is another matter (R251; DEDUCED, log entry 69). -/
def SaSt.put (st : SaSt) (s : Nat) (v : Nat × Bool) : SaSt :=
  match st.unseen s with
  | some e => { st with past := st.past.map fun x => if x.1 = e.1 then (x.1, v) else x }
  | none => { st with pn := v.1, exhausted := v.2 }

/-- The lowest acceptable PN of a receive association, for a frame that started after `s` INTEG writes (R243). -/
def Device.lowestPn (d : Device) (s n sa : Nat) (xpn : Bool) : Nat :=
  let w := F.INTEG_SA_WINDOW_WINDOW.get (d.integAt s (saReg A.INTEG_SA_WINDOW n sa))
  max (((d.saSt n sa).seen s).1 - (if xpn then min w (2 ^ 30) else w)) 1

/-- The valid receive channels of a port, with their SCIs, for a frame that started after `s` INTEG writes. -/
def Device.rxChannels (d : Device) (s p : Nat) : List (Nat × Nat × Word) :=
  let n := p / 32
  let mine := fun (k : Nat) => if k % 0x10000000 = A.INTEG_RSC_CFG n then some (k / 0x10000000 - 1) else none
  (dedup (d.file.regs.filterMap (fun e => mine e.1) ++ d.integ.past.filterMap fun e => mine e.2.1)).filterMap fun sc =>
    let w := d.integAt s (saReg A.INTEG_RSC_CFG n sc)
    if F.INTEG_RSC_CFG_VALID.get w = 1 ∧ F.INTEG_RSC_CFG_PORT.get w = p % 32 then
      some (sc, (d.integAt s (saReg A.INTEG_RSC_SCI_HI n sc)).toNat * 2 ^ 32 +
        (d.integAt s (saReg A.INTEG_RSC_SCI_LO n sc)).toNat, w)
    else none

/-- The lowest-numbered of some receive channels. -/
def lowestChannel (l : List (Nat × Nat × Word)) : Option (Nat × Nat × Word) :=
  l.foldl (fun m c => match m with
    | some x => if c.1 < x.1 then some c else some x
    | none => some c) none

/-- Bytes that the lookup of R242 reads: DA, SA and the longest SecTAG. -/
def secLookupBytes : Nat := 28

/-- MACSEC_RX_LOOKUP (R242, R243) for a frame that started in absolute cycle `t`, after `s` INTEG writes: what its check will
need, or the drop decided. None where the port is not secured on receive. An exhausted association accepts no frame, whatever
its PN (R243; DEDUCED, log entry 69). -/
def Device.rxLookup (d : Device) (p : Nat) (bs : Bytes) (t s : Nat) : Option RxCheck :=
  let n := p / 32
  let mode := F.INTEG_P_CFG_RX_MODE.get (d.integAt s (A.INTEG_P_CFG n (p % 32)))
  let strict := decide (2 ≤ mode)
  if mode = 0 then none
  else
    let base : RxCheck := { tag := 0, strict := strict }
    let lose (code : Nat) (counts : List Nat) : RxCheck := { base with verdict := some code, counts := counts }
    if beAt bs 12 2 ≠ 0x88E5 then some (if strict then lose 0x73 [4] else { base with counts := [4] })
    else
      let tci := byteAt bs 14
      let hasSc := bit tci 5
      let tagLen := if hasSc then 16 else 8
      if bit tci 3 ∨ bit tci 2 then some (lose 0x73 [5])
      else
        let chans := d.rxChannels s p
        let sci : Option Nat :=
          if hasSc then some (beAt bs 20 8)
          else if bit tci 6 then some (beAt bs 6 6 * 65536 + 1)
          else if chans.length = 1 then chans.head?.map (·.2.1) else none
        match sci with
        | none => some (lose 0x73 [])
        | some sci =>
          let same := chans.filter fun c => c.2.1 = sci
          match lowestChannel same with
          | none => some (lose 0x73 [3])
          | some c =>
            let dup := if same.length ≤ 1 then [] else [6]
            let sa := (F.INTEG_RSC_CFG_SA_BASE.get c.2.2 * 4 + tci % 4) % 8192
            let cfg := d.integAt s (saReg A.INTEG_SA_CFG n sa)
            let key := d.keyAt (slotKey n (F.INTEG_SA_CFG_KEY_SLOT.get cfg)) t
            match key with
            | none => some (lose 0x73 dup)
            | some k =>
              if F.INTEG_SA_CFG_VALID.get cfg = 0 ∨ F.INTEG_SA_CFG_DIR.get cfg = 1 then some (lose 0x73 dup)
              else
                let xpn := F.INTEG_SA_CFG_XPN.get cfg = 1
                let low := d.lowestPn s n sa xpn
                let pn := recoverPn xpn low (beAt bs 16 4)
                let ck : RxCheck := { base with
                  tag := tagLen
                  sa := sa
                  seq := s
                  pn := pn
                  iv := macsecIv xpn sci (d.integAt s (saReg A.INTEG_SA_SSCI n sa)).toNat k.salt pn
                  xpn := xpn
                  key := some k
                  counts := dup }
                if ((d.saSt n sa).seen s).2 then some { ck with verdict := some 0x72 }
                else if F.INTEG_SA_CFG_REPLAY_EN.get cfg = 1 ∧ pn < low then
                  some { ck with verdict := some 0x71, counts := dup ++ [2] }
                else some ck

/-- Does the ICV of a received MACsec frame verify? `raw` is the whole frame, DA to FCS (R242). -/
def RxCheck.verifies (k : RxCheck) (raw : Bytes) : Bool :=
  match k.key with
  | none => true
  | some m =>
    let body := raw.take (raw.length - 20)
    decide (20 + 12 + k.tag ≤ raw.length) && gmac m.key k.iv body == sliceBytes raw (raw.length - 20) 16

/-- A receive association after a frame that verified (R242, R243): a NEXT_PN beyond the maximum sets EXHAUSTED. -/
def Device.rxAdvance (d : Device) (n : Nat) (k : RxCheck) : Device :=
  let st := d.saSt n k.sa
  let v := st.seen k.seq
  let d := d.setSa n k.sa (st.put k.seq (max v.1 (k.pn + 1), v.2 || decide (maxPn k.xpn < k.pn + 1)))
  if maxPn k.xpn < k.pn + 1 then d.raise (galBase n 9) 1 else d

-- PTP authentication (R248) ----------------------------------------------------------------------------------------

/-- The fixed length of a PTP message before its TLVs, by messageType (IEEE 1588-2019; PRESUMED). -/
def ptpBody (msgType : Nat) : Nat :=
  match msgType with
  | 0 | 1 | 8 | 12 => 44
  | 2 | 3 | 9 | 10 => 54
  | 11 => 64
  | 13 => 48
  | _ => 34

/-- The TLVs of a message: the first AUTHENTICATION TLV (type 0x8009) at offset `o`, before `stop`. -/
def findAuth : Nat → Bytes → Nat → Nat → Option Nat
  | 0, _, _, _ => none
  | f + 1, bs, o, stop =>
    if o + 4 > stop then none
    else if beAt bs o 2 = 0x8009 then some o
    else findAuth f bs (o + 4 + beAt bs (o + 2) 2) stop

/-- A message's AUTHENTICATION TLV: SPP, key ID and the offset of its ICV. `ofs` is where the PTP header begins. -/
def authTlv (bs : Bytes) (ofs : Nat) : Option (Nat × Nat × Nat) :=
  let stop := ofs + beAt bs (ofs + 2) 2
  match findAuth 64 bs (ofs + ptpBody (byteAt bs ofs % 16)) stop with
  | none => none
  | some o =>
    let fin := o + 4 + beAt bs (o + 2) 2
    if fin ≤ stop ∧ o + 26 ≤ fin then some (byteAt bs (o + 4), beAt bs (o + 6) 4, fin - 16) else none

/-- The key slot of the valid entry that matches an SPP and key ID, lowest entry first, for a frame that started after `s` INTEG
writes (R248). -/
def Device.ptpEntry (d : Device) (s n spp keyId : Nat) : Option Nat :=
  ((List.range 16).find? fun e =>
    let w := d.integAt s (A.INTEG_PTP_SPP n e)
    F.INTEG_PTP_SPP_VALID.get w = 1 && F.INTEG_PTP_SPP_SPP.get w == spp &&
      (d.integAt s (A.INTEG_PTP_KEYID n e)).toNat == keyId).map
    fun e => F.INTEG_PTP_SPP_KEY_SLOT.get (d.integAt s (A.INTEG_PTP_SPP n e))

/-- The ICV of a message: over it from its header up to the ICV; the IV is sourcePortIdentity and sequenceId. -/
def ptpIcv (key : Bytes) (bs : Bytes) (ofs icv : Nat) : Bytes :=
  gmac key (beAt bs (ofs + 20) 12) (sliceBytes bs ofs (icv - ofs))

/-- PTP authentication is on at a port, for a frame that started after `s` INTEG writes. -/
def Device.ptpAuth (d : Device) (s p : Nat) : Bool := F.INTEG_P_CFG_PTP_AUTH.get (d.integAt s (A.INTEG_P_CFG (p / 32) (p % 32))) == 1

/-- The check of a received message (R248): none where it is not made; the counters it makes. -/
def Device.ptpCheck (d : Device) (p : Nat) (bs : Bytes) (ofs t s : Nat) : Device × Option Bool :=
  let n := p / 32
  match authTlv bs ofs with
  | none => (d, none)
  | some (spp, keyId, icv) =>
    match d.ptpEntry s n spp keyId with
    | none => (d.count (integCnt n 10), none)
    | some slot =>
      match d.keyAt (slotKey n slot) t with
      | none => (d.count (integCnt n 9), some false)
      | some m =>
        if ptpIcv m.key bs ofs icv == sliceBytes bs icv 16 then (d, some true) else (d.count (integCnt n 9), some false)

-- The key window (R250) --------------------------------------------------------------------------------------------

/-- The slots a KEY_SEL value reaches. -/
def Device.selectedSlots (d : Device) (w : Word) : List Nat :=
  let k := F.KEYS_KEY_SEL_SLOT.get w
  if F.KEYS_KEY_SEL_DEVICE.get w = 1 then [devSlot (k % 2)]
  else if F.KEYS_KEY_SEL_BCAST.get w = 1 then
    ((List.range 32).filter fun n => !d.isFenced n).map fun n => slotKey n k
  else [slotKey (F.KEYS_KEY_SEL_GALLERY.get w) k]

/-- The key and salt written to KEY_DATA and KEY_SALT. -/
def Device.keyData (d : Device) (aes256 : Bool) : KeyMat :=
  { key := (List.range (if aes256 then 8 else 4)).flatMap fun i => beBytes 4 (d.reg (A.KEYS_KEY_DATA i)).toNat
    salt := (List.range 3).foldl (fun a i => a * 2 ^ 32 + (d.reg (A.KEYS_KEY_SALT i)).toNat) 0 }

/-- KEY_DATA and KEY_SALT are cleared after a commit or erase. -/
def Device.clearKeyData (d : Device) : Device :=
  let d := (List.range 8).foldl (fun d i => d.setReg (A.KEYS_KEY_DATA i) 0) d
  (List.range 3).foldl (fun d i => d.setReg (A.KEYS_KEY_SALT i) 0) d

/-- A write of KEY_CMD (R250): COMMIT or ERASE begins, unless one is in progress or the slot lies in a fenced gallery.
Both bits together begin an erase. -/
def keyCmdWrite (d : Device) (src : Source) (w : Word) : Device :=
  let act := F.KEYS_KEY_CMD_COMMIT.get w = 1 ∨ F.KEYS_KEY_CMD_ERASE.get w = 1
  let aes256 := F.KEYS_KEY_CMD_CIPHER.get w = 1
  if act ∧ d.integ.job.isSome then d.refuse src A.KEYS_KEY_CMD
  else
    let d := d.setFld A.KEYS_KEY_CMD F.KEYS_KEY_CMD_CIPHER (b2n aes256)
    if !act then d
    else
      let sel := d.reg A.KEYS_KEY_SEL
      let slots := d.selectedSlots sel
      let fenced := slots.any fun k => decide (k < 262144) && d.isFenced (k / 8192)
      if fenced then d.err 0xE0000 (A.KEYS_KEY_CMD % 65536) .fenced src
      else
        let mat := if F.KEYS_KEY_CMD_ERASE.get w = 1 then none else some (d.keyData aes256)
        ({ d with integ := { d.integ with job := some ⟨slots, mat⟩ } }).clearKeyData

/-- KEY_COMMIT_POINT: the commit or erase in progress completes in absolute cycle `t` (R246). Each commit has a
number, by which R251 tells whether it came after an accepted PN write. -/
def keyCommitPoint (d : Device) (t : Nat) : Device :=
  match d.integ.job with
  | none => d
  | some j =>
    let seq := d.integ.seq + b2n j.mat.isSome
    let d := { d with integ := { d.integ with job := none, seq := seq } }
    j.slots.foldl (fun d k =>
      if k < 262144 ∧ d.isFenced (k / 8192) then d
      else
        let s := d.keySlot k
        d.setKeySlot k { s with
          mat := j.mat
          commits := if j.mat.isSome then min (s.commits + 1) 0xFFFF else s.commits
          seq := if j.mat.isSome then seq else s.seq
          past := (t, s.mat) :: (if d.integNeeds then s.past else []) }) d

/-- A commit of SA_PN (R251): for a transmit association only when it is not valid, is exhausted, or its key slot was
committed since its last accepted PN write. -/
def saPnCommit (d : Device) (src : Source) (n sa lo hi : Nat) : Device :=
  let cfg := d.reg (saReg A.INTEG_SA_CFG n sa)
  let st := d.saSt n sa
  let xpn := F.INTEG_SA_CFG_XPN.get cfg = 1
  let pn := if xpn then hi * 2 ^ 32 + lo else lo
  let tx := F.INTEG_SA_CFG_DIR.get cfg = 1
  let fresh := decide (st.wrote < (d.keySlot (slotKey n (F.INTEG_SA_CFG_KEY_SLOT.get cfg))).seq)
  if tx ∧ F.INTEG_SA_CFG_VALID.get cfg = 1 ∧ !st.exhausted ∧ !fresh then d.refuse src (A.INTEG_SA_PN_HI n)
  else
    let keep := if d.integNeeds then (d.integ.writes, st.pn, st.exhausted) :: st.past else []
    let d := { d with integ := { d.integ with writes := d.integ.writes + 1 } }
    d.setSa n sa { st with
      pn := max pn 1, exhausted := false, thresh := false, reached := false, wrote := d.integ.seq, past := keep }

end Sys2Proof.Machine
end

