-- ==== Sys2Proof/Machine/Egress.lean ====
section
/-! DEFINITION. A copy on its way out: the egress stages and deparser (R142, R147, R231), IOAM data (R286 to R288),
timestamps, the correctionField and origin insertion (R258 to R263, R340), and the end of its transmission (R98, R179,
R180, R277). -/

namespace Sys2Proof.Machine

-- Timestamps (R258, R259) ------------------------------------------------------------------------------------------

def Device.tsuSt (d : Device) (p : Nat) : TsuSt := tabGet (fun _ => {}) d.tsu p
def Device.setTsu (d : Device) (p : Nat) (v : TsuSt) : Device := { d with tsu := tabSet (fun _ => {}) d.tsu p v }

/-- Address of a TSU counter of gallery `n`. -/
def tsuCnt (n x : Nat) : Nat := A.TSU_TSU_CNT n x

/-- Picoseconds in 2^-16 ns: ps * 65536 / 1000. -/
def Device.psT (d : Device) (ps : Int) : Int × Device := d.roundDiv (ps * 8192) 125

/-- A frame's timestamp on the device clock and on the step-free counter. `raw` is when its first bit after the SFD
crosses the balls of `lane`, from the start of the present cycle, in 2^-16 ns (R258); R259's terms are applied. -/
def Device.stampAt (d : Device) (p lane : Nat) (raw : Int) (rx : Bool) : Nat × Nat × Device :=
  let cal : Int := Int.ofNat (if rx then Config.tsCalRx lane else Config.tsCalTx lane).toNat
  let board : Int := Int.ofNat (d.fld (A.TSU_TS_BOARD (p / 32) (p % 32))
    (if rx then F.TSU_TS_BOARD_RX else F.TSU_TS_BOARD_TX))
  let (adj, d) := d.psT (if rx then -(cal + board) else cal + board)
  let off := raw + adj - (if rx then (d.tsuSt lane).phase else 0)
  let clk := ((Int.ofNat d.clockNow + off) % Int.ofNat (clockWrap / 2 ^ 48)).toNat
  (clk, (Int.ofNat d.stepFreeNow + off).toNat, d)

-- UDP checksums (R262, R288) ---------------------------------------------------------------------------------------

/-- The UDP header that an IP header at `o` leads to, over IPv6 extension headers; `nh` is the next header at `at_` (IANA
numbers; PRESUMED). -/
def udpAfter (bs : Bytes) : Nat → Nat → Nat → Option Nat
  | 0, _, _ => none
  | n + 1, nh, at_ =>
    if nh = 17 then some at_
    else if nh = 44 then udpAfter bs n (byteAt bs at_) (at_ + 8)
    else if nh = 51 then udpAfter bs n (byteAt bs at_) (at_ + 4 * (byteAt bs (at_ + 1) + 2))
    else if nh = 0 ∨ nh = 43 ∨ nh = 60 ∨ nh = 135 then udpAfter bs n (byteAt bs at_) (at_ + 8 * (byteAt bs (at_ + 1) + 1))
    else none

/-- The UDP header of a packet whose IP header is at `o`. -/
def udpOfIp (bs : Bytes) (o : Nat) : Option Nat :=
  if byteAt bs o / 16 = 4 then udpAfter bs 1 (byteAt bs (o + 9)) (o + 4 * (byteAt bs o % 16))
  else if byteAt bs o / 16 = 6 then udpAfter bs 8 (byteAt bs (o + 6)) (o + 40)
  else none

/-- The UDP header that encloses a header at `ofs`: the last one before it that an IP header of the list leads to; the list's
first entry, at the frame's start, is no IP header. -/
def udpBefore (hs : List HdrEnt) (bs : Bytes) (ofs : Nat) : Option Nat :=
  (hs.filter fun h => 0 < h.ofs ∧ h.ofs < ofs).foldl (fun best h =>
    match udpOfIp bs h.ofs with
    | some u => if u + 8 ≤ ofs then some u else best
    | none => best) none

/-- The same in a frame that was not parsed: its EtherType, after VLAN tags, is IP, and UDP directly precedes `ofs`. -/
def udpUnparsed (bs : Bytes) (ofs : Nat) : Option Nat :=
  let rec et : Nat → Nat → Nat
    | 0, o => o
    | f + 1, o => if beAt bs o 2 = 0x8100 ∨ beAt bs o 2 = 0x88A8 then et f (o + 4) else o
  let t := beAt bs (et 4 12) 2
  if (t = 0x0800 ∨ t = 0x86DD) ∧ 8 ≤ ofs then some (ofs - 8) else none

/-- What is written over a frame so that its bytes at `ofs` become `new`: they, and a non-zero UDP checksum adjusted for
them (R262). -/
def overwrite (udp : Option Nat) (bs : Bytes) (ofs : Nat) (new : Bytes) : List (Nat × Bytes) :=
  match udp with
  | none => [(ofs, new)]
  | some u =>
    let sum := beAt bs (u + 6) 2
    if sum = 0 then [(ofs, new)]
    else
      let s := adjustChecksum sum (sliceBytes bs ofs new.length) new
      [(ofs, new), (u + 6, beBytes 2 (if s = 0 then 0xFFFF else s))]

-- Forming the frame (R147) -----------------------------------------------------------------------------------------

/-- The bytes of frame `f` that a copy carries, FCS apart, as far as they have come (R141). -/
def Copy.source (c : Copy) (f : Frame) : Bytes :=
  let b := if f.ended then f.bytes.take (f.bytes.length - 4) else f.bytes
  match c.trunc with
  | some t => b.take t
  | none => b

/-- The frame as transmitted, integrity and FCS apart, as far as its bytes have come. -/
def Copy.out (c : Copy) (f : Frame) : Bytes :=
  c.egPatch.foldl (fun b p => patchBytes b p.1 p.2) (c.egHdr ++ (writeBack c.phv (c.source f)).drop c.egSkip)

/-- L of R209: the length as transmitted, DA to FCS, or its estimate while the frame has not ended. -/
def Device.lenOut (d : Device) (c : Copy) (f : Frame) : Int :=
  let sec := Int.ofNat (d.secAdds c)
  if f.ended then Int.ofNat (c.out f).length + 4 + sec
  else
    let b := match c.trunc with
      | some t => min t f.bodyLen
      | none => f.bodyLen
    Int.ofNat b + c.egDelta + 4 + sec

/-- PORT_OVERHEAD of a port (R209, R215). -/
def Device.overhead (d : Device) (p : Nat) : Int :=
  signedAdj (d.fld (A.SCHED_P_SCHED (p / 32) (p % 32)) F.SCHED_P_SCHED_PORT_OVERHEAD)

/-- cl of R209. -/
def Device.chargedLen (d : Device) (c : Copy) (f : Frame) : Int := d.lenOut c f + d.overhead (c.queue / 16)

-- IOAM (R286 to R288) ----------------------------------------------------------------------------------------------

/-- Units of 4 octets that the node data of trace-type bit `k` takes (R287). -/
def ioamUnits (k : Nat) : Nat :=
  if k = 8 ∨ k = 9 ∨ k = 10 then 2 else if k ≤ 7 ∨ k = 11 ∨ k = 22 then 1 else 0

/-- A global port identity: the switch identity and the port. -/
def Device.portIdentity (d : Device) (p : Nat) : Nat := d.fld A.TIME_LEDGER_ID F.TIME_LEDGER_ID_SWITCH_ID * 1024 + p

/-- Where the transit delay falls among the node data of a trace type, in octets from its start. -/
def ioamDelayAt (tt : Nat) : Option Nat :=
  if bit tt 19 then some (4 * ((List.range 4).map fun k => if bit tt (23 - k) then ioamUnits k else 0).sum) else none

/-- The node data of a trace type (R287), its transit delay left at 0 until the first byte leaves. -/
def Device.ioamData (d : Device) (tt hop : Nat) (c : Copy) (f : Frame) (v : Phv) : Bytes :=
  let p := c.queue / 16
  let node := d.fld A.TELEM_IOAM_NODE F.TELEM_IOAM_NODE_NODE_ID
  let k := d.fld A.TELEM_IOAM_CFG F.TELEM_IOAM_CFG_NS_CONT
  (List.range 24).flatMap fun j =>
    if !bit tt (23 - j) then []
    else match j with
      | 0 => beBytes 1 hop ++ beBytes 3 node
      | 1 => beBytes 2 f.inPort ++ beBytes 2 p
      | 2 => beBytes 4 (clkSec f.tsClk)
      | 3 => beBytes 4 (clkNs f.tsClk)
      | 4 => zeroBytes 4
      | 5 => beBytes 4 (cont v k)
      | 6 => beBytes 4 c.depth
      | 7 => beBytes 4 0xFFFFFFFF
      | 8 => beBytes 1 hop ++ beBytes 7 node
      | 9 => beBytes 4 (d.portIdentity f.inPort) ++ beBytes 4 (d.portIdentity p)
      | 10 => beBytes 4 (cont v k) ++ beBytes 4 (cont v (k + 1))
      | 11 => beBytes 4 (d.hall.sharedTotal - d.hall.freeShown)
      | 22 => beBytes 4 0x00FFFFFF
      | _ => []

/-- The IP header that the EtherType at `o` leads to, after VLAN tags and MPLS labels (IANA and IEEE numbers; PRESUMED, log entry
78). -/
def ipAfter (bs : Bytes) : Nat → Bool → Nat → Option Nat
  | 0, _, _ => none
  | n + 1, true, o =>
    if bit (byteAt bs (o + 2)) 0 then (if byteAt bs (o + 4) / 16 = 4 ∨ byteAt bs (o + 4) / 16 = 6 then some (o + 4) else none)
    else ipAfter bs n true (o + 4)
  | n + 1, false, o =>
    let t := beAt bs o 2
    if t = 0x8100 ∨ t = 0x88A8 then ipAfter bs n false (o + 4)
    else if t = 0x8847 ∨ t = 0x8848 then ipAfter bs n true (o + 2)
    else if t = 0x0800 ∨ t = 0x86DD then some (o + 2)
    else none

/-- The outermost IP header of a frame, found by its EtherType. -/
def outerIp (bs : Bytes) : Option Nat := ipAfter bs 16 false 12

/-- TTL or hop limit of the outermost IP header (R287): the first header marked as one, or the one that the frame's EtherType leads to
where that comes first; an open value where there is neither. -/
def Device.hopLimit (d : Device) (hs : List HdrEnt) (bs : Bytes) : Nat × Device :=
  let v6 := d.fld A.HALL_ECN_CFG F.HALL_ECN_CFG_V6_ID
  let marked := (hs.find? fun h => d.ipv4Marked h.id ∨ h.id = v6).map fun h => (h.ofs, d.ipv4Marked h.id)
  let found := (outerIp bs).map fun o => (o, byteAt bs o / 16 == 4)
  let first := match marked, found with
    | some m, some e => some (if e.1 < m.1 then e else m)
    | some m, none => some m
    | none, e => e
  match first with
  | some (o, v4) => (byteAt bs (o + if v4 then 8 else 7), d)
  | none => d.free 8

/-- IOAM_WRITE (R288), over a formed frame whose bytes are `bs`: what is written, and which counter it makes once the frame leaves. The
tagged header begins at the option's Namespace-ID, the octet before which is its IOAM-Opt-Type. -/
def Device.ioamWrite (d : Device) (c : Copy) (f : Frame) (bs : Bytes) : Device × Copy :=
  match c.egHdrs.find? fun h => h.id = d.fld A.TELEM_IOAM_CFG F.TELEM_IOAM_CFG_HDR_ID with
  | none => (d, c)
  | some h =>
    let o := h.ofs
    let ns := beAt bs o 2
    if ns ≠ 0 ∧ ns ≠ d.fld A.TELEM_IOAM_CFG F.TELEM_IOAM_CFG_NS_ID then (d, c)
    else if 0 < o ∧ byteAt bs (o - 1) = 1 then (d, { c with ioamCnt := some 11 })
    else
      let w := beAt bs (o + 2) 2
      let nodeLen := w / 2 ^ 11
      let rem := w % 128
      let tt := beAt bs (o + 4) 3
      let units := ((List.range 24).map fun k => if bit tt (23 - k) then ioamUnits k else 0).sum
      let udp := udpBefore c.egHdrs bs o
      if units ≠ nodeLen then (d, { c with ioamCnt := some 10 })
      else if rem < nodeLen then
        (d, { c with ioamCnt := some 9, egPatch := c.egPatch ++ overwrite udp bs (o + 2) (beBytes 2 (w ||| 0x400)) })
      else
        let (hop, d) := d.hopLimit c.egHdrs bs
        let node := d.ioamData tt hop c f c.phv
        let at_ := o + 8 + (rem - nodeLen) * 4
        let head := overwrite udp bs (o + 2) (beBytes 2 (w - nodeLen))
        let done := head.foldl (fun b p => patchBytes b p.1 p.2) bs
        (d, { c with
          ioamCnt := some 8, egPatch := c.egPatch ++ head ++ overwrite udp done at_ node, ioamAt := (ioamDelayAt tt).map (at_ + ·) })

-- Egress processing ------------------------------------------------------------------------------------------------

/-- The egress stages and the deparser, for copy `uid`: the copy as formed, with the DROP an action set (R142, R147). -/
def Device.egressForm (d : Device) (uid : Nat) : Device × Option (Nat × Nat × Nat) :=
  match d.copy uid with
  | none => (d, none)
  | some c =>
    match d.frame c.frame with
    | none => (d, none)
    | some f =>
      let n := c.queue / 512
      let gen := d.gen.active
      let prof := d.profile.active
      let ev := d.evOf f c.pass (c.kind == .mirror || c.kind == .replica)
      let x : StageCtx :=
        { gal := n, inPort := f.inPort, slot := slotOf gen, pass := c.pass, egress := true, prof := prof, len := f.rxLen,
          ended := f.ended, delta := f.delta, cap := c.trunc.map (· + 4), base := d.absCyc, ev := ev }
      let d := d.event (some n) 0x4001 1 (some (c.queue / 16)) ev
      let r := runStages x 8 24 { d := d, v := c.phv, a := { colour := c.colour } }
      let src := c.source f
      let b := rebuild r.d n r.v src r.a.encap r.a.decap c.ecn true (match c.trunc with
        | some t => min t f.bodyLen
        | none => f.bodyLen)
      let c := { c with
        egGen := gen, colour := r.a.colour, phv := r.v, egHdr := b.hdr, egSkip := b.skip, egHdrs := b.phv.hdrs
        egDelta := Int.ofNat b.hdr.length - Int.ofNat b.skip
        egMirrors := r.a.mirrors, egPatch := [], originEg := c.originAt.bind (b.at_ r.v), ioamAt := none, ioamCnt := none }
      let d := r.d.modFrame c.frame fun f =>
        { f with charges := f.charges ++ r.a.charges.map fun m => (n, m)
                 counted := f.counted ++ r.a.counted.map fun k => actCntBytes n k }
      let wants := prof ≠ 1 ∧ r.a.drop.isNone ∧ (prof = 6 ∨ c.ioam ∨ r.a.ioam)
      let (d, c) := if wants then d.ioamWrite c f (c.out f) else (d, c)
      (d.modCopy uid fun _ => c, r.a.drop)

/-- The charged length of a queued copy, as its egress processing would form it now. -/
def Device.headLen (d : Device) (uid : Nat) : Int :=
  let d := (d.egressForm uid).1
  match d.copy uid with
  | none => 0
  | some c => ((d.frame c.frame).map fun f => d.chargedLen c f).getD 0

/-- An egress mirror copy: a frame of its own, admitted by the egress gallery; its cells may wait for the write budget
(R141, R177). It is taken after the deparser, so it has the header list written and no container of the original's
(DEDUCED, log entry 67); a template that the deparser inserted is in its bytes and in no entry of its list (R151). -/
def Device.egressMirror (d : Device) (c : Copy) (f : Frame) (m : Nat) : Device :=
  match d.mirrorOf m with
  | none => d
  | some (q, trunc) =>
    let n := c.queue / 512
    let body := c.out f
    let bs := body ++ fcsOf body
    let id := d.pkt.nextId
    let kept := match trunc with
      | some t => min bs.length (t + 4)
      | none => bs.length
    let cells := cellsOf kept
    let waits := !d.canAdmit 0x04 n cells 1 d.stroke.cyc id
    let g : Frame :=
      { id := id, gal := n, inPort := f.inPort, rx := false, origin := f.origin, untracked := true, bytes := bs,
        got := bs.length, ended := true, checked := !waits, tsClk := f.tsClk, tsFree := f.tsFree, stamp := f.stamp,
        iclass := f.iclass, pass := f.pass, h0 := f.h0, flowKey := f.flowKey, maxFrame := bs.length }
    let d := { d with pkt := { d.pkt with nextId := id + 1, frames := d.pkt.frames ++ [(id, g)] } }
    let v := { c.phv with c := [], hdrs := c.egHdrs, ext := [], payload := (c.egHdrs.getLast?.map fun h => h.ofs + h.len).getD 0 }
    let (d, uid) := d.admitCopy { frame := id, queue := q, kind := .mirror, colour := c.colour, phv := v, pass := c.pass, trunc := trunc, gal := n } true 0
    match uid with
    | .refused _ => (d.modFrame id fun f => { f with checked := true }).releaseFrame id
    | .copy _ =>
      if waits then
        let d := d.mustWait 0x04 n id cells
        { d with pkt := { d.pkt with mirrorWait := d.pkt.mirrorWait ++ [(id, cells)] } }
      else d

/-- Make the egress mirror copies asked for, once the frame's bytes are complete. -/
def Device.egressMirrors (d : Device) (uid : Nat) : Device :=
  match d.copy uid with
  | none => d
  | some c =>
    match d.frame c.frame with
    | none => d
    | some f =>
      if !f.ended then d
      else c.egMirrors.foldl (fun d m => d.egressMirror c f m) (d.modCopy uid fun c => { c with egMirrors := [] })

/-- A frame's bytes are complete: the egress mirror copies that waited for them are made, also those of copies that have ended
since (R141, R152). -/
def Device.endMirrors (d : Device) (id : Nat) : Device :=
  let late := d.pkt.lateMirrors.filter fun c => c.frame = id
  let d := { d with pkt := { d.pkt with lateMirrors := d.pkt.lateMirrors.filter fun c => c.frame ≠ id } }
  let d := (d.copiesOf id).foldl (fun d c => if c.egMirrors.isEmpty then d else d.egressMirrors c.uid) d
  match d.frame id with
  | none => d
  | some f => late.foldl (fun d c =>
      if d.isFenced (c.queue / 512) then d else c.egMirrors.foldl (fun d m => d.egressMirror c f m) d) d

/-- A copy is over MAX_FRAME of its port (R98). -/
def Device.tooLong (d : Device) (c : Copy) (f : Frame) : Bool :=
  decide (Int.ofNat (d.maxFrame (c.queue / 16)) < Int.ofNat (c.out f).length + 4 + Int.ofNat (d.secAdds c))

/-- A selected copy's egress processing begins (R135, R142): its cells are read as the budget admits (R178), it is formed, mirrored, and dropped where
an action or its length says so. -/
def Device.startEgress (d : Device) (uid : Nat) : Device :=
  match d.copy uid with
  | none => d
  | some c =>
    let n := c.queue / 512
    let d := { d with pkt := { d.pkt with egStarts := tnatSet d.pkt.egStarts n (tnat d.pkt.egStarts n + 1) } }
    let (d, drop) := ((d.modCopy uid fun c => { c with phase := .selected }).readCells uid).egressForm uid
    let d := d.egressMirrors uid
    match drop with
    | some (code, stage, ix) => d.dropCopy uid code n true (some (stage, ix))
    | none =>
      match d.copy uid with
      | none => d
      | some c =>
        match d.frame c.frame with
        | none => d
        | some f => if f.ended && d.tooLong c f then d.dropCopy uid 0x23 n true none else d

-- The first byte (R244, R262, R340) --------------------------------------------------------------------------------

/-- The PTP header of a formed frame (R261). -/
def Device.ptpIn (d : Device) (hs : List HdrEnt) : Option Nat :=
  (hs.find? fun h => h.id = d.fld A.TIME_PTP_CFG F.TIME_PTP_CFG_HDR_ID).map (·.ofs)

/-- A port's transparent-clock settings. -/
def Device.tsCfg (d : Device) (p : Nat) (f : Fld) : Nat := d.fld (A.TSU_TS_CFG (p / 32) (p % 32)) f

/-- TC_CORRECTION_UPDATE (R262): the correctionField of an event message received and transmitted on TC_EN ports. -/
def Device.tcUpdate (d : Device) (c : Copy) (f : Frame) (ofs : Nat) : Device × Option (List (Nat × Bytes)) :=
  let p := c.queue / 16
  let bs := c.out f
  let t := byteAt bs ofs % 16
  if 3 < t ∨ !(f.rx && f.origin == 0) ∨ d.tsCfg f.inPort F.TSU_TS_CFG_TC_EN = 0 ∨ d.tsCfg p F.TSU_TS_CFG_TC_EN = 0 then
    (d, none)
  else
    let res : Int := Int.ofNat c.txFree - Int.ofNat f.tsFree
    let (add, d) :=
      if t = 0 ∧ d.tsCfg f.inPort F.TSU_TS_CFG_TC_P2P = 1 then
        let asym := signed (d.cfg (A.TSU_TS_ASYM (f.inPort / 32) (f.inPort % 32))).toNat 32
        let (a, d) := d.psT asym
        (res + Int.ofNat ((d.port f.inPort).delay * 16384) + a, d)
      else (res, d)
    let cf := signed (beAt bs (ofs + 8) 8) 64
    let top : Int := 2 ^ 63 - 1
    if cf = top then (d, none)
    else
      let new := if cf + add > top then top else cf + add
      let d := d.count (tsuCnt (p / 32) (if cf + add > top then 1 else 0))
      (d, some (overwrite (udpBefore c.egHdrs bs ofs) bs (ofs + 8) (beBytes 8 (unsignedOf new 64))))

/-- PTP_RETAG (R248): what a changed message needs: nothing, a tag with this key once its receive check has passed, or to be
ended. -/
inductive Retag where
  | none_
  | key (icv : Nat) (m : KeyMat)
  | unchecked
deriving DecidableEq, Repr

/-- The tag of a copy whose correctionField was changed, from its bytes as transmitted (R248, R263). Entries and keys are those
of the cycle of its first byte. -/
def Device.retagOf (d : Device) (c : Copy) (f : Frame) (bs : Bytes) : Retag :=
  match c.retag with
  | none => .none_
  | some ofs =>
    let n := c.queue / 512
    match authTlv bs ofs with
    | none => .none_
    | some (spp, keyId, icv) =>
      match d.ptpEntry c.integSeq n spp keyId with
      | none => .unchecked
      | some slot =>
        match d.keyAt (slotKey n slot) c.txCyc with
        | none => .unchecked
        | some m => if f.ptpOk = some true then .key icv m else .unchecked

/-- The IOAM transit delay, from the egress timestamp (R287). -/
def Copy.delayPatch (c : Copy) (f : Frame) : List (Nat × Bytes) :=
  match c.ioamAt with
  | none => []
  | some o =>
    let ns := (c.txFree - f.tsFree) / 65536
    let bs := c.out f
    overwrite (udpBefore c.egHdrs bs o) bs o (beBytes 4 (if 2 ^ 31 ≤ ns then 0xFFFFFFFF else ns))

/-- A Delay_Req of the servo's source port leaves: t3 (R266). -/
def Device.dreqLeaves (d : Device) (id clk : Nat) : Device :=
  { d with servo := { d.servo with dreqs := d.servo.dreqs.map fun q =>
      if q.frame = id then { q with t3 := some (Int.ofNat clk), since := d.stepFreeNow } else q } }

/-- What MACsec adds is settled with the first byte: a charge that took another length for it is corrected (R209, R244). -/
def Device.chargeMac (d : Device) (uid : Nat) : Device :=
  match d.copy uid with
  | none => d
  | some c =>
    let more := Int.ofNat (d.secAdds c) - Int.ofNat c.secAt
    if more = 0 then d
    else (d.giveBack c (-more)).modCopy uid fun c => { c with charged := c.charged + more, secAt := d.secAdds c }

/-- What the first byte fixes in the copy itself: its timestamp's use in the delay and origin fields, its start cycle and
the INTEG block in force (R246, R287, R340). -/
def Copy.started (c : Copy) (f : Frame) (clk free cyc seq : Nat) : Copy :=
  let c := { c with phase := .sending, txFree := free, txCyc := cyc, integSeq := seq }
  let c := { c with egPatch := c.egPatch ++ c.delayPatch f }
  match c.originEg with
  | none => c
  | some o =>
    let bs := c.out f
    { c with egPatch := c.egPatch ++
      overwrite (udpUnparsed bs o) bs (o + 34) (beBytes 6 (clkSec clk) ++ beBytes 4 (clkNs clk)) }

/-- The correctionField of a PTP message that leaves, and whether its PTP tag is computed anew (R261 to R263). -/
def Device.tcPatch (d : Device) (p : Nat) (c : Copy) (f : Frame) : Device × Copy :=
  match d.ptpIn c.egHdrs with
  | none => (d, c)
  | some o =>
    match d.tcUpdate c f o with
    | (d, none) => (d, c)
    | (d, some patch) =>
      (d, { c with egPatch := c.egPatch ++ patch, retag := if d.ptpAuth c.integSeq p then some o else none })

/-- EGRESS_FIRST_BYTE: the first byte of the selected copy reaches the port's transmit MAC, its first bit crossing the
balls of `lane` `raw` later. Timestamp, correctionField, origin insertion, PTP tag and MACsec are settled (R244 to R248,
R258 to R263, R340). -/
def egressFirstByte (d : Device) (p cyc lane : Nat) (raw : Int) : Device :=
  let d := d.atCyc cyc
  if (d.pkt.sending.any fun e => e.1 = p) then d
  else match d.hall.copies.find? fun c => c.queue / 16 = p ∧ c.phase = .selected ∧ !d.doomed c with
    | none => d
    | some c =>
      match d.frame c.frame with
      | none => d
      | some f =>
        if c.read = 0 then d
        else if f.ended && d.tooLong c f then d.dropCopy c.uid 0x23 (p / 32) true none
        else match d.txLatch p with
        | (d, .lost code) => d.dropCopy c.uid code (p / 32) true none
        | (d, sa) =>
          let (clk, free, d) := d.stampAt p lane raw false
          let d := d.dreqLeaves f.id clk
          let d := { d with pkt := { d.pkt with portStarts := p :: d.pkt.portStarts } }
          let d := match c.ioamCnt with
            | some k => d.count (telCnt k)
            | none => d
          let (d, c) := d.tcPatch p (c.started f clk free d.absCyc d.integ.writes) f
          let c := match sa with
            | .took m => { c with mac := some m }
            | _ => c
          let d := (d.modCopy c.uid fun _ => c).chargeMac c.uid
          { d with pkt := { d.pkt with sending := d.pkt.sending ++ [(p, c.uid)] } }

-- The end (R98, R277) ----------------------------------------------------------------------------------------------

/-- A frame as it is on the line: its tags written, its FCS last (R244, R248). -/
def Device.wireBytes (d : Device) (c : Copy) (f : Frame) : Bytes :=
  let bs := c.out f
  let bs := match c.retag, d.retagOf c f bs with
    | some o, .key icv m => patchBytes bs icv (ptpIcv m.key bs o icv)
    | _, _ => bs
  let bs := match c.mac with
    | some m => m.protect bs
    | none => bs
  bs ++ fcsOf bs

/-- A copy that has begun is ended with a code after `n` bytes whose content is `bs`, the last four an inverted FCS. -/
def Device.stompKnown (d : Device) (c : Copy) (f : Frame) (code : Nat) (bs : Bytes) : Device :=
  let q := c.queue
  let d := ((d.correctTo c bs.length).countStomped c bs.length).send (.frame (q / 16) bs)
  let info := d.dropInfoOf f code (q / 512) q (d.queueSt q).held c.pass c.kind f.knownLen true true
  let d := d.loseOne f info
  let d := if d.othersLive c.frame (some c.uid) then d else d.flowCopy c (some code) none
  (d.stopSending c.uid).endCopy c.uid

/-- The frame that a port is sending. -/
def Device.sendingOn (d : Device) (p : Nat) : Option Copy :=
  match d.pkt.sending.find? fun e => e.1 = p with
  | none => none
  | some e => d.copy e.2

/-- FRAME_TRANSMIT_END: the frame that port `p` sends is finished, and its packet's flow record is updated if this is its
first copy to finish (R277). A frame beyond MAX_FRAME ends there, and one whose PTP message could not be verified ends
with an inverted FCS (R98, R248). -/
def frameTransmitEnd (d : Device) (p : Nat) : Device :=
  match d.sendingOn p with
  | none => d
  | some c =>
    match d.frame c.frame with
    | none => d
    | some f =>
      if d.tooLong c f then
        let cut := (d.wireBytes c f).take (d.maxFrame p - 4)
        d.stompKnown c f 0x23 (cut ++ invertBytes (fcsOf cut))
      else if !f.ended ∨ c.read < cellsOf (c.bytesOf f) then d
      else
        let bs := d.wireBytes c f
        let tag := d.retagOf c f (c.out f)
        if tag = .unchecked then
          let body := bs.take (bs.length - 4)
          d.stompKnown c f 0x70 (body ++ invertBytes (fcsOf body))
        else
          let n := p / 32
          let d := if tag = .none_ then d else d.count (integCnt n 11)
          let d := (d.countSent c.queue bs.length).send (.frame p bs)
          let d := d.event (some n) 0x4002 bs.length (some p) (d.evOf f c.pass (c.kind == .mirror || c.kind == .replica))
          let d := d.flowCopy c none (some (c.txFree - f.tsFree))
          (d.stopSending c.uid).endCopy c.uid

/-- CT_UNDERRUN: the next cell of a cut-through frame to a faster port is not ready (R179). No drop record is made. -/
def ctUnderrun (d : Device) (p : Nat) : Device :=
  match d.sendingOn p with
  | none => d
  | some c =>
    match d.frame c.frame with
    | none => d
    | some f =>
      if !c.cut ∨ f.ended ∨ d.portGb p ≤ d.portGb f.inPort then d
      else
        let d := (d.stompOut c).count (hallCnt 4)
        let d := d.flowCopy c none (some (c.txFree - f.tsFree))
        (d.stopSending c.uid).endCopy c.uid

/-- CELL_ECC_UNCORRECTABLE: a cell read for port `p` finds an uncorrectable error: the packet ends, and the row is handed to fault
handling (R180, R389). -/
def cellEcc (d : Device) (p : Nat) : Device :=
  let hit : Option Copy := match d.sendingOn p with
    | some c => some c
    | none => d.hall.copies.find? fun c => c.queue / 16 = p ∧ c.phase = .selected
  match hit with
  | none => d
  | some c =>
    let e := (d.count (hallCnt 5)).dropCopy c.uid 0xB1 (p / 32) true none
    match c.lastCell with
    | some a => e.rowBad (cellPlace a)
    | none => e

/-- CHARGE_CORRECTION: shaper and DWRR charges made on an estimate are corrected to the real length (R209). -/
def Device.correctCharge (d : Device) (uid : Nat) : Device :=
  match d.copy uid with
  | none => d
  | some c =>
    match d.frame c.frame with
    | none => d
    | some f =>
      if !c.est then d
      else
        let cl := d.chargedLen c f
        (d.giveBack c (c.charged - cl)).modCopy uid fun c => { c with charged := cl, secAt := d.secAdds c, est := false }

end Sys2Proof.Machine
end

