-- ==== Sys2Proof/Machine/Sched.lean ====
section
/-! DEFINITION. Gates (R217 to R221), eligibility and selection (R206 to R208), cut-through grants (R21), queue ageing
(R214), shapers (R211 to R213) and meters (R222) at the boundary. -/

namespace Sys2Proof.Machine

-- Gate lists -------------------------------------------------------------------------------------------------------

def Device.gateSt (d : Device) (p : Nat) : GateSt := tabGet (fun _ => {}) d.sched.gates p
def Device.setGate (d : Device) (p : Nat) (v : GateSt) : Device :=
  { d with sched := { d.sched with gates := tabSet (fun _ => {}) d.sched.gates p v } }

/-- The entries of a bank: gate states and intervals in ns. -/
def Device.gateEntries (d : Device) (p bank len : Nat) : List (Nat × Nat) :=
  (List.range len).map fun e =>
    (F.GATE_GT_GATES_GATES.get (d.reg (A.GATE_GT_GATES (p / 32) (p % 32) bank e)),
     F.GATE_GT_INTERVAL_INTERVAL.get (d.reg (A.GATE_GT_INTERVAL (p / 32) (p % 32) bank e)))

/-- A cycle as segments (start, end, gates) in ns: the last entry holds to the cycle's end, and the list is cut there
(R217). -/
def gateSegments (cycle : Nat) : List (Nat × Nat) → Nat → List (Nat × Nat × Nat)
  | [], _ => []
  | [(g, _)], o => if o < cycle then [(o, cycle, g)] else []
  | (g, i) :: t, o => if o < cycle then (o, min (o + i) cycle, g) :: gateSegments cycle t (o + i) else []

def Device.segsOf (d : Device) (p : Nat) (s : GateSt) : List (Nat × Nat × Nat) :=
  gateSegments s.cycle (d.gateEntries p s.bank s.len) 0

def Device.gateSegs (d : Device) (p : Nat) : List (Nat × Nat × Nat) := d.segsOf p (d.gateSt p)

/-- Lengths of the windows of a queue in one cycle, in order, with the state at the cycle's start and end; open runs. -/
def openRuns (q : Nat) : List (Nat × Nat × Nat) → List (Nat × Nat)
  | [] => []
  | (a, b, g) :: t =>
    match bit g q, openRuns q t with
    | true, (a', b') :: rest => if a' = b then (a, b') :: rest else (a, b) :: (a', b') :: rest
    | true, [] => [(a, b)]
    | false, rest => rest

/-- The longest window of a queue in ns; none where it is open throughout (R219). -/
def longestWindow (cycle q : Nat) (segs : List (Nat × Nat × Nat)) : Option Nat :=
  let runs := openRuns q segs
  match runs, runs.getLast? with
  | (a, b) :: _, some (a', b') =>
    if a = 0 ∧ b = cycle then none
    else
      let joined := if a = 0 ∧ b' = cycle then (b - a) + (b' - a') else 0
      some (runs.foldl (fun m r => max m (r.2 - r.1)) joined)
  | _, _ => some 0

/-- How long a queue's gate stays open from time `t` into the cycle (in 2^-16 ns): none for ever, 0 where it is closed. -/
def openFor (cycle q t : Nat) (segs : List (Nat × Nat × Nat)) : Option Nat :=
  let runs := openRuns q segs
  match runs.find? fun r => nsT r.1 ≤ t ∧ t < nsT r.2 with
  | none => some 0
  | some (a, b) =>
    if a = 0 ∧ b = cycle then none
    else if b = cycle then
      match runs with
      | (0, e) :: _ => some (nsT b - t + nsT e)
      | _ => some (nsT b - t)
    else some (nsT b - t)

/-- The list that governs a port's gates at device time `t`: the committed one once its first cycle has begun (R220). -/
def Device.gateAt (d : Device) (p t : Nat) : GateSt :=
  let s := d.gateSt p
  if s.pending ∧ s.takeAt ≤ t then
    { s with pending := false, bank := 1 - s.bank, len := s.pendLen, cycle := s.pendCycle, base := s.pendBase }
  else s

/-- Time into the cycle at device time `t` (both in 2^-16 ns); before BASE the list has not begun. -/
def gatePos (base cycle t : Nat) : Nat := ((Int.ofNat t - Int.ofNat base) % Int.ofNat (nsT cycle)).toNat

/-- A port's gate list runs: GT_CTRL.EN and a committed list (R217). -/
def Device.listOn (d : Device) (p : Nat) (s : GateSt) : Bool :=
  s.len != 0 && F.GATE_GT_CTRL_EN.get (d.reg (A.GATE_GT_CTRL (p / 32) (p % 32))) == 1

/-- A port's gates are in force: it acts only in P4 (R217). -/
def Device.gatedBy (d : Device) (p : Nat) (s : GateSt) : Bool := d.profile.active == 4 && d.listOn p s

def Device.gated (d : Device) (p : Nat) : Bool := d.gatedBy p (d.gateSt p)

/-- Does a frame of charged length `cl` fit its queue's gate when it starts at device time `t` (R218)? -/
def Device.fitsGate (d : Device) (q : Nat) (cl : Int) (t : Nat) : Bool :=
  let p := q / 16
  let s := d.gateAt p t
  if !d.gatedBy p s then true
  else match openFor s.cycle (q % 16) (gatePos s.base s.cycle t) (d.segsOf p s) with
    | none => true
    | some w => decide (0 < w ∧ cl * 8 * 65536 ≤ Int.ofNat (w * d.portGb p))

/-- A frame longer than every window of its queue (R219). -/
def Device.gateTooLong (d : Device) (q : Nat) (cl : Int) : Bool :=
  let p := q / 16
  if !d.gated p then false
  else match longestWindow (d.gateSt p).cycle (q % 16) (d.gateSegs p) with
    | none => false
    | some w => decide (Int.ofNat (w * d.portGb p) < cl * 8)

/-- The gate states of a port at device time `t`. -/
def Device.gatesAt (d : Device) (p t : Nat) : Nat :=
  let s := d.gateSt p
  if s.len = 0 then 0xFFFF
  else
    let pos := gatePos s.base s.cycle t
    (((d.gateSegs p).find? fun g => nsT g.1 ≤ pos ∧ pos < nsT g.2.1).map (·.2.2)).getD 0xFFFF

/-- GATE_EDGE: a gate-list entry boundary falls (R217): the gate states are those of the entry now in force. -/
def gateEdge (d : Device) (p cyc : Nat) : Device :=
  let d := d.atCyc cyc
  if (d.gateSt p).len = 0 then d else d.setGate p { d.gateSt p with gates := d.gatesAt p d.clockNow }

/-- GATE_COMMIT: a write of GT_CTRL.COMMIT checks the pending list and makes it pending, or refuses it (R220). -/
def gateCommit (d : Device) (p : Nat) : Device :=
  let n := p / 32
  let s := d.gateSt p
  let len := F.GATE_GT_CTRL_LEN.get (d.reg (A.GATE_GT_CTRL n (p % 32)))
  let cycle := F.GATE_GT_CYCLE_CYCLE.get (d.reg (A.GATE_GT_CYCLE n (p % 32)))
  let ns := F.GATE_GT_BASE_NS_NS.get (d.reg (A.GATE_GT_BASE_NS n (p % 32)))
  let sec := d.pair (A.GATE_GT_BASE_SEC_LO n (p % 32)) (A.GATE_GT_BASE_SEC_HI n (p % 32)) % 2 ^ 48
  let bank := 1 - s.bank
  let short := (d.gateEntries p bank (min len 64)).any fun e => e.2 < 8
  if s.pending then d
  else if len = 0 ∨ 64 < len ∨ cycle < 1000 ∨ 1000000000 < cycle ∨ short ∨ 1000000000 ≤ ns then
    (d.setGate p { s with commitBad := true }).markSet (A.GATE_GT_STAT n (p % 32)) 9
  else
    let base := secT sec + nsT ns
    let now := d.clockNow
    let start := if now ≤ base then base else base + ceilDiv (now - base) (nsT cycle) * nsT cycle
    d.setGate p { s with pending := true, pendLen := len, pendCycle := cycle, pendBase := base, takeAt := start }

/-- GATE_LIST_TAKEOVER: the committed list takes over at its first cycle start; a frame in transmission whose gate it
closes completes and is counted (R220, R225). -/
def gateTakeover (d : Device) (p cyc : Nat) : Device :=
  let d := d.atCyc cyc
  let s := d.gateSt p
  if !s.pending ∨ d.clockNow < s.takeAt then d
  else
    let s := { s with
      pending := false, bank := 1 - s.bank, len := s.pendLen, cycle := s.pendCycle, base := s.pendBase }
    let d := d.setGate p s
    let segs := d.gateSegs p
    let never := ((List.range 16).filter fun q => longestWindow s.cycle q segs == some 0).foldl (fun a q => a + 2 ^ q) 0
    let gates := d.gatesAt p d.clockNow
    let closes := d.gated p && ((d.sendingOn p).map fun c => !bit gates (c.queue % 16)).getD false
    d.setGate p { s with
      neverOpen := never, gates := gates, overrun := if closes then min (s.overrun + 1) 0xFFFFFFFF else s.overrun }

-- Shapers ----------------------------------------------------------------------------------------------------------

/-- The register of a shaper's rate and burst, by its bucket (R215). -/
def shaperRate (k : Nat) : Nat :=
  if k < 16384 then A.SCHED_Q_RATE (k / 512) (k % 512)
  else if k < 20480 then A.SCHED_P_RATE ((k - 16384) / 32) ((k - 16384) % 32)
  else A.SCHED_G_RATE ((k - 20480) / 128) ((k - 20480) % 128)

def shaperBurst (k : Nat) : Nat := shaperRate k + 4

/-- The bucket of the shaper whose rate or burst register is at `a`. -/
def shaperAt (a : Nat) : Option Nat :=
  if a < 0x1000000 ∨ 0x3000000 ≤ a ∨ a / 0x10000 % 16 ≠ 6 then none
  else
    let n := (a - 0x1000000) / 0x100000
    let o := a % 0x10000
    if o % 0x20 ≠ 4 ∧ o % 0x20 ≠ 8 then none
    else if 0x1000 ≤ o ∧ o < 0x5000 then some (queueBucket (n * 512 + (o - 0x1000) / 0x20))
    else if 0x5000 ≤ o ∧ o < 0x5400 then some (portBucket (n * 32 + (o - 0x5000) / 0x20))
    else if 0x5400 ≤ o ∧ o < 0x6400 then some (groupBucket (n * 128 + (o - 0x5400) / 0x20))
    else none

/-- The gallery of a shaper. -/
def bucketGal (k : Nat) : Nat := if k < 16384 then k / 512 else if k < 20480 then (k - 16384) / 32 else (k - 20480) / 128

/-- The shaper is in use. -/
def Device.shaped (d : Device) (k : Nat) : Bool := F.SCHED_Q_RATE_EN.get (d.cfg (shaperRate k)) == 1

/-- The shaper conforms: off, or more than 0 tokens (R211). -/
def Device.conforms (d : Device) (k : Nat) : Bool := !d.shaped k || decide (0 < d.tokens k)

/-- The group bucket of a queue, where GROUP_EN = 1 (R213). -/
def Device.groupOf (d : Device) (q : Nat) : Option Nat :=
  let w := d.cfg (A.SCHED_Q_SCHED (q / 512) (q % 512))
  if F.SCHED_Q_SCHED_GROUP_EN.get w = 1 then some (groupBucket (q / 512 * 128 + F.SCHED_Q_SCHED_GROUP.get w)) else none

/-- The buckets that govern a queue's frames: its own, its group's, its port's. -/
def Device.bucketsOf (d : Device) (q : Nat) : List Nat :=
  [queueBucket q] ++ (d.groupOf q).toList ++ [portBucket (q / 16)]

/-- Charge a selected copy to every shaper in use (R211). -/
def Device.chargeShapers (d : Device) (uid q : Nat) (cl : Int) : Device :=
  let ks := (d.bucketsOf q).filter d.shaped
  let d := ks.foldl (fun d k => d.setTokens k (d.tokens k - cl * 65536)) d
  d.modCopy uid fun c =>
    { c with charged := cl, chargedAt := ks, secAt := d.secAdds c, est := !((d.frame c.frame).map (·.ended)).getD true }

/-- A queue that a shaper governs. -/
def Device.governs (d : Device) (k q : Nat) : Bool := (d.bucketsOf q).contains k

/-- SHAPER_REFILL and SHAPER_CONFIG_APPLY at the boundary after a stroke of `t` on the device clock, in 2^-16 ns: new
settings set the bucket, every other one is refilled and capped, in use or not (R211, R212). A fenced gallery's shapers have
stopped (R30). -/
def Device.shaperBoundary (d : Device) (t : Nat) : Device :=
  let keys := ((d.file.regs.map (·.1)).filterMap shaperAt ++ d.sched.dirty).eraseDups
  let held := (d.hall.copies.filter fun c => c.phase = .queued ∧ c.queue < 16384).map (·.queue)
  let d := (keys.filter fun k => !d.isFenced (bucketGal k)).foldl (fun d k =>
    let rate := d.cfg (shaperRate k)
    let burst := Int.ofNat (burstBytes (F.SCHED_Q_BURST_BURST.get (d.cfg (shaperBurst k)))) * 65536
    if d.sched.dirty.contains k then
      d.setTokens k (if F.SCHED_Q_RATE_TOC.get rate = 1 then 0 else burst)
    else
      let (add, d) := d.tokenRefill (F.SCHED_Q_RATE_RATE.get rate) t
      let sum := d.tokens k + add
      if burst < sum then
        let low := held.any fun q => d.governs k q
        let d := d.setTokens k burst
        if low then
          ({ d with sched := { d.sched with burstLow := tnatSet d.sched.burstLow k 1 } }).markSet (shaperRate k + 0xC) 1
        else d
      else d.setTokens k sum) d
  { d with sched := { d.sched with
      dirty := []
      shown := (d.sched.tokens.filterMap fun (e : Nat × Int) =>
        let v := e.2 / 65536
        if v = 0 then none else some (e.1, v)) } }

-- Meters -----------------------------------------------------------------------------------------------------------

/-- The meters that a register or a bucket tells from reset, in use or not: their numbers over the galleries that are not
fenced (R30, R222). Any other meter has rates and buckets of 0. -/
def Device.metersUsed (d : Device) : List Nat :=
  let named := d.file.regs.filterMap fun (e : Nat × Word) =>
    let a := e.1 % 0x10000000
    let sel := e.1 / 0x10000000
    if 0 < sel ∧ 0x1000000 ≤ a ∧ 0x80104 ≤ a % 0x100000 ∧ a % 0x100000 ≤ 0x80114 then
      some ((a - 0x1000000) / 0x100000 * 8192 + (sel - 1)) else none
  (named ++ (d.sched.meters.map fun (e : Nat × Nat) => e.1 / 2) ++ d.sched.meterDirty).filter fun ix => !d.isFenced (ix / 8192)

/-- METER_REFILL: refill, and apply configuration writes (R222). -/
def Device.meterBoundary (d : Device) (t : Nat) : Device :=
  let d := (d.metersUsed).eraseDups.foldl (fun d ix =>
    let n := ix / 8192
    let m := ix % 8192
    let cfg := d.cfg (meterReg A.POLICE_M_CFG n m)
    let sz := d.meterSizes n m
    let set (d : Device) (a b : Nat) : Device :=
      { d with sched := { d.sched with meters := tnatSet (tnatSet d.sched.meters (2 * ix) a) (2 * ix + 1) b } }
    let tc := tnat d.sched.meters (2 * ix)
    let tp := tnat d.sched.meters (2 * ix + 1)
    if d.sched.meterDirty.contains ix then
      if F.POLICE_M_CFG_TOC.get cfg = 1 then set d 0 0 else set d sz.1 sz.2
    else
      let (c, d) := d.tokenRefill (F.POLICE_M_CIR_RATE.get (d.cfg (meterReg A.POLICE_M_CIR n m))) t
      if F.POLICE_M_CFG_MODE.get cfg = 1 then
        let (p, d) := d.tokenRefill (F.POLICE_M_PIR_RATE.get (d.cfg (meterReg A.POLICE_M_PIR n m))) t
        set d (min (tc + c.toNat) sz.1) (min (tp + p.toNat) sz.2)
      else set d (min (tc + c.toNat) sz.1) (min (tp + (tc + c.toNat - sz.1)) sz.2)) d
  { d with sched := { d.sched with
      meterDirty := []
      metersShown := d.sched.meters.filterMap fun e => if e.2 / 65536 = 0 then none else some (e.1, e.2 / 65536) } }

-- Eligibility and selection ----------------------------------------------------------------------------------------

/-- The head of a queue: its oldest copy that no selection has taken, and no fence's discard (R31). -/
def Device.headOf (d : Device) (q : Nat) : Option Copy :=
  d.hall.copies.find? fun c => c.queue = q ∧ c.phase = .queued ∧ !d.doomed c

/-- A copy is complete in the Upper Hall: its last cell is written, and any check that holds it back has passed. -/
def Device.complete (d : Device) (c : Copy) : Bool :=
  c.seg == .head && ((d.frame c.frame).map fun f => f.ended && f.checked).getD false

/-- The last boundary at or before time `t`, of the stroke now running or of the next. -/
def Device.edgeBefore (d : Device) (t : Nat) : Nat :=
  let next := (d.clock.stepFree + d.clockGain (d.stroke.inT + (256 - d.stroke.cyc) * d.cycleLen)) / 2 ^ 48
  if next ≤ t then next else d.elapsed

/-- A queue is stopped at time `t` by received PFC or pause, whose quanta run out at a boundary (R41, R105): 8 is link-level
pause. -/
def Device.stoppedAt (d : Device) (q t : Nat) : Bool :=
  (d.port (q / 16)).stops.any fun s => d.edgeBefore t < s.2 ∧ (s.1 = 8 ∨ d.priQueue (q / 16) s.1 = q % 16)

/-- The same at the present command. -/
def Device.stopped (d : Device) (q : Nat) : Bool := d.stoppedAt q d.now

/-- The frame that heads a queue is older than its AGE_LIMIT (R214). -/
def Device.aged (d : Device) (c : Copy) : Bool :=
  let lim := d.fld (A.SCHED_Q_SCHED (c.queue / 512) (c.queue % 512)) F.SCHED_Q_SCHED_AGE_LIMIT
  lim != 0 && decide (usT (10 * lim) < d.now - c.at16)

/-- Cycles from a selection to its frame's first byte at the transmit MAC (R208). -/
def Device.selectLead (d : Device) : Nat := if d.profile.active = 1 then 24 else 36

/-- Eligible (R206), flow control and its gate judged `t` after the present command: when the frame's first byte would reach
the MAC (R208). -/
def Device.eligible (d : Device) (q t : Nat) : Bool :=
  match d.headOf q with
  | none => false
  | some c =>
    d.complete c && !d.stoppedAt q (d.now + t) && d.conforms (queueBucket q) && ((d.groupOf q).map d.conforms).getD true &&
      d.fitsGate q (d.headLen c.uid) (d.clockNow + t)

/-- GATE_WAIT: the head frame waits for a window (R218). -/
def Device.gateWait (d : Device) (q : Nat) : Bool :=
  match d.headOf q with
  | none => false
  | some c => d.gated (q / 16) && d.complete c && !d.fitsGate q (d.headLen c.uid) d.clockNow

/-- The DWRR loop of R207 over queues 4 to 15: the queue chosen, and the state after. -/
def dwrrLoop (elig empty : Nat → Bool) (quantum cl : Nat → Int) : Nat → DwrrSt → Option (Nat × DwrrSt)
  | 0, _ => none
  | f + 1, s =>
    let q := s.cur
    let df := tabGet (fun _ => (0 : Int)) s.deficit q
    let put (v : Int) : Tab Int := tabSet (fun _ => (0 : Int)) s.deficit q v
    let next (t : Tab Int) : DwrrSt := { cur := 4 + (q - 3) % 12, deficit := t, visited := clearBit s.visited q }
    if elig q then
      let df := if bit s.visited q then df else df + quantum q
      if cl q ≤ df then some (q, { s with deficit := put (df - cl q), visited := setBit s.visited q })
      else dwrrLoop elig empty quantum cl f (next (put df))
    else dwrrLoop elig empty quantum cl f (next (if empty q then put 0 else s.deficit))

/-- select of R207, whose loop completes: each round adds at least 256 to an eligible queue's deficit. The queue chosen for port `p`, and its DWRR state after. -/
def Device.pickQueue (d : Device) (p t : Nat) : Option (Nat × DwrrSt) :=
  let elig (k : Nat) : Bool := d.eligible (16 * p + k) t
  let s := d.dwrrOf p
  match (List.range 4).find? elig with
  | some k => some (k, s)
  | none =>
    if !((List.range 12).any fun k => elig (k + 4)) then none
    else
      let weight (k : Nat) : Int :=
        256 * Int.ofNat (max 1 (d.fld (A.SCHED_Q_SCHED (p / 32) (16 * (p % 32) + k)) F.SCHED_Q_SCHED_WEIGHT))
      let cl (k : Nat) : Int := ((d.headOf (16 * p + k)).map fun c => d.headLen c.uid).getD 0
      let debt := (List.range 12).foldl (fun m k =>
        max m ((cl (k + 4) - tabGet (fun _ => (0 : Int)) s.deficit (k + 4)).toNat)) 0
      dwrrLoop elig (fun k => (d.headOf (16 * p + k)).isNone) weight cl (12 * (debt / 256 + 3)) s

/-- A head frame is dropped at selection, and counted for its queue (R214, R219). -/
def Device.dropHead (d : Device) (c : Copy) (code : Nat) : Device :=
  let d := d.queueCount c.queue (if code = 0x60 then 6 else 5) 1
  d.dropCopy c.uid code (c.queue / 512) true none

/-- GATE_OVERSIZE_DROP: drop the head frames of a queue that are longer than each of its windows (R219). -/
def Device.purgeOversize (d : Device) (q : Nat) : Nat → Device
  | 0 => d
  | f + 1 =>
    match d.headOf q with
    | none => d
    | some c =>
      if d.gated (q / 16) ∧ d.complete c ∧ d.gateTooLong q (d.headLen c.uid) then
        (d.dropHead c 0x60).purgeOversize q f
      else d

/-- The scheduler may start a frame on port `p` (R135, R206). -/
def Device.canStart (d : Device) (p : Nat) : Bool :=
  d.running && (d.port p).up && !d.isFenced (p / 32) && (d.port p).lpiTxAt.isNone &&
    !(d.hall.copies.any fun c => c.queue / 16 = p ∧ c.phase = .selected ∧ !d.doomed c) &&
    decide (tnat d.pkt.egStarts (p / 32) < 1024)

/-- One selection: a queue whose head frame aged drops it and the choice is made again (R207, R214). -/
def Device.selectOne (d : Device) (p t : Nat) : Nat → Device
  | 0 => d
  | f + 1 =>
    match d.pickQueue p t with
    | none => d
    | some (k, s) =>
      match d.headOf (16 * p + k) with
      | none => d
      | some c =>
        if d.aged c then (d.dropHead c 0x62).selectOne p t f
        else
          let cl := d.headLen c.uid
          ((d.setDwrr p s).chargeShapers c.uid c.queue cl).startEgress c.uid

/-- EGRESS_SELECT: the scheduler of port `p` selects a queue, and its head frame's egress processing begins (R206 to
R208, R214, R219). -/
def egressSelect (d : Device) (p cyc : Nat) : Device :=
  let d := d.atCyc cyc
  if !d.canStart p then d
  else
    let n := d.hall.copies.length
    let d := if d.gated p then (List.range 16).foldl (fun d k => d.purgeOversize (16 * p + k) n) d else d
    if !d.conforms (portBucket p) then d
    else
      let lead := Device.clockGain d (d.selectLead * d.cycleLen) / 2 ^ 48
      d.selectOne p lead (n + 1)

/-- QUEUE_AGE_DISCARD at the boundary: a queue that is not eligible drops up to 16 aged head frames (R214); one that is too long
for every window counts as that (R225). -/
def Device.ageHeads (d : Device) (q : Nat) : Nat → Device
  | 0 => d
  | f + 1 =>
    match d.headOf q with
    | none => d
    | some c =>
      if !d.aged c then d
      else (d.dropHead c (if d.complete c && d.gateTooLong q (d.headLen c.uid) then 0x60 else 0x62)).ageHeads q f

def Device.ageBoundary (d : Device) : Device :=
  let qs := ((d.hall.copies.filter fun c => c.queue < 16384 ∧ c.phase = .queued ∧ !d.doomed c).map (·.queue)).eraseDups
  qs.foldl (fun d q =>
    match d.headOf q with
    | none => d
    | some c => if d.aged c && !d.eligible q 0 then d.ageHeads q 16 else d) d

-- Cut-through (R21, R56, R208) -------------------------------------------------------------------------------------

/-- A port with this P_CFG is secured (R241). -/
def securedBy (w : Word) : Bool := F.INTEG_P_CFG_TX_EN.get w == 1 || F.INTEG_P_CFG_RX_MODE.get w != 0

/-- The port is store-and-forward for a packet whose stamp's profile is `prof`: by its setting, or in P4 because its gate list runs or
it is secured (R56, R68, R217, R241). -/
def Device.storeForward (d : Device) (prof p : Nat) : Bool :=
  d.flag (ofPort A.PORT_PT_CFG p) F.PORT_PT_CFG_SF || (prof == 4 && (d.listOn p (d.gateSt p) || securedBy (d.integCfg p)))

/-- RX_CT of the port of a frame that started after `s` INTEG writes, treated as 0 for a secured port in P4 (R241, R247, R251). -/
def Device.rxCt (d : Device) (prof s p : Nat) : Bool :=
  let w := d.integAt s (A.INTEG_P_CFG (p / 32) (p % 32))
  F.INTEG_P_CFG_RX_CT.get w == 1 && !(prof == 4 && securedBy w)

/-- CUT_THROUGH_GRANT for the copy just admitted, whose stamp's profile is `prof` (R21, R68, R208): it alone is in its
queue, the port is idle, and its queue would be eligible in the cycle in which its first byte would reach the MAC. -/
def Device.cutThrough (d : Device) (prof uid : Nat) : Device :=
  match d.copy uid with
  | none => d
  | some c =>
    match d.frame c.frame with
    | none => d
    | some f =>
      let p := c.queue / 16
      let alone := (d.hall.copies.filter fun o => o.queue = c.queue ∧ o.uid ≠ uid ∧ o.phase = .queued).isEmpty
      let idle := !(d.pkt.sending.any fun e => e.1 = p)
      let buckets := (d.bucketsOf c.queue).all fun k => d.conforms k
      let lead := Device.clockGain d (d.selectLead * d.cycleLen) / 2 ^ 48
      let speed := prof == 1 || decide (d.portGb p ≤ d.portGb f.inPort)
      if c.queue < 16384 ∧ c.kind ≠ .mirror ∧ c.seg = .head ∧ f.rx ∧ alone ∧ idle ∧ d.canStart p ∧ buckets ∧ speed ∧
          !d.storeForward prof p ∧ d.rxCt prof f.integSeq f.inPort ∧ !d.stoppedAt c.queue (d.now + lead) ∧ !f.secOpen ∧
          (f.sec.map fun k => k.verdict.isNone).getD true then
        let cl := d.headLen uid
        if !d.fitsGate c.queue cl (d.clockNow + lead) then d
        else
          let d := d.event (some f.gal) 0x3002 1 (some c.queue) (d.evOf f c.pass (c.kind == .replica))
          let d := (d.modCopy uid fun c => { c with cut := true }).chargeShapers uid c.queue cl
          (d.addDeficit c.queue (-cl)).startEgress uid
      else d

end Sys2Proof.Machine
end

