-- ==== Sys2Proof/Machine/Billet.lean ====
section
/-! DEFINITION. The Lower Hall's billets: pools, pointers, grants, frees and the pointer caches (R195 to R203). -/

namespace Sys2Proof.Machine

def billetCnt (x : Nat) : Nat := A.BILLET_BILLET_CNT x

/-- Bytes of a billet of pool `p`. -/
def poolBytes (p : Nat) : Nat := 256 * 4 ^ p

/-- Billets in one 256 MiB unit of pool `p`. -/
def perUnit (p : Nat) : Nat := 2 ^ 28 / poolBytes p

/-- Lower Hall address, in 256-byte units, at which pool `p` begins: after the 256 MiB system area and the pools before
it (R195). -/
def poolBase (units : List Nat) (p : Nat) : Nat := (1 + (units.take p).sum) * 2 ^ 20

/-- The pointer of billet `i` of pool `p` (R196). -/
def Device.billetPtr (d : Device) (p i : Nat) : Nat := poolBase d.billet.units p + i * 4 ^ p + p * 2 ^ 29

/-- Pool of a pointer, and its Lower Hall address in bytes. -/
def ptrPool (ptr : Nat) : Nat := ptr / 2 ^ 29 % 4
def ptrAddr (ptr : Nat) : Nat := ptr % 2 ^ 29 * 256

/-- The range and alignment check of R196. -/
def Device.ptrOk (d : Device) (ptr : Nat) : Bool :=
  let p := ptrPool ptr
  let a := ptr % 2 ^ 29
  let base := poolBase d.billet.units p
  decide (ptr < 2 ^ 31 ∧ base ≤ a ∧ a < base + (d.billet.units.getD p 0) * 2 ^ 20 ∧ a % 4 ^ p = 0)

def Device.pool (d : Device) (p : Nat) : Pool := d.billet.pools.getD p {}
def Device.setPool (d : Device) (p : Nat) (v : Pool) : Device :=
  { d with billet := { d.billet with pools := modifyAt d.billet.pools p fun _ => v } }

/-- Pointers in a pool's ring, never granted and written back. -/
def Pool.ringCount (s : Pool) : Nat := s.ring.length + (s.size - s.fresh)

/-- POOL_FREE: free billets in the cache and ring (R203). -/
def Pool.free (s : Pool) : Nat := s.cache.length + s.ringCount

/-- Read the next pointer of a pool's ring. -/
def Device.popRing (d : Device) (p : Nat) : Option (Nat × Device) :=
  let s := d.pool p
  let first := s.fresh + ((List.range d.billet.quarantined.length).takeWhile fun i =>
    d.billet.quarantined.contains (d.billetPtr p (s.fresh + i))).length
  if first < s.size then some (d.billetPtr p first, d.setPool p { s with fresh := first + 1 })
  else match s.ring with
    | [] => none
    | ptr :: rest => some (ptr, d.setPool p { s with ring := rest })

-- Owners (R199) ----------------------------------------------------------------------------------------------------

/-- The owner of a requester. -/
def ownerOf (r : Nat) : Nat :=
  if r < 32 then 0 else if r < 96 then 3 else if r = 96 then 1 else if r = 97 then 2 else if r = 98 then 4 else 5

/-- Reserve of owner `o` in pool `p`, in billets. -/
def Device.ownRes (d : Device) (o p : Nat) : Nat :=
  (d.reg (A.LHALL_OWN_RES0_0 + 0x10 * o + 4 * p)).toNat % 65536 * 2 ^ 20 / poolBytes p

/-- Billets an owner holds in a pool. -/
def Device.ownHeld (d : Device) (o p : Nat) : Nat := tnat d.billet.held (4 * o + p)
def Device.addHeld (d : Device) (o p n : Nat) : Device :=
  { d with billet := { d.billet with held := tnatSet d.billet.held (4 * o + p) (d.ownHeld o p + n) } }
def Device.subHeld (d : Device) (o p n : Nat) : Device :=
  { d with billet := { d.billet with held := tnatSet d.billet.held (4 * o + p) (d.ownHeld o p - n) } }

/-- Bytes an owner holds over all pools. -/
def Device.ownBytes (d : Device) (o : Nat) : Nat := ((List.range 4).map fun p => d.ownHeld o p * poolBytes p).sum

/-- A request of owner `o` for `k` billets of pool `p` is eligible (R199). -/
def Device.billetEligible (d : Device) (o p k : Nat) : Bool :=
  let others := ((List.range 6).map fun x => if x = o then 0 else d.ownRes x p - d.ownHeld x p).sum
  let cap := d.fld (A.LHALL_OWN_MAX o) F.LHALL_OWN_MAX_MIB
  decide (others + k ≤ (d.pool p).free) &&
    (cap == 0x1FFFF || decide (d.ownBytes o + k * poolBytes p ≤ cap * 2 ^ 20))

/-- The smallest pool that holds `n` bytes (R197). -/
def poolFor (n : Nat) : Nat := if n ≤ 256 then 0 else if n ≤ 1024 then 1 else if n ≤ 4096 then 2 else 3

/-- Ask for a billet of at least `n` bytes; `tag` says what for. -/
def Device.askBillet (d : Device) (r n tag : Nat) : Device :=
  let p := poolFor n
  let s := d.pool p
  d.setPool p { s with waiting := s.waiting ++ [(r, tag)] }

/-- Has requester `r` asked for `tag`, or been granted it? -/
def Device.askedBillet (d : Device) (r tag : Nat) : Bool :=
  (d.billet.pools.any fun s => s.waiting.contains (r, tag)) || d.billet.granted.any fun g => g.1 = r ∧ g.2.1 = tag

/-- The pointer granted to `r` for `tag`, not yet taken up. -/
def Device.grantedFor (d : Device) (r tag : Nat) : Option Nat :=
  (d.billet.granted.find? fun g => g.1 = r ∧ g.2.1 = tag).map (·.2.2)

/-- Take up a grant. -/
def Device.takeGrant (d : Device) (r tag : Nat) : Device :=
  { d with billet := { d.billet with granted := d.billet.granted.filter fun g => ¬(g.1 = r ∧ g.2.1 = tag) } }

/-- Hand a billet back: it is held until accepted (R200). -/
def Device.freeBillet (d : Device) (r ptr : Nat) : Device :=
  { d with billet := { d.billet with freeing := d.billet.freeing ++ [(r, ptr)] } }

/-- Withdraw every request of `r` for a tag that passes the test; a grant not taken up is freed. -/
def Device.dropAsks (d : Device) (r : Nat) (which : Nat → Bool) : Device :=
  let pools := d.billet.pools.map fun (s : Pool) =>
    { s with waiting := s.waiting.filter fun w => ¬(w.1 = r ∧ which w.2) }
  let mine := d.billet.granted.filter fun g => g.1 = r ∧ which g.2.1
  let rest := d.billet.granted.filter fun g => ¬(g.1 = r ∧ which g.2.1)
  let d := { d with billet := { d.billet with pools := pools, granted := rest } }
  mine.foldl (fun d g => d.freeBillet r g.2.2) d

/-- A pool that has just become empty raises POOL_EMPTY (R203). -/
def Device.poolEmptied (d : Device) (p before : Nat) : Device :=
  if 0 < before ∧ (d.pool p).free = 0 then d.raise 0xB0000 2 else d

/-- The first of these requesters that the rotation reaches from `rot`. -/
def rotateTo (rot : Nat) (rs : List Nat) : Option Nat :=
  rs.foldl (fun m r => match m with
    | none => some r
    | some b => if (r + 100 - rot) % 100 < (b + 100 - rot) % 100 then some r else some b) none

/-- A grant of pool `p`'s first cached pointer to requester `r`: the state bit, the owner's holding, GRANTS and the rotation
(R199 to R201). -/
def Device.grantTo (d : Device) (p r ptr : Nat) (cache : List Nat) : Device :=
  let s := d.pool p
  let before := s.free
  let d := d.setPool p { s with cache := cache, rot := (r + 1) % 100, grants := s.grants + 1 }
  let d := { d with billet := { d.billet with out := tnatSet d.billet.out ptr (1 + r) } }
  let d := (d.addHeld (ownerOf r) p 1).count (billetCnt p)
  (d.poolEmptied p before).event none 0x8004 1 (some r) {}

/-- The job of requester `r` gets one of its billets; the flow table's storage is complete with its last (R284). -/
def Device.jobGrant (d : Device) (r : Nat) : Device :=
  let jobs := d.billet.jobs.filterMap fun (j : BulkJob) =>
    if j.req = r then (if j.left ≤ 1 then none else some { j with left := j.left - 1, counted := false }) else some j
  let d := { d with billet := { d.billet with jobs := jobs } }
  if r = 96 ∧ !(jobs.any fun j => j.req = 96) then { d with telem := { d.telem with granted := true } } else d

/-- One clock's grant of pool `p`: the first eligible request in rotation, from the cache (R198 to R200). -/
def Device.grantOne (d : Device) (p : Nat) : Device :=
  let s : Pool := d.pool p
  let can := (s.waiting.map (·.1) ++ ((d.billet.jobs.filter fun j => j.pool = p).map (·.req))).filter fun r =>
    d.billetEligible (ownerOf r) p 1
  match s.cache, rotateTo s.rot can with
  | ptr :: cache, some r =>
    let d := d.grantTo p r ptr cache
    match s.waiting.find? fun (w : Nat × Nat) => w.1 = r with
    | none => d.jobGrant r
    | some w =>
      let s := d.pool p
      let d := d.setPool p { s with waiting := s.waiting.erase w, counted := s.counted.erase w }
      { d with billet := { d.billet with granted := d.billet.granted ++ [(r, w.2, ptr)] } }
  | _, _ => d

/-- Requests left over have waited, and are counted once (R200). -/
def Device.countWaits (d : Device) (p : Nat) : Device :=
  let s := d.pool p
  let fresh := s.waiting.filter fun w => !s.counted.contains w
  let jobs := d.billet.jobs.filter fun j => j.pool = p ∧ !j.counted
  let d := { d with billet := { d.billet with
    jobs := d.billet.jobs.map fun (j : BulkJob) => if j.pool = p then { j with counted := true } else j } }
  (d.setPool p { s with counted := s.counted ++ fresh }).countN (billetCnt (4 + p)) (fresh.length + jobs.length)

/-- BILLET_GRANT: pool `p` makes its grant of a clock, and the requests left over wait (R199, R200). -/
def billetGrant (d : Device) (p : Nat) : Device := (d.grantOne p).countWaits p

/-- The grants of `n` further clocks while a requester of many billets has its request before the pool. -/
def Device.jobGrants (d : Device) (p : Nat) : Nat → Device
  | 0 => d
  | n + 1 => if d.billet.jobs.any fun j => j.pool = p then (d.grantOne p).jobGrants p n else d

/-- BILLET_GRANT at the end of a stroke: each pool's clocks in which no other command told of a grant go to the requesters of many
billets (R200; DESIGN CHOICE, log entry 71). -/
def Device.bulkBoundary (d : Device) : Device :=
  (List.range 4).foldl (fun d p =>
    let d := if d.billet.jobs.any fun j => j.pool = p then (d.jobGrants p (256 - (d.pool p).grants)).countWaits p else d
    d.setPool p { d.pool p with grants := 0 }) d

/-- A requester begins to take `k` billets of a pool. -/
def Device.bulkAsk (d : Device) (r p k : Nat) : Device :=
  if k = 0 then d else { d with billet := { d.billet with jobs := d.billet.jobs ++ [{ req := r, pool := p, left := k }] } }

/-- The owner's reserve holds `k` billets of the pool (R164, R274). -/
def Device.reserveHolds (d : Device) (o p k : Nat) : Bool := decide (k ≤ d.ownRes o p)

/-- The billets that a requester holds, by address. -/
def Device.billetsOf (d : Device) (r : Nat) : List Nat := d.billet.out.filterMap fun e => if e.2 = 1 + r then some e.1 else none

/-- Record a refused or ignored free, or a bad ring pointer (R201, R203). -/
def Device.billetErr (d : Device) (ptr r kind : Nat) : Device :=
  let d := d.setReg A.BILLET_ERR_PTR (BitVec.ofNat 32 ptr)
  let d := d.setReg A.BILLET_ERR_SRC (BitVec.ofNat 32 (r + kind * 128))
  if kind = 1 then (d.count (billetCnt 9)).raise 0xB0000 1 else (d.count (billetCnt 8)).raise 0xB0000 0

/-- BILLET_FREE: pool `p` accepts, refuses or ignores the next free in rotation (R200, R201). A full cache of 512 pointers
accepts none until some are written back (R198). -/
def billetFree (d : Device) (p : Nat) : Device :=
  let s := d.pool p
  if 512 ≤ s.cache.length then d else
  let mine := d.billet.freeing.filter fun f => ptrPool f.2 = p
  match rotateTo s.freeRot (mine.map (·.1)) with
  | none => d
  | some r =>
    match mine.find? fun f => f.1 = r with
    | none => d
    | some f =>
      let d := { d with billet := { d.billet with freeing := d.billet.freeing.erase f } }
      let d := d.setPool p { s with freeRot := (r + 1) % 100 }
      if !d.ptrOk f.2 then d.billetErr f.2 r 1
      else if tnat d.billet.out f.2 = 0 then d.billetErr f.2 r 2
      else
        let d := d.subHeld (ownerOf r) p 1
        if d.billet.quarantined.contains f.2 then d
        else
          let d := { d with billet := { d.billet with out := tnatSet d.billet.out f.2 0 } }
          d.setPool p { d.pool p with cache := (d.pool p).cache ++ [f.2] }

/-- Read `n` pointers from the ring into the cache, discarding those that fail R196 (R198). -/
def Device.refill (d : Device) (p : Nat) : Nat → Device
  | 0 => d
  | n + 1 =>
    match d.popRing p with
    | none => d
    | some (ptr, d) =>
      let d := if d.billet.quarantined.contains ptr then d
        else if d.ptrOk ptr then d.setPool p { d.pool p with cache := (d.pool p).cache ++ [ptr] }
        else (d.setPool p { d.pool p with lost := (d.pool p).lost + 1 }).billetErr ptr 0x7F 1
      d.refill p n

/-- Tag of a pool cache's budget requests. -/
def cacheTag (p : Nat) (back : Bool) : Nat := 0x10000000 + 4 * (p + if back then 4 else 0) + 3

/-- BILLET_CACHE_REFILL: below 128 pointers, 64 are read from the ring under the housekeeping budget: 4 units (R198). -/
def billetRefill (d : Device) (p : Nat) : Device :=
  let s := d.pool p
  if 128 ≤ s.cache.length ∨ s.ringCount = 0 then d
  else if !d.canAdmit 0x12 0 4 1 d.stroke.cyc (cacheTag p false) then d.mustWait 0x12 0 (cacheTag p false) 4
  else (((d.spend 0x12 0 4 (cacheTag p false)).lhMoved 4 none).refill p 64)

/-- BILLET_CACHE_WRITEBACK: above 448 pointers, 64 are written back to the ring (R198). -/
def billetWriteback (d : Device) (p : Nat) : Device :=
  let s := d.pool p
  if s.cache.length ≤ 448 then d
  else if !d.canAdmit 0x12 0 4 1 d.stroke.cyc (cacheTag p true) then d.mustWait 0x12 0 (cacheTag p true) 4
  else ((d.spend 0x12 0 4 (cacheTag p true)).lhMoved 4 none).setPool p { s with cache := s.cache.drop 64, ring := s.ring ++ s.cache.take 64 }

-- The split (R195) -------------------------------------------------------------------------------------------------

/-- The rings of a split fit in 240 MiB: 4 MiB, 1 MiB, 256 KiB and 64 KiB for each unit (R195). -/
def ringsFit (units : List Nat) : Bool :=
  decide ((units.getD 0 0) * 4096 + (units.getD 1 0) * 1024 + (units.getD 2 0) * 256 + (units.getD 3 0) * 64 ≤ 240 * 1024)

/-- POOL_SPLIT_CHECK: the configured split, or the reset split where the check fails (R195). Every owner's reserve fits
its pool, summed over the owners. -/
def Device.poolSplit (d : Device) : Device :=
  let want := (List.range 4).map fun p => (d.reg (A.LHALL_POOL_SIZE0 + 4 * p)).toNat % 512
  let resFit := (List.range 4).all fun p =>
    decide (((List.range 6).map fun o => d.ownRes o p).sum ≤ want.getD p 0 * perUnit p)
  let ok := decide (want.sum ≤ 383) && ringsFit want && resFit
  let units := if ok then want else [32, 32, 64, 255]
  { d with billet := { d.billet with
      units := units
      cfgBad := !ok
      pools := (List.range 4).map fun p => ({ size := units.getD p 0 * perUnit p } : Pool) } }

end Sys2Proof.Machine
end

