-- ==== Sys2Proof/Machine/Spill.lean ====
section
/-! DEFINITION. Spill to the Lower Hall and return from it (R191 to R194), and bank sparing (R188, R189). -/

namespace Sys2Proof.Machine

/-- Units of 64 bytes that moving a packet takes (R192). -/
def spillUnits (l : Nat) : Nat := ceilDiv (spillBytes l) 64

/-- Tags of a copy's first and second billet request. -/
def spillTag (uid second : Nat) : Nat := 2 * uid + second

/-- Sizes of the billets a packet of `l` bytes needs (R192). -/
def spillSizes (l : Nat) : List Nat := if 16384 < spillBytes l then [16384, spillBytes l - 16384] else [spillBytes l]

/-- The oldest landing packet of a gallery's queues: the one its spill engine moves next. Packets behind it wait (R192). -/
def Device.nextSpill (d : Device) (n : Nat) : Option Copy :=
  d.hall.copies.find? fun c => c.queue / 512 = n ∧ c.queue < 16384 ∧ c.seg = .landing ∧ !d.doomed c

/-- A packet's last cell is written and its checks have passed. -/
def Frame.whole (f : Frame) : Bool := f.ended && f.checked

/-- Release a copy's cells at the next boundary, the packet itself living on (R178). -/
def Device.freeCells (d : Device) (c : Copy) : Device :=
  let rel := c.charges.reverse.map fun (x : Charge × Nat) => (c.queue, x.1, x.2)
  let d := { d with hall := { d.hall with releasing := d.hall.releasing ++ rel } }
  let others := d.hall.copies.any fun o => o.frame = c.frame ∧ o.uid ≠ c.uid ∧ o.seg ≠ .middle
  let d := d.modCopy c.uid fun c => { c with charges := [] }
  if others then d
  else match d.frame c.frame with
    | none => d
    | some f =>
      let h := { d.hall with freeing := d.hall.freeing ++ f.cells, freeGain := d.hall.freeGain + f.sharedTaken }
      ({ d with hall := h }).setFrame { f with cells := [], gone := 0, sharedTaken := 0 }

/-- The address attribute of a Lower Hall transfer: 64 KiB units (R363). -/
def lhAttr (ptr : Nat) : Nat := ptrAddr ptr / 65536

/-- The head's cells of a queue. -/
def Device.headCells (d : Device) (q : Nat) : Nat :=
  ((d.hall.copies.filter fun c => c.queue = q ∧ c.seg = .head).map Copy.cells).sum

/-- A queue's return engine has work: its head is short and its middle is not empty below RETURN_LOW, 0 treated as 1 (R190, R193). -/
def Device.wantsReturn (d : Device) (q : Nat) : Bool :=
  decide (d.headCells q < max 1 (d.fld (qReg A.HALL_Q_SPILL q) F.HALL_Q_SPILL_RETURN_LOW)) &&
    d.hall.copies.any fun c => c.queue = q ∧ c.seg = .middle ∧ !d.doomed c

/-- The middle packet that the return engine of gallery `n` takes next: the oldest of its first queue that wants one. -/
def Device.nextReturn (d : Device) (n : Nat) : Option (Copy × Frame) :=
  let qs := ((d.hall.copies.filter fun c => c.queue / 512 = n ∧ c.seg = .middle).map (·.queue)).eraseDups
  match qs.find? fun q => d.wantsReturn q with
  | none => none
  | some q =>
    match d.hall.copies.find? fun c => c.queue = q ∧ c.seg = .middle ∧ !d.doomed c with
    | none => none
    | some c => (d.frame c.frame).map fun f => (c, f)

/-- That packet's return can go on now: shared cells are free for it, and both its budgets have room, the spill budget for one piece of
it at the least (R38, R193). -/
def Device.returnReady (d : Device) (n : Nat) : Bool :=
  match d.nextReturn n with
  | none => false
  | some (c, f) =>
    let cells := cellsOf (c.bytesOf f)
    decide (cells ≤ d.hall.free) && d.canAdmit 0x04 n cells 1 d.stroke.cyc c.uid &&
      decide (0 < pieceTake 0x06 (spillUnits (c.bytesOf f) - (assoc d.budget.partly (reqKey 0x06 (2 * n + 1) c.uid)).getD 0)
        (d.budgetFor 0x06 (2 * n + 1) c.uid))

/-- SPILL_RETURN: the return engine of gallery `n` moves the oldest middle packet of its first queue that wants one into
head cells, charged to the queue's shared charge without the threshold test; `bad` when the read finds an uncorrectable
error, which drops the packet (R193). -/
def spillReturn (d : Device) (n : Nat) (bad : Bool) : Device :=
  match d.nextReturn n with
  | none => d
  | some (c, f) =>
    let q := c.queue
    let l := c.bytesOf f
    let cells := cellsOf l
    let units := spillUnits l
    let inst := 2 * n + 1
    if d.hall.free < cells then d
    else if !d.canAdmit 0x04 n cells 1 d.stroke.cyc c.uid then d.mustWait 0x04 n c.uid cells
    else
      let (d, whole) := d.inPieces 0x06 inst units c.uid
      if !whole then d else
      let d := d.event none 0x8003 units (c.billets.head?.map lhAttr) {}
      if bad then d.dropCopy c.uid 0xB1 n true none
      else
        let d := d.leaveLower c l
        let d := d.spend 0x04 n cells c.uid
        let d := d.event (some n) 0x3003 cells (some q) (d.evOf f c.pass (c.kind == .mirror || c.kind == .replica))
        let d := if f.cells.isEmpty then (d.modFrame c.frame fun f => { f with gone := 0 }).allocCells c.frame n cells else d
        let d := d.addCharge q .qShared cells
        let d := { d with hall := { d.hall with free := d.hall.free - cells } }
        let d := d.modFrame c.frame fun f => { f with sharedTaken := f.sharedTaken + cells }
        let d := d.modCopy c.uid fun c =>
          { c with seg := .head, charges := [(.qShared, cells)], returned := 0, read := 0, poolCharge := .qShared, ownCells := true }
        d.count (hallCnt 9)

/-- The last packet of a queue's middle is linked to the one moved after it (R192). -/
def Device.linkSpilled (d : Device) (q ptr : Nat) : Device :=
  match d.hall.copies.reverse.find? fun c => c.queue = q ∧ c.seg = .middle with
  | none => d
  | some l => d.modCopy l.uid fun c => { c with spillHdr := c.spillHdr.map fun h => { h with next := ptr } }

/-- A cell read that finds an uncorrectable error ends every packet that the cell holds, and the row is handed to fault handling
(R180, R389). -/
def Device.cellLost (d : Device) (a : Nat) : Device :=
  let d := d.rowBad (cellPlace a)
  match d.pkt.frames.find? fun e => e.2.cells.contains a with
  | none => d
  | some (id, f) =>
    let d := d.count (hallCnt 5)
    let d := if (d.flight id).isSome then d.dropFlight id 0xB1 none else d
    (d.copiesOf id).foldl (fun d c => if c.seg = .middle then d else d.dropCopy c.uid 0xB1 f.gal false none) d

/-- SPILL_MOVE: the spill engine of gallery `n` moves the oldest landing packet into granted billets, under its budget, and
frees its cells; without a grant it asks for one (R192). A return that can be made goes first (R193). `bad`: the read of its first
cell finds an uncorrectable error, which ends the packet (R180). -/
def spillMove (d : Device) (n : Nat) (bad : Bool) : Device :=
  match d.nextSpill n with
  | none => d
  | some c =>
    match d.frame c.frame with
    | none => d
    | some f =>
      if !f.whole ∨ ((List.range 32).any fun g => d.returnReady g) then d else
      if bad then (f.cells.head?.map d.cellLost).getD d else
      let l := c.bytesOf f
      let sizes := spillSizes l
      let d := (List.range sizes.length).foldl (fun d k =>
        if d.askedBillet n (spillTag c.uid k) then d else d.askBillet n (sizes.getD k 0) (spillTag c.uid k)) d
      let ptrs := (List.range sizes.length).filterMap fun k => d.grantedFor n (spillTag c.uid k)
      let units := spillUnits l
      let inst := 2 * n
      if ptrs.length < sizes.length then d
      else
        let (d, whole) := d.inPieces 0x06 inst units c.uid
        if !whole then d else
        let d := d.event none 0x8003 units (ptrs.head?.map lhAttr) {}
        let d := (List.range sizes.length).foldl (fun d k => d.takeGrant n (spillTag c.uid k)) d
        let d := d.freeCells c
        let d := d.linkSpilled c.queue (ptrs.headD 0)
        let d := d.modCopy c.uid fun c => { c with
          seg := .middle, billets := ptrs
          spillHdr := some { second := ptrs.getD 1 0, len := l, colour := c.colour, stamp := f.stamp, queued := c.at16 } }
        let s := d.queueSt c.queue
        let s := { s with
          lhBytes := s.lhBytes + spillBytes l
          lhPkts := s.lhPkts + 1 }
        (d.setQueueSt c.queue s).count (hallCnt 8)

/-- SPILL_STATE_EXIT: a queue whose middle and landing are empty leaves spill state at the boundary (R191). -/
def Device.spillBoundary (d : Device) : Device :=
  let qs := d.hall.queues.filterMap fun e => if e.2.spilling then some e.1 else none
  qs.foldl (fun d q =>
    if d.hall.copies.any fun c => c.queue = q ∧ c.seg ≠ .head then d
    else d.setQueueSt q { d.queueSt q with spilling := false }) d

-- Banks (R188, R189) -----------------------------------------------------------------------------------------------

/-- Logical banks in service, and spares (R176). -/
def logicalBanks : Nat := 1504
def spareBanks : Nat := 32

/-- Tag of a bank copy's budget requests. -/
def bankTag (b : Nat) : Nat := 0x10000000 + 4 * b + 2

/-- The physical bank of a logical one; none once it is lost (R176, R189). -/
def Device.physBank (d : Device) (b : Nat) : Option Nat :=
  let m := tnat d.hall.bankMap b
  if m = 0 then some b else if m = 0xFFFF then none else some m

/-- The live cells of a logical bank. -/
def Device.bankCells (d : Device) (b : Nat) : List Nat :=
  (d.pkt.frames.flatMap fun e => e.2.cells.filter fun a => a / 1024 = b) ++ d.hall.freeing.filter fun a => a / 1024 = b

/-- The copy of a bank to the lowest-numbered free spare begins (R188). -/
def Device.bankStart (d : Device) (b : Nat) : Device :=
  let k : BankCopy := { bank := b, spare := logicalBanks + d.hall.sparesUsed, todo := d.bankCells b, last := d.strokeNo }
  { d with hall := { d.hall with copying := some k } }

/-- Fault handling retires a logical bank: it is copied to the lowest-numbered free spare, after any copy in progress; with
no spare its cells drain (R188, R189). -/
def Device.retireBank (d : Device) (b : Nat) : Device :=
  if d.bankClosed b then d
  else
    let d := { d with hall := { d.hall with lastBank := b } }
    let waiting := d.hall.bankQueue.length + b2n d.hall.copying.isSome
    if spareBanks ≤ d.hall.sparesUsed + waiting then
      { d with hall := { d.hall with bankDrain := d.hall.bankDrain ++ [b] } }
    else if d.hall.copying.isSome then { d with hall := { d.hall with bankQueue := d.hall.bankQueue ++ [b] } }
    else d.bankStart b

/-- BANK_COPY: live cells of the bank being retired are copied to the same index of its spare under the housekeeping
budget, at most four in one piece; a cell freed before its copy is not copied. `bad`: the copy of the next cell finds an
uncorrectable error, which ends its packet (R38, R180, R188). -/
def bankCopy (d : Device) (bad : Bool) : Device :=
  match d.hall.copying with
  | none => d
  | some k =>
    let live := k.todo.filter d.cellLive
    let n := if bad then min 1 live.length else min 4 live.length
    let keep (d : Device) (todo : List Nat) (last : Nat) : Device :=
      { d with hall := { d.hall with copying := some { k with todo := todo, last := last } } }
    if n = 0 then keep d [] k.last
    else if !d.canAdmit 0x11 0 n 1 d.stroke.cyc (bankTag k.bank) then (keep d live k.last).mustWait 0x11 0 (bankTag k.bank) n
    else
      let d := keep (d.spend 0x11 0 n (bankTag k.bank)) (live.drop n) d.strokeNo
      if bad then d.cellLost (live.headD 0) else d.countN (hallCnt 10) n

/-- BANK_REMAP, at the boundary after the last copy: the logical bank maps to its spare, and the next retired bank's copy
starts (R188, R204). -/
def bankRemap (d : Device) : Device :=
  match d.hall.copying with
  | none => d
  | some k =>
    if !(k.todo.filter d.cellLive).isEmpty ∨ d.strokeNo ≤ k.last ∨ d.stroke.cyc ≠ 0 then d
    else
      let d := { d with hall := { d.hall with
        bankMap := tnatSet d.hall.bankMap k.bank k.spare
        sparesUsed := d.hall.sparesUsed + 1
        copying := none } }
      let d := { d with ras := { d.ras with
        spared := d.ras.spared.filter fun r => !(r.place.unit = 1 ∧ r.place.addr / 1024 = k.bank) } }
      let d := d.raise 0x90000 0
      match d.hall.bankQueue with
      | [] => d
      | b :: rest => ({ d with hall := { d.hall with bankQueue := rest } }).bankStart b

/-- BANK_LOST, at the boundary at which the last cell of a retired bank without a spare is freed: the shared total falls
by 1,024 (R60, R189). -/
def bankLost (d : Device) : Device :=
  match d.hall.bankDrain.find? fun b => (d.bankCells b).isEmpty ∧ tnat d.hall.bankMap b ≠ 0xFFFF with
  | none => d
  | some b =>
    if d.stroke.cyc ≠ 0 then d
    else
      let d := { d with hall := { d.hall with bankMap := tnatSet d.hall.bankMap b 0xFFFF } }
      (d.resizeShared (d.hall.sharedTotal - 1024)).raise 0x90000 1

end Sys2Proof.Machine
end

