-- ==== Sys2Proof/Machine/Inject.lean ====
section
/-! DEFINITION. Frames the LX204 makes or takes from the host: injection into a gallery's ingress (R19, R48, R314, R340),
direct admission to a queue, and the filling of message templates (R151, R293). -/

namespace Sys2Proof.Machine

/-- A new frame of the given bytes, FCS added, with its timestamps at the present time. -/
def Device.newFrame (d : Device) (gal inPort origin iclass : Nat) (untracked : Bool) (body : Bytes) : Frame :=
  let bs := body ++ fcsOf body
  { id := d.pkt.nextId, gal := gal, inPort := inPort, rx := false, origin := origin, untracked := untracked, bytes := bs,
    got := bs.length, ended := true, start := d.absCyc, tsClk := d.clockNow, tsFree := d.stepFreeNow, iclass := iclass,
    maxFrame := bs.length }

def Device.addFrame (d : Device) (f : Frame) : Device :=
  { d with pkt := { d.pkt with frames := d.pkt.frames ++ [(f.id, f)], nextId := f.id + 1 } }

/-- A frame enters its gallery's ingress from a source of R19: its header is ready. -/
def Device.injectFrame (d : Device) (f : Frame) (src : FlightSrc) : Device :=
  let x : Flight := { id := f.id, gal := f.gal, src := src, ready := d.absCyc, iclass := f.iclass }
  let d := d.addFrame f
  { d with pkt := { d.pkt with flights := d.pkt.flights ++ [x] } }

/-- A frame joins a queue without the ingress stages; a refused one is dropped (R340). -/
def Device.direct (d : Device) (f : Frame) (q : Nat) (originAt : Option Nat) : Device :=
  let f := { f with stamp := d.gen.active }
  let d := d.addFrame f
  let (d, uid) := d.admitCopy { frame := f.id, queue := q, kind := .direct, gal := f.gal, originAt := originAt } true 0
  match uid with
  | .copy _ => d
  | .refused code => (d.flowFinish f.id (some code) none).releaseFrame f.id

/-- Fill a message template that ends at its UDP header, for `after` bytes that follow: the IP length at `ip`, the UDP
length at `udp` with a checksum of 0, and the IPv4 checksum (R151, R293). -/
def fillUdp (v6 : Bool) (ip udp : Nat) (t : Bytes) (after : Nat) : Bytes :=
  let t := if v6 then patchBytes t (ip + 4) (beBytes 2 (t.length - ip - 40 + after))
    else patchBytes t (ip + 2) (beBytes 2 (t.length - ip + after))
  let t := patchBytes (patchBytes t (udp + 4) (beBytes 2 (t.length - udp + after))) (udp + 6) (zeroBytes 2)
  if v6 then t
  else patchBytes t ip (ipv4Checksum (sliceBytes t ip (min (byteAt t ip % 16 * 4) (t.length - ip))))

end Sys2Proof.Machine
end

