-- ==== Sys2Proof/Machine/Reduce.lean ====
section
/-! DEFINITION. The arithmetic of the anvils: element types, exact sums and their one rounding, maxima and minima (R297 to
R300). -/

namespace Sys2Proof.Machine

/-- A floating-point type: exponent and fraction bits. `ieee`: its top exponent holds Inf and NaN; otherwise only the
all-ones encoding is NaN and there is no Inf (E4M3). -/
structure FloatType where
  e : Nat
  m : Nat
  ieee : Bool
  /-- the canonical quiet NaN (R300) -/
  nan : Nat
deriving DecidableEq, Repr

/-- The floating-point element types (R297); none for int32 and the reserved values. -/
def floatType : Nat → Option FloatType
  | 0 => some ⟨8, 23, true, 0x7FC00000⟩
  | 1 => some ⟨8, 7, true, 0x7FC0⟩
  | 2 => some ⟨5, 10, true, 0x7E00⟩
  | 3 => some ⟨4, 3, false, 0x7F⟩
  | 4 => some ⟨5, 2, true, 0x7E⟩
  | _ => none

/-- Bytes of an element (R297). -/
def elemBytes (etype : Nat) : Nat := if etype = 0 ∨ etype = 5 then 4 else if etype = 1 ∨ etype = 2 then 2 else 1

/-- Accumulator bits of an element (R297). -/
def accBits (etype : Nat) : Nat := if etype = 0 ∨ etype = 1 then 320 else 64

/-- Granules that a chunk of `c` bytes takes (R297). -/
def granulesOf (etype c : Nat) : Nat := ceilDiv (c / elemBytes etype * accBits etype) 65536

/-- The sign bit's place, and the bits below it. -/
def FloatType.width (t : FloatType) : Nat := t.e + t.m
def FloatType.sign (t : FloatType) (x : Nat) : Bool := bit x t.width
def FloatType.mag (t : FloatType) (x : Nat) : Nat := x % 2 ^ t.width

/-- The encoding of infinity, sign apart. -/
def FloatType.infMag (t : FloatType) : Nat := (2 ^ t.e - 1) * 2 ^ t.m

def FloatType.isNan (t : FloatType) (x : Nat) : Bool :=
  if t.ieee then decide (t.infMag < t.mag x) else t.mag x == 2 ^ t.width - 1
def FloatType.isInf (t : FloatType) (x : Nat) : Bool := t.ieee && t.mag x == t.infMag

/-- The magnitude of a finite value in units of the smallest subnormal: subnormals are taken exactly (R299). -/
def FloatType.units (t : FloatType) (x : Nat) : Nat :=
  let ex := t.mag x / 2 ^ t.m
  let fr := x % 2 ^ t.m
  if ex = 0 then fr else (2 ^ t.m + fr) * 2 ^ (ex - 1)

/-- Order of two encodings that are not NaN: minus zero lies below plus zero (R300). -/
def FloatType.rank (t : FloatType) (x : Nat) : Int :=
  if t.sign x then -(Int.ofNat (t.mag x)) - 1 else Int.ofNat (t.mag x)

/-- Round a magnitude in units to the type once, to nearest even: its encoding as if exponents had no top (R299). -/
def FloatType.round (t : FloatType) (u : Nat) : Nat :=
  if u < 2 ^ (t.m + 1) then u
  else
    let k := Nat.log2 u - t.m
    let q := u / 2 ^ k
    let r := u % 2 ^ k
    let half := 2 ^ (k - 1)
    let q := if half < r ∨ (r = half ∧ q % 2 = 1) then q + 1 else q
    k * 2 ^ t.m + q

/-- The largest finite encoding, sign apart. -/
def FloatType.maxMag (t : FloatType) : Nat := if t.ieee then t.infMag - 1 else 2 ^ t.width - 2

/-- Take one element into its accumulator (R299, R300). -/
def ElemAcc.take (etype op : Nat) (a : ElemAcc) (x : Nat) : ElemAcc :=
  match floatType etype with
  | none =>
    let v := signed x 32
    let better (b : Nat) : Bool := if op = 1 then decide (signed b 32 < v) else decide (v < signed b 32)
    { a with sum := a.sum + v, best := some (match a.best with
      | none => x
      | some b => if better b then x else b) }
  | some t =>
    if t.isNan x then { a with nan := true }
    else
      let s := t.sign x
      let inf := t.isInf x
      let u := Int.ofNat (t.units x)
      let better (b : Nat) : Bool := if op = 1 then decide (t.rank b < t.rank x) else decide (t.rank x < t.rank b)
      { a with
        sum := if inf then a.sum else if s then a.sum - u else a.sum + u
        posInf := a.posInf || (inf && !s)
        negInf := a.negInf || (inf && s)
        negZero := a.negZero && s && t.mag x == 0
        best := some (match a.best with
          | none => x
          | some b => if better b then x else b) }

/-- An element's result and whether it saturated (R299, R300). -/
def ElemAcc.result (etype op : Nat) (a : ElemAcc) : Nat × Bool :=
  match floatType etype with
  | none =>
    if op = 0 then
      if 2 ^ 31 - 1 < a.sum then (0x7FFFFFFF, true)
      else if a.sum < -(2 ^ 31) then (0x80000000, true)
      else (unsignedOf a.sum 32, false)
    else (a.best.getD 0, false)
  | some t =>
    if a.nan then (t.nan, false)
    else if op ≠ 0 then (a.best.getD 0, false)
    else if a.posInf && a.negInf then (t.nan, false)
    else if a.posInf then (t.infMag, false)
    else if a.negInf then (2 ^ t.width + t.infMag, false)
    else if a.sum = 0 then (if a.negZero then 2 ^ t.width else 0, false)
    else
      let s := if a.sum < 0 then 2 ^ t.width else 0
      let r := t.round a.sum.natAbs
      if r ≤ t.maxMag then (s + r, false)
      else if t.ieee then (s + t.infMag, false) else (s + t.maxMag, true)

/-- The elements of a payload, little-endian, element 0 first (R297). -/
def elements (etype : Nat) (bs : Bytes) : List Nat :=
  (List.range (bs.length / elemBytes etype)).map fun j => leAt bs (j * elemBytes etype) (elemBytes etype)

/-- Take a contribution's elements into a chunk's accumulators. -/
def accumulate (etype op : Nat) (acc : List ElemAcc) (bs : Bytes) : List ElemAcc :=
  List.zipWith (fun a x => a.take etype op x) acc (elements etype bs)

/-- A chunk's result as bytes, and SAT. -/
def formResult (etype op : Nat) (acc : List ElemAcc) : Bytes × Bool :=
  let r := acc.map fun a => a.result etype op
  (r.flatMap fun x => leBytes (elemBytes etype) x.1, r.any (·.2))

end Sys2Proof.Machine
end

