-- ==== Sys2Proof/Machine/Anvil.lean ====
section
/-! DEFINITION. The anvils: groups, messages, chunks, timers and retained results (R296 to R316). -/

namespace Sys2Proof.Machine

def anvCnt (x : Nat) : Nat := A.ANVIL_ANV_CNT x

/-- A group register, behind ANVIL.G_SEL (R315). -/
def gReg (a g : Nat) : Nat := banked a g

def Device.redGroup (d : Device) (g : Nat) : RedGroup := tabGet (fun _ => {}) d.anvil.groups g
def Device.setGroup (d : Device) (g : Nat) (v : RedGroup) : Device :=
  { d with anvil := { d.anvil with groups := tabSet (fun _ => {}) d.anvil.groups g v } }

/-- A field of a group's descriptor. -/
def Device.gFld (d : Device) (a g : Nat) (f : Fld) : Nat := f.get (d.reg (gReg a g))

/-- The serving anvil, and the settings of R315 with their bounds. -/
def Device.gAnvil (d : Device) (g : Nat) : Nat := d.gFld A.ANVIL_G_CFG g F.ANVIL_G_CFG_ANVIL
/-- The orchestration sequencer of a group's anvil is running (R317, R324). -/
def Device.anvilSeq (d : Device) (g : Nat) : Bool := d.seqOn (8 + d.gAnvil g / 16)
def Device.gEtype (d : Device) (g : Nat) : Nat := d.gFld A.ANVIL_G_CFG g F.ANVIL_G_CFG_ETYPE
def Device.gOp (d : Device) (g : Nat) : Nat := d.gFld A.ANVIL_G_CFG g F.ANVIL_G_CFG_OP
def Device.gRoot (d : Device) (g : Nat) : Bool := d.gFld A.ANVIL_G_CFG g F.ANVIL_G_CFG_ROOT == 1
def Device.gWindow (d : Device) (g : Nat) : Nat := d.gFld A.ANVIL_G_CFG g F.ANVIL_G_CFG_WINDOW_M1 + 1
def Device.gChunk (d : Device) (g : Nat) : Nat := 64 * min 64 (max 1 (d.gFld A.ANVIL_G_CFG g F.ANVIL_G_CFG_CHUNK_64))
def Device.gMembers (d : Device) (g : Nat) : Nat := min 1024 (max 1 (d.gFld A.ANVIL_G_MEMBERS g F.ANVIL_G_MEMBERS_MEMBERS))
def Device.gIndex (d : Device) (g : Nat) : Nat := d.gFld A.ANVIL_G_MEMBERS g F.ANVIL_G_MEMBERS_MY_INDEX
def Device.gRetain (d : Device) (g : Nat) : Nat := d.gFld A.ANVIL_G_RETAIN g F.ANVIL_G_RETAIN_RETAIN_MS

/-- The groups that are valid. -/
def Device.groupsOn (d : Device) : List Nat := d.anvil.groups.filterMap fun e => if e.2.valid then some e.1 else none

/-- Unreserved granules of an anvil (R315). -/
def Device.granFree (d : Device) (a : Nat) : Nat :=
  256 - ((d.groupsOn.filter fun g => d.gAnvil g = a).map fun g => (d.redGroup g).gran).sum

-- Messages (R301) --------------------------------------------------------------------------------------------------

/-- An Omlirel Reduce header. -/
structure RedMsg where
  version : Nat
  typ : Nat
  etype : Nat
  op : Nat
  sat : Bool
  len : Nat
  group : Nat
  member : Nat
  seq : Nat
  epoch : Nat
  switchId : Nat
  folded : Nat
deriving DecidableEq, Repr

/-- Read the header at offset `o` (R301). -/
def readMsg (bs : Bytes) (o : Nat) : RedMsg :=
  let b0 := byteAt bs o
  let b1 := byteAt bs (o + 1)
  { version := b0 / 16, typ := b0 % 16, etype := b1 % 16, op := b1 / 16 % 4, sat := bit b1 6, len := beAt bs (o + 2) 2,
    group := beAt bs (o + 4) 2, member := beAt bs (o + 6) 2 % 1024, seq := beAt bs (o + 8) 4, epoch := beAt bs (o + 12) 4,
    switchId := beAt bs (o + 16) 2, folded := beAt bs (o + 20) 4 }

/-- The 32 bytes of a header (R301). -/
def RedMsg.bytes (m : RedMsg) (resend : Bool) : Bytes :=
  beBytes 1 (m.version * 16 + m.typ) ++ beBytes 1 (m.etype + m.op * 16 + b2n m.sat * 64 + b2n resend * 128) ++
    beBytes 2 m.len ++ beBytes 2 m.group ++ beBytes 2 m.member ++ beBytes 4 m.seq ++ beBytes 4 m.epoch ++
    beBytes 2 m.switchId ++ zeroBytes 2 ++ beBytes 4 m.folded ++ zeroBytes 8

/-- Where the Omlirel header of a packet begins (R303). -/
def Device.redHdr (d : Device) (v : Phv) : Option Nat :=
  (v.hdrs.find? fun h => h.id = d.fld A.ANVIL_A_CFG F.ANVIL_A_CFG_HDR_ID).map (·.ofs)

/-- What the ingress gallery decides of a TO_ANVIL packet: its anvil, or the counter of its refusal (R303). -/
def Device.anvilRoute (d : Device) (v : Phv) (bs : Bytes) : Nat ⊕ Nat :=
  match d.redHdr v with
  | none => .inr 6
  | some o =>
    let m := readMsg bs o
    if m.version ≠ 1 ∨ m.typ = 0 ∨ 4 < m.typ then .inr 6
    else if !(d.redGroup m.group).valid ∨ d.isFenced (d.gAnvil m.group / 2) then .inr 7
    else .inl (d.gAnvil m.group)

/-- Count a refusal of R303; BAD_MSG also raises its interrupt. -/
def Device.countBad (d : Device) (x : Nat) : Device :=
  let d := d.count (anvCnt x)
  if x = 6 then d.raise 0xC0000 3 else d

/-- Bytes `o` to `o + n - 1` of a message; bytes it does not have are open. -/
def Device.msgBytes (d : Device) (bs : Bytes) (o : Nat) : Nat → Device × Bytes
  | 0 => (d, [])
  | n + 1 =>
    let (b, d) := if o < bs.length then (byteAt bs o, d) else d.free 8
    let (d, rest) := d.msgBytes bs (o + 1) n
    (d, BitVec.ofNat 8 b :: rest)

-- Sending (R308 to R310, R314) -------------------------------------------------------------------------------------

/-- The bytes of an anvil template (R315). -/
def Device.anvilTpl (d : Device) (t : Nat) : Bytes :=
  let len := min 128 (d.fld (A.ANVIL_T_CFG t) F.ANVIL_T_CFG_LEN)
  ((List.range 32).flatMap fun w => beBytes 4 (d.cfg (A.ANVIL_T_BYTES t w)).toNat).take len

/-- Inject a message of group `g` into its anvil's gallery: its headers, then the Omlirel header and payload. -/
def Device.injectMsg (d : Device) (g iclass : Nat) (headers body : Bytes) : Device :=
  let a := d.gAnvil g
  let n := a / 2
  let (p, d) := d.free 5
  d.injectFrame (d.newFrame n (32 * n + p) 3 iclass true (headers ++ body)) (.anvil (a % 2))

/-- Send a message under template `t`. -/
def Device.sendMsg (d : Device) (g t : Nat) (m : RedMsg) (resend : Bool) (payload : Bytes) : Device :=
  let cfg := d.cfg (A.ANVIL_T_CFG t)
  let body := m.bytes resend ++ payload
  let hdr := fillUdp (F.ANVIL_T_CFG_V6.get cfg = 1) (F.ANVIL_T_CFG_IP_OFS.get cfg) (F.ANVIL_T_CFG_UDP_OFS.get cfg)
    (d.anvilTpl t) body.length
  d.injectMsg g (F.ANVIL_T_CFG_ICLASS.get cfg) hdr body

def Device.tplUp (d : Device) (g : Nat) : Nat := d.gFld A.ANVIL_G_TPL g F.ANVIL_G_TPL_TPL_UP
def Device.tplDown (d : Device) (g : Nat) : Nat := d.gFld A.ANVIL_G_TPL g F.ANVIL_G_TPL_TPL_DOWN

/-- A message of the group, before its type's own fields. -/
def Device.msgOf (d : Device) (g typ seq len member folded : Nat) (sat : Bool) : RedMsg :=
  { version := 1, typ := typ, etype := d.gEtype g, op := d.gOp g, sat := sat, len := len, group := g, member := member,
    seq := seq, epoch := d.gFld A.ANVIL_G_EPOCH g F.ANVIL_G_EPOCH_EPOCH,
    switchId := d.fld A.TIME_LEDGER_ID F.TIME_LEDGER_ID_SWITCH_ID, folded := folded }

/-- A RESULT goes down (R308). -/
def Device.sendResult (d : Device) (g seq folded : Nat) (sat : Bool) (payload : Bytes) : Device :=
  ((d.sendMsg g (d.tplDown g) (d.msgOf g 2 seq payload.length 0 folded sat) false payload).count (anvCnt 8))

/-- A chunk's CONTRIB goes up (R308, R309). -/
def Device.sendUp (d : Device) (g : Nat) (c : Chunk) (resend : Bool) : Device :=
  d.sendMsg g (d.tplUp g) (d.msgOf g 1 c.seq c.payload.length (d.gIndex g) c.folded c.sat) resend c.payload

-- Chunks -----------------------------------------------------------------------------------------------------------

def Device.setChunk (d : Device) (g : Nat) (c : Chunk) : Device :=
  let s := d.redGroup g
  d.setGroup g { s with chunks := s.chunks.filter (fun o => o.seq ≠ c.seq) ++ [c] }

def RedGroup.chunk (s : RedGroup) (seq : Nat) : Option Chunk := s.chunks.find? fun c => c.seq = seq

/-- LOW after a release: the lowest SEQ not yet released (R308). -/
def advanceLow : Nat → Nat → List Nat → Nat × List Nat
  | 0, low, rel => (low, rel)
  | f + 1, low, rel =>
    if rel.contains low then advanceLow f ((low + 1) % 2 ^ 32) (rel.filter (· ≠ low)) else (low, rel)

/-- The expiry of a result released now (R312). -/
def Device.retainUntil (d : Device) (g : Nat) : Nat := d.now + msT (d.gRetain g)

/-- An index page that has been granted is taken up (R312). -/
def Device.takeIndex (d : Device) (g : Nat) : Device :=
  let r := 32 + d.gAnvil g
  match d.grantedFor r (2 * g) with
  | some ptr => (d.takeGrant r (2 * g)).setGroup g { d.redGroup g with index := some ptr }
  | none => d

/-- The group's index page is granted (R312, R315). -/
def Device.indexOk (d : Device) (g : Nat) : Bool :=
  (d.redGroup g).index.isSome || (d.grantedFor (32 + d.gAnvil g) (2 * g)).isSome

/-- RETAIN_MS, an index page and a staging buffer: the result is kept; without a buffer it is skipped (R312). -/
def Device.retain (d : Device) (g seq folded : Nat) (sat : Bool) (payload : Bytes) : Device :=
  let a := d.gAnvil g
  let d := d.takeIndex g
  if d.gRetain g = 0 ∨ (d.redGroup g).index.isNone then d
  else if 16 ≤ (d.anvil.staged.filter fun s => s.anvil = a).length then (d.count (anvCnt 15)).raise 0xC0000 2
  else
    let tag := d.anvil.nextTag
    let s : Staged := { tag := tag, anvil := a, group := g, seq := seq, payload := payload, sat := sat, folded := folded,
                        dies := d.retainUntil g, since := d.now }
    let d := { d with anvil := { d.anvil with staged := d.anvil.staged ++ [s], nextTag := tag + 1 } }
    d.askBillet (32 + a) 4096 (2 * tag + 1)

/-- Release a chunk (R308). -/
def Device.releaseChunk (d : Device) (g seq : Nat) : Device :=
  let s := d.redGroup g
  let (low, rel) := advanceLow (s.released.length + 1) s.low (seq :: s.released)
  d.setGroup g { s with chunks := s.chunks.filter (fun c => c.seq ≠ seq), low := low, released := rel }

/-- CHUNK_ABORT: ABORT goes down, and up unless the group is a root; nothing is retained (R310). Without its
orchestration sequencer none is sent (R324). -/
def Device.abortChunk (d : Device) (g seq : Nat) : Device :=
  let quiet := !d.anvilSeq g
  let d := if quiet then d else d.sendMsg g (d.tplDown g) (d.msgOf g 4 seq 0 0 0 false) false []
  let d := if quiet ∨ d.gRoot g then d else d.sendMsg g (d.tplUp g) (d.msgOf g 4 seq 0 (d.gIndex g) 0 false) false []
  ((d.releaseChunk g seq).count (anvCnt 13)).raise 0xC0000 0

/-- RESULT_FORM: the complete chunk's result is formed, and sent down or up (R299, R308). A SAT that only a contribution
carried leaves the result's SAT open. -/
def Device.formChunk (d : Device) (g : Nat) (c : Chunk) : Device :=
  let (payload, sat) := formResult (d.gEtype g) (d.gOp g) c.acc
  let (sat, d) := if !sat && c.satIn then let (b, d) := d.free 1; (b == 1, d) else (sat, d)
  let d := if sat then d.count (anvCnt 14) else d
  let c := { c with payload := payload, sat := sat, acc := [] }
  if d.gRoot g then
    ((d.sendResult g c.seq c.folded sat payload).releaseChunk g c.seq).retain g c.seq c.folded sat payload
  else
    let stk := max 1 (d.gFld A.ANVIL_G_TMR g F.ANVIL_G_TMR_UP_STK)
    let c := { c with st := .awaitParent, tries := 0, armed := d.strokeNo, due := d.strokeNo + stk + 1 }
    ((d.setChunk g c).sendUp g c false).count (anvCnt 9)

-- The input queue --------------------------------------------------------------------------------------------------

/-- The message at the head of an anvil's input queue, its frame and where its header begins. -/
def Device.anvilHead (d : Device) (a : Nat) : Option (Copy × Frame × Nat × RedMsg) :=
  match d.hall.copies.find? fun c => c.queue = anvilQueue a with
  | none => none
  | some c =>
    match d.frame c.frame with
    | none => none
    | some f =>
      if !f.ended ∨ !f.checked then none
      else match d.redHdr c.phv with
        | none => none
        | some o => some (c, f, o, readMsg f.bytes o)

/-- Take the message at the head of anvil `a`'s input queue, if it is of type `typ`, once the anvil has read its cells under
its gallery's cell-read budget (R178, R303). -/
def Device.anvilRead (d : Device) (a typ : Nat) : Device × Option (Copy × Frame × Nat × RedMsg) :=
  match d.anvilHead a with
  | none => (d, none)
  | some (c, f, o, m) =>
    if m.typ ≠ typ then (d, none)
    else
      let d := (d.modCopy c.uid fun c => { c with phase := .selected }).readCells c.uid
      match d.copy c.uid with
      | none => (d, none)
      | some c => if c.read < cellsOf (c.bytesOf f) then (d, none) else (d, some (c, f, o, m))

/-- The message is taken: its packet's life ends, delivered (R277). -/
def Device.takeMsg (d : Device) (c : Copy) : Device := (d.flowFinish c.frame none none).endCopy c.uid

/-- The message is dropped by its anvil. -/
def Device.dropMsg (d : Device) (c : Copy) (code : Nat) : Device :=
  d.dropCopy c.uid code ((c.queue - 16384) / 2) false none

/-- The issues of the message at the head of anvil `a`'s queue, which may take several strokes (R38, R296). -/
def Device.issue (d : Device) (a n : Nat) (c : Copy) : Device × Bool :=
  let (d, whole) := d.inPieces 0x0D a n c.uid
  if whole then (d.event none 0x8007 n (some a) {}, true) else (d, false)

/-- SEQ is not open and not before LOW (R303, R307). -/
def Device.seqAhead (d : Device) (m : RedMsg) : Bool :=
  let low := (d.redGroup m.group).low
  decide (d.gWindow m.group ≤ subMod 32 m.seq low) && !beforeMod 32 m.seq low

/-- The checks that R303 makes of every message at the anvil: the counter of a refusal. An ABORT for a chunk that is held
aborts it whoever sent it, as R310 says of a member's (DEDUCED, log entry 72). -/
def Device.msgBad (d : Device) (m : RedMsg) : Option Nat :=
  let g := m.group
  let held := ((d.redGroup g).chunk m.seq).isSome
  if !(d.redGroup g).valid then some 7
  else if m.epoch ≠ d.gFld A.ANVIL_G_EPOCH g F.ANVIL_G_EPOCH_EPOCH ∨ m.etype ≠ d.gEtype g ∨ m.op ≠ d.gOp g then some 6
  else if m.typ = 1 then
    let first := ((d.redGroup g).chunk m.seq).map (·.len)
    if d.gMembers g ≤ m.member then some 6
    else if m.len = 0 ∨ d.gChunk g < m.len ∨ m.len % elemBytes (d.gEtype g) ≠ 0 ∨ ((first.map (· != m.len)).getD false) = true then
      some 6
    else if d.seqAhead m then some 5
    else none
  else if !(m.typ = 4 ∧ held) ∧
      (d.gRoot g ∨ m.switchId ≠ d.gFld A.ANVIL_G_PARENT g F.ANVIL_G_PARENT_PARENT_ID) then some 6
  else if d.seqAhead m then some 5
  else none

/-- Take a message of type `typ` that has passed the checks of R303; one that has not is dropped and counted. -/
def Device.anvilTake (d : Device) (a typ : Nat) : Device × Option (Copy × Frame × Nat × RedMsg) :=
  match d.anvilRead a typ with
  | (d, none) => (d, none)
  | (d, some (c, f, o, m)) =>
    match d.msgBad m with
    | some x => ((d.countBad x).dropMsg c 0xA0, none)
    | none => (d, some (c, f, o, m))

/-- The IP header that precedes the UDP header at `udp` (R311): an entry of HDR_LIST, or where the parse has none there, the one that
the EtherType leads to, or the nearest header that leads to this UDP header (DEDUCED, log entry 72). -/
def ipBefore (hs : List HdrEnt) (bs : Bytes) (udp : Nat) : Nat :=
  let leads (o : Nat) : Bool := udpOfIp bs o == some udp
  match (hs.filter fun h => 0 < h.ofs ∧ leads h.ofs).getLast? with
  | some h => h.ofs
  | none =>
    match (outerIp bs).filter leads with
    | some o => o
    | none => ((List.range udp).reverse.find? leads).getD 14

/-- The headers of a received message, turned round for an answer to its sender (R311). -/
def turnRound (hs : List HdrEnt) (bs : Bytes) (o : Nat) (after : Nat) : Bytes :=
  let t := bs.take o
  let t := patchBytes t 0 (sliceBytes bs 6 6 ++ sliceBytes bs 0 6)
  let udp := o - 8
  let ip := ipBefore hs bs udp
  let v6 := byteAt bs ip / 16 = 6
  let t := if v6 then patchBytes t (ip + 8) (sliceBytes bs (ip + 24) 16 ++ sliceBytes bs (ip + 8) 16)
    else patchBytes t (ip + 12) (sliceBytes bs (ip + 16) 4 ++ sliceBytes bs (ip + 12) 4)
  let t := patchBytes t udp (sliceBytes bs (udp + 2) 2 ++ sliceBytes bs udp 2)
  fillUdp v6 ip udp t after

/-- Late contribution `uid` waits to be served from the retained result of `seq`, or does so no longer. -/
def Device.setServes (d : Device) (g seq uid : Nat) (on : Bool) : Device :=
  let s := d.redGroup g
  d.setGroup g { s with kept := s.kept.map fun k =>
    if k.2.seq = seq then
      let rest := k.2.serves.filter (· ≠ uid)
      (k.1, { k.2 with serves := if on then rest ++ [uid] else rest })
    else k }

/-- LATE_CONTRIB (R311): a result retained still when the contribution came serves it (R42, R316). -/
def Device.lateContrib (d : Device) (a : Nat) (c : Copy) (f : Frame) (o : Nat) (m : RedMsg) (pending : Bool) : Device :=
  let g := m.group
  if pending then (d.count (anvCnt 3)).dropMsg c 0xA1
  else match (d.redGroup g).kept.find? fun k =>
      k.1 = m.seq % 1024 ∧ k.2.seq = m.seq ∧ (!d.matured k.2.dies || k.2.serves.contains c.uid) with
    | none => (d.count (anvCnt 4)).dropMsg c 0xA1
    | some (_, r) =>
      let (d, whole) := d.inPieces 0x09 a (1 + ceilDiv r.payload.length 64) c.uid
      let d := d.setServes g m.seq c.uid (!whole)
      if !whole then d
      else
        let d := d.event none 0x8003 (1 + ceilDiv r.payload.length 64) (some (lhAttr r.billet)) {}
        let out := (d.msgOf g 2 m.seq r.payload.length 0 r.folded r.sat).bytes true ++ r.payload
        let hdr := turnRound c.phv.hdrs f.bytes o out.length
        let iclass := F.ANVIL_T_CFG_ICLASS.get (d.cfg (A.ANVIL_T_CFG (d.tplDown g)))
        ((d.injectMsg g iclass hdr out).count (anvCnt 2)).dropMsg c 0xA1

-- Timers (R309, R313) ----------------------------------------------------------------------------------------------

/-- The bytes of a NACK: bit m mod 8 of byte m / 8 for each missing member (R301). -/
def nackBytes (members bits : Nat) : Bytes :=
  (List.range 128).map fun j =>
    BitVec.ofNat 8 (((List.range 8).map fun k => if 8 * j + k < members ∧ !bit bits (8 * j + k) then 2 ^ k else 0).sum)

/-- The timer of a chunk has matured, and its sequencer is there to act on it (R42, R309, R313). -/
def Device.chunkDue (d : Device) (g : Nat) (c : Chunk) : Bool :=
  decide (c.due ≤ d.strokeNo) && d.anvilSeq g && c.st != .forming

/-- The first chunk of a group in a state whose timer has matured. -/
def Device.matureChunk (d : Device) (g : Nat) (st : ChunkState) : Option Chunk :=
  (d.redGroup g).chunks.find? fun c => c.st = st ∧ d.chunkDue g c

/-- The NACK timer of a chunk has matured: a NACK, or the abort after NACK_MAX of them (R309). -/
def Device.nackNow (d : Device) (g : Nat) (c : Chunk) : Device :=
  if d.gFld A.ANVIL_G_TMR g F.ANVIL_G_TMR_NACK_MAX ≤ c.tries then d.abortChunk g c.seq
  else
    let (d, whole) := d.inPieces 0x0D (d.gAnvil g) 2 (2 ^ 32 + g)
    if !whole then d
    else
      let stk := max 1 (d.gFld A.ANVIL_G_TMR g F.ANVIL_G_TMR_NACK_STK)
      let d := d.event none 0x8007 2 (some (d.gAnvil g)) {}
      let d := d.setChunk g { c with tries := c.tries + 1, armed := d.strokeNo, due := d.strokeNo + stk + 1 }
      (d.sendMsg g (d.tplDown g) (d.msgOf g 3 c.seq 128 0 0 false) false (nackBytes (d.gMembers g) c.bits)).count (anvCnt 10)

/-- The UP timer of a chunk has matured: its CONTRIB again, or the abort after UP_MAX resends (R309). -/
def Device.upNow (d : Device) (g : Nat) (c : Chunk) : Device :=
  if d.gFld A.ANVIL_G_TMR g F.ANVIL_G_TMR_UP_MAX ≤ c.tries then d.abortChunk g c.seq
  else
    let stk := max 1 (d.gFld A.ANVIL_G_TMR g F.ANVIL_G_TMR_UP_STK)
    let d := d.setChunk g { c with tries := c.tries + 1, armed := d.strokeNo, due := d.strokeNo + stk + 1 }
    (d.sendUp g c true).count (anvCnt 12)

/-- NACK_TIMER_EXPIRE: a gathering chunk of group `g` sends a NACK, or aborts after NACK_MAX of them (R309). -/
def nackTimer (d : Device) (g : Nat) : Device :=
  match d.matureChunk g .gathering with
  | none => d
  | some c => d.nackNow g c

/-- UP_TIMER_EXPIRE: a chunk of group `g` that awaits its parent resends its CONTRIB, or aborts after UP_MAX resends
(R309). -/
def upTimer (d : Device) (g : Nat) : Device :=
  match d.matureChunk g .awaitParent with
  | none => d
  | some c => d.upNow g c

/-- A message for a chunk whose timer has matured is too late for it: the timeout is made first, unless the message came before
and waits for its issues. Whether the timeout itself still waits for them (R38, R42). -/
def Device.timeoutFirst (d : Device) (a g seq uid : Nat) : Device × Bool :=
  match (d.redGroup g).chunk seq with
  | none => (d, false)
  | some c =>
    if !d.chunkDue g c ∨ d.budget.waiting.any (fun w => w.is 0x0D a uid) then (d, false)
    else
      let d := match c.st with
        | .gathering => d.nackNow g c
        | .awaitParent => d.upNow g c
        | .forming => d
      (d, (((d.redGroup g).chunk seq).map fun k => d.chunkDue g k).getD false)

-- Messages that the anvil takes (R303, R307 to R311) --------------------------------------------------------------------

/-- The chunk after a member's contribution; none where its bit is set already (R307). -/
def Chunk.addMember (etype op : Nat) (c : Chunk) (m : RedMsg) (payload : Bytes) : Chunk :=
  { c with
    bits := setBit c.bits m.member
    folded := (c.folded + m.folded) % 2 ^ 32
    satIn := c.satIn || m.sat
    acc := accumulate etype op c.acc payload }

/-- A chunk whose members have all contributed forms its result once its issue slots are there (R38, R296, R307). -/
def Device.formNext (d : Device) (g : Nat) (k : Chunk) : Device :=
  let n := ceilDiv k.len 64
  let a := d.gAnvil g
  let (d, whole) := d.inPieces 0x0D a n (2 ^ 35 + (g * 2 ^ 32 + k.seq))
  if whole then (d.event none 0x8007 n (some a) {}).formChunk g k else d

/-- Results that wait for issue slots are presented again at the boundary (R38). -/
def Device.formBoundary (d : Device) : Device :=
  d.groupsOn.foldl (fun d g =>
    ((d.redGroup g).chunks.filter fun k => k.st = .forming).foldl (fun d k => d.formNext g k) d) d

/-- A CONTRIB of an open chunk that is neither late nor a repeat: accumulated, and the result formed with the last one
(R307). -/
def Device.contribTake (d : Device) (a : Nat) (c : Copy) (f : Frame) (o : Nat) (m : RedMsg) (k : Chunk) : Device :=
  let g := m.group
  let (d, whole) := d.issue a (ceilDiv m.len 64) c
  if !whole then d
  else
    let (d, payload) := d.msgBytes (f.bytes.take (f.bytes.length - 4)) (o + 32) m.len
    let k := k.addMember (d.gEtype g) (d.gOp g) m payload
    let full := popCount k.bits 1024 = d.gMembers g
    let k := if full then { k with st := .forming } else k
    let d := ((d.count (anvCnt 0)).takeMsg c).setChunk g k
    if full then d.formNext g k else d

/-- CONTRIB_RECEIVE: anvil `a` takes the CONTRIB at the head of its input queue (R303, R307, R308, R311). A SEQ inside the
window whose chunk is already released is late like one before LOW (DEDUCED, log entry 72). -/
def contribReceive (d : Device) (a : Nat) : Device :=
  match d.anvilTake a 1 with
  | (d, none) => d
  | (d, some (c, f, o, m)) =>
    let g := m.group
    let (d, wait) := d.timeoutFirst a g m.seq c.uid
    let s := d.redGroup g
    let mine := s.chunk m.seq
    let awaiting := (mine.map fun k => k.st == .awaitParent).getD false
    if wait then d
    else if awaiting ∨ s.released.contains m.seq ∨ beforeMod 32 m.seq s.low then d.lateContrib a c f o m awaiting
    else
      let stk := max 1 (d.gFld A.ANVIL_G_TMR g F.ANVIL_G_TMR_NACK_STK)
      let k : Chunk := mine.getD
        { seq := m.seq, len := m.len, acc := List.replicate (m.len / elemBytes (d.gEtype g)) {}, armed := d.strokeNo,
          due := d.strokeNo + stk + 1 }
      if bit k.bits m.member then
        let (d, whole) := d.issue a (ceilDiv m.len 64) c
        if whole then ((d.count (anvCnt 0)).count (anvCnt 1)).takeMsg c else d
      else d.contribTake a c f o m k

/-- RESULT_RECEIVE: the parent's RESULT is sent down, with its payload, SAT and FOLDED, and the chunk is released
(R308). -/
def resultReceive (d : Device) (a : Nat) : Device :=
  match d.anvilTake a 2 with
  | (d, none) => d
  | (d, some (c, f, o, m)) =>
    let g := m.group
    let (d, _) := d.timeoutFirst a g m.seq c.uid
    match (d.redGroup g).chunk m.seq with
    | none => d.dropMsg c 0xA0
    | some _ =>
      let (d, whole) := d.issue a (ceilDiv m.len 64) c
      if !whole then d
      else
        let (d, payload) := d.msgBytes (f.bytes.take (f.bytes.length - 4)) (o + 32) m.len
        let d := if m.sat then d.count (anvCnt 14) else d
        let d := ((d.takeMsg c).sendResult g m.seq m.folded m.sat payload).releaseChunk g m.seq
        d.retain g m.seq m.folded m.sat payload

/-- NACK_RECEIVE: a NACK that names MY_INDEX makes a chunk in AWAIT_PARENT resend its CONTRIB at once (R309). -/
def nackReceive (d : Device) (a : Nat) : Device :=
  match d.anvilTake a 3 with
  | (d, none) => d
  | (d, some (c, f, o, m)) =>
    let g := m.group
    let (d, _) := d.timeoutFirst a g m.seq c.uid
    let ix := d.gIndex g
    let named := bit (byteAt f.bytes (o + 32 + ix / 8)) (ix % 8)
    match (d.redGroup g).chunk m.seq with
    | none => d.takeMsg c
    | some k =>
      if !named then d.takeMsg c
      else if k.st ≠ .awaitParent then (d.count (anvCnt 11)).takeMsg c
      else
        let stk := max 1 (d.gFld A.ANVIL_G_TMR g F.ANVIL_G_TMR_UP_STK)
        ((d.takeMsg c).setChunk g { k with armed := d.strokeNo, due := d.strokeNo + stk + 1 }).sendUp g k true

/-- ABORT_RECEIVE: an ABORT for a held chunk aborts it; for another it is dropped (R310, R311). -/
def abortReceive (d : Device) (a : Nat) : Device :=
  match d.anvilTake a 4 with
  | (d, none) => d
  | (d, some (c, _, _, m)) =>
    match (d.redGroup m.group).chunk m.seq with
    | none => d.dropMsg c 0xA0
    | some _ => (d.takeMsg c).abortChunk m.group m.seq

-- Retention (R312) -------------------------------------------------------------------------------------------------

/-- RETAIN_COMPLETE: anvil `a` writes its oldest staged result that holds a billet, in pieces under the anvil storage
budget, and then its index entry, replacing an older one (R312). -/
def retainComplete (d : Device) (a : Nat) : Device :=
  match d.anvil.staged.find? fun s => s.anvil = a ∧ (d.grantedFor (32 + a) (2 * s.tag + 1)).isSome with
  | none => d
  | some s =>
    match d.grantedFor (32 + a) (2 * s.tag + 1) with
    | none => d
    | some ptr =>
      let units := 1 + ceilDiv s.payload.length 64
      let (d, whole) := d.inPieces 0x09 a units (2 ^ 33 + s.tag)
      if !whole then d
      else
        let d := (d.event none 0x8003 units (some (lhAttr ptr)) {}).takeGrant (32 + a) (2 * s.tag + 1)
        let d := { d with anvil := { d.anvil with staged := d.anvil.staged.filter fun t => t.tag ≠ s.tag } }
        let g := d.redGroup s.group
        let e := s.seq % 1024
        let d := match g.kept.find? fun k => k.1 = e with
          | some (_, old) => d.freeBillet (32 + a) old.billet
          | none => d
        let r : Retained := { seq := s.seq, payload := s.payload, sat := s.sat, folded := s.folded, billet := ptr, dies := s.dies, since := s.since }
        d.setGroup s.group { g with kept := g.kept.filter (fun k => k.1 ≠ e) ++ [(e, r)] }

/-- RETAIN_EXPIRE: the oldest retained result of group `g` that has expired goes, and its billet is freed (R312); one that late
contributions are still to be served from stays until they are (R42). -/
def retainExpire (d : Device) (g : Nat) : Device :=
  let s := d.redGroup g
  match s.kept.find? fun k => d.matured k.2.dies && k.2.serves.isEmpty with
  | none => d
  | some (e, r) =>
    (d.setGroup g { s with kept := s.kept.filter fun k => k.1 ≠ e }).freeBillet (32 + d.gAnvil g) r.billet

-- Enable and disable (R305, R306) ----------------------------------------------------------------------------------

/-- A W1C bit of G_STAT is set, where G_SEL shows the group (R10). -/
def Device.markGroup (d : Device) (g bitNo : Nat) : Device :=
  if F.ANVIL_G_SEL_GROUP.get (d.reg A.ANVIL_G_SEL) = g then d.markSet A.ANVIL_G_STAT bitNo else d

/-- A group's enable at the boundary (R305): refused for a reserved type or for want of granules. -/
def Device.enableGroup (d : Device) (g : Nat) : Device :=
  let s := d.redGroup g
  let et := d.gEtype g
  let need := d.gWindow g * granulesOf et (d.gChunk g)
  let off := { s with want := none }
  let a := A.ANVIL_G_CFG
  if 5 < et ∨ d.gOp g = 3 then ((d.setGroup g { off with badCfg := true }).markGroup g 8).refuse s.wantSrc a
  else if d.granFree (d.gAnvil g) < need then
    (((d.setGroup g { off with noRoom := true }).markGroup g 7).refuse s.wantSrc a).raise 0xC0000 1
  else
    let d := d.setGroup g { off with valid := true, released := [], chunks := [], gran := need, kept := [] }
    if d.gRetain g = 0 then d else d.askBillet (32 + d.gAnvil g) 16384 (2 * g)

/-- A group's disable at the boundary: its chunks are released without any message, its retained results and index page
are freed (R306). -/
def Device.disableGroup (d : Device) (g : Nat) : Device :=
  let s := d.redGroup g
  let r := 32 + d.gAnvil g
  let d := d.dropAsks r fun tag => tag = 2 * g ∨ d.anvil.staged.any fun t => t.group = g ∧ 2 * t.tag + 1 = tag
  let d := s.kept.foldl (fun d k => d.freeBillet r k.2.billet) d
  let d := match s.index with
    | some ptr => d.freeBillet r ptr
    | none => d
  let d := { d with anvil := { d.anvil with staged := d.anvil.staged.filter fun t => t.group ≠ g } }
  d.setGroup g { s with valid := false, want := none, chunks := [], released := [], gran := 0, index := none, kept := [] }

/-- The Damper has the anvils at their floor of 16 slots (R313, R380). -/
def Device.anvilFloor (d : Device) : Bool := min ((profBudget d.profile.active 0x0D 0).getD 0) d.damper.anvilSlots == 16

/-- The anvils at a boundary that ends a stroke of `t`: timers stand still for a stroke at the Damper's floor, and
chunk timers while their sequencer is not running (R313, R324),
disables free granules, then enables take them, lowest group first (R305, R306). -/
def Device.anvilBoundary (d : Device) (t : Nat) : Device :=
  let floor := d.anvilFloor
  let t := d.elapsedGain t
  let stood (since : Nat) : Nat := min t (d.elapsed + t - since)
  let d := { d with anvil := { d.anvil with floor := floor } }
  let d := d.anvil.groups.foldl (fun d e =>
      let s := d.redGroup e.1
      let chunks := s.chunks.map fun (c : Chunk) =>
        if (floor ∨ !d.anvilSeq e.1) ∧ c.armed < d.strokeNo then { c with due := c.due + 1 } else c
      let kept := if floor then s.kept.map fun k => (k.1, { k.2 with dies := k.2.dies + stood k.2.since }) else s.kept
      d.setGroup e.1 { s with chunks := chunks, kept := kept }) d
  let d := if floor then { d with anvil := { d.anvil with
      staged := d.anvil.staged.map fun (r : Staged) => { r with dies := r.dies + stood r.since } } } else d
  let d := d.anvil.groups.foldl (fun d e =>
    if (d.redGroup e.1).want = some false then d.disableGroup e.1 else d) d
  let d := d.anvil.groups.foldl (fun d e =>
    if (d.redGroup e.1).want = some true then d.enableGroup e.1 else d) d
  d.anvil.groups.foldl (fun d e => d.takeIndex e.1) d

end Sys2Proof.Machine
end

