-- ==== Sys2Proof/Machine/Pass.lean ====
section
/-! DEFINITION. The end of an ingress pass: the disposition settled, and the packet admitted, trapped, dropped or sent to
the stair (R139, R141 to R144, R184, R187, R303). -/

namespace Sys2Proof.Machine

/-- The cells a packet holds on the stair are released for its admission: the charges at once, and the shared ones into the
free count; what is left of them counts as free for the decision (R181). -/
def Device.openStair (d : Device) (x : Flight) (port : Nat) : Device :=
  let d := (d.dropCharge 0 (.iMin port) x.stairMin).dropCharge 0 (.iShared port) x.stairShared
  let d := { d with hall := { d.hall with free := d.hall.free + x.stairShared } }
  d.setFlight { x with stairMin := 0, stairShared := 0 }

/-- Nothing was admitted: the cells released wait for the boundary like every freed cell. -/
def Device.closeStair (d : Device) (x : Flight) : Device :=
  { d with hall := { d.hall with
      free := d.hall.free - x.stairShared, freeGain := d.hall.freeGain + min x.stairShared d.hall.free } }

/-- What admission has made of a packet's copies so far: the copies admitted, and the first refusal. -/
structure Admits where
  d : Device
  uids : List Nat := []
  code : Option Nat := none

/-- Ask a queue for one more copy of a packet (R184, R187). -/
def askQueue (x : Flight) (phv : Phv) (r : Admits) (q : Nat × CopyKind) : Admits :=
  let first := r.uids.isEmpty
  let (d, a) := r.d.admitCopy
    { frame := x.id, queue := q.1, kind := q.2, colour := x.acts.colour, ioam := x.acts.ioam, phv := phv, pass := x.pass,
      gal := x.gal, originAt := (r.d.frame x.id).bind (·.originAt) } first (if first then x.stairMin else 0)
  match a with
  | .copy uid => { r with d := d, uids := r.uids ++ [uid] }
  | .refused code => { r with d := d, code := some (r.code.getD code) }

/-- The final pass ends with these queues to join: the packet is rebuilt, admitted to each, mirrored, and what can be is
granted cut-through (R141, R147, R181, R184, R187, R208). -/
def Device.passAdmit (d : Device) (x : Flight) (phv : Phv) (queues : List (Nat × CopyKind)) : Device :=
  match d.frame x.id with
  | none => d
  | some f =>
    let r := queues.foldl (askQueue x phv) { d := d.openStair x f.inPort }
    let (d, own) := r.d.ingressMirrors x phv r.uids.isEmpty x.stairMin
    let d := (if own then d.closeStair x else d).endFlight x.id
    let d := if r.uids.isEmpty then
        (d.flowFinish x.id (some (r.code.getD 0)) none).releaseFrame x.id
      else d
    r.uids.foldl (fun d uid => d.cutThrough x.prof uid) d

/-- Forward to a port on the packet's queue. -/
def Device.passForward (d : Device) (x : Flight) (port : Nat) : Device :=
  let (d, phv) := d.formIngress x
  d.passAdmit x phv [(port * 16 + x.acts.queue, .original)]

/-- REPLICATE: one copy for each port of the list; a list that yields none ends the packet with NO_ROUTE (R187). -/
def Device.passReplicate (d : Device) (x : Flight) (inPort list : Nat) : Device :=
  match d.replPorts list inPort with
  | [] => d.dropFlight x.id 0x30 none
  | ports =>
    let (d, phv) := d.formIngress x
    d.passAdmit x phv (ports.map fun p => (p * 16 + x.acts.queue, .replica))

/-- TO_ANVIL: the packet joins the input queue of its group's anvil, or ends with ANVIL_NO_CONTEXT (R303). -/
def Device.passAnvil (d : Device) (x : Flight) : Device :=
  let (d', phv) := d.formIngress x
  let bytes := ((d'.frame x.id).map (·.bytes)).getD []
  match d'.anvilRoute phv bytes with
  | .inl a => d'.passAdmit x phv [(anvilQueue a, .original)]
  | .inr c => (d.countBad c).dropFlight x.id 0xA0 none

/-- TRAP: the packet is rebuilt and mirrored, and waits for its ring (R139, R341). -/
def Device.passTrap (d : Device) (x : Flight) (ring cause : Nat) (act : Option (Nat × Nat)) : Device :=
  let (d, phv) := d.formIngress x
  let d := (d.ingressMirrors x phv true 0).1
  d.trapFlight { x with phv := phv } ring cause act

/-- The disposition that stands at the end of a pass (R139), an extension lookup taking the stair unless the packet is
dropped or trapped (R143). -/
def Device.settlePass (d : Device) (x : Flight) (f : Frame) : Device :=
  match x.verdict, x.acts.drop, x.acts.trap with
  | some (.drop code), _, _ => d.dropFlight x.id code none
  | _, some (code, stage, ix), _ => d.dropFlight x.id code (some (stage, ix))
  | some (.trap cause iclass), none, _ => d.passTrap x (d.trapRing x.gal iclass) cause none
  | none, none, some (ring, stage, ix) => d.passTrap x ring 1 (some (stage, ix))
  | none, none, none =>
    if x.ext.isSome then d.stairJoin x.id
    else match x.acts.other with
      | some (1, darg, _) => d.passForward x (darg % 1024)
      | some (4, _, _) => d.stairJoin x.id
      | some (5, _, _) => d.passAnvil x
      | some (6, darg, hsel) =>
        let (m, d) := (d.spend 0x03 (x.gal * 5 + 3) 1 x.id).select x.gal darg (if hsel = 1 then x.phv.h1 else x.phv.h0)
        d.passForward x (m % 1024)
      | some (7, darg, _) => d.passReplicate x f.inPort (darg % 4096)
      | _ => (d.count (matchCnt x.gal 1)).dropFlight x.id 0x30 none

/-- The packet of a gallery whose pass ends next: one that its parse has judged, else the one longest in the stages. -/
def Device.nextEnd (d : Device) (n : Nat) : Option Flight :=
  let l := d.pkt.flights.filter fun x => x.gal = n ∧ x.phase = .stages
  match l.find? fun x => x.stage = 0 with
  | some x => some x
  | none => l.head?

/-- INGRESS_PASS_END: the pass of the gallery's next packet ends in cycle `c` (R137 to R144). -/
def ingressPassEnd (d : Device) (n c : Nat) : Device :=
  let d := d.atStage c
  if d.isFenced n then d
  else match d.nextEnd n with
  | none => d
  | some x =>
    match d.frame x.id with
    | none => d
    | some f => d.settlePass x f

end Sys2Proof.Machine
end

