-- ==== Sys2Proof/Machine/Lanes.lean ====
section
/-! DEFINITION. Lanes and the ports they form: geometry (R71, R95), lane states and their events (R75, R76), and what a
port is made of. -/

namespace Sys2Proof.Machine

/-- Set a lane's bit in EVT_UP or EVT_DOWN, and the page's event (R75). -/
def Device.laneEvent (d : Device) (l : Nat) (up : Bool) : Device :=
  let j := l % 128
  let a := if up then A.LANE_EVT_UP (l / 128) (j / 32) else A.LANE_EVT_DOWN (l / 128) (j / 32)
  (d.setW1c a (j % 32)).raise (laneBase l) (if up then 0 else 1)

/-- The lane trains. -/
def LaneState.trains (s : LaneState) : Bool := s == .train || s == .retrain

/-- The taps as applied: MAIN is lowered until the magnitudes sum to at most 63, PRE3 and PRE2 counting as 0 at NRZ (R77). DESIGN
CHOICE (log entry 65): where the other taps alone exceed 63, MAIN becomes 0 and the others stay. -/
def clipTaps (nrz : Bool) (w : Word) : Word × Bool :=
  let mag (f : Fld) : Nat := (signed (f.get w) f.w).natAbs
  let others := (if nrz then 0 else mag F.LANE_LN_TXEQ_PRE3 + mag F.LANE_LN_TXEQ_PRE2) + mag F.LANE_LN_TXEQ_PRE1 +
    mag F.LANE_LN_TXEQ_POST1
  let main := F.LANE_LN_TXEQ_MAIN.get w
  if others + main ≤ 63 then (w, false) else (F.LANE_LN_TXEQ_MAIN.put w (63 - others), true)

/-- The signalling of the lane is NRZ (R72). -/
def Device.nrz (d : Device) (l : Nat) : Bool := F.LANE_LN_CTRL_RATE.get (d.reg (ofLane A.LANE_LN_CTRL l)) == 0

/-- The transmit taps in use: in training what the partner's requests have made of them, a free value within the limit (R77). -/
def Device.tapsOf (d : Device) (l : Nat) : Word :=
  if (d.laneSt l).st.trains then (clipTaps (d.nrz l) ((Config.trainTaps l d.absCyc).zeroExtend 32)).1
  else d.reg (ofLane A.LANE_LN_TXEQ l)

/-- A lane enters a state: locks and low-power idle end outside UP, training leaves its taps in LN_TXEQ, and the event maps tell
of UP (R75 to R77). -/
def Device.laneTo (d : Device) (l : Nat) (st : LaneState) : Device :=
  let old := d.laneSt l
  let d := if old.st.trains && !st.trains then d.setReg (ofLane A.LANE_LN_TXEQ l) (d.tapsOf l) else d
  let d := d.setLane l { old with
    st := st
    blockLock := old.blockLock && (st == .align || st == .up)
    cdr := old.cdr && (st == .align || st == .up || st == .train || st == .retrain || st == .test)
    txLpi := old.txLpi && st == .up
    rxLpi := old.rxLpi && st == .up
    prbsLock := old.prbsLock && st == .test }
  if old.st == .up && st != .up then d.laneEvent l false
  else if old.st != .up && st == .up then d.laneEvent l true
  else d

/-- A lane as a place of faults (R399, R401). -/
def lanePlace (l : Nat) : FaultPlace := ⟨6, l / 128, l⟩

/-- A charge made in the stroke is taken back, and the retirement that it made: TEST or a fence won (R87). DESIGN CHOICE (log entry
65): interrupt bits set meanwhile stay. -/
def Device.uncharge (d : Device) (l : Nat) : Device :=
  let s := d.laneSt l
  let d := d.untrack (lanePlace l)
  let d := if s.st = .retired ∧ !(tabGet (fun _ => ({} : LinkSt)) d.lane.links (l / 8)).lanesRetired then
      ({ d with ras := { d.ras with entries := d.ras.entries.filter fun e => !(e.kind = 4 ∧ e.addr = l) } }).laneTo l .waitSignal
    else d
  d.modLane l fun s => { s with charges := s.charges.dropLast, retrains := s.retrains - 1, chargeIn := 0 }

/-- A lane in the charge of the driver and the bring-up sequencers: neither retired nor sending a fault sequence. -/
def LaneSt.free (s : LaneSt) : Bool := s.st != .retired && s.st != .faultTx

/-- A lane in its port's bring-up or use: not taken out of it by TEST, by EN = 0, or by the dormant state. -/
def LaneSt.inPort (s : LaneSt) : Bool := s.free && s.st != .test && s.st != .disabled && s.st != .dormant

-- Ports ------------------------------------------------------------------------------------------------------------

/-- The enabled port that lane `l` belongs to: its first lane is the lane's number rounded down to a multiple of the
width (R95). -/
def Device.portOf (d : Device) (l : Nat) : Option Nat :=
  ([1, 2, 4, 8].map fun w => l / w * w).find? fun p => d.portEn p && decide (l < p + d.portWidth p)

/-- The window of a lane that is not the first lane of its port (R97). -/
def Device.innerLane (d : Device) (l : Nat) : Bool :=
  match d.portOf l with
  | some p => p != l
  | none => false

/-- The lane rate code of a speed on `2 ^ w` lanes, and whether R95 allows it: 25, 50, 100 or 200 Gbit/s per lane, and no
200GbE on eight lanes. -/
def laneRate (speed w : Nat) : Option Nat :=
  if w ≤ speed ∧ speed - w ≤ 3 ∧ speed ≤ 6 ∧ ¬(speed = 3 ∧ w = 3) then some (speed - w) else none

/-- A port's bring-up register (R79), read from its first lane. -/
def Device.bringReg (d : Device) (p : Nat) : Word := d.reg (ofLane A.LANE_LN_BRINGUP p)
/-- The port negotiates its rate. -/
def Device.negotiates (d : Device) (p : Nat) : Bool := F.LANE_LN_BRINGUP_MODE.get (d.bringReg p) == 1

def Device.bring (d : Device) (p : Nat) : BringUp := tabGet (fun _ => {}) d.lane.bring p
def Device.setBring (d : Device) (p : Nat) (b : BringUp) : Device :=
  { d with lane := { d.lane with bring := tabSet (fun _ => {}) d.lane.bring p b } }
def Device.modBring (d : Device) (p : Nat) (f : BringUp → BringUp) : Device := d.setBring p (f (d.bring p))

def Device.linkSt (d : Device) (k : Nat) : LinkSt := tabGet (fun _ => {}) d.lane.links k
def Device.setLink (d : Device) (k : Nat) (s : LinkSt) : Device :=
  { d with lane := { d.lane with links := tabSet (fun _ => {}) d.lane.links k s } }

/-- The die-to-die link that carries a lane, numbered over the device (R71). -/
def linkOf (l : Nat) : Nat := l / 8

/-- Every lane of the port is UP. -/
def Device.lanesUp (d : Device) (p : Nat) : Bool := (d.portLanes p).all fun l => (d.laneSt l).st == .up

/-- The port can be UP: enabled, its gallery not fenced, its lanes UP and no fault sequence received (R108). -/
def Device.mayBeUp (d : Device) (p : Nat) : Bool :=
  d.portEn p && !d.isFenced (p / 32) && d.lanesUp p && (d.port p).rxFault == .none

/-- DOWN_REASON of a port (R97). -/
def Device.downReason (d : Device) (p : Nat) : DownReason :=
  if (d.port p).up then .none
  else if !d.portEn p then .disabled
  else if (d.portLanes p).any fun l => (d.laneSt l).st == .retired then .laneRetired
  else if !d.lanesUp p then .bringup
  else (d.port p).rxFault

/-- Write the lane rate into RATE of every lane of a port; one in TEST has left it, and keeps its own (R79, R84). -/
def Device.setRate (d : Device) (p rate : Nat) : Device :=
  (d.portLanes p).foldl (fun d l =>
    if (d.laneSt l).st = .test then d else d.setFld (ofLane A.LANE_LN_CTRL l) F.LANE_LN_CTRL_RATE rate) d

/-- A FIXED port's bring-up starts: RATE of its lanes is that of its SPEED (R74, R79). -/
def Device.fixRate (d : Device) (p : Nat) : Device :=
  if !d.portEn p ∨ d.negotiates p then d
  else match laneRate (d.portSpeed p) (d.fld (ofPort A.PORT_PT_CFG p) F.PORT_PT_CFG_WIDTH) with
    | some r => d.setRate p r
    | none => d

/-- All lanes of a port enter a state together; one that is retired or sends a fault sequence stays. -/
def Device.portTo (d : Device) (p : Nat) (st : LaneState) : Device :=
  (d.portLanes p).foldl (fun d l => if (d.laneSt l).free then d.laneTo l st else d) d

/-- The port transmits the remote fault sequence: its PCS runs, and has no block lock on the receive side (R108). DESIGN CHOICE (log
entry 66): the PCS runs, and can detect the loss, while every lane of the port is in ALIGN or UP. -/
def Device.sendsRemote (d : Device) (p : Nat) : Bool :=
  d.portEn p && ((d.portLanes p).all fun l => (d.laneSt l).st == .align || (d.laneSt l).st == .up) &&
    (d.portLanes p).any fun l => !(d.laneSt l).blockLock

/-- It begins or ends that sequence. -/
def Device.settleFault (d : Device) (p : Nat) : Device :=
  let on := d.sendsRemote p
  if on = (d.port p).txRemote then d else (d.modPort p fun s => { s with txRemote := on }).send (.remoteFault p on)

/-- The lanes of a port hunt for alignment (R79, R80). -/
def Device.beginAlign (d : Device) (p : Nat) : Device := (d.portTo p .align).settleFault p

/-- Training of a port begins, with its time limit (R79). -/
def Device.beginTrain (d : Device) (p : Nat) (st : LaneState) : Device :=
  let tmo := F.LANE_LN_BRINGUP_TRAIN_TMO.get (d.bringReg p)
  (d.portTo p st).modBring p fun b => { b with trainBy := some (d.now + msT (20 * tmo)) }

/-- A link carries its lanes' streams: UP, not in TEST, its lanes not retired (R88, R91, R93). -/
def Device.linkReady (d : Device) (k : Nat) : Bool :=
  (d.linkSt k).st == .up && !(d.linkSt k).lanesRetired && F.D2D_LK_CTRL_TEST.get (d.reg (ofLink A.D2D_LK_CTRL k)) == 0

/-- The bring-up sequencer of lane `l` is running; while it is not, a lane holds its state (R317, R324). -/
def Device.linkSeq (d : Device) (l : Nat) : Bool := d.seqOn (l / 256)

/-- A waiting port goes on as soon as it can: with signal on the first lane it negotiates, with signal on every lane at a
forced rate it trains or aligns (R73, R79, R88). -/
def Device.tryStart (d : Device) (p : Nat) : Device :=
  let ls := d.portLanes p
  let ready := d.linkSeq p && d.portEn p && !d.isFenced (p / 32) && !bit d.lane.refBad (p / 128) && d.linkReady (linkOf p) &&
    ls.all fun l => (d.laneSt l).st == .waitSignal
  if !ready then d
  else if d.negotiates p then
    if (d.laneSt p).sigDet then d.portTo p .an else d
  else if ls.all fun l => (d.laneSt l).sigDet then
    let d := d.fixRate p
    let d := d.modPort p fun s => { s with fecInUse := d.fld (ofPort A.PORT_PT_CFG p) F.PORT_PT_CFG_FEC }
    if F.LANE_LN_BRINGUP_TRAIN_EN.get (d.bringReg p) = 1 then d.beginTrain p .train else d.beginAlign p
  else d

/-- The lanes of a port go back to WAIT_SIGNAL, those in use that are neither in TEST nor dormant (R79, R86); bring-up starts
again. -/
def Device.restart (d : Device) (p : Nat) : Device :=
  let d := (d.portLanes p).foldl (fun d l =>
    let s := d.laneSt l
    if s.inPort then d.laneTo l .waitSignal else d) d
  (((d.modBring p fun b => { b with trainBy := none, upDue := false }).fixRate p).tryStart p).settleFault p

/-- A lane of the port is DORMANT. -/
def Device.isDormant (d : Device) (p : Nat) : Bool := (d.portLanes p).any fun l => (d.laneSt l).st == .dormant

/-- The dormant lanes of a port leave DORMANT for WAIT_SIGNAL, and its bring-up starts (R86). -/
def Device.wakePort (d : Device) (p : Nat) : Device :=
  ((d.portLanes p).foldl (fun d l => if (d.laneSt l).st = .dormant then d.laneTo l .waitSignal else d) d).restart p

-- Recovered clocks (R270) ------------------------------------------------------------------------------------------

/-- What SYNCE_RCLK`k` is to give: the clock recovered by its lane while that is UP, divided by 2^DIV, DIV 5 to 7 treated as 4. -/
def Device.rclkOf (d : Device) (k : Nat) : Option (Nat × Nat) :=
  let w := d.reg (A.TIME_SYNCE k)
  let l := F.TIME_SYNCE_LANE.get w
  if F.TIME_SYNCE_EN.get w = 0 ∨ (d.laneSt l).st ≠ .up then none else some (l, min (F.TIME_SYNCE_DIV.get w) 4)

/-- The recovered-clock outputs follow their lanes at the boundary: an output resumes there, and is squelched there, within 1 µs
of its lane leaving UP (R270). -/
def Device.rclkBoundary (d : Device) : Device :=
  (List.range 2).foldl (fun d k =>
    let now := d.rclkOf k
    if d.pulse.rclk.getD k none = now then d
    else ({ d with pulse := { d.pulse with rclk := d.pulse.rclk.set k now } }).send (.rclk k now)) d

/-- A recovered-clock output that gives a clock is held low (R270). -/
def Device.squelch (d : Device) : Device :=
  (List.range 2).foldl (fun d k =>
    if (d.pulse.rclk.getD k none).isNone then d
    else ({ d with pulse := { d.pulse with rclk := d.pulse.rclk.set k none } }).send (.rclk k none)) d

-- Bring-up ends ------------------------------------------------------------------------------------------------------

/-- Every lane of the port holds lock, and at the boundary they enter UP (R80). -/
def Device.raiseLanes (d : Device) (p : Nat) : Device :=
  if !(d.bring p).upDue then d
  else
    let d := d.modBring p fun b => { b with upDue := false }
    if d.portEn p ∧ d.linkSeq p ∧ (d.portLanes p).all fun l => (d.laneSt l).st == .align && (d.laneSt l).blockLock then
      d.portTo p .up
    else d

/-- The cause of a lane's leaving UP (R81). -/
def Device.setCause (d : Device) (l c : Nat) : Device := d.modLane l fun s => { s with downCause := c }

/-- The state that the lane's own controls hold it in, apart from its port's bring-up; none: they leave it there. A lost
reference keeps a lane in WAIT_SIGNAL (R73), TEST takes it out of its port in CONFIG, RUN and DEGRADED (R84), and EN = 0
disables it (R74). A lane that is retired or of a fenced gallery is left as it is (R30, R83). -/
def Device.restState (d : Device) (l : Nat) : Option LaneState :=
  let w := d.reg (ofLane A.LANE_LN_CTRL l)
  let st := (d.laneSt l).st
  if !(d.laneSt l).free || d.isFenced (l / 32) then none
  else if bit d.lane.refBad (l / 128) then some .waitSignal
  else if F.LANE_LN_CTRL_TEST.get w = 1 ∧ (d.dev.state = .config ∨ d.running) then some .test
  else if F.LANE_LN_CTRL_EN.get w = 0 then some .disabled
  else if st = .test ∨ st = .disabled then some .waitSignal
  else none

/-- A lane's controls take effect. -/
def Device.settleLane (d : Device) (l : Nat) : Device :=
  match d.restState l with
  | some st => if st = (d.laneSt l).st then d else d.laneTo l st
  | none => d

/-- The port asks for the dormant state: DORMANT_REQ = 1 on four lanes or more (R86). -/
def Device.asksDormant (d : Device) (p : Nat) : Bool :=
  d.portEn p && decide (4 ≤ d.portWidth p) && F.LANE_LN_BRINGUP_DORMANT_REQ.get (d.bringReg p) == 1

/-- The transmitter of a lane is at electrical idle: the core clock has stopped, or the lane is not in use (R28, R76, R83); it waits
without a port, as after a port's disable (R81); or its port exchanges pages on its first lane (R79). -/
def Device.txIdle (d : Device) (l : Nat) : Bool :=
  d.dev.state == .off || d.dev.state == .reset || d.dev.state == .thermal ||
    match (d.laneSt l).st with
    | .disabled | .retired | .dormant => true
    | .waitSignal => (d.portOf l).isNone
    | .an => d.innerLane l
    | _ => false

end Sys2Proof.Machine
end

