-- ==== Sys2Proof/Machine/Ports.lean ====
section
/-! DEFINITION. The MAC's flow control and port state: port up and down (R96, R108), received frames that fail (R98), pause
and PFC (R103 to R105), link delay and headroom (R106, R107, R260), and low-power idle (R102). -/

namespace Sys2Proof.Machine

-- Frames that fail (R98, R227) -------------------------------------------------------------------------------------

/-- What the end of a received frame settles whatever became of it: its meters' charges, its action counters, and the flow
record of a packet whose life ended before its length was known (R141, R223, R277). -/
def Device.settleEnd (d : Device) (id : Nat) : Device :=
  match d.frame id with
  | none => d
  | some f =>
    let len := f.rxLen.toNat
    -- what a fenced gallery counts stands as it was at the fence (R34)
    let d := f.charges.foldl (fun d c => if d.isFenced c.1 then d else d.settleMeter c.1 len c.2) d
    let d := f.counted.foldl (fun d a => if d.isFenced ((a - 0x4000000) / 0x200000) then d else d.countN a len) d
    let d := d.modFrame id fun f => { f with charges := [], counted := [], flowPend := none }
    match f.flowPend with
    | some (drop, res) =>
      d.flowEnd f.tracked
        { inPort := f.inPort, key := f.flowKey, iclass := f.iclass, gal := f.gal, len := f.got, tsClk := f.tsClk,
          res := res, eg := f.eg, held := f.held, drop := drop }
    | none => d

/-- ENQ_BYTES of the copies that were admitted before the frame's length was known (R216). -/
def Device.countEnq (d : Device) (id : Nat) : Device :=
  match d.frame id with
  | none => d
  | some f =>
    f.enqOpen.foldl (fun d e => d.queueCount e.1 1 (f.kept e.2)) (d.modFrame id fun f => { f with enqOpen := [] })

/-- The frame is no longer being received. -/
def Device.endReceiving (d : Device) (id : Nat) : Device :=
  { d with pkt := { d.pkt with receiving := d.pkt.receiving.filter fun e => e.2 ≠ id } }

/-- A received frame fails: its packet, wherever it stands, and every copy made of it are drops of their own with the same
code; a copy that has begun on egress is ended with an inverted FCS (R98). -/
def Device.failFrame (d : Device) (id code : Nat) : Device :=
  match d.frame id with
  | none => d
  | some f =>
    let d := (d.setFrame { f with ended := true, checked := true, deferred := [] }).endReceiving id
    let d := (d.countEnq id).settleEnd id
    let d := if f.consumed then d.loseOne f
        { code := code, gal := f.gal, inPort := f.inPort, iclass := f.iclass, len := f.bytes.length, stamp := f.stamp }
      else d
    let d := (d.host.traps.filter fun t => t.frame = id).foldl (fun d t => d.dropTrap t code) d
    let d := (d.dropCopies id code f.gal fun _ => true).failFlight id code
    let d := (d.pkt.lateMirrors.filter fun c => c.frame = id).foldl (fun d c => d.loseEgMirrors f c code f.gal) d
    let d := { d with pkt := { d.pkt with lateMirrors := d.pkt.lateMirrors.filter fun c => c.frame ≠ id } }
    d.releaseFrame id

/-- The frame that port `p` is receiving. -/
def Device.receivingOn (d : Device) (p : Nat) : Option Frame :=
  match d.pkt.receiving.find? fun e => e.1 = p with
  | some e => d.frame e.2
  | none => none

-- Port up and down (R96, R108) -------------------------------------------------------------------------------------

/-- Discard every frame queued for a port, each with QUEUE_FLUSHED (R108). -/
def Device.flushPort (d : Device) (p : Nat) : Device :=
  (d.hall.copies.filter fun c => c.queue / 16 = p ∧ c.phase ≠ .sending).foldl (fun d c =>
    let d := (d.portCount p 22 1).queueCount c.queue 7 1
    d.dropCopy c.uid 0x61 (p / 32) false none) d

/-- AUTO members show whether their port is up (R163). -/
def Device.showPort (d : Device) (p : Nat) : Device :=
  let s := d.port p
  if s.shown = s.up then d else (d.modPort p fun s => { s with shown := s.up }).autoMembers p s.up

/-- A port's link is down: what it held of it is given up. -/
def PortSt.lose (s : PortSt) : PortSt :=
  { s with
    up := false, downDue := false, stops := [], pdelayOpen := none, pdelayNext := none, lpiTxAt := none, lpiRxAt := none
    fcEn := 0, xoffAt := [], badNext := 0 }

/-- A port goes down, at a boundary (R108): queues flushed, stops cleared, the frame in reception ended as one whose FCS does
not match, and AUTO members of its number no longer live (R163). -/
def Device.portDown (d : Device) (p : Nat) : Device :=
  if !(d.port p).up then d
  else
    let d := d.modPort p PortSt.lose
    let d := (d.portCount p 19 1).flushPort p
    let d := match d.receivingOn p with
      | some f => (d.portCount p 2 1).failFrame f.id 0x22
      | none => d
    (d.showPort p).modBring p fun b => { b with downSince := d.now }

/-- A port whose conditions no longer hold goes down at the next boundary (R108). -/
def Device.settlePort (d : Device) (p : Nat) : Device :=
  let d := d.settleFault p
  if (d.port p).up && !d.mayBeUp p then d.modPort p fun s => { s with downDue := true } else d

/-- All lanes of a port of four or more enter DORMANT, those that are in its bring-up. SIG_DET that rose in the same stroke
cancels the entry (R87), and a lost reference keeps the lanes in WAIT_SIGNAL (R73). -/
def Device.goDormant (d : Device) (p : Nat) : Device :=
  if ((d.portLanes p).any fun l => (d.laneSt l).sigIn = d.strokeNo + 1) ∨ bit d.lane.refBad (p / 128) ∨ d.isFenced (p / 32) then d
  else
    let d := if (d.laneSt p).st = .up then d.setCause p 6 else d
    let d := (d.portLanes p).foldl (fun d l =>
      let s := d.laneSt l
      if s.free ∧ s.st ≠ .test ∧ s.st ≠ .disabled then d.laneTo l .dormant else d) d
    (d.modBring p fun b => { b with trainBy := none, wokeAt := none, upDue := false, dormantIn := d.strokeNo + 1 }).settlePort p

/-- A port that is to go down does. -/
def Device.dropPort (d : Device) (p : Nat) : Device := if (d.port p).downDue then d.portDown p else d

/-- The ports that are up. -/
def Device.portsUp (d : Device) : List Nat := d.ports.filterMap fun e => if e.2.up then some e.1 else none

/-- LANE_UP and PORT_DOWN at a boundary: lanes that hold lock enter UP (R80), every port whose conditions have failed goes down
(R108), and AUTO members follow the ports that came up (R163). -/
def Device.portBoundary (d : Device) : Device :=
  let d := (d.lane.bring.map (·.1)).foldl (fun d p => d.raiseLanes p) d
  let d := d.portsUp.foldl (fun d p => (d.settlePort p).dropPort p) d
  (d.ports.map (·.1)).foldl (fun d p => d.showPort p) d

/-- PORT_DOWN: the PCS of port `p` receives a fault sequence (1 local, 2 remote; 0: none is received), or another condition
has failed; in a boundary's cycle the port goes down at it, and otherwise at the next (R108). -/
def portDown (d : Device) (p fault : Nat) : Device :=
  let f : DownReason := if fault = 1 then .localFault else if fault = 2 then .remoteFault else .none
  let d := (d.modPort p fun s => { s with rxFault := f }).settlePort p
  if d.stroke.cyc = 0 then d.dropPort p else d

/-- PORT_UP: no fault sequence is received; with its lanes UP the port is UP, its delay exchange starts, and its AUTO members
follow at the boundary where it comes up, or else at the next (R106, R108, R163). -/
def portUp (d : Device) (p : Nat) : Device :=
  let d := d.modPort p fun s => { s with rxFault := .none }
  if (d.port p).up ∨ !d.mayBeUp p then d
  else
    let cfg := d.cfg (ofPort A.PORT_PT_DELAY_CFG p)
    let exch := F.PORT_PT_DELAY_CFG_EXCH_EN.get cfg = 1
    let d := d.modPort p fun s => { s with
      up := true
      downDue := false
      pdelayOpen := none
      delayFails := 0
      pdelayNext := none
      delay := if exch then s.delay else 4 * F.PORT_PT_DELAY_CFG_DELAY_DEFAULT.get cfg
      delaySrc := if exch then s.delaySrc else 2
      idleSince := d.now
      hdrmDirty := true }
    let d := d.modBring p fun b => { b with wokeAt := none }
    if d.stroke.cyc = 0 then d.showPort p else d

/-- Does the configuration word of port `p` pass the checks of R96? DESIGN CHOICE (log entry 66): the check that a PAM4 rate is not
set with FEC = none is made in NEGOTIATE too. -/
def Device.portCfgOk (d : Device) (p : Nat) (w : Word) : Bool :=
  let width := F.PORT_PT_CFG_WIDTH.get w
  let n := 2 ^ width
  let fec := F.PORT_PT_CFG_FEC.get w
  let clash := (List.range 1024).any fun q =>
    q != p && d.portEn q && decide (q < p + n) && decide (p < q + d.portWidth q)
  match laneRate (F.PORT_PT_CFG_SPEED.get w) width with
  | none => false
  | some r => decide (p % n = 0) && !clash && !(decide (1 ≤ r) && fec == 0) && !(!d.negotiates p && fec == 3)

/-- The port's lanes leave it for WAIT_SIGNAL, those that are in its bring-up; DOWN_CAUSE 0x5 is written to every one (R81). -/
def Device.portDisable (d : Device) (p : Nat) : Device :=
  let ls := d.portLanes p
  let d := d.setReg (ofPort A.PORT_PT_CFG p) (F.PORT_PT_CFG_EN.put (d.reg (ofPort A.PORT_PT_CFG p)) 0)
  let d := ls.foldl (fun d l =>
    let s := d.laneSt l
    (if s.free ∧ s.st ≠ .test ∧ s.st ≠ .disabled then d.laneTo l .waitSignal else d).setCause l 5) d
  (d.modBring p fun b => { b with trainBy := none, wokeAt := none, upDue := false }).settlePort p

/-- A write of PT_CFG (R96): an enable is checked, a disable takes the port down, and WIDTH, SPEED, FEC and FEC_LL stay
while the port is enabled. DESIGN CHOICE (log entry 66): a write that leaves those four at their values is not recorded. -/
def ptCfgWrite (d : Device) (src : Source) (p : Nat) (w : Word) : Device :=
  let a := ofPort A.PORT_PT_CFG p
  let w := w &&& 0x1FFF#32
  if d.innerLane p then d
  else if F.PORT_PT_CFG_EN.get (d.reg a) = 0 then
    if F.PORT_PT_CFG_EN.get w = 0 then d.setReg a w
    else if d.portCfgOk p w then
      let d := (d.setReg a w).modPort p fun s => { s with hdrmDirty := true, rxFault := .none }
      let d := (d.modBring p fun b => { b with downSince := d.now }).restart p
      if d.asksDormant p then d.goDormant p else d
    else d.refuse src a
  else
    let old := d.reg a
    let kept := old &&& 0x1FE#32
    let d := if w &&& 0x1FE#32 = kept then d else d.refuse src a
    let d := (d.setReg a ((w &&& 0x1E01#32) ||| kept)).modPort p fun s => { s with hdrmDirty := true }
    if F.PORT_PT_CFG_EN.get w = 0 then d.portDisable p else d

-- MAC control frames (R104, R105, R445) ----------------------------------------------------------------------------

/-- Set, replace or end a stop: priorities 0 to 7, and 8 for the port (R105). -/
def Device.setStop (d : Device) (p k quanta : Nat) : Device :=
  d.modPort p fun s =>
    let rest := s.stops.filter fun e => e.1 ≠ k
    { s with stops := if quanta = 0 then rest else rest ++ [(k, d.now + d.quantaTime p quanta)] }

/-- PFC_RECEIVE: a PFC frame whose class-enable bits are `en`, with the quanta of the eight priorities (R98, R105). -/
def pfcReceive (d : Device) (p en : Nat) (quanta : List Nat) : Device :=
  if !(d.port p).up then d
  else
    let d := d.portCount p 7 1
    if d.fcMode p ≠ 2 then d
    else (List.range 8).foldl (fun d q =>
      if bit en q ∧ bit (d.fld (ofPort A.PORT_PT_PFC p) F.PORT_PT_PFC_RX_EN) q then
        d.setStop p q (quanta.getD q 0 % 65536)
      else d) d

/-- PAUSE_RECEIVE: a pause frame stops every queue of the port (R98, R105). -/
def pauseReceive (d : Device) (p quanta : Nat) : Device :=
  if !(d.port p).up then d
  else
    let d := d.portCount p 6 1
    if d.fcMode p = 1 then d.setStop p 8 (quanta % 65536) else d

/-- PFC_STOP_EXPIRE: the stops of port `p` whose quanta have run out end, at the boundary where they mature (R41, R105). -/
def pfcStopExpire (d : Device) (p cyc : Nat) : Device :=
  let d := d.atCyc cyc
  d.modPort p fun s => { s with stops := s.stops.filter fun e => !d.matured e.2 }

/-- The XON point of a class: the XOFF point less XON_DELTA, but never below LMIN (R185). -/
def Device.xonPoint (d : Device) (p c : Nat) : Nat :=
  let lmin := d.cMinEff p c
  max lmin (lmin + d.classT p c - d.fld (pReg (A.HALL_C_CFG c) p) F.HALL_C_CFG_XON_DELTA)

/-- Cells a class holds, all charges. -/
def ClassSt.held (s : ClassSt) : Nat := s.heldMin + s.heldShared + s.heldHdrm

/-- The priorities of a port whose classes are to be at XOFF: those past their point, and with ingress pacing, on a port with
FC_MODE = PFC, every class that holds headroom (R104, R185, R383). -/
def Device.xoffPris (d : Device) (p : Nat) : Nat :=
  (List.range (d.losslessPris p).length).foldl (fun m c =>
    if (d.classSt p c).xoff ∨ (d.damper.paced ∧ d.fcMode p = 2 ∧ 0 < d.classH p c) then setBit m ((d.losslessPris p).getD c 0) else m) 0

/-- The priorities that a port's flow-control frame names at the boundary: those whose state changed, and those that went to XOFF
and back to XON within the stroke, whose later state is sent (R110). `had` are those at XOFF before classes returned to XON. -/
def fcNames (pause : Bool) (was had want : Nat) : Nat :=
  if pause then (if decide (want = 0) == decide (was = 0) && (decide (want ≠ 0) || decide (had = 0)) then 0 else 255)
  else (want ^^^ was) ||| (had ^^^ want)

/-- Classes at or below their XON point that hold no headroom cell return to XON (R185). -/
def Device.xonClasses (d : Device) : Device :=
  d.hall.classes.foldl (fun d e =>
    let p := e.1 / 4
    let c := e.1 % 4
    let s := d.classSt p c
    if s.xoff ∧ s.heldHdrm = 0 ∧ s.held ≤ d.xonPoint p c then d.setClassSt p c { s with xoff := false } else d) d

/-- Flow control at the boundary: classes return to XON, and each port whose priorities changed sends one frame (R104,
R110, R185). -/
def Device.fcBoundary (d : Device) : Device :=
  let ps := dedup ((d.hall.classes.map fun e => e.1 / 4) ++
    d.ports.filterMap fun e => if e.2.xoff ≠ 0 ∨ e.2.hdrm.any (0 < ·) then some e.1 else none)
  let had := ps.map fun p => (p, d.xoffPris p)
  had.foldl (fun d e =>
    let want := d.xoffPris e.1
    let en := fcNames (d.fcMode e.1 == 1) (d.port e.1).xoff e.2 want
    let d := d.modPort e.1 fun s => { s with xoff := want }
    if en = 0 then d else d.askFc e.1 en) d.xonClasses

/-- XOFF of the priority, or of pause as 8, was sent 32,768 quanta ago, or never since the port came up. -/
def Device.xoffDue (d : Device) (p k : Nat) : Bool :=
  match (d.port p).xoffAt.find? fun e => e.1 = k with
  | some e => d.matured (e.2 + d.quantaTime p 32768)
  | none => true

/-- PFC_XOFF_REPEAT: while a class stays at XOFF the frame is sent again every 32,768 quanta (R104). -/
def pfcXoffRepeat (d : Device) (p cyc : Nat) : Device :=
  let d := d.atCyc cyc
  let s := d.port p
  let due := if d.fcMode p = 1 then (if s.xoff ≠ 0 ∧ d.xoffDue p 8 then 255 else 0)
    else (List.range 8).foldl (fun m q => if bit s.xoff q && d.xoffDue p q then setBit m q else m) 0
  if due = 0 then d else d.askFc p due

-- Headroom (R107) --------------------------------------------------------------------------------------------------

/-- H of R107 in cells, from D in units of 0.25 ns. -/
def Device.headroomOf (d : Device) (p : Nat) : Nat :=
  let resp := d.fld (ofPort A.PORT_PT_DELAY_CFG p) F.PORT_PT_DELAY_CFG_PEER_RESP
  ceilDiv (d.portGb p * ((d.port p).delay + 128 + 2 * resp)) (16 * 84) + 2 * ceilDiv (d.maxFrame p) 256

/-- Headroom taken over all ports: what a class has reserved, or what it holds where that is more, so that the classes together
never hold more than the pool (R59, R70). -/
def Device.hdrmUsed (d : Device) : Nat :=
  (d.ports.map fun e =>
    ((List.range 4).map fun k => max (e.2.hdrm.getD k 0) (d.classSt e.1 k).heldHdrm).sum).sum

/-- What class `c` of port `p` asks for: OVERRIDE, or COMPUTED where it is 0; nothing for an index that has no class. -/
def Device.hdrmWant (d : Device) (p c : Nat) : Nat :=
  if c < (d.losslessPris p).length then
    let r := d.reg (A.PORT_PT_HDRM (p / 32) (p % 32) c)
    if F.PORT_PT_HDRM_OVERRIDE.get r = 0 then F.PORT_PT_HDRM_COMPUTED.get r else F.PORT_PT_HDRM_OVERRIDE.get r
  else 0

/-- Reserve one class's headroom (R107, R110). A class that cannot have all gets none, but where a new D alone raises its need it
keeps what it had. Where its need falls, the old reservation stays until the cells of the class, all of them (R110's words), have
fallen to the new one; a need that falls by OVERRIDE, MAX_FRAME or PEER_RESP waits in the same way (DESIGN CHOICE, log entry 66:
R110 says so of a new D). `newD` tells that D alone changed; the answer's flag, that the class is short. -/
def Device.hdrmReserve (d : Device) (p c : Nat) (newD : Bool) : Device × Bool :=
  let old := (d.port p).hdrm.getD c 0
  let want := d.hdrmWant p c
  let set (n : Nat) : Device :=
    d.modPort p fun s => { s with hdrm := (List.range 4).map fun k => if k = c then n else s.hdrm.getD k 0 }
  let again (d : Device) : Device :=
    d.modPort p fun s => if newD then { s with hdrmNewD := true } else { s with hdrmDirty := true }
  if want ≤ old then
    if (d.classSt p c).held ≤ want then (set want, false) else (again (set old), false)
  else if want - max old (d.classSt p c).heldHdrm + d.hdrmUsed ≤ profHeadroom d.profile.active then (set want, false)
  else (again (set (if newD then old else 0)), true)

/-- HEADROOM_COMPUTE for a port: COMPUTED of every lossless class, then the reservations in class order. -/
def Device.hdrmPort (d : Device) (p : Nat) : Device :=
  let newD := !(d.port p).hdrmDirty
  let d := d.modPort p fun s => { s with hdrmDirty := false, hdrmNewD := false }
  let h := min (d.headroomOf p) 65535
  let d := (List.range 4).foldl (fun d c =>
    let v := if c < (d.losslessPris p).length then h else 0
    d.setFld (A.PORT_PT_HDRM (p / 32) (p % 32) c) F.PORT_PT_HDRM_COMPUTED v) d
  let r := (List.range 4).foldl (fun (r : Device × Bool) c =>
    let q := r.1.hdrmReserve p c newD
    (q.1, r.2 || q.2)) (d, false)
  r.1.modPort p fun s => { s with hdrmShort := r.2 }

/-- HEADROOM_COMPUTE at the boundary, ports in ascending order; where the pool has become smaller than what is reserved,
every reservation is made anew (R107). -/
def Device.hdrmBoundary (d : Device) : Device :=
  let all := profHeadroom d.profile.active < d.hdrmUsed
  let ps := d.ports.filterMap fun e => if e.2.hdrmDirty ∨ e.2.hdrmNewD ∨ (all ∧ e.2.hdrm ≠ []) then some e.1 else none
  if ps.isEmpty then d
  else
    let d := if all then { d with ports := d.ports.map fun e => (e.1, { e.2 with hdrm := [], hdrmDirty := true }) } else d
    let d := ps.foldl (fun d p => d.hdrmPort p) d
    let short := d.ports.findSome? fun e =>
      if e.2.hdrmShort then
        ((List.range 4).find? fun c => decide (0 < d.hdrmWant e.1 c) && e.2.hdrm.getD c 0 == 0).map fun c => (e.1, c)
      else none
    let d := if d.hall.short.isNone ∧ short.isSome then d.raise 0x90000 2 else d
    { d with hall := { d.hall with short := short } }

-- The peer-delay exchange (R106, R260) -----------------------------------------------------------------------------

/-- A port's PTP portIdentity: CLOCK_ID and PTP_PORTNUM. -/
def Device.ptpIdentity (d : Device) (p : Nat) : Nat :=
  d.pair A.TIME_CLOCK_ID_LO A.TIME_CLOCK_ID_HI * 65536 + d.fld (A.TSU_TS_CFG (p / 32) (p % 32)) F.TSU_TS_CFG_PTP_PORTNUM

/-- A peer-delay message on L2 (IEEE 1588-2019; PRESUMED layout), without FCS: type, correctionField, sequenceId and its body. -/
def Device.pdelayFrame (d : Device) (p typ flags corr seq : Nat) (body : Bytes) : Bytes :=
  let hdr := [BitVec.ofNat 8 typ, 0x02] ++ beBytes 2 (34 + body.length) ++ [0x00, 0x00] ++ beBytes 2 flags ++
    beBytes 8 corr ++ zeroBytes 4 ++ beBytes 10 (d.ptpIdentity p) ++ beBytes 2 seq ++ [0x05, 0x7F]
  macBody ([0x01, 0x80, 0xC2, 0x00, 0x00, 0x0E] ++ d.portMac p ++ [0x88, 0xF7] ++ hdr ++ body)

/-- A frame of the port's own leaves it, protected where MACsec is in use on transmit; one that gets no association or key is
dropped (R244, R245). -/
def Device.sendOwn (d : Device) (p : Nat) (body : Bytes) : Device :=
  let d := d.leaveLpiTx p
  match d.txLatch p with
  | (d, .lost code) => d.drop { code := code, gal := p / 32, inPort := p, len := body.length + 4, egress := true }
  | (d, .took m) => d.send (.frame p (m.protect body ++ fcsOf (m.protect body)))
  | (d, .off) => d.send (.frame p (body ++ fcsOf body))

/-- A request that got no valid response: three in a row, and the default delay is used (R106, R109). -/
def Device.pdelayFail (d : Device) (p : Nat) : Device :=
  if (d.port p).pdelayOpen.isNone then d
  else
    let d := d.portCount p 20 1
    let n := (d.port p).delayFails + 1
    let dflt := 4 * d.fld (ofPort A.PORT_PT_DELAY_CFG p) F.PORT_PT_DELAY_CFG_DELAY_DEFAULT
    d.modPort p fun s => { s with
      pdelayOpen := none
      delayFails := min n 3
      delay := if n < 3 then s.delay else dflt
      delaySrc := if n < 3 then s.delaySrc else 2
      hdrmNewD := s.hdrmNewD || decide (3 ≤ n) }

/-- PDELAY_EXCHANGE: port `p` sends a request when it enters UP and once per second after; `raw` is when it leaves (R106). -/
def pdelayExchange (d : Device) (p cyc lane : Nat) (raw : Int) : Device :=
  let d := d.atCyc cyc
  let due := match (d.port p).pdelayNext with
    | some t => d.matured t
    | none => true
  if !(d.port p).up ∨ !due ∨ d.fld (ofPort A.PORT_PT_DELAY_CFG p) F.PORT_PT_DELAY_CFG_EXCH_EN = 0 then d
  else
    let d := d.pdelayFail p
    let (t1, _, d) := d.stampAt p lane raw false
    let seq := (d.port p).pdelaySeq
    let d := d.modPort p fun s => { s with
      pdelayOpen := some (seq, t1), pdelaySeq := (seq + 1) % 65536, pdelayNext := some (d.now + secT 1) }
    d.sendOwn p (d.pdelayFrame p 2 0 0 seq (zeroBytes 20))

/-- The mean of a window of samples, rounded where it does not divide. -/
def Device.meanOf (d : Device) (l : List Int) : Int × Device := d.roundDiv l.sum l.length

/-- A looped port's one-way delays (R260), the last 16 of each averaged, in ps. -/
def Device.loopSample (d : Device) (p : Nat) (fwd rev : Int) : Device :=
  let (f, d) := d.roundDiv (fwd * 125) 8192
  let (r, d) := d.roundDiv (rev * 125) 8192
  let s := d.tsuSt p
  let s := { s with loopFwd := (f :: s.loopFwd).take 16, loopRev := (r :: s.loopRev).take 16 }
  let (mf, d) := (d.setTsu p s).meanOf s.loopFwd
  let (mr, d) := d.meanOf s.loopRev
  let d := d.setReg (A.TSU_TS_LOOP_FWD (p / 32) (p % 32)) (BitVec.ofNat 32 (unsignedOf mf 32))
  let d := d.setReg (A.TSU_TS_LOOP_REV (p / 32) (p % 32)) (BitVec.ofNat 32 (unsignedOf mr 32))
  d.count (tsuCnt (p / 32) 4)

/-- PDELAY_RESP_RECEIVE: the response to the open request, with its requestingPortIdentity, the partner's times `t2` and
`t3` in 2^-16 ns, and its arrival: D is computed (R106). DESIGN CHOICE (log entry 66): a negative D is held as 0, and one beyond
the 24 bits of DELAY as their greatest value. -/
def pdelayRespReceive (d : Device) (p cyc lane : Nat) (raw : Int) (seq reqId t2 t3 : Nat) : Device :=
  let d := d.atCyc cyc
  match (d.port p).pdelayOpen with
  | none => d
  | some (s, t1) =>
    if s ≠ seq ∨ reqId ≠ d.ptpIdentity p then d
    else
      let (t4, _, d) := d.stampAt p lane raw true
      let i (n : Nat) : Int := Int.ofNat n
      let (dly, d) := d.roundDiv ((i t4 - i t1) - (i t3 - i t2)) 32768
      let d := d.modPort p fun s => { s with
        pdelayOpen := none, delayFails := 0, delay := min dly.toNat 0xFFFFFF, delaySrc := 1, hdrmNewD := true }
      d.loopSample p (i t2 - i t1) (i t4 - i t3)

/-- PDELAY_REQ_ANSWER: a partner's request, received at `rxRaw`, is answered in one step at `txRaw`: the correctionField
carries t3 - t2 beyond the request's (R106). -/
def pdelayReqAnswer (d : Device) (p cyc rxLane : Nat) (rxRaw : Int) (txLane : Nat) (txRaw : Int) (seq srcId corr : Nat) :
    Device :=
  let d := d.atCyc cyc
  if !(d.port p).up then d
  else
    let (_, t2, d) := d.stampAt p rxLane rxRaw true
    let (_, t3, d) := d.stampAt p txLane txRaw false
    let c := unsignedOf (signed corr 64 + (Int.ofNat t3 - Int.ofNat t2)) 64
    d.sendOwn p (d.pdelayFrame p 3 0 c seq (zeroBytes 10 ++ beBytes 10 srcId))

-- Low-power idle (R102) --------------------------------------------------------------------------------------------

/-- Every queue of the port is empty. -/
def Device.queuesEmpty (d : Device) (p : Nat) : Bool := !(d.hall.copies.any fun c => c.queue / 16 = p)

/-- LPI_IDLE in force: 0 is treated as 1. -/
def Device.lpiIdle (d : Device) (p : Nat) : Nat := max 1 (d.fld (ofPort A.PORT_PT_LPI p) F.PORT_PT_LPI_LPI_IDLE)

/-- LPI_ENTER: the transmit direction of an idle port enters low-power idle, unless a flow-control frame is due (R102,
R110). -/
def lpiEnter (d : Device) (p cyc : Nat) : Device :=
  let d := d.atCyc cyc
  let s := d.port p
  let idle := d.matured (s.idleSince + usT (d.lpiIdle p))
  if s.up ∧ d.lanesUp p ∧ s.fcEn = 0 ∧ s.lpiTxAt.isNone ∧ d.fld (ofPort A.PORT_PT_CFG p) F.PORT_PT_CFG_LPI_EN = 1 ∧ d.queuesEmpty p ∧ idle ∧
      d.xoffPris p = s.xoff then
    let d := d.modPort p fun s => { s with lpiTxAt := some d.now }
    (d.portLanes p).foldl (fun d l => d.modLane l fun s => { s with txLpi := true }) d
  else d

/-- LPI_EXIT: a frame is queued, or a flow-control frame must be sent (R102). -/
def lpiExit (d : Device) (p cyc : Nat) : Device :=
  let d := d.atCyc cyc
  if !d.queuesEmpty p ∨ d.xoffPris p ≠ (d.port p).xoff then d.leaveLpiTx p else d

/-- LPI_PARTNER_SIGNAL: the receive direction enters or leaves low-power idle as the partner signals (R102). -/
def lpiPartner (d : Device) (p cyc : Nat) (enter : Bool) : Device :=
  let d := d.atCyc cyc
  let s := d.port p
  let lanes (d : Device) (on : Bool) : Device :=
    (d.portLanes p).foldl (fun d l => d.modLane l fun s => { s with rxLpi := on }) d
  match s.lpiRxAt with
  | none => if enter ∧ s.up then lanes (d.modPort p fun s => { s with lpiRxAt := some d.now }) true else d
  | some t =>
    if enter then d
    else lanes ((d.portCount p 18 ((d.now - t) / usT 1)).modPort p fun s => { s with lpiRxAt := none }) false

/-- At the boundary: whole microseconds in low-power idle are counted. -/
def Device.lpiBoundary (d : Device) : Device :=
  d.ports.foldl (fun d e =>
    let step (d : Device) (x : Nat) (at_ : Option Nat) (put : Nat → PortSt → PortSt) : Device :=
      match at_ with
      | none => d
      | some t => (d.portCount e.1 x ((d.now - t) / usT 1)).modPort e.1 (put (t + usT ((d.now - t) / usT 1)))
    let d := step d 17 e.2.lpiTxAt fun t s => { s with lpiTxAt := some t }
    step d 18 e.2.lpiRxAt fun t s => { s with lpiRxAt := some t }) d

end Sys2Proof.Machine
end

