-- ==== Sys2Proof/Machine/Rx.lean ====
section
/-! DEFINITION. The receive MAC: a frame's start, its bytes, its end and the integrity check that follows (R21, R98, R109,
R123, R242, R247, R248, R258). -/

namespace Sys2Proof.Machine

/-- The ingress class set for a port (R113). -/
def Device.portClass (d : Device) (p : Nat) : Nat :=
  bitsOf (d.cfg (A.PARSE_PS_PCLASS (p / 32) (p % 32 / 8))).toNat (4 * (p % 8)) 4

/-- The port receives frames: up, its gallery in service, and the device forwarding (R25, R108). -/
def Device.receives (d : Device) (p : Nat) : Bool := (d.port p).up && !d.isFenced (p / 32) && d.running

/-- A peer-delay message directly after its EtherType, on a port that answers them: the offset of its PTP header (R106, R261). -/
def Device.ownPdelay (d : Device) (p : Nat) (bs : Bytes) : Option Nat :=
  if 15 ≤ bs.length ∧ beAt bs 12 2 = 0x88F7 ∧ isPdelay bs 14 ∧ d.exchOn p then some 14 else none

/-- A MAC control frame (R98). -/
def isControl (bs : Bytes) : Bool := decide (14 ≤ bs.length) && beAt bs 12 2 == 0x8808

/-- A received frame without its SecTAG, before any rewriting. -/
def Frame.plain (f : Frame) : Bytes :=
  match f.sec with
  | some k => f.raw.take 12 ++ f.raw.drop (12 + k.tag)
  | none => f.raw

/-- A frame found to be the port's own, a MAC control frame or a peer-delay message, leaves ingress unseen (R98, R261). -/
def Device.takeOwn (d : Device) (id : Nat) : Device :=
  match d.frame id with
  | none => d
  | some f =>
    if f.consumed then d
    else
      let own := match d.ownPdelay f.inPort f.raw with
        | some o => some o
        | none => if f.secOpen then none else d.ownPdelay f.inPort f.plain
      if isControl f.raw || own.isSome then
        (d.endFlight id).setFrame { f with consumed := true, ptpOfs := own }
      else d

/-- MACSEC_RX_LOOKUP once the bytes it reads are there, or the frame has ended: the SecTAG is removed (R242). -/
def Device.secTry (d : Device) (id : Nat) : Device :=
  match d.frame id with
  | none => d
  | some f =>
    if !f.secOpen ∨ (f.bytes.length < secLookupBytes ∧ !f.ended) then d
    else match d.rxLookup f.inPort f.bytes f.start f.integSeq with
      | none => d.setFrame { f with secOpen := false }
      | some k => d.setFrame { f with
          secOpen := false, sec := some k, bytes := f.bytes.take 12 ++ f.bytes.drop (12 + k.tag) }

/-- More bytes of a frame pass the receive MAC, which stops at MAX_FRAME (R98). -/
def Device.addBytes (d : Device) (id : Nat) (bs : Bytes) : Device :=
  let d := d.modFrame id fun f =>
    let bs := bs.take (f.maxFrame - f.raw.length)
    { f with
      bytes := f.bytes ++ bs
      raw := f.raw ++ bs
      got := f.got + bs.length }
  ((d.secTry id).takeOwn id)

/-- These further bytes exceed MAX_FRAME. -/
def Frame.exceeds (f : Frame) (bs : Bytes) : Bool := decide (f.maxFrame < f.raw.length + bs.length)

/-- Bytes that have come go on: to the parse that waits for them, and into the cells of copies and of the stair. -/
def Device.pushBytes (d : Device) (id : Nat) : Device :=
  let parsing := ((d.flight id).map fun x => x.phase == .parsing).getD false
  let d := if parsing then d.runParse id else d
  ((d.stairGrow id).growFrame id).readFrame id

/-- A frame longer than MAX_FRAME: receive stops there and the frame fails (R98). -/
def Device.oversized (d : Device) (f : Frame) : Device :=
  (d.portCount f.inPort 4 1).failFrame f.id 0x23

/-- FRAME_RECEIVE_START: the receive MAC of port `p` passes the first byte of a frame in cycle `c`; its first bit crossed
the balls of `lane` at `raw` (R19, R21, R113, R258). Without a valid start-of-frame delimiter it is discarded (R98). -/
def frameReceiveStart (d : Device) (p c lane : Nat) (raw : Int) (sfd : Bool) (bs : Bytes) : Device :=
  let d := d.atStage c
  if !d.receives p ∨ (d.receivingOn p).isSome then d
  else if !sfd then d.portCount p 5 1
  else
    let (clk, free, d) := d.stampAt p lane raw true
    let id := d.pkt.nextId
    let cls := d.portClass p
    let f : Frame :=
      { id := id, gal := p / 32, inPort := p, checked := false, start := d.absCyc, integSeq := d.integ.writes, tsClk := clk, tsFree := free,
        iclass := cls, maxFrame := d.maxFrame p, secOpen := F.INTEG_P_CFG_RX_MODE.get (d.integCfg p) != 0 }
    let x : Flight := { id := id, gal := p / 32, src := .port p, ready := d.absCyc, iclass := cls }
    let d := { d with pkt := { d.pkt with
      nextId := id + 1
      frames := d.pkt.frames ++ [(id, f)]
      flights := d.pkt.flights ++ [x]
      receiving := d.pkt.receiving ++ [(p, id)] } }
    let overLen := f.exceeds bs
    let d := d.addBytes id bs
    match d.frame id with
    | some f => if overLen then d.oversized f else d
    | none => d

/-- PARSE_RESUME: the frame that port `p` is receiving has more bytes, and a parse that waits for one of them resumes
(R111). -/
def parseResume (d : Device) (p c : Nat) (bs : Bytes) : Device :=
  let d := d.atStage c
  match d.receivingOn p with
  | none => d
  | some f =>
    let overLen := f.exceeds bs
    let d := d.addBytes f.id bs
    match d.frame f.id with
    | some f => if overLen then d.oversized f else d.pushBytes f.id
    | none => d

/-- A MAC control frame acts (R98, R105): pause (0x0001) and PFC (0x0101). -/
def Device.macControl (d : Device) (p : Nat) (bs : Bytes) : Device :=
  if beAt bs 14 2 = 0x0101 then pfcReceive d p (beAt bs 16 2) ((List.range 8).map fun q => beAt bs (18 + 2 * q) 2)
  else if beAt bs 14 2 = 0x0001 then pauseReceive d p (beAt bs 16 2)
  else d

/-- What follows for a packet once its frame's length and bytes are final: its late length checks, charges and statistics
(R123, R141, R209, R216, R223). -/
def Device.frameComplete (d : Device) (id : Nat) : Device :=
  match d.frame id with
  | none => d
  | some f =>
    let parsing := ((d.flight f.id).map fun x => x.phase == .parsing).getD false
    let d := if parsing then d.parseStep id else d
    let d := ((d.stairGrow id).growFrame id).readFrame id
    let d := ((d.countEnq id).settleEnd id).endMirrors id
    let d := d.completeChecks id
    let d := (d.copiesOf id).foldl (fun d c => d.correctCharge c.uid) d
    d.releaseFrame id

/-- A frame whose MAC checks have passed meets its receive channel's decision (R242): counted, dropped, or left to the ICV
check. -/
def Device.secDecide (d : Device) (id : Nat) : Device :=
  match d.frame id with
  | none => d
  | some f =>
    match f.sec with
    | none => d
    | some k =>
      let d := k.counts.foldl (fun d x => d.count (integCnt f.gal x)) d
      match k.verdict with
      | some code => d.failFrame id code
      | none =>
        if k.key.isNone then d
        else d.setFrame { f with bytes := f.bytes.take (f.bytes.length - 20) ++ f.bytes.drop (f.bytes.length - 4) }

/-- Nothing of the frame is left to check: it is not protected on receive, and PTP authentication is off (R242, R248). -/
def Device.unchecked (d : Device) (f : Frame) : Bool :=
  !(f.sec.map fun k => k.key.isSome).getD false && !d.ptpAuth f.integSeq f.inPort

/-- The symbol errors that the decoder in use corrects in a codeword; none without FEC (R99). -/
def Device.fecLimit (d : Device) (p : Nat) : Option Nat :=
  let ll := d.flag (ofPort A.PORT_PT_CFG p) F.PORT_PT_CFG_FEC_LL
  match (d.port p).fecInUse with
  | 1 => some (if ll then 4 else 7)
  | 2 => some (if ll then 8 else 15)
  | _ => none

/-- Uncorrectable codewords count, and toward RETRAIN_UNC for 1 ms (R81, R99, R109). -/
def Device.addUncorr (d : Device) (p n : Nat) : Device :=
  if n = 0 then d
  else (d.portCount p 16 n).modBring p fun b => { b with
    uncs := (b.uncs.filter fun e => d.now < e.1 + msT 1) ++ [(d.now, n)] }

/-- Codewords received on a port that is up, each with its symbol errors and how many frames it touches, from the one that ends on:
they are counted (R109), and the flag tells that an uncorrectable one, reported now or with a frame before, touches this frame (R98,
R99). -/
def Device.codewords (d : Device) (p : Nat) (cws : List (Nat × Nat)) : Device × Bool :=
  match d.fecLimit p with
  | none => (d, false)
  | some lim =>
    let bad := cws.filter fun c => lim < c.1
    let fixed := cws.filter fun c => 0 < c.1 ∧ c.1 ≤ lim
    let d := ((d.portCount p 13 cws.length).portCount p 14 fixed.length).portCount p 15 (fixed.map (·.1)).sum
    let was := (d.port p).badNext
    let d := d.modPort p fun s => { s with badNext := (bad.map (·.2 - 1)).foldl max (was - 1) }
    (d.addUncorr p bad.length, decide (0 < was) || bad.any fun c => decide (0 < c.2))

/-- FRAME_RECEIVE_END: the last bytes of port `p`'s frame. `cws` are the codewords received since the last report, each with its
symbol errors and how many frames it touches, from this one on (R98, R99, R109). -/
def frameReceiveEnd (d : Device) (p c : Nat) (bs : Bytes) (cws : List (Nat × Nat)) : Device :=
  let d := d.atStage c
  let (d, uncorr) := if (d.port p).up then d.codewords p cws else (d, false)
  match d.receivingOn p with
  | none => d
  | some f0 =>
    let id := f0.id
    let overLen := f0.exceeds bs
    let d := (d.modFrame id fun f => { f with ended := true }).endReceiving id
    let d := d.addBytes id bs
    match d.frame id with
    | none => d
    | some f =>
      let raw := f.raw
      if raw.length < 64 then (d.portCount p 3 1).failFrame id 0x24
      else if overLen then d.oversized f
      else if uncorr ∨ !fcsGood raw then (d.portCount p 2 1).failFrame id 0x22
      else if beAt raw 12 2 = 0x8808 then ((d.macControl p raw).modFrame id fun f => { f with checked := true }).releaseFrame id
      else
        let d := (d.portCount p 0 1).portCount p 1 raw.length
        let d := d.event (some (p / 32)) 0x1003 raw.length (some p) (d.evOf f 0 false)
        let d := d.secDecide id
        let d := match d.frame id with
          | some f => if d.unchecked f then d.setFrame { f with checked := true } else d
          | none => d
        d.frameComplete id

/-- ICV_CHECK_RESULT: the check of port `p`'s oldest ended frame completes (R242, R247, R248). In STRICT mode a frame whose
ICV fails is dropped, or stomped where it has begun; a PTP message waits until its parse has found it. -/
def icvCheckResult (d : Device) (p c : Nat) : Device :=
  let d := d.atStage c
  match d.pkt.frames.find? fun e => e.2.inPort = p ∧ e.2.rx ∧ e.2.ended ∧ !e.2.checked with
  | none => d
  | some (id, f) =>
    let parsing := ((d.flight id).map fun x => decide (x.pass = 0) && (x.phase == .ready || x.phase == .parsing)).getD false
    let auth := d.ptpAuth f.integSeq p
    if auth ∧ parsing then d
    else
      let (d, bad) : Device × Bool := match f.sec with
        | none => (d, false)
        | some k =>
          if k.key.isNone then (d, false)
          else if k.verifies f.raw then ((d.count (integCnt f.gal 0)).rxAdvance f.gal k, false)
          else
            let d := d.count (integCnt f.gal 1)
            (if k.strict then d.raise (galBase f.gal 9) 2 else d, k.strict)
      if bad then d.failFrame id 0x70
      else
        let (d, ok) := match f.ptpOfs with
          | some o =>
            if auth then d.ptpCheck p f.plain o f.start f.integSeq else (d, none)
          | none => (d, none)
        if ok = some false then (d.modFrame id fun f => { f with ptpOk := ok }).failFrame id 0x70
        else (d.modFrame id fun f => { f with ptpOk := ok, checked := true }).releaseFrame id

end Sys2Proof.Machine
end

