-- ==== Sys2Proof/Machine/Bringup.lean ====
section
/-! DEFINITION. Lane bring-up, retraining and retirement, TEST, dormancy and the PRBS and injection functions (R73, R77,
R79 to R87). -/

namespace Sys2Proof.Machine

-- Leaving a port ---------------------------------------------------------------------------------------------------

/-- The other lanes of a lane's port go back to WAIT_SIGNAL, and a port that was up goes down. -/
def Device.leavePort (d : Device) (l : Nat) : Device :=
  match d.portOf l with
  | none => d
  | some p => (d.restart p).settlePort p

/-- A lane is retired: electrical idle, its port held down, until a cold reset (R83). -/
def Device.holdRetired (d : Device) (l : Nat) : Device :=
  let p := d.portOf l
  let d := (d.laneTo l .retired).raise (laneBase l) 2
  match p with
  | none => d
  | some p => (d.restart p).settlePort p

/-- A lane's third charge retires it: logged, and added to the retirement record (R82, R83, R399). -/
def Device.retireLane (d : Device) (l : Nat) : Device :=
  ((d.logFault (lanePlace l) 3 6 3).retireRecord 4 (lanePlace l) 0xFFFF).holdRetired l

-- Bring-up (R79, R80) ----------------------------------------------------------------------------------------------

/-- In P7, and where WAKE_SD = 1, signal detect wakes a dormant port (R86). -/
def Device.wakes (d : Device) (p : Nat) : Bool :=
  d.profile.active == 7 || F.LANE_LN_BRINGUP_WAKE_SD.get (d.bringReg p) == 1

/-- SIGNAL_DETECT: a lane's SIG_DET rises. A dormant port wakes; an entry into DORMANT in the same stroke is cancelled
(R79, R86, R87). -/
def signalDetect (d : Device) (l cyc : Nat) : Device :=
  let d := (d.atCyc cyc).modLane l fun s => { s with sigDet := true, sigIn := if s.sigDet then s.sigIn else d.strokeNo + 1 }
  match d.portOf l with
  | none => d
  | some p =>
    let fresh := decide ((d.bring p).dormantIn = d.strokeNo + 1)
    if d.linkSeq p ∧ d.isDormant p ∧ (d.wakes p ∨ fresh) then
      let d := if fresh then d else d.raise (laneBase p) 4
      (d.modBring p fun b => { b with
        dormantIn := 0, wokeAt := if d.profile.active = 7 then some d.now else none }).wakePort p
    else d.tryStart p

/-- SIGNAL_LOST: a lane's SIG_DET is lost; from UP the port returns to WAIT_SIGNAL without charge (R81). -/
def signalLost (d : Device) (l cyc : Nat) : Device :=
  let d := (d.atCyc cyc).modLane l fun s => { s with sigDet := false }
  if (d.laneSt l).st = .up ∧ d.linkSeq l then (d.setCause l 4).leavePort l else d

/-- The FEC that two ends' request bits resolve (R101). -/
def resolveFec (rate ours theirs : Nat) : Nat :=
  if 1 ≤ rate then 2
  else if bit ours 1 ∧ bit theirs 1 then 2
  else if bit ours 0 ∧ bit theirs 0 then 1
  else 0

/-- AN_PAGE_RECEIVE: the partner's page on port `p`, with its RATES and FEC bits: the highest common rate is taken, or
NO_COMMON is set (R79, R96, R101). -/
def anPageReceive (d : Device) (p rates fec : Nat) : Device :=
  if (d.laneSt p).st ≠ .an ∨ !d.portEn p ∨ !d.linkSeq p then d
  else
    let adv := d.reg (ofLane A.LANE_LN_AN_ADV p)
    let w := d.fld (ofPort A.PORT_PT_CFG p) F.PORT_PT_CFG_WIDTH
    let ours := F.LANE_LN_AN_ADV_RATES.get adv
    let common := (List.range 4).filter fun r =>
      bit ours r && bit rates r && laneRate (r + w) w == some r
    let a := ofLane A.LANE_LN_AN_LP p
    let page := rates % 16 + fec % 4 * 16
    match common.getLast? with
    | none => d.setReg a (BitVec.ofNat 32 (page + 0x2000))
    | some r =>
      let d := d.setReg a (BitVec.ofNat 32 (page + 2 ^ (8 + r) + 0x1000))
      let d := d.setFld (ofPort A.PORT_PT_CFG p) F.PORT_PT_CFG_SPEED (r + w)
      let d := d.modPort p fun s => { s with fecInUse := resolveFec r (F.LANE_LN_AN_ADV_FEC.get adv) fec }
      (d.setRate p r).beginTrain p .train

/-- The port trains: its lanes are in TRAIN or RETRAIN. -/
def Device.training (d : Device) (p : Nat) : Bool :=
  (d.portLanes p).all fun l => (d.laneSt l).st == .train || (d.laneSt l).st == .retrain

/-- The training limit of a port has matured: what comes now is late (R42, R79). -/
def Device.trainDue (d : Device) (p : Nat) : Bool :=
  match (d.bring p).trainBy with
  | some t => d.matured t
  | none => false

/-- TRAINING_CONVERGED: the lanes of port `p` enter ALIGN (R79), unless the limit has run out (R42). -/
def trainingConverged (d : Device) (p : Nat) : Device :=
  if !d.portEn p ∨ !d.training p ∨ !d.linkSeq p ∨ d.trainDue p then d
  else
    let d := (d.beginAlign p).modBring p fun b => { b with trainBy := none }
    (d.portLanes p).foldl (fun d l => d.modLane l fun s => { s with cdr := true }) d

/-- TRAINING_TIMEOUT: training has not converged within TRAIN_TMO: TRAIN_FAIL counts on every lane, and the port restarts
from AN or from TRAIN (R79). -/
def trainingTimeout (d : Device) (p : Nat) : Device :=
  if !d.portEn p ∨ !d.training p ∨ !d.trainDue p ∨ !d.linkSeq p then d
  else
    let d := (d.portLanes p).foldl (fun d l => d.modLane l fun s => { s with trainFails := min (s.trainFails + 1) 0xFFFF }) d
    if d.negotiates p then
      let d := (d.portTo p .an).modBring p fun b => { b with trainBy := none }
      d.setReg (ofLane A.LANE_LN_AN_LP p) (d.reg (ofLane A.LANE_LN_AN_LP p) &&& 0x3F#32)
    else d.beginTrain p .train

/-- A phase of 1/64 UI in 2^-16 ns at a lane rate: the UI is 32/825, 16/425, 8/425 or 4/425 ns (R72, R259). -/
def Device.phaseTime (d : Device) (rate : Nat) (phase : Int) : Int × Device :=
  if rate = 0 then d.roundDiv (phase * 1024 * 32) 825 else d.roundDiv (phase * 1024 * Int.ofNat (32 / 2 ^ rate)) 425

/-- A port's first lane shows whether its receive lanes arrive reversed and are remapped (R79). -/
def Device.findOrder (d : Device) (l : Nat) (reversed : Bool) : Device :=
  match d.portOf l with
  | none => d
  | some p =>
    let found := decide (1 < d.portWidth p) && F.LANE_LN_BRINGUP_REV_AUTO.get (d.bringReg p) == 1 && reversed
    (d.modLane p fun s => { s with revDet := found }).settleFault p

/-- BLOCK_LOCK_ACQUIRED: a lane in ALIGN locks; its polarity, the lane order and its clock-recovery phase are found (R79,
R80, R259). -/
def blockLockAcquired (d : Device) (l : Nat) (inverted reversed : Bool) (phase : Int) : Device :=
  if (d.laneSt l).st ≠ .align then d
  else
    let cfg := d.reg (ofLane A.LANE_LN_CTRL l)
    let inv := if F.LANE_LN_CTRL_RX_POL_AUTO.get cfg = 1 then inverted else F.LANE_LN_CTRL_RX_POL_INV.get cfg == 1
    let d := d.modLane l fun s => { s with blockLock := true, cdr := true, polDet := inv }
    let (ph, d) := d.phaseTime (F.LANE_LN_CTRL_RATE.get cfg) phase
    (d.setTsu l { d.tsuSt l with phase := ph }).findOrder l reversed

/-- LANE_UP: every lane of port `p` holds lock; in a boundary's cycle they enter UP at it, and otherwise at the next (R80). -/
def laneUp (d : Device) (p : Nat) : Device :=
  let d := d.modBring p fun b => { b with upDue := true }
  if d.stroke.cyc = 0 then (d.raiseLanes p).rclkBoundary else d

-- Retraining (R81, R82) --------------------------------------------------------------------------------------------

/-- Retrains charged to a lane in the last 10 minutes (RECENT). -/
def Device.recent (d : Device) (l : Nat) : List Nat := (d.laneSt l).charges.filter fun t => d.clockNow < t + secT 600

/-- Charge a retrain to a lane; the third within 10 minutes retires it (R81, R82). -/
def Device.chargeLane (d : Device) (l : Nat) : Device :=
  let cs := d.recent l ++ [d.clockNow]
  let d := (d.track (lanePlace l)).modLane l fun s => { s with charges := cs, retrains := min (s.retrains + 1) 0xFFFF, chargeIn := d.strokeNo + 1 }
  if 3 ≤ cs.length then d.retireLane l else d.logFault (lanePlace l) 3 2 cs.length


/-- A retrain trigger of a lane (R81): from UP the whole port retrains at its rate; another lane that met a trigger in the
same 1 ms window is charged as well, and so is one whose EN was cleared in the same stroke, where this is its third charge
(R87). -/
def Device.retrain (d : Device) (l cause : Nat) : Device :=
  match d.portOf l with
  | none => d
  | some p =>
    let s := d.laneSt l
    let window : Bool := match (d.bring p).retrainAt with
      | some t => decide (d.clockNow < t + msT 1) && !(s.charges.any fun u => decide (t ≤ u))
      | none => false
    if !d.linkSeq l then d
    else if s.st = .up then
      let d := (d.setCause l cause).modBring p fun b => { b with retrainAt := some d.clockNow }
      let d := d.beginTrain p .retrain
      (d.chargeLane l).settlePort p
    else if window ∧ s.inPort then (d.setCause l cause).chargeLane l
    else if s.st = LaneState.disabled ∧ s.enIn = d.strokeNo + 1 ∧ 2 ≤ (d.recent l).length then d.chargeLane l
    else d

/-- BLOCK_LOCK_LOST: a lane loses lock; from UP it is a retrain trigger (R80, R81). -/
def blockLockLost (d : Device) (l cyc : Nat) : Device :=
  let d := d.atCyc cyc
  if (d.laneSt l).st = .align then
    let d := d.modLane l fun s => { s with blockLock := false }
    match d.portOf l with
    | some p => d.settleFault p
    | none => d
  else d.retrain l 1

/-- FEC_UNCORR_LIMIT: `n` uncorrectable codewords besides those reported with frames reach lane `l`'s port; more than
RETRAIN_UNC of them within 1 ms are a retrain trigger (R81, R99). -/
def fecUncorrLimit (d : Device) (l n cyc : Nat) : Device :=
  let d := d.atCyc cyc
  match d.portOf l with
  | none => d
  | some p =>
    if (d.port p).fecInUse = 0 then d
    else
      let d := (d.portCount p 13 n).addUncorr p n
      if F.LANE_LN_BRINGUP_RETRAIN_UNC.get (d.bringReg p) < ((d.bring p).uncs.map (·.2)).sum then d.retrain l 2 else d

/-- SNR_LOW: the SNR of a lane, in 0.25 dB, in every update of the last 1 ms (R81). -/
def snrLow (d : Device) (l snr cyc : Nat) : Device :=
  let d := (d.atCyc cyc).modLane l fun s => { s with snr := snr % 256 }
  match d.portOf l with
  | none => d
  | some p => if snr < F.LANE_LN_BRINGUP_SNR_MIN.get (d.bringReg p) then d.retrain l 3 else d

-- Reference clocks (R73, R444) -------------------------------------------------------------------------------------

/-- The lanes of a chiplet. -/
def chipletLanes (c : Nat) : List Nat := (List.range 128).map fun k => 128 * c + k

/-- REF_CLOCK_LOST: chiplet `c`'s reference is absent or out of tolerance; its lanes hold WAIT_SIGNAL (R73). -/
def refClockLost (d : Device) (c : Nat) : Device :=
  let d := { d with lane := { d.lane with refBad := setBit d.lane.refBad c, refBack := clearBit d.lane.refBack c } }
  let d := (chipletLanes c).foldl (fun d l => d.settleLane l) d
  (d.ports.map (·.1)).foldl (fun d p => if p / 128 = c then d.settlePort p else d) d

/-- REF_CLOCK_RESTORED: the reference is back; REF_BAD clears at the next boundary (R444). -/
def refClockRestored (d : Device) (c : Nat) : Device :=
  if bit d.lane.refBad c then { d with lane := { d.lane with refBack := setBit d.lane.refBack c } } else d

/-- A port whose lanes wait goes on: into DORMANT where that is asked for, and else with its bring-up. -/
def Device.resumePort (d : Device) (p : Nat) : Device := if d.asksDormant p then d.goDormant p else d.tryStart p

/-- At the boundary: REF_BAD clears, the lanes' own controls hold again, and bring-up proceeds. -/
def Device.refBoundary (d : Device) : Device :=
  if d.lane.refBack = 0 then d
  else
    let back := (List.range 8).filter fun c => bit d.lane.refBack c
    let d := { d with lane := { d.lane with refBad := d.lane.refBad ^^^ (d.lane.refBad &&& d.lane.refBack), refBack := 0 } }
    let ls := back.flatMap chipletLanes
    let d := ls.foldl (fun d l => d.settleLane l) d
    ls.foldl (fun d l => if d.portOf l = some l then d.resumePort l else d) d

-- Writes of the lane window (R74, R77, R84) ------------------------------------------------------------------------

/-- A pattern that runs at a lane rate: the two PAM4 patterns do not run at NRZ, and the other codes are reserved. -/
def patternOk (rate pat : Nat) : Bool := decide (pat ≤ 6) && !(rate == 0 && (pat == 2 || pat == 6))

/-- The checker of a lane runs (R84, R85). -/
def Device.checking (d : Device) (l : Nat) : Bool :=
  let v := d.reg (ofLane A.LANE_LN_PRBS l)
  (d.laneSt l).st == .test && F.LANE_LN_PRBS_RX_EN.get v == 1 &&
    patternOk (F.LANE_LN_CTRL_RATE.get (d.reg (ofLane A.LANE_LN_CTRL l))) (F.LANE_LN_PRBS_RX_PAT.get v)

/-- A checker that does not run holds no lock. -/
def Device.settlePrbs (d : Device) (l : Nat) : Device :=
  if d.checking l then d else d.modLane l fun s => { s with prbsLock := false }

/-- A lane's controls take effect, with what that does to its port: from TEST the port starts bring-up again, and a lane that
leaves the port for TEST or DISABLED takes it down (R81, R84). DESIGN CHOICE (log entry 65): the PRBS enables, which work only in
TEST, are cleared when TEST ends. -/
def Device.moveLane (d : Device) (l : Nat) : Device :=
  let was := (d.laneSt l).st
  let d := d.settleLane l
  let now := (d.laneSt l).st
  if now = was then d
  else if was = .test then
    let d := d.setFld (ofLane A.LANE_LN_PRBS l) F.LANE_LN_PRBS_TX_EN 0
    let d := d.setFld (ofLane A.LANE_LN_PRBS l) F.LANE_LN_PRBS_RX_EN 0
    match d.portOf l with
    | some p => (d.wakePort p).settlePort p
    | none => d
  else if was = .disabled then
    match d.portOf l with
    | some p => d.tryStart p
    | none => d
  else d.leavePort l

/-- Lanes whose TEST was set where it could not be entered enter it (R84). -/
def Device.testLanes (d : Device) : Device :=
  (List.range 1024).foldl (fun d l =>
    if F.LANE_LN_CTRL_TEST.get (d.reg (ofLane A.LANE_LN_CTRL l)) = 1 then d.moveLane l else d) d

/-- A write of LN_CTRL (R74, R81, R83, R84): EN and TEST move the lane; RATE is the driver's only in TEST or where the
lane's port is disabled. TEST set before a retrain trigger's stroke is over takes its charge back, and a retirement by it (R87).
DESIGN CHOICE (log entry 65): leaving TEST clears LN_PRBS.TX_EN and RX_EN, and a write to a retired lane that leaves EN and TEST
at their values is not recorded. -/
def lnCtrlWrite (d : Device) (src : Source) (l : Nat) (w : Word) : Device :=
  let a := ofLane A.LANE_LN_CTRL l
  let old := d.reg a
  let w := w &&& 0x7F#32
  let en := F.LANE_LN_CTRL_EN.get w = 1
  let test := F.LANE_LN_CTRL_TEST.get w = 1
  let wins := (d.laneSt l).chargeIn = d.strokeNo + 1 ∧ ((d.uncharge l).setReg a w).restState l = some .test
  let d := if wins then (d.uncharge l).setCause l 5 else d
  let s := d.laneSt l
  if s.st = .retired then
    let d := if en ≠ (F.LANE_LN_CTRL_EN.get old = 1) ∨ test ≠ (F.LANE_LN_CTRL_TEST.get old = 1) then d.refuse src a else d
    let mine := if (d.portOf l).isNone then 0x3E#32 else 0x38#32
    d.setReg a ((w &&& mine) ||| (old &&& 0x7F#32 &&& ~~~ mine))
  else
    let to_ := ((d.setReg a w).restState l).getD s.st
    let own := to_ = .test ∨ s.st = .test ∨ (d.portOf l).isNone
    let d := d.setReg a (if own then w else F.LANE_LN_CTRL_RATE.put w (F.LANE_LN_CTRL_RATE.get old))
    let d := if s.st = .up ∧ to_ ≠ .up then d.setCause l 5 else d
    let d := if s.st = .up ∧ !en then d.modLane l fun s => { s with enIn := d.strokeNo + 1 } else d
    (d.moveLane l).settlePrbs l

/-- A write of LN_TXEQ (R77). -/
def lnTxeqWrite (d : Device) (l : Nat) (w : Word) : Device :=
  let (v, clip) := clipTaps (d.nrz l) (w &&& 0x7FFFFFF#32)
  let d := d.setReg (ofLane A.LANE_LN_TXEQ l) v
  if clip then (d.modLane l fun s => { s with eqClip := true }).markSet (ofLane A.LANE_LN_STAT l) 11 else d

/-- A write of LN_RXEQ: adaptation freezes or goes on (R78). -/
def lnRxeqWrite (d : Device) (l : Nat) (w : Word) : Device :=
  (d.setReg (ofLane A.LANE_LN_RXEQ l) (w &&& 0xFF#32)).modLane l id

/-- A write of LN_BRINGUP (R79, R83, R86): of a port's first lane only. -/
def lnBringupWrite (d : Device) (src : Source) (l : Nat) (w : Word) : Device :=
  let a := ofLane A.LANE_LN_BRINGUP l
  let old := d.reg a
  let w := w &&& 0x1FFFFFFF#32
  if d.innerLane l then d
  else if (d.laneSt l).st = .retired then d.refuse src a
  else
    let req := F.LANE_LN_BRINGUP_DORMANT_REQ.get w = 1
    let was := F.LANE_LN_BRINGUP_DORMANT_REQ.get old = 1
    let narrow := d.portWidth l < 4
    let d := if req ∧ !was ∧ narrow then d.refuse src a else d
    let d := d.setReg a (if req ∧ narrow then F.LANE_LN_BRINGUP_DORMANT_REQ.put w 0 else w)
    if !d.portEn l ∨ narrow then d
    else if req ∧ !was then d.goDormant l
    else if !req ∧ was ∧ d.isDormant l then d.wakePort l
    else d

/-- P7_DORMANT_ENTRY: in P7 a port of four lanes or more whose link has been down for 1 s becomes dormant (R57). -/
def p7DormantEntry (d : Device) (p : Nat) : Device :=
  if d.profile.active = 7 ∧ d.linkSeq p ∧ d.portEn p ∧ 4 ≤ d.portWidth p ∧ !(d.port p).up ∧ !d.isDormant p ∧
      (d.bring p).wokeAt.isNone ∧ d.matured ((d.bring p).downSince + secT 1) then d.goDormant p
  else d

/-- P7_WAKE_TIMEOUT: a port woken by signal detect that is not UP within 1 s becomes dormant again (R86). -/
def p7WakeTimeout (d : Device) (p : Nat) : Device :=
  match (d.bring p).wokeAt with
  | none => d
  | some t =>
    if d.profile.active = 7 ∧ d.linkSeq p ∧ d.portEn p ∧ !(d.port p).up ∧ d.matured (t + secT 1) then d.goDormant p else d

-- PRBS, bit slip and injection (R84, R85) --------------------------------------------------------------------------

/-- A write of LN_PRBS (R84, R85): enables only in TEST; CLEAR zeroes the error count. -/
def lnPrbsWrite (d : Device) (src : Source) (l : Nat) (w : Word) : Device :=
  let a := ofLane A.LANE_LN_PRBS l
  let rate := F.LANE_LN_CTRL_RATE.get (d.reg (ofLane A.LANE_LN_CTRL l))
  let inTest := decide ((d.laneSt l).st = .test)
  let d := if F.LANE_LN_PRBS_CLEAR.get w = 1 then
      { d with file := { d.file with cnt := tnatSet d.file.cnt (ofLane A.LANE_LN_PRBS_ERR_LO l) 0 } } else d
  let asks := F.LANE_LN_PRBS_TX_EN.get w = 1 ∨ F.LANE_LN_PRBS_RX_EN.get w = 1
  let d := if asks ∧ !inTest then d.refuse src a else d
  let bad := !patternOk rate (F.LANE_LN_PRBS_TX_PAT.get w) || !patternOk rate (F.LANE_LN_PRBS_RX_PAT.get w)
  let d := if bad then d.refuse src a else d
  let v := w &&& (if inTest then 0x3FF#32 else 0xFF#32)
  (d.setReg a v).settlePrbs l

/-- PRBS_LOCK: the checker has seen 256 error-free bits (R85). -/
def prbsLock (d : Device) (l : Nat) : Device :=
  if d.checking l then d.modLane l fun s => { s with prbsLock := true } else d

/-- PRBS_LOCK_LOST: a locked checker reports `errs` bit errors in 256 bits. They count, and more than 64 of them lose the lock
(R85). -/
def prbsLockLost (d : Device) (l errs : Nat) : Device :=
  if (d.laneSt l).prbsLock then
    let d := d.countN (ofLane A.LANE_LN_PRBS_ERR_LO l) errs
    if errs ≤ 64 then d else (d.modLane l fun s => { s with prbsLock := false }).raise (laneBase l) 3
  else d

/-- A write of LN_BITSLIP (R84): in TEST only; a slip restarts the checker's hunt. -/
def lnBitslipWrite (d : Device) (src : Source) (l : Nat) (w : Word) : Device :=
  if F.LANE_LN_BITSLIP_SLIP.get w = 0 then d
  else if (d.laneSt l).st ≠ .test then d.refuse src (ofLane A.LANE_LN_BITSLIP l)
  else d.modLane l fun s => { s with slips := s.slips + 1, prbsLock := false }

/-- The length in bits of an injection (R85): LEN of 0 or 1 is treated as 2. -/
def injLen (v : Word) : Nat :=
  match F.LANE_LN_INJ_KIND.get v with
  | 1 => 1
  | 2 => max 2 (F.LANE_LN_INJ_LEN.get v)
  | _ => 2

/-- Errors are injected into a lane's transmitted stream. -/
def Device.inject (d : Device) (l : Nat) : Device :=
  let v := d.reg (ofLane A.LANE_LN_INJ l)
  d.send (.inject l (F.LANE_LN_INJ_KIND.get v) (injLen v))

/-- PERIOD of an injection in force. DESIGN CHOICE (log entry 65): 0, which R85 does not allow, is treated as 1. -/
def Device.injPeriod (d : Device) (l : Nat) : Nat := usT (max 1 (F.LANE_LN_INJ_PERIOD.get (d.reg (ofLane A.LANE_LN_INJ l))))

/-- A write of LN_INJ (R85): GO injects once, or starts periodic injection; it is refused while a one-shot is pending. DESIGN CHOICE
(log entry 65): a one-shot is pending until the boundary and injected there; the first periodic injection is made at the GO; and
GO with KIND none injects nothing and, with no one-shot pending, is not recorded. -/
def lnInjWrite (d : Device) (src : Source) (l : Nat) (w : Word) : Device :=
  let a := ofLane A.LANE_LN_INJ l
  let s := d.laneSt l
  let d := d.setReg a (w &&& 0xFFFFBFF#32)
  let kind := F.LANE_LN_INJ_KIND.get w
  let periodic := F.LANE_LN_INJ_PERIODIC.get w = 1
  let d := if kind = 0 ∨ !periodic then d.modLane l fun s => { s with injNext := none } else d
  if F.LANE_LN_INJ_GO.get w = 0 then d
  else if s.injPending then d.refuse src a
  else if kind = 0 then d
  else if periodic then (d.inject l).modLane l fun s => { s with injNext := some (d.now + d.injPeriod l) }
  else d.modLane l fun s => { s with injPending := true }

/-- ERROR_INJECT_PERIODIC: the period has run out and errors are injected again (R85). -/
def errorInjectPeriodic (d : Device) (l cyc : Nat) : Device :=
  let d := d.atCyc cyc
  match (d.laneSt l).injNext with
  | none => d
  | some t =>
    if d.matured t then (d.inject l).modLane l fun s => { s with injNext := some (t + d.injPeriod l) } else d

/-- At the boundary the one-shot injections that are pending are made. -/
def Device.injBoundary (d : Device) : Device :=
  (d.lane.lanes.filterMap fun e => if e.2.injPending then some e.1 else none).foldl (fun d l =>
    (d.inject l).modLane l fun s => { s with injPending := false }) d

end Sys2Proof.Machine
end

