-- ==== Sys2Proof/Machine/Links.lean ====
section
/-! DEFINITION. The die-to-die links: training, replay, spare repair, link retirement and sleep (R16, R88 to R94). -/

namespace Sys2Proof.Machine

/-- A die-to-die lane as a place of faults: its direction stands in bit 7 of the address (R399). -/
def d2dPlace (k dir lane : Nat) : FaultPlace := ⟨7, k, lane + 128 * dir⟩

/-- The eight lanes of a link. -/
def linkLanes (k : Nat) : List Nat := (List.range 8).map fun j => 8 * k + j

/-- The moves of a direction: 0 outbound, 1 inbound. -/
def LinkSt.repairs (s : LinkSt) (dir : Nat) : List (Nat × Nat) := if dir = 0 then s.repairOut else s.repairIn

/-- The spare that carries a data lane's traffic: that of its last move. -/
def spareOf (moves : List (Nat × Nat)) (lane : Nat) : Option Nat :=
  (moves.reverse.find? fun e => e.2 = lane).map (·.1)

/-- The lowest-numbered free spare. One whose lane moved on has failed, and is neither in use nor free. -/
def freeSpare (moves : List (Nat × Nat)) : Option Nat := (List.range 4).find? fun j => !(moves.any fun e => e.1 = j)

/-- A data lane's traffic moves onto a spare (R90). -/
def LinkSt.move (s : LinkSt) (dir spare lane : Nat) : LinkSt :=
  if dir = 0 then { s with repairOut := s.repairOut ++ [(spare, lane)] } else { s with repairIn := s.repairIn ++ [(spare, lane)] }

/-- A direction wakes (R92). -/
def LinkSt.wake (s : LinkSt) (dir : Nat) : LinkSt := if dir = 0 then { s with outSleep := false } else { s with inSleep := false }

/-- A link's retirement covers a lane of it that was retired in the same stroke: the lane's own entry is not kept (R404). -/
def Device.coverLanes (d : Device) (k : Nat) : Device :=
  { d with ras := { d.ras with entries := d.ras.entries.filter fun e =>
      !(e.kind = 4 ∧ linkOf e.addr = k ∧ (d.laneSt e.addr).chargeIn = d.strokeNo + 1) } }

/-- A fifth permanent fault in one direction: the link's eight lanes are retired and it carries no traffic (R91). -/
def Device.retireLink (d : Device) (k dir lane event count : Nat) : Device :=
  if (d.linkSt k).lanesRetired then d
  else
    let d := (d.logFault (d2dPlace k dir lane) event 7 count).coverLanes k |>.retireRecord 6 (d2dPlace k dir lane) 0xFFFF
    let d := d.setLink k { d.linkSt k with lanesRetired := true }
    (linkLanes k).foldl (fun d l => d.holdRetired l) d

/-- A data lane of a direction has a permanent fault, whatever carries it: its traffic moves to the lowest-numbered free spare
(R90), and where none is free the link is retired (R91). -/
def Device.repairLane (d : Device) (k dir lane event count : Nat) : Device :=
  let s := d.linkSt k
  if s.lanesRetired then d
  else match freeSpare (s.repairs dir) with
    | none => d.retireLink k dir lane event count
    | some j => ((d.setLink k (s.move dir j lane)).logFault (d2dPlace k dir lane) event 5 count).retireRecord 5 (d2dPlace k dir lane) j

/-- A data lane fails the link's training; one already replaced by a spare carries nothing (R88, R90). -/
def Device.failedLane (d : Device) (k dir lane : Nat) : Device :=
  if (spareOf ((d.linkSt k).repairs dir) lane).isSome then d else d.repairLane k dir lane 8 1

/-- The ports on a link's lanes restart bring-up from WAIT_SIGNAL, and those that were up go down (R88). -/
def Device.restartLink (d : Device) (k : Nat) : Device :=
  (dedup ((linkLanes k).filterMap fun l => d.portOf l)).foldl (fun d p => (d.wakePort p).settlePort p) d

/-- LINK_TRAIN: link `k` has trained; the data lanes that failed in each direction are mapped onto spares, and it enters UP
(R88, R90). -/
def linkTrain (d : Device) (k : Nat) (failedOut failedIn : List Nat) : Device :=
  if (d.linkSt k).st = .up then d
  else
    let d := failedOut.foldl (fun d l => d.failedLane k 0 (l % 64)) d
    let d := failedIn.foldl (fun d l => d.failedLane k 1 (l % 64)) d
    let d := d.setLink k { d.linkSt k with st := .up, retraining := false }
    (dedup ((linkLanes k).filterMap fun l => d.portOf l)).foldl (fun d p => d.tryStart p) d

/-- A write of LK_CTRL (R88, R92 to R94): RETRAIN takes the link's ports down until it is UP again, and wakes it; TEST takes
them down while it is set; a direction sleeps only with SLEEP_EN = 1. -/
def lkCtrlWrite (d : Device) (k : Nat) (w : Word) : Device :=
  let a := ofLink A.D2D_LK_CTRL k
  let was := F.D2D_LK_CTRL_TEST.get (d.reg a) = 1
  let test := F.D2D_LK_CTRL_TEST.get w = 1
  let d := d.setReg a (w &&& 0x5#32)
  let d := if F.D2D_LK_CTRL_SLEEP_EN.get w = 0 then d.setLink k ((d.linkSt k).wake 0 |>.wake 1) else d
  if F.D2D_LK_CTRL_RETRAIN.get w = 1 then
    let d := d.setLink k { (d.linkSt k).wake 0 |>.wake 1 with st := .clockLock, retraining := true, retrainIn := d.strokeNo + 1 }
    d.restartLink k
  else if test ∧ !was then d.restartLink k
  else if !test ∧ was then
    (dedup ((linkLanes k).filterMap fun l => d.portOf l)).foldl (fun d p => d.tryStart p) d
  else d

/-- Replays charged to a lane of a direction within the last second (R89, R90). -/
def Device.replays (d : Device) (k dir lane : Nat) : Nat :=
  ((d.linkSt k).charged.filter fun e => e.1 = 64 * dir + lane ∧ d.clockNow < e.2 + secT 1).length

/-- D2D_FLIT_REPLAY: a flit of a direction fails its CRC and is replayed; it is charged to the data lanes at fault, and one
that misses the fixed latency is delivered errored (R16, R89, R90). A repair that RETRAIN meets in its stroke is made all the
same (R94). The receiver counts the replays (R89); the history of R390 tracks the lane. -/
def d2dFlitReplay (d : Device) (k dir : Nat) (lanes : List Nat) (delivered : Bool) : Device :=
  let dir := dir % 2
  if (d.linkSt k).st ≠ .up ∧ (d.linkSt k).retrainIn ≠ d.strokeNo + 1 then d
  else
    let d := d.count (ofLink A.D2D_LK_REPLAY_LO k)
    let d := if delivered then d else d.count (ofLink A.D2D_LK_ERRFLIT_LO k)
    lanes.foldl (fun d l =>
      let l := l % 64
      let now := d.clockNow
      let s := d.linkSt k
      let d := (d.track (d2dPlace k dir l)).setLink k
        { s with charged := (s.charged.filter fun e => now < e.2 + secT 1) ++ [(64 * dir + l, now)] }
      if d.replays k dir l < 16 then d
      else
        let s := d.linkSt k
        let d := d.setLink k { s with charged := s.charged.filter fun e => e.1 ≠ 64 * dir + l }
        (d.forget (d2dPlace k dir l)).repairLane k dir l 4 3) d

/-- Every lane of a link has been quiet in a direction since `strokes` strokes ago, and none is in TEST or sends a fault sequence. -/
def Device.linkIdle (d : Device) (k dir strokes : Nat) : Bool :=
  (linkLanes k).all fun l =>
    let s := d.laneSt l
    let quiet := if dir = 0 then s.quietOut else s.quietIn
    let since := if dir = 0 then s.outQuiet else s.inQuiet
    quiet && decide (since + strokes ≤ d.strokeNo)

/-- D2D_SLEEP: a direction whose lanes have all been quiet for eight whole strokes goes to sleep, if allowed (R41, R92). -/
def d2dSleep (d : Device) (k dir : Nat) : Device :=
  let s := d.linkSt k
  if s.st = .up ∧ F.D2D_LK_CTRL_SLEEP_EN.get (d.reg (ofLink A.D2D_LK_CTRL k)) = 1 ∧ d.linkIdle k (dir % 2) 9 then
    d.setLink k (if dir % 2 = 0 then { s with outSleep := true } else { s with inSleep := true })
  else d

/-- D2D_WAKE: a lane of a sleeping direction is no longer quiet (R92). -/
def d2dWake (d : Device) (k dir : Nat) : Device :=
  if d.linkIdle k (dir % 2) 0 then d else d.setLink k ((d.linkSt k).wake (dir % 2))

/-- A write of LK_SLIP (R93): GO slips the selected receive lane by one unit interval, in TEST only. -/
def lkSlipWrite (d : Device) (src : Source) (k : Nat) (w : Word) : Device :=
  let a := ofLink A.D2D_LK_SLIP k
  let d := d.setReg a (w &&& 0xFF#32)
  if F.D2D_LK_SLIP_GO.get w = 0 then d
  else if F.D2D_LK_CTRL_TEST.get (d.reg (ofLink A.D2D_LK_CTRL k)) = 0 then d.refuse src a
  else
    let lane := F.D2D_LK_SLIP_LANE.get w
    if 68 ≤ lane then d
    else
      let s := d.linkSt k
      let key := 128 * F.D2D_LK_SLIP_DIR.get w + lane
      d.setLink k { s with slipped := tnatSet s.slipped key (tnat s.slipped key + 1) }

end Sys2Proof.Machine
end

