-- ==== Sys2Proof/Machine/Learn.lean ====
section
/-! DEFINITION. Learning, ageing, re-placement and locks of the exact-match table, its notices, and the ends of
fragment-follow entries (R130, R157 to R159, R165 to R173). -/

namespace Sys2Proof.Machine

-- Notices (R166, R341) -----------------------------------------------------------------------------------------------

/-- Report a table event to the notice ring, while notices are on. -/
def Device.notify (d : Device) (kind : NoticeKind) (row slot entry entry2 : Nat) : Device :=
  if d.flag A.TABLE_LEARN_CFG F.TABLE_LEARN_CFG_NOTIFY_EN then
    { d with table := { d.table with notices := d.table.notices ++ [⟨kind, row, slot, entry, entry2, d.strokeNo⟩] } }
  else d

/-- The entry that begins at a slot of a row, and the second slot of a wide one (0 for a narrow one). -/
def entryAt (row s : Nat) : Nat × Nat :=
  (emSlot row s, if emWide (emSlot row s) then emSlot row (s + 1) else 0)

/-- Report an entry as a row holds it. -/
def Device.notifyEntry (d : Device) (kind : NoticeKind) (rowNo row s : Nat) : Device :=
  d.notify kind rowNo s (entryAt row s).1 (entryAt row s).2

-- Learning (R166, R167) ----------------------------------------------------------------------------------------------

/-- The key of a learn event. -/
def LearnEvent.emKey (e : LearnEvent) : EmKey := ⟨e.ktype, e.wide, e.key⟩

/-- Two events are for one key of one region. -/
def LearnEvent.sameKey (a b : LearnEvent) : Bool := a.emKey == b.emKey && a.flow == b.flow

/-- A queued event with another merged into it: the later one's learn value, or the higher gallery's of one cycle. -/
def LearnEvent.merge (q e : LearnEvent) : LearnEvent :=
  if e.cyc < q.cyc ∨ (q.cyc = e.cyc ∧ e.gal < q.gal) then q else { q with value := e.value, gal := e.gal, cyc := e.cyc }

/-- An event joins the learn queue, is merged, or is discarded (R166). -/
def Device.learnJoin (d : Device) (e : LearnEvent) : Device :=
  match d.table.queue.findIdx? fun q => q.sameKey e with
  | some i =>
    let q := modifyAt d.table.queue i fun q => q.merge e
    ({ d with table := { d.table with queue := q } }).count (tblCnt 3)
  | none =>
    if d.table.queue.length ≥ 4096 then (d.count (tblCnt 5)).raise 0x80000 1
    else { d with table := { d.table with queue := d.table.queue ++ [e] } }

/-- LEARN_QUEUE_JOIN: the events of the stroke that ends join the queue. -/
def Device.learnBoundary (d : Device) : Device :=
  d.table.raised.foldl Device.learnJoin { d with table := { d.table with raised := [] } }

/-- Count the moves of an insert, as counter and as event, each with its destination row (R157, R363). -/
def Device.countMoves (d : Device) (rows : List Nat) : Device :=
  rows.foldl (fun d r => (d.count (tblCnt 8)).event none 0x8002 1 (some r) {}) d

/-- What learning does with an event: where its key lies, or how an insert of it ends. -/
inductive LearnFate where
  | locked
  /-- nothing is to be written -/
  | present
  /-- the entry at row and slot is rewritten -/
  | move (row slot : Nat)
  /-- the pool after the insert, rot, the destination rows of the moves made and the place written -/
  | insert (pool : Tab Nat) (rot : Nat) (moves : List Nat) (place : Place)
  | noroom (rot : Nat)
deriving DecidableEq, Repr

/-- The fate of an event in the active generation's slot (R166, R167). -/
def Device.learnFate (d : Device) (e : LearnEvent) : LearnFate :=
  let k := e.emKey
  let rows := d.emProbe e.flow k
  let hits := emFindIn (fun r => if d.rowOut 0 r then 0 else d.poolRow r) (slotOf d.gen.active) k rows
  match hits.head? with
  | some (r, s) =>
    let ent := emSlot (d.poolRow r) s
    if d.rowHeld r then .locked
    else if emStatic ent ∨ emAdata ent = e.value then .present
    else .move r s
  | none =>
    let cands := d.emRows e.flow k
    if cands.all d.rowHeld then .locked
    else
      let es := emCompose 3 false true false k e.actIdx e.value
      match cuckooInsert d.table.pool d.rowUsable (d.emRows e.flow) d.table.rot k none es.1 es.2 with
      | (some (pool, moves, pl), rot) => .insert pool rot moves pl
      | (none, rot) => .noroom rot

/-- Issue cycles of an admitted event: 4, and 3 for each move (R157). -/
def LearnFate.cycles : LearnFate → Nat
  | .insert _ _ m _ => 4 + 3 * m.length
  | _ => 4

/-- Carry out an admitted event. -/
def Device.learnDo (d : Device) (f : LearnFate) (e : LearnEvent) : Device :=
  match f with
  | .locked => d.count (tblCnt 7)
  | .present => d.count (tblCnt 4)
  | .move r s =>
    let row := d.poolRow r
    let ent := putBits (putBits (emSlot row s) 22 32 e.value) 5 2 1
    let row := emPut row s ent
    ((d.setPoolRow r row).count (tblCnt 2)).notifyEntry .move r row s
  | .insert pool rot moves pl =>
    let d := { d with table := { d.table with pool := pool, rot := rot } }
    let d := ((d.count (tblCnt 1)).event none 0x8001 1 (some pl.1) {}).countMoves moves
    d.notifyEntry .insert pl.1 (d.poolRow pl.1) pl.2
  | .noroom rot => ((({ d with table := { d.table with rot := rot } }).count (tblCnt 6)).raise 0x80000 0)

/-- LEARN_ADMIT in cycle `c`: the oldest queued event is admitted under the learning budget (R166). -/
def learnAdmit (d : Device) (c : Nat) : Device :=
  let d := d.atStage c
  match d.table.queue with
  | [] => d
  | e :: rest =>
    let f := d.learnFate e
    if !d.canAdmit 0x0C 0 1 f.cycles d.stroke.cyc d.table.learned then
      (List.range (rest.length + 1)).foldl (fun d k => d.mustWait 0x0C 0 (d.table.learned + k) 1) d
    else
      let d := d.spend 0x0C 0 1 d.table.learned
      ({ d with table := { d.table with queue := rest, learned := d.table.learned + 1 } }).learnDo f e

-- Ageing (R168) ------------------------------------------------------------------------------------------------------

/-- The cycle in which a sweep visits its rows of a stroke: the spec gives the stroke alone (DESIGN CHOICE, log entry 68). -/
def Device.visitCyc (d : Device) : Nat := 256 * d.strokeNo + 255

/-- Age the entry at slot `s` of row `r`: a hit in the cycle of the visit wins. -/
def Device.ageSlot (d : Device) (r s : Nat) : Device :=
  let row := d.poolRow r
  let e := emSlot row s
  if emGm e = 0 ∨ emStatic e then d
  else if d.table.hitCyc = d.visitCyc ∧ d.table.hits.contains (r, s) then d.setPoolRow r (emPut row s (putBits e 5 2 1))
  else if bit e 5 then d.setPoolRow r (emPut row s (putBits e 5 2 0))
  else if !bit e 6 then d.setPoolRow r (emPut row s (putBits e 6 1 1))
  else ((d.setPoolRow r (emClear row s)).count (tblCnt 9)).notifyEntry .aged r row s

/-- Age a row that is neither locked nor out of use. -/
def Device.ageRow (d : Device) (r : Nat) : Device :=
  if d.rowHeld r then d else (emEntries (d.poolRow r)).foldl (fun d s => d.ageSlot r s) d

/-- The rows of the EM that hold anything, from `lo` and below `hi`, in order. -/
def Device.rowsIn (d : Device) (lo hi : Nat) : List Nat :=
  (d.table.pool.filter fun e => decide (lo ≤ e.1 ∧ e.1 < hi)).map (·.1)

/-- Rows of the flow-key and general regions. -/
def Device.emSize (d : Device) : Nat := 65536 * profE d.profile.active

/-- AGE_ROW_VISIT: the sweep in progress visits its next rows, 512 in a stroke. -/
def Device.sweepVisit (d : Device) : Device :=
  match d.table.sweepPos with
  | none => d
  | some p =>
    if !d.seqOn 14 then d
    else
    let d := (d.rowsIn p (min (p + 512) d.emSize)).foldl Device.ageRow d
    { d with table := { d.table with sweepPos := if p + 512 < d.emSize then some (p + 512) else none } }

/-- The rows that the sweep visits in this stroke. -/
def Device.sweepRows (d : Device) : Nat :=
  match d.table.sweepPos with
  | none => 0
  | some p => if d.seqOn 14 then min 512 (d.emSize - p) else 0

/-- The sweep interval of a value of AGE_10MS; 0 is treated as 1. -/
def ageInterval (n : Nat) : Nat := msT (10 * max 1 n)

/-- AGE_CFG takes effect at a boundary (R168). -/
def Device.ageApply (d : Device) : Device :=
  let on := d.flag A.TABLE_AGE_CFG F.TABLE_AGE_CFG_EN
  let every := d.fld A.TABLE_AGE_CFG F.TABLE_AGE_CFG_AGE_10MS
  let t := d.table
  let last := if on ∧ !t.ageOn then d.elapsed else t.sweepLast
  { d with table := { t with
      ageOn := on
      ageEvery := every
      sweepLast := last
      sweepNext := if on then some (last + ageInterval every) else none
      sweepPos := if on then t.sweepPos else none } }

/-- A sweep is due. -/
def Device.sweepDue (d : Device) : Bool :=
  d.table.ageOn && (d.table.sweepNext.map d.matured).getD false

/-- AGE_SWEEP_START: a due sweep starts; it visits its first rows in this stroke (R168). -/
def ageSweepStart (d : Device) : Device :=
  if !d.sweepDue ∨ !d.seqOn 14 then d
  else
    let now := d.elapsed
    { d with table := { d.table with
        sweepPos := some 0
        sweepLast := now
        sweepNext := some (now + ageInterval d.table.ageEvery) } }

-- Re-placement (R159) ------------------------------------------------------------------------------------------------

/-- Re-place the entry at slot `s` of row `r`, unless it lies in a row of the new layout already. It stays where it is until its
copy stands in the new row (R158). -/
def Device.replaceSlot (d : Device) (r s : Nat) : Device :=
  let row := d.poolRow r
  let es := entryAt row s
  let flow := blockRegion d.profile.active (r / 65536) == 0
  let k : EmKey := ⟨emKtype es.1, emWide es.1, emKey row s⟩
  if (d.emRows flow k).contains r then d
  else
    let freed (pool : Tab Nat) : Tab Nat := tnatSet pool r (emClear (tnat pool r) s)
    match cuckooInsert d.table.pool d.rowUsable (d.emRows flow) d.table.rot k (some (r, s)) es.1 es.2 with
    | (some (pool, moves, _), rot) =>
      ({ d with table := { d.table with pool := freed pool, rot := rot } }).countMoves moves
    | (none, rot) =>
      let d := { d with table := { d.table with pool := freed d.table.pool, rot := rot } }
      ((d.count (tblCnt 15)).raise 0x80000 4).notifyEntry .removed r row s

/-- Walk a row: a locked one is to be visited again. -/
def Device.replaceRow (d : Device) (r : Nat) : Device :=
  if d.rowHeld r then
    match d.table.replacing with
    | some w => { d with table := { d.table with replacing := some { w with again := w.again ++ [r] } } }
    | none => d
  else (emEntries (d.poolRow r)).foldl (fun d s => d.replaceSlot r s) d

/-- The rows of the EM from `lo` and below `hi` that hold anything or are locked, in order. -/
def Device.walkRows (d : Device) (lo hi : Nat) : List Nat :=
  ((List.range (hi - lo)).map (lo + ·)).filter fun r => tnat d.table.pool r != 0 || d.rowLocked r

/-- REPLACE_ROW_WALK: up to `n` rows; after the walk, up to `n` of those that were locked again (R159). -/
def Device.replaceWalk (d : Device) (n : Nat) : Device :=
  match d.table.replacing with
  | none => d
  | some w =>
    if n = 0 then d
    else
      let hi := min (w.pos + n) w.stop
      if w.pos < w.stop then
        let d := (d.walkRows w.pos hi).foldl Device.replaceRow d
        match d.table.replacing with
        | some w => { d with table := { d.table with replacing := some { w with pos := hi } } }
        | none => d
      else
        let d := { d with table := { d.table with replacing := some { w with again := w.again.drop n } } }
        (w.again.take n).foldl Device.replaceRow d

/-- The maintenance access in the stroke that ends: the sweep takes it first, and re-placement walks the rows that it leaves
(R159, R168). -/
def Device.maintenance (d : Device) : Device :=
  let n := d.sweepRows
  d.sweepVisit.replaceWalk (512 - n)

/-- Rows not yet walked (R159). -/
def Replacing.left (w : Replacing) : Nat := (w.stop - w.pos) + w.again.length

/-- A flip changes F or E: re-placement starts (R159). -/
def Device.replaceStart (d : Device) (old new : Nat) : Device :=
  if profF old = profF new ∧ profE old = profE new then d
  else
    let first := if profF old = profF new then 65536 * profF new else 0
    { d with table := { d.table with
        replacing := some ⟨profF old, profE old, first, 65536 * profE new, []⟩ } }

/-- REPLACE_DONE: the walk has ended (R159). -/
def replaceDone (d : Device) : Device :=
  match d.table.replacing with
  | none => d
  | some w =>
    if w.left = 0 then ({ d with table := { d.table with replacing := none } }).raise 0x80000 3 else d

-- Locks (R172) -------------------------------------------------------------------------------------------------------

/-- LOCK_EXPIRE of a row whose lock has matured: the lock is released and reported. -/
def lockExpire (d : Device) (row : Nat) : Device :=
  match assoc d.table.locks row with
  | none => d
  | some due =>
    if d.strokeNo < due then d
    else
      let d := { d with table := { d.table with locks := assocDel d.table.locks row } }
      let d := ((d.count (tblCnt 10)).raise 0x80000 2).setReg A.TABLE_LOCK_EXP_ROW (BitVec.ofNat 32 row)
      d.notify .lockExpired row 0 0 0

/-- The stroke from whose start a lock taken now is mature (R41, R172). -/
def Device.lockDue (d : Device) : Nat := d.strokeNo + max 1 (d.fld A.TABLE_LOCK_CFG F.TABLE_LOCK_CFG_LOCK_TMO) + 1

-- Fragment-follow entries (R130, R131) -------------------------------------------------------------------------------

/-- FFT_ENTRY_EXPIRE: the matured entries of a set are freed. -/
def fftEntryExpire (d : Device) (set : Nat) : Device :=
  d.setFft set ((d.fftSet set).filter fun e => !d.matured e.dies)

/-- FFT_FLUSH: a write of FFT_CFG.FLUSH asks for every entry to be freed at the next boundary. -/
def Device.fftFlushAsk (d : Device) : Device := { d with fft := { d.fft with flush := true } }

/-- The flush at a boundary: an entry inserted in the stroke that ends lands after it and survives (R131). -/
def Device.fftBoundary (d : Device) : Device :=
  if !d.fft.flush then d
  else
    let none_ := fun _ => ([] : List FftEntry)
    let kept := d.fft.sets.foldl (fun t e =>
      tabSet none_ t e.1 (e.2.filter fun x => x.stroke == d.strokeNo)) d.fft.sets
    { d with fft := { sets := kept, flush := false } }

-- Extension table (R164) ---------------------------------------------------------------------------------------------

/-- EXT_TABLE_BUILD: at the transition to RUN or DEGRADED the extension table takes its billets of 16 KiB. -/
def Device.extBuild (d : Device) : Device :=
  let l := d.fld A.TABLE_EXT_CFG F.TABLE_EXT_CFG_LOG2_ROWS
  if l < 16 ∨ 24 < l then { d with table := { d.table with extRows := 0 } }
  else if d.reserveHolds 2 3 (2 ^ (l - 8)) then
    ({ d with table := { d.table with extRows := 2 ^ l } }).bulkAsk 97 3 (2 ^ (l - 8))
  else ({ d with table := { d.table with extRows := 0, extFail := true } }).raise 0x80000 5

end Sys2Proof.Machine
end

