-- ==== Sys2Proof/Machine/HostPort.lean ====
section
/-! DEFINITION. The host port: DMA windows, posted writes and MSI-X messages (R51, R332 to R334, R356). -/

namespace Sys2Proof.Machine

/-- What the PCIe functions identify themselves with: Vendor ID, Device ID, Revision ID and class code, and the Device ID of the VFs
(R4, R332). -/
def pcieVendorId : Nat := 0x1F5C
def pcieDeviceId : Nat := 0x0204
def pcieRevisionId : Nat := 0xA1
def pcieClassCode : Nat := 0x028000
def pcieVfDeviceId : Nat := 0x0205

/-- Bus Master Enable of a function. -/
def Device.busOn (d : Device) (fn : Nat) : Bool := !bit d.host.busOff fn

/-- A VF is enabled (R333). -/
def Device.vfOn (d : Device) (f : Nat) : Bool := decide (0 < f) && bit d.host.vfs f

/-- Bytes `a` to `a + n - 1` lie in function `fn`'s DMA window (R334, R348). -/
def Device.inWindow (d : Device) (fn a n : Nat) : Bool :=
  let lo := d.pair (A.HOST_FN_WIN_BASE_LO fn) (A.HOST_FN_WIN_BASE_HI fn)
  let hi := d.pair (A.HOST_FN_WIN_LIMIT_LO fn) (A.HOST_FN_WIN_LIMIT_HI fn)
  decide (lo ≤ a ∧ a + n ≤ hi + 1)

/-- A function may reach `n` bytes of host memory at `a` (R334, R344). -/
def Device.mayDma (d : Device) (fn a n : Nat) : Bool := d.busOn fn && d.inWindow fn a n

/-- The halt code of an access to host memory that cannot be made, or fails: BAD_ADDR outside the window, else HOST_MEM_ERR (R344). -/
def Device.dmaFault (d : Device) (fn a n : Nat) : Nat := if d.inWindow fn a n then 2 else 1

/-- The function that owns ring `r` (R334). -/
def Device.ringFn (d : Device) (r : Nat) : Nat := d.fld (A.HOST_RING_FN r) F.HOST_RING_FN_FN

/-- The function that signals entry `e` of the MSI-X table, and its vector there (R333). -/
def Device.vectorOf (d : Device) (e : Nat) : Nat × Nat :=
  if d.vfOn (e / 64) ∧ e / 64 < 32 then (e / 64, e % 64) else (0, e)

/-- A message of an entry of the MSI-X table is sent, or held while the entry is masked (R356). -/
def Device.entrySignal (d : Device) (e : Nat) : Device :=
  let (fn, vec) := d.vectorOf e
  if d.host.unmasked.contains e then d.send (.msix fn vec)
  else if d.host.held.contains e then d
  else { d with host := { d.host with held := d.host.held ++ [e] } }

/-- Signal a vector of a function: none beyond its table, none that a VF has taken from the PF, and none while its Bus
Master Enable is 0 (R333, R356). -/
def Device.signal (d : Device) (fn vec : Nat) : Device :=
  if !d.busOn fn then d
  else if fn = 0 then
    if 2048 ≤ vec ∨ (d.vfOn (vec / 64) ∧ vec / 64 < 32) then d.countSat A.HOST_VEC_LOST F.HOST_VEC_LOST_COUNT
    else d.entrySignal vec
  else if 64 ≤ vec then d.countSat A.HOST_VEC_LOST F.HOST_VEC_LOST_COUNT
  else d.entrySignal (64 * fn + vec)

/-- MSIX_VECTOR_UNMASK: the mask bit of an entry of the MSI-X table is cleared, and a held message is sent (R356). -/
def msixVectorUnmask (d : Device) (e : Nat) : Device :=
  let un := if d.host.unmasked.contains e then d.host.unmasked else d.host.unmasked ++ [e]
  let was := d.host.held.contains e
  let d := { d with host := { d.host with unmasked := un, held := d.host.held.filter fun x => x ≠ e } }
  if was then d.entrySignal e else d

/-- A page routed to a vector asks for its message (R354, R356). -/
def Device.pageVector (d : Device) (page : Nat) : Option Nat :=
  let w := d.reg (page * 0x10000 + 0x1C)
  if d.pagePending (page * 0x10000) ∧ bit w.toNat 11 then some (w.toNat % 2048) else none

/-- MSIX_MESSAGE, at the boundary: the pages that ask send one message for each vector (R356). -/
def Device.msixBoundary (d : Device) : Device :=
  let vecs := (dedup d.file.irqAsk.reverse).filterMap d.pageVector
  let d := { d with file := { d.file with irqAsk := [] } }
  -- a request for a vector that a VF has taken counts by itself
  let lost := vecs.filter fun v => decide (v / 64 < 32) && d.vfOn (v / 64)
  let d := lost.foldl (fun d v => d.signal 0 v) d
  ((dedup vecs).filter fun v => !lost.contains v).foldl (fun d v => d.signal 0 v) d

/-- ALERT_N is asserted: a page with ALERT_EN is pending, the device is in THERMAL_SHUTDOWN, or a fatal fault
stands (R357, R397). The pages that can be
pending are those whose IRQ_STAT is listed. -/
def Device.alert (d : Device) : Bool :=
  d.dev.state == .thermal || d.ras.fatal || d.file.regs.any fun e =>
    e.1 % 0x10000 == 0x10 && bit (d.reg (e.1 + 0xC)).toNat 12 && d.pagePending (e.1 - 0x10)

/-- A posted write of function `fn` to host memory, if it can be issued: Bus Master Enable and the DMA window (R51, R334). -/
def Device.postWrite (d : Device) (fn a : Nat) (bs : Bytes) : Option Device :=
  if d.mayDma fn a bs.length then some (d.send (.hostWrite fn a bs)) else none

-- Configuration space (R4, R332, R333, R350, R398) -----------------------------------------------------------------

/-- What configuration space reads at a function's offset. The spec names the fields; their places are PCIe's (PRESUMED, log entry
54), with the SR-IOV capability at 0x100 and Advanced Error Reporting at 0x200. -/
def Device.configRead (d : Device) (fn off : Nat) : Nat :=
  if off = 0x00 then (if fn = 0 then pcieDeviceId else pcieVfDeviceId) * 65536 + pcieVendorId
  else if off = 0x04 then b2n (d.busOn fn) * 4
  else if off = 0x08 then pcieClassCode * 256 + pcieRevisionId
  else if off = 0x204 then b2n (d.host.aer.contains fn) * 2 ^ 14
  else if fn ≠ 0 then 0
  else if off = 0x108 then b2n (decide (d.host.vfs ≠ 0))
  else if off = 0x110 then d.host.numVfs
  else if off = 0x118 then pcieVfDeviceId * 65536
  else 0

/-- A write of configuration space, its disabled bytes as they were: Bus Master Enable; VF Enable with NumVFs, which holds while they
are enabled; and the completion-timeout status, which a 1 clears. -/
def Device.configWrite (d : Device) (fn off be : Nat) (w : Word) : Device :=
  let old := if off = 0x204 then 0 else d.configRead fn off
  let byte (k : Nat) : Nat := bitsOf (if bit be k then w.toNat else old) (8 * k) 8 * 2 ^ (8 * k)
  let v := byte 0 + byte 1 + byte 2 + byte 3
  let host (f : HostUnit → HostUnit) : Device := { d with host := f d.host }
  if off = 0x04 then host fun h => { h with busOff := if bit v 2 then clearBit h.busOff fn else setBit h.busOff fn }
  else if off = 0x204 then (if bit v 14 then host fun h => { h with aer := h.aer.filter fun f => f ≠ fn } else d)
  else if fn ≠ 0 then d
  else if off = 0x108 then host fun h => { h with vfs := if bit v 0 then 2 ^ (h.numVfs + 1) - 2 else 0 }
  else if off = 0x110 ∧ d.host.vfs = 0 then host fun h => { h with numVfs := min (v % 65536) 31 }
  else d

end Sys2Proof.Machine
end

