-- ==== Sys2Proof/Machine/RingCore.lean ====
section
/-! DEFINITION. Work rings: entries, completion, halting, and the writes of heads (R335 to R339, R344 to R347). -/

namespace Sys2Proof.Machine

def Device.ring (d : Device) (r : Nat) : RingSt := tabGet (fun _ => {}) d.host.rings r
def Device.setRing (d : Device) (r : Nat) (s : RingSt) : Device :=
  { d with host := { d.host with rings := tabSet (fun _ => {}) d.host.rings r s } }
def Device.modRing (d : Device) (r : Nat) (f : RingSt → RingSt) : Device := d.setRing r (f (d.ring r))

/-- A field of a ring's RW_CTRL (R347). -/
def Device.ringCtl (d : Device) (r : Nat) (f : Fld) : Nat := f.get (d.reg (A.RINGS_RW_CTRL r))
def Device.ringType (d : Device) (r : Nat) : Nat := d.ringCtl r F.RINGS_RW_CTRL_TYPE
/-- N, the entries of a ring. -/
def Device.ringSize (d : Device) (r : Nat) : Nat := 2 ^ d.ringCtl r F.RINGS_RW_CTRL_LOG2_SIZE
def Device.ringBase (d : Device) (r : Nat) : Nat := d.pair (A.RINGS_RW_BASE_LO r) (A.RINGS_RW_BASE_HI r)
def Device.ringHead (d : Device) (r : Nat) : Nat := d.pair (A.RINGS_RW_HEAD_ADDR_LO r) (A.RINGS_RW_HEAD_ADDR_HI r)

/-- An enabled ring: its window's EN is 1. -/
def Device.ringOn (d : Device) (r : Nat) : Bool := d.ringCtl r F.RINGS_RW_CTRL_EN == 1

/-- Spans of `n` bytes at `a` and `m` bytes at `b` share a byte. -/
def overlaps (a n b m : Nat) : Bool := decide (a < b + m ∧ b < a + n)

/-- A span overlaps the entry array or the head of an enabled ring of function `fn`, other than ring `own` (R344, R347). -/
def Device.hitsRing (d : Device) (fn a n : Nat) (own : Option Nat) : Bool :=
  (List.range 512).any fun r => own != some r && d.ringOn r && d.ringFn r == fn &&
    (overlaps a n (d.ringBase r) (64 * d.ringSize r) || overlaps a n (d.ringHead r) 4)

/-- A data or buffer address that halts its ring with BAD_ADDR (R344). -/
def Device.badAddr (d : Device) (r a n align : Nat) : Bool :=
  a % align != 0 || !d.inWindow (d.ringFn r) a n || d.hitsRing (d.ringFn r) a n none

-- The DMA budget (R38, R61) ----------------------------------------------------------------------------------------

/-- Charge a piece of work of `need` bytes to the budget of a ring's class: as many of its pieces as the budget holds are
admitted, and the work is whole once all are. `out`: the write of a packet or notice or the transfer of a table row, otherwise the
read of an entry with its frame. The class's next work in turn is then that of the ring after it (R336). -/
def Device.ringPay (d : Device) (r need : Nat) (out : Bool) : Device × Bool :=
  let s := d.ring r
  let cls := d.ringCtl r F.RINGS_RW_CTRL_CLASS
  let had := if out then s.paidOut else s.paid
  let (d, n) := d.takePieces 0x0E cls need had (2 * r + b2n out)
  let whole := decide (need ≤ had + n)
  let left := if whole then 0 else had + n
  let d := d.setRing r (if out then { s with paidOut := left } else { s with paid := left })
  (if whole then { d with budget := { d.budget with lastRing := tnatSet d.budget.lastRing cls r } } else d, whole)

/-- Work of a ring that waits for the budget is withdrawn. -/
def Device.ringNoWait (d : Device) (r : Nat) : Device :=
  let cls := d.ringCtl r F.RINGS_RW_CTRL_CLASS
  (d.noWait 0x0E cls (2 * r)).noWait 0x0E cls (2 * r + 1)

/-- Bytes moved over DMA for a ring (R363, R364). -/
def Device.dmaEvent (d : Device) (r n : Nat) : Device :=
  d.event none 0x8005 n (some r) { fn := some (d.ringFn r) }

-- Polling (R336) ---------------------------------------------------------------------------------------------------

/-- POLL_INTERVAL and IRQ_BATCH; 0 is treated as 1. -/
def Device.pollEvery (d : Device) (r : Nat) : Nat :=
  max 1 (F.RINGS_RW_POLL_POLL_INTERVAL.get (d.reg (A.RINGS_RW_POLL r)))
def Device.irqBatch (d : Device) (r : Nat) : Nat := max 1 (F.RINGS_RW_POLL_IRQ_BATCH.get (d.reg (A.RINGS_RW_POLL r)))

/-- The first stroke after the present one that begins with a poll of a ring enabled in stroke `base`: polls fall every
`every` strokes from the boundary that ends `base` (R41). -/
def nextPoll (base every now : Nat) : Nat := base + 1 + every * max 1 (ceilDiv (now - base) every)

-- Completion (R337) ------------------------------------------------------------------------------------------------

/-- One more entry of a ring is done. -/
def Device.ringDone (d : Device) (r : Nat) : Device :=
  let d := d.count (A.RINGS_RW_DONE_LO r)
  d.modRing r fun s => { s with done := (s.done + 1) % 2 ^ 32, headDue := true, fresh := s.fresh + 1 }

/-- EN of a ring's window becomes 0. -/
def Device.ringOff (d : Device) (r : Nat) : Device :=
  d.setReg (A.RINGS_RW_CTRL r) (F.RINGS_RW_CTRL_EN.put (d.reg (A.RINGS_RW_CTRL r)) 0)

/-- A halt takes place (R344). A ring that a clear of EN has stopped is then IDLE (R336; DEDUCED). -/
def Device.haltNow (d : Device) (r code index row : Nat) : Device :=
  let d := d.ringNoWait r
  let d := if (d.ring r).stopping then d.ringOff r else d
  let d := d.modRing r fun s => { s with
    st := if s.stopping then .idle else .halted, stopping := false, code := code, errIndex := index, errRow := row,
    jobs := [], polled := false, paid := 0, paidOut := 0,
    lateEntry := false, lateData := false, lateRow := false, retryAt := none, halting := none, headDue := true,
    haltIrq := true }
  (d.setW1c (A.HOST_HALTED (r / 32)) (r % 32)).raise 0x10000 0

/-- A ring halts at entry `index`, once the entries taken before it are done (R344). -/
def Device.haltAt (d : Device) (r code index : Nat) : Device :=
  if (d.ring r).jobs.isEmpty then d.haltNow r code index 0
  else (d.noWait 0x0E (d.ringCtl r F.RINGS_RW_CTRL_CLASS) (2 * r)).modRing r fun s => { s with
    halting := some (code, index), polled := false, paid := 0 }

/-- A held entry of an RX or NOTIFY ring fails: the ring halts at it, and the entries after it, though held, are not started
(R344). -/
def Device.heldFails (d : Device) (r code index : Nat) : Device :=
  (d.modRing r fun s => { s with held := [] }).haltAt r code index

/-- A ring stops for good: the clear of EN takes effect, and nothing taken remains (R336, R347). -/
def Device.ringIdle (d : Device) (r : Nat) : Device :=
  let d := (d.ringNoWait r).ringOff r
  let s := d.ring r
  let k := match s.held with
    | e :: _ => e.num
    | [] => s.k
  d.setRing r { s with
    st := .idle, k := k, held := [], jobs := [], polled := false, paid := 0, paidOut := 0, lateEntry := false, lateData := false,
    lateRow := false, retryAt := none, halting := none, stopping := false, resume := false }

/-- A TX ring's entry is taken, and its frame's read under way. -/
def Device.readingFrame (d : Device) (r : Nat) : Bool := d.ringType r == 1 && decide (64 < (d.ring r).paid)

/-- The last entry taken is done: a halt or a stop that waited for it follows. -/
def Device.ringSettle (d : Device) (r : Nat) : Device :=
  let s := d.ring r
  if !s.jobs.isEmpty ∨ d.readingFrame r then d
  else if s.stopping then d.ringIdle r
  else match s.halting with
    | some (code, index) => d.haltNow r code index 0
    | none => d

/-- The head is written, charged to the budget of the ring's class (R337). -/
def Device.headPost (d : Device) (r : Nat) : Device :=
  let s := d.ring r
  match d.postWrite (d.ringFn r) (d.ringHead r) (leBytes 4 s.done) with
  | some d => (d.spend 0x0E (d.ringCtl r F.RINGS_RW_CTRL_CLASS) 4 (7000000 + r)).dmaEvent r 4
  | none => if s.st = .halted ∨ s.st = .idle then d else d.haltAt r 2 s.k

/-- HEAD_WRITE at the boundary: the completed count is written to the head, and then the vector is signalled (R337, R344). A
write that its class's budget does not admit waits for the next boundary, and the signal with it (R38). -/
def Device.headWrite (d : Device) (r : Nat) : Device :=
  let s := d.ring r
  let cls := d.ringCtl r F.RINGS_RW_CTRL_CLASS
  if s.headDue ∧ !d.canAdmit 0x0E cls 4 1 0 (7000000 + r) then d.mustWait 0x0E cls (7000000 + r) 4
  else
    let d := if s.headDue then d.headPost r else d
    let irq := d.ringCtl r F.RINGS_RW_CTRL_IRQ_EN == 1 &&
      (s.haltIrq || decide (d.irqBatch r ≤ s.fresh) || (s.wentIdle && decide (0 < s.fresh)))
    let d := if irq then d.signal (d.ringFn r) (d.ringCtl r F.RINGS_RW_CTRL_VEC) else d
    d.modRing r fun t => { t with
      headDue := t.headDue && !s.headDue, haltIrq := t.haltIrq && !s.haltIrq, wentIdle := false,
      fresh := if irq then 0 else t.fresh }

/-- A resumed ring reads its failing entry again (R346). -/
def Device.ringResume (d : Device) (r : Nat) : Device :=
  let s := d.ring r
  if s.resume ∧ s.st = .halted then
    d.setRing r { s with st := .active, k := s.errIndex, resume := false }
  else d.setRing r { s with resume := false }

/-- The rings at a boundary. -/
def Device.ringBoundary (d : Device) : Device :=
  (d.host.rings.map (·.1)).foldl (fun d r => (d.headWrite r).ringResume r) d

end Sys2Proof.Machine
end

