-- ==== Sys2Proof/Machine/Tdma.lean ====
section
/-! DEFINITION. Table-DMA: the rows of a table, the checks of a row in their order, and the four operations (R153, R169 to
R172). -/

namespace Sys2Proof.Machine

/-- Rows that a table code accepts: the first, and the one past the last (R169). -/
def Device.tableRows (d : Device) (code : Nat) : Option (Nat × Nat) :=
  let e := 65536 * profE d.profile.active
  match code with
  | 0 => some (0, e)
  | 1 => some (e, 1572864)
  | 2 => some (0, 262144)
  | 3 => some (0, 8192)
  | 4 => some (0, 65536)
  | 5 => some (0, d.table.extRows)
  | _ => none

/-- A row is one that its table accepts. -/
def Device.rowInTable (d : Device) (code row : Nat) : Bool :=
  match d.tableRows code with
  | some (lo, hi) => decide (lo ≤ row ∧ row < hi)
  | none => false

/-- A row as the table holds it. -/
def Device.tableRow (d : Device) (code slot row : Nat) : Nat :=
  match code with
  | 2 => tnat d.table.tern (slot * 262144 + row)
  | 3 => tnat d.table.groups row
  | 4 => tnat d.table.members row
  | 5 => tnat d.table.ext row
  | _ => d.poolRow row

/-- The search state that the LX204 keeps in bits [255:128] of each unit of an LPM row: what it reads as is open (R160). -/
def Device.searchState (d : Device) (v : Nat) : Nat × Device :=
  let (a, d) := d.free 128
  let (b, d) := d.free 128
  (lpmUnit v 0 + a * 2 ^ 128 + lpmUnit v 1 * 2 ^ 256 + b * 2 ^ 384, d)

/-- The row as a READ copies it. -/
def Device.readTable (d : Device) (code slot row : Nat) : Nat × Device :=
  let v := d.tableRow code slot row
  if code = 1 then d.searchState v else (v, d)

/-- A table row out of service for good holds nothing; one that is under test, or copied to a spare, keeps what is written (R391,
R393, R395). -/
def Device.rowLost (d : Device) (code row : Nat) : Bool :=
  d.rowOut code row && !d.ras.testing.contains ⟨2, code, row⟩ && !d.ras.repairs.any fun r => r.place = ⟨2, code, row⟩

/-- Write a row. An LPM row keeps its search state, and lookups of this stroke still see what it held before (R160,
R161). -/
def Device.writeTable (d : Device) (code slot row v : Nat) : Device :=
  let t := d.table
  if d.rowLost code (if code = 2 then slot * 262144 + row else row) then d
  else match code with
  | 1 =>
    let old := if (assoc t.lpmOld row).isSome then t.lpmOld else (row, d.poolRow row) :: t.lpmOld
    let d := { d with table := { t with lpmOld := old } }
    d.setPoolRow row (lpmUnit v 0 + lpmUnit v 1 * 2 ^ 256)
  | 2 => { d with table := { t with tern := tnatSet t.tern (slot * 262144 + row) v } }
  | 3 => { d with table := { t with groups := tnatSet t.groups row v } }
  | 4 => { d with table := { t with members := tnatSet t.members row v } }
  | 5 => { d with table := { t with ext := tnatSet t.ext row v } }
  | _ => d.setPoolRow row v

-- Generation rules (R171) ------------------------------------------------------------------------------------------

/-- A part of a row that belongs to one entry: its content, its entry's mask, and whether it is the entry's second part. -/
structure RowPart where
  bits : Nat
  mask : Nat
  second : Bool
deriving DecidableEq, Repr

/-- The slots of an EM or extension row, each with the mask of the entry it belongs to. -/
def emParts (row : Nat) : List RowPart :=
  (List.range 4).map fun s =>
    let sec := emSecond row s
    ⟨emSlot row s, emGm (emSlot row (if sec then s - 1 else s)), sec⟩

/-- The units of an LPM row; unit 1 belongs to an IPv6 entry in unit 0. -/
def lpmParts (row : Nat) : List RowPart :=
  let u0 := lpmUnit row 0
  let sec := bit u0 2 && u0 % 4 != 0
  [⟨u0, u0 % 4, false⟩, ⟨lpmUnit row 1, if sec then u0 % 4 else lpmUnit row 1 % 4, sec⟩]

/-- A change of an entry that R171 accepts in STEADY; `act` is the active slot. -/
def partOk (act : Nat) (old new : RowPart) : Bool :=
  let o := old.mask
  let g := new.mask
  (old.bits == new.bits && old.second == new.second) ||
    (old.bits / 4 == new.bits / 4 && !old.second && !new.second && bit o act == bit g act) ||
    (!bit o act && !bit g act) || ((o == 0 || o == 3) && (g == 0 || g == 3))

/-- The generation rules accept a WRITE of a row (R171). -/
def Device.genAllows (d : Device) (code slot row v : Nat) : Bool :=
  let act := slotOf d.gen.active
  let old := d.tableRow code slot row
  if code = 3 ∨ code = 4 then true
  else if d.gen.state ≠ .steady then false
  else if code = 2 then slot != act
  else if code = 1 then ((lpmParts old).zip (lpmParts v)).all fun (p : RowPart × RowPart) => partOk act p.1 p.2
  else ((emParts old).zip (emParts v)).all fun (p : RowPart × RowPart) => partOk act p.1 p.2

/-- A WRITE places an entry in a free slot of a row in a block being vacated (R66, R170). -/
def Device.fillsVacating (d : Device) (code row v : Nat) : Bool :=
  let old := d.poolRow row
  if code = 0 then d.vacating row && (emEntries v).any fun s => emFree old s
  else if code = 1 then d.vacating row && ((lpmParts old).zip (lpmParts v)).any fun (p : RowPart × RowPart) =>
    p.1.mask == 0 && p.2.mask != 0
  else false

/-- The code with which row `j` of a job halts its ring, in the order of R170; none where the row passes. `v` is what a
WRITE brings. -/
def Device.tdmaCheck (d : Device) (j : TdmaJob) (v : Nat) : Option Nat :=
  let row := j.row + j.next
  if !d.rowInTable j.table row then some 5
  else if j.op = 1 then
    if !d.genAllows j.table j.slot row v then some 6
    else if j.reqLock ∧ !(j.table = 0 ∧ d.rowLocked row) then some 7
    else if d.fillsVacating j.table row v then some 5
    else none
  else if j.op = 2 then
    if j.table ≠ 0 then some 5
    else if 256 ≤ (d.table.locks.filter fun e => d.rowLocked e.1).length ∧ !d.rowLocked row then some 8
    else none
  else if j.op = 3 ∧ j.table ≠ 0 then some 5
  else none

-- The operations ---------------------------------------------------------------------------------------------------

/-- The table-DMA job at the front of a ring, when it is one of operation `op` and may go on. -/
def Device.frontJob (d : Device) (r op : Nat) : Option TdmaJob :=
  let s := d.ring r
  match s.jobs with
  | j :: _ => if j.op = op ∧ s.st ≠ .halted ∧ s.st ≠ .idle ∧ (s.retryAt.isNone ∨ !s.lateRow) then some j else none
  | [] => none

/-- One row of the front job is done; with its last row the entry is done. -/
def Device.rowDone (d : Device) (r : Nat) : Device :=
  let s := d.ring r
  match s.jobs with
  | [] => d
  | j :: rest =>
    if j.next + 1 < j.count then d.setRing r { s with jobs := { j with next := j.next + 1 } :: rest, lateRow := false }
    else (((d.setRing r { s with jobs := rest, lateRow := false }).ringDone r).ringSettle r)

/-- The front job fails at its present row: the ring halts at that entry (R344). -/
def Device.rowFails (d : Device) (r code : Nat) (j : TdmaJob) : Device := d.haltNow r code j.num j.next

/-- The next row of the front job is presented: it takes a table-DMA slot, and for data 64 bytes of the ring class's DMA
budget (R38, R169, R336). -/
def Device.rowSlot (d : Device) (r : Nat) (data : Bool) : Device × Bool :=
  if !d.canAdmit 0x10 0 1 1 d.stroke.cyc r then (d.mustWait 0x10 0 r 1, false)
  else if data then
    let (d, whole) := d.ringPay r 64 true
    if whole then (d.spend 0x10 0 1 r, true) else (d, false)
  else (d.spend 0x10 0 1 r, true)

/-- TDMA_READ: the next row of the front entry of ring `r` is copied to host memory (R170). -/
def tdmaRead (d : Device) (r : Nat) : Device :=
  match d.frontJob r 0 with
  | none => d
  | some j =>
    match d.tdmaCheck j 0 with
    | some code => d.rowFails r code j
    | none =>
      let (d, go) := d.rowSlot r true
      if !go then d
      else
        let (v, d) := d.readTable j.table j.slot (j.row + j.next)
        match d.postWrite (d.ringFn r) (j.addr + 64 * j.next) (leBytes 64 v) with
        | none => d.rowFails r (d.dmaFault (d.ringFn r) (j.addr + 64 * j.next) 64) j
        | some d => (d.dmaEvent r 64).rowDone r

/-- TDMA_WRITE: the next row of the front entry takes the 64 bytes that host memory holds for it, or none where the read is
answered with an error (R170, R344). -/
def tdmaWrite (d : Device) (r : Nat) (data : Option Bytes) : Device :=
  match d.frontJob r 1 with
  | none => d
  | some j =>
    let (d, go) := d.rowSlot r true
    if !go then d
    else
      let fn := d.ringFn r
      let at_ := j.addr + 64 * j.next
      match data with
      | none => d.rowFails r (d.dmaFault fn at_ 64) j
      | some bs =>
        if !d.mayDma fn at_ 64 then d.rowFails r (d.dmaFault fn at_ 64) j
        else
          let d := d.dmaEvent r 64
          let v := leNat (sliceBytes bs 0 64)
          match d.tdmaCheck j v with
          | some code => d.rowFails r code j
          | none => (d.writeTable j.table j.slot (j.row + j.next) v).rowDone r

/-- TDMA_LOCK: the next row of the front entry is locked, or its lock armed again; one that has matured expires first (R172). -/
def tdmaLock (d : Device) (r : Nat) : Device :=
  match d.frontJob r 2 with
  | none => d
  | some j =>
    match d.tdmaCheck j 0 with
    | some code => d.rowFails r code j
    | none =>
      let (d, go) := d.rowSlot r false
      if !go then d
      else
        let d := lockExpire d (j.row + j.next)
        let locks := assocSet d.table.locks (j.row + j.next) d.lockDue
        ({ d with table := { d.table with locks := locks } }).rowDone r

/-- TDMA_UNLOCK: the next row of the front entry is unlocked; one that is not locked is counted (R170). -/
def tdmaUnlock (d : Device) (r : Nat) : Device :=
  match d.frontJob r 3 with
  | none => d
  | some j =>
    match d.tdmaCheck j 0 with
    | some code => d.rowFails r code j
    | none =>
      let (d, go) := d.rowSlot r false
      if !go then d
      else
        let row := j.row + j.next
        let d := lockExpire d row
        let d := if d.rowLocked row then { d with table := { d.table with locks := assocDel d.table.locks row } }
          else d.count (tblCnt 11)
        d.rowDone r

end Sys2Proof.Machine
end

