-- ==== Sys2Proof/Machine/Rings.lean ====
section
/-! DEFINITION. What work rings do: enabling, polls, entry reads, received packets and notices, timeouts and resumption
(R335 to R350). -/

namespace Sys2Proof.Machine

-- Windows (R347) ---------------------------------------------------------------------------------------------------

/-- The check of a ring window at the write of EN = 1: the code it is refused with. -/
def Device.ringCheck (d : Device) (r : Nat) (w : Word) : Option Nat :=
  let l := F.RINGS_RW_CTRL_LOG2_SIZE.get w
  let ty := F.RINGS_RW_CTRL_TYPE.get w
  let fn := d.ringFn r
  let base := d.ringBase r
  let head := d.ringHead r
  let size := 64 * 2 ^ l
  if l < 4 ∨ 16 < l ∨ ty = 0 ∨ 4 < ty ∨ (ty = 3 ∧ fn ≠ 0) then some 4
  else if base % 4096 ≠ 0 ∨ head % 8 ≠ 0 ∨ !d.inWindow fn base size ∨ !d.inWindow fn head 4 ∨
      d.hitsRing fn base size (some r) ∨ d.hitsRing fn head 4 (some r) then some 1
  else none

/-- The bits of RW_CTRL that software reads back. -/
def ringCtlKept (w : Word) : Word := BitVec.ofNat 32 (w.toNat % 2 ^ 24)

/-- EN goes to 1: the window is checked, and the ring starts at RW_START (R346, R347). TYPE, LOG2_SIZE and CLASS come with
the same write. -/
def Device.ringStart (d : Device) (src : Source) (r : Nat) (w : Word) : Device :=
  let off := F.RINGS_RW_CTRL_EN.put (ringCtlKept w) 0
  let s := d.ring r
  match d.ringCheck r w with
  | some code => ((d.setReg (A.RINGS_RW_CTRL r) off).modRing r fun s => { s with code := code }).refuseRing src (r * 0x100)
  | none =>
    let k := (d.reg (A.RINGS_RW_START r)).toNat
    let d := d.setReg (A.RINGS_RW_CTRL r) (ringCtlKept w)
    d.setRing r { ({} : RingSt) with
      st := .polling, k := k, done := k, code := s.code, errIndex := s.errIndex, errRow := s.errRow,
      base := d.strokeNo, pollAt := nextPoll d.strokeNo (d.pollEvery r) d.strokeNo,
      headDue := s.headDue, haltIrq := s.haltIrq }

/-- EN is cleared: held entries are given back, and the clear takes effect once the entries taken are done (R336, R347). A
read that waits for its retry is abandoned, and its entry is not done (R350). -/
def Device.ringStop (d : Device) (r : Nat) : Device :=
  let s := d.ring r
  let waits := s.retryAt.isSome
  if (waits && s.lateRow) ∨ (s.jobs.isEmpty && (waits || !d.readingFrame r)) then d.ringIdle r
  else (if waits then d.ringNoWait r else d).setRing r { s with
    stopping := true, halting := none, retryAt := none, paid := if waits then 0 else s.paid }

/-- A write of RW_CTRL (R346, R347): TYPE, LOG2_SIZE and CLASS hold while EN = 1, a clear of EN wins over RESUME, and RESUME
acts on a halted ring only. EN reads 1 until a clear has taken effect. RING_ENABLE, RING_DISABLE and RING_RESUME are such
writes. -/
def ringCtrlWrite (d : Device) (src : Source) (r : Nat) (w : Word) : Device :=
  let a := A.RINGS_RW_CTRL r
  let old := d.reg a
  let en := F.RINGS_RW_CTRL_EN.get w == 1
  if !d.ringOn r then
    if en then d.ringStart src r w else d.setReg a (ringCtlKept w)
  else
    -- EN = 1: the held fields keep their values, and a write that would change one is recorded
    let kept := BitVec.ofNat 32 (bitsOf old.toNat 1 11 * 2 + bitsOf w.toNat 12 12 * 2 ^ 12 + 1)
    let d := if bitsOf w.toNat 1 11 = bitsOf old.toNat 1 11 then d else d.refuseRing src (r * 0x100)
    let d := d.setReg a kept
    if !en then d.ringStop r
    else if F.RINGS_RW_CTRL_RESUME.get w = 1 ∧ (d.ring r).st = .halted then d.modRing r fun s => { s with resume := true }
    else d

/-- A write of RING_FN (R334): only while the ring's EN = 0. -/
def ringFnWrite (d : Device) (src : Source) (r : Nat) (w : Word) : Device :=
  let a := A.HOST_RING_FN r
  if d.ringOn r then d.refuse src a else d.setReg a (BitVec.ofNat 32 (w.toNat % 32))

/-- FUNCTION_LEVEL_RESET of VF `f`: its rings go to IDLE at once without head writes (R350). -/
def functionLevelReset (d : Device) (f : Nat) : Device :=
  let mine := (d.host.rings.map (·.1)).filter fun r => d.ringFn r = f
  let d := mine.foldl (fun d r =>
    ((d.modRing r fun s => { s with jobs := [] }).ringIdle r).modRing r fun s => { s with
      headDue := false, haltIrq := false, wentIdle := false, fresh := 0 }) d
  d.raise 0x10000 1

-- Polls (R336) -----------------------------------------------------------------------------------------------------

/-- RING_POLL: a polling ring whose poll is due reads the entry at K. -/
def ringPoll (d : Device) (r : Nat) : Device :=
  let s := d.ring r
  if s.st = .polling ∧ !s.polled ∧ s.retryAt.isNone ∧ s.pollAt ≤ d.strokeNo then
    d.setRing r { s with polled := true, pollAt := nextPoll s.base (d.pollEvery r) d.strokeNo }
  else d

/-- The ring finds its entry empty: it polls again, and an ACTIVE ring with completions not signalled signals them. -/
def Device.ringEmpty (d : Device) (r : Nat) : Device :=
  d.modRing r fun s => { s with
    st := .polling, polled := false, lateEntry := false, lateData := false, pollAt := max s.pollAt (nextPoll s.base (d.pollEvery r) d.strokeNo),
    wentIdle := s.wentIdle || s.st == .active }

-- Entries (R339 to R342) -------------------------------------------------------------------------------------------

/-- A field of an entry, in little-endian order. -/
def entFld (e : Bytes) (byte n lo w : Nat) : Nat := bitsOf (leAt e byte n) lo w

/-- Bytes `k` to `k + n - 1` of an entry are 0. -/
def entZero (e : Bytes) (k n : Nat) : Bool := leAt e k n == 0

/-- Reserved bits of an entry are 0 (R339 to R342). -/
def entReserved (ty : Nat) (e : Bytes) : Bool :=
  let base := entFld e 0 1 1 7 == 0
  base && match ty with
  | 1 => entFld e 4 2 14 2 == 0 && entFld e 6 1 2 6 == 0 && entFld e 7 1 4 4 == 0 && entFld e 8 2 10 6 == 0 &&
      entFld e 10 1 4 4 == 0 && entZero e 12 4 && entZero e 24 40
  | 2 => entFld e 4 2 9 7 == 0 && entZero e 6 10 && entZero e 24 40
  | 3 => entFld e 4 1 4 4 == 0 && entFld e 5 1 4 4 == 0 && entZero e 7 1 && entFld e 8 4 24 8 == 0 &&
      entZero e 12 4 && entZero e 24 40
  | _ => entZero e 4 12 && entZero e 24 40

/-- An entry's fields are ones its type accepts, else BAD_ENTRY (R339, R341, R342). -/
def entGood (ty : Nat) (e : Bytes) : Bool :=
  entFld e 1 1 0 8 == ty && entReserved ty e && match ty with
  | 2 => decide (2 ≤ entFld e 4 2 0 9 ∧ entFld e 4 2 0 9 ≤ 257)
  | 3 => decide (1 ≤ entFld e 6 1 0 8 ∧ entFld e 6 1 0 8 ≤ 16)
  | _ => true

/-- The address of an entry and its span in bytes, with the alignment it needs; none where the address is not used. -/
def entSpan (ty : Nat) (e : Bytes) : Option (Nat × Nat × Nat) :=
  let a := leAt e 16 8
  match ty with
  | 1 => some (a, entFld e 4 2 0 14, 8)
  | 2 => some (a, 64 * entFld e 4 2 0 9, 64)
  | 3 => if entFld e 4 1 0 2 ≤ 1 then some (a, 64 * entFld e 6 1 0 8, 64) else none
  | _ => some (a, 64, 64)

/-- A TX frame that is malformed (R343). -/
def Device.txBad (d : Device) (e : Bytes) : Bool :=
  let len := entFld e 4 2 0 14
  decide (len < 60 ∨ 16379 < len) || !d.portEn (entFld e 8 2 0 10) ||
    (entFld e 6 1 1 1 == 1 && decide (len < entFld e 11 1 0 8 + 44))

/-- TX_FRAME_INJECT: a TX entry's frame goes into its gallery's ingress or to its queue, or is dropped (R340, R343). -/
def Device.txInject (d : Device) (r : Nat) (e body : Bytes) : Device :=
  let port := entFld e 8 2 0 10
  let direct := entFld e 6 1 0 1 == 1
  let fn := d.ringFn r
  let info (code : Nat) : DropInfo :=
    { code := code, gal := port / 32, inPort := if direct then 0 else port, iclass := if direct then 0 else entFld e 7 1 0 4,
      len := entFld e 4 2 0 14, host := true, org := if direct then 2 else 1, fn := some fn }
  if d.isFenced (port / 32) then (d.drop (info 0xB0)).count (A.RINGS_RW_NONFATAL_LO r)
  else if d.txBad e then (d.drop (info 0x91)).count (A.RINGS_RW_NONFATAL_LO r)
  else
    let bs := sliceBytes body 0 (entFld e 4 2 0 14)
    let iclass := if direct then 0 else entFld e 7 1 0 4
    let f := d.newFrame (port / 32) port (if direct then 2 else 1) iclass false bs
    let origin := if entFld e 6 1 1 1 = 1 then some (entFld e 11 1 0 8) else none
    let f := { f with ring := some r, originAt := origin }
    if direct then d.direct f (16 * port + entFld e 10 1 0 4) origin else d.injectFrame f (.host r)

/-- The job of a table-DMA entry. -/
def jobOf (k : Nat) (e : Bytes) : TdmaJob :=
  { num := k, op := entFld e 4 1 0 2, reqLock := entFld e 4 1 2 1 == 1, slot := entFld e 4 1 3 1, table := entFld e 5 1 0 4,
    row := entFld e 8 4 0 24, count := entFld e 6 1 0 8, addr := leAt e 16 8 }

/-- A ring whose next entry may be read now: EN = 1, or its frame's read is to be finished, with a poll's read on its way or
ACTIVE, with room, waiting for no retry and for no halt. -/
def Device.mayRead (d : Device) (r : Nat) : Bool :=
  let s := d.ring r
  (if s.stopping then d.readingFrame r else d.ringOn r) && s.halting.isNone && s.retryAt.isNone &&
    (s.st == .active || (s.st == .polling && s.polled)) &&
    decide (s.jobs.length < 8 ∧ s.held.length < 8)

/-- Bytes that carrying out an entry reads besides the entry itself: a TX frame's that is injected. -/
def Device.entData (d : Device) (r : Nat) (e : Bytes) : Nat :=
  let k := (d.ring r).k
  let valid := entFld e 0 1 0 1 = 1 - k / d.ringSize r % 2 ∧ entFld e 2 2 0 16 = k % 65536
  if d.ringType r = 1 ∧ valid ∧ entGood 1 e ∧ !d.txBad e ∧ !d.isFenced (entFld e 8 2 0 10 / 32) then entFld e 4 2 0 14 else 0

/-- Carry out a valid entry: its frame, its job, or its place among the entries held. -/
def Device.takeEntry (d : Device) (r : Nat) (e : Bytes) (body : Option Bytes) : Device :=
  let s := d.ring r
  let d := d.setRing r { s with st := .active, polled := false, k := (s.k + 1) % 2 ^ 32, lateEntry := false, lateData := false }
  match d.ringType r with
  | 1 => (d.txInject r e (body.getD [])).ringDone r
  | 3 => d.modRing r fun t => { t with jobs := t.jobs ++ [jobOf s.k e] }
  | 2 => d.modRing r fun t => { t with held := t.held ++ [⟨s.k, leAt e 16 8, 64 * entFld e 4 2 0 9⟩] }
  | _ => d.modRing r fun t => { t with held := t.held ++ [⟨s.k, leAt e 16 8, 64⟩] }

/-- What a completed read of the entry at K, with these bytes, makes of the ring. -/
def Device.entryCome (d : Device) (r : Nat) (e : Bytes) (body : Option Bytes) : Device :=
  let s := d.ring r
  let d := d.dmaEvent r (64 + d.entData r e)
  if entFld e 0 1 0 1 ≠ 1 - s.k / d.ringSize r % 2 then d.ringEmpty r
  else if entFld e 2 2 0 16 ≠ s.k % 65536 then d.haltAt r 3 s.k
  else if !entGood (d.ringType r) e then d.haltAt r 4 s.k
  else
    let bad := match entSpan (d.ringType r) e with
      | some (a, n, al) => d.badAddr r a n al
      | none => false
    if bad then d.haltAt r 1 s.k
    else if 0 < d.entData r e ∧ body.isNone then d.haltAt r 2 s.k
    else d.takeEntry r e body

/-- RING_ENTRY_READ: the read of ring `r`'s entry at K completes with these 64 bytes, or with an error; `body` is what host
memory holds at a TX entry's DATA_ADDR, none where that read is answered with an error (R334, R335, R344). -/
def ringEntryRead (d : Device) (r : Nat) (entry body : Option Bytes) : Device :=
  if !d.mayRead r then d
  else
    let s := d.ring r
    let e := entry.getD []
    let (d, whole) := d.ringPay r (64 + d.entData r e) false
    let at_ := d.ringBase r + 64 * (s.k % d.ringSize r)
    if !whole then d
    else if !d.mayDma (d.ringFn r) at_ 64 ∨ entry.isNone then d.haltAt r (d.dmaFault (d.ringFn r) at_ 64) s.k
    else (d.entryCome r e body).ringSettle r

-- Packets and notices to the host (R338, R341) ---------------------------------------------------------------------

/-- The 64-byte receive record (R341). -/
def rxRecord (t : TrapPkt) (f : Frame) (wlen : Nat) : Bytes :=
  let flen := f.bytes.length
  let flags := b2n (decide (wlen + 4 < flen)) + 2 * b2n t.phv.parseTrunc + 4 * b2n t.phv.lenUnder + 8 * b2n t.phv.frag
  leBytes 2 wlen ++ leBytes 2 flen ++ leBytes 1 flags ++ leBytes 1 t.cause ++ leBytes 2 (f.inPort + f.iclass * 1024) ++
    leBytes 1 t.stage ++ leBytes 1 t.pass ++ leBytes 2 t.actIx ++ leBytes 4 f.stamp.toNat ++ leBytes 6 (clkSec f.tsClk) ++
    leBytes 4 (clkNs f.tsClk) ++ leBytes 2 (clkFrac f.tsClk) ++ leBytes 4 t.phv.h0 ++ leBytes 8 t.stroke ++ zeroBytes 24

/-- The first held entry of a ring has been filled. -/
def Device.fillHeld (d : Device) (r : Nat) : Device :=
  (d.modRing r fun s => { s with held := s.held.drop 1 }).ringDone r

/-- A ring that takes packets (type 2) or notices (type 4): enabled, of that type, and not being cleared. -/
def Device.ringTakes (d : Device) (r ty : Nat) : Bool :=
  d.ringOn r && d.ringType r == ty && (d.ring r).st != .idle

/-- RX_PACKET_WRITE: the oldest packet trapped to ring `r` whose frame is complete is written with its record into the first
entry held, or dropped with HOST_RING_FULL (R338, R341). -/
def rxPacketWrite (d : Device) (r : Nat) : Device :=
  match d.host.traps.find? fun t => t.ring = r with
  | none => d
  | some t =>
    match d.frame t.frame with
    | none => d
    | some f =>
      if !(f.ended && f.checked) then d
      else if !d.ringTakes r 2 then (d.count A.HOST_TRAP_NO_RING_LO).dropTrap t 0x90
      else
        let full (d : Device) : Device := (d.count (A.RINGS_RW_NONFATAL_LO r)).dropTrap t 0x90
        match (d.ring r).st, (d.ring r).held with
        | .halted, _ => full d
        | _, [] => full d
        | _, h :: _ =>
          let wlen := min (f.bytes.length - 4) (h.size - 64)
          let (d, whole) := d.ringPay r (64 + wlen) true
          if !whole then d
          else
            match d.postWrite (d.ringFn r) h.addr (rxRecord t f wlen ++ f.bytes.take wlen) with
            | none => full (d.heldFails r (d.dmaFault (d.ringFn r) h.addr (64 + wlen)) h.num)
            | some d =>
              let d := (d.dmaEvent r (64 + wlen)).fillHeld r
              let d := { d with host := { d.host with traps := d.host.traps.filter fun u => u ≠ t } }
              let d := if d.othersLive t.frame none then d else d.flowFinish t.frame none none
              d.releaseFrame t.frame

def NoticeKind.code : NoticeKind → Nat
  | .insert => 1 | .move => 2 | .aged => 3 | .removed => 4 | .lockExpired => 5

/-- A notice as a 64-byte record (R341). -/
def Notice.bytes (n : Notice) : Bytes :=
  leBytes 1 n.kind.code ++ leBytes 1 (n.slot % 4 + b2n (emWide n.entry) * 4) ++ zeroBytes 2 ++ leBytes 4 n.row ++
    leBytes 8 n.stroke ++ leBytes 16 n.entry ++ leBytes 16 n.entry2 ++ zeroBytes 16

/-- NOTICE_WRITE: the oldest notice is written into the first held entry of the notice ring, or lost (R166, R338, R341). -/
def noticeWrite (d : Device) : Device :=
  match d.table.notices with
  | [] => d
  | n :: rest =>
    let gone (d : Device) : Device := { d with table := { d.table with notices := rest } }
    let r := d.fld A.TABLE_LEARN_CFG F.TABLE_LEARN_CFG_NOTIFY_RING
    let lost (d : Device) : Device := (gone d).count (tblCnt 16)
    if !d.ringTakes r 4 then lost d
    else
      match (d.ring r).st, (d.ring r).held with
      | .halted, _ => lost (d.count (A.RINGS_RW_NONFATAL_LO r))
      | _, [] => lost (d.count (A.RINGS_RW_NONFATAL_LO r))
      | _, h :: _ =>
        let (d, whole) := d.ringPay r 64 true
        if !whole then d
        else
          match d.postWrite (d.ringFn r) h.addr n.bytes with
          | none => lost ((d.heldFails r (d.dmaFault (d.ringFn r) h.addr 64) h.num).count (A.RINGS_RW_NONFATAL_LO r))
          | some d => gone ((d.dmaEvent r 64).fillHeld r)

-- Timeouts (R345) --------------------------------------------------------------------------------------------------

/-- A completion timeout of function `fn`'s read for ring `r` is reported: in Advanced Error Reporting and in the error log, with
ACTION `act` (R389, R398, R401). -/
def Device.readLate (d : Device) (r act : Nat) : Device := d.readTimedOut (d.ringFn r) r act

/-- A read of ring `r` that met its completion timeout for the first time is to be issued again 1 ms later (R345). -/
def Device.readAgain (d : Device) (r : Nat) (read : HostRead) : Device :=
  ((d.readLate r 2).count (A.RINGS_RW_RETRY_LO r)).modRing r fun s => { s with
    lateEntry := s.lateEntry || read == .entry
    lateData := s.lateData || read == .frame
    lateRow := s.lateRow || read == .tableRow
    retryAt := some (d.now + msT 1) }

/-- HOST_READ_TIMEOUT: a read of ring `r` meets its completion timeout. It is issued once more 1 ms later, and a second timeout of
the same read halts the ring (R345). -/
def hostReadTimeout (d : Device) (r : Nat) (read : HostRead) : Device :=
  let s := d.ring r
  match read with
  | .tableRow =>
    match d.frontJob r 1 with
    | none => d
    | some j => if s.lateRow then (d.readLate r 0).rowFails r 2 j else d.readAgain r read
  | .entry =>
    if !d.mayRead r then d
    else if s.lateEntry then (d.readLate r 0).haltAt r 2 s.k
    else d.readAgain r read
  | .frame =>
    if !d.mayRead r ∨ d.ringType r ≠ 1 then d
    else if s.lateData then (d.readLate r 0).haltAt r 2 s.k
    else d.readAgain r read

/-- HOST_READ_RETRY: a read that waited 1 ms is issued again (R345). -/
def hostReadRetry (d : Device) (r : Nat) : Device :=
  match (d.ring r).retryAt with
  | none => d
  | some t => if d.matured t then d.modRing r fun s => { s with retryAt := none } else d

end Sys2Proof.Machine
end

