-- ==== Sys2Proof/Machine/Damper.lean ====
section
/-! DEFINITION. The Damper, core frequency and voltage, temperature and quench (R374 to R388). -/

namespace Sys2Proof.Machine

-- The ladder (R378) ------------------------------------------------------------------------------------------------

/-- Anvil, sequencer and stair steps of a profile's ladder, and its core step. -/
def anvilSteps (p : Nat) : Nat := ((profBudget p 0x0D 0).getD 0 - 16) / 16
def stairSteps (p : Nat) : Nat := ((profBudget p 0x02 0).getD 0 - 32) / 32
def coreStep (p : Nat) : Nat := if p = 7 then 0 else 1

/-- LEVEL_MAX of a profile. -/
def levelMax (p : Nat) : Nat := anvilSteps p + 3 + stairSteps p + coreStep p

/-- Take the first LEVEL steps of the active profile's ladder. -/
def Device.ladderApply (d : Device) : Device :=
  let p := d.profile.active
  let k := d.damper.level
  let a := min k (anvilSteps p)
  let s := min (k - a) 3
  let t := min (k - a - s) (stairSteps p)
  { d with damper := { d.damper with
      anvilSlots := (profBudget p 0x0D 0).getD 0 - 16 * a
      seqSlots := 256 - 64 * s
      stairSlots := (profBudget p 0x02 0).getD 0 - 32 * t } }

/-- LEVEL includes the core step. -/
def Device.coreStepped (d : Device) : Bool :=
  let p := d.profile.active
  decide (anvilSteps p + 3 + stairSteps p < d.damper.level)

/-- The core is to run at 1.600 GHz (R379). -/
def Device.wantSlow (d : Device) : Bool := profSlow d.profile.active || d.coreStepped

/-- A change of frequency may be made: no quench is in force, and the stroke that ended last held none (R386). -/
def Device.freqMay (d : Device) : Bool := !d.damper.quench && d.damper.calm

/-- FREQ_DEFERRED: a change of frequency waits for a quench (R386). -/
def Device.freqDeferred (d : Device) : Bool := d.wantSlow != d.damper.slow && !d.freqMay

/-- A flip from profile `old` to another: LEVEL is bounded by the new ladder, and applied to it; one that comes to its floor so
raises AT_FLOOR (R378, R387). -/
def Device.ladderFlip (d : Device) (old : Nat) : Device :=
  let m := levelMax d.profile.active
  let floor := decide (d.damper.level ≠ levelMax old ∧ m ≤ d.damper.level)
  let t := { d.damper with
    level := min d.damper.level m
    capD := min d.damper.capD m
    vrD := min d.damper.vrD m
    thermD := min d.damper.thermD m }
  let d := ({ d with damper := t }).ladderApply
  if floor then d.raise 0x40000 1 else d

-- Voltage (R375, R376) ---------------------------------------------------------------------------------------------

def Device.avsOn (d : Device) : Bool := d.flag A.DAMPER_AVS_CFG F.DAMPER_AVS_CFG_AVS_EN

/-- The target for a frequency: its fused point and MARGIN_MV, clipped to 620 to 800 mV. -/
def Device.avsTarget (d : Device) (slow : Bool) : Nat :=
  let v := (if slow then Config.avsFuse1g6 else Config.avsFuse2g0).toNat
  min 800 (max 620 (v + d.fld A.DAMPER_AVS_CFG F.DAMPER_AVS_CFG_MARGIN_MV))

/-- Write a target over AVSBus, while it is enabled and without error. -/
def Device.avsWrite (d : Device) (slow : Bool) : Device :=
  if !d.avsOn ∨ d.damper.avsErr then d
  else
    let v := d.avsTarget slow
    ({ d with damper := { d.damper with vTarget := v } }).send (.mgmt "AVS" v)

/-- AVS_ERR is set (R375). -/
def Device.avsFail (d : Device) : Device :=
  (({ d with damper := { d.damper with avsErr := true, upFrom := none, vLow := none } }).markSet A.DAMPER_AVS_STAT 30).raise 0x40000 6

/-- An up-step is called for, with AVSBus in use: the target for 2.000 GHz is written, and the readback is waited for (R376). -/
def Device.upStepWait (d : Device) : Device :=
  let d := d.avsWrite false
  { d with damper := { d.damper with upFrom := some d.elapsed, upOk := false } }

/-- The up-step that is called for at a boundary; none before step 5 of BOOT, which runs at 1.600 GHz (R376, R414). -/
def Device.upStepAsk (d : Device) : Device :=
  if d.wantSlow ∨ !d.damper.slow then { d with damper := { d.damper with upFrom := none } }
  else if d.damper.upFrom.isSome ∨ !d.avsOn ∨ d.damper.avsErr ∨ d.dev.state = .boot then d
  else d.upStepWait

/-- A limit of 200 µs that began at `o` has passed (R41). -/
def Device.past200 (d : Device) (o : Option Nat) : Bool := (o.map fun s => d.matured (s + usT 200)).getD false

/-- AVSBus at a boundary: a readback that has stayed more than 25 mV low for 200 µs, or an up-step whose target none has reached
in 200 µs, sets AVS_ERR (R375, R376). -/
def Device.avsLate (d : Device) : Device :=
  let t := d.damper
  if !d.avsOn ∨ t.avsErr then d
  else
    let reached := t.upOk || decide (t.vTarget ≤ t.vRead)
    if d.past200 t.vLow || (d.past200 t.upFrom && !reached) then d.avsFail
    else { d with damper := { t with upOk := reached } }

/-- AVS_READBACK: the rail's voltage in mV and current in A are read back, or the transaction is not acknowledged (R375). How
long a readback stays low, and how long an up-step waits, is tested at the boundaries. -/
def avsReadback (d : Device) (ack : Bool) (mv amps : Nat) : Device :=
  if !d.avsOn then d
  else if !ack then d.avsFail
  else
    let t := d.damper
    let low := mv + 25 < t.vTarget
    let from_ := if low then some (t.vLow.getD d.now) else none
    { d with damper := { t with vRead := mv % 1024, iRead := amps % 1024, vLow := from_ } }

/-- CORE_FREQ_DOWN: the core steps down at a boundary without a quench, and then the target is lowered (R376, R379). -/
def coreFreqDown (d : Device) : Device :=
  if d.stroke.cyc = 0 ∧ d.wantSlow ∧ !d.damper.slow ∧ d.freqMay then
    ({ d with damper := { d.damper with slow := true } }).avsWrite true
  else d

/-- CORE_FREQ_UP: the core steps up at a boundary, with AVSBus in use once the readback has reached the target (R376). BOOT runs
at 1.600 GHz up to its step 5 (R414). -/
def coreFreqUp (d : Device) : Device :=
  let ready := !d.avsOn || (d.damper.upFrom.isSome && decide (d.damper.vTarget ≤ d.damper.vRead))
  if d.dev.state ≠ .boot ∧ d.stroke.cyc = 0 ∧ !d.wantSlow ∧ d.damper.slow ∧ d.freqMay ∧ ready then
    { d with damper := { d.damper with slow := false, upFrom := none } }
  else d

-- Time of causes ---------------------------------------------------------------------------------------------------

/-- Time passes for cause `x`: DMP_TIME counts whole microseconds (R380). -/
def Device.causeTime (d : Device) (x t : Nat) : Device :=
  let sum := d.damper.spent.getD x 0 + t
  let d := { d with damper := { d.damper with spent := modifyAt d.damper.spent x fun _ => sum % usT 1 } }
  if sum / usT 1 = 0 then d else d.countN (A.DAMPER_DMP_TIME x) (sum / usT 1)

/-- A demand rises from 0: an episode of its cause (R380). -/
def Device.episode (d : Device) (x old new : Nat) : Device :=
  if old = 0 ∧ 0 < new then d.count (A.DAMPER_DMP_EVENTS x) else d

-- The boundary (R377 to R382) --------------------------------------------------------------------------------------

/-- The activity of the stroke just ended, by activity code, and the latest readback (R377). -/
def Device.activity (d : Device) : List Nat :=
  ((List.range 18).map fun a => ((d.budget.used.filter fun e => e.1 / 256 = a + 1).map (·.2)).sum) ++
    [d.damper.vRead, d.damper.iRead]

/-- The strokes that lie in the last 2 ms. -/
def trimWindow : Nat → List (Nat × Nat) → List (Nat × Nat)
  | _, [] => []
  | total, (t, w) :: rest => if msT 2 < total then trimWindow (total - t) rest else (t, w) :: rest

/-- Energy of a list of strokes, and its length. -/
def energy (l : List (Nat × Nat)) : Nat := (l.map fun (e : Nat × Nat) => e.1 * e.2).sum
def lengthOf (l : List (Nat × Nat)) : Nat := (l.map fun (e : Nat × Nat) => e.1).sum

/-- CAP_W, GUARD_W and HYST_W in force, in mW. -/
def Device.capMw (d : Device) : Nat := 1000 * min 960 (max 100 (d.fld A.DAMPER_CAP F.DAMPER_CAP_CAP_W))
def Device.guardMw (d : Device) : Nat := 1000 * d.fld A.DAMPER_CAP F.DAMPER_CAP_GUARD_W
def Device.hystMw (d : Device) : Nat := 1000 * d.fld A.DAMPER_RELEASE F.DAMPER_RELEASE_HYST_W

/-- The allowance A, multiplied by 2 ms so that it is exact (R380): `w` is the window, `t` the stroke's length. -/
def Device.allowance (d : Device) (w : List (Nat × Nat)) (t : Nat) : Int :=
  let nw := if d.damper.slow then 12500 else 15625
  let out := if msT 2 < lengthOf w + t then (w.head?.map fun (e : Nat × Nat) => e.2).getD 0 else 0
  Int.ofNat (out * msT 2) + ((Int.ofNat d.capMw - Int.ofNat d.guardMw) * Int.ofNat (msT 2) - Int.ofNat (energy w)) * nw

/-- DAMPER_UPDATE, at a boundary that ends a stroke of length `t`: the power of the stroke, the demands and LEVEL (R380,
R382). -/
def Device.damperBoundary (d : Device) (t : Nat) : Device :=
  let s := d.damper
  let act := d.activity
  let ps := (Config.strokePower act).toNat
  let w := trimWindow (lengthOf (s.window ++ [(t, ps)])) (s.window ++ [(t, ps)])
  let a := d.allowance w t
  let excess : Bool := decide (a < Int.ofNat (ps * msT 2))
  let low : Bool := decide (Int.ofNat (ps * msT 2) ≤ a - Int.ofNat (d.hystMw * msT 2))
  let lowFrom := if low then some (s.lowFrom.getD (d.elapsed - t)) else none
  let release := max 1 (d.fld A.DAMPER_RELEASE F.DAMPER_RELEASE_RELEASE_US)
  let held := (lowFrom.map fun f => decide (f + usT release ≤ d.elapsed)).getD false
  let m := levelMax d.profile.active
  let capD := if excess then min (s.capD + 1) m else if held then s.capD - 1 else s.capD
  let vrD := if s.vrLow ∨ s.vrSeen then m else s.vrD - 1
  let level := max capD (max vrD s.thermD)
  let unreach := decide (level = m) && excess
  let (pw, d) := d.roundDiv (Int.ofNat (energy w)) (1000 * msT 2)
  let d := if 0 < s.capD then d.causeTime 0 t else d
  let d := if 0 < s.vrD then d.causeTime 1 t else d
  let d := if 0 < s.thermD then d.causeTime 2 t else d
  let d := if s.unreachable then d.causeTime 3 t else d
  let d := if s.quench then d.causeTime 4 (d.elapsed - s.quenchFrom) else d
  let d := (d.episode 0 s.capD capD).episode 1 s.vrD vrD
  let d := if s.level = 0 ∧ 0 < level then d.raise 0x40000 0 else d
  let d := if s.level ≠ m ∧ level = m then d.raise 0x40000 1 else d
  let d := if !s.unreachable && unreach then d.raise 0x40000 2 else d
  let d := { d with damper := { d.damper with
      window := w
      lowFrom := lowFrom
      capD := capD
      vrD := vrD
      vrSeen := false
      level := level
      unreachable := unreach
      windowW := pw.toNat
      peakW := max d.damper.peakW pw.toNat
      floorW := (Config.floorPower act).toNat
      quenchFrom := d.elapsed
      calm := !s.quenched
      quenched := s.quench
      paced := s.paced && d.flag A.DAMPER_CAP F.DAMPER_CAP_ADMIT_PACING && decide (d.elapsed < s.paceUntil) } }
  d.ladderApply.upStepAsk

-- Regulator, temperature and pacing --------------------------------------------------------------------------------

/-- VR_THROTTLE_ASSERT: the regulator has held VR_THROTTLE_N low for 100 ns; the next boundary sees it, whatever follows in the
stroke (R380). -/
def vrThrottleAssert (d : Device) : Device :=
  if d.damper.vrLow then d else ({ d with damper := { d.damper with vrLow := true, vrSeen := true } }).raise 0x40000 3

/-- VR_THROTTLE_RELEASE: VR_THROTTLE_N rises; its demand falls by 1 at each boundary (R380). -/
def vrThrottleRelease (d : Device) : Device := { d with damper := { d.damper with vrLow := false } }

/-- THERMAL_SENSOR_READ: the readings of the 84 sensors in °C; the hottest is kept, with the lowest index that has it
(R384). -/
def thermalSensorRead (d : Device) (temps : List Nat) : Device :=
  let hot := temps.foldl max 0
  let ix := (temps.findIdx? fun t => t = hot).getD 0
  { d with damper := { d.damper with
      tj := hot % 256
      tjPeak := max d.damper.tjPeak (hot % 256)
      sensor := ix % 128 } }

/-- THROTTLE_C in force: 85 to 105 °C. -/
def Device.throttleC (d : Device) : Nat :=
  min 105 (max 85 (d.fld A.DAMPER_THERM_CFG F.DAMPER_THERM_CFG_THROTTLE_C))

/-- THERMAL_DEMAND_STEP: once every 1 ms the THERMAL demand follows the hottest sensor (R380). -/
def thermalDemandStep (d : Device) : Device :=
  let s := d.damper
  if !d.matured s.thermNext then d
  else
    let m := levelMax d.profile.active
    let c := d.throttleC
    let h := d.fld A.DAMPER_THERM_CFG F.DAMPER_THERM_CFG_HYST_C
    let t := if c ≤ s.tj then min (s.thermD + 1) m else if s.tj + h ≤ c then s.thermD - 1 else s.thermD
    let d := d.episode 2 s.thermD t
    let d := if s.thermD = 0 ∧ 0 < t then d.raise 0x40000 4 else d
    { d with damper := { d.damper with thermD := t, thermNext := d.elapsed + msT 1 } }

/-- ADMIT_PACING in force. -/
def Device.pacing (d : Device) : Bool := d.flag A.DAMPER_CAP F.DAMPER_CAP_ADMIT_PACING

/-- PACE_LEVEL_STEP: once every 1 ms PACE_LEVEL rises while the cap cannot be reached, and falls while power is low
(R383). -/
def paceLevelStep (d : Device) : Device :=
  let s := d.damper
  if !d.pacing ∨ !d.matured s.paceNext then d
  else
    let k := if s.unreachable then min (s.paceLevel + 1) 15 else if s.lowFrom.isSome then s.paceLevel - 1 else s.paceLevel
    { d with damper := { s with paceLevel := k, paceNext := d.elapsed + msT 1 } }

/-- PACING_PERIOD: a period of 32 µs of the device clock begins, and lossless classes are at XOFF for its first k × 2 µs
(R383). -/
def pacingPeriod (d : Device) : Device :=
  let n := d.clockNow / usT 32
  if !d.pacing ∨ d.damper.pacePeriod = some n then d
  else { d with damper := { d.damper with
      pacePeriod := some n
      paced := decide (0 < d.damper.paceLevel)
      paceUntil := d.now + usT (2 * d.damper.paceLevel) } }

/-- DROOP_MV in force: 20 to 80 mV (R385, R387). -/
def Device.droopMv (d : Device) : Nat :=
  min 80 (max 20 (d.fld A.DAMPER_QUENCH_CFG F.DAMPER_QUENCH_CFG_DROOP_MV))

/-- HOLD_CYC in force (R385, R387). -/
def Device.holdCyc (d : Device) : Nat := max 1 (d.fld A.DAMPER_QUENCH_CFG F.DAMPER_QUENCH_CFG_HOLD_CYC)

/-- QUENCH_START: VDD_CORE has drooped; by more than DROOP_MV, every core cycle is lengthened (R385). -/
def quenchStart (d : Device) (x : Droop) : Device :=
  let d := d.atCyc x.cyc
  if d.damper.quench ∨ x.mv ≤ d.droopMv then d
  else
    let t := { d.damper with quench := true, quenched := true, quenchFrom := d.now, quenchCyc := d.absCyc }
    ({ d with damper := t }).raise 0x40000 5

/-- QUENCH_RELEASE, in cycle `c`: the voltage has held for HOLD_CYC cycles, which no quench that is shorter has had (R385). -/
def quenchRelease (d : Device) (c : Nat) : Device :=
  let d := d.atCyc c
  if !d.damper.quench ∨ d.absCyc < d.damper.quenchCyc + d.holdCyc then d
  else
    let d := d.causeTime 4 (d.now - d.damper.quenchFrom)
    { d with damper := { d.damper with quench := false } }

end Sys2Proof.Machine
end

