-- ==== Sys2Proof/Machine/Telem.lean ====
section
/-! DEFINITION. Telemetry: record layouts, the sweep, the packers and the datagrams of Omlirel Records (R281 to R284, R289
to R293). -/

namespace Sys2Proof.Machine

-- Records (R281, R285) ---------------------------------------------------------------------------------------------

/-- Seconds [9:0] and nanoseconds [29:0] of a clock reading, as five bytes. -/
def shortTime (t : Nat) : Bytes := beBytes 5 (clkSec t % 1024 * 2 ^ 30 + clkNs t)

/-- Bytes 16 to 63 of a record with the given STATE. -/
def FlowRec.tail (r : FlowRec) (st : Nat) : Bytes :=
  beBytes 2 (r.inPort % 1024 + r.iclass % 16 * 1024 + st * 16384) ++
    beBytes 2 (r.egPort % 1024 + r.queue % 16 * 1024 + b2n r.multiEg * 16384 + b2n r.sat * 32768) ++
    beBytes 5 r.pkts ++ beBytes 6 r.octets ++
    (match r.first with
     | some t => shortTime t ++ shortTime r.last
     | none => zeroBytes 10) ++
    (r.hist.flatMap fun h => beBytes 2 h) ++ beBytes 2 r.latMax ++ beBytes 2 r.qpeak ++ beBytes 2 r.drops ++
    beBytes 1 r.lastDrop

/-- A flow record as exported. -/
def FlowRec.bytes (r : FlowRec) (st : Nat) : Bytes := beBytes 16 r.key ++ r.tail st

/-- An overflow bucket as exported. -/
def OverflowRec.bytes (o : OverflowRec) : Bytes := (o.counts.flatMap fun c => beBytes 4 c) ++ o.body.tail o.body.st

/-- The interval fields restart, and a new record becomes live (R281, R283). -/
def FlowRec.restart (r : FlowRec) : FlowRec :=
  { r with st := 1, first := none, multiEg := false, sat := false, hasEg := false, hist := [0, 0, 0, 0, 0, 0, 0, 0],
           latMax := 0, qpeak := 0, drops := 0, lastDrop := 0 }

-- Packing (R290 to R292) -------------------------------------------------------------------------------------------

/-- Record types: their TYPE_MASK bit, and size in bytes (R290). -/
def rtypeBit (t : Nat) : Nat := if t < 16 then t - 1 else t - 12
def rtypeSize (t : Nat) : Nat := if t = 0x10 then 32 else if t = 0x12 then 16 else 64
/-- Units of the staging budget that one record takes. -/
def rtypeUnits (t : Nat) : Nat := ceilDiv (rtypeSize t) 64

/-- A field of a collector's C_CFG. -/
def Device.collFld (d : Device) (k : Nat) (f : Fld) : Nat := d.fld (A.TELEM_C_CFG k) f
def Device.maxRecs (d : Device) (k : Nat) : Nat := max 1 (d.collFld k F.TELEM_C_CFG_MAX_RECS)

/-- The collectors that take a type: enabled, with the type's bit in their mask. -/
def Device.takers (d : Device) (t : Nat) : List Nat :=
  (List.range 16).filter fun k => d.collFld k F.TELEM_C_CFG_EN == 1 && bit (d.collFld k F.TELEM_C_CFG_TYPE_MASK) (rtypeBit t)

/-- The open datagrams of a packer, collector and type, oldest first; those but the last are full. -/
def Device.openDgrams (d : Device) (j k t : Nat) : List Datagram :=
  d.telem.open_.filter fun g => g.packer = j ∧ g.coll = k ∧ g.rtype = t

/-- The datagram that takes the next record: the last one, unless it is full. -/
def Device.openDgram (d : Device) (j k t : Nat) : Option Datagram :=
  ((d.openDgrams j k t).getLast?).filter fun g => decide (g.records.length < d.maxRecs k)

/-- No taker waits for a full datagram to close. -/
def Device.packRoom (d : Device) (j t : Nat) : Bool :=
  (d.takers t).all fun k => (d.openDgrams j k t).all fun g => decide (g.records.length < d.maxRecs k)

/-- Units of staging budget that packing one record takes, over its collectors. -/
def Device.packCost (d : Device) (t : Nat) : Nat := (d.takers t).length * rtypeUnits t

/-- Write a record into the datagram of each collector that takes it, opening those that are not open; one that no collector
takes is counted (R291, R292). -/
def Device.packRecord (d : Device) (j t : Nat) (bs : Bytes) : Device :=
  if (d.takers t).isEmpty then d.count (telCnt 7)
  else (d.takers t).foldl (fun d k =>
    match d.openDgram j k t with
    | some g =>
      let l := d.telem.open_.map fun h => if h = g then { g with records := g.records ++ [bs] } else h
      { d with telem := { d.telem with open_ := l } }
    | none =>
      let key := (d.keyAt (devSlot 1) d.absCyc).map fun (m : KeyMat) => m.key
      let id := d.telem.nextDgram
      let g : Datagram := { id := id, packer := j, coll := k, rtype := t, records := [bs], since := d.now, key := key }
      let d := { d with telem := { d.telem with open_ := d.telem.open_ ++ [g], nextDgram := id + 1 } }
      let tpl := min 128 (d.fld (A.TELEM_C_TPL k) F.TELEM_C_TPL_LEN)
      d.askBillet 99 (tpl + 32 + d.maxRecs k * rtypeSize t + 16 * d.collFld k F.TELEM_C_CFG_TAG_EN) id) d

/-- The type of a waiting drop record. -/
def DropRec.rtype (r : DropRec) : Nat := if r.bytes.length = 64 then 0x11 else if r.bytes.length = 32 then 0x10 else 0x12

/-- The packers take waiting drop records, oldest first, while the staging budget lasts (R292). -/
def Device.packDrops (d : Device) : List DropRec → Device
  | [] => d
  | r :: rest =>
    let t := r.rtype
    let j := r.gal / 8
    let keep (d : Device) : Device := { d with drops := { d.drops with records := d.drops.records ++ [r] } }
    if !d.seqOn (4 + j) ∨ !d.packRoom j t then (keep d).packDrops rest
    else if !d.canAdmit 0x0B 0 (d.packCost t) 1 d.stroke.cyc (256 * j + t) then ((keep d).mustWait 0x0B 0 (256 * j + t) (d.packCost t)).packDrops rest
    else (((d.spend 0x0B 0 (d.packCost t) (256 * j + t)).lhMoved (d.packCost t) none).packRecord j t r.bytes).packDrops rest

/-- The packers take the records of a table left by a flip; at the last one its billets are freed (R284). -/
def Device.packOld (d : Device) : List (Nat × FlowRec) → Device
  | [] => d
  | (j, r) :: rest =>
    let keep (d : Device) : Device := { d with telem := { d.telem with old := d.telem.old ++ [(j, r)] } }
    if !d.seqOn (4 + j) ∨ !d.packRoom j 3 ∨ !d.canAdmit 0x0B 0 (d.packCost 3) 1 d.stroke.cyc (256 * j + 3) then (keep d).packOld rest
    else (((d.spend 0x0B 0 (d.packCost 3) (256 * j + 3)).lhMoved (d.packCost 3) none).packRecord j 3 (r.bytes 2)).packOld rest

-- The table's storage (R280, R284) ---------------------------------------------------------------------------------

/-- The billets of the table that a flip has left are freed (R284). -/
def Device.flowBilletsFree (d : Device) : Device :=
  let mine := d.telem.oldBillets
  mine.foldl (fun d ptr => d.freeBillet 96 ptr) { d with telem := { d.telem with oldBillets := [] } }

/-- Ask for the billets of the active profile's flow table, where it lives in the Lower Hall (R280). -/
def Device.flowBilletsTake (d : Device) : Device :=
  if d.telem.granted ∨ flowOnDie d.profile.active ∨ d.billet.jobs.any fun j => j.req = 96 then d
  else d.bulkAsk 96 0 (flowBuckets d.profile.active)

/-- A flip changes S: missed updates are made, every record of the old table is closed, and the new table starts empty
(R284, R295). -/
def Device.flowResize (d : Device) (old new : Nat) : Device :=
  if profFlows old = profFlows new then d
  else
    let d := d.telem.misses.foldl (fun d (m : Nat × FlowUpd) => d.bucketUpd m.1 m.2) d
    let recs := d.telem.buckets.flatMap fun (b : Nat × List FlowRec) => b.2.map fun r => (b.1 % 4, r)
    let d := d.countN (telCnt 2) recs.length
    let t := { d.telem with
      old := d.telem.old ++ recs
      buckets := []
      live := 0
      cache := []
      misses := []
      sweep := 0
      sweepFrom := d.elapsed
      resizing := true
      oldBillets := d.telem.oldBillets ++ (d.billetsOf 96).filter fun ptr =>
        !d.telem.oldBillets.contains ptr && !d.billet.freeing.contains (96, ptr)
      granted := false }
    let b := { d.billet with jobs := d.billet.jobs.filter fun j => j.req ≠ 96 }
    ({ d with telem := t, billet := b }).flowBilletsTake

/-- Places of a sweep: every bucket, and then every port's overflow bucket. -/
def Device.sweepPlaces (d : Device) : Nat := flowBuckets d.profile.active + 1024

/-- The telemetry packers at a boundary. -/
def Device.telemBoundary (d : Device) : Device :=
  let d := if d.telem.flushAsk then { d with telem := { d.telem with flushLeft := d.sweepPlaces, flushAsk := false } } else d
  -- a collector that is no longer in use discards its open datagrams (R295)
  let gone := d.telem.open_.filter fun g => d.collFld g.coll F.TELEM_C_CFG_EN == 0
  let d := gone.foldl (fun d g =>
    ((d.countN (telCnt 7) g.records.length).dropAsks 99 fun tag => tag = g.id)) d
  let d := { d with telem := { d.telem with open_ := d.telem.open_.filter fun g => !gone.contains g } }
  let recs := d.drops.records
  let d := ({ d with drops := { d.drops with records := [] } }).packDrops recs
  let old := d.telem.old
  let d := ({ d with telem := { d.telem with old := [] } }).packOld old
  let d := if d.telem.resizing && d.telem.old.isEmpty then d.flowBilletsFree else d
  let d := if d.telem.resizing && d.telem.old.isEmpty && !(d.billet.freeing.any fun f => f.1 = 96) then
      ({ d with telem := { d.telem with resizing := false } }).raise 0xD0000 2
    else d
  if d.running then d.flowBilletsTake else d

-- The sweep (R283, R285) -------------------------------------------------------------------------------------------

/-- A seconds field in force; 0 is treated as 1. -/
def Device.fsSecs (d : Device) (f : Fld) : Nat := max 1 (d.fld A.TELEM_FS_CFG f)

/-- The next place's turn has come: the places are paced evenly over EXPORT_S. -/
def Device.visitDue (d : Device) : Bool :=
  let period := secT (d.fsSecs F.TELEM_FS_CFG_EXPORT_S)
  decide (d.telem.sweep * period ≤ (d.now - d.telem.sweepFrom) * d.sweepPlaces)

/-- The sweep goes on to its next place; after the last one the next sweep begins. -/
def Device.sweepOn (d : Device) : Device :=
  let t := d.telem
  let t := { t with flushLeft := t.flushLeft - 1 }
  if t.sweep + 1 < d.sweepPlaces then { d with telem := { t with sweep := t.sweep + 1 } }
  else { d with telem := { t with sweep := 0, sweepFrom := t.sweepFrom + secT (d.fsSecs F.TELEM_FS_CFG_EXPORT_S) } }

/-- The sweep closes a record: it has been idle for more than IDLE_S, or a flush is on (R283). -/
def Device.closes (d : Device) (r : FlowRec) : Bool :=
  decide (0 < d.telem.flushLeft) || decide (r.last + secT (d.fsSecs F.TELEM_FS_CFG_IDLE_S) < d.clockNow)

/-- Export the records of a bucket: idle ones are freed, the others begin a new interval. -/
def Device.visitBucket (d : Device) (b : Nat) : Device :=
  let dflt := fun _ => ([] : List FlowRec)
  let rs := if d.seqOn (4 + b % 4) then tabGet dflt d.telem.buckets b else []
  let d := rs.foldl (fun d r =>
    if d.closes r then ((d.packRecord (b % 4) 2 (r.bytes 2)).count (telCnt 1))
    else d.packRecord (b % 4) 1 (r.bytes r.st)) d
  let left := (rs.filter fun r => !d.closes r).map FlowRec.restart
  { d with telem := { d.telem with
      buckets := if rs.isEmpty then d.telem.buckets else tabSet dflt d.telem.buckets b left
      live := d.telem.live - (rs.length - left.length) } }

/-- FLOW_SWEEP_VISIT: the sweep visits its next place when its turn has come, under the flow-state and staging budgets
(R283, R285, R292). Where the place's sequencer is not running its records wait in their table (R324). -/
def flowSweepVisit (d : Device) : Device :=
  let b := d.telem.sweep
  let n := flowBuckets d.profile.active
  if !d.visitDue then d
  else if b < n then
    let rs := if d.seqOn (4 + b % 4) then tabGet (fun _ => ([] : List FlowRec)) d.telem.buckets b else []
    let fetch := if flowOnDie d.profile.active ∨ (d.cacheSet b).any (fun e => e.1 = b) then 0 else 4
    let cost := (rs.map fun r => d.packCost (if d.closes r then 2 else 1)).sum
    if !(rs.isEmpty ∨ (d.packRoom (b % 4) 1 && d.packRoom (b % 4) 2)) then d
    else if !d.canAdmit 0x08 0 fetch 1 d.stroke.cyc (1000000 + b) then d.mustWait 0x08 0 (1000000 + b) fetch
    else if !d.canAdmit 0x0B 0 cost 1 d.stroke.cyc (1000000 + b) then d.mustWait 0x0B 0 (1000000 + b) cost
    else
      let d := (d.spend 0x08 0 fetch (1000000 + b)).spend 0x0B 0 cost (1000000 + b)
      (((d.lhMoved fetch none).lhMoved cost none).visitBucket b).sweepOn
  else
    let p := b - n
    let j := p / 256
    if !d.portEn p ∨ !d.seqOn (4 + j) then d.sweepOn
    else if !d.packRoom j 4 then d
    else if !d.canAdmit 0x0B 0 (d.packCost 4) 1 d.stroke.cyc (1000000 + b) then d.mustWait 0x0B 0 (1000000 + b) (d.packCost 4)
    else
      let o := tabGet (fun _ => ({} : OverflowRec)) d.telem.overflow p
      let o := { o with body := { o.body with inPort := p } }
      let d := ((d.spend 0x0B 0 (d.packCost 4) (1000000 + b)).lhMoved (d.packCost 4) none).packRecord j 4 o.bytes
      let o := { o with body := o.body.restart }
      ({ d with telem := { d.telem with
          overflow := tabSet (fun _ => ({} : OverflowRec)) d.telem.overflow p o } }).sweepOn

/-- FLOW_FLUSH: a write of FS_CFG.FLUSH closes every live record as the sweep comes to it, from the next boundary (R283, R294). -/
def Device.flowFlushAsk (d : Device) : Device := { d with telem := { d.telem with flushAsk := true } }

-- Datagrams (R290 to R293) -----------------------------------------------------------------------------------------

/-- The bytes of a collector's template (R294). -/
def Device.collTpl (d : Device) (k : Nat) : Bytes :=
  let len := min 128 (d.fld (A.TELEM_C_TPL k) F.TELEM_C_TPL_LEN)
  ((List.range 32).flatMap fun w => beBytes 4 (d.cfg (A.TELEM_C_TPL_BYTES k w)).toNat).take len

/-- SWITCH_ID (R276). -/
def Device.switchId (d : Device) : Nat := F.TIME_LEDGER_ID_SWITCH_ID.get (d.reg A.TIME_LEDGER_ID)

/-- Header, records and tag of a closed datagram (R290, R291). -/
def Device.dgramBody (d : Device) (g : Datagram) : Bytes :=
  let t := d.clockNow
  let seq := d.pair (A.TELEM_C_SEQ_LO g.coll) (A.TELEM_C_SEQ_HI g.coll)
  let tagged := d.collFld g.coll F.TELEM_C_CFG_TAG_EN == 1
  let hdr := beBytes 1 1 ++ beBytes 1 g.rtype ++ beBytes 2 g.records.length ++ beBytes 2 d.switchId ++
    beBytes 1 g.coll ++ beBytes 1 (b2n (tagged && g.key.isSome)) ++ beBytes 8 seq ++ beBytes 6 (clkSec t) ++
    beBytes 4 (clkNs t) ++ beBytes 4 d.gen.active.toNat ++ beBytes 1 d.profile.active ++ zeroBytes 1
  let body := hdr ++ g.records.flatten
  if !tagged then body
  else match g.key with
    | some key => body ++ gmac key ((d.switchId * 65536 + (0x4F50 + g.coll)) * 2 ^ 64 + seq) body
    | none => body ++ zeroBytes 16

/-- A datagram closes: it has MAX_RECS records, or FLUSH_US has passed since its first (R292). -/
def Device.dgramDue (d : Device) (g : Datagram) : Bool :=
  decide (d.maxRecs g.coll ≤ g.records.length) ||
    d.matured (g.since + usT (max 1 (d.fld (A.TELEM_C_FLUSH g.coll) F.TELEM_C_FLUSH_FLUSH_US)))

/-- Inject a closed datagram into its collector's gallery (R293); a fenced gallery takes none, and it is dropped. -/
def Device.dgramSend (d : Device) (g : Datagram) : Device :=
  let k := g.coll
  let n := d.collFld k F.TELEM_C_CFG_INJ_GAL
  let cfg := d.cfg (A.TELEM_C_TPL k)
  let body := d.dgramBody g
  let hdr := fillUdp (F.TELEM_C_TPL_V6.get cfg = 1) (F.TELEM_C_TPL_IP_OFS.get cfg) (F.TELEM_C_TPL_UDP_OFS.get cfg)
    (d.collTpl k) body.length
  let seq := (d.pair (A.TELEM_C_SEQ_LO k) (A.TELEM_C_SEQ_HI k) + 1) % 2 ^ 64
  let d := (d.setCfg (A.TELEM_C_SEQ_LO k) (BitVec.ofNat 32 seq)).setCfg (A.TELEM_C_SEQ_HI k) (BitVec.ofNat 32 (seq / 2 ^ 32))
  if d.isFenced n then (d.count A.TOP_DROP_FENCED_LO).count (A.TELEM_C_DROPPED_LO k)
  else
    let (p, d) := d.free 5
    let f := d.newFrame n (32 * n + p) 4 (d.collFld k F.TELEM_C_CFG_ICLASS) true (hdr ++ body)
    (d.injectFrame { f with coll := some k } (.telem k)).count (A.TELEM_C_SENT_LO k)

/-- DATAGRAM_CLOSE: the oldest open datagram of packer `j`, collector `k` and type `t` closes; with its billet granted it is read out
under the staging budget and injected (R292, R293). -/
def datagramClose (d : Device) (j k t : Nat) : Device :=
  match (d.openDgrams j k t).head? with
  | none => d
  | some g =>
    let tag := g.id
    match d.grantedFor 99 tag with
    | none => d
    | some ptr =>
      let units := g.records.length * rtypeUnits t
      if !d.dgramDue g ∨ !d.seqOn (4 + j) then d
      else if !d.canAdmit 0x0B 0 units 1 d.stroke.cyc (2000000 + tag) then d.mustWait 0x0B 0 (2000000 + tag) units
      else
        let d := ((d.spend 0x0B 0 units (2000000 + tag)).lhMoved units (some (lhAttr ptr))).takeGrant 99 tag
        let d := { d with telem := { d.telem with open_ := d.telem.open_.filter fun h => h ≠ g } }
        (d.freeBillet 99 ptr).dgramSend g

end Sys2Proof.Machine
end

