-- ==== Sys2Proof/Machine/Time.lean ====
section
/-! DEFINITION. Time: the device clock and its steps, the servo, boundary-clock messages, pulses, triggers, captures and
the time ledger (R254 to R257, R264 to R276). -/

namespace Sys2Proof.Machine

-- The time ledger (R273 to R275) -----------------------------------------------------------------------------------

/-- A field of SERVO_CTRL and of the servo's other registers, whose writes apply from the next sample (R268). -/
def Device.srvCtl (d : Device) (f : Fld) : Nat := f.get (d.reg A.TIME_SERVO_CTRL)

/-- A host write of the ledger; one that cannot be issued counts in EXPORT_ERR (R275). -/
def Device.ledgerWrite (d : Device) (a : Nat) (bs : Bytes) : Device :=
  match d.postWrite 0 a bs with
  | some d => d.event none 0x8005 bs.length none { fn := some 0 }
  | none => d.countSat A.TIME_EXPORT_ERR F.TIME_EXPORT_ERR_COUNT

/-- The ring's record of number `seq`; none once it is overwritten, or before it is made. -/
def Device.ledgerAt (d : Device) (seq : Nat) : Option Bytes :=
  let r := tabGet (fun _ => ([] : Bytes)) d.ledger.ring (seq % 2 ^ 20)
  if r.length = 64 ∧ beAt r 0 8 = seq then some r else none

/-- LEDGER_EXPORT: a record is written to host memory under the host DMA budget, in its turn (R275). -/
def Device.ledgerExport : Device → List (Nat × Nat) → Device
  | d, [] => { d with ledger := { d.ledger with exports := [] } }
  | d, (seq, cls) :: t =>
    if d.canAdmit 0x0E cls 64 1 d.stroke.cyc (3000000 + seq) then
      let d := d.spend 0x0E cls 64 (3000000 + seq)
      let a := d.pair A.TIME_LEDGER_EXP_ADDR_LO A.TIME_LEDGER_EXP_ADDR_HI +
        64 * (seq % 2 ^ (d.fld A.TIME_LEDGER_CTRL F.TIME_LEDGER_CTRL_EXP_LOG2 + 8))
      (d.ledgerWrite a ((d.ledgerAt seq).getD (zeroBytes 64))).ledgerExport t
    else
      let d := d.mustWait 0x0E cls (3000000 + seq) 64
      { d with ledger := { d.ledger with exports := (seq, cls) :: t } }

/-- The 64 bytes of a record (R273): its number, the time, and whether it has a tag. -/
def Device.ledgerBytes (d : Device) (seq sec ns : Nat) (key : Option KeyMat) : Bytes :=
  let s := d.servo
  let body := beBytes 8 seq ++ beBytes 6 sec ++ beBytes 4 ns ++
    beBytes 1 (s.state.code + 4 * b2n d.ledger.stepped + 8 * b2n key.isSome + 16 * b2n d.clock.srcExt) ++
    beBytes 1 (d.srvCtl F.TIME_SERVO_CTRL_SRC_KIND) ++ beBytes 8 (unsignedOf s.offset 64) ++
    beBytes 5 (unsignedOf d.clock.rate 40) ++ beBytes 1 0 ++ beBytes 2 (d.srvCtl F.TIME_SERVO_CTRL_SRC_PORT) ++
    beBytes 8 (d.pair A.TIME_SRC_ID_LO A.TIME_SRC_ID_HI) ++
    beBytes 2 (d.fld A.TIME_SRC_PNUM F.TIME_SRC_PNUM_PNUM) ++ beBytes 2 d.switchId
  match key with
  | none => body ++ zeroBytes 16
  | some k => body ++ gmac k.key (d.switchId * 2 ^ 80 + 0x4C47 * 2 ^ 64 + seq) body

/-- A second has passed without a record. -/
def Device.ledgerLost (d : Device) : Device := d.countSat A.TIME_LEDGER_LOST F.TIME_LEDGER_LOST_COUNT

/-- Where in the Lower Hall the ring holds a record, in 64 KiB units (R274). -/
def Device.ledgerAttr (d : Device) (seq : Nat) : Option Nat :=
  (d.billetsOf 98)[seq % 2 ^ 20 / 256]?.map lhAttr

/-- A record is written at its ring index, and goes out where EXPORT_EN is set (R274, R275). -/
def Device.ledgerStore (d : Device) (seq : Nat) (bs : Bytes) : Device :=
  let d := { d with ledger := { d.ledger with
    ring := tabSet (fun _ => ([] : Bytes)) d.ledger.ring (seq % 2 ^ 20) bs
    wrote := some (d.absCyc, seq % 2 ^ 20) } }
  if d.fld A.TIME_LEDGER_CTRL F.TIME_LEDGER_CTRL_EXPORT_EN = 1 then
    let (cls, d) := d.free 3
    d.ledgerExport (d.ledger.exports.filter (fun e => e.1 ≠ seq) ++ [(seq, cls)])
  else d

/-- A record, one unit of the time-ledger budget, is written and counted, or waits for that budget (R38, R274). -/
def Device.ledgerPut (d : Device) (seq : Nat) (bs : Bytes) : Device :=
  if d.canAdmit 0x0A 0 1 1 d.stroke.cyc seq then
    (((d.spend 0x0A 0 1 seq).ledgerStore seq bs).event none 0x8003 1 (d.ledgerAttr seq) {}).raise 0x30000 7
  else
    { d.mustWait 0x0A 0 seq 1 with ledger := { d.ledger with waits := d.ledger.waits ++ [(seq, bs)] } }

/-- Every gallery is FENCED: none is left to compute a tag (R249). -/
def Device.allFenced (d : Device) : Bool := d.dev.fenced == 0xFFFFFFFF#32

/-- The bytes of record `seq` at the present tick, tagged under D0 where a gallery is left to compute it (R249). -/
def Device.ledgerForm (d : Device) (seq sec ns : Nat) : Bytes :=
  d.ledgerBytes seq sec ns (if d.allFenced then none else (d.keySlot (devSlot 0)).mat)

/-- One record at the present tick (R273, R274): where the ledger is enabled, its storage granted and sequencer 15 serving. -/
def Device.ledgerMake (d : Device) (sec ns : Nat) : Device :=
  if d.fld A.TIME_LEDGER_CTRL F.TIME_LEDGER_CTRL_EN = 0 then d
  else if !d.ledger.granted ∨ !d.seqOn 15 then d.ledgerLost
  else
    let seq := d.ledger.seq
    let bs := d.ledgerForm seq sec ns
    let d := if d.allFenced then d.countSat A.TIME_LEDGER_UNTAGGED F.TIME_LEDGER_UNTAGGED_COUNT else d
    ({ d with ledger := { d.ledger with
      seq := (seq + 1) % 2 ^ 64
      stepped := false
      madeAt := some d.absCyc } }).ledgerPut seq bs

/-- The record made earlier in the tick of a step stands as it is after the step: a second carry and a step in one tick make one
record (R276). -/
def Device.ledgerAgain (d : Device) (sec ns : Nat) : Device :=
  let seq := (d.ledger.seq + (2 ^ 64 - 1)) % 2 ^ 64
  let bs := d.ledgerForm seq sec ns
  let d := { d with ledger := { d.ledger with stepped := false } }
  if d.ledger.waits.any fun e => e.1 = seq then
    { d with ledger := { d.ledger with waits := d.ledger.waits.map fun e => if e.1 = seq then (seq, bs) else e } }
  else d.ledgerStore seq bs

/-- LEDGER_RECORD: the device clock's nanoseconds have carried into its seconds (R273). -/
def ledgerRecord (d : Device) (cyc : Nat) : Device :=
  let d := d.atCyc cyc
  let sec := clkSec d.clockNow
  if sec = d.ledger.lastSec then d
  else
    let d := d.ledgerMake sec 0
    { d with ledger := { d.ledger with lastSec := sec } }

/-- LEDGER_COPY: LEDGER_CTRL is written. COPY starts a copy of COPY_COUNT records, and is ignored while one is in progress
(R275). -/
def ledgerCtrlWrite (d : Device) (src : Source) (w : Word) : Device :=
  let f := F.TIME_LEDGER_CTRL_COPY
  let keep := f.put (F.TIME_LEDGER_CTRL_COPY_BUSY.put (w &&& 0x7F#32) 0) 0
  let d := d.setReg A.TIME_LEDGER_CTRL keep
  if f.get w = 0 then d
  else if d.ledger.copyBusy then d.refuse src A.TIME_LEDGER_CTRL
  else
    let (cls, d) := d.free 3
    { d with ledger := { d.ledger with
      copyBusy := true
      copied := 0
      copyClass := cls
      copyFrom := d.pair A.TIME_COPY_FROM_LO A.TIME_COPY_FROM_HI
      copyCount := d.fld A.TIME_COPY_COUNT F.TIME_COPY_COUNT_COUNT
      copyAddr := d.pair A.TIME_COPY_ADDR_LO A.TIME_COPY_ADDR_HI } }

/-- What a copy of record `seq` writes: its bytes, or zeros where the ring no longer holds it; a ring index that is written in the
cycle it is read gives the record as it stands after the write (R275, R276). -/
def Device.copyOf (d : Device) (seq : Nat) : Bytes :=
  if d.ledger.wrote = some (d.absCyc, seq % 2 ^ 20) then tabGet (fun _ => ([] : Bytes)) d.ledger.ring (seq % 2 ^ 20)
  else (d.ledgerAt seq).getD (zeroBytes 64)

/-- Copy up to `n` more records (R275). -/
def Device.copyRecords (d : Device) : Nat → Device
  | 0 => d
  | n + 1 =>
    let l := d.ledger
    let d := d.spend 0x0E l.copyClass 64 4000000
    let d := d.ledgerWrite (l.copyAddr + 64 * l.copied) (d.copyOf (l.copyFrom + l.copied))
    ({ d with ledger := { d.ledger with copied := l.copied + 1 } }).copyRecords n

/-- LEDGER_COPY_DONE: the copy in progress goes on under the host DMA budget, and ends with its last record (R275). -/
def ledgerCopyDone (d : Device) : Device :=
  if !d.ledger.copyBusy then d
  else
    let left := d.ledger.copyCount - d.ledger.copied
    let d := d.copyRecords (min left (d.budgetFor 0x0E d.ledger.copyClass 4000000 / 64))
    if d.ledger.copied < d.ledger.copyCount then d.mustWait 0x0E d.ledger.copyClass 4000000 64
    else ({ d with ledger := { d.ledger with copyBusy := false } }).raise 0x30000 9

/-- Records and exports that wait go first after a boundary (R38). -/
def Device.ledgerBoundary (d : Device) : Device :=
  let d := d.ledger.waits.foldl (fun d e => d.ledgerPut e.1 e.2) { d with ledger := { d.ledger with waits := [] } }
  d.ledgerExport d.ledger.exports

-- The device clock (R255 to R257) ----------------------------------------------------------------------------------

/-- The rate changes now: the time before this cycle was counted at the old one. -/
def Device.clockRate (d : Device) (r : Int) : Device :=
  let was := d.clockGain d.inStroke
  let d1 : Device := { d with clock := { d.clock with rate := r } }
  let is_ := d1.clockGain d.inStroke
  { d1 with clock := { d1.clock with
      clk := (d1.clock.clk + clockWrap + was - is_) % clockWrap
      stepFree := d1.clock.stepFree + was - is_ } }

/-- A RATE as the register holds it: 40 bits, sign in the top. A value beyond the range is a free one. -/
def Device.rateFrom (d : Device) (r : Int) : Int × Device :=
  if -(2 ^ 39) ≤ r ∧ r < 2 ^ 39 then (r, d)
  else let (n, d) := d.free 40; (signed n 40, d)

/-- RATE is committed: used while the servo is disabled (R257, R276). -/
def Device.rateCommit (d : Device) (lo hi : Nat) : Device :=
  if d.servo.state = .free then d.clockRate (signed (hi % 256 * 2 ^ 32 + lo) 40) else d

/-- A trigger whose next pulse lies further ahead than one period, after a step back, takes the next of its grid (R271). -/
def Device.retime (d : Device) (k : Nat) : Device :=
  let t := tabGet (fun _ => {}) d.pulse.trig k
  let start := nsT (t.startSec * 1000000000 + t.startNs)
  let per := nsT (d.reg (A.TIME_TR_PERIOD k)).toNat
  let now := d.clockNow
  if t.armed ∧ per ≠ 0 ∧ now + per < t.next then
    let next := if now < start then start else start + ((now - start) / per + 1) * per
    { d with pulse := { d.pulse with trig := tabSet (fun _ => {}) d.pulse.trig k { t with next := next } } }
  else d

/-- The clock is stepped to `target` (2^-64 ns) in one tick, in every copy. A step that jumps over a second carry, or meets one in
its tick, makes one ledger record after the step, and the first record after any step has STEPPED = 1 (R257, R273, R276). -/
def Device.stepClock (d : Device) (target : Nat) : Device :=
  let before := d.ledger.lastSec
  let carried := decide (before < clkSec d.clockNow)
  let gain := d.clockGain d.inStroke
  let d := { d with clock := { d.clock with clk := (target % clockWrap + clockWrap - gain % clockWrap) % clockWrap } }
  let sec := clkSec d.clockNow
  let d := { d with ledger := { d.ledger with stepped := true } }
  let d := if d.ledger.madeAt = some d.absCyc then d.ledgerAgain sec (clkNs d.clockNow)
    else if carried ∨ before < sec then d.ledgerMake sec (clkNs d.clockNow) else d
  let d := { d with ledger := { d.ledger with lastSec := sec } }
  ((List.range 4).foldl Device.retime d).raise 0x30000 1

/-- STEP_CTRL is written: SET or ADD asks for a step; one that finds BUSY is ignored and recorded (R257). -/
def stepCtrlWrite (d : Device) (src : Source) (w : Word) : Device :=
  let ask (d : Device) (set_ : Bool) : Device :=
    if d.clock.stepBusy.isSome then d.refuse src A.TIME_STEP_CTRL
    else { d with clock := { d.clock with stepBusy := some set_ } }
  let d := if F.TIME_STEP_CTRL_SET.get w = 1 then ask d true else d
  if F.TIME_STEP_CTRL_ADD.get w = 1 then ask d false else d

/-- STEP_SEC and STEP_NS in 2^-64 ns. -/
def Device.stepValue (d : Device) : Nat :=
  let sec := d.fld A.TIME_STEP_SEC_HI F.TIME_STEP_SEC_HI_SEC * 2 ^ 32 + (d.cfg A.TIME_STEP_SEC_LO).toNat
  (sec * 1000000000 + d.fld A.TIME_STEP_NS F.TIME_STEP_NS_NS) * 2 ^ 64

/-- The device clock now in 2^-64 ns. -/
def Device.clockExact (d : Device) : Nat := (d.clock.clk + d.clockGain d.inStroke) % clockWrap

/-- CLOCK_STEP_DONE: the step asked for is made, and BUSY clears (R257). -/
def clockStepDone (d : Device) (cyc : Nat) : Device :=
  let d := d.atCyc cyc
  match d.clock.stepBusy with
  | none => d
  | some set_ =>
    let d := { d with clock := { d.clock with stepBusy := none } }
    let v := d.stepValue
    if set_ then d.stepClock v
    else if d.fld A.TIME_STEP_NS F.TIME_STEP_NS_NEG = 1 then d.stepClock (d.clockExact + clockWrap - v % clockWrap)
    else d.stepClock (d.clockExact + v)

/-- CLK_CFG is written. A source that is not there falls back at once where AUTO_FALLBACK is set (R255, R444). -/
def clkCfgWrite (d : Device) (w : Word) : Device :=
  let src := F.TIME_CLK_CFG_SRC.get w
  let auto := F.TIME_CLK_CFG_AUTO_FALLBACK.get w
  let back := src = 1 ∧ auto = 1 ∧ !d.clock.ext10m
  let d := d.setReg A.TIME_CLK_CFG (BitVec.ofNat 32 ((if back then 0 else src) + 4 * auto))
  let d := { d with clock := { d.clock with srcExt := decide (src = 1) && !decide back } }
  if back then d.raise 0x30000 8 else d

/-- EXT10M_LOST: the 10 MHz input has gone; the time clock falls back or holds its frequency (R255). -/
def ext10mLost (d : Device) (cyc : Nat) : Device :=
  let d := d.atCyc cyc
  let d := { d with clock := { d.clock with ext10m := false } }
  let w := d.reg A.TIME_CLK_CFG
  if F.TIME_CLK_CFG_SRC.get w = 0 then d
  else
    let d := if F.TIME_CLK_CFG_AUTO_FALLBACK.get w = 1 then
        let d := d.setReg A.TIME_CLK_CFG (F.TIME_CLK_CFG_SRC.put w 0)
        { d with clock := { d.clock with srcExt := false } }
      else d
    d.raise 0x30000 8

/-- EXT10M_RESTORED: the input is back within its tolerance; the PLL locks to it where SRC = 1 (R255). -/
def ext10mRestored (d : Device) (cyc : Nat) : Device :=
  let d := d.atCyc cyc
  { d with clock := { d.clock with ext10m := true } }

/-- What a read of NOW_FRAC answers, and what it latches: NS, SEC_LO and SEC_HI (R257). -/
def Device.nowWords (d : Device) : List Nat :=
  let t := d.clockNow
  [clkFrac t, clkNs t, clkSec t % 2 ^ 32, clkSec t / 2 ^ 32 % 2 ^ 16]

/-- The same words of a capture (R272). -/
def Capture.words (c : Capture) : List Nat :=
  [clkFrac c.at16, clkNs c.at16, clkSec c.at16 % 2 ^ 32, clkSec c.at16 / 2 ^ 32 % 2 ^ 16]

-- The servo (R266 to R268) -----------------------------------------------------------------------------------------

/-- The servo is enabled with a source named. -/
def Device.srvNamed (d : Device) : Bool := d.srvCtl F.TIME_SERVO_CTRL_EN == 1 && d.srvCtl F.TIME_SERVO_CTRL_SRC_KIND != 0

/-- A change of the servo's state sets STATE_CHG. -/
def Device.srvState (d : Device) (s : ServoState) : Device :=
  if d.servo.state = s then d
  else
    let d := { d with servo := { d.servo with state := s, inLock := 0, outLock := 0 } }
    d.raise 0x30000 0

/-- i or another fractional frequency in units of 2^-48. -/
def Device.toRate (d : Device) (x : Rat) : Int × Device :=
  let (r, d) := d.roundDiv (x.num * 2 ^ 48) x.den
  d.rateFrom r

/-- Entry to HOLDOVER: RATE is frozen at i (R267). -/
def Device.holdover (d : Device) : Device :=
  if d.servo.state = .holdover then d
  else
    let (r, d) := d.toRate d.servo.integ
    let d := d.clockRate r
    ({ d with servo := { d.servo with holdRate := r } }).srvState .holdover

/-- SERVO_CTRL, SRC_ID or SRC_PNUM is written: `changed` tells that the source named is another (R267). -/
def Device.servoWritten (d : Device) (changed : Bool) : Device :=
  if !d.srvNamed then d.srvState .free
  else match d.servo.state with
    | .free => ({ d with servo := { d.servo with lossFrom := d.stepFreeNow } }).srvState .acquiring
    | .holdover => d
    | st =>
      let hold := d.srvCtl F.TIME_SERVO_CTRL_FORCE_HOLD = 1
      if (changed ∨ hold) ∧ (st = .locked ∨ d.servo.everLocked) then d.holdover else d

/-- SERVO_CTRL is written. -/
def servoCtrlWrite (d : Device) (w : Word) : Device :=
  let old := d.reg A.TIME_SERVO_CTRL
  let src (v : Word) := (F.TIME_SERVO_CTRL_SRC_KIND.get v, F.TIME_SERVO_CTRL_SRC_PORT.get v, F.TIME_SERVO_CTRL_DOMAIN.get v)
  (d.setReg A.TIME_SERVO_CTRL (w &&& 0x0FFFFFFF#32)).servoWritten (src old != src w)

/-- A nanosecond threshold in 2^-16 ns. -/
def Device.srvNs (d : Device) (f : Fld) : Int := Int.ofNat (nsT (f.get (d.reg A.TIME_SERVO_THRESH)))

/-- The proportional-integral loop, driven by an offset `o` taken `tau` after the sample before it, both in 2^-16 ns
(R267). Two samples of one time leave e open. -/
def Device.servoLoop (d : Device) (o : Int) (tau : Nat) : Device :=
  let (e, d) : Rat × Device :=
    if tau = 0 then let (n, d) := d.free 40; (mkRat (signed n 40) (2 ^ 48), d) else (mkRat o tau, d)
  let gain (f : Fld) : Nat := f.get (d.reg A.TIME_SERVO_GAIN)
  let i := d.servo.integ - e * mkRat 1 (2 ^ gain F.TIME_SERVO_GAIN_KI_SHIFT)
  let (r, d) := d.toRate (i - e * mkRat 1 (2 ^ gain F.TIME_SERVO_GAIN_KP_SHIFT))
  ({ d with servo := { d.servo with integ := i } }).clockRate r

/-- The step-free counter at the start of this stroke, in 2^-16 ns: what the servo's timers mature by (R41). -/
def Device.freeAtStart (d : Device) : Nat := d.clock.stepFree / 2 ^ 48

/-- SERVO_LOSS_TIMEOUT: no accepted sample for LOSS_S seconds (R267). -/
def servoLossTimeout (d : Device) : Device :=
  let loss := max 1 (F.TIME_SERVO_THRESH_LOSS_S.get (d.reg A.TIME_SERVO_THRESH))
  if d.freeAtStart < d.servo.lossFrom + secT loss then d
  else match d.servo.state with
    | .locked => d.holdover
    | .acquiring => if d.servo.everLocked then d.holdover else d.srvState .free
    | _ => d

/-- SERVO_STEP: the loop runs from the sample accepted at `last`, if any (R267). -/
def Device.servoDrive (d : Device) (o : Int) (last : Option Nat) (now : Nat) : Device :=
  match last with
  | none => d
  | some t => d.servoLoop o (now - t)

/-- The transitions that an accepted sample makes, by the servo's state (R267). -/
def Device.servoDecide (d : Device) (o : Int) (last : Option Nat) (now : Nat) : Device :=
  let mag : Int := Int.ofNat o.natAbs
  match d.servo.state with
  | .free | .holdover => (d.servoDrive o last now).srvState .acquiring
  | .acquiring =>
    let stepUs := max 1 (F.TIME_SERVO_THRESH_STEP_US.get (d.reg A.TIME_SERVO_THRESH))
    if d.srvCtl F.TIME_SERVO_CTRL_STEP_EN = 1 ∧ Int.ofNat (usT stepUs) ≤ mag then
      let target := ((Int.ofNat d.clockExact - o * 2 ^ 48) % Int.ofNat clockWrap).toNat
      (({ d with servo := { d.servo with inLock := 0 } }).stepClock target)
    else
      let n := if mag < d.srvNs F.TIME_SERVO_THRESH_LOCK_NS then d.servo.inLock + 1 else 0
      let d := ({ d with servo := { d.servo with inLock := n } }).servoDrive o last now
      if 16 ≤ n then ({ d with servo := { d.servo with everLocked := true } }).srvState .locked else d
  | .locked =>
    let n := if d.srvNs F.TIME_SERVO_THRESH_UNLOCK_NS < mag then d.servo.outLock + 1 else 0
    let d := ({ d with servo := { d.servo with outLock := n } }).servoDrive o last now
    if 4 ≤ n then d.srvState .acquiring else d

/-- An accepted sample; a loss that matured at a boundary before it stands (R42, R267, R276). -/
def Device.servoAccept (d : Device) (o m : Int) : Device :=
  let d := servoLossTimeout d
  let now := d.stepFreeNow
  let last := d.servo.lastAt
  let d := d.count (A.TIME_SRV_CNT 0)
  let (pm, d) := d.roundDiv m 256
  let d := d.setReg A.TIME_PATH_DELAY (BitVec.ofNat 32 (unsignedOf pm 32))
  let d := { d with servo := { d.servo with offset := o, pathM := m, lastAt := some now, lossFrom := now } }
  if d.srvCtl F.TIME_SERVO_CTRL_FORCE_HOLD = 1 then d.holdover else d.servoDecide o last now

/-- SERVO_SAMPLE_FILTER: a sample whose m exceeds the smallest of the last 16 by more than FILTER_NS is rejected (R266). -/
def Device.servoSample (d : Device) (o m : Int) : Device :=
  let win := (m :: d.servo.window).take 16
  let least := win.foldl min m
  let d := { d with servo := { d.servo with window := win } }
  let lim : Int := Int.ofNat (nsT (F.TIME_SERVO_GAIN_FILTER_NS.get (d.reg A.TIME_SERVO_GAIN)))
  if m > least + lim then d.count (A.TIME_SRV_CNT 1) else d.servoAccept o m

/-- The time that a PTP message carries, in 2^-16 ns. -/
def ptpTime (m : PtpMsg) : Int := Int.ofNat (nsT (m.sec.toNat * 1000000000 + m.ns.toNat))
/-- The correctionField, in 2^-16 ns. -/
def ptpCorr (m : PtpMsg) : Int := signed m.correction.toNat 64

/-- The source port, when PTP messages on it can serve the servo: SRC_KIND, role, gallery and link (R266, R276). -/
def Device.srvPort (d : Device) (p : Nat) : Bool :=
  d.srvCtl F.TIME_SERVO_CTRL_EN == 1 && d.srvCtl F.TIME_SERVO_CTRL_SRC_KIND == 1 &&
    d.srvCtl F.TIME_SERVO_CTRL_SRC_PORT == p && d.tsCfg p F.TSU_TS_CFG_ROLE == 2 && d.receives p

/-- The message is the named master's, in its domain. -/
def Device.fromSource (d : Device) (p : Nat) (m : PtpMsg) : Bool :=
  d.srvPort p && m.domain.toNat == d.srvCtl F.TIME_SERVO_CTRL_DOMAIN &&
    m.srcId.toNat == d.pair A.TIME_SRC_ID_LO A.TIME_SRC_ID_HI && m.srcPort.toNat == d.fld A.TIME_SRC_PNUM F.TIME_SRC_PNUM_PNUM

/-- A complete Sync: t2 - t1 - c_s, and the sample it yields (R266). Without sequencer 12 none is accepted (R324). -/
def Device.syncSample (d : Device) (p : Nat) (fwd : Int) : Device :=
  let d := { d with servo := { d.servo with lastForward := some fwd } }
  let (asym, d) := d.psT (signed (d.cfg (A.TSU_TS_ASYM (p / 32) (p % 32))).toNat 32)
  let m := if d.srvCtl F.TIME_SERVO_CTRL_DELAY_MODE = 1 then some (Int.ofNat ((d.port p).delay * 16384)) else d.servo.delayM
  match m with
  | none => d
  | some m => if d.seqOn 12 then d.servoSample (fwd - m - asym) m else d

/-- SYNC_RECEIVE_SAMPLE: a Sync of the servo's source, received on port `p` (R266). -/
def syncReceiveSample (d : Device) (p cyc lane : Nat) (raw : Int) (m : PtpMsg) : Device :=
  let d := d.atCyc cyc
  if !d.fromSource p m then d
  else
    let (t2, _, d) := d.stampAt p lane raw true
    let d := { d with servo := { d.servo with cumRate := signed m.rateOfs.toNat 32 } }
    if m.twoStep then
      { d with servo := { d.servo with syncOpen := some (m.seq.toNat, Int.ofNat t2, ptpCorr m, d.stepFreeNow) } }
    else
      ({ d with servo := { d.servo with syncOpen := none } }).syncSample p (Int.ofNat t2 - ptpTime m - ptpCorr m)

/-- FOLLOW_UP_RECEIVE: the Follow_Up of the two-step Sync that waits, within 1 s (R266). Sequencer 13 matches it (R317). -/
def followUpReceive (d : Device) (p cyc : Nat) (m : PtpMsg) : Device :=
  let d := d.atCyc cyc
  match d.servo.syncOpen with
  | none => d
  | some (seq, t2, cs, at_) =>
    if !d.fromSource p m ∨ !d.seqOn 13 ∨ m.seq.toNat ≠ seq ∨ at_ + secT 1 ≤ d.freeAtStart then d
    else
      ({ d with servo := { d.servo with syncOpen := none, cumRate := signed m.rateOfs.toNat 32 } }).syncSample p
        (t2 - ptpTime m - (cs + ptpCorr m))

-- Messages the TSU sends (R264 to R266) ----------------------------------------------------------------------------

/-- Template `t` of gallery `n` (R269): its bytes, the offset of its PTP header, and its transport. -/
def Device.tsuTpl (d : Device) (n t : Nat) : Bytes × Nat × Nat :=
  let cfg := d.cfg (A.TSU_TPL_CFG n t)
  let words := (List.range 32).flatMap fun j => beBytes 4 (d.cfg (A.TSU_TPL_BYTES n t j)).toNat
  (words.take (F.TSU_TPL_CFG_LEN.get cfg), F.TSU_TPL_CFG_PTP_OFS.get cfg, F.TSU_TPL_CFG_XPORT.get cfg)

/-- The UDP checksum of a message whose PTP header is at `o`: over its pseudo-header, the IP header directly before it
(PRESUMED from the standards). -/
def fillUdpSum (xport o : Nat) (bs : Bytes) : Bytes :=
  if xport = 0 ∨ 2 < xport ∨ o < 8 then bs
  else
    let u := o - 8
    let bs := patchBytes bs (u + 6) (zeroBytes 2)
    let len := beAt bs (u + 4) 2
    let pseudo := if xport = 1 then sliceBytes bs (u - 8) 8 ++ beBytes 2 17 ++ beBytes 2 len
      else sliceBytes bs (u - 32) 32 ++ beBytes 4 len ++ beBytes 4 17
    let s := 65535 - onesSum (pseudo ++ sliceBytes bs u (min len (bs.length - u)))
    patchBytes bs (u + 6) (beBytes 2 (if s = 0 then 0xFFFF else s))

/-- A template filled for port `p`: sequenceId, portNumber and, with SA_PORT, the source address; then what the message
itself needs, and the checksum last. -/
def Device.tsuFill (d : Device) (p seq : Nat) (tpl : Bytes × Nat × Nat) (more : Bytes → Bytes) : Bytes :=
  let (bs, o, xport) := tpl
  let bs := patchBytes bs (o + 30) (beBytes 2 seq)
  let bs := patchBytes bs (o + 28) (beBytes 2 (d.tsCfg p F.TSU_TS_CFG_PTP_PORTNUM))
  let bs := if d.tsCfg p F.TSU_TS_CFG_SA_PORT = 1 then
      patchBytes bs 10 (beBytes 2 (beAt bs 10 2 / 1024 * 1024 + p)) else bs
  fillUdpSum xport o (more bs)

/-- A generated message joins queue PTP_Q of its port (R264): the device, and its frame. -/
def Device.tsuQueue (d : Device) (p : Nat) (bs : Bytes) (originAt : Option Nat) : Device × Nat :=
  let f := d.newFrame (p / 32) p 7 0 true bs
  (d.direct f (16 * p + d.tsCfg p F.TSU_TS_CFG_PTP_Q) originAt, f.id)

/-- 2^LOG seconds, of a 4-bit signed LOG, in 2^-16 ns. -/
def logTime (n : Nat) : Nat :=
  let e := signed n 4
  if 0 ≤ e then secT (2 ^ e.toNat) else secT 1 / 2 ^ (-e).toNat

/-- The port can send a message of template `t`. -/
def Device.tsuReady (d : Device) (p t : Nat) : Bool :=
  (d.port p).up && d.running && !d.isFenced (p / 32) && F.TSU_TPL_CFG_LEN.get (d.cfg (A.TSU_TPL_CFG (p / 32) t)) != 0

/-- SYNC_SEND: a master port sends its one-step Sync; the egress TSU inserts the origin (R264, R265). -/
def syncSend (d : Device) (p cyc : Nat) : Device :=
  let d := d.atCyc cyc
  let n := p / 32
  let due := match (d.tsuSt p).syncNext with
    | none => true
    | some t => decide (t ≤ d.freeAtStart)
  if d.tsCfg p F.TSU_TS_CFG_ROLE ≠ 1 ∨ !d.tsuReady p 0 ∨ !due then d
  else
    let s := d.tsuSt p
    let every := logTime (d.tsCfg p F.TSU_TS_CFG_SYNC_LOG)
    let d := d.setTsu p { s with
      seqSync := (s.seqSync + 1) % 65536
      syncNext := some ((s.syncNext.getD d.stepFreeNow) + every) }
    let tpl := d.tsuTpl n 0
    let (own, d) := d.roundDiv d.clock.rate 128
    let more := fun bs =>
      if d.fld (A.TSU_TPL_CFG n 0) F.TSU_TPL_CFG_TLV_FILL = 1 then
        patchBytes bs (tpl.2.1 + 54) (beBytes 4 (unsignedOf (d.servo.cumRate + own) 32))
      else bs
    let (d, _) := d.tsuQueue p (d.tsuFill p s.seqSync tpl more) (some tpl.2.1)
    d.count (tsuCnt n 2)

/-- DELAY_RESP_SEND: a Delay_Req that port `p` received at `raw`, in the template's domain, is answered (R264). -/
def delayRespSend (d : Device) (p cyc lane : Nat) (raw : Int) (m : PtpMsg) : Device :=
  let d := d.atCyc cyc
  let n := p / 32
  let (bs, o, xport) := d.tsuTpl n 2
  if d.tsCfg p F.TSU_TS_CFG_ROLE ≠ 1 ∨ !d.tsuReady p 2 ∨ !d.receives p ∨ byteAt bs (o + 4) ≠ m.domain.toNat then d
  else
    let (t4, _, d) := d.stampAt p lane raw true
    let more := fun bs =>
      patchBytes (patchBytes (patchBytes (patchBytes bs (o + 8) (beBytes 8 m.correction.toNat)) (o + 34)
        (beBytes 6 (clkSec t4))) (o + 40) (beBytes 4 (clkNs t4))) (o + 44)
        (beBytes 8 m.srcId.toNat ++ beBytes 2 m.srcPort.toNat)
    let (d, _) := d.tsuQueue p (d.tsuFill p m.seq.toNat (bs, o, xport) more) none
    d.count (tsuCnt n 3)

/-- DELAY_REQ_SEND: the servo's source port sends its Delay_Req in E2E mode; sequencer 13 schedules it (R266, R317). -/
def delayReqSend (d : Device) (cyc : Nat) : Device :=
  let d := d.atCyc cyc
  let p := d.srvCtl F.TIME_SERVO_CTRL_SRC_PORT
  let due := match (d.tsuSt p).dreqNext with
    | none => true
    | some t => decide (t ≤ d.freeAtStart)
  if !d.srvPort p ∨ d.srvCtl F.TIME_SERVO_CTRL_DELAY_MODE ≠ 0 ∨ !d.seqOn 13 ∨ !d.tsuReady p 1 ∨ !due then d
  else
    let s := d.tsuSt p
    let every := logTime (d.srvCtl F.TIME_SERVO_CTRL_DREQ_LOG)
    let d := d.setTsu p { s with
      seqDreq := (s.seqDreq + 1) % 65536
      dreqNext := some ((s.dreqNext.getD d.stepFreeNow) + every) }
    let (d, id) := d.tsuQueue p (d.tsuFill p s.seqDreq (d.tsuTpl (p / 32) 1) fun bs => bs) none
    let q : DreqOpen := { seq := s.seqDreq, frame := id, since := d.stepFreeNow }
    let d : Device := { d with servo := { d.servo with dreqs := d.servo.dreqs ++ [q] } }
    d.count (A.TIME_SRV_CNT 2)

/-- DELAY_RESP_RECEIVE: the response to a Delay_Req that waits, no later than the stroke at whose end its 1 s matures: m (R42,
R266). -/
def delayRespReceive (d : Device) (p cyc : Nat) (m : PtpMsg) : Device :=
  let d := d.atCyc cyc
  let mine := m.reqId.toNat * 65536 + m.reqPort.toNat = d.ptpIdentity p
  if !d.fromSource p m ∨ !mine then d
  else match d.servo.dreqs.find? fun q => q.seq = m.seq.toNat ∧ q.t3.isSome ∧ d.freeAtStart < q.since + secT 1 with
    | none => d
    | some q =>
      let d := { d with servo := { d.servo with dreqs := d.servo.dreqs.filter fun x => x ≠ q } }
      match q.t3, d.servo.lastForward with
      | some t3, some fwd =>
        let (v, d) := d.roundDiv (fwd + (ptpTime m - t3 - ptpCorr m)) 2
        { d with servo := { d.servo with delayM := some v } }
      | _, _ => d

/-- DELAY_RESP_MISSED: no Delay_Resp within 1 s of its Delay_Req (R266). -/
def delayRespMissed (d : Device) : Device :=
  match d.servo.dreqs.find? fun q => q.since + secT 1 ≤ d.freeAtStart with
  | none => d
  | some q =>
    ({ d with servo := { d.servo with dreqs := d.servo.dreqs.filter fun x => x ≠ q } }).count (A.TIME_SRV_CNT 3)

-- Captures (R272) --------------------------------------------------------------------------------------------------

/-- The offset of a capture from its nearest second; one just between two seconds has either (R266). -/
def Device.ppsOffset (d : Device) (t : Nat) : Int × Device :=
  let x := t % secT 1
  if 2 * x < secT 1 then (Int.ofNat x, d)
  else if secT 1 < 2 * x then (Int.ofNat x - Int.ofNat (secT 1), d)
  else let (b, d) := d.free 1; (if b = 0 then Int.ofNat x else Int.ofNat x - Int.ofNat (secT 1), d)

/-- The device clock `raw` after the present cycle's start, in 2^-16 ns. -/
def Device.edgeTime (d : Device) (raw : Nat) : Nat := (d.clockNow + raw) % (clockWrap / 2 ^ 48)

/-- PPS_IN_EDGE: a rising edge of PPS_IN`k` is captured, and may be a sample (R266, R272). -/
def ppsInEdge (d : Device) (k cyc raw : Nat) : Device :=
  let d := d.atCyc cyc
  let t := d.edgeTime raw
  let d := { d with pulse := { d.pulse with ppsIn := d.pulse.ppsIn.set k (some ⟨true, t⟩) } }
  let d := d.raise 0x30000 (2 + k)
  if d.srvCtl F.TIME_SERVO_CTRL_EN = 1 ∧ d.srvCtl F.TIME_SERVO_CTRL_SRC_KIND = 2 + k ∧ d.seqOn 12 then
    let (o, d) := d.ppsOffset t
    d.servoSample o 0
  else d

/-- TIME_EVT_EDGE: an edge on TIME_EVT`k`; a second one within 2 ns is none, and one that finds the FIFO full is lost
(R272, R276). -/
def timeEvtEdge (d : Device) (k cyc raw : Nat) (rising : Bool) : Device :=
  let d := d.atCyc cyc
  let sel := d.fld (A.TIME_EV_CTRL k) F.TIME_EV_CTRL_EDGE
  let at_ := d.stepFreeNow + raw
  let close : Bool := match d.pulse.evtLast.getD k none with
    | some t => decide (at_ ≤ t + nsT 2)
    | none => false
  if !bit sel (if rising then 0 else 1) ∨ close then d
  else
    let d := { d with pulse := { d.pulse with evtLast := d.pulse.evtLast.set k (some at_) } }
    let l := d.pulse.evt.getD k []
    if 16 ≤ l.length then
      ({ d with pulse := { d.pulse with
        evtOvf := d.pulse.evtOvf.set k (min (d.pulse.evtOvf.getD k 0 + 1) 0xFFFF) } }).raise 0x30000 5
    else
      let c : Capture := ⟨rising, d.edgeTime raw⟩
      ({ d with pulse := { d.pulse with evt := d.pulse.evt.set k (l ++ [c]) } }).raise 0x30000 4

/-- The oldest capture leaves its FIFO: EV_FRAC, NS, SEC_LO and SEC_HI as a read finds them (R272). -/
def Device.evtPop (d : Device) (k : Nat) : List Nat × Device :=
  match d.pulse.evt.getD k [] with
  | [] => ([0, 0, 0, 0], d)
  | c :: t =>
    let w := c.words
    ((w.headD 0 + 2 ^ 31 * b2n c.rising) :: w.drop 1, { d with pulse := { d.pulse with evt := d.pulse.evt.set k t } })

-- Pulses and triggers (R271) ---------------------------------------------------------------------------------------

/-- The second that a clock reading lies in, seconds starting at OFS. -/
def ppsIndex (ofs : Int) (t : Int) : Int := (t - ofs * 65536) / Int.ofNat (secT 1)

/-- The name of PPS output `k`, and OFS of it. -/
def ppsName (k : Nat) : String := if k = 0 then "PPS_OUT0" else "PPS_OUT1"
def Device.ppsOfs (d : Device) (k : Nat) : Int := signed (F.TIME_PPS_OUT_OFS_OFS.get (d.reg (A.TIME_PPS_OUT_OFS k))) 30

/-- PPS output `k` falls. -/
def Device.ppsLower (d : Device) (k : Nat) : Device :=
  if d.pulse.ppsHigh.getD k false then
    ({ d with pulse := { d.pulse with ppsHigh := d.pulse.ppsHigh.set k false } }).send (.pin (ppsName k) false)
  else d

/-- PPS_OUT_EDGE: output `k` rises at each second plus OFS, in the stroke that the time falls in, and falls WIDTH after, however
the clock is stepped meanwhile (R271). -/
def ppsOutEdge (d : Device) (k cyc : Nat) : Device :=
  let d := d.atCyc cyc
  let now := d.clockNow
  let cfg := d.reg (A.TIME_PPS_OUT_CFG k)
  if d.pulse.ppsHigh.getD k false then
    if d.stepFreeNow < d.pulse.ppsFall.getD k 0 then d else d.ppsLower k
  else
    let ofs := d.ppsOfs k
    let start : Int := Int.ofNat (d.clock.clk / 2 ^ 48) - 1
    if F.TIME_PPS_OUT_CFG_EN.get cfg = 0 ∨ d.pulse.ppsRose.getD k 0 = d.strokeNo + 1 ∨
        ppsIndex ofs (Int.ofNat now) = ppsIndex ofs start then d
    else
      let rise := (ppsIndex ofs (Int.ofNat now) * Int.ofNat (secT 1) + ofs * 65536).toNat
      ({ d with pulse := { d.pulse with
        ppsHigh := d.pulse.ppsHigh.set k true
        ppsRose := d.pulse.ppsRose.set k (d.strokeNo + 1)
        ppsFall := d.pulse.ppsFall.set k (d.stepFreeNow + usT (F.TIME_PPS_OUT_CFG_WIDTH.get cfg) - (now - rise)) } }).send
          (.pin (ppsName k) true)

/-- A trigger's state. -/
def Device.trig (d : Device) (k : Nat) : Trigger := tabGet (fun _ => {}) d.pulse.trig k
def Device.setTrig (d : Device) (k : Nat) (t : Trigger) : Device :=
  { d with pulse := { d.pulse with trig := tabSet (fun _ => {}) d.pulse.trig k t } }

/-- TR_CTRL is written: EN arms a trigger that is not armed, or finds its START passed; a TR_WIDTH that breaks its limit makes
it ignored (R271, R272). -/
def trCtrlWrite (d : Device) (src : Source) (k : Nat) (w : Word) : Device :=
  let a := A.TIME_TR_CTRL k
  let keep := w &&& 3#32
  let t := d.trig k
  if F.TIME_TR_CTRL_EN.get w = 0 then (d.setReg a keep).setTrig k { t with armed := false }
  else
    let per := (d.reg (A.TIME_TR_PERIOD k)).toNat
    let width := F.TIME_TR_WIDTH_NS.get (d.reg (A.TIME_TR_WIDTH k))
    if width < 2 ∨ (per ≠ 0 ∧ per ≤ width) then d.refuse src a
    else
      let d := d.setReg a keep
      if t.armed then d
      else
        let start := nsT (t.startSec * 1000000000 + t.startNs)
        let now := d.clockNow
        if now < start then d.setTrig k { t with armed := true, next := start, given := 0 }
        else if per = 0 then (d.setTrig k { t with armed := false }).raise 0x30000 6
        else
          let next := start + ((now + usT 1 - start) / nsT per + 1) * nsT per
          d.setTrig k { t with armed := true, next := next, given := 0 }

/-- TRIGGER_PULSE: a pulse of TIME_TRIG`k` is due on the device clock (R271, R276). -/
def triggerPulse (d : Device) (k cyc : Nat) : Device :=
  let d := d.atCyc cyc
  let t := d.trig k
  let now := d.clockNow
  if !t.armed ∨ now < t.next then d
  else
    let per := nsT (d.reg (A.TIME_TR_PERIOD k)).toNat
    let count := (d.reg (A.TIME_TR_COUNT k)).toNat
    let last := per = 0 ∨ (count ≠ 0 ∧ count ≤ t.given + 1)
    let next := if per = 0 then t.next else t.next + ((now - t.next) / per + 1) * per
    let d := d.setTrig k { t with armed := !decide last, given := t.given + 1, next := next }
    d.send (.pulse k (F.TIME_TR_CTRL_POL.get (d.reg (A.TIME_TR_CTRL k)) = 1)
      (F.TIME_TR_WIDTH_NS.get (d.reg (A.TIME_TR_WIDTH k))))

-- The time unit through a warm RESET (R409) --------------------------------------------------------------------------

/-- PPS output `k` from the clock reading `was` to the present one: the seconds that passed between give their pulses. -/
def Device.ppsRuns (d : Device) (was k : Nat) : Device :=
  let width := F.TIME_PPS_OUT_CFG_WIDTH.get (d.reg (A.TIME_PPS_OUT_CFG k))
  let ofs := d.ppsOfs k
  let now : Int := Int.ofNat d.clockNow - 1
  let n := if F.TIME_PPS_OUT_CFG_EN.get (d.reg (A.TIME_PPS_OUT_CFG k)) = 0 then 0
    else (ppsIndex ofs now - ppsIndex ofs (Int.ofNat was - 1)).toNat
  let d := if n ≠ 0 ∨ d.pulse.ppsFall.getD k 0 ≤ d.stepFreeNow then d.ppsLower k else d
  let since := (now + 1 - (ppsIndex ofs now * Int.ofNat (secT 1) + ofs * 65536)).toNat
  let high := decide (n ≠ 0 ∧ since < usT width)
  let whole := if high then n - 1 else n
  let d := if whole = 0 then d else d.send (.pulses (ppsName k) whole (width * 1000))
  let d := { d with pulse := { d.pulse with ppsRose := d.pulse.ppsRose.set k 0 } }
  if high then
    ({ d with pulse := { d.pulse with
      ppsHigh := d.pulse.ppsHigh.set k true
      ppsFall := d.pulse.ppsFall.set k (d.stepFreeNow + usT width - since) } }).send (.pin (ppsName k) true)
  else d

/-- The names of the trigger outputs. -/
def trigName (k : Nat) : String := ["TIME_TRIG0", "TIME_TRIG1", "TIME_TRIG2", "TIME_TRIG3"].getD k "TIME_TRIG3"

/-- Trigger `k` up to the present clock reading: the pulses that fell due. -/
def Device.trigRuns (d : Device) (k : Nat) : Device :=
  let t := d.trig k
  if !t.armed ∨ d.clockNow ≤ t.next then d
  else
    let per := nsT (d.reg (A.TIME_TR_PERIOD k)).toNat
    let count := (d.reg (A.TIME_TR_COUNT k)).toNat
    let due := if per = 0 then 1 else (d.clockNow - 1 - t.next) / per + 1
    let n := if per ≠ 0 ∧ count ≠ 0 then min due (count - t.given) else due
    let last := per = 0 ∨ (count ≠ 0 ∧ count ≤ t.given + n)
    (d.setTrig k { t with armed := !decide last, given := t.given + n, next := t.next + n * per }).send
      (.pulses (trigName k) n (F.TIME_TR_WIDTH_NS.get (d.reg (A.TIME_TR_WIDTH k))))

/-- The time unit runs on for a core time of `t` without interruption: its outputs give their pulses, and each second that passes
is one with no record (R409). -/
def Device.timeRuns (d : Device) (t : Nat) : Device :=
  let was := d.clockNow
  let d := d.advance t
  let d := (List.range 2).foldl (fun d k => d.ppsRuns was k) d
  let d := (List.range 4).foldl Device.trigRuns d
  let sec := clkSec d.clockNow
  let lost := if d.fld A.TIME_LEDGER_CTRL F.TIME_LEDGER_CTRL_EN = 0 then 0 else sec - d.ledger.lastSec
  let d := d.setFld A.TIME_LEDGER_LOST F.TIME_LEDGER_LOST_COUNT
    (min (F.TIME_LEDGER_LOST_COUNT.get (d.reg A.TIME_LEDGER_LOST) + lost) 65535)
  { d with ledger := { d.ledger with lastSec := sec } }

/-- The time outputs are driven low (R434). -/
def Device.timeLow (d : Device) : Device := ((List.range 2).foldl Device.ppsLower d).squelch

end Sys2Proof.Machine
end

