-- ==== Sys2Proof/Machine/Seq.lean ====
section
/-! DEFINITION. The Ryinapor sequencers: microwords, events, images and bank switches (R317 to R331). -/

namespace Sys2Proof.Machine

-- Roles and banks --------------------------------------------------------------------------------------------------

/-- The role that a sequencer serves (R317). -/
def roleOf (s : Nat) : Nat := if s < 12 then 1 + s / 4 else if s < 14 then 4 else 5

/-- The sequencers of a role. -/
def roleSeqs (r : Nat) : List Nat := (List.range 16).filter fun s => roleOf s = r

def Device.role (d : Device) (r : Nat) : SeqRole := tabGet (fun _ => {}) d.seq.roles r
def Device.setRole (d : Device) (r : Nat) (v : SeqRole) : Device :=
  { d with seq := { d.seq with roles := tabSet (fun _ => {}) d.seq.roles r v } }
def Device.modRole (d : Device) (r : Nat) (f : SeqRole → SeqRole) : Device := d.setRole r (f (d.role r))

/-- A bank of a role, and its active and idle one. -/
def SeqRole.bank (v : SeqRole) (b : Nat) : SeqBank := v.banks.getD b {}
def SeqRole.live (v : SeqRole) : SeqBank := v.bank v.active
def SeqRole.idle (v : SeqRole) : SeqBank := v.bank (1 - v.active)
def SeqRole.setIdle (v : SeqRole) (b : SeqBank) : SeqRole := { v with banks := v.banks.set (1 - v.active) b }

-- The microword (R319) ---------------------------------------------------------------------------------------------

/-- Fields of a microword. -/
def mwNext (w : Nat) : Nat := bitsOf w 0 15
def mwAlt (w : Nat) : Nat := bitsOf w 15 15
def mwFlow (w : Nat) : Nat := bitsOf w 30 2
def mwCond (w : Nat) : Nat := bitsOf w 32 7
def mwPol (w : Nat) : Bool := bit w 39
def mwTmo (w : Nat) : Nat := bitsOf w 40 16
def mwSafe (w : Nat) : Bool := bit w 56
def mwOp (w : Nat) : Nat := bitsOf w 64 6
def mwDst (w : Nat) : Nat := bitsOf w 70 5
def mwA (w : Nat) : Nat := bitsOf w 75 5
def mwB (w : Nat) : Nat := bitsOf w 80 5
def mwImm (w : Nat) : Nat := bitsOf w 96 32
def mwBus (w : Nat) : Nat := bitsOf w 128 24
def mwMask (w : Nat) : Nat := bitsOf w 152 32

/-- The conditions that R322 defines. -/
def condKnown (c : Nat) : Bool := decide (c ≤ 4 ∨ (8 ≤ c ∧ c ≤ 0x0B) ∨ (0x10 ≤ c ∧ c ≤ 0x1F))

/-- BAD_WORD: a reserved OP or COND, or a reserved bit set (R323). -/
def mwBad (w : Nat) : Bool :=
  decide (0x10 < mwOp w) || !condKnown (mwCond w) || bitsOf w 57 7 != 0 || bitsOf w 85 11 != 0 || bitsOf w 184 72 != 0

/-- The word at a sequencer's address in its active bank. -/
def Device.seqWord (d : Device) (s : Nat) : Nat := tnat (d.role (roleOf s)).live.words (d.seqSt s).pc

/-- A condition of R322 for sequencer `s`, before the polarity. -/
def Device.seqCond (d : Device) (s c : Nat) : Bool :=
  let q := d.seqSt s
  if c = 0 then true
  else if c = 1 then q.z else if c = 2 then q.n else if c = 3 then q.c else if c = 4 then q.v
  else if c = 8 then !q.evq.isEmpty
  else if c = 9 then q.mbox
  else if c = 0x0A then q.lhDone
  else if c = 0x0B then decide (q.issued < d.strokeNo)
  else bit (d.reg (A.SEQ_SQ_FLAGS s)).toNat (c % 16)

/-- The condition of the present word, with CPOL. -/
def Device.seqHolds (d : Device) (s : Nat) : Bool :=
  let w := d.seqWord s
  d.seqCond s (mwCond w) != mwPol w

/-- The timer of the word that a sequencer waits at has matured (R41, R320). -/
def SeqSt.late (q : SeqSt) (stroke : Nat) : Bool :=
  match q.due with
  | some t => decide (t ≤ stroke)
  | none => false

/-- A word that waits tests its condition: one that holds before the timer has matured is remembered (R42, R320). -/
def Device.seqLook (d : Device) (s : Nat) : Device :=
  let q := d.seqSt s
  if q.st = .waiting ∧ !q.held ∧ !q.late d.strokeNo ∧ d.seqHolds s then d.modSeq s fun q => { q with held := true } else d

/-- Every sequencer's wait, in the last cycle of a stroke. -/
def Device.seqLooks (d : Device) : Device := (List.range 16).foldl Device.seqLook d

/-- SEQ_FAULT: the sequencer stops at its word (R323). -/
def Device.seqFault (d : Device) (s code : Nat) : Device :=
  (d.modSeq s fun q => { q with st := .fault, faultAddr := q.pc, faultCode := code, due := none }).raise 0x60000 0

/-- FLOW of the present word, with the flags its operation left (R320). -/
def Device.seqFlow (d : Device) (s : Nat) : Device :=
  let w := d.seqWord s
  let f := mwFlow w
  if f = 0 then d.modSeq s fun q => { q with pc := mwNext w }
  else if f = 1 then
    let dest := if d.seqHolds s then mwAlt w else mwNext w
    d.modSeq s fun q => { q with pc := dest }
  else if f = 2 then
    (d.modSeq s fun q => { q with
      st := .waiting, held := false, due := if mwTmo w = 0 then none else some (q.issued + mwTmo w + 1) }).seqLook s
  else d.modSeq s fun q => { q with st := .halted }

/-- A register of a sequencer. -/
def SeqSt.reg (q : SeqSt) (k : Nat) : Nat := tnat q.g k
def SeqSt.put (q : SeqSt) (k v : Nat) : SeqSt := { q with g := tnatSet q.g k (v % 2 ^ 32) }

/-- An addition sets the flags: carry out of bit 31, and overflow of the signed sum. -/
def SeqSt.add (q : SeqSt) (dst a b : Nat) : SeqSt :=
  let r := (a + b) % 2 ^ 32
  { q.put dst r with
    z := decide (r = 0), n := bit r 31, c := decide (2 ^ 32 ≤ a + b),
    v := bit a 31 == bit b 31 && bit a 31 != bit r 31 }

/-- A subtraction; whether C is the borrow or its inverse the spec does not state, so it is a free bit. -/
def SeqSt.sub (q : SeqSt) (dst a b cbit : Nat) : SeqSt :=
  let r := (a + 2 ^ 32 - b) % 2 ^ 32
  { q.put dst r with
    z := decide (r = 0), n := bit r 31, c := cbit == 1, v := bit a 31 != bit b 31 && bit a 31 != bit r 31 }

-- Lower Hall transfers (R321) --------------------------------------------------------------------------------------

/-- The Lower Hall's size in 64-byte units (R195). -/
def lhUnits : Nat := 384 * 2 ^ 28 / 64

/-- The billet granted to a requester of `which` that holds a whole transfer: its requester. -/
def Device.lhHolder (d : Device) (which : Nat → Bool) (addr units : Nat) : Option Nat :=
  (d.billet.out.find? fun (e : Nat × Nat) =>
    which (e.2 - 1) && decide (ptrAddr e.1 ≤ 64 * addr ∧ 64 * (addr + units) ≤ ptrAddr e.1 + poolBytes (ptrPool e.1))).map
      fun e => e.2 - 1

/-- A transfer lies in the ledger's ring. -/
def Device.lhLedger (d : Device) (addr units : Nat) : Bool :=
  (List.range units).all fun i => (d.lhHolder (fun q => q = 98) (addr + i) 1).isSome

/-- The budget that sequencer `s`'s transfer is charged to; none outside its role's range (R321). -/
def Device.lhBudget (d : Device) (s addr units : Nat) : Option (Nat × Nat) :=
  let r := roleOf s
  if r = 2 then (d.lhHolder (fun q => q = 99) addr units).map fun _ => (0x0B, 0)
  else if r = 3 then
    (d.lhHolder (fun q => decide (32 ≤ q ∧ q < 96) && (q - 32) / 16 == s - 8) addr units).map fun q => (0x09, q - 32)
  else if s = 15 then
    if lhUnits < addr + units then none else if d.lhLedger addr units then some (0x0A, 0) else some (0x12, 0)
  else none

-- Issue (R320, R321) -----------------------------------------------------------------------------------------------

/-- A store to a bus address of a unit: the word that the unit is given (R321). -/
def Device.busStore (d : Device) (s a v : Nat) : Device :=
  { d with seq := { d.seq with stores := tnatSet d.seq.stores (roleOf s * 2 ^ 32 + a) (v % 2 ^ 32) } }

/-- A bus access of sequencer `s` has its effect (R321, R329). Of the units' registers the spec gives neither addresses nor
contents: a load from one is a free value, and a store is the unit's. In a fenced gallery a load reads 0 and a store does
nothing. -/
def Device.busEffect (d : Device) (s : Nat) (b : SeqBus) : Device :=
  let at_ (a : Nat) := Config.busMap (roleOf s) a
  let fenced (g : Option (BitVec 5)) : Bool := (g.map fun n => d.isFenced n.toNat).getD false
  let masked (old v m : Nat) := (old ^^^ (old &&& m)) ||| (v &&& m)
  let out := A.SEQ_SQ_MBOX_OUT s
  match b with
  | .ld a dst =>
    match at_ a with
    | .mboxIn => d.modSeq s fun q => { q.put dst (d.reg (A.SEQ_SQ_MBOX_IN s)).toNat with mbox := false }
    | .mboxOut => d.modSeq s fun q => q.put dst (d.reg out).toNat
    | .unit g =>
      if fenced g then d.modSeq s fun q => q.put dst 0
      else let (v, d) := d.free 32; d.modSeq s fun q => q.put dst v
    | .nothing => d
  | .st a v =>
    match at_ a with
    | .mboxOut => d.setReg out (BitVec.ofNat 32 v)
    | .unit g => if fenced g then d else d.busStore s a v
    | _ => d
  | .rmw a v m =>
    match at_ a with
    | .mboxOut => d.setReg out (BitVec.ofNat 32 (masked (d.reg out).toNat v m))
    | .unit g => if fenced g then d else let (old, d) := d.free 32; d.busStore s a (masked old v m)
    | _ => d

/-- A bus access is issued: none decodes it and the sequencer faults; a unit of a fenced gallery completes at once, reading
0; otherwise the sequencer stalls (R321, R323). -/
def Device.busIssue (d : Device) (s a : Nat) (b : SeqBus) : Device :=
  match Config.busMap (roleOf s) a with
  | .nothing => d.seqFault s 2
  | .unit (some g) =>
    if d.isFenced g.toNat then
      let d := match b with
        | .ld _ dst => d.modSeq s fun q => q.put dst 0
        | _ => d
      d.seqFlow s
    else d.modSeq s fun q => { q with bus := some b }
  | _ => d.modSeq s fun q => { q with bus := some b }

/-- A Lower Hall transfer is started. -/
def Device.lhIssue (d : Device) (s addr ofs units : Nat) (toScratch : Bool) : Device :=
  match d.lhBudget s addr units with
  | none => d.seqFault s 4
  | some (act, inst) =>
    (d.modSeq s fun q => { q with lhDone := false, lh := q.lh ++ [⟨toScratch, addr, ofs, units, act, inst⟩] }).seqFlow s

/-- The operation of a word, and then its flow (R320, R321). -/
def Device.seqOp (d : Device) (s w : Nat) : Device :=
  let q := d.seqSt s
  let a := q.reg (mwA w)
  let b := q.reg (mwB w)
  let dst := mwDst w
  let imm := mwImm w
  let op := mwOp w
  let put (v : Nat) : Device := (d.setSeq s (q.put dst v)).seqFlow s
  let addr := mwBus w + a
  if op = 0x01 then put imm
  else if op = 0x02 then (d.setSeq s (q.add dst a b)).seqFlow s
  else if op = 0x03 then (d.setSeq s (q.add dst a imm)).seqFlow s
  else if op = 0x04 then
    let (cb, d) := d.free 1
    (d.setSeq s (q.sub dst a b cb)).seqFlow s
  else if op = 0x05 then put (a &&& b)
  else if op = 0x06 then put (a ||| b)
  else if op = 0x07 then put (a ^^^ b)
  else if op = 0x08 then put (a * 2 ^ (imm % 32))
  else if op = 0x09 then put (a / 2 ^ (imm % 32))
  else if op = 0x0A then d.busIssue s addr (.ld addr dst)
  else if op = 0x0B then d.busIssue s addr (.st addr b)
  else if op = 0x0C then d.busIssue s addr (.rmw addr b (mwMask w))
  else if op = 0x0D then
    let back := match q.lost with
      | some (ev, at_) => if at_ = d.absCyc then some ev else none
      | none => none
    let d := d.setSeq s { q.put dst (q.evq.headD 0) with evq := q.evq.drop 1 ++ back.toList, lost := none }
    (if back.isSome then d.uncount (A.SEQ_SQ_CNT s 2) else d).seqFlow s
  else if op = 0x0E then d.lhIssue s a b (imm % 256 + 1) true
  else if op = 0x0F then d.lhIssue s a b (imm % 256 + 1) false
  else if op = 0x10 then
    ((d.setW1c (A.SEQ_SQ_SIG s) (imm % 32)).raise 0x60000 5).seqFlow s
  else d.seqFlow s

/-- MICROWORD_ISSUE: sequencer `s` issues its word under its issue budget, at most one in a core cycle (R318, R320). -/
def microwordIssue (d : Device) (s cyc : Nat) : Device :=
  let d := d.atCyc cyc
  let q := d.seqSt s
  if q.st ≠ .running ∨ q.bus.isSome ∨ q.issuedAt = some d.absCyc ∨ d.dev.state = .thermal then d
  else if !d.canAdmit 0x0F s 1 1 d.stroke.cyc 0 then d.mustWait 0x0F s 0 1
  else
    let d := ((d.spend 0x0F s 1 0).count (A.SEQ_SQ_CNT s 0)).event none 0x8006 1 (some s) {}
    let d := d.modSeq s fun q => { q with issued := d.strokeNo, issuedAt := some d.absCyc }
    let w := d.seqWord s
    if q.bad.contains ((d.role (roleOf s)).active, q.pc) then d.seqFault s 3
    else if mwBad w then d.seqFault s 1
    else d.seqOp s w

/-- WAIT_CONDITION_MET: the condition of the word that sequencer `s` waits at holds, in a stroke that the maturing boundary ends
at the latest (R42, R320). -/
def waitConditionMet (d : Device) (s cyc : Nat) : Device :=
  let d := d.atCyc cyc
  let d := d.seqLook s
  if (d.seqSt s).st = .waiting ∧ (d.seqSt s).held then
    let dest := mwNext (d.seqWord s)
    d.modSeq s fun q => { q with st := .running, pc := dest, due := none, held := false }
  else d

/-- BUS_ACCESS_COMPLETE: sequencer `s`'s access completes, and the sequencer goes on (R321). -/
def busAccessComplete (d : Device) (s cyc : Nat) : Device :=
  let d := d.atCyc cyc
  match (d.seqSt s).bus with
  | none => d
  | some b =>
    let d := (d.modSeq s fun q => { q with bus := none }).busEffect s b
    if (d.seqSt s).st = .running then d.seqFlow s else d

/-- The place of a Lower Hall unit in the time ledger's ring: its ring index (R274). -/
def Device.lhRing (d : Device) (unit : Nat) : Option Nat :=
  let bs := d.billetsOf 98
  let k := bs.findIdx fun b => decide (ptrAddr b ≤ 64 * unit ∧ 64 * unit < ptrAddr b + 16384)
  (bs[k]?).map fun b => 256 * k + (64 * unit - ptrAddr b) / 64

/-- The 512 bits of a Lower Hall unit: a record of the ledger, or what a sequencer wrote there last; what else lies there the spec
does not state, and a free value stands for it (log entry 9). -/
def Device.lhLoad (d : Device) (unit : Nat) : Nat × Device :=
  match (d.lhRing unit).map fun k => tabGet (fun _ => ([] : Bytes)) d.ledger.ring k with
  | some (b :: bs) => (leNat (b :: bs), d)
  | _ => match tnat d.seq.lhMem unit with
    | 0 => d.free 512
    | v + 1 => (v, d)

/-- A Lower Hall unit is written. -/
def Device.lhStore (d : Device) (unit v : Nat) : Device :=
  match d.lhRing unit with
  | some k => { d with ledger := { d.ledger with ring := tabSet (fun _ => ([] : Bytes)) d.ledger.ring k (leBytes 64 v) } }
  | none => { d with seq := { d.seq with lhMem := tnatSet d.seq.lhMem unit (v + 1) } }

/-- One unit of a transfer; scratch that nothing has filled holds a free value. -/
def Device.lhMove (d : Device) (s : Nat) (t : SeqLh) (i : Nat) : Device :=
  if t.toScratch then
    let (v, d) := d.lhLoad (t.addr + i)
    d.modSeq s fun q => { q with scratch := tnatSet q.scratch (t.ofs + i) (v + 1) }
  else
    match tnat (d.seqSt s).scratch (t.ofs + i) with
    | 0 => let (v, d) := d.free 512; d.lhStore (t.addr + i) v
    | v + 1 => d.lhStore (t.addr + i) v

/-- LH_TRANSFER_COMPLETE: the oldest Lower Hall transfer of sequencer `s` completes under its budget (R321). Address and scratch
offset count 64-byte units (log entry 9). -/
def lhTransferComplete (d : Device) (s : Nat) : Device :=
  match (d.seqSt s).lh with
  | [] => d
  | t :: rest =>
    let (d, whole) := d.inPieces t.act t.inst t.units (5000000 + s)
    if !whole then d
    else
      let d := d.event none 0x8003 t.units (some (t.addr / 1024)) {}
      let d := (List.range t.units).foldl (fun d i => d.lhMove s t i) d
      (d.modSeq s fun q => { q with lh := rest, lhDone := rest.isEmpty }).seqLook s

/-- SEQ_EVENT_POST: a unit posts an event to sequencer `s`; one that finds 64 queued is lost (R322), unless a POP of the same
cycle makes room for it (R330). -/
def seqEventPost (d : Device) (s ev : Nat) : Device :=
  if 64 ≤ (d.seqSt s).evq.length then
    let d := d.count (A.SEQ_SQ_CNT s 2)
    if ((d.seqSt s).lost.map (·.2)) = some d.absCyc then d
    else d.modSeq s fun q => { q with lost := some (ev, d.absCyc) }
  else (d.modSeq s fun q => { q with evq := q.evq ++ [ev] }).seqLook s

-- Registers (R329) -------------------------------------------------------------------------------------------------

/-- IMAGE_LOAD and IMAGE_SWITCH: RL_CMD of role `r` is written. One that finds a load or switch of the role in progress
answers BUSY; a switch to a bank that is not VALID is ignored (R326, R328, R330). -/
def rlCmdWrite (d : Device) (src : Source) (r : Nat) (w : Word) : Device :=
  let a := A.SEQ_RL_CMD (r - 1)
  let d := d.setReg a (w &&& 0x1C#32)
  let busy (d : Device) : Bool := (d.role r).load.isSome || (d.role r).switchBy.isSome
  let d := if F.SEQ_RL_CMD_LOAD.get w = 0 then d
    else if busy d then d.modRole r fun v => { v with result := 9 }
    else
      let job : SeqLoad := { addr := d.pair (A.SEQ_RL_LOAD_ADDR_LO (r - 1)) (A.SEQ_RL_LOAD_ADDR_HI (r - 1)) / 64 * 64
                             len := d.fld (A.SEQ_RL_LOAD_LEN (r - 1)) F.SEQ_RL_LOAD_LEN_LEN
                             cls := F.SEQ_RL_CMD_LOAD_CLASS.get w }
      d.modRole r fun v => { v.setIdle { v.idle with st := 1 } with load := some job }
  if F.SEQ_RL_CMD_SWITCH.get w = 0 then d
  else if busy d then d.modRole r fun v => { v with result := 9 }
  else if (d.role r).idle.st ≠ 2 then d.refuse src a
  else d.modRole r fun v => { v with switchBy := some (d.strokeNo + 8192) }

/-- SEQ_RESTART and SEQ_STOP: SQ_CTRL of sequencer `s` is written (R329). -/
def sqCtrlWrite (d : Device) (src : Source) (s : Nat) (w : Word) : Device :=
  let d := if F.SEQ_SQ_CTRL_RESTART.get w = 0 then d
    else if (d.role (roleOf s)).live.st ≠ 2 then d.refuse src (A.SEQ_SQ_CTRL s)
    else d.modSeq s fun q => { q with restart := true }
  if F.SEQ_SQ_CTRL_STOP.get w = 0 then d else d.modSeq s fun q => { q with stop := true }

/-- MBOX_WRITE: SQ_MBOX_IN of sequencer `s` is written (R329). -/
def mboxWrite (d : Device) (s : Nat) (w : Word) : Device :=
  ((d.setReg (A.SEQ_SQ_MBOX_IN s) w).modSeq s fun q => { q with mbox := true }).seqLook s

/-- SQ_FLAGS of sequencer `s` is written (R322, R329). -/
def sqFlagsWrite (d : Device) (s : Nat) (w : Word) : Device := (d.setReg (A.SEQ_SQ_FLAGS s) (w &&& 0xFFFF#32)).seqLook s

-- Images (R325, R326) ----------------------------------------------------------------------------------------------

/-- The key hash that KEY_SEL names: the Idzan root, or an enrolled customer slot. -/
def Device.seqKeyHash (d : Device) (sel : Nat) : Option Bytes :=
  if sel = 0 then some (beBytes 48 Config.idzanRootHash.toNat)
  else if 4 < sel ∨ d.fld (A.SEQ_CKEY_VALID (sel - 1)) F.SEQ_CKEY_VALID_VALID = 0 then none
  else some ((List.range 12).flatMap fun j => beBytes 4 (d.cfg (A.SEQ_CKEY (sel - 1) j)).toNat)

/-- The first check of R326 that an image header fails: its result code, for a load of `len` bytes for role `r`. -/
def Device.headerFails (d : Device) (r len : Nat) (h : Bytes) : Option Nat :=
  let words := beAt h 6 2
  if beAt h 0 4 ≠ 0x5259494E ∨ byteAt h 4 ≠ 1 then some 1
  else if byteAt h 5 ≠ r then some 2
  else if words = 0 ∨ 32768 < words ∨ len ≠ 256 + 32 * words ∨ words ≤ beAt h 8 2 then some 3
  else match d.seqKeyHash (byteAt h 14) with
    | none => some 4
    | some hash =>
      if sha384 (sliceBytes h 64 96) ≠ hash then some 5
      else if beAt h 10 4 < (d.reg (A.SEQ_RL_SVN_MIN (r - 1))).toNat then some 6
      else none

/-- What is signed of an image, and its digest (R325). -/
def imageDigest (img : Bytes) : Bytes := sha384 (img.take 160 ++ img.drop 256)

/-- The microwords of an image body, little-endian. -/
def imageWords (img : Bytes) : Tab Nat :=
  (List.range (beAt img 6 2)).foldl (fun t j => tnatSet t j (leAt img (256 + 32 * j) 32)) []

/-- The bank that a verified image makes. -/
def imageBank (img : Bytes) : SeqBank :=
  { st := 2, words := imageWords img, entry := beAt img 8 2, svn := beAt img 10 4, digest := imageDigest img }

/-- The result of checking a whole image (R326): 0, or the first check that failed. -/
def Device.imageResult (d : Device) (r len : Nat) (img : Bytes) : Nat :=
  match d.headerFails r len img with
  | some c => c
  | none => if ecdsaVerify (sliceBytes img 64 96) (imageDigest img) (sliceBytes img 160 96) then 0 else 7

/-- A load ends with a result: the idle banks are VALID, or cleared and INVALID (R326). -/
def Device.loadEnds (d : Device) (r result : Nat) (bank : SeqBank) : Device :=
  let other := 1 - (d.role r).active
  let d := (roleSeqs r).foldl (fun d s => d.modSeq s fun q => { q with bad := q.bad.filter fun b => b.1 ≠ other }) d
  let d := d.modRole r fun v => { v.setIdle (if result = 0 then bank else { st := 3 }) with load := none, result := result }
  d.raise 0x60000 (if result = 0 then 1 else 2)

/-- IMAGE_LOAD_DONE: the image of role `r` has been read from host memory, under the host DMA budget of its class, and is
checked. A read that may not be issued is taken as a failed one (R326). -/
def imageLoadDone (d : Device) (r : Nat) (img : Bytes) : Device :=
  match (d.role r).load with
  | none => d
  | some l =>
    let waits := match l.retryAt with
      | some t => !d.matured t
      | none => false
    if waits then d
    else if !d.busOn 0 ∨ !d.inWindow 0 l.addr (max 256 l.len) then d.loadEnds r 8 {}
    else
      let need := if (d.headerFails r l.len img).isSome then 256 else l.len
      let (d, n) := d.takePieces 0x0E l.cls need l.paid (6000000 + r)
      if l.paid + n < need then d.modRole r fun v => { v with load := some { l with paid := l.paid + n } }
      else
        let d := d.event none 0x8005 need none { fn := some 0 }
        let res := d.imageResult r l.len img
        d.loadEnds r res (imageBank img)

/-- IMAGE_READ_TIMEOUT of a role's image: the read of its header, or of its body, is retried once after 1 ms, and then the load ends
(R326). -/
def roleReadTimeout (d : Device) (r : Nat) : Device :=
  match (d.role r).load with
  | none => d
  | some l =>
    let body := decide (256 ≤ l.paid)
    if (if body then l.lateBody else l.late) then (d.readTimedOut 0 (0x10000 + r) 0).loadEnds r 8 {}
    else (d.readTimedOut 0 (0x10000 + r) 2).modRole r fun v => { v with load := some { l with
      late := l.late || !body, lateBody := l.lateBody || body, retryAt := some (d.now + msT 1) } }

-- Switching (R328) -------------------------------------------------------------------------------------------------

/-- Lanes that held their states go on with bring-up when their sequencer runs again (R324). -/
def Device.linkResume (d : Device) (s : Nat) : Device :=
  if roleOf s ≠ 1 then d
  else (d.lane.lanes.map (·.1)).foldl (fun d l =>
    if l / 256 = s ∧ (d.laneSt l).st = .waitSignal then
      match d.portOf l with
      | some p => d.tryStart p
      | none => d
    else d) d

/-- Start a sequencer at the ENTRY of its active bank. -/
def Device.seqStart (d : Device) (s : Nat) : Device :=
  let e := (d.role (roleOf s)).live.entry
  (d.modSeq s fun q => { q with
    st := .running, pc := e, due := none, held := false, faultAddr := 0, faultCode := 0, restart := false, stop := false }).linkResume s

/-- The sequencer may be switched at this boundary. -/
def Device.seqSafe (d : Device) (s : Nat) : Bool :=
  let q := d.seqSt s
  q.st == .halted || q.st == .fault || mwSafe (d.seqWord s)

/-- A switch of role `r` is made at the boundary that has just been: each of its sequencers is safe and its idle bank VALID, within
8,192 strokes of the request (R326, R328). -/
def Device.switchNow (d : Device) (r : Nat) : Bool :=
  (d.role r).idle.st == 2 && ((d.role r).switchBy.map fun t => decide (d.strokeNo ≤ t + 1)).getD false && d.stroke.cyc == 0 &&
    (roleSeqs r).all d.seqSafe

/-- A bus access that was issued completes (R328). -/
def Device.busFinish (d : Device) (s : Nat) : Device :=
  match (d.seqSt s).bus with
  | some b => (d.modSeq s fun q => { q with bus := none }).busEffect s b
  | none => d

/-- IMAGE_SWITCH_MADE: right after a boundary at which every sequencer of role `r` is safe, the banks exchange (R328). -/
def imageSwitchMade (d : Device) (r : Nat) : Device :=
  if !d.switchNow r then d
  else
    let d := (roleSeqs r).foldl (fun d s => d.busFinish s) d
    let d := d.modRole r fun v => { v with active := 1 - v.active, switchBy := none, result := 0 }
    let d := (roleSeqs r).foldl (fun d s =>
      (d.modSeq s fun q => { q with g := [], z := false, n := false, c := false, v := false }).seqStart s) d
    d.raise 0x60000 3

/-- WAIT_TIMEOUT: the timer of that word has matured (R320). A condition that held in a stroke up to the boundary wins, and a switch
made at the same boundary discards the timer (R330). -/
def waitTimeout (d : Device) (s : Nat) : Device :=
  let q := d.seqSt s
  if q.st = .waiting ∧ q.held then
    let dest := mwNext (d.seqWord s)
    d.modSeq s fun q => { q with st := .running, pc := dest, due := none, held := false }
  else if q.st = .waiting ∧ q.late d.strokeNo ∧ !d.switchNow (roleOf s) then
    let dest := mwAlt (d.seqWord s)
    (d.modSeq s fun q => { q with st := .running, pc := dest, due := none }).count (A.SEQ_SQ_CNT s 1)
  else d

/-- IMAGE_SWITCH_TIMEOUT: a switch not made within 8,192 strokes is abandoned (R328). -/
def imageSwitchTimeout (d : Device) (r : Nat) : Device :=
  match (d.role r).switchBy with
  | none => d
  | some t => if t < d.strokeNo then d.modRole r fun v => { v with switchBy := none, result := 0xA } else d

/-- The sequencers at a boundary: STOP, and RESTART of an active bank that is VALID; a switch that this boundary makes starts
the sequencer instead (R329, R330). A bus access that was issued completes before a restart. -/
def Device.seqBoundary (d : Device) : Device :=
  (List.range 16).foldl (fun d s =>
    let q := d.seqSt s
    if q.stop then d.modSeq s fun q => { q with st := .halted, stop := false, restart := false, due := none }
    else if q.restart ∧ !d.switchNow (roleOf s) then (d.busFinish s).seqStart s
    else d) d

end Sys2Proof.Machine
end

