-- ==== Sys2Proof/Machine/Fence.lean ====
section
/-! DEFINITION. The device state's entry to RUN or DEGRADED, and fencing a gallery (R25 to R34). -/

namespace Sys2Proof.Machine

/-- The device moves to another state (R26). -/
def Device.toState (d : Device) (st : DevState) : Device :=
  if d.dev.state = st then d
  else ({ d with dev := { d.dev with state := st } }).raise 0 0

-- What a fence leaves in the halls ---------------------------------------------------------------------------------

/-- What the fence of gallery `n` makes of a copy is recorded: the drop, marked stomped where its transmission is cut, the egress
mirror copies it had asked for, and the end of its packet's life (R31). -/
def Device.fenceLoss (d : Device) (c : Copy) (f : Frame) (n : Nat) (cut : Bool) : Device :=
  let d := d.loseOne f (d.dropInfoOf f 0xB0 n c.queue (d.queueSt c.queue).held c.pass c.kind f.knownLen false cut)
  let d := d.loseEgMirrors f c 0xB0 n
  if d.othersLive c.frame (some c.uid) then d else d.flowCopy c (some 0xB0) none

/-- A copy in transmission is cut by the fence of gallery `n`: it is recorded now, and the cells it still holds wait for the discard,
as those of every other packet do (R31). -/
def Device.fenceCut (d : Device) (c : Copy) (n : Nat) : Device :=
  match d.frame c.frame with
  | none => d.endCopy c.uid
  | some f => ((d.fenceLoss c f n true).stopSending c.uid).modCopy c.uid fun c =>
      { c with phase := .queued, lost := true, est := false, egMirrors := [] }

/-- A copy is discarded for the fence of gallery `n`: its record, where it has none yet, and its cells or billets. -/
def Device.fenceCopy (d : Device) (c : Copy) (n : Nat) : Device :=
  match d.frame c.frame with
  | none => d.endCopy c.uid
  | some f =>
    let d := if c.lost then d else d.fenceLoss c f n false
    let d := { d with billet := { d.billet with discards := d.billet.discards ++ c.billets.map fun b => (n, b) } }
    (d.modCopy c.uid fun c => { c with egMirrors := [] }).endCopy c.uid

/-- A packet in ingress is discarded. -/
def Device.fenceFlight (d : Device) (x : Flight) : Device :=
  match d.frame x.id with
  | none => d.endFlight x.id
  | some f =>
    let d := d.loseOne f (d.flightInfo x f 0xB0 none)
    let d := ((d.freeStair x f.inPort).endFlight x.id).flowOfFlight x
    let d := if d.othersLive x.id none then d else d.flowFinish x.id (some 0xB0) none
    d.releaseFrame x.id

/-- A trapped packet that waits for its host ring is discarded too. DESIGN CHOICE (log entry 29): R31 speaks of packets in
the halls, and does not say whether one that the fenced gallery has trapped is still written to its ring. -/
def Device.fenceTrap (d : Device) (t : TrapPkt) : Device :=
  let d := { d with host := { d.host with traps := d.host.traps.filter fun u => u ≠ t } }
  match d.frame t.frame with
  | none => d
  | some f =>
    let d := d.loseOne f
      { code := 0xB0, gal := t.gal, inPort := f.inPort, iclass := f.iclass, pass := t.pass, len := f.knownLen,
        stamp := f.stamp, h0 := f.h0, key := f.flowKey, host := f.ring.isSome, org := (d.evOf f t.pass false).origin,
        fn := (d.evOf f t.pass false).fn }
    let d := if d.othersLive t.frame none then d else d.flowFinish t.frame (some 0xB0) none
    d.releaseFrame t.frame

/-- Cells that a doomed copy holds in the shared pool count against the fenced gallery's reserved minima until they are
returned (R31). -/
def Device.fenceCharge (d : Device) (c : Copy) (inPort : Nat) : Device :=
  let to_ : Charge := if d.isFenced (queueGal c.queue) ∧ c.queue < 16384 then .qMin else .iMin inPort
  let d := c.charges.foldl (fun d (x : Charge × Nat) =>
    if x.1.shared then (d.dropCharge c.queue x.1 x.2).addCharge c.queue to_ x.2 else d) d
  d.modCopy c.uid fun c => { c with charges := c.charges.map fun x => if x.1.shared then (to_, x.2) else x }

/-- The same for a packet on the stair of a fenced gallery. -/
def Device.fenceStair (d : Device) (x : Flight) (inPort : Nat) : Device :=
  let k := x.stairShared
  let d := ((d.dropCharge 0 (.iShared inPort) k).addCharge 0 (.iMin inPort) k).gainShared k
  d.setFlight { x with stairMin := x.stairMin + k, stairShared := 0 }

/-- The shared charges that a fence moves, and the shared cells it gives back. -/
def Device.fenceCharges (d : Device) : Device :=
  let d := d.hall.copies.foldl (fun d c =>
    match d.doomedBy c, d.frame c.frame with
    | some _, some f => d.fenceCharge c f.inPort
    | _, _ => d) d
  let d := d.pkt.flights.foldl (fun d x =>
    match d.frame x.id with
    | some f => if d.isFenced x.gal then d.fenceStair x f.inPort else d
    | none => d) d
  d.pkt.frames.foldl (fun d e =>
    let mine := d.hall.copies.filter fun c => c.frame = e.1
    if !mine.isEmpty && (mine.all fun c => (d.doomedBy c).isSome) then
      (d.gainShared e.2.sharedTaken).modFrame e.1 fun f => { f with sharedTaken := 0 }
    else d) d

/-- The gallery that a charge to be released counts for. -/
def chargeGal (q : Nat) : Charge → Nat
  | .iMin p | .iShared p => p / 32
  | _ => queueGal q

/-- Gallery `n` holds nothing in either hall (R31): no packet, no cell that is still to be returned, and no billet of its spill
engine, of its anvils or of a packet discarded for it. -/
def Device.fenceClear (d : Device) (n : Nat) : Bool :=
  !(d.pkt.flights.any fun x => x.gal = n && 0 < x.stairMin + x.stairShared) &&
  !(d.host.traps.any fun t => t.gal = n) &&
  !(d.hall.copies.any fun c => queueGal c.queue = n || ((d.frame c.frame).map (·.gal)) == some n) &&
  !(d.hall.releasing.any fun r => chargeGal r.1 r.2.1 = n) &&
  !(d.billet.discards.any fun e => e.1 = n && d.billet.freeing.any fun x => x.2 = e.2) &&
  !((d.billet.freeing.map (·.1) ++ d.billet.granted.map (·.1)).any fun r => r = n || r = 32 + 2 * n || r = 33 + 2 * n)

/-- FENCE_DISCARD_DONE: a fenced gallery that holds nothing any more shows DONE (R31). -/
def Device.fenceDoneBoundary (d : Device) : Device :=
  let d := { d with billet := { d.billet with
    discards := d.billet.discards.filter fun e => d.billet.freeing.any fun x => x.2 = e.2 } }
  (List.range 32).foldl (fun d n =>
    if d.isFenced n ∧ !bit d.dev.fenceDone.toNat n ∧ d.fenceClear n then
      ({ d with dev := { d.dev with fenceDone := d.dev.fenceDone ||| BitVec.ofNat 32 (2 ^ n) } }).raise 0 2
    else d) d

-- The fence --------------------------------------------------------------------------------------------------------

/-- The lanes of a fenced gallery that carry no enabled port transmit electrical idle: they are DISABLED, and no bring-up
moves them any more (R30, R76; DEDUCED). A lane that is RETIRED stays so (R83). -/
def Device.idleLanes (d : Device) (n : Nat) : Device :=
  (List.range 32).foldl (fun d k =>
    let l := 32 * n + k
    if (d.laneSt l).st = .faultTx ∨ (d.laneSt l).st = .retired then d else d.laneTo l .disabled) d

/-- A frame that a fence meets while it is received, or before its integrity check, is not received further and not checked any
more: what other galleries' copies, meters and counters still owe of its length is settled on what has come (R30, R34, R216,
R223, R252). -/
def Device.fenceFrame (d : Device) (id : Nat) : Device :=
  match d.frame id with
  | none => d
  | some f =>
    let d := (d.setFrame { f with ended := true, checked := true, secOpen := false, deferred := [] }).endReceiving id
    (d.countEnq id).settleEnd id

/-- A port of a fenced gallery goes down; its queued packets stay for the discard, and its lanes send the fault sequence
(R30, R34). A retrain charged in the stroke that the fence ends is taken back, and a retirement by it (R87). -/
def Device.fencePort (d : Device) (p : Nat) : Device :=
  let d := if d.portEn p then
      (d.portLanes p).foldl (fun d l =>
        let s := d.laneSt l
        let d := if s.chargeIn ≠ 0 ∧ d.strokeNo ≤ s.chargeIn then d.uncharge l else d
        if (d.laneSt l).st = .retired then d else d.laneTo l .faultTx) d
    else d
  let d := (d.modBring p fun b => { b with trainBy := none, wokeAt := none, upDue := false }).settleFault p
  if !(d.port p).up then d
  else
    let d := d.modPort p PortSt.lose
    let d := match d.receivingOn p with
      | some f => d.fenceFrame f.id
      | none => d
    (d.showPort p).modBring p fun b => { b with downSince := d.now }

/-- Copies in transmission when the fence takes effect: on a port of the fenced gallery they are cut; on another port one
whose last cell the fenced gallery had not written is ended with an inverted FCS (R31). `open_` lists the frames that were
still being received. -/
def Device.fenceSending (d : Device) (n : Nat) (open_ : List Nat) : Device :=
  (d.hall.copies.filter fun c => c.phase = .sending).foldl (fun d c =>
    let mine := queueGal c.queue = n
    let cutOff := (((d.frame c.frame).map (·.gal)) == some n) && open_.contains c.frame
    if mine then d.fenceCut c n
    else if cutOff then (d.stompOut c).fenceCut c n
    else d) d

/-- Everything that stops in gallery `n` (R30). A packet in its pipeline that holds no cell is discarded at once, and the
billet requests of its spill engine and its anvils are withdrawn (DEDUCED, log entry 29). -/
def Device.fenceOne (d : Device) (n : Nat) : Device :=
  let open_ := d.pkt.frames.filterMap fun e => if e.2.gal = n ∧ !e.2.ended then some e.1 else none
  let late := d.pkt.frames.filterMap fun e => if e.2.gal = n ∧ !(e.2.ended && e.2.checked) then some e.1 else none
  let d := ((List.range 32).foldl (fun d k => d.fencePort (32 * n + k)) d).idleLanes n
  let d := late.foldl (fun d id => d.fenceFrame id) d
  let d := d.fenceSending n open_
  let d := (List.range 4).foldl (fun d k => d.setLink (4 * n + k) ((d.linkSt (4 * n + k)).wake 0)) d
  let d := late.foldl (fun d id => d.releaseFrame id) d
  let d := d.anvil.groups.foldl (fun d e => if e.2.valid ∧ d.gAnvil e.1 / 2 = n then d.disableGroup e.1 else d) d
  let d := [n, 32 + 2 * n, 33 + 2 * n].foldl (fun d r => d.dropAsks r fun _ => true) d
  (d.pkt.flights.filter fun x => x.gal = n ∧ x.stairMin + x.stairShared = 0).foldl (fun d x => d.fenceFlight x) d

/-- An interruption of the forwarding function ends: its time counts in INT_US, which the record carries on (R403). -/
def Device.endInterruption (d : Device) : Device :=
  match d.ras.intFrom with
  | none => d
  | some t =>
    let d := d.countN (rasCnt 6) ((d.now - t) / usT 1)
    { d with ras := { d.ras with intFrom := none, intTo := d.now, writeBy := some (d.ras.writeBy.getD (d.now + msT 100)) } }

/-- A fatal fault takes effect with its fence, whether or not a gallery is left to fence, and forwarding is interrupted from here on;
another fence ends what watchdog periods interrupted, once none is left (R397, R403). -/
def Device.fenceFatal (d : Device) : Device :=
  let left := d.ras.stuck.filter fun n => !d.isFenced n
  let freed := decide (d.ras.stuck ≠ [] ∧ left = [])
  let d := { d with ras := { d.ras with stuck := left } }
  let d := if freed || d.ras.fatalDue then d.endInterruption else d
  if d.ras.fatalDue then
    ({ d with ras := { d.ras with fatal := true, fatalPending := false, fatalDue := false, intFrom := some d.now } }).raise 0x50000 2
  else d

/-- GALLERY_FENCE: at the boundary every gallery whose fence is due is fenced, all together (R30 to R34). -/
def galleryFence (d : Device) : Device :=
  let due := d.dev.fenceDue &&& ~~~ d.dev.fenced
  if due = 0#32 then ({ d with dev := { d.dev with fenceDue := 0 } }).fenceFatal
  else
    let ns := (List.range 32).filter fun n => bit due.toNat n
    let d := { d with dev := { d.dev with
      fenced := d.dev.fenced ||| due
      fenceReq := d.dev.fenceReq &&& ~~~ due
      hwFence := d.dev.hwFence &&& ~~~ due
      fenceDue := 0
      fenceGen := d.dev.fenceGen ++ ns.map fun n => (n, d.gen.active) } }
    let d := ns.foldl (fun d n => d.fenceOne n) d
    let d := d.fenceCharges.raise 0 1
    let d := if d.dev.state == .run then d.toState .degraded else d
    d.fenceFatal.fenceDoneBoundary

/-- A write of TOP.GAL_FENCE_REQ: a gallery already fenced is not fenced again (R29). -/
def fenceReqWrite (d : Device) (w : Word) : Device :=
  { d with dev := { d.dev with fenceReq := d.dev.fenceReq ||| (w &&& ~~~ d.dev.fenced) } }

/-- Tags of a discard's budget requests: for a packet on the stair, and for a copy. -/
def stairTag (id : Nat) : Nat := 0x10000000 + 4 * id
def copyTag (uid : Nat) : Nat := 0x10000000 + 4 * uid + 1

/-- FENCE_DISCARD_STEP: housekeeping discards one packet of a fenced gallery, its cells under the Upper Hall budget, or its
units under the Lower Hall budget where it is spilled (R31). -/
def fenceDiscardStep (d : Device) : Device :=
  if !d.seqOn 15 then d
  else match d.pkt.flights.find? fun x => d.isFenced x.gal with
    | some x =>
      let (d, whole) := d.inPieces 0x11 0 (x.stairMin + x.stairShared) (stairTag x.id)
      if whole then d.fenceFlight x else d
    | none => match d.host.traps.find? fun t => d.isFenced t.gal with
      | some t => d.fenceTrap t
      | none => match d.hall.copies.find? fun c => d.doomed c with
        | none => d
        | some c =>
          let n := (d.doomedBy c).getD 0
          let len := ((d.frame c.frame).map fun f => c.bytesOf f).getD 0
          let spilled := c.seg = .middle
          let (d, whole) := if spilled then d.inPieces 0x12 0 (spillUnits len) (copyTag c.uid)
            else d.inPieces 0x11 0 c.cells (copyTag c.uid)
          if !whole then d
          else (if spilled then d.lhMoved (spillUnits len) (c.billets.head?.map lhAttr) else d).fenceCopy c n

-- GO (R26, R28) ----------------------------------------------------------------------------------------------------

/-- A write of TOP.DEV_CTRL: GO asks for RUN or DEGRADED, and outside CONFIG is recorded as an error. Galleries that the
retirement record names are fenced at the same boundary (R400). -/
def devGoWrite (d : Device) (src : Source) (w : Word) : Device :=
  if !bit w.toNat 0 then d
  else if d.dev.state ≠ .config then d.refuse src A.TOP_DEV_CTRL
  else { d with dev := { d.dev with
    goPending := true, hwFence := d.dev.hwFence ||| BitVec.ofNat 32 d.ras.fenceAtGo } }

/-- The billet that contains a 64-byte unit of the Lower Hall; none in the system area (R195, R196). -/
def Device.billetAt (d : Device) (unit : Nat) : Option Nat :=
  let a := unit / 4
  ((List.range 4).find? fun p => decide (poolBase d.billet.units p ≤ a ∧ a < poolBase d.billet.units (p + 1))).map fun p =>
    d.billetPtr p ((a - poolBase d.billet.units p) / 4 ^ p)

/-- The ledger takes its 4,096 billets, where its reserve holds them (R274). -/
def Device.ledgerTake (d : Device) : Device :=
  if d.reserveHolds 4 3 4096 then ({ d with ledger := { d.ledger with granted := true } }).bulkAsk 98 3 4096
  else { d with ledger := { d.ledger with granted := false, ring := [] } }

/-- The storage taken at the transition to RUN or DEGRADED: the pools are split, then the ledger, the extension table and
the flow table take their billets (R195, R274, R164, R280). -/
def Device.takeStorage (d : Device) : Device :=
  let d := d.poolSplit
  let d := { d with billet := { d.billet with quarantined := d.ras.lhQuar.filterMap d.billetAt } }
  d.ledgerTake.extBuild.flowBilletsTake

/-- ENTER_RUN: at the boundary after GO, after any fence of that boundary, the device enters RUN or DEGRADED (R26, R33). -/
def enterRun (d : Device) : Device :=
  if !d.dev.goDue ∨ d.dev.state ≠ .config ∨ d.dev.fenceDue ≠ 0#32 then d
  else
    let d := { d with dev := { d.dev with goPending := false, goDue := false } }
    d.endInterruption.takeStorage.toState (if d.dev.fenced = 0#32 then .run else .degraded)

end Sys2Proof.Machine
end

