-- ==== Sys2Proof/Machine/Gen.lean ====
section
/-! DEFINITION. Generations, operating profiles and counter snapshots (R43 to R55, R64 to R69, R119, R120). -/

namespace Sys2Proof.Machine

-- Regions in the way of a staged profile (R65) -----------------------------------------------------------------------

/-- Pool rows of a region that the staged profile takes away (R65). -/
def Device.leavingRows (d : Device) (region : Nat) : List Nat :=
  d.table.pool.filterMap fun e =>
    if blockRegion d.profile.active (e.1 / 65536) = region ∧ d.vacating e.1 then some e.2 else none

/-- LPM units that a row's prefixes take: an IPv6 prefix takes two (R58). -/
def lpmUnits (row : Nat) : Nat :=
  let e := lpmUnit row 0
  if emGm e ≠ 0 ∧ bit e 2 then 2 else (if emGm e = 0 then 0 else 1) + (if emGm (lpmUnit row 1) = 0 then 0 else 1)

/-- Cells charged to the headroom pool of galleries that are not FENCED: a profile change is checked against the remaining
galleries (R33). -/
def Device.heldHeadroom (d : Device) : Nat :=
  (d.hall.classes.map fun e => if d.isFenced (e.1 / 128) then 0 else e.2.heldHdrm).sum

/-- REMAIN of each region, and whether it stops a flip to the staged profile: what R65 counts, and re-placement still
under way (R159). -/
def Device.inTheWay (d : Device) : List (Nat × Nat × Bool) :=
  let a := d.profile.active
  let s := d.profile.staged
  let entries (r : Nat) : Nat := ((d.leavingRows r).map fun row => (emEntries row).length).sum
  let moves : Bool := profF a != profF s || profE a != profE s
  let walk : Option Nat := if moves then d.table.replacing.map Replacing.left else none
  let units := ((d.leavingRows 2).map lpmUnits).sum
  let spilled := if profSpill s then 0
    else (d.hall.copies.map fun c => if d.isFenced (queueGal c.queue) then 0 else c.billets.length).sum
  let classes := ((List.range 1024).filter fun p =>
    !d.isFenced (p / 32) && decide (profLossless s < (d.losslessPris p).length)).length
  let plain (code n : Nat) : Nat × Nat × Bool := (code, n, n != 0)
  [(1, walk.getD (entries 1), walk.isSome || entries 1 != 0), plain 2 (entries 0), plain 3 units,
    plain 4 (d.heldMinima - profMinima s), plain 5 (d.heldHeadroom - profHeadroom s), plain 6 spilled,
    plain 7 (d.telem.live - profFlows s), plain 8 classes]

/-- The lowest-coded region in the way, with REMAIN; none while the staged profile is the active one (R64). -/
def Device.busyRegion (d : Device) : Option (Nat × Nat) :=
  if d.profile.staged = d.profile.active then none
  else (d.inTheWay.find? fun r => r.2.2).map fun r => (r.1, r.2.1)

/-- PROFILE_BUSY shows the region in the way (R64, R67). -/
def Device.showBusy (d : Device) (b : Option (Nat × Nat)) : Device :=
  { d with profile := { d.profile with busyRegion := (b.map (·.1)).getD 0, busyRemain := (b.map (·.2)).getD 0 % 2 ^ 24 } }

/-- PROFILE_BUSY is updated at every boundary, and learning follows STAGED from it on (R64, R69). -/
def Device.profileBoundary (d : Device) : Device :=
  ({ d with profile := { d.profile with vacate := d.profile.staged } }).showBusy d.busyRegion

/-- PROFILE_STAGE: a write of STAGED, in state STEADY (R64). -/
def profileStage (d : Device) (src : Source) (w : Word) : Device :=
  if d.gen.state ≠ .steady then d.refuse src A.TOP_PROFILE
  else { d with profile := { d.profile with staged := F.TOP_PROFILE_STAGED.get w } }

-- The flip (R46, R47, R68) -------------------------------------------------------------------------------------------

/-- A flip is refused with a code; a PROFILE_BUSY refusal names its region (R46, R67). -/
def Device.flipRefused (d : Device) (code : Nat) : Device :=
  { d with gen := { d.gen with result := code } }

/-- A flip request (R46): the conditions are checked in order. -/
def Device.flipAsk (d : Device) : Device :=
  if d.gen.state = .draining ∨ d.gen.state = .resync then d.flipRefused 1
  else match d.busyRegion with
    | some b => (d.showBusy (some b)).flipRefused 2
    | none =>
      if d.gen.state = .pending then d.flipRefused 3
      else { d with gen := { d.gen with state := .pending } }

/-- GEN_FLIP_REQUEST and the other fields of GEN_CTRL: FLIP and AT_EN only in CONFIG, RUN and DEGRADED (R46, R52). In another
state a write with FLIP = 1, or with another value of AT_EN, is recorded; one that leaves AT_EN at its value is not (DEDUCED
from R8's record of a changed field; log entry 31). -/
def genCtrlWrite (d : Device) (src : Source) (w : Word) : Device :=
  let a := A.TOP_GEN_CTRL
  let old := d.reg a
  let open_ := d.dev.state == .config || d.running
  let flip := F.TOP_GEN_CTRL_FLIP.get w = 1
  let at_ := F.TOP_GEN_CTRL_AT_EN.get w
  let bad := !open_ && (flip || at_ != F.TOP_GEN_CTRL_AT_EN.get old)
  let kept := if open_ then at_ else F.TOP_GEN_CTRL_AT_EN.get old
  let d := if bad then d.refuse src a else d
  let d := d.setReg a (BitVec.ofNat 32 (kept * 2 + F.TOP_GEN_CTRL_NOTIFY_EN.get w * 4 + F.TOP_GEN_CTRL_NOTIFY_VEC.get w * 8))
  if flip ∧ open_ then d.flipAsk else d

/-- The boundary that begins the stroke now running is that of a pending flip (R46): its stroke number equals FLIP_AT, or
FLIP_AT is past, that is before it, compared as R12 states (a difference of exactly half is past). -/
def Device.flipFalls (d : Device) : Bool :=
  let at_ := d.pair A.TOP_GEN_FLIP_AT_LO A.TOP_GEN_FLIP_AT_HI
  d.gen.state == .pending &&
    (!d.flag A.TOP_GEN_CTRL F.TOP_GEN_CTRL_AT_EN || at_ == d.stroke.num.toNat || beforeMod 64 at_ d.strokeNo)

/-- A profile change at a flip (R58 to R60, R68, R159, R182, R284, R378). -/
def Device.profileFlip (d : Device) : Device :=
  let old := d.profile.active
  let new := d.profile.staged
  if old = new then d
  else
    let lost := profShared old - d.hall.sharedTotal
    let d := { d with profile := { d.profile with active := new, vacate := new } }
    let d := (d.resizeShared (profShared new - lost)).replaceStart old new
    let scaled := decide (profMinima new < d.hall.minSum)
    let d := { d with hall := { d.hall with minScaled := scaled } }
    let d := if scaled then d.raise 0x90000 3 else d
    let d := { d with ports := d.ports.map fun (e : Nat × PortSt) => (e.1, { e.2 with hdrmDirty := e.2.hdrmDirty || !e.2.hdrm.isEmpty }) }
    (d.ladderFlip old).flowResize old new

/-- PARSE_BANK_SWITCH: a pending switch is made with the flip (R119, R120). -/
def Device.bankFlip (d : Device) : Device :=
  let a := A.TOP_PARSE_BANK
  if F.TOP_PARSE_BANK_SWITCH.get (d.reg a) = 0 then d
  else d.setReg a (BitVec.ofNat 32 (1 - F.TOP_PARSE_BANK_ACTIVE.get (d.reg a) + 4))

/-- PARSE_BANK_SWITCH_REQ: a write of TOP.PARSE_BANK (R119). -/
def parseBankWrite (d : Device) (w : Word) : Device :=
  if F.TOP_PARSE_BANK_SWITCH.get w = 1 then d.setFld A.TOP_PARSE_BANK F.TOP_PARSE_BANK_SWITCH 1 else d

/-- GEN_FLIP: at the flip boundary, after any fence, the flip is checked again and made in every gallery that is not
FENCED, together with the shared tables (R33, R46, R47, R67). -/
def genFlip (d : Device) : Device :=
  if !d.gen.flipDue ∨ d.dev.fenceDue ≠ 0#32 then d
  else
    let d := { d with gen := { d.gen with flipDue := false } }
    match d.busyRegion with
    | some b => ({ (d.showBusy (some b)) with gen := { d.gen with state := .steady } }).flipRefused 2
    | none =>
      let g := d.gen.active
      let d := { d with gen := { d.gen with
        state := .draining, active := g + 1#32, drain := g, result := 0, phaseStk := 0 } }
      (d.bankFlip.profileFlip).showBusy none

-- Reclaim and rebuild (R49 to R51) -----------------------------------------------------------------------------------

/-- The stamp `g` is still in use in a gallery that is not FENCED: by a packet in ingress past its stamping, or by egress
processing begun under it (R49). -/
def Device.stampInUse (d : Device) (g : Word) : Bool :=
  (d.pkt.flights.any fun x => x.phase != .ready && x.stamp == g && !d.isFenced x.gal) ||
    (d.hall.copies.any fun c => c.queue < 16384 && c.phase == .selected && c.egGen == g && !d.isFenced (queueGal c.queue))

/-- GEN_NOTICE_WRITE: a notice of 16 bytes, and its vector (R51). GEN_NOTIFY_ADDR_LO[3:0] must be 0; where software wrote them
otherwise, the register reads so and the notice goes to the 16-byte boundary below: the spec does not say (DESIGN CHOICE, log
entry 31). -/
def Device.genNotice (d : Device) (st : GenState) : Device :=
  if !d.flag A.TOP_GEN_CTRL F.TOP_GEN_CTRL_NOTIFY_EN then d
  else
    let bs := (beBytes 4 d.gen.drain.toNat).reverse ++ [BitVec.ofNat 8 st.code, 0, 0, 0] ++ (beBytes 8 d.strokeNo).reverse
    let a := d.pair A.TOP_GEN_NOTIFY_ADDR_LO A.TOP_GEN_NOTIFY_ADDR_HI / 16 * 16
    match d.postWrite 0 a bs with
    | none => ({ d with gen := { d.gen with notifyErr := true } }).markSet A.TOP_GEN_STAT 6
    | some d =>
      let v := d.fld A.TOP_GEN_CTRL F.TOP_GEN_CTRL_NOTIFY_VEC
      if v = 0x7FF then d else d.signal 0 v

/-- An EM or extension row with the freed slot's bit of every GM made equal to the active slot's; entries left in neither
slot are freed (R50). -/
def emResync (from_ row : Nat) : Nat :=
  (emEntries row).foldl (fun row s =>
    let e := emSlot row s
    let gm := if bit (emGm e) from_ then 3 else 0
    if gm = 0 then emClear row s else emPut row s (putBits e 0 2 gm)) row

/-- The same for an LPM row. -/
def lpmResync (from_ row : Nat) : Nat :=
  let fix (e : Nat) : Nat := putBits e 0 2 (if bit (emGm e) from_ then 3 else 0)
  let wide := emGm (lpmUnit row 0) ≠ 0 ∧ bit (lpmUnit row 0) 2
  let row := if emGm (lpmUnit row 0) = 0 then row else putBits row 0 128 (fix (lpmUnit row 0))
  if wide ∨ emGm (lpmUnit row 1) = 0 then row else putBits row 256 128 (fix (lpmUnit row 1))

/-- The generation slot of a register of the double-held windows, and the address of its twin in the other slot (R148). -/
def slotTwin (a : Nat) : Option (Nat × Nat) :=
  match pageOf a with
  | some (.match, _, base) =>
    let o := a - base
    if 0x1000 ≤ o ∧ o < 0x3000 then some (0, a + 0x2000) else if 0x3000 ≤ o ∧ o < 0x5000 then some (1, a - 0x2000) else none
  | some (.egress, _, base) =>
    let o := a - base
    if 0x4000 ≤ o ∧ o < 0x4800 then some (0, a + 0x800) else if 0x4800 ≤ o ∧ o < 0x5000 then some (1, a - 0x800) else none
  | _ => none

/-- Every double-held object is copied from slot `from_` into slot `to_` (R50). -/
def Device.copySlot (d : Device) (from_ to_ : Nat) : Device :=
  let tern := (d.table.tern.map (·.1)).foldl (fun t k =>
    let row := k % 262144
    tnatSet t (to_ * 262144 + row) (tnat t (from_ * 262144 + row))) d.table.tern
  let acts := (d.pkt.acts.map (·.1)).foldl (fun t k =>
    let ix := k % 4096
    let st := k / 8192
    if d.isFenced (st / 32) then t
    else tnatSet t ((st * 2 + to_) * 4096 + ix) (tnat t ((st * 2 + from_) * 4096 + ix))) d.pkt.acts
  let d := { d with table := { d.table with tern := tern }, pkt := { d.pkt with acts := acts } }
  (d.file.regs.map (·.1)).foldl (fun d a =>
    if d.isFenced ((a - 0x1000000) / 0x100000) then d
    else match slotTwin a with
      | some (s, b) => if s = to_ then d.setReg a (d.reg b) else d.setReg b (d.reg a)
      | none => d) d

/-- The rebuild of the freed slot from the active generation's content (R50). -/
def Device.rebuildSlot (d : Device) : Device :=
  let from_ := slotOf d.gen.active
  let to_ := 1 - from_
  let first := 65536 * profE d.profile.active
  let pool := d.table.pool.foldl (fun t e =>
    tnatSet t e.1 (if e.1 < first then emResync from_ e.2 else lpmResync from_ e.2)) d.table.pool
  let ext := d.table.ext.foldl (fun t e => tnatSet t e.1 (emResync from_ e.2)) d.table.ext
  ({ d with table := { d.table with pool := pool, ext := ext } }).copySlot from_ to_

/-- The rebuild takes what it needs of a stroke's software table-DMA budget, ahead of the rings (R50). The spec does not say how
much it needs, so it is a free amount within that budget (DESIGN CHOICE, log entry 32). -/
def Device.rebuildTake (d : Device) : Device :=
  let (n, d) := d.free 8
  let n := min n (d.budgetLeft 0x10 0)
  let d := d.spend 0x10 0 n 0x1000000
  { d with gen := { d.gen with took := n } }

/-- What the rebuild has taken of a stroke in which it turns out to have ended already is given back. -/
def Device.rebuildGive (d : Device) : Device :=
  let k := budKey 0x10 0
  { d with
    gen := { d.gen with took := 0 }
    budget := { d.budget with used := tnatSet d.budget.used k (tnat d.budget.used k - d.gen.took) } }

/-- GEN_RECLAIM: at a boundary at which no packet of the draining generation is left, it is reclaimed, and the freed slot's
rebuild begins (R49, R50, R51, R120). -/
def genReclaim (d : Device) : Device :=
  if d.gen.state ≠ .draining ∨ d.gen.phaseStk = 0 ∨ d.stroke.cyc ≠ 0 ∨ d.stampInUse d.gen.drain then d
  else
    let d := { d with gen := { d.gen with
      state := .resync, drainStk := BitVec.ofNat 32 d.gen.phaseStk, phaseStk := 0 } }
    (((d.setFld A.TOP_PARSE_BANK F.TOP_PARSE_BANK_OLD_HELD 0).rebuildSlot).rebuildTake).genNotice .resync

/-- GEN_RESYNC_END: at a boundary the rebuild ends, and the freed slot opens as staging (R50, R51). -/
def genResyncEnd (d : Device) : Device :=
  if d.gen.state ≠ .resync ∨ d.gen.phaseStk = 0 ∨ d.stroke.cyc ≠ 0 then d
  else
    let d := { d with gen := { d.gen with
      state := .steady, resyncStk := BitVec.ofNat 32 d.gen.phaseStk, phaseStk := 0 } }
    d.rebuildGive.genNotice .steady

/-- The generation unit at a boundary: a stroke of a drain or of a rebuild has passed. The stroke that begins belongs to the
rebuild unless GEN_RESYNC_END follows at this boundary. -/
def Device.genBoundary (d : Device) : Device :=
  let d := { d with gen := { d.gen with flipDue := d.flipFalls } }
  if d.gen.state = .draining then { d with gen := { d.gen with phaseStk := d.gen.phaseStk + 1 } }
  else if d.gen.state = .resync then ({ d with gen := { d.gen with phaseStk := d.gen.phaseStk + 1 } }).rebuildTake
  else d

-- Snapshots (R54, R55) -----------------------------------------------------------------------------------------------

/-- SNAP_REQ: a write of SNAP_CTRL.REQ; while copies are being written it is merged (R54, R55). -/
def snapCtrlWrite (d : Device) (w : Word) : Device :=
  if F.TOP_SNAP_CTRL_REQ.get w = 0 then d
  else if d.snap.copying then
    { d with snap := { d.snap with mergedReq := true, merged := min 0xFF (d.snap.merged + 1) } }
  else { d with snap := { d.snap with req := true } }

/-- SNAP_PERIOD_WRITE: the periodic count restarts at the next boundary (R54). -/
def snapPeriodWrite (d : Device) (w : Word) : Device :=
  let d := d.setRegHeld A.TOP_SNAP_PERIOD w
  { d with snap := { d.snap with restart := true } }

/-- The snapshots that fall at the boundary beginning the stroke now running (R54, R55). Where a new PERIOD takes effect at a
boundary at which the old period's snapshot falls, that snapshot is still taken: the spec does not say (DESIGN CHOICE, log
entry 62). -/
def Device.snapBoundary (d : Device) : Device :=
  let s := d.snap
  let falls := s.periodNext = some d.strokeNo
  let next := if falls then some (d.strokeNo + s.every) else s.periodNext
  let every := if s.restart then (d.reg A.TOP_SNAP_PERIOD).toNat else s.every
  let next := if s.restart then (if every = 0 then none else some (d.strokeNo + every)) else next
  let due := s.req || s.due || (!s.copying && (s.mergedReq || s.mergedPer))
  { d with snap := { s with
      due := due, periodDue := falls || s.periodDue, every := every, restart := false, periodNext := next } }

/-- Every counter's copy is made of what the boundary found, under the generation of the stroke that ended (R54, R55). -/
def Device.takeSnapshot (d : Device) : Device :=
  let s := d.snap
  { d with
    snap := { s with
      req := false, due := false, periodDue := false, mergedReq := false, mergedPer := false
      copying := true, reqCopy := s.req || s.mergedReq, stroke := d.stroke.num, gen := d.gen.last }
    file := { d.file with snap := d.file.edge }
    perf := { d.perf with snap := d.perf.edge, snapOvf := d.perf.edgeOvf } }

/-- SNAPSHOT: a requested or merged snapshot is taken at its boundary (R54, R55). -/
def snapshotTake (d : Device) : Device := if d.snap.due ∧ !d.snap.copying then d.takeSnapshot else d

/-- SNAP_PERIODIC: the periodic snapshot is taken at its boundary, or merged (R54, R55). -/
def snapPeriodic (d : Device) : Device :=
  if !d.snap.periodDue then d
  else if d.snap.copying then
    { d with snap := { d.snap with periodDue := false, mergedPer := true, merged := min 0xFF (d.snap.merged + 1) } }
  else d.takeSnapshot

/-- SNAP_COPIES_COMPLETE: the copies of the last snapshot are complete (R55). -/
def snapCopiesComplete (d : Device) : Device :=
  { d with snap := { d.snap with copying := false, reqCopy := false } }

/-- What SNAP_CTRL reads (R55). -/
def Device.snapCtrl (d : Device) : Nat :=
  b2n (d.snap.req || d.snap.due || d.snap.reqCopy || d.snap.mergedReq) + d.snap.merged * 65536

end Sys2Proof.Machine
end

