-- ==== Sys2Proof/Machine/Ras.lean ====
section
/-! DEFINITION. Faults, row tests, repairs, the watchdog, fatal faults, scrubbing and the retirement record (R389 to
R404). Unit codes are those of R401. The instance of a shared-table row is its table code of R169; the address of a gallery
configuration word is its offset in the gallery's registers (of a parse state, the offset of its window), or 0x100000 + 8,192 *
stage + 4,096 * slot + index for an action word, or 0x200000 + 8 * meter + word for a word of a meter's configuration; the address of a control-store word is 32,768 * bank + word. -/

namespace Sys2Proof.Machine

-- Spare rows (R393) --------------------------------------------------------------------------------------------------

/-- The array of a row, as a key, and its spare rows (R393). An Upper Hall row's is its physical bank, so that a spare bank brings
its own. -/
def Device.sparesOf (d : Device) (pl : FaultPlace) : Nat × Nat :=
  match pl.unit with
  | 1 => (0x1000000 + (d.physBank (pl.addr / 1024)).getD 0xFFFF, 8)
  | 2 => (0x2000000 + (if pl.inst ≤ 1 then 0 else pl.inst) * 256 + pl.addr / 65536, 32)
  | 3 => (0x3000000 + pl.inst * 32 + (if 0x200000 ≤ pl.addr then 8 else min 16 (pl.addr / 0x10000)), 4)
  | _ => (0x4000000 + pl.inst * 2 + pl.addr / 32768 % 2, 16)

/-- The parse-state window that an offset of a gallery's registers lies in (R118). -/
def inParseState (addr : Nat) : Bool := decide (0x24000 ≤ addr ∧ addr < 0x2C000)

/-- The place of a configuration register, from its offset in its gallery: a meter's is that of the selected meter. -/
def Device.wordPlace (d : Device) (h : RegId) (inst off : Nat) : Nat :=
  match h with
  | .POLICE_M_CFG | .POLICE_M_CIR | .POLICE_M_CBS | .POLICE_M_PIR | .POLICE_M_PBS =>
    0x200000 + 8 * F.POLICE_M_SEL_METER.get (d.reg (A.POLICE_M_SEL inst)) + (off % 0x10000 - 0x104) / 4
  | _ => off

/-- The words that a configuration row holds: the registers of a parse state, or the word itself. -/
def rowWords (addr : Nat) : List Nat :=
  if inParseState addr then (List.range 32).map fun k => addr / 0x100 * 0x100 + 4 * k else [addr]

/-- The row that a configuration word lies in. -/
def rowOfWord (addr : Nat) : Nat := if inParseState addr then addr / 0x100 * 0x100 else addr

/-- A gallery configuration word reads as zero: a row out of service. -/
def Device.wordDead (d : Device) (inst addr : Nat) : Bool :=
  d.ras.dead.contains ⟨3, inst, rowOfWord addr⟩
/-- A gallery configuration word that an error made zero is to be rewritten (R392). -/
def Device.wordPoisoned (d : Device) (inst addr : Nat) : Bool := d.ras.poison.contains ⟨3, inst, addr⟩
/-- It has been. -/
def Device.wordWritten (d : Device) (inst addr : Nat) : Device :=
  { d with ras := { d.ras with poison := d.ras.poison.filter fun q => q ≠ ⟨3, inst, addr⟩ } }

/-- The repair of a row begins, where its array has a spare row left: the lowest free one (R393). -/
def Device.repairRow (d : Device) (pl : FaultPlace) : Option Device :=
  let (key, n) := d.sparesOf pl
  let used := tnat d.ras.spares key
  if used < n then
    some { d with ras := { d.ras with
      spares := tnatSet d.ras.spares key (used + 1), repairs := d.ras.repairs ++ [⟨pl, used⟩] } }
  else none

/-- The log's ACTION of retiring an Upper Hall bank, and the retirement (R188, R189, R390). -/
def Device.retireHallBank (d : Device) (pl : FaultPlace) (event count : Nat) : Device :=
  let b := pl.addr / 1024
  let spare := d.hall.sparesUsed + d.hall.bankQueue.length + b2n d.hall.copying.isSome
  let free := decide (spare < spareBanks)
  let d := d.logFault pl event (if free then 4 else 0xC) count
  (d.retireBank b).retireRecord 2 pl (if free then logicalBanks + spare else 0xFFFF)

/-- A gallery's fence is asked for by the hardware, and the record names the fault (R33, R396). -/
def Device.faultFence (d : Device) (n : Nat) : Device :=
  if d.isFenced n ∨ bit d.dev.hwFence.toNat n then d
  else
    let d := { d with dev := { d.dev with hwFence := d.dev.hwFence ||| BitVec.ofNat 32 (2 ^ n) } }
    d.retireRecord 7 ⟨9, n, n⟩ 0xFFFF

/-- A sequencer's control-store bank holds a word that cannot be used: an idle bank is INVALID (R327, R393). -/
def Device.storeBad (d : Device) (pl : FaultPlace) : Device :=
  let s := pl.inst
  let bank := pl.addr / 32768 % 2
  let word := (bank, pl.addr % 32768)
  let d := d.modSeq s fun q => { q with bad := if q.bad.contains word then q.bad else q.bad ++ [word] }
  let r := roleOf s
  if (d.role r).active = bank then d
  else d.modRole r fun (x : SeqRole) =>
    let b : SeqBank := x.banks.getD bank {}
    { x with banks := x.banks.set bank { b with st := if b.st = 2 then 3 else b.st } }

/-- A row that failed its test and has no spare goes out of service (R393). -/
def Device.outOfService (d : Device) (pl : FaultPlace) (event count : Nat) : Device :=
  match pl.unit with
  | 1 => d.retireHallBank pl event count
  | 3 =>
    let d := (d.logFault pl event 0xC count).retireRecord 1 pl 0xFFFF
    let d := { d with ras := { d.ras with dead := d.ras.dead ++ [⟨3, pl.inst, rowOfWord pl.addr⟩] } }
    if 3 ≤ (d.ras.dead.filter fun q => q.unit = 3 ∧ q.inst = pl.inst).length then
      (d.faultFence pl.inst).logFault ⟨9, pl.inst, 0⟩ event 9 count
    else d
  | 4 => ((d.logFault pl event 0xC count).retireRecord 1 pl 0xFFFF).storeBad pl
  | _ => (d.logFault pl event 0xC count).retireRecord 1 pl 0xFFFF

/-- A row whose fault is permanent but correctable: repaired, or its bank retired, or kept in use (R390, R393). One that is
being repaired, or under test, is not repaired again (R404). -/
def Device.rowPermanent (d : Device) (pl : FaultPlace) (event count : Nat) : Device :=
  if (d.ras.repairs.any fun r => r.place = pl) ∨ d.ras.testing.contains pl then d
  else
    let d := d.forget pl
    match d.repairRow pl with
    | some d => d.logFault pl event 3 count
    | none =>
      if pl.unit = 1 then d.retireHallBank pl event count
      else (d.logFault pl event 0xB count).count (rasCnt 3)

-- SRAM errors (R389, R391, R392) -------------------------------------------------------------------------------------

/-- A word has been corrected in this cycle already, by the scrubber or by a use: one correction and one occurrence (R330, R404). -/
def Device.fixedNow (d : Device) (pl : FaultPlace) : Bool := d.ras.fixed.2 == d.absCyc && d.ras.fixed.1.contains pl

/-- A word is corrected in this cycle. -/
def Device.noteFixed (d : Device) (pl : FaultPlace) : Device :=
  let now := if d.ras.fixed.2 = d.absCyc then d.ras.fixed.1 else []
  { d with ras := { d.ras with fixed := (now ++ [pl], d.absCyc) } }

/-- A single-bit error that the spec counts once more: corrected in use, and an occurrence (R389, R390). -/
def Device.rowCorrected (d : Device) (pl : FaultPlace) : Device :=
  let d := d.count (rasCnt 0)
  let d := d.noteFixed pl
  let d := if pl.unit = 4 then d.count (A.SEQ_SQ_CNT pl.inst 3) else d
  let (n, d) := d.occurrence pl
  let busy := (d.ras.repairs.any fun r => r.place = pl) || d.ras.testing.contains pl
  if n < 3 then d.logFault pl 1 1 n
  else if busy then d
  else d.rowPermanent pl 1 n

/-- SRAM_ECC_CORRECTED: a single-bit error is corrected. One that a use and the scrubber find in one word in one cycle counts
once (R330, R404). -/
def sramEccCorrected (d : Device) (pl : FaultPlace) : Device :=
  if d.fixedNow pl then d else d.rowCorrected pl

/-- A row of a shared table with its entries freed: GM = 0 in an EM, LPM or extension row; any other row is cleared (R392). -/
def Device.freeRow (d : Device) (table row : Nat) : Device :=
  let t := d.table
  match table with
  | 0 =>
    let v := tnat t.pool row
    d.setPoolRow row ((emEntries v).foldl emClear v)
  | 1 =>
    let v := putBits (tnat t.pool row) 0 2 0
    d.setPoolRow row (putBits v 256 2 0)
  | 2 => { d with table := { t with tern := tnatSet t.tern row 0 } }
  | 3 => { d with table := { t with groups := tnatSet t.groups row 0 } }
  | 4 => { d with table := { t with members := tnatSet t.members row 0 } }
  | _ =>
    let v := tnat t.ext row
    { d with table := { t with ext := tnatSet t.ext row ((emEntries v).foldl emClear v) } }

/-- A gallery configuration word becomes zero (R392). -/
def Device.zeroWord (d : Device) (inst addr : Nat) : Device :=
  if addr < 0x100000 then d.setCfg (0x1000000 + inst * 0x100000 + addr) 0#32
  else if 0x200000 ≤ addr then
    let k := addr - 0x200000
    d.setCfg (banked (A.POLICE_M_CFG inst + 4 * (k % 8)) (k / 8)) 0#32
  else
    let k := inst * 32 * 8192 + (addr - 0x100000)
    { d with pkt := { d.pkt with acts := tnatSet d.pkt.acts k 0 } }

/-- A gallery configuration row's words become zero, until each is rewritten (R392). -/
def Device.poisonRow (d : Device) (pl : FaultPlace) : Device :=
  let ws := rowWords pl.addr
  let d := ws.foldl (fun d w => d.zeroWord pl.inst w) d
  let ps := ws.map fun w => (⟨3, pl.inst, w⟩ : FaultPlace)
  { d with ras := { d.ras with poison := d.ras.poison.filter (fun q => !ps.contains q) ++ ps } }

/-- SRAM_ECC_UNCORRECTABLE: the row is taken out of use for the row test, and what it held is lost (R389, R391, R392); a
control-store word faults its sequencer when it is fetched (R323, R327). -/
def sramEccUncorrectable (d : Device) (pl : FaultPlace) : Device :=
  if d.ras.testing.contains pl then d
  else
    let d := d.rowBad pl
    match pl.unit with
    | 1 => d.cellLost pl.addr
    | 2 =>
      let d := d.freeRow pl.inst pl.addr
      let out := d.table.outRows
      { d with table := { d.table with outRows := if out.contains (pl.inst, pl.addr) then out else out ++ [(pl.inst, pl.addr)] } }
    | 3 => d.poisonRow pl
    | 4 =>
      let active := (d.role (roleOf pl.inst)).active = pl.addr / 32768 % 2
      let d := d.storeBad pl
      if active then d.raise 0x60000 4 else d
    | _ => d

-- The Lower Hall (R389, R390, R394) ----------------------------------------------------------------------------------

/-- FATAL_FAULT takes effect at the next boundary: every gallery is fenced, and none is marked for the next boot (R397). -/
def Device.fatalNow (d : Device) (pl : FaultPlace) (event : Nat) : Device :=
  let d := d.logFault pl event 0xA 1
  { d with
    ras := { d.ras with fatalPending := true }
    dev := { d.dev with hwFence := BitVec.ofNat 32 (2 ^ 32 - 1) } }

/-- A permanent Lower Hall unit: its billet is quarantined, and counts once; in the system area it is moved by post-package repair, or the
fault is fatal where the stack has no resource left (R394). -/
def Device.lhPermanent (d : Device) (pl : FaultPlace) (event count : Nat) (resource : Bool) : Device :=
  let d := d.forget pl
  match d.billetAt pl.addr with
  | some ptr =>
    let known := d.billet.quarantined.contains ptr
    let d := { d with ras := { d.ras with lhQuar := d.ras.lhQuar ++ [pl.addr] } }
    let d := if known then d
      else ({ d with billet := { d.billet with quarantined := d.billet.quarantined ++ [ptr] } }).count (rasCnt 4)
    (d.logFault pl event 8 count).retireRecord 3 pl 0xFFFF
  | none =>
    if resource then (d.logFault pl event 3 count).retireRecord 3 pl 0xFFFF else d.fatalNow pl event

/-- LH_ECC_CORRECTED: a correctable error of a Lower Hall unit; `resource` tells whether its stack has a post-package repair
resource left (R389, R390, R394). -/
def lhEccCorrected (d : Device) (stack unit : Nat) (resource : Bool) : Device :=
  let pl : FaultPlace := ⟨5, stack, unit⟩
  if d.fixedNow pl then d
  else
    let (n, d) := ((d.count (rasCnt 0)).noteFixed pl).occurrence pl
    if n < 3 then d.logFault pl 1 1 n else d.lhPermanent pl 1 n resource

/-- The row test finds a Lower Hall unit permanent. Whether its stack has a repair resource left no command tells: a free value
(R394). -/
def Device.lhFailed (d : Device) (pl : FaultPlace) (n : Nat) : Device :=
  let (r, d) := d.free 1
  d.lhPermanent pl 2 n (r == 1)

-- The row test and the switch (R391, R393) ---------------------------------------------------------------------------

/-- Tag of a row's budget requests: apart from those of other work under housekeeping. -/
def placeTag (pl : FaultPlace) : Nat := ((pl.unit * 65536 + pl.inst) * 2 ^ 32 + pl.addr) * 4 + 2 ^ 80

/-- ROW_TEST_COMPLETE: under housekeeping, a row that reads back correctly returns to use and counts one occurrence; one that
does not is permanent (R391). -/
def rowTestComplete (d : Device) (pl : FaultPlace) (ok : Bool) : Device :=
  if !d.ras.testing.contains pl ∨ !d.seqOn 15 then d
  else
    -- two writes and two reads
    let (d, whole) := d.inPieces (if pl.unit = 5 then 0x12 else 0x11) 0 4 (placeTag pl)
    if !whole then d
    else
      let d := if pl.unit = 5 then d.lhMoved 4 (some (pl.addr / 1024)) else d
      let d := { d with ras := { d.ras with testing := d.ras.testing.filter fun q => q ≠ pl } }
      let back (d : Device) : Device :=
        { d with table := { d.table with outRows := d.table.outRows.filter fun r => pl.unit ≠ 2 ∨ r ≠ (pl.inst, pl.addr) } }
      if ok then
        let (n, d) := (back d).occurrence pl
        let d := d.logFault pl 2 0xD n
        if n < 3 then d
        else if pl.unit = 5 then d.lhFailed pl n
        else d.rowPermanent pl 2 n
      else
        let n := d.seenFaults pl
        let d := d.forget pl
        if pl.unit = 5 then d.lhFailed pl n
        else match d.repairRow pl with
          | some d => d.logFault pl 2 3 n
          | none => d.outOfService pl 2 n

/-- Repairs in the order the record takes them: unit code, then address (R404). -/
def insertRepair (r : RowRepair) : List RowRepair → List RowRepair
  | [] => [r]
  | a :: t =>
    let before := decide (r.place.unit < a.place.unit) ||
      (decide (r.place.unit = a.place.unit) && decide (r.place.addr < a.place.addr))
    if before then r :: a :: t else a :: insertRepair r t

/-- ROW_REPAIR_SWITCH, at a boundary: the rows whose copies are complete switch to their spares (R393). -/
def rowRepairSwitch (d : Device) : Device :=
  if !d.seqOn 15 ∨ d.ras.repairs.isEmpty then d
  else
    let (d, whole) := d.inPieces 0x11 0 d.ras.repairs.length (2 ^ 80 + 1)
    if !whole then d
    else
      let rs := d.ras.repairs.foldl (fun l r => insertRepair r l) []
      let d := { d with ras := { d.ras with repairs := [], spared := d.ras.spared ++ rs } }
      rs.foldl (fun d r =>
        let out := d.table.outRows.filter fun o => r.place.unit ≠ 2 ∨ o ≠ (r.place.inst, r.place.addr)
        let d := { d with table := { d.table with outRows := out } }
        (d.count (rasCnt 2)).retireRecord 1 r.place r.spare) d

-- Galleries and shared logic (R396, R397) ----------------------------------------------------------------------------

/-- Headers wait in a gallery, at its receive interfaces or in its stair queue. -/
def Device.headersWait (d : Device) (n : Nat) : Bool :=
  d.pkt.flights.any fun x => x.gal == n && (x.phase == .ready || x.phase == .stair)

/-- The gallery has started a pass in this stroke. -/
def Device.passStarted (d : Device) (n : Nat) : Bool :=
  tnat d.pkt.accepted n / 4 / 256 == d.strokeNo && tnat d.pkt.accepted n != 0 ||
    decide (0 < tnat d.budget.used (budKey 0x02 n))

/-- An UP port has an eligible queue and has started no frame in this stroke (R396, R206). -/
def Device.portStalls (d : Device) (p : Nat) : Bool :=
  (d.port p).up && !d.pkt.portStarts.contains p &&
    (dedup (d.hall.copies.filterMap fun c => if c.queue / 16 = p then some c.queue else none)).any fun q => d.eligible q 0

/-- One stroke more, or the stall is over. -/
def stallStep (t : Tab (Nat × Nat)) (k : Nat) (stalls : Bool) (start : Nat) : Tab (Nat × Nat) :=
  let zero : Nat → Nat × Nat := fun _ => (0, 0)
  let v := tabGet zero t k
  tabSet zero t k (if !stalls then (0, 0) else if v.1 = 0 then (1, start) else (v.1 + 1, v.2))

/-- The watchdogs at the boundary that ends a stroke (R396). -/
def Device.watchdogBoundary (d : Device) : Device :=
  let start := d.elapsed
  let gals := dedup ((d.pkt.flights.map fun x => x.gal) ++ d.ras.stallGal.map fun e => e.1)
  let ports := dedup ((d.hall.copies.map fun c => c.queue / 16) ++ d.ras.stallPort.map fun e => e.1)
  let sg := gals.foldl (fun t n => stallStep t n (d.headersWait n && !d.passStarted n && !d.isFenced n) start) d.ras.stallGal
  let sp := ports.foldl (fun t p => stallStep t p (decide (p < 1024) && d.portStalls p) start) d.ras.stallPort
  { d with ras := { d.ras with stallGal := sg, stallPort := sp } }

/-- When the stall of gallery `n` that its watchdog finds began; none before 64 strokes of it. -/
def Device.watchdogOf (d : Device) (n : Nat) : Option Nat :=
  let zero : Nat → Nat × Nat := fun _ => (0, 0)
  let hits := (tabGet zero d.ras.stallGal n) ::
    (d.ras.stallPort.filterMap fun e => if e.1 / 32 = n then some e.2 else none)
  (hits.find? fun v => decide (64 ≤ v.1)).map (·.2)

/-- GALLERY_WATCHDOG: the gallery is fenced at the next boundary; its watchdog period is an interruption, whose time counts
once where such periods overlap (R396, R403). -/
def galleryWatchdog (d : Device) (n : Nat) : Device :=
  match d.watchdogOf n with
  | none => d
  | some from_ =>
    if d.isFenced n ∨ bit d.dev.hwFence.toNat n then d
    else
      let d := (d.logFault ⟨9, n, 0⟩ 6 9 1).faultFence n
      { d with ras := { d.ras with
          stuck := d.ras.stuck ++ [n], intFrom := some (d.ras.intFrom.getD (max from_ d.ras.intTo)) } }

/-- GALLERY_PARITY_ERROR: the third in 24 h makes the gallery's fault permanent (R396). -/
def galleryParityError (d : Device) (n : Nat) : Device :=
  let pl : FaultPlace := ⟨9, n, 0⟩
  let (k, d) := d.occurrence pl
  if k < 3 then d.logFault pl 7 0 k else ((d.logFault pl 7 9 k).forget pl).faultFence n

/-- FATAL_FAULT: 0 the core PLL loses lock, 1 an uncorrectable error in the free-list or queue-link memory, 2 a parity error of
the lookup crossbar, of which the third in 24 h is fatal. The log's EVENT of a lost lock is not stated (R397, R401). -/
def fatalFault (d : Device) (kind : Nat) : Device :=
  let pl : FaultPlace := ⟨0xA, kind, 0⟩
  if d.ras.fatal ∨ d.ras.fatalPending then d
  else match kind with
    | 0 => let (e, d) := d.free 8
           d.fatalNow pl e
    | 1 => (d.count (rasCnt 1)).fatalNow pl 2
    | _ =>
      let (k, d) := d.occurrence pl
      if k < 3 then d.logFault pl 7 0 k else (d.forget pl).fatalNow pl 7

-- Scrubbing (R389) ---------------------------------------------------------------------------------------------------

/-- Rows of the shared tables: the pool, the ternary rows of both slots, and the indirection groups and members (R169). -/
def sharedRows : Nat := 1572864 + 2 * 262144 + 8192 + 65536

/-- Rows of the gallery configuration memories: in each gallery 128 parse states, 32 * 2 * 4,096 action words, 256 templates, 8,192
meters and 672 shapers (R118, R137, R153, R215, R224). -/
def configRows : Nat := 32 * (128 + 32 * 2 * 4096 + 256 + 8192 + 672)

/-- The control stores' own scrubber reads one word of each bank of each sequencer in each stroke (R327, R389). -/
def Device.storeScrub (d : Device) : Device := { d with ras := { d.ras with scrubStore := (d.ras.scrubStore + 1) % 32768 } }

/-- SCRUB_VISIT in each stroke, under the housekeeping budgets: 192 of the Upper Hall's 1,536 * 1,024 rows, the shared-table and the
configuration rows that 8,192 strokes ask for, and 48 of the Lower Hall's 96 GiB in 64-byte units (R389). What a table or a
configuration row takes of budget 0x11, whose unit is a 256-byte cell, is not stated: nothing here (DESIGN CHOICE, log entry 79). -/
def Device.scrubVisit (d : Device) : Device :=
  let d := d.storeScrub
  if !d.seqOn 15 then d
  else
    let r := min 192 (d.budgetFor 0x11 0 0x1000000)
    let u := min 48 (d.budgetFor 0x12 0 0x1000000)
    let d := ((d.spend 0x11 0 r 0x1000000).spend 0x12 0 u 0x1000000).lhMoved u (some (d.ras.scrubUnit / 1024))
    { d with ras := { d.ras with
      scrubRow := (d.ras.scrubRow + r) % (1536 * 1024)
      scrubUnit := (d.ras.scrubUnit + u) % (1536 * 2 ^ 20)
      scrubTable := (d.ras.scrubTable + ceilDiv sharedRows 8192) % sharedRows
      scrubWord := (d.ras.scrubWord + ceilDiv configRows 8192) % configRows } }

-- The retirement record (R399, R400) ---------------------------------------------------------------------------------

/-- The copy of the record in use: the valid one with the higher SEQ (R399). -/
def Device.recordCopy (d : Device) : Option Bytes :=
  (d.ras.copies.filter recordValid).foldl (fun (m : Option Bytes) c =>
    match m with
    | none => some c
    | some b => if recordSeq b < recordSeq c then some c else some b) none

/-- RECORD_WRITE: within 100 ms of a change the record is written to the copy whose turn it is; a failed write is tried again
at the next change, and leaves no valid copy there (R399, R411). -/
def recordWrite (d : Device) (ok : Bool) : Device :=
  if d.ras.writeBy.isNone then d
  else
    let i := d.ras.next
    let seq := ((d.recordCopy.map recordSeq).getD 0 + 1) % 2 ^ 32
    let c := if ok then recordBytes seq (d.cnt (rasCnt 6)) d.ras.entries else []
    let d := { d with ras := { d.ras with copies := d.ras.copies.set i c, next := 1 - i, writeBy := none } }
    let d := d.send (.mgmt "QSPI" (recordOffset i))
    if ok then d else (d.setW1c A.RAS_RR_STAT 9).raise 0x50000 3

/-- RR_CLEAR: CLEAR erases both copies in CONFIG; what is retired stays so (R400). -/
def rrClear (d : Device) (src : Source) : Device :=
  if d.dev.state ≠ .config then d.refuse src A.RAS_RR_CFG
  else { d with ras := { d.ras with copies := [[], []], entries := [], full := false, writeBy := none } }

end Sys2Proof.Machine
end

