-- ==== Sys2Proof/Machine/Boot.lean ====
section
/-! DEFINITION. Power, resets and boot up to a verified image (R26 to R28, R384, R394, R399, R405 to R417). -/

namespace Sys2Proof.Machine

/-- The core clock runs: the device is in BOOT, CONFIG, RUN or DEGRADED (R25, R28). -/
def Device.clocked (d : Device) : Bool :=
  d.dev.state == .boot || d.dev.state == .config || d.dev.state == .run || d.dev.state == .degraded

-- Resets (R408, R409) ------------------------------------------------------------------------------------------------

/-- A reset that meets a write of the record under way: whether it was interrupted is open, and an interrupted copy is not
valid (R404). -/
def Device.tornRecord (d : Device) : List Bytes × Device :=
  if d.ras.writeBy.isNone then (d.ras.copies, d)
  else
    let (torn, d) := d.free 1
    (if torn = 1 then d.ras.copies.set d.ras.next [] else d.ras.copies, d)

/-- A register that a warm reset keeps: the TIME page and TOP.RESET_CFG (R409). -/
def warmKeeps (a : Nat) : Bool := a / 0x10000 == 3 || a == A.TOP_RESET_CFG

/-- What every reset leaves: every unit at reset but the flash, the reference clocks, the balls and the management block, which
lie outside it (R409). -/
def Device.coldImage (d : Device) (copies : List Bytes) (warm : Bool) : Device :=
  let new : Device := {}
  { new with
    lane := { new.lane with refBad := d.lane.refBad, refBack := d.lane.refBack }
    damper := { new.damper with vrLow := d.damper.vrLow }
    clock := { new.clock with ext10m := d.clock.ext10m }
    ras := { new.ras with copies := copies, next := d.ras.next, intFrom := if d.ras.intFrom.isSome then some 0 else none }
    boot := { new.boot with perstLow := d.boot.perstLow, strap := d.boot.strap, wasWarm := warm }
    mgmt := d.mgmt
    file := { new.file with pcieData := d.file.pcieData, smbusData := d.file.smbusData }
    sent := d.sent
    freeCtr := d.freeCtr }

/-- What a warm reset keeps besides (R409): the time and its registers, the ledger, and the fault log, from the device `d` before
it. -/
def Device.warmKeep (new d : Device) : Device :=
  let keep {α : Type} (t : Tab α) : Tab α := t.filter fun e => warmKeeps e.1
  let new := { new with
    file := { new.file with regs := keep d.file.regs }
    clock := d.clock
    damper := { new.damper with thermNext := d.elapsed + msT 1, paceNext := d.elapsed + msT 1 }
    servo := d.servo
    pulse := d.pulse
    ledger := { d.ledger with
      exports := [], waits := [], copyBusy := false, granted := false, madeAt := none, wrote := none }
    ras := { new.ras with
      log := d.ras.log, logOvf := d.ras.logOvf, logLatch := d.ras.logLatch
      intFrom := d.ras.intFrom.map fun _ => d.now } }
  (keep d.file.cnt).foldl (fun n e => n.countN e.1 e.2) new

/-- The device in RESET after a full cold reset, or a warm one, which the time unit runs through from the very cycle of the reset
(R409). No lane is UP in it, so no recovered clock is given (R270). INT_US is carried on (R403). -/
def Device.fullReset (d : Device) (warm : Bool) : Device :=
  let d := d.advance d.inStroke
  let d := { d with stroke := { d.stroke with inT := 0 } }
  let d := if warm then d.squelch else d.timeLow
  let (copies, d) := d.tornRecord
  let new := (d.coldImage copies warm).countN (rasCnt 6) (d.endInterruption.cnt (rasCnt 6))
  if warm then new.warmKeep d else new

/-- A ring goes to IDLE without a head write (R408). -/
def Device.stopRing (d : Device) (r : Nat) : Device :=
  ((d.modRing r fun s => { s with jobs := [] }).ringIdle r).modRing r fun s => { s with
    headDue := false, haltIrq := false, wentIdle := false, fresh := 0 }

/-- Every ring does. -/
def Device.stopRings (d : Device) : Device := (d.host.rings.map (·.1)).foldl Device.stopRing d

/-- The registers of the host port at reset, and its rings and functions with them (R409). -/
def Device.clearHost (d : Device) : Device :=
  let mine (a : Nat) : Bool := let p := a % 2 ^ 28 / 0x10000; p == 1 || p == 16 || p == 17
  { d with
    file := { d.file with
      regs := d.file.regs.filter fun e => !mine e.1
      held := d.file.held.filter fun e => !mine e.1
      cnt := d.file.cnt.filter fun e => !mine e.1
      edge := d.file.edge.filter fun e => !mine e.1
      snap := d.file.snap.filter fun e => !mine e.1
      latch := d.file.latch.filter fun e => !mine (e.1 / 2)
      loHeld := d.file.loHeld.filter fun e => !mine (e.1 / 2)
      irqAsk := d.file.irqAsk.filter fun p => !mine (p * 0x10000) }
    host := { d.host with busOff := 0, vfs := 0, numVfs := 0, aer := [], unmasked := [], held := [], rings := [] } }

/-- A boot download in progress fails (R417). -/
def Device.failDownload (d : Device) : Device :=
  if d.boot.dl.isNone then d else { d with boot := { d.boot with dl := none, result := 8 } }

/-- A host reset: the host port only. Every ring goes to IDLE without head writes, and a boot download in progress fails
(R408, R409, R417). -/
def Device.hostReset (d : Device) : Device := d.stopRings.clearHost.failDownload

/-- A write of RESET_CTRL: the reset is made at the next boundary (R408, R416). -/
def resetCtrlWrite (d : Device) (w : Word) : Device :=
  { d with boot := { d.boot with
      cold := d.boot.cold || F.TOP_RESET_CTRL_COLD.get w == 1
      warm := d.boot.warm || F.TOP_RESET_CTRL_WARM.get w == 1 } }

/-- The register-made reset at the boundary: COLD before WARM; RESET is held for 1 ms (R408, R417). -/
def Device.resetBoundary (d : Device) : Device :=
  if d.boot.cold ∨ d.boot.warm then
    let d := d.fullReset (!d.boot.cold)
    { d with boot := { d.boot with hold := true } }
  else d

/-- PERST_FALL: PERST_N falls. It makes the reset that PERST_MODE selects, and takes over a register-made one that
still holds RESET: in COLD mode the full cold reset is made there too, and in HOST mode that one goes on (R407, R408, R417). -/
def perstFall (d : Device) : Device :=
  let mode := F.TOP_RESET_CFG_PERST_MODE.get (d.reg A.TOP_RESET_CFG)
  let d := { d with boot := { d.boot with perstLow := true } }
  match d.dev.state with
  | .off => d
  | .reset =>
    if mode = 0 then d
    else if mode = 1 then { d with boot := { d.boot with hold := false } }
    else d.fullReset false
  | _ => if mode = 0 then d.hostReset else d.fullReset (mode == 1)

/-- POWER_UP: every supply reaches its range. The SMBus address straps are sampled as the device leaves OFF, and a full cold
reset is made (R26, R405, R408, R435). -/
def powerUp (d : Device) (smbAddr : Nat) : Device :=
  if d.dev.state ≠ .off then d
  else
    let d := d.fullReset false
    { d with boot := { d.boot with perstLow := true }, mgmt := { smbStrap := smbAddr % 4 } }

/-- SUPPLY_OUT_OF_RANGE: a rail has stayed outside its range for 10 µs; nothing but the flash keeps what it held (R26, R405). -/
def supplyOutOfRange (d : Device) : Device :=
  if d.dev.state = .off then d
  else
    let d := { (d.fullReset false) with mgmt := {} }
    { d with
      dev := { d.dev with state := .off }
      ras := { d.ras with intFrom := none }
      file := { d.file with cnt := [], pcieData := 0, smbusData := 0 }
      boot := { d.boot with wasWarm := false, perstLow := true } }

/-- THERMAL_SHUTDOWN: a sensor reaches 120 °C. The core clock stops and every transmitter goes to electrical idle; the lanes'
STATE reads as it stood (R26, R28, R76, R384, R417). -/
def thermalShutdown (d : Device) (celsius : Int) : Device :=
  if celsius < 120 ∨ d.dev.state = .off then d else d.timeLow.toState .thermal

/-- RESET is over: the straps GPIO1 and GPIO0 are sampled and BOOT begins at 1.600 GHz; the time unit has run on through a warm
reset that lasted `ns`, and an interruption through a cold one (R403, R409, R410, R414). -/
def Device.enterBoot (d : Device) (gpio ns : Nat) : Device :=
  let d := if d.boot.wasWarm then d.timeRuns (nsT ns)
    else if d.ras.intFrom.isSome then d.countN (rasCnt 6) (ns / 1000) else d
  let d := { d with
    boot := { d.boot with strap := min (gpio % 4) 2, tried := 0, hold := false }
    damper := { d.damper with slow := true, vrSeen := d.damper.vrLow } }
  d.toState .boot

/-- RESET_RELEASE: PERST_N rises; with no register-made reset holding RESET, BOOT begins (R26, R407, R410). -/
def resetRelease (d : Device) (gpio ns : Nat) : Device :=
  let d := { d with boot := { d.boot with perstLow := false } }
  if d.dev.state ≠ .reset ∨ d.boot.hold then d else d.enterBoot gpio ns

/-- RESET_HOLD_EXPIRE: the 1 ms of a register-made reset is over (R408). While PERST_N is low it makes no difference, since
PERST_N held low after OFF, or in another mode, holds RESET itself. -/
def resetHoldExpire (d : Device) (gpio : Nat) : Device :=
  if d.dev.state ≠ .reset ∨ !d.boot.hold then d else d.enterBoot gpio 1000000

-- The boot image (R412, R413) ----------------------------------------------------------------------------------------

/-- Entry `i` of the section table: type, offset and length. -/
def sectionAt (img : Bytes) (i : Nat) : Nat × Nat × Nat :=
  let o := 256 + 16 * i
  (byteAt img o, beAt img (o + 4) 4, beAt img (o + 8) 4)

/-- A table entry is well formed (R412). -/
def sectionOk (img : Bytes) (n len i : Nat) : Bool :=
  let o := 256 + 16 * i
  if n ≤ i then (sliceBytes img o 16).all fun b => b == 0
  else
    let (t, ofs, l) := sectionAt img i
    (sliceBytes img (o + 1) 3).all (fun b => b == 0) && (sliceBytes img (o + 12) 4).all (fun b => b == 0) &&
      decide (512 ≤ ofs ∧ ofs + l ≤ len) &&
      (t == 1 || (t == 2 && decide (l % 8 = 0 ∧ l ≤ 32768)))

/-- The sections of a type, in table order, as bytes. -/
def sectionsOf (img : Bytes) (t : Nat) : List Bytes :=
  (List.range (beAt img 6 2)).filterMap fun i =>
    let (ty, ofs, l) := sectionAt img i
    if ty = t then some (sliceBytes img ofs l) else none

/-- The entries of a register list: BAR0 offset and value. -/
def registerList (s : Bytes) : List (Nat × Nat) :=
  (List.range (s.length / 8)).map fun i => (beAt s (8 * i) 4, beAt s (8 * i + 4) 4)

/-- The result code of the header, size, table, key and SVN checks, in that order; 0 when all pass (R413, R416). `want` is the
length a host download states. -/
def bootHeader (img : Bytes) (want : Option Nat) : Nat :=
  let n := beAt img 6 2
  let len := beAt img 16 4
  let sel := byteAt img 12
  let zeros (o k : Nat) : Bool := (sliceBytes img o k).all fun b => b == 0
  let hash := if sel = 0 then beBytes 48 Config.idzanRootHash.toNat else beBytes 48 Config.bootKeyHash.toNat
  if img.length < 512 ∨ beAt img 0 4 ≠ 0x4C584249 ∨ byteAt img 4 ≠ 1 ∨ 1 < byteAt img 5 ∨ n = 0 ∨ 16 < n ∨
      1 < sel ∨ !zeros 13 3 ∨ !zeros 20 44 then 1
  else if len < 512 ∨ 2 ^ 24 < len ∨ img.length < len ∨ (want.map (· != len)).getD false = true then 3
  else if !((List.range 16).all fun i => sectionOk img n len i) then 0xC
  else if sha384 (sliceBytes img 64 96) ≠ hash then 5
  else if beAt img 8 4 < Config.bootSvnMin.toNat then 6
  else 0

/-- The sequencer sections, checked as R326 does: the role and bank of each, or none where one fails (R413). -/
def Device.bootRoles (d : Device) : List Bytes → Option (List (Nat × SeqBank))
  | [] => some []
  | s :: rest =>
    let r := byteAt s 5
    if s.length < 256 ∨ r = 0 ∨ 5 < r ∨ d.imageResult r s.length s ≠ 0 then none
    else (d.bootRoles rest).map fun l => (r, imageBank s) :: l

/-- A failed attempt: its RESULT, the banks it loaded cleared, and the next source is tried (R413). -/
def Device.bootFails (d : Device) (code : Nat) : Device :=
  { d with
    boot := { d.boot with result := code, tried := d.boot.tried + 1, dl := none }
    seq := { d.seq with roles := d.seq.roles.map fun e => (e.1, e.2.setIdle {}) } }

/-- A fetched image is checked, and is ready to be applied when every check passes (R413). -/
def Device.bootCheck (d : Device) (source : Nat) (want : Option Nat) (img : Bytes) : Device :=
  let c := bootHeader img want
  if c ≠ 0 then d.bootFails c
  else
    let len := beAt img 16 4
    let img := img.take len
    match d.bootRoles (sectionsOf img 1) with
    | none => d.bootFails 0xC
    | some banks =>
      if !ecdsaVerify (sliceBytes img 64 96) (sha384 (img.take 160 ++ img.drop 256)) (sliceBytes img 160 96) then d.bootFails 7
      else
        let d := banks.foldl (fun d b => d.modRole b.1 fun v => v.setIdle b.2) d
        let missing := (List.range 5).foldl (fun m r => if banks.any fun b => b.1 = r + 1 then m else setBit m r) 0
        { d with boot := { d.boot with
          from_ := source, svn := beAt img 8 4, missing := missing, dl := none
          ready := some ((sectionsOf img 2).flatMap registerList, bit (byteAt img 5) 0) } }

/-- Flash slots that the boot source allows (R410). -/
def Device.bootSlots (d : Device) : Nat := if d.boot.strap = 2 then 0 else 2

/-- The host is one of the boot sources (R410). -/
def Device.bootHost (d : Device) : Bool := d.boot.strap != 0

/-- BOOT_SOURCE_ATTEMPT: an image is fetched from the next source: slot A, slot B, or the host's download under its DMA budget;
none where the flash gave no valid read. A flash read that yields no MAGIC, before any has, is no valid read either (R410,
R411, R413, R415, R436). -/
def bootSourceAttempt (d : Device) (img : Option Bytes) : Device :=
  if d.dev.state ≠ .boot ∨ d.boot.ready.isSome then d
  else if d.boot.tried < d.bootSlots then
    match img with
    | none => d.bootFails 0xB
    | some bs =>
      if !d.boot.sampling ∧ beAt bs 0 4 ≠ 0x4C584249 then d.bootFails 0xB
      else ({ d with boot := { d.boot with sampling := true } }).bootCheck (d.boot.tried + 1) none (bs.take (2 ^ 24))
  else match d.boot.dl with
    | none => d
    | some l =>
      let addr := d.pair A.TOP_BOOT_DL_ADDR_LO A.TOP_BOOT_DL_ADDR_HI / 64 * 64
      let len := d.fld A.TOP_BOOT_DL_LEN F.TOP_BOOT_DL_LEN_LEN
      let waits := match l.retryAt with
        | some t => !d.matured t
        | none => false
      if waits then d
      else match img with
        | none => d.bootFails 8
        | some bs =>
          if !d.busOn 0 ∨ !d.inWindow 0 addr len then d.bootFails 8
          else
            let (d, n) := d.takePieces 0x0E l.cls len l.paid 5900000
            if l.paid + n < len then { d with boot := { d.boot with dl := some { l with paid := l.paid + n } } }
            else (d.event none 0x8005 len none { fn := some 0 }).bootCheck 3 (some len) (bs.take len)

/-- BOOT_DL_GO: a write of BOOT_DL_CMD, where the strap names the host as a source (R410, R415). -/
def bootDlWrite (d : Device) (src : Source) (w : Word) : Device :=
  if F.TOP_BOOT_DL_CMD_GO.get w = 0 then d
  else if d.dev.state ≠ .boot ∨ d.boot.dl.isSome ∨ d.boot.ready.isSome ∨ d.boot.tried < d.bootSlots ∨
      !d.bootHost then
    d.refuse src A.TOP_BOOT_DL_CMD
  else
    let (c, d) := d.free 3
    { d with boot := { d.boot with dl := some { cls := c } } }

/-- IMAGE_READ_TIMEOUT of a boot download (role 0) or of a role's image (R326, R415). -/
def imageReadTimeout (d : Device) (r : Nat) : Device :=
  if r ≠ 0 then roleReadTimeout d r
  else match d.boot.dl with
    | none => d
    | some l =>
      if l.late then (d.readTimedOut 0 0x10000 0).bootFails 8
      else
        let d := d.readTimedOut 0 0x10000 2
        { d with boot := { d.boot with dl := some { l with late := true, retryAt := some (d.now + msT 1) } } }

-- The retirement record at boot (R399) -------------------------------------------------------------------------------

/-- One entry of the record is applied; `spent` lists the stacks that have no post-package repair resource left (R83, R90, R91,
R188, R393, R394). -/
def Device.applyEntry (d : Device) (spent : List Nat) (e : RecEntry) : Device :=
  let pl : FaultPlace := ⟨e.unit, e.inst, e.addr⟩
  match e.kind with
  | 1 =>
    if e.spare = 0xFFFF then
      let d := if e.unit = 4 then d.storeBad pl else d
      let d := if e.unit = 2 then
          { d with table := { d.table with outRows := d.table.outRows ++ [(e.inst, e.addr)] } } else d
      { d with ras := { d.ras with dead := if e.unit = 3 then d.ras.dead ++ [⟨3, e.inst, rowOfWord e.addr⟩] else d.ras.dead } }
    else
      let key := (d.sparesOf pl).1
      { d with ras := { d.ras with
        spares := tnatSet d.ras.spares key (max (tnat d.ras.spares key) (e.spare + 1))
        spared := d.ras.spared ++ [⟨pl, e.spare⟩] } }
  | 2 =>
    let b := e.addr / 1024
    let d := { d with hall := { d.hall with bankMap := tnatSet d.hall.bankMap b e.spare, lastBank := b } }
    if e.spare = 0xFFFF then
      { (d.resizeShared (d.hall.sharedTotal - 1024)) with hall := { (d.resizeShared (d.hall.sharedTotal - 1024)).hall with
        bankDrain := d.hall.bankDrain ++ [b] } }
    else { d with hall := { d.hall with sparesUsed := max d.hall.sparesUsed (e.spare - logicalBanks + 1) } }
  | 3 =>
    if spent.contains e.inst then { d with ras := { d.ras with lhQuar := d.ras.lhQuar ++ [e.addr] } } else d
  | 4 => d.holdRetired e.addr
  | 5 =>
    let s := d.linkSt e.inst
    let dir := e.addr / 128 % 2
    if s.lanesRetired ∨ 4 ≤ e.spare ∨ (s.repairs dir).any fun m => m.1 = e.spare then d
    else d.setLink e.inst (s.move dir e.spare (e.addr % 128))
  | 6 =>
    let d := d.setLink e.inst { d.linkSt e.inst with lanesRetired := true }
    (linkLanes e.inst).foldl (fun d l => d.holdRetired l) d
  | 7 => { d with ras := { d.ras with fenceAtGo := setBit d.ras.fenceAtGo (e.inst % 32) } }
  | _ => d

/-- RETIREMENT_RECORD_APPLY: the valid copy with the higher SEQ is read, and applied where APPLY is set (R399). -/
def Device.applyRecord (d : Device) (spent : List Nat) : Device :=
  match d.recordCopy with
  | none => { d with ras := { d.ras with noneValid := true } }
  | some c =>
    let es := recordEntries c
    let d := { d with ras := { d.ras with entries := es } }
    let d := d.countN (rasCnt 6) (recordInt c - d.cnt (rasCnt 6))
    if d.flag A.RAS_RR_CFG F.RAS_RR_CFG_APPLY then es.foldl (fun d e => d.applyEntry spent e) d else d

end Sys2Proof.Machine
end

