-- ==== Sys2Proof/Machine/Live.lean ====
section
/-! DEFINITION. What the registers that show a unit's state read: one function for each group of pages, from the stored word
to the value read. `inst` is the page's instance and `ix` the indices within its arrays. -/

namespace Sys2Proof.Machine

/-- Low and high halves of a 64-bit value. -/
def lo32 (n : Nat) : Nat := n % 2 ^ 32
def hi32 (n : Nat) : Nat := n / 2 ^ 32 % 2 ^ 32

/-- A word of IRQ_PEND: bit k for page 32 w + k (R356). -/
def Device.irqPend (d : Device) (w : Nat) : Nat :=
  (List.range 32).foldl (fun m k =>
    let page := 32 * w + k
    if 16 ≤ page ∧ page < 32 then m
    else if d.pagePending (pageBase page) then setBit m k else m) 0

/-- The key of the budget window, where BUDGET_SEL names an activity and instance (R40). -/
def Device.budgetSel (d : Device) : Option (Nat × Nat) :=
  let w := d.reg A.TOP_BUDGET_SEL
  let a := F.TOP_BUDGET_SEL_ACTIVITY.get w
  let i := F.TOP_BUDGET_SEL_INST.get w
  (profBudget d.profile.active a i).map fun _ => (a, i)

/-- TOP (R29, R36, R40, R52, R55, R64, R119, R359, R416). -/
def Device.liveTop (d : Device) (id : RegId) (ix : List Nat) (raw : Nat) : Nat :=
  let i := ix.headD 0
  match id with
  | .TOP_DEV_STATE =>
    d.dev.state.code + ((List.range 32).filter fun n => d.isFenced n).length * 16
  | .TOP_GAL_FENCED => d.dev.fenced.toNat
  | .TOP_GAL_FENCE_DONE => d.dev.fenceDone.toNat
  | .TOP_GAL_FENCE_REQ => d.dev.fenceReq.toNat
  | .TOP_STROKE_LO => lo32 d.strokeNo
  | .TOP_STROKE_HI => hi32 d.strokeNo
  | .TOP_GEN_ACTIVE => d.gen.active.toNat
  | .TOP_GEN_STAGING => (d.gen.active + 1#32).toNat
  | .TOP_GEN_DRAIN => d.gen.drain.toNat
  | .TOP_GEN_CTRL => raw + b2n (d.gen.state == .pending)
  | .TOP_GEN_STAT => d.gen.state.code + d.gen.result * 4 + b2n d.gen.notifyErr * 64
  | .TOP_GEN_DRAIN_STK => d.gen.drainStk.toNat
  | .TOP_GEN_RESYNC_STK => d.gen.resyncStk.toNat
  | .TOP_SNAP_CTRL => d.snapCtrl
  | .TOP_SNAP_STROKE_LO => lo32 d.snap.stroke.toNat
  | .TOP_SNAP_STROKE_HI => hi32 d.snap.stroke.toNat
  | .TOP_SNAP_GEN => d.snap.gen.toNat
  | .TOP_BUDGET_LIMIT => (d.budgetSel.bind fun k => d.budgetLimit k.1 k.2).getD 0
  | .TOP_BUDGET_USED => (d.budgetSel.map fun k => tnat d.budget.last (budKey k.1 k.2)).getD 0
  | .TOP_BUDGET_WAIT_LO => (d.budgetSel.map fun k => lo32 (tnat d.budget.waitShown (budKey k.1 k.2))).getD 0
  | .TOP_BUDGET_WAIT_HI => (d.budgetSel.map fun k => hi32 (tnat d.budget.waitShown (budKey k.1 k.2))).getD 0
  | .TOP_PROFILE => d.profile.active + d.profile.staged * 16
  | .TOP_PROFILE_BUSY => d.profile.busyRegion + d.profile.busyRemain * 256
  | .TOP_BOOT_LOCK => b2n d.file.locked
  | .TOP_BOOT_STAT =>
    d.boot.strap + d.boot.from_ * 4 + d.boot.result * 16 + d.boot.missing * 256 + b2n d.boot.wasWarm * 2 ^ 13 +
      b2n d.boot.imageLocked * 2 ^ 14
  | .TOP_BOOT_DL_CMD => b2n d.boot.dl.isSome * 2
  | .TOP_IRQ_PEND => d.irqPend i
  | .TOP_BOOT_SVN => d.boot.svn
  | .TOP_BOOT_SVN_MIN => Config.bootSvnMin.toNat
  | .TOP_BOOT_KEY_FUSE => Config.bootKeyHash.toNat / 2 ^ (32 * (11 - i)) % 2 ^ 32
  | _ => raw

/-- The moves in force of a direction: each lane's last. -/
def repairMap (moves : List (Nat × Nat)) : List (Nat × Nat) := moves.filter fun e => spareOf moves e.2 = some e.1

/-- They as LK_REPAIR shows them (R93). -/
def repairWord (moves : List (Nat × Nat)) : Nat := ((repairMap moves).map fun e => (e.2 % 64 + 128) * 256 ^ (e.1 % 4)).sum

/-- Lanes and die-to-die links (R74, R84, R85, R93): lane or link `k`. -/
def Device.liveLane (d : Device) (id : RegId) (k raw : Nat) : Nat :=
  let s := d.laneSt k
  let l := d.linkSt k
  match id with
  | .LANE_LN_STAT =>
    s.st.code + b2n s.sigDet * 2 ^ 4 + b2n s.cdr * 2 ^ 5 + b2n s.blockLock * 2 ^ 6 + b2n s.polDet * 2 ^ 7 +
      b2n s.revDet * 2 ^ 8 + b2n s.txLpi * 2 ^ 9 + b2n s.rxLpi * 2 ^ 10 + b2n s.eqClip * 2 ^ 11 + s.snr % 256 * 2 ^ 12 +
      s.downCause % 16 * 2 ^ 20 + min 2 (d.recent k).length * 2 ^ 24
  | .LANE_LN_TXEQ => (d.tapsOf k).toNat
  | .LANE_LN_RXEQ =>
    let w := BitVec.ofNat 32 raw
    if F.LANE_LN_RXEQ_ADAPT.get w = 2 then raw
    else (F.LANE_LN_RXEQ_CTLE.put w (Config.adaptedCtle k (F.LANE_LN_RXEQ_DFE_EN.get w == 1) (s.frozenAt.getD d.absCyc)).toNat).toNat
  | .LANE_LN_CNT => min s.retrains 0xFFFF + min s.trainFails 0xFFFF * 2 ^ 16
  | .LANE_LN_PRBS => raw % 2 ^ 10 + b2n s.prbsLock * 2 ^ 10
  | .LANE_LN_INJ => setBit raw 10 - (if s.injPending then 0 else 2 ^ 10)
  | .D2D_LK_CTRL => raw + b2n l.retraining * 2
  | .D2D_LK_STAT =>
    l.st.code + b2n l.outSleep * 8 + b2n l.inSleep * 16 + (repairMap l.repairOut).length % 8 * 32 + (repairMap l.repairIn).length % 8 * 256 +
      b2n l.lanesRetired * 2048
  | .D2D_LK_REPAIR_OUT => repairWord l.repairOut
  | .D2D_LK_REPAIR_IN => repairWord l.repairIn
  | _ => raw

/-- Ports (R97, R106). -/
def Device.livePort (d : Device) (id : RegId) (p raw : Nat) : Nat :=
  let s := d.port p
  match id with
  | .PORT_PT_STAT =>
    b2n s.up + (d.downReason p).code * 2 + s.fecInUse * 16 + b2n s.hdrmShort * 64 +
      b2n (s.stops.any fun e => e.1 = 8 ∧ !d.matured e.2) * 128 +
      (s.stops.foldl (fun m e => if e.1 < 8 ∧ !d.matured e.2 then setBit m e.1 else m) 0) * 256
  | .PORT_PT_DELAY => s.delay % 2 ^ 24 + s.delaySrc * 2 ^ 24
  | _ => raw

/-- Tables and halls (R130, R150, R175, R190, R202, R203, R232). `q`, `p` are the queue and port selected. -/
def Device.liveHall (d : Device) (id : RegId) (inst : Nat) (ix : List Nat) (q p raw : Nat) : Nat :=
  let i := ix.headD 0
  let s := d.queueSt q
  let c := d.classSt p i
  match id with
  | .STAIR_STAT => d.stairDepth inst + max (d.stairDepth inst) (tnat d.pkt.stairPeak inst) * 512
  | .TABLE_LOCK_STAT => (d.table.locks.filter fun e => d.rowLocked e.1).length
  | .TABLE_EM_STAT => b2n d.table.replacing.isSome + b2n d.table.extFail * 2 + d.table.queue.length % 2 ^ 13 * 4
  | .TABLE_FFT_CFG => raw % 2 ^ 17 + b2n d.fft.flush * 2 ^ 17
  | .TABLE_FFT_USED => (d.fft.sets.map fun e => e.2.length).sum
  | .HALL_Q_STAT0 => s.held
  | .HALL_Q_STAT1 => s.lhPkts % 2 ^ 25 + b2n s.spilling * 2 ^ 25
  | .HALL_Q_AVG => s.avg.toNat % 2 ^ 21
  | .HALL_C_STAT => if i < (d.losslessPris p).length then c.held + b2n c.xoff * 2 ^ 21 else 0
  | .HALL_C_HDRM => if i < (d.losslessPris p).length then c.heldHdrm else 0
  | .HALL_FREE_SHARED => d.hall.freeShown
  | .HALL_SHARED_TOTAL => d.hall.sharedTotal
  | .HALL_MIN_SUM => d.hall.minSum
  | .HALL_SPARES => d.hall.sparesUsed + d.hall.lastBank * 64 + b2n d.hall.copying.isSome * 2 ^ 17
  | .LHALL_OWN_HELD => d.ownHeld i (ix.getD 1 0)
  | .LHALL_LH_STAT => b2n d.billet.cfgBad
  | .BILLET_POOL_STAT => (d.pool i).cache.length + b2n ((d.pool i).free == 0) * 1024
  | .BILLET_POOL_FREE => (d.pool i).free
  | _ => raw

/-- Whole bytes as 32 bits of two's complement. -/
def bytesWord (n : Int) : Nat := unsignedOf n 32

/-- Schedulers, gates and meters (R215, R221, R224). `m` is the meter selected. IN_DEBT, reset 0, is shown for a shaper in use
(DEDUCED). -/
def Device.liveSched (d : Device) (id : RegId) (inst : Nat) (ix : List Nat) (m raw : Nat) : Nat :=
  let i := ix.headD 0
  let shown (k : Nat) : Nat := bytesWord (tabGet (fun _ => (0 : Int)) d.sched.shown k)
  let stat (k : Nat) : Nat := b2n (d.shaped k && decide (d.tokens k ≤ 0)) + b2n (tnat d.sched.burstLow k == 1) * 2
  let q := 512 * inst + i
  let g := d.gateSt (32 * inst + i)
  match id with
  | .SCHED_Q_TOKENS => shown (queueBucket q)
  | .SCHED_P_TOKENS => shown (portBucket (32 * inst + i))
  | .SCHED_G_TOKENS => shown (groupBucket (128 * inst + i))
  | .SCHED_Q_STAT => stat (queueBucket q) + b2n (d.gateWait q) * 4 + b2n (d.stopped q) * 8
  | .SCHED_P_STAT => stat (portBucket (32 * inst + i))
  | .SCHED_G_STAT => stat (groupBucket (128 * inst + i))
  | .GATE_GT_STAT => g.bank + b2n g.pending * 2 + g.len % 128 * 4 + b2n g.commitBad * 512 + min g.neverOpen 0xFFFF * 2 ^ 16
  | .GATE_GT_OVERRUN => lo32 g.overrun
  | .POLICE_M_TC => tnat d.sched.metersShown (2 * (8192 * inst + m))
  | .POLICE_M_TP => tnat d.sched.metersShown (2 * (8192 * inst + m) + 1)
  | _ => raw

/-- The first slot that KEY_SEL names. -/
def Device.keyShown (d : Device) : KeySlot :=
  (((d.selectedSlots (d.reg A.KEYS_KEY_SEL)).head?).map d.keySlot).getD {}

/-- Keys, associations and the time unit (R250, R251, R257, R268 to R275). `sa` is the association selected. -/
def Device.liveTime (d : Device) (id : RegId) (inst : Nat) (ix : List Nat) (sa raw : Nat) : Nat :=
  let i := ix.headD 0
  let k := d.keyShown
  let s := d.saSt inst sa
  let n := d.nowWords
  let cap := (d.pulse.ppsIn.getD i none).map Capture.words
  let evs := d.pulse.evt.getD i []
  let ev := evs.head?
  let rate := unsignedOf d.clock.rate 40
  let hold := unsignedOf d.servo.holdRate 40
  let ofs := unsignedOf d.servo.offset 64
  let t := d.trig i
  match id with
  | .KEYS_KEY_CMD => raw % 8 - raw % 4 + b2n d.integ.job.isSome * 8
  | .KEYS_SLOT_STAT => b2n k.mat.isSome + b2n (((k.mat.map fun m => m.key.length) == some 32)) * 2 + k.commits * 4
  | .INTEG_SA_PN_LO => lo32 s.pn
  | .INTEG_SA_PN_HI => hi32 s.pn
  | .INTEG_SA_STAT => b2n s.thresh + b2n s.exhausted * 2
  | .TIME_NOW_FRAC => n.getD 0 0
  | .TIME_RATE_LO => lo32 rate
  | .TIME_RATE_HI => hi32 rate
  | .TIME_STEP_CTRL => b2n d.clock.stepBusy.isSome * 4
  | .TIME_CLK_CFG => raw - raw / 2 % 2 * 2 + b2n d.clock.ext10m * 2
  | .TIME_SERVO_STAT => d.servo.state.code + b2n d.servo.everLocked * 4
  | .TIME_OFFSET_LO => lo32 ofs
  | .TIME_OFFSET_HI => hi32 ofs
  | .TIME_HOLD_RATE_LO => lo32 hold
  | .TIME_HOLD_RATE_HI => hi32 hold
  | .TIME_PPS_IN_CAP_FRAC => (cap.getD []).getD 0 0
  | .TIME_TR_CTRL => raw % 4 + b2n t.armed * 4
  | .TIME_TR_COUNT => raw - t.given
  | .TIME_EV_CTRL => raw % 4 + evs.length * 4 + min (d.pulse.evtOvf.getD i 0) 0xFFFF * 2 ^ 16
  | .TIME_EV_FRAC => ((ev.map fun c => c.words.getD 0 0 + b2n c.rising * 2 ^ 31)).getD 0
  | .TIME_SYNCE =>
    let w := BitVec.ofNat 32 raw
    let off := F.TIME_SYNCE_EN.get w = 0 ∨ (d.laneSt (F.TIME_SYNCE_LANE.get w)).st ≠ .up
    raw % 2 ^ 14 + b2n (decide off) * 2 ^ 14
  | .TIME_LEDGER_CTRL => raw % 64 + b2n d.ledger.copyBusy * 128
  | .TIME_LEDGER_SEQ_LO => lo32 d.ledger.seq
  | .TIME_LEDGER_SEQ_HI => hi32 d.ledger.seq
  | .TSU_TS_CAL => (Config.tsCalRx (32 * inst + i)).toNat + (Config.tsCalTx (32 * inst + i)).toNat * 2 ^ 16
  | _ => raw

/-- Telemetry, anvils and sequencers (R294, R315, R329). `g` is the group selected. -/
def Device.liveSeq (d : Device) (id : RegId) (ix : List Nat) (g raw : Nat) : Nat :=
  let i := ix.headD 0
  let s := d.redGroup g
  let r := d.role (i + 1)
  let q := d.seqSt i
  match id with
  | .TELEM_FS_CFG => raw % 2 ^ 17 + b2n (d.telem.flushLeft != 0 || d.telem.flushAsk) * 2 ^ 17
  | .TELEM_FS_STAT => d.telem.live % 2 ^ 23 + b2n d.telem.resizing * 2 ^ 23
  | .ANVIL_G_CFG => raw / 2 * 2 + b2n s.valid
  | .ANVIL_G_LOW => s.low
  | .ANVIL_G_STAT => s.chunks.length % 128 + b2n s.noRoom * 128 + b2n s.badCfg * 256 + b2n (d.indexOk g) * 512
  | .ANVIL_A_STAT =>
    d.granFree i + (d.anvil.staged.filter fun t => t.anvil = i).length * 512 +
      min 4095 (d.hall.copies.filter fun c => c.queue = anvilQueue i).length * 2 ^ 14 + b2n d.anvil.floor * 2 ^ 26
  | .SEQ_RL_CMD => raw / 4 % 8 * 4 + b2n r.switchBy.isSome * 2
  | .SEQ_RL_STAT => r.active + r.idle.st * 2 + r.result * 8
  | .SEQ_RL_SVN => r.live.svn
  | .SEQ_RL_DIGEST => beAt r.live.digest 0 4
  | .SEQ_SQ_CTRL => b2n q.restart + b2n q.stop * 2
  | .SEQ_SQ_STAT => q.st.code + q.pc % 2 ^ 15 * 4 + q.evq.length * 2 ^ 17
  | .SEQ_SQ_FAULT => q.faultAddr % 2 ^ 15 + q.faultCode * 2 ^ 15
  | _ => raw

/-- A counter window's words: value, snapshot copy, and OVF of each (R365, R372). -/
def Device.pcValue (d : Device) (w : Nat) : Nat := tnat d.perf.val w
def Device.pcSnap (d : Device) (w : Nat) : Nat := tnat d.perf.snap w
def Device.pcOvf (d : Device) (w : Nat) : Bool := bit (d.reg (w + 0x28)).toNat 0

/-- The view region of a gallery's counter page: word `i` (R372). -/
def Device.pcView (d : Device) (n i : Nat) : Nat :=
  let w := pcWin (galBase n 11) (i / 8)
  let s := d.snap.stroke.toNat
  if i < 64 then
    match i % 8 with
    | 0 => lo32 (d.pcValue w)
    | 1 => hi32 (d.pcValue w) + b2n (d.pcOvf w) * 2 ^ 31
    | 2 => lo32 (d.pcSnap w)
    | 3 => hi32 (d.pcSnap w) + b2n (d.perf.snapOvf.contains w) * 2 ^ 31
    | 4 => (d.reg w).toNat
    | _ => 0
  else match i with
    | 64 => lo32 d.strokeNo
    | 65 => hi32 d.strokeNo
    | 66 => lo32 s
    | 67 => hi32 s
    | _ => 0

/-- Rings and programmable counters (R347, R365, R368, R372). `w` is the counter window. -/
def Device.livePerf (d : Device) (id : RegId) (inst : Nat) (ix : List Nat) (raw base : Nat) : Nat :=
  let i := ix.headD 0
  let r := d.ring i
  let w := pcWin base i
  match id with
  | .RINGS_RW_CONS => lo32 r.k
  | .RINGS_RW_STAT => r.st.code + r.code * 4
  | .RINGS_RW_ERR_INDEX => lo32 r.errIndex
  | .RINGS_RW_ERR_ROW => r.errRow % 16
  | .GCNT_PC_VAL_LO | .CNT_PC_VAL_LO => lo32 (d.pcValue w)
  | .GCNT_PC_VAL_HI | .CNT_PC_VAL_HI => hi32 (d.pcValue w)
  | .GCNT_PC_SNAP_LO | .CNT_PC_SNAP_LO => lo32 (d.pcSnap w)
  | .GCNT_PC_SNAP_HI | .CNT_PC_SNAP_HI => hi32 (d.pcSnap w)
  | .GCNT_PC_STAT | .CNT_PC_STAT => raw % 2 + b2n (d.perf.snapOvf.contains w) * 2
  | .GCNT_SMP_STAT =>
    (tabGet (fun _ => ([] : List Sample)) d.perf.fifo inst).length + tnat d.perf.lost inst * 2 ^ 16
  | .GCNT_VIEW => d.pcView inst i
  | _ => raw

/-- The Damper and the RAS page (R387, R402). -/
def Device.liveRas (d : Device) (id : RegId) (ix : List Nat) (raw : Nat) : Nat :=
  let m := d.damper
  let r := d.ras
  match id with
  | .DAMPER_DMP_STAT =>
    m.level + levelMax d.profile.active * 32 + b2n (m.level == levelMax d.profile.active) * 2 ^ 10 + b2n m.quench * 2 ^ 11 +
      b2n m.vrLow * 2 ^ 12 + b2n (m.thermD != 0) * 2 ^ 13 + b2n m.unreachable * 2 ^ 14 + b2n m.slow * 2 ^ 15 +
      b2n d.freqDeferred * 2 ^ 16 + m.paceLevel % 16 * 2 ^ 17
  | .DAMPER_POWER => m.windowW % 4096 + m.floorW % 4096 * 4096
  | .DAMPER_PEAK => m.peakW % 4096
  | .DAMPER_ACT => m.anvilSlots + m.seqSlots * 512 + m.stairSlots * 2 ^ 18
  | .DAMPER_TEMP => m.tj % 256 + m.tjPeak % 256 * 256 + m.sensor % 128 * 2 ^ 16
  | .DAMPER_AVS_STAT => m.vTarget % 1024 + m.vRead % 1024 * 1024 + m.iRead % 1024 * 2 ^ 20 + b2n m.avsErr * 2 ^ 30
  | .DAMPER_AVS_FUSE => Config.avsFuse2g0.toNat + Config.avsFuse1g6.toNat * 1024
  | .RAS_LOG_STAT => r.log.length + r.logOvf * 512
  | .RAS_LOG => beAt (if ix.headD 0 = 0 then r.log.headD [] else r.logLatch) (4 * ix.headD 0) 4
  | .RAS_RR_STAT =>
    r.entries.length % 256 + b2n r.full * 256 + raw / 512 % 2 * 512 + b2n r.noneValid * 1024
  | .RAS_RAS_STAT => b2n r.fatal
  | _ => raw

/-- What a register reads, from the word stored for it, beside latches and side effects. -/
def Device.liveReg (d : Device) (r : RegRow) (inst base : Nat) (ix : List Nat) (sel raw : Nat) : Nat :=
  let i := ix.headD 0
  match r.page with
  | .top => d.liveTop r.id ix raw
  | .lane => d.liveLane r.id (128 * inst + i) raw
  | .d2d => d.liveLane r.id (16 * inst + i) raw
  | .port => d.livePort r.id (32 * inst + i) raw
  | .stair | .table | .hall | .lhall | .billet => d.liveHall r.id inst ix sel sel raw
  | .sched | .gate | .police => d.liveSched r.id inst ix sel raw
  | .keys | .integ | .time | .tsu => d.liveTime r.id inst ix sel raw
  | .telem | .anvil | .seq => d.liveSeq r.id ix sel raw
  | .rings | .gcnt | .cnt => d.livePerf r.id inst ix raw base
  | .damper | .ras => d.liveRas r.id ix raw
  | .parse =>
    if r.id = .PARSE_HP_CFG then
      raw % 2 ^ 17 + b2n (hpOverlen d inst i) * 2 ^ 17 + b2n (hpSymBad d inst i) * 2 ^ 18
    else raw
  | _ => raw

end Sys2Proof.Machine
end

