-- ==== Sys2Proof/Machine/Balls.lean ====
section
/-! DEFINITION. The balls of the management field (R430), how each behaves in a device state (R434), and what JTAG makes of them
(R437). -/

namespace Sys2Proof.Machine

-- JTAG at the balls (R437) -------------------------------------------------------------------------------------------

/-- The instruction in force: EXTEST, CLAMP and HIGHZ act only in RESET and CONFIG, and as BYPASS otherwise. -/
def Device.jtagActs (d : Device) : JtagInstr :=
  let may : Bool := d.dev.state == .reset || d.dev.state == .config
  match d.mgmt.jtag with
  | .extest => if may then .extest else .bypass
  | .clamp => if may then .clamp else .bypass
  | .highz => if may then .highz else .bypass
  | i => i

/-- What JTAG makes of the boundary-scan balls: not driven by it, at the preloaded levels, or at high impedance. -/
inductive BallDrive where
  | normal
  | levels (preload : BallLevels)
  | highz
deriving DecidableEq, Repr

def Device.ballDrive (d : Device) : BallDrive :=
  match d.jtagActs with
  | .extest | .clamp => .levels d.mgmt.preload
  | .highz => .highz
  | _ => .normal

-- The balls (R430) ---------------------------------------------------------------------------------------------------

/-- The digital balls of the management field, by name. The TAP's own balls are no cells of the chain it shifts, and EXT10M_IN is a
reference (DESIGN CHOICE, log entry 80). -/
inductive Ball where
  | smbClk | smbDat | smbAddr (k : Nat) | alertN | vrThrottleN | perstN | testEn
  | qspiClk | qspiCsN | qspiIo (k : Nat) | avsClk | avsMdata | avsSdata
  | gpio (k : Nat) | ppsIn (k : Nat) | ppsOut (k : Nat) | timeEvt (k : Nat) | timeTrig (k : Nat) | synceRclk (k : Nat)
deriving DecidableEq, Repr

/-- The cell of a ball in the boundary-scan chain: the order of R430, since the spec gives none (DESIGN CHOICE, log entry 80). -/
def Ball.cell : Ball → Nat
  | .smbClk => 0
  | .smbDat => 1
  | .smbAddr k => 2 + k
  | .alertN => 4
  | .vrThrottleN => 5
  | .perstN => 6
  | .testEn => 7
  | .qspiClk => 8
  | .qspiCsN => 9
  | .qspiIo k => 10 + k
  | .avsClk => 14
  | .avsMdata => 15
  | .avsSdata => 16
  | .gpio k => 17 + k
  | .ppsIn k => 33 + k
  | .ppsOut k => 35 + k
  | .timeEvt k => 37 + k
  | .timeTrig k => 41 + k
  | .synceRclk k => 45 + k

/-- The LX204 can drive the ball (R430). -/
def Ball.output : Ball → Bool
  | .smbClk | .smbDat | .alertN | .qspiClk | .qspiCsN | .qspiIo _ | .avsClk | .avsMdata | .gpio _ | .ppsOut _ | .timeTrig _
  | .synceRclk _ => true
  | _ => false

/-- What the LX204 does with a ball, or with a transmitter. -/
inductive BallState where
  | highZ | electricalIdle | input | last | idleHigh | released | asserted
  /-- at this level -/
  | level (high : Bool)
  /-- flash reads, or record writes that are due, drive it -/
  | reading
  | writing
  /-- as the registers and units of its own chapter have it -/
  | programmed
deriving DecidableEq, Repr

/-- The transmitters of lanes and of PCIe in each device state (R434). -/
def Device.transmitters (d : Device) (pcie : Bool) : BallState :=
  match d.dev.state with
  | .off => .highZ
  | .reset | .thermal => .electricalIdle
  | .boot => if pcie then .programmed else .electricalIdle
  | _ => .programmed

/-- A time output in RESET and BOOT: at `idle`, but a warm reset leaves the time outputs running (R409, R434; log entry 39). -/
def Device.timeBall (d : Device) (idle : Bool) : BallState := if d.boot.wasWarm then .programmed else .level idle

/-- How a ball behaves in each device state, where JTAG does not drive it (R434). Until BOOT step 5 the AVSBus balls are idle. -/
def Device.ownBall (d : Device) (b : Ball) : BallState :=
  if !b.output then .input
  else match d.dev.state, b with
  | .off, .alertN => .released
  | .off, _ => .highZ
  | _, .alertN => if d.alert then .asserted else .released
  | .reset, .ppsOut _ | .boot, .ppsOut _ | .reset, .synceRclk _ | .boot, .synceRclk _ => d.timeBall false
  | .reset, .timeTrig k | .boot, .timeTrig k => d.timeBall (F.TIME_TR_CTRL_POL.get (d.reg (A.TIME_TR_CTRL k)) == 1)
  | .thermal, .ppsOut _ | .thermal, .synceRclk _ | .thermal, .timeTrig _ => .level false
  | .reset, .gpio _ | .boot, .gpio _ => .input
  | .thermal, .gpio _ => .last
  | _, .gpio k =>
    if bit (d.reg A.TOP_GPIO_OE).toNat k then .level (bit (d.reg A.TOP_GPIO_OUT).toNat k) else .input
  | .reset, .qspiCsN | .reset, .qspiClk | .reset, .qspiIo _ => .highZ
  | .boot, .qspiCsN | .boot, .qspiClk | .boot, .qspiIo _ => .reading
  | _, .qspiCsN => .level true
  | .thermal, .qspiClk | .thermal, .qspiIo _ => .highZ
  | _, .qspiClk | _, .qspiIo _ => if d.ras.writeBy.isSome then .writing else .highZ
  | .reset, .avsClk | .reset, .avsMdata | .boot, .avsClk | .boot, .avsMdata | .thermal, .avsClk | .thermal, .avsMdata => .idleHigh
  | _, _ => .programmed

/-- How a ball behaves: EXTEST and CLAMP drive it at its preloaded level, and HIGHZ leaves it at high impedance (R437). -/
def Device.ball (d : Device) (b : Ball) : BallState :=
  match d.ballDrive with
  | .normal => d.ownBall b
  | .levels l => if b.output then .level (bit l.toNat b.cell) else .input
  | .highz => if b.output then .highZ else .input

/-- The GPIO balls that the LX204 drives, and their levels, as masks. -/
def Device.gpioDriven (d : Device) : Nat × Nat :=
  (List.range 16).foldl (fun m k =>
    match d.ball (.gpio k) with
    | .level true => (setBit m.1 k, setBit m.2 k)
    | .level false => (setBit m.1 k, m.2)
    | _ => m) (0, 0)

end Sys2Proof.Machine
end

