-- ==== Sys2Proof/Machine/Pages.lean ====
section
/-! DEFINITION. Register accesses: where an address lands (R351), the answer in each device state (R26, R28, R408, R414,
R435), reads with their latches and side effects (R7, R9, R11, R353, R354, R360), and the views (R369 to R372). -/

namespace Sys2Proof.Machine

-- Where an address lands --------------------------------------------------------------------------------------------

/-- A block register: its row, its page's instance and base, its indices within its arrays, and 4 for the HI half of an
array of 64-bit counters. -/
structure RegHit where
  row : RegRow
  inst : Nat
  base : Nat
  ix : List Nat
  rest : Nat
deriving DecidableEq, Repr

/-- Where a BAR0 address lands (R351): a header register, a block register, a reserved word of a page (R9), the
counter-table window (R370), or nowhere (R352). -/
inductive Target where
  | header (page : Page) (inst base off : Nat)
  | block (h : RegHit)
  | reserved (page : Page) (inst base : Nat)
  | table (off : Nat)
  | unmapped
deriving DecidableEq, Repr

/-- A ring window has no header (R347). -/
def targetOf (a : Nat) : Target :=
  if 0x4000000 ≤ a ∧ a < 0x8000000 then .table (a - 0x4000000)
  else match pageOf a with
    | none => .unmapped
    | some (p, inst, base) =>
      if p ≠ .rings ∧ a - base < 0x100 then .header p inst base (a - base)
      else match findRow (a - base) (rowsOf p) with
        | some (r, ix, rest) => .block ⟨r, inst, base, ix, rest⟩
        | none => .reserved p inst base

/-- A page of a gallery (R351): it is answered by the core die's register fabric while the gallery is fenced (R34). -/
def galleryPage (base : Nat) : Bool := decide (0x1000000 ≤ base ∧ base < 0x3000000)

/-- The page belongs to a gallery that is fenced. -/
def Device.fencedPage (d : Device) (base inst : Nat) : Bool := galleryPage base && d.isFenced inst

/-- How the device meets an access in its present state. -/
inductive Gate where
  /-- no completion: the link is down, or the device is off -/
  | silent
  /-- answered by the management block alone (R28, R435) -/
  | closed
  /-- only the TOP page answers (R414) -/
  | bootOnly
  | open_
deriving DecidableEq, Repr

/-- R26, R28, R408, R414 and R435. A PCIe request finds the link down in RESET, in THERMAL_SHUTDOWN and while PERST_N is low. -/
def Device.gate (d : Device) (src : Source) : Gate :=
  match src, d.dev.state with
  | _, .off => .silent
  | .smbus, .reset | .smbus, .thermal => .closed
  | .pcie, .reset | .pcie, .thermal => .silent
  | .pcie, .boot => if d.boot.perstLow then .silent else .bootOnly
  | .smbus, .boot => .bootOnly
  | .pcie, _ => if d.boot.perstLow then .silent else .open_
  | .smbus, _ => .open_

/-- Exactly one 32-bit word at an aligned offset with all four byte enables (R6, R353). `be` is the byte-enable mask of the
access, from its first byte: 0xF for a word, 0xFF for 64 bits. -/
def wholeWord (a be : Nat) : Bool := decide (a % 4 = 0 ∧ be = 0xF)

/-- Where a broken access is recorded (R353): the addressed page, HOST for a ring window, TOP where nothing is mapped. -/
def Device.badAccess (d : Device) (src : Source) (a : Nat) : Device :=
  match pageOf a with
  | some (.rings, _, base) => d.err 0x10000 (a - base) .badAccess src
  | some (_, _, base) => d.err base (a - base) .badAccess src
  | none => d.err 0 a .badAccess src

-- Selectors ----------------------------------------------------------------------------------------------------------

/-- The selector value of a register that stands for one of many (R190, R224, R251, R315). -/
def Device.selOf (d : Device) (h : RegHit) : Option Nat :=
  let has (x : RegAttr) : Bool := h.row.attrs.contains x
  if has .bankQ then some (F.HALL_Q_SEL_QUEUE.get (d.reg A.HALL_Q_SEL))
  else if has .bankP then some (F.HALL_P_SEL_PORT.get (d.reg A.HALL_P_SEL))
  else if has .bankM then some (F.POLICE_M_SEL_METER.get (d.reg (A.POLICE_M_SEL h.inst)))
  else if has .bankSA then some (F.INTEG_SA_SEL_SA.get (d.reg (A.INTEG_SA_SEL h.inst)))
  else if has .bankRSC then some (F.INTEG_RSC_SEL_SC.get (d.reg (A.INTEG_RSC_SEL h.inst)))
  else if has .bankG then some (F.ANVIL_G_SEL_GROUP.get (d.reg A.ANVIL_G_SEL))
  else none

/-- The register file's key of address `a`. -/
def Device.keyOf (d : Device) (h : RegHit) (a : Nat) : Nat :=
  match d.selOf h with
  | some s => banked a s
  | none => a

-- The header (R354) --------------------------------------------------------------------------------------------------

/-- Block codes (R351). -/
def Page.code : Page → Nat
  | .top => 0x01 | .host => 0x02 | .time => 0x03 | .damper => 0x04 | .ras => 0x05 | .seq => 0x06 | .cnt => 0x07
  | .table => 0x08 | .hall => 0x09 | .lhall => 0x0A | .billet => 0x0B | .anvil => 0x0C | .telem => 0x0D | .keys => 0x0E
  | .rings => 0 | .lane => 0x20 | .d2d => 0x30
  | .gal => 0x40 | .port => 0x41 | .parse => 0x42 | .match => 0x43 | .stair => 0x44 | .egress => 0x45 | .sched => 0x46
  | .gate => 0x47 | .police => 0x48 | .integ => 0x49 | .tsu => 0x4A | .gcnt => 0x4B

/-- The block holds generational state (R358). -/
def Page.gen : Page → Bool
  | .top | .table | .hall | .lhall | .parse | .match | .egress => true
  | _ => false

/-- The page holds counters copied into snapshots (R54). -/
def Page.snap (p : Page) : Bool :=
  p = .gcnt ∨ p = .cnt ∨ ((rowsOf p).any fun r => r.attrs.contains .snap && !r.attrs.contains .view)

/-- The page holds RWL fields. -/
def Page.lockable (p : Page) : Bool := (rowsOf p).any fun r => r.fields.any fun f => f.acc = .rwl

/-- PAGE_CAP. -/
def Page.cap (p : Page) : Nat := b2n p.gen + b2n p.snap * 2 + b2n p.lockable * 4 + irqBits p * 8

/-- PAGE_STAT: HALL (R190) and LANE (R73). -/
def Device.pageStat (d : Device) (p : Page) (inst : Nat) : Nat :=
  match p with
  | .hall =>
    let s := d.hall.short
    b2n s.isSome + (s.map fun e => e.1 * 2 + e.2 * 2 ^ 11).getD 0 + b2n d.hall.minScaled * 2 ^ 13
  | .lane => b2n (bit d.lane.refBad inst)
  | _ => 0

/-- GEN_SEEN (R358): a fenced gallery's sub-pages keep it from the fence. -/
def Device.genSeen (d : Device) (p : Page) (inst base : Nat) : Nat :=
  if !p.gen then 0
  else if d.fencedPage base inst then ((assoc d.dev.fenceGen inst).getD d.gen.active).toNat
  else d.gen.active.toNat

/-- What a header register reads. -/
def Device.headerRead (d : Device) (p : Page) (inst base off : Nat) : Nat :=
  match off with
  | 0x00 => p.code + inst * 2 ^ 8 + 2 ^ 16
  | 0x04 => p.cap
  | 0x0C => d.pageStat p inst
  | 0x28 => d.genSeen p inst base
  | 0x10 | 0x14 | 0x1C | 0x20 | 0x24 | 0x2C => (d.reg (base + off)).toNat
  | _ => 0

-- Counter views (R369 to R372) ---------------------------------------------------------------------------------------

/-- A word of the counter-table window (R370). -/
def Device.tableRead (d : Device) (off : Nat) : Nat :=
  let n := off / 0x200000
  let snap := bit off 20
  let i := off % 0x100000 / 16
  let key := (if bit off 3 then actCntBytes else actCntPkts) n i
  let v := tnat (if snap then d.file.snap else d.file.cnt) key
  if bit off 2 then hi32 v else lo32 v

/-- A statistic of the gallery and copy that STAT_SEL selects (R371). -/
def Device.statView (d : Device) (h : RegHit) : Nat :=
  let sel := d.cfg A.CNT_STAT_SEL
  let n := F.CNT_STAT_SEL_GALLERY.get sel
  let i := h.ix.headD 0
  let x := h.ix.getD 1 0
  let key := if h.row.id = .CNT_STATV_PT then A.PORT_PT_CNT n i x else A.SCHED_Q_CNT n i x
  tnat (if F.CNT_STAT_SEL_COPY.get sel = 1 then d.file.snap else d.file.cnt) key

-- Reading a block register -------------------------------------------------------------------------------------------

/-- Registers that a lane which is not its port's first lane does not have (R74, R97). -/
def Device.hiddenReg (d : Device) (h : RegHit) : Bool :=
  match h.row.page with
  | .port => d.innerLane (32 * h.inst + h.ix.headD 0)
  | .lane =>
    (h.row.id = .LANE_LN_BRINGUP ∨ h.row.id = .LANE_LN_AN_ADV ∨ h.row.id = .LANE_LN_AN_LP) &&
      d.innerLane (128 * h.inst + h.ix.headD 0)
  | _ => false

/-- The bits of a row that can be read (R7, R9). -/
def RegRow.readMask (r : RegRow) : Nat :=
  (r.fields.map fun f => if f.acc = .wo then 0 else (2 ^ f.w - 1) * 2 ^ f.lo).sum % 2 ^ 32

/-- A 64-bit counter behind this register, if it is one. -/
def Device.counterOf (d : Device) (h : RegHit) (a : Nat) : Option Nat :=
  let at_ := h.row.attrs
  if at_.contains .view then some (d.statView h)
  else if at_.contains .cntArr then some (d.cnt (d.keyOf h (a - h.rest)))
  else if at_.contains .cnt64 then some (d.cnt (if at_.contains .roHi then a - 4 else a))
  else none

/-- What a block register holds now, beside the latches. -/
def Device.peekBlock (d : Device) (h : RegHit) (a : Nat) : Nat :=
  let at_ := h.row.attrs
  match d.counterOf h a with
  | some n => if h.rest = 4 ∨ at_.contains .roHi then hi32 n else lo32 n
  | none =>
    let raw := (d.reg (d.keyOf h a)).toNat &&& h.row.readMask
    if at_.contains .live then d.liveReg h.row h.inst h.base h.ix ((d.selOf h).getD 0) raw else raw

/-- The same by address. -/
def Device.peek (d : Device) (a : Nat) : Nat :=
  match targetOf a with
  | .block h => d.peekBlock h a
  | _ => 0

/-- Key of a source's latch (R360). -/
def latchKey (src : Source) (a : Nat) : Nat := 2 * a + (if src = .smbus then 1 else 0)

/-- Before any LO read a latch holds the reset value of its register. -/
def latchReset (k : Nat) : Nat := (regReset (k / 2)).toNat

def Device.latched (d : Device) (src : Source) (a : Nat) : Nat := tabGet latchReset d.file.latch (latchKey src a)
def Device.setLatch (d : Device) (src : Source) (a n : Nat) : Device :=
  { d with file := { d.file with latch := tabSet latchReset d.file.latch (latchKey src a) n } }

/-- Latch the words that follow `a`. -/
def Device.latchRest (d : Device) (src : Source) (a : Nat) (ws : List Nat) : Device :=
  ((List.range ws.length).zip ws).foldl (fun d e => d.setLatch src (a + 4 * e.1) e.2) d

/-- The counters of a page that counts CYCLES are brought up to the present cycle. -/
def Device.syncPage (d : Device) (h : RegHit) : Device :=
  match h.row.page with
  | .gcnt => (List.range 8).foldl (fun d k => d.pcSync (some h.inst) k d.stroke.cyc) d
  | .cnt => (List.range 16).foldl (fun d k => d.pcSync none k d.stroke.cyc) d
  | _ => d

/-- SAMPLE_FIFO_READ: the oldest sample leaves its FIFO (R368). -/
def Device.samplePop (d : Device) (n : Nat) : List Nat × Device :=
  let none_ : Nat → List Sample := fun _ => []
  match tabGet none_ d.perf.fifo n with
  | [] => ([0, 0, 0, 0, 0, 0], d)
  | s :: t => (s.words, { d with perf := { d.perf with fifo := tabSet none_ d.perf.fifo n t } })

/-- RAS_LOG_READ: the oldest log entry leaves the log, and its words are latched (R402). -/
def Device.logPop (d : Device) : Nat × Device :=
  let e := d.ras.log.headD []
  (beAt e 0 4, { d with ras := { d.ras with log := d.ras.log.drop 1, logLatch := e } })

/-- The reads of a group: the first word, and what it latches. -/
def Device.groupRead (d : Device) (src : Source) (h : RegHit) (a : Nat) : Nat × Device :=
  let i := h.ix.headD 0
  match h.row.id with
  | .TIME_EV_FRAC =>
    let (w, d) := d.evtPop i
    (w.headD 0, d.latchRest src (a + 4) (w.drop 1))
  | .TIME_PPS_IN_CAP_FRAC =>
    let w := ((d.pulse.ppsIn.getD i none).map Capture.words).getD [0, 0, 0, 0]
    (w.headD 0, d.latchRest src (a + 4) (w.drop 1))
  | _ =>
    let w := d.nowWords
    (w.headD 0, d.latchRest src (a + 4) (w.drop 1))

/-- Reads that change what they read, or that are not a stored value (R55, R150, R368, R387, R402, R441). -/
def Device.specialRead (d : Device) (src : Source) (h : RegHit) (a : Nat) : Option (Nat × Device) :=
  let v := d.peekBlock h a
  match h.row.id with
  | .GCNT_SMP =>
    if h.ix.headD 0 = 0 then
      let (w, d) := d.samplePop h.inst
      some (w.headD 0, d.latchRest src (a + 4) (w.drop 1))
    else some (d.latched src a, d)
  | .RAS_LOG => if h.ix.headD 0 = 0 then some d.logPop else none
  | .RAS_LOG_STAT => some (v, { d with ras := { d.ras with logOvf := 0 } })
  | .TOP_SNAP_CTRL => some (v, { d with snap := { d.snap with merged := 0 } })
  | .STAIR_STAT =>
    some (v, { d with pkt := { d.pkt with stairPeak := tnatSet d.pkt.stairPeak h.inst (d.stairDepth h.inst) } })
  | .DAMPER_PEAK => some (v, { d with damper := { d.damper with peakW := 0 } })
  | .DAMPER_TEMP => some (v, { d with damper := { d.damper with tjPeak := 0 } })
  | .TOP_GPIO_IN =>
    let m := d.gpioDriven
    let (x, d) := d.free 16
    some (m.2 + (x &&& (0xFFFF - m.1)), d)
  | _ => none

/-- Read a block register: value, latches and side effects. -/
def Device.readBlock (d : Device) (src : Source) (h : RegHit) (a : Nat) : Nat × Device :=
  let at_ := h.row.attrs
  if d.fencedPage h.base h.inst ∨ d.hiddenReg h then (0, d)
  else
    let d := d.syncPage h
    match d.specialRead src h a with
    | some r => r
    | none =>
      if at_.contains .group0 then d.groupRead src h a
      else if at_.contains .groupN then (d.latched src a, d)
      else if at_.contains .roHi ∨ at_.contains .pairHi ∨ at_.contains .tripleHi ∨ h.rest = 4 then (d.latched src a, d)
      else
        let v := d.peekBlock h a
        if at_.contains .cntArr then (v, d.setLatch src (a + 4) (hi32 ((d.counterOf h a).getD 0)))
        else if at_.contains .roLo ∨ at_.contains .pairLo ∨ h.row.id = .TIME_TR_START_SEC_LO then (v, d.setLatch src (a + 4) (d.peek (a + 4)))
        else (v, d)

/-- A read that reaches the register space (R351 to R354). -/
def Device.readReg (d : Device) (src : Source) (a be : Nat) : Nat × Device :=
  if !wholeWord a be then (0, d.badAccess src a)
  else match targetOf a with
    | .unmapped => (0, d.err 0 a .unmapped src)
    | .reserved _ _ _ => (0, d)
    | .table off => (d.tableRead off, d)
    | .header p inst base off => (d.headerRead p inst base off, d)
    | .block h => d.readBlock src h a

/-- A read in the present device state: what is answered, if anything is. In RESET and THERMAL_SHUTDOWN the answer of DEV_STATE is
its state code alone, and FENCED_COUNT reads 0 (R28, R435; DEDUCED, log entry 3). -/
def Device.busRead (d : Device) (src : Source) (a be : Nat) : Option Nat × Device :=
  match d.gate src with
  | .silent => (none, d)
  | .closed =>
    (some (if a = A.TOP_DEV_STATE ∧ be = 0xF then
      (if d.dev.state = .thermal then 6 else d.dev.state.code) else 0), d)
  | .bootOnly =>
    if 0x10000 ≤ a ∧ wholeWord a be ∧ targetOf a ≠ .unmapped then (some 0, d)
    else (fun (r : Nat × Device) => (some r.1, r.2)) (d.readReg src a be)
  | .open_ => (fun (r : Nat × Device) => (some r.1, r.2)) (d.readReg src a be)

/-- A read by a command: its data is the last read by that source. -/
def busReadStep (d : Device) (src : Source) (a be : Nat) : Device :=
  let (v, d) := d.busRead src a be
  match v, src with
  | none, _ => d
  | some v, .pcie => { d with file := { d.file with pcieData := BitVec.ofNat 32 v } }
  | some v, .smbus => { d with file := { d.file with smbusData := BitVec.ofNat 32 v } }

/-- Where a VF's BAR2 reaches into the view region of the gallery that VF_MAP names (R372). -/
def Device.viewAt (d : Device) (f off : Nat) : Option Nat :=
  let w := d.reg (A.CNT_VF_MAP (f - 1))
  if f = 0 ∨ 31 < f ∨ 0x8000 ≤ off ∨ F.CNT_VF_MAP_VALID.get w = 0 then none
  else some (galBase (F.CNT_VF_MAP_GAL.get w) 11 + 0x8000 + off)

end Sys2Proof.Machine
end

