-- ==== Sys2Proof/Machine/Write.lean ====
section
/-! DEFINITION. Register writes: the access types of R7, the boot lock of R8 and R359, pairs (R11), what each block ignores
and records (R354), the header (R354 to R356), and the writes that act. REGISTER_WRITE, and every command that is a write of
one register, goes through `busWrite`. -/

namespace Sys2Proof.Machine

-- Field access types (R7 to R9) --------------------------------------------------------------------------------------

/-- What one field of a register becomes: the word with the field written, and whether the boot lock stopped a change. -/
def RegField.write (f : RegField) (locked : Bool) (old w : Nat) : Nat × Bool :=
  let o := bitsOf old f.lo f.w
  let n := bitsOf w f.lo f.w
  let at_ (v : Nat) : Nat := v * 2 ^ f.lo
  match f.acc with
  | .rw | .wo => (at_ n, false)
  | .ro => (at_ o, false)
  | .w1c => (at_ (o ^^^ (o &&& n)), false)
  | .w1s => (at_ o, false)
  | .rwl => if locked then (at_ o, o != n) else (at_ n, false)

/-- The fields of a register, each by its access type: the word it holds after the write, and whether to record LOCKED. -/
def RegRow.written (r : RegRow) (locked : Bool) (old w : Nat) : Nat × Bool :=
  r.fields.foldl (fun p f => let q := f.write locked old w; (p.1 + q.1, p.2 || q.2)) (0, false)

-- Records ------------------------------------------------------------------------------------------------------------

/-- Record an access to a block register; a ring window's goes to the HOST page (R347). -/
def Device.recordAt (d : Device) (src : Source) (h : RegHit) (a : Nat) (k : ErrKind) : Device :=
  if h.row.page = .rings then d.err 0x10000 (a - h.base) k src else d.err h.base (a - h.base) k src

-- Writes a block ignores ---------------------------------------------------------------------------------------------

/-- A generation slot takes writes: it is not the active one, and the state is STEADY (R50, R148). -/
def Device.slotOpen (d : Device) (slot : Nat) : Bool :=
  d.gen.state == .steady && slot != slotOf d.gen.active

/-- A parser bank that is active or held takes no writes (R120). -/
def Device.bankBusy (d : Device) (b : Nat) : Bool :=
  let w := d.reg A.TOP_PARSE_BANK
  F.TOP_PARSE_BANK_ACTIVE.get w == b || F.TOP_PARSE_BANK_OLD_HELD.get w == 1

/-- A valid group names the template (R315). -/
def Device.templateUsed (d : Device) (t : Nat) : Bool :=
  d.anvil.groups.any fun e => e.2.valid &&
    (d.gFld A.ANVIL_G_TPL e.1 F.ANVIL_G_TPL_TPL_UP == t || d.gFld A.ANVIL_G_TPL e.1 F.ANVIL_G_TPL_TPL_DOWN == t)

/-- Is a write of this register ignored and recorded under its block's rule, whatever its data? -/
def Device.blocked (d : Device) (h : RegHit) (a : Nat) : Bool :=
  let at_ := h.row.attrs
  let i := h.ix.headD 0
  let off := a % 0x100000
  let group := F.ANVIL_G_SEL_GROUP.get (d.reg A.ANVIL_G_SEL)
  (at_.contains .configOnly && d.dev.state != .config) ||
  (at_.contains .whileEn && d.ringOn i) ||
  (match h.row.id with
   | .MATCH_LU_CFG | .MATCH_LU_AUX | .EGRESS_LU_CFG | .EGRESS_LU_AUX => !d.slotOpen i && !d.wordPoisoned h.inst off
   | .PARSE_ST_HDR | .PARSE_ST_LEN | .PARSE_ST_KEY | .PARSE_ST_DEFAULT | .PARSE_ST_TR_MATCH | .PARSE_ST_TR_NEXT
   | .PARSE_ST_EX => d.bankBusy i && !d.wordPoisoned h.inst off
   | .GATE_GT_CYCLE | .GATE_GT_BASE_NS | .GATE_GT_BASE_SEC_LO | .GATE_GT_BASE_SEC_HI =>
     (d.gateSt (32 * h.inst + i)).pending
   | .GATE_GT_GATES | .GATE_GT_INTERVAL =>
     let g := d.gateSt (32 * h.inst + i)
     g.pending || g.bank == h.ix.getD 1 0
   | .TELEM_C_TPL | .TELEM_C_TPL_BYTES => F.TELEM_C_CFG_EN.get (d.reg (A.TELEM_C_CFG i)) == 1
   | .ANVIL_T_CFG | .ANVIL_T_BYTES => d.templateUsed i
   | .ANVIL_G_MEMBERS | .ANVIL_G_EPOCH | .ANVIL_G_PARENT | .ANVIL_G_TPL | .ANVIL_G_TMR | .ANVIL_G_RETAIN
   | .ANVIL_G_LOW => (d.redGroup group).valid
   | _ => false)

-- Storing ------------------------------------------------------------------------------------------------------------

/-- Store a word at the register's key, to take effect at the next boundary where its chapter says so. -/
def Device.store (d : Device) (h : RegHit) (a v : Nat) : Device :=
  let k := d.keyOf h a
  let d := if h.row.page = .integ then d.integKeep k else d
  if h.row.attrs.contains .atBoundary then d.setRegHeld k (BitVec.ofNat 32 v) else d.setReg k (BitVec.ofNat 32 v)

/-- A write of every field by its access type (R7, R8). -/
def Device.writeFields (d : Device) (src : Source) (h : RegHit) (a : Nat) (w : Word) : Device :=
  let (v, lockedOut) := h.row.written d.file.locked (d.reg (d.keyOf h a)).toNat w.toNat
  let d := if lockedOut then d.recordAt src h a .locked else d
  d.store h a v

/-- A LO half, or another early word of a group, is held until the last word commits (R11, R272). -/
def Device.holdWord (d : Device) (src : Source) (h : RegHit) (a : Nat) (w : Word) : Device :=
  let (v, _) := h.row.written false 0 w.toNat
  { d with file := { d.file with loHeld := assocSet d.file.loHeld (latchKey src a) (BitVec.ofNat 32 v) } }

/-- The held word of `a`, or what is in force there; it is held no longer. -/
def Device.takeHeld (d : Device) (src : Source) (a : Nat) : Nat × Device :=
  let k := latchKey src a
  match assoc d.file.loHeld k with
  | some v => (v.toNat, { d with file := { d.file with loHeld := assocDel d.file.loHeld k } })
  | none => (d.peek a, d)

-- Writes that act ----------------------------------------------------------------------------------------------------

/-- ACT_WORD_WRITE and ACT_WORD_READ: an access through a gallery's action window (R149). A word that an error made zero
may be rewritten in either slot and in any state (R392), and a row out of service keeps nothing (R393). -/
def actCommand (d : Device) (src : Source) (n : Nat) (w : Word) : Device :=
  let ad := d.reg (A.MATCH_ACT_ADDR n)
  let ix := F.MATCH_ACT_ADDR_INDEX.get ad
  let st := F.MATCH_ACT_ADDR_STAGE.get ad
  let sl := F.MATCH_ACT_ADDR_SLOT.get ad
  let place := 0x100000 + 8192 * st + 4096 * sl + ix
  let word := ((List.range 4).map fun i => (d.reg (A.MATCH_ACT_DATA n i)).toNat * 2 ^ (32 * i)).sum
  let d :=
    if F.MATCH_ACT_CMD_WRITE.get w = 0 then d
    else
      let all := if F.MATCH_ACT_ADDR_BCAST.get ad = 1 then (List.range 32).filter fun g => !d.isFenced g else [n]
      let targets := if d.slotOpen sl then all else all.filter fun g => d.wordPoisoned g place
      if targets.isEmpty then d.refuse src (A.MATCH_ACT_CMD n)
      else targets.foldl (fun d g =>
        let d := d.wordWritten g place
        let v := if d.wordDead g place then 0 else word
        { d with pkt := { d.pkt with acts := tnatSet d.pkt.acts (actKey g st sl ix) v } }) d
  if F.MATCH_ACT_CMD_READ.get w = 0 then d
  else
    let v := tnat d.pkt.acts (actKey n st sl ix)
    (List.range 4).foldl (fun d i => d.setReg (A.MATCH_ACT_DATA n i) (BitVec.ofNat 32 (bitsOf v (32 * i) 32))) d

/-- REP_LIST_WRITE and REP_LIST_READ: a word of a replication list (R190). A word written applies to packets admitted from
the next boundary (R187); a read gives the last word written. -/
def repCommand (d : Device) (src : Source) (w : Word) : Device :=
  let ad := d.reg A.HALL_REP_ADDR
  let word := F.HALL_REP_ADDR_WORD.get ad
  let key := 64 * F.HALL_REP_ADDR_LIST.get ad + word
  if F.HALL_REP_CMD_WRITE.get w = 0 ∧ F.HALL_REP_CMD_READ.get w = 0 then d
  else if 32 < word then d.refuse src A.HALL_REP_CMD
  else
    let v := (d.reg A.HALL_REP_DATA).toNat
    let v := if word = 32 then v % 2 else v
    let d := if F.HALL_REP_CMD_WRITE.get w = 0 then d
      else { d with hall := { d.hall with replNew := assocSet d.hall.replNew key v } }
    if F.HALL_REP_CMD_READ.get w = 0 then d
    else d.setReg A.HALL_REP_DATA (BitVec.ofNat 32 ((assoc d.hall.replNew key).getD (tnat d.hall.repl key)))

/-- QMIN, IMIN and LMIN: the sum of all minima stays within the active profile's total (R182). -/
def Device.writeMinimum (d : Device) (src : Source) (h : RegHit) (a : Nat) (f : Fld) (w : Word) : Device :=
  let old := f.get (d.reg (d.keyOf h a))
  let sum := d.hall.minNext - old + f.get w
  if profMinima d.profile.active < sum ∧ old < f.get w then d.recordAt src h a .refused
  else
    let d := d.writeFields src h a w
    { d with hall := { d.hall with minNext := sum } }

/-- LOSSLESS with more bits than the profile allows is left as it is (R103). -/
def Device.writePfc (d : Device) (src : Source) (h : RegHit) (a : Nat) (w : Word) : Device :=
  let bad := profLossless d.profile.active < popCount (F.PORT_PT_PFC_LOSSLESS.get w) 8
  let w := if bad then F.PORT_PT_PFC_LOSSLESS.put w (F.PORT_PT_PFC_LOSSLESS.get (d.reg a)) else w
  let d := if bad then d.recordAt src h a .refused else d
  d.writeFields src h a w

/-- Headroom is computed again at the boundary after a change of a port's configuration (R107). -/
def Device.headroomAgain (d : Device) (h : RegHit) : Device :=
  d.modPort (32 * h.inst + h.ix.headD 0) fun s => { s with hdrmDirty := true }

/-- GT_CTRL: LEN stands while a list is pending; COMMIT checks the pending bank (R220). -/
def Device.writeGateCtrl (d : Device) (src : Source) (h : RegHit) (a : Nat) (w : Word) : Device :=
  let p := 32 * h.inst + h.ix.headD 0
  let f := F.GATE_GT_CTRL_LEN
  let old := f.get (d.reg a)
  let held := (d.gateSt p).pending
  let d := if held ∧ f.get w ≠ old then d.recordAt src h a .refused else d
  let d := d.setReg a (BitVec.ofNat 32 (F.GATE_GT_CTRL_EN.get w + (if held then old else f.get w) * 4))
  if F.GATE_GT_CTRL_COMMIT.get w = 1 then gateCommit d p else d

/-- G_CFG (R305, R306): VALID = 1 asks for the enable at the next boundary, VALID = 0 for the disable of a valid group; of a
valid group's descriptor nothing else is written. -/
def Device.writeGroup (d : Device) (src : Source) (h : RegHit) (a : Nat) (w : Word) : Device :=
  let g := F.ANVIL_G_SEL_GROUP.get (d.reg A.ANVIL_G_SEL)
  let s := d.redGroup g
  let on := F.ANVIL_G_CFG_VALID.get w = 1
  if s.valid then
    if on then d.recordAt src h a .refused
    else d.setGroup g { s with want := some false, wantSrc := src }
  else
    let d := d.setReg (d.keyOf h a) (F.ANVIL_G_CFG_VALID.put w 0 &&& 0x07FFFFFF#32)
    d.setGroup g { s with want := if on then some true else none, wantSrc := src }

/-- A configuration write of a shaper, which sets its bucket at the boundary (R211). -/
def Device.shaperWritten (d : Device) (a : Nat) : Device :=
  match shaperAt a with
  | some k => { d with sched := { d.sched with dirty := (k :: d.sched.dirty).eraseDups } }
  | none => d

/-- The same for a meter (R222). -/
def Device.meterWritten (d : Device) (h : RegHit) : Device :=
  let m := 8192 * h.inst + F.POLICE_M_SEL_METER.get (d.reg (A.POLICE_M_SEL h.inst))
  { d with sched := { d.sched with meterDirty := (m :: d.sched.meterDirty).eraseDups } }

/-- Bits that a write of 1 clears and that a unit holds, not the register file. -/
def Device.clearLive (d : Device) (h : RegHit) (w : Word) : Option Device :=
  let i := h.ix.headD 0
  let one (f : Fld) : Bool := f.get w == 1
  let noLow (k : Nat) (f : Fld) : Device :=
    if one f then { d with sched := { d.sched with burstLow := tnatSet d.sched.burstLow k 0 } } else d
  match h.row.id with
  | .TOP_GEN_STAT =>
    some (if one F.TOP_GEN_STAT_NOTIFY_ERR then { d with gen := { d.gen with notifyErr := false } } else d)
  | .LANE_LN_STAT =>
    some (if one F.LANE_LN_STAT_EQ_CLIP then d.modLane (128 * h.inst + i) fun s => { s with eqClip := false } else d)
  | .SCHED_Q_STAT => some (noLow (queueBucket (512 * h.inst + i)) F.SCHED_Q_STAT_BURST_LOW)
  | .SCHED_P_STAT => some (noLow (portBucket (32 * h.inst + i)) F.SCHED_P_STAT_BURST_LOW)
  | .SCHED_G_STAT => some (noLow (groupBucket (128 * h.inst + i)) F.SCHED_G_STAT_BURST_LOW)
  | .GATE_GT_STAT =>
    let p := 32 * h.inst + i
    some (if one F.GATE_GT_STAT_COMMIT_BAD then d.setGate p { d.gateSt p with commitBad := false } else d)
  | .INTEG_SA_STAT =>
    let sa := F.INTEG_SA_SEL_SA.get (d.reg (A.INTEG_SA_SEL h.inst))
    some (if one F.INTEG_SA_STAT_THRESH then d.setSa h.inst sa { d.saSt h.inst sa with thresh := false } else d)
  | .ANVIL_G_STAT =>
    let g := F.ANVIL_G_SEL_GROUP.get (d.reg A.ANVIL_G_SEL)
    let s := d.redGroup g
    some (d.setGroup g { s with
      noRoom := s.noRoom && !one F.ANVIL_G_STAT_NO_ROOM
      badCfg := s.badCfg && !one F.ANVIL_G_STAT_BAD_CFG })
  | .DAMPER_AVS_STAT =>
    some (if one F.DAMPER_AVS_STAT_AVS_ERR then { d with damper := { d.damper with avsErr := false } } else d)
  | _ => none

/-- CLR_ALL is carried out at the boundary, FREEZE takes effect there (R365). -/
def Device.writePcCtrl (d : Device) (src : Source) (h : RegHit) (a : Nat) (w : Word) : Device :=
  let d := d.writeFields src h a w
  if bit w.toNat 1 then { d with perf := { d.perf with clearAll := (h.base :: d.perf.clearAll).eraseDups } } else d

/-- The writes that do more than store their fields; none where a write only stores. -/
def Device.hookWrite (d : Device) (src : Source) (h : RegHit) (a : Nat) (w : Word) : Option Device :=
  let i := h.ix.headD 0
  let lane := 128 * h.inst + i
  let link := 16 * h.inst + i
  let port := 32 * h.inst + i
  match h.row.id with
  | .TOP_DEV_CTRL => some (devGoWrite d src w)
  | .TOP_GAL_FENCE_REQ => some (fenceReqWrite d w)
  | .TOP_GEN_CTRL => some (genCtrlWrite d src w)
  | .TOP_SNAP_CTRL => some (snapCtrlWrite d w)
  | .TOP_SNAP_PERIOD => some (snapPeriodWrite d w)
  | .TOP_PROFILE => some (profileStage d src w)
  | .TOP_PARSE_BANK => some (parseBankWrite d w)
  | .TOP_BOOT_LOCK =>
    some (if bit w.toNat 0 then { d with file := { d.file with locked := true } } else d)
  | .TOP_RESET_CTRL => some (resetCtrlWrite d w)
  | .TOP_BOOT_DL_CMD => some (bootDlWrite d src w)
  | .LANE_LN_CTRL => some (lnCtrlWrite d src lane w)
  | .LANE_LN_TXEQ => some (lnTxeqWrite d lane w)
  | .LANE_LN_RXEQ => some (lnRxeqWrite d lane w)
  | .LANE_LN_BRINGUP => some (lnBringupWrite d src lane w)
  | .LANE_LN_PRBS => some (lnPrbsWrite d src lane w)
  | .LANE_LN_INJ => some (lnInjWrite d src lane w)
  | .LANE_LN_BITSLIP => some (lnBitslipWrite d src lane w)
  | .D2D_LK_CTRL => some (lkCtrlWrite d link w)
  | .D2D_LK_SLIP => some (lkSlipWrite d src link w)
  | .PORT_PT_CFG => some (ptCfgWrite d src port w)
  | .PORT_PT_PFC => some ((d.writePfc src h a w).headroomAgain h)
  | .PORT_PT_FRAME | .PORT_PT_DELAY_CFG | .PORT_PT_HDRM => some ((d.writeFields src h a w).headroomAgain h)
  | .MATCH_ACT_CMD => some (actCommand d src h.inst w)
  | .TABLE_FFT_CFG =>
    let d := d.writeFields src h a w
    some (if F.TABLE_FFT_CFG_FLUSH.get w = 1 then d.fftFlushAsk else d)
  | .HALL_Q_CFG => some (d.writeMinimum src h a F.HALL_Q_CFG_QMIN w)
  | .HALL_P_CFG => some (d.writeMinimum src h a F.HALL_P_CFG_IMIN w)
  | .HALL_C_CFG => some (d.writeMinimum src h a F.HALL_C_CFG_LMIN w)
  | .HALL_REP_CMD => some (repCommand d src w)
  | .SCHED_Q_RATE | .SCHED_Q_BURST | .SCHED_P_RATE | .SCHED_P_BURST | .SCHED_G_RATE | .SCHED_G_BURST =>
    some ((d.writeFields src h a w).shaperWritten a)
  | .POLICE_M_CFG | .POLICE_M_CIR | .POLICE_M_CBS | .POLICE_M_PIR | .POLICE_M_PBS =>
    some ((d.writeFields src h a w).meterWritten h)
  | .GATE_GT_CTRL => some (d.writeGateCtrl src h a w)
  | .KEYS_KEY_CMD => some (keyCmdWrite d src w)
  | .TIME_STEP_CTRL => some (stepCtrlWrite d src w)
  | .TIME_CLK_CFG => some (clkCfgWrite d w)
  | .TIME_SERVO_CTRL => some (servoCtrlWrite d w)
  | .TIME_SRC_PNUM =>
    let changed := d.reg a != w &&& 0xFFFF#32
    some ((d.writeFields src h a w).servoWritten changed)
  | .TIME_TR_CTRL => some (trCtrlWrite d src i w)
  | .TIME_TR_COUNT => some ((d.writeFields src h a w).setTrig i { d.trig i with given := 0 })
  | .TIME_LEDGER_CTRL => some (ledgerCtrlWrite d src w)
  | .TELEM_FS_CFG =>
    let d := d.writeFields src h a w
    some (if F.TELEM_FS_CFG_FLUSH.get w = 1 then d.flowFlushAsk else d)
  | .ANVIL_G_CFG => some (d.writeGroup src h a w)
  | .ANVIL_G_LOW =>
    let g := F.ANVIL_G_SEL_GROUP.get (d.reg A.ANVIL_G_SEL)
    some (d.setGroup g { d.redGroup g with low := w.toNat })
  | .SEQ_RL_CMD => some (rlCmdWrite d src (i + 1) w)
  | .SEQ_RL_SVN_MIN =>
    some (if w.toNat < (d.reg a).toNat ∧ !d.file.locked then d else d.writeFields src h a w)
  | .SEQ_SQ_CTRL => some (sqCtrlWrite d src i w)
  | .SEQ_SQ_MBOX_IN => some (mboxWrite d i w)
  | .SEQ_SQ_FLAGS => some (sqFlagsWrite d i w)
  | .HOST_RING_FN => some (ringFnWrite d src i w)
  | .RINGS_RW_CTRL => some (ringCtrlWrite d src i w)
  | .GCNT_PC_GCTL | .CNT_PC_GCTL => some (d.writePcCtrl src h a w)
  | .RAS_RR_CFG =>
    let d := d.writeFields src h a w
    some (if F.RAS_RR_CFG_CLEAR.get w = 1 then rrClear d src else d)
  | _ => d.clearLive h w

/-- Commit a pair (R11): both halves take effect together, and some pairs act. -/
def Device.commitPair (d : Device) (src : Source) (h : RegHit) (a : Nat) (w : Word) : Device :=
  let (lo, d) := d.takeHeld src (a - 4)
  let hi := (h.row.written false 0 w.toNat).1
  let both (d : Device) : Device := (d.store h a hi).store h (a - 4) lo
  match h.row.id with
  | .INTEG_SA_PN_HI =>
    saPnCommit d src h.inst (F.INTEG_SA_SEL_SA.get (d.reg (A.INTEG_SA_SEL h.inst))) lo hi
  | .TIME_RATE_HI => (both d).rateCommit lo hi
  | .TIME_LEDGER_SEQ_HI => { d with ledger := { d.ledger with seq := hi * 2 ^ 32 + lo } }
  | .TIME_SRC_ID_HI =>
    let changed := d.pair A.TIME_SRC_ID_LO A.TIME_SRC_ID_HI != hi * 2 ^ 32 + lo
    (both d).servoWritten changed
  | .GCNT_PC_VAL_HI | .CNT_PC_VAL_HI =>
    let w := a - 0x14
    { d with perf := { d.perf with
      val := tnatSet d.perf.val w (hi * 2 ^ 32 + lo)
      cycDone := tnatSet d.perf.cycDone w (min (tnat d.perf.cycDone w) d.stroke.cyc)
      committed := some w } }
  | _ => both d

/-- Commit a trigger's start (R272): the SEC_HI write commits all three words. -/
def Device.commitStart (d : Device) (src : Source) (h : RegHit) (a : Nat) (w : Word) : Device :=
  let k := h.ix.headD 0
  let (lo, d) := d.takeHeld src (a - 4)
  let (ns, d) := d.takeHeld src (a - 8)
  let hi := (h.row.written false 0 w.toNat).1
  let d := ((d.setReg a (BitVec.ofNat 32 hi)).setReg (a - 4) (BitVec.ofNat 32 lo)).setReg (a - 8) (BitVec.ofNat 32 ns)
  d.setTrig k { d.trig k with startSec := hi * 2 ^ 32 + lo, startNs := ns }

/-- A configuration word has been written: one that an error made zero is whole again, one out of service stays zero
(R392, R393). -/
def Device.settleWord (d : Device) (h : RegHit) (a : Nat) : Device :=
  if !galleryPage h.base then d
  else
    let off := d.wordPlace h.row.id h.inst (a % 0x100000)
    let d := if d.wordPoisoned h.inst off then d.wordWritten h.inst off else d
    if d.wordDead h.inst off then d.zeroWord h.inst off else d

/-- Write a block register. -/
def Device.writeBlock (d : Device) (src : Source) (h : RegHit) (a : Nat) (w : Word) : Device :=
  let at_ := h.row.attrs
  if d.fencedPage h.base h.inst then d.recordAt src h a .fenced
  else if d.hiddenReg h then d
  else if d.blocked h a then d.recordAt src h a .refused
  else
    let d := d.syncPage h
    if at_.contains .pairLo ∨ at_.contains .tripleLo then d.holdWord src h a w
    else if at_.contains .pairHi then (d.commitPair src h a w).settleWord h a
    else if at_.contains .tripleHi then d.commitStart src h a w
    else match d.hookWrite src h a w with
      | some d => d.settleWord h a
      | none => (d.writeFields src h a w).settleWord h a

-- The header ---------------------------------------------------------------------------------------------------------

/-- A write to IRQ_STAT or IRQ_MASK that leaves the page pending asks for its message (R356). -/
def Device.askIfPending (d : Device) (base : Nat) : Device :=
  if d.pagePending base then { d with file := { d.file with irqAsk := (base / 0x10000) :: d.file.irqAsk } } else d

/-- Force the bits of IRQ_STAT that `w` names (R354). -/
def Device.forceBits (d : Device) (base bits : Nat) (w : Word) : Device :=
  ((List.range bits).filter fun k => bit w.toNat k).foldl (fun d k => d.raise base k) d

/-- Write a header register (R354). On a fenced gallery's sub-page only IRQ_STAT and SCRATCH take writes (R34). -/
def Device.headerWrite (d : Device) (src : Source) (p : Page) (inst base off : Nat) (w : Word) : Device :=
  if d.fencedPage base inst ∧ off ≠ 0x10 ∧ off ≠ 0x2C then d.err base off .fenced src
  else match off with
    | 0x08 => if bit w.toNat 0 then (d.setReg (base + 0x20) 0#32).setReg (base + 0x24) 0#32 else d
    | 0x10 => (d.setReg (base + 0x10) (d.reg (base + 0x10) &&& ~~~ w)).askIfPending base
    | 0x14 => (d.setReg (base + 0x14) (w ||| ~~~ BitVec.ofNat 32 (2 ^ irqBits p - 1))).askIfPending base
    | 0x18 => d.forceBits base (irqBits p) w
    | 0x1C => d.setReg (base + 0x1C) (w &&& 0x1FFF#32)
    | 0x2C => d.setReg (base + 0x2C) w
    | _ => d

/-- A write that reaches the register space (R351 to R354). -/
def Device.writeReg (d : Device) (src : Source) (a be : Nat) (w : Word) : Device :=
  if !wholeWord a be then d.badAccess src a
  else match targetOf a with
    | .unmapped => d.err 0 a .unmapped src
    | .reserved p inst base =>
      if p ≠ .rings ∧ d.fencedPage base inst then d.err base (a - base) .fenced src else d
    | .table _ => d.err 0 a .unmapped src
    | .header p inst base off => d.headerWrite src p inst base off w
    | .block h => d.writeBlock src h a w

/-- A write in the present device state. In BOOT only the TOP page takes writes (R414). In RESET a write is ignored whole and nothing
is recorded, one of GO too: R435 is followed over R28's record (DEDUCED, log entry 3). -/
def busWrite (d : Device) (src : Source) (a be : Nat) (w : Word) : Device :=
  match d.gate src with
  | .silent | .closed => d
  | .bootOnly =>
    if 0x10000 ≤ a ∧ wholeWord a be ∧ targetOf a ≠ .unmapped then d.err 0 a .refused src else d.writeReg src a be w
  | .open_ => d.writeReg src a be w

end Sys2Proof.Machine
end

