-- ==== Sys2Proof/Machine/BootEnd.lean ====
section
/-! DEFINITION. The end of BOOT: a verified image is applied and the device enters CONFIG (R399, R414). -/

namespace Sys2Proof.Machine

/-- The register list is applied in order; what a rule refuses is recorded and the list goes on (R414). The boundaries that
pass before CONFIG put every write in force. -/
def Device.bootRegisters (d : Device) (l : List (Nat × Nat)) : Device :=
  let d := l.foldl (fun d e => d.writeReg .pcie e.1 0xF (BitVec.ofNat 32 e.2)) d
  { d with file := { d.file with held := [] } }

/-- Step 5: the AVSBus target is set and the core steps up under R376: with AVSBus in use the step waits for a readback, and
CORE_FREQ_UP makes it; else it is made without waiting. A transaction that is not acknowledged sets AVS_ERR, and the core stays
at 1.600 GHz (R375, R376, R414). The steps that follow do not wait for the readback (DESIGN CHOICE, log entry 39). -/
def Device.bootVoltage (d : Device) (ack : Bool) : Device :=
  if d.avsOn ∧ !ack then d.avsFail
  else if d.wantSlow then d.avsWrite true
  else if d.avsOn then if d.damper.avsErr then d else d.upStepWait
  else { d with damper := { d.damper with slow := false, upFrom := none } }

/-- Step 6: the HBM3E stacks are trained, and the Lower Hall's system area is initialised: free rings that name every billet, no
state bit set, no extension table, flow record, retained index or ledger record in storage, and zeros elsewhere (R164, R194, R195,
R414). -/
def Device.bootLowerHall (d : Device) : Device :=
  { d with
    billet := { ({} : BilletUnit) with units := d.billet.units, cfgBad := d.billet.cfgBad, quarantined := d.billet.quarantined }
    seq := { d.seq with lhMem := [] } }

/-- A register that lies in one of the configuration memories of R392: a parse state, a template, and a meter's or a shaper's
configuration. -/
def inConfigMemory (r : RegRow) : Bool :=
  r.attrs.contains .noReset ||
  match r.id with
  | .PARSE_ST_HDR | .PARSE_ST_LEN | .PARSE_ST_KEY | .PARSE_ST_DEFAULT | .PARSE_ST_TR_MATCH | .PARSE_ST_TR_NEXT | .PARSE_ST_EX
  | .POLICE_M_CFG | .POLICE_M_CIR | .POLICE_M_CBS | .POLICE_M_PIR | .POLICE_M_PBS
  | .SCHED_Q_RATE | .SCHED_Q_BURST | .SCHED_P_RATE | .SCHED_P_BURST | .SCHED_G_RATE | .SCHED_G_BURST => true
  | _ => false

/-- Step 9: the Upper Hall, the shared tables, the action words, the replication lists and the configuration memories of R392 are
written to zero. What the register list wrote there is lost. A field that its chapter gives another reset value reads that
value: no agent could ever read it otherwise (R414; DEDUCED, log entry 39). -/
def Device.bootMemories (d : Device) : Device :=
  { d with
    table := { d.table with pool := [], tern := [], groups := [], members := [], ext := [] }
    pkt := { d.pkt with acts := [], frames := [] }
    hall := { d.hall with repl := [], replNew := [], copies := [] }
    file := { d.file with regs := d.file.regs.filter fun e =>
      !((rowAt (e.1 % 0x10000000)).map fun r => inConfigMemory r.1).getD false } }

/-- The banks that the image loaded become active, and their sequencers start at ENTRY (R414). -/
def Device.bootSequencers (d : Device) : Device :=
  let loaded := [1, 2, 3, 4, 5].filter fun r => (d.role r).idle.st = 2
  let d := loaded.foldl (fun d r => d.modRole r fun v => { v with active := 1 - v.active }) d
  ((List.range 16).filter fun s => loaded.contains (roleOf s)).foldl (fun d s => d.seqStart s) d

/-- BOOT_IMAGE_COMPLETE: steps 4 to 11 of R414 for an image that verified. `ack` tells whether the regulator acknowledged,
`spent` the HBM3E stacks without a repair resource left, and `failed` the die-to-die lanes that failed their lane test, by
link, direction and lane. -/
def bootImageComplete (d : Device) (ack : Bool) (spent : List Nat) (failed : List (Nat × Nat × Nat)) : Device :=
  match d.boot.ready with
  | none => d
  | some (list, lock) =>
    if d.dev.state ≠ .boot then d
    else
      let bad (k dir : Nat) : List Nat := (failed.filter fun (e : Nat × Nat × Nat) => e.1 = k ∧ e.2.1 = dir).map (·.2.2)
      let d := ((d.bootRegisters list).bootVoltage ack).bootLowerHall
      let d := d.applyRecord spent
      let d := (List.range 128).foldl (fun d k => linkTrain d k (bad k 0) (bad k 1)) d
      let d := (d.bootMemories).bootSequencers
      let d := { d with
        file := { d.file with locked := d.file.locked || lock }
        boot := { d.boot with ready := none, imageLocked := lock } }
      (d.toState .config).testLanes

end Sys2Proof.Machine
end

