-- ==== Sys2Proof/Machine/Stroke.lean ====
section
/-! DEFINITION. The stroke boundary (R35, R38, R40, R41): what ends with a stroke, in order, and what begins with the next. -/

namespace Sys2Proof.Machine

-- What the ended stroke leaves ---------------------------------------------------------------------------------------

/-- The windows whose PC_STAT is not at reset. -/
def Device.pcWindows (d : Device) : List Nat :=
  (d.file.regs.map (·.1)).filterMap fun a =>
    if a % 0x40 = 0x28 ∧ (pcAt (a - 0x28)).isSome then some (a - 0x28) else none

/-- Every counter as the strokes up to this boundary leave it, for a snapshot that falls here (R54), and the generation that
was active in the stroke that ends (R55). -/
def Device.keepEdges (d : Device) : Device :=
  { d with
    file := { d.file with edge := d.file.cnt }
    perf := { d.perf with
      edge := d.perf.val
      edgeOvf := d.pcWindows.filter fun w => bit (d.reg (w + 0x28)).toNat 0 }
    gen := { d.gen with last := d.gen.active } }

/-- CLR_ALL: the value and OVF of every counter of the page become zero (R365, R373). -/
def Device.pcClear (d : Device) : Device :=
  let d := d.perf.clearAll.foldl (fun d base =>
    (List.range (if base = 0x70000 then 16 else 8)).foldl (fun d k =>
      let w := pcWin base k
      let d := { d with perf := { d.perf with val := tnatSet d.perf.val w 0 } }
      d.setReg (w + 0x28) (d.reg (w + 0x28) &&& 2#32)) d) d
  { d with perf := { d.perf with clearAll := [] } }

/-- Budgets end with the stroke: what was used and the waits so far are latched, and nothing carries over (R38, R40). -/
def Device.budgetBoundary (d : Device) : Device :=
  { d with budget := { d.budget with last := d.budget.used, waitShown := d.budget.wait, used := [] } }

/-- Writes that waited for the boundary take effect. -/
def Device.settleHeld (d : Device) : Device :=
  { d with
    file := { d.file with held := [] }
    table := { d.table with lpmOld := [] }
    hall := { d.hall with
      repl := d.hall.replNew.foldl (fun t e => tnatSet t e.1 e.2) d.hall.repl
      replNew := [] } }

/-- MIN_SUM is latched, and minima are scaled no longer once it lies within the profile's total (R182, R190). -/
def Device.minBoundary (d : Device) : Device :=
  { d with hall := { d.hall with
    minSum := d.hall.minNext
    minScaled := d.hall.minScaled && decide (profMinima d.profile.active < d.hall.minNext) } }

/-- The average occupancy of every queue (R229), and the free shared cells latched for the stroke (R183). -/
def Device.occupancyBoundary (d : Device) : Device :=
  let d := d.hall.queues.foldl (fun d e =>
    let s := d.queueSt e.1
    let w := F.HALL_Q_MARK_AVG_W.get (d.cfg (qReg A.HALL_Q_MARK e.1))
    d.setQueueSt e.1 { s with avg := s.avg + (Int.ofNat s.held - s.avg) / Int.ofNat (2 ^ w) }) d
  { d with hall := { d.hall with freeShown := d.hall.free } }

/-- Egress mirror copies that waited for the write budget are written as far as it reaches, in order (R177). -/
def Device.mirrorBoundary (d : Device) : Device :=
  let all := d.pkt.mirrorWait
  all.foldl (fun d e =>
    match d.frame e.1 with
    | none => d
    | some f =>
      if !d.canAdmit 0x04 f.gal e.2 1 0 e.1 then { d with pkt := { d.pkt with mirrorWait := d.pkt.mirrorWait ++ [e] } }
      else
        let q := (d.hall.copies.find? fun c => c.frame = e.1).map (·.queue)
        let d := (d.spend 0x04 f.gal e.2 e.1).event (some f.gal) 0x3003 e.2 q (d.evOf f f.pass false)
        (d.modFrame e.1 fun f => { f with checked := true }).releaseFrame e.1)
    { d with pkt := { d.pkt with mirrorWait := [] } }

/-- The regulator's target follows the frequency in force and MARGIN_MV, from step 5 of BOOT on (R375, R414). -/
def Device.avsBoundary (d : Device) : Device :=
  let slow := d.damper.slow && d.damper.upFrom.isNone
  if d.dev.state ≠ .boot ∧ d.damper.vTarget ≠ d.avsTarget slow then d.avsWrite slow else d

/-- GO, the fences asked for and a fatal fault become due at this boundary (R26, R30, R397). -/
def Device.stateDue (d : Device) : Device :=
  { d with
    dev := { d.dev with
      goDue := d.dev.goDue || d.dev.goPending
      fenceDue := (d.dev.fenceReq ||| d.dev.hwFence) &&& ~~~ d.dev.fenced }
    ras := { d.ras with fatalDue := d.ras.fatalPending } }

-- The boundary -------------------------------------------------------------------------------------------------------

/-- What the stroke that ends still owns: its counters, messages, records, learn events, timers and stalls. `t` is its
length in 2^-16 ns. -/
def Device.endStroke (d : Device) (t : Nat) : Device :=
  let d := d.bulkBoundary.maintenance.pcBoundary.watchdogBoundary.dropBoundary.learnBoundary.fftBoundary
  let d := (d.anvilBoundary t).stairBoundary
  let d := d.msixBoundary.seqLooks
  d.keepEdges.pcClear

/-- Time passes and the stroke counter counts (R35). -/
def Device.tick (d : Device) (t : Nat) : Device :=
  let d := d.advance t
  { d with stroke := { d.stroke with
      num := d.stroke.num + 1, wraps := d.stroke.wraps + b2n (d.stroke.num + 1 == 0#64), cyc := 0, inT := 0 } }

/-- What begins with the stroke: settings in force, budgets, thresholds, tokens, and the work made at a boundary. `dev` is
the length of the stroke that ended, on the device clock. -/
def Device.beginStroke (d : Device) (dev : Nat) : Device :=
  let d := d.settleHeld.minBoundary
  let d := (d.damperBoundary dev).avsLate.avsBoundary
  let d := { d.budgetBoundary with pkt := { d.pkt with egStarts := [], portStarts := [] } }
  let d := d.snapBoundary.genBoundary.profileBoundary.stateDue
  let d := d.hallRelease.fenceDoneBoundary.spillBoundary
  let d := d.occupancyBoundary.mirrorBoundary.readBoundary.formBoundary.extBoundary
  let d := (d.shaperBoundary dev).meterBoundary dev
  let d := d.portBoundary.hdrmBoundary.fcBoundary.lpiBoundary.refBoundary.injBoundary
  let d := d.ageBoundary.seqBoundary
  let d := d.ageApply
  let d := d.ringBoundary.telemBoundary.ledgerBoundary
  d.rclkBoundary.scrubVisit.resetBoundary

/-- STROKE_BOUNDARY: a stroke ends. The core clock does not run in OFF, RESET and THERMAL_SHUTDOWN. -/
def strokeBoundary (d : Device) : Device :=
  if !d.clocked then d
  else
    let d := d.catchUp (d.strokeNo * 256 + 255)
    let t := d.stroke.inT + (256 - d.stroke.cyc) * d.cycleLen
    let was := d.clock.stepFree / 2 ^ 48
    let d := (d.endStroke t).tick t
    d.beginStroke (d.clock.stepFree / 2 ^ 48 - was)

end Sys2Proof.Machine
end

