-- ==== Sys2Proof/Machine/Mgmt.lean ====
section
/-! DEFINITION. The management ports: SMBus (R435) and JTAG (R437). -/

namespace Sys2Proof.Machine

-- SMBus (R435) -------------------------------------------------------------------------------------------------------

/-- One step of SMBus 3.2's packet error code: a byte into the CRC-8 of polynomial x^8 + x^2 + x + 1. -/
def pecByte (crc : Nat) (b : Byte) : Nat :=
  (List.range 8).foldl (fun c _ => if bit c 7 then (2 * c % 256) ^^^ 7 else 2 * c % 256) (crc ^^^ b.toNat)

/-- The packet error code of the bytes of a transaction. -/
def pecOf (bs : Bytes) : Nat := bs.foldl pecByte 0

/-- The 7-bit address the LX204 answers. -/
def Device.smbAddress (d : Device) : Nat := 0x58 + d.mgmt.smbStrap

/-- A Block Write to address `dest` is taken, for the command whose code is `cmd`: it has that code, its count is the one stated, and
a PEC byte that is sent matches. -/
def smbTakes (dest cmd count : Nat) (x : SmbBlock) (pec : Option Byte) : Bool :=
  x.cmd.toNat == cmd && x.data.length == count &&
    match pec with
    | none => true
    | some p => p.toNat == pecOf ([BitVec.ofNat 8 (2 * dest), BitVec.ofNat 8 cmd, BitVec.ofNat 8 count] ++ x.data)

/-- A Block Write: command 0x01, count 8, is a BAR0 offset and its data; command 0x02, count 4, sets the address. Any other, or one
whose PEC byte does not match, is not acknowledged. One to another address is not this device's (R435). -/
def Device.smbBlock (d : Device) (dest : Nat) (x : SmbBlock) (pec : Option Byte) : Device :=
  if d.dev.state = .off ∨ dest ≠ d.smbAddress then d
  else if smbTakes dest 1 8 x pec then busWrite d .smbus (beAt x.data 0 4) 0xF (BitVec.ofNat 32 (beAt x.data 4 4))
  else if smbTakes dest 2 4 x pec then { d with mgmt := { d.mgmt with smbAddr := BitVec.ofNat 32 (beAt x.data 0 4) } }
  else d.send .smbusNak

/-- SMBUS_WRITE: a Block Write whose command is 0x01 where it is carried out. -/
def smbusWrite (d : Device) (dest : Nat) (x : SmbBlock) (pec : Option Byte) : Device := d.smbBlock dest x pec

/-- SMBUS_SET_ADDRESS: a Block Write whose command is 0x02 where it is carried out. -/
def smbusSetAddress (d : Device) (dest : Nat) (x : SmbBlock) (pec : Option Byte) : Device := d.smbBlock dest x pec

/-- SMBUS_READ: Block Read, command 0x03: count 4, then the data at the set address, which advances by 4; a PEC byte follows
when the master clocks one. Any other command is not acknowledged. -/
def smbusRead (d : Device) (dest : Nat) (x : SmbRead) : Device :=
  if d.dev.state = .off ∨ dest ≠ d.smbAddress then d
  else if x.cmd ≠ 3#8 then d.send .smbusNak
  else
    let d := busReadStep d .smbus d.mgmt.smbAddr.toNat 0xF
    let body := BitVec.ofNat 8 4 :: beBytes 4 d.file.smbusData.toNat
    let head : Bytes := [BitVec.ofNat 8 (2 * dest), BitVec.ofNat 8 3, BitVec.ofNat 8 (2 * dest + 1)]
    let sent := if x.pec then body ++ [BitVec.ofNat 8 (pecOf (head ++ body))] else body
    ({ d with mgmt := { d.mgmt with smbAddr := d.mgmt.smbAddr + 4 } }).send (.smbus sent)

/-- SMBUS_TIMEOUT: the interface is reset, and with it the set address. -/
def smbusTimeout (d : Device) : Device := { d with mgmt := { d.mgmt with smbAddr := 0 } }

-- JTAG (R437) --------------------------------------------------------------------------------------------------------

/-- Load an instruction into the TAP, which has no power in OFF and is held in Test-Logic-Reset by TRST_N. -/
def Device.jtagLoad (d : Device) (i : JtagInstr) (shift : Nat) : Device :=
  if d.dev.state = .off ∨ d.mgmt.trstLow then d
  else { d with mgmt := { d.mgmt with jtag := i, shift := shift } }

/-- JTAG_IDCODE: the identification register. -/
def jtagIdcode (d : Device) : Device := d.jtagLoad .idcode 0x10204D2B

/-- JTAG_BYPASS: the bypass register. -/
def jtagBypass (d : Device) : Device := d.jtagLoad .bypass 0

/-- JTAG_SAMPLE_PRELOAD: the ball levels are captured, and new levels preloaded. -/
def jtagSample (d : Device) (levels preload : BallLevels) : Device :=
  let d := d.jtagLoad .sample levels.toNat
  if d.mgmt.trstLow ∨ d.dev.state = .off then d else { d with mgmt := { d.mgmt with preload := preload } }

/-- JTAG_EXTEST: the balls are driven at the preloaded levels and their inputs captured; BYPASS outside RESET and CONFIG. -/
def jtagExtest (d : Device) (levels : BallLevels) : Device :=
  let d := d.jtagLoad .extest 0
  if d.jtagActs = .extest ∧ !d.mgmt.trstLow then { d with mgmt := { d.mgmt with shift := levels.toNat } } else d

/-- JTAG_CLAMP: the balls are held at the preloaded levels, with the bypass register selected. -/
def jtagClamp (d : Device) : Device := d.jtagLoad .clamp 0

/-- JTAG_HIGHZ: the balls are set to high impedance, with the bypass register selected. -/
def jtagHighz (d : Device) : Device := d.jtagLoad .highz 0

/-- JTAG_TRST: TRST_N goes low, which holds the TAP in Test-Logic-Reset with IDCODE selected, or rises. -/
def jtagTrst (d : Device) (low : Bool) : Device :=
  if low then { d with mgmt := { d.mgmt with jtag := .idcode, shift := 0x10204D2B, trstLow := true } }
  else { d with mgmt := { d.mgmt with trstLow := false } }

end Sys2Proof.Machine
end

