-- ==== Sys2Proof/WellFormed.lean ====
section
/-! DEFINITION. Which commands exist: each operand lies in the range that the spec gives what it names. -/

namespace Sys2Proof

/-- A number below `n`. -/
def ltOk (n k : Nat) : Bool := decide (k < n)
/-- A gallery, GAL[0] to GAL[31] (R14). -/
def galOk (n : Nat) : Bool := ltOk 32 n
/-- A port, numbered by the lowest lane it uses (R94). -/
def portOk (p : Nat) : Bool := ltOk 1024 p
/-- A serial lane (R15). -/
def laneOk (l : Nat) : Bool := ltOk 1024 l
/-- A die-to-die link: 16 times its chiplet, and its number there (R15). -/
def linkOk (k : Nat) : Bool := ltOk 128 k
/-- A lane chiplet. -/
def chipletOk (c : Nat) : Bool := ltOk 8 c
/-- A core cycle of a stroke (R35). -/
def cycOk (c : Nat) : Bool := ltOk 256 c
/-- A sequencer (R317). -/
def seqOk (s : Nat) : Bool := ltOk 16 s
/-- A role of sequencers (R317). -/
def roleOk (r : Nat) : Bool := decide (1 ≤ r ∧ r ≤ 5)
/-- An image that is read from the host: a role's, or 0 for the boot download (R326, R415). -/
def imageOk (r : Nat) : Bool := ltOk 6 r
/-- A ring (R335). -/
def ringOk (r : Nat) : Bool := ltOk 512 r
/-- A billet pool (R196). -/
def poolOk (p : Nat) : Bool := ltOk 4 p
/-- An anvil (R295). -/
def anvilOk (a : Nat) : Bool := ltOk 64 a
/-- A reduction group (R304). -/
def groupOk (g : Nat) : Bool := ltOk 65536 g
/-- A virtual function (R332). -/
def vfOk (f : Nat) : Bool := decide (1 ≤ f ∧ f ≤ 31)
/-- Where an access enters: a VF is one of R332. -/
def Via.ok : Via → Bool
  | .pf | .smbus => true
  | .vf f | .view f => vfOk f
  | .config f => ltOk 32 f
/-- The path ends in the register space: BAR0, a VF's part of it, or SMBus. -/
def Via.bar : Via → Bool
  | .config _ => false
  | v => v.ok
/-- An offset in BAR0, of 256 MiB (R332). -/
def bar0Ok (a : Nat) : Bool := ltOk (2 ^ 28) a
/-- The byte enables of an access of up to eight bytes. -/
def byteEnOk (be : Nat) : Bool := ltOk 256 be
/-- The index of a page that has a header (R351). -/
def headerPage (ix : Nat) : Bool :=
  match Machine.pageOf (ix * 0x10000) with
  | some (p, _, _) => p != .rings
  | none => false
/-- A counter page: a gallery's, or the device's (R362). -/
def pcPageOk (g : Option Nat) : Bool := g.all galOk
/-- A counter of a page: eight in a gallery, sixteen in the device (R365). -/
def pcOk (g : Option Nat) (k : Nat) : Bool := pcPageOk g && ltOk (if g.isSome then 8 else 16) k
/-- Data lanes of one direction of a link (R90). -/
def dataLanesOk (l : List Nat) : Bool := l.all (ltOk 64)
/-- Lanes that failed at boot, each by link, direction and data lane. -/
def failedOk (l : List (Nat × Nat × Nat)) : Bool := l.all fun e => linkOk e.1 && ltOk 2 e.2.1 && ltOk 64 e.2.2
/-- HBM3E stacks (R17). -/
def stacksOk (l : List Nat) : Bool := l.all (ltOk 4)
/-- The readings of the 84 sensors (R384). -/
def sensorsOk (l : List Nat) : Bool := l.length == 84
/-- The quanta of the eight priorities (R105). -/
def quantaOk (l : List Nat) : Bool := l.length == 8 && l.all (ltOk 65536)
/-- A ring entry of 64 bytes (R335). -/
def entryOk (e : Option Bytes) : Bool := e.all fun b => b.length == 64
/-- A record type (R290). -/
def rtypeOk (t : Nat) : Bool := [1, 2, 3, 4, 0x10, 0x11, 0x12].contains t

/-- The command exists. -/
def Instr.wf : Instr → Bool
  | .powerUp smbAddr => ltOk 4 smbAddr
  | .supplyOutOfRange => true
  | .resetRelease gpio _ => ltOk 4 gpio
  | .bootSourceAttempt _ => true
  | .bootImageComplete _ spent failed => stacksOk spent && failedOk failed
  | .bootDlGo _ => true
  | .devGo _ => true
  | .enterRun => true
  | .thermalShutdown _ => true
  | .coldReset _ => true
  | .warmReset _ => true
  | .perstFall => true
  | .resetHoldExpire gpio => ltOk 4 gpio
  | .galFenceReq _ _ => true
  | .galleryFence => true
  | .fenceDiscardStep => true
  | .galleryWatchdog gal => galOk gal
  | .galleryParityError gal => galOk gal
  | .fatalFault kind => ltOk 3 kind
  | .strokeBoundary => true
  | .genFlipRequest _ _ => true
  | .genFlip => true
  | .genReclaim => true
  | .genResyncEnd => true
  | .snapReq _ => true
  | .snapPeriodWrite _ _ => true
  | .snapshot => true
  | .snapPeriodic => true
  | .snapCopiesComplete => true
  | .snapMergedRead _ => true
  | .profileStage _ staged => ltOk 8 staged
  | .coreFreqDown => true
  | .coreFreqUp => true
  | .avsReadback _ mv amps => ltOk 65536 mv && ltOk 65536 amps
  | .refClockLost chiplet => chipletOk chiplet
  | .refClockRestored chiplet => chipletOk chiplet
  | .signalDetect lane cyc => laneOk lane && cycOk cyc
  | .signalLost lane cyc => laneOk lane && cycOk cyc
  | .anPageReceive port rates fec => portOk port && ltOk 256 rates && ltOk 256 fec
  | .trainingConverged port => portOk port
  | .trainingTimeout port => portOk port
  | .blockLockAcquired lane _ _ _ => laneOk lane
  | .laneUp port => portOk port
  | .blockLockLost lane cyc => laneOk lane && cycOk cyc
  | .fecUncorrLimit lane _ cyc => laneOk lane && cycOk cyc
  | .snrLow lane snr cyc => laneOk lane && ltOk 256 snr && cycOk cyc
  | .laneDisable _ lane _ => laneOk lane
  | .laneTestEnter _ lane _ => laneOk lane
  | .laneTestExit _ lane _ => laneOk lane
  | .dormantRequest _ port _ => portOk port
  | .dormantRelease _ port _ => portOk port
  | .p7DormantEntry port => portOk port
  | .p7WakeTimeout port => portOk port
  | .lpiEnter port cyc => portOk port && cycOk cyc
  | .lpiExit port cyc => portOk port && cycOk cyc
  | .lpiPartnerSignal port cyc _ => portOk port && cycOk cyc
  | .prbsLock lane => laneOk lane
  | .prbsLockLost lane _ => laneOk lane
  | .prbsClear _ lane _ => laneOk lane
  | .errorInjectGo _ lane _ => laneOk lane
  | .errorInjectPeriodic lane cyc => laneOk lane && cycOk cyc
  | .bitslip _ lane => laneOk lane
  | .linkTrain link failedOut failedIn => linkOk link && dataLanesOk failedOut && dataLanesOk failedIn
  | .linkRetrain _ link _ => linkOk link
  | .d2dFlitReplay link dir lanes _ => linkOk link && ltOk 2 dir && dataLanesOk lanes
  | .d2dSleep link dir => linkOk link && ltOk 2 dir
  | .d2dWake link dir => linkOk link && ltOk 2 dir
  | .lkSlipGo _ link _ => linkOk link
  | .portEnable _ port _ => portOk port
  | .portDisable _ port _ => portOk port
  | .portUp port => portOk port
  | .portDown port fault => portOk port && ltOk 3 fault
  | .frameReceiveStart port cyc lane _ _ _ => portOk port && cycOk cyc && laneOk lane
  | .headerAccept gal cyc => galOk gal && cycOk cyc
  | .parseResume port cyc _ => portOk port && cycOk cyc
  | .fragmentHoldReenter gal => galOk gal
  | .fftEntryExpire index => ltOk 4096 index
  | .fftFlush _ _ => true
  | .extLookupReturn gal => galOk gal
  | .ingressPassEnd gal cyc => galOk gal && cycOk cyc
  | .stairGrant gal cyc => galOk gal && cycOk cyc
  | .stairWaitExpire gal => galOk gal
  | .frameReceiveEnd port cyc _ _ => portOk port && cycOk cyc
  | .icvCheckResult port cyc => portOk port && cycOk cyc
  | .pfcReceive port en quanta => portOk port && ltOk 256 en && quantaOk quanta
  | .pauseReceive port quanta => portOk port && ltOk 65536 quanta
  | .pfcStopExpire port cyc => portOk port && cycOk cyc
  | .pfcXoffRepeat port cyc => portOk port && cycOk cyc
  | .pdelayExchange port cyc lane _ => portOk port && cycOk cyc && laneOk lane
  | .pdelayRespReceive port cyc lane _ seq _ _ _ => portOk port && cycOk cyc && laneOk lane && ltOk 65536 seq
  | .pdelayReqAnswer port cyc rxLane _ txLane _ seq _ _ => portOk port && cycOk cyc && laneOk rxLane && laneOk txLane && ltOk 65536 seq
  | .parseBankSwitchReq _ => true
  | .actWordWrite _ gal => galOk gal
  | .actWordRead _ gal => galOk gal
  | .egressSelect port cyc => portOk port && cycOk cyc
  | .egressFirstByte port cyc lane _ => portOk port && cycOk cyc && laneOk lane
  | .frameTransmitEnd port => portOk port
  | .ctUnderrun port => portOk port
  | .cellEccUncorrectable port => portOk port
  | .spillMove gal _ => galOk gal
  | .spillReturn gal _ => galOk gal
  | .bankCopy _ => true
  | .bankRemap => true
  | .bankLost => true
  | .repListWrite _ => true
  | .repListRead _ => true
  | .billetGrant pool => poolOk pool
  | .billetFree pool => poolOk pool
  | .billetCacheRefill pool => poolOk pool
  | .billetCacheWriteback pool => poolOk pool
  | .gateCommit _ port _ => portOk port
  | .gateListTakeover port cyc => portOk port && cycOk cyc
  | .gateEdge port cyc => portOk port && cycOk cyc
  | .keyCommit _ _ => true
  | .keyErase _ _ => true
  | .keyCommitPoint _ => true
  | .saPnWrite _ gal _ => galOk gal
  | .clockStepSet _ => true
  | .clockStepAdd _ => true
  | .clockStepDone cyc => cycOk cyc
  | .nowRead _ => true
  | .ext10mLost cyc => cycOk cyc
  | .ext10mRestored cyc => cycOk cyc
  | .ledgerRecord cyc => cycOk cyc
  | .ledgerCopy _ _ => true
  | .ledgerCopyDone => true
  | .syncSend port cyc => portOk port && cycOk cyc
  | .delayRespSend port cyc lane _ _ => portOk port && cycOk cyc && laneOk lane
  | .delayReqSend cyc => cycOk cyc
  | .delayRespReceive port cyc _ => portOk port && cycOk cyc
  | .syncReceiveSample port cyc lane _ _ => portOk port && cycOk cyc && laneOk lane
  | .followUpReceive port cyc _ => portOk port && cycOk cyc
  | .servoLossTimeout => true
  | .ppsInEdge k cyc _ => ltOk 2 k && cycOk cyc
  | .timeEvtEdge k cyc _ _ => ltOk 4 k && cycOk cyc
  | .evtFifoRead _ k => ltOk 4 k
  | .ppsOutEdge k cyc => ltOk 2 k && cycOk cyc
  | .triggerEnable _ k _ => ltOk 4 k
  | .triggerPulse k cyc => ltOk 4 k && cycOk cyc
  | .flowMissFetch => true
  | .flowSweepVisit => true
  | .flowFlush _ _ => true
  | .datagramClose packer coll kind => ltOk 4 packer && ltOk 16 coll && rtypeOk kind
  | .groupEnable _ _ => true
  | .groupDisable _ _ => true
  | .contribReceive anvil => anvilOk anvil
  | .resultReceive anvil => anvilOk anvil
  | .nackReceive anvil => anvilOk anvil
  | .abortReceive anvil => anvilOk anvil
  | .nackTimerExpire group => groupOk group
  | .upTimerExpire group => groupOk group
  | .retainComplete anvil => anvilOk anvil
  | .retainExpire group => groupOk group
  | .microwordIssue seq cyc => seqOk seq && cycOk cyc
  | .waitConditionMet seq cyc => seqOk seq && cycOk cyc
  | .waitTimeout seq => seqOk seq
  | .busAccessComplete seq cyc => seqOk seq && cycOk cyc
  | .lhTransferComplete seq => seqOk seq
  | .seqEventPost seq ev => seqOk seq && ltOk 65536 ev
  | .imageLoad _ role _ => roleOk role
  | .imageLoadDone role _ => roleOk role
  | .imageSwitch _ role _ => roleOk role
  | .imageSwitchMade role => roleOk role
  | .imageSwitchTimeout role => roleOk role
  | .seqRestart _ seq => seqOk seq
  | .seqStop _ seq => seqOk seq
  | .mboxWrite _ seq _ => seqOk seq
  | .learnAdmit cyc => cycOk cyc
  | .ageSweepStart => true
  | .replaceDone => true
  | .lockExpire row => ltOk 1572864 row
  | .tdmaRead ring => ringOk ring
  | .tdmaWrite ring _ => ringOk ring
  | .tdmaLock ring => ringOk ring
  | .tdmaUnlock ring => ringOk ring
  | .ringEnable via ring _ => via.bar && ringOk ring
  | .ringDisable via ring _ => via.bar && ringOk ring
  | .ringPoll ring => ringOk ring
  | .ringEntryRead ring entry _ => ringOk ring && entryOk entry
  | .rxPacketWrite ring => ringOk ring
  | .noticeWrite => true
  | .hostReadTimeout ring _ => ringOk ring
  | .hostReadRetry ring => ringOk ring
  | .ringResume via ring _ => via.bar && ringOk ring
  | .functionLevelReset vf => vfOk vf
  | .registerWrite via addr be _ cyc => via.ok && bar0Ok addr && byteEnOk be && cyc.all cycOk
  | .loReadLatch via addr be => via.ok && bar0Ok addr && byteEnOk be
  | .bootLock _ => true
  | .errClr _ page cyc => headerPage page && cyc.all cycOk
  | .irqForce _ page _ => headerPage page
  | .stairPeakRead _ gal => galOk gal
  | .damperPeakRead _ _ => true
  | .rasLogRead _ => true
  | .sampleFifoRead _ gal => galOk gal
  | .pcValCommit _ page k _ cyc => pcOk page k && cyc.all cycOk
  | .pcClearAll _ page _ => pcPageOk page
  | .sampleSkidEnd gal cyc => galOk gal && cycOk cyc
  | .vrThrottleAssert => true
  | .vrThrottleRelease => true
  | .thermalSensorRead temps => sensorsOk temps
  | .thermalDemandStep => true
  | .paceLevelStep => true
  | .pacingPeriod => true
  | .quenchStart at_ => cycOk at_.cyc
  | .quenchRelease cyc => cycOk cyc
  | .sramEccCorrected unit inst _ => ltOk 16 unit && ltOk 65536 inst
  | .sramEccUncorrectable unit inst _ => ltOk 16 unit && ltOk 65536 inst
  | .rowTestComplete unit inst _ _ => ltOk 16 unit && ltOk 65536 inst
  | .rowRepairSwitch => true
  | .lhEccCorrected stack _ _ => ltOk 4 stack
  | .recordWrite _ => true
  | .rrClear _ _ => true
  | .smbusWrite to_ _ _ => ltOk 128 to_
  | .smbusSetAddress to_ _ _ => ltOk 128 to_
  | .smbusRead to_ _ => ltOk 128 to_
  | .smbusTimeout => true
  | .jtagIdcode => true
  | .jtagBypass => true
  | .jtagSamplePreload _ _ => true
  | .jtagExtest _ => true
  | .jtagClamp => true
  | .jtagHighz => true
  | .jtagTrst _ => true
  | .msixVectorUnmask entry => ltOk 2048 entry
  | .delayRespMissed => true
  | .ppsInCapRead _ k => ltOk 2 k
  | .rasLogStatRead _ => true
  | .cycleCounterWrap page k cyc => pcOk page k && cycOk cyc
  | .imageReadTimeout role => imageOk role

end Sys2Proof
end

