-- ==== Sys2Proof/Machine/Run.lean ====
section
/-! DEFINITION. How a command is carried out: by itself, or on the core clock; and the paths by which a register access
enters (R332, R372). -/

namespace Sys2Proof.Machine

-- Carrying out a command ---------------------------------------------------------------------------------------------

/-- A command whose operands name something that exists acts on the device; another is no command, and is refused. -/
def State.run (s : State) (i : Instr) (f : Device → Device) : Result :=
  if i.wf then .next { s with dev := f s.dev } else .refused .noSuchCommand

/-- An event on the core clock acts while that clock runs, in BOOT, CONFIG, RUN and DEGRADED; in OFF, RESET and
THERMAL_SHUTDOWN it changes nothing (R25, R28). -/
def State.onClock (s : State) (i : Instr) (f : Device → Device) : Result :=
  s.run i fun d => if d.clocked then f d else d

/-- The 10 MHz input is watched by the time clock, which runs on through a warm reset (R255, R409); with the clock stopped, only
the input's presence changes. -/
def Device.ext10m (present : Bool) (f : Device → Device) (d : Device) : Device :=
  if d.clocked ∨ (d.dev.state = .reset ∧ d.boot.wasWarm) then f d
  else { d with clock := { d.clock with ext10m := present } }

-- Register accesses of a function (R332, R372) -----------------------------------------------------------------------

/-- VF `f`'s BAR0 shows the windows of its own rings at their place in the ring-window region (R332). -/
def Device.vfSees (d : Device) (f off : Nat) : Bool := decide (off < 0x20000) && d.ringFn (off / 0x100) == f

/-- An access of a VF that no register of its own answers: one that is not a whole aligned word is recorded in TOP (R6, R353). -/
def Device.vfElse (d : Device) (off be : Nat) : Device :=
  if d.gate .pcie ≠ .open_ ∨ wholeWord off be then d else d.err 0 off .badAccess .pcie

/-- Where an access that enters by `via` reaches BAR0, if it does: a VF's BAR0 shows its own rings' windows (R332), and its BAR2 the
view that VF_MAP names (R372). -/
def Device.reaches (d : Device) (via : Via) (a : Nat) : Option Nat :=
  match via with
  | .pf | .smbus => some a
  | .vf f => if d.vfSees f a then some (0x100000 + a) else none
  | .view f => d.viewAt f a
  | .config _ => none

/-- The source that an access belongs to (R360). -/
def srcOf : Via → Source
  | .smbus => .smbus
  | _ => .pcie

/-- A write that enters by `via`. -/
def Device.viaWrite (d : Device) (via : Via) (a be : Nat) (w : Word) : Device :=
  match via with
  | .config f =>
    match d.gate .pcie with
    | .silent | .closed => d
    | _ => d.configWrite f a be w
  | _ => match d.reaches via a with
    | some at_ => busWrite d (srcOf via) at_ be w
    | none => d.vfElse a be

/-- A register whose write only stores what it says, whenever it is made. -/
def plainReg (a : Nat) : Bool :=
  match targetOf a with
  | .block h => h.row.fields.all (fun f => f.acc == .rw || f.acc == .ro) &&
      !h.row.attrs.any fun t => t == .hook || t == .pairLo || t == .pairHi || t == .tripleLo || t == .tripleHi
  | _ => false

/-- The SMBus writes of the present cycle that a PCIe access of that cycle comes before: the two sources are taken in alternation, PCIe
first (R360). -/
def Device.smbusAfter (d : Device) : List BusAcc :=
  let now := d.file.busNow.filter fun b => b.at_ = d.absCyc
  (now.filter fun b => b.src = .smbus).drop (now.filter fun b => b.src = .pcie).length

/-- A write at `at_` in the present cycle, in the order of R360: a boot lock that SMBus wrote in that cycle does not reach it, and what
SMBus wrote to the same register in that cycle stands over it (R361). -/
def Device.inTurn (d : Device) (src : Source) (at_ be : Nat) (w : Word) (write : Device → Device) : Device :=
  let after := if src = .pcie then d.smbusAfter else []
  let relock := d.file.locked && after.any (·.locks)
  let was := d.file.locked
  let d := write (if relock then { d with file := { d.file with locked := false } } else d)
  let d := if relock then { d with file := { d.file with locked := true } } else d
  let d := (after.filter fun b => b.addr = at_ ∧ plainReg at_).foldl (fun d b => busWrite d .smbus b.addr b.be b.data) d
  let acc : BusAcc := { at_ := d.absCyc, src := src, addr := at_, be := be, data := w, locks := !was && d.file.locked }
  { d with file := { d.file with busNow := d.file.busNow.filter (fun b => b.at_ = d.absCyc) ++ [acc] } }

/-- A write that meets the events of core cycle `c`: a W1C bit that the hardware sets in that cycle stays set (R10), an
access recorded in it stays recorded over ERR_CLR (R361), its occurrences are added to a value that PC_VAL commits (R367), and
the other source's accesses of that cycle have their turn (R360). -/
def Device.writeIn (d : Device) (via : Via) (a be : Nat) (w : Word) (c : Nat) : Device :=
  let d := d.atCyc c
  match d.reaches via a with
  | none => d.viaWrite via a be w
  | some at_ =>
    let d := { d with perf := { d.perf with committed := none } }
    let d := d.inTurn (srcOf via) at_ be w fun d => busWrite d (srcOf via) at_ be (w &&& ~~~ d.newBits at_)
    let d := match d.perf.committed.bind pcAt with
      | some (gal, k) => d.countAgain gal k
      | none => d
    match targetOf at_ with
    | .header _ _ base 0x08 => if bit w.toNat 0 then d.errAgain base else d
    | _ => d

/-- A write that names its cycle, or none. -/
def Device.writeAt (d : Device) (via : Via) (a be : Nat) (w : Word) : Option Nat → Device
  | none => d.viaWrite via a be w
  | some c => d.writeIn via a be w c

/-- The path of a source's accesses to the whole of BAR0. -/
def viaOf : Source → Via
  | .pcie => .pf
  | .smbus => .smbus

/-- What a VF reads where none of its registers answers. -/
def Device.answer (d : Device) (n : Nat) : Device :=
  match d.gate .pcie with
  | .silent | .closed => d
  | .bootOnly => { d with file := { d.file with pcieData := 0 } }
  | .open_ => { d with file := { d.file with pcieData := BitVec.ofNat 32 n } }

/-- A read that enters by `via`. -/
def Device.viaRead (d : Device) (via : Via) (a be : Nat) : Device :=
  match via with
  | .config f =>
    match d.gate .pcie with
    | .silent | .closed => d
    | _ => { d with file := { d.file with pcieData := BitVec.ofNat 32 (d.configRead f a) } }
  | _ => match d.reaches via a with
    | some at_ => busReadStep d (srcOf via) at_ be
    | none => (d.vfElse a be).answer 0

/-- A write of RW_CTRL of ring `r`, at its place in the PF's BAR0 or in the VF's. -/
def Device.viaRing (d : Device) (via : Via) (r : Nat) (w : Word) : Device :=
  match via with
  | .vf _ => d.viaWrite via (r * 0x100) 0xF w
  | _ => d.viaWrite via (A.RINGS_RW_CTRL r) 0xF w

-- Samples (R362, R368) -----------------------------------------------------------------------------------------------

/-- SAMPLE_SKID_END at cycle `c`: a sample of gallery `n` that no header followed within 16 cycles names none. -/
def sampleSkidEnd (d : Device) (n c : Nat) : Device :=
  let d := d.atCyc c
  let late : Skid → Bool := fun s => s.gal == n && decide (s.stroke * 256 + s.cyc + 16 < d.strokeNo * 256 + d.stroke.cyc)
  let mine := d.perf.skids.filter late
  let d := { d with perf := { d.perf with skids := d.perf.skids.filter fun s => !late s } }
  if d.isFenced n then d
  else mine.foldl (fun d s => d.pushSample n (sampleOf s.counter true 0 s.stroke s.cyc {})) d

/-- CYCLE_COUNTER_WRAP: a counter of CYCLES is brought up to cycle `c`, in which it reaches 2^48. -/
def cycleCounterWrap (d : Device) (gal : Option Nat) (k c : Nat) : Device :=
  let d := d.atCyc c
  d.pcSync gal k (d.stroke.cyc + 1)

end Sys2Proof.Machine
end

