-- ==== Sys2Proof/Machine/CmdAnvil.lean ====
section
/-! DEFINITION. The meanings of the commands for in-network reduction (R295 to R316). -/

namespace Sys2Proof.Machine

/-- GROUP_ENABLE (R305). -/
def execGroupEnable (src : Source) (data : Word) (s : State) : Result :=
  s.run (.groupEnable src data) fun d => busWrite d src A.ANVIL_G_CFG 0xF (F.ANVIL_G_CFG_VALID.put data 1)

/-- GROUP_DISABLE (R306). -/
def execGroupDisable (src : Source) (data : Word) (s : State) : Result :=
  s.run (.groupDisable src data) fun d => busWrite d src A.ANVIL_G_CFG 0xF (F.ANVIL_G_CFG_VALID.put data 0)

/-- CONTRIB_RECEIVE (R307). -/
def execContribReceive (anvil : Nat) (s : State) : Result :=
  s.onClock (.contribReceive anvil) fun d => contribReceive d anvil

/-- RESULT_RECEIVE (R308). -/
def execResultReceive (anvil : Nat) (s : State) : Result :=
  s.onClock (.resultReceive anvil) fun d => resultReceive d anvil

/-- NACK_RECEIVE (R309). -/
def execNackReceive (anvil : Nat) (s : State) : Result :=
  s.onClock (.nackReceive anvil) fun d => nackReceive d anvil

/-- ABORT_RECEIVE (R310). -/
def execAbortReceive (anvil : Nat) (s : State) : Result :=
  s.onClock (.abortReceive anvil) fun d => abortReceive d anvil

/-- NACK_TIMER_EXPIRE (R309). -/
def execNackTimerExpire (group : Nat) (s : State) : Result :=
  s.onClock (.nackTimerExpire group) fun d => nackTimer d group

/-- UP_TIMER_EXPIRE (R309). -/
def execUpTimerExpire (group : Nat) (s : State) : Result :=
  s.onClock (.upTimerExpire group) fun d => upTimer d group

/-- RETAIN_COMPLETE (R312). -/
def execRetainComplete (anvil : Nat) (s : State) : Result :=
  s.onClock (.retainComplete anvil) fun d => retainComplete d anvil

/-- RETAIN_EXPIRE (R312). -/
def execRetainExpire (group : Nat) (s : State) : Result :=
  s.onClock (.retainExpire group) fun d => retainExpire d group

end Sys2Proof.Machine
end

