-- ==== Sys2Proof/Machine/CmdDamper.lean ====
section
/-! DEFINITION. The meanings of the commands for power, heat and pacing (R374 to R387). -/

namespace Sys2Proof.Machine

/-- VR_THROTTLE_ASSERT (R380). -/
def execVrThrottleAssert (s : State) : Result :=
  s.run .vrThrottleAssert fun d => vrThrottleAssert d

/-- VR_THROTTLE_RELEASE (R380). -/
def execVrThrottleRelease (s : State) : Result :=
  s.run .vrThrottleRelease fun d => vrThrottleRelease d

/-- THERMAL_SENSOR_READ (R384). -/
def execThermalSensorRead (temps : List Nat) (s : State) : Result :=
  s.onClock (.thermalSensorRead temps) fun d => thermalSensorRead d temps

/-- THERMAL_DEMAND_STEP (R380). -/
def execThermalDemandStep (s : State) : Result :=
  s.onClock .thermalDemandStep fun d => thermalDemandStep d

/-- PACE_LEVEL_STEP (R383). -/
def execPaceLevelStep (s : State) : Result :=
  s.onClock .paceLevelStep fun d => paceLevelStep d

/-- PACING_PERIOD (R383). -/
def execPacingPeriod (s : State) : Result :=
  s.onClock .pacingPeriod fun d => pacingPeriod d

/-- QUENCH_START (R385). -/
def execQuenchStart (at_ : Droop) (s : State) : Result :=
  s.onClock (.quenchStart at_) fun d => quenchStart d at_

/-- QUENCH_RELEASE (R385). -/
def execQuenchRelease (cyc : Nat) (s : State) : Result :=
  s.onClock (.quenchRelease cyc) fun d => quenchRelease d cyc

end Sys2Proof.Machine
end

