-- ==== Sys2Proof/Machine/CmdEgress.lean ====
section
/-! DEFINITION. The meanings of the commands for egress, the buffer, billets and gates (R173 to R230, R262, R277). -/

namespace Sys2Proof.Machine

/-- EGRESS_SELECT (R207). -/
def execEgressSelect (port : Nat) (cyc : Nat) (s : State) : Result :=
  s.onClock (.egressSelect port cyc) fun d => egressSelect d port cyc

/-- EGRESS_FIRST_BYTE (R262). -/
def execEgressFirstByte (port : Nat) (cyc : Nat) (lane : Nat) (raw : Int) (s : State) : Result :=
  s.onClock (.egressFirstByte port cyc lane raw) fun d => egressFirstByte d port cyc lane raw

/-- FRAME_TRANSMIT_END (R277). -/
def execFrameTransmitEnd (port : Nat) (s : State) : Result :=
  s.onClock (.frameTransmitEnd port) fun d => frameTransmitEnd d port

/-- CT_UNDERRUN (R179). -/
def execCtUnderrun (port : Nat) (s : State) : Result :=
  s.onClock (.ctUnderrun port) fun d => ctUnderrun d port

/-- CELL_ECC_UNCORRECTABLE (R180). -/
def execCellEccUncorrectable (port : Nat) (s : State) : Result :=
  s.onClock (.cellEccUncorrectable port) fun d => cellEcc d port

/-- SPILL_MOVE (R192). -/
def execSpillMove (gal : Nat) (bad : Bool) (s : State) : Result :=
  s.onClock (.spillMove gal bad) fun d => spillMove d gal bad

/-- SPILL_RETURN (R193). -/
def execSpillReturn (gal : Nat) (bad : Bool) (s : State) : Result :=
  s.onClock (.spillReturn gal bad) fun d => spillReturn d gal bad

/-- BANK_COPY (R188). -/
def execBankCopy (bad : Bool) (s : State) : Result :=
  s.onClock (.bankCopy bad) fun d => bankCopy d bad

/-- BANK_REMAP (R188). -/
def execBankRemap (s : State) : Result :=
  s.onClock .bankRemap fun d => bankRemap d

/-- BANK_LOST (R189). -/
def execBankLost (s : State) : Result :=
  s.onClock .bankLost fun d => bankLost d

/-- REP_LIST_WRITE (R190). -/
def execRepListWrite (src : Source) (s : State) : Result :=
  s.run (.repListWrite src) fun d => busWrite d src A.HALL_REP_CMD 0xF (F.HALL_REP_CMD_WRITE.put 0 1)

/-- REP_LIST_READ (R190). -/
def execRepListRead (src : Source) (s : State) : Result :=
  s.run (.repListRead src) fun d => busWrite d src A.HALL_REP_CMD 0xF (F.HALL_REP_CMD_READ.put 0 1)

/-- BILLET_GRANT (R200). -/
def execBilletGrant (pool : Nat) (s : State) : Result :=
  s.onClock (.billetGrant pool) fun d => billetGrant d pool

/-- BILLET_FREE (R201). -/
def execBilletFree (pool : Nat) (s : State) : Result :=
  s.onClock (.billetFree pool) fun d => billetFree d pool

/-- BILLET_CACHE_REFILL (R198). -/
def execBilletCacheRefill (pool : Nat) (s : State) : Result :=
  s.onClock (.billetCacheRefill pool) fun d => billetRefill d pool

/-- BILLET_CACHE_WRITEBACK (R198). -/
def execBilletCacheWriteback (pool : Nat) (s : State) : Result :=
  s.onClock (.billetCacheWriteback pool) fun d => billetWriteback d pool

/-- GATE_COMMIT (R220). -/
def execGateCommit (src : Source) (port : Nat) (data : Word) (s : State) : Result :=
  s.run (.gateCommit src port data) fun d =>
    busWrite d src (ofPort A.GATE_GT_CTRL port) 0xF (F.GATE_GT_CTRL_COMMIT.put data 1)

/-- GATE_LIST_TAKEOVER (R220). -/
def execGateListTakeover (port : Nat) (cyc : Nat) (s : State) : Result :=
  s.onClock (.gateListTakeover port cyc) fun d => gateTakeover d port cyc

/-- GATE_EDGE (R217). -/
def execGateEdge (port : Nat) (cyc : Nat) (s : State) : Result :=
  s.onClock (.gateEdge port cyc) fun d => gateEdge d port cyc

end Sys2Proof.Machine
end

