-- ==== Sys2Proof/Machine/CmdGallery.lean ====
section
/-! DEFINITION. The meanings of the commands for fences, the watchdog, fatal faults and the stroke boundary (R29 to R36, R396, R397). -/

namespace Sys2Proof.Machine

/-- GAL_FENCE_REQ (R29). -/
def execGalFenceReq (src : Source) (mask : Word) (s : State) : Result :=
  s.run (.galFenceReq src mask) fun d => busWrite d src A.TOP_GAL_FENCE_REQ 0xF mask

/-- GALLERY_FENCE (R30). -/
def execGalleryFence (s : State) : Result :=
  s.onClock .galleryFence fun d => galleryFence d

/-- FENCE_DISCARD_STEP (R31). -/
def execFenceDiscardStep (s : State) : Result :=
  s.onClock .fenceDiscardStep fun d => fenceDiscardStep d

/-- GALLERY_WATCHDOG (R396). -/
def execGalleryWatchdog (gal : Nat) (s : State) : Result :=
  s.onClock (.galleryWatchdog gal) fun d => galleryWatchdog d gal

/-- GALLERY_PARITY_ERROR (R396). -/
def execGalleryParityError (gal : Nat) (s : State) : Result :=
  s.onClock (.galleryParityError gal) fun d => galleryParityError d gal

/-- FATAL_FAULT (R397). -/
def execFatalFault (kind : Nat) (s : State) : Result :=
  s.onClock (.fatalFault kind) fun d => fatalFault d kind

/-- STROKE_BOUNDARY (R35). -/
def execStrokeBoundary (s : State) : Result :=
  s.run .strokeBoundary fun d => strokeBoundary d

end Sys2Proof.Machine
end

