-- ==== Sys2Proof/Machine/CmdGen.lean ====
section
/-! DEFINITION. The meanings of the commands for generations, snapshots, the profile and the core frequency (R42 to R65, R375, R376). -/

namespace Sys2Proof.Machine

/-- GEN_FLIP_REQUEST (R46). -/
def execGenFlipRequest (src : Source) (data : Word) (s : State) : Result :=
  s.run (.genFlipRequest src data) fun d => busWrite d src A.TOP_GEN_CTRL 0xF (F.TOP_GEN_CTRL_FLIP.put data 1)

/-- GEN_FLIP (R47). -/
def execGenFlip (s : State) : Result :=
  s.onClock .genFlip fun d => genFlip d

/-- GEN_RECLAIM (R49). -/
def execGenReclaim (s : State) : Result :=
  s.onClock .genReclaim fun d => genReclaim d

/-- GEN_RESYNC_END (R50). -/
def execGenResyncEnd (s : State) : Result :=
  s.onClock .genResyncEnd fun d => genResyncEnd d

/-- SNAP_REQ (R54). -/
def execSnapReq (src : Source) (s : State) : Result :=
  s.run (.snapReq src) fun d => busWrite d src A.TOP_SNAP_CTRL 0xF (F.TOP_SNAP_CTRL_REQ.put 0 1)

/-- SNAP_PERIOD_WRITE (R54). -/
def execSnapPeriodWrite (src : Source) (period : Word) (s : State) : Result :=
  s.run (.snapPeriodWrite src period) fun d => busWrite d src A.TOP_SNAP_PERIOD 0xF period

/-- SNAPSHOT (R54). -/
def execSnapshot (s : State) : Result :=
  s.onClock .snapshot fun d => snapshotTake d

/-- SNAP_PERIODIC (R54). -/
def execSnapPeriodic (s : State) : Result :=
  s.onClock .snapPeriodic fun d => snapPeriodic d

/-- SNAP_COPIES_COMPLETE (R55). -/
def execSnapCopiesComplete (s : State) : Result :=
  s.onClock .snapCopiesComplete fun d => snapCopiesComplete d

/-- SNAP_MERGED_READ (R55). -/
def execSnapMergedRead (src : Source) (s : State) : Result :=
  s.run (.snapMergedRead src) fun d => busReadStep d src A.TOP_SNAP_CTRL 0xF

/-- PROFILE_STAGE (R64). -/
def execProfileStage (src : Source) (staged : Nat) (s : State) : Result :=
  s.run (.profileStage src staged) fun d => busWrite d src A.TOP_PROFILE 0xF (F.TOP_PROFILE_STAGED.put 0 staged)

/-- CORE_FREQ_DOWN (R376). -/
def execCoreFreqDown (s : State) : Result :=
  s.onClock .coreFreqDown fun d => coreFreqDown d

/-- CORE_FREQ_UP (R376). -/
def execCoreFreqUp (s : State) : Result :=
  s.onClock .coreFreqUp fun d => coreFreqUp d

/-- AVS_READBACK (R375). -/
def execAvsReadback (ack : Bool) (mv : Nat) (amps : Nat) (s : State) : Result :=
  s.onClock (.avsReadback ack mv amps) fun d => avsReadback d ack mv amps

end Sys2Proof.Machine
end

