-- ==== Sys2Proof/Machine/CmdHost.lean ====
section
/-! DEFINITION. The meanings of the commands for rings and the host port (R332 to R350). -/

namespace Sys2Proof.Machine

/-- RING_ENABLE (R347). -/
def execRingEnable (via : Via) (ring : Nat) (data : Word) (s : State) : Result :=
  s.run (.ringEnable via ring data) fun d => d.viaRing via ring (F.RINGS_RW_CTRL_EN.put data 1)

/-- RING_DISABLE (R336). -/
def execRingDisable (via : Via) (ring : Nat) (data : Word) (s : State) : Result :=
  s.run (.ringDisable via ring data) fun d => d.viaRing via ring (F.RINGS_RW_CTRL_EN.put data 0)

/-- RING_POLL (R336). -/
def execRingPoll (ring : Nat) (s : State) : Result :=
  s.onClock (.ringPoll ring) fun d => ringPoll d ring

/-- RING_ENTRY_READ (R335). -/
def execRingEntryRead (ring : Nat) (entry : Option Bytes) (body : Option Bytes) (s : State) : Result :=
  s.onClock (.ringEntryRead ring entry body) fun d => ringEntryRead d ring entry body

/-- RX_PACKET_WRITE (R341). -/
def execRxPacketWrite (ring : Nat) (s : State) : Result :=
  s.onClock (.rxPacketWrite ring) fun d => rxPacketWrite d ring

/-- NOTICE_WRITE (R341). -/
def execNoticeWrite (s : State) : Result :=
  s.onClock .noticeWrite fun d => noticeWrite d

/-- HOST_READ_TIMEOUT (R345). -/
def execHostReadTimeout (ring : Nat) (read : HostRead) (s : State) : Result :=
  s.onClock (.hostReadTimeout ring read) fun d => hostReadTimeout d ring read

/-- HOST_READ_RETRY (R345). -/
def execHostReadRetry (ring : Nat) (s : State) : Result :=
  s.onClock (.hostReadRetry ring) fun d => hostReadRetry d ring

/-- RING_RESUME (R346). -/
def execRingResume (via : Via) (ring : Nat) (data : Word) (s : State) : Result :=
  s.run (.ringResume via ring data) fun d => d.viaRing via ring (F.RINGS_RW_CTRL_RESUME.put data 1)

/-- FUNCTION_LEVEL_RESET (R350). -/
def execFunctionLevelReset (vf : Nat) (s : State) : Result :=
  s.onClock (.functionLevelReset vf) fun d => functionLevelReset d vf

/-- MSIX_VECTOR_UNMASK (R356). -/
def execMsixVectorUnmask (entry : Nat) (s : State) : Result :=
  s.onClock (.msixVectorUnmask entry) fun d => msixVectorUnmask d entry

end Sys2Proof.Machine
end

