-- ==== Sys2Proof/Machine/CmdIngress.lean ====
section
/-! DEFINITION. The meanings of the commands for frames, passes and the stair (R19 to R24, R98, R111 to R150). -/

namespace Sys2Proof.Machine

/-- FRAME_RECEIVE_START (R21). -/
def execFrameReceiveStart (port : Nat) (cyc : Nat) (lane : Nat) (raw : Int) (sfd : Bool) (bytes : Bytes)
    (s : State) : Result :=
  s.onClock (.frameReceiveStart port cyc lane raw sfd bytes) fun d => frameReceiveStart d port cyc lane raw sfd bytes

/-- HEADER_ACCEPT (R19). -/
def execHeaderAccept (gal : Nat) (cyc : Nat) (s : State) : Result :=
  s.onClock (.headerAccept gal cyc) fun d => headerAccept d gal cyc

/-- PARSE_RESUME (R111). -/
def execParseResume (port : Nat) (cyc : Nat) (bytes : Bytes) (s : State) : Result :=
  s.onClock (.parseResume port cyc bytes) fun d => parseResume d port cyc bytes

/-- FRAGMENT_HOLD_REENTER (R136). -/
def execFragmentHoldReenter (gal : Nat) (s : State) : Result :=
  s.onClock (.fragmentHoldReenter gal) fun d => fragReenter d gal

/-- FFT_ENTRY_EXPIRE (R130). -/
def execFftEntryExpire (index : Nat) (s : State) : Result :=
  s.onClock (.fftEntryExpire index) fun d => fftEntryExpire d index

/-- FFT_FLUSH (R130). -/
def execFftFlush (src : Source) (data : Word) (s : State) : Result :=
  s.run (.fftFlush src data) fun d => busWrite d src A.TABLE_FFT_CFG 0xF (F.TABLE_FFT_CFG_FLUSH.put data 1)

/-- EXT_LOOKUP_RETURN (R143). -/
def execExtLookupReturn (gal : Nat) (s : State) : Result :=
  s.onClock (.extLookupReturn gal) fun d => extReturn d gal

/-- INGRESS_PASS_END (R139). -/
def execIngressPassEnd (gal : Nat) (cyc : Nat) (s : State) : Result :=
  s.onClock (.ingressPassEnd gal cyc) fun d => ingressPassEnd d gal cyc

/-- STAIR_GRANT (R144). -/
def execStairGrant (gal : Nat) (cyc : Nat) (s : State) : Result :=
  s.onClock (.stairGrant gal cyc) fun d => stairGrant d gal cyc

/-- STAIR_WAIT_EXPIRE (R145). -/
def execStairWaitExpire (gal : Nat) (s : State) : Result :=
  s.onClock (.stairWaitExpire gal) fun d => stairExpire d gal

/-- FRAME_RECEIVE_END (R98). -/
def execFrameReceiveEnd (port : Nat) (cyc : Nat) (bytes : Bytes) (codewords : List (Nat × Nat)) (s : State) : Result :=
  s.onClock (.frameReceiveEnd port cyc bytes codewords) fun d => frameReceiveEnd d port cyc bytes codewords

/-- ICV_CHECK_RESULT (R242). -/
def execIcvCheckResult (port : Nat) (cyc : Nat) (s : State) : Result :=
  s.onClock (.icvCheckResult port cyc) fun d => icvCheckResult d port cyc

/-- PARSE_BANK_SWITCH_REQ (R119). -/
def execParseBankSwitchReq (src : Source) (s : State) : Result :=
  s.run (.parseBankSwitchReq src) fun d => busWrite d src A.TOP_PARSE_BANK 0xF (F.TOP_PARSE_BANK_SWITCH.put 0 1)

/-- ACT_WORD_WRITE (R149). -/
def execActWordWrite (src : Source) (gal : Nat) (s : State) : Result :=
  s.run (.actWordWrite src gal) fun d => busWrite d src (A.MATCH_ACT_CMD gal) 0xF (F.MATCH_ACT_CMD_WRITE.put 0 1)

/-- ACT_WORD_READ (R149). -/
def execActWordRead (src : Source) (gal : Nat) (s : State) : Result :=
  s.run (.actWordRead src gal) fun d => busWrite d src (A.MATCH_ACT_CMD gal) 0xF (F.MATCH_ACT_CMD_READ.put 0 1)

end Sys2Proof.Machine
end

