-- ==== Sys2Proof/Machine/CmdKeys.lean ====
section
/-! DEFINITION. The meanings of the commands for keys and associations (R231 to R251). -/

namespace Sys2Proof.Machine

/-- KEY_COMMIT (R250). -/
def execKeyCommit (src : Source) (aes256 : Bool) (s : State) : Result :=
  s.run (.keyCommit src aes256) fun d =>
    busWrite d src A.KEYS_KEY_CMD 0xF (F.KEYS_KEY_CMD_CIPHER.put (F.KEYS_KEY_CMD_COMMIT.put 0 1) (b2n aes256))

/-- KEY_ERASE (R250). -/
def execKeyErase (src : Source) (aes256 : Bool) (s : State) : Result :=
  s.run (.keyErase src aes256) fun d =>
    busWrite d src A.KEYS_KEY_CMD 0xF (F.KEYS_KEY_CMD_CIPHER.put (F.KEYS_KEY_CMD_ERASE.put 0 1) (b2n aes256))

/-- KEY_COMMIT_POINT (R246). -/
def execKeyCommitPoint (at_ : Nat) (s : State) : Result :=
  s.onClock (.keyCommitPoint at_) fun d => keyCommitPoint d at_

/-- SA_PN_WRITE (R251). -/
def execSaPnWrite (src : Source) (gal : Nat) (hi : Word) (s : State) : Result :=
  s.run (.saPnWrite src gal hi) fun d => busWrite d src (A.INTEG_SA_PN_HI gal) 0xF hi

end Sys2Proof.Machine
end

