-- ==== Sys2Proof/Machine/CmdLane.lean ====
section
/-! DEFINITION. The meanings of the commands for lanes and port bring-up (R73 to R86, R100 to R102). -/

namespace Sys2Proof.Machine

/-- REF_CLOCK_LOST (R73). -/
def execRefClockLost (chiplet : Nat) (s : State) : Result :=
  s.run (.refClockLost chiplet) fun d => refClockLost d chiplet

/-- REF_CLOCK_RESTORED (R444). -/
def execRefClockRestored (chiplet : Nat) (s : State) : Result :=
  s.run (.refClockRestored chiplet) fun d => refClockRestored d chiplet

/-- SIGNAL_DETECT (R79). -/
def execSignalDetect (lane : Nat) (cyc : Nat) (s : State) : Result :=
  s.onClock (.signalDetect lane cyc) fun d => signalDetect d lane cyc

/-- SIGNAL_LOST (R81). -/
def execSignalLost (lane : Nat) (cyc : Nat) (s : State) : Result :=
  s.onClock (.signalLost lane cyc) fun d => signalLost d lane cyc

/-- AN_PAGE_RECEIVE (R79). -/
def execAnPageReceive (port : Nat) (rates : Nat) (fec : Nat) (s : State) : Result :=
  s.onClock (.anPageReceive port rates fec) fun d => anPageReceive d port rates fec

/-- TRAINING_CONVERGED (R79). -/
def execTrainingConverged (port : Nat) (s : State) : Result :=
  s.onClock (.trainingConverged port) fun d => trainingConverged d port

/-- TRAINING_TIMEOUT (R79). -/
def execTrainingTimeout (port : Nat) (s : State) : Result :=
  s.onClock (.trainingTimeout port) fun d => trainingTimeout d port

/-- BLOCK_LOCK_ACQUIRED (R80). -/
def execBlockLockAcquired (lane : Nat) (inverted : Bool) (reversed : Bool) (phase : Int) (s : State) : Result :=
  s.onClock (.blockLockAcquired lane inverted reversed phase) fun d =>
    blockLockAcquired d lane inverted reversed phase

/-- LANE_UP (R80). -/
def execLaneUp (port : Nat) (s : State) : Result :=
  s.onClock (.laneUp port) fun d => laneUp d port

/-- BLOCK_LOCK_LOST (R81). -/
def execBlockLockLost (lane : Nat) (cyc : Nat) (s : State) : Result :=
  s.onClock (.blockLockLost lane cyc) fun d => blockLockLost d lane cyc

/-- FEC_UNCORR_LIMIT (R81). -/
def execFecUncorrLimit (lane : Nat) (n : Nat) (cyc : Nat) (s : State) : Result :=
  s.onClock (.fecUncorrLimit lane n cyc) fun d => fecUncorrLimit d lane n cyc

/-- SNR_LOW (R81). -/
def execSnrLow (lane : Nat) (snr : Nat) (cyc : Nat) (s : State) : Result :=
  s.onClock (.snrLow lane snr cyc) fun d => snrLow d lane snr cyc

/-- LANE_DISABLE (R81). -/
def execLaneDisable (src : Source) (lane : Nat) (data : Word) (s : State) : Result :=
  s.run (.laneDisable src lane data) fun d =>
    busWrite d src (ofLane A.LANE_LN_CTRL lane) 0xF (F.LANE_LN_CTRL_EN.put data 0)

/-- LANE_TEST_ENTER (R84). -/
def execLaneTestEnter (src : Source) (lane : Nat) (data : Word) (s : State) : Result :=
  s.run (.laneTestEnter src lane data) fun d =>
    busWrite d src (ofLane A.LANE_LN_CTRL lane) 0xF (F.LANE_LN_CTRL_TEST.put data 1)

/-- LANE_TEST_EXIT (R84). -/
def execLaneTestExit (src : Source) (lane : Nat) (data : Word) (s : State) : Result :=
  s.run (.laneTestExit src lane data) fun d =>
    busWrite d src (ofLane A.LANE_LN_CTRL lane) 0xF (F.LANE_LN_CTRL_TEST.put data 0)

/-- DORMANT_REQUEST (R86). -/
def execDormantRequest (src : Source) (port : Nat) (data : Word) (s : State) : Result :=
  s.run (.dormantRequest src port data) fun d =>
    busWrite d src (ofLane A.LANE_LN_BRINGUP port) 0xF (F.LANE_LN_BRINGUP_DORMANT_REQ.put data 1)

/-- DORMANT_RELEASE (R86). -/
def execDormantRelease (src : Source) (port : Nat) (data : Word) (s : State) : Result :=
  s.run (.dormantRelease src port data) fun d =>
    busWrite d src (ofLane A.LANE_LN_BRINGUP port) 0xF (F.LANE_LN_BRINGUP_DORMANT_REQ.put data 0)

/-- P7_DORMANT_ENTRY (R57). -/
def execP7DormantEntry (port : Nat) (s : State) : Result :=
  s.onClock (.p7DormantEntry port) fun d => p7DormantEntry d port

/-- P7_WAKE_TIMEOUT (R86). -/
def execP7WakeTimeout (port : Nat) (s : State) : Result :=
  s.onClock (.p7WakeTimeout port) fun d => p7WakeTimeout d port

/-- LPI_ENTER (R102). -/
def execLpiEnter (port : Nat) (cyc : Nat) (s : State) : Result :=
  s.onClock (.lpiEnter port cyc) fun d => lpiEnter d port cyc

/-- LPI_EXIT (R102). -/
def execLpiExit (port : Nat) (cyc : Nat) (s : State) : Result :=
  s.onClock (.lpiExit port cyc) fun d => lpiExit d port cyc

/-- LPI_PARTNER_SIGNAL (R102). -/
def execLpiPartnerSignal (port : Nat) (cyc : Nat) (enter : Bool) (s : State) : Result :=
  s.onClock (.lpiPartnerSignal port cyc enter) fun d => lpiPartner d port cyc enter

/-- PRBS_LOCK (R85). -/
def execPrbsLock (lane : Nat) (s : State) : Result :=
  s.onClock (.prbsLock lane) fun d => prbsLock d lane

/-- PRBS_LOCK_LOST (R85). -/
def execPrbsLockLost (lane : Nat) (errs : Nat) (s : State) : Result :=
  s.onClock (.prbsLockLost lane errs) fun d => prbsLockLost d lane errs

/-- PRBS_CLEAR (R84). -/
def execPrbsClear (src : Source) (lane : Nat) (data : Word) (s : State) : Result :=
  s.run (.prbsClear src lane data) fun d =>
    busWrite d src (ofLane A.LANE_LN_PRBS lane) 0xF (F.LANE_LN_PRBS_CLEAR.put data 1)

/-- ERROR_INJECT_GO (R85). -/
def execErrorInjectGo (src : Source) (lane : Nat) (data : Word) (s : State) : Result :=
  s.run (.errorInjectGo src lane data) fun d =>
    busWrite d src (ofLane A.LANE_LN_INJ lane) 0xF (F.LANE_LN_INJ_GO.put data 1)

/-- ERROR_INJECT_PERIODIC (R85). -/
def execErrorInjectPeriodic (lane : Nat) (cyc : Nat) (s : State) : Result :=
  s.onClock (.errorInjectPeriodic lane cyc) fun d => errorInjectPeriodic d lane cyc

/-- BITSLIP (R84). -/
def execBitslip (src : Source) (lane : Nat) (s : State) : Result :=
  s.run (.bitslip src lane) fun d =>
    busWrite d src (ofLane A.LANE_LN_BITSLIP lane) 0xF (F.LANE_LN_BITSLIP_SLIP.put 0 1)

end Sys2Proof.Machine
end

