-- ==== Sys2Proof/Machine/CmdLink.lean ====
section
/-! DEFINITION. The meanings of the commands for the die-to-die links (R87 to R93). -/

namespace Sys2Proof.Machine

/-- LINK_TRAIN (R88). -/
def execLinkTrain (link : Nat) (failedOut : List Nat) (failedIn : List Nat) (s : State) : Result :=
  s.onClock (.linkTrain link failedOut failedIn) fun d => linkTrain d link failedOut failedIn

/-- LINK_RETRAIN (R93). -/
def execLinkRetrain (src : Source) (link : Nat) (data : Word) (s : State) : Result :=
  s.run (.linkRetrain src link data) fun d =>
    busWrite d src (ofLink A.D2D_LK_CTRL link) 0xF (F.D2D_LK_CTRL_RETRAIN.put data 1)

/-- D2D_FLIT_REPLAY (R89). -/
def execD2dFlitReplay (link : Nat) (dir : Nat) (lanes : List Nat) (delivered : Bool) (s : State) : Result :=
  s.onClock (.d2dFlitReplay link dir lanes delivered) fun d => d2dFlitReplay d link dir lanes delivered

/-- D2D_SLEEP (R92). -/
def execD2dSleep (link : Nat) (dir : Nat) (s : State) : Result :=
  s.onClock (.d2dSleep link dir) fun d => d2dSleep d link dir

/-- D2D_WAKE (R92). -/
def execD2dWake (link : Nat) (dir : Nat) (s : State) : Result :=
  s.onClock (.d2dWake link dir) fun d => d2dWake d link dir

/-- LK_SLIP_GO (R93). -/
def execLkSlipGo (src : Source) (link : Nat) (data : Word) (s : State) : Result :=
  s.run (.lkSlipGo src link data) fun d =>
    busWrite d src (ofLink A.D2D_LK_SLIP link) 0xF (F.D2D_LK_SLIP_GO.put data 1)

end Sys2Proof.Machine
end

