-- ==== Sys2Proof/Machine/CmdMgmt.lean ====
section
/-! DEFINITION. The meanings of the commands for SMBus and JTAG (R435, R437), and image read timeouts (R326, R415). -/

namespace Sys2Proof.Machine

/-- SMBUS_WRITE (R435). -/
def execSmbusWrite (to_ : Nat) (block : SmbBlock) (pec : Option Byte) (s : State) : Result :=
  s.run (.smbusWrite to_ block pec) fun d => smbusWrite d to_ block pec

/-- SMBUS_SET_ADDRESS (R435). -/
def execSmbusSetAddress (to_ : Nat) (block : SmbBlock) (pec : Option Byte) (s : State) : Result :=
  s.run (.smbusSetAddress to_ block pec) fun d => smbusSetAddress d to_ block pec

/-- SMBUS_READ (R435). -/
def execSmbusRead (to_ : Nat) (read : SmbRead) (s : State) : Result :=
  s.run (.smbusRead to_ read) fun d => smbusRead d to_ read

/-- SMBUS_TIMEOUT (R435). -/
def execSmbusTimeout (s : State) : Result :=
  s.run .smbusTimeout fun d => smbusTimeout d

/-- JTAG_IDCODE (R437). -/
def execJtagIdcode (s : State) : Result :=
  s.run .jtagIdcode fun d => jtagIdcode d

/-- JTAG_BYPASS (R437). -/
def execJtagBypass (s : State) : Result :=
  s.run .jtagBypass fun d => jtagBypass d

/-- JTAG_SAMPLE_PRELOAD (R437). -/
def execJtagSamplePreload (levels : BallLevels) (preload : BallLevels) (s : State) : Result :=
  s.run (.jtagSamplePreload levels preload) fun d => jtagSample d levels preload

/-- JTAG_EXTEST (R437). -/
def execJtagExtest (levels : BallLevels) (s : State) : Result :=
  s.run (.jtagExtest levels) fun d => jtagExtest d levels

/-- JTAG_CLAMP (R437). -/
def execJtagClamp (s : State) : Result :=
  s.run .jtagClamp fun d => jtagClamp d

/-- JTAG_HIGHZ (R437). -/
def execJtagHighz (s : State) : Result :=
  s.run .jtagHighz fun d => jtagHighz d

/-- JTAG_TRST (R437). -/
def execJtagTrst (low : Bool) (s : State) : Result :=
  s.run (.jtagTrst low) fun d => jtagTrst d low

/-- DELAY_RESP_MISSED (R266). -/
def execDelayRespMissed (s : State) : Result :=
  s.onClock .delayRespMissed fun d => delayRespMissed d

/-- IMAGE_READ_TIMEOUT (R326). -/
def execImageReadTimeout (role : Nat) (s : State) : Result :=
  s.onClock (.imageReadTimeout role) fun d => imageReadTimeout d role

end Sys2Proof.Machine
end

