-- ==== Sys2Proof/Machine/CmdPort.lean ====
section
/-! DEFINITION. The meanings of the commands for ports and flow control (R94 to R110). -/

namespace Sys2Proof.Machine

/-- PORT_ENABLE (R96). -/
def execPortEnable (src : Source) (port : Nat) (data : Word) (s : State) : Result :=
  s.run (.portEnable src port data) fun d =>
    busWrite d src (ofPort A.PORT_PT_CFG port) 0xF (F.PORT_PT_CFG_EN.put data 1)

/-- PORT_DISABLE (R110). -/
def execPortDisable (src : Source) (port : Nat) (data : Word) (s : State) : Result :=
  s.run (.portDisable src port data) fun d =>
    busWrite d src (ofPort A.PORT_PT_CFG port) 0xF (F.PORT_PT_CFG_EN.put data 0)

/-- PORT_UP (R108). -/
def execPortUp (port : Nat) (s : State) : Result :=
  s.onClock (.portUp port) fun d => portUp d port

/-- PORT_DOWN (R108). -/
def execPortDown (port : Nat) (fault : Nat) (s : State) : Result :=
  s.onClock (.portDown port fault) fun d => portDown d port fault

/-- PFC_RECEIVE (R105). -/
def execPfcReceive (port : Nat) (en : Nat) (quanta : List Nat) (s : State) : Result :=
  s.onClock (.pfcReceive port en quanta) fun d => pfcReceive d port en quanta

/-- PAUSE_RECEIVE (R105). -/
def execPauseReceive (port : Nat) (quanta : Nat) (s : State) : Result :=
  s.onClock (.pauseReceive port quanta) fun d => pauseReceive d port quanta

/-- PFC_STOP_EXPIRE (R105). -/
def execPfcStopExpire (port : Nat) (cyc : Nat) (s : State) : Result :=
  s.onClock (.pfcStopExpire port cyc) fun d => pfcStopExpire d port cyc

/-- PFC_XOFF_REPEAT (R104). -/
def execPfcXoffRepeat (port : Nat) (cyc : Nat) (s : State) : Result :=
  s.onClock (.pfcXoffRepeat port cyc) fun d => pfcXoffRepeat d port cyc

/-- PDELAY_EXCHANGE (R106). -/
def execPdelayExchange (port : Nat) (cyc : Nat) (lane : Nat) (raw : Int) (s : State) : Result :=
  s.onClock (.pdelayExchange port cyc lane raw) fun d => pdelayExchange d port cyc lane raw

/-- PDELAY_RESP_RECEIVE (R106). -/
def execPdelayRespReceive (port : Nat) (cyc : Nat) (lane : Nat) (raw : Int) (seq : Nat) (reqId : Nat) (t2 : Nat) (t3 : Nat)
    (s : State) : Result :=
  s.onClock (.pdelayRespReceive port cyc lane raw seq reqId t2 t3) fun d =>
    pdelayRespReceive d port cyc lane raw seq reqId t2 t3

/-- PDELAY_REQ_ANSWER (R106). -/
def execPdelayReqAnswer (port : Nat) (cyc : Nat) (rxLane : Nat) (rxRaw : Int) (txLane : Nat) (txRaw : Int) (seq : Nat) (srcId : Nat) (corr : Nat)
    (s : State) : Result :=
  s.onClock (.pdelayReqAnswer port cyc rxLane rxRaw txLane txRaw seq srcId corr) fun d =>
    pdelayReqAnswer d port cyc rxLane rxRaw txLane txRaw seq srcId corr

end Sys2Proof.Machine
end

