-- ==== Sys2Proof/Machine/CmdRas.lean ====
section
/-! DEFINITION. The meanings of the commands for errors, repair and the retirement record (R388 to R404). -/

namespace Sys2Proof.Machine

/-- SRAM_ECC_CORRECTED (R389). -/
def execSramEccCorrected (unit : Nat) (inst : Nat) (addr : Nat) (s : State) : Result :=
  s.onClock (.sramEccCorrected unit inst addr) fun d => sramEccCorrected d ⟨unit, inst, addr⟩

/-- SRAM_ECC_UNCORRECTABLE (R391). -/
def execSramEccUncorrectable (unit : Nat) (inst : Nat) (addr : Nat) (s : State) : Result :=
  s.onClock (.sramEccUncorrectable unit inst addr) fun d => sramEccUncorrectable d ⟨unit, inst, addr⟩

/-- ROW_TEST_COMPLETE (R391). -/
def execRowTestComplete (unit : Nat) (inst : Nat) (addr : Nat) (ok : Bool) (s : State) : Result :=
  s.onClock (.rowTestComplete unit inst addr ok) fun d => rowTestComplete d ⟨unit, inst, addr⟩ ok

/-- ROW_REPAIR_SWITCH (R393). -/
def execRowRepairSwitch (s : State) : Result :=
  s.onClock .rowRepairSwitch fun d => rowRepairSwitch d

/-- LH_ECC_CORRECTED (R389). -/
def execLhEccCorrected (stack : Nat) (unit : Nat) (resource : Bool) (s : State) : Result :=
  s.onClock (.lhEccCorrected stack unit resource) fun d => lhEccCorrected d stack unit resource

/-- RECORD_WRITE (R399). -/
def execRecordWrite (ok : Bool) (s : State) : Result :=
  s.onClock (.recordWrite ok) fun d => recordWrite d ok

/-- RR_CLEAR (R400). -/
def execRrClear (src : Source) (data : Word) (s : State) : Result :=
  s.run (.rrClear src data) fun d => busWrite d src A.RAS_RR_CFG 0xF (F.RAS_RR_CFG_CLEAR.put data 1)

end Sys2Proof.Machine
end

