-- ==== Sys2Proof/Machine/CmdRegs.lean ====
section
/-! DEFINITION. The meanings of the commands for register accesses and programmable counters (R7 to R11, R351 to R373, R402). -/

namespace Sys2Proof.Machine

/-- REGISTER_WRITE (R7, R10). -/
def execRegisterWrite (via : Via) (addr : Nat) (be : Nat) (data : Word) (cyc : Option Nat) (s : State) : Result :=
  s.run (.registerWrite via addr be data cyc) fun d => d.writeAt via addr be data cyc

/-- LO_READ_LATCH (R11). -/
def execLoReadLatch (via : Via) (addr : Nat) (be : Nat) (s : State) : Result :=
  s.run (.loReadLatch via addr be) fun d => d.viaRead via addr be

/-- BOOT_LOCK (R359). -/
def execBootLock (src : Source) (s : State) : Result :=
  s.run (.bootLock src) fun d => busWrite d src A.TOP_BOOT_LOCK 0xF (F.TOP_BOOT_LOCK_LOCKED.put 0 1)

/-- ERR_CLR (R354, R361). -/
def execErrClr (src : Source) (page : Nat) (cyc : Option Nat) (s : State) : Result :=
  s.run (.errClr src page cyc) fun d => d.writeAt (viaOf src) (pageBase page + 0x08) 0xF 1 cyc

/-- IRQ_FORCE (R354). -/
def execIrqForce (src : Source) (page : Nat) (bits : Word) (s : State) : Result :=
  s.run (.irqForce src page bits) fun d => busWrite d src (pageBase page + 0x18) 0xF bits

/-- STAIR_PEAK_READ (R150). -/
def execStairPeakRead (src : Source) (gal : Nat) (s : State) : Result :=
  s.run (.stairPeakRead src gal) fun d => busReadStep d src (A.STAIR_STAT gal) 0xF

/-- DAMPER_PEAK_READ (R387). -/
def execDamperPeakRead (src : Source) (temp : Bool) (s : State) : Result :=
  s.run (.damperPeakRead src temp) fun d => busReadStep d src (if temp then A.DAMPER_TEMP else A.DAMPER_PEAK) 0xF

/-- RAS_LOG_READ (R402). -/
def execRasLogRead (src : Source) (s : State) : Result :=
  s.run (.rasLogRead src) fun d => busReadStep d src (A.RAS_LOG 0) 0xF

/-- SAMPLE_FIFO_READ (R368). -/
def execSampleFifoRead (src : Source) (gal : Nat) (s : State) : Result :=
  s.run (.sampleFifoRead src gal) fun d => busReadStep d src (A.GCNT_SMP gal 0) 0xF

/-- PC_VAL_COMMIT (R367). -/
def execPcValCommit (src : Source) (page : Option Nat) (k : Nat) (hi : Word) (cyc : Option Nat) (s : State) : Result :=
  s.run (.pcValCommit src page k hi cyc) fun d =>
    d.writeAt (viaOf src) (match page with | some n => A.GCNT_PC_VAL_HI n k | none => A.CNT_PC_VAL_HI k) 0xF hi cyc

/-- PC_CLEAR_ALL (R365). -/
def execPcClearAll (src : Source) (page : Option Nat) (freeze : Bool) (s : State) : Result :=
  s.run (.pcClearAll src page freeze) fun d =>
    busWrite d src (match page with | some n => A.GCNT_PC_GCTL n | none => A.CNT_PC_GCTL) 0xF (F.GCNT_PC_GCTL_FREEZE.put 2 (b2n freeze))

/-- SAMPLE_SKID_END (R368). -/
def execSampleSkidEnd (gal : Nat) (cyc : Nat) (s : State) : Result :=
  s.onClock (.sampleSkidEnd gal cyc) fun d => sampleSkidEnd d gal cyc

/-- PPS_IN_CAP_READ (R272). -/
def execPpsInCapRead (src : Source) (k : Nat) (s : State) : Result :=
  s.run (.ppsInCapRead src k) fun d => busReadStep d src (A.TIME_PPS_IN_CAP_FRAC k) 0xF

/-- RAS_LOG_STAT_READ (R402). -/
def execRasLogStatRead (src : Source) (s : State) : Result :=
  s.run (.rasLogStatRead src) fun d => busReadStep d src A.RAS_LOG_STAT 0xF

/-- CYCLE_COUNTER_WRAP (R362). -/
def execCycleCounterWrap (page : Option Nat) (k : Nat) (cyc : Nat) (s : State) : Result :=
  s.onClock (.cycleCounterWrap page k cyc) fun d => cycleCounterWrap d page k cyc

end Sys2Proof.Machine
end

