-- ==== Sys2Proof/Machine/CmdReset.lean ====
section
/-! DEFINITION. The meanings of the commands for power, resets and boot (R25 to R28, R384, R407 to R417). -/

namespace Sys2Proof.Machine

/-- POWER_UP (R26). -/
def execPowerUp (smbAddr : Nat) (s : State) : Result :=
  s.run (.powerUp smbAddr) fun d => powerUp d smbAddr

/-- SUPPLY_OUT_OF_RANGE (R405). -/
def execSupplyOutOfRange (s : State) : Result :=
  s.run .supplyOutOfRange fun d => supplyOutOfRange d

/-- RESET_RELEASE (R407). -/
def execResetRelease (gpio : Nat) (ns : Nat) (s : State) : Result :=
  s.run (.resetRelease gpio ns) fun d => resetRelease d gpio ns

/-- BOOT_SOURCE_ATTEMPT (R413). -/
def execBootSourceAttempt (img : Option Bytes) (s : State) : Result :=
  s.run (.bootSourceAttempt img) fun d => bootSourceAttempt d img

/-- BOOT_IMAGE_COMPLETE (R414). -/
def execBootImageComplete (ack : Bool) (spent : List Nat) (failed : List (Nat × Nat × Nat)) (s : State) : Result :=
  s.run (.bootImageComplete ack spent failed) fun d => bootImageComplete d ack spent failed

/-- BOOT_DL_GO (R415). -/
def execBootDlGo (src : Source) (s : State) : Result :=
  s.run (.bootDlGo src) fun d => busWrite d src A.TOP_BOOT_DL_CMD 0xF (F.TOP_BOOT_DL_CMD_GO.put 0 1)

/-- DEV_GO (R26). -/
def execDevGo (src : Source) (s : State) : Result :=
  s.run (.devGo src) fun d => busWrite d src A.TOP_DEV_CTRL 0xF (F.TOP_DEV_CTRL_GO.put 0 1)

/-- ENTER_RUN (R26). -/
def execEnterRun (s : State) : Result :=
  s.onClock .enterRun fun d => enterRun d

/-- THERMAL_SHUTDOWN (R384). -/
def execThermalShutdown (celsius : Int) (s : State) : Result :=
  s.run (.thermalShutdown celsius) fun d => thermalShutdown d celsius

/-- COLD_RESET (R408). -/
def execColdReset (src : Source) (s : State) : Result :=
  s.run (.coldReset src) fun d => busWrite d src A.TOP_RESET_CTRL 0xF (F.TOP_RESET_CTRL_COLD.put 0 1)

/-- WARM_RESET (R408). -/
def execWarmReset (src : Source) (s : State) : Result :=
  s.run (.warmReset src) fun d => busWrite d src A.TOP_RESET_CTRL 0xF (F.TOP_RESET_CTRL_WARM.put 0 1)

/-- PERST_FALL (R408). -/
def execPerstFall (s : State) : Result :=
  s.run .perstFall fun d => perstFall d

/-- RESET_HOLD_EXPIRE (R408). -/
def execResetHoldExpire (gpio : Nat) (s : State) : Result :=
  s.run (.resetHoldExpire gpio) fun d => resetHoldExpire d gpio

end Sys2Proof.Machine
end

