-- ==== Sys2Proof/Machine/CmdSeq.lean ====
section
/-! DEFINITION. The meanings of the commands for sequencers and their images (R317 to R331). -/

namespace Sys2Proof.Machine

/-- MICROWORD_ISSUE (R320). -/
def execMicrowordIssue (seq : Nat) (cyc : Nat) (s : State) : Result :=
  s.onClock (.microwordIssue seq cyc) fun d => microwordIssue d seq cyc

/-- WAIT_CONDITION_MET (R320). -/
def execWaitConditionMet (seq : Nat) (cyc : Nat) (s : State) : Result :=
  s.onClock (.waitConditionMet seq cyc) fun d => waitConditionMet d seq cyc

/-- WAIT_TIMEOUT (R320). -/
def execWaitTimeout (seq : Nat) (s : State) : Result :=
  s.onClock (.waitTimeout seq) fun d => waitTimeout d seq

/-- BUS_ACCESS_COMPLETE (R321). -/
def execBusAccessComplete (seq : Nat) (cyc : Nat) (s : State) : Result :=
  s.onClock (.busAccessComplete seq cyc) fun d => busAccessComplete d seq cyc

/-- LH_TRANSFER_COMPLETE (R321). -/
def execLhTransferComplete (seq : Nat) (s : State) : Result :=
  s.onClock (.lhTransferComplete seq) fun d => lhTransferComplete d seq

/-- SEQ_EVENT_POST (R322). -/
def execSeqEventPost (seq : Nat) (ev : Nat) (s : State) : Result :=
  s.onClock (.seqEventPost seq ev) fun d => seqEventPost d seq ev

/-- IMAGE_LOAD (R326). -/
def execImageLoad (src : Source) (role : Nat) (data : Word) (s : State) : Result :=
  s.run (.imageLoad src role data) fun d =>
    busWrite d src (A.SEQ_RL_CMD (role - 1)) 0xF (F.SEQ_RL_CMD_LOAD.put data 1)

/-- IMAGE_LOAD_DONE (R326). -/
def execImageLoadDone (role : Nat) (img : Bytes) (s : State) : Result :=
  s.onClock (.imageLoadDone role img) fun d => imageLoadDone d role img

/-- IMAGE_SWITCH (R328). -/
def execImageSwitch (src : Source) (role : Nat) (data : Word) (s : State) : Result :=
  s.run (.imageSwitch src role data) fun d =>
    busWrite d src (A.SEQ_RL_CMD (role - 1)) 0xF (F.SEQ_RL_CMD_SWITCH.put data 1)

/-- IMAGE_SWITCH_MADE (R328). -/
def execImageSwitchMade (role : Nat) (s : State) : Result :=
  s.onClock (.imageSwitchMade role) fun d => imageSwitchMade d role

/-- IMAGE_SWITCH_TIMEOUT (R328). -/
def execImageSwitchTimeout (role : Nat) (s : State) : Result :=
  s.onClock (.imageSwitchTimeout role) fun d => imageSwitchTimeout d role

/-- SEQ_RESTART (R329). -/
def execSeqRestart (src : Source) (seq : Nat) (s : State) : Result :=
  s.run (.seqRestart src seq) fun d => busWrite d src (A.SEQ_SQ_CTRL seq) 0xF (F.SEQ_SQ_CTRL_RESTART.put 0 1)

/-- SEQ_STOP (R329). -/
def execSeqStop (src : Source) (seq : Nat) (s : State) : Result :=
  s.run (.seqStop src seq) fun d => busWrite d src (A.SEQ_SQ_CTRL seq) 0xF (F.SEQ_SQ_CTRL_STOP.put 0 1)

/-- MBOX_WRITE (R329). -/
def execMboxWrite (src : Source) (seq : Nat) (value : Word) (s : State) : Result :=
  s.run (.mboxWrite src seq value) fun d => busWrite d src (A.SEQ_SQ_MBOX_IN seq) 0xF value

end Sys2Proof.Machine
end

