-- ==== Sys2Proof/Machine/CmdTable.lean ====
section
/-! DEFINITION. The meanings of the commands for learning, ageing, locks and table DMA (R151 to R172). -/

namespace Sys2Proof.Machine

/-- LEARN_ADMIT (R166). -/
def execLearnAdmit (cyc : Nat) (s : State) : Result :=
  s.onClock (.learnAdmit cyc) fun d => learnAdmit d cyc

/-- AGE_SWEEP_START (R168). -/
def execAgeSweepStart (s : State) : Result :=
  s.onClock .ageSweepStart fun d => ageSweepStart d

/-- REPLACE_DONE (R159). -/
def execReplaceDone (s : State) : Result :=
  s.onClock .replaceDone fun d => replaceDone d

/-- LOCK_EXPIRE (R172). -/
def execLockExpire (row : Nat) (s : State) : Result :=
  s.onClock (.lockExpire row) fun d => lockExpire d row

/-- TDMA_READ (R170). -/
def execTdmaRead (ring : Nat) (s : State) : Result :=
  s.onClock (.tdmaRead ring) fun d => tdmaRead d ring

/-- TDMA_WRITE (R170). -/
def execTdmaWrite (ring : Nat) (data : Option Bytes) (s : State) : Result :=
  s.onClock (.tdmaWrite ring data) fun d => tdmaWrite d ring data

/-- TDMA_LOCK (R172). -/
def execTdmaLock (ring : Nat) (s : State) : Result :=
  s.onClock (.tdmaLock ring) fun d => tdmaLock d ring

/-- TDMA_UNLOCK (R170). -/
def execTdmaUnlock (ring : Nat) (s : State) : Result :=
  s.onClock (.tdmaUnlock ring) fun d => tdmaUnlock d ring

end Sys2Proof.Machine
end

