-- ==== Sys2Proof/Machine/CmdTelem.lean ====
section
/-! DEFINITION. The meanings of the commands for flow records and telemetry (R277 to R294). -/

namespace Sys2Proof.Machine

/-- FLOW_MISS_FETCH (R280). -/
def execFlowMissFetch (s : State) : Result :=
  s.onClock .flowMissFetch fun d => flowMissFetch d

/-- FLOW_SWEEP_VISIT (R283). -/
def execFlowSweepVisit (s : State) : Result :=
  s.onClock .flowSweepVisit fun d => flowSweepVisit d

/-- FLOW_FLUSH (R283). -/
def execFlowFlush (src : Source) (data : Word) (s : State) : Result :=
  s.run (.flowFlush src data) fun d => busWrite d src A.TELEM_FS_CFG 0xF (F.TELEM_FS_CFG_FLUSH.put data 1)

/-- DATAGRAM_CLOSE (R292). -/
def execDatagramClose (packer : Nat) (coll : Nat) (kind : Nat) (s : State) : Result :=
  s.onClock (.datagramClose packer coll kind) fun d => datagramClose d packer coll kind

end Sys2Proof.Machine
end

