-- ==== Sys2Proof/Machine/CmdTime.lean ====
section
/-! DEFINITION. The meanings of the commands for the device clock, PTP, pulses and the ledger (R252 to R276). -/

namespace Sys2Proof.Machine

/-- CLOCK_STEP_SET (R257). -/
def execClockStepSet (src : Source) (s : State) : Result :=
  s.run (.clockStepSet src) fun d => busWrite d src A.TIME_STEP_CTRL 0xF (F.TIME_STEP_CTRL_SET.put 0 1)

/-- CLOCK_STEP_ADD (R257). -/
def execClockStepAdd (src : Source) (s : State) : Result :=
  s.run (.clockStepAdd src) fun d => busWrite d src A.TIME_STEP_CTRL 0xF (F.TIME_STEP_CTRL_ADD.put 0 1)

/-- CLOCK_STEP_DONE (R257). -/
def execClockStepDone (cyc : Nat) (s : State) : Result :=
  s.onClock (.clockStepDone cyc) fun d => clockStepDone d cyc

/-- NOW_READ (R257). -/
def execNowRead (src : Source) (s : State) : Result :=
  s.run (.nowRead src) fun d => busReadStep d src A.TIME_NOW_FRAC 0xF

/-- EXT10M_LOST (R255). -/
def execExt10mLost (cyc : Nat) (s : State) : Result :=
  s.run (.ext10mLost cyc) fun d => Device.ext10m false (fun d => ext10mLost d cyc) d

/-- EXT10M_RESTORED (R255). -/
def execExt10mRestored (cyc : Nat) (s : State) : Result :=
  s.run (.ext10mRestored cyc) fun d => Device.ext10m true (fun d => ext10mRestored d cyc) d

/-- LEDGER_RECORD (R273). -/
def execLedgerRecord (cyc : Nat) (s : State) : Result :=
  s.onClock (.ledgerRecord cyc) fun d => ledgerRecord d cyc

/-- LEDGER_COPY (R275). -/
def execLedgerCopy (src : Source) (data : Word) (s : State) : Result :=
  s.run (.ledgerCopy src data) fun d => busWrite d src A.TIME_LEDGER_CTRL 0xF (F.TIME_LEDGER_CTRL_COPY.put data 1)

/-- LEDGER_COPY_DONE (R275). -/
def execLedgerCopyDone (s : State) : Result :=
  s.onClock .ledgerCopyDone fun d => ledgerCopyDone d

/-- SYNC_SEND (R264). -/
def execSyncSend (port : Nat) (cyc : Nat) (s : State) : Result :=
  s.onClock (.syncSend port cyc) fun d => syncSend d port cyc

/-- DELAY_RESP_SEND (R264). -/
def execDelayRespSend (port : Nat) (cyc : Nat) (lane : Nat) (raw : Int) (m : PtpMsg) (s : State) : Result :=
  s.onClock (.delayRespSend port cyc lane raw m) fun d => delayRespSend d port cyc lane raw m

/-- DELAY_REQ_SEND (R266). -/
def execDelayReqSend (cyc : Nat) (s : State) : Result :=
  s.onClock (.delayReqSend cyc) fun d => delayReqSend d cyc

/-- DELAY_RESP_RECEIVE (R266). -/
def execDelayRespReceive (port : Nat) (cyc : Nat) (m : PtpMsg) (s : State) : Result :=
  s.onClock (.delayRespReceive port cyc m) fun d => delayRespReceive d port cyc m

/-- SYNC_RECEIVE_SAMPLE (R266). -/
def execSyncReceiveSample (port : Nat) (cyc : Nat) (lane : Nat) (raw : Int) (m : PtpMsg) (s : State) : Result :=
  s.onClock (.syncReceiveSample port cyc lane raw m) fun d => syncReceiveSample d port cyc lane raw m

/-- FOLLOW_UP_RECEIVE (R266). -/
def execFollowUpReceive (port : Nat) (cyc : Nat) (m : PtpMsg) (s : State) : Result :=
  s.onClock (.followUpReceive port cyc m) fun d => followUpReceive d port cyc m

/-- SERVO_LOSS_TIMEOUT (R267). -/
def execServoLossTimeout (s : State) : Result :=
  s.onClock .servoLossTimeout fun d => servoLossTimeout d

/-- PPS_IN_EDGE (R272). -/
def execPpsInEdge (k : Nat) (cyc : Nat) (raw : Nat) (s : State) : Result :=
  s.onClock (.ppsInEdge k cyc raw) fun d => ppsInEdge d k cyc raw

/-- TIME_EVT_EDGE (R272). -/
def execTimeEvtEdge (k : Nat) (cyc : Nat) (raw : Nat) (rising : Bool) (s : State) : Result :=
  s.onClock (.timeEvtEdge k cyc raw rising) fun d => timeEvtEdge d k cyc raw rising

/-- EVT_FIFO_READ (R272). -/
def execEvtFifoRead (src : Source) (k : Nat) (s : State) : Result :=
  s.run (.evtFifoRead src k) fun d => busReadStep d src (A.TIME_EV_FRAC k) 0xF

/-- PPS_OUT_EDGE (R271). -/
def execPpsOutEdge (k : Nat) (cyc : Nat) (s : State) : Result :=
  s.onClock (.ppsOutEdge k cyc) fun d => ppsOutEdge d k cyc

/-- TRIGGER_ENABLE (R271). -/
def execTriggerEnable (src : Source) (k : Nat) (data : Word) (s : State) : Result :=
  s.run (.triggerEnable src k data) fun d => busWrite d src (A.TIME_TR_CTRL k) 0xF (F.TIME_TR_CTRL_EN.put data 1)

/-- TRIGGER_PULSE (R271). -/
def execTriggerPulse (k : Nat) (cyc : Nat) (s : State) : Result :=
  s.onClock (.triggerPulse k cyc) fun d => triggerPulse d k cyc

end Sys2Proof.Machine
end

