-- ==== Sys2Proof/Machine/Dispatch.lean ====
section
/-! DEFINITION. One arm for each command. -/

namespace Sys2Proof.Machine

def exec (i : Instr) (s : State) : Host.Outcome State Fault Refusal :=
  match i with
  | .powerUp smbAddr => Sys2Proof.Machine.execPowerUp smbAddr s
  | .supplyOutOfRange => Sys2Proof.Machine.execSupplyOutOfRange s
  | .resetRelease gpio ns => Sys2Proof.Machine.execResetRelease gpio ns s
  | .bootSourceAttempt img => Sys2Proof.Machine.execBootSourceAttempt img s
  | .bootImageComplete ack spent failed => Sys2Proof.Machine.execBootImageComplete ack spent failed s
  | .bootDlGo src => Sys2Proof.Machine.execBootDlGo src s
  | .devGo src => Sys2Proof.Machine.execDevGo src s
  | .enterRun => Sys2Proof.Machine.execEnterRun s
  | .thermalShutdown celsius => Sys2Proof.Machine.execThermalShutdown celsius s
  | .coldReset src => Sys2Proof.Machine.execColdReset src s
  | .warmReset src => Sys2Proof.Machine.execWarmReset src s
  | .perstFall => Sys2Proof.Machine.execPerstFall s
  | .resetHoldExpire gpio => Sys2Proof.Machine.execResetHoldExpire gpio s
  | .galFenceReq src mask => Sys2Proof.Machine.execGalFenceReq src mask s
  | .galleryFence => Sys2Proof.Machine.execGalleryFence s
  | .fenceDiscardStep => Sys2Proof.Machine.execFenceDiscardStep s
  | .galleryWatchdog gal => Sys2Proof.Machine.execGalleryWatchdog gal s
  | .galleryParityError gal => Sys2Proof.Machine.execGalleryParityError gal s
  | .fatalFault kind => Sys2Proof.Machine.execFatalFault kind s
  | .strokeBoundary => Sys2Proof.Machine.execStrokeBoundary s
  | .genFlipRequest src data => Sys2Proof.Machine.execGenFlipRequest src data s
  | .genFlip => Sys2Proof.Machine.execGenFlip s
  | .genReclaim => Sys2Proof.Machine.execGenReclaim s
  | .genResyncEnd => Sys2Proof.Machine.execGenResyncEnd s
  | .snapReq src => Sys2Proof.Machine.execSnapReq src s
  | .snapPeriodWrite src period => Sys2Proof.Machine.execSnapPeriodWrite src period s
  | .snapshot => Sys2Proof.Machine.execSnapshot s
  | .snapPeriodic => Sys2Proof.Machine.execSnapPeriodic s
  | .snapCopiesComplete => Sys2Proof.Machine.execSnapCopiesComplete s
  | .snapMergedRead src => Sys2Proof.Machine.execSnapMergedRead src s
  | .profileStage src staged => Sys2Proof.Machine.execProfileStage src staged s
  | .coreFreqDown => Sys2Proof.Machine.execCoreFreqDown s
  | .coreFreqUp => Sys2Proof.Machine.execCoreFreqUp s
  | .avsReadback ack mv amps => Sys2Proof.Machine.execAvsReadback ack mv amps s
  | .refClockLost chiplet => Sys2Proof.Machine.execRefClockLost chiplet s
  | .refClockRestored chiplet => Sys2Proof.Machine.execRefClockRestored chiplet s
  | .signalDetect lane cyc => Sys2Proof.Machine.execSignalDetect lane cyc s
  | .signalLost lane cyc => Sys2Proof.Machine.execSignalLost lane cyc s
  | .anPageReceive port rates fec => Sys2Proof.Machine.execAnPageReceive port rates fec s
  | .trainingConverged port => Sys2Proof.Machine.execTrainingConverged port s
  | .trainingTimeout port => Sys2Proof.Machine.execTrainingTimeout port s
  | .blockLockAcquired lane inverted reversed phase => Sys2Proof.Machine.execBlockLockAcquired lane inverted reversed phase s
  | .laneUp port => Sys2Proof.Machine.execLaneUp port s
  | .blockLockLost lane cyc => Sys2Proof.Machine.execBlockLockLost lane cyc s
  | .fecUncorrLimit lane n cyc => Sys2Proof.Machine.execFecUncorrLimit lane n cyc s
  | .snrLow lane snr cyc => Sys2Proof.Machine.execSnrLow lane snr cyc s
  | .laneDisable src lane data => Sys2Proof.Machine.execLaneDisable src lane data s
  | .laneTestEnter src lane data => Sys2Proof.Machine.execLaneTestEnter src lane data s
  | .laneTestExit src lane data => Sys2Proof.Machine.execLaneTestExit src lane data s
  | .dormantRequest src port data => Sys2Proof.Machine.execDormantRequest src port data s
  | .dormantRelease src port data => Sys2Proof.Machine.execDormantRelease src port data s
  | .p7DormantEntry port => Sys2Proof.Machine.execP7DormantEntry port s
  | .p7WakeTimeout port => Sys2Proof.Machine.execP7WakeTimeout port s
  | .lpiEnter port cyc => Sys2Proof.Machine.execLpiEnter port cyc s
  | .lpiExit port cyc => Sys2Proof.Machine.execLpiExit port cyc s
  | .lpiPartnerSignal port cyc enter => Sys2Proof.Machine.execLpiPartnerSignal port cyc enter s
  | .prbsLock lane => Sys2Proof.Machine.execPrbsLock lane s
  | .prbsLockLost lane errs => Sys2Proof.Machine.execPrbsLockLost lane errs s
  | .prbsClear src lane data => Sys2Proof.Machine.execPrbsClear src lane data s
  | .errorInjectGo src lane data => Sys2Proof.Machine.execErrorInjectGo src lane data s
  | .errorInjectPeriodic lane cyc => Sys2Proof.Machine.execErrorInjectPeriodic lane cyc s
  | .bitslip src lane => Sys2Proof.Machine.execBitslip src lane s
  | .linkTrain link failedOut failedIn => Sys2Proof.Machine.execLinkTrain link failedOut failedIn s
  | .linkRetrain src link data => Sys2Proof.Machine.execLinkRetrain src link data s
  | .d2dFlitReplay link dir lanes delivered => Sys2Proof.Machine.execD2dFlitReplay link dir lanes delivered s
  | .d2dSleep link dir => Sys2Proof.Machine.execD2dSleep link dir s
  | .d2dWake link dir => Sys2Proof.Machine.execD2dWake link dir s
  | .lkSlipGo src link data => Sys2Proof.Machine.execLkSlipGo src link data s
  | .portEnable src port data => Sys2Proof.Machine.execPortEnable src port data s
  | .portDisable src port data => Sys2Proof.Machine.execPortDisable src port data s
  | .portUp port => Sys2Proof.Machine.execPortUp port s
  | .portDown port fault => Sys2Proof.Machine.execPortDown port fault s
  | .frameReceiveStart port cyc lane raw sfd bytes => Sys2Proof.Machine.execFrameReceiveStart port cyc lane raw sfd bytes s
  | .headerAccept gal cyc => Sys2Proof.Machine.execHeaderAccept gal cyc s
  | .parseResume port cyc bytes => Sys2Proof.Machine.execParseResume port cyc bytes s
  | .fragmentHoldReenter gal => Sys2Proof.Machine.execFragmentHoldReenter gal s
  | .fftEntryExpire index => Sys2Proof.Machine.execFftEntryExpire index s
  | .fftFlush src data => Sys2Proof.Machine.execFftFlush src data s
  | .extLookupReturn gal => Sys2Proof.Machine.execExtLookupReturn gal s
  | .ingressPassEnd gal cyc => Sys2Proof.Machine.execIngressPassEnd gal cyc s
  | .stairGrant gal cyc => Sys2Proof.Machine.execStairGrant gal cyc s
  | .stairWaitExpire gal => Sys2Proof.Machine.execStairWaitExpire gal s
  | .frameReceiveEnd port cyc bytes codewords => Sys2Proof.Machine.execFrameReceiveEnd port cyc bytes codewords s
  | .icvCheckResult port cyc => Sys2Proof.Machine.execIcvCheckResult port cyc s
  | .pfcReceive port en quanta => Sys2Proof.Machine.execPfcReceive port en quanta s
  | .pauseReceive port quanta => Sys2Proof.Machine.execPauseReceive port quanta s
  | .pfcStopExpire port cyc => Sys2Proof.Machine.execPfcStopExpire port cyc s
  | .pfcXoffRepeat port cyc => Sys2Proof.Machine.execPfcXoffRepeat port cyc s
  | .pdelayExchange port cyc lane raw => Sys2Proof.Machine.execPdelayExchange port cyc lane raw s
  | .pdelayRespReceive port cyc lane raw seq reqId t2 t3 => Sys2Proof.Machine.execPdelayRespReceive port cyc lane raw seq reqId t2 t3 s
  | .pdelayReqAnswer port cyc rxLane rxRaw txLane txRaw seq srcId corr => Sys2Proof.Machine.execPdelayReqAnswer port cyc rxLane rxRaw txLane txRaw seq srcId corr s
  | .parseBankSwitchReq src => Sys2Proof.Machine.execParseBankSwitchReq src s
  | .actWordWrite src gal => Sys2Proof.Machine.execActWordWrite src gal s
  | .actWordRead src gal => Sys2Proof.Machine.execActWordRead src gal s
  | .egressSelect port cyc => Sys2Proof.Machine.execEgressSelect port cyc s
  | .egressFirstByte port cyc lane raw => Sys2Proof.Machine.execEgressFirstByte port cyc lane raw s
  | .frameTransmitEnd port => Sys2Proof.Machine.execFrameTransmitEnd port s
  | .ctUnderrun port => Sys2Proof.Machine.execCtUnderrun port s
  | .cellEccUncorrectable port => Sys2Proof.Machine.execCellEccUncorrectable port s
  | .spillMove gal bad => Sys2Proof.Machine.execSpillMove gal bad s
  | .spillReturn gal bad => Sys2Proof.Machine.execSpillReturn gal bad s
  | .bankCopy bad => Sys2Proof.Machine.execBankCopy bad s
  | .bankRemap => Sys2Proof.Machine.execBankRemap s
  | .bankLost => Sys2Proof.Machine.execBankLost s
  | .repListWrite src => Sys2Proof.Machine.execRepListWrite src s
  | .repListRead src => Sys2Proof.Machine.execRepListRead src s
  | .billetGrant pool => Sys2Proof.Machine.execBilletGrant pool s
  | .billetFree pool => Sys2Proof.Machine.execBilletFree pool s
  | .billetCacheRefill pool => Sys2Proof.Machine.execBilletCacheRefill pool s
  | .billetCacheWriteback pool => Sys2Proof.Machine.execBilletCacheWriteback pool s
  | .gateCommit src port data => Sys2Proof.Machine.execGateCommit src port data s
  | .gateListTakeover port cyc => Sys2Proof.Machine.execGateListTakeover port cyc s
  | .gateEdge port cyc => Sys2Proof.Machine.execGateEdge port cyc s
  | .keyCommit src aes256 => Sys2Proof.Machine.execKeyCommit src aes256 s
  | .keyErase src aes256 => Sys2Proof.Machine.execKeyErase src aes256 s
  | .keyCommitPoint at_ => Sys2Proof.Machine.execKeyCommitPoint at_ s
  | .saPnWrite src gal hi => Sys2Proof.Machine.execSaPnWrite src gal hi s
  | .clockStepSet src => Sys2Proof.Machine.execClockStepSet src s
  | .clockStepAdd src => Sys2Proof.Machine.execClockStepAdd src s
  | .clockStepDone cyc => Sys2Proof.Machine.execClockStepDone cyc s
  | .nowRead src => Sys2Proof.Machine.execNowRead src s
  | .ext10mLost cyc => Sys2Proof.Machine.execExt10mLost cyc s
  | .ext10mRestored cyc => Sys2Proof.Machine.execExt10mRestored cyc s
  | .ledgerRecord cyc => Sys2Proof.Machine.execLedgerRecord cyc s
  | .ledgerCopy src data => Sys2Proof.Machine.execLedgerCopy src data s
  | .ledgerCopyDone => Sys2Proof.Machine.execLedgerCopyDone s
  | .syncSend port cyc => Sys2Proof.Machine.execSyncSend port cyc s
  | .delayRespSend port cyc lane raw m => Sys2Proof.Machine.execDelayRespSend port cyc lane raw m s
  | .delayReqSend cyc => Sys2Proof.Machine.execDelayReqSend cyc s
  | .delayRespReceive port cyc m => Sys2Proof.Machine.execDelayRespReceive port cyc m s
  | .syncReceiveSample port cyc lane raw m => Sys2Proof.Machine.execSyncReceiveSample port cyc lane raw m s
  | .followUpReceive port cyc m => Sys2Proof.Machine.execFollowUpReceive port cyc m s
  | .servoLossTimeout => Sys2Proof.Machine.execServoLossTimeout s
  | .ppsInEdge k cyc raw => Sys2Proof.Machine.execPpsInEdge k cyc raw s
  | .timeEvtEdge k cyc raw rising => Sys2Proof.Machine.execTimeEvtEdge k cyc raw rising s
  | .evtFifoRead src k => Sys2Proof.Machine.execEvtFifoRead src k s
  | .ppsOutEdge k cyc => Sys2Proof.Machine.execPpsOutEdge k cyc s
  | .triggerEnable src k data => Sys2Proof.Machine.execTriggerEnable src k data s
  | .triggerPulse k cyc => Sys2Proof.Machine.execTriggerPulse k cyc s
  | .flowMissFetch => Sys2Proof.Machine.execFlowMissFetch s
  | .flowSweepVisit => Sys2Proof.Machine.execFlowSweepVisit s
  | .flowFlush src data => Sys2Proof.Machine.execFlowFlush src data s
  | .datagramClose packer coll kind => Sys2Proof.Machine.execDatagramClose packer coll kind s
  | .groupEnable src data => Sys2Proof.Machine.execGroupEnable src data s
  | .groupDisable src data => Sys2Proof.Machine.execGroupDisable src data s
  | .contribReceive anvil => Sys2Proof.Machine.execContribReceive anvil s
  | .resultReceive anvil => Sys2Proof.Machine.execResultReceive anvil s
  | .nackReceive anvil => Sys2Proof.Machine.execNackReceive anvil s
  | .abortReceive anvil => Sys2Proof.Machine.execAbortReceive anvil s
  | .nackTimerExpire group => Sys2Proof.Machine.execNackTimerExpire group s
  | .upTimerExpire group => Sys2Proof.Machine.execUpTimerExpire group s
  | .retainComplete anvil => Sys2Proof.Machine.execRetainComplete anvil s
  | .retainExpire group => Sys2Proof.Machine.execRetainExpire group s
  | .microwordIssue seq cyc => Sys2Proof.Machine.execMicrowordIssue seq cyc s
  | .waitConditionMet seq cyc => Sys2Proof.Machine.execWaitConditionMet seq cyc s
  | .waitTimeout seq => Sys2Proof.Machine.execWaitTimeout seq s
  | .busAccessComplete seq cyc => Sys2Proof.Machine.execBusAccessComplete seq cyc s
  | .lhTransferComplete seq => Sys2Proof.Machine.execLhTransferComplete seq s
  | .seqEventPost seq ev => Sys2Proof.Machine.execSeqEventPost seq ev s
  | .imageLoad src role data => Sys2Proof.Machine.execImageLoad src role data s
  | .imageLoadDone role img => Sys2Proof.Machine.execImageLoadDone role img s
  | .imageSwitch src role data => Sys2Proof.Machine.execImageSwitch src role data s
  | .imageSwitchMade role => Sys2Proof.Machine.execImageSwitchMade role s
  | .imageSwitchTimeout role => Sys2Proof.Machine.execImageSwitchTimeout role s
  | .seqRestart src seq => Sys2Proof.Machine.execSeqRestart src seq s
  | .seqStop src seq => Sys2Proof.Machine.execSeqStop src seq s
  | .mboxWrite src seq value => Sys2Proof.Machine.execMboxWrite src seq value s
  | .learnAdmit cyc => Sys2Proof.Machine.execLearnAdmit cyc s
  | .ageSweepStart => Sys2Proof.Machine.execAgeSweepStart s
  | .replaceDone => Sys2Proof.Machine.execReplaceDone s
  | .lockExpire row => Sys2Proof.Machine.execLockExpire row s
  | .tdmaRead ring => Sys2Proof.Machine.execTdmaRead ring s
  | .tdmaWrite ring data => Sys2Proof.Machine.execTdmaWrite ring data s
  | .tdmaLock ring => Sys2Proof.Machine.execTdmaLock ring s
  | .tdmaUnlock ring => Sys2Proof.Machine.execTdmaUnlock ring s
  | .ringEnable via ring data => Sys2Proof.Machine.execRingEnable via ring data s
  | .ringDisable via ring data => Sys2Proof.Machine.execRingDisable via ring data s
  | .ringPoll ring => Sys2Proof.Machine.execRingPoll ring s
  | .ringEntryRead ring entry body => Sys2Proof.Machine.execRingEntryRead ring entry body s
  | .rxPacketWrite ring => Sys2Proof.Machine.execRxPacketWrite ring s
  | .noticeWrite => Sys2Proof.Machine.execNoticeWrite s
  | .hostReadTimeout ring read => Sys2Proof.Machine.execHostReadTimeout ring read s
  | .hostReadRetry ring => Sys2Proof.Machine.execHostReadRetry ring s
  | .ringResume via ring data => Sys2Proof.Machine.execRingResume via ring data s
  | .functionLevelReset vf => Sys2Proof.Machine.execFunctionLevelReset vf s
  | .registerWrite via addr be data cyc => Sys2Proof.Machine.execRegisterWrite via addr be data cyc s
  | .loReadLatch via addr be => Sys2Proof.Machine.execLoReadLatch via addr be s
  | .bootLock src => Sys2Proof.Machine.execBootLock src s
  | .errClr src page cyc => Sys2Proof.Machine.execErrClr src page cyc s
  | .irqForce src page bits => Sys2Proof.Machine.execIrqForce src page bits s
  | .stairPeakRead src gal => Sys2Proof.Machine.execStairPeakRead src gal s
  | .damperPeakRead src temp => Sys2Proof.Machine.execDamperPeakRead src temp s
  | .rasLogRead src => Sys2Proof.Machine.execRasLogRead src s
  | .sampleFifoRead src gal => Sys2Proof.Machine.execSampleFifoRead src gal s
  | .pcValCommit src page k hi cyc => Sys2Proof.Machine.execPcValCommit src page k hi cyc s
  | .pcClearAll src page freeze => Sys2Proof.Machine.execPcClearAll src page freeze s
  | .sampleSkidEnd gal cyc => Sys2Proof.Machine.execSampleSkidEnd gal cyc s
  | .vrThrottleAssert => Sys2Proof.Machine.execVrThrottleAssert s
  | .vrThrottleRelease => Sys2Proof.Machine.execVrThrottleRelease s
  | .thermalSensorRead temps => Sys2Proof.Machine.execThermalSensorRead temps s
  | .thermalDemandStep => Sys2Proof.Machine.execThermalDemandStep s
  | .paceLevelStep => Sys2Proof.Machine.execPaceLevelStep s
  | .pacingPeriod => Sys2Proof.Machine.execPacingPeriod s
  | .quenchStart at_ => Sys2Proof.Machine.execQuenchStart at_ s
  | .quenchRelease cyc => Sys2Proof.Machine.execQuenchRelease cyc s
  | .sramEccCorrected unit inst addr => Sys2Proof.Machine.execSramEccCorrected unit inst addr s
  | .sramEccUncorrectable unit inst addr => Sys2Proof.Machine.execSramEccUncorrectable unit inst addr s
  | .rowTestComplete unit inst addr ok => Sys2Proof.Machine.execRowTestComplete unit inst addr ok s
  | .rowRepairSwitch => Sys2Proof.Machine.execRowRepairSwitch s
  | .lhEccCorrected stack unit resource => Sys2Proof.Machine.execLhEccCorrected stack unit resource s
  | .recordWrite ok => Sys2Proof.Machine.execRecordWrite ok s
  | .rrClear src data => Sys2Proof.Machine.execRrClear src data s
  | .smbusWrite to_ block pec => Sys2Proof.Machine.execSmbusWrite to_ block pec s
  | .smbusSetAddress to_ block pec => Sys2Proof.Machine.execSmbusSetAddress to_ block pec s
  | .smbusRead to_ read => Sys2Proof.Machine.execSmbusRead to_ read s
  | .smbusTimeout => Sys2Proof.Machine.execSmbusTimeout s
  | .jtagIdcode => Sys2Proof.Machine.execJtagIdcode s
  | .jtagBypass => Sys2Proof.Machine.execJtagBypass s
  | .jtagSamplePreload levels preload => Sys2Proof.Machine.execJtagSamplePreload levels preload s
  | .jtagExtest levels => Sys2Proof.Machine.execJtagExtest levels s
  | .jtagClamp => Sys2Proof.Machine.execJtagClamp s
  | .jtagHighz => Sys2Proof.Machine.execJtagHighz s
  | .jtagTrst low => Sys2Proof.Machine.execJtagTrst low s
  | .msixVectorUnmask entry => Sys2Proof.Machine.execMsixVectorUnmask entry s
  | .delayRespMissed => Sys2Proof.Machine.execDelayRespMissed s
  | .ppsInCapRead src k => Sys2Proof.Machine.execPpsInCapRead src k s
  | .rasLogStatRead src => Sys2Proof.Machine.execRasLogStatRead src s
  | .cycleCounterWrap page k cyc => Sys2Proof.Machine.execCycleCounterWrap page k cyc s
  | .imageReadTimeout role => Sys2Proof.Machine.execImageReadTimeout role s

end Sys2Proof.Machine
end

