-- ==== Sys2Proof/Safety.lean ====
section
/-! DEFINITION. What a safe run of the LX204 is, and the terms in which statements about commands speak. -/

namespace Sys2Proof

/-- The commands that are events on the core clock, which does not run in OFF, RESET and THERMAL_SHUTDOWN (R25, R28). -/
def Instr.onCoreClock : Instr → Bool
  | .enterRun | .galleryFence | .fenceDiscardStep | .galleryWatchdog _ | .galleryParityError _ | .fatalFault _ | .genFlip
  | .genReclaim | .genResyncEnd | .snapshot | .snapPeriodic | .snapCopiesComplete | .coreFreqDown | .coreFreqUp
  | .avsReadback _ _ _ | .signalDetect _ _ | .signalLost _ _ | .anPageReceive _ _ _ | .trainingConverged _
  | .trainingTimeout _ | .blockLockAcquired _ _ _ _ | .laneUp _ | .blockLockLost _ _ | .fecUncorrLimit _ _ _ | .snrLow _ _ _
  | .p7DormantEntry _ | .p7WakeTimeout _ | .lpiEnter _ _ | .lpiExit _ _ | .lpiPartnerSignal _ _ _ | .prbsLock _
  | .prbsLockLost _ _ | .errorInjectPeriodic _ _ | .linkTrain _ _ _ | .d2dFlitReplay _ _ _ _ | .d2dSleep _ _ | .d2dWake _ _
  | .portUp _ | .portDown _ _ | .frameReceiveStart _ _ _ _ _ _ | .headerAccept _ _ | .parseResume _ _ _
  | .fragmentHoldReenter _ | .fftEntryExpire _ | .extLookupReturn _ | .ingressPassEnd _ _ | .stairGrant _ _
  | .stairWaitExpire _ | .frameReceiveEnd _ _ _ _ | .icvCheckResult _ _ | .pfcReceive _ _ _ | .pauseReceive _ _
  | .pfcStopExpire _ _ | .pfcXoffRepeat _ _ | .pdelayExchange _ _ _ _ | .pdelayRespReceive _ _ _ _ _ _ _ _
  | .pdelayReqAnswer _ _ _ _ _ _ _ _ _ | .egressSelect _ _ | .egressFirstByte _ _ _ _ | .frameTransmitEnd _ | .ctUnderrun _
  | .cellEccUncorrectable _ | .spillMove _ _ | .spillReturn _ _ | .bankCopy _ | .bankRemap | .bankLost | .billetGrant _
  | .billetFree _ | .billetCacheRefill _ | .billetCacheWriteback _ | .gateListTakeover _ _ | .gateEdge _ _
  | .keyCommitPoint _ | .clockStepDone _ | .ledgerRecord _ | .ledgerCopyDone | .syncSend _ _ | .delayRespSend _ _ _ _ _
  | .delayReqSend _ | .delayRespReceive _ _ _ | .syncReceiveSample _ _ _ _ _ | .followUpReceive _ _ _ | .servoLossTimeout
  | .ppsInEdge _ _ _ | .timeEvtEdge _ _ _ _ | .ppsOutEdge _ _ | .triggerPulse _ _ | .flowMissFetch | .flowSweepVisit
  | .datagramClose _ _ _ | .contribReceive _ | .resultReceive _ | .nackReceive _ | .abortReceive _ | .nackTimerExpire _
  | .upTimerExpire _ | .retainComplete _ | .retainExpire _ | .microwordIssue _ _ | .waitConditionMet _ _ | .waitTimeout _
  | .busAccessComplete _ _ | .lhTransferComplete _ | .seqEventPost _ _ | .imageLoadDone _ _ | .imageSwitchMade _
  | .imageSwitchTimeout _ | .learnAdmit _ | .ageSweepStart | .replaceDone | .lockExpire _ | .tdmaRead _ | .tdmaWrite _ _
  | .tdmaLock _ | .tdmaUnlock _ | .ringPoll _ | .ringEntryRead _ _ _ | .rxPacketWrite _ | .noticeWrite | .hostReadTimeout _ _
  | .hostReadRetry _ | .functionLevelReset _ | .sampleSkidEnd _ _ | .thermalSensorRead _ | .thermalDemandStep
  | .paceLevelStep | .pacingPeriod | .quenchStart _ | .quenchRelease _ | .sramEccCorrected _ _ _
  | .sramEccUncorrectable _ _ _ | .rowTestComplete _ _ _ _ | .rowRepairSwitch | .lhEccCorrected _ _ _ | .recordWrite _
  | .msixVectorUnmask _ | .delayRespMissed | .cycleCounterWrap _ _ _ | .imageReadTimeout _ => true
  | .powerUp _ | .supplyOutOfRange | .resetRelease _ _ | .bootSourceAttempt _ | .bootImageComplete _ _ _ | .bootDlGo _
  | .devGo _ | .thermalShutdown _ | .coldReset _ | .warmReset _ | .perstFall | .resetHoldExpire _ | .galFenceReq _ _
  | .strokeBoundary | .genFlipRequest _ _ | .snapReq _ | .snapPeriodWrite _ _ | .snapMergedRead _ | .profileStage _ _
  | .refClockLost _ | .refClockRestored _ | .laneDisable _ _ _ | .laneTestEnter _ _ _ | .laneTestExit _ _ _
  | .dormantRequest _ _ _ | .dormantRelease _ _ _ | .prbsClear _ _ _ | .errorInjectGo _ _ _ | .bitslip _ _
  | .linkRetrain _ _ _ | .lkSlipGo _ _ _ | .portEnable _ _ _ | .portDisable _ _ _ | .fftFlush _ _ | .parseBankSwitchReq _
  | .actWordWrite _ _ | .actWordRead _ _ | .repListWrite _ | .repListRead _ | .gateCommit _ _ _ | .keyCommit _ _
  | .keyErase _ _ | .saPnWrite _ _ _ | .clockStepSet _ | .clockStepAdd _ | .nowRead _ | .ext10mLost _ | .ext10mRestored _
  | .ledgerCopy _ _ | .evtFifoRead _ _ | .triggerEnable _ _ _ | .flowFlush _ _ | .groupEnable _ _ | .groupDisable _ _
  | .imageLoad _ _ _ | .imageSwitch _ _ _ | .seqRestart _ _ | .seqStop _ _ | .mboxWrite _ _ _ | .ringEnable _ _ _
  | .ringDisable _ _ _ | .ringResume _ _ _ | .registerWrite _ _ _ _ _ | .loReadLatch _ _ _ | .bootLock _ | .errClr _ _ _
  | .irqForce _ _ _ | .stairPeakRead _ _ | .damperPeakRead _ _ | .rasLogRead _ | .sampleFifoRead _ _ | .pcValCommit _ _ _ _ _
  | .pcClearAll _ _ _ | .vrThrottleAssert | .vrThrottleRelease | .rrClear _ _ | .smbusWrite _ _ _ | .smbusSetAddress _ _ _
  | .smbusRead _ _ | .smbusTimeout | .jtagIdcode | .jtagBypass | .jtagSamplePreload _ _ | .jtagExtest _ | .jtagClamp
  | .jtagHighz | .jtagTrst _ | .ppsInCapRead _ _ | .rasLogStatRead _ => false

/-- The commands that can change the device state, the fenced galleries, the stroke number, the active generation or the
active profile: power, resets, thermal shutdown, the end of BOOT, GO, fences, flips and the boundary itself (R26, R30, R35,
R47, R68). -/
def Instr.changesModes : Instr → Bool
  | .powerUp _ | .supplyOutOfRange | .resetRelease _ _ | .bootImageComplete _ _ _ | .enterRun | .thermalShutdown _ | .perstFall | .resetHoldExpire _ | .galleryFence | .strokeBoundary | .genFlip => true
  | .bootSourceAttempt _ | .bootDlGo _ | .devGo _ | .coldReset _ | .warmReset _ | .galFenceReq _ _
  | .fenceDiscardStep | .galleryWatchdog _ | .galleryParityError _ | .fatalFault _ | .genFlipRequest _ _
  | .genReclaim | .genResyncEnd | .snapReq _ | .snapPeriodWrite _ _ | .snapshot | .snapPeriodic | .snapCopiesComplete
  | .snapMergedRead _ | .profileStage _ _ | .coreFreqDown | .coreFreqUp | .avsReadback _ _ _ | .refClockLost _
  | .refClockRestored _ | .signalDetect _ _ | .signalLost _ _ | .anPageReceive _ _ _ | .trainingConverged _
  | .trainingTimeout _ | .blockLockAcquired _ _ _ _ | .laneUp _ | .blockLockLost _ _ | .fecUncorrLimit _ _ _
  | .snrLow _ _ _ | .laneDisable _ _ _ | .laneTestEnter _ _ _ | .laneTestExit _ _ _ | .dormantRequest _ _ _
  | .dormantRelease _ _ _ | .p7DormantEntry _ | .p7WakeTimeout _ | .lpiEnter _ _ | .lpiExit _ _
  | .lpiPartnerSignal _ _ _ | .prbsLock _ | .prbsLockLost _ _ | .prbsClear _ _ _ | .errorInjectGo _ _ _
  | .errorInjectPeriodic _ _ | .bitslip _ _ | .linkTrain _ _ _ | .linkRetrain _ _ _ | .d2dFlitReplay _ _ _ _
  | .d2dSleep _ _ | .d2dWake _ _ | .lkSlipGo _ _ _ | .portEnable _ _ _ | .portDisable _ _ _ | .portUp _
  | .portDown _ _ | .frameReceiveStart _ _ _ _ _ _ | .headerAccept _ _ | .parseResume _ _ _ | .fragmentHoldReenter _
  | .fftEntryExpire _ | .fftFlush _ _ | .extLookupReturn _ | .ingressPassEnd _ _ | .stairGrant _ _
  | .stairWaitExpire _ | .frameReceiveEnd _ _ _ _ | .icvCheckResult _ _ | .pfcReceive _ _ _
  | .pauseReceive _ _ | .pfcStopExpire _ _ | .pfcXoffRepeat _ _ | .pdelayExchange _ _ _ _
  | .pdelayRespReceive _ _ _ _ _ _ _ _ | .pdelayReqAnswer _ _ _ _ _ _ _ _ _ | .parseBankSwitchReq _
  | .actWordWrite _ _ | .actWordRead _ _ | .egressSelect _ _ | .egressFirstByte _ _ _ _ | .frameTransmitEnd _
  | .ctUnderrun _ | .cellEccUncorrectable _ | .spillMove _ _ | .spillReturn _ _ | .bankCopy _ | .bankRemap | .bankLost
  | .repListWrite _ | .repListRead _ | .billetGrant _ | .billetFree _ | .billetCacheRefill _
  | .billetCacheWriteback _ | .gateCommit _ _ _ | .gateListTakeover _ _ | .gateEdge _ _ | .keyCommit _ _
  | .keyErase _ _ | .keyCommitPoint _ | .saPnWrite _ _ _ | .clockStepSet _ | .clockStepAdd _ | .clockStepDone _
  | .nowRead _ | .ext10mLost _ | .ext10mRestored _ | .ledgerRecord _ | .ledgerCopy _ _ | .ledgerCopyDone
  | .syncSend _ _ | .delayRespSend _ _ _ _ _ | .delayReqSend _ | .delayRespReceive _ _ _
  | .syncReceiveSample _ _ _ _ _ | .followUpReceive _ _ _ | .servoLossTimeout | .ppsInEdge _ _ _
  | .timeEvtEdge _ _ _ _ | .evtFifoRead _ _ | .ppsOutEdge _ _ | .triggerEnable _ _ _ | .triggerPulse _ _
  | .flowMissFetch | .flowSweepVisit | .flowFlush _ _ | .datagramClose _ _ _ | .groupEnable _ _ | .groupDisable _ _
  | .contribReceive _ | .resultReceive _ | .nackReceive _ | .abortReceive _ | .nackTimerExpire _ | .upTimerExpire _
  | .retainComplete _ | .retainExpire _ | .microwordIssue _ _ | .waitConditionMet _ _ | .waitTimeout _
  | .busAccessComplete _ _ | .lhTransferComplete _ | .seqEventPost _ _ | .imageLoad _ _ _ | .imageLoadDone _ _
  | .imageSwitch _ _ _ | .imageSwitchMade _ | .imageSwitchTimeout _ | .seqRestart _ _ | .seqStop _ _
  | .mboxWrite _ _ _ | .learnAdmit _ | .ageSweepStart | .replaceDone | .lockExpire _ | .tdmaRead _ | .tdmaWrite _ _
  | .tdmaLock _ | .tdmaUnlock _ | .ringEnable _ _ _ | .ringDisable _ _ _ | .ringPoll _ | .ringEntryRead _ _ _
  | .rxPacketWrite _ | .noticeWrite | .hostReadTimeout _ _ | .hostReadRetry _ | .ringResume _ _ _
  | .functionLevelReset _ | .registerWrite _ _ _ _ _ | .loReadLatch _ _ _ | .bootLock _ | .errClr _ _ _ | .irqForce _ _ _
  | .stairPeakRead _ _ | .damperPeakRead _ _ | .rasLogRead _ | .sampleFifoRead _ _ | .pcValCommit _ _ _ _ _
  | .pcClearAll _ _ _ | .sampleSkidEnd _ _ | .vrThrottleAssert | .vrThrottleRelease | .thermalSensorRead _
  | .thermalDemandStep | .paceLevelStep | .pacingPeriod | .quenchStart _ | .quenchRelease _ | .sramEccCorrected _ _ _
  | .sramEccUncorrectable _ _ _ | .rowTestComplete _ _ _ _ | .rowRepairSwitch | .lhEccCorrected _ _ _
  | .recordWrite _ | .rrClear _ _ | .smbusWrite _ _ _ | .smbusSetAddress _ _ _ | .smbusRead _ _ | .smbusTimeout
  | .jtagIdcode | .jtagBypass | .jtagSamplePreload _ _ | .jtagExtest _ | .jtagClamp | .jtagHighz | .jtagTrst _
  | .msixVectorUnmask _ | .delayRespMissed | .ppsInCapRead _ _ | .rasLogStatRead _ | .cycleCounterWrap _ _ _
  | .imageReadTimeout _ => false

end Sys2Proof

namespace Sys2Proof.Machine

/-- Every command that waits names something that exists: its operands lie in the ranges of the spec. -/
def State.queueOk (s : State) : Bool := s.pending.all Instr.wf

/-- A run is safe while every step of it answers a next state. -/
def Safe (n : Nat) (s : State) : Prop := ∃ t, Host.Core.run core n s = .next t

/-- The command completes: it answers a next state, it takes nothing from the queue and adds nothing to it, and the device it leaves
is as `P` says. -/
def Completes (c : Instr) (s : State) (P : Device → Prop) : Prop :=
  ∃ t, exec c s = .next t ∧ t.pending = s.pending ∧ P t.dev

/-- The command's whole effect on the device is `f`: it answers a next state, and nothing but what `f` changes has changed. -/
def Makes (c : Instr) (s : State) (f : Device → Device) : Prop := exec c s = .next { s with dev := f s.dev }

/-- A register access of `src` meets the whole register space: the device is in CONFIG, RUN or DEGRADED, and for PCIe PERST_N is
high (R26, R28, R414). -/
def Device.reachable (d : Device) (src : Source) : Prop := d.gate src = .open_

/-- The TOP page takes accesses of `src`: as above, or in BOOT (R414). -/
def Device.topReachable (d : Device) (src : Source) : Prop := d.gate src = .open_ ∨ d.gate src = .bootOnly

/-- The event `n` of the page at `base` stands in its IRQ_STAT (R354). -/
def Device.irqSet (d : Device) (base n : Nat) : Bool := bit (d.reg (base + 0x10)).toNat n

/-- The newest entry of the error log names the place `pl`, with this event, this action and this count (R390). -/
def Device.logged (d : Device) (pl : FaultPlace) (event action count : Nat) : Prop :=
  ∃ (l : List Bytes) (t : Bytes), t.length = 18 ∧
    d.ras.log = l ++ [t ++ beBytes 1 pl.unit ++ beBytes 1 event ++ beBytes 2 pl.inst ++ beBytes 4 pl.addr ++ beBytes 1 action ++
      beBytes 1 count ++ zeroBytes 4]

/-- The table of lanes is in canonical form. -/
def lanesWf (d : Device) : Prop := tabWf (fun _ => ({} : LaneSt)) d.lane.lanes = true

/-- The table of ports is in canonical form. -/
def portsWf (d : Device) : Prop := tabWf (fun _ => ({} : PortSt)) d.ports = true

/-- What a move between lane states leaves: all but the state, the locks, low-power idle, and when its adaptation froze. -/
def LaneSt.kept (s : LaneSt) : LaneSt :=
  { s with
    st := .disabled
    blockLock := false
    cdr := false
    txLpi := false
    rxLpi := false
    prbsLock := false
    frozenAt := none
    outQuiet := 0
    inQuiet := 0 }

/-- No configuration word of gallery `n` is out of service, or waits to be rewritten after an error (R392, R393). -/
def Device.wordsWhole (d : Device) (n : Nat) : Prop := ∀ a, d.wordDead n a = false ∧ d.wordPoisoned n a = false

/-- The device with `v` as the data of the last register read of `src`. -/
def Device.readData (d : Device) (src : Source) (v : Nat) : Device :=
  match src with
  | .pcie => { d with file := { d.file with pcieData := BitVec.ofNat 32 v } }
  | .smbus => { d with file := { d.file with smbusData := BitVec.ofNat 32 v } }

/-- The data of the last register read of `src`. -/
def Device.lastRead (d : Device) (src : Source) : Word :=
  match src with
  | .pcie => d.file.pcieData
  | .smbus => d.file.smbusData

/-- A counter page whose counters of CYCLES are brought up to the present cycle (R363): gallery `n`'s, or the device's. -/
def Device.counted (d : Device) (page : Option Nat) : Device :=
  (List.range (if page.isSome then 8 else 16)).foldl (fun d k => d.pcSync page k d.stroke.cyc) d

end Sys2Proof.Machine
end

