-- ==== Sys2Proof/Certificates/Slice0/Obligations.lean ====
section
/-! DEFINITION. The statements for the provers, from the numbered rules of the spec: for every command that it completes, with
what it does and what it leaves; invariants; and what the whole block keeps to. -/

open Sys2Proof Sys2Proof.Machine

/-- A step takes the front command; an empty queue idles (DESIGN CHOICE, log entry 1). -/
def Obligations.StepTakesTheFrontCommand : Prop :=
  (∀ (c : Instr) (s : State), step { s with pending := c :: s.pending } = exec c s) ∧
  (∀ s : State, s.pending = [] → step s = .next s)

/-- Commands that exist complete; others are refused (DESIGN CHOICE, log entry 2). -/
def Obligations.CommandsComplete : Prop :=
  ∀ (c : Instr) (s : State),
    (c.wf = true → ∃ d, exec c s = .next { s with dev := d }) ∧ (c.wf = false → exec c s = .refused .noSuchCommand)

/-- R25, R28: no event on a stopped core clock. -/
def Obligations.CoreEventsNeedTheClock : Prop :=
  ∀ (c : Instr) (s : State), s.dev.clocked = false → c.wf = true → (c.onCoreClock = true ∨ c = .strokeBoundary) →
    exec c s = .next s

/-- The invariant of the queue: progress and preservation together. -/
def Obligations.QueueInvariant : Prop :=
  ∀ s : State, s.queueOk = true → ∃ t, step s = .next t ∧ t.queueOk = true

/-- It holds at reset. -/
def Obligations.QueueInvariantAtReset : Prop := State.reset.queueOk = true

/-- Every queue of commands that exist runs dry, in order. -/
def Obligations.RunsToTheEnd : Prop :=
  ∀ s : State, s.queueOk = true →
    ∃ d, Host.Core.run core s.pending.length s = .next { dev := d, pending := [] } ∧
      (∀ c rest, s.pending = c :: rest → ∃ e, exec c { s with pending := [] } = .next { dev := e, pending := [] } ∧
        Host.Core.run core rest.length { dev := e, pending := rest } = .next { dev := d, pending := [] })

/-- The device after reset (R25, R29, R36, R45, R52, R64, R354). -/
def Obligations.DeviceAfterReset : Prop :=
  State.reset.dev.dev.state = .reset ∧ State.reset.dev.dev.fenced = 0#32 ∧ State.reset.pending = [] ∧
  (∀ a, State.reset.dev.reg a = regReset a) ∧ (∀ a, State.reset.dev.cnt a = 0) ∧ State.reset.dev.stroke.num = 0#64 ∧
  State.reset.dev.gen.active = 0#32 ∧ State.reset.dev.gen.state = .steady ∧ State.reset.dev.profile.active = 0 ∧
  State.reset.dev.reg A.TOP_DEVICE_ID = 0x4C580204#32 ∧ State.reset.dev.reg 0x14 = 0xFFFFFFFF#32

/-- POWER_UP, SUPPLY_OUT_OF_RANGE, RESET_RELEASE, RESET_HOLD_EXPIRE and PERST_FALL (R26, R405 to R410). -/
def Obligations.PowerAndResetEvents : Prop :=
  (∀ (s : State) (a : Nat), a < 4 → s.dev.dev.state = .off →
    Completes (.powerUp a) s fun e => e.dev.state = .reset ∧ e.boot.perstLow = true ∧ e.mgmt.smbStrap = a ∧
      (∀ r, e.reg r = regReset r) ∧ e.sent = s.dev.timeLow.sent) ∧
  (∀ s : State, s.dev.dev.state ≠ .off →
    Completes .supplyOutOfRange s fun e => e.dev.state = .off ∧ (∀ r, e.reg r = regReset r) ∧ (∀ r, e.cnt r = 0) ∧
      e.sent = s.dev.timeLow.sent) ∧
  (∀ (s : State) (g ns : Nat), g < 4 → s.dev.dev.state = .reset → s.dev.boot.hold = false →
    Completes (.resetRelease g ns) s fun e => e.dev.state = .boot ∧ e.boot.perstLow = false ∧ e.boot.strap = min g 2 ∧
      e.damper.slow = true ∧ e.gen = s.dev.gen ∧ e.ras = s.dev.ras ∧ e.mgmt = s.dev.mgmt ∧
      (s.dev.boot.wasWarm = false → e.sent = s.dev.sent ∧ e.clock = s.dev.clock)) ∧
  (∀ (s : State) (g : Nat), g < 4 → s.dev.dev.state = .reset → s.dev.boot.hold = true →
    Completes (.resetHoldExpire g) s fun e => e.dev.state = .boot ∧ e.boot.hold = false ∧ e.boot.strap = min g 2 ∧
      e.damper.slow = true ∧ e.gen = s.dev.gen ∧ e.ras = s.dev.ras ∧ e.mgmt = s.dev.mgmt ∧
      (s.dev.boot.wasWarm = false → e.sent = s.dev.sent ∧ e.clock = s.dev.clock)) ∧
  (∀ s : State, s.dev.dev.state = .off → Makes .perstFall s fun d => { d with boot := { d.boot with perstLow := true } }) ∧
  (∀ (s : State) (m : Nat), s.dev.dev.state = .reset → F.TOP_RESET_CFG_PERST_MODE.get (s.dev.reg A.TOP_RESET_CFG) = m →
    (m = 0 → Makes .perstFall s fun d => { d with boot := { d.boot with perstLow := true } }) ∧
    (m = 1 → Makes .perstFall s fun d => { d with boot := { d.boot with perstLow := true, hold := false } }) ∧
    (m ≠ 0 → m ≠ 1 → Completes .perstFall s fun e => e.dev.state = .reset ∧ e.stroke.num = 0#64 ∧ e.gen.active = 0#32)) ∧
  (∀ s : State, s.dev.dev.state ≠ .off → s.dev.dev.state ≠ .reset →
    Completes .perstFall s fun e => e.boot.perstLow = true ∧
      (if F.TOP_RESET_CFG_PERST_MODE.get (s.dev.reg A.TOP_RESET_CFG) = 0 then
        e.dev = s.dev.dev ∧ e.host.rings = [] ∧ e.gen = s.dev.gen ∧ e.lane = s.dev.lane
      else e.dev.state = .reset))

/-- BOOT_SOURCE_ATTEMPT, BOOT_IMAGE_COMPLETE, BOOT_DL_GO and IMAGE_READ_TIMEOUT of a download (R411 to R416). The ring class of
a download is a free value. -/
def Obligations.BootEvents : Prop :=
  (∀ s : State, s.dev.dev.state = .boot → s.dev.boot.ready = none → s.dev.boot.tried < s.dev.bootSlots →
    Makes (.bootSourceAttempt none) s fun d => { d with
      boot := { d.boot with result := 0xB, tried := d.boot.tried + 1, dl := none }
      seq := { d.seq with roles := d.seq.roles.map fun e => (e.1, e.2.setIdle {}) } }) ∧
  (∀ (s : State) (img : Bytes), s.dev.dev.state = .boot → s.dev.boot.ready = none → s.dev.boot.tried < s.dev.bootSlots →
    s.dev.boot.sampling = false → beAt img 0 4 ≠ 0x4C584249 →
    Completes (.bootSourceAttempt (some img)) s fun e => e.dev = s.dev.dev ∧ e.boot.result = 0xB ∧
      e.boot.tried = s.dev.boot.tried + 1 ∧ e.boot.ready = none) ∧
  (∀ (s : State) (img : Bytes), s.dev.dev.state = .boot → s.dev.boot.ready = none → s.dev.boot.tried < s.dev.bootSlots →
    img.length ≤ 2 ^ 24 → s.dev.boot.sampling = true ∨ beAt img 0 4 = 0x4C584249 →
    Completes (.bootSourceAttempt (some img)) s fun e => e.dev = s.dev.dev ∧
      (bootHeader img none ≠ 0 → e.boot.result = bootHeader img none ∧ e.boot.tried = s.dev.boot.tried + 1 ∧ e.boot.ready = none) ∧
      (∀ banks, bootHeader img none = 0 → s.dev.bootRoles (sectionsOf (img.take (beAt img 16 4)) 1) = some banks →
        ecdsaVerify (sliceBytes (img.take (beAt img 16 4)) 64 96)
          (sha384 ((img.take (beAt img 16 4)).take 160 ++ (img.take (beAt img 16 4)).drop 256))
          (sliceBytes (img.take (beAt img 16 4)) 160 96) = true →
        e.boot.from_ = s.dev.boot.tried + 1 ∧ e.boot.svn = beAt (img.take (beAt img 16 4)) 8 4 ∧ e.boot.ready.isSome = true)) ∧
  (∀ (s : State) (ack : Bool) (spent : List Nat) (failed : List (Nat × Nat × Nat)) (list : List (Nat × Nat)) (lock : Bool),
    stacksOk spent = true → failedOk failed = true → s.dev.dev.state = .boot → s.dev.boot.ready = some (list, lock) →
    Completes (.bootImageComplete ack spent failed) s fun e => e.dev.state = .config ∧ e.boot.ready = none ∧
      e.boot.imageLocked = lock ∧ (lock = true → e.file.locked = true)) ∧
  (∀ (s : State) (src : Source), s.dev.topReachable src → s.dev.dev.state = .boot → s.dev.boot.dl = none →
    s.dev.boot.ready = none → s.dev.bootSlots ≤ s.dev.boot.tried → s.dev.bootHost = true →
    Makes (.bootDlGo src) s fun d => { d with
      boot := { d.boot with dl := some { cls := (Config.freeValue 3 d.freeCtr).toNat } }, freeCtr := d.freeCtr + 1 }) ∧
  ∀ (s : State) (l : BootDl), s.dev.clocked = true → s.dev.boot.dl = some l →
    Completes (.imageReadTimeout 0) s fun e => e.dev = s.dev.dev ∧
      (l.late = false → e.boot.dl = some { l with late := true, retryAt := some (s.dev.now + msT 1) }) ∧
      (l.late = true → e.boot.dl = none ∧ e.boot.result = 8)

/-- DEV_GO, ENTER_RUN, THERMAL_SHUTDOWN, COLD_RESET and WARM_RESET (R26, R28, R76, R384, R408). -/
def Obligations.GoAndShutdownEvents : Prop :=
  (∀ (s : State) (src : Source), s.dev.reachable src → s.dev.dev.state = .config →
    Makes (.devGo src) s fun d => { d with dev := { d.dev with
      goPending := true, hwFence := d.dev.hwFence ||| BitVec.ofNat 32 d.ras.fenceAtGo } }) ∧
  (∀ (s : State) (src : Source), s.dev.topReachable src → s.dev.dev.state ≠ .config →
    Makes (.devGo src) s fun d => d.err 0 0x108 .refused src) ∧
  (∀ s : State, s.dev.dev.state = .config → s.dev.dev.goDue = true → s.dev.dev.fenceDue = 0#32 →
    Completes .enterRun s fun e => e.dev.state = (if s.dev.dev.fenced = 0#32 then .run else .degraded)) ∧
  (∀ (s : State) (c : Int), 120 ≤ c → s.dev.dev.state ≠ .off →
    Completes (.thermalShutdown c) s fun e => (∀ l, e.txIdle l = true) ∧ e.clocked = false ∧
      ∃ f p l, e = { s.dev with dev := { s.dev.dev with state := .thermal }, file := f, pulse := p, sent := l }) ∧
  (∀ (s : State) (src : Source), s.dev.topReachable src →
    Makes (.coldReset src) s fun d => { d with boot := { d.boot with cold := true } }) ∧
  (∀ (s : State) (src : Source), s.dev.topReachable src →
    Makes (.warmReset src) s fun d => { d with boot := { d.boot with warm := true } })

/-- R26, R30, R35, R47, R68: the commands of Safety.lean's `changesModes` alone change the modes. -/
def Obligations.ModesChangeOnlyByEleven : Prop :=
  ∀ (c : Instr) (s t : State), c.changesModes = false → exec c s = .next t →
    t.dev.dev.state = s.dev.dev.state ∧ t.dev.dev.fenced = s.dev.dev.fenced ∧ t.dev.stroke.num = s.dev.stroke.num ∧
    t.dev.gen.active = s.dev.gen.active ∧ t.dev.profile.active = s.dev.profile.active ∧
    (s.dev.boot.cold = true → t.dev.boot.cold = true) ∧ (s.dev.boot.warm = true → t.dev.boot.warm = true)

/-- R26, R27, R408. -/
def Obligations.DeviceStateMoves : Prop :=
  ∀ (c : Instr) (s t : State), exec c s = .next t → t.dev.dev.state ≠ s.dev.dev.state →
    match c with
    | .powerUp _ => s.dev.dev.state = .off ∧ t.dev.dev.state = .reset
    | .resetRelease _ _ | .resetHoldExpire _ => s.dev.dev.state = .reset ∧ t.dev.dev.state = .boot
    | .bootImageComplete _ _ _ => s.dev.dev.state = .boot ∧ t.dev.dev.state = .config
    | .enterRun => s.dev.dev.state = .config ∧ s.dev.dev.goDue = true ∧
        t.dev.dev.state = if s.dev.dev.fenced = 0#32 then .run else .degraded
    | .galleryFence => s.dev.dev.state = .run ∧ s.dev.dev.fenceDue &&& ~~~ s.dev.dev.fenced ≠ 0#32 ∧ t.dev.dev.state = .degraded
    | .thermalShutdown celsius => 120 ≤ celsius ∧ s.dev.dev.state ≠ .off ∧ t.dev.dev.state = .thermal
    | .perstFall => s.dev.dev.state ≠ .off ∧ t.dev.dev.state = .reset
    | .strokeBoundary => s.dev.clocked = true ∧ t.dev.dev.state = .reset
    | .supplyOutOfRange => t.dev.dev.state = .off
    | _ => False

/-- R27, R30, R408, R409. -/
def Obligations.FencedUntilReset : Prop :=
  ∀ (c : Instr) (s t : State), exec c s = .next t →
    t.dev.dev.fenced = s.dev.dev.fenced ∨
    (c = .galleryFence ∧ t.dev.dev.fenced = s.dev.dev.fenced ||| (s.dev.dev.fenceDue &&& ~~~ s.dev.dev.fenced)) ∨
    (t.dev.dev.fenced = 0#32 ∧ (t.dev.dev.state = .reset ∨ t.dev.dev.state = .off) ∧
      (c = .strokeBoundary ∨ c = .perstFall ∨ c = .supplyOutOfRange ∨ ∃ a, c = .powerUp a))

/-- R35, R47, R68, R409. -/
def Obligations.GenerationsAndProfilesFlipOnly : Prop :=
  ∀ (c : Instr) (s t : State), exec c s = .next t →
    (t.dev.gen.active = s.dev.gen.active ∧ t.dev.profile.active = s.dev.profile.active ∧ t.dev.stroke.num = s.dev.stroke.num) ∨
    (c = .genFlip ∧ s.dev.gen.flipDue = true ∧ t.dev.gen.active = s.dev.gen.active + 1#32 ∧
      t.dev.profile.active = s.dev.profile.staged ∧ t.dev.stroke.num = s.dev.stroke.num) ∨
    (c = .strokeBoundary ∧ t.dev.gen.active = s.dev.gen.active ∧ t.dev.profile.active = s.dev.profile.active ∧
      t.dev.stroke.num = s.dev.stroke.num + 1) ∨
    (t.dev.gen.active = 0#32 ∧ t.dev.profile.active = 0 ∧ t.dev.stroke.num = 0#64 ∧
      (t.dev.dev.state = .reset ∨ t.dev.dev.state = .off))

/-- STROKE_BOUNDARY: the next stroke begins, in the same modes; or, where a write of RESET_CTRL asked for a reset, RESET does (R35,
R408, R409). -/
def Obligations.BoundaryCountsAndResets : Prop :=
  (∀ s : State, s.dev.clocked = true → s.dev.boot.cold = false → s.dev.boot.warm = false →
    Completes .strokeBoundary s fun e => e.stroke.num = s.dev.stroke.num + 1 ∧ e.dev.state = s.dev.dev.state ∧
      e.dev.fenced = s.dev.dev.fenced ∧ e.gen.active = s.dev.gen.active ∧ e.profile.active = s.dev.profile.active ∧
      e.boot.cold = false ∧ e.boot.warm = false) ∧
  (∀ s : State, s.dev.clocked = true → s.dev.boot.cold = true ∨ s.dev.boot.warm = true →
    Completes .strokeBoundary s fun e => e.dev.state = .reset ∧ e.dev.fenced = 0#32 ∧ e.stroke.num = 0#64 ∧
      e.gen.active = 0#32 ∧ e.profile.active = 0 ∧ e.boot.hold = true)

/-- GAL_FENCE_REQ, GALLERY_FENCE, FENCE_DISCARD_STEP, GALLERY_WATCHDOG, GALLERY_PARITY_ERROR and FATAL_FAULT (R29 to R31, R391,
R396, R397, R403). -/
def Obligations.FencesAndGalleryFaults : Prop :=
  (∀ (s : State) (src : Source) (mask : Word), s.dev.topReachable src →
    Makes (.galFenceReq src mask) s fun d =>
      { d with dev := { d.dev with fenceReq := d.dev.fenceReq ||| (mask &&& ~~~ d.dev.fenced) } }) ∧
  (∀ s : State, s.dev.clocked = true →
    Completes .galleryFence s fun e => e.dev.fenced = s.dev.dev.fenced ||| (s.dev.dev.fenceDue &&& ~~~ s.dev.dev.fenced) ∧
      e.dev.state = (if s.dev.dev.fenceDue &&& ~~~ s.dev.dev.fenced ≠ 0#32 ∧ s.dev.dev.state = .run then .degraded
        else s.dev.dev.state) ∧ e.stroke.num = s.dev.stroke.num ∧ e.gen.active = s.dev.gen.active) ∧
  (∀ (s : State) (x : Flight), s.dev.clocked = true → s.dev.seqOn 15 = true →
    (s.dev.pkt.flights.find? fun x => s.dev.isFenced x.gal) = some x →
    (s.dev.inPieces 0x11 0 (x.stairMin + x.stairShared) (stairTag x.id)).2 = true →
    Completes .fenceDiscardStep s fun e => (∀ y ∈ e.pkt.flights, y.id ≠ x.id) ∧
      (∀ y ∈ s.dev.pkt.flights, y.id ≠ x.id → y ∈ e.pkt.flights) ∧ e.dev = s.dev.dev) ∧
  (∀ (s : State) (n t : Nat), s.dev.clocked = true → n < 32 → s.dev.watchdogOf n = some t → s.dev.isFenced n = false →
    bit s.dev.dev.hwFence.toNat n = false →
    Completes (.galleryWatchdog n) s fun e => e.dev.hwFence = s.dev.dev.hwFence ||| BitVec.ofNat 32 (2 ^ n) ∧
      e.ras.intFrom = some (s.dev.ras.intFrom.getD (max t s.dev.ras.intTo)) ∧ e.ras.stuck = s.dev.ras.stuck ++ [n] ∧ e.dev.fenced = s.dev.dev.fenced ∧ e.dev.fenceReq = s.dev.dev.fenceReq) ∧
  (∀ (s : State) (n : Nat), s.dev.clocked = true → n < 32 → (s.dev.occurrence ⟨9, n, 0⟩).1 < 3 →
    Completes (.galleryParityError n) s fun e => e = (s.dev.occurrence ⟨9, n, 0⟩).2.logFault ⟨9, n, 0⟩ 7 0 (s.dev.occurrence ⟨9, n, 0⟩).1 ∧
      e.dev = s.dev.dev) ∧
  (∀ (s : State) (n : Nat), s.dev.clocked = true → n < 32 → 3 ≤ (s.dev.occurrence ⟨9, n, 0⟩).1 → s.dev.isFenced n = false →
    bit s.dev.dev.hwFence.toNat n = false →
    Completes (.galleryParityError n) s fun e => e.dev.hwFence = s.dev.dev.hwFence ||| BitVec.ofNat 32 (2 ^ n) ∧
      e.dev.fenced = s.dev.dev.fenced) ∧
  (∀ (s : State) (kind : Nat), s.dev.clocked = true → kind < 3 → s.dev.ras.fatal = false → s.dev.ras.fatalPending = false →
    (kind = 2 → 3 ≤ (s.dev.occurrence ⟨0xA, 2, 0⟩).1) →
    Completes (.fatalFault kind) s fun e => e.dev.hwFence = BitVec.ofNat 32 (2 ^ 32 - 1) ∧ e.ras.fatalPending = true ∧
      e.dev.fenced = s.dev.dev.fenced) ∧
  (∀ s : State, s.dev.clocked = true → s.dev.ras.fatal = false → s.dev.ras.fatalPending = false →
    (s.dev.occurrence ⟨0xA, 2, 0⟩).1 < 3 →
    Completes (.fatalFault 2) s fun e => e.dev = s.dev.dev ∧ e.ras.fatalPending = false)

/-- GEN_FLIP_REQUEST, GEN_FLIP, GEN_RECLAIM and GEN_RESYNC_END (R46, R47, R49, R50, R65, R67). -/
def Obligations.GenerationEvents : Prop :=
  (∀ (s : State) (src : Source) (w : Word), s.dev.reachable src → s.dev.gen.state = .steady →
    s.dev.profile.staged = s.dev.profile.active →
    Completes (.genFlipRequest src w) s fun e => e.gen = { s.dev.gen with state := .pending } ∧ e.dev = s.dev.dev ∧
      e.profile = s.dev.profile) ∧
  (∀ (s : State) (src : Source) (w : Word), s.dev.reachable src → (s.dev.gen.state = .draining ∨ s.dev.gen.state = .resync) →
    Completes (.genFlipRequest src w) s fun e => e.gen = { s.dev.gen with result := 1 } ∧ e.profile = s.dev.profile) ∧
  (∀ (s : State) (src : Source) (w : Word), s.dev.reachable src → s.dev.gen.state = .pending →
    s.dev.profile.staged = s.dev.profile.active →
    Completes (.genFlipRequest src w) s fun e => e.gen = { s.dev.gen with result := 3 } ∧ e.profile = s.dev.profile) ∧
  (∀ (s : State) (src : Source) (w : Word) (v : Word) (b : Nat × Nat), s.dev.reachable src → s.dev.gen.state = .steady →
    v = BitVec.ofNat 32 (F.TOP_GEN_CTRL_AT_EN.get w * 2 + F.TOP_GEN_CTRL_NOTIFY_EN.get w * 4 + F.TOP_GEN_CTRL_NOTIFY_VEC.get w * 8) →
    (s.dev.setReg A.TOP_GEN_CTRL v).busyRegion = some b →
    Completes (.genFlipRequest src w) s fun e => e.gen = { s.dev.gen with result := 2 } ∧
      e.profile = { s.dev.profile with busyRegion := b.1, busyRemain := b.2 % 2 ^ 24 }) ∧
  (∀ s : State, s.dev.clocked = true → s.dev.gen.flipDue = true → s.dev.dev.fenceDue = 0#32 → s.dev.busyRegion = none →
    Completes .genFlip s fun e => e.gen = { s.dev.gen with
        flipDue := false, state := .draining, active := s.dev.gen.active + 1#32, drain := s.dev.gen.active, result := 0
        phaseStk := 0 } ∧ e.profile.active = s.dev.profile.staged ∧ e.stroke.num = s.dev.stroke.num ∧
      e.dev.state = s.dev.dev.state) ∧
  (∀ (s : State) (b : Nat × Nat), s.dev.clocked = true → s.dev.gen.flipDue = true → s.dev.dev.fenceDue = 0#32 →
    s.dev.busyRegion = some b →
    Makes .genFlip s fun d => { d with
      gen := { d.gen with flipDue := false, state := .steady, result := 2 }
      profile := { d.profile with busyRegion := b.1, busyRemain := b.2 % 2 ^ 24 } }) ∧
  (∀ s : State, s.dev.clocked = true → s.dev.gen.state = .draining → s.dev.gen.phaseStk ≠ 0 → s.dev.stroke.cyc = 0 →
    s.dev.stampInUse s.dev.gen.drain = false →
    Completes .genReclaim s fun e => e.gen.state = .resync ∧ e.gen.drainStk = BitVec.ofNat 32 s.dev.gen.phaseStk ∧
      e.gen.active = s.dev.gen.active ∧ e.gen.phaseStk = 0) ∧
  (∀ s : State, s.dev.clocked = true → s.dev.gen.state = .resync → s.dev.gen.phaseStk ≠ 0 → s.dev.stroke.cyc = 0 →
    Completes .genResyncEnd s fun e => e.gen.state = .steady ∧ e.gen.resyncStk = BitVec.ofNat 32 s.dev.gen.phaseStk ∧
      e.gen.active = s.dev.gen.active ∧ e.gen.phaseStk = 0)

/-- SNAP_REQ, SNAP_PERIOD_WRITE, SNAPSHOT, SNAP_PERIODIC and SNAP_COPIES_COMPLETE (R54, R55). -/
def Obligations.SnapshotEvents : Prop :=
  (∀ (s : State) (src : Source), s.dev.topReachable src →
    Makes (.snapReq src) s fun d =>
      if d.snap.copying then { d with snap := { d.snap with mergedReq := true, merged := min 0xFF (d.snap.merged + 1) } }
      else { d with snap := { d.snap with req := true } }) ∧
  (∀ (s : State) (src : Source) (w : Word), s.dev.topReachable src → tabWf regReset s.dev.file.regs = true →
    Completes (.snapPeriodWrite src w) s fun e => e.reg A.TOP_SNAP_PERIOD = w ∧ e.cfg A.TOP_SNAP_PERIOD = s.dev.cfg A.TOP_SNAP_PERIOD ∧
      ∃ f, e = { s.dev with snap := { s.dev.snap with restart := true }, file := f }) ∧
  (∀ (s : State), s.dev.clocked = true → s.dev.snap.due = true → s.dev.snap.copying = false →
    Completes .snapshot s fun e => e.file = { s.dev.file with snap := s.dev.file.edge } ∧ e.perf.snap = s.dev.perf.edge ∧
      e.perf.snapOvf = s.dev.perf.edgeOvf ∧ e.snap.copying = true ∧ e.snap.due = false ∧ e.snap.stroke = s.dev.stroke.num ∧
      e.snap.gen = s.dev.gen.last ∧ ∃ p n, e = { s.dev with snap := n, perf := p, file := { s.dev.file with snap := s.dev.file.edge } }) ∧
  (∀ (s : State), s.dev.clocked = true → s.dev.snap.periodDue = true → s.dev.snap.copying = false →
    Completes .snapPeriodic s fun e => e.file = { s.dev.file with snap := s.dev.file.edge } ∧ e.perf.snap = s.dev.perf.edge ∧
      e.snap.copying = true ∧ e.snap.periodDue = false ∧ e.snap.stroke = s.dev.stroke.num ∧ e.snap.gen = s.dev.gen.last) ∧
  (∀ (s : State), s.dev.clocked = true → s.dev.snap.periodDue = true → s.dev.snap.copying = true →
    Makes .snapPeriodic s fun d =>
      { d with snap := { d.snap with periodDue := false, mergedPer := true, merged := min 0xFF (d.snap.merged + 1) } }) ∧
  (∀ (s : State), s.dev.clocked = true →
    Makes .snapCopiesComplete s fun d => { d with snap := { d.snap with copying := false, reqCopy := false } })

/-- PROFILE_STAGE, CORE_FREQ_DOWN, CORE_FREQ_UP and AVS_READBACK (R64, R375, R376). -/
def Obligations.ProfileAndFrequencyEvents : Prop :=
  (∀ (s : State) (src : Source) (p : Nat), s.dev.topReachable src → p < 8 → s.dev.gen.state = .steady →
    Makes (.profileStage src p) s fun d => { d with profile := { d.profile with staged := p } }) ∧
  (∀ (s : State) (src : Source) (p : Nat), s.dev.topReachable src → p < 8 → s.dev.gen.state ≠ .steady →
    Makes (.profileStage src p) s fun d => d.err 0 (A.TOP_PROFILE) .refused src) ∧
  (∀ (s : State), s.dev.clocked = true → s.dev.stroke.cyc = 0 → s.dev.wantSlow = true → s.dev.damper.slow = false → s.dev.freqMay = true →
    Completes .coreFreqDown s fun e => e.damper.slow = true ∧
      (s.dev.avsOn = true → s.dev.damper.avsErr = false → e.damper.vTarget = s.dev.avsTarget true ∧
        e.sent = s.dev.sent ++ [.mgmt "AVS" (s.dev.avsTarget true)]) ∧
      (s.dev.avsOn = false ∨ s.dev.damper.avsErr = true → e.damper.vTarget = s.dev.damper.vTarget ∧ e.sent = s.dev.sent) ∧
      e.gen = s.dev.gen ∧ e.profile = s.dev.profile ∧ e.file = s.dev.file) ∧
  (∀ (s : State), s.dev.clocked = true → s.dev.dev.state ≠ .boot → s.dev.stroke.cyc = 0 → s.dev.wantSlow = false →
    s.dev.damper.slow = true → s.dev.freqMay = true →
    (s.dev.avsOn = false ∨ (s.dev.damper.upFrom.isSome = true ∧ s.dev.damper.vTarget ≤ s.dev.damper.vRead)) →
    Makes .coreFreqUp s fun d => { d with damper := { d.damper with slow := false, upFrom := none } }) ∧
  (∀ (s : State) (mv amps : Nat), s.dev.clocked = true → s.dev.avsOn = true → mv < 65536 → amps < 65536 →
    Completes (.avsReadback true mv amps) s fun e => e.damper.vRead = mv % 1024 ∧ e.damper.iRead = amps % 1024 ∧
      e.damper.slow = s.dev.damper.slow ∧ e.damper.vTarget = s.dev.damper.vTarget) ∧
  (∀ (s : State) (mv amps : Nat), s.dev.clocked = true → s.dev.avsOn = true → mv < 65536 → amps < 65536 →
    tabWf regReset s.dev.file.regs = true →
    Completes (.avsReadback false mv amps) s fun e => e.damper.avsErr = true ∧ e.damper.vRead = s.dev.damper.vRead ∧
      e.irqSet 0x40000 6 = true)

/-- KEY_COMMIT, KEY_ERASE, KEY_COMMIT_POINT and SA_PN_WRITE (R246, R250, R251). -/
def Obligations.KeyAndPacketNumberEvents : Prop :=
  (∀ (s : State) (src : Source) (big : Bool), s.dev.reachable src → s.dev.integ.job = none → tabWf regReset s.dev.file.regs = true →
    (∀ k ∈ s.dev.selectedSlots (s.dev.reg A.KEYS_KEY_SEL), k < 262144 → s.dev.isFenced (k / 8192) = false) →
    Completes (.keyCommit src big) s fun e =>
      e.integ = { s.dev.integ with job := some ⟨s.dev.selectedSlots (s.dev.reg A.KEYS_KEY_SEL), some (s.dev.keyData big)⟩ } ∧
      (∀ i < 8, e.reg (A.KEYS_KEY_DATA i) = 0#32) ∧ ∀ i < 3, e.reg (A.KEYS_KEY_SALT i) = 0#32) ∧
  (∀ (s : State) (src : Source) (big : Bool), s.dev.reachable src → s.dev.integ.job = none → tabWf regReset s.dev.file.regs = true →
    (∀ k ∈ s.dev.selectedSlots (s.dev.reg A.KEYS_KEY_SEL), k < 262144 → s.dev.isFenced (k / 8192) = false) →
    Completes (.keyErase src big) s fun e =>
      e.integ = { s.dev.integ with job := some ⟨s.dev.selectedSlots (s.dev.reg A.KEYS_KEY_SEL), none⟩ } ∧
      (∀ i < 8, e.reg (A.KEYS_KEY_DATA i) = 0#32) ∧ ∀ i < 3, e.reg (A.KEYS_KEY_SALT i) = 0#32) ∧
  (∀ (s : State) (src : Source) (big : Bool), s.dev.reachable src → s.dev.integ.job.isSome = true →
    Makes (.keyCommit src big) s (fun d => d.refuse src A.KEYS_KEY_CMD) ∧ Makes (.keyErase src big) s fun d => d.refuse src A.KEYS_KEY_CMD) ∧
  (∀ (s : State) (src : Source) (big : Bool) (k : Nat), s.dev.reachable src → tabWf regReset s.dev.file.regs = true →
    k ∈ s.dev.selectedSlots (s.dev.reg A.KEYS_KEY_SEL) → k < 262144 → s.dev.isFenced (k / 8192) = true →
    Completes (.keyCommit src big) s (fun e => e.integ = s.dev.integ) ∧ Completes (.keyErase src big) s fun e => e.integ = s.dev.integ) ∧
  (∀ (s : State) (t : Nat) (j : KeyJob), s.dev.clocked = true → s.dev.integ.job = some j → j.slots.Nodup →
    tabWf (fun _ => {}) s.dev.integ.slots = true →
    Completes (.keyCommitPoint t) s fun e => e.integ.job = none ∧ e.integ.sas = s.dev.integ.sas ∧
      (∀ k ∈ j.slots, (k < 262144 → s.dev.isFenced (k / 8192) = false) →
        (∀ u, t < u → e.keyAt k u = j.mat) ∧ ∀ u ≤ t, e.keyAt k u = s.dev.keyAt k u) ∧
      ∀ k, (k ∈ j.slots → k < 262144 ∧ s.dev.isFenced (k / 8192) = true) → e.keySlot k = s.dev.keySlot k) ∧
  (∀ (s : State) (src : Source) (n sa : Nat) (hi lo : Word), s.dev.reachable src → n < 32 → s.dev.isFenced n = false → s.dev.wordsWhole n →
    assoc s.dev.file.loHeld (latchKey src (A.INTEG_SA_PN_HI n - 4)) = some lo → tabWf (fun _ => {}) s.dev.integ.sas = true →
    sa = F.INTEG_SA_SEL_SA.get (s.dev.reg (A.INTEG_SA_SEL n)) →
    (F.INTEG_SA_CFG_DIR.get (s.dev.reg (saReg A.INTEG_SA_CFG n sa)) = 0 ∨ F.INTEG_SA_CFG_VALID.get (s.dev.reg (saReg A.INTEG_SA_CFG n sa)) = 0 ∨
      (s.dev.saSt n sa).exhausted = true ∨
      (s.dev.saSt n sa).wrote < (s.dev.keySlot (slotKey n (F.INTEG_SA_CFG_KEY_SLOT.get (s.dev.reg (saReg A.INTEG_SA_CFG n sa))))).seq) →
    Completes (.saPnWrite src n hi) s fun e =>
      (e.saSt n sa).pn = max (if F.INTEG_SA_CFG_XPN.get (s.dev.reg (saReg A.INTEG_SA_CFG n sa)) = 1 then hi.toNat * 2 ^ 32 + lo.toNat
        else lo.toNat) 1 ∧
      (e.saSt n sa).exhausted = false ∧ (e.saSt n sa).thresh = false ∧ e.integ.slots = s.dev.integ.slots) ∧
  (∀ (s : State) (src : Source) (n sa : Nat) (hi : Word), s.dev.reachable src → n < 32 → s.dev.isFenced n = false → s.dev.wordsWhole n →
    sa = F.INTEG_SA_SEL_SA.get (s.dev.reg (A.INTEG_SA_SEL n)) →
    F.INTEG_SA_CFG_DIR.get (s.dev.reg (saReg A.INTEG_SA_CFG n sa)) = 1 → F.INTEG_SA_CFG_VALID.get (s.dev.reg (saReg A.INTEG_SA_CFG n sa)) = 1 →
    (s.dev.saSt n sa).exhausted = false →
    (s.dev.keySlot (slotKey n (F.INTEG_SA_CFG_KEY_SLOT.get (s.dev.reg (saReg A.INTEG_SA_CFG n sa))))).seq ≤ (s.dev.saSt n sa).wrote →
    Completes (.saPnWrite src n hi) s fun e => e.integ = s.dev.integ)

/-- SMBUS_WRITE, SMBUS_SET_ADDRESS, SMBUS_READ, SMBUS_TIMEOUT and the JTAG commands (R435, R437). -/
def Obligations.ManagementEvents : Prop :=
  (∀ (s : State) (x : SmbBlock) (pec : Option Byte), s.dev.dev.state ≠ .off → s.dev.smbAddress < 128 → x.cmd = 1#8 → x.data.length = 8 →
    (pec = none ∨ pec = some (BitVec.ofNat 8 (pecOf ([BitVec.ofNat 8 (2 * s.dev.smbAddress), 1#8, 8#8] ++ x.data)))) →
    Makes (.smbusWrite s.dev.smbAddress x pec) s fun d =>
      busWrite d .smbus (beAt x.data 0 4) 0xF (BitVec.ofNat 32 (beAt x.data 4 4))) ∧
  (∀ (s : State) (x : SmbBlock) (pec : Option Byte), s.dev.dev.state ≠ .off → s.dev.smbAddress < 128 → x.cmd = 2#8 → x.data.length = 4 →
    (pec = none ∨ pec = some (BitVec.ofNat 8 (pecOf ([BitVec.ofNat 8 (2 * s.dev.smbAddress), 2#8, 4#8] ++ x.data)))) →
    Makes (.smbusSetAddress s.dev.smbAddress x pec) s fun d =>
      { d with mgmt := { d.mgmt with smbAddr := BitVec.ofNat 32 (beAt x.data 0 4) } }) ∧
  (∀ (s : State) (x : SmbBlock) (p : Byte), s.dev.dev.state ≠ .off → s.dev.smbAddress < 128 →
    p ≠ BitVec.ofNat 8 (pecOf ([BitVec.ofNat 8 (2 * s.dev.smbAddress), x.cmd, BitVec.ofNat 8 x.data.length] ++ x.data)) →
    Makes (.smbusWrite s.dev.smbAddress x (some p)) s (fun d => d.send .smbusNak) ∧
    Makes (.smbusSetAddress s.dev.smbAddress x (some p)) s fun d => d.send .smbusNak) ∧
  (∀ (s : State) (x : SmbBlock) (pec : Option Byte), s.dev.dev.state ≠ .off → s.dev.smbAddress < 128 →
    ¬(x.cmd = 1#8 ∧ x.data.length = 8) → ¬(x.cmd = 2#8 ∧ x.data.length = 4) →
    Makes (.smbusWrite s.dev.smbAddress x pec) s (fun d => d.send .smbusNak) ∧
    Makes (.smbusSetAddress s.dev.smbAddress x pec) s fun d => d.send .smbusNak) ∧
  (∀ (s : State) (x : SmbRead), s.dev.dev.state ≠ .off → s.dev.smbAddress < 128 → x.cmd = 3#8 →
    Completes (.smbusRead s.dev.smbAddress x) s fun e => e.mgmt = { s.dev.mgmt with smbAddr := s.dev.mgmt.smbAddr + 4 } ∧
      ∃ l t, e.sent = l ++ [.smbus (4#8 :: beBytes 4 e.file.smbusData.toNat ++ t)] ∧ t.length = if x.pec then 1 else 0) ∧
  (∀ (s : State) (x : SmbRead), s.dev.dev.state ≠ .off → s.dev.smbAddress < 128 → x.cmd ≠ 3#8 →
    Makes (.smbusRead s.dev.smbAddress x) s fun d => d.send .smbusNak) ∧
  (∀ s : State, Makes .smbusTimeout s fun d => { d with mgmt := { d.mgmt with smbAddr := 0 } }) ∧
  (∀ s : State, s.dev.dev.state ≠ .off → s.dev.mgmt.trstLow = false →
    Completes .jtagIdcode s (fun e => e.mgmt = { s.dev.mgmt with jtag := .idcode, shift := 0x10204D2B } ∧ e.ballDrive = .normal) ∧
    Completes .jtagBypass s fun e => e.mgmt = { s.dev.mgmt with jtag := .bypass, shift := 0 } ∧ e.ballDrive = .normal) ∧
  (∀ (s : State) (levels pre : BallLevels), s.dev.dev.state ≠ .off → s.dev.mgmt.trstLow = false →
    Completes (.jtagSamplePreload levels pre) s fun e =>
      e.mgmt = { s.dev.mgmt with jtag := .sample, shift := levels.toNat, preload := pre } ∧ e.ballDrive = .normal) ∧
  (∀ (s : State) (levels : BallLevels), s.dev.dev.state = .reset ∨ s.dev.dev.state = .config → s.dev.mgmt.trstLow = false →
    Completes (.jtagExtest levels) s (fun e => e.mgmt = { s.dev.mgmt with jtag := .extest, shift := levels.toNat } ∧
      e.ballDrive = .levels s.dev.mgmt.preload) ∧
    Completes .jtagClamp s (fun e => e.mgmt = { s.dev.mgmt with jtag := .clamp, shift := 0 } ∧ e.ballDrive = .levels s.dev.mgmt.preload) ∧
    Completes .jtagHighz s fun e => e.mgmt = { s.dev.mgmt with jtag := .highz, shift := 0 } ∧ e.ballDrive = .highz) ∧
  (∀ (s : State) (levels : BallLevels), s.dev.dev.state ≠ .off → s.dev.dev.state ≠ .reset → s.dev.dev.state ≠ .config → s.dev.mgmt.trstLow = false →
    Completes (.jtagExtest levels) s (fun e => e.jtagActs = .bypass ∧ e.mgmt.shift = 0 ∧ e.ballDrive = .normal ∧ e.dev = s.dev.dev) ∧
    Completes .jtagClamp s (fun e => e.jtagActs = .bypass ∧ e.mgmt.shift = 0 ∧ e.ballDrive = .normal ∧ e.dev = s.dev.dev) ∧
    Completes .jtagHighz s fun e => e.jtagActs = .bypass ∧ e.mgmt.shift = 0 ∧ e.ballDrive = .normal ∧ e.dev = s.dev.dev) ∧
  (∀ s : State, Completes (.jtagTrst true) s (fun e => e.mgmt = { s.dev.mgmt with jtag := .idcode, shift := 0x10204D2B, trstLow := true } ∧
      e.ballDrive = .normal) ∧
    Makes (.jtagTrst false) s fun d => { d with mgmt := { d.mgmt with trstLow := false } }) ∧
  ∀ (s : State) (levels pre : BallLevels), s.dev.mgmt.trstLow = true → s.dev.mgmt.jtag = .idcode →
    Makes .jtagIdcode s (fun d => d) ∧ Makes .jtagBypass s (fun d => d) ∧ Makes (.jtagSamplePreload levels pre) s (fun d => d) ∧
    Makes (.jtagExtest levels) s (fun d => d) ∧ Makes .jtagClamp s (fun d => d) ∧ Makes .jtagHighz s fun d => d

/-- SAMPLE_SKID_END and CYCLE_COUNTER_WRAP (R363, R364, R368). -/
def Obligations.CounterEvents : Prop :=
  (∀ (s : State) (n c k st c0 : Nat), s.dev.clocked = true → n < 32 → c < 256 → k < 8 → s.dev.isFenced n = false →
    s.dev.perf.skids = [⟨n, k, st, c0⟩] → st * 256 + c0 + 16 < s.dev.strokeNo * 256 + max s.dev.stroke.cyc c →
    (tabGet (fun _ => ([] : List Sample)) s.dev.perf.fifo n).length < 16 →
    Completes (.sampleSkidEnd n c) s fun e => e.perf.skids = [] ∧ e.perf.val = s.dev.perf.val ∧ e.dev = s.dev.dev ∧
      tabGet (fun _ => ([] : List Sample)) e.perf.fifo n =
        tabGet (fun _ => ([] : List Sample)) s.dev.perf.fifo n ++ [{ words := [k + 8, st % 2 ^ 32, st / 2 ^ 32, c0, 0, 0] }]) ∧
  (∀ (s : State) (n c k st c0 : Nat), s.dev.clocked = true → n < 32 → c < 256 → s.dev.isFenced n = true →
    s.dev.perf.skids = [⟨n, k, st, c0⟩] → st * 256 + c0 + 16 < s.dev.strokeNo * 256 + max s.dev.stroke.cyc c →
    Completes (.sampleSkidEnd n c) s fun e => e.perf = { s.dev.perf with skids := [] }) ∧
  (∀ (s : State) (g : Option Nat) (k c : Nat), s.dev.clocked = true → g.all galOk = true → k < (if g.isSome then 8 else 16) → c < 256 →
    s.dev.pcCycles g k = true → tnat s.dev.perf.cycDone (pcWin (pcPage g) k) ≤ max s.dev.stroke.cyc c →
    tabWf zeroNat s.dev.perf.val = true →
    s.dev.pcValue (pcWin (pcPage g) k) + (max s.dev.stroke.cyc c + 1 - tnat s.dev.perf.cycDone (pcWin (pcPage g) k)) < 2 ^ 48 →
    Completes (.cycleCounterWrap g k c) s fun e =>
      e.pcValue (pcWin (pcPage g) k) =
        s.dev.pcValue (pcWin (pcPage g) k) + (max s.dev.stroke.cyc c + 1 - tnat s.dev.perf.cycDone (pcWin (pcPage g) k)) ∧
      (∀ w, w ≠ pcWin (pcPage g) k → e.pcValue w = s.dev.pcValue w) ∧ e.file = s.dev.file ∧ e.dev = s.dev.dev) ∧
  ∀ (s : State) (g : Option Nat) (k c : Nat), s.dev.clocked = true → g.all galOk = true → k < (if g.isSome then 8 else 16) → c < 256 →
    s.dev.pcCycles g k = true → tnat s.dev.perf.cycDone (pcWin (pcPage g) k) ≤ max s.dev.stroke.cyc c →
    tabWf zeroNat s.dev.perf.val = true → tabWf regReset s.dev.file.regs = true →
    (g = none ∨ bit (s.dev.cfg (pcWin (pcPage g) k)).toNat 17 = false) →
    2 ^ 48 ≤ s.dev.pcValue (pcWin (pcPage g) k) + (max s.dev.stroke.cyc c + 1 - tnat s.dev.perf.cycDone (pcWin (pcPage g) k)) →
    Completes (.cycleCounterWrap g k c) s fun e =>
      e.pcValue (pcWin (pcPage g) k) =
        (s.dev.pcValue (pcWin (pcPage g) k) + (max s.dev.stroke.cyc c + 1 - tnat s.dev.perf.cycDone (pcWin (pcPage g) k))) % 2 ^ 48 ∧
      (∀ w, w ≠ pcWin (pcPage g) k → e.pcValue w = s.dev.pcValue w) ∧ e.pcOvf (pcWin (pcPage g) k) = true ∧ e.dev = s.dev.dev

/-- SIGNAL_DETECT, SIGNAL_LOST, REF_CLOCK_LOST and REF_CLOCK_RESTORED (R73, R79, R81, R86, R444). -/
def Obligations.LaneSignals : Prop :=
  (∀ (s : State) (l c : Nat), s.dev.clocked = true → l < 1024 → c < 256 → lanesWf s.dev →
    Completes (.signalDetect l c) s fun e => (e.laneSt l).sigDet = true ∧ ∀ m, m ≠ l → (e.laneSt m).kept = (s.dev.laneSt m).kept) ∧
  (∀ (s : State) (l p c : Nat), s.dev.clocked = true → l < 1024 → c < 256 → lanesWf s.dev → tabWf regReset s.dev.file.regs = true →
    s.dev.portOf l = some p → s.dev.linkSeq p = true → (s.dev.laneSt p).st = .dormant →
    (s.dev.profile.active = 7 ∨ F.LANE_LN_BRINGUP_WAKE_SD.get (s.dev.bringReg p) = 1) →
    Completes (.signalDetect l c) s fun e => (e.laneSt p).st ≠ .dormant ∧ (e.laneSt p).st ≠ .up) ∧
  (∀ (s : State) (l p c : Nat), s.dev.clocked = true → l < 1024 → c < 256 → lanesWf s.dev → s.dev.portOf l = some p →
    s.dev.linkSeq l = true → (s.dev.laneSt l).st = .up → tabWf regReset s.dev.file.regs = true →
    Completes (.signalLost l c) s fun e => (e.laneSt l).sigDet = false ∧ (e.laneSt l).downCause = 4 ∧ (e.laneSt l).st ≠ .up) ∧
  (∀ (s : State) (l c : Nat), s.dev.clocked = true → l < 1024 → c < 256 → lanesWf s.dev → (s.dev.laneSt l).st ≠ .up →
    Completes (.signalLost l c) s fun e => (e.laneSt l).kept = { (s.dev.laneSt l).kept with sigDet := false } ∧
      (e.laneSt l).st = (s.dev.laneSt l).st ∧ ∀ m, m ≠ l → e.laneSt m = s.dev.laneSt m) ∧
  (∀ (s : State) (c : Nat), c < 8 → lanesWf s.dev →
    Completes (.refClockLost c) s fun e => bit e.lane.refBad c = true ∧
      (∀ l, l / 128 = c → (s.dev.laneSt l).free = true → s.dev.isFenced (l / 32) = false → (e.laneSt l).st = .waitSignal) ∧
      ∀ l, l / 128 ≠ c → e.laneSt l = s.dev.laneSt l) ∧
  (∀ (s : State) (c : Nat), c < 8 → bit s.dev.lane.refBad c = true →
    Makes (.refClockRestored c) s fun d => { d with lane := { d.lane with refBack := setBit d.lane.refBack c } }) ∧
  ∀ (s : State) (c : Nat), c < 8 → bit s.dev.lane.refBad c = false → Makes (.refClockRestored c) s fun d => d

/-- AN_PAGE_RECEIVE, TRAINING_CONVERGED, TRAINING_TIMEOUT, BLOCK_LOCK_ACQUIRED and LANE_UP (R79, R80). -/
def Obligations.LaneBringUp : Prop :=
  (∀ (s : State) (p rates fec r w : Nat), s.dev.clocked = true → p < 1024 → rates < 256 → fec < 256 → lanesWf s.dev →
    tabWf regReset s.dev.file.regs = true → (s.dev.laneSt p).st = .an → s.dev.portEn p = true → s.dev.linkSeq p = true →
    w = s.dev.fld (ofPort A.PORT_PT_CFG p) F.PORT_PT_CFG_WIDTH → r < 4 → laneRate (r + w) w = some r → rates.testBit r = true →
    (F.LANE_LN_AN_ADV_RATES.get (s.dev.reg (ofLane A.LANE_LN_AN_ADV p))).testBit r = true →
    (∀ q, r < q → q < 4 → ¬(rates.testBit q = true ∧ laneRate (q + w) w = some q ∧
      (F.LANE_LN_AN_ADV_RATES.get (s.dev.reg (ofLane A.LANE_LN_AN_ADV p))).testBit q = true)) →
    Completes (.anPageReceive p rates fec) s fun e => (∀ l ∈ s.dev.portLanes p, (s.dev.laneSt l).free = true → (e.laneSt l).st = .train) ∧
      F.PORT_PT_CFG_SPEED.get (e.reg (ofPort A.PORT_PT_CFG p)) = r + w) ∧
  (∀ (s : State) (p rates fec : Nat), s.dev.clocked = true → p < 1024 → rates < 256 → fec < 256 → tabWf regReset s.dev.file.regs = true →
    (s.dev.laneSt p).st = .an → s.dev.portEn p = true → s.dev.linkSeq p = true →
    (∀ q < 4, ¬(rates.testBit q = true ∧ (F.LANE_LN_AN_ADV_RATES.get (s.dev.reg (ofLane A.LANE_LN_AN_ADV p))).testBit q = true)) →
    Completes (.anPageReceive p rates fec) s fun e => F.LANE_LN_AN_LP_NO_COMMON.get (e.reg (ofLane A.LANE_LN_AN_LP p)) = 1 ∧
      e.lane = s.dev.lane ∧ ∃ f, e = { s.dev with file := f }) ∧
  (∀ (s : State) (p : Nat), s.dev.clocked = true → p < 1024 → lanesWf s.dev → tabWf regReset s.dev.file.regs = true →
    s.dev.portEn p = true → s.dev.training p = true → s.dev.linkSeq p = true → s.dev.trainDue p = false →
    Completes (.trainingConverged p) s fun e =>
      (∀ l ∈ s.dev.portLanes p, (e.laneSt l).st = .align ∧ (e.laneSt l).cdr = true ∧ (e.laneSt l).kept = (s.dev.laneSt l).kept) ∧
      ∀ m, m ∉ s.dev.portLanes p → e.laneSt m = s.dev.laneSt m) ∧
  (∀ (s : State) (p t : Nat), s.dev.clocked = true → p < 1024 → lanesWf s.dev → s.dev.portEn p = true → s.dev.training p = true →
    s.dev.linkSeq p = true → (s.dev.bring p).trainBy = some t → s.dev.matured t = true →
    Completes (.trainingTimeout p) s fun e =>
      (∀ l ∈ s.dev.portLanes p, (e.laneSt l).st = (if s.dev.negotiates p then .an else .train) ∧
        (e.laneSt l).kept = { (s.dev.laneSt l).kept with trainFails := min ((s.dev.laneSt l).trainFails + 1) 0xFFFF }) ∧
      ∀ m, m ∉ s.dev.portLanes p → e.laneSt m = s.dev.laneSt m) ∧
  (∀ (s : State) (l : Nat) (inv rv : Bool) (ph : Int), s.dev.clocked = true → l < 1024 → lanesWf s.dev → (s.dev.laneSt l).st = .align →
    Completes (.blockLockAcquired l inv rv ph) s fun e => (e.laneSt l).blockLock = true ∧ (e.laneSt l).cdr = true ∧ (e.laneSt l).st = .align ∧
      (e.laneSt l).polDet = (if F.LANE_LN_CTRL_RX_POL_AUTO.get (s.dev.reg (ofLane A.LANE_LN_CTRL l)) = 1 then inv
        else F.LANE_LN_CTRL_RX_POL_INV.get (s.dev.reg (ofLane A.LANE_LN_CTRL l)) == 1)) ∧
  (∀ (s : State) (p : Nat), s.dev.clocked = true → p < 1024 → lanesWf s.dev →
    tabWf (fun _ => ({} : BringUp)) s.dev.lane.bring = true → s.dev.portEn p = true → s.dev.linkSeq p = true → s.dev.stroke.cyc = 0 →
    (∀ l ∈ s.dev.portLanes p, (s.dev.laneSt l).st = .align ∧ (s.dev.laneSt l).blockLock = true) →
    Completes (.laneUp p) s fun e => (∀ l ∈ s.dev.portLanes p, (e.laneSt l).st = .up ∧ (e.laneSt l).kept = (s.dev.laneSt l).kept) ∧
      ∀ m, m ∉ s.dev.portLanes p → e.laneSt m = s.dev.laneSt m) ∧
  ∀ (s : State) (p : Nat), s.dev.clocked = true → p < 1024 → s.dev.stroke.cyc ≠ 0 →
    Makes (.laneUp p) s fun d => d.modBring p fun b => { b with upDue := true }

/-- BLOCK_LOCK_LOST, FEC_UNCORR_LIMIT and SNR_LOW (R80 to R83, R99). -/
def Obligations.LaneRetrains : Prop :=
  (∀ (s : State) (l cyc : Nat), s.dev.clocked = true → l < 1024 → cyc < 256 → lanesWf s.dev → (s.dev.laneSt l).st = .align →
    Completes (.blockLockLost l cyc) s fun e => (e.laneSt l).blockLock = false ∧ (e.laneSt l).st = .align ∧
      ∀ m, m ≠ l → e.laneSt m = s.dev.laneSt m) ∧
  (∀ (s : State) (c : Instr) (l p cyc cause : Nat), s.dev.clocked = true → l < 1024 → cyc < 256 → lanesWf s.dev →
    tabWf regReset s.dev.file.regs = true → s.dev.portOf l = some p → s.dev.linkSeq l = true → (s.dev.laneSt l).st = .up →
    (c = .blockLockLost l cyc ∧ cause = 1 ∨
      (∃ n, tabWf (fun _ => ({} : BringUp)) s.dev.lane.bring = true ∧ (s.dev.port p).fecInUse ≠ 0 ∧
        F.LANE_LN_BRINGUP_RETRAIN_UNC.get (s.dev.bringReg p) < n ∧ c = .fecUncorrLimit l n cyc ∧ cause = 2) ∨
      ∃ n, n < F.LANE_LN_BRINGUP_SNR_MIN.get (s.dev.bringReg p) ∧ c = .snrLow l n cyc ∧ cause = 3) →
    (((s.dev.atCyc cyc).recent l).length < 2 →
      Completes c s fun e => (∀ k ∈ s.dev.portLanes p, (s.dev.laneSt k).free = true → (e.laneSt k).st = .retrain) ∧ (e.laneSt l).downCause = cause ∧
        (e.laneSt l).charges = (s.dev.atCyc cyc).recent l ++ [(s.dev.atCyc cyc).clockNow]) ∧
    (2 ≤ ((s.dev.atCyc cyc).recent l).length → Completes c s fun e => (e.laneSt l).st = .retired ∧ (e.laneSt l).downCause = cause)) ∧
  ∀ (s : State) (l p n cyc : Nat), s.dev.clocked = true → l < 1024 → cyc < 256 → lanesWf s.dev → s.dev.portOf l = some p →
    ¬n < F.LANE_LN_BRINGUP_SNR_MIN.get (s.dev.bringReg p) →
    Completes (.snrLow l n cyc) s fun e => (e.laneSt l).snr = n % 256 ∧ (e.laneSt l).st = (s.dev.laneSt l).st ∧
      ∀ m, m ≠ l → e.laneSt m = s.dev.laneSt m

/-- LANE_DISABLE, LANE_TEST_ENTER, LANE_TEST_EXIT, DORMANT_REQUEST, DORMANT_RELEASE, P7_DORMANT_ENTRY and P7_WAKE_TIMEOUT (R57, R73,
R74, R81, R84, R86, R87). -/
def Obligations.LaneControl : Prop :=
  (∀ (s : State) (src : Source) (l : Nat) (w : Word), s.dev.reachable src → l < 1024 → lanesWf s.dev → tabWf regReset s.dev.file.regs = true →
    (s.dev.laneSt l).free = true → s.dev.isFenced (l / 32) = false → bit s.dev.lane.refBad (l / 128) = false →
    F.LANE_LN_CTRL_TEST.get w = 0 →
    Completes (.laneDisable src l w) s fun e => (e.laneSt l).st = .disabled ∧
      ((s.dev.laneSt l).st = .up → (e.laneSt l).downCause = 5)) ∧
  (∀ (s : State) (src : Source) (l : Nat) (w : Word), s.dev.reachable src → l < 1024 → lanesWf s.dev → tabWf regReset s.dev.file.regs = true →
    (s.dev.laneSt l).free = true → s.dev.isFenced (l / 32) = false → bit s.dev.lane.refBad (l / 128) = false →
    Completes (.laneTestEnter src l w) s fun e => (e.laneSt l).st = .test ∧ ((s.dev.laneSt l).st = .up → (e.laneSt l).downCause = 5)) ∧
  (∀ (s : State) (src : Source) (l : Nat) (w : Word), s.dev.reachable src → l < 1024 → lanesWf s.dev → tabWf regReset s.dev.file.regs = true →
    (s.dev.laneSt l).st = .test → s.dev.isFenced (l / 32) = false →
    Completes (.laneTestExit src l w) s fun e => (e.laneSt l).st ≠ .test ∧
      (F.LANE_LN_CTRL_EN.get w = 0 → bit s.dev.lane.refBad (l / 128) = false → (e.laneSt l).st = .disabled) ∧
      (e.laneSt l).kept = (s.dev.laneSt l).kept) ∧
  (∀ (s : State) (src : Source) (p : Nat) (w : Word), s.dev.reachable src → p < 1024 → lanesWf s.dev → s.dev.innerLane p = false →
    (s.dev.laneSt p).st ≠ .retired → 4 ≤ s.dev.portWidth p → s.dev.portEn p = true → tabWf regReset s.dev.file.regs = true →
    F.LANE_LN_BRINGUP_DORMANT_REQ.get (s.dev.reg (ofLane A.LANE_LN_BRINGUP p)) = 0 →
    (∀ l ∈ s.dev.portLanes p, (s.dev.laneSt l).sigIn ≠ s.dev.strokeNo + 1) → bit s.dev.lane.refBad (p / 128) = false →
    s.dev.isFenced (p / 32) = false →
    Completes (.dormantRequest src p w) s fun e =>
      (∀ l ∈ s.dev.portLanes p, (s.dev.laneSt l).inPort = true → (e.laneSt l).st = .dormant) ∧
      ∀ m, m ∉ s.dev.portLanes p → e.laneSt m = s.dev.laneSt m) ∧
  (∀ (s : State) (src : Source) (p : Nat) (w : Word), s.dev.reachable src → p < 1024 → s.dev.innerLane p = false →
    s.dev.portWidth p < 4 → Completes (.dormantRequest src p w) s fun e => e.lane = s.dev.lane) ∧
  (∀ (s : State) (src : Source) (p : Nat) (w : Word), s.dev.reachable src → p < 1024 → lanesWf s.dev → s.dev.innerLane p = false →
    4 ≤ s.dev.portWidth p → s.dev.portEn p = true → tabWf regReset s.dev.file.regs = true → (s.dev.laneSt p).st = .dormant →
    F.LANE_LN_BRINGUP_DORMANT_REQ.get (s.dev.reg (ofLane A.LANE_LN_BRINGUP p)) = 1 →
    Completes (.dormantRelease src p w) s fun e => (e.laneSt p).st ≠ .dormant ∧ (e.laneSt p).kept = (s.dev.laneSt p).kept) ∧
  (∀ (s : State) (p : Nat), s.dev.clocked = true → p < 1024 → lanesWf s.dev → s.dev.profile.active = 7 → s.dev.linkSeq p = true →
    s.dev.portEn p = true → 4 ≤ s.dev.portWidth p → (s.dev.port p).up = false → s.dev.isDormant p = false →
    (s.dev.bring p).wokeAt = none → s.dev.matured ((s.dev.bring p).downSince + secT 1) = true →
    (∀ l ∈ s.dev.portLanes p, (s.dev.laneSt l).sigIn ≠ s.dev.strokeNo + 1) → bit s.dev.lane.refBad (p / 128) = false →
    s.dev.isFenced (p / 32) = false →
    Completes (.p7DormantEntry p) s fun e =>
      (∀ l ∈ s.dev.portLanes p, (s.dev.laneSt l).inPort = true → (e.laneSt l).st = .dormant) ∧
      ∀ m, m ∉ s.dev.portLanes p → e.laneSt m = s.dev.laneSt m) ∧
  (∀ (s : State) (p t : Nat), s.dev.clocked = true → p < 1024 → lanesWf s.dev → s.dev.profile.active = 7 → s.dev.linkSeq p = true →
    s.dev.portEn p = true → (s.dev.port p).up = false → (s.dev.bring p).wokeAt = some t → s.dev.matured (t + secT 1) = true →
    (∀ l ∈ s.dev.portLanes p, (s.dev.laneSt l).sigIn ≠ s.dev.strokeNo + 1) → bit s.dev.lane.refBad (p / 128) = false →
    s.dev.isFenced (p / 32) = false →
    Completes (.p7WakeTimeout p) s fun e =>
      (∀ l ∈ s.dev.portLanes p, (s.dev.laneSt l).inPort = true → (e.laneSt l).st = .dormant) ∧
      ∀ m, m ∉ s.dev.portLanes p → e.laneSt m = s.dev.laneSt m)

/-- PRBS_LOCK, PRBS_LOCK_LOST, PRBS_CLEAR, ERROR_INJECT_GO, ERROR_INJECT_PERIODIC and BITSLIP (R84, R85). -/
def Obligations.LaneTestTools : Prop :=
  (∀ (s : State) (l : Nat), s.dev.clocked = true → l < 1024 → lanesWf s.dev → s.dev.checking l = true →
    Completes (.prbsLock l) s fun e => (e.laneSt l).prbsLock = true ∧ ∀ m, m ≠ l → e.laneSt m = s.dev.laneSt m) ∧
  (∀ (s : State) (l n : Nat), s.dev.clocked = true → l < 1024 → lanesWf s.dev → tabWf regReset s.dev.file.regs = true →
    tabWf zeroNat s.dev.file.cnt = true → (s.dev.laneSt l).prbsLock = true → 64 < n →
    Completes (.prbsLockLost l n) s fun e => (e.laneSt l).prbsLock = false ∧ e.irqSet (laneBase l) 3 = true ∧
      e.cnt (ofLane A.LANE_LN_PRBS_ERR_LO l) = (s.dev.cnt (ofLane A.LANE_LN_PRBS_ERR_LO l) + n) % 2 ^ 64) ∧
  (∀ (s : State) (l n : Nat), s.dev.clocked = true → l < 1024 → (s.dev.laneSt l).prbsLock = true → n ≤ 64 →
    Makes (.prbsLockLost l n) s fun d => d.countN (ofLane A.LANE_LN_PRBS_ERR_LO l) n) ∧
  (∀ (s : State) (src : Source) (l : Nat) (w : Word), s.dev.reachable src → l < 1024 → tabWf zeroNat s.dev.file.cnt = true →
    Completes (.prbsClear src l w) s fun e => e.cnt (ofLane A.LANE_LN_PRBS_ERR_LO l) = 0) ∧
  (∀ (s : State) (src : Source) (l : Nat) (w : Word), s.dev.reachable src → l < 1024 → lanesWf s.dev → F.LANE_LN_INJ_KIND.get w ≠ 0 →
    (s.dev.laneSt l).injPending = false →
    (F.LANE_LN_INJ_PERIODIC.get w = 0 → Completes (.errorInjectGo src l w) s fun e => (e.laneSt l).injPending = true ∧
      (e.laneSt l).injNext = none ∧ e.sent = s.dev.sent) ∧
    (F.LANE_LN_INJ_PERIODIC.get w = 1 → tabWf regReset s.dev.file.regs = true → Completes (.errorInjectGo src l w) s fun e =>
      e.sent = s.dev.sent ++ [.inject l (F.LANE_LN_INJ_KIND.get w) (injLen w)] ∧
      (e.laneSt l).injNext = some (s.dev.now + usT (max 1 (F.LANE_LN_INJ_PERIOD.get w))))) ∧
  (∀ (s : State) (l c t : Nat), s.dev.clocked = true → l < 1024 → c < 256 → lanesWf s.dev → (s.dev.laneSt l).injNext = some t →
    s.dev.matured t = true →
    Completes (.errorInjectPeriodic l c) s fun e =>
      e.sent = s.dev.sent ++ [.inject l (F.LANE_LN_INJ_KIND.get (s.dev.reg (ofLane A.LANE_LN_INJ l))) (injLen (s.dev.reg (ofLane A.LANE_LN_INJ l)))] ∧
      (e.laneSt l).injNext = some (t + s.dev.injPeriod l)) ∧
  (∀ (s : State) (src : Source) (l : Nat), s.dev.reachable src → l < 1024 → lanesWf s.dev → (s.dev.laneSt l).st = .test →
    Completes (.bitslip src l) s fun e => (e.laneSt l).slips = (s.dev.laneSt l).slips + 1 ∧ (e.laneSt l).prbsLock = false ∧
      e.file = s.dev.file) ∧
  ∀ (s : State) (src : Source) (l : Nat), s.dev.reachable src → l < 1024 → (s.dev.laneSt l).st ≠ .test →
    Makes (.bitslip src l) s fun d => d.refuse src (ofLane A.LANE_LN_BITSLIP l)

/-- PORT_ENABLE, PORT_DISABLE, PORT_UP, PORT_DOWN, PFC_RECEIVE, PAUSE_RECEIVE, PFC_STOP_EXPIRE and PFC_XOFF_REPEAT (R81, R96, R104, R105,
R106, R108). -/
def Obligations.PortEvents : Prop :=
  (∀ (s : State) (src : Source) (p : Nat) (w : Word), s.dev.reachable src → p < 1024 → s.dev.isFenced (p / 32) = false →
    s.dev.innerLane p = false → s.dev.wordsWhole (p / 32) → tabWf regReset s.dev.file.regs = true →
    F.PORT_PT_CFG_EN.get (s.dev.reg (ofPort A.PORT_PT_CFG p)) = 0 →
    (s.dev.portCfgOk p (F.PORT_PT_CFG_EN.put w 1 &&& 0x1FFF#32) = true →
      Completes (.portEnable src p w) s fun e => e.reg (ofPort A.PORT_PT_CFG p) = F.PORT_PT_CFG_EN.put w 1 &&& 0x1FFF#32) ∧
    (s.dev.portCfgOk p (F.PORT_PT_CFG_EN.put w 1 &&& 0x1FFF#32) = false →
      Makes (.portEnable src p w) s fun d => d.refuse src (ofPort A.PORT_PT_CFG p))) ∧
  (∀ (s : State) (src : Source) (p : Nat) (w : Word), s.dev.reachable src → p < 1024 → s.dev.isFenced (p / 32) = false →
    s.dev.innerLane p = false → s.dev.wordsWhole (p / 32) → tabWf regReset s.dev.file.regs = true → portsWf s.dev → lanesWf s.dev →
    assoc s.dev.file.held (ofPort A.PORT_PT_CFG p) = none → F.PORT_PT_CFG_EN.get (s.dev.reg (ofPort A.PORT_PT_CFG p)) = 1 →
    Completes (.portDisable src p w) s fun e => e.portEn p = false ∧ (e.port p).up = (s.dev.port p).up ∧
      ((s.dev.port p).up = true → (e.port p).downDue = true) ∧
      ∀ l ∈ s.dev.portLanes p, (e.laneSt l).downCause = 5 ∧ ((s.dev.laneSt l).inPort = true → (e.laneSt l).st = .waitSignal)) ∧
  (∀ (s : State) (p : Nat), s.dev.clocked = true → p < 1024 → portsWf s.dev → (s.dev.port p).up = false → s.dev.portEn p = true →
    s.dev.isFenced (p / 32) = false → s.dev.lanesUp p = true →
    Completes (.portUp p) s fun e => (e.port p).up = true ∧ (e.port p).rxFault = .none ∧ (e.port p).hdrmDirty = true ∧
      (e.port p).pdelayNext = none ∧
      (e.port p).delay = (if F.PORT_PT_DELAY_CFG_EXCH_EN.get (s.dev.cfg (ofPort A.PORT_PT_DELAY_CFG p)) = 1 then (s.dev.port p).delay
        else 4 * F.PORT_PT_DELAY_CFG_DELAY_DEFAULT.get (s.dev.cfg (ofPort A.PORT_PT_DELAY_CFG p))) ∧
      ∀ q, q ≠ p → e.port q = s.dev.port q) ∧
  (∀ (s : State) (p f : Nat), s.dev.clocked = true → p < 1024 → portsWf s.dev → f = 1 ∨ f = 2 → s.dev.stroke.cyc = 0 →
    Completes (.portDown p f) s fun e => (e.port p).up = false ∧
      (e.port p).rxFault = (if f = 1 then .localFault else .remoteFault) ∧ ((s.dev.port p).up = true → (e.port p).stops = []) ∧
      ∀ q, q ≠ p → (e.port q).up = (s.dev.port q).up ∧ (e.port q).rxFault = (s.dev.port q).rxFault ∧
        (e.port q).stops = (s.dev.port q).stops) ∧
  (∀ (s : State) (p f : Nat), s.dev.clocked = true → p < 1024 → portsWf s.dev → f = 1 ∨ f = 2 → s.dev.stroke.cyc ≠ 0 →
    Completes (.portDown p f) s fun e => (e.port p).up = (s.dev.port p).up ∧
      (e.port p).rxFault = (if f = 1 then .localFault else .remoteFault) ∧ ((s.dev.port p).up = true → (e.port p).downDue = true) ∧
      ∀ q, q ≠ p → e.port q = s.dev.port q) ∧
  (∀ (s : State) (p en : Nat) (quanta : List Nat), s.dev.clocked = true → p < 1024 → en < 256 → quantaOk quanta = true → portsWf s.dev →
    (s.dev.port p).up = true → s.dev.fcMode p = 2 →
    Completes (.pfcReceive p en quanta) s fun e => ∀ k, (e.port p).stops.filter (fun x => x.1 = k) =
      if k < 8 ∧ bit en k = true ∧ bit (s.dev.fld (ofPort A.PORT_PT_PFC p) F.PORT_PT_PFC_RX_EN) k = true then
        if quanta.getD k 0 % 65536 = 0 then [] else [(k, s.dev.now + s.dev.quantaTime p (quanta.getD k 0 % 65536))]
      else (s.dev.port p).stops.filter fun x => x.1 = k) ∧
  (∀ (s : State) (p n : Nat), s.dev.clocked = true → p < 1024 → n < 65536 → portsWf s.dev → (s.dev.port p).up = true → s.dev.fcMode p = 1 →
    Completes (.pauseReceive p n) s fun e => ∀ k, (e.port p).stops.filter (fun x => x.1 = k) =
      if k = 8 then if n = 0 then [] else [(8, s.dev.now + s.dev.quantaTime p n)] else (s.dev.port p).stops.filter fun x => x.1 = k) ∧
  (∀ (s : State) (p en n : Nat) (quanta : List Nat), s.dev.clocked = true → p < 1024 → en < 256 → n < 65536 → quantaOk quanta = true →
    (s.dev.fcMode p ≠ 2 → Completes (.pfcReceive p en quanta) s fun e => e.ports = s.dev.ports) ∧
    (s.dev.fcMode p ≠ 1 → Completes (.pauseReceive p n) s fun e => e.ports = s.dev.ports)) ∧
  (∀ (s : State) (p c : Nat), s.dev.clocked = true → p < 1024 → c < 256 → portsWf s.dev →
    Completes (.pfcStopExpire p c) s fun e => e.port p = { s.dev.port p with stops := (s.dev.port p).stops.filter fun x => !s.dev.matured x.2 } ∧
      ∀ q, q ≠ p → e.port q = s.dev.port q) ∧
  (∀ (s : State) (p c k : Nat), s.dev.clocked = true → p < 1024 → c < 256 → k < 8 → portsWf s.dev → (s.dev.port p).up = true →
    s.dev.fcMode p = 2 → bit (s.dev.port p).xoff k = true → s.dev.xoffDue p k = true →
    (s.dev.pkt.sending.any fun e => e.1 = p) = false →
    Completes (.pfcXoffRepeat p c) s fun e => (∃ bs, e.sent = s.dev.sent ++ [.frame p bs]) ∧ (k, (s.dev.atCyc c).now) ∈ (e.port p).xoffAt ∧
      (e.port p).xoff = (s.dev.port p).xoff ∧ ∀ q, q ≠ p → e.port q = s.dev.port q) ∧
  ∀ (s : State) (p c : Nat), s.dev.clocked = true → p < 1024 → c < 256 → portsWf s.dev → (s.dev.port p).up = true →
    s.dev.fcMode p = 1 → (s.dev.port p).xoff ≠ 0 → s.dev.xoffDue p 8 = true → (s.dev.pkt.sending.any fun e => e.1 = p) = false →
    Completes (.pfcXoffRepeat p c) s fun e => (∃ bs, e.sent = s.dev.sent ++ [.frame p bs]) ∧ (8, (s.dev.atCyc c).now) ∈ (e.port p).xoffAt ∧
      (e.port p).xoff = (s.dev.port p).xoff ∧ ∀ q, q ≠ p → e.port q = s.dev.port q

/-- PDELAY_EXCHANGE, PDELAY_RESP_RECEIVE, PDELAY_REQ_ANSWER, LPI_ENTER, LPI_EXIT and LPI_PARTNER_SIGNAL (R102, R106). -/
def Obligations.DelayAndLowPower : Prop :=
  (∀ (s : State) (p c l : Nat) (raw : Int) (t : Nat), s.dev.clocked = true → p < 1024 → c < 256 → l < 1024 → portsWf s.dev →
    (s.dev.port p).up = true → (s.dev.port p).pdelayNext = some t → s.dev.matured t = true →
    F.INTEG_P_CFG_TX_EN.get (s.dev.integCfg p) = 0 → s.dev.fld (ofPort A.PORT_PT_DELAY_CFG p) F.PORT_PT_DELAY_CFG_EXCH_EN ≠ 0 →
    Completes (.pdelayExchange p c l raw) s fun e => (∃ t1, (e.port p).pdelayOpen = some ((s.dev.port p).pdelaySeq, t1)) ∧
      (e.port p).pdelaySeq = ((s.dev.port p).pdelaySeq + 1) % 65536 ∧ (e.port p).pdelayNext = some ((s.dev.atCyc c).now + secT 1) ∧
      (∃ bs, e.sent = s.dev.sent ++ [.frame p bs]) ∧ ∀ q, q ≠ p → e.port q = s.dev.port q) ∧
  (∀ (s : State) (p c l : Nat) (raw : Int) (seq id t2 t3 t1 : Nat), s.dev.clocked = true → p < 1024 → c < 256 → l < 1024 → seq < 65536 →
    portsWf s.dev → (s.dev.port p).pdelayOpen = some (seq, t1) → id = s.dev.ptpIdentity p →
    Completes (.pdelayRespReceive p c l raw seq id t2 t3) s fun e => (e.port p).pdelayOpen = none ∧ (e.port p).delayFails = 0 ∧
      (e.port p).delaySrc = 1 ∧ (e.port p).delay ≤ 0xFFFFFF ∧ (e.port p).hdrmNewD = true ∧ ∀ q, q ≠ p → e.port q = s.dev.port q) ∧
  (∀ (s : State) (p c l : Nat) (raw : Int) (seq id t2 t3 : Nat), s.dev.clocked = true → p < 1024 → c < 256 → l < 1024 → seq < 65536 →
    (∀ t1, (s.dev.port p).pdelayOpen ≠ some (seq, t1)) ∨ id ≠ s.dev.ptpIdentity p →
    Makes (.pdelayRespReceive p c l raw seq id t2 t3) s fun d => d.atCyc c) ∧
  (∀ (s : State) (p c rl tl : Nat) (rr tr : Int) (seq id corr : Nat), s.dev.clocked = true → p < 1024 → c < 256 → rl < 1024 → tl < 1024 →
    seq < 65536 → portsWf s.dev → (s.dev.port p).up = true → F.INTEG_P_CFG_TX_EN.get (s.dev.integCfg p) = 0 →
    Completes (.pdelayReqAnswer p c rl rr tl tr seq id corr) s fun e => (∃ bs, e.sent = s.dev.sent ++ [.frame p bs]) ∧
      (e.port p).pdelayOpen = (s.dev.port p).pdelayOpen ∧ (e.port p).lpiTxAt = none ∧ ∀ q, q ≠ p → e.port q = s.dev.port q) ∧
  (∀ (s : State) (p c : Nat), s.dev.clocked = true → p < 1024 → c < 256 → portsWf s.dev → (s.dev.port p).up = true →
    (s.dev.port p).lpiTxAt = none → s.dev.fld (ofPort A.PORT_PT_CFG p) F.PORT_PT_CFG_LPI_EN = 1 → s.dev.queuesEmpty p = true →
    s.dev.lanesUp p = true → (s.dev.port p).fcEn = 0 →
    s.dev.matured ((s.dev.port p).idleSince + usT (s.dev.lpiIdle p)) = true → s.dev.xoffPris p = (s.dev.port p).xoff →
    Completes (.lpiEnter p c) s fun e => e.port p = { s.dev.port p with lpiTxAt := some (s.dev.atCyc c).now } ∧
      ∀ q, q ≠ p → e.port q = s.dev.port q) ∧
  (∀ (s : State) (p c : Nat), s.dev.clocked = true → p < 1024 → c < 256 → portsWf s.dev → s.dev.queuesEmpty p = false →
    Completes (.lpiExit p c) s fun e => e.port p = { s.dev.port p with lpiTxAt := none } ∧ ∀ q, q ≠ p → e.port q = s.dev.port q) ∧
  (∀ (s : State) (p c : Nat), s.dev.clocked = true → p < 1024 → c < 256 → portsWf s.dev → (s.dev.port p).up = true →
    (s.dev.port p).lpiRxAt = none →
    Completes (.lpiPartnerSignal p c true) s fun e => e.port p = { s.dev.port p with lpiRxAt := some (s.dev.atCyc c).now } ∧
      ∀ q, q ≠ p → e.port q = s.dev.port q) ∧
  ∀ (s : State) (p c t : Nat), s.dev.clocked = true → p < 1024 → c < 256 → portsWf s.dev → (s.dev.port p).lpiRxAt = some t →
    Completes (.lpiPartnerSignal p c false) s fun e => e.port p = { s.dev.port p with lpiRxAt := none } ∧
      ∀ q, q ≠ p → e.port q = s.dev.port q

/-- LINK_TRAIN, LINK_RETRAIN, D2D_FLIT_REPLAY, D2D_SLEEP, D2D_WAKE and LK_SLIP_GO (R88 to R94). -/
def Obligations.LinkEvents : Prop :=
  (∀ (s : State) (k : Nat), s.dev.clocked = true → k < 128 → tabWf (fun _ => ({} : LinkSt)) s.dev.lane.links = true →
    (s.dev.linkSt k).st ≠ .up →
    Completes (.linkTrain k [] []) s fun e => e.linkSt k = { s.dev.linkSt k with st := .up, retraining := false } ∧
      ∀ j, j ≠ k → e.linkSt j = s.dev.linkSt j) ∧
  (∀ (s : State) (k l j : Nat), s.dev.clocked = true → k < 128 → l < 64 → tabWf (fun _ => ({} : LinkSt)) s.dev.lane.links = true →
    (s.dev.linkSt k).st ≠ .up → (s.dev.linkSt k).lanesRetired = false →
    (spareOf (s.dev.linkSt k).repairOut l = none → freeSpare (s.dev.linkSt k).repairOut = some j →
      Completes (.linkTrain k [l] []) s fun e => (e.linkSt k).st = .up ∧ (e.linkSt k).repairOut = (s.dev.linkSt k).repairOut ++ [(j, l)]) ∧
    (spareOf (s.dev.linkSt k).repairIn l = none → freeSpare (s.dev.linkSt k).repairIn = some j →
      Completes (.linkTrain k [] [l]) s fun e => (e.linkSt k).st = .up ∧ (e.linkSt k).repairIn = (s.dev.linkSt k).repairIn ++ [(j, l)])) ∧
  (∀ (s : State) (src : Source) (k : Nat) (w : Word), s.dev.reachable src → k < 128 →
    tabWf (fun _ => ({} : LinkSt)) s.dev.lane.links = true →
    Completes (.linkRetrain src k w) s fun e =>
      e.linkSt k = { s.dev.linkSt k with
        st := .clockLock, retraining := true, outSleep := false, inSleep := false, retrainIn := s.dev.strokeNo + 1 } ∧
      ∀ j, j ≠ k → e.linkSt j = s.dev.linkSt j) ∧
  (∀ (s : State) (k dir : Nat) (ok : Bool), s.dev.clocked = true → k < 128 → dir < 2 → (s.dev.linkSt k).st = .up →
    Makes (.d2dFlitReplay k dir [] ok) s fun d =>
      if ok then d.count (ofLink A.D2D_LK_REPLAY_LO k) else (d.count (ofLink A.D2D_LK_REPLAY_LO k)).count (ofLink A.D2D_LK_ERRFLIT_LO k)) ∧
  (∀ (s : State) (k dir l : Nat) (ok : Bool), s.dev.clocked = true → k < 128 → dir < 2 → l < 64 → (s.dev.linkSt k).st = .up →
    tabWf (fun _ => ({} : LinkSt)) s.dev.lane.links = true →
    (((s.dev.linkSt k).charged.filter fun e => s.dev.clockNow < e.2 + secT 1) ++ [(64 * dir + l, s.dev.clockNow)]).length < 16 →
    Completes (.d2dFlitReplay k dir [l] ok) s fun e => e.linkSt k = { s.dev.linkSt k with
      charged := ((s.dev.linkSt k).charged.filter fun e => s.dev.clockNow < e.2 + secT 1) ++ [(64 * dir + l, s.dev.clockNow)] } ∧
      ∀ j, j ≠ k → e.linkSt j = s.dev.linkSt j) ∧
  (∀ (s : State) (k dir : Nat), s.dev.clocked = true → k < 128 → dir < 2 → (s.dev.linkSt k).st = .up →
    F.D2D_LK_CTRL_SLEEP_EN.get (s.dev.reg (ofLink A.D2D_LK_CTRL k)) = 1 → s.dev.linkIdle k dir 9 = true →
    Makes (.d2dSleep k dir) s fun d =>
      d.setLink k (if dir = 0 then { d.linkSt k with outSleep := true } else { d.linkSt k with inSleep := true })) ∧
  (∀ (s : State) (k dir : Nat), s.dev.clocked = true → k < 128 → dir < 2 → s.dev.linkIdle k dir 0 = false →
    Makes (.d2dWake k dir) s fun d =>
      d.setLink k (if dir = 0 then { d.linkSt k with outSleep := false } else { d.linkSt k with inSleep := false })) ∧
  (∀ (s : State) (src : Source) (k lane dir : Nat), s.dev.reachable src → k < 128 → lane < 68 → dir < 2 →
    F.D2D_LK_CTRL_TEST.get (s.dev.reg (ofLink A.D2D_LK_CTRL k)) = 1 → tabWf regReset s.dev.file.regs = true →
    tabWf (fun _ => ({} : LinkSt)) s.dev.lane.links = true →
    Completes (.lkSlipGo src k (BitVec.ofNat 32 (128 * dir + lane))) s fun e => e.linkSt k = { s.dev.linkSt k with
      slipped := tnatSet (s.dev.linkSt k).slipped (128 * dir + lane) (tnat (s.dev.linkSt k).slipped (128 * dir + lane) + 1) }) ∧
  ∀ (s : State) (src : Source) (k : Nat) (w : Word), s.dev.reachable src → k < 128 →
    F.D2D_LK_CTRL_TEST.get (s.dev.reg (ofLink A.D2D_LK_CTRL k)) = 0 → tabWf regReset s.dev.file.regs = true →
    Makes (.lkSlipGo src k w) s fun d =>
      (d.setReg (ofLink A.D2D_LK_SLIP k) (F.D2D_LK_SLIP_GO.put w 1 &&& 0xFF#32)).refuse src (ofLink A.D2D_LK_SLIP k)

/-- VR_THROTTLE_ASSERT, VR_THROTTLE_RELEASE, THERMAL_SENSOR_READ, THERMAL_DEMAND_STEP, PACE_LEVEL_STEP, PACING_PERIOD, QUENCH_START and
QUENCH_RELEASE (R379 to R388). -/
def Obligations.DamperEvents : Prop :=
  (∀ s : State, s.dev.damper.vrLow = false → tabWf regReset s.dev.file.regs = true →
    Completes .vrThrottleAssert s fun e => e.irqSet 0x40000 3 = true ∧
      ∃ f, e = { s.dev with damper := { s.dev.damper with vrLow := true, vrSeen := true }, file := f }) ∧
  (∀ s : State, Makes .vrThrottleRelease s fun d => { d with damper := { d.damper with vrLow := false } }) ∧
  (∀ (s : State) (temps : List Nat) (h : Nat), s.dev.clocked = true → (Instr.thermalSensorRead temps).wf = true → h ∈ temps →
    (∀ t ∈ temps, t ≤ h) →
    Makes (.thermalSensorRead temps) s fun d => { d with damper := { d.damper with
      tj := h % 256, tjPeak := max d.damper.tjPeak (h % 256), sensor := (temps.findIdx? fun t => t = h).getD 0 % 128 } }) ∧
  (∀ s : State, s.dev.clocked = true → s.dev.matured s.dev.damper.thermNext = true →
    Completes .thermalDemandStep s fun e =>
      e.damper.thermD = (if s.dev.throttleC ≤ s.dev.damper.tj then min (s.dev.damper.thermD + 1) (levelMax s.dev.profile.active)
        else if s.dev.damper.tj + s.dev.fld A.DAMPER_THERM_CFG F.DAMPER_THERM_CFG_HYST_C ≤ s.dev.throttleC then s.dev.damper.thermD - 1
        else s.dev.damper.thermD) ∧
      e.damper.thermNext = s.dev.elapsed + msT 1 ∧ e.damper.level = s.dev.damper.level) ∧
  (∀ s : State, s.dev.clocked = true → s.dev.pacing = true → s.dev.matured s.dev.damper.paceNext = true →
    Makes .paceLevelStep s fun d => { d with damper := { d.damper with
      paceLevel := if d.damper.unreachable then min (d.damper.paceLevel + 1) 15
        else if d.damper.lowFrom.isSome then d.damper.paceLevel - 1 else d.damper.paceLevel
      paceNext := d.elapsed + msT 1 } }) ∧
  (∀ s : State, s.dev.clocked = true → s.dev.pacing = true → s.dev.damper.pacePeriod ≠ some (s.dev.clockNow / usT 32) →
    Makes .pacingPeriod s fun d => { d with damper := { d.damper with
      pacePeriod := some (d.clockNow / usT 32), paced := decide (0 < d.damper.paceLevel)
      paceUntil := d.now + usT (2 * d.damper.paceLevel) } }) ∧
  (∀ (s : State) (c mv : Nat), s.dev.clocked = true → c < 256 → s.dev.damper.quench = false → (s.dev.atCyc c).droopMv < mv →
    tabWf regReset s.dev.file.regs = true →
    Completes (.quenchStart ⟨c, mv⟩) s fun e => e.damper = { s.dev.damper with
        quench := true, quenched := true, quenchFrom := (s.dev.atCyc c).now, quenchCyc := (s.dev.atCyc c).absCyc } ∧
      e.irqSet 0x40000 5 = true ∧ e.stroke = (s.dev.atCyc c).stroke ∧ e.profile = s.dev.profile) ∧
  (∀ (s : State) (c mv : Nat), s.dev.clocked = true → c < 256 → s.dev.damper.quench = true ∨ mv ≤ (s.dev.atCyc c).droopMv →
    Makes (.quenchStart ⟨c, mv⟩) s fun d => d.atCyc c) ∧
  (∀ (s : State) (c : Nat), s.dev.clocked = true → c < 256 → s.dev.damper.quench = true →
    s.dev.damper.quenchCyc + (s.dev.atCyc c).holdCyc ≤ (s.dev.atCyc c).absCyc →
    Completes (.quenchRelease c) s fun e => e.damper.quench = false ∧ e.damper.quenched = s.dev.damper.quenched ∧
      e.damper.level = s.dev.damper.level ∧ e.stroke = (s.dev.atCyc c).stroke ∧ e.profile = s.dev.profile) ∧
  (∀ (s : State) (c : Nat), s.dev.clocked = true → c < 256 →
    s.dev.damper.quench = false ∨ (s.dev.atCyc c).absCyc < s.dev.damper.quenchCyc + (s.dev.atCyc c).holdCyc →
    Makes (.quenchRelease c) s fun d => d.atCyc c)

/-- SRAM_ECC_CORRECTED, SRAM_ECC_UNCORRECTABLE, ROW_TEST_COMPLETE, ROW_REPAIR_SWITCH, LH_ECC_CORRECTED, RECORD_WRITE and RR_CLEAR (R390 to R395,
R399 to R402). -/
def Obligations.FaultAndRepairEvents : Prop :=
  (∀ (s : State) (u i a : Nat), s.dev.clocked = true → u < 16 → u ≠ 4 → i < 65536 → s.dev.fixedNow ⟨u, i, a⟩ = false →
    ((s.dev.count (rasCnt 0)).occurrence ⟨u, i, a⟩).1 < 3 →
    Completes (.sramEccCorrected u i a) s fun e => e.logged ⟨u, i, a⟩ 1 1 ((s.dev.count (rasCnt 0)).occurrence ⟨u, i, a⟩).1 ∧
      e.ras.repairs = s.dev.ras.repairs ∧ e.ras.testing = s.dev.ras.testing ∧ e.dev = s.dev.dev) ∧
  (∀ (s : State) (u i a : Nat), s.dev.clocked = true → u < 16 → u ≠ 4 → i < 65536 → s.dev.fixedNow ⟨u, i, a⟩ = false →
    3 ≤ ((s.dev.count (rasCnt 0)).occurrence ⟨u, i, a⟩).1 → (s.dev.ras.repairs.any fun r => r.place = ⟨u, i, a⟩) = false →
    s.dev.ras.testing.contains ⟨u, i, a⟩ = false → tnat s.dev.ras.spares (s.dev.sparesOf ⟨u, i, a⟩).1 < (s.dev.sparesOf ⟨u, i, a⟩).2 →
    Completes (.sramEccCorrected u i a) s fun e =>
      e.ras.repairs = s.dev.ras.repairs ++ [⟨⟨u, i, a⟩, tnat s.dev.ras.spares (s.dev.sparesOf ⟨u, i, a⟩).1⟩] ∧
      e.logged ⟨u, i, a⟩ 1 3 ((s.dev.count (rasCnt 0)).occurrence ⟨u, i, a⟩).1) ∧
  (∀ (s : State) (u i a : Nat), s.dev.clocked = true → u < 16 → i < 65536 → s.dev.ras.testing.contains ⟨u, i, a⟩ = false →
    Completes (.sramEccUncorrectable u i a) s fun e => e.ras.testing = s.dev.ras.testing ++ [⟨u, i, a⟩] ∧
      e.logged ⟨u, i, a⟩ 2 0 (s.dev.seenFaults ⟨u, i, a⟩) ∧ e.dev = s.dev.dev) ∧
  (∀ (s : State) (u i a : Nat), s.dev.clocked = true → u < 16 → u ≠ 5 → i < 65536 → s.dev.ras.testing.contains ⟨u, i, a⟩ = true →
    s.dev.seqOn 15 = true → (s.dev.inPieces 0x11 0 4 (placeTag ⟨u, i, a⟩)).2 = true →
    Completes (.rowTestComplete u i a true) s fun e => e.ras.testing = s.dev.ras.testing.filter (fun q => q ≠ ⟨u, i, a⟩)) ∧
  (∀ (s : State) (i a : Nat), s.dev.clocked = true → i < 65536 → s.dev.ras.testing.contains ⟨5, i, a⟩ = true →
    s.dev.seqOn 15 = true → (s.dev.inPieces 0x12 0 4 (placeTag ⟨5, i, a⟩)).2 = true →
    Completes (.rowTestComplete 5 i a true) s fun e => e.ras.testing = s.dev.ras.testing.filter (fun q => q ≠ ⟨5, i, a⟩)) ∧
  (∀ s : State, s.dev.clocked = true → s.dev.seqOn 15 = true → s.dev.ras.repairs ≠ [] →
    (s.dev.inPieces 0x11 0 s.dev.ras.repairs.length (2 ^ 80 + 1)).2 = true →
    Completes .rowRepairSwitch s fun e => e.ras.repairs = [] ∧
      e.ras.spared = s.dev.ras.spared ++ s.dev.ras.repairs.foldl (fun l r => insertRepair r l) [] ∧ e.dev = s.dev.dev) ∧
  (∀ (s : State) (st a : Nat) (r : Bool), s.dev.clocked = true → st < 4 → s.dev.fixedNow ⟨5, st, a⟩ = false →
    ((s.dev.count (rasCnt 0)).occurrence ⟨5, st, a⟩).1 < 3 →
    Completes (.lhEccCorrected st a r) s fun e => e.logged ⟨5, st, a⟩ 1 1 ((s.dev.count (rasCnt 0)).occurrence ⟨5, st, a⟩).1 ∧
      e.ras.lhQuar = s.dev.ras.lhQuar ∧ e.dev = s.dev.dev) ∧
  (∀ (s : State) (ok : Bool), s.dev.clocked = true → s.dev.ras.writeBy.isSome = true →
    Completes (.recordWrite ok) s fun e =>
      e.ras.copies = s.dev.ras.copies.set s.dev.ras.next
        (if ok then recordBytes (((s.dev.recordCopy.map recordSeq).getD 0 + 1) % 2 ^ 32) (s.dev.cnt (rasCnt 6)) s.dev.ras.entries
          else []) ∧
      e.ras.next = 1 - s.dev.ras.next ∧ e.ras.writeBy = none ∧
      e.sent = s.dev.sent ++ [.mgmt "QSPI" (recordOffset s.dev.ras.next)]) ∧
  (∀ (s : State) (src : Source) (w : Word), s.dev.reachable src → s.dev.dev.state = .config →
    Completes (.rrClear src w) s fun e =>
      e.ras = { s.dev.ras with copies := [[], []], entries := [], full := false, writeBy := none } ∧ e.dev = s.dev.dev)

/-- SNAP_MERGED_READ, STAIR_PEAK_READ, DAMPER_PEAK_READ, RAS_LOG_READ, RAS_LOG_STAT_READ, SAMPLE_FIFO_READ, NOW_READ,
EVT_FIFO_READ and PPS_IN_CAP_READ (R55, R150, R257, R272, R360, R368, R387, R402). -/
def Obligations.ReadsThatAct : Prop :=
  (∀ (s : State) (src : Source), s.dev.topReachable src →
    Makes (.snapMergedRead src) s fun d => ({ d with snap := { d.snap with merged := 0 } }).readData src d.snapCtrl) ∧
  (∀ (s : State) (src : Source) (n : Nat), s.dev.reachable src → n < 32 → s.dev.isFenced n = false →
    Makes (.stairPeakRead src n) s fun d =>
      ({ d with pkt := { d.pkt with stairPeak := tnatSet d.pkt.stairPeak n (d.stairDepth n) } }).readData src
        (d.stairDepth n + max (d.stairDepth n) (tnat d.pkt.stairPeak n) * 512)) ∧
  (∀ (s : State) (src : Source), s.dev.reachable src →
    Makes (.damperPeakRead src false) s fun d =>
      ({ d with damper := { d.damper with peakW := 0 } }).readData src (d.damper.peakW % 4096)) ∧
  (∀ (s : State) (src : Source), s.dev.reachable src →
    Makes (.damperPeakRead src true) s fun d =>
      ({ d with damper := { d.damper with tjPeak := 0 } }).readData src
        (d.damper.tj % 256 + d.damper.tjPeak % 256 * 256 + d.damper.sensor % 128 * 2 ^ 16)) ∧
  (∀ (s : State) (src : Source), s.dev.reachable src →
    Makes (.rasLogRead src) s fun d =>
      ({ d with ras := { d.ras with log := d.ras.log.drop 1, logLatch := d.ras.log.headD [] } }).readData src
        (beAt (d.ras.log.headD []) 0 4)) ∧
  (∀ (s : State) (src : Source), s.dev.reachable src →
    Makes (.rasLogStatRead src) s fun d =>
      ({ d with ras := { d.ras with logOvf := 0 } }).readData src (d.ras.log.length + d.ras.logOvf * 512)) ∧
  (∀ (s : State) (src : Source) (n : Nat) (x : Sample) (t : List Sample), s.dev.reachable src → n < 32 →
    s.dev.isFenced n = false → tabGet (fun _ => []) (s.dev.counted (some n)).perf.fifo n = x :: t →
    Completes (.sampleFifoRead src n) s fun e => e.lastRead src = BitVec.ofNat 32 (x.words.headD 0) ∧
      ∃ f, e = { s.dev.counted (some n) with
        perf := { (s.dev.counted (some n)).perf with
          fifo := tabSet (fun _ => []) (s.dev.counted (some n)).perf.fifo n t }, file := f }) ∧
  (∀ (s : State) (src : Source), s.dev.reachable src → tabWf latchReset s.dev.file.latch = true →
    Completes (.nowRead src) s fun e => e.lastRead src = BitVec.ofNat 32 (clkFrac s.dev.clockNow) ∧
      e.latched src (A.TIME_NOW_FRAC + 4) = clkNs s.dev.clockNow ∧
      e.latched src (A.TIME_NOW_FRAC + 8) = clkSec s.dev.clockNow % 2 ^ 32 ∧
      e.latched src (A.TIME_NOW_FRAC + 12) = clkSec s.dev.clockNow / 2 ^ 32 % 2 ^ 16 ∧
      ∃ f, e = { s.dev with file := f }) ∧
  (∀ (s : State) (src : Source) (k : Nat) (c : Capture) (t : List Capture), s.dev.reachable src → k < 4 →
    s.dev.pulse.evt.getD k [] = c :: t →
    Completes (.evtFifoRead src k) s fun e =>
      e.lastRead src = BitVec.ofNat 32 (clkFrac c.at16 + 2 ^ 31 * b2n c.rising) ∧
      ∃ f, e = { s.dev with pulse := { s.dev.pulse with evt := s.dev.pulse.evt.set k t }, file := f }) ∧
  (∀ (s : State) (src : Source) (k : Nat) (c : Capture), s.dev.reachable src → k < 2 → tabWf latchReset s.dev.file.latch = true →
    s.dev.pulse.ppsIn.getD k none = some c →
    Completes (.ppsInCapRead src k) s fun e => e.lastRead src = BitVec.ofNat 32 (clkFrac c.at16) ∧
      e.latched src (A.TIME_PPS_IN_CAP_FRAC k + 4) = clkNs c.at16 ∧ ∃ f, e = { s.dev with file := f })

/-- REGISTER_WRITE, LO_READ_LATCH, BOOT_LOCK, ERR_CLR, IRQ_FORCE, PC_VAL_COMMIT and PC_CLEAR_ALL (R7, R8, R11, R354, R359, R360,
R365, R367). -/
def Obligations.RegisterAccesses : Prop :=
  (∀ (s : State) (src : Source) (a : Nat) (w : Word) (h : RegHit), s.dev.reachable src → a % 4 = 0 → a < 2 ^ 28 →
    targetOf a = .block h → s.dev.fencedPage h.base h.inst = false → s.dev.hiddenReg h = false → s.dev.blocked h a = false →
    s.dev.syncPage h = s.dev → s.dev.hookWrite src h a w = none →
    (h.row.attrs.any fun x => x == .pairLo || x == .tripleLo || x == .pairHi || x == .tripleHi) = false →
    galleryPage h.base = false → tabWf regReset s.dev.file.regs = true →
    (s.dev.selOf h = none ∨ (h.row.written s.dev.file.locked (s.dev.reg (s.dev.keyOf h a)).toNat w.toNat).2 = false) →
    Completes (.registerWrite (viaOf src) a 0xF w none) s fun e =>
      e.reg (s.dev.keyOf h a) =
        BitVec.ofNat 32 (h.row.written s.dev.file.locked (s.dev.reg (s.dev.keyOf h a)).toNat w.toNat).1 ∧
      (h.row.page ≠ .integ → e.integ = s.dev.integ) ∧ ∃ f n, e = { s.dev with file := f, integ := n }) ∧
  (∀ (s : State) (src : Source) (a : Nat) (h : RegHit), s.dev.reachable src → a % 4 = 0 → a < 2 ^ 28 →
    targetOf a = .block h → s.dev.fencedPage h.base h.inst = false → s.dev.hiddenReg h = false →
    s.dev.syncPage h = s.dev → s.dev.specialRead src h a = none → h.rest ≠ 4 →
    (h.row.attrs.any fun x => x == .group0 || x == .groupN || x == .roHi || x == .pairHi || x == .cntArr) = false →
    (h.row.attrs.any fun x => x == .roLo || x == .pairLo) = true → tabWf latchReset s.dev.file.latch = true →
    Completes (.loReadLatch (viaOf src) a 0xF) s fun e => e.lastRead src = BitVec.ofNat 32 (s.dev.peekBlock h a) ∧
      e.latched src (a + 4) = s.dev.peek (a + 4) ∧ ∃ f, e = { s.dev with file := f }) ∧
  (∀ (s : State) (src : Source), s.dev.topReachable src →
    Makes (.bootLock src) s fun d => { d with file := { d.file with locked := true } }) ∧
  (∀ (s : State) (src : Source) (ix inst base : Nat) (p : Page), s.dev.reachable src → headerPage ix = true →
    pageOf (pageBase ix) = some (p, inst, base) → s.dev.fencedPage base inst = false →
    Makes (.errClr src ix none) s fun d => (d.setReg (base + 0x20) 0#32).setReg (base + 0x24) 0#32) ∧
  (∀ (s : State) (src : Source) (ix inst base : Nat) (p : Page) (w : Word), s.dev.reachable src → headerPage ix = true →
    pageOf (pageBase ix) = some (p, inst, base) → s.dev.fencedPage base inst = false → tabWf regReset s.dev.file.regs = true →
    Completes (.irqForce src ix w) s fun e =>
      (∀ k, k < 32 → bit (e.reg (base + 0x10)).toNat k =
        (bit (s.dev.reg (base + 0x10)).toNat k || (decide (k < irqBits p) && bit w.toNat k))) ∧
      ∃ f, e = { s.dev with file := f }) ∧
  (∀ (s : State) (src : Source) (k : Nat) (lo hi : Word), s.dev.reachable src → k < 16 →
    assoc (s.dev.counted none).file.loHeld (latchKey src (A.CNT_PC_VAL_HI k - 4)) = some lo →
    tabWf zeroNat (s.dev.counted none).perf.val = true →
    Completes (.pcValCommit src none k hi none) s fun e =>
      e.pcValue (pcWin (pcPage none) k) = hi.toNat % 65536 * 2 ^ 32 + lo.toNat) ∧
  (∀ (s : State) (src : Source) (n k : Nat) (lo hi : Word), s.dev.reachable src → n < 32 → k < 8 → s.dev.isFenced n = false →
    (s.dev.counted (some n)).wordsWhole n →
    assoc (s.dev.counted (some n)).file.loHeld (latchKey src (A.GCNT_PC_VAL_HI n k - 4)) = some lo →
    tabWf zeroNat (s.dev.counted (some n)).perf.val = true →
    Completes (.pcValCommit src (some n) k hi none) s fun e =>
      e.pcValue (pcWin (pcPage (some n)) k) = hi.toNat % 65536 * 2 ^ 32 + lo.toNat) ∧
  (∀ (s : State) (src : Source) (fz : Bool), s.dev.reachable src →
    Completes (.pcClearAll src none fz) s fun e => 0x70000 ∈ e.perf.clearAll) ∧
  (∀ (s : State) (src : Source) (n : Nat) (fz : Bool), s.dev.reachable src → n < 32 → s.dev.isFenced n = false →
    (s.dev.counted (some n)).wordsWhole n →
    Completes (.pcClearAll src (some n) fz) s fun e => galBase n 11 ∈ e.perf.clearAll)

/-- What a recorded access leaves (R355; the fields of ERR_FIRST and the end of the count are R354's). -/
def Obligations.RecordedAccesses : Prop :=
  ∀ (d : Device) (base off : Nat) (k : ErrKind) (src : Source), tabWf regReset d.file.regs = true →
    ((d.err base off k src).reg (base + 0x24)).toNat = min ((d.reg (base + 0x24)).toNat + 1) 0xFFFF ∧
    ((d.reg (base + 0x24)).toNat = 0 → (d.err base off k src).reg (base + 0x20) =
      BitVec.ofNat 32 (off % 65536 + k.code * 65536 + if src = .smbus then 0x80000 else 0)) ∧
    ((d.reg (base + 0x24)).toNat ≠ 0 → (d.err base off k src).reg (base + 0x20) = d.reg (base + 0x20)) ∧
    (∀ a, a ≠ base + 0x20 → a ≠ base + 0x24 → (d.err base off k src).reg a = d.reg a) ∧
    (∀ n, (d.err base off k src).irqSet base n = d.irqSet base n) ∧
    ∃ f, d.err base off k src = { d with file := f }

/-- Accesses that reach nothing (R352). -/
def Obligations.UnmappedAccesses : Prop :=
  (∀ (s : State) (src : Source) (a : Nat) (w : Word), s.dev.topReachable src → a % 4 = 0 → a < 2 ^ 28 → targetOf a = .unmapped →
    Makes (.registerWrite (viaOf src) a 0xF w none) s fun d => d.err 0 a .unmapped src) ∧
  (∀ (s : State) (src : Source) (a : Nat) (w : Word), s.dev.reachable src → a % 4 = 0 → 0x4000000 ≤ a → a < 0x8000000 →
    Makes (.registerWrite (viaOf src) a 0xF w none) s fun d => d.err 0 a .unmapped src) ∧
  ∀ (s : State) (src : Source) (a : Nat), s.dev.topReachable src → a % 4 = 0 → a < 2 ^ 28 → targetOf a = .unmapped →
    Makes (.loReadLatch (viaOf src) a 0xF) s fun d => (d.err 0 a .unmapped src).readData src 0

/-- Accesses that break R6 (R353). -/
def Obligations.BadAccesses : Prop :=
  (∀ (s : State) (src : Source) (a be : Nat) (w : Word), s.dev.reachable src → a < 2 ^ 28 → be < 256 → a % 4 ≠ 0 ∨ be ≠ 15 →
    (pageOf a = none → Makes (.registerWrite (viaOf src) a be w none) s fun d => d.err 0 a .badAccess src) ∧
    ∀ p inst base, pageOf a = some (p, inst, base) → p ≠ .rings →
      Makes (.registerWrite (viaOf src) a be w none) s fun d => d.err base (a - base) .badAccess src) ∧
  ∀ (s : State) (src : Source) (a be : Nat), s.dev.reachable src → a < 2 ^ 28 → be < 256 → a % 4 ≠ 0 ∨ be ≠ 15 →
    (pageOf a = none → Makes (.loReadLatch (viaOf src) a be) s fun d => (d.err 0 a .badAccess src).readData src 0) ∧
    ∀ p inst base, pageOf a = some (p, inst, base) → p ≠ .rings →
      Makes (.loReadLatch (viaOf src) a be) s fun d => (d.err base (a - base) .badAccess src).readData src 0

/-- Accesses that the device does not answer (R26, R28, R406, R414; BOOT's record is the model's choice, log entry 3). -/
def Obligations.ClosedAccesses : Prop :=
  (∀ (s : State) (src : Source) (a be : Nat) (w : Word), s.dev.gate src = .silent ∨ s.dev.gate src = .closed → a < 2 ^ 28 → be < 256 →
    exec (.registerWrite (viaOf src) a be w none) s = .next s) ∧
  (∀ (s : State) (src : Source) (a : Nat) (w : Word), s.dev.gate src = .bootOnly → a % 4 = 0 → 0x10000 ≤ a → a < 2 ^ 28 →
    targetOf a ≠ .unmapped → Makes (.registerWrite (viaOf src) a 0xF w none) s fun d => d.err 0 a .refused src) ∧
  ∀ d : Device, (d.dev.state = .off → ∀ src, d.gate src = .silent) ∧
    (d.dev.state = .reset ∨ d.dev.state = .thermal → d.gate .pcie = .silent ∧ d.gate .smbus = .closed) ∧
    (d.dev.state ≠ .off → d.boot.perstLow = true → d.gate .pcie = .silent)

/-- FRAME_RECEIVE_START and PARSE_RESUME (R19, R21, R98, R111, R113): a frame without its delimiter is counted alone; any other
becomes a frame and a header, whose bytes stop at MAX_FRAME. -/
def Obligations.FramesBegin : Prop :=
  (∀ (s : State) (d : Device) (p c lane : Nat) (raw : Int) (bs : Bytes),
    (Instr.frameReceiveStart p c lane raw false bs).wf = true → s.dev.clocked = true → s.dev.atStage c = d →
    d.receives p = true → d.receivingOn p = none →
    Makes (.frameReceiveStart p c lane raw false bs) s fun _ => d.portCount p 5 1) ∧
  (∀ (s : State) (d : Device) (p c lane : Nat) (raw : Int) (bs : Bytes),
    (Instr.frameReceiveStart p c lane raw true bs).wf = true → s.dev.clocked = true → s.dev.atStage c = d →
    d.receives p = true → d.receivingOn p = none → d.frame d.pkt.nextId = none →
    Completes (.frameReceiveStart p c lane raw true bs) s fun e => ∃ (g : Device) (f : Frame),
      g.frame d.pkt.nextId = some f ∧ f.id = d.pkt.nextId ∧ f.inPort = p ∧ f.gal = p / 32 ∧ f.raw = bs.take (d.maxFrame p) ∧
      f.start = d.absCyc ∧ f.iclass = d.portClass p ∧ f.maxFrame = d.maxFrame p ∧ f.ended = false ∧
      g.pkt.nextId = d.pkt.nextId + 1 ∧ g.pkt.receiving = d.pkt.receiving ++ [(p, d.pkt.nextId)] ∧ g.hall = d.hall ∧
      (bs.length < 14 → g.pkt.flights = d.pkt.flights ++
        [{ id := d.pkt.nextId, gal := p / 32, src := .port p, ready := d.absCyc, iclass := d.portClass p }]) ∧
      e = if d.maxFrame p < bs.length then g.oversized f else g) ∧
  (∀ (s : State) (d : Device) (p c : Nat) (bs : Bytes) (f : Frame), (Instr.parseResume p c bs).wf = true →
    s.dev.clocked = true → s.dev.atStage c = d → d.receivingOn p = some f → d.frame f.id = some f →
    Completes (.parseResume p c bs) s fun e => ∃ g, (d.addBytes f.id bs).frame f.id = some g ∧
      g.raw = f.raw ++ bs.take (f.maxFrame - f.raw.length) ∧ g.inPort = f.inPort ∧ g.start = f.start ∧
      e = if f.maxFrame < f.raw.length + bs.length then (d.addBytes f.id bs).oversized g else (d.addBytes f.id bs).pushBytes f.id) ∧
  ∀ (s : State) (d : Device) (p c : Nat) (bs : Bytes), (Instr.parseResume p c bs).wf = true → s.dev.clocked = true →
    s.dev.atStage c = d → d.receivingOn p = none → Makes (.parseResume p c bs) s fun _ => d

/-- FRAME_RECEIVE_END and ICV_CHECK_RESULT (R98, R99, R242, R247, R248). `b` is what has come of the frame with its last bytes,
`bad` that an uncorrectable codeword touched it. -/
def Obligations.FramesEnd : Prop :=
  (∀ (s : State) (d b : Device) (p c : Nat) (bs : Bytes) (cws : List (Nat × Nat)) (bad : Bool) (f0 f : Frame),
    (Instr.frameReceiveEnd p c bs cws).wf = true → s.dev.clocked = true →
    (if ((s.dev.atStage c).port p).up then (s.dev.atStage c).codewords p cws else (s.dev.atStage c, false)) = (d, bad) →
    d.receivingOn p = some f0 → d.frame f0.id = some f0 →
    (((d.modFrame f0.id fun f => { f with ended := true }).endReceiving f0.id).addBytes f0.id bs) = b →
    b.frame f0.id = some f →
    f.raw = f0.raw ++ bs.take (f0.maxFrame - f0.raw.length) ∧
    (f.raw.length < 64 → Makes (.frameReceiveEnd p c bs cws) s fun _ => (b.portCount p 3 1).failFrame f0.id 0x24) ∧
    (64 ≤ f.raw.length → f0.maxFrame < f0.raw.length + bs.length →
      Makes (.frameReceiveEnd p c bs cws) s fun _ => b.oversized f) ∧
    (64 ≤ f.raw.length → f0.raw.length + bs.length ≤ f0.maxFrame →
      (bad = true ∨ fcsGood f.raw = false →
        Makes (.frameReceiveEnd p c bs cws) s fun _ => (b.portCount p 2 1).failFrame f0.id 0x22) ∧
      (bad = false → fcsGood f.raw = true →
        (beAt f.raw 12 2 = 0x8808 → Makes (.frameReceiveEnd p c bs cws) s fun _ =>
          ((b.macControl p f.raw).modFrame f0.id fun f => { f with checked := true }).releaseFrame f0.id) ∧
        (beAt f.raw 12 2 ≠ 0x8808 → Completes (.frameReceiveEnd p c bs cws) s fun e => ∃ g : Device,
          g = (((b.portCount p 0 1).portCount p 1 f.raw.length).event (some (p / 32)) 0x1003 f.raw.length (some p)
            (b.evOf f 0 false)).secDecide f0.id ∧
          (g.frame f0.id = none → e = g.frameComplete f0.id) ∧
          ∀ f1, g.frame f0.id = some f1 →
            e = (if g.unchecked f1 then g.setFrame { f1 with checked := true } else g).frameComplete f0.id)))) ∧
  (∀ (s : State) (d : Device) (p c : Nat) (bs : Bytes) (cws : List (Nat × Nat)) (bad : Bool),
    (Instr.frameReceiveEnd p c bs cws).wf = true → s.dev.clocked = true →
    (if ((s.dev.atStage c).port p).up then (s.dev.atStage c).codewords p cws else (s.dev.atStage c, false)) = (d, bad) →
    d.receivingOn p = none → Makes (.frameReceiveEnd p c bs cws) s fun _ => d) ∧
  ∀ (s : State) (d : Device) (p c id : Nat) (f : Frame), (Instr.icvCheckResult p c).wf = true → s.dev.clocked = true →
    s.dev.atStage c = d →
    (d.pkt.frames.find? fun e => e.2.inPort = p ∧ e.2.rx ∧ e.2.ended ∧ !e.2.checked) = some (id, f) →
    (∀ k, f.sec = some k → k.key.isSome = true → k.verifies f.raw = false → k.strict = true →
      d.ptpAuth f.integSeq p = false →
      Makes (.icvCheckResult p c) s fun _ => ((d.count (integCnt f.gal 1)).raise (galBase f.gal 9) 2).failFrame id 0x70) ∧
    (∀ k, f.sec = some k → k.key.isSome = true → k.verifies f.raw = false → k.strict = false →
      d.ptpAuth f.integSeq p = false →
      Makes (.icvCheckResult p c) s fun _ =>
        ((d.count (integCnt f.gal 1)).modFrame id fun f => { f with ptpOk := none, checked := true }).releaseFrame id) ∧
    (∀ k, f.sec = some k → k.key.isSome = true → k.verifies f.raw = true → d.ptpAuth f.integSeq p = false →
      Makes (.icvCheckResult p c) s fun _ => (((d.count (integCnt f.gal 0)).rxAdvance f.gal k).modFrame id fun f =>
        { f with ptpOk := none, checked := true }).releaseFrame id) ∧
    (f.sec = none → d.ptpAuth f.integSeq p = false →
      Makes (.icvCheckResult p c) s fun _ =>
        (d.modFrame id fun f => { f with ptpOk := none, checked := true }).releaseFrame id) ∧
    (∀ o ok g, f.sec = none → d.ptpAuth f.integSeq p = true → d.flight id = none → f.ptpOfs = some o →
      d.ptpCheck p f.plain o f.start f.integSeq = (g, ok) →
      Makes (.icvCheckResult p c) s fun _ =>
        if ok = some false then (g.modFrame id fun f => { f with ptpOk := ok }).failFrame id 0x70
        else (g.modFrame id fun f => { f with ptpOk := ok, checked := true }).releaseFrame id) ∧
    (∀ x, d.ptpAuth f.integSeq p = true → d.flight id = some x → x.pass = 0 → x.phase = .ready ∨ x.phase = .parsing →
      Makes (.icvCheckResult p c) s fun _ => d)

/-- HEADER_ACCEPT, FRAGMENT_HOLD_REENTER and EXT_LOOKUP_RETURN (R19, R38, R48, R111, R136, R143, R164). -/
def Obligations.HeadersAndHolds : Prop :=
  (∀ (s : State) (d : Device) (n c : Nat) (x : Flight) (f : Frame), (Instr.headerAccept n c).wf = true →
    s.dev.clocked = true → s.dev.atStage c = d → d.running = true → d.isFenced n = false → d.taken n < 4 →
    d.nextHeader n = some x → d.frame x.id = some f → f.id = x.id →
    (d.canAdmit 0x01 n 1 1 c x.id = false → Makes (.headerAccept n c) s fun _ =>
      d.allWait 0x01 n fun x => x.gal = n ∧ x.phase = .ready ∧ x.ready ≤ d.absCyc) ∧
    (d.canAdmit 0x01 n 1 1 c x.id = true → Completes (.headerAccept n c) s fun e => ∃ (g : Device) (y : Flight),
      e = g.runParse x.id ∧ g.flight x.id = some y ∧ g.taken n = d.taken n + 1 ∧ g.gen = d.gen ∧ g.hall = d.hall ∧
      g.frame x.id = some { f with stamp := d.gen.active, iclass := x.iclass } ∧
      y = { x with
        phase := .parsing
        acc := d.absCyc
        stamp := d.gen.active
        pbank := d.fld A.TOP_PARSE_BANK F.TOP_PARSE_BANK_ACTIVE
        prof := d.profile.active
        vis := profWindow d.profile.active
        pcfg := d.parseCfg n x.iclass
        start := d.fld (A.PARSE_IC_CFG n x.iclass) F.PARSE_IC_CFG_START })) ∧
  (∀ (s : State) (d : Device) (n c : Nat), (Instr.headerAccept n c).wf = true → s.dev.clocked = true →
    s.dev.atStage c = d → d.running = false ∨ d.isFenced n = true ∨ 4 ≤ d.taken n ∨ d.nextHeader n = none →
    Makes (.headerAccept n c) s fun _ => d) ∧
  (∀ (s : State) (n : Nat) (x : Flight) (f : Frame), (Instr.fragmentHoldReenter n).wf = true → s.dev.clocked = true →
    (s.dev.pkt.flights.find? fun x => x.gal = n ∧ x.phase = .hold) = some x → x.since < s.dev.strokeNo →
    s.dev.isFenced n = false → s.dev.frame x.id = some f →
    (s.dev.canAdmit 0x03 (n * 5 + 4) 1 1 s.dev.stroke.cyc x.id = false →
      Makes (.fragmentHoldReenter n) s fun d => d.mustWait 0x03 (n * 5 + 4) x.id 1) ∧
    (s.dev.canAdmit 0x03 (n * 5 + 4) 1 1 s.dev.stroke.cyc x.id = true →
      Completes (.fragmentHoldReenter n) s fun e => ∃ (y : Flight) (r : StageRun),
        y = { x with due := s.dev.absCyc - 2 * x.stage, fft := true } ∧
        r = fftStep ((s.dev.spend 0x03 (n * 5 + 4) 1 x.id).stageCtx y f) y.stage y.iclass f.bytes
          { d := s.dev.spend 0x03 (n * 5 + 4) 1 x.id, v := y.phv, a := y.acts, ext := y.ext } ∧
        e = r.d.keepStages y r .staging y.stage)) ∧
  (∀ (s : State) (n : Nat) (x : Flight), (Instr.fragmentHoldReenter n).wf = true → s.dev.clocked = true →
    (s.dev.pkt.flights.find? fun x => x.gal = n ∧ x.phase = .hold) = some x →
    s.dev.strokeNo ≤ x.since ∨ s.dev.isFenced n = true → exec (.fragmentHoldReenter n) s = .next s) ∧
  ∀ (s : State) (g : Device) (n : Nat) (x : Flight) (q : ExtLookup) (hit : Option Nat),
    (Instr.extLookupReturn n).wf = true → s.dev.clocked = true →
    (s.dev.pkt.flights.find? fun x => x.gal = n ∧ (x.ext.map fun e => e.issued && e.result.isNone).getD false) = some x →
    x.ext = some q → s.dev.extLookup (slotOf x.stamp) ⟨q.ktype, q.wide, q.key⟩ = (hit, g) →
    (hit = none → Makes (.extLookupReturn n) s fun _ =>
      g.setFlight { x with ext := some { q with result := some (false, 0, 0) } }) ∧
    ∀ v, hit = some v → Makes (.extLookupReturn n) s fun _ =>
      (g.count (A.STAIR_STAIR_CNT n 5)).setFlight { x with ext := some { q with result := some (true, emActIdx v, emAdata v) } }

/-- INGRESS_PASS_END, STAIR_GRANT and STAIR_WAIT_EXPIRE (R139, R143 to R146, R187, R303, R341). -/
def Obligations.PassesAndStair : Prop :=
  (∀ (s : State) (d : Device) (n c : Nat) (x : Flight) (f : Frame), (Instr.ingressPassEnd n c).wf = true →
    s.dev.clocked = true → s.dev.atStage c = d → d.isFenced n = false → d.nextEnd n = some x → d.frame x.id = some f →
    (∀ code, x.verdict = some (.drop code) → Makes (.ingressPassEnd n c) s fun _ => d.dropFlight x.id code none) ∧
    ((∀ code, x.verdict ≠ some (.drop code)) →
      (∀ code stage ix, x.acts.drop = some (code, stage, ix) →
        Makes (.ingressPassEnd n c) s fun _ => d.dropFlight x.id code (some (stage, ix))) ∧
      (x.acts.drop = none →
        (∀ cause ic, x.verdict = some (.trap cause ic) →
          Makes (.ingressPassEnd n c) s fun _ => d.passTrap x (d.trapRing x.gal ic) cause none) ∧
        (x.verdict = none →
          (∀ ring stage ix, x.acts.trap = some (ring, stage, ix) →
            Makes (.ingressPassEnd n c) s fun _ => d.passTrap x ring 1 (some (stage, ix))) ∧
          (x.acts.trap = none →
            (x.ext.isSome = true → Makes (.ingressPassEnd n c) s fun _ => d.stairJoin x.id) ∧
            (x.ext = none →
              (x.acts.other = none → Makes (.ingressPassEnd n c) s fun _ =>
                (d.count (matchCnt x.gal 1)).dropFlight x.id 0x30 none) ∧
              ∀ darg h,
                (x.acts.other = some (1, darg, h) → Makes (.ingressPassEnd n c) s fun _ => d.passForward x (darg % 1024)) ∧
                (x.acts.other = some (4, darg, h) → Makes (.ingressPassEnd n c) s fun _ => d.stairJoin x.id) ∧
                (x.acts.other = some (5, darg, h) → Makes (.ingressPassEnd n c) s fun _ => d.passAnvil x) ∧
                (x.acts.other = some (6, darg, h) → ∀ m g,
                  (d.spend 0x03 (x.gal * 5 + 3) 1 x.id).select x.gal darg (if h = 1 then x.phv.h1 else x.phv.h0) = (m, g) →
                  Makes (.ingressPassEnd n c) s fun _ => g.passForward x (m % 1024)) ∧
                (x.acts.other = some (7, darg, h) →
                  Makes (.ingressPassEnd n c) s fun _ => d.passReplicate x f.inPort (darg % 4096)))))))) ∧
  (∀ (s : State) (d : Device) (n c : Nat), (Instr.ingressPassEnd n c).wf = true → s.dev.clocked = true →
    s.dev.atStage c = d → d.isFenced n = true ∨ d.nextEnd n = none → Makes (.ingressPassEnd n c) s fun _ => d) ∧
  (∀ (s : State) (d : Device) (n c : Nat) (x : Flight) (f : Frame), (Instr.stairGrant n c).wf = true →
    s.dev.clocked = true → s.dev.atStage c = d → d.running = true → d.isFenced n = false →
    d.taken n + (d.pkt.flights.filter fun x => x.gal = n ∧ x.phase = .ready ∧ x.ready ≤ d.absCyc).length < 4 →
    d.pkt.flights.find? (d.mayGrant n) = some x → d.frame x.id = some f → f.id = x.id →
    (d.canAdmit 0x01 n 1 1 c x.id = false → Makes (.stairGrant n c) s fun _ =>
      d.allWait 0x01 n (d.mayGrant n)) ∧
    (d.canAdmit 0x01 n 1 1 c x.id = true → d.canAdmit 0x02 n 1 1 c x.id = false → Makes (.stairGrant n c) s fun _ =>
      d.allWait 0x02 n (d.mayGrant n)) ∧
    (d.canAdmit 0x01 n 1 1 c x.id = true → d.canAdmit 0x02 n 1 1 c x.id = true →
      Completes (.stairGrant n c) s fun e => ∃ (g : Device) (y : Flight),
        e = (g.runParse x.id).stairGrow x.id ∧ g.flight x.id = some y ∧ g.taken n = d.taken n + 1 ∧ g.hall = d.hall ∧
        g.frame x.id = some { f with iclass := x.iclass, pass := x.pass + 1 } ∧
        y = { x with
          phase := .parsing, acc := d.absCyc, pass := x.pass + 1, pcfg := d.parseCfg n x.iclass
          start := if x.startOfClass then d.fld (A.PARSE_IC_CFG n x.iclass) F.PARSE_IC_CFG_START else x.start })) ∧
  (∀ (s : State) (n : Nat) (x : Flight), (Instr.stairWaitExpire n).wf = true → s.dev.clocked = true →
    (s.dev.pkt.flights.find? fun x => x.gal = n ∧ x.phase = .stair ∧ x.waited > s.dev.waitMax n) = some x →
    s.dev.isFenced n = false →
    Makes (.stairWaitExpire n) s fun d => (d.count (A.STAIR_STAIR_CNT n 6)).stairDrop x 0x81) ∧
  ∀ (s : State) (n : Nat), (Instr.stairWaitExpire n).wf = true → s.dev.clocked = true →
    (s.dev.pkt.flights.find? fun x => x.gal = n ∧ x.phase = .stair ∧ x.waited > s.dev.waitMax n) = none →
    exec (.stairWaitExpire n) s = .next s

/-- PARSE_BANK_SWITCH_REQ, ACT_WORD_WRITE, ACT_WORD_READ, FFT_ENTRY_EXPIRE and FFT_FLUSH (R119, R130, R149). -/
def Obligations.ParserAndActionAccesses : Prop :=
  (∀ (s : State) (src : Source), s.dev.topReachable src →
    Makes (.parseBankSwitchReq src) s fun d => d.setFld A.TOP_PARSE_BANK F.TOP_PARSE_BANK_SWITCH 1) ∧
  (∀ (s : State) (src : Source) (n st sl ix : Nat), s.dev.reachable src → n < 32 → s.dev.isFenced n = false →
    (∀ g, s.dev.wordsWhole g) → F.MATCH_ACT_ADDR_INDEX.get (s.dev.reg (A.MATCH_ACT_ADDR n)) = ix →
    F.MATCH_ACT_ADDR_STAGE.get (s.dev.reg (A.MATCH_ACT_ADDR n)) = st →
    F.MATCH_ACT_ADDR_SLOT.get (s.dev.reg (A.MATCH_ACT_ADDR n)) = sl →
    (s.dev.slotOpen sl = true → F.MATCH_ACT_ADDR_BCAST.get (s.dev.reg (A.MATCH_ACT_ADDR n)) = 0 →
      Completes (.actWordWrite src n) s fun e =>
        e.pkt = { s.dev.pkt with acts := (tnatSet s.dev.pkt.acts (actKey n st sl ix)
          ((List.range 4).map fun i => (s.dev.reg (A.MATCH_ACT_DATA n i)).toNat * 2 ^ (32 * i)).sum) } ∧
        e.file = s.dev.file ∧ e.gen = s.dev.gen ∧ e.dev = s.dev.dev ∧ e.hall = s.dev.hall) ∧
    (s.dev.slotOpen sl = true → F.MATCH_ACT_ADDR_BCAST.get (s.dev.reg (A.MATCH_ACT_ADDR n)) = 1 →
      tabWf zeroNat s.dev.pkt.acts = true →
      Completes (.actWordWrite src n) s fun e => e.file = s.dev.file ∧ e.gen = s.dev.gen ∧ e.dev = s.dev.dev ∧
        ∀ g, g < 32 → s.dev.isFenced g = false → tnat e.pkt.acts (actKey g st sl ix) =
          ((List.range 4).map fun i => (s.dev.reg (A.MATCH_ACT_DATA n i)).toNat * 2 ^ (32 * i)).sum) ∧
    (s.dev.slotOpen sl = false → Makes (.actWordWrite src n) s fun d => d.refuse src (A.MATCH_ACT_CMD n)) ∧
    (tabWf regReset s.dev.file.regs = true → Completes (.actWordRead src n) s fun e =>
      (∀ i, i < 4 → e.reg (A.MATCH_ACT_DATA n i) =
        BitVec.ofNat 32 (bitsOf (tnat s.dev.pkt.acts (actKey n st sl ix)) (32 * i) 32)) ∧
      e.pkt = s.dev.pkt ∧ e.gen = s.dev.gen ∧ e.dev = s.dev.dev)) ∧
  (∀ (s : State) (ix : Nat), s.dev.clocked = true → ix < 4096 →
    Makes (.fftEntryExpire ix) s fun d => d.setFft ix ((d.fftSet ix).filter fun e => !d.matured e.dies)) ∧
  ∀ (s : State) (src : Source) (w : Word), s.dev.reachable src →
    Completes (.fftFlush src w) s fun e => e.fft = { s.dev.fft with flush := true } ∧ e.pkt = s.dev.pkt ∧ e.dev = s.dev.dev

/-- EGRESS_SELECT and EGRESS_FIRST_BYTE (R98, R206 to R208, R214, R219, R244). `g` is the device once each queue of a gated port
has dropped the heads that no window holds. -/
def Obligations.EgressBegins : Prop :=
  (∀ (s : State) (d g : Device) (p c : Nat), (Instr.egressSelect p c).wf = true → s.dev.clocked = true →
    s.dev.atCyc c = d →
    (if d.gated p then (List.range 16).foldl (fun e k => e.purgeOversize (16 * p + k) d.hall.copies.length) d else d) = g →
    (d.canStart p = false → Makes (.egressSelect p c) s fun _ => d) ∧
    (d.canStart p = true →
      (g.conforms (portBucket p) = false → Makes (.egressSelect p c) s fun _ => g) ∧
      (g.conforms (portBucket p) = true →
        (g.pickQueue p (Device.clockGain g (g.selectLead * g.cycleLen) / 2 ^ 48) = none →
          Makes (.egressSelect p c) s fun _ => g) ∧
        ∀ k q x, g.pickQueue p (Device.clockGain g (g.selectLead * g.cycleLen) / 2 ^ 48) = some (k, q) →
          g.headOf (16 * p + k) = some x →
          (g.aged x = false → Makes (.egressSelect p c) s fun _ =>
            ((g.setDwrr p q).chargeShapers x.uid x.queue (g.headLen x.uid)).startEgress x.uid) ∧
          (g.aged x = true → Makes (.egressSelect p c) s fun _ => (g.dropHead x 0x62).selectOne p
            (Device.clockGain g (g.selectLead * g.cycleLen) / 2 ^ 48) d.hall.copies.length)))) ∧
  (∀ (s : State) (d : Device) (p c lane : Nat) (raw : Int) (x : Copy) (f : Frame),
    (Instr.egressFirstByte p c lane raw).wf = true → s.dev.clocked = true → s.dev.atCyc c = d →
    (d.pkt.sending.any fun e => e.1 = p) = false →
    (d.hall.copies.find? fun c => c.queue / 16 = p ∧ c.phase = .selected ∧ !d.doomed c) = some x →
    d.copy x.uid = some x → d.frame x.frame = some f →
    (x.read = 0 → Makes (.egressFirstByte p c lane raw) s fun _ => d) ∧
    (x.read ≠ 0 →
      (f.ended = true → d.tooLong x f = true →
        Makes (.egressFirstByte p c lane raw) s fun _ => d.dropCopy x.uid 0x23 (p / 32) true none) ∧
      ∀ g sa, f.ended = false ∨ d.tooLong x f = false → d.txLatch p = (g, sa) →
        (∀ code, sa = .lost code →
          Makes (.egressFirstByte p c lane raw) s fun _ => g.dropCopy x.uid code (p / 32) true none) ∧
        ((∀ code, sa ≠ .lost code) → Completes (.egressFirstByte p c lane raw) s fun e =>
          e.pkt.sending = d.pkt.sending ++ [(p, x.uid)] ∧ e.sent = d.sent ∧ ∃ y, e.copy x.uid = some y ∧ y.phase = .sending ∧
            y.queue = x.queue ∧ y.frame = x.frame ∧ y.txCyc = d.absCyc ∧ y.charges = x.charges ∧
            ∀ m, sa = .took m → y.mac = some m))) ∧
  ∀ (s : State) (p c lane : Nat) (raw : Int), (Instr.egressFirstByte p c lane raw).wf = true → s.dev.clocked = true →
    ((s.dev.atCyc c).pkt.sending.any fun e => e.1 = p) = true →
    Makes (.egressFirstByte p c lane raw) s fun d => d.atCyc c

/-- FRAME_TRANSMIT_END, CT_UNDERRUN and CELL_ECC_UNCORRECTABLE (R98, R109, R178 to R180, R216, R248, R277, R389). -/
def Obligations.EgressEnds : Prop :=
  (∀ (s : State) (p : Nat) (c : Copy) (f : Frame), p < 1024 → s.dev.clocked = true → s.dev.sendingOn p = some c →
    s.dev.frame c.frame = some f →
    (s.dev.tooLong c f = true → Makes (.frameTransmitEnd p) s fun d =>
      d.stompKnown c f 0x23 ((d.wireBytes c f).take (d.maxFrame p - 4) ++
        invertBytes (fcsOf ((d.wireBytes c f).take (d.maxFrame p - 4))))) ∧
    (s.dev.tooLong c f = false →
      (f.ended = false ∨ c.read < cellsOf (c.bytesOf f) → exec (.frameTransmitEnd p) s = .next s) ∧
      (f.ended = true → cellsOf (c.bytesOf f) ≤ c.read →
        (s.dev.retagOf c f (c.out f) = .unchecked → Makes (.frameTransmitEnd p) s fun d =>
          d.stompKnown c f 0x70 ((d.wireBytes c f).take ((d.wireBytes c f).length - 4) ++
            invertBytes (fcsOf ((d.wireBytes c f).take ((d.wireBytes c f).length - 4))))) ∧
        (s.dev.retagOf c f (c.out f) ≠ .unchecked → Completes (.frameTransmitEnd p) s fun e => ∃ g h : Device,
          g = (if s.dev.retagOf c f (c.out f) = .none_ then s.dev else s.dev.count (integCnt (p / 32) 11)) ∧
          h = (g.countSent c.queue (s.dev.wireBytes c f).length).send (.frame p (s.dev.wireBytes c f)) ∧
          h.sent = s.dev.sent ++ [.frame p (s.dev.wireBytes c f)] ∧ ∃ k : Device,
          k = h.event (some (p / 32)) 0x4002 (s.dev.wireBytes c f).length (some p)
            (h.evOf f c.pass (c.kind == .mirror || c.kind == .replica)) ∧
          e = ((k.flowCopy c none (some (c.txFree - f.tsFree))).stopSending c.uid).endCopy c.uid)))) ∧
  (∀ (s : State) (p : Nat), p < 1024 → s.dev.clocked = true → s.dev.sendingOn p = none →
    exec (.frameTransmitEnd p) s = .next s ∧ exec (.ctUnderrun p) s = .next s) ∧
  (∀ (s : State) (p : Nat) (c : Copy) (f : Frame), p < 1024 → s.dev.clocked = true → s.dev.sendingOn p = some c →
    s.dev.frame c.frame = some f →
    (c.cut = false ∨ f.ended = true ∨ s.dev.portGb p ≤ s.dev.portGb f.inPort → exec (.ctUnderrun p) s = .next s) ∧
    (c.cut = true → f.ended = false → s.dev.portGb f.inPort < s.dev.portGb p →
      Completes (.ctUnderrun p) s fun e => ∃ g : Device, g = (s.dev.stompOut c).count (hallCnt 4) ∧
        e = ((g.flowCopy c none (some (c.txFree - f.tsFree))).stopSending c.uid).endCopy c.uid)) ∧
  ∀ (s : State) (p : Nat) (c : Copy), p < 1024 → s.dev.clocked = true →
    (s.dev.sendingOn p = some c ∨ (s.dev.sendingOn p = none ∧
      (s.dev.hall.copies.find? fun c => c.queue / 16 = p ∧ c.phase = .selected) = some c)) →
    (c.lastCell = none →
      Makes (.cellEccUncorrectable p) s fun d => (d.count (hallCnt 5)).dropCopy c.uid 0xB1 (p / 32) true none) ∧
    ∀ a, c.lastCell = some a → Makes (.cellEccUncorrectable p) s fun d =>
      ((d.count (hallCnt 5)).dropCopy c.uid 0xB1 (p / 32) true none).rowBad (cellPlace a)

/-- SPILL_MOVE, SPILL_RETURN, BANK_COPY, BANK_REMAP, BANK_LOST, REP_LIST_WRITE and REP_LIST_READ (R38, R180, R188 to R193). `g` is
the device once the billets that the packet needs are asked for. -/
def Obligations.SpillAndBanks : Prop :=
  (∀ (s : State) (g : Device) (n : Nat) (c : Copy) (f : Frame), n < 32 → s.dev.clocked = true → s.dev.nextSpill n = some c →
    s.dev.copy c.uid = some c → s.dev.frame c.frame = some f → f.whole = true →
    ((List.range 32).any fun g => s.dev.returnReady g) = false →
    ((List.range (spillSizes (c.bytesOf f)).length).foldl (fun d k =>
      if d.askedBillet n (spillTag c.uid k) then d
      else d.askBillet n ((spillSizes (c.bytesOf f)).getD k 0) (spillTag c.uid k)) s.dev) = g →
    (∀ a l, f.cells = a :: l → Makes (.spillMove n true) s fun d => d.cellLost a) ∧
    ∀ ptrs, ((List.range (spillSizes (c.bytesOf f)).length).filterMap fun k => g.grantedFor n (spillTag c.uid k)) = ptrs →
      (ptrs.length < (spillSizes (c.bytesOf f)).length → Makes (.spillMove n false) s fun _ => g) ∧
      (ptrs.length = (spillSizes (c.bytesOf f)).length → ∀ h whole,
        g.inPieces 0x06 (2 * n) (spillUnits (c.bytesOf f)) c.uid = (h, whole) →
        (whole = false → Makes (.spillMove n false) s fun _ => h) ∧
        (whole = true → Completes (.spillMove n false) s fun e =>
          (∃ y, e.copy c.uid = some y ∧ y.seg = .middle ∧ y.billets = ptrs ∧ y.charges = [] ∧ y.queue = c.queue) ∧
          (e.queueSt c.queue).lhPkts = (s.dev.queueSt c.queue).lhPkts + 1 ∧
          (e.queueSt c.queue).lhBytes = (s.dev.queueSt c.queue).lhBytes + spillBytes (c.bytesOf f) ∧ e.sent = s.dev.sent))) ∧
  (∀ (s : State) (g : Device) (n : Nat) (bad whole : Bool) (c : Copy) (f : Frame), n < 32 → s.dev.clocked = true →
    s.dev.nextReturn n = some (c, f) → s.dev.copy c.uid = some c →
    s.dev.inPieces 0x06 (2 * n + 1) (spillUnits (c.bytesOf f)) c.uid = (g, whole) →
    (s.dev.hall.free < cellsOf (c.bytesOf f) → exec (.spillReturn n bad) s = .next s) ∧
    (cellsOf (c.bytesOf f) ≤ s.dev.hall.free →
      (s.dev.canAdmit 0x04 n (cellsOf (c.bytesOf f)) 1 s.dev.stroke.cyc c.uid = false →
        Makes (.spillReturn n bad) s fun d => d.mustWait 0x04 n c.uid (cellsOf (c.bytesOf f))) ∧
      (s.dev.canAdmit 0x04 n (cellsOf (c.bytesOf f)) 1 s.dev.stroke.cyc c.uid = true →
        (whole = false → Makes (.spillReturn n bad) s fun _ => g) ∧
        (whole = true → bad = true → Makes (.spillReturn n bad) s fun _ =>
          (g.event none 0x8003 (spillUnits (c.bytesOf f)) (c.billets.head?.map lhAttr) {}).dropCopy c.uid 0xB1 n true none) ∧
        (whole = true → bad = false → Completes (.spillReturn n bad) s fun e => e.sent = s.dev.sent ∧
          ∃ y, e.copy c.uid = some y ∧ y.seg = .head ∧ y.billets = [] ∧ y.queue = c.queue ∧
            y.charges = [(.qShared, cellsOf (c.bytesOf f))])))) ∧
  (∀ (s : State) (k : BankCopy) (bad : Bool), s.dev.clocked = true → s.dev.hall.copying = some k →
    (k.todo.filter s.dev.cellLive = [] → Makes (.bankCopy bad) s fun d =>
      { d with hall := { d.hall with copying := some { k with todo := [] } } }) ∧
    ∀ a l m, k.todo.filter s.dev.cellLive = a :: l → m = (if bad then 1 else min 4 (l.length + 1)) →
      (s.dev.canAdmit 0x11 0 m 1 s.dev.stroke.cyc (bankTag k.bank) = false → Makes (.bankCopy bad) s fun d =>
        ({ d with hall := { d.hall with copying := some { k with todo := a :: l } } }).mustWait 0x11 0 (bankTag k.bank) m) ∧
      (s.dev.canAdmit 0x11 0 m 1 s.dev.stroke.cyc (bankTag k.bank) = true → Completes (.bankCopy bad) s fun e => ∃ g : Device,
        g.hall = { s.dev.hall with copying := some { k with todo := (a :: l).drop m, last := s.dev.strokeNo } } ∧
        g.pkt = s.dev.pkt ∧ e = if bad then g.cellLost a else g.countN (hallCnt 10) m)) ∧
  (∀ (s : State) (k : BankCopy), s.dev.clocked = true → s.dev.hall.copying = some k → k.todo.filter s.dev.cellLive = [] →
    k.last < s.dev.strokeNo → s.dev.stroke.cyc = 0 → k.spare ≠ 0 →
    Completes .bankRemap s fun e => tnat e.hall.bankMap k.bank = k.spare ∧ e.hall.sparesUsed = s.dev.hall.sparesUsed + 1 ∧
      (s.dev.hall.bankQueue = [] → e.hall.copying = none) ∧
      (∀ b l, s.dev.hall.bankQueue = b :: l → e.hall.bankQueue = l ∧ (e.hall.copying.map (·.bank)) = some b)) ∧
  (∀ (s : State) (b : Nat), s.dev.clocked = true → s.dev.stroke.cyc = 0 →
    (s.dev.hall.bankDrain.find? fun b => (s.dev.bankCells b).isEmpty ∧ tnat s.dev.hall.bankMap b ≠ 0xFFFF) = some b →
    Makes .bankLost s fun d =>
      (({ d with hall := { d.hall with bankMap := tnatSet d.hall.bankMap b 0xFFFF } }).resizeShared
        (d.hall.sharedTotal - 1024)).raise 0x90000 1) ∧
  ∀ (s : State) (src : Source) (l w : Nat), s.dev.reachable src → F.HALL_REP_ADDR_LIST.get (s.dev.reg A.HALL_REP_ADDR) = l →
    F.HALL_REP_ADDR_WORD.get (s.dev.reg A.HALL_REP_ADDR) = w →
    (w ≤ 32 →
      (Makes (.repListWrite src) s fun d => { d with hall := { d.hall with
        replNew := (assocSet d.hall.replNew (64 * l + w)
          (if w = 32 then (d.reg A.HALL_REP_DATA).toNat % 2 else (d.reg A.HALL_REP_DATA).toNat)) } }) ∧
      Makes (.repListRead src) s fun d => d.setReg A.HALL_REP_DATA
        (BitVec.ofNat 32 ((assoc d.hall.replNew (64 * l + w)).getD (tnat d.hall.repl (64 * l + w))))) ∧
    (32 < w → (Makes (.repListWrite src) s fun d => d.refuse src A.HALL_REP_CMD) ∧
      Makes (.repListRead src) s fun d => d.refuse src A.HALL_REP_CMD)

/-- BILLET_GRANT, BILLET_FREE, BILLET_CACHE_REFILL and BILLET_CACHE_WRITEBACK (R196, R198 to R201). -/
def Obligations.Billets : Prop :=
  (∀ (s : State) (p r ptr : Nat) (cache : List Nat) (w : Nat × Nat), s.dev.clocked = true → p < 4 →
    s.dev.billet.pools.length = 4 → (s.dev.pool p).cache = ptr :: cache →
    rotateTo (s.dev.pool p).rot (((s.dev.pool p).waiting.map (·.1) ++
      ((s.dev.billet.jobs.filter fun j => j.pool = p).map (·.req))).filter fun r => s.dev.billetEligible (ownerOf r) p 1) = some r →
    ((s.dev.pool p).waiting.find? fun w => w.1 = r) = some w →
    Completes (.billetGrant p) s fun e => e = (s.dev.grantOne p).countWaits p ∧ (e.pool p).cache = cache ∧
      (e.pool p).waiting = (s.dev.pool p).waiting.erase w ∧ (e.pool p).rot = (r + 1) % 100 ∧
      e.billet.granted = s.dev.billet.granted ++ [(r, w.2, ptr)] ∧ tnat e.billet.out ptr = 1 + r ∧
      e.ownHeld (ownerOf r) p = s.dev.ownHeld (ownerOf r) p + 1) ∧
  (∀ (s : State) (p r ptr : Nat) (cache : List Nat), s.dev.clocked = true → p < 4 →
    s.dev.billet.pools.length = 4 → (s.dev.pool p).cache = ptr :: cache →
    rotateTo (s.dev.pool p).rot (((s.dev.pool p).waiting.map (·.1) ++
      ((s.dev.billet.jobs.filter fun j => j.pool = p).map (·.req))).filter fun r => s.dev.billetEligible (ownerOf r) p 1) = some r →
    ((s.dev.pool p).waiting.find? fun w => w.1 = r) = none →
    Makes (.billetGrant p) s fun d => ((d.grantTo p r ptr cache).jobGrant r).countWaits p) ∧
  (∀ (s : State) (p : Nat), s.dev.clocked = true → p < 4 →
    (s.dev.pool p).cache = [] ∨ rotateTo (s.dev.pool p).rot (((s.dev.pool p).waiting.map (·.1) ++
      ((s.dev.billet.jobs.filter fun j => j.pool = p).map (·.req))).filter fun r =>
        s.dev.billetEligible (ownerOf r) p 1) = none →
    Makes (.billetGrant p) s fun d => d.countWaits p) ∧
  (∀ (s : State) (g : Device) (p r : Nat) (f : Nat × Nat), s.dev.clocked = true → p < 4 → s.dev.billet.pools.length = 4 →
    (s.dev.pool p).cache.length < 512 →
    rotateTo (s.dev.pool p).freeRot ((s.dev.billet.freeing.filter fun f => ptrPool f.2 = p).map (·.1)) = some r →
    ((s.dev.billet.freeing.filter fun f => ptrPool f.2 = p).find? fun f => f.1 = r) = some f →
    ({ s.dev with billet := { s.dev.billet with freeing := s.dev.billet.freeing.erase f } }).setPool p
      { s.dev.pool p with freeRot := (r + 1) % 100 } = g →
    (s.dev.ptrOk f.2 = false → Makes (.billetFree p) s fun _ => g.billetErr f.2 r 1) ∧
    (s.dev.ptrOk f.2 = true → tnat s.dev.billet.out f.2 = 0 → Makes (.billetFree p) s fun _ => g.billetErr f.2 r 2) ∧
    (s.dev.ptrOk f.2 = true → tnat s.dev.billet.out f.2 ≠ 0 →
      (s.dev.billet.quarantined.contains f.2 = true →
        Makes (.billetFree p) s fun _ => g.subHeld (ownerOf r) p 1) ∧
      (s.dev.billet.quarantined.contains f.2 = false → tabWf zeroNat s.dev.billet.out = true →
        Completes (.billetFree p) s fun e => (e.pool p).cache = (s.dev.pool p).cache ++ [f.2] ∧ tnat e.billet.out f.2 = 0 ∧
          e.billet.freeing = s.dev.billet.freeing.erase f ∧ e.file = s.dev.file))) ∧
  (∀ (s : State) (p : Nat), s.dev.clocked = true → p < 4 →
    512 ≤ (s.dev.pool p).cache.length → exec (.billetFree p) s = .next s) ∧
  (∀ (s : State) (p : Nat), s.dev.clocked = true → p < 4 →
    (128 ≤ (s.dev.pool p).cache.length ∨ (s.dev.pool p).ringCount = 0 → exec (.billetCacheRefill p) s = .next s) ∧
    ((s.dev.pool p).cache.length < 128 → (s.dev.pool p).ringCount ≠ 0 →
      (s.dev.canAdmit 0x12 0 4 1 s.dev.stroke.cyc (cacheTag p false) = true → Makes (.billetCacheRefill p) s fun d =>
        ((d.spend 0x12 0 4 (cacheTag p false)).lhMoved 4 none).refill p 64) ∧
      (s.dev.canAdmit 0x12 0 4 1 s.dev.stroke.cyc (cacheTag p false) = false → Makes (.billetCacheRefill p) s fun d =>
        d.mustWait 0x12 0 (cacheTag p false) 4))) ∧
  ∀ (s : State) (p : Nat), s.dev.clocked = true → p < 4 → s.dev.billet.pools.length = 4 →
    ((s.dev.pool p).cache.length ≤ 448 → exec (.billetCacheWriteback p) s = .next s) ∧
    (448 < (s.dev.pool p).cache.length →
      (s.dev.canAdmit 0x12 0 4 1 s.dev.stroke.cyc (cacheTag p true) = true → Completes (.billetCacheWriteback p) s fun e =>
        (e.pool p).cache = (s.dev.pool p).cache.drop 64 ∧
        (e.pool p).ring = (s.dev.pool p).ring ++ (s.dev.pool p).cache.take 64 ∧ (e.pool p).free = (s.dev.pool p).free) ∧
      (s.dev.canAdmit 0x12 0 4 1 s.dev.stroke.cyc (cacheTag p true) = false → Makes (.billetCacheWriteback p) s fun d =>
        d.mustWait 0x12 0 (cacheTag p true) 4))

/-- GATE_COMMIT, GATE_LIST_TAKEOVER and GATE_EDGE (R217, R219 to R221, R225). -/
def Obligations.GateLists : Prop :=
  (∀ (s : State) (src : Source) (p : Nat) (w : Word) (len cycle ns sec : Nat), s.dev.reachable src → p < 1024 →
    s.dev.isFenced (p / 32) = false → s.dev.wordsWhole (p / 32) →
    F.GATE_GT_CTRL_LEN.get w = len → F.GATE_GT_CYCLE_CYCLE.get (s.dev.reg (ofPort A.GATE_GT_CYCLE p)) = cycle →
    F.GATE_GT_BASE_NS_NS.get (s.dev.reg (ofPort A.GATE_GT_BASE_NS p)) = ns →
    s.dev.pair (ofPort A.GATE_GT_BASE_SEC_LO p) (ofPort A.GATE_GT_BASE_SEC_HI p) % 2 ^ 48 = sec →
    (s.dev.gateSt p).pending = false → tabWf regReset s.dev.file.regs = true →
    Completes (.gateCommit src p w) s fun e =>
      (len = 0 ∨ 64 < len ∨ cycle < 1000 ∨ 1000000000 < cycle ∨ 1000000000 ≤ ns ∨
          ((s.dev.gateEntries p (1 - (s.dev.gateSt p).bank) (min len 64)).any fun e => e.2 < 8) = true →
        e.gateSt p = { s.dev.gateSt p with commitBad := true }) ∧
      (0 < len → len ≤ 64 → 1000 ≤ cycle → cycle ≤ 1000000000 → ns < 1000000000 →
        ((s.dev.gateEntries p (1 - (s.dev.gateSt p).bank) len).any fun e => e.2 < 8) = false →
        e.gateSt p = { s.dev.gateSt p with
          pending := true
          pendLen := len
          pendCycle := cycle
          pendBase := secT sec + nsT ns
          takeAt := if s.dev.clockNow ≤ secT sec + nsT ns then secT sec + nsT ns
            else secT sec + nsT ns + ceilDiv (s.dev.clockNow - (secT sec + nsT ns)) (nsT cycle) * nsT cycle })) ∧
  (∀ (s : State) (src : Source) (p : Nat) (w : Word), s.dev.reachable src → p < 1024 → s.dev.isFenced (p / 32) = false →
    s.dev.wordsWhole (p / 32) → (s.dev.gateSt p).pending = true →
    Completes (.gateCommit src p w) s fun e => e.sched = s.dev.sched) ∧
  (∀ (s : State) (p c : Nat) (q : GateSt), (Instr.gateListTakeover p c).wf = true → s.dev.clocked = true → s.dev.gateSt p = q →
    (q.pending = false ∨ (s.dev.atCyc c).clockNow < q.takeAt → Makes (.gateListTakeover p c) s fun d => d.atCyc c) ∧
    (q.pending = true → q.takeAt ≤ (s.dev.atCyc c).clockNow → tabWf (fun _ => ({} : GateSt)) s.dev.sched.gates = true →
      Completes (.gateListTakeover p c) s fun e => (e.gateSt p).pending = false ∧ (e.gateSt p).bank = 1 - q.bank ∧
        (e.gateSt p).len = q.pendLen ∧ (e.gateSt p).cycle = q.pendCycle ∧ (e.gateSt p).base = q.pendBase ∧
        (∀ k, k ≠ p → e.gateSt k = s.dev.gateSt k) ∧ ((s.dev.atCyc c).sendingOn p = none → (e.gateSt p).overrun = q.overrun))) ∧
  ∀ (s : State) (d : Device) (p c : Nat), (Instr.gateEdge p c).wf = true → s.dev.clocked = true → s.dev.atCyc c = d →
    ((d.gateSt p).len = 0 → Makes (.gateEdge p c) s fun _ => d) ∧
    ((d.gateSt p).len ≠ 0 → Makes (.gateEdge p c) s fun _ =>
      d.setGate p { d.gateSt p with gates := d.gatesAt p d.clockNow })

/-- CLOCK_STEP_SET, CLOCK_STEP_ADD, CLOCK_STEP_DONE, EXT10M_LOST and EXT10M_RESTORED (R255, R257, R273, R409). -/
def Obligations.ClockSteps : Prop :=
  (∀ (s : State) (src : Source), s.dev.reachable src →
    (s.dev.clock.stepBusy = none →
      (Makes (.clockStepSet src) s fun d => { d with clock := { d.clock with stepBusy := some true } }) ∧
      Makes (.clockStepAdd src) s fun d => { d with clock := { d.clock with stepBusy := some false } }) ∧
    (s.dev.clock.stepBusy.isSome = true →
      (Makes (.clockStepSet src) s fun d => d.refuse src A.TIME_STEP_CTRL) ∧
      Makes (.clockStepAdd src) s fun d => d.refuse src A.TIME_STEP_CTRL)) ∧
  (∀ (s : State) (d g : Device) (c : Nat), c < 256 → s.dev.clocked = true → s.dev.atCyc c = d →
    { d with clock := { d.clock with stepBusy := none } } = g →
    (d.clock.stepBusy = none → Makes (.clockStepDone c) s fun _ => d) ∧
    (d.clock.stepBusy = some true → Completes (.clockStepDone c) s fun e =>
      e = g.stepClock d.stepValue ∧ e.clockExact = d.stepValue % clockWrap ∧ e.clock.stepBusy = none ∧
        e.clock.stepFree = d.clock.stepFree) ∧
    (d.clock.stepBusy = some false → F.TIME_STEP_NS_NEG.get (d.cfg A.TIME_STEP_NS) ≠ 1 →
      Completes (.clockStepDone c) s fun e => e = g.stepClock (d.clockExact + d.stepValue) ∧
        e.clockExact = (d.clockExact + d.stepValue) % clockWrap ∧ e.clock.stepBusy = none ∧
        e.clock.stepFree = d.clock.stepFree) ∧
    (d.clock.stepBusy = some false → F.TIME_STEP_NS_NEG.get (d.cfg A.TIME_STEP_NS) = 1 →
      Completes (.clockStepDone c) s fun e => e = g.stepClock (d.clockExact + clockWrap - d.stepValue % clockWrap) ∧
        e.clock.stepBusy = none ∧ e.clock.stepFree = d.clock.stepFree)) ∧
  (∀ (s : State) (c : Nat), c < 256 → s.dev.clocked = false → s.dev.dev.state ≠ .reset ∨ s.dev.boot.wasWarm = false →
    (Makes (.ext10mLost c) s fun d => { d with clock := { d.clock with ext10m := false } }) ∧
    Makes (.ext10mRestored c) s fun d => { d with clock := { d.clock with ext10m := true } }) ∧
  ∀ (s : State) (d g : Device) (c : Nat), c < 256 → s.dev.clocked = true ∨ (s.dev.dev.state = .reset ∧ s.dev.boot.wasWarm = true) →
    s.dev.atCyc c = d → { d with clock := { d.clock with ext10m := false } } = g →
    (Makes (.ext10mRestored c) s fun _ => { d with clock := { d.clock with ext10m := true } }) ∧
    (F.TIME_CLK_CFG_SRC.get (d.reg A.TIME_CLK_CFG) = 0 → Makes (.ext10mLost c) s fun _ => g) ∧
    (F.TIME_CLK_CFG_SRC.get (d.reg A.TIME_CLK_CFG) ≠ 0 →
      (F.TIME_CLK_CFG_AUTO_FALLBACK.get (d.reg A.TIME_CLK_CFG) ≠ 1 → Makes (.ext10mLost c) s fun _ => g.raise 0x30000 8) ∧
      (F.TIME_CLK_CFG_AUTO_FALLBACK.get (d.reg A.TIME_CLK_CFG) = 1 → Completes (.ext10mLost c) s fun e =>
        e.clock = { d.clock with ext10m := false, srcExt := false } ∧ e.servo = d.servo ∧
        (tabWf regReset d.file.regs = true →
          e.reg A.TIME_CLK_CFG = F.TIME_CLK_CFG_SRC.put (d.reg A.TIME_CLK_CFG) 0)))

/-- LEDGER_RECORD, LEDGER_COPY and LEDGER_COPY_DONE (R38, R273 to R275). -/
def Obligations.TimeLedger : Prop :=
  (∀ (s : State) (d : Device) (c sec : Nat), c < 256 → s.dev.clocked = true → s.dev.atCyc c = d → clkSec d.clockNow = sec →
    (sec = d.ledger.lastSec → Makes (.ledgerRecord c) s fun _ => d) ∧
    (sec ≠ d.ledger.lastSec →
      (F.TIME_LEDGER_CTRL_EN.get (d.cfg A.TIME_LEDGER_CTRL) = 0 → Makes (.ledgerRecord c) s fun _ =>
        { d with ledger := { d.ledger with lastSec := sec } }) ∧
      (F.TIME_LEDGER_CTRL_EN.get (d.cfg A.TIME_LEDGER_CTRL) ≠ 0 → d.ledger.granted = false ∨ d.seqOn 15 = false →
        Completes (.ledgerRecord c) s fun e => e.ledger = { d.ledger with lastSec := sec } ∧ e.budget = d.budget) ∧
      (F.TIME_LEDGER_CTRL_EN.get (d.cfg A.TIME_LEDGER_CTRL) ≠ 0 → d.ledger.granted = true → d.seqOn 15 = true →
        d.allFenced = false → ∀ seq bs, seq = d.ledger.seq → bs = d.ledgerBytes seq sec 0 (d.keySlot (devSlot 0)).mat →
        (d.canAdmit 0x0A 0 1 1 d.stroke.cyc seq = false → Completes (.ledgerRecord c) s fun e => e.ledger = { d.ledger with
          seq := (seq + 1) % 2 ^ 64
          stepped := false
          madeAt := some d.absCyc
          lastSec := sec
          waits := d.ledger.waits ++ [(seq, bs)] }) ∧
        (d.canAdmit 0x0A 0 1 1 d.stroke.cyc seq = true → Completes (.ledgerRecord c) s fun e =>
          e.ledger.seq = (seq + 1) % 2 ^ 64 ∧ e.ledger.stepped = false ∧ e.ledger.lastSec = sec ∧
          e.ledger.waits = d.ledger.waits ∧ tabGet (fun _ => ([] : Bytes)) e.ledger.ring (seq % 2 ^ 20) = bs)))) ∧
  (∀ (s : State) (src : Source) (w : Word), s.dev.reachable src → tabWf regReset s.dev.file.regs = true →
    (s.dev.ledger.copyBusy = false → Completes (.ledgerCopy src w) s fun e =>
      e.ledger = { s.dev.ledger with
        copyBusy := true
        copied := 0
        copyClass := e.ledger.copyClass
        copyFrom := s.dev.pair A.TIME_COPY_FROM_LO A.TIME_COPY_FROM_HI
        copyCount := F.TIME_COPY_COUNT_COUNT.get (s.dev.cfg A.TIME_COPY_COUNT)
        copyAddr := s.dev.pair A.TIME_COPY_ADDR_LO A.TIME_COPY_ADDR_HI } ∧ e.dev = s.dev.dev ∧ e.sent = s.dev.sent) ∧
    (s.dev.ledger.copyBusy = true → Completes (.ledgerCopy src w) s fun e => e.ledger = s.dev.ledger ∧ ∃ g : Device,
      g = s.dev.setReg A.TIME_LEDGER_CTRL
        (F.TIME_LEDGER_CTRL_COPY.put (F.TIME_LEDGER_CTRL_COPY_BUSY.put (F.TIME_LEDGER_CTRL_COPY.put w 1 &&& 0x7F#32) 0) 0) ∧
      e = g.refuse src A.TIME_LEDGER_CTRL)) ∧
  ∀ (s : State) (g : Device), s.dev.clocked = true →
    s.dev.copyRecords (min (s.dev.ledger.copyCount - s.dev.ledger.copied)
      (s.dev.budgetFor 0x0E s.dev.ledger.copyClass 4000000 / 64)) = g →
    (s.dev.ledger.copyBusy = false → exec .ledgerCopyDone s = .next s) ∧
    (s.dev.ledger.copyBusy = true →
      (g.ledger.copied < g.ledger.copyCount →
        Makes .ledgerCopyDone s fun _ => g.mustWait 0x0E g.ledger.copyClass 4000000 64) ∧
      (g.ledger.copyCount ≤ g.ledger.copied →
        Makes .ledgerCopyDone s fun _ => ({ g with ledger := { g.ledger with copyBusy := false } }).raise 0x30000 9))

/-- SYNC_SEND, DELAY_RESP_SEND, DELAY_REQ_SEND, DELAY_RESP_RECEIVE, SYNC_RECEIVE_SAMPLE, FOLLOW_UP_RECEIVE, SERVO_LOSS_TIMEOUT and
DELAY_RESP_MISSED (R41, R42, R264 to R267). -/
def Obligations.PtpAndServo : Prop :=
  (∀ (s : State) (d : Device) (p c : Nat), (Instr.syncSend p c).wf = true → s.dev.clocked = true → s.dev.atCyc c = d →
    (d.tsCfg p F.TSU_TS_CFG_ROLE ≠ 1 ∨ d.tsuReady p 0 = false → Makes (.syncSend p c) s fun _ => d) ∧
    (d.tsCfg p F.TSU_TS_CFG_ROLE = 1 → d.tsuReady p 0 = true →
      (∀ t, (d.tsuSt p).syncNext = some t → d.freeAtStart < t → Makes (.syncSend p c) s fun _ => d) ∧
      ((∀ t, (d.tsuSt p).syncNext = some t → t ≤ d.freeAtStart) → Completes (.syncSend p c) s fun e =>
        ∃ (g : Device) (bs : Bytes), e = (g.tsuQueue p bs (some (d.tsuTpl (p / 32) 0).2.1)).1.count (tsuCnt (p / 32) 2) ∧
          (g.tsuSt p).seqSync = ((d.tsuSt p).seqSync + 1) % 65536 ∧
          (g.tsuSt p).syncNext = some ((d.tsuSt p).syncNext.getD d.stepFreeNow + logTime (d.tsCfg p F.TSU_TS_CFG_SYNC_LOG)) ∧
          g.hall = d.hall ∧ g.file = d.file ∧
          (F.TSU_TPL_CFG_TLV_FILL.get (d.cfg (A.TSU_TPL_CFG (p / 32) 0)) ≠ 1 →
            bs = d.tsuFill p (d.tsuSt p).seqSync (d.tsuTpl (p / 32) 0) fun b => b)))) ∧
  (∀ (s : State) (d g : Device) (p c lane : Nat) (raw : Int) (m : PtpMsg) (t4 fr : Nat),
    (Instr.delayRespSend p c lane raw m).wf = true → s.dev.clocked = true → s.dev.atCyc c = d →
    d.stampAt p lane raw true = (t4, fr, g) →
    (d.tsCfg p F.TSU_TS_CFG_ROLE ≠ 1 ∨ d.tsuReady p 2 = false ∨ d.receives p = false ∨
        byteAt (d.tsuTpl (p / 32) 2).1 ((d.tsuTpl (p / 32) 2).2.1 + 4) ≠ m.domain.toNat →
      Makes (.delayRespSend p c lane raw m) s fun _ => d) ∧
    (d.tsCfg p F.TSU_TS_CFG_ROLE = 1 → d.tsuReady p 2 = true → d.receives p = true →
      byteAt (d.tsuTpl (p / 32) 2).1 ((d.tsuTpl (p / 32) 2).2.1 + 4) = m.domain.toNat →
      ∀ o, (d.tsuTpl (p / 32) 2).2.1 = o → Makes (.delayRespSend p c lane raw m) s fun _ =>
        (g.tsuQueue p (g.tsuFill p m.seq.toNat (d.tsuTpl (p / 32) 2) fun bs =>
          patchBytes (patchBytes (patchBytes (patchBytes bs (o + 8) (beBytes 8 m.correction.toNat)) (o + 34)
            (beBytes 6 (clkSec t4))) (o + 40) (beBytes 4 (clkNs t4))) (o + 44)
            (beBytes 8 m.srcId.toNat ++ beBytes 2 m.srcPort.toNat)) none).1.count (tsuCnt (p / 32) 3))) ∧
  (∀ (s : State) (d : Device) (p c : Nat), c < 256 → s.dev.clocked = true → s.dev.atCyc c = d →
    d.srvCtl F.TIME_SERVO_CTRL_SRC_PORT = p → d.srvPort p = true → d.srvCtl F.TIME_SERVO_CTRL_DELAY_MODE = 0 →
    d.seqOn 13 = true → d.tsuReady p 1 = true →
    (∀ t, (d.tsuSt p).dreqNext = some t → d.freeAtStart < t → Makes (.delayReqSend c) s fun _ => d) ∧
    ((∀ t, (d.tsuSt p).dreqNext = some t → t ≤ d.freeAtStart) → Completes (.delayReqSend c) s fun e =>
      (∃ q, e.servo.dreqs = d.servo.dreqs ++ [q] ∧ q.seq = (d.tsuSt p).seqDreq ∧ q.since = d.stepFreeNow ∧ q.t3 = none) ∧
      (e.tsuSt p).seqDreq = ((d.tsuSt p).seqDreq + 1) % 65536 ∧
      (e.tsuSt p).dreqNext = some ((d.tsuSt p).dreqNext.getD d.stepFreeNow + logTime (d.srvCtl F.TIME_SERVO_CTRL_DREQ_LOG)))) ∧
  (∀ (s : State) (d : Device) (p c : Nat) (m : PtpMsg) (q : DreqOpen), (Instr.delayRespReceive p c m).wf = true →
    s.dev.clocked = true → s.dev.atCyc c = d → d.fromSource p m = true →
    m.reqId.toNat * 65536 + m.reqPort.toNat = d.ptpIdentity p →
    (d.servo.dreqs.find? fun q => q.seq = m.seq.toNat ∧ q.t3.isSome ∧ d.freeAtStart < q.since + secT 1) = some q →
    Completes (.delayRespReceive p c m) s fun e => e.servo.dreqs = d.servo.dreqs.filter (fun x => x ≠ q) ∧
      (d.servo.lastForward = none → e.servo.delayM = d.servo.delayM) ∧
      ∀ t3 fwd, q.t3 = some t3 → d.servo.lastForward = some fwd → ∃ v g,
        ({ d with servo := { d.servo with dreqs := d.servo.dreqs.filter fun x => x ≠ q } }).roundDiv
          (fwd + (ptpTime m - t3 - ptpCorr m)) 2 = (v, g) ∧ e = { g with servo := { g.servo with delayM := some v } }) ∧
  (∀ (s : State) (d g : Device) (p c lane : Nat) (raw : Int) (m : PtpMsg) (t2 fr : Nat),
    (Instr.syncReceiveSample p c lane raw m).wf = true → s.dev.clocked = true → s.dev.atCyc c = d →
    d.stampAt p lane raw true = (t2, fr, g) →
    (d.fromSource p m = false → Makes (.syncReceiveSample p c lane raw m) s fun _ => d) ∧
    (d.fromSource p m = true → m.twoStep = true → Makes (.syncReceiveSample p c lane raw m) s fun _ =>
      { g with servo := { g.servo with
        cumRate := signed m.rateOfs.toNat 32
        syncOpen := some (m.seq.toNat, Int.ofNat t2, ptpCorr m, g.stepFreeNow) } }) ∧
    (d.fromSource p m = true → m.twoStep = false → Makes (.syncReceiveSample p c lane raw m) s fun _ =>
      ({ g with servo := { g.servo with cumRate := signed m.rateOfs.toNat 32, syncOpen := none } }).syncSample p
        (Int.ofNat t2 - ptpTime m - ptpCorr m))) ∧
  (∀ (s : State) (d : Device) (p c : Nat) (m : PtpMsg) (seq at_ : Nat) (t2 cs : Int), (Instr.followUpReceive p c m).wf = true →
    s.dev.clocked = true → s.dev.atCyc c = d → d.servo.syncOpen = some (seq, t2, cs, at_) →
    (d.fromSource p m = false ∨ d.seqOn 13 = false ∨ m.seq.toNat ≠ seq ∨ at_ + secT 1 ≤ d.freeAtStart →
      Makes (.followUpReceive p c m) s fun _ => d) ∧
    (d.fromSource p m = true → d.seqOn 13 = true → m.seq.toNat = seq → d.freeAtStart < at_ + secT 1 →
      Makes (.followUpReceive p c m) s fun _ =>
        ({ d with servo := { d.servo with syncOpen := none, cumRate := signed m.rateOfs.toNat 32 } }).syncSample p
          (t2 - ptpTime m - (cs + ptpCorr m)))) ∧
  (∀ s : State, s.dev.clocked = true →
    (s.dev.freeAtStart < s.dev.servo.lossFrom + secT (max 1 (F.TIME_SERVO_THRESH_LOSS_S.get (s.dev.reg A.TIME_SERVO_THRESH))) →
      exec .servoLossTimeout s = .next s) ∧
    (s.dev.servo.lossFrom + secT (max 1 (F.TIME_SERVO_THRESH_LOSS_S.get (s.dev.reg A.TIME_SERVO_THRESH))) ≤ s.dev.freeAtStart →
      (s.dev.servo.state = .locked → Completes .servoLossTimeout s fun e => e.servo.state = .holdover ∧ e.dev = s.dev.dev) ∧
      (s.dev.servo.state = .acquiring → s.dev.servo.everLocked = true →
        Completes .servoLossTimeout s fun e => e.servo.state = .holdover ∧ e.dev = s.dev.dev) ∧
      (s.dev.servo.state = .acquiring → s.dev.servo.everLocked = false →
        Completes .servoLossTimeout s fun e => e.servo.state = .free ∧ e.clock = s.dev.clock) ∧
      (s.dev.servo.state = .free ∨ s.dev.servo.state = .holdover → exec .servoLossTimeout s = .next s))) ∧
  ∀ s : State, s.dev.clocked = true →
    ((s.dev.servo.dreqs.find? fun q => q.since + secT 1 ≤ s.dev.freeAtStart) = none → exec .delayRespMissed s = .next s) ∧
    ∀ q, (s.dev.servo.dreqs.find? fun q => q.since + secT 1 ≤ s.dev.freeAtStart) = some q → Makes .delayRespMissed s fun d =>
      ({ d with servo := { d.servo with dreqs := d.servo.dreqs.filter fun x => x ≠ q } }).count (A.TIME_SRV_CNT 3)

/-- PPS_IN_EDGE, TIME_EVT_EDGE, PPS_OUT_EDGE, TRIGGER_ENABLE and TRIGGER_PULSE (R266, R271, R272). -/
def Obligations.PulsesAndCaptures : Prop :=
  (∀ (s : State) (d g : Device) (k c raw : Nat), (Instr.ppsInEdge k c raw).wf = true → s.dev.clocked = true → s.dev.atCyc c = d →
    ({ d with pulse := { d.pulse with ppsIn := d.pulse.ppsIn.set k (some ⟨true, d.edgeTime raw⟩) } }).raise 0x30000 (2 + k) = g →
    (g.srvCtl F.TIME_SERVO_CTRL_EN ≠ 1 ∨ g.srvCtl F.TIME_SERVO_CTRL_SRC_KIND ≠ 2 + k ∨ g.seqOn 12 = false →
      Makes (.ppsInEdge k c raw) s fun _ => g) ∧
    (g.srvCtl F.TIME_SERVO_CTRL_EN = 1 → g.srvCtl F.TIME_SERVO_CTRL_SRC_KIND = 2 + k → g.seqOn 12 = true →
      ∀ o h, g.ppsOffset (d.edgeTime raw) = (o, h) → Makes (.ppsInEdge k c raw) s fun _ => h.servoSample o 0)) ∧
  (∀ (s : State) (d : Device) (k c raw : Nat) (rising : Bool), (Instr.timeEvtEdge k c raw rising).wf = true →
    s.dev.clocked = true → s.dev.atCyc c = d →
    (bit (F.TIME_EV_CTRL_EDGE.get (d.cfg (A.TIME_EV_CTRL k))) (if rising then 0 else 1) = false →
      Makes (.timeEvtEdge k c raw rising) s fun _ => d) ∧
    (∀ t, d.pulse.evtLast.getD k none = some t → d.stepFreeNow + raw ≤ t + nsT 2 →
      Makes (.timeEvtEdge k c raw rising) s fun _ => d) ∧
    (bit (F.TIME_EV_CTRL_EDGE.get (d.cfg (A.TIME_EV_CTRL k))) (if rising then 0 else 1) = true →
      (∀ t, d.pulse.evtLast.getD k none = some t → t + nsT 2 < d.stepFreeNow + raw) →
      ((d.pulse.evt.getD k []).length < 16 → Makes (.timeEvtEdge k c raw rising) s fun _ =>
        ({ d with pulse := { d.pulse with
          evtLast := d.pulse.evtLast.set k (some (d.stepFreeNow + raw))
          evt := d.pulse.evt.set k (d.pulse.evt.getD k [] ++ [(⟨rising, d.edgeTime raw⟩ : Capture)]) } }).raise 0x30000 4) ∧
      (16 ≤ (d.pulse.evt.getD k []).length → Makes (.timeEvtEdge k c raw rising) s fun _ =>
        ({ d with pulse := { d.pulse with
          evtLast := d.pulse.evtLast.set k (some (d.stepFreeNow + raw))
          evtOvf := d.pulse.evtOvf.set k (min (d.pulse.evtOvf.getD k 0 + 1) 0xFFFF) } }).raise 0x30000 5))) ∧
  (∀ (s : State) (d : Device) (k c : Nat) (ofs now start : Int), (Instr.ppsOutEdge k c).wf = true →
    s.dev.clocked = true → s.dev.atCyc c = d →
    ofs = signed (F.TIME_PPS_OUT_OFS_OFS.get (d.reg (A.TIME_PPS_OUT_OFS k))) 30 → now = Int.ofNat d.clockNow →
    start = Int.ofNat (d.clock.clk / 2 ^ 48) - 1 →
    (d.pulse.ppsHigh.getD k false = true →
      (d.stepFreeNow < d.pulse.ppsFall.getD k 0 → Makes (.ppsOutEdge k c) s fun _ => d) ∧
      (d.pulse.ppsFall.getD k 0 ≤ d.stepFreeNow → Makes (.ppsOutEdge k c) s fun _ =>
        ({ d with pulse := { d.pulse with ppsHigh := d.pulse.ppsHigh.set k false } }).send (.pin (ppsName k) false))) ∧
    (d.pulse.ppsHigh.getD k false = false →
      (F.TIME_PPS_OUT_CFG_EN.get (d.reg (A.TIME_PPS_OUT_CFG k)) = 0 ∨ d.pulse.ppsRose.getD k 0 = d.strokeNo + 1 ∨
          ppsIndex ofs now = ppsIndex ofs start → Makes (.ppsOutEdge k c) s fun _ => d) ∧
      (F.TIME_PPS_OUT_CFG_EN.get (d.reg (A.TIME_PPS_OUT_CFG k)) ≠ 0 → d.pulse.ppsRose.getD k 0 ≠ d.strokeNo + 1 →
        ppsIndex ofs now ≠ ppsIndex ofs start → Makes (.ppsOutEdge k c) s fun _ =>
          ({ d with pulse := { d.pulse with
            ppsHigh := d.pulse.ppsHigh.set k true
            ppsRose := d.pulse.ppsRose.set k (d.strokeNo + 1)
            ppsFall := d.pulse.ppsFall.set k (d.stepFreeNow + usT (F.TIME_PPS_OUT_CFG_WIDTH.get (d.reg (A.TIME_PPS_OUT_CFG k))) -
              (d.clockNow - (ppsIndex ofs now * Int.ofNat (secT 1) + ofs * 65536).toNat)) } }).send (.pin (ppsName k) true)))) ∧
  (∀ (s : State) (src : Source) (k per width : Nat) (w v : Word), s.dev.reachable src → k < 4 →
    F.TIME_TR_CTRL_EN.put w 1 &&& 3#32 = v → (s.dev.reg (A.TIME_TR_PERIOD k)).toNat = per →
    F.TIME_TR_WIDTH_NS.get (s.dev.reg (A.TIME_TR_WIDTH k)) = width →
    (width < 2 ∨ (per ≠ 0 ∧ per ≤ width) → Makes (.triggerEnable src k w) s fun d => d.refuse src (A.TIME_TR_CTRL k)) ∧
    (2 ≤ width → per = 0 ∨ width < per →
      ((s.dev.trig k).armed = true → Makes (.triggerEnable src k w) s fun d => d.setReg (A.TIME_TR_CTRL k) v) ∧
      ((s.dev.trig k).armed = false → ∀ start, start = nsT ((s.dev.trig k).startSec * 1000000000 + (s.dev.trig k).startNs) →
        (s.dev.clockNow < start → Makes (.triggerEnable src k w) s fun d => (d.setReg (A.TIME_TR_CTRL k) v).setTrig k
          { d.trig k with armed := true, next := start, given := 0 }) ∧
        (start ≤ s.dev.clockNow → per = 0 → Makes (.triggerEnable src k w) s fun d =>
          ((d.setReg (A.TIME_TR_CTRL k) v).setTrig k { d.trig k with armed := false }).raise 0x30000 6) ∧
        (start ≤ s.dev.clockNow → per ≠ 0 → Makes (.triggerEnable src k w) s fun d =>
          (d.setReg (A.TIME_TR_CTRL k) v).setTrig k { d.trig k with
            armed := true
            next := start + ((d.clockNow + usT 1 - start) / nsT per + 1) * nsT per
            given := 0 })))) ∧
  ∀ (s : State) (d : Device) (k c per count : Nat), (Instr.triggerPulse k c).wf = true → s.dev.clocked = true →
    s.dev.atCyc c = d → (d.reg (A.TIME_TR_PERIOD k)).toNat = per → (d.reg (A.TIME_TR_COUNT k)).toNat = count →
    ((d.trig k).armed = false ∨ d.clockNow < (d.trig k).next → Makes (.triggerPulse k c) s fun _ => d) ∧
    ((d.trig k).armed = true → (d.trig k).next ≤ d.clockNow → Completes (.triggerPulse k c) s fun e =>
      e.sent = d.sent ++ [.pulse k (F.TIME_TR_CTRL_POL.get (d.reg (A.TIME_TR_CTRL k)) = 1)
        (F.TIME_TR_WIDTH_NS.get (d.reg (A.TIME_TR_WIDTH k)))] ∧
      (e.trig k).given = (d.trig k).given + 1 ∧ (per = 0 → (e.trig k).armed = false) ∧
      (count ≠ 0 → count ≤ (d.trig k).given + 1 → (e.trig k).armed = false) ∧
      (per ≠ 0 → count = 0 ∨ (d.trig k).given + 1 < count → (e.trig k).armed = true ∧
        (e.trig k).next = (d.trig k).next + ((d.clockNow - (d.trig k).next) / nsT per + 1) * nsT per))

/-- FLOW_MISS_FETCH, FLOW_SWEEP_VISIT, FLOW_FLUSH and DATAGRAM_CLOSE (R38, R280, R283, R285, R290 to R293, R324). -/
def Obligations.FlowsAndDatagrams : Prop :=
  (∀ (s : State) (b : Nat) (u : FlowUpd) (rest : List (Nat × FlowUpd)), s.dev.clocked = true →
    s.dev.telem.misses = (b, u) :: rest →
    (((s.dev.cacheSet b).any fun e => e.1 = b) = true → Makes .flowMissFetch s fun d =>
      (({ d with telem := { d.telem with misses := rest } }).setCache b
        ((b, true) :: (d.cacheSet b).filter fun e => e.1 ≠ b)).bucketUpd b u) ∧
    (((s.dev.cacheSet b).any fun e => e.1 = b) = false → ∀ dirty size,
      dirty = ((if (s.dev.cacheSet b).length ≥ 8 then (s.dev.cacheSet b).getLast? else none).map (·.2)).getD false →
      size = (if dirty then 8 else 4) →
      (s.dev.canAdmit 0x08 0 size 1 s.dev.stroke.cyc b = false → Makes .flowMissFetch s fun d => d.mustWait 0x08 0 b size) ∧
      (s.dev.canAdmit 0x08 0 size 1 s.dev.stroke.cyc b = true → Completes .flowMissFetch s fun e => ∃ g h : Device,
        g = (s.dev.spend 0x08 0 size b).lhMoved size none ∧
        h = { g with telem := { g.telem with misses := rest } } ∧
        e = (((if dirty then h.count (telCnt 4) else h).count (telCnt 3)).setCache b
          ((b, true) :: (s.dev.cacheSet b).take 7)).bucketUpd b u))) ∧
  (∀ s : State, s.dev.clocked = true → s.dev.telem.misses = [] → exec .flowMissFetch s = .next s) ∧
  (∀ s : State, s.dev.clocked = true → s.dev.visitDue = false → exec .flowSweepVisit s = .next s) ∧
  (∀ (s : State) (b fetch cost : Nat) (rs : List FlowRec), s.dev.clocked = true → s.dev.visitDue = true →
    s.dev.telem.sweep = b → b < flowBuckets s.dev.profile.active →
    rs = (if s.dev.seqOn (4 + b % 4) then tabGet (fun _ => ([] : List FlowRec)) s.dev.telem.buckets b else []) →
    fetch = (if flowOnDie s.dev.profile.active ∨ (s.dev.cacheSet b).any (fun e => e.1 = b) then 0 else 4) →
    cost = (rs.map fun r => s.dev.packCost (if s.dev.closes r then 2 else 1)).sum →
    (rs ≠ [] → (s.dev.packRoom (b % 4) 1 && s.dev.packRoom (b % 4) 2) = false → exec .flowSweepVisit s = .next s) ∧
    (rs = [] ∨ (s.dev.packRoom (b % 4) 1 && s.dev.packRoom (b % 4) 2) = true →
      (s.dev.canAdmit 0x08 0 fetch 1 s.dev.stroke.cyc (1000000 + b) = false → Makes .flowSweepVisit s fun d =>
        d.mustWait 0x08 0 (1000000 + b) fetch) ∧
      (s.dev.canAdmit 0x08 0 fetch 1 s.dev.stroke.cyc (1000000 + b) = true →
        (s.dev.canAdmit 0x0B 0 cost 1 s.dev.stroke.cyc (1000000 + b) = false → Makes .flowSweepVisit s fun d =>
          d.mustWait 0x0B 0 (1000000 + b) cost) ∧
        (s.dev.canAdmit 0x0B 0 cost 1 s.dev.stroke.cyc (1000000 + b) = true → Makes .flowSweepVisit s fun d =>
          (((((d.spend 0x08 0 fetch (1000000 + b)).spend 0x0B 0 cost (1000000 + b)).lhMoved fetch none).lhMoved cost
            none).visitBucket b).sweepOn)))) ∧
  (∀ (s : State) (p : Nat), s.dev.clocked = true → s.dev.visitDue = true →
    s.dev.telem.sweep = flowBuckets s.dev.profile.active + p →
    (s.dev.portEn p = false ∨ s.dev.seqOn (4 + p / 256) = false → Makes .flowSweepVisit s fun d => d.sweepOn) ∧
    (s.dev.portEn p = true → s.dev.seqOn (4 + p / 256) = true →
      (s.dev.packRoom (p / 256) 4 = false → exec .flowSweepVisit s = .next s) ∧
      (s.dev.packRoom (p / 256) 4 = true → ∀ b, s.dev.telem.sweep = b →
        (s.dev.canAdmit 0x0B 0 (s.dev.packCost 4) 1 s.dev.stroke.cyc (1000000 + b) = false → Makes .flowSweepVisit s fun d =>
          d.mustWait 0x0B 0 (1000000 + b) (d.packCost 4)) ∧
        (s.dev.canAdmit 0x0B 0 (s.dev.packCost 4) 1 s.dev.stroke.cyc (1000000 + b) = true →
          Completes .flowSweepVisit s fun e => ∃ (o : OverflowRec) (g : Device),
            (∃ o' : OverflowRec, o' = tabGet (fun _ => ({} : OverflowRec)) s.dev.telem.overflow p ∧
              o = { o' with body := { o'.body with inPort := p } }) ∧
            g = ((s.dev.spend 0x0B 0 (s.dev.packCost 4) (1000000 + b)).lhMoved (s.dev.packCost 4) none).packRecord (p / 256) 4 o.bytes ∧
            e = ({ g with telem := { g.telem with
              overflow := (tabSet (fun _ => ({} : OverflowRec)) g.telem.overflow p { o with body := o.body.restart }) } }).sweepOn)))) ∧
  (∀ (s : State) (src : Source) (w : Word), s.dev.reachable src →
    Completes (.flowFlush src w) s fun e => e.telem = { s.dev.telem with flushAsk := true } ∧
      e.dev = s.dev.dev ∧ e.sent = s.dev.sent) ∧
  ∀ (s : State) (j k t ptr units : Nat) (g : Datagram), (Instr.datagramClose j k t).wf = true → s.dev.clocked = true →
    (s.dev.openDgrams j k t).head? = some g → s.dev.grantedFor 99 g.id = some ptr →
    g.records.length * rtypeUnits t = units →
    (s.dev.dgramDue g = false ∨ s.dev.seqOn (4 + j) = false → exec (.datagramClose j k t) s = .next s) ∧
    (s.dev.dgramDue g = true → s.dev.seqOn (4 + j) = true →
      (s.dev.canAdmit 0x0B 0 units 1 s.dev.stroke.cyc (2000000 + g.id) = false → Makes (.datagramClose j k t) s fun d =>
        d.mustWait 0x0B 0 (2000000 + g.id) units) ∧
      (s.dev.canAdmit 0x0B 0 units 1 s.dev.stroke.cyc (2000000 + g.id) = true → Completes (.datagramClose j k t) s fun e =>
        ∃ h : Device, h = ((s.dev.spend 0x0B 0 units (2000000 + g.id)).lhMoved units (some (lhAttr ptr))).takeGrant 99 g.id ∧
          e = (({ h with telem := { h.telem with open_ := h.telem.open_.filter fun o => o ≠ g } }).freeBillet 99 ptr).dgramSend g))

/-- GROUP_ENABLE, GROUP_DISABLE, CONTRIB_RECEIVE, RESULT_RECEIVE, NACK_RECEIVE and ABORT_RECEIVE: the group's state changes at
the boundary, and an anvil takes the message at the head of its queue once it has passed its checks (R303 to R311). What an
ABORT, a repeat after release and a NACK for no chunk do is the model's reading (log entry 72). -/
def Obligations.ReductionMessages : Prop :=
  (∀ (s : State) (src : Source) (w : Word) (n : Nat), s.dev.reachable src →
    F.ANVIL_G_SEL_GROUP.get (s.dev.reg A.ANVIL_G_SEL) = n →
    ((s.dev.redGroup n).valid = true →
      (Makes (.groupEnable src w) s fun d => d.err 0xC0000 (A.ANVIL_G_CFG % 0x10000) .refused src) ∧
      Makes (.groupDisable src w) s fun d => d.setGroup n { d.redGroup n with want := some false, wantSrc := src }) ∧
    ((s.dev.redGroup n).valid = false →
      (Completes (.groupEnable src w) s fun e => (e.redGroup n).want = some true ∧ (e.redGroup n).wantSrc = src ∧
        (e.redGroup n).valid = false ∧ e.dev = s.dev.dev ∧ e.sent = s.dev.sent) ∧
      Makes (.groupDisable src w) s fun d =>
        (d.setReg (gReg A.ANVIL_G_CFG n) (F.ANVIL_G_CFG_VALID.put (F.ANVIL_G_CFG_VALID.put w 0) 0 &&& 0x07FFFFFF#32)).setGroup n
          { d.redGroup n with want := none, wantSrc := src })) ∧
  (∀ (s : State) (a : Nat) (g : Device), (Instr.contribReceive a).wf = true → s.dev.clocked = true →
    (s.dev.anvilTake a 1 = (g, none) → Makes (.contribReceive a) s fun _ => g) ∧
    (s.dev.anvilTake a 2 = (g, none) → Makes (.resultReceive a) s fun _ => g) ∧
    (s.dev.anvilTake a 3 = (g, none) → Makes (.nackReceive a) s fun _ => g) ∧
    (s.dev.anvilTake a 4 = (g, none) → Makes (.abortReceive a) s fun _ => g)) ∧
  (∀ (s : State) (a : Nat) (g0 g : Device) (wait : Bool) (c : Copy) (f : Frame) (o : Nat) (m : RedMsg) (r : RedGroup)
    (old : Option Chunk), (Instr.contribReceive a).wf = true → s.dev.clocked = true →
    s.dev.anvilTake a 1 = (g0, some (c, f, o, m)) → g0.timeoutFirst a m.group m.seq c.uid = (g, wait) →
    g.redGroup m.group = r → r.chunk m.seq = old →
    (wait = true → Makes (.contribReceive a) s fun _ => g) ∧
    (wait = false → ∀ k, old = some k → k.st = .awaitParent → Makes (.contribReceive a) s fun _ => g.lateContrib a c f o m true) ∧
    (wait = false → (∀ k, old = some k → k.st ≠ .awaitParent) →
      (m.seq ∈ r.released ∨ beforeMod 32 m.seq r.low = true →
        Makes (.contribReceive a) s fun _ => g.lateContrib a c f o m false) ∧
      (m.seq ∉ r.released → beforeMod 32 m.seq r.low = false →
        (∀ h, g.issue a (ceilDiv m.len 64) c = (h, false) → Makes (.contribReceive a) s fun _ => h) ∧
        (∀ h k, g.issue a (ceilDiv m.len 64) c = (h, true) → old = some k → bit k.bits m.member = true →
          Makes (.contribReceive a) s fun _ => ((h.count (anvCnt 0)).count (anvCnt 1)).takeMsg c) ∧
        (∀ h h2 payload k, g.issue a (ceilDiv m.len 64) c = (h, true) →
          h.msgBytes (f.bytes.take (f.bytes.length - 4)) (o + 32) m.len = (h2, payload) →
          (old = some k ∧ bit k.bits m.member = false) ∨ (old = none ∧
            k = { seq := m.seq
                  len := m.len
                  acc := List.replicate (m.len / elemBytes (g.gEtype m.group)) {}
                  armed := g.strokeNo
                  due := g.strokeNo + max 1 (g.gFld A.ANVIL_G_TMR m.group F.ANVIL_G_TMR_NACK_STK) + 1 }) →
          ∀ k2, k.addMember (h2.gEtype m.group) (h2.gOp m.group) m payload = k2 →
            (popCount k2.bits 1024 ≠ h2.gMembers m.group → Makes (.contribReceive a) s fun _ =>
              ((h2.count (anvCnt 0)).takeMsg c).setChunk m.group k2) ∧
            (popCount k2.bits 1024 = h2.gMembers m.group → Makes (.contribReceive a) s fun _ =>
              (((h2.count (anvCnt 0)).takeMsg c).setChunk m.group { k2 with st := .forming }).formNext m.group
                { k2 with st := .forming }))))) ∧
  (∀ (s : State) (a : Nat) (g0 g : Device) (c : Copy) (f : Frame) (o : Nat) (m : RedMsg),
    (Instr.resultReceive a).wf = true → s.dev.clocked = true → s.dev.anvilTake a 2 = (g0, some (c, f, o, m)) →
    (g0.timeoutFirst a m.group m.seq c.uid).1 = g →
    ((g.redGroup m.group).chunk m.seq = none → Makes (.resultReceive a) s fun _ => g.dropMsg c 0xA0) ∧
    (((g.redGroup m.group).chunk m.seq).isSome = true →
      (∀ h, g.issue a (ceilDiv m.len 64) c = (h, false) → Makes (.resultReceive a) s fun _ => h) ∧
      (∀ h h2 payload, g.issue a (ceilDiv m.len 64) c = (h, true) →
        h.msgBytes (f.bytes.take (f.bytes.length - 4)) (o + 32) m.len = (h2, payload) →
        Makes (.resultReceive a) s fun _ =>
          (((((if m.sat then h2.count (anvCnt 14) else h2).takeMsg c).sendResult m.group m.seq m.folded m.sat payload).releaseChunk
            m.group m.seq).retain m.group m.seq m.folded m.sat payload)))) ∧
  (∀ (s : State) (a : Nat) (g0 g : Device) (c : Copy) (f : Frame) (o : Nat) (m : RedMsg) (named : Bool) (old : Option Chunk),
    (Instr.nackReceive a).wf = true → s.dev.clocked = true → s.dev.anvilTake a 3 = (g0, some (c, f, o, m)) →
    (g0.timeoutFirst a m.group m.seq c.uid).1 = g →
    bit (byteAt f.bytes (o + 32 + g.gIndex m.group / 8)) (g.gIndex m.group % 8) = named →
    (g.redGroup m.group).chunk m.seq = old →
    (old = none ∨ named = false → Makes (.nackReceive a) s fun _ => g.takeMsg c) ∧
    (∀ k, old = some k → named = true →
      (k.st ≠ .awaitParent → Makes (.nackReceive a) s fun _ => (g.count (anvCnt 11)).takeMsg c) ∧
      (k.st = .awaitParent → Makes (.nackReceive a) s fun _ =>
        ((g.takeMsg c).setChunk m.group { k with
          armed := g.strokeNo
          due := g.strokeNo + max 1 (g.gFld A.ANVIL_G_TMR m.group F.ANVIL_G_TMR_UP_STK) + 1 }).sendUp m.group k true))) ∧
  ∀ (s : State) (a : Nat) (g : Device) (c : Copy) (f : Frame) (o : Nat) (m : RedMsg),
    (Instr.abortReceive a).wf = true → s.dev.clocked = true → s.dev.anvilTake a 4 = (g, some (c, f, o, m)) →
    ((g.redGroup m.group).chunk m.seq = none → Makes (.abortReceive a) s fun _ => g.dropMsg c 0xA0) ∧
    (((g.redGroup m.group).chunk m.seq).isSome = true → Makes (.abortReceive a) s fun _ =>
      (g.takeMsg c).abortChunk m.group m.seq)

/-- NACK_TIMER_EXPIRE, UP_TIMER_EXPIRE, RETAIN_COMPLETE and RETAIN_EXPIRE (R309, R310, R312, R313). -/
def Obligations.ReductionTimers : Prop :=
  (∀ (s : State) (n : Nat), n < 65536 → s.dev.clocked = true →
    (s.dev.matureChunk n .gathering = none ∨ s.dev.anvilSeq n = false → exec (.nackTimerExpire n) s = .next s) ∧
    (s.dev.matureChunk n .awaitParent = none ∨ s.dev.anvilSeq n = false → exec (.upTimerExpire n) s = .next s)) ∧
  (∀ (s : State) (n : Nat) (k : Chunk), n < 65536 → s.dev.clocked = true → s.dev.anvilSeq n = true →
    s.dev.matureChunk n .gathering = some k →
    (s.dev.gFld A.ANVIL_G_TMR n F.ANVIL_G_TMR_NACK_MAX ≤ k.tries → Makes (.nackTimerExpire n) s fun d => d.abortChunk n k.seq) ∧
    (k.tries < s.dev.gFld A.ANVIL_G_TMR n F.ANVIL_G_TMR_NACK_MAX →
      (∀ h, s.dev.inPieces 0x0D (s.dev.gAnvil n) 2 (2 ^ 32 + n) = (h, false) → Makes (.nackTimerExpire n) s fun _ => h) ∧
      (∀ h, s.dev.inPieces 0x0D (s.dev.gAnvil n) 2 (2 ^ 32 + n) = (h, true) → Completes (.nackTimerExpire n) s fun e =>
        ∃ g : Device,
          g = (h.event none 0x8007 2 (some (h.gAnvil n)) {}).setChunk n { k with
            tries := k.tries + 1
            armed := s.dev.strokeNo
            due := s.dev.strokeNo + max 1 (h.gFld A.ANVIL_G_TMR n F.ANVIL_G_TMR_NACK_STK) + 1 } ∧
          e = (g.sendMsg n (g.tplDown n) (g.msgOf n 3 k.seq 128 0 0 false) false (nackBytes (g.gMembers n) k.bits)).count
            (anvCnt 10)))) ∧
  (∀ (s : State) (n : Nat) (k : Chunk), n < 65536 → s.dev.clocked = true → s.dev.anvilSeq n = true →
    s.dev.matureChunk n .awaitParent = some k →
    (s.dev.gFld A.ANVIL_G_TMR n F.ANVIL_G_TMR_UP_MAX ≤ k.tries → Makes (.upTimerExpire n) s fun d => d.abortChunk n k.seq) ∧
    (k.tries < s.dev.gFld A.ANVIL_G_TMR n F.ANVIL_G_TMR_UP_MAX → Makes (.upTimerExpire n) s fun d =>
      ((d.setChunk n { k with
        tries := k.tries + 1
        armed := d.strokeNo
        due := d.strokeNo + max 1 (d.gFld A.ANVIL_G_TMR n F.ANVIL_G_TMR_UP_STK) + 1 }).sendUp n k true).count (anvCnt 12))) ∧
  (∀ (s : State) (a : Nat), a < 64 → s.dev.clocked = true →
    (s.dev.anvil.staged.find? fun t => t.anvil = a ∧ (s.dev.grantedFor (32 + a) (2 * t.tag + 1)).isSome) = none →
    exec (.retainComplete a) s = .next s) ∧
  (∀ (s : State) (a ptr units : Nat) (t : Staged), a < 64 → s.dev.clocked = true →
    (s.dev.anvil.staged.find? fun t => t.anvil = a ∧ (s.dev.grantedFor (32 + a) (2 * t.tag + 1)).isSome) = some t →
    s.dev.grantedFor (32 + a) (2 * t.tag + 1) = some ptr → 1 + ceilDiv t.payload.length 64 = units →
    (∀ h, s.dev.inPieces 0x09 a units (2 ^ 33 + t.tag) = (h, false) → Makes (.retainComplete a) s fun _ => h) ∧
    (∀ h g, s.dev.inPieces 0x09 a units (2 ^ 33 + t.tag) = (h, true) →
      (h.event none 0x8003 units (some (lhAttr ptr)) {}).takeGrant (32 + a) (2 * t.tag + 1) = g →
      Completes (.retainComplete a) s fun e => ∃ q : Device,
        q = { g with anvil := { g.anvil with staged := g.anvil.staged.filter fun u => u.tag ≠ t.tag } } ∧
        e = (match (q.redGroup t.group).kept.find? (fun k : Nat × Retained => k.1 = t.seq % 1024) with
          | some (_, old) => q.freeBillet (32 + a) old.billet
          | none => q).setGroup t.group { q.redGroup t.group with
            kept := (q.redGroup t.group).kept.filter (fun k : Nat × Retained => k.1 ≠ t.seq % 1024) ++ [(t.seq % 1024,
              ({ seq := t.seq
                 payload := t.payload
                 sat := t.sat
                 folded := t.folded
                 billet := ptr
                 dies := t.dies
                 since := t.since } : Retained))] })) ∧
  ∀ (s : State) (n : Nat), n < 65536 → s.dev.clocked = true →
    (((s.dev.redGroup n).kept.find? fun k => s.dev.matured k.2.dies && k.2.serves.isEmpty) = none →
      exec (.retainExpire n) s = .next s) ∧
    ∀ k r, ((s.dev.redGroup n).kept.find? fun k => s.dev.matured k.2.dies && k.2.serves.isEmpty) = some (k, r) → Makes (.retainExpire n) s fun d =>
      (d.setGroup n { d.redGroup n with kept := (d.redGroup n).kept.filter fun j => j.1 ≠ k }).freeBillet (32 + d.gAnvil n) r.billet

/-- MICROWORD_ISSUE, WAIT_CONDITION_MET, WAIT_TIMEOUT, BUS_ACCESS_COMPLETE, LH_TRANSFER_COMPLETE, SEQ_EVENT_POST, SEQ_RESTART,
SEQ_STOP and MBOX_WRITE (R38, R41, R42, R318 to R323, R329, R330). -/
def Obligations.SequencerWords : Prop :=
  (∀ (s : State) (d : Device) (n c : Nat) (q : SeqSt), n < 16 → c < 256 → s.dev.clocked = true → s.dev.atCyc c = d →
    d.seqSt n = q →
    (q.st ≠ .running ∨ q.bus.isSome = true ∨ q.issuedAt = some d.absCyc ∨ d.dev.state = .thermal →
      Makes (.microwordIssue n c) s fun _ => d) ∧
    (q.st = .running → q.bus = none → q.issuedAt ≠ some d.absCyc → d.dev.state ≠ .thermal →
      (d.canAdmit 0x0F n 1 1 d.stroke.cyc 0 = false → Makes (.microwordIssue n c) s fun _ => d.mustWait 0x0F n 0 1) ∧
      (d.canAdmit 0x0F n 1 1 d.stroke.cyc 0 = true → ∀ (g : Device) (w : Nat) (r : SeqSt),
        g = (((d.spend 0x0F n 1 0).count (A.SEQ_SQ_CNT n 0)).event none 0x8006 1 (some n) {}).modSeq n
          (fun q => { q with issued := d.strokeNo, issuedAt := some d.absCyc }) →
        g.seqWord n = w → g.seqSt n = r →
        ((q.bad.contains ((g.role (roleOf n)).active, q.pc)) = true → Makes (.microwordIssue n c) s fun _ => g.seqFault n 3) ∧
        ((q.bad.contains ((g.role (roleOf n)).active, q.pc)) = false →
          (mwBad w = true → Makes (.microwordIssue n c) s fun _ => g.seqFault n 1) ∧
          (mwBad w = false →
            (Makes (.microwordIssue n c) s fun _ => g.seqOp n w) ∧
            (mwOp w = 0 → Makes (.microwordIssue n c) s fun _ => g.seqFlow n) ∧
            (mwOp w = 1 → Makes (.microwordIssue n c) s fun _ => (g.setSeq n (r.put (mwDst w) (mwImm w))).seqFlow n) ∧
            (mwOp w = 2 → Makes (.microwordIssue n c) s fun _ =>
              (g.setSeq n (r.add (mwDst w) (r.reg (mwA w)) (r.reg (mwB w)))).seqFlow n) ∧
            (mwOp w = 3 → Makes (.microwordIssue n c) s fun _ =>
              (g.setSeq n (r.add (mwDst w) (r.reg (mwA w)) (mwImm w))).seqFlow n) ∧
            (mwOp w = 5 → Makes (.microwordIssue n c) s fun _ =>
              (g.setSeq n (r.put (mwDst w) (r.reg (mwA w) &&& r.reg (mwB w)))).seqFlow n) ∧
            (mwOp w = 6 → Makes (.microwordIssue n c) s fun _ =>
              (g.setSeq n (r.put (mwDst w) (r.reg (mwA w) ||| r.reg (mwB w)))).seqFlow n) ∧
            (mwOp w = 7 → Makes (.microwordIssue n c) s fun _ =>
              (g.setSeq n (r.put (mwDst w) (r.reg (mwA w) ^^^ r.reg (mwB w)))).seqFlow n) ∧
            (mwOp w = 8 → Makes (.microwordIssue n c) s fun _ =>
              (g.setSeq n (r.put (mwDst w) (r.reg (mwA w) * 2 ^ (mwImm w % 32)))).seqFlow n) ∧
            (mwOp w = 9 → Makes (.microwordIssue n c) s fun _ =>
              (g.setSeq n (r.put (mwDst w) (r.reg (mwA w) / 2 ^ (mwImm w % 32)))).seqFlow n) ∧
            (mwOp w = 0x10 → Makes (.microwordIssue n c) s fun _ =>
              ((g.setW1c (A.SEQ_SQ_SIG n) (mwImm w % 32)).raise 0x60000 5).seqFlow n)))))) ∧
  (∀ (s : State) (d : Device) (n c : Nat), n < 16 → c < 256 → s.dev.clocked = true → s.dev.atCyc c = d →
    (((d.seqSt n).st = .waiting ∧ (d.seqSt n).held = false ∧ (d.seqSt n).late d.strokeNo = false ∧ d.seqHolds n = true) →
      Makes (.waitConditionMet n c) s fun _ =>
        (d.modSeq n fun q => { q with held := true }).modSeq n fun q =>
          { q with st := .running, pc := mwNext (d.seqWord n), due := none, held := false }) ∧
    ((d.seqSt n).st = .waiting ∧ (d.seqSt n).held = true → Makes (.waitConditionMet n c) s fun _ => d.modSeq n fun q =>
      { q with st := .running, pc := mwNext (d.seqWord n), due := none, held := false }) ∧
    ((d.seqSt n).st ≠ .waiting ∨ ((d.seqSt n).held = false ∧ ((d.seqSt n).late d.strokeNo = true ∨ d.seqHolds n = false)) →
      Makes (.waitConditionMet n c) s fun _ => d) ∧
    ((d.seqSt n).bus = none → Makes (.busAccessComplete n c) s fun _ => d) ∧
    ∀ b g, (d.seqSt n).bus = some b → (d.modSeq n fun q => { q with bus := none }).busEffect n b = g →
      Makes (.busAccessComplete n c) s fun _ => if (g.seqSt n).st = .running then g.seqFlow n else g) ∧
  (∀ (s : State) (n ev : Nat), n < 16 → ev < 65536 → s.dev.clocked = true →
    ((s.dev.seqSt n).st = .waiting ∧ (s.dev.seqSt n).held = true → Makes (.waitTimeout n) s fun d => d.modSeq n fun q =>
      { q with st := .running, pc := mwNext (d.seqWord n), due := none, held := false }) ∧
    (((s.dev.seqSt n).st = .waiting ∧ (s.dev.seqSt n).held = false ∧ (s.dev.seqSt n).late s.dev.strokeNo = true ∧
        s.dev.switchNow (roleOf n) = false) →
      Makes (.waitTimeout n) s fun d => (d.modSeq n fun q =>
        { q with st := .running, pc := mwAlt (d.seqWord n), due := none }).count (A.SEQ_SQ_CNT n 1)) ∧
    ((s.dev.seqSt n).st ≠ .waiting ∨ ((s.dev.seqSt n).held = false ∧
        ((s.dev.seqSt n).late s.dev.strokeNo = false ∨ s.dev.switchNow (roleOf n) = true)) →
      exec (.waitTimeout n) s = .next s) ∧
    ((s.dev.seqSt n).lh = [] → exec (.lhTransferComplete n) s = .next s) ∧
    (∀ t rest h, (s.dev.seqSt n).lh = t :: rest → s.dev.inPieces t.act t.inst t.units (5000000 + n) = (h, false) →
      Makes (.lhTransferComplete n) s fun _ => h) ∧
    (∀ t rest h, (s.dev.seqSt n).lh = t :: rest → s.dev.inPieces t.act t.inst t.units (5000000 + n) = (h, true) →
      Completes (.lhTransferComplete n) s fun e => ∃ g : Device,
        g = (List.range t.units).foldl (fun g i => g.lhMove n t i) (h.event none 0x8003 t.units (some (t.addr / 1024)) {}) ∧
        e = (g.modSeq n fun q => { q with lh := rest, lhDone := rest.isEmpty }).seqLook n ∧
        g.dev = h.dev ∧ g.sent = h.sent ∧ (g.seqSt n).g = (h.seqSt n).g ∧
        (t.toScratch = false → g.seq.seqs = h.seq.seqs)) ∧
    (∀ (d : Device) (t : SeqLh) (i v : Nat), t.toScratch = false → tnat (d.seqSt n).scratch (t.ofs + i) = v + 1 →
      d.lhRing (t.addr + i) = none → tnat (d.lhMove n t i).seq.lhMem (t.addr + i) = v + 1) ∧
    (∀ (d g : Device) (t : SeqLh) (i v : Nat), t.toScratch = true → d.lhLoad (t.addr + i) = (v, g) →
      tnat ((d.lhMove n t i).seqSt n).scratch (t.ofs + i) = v + 1) ∧
    ((s.dev.seqSt n).evq.length < 64 → Makes (.seqEventPost n ev) s fun d =>
      (d.modSeq n fun q => { q with evq := q.evq ++ [ev] }).seqLook n) ∧
    (64 ≤ (s.dev.seqSt n).evq.length → Completes (.seqEventPost n ev) s fun e =>
      (e.seqSt n).evq = (s.dev.seqSt n).evq ∧ e.dev = s.dev.dev ∧ e.sent = s.dev.sent ∧ ∃ at_, (e.seqSt n).lost = some at_)) ∧
  ∀ (s : State) (src : Source) (n : Nat) (w : Word), s.dev.reachable src → n < 16 →
    ((s.dev.role (roleOf n)).live.st = 2 → Makes (.seqRestart src n) s fun d => d.modSeq n fun q => { q with restart := true }) ∧
    ((s.dev.role (roleOf n)).live.st ≠ 2 → Makes (.seqRestart src n) s fun d => d.refuse src (A.SEQ_SQ_CTRL n)) ∧
    (Makes (.seqStop src n) s fun d => d.modSeq n fun q => { q with stop := true }) ∧
    Makes (.mboxWrite src n w) s fun d => ((d.setReg (A.SEQ_SQ_MBOX_IN n) w).modSeq n fun q => { q with mbox := true }).seqLook n

/-- IMAGE_LOAD, IMAGE_LOAD_DONE, IMAGE_READ_TIMEOUT of a role, IMAGE_SWITCH, IMAGE_SWITCH_MADE and IMAGE_SWITCH_TIMEOUT (R326,
R328, R330). -/
def Obligations.SequencerImages : Prop :=
  (∀ (s : State) (src : Source) (r : Nat) (w v : Word) (g h : Device) (busy : Bool), s.dev.reachable src → roleOk r = true →
    s.dev.setReg (A.SEQ_RL_CMD (r - 1)) (v &&& 0x1C#32) = g →
    ((s.dev.role r).load.isSome || (s.dev.role r).switchBy.isSome) = busy →
    h = (if busy = true then g.modRole r (fun q => { q with result := 9 }) else
      g.modRole r fun q => { q.setIdle { q.idle with st := 1 } with
        load := some { addr := g.pair (A.SEQ_RL_LOAD_ADDR_LO (r - 1)) (A.SEQ_RL_LOAD_ADDR_HI (r - 1)) / 64 * 64
                       len := F.SEQ_RL_LOAD_LEN_LEN.get (g.cfg (A.SEQ_RL_LOAD_LEN (r - 1)))
                       cls := F.SEQ_RL_CMD_LOAD_CLASS.get v } }) →
    (F.SEQ_RL_CMD_LOAD.put w 1 = v →
      (F.SEQ_RL_CMD_SWITCH.get v = 0 → Makes (.imageLoad src r w) s fun _ => h) ∧
      (F.SEQ_RL_CMD_SWITCH.get v ≠ 0 → Makes (.imageLoad src r w) s fun _ => h.modRole r fun q => { q with result := 9 })) ∧
    (F.SEQ_RL_CMD_SWITCH.put w 1 = v →
      (F.SEQ_RL_CMD_LOAD.get v ≠ 0 → Makes (.imageSwitch src r w) s fun _ => h.modRole r fun q => { q with result := 9 }) ∧
      (F.SEQ_RL_CMD_LOAD.get v = 0 →
        (busy = true → Makes (.imageSwitch src r w) s fun _ => g.modRole r fun q => { q with result := 9 }) ∧
        (busy = false → (s.dev.role r).idle.st ≠ 2 → Makes (.imageSwitch src r w) s fun _ =>
          g.refuse src (A.SEQ_RL_CMD (r - 1))) ∧
        (busy = false → (s.dev.role r).idle.st = 2 → Makes (.imageSwitch src r w) s fun _ =>
          g.modRole r fun q => { q with switchBy := some (s.dev.strokeNo + 8192) })))) ∧
  (∀ (s : State) (r : Nat) (img : Bytes), roleOk r = true → s.dev.clocked = true →
    ((s.dev.role r).load = none → exec (.imageLoadDone r img) s = .next s) ∧
    ∀ l, (s.dev.role r).load = some l →
      (∀ t, l.retryAt = some t → s.dev.matured t = false → exec (.imageLoadDone r img) s = .next s) ∧
      ((∀ t, l.retryAt = some t → s.dev.matured t = true) →
        (s.dev.busOn 0 = false ∨ s.dev.inWindow 0 l.addr (max 256 l.len) = false →
          Makes (.imageLoadDone r img) s fun d => d.loadEnds r 8 {}) ∧
        (s.dev.busOn 0 = true → s.dev.inWindow 0 l.addr (max 256 l.len) = true → ∀ need got h,
          need = (if (s.dev.headerFails r l.len img).isSome = true then 256 else l.len) →
          s.dev.takePieces 0x0E l.cls need l.paid (6000000 + r) = (h, got) →
          (l.paid + got < need → Makes (.imageLoadDone r img) s fun _ =>
            h.modRole r fun q => { q with load := some { l with paid := l.paid + got } }) ∧
          (need ≤ l.paid + got → ∀ g, h.event none 0x8005 need none { fn := some 0 } = g →
            Makes (.imageLoadDone r img) s fun _ => g.loadEnds r (g.imageResult r l.len img) (imageBank img))))) ∧
  ∀ (s : State) (r : Nat), roleOk r = true → s.dev.clocked = true →
    (s.dev.switchNow r = false → exec (.imageSwitchMade r) s = .next s) ∧
    (s.dev.switchNow r = true → tabWf (fun _ => ({} : SeqRole)) s.dev.seq.roles = true →
      tabWf (fun _ => ({} : SeqSt)) s.dev.seq.seqs = true →
      Completes (.imageSwitchMade r) s fun e => (e.role r).active = 1 - (s.dev.role r).active ∧ (e.role r).switchBy = none ∧
        (e.role r).result = 0 ∧ (e.role r).banks = (s.dev.role r).banks ∧
        ∀ n, n ∈ roleSeqs r → (e.seqSt n).st = .running ∧ (e.seqSt n).pc = (s.dev.role r).idle.entry) ∧
    ((s.dev.role r).load = none → exec (.imageReadTimeout r) s = .next s) ∧
    (∀ l body, (s.dev.role r).load = some l → body = decide (256 ≤ l.paid) →
      ((if body = true then l.lateBody else l.late) = true → Makes (.imageReadTimeout r) s fun d =>
        (d.readTimedOut 0 (0x10000 + r) 0).loadEnds r 8 {}) ∧
      ((if body = true then l.lateBody else l.late) = false → Makes (.imageReadTimeout r) s fun d =>
        (d.readTimedOut 0 (0x10000 + r) 2).modRole r fun v => { v with load := some { l with
          late := l.late || !body
          lateBody := l.lateBody || body
          retryAt := some (d.now + msT 1) } })) ∧
    ((∀ t, (s.dev.role r).switchBy = some t → s.dev.strokeNo ≤ t) → exec (.imageSwitchTimeout r) s = .next s) ∧
    ∀ t, (s.dev.role r).switchBy = some t → t < s.dev.strokeNo → Makes (.imageSwitchTimeout r) s fun d =>
      d.modRole r fun q => { q with switchBy := none, result := 0xA }

/-- LEARN_ADMIT, AGE_SWEEP_START, REPLACE_DONE, LOCK_EXPIRE, TDMA_READ, TDMA_WRITE, TDMA_LOCK and TDMA_UNLOCK (R38, R159, R166,
R168 to R172, R344). -/
def Obligations.TablesAndTdma : Prop :=
  (∀ (s : State) (d : Device) (c : Nat), c < 256 → s.dev.clocked = true → s.dev.atStage c = d →
    (d.table.queue = [] → Makes (.learnAdmit c) s fun _ => d) ∧
    ∀ e rest, d.table.queue = e :: rest →
      (d.canAdmit 0x0C 0 1 (d.learnFate e).cycles d.stroke.cyc d.table.learned = false → Makes (.learnAdmit c) s fun _ =>
        (List.range (rest.length + 1)).foldl (fun g k => g.mustWait 0x0C 0 (d.table.learned + k) 1) d) ∧
      (d.canAdmit 0x0C 0 1 (d.learnFate e).cycles d.stroke.cyc d.table.learned = true → ∀ g : Device,
        g = d.spend 0x0C 0 1 d.table.learned → Makes (.learnAdmit c) s fun _ =>
          ({ g with table := { g.table with queue := rest, learned := d.table.learned + 1 } }).learnDo (d.learnFate e) e)) ∧
  (∀ s : State, s.dev.clocked = true →
    (s.dev.sweepDue = false ∨ s.dev.seqOn 14 = false → exec .ageSweepStart s = .next s) ∧
    (s.dev.sweepDue = true → s.dev.seqOn 14 = true → Makes .ageSweepStart s fun d => { d with table := { d.table with
      sweepPos := some 0
      sweepLast := d.elapsed
      sweepNext := some (d.elapsed + ageInterval d.table.ageEvery) } }) ∧
    (s.dev.table.replacing = none → exec .replaceDone s = .next s) ∧
    ∀ w, s.dev.table.replacing = some w →
      (w.stop ≤ w.pos ∧ w.again = [] → Makes .replaceDone s fun d =>
        ({ d with table := { d.table with replacing := none } }).raise 0x80000 3) ∧
      (w.pos < w.stop ∨ w.again ≠ [] → exec .replaceDone s = .next s)) ∧
  (∀ (s : State) (row : Nat), row < 1572864 → s.dev.clocked = true →
    (assoc s.dev.table.locks row = none → exec (.lockExpire row) s = .next s) ∧
    (∀ due, assoc s.dev.table.locks row = some due → s.dev.strokeNo < due → exec (.lockExpire row) s = .next s) ∧
    ∀ due, assoc s.dev.table.locks row = some due → due ≤ s.dev.strokeNo → Completes (.lockExpire row) s fun e =>
      ∃ g : Device, g = { s.dev with table := { s.dev.table with locks := assocDel s.dev.table.locks row } } ∧
        e = (((g.count (tblCnt 10)).raise 0x80000 2).setReg A.TABLE_LOCK_EXP_ROW (BitVec.ofNat 32 row)).notify
          .lockExpired row 0 0 0) ∧
  (∀ (s : State) (r : Nat) (data : Option Bytes), r < 512 → s.dev.clocked = true →
    (s.dev.frontJob r 0 = none → exec (.tdmaRead r) s = .next s) ∧ (s.dev.frontJob r 1 = none → exec (.tdmaWrite r data) s = .next s) ∧
    (s.dev.frontJob r 2 = none → exec (.tdmaLock r) s = .next s) ∧ (s.dev.frontJob r 3 = none → exec (.tdmaUnlock r) s = .next s)) ∧
  (∀ (s : State) (r code : Nat) (j : TdmaJob), r < 512 → s.dev.clocked = true → s.dev.tdmaCheck j 0 = some code →
    (s.dev.frontJob r 0 = some j → Makes (.tdmaRead r) s fun d => d.rowFails r code j) ∧
    (s.dev.frontJob r 2 = some j → Makes (.tdmaLock r) s fun d => d.rowFails r code j) ∧
    (s.dev.frontJob r 3 = some j → Makes (.tdmaUnlock r) s fun d => d.rowFails r code j)) ∧
  (∀ (s : State) (g : Device) (r : Nat) (j : TdmaJob), r < 512 → s.dev.clocked = true → s.dev.frontJob r 0 = some j →
    s.dev.tdmaCheck j 0 = none →
    (s.dev.rowSlot r true = (g, false) → Makes (.tdmaRead r) s fun _ => g) ∧
    (s.dev.rowSlot r true = (g, true) → ∀ v h, g.readTable j.table j.slot (j.row + j.next) = (v, h) →
      (h.postWrite (h.ringFn r) (j.addr + 64 * j.next) (leBytes 64 v) = none → Makes (.tdmaRead r) s fun _ =>
        h.rowFails r (if h.inWindow (h.ringFn r) (j.addr + 64 * j.next) 64 = true then 2 else 1) j) ∧
      ∀ k, h.postWrite (h.ringFn r) (j.addr + 64 * j.next) (leBytes 64 v) = some k → Makes (.tdmaRead r) s fun _ =>
        (k.dmaEvent r 64).rowDone r)) ∧
  (∀ (s : State) (g : Device) (r : Nat) (j : TdmaJob) (data : Option Bytes), r < 512 → s.dev.clocked = true →
    s.dev.frontJob r 1 = some j →
    (s.dev.rowSlot r true = (g, false) → Makes (.tdmaWrite r data) s fun _ => g) ∧
    (s.dev.rowSlot r true = (g, true) →
      (g.inWindow (g.ringFn r) (j.addr + 64 * j.next) 64 = false → Makes (.tdmaWrite r data) s fun _ => g.rowFails r 1 j) ∧
      (g.inWindow (g.ringFn r) (j.addr + 64 * j.next) 64 = true → data = none ∨ g.busOn (g.ringFn r) = false →
        Makes (.tdmaWrite r data) s fun _ => g.rowFails r 2 j) ∧
      (g.inWindow (g.ringFn r) (j.addr + 64 * j.next) 64 = true → g.busOn (g.ringFn r) = true → ∀ bs h v, data = some bs → g.dmaEvent r 64 = h → leNat (sliceBytes bs 0 64) = v →
        (∀ code, h.tdmaCheck j v = some code → Makes (.tdmaWrite r data) s fun _ => h.rowFails r code j) ∧
        (h.tdmaCheck j v = none → Makes (.tdmaWrite r data) s fun _ =>
          (h.writeTable j.table j.slot (j.row + j.next) v).rowDone r)))) ∧
  ∀ (s : State) (g : Device) (r row : Nat) (j : TdmaJob), r < 512 → s.dev.clocked = true → s.dev.tdmaCheck j 0 = none →
    j.row + j.next = row →
    (s.dev.rowSlot r false = (g, false) →
      (s.dev.frontJob r 2 = some j → Makes (.tdmaLock r) s fun _ => g) ∧
      (s.dev.frontJob r 3 = some j → Makes (.tdmaUnlock r) s fun _ => g)) ∧
    (s.dev.rowSlot r false = (g, true) → ∀ h, lockExpire g row = h →
      (s.dev.frontJob r 2 = some j → Makes (.tdmaLock r) s fun _ =>
        ({ h with table := { h.table with locks := assocSet h.table.locks row h.lockDue } }).rowDone r) ∧
      (s.dev.frontJob r 3 = some j →
        (h.rowLocked row = true → Makes (.tdmaUnlock r) s fun _ =>
          ({ h with table := { h.table with locks := assocDel h.table.locks row } }).rowDone r) ∧
        (h.rowLocked row = false → Makes (.tdmaUnlock r) s fun _ => (h.count (tblCnt 11)).rowDone r)))

/-- RING_ENABLE, RING_DISABLE, RING_RESUME, FUNCTION_LEVEL_RESET and MSIX_VECTOR_UNMASK (R332, R336, R346, R347, R350, R356). -/
def Obligations.RingWindows : Prop :=
  (∀ (s : State) (c : Instr) (via : Via) (src : Source) (r : Nat) (w v : Word) (h : Device), s.dev.reachable src → r < 512 →
    (via = .pf ∧ src = .pcie) ∨ (via = .smbus ∧ src = .smbus) ∨
      (∃ f, via = .vf f ∧ vfOk f = true ∧ s.dev.ringFn r = f ∧ src = .pcie) →
    (c = .ringEnable via r w ∧ v = F.RINGS_RW_CTRL_EN.put w 1) ∨ (c = .ringDisable via r w ∧ v = F.RINGS_RW_CTRL_EN.put w 0) ∨
      (c = .ringResume via r w ∧ v = F.RINGS_RW_CTRL_RESUME.put w 1) →
    (s.dev.ringOn r = false →
      (F.RINGS_RW_CTRL_EN.get v = 0 → Makes c s fun d => d.setReg (A.RINGS_RW_CTRL r) (ringCtlKept v)) ∧
      (F.RINGS_RW_CTRL_EN.get v = 1 →
        (∀ code, s.dev.ringCheck r v = some code → Makes c s fun d =>
          ((d.setReg (A.RINGS_RW_CTRL r) (F.RINGS_RW_CTRL_EN.put (ringCtlKept v) 0)).modRing r fun q =>
            { q with code := code }).refuseRing src (r * 0x100)) ∧
        (s.dev.ringCheck r v = none → Completes c s fun e => (e.ring r).st = .polling ∧ e.ringOn r = true ∧
          (e.ring r).k = (s.dev.reg (A.RINGS_RW_START r)).toNat ∧ (e.ring r).done = (s.dev.reg (A.RINGS_RW_START r)).toNat ∧
          (e.ring r).jobs = [] ∧ (e.ring r).held = [] ∧ (e.ring r).base = s.dev.strokeNo ∧
          (e.ring r).pollAt = nextPoll s.dev.strokeNo (s.dev.pollEvery r) s.dev.strokeNo ∧ e.dev = s.dev.dev ∧
          e.sent = s.dev.sent))) ∧
    (s.dev.ringOn r = true → h = (if bitsOf v.toNat 1 11 = bitsOf (s.dev.reg (A.RINGS_RW_CTRL r)).toNat 1 11 then s.dev
        else s.dev.refuseRing src (r * 0x100)).setReg (A.RINGS_RW_CTRL r) (BitVec.ofNat 32
          (bitsOf (s.dev.reg (A.RINGS_RW_CTRL r)).toNat 1 11 * 2 + bitsOf v.toNat 12 12 * 2 ^ 12 + 1)) →
      (F.RINGS_RW_CTRL_EN.get v = 0 → Makes c s fun _ => h.ringStop r) ∧
      (F.RINGS_RW_CTRL_EN.get v = 1 →
        (F.RINGS_RW_CTRL_RESUME.get v = 1 ∧ (s.dev.ring r).st = .halted → Makes c s fun _ =>
          h.modRing r fun q => { q with resume := true }) ∧
        (F.RINGS_RW_CTRL_RESUME.get v = 0 ∨ (s.dev.ring r).st ≠ .halted → Makes c s fun _ => h)))) ∧
  (∀ (s : State) (c : Instr) (f r : Nat) (w : Word), vfOk f = true → r < 512 →
    c = .ringEnable (.view f) r w ∨ c = .ringDisable (.view f) r w ∨ c = .ringResume (.view f) r w ∨
      (s.dev.ringFn r ≠ f ∧
        (c = .ringEnable (.vf f) r w ∨ c = .ringDisable (.vf f) r w ∨ c = .ringResume (.vf f) r w)) →
    exec c s = .next s) ∧
  (∀ (s : State) (f : Nat), vfOk f = true → s.dev.clocked = true →
    tabWf (fun _ => ({} : RingSt)) s.dev.host.rings = true → Completes (.functionLevelReset f) s fun e =>
      (∀ r, s.dev.ringFn r = f → (e.ring r).st = .idle ∧ (e.ring r).jobs = [] ∧ (e.ring r).held = [] ∧
        (e.ring r).headDue = false) ∧
      (∀ r, s.dev.ringFn r ≠ f → e.ring r = s.dev.ring r) ∧ e.sent = s.dev.sent ∧ e.dev = s.dev.dev) ∧
  ∀ (s : State) (n : Nat) (g : Device), n < 2048 → s.dev.clocked = true →
    g = { s.dev with host := { s.dev.host with
      unmasked := if s.dev.host.unmasked.contains n = true then s.dev.host.unmasked else s.dev.host.unmasked ++ [n]
      held := s.dev.host.held.filter fun x => x ≠ n } } →
    (s.dev.host.held.contains n = true → Makes (.msixVectorUnmask n) s fun _ =>
      g.send (.msix (g.vectorOf n).1 (g.vectorOf n).2)) ∧
    (s.dev.host.held.contains n = false → Makes (.msixVectorUnmask n) s fun _ => g)

/-- RING_POLL, RING_ENTRY_READ, RX_PACKET_WRITE, NOTICE_WRITE, HOST_READ_TIMEOUT and HOST_READ_RETRY (R41, R335, R336, R338 to
R345). -/
def Obligations.RingTransfers : Prop :=
  (∀ (s : State) (r : Nat), r < 512 → s.dev.clocked = true →
    ((s.dev.ring r).st ≠ .polling ∨ (s.dev.ring r).polled = true ∨ (s.dev.ring r).retryAt.isSome = true ∨
      s.dev.strokeNo < (s.dev.ring r).pollAt → exec (.ringPoll r) s = .next s) ∧
    ((s.dev.ring r).st = .polling → (s.dev.ring r).polled = false → (s.dev.ring r).retryAt = none →
      (s.dev.ring r).pollAt ≤ s.dev.strokeNo → Makes (.ringPoll r) s fun d => d.setRing r { d.ring r with
        polled := true
        pollAt := nextPoll (d.ring r).base (d.pollEvery r) d.strokeNo }) ∧
    ((s.dev.ring r).retryAt = none → exec (.hostReadRetry r) s = .next s) ∧
    ∀ t, (s.dev.ring r).retryAt = some t →
      (s.dev.matured t = false → exec (.hostReadRetry r) s = .next s) ∧
      (s.dev.matured t = true → Makes (.hostReadRetry r) s fun d => d.modRing r fun q => { q with retryAt := none })) ∧
  (∀ (s : State) (r : Nat) (entry body : Option Bytes), r < 512 → entryOk entry = true → s.dev.clocked = true →
    s.dev.mayRead r = false → exec (.ringEntryRead r entry body) s = .next s) ∧
  (∀ (s : State) (r k n : Nat) (entry body : Option Bytes) (h g : Device) (bs : Bytes), r < 512 → entryOk entry = true →
    s.dev.clocked = true → s.dev.mayRead r = true → (s.dev.ring r).k = k → entry.getD [] = bs → s.dev.entData r bs = n →
    (s.dev.ringPay r (64 + n) false = (h, false) → Makes (.ringEntryRead r entry body) s fun _ => h) ∧
    (s.dev.ringPay r (64 + n) false = (h, true) → ∀ inside, inside = h.inWindow (h.ringFn r) (h.ringBase r + 64 * (k % h.ringSize r)) 64 →
      (inside = false → Makes (.ringEntryRead r entry body) s fun _ => h.haltAt r 1 k) ∧
      (inside = true → h.busOn (h.ringFn r) = false ∨ entry = none → Makes (.ringEntryRead r entry body) s fun _ =>
        h.haltAt r 2 k) ∧
      (inside = true → h.busOn (h.ringFn r) = true → entry = some bs → h.dmaEvent r (64 + n) = g →
        (entFld bs 0 1 0 1 ≠ 1 - k / g.ringSize r % 2 → Makes (.ringEntryRead r entry body) s fun _ =>
          (g.ringEmpty r).ringSettle r) ∧
        (entFld bs 0 1 0 1 = 1 - k / g.ringSize r % 2 →
          (entFld bs 2 2 0 16 ≠ k % 65536 → Makes (.ringEntryRead r entry body) s fun _ => (g.haltAt r 3 k).ringSettle r) ∧
          (entFld bs 2 2 0 16 = k % 65536 →
            (entGood (g.ringType r) bs = false → Makes (.ringEntryRead r entry body) s fun _ =>
              (g.haltAt r 4 k).ringSettle r) ∧
            (entGood (g.ringType r) bs = true →
              (∀ a m al, entSpan (g.ringType r) bs = some (a, m, al) → g.badAddr r a m al = true →
                Makes (.ringEntryRead r entry body) s fun _ => (g.haltAt r 1 k).ringSettle r) ∧
              ((∀ a m al, entSpan (g.ringType r) bs = some (a, m, al) → g.badAddr r a m al = false) →
                (0 < n → body = none → Makes (.ringEntryRead r entry body) s fun _ => (g.haltAt r 2 k).ringSettle r) ∧
                (n = 0 ∨ body.isSome = true → Makes (.ringEntryRead r entry body) s fun _ =>
                  (g.takeEntry r bs body).ringSettle r)))))))) ∧
  (∀ (s : State) (r : Nat), r < 512 → s.dev.clocked = true →
    ((s.dev.host.traps.find? fun t => t.ring = r) = none → exec (.rxPacketWrite r) s = .next s) ∧
    ∀ t, (s.dev.host.traps.find? fun t => t.ring = r) = some t →
      (s.dev.frame t.frame = none → exec (.rxPacketWrite r) s = .next s) ∧
      ∀ f, s.dev.frame t.frame = some f →
        ((f.ended && f.checked) = false → exec (.rxPacketWrite r) s = .next s) ∧
        ((f.ended && f.checked) = true →
          (s.dev.ringTakes r 2 = false → Makes (.rxPacketWrite r) s fun d => (d.count A.HOST_TRAP_NO_RING_LO).dropTrap t 0x90) ∧
          (s.dev.ringTakes r 2 = true →
            ((s.dev.ring r).st = .halted ∨ (s.dev.ring r).held = [] → Makes (.rxPacketWrite r) s fun d =>
              (d.count (A.RINGS_RW_NONFATAL_LO r)).dropTrap t 0x90) ∧
            ((s.dev.ring r).st ≠ .halted → ∀ b rest n g, (s.dev.ring r).held = b :: rest →
              min (f.bytes.length - 4) (b.size - 64) = n →
              (s.dev.ringPay r (64 + n) true = (g, false) → Makes (.rxPacketWrite r) s fun _ => g) ∧
              (s.dev.ringPay r (64 + n) true = (g, true) →
                (g.postWrite (g.ringFn r) b.addr (rxRecord t f n ++ f.bytes.take n) = none → Makes (.rxPacketWrite r) s fun _ =>
                  ((g.heldFails r (if g.inWindow (g.ringFn r) b.addr (64 + n) = true then 2 else 1) b.num).count (A.RINGS_RW_NONFATAL_LO r)).dropTrap t 0x90) ∧
                ∀ h k, g.postWrite (g.ringFn r) b.addr (rxRecord t f n ++ f.bytes.take n) = some h →
                  (h.dmaEvent r (64 + n)).fillHeld r = k → Completes (.rxPacketWrite r) s fun e => ∃ m : Device,
                    m = { k with host := { k.host with traps := k.host.traps.filter fun u => u ≠ t } } ∧
                    e = (if m.othersLive t.frame none = true then m else m.flowFinish t.frame none none).releaseFrame
                      t.frame))))) ∧
  (∀ s : State, s.dev.clocked = true → s.dev.table.notices = [] → exec .noticeWrite s = .next s) ∧
  (∀ (s : State) (n : Notice) (rest : List Notice) (r : Nat) (lost : Device → Device), s.dev.clocked = true →
    s.dev.table.notices = n :: rest → F.TABLE_LEARN_CFG_NOTIFY_RING.get (s.dev.cfg A.TABLE_LEARN_CFG) = r →
    (∀ d : Device, lost d = ({ d with table := { d.table with notices := rest } }).count (tblCnt 16)) →
    (s.dev.ringTakes r 4 = false → Makes .noticeWrite s lost) ∧
    (s.dev.ringTakes r 4 = true →
      ((s.dev.ring r).st = .halted ∨ (s.dev.ring r).held = [] → Makes .noticeWrite s fun d =>
        lost (d.count (A.RINGS_RW_NONFATAL_LO r))) ∧
      ((s.dev.ring r).st ≠ .halted → ∀ b more g, (s.dev.ring r).held = b :: more →
        (s.dev.ringPay r 64 true = (g, false) → Makes .noticeWrite s fun _ => g) ∧
        (s.dev.ringPay r 64 true = (g, true) →
          (g.postWrite (g.ringFn r) b.addr n.bytes = none → Makes .noticeWrite s fun _ =>
            lost ((g.heldFails r (if g.inWindow (g.ringFn r) b.addr 64 = true then 2 else 1) b.num).count (A.RINGS_RW_NONFATAL_LO r))) ∧
          ∀ h k, g.postWrite (g.ringFn r) b.addr n.bytes = some h → (h.dmaEvent r 64).fillHeld r = k →
            Makes .noticeWrite s fun _ => { k with table := { k.table with notices := rest } })))) ∧
  ∀ (s : State) (r : Nat) (g : Device) (again : HostRead → Device), r < 512 → s.dev.clocked = true →
    g = { s.dev with host := { s.dev.host with
      aer := if s.dev.host.aer.contains (s.dev.ringFn r) = true then s.dev.host.aer else s.dev.host.aer ++ [s.dev.ringFn r] } } →
    (∀ read, again read = ((g.logFault ⟨8, s.dev.ringFn r, r⟩ 5 2 1).count (A.RINGS_RW_RETRY_LO r)).modRing r fun q => { q with
      lateEntry := q.lateEntry || read == .entry
      lateData := q.lateData || read == .frame
      lateRow := q.lateRow || read == .tableRow
      retryAt := some (s.dev.now + msT 1) }) →
    (s.dev.frontJob r 1 = none → exec (.hostReadTimeout r .tableRow) s = .next s) ∧
    (∀ j, s.dev.frontJob r 1 = some j →
      ((s.dev.ring r).lateRow = true → Makes (.hostReadTimeout r .tableRow) s fun _ =>
        (g.logFault ⟨8, s.dev.ringFn r, r⟩ 5 0 1).rowFails r 2 j) ∧
      ((s.dev.ring r).lateRow = false → Makes (.hostReadTimeout r .tableRow) s fun _ => again .tableRow)) ∧
    (s.dev.mayRead r = false → exec (.hostReadTimeout r .entry) s = .next s) ∧
    (s.dev.mayRead r = false ∨ s.dev.ringType r ≠ 1 → exec (.hostReadTimeout r .frame) s = .next s) ∧
    (s.dev.mayRead r = true →
      ((s.dev.ring r).lateEntry = true → Makes (.hostReadTimeout r .entry) s fun d =>
        (g.logFault ⟨8, s.dev.ringFn r, r⟩ 5 0 1).haltAt r 2 (d.ring r).k) ∧
      ((s.dev.ring r).lateEntry = false → Makes (.hostReadTimeout r .entry) s fun _ => again .entry) ∧
      (s.dev.ringType r = 1 →
        ((s.dev.ring r).lateData = true → Makes (.hostReadTimeout r .frame) s fun d =>
          (g.logFault ⟨8, s.dev.ringFn r, r⟩ 5 0 1).haltAt r 2 (d.ring r).k) ∧
        ((s.dev.ring r).lateData = false → Makes (.hostReadTimeout r .frame) s fun _ => again .frame)))
end

