-- ==== Sys2Proof/Laws/Bits.lean ====
section
/-! SUPPORT. Fields of a register word: what a field reads after it, or another, is set. -/

namespace Sys2Proof.Machine

/-- A word with field `f` set, as a number: what lies above the field, the new value, and what lies below. -/
theorem Fld.put_toNat (f : Fld) (v : Word) (n : Nat) (hf : f.lo + f.w ≤ 32) :
    (f.put v n).toNat = v.toNat / 2 ^ (f.lo + f.w) * 2 ^ (f.lo + f.w) + n % 2 ^ f.w * 2 ^ f.lo + v.toNat % 2 ^ f.lo := by
  obtain ⟨k, hk⟩ : ∃ k, 32 = f.lo + f.w + k := ⟨32 - (f.lo + f.w), by omega⟩
  have hA : 0 < 2 ^ f.lo := Nat.two_pow_pos _
  have hB : 0 < 2 ^ f.w := Nat.two_pow_pos _
  have hv : v.toNat < 2 ^ f.lo * 2 ^ f.w * 2 ^ k := by
    have h := v.isLt
    have h2 : (2 : Nat) ^ 32 = 2 ^ f.lo * 2 ^ f.w * 2 ^ k := by rw [← Nat.pow_add, ← Nat.pow_add, ← hk]
    omega
  generalize hA' : 2 ^ f.lo = a at *
  generalize hB' : 2 ^ f.w = b at *
  have hd : v.toNat = a * (v.toNat / a) + v.toNat % a := (Nat.div_add_mod _ _).symm
  have hd2 : v.toNat / a = b * (v.toNat / a / b) + v.toNat / a % b := (Nat.div_add_mod _ _).symm
  have hdd : v.toNat / a / b = v.toNat / (a * b) := Nat.div_div_eq_div_mul _ _ _
  have hq : v.toNat / (a * b) < 2 ^ k := Nat.div_lt_of_lt_mul hv
  have hn : n % b < b := Nat.mod_lt _ hB
  have hr : v.toNat % a < a := Nat.mod_lt _ hA
  have hpow : 2 ^ (f.lo + f.w) = a * b := by rw [Nat.pow_add, hA', hB']
  have h32 : (2 : Nat) ^ 32 = a * b * 2 ^ k := by rw [hk, Nat.pow_add, hpow]
  rw [hpow]
  generalize v.toNat / (a * b) = q at *
  generalize v.toNat % a = r at *
  generalize hm : n % b = m at *
  have e1 : v.toNat - v.toNat / a % b * a = q * (a * b) + r := by
    have : v.toNat = q * (a * b) + v.toNat / a % b * a + r := by
      conv => lhs; rw [hd, hd2, hdd]
      rw [Nat.mul_add, Nat.mul_comm (v.toNat / a % b) a, Nat.mul_comm q, Nat.mul_assoc]
    omega
  have lt : q * (a * b) + r + m * a < a * b * 2 ^ k := by
    have h1 : r + m * a < a * b := by
      have : m * a + a ≤ b * a := by rw [← Nat.succ_mul]; exact Nat.mul_le_mul_right a hn
      rw [Nat.mul_comm a b]
      omega
    have h2 : (q + 1) * (a * b) ≤ 2 ^ k * (a * b) := Nat.mul_le_mul_right _ hq
    rw [Nat.succ_mul] at h2
    rw [Nat.mul_comm (a * b)]
    omega
  rw [Fld.put, BitVec.toNat_ofNat, bitsOf, hA', hB', e1, hm, h32, Nat.mod_eq_of_lt lt]
  omega

/-- A field reads the value it was set to. -/
theorem Fld.get_put (f : Fld) (v : Word) (n : Nat) (hf : f.lo + f.w ≤ 32) : f.get (f.put v n) = n % 2 ^ f.w := by
  have hA : 0 < 2 ^ f.lo := Nat.two_pow_pos _
  rw [Fld.get, bitsOf, Fld.put_toNat f v n hf, Nat.pow_add]
  have hr : v.toNat % 2 ^ f.lo < 2 ^ f.lo := Nat.mod_lt _ hA
  generalize v.toNat / (2 ^ f.lo * 2 ^ f.w) = q
  generalize v.toNat % 2 ^ f.lo = r at *
  generalize hm : n % 2 ^ f.w = m
  have hm' : m % 2 ^ f.w = m := by rw [← hm, Nat.mod_mod]
  have e : q * (2 ^ f.lo * 2 ^ f.w) + m * 2 ^ f.lo + r = r + 2 ^ f.lo * (m + 2 ^ f.w * q) := by
    rw [Nat.mul_add, Nat.mul_comm m, Nat.mul_comm q, Nat.mul_assoc]
    omega
  rw [e, Nat.add_mul_div_left _ _ hA, Nat.div_eq_of_lt hr, Nat.zero_add, Nat.add_mul_mod_self_left, hm']

theorem bitsOf_low (x lo w : Nat) : bitsOf x lo w = x % 2 ^ (lo + w) / 2 ^ lo := by
  rw [bitsOf, Nat.pow_add, Nat.mod_mul_right_div_self]

/-- A field that lies apart reads as before. -/
theorem Fld.get_put_other (f g : Fld) (v : Word) (n : Nat) (hf : f.lo + f.w ≤ 32)
    (hd : g.lo + g.w ≤ f.lo ∨ f.lo + f.w ≤ g.lo) : g.get (f.put v n) = g.get v := by
  have hA : 0 < 2 ^ f.lo := Nat.two_pow_pos _
  have hr : v.toNat % 2 ^ f.lo < 2 ^ f.lo := Nat.mod_lt _ hA
  have hm : n % 2 ^ f.w < 2 ^ f.w := Nat.mod_lt _ (Nat.two_pow_pos _)
  rw [Fld.get, Fld.get, Fld.put_toNat f v n hf]
  rcases hd with hd | hd
  · obtain ⟨k, hk⟩ : ∃ k, f.lo = g.lo + g.w + k := ⟨f.lo - (g.lo + g.w), by omega⟩
    have dv : 2 ^ (g.lo + g.w) ∣ 2 ^ f.lo := ⟨2 ^ k, by rw [hk, Nat.pow_add]⟩
    have e : (v.toNat / 2 ^ (f.lo + f.w) * 2 ^ (f.lo + f.w) + n % 2 ^ f.w * 2 ^ f.lo + v.toNat % 2 ^ f.lo) % 2 ^ f.lo =
        v.toNat % 2 ^ f.lo := by
      have h : v.toNat / 2 ^ (f.lo + f.w) * 2 ^ (f.lo + f.w) + n % 2 ^ f.w * 2 ^ f.lo + v.toNat % 2 ^ f.lo =
          v.toNat % 2 ^ f.lo + 2 ^ f.lo * (v.toNat / 2 ^ (f.lo + f.w) * 2 ^ f.w + n % 2 ^ f.w) := by
        rw [Nat.pow_add, Nat.mul_add, Nat.mul_comm (2 ^ f.lo) (n % 2 ^ f.w), ← Nat.mul_assoc, ← Nat.mul_assoc,
          Nat.mul_comm (2 ^ f.lo) (v.toNat / (2 ^ f.lo * 2 ^ f.w))]
        omega
      rw [h, Nat.add_mul_mod_self_left, Nat.mod_mod]
    rw [bitsOf_low, bitsOf_low, ← Nat.mod_mod_of_dvd _ dv, e, Nat.mod_mod_of_dvd _ dv]
  · obtain ⟨k, hk⟩ : ∃ k, g.lo = f.lo + f.w + k := ⟨g.lo - (f.lo + f.w), by omega⟩
    have hB : 0 < 2 ^ (f.lo + f.w) := Nat.two_pow_pos _
    have lt : n % 2 ^ f.w * 2 ^ f.lo + v.toNat % 2 ^ f.lo < 2 ^ (f.lo + f.w) := by
      have h := Nat.mul_le_mul_right (2 ^ f.lo) (Nat.succ_le_of_lt hm)
      rw [Nat.succ_mul] at h
      rw [Nat.pow_add, Nat.mul_comm (2 ^ f.lo)]
      omega
    have e : (v.toNat / 2 ^ (f.lo + f.w) * 2 ^ (f.lo + f.w) + n % 2 ^ f.w * 2 ^ f.lo + v.toNat % 2 ^ f.lo) / 2 ^ (f.lo + f.w) =
        v.toNat / 2 ^ (f.lo + f.w) := by
      rw [Nat.add_assoc, Nat.mul_comm, Nat.mul_add_div hB, Nat.div_eq_of_lt lt, Nat.add_zero]
    rw [bitsOf, bitsOf, hk, Nat.pow_add 2 (f.lo + f.w) k, ← Nat.div_div_eq_div_mul, e, ← Nat.div_div_eq_div_mul]

end Sys2Proof.Machine
end

