-- ==== Sys2Proof/Laws/Exec.lean ====
section
/-! SUPPORT. The shape of every meaning: a function of the device, carried out if the command exists. -/

namespace Sys2Proof.Machine

/-- Every command that exists changes the device by a function of the device, and nothing else. -/
theorem exec_shape (c : Instr) (s : State) : ∃ f : Device → Device, ∀ p, exec c { s with pending := p } = ({ s with pending := p } : State).run c f := by
  cases c with
  | powerUp smbAddr => exact ⟨fun d => powerUp d smbAddr, fun _ => rfl⟩
  | supplyOutOfRange  => exact ⟨fun d => supplyOutOfRange d, fun _ => rfl⟩
  | resetRelease gpio ns => exact ⟨fun d => resetRelease d gpio ns, fun _ => rfl⟩
  | bootSourceAttempt img => exact ⟨fun d => bootSourceAttempt d img, fun _ => rfl⟩
  | bootImageComplete ack spent failed => exact ⟨fun d => bootImageComplete d ack spent failed, fun _ => rfl⟩
  | bootDlGo src => exact ⟨fun d => busWrite d src A.TOP_BOOT_DL_CMD 0xF (F.TOP_BOOT_DL_CMD_GO.put 0 1), fun _ => rfl⟩
  | devGo src => exact ⟨fun d => busWrite d src A.TOP_DEV_CTRL 0xF (F.TOP_DEV_CTRL_GO.put 0 1), fun _ => rfl⟩
  | enterRun  => exact ⟨fun d => if d.clocked then (enterRun d) else d, fun _ => rfl⟩
  | thermalShutdown celsius => exact ⟨fun d => thermalShutdown d celsius, fun _ => rfl⟩
  | coldReset src => exact ⟨fun d => busWrite d src A.TOP_RESET_CTRL 0xF (F.TOP_RESET_CTRL_COLD.put 0 1), fun _ => rfl⟩
  | warmReset src => exact ⟨fun d => busWrite d src A.TOP_RESET_CTRL 0xF (F.TOP_RESET_CTRL_WARM.put 0 1), fun _ => rfl⟩
  | perstFall  => exact ⟨fun d => perstFall d, fun _ => rfl⟩
  | resetHoldExpire gpio => exact ⟨fun d => resetHoldExpire d gpio, fun _ => rfl⟩
  | galFenceReq src mask => exact ⟨fun d => busWrite d src A.TOP_GAL_FENCE_REQ 0xF mask, fun _ => rfl⟩
  | galleryFence  => exact ⟨fun d => if d.clocked then (galleryFence d) else d, fun _ => rfl⟩
  | fenceDiscardStep  => exact ⟨fun d => if d.clocked then (fenceDiscardStep d) else d, fun _ => rfl⟩
  | galleryWatchdog gal => exact ⟨fun d => if d.clocked then (galleryWatchdog d gal) else d, fun _ => rfl⟩
  | galleryParityError gal => exact ⟨fun d => if d.clocked then (galleryParityError d gal) else d, fun _ => rfl⟩
  | fatalFault kind => exact ⟨fun d => if d.clocked then (fatalFault d kind) else d, fun _ => rfl⟩
  | strokeBoundary  => exact ⟨fun d => strokeBoundary d, fun _ => rfl⟩
  | genFlipRequest src data => exact ⟨fun d => busWrite d src A.TOP_GEN_CTRL 0xF (F.TOP_GEN_CTRL_FLIP.put data 1), fun _ => rfl⟩
  | genFlip  => exact ⟨fun d => if d.clocked then (genFlip d) else d, fun _ => rfl⟩
  | genReclaim  => exact ⟨fun d => if d.clocked then (genReclaim d) else d, fun _ => rfl⟩
  | genResyncEnd  => exact ⟨fun d => if d.clocked then (genResyncEnd d) else d, fun _ => rfl⟩
  | snapReq src => exact ⟨fun d => busWrite d src A.TOP_SNAP_CTRL 0xF (F.TOP_SNAP_CTRL_REQ.put 0 1), fun _ => rfl⟩
  | snapPeriodWrite src period => exact ⟨fun d => busWrite d src A.TOP_SNAP_PERIOD 0xF period, fun _ => rfl⟩
  | snapshot  => exact ⟨fun d => if d.clocked then (snapshotTake d) else d, fun _ => rfl⟩
  | snapPeriodic  => exact ⟨fun d => if d.clocked then (snapPeriodic d) else d, fun _ => rfl⟩
  | snapCopiesComplete  => exact ⟨fun d => if d.clocked then (snapCopiesComplete d) else d, fun _ => rfl⟩
  | snapMergedRead src => exact ⟨fun d => busReadStep d src A.TOP_SNAP_CTRL 0xF, fun _ => rfl⟩
  | profileStage src staged => exact ⟨fun d => busWrite d src A.TOP_PROFILE 0xF (F.TOP_PROFILE_STAGED.put 0 staged), fun _ => rfl⟩
  | coreFreqDown  => exact ⟨fun d => if d.clocked then (coreFreqDown d) else d, fun _ => rfl⟩
  | coreFreqUp  => exact ⟨fun d => if d.clocked then (coreFreqUp d) else d, fun _ => rfl⟩
  | avsReadback ack mv amps => exact ⟨fun d => if d.clocked then (avsReadback d ack mv amps) else d, fun _ => rfl⟩
  | refClockLost chiplet => exact ⟨fun d => refClockLost d chiplet, fun _ => rfl⟩
  | refClockRestored chiplet => exact ⟨fun d => refClockRestored d chiplet, fun _ => rfl⟩
  | signalDetect lane cyc => exact ⟨fun d => if d.clocked then (signalDetect d lane cyc) else d, fun _ => rfl⟩
  | signalLost lane cyc => exact ⟨fun d => if d.clocked then (signalLost d lane cyc) else d, fun _ => rfl⟩
  | anPageReceive port rates fec => exact ⟨fun d => if d.clocked then (anPageReceive d port rates fec) else d, fun _ => rfl⟩
  | trainingConverged port => exact ⟨fun d => if d.clocked then (trainingConverged d port) else d, fun _ => rfl⟩
  | trainingTimeout port => exact ⟨fun d => if d.clocked then (trainingTimeout d port) else d, fun _ => rfl⟩
  | blockLockAcquired lane inverted reversed phase => exact ⟨fun d => if d.clocked then (blockLockAcquired d lane inverted reversed phase) else d, fun _ => rfl⟩
  | laneUp port => exact ⟨fun d => if d.clocked then (laneUp d port) else d, fun _ => rfl⟩
  | blockLockLost lane cyc => exact ⟨fun d => if d.clocked then (blockLockLost d lane cyc) else d, fun _ => rfl⟩
  | fecUncorrLimit lane n cyc => exact ⟨fun d => if d.clocked then (fecUncorrLimit d lane n cyc) else d, fun _ => rfl⟩
  | snrLow lane snr cyc => exact ⟨fun d => if d.clocked then (snrLow d lane snr cyc) else d, fun _ => rfl⟩
  | laneDisable src lane data => exact ⟨fun d => busWrite d src (ofLane A.LANE_LN_CTRL lane) 0xF (F.LANE_LN_CTRL_EN.put data 0), fun _ => rfl⟩
  | laneTestEnter src lane data => exact ⟨fun d => busWrite d src (ofLane A.LANE_LN_CTRL lane) 0xF (F.LANE_LN_CTRL_TEST.put data 1), fun _ => rfl⟩
  | laneTestExit src lane data => exact ⟨fun d => busWrite d src (ofLane A.LANE_LN_CTRL lane) 0xF (F.LANE_LN_CTRL_TEST.put data 0), fun _ => rfl⟩
  | dormantRequest src port data => exact ⟨fun d => busWrite d src (ofLane A.LANE_LN_BRINGUP port) 0xF (F.LANE_LN_BRINGUP_DORMANT_REQ.put data 1), fun _ => rfl⟩
  | dormantRelease src port data => exact ⟨fun d => busWrite d src (ofLane A.LANE_LN_BRINGUP port) 0xF (F.LANE_LN_BRINGUP_DORMANT_REQ.put data 0), fun _ => rfl⟩
  | p7DormantEntry port => exact ⟨fun d => if d.clocked then (p7DormantEntry d port) else d, fun _ => rfl⟩
  | p7WakeTimeout port => exact ⟨fun d => if d.clocked then (p7WakeTimeout d port) else d, fun _ => rfl⟩
  | lpiEnter port cyc => exact ⟨fun d => if d.clocked then (lpiEnter d port cyc) else d, fun _ => rfl⟩
  | lpiExit port cyc => exact ⟨fun d => if d.clocked then (lpiExit d port cyc) else d, fun _ => rfl⟩
  | lpiPartnerSignal port cyc enter => exact ⟨fun d => if d.clocked then (lpiPartner d port cyc enter) else d, fun _ => rfl⟩
  | prbsLock lane => exact ⟨fun d => if d.clocked then (prbsLock d lane) else d, fun _ => rfl⟩
  | prbsLockLost lane errs => exact ⟨fun d => if d.clocked then (prbsLockLost d lane errs) else d, fun _ => rfl⟩
  | prbsClear src lane data => exact ⟨fun d => busWrite d src (ofLane A.LANE_LN_PRBS lane) 0xF (F.LANE_LN_PRBS_CLEAR.put data 1), fun _ => rfl⟩
  | errorInjectGo src lane data => exact ⟨fun d => busWrite d src (ofLane A.LANE_LN_INJ lane) 0xF (F.LANE_LN_INJ_GO.put data 1), fun _ => rfl⟩
  | errorInjectPeriodic lane cyc => exact ⟨fun d => if d.clocked then (errorInjectPeriodic d lane cyc) else d, fun _ => rfl⟩
  | bitslip src lane => exact ⟨fun d => busWrite d src (ofLane A.LANE_LN_BITSLIP lane) 0xF (F.LANE_LN_BITSLIP_SLIP.put 0 1), fun _ => rfl⟩
  | linkTrain link failedOut failedIn => exact ⟨fun d => if d.clocked then (linkTrain d link failedOut failedIn) else d, fun _ => rfl⟩
  | linkRetrain src link data => exact ⟨fun d => busWrite d src (ofLink A.D2D_LK_CTRL link) 0xF (F.D2D_LK_CTRL_RETRAIN.put data 1), fun _ => rfl⟩
  | d2dFlitReplay link dir lanes delivered => exact ⟨fun d => if d.clocked then (d2dFlitReplay d link dir lanes delivered) else d, fun _ => rfl⟩
  | d2dSleep link dir => exact ⟨fun d => if d.clocked then (d2dSleep d link dir) else d, fun _ => rfl⟩
  | d2dWake link dir => exact ⟨fun d => if d.clocked then (d2dWake d link dir) else d, fun _ => rfl⟩
  | lkSlipGo src link data => exact ⟨fun d => busWrite d src (ofLink A.D2D_LK_SLIP link) 0xF (F.D2D_LK_SLIP_GO.put data 1), fun _ => rfl⟩
  | portEnable src port data => exact ⟨fun d => busWrite d src (ofPort A.PORT_PT_CFG port) 0xF (F.PORT_PT_CFG_EN.put data 1), fun _ => rfl⟩
  | portDisable src port data => exact ⟨fun d => busWrite d src (ofPort A.PORT_PT_CFG port) 0xF (F.PORT_PT_CFG_EN.put data 0), fun _ => rfl⟩
  | portUp port => exact ⟨fun d => if d.clocked then (portUp d port) else d, fun _ => rfl⟩
  | portDown port fault => exact ⟨fun d => if d.clocked then (portDown d port fault) else d, fun _ => rfl⟩
  | frameReceiveStart port cyc lane raw sfd bytes => exact ⟨fun d => if d.clocked then (frameReceiveStart d port cyc lane raw sfd bytes) else d, fun _ => rfl⟩
  | headerAccept gal cyc => exact ⟨fun d => if d.clocked then (headerAccept d gal cyc) else d, fun _ => rfl⟩
  | parseResume port cyc bytes => exact ⟨fun d => if d.clocked then (parseResume d port cyc bytes) else d, fun _ => rfl⟩
  | fragmentHoldReenter gal => exact ⟨fun d => if d.clocked then (fragReenter d gal) else d, fun _ => rfl⟩
  | fftEntryExpire index => exact ⟨fun d => if d.clocked then (fftEntryExpire d index) else d, fun _ => rfl⟩
  | fftFlush src data => exact ⟨fun d => busWrite d src A.TABLE_FFT_CFG 0xF (F.TABLE_FFT_CFG_FLUSH.put data 1), fun _ => rfl⟩
  | extLookupReturn gal => exact ⟨fun d => if d.clocked then (extReturn d gal) else d, fun _ => rfl⟩
  | ingressPassEnd gal cyc => exact ⟨fun d => if d.clocked then (ingressPassEnd d gal cyc) else d, fun _ => rfl⟩
  | stairGrant gal cyc => exact ⟨fun d => if d.clocked then (stairGrant d gal cyc) else d, fun _ => rfl⟩
  | stairWaitExpire gal => exact ⟨fun d => if d.clocked then (stairExpire d gal) else d, fun _ => rfl⟩
  | frameReceiveEnd port cyc bytes codewords => exact ⟨fun d => if d.clocked then (frameReceiveEnd d port cyc bytes codewords) else d, fun _ => rfl⟩
  | icvCheckResult port cyc => exact ⟨fun d => if d.clocked then (icvCheckResult d port cyc) else d, fun _ => rfl⟩
  | pfcReceive port en quanta => exact ⟨fun d => if d.clocked then (pfcReceive d port en quanta) else d, fun _ => rfl⟩
  | pauseReceive port quanta => exact ⟨fun d => if d.clocked then (pauseReceive d port quanta) else d, fun _ => rfl⟩
  | pfcStopExpire port cyc => exact ⟨fun d => if d.clocked then (pfcStopExpire d port cyc) else d, fun _ => rfl⟩
  | pfcXoffRepeat port cyc => exact ⟨fun d => if d.clocked then (pfcXoffRepeat d port cyc) else d, fun _ => rfl⟩
  | pdelayExchange port cyc lane raw => exact ⟨fun d => if d.clocked then (pdelayExchange d port cyc lane raw) else d, fun _ => rfl⟩
  | pdelayRespReceive port cyc lane raw seq reqId t2 t3 => exact ⟨fun d => if d.clocked then (pdelayRespReceive d port cyc lane raw seq reqId t2 t3) else d, fun _ => rfl⟩
  | pdelayReqAnswer port cyc rxLane rxRaw txLane txRaw seq srcId corr => exact ⟨fun d => if d.clocked then (pdelayReqAnswer d port cyc rxLane rxRaw txLane txRaw seq srcId corr) else d, fun _ => rfl⟩
  | parseBankSwitchReq src => exact ⟨fun d => busWrite d src A.TOP_PARSE_BANK 0xF (F.TOP_PARSE_BANK_SWITCH.put 0 1), fun _ => rfl⟩
  | actWordWrite src gal => exact ⟨fun d => busWrite d src (A.MATCH_ACT_CMD gal) 0xF (F.MATCH_ACT_CMD_WRITE.put 0 1), fun _ => rfl⟩
  | actWordRead src gal => exact ⟨fun d => busWrite d src (A.MATCH_ACT_CMD gal) 0xF (F.MATCH_ACT_CMD_READ.put 0 1), fun _ => rfl⟩
  | egressSelect port cyc => exact ⟨fun d => if d.clocked then (egressSelect d port cyc) else d, fun _ => rfl⟩
  | egressFirstByte port cyc lane raw => exact ⟨fun d => if d.clocked then (egressFirstByte d port cyc lane raw) else d, fun _ => rfl⟩
  | frameTransmitEnd port => exact ⟨fun d => if d.clocked then (frameTransmitEnd d port) else d, fun _ => rfl⟩
  | ctUnderrun port => exact ⟨fun d => if d.clocked then (ctUnderrun d port) else d, fun _ => rfl⟩
  | cellEccUncorrectable port => exact ⟨fun d => if d.clocked then (cellEcc d port) else d, fun _ => rfl⟩
  | spillMove gal bad => exact ⟨fun d => if d.clocked then (spillMove d gal bad) else d, fun _ => rfl⟩
  | spillReturn gal bad => exact ⟨fun d => if d.clocked then (spillReturn d gal bad) else d, fun _ => rfl⟩
  | bankCopy bad => exact ⟨fun d => if d.clocked then (bankCopy d bad) else d, fun _ => rfl⟩
  | bankRemap  => exact ⟨fun d => if d.clocked then (bankRemap d) else d, fun _ => rfl⟩
  | bankLost  => exact ⟨fun d => if d.clocked then (bankLost d) else d, fun _ => rfl⟩
  | repListWrite src => exact ⟨fun d => busWrite d src A.HALL_REP_CMD 0xF (F.HALL_REP_CMD_WRITE.put 0 1), fun _ => rfl⟩
  | repListRead src => exact ⟨fun d => busWrite d src A.HALL_REP_CMD 0xF (F.HALL_REP_CMD_READ.put 0 1), fun _ => rfl⟩
  | billetGrant pool => exact ⟨fun d => if d.clocked then (billetGrant d pool) else d, fun _ => rfl⟩
  | billetFree pool => exact ⟨fun d => if d.clocked then (billetFree d pool) else d, fun _ => rfl⟩
  | billetCacheRefill pool => exact ⟨fun d => if d.clocked then (billetRefill d pool) else d, fun _ => rfl⟩
  | billetCacheWriteback pool => exact ⟨fun d => if d.clocked then (billetWriteback d pool) else d, fun _ => rfl⟩
  | gateCommit src port data => exact ⟨fun d => busWrite d src (ofPort A.GATE_GT_CTRL port) 0xF (F.GATE_GT_CTRL_COMMIT.put data 1), fun _ => rfl⟩
  | gateListTakeover port cyc => exact ⟨fun d => if d.clocked then (gateTakeover d port cyc) else d, fun _ => rfl⟩
  | gateEdge port cyc => exact ⟨fun d => if d.clocked then (gateEdge d port cyc) else d, fun _ => rfl⟩
  | keyCommit src aes256 => exact ⟨fun d => busWrite d src A.KEYS_KEY_CMD 0xF (F.KEYS_KEY_CMD_CIPHER.put (F.KEYS_KEY_CMD_COMMIT.put 0 1) (b2n aes256)), fun _ => rfl⟩
  | keyErase src aes256 => exact ⟨fun d => busWrite d src A.KEYS_KEY_CMD 0xF (F.KEYS_KEY_CMD_CIPHER.put (F.KEYS_KEY_CMD_ERASE.put 0 1) (b2n aes256)), fun _ => rfl⟩
  | keyCommitPoint at_ => exact ⟨fun d => if d.clocked then (keyCommitPoint d at_) else d, fun _ => rfl⟩
  | saPnWrite src gal hi => exact ⟨fun d => busWrite d src (A.INTEG_SA_PN_HI gal) 0xF hi, fun _ => rfl⟩
  | clockStepSet src => exact ⟨fun d => busWrite d src A.TIME_STEP_CTRL 0xF (F.TIME_STEP_CTRL_SET.put 0 1), fun _ => rfl⟩
  | clockStepAdd src => exact ⟨fun d => busWrite d src A.TIME_STEP_CTRL 0xF (F.TIME_STEP_CTRL_ADD.put 0 1), fun _ => rfl⟩
  | clockStepDone cyc => exact ⟨fun d => if d.clocked then (clockStepDone d cyc) else d, fun _ => rfl⟩
  | nowRead src => exact ⟨fun d => busReadStep d src A.TIME_NOW_FRAC 0xF, fun _ => rfl⟩
  | ext10mLost cyc => exact ⟨fun d => Device.ext10m false (fun d => ext10mLost d cyc) d, fun _ => rfl⟩
  | ext10mRestored cyc => exact ⟨fun d => Device.ext10m true (fun d => ext10mRestored d cyc) d, fun _ => rfl⟩
  | ledgerRecord cyc => exact ⟨fun d => if d.clocked then (ledgerRecord d cyc) else d, fun _ => rfl⟩
  | ledgerCopy src data => exact ⟨fun d => busWrite d src A.TIME_LEDGER_CTRL 0xF (F.TIME_LEDGER_CTRL_COPY.put data 1), fun _ => rfl⟩
  | ledgerCopyDone  => exact ⟨fun d => if d.clocked then (ledgerCopyDone d) else d, fun _ => rfl⟩
  | syncSend port cyc => exact ⟨fun d => if d.clocked then (syncSend d port cyc) else d, fun _ => rfl⟩
  | delayRespSend port cyc lane raw m => exact ⟨fun d => if d.clocked then (delayRespSend d port cyc lane raw m) else d, fun _ => rfl⟩
  | delayReqSend cyc => exact ⟨fun d => if d.clocked then (delayReqSend d cyc) else d, fun _ => rfl⟩
  | delayRespReceive port cyc m => exact ⟨fun d => if d.clocked then (delayRespReceive d port cyc m) else d, fun _ => rfl⟩
  | syncReceiveSample port cyc lane raw m => exact ⟨fun d => if d.clocked then (syncReceiveSample d port cyc lane raw m) else d, fun _ => rfl⟩
  | followUpReceive port cyc m => exact ⟨fun d => if d.clocked then (followUpReceive d port cyc m) else d, fun _ => rfl⟩
  | servoLossTimeout  => exact ⟨fun d => if d.clocked then (servoLossTimeout d) else d, fun _ => rfl⟩
  | ppsInEdge k cyc raw => exact ⟨fun d => if d.clocked then (ppsInEdge d k cyc raw) else d, fun _ => rfl⟩
  | timeEvtEdge k cyc raw rising => exact ⟨fun d => if d.clocked then (timeEvtEdge d k cyc raw rising) else d, fun _ => rfl⟩
  | evtFifoRead src k => exact ⟨fun d => busReadStep d src (A.TIME_EV_FRAC k) 0xF, fun _ => rfl⟩
  | ppsOutEdge k cyc => exact ⟨fun d => if d.clocked then (ppsOutEdge d k cyc) else d, fun _ => rfl⟩
  | triggerEnable src k data => exact ⟨fun d => busWrite d src (A.TIME_TR_CTRL k) 0xF (F.TIME_TR_CTRL_EN.put data 1), fun _ => rfl⟩
  | triggerPulse k cyc => exact ⟨fun d => if d.clocked then (triggerPulse d k cyc) else d, fun _ => rfl⟩
  | flowMissFetch  => exact ⟨fun d => if d.clocked then (flowMissFetch d) else d, fun _ => rfl⟩
  | flowSweepVisit  => exact ⟨fun d => if d.clocked then (flowSweepVisit d) else d, fun _ => rfl⟩
  | flowFlush src data => exact ⟨fun d => busWrite d src A.TELEM_FS_CFG 0xF (F.TELEM_FS_CFG_FLUSH.put data 1), fun _ => rfl⟩
  | datagramClose packer coll kind => exact ⟨fun d => if d.clocked then (datagramClose d packer coll kind) else d, fun _ => rfl⟩
  | groupEnable src data => exact ⟨fun d => busWrite d src A.ANVIL_G_CFG 0xF (F.ANVIL_G_CFG_VALID.put data 1), fun _ => rfl⟩
  | groupDisable src data => exact ⟨fun d => busWrite d src A.ANVIL_G_CFG 0xF (F.ANVIL_G_CFG_VALID.put data 0), fun _ => rfl⟩
  | contribReceive anvil => exact ⟨fun d => if d.clocked then (contribReceive d anvil) else d, fun _ => rfl⟩
  | resultReceive anvil => exact ⟨fun d => if d.clocked then (resultReceive d anvil) else d, fun _ => rfl⟩
  | nackReceive anvil => exact ⟨fun d => if d.clocked then (nackReceive d anvil) else d, fun _ => rfl⟩
  | abortReceive anvil => exact ⟨fun d => if d.clocked then (abortReceive d anvil) else d, fun _ => rfl⟩
  | nackTimerExpire group => exact ⟨fun d => if d.clocked then (nackTimer d group) else d, fun _ => rfl⟩
  | upTimerExpire group => exact ⟨fun d => if d.clocked then (upTimer d group) else d, fun _ => rfl⟩
  | retainComplete anvil => exact ⟨fun d => if d.clocked then (retainComplete d anvil) else d, fun _ => rfl⟩
  | retainExpire group => exact ⟨fun d => if d.clocked then (retainExpire d group) else d, fun _ => rfl⟩
  | microwordIssue seq cyc => exact ⟨fun d => if d.clocked then (microwordIssue d seq cyc) else d, fun _ => rfl⟩
  | waitConditionMet seq cyc => exact ⟨fun d => if d.clocked then (waitConditionMet d seq cyc) else d, fun _ => rfl⟩
  | waitTimeout seq => exact ⟨fun d => if d.clocked then (waitTimeout d seq) else d, fun _ => rfl⟩
  | busAccessComplete seq cyc => exact ⟨fun d => if d.clocked then (busAccessComplete d seq cyc) else d, fun _ => rfl⟩
  | lhTransferComplete seq => exact ⟨fun d => if d.clocked then (lhTransferComplete d seq) else d, fun _ => rfl⟩
  | seqEventPost seq ev => exact ⟨fun d => if d.clocked then (seqEventPost d seq ev) else d, fun _ => rfl⟩
  | imageLoad src role data => exact ⟨fun d => busWrite d src (A.SEQ_RL_CMD (role - 1)) 0xF (F.SEQ_RL_CMD_LOAD.put data 1), fun _ => rfl⟩
  | imageLoadDone role img => exact ⟨fun d => if d.clocked then (imageLoadDone d role img) else d, fun _ => rfl⟩
  | imageSwitch src role data => exact ⟨fun d => busWrite d src (A.SEQ_RL_CMD (role - 1)) 0xF (F.SEQ_RL_CMD_SWITCH.put data 1), fun _ => rfl⟩
  | imageSwitchMade role => exact ⟨fun d => if d.clocked then (imageSwitchMade d role) else d, fun _ => rfl⟩
  | imageSwitchTimeout role => exact ⟨fun d => if d.clocked then (imageSwitchTimeout d role) else d, fun _ => rfl⟩
  | seqRestart src seq => exact ⟨fun d => busWrite d src (A.SEQ_SQ_CTRL seq) 0xF (F.SEQ_SQ_CTRL_RESTART.put 0 1), fun _ => rfl⟩
  | seqStop src seq => exact ⟨fun d => busWrite d src (A.SEQ_SQ_CTRL seq) 0xF (F.SEQ_SQ_CTRL_STOP.put 0 1), fun _ => rfl⟩
  | mboxWrite src seq value => exact ⟨fun d => busWrite d src (A.SEQ_SQ_MBOX_IN seq) 0xF value, fun _ => rfl⟩
  | learnAdmit cyc => exact ⟨fun d => if d.clocked then (learnAdmit d cyc) else d, fun _ => rfl⟩
  | ageSweepStart  => exact ⟨fun d => if d.clocked then (ageSweepStart d) else d, fun _ => rfl⟩
  | replaceDone  => exact ⟨fun d => if d.clocked then (replaceDone d) else d, fun _ => rfl⟩
  | lockExpire row => exact ⟨fun d => if d.clocked then (lockExpire d row) else d, fun _ => rfl⟩
  | tdmaRead ring => exact ⟨fun d => if d.clocked then (tdmaRead d ring) else d, fun _ => rfl⟩
  | tdmaWrite ring data => exact ⟨fun d => if d.clocked then (tdmaWrite d ring data) else d, fun _ => rfl⟩
  | tdmaLock ring => exact ⟨fun d => if d.clocked then (tdmaLock d ring) else d, fun _ => rfl⟩
  | tdmaUnlock ring => exact ⟨fun d => if d.clocked then (tdmaUnlock d ring) else d, fun _ => rfl⟩
  | ringEnable via ring data => exact ⟨fun d => d.viaRing via ring (F.RINGS_RW_CTRL_EN.put data 1), fun _ => rfl⟩
  | ringDisable via ring data => exact ⟨fun d => d.viaRing via ring (F.RINGS_RW_CTRL_EN.put data 0), fun _ => rfl⟩
  | ringPoll ring => exact ⟨fun d => if d.clocked then (ringPoll d ring) else d, fun _ => rfl⟩
  | ringEntryRead ring entry body => exact ⟨fun d => if d.clocked then (ringEntryRead d ring entry body) else d, fun _ => rfl⟩
  | rxPacketWrite ring => exact ⟨fun d => if d.clocked then (rxPacketWrite d ring) else d, fun _ => rfl⟩
  | noticeWrite  => exact ⟨fun d => if d.clocked then (noticeWrite d) else d, fun _ => rfl⟩
  | hostReadTimeout ring row => exact ⟨fun d => if d.clocked then (hostReadTimeout d ring row) else d, fun _ => rfl⟩
  | hostReadRetry ring => exact ⟨fun d => if d.clocked then (hostReadRetry d ring) else d, fun _ => rfl⟩
  | ringResume via ring data => exact ⟨fun d => d.viaRing via ring (F.RINGS_RW_CTRL_RESUME.put data 1), fun _ => rfl⟩
  | functionLevelReset vf => exact ⟨fun d => if d.clocked then (functionLevelReset d vf) else d, fun _ => rfl⟩
  | registerWrite via addr be data cyc => exact ⟨fun d => d.writeAt via addr be data cyc, fun _ => rfl⟩
  | loReadLatch via addr be => exact ⟨fun d => d.viaRead via addr be, fun _ => rfl⟩
  | bootLock src => exact ⟨fun d => busWrite d src A.TOP_BOOT_LOCK 0xF (F.TOP_BOOT_LOCK_LOCKED.put 0 1), fun _ => rfl⟩
  | errClr src page cyc => exact ⟨fun d => d.writeAt (viaOf src) (pageBase page + 0x08) 0xF 1 cyc, fun _ => rfl⟩
  | irqForce src page bits => exact ⟨fun d => busWrite d src (pageBase page + 0x18) 0xF bits, fun _ => rfl⟩
  | stairPeakRead src gal => exact ⟨fun d => busReadStep d src (A.STAIR_STAT gal) 0xF, fun _ => rfl⟩
  | damperPeakRead src temp => exact ⟨fun d => busReadStep d src (if temp then A.DAMPER_TEMP else A.DAMPER_PEAK) 0xF, fun _ => rfl⟩
  | rasLogRead src => exact ⟨fun d => busReadStep d src (A.RAS_LOG 0) 0xF, fun _ => rfl⟩
  | sampleFifoRead src gal => exact ⟨fun d => busReadStep d src (A.GCNT_SMP gal 0) 0xF, fun _ => rfl⟩
  | pcValCommit src page k hi cyc => exact ⟨fun d => d.writeAt (viaOf src) (match page with | some n => A.GCNT_PC_VAL_HI n k | none => A.CNT_PC_VAL_HI k) 0xF hi cyc, fun _ => rfl⟩
  | pcClearAll src page freeze => exact ⟨fun d => busWrite d src (match page with | some n => A.GCNT_PC_GCTL n | none => A.CNT_PC_GCTL) 0xF (F.GCNT_PC_GCTL_FREEZE.put 2 (b2n freeze)), fun _ => rfl⟩
  | sampleSkidEnd gal cyc => exact ⟨fun d => if d.clocked then (sampleSkidEnd d gal cyc) else d, fun _ => rfl⟩
  | vrThrottleAssert  => exact ⟨fun d => vrThrottleAssert d, fun _ => rfl⟩
  | vrThrottleRelease  => exact ⟨fun d => vrThrottleRelease d, fun _ => rfl⟩
  | thermalSensorRead temps => exact ⟨fun d => if d.clocked then (thermalSensorRead d temps) else d, fun _ => rfl⟩
  | thermalDemandStep  => exact ⟨fun d => if d.clocked then (thermalDemandStep d) else d, fun _ => rfl⟩
  | paceLevelStep  => exact ⟨fun d => if d.clocked then (paceLevelStep d) else d, fun _ => rfl⟩
  | pacingPeriod  => exact ⟨fun d => if d.clocked then (pacingPeriod d) else d, fun _ => rfl⟩
  | quenchStart cyc => exact ⟨fun d => if d.clocked then (quenchStart d cyc) else d, fun _ => rfl⟩
  | quenchRelease cyc => exact ⟨fun d => if d.clocked then (quenchRelease d cyc) else d, fun _ => rfl⟩
  | sramEccCorrected unit inst addr => exact ⟨fun d => if d.clocked then (sramEccCorrected d ⟨unit, inst, addr⟩) else d, fun _ => rfl⟩
  | sramEccUncorrectable unit inst addr => exact ⟨fun d => if d.clocked then (sramEccUncorrectable d ⟨unit, inst, addr⟩) else d, fun _ => rfl⟩
  | rowTestComplete unit inst addr ok => exact ⟨fun d => if d.clocked then (rowTestComplete d ⟨unit, inst, addr⟩ ok) else d, fun _ => rfl⟩
  | rowRepairSwitch  => exact ⟨fun d => if d.clocked then (rowRepairSwitch d) else d, fun _ => rfl⟩
  | lhEccCorrected stack unit resource => exact ⟨fun d => if d.clocked then (lhEccCorrected d stack unit resource) else d, fun _ => rfl⟩
  | recordWrite ok => exact ⟨fun d => if d.clocked then (recordWrite d ok) else d, fun _ => rfl⟩
  | rrClear src data => exact ⟨fun d => busWrite d src A.RAS_RR_CFG 0xF (F.RAS_RR_CFG_CLEAR.put data 1), fun _ => rfl⟩
  | smbusWrite to_ data pec => exact ⟨fun d => smbusWrite d to_ data pec, fun _ => rfl⟩
  | smbusSetAddress to_ data pec => exact ⟨fun d => smbusSetAddress d to_ data pec, fun _ => rfl⟩
  | smbusRead to_ clocked => exact ⟨fun d => smbusRead d to_ clocked, fun _ => rfl⟩
  | smbusTimeout  => exact ⟨fun d => smbusTimeout d, fun _ => rfl⟩
  | jtagIdcode  => exact ⟨fun d => jtagIdcode d, fun _ => rfl⟩
  | jtagBypass  => exact ⟨fun d => jtagBypass d, fun _ => rfl⟩
  | jtagSamplePreload levels preload => exact ⟨fun d => jtagSample d levels preload, fun _ => rfl⟩
  | jtagExtest levels => exact ⟨fun d => jtagExtest d levels, fun _ => rfl⟩
  | jtagClamp  => exact ⟨fun d => jtagClamp d, fun _ => rfl⟩
  | jtagHighz  => exact ⟨fun d => jtagHighz d, fun _ => rfl⟩
  | jtagTrst low => exact ⟨fun d => jtagTrst d low, fun _ => rfl⟩
  | msixVectorUnmask entry => exact ⟨fun d => if d.clocked then (msixVectorUnmask d entry) else d, fun _ => rfl⟩
  | delayRespMissed  => exact ⟨fun d => if d.clocked then (delayRespMissed d) else d, fun _ => rfl⟩
  | ppsInCapRead src k => exact ⟨fun d => busReadStep d src (A.TIME_PPS_IN_CAP_FRAC k) 0xF, fun _ => rfl⟩
  | rasLogStatRead src => exact ⟨fun d => busReadStep d src A.RAS_LOG_STAT 0xF, fun _ => rfl⟩
  | cycleCounterWrap page k cyc => exact ⟨fun d => if d.clocked then (cycleCounterWrap d page k cyc) else d, fun _ => rfl⟩
  | imageReadTimeout role => exact ⟨fun d => if d.clocked then (imageReadTimeout d role) else d, fun _ => rfl⟩

/-- Every event on the core clock is carried out through it. -/
theorem exec_onClock (c : Instr) (h : c.onCoreClock = true) : ∃ f : Device → Device, ∀ s : State, exec c s = s.onClock c f := by
  cases c with
  | powerUp _ => exact absurd h (fun h => nomatch (h : false = true))
  | supplyOutOfRange => exact absurd h (fun h => nomatch (h : false = true))
  | resetRelease _ _ => exact absurd h (fun h => nomatch (h : false = true))
  | bootSourceAttempt _ => exact absurd h (fun h => nomatch (h : false = true))
  | bootImageComplete _ _ _ => exact absurd h (fun h => nomatch (h : false = true))
  | bootDlGo _ => exact absurd h (fun h => nomatch (h : false = true))
  | devGo _ => exact absurd h (fun h => nomatch (h : false = true))
  | enterRun  => exact ⟨fun d => enterRun d, fun _ => rfl⟩
  | thermalShutdown _ => exact absurd h (fun h => nomatch (h : false = true))
  | coldReset _ => exact absurd h (fun h => nomatch (h : false = true))
  | warmReset _ => exact absurd h (fun h => nomatch (h : false = true))
  | perstFall => exact absurd h (fun h => nomatch (h : false = true))
  | resetHoldExpire _ => exact absurd h (fun h => nomatch (h : false = true))
  | galFenceReq _ _ => exact absurd h (fun h => nomatch (h : false = true))
  | galleryFence  => exact ⟨fun d => galleryFence d, fun _ => rfl⟩
  | fenceDiscardStep  => exact ⟨fun d => fenceDiscardStep d, fun _ => rfl⟩
  | galleryWatchdog gal => exact ⟨fun d => galleryWatchdog d gal, fun _ => rfl⟩
  | galleryParityError gal => exact ⟨fun d => galleryParityError d gal, fun _ => rfl⟩
  | fatalFault kind => exact ⟨fun d => fatalFault d kind, fun _ => rfl⟩
  | strokeBoundary => exact absurd h (fun h => nomatch (h : false = true))
  | genFlipRequest _ _ => exact absurd h (fun h => nomatch (h : false = true))
  | genFlip  => exact ⟨fun d => genFlip d, fun _ => rfl⟩
  | genReclaim  => exact ⟨fun d => genReclaim d, fun _ => rfl⟩
  | genResyncEnd  => exact ⟨fun d => genResyncEnd d, fun _ => rfl⟩
  | snapReq _ => exact absurd h (fun h => nomatch (h : false = true))
  | snapPeriodWrite _ _ => exact absurd h (fun h => nomatch (h : false = true))
  | snapshot  => exact ⟨fun d => snapshotTake d, fun _ => rfl⟩
  | snapPeriodic  => exact ⟨fun d => snapPeriodic d, fun _ => rfl⟩
  | snapCopiesComplete  => exact ⟨fun d => snapCopiesComplete d, fun _ => rfl⟩
  | snapMergedRead _ => exact absurd h (fun h => nomatch (h : false = true))
  | profileStage _ _ => exact absurd h (fun h => nomatch (h : false = true))
  | coreFreqDown  => exact ⟨fun d => coreFreqDown d, fun _ => rfl⟩
  | coreFreqUp  => exact ⟨fun d => coreFreqUp d, fun _ => rfl⟩
  | avsReadback ack mv amps => exact ⟨fun d => avsReadback d ack mv amps, fun _ => rfl⟩
  | refClockLost _ => exact absurd h (fun h => nomatch (h : false = true))
  | refClockRestored _ => exact absurd h (fun h => nomatch (h : false = true))
  | signalDetect lane cyc => exact ⟨fun d => signalDetect d lane cyc, fun _ => rfl⟩
  | signalLost lane cyc => exact ⟨fun d => signalLost d lane cyc, fun _ => rfl⟩
  | anPageReceive port rates fec => exact ⟨fun d => anPageReceive d port rates fec, fun _ => rfl⟩
  | trainingConverged port => exact ⟨fun d => trainingConverged d port, fun _ => rfl⟩
  | trainingTimeout port => exact ⟨fun d => trainingTimeout d port, fun _ => rfl⟩
  | blockLockAcquired lane inverted reversed phase => exact ⟨fun d => blockLockAcquired d lane inverted reversed phase, fun _ => rfl⟩
  | laneUp port => exact ⟨fun d => laneUp d port, fun _ => rfl⟩
  | blockLockLost lane cyc => exact ⟨fun d => blockLockLost d lane cyc, fun _ => rfl⟩
  | fecUncorrLimit lane n cyc => exact ⟨fun d => fecUncorrLimit d lane n cyc, fun _ => rfl⟩
  | snrLow lane snr cyc => exact ⟨fun d => snrLow d lane snr cyc, fun _ => rfl⟩
  | laneDisable _ _ _ => exact absurd h (fun h => nomatch (h : false = true))
  | laneTestEnter _ _ _ => exact absurd h (fun h => nomatch (h : false = true))
  | laneTestExit _ _ _ => exact absurd h (fun h => nomatch (h : false = true))
  | dormantRequest _ _ _ => exact absurd h (fun h => nomatch (h : false = true))
  | dormantRelease _ _ _ => exact absurd h (fun h => nomatch (h : false = true))
  | p7DormantEntry port => exact ⟨fun d => p7DormantEntry d port, fun _ => rfl⟩
  | p7WakeTimeout port => exact ⟨fun d => p7WakeTimeout d port, fun _ => rfl⟩
  | lpiEnter port cyc => exact ⟨fun d => lpiEnter d port cyc, fun _ => rfl⟩
  | lpiExit port cyc => exact ⟨fun d => lpiExit d port cyc, fun _ => rfl⟩
  | lpiPartnerSignal port cyc enter => exact ⟨fun d => lpiPartner d port cyc enter, fun _ => rfl⟩
  | prbsLock lane => exact ⟨fun d => prbsLock d lane, fun _ => rfl⟩
  | prbsLockLost lane errs => exact ⟨fun d => prbsLockLost d lane errs, fun _ => rfl⟩
  | prbsClear _ _ _ => exact absurd h (fun h => nomatch (h : false = true))
  | errorInjectGo _ _ _ => exact absurd h (fun h => nomatch (h : false = true))
  | errorInjectPeriodic lane cyc => exact ⟨fun d => errorInjectPeriodic d lane cyc, fun _ => rfl⟩
  | bitslip _ _ => exact absurd h (fun h => nomatch (h : false = true))
  | linkTrain link failedOut failedIn => exact ⟨fun d => linkTrain d link failedOut failedIn, fun _ => rfl⟩
  | linkRetrain _ _ _ => exact absurd h (fun h => nomatch (h : false = true))
  | d2dFlitReplay link dir lanes delivered => exact ⟨fun d => d2dFlitReplay d link dir lanes delivered, fun _ => rfl⟩
  | d2dSleep link dir => exact ⟨fun d => d2dSleep d link dir, fun _ => rfl⟩
  | d2dWake link dir => exact ⟨fun d => d2dWake d link dir, fun _ => rfl⟩
  | lkSlipGo _ _ _ => exact absurd h (fun h => nomatch (h : false = true))
  | portEnable _ _ _ => exact absurd h (fun h => nomatch (h : false = true))
  | portDisable _ _ _ => exact absurd h (fun h => nomatch (h : false = true))
  | portUp port => exact ⟨fun d => portUp d port, fun _ => rfl⟩
  | portDown port fault => exact ⟨fun d => portDown d port fault, fun _ => rfl⟩
  | frameReceiveStart port cyc lane raw sfd bytes => exact ⟨fun d => frameReceiveStart d port cyc lane raw sfd bytes, fun _ => rfl⟩
  | headerAccept gal cyc => exact ⟨fun d => headerAccept d gal cyc, fun _ => rfl⟩
  | parseResume port cyc bytes => exact ⟨fun d => parseResume d port cyc bytes, fun _ => rfl⟩
  | fragmentHoldReenter gal => exact ⟨fun d => fragReenter d gal, fun _ => rfl⟩
  | fftEntryExpire index => exact ⟨fun d => fftEntryExpire d index, fun _ => rfl⟩
  | fftFlush _ _ => exact absurd h (fun h => nomatch (h : false = true))
  | extLookupReturn gal => exact ⟨fun d => extReturn d gal, fun _ => rfl⟩
  | ingressPassEnd gal cyc => exact ⟨fun d => ingressPassEnd d gal cyc, fun _ => rfl⟩
  | stairGrant gal cyc => exact ⟨fun d => stairGrant d gal cyc, fun _ => rfl⟩
  | stairWaitExpire gal => exact ⟨fun d => stairExpire d gal, fun _ => rfl⟩
  | frameReceiveEnd port cyc bytes codewords => exact ⟨fun d => frameReceiveEnd d port cyc bytes codewords, fun _ => rfl⟩
  | icvCheckResult port cyc => exact ⟨fun d => icvCheckResult d port cyc, fun _ => rfl⟩
  | pfcReceive port en quanta => exact ⟨fun d => pfcReceive d port en quanta, fun _ => rfl⟩
  | pauseReceive port quanta => exact ⟨fun d => pauseReceive d port quanta, fun _ => rfl⟩
  | pfcStopExpire port cyc => exact ⟨fun d => pfcStopExpire d port cyc, fun _ => rfl⟩
  | pfcXoffRepeat port cyc => exact ⟨fun d => pfcXoffRepeat d port cyc, fun _ => rfl⟩
  | pdelayExchange port cyc lane raw => exact ⟨fun d => pdelayExchange d port cyc lane raw, fun _ => rfl⟩
  | pdelayRespReceive port cyc lane raw seq reqId t2 t3 => exact ⟨fun d => pdelayRespReceive d port cyc lane raw seq reqId t2 t3, fun _ => rfl⟩
  | pdelayReqAnswer port cyc rxLane rxRaw txLane txRaw seq srcId corr => exact ⟨fun d => pdelayReqAnswer d port cyc rxLane rxRaw txLane txRaw seq srcId corr, fun _ => rfl⟩
  | parseBankSwitchReq _ => exact absurd h (fun h => nomatch (h : false = true))
  | actWordWrite _ _ => exact absurd h (fun h => nomatch (h : false = true))
  | actWordRead _ _ => exact absurd h (fun h => nomatch (h : false = true))
  | egressSelect port cyc => exact ⟨fun d => egressSelect d port cyc, fun _ => rfl⟩
  | egressFirstByte port cyc lane raw => exact ⟨fun d => egressFirstByte d port cyc lane raw, fun _ => rfl⟩
  | frameTransmitEnd port => exact ⟨fun d => frameTransmitEnd d port, fun _ => rfl⟩
  | ctUnderrun port => exact ⟨fun d => ctUnderrun d port, fun _ => rfl⟩
  | cellEccUncorrectable port => exact ⟨fun d => cellEcc d port, fun _ => rfl⟩
  | spillMove gal bad => exact ⟨fun d => spillMove d gal bad, fun _ => rfl⟩
  | spillReturn gal bad => exact ⟨fun d => spillReturn d gal bad, fun _ => rfl⟩
  | bankCopy bad => exact ⟨fun d => bankCopy d bad, fun _ => rfl⟩
  | bankRemap  => exact ⟨fun d => bankRemap d, fun _ => rfl⟩
  | bankLost  => exact ⟨fun d => bankLost d, fun _ => rfl⟩
  | repListWrite _ => exact absurd h (fun h => nomatch (h : false = true))
  | repListRead _ => exact absurd h (fun h => nomatch (h : false = true))
  | billetGrant pool => exact ⟨fun d => billetGrant d pool, fun _ => rfl⟩
  | billetFree pool => exact ⟨fun d => billetFree d pool, fun _ => rfl⟩
  | billetCacheRefill pool => exact ⟨fun d => billetRefill d pool, fun _ => rfl⟩
  | billetCacheWriteback pool => exact ⟨fun d => billetWriteback d pool, fun _ => rfl⟩
  | gateCommit _ _ _ => exact absurd h (fun h => nomatch (h : false = true))
  | gateListTakeover port cyc => exact ⟨fun d => gateTakeover d port cyc, fun _ => rfl⟩
  | gateEdge port cyc => exact ⟨fun d => gateEdge d port cyc, fun _ => rfl⟩
  | keyCommit _ _ => exact absurd h (fun h => nomatch (h : false = true))
  | keyErase _ _ => exact absurd h (fun h => nomatch (h : false = true))
  | keyCommitPoint at_ => exact ⟨fun d => keyCommitPoint d at_, fun _ => rfl⟩
  | saPnWrite _ _ _ => exact absurd h (fun h => nomatch (h : false = true))
  | clockStepSet _ => exact absurd h (fun h => nomatch (h : false = true))
  | clockStepAdd _ => exact absurd h (fun h => nomatch (h : false = true))
  | clockStepDone cyc => exact ⟨fun d => clockStepDone d cyc, fun _ => rfl⟩
  | nowRead _ => exact absurd h (fun h => nomatch (h : false = true))
  | ext10mLost _ => exact absurd h (fun h => nomatch (h : false = true))
  | ext10mRestored _ => exact absurd h (fun h => nomatch (h : false = true))
  | ledgerRecord cyc => exact ⟨fun d => ledgerRecord d cyc, fun _ => rfl⟩
  | ledgerCopy _ _ => exact absurd h (fun h => nomatch (h : false = true))
  | ledgerCopyDone  => exact ⟨fun d => ledgerCopyDone d, fun _ => rfl⟩
  | syncSend port cyc => exact ⟨fun d => syncSend d port cyc, fun _ => rfl⟩
  | delayRespSend port cyc lane raw m => exact ⟨fun d => delayRespSend d port cyc lane raw m, fun _ => rfl⟩
  | delayReqSend cyc => exact ⟨fun d => delayReqSend d cyc, fun _ => rfl⟩
  | delayRespReceive port cyc m => exact ⟨fun d => delayRespReceive d port cyc m, fun _ => rfl⟩
  | syncReceiveSample port cyc lane raw m => exact ⟨fun d => syncReceiveSample d port cyc lane raw m, fun _ => rfl⟩
  | followUpReceive port cyc m => exact ⟨fun d => followUpReceive d port cyc m, fun _ => rfl⟩
  | servoLossTimeout  => exact ⟨fun d => servoLossTimeout d, fun _ => rfl⟩
  | ppsInEdge k cyc raw => exact ⟨fun d => ppsInEdge d k cyc raw, fun _ => rfl⟩
  | timeEvtEdge k cyc raw rising => exact ⟨fun d => timeEvtEdge d k cyc raw rising, fun _ => rfl⟩
  | evtFifoRead _ _ => exact absurd h (fun h => nomatch (h : false = true))
  | ppsOutEdge k cyc => exact ⟨fun d => ppsOutEdge d k cyc, fun _ => rfl⟩
  | triggerEnable _ _ _ => exact absurd h (fun h => nomatch (h : false = true))
  | triggerPulse k cyc => exact ⟨fun d => triggerPulse d k cyc, fun _ => rfl⟩
  | flowMissFetch  => exact ⟨fun d => flowMissFetch d, fun _ => rfl⟩
  | flowSweepVisit  => exact ⟨fun d => flowSweepVisit d, fun _ => rfl⟩
  | flowFlush _ _ => exact absurd h (fun h => nomatch (h : false = true))
  | datagramClose packer coll kind => exact ⟨fun d => datagramClose d packer coll kind, fun _ => rfl⟩
  | groupEnable _ _ => exact absurd h (fun h => nomatch (h : false = true))
  | groupDisable _ _ => exact absurd h (fun h => nomatch (h : false = true))
  | contribReceive anvil => exact ⟨fun d => contribReceive d anvil, fun _ => rfl⟩
  | resultReceive anvil => exact ⟨fun d => resultReceive d anvil, fun _ => rfl⟩
  | nackReceive anvil => exact ⟨fun d => nackReceive d anvil, fun _ => rfl⟩
  | abortReceive anvil => exact ⟨fun d => abortReceive d anvil, fun _ => rfl⟩
  | nackTimerExpire group => exact ⟨fun d => nackTimer d group, fun _ => rfl⟩
  | upTimerExpire group => exact ⟨fun d => upTimer d group, fun _ => rfl⟩
  | retainComplete anvil => exact ⟨fun d => retainComplete d anvil, fun _ => rfl⟩
  | retainExpire group => exact ⟨fun d => retainExpire d group, fun _ => rfl⟩
  | microwordIssue seq cyc => exact ⟨fun d => microwordIssue d seq cyc, fun _ => rfl⟩
  | waitConditionMet seq cyc => exact ⟨fun d => waitConditionMet d seq cyc, fun _ => rfl⟩
  | waitTimeout seq => exact ⟨fun d => waitTimeout d seq, fun _ => rfl⟩
  | busAccessComplete seq cyc => exact ⟨fun d => busAccessComplete d seq cyc, fun _ => rfl⟩
  | lhTransferComplete seq => exact ⟨fun d => lhTransferComplete d seq, fun _ => rfl⟩
  | seqEventPost seq ev => exact ⟨fun d => seqEventPost d seq ev, fun _ => rfl⟩
  | imageLoad _ _ _ => exact absurd h (fun h => nomatch (h : false = true))
  | imageLoadDone role img => exact ⟨fun d => imageLoadDone d role img, fun _ => rfl⟩
  | imageSwitch _ _ _ => exact absurd h (fun h => nomatch (h : false = true))
  | imageSwitchMade role => exact ⟨fun d => imageSwitchMade d role, fun _ => rfl⟩
  | imageSwitchTimeout role => exact ⟨fun d => imageSwitchTimeout d role, fun _ => rfl⟩
  | seqRestart _ _ => exact absurd h (fun h => nomatch (h : false = true))
  | seqStop _ _ => exact absurd h (fun h => nomatch (h : false = true))
  | mboxWrite _ _ _ => exact absurd h (fun h => nomatch (h : false = true))
  | learnAdmit cyc => exact ⟨fun d => learnAdmit d cyc, fun _ => rfl⟩
  | ageSweepStart  => exact ⟨fun d => ageSweepStart d, fun _ => rfl⟩
  | replaceDone  => exact ⟨fun d => replaceDone d, fun _ => rfl⟩
  | lockExpire row => exact ⟨fun d => lockExpire d row, fun _ => rfl⟩
  | tdmaRead ring => exact ⟨fun d => tdmaRead d ring, fun _ => rfl⟩
  | tdmaWrite ring data => exact ⟨fun d => tdmaWrite d ring data, fun _ => rfl⟩
  | tdmaLock ring => exact ⟨fun d => tdmaLock d ring, fun _ => rfl⟩
  | tdmaUnlock ring => exact ⟨fun d => tdmaUnlock d ring, fun _ => rfl⟩
  | ringEnable _ _ _ => exact absurd h (fun h => nomatch (h : false = true))
  | ringDisable _ _ _ => exact absurd h (fun h => nomatch (h : false = true))
  | ringPoll ring => exact ⟨fun d => ringPoll d ring, fun _ => rfl⟩
  | ringEntryRead ring entry body => exact ⟨fun d => ringEntryRead d ring entry body, fun _ => rfl⟩
  | rxPacketWrite ring => exact ⟨fun d => rxPacketWrite d ring, fun _ => rfl⟩
  | noticeWrite  => exact ⟨fun d => noticeWrite d, fun _ => rfl⟩
  | hostReadTimeout ring row => exact ⟨fun d => hostReadTimeout d ring row, fun _ => rfl⟩
  | hostReadRetry ring => exact ⟨fun d => hostReadRetry d ring, fun _ => rfl⟩
  | ringResume _ _ _ => exact absurd h (fun h => nomatch (h : false = true))
  | functionLevelReset vf => exact ⟨fun d => functionLevelReset d vf, fun _ => rfl⟩
  | registerWrite _ _ _ _ _ => exact absurd h (fun h => nomatch (h : false = true))
  | loReadLatch _ _ _ => exact absurd h (fun h => nomatch (h : false = true))
  | bootLock _ => exact absurd h (fun h => nomatch (h : false = true))
  | errClr _ _ _ => exact absurd h (fun h => nomatch (h : false = true))
  | irqForce _ _ _ => exact absurd h (fun h => nomatch (h : false = true))
  | stairPeakRead _ _ => exact absurd h (fun h => nomatch (h : false = true))
  | damperPeakRead _ _ => exact absurd h (fun h => nomatch (h : false = true))
  | rasLogRead _ => exact absurd h (fun h => nomatch (h : false = true))
  | sampleFifoRead _ _ => exact absurd h (fun h => nomatch (h : false = true))
  | pcValCommit _ _ _ _ _ => exact absurd h (fun h => nomatch (h : false = true))
  | pcClearAll _ _ _ => exact absurd h (fun h => nomatch (h : false = true))
  | sampleSkidEnd gal cyc => exact ⟨fun d => sampleSkidEnd d gal cyc, fun _ => rfl⟩
  | vrThrottleAssert => exact absurd h (fun h => nomatch (h : false = true))
  | vrThrottleRelease => exact absurd h (fun h => nomatch (h : false = true))
  | thermalSensorRead temps => exact ⟨fun d => thermalSensorRead d temps, fun _ => rfl⟩
  | thermalDemandStep  => exact ⟨fun d => thermalDemandStep d, fun _ => rfl⟩
  | paceLevelStep  => exact ⟨fun d => paceLevelStep d, fun _ => rfl⟩
  | pacingPeriod  => exact ⟨fun d => pacingPeriod d, fun _ => rfl⟩
  | quenchStart cyc => exact ⟨fun d => quenchStart d cyc, fun _ => rfl⟩
  | quenchRelease cyc => exact ⟨fun d => quenchRelease d cyc, fun _ => rfl⟩
  | sramEccCorrected unit inst addr => exact ⟨fun d => sramEccCorrected d ⟨unit, inst, addr⟩, fun _ => rfl⟩
  | sramEccUncorrectable unit inst addr => exact ⟨fun d => sramEccUncorrectable d ⟨unit, inst, addr⟩, fun _ => rfl⟩
  | rowTestComplete unit inst addr ok => exact ⟨fun d => rowTestComplete d ⟨unit, inst, addr⟩ ok, fun _ => rfl⟩
  | rowRepairSwitch  => exact ⟨fun d => rowRepairSwitch d, fun _ => rfl⟩
  | lhEccCorrected stack unit resource => exact ⟨fun d => lhEccCorrected d stack unit resource, fun _ => rfl⟩
  | recordWrite ok => exact ⟨fun d => recordWrite d ok, fun _ => rfl⟩
  | rrClear _ _ => exact absurd h (fun h => nomatch (h : false = true))
  | smbusWrite _ _ _ => exact absurd h (fun h => nomatch (h : false = true))
  | smbusSetAddress _ _ _ => exact absurd h (fun h => nomatch (h : false = true))
  | smbusRead _ _ => exact absurd h (fun h => nomatch (h : false = true))
  | smbusTimeout => exact absurd h (fun h => nomatch (h : false = true))
  | jtagIdcode => exact absurd h (fun h => nomatch (h : false = true))
  | jtagBypass => exact absurd h (fun h => nomatch (h : false = true))
  | jtagSamplePreload _ _ => exact absurd h (fun h => nomatch (h : false = true))
  | jtagExtest _ => exact absurd h (fun h => nomatch (h : false = true))
  | jtagClamp => exact absurd h (fun h => nomatch (h : false = true))
  | jtagHighz => exact absurd h (fun h => nomatch (h : false = true))
  | jtagTrst _ => exact absurd h (fun h => nomatch (h : false = true))
  | msixVectorUnmask entry => exact ⟨fun d => msixVectorUnmask d entry, fun _ => rfl⟩
  | delayRespMissed  => exact ⟨fun d => delayRespMissed d, fun _ => rfl⟩
  | ppsInCapRead _ _ => exact absurd h (fun h => nomatch (h : false = true))
  | rasLogStatRead _ => exact absurd h (fun h => nomatch (h : false = true))
  | cycleCounterWrap page k cyc => exact ⟨fun d => cycleCounterWrap d page k cyc, fun _ => rfl⟩
  | imageReadTimeout role => exact ⟨fun d => imageReadTimeout d role, fun _ => rfl⟩

end Sys2Proof.Machine
end

