-- ==== Sys2Proof/Laws/Frames.lean ====
section
/-! SUPPORT. What keeps the device's modes: the device state, the fenced galleries, the stroke number, the active generation and
the active profile. One lemma for each function of the device that changes none of them, which is every one but those that
Laws/Modes.lean names. -/

set_option linter.unusedVariables false

set_option linter.all false
set_option Elab.async false

namespace Sys2Proof.Machine

/-- Two devices agree in their modes. A reset that is asked for stays asked for; with `bb` none is asked for besides. -/
structure SameB (bb : Bool) (d e : Device) : Prop where
  state : e.dev.state = d.dev.state
  fenced : e.dev.fenced = d.dev.fenced
  num : e.stroke.num = d.stroke.num
  active : e.gen.active = d.gen.active
  prof : e.profile.active = d.profile.active
  cold : d.boot.cold = true → e.boot.cold = true
  warm : d.boot.warm = true → e.boot.warm = true
  coldBack : bb = true → e.boot.cold = true → d.boot.cold = true
  warmBack : bb = true → e.boot.warm = true → d.boot.warm = true

abbrev Same (d e : Device) : Prop := SameB false d e

theorem Same.refl {bb : Bool} (d : Device) : SameB bb d d := ⟨rfl, rfl, rfl, rfl, rfl, id, id, fun _ => id, fun _ => id⟩
theorem Same.trans {bb : Bool} {a b c : Device} (h : SameB bb a b) (k : SameB bb b c) : SameB bb a c :=
  ⟨k.1.trans h.1, k.2.trans h.2, k.3.trans h.3, k.4.trans h.4, k.5.trans h.5, k.6 ∘ h.6, k.7 ∘ h.7, fun q => h.8 q ∘ k.8 q,
    fun q => h.9 q ∘ k.9 q⟩
theorem Same.foldl {bb : Bool} {α : Type} {f : Device → α → Device} {d : Device} (l : List α) {e : Device}
    (h : ∀ e x, SameB bb d e → SameB bb d (f e x)) (h0 : SameB bb d e) : SameB bb d (l.foldl f e) := by
  induction l generalizing e with
  | nil => exact h0
  | cons x t ih => exact ih (h e x h0)
theorem Same.ite {bb : Bool} {d a b : Device} {c : Prop} [Decidable c] (ha : SameB bb d a) (hb : SameB bb d b) : SameB bb d (if c then a else b) := by
  by_cases h : c
  · rwa [if_pos h]
  · rwa [if_neg h]
theorem Same.snd {bb : Bool} {α : Type} {p : α × Device} {a : α} {d e : Device} (h : p = (a, e)) (k : SameB bb d p.2) : SameB bb d e := by rw [h] at k; exact k
theorem Same.snd2 {bb : Bool} {α β : Type} {p : α × β × Device} {a : α} {b : β} {d e : Device} (h : p = (a, b, e)) (k : SameB bb d p.2.2) : SameB bb d e := by rw [h] at k; exact k
theorem Same.fst {bb : Bool} {α : Type} {p : Device × α} {a : α} {d e : Device} (h : p = (e, a)) (k : SameB bb d p.1) : SameB bb d e := by rw [h] at k; exact k
theorem Same.pair {bb : Bool} {α : Type} {a : α} {d e : Device} (k : SameB bb d e) : SameB bb d (a, e).2 := k
theorem Same.pair1 {bb : Bool} {α : Type} {a : α} {d e : Device} (k : SameB bb d e) : SameB bb d (e, a).1 := k
def SameO (bb : Bool) (d : Device) (o : Option Device) : Prop := ∀ e, o = some e → SameB bb d e
theorem SameO.ofNone {bb : Bool} {d : Device} : SameO bb d none := fun _ h => nomatch h
theorem SameO.ofSome {bb : Bool} {d e : Device} (h : SameB bb d e) : SameO bb d (some e) := fun _ k => by cases k; exact h
theorem SameO.get {bb : Bool} {d e : Device} {o : Option Device} (h : o = some e) (k : SameO bb d o) : SameB bb d e := k e h
theorem Same.fstR {bb : Bool} {α : Type} {p : StageRun × α} {a : α} {d : Device} {e : StageRun} (h : p = (e, a)) (k : SameB bb d p.1.d) : SameB bb d e.d := by rw [h] at k; exact k
def SameP (bb : Bool) {α : Type} (d : Device) (f : α → Device) (o : Option α) : Prop := ∀ a, o = some a → SameB bb d (f a)
theorem SameP.ofNone {bb : Bool} {α : Type} {f : α → Device} {d : Device} : SameP bb d f none := fun _ h => nomatch h
theorem SameP.ofSome {bb : Bool} {α : Type} {f : α → Device} {d : Device} {a : α} (h : SameB bb d (f a)) : SameP bb d f (some a) := fun _ k => by cases k; exact h
theorem SameP.get2 {bb : Bool} {α : Type} {o : Option (α × Device)} {a : α} {d e : Device} (h : o = some (a, e)) (k : SameP bb d (·.2) o) : SameB bb d e := k _ h
theorem SameP.get1 {bb : Bool} {α : Type} {o : Option (Device × α)} {a : α} {d e : Device} (h : o = some (e, a)) (k : SameP bb d (·.1) o) : SameB bb d e := k _ h
theorem Same.upd {bb : Bool} {d e : Device} {xfile : RegFile} {xsnap : SnapUnit} {xbudget : BudgetUnit} {xlane : LaneUnit} {xports : Tab PortSt} {xfft : FftUnit} {xpkt : PacketUnit} {xhall : HallUnit} {xtable : TableUnit} {xbillet : BilletUnit} {xsched : SchedUnit} {xdrops : DropUnit} {xclock : ClockUnit} {xservo : ServoUnit} {xpulse : PulseUnit} {xledger : LedgerUnit} {xtsu : Tab TsuSt} {xdamper : DamperUnit} {xtelem : TelemUnit} {xinteg : IntegUnit} {xhost : HostUnit} {xperf : PerfUnit} {xanvil : AnvilUnit} {xras : RasUnit} {xseq : SeqUnit} {xmgmt : MgmtUnit} {xsent : List Output} {xfreeCtr : Nat} (h : SameB bb d e) :
    SameB bb d (Device.mk e.dev e.stroke xfile e.gen xsnap xbudget e.profile xlane xports xfft xpkt xhall xtable xbillet xsched xdrops xclock xservo xpulse xledger xtsu xdamper xtelem xinteg xhost xperf xanvil xras xseq e.boot xmgmt xsent xfreeCtr) := ⟨h.1, h.2, h.3, h.4, h.5, h.6, h.7, h.8, h.9⟩
theorem Same.updDev {bb : Bool} {d e : Device} {xfile : RegFile} {xsnap : SnapUnit} {xbudget : BudgetUnit} {xlane : LaneUnit} {xports : Tab PortSt} {xfft : FftUnit} {xpkt : PacketUnit} {xhall : HallUnit} {xtable : TableUnit} {xbillet : BilletUnit} {xsched : SchedUnit} {xdrops : DropUnit} {xclock : ClockUnit} {xservo : ServoUnit} {xpulse : PulseUnit} {xledger : LedgerUnit} {xtsu : Tab TsuSt} {xdamper : DamperUnit} {xtelem : TelemUnit} {xinteg : IntegUnit} {xhost : HostUnit} {xperf : PerfUnit} {xanvil : AnvilUnit} {xras : RasUnit} {xseq : SeqUnit} {xmgmt : MgmtUnit} {xsent : List Output} {xfreeCtr : Nat} {z : DevCtl} (h : SameB bb d e) (h1 : z.state = e.dev.state) (h2 : z.fenced = e.dev.fenced) :
    SameB bb d (Device.mk z e.stroke xfile e.gen xsnap xbudget e.profile xlane xports xfft xpkt xhall xtable xbillet xsched xdrops xclock xservo xpulse xledger xtsu xdamper xtelem xinteg xhost xperf xanvil xras xseq e.boot xmgmt xsent xfreeCtr) := ⟨h1.trans h.1, h2.trans h.2, h.3, h.4, h.5, h.6, h.7, h.8, h.9⟩
theorem Same.updStroke {bb : Bool} {d e : Device} {xfile : RegFile} {xsnap : SnapUnit} {xbudget : BudgetUnit} {xlane : LaneUnit} {xports : Tab PortSt} {xfft : FftUnit} {xpkt : PacketUnit} {xhall : HallUnit} {xtable : TableUnit} {xbillet : BilletUnit} {xsched : SchedUnit} {xdrops : DropUnit} {xclock : ClockUnit} {xservo : ServoUnit} {xpulse : PulseUnit} {xledger : LedgerUnit} {xtsu : Tab TsuSt} {xdamper : DamperUnit} {xtelem : TelemUnit} {xinteg : IntegUnit} {xhost : HostUnit} {xperf : PerfUnit} {xanvil : AnvilUnit} {xras : RasUnit} {xseq : SeqUnit} {xmgmt : MgmtUnit} {xsent : List Output} {xfreeCtr : Nat} {z : StrokeCtl} (h : SameB bb d e) (h1 : z.num = e.stroke.num) :
    SameB bb d (Device.mk e.dev z xfile e.gen xsnap xbudget e.profile xlane xports xfft xpkt xhall xtable xbillet xsched xdrops xclock xservo xpulse xledger xtsu xdamper xtelem xinteg xhost xperf xanvil xras xseq e.boot xmgmt xsent xfreeCtr) := ⟨h.1, h.2, h1.trans h.3, h.4, h.5, h.6, h.7, h.8, h.9⟩
theorem Same.updGen {bb : Bool} {d e : Device} {xfile : RegFile} {xsnap : SnapUnit} {xbudget : BudgetUnit} {xlane : LaneUnit} {xports : Tab PortSt} {xfft : FftUnit} {xpkt : PacketUnit} {xhall : HallUnit} {xtable : TableUnit} {xbillet : BilletUnit} {xsched : SchedUnit} {xdrops : DropUnit} {xclock : ClockUnit} {xservo : ServoUnit} {xpulse : PulseUnit} {xledger : LedgerUnit} {xtsu : Tab TsuSt} {xdamper : DamperUnit} {xtelem : TelemUnit} {xinteg : IntegUnit} {xhost : HostUnit} {xperf : PerfUnit} {xanvil : AnvilUnit} {xras : RasUnit} {xseq : SeqUnit} {xmgmt : MgmtUnit} {xsent : List Output} {xfreeCtr : Nat} {z : GenUnit} (h : SameB bb d e) (h1 : z.active = e.gen.active) :
    SameB bb d (Device.mk e.dev e.stroke xfile z xsnap xbudget e.profile xlane xports xfft xpkt xhall xtable xbillet xsched xdrops xclock xservo xpulse xledger xtsu xdamper xtelem xinteg xhost xperf xanvil xras xseq e.boot xmgmt xsent xfreeCtr) := ⟨h.1, h.2, h.3, h1.trans h.4, h.5, h.6, h.7, h.8, h.9⟩
theorem Same.updProf {bb : Bool} {d e : Device} {xfile : RegFile} {xsnap : SnapUnit} {xbudget : BudgetUnit} {xlane : LaneUnit} {xports : Tab PortSt} {xfft : FftUnit} {xpkt : PacketUnit} {xhall : HallUnit} {xtable : TableUnit} {xbillet : BilletUnit} {xsched : SchedUnit} {xdrops : DropUnit} {xclock : ClockUnit} {xservo : ServoUnit} {xpulse : PulseUnit} {xledger : LedgerUnit} {xtsu : Tab TsuSt} {xdamper : DamperUnit} {xtelem : TelemUnit} {xinteg : IntegUnit} {xhost : HostUnit} {xperf : PerfUnit} {xanvil : AnvilUnit} {xras : RasUnit} {xseq : SeqUnit} {xmgmt : MgmtUnit} {xsent : List Output} {xfreeCtr : Nat} {z : ProfileUnit} (h : SameB bb d e) (h1 : z.active = e.profile.active) :
    SameB bb d (Device.mk e.dev e.stroke xfile e.gen xsnap xbudget z xlane xports xfft xpkt xhall xtable xbillet xsched xdrops xclock xservo xpulse xledger xtsu xdamper xtelem xinteg xhost xperf xanvil xras xseq e.boot xmgmt xsent xfreeCtr) := ⟨h.1, h.2, h.3, h.4, h1.trans h.5, h.6, h.7, h.8, h.9⟩
theorem Same.updBoot {bb : Bool} {d e : Device} {xfile : RegFile} {xsnap : SnapUnit} {xbudget : BudgetUnit} {xlane : LaneUnit} {xports : Tab PortSt} {xfft : FftUnit} {xpkt : PacketUnit} {xhall : HallUnit} {xtable : TableUnit} {xbillet : BilletUnit} {xsched : SchedUnit} {xdrops : DropUnit} {xclock : ClockUnit} {xservo : ServoUnit} {xpulse : PulseUnit} {xledger : LedgerUnit} {xtsu : Tab TsuSt} {xdamper : DamperUnit} {xtelem : TelemUnit} {xinteg : IntegUnit} {xhost : HostUnit} {xperf : PerfUnit} {xanvil : AnvilUnit} {xras : RasUnit} {xseq : SeqUnit} {xmgmt : MgmtUnit} {xsent : List Output} {xfreeCtr : Nat} {z : BootUnit} (h : SameB bb d e) (h1 : z.cold = e.boot.cold) (h2 : z.warm = e.boot.warm) :
    SameB bb d (Device.mk e.dev e.stroke xfile e.gen xsnap xbudget e.profile xlane xports xfft xpkt xhall xtable xbillet xsched xdrops xclock xservo xpulse xledger xtsu xdamper xtelem xinteg xhost xperf xanvil xras xseq z xmgmt xsent xfreeCtr) := ⟨h.1, h.2, h.3, h.4, h.5, fun k => h1.trans (h.6 k), fun k => h2.trans (h.7 k),
    fun q k => h.8 q (h1.symm.trans k), fun q k => h.9 q (h2.symm.trans k)⟩






theorem Device.free_same {bb : Bool} {d : Device} {e : Device} (x1 : Nat) (h : SameB bb d e) :
    SameB bb d (Device.free e x1).2 := by
  unfold Device.free
  repeat' with_reducible (first | assumption | dsimp only | apply Same.upd)

theorem Device.addFrame_same {bb : Bool} {d : Device} {e : Device} (x1 : Sys2Proof.Machine.Frame) (h : SameB bb d e) :
    SameB bb d (Device.addFrame e x1) := by
  unfold Device.addFrame
  repeat' with_reducible (first | assumption | (extract_lets +onlyGivenNames zz; first | clear_value zz | skip) | dsimp only | apply Same.upd)

theorem Device.injectFrame_same {bb : Bool} {d : Device} {e : Device} (x1 : Sys2Proof.Machine.Frame) (x2 : Sys2Proof.Machine.FlightSrc) (h : SameB bb d e) :
    SameB bb d (Device.injectFrame e x1 x2) := by
  unfold Device.injectFrame
  repeat' with_reducible (first | assumption | (extract_lets +onlyGivenNames zz; first | (refine (fun (hz : SameB bb d zz) => ?_) ?_; clear_value zz; rotate_left; subst zz) | clear_value zz | skip) | apply Device.addFrame_same | dsimp only | apply Same.upd)

theorem Device.injectMsg_same {bb : Bool} {d : Device} {e : Device} (x1 : Nat) (x2 : Nat) (x3 : Sys2Proof.Bytes) (x4 : Sys2Proof.Bytes) (h : SameB bb d e) :
    SameB bb d (Device.injectMsg e x1 x2 x3 x4) := by
  unfold Device.injectMsg
  repeat' with_reducible (first | assumption | (extract_lets +onlyGivenNames zz; first | clear_value zz | skip) | apply Device.free_same | apply Device.injectFrame_same | split | (apply Same.snd2 (by assumption)) | (apply Same.snd (by assumption)) | (apply Same.fst (by assumption)) | dsimp only | apply Same.upd)

theorem Device.sendMsg_same {bb : Bool} {d : Device} {e : Device} (x1 : Nat) (x2 : Nat) (x3 : Sys2Proof.Machine.RedMsg) (x4 : Bool) (x5 : Sys2Proof.Bytes) (h : SameB bb d e) :
    SameB bb d (Device.sendMsg e x1 x2 x3 x4 x5) := by
  unfold Device.sendMsg
  repeat' with_reducible (first | assumption | (extract_lets +onlyGivenNames zz; first | clear_value zz | skip) | apply Device.injectMsg_same | dsimp only | apply Same.upd)

theorem Device.setReg_same {bb : Bool} {d : Device} {e : Device} (x1 : Nat) (x2 : Sys2Proof.Word) (h : SameB bb d e) :
    SameB bb d (Device.setReg e x1 x2) := by
  unfold Device.setReg
  repeat' with_reducible (first | assumption | (extract_lets +onlyGivenNames zz; first | clear_value zz | skip) | dsimp only | apply Same.upd)

theorem Device.markSet_same {bb : Bool} {d : Device} {e : Device} (x1 : Nat) (x2 : Nat) (h : SameB bb d e) :
    SameB bb d (Device.markSet e x1 x2) := by
  unfold Device.markSet
  repeat' with_reducible (first | assumption | (extract_lets +onlyGivenNames zz; first | clear_value zz | skip) | dsimp only | apply Same.upd)

theorem Device.setW1c_same {bb : Bool} {d : Device} {e : Device} (x1 : Nat) (x2 : Nat) (h : SameB bb d e) :
    SameB bb d (Device.setW1c e x1 x2) := by
  unfold Device.setW1c
  repeat' with_reducible (first | assumption | apply Device.setReg_same | apply Device.markSet_same | dsimp only | apply Same.upd)

theorem Device.raise_same {bb : Bool} {d : Device} {e : Device} (x1 : Nat) (x2 : Nat) (h : SameB bb d e) :
    SameB bb d (Device.raise e x1 x2) := by
  unfold Device.raise
  repeat' with_reducible (first | assumption | (extract_lets +onlyGivenNames zz; first | (refine (fun (hz : SameB bb d zz) => ?_) ?_; clear_value zz; rotate_left; subst zz) | clear_value zz | skip) | apply Device.setW1c_same | split | dsimp only | apply Same.upd)

theorem Device.countN_same {bb : Bool} {d : Device} {e : Device} (x1 : Nat) (x2 : Nat) (h : SameB bb d e) :
    SameB bb d (Device.countN e x1 x2) := by
  unfold Device.countN
  repeat' with_reducible (first | assumption | (extract_lets +onlyGivenNames zz; first | clear_value zz | skip) | dsimp only | apply Same.upd)

theorem Device.count_same {bb : Bool} {d : Device} {e : Device} (x1 : Nat) (h : SameB bb d e) :
    SameB bb d (Device.count e x1) := by
  unfold Device.count
  repeat' with_reducible (first | assumption | apply Device.countN_same | dsimp only | apply Same.upd)

theorem Device.setGroup_same {bb : Bool} {d : Device} {e : Device} (x1 : Nat) (x2 : Sys2Proof.Machine.RedGroup) (h : SameB bb d e) :
    SameB bb d (Device.setGroup e x1 x2) := by
  unfold Device.setGroup
  repeat' with_reducible (first | assumption | (extract_lets +onlyGivenNames zz; first | clear_value zz | skip) | dsimp only | apply Same.upd)

theorem Device.releaseChunk_same {bb : Bool} {d : Device} {e : Device} (x1 : Nat) (x2 : Nat) (h : SameB bb d e) :
    SameB bb d (Device.releaseChunk e x1 x2) := by
  unfold Device.releaseChunk
  repeat' with_reducible (first | assumption | (extract_lets +onlyGivenNames zz; first | clear_value zz | skip) | apply Device.setGroup_same | split | dsimp only | apply Same.upd)

theorem Device.abortChunk_same {bb : Bool} {d : Device} {e : Device} (x1 : Nat) (x2 : Nat) (h : SameB bb d e) :
    SameB bb d (Device.abortChunk e x1 x2) := by
  unfold Device.abortChunk
  repeat' with_reducible (first | assumption | (extract_lets +onlyGivenNames zz; first | (refine (fun (hz : SameB bb d zz) => ?_) ?_; clear_value zz; rotate_left; subst zz) | clear_value zz | skip) | apply Device.sendMsg_same | apply Device.raise_same | apply Device.count_same | apply Device.releaseChunk_same | split | dsimp only | apply Same.upd)

theorem Device.setFrame_same {bb : Bool} {d : Device} {e : Device} (x1 : Sys2Proof.Machine.Frame) (h : SameB bb d e) :
    SameB bb d (Device.setFrame e x1) := by
  unfold Device.setFrame
  repeat' with_reducible (first | assumption | (extract_lets +onlyGivenNames zz; first | clear_value zz | skip) | dsimp only | apply Same.upd)

theorem Device.modFrame_same {bb : Bool} {d : Device} {e : Device} (x1 : Nat) (x2 : Sys2Proof.Machine.Frame → Sys2Proof.Machine.Frame) (h : SameB bb d e) :
    SameB bb d (Device.modFrame e x1 x2) := by
  unfold Device.modFrame
  repeat' with_reducible (first | assumption | apply Device.setFrame_same | split | dsimp only | apply Same.upd)

theorem Device.endFlight_same {bb : Bool} {d : Device} {e : Device} (x1 : Nat) (h : SameB bb d e) :
    SameB bb d (Device.endFlight e x1) := by
  unfold Device.endFlight
  repeat' with_reducible (first | assumption | (extract_lets +onlyGivenNames zz; first | clear_value zz | skip) | dsimp only | apply Same.upd)

theorem Device.takeOwn_same {bb : Bool} {d : Device} {e : Device} (x1 : Nat) (h : SameB bb d e) :
    SameB bb d (Device.takeOwn e x1) := by
  unfold Device.takeOwn
  repeat' with_reducible (first | assumption | (extract_lets +onlyGivenNames zz; first | clear_value zz | skip) | apply Device.setFrame_same | apply Device.endFlight_same | split | dsimp only | apply Same.upd)

theorem Device.secTry_same {bb : Bool} {d : Device} {e : Device} (x1 : Nat) (h : SameB bb d e) :
    SameB bb d (Device.secTry e x1) := by
  unfold Device.secTry
  repeat' with_reducible (first | assumption | apply Device.setFrame_same | split | dsimp only | apply Same.upd)

theorem Device.addBytes_same {bb : Bool} {d : Device} {e : Device} (x1 : Nat) (x2 : Sys2Proof.Bytes) (h : SameB bb d e) :
    SameB bb d (Device.addBytes e x1 x2) := by
  unfold Device.addBytes
  repeat' with_reducible (first | assumption | (extract_lets +onlyGivenNames zz; first | (refine (fun (hz : SameB bb d zz) => ?_) ?_; clear_value zz; rotate_left; subst zz) | clear_value zz | skip) | apply Device.modFrame_same | apply Device.takeOwn_same | apply Device.secTry_same | dsimp only | apply Same.upd)

theorem Device.setQueueSt_same {bb : Bool} {d : Device} {e : Device} (x1 : Nat) (x2 : Sys2Proof.Machine.QueueSt) (h : SameB bb d e) :
    SameB bb d (Device.setQueueSt e x1 x2) := by
  unfold Device.setQueueSt
  repeat' with_reducible (first | assumption | (extract_lets +onlyGivenNames zz; first | clear_value zz | skip) | dsimp only | apply Same.upd)

theorem Device.setClassSt_same {bb : Bool} {d : Device} {e : Device} (x1 : Nat) (x2 : Nat) (x3 : Sys2Proof.Machine.ClassSt) (h : SameB bb d e) :
    SameB bb d (Device.setClassSt e x1 x2 x3) := by
  unfold Device.setClassSt
  repeat' with_reducible (first | assumption | (extract_lets +onlyGivenNames zz; first | clear_value zz | skip) | dsimp only | apply Same.upd)

theorem Device.addCharge_same {bb : Bool} {d : Device} {e : Device} (x1 : Nat) (x2 : Sys2Proof.Machine.Charge) (x3 : Nat) (h : SameB bb d e) :
    SameB bb d (Device.addCharge e x1 x2 x3) := by
  unfold Device.addCharge
  repeat' with_reducible (first | assumption | (extract_lets +onlyGivenNames zz; first | clear_value zz | skip) | apply Device.setQueueSt_same | apply Device.setClassSt_same | split | dsimp only | apply Same.upd)

theorem Device.setDwrr_same {bb : Bool} {d : Device} {e : Device} (x1 : Nat) (x2 : Sys2Proof.Machine.DwrrSt) (h : SameB bb d e) :
    SameB bb d (Device.setDwrr e x1 x2) := by
  unfold Device.setDwrr
  repeat' with_reducible (first | assumption | (extract_lets +onlyGivenNames zz; first | clear_value zz | skip) | dsimp only | apply Same.upd)

theorem Device.addDeficit_same {bb : Bool} {d : Device} {e : Device} (x1 : Nat) (x2 : Int) (h : SameB bb d e) :
    SameB bb d (Device.addDeficit e x1 x2) := by
  unfold Device.addDeficit
  repeat' with_reducible (first | assumption | (extract_lets +onlyGivenNames zz; first | clear_value zz | skip) | apply Device.setDwrr_same | split | dsimp only | apply Same.upd)

theorem Device.addHeld_same {bb : Bool} {d : Device} {e : Device} (x1 : Nat) (x2 : Nat) (x3 : Nat) (h : SameB bb d e) :
    SameB bb d (Device.addHeld e x1 x2 x3) := by
  unfold Device.addHeld
  repeat' with_reducible (first | assumption | (extract_lets +onlyGivenNames zz; first | clear_value zz | skip) | dsimp only | apply Same.upd)

theorem Device.setBring_same {bb : Bool} {d : Device} {e : Device} (x1 : Nat) (x2 : Sys2Proof.Machine.BringUp) (h : SameB bb d e) :
    SameB bb d (Device.setBring e x1 x2) := by
  unfold Device.setBring
  repeat' with_reducible (first | assumption | (extract_lets +onlyGivenNames zz; first | clear_value zz | skip) | dsimp only | apply Same.upd)

theorem Device.modBring_same {bb : Bool} {d : Device} {e : Device} (x1 : Nat) (x2 : Sys2Proof.Machine.BringUp → Sys2Proof.Machine.BringUp) (h : SameB bb d e) :
    SameB bb d (Device.modBring e x1 x2) := by
  unfold Device.modBring
  repeat' with_reducible (first | assumption | apply Device.setBring_same | dsimp only | apply Same.upd)

theorem Device.portCount_same {bb : Bool} {d : Device} {e : Device} (x1 : Nat) (x2 : Nat) (x3 : Nat) (h : SameB bb d e) :
    SameB bb d (Device.portCount e x1 x2 x3) := by
  unfold Device.portCount
  repeat' with_reducible (first | assumption | apply Device.countN_same | split | dsimp only | apply Same.upd)

theorem Device.addUncorr_same {bb : Bool} {d : Device} {e : Device} (x1 : Nat) (x2 : Nat) (h : SameB bb d e) :
    SameB bb d (Device.addUncorr e x1 x2) := by
  unfold Device.addUncorr
  repeat' with_reducible (first | assumption | apply Device.modBring_same | apply Device.portCount_same | split | dsimp only | apply Same.upd)

theorem Device.queueCount_same {bb : Bool} {d : Device} {e : Device} (x1 : Nat) (x2 : Nat) (x3 : Nat) (h : SameB bb d e) :
    SameB bb d (Device.queueCount e x1 x2 x3) := by
  unfold Device.queueCount
  repeat' with_reducible (first | assumption | apply Device.countN_same | split | dsimp only | apply Same.upd)

theorem Device.noteAdded_same {bb : Bool} {d : Device} {e : Device} (x1 : Nat) (x2 : Nat) (x3 : Option Sys2Proof.Machine.EvPkt) (h : SameB bb d e) :
    SameB bb d (Device.noteAdded e x1 x2 x3) := by
  unfold Device.noteAdded
  repeat' with_reducible (first | assumption | (extract_lets +onlyGivenNames zz; first | clear_value zz | skip) | dsimp only | apply Same.upd)

theorem Device.noteWrap_same {bb : Bool} {d : Device} {e : Device} (x1 : Nat) (x2 : Bool) (x3 : Bool) (x4 : Nat) (h : SameB bb d e) :
    SameB bb d (Device.noteWrap e x1 x2 x3 x4) := by
  unfold Device.noteWrap
  repeat' with_reducible (first | assumption | (extract_lets +onlyGivenNames zz; first | clear_value zz | skip) | dsimp only | apply Same.upd)

theorem Device.pushSample_same {bb : Bool} {d : Device} {e : Device} (x1 : Nat) (x2 : Sys2Proof.Machine.Sample) (h : SameB bb d e) :
    SameB bb d (Device.pushSample e x1 x2) := by
  unfold Device.pushSample
  repeat' with_reducible (first | assumption | (extract_lets +onlyGivenNames zz; first | (refine (fun (hz : SameB bb d zz) => ?_) ?_; clear_value zz; rotate_left; subst zz) | clear_value zz | skip) | apply Device.raise_same | split | dsimp only | apply Same.upd)

theorem Device.pcAdd_same {bb : Bool} {d : Device} {e : Device} (x1 : Option Nat) (x2 : Nat) (x3 : Nat) (x4 : Option Sys2Proof.Machine.EvPkt) (x5 : Nat) (h : SameB bb d e) :
    SameB bb d (Device.pcAdd e x1 x2 x3 x4 x5) := by
  unfold Device.pcAdd
  repeat' with_reducible (first | assumption | (extract_lets +onlyGivenNames zz; first | (refine (fun (hz : SameB bb d zz) => ?_) ?_; clear_value zz; rotate_left; subst zz) | clear_value zz | skip) | apply Device.setW1c_same | apply Device.noteWrap_same | apply Device.pushSample_same | split | dsimp only | apply Same.upd)

theorem Device.event_same {bb : Bool} {d : Device} {e : Device} (x1 : Option Nat) (x2 : Nat) (x3 : Nat) (x4 : Option Nat) (x5 : Sys2Proof.Machine.EvPkt) (h : SameB bb d e) :
    SameB bb d (Device.event e x1 x2 x3 x4 x5) := by
  unfold Device.event
  repeat' with_reducible (first | assumption | (extract_lets +onlyGivenNames zz; first | clear_value zz | skip) | apply Device.noteAdded_same | apply Device.pcAdd_same | split | (apply Same.foldl; intro _ _ _) | dsimp only | apply Same.upd)

theorem Device.dropCount_same {bb : Bool} {d : Device} {e : Device} (x1 : Sys2Proof.Machine.DropInfo) (h : SameB bb d e) :
    SameB bb d (Device.dropCount e x1) := by
  unfold Device.dropCount
  repeat' with_reducible (first | assumption | apply Device.count_same | apply Device.event_same | split | dsimp only | apply Same.upd)

theorem Device.aggregate_same {bb : Bool} {d : Device} {e : Device} (x1 : Nat) (x2 : Nat) (h : SameB bb d e) :
    SameB bb d (Device.aggregate e x1 x2) := by
  unfold Device.aggregate
  repeat' with_reducible (first | assumption | (extract_lets +onlyGivenNames zz; first | (refine (fun (hz : SameB bb d zz) => ?_) ?_; clear_value zz; rotate_left; subst zz) | clear_value zz | skip) | apply Device.markSet_same | apply Device.count_same | apply Device.setReg_same | apply Device.raise_same | split | dsimp only | apply Same.upd)

theorem Device.pushRecord_same {bb : Bool} {d : Device} {e : Device} (x1 : Sys2Proof.Machine.DropInfo) (h : SameB bb d e) :
    SameB bb d (Device.pushRecord e x1) := by
  unfold Device.pushRecord
  repeat' with_reducible (first | assumption | (extract_lets +onlyGivenNames zz; first | clear_value zz | skip) | apply Device.raise_same | apply Device.count_same | apply Device.aggregate_same | split | dsimp only | apply Same.upd)

theorem Device.recordDrop_same {bb : Bool} {d : Device} {e : Device} (x1 : Sys2Proof.Machine.DropInfo) (h : SameB bb d e) :
    SameB bb d (Device.recordDrop e x1) := by
  unfold Device.recordDrop
  repeat' with_reducible (first | assumption | (extract_lets +onlyGivenNames zz; first | clear_value zz | skip) | apply Device.pushRecord_same | apply Device.aggregate_same | split | dsimp only | apply Same.upd)

theorem Device.drop_same {bb : Bool} {d : Device} {e : Device} (x1 : Sys2Proof.Machine.DropInfo) (h : SameB bb d e) :
    SameB bb d (Device.drop e x1) := by
  unfold Device.drop
  repeat' with_reducible (first | assumption | apply Device.recordDrop_same | apply Device.dropCount_same | split | dsimp only | apply Same.upd)

theorem Device.loseOne_same {bb : Bool} {d : Device} {e : Device} (x1 : Sys2Proof.Machine.Frame) (x2 : Sys2Proof.Machine.DropInfo) (h : SameB bb d e) :
    SameB bb d (Device.loseOne e x1 x2) := by
  unfold Device.loseOne
  repeat' with_reducible (first | assumption | (extract_lets +onlyGivenNames zz; first | (refine (fun (hz : SameB bb d zz) => ?_) ?_; clear_value zz; rotate_left; subst zz) | skip) | apply Device.count_same | apply Device.dropCount_same | apply Device.drop_same | split | dsimp only | apply Same.upd)

theorem Device.refuseAdmission_same {bb : Bool} {d : Device} {e : Device} (x1 : Sys2Proof.Machine.Frame) (x2 : Sys2Proof.Machine.AdmitReq) (x3 : Nat) (h : SameB bb d e) :
    SameB bb d (Device.refuseAdmission e x1 x2 x3) := by
  unfold Device.refuseAdmission
  repeat' with_reducible (first | assumption | (extract_lets +onlyGivenNames zz; first | (refine (fun (hz : SameB bb d zz) => ?_) ?_; clear_value zz; rotate_left; subst zz) | skip) | apply Device.count_same | apply Device.portCount_same | apply Device.queueCount_same | apply Device.loseOne_same | split | dsimp only | apply Same.upd)

theorem Device.allocCells_same {bb : Bool} {d : Device} {e : Device} (x1 : Nat) (x2 : Nat) (x3 : Nat) (h : SameB bb d e) :
    SameB bb d (Device.allocCells e x1 x2 x3) := by
  induction x3 generalizing e x1 x2 with
  | zero =>
    unfold Device.allocCells
    repeat' with_reducible (first | assumption | (extract_lets +onlyGivenNames zz; first | (refine (fun (hz : SameB bb d zz) => ?_) ?_; clear_value zz; rotate_left; subst zz) | clear_value zz | skip) | apply Device.modFrame_same | split | dsimp only | apply Same.upd)
  | succ n ih =>
    unfold Device.allocCells
    repeat' with_reducible (first | assumption | apply ih | (extract_lets +onlyGivenNames zz; first | (refine (fun (hz : SameB bb d zz) => ?_) ?_; clear_value zz; rotate_left; subst zz) | clear_value zz | skip) | apply Device.modFrame_same | split | dsimp only | apply Same.upd)

theorem Device.spend_same {bb : Bool} {d : Device} {e : Device} (x1 : Nat) (x2 : Nat) (x3 : Nat) (x4 : Nat) (h : SameB bb d e) :
    SameB bb d (Device.spend e x1 x2 x3 x4) := by
  unfold Device.spend
  repeat' with_reducible (first | assumption | (extract_lets +onlyGivenNames zz; first | clear_value zz | skip) | dsimp only | apply Same.upd)

theorem Device.modCopy_same {bb : Bool} {d : Device} {e : Device} (x1 : Nat) (x2 : Sys2Proof.Machine.Copy → Sys2Proof.Machine.Copy) (h : SameB bb d e) :
    SameB bb d (Device.modCopy e x1 x2) := by
  unfold Device.modCopy
  repeat' with_reducible (first | assumption | (extract_lets +onlyGivenNames zz; first | clear_value zz | skip) | split | dsimp only | apply Same.upd)

theorem Device.chargeMore_same {bb : Bool} {d : Device} {e : Device} (x1 : Sys2Proof.Machine.Copy) (x2 : Nat) (h : SameB bb d e) :
    SameB bb d (Device.chargeMore e x1 x2) := by
  unfold Device.chargeMore
  repeat' with_reducible (first | assumption | (extract_lets +onlyGivenNames zz; first | (refine (fun (hz : SameB bb d zz) => ?_) ?_; clear_value zz; rotate_left; subst zz) | clear_value zz | skip) | apply Device.addCharge_same | apply Device.modCopy_same | apply Device.modFrame_same | split | dsimp only | apply Same.upd)

theorem Device.growFrame_same {bb : Bool} {d : Device} {e : Device} (x1 : Nat) (h : SameB bb d e) :
    SameB bb d (Device.growFrame e x1) := by
  unfold Device.growFrame
  repeat' with_reducible (first | assumption | (extract_lets +onlyGivenNames zz; first | (refine (fun (hz : SameB bb d zz) => ?_) ?_; clear_value zz; rotate_left; subst zz) | clear_value zz | skip) | apply Device.allocCells_same | apply Device.event_same | apply Device.spend_same | apply Device.chargeMore_same | split | (apply Same.foldl; intro _ _ _) | dsimp only | apply Same.upd)

theorem Device.admitCopy_same {bb : Bool} {d : Device} {e : Device} (x1 : Sys2Proof.Machine.AdmitReq) (x2 : Bool) (x3 : Nat) (h : SameB bb d e) :
    SameB bb d (Device.admitCopy e x1 x2 x3).1 := by
  unfold Device.admitCopy
  repeat' with_reducible (first | assumption | (extract_lets +onlyGivenNames zz; first | (refine (fun (hz : SameB bb d zz) => ?_) ?_; clear_value zz; rotate_left; subst zz) | clear_value zz | skip) | apply Device.refuseAdmission_same | apply Device.setQueueSt_same | apply Device.free_same | apply Device.count_same | apply Device.modFrame_same | apply Device.queueCount_same | apply Device.event_same | apply Device.growFrame_same | split | (apply Same.snd2 (by assumption)) | (apply Same.snd (by assumption)) | (apply Same.fst (by assumption)) | dsimp only | apply Same.upd)

theorem Device.advance_same {bb : Bool} {d : Device} {e : Device} (x1 : Nat) (h : SameB bb d e) :
    SameB bb d (Device.advance e x1) := by
  unfold Device.advance
  repeat' with_reducible (first | assumption | (extract_lets +onlyGivenNames zz; first | clear_value zz | skip) | dsimp only | apply Same.upd | apply Same.updStroke | exact rfl)

theorem Device.ageApply_same {bb : Bool} {d : Device} {e : Device} (h : SameB bb d e) :
    SameB bb d (Device.ageApply e) := by
  unfold Device.ageApply
  repeat' with_reducible (first | assumption | (extract_lets +onlyGivenNames zz; first | clear_value zz | skip) | split | dsimp only | apply Same.upd)

theorem Device.leaveLower_same {bb : Bool} {d : Device} {e : Device} (x1 : Sys2Proof.Machine.Copy) (x2 : Nat) (h : SameB bb d e) :
    SameB bb d (Device.leaveLower e x1 x2) := by
  unfold Device.leaveLower
  repeat' with_reducible (first | assumption | (extract_lets +onlyGivenNames zz; first | (refine (fun (hz : SameB bb d zz) => ?_) ?_; clear_value zz; rotate_left; subst zz) | clear_value zz | skip) | apply Device.setQueueSt_same | apply Device.modCopy_same | dsimp only | apply Same.upd)

theorem Device.noWait_same {bb : Bool} {d : Device} {e : Device} (x1 : Nat) (x2 : Nat) (x3 : Nat) (h : SameB bb d e) :
    SameB bb d (Device.noWait e x1 x2 x3) := by
  unfold Device.noWait
  repeat' with_reducible (first | assumption | (extract_lets +onlyGivenNames zz; first | clear_value zz | skip) | dsimp only | apply Same.upd)

theorem Device.setPort_same {bb : Bool} {d : Device} {e : Device} (x1 : Nat) (x2 : Sys2Proof.Machine.PortSt) (h : SameB bb d e) :
    SameB bb d (Device.setPort e x1 x2) := by
  unfold Device.setPort
  repeat' with_reducible (first | assumption | dsimp only | apply Same.upd)

theorem Device.modPort_same {bb : Bool} {d : Device} {e : Device} (x1 : Nat) (x2 : Sys2Proof.Machine.PortSt → Sys2Proof.Machine.PortSt) (h : SameB bb d e) :
    SameB bb d (Device.modPort e x1 x2) := by
  unfold Device.modPort
  repeat' with_reducible (first | assumption | apply Device.setPort_same | dsimp only | apply Same.upd)

theorem Device.returnCells_same {bb : Bool} {d : Device} {e : Device} (x1 : Sys2Proof.Machine.Copy) (x2 : Nat) (h : SameB bb d e) :
    SameB bb d (Device.returnCells e x1 x2) := by
  unfold Device.returnCells
  repeat' with_reducible (first | assumption | (extract_lets +onlyGivenNames zz; first | (refine (fun (hz : SameB bb d zz) => ?_) ?_; clear_value zz; rotate_left; subst zz) | clear_value zz | skip) | apply Device.modCopy_same | dsimp only | apply Same.upd)

theorem Device.freeRead_same {bb : Bool} {d : Device} {e : Device} (x1 : Nat) (h : SameB bb d e) :
    SameB bb d (Device.freeRead e x1) := by
  unfold Device.freeRead
  repeat' with_reducible (first | assumption | (extract_lets +onlyGivenNames zz; first | (refine (fun (hz : SameB bb d zz) => ?_) ?_; clear_value zz; rotate_left; subst zz) | clear_value zz | skip) | apply Device.setFrame_same | apply Device.returnCells_same | split | (apply Same.foldl; intro _ _ _) | dsimp only | apply Same.upd)

theorem Device.releaseFrame_same {bb : Bool} {d : Device} {e : Device} (x1 : Nat) (h : SameB bb d e) :
    SameB bb d (Device.releaseFrame e x1) := by
  unfold Device.releaseFrame
  repeat' with_reducible (first | assumption | (extract_lets +onlyGivenNames zz; first | (refine (fun (hz : SameB bb d zz) => ?_) ?_; clear_value zz; rotate_left; subst zz) | clear_value zz | skip) | apply Device.setFrame_same | split | dsimp only | apply Same.upd)

theorem Device.endCopy_same {bb : Bool} {d : Device} {e : Device} (x1 : Nat) (h : SameB bb d e) :
    SameB bb d (Device.endCopy e x1) := by
  unfold Device.endCopy
  repeat' with_reducible (first | assumption | (extract_lets +onlyGivenNames zz; first | (refine (fun (hz : SameB bb d zz) => ?_) ?_; clear_value zz; rotate_left; subst zz) | clear_value zz | skip) | apply Device.leaveLower_same | apply Device.noWait_same | apply Device.modPort_same | apply Device.freeRead_same | apply Device.releaseFrame_same | split | dsimp only | apply Same.upd)

theorem Device.send_same {bb : Bool} {d : Device} {e : Device} (x1 : Sys2Proof.Machine.Output) (h : SameB bb d e) :
    SameB bb d (Device.send e x1) := by
  unfold Device.send
  repeat' with_reducible (first | assumption | dsimp only | apply Same.upd)

theorem Device.countSent_same {bb : Bool} {d : Device} {e : Device} (x1 : Nat) (x2 : Nat) (h : SameB bb d e) :
    SameB bb d (Device.countSent e x1 x2) := by
  unfold Device.countSent
  repeat' with_reducible (first | assumption | apply Device.queueCount_same | apply Device.portCount_same | dsimp only | apply Same.upd)

theorem Device.countStomped_same {bb : Bool} {d : Device} {e : Device} (x1 : Sys2Proof.Machine.Copy) (x2 : Nat) (h : SameB bb d e) :
    SameB bb d (Device.countStomped e x1 x2) := by
  unfold Device.countStomped
  repeat' with_reducible (first | assumption | (extract_lets +onlyGivenNames zz; first | (refine (fun (hz : SameB bb d zz) => ?_) ?_; clear_value zz; rotate_left; subst zz) | skip) | apply Device.event_same | apply Device.portCount_same | apply Device.countSent_same | split | dsimp only | apply Same.upd)

theorem Device.setTokens_same {bb : Bool} {d : Device} {e : Device} (x1 : Nat) (x2 : Int) (h : SameB bb d e) :
    SameB bb d (Device.setTokens e x1 x2) := by
  unfold Device.setTokens
  repeat' with_reducible (first | assumption | (extract_lets +onlyGivenNames zz; first | clear_value zz | skip) | dsimp only | apply Same.upd)

theorem Device.giveBack_same {bb : Bool} {d : Device} {e : Device} (x1 : Sys2Proof.Machine.Copy) (x2 : Int) (h : SameB bb d e) :
    SameB bb d (Device.giveBack e x1 x2) := by
  unfold Device.giveBack
  repeat' with_reducible (first | assumption | (extract_lets +onlyGivenNames zz; first | (refine (fun (hz : SameB bb d zz) => ?_) ?_; clear_value zz; rotate_left; subst zz) | skip) | apply Device.setTokens_same | apply Device.addDeficit_same | split | (apply Same.foldl; intro _ _ _) | dsimp only | apply Same.upd)

theorem Device.correctTo_same {bb : Bool} {d : Device} {e : Device} (x1 : Sys2Proof.Machine.Copy) (x2 : Nat) (h : SameB bb d e) :
    SameB bb d (Device.correctTo e x1 x2) := by
  unfold Device.correctTo
  repeat' with_reducible (first | assumption | apply Device.giveBack_same | split | dsimp only | apply Same.upd)

theorem Device.stompOut_same {bb : Bool} {d : Device} {e : Device} (x1 : Sys2Proof.Machine.Copy) (h : SameB bb d e) :
    SameB bb d (Device.stompOut e x1) := by
  unfold Device.stompOut
  repeat' with_reducible (first | assumption | apply Device.free_same | apply Device.send_same | apply Device.countStomped_same | apply Device.correctTo_same | split | (apply Same.snd2 (by assumption)) | (apply Same.snd (by assumption)) | (apply Same.fst (by assumption)) | dsimp only | apply Same.upd)

theorem Device.overflowUpd_same {bb : Bool} {d : Device} {e : Device} (x1 : Nat) (x2 : Sys2Proof.Machine.FlowUpd) (h : SameB bb d e) :
    SameB bb d (Device.overflowUpd e x1 x2) := by
  unfold Device.overflowUpd
  repeat' with_reducible (first | assumption | (extract_lets +onlyGivenNames zz; first | clear_value zz | skip) | dsimp only | apply Same.upd)

theorem Device.bucketUpd_same {bb : Bool} {d : Device} {e : Device} (x1 : Nat) (x2 : Sys2Proof.Machine.FlowUpd) (h : SameB bb d e) :
    SameB bb d (Device.bucketUpd e x1 x2) := by
  unfold Device.bucketUpd
  try dsimp only
  repeat' with_reducible (first | assumption | apply Device.overflowUpd_same | apply Device.count_same | split | dsimp only | apply Same.upd)

theorem Device.setCache_same {bb : Bool} {d : Device} {e : Device} (x1 : Nat) (x2 : List (Nat × Bool)) (h : SameB bb d e) :
    SameB bb d (Device.setCache e x1 x2) := by
  unfold Device.setCache
  repeat' with_reducible (first | assumption | (extract_lets +onlyGivenNames zz; first | clear_value zz | skip) | dsimp only | apply Same.upd)

theorem Device.flowEnd_same {bb : Bool} {d : Device} {e : Device} (x1 : Bool) (x2 : Sys2Proof.Machine.FlowUpd) (h : SameB bb d e) :
    SameB bb d (Device.flowEnd e x1 x2) := by
  unfold Device.flowEnd
  repeat' with_reducible (first | assumption | (extract_lets +onlyGivenNames zz; first | clear_value zz | skip) | apply Device.overflowUpd_same | apply Device.bucketUpd_same | apply Device.setCache_same | apply Device.raise_same | apply Device.count_same | split | dsimp only | apply Same.upd)

theorem Device.flowFinish_same {bb : Bool} {d : Device} {e : Device} (x1 : Nat) (x2 : Option Nat) (x3 : Option Nat) (h : SameB bb d e) :
    SameB bb d (Device.flowFinish e x1 x2 x3) := by
  unfold Device.flowFinish
  repeat' with_reducible (first | assumption | (extract_lets +onlyGivenNames zz; first | (refine (fun (hz : SameB bb d zz) => ?_) ?_; clear_value zz; rotate_left; subst zz) | skip) | apply Device.setFrame_same | apply Device.flowEnd_same | split | dsimp only | apply Same.upd)

theorem Device.flowCopy_same {bb : Bool} {d : Device} {e : Device} (x1 : Sys2Proof.Machine.Copy) (x2 : Option Nat) (x3 : Option Nat) (h : SameB bb d e) :
    SameB bb d (Device.flowCopy e x1 x2 x3) := by
  unfold Device.flowCopy
  repeat' with_reducible (first | assumption | apply Device.flowFinish_same | apply Device.modFrame_same | split | dsimp only | apply Same.upd)

theorem Device.setLane_same {bb : Bool} {d : Device} {e : Device} (x1 : Nat) (x2 : Sys2Proof.Machine.LaneSt) (h : SameB bb d e) :
    SameB bb d (Device.setLane e x1 x2) := by
  unfold Device.setLane
  repeat' with_reducible (first | assumption | (extract_lets +onlyGivenNames zz; first | clear_value zz | skip) | split | dsimp only | apply Same.upd)

theorem Device.modLane_same {bb : Bool} {d : Device} {e : Device} (x1 : Nat) (x2 : Sys2Proof.Machine.LaneSt → Sys2Proof.Machine.LaneSt) (h : SameB bb d e) :
    SameB bb d (Device.modLane e x1 x2) := by
  unfold Device.modLane
  repeat' with_reducible (first | assumption | apply Device.setLane_same | dsimp only | apply Same.upd)

theorem Device.leaveLpiTx_same {bb : Bool} {d : Device} {e : Device} (x1 : Nat) (h : SameB bb d e) :
    SameB bb d (Device.leaveLpiTx e x1) := by
  unfold Device.leaveLpiTx
  repeat' with_reducible (first | assumption | (extract_lets +onlyGivenNames zz; first | (refine (fun (hz : SameB bb d zz) => ?_) ?_; clear_value zz; rotate_left; subst zz) | skip) | apply Device.modPort_same | apply Device.portCount_same | apply Device.modLane_same | split | (apply Same.foldl; intro _ _ _) | dsimp only | apply Same.upd)

theorem Device.sendFc_same {bb : Bool} {d : Device} {e : Device} (x1 : Nat) (x2 : Nat) (x3 : Nat) (h : SameB bb d e) :
    SameB bb d (Device.sendFc e x1 x2 x3) := by
  unfold Device.sendFc
  repeat' with_reducible (first | assumption | (extract_lets +onlyGivenNames zz; first | (refine (fun (hz : SameB bb d zz) => ?_) ?_; clear_value zz; rotate_left; subst zz) | clear_value zz | skip) | apply Device.modPort_same | apply Device.leaveLpiTx_same | apply Device.send_same | apply Device.portCount_same | split | dsimp only | apply Same.upd)

theorem Device.askFc_same {bb : Bool} {d : Device} {e : Device} (x1 : Nat) (x2 : Nat) (h : SameB bb d e) :
    SameB bb d (Device.askFc e x1 x2) := by
  unfold Device.askFc
  repeat' with_reducible (first | assumption | apply Device.modPort_same | apply Device.sendFc_same | split | dsimp only | apply Same.upd)

theorem Device.stopSending_same {bb : Bool} {d : Device} {e : Device} (x1 : Nat) (h : SameB bb d e) :
    SameB bb d (Device.stopSending e x1) := by
  unfold Device.stopSending
  repeat' with_reducible (first | assumption | (extract_lets +onlyGivenNames zz; first | (refine (fun (hz : SameB bb d zz) => ?_) ?_; clear_value zz; rotate_left; subst zz) | clear_value zz | skip) | apply Device.askFc_same | split | (apply Same.foldl; intro _ _ _) | dsimp only | apply Same.upd)

theorem Device.dropCopy_same {bb : Bool} {d : Device} {e : Device} (x1 : Nat) (x2 : Nat) (x3 : Nat) (x4 : Bool) (x5 : Option (Nat × Nat)) (h : SameB bb d e) :
    SameB bb d (Device.dropCopy e x1 x2 x3 x4 x5) := by
  unfold Device.dropCopy
  repeat' with_reducible (first | assumption | (extract_lets +onlyGivenNames zz; first | (refine (fun (hz : SameB bb d zz) => ?_) ?_; clear_value zz; rotate_left; subst zz) | clear_value zz | skip) | apply Device.endCopy_same | apply Device.stompOut_same | apply Device.giveBack_same | apply Device.loseOne_same | apply Device.flowCopy_same | apply Device.stopSending_same | split | dsimp only | apply Same.upd)

theorem Device.dropHead_same {bb : Bool} {d : Device} {e : Device} (x1 : Sys2Proof.Machine.Copy) (x2 : Nat) (h : SameB bb d e) :
    SameB bb d (Device.dropHead e x1 x2) := by
  unfold Device.dropHead
  repeat' with_reducible (first | assumption | (extract_lets +onlyGivenNames zz; first | (refine (fun (hz : SameB bb d zz) => ?_) ?_; clear_value zz; rotate_left; subst zz) | skip) | apply Device.queueCount_same | apply Device.dropCopy_same | split | dsimp only | apply Same.upd)

theorem Device.ageHeads_same {bb : Bool} {d : Device} {e : Device} (x1 : Nat) (x2 : Nat) (h : SameB bb d e) :
    SameB bb d (Device.ageHeads e x1 x2) := by
  induction x2 generalizing e x1 with
  | zero =>
    unfold Device.ageHeads
    repeat' with_reducible (first | assumption | apply Device.dropHead_same | split | dsimp only | apply Same.upd)
  | succ n ih =>
    unfold Device.ageHeads
    repeat' with_reducible (first | assumption | apply ih | apply Device.dropHead_same | split | dsimp only | apply Same.upd)

theorem Device.ageBoundary_same {bb : Bool} {d : Device} {e : Device} (h : SameB bb d e) :
    SameB bb d (Device.ageBoundary e) := by
  unfold Device.ageBoundary
  repeat' with_reducible (first | assumption | (extract_lets +onlyGivenNames zz; first | clear_value zz | skip) | apply Device.ageHeads_same | split | (apply Same.foldl; intro _ _ _) | dsimp only | apply Same.upd)

theorem Device.setPoolRow_same {bb : Bool} {d : Device} {e : Device} (x1 : Nat) (x2 : Nat) (h : SameB bb d e) :
    SameB bb d (Device.setPoolRow e x1 x2) := by
  unfold Device.setPoolRow
  repeat' with_reducible (first | assumption | (extract_lets +onlyGivenNames zz; first | clear_value zz | skip) | dsimp only | apply Same.upd)

theorem Device.notify_same {bb : Bool} {d : Device} {e : Device} (x1 : Sys2Proof.Machine.NoticeKind) (x2 : Nat) (x3 : Nat) (x4 : Nat) (x5 : Nat) (h : SameB bb d e) :
    SameB bb d (Device.notify e x1 x2 x3 x4 x5) := by
  unfold Device.notify
  repeat' with_reducible (first | assumption | (extract_lets +onlyGivenNames zz; first | clear_value zz | skip) | split | dsimp only | apply Same.upd)

theorem Device.notifyEntry_same {bb : Bool} {d : Device} {e : Device} (x1 : Sys2Proof.Machine.NoticeKind) (x2 : Nat) (x3 : Nat) (x4 : Nat) (h : SameB bb d e) :
    SameB bb d (Device.notifyEntry e x1 x2 x3 x4) := by
  unfold Device.notifyEntry
  repeat' with_reducible (first | assumption | apply Device.notify_same | dsimp only | apply Same.upd)

theorem Device.ageSlot_same {bb : Bool} {d : Device} {e : Device} (x1 : Nat) (x2 : Nat) (h : SameB bb d e) :
    SameB bb d (Device.ageSlot e x1 x2) := by
  unfold Device.ageSlot
  repeat' with_reducible (first | assumption | (extract_lets +onlyGivenNames zz; first | clear_value zz | skip) | apply Device.setPoolRow_same | apply Device.notifyEntry_same | apply Device.count_same | split | dsimp only | apply Same.upd)

theorem Device.ageRow_same {bb : Bool} {d : Device} {e : Device} (x1 : Nat) (h : SameB bb d e) :
    SameB bb d (Device.ageRow e x1) := by
  unfold Device.ageRow
  repeat' with_reducible (first | assumption | apply Device.ageSlot_same | split | (apply Same.foldl; intro _ _ _) | dsimp only | apply Same.upd)

theorem Device.mustWait_same {bb : Bool} {d : Device} {e : Device} (x1 : Nat) (x2 : Nat) (x3 : Nat) (x4 : Nat) (h : SameB bb d e) :
    SameB bb d (Device.mustWait e x1 x2 x3 x4) := by
  unfold Device.mustWait
  repeat' with_reducible (first | assumption | (extract_lets +onlyGivenNames zz; first | (refine (fun (hz : SameB bb d zz) => ?_) ?_; clear_value zz; rotate_left; subst zz) | clear_value zz | skip) | apply Device.event_same | split | dsimp only | apply Same.upd)

theorem Device.allWait_same {bb : Bool} {d : Device} {e : Device} (x1 : Nat) (x2 : Nat) (x3 : Sys2Proof.Machine.Flight → Bool) (h : SameB bb d e) :
    SameB bb d (Device.allWait e x1 x2 x3) := by
  unfold Device.allWait
  repeat' with_reducible (first | assumption | apply Device.mustWait_same | (apply Same.foldl; intro _ _ _) | dsimp only | apply Same.upd)

theorem Device.answer_same {bb : Bool} {d : Device} {e : Device} (x1 : Nat) (h : SameB bb d e) :
    SameB bb d (Device.answer e x1) := by
  unfold Device.answer
  repeat' with_reducible (first | assumption | (extract_lets +onlyGivenNames zz; first | clear_value zz | skip) | split | dsimp only | apply Same.upd)

theorem Device.freeBillet_same {bb : Bool} {d : Device} {e : Device} (x1 : Nat) (x2 : Nat) (h : SameB bb d e) :
    SameB bb d (Device.freeBillet e x1 x2) := by
  unfold Device.freeBillet
  repeat' with_reducible (first | assumption | (extract_lets +onlyGivenNames zz; first | clear_value zz | skip) | dsimp only | apply Same.upd)

theorem Device.dropAsks_same {bb : Bool} {d : Device} {e : Device} (x1 : Nat) (x2 : Nat → Bool) (h : SameB bb d e) :
    SameB bb d (Device.dropAsks e x1 x2) := by
  unfold Device.dropAsks
  repeat' with_reducible (first | assumption | (extract_lets +onlyGivenNames zz; first | (refine (fun (hz : SameB bb d zz) => ?_) ?_; clear_value zz; rotate_left; subst zz) | clear_value zz | skip) | apply Device.freeBillet_same | (apply Same.foldl; intro _ _ _) | dsimp only | apply Same.upd)

theorem Device.disableGroup_same {bb : Bool} {d : Device} {e : Device} (x1 : Nat) (h : SameB bb d e) :
    SameB bb d (Device.disableGroup e x1) := by
  unfold Device.disableGroup
  repeat' with_reducible (first | assumption | (extract_lets +onlyGivenNames zz; first | (refine (fun (hz : SameB bb d zz) => ?_) ?_; clear_value zz; rotate_left; subst zz) | clear_value zz | skip) | apply Device.dropAsks_same | apply Device.freeBillet_same | apply Device.setGroup_same | split | (apply Same.foldl; intro _ _ _) | dsimp only | apply Same.upd)

theorem Device.errWord_same {bb : Bool} {d : Device} {e : Device} (x1 : Nat) (x2 : Sys2Proof.Word) (h : SameB bb d e) :
    SameB bb d (Device.errWord e x1 x2) := by
  unfold Device.errWord
  repeat' with_reducible (first | assumption | (extract_lets +onlyGivenNames zz; first | (refine (fun (hz : SameB bb d zz) => ?_) ?_; clear_value zz; rotate_left; subst zz) | clear_value zz | skip) | apply Device.setReg_same | split | dsimp only | apply Same.upd)

theorem Device.err_same {bb : Bool} {d : Device} {e : Device} (x1 : Nat) (x2 : Nat) (x3 : Sys2Proof.Machine.ErrKind) (x4 : Sys2Proof.Source) (h : SameB bb d e) :
    SameB bb d (Device.err e x1 x2 x3 x4) := by
  unfold Device.err
  repeat' with_reducible (first | assumption | (extract_lets +onlyGivenNames zz; first | (refine (fun (hz : SameB bb d zz) => ?_) ?_; clear_value zz; rotate_left; subst zz) | clear_value zz | skip) | apply Device.errWord_same | split | dsimp only | apply Same.upd)

theorem Device.refuse_same {bb : Bool} {d : Device} {e : Device} (x1 : Sys2Proof.Source) (x2 : Nat) (h : SameB bb d e) :
    SameB bb d (Device.refuse e x1 x2) := by
  unfold Device.refuse
  repeat' with_reducible (first | assumption | apply Device.err_same | dsimp only | apply Same.upd)

theorem Device.markGroup_same {bb : Bool} {d : Device} {e : Device} (x1 : Nat) (x2 : Nat) (h : SameB bb d e) :
    SameB bb d (Device.markGroup e x1 x2) := by
  unfold Device.markGroup
  repeat' with_reducible (first | assumption | apply Device.markSet_same | split | dsimp only | apply Same.upd)

theorem Device.setPool_same {bb : Bool} {d : Device} {e : Device} (x1 : Nat) (x2 : Sys2Proof.Machine.Pool) (h : SameB bb d e) :
    SameB bb d (Device.setPool e x1 x2) := by
  unfold Device.setPool
  repeat' with_reducible (first | assumption | (extract_lets +onlyGivenNames zz; first | clear_value zz | skip) | dsimp only | apply Same.upd)

theorem Device.askBillet_same {bb : Bool} {d : Device} {e : Device} (x1 : Nat) (x2 : Nat) (x3 : Nat) (h : SameB bb d e) :
    SameB bb d (Device.askBillet e x1 x2 x3) := by
  unfold Device.askBillet
  repeat' with_reducible (first | assumption | (extract_lets +onlyGivenNames zz; first | clear_value zz | skip) | apply Device.setPool_same | dsimp only | apply Same.upd)

theorem Device.enableGroup_same {bb : Bool} {d : Device} {e : Device} (x1 : Nat) (h : SameB bb d e) :
    SameB bb d (Device.enableGroup e x1) := by
  unfold Device.enableGroup
  repeat' with_reducible (first | assumption | (extract_lets +onlyGivenNames zz; first | (refine (fun (hz : SameB bb d zz) => ?_) ?_; clear_value zz; rotate_left; subst zz) | clear_value zz | skip) | apply Device.refuse_same | apply Device.markGroup_same | apply Device.setGroup_same | apply Device.raise_same | apply Device.askBillet_same | split | dsimp only | apply Same.upd)

theorem Device.takeGrant_same {bb : Bool} {d : Device} {e : Device} (x1 : Nat) (x2 : Nat) (h : SameB bb d e) :
    SameB bb d (Device.takeGrant e x1 x2) := by
  unfold Device.takeGrant
  repeat' with_reducible (first | assumption | (extract_lets +onlyGivenNames zz; first | clear_value zz | skip) | dsimp only | apply Same.upd)

theorem Device.takeIndex_same {bb : Bool} {d : Device} {e : Device} (x1 : Nat) (h : SameB bb d e) :
    SameB bb d (Device.takeIndex e x1) := by
  unfold Device.takeIndex
  repeat' with_reducible (first | assumption | (extract_lets +onlyGivenNames zz; first | clear_value zz | skip) | apply Device.setGroup_same | apply Device.takeGrant_same | split | dsimp only | apply Same.upd)

theorem Device.anvilBoundary_same {bb : Bool} {d : Device} {e : Device} (x1 : Nat) (h : SameB bb d e) :
    SameB bb d (Device.anvilBoundary e x1) := by
  unfold Device.anvilBoundary
  repeat' with_reducible (first | assumption | (extract_lets +onlyGivenNames zz; first | (refine (fun (hz : SameB bb d zz) => ?_) ?_; clear_value zz; rotate_left; subst zz) | clear_value zz | skip) | apply Device.setGroup_same | apply Device.disableGroup_same | apply Device.enableGroup_same | apply Device.takeIndex_same | split | (apply Same.foldl; intro _ _ _) | dsimp only | apply Same.upd)

theorem Device.spendPart_same {bb : Bool} {d : Device} {e : Device} (x1 : Nat) (x2 : Nat) (x3 : Nat) (x4 : Nat) (x5 : Nat) (h : SameB bb d e) :
    SameB bb d (Device.spendPart e x1 x2 x3 x4 x5) := by
  unfold Device.spendPart
  repeat' with_reducible (first | assumption | (extract_lets +onlyGivenNames zz; first | (refine (fun (hz : SameB bb d zz) => ?_) ?_; clear_value zz; rotate_left; subst zz) | clear_value zz | skip) | apply Device.mustWait_same | dsimp only | apply Same.upd)

theorem Device.takePieces_same {bb : Bool} {d : Device} {e : Device} (x1 : Nat) (x2 : Nat) (x3 : Nat) (x4 : Nat) (x5 : Nat) (h : SameB bb d e) :
    SameB bb d (Device.takePieces e x1 x2 x3 x4 x5).1 := by
  unfold Device.takePieces
  repeat' with_reducible (first | assumption | (extract_lets +onlyGivenNames zz; first | clear_value zz | skip) | apply Device.spend_same | apply Device.spendPart_same | split | (apply Same.snd2 (by assumption)) | (apply Same.snd (by assumption)) | (apply Same.fst (by assumption)) | dsimp only | apply Same.upd)

theorem Device.readCells_same {bb : Bool} {d : Device} {e : Device} (x1 : Nat) (h : SameB bb d e) :
    SameB bb d (Device.readCells e x1) := by
  unfold Device.readCells
  repeat' with_reducible (first | assumption | (extract_lets +onlyGivenNames zz; first | (refine (fun (hz : SameB bb d zz.2) => ?_) ?_; clear_value zz; rotate_left; subst zz) | (refine (fun (hz : SameB bb d zz.1) => ?_) ?_; clear_value zz; rotate_left; subst zz) | (refine (fun (hz : SameB bb d zz.1.d) => ?_) ?_; clear_value zz; rotate_left; subst zz) | clear_value zz | skip) | apply Device.takePieces_same | apply Device.freeRead_same | apply Device.modCopy_same | split | (apply Same.snd2 (by assumption)) | (apply Same.snd (by assumption)) | (apply Same.fst (by assumption)) | dsimp only | apply Same.upd)

theorem Device.anvilRead_same {bb : Bool} {d : Device} {e : Device} (x1 : Nat) (x2 : Nat) (h : SameB bb d e) :
    SameB bb d (Device.anvilRead e x1 x2).1 := by
  unfold Device.anvilRead
  repeat' with_reducible (first | assumption | (extract_lets +onlyGivenNames zz; first | (refine (fun (hz : SameB bb d zz) => ?_) ?_; clear_value zz; rotate_left; subst zz) | skip) | apply Device.readCells_same | apply Device.modCopy_same | split | (apply Same.snd2 (by assumption)) | (apply Same.snd (by assumption)) | (apply Same.fst (by assumption)) | dsimp only | apply Same.upd)

theorem Device.dropMsg_same {bb : Bool} {d : Device} {e : Device} (x1 : Sys2Proof.Machine.Copy) (x2 : Nat) (h : SameB bb d e) :
    SameB bb d (Device.dropMsg e x1 x2) := by
  unfold Device.dropMsg
  repeat' with_reducible (first | assumption | apply Device.dropCopy_same | dsimp only | apply Same.upd)

theorem Device.countBad_same {bb : Bool} {d : Device} {e : Device} (x1 : Nat) (h : SameB bb d e) :
    SameB bb d (Device.countBad e x1) := by
  unfold Device.countBad
  repeat' with_reducible (first | assumption | (extract_lets +onlyGivenNames zz; first | (refine (fun (hz : SameB bb d zz) => ?_) ?_; clear_value zz; rotate_left; subst zz) | skip) | apply Device.count_same | apply Device.raise_same | split | dsimp only | apply Same.upd)

theorem Device.anvilTake_same {bb : Bool} {d : Device} {e : Device} (x1 : Nat) (x2 : Nat) (h : SameB bb d e) :
    SameB bb d (Device.anvilTake e x1 x2).1 := by
  unfold Device.anvilTake
  repeat' with_reducible (first | assumption | apply Device.anvilRead_same | apply Device.dropMsg_same | apply Device.countBad_same | split | (apply Same.snd2 (by assumption)) | (apply Same.snd (by assumption)) | (apply Same.fst (by assumption)) | dsimp only | apply Same.upd)

theorem Device.setSeq_same {bb : Bool} {d : Device} {e : Device} (x1 : Nat) (x2 : Sys2Proof.Machine.SeqSt) (h : SameB bb d e) :
    SameB bb d (Device.setSeq e x1 x2) := by
  unfold Device.setSeq
  repeat' with_reducible (first | assumption | (extract_lets +onlyGivenNames zz; first | clear_value zz | skip) | dsimp only | apply Same.upd)

theorem Device.modSeq_same {bb : Bool} {d : Device} {e : Device} (x1 : Nat) (x2 : Sys2Proof.Machine.SeqSt → Sys2Proof.Machine.SeqSt) (h : SameB bb d e) :
    SameB bb d (Device.modSeq e x1 x2) := by
  unfold Device.modSeq
  repeat' with_reducible (first | assumption | apply Device.setSeq_same | dsimp only | apply Same.upd)

theorem Device.setRole_same {bb : Bool} {d : Device} {e : Device} (x1 : Nat) (x2 : Sys2Proof.Machine.SeqRole) (h : SameB bb d e) :
    SameB bb d (Device.setRole e x1 x2) := by
  unfold Device.setRole
  repeat' with_reducible (first | assumption | (extract_lets +onlyGivenNames zz; first | clear_value zz | skip) | dsimp only | apply Same.upd)

theorem Device.modRole_same {bb : Bool} {d : Device} {e : Device} (x1 : Nat) (x2 : Sys2Proof.Machine.SeqRole → Sys2Proof.Machine.SeqRole) (h : SameB bb d e) :
    SameB bb d (Device.modRole e x1 x2) := by
  unfold Device.modRole
  repeat' with_reducible (first | assumption | apply Device.setRole_same | dsimp only | apply Same.upd)

theorem Device.storeBad_same {bb : Bool} {d : Device} {e : Device} (x1 : Sys2Proof.Machine.FaultPlace) (h : SameB bb d e) :
    SameB bb d (Device.storeBad e x1) := by
  unfold Device.storeBad
  repeat' with_reducible (first | assumption | (extract_lets +onlyGivenNames zz; first | (refine (fun (hz : SameB bb d zz) => ?_) ?_; clear_value zz; rotate_left; subst zz) | clear_value zz | skip) | apply Device.modSeq_same | apply Device.modRole_same | split | dsimp only | apply Same.upd)

theorem Device.gainShared_same {bb : Bool} {d : Device} {e : Device} (x1 : Nat) (h : SameB bb d e) :
    SameB bb d (Device.gainShared e x1) := by
  unfold Device.gainShared
  repeat' with_reducible (first | assumption | (extract_lets +onlyGivenNames zz; first | clear_value zz | skip) | dsimp only | apply Same.upd)

theorem Device.resizeShared_same {bb : Bool} {d : Device} {e : Device} (x1 : Nat) (h : SameB bb d e) :
    SameB bb d (Device.resizeShared e x1) := by
  unfold Device.resizeShared
  repeat' with_reducible (first | assumption | (extract_lets +onlyGivenNames zz; first | (refine (fun (hz : SameB bb d zz) => ?_) ?_; clear_value zz; rotate_left; subst zz) | clear_value zz | skip) | apply Device.gainShared_same | split | dsimp only | apply Same.upd)

theorem Device.laneEvent_same {bb : Bool} {d : Device} {e : Device} (x1 : Nat) (x2 : Bool) (h : SameB bb d e) :
    SameB bb d (Device.laneEvent e x1 x2) := by
  unfold Device.laneEvent
  repeat' with_reducible (first | assumption | (extract_lets +onlyGivenNames zz; first | clear_value zz | skip) | apply Device.raise_same | apply Device.setW1c_same | split | dsimp only | apply Same.upd)

theorem Device.laneTo_same {bb : Bool} {d : Device} {e : Device} (x1 : Nat) (x2 : Sys2Proof.Machine.LaneState) (h : SameB bb d e) :
    SameB bb d (Device.laneTo e x1 x2) := by
  unfold Device.laneTo
  repeat' with_reducible (first | assumption | (extract_lets +onlyGivenNames zz; first | (refine (fun (hz : SameB bb d zz) => ?_) ?_; clear_value zz; rotate_left; subst zz) | clear_value zz | skip) | apply Device.setReg_same | apply Device.setLane_same | apply Device.laneEvent_same | split | dsimp only | apply Same.upd)

theorem Device.settleFault_same {bb : Bool} {d : Device} {e : Device} (x1 : Nat) (h : SameB bb d e) :
    SameB bb d (Device.settleFault e x1) := by
  unfold Device.settleFault
  repeat' with_reducible (first | assumption | (extract_lets +onlyGivenNames zz; first | clear_value zz | skip) | apply Device.send_same | apply Device.modPort_same | split | dsimp only | apply Same.upd)

theorem Device.settlePort_same {bb : Bool} {d : Device} {e : Device} (x1 : Nat) (h : SameB bb d e) :
    SameB bb d (Device.settlePort e x1) := by
  unfold Device.settlePort
  repeat' with_reducible (first | assumption | (extract_lets +onlyGivenNames zz; first | (refine (fun (hz : SameB bb d zz) => ?_) ?_; clear_value zz; rotate_left; subst zz) | skip) | apply Device.settleFault_same | apply Device.modPort_same | split | dsimp only | apply Same.upd)

theorem Device.portTo_same {bb : Bool} {d : Device} {e : Device} (x1 : Nat) (x2 : Sys2Proof.Machine.LaneState) (h : SameB bb d e) :
    SameB bb d (Device.portTo e x1 x2) := by
  unfold Device.portTo
  repeat' with_reducible (first | assumption | apply Device.laneTo_same | split | (apply Same.foldl; intro _ _ _) | dsimp only | apply Same.upd)

theorem Device.setFld_same {bb : Bool} {d : Device} {e : Device} (x1 : Nat) (x2 : Sys2Proof.Machine.Fld) (x3 : Nat) (h : SameB bb d e) :
    SameB bb d (Device.setFld e x1 x2 x3) := by
  unfold Device.setFld
  repeat' with_reducible (first | assumption | apply Device.setReg_same | dsimp only | apply Same.upd)

theorem Device.setRate_same {bb : Bool} {d : Device} {e : Device} (x1 : Nat) (x2 : Nat) (h : SameB bb d e) :
    SameB bb d (Device.setRate e x1 x2) := by
  unfold Device.setRate
  repeat' with_reducible (first | assumption | apply Device.setFld_same | split | (apply Same.foldl; intro _ _ _) | dsimp only | apply Same.upd)

theorem Device.fixRate_same {bb : Bool} {d : Device} {e : Device} (x1 : Nat) (h : SameB bb d e) :
    SameB bb d (Device.fixRate e x1) := by
  unfold Device.fixRate
  repeat' with_reducible (first | assumption | apply Device.setRate_same | split | dsimp only | apply Same.upd)

theorem Device.beginTrain_same {bb : Bool} {d : Device} {e : Device} (x1 : Nat) (x2 : Sys2Proof.Machine.LaneState) (h : SameB bb d e) :
    SameB bb d (Device.beginTrain e x1 x2) := by
  unfold Device.beginTrain
  repeat' with_reducible (first | assumption | (extract_lets +onlyGivenNames zz; first | clear_value zz | skip) | apply Device.modBring_same | apply Device.portTo_same | dsimp only | apply Same.upd)

theorem Device.beginAlign_same {bb : Bool} {d : Device} {e : Device} (x1 : Nat) (h : SameB bb d e) :
    SameB bb d (Device.beginAlign e x1) := by
  unfold Device.beginAlign
  repeat' with_reducible (first | assumption | apply Device.settleFault_same | apply Device.portTo_same | dsimp only | apply Same.upd)

theorem Device.tryStart_same {bb : Bool} {d : Device} {e : Device} (x1 : Nat) (h : SameB bb d e) :
    SameB bb d (Device.tryStart e x1) := by
  unfold Device.tryStart
  repeat' with_reducible (first | assumption | (extract_lets +onlyGivenNames zz; first | (refine (fun (hz : SameB bb d zz) => ?_) ?_; clear_value zz; rotate_left; subst zz) | clear_value zz | skip) | apply Device.portTo_same | apply Device.fixRate_same | apply Device.modPort_same | apply Device.beginTrain_same | apply Device.beginAlign_same | split | dsimp only | apply Same.upd)

theorem Device.restart_same {bb : Bool} {d : Device} {e : Device} (x1 : Nat) (h : SameB bb d e) :
    SameB bb d (Device.restart e x1) := by
  unfold Device.restart
  repeat' with_reducible (first | assumption | (extract_lets +onlyGivenNames zz; first | (refine (fun (hz : SameB bb d zz) => ?_) ?_; clear_value zz; rotate_left; subst zz) | clear_value zz | skip) | apply Device.laneTo_same | apply Device.settleFault_same | apply Device.tryStart_same | apply Device.fixRate_same | apply Device.modBring_same | split | (apply Same.foldl; intro _ _ _) | dsimp only | apply Same.upd)

theorem Device.holdRetired_same {bb : Bool} {d : Device} {e : Device} (x1 : Nat) (h : SameB bb d e) :
    SameB bb d (Device.holdRetired e x1) := by
  unfold Device.holdRetired
  repeat' with_reducible (first | assumption | (extract_lets +onlyGivenNames zz; first | (refine (fun (hz : SameB bb d zz) => ?_) ?_; clear_value zz; rotate_left; subst zz) | clear_value zz | skip) | apply Device.raise_same | apply Device.laneTo_same | apply Device.settlePort_same | apply Device.restart_same | split | dsimp only | apply Same.upd)

theorem Device.setLink_same {bb : Bool} {d : Device} {e : Device} (x1 : Nat) (x2 : Sys2Proof.Machine.LinkSt) (h : SameB bb d e) :
    SameB bb d (Device.setLink e x1 x2) := by
  unfold Device.setLink
  repeat' with_reducible (first | assumption | (extract_lets +onlyGivenNames zz; first | clear_value zz | skip) | dsimp only | apply Same.upd)

theorem Device.applyEntry_same {bb : Bool} {d : Device} {e : Device} (x1 : List Nat) (x2 : Sys2Proof.Machine.RecEntry) (h : SameB bb d e) :
    SameB bb d (Device.applyEntry e x1 x2) := by
  unfold Device.applyEntry
  repeat' with_reducible (first | assumption | (extract_lets +onlyGivenNames zz; first | (refine (fun (hz : SameB bb d zz) => ?_) ?_; clear_value zz; rotate_left; subst zz) | clear_value zz | skip) | apply Device.storeBad_same | apply Device.resizeShared_same | apply Device.holdRetired_same | apply Device.setLink_same | split | (apply Same.foldl; intro _ _ _) | dsimp only | apply Same.upd)

theorem Device.applyMeter_same {bb : Bool} {d : Device} {e : Device} (x1 : Nat) (x2 : Nat) (x3 : Nat) (x4 : Int) (h : SameB bb d e) :
    SameB bb d (Device.applyMeter e x1 x2 x3 x4).1 := by
  unfold Device.applyMeter
  repeat' with_reducible (first | assumption | (extract_lets +onlyGivenNames zz; first | clear_value zz | skip) | split | (apply Same.snd2 (by assumption)) | (apply Same.snd (by assumption)) | (apply Same.fst (by assumption)) | dsimp only | apply Same.upd)

theorem Device.applyRecord_same {bb : Bool} {d : Device} {e : Device} (x1 : List Nat) (h : SameB bb d e) :
    SameB bb d (Device.applyRecord e x1) := by
  unfold Device.applyRecord
  repeat' with_reducible (first | assumption | (extract_lets +onlyGivenNames zz; first | (refine (fun (hz : SameB bb d zz) => ?_) ?_; clear_value zz; rotate_left; subst zz) | clear_value zz | skip) | apply Device.countN_same | apply Device.applyEntry_same | split | (apply Same.foldl; intro _ _ _) | dsimp only | apply Same.upd)

theorem Device.askIfPending_same {bb : Bool} {d : Device} {e : Device} (x1 : Nat) (h : SameB bb d e) :
    SameB bb d (Device.askIfPending e x1) := by
  unfold Device.askIfPending
  repeat' with_reducible (first | assumption | (extract_lets +onlyGivenNames zz; first | clear_value zz | skip) | split | dsimp only | apply Same.upd)

theorem Device.atCyc_same {bb : Bool} {d : Device} {e : Device} (x1 : Nat) (h : SameB bb d e) :
    SameB bb d (Device.atCyc e x1) := by
  unfold Device.atCyc
  repeat' with_reducible (first | assumption | (extract_lets +onlyGivenNames zz; first | (have hq : StrokeCtl := zz; clear hq; subst zz) | clear_value zz | skip) | dsimp only | apply Same.upd | apply Same.updStroke | exact rfl)

theorem applyDisp_same {bb : Bool} {d : Device} {e : StageRun} (x0 : Sys2Proof.Machine.StageCtx) (x1 : Sys2Proof.Machine.ActWord) (x2 : Nat) (x3 : Nat) (h : SameB bb d e.d) :
    SameB bb d (applyDisp x0 x1 x2 x3 e).d := by
  unfold applyDisp
  repeat' with_reducible (first | assumption | (extract_lets +onlyGivenNames zz; first | (refine (fun (hz : SameB bb d zz.d) => ?_) ?_; clear_value zz; rotate_left; subst zz) | clear_value zz | skip) | apply Device.count_same | split | dsimp only | apply Same.upd)

theorem applyEdit_same {bb : Bool} {d : Device} {e : StageRun} (x0 : Sys2Proof.Machine.StageCtx) (x1 : Sys2Proof.Machine.ActWord) (h : SameB bb d e.d) :
    SameB bb d (applyEdit x0 x1 e).d := by
  unfold applyEdit
  repeat' with_reducible (first | assumption | (extract_lets +onlyGivenNames zz; first | clear_value zz | skip) | apply Device.count_same | split | dsimp only | apply Same.upd)

theorem Device.meterCount_same {bb : Bool} {d : Device} {e : Device} (x1 : Nat) (x2 : Sys2Proof.Machine.MeterCharge) (x3 : Nat) (h : SameB bb d e) :
    SameB bb d (Device.meterCount e x1 x2 x3) := by
  unfold Device.meterCount
  repeat' with_reducible (first | assumption | (extract_lets +onlyGivenNames zz; first | (refine (fun (hz : SameB bb d zz) => ?_) ?_; clear_value zz; rotate_left; subst zz) | clear_value zz | skip) | apply Device.countN_same | apply Device.count_same | split | dsimp only | apply Same.upd)

theorem applyMeterAct_same {bb : Bool} {d : Device} {e : StageRun} (x0 : Sys2Proof.Machine.StageCtx) (x1 : Nat) (x2 : Nat) (x3 : Nat) (x4 : Sys2Proof.Machine.ActWord) (h : SameB bb d e.d) :
    SameB bb d (applyMeterAct x0 x1 x2 x3 x4 e).d := by
  unfold applyMeterAct
  repeat' with_reducible (first | assumption | (extract_lets +onlyGivenNames zz; first | clear_value zz | skip) | apply Device.applyMeter_same | apply Device.meterCount_same | split | (apply Same.snd2 (by assumption)) | (apply Same.snd (by assumption)) | (apply Same.fst (by assumption)) | (apply Same.fstR (by assumption)) | dsimp only | apply Same.upd)

theorem applyAction_same {bb : Bool} {d : Device} {e : StageRun} (x0 : Sys2Proof.Machine.StageCtx) (x1 : Nat) (x2 : Nat) (x3 : Nat) (x4 : Nat) (h : SameB bb d e.d) :
    SameB bb d (applyAction x0 x1 x2 x3 x4 e).d := by
  unfold applyAction
  repeat' with_reducible (first | assumption | (extract_lets +onlyGivenNames zz; first | (refine (fun (hz : SameB bb d zz) => ?_) ?_; clear_value zz; rotate_left; subst zz) | (refine (fun (hz : SameB bb d zz.d) => ?_) ?_; clear_value zz; rotate_left; subst zz) | clear_value zz | skip) | apply applyDisp_same | apply Device.count_same | apply Device.countN_same | apply applyEdit_same | apply applyMeterAct_same | split | dsimp only | apply Same.upd)

theorem extStep_same {bb : Bool} {d : Device} {e : StageRun} (x0 : Sys2Proof.Machine.Flight) (x1 : Sys2Proof.Machine.StageCtx) (h : SameB bb d e.d) :
    SameB bb d (extStep x0 x1 e).d := by
  unfold extStep
  repeat' with_reducible (first | assumption | apply applyAction_same | split | dsimp only | apply Same.upd)

theorem Device.noteHit_same {bb : Bool} {d : Device} {e : Device} (x1 : Nat) (x2 : Nat × Nat) (h : SameB bb d e) :
    SameB bb d (Device.noteHit e x1 x2) := by
  unfold Device.noteHit
  repeat' with_reducible (first | assumption | (extract_lets +onlyGivenNames zz; first | clear_value zz | skip) | split | dsimp only | apply Same.upd)

theorem Device.emLookup_same {bb : Bool} {d : Device} {e : Device} (x1 : Nat) (x2 : Nat) (x3 : Bool) (x4 : Sys2Proof.Machine.EmKey) (h : SameB bb d e) :
    SameB bb d (Device.emLookup e x1 x2 x3 x4).2 := by
  unfold Device.emLookup
  repeat' with_reducible (first | assumption | (extract_lets +onlyGivenNames zz; first | (refine (fun (hz : SameB bb d zz) => ?_) ?_; clear_value zz; rotate_left; subst zz) | clear_value zz | skip) | apply Device.count_same | apply Device.noteHit_same | apply Device.setPoolRow_same | split | exact SameP.ofNone | apply SameP.ofSome | (apply Same.snd2 (by assumption)) | (apply Same.snd (by assumption)) | (apply Same.fst (by assumption)) | (apply SameO.get (by assumption)) | (apply SameP.get2 (by assumption)) | (apply SameP.get1 (by assumption)) | dsimp only | apply Same.upd)

theorem Device.raiseLearn_same {bb : Bool} {d : Device} {e : Device} (x1 : Sys2Proof.Machine.LearnEvent) (h : SameB bb d e) :
    SameB bb d (Device.raiseLearn e x1) := by
  unfold Device.raiseLearn
  repeat' with_reducible (first | assumption | (extract_lets +onlyGivenNames zz; first | clear_value zz | skip) | apply Device.count_same | split | dsimp only | apply Same.upd)

theorem unitEm_same {bb : Bool} {d : Device} {e : StageRun} (x0 : Sys2Proof.Machine.StageCtx) (x1 : Nat) (x2 : Sys2Proof.Machine.Phv) (x3 : Nat) (x4 : Nat) (x5 : Nat) (h : SameB bb d e.d) :
    SameB bb d (unitEm x0 x1 x2 x3 x4 x5 e).1.d := by
  unfold unitEm
  repeat' with_reducible (first | assumption | (extract_lets +onlyGivenNames zz; first | (refine (fun (hz : SameB bb d zz) => ?_) ?_; clear_value zz; rotate_left; subst zz) | (refine (fun (hz : SameB bb d zz.d) => ?_) ?_; clear_value zz; rotate_left; subst zz) | clear_value zz | skip) | apply Device.emLookup_same | apply Device.event_same | apply Device.spend_same | apply Device.raiseLearn_same | split | (apply Same.snd2 (by assumption)) | (apply Same.snd (by assumption)) | (apply Same.fst (by assumption)) | (apply Same.fstR (by assumption)) | (apply SameO.get (by assumption)) | (apply SameP.get2 (by assumption)) | (apply SameP.get1 (by assumption)) | dsimp only | apply Same.upd)

theorem Device.lpmLookup_same {bb : Bool} {d : Device} {e : Device} (x1 : Nat) (x2 : Bool) (x3 : Nat) (x4 : Nat) (h : SameB bb d e) :
    SameB bb d (Device.lpmLookup e x1 x2 x3 x4).2 := by
  unfold Device.lpmLookup
  repeat' with_reducible (first | assumption | (extract_lets +onlyGivenNames zz; first | (refine (fun (hz : SameB bb d zz) => ?_) ?_; clear_value zz; rotate_left; subst zz) | clear_value zz | skip) | apply Device.count_same | split | exact SameP.ofNone | apply SameP.ofSome | (apply Same.foldl; intro _ _ _) | (apply Same.snd2 (by assumption)) | (apply Same.snd (by assumption)) | (apply Same.fst (by assumption)) | (apply SameO.get (by assumption)) | (apply SameP.get2 (by assumption)) | (apply SameP.get1 (by assumption)) | dsimp only | apply Same.upd)

theorem unitLpm_same {bb : Bool} {d : Device} {e : StageRun} (x0 : Sys2Proof.Machine.StageCtx) (x1 : Nat) (x2 : Sys2Proof.Machine.Phv) (x3 : Nat) (x4 : Nat) (h : SameB bb d e.d) :
    SameB bb d (unitLpm x0 x1 x2 x3 x4 e).1.d := by
  unfold unitLpm
  repeat' with_reducible (first | assumption | (extract_lets +onlyGivenNames zz; first | clear_value zz | skip) | apply Device.lpmLookup_same | apply Device.event_same | apply Device.spend_same | split | (apply Same.snd2 (by assumption)) | (apply Same.snd (by assumption)) | (apply Same.fst (by assumption)) | (apply Same.fstR (by assumption)) | (apply SameO.get (by assumption)) | (apply SameP.get2 (by assumption)) | (apply SameP.get1 (by assumption)) | dsimp only | apply Same.upd)

theorem unitTern_same {bb : Bool} {d : Device} {e : StageRun} (x0 : Sys2Proof.Machine.StageCtx) (x1 : Nat) (x2 : Sys2Proof.Machine.Phv) (x3 : Nat) (x4 : Nat) (h : SameB bb d e.d) :
    SameB bb d (unitTern x0 x1 x2 x3 x4 e).1.d := by
  unfold unitTern
  repeat' with_reducible (first | assumption | (extract_lets +onlyGivenNames zz; first | clear_value zz | skip) | apply Device.event_same | apply Device.spend_same | split | (apply Same.snd2 (by assumption)) | (apply Same.snd (by assumption)) | (apply Same.fst (by assumption)) | (apply Same.fstR (by assumption)) | dsimp only | apply Same.upd)

theorem runUnit_same {bb : Bool} {d : Device} {e : StageRun} (x0 : Sys2Proof.Machine.StageCtx) (x1 : Nat) (x2 : Nat) (x3 : Sys2Proof.Machine.Phv) (h : SameB bb d e.d) :
    SameB bb d (runUnit x0 x1 x2 x3 e).1.d := by
  unfold runUnit
  try dsimp only
  repeat' with_reducible (first | assumption | apply Device.count_same | apply unitEm_same | apply unitLpm_same | apply unitTern_same | split | (apply Same.snd2 (by assumption)) | (apply Same.snd (by assumption)) | (apply Same.fst (by assumption)) | (apply Same.fstR (by assumption)) | dsimp only | apply Same.upd)

theorem unitAction_same {bb : Bool} {d : Device} {e : StageRun} (x0 : Sys2Proof.Machine.StageCtx) (x1 : Nat) (x2 : Nat) (x3 : Option Sys2Proof.Machine.UnitOut) (h : SameB bb d e.d) :
    SameB bb d (unitAction x0 x1 x2 x3 e).d := by
  unfold unitAction
  repeat' with_reducible (first | assumption | (extract_lets +onlyGivenNames zz; first | (refine (fun (hz : SameB bb d zz.d) => ?_) ?_; clear_value zz; rotate_left; subst zz) | clear_value zz | skip) | apply applyAction_same | split | dsimp only | apply Same.upd)

theorem runStage_same {bb : Bool} {d : Device} {e : StageRun} (x0 : Sys2Proof.Machine.StageCtx) (x1 : Nat) (h : SameB bb d e.d) :
    SameB bb d (runStage x0 x1 e).d := by
  unfold runStage
  repeat' with_reducible (first | assumption | (extract_lets +onlyGivenNames zz; first | clear_value zz | skip) | apply runUnit_same | apply unitAction_same | split | (apply Same.snd2 (by assumption)) | (apply Same.snd (by assumption)) | (apply Same.fst (by assumption)) | (apply Same.fstR (by assumption)) | dsimp only | apply Same.upd)

theorem Device.setFlight_same {bb : Bool} {d : Device} {e : Device} (x1 : Sys2Proof.Machine.Flight) (h : SameB bb d e) :
    SameB bb d (Device.setFlight e x1) := by
  unfold Device.setFlight
  repeat' with_reducible (first | assumption | (extract_lets +onlyGivenNames zz; first | clear_value zz | skip) | split | dsimp only | apply Same.upd)

theorem Device.lhMoved_same {bb : Bool} {d : Device} {e : Device} (x1 : Nat) (x2 : Option Nat) (h : SameB bb d e) :
    SameB bb d (Device.lhMoved e x1 x2) := by
  unfold Device.lhMoved
  repeat' with_reducible (first | assumption | apply Device.event_same | apply Device.free_same | split | (apply Same.snd2 (by assumption)) | (apply Same.snd (by assumption)) | (apply Same.fst (by assumption)) | dsimp only | apply Same.upd)

theorem Device.issueExt_same {bb : Bool} {d : Device} {e : Device} (x1 : Nat) (h : SameB bb d e) :
    SameB bb d (Device.issueExt e x1) := by
  unfold Device.issueExt
  repeat' with_reducible (first | assumption | apply Device.count_same | apply Device.setFlight_same | apply Device.lhMoved_same | apply Device.spend_same | apply Device.mustWait_same | split | dsimp only | apply Same.upd)

theorem Device.keepStages_same {bb : Bool} {d : Device} {e : StageRun} (x0 : Device) (x1 : Flight) (x3 : FlightPhase) (x4 : Nat) (h : SameB bb d e.d) :
    SameB bb d (Device.keepStages x0 x1 e x3 x4) := by
  unfold Device.keepStages
  extract_lets a0 a d1 d2
  exact Device.issueExt_same _ (Device.setFlight_same _ (Device.modFrame_same _ _ h))

theorem Device.setFft_same {bb : Bool} {d : Device} {e : Device} (x1 : Nat) (x2 : List Sys2Proof.Machine.FftEntry) (h : SameB bb d e) :
    SameB bb d (Device.setFft e x1 x2) := by
  unfold Device.setFft
  repeat' with_reducible (first | assumption | (extract_lets +onlyGivenNames zz; first | clear_value zz | skip) | dsimp only | apply Same.upd)

theorem Device.fftInsert_same {bb : Bool} {d : Device} {e : Device} (x1 : Nat) (x2 : Nat) (x3 : Nat) (x4 : Nat) (x5 : Nat) (x6 : Nat) (h : SameB bb d e) :
    SameB bb d (Device.fftInsert e x1 x2 x3 x4 x5 x6) := by
  unfold Device.fftInsert
  repeat' with_reducible (first | assumption | (extract_lets +onlyGivenNames zz; first | (refine (fun (hz : SameB bb d zz) => ?_) ?_; clear_value zz; rotate_left; subst zz) | clear_value zz | skip) | apply Device.count_same | apply Device.setFft_same | split | dsimp only | apply Same.upd)

theorem fftStep_same {bb : Bool} {d : Device} {e : StageRun} (x0 : Sys2Proof.Machine.StageCtx) (x1 : Nat) (x2 : Nat) (x3 : Sys2Proof.Bytes) (h : SameB bb d e.d) :
    SameB bb d (fftStep x0 x1 x2 x3 e).d := by
  unfold fftStep
  repeat' with_reducible (first | assumption | (extract_lets +onlyGivenNames zz; first | (refine (fun (hz : SameB bb d zz) => ?_) ?_; clear_value zz; rotate_left; subst zz) | clear_value zz | skip) | apply Device.fftInsert_same | apply Device.count_same | apply Device.setFft_same | split | dsimp only | apply Same.upd)

theorem Device.fragStep_same {bb : Bool} {d : Device} {e : StageRun} (x0 : Sys2Proof.Machine.Flight) (x1 : Sys2Proof.Machine.StageCtx) (x2 : Sys2Proof.Bytes) (h : SameB bb d e.d) :
    SameB bb d (Device.fragStep x0 x1 x2 e).1.d := by
  unfold Device.fragStep
  repeat' with_reducible (first | assumption | (extract_lets +onlyGivenNames zz; first | (refine (fun (hz : SameB bb d zz) => ?_) ?_; clear_value zz; rotate_left; subst zz) | clear_value zz | skip) | apply fftStep_same | apply Device.spend_same | apply Device.mustWait_same | apply Device.count_same | apply Device.noWait_same | split | (apply Same.snd2 (by assumption)) | (apply Same.snd (by assumption)) | (apply Same.fst (by assumption)) | (apply Same.fstR (by assumption)) | dsimp only | apply Same.upd)

theorem Device.stageOne_same {bb : Bool} {d : Device} {e : Device} (x1 : Sys2Proof.Machine.Flight) (x2 : Sys2Proof.Machine.Frame) (h : SameB bb d e) :
    SameB bb d (Device.stageOne e x1 x2) := by
  unfold Device.stageOne
  try dsimp only
  repeat' with_reducible (first | assumption | apply extStep_same | apply runStage_same | apply Device.keepStages_same | apply Device.fragStep_same | split | (apply Same.snd2 (by assumption)) | (apply Same.snd (by assumption)) | (apply Same.fst (by assumption)) | (apply Same.fstR (by assumption)) | dsimp only | apply Same.upd)

theorem Device.makeStages_same {bb : Bool} {d : Device} {e : Device} (x0 : Nat) (x1 : Nat) (h : SameB bb d e) :
    SameB bb d (Device.makeStages x0 x1 e) := by
  induction x1 generalizing e x0 with
  | zero =>
    unfold Device.makeStages
    repeat' with_reducible (first | assumption | apply Device.stageOne_same | split | dsimp only | apply Same.upd)
  | succ n ih =>
    unfold Device.makeStages
    repeat' with_reducible (first | assumption | apply ih | apply Device.stageOne_same | split | dsimp only | apply Same.upd)

theorem Device.catchUp_same {bb : Bool} {d : Device} {e : Device} (x1 : Nat) (h : SameB bb d e) :
    SameB bb d (Device.catchUp e x1) := by
  unfold Device.catchUp
  repeat' with_reducible (first | assumption | apply Device.makeStages_same | dsimp only | apply Same.upd)

theorem Device.atStage_same {bb : Bool} {d : Device} {e : Device} (x1 : Nat) (h : SameB bb d e) :
    SameB bb d (Device.atStage e x1) := by
  unfold Device.atStage
  repeat' with_reducible (first | assumption | (extract_lets +onlyGivenNames zz; first | (refine (fun (hz : SameB bb d zz) => ?_) ?_; clear_value zz; rotate_left; subst zz) | skip) | apply Device.atCyc_same | apply Device.catchUp_same | dsimp only | apply Same.upd)

theorem Device.autoMembers_same {bb : Bool} {d : Device} {e : Device} (x1 : Nat) (x2 : Bool) (h : SameB bb d e) :
    SameB bb d (Device.autoMembers e x1 x2) := by
  unfold Device.autoMembers
  repeat' with_reducible (first | assumption | (extract_lets +onlyGivenNames zz; first | clear_value zz | skip) | split | (apply Same.foldl; intro _ _ _) | dsimp only | apply Same.upd)

theorem Device.avsWrite_same {bb : Bool} {d : Device} {e : Device} (x1 : Bool) (h : SameB bb d e) :
    SameB bb d (Device.avsWrite e x1) := by
  unfold Device.avsWrite
  repeat' with_reducible (first | assumption | (extract_lets +onlyGivenNames zz; first | clear_value zz | skip) | apply Device.send_same | split | dsimp only | apply Same.upd)

theorem Device.avsBoundary_same {bb : Bool} {d : Device} {e : Device} (h : SameB bb d e) :
    SameB bb d (Device.avsBoundary e) := by
  unfold Device.avsBoundary
  repeat' with_reducible (first | assumption | (extract_lets +onlyGivenNames zz; first | clear_value zz | skip) | apply Device.avsWrite_same | split | dsimp only | apply Same.upd)

theorem Device.avsFail_same {bb : Bool} {d : Device} {e : Device} (h : SameB bb d e) :
    SameB bb d (Device.avsFail e) := by
  unfold Device.avsFail
  repeat' with_reducible (first | assumption | (extract_lets +onlyGivenNames zz; first | clear_value zz | skip) | apply Device.raise_same | apply Device.markSet_same | dsimp only | apply Same.upd)

theorem Device.avsLate_same {bb : Bool} {d : Device} {e : Device} (h : SameB bb d e) :
    SameB bb d (Device.avsLate e) := by
  unfold Device.avsLate
  repeat' with_reducible (first | assumption | (extract_lets +onlyGivenNames zz; first | clear_value zz | skip) | apply Device.avsFail_same | split | dsimp only | apply Same.upd)

theorem Device.badAccess_same {bb : Bool} {d : Device} {e : Device} (x1 : Sys2Proof.Source) (x2 : Nat) (h : SameB bb d e) :
    SameB bb d (Device.badAccess e x1 x2) := by
  unfold Device.badAccess
  repeat' with_reducible (first | assumption | apply Device.err_same | split | dsimp only | apply Same.upd)

theorem Device.bankFlip_same {bb : Bool} {d : Device} {e : Device} (h : SameB bb d e) :
    SameB bb d (Device.bankFlip e) := by
  unfold Device.bankFlip
  repeat' with_reducible (first | assumption | (extract_lets +onlyGivenNames zz; first | clear_value zz | skip) | apply Device.setReg_same | split | dsimp only | apply Same.upd)

theorem Device.bankStart_same {bb : Bool} {d : Device} {e : Device} (x1 : Nat) (h : SameB bb d e) :
    SameB bb d (Device.bankStart e x1) := by
  unfold Device.bankStart
  repeat' with_reducible (first | assumption | (extract_lets +onlyGivenNames zz; first | clear_value zz | skip) | dsimp only | apply Same.upd)

theorem Device.billetErr_same {bb : Bool} {d : Device} {e : Device} (x1 : Nat) (x2 : Nat) (x3 : Nat) (h : SameB bb d e) :
    SameB bb d (Device.billetErr e x1 x2 x3) := by
  unfold Device.billetErr
  repeat' with_reducible (first | assumption | (extract_lets +onlyGivenNames zz; first | (refine (fun (hz : SameB bb d zz) => ?_) ?_; clear_value zz; rotate_left; subst zz) | skip) | apply Device.setReg_same | apply Device.raise_same | apply Device.count_same | split | dsimp only | apply Same.upd)

theorem Device.bootFails_same {bb : Bool} {d : Device} {e : Device} (x1 : Nat) (h : SameB bb d e) :
    SameB bb d (Device.bootFails e x1) := by
  unfold Device.bootFails
  repeat' with_reducible (first | assumption | (extract_lets +onlyGivenNames zz; first | (have hq : BootUnit := zz; clear hq; subst zz) | clear_value zz | skip) | dsimp only | apply Same.upd | apply Same.updBoot | exact rfl)

theorem Device.bootCheck_same {bb : Bool} {d : Device} {e : Device} (x1 : Nat) (x2 : Option Nat) (x3 : Sys2Proof.Bytes) (h : SameB bb d e) :
    SameB bb d (Device.bootCheck e x1 x2 x3) := by
  unfold Device.bootCheck
  repeat' with_reducible (first | assumption | (extract_lets +onlyGivenNames zz; first | (refine (fun (hz : SameB bb d zz) => ?_) ?_; clear_value zz; rotate_left; subst zz) | (have hq : BootUnit := zz; clear hq; subst zz) | clear_value zz | skip) | apply Device.bootFails_same | apply Device.modRole_same | split | (apply Same.foldl; intro _ _ _) | dsimp only | apply Same.upd | apply Same.updBoot | exact rfl)

theorem Device.bootLowerHall_same {bb : Bool} {d : Device} {e : Device} (h : SameB bb d e) :
    SameB bb d (Device.bootLowerHall e) := by
  unfold Device.bootLowerHall
  repeat' with_reducible (first | assumption | (extract_lets +onlyGivenNames zz; first | clear_value zz | skip) | dsimp only | apply Same.upd)

theorem Device.bootMemories_same {bb : Bool} {d : Device} {e : Device} (h : SameB bb d e) :
    SameB bb d (Device.bootMemories e) := by
  unfold Device.bootMemories
  repeat' with_reducible (first | assumption | (extract_lets +onlyGivenNames zz; first | clear_value zz | skip) | dsimp only | apply Same.upd)

theorem Device.forceBits_same {bb : Bool} {d : Device} {e : Device} (x1 : Nat) (x2 : Nat) (x3 : Sys2Proof.Word) (h : SameB bb d e) :
    SameB bb d (Device.forceBits e x1 x2 x3) := by
  unfold Device.forceBits
  repeat' with_reducible (first | assumption | apply Device.raise_same | (apply Same.foldl; intro _ _ _) | dsimp only | apply Same.upd)

theorem Device.headerWrite_same {bb : Bool} {d : Device} {e : Device} (x1 : Sys2Proof.Source) (x2 : Sys2Proof.Machine.Page) (x3 : Nat) (x4 : Nat) (x5 : Nat) (x6 : Sys2Proof.Word) (h : SameB bb d e) :
    SameB bb d (Device.headerWrite e x1 x2 x3 x4 x5 x6) := by
  unfold Device.headerWrite
  repeat' with_reducible (first | assumption | apply Device.err_same | apply Device.setReg_same | apply Device.askIfPending_same | apply Device.forceBits_same | split | dsimp only | apply Same.upd)

theorem Device.recordAt_same {bb : Bool} {d : Device} {e : Device} (x1 : Sys2Proof.Source) (x2 : Sys2Proof.Machine.RegHit) (x3 : Nat) (x4 : Sys2Proof.Machine.ErrKind) (h : SameB bb d e) :
    SameB bb d (Device.recordAt e x1 x2 x3 x4) := by
  unfold Device.recordAt
  repeat' with_reducible (first | assumption | apply Device.err_same | split | dsimp only | apply Same.upd)

theorem Device.pcSync_same {bb : Bool} {d : Device} {e : Device} (x1 : Option Nat) (x2 : Nat) (x3 : Nat) (h : SameB bb d e) :
    SameB bb d (Device.pcSync e x1 x2 x3) := by
  unfold Device.pcSync
  repeat' with_reducible (first | assumption | (extract_lets +onlyGivenNames zz; first | (refine (fun (hz : SameB bb d zz) => ?_) ?_; clear_value zz; rotate_left; subst zz) | clear_value zz | skip) | apply Device.pcAdd_same | split | dsimp only | apply Same.upd)

theorem Device.syncPage_same {bb : Bool} {d : Device} {e : Device} (x1 : Sys2Proof.Machine.RegHit) (h : SameB bb d e) :
    SameB bb d (Device.syncPage e x1) := by
  unfold Device.syncPage
  repeat' with_reducible (first | assumption | apply Device.pcSync_same | split | (apply Same.foldl; intro _ _ _) | dsimp only | apply Same.upd)

theorem Device.holdWord_same {bb : Bool} {d : Device} {e : Device} (x1 : Sys2Proof.Source) (x2 : Sys2Proof.Machine.RegHit) (x3 : Nat) (x4 : Sys2Proof.Word) (h : SameB bb d e) :
    SameB bb d (Device.holdWord e x1 x2 x3 x4) := by
  unfold Device.holdWord
  repeat' with_reducible (first | assumption | (extract_lets +onlyGivenNames zz; first | clear_value zz | skip) | split | dsimp only | apply Same.upd)

theorem Device.wordWritten_same {bb : Bool} {d : Device} {e : Device} (x1 : Nat) (x2 : Nat) (h : SameB bb d e) :
    SameB bb d (Device.wordWritten e x1 x2) := by
  unfold Device.wordWritten
  repeat' with_reducible (first | assumption | (extract_lets +onlyGivenNames zz; first | clear_value zz | skip) | dsimp only | apply Same.upd)

theorem Device.setCfg_same {bb : Bool} {d : Device} {e : Device} (x1 : Nat) (x2 : Sys2Proof.Word) (h : SameB bb d e) :
    SameB bb d (Device.setCfg e x1 x2) := by
  unfold Device.setCfg
  repeat' with_reducible (first | assumption | (extract_lets +onlyGivenNames zz; first | clear_value zz | skip) | split | dsimp only | apply Same.upd)

theorem Device.zeroWord_same {bb : Bool} {d : Device} {e : Device} (x1 : Nat) (x2 : Nat) (h : SameB bb d e) :
    SameB bb d (Device.zeroWord e x1 x2) := by
  unfold Device.zeroWord
  repeat' with_reducible (first | assumption | (extract_lets +onlyGivenNames zz; first | clear_value zz | skip) | apply Device.setCfg_same | split | dsimp only | apply Same.upd)

theorem Device.settleWord_same {bb : Bool} {d : Device} {e : Device} (x1 : Sys2Proof.Machine.RegHit) (x2 : Nat) (h : SameB bb d e) :
    SameB bb d (Device.settleWord e x1 x2) := by
  unfold Device.settleWord
  repeat' with_reducible (first | assumption | (extract_lets +onlyGivenNames zz; first | (refine (fun (hz : SameB bb d zz) => ?_) ?_; clear_value zz; rotate_left; subst zz) | clear_value zz | skip) | apply Device.wordWritten_same | apply Device.zeroWord_same | split | dsimp only | apply Same.upd)

theorem Device.takeHeld_same {bb : Bool} {d : Device} {e : Device} (x1 : Sys2Proof.Source) (x2 : Nat) (h : SameB bb d e) :
    SameB bb d (Device.takeHeld e x1 x2).2 := by
  unfold Device.takeHeld
  repeat' with_reducible (first | assumption | (extract_lets +onlyGivenNames zz; first | clear_value zz | skip) | split | (apply Same.snd2 (by assumption)) | (apply Same.snd (by assumption)) | (apply Same.fst (by assumption)) | dsimp only | apply Same.upd)

theorem Device.integKeep_same {bb : Bool} {d : Device} {e : Device} (x1 : Nat) (h : SameB bb d e) :
    SameB bb d (Device.integKeep e x1) := by
  unfold Device.integKeep
  repeat' with_reducible (first | assumption | (extract_lets +onlyGivenNames zz; first | clear_value zz | skip) | split | dsimp only | apply Same.upd)

theorem Device.setRegHeld_same {bb : Bool} {d : Device} {e : Device} (x1 : Nat) (x2 : Sys2Proof.Word) (h : SameB bb d e) :
    SameB bb d (Device.setRegHeld e x1 x2) := by
  unfold Device.setRegHeld
  repeat' with_reducible (first | assumption | (extract_lets +onlyGivenNames zz; first | clear_value zz | skip) | split | dsimp only | apply Same.upd)

theorem Device.store_same {bb : Bool} {d : Device} {e : Device} (x1 : Sys2Proof.Machine.RegHit) (x2 : Nat) (x3 : Nat) (h : SameB bb d e) :
    SameB bb d (Device.store e x1 x2 x3) := by
  unfold Device.store
  repeat' with_reducible (first | assumption | (extract_lets +onlyGivenNames zz; first | (refine (fun (hz : SameB bb d zz) => ?_) ?_; clear_value zz; rotate_left; subst zz) | clear_value zz | skip) | apply Device.integKeep_same | apply Device.setRegHeld_same | apply Device.setReg_same | split | dsimp only | apply Same.upd)

theorem Device.setSa_same {bb : Bool} {d : Device} {e : Device} (x1 : Nat) (x2 : Nat) (x3 : Sys2Proof.Machine.SaSt) (h : SameB bb d e) :
    SameB bb d (Device.setSa e x1 x2 x3) := by
  unfold Device.setSa
  repeat' with_reducible (first | assumption | (extract_lets +onlyGivenNames zz; first | clear_value zz | skip) | dsimp only | apply Same.upd)

theorem saPnCommit_same {bb : Bool} {d : Device} {e : Device} (x1 : Sys2Proof.Source) (x2 : Nat) (x3 : Nat) (x4 : Nat) (x5 : Nat) (h : SameB bb d e) :
    SameB bb d (saPnCommit e x1 x2 x3 x4 x5) := by
  unfold saPnCommit
  repeat' with_reducible (first | assumption | (extract_lets +onlyGivenNames zz; first | (refine (fun (hz : SameB bb d zz) => ?_) ?_; clear_value zz; rotate_left; subst zz) | clear_value zz | skip) | apply Device.refuse_same | apply Device.setSa_same | split | dsimp only | apply Same.upd)

theorem Device.clockRate_same {bb : Bool} {d : Device} {e : Device} (x1 : Int) (h : SameB bb d e) :
    SameB bb d (Device.clockRate e x1) := by
  unfold Device.clockRate
  repeat' with_reducible (first | assumption | (extract_lets +onlyGivenNames zz; first | (refine (fun (hz : SameB bb d zz) => ?_) ?_; clear_value zz; rotate_left; subst zz) | clear_value zz | skip) | dsimp only | apply Same.upd)

theorem Device.rateCommit_same {bb : Bool} {d : Device} {e : Device} (x1 : Nat) (x2 : Nat) (h : SameB bb d e) :
    SameB bb d (Device.rateCommit e x1 x2) := by
  unfold Device.rateCommit
  repeat' with_reducible (first | assumption | apply Device.clockRate_same | split | dsimp only | apply Same.upd)

theorem Device.srvState_same {bb : Bool} {d : Device} {e : Device} (x1 : Sys2Proof.Machine.ServoState) (h : SameB bb d e) :
    SameB bb d (Device.srvState e x1) := by
  unfold Device.srvState
  repeat' with_reducible (first | assumption | (extract_lets +onlyGivenNames zz; first | (refine (fun (hz : SameB bb d zz) => ?_) ?_; clear_value zz; rotate_left; subst zz) | clear_value zz | skip) | apply Device.raise_same | split | dsimp only | apply Same.upd)

theorem Device.roundDiv_same {bb : Bool} {d : Device} {e : Device} (x1 : Int) (x2 : Nat) (h : SameB bb d e) :
    SameB bb d (Device.roundDiv e x1 x2).2 := by
  unfold Device.roundDiv
  repeat' with_reducible (first | assumption | (extract_lets +onlyGivenNames zz; first | (refine (fun (hz : SameB bb d zz.2) => ?_) ?_; clear_value zz; rotate_left; subst zz) | (refine (fun (hz : SameB bb d zz.1) => ?_) ?_; clear_value zz; rotate_left; subst zz) | (refine (fun (hz : SameB bb d zz.1.d) => ?_) ?_; clear_value zz; rotate_left; subst zz) | clear_value zz | skip) | apply Device.free_same | split | (apply Same.snd2 (by assumption)) | (apply Same.snd (by assumption)) | (apply Same.fst (by assumption)) | dsimp only | apply Same.upd)

theorem Device.rateFrom_same {bb : Bool} {d : Device} {e : Device} (x1 : Int) (h : SameB bb d e) :
    SameB bb d (Device.rateFrom e x1).2 := by
  unfold Device.rateFrom
  repeat' with_reducible (first | assumption | apply Device.free_same | split | (apply Same.snd2 (by assumption)) | (apply Same.snd (by assumption)) | (apply Same.fst (by assumption)) | dsimp only | apply Same.upd)

theorem Device.toRate_same {bb : Bool} {d : Device} {e : Device} (x1 : Rat) (h : SameB bb d e) :
    SameB bb d (Device.toRate e x1).2 := by
  unfold Device.toRate
  repeat' with_reducible (first | assumption | apply Device.roundDiv_same | apply Device.rateFrom_same | split | (apply Same.snd2 (by assumption)) | (apply Same.snd (by assumption)) | (apply Same.fst (by assumption)) | dsimp only | apply Same.upd)

theorem Device.holdover_same {bb : Bool} {d : Device} {e : Device} (h : SameB bb d e) :
    SameB bb d (Device.holdover e) := by
  unfold Device.holdover
  repeat' with_reducible (first | assumption | (extract_lets +onlyGivenNames zz; first | (refine (fun (hz : SameB bb d zz) => ?_) ?_; clear_value zz; rotate_left; subst zz) | clear_value zz | skip) | apply Device.toRate_same | apply Device.clockRate_same | apply Device.srvState_same | split | (apply Same.snd2 (by assumption)) | (apply Same.snd (by assumption)) | (apply Same.fst (by assumption)) | dsimp only | apply Same.upd)

theorem Device.servoWritten_same {bb : Bool} {d : Device} {e : Device} (x1 : Bool) (h : SameB bb d e) :
    SameB bb d (Device.servoWritten e x1) := by
  unfold Device.servoWritten
  repeat' with_reducible (first | assumption | (extract_lets +onlyGivenNames zz; first | clear_value zz | skip) | apply Device.srvState_same | apply Device.holdover_same | split | dsimp only | apply Same.upd)

theorem Device.commitPair_same {bb : Bool} {d : Device} {e : Device} (x1 : Sys2Proof.Source) (x2 : Sys2Proof.Machine.RegHit) (x3 : Nat) (x4 : Sys2Proof.Word) (h : SameB bb d e) :
    SameB bb d (Device.commitPair e x1 x2 x3 x4) := by
  unfold Device.commitPair
  repeat' with_reducible (first | assumption | (extract_lets +onlyGivenNames zz; first | (refine (fun (hf : ∀ x, SameB bb d x → SameB bb d (zz x)) => ?_) ?_; clear_value zz; rotate_left; subst zz) | clear_value zz | skip) | apply Device.takeHeld_same | apply Device.store_same | apply saPnCommit_same | apply Device.rateCommit_same | apply Device.servoWritten_same | apply hf | split | intro _ | (apply Same.snd2 (by assumption)) | (apply Same.snd (by assumption)) | (apply Same.fst (by assumption)) | dsimp only | apply Same.upd)

theorem Device.setTrig_same {bb : Bool} {d : Device} {e : Device} (x1 : Nat) (x2 : Sys2Proof.Machine.Trigger) (h : SameB bb d e) :
    SameB bb d (Device.setTrig e x1 x2) := by
  unfold Device.setTrig
  repeat' with_reducible (first | assumption | (extract_lets +onlyGivenNames zz; first | clear_value zz | skip) | dsimp only | apply Same.upd)

theorem Device.commitStart_same {bb : Bool} {d : Device} {e : Device} (x1 : Sys2Proof.Source) (x2 : Sys2Proof.Machine.RegHit) (x3 : Nat) (x4 : Sys2Proof.Word) (h : SameB bb d e) :
    SameB bb d (Device.commitStart e x1 x2 x3 x4) := by
  unfold Device.commitStart
  repeat' with_reducible (first | assumption | (extract_lets +onlyGivenNames zz; first | (refine (fun (hz : SameB bb d zz) => ?_) ?_; clear_value zz; rotate_left; subst zz) | clear_value zz | skip) | apply Device.takeHeld_same | apply Device.setReg_same | apply Device.setTrig_same | split | (apply Same.snd2 (by assumption)) | (apply Same.snd (by assumption)) | (apply Same.fst (by assumption)) | dsimp only | apply Same.upd)

theorem devGoWrite_same {bb : Bool} {d : Device} {e : Device} (x1 : Sys2Proof.Source) (x2 : Sys2Proof.Word) (h : SameB bb d e) :
    SameB bb d (devGoWrite e x1 x2) := by
  unfold devGoWrite
  repeat' with_reducible (first | assumption | (extract_lets +onlyGivenNames zz; first | (have hq : DevCtl := zz; clear hq; subst zz) | clear_value zz | skip) | apply Device.refuse_same | split | dsimp only | apply Same.upd | apply Same.updDev | exact rfl)

theorem fenceReqWrite_same {bb : Bool} {d : Device} {e : Device} (x1 : Sys2Proof.Word) (h : SameB bb d e) :
    SameB bb d (fenceReqWrite e x1) := by
  unfold fenceReqWrite
  repeat' with_reducible (first | assumption | (extract_lets +onlyGivenNames zz; first | (have hq : DevCtl := zz; clear hq; subst zz) | clear_value zz | skip) | dsimp only | apply Same.upd | apply Same.updDev | exact rfl)

theorem Device.flipRefused_same {bb : Bool} {d : Device} {e : Device} (x1 : Nat) (h : SameB bb d e) :
    SameB bb d (Device.flipRefused e x1) := by
  unfold Device.flipRefused
  repeat' with_reducible (first | assumption | (extract_lets +onlyGivenNames zz; first | (have hq : GenUnit := zz; clear hq; subst zz) | clear_value zz | skip) | dsimp only | apply Same.upd | apply Same.updGen | exact rfl)

theorem Device.showBusy_same {bb : Bool} {d : Device} {e : Device} (x1 : Option (Nat × Nat)) (h : SameB bb d e) :
    SameB bb d (Device.showBusy e x1) := by
  unfold Device.showBusy
  repeat' with_reducible (first | assumption | (extract_lets +onlyGivenNames zz; first | (have hq : ProfileUnit := zz; clear hq; subst zz) | clear_value zz | skip) | dsimp only | apply Same.upd | apply Same.updProf | exact rfl)

theorem Device.flipAsk_same {bb : Bool} {d : Device} {e : Device} (h : SameB bb d e) :
    SameB bb d (Device.flipAsk e) := by
  unfold Device.flipAsk
  repeat' with_reducible (first | assumption | (extract_lets +onlyGivenNames zz; first | (have hq : GenUnit := zz; clear hq; subst zz) | clear_value zz | skip) | apply Device.flipRefused_same | apply Device.showBusy_same | split | dsimp only | apply Same.upd | apply Same.updGen | exact rfl)

theorem genCtrlWrite_same {bb : Bool} {d : Device} {e : Device} (x1 : Sys2Proof.Source) (x2 : Sys2Proof.Word) (h : SameB bb d e) :
    SameB bb d (genCtrlWrite e x1 x2) := by
  unfold genCtrlWrite
  repeat' with_reducible (first | assumption | (extract_lets +onlyGivenNames zz; first | (refine (fun (hz : SameB bb d zz) => ?_) ?_; clear_value zz; rotate_left; subst zz) | clear_value zz | skip) | apply Device.refuse_same | apply Device.setReg_same | apply Device.flipAsk_same | split | dsimp only | apply Same.upd)

theorem snapCtrlWrite_same {bb : Bool} {d : Device} {e : Device} (x1 : Sys2Proof.Word) (h : SameB bb d e) :
    SameB bb d (snapCtrlWrite e x1) := by
  unfold snapCtrlWrite
  repeat' with_reducible (first | assumption | (extract_lets +onlyGivenNames zz; first | clear_value zz | skip) | split | dsimp only | apply Same.upd)

theorem snapPeriodWrite_same {bb : Bool} {d : Device} {e : Device} (x1 : Sys2Proof.Word) (h : SameB bb d e) :
    SameB bb d (snapPeriodWrite e x1) := by
  unfold snapPeriodWrite
  repeat' with_reducible (first | assumption | (extract_lets +onlyGivenNames zz; first | (refine (fun (hz : SameB bb d zz) => ?_) ?_; clear_value zz; rotate_left; subst zz) | clear_value zz | skip) | apply Device.setRegHeld_same | dsimp only | apply Same.upd)

theorem profileStage_same {bb : Bool} {d : Device} {e : Device} (x1 : Sys2Proof.Source) (x2 : Sys2Proof.Word) (h : SameB bb d e) :
    SameB bb d (profileStage e x1 x2) := by
  unfold profileStage
  repeat' with_reducible (first | assumption | (extract_lets +onlyGivenNames zz; first | (have hq : ProfileUnit := zz; clear hq; subst zz) | clear_value zz | skip) | apply Device.refuse_same | split | dsimp only | apply Same.upd | apply Same.updProf | exact rfl)

theorem parseBankWrite_same {bb : Bool} {d : Device} {e : Device} (x1 : Sys2Proof.Word) (h : SameB bb d e) :
    SameB bb d (parseBankWrite e x1) := by
  unfold parseBankWrite
  repeat' with_reducible (first | assumption | apply Device.setFld_same | split | dsimp only | apply Same.upd)

theorem resetCtrlWrite_same {d : Device} {e : Device} (x1 : Sys2Proof.Word) (h : SameB false d e) :
    SameB false d (resetCtrlWrite e x1) := by
  exact ⟨h.1, h.2, h.3, h.4, h.5, fun k => by simp [resetCtrlWrite, h.6 k], fun k => by simp [resetCtrlWrite, h.7 k],
    fun q => (by simp at q), fun q => (by simp at q)⟩

theorem bootDlWrite_same {bb : Bool} {d : Device} {e : Device} (x1 : Sys2Proof.Source) (x2 : Sys2Proof.Word) (h : SameB bb d e) :
    SameB bb d (bootDlWrite e x1 x2) := by
  unfold bootDlWrite
  repeat' with_reducible (first | assumption | (extract_lets +onlyGivenNames zz; first | (have hq : BootUnit := zz; clear hq; subst zz) | clear_value zz | skip) | apply Device.refuse_same | apply Device.free_same | split | (apply Same.snd2 (by assumption)) | (apply Same.snd (by assumption)) | (apply Same.fst (by assumption)) | dsimp only | apply Same.upd | apply Same.updBoot | exact rfl)

theorem Device.untrack_same {bb : Bool} {d : Device} {e : Device} (x1 : Sys2Proof.Machine.FaultPlace) (h : SameB bb d e) :
    SameB bb d (Device.untrack e x1) := by
  unfold Device.untrack
  repeat' with_reducible (first | assumption | (extract_lets +onlyGivenNames zz; first | clear_value zz | skip) | split | dsimp only | apply Same.upd)

theorem Device.uncharge_same {bb : Bool} {d : Device} {e : Device} (x1 : Nat) (h : SameB bb d e) :
    SameB bb d (Device.uncharge e x1) := by
  unfold Device.uncharge
  repeat' with_reducible (first | assumption | (extract_lets +onlyGivenNames zz; first | (refine (fun (hz : SameB bb d zz) => ?_) ?_; clear_value zz; rotate_left; subst zz) | clear_value zz | skip) | apply Device.untrack_same | apply Device.laneTo_same | apply Device.modLane_same | split | dsimp only | apply Same.upd)

theorem Device.setCause_same {bb : Bool} {d : Device} {e : Device} (x1 : Nat) (x2 : Nat) (h : SameB bb d e) :
    SameB bb d (Device.setCause e x1 x2) := by
  unfold Device.setCause
  repeat' with_reducible (first | assumption | apply Device.modLane_same | dsimp only | apply Same.upd)

theorem Device.settlePrbs_same {bb : Bool} {d : Device} {e : Device} (x1 : Nat) (h : SameB bb d e) :
    SameB bb d (Device.settlePrbs e x1) := by
  unfold Device.settlePrbs
  repeat' with_reducible (first | assumption | apply Device.modLane_same | split | dsimp only | apply Same.upd)

theorem Device.settleLane_same {bb : Bool} {d : Device} {e : Device} (x1 : Nat) (h : SameB bb d e) :
    SameB bb d (Device.settleLane e x1) := by
  unfold Device.settleLane
  repeat' with_reducible (first | assumption | apply Device.laneTo_same | split | dsimp only | apply Same.upd)

theorem Device.wakePort_same {bb : Bool} {d : Device} {e : Device} (x1 : Nat) (h : SameB bb d e) :
    SameB bb d (Device.wakePort e x1) := by
  unfold Device.wakePort
  repeat' with_reducible (first | assumption | apply Device.restart_same | apply Device.laneTo_same | split | (apply Same.foldl; intro _ _ _) | dsimp only | apply Same.upd)

theorem Device.leavePort_same {bb : Bool} {d : Device} {e : Device} (x1 : Nat) (h : SameB bb d e) :
    SameB bb d (Device.leavePort e x1) := by
  unfold Device.leavePort
  repeat' with_reducible (first | assumption | apply Device.settlePort_same | apply Device.restart_same | split | dsimp only | apply Same.upd)

theorem Device.moveLane_same {bb : Bool} {d : Device} {e : Device} (x1 : Nat) (h : SameB bb d e) :
    SameB bb d (Device.moveLane e x1) := by
  unfold Device.moveLane
  repeat' with_reducible (first | assumption | (extract_lets +onlyGivenNames zz; first | (refine (fun (hz : SameB bb d zz) => ?_) ?_; clear_value zz; rotate_left; subst zz) | clear_value zz | skip) | apply Device.settleLane_same | apply Device.setFld_same | apply Device.settlePort_same | apply Device.wakePort_same | apply Device.tryStart_same | apply Device.leavePort_same | split | dsimp only | apply Same.upd)

theorem lnCtrlWrite_same {bb : Bool} {d : Device} {e : Device} (x1 : Sys2Proof.Source) (x2 : Nat) (x3 : Sys2Proof.Word) (h : SameB bb d e) :
    SameB bb d (lnCtrlWrite e x1 x2 x3) := by
  unfold lnCtrlWrite
  repeat' with_reducible (first | assumption | (extract_lets +onlyGivenNames zz; first | (refine (fun (hz : SameB bb d zz) => ?_) ?_; clear_value zz; rotate_left; subst zz) | clear_value zz | skip) | apply Device.setReg_same | apply Device.uncharge_same | apply Device.setCause_same | apply Device.refuse_same | apply Device.modLane_same | apply Device.settlePrbs_same | apply Device.moveLane_same | split | dsimp only | apply Same.upd)

theorem lnTxeqWrite_same {bb : Bool} {d : Device} {e : Device} (x1 : Nat) (x2 : Sys2Proof.Word) (h : SameB bb d e) :
    SameB bb d (lnTxeqWrite e x1 x2) := by
  unfold lnTxeqWrite
  repeat' with_reducible (first | assumption | (extract_lets +onlyGivenNames zz; first | (refine (fun (hz : SameB bb d zz) => ?_) ?_; clear_value zz; rotate_left; subst zz) | skip) | apply Device.setReg_same | apply Device.markSet_same | apply Device.modLane_same | split | dsimp only | apply Same.upd)

theorem lnRxeqWrite_same {bb : Bool} {d : Device} {e : Device} (x1 : Nat) (x2 : Sys2Proof.Word) (h : SameB bb d e) :
    SameB bb d (lnRxeqWrite e x1 x2) := by
  unfold lnRxeqWrite
  repeat' with_reducible (first | assumption | apply Device.modLane_same | apply Device.setReg_same | dsimp only | apply Same.upd)

theorem Device.goDormant_same {bb : Bool} {d : Device} {e : Device} (x1 : Nat) (h : SameB bb d e) :
    SameB bb d (Device.goDormant e x1) := by
  unfold Device.goDormant
  repeat' with_reducible (first | assumption | (extract_lets +onlyGivenNames zz; first | (refine (fun (hz : SameB bb d zz) => ?_) ?_; clear_value zz; rotate_left; subst zz) | clear_value zz | skip) | apply Device.setCause_same | apply Device.laneTo_same | apply Device.settlePort_same | apply Device.modBring_same | split | (apply Same.foldl; intro _ _ _) | dsimp only | apply Same.upd)

theorem lnBringupWrite_same {bb : Bool} {d : Device} {e : Device} (x1 : Sys2Proof.Source) (x2 : Nat) (x3 : Sys2Proof.Word) (h : SameB bb d e) :
    SameB bb d (lnBringupWrite e x1 x2 x3) := by
  unfold lnBringupWrite
  repeat' with_reducible (first | assumption | (extract_lets +onlyGivenNames zz; first | (refine (fun (hz : SameB bb d zz) => ?_) ?_; clear_value zz; rotate_left; subst zz) | clear_value zz | skip) | apply Device.refuse_same | apply Device.setReg_same | apply Device.goDormant_same | apply Device.wakePort_same | split | dsimp only | apply Same.upd)

theorem lnPrbsWrite_same {bb : Bool} {d : Device} {e : Device} (x1 : Sys2Proof.Source) (x2 : Nat) (x3 : Sys2Proof.Word) (h : SameB bb d e) :
    SameB bb d (lnPrbsWrite e x1 x2 x3) := by
  unfold lnPrbsWrite
  repeat' with_reducible (first | assumption | (extract_lets +onlyGivenNames zz; first | (refine (fun (hz : SameB bb d zz) => ?_) ?_; clear_value zz; rotate_left; subst zz) | clear_value zz | skip) | apply Device.refuse_same | apply Device.settlePrbs_same | apply Device.setReg_same | split | dsimp only | apply Same.upd)

theorem Device.inject_same {bb : Bool} {d : Device} {e : Device} (x1 : Nat) (h : SameB bb d e) :
    SameB bb d (Device.inject e x1) := by
  unfold Device.inject
  repeat' with_reducible (first | assumption | (extract_lets +onlyGivenNames zz; first | clear_value zz | skip) | apply Device.send_same | dsimp only | apply Same.upd)

theorem lnInjWrite_same {bb : Bool} {d : Device} {e : Device} (x1 : Sys2Proof.Source) (x2 : Nat) (x3 : Sys2Proof.Word) (h : SameB bb d e) :
    SameB bb d (lnInjWrite e x1 x2 x3) := by
  unfold lnInjWrite
  repeat' with_reducible (first | assumption | (extract_lets +onlyGivenNames zz; first | (refine (fun (hz : SameB bb d zz) => ?_) ?_; clear_value zz; rotate_left; subst zz) | clear_value zz | skip) | apply Device.setReg_same | apply Device.modLane_same | apply Device.refuse_same | apply Device.inject_same | split | dsimp only | apply Same.upd)

theorem lnBitslipWrite_same {bb : Bool} {d : Device} {e : Device} (x1 : Sys2Proof.Source) (x2 : Nat) (x3 : Sys2Proof.Word) (h : SameB bb d e) :
    SameB bb d (lnBitslipWrite e x1 x2 x3) := by
  unfold lnBitslipWrite
  repeat' with_reducible (first | assumption | apply Device.refuse_same | apply Device.modLane_same | split | dsimp only | apply Same.upd)

theorem Device.restartLink_same {bb : Bool} {d : Device} {e : Device} (x1 : Nat) (h : SameB bb d e) :
    SameB bb d (Device.restartLink e x1) := by
  unfold Device.restartLink
  repeat' with_reducible (first | assumption | apply Device.settlePort_same | apply Device.wakePort_same | (apply Same.foldl; intro _ _ _) | dsimp only | apply Same.upd)

theorem lkCtrlWrite_same {bb : Bool} {d : Device} {e : Device} (x1 : Nat) (x2 : Sys2Proof.Word) (h : SameB bb d e) :
    SameB bb d (lkCtrlWrite e x1 x2) := by
  unfold lkCtrlWrite
  repeat' with_reducible (first | assumption | (extract_lets +onlyGivenNames zz; first | (refine (fun (hz : SameB bb d zz) => ?_) ?_; clear_value zz; rotate_left; subst zz) | clear_value zz | skip) | apply Device.setReg_same | apply Device.setLink_same | apply Device.restartLink_same | apply Device.tryStart_same | split | (apply Same.foldl; intro _ _ _) | dsimp only | apply Same.upd)

theorem lkSlipWrite_same {bb : Bool} {d : Device} {e : Device} (x1 : Sys2Proof.Source) (x2 : Nat) (x3 : Sys2Proof.Word) (h : SameB bb d e) :
    SameB bb d (lkSlipWrite e x1 x2 x3) := by
  unfold lkSlipWrite
  repeat' with_reducible (first | assumption | (extract_lets +onlyGivenNames zz; first | (refine (fun (hz : SameB bb d zz) => ?_) ?_; clear_value zz; rotate_left; subst zz) | clear_value zz | skip) | apply Device.setReg_same | apply Device.refuse_same | apply Device.setLink_same | split | dsimp only | apply Same.upd)

theorem Device.portDisable_same {bb : Bool} {d : Device} {e : Device} (x1 : Nat) (h : SameB bb d e) :
    SameB bb d (Device.portDisable e x1) := by
  unfold Device.portDisable
  repeat' with_reducible (first | assumption | (extract_lets +onlyGivenNames zz; first | (refine (fun (hz : SameB bb d zz) => ?_) ?_; clear_value zz; rotate_left; subst zz) | clear_value zz | skip) | apply Device.setReg_same | apply Device.setCause_same | apply Device.laneTo_same | apply Device.settlePort_same | apply Device.modBring_same | split | (apply Same.foldl; intro _ _ _) | dsimp only | apply Same.upd)

theorem ptCfgWrite_same {bb : Bool} {d : Device} {e : Device} (x1 : Sys2Proof.Source) (x2 : Nat) (x3 : Sys2Proof.Word) (h : SameB bb d e) :
    SameB bb d (ptCfgWrite e x1 x2 x3) := by
  unfold ptCfgWrite
  repeat' with_reducible (first | assumption | (extract_lets +onlyGivenNames zz; first | (refine (fun (hz : SameB bb d zz) => ?_) ?_; clear_value zz; rotate_left; subst zz) | clear_value zz | skip) | apply Device.setReg_same | apply Device.modPort_same | apply Device.restart_same | apply Device.modBring_same | apply Device.goDormant_same | apply Device.refuse_same | apply Device.portDisable_same | split | dsimp only | apply Same.upd)

theorem Device.headroomAgain_same {bb : Bool} {d : Device} {e : Device} (x1 : Sys2Proof.Machine.RegHit) (h : SameB bb d e) :
    SameB bb d (Device.headroomAgain e x1) := by
  unfold Device.headroomAgain
  repeat' with_reducible (first | assumption | apply Device.modPort_same | dsimp only | apply Same.upd)

theorem Device.writeFields_same {bb : Bool} {d : Device} {e : Device} (x1 : Sys2Proof.Source) (x2 : Sys2Proof.Machine.RegHit) (x3 : Nat) (x4 : Sys2Proof.Word) (h : SameB bb d e) :
    SameB bb d (Device.writeFields e x1 x2 x3 x4) := by
  unfold Device.writeFields
  repeat' with_reducible (first | assumption | (extract_lets +onlyGivenNames zz; first | (refine (fun (hz : SameB bb d zz) => ?_) ?_; clear_value zz; rotate_left; subst zz) | skip) | apply Device.recordAt_same | apply Device.store_same | split | dsimp only | apply Same.upd)

theorem Device.writePfc_same {bb : Bool} {d : Device} {e : Device} (x1 : Sys2Proof.Source) (x2 : Sys2Proof.Machine.RegHit) (x3 : Nat) (x4 : Sys2Proof.Word) (h : SameB bb d e) :
    SameB bb d (Device.writePfc e x1 x2 x3 x4) := by
  unfold Device.writePfc
  repeat' with_reducible (first | assumption | (extract_lets +onlyGivenNames zz; first | (refine (fun (hz : SameB bb d zz) => ?_) ?_; clear_value zz; rotate_left; subst zz) | clear_value zz | skip) | apply Device.recordAt_same | apply Device.writeFields_same | split | dsimp only | apply Same.upd)

theorem actCommand_same {bb : Bool} {d : Device} {e : Device} (x1 : Sys2Proof.Source) (x2 : Nat) (x3 : Sys2Proof.Word) (h : SameB bb d e) :
    SameB bb d (actCommand e x1 x2 x3) := by
  unfold actCommand
  repeat' with_reducible (first | assumption | (extract_lets +onlyGivenNames zz; first | (refine (fun (hz : SameB bb d zz) => ?_) ?_; clear_value zz; rotate_left; subst zz) | clear_value zz | skip) | apply Device.refuse_same | apply Device.wordWritten_same | apply Device.setReg_same | split | (apply Same.foldl; intro _ _ _) | dsimp only | apply Same.upd)

theorem Device.fftFlushAsk_same {bb : Bool} {d : Device} {e : Device} (h : SameB bb d e) :
    SameB bb d (Device.fftFlushAsk e) := by
  unfold Device.fftFlushAsk
  repeat' with_reducible (first | assumption | (extract_lets +onlyGivenNames zz; first | clear_value zz | skip) | dsimp only | apply Same.upd)

theorem Device.writeMinimum_same {bb : Bool} {d : Device} {e : Device} (x1 : Sys2Proof.Source) (x2 : Sys2Proof.Machine.RegHit) (x3 : Nat) (x4 : Sys2Proof.Machine.Fld) (x5 : Sys2Proof.Word) (h : SameB bb d e) :
    SameB bb d (Device.writeMinimum e x1 x2 x3 x4 x5) := by
  unfold Device.writeMinimum
  repeat' with_reducible (first | assumption | (extract_lets +onlyGivenNames zz; first | (refine (fun (hz : SameB bb d zz) => ?_) ?_; clear_value zz; rotate_left; subst zz) | clear_value zz | skip) | apply Device.recordAt_same | apply Device.writeFields_same | split | dsimp only | apply Same.upd)

theorem repCommand_same {bb : Bool} {d : Device} {e : Device} (x1 : Sys2Proof.Source) (x2 : Sys2Proof.Word) (h : SameB bb d e) :
    SameB bb d (repCommand e x1 x2) := by
  unfold repCommand
  repeat' with_reducible (first | assumption | (extract_lets +onlyGivenNames zz; first | (refine (fun (hz : SameB bb d zz) => ?_) ?_; clear_value zz; rotate_left; subst zz) | clear_value zz | skip) | apply Device.refuse_same | apply Device.setReg_same | split | dsimp only | apply Same.upd)

theorem Device.shaperWritten_same {bb : Bool} {d : Device} {e : Device} (x1 : Nat) (h : SameB bb d e) :
    SameB bb d (Device.shaperWritten e x1) := by
  unfold Device.shaperWritten
  repeat' with_reducible (first | assumption | (extract_lets +onlyGivenNames zz; first | clear_value zz | skip) | split | dsimp only | apply Same.upd)

theorem Device.meterWritten_same {bb : Bool} {d : Device} {e : Device} (x1 : Sys2Proof.Machine.RegHit) (h : SameB bb d e) :
    SameB bb d (Device.meterWritten e x1) := by
  unfold Device.meterWritten
  repeat' with_reducible (first | assumption | (extract_lets +onlyGivenNames zz; first | clear_value zz | skip) | dsimp only | apply Same.upd)

theorem Device.setGate_same {bb : Bool} {d : Device} {e : Device} (x1 : Nat) (x2 : Sys2Proof.Machine.GateSt) (h : SameB bb d e) :
    SameB bb d (Device.setGate e x1 x2) := by
  unfold Device.setGate
  repeat' with_reducible (first | assumption | (extract_lets +onlyGivenNames zz; first | clear_value zz | skip) | dsimp only | apply Same.upd)

theorem gateCommit_same {bb : Bool} {d : Device} {e : Device} (x1 : Nat) (h : SameB bb d e) :
    SameB bb d (gateCommit e x1) := by
  unfold gateCommit
  repeat' with_reducible (first | assumption | (extract_lets +onlyGivenNames zz; first | clear_value zz | skip) | apply Device.markSet_same | apply Device.setGate_same | split | dsimp only | apply Same.upd)

theorem Device.writeGateCtrl_same {bb : Bool} {d : Device} {e : Device} (x1 : Sys2Proof.Source) (x2 : Sys2Proof.Machine.RegHit) (x3 : Nat) (x4 : Sys2Proof.Word) (h : SameB bb d e) :
    SameB bb d (Device.writeGateCtrl e x1 x2 x3 x4) := by
  unfold Device.writeGateCtrl
  repeat' with_reducible (first | assumption | (extract_lets +onlyGivenNames zz; first | (refine (fun (hz : SameB bb d zz) => ?_) ?_; clear_value zz; rotate_left; subst zz) | clear_value zz | skip) | apply Device.recordAt_same | apply Device.setReg_same | apply gateCommit_same | split | dsimp only | apply Same.upd)

theorem Device.clearKeyData_same {bb : Bool} {d : Device} {e : Device} (h : SameB bb d e) :
    SameB bb d (Device.clearKeyData e) := by
  unfold Device.clearKeyData
  repeat' with_reducible (first | assumption | (extract_lets +onlyGivenNames zz; first | (refine (fun (hz : SameB bb d zz) => ?_) ?_; clear_value zz; rotate_left; subst zz) | skip) | apply Device.setReg_same | (apply Same.foldl; intro _ _ _) | dsimp only | apply Same.upd)

theorem keyCmdWrite_same {bb : Bool} {d : Device} {e : Device} (x1 : Sys2Proof.Source) (x2 : Sys2Proof.Word) (h : SameB bb d e) :
    SameB bb d (keyCmdWrite e x1 x2) := by
  unfold keyCmdWrite
  repeat' with_reducible (first | assumption | (extract_lets +onlyGivenNames zz; first | (refine (fun (hz : SameB bb d zz) => ?_) ?_; clear_value zz; rotate_left; subst zz) | clear_value zz | skip) | apply Device.refuse_same | apply Device.setFld_same | apply Device.err_same | apply Device.clearKeyData_same | split | dsimp only | apply Same.upd)

theorem stepCtrlWrite_same {bb : Bool} {d : Device} {e : Device} (x1 : Sys2Proof.Source) (x2 : Sys2Proof.Word) (h : SameB bb d e) :
    SameB bb d (stepCtrlWrite e x1 x2) := by
  unfold stepCtrlWrite
  repeat' with_reducible (first | assumption | (extract_lets +onlyGivenNames zz; first | (refine (fun (hz : SameB bb d zz) => ?_) ?_; clear_value zz; rotate_left; subst zz) | (refine (fun (hf : ∀ x a, SameB bb d x → SameB bb d (zz x a)) => ?_) ?_; clear_value zz; rotate_left; subst zz) | clear_value zz | skip) | apply Device.refuse_same | apply hf | split | intro _ | dsimp only | apply Same.upd)

theorem clkCfgWrite_same {bb : Bool} {d : Device} {e : Device} (x1 : Sys2Proof.Word) (h : SameB bb d e) :
    SameB bb d (clkCfgWrite e x1) := by
  unfold clkCfgWrite
  repeat' with_reducible (first | assumption | (extract_lets +onlyGivenNames zz; first | (refine (fun (hz : SameB bb d zz) => ?_) ?_; clear_value zz; rotate_left; subst zz) | clear_value zz | skip) | apply Device.setReg_same | apply Device.raise_same | split | dsimp only | apply Same.upd)

theorem servoCtrlWrite_same {bb : Bool} {d : Device} {e : Device} (x1 : Sys2Proof.Word) (h : SameB bb d e) :
    SameB bb d (servoCtrlWrite e x1) := by
  unfold servoCtrlWrite
  repeat' with_reducible (first | assumption | (extract_lets +onlyGivenNames zz; first | clear_value zz | skip) | apply Device.servoWritten_same | apply Device.setReg_same | dsimp only | apply Same.upd)

theorem trCtrlWrite_same {bb : Bool} {d : Device} {e : Device} (x1 : Sys2Proof.Source) (x2 : Nat) (x3 : Sys2Proof.Word) (h : SameB bb d e) :
    SameB bb d (trCtrlWrite e x1 x2 x3) := by
  unfold trCtrlWrite
  repeat' with_reducible (first | assumption | (extract_lets +onlyGivenNames zz; first | (refine (fun (hz : SameB bb d zz) => ?_) ?_; clear_value zz; rotate_left; subst zz) | clear_value zz | skip) | apply Device.setTrig_same | apply Device.setReg_same | apply Device.refuse_same | apply Device.raise_same | split | dsimp only | apply Same.upd)

theorem ledgerCtrlWrite_same {bb : Bool} {d : Device} {e : Device} (x1 : Sys2Proof.Source) (x2 : Sys2Proof.Word) (h : SameB bb d e) :
    SameB bb d (ledgerCtrlWrite e x1 x2) := by
  unfold ledgerCtrlWrite
  repeat' with_reducible (first | assumption | (extract_lets +onlyGivenNames zz; first | (refine (fun (hz : SameB bb d zz) => ?_) ?_; clear_value zz; rotate_left; subst zz) | clear_value zz | skip) | apply Device.setReg_same | apply Device.refuse_same | apply Device.free_same | split | (apply Same.snd2 (by assumption)) | (apply Same.snd (by assumption)) | (apply Same.fst (by assumption)) | dsimp only | apply Same.upd)

theorem Device.flowFlushAsk_same {bb : Bool} {d : Device} {e : Device} (h : SameB bb d e) :
    SameB bb d (Device.flowFlushAsk e) := by
  unfold Device.flowFlushAsk
  repeat' with_reducible (first | assumption | (extract_lets +onlyGivenNames zz; first | clear_value zz | skip) | dsimp only | apply Same.upd)

theorem Device.writeGroup_same {bb : Bool} {d : Device} {e : Device} (x1 : Sys2Proof.Source) (x2 : Sys2Proof.Machine.RegHit) (x3 : Nat) (x4 : Sys2Proof.Word) (h : SameB bb d e) :
    SameB bb d (Device.writeGroup e x1 x2 x3 x4) := by
  unfold Device.writeGroup
  repeat' with_reducible (first | assumption | (extract_lets +onlyGivenNames zz; first | (refine (fun (hz : SameB bb d zz) => ?_) ?_; clear_value zz; rotate_left; subst zz) | clear_value zz | skip) | apply Device.recordAt_same | apply Device.setGroup_same | apply Device.setReg_same | split | dsimp only | apply Same.upd)

theorem rlCmdWrite_same {bb : Bool} {d : Device} {e : Device} (x1 : Sys2Proof.Source) (x2 : Nat) (x3 : Sys2Proof.Word) (h : SameB bb d e) :
    SameB bb d (rlCmdWrite e x1 x2 x3) := by
  unfold rlCmdWrite
  repeat' with_reducible (first | assumption | (extract_lets +onlyGivenNames zz; first | (refine (fun (hz : SameB bb d zz) => ?_) ?_; clear_value zz; rotate_left; subst zz) | clear_value zz | skip) | apply Device.setReg_same | apply Device.modRole_same | apply Device.refuse_same | split | dsimp only | apply Same.upd)

theorem sqCtrlWrite_same {bb : Bool} {d : Device} {e : Device} (x1 : Sys2Proof.Source) (x2 : Nat) (x3 : Sys2Proof.Word) (h : SameB bb d e) :
    SameB bb d (sqCtrlWrite e x1 x2 x3) := by
  unfold sqCtrlWrite
  repeat' with_reducible (first | assumption | (extract_lets +onlyGivenNames zz; first | (refine (fun (hz : SameB bb d zz) => ?_) ?_; clear_value zz; rotate_left; subst zz) | skip) | apply Device.refuse_same | apply Device.modSeq_same | split | dsimp only | apply Same.upd)

theorem Device.seqLook_same {bb : Bool} {d : Device} {e : Device} (x1 : Nat) (h : SameB bb d e) :
    SameB bb d (Device.seqLook e x1) := by
  unfold Device.seqLook
  repeat' with_reducible (first | assumption | (extract_lets +onlyGivenNames zz; first | clear_value zz | skip) | apply Device.modSeq_same | split | dsimp only | apply Same.upd)

theorem mboxWrite_same {bb : Bool} {d : Device} {e : Device} (x1 : Nat) (x2 : Sys2Proof.Word) (h : SameB bb d e) :
    SameB bb d (mboxWrite e x1 x2) := by
  unfold mboxWrite
  repeat' with_reducible (first | assumption | apply Device.seqLook_same | apply Device.modSeq_same | apply Device.setReg_same | dsimp only | apply Same.upd)

theorem sqFlagsWrite_same {bb : Bool} {d : Device} {e : Device} (x1 : Nat) (x2 : Sys2Proof.Word) (h : SameB bb d e) :
    SameB bb d (sqFlagsWrite e x1 x2) := by
  unfold sqFlagsWrite
  repeat' with_reducible (first | assumption | apply Device.seqLook_same | apply Device.setReg_same | dsimp only | apply Same.upd)

theorem ringFnWrite_same {bb : Bool} {d : Device} {e : Device} (x1 : Sys2Proof.Source) (x2 : Nat) (x3 : Sys2Proof.Word) (h : SameB bb d e) :
    SameB bb d (ringFnWrite e x1 x2 x3) := by
  unfold ringFnWrite
  repeat' with_reducible (first | assumption | (extract_lets +onlyGivenNames zz; first | clear_value zz | skip) | apply Device.refuse_same | apply Device.setReg_same | split | dsimp only | apply Same.upd)

theorem Device.refuseRing_same {bb : Bool} {d : Device} {e : Device} (x1 : Sys2Proof.Source) (x2 : Nat) (h : SameB bb d e) :
    SameB bb d (Device.refuseRing e x1 x2) := by
  unfold Device.refuseRing
  repeat' with_reducible (first | assumption | apply Device.err_same | dsimp only | apply Same.upd)

theorem Device.setRing_same {bb : Bool} {d : Device} {e : Device} (x1 : Nat) (x2 : Sys2Proof.Machine.RingSt) (h : SameB bb d e) :
    SameB bb d (Device.setRing e x1 x2) := by
  unfold Device.setRing
  repeat' with_reducible (first | assumption | (extract_lets +onlyGivenNames zz; first | clear_value zz | skip) | dsimp only | apply Same.upd)

theorem Device.modRing_same {bb : Bool} {d : Device} {e : Device} (x1 : Nat) (x2 : Sys2Proof.Machine.RingSt → Sys2Proof.Machine.RingSt) (h : SameB bb d e) :
    SameB bb d (Device.modRing e x1 x2) := by
  unfold Device.modRing
  repeat' with_reducible (first | assumption | apply Device.setRing_same | dsimp only | apply Same.upd)

theorem Device.ringStart_same {bb : Bool} {d : Device} {e : Device} (x1 : Sys2Proof.Source) (x2 : Nat) (x3 : Sys2Proof.Word) (h : SameB bb d e) :
    SameB bb d (Device.ringStart e x1 x2 x3) := by
  unfold Device.ringStart
  repeat' with_reducible (first | assumption | (extract_lets +onlyGivenNames zz; first | (refine (fun (hz : SameB bb d zz) => ?_) ?_; clear_value zz; rotate_left; subst zz) | clear_value zz | skip) | apply Device.refuseRing_same | apply Device.modRing_same | apply Device.setReg_same | apply Device.setRing_same | split | dsimp only | apply Same.upd)

theorem Device.ringOff_same {bb : Bool} {d : Device} {e : Device} (x1 : Nat) (h : SameB bb d e) :
    SameB bb d (Device.ringOff e x1) := by
  unfold Device.ringOff
  repeat' with_reducible (first | assumption | apply Device.setReg_same | dsimp only | apply Same.upd)

theorem Device.ringNoWait_same {bb : Bool} {d : Device} {e : Device} (x1 : Nat) (h : SameB bb d e) :
    SameB bb d (Device.ringNoWait e x1) := by
  unfold Device.ringNoWait
  repeat' with_reducible (first | assumption | (extract_lets +onlyGivenNames zz; first | clear_value zz | skip) | apply Device.noWait_same | dsimp only | apply Same.upd)

theorem Device.ringIdle_same {bb : Bool} {d : Device} {e : Device} (x1 : Nat) (h : SameB bb d e) :
    SameB bb d (Device.ringIdle e x1) := by
  unfold Device.ringIdle
  repeat' with_reducible (first | assumption | (extract_lets +onlyGivenNames zz; first | (refine (fun (hz : SameB bb d zz) => ?_) ?_; clear_value zz; rotate_left; subst zz) | clear_value zz | skip) | apply Device.ringOff_same | apply Device.ringNoWait_same | apply Device.setRing_same | split | dsimp only | apply Same.upd)

theorem Device.ringStop_same {bb : Bool} {d : Device} {e : Device} (x1 : Nat) (h : SameB bb d e) :
    SameB bb d (Device.ringStop e x1) := by
  unfold Device.ringStop
  repeat' with_reducible (first | assumption | (extract_lets +onlyGivenNames zz; first | clear_value zz | skip) | apply Device.ringIdle_same | apply Device.setRing_same | apply Device.ringNoWait_same | split | dsimp only | apply Same.upd)

theorem ringCtrlWrite_same {bb : Bool} {d : Device} {e : Device} (x1 : Sys2Proof.Source) (x2 : Nat) (x3 : Sys2Proof.Word) (h : SameB bb d e) :
    SameB bb d (ringCtrlWrite e x1 x2 x3) := by
  unfold ringCtrlWrite
  repeat' with_reducible (first | assumption | (extract_lets +onlyGivenNames zz; first | (refine (fun (hz : SameB bb d zz) => ?_) ?_; clear_value zz; rotate_left; subst zz) | clear_value zz | skip) | apply Device.ringStart_same | apply Device.setReg_same | apply Device.refuseRing_same | apply Device.ringStop_same | apply Device.modRing_same | split | dsimp only | apply Same.upd)

theorem Device.writePcCtrl_same {bb : Bool} {d : Device} {e : Device} (x1 : Sys2Proof.Source) (x2 : Sys2Proof.Machine.RegHit) (x3 : Nat) (x4 : Sys2Proof.Word) (h : SameB bb d e) :
    SameB bb d (Device.writePcCtrl e x1 x2 x3 x4) := by
  unfold Device.writePcCtrl
  repeat' with_reducible (first | assumption | (extract_lets +onlyGivenNames zz; first | (refine (fun (hz : SameB bb d zz) => ?_) ?_; clear_value zz; rotate_left; subst zz) | clear_value zz | skip) | apply Device.writeFields_same | split | dsimp only | apply Same.upd)

theorem rrClear_same {bb : Bool} {d : Device} {e : Device} (x1 : Sys2Proof.Source) (h : SameB bb d e) :
    SameB bb d (rrClear e x1) := by
  unfold rrClear
  repeat' with_reducible (first | assumption | (extract_lets +onlyGivenNames zz; first | clear_value zz | skip) | apply Device.refuse_same | split | dsimp only | apply Same.upd)

theorem Device.clearLive_same {bb : Bool} {d : Device} {e : Device} (x1 : Sys2Proof.Machine.RegHit) (x2 : Sys2Proof.Word) (h : SameB bb d e) :
    SameO bb d (Device.clearLive e x1 x2) := by
  unfold Device.clearLive
  repeat' with_reducible (first | assumption | (extract_lets +onlyGivenNames zz; first | (refine (fun (hf : ∀ x y, SameB bb d (zz x y)) => ?_) ?_; clear_value zz; rotate_left; subst zz) | (have hq : GenUnit := zz; clear hq; subst zz) | clear_value zz | skip) | apply Device.modLane_same | apply Device.setGate_same | apply Device.setSa_same | apply Device.setGroup_same | apply hf | split | exact SameO.ofNone | apply SameO.ofSome | intro _ | (apply SameO.get (by assumption)) | dsimp only | apply Same.upd | apply Same.updGen | exact rfl)

theorem Device.hookWrite_same {d : Device} {e : Device} (x1 : Sys2Proof.Source) (x2 : Sys2Proof.Machine.RegHit) (x3 : Nat) (x4 : Sys2Proof.Word) (h : SameB false d e) :
    SameO false d (Device.hookWrite e x1 x2 x3 x4) := by
  unfold Device.hookWrite
  repeat' with_reducible (first | assumption | (extract_lets +onlyGivenNames zz; first | (refine (fun (hz : SameB false d zz) => ?_) ?_; clear_value zz; rotate_left; subst zz) | clear_value zz | skip) | apply devGoWrite_same | apply fenceReqWrite_same | apply genCtrlWrite_same | apply snapCtrlWrite_same | apply snapPeriodWrite_same | apply profileStage_same | apply parseBankWrite_same | apply resetCtrlWrite_same | apply bootDlWrite_same | apply lnCtrlWrite_same | apply lnTxeqWrite_same | apply lnRxeqWrite_same | apply lnBringupWrite_same | apply lnPrbsWrite_same | apply lnInjWrite_same | apply lnBitslipWrite_same | apply lkCtrlWrite_same | apply lkSlipWrite_same | apply ptCfgWrite_same | apply Device.headroomAgain_same | apply Device.writePfc_same | apply Device.writeFields_same | apply actCommand_same | apply Device.fftFlushAsk_same | apply Device.writeMinimum_same | apply repCommand_same | apply Device.shaperWritten_same | apply Device.meterWritten_same | apply Device.writeGateCtrl_same | apply keyCmdWrite_same | apply stepCtrlWrite_same | apply clkCfgWrite_same | apply servoCtrlWrite_same | apply Device.servoWritten_same | apply trCtrlWrite_same | apply Device.setTrig_same | apply ledgerCtrlWrite_same | apply Device.flowFlushAsk_same | apply Device.writeGroup_same | apply Device.setGroup_same | apply rlCmdWrite_same | apply sqCtrlWrite_same | apply mboxWrite_same | apply sqFlagsWrite_same | apply ringFnWrite_same | apply ringCtrlWrite_same | apply Device.writePcCtrl_same | apply rrClear_same | apply Device.clearLive_same | split | exact SameO.ofNone | apply SameO.ofSome | (apply SameO.get (by assumption)) | dsimp only | apply Same.upd)

theorem Device.writeBlock_same {d : Device} {e : Device} (x1 : Sys2Proof.Source) (x2 : Sys2Proof.Machine.RegHit) (x3 : Nat) (x4 : Sys2Proof.Word) (h : SameB false d e) :
    SameB false d (Device.writeBlock e x1 x2 x3 x4) := by
  unfold Device.writeBlock
  repeat' with_reducible (first | assumption | (extract_lets +onlyGivenNames zz; first | (refine (fun (hz : SameB false d zz) => ?_) ?_; clear_value zz; rotate_left; subst zz) | clear_value zz | skip) | apply Device.recordAt_same | apply Device.syncPage_same | apply Device.holdWord_same | apply Device.settleWord_same | apply Device.commitPair_same | apply Device.commitStart_same | apply Device.hookWrite_same | apply Device.writeFields_same | split | (apply SameO.get (by assumption)) | dsimp only | apply Same.upd)

theorem Device.writeReg_same {d : Device} {e : Device} (x1 : Sys2Proof.Source) (x2 : Nat) (x3 : Nat) (x4 : Sys2Proof.Word) (h : SameB false d e) :
    SameB false d (Device.writeReg e x1 x2 x3 x4) := by
  unfold Device.writeReg
  repeat' with_reducible (first | assumption | apply Device.badAccess_same | apply Device.err_same | apply Device.headerWrite_same | apply Device.writeBlock_same | split | dsimp only | apply Same.upd)

theorem Device.bootRegisters_same {d : Device} {e : Device} (x1 : List (Nat × Nat)) (h : SameB false d e) :
    SameB false d (Device.bootRegisters e x1) := by
  unfold Device.bootRegisters
  repeat' with_reducible (first | assumption | (extract_lets +onlyGivenNames zz; first | (refine (fun (hz : SameB false d zz) => ?_) ?_; clear_value zz; rotate_left; subst zz) | clear_value zz | skip) | apply Device.writeReg_same | (apply Same.foldl; intro _ _ _) | dsimp only | apply Same.upd)

theorem Device.linkResume_same {bb : Bool} {d : Device} {e : Device} (x1 : Nat) (h : SameB bb d e) :
    SameB bb d (Device.linkResume e x1) := by
  unfold Device.linkResume
  repeat' with_reducible (first | assumption | apply Device.tryStart_same | split | (apply Same.foldl; intro _ _ _) | dsimp only | apply Same.upd)

theorem Device.seqStart_same {bb : Bool} {d : Device} {e : Device} (x1 : Nat) (h : SameB bb d e) :
    SameB bb d (Device.seqStart e x1) := by
  unfold Device.seqStart
  repeat' with_reducible (first | assumption | (extract_lets +onlyGivenNames zz; first | clear_value zz | skip) | apply Device.linkResume_same | apply Device.modSeq_same | dsimp only | apply Same.upd)

theorem Device.bootSequencers_same {bb : Bool} {d : Device} {e : Device} (h : SameB bb d e) :
    SameB bb d (Device.bootSequencers e) := by
  unfold Device.bootSequencers
  repeat' with_reducible (first | assumption | (extract_lets +onlyGivenNames zz; first | (refine (fun (hz : SameB bb d zz) => ?_) ?_; clear_value zz; rotate_left; subst zz) | clear_value zz | skip) | apply Device.modRole_same | apply Device.seqStart_same | (apply Same.foldl; intro _ _ _) | dsimp only | apply Same.upd)

theorem Device.upStepWait_same {bb : Bool} {d : Device} {e : Device} (h : SameB bb d e) :
    SameB bb d (Device.upStepWait e) := by
  unfold Device.upStepWait
  repeat' with_reducible (first | assumption | (extract_lets +onlyGivenNames zz; first | (refine (fun (hz : SameB bb d zz) => ?_) ?_; clear_value zz; rotate_left; subst zz) | clear_value zz | skip) | apply Device.avsWrite_same | dsimp only | apply Same.upd)

theorem Device.bootVoltage_same {bb : Bool} {d : Device} {e : Device} (x1 : Bool) (h : SameB bb d e) :
    SameB bb d (Device.bootVoltage e x1) := by
  unfold Device.bootVoltage
  repeat' with_reducible (first | assumption | (extract_lets +onlyGivenNames zz; first | clear_value zz | skip) | apply Device.avsFail_same | apply Device.avsWrite_same | apply Device.upStepWait_same | split | dsimp only | apply Same.upd)

theorem Device.budgetBoundary_same {bb : Bool} {d : Device} {e : Device} (h : SameB bb d e) :
    SameB bb d (Device.budgetBoundary e) := by
  unfold Device.budgetBoundary
  repeat' with_reducible (first | assumption | (extract_lets +onlyGivenNames zz; first | clear_value zz | skip) | dsimp only | apply Same.upd)

theorem Device.bulkAsk_same {bb : Bool} {d : Device} {e : Device} (x1 : Nat) (x2 : Nat) (x3 : Nat) (h : SameB bb d e) :
    SameB bb d (Device.bulkAsk e x1 x2 x3) := by
  unfold Device.bulkAsk
  repeat' with_reducible (first | assumption | (extract_lets +onlyGivenNames zz; first | clear_value zz | skip) | split | dsimp only | apply Same.upd)

theorem Device.countWaits_same {bb : Bool} {d : Device} {e : Device} (x1 : Nat) (h : SameB bb d e) :
    SameB bb d (Device.countWaits e x1) := by
  unfold Device.countWaits
  repeat' with_reducible (first | assumption | (extract_lets +onlyGivenNames zz; first | (refine (fun (hz : SameB bb d zz) => ?_) ?_; clear_value zz; rotate_left; subst zz) | clear_value zz | skip) | apply Device.countN_same | apply Device.setPool_same | split | dsimp only | apply Same.upd)

theorem Device.poolEmptied_same {bb : Bool} {d : Device} {e : Device} (x1 : Nat) (x2 : Nat) (h : SameB bb d e) :
    SameB bb d (Device.poolEmptied e x1 x2) := by
  unfold Device.poolEmptied
  repeat' with_reducible (first | assumption | apply Device.raise_same | split | dsimp only | apply Same.upd)

theorem Device.grantTo_same {bb : Bool} {d : Device} {e : Device} (x1 : Nat) (x2 : Nat) (x3 : Nat) (x4 : List Nat) (h : SameB bb d e) :
    SameB bb d (Device.grantTo e x1 x2 x3 x4) := by
  unfold Device.grantTo
  repeat' with_reducible (first | assumption | (extract_lets +onlyGivenNames zz; first | (refine (fun (hz : SameB bb d zz) => ?_) ?_; clear_value zz; rotate_left; subst zz) | clear_value zz | skip) | apply Device.setPool_same | apply Device.count_same | apply Device.addHeld_same | apply Device.event_same | apply Device.poolEmptied_same | dsimp only | apply Same.upd)

theorem Device.jobGrant_same {bb : Bool} {d : Device} {e : Device} (x1 : Nat) (h : SameB bb d e) :
    SameB bb d (Device.jobGrant e x1) := by
  unfold Device.jobGrant
  repeat' with_reducible (first | assumption | (extract_lets +onlyGivenNames zz; first | (refine (fun (hz : SameB bb d zz) => ?_) ?_; clear_value zz; rotate_left; subst zz) | clear_value zz | skip) | split | dsimp only | apply Same.upd)

theorem Device.grantOne_same {bb : Bool} {d : Device} {e : Device} (x1 : Nat) (h : SameB bb d e) :
    SameB bb d (Device.grantOne e x1) := by
  unfold Device.grantOne
  repeat' with_reducible (first | assumption | (extract_lets +onlyGivenNames zz; first | (refine (fun (hz : SameB bb d zz) => ?_) ?_; clear_value zz; rotate_left; subst zz) | clear_value zz | skip) | apply Device.grantTo_same | apply Device.jobGrant_same | apply Device.setPool_same | split | dsimp only | apply Same.upd)

theorem Device.jobGrants_same {bb : Bool} {d : Device} {e : Device} (x1 : Nat) (x2 : Nat) (h : SameB bb d e) :
    SameB bb d (Device.jobGrants e x1 x2) := by
  induction x2 generalizing e x1 with
  | zero =>
    unfold Device.jobGrants
    repeat' with_reducible (first | assumption | apply Device.grantOne_same | split | dsimp only | apply Same.upd)
  | succ n ih =>
    unfold Device.jobGrants
    repeat' with_reducible (first | assumption | apply ih | apply Device.grantOne_same | split | dsimp only | apply Same.upd)

theorem Device.bulkBoundary_same {bb : Bool} {d : Device} {e : Device} (h : SameB bb d e) :
    SameB bb d (Device.bulkBoundary e) := by
  unfold Device.bulkBoundary
  repeat' with_reducible (first | assumption | (extract_lets +onlyGivenNames zz; first | (refine (fun (hz : SameB bb d zz) => ?_) ?_; clear_value zz; rotate_left; subst zz) | clear_value zz | skip) | apply Device.countWaits_same | apply Device.jobGrants_same | apply Device.setPool_same | split | (apply Same.foldl; intro _ _ _) | dsimp only | apply Same.upd)

theorem Device.busStore_same {bb : Bool} {d : Device} {e : Device} (x1 : Nat) (x2 : Nat) (x3 : Nat) (h : SameB bb d e) :
    SameB bb d (Device.busStore e x1 x2 x3) := by
  unfold Device.busStore
  repeat' with_reducible (first | assumption | (extract_lets +onlyGivenNames zz; first | clear_value zz | skip) | dsimp only | apply Same.upd)

theorem Device.busEffect_same {bb : Bool} {d : Device} {e : Device} (x1 : Nat) (x2 : Sys2Proof.Machine.SeqBus) (h : SameB bb d e) :
    SameB bb d (Device.busEffect e x1 x2) := by
  unfold Device.busEffect
  repeat' with_reducible (first | assumption | (extract_lets +onlyGivenNames zz; first | clear_value zz | skip) | apply Device.modSeq_same | apply Device.free_same | apply Device.setReg_same | apply Device.busStore_same | split | (apply Same.snd2 (by assumption)) | (apply Same.snd (by assumption)) | (apply Same.fst (by assumption)) | dsimp only | apply Same.upd)

theorem Device.busFinish_same {bb : Bool} {d : Device} {e : Device} (x1 : Nat) (h : SameB bb d e) :
    SameB bb d (Device.busFinish e x1) := by
  unfold Device.busFinish
  repeat' with_reducible (first | assumption | apply Device.busEffect_same | apply Device.modSeq_same | split | dsimp only | apply Same.upd)

theorem Device.seqFault_same {bb : Bool} {d : Device} {e : Device} (x1 : Nat) (x2 : Nat) (h : SameB bb d e) :
    SameB bb d (Device.seqFault e x1 x2) := by
  unfold Device.seqFault
  repeat' with_reducible (first | assumption | apply Device.raise_same | apply Device.modSeq_same | dsimp only | apply Same.upd)

theorem Device.seqFlow_same {bb : Bool} {d : Device} {e : Device} (x1 : Nat) (h : SameB bb d e) :
    SameB bb d (Device.seqFlow e x1) := by
  unfold Device.seqFlow
  repeat' with_reducible (first | assumption | (extract_lets +onlyGivenNames zz; first | clear_value zz | skip) | apply Device.modSeq_same | apply Device.seqLook_same | split | dsimp only | apply Same.upd)

theorem Device.busIssue_same {bb : Bool} {d : Device} {e : Device} (x1 : Nat) (x2 : Nat) (x3 : Sys2Proof.Machine.SeqBus) (h : SameB bb d e) :
    SameB bb d (Device.busIssue e x1 x2 x3) := by
  unfold Device.busIssue
  repeat' with_reducible (first | assumption | (extract_lets +onlyGivenNames zz; first | (refine (fun (hz : SameB bb d zz) => ?_) ?_; clear_value zz; rotate_left; subst zz) | skip) | apply Device.seqFault_same | apply Device.modSeq_same | apply Device.seqFlow_same | split | dsimp only | apply Same.upd)

theorem Device.samplePop_same {bb : Bool} {d : Device} {e : Device} (x1 : Nat) (h : SameB bb d e) :
    SameB bb d (Device.samplePop e x1).2 := by
  unfold Device.samplePop
  repeat' with_reducible (first | assumption | (extract_lets +onlyGivenNames zz; first | clear_value zz | skip) | split | (apply Same.snd2 (by assumption)) | (apply Same.snd (by assumption)) | (apply Same.fst (by assumption)) | dsimp only | apply Same.upd)

theorem Device.setLatch_same {bb : Bool} {d : Device} {e : Device} (x1 : Sys2Proof.Source) (x2 : Nat) (x3 : Nat) (h : SameB bb d e) :
    SameB bb d (Device.setLatch e x1 x2 x3) := by
  unfold Device.setLatch
  repeat' with_reducible (first | assumption | (extract_lets +onlyGivenNames zz; first | clear_value zz | skip) | dsimp only | apply Same.upd)

theorem Device.latchRest_same {bb : Bool} {d : Device} {e : Device} (x1 : Sys2Proof.Source) (x2 : Nat) (x3 : List Nat) (h : SameB bb d e) :
    SameB bb d (Device.latchRest e x1 x2 x3) := by
  unfold Device.latchRest
  repeat' with_reducible (first | assumption | apply Device.setLatch_same | (apply Same.foldl; intro _ _ _) | dsimp only | apply Same.upd)

theorem Device.logPop_same {bb : Bool} {d : Device} {e : Device} (h : SameB bb d e) :
    SameB bb d (Device.logPop e).2 := by
  unfold Device.logPop
  repeat' with_reducible (first | assumption | (extract_lets +onlyGivenNames zz; first | clear_value zz | skip) | dsimp only | apply Same.upd)

theorem Device.specialRead_same {bb : Bool} {d : Device} {e : Device} (x1 : Sys2Proof.Source) (x2 : Sys2Proof.Machine.RegHit) (x3 : Nat) (h : SameB bb d e) :
    SameP bb d (·.2) (Device.specialRead e x1 x2 x3) := by
  unfold Device.specialRead
  repeat' with_reducible (first | assumption | (extract_lets +onlyGivenNames zz; first | clear_value zz | skip) | apply Device.samplePop_same | apply Device.latchRest_same | apply Device.logPop_same | apply Device.free_same | split | exact SameP.ofNone | apply SameP.ofSome | (apply Same.snd2 (by assumption)) | (apply Same.snd (by assumption)) | (apply Same.fst (by assumption)) | (apply SameO.get (by assumption)) | (apply SameP.get2 (by assumption)) | (apply SameP.get1 (by assumption)) | dsimp only | apply Same.upd)

theorem Device.evtPop_same {bb : Bool} {d : Device} {e : Device} (x1 : Nat) (h : SameB bb d e) :
    SameB bb d (Device.evtPop e x1).2 := by
  unfold Device.evtPop
  repeat' with_reducible (first | assumption | (extract_lets +onlyGivenNames zz; first | clear_value zz | skip) | split | (apply Same.snd2 (by assumption)) | (apply Same.snd (by assumption)) | (apply Same.fst (by assumption)) | dsimp only | apply Same.upd)

theorem Device.groupRead_same {bb : Bool} {d : Device} {e : Device} (x1 : Sys2Proof.Source) (x2 : Sys2Proof.Machine.RegHit) (x3 : Nat) (h : SameB bb d e) :
    SameB bb d (Device.groupRead e x1 x2 x3).2 := by
  unfold Device.groupRead
  repeat' with_reducible (first | assumption | (extract_lets +onlyGivenNames zz; first | clear_value zz | skip) | apply Device.evtPop_same | apply Device.latchRest_same | split | (apply Same.snd2 (by assumption)) | (apply Same.snd (by assumption)) | (apply Same.fst (by assumption)) | dsimp only | apply Same.upd)

theorem Device.readBlock_same {bb : Bool} {d : Device} {e : Device} (x1 : Sys2Proof.Source) (x2 : Sys2Proof.Machine.RegHit) (x3 : Nat) (h : SameB bb d e) :
    SameB bb d (Device.readBlock e x1 x2 x3).2 := by
  unfold Device.readBlock
  repeat' with_reducible (first | assumption | (extract_lets +onlyGivenNames zz; first | (refine (fun (hz : SameB bb d zz) => ?_) ?_; clear_value zz; rotate_left; subst zz) | clear_value zz | skip) | apply Device.syncPage_same | apply Device.specialRead_same | apply Device.groupRead_same | apply Device.setLatch_same | split | (apply Same.snd2 (by assumption)) | (apply Same.snd (by assumption)) | (apply Same.fst (by assumption)) | (apply SameO.get (by assumption)) | (apply SameP.get2 (by assumption)) | (apply SameP.get1 (by assumption)) | dsimp only | apply Same.upd)

theorem Device.readReg_same {bb : Bool} {d : Device} {e : Device} (x1 : Sys2Proof.Source) (x2 : Nat) (x3 : Nat) (h : SameB bb d e) :
    SameB bb d (Device.readReg e x1 x2 x3).2 := by
  unfold Device.readReg
  repeat' with_reducible (first | assumption | apply Device.badAccess_same | apply Device.err_same | apply Device.readBlock_same | split | (apply Same.snd2 (by assumption)) | (apply Same.snd (by assumption)) | (apply Same.fst (by assumption)) | dsimp only | apply Same.upd)

theorem Device.busRead_same {bb : Bool} {d : Device} {e : Device} (x1 : Sys2Proof.Source) (x2 : Nat) (x3 : Nat) (h : SameB bb d e) :
    SameB bb d (Device.busRead e x1 x2 x3).2 := by
  unfold Device.busRead
  repeat' with_reducible (first | assumption | apply Device.readReg_same | split | exact SameP.ofNone | apply SameP.ofSome | (apply Same.snd2 (by assumption)) | (apply Same.snd (by assumption)) | (apply Same.fst (by assumption)) | (apply SameO.get (by assumption)) | (apply SameP.get2 (by assumption)) | (apply SameP.get1 (by assumption)) | dsimp only | apply Same.upd)

theorem Device.causeTime_same {bb : Bool} {d : Device} {e : Device} (x1 : Nat) (x2 : Nat) (h : SameB bb d e) :
    SameB bb d (Device.causeTime e x1 x2) := by
  unfold Device.causeTime
  repeat' with_reducible (first | assumption | (extract_lets +onlyGivenNames zz; first | (refine (fun (hz : SameB bb d zz) => ?_) ?_; clear_value zz; rotate_left; subst zz) | clear_value zz | skip) | apply Device.countN_same | split | dsimp only | apply Same.upd)

theorem Device.logFault_same {bb : Bool} {d : Device} {e : Device} (x1 : Sys2Proof.Machine.FaultPlace) (x2 : Nat) (x3 : Nat) (x4 : Nat) (h : SameB bb d e) :
    SameB bb d (Device.logFault e x1 x2 x3 x4) := by
  unfold Device.logFault
  repeat' with_reducible (first | assumption | (extract_lets +onlyGivenNames zz; first | clear_value zz | skip) | apply Device.raise_same | split | dsimp only | apply Same.upd)

theorem Device.rowBad_same {bb : Bool} {d : Device} {e : Device} (x1 : Sys2Proof.Machine.FaultPlace) (h : SameB bb d e) :
    SameB bb d (Device.rowBad e x1) := by
  unfold Device.rowBad
  repeat' with_reducible (first | assumption | (extract_lets +onlyGivenNames zz; first | (refine (fun (hz : SameB bb d zz) => ?_) ?_; clear_value zz; rotate_left; subst zz) | clear_value zz | skip) | apply Device.logFault_same | apply Device.count_same | split | dsimp only | apply Same.upd)

theorem Device.freeStair_same {bb : Bool} {d : Device} {e : Device} (x1 : Sys2Proof.Machine.Flight) (x2 : Nat) (h : SameB bb d e) :
    SameB bb d (Device.freeStair e x1 x2) := by
  unfold Device.freeStair
  repeat' with_reducible (first | assumption | (extract_lets +onlyGivenNames zz; first | clear_value zz | skip) | split | dsimp only | apply Same.upd)

theorem Device.flowOfFlight_same {bb : Bool} {d : Device} {e : Device} (x1 : Sys2Proof.Machine.Flight) (h : SameB bb d e) :
    SameB bb d (Device.flowOfFlight e x1) := by
  unfold Device.flowOfFlight
  repeat' with_reducible (first | assumption | (extract_lets +onlyGivenNames zz; first | clear_value zz | skip) | apply Device.modFrame_same | dsimp only | apply Same.upd)

theorem Device.formIngress_same {bb : Bool} {d : Device} {e : Device} (x1 : Sys2Proof.Machine.Flight) (h : SameB bb d e) :
    SameB bb d (Device.formIngress e x1).1 := by
  unfold Device.formIngress
  repeat' with_reducible (first | assumption | (extract_lets +onlyGivenNames zz; first | clear_value zz | skip) | apply Device.setFrame_same | split | (apply Same.snd2 (by assumption)) | (apply Same.snd (by assumption)) | (apply Same.fst (by assumption)) | dsimp only | apply Same.upd)

theorem Device.ingressMirrors_same {bb : Bool} {d : Device} {e : Device} (x1 : Sys2Proof.Machine.Flight) (x2 : Sys2Proof.Machine.Phv) (x3 : Bool) (x4 : Nat) (h : SameB bb d e) :
    SameB bb d (Device.ingressMirrors e x1 x2 x3 x4).1 := by
  unfold Device.ingressMirrors
  have : ∀ (l : List Nat) (b : Device × Bool), SameB bb d b.1 → SameB bb d (l.foldl (fun (r : Device × Bool) m =>
    match r.1.mirrorOf m with
    | none => r
    | some (q, trunc) =>
      let (d, a) := r.1.admitCopy
        { frame := x1.id, queue := q, kind := .mirror, colour := x1.acts.colour, phv := x2, pass := x1.pass, trunc := trunc,
          gal := x1.gal } r.2 (if r.2 then x4 else 0)
      match a with
      | .copy _ => (d, false)
      | .refused _ => (d, r.2)) b).1 := by
    intro l
    induction l with
    | nil => exact fun _ h => h
    | cons m t ih =>
      intro b hb
      refine ih _ ?_
      dsimp only
      split
      · exact hb
      have k := fun q t => Device.admitCopy_same { frame := x1.id, queue := q, kind := .mirror, colour := x1.acts.colour, phv := x2, pass := x1.pass, trunc := t, gal := x1.gal } b.2 (if b.2 then x4 else 0) hb
      split <;> exact k _ _
  exact this _ _ h

theorem Device.mirrorEnded_same {bb : Bool} {d : Device} {e : Device} (x1 : Sys2Proof.Machine.Flight) (h : SameB bb d e) :
    SameB bb d (Device.mirrorEnded e x1) := by
  unfold Device.mirrorEnded
  repeat' with_reducible (first | assumption | apply Device.formIngress_same | apply Device.ingressMirrors_same | split | (apply Same.snd2 (by assumption)) | (apply Same.snd (by assumption)) | (apply Same.fst (by assumption)) | dsimp only | apply Same.upd)

theorem Device.dropFlight_same {bb : Bool} {d : Device} {e : Device} (x1 : Nat) (x2 : Nat) (x3 : Option (Nat × Nat)) (h : SameB bb d e) :
    SameB bb d (Device.dropFlight e x1 x2 x3) := by
  unfold Device.dropFlight
  repeat' with_reducible (first | assumption | (extract_lets +onlyGivenNames zz; first | (refine (fun (hz : SameB bb d zz) => ?_) ?_; clear_value zz; rotate_left; subst zz) | skip) | apply Device.freeStair_same | apply Device.loseOne_same | apply Device.flowOfFlight_same | apply Device.endFlight_same | apply Device.mirrorEnded_same | apply Device.flowFinish_same | apply Device.releaseFrame_same | split | dsimp only | apply Same.upd)

theorem Device.cellLost_same {bb : Bool} {d : Device} {e : Device} (x1 : Nat) (h : SameB bb d e) :
    SameB bb d (Device.cellLost e x1) := by
  unfold Device.cellLost
  repeat' with_reducible (first | assumption | (extract_lets +onlyGivenNames zz; first | (refine (fun (hz : SameB bb d zz) => ?_) ?_; clear_value zz; rotate_left; subst zz) | skip) | apply Device.rowBad_same | apply Device.count_same | apply Device.dropFlight_same | apply Device.dropCopy_same | split | (apply Same.foldl; intro _ _ _) | dsimp only | apply Same.upd)

theorem Device.evict_same {bb : Bool} {d : Device} {e : Device} (x1 : Sys2Proof.Machine.FaultHist) (h : SameB bb d e) :
    SameB bb d (Device.evict e x1) := by
  unfold Device.evict
  repeat' with_reducible (first | assumption | (extract_lets +onlyGivenNames zz; first | (refine (fun (hz : SameB bb d zz) => ?_) ?_; clear_value zz; rotate_left; subst zz) | clear_value zz | skip) | apply Device.count_same | split | dsimp only | apply Same.upd)

theorem Device.track_same {bb : Bool} {d : Device} {e : Device} (x1 : Sys2Proof.Machine.FaultPlace) (h : SameB bb d e) :
    SameB bb d (Device.track e x1) := by
  unfold Device.track
  repeat' with_reducible (first | assumption | (extract_lets +onlyGivenNames zz; first | (refine (fun (hz : SameB bb d zz) => ?_) ?_; clear_value zz; rotate_left; subst zz) | clear_value zz | skip) | apply Device.evict_same | split | (apply Same.foldl; intro _ _ _) | dsimp only | apply Same.upd)

theorem Device.retireRecord_same {bb : Bool} {d : Device} {e : Device} (x1 : Nat) (x2 : Sys2Proof.Machine.FaultPlace) (x3 : Nat) (h : SameB bb d e) :
    SameB bb d (Device.retireRecord e x1 x2 x3) := by
  unfold Device.retireRecord
  repeat' with_reducible (first | assumption | (extract_lets +onlyGivenNames zz; first | (refine (fun (hz : SameB bb d zz) => ?_) ?_; clear_value zz; rotate_left; subst zz) | clear_value zz | skip) | apply Device.raise_same | split | dsimp only | apply Same.upd)

theorem Device.retireLane_same {bb : Bool} {d : Device} {e : Device} (x1 : Nat) (h : SameB bb d e) :
    SameB bb d (Device.retireLane e x1) := by
  unfold Device.retireLane
  repeat' with_reducible (first | assumption | apply Device.holdRetired_same | apply Device.retireRecord_same | apply Device.logFault_same | dsimp only | apply Same.upd)

theorem Device.chargeLane_same {bb : Bool} {d : Device} {e : Device} (x1 : Nat) (h : SameB bb d e) :
    SameB bb d (Device.chargeLane e x1) := by
  unfold Device.chargeLane
  repeat' with_reducible (first | assumption | (extract_lets +onlyGivenNames zz; first | (refine (fun (hz : SameB bb d zz) => ?_) ?_; clear_value zz; rotate_left; subst zz) | clear_value zz | skip) | apply Device.modLane_same | apply Device.track_same | apply Device.retireLane_same | apply Device.logFault_same | split | dsimp only | apply Same.upd)

theorem Device.chargeMac_same {bb : Bool} {d : Device} {e : Device} (x1 : Nat) (h : SameB bb d e) :
    SameB bb d (Device.chargeMac e x1) := by
  unfold Device.chargeMac
  repeat' with_reducible (first | assumption | (extract_lets +onlyGivenNames zz; first | clear_value zz | skip) | apply Device.modCopy_same | apply Device.giveBack_same | split | dsimp only | apply Same.upd)

theorem Device.chargeShapers_same {bb : Bool} {d : Device} {e : Device} (x1 : Nat) (x2 : Nat) (x3 : Int) (h : SameB bb d e) :
    SameB bb d (Device.chargeShapers e x1 x2 x3) := by
  unfold Device.chargeShapers
  repeat' with_reducible (first | assumption | (extract_lets +onlyGivenNames zz; first | (refine (fun (hz : SameB bb d zz) => ?_) ?_; clear_value zz; rotate_left; subst zz) | clear_value zz | skip) | apply Device.setTokens_same | apply Device.modCopy_same | (apply Same.foldl; intro _ _ _) | dsimp only | apply Same.upd)

theorem Device.clearHost_same {bb : Bool} {d : Device} {e : Device} (h : SameB bb d e) :
    SameB bb d (Device.clearHost e) := by
  unfold Device.clearHost
  repeat' with_reducible (first | assumption | (extract_lets +onlyGivenNames zz; first | clear_value zz | skip) | dsimp only | apply Same.upd)

theorem Device.closeStair_same {bb : Bool} {d : Device} {e : Device} (x1 : Sys2Proof.Machine.Flight) (h : SameB bb d e) :
    SameB bb d (Device.closeStair e x1) := by
  unfold Device.closeStair
  repeat' with_reducible (first | assumption | (extract_lets +onlyGivenNames zz; first | clear_value zz | skip) | dsimp only | apply Same.upd)

theorem Device.codewords_same {bb : Bool} {d : Device} {e : Device} (x1 : Nat) (x2 : List (Nat × Nat)) (h : SameB bb d e) :
    SameB bb d (Device.codewords e x1 x2).1 := by
  unfold Device.codewords
  repeat' with_reducible (first | assumption | (extract_lets +onlyGivenNames zz; first | (refine (fun (hz : SameB bb d zz) => ?_) ?_; clear_value zz; rotate_left; subst zz) | clear_value zz | skip) | apply Device.portCount_same | apply Device.modPort_same | apply Device.addUncorr_same | split | (apply Same.foldl; intro _ _ _) | (apply Same.snd2 (by assumption)) | (apply Same.snd (by assumption)) | (apply Same.fst (by assumption)) | dsimp only | apply Same.upd)

theorem Device.countMany_same {bb : Bool} {d : Device} {e : Device} (x1 : Nat) (x2 : Nat) (h : SameB bb d e) :
    SameB bb d (Device.countMany e x1 x2) := by
  unfold Device.countMany
  repeat' with_reducible (first | assumption | apply Device.countN_same | split | dsimp only | apply Same.upd)

theorem Device.flagUnder_same {bb : Bool} {d : Device} {e : Device} (x1 : Nat) (h : SameB bb d e) :
    SameB bb d (Device.flagUnder e x1) := by
  unfold Device.flagUnder
  repeat' with_reducible (first | assumption | (extract_lets +onlyGivenNames zz; first | clear_value zz | skip) | apply Device.setFlight_same | split | dsimp only | apply Same.upd)

theorem Device.trapFlight_same {bb : Bool} {d : Device} {e : Device} (x1 : Sys2Proof.Machine.Flight) (x2 : Nat) (x3 : Nat) (x4 : Option (Nat × Nat)) (h : SameB bb d e) :
    SameB bb d (Device.trapFlight e x1 x2 x3 x4) := by
  unfold Device.trapFlight
  repeat' with_reducible (first | assumption | (extract_lets +onlyGivenNames zz; first | (refine (fun (hz : SameB bb d zz) => ?_) ?_; clear_value zz; rotate_left; subst zz) | clear_value zz | skip) | apply Device.endFlight_same | apply Device.freeStair_same | apply Device.flowOfFlight_same | apply Device.modFrame_same | split | dsimp only | apply Same.upd | apply Same.updStroke | exact rfl)

theorem Device.dropCopies_same {bb : Bool} {d : Device} {e : Device} (x1 : Nat) (x2 : Nat) (x3 : Nat) (x4 : Sys2Proof.Machine.Copy → Bool) (h : SameB bb d e) :
    SameB bb d (Device.dropCopies e x1 x2 x3 x4) := by
  unfold Device.dropCopies
  repeat' with_reducible (first | assumption | apply Device.dropCopy_same | (apply Same.foldl; intro _ _ _) | dsimp only | apply Same.upd)

theorem Device.lateFault_same {bb : Bool} {d : Device} {e : Device} (x1 : Nat) (x2 : Nat) (x3 : Sys2Proof.Machine.Verdict) (h : SameB bb d e) :
    SameB bb d (Device.lateFault e x1 x2 x3) := by
  unfold Device.lateFault
  repeat' with_reducible (first | assumption | (extract_lets +onlyGivenNames zz; first | (refine (fun (hz : SameB bb d zz) => ?_) ?_; clear_value zz; rotate_left; subst zz) | clear_value zz | skip) | apply Device.setFlight_same | apply Device.dropFlight_same | apply Device.trapFlight_same | apply Device.ingressMirrors_same | apply Device.count_same | apply Device.dropCopies_same | split | (apply Same.snd2 (by assumption)) | (apply Same.snd (by assumption)) | (apply Same.fst (by assumption)) | dsimp only | apply Same.upd | apply Same.updStroke | exact rfl)

theorem Device.lateChecks_same {bb : Bool} {d : Device} {e : Device} (x1 : Nat) (x2 : List Sys2Proof.Machine.LenCheck) (h : SameB bb d e) :
    SameB bb d (Device.lateChecks e x1 x2) := by
  unfold Device.lateChecks
  repeat' with_reducible (first | assumption | (extract_lets +onlyGivenNames zz; first | (refine (fun (hz : SameB bb d zz) => ?_) ?_; clear_value zz; rotate_left; subst zz) | clear_value zz | skip) | apply Device.countMany_same | apply Device.flagUnder_same | apply Device.lateFault_same | split | dsimp only | apply Same.upd)

theorem Device.completeChecks_same {bb : Bool} {d : Device} {e : Device} (x1 : Nat) (h : SameB bb d e) :
    SameB bb d (Device.completeChecks e x1) := by
  unfold Device.completeChecks
  repeat' with_reducible (first | assumption | apply Device.lateChecks_same | apply Device.setFrame_same | split | dsimp only | apply Same.upd)

theorem Device.configWrite_same {bb : Bool} {d : Device} {e : Device} (x1 : Nat) (x2 : Nat) (x3 : Nat) (x4 : Sys2Proof.Word) (h : SameB bb d e) :
    SameB bb d (Device.configWrite e x1 x2 x3 x4) := by
  unfold Device.configWrite
  try dsimp only
  repeat' with_reducible (first | assumption | split | dsimp only | apply Same.upd)

theorem Device.inPieces_same {bb : Bool} {d : Device} {e : Device} (x1 : Nat) (x2 : Nat) (x3 : Nat) (x4 : Nat) (h : SameB bb d e) :
    SameB bb d (Device.inPieces e x1 x2 x3 x4).1 := by
  unfold Device.inPieces
  repeat' with_reducible (first | assumption | (extract_lets +onlyGivenNames zz; first | clear_value zz | skip) | apply Device.takePieces_same | split | (apply Same.snd2 (by assumption)) | (apply Same.snd (by assumption)) | (apply Same.fst (by assumption)) | dsimp only | apply Same.upd)

theorem Device.issue_same {bb : Bool} {d : Device} {e : Device} (x1 : Nat) (x2 : Nat) (x3 : Sys2Proof.Machine.Copy) (h : SameB bb d e) :
    SameB bb d (Device.issue e x1 x2 x3).1 := by
  unfold Device.issue
  repeat' with_reducible (first | assumption | apply Device.inPieces_same | apply Device.event_same | split | (apply Same.snd2 (by assumption)) | (apply Same.snd (by assumption)) | (apply Same.fst (by assumption)) | dsimp only | apply Same.upd)

theorem Device.msgBytes_same {bb : Bool} {d : Device} {e : Device} (x1 : Sys2Proof.Bytes) (x2 : Nat) (x3 : Nat) (h : SameB bb d e) :
    SameB bb d (Device.msgBytes e x1 x2 x3).1 := by
  induction x3 generalizing e x1 x2 with
  | zero =>
    unfold Device.msgBytes
    repeat' with_reducible (first | assumption | apply Device.free_same | split | (apply Same.snd2 (by assumption)) | (apply Same.snd (by assumption)) | (apply Same.fst (by assumption)) | dsimp only | apply Same.upd)
  | succ n ih =>
    unfold Device.msgBytes
    repeat' with_reducible (first | assumption | apply ih | apply Device.free_same | split | (apply Same.snd2 (by assumption)) | (apply Same.snd (by assumption)) | (apply Same.fst (by assumption)) | dsimp only | apply Same.upd)

theorem Device.setChunk_same {bb : Bool} {d : Device} {e : Device} (x1 : Nat) (x2 : Sys2Proof.Machine.Chunk) (h : SameB bb d e) :
    SameB bb d (Device.setChunk e x1 x2) := by
  unfold Device.setChunk
  repeat' with_reducible (first | assumption | (extract_lets +onlyGivenNames zz; first | clear_value zz | skip) | apply Device.setGroup_same | dsimp only | apply Same.upd)

theorem Device.takeMsg_same {bb : Bool} {d : Device} {e : Device} (x1 : Sys2Proof.Machine.Copy) (h : SameB bb d e) :
    SameB bb d (Device.takeMsg e x1) := by
  unfold Device.takeMsg
  repeat' with_reducible (first | assumption | apply Device.endCopy_same | apply Device.flowFinish_same | dsimp only | apply Same.upd)

theorem Device.retain_same {bb : Bool} {d : Device} {e : Device} (x1 : Nat) (x2 : Nat) (x3 : Nat) (x4 : Bool) (x5 : Sys2Proof.Bytes) (h : SameB bb d e) :
    SameB bb d (Device.retain e x1 x2 x3 x4 x5) := by
  unfold Device.retain
  repeat' with_reducible (first | assumption | (extract_lets +onlyGivenNames zz; first | (refine (fun (hz : SameB bb d zz) => ?_) ?_; clear_value zz; rotate_left; subst zz) | clear_value zz | skip) | apply Device.takeIndex_same | apply Device.raise_same | apply Device.count_same | apply Device.askBillet_same | split | dsimp only | apply Same.upd)

theorem Device.sendResult_same {bb : Bool} {d : Device} {e : Device} (x1 : Nat) (x2 : Nat) (x3 : Nat) (x4 : Bool) (x5 : Sys2Proof.Bytes) (h : SameB bb d e) :
    SameB bb d (Device.sendResult e x1 x2 x3 x4 x5) := by
  unfold Device.sendResult
  repeat' with_reducible (first | assumption | apply Device.count_same | apply Device.sendMsg_same | dsimp only | apply Same.upd)

theorem Device.sendUp_same {bb : Bool} {d : Device} {e : Device} (x1 : Nat) (x2 : Sys2Proof.Machine.Chunk) (x3 : Bool) (h : SameB bb d e) :
    SameB bb d (Device.sendUp e x1 x2 x3) := by
  unfold Device.sendUp
  repeat' with_reducible (first | assumption | apply Device.sendMsg_same | dsimp only | apply Same.upd)

theorem Device.formChunk_same {bb : Bool} {d : Device} {e : Device} (x1 : Nat) (x2 : Sys2Proof.Machine.Chunk) (h : SameB bb d e) :
    SameB bb d (Device.formChunk e x1 x2) := by
  unfold Device.formChunk
  repeat' with_reducible (first | assumption | (extract_lets +onlyGivenNames zz; first | (refine (fun (hz : SameB bb d zz) => ?_) ?_; clear_value zz; rotate_left; subst zz) | clear_value zz | skip) | apply Device.free_same | apply Device.count_same | apply Device.retain_same | apply Device.releaseChunk_same | apply Device.sendResult_same | apply Device.sendUp_same | apply Device.setChunk_same | split | (apply Same.snd2 (by assumption)) | (apply Same.snd (by assumption)) | (apply Same.fst (by assumption)) | dsimp only | apply Same.upd)

theorem Device.formNext_same {bb : Bool} {d : Device} {e : Device} (x1 : Nat) (x2 : Sys2Proof.Machine.Chunk) (h : SameB bb d e) :
    SameB bb d (Device.formNext e x1 x2) := by
  unfold Device.formNext
  repeat' with_reducible (first | assumption | (extract_lets +onlyGivenNames zz; first | clear_value zz | skip) | apply Device.inPieces_same | apply Device.formChunk_same | apply Device.event_same | split | (apply Same.snd2 (by assumption)) | (apply Same.snd (by assumption)) | (apply Same.fst (by assumption)) | dsimp only | apply Same.upd)

theorem Device.contribTake_same {bb : Bool} {d : Device} {e : Device} (x1 : Nat) (x2 : Sys2Proof.Machine.Copy) (x3 : Sys2Proof.Machine.Frame) (x4 : Nat) (x5 : Sys2Proof.Machine.RedMsg) (x6 : Sys2Proof.Machine.Chunk) (h : SameB bb d e) :
    SameB bb d (Device.contribTake e x1 x2 x3 x4 x5 x6) := by
  unfold Device.contribTake
  repeat' with_reducible (first | assumption | (extract_lets +onlyGivenNames zz; first | (refine (fun (hz : SameB bb d zz) => ?_) ?_; clear_value zz; rotate_left; subst zz) | clear_value zz | skip) | apply Device.issue_same | apply Device.msgBytes_same | apply Device.setChunk_same | apply Device.takeMsg_same | apply Device.count_same | apply Device.formNext_same | split | (apply Same.snd2 (by assumption)) | (apply Same.snd (by assumption)) | (apply Same.fst (by assumption)) | dsimp only | apply Same.upd)

theorem Device.postWrite_same {bb : Bool} {d : Device} {e : Device} (x1 : Nat) (x2 : Nat) (x3 : Sys2Proof.Bytes) (h : SameB bb d e) :
    SameO bb d (Device.postWrite e x1 x2 x3) := by
  unfold Device.postWrite
  repeat' with_reducible (first | assumption | apply Device.send_same | split | exact SameO.ofNone | apply SameO.ofSome | (apply SameO.get (by assumption)) | dsimp only | apply Same.upd)

theorem Device.countSat_same {bb : Bool} {d : Device} {e : Device} (x1 : Nat) (x2 : Sys2Proof.Machine.Fld) (h : SameB bb d e) :
    SameB bb d (Device.countSat e x1 x2) := by
  unfold Device.countSat
  repeat' with_reducible (first | assumption | (extract_lets +onlyGivenNames zz; first | clear_value zz | skip) | apply Device.setFld_same | split | dsimp only | apply Same.upd)

theorem Device.ledgerWrite_same {bb : Bool} {d : Device} {e : Device} (x1 : Nat) (x2 : Sys2Proof.Bytes) (h : SameB bb d e) :
    SameB bb d (Device.ledgerWrite e x1 x2) := by
  unfold Device.ledgerWrite
  repeat' with_reducible (first | assumption | apply Device.postWrite_same | apply Device.event_same | apply Device.countSat_same | split | (apply SameO.get (by assumption)) | dsimp only | apply Same.upd)

theorem Device.copyRecords_same {bb : Bool} {d : Device} {e : Device} (x1 : Nat) (h : SameB bb d e) :
    SameB bb d (Device.copyRecords e x1) := by
  induction x1 generalizing e with
  | zero =>
    unfold Device.copyRecords
    repeat' with_reducible (first | assumption | (extract_lets +onlyGivenNames zz; first | (refine (fun (hz : SameB bb d zz) => ?_) ?_; clear_value zz; rotate_left; subst zz) | clear_value zz | skip) | apply Device.spend_same | apply Device.ledgerWrite_same | split | dsimp only | apply Same.upd)
  | succ n ih =>
    unfold Device.copyRecords
    repeat' with_reducible (first | assumption | apply ih | (extract_lets +onlyGivenNames zz; first | (refine (fun (hz : SameB bb d zz) => ?_) ?_; clear_value zz; rotate_left; subst zz) | clear_value zz | skip) | apply Device.spend_same | apply Device.ledgerWrite_same | split | dsimp only | apply Same.upd)

theorem Device.copySlot_same {bb : Bool} {d : Device} {e : Device} (x1 : Nat) (x2 : Nat) (h : SameB bb d e) :
    SameB bb d (Device.copySlot e x1 x2) := by
  unfold Device.copySlot
  repeat' with_reducible (first | assumption | (extract_lets +onlyGivenNames zz; first | (refine (fun (hz : SameB bb d zz) => ?_) ?_; clear_value zz; rotate_left; subst zz) | clear_value zz | skip) | apply Device.setReg_same | split | (apply Same.foldl; intro _ _ _) | dsimp only | apply Same.upd)

theorem Device.correctCharge_same {bb : Bool} {d : Device} {e : Device} (x1 : Nat) (h : SameB bb d e) :
    SameB bb d (Device.correctCharge e x1) := by
  unfold Device.correctCharge
  repeat' with_reducible (first | assumption | (extract_lets +onlyGivenNames zz; first | clear_value zz | skip) | apply Device.modCopy_same | apply Device.giveBack_same | split | dsimp only | apply Same.upd)

theorem Device.undoWrap_same {bb : Bool} {d : Device} {e : Device} (x1 : Option Nat) (x2 : Nat) (h : SameB bb d e) :
    SameB bb d (Device.undoWrap e x1 x2) := by
  unfold Device.undoWrap
  repeat' with_reducible (first | assumption | (extract_lets +onlyGivenNames zz; first | (refine (fun (hz : SameB bb d zz) => ?_) ?_; clear_value zz; rotate_left; subst zz) | clear_value zz | skip) | apply Device.setReg_same | split | dsimp only | apply Same.upd)

theorem Device.countAgain_same {bb : Bool} {d : Device} {e : Device} (x1 : Option Nat) (x2 : Nat) (h : SameB bb d e) :
    SameB bb d (Device.countAgain e x1 x2) := by
  unfold Device.countAgain
  repeat' with_reducible (first | assumption | apply Device.pcAdd_same | apply Device.undoWrap_same | split | (apply Same.foldl; intro _ _ _) | dsimp only | apply Same.upd)

theorem Device.countEnq_same {bb : Bool} {d : Device} {e : Device} (x1 : Nat) (h : SameB bb d e) :
    SameB bb d (Device.countEnq e x1) := by
  unfold Device.countEnq
  repeat' with_reducible (first | assumption | apply Device.queueCount_same | apply Device.modFrame_same | split | (apply Same.foldl; intro _ _ _) | dsimp only | apply Same.upd)

theorem Device.countMoves_same {bb : Bool} {d : Device} {e : Device} (x1 : List Nat) (h : SameB bb d e) :
    SameB bb d (Device.countMoves e x1) := by
  unfold Device.countMoves
  repeat' with_reducible (first | assumption | apply Device.event_same | apply Device.count_same | (apply Same.foldl; intro _ _ _) | dsimp only | apply Same.upd)

theorem Device.coverLanes_same {bb : Bool} {d : Device} {e : Device} (x1 : Nat) (h : SameB bb d e) :
    SameB bb d (Device.coverLanes e x1) := by
  unfold Device.coverLanes
  repeat' with_reducible (first | assumption | (extract_lets +onlyGivenNames zz; first | clear_value zz | skip) | dsimp only | apply Same.upd)

theorem runStages_same {bb : Bool} {d : Device} {e : StageRun} (x0 : Sys2Proof.Machine.StageCtx) (x1 : Nat) (x2 : Nat) (h : SameB bb d e.d) :
    SameB bb d (runStages x0 x1 x2 e).d := by
  induction x1 generalizing e x0 x2 with
  | zero =>
    unfold runStages
    repeat' with_reducible (first | assumption | apply runStage_same | split | dsimp only | apply Same.upd)
  | succ n ih =>
    unfold runStages
    repeat' with_reducible (first | assumption | apply ih | apply runStage_same | split | dsimp only | apply Same.upd)

theorem Device.hopLimit_same {bb : Bool} {d : Device} {e : Device} (x1 : List Sys2Proof.Machine.HdrEnt) (x2 : Sys2Proof.Bytes) (h : SameB bb d e) :
    SameB bb d (Device.hopLimit e x1 x2).2 := by
  unfold Device.hopLimit
  repeat' with_reducible (first | assumption | (extract_lets +onlyGivenNames zz; first | clear_value zz | skip) | apply Device.free_same | split | (apply Same.snd2 (by assumption)) | (apply Same.snd (by assumption)) | (apply Same.fst (by assumption)) | dsimp only | apply Same.upd)

theorem Device.ioamWrite_same {bb : Bool} {d : Device} {e : Device} (x1 : Sys2Proof.Machine.Copy) (x2 : Sys2Proof.Machine.Frame) (x3 : Sys2Proof.Bytes) (h : SameB bb d e) :
    SameB bb d (Device.ioamWrite e x1 x2 x3).1 := by
  unfold Device.ioamWrite
  repeat' with_reducible (first | assumption | (extract_lets +onlyGivenNames zz; first | clear_value zz | skip) | apply Device.count_same | apply Device.hopLimit_same | split | (apply Same.snd2 (by assumption)) | (apply Same.snd (by assumption)) | (apply Same.fst (by assumption)) | dsimp only | apply Same.upd)

theorem Device.egressForm_same {bb : Bool} {d : Device} {e : Device} (x1 : Nat) (h : SameB bb d e) :
    SameB bb d (Device.egressForm e x1).1 := by
  unfold Device.egressForm
  repeat' with_reducible (first | assumption | (extract_lets +onlyGivenNames zz; first | (refine (fun (hz : SameB bb d zz) => ?_) ?_; clear_value zz; rotate_left; subst zz) | (refine (fun (hz : SameB bb d zz.d) => ?_) ?_; clear_value zz; rotate_left; subst zz) | clear_value zz | skip) | apply Device.event_same | apply runStages_same | apply Device.modFrame_same | apply Device.ioamWrite_same | apply Device.modCopy_same | split | (apply Same.snd2 (by assumption)) | (apply Same.snd (by assumption)) | (apply Same.fst (by assumption)) | (apply Same.fstR (by assumption)) | dsimp only | apply Same.upd)

theorem Device.egressMirror_same {bb : Bool} {d : Device} {e : Device} (x1 : Sys2Proof.Machine.Copy) (x2 : Sys2Proof.Machine.Frame) (x3 : Nat) (h : SameB bb d e) :
    SameB bb d (Device.egressMirror e x1 x2 x3) := by
  unfold Device.egressMirror
  repeat' with_reducible (first | assumption | (extract_lets +onlyGivenNames zz; first | (refine (fun (hz : SameB bb d zz) => ?_) ?_; clear_value zz; rotate_left; subst zz) | clear_value zz | skip) | apply Device.admitCopy_same | apply Device.releaseFrame_same | apply Device.modFrame_same | apply Device.mustWait_same | split | (apply Same.snd2 (by assumption)) | (apply Same.snd (by assumption)) | (apply Same.fst (by assumption)) | dsimp only | apply Same.upd)

theorem Device.egressMirrors_same {bb : Bool} {d : Device} {e : Device} (x1 : Nat) (h : SameB bb d e) :
    SameB bb d (Device.egressMirrors e x1) := by
  unfold Device.egressMirrors
  repeat' with_reducible (first | assumption | apply Device.egressMirror_same | apply Device.modCopy_same | split | (apply Same.foldl; intro _ _ _) | dsimp only | apply Same.upd)

theorem Device.startEgress_same {bb : Bool} {d : Device} {e : Device} (x1 : Nat) (h : SameB bb d e) :
    SameB bb d (Device.startEgress e x1) := by
  unfold Device.startEgress
  repeat' with_reducible (first | assumption | (extract_lets +onlyGivenNames zz; first | (refine (fun (hz : SameB bb d zz) => ?_) ?_; clear_value zz; rotate_left; subst zz) | clear_value zz | skip) | apply Device.egressForm_same | apply Device.readCells_same | apply Device.modCopy_same | apply Device.egressMirrors_same | apply Device.dropCopy_same | split | (apply Same.snd2 (by assumption)) | (apply Same.snd (by assumption)) | (apply Same.fst (by assumption)) | dsimp only | apply Same.upd)

theorem Device.cutThrough_same {bb : Bool} {d : Device} {e : Device} (x1 : Nat) (x2 : Nat) (h : SameB bb d e) :
    SameB bb d (Device.cutThrough e x1 x2) := by
  unfold Device.cutThrough
  repeat' with_reducible (first | assumption | (extract_lets +onlyGivenNames zz; first | (refine (fun (hz : SameB bb d zz) => ?_) ?_; clear_value zz; rotate_left; subst zz) | clear_value zz | skip) | apply Device.event_same | apply Device.chargeShapers_same | apply Device.modCopy_same | apply Device.startEgress_same | apply Device.addDeficit_same | split | dsimp only | apply Same.upd)

theorem Device.episode_same {bb : Bool} {d : Device} {e : Device} (x1 : Nat) (x2 : Nat) (x3 : Nat) (h : SameB bb d e) :
    SameB bb d (Device.episode e x1 x2 x3) := by
  unfold Device.episode
  repeat' with_reducible (first | assumption | apply Device.count_same | split | dsimp only | apply Same.upd)

theorem Device.upStepAsk_same {bb : Bool} {d : Device} {e : Device} (h : SameB bb d e) :
    SameB bb d (Device.upStepAsk e) := by
  unfold Device.upStepAsk
  repeat' with_reducible (first | assumption | (extract_lets +onlyGivenNames zz; first | clear_value zz | skip) | apply Device.upStepWait_same | split | dsimp only | apply Same.upd)

theorem Device.ladderApply_same {bb : Bool} {d : Device} {e : Device} (h : SameB bb d e) :
    SameB bb d (Device.ladderApply e) := by
  unfold Device.ladderApply
  repeat' with_reducible (first | assumption | (extract_lets +onlyGivenNames zz; first | clear_value zz | skip) | dsimp only | apply Same.upd)

theorem Device.damperBoundary_same {bb : Bool} {d : Device} {e : Device} (x1 : Nat) (h : SameB bb d e) :
    SameB bb d (Device.damperBoundary e x1) := by
  unfold Device.damperBoundary
  extract_lets s act ps w a excess low lowFrom release held m capD vrD level unreach
  clear_value unreach level vrD capD m held release lowFrom low excess a w ps act
  split
  rename_i pw d1 hq
  have k1 : SameB bb d d1 := Same.snd hq (Device.roundDiv_same _ _ h)
  extract_lets d2 d3 d4 d5 d6 d7 d8 d9 d10 d11
  have k2 : SameB bb d d2 := by
    dsimp only [d2]
    repeat' with_reducible (first | assumption | apply Device.upStepAsk_same | apply Device.roundDiv_same | apply Device.episode_same | apply Device.raise_same | apply Device.ladderApply_same | apply Device.causeTime_same | split | (apply Same.snd (by assumption)) | (apply Same.fst (by assumption)) | dsimp only | apply Same.upd)
  clear_value d2
  have k3 : SameB bb d d3 := by
    dsimp only [d3]
    repeat' with_reducible (first | assumption | apply Device.upStepAsk_same | apply Device.roundDiv_same | apply Device.episode_same | apply Device.raise_same | apply Device.ladderApply_same | apply Device.causeTime_same | split | (apply Same.snd (by assumption)) | (apply Same.fst (by assumption)) | dsimp only | apply Same.upd)
  clear_value d3
  have k4 : SameB bb d d4 := by
    dsimp only [d4]
    repeat' with_reducible (first | assumption | apply Device.upStepAsk_same | apply Device.roundDiv_same | apply Device.episode_same | apply Device.raise_same | apply Device.ladderApply_same | apply Device.causeTime_same | split | (apply Same.snd (by assumption)) | (apply Same.fst (by assumption)) | dsimp only | apply Same.upd)
  clear_value d4
  have k5 : SameB bb d d5 := by
    dsimp only [d5]
    repeat' with_reducible (first | assumption | apply Device.upStepAsk_same | apply Device.roundDiv_same | apply Device.episode_same | apply Device.raise_same | apply Device.ladderApply_same | apply Device.causeTime_same | split | (apply Same.snd (by assumption)) | (apply Same.fst (by assumption)) | dsimp only | apply Same.upd)
  clear_value d5
  have k6 : SameB bb d d6 := by
    dsimp only [d6]
    repeat' with_reducible (first | assumption | apply Device.upStepAsk_same | apply Device.roundDiv_same | apply Device.episode_same | apply Device.raise_same | apply Device.ladderApply_same | apply Device.causeTime_same | split | (apply Same.snd (by assumption)) | (apply Same.fst (by assumption)) | dsimp only | apply Same.upd)
  clear_value d6
  have k7 : SameB bb d d7 := Device.episode_same _ _ _ (Device.episode_same _ _ _ k6)
  clear_value d7
  have k8 : SameB bb d d8 := by
    dsimp only [d8]
    repeat' with_reducible (first | assumption | apply Device.upStepAsk_same | apply Device.roundDiv_same | apply Device.episode_same | apply Device.raise_same | apply Device.ladderApply_same | apply Device.causeTime_same | split | (apply Same.snd (by assumption)) | (apply Same.fst (by assumption)) | dsimp only | apply Same.upd)
  clear_value d8
  have k9 : SameB bb d d9 := by
    dsimp only [d9]
    repeat' with_reducible (first | assumption | apply Device.upStepAsk_same | apply Device.roundDiv_same | apply Device.episode_same | apply Device.raise_same | apply Device.ladderApply_same | apply Device.causeTime_same | split | (apply Same.snd (by assumption)) | (apply Same.fst (by assumption)) | dsimp only | apply Same.upd)
  clear_value d9
  have k10 : SameB bb d d10 := by
    dsimp only [d10]
    repeat' with_reducible (first | assumption | apply Device.upStepAsk_same | apply Device.roundDiv_same | apply Device.episode_same | apply Device.raise_same | apply Device.ladderApply_same | apply Device.causeTime_same | split | (apply Same.snd (by assumption)) | (apply Same.fst (by assumption)) | dsimp only | apply Same.upd)
  clear_value d10
  exact Device.upStepAsk_same (Device.ladderApply_same (Same.upd k10))

theorem Device.dgramSend_same {bb : Bool} {d : Device} {e : Device} (x1 : Sys2Proof.Machine.Datagram) (h : SameB bb d e) :
    SameB bb d (Device.dgramSend e x1) := by
  unfold Device.dgramSend
  repeat' with_reducible (first | assumption | (extract_lets +onlyGivenNames zz; first | (refine (fun (hz : SameB bb d zz) => ?_) ?_; clear_value zz; rotate_left; subst zz) | clear_value zz | skip) | apply Device.setCfg_same | apply Device.count_same | apply Device.free_same | apply Device.injectFrame_same | split | (apply Same.snd2 (by assumption)) | (apply Same.snd (by assumption)) | (apply Same.fst (by assumption)) | dsimp only | apply Same.upd)

theorem Device.direct_same {bb : Bool} {d : Device} {e : Device} (x1 : Sys2Proof.Machine.Frame) (x2 : Nat) (x3 : Option Nat) (h : SameB bb d e) :
    SameB bb d (Device.direct e x1 x2 x3) := by
  unfold Device.direct
  repeat' with_reducible (first | assumption | (extract_lets +onlyGivenNames zz; first | (refine (fun (hz : SameB bb d zz) => ?_) ?_; clear_value zz; rotate_left; subst zz) | clear_value zz | skip) | apply Device.addFrame_same | apply Device.admitCopy_same | apply Device.releaseFrame_same | apply Device.flowFinish_same | split | (apply Same.snd2 (by assumption)) | (apply Same.snd (by assumption)) | (apply Same.fst (by assumption)) | dsimp only | apply Same.upd)

theorem Device.dmaEvent_same {bb : Bool} {d : Device} {e : Device} (x1 : Nat) (x2 : Nat) (h : SameB bb d e) :
    SameB bb d (Device.dmaEvent e x1 x2) := by
  unfold Device.dmaEvent
  repeat' with_reducible (first | assumption | apply Device.event_same | dsimp only | apply Same.upd)

theorem Device.dreqLeaves_same {bb : Bool} {d : Device} {e : Device} (x1 : Nat) (x2 : Nat) (h : SameB bb d e) :
    SameB bb d (Device.dreqLeaves e x1 x2) := by
  unfold Device.dreqLeaves
  repeat' with_reducible (first | assumption | (extract_lets +onlyGivenNames zz; first | clear_value zz | skip) | split | dsimp only | apply Same.upd)

theorem Device.dropBoundary_same {bb : Bool} {d : Device} {e : Device} (h : SameB bb d e) :
    SameB bb d (Device.dropBoundary e) := by
  unfold Device.dropBoundary
  repeat' with_reducible (first | assumption | (extract_lets +onlyGivenNames zz; first | clear_value zz | skip) | split | dsimp only | apply Same.upd)

theorem Device.dropCharge_same {bb : Bool} {d : Device} {e : Device} (x1 : Nat) (x2 : Sys2Proof.Machine.Charge) (x3 : Nat) (h : SameB bb d e) :
    SameB bb d (Device.dropCharge e x1 x2 x3) := by
  unfold Device.dropCharge
  repeat' with_reducible (first | assumption | (extract_lets +onlyGivenNames zz; first | clear_value zz | skip) | apply Device.setQueueSt_same | apply Device.setClassSt_same | split | dsimp only | apply Same.upd)

theorem Device.flushPort_same {bb : Bool} {d : Device} {e : Device} (x1 : Nat) (h : SameB bb d e) :
    SameB bb d (Device.flushPort e x1) := by
  unfold Device.flushPort
  repeat' with_reducible (first | assumption | (extract_lets +onlyGivenNames zz; first | (refine (fun (hz : SameB bb d zz) => ?_) ?_; clear_value zz; rotate_left; subst zz) | skip) | apply Device.queueCount_same | apply Device.portCount_same | apply Device.dropCopy_same | (apply Same.foldl; intro _ _ _) | dsimp only | apply Same.upd)

theorem Device.endReceiving_same {bb : Bool} {d : Device} {e : Device} (x1 : Nat) (h : SameB bb d e) :
    SameB bb d (Device.endReceiving e x1) := by
  unfold Device.endReceiving
  repeat' with_reducible (first | assumption | (extract_lets +onlyGivenNames zz; first | clear_value zz | skip) | dsimp only | apply Same.upd)

theorem Device.settleMeter_same {bb : Bool} {d : Device} {e : Device} (x1 : Nat) (x2 : Nat) (x3 : Sys2Proof.Machine.MeterCharge) (h : SameB bb d e) :
    SameB bb d (Device.settleMeter e x1 x2 x3) := by
  unfold Device.settleMeter
  repeat' with_reducible (first | assumption | (extract_lets +onlyGivenNames zz; first | clear_value zz | skip) | apply Device.meterCount_same | split | dsimp only | apply Same.upd)

theorem Device.settleEnd_same {bb : Bool} {d : Device} {e : Device} (x1 : Nat) (h : SameB bb d e) :
    SameB bb d (Device.settleEnd e x1) := by
  unfold Device.settleEnd
  repeat' with_reducible (first | assumption | (extract_lets +onlyGivenNames zz; first | (refine (fun (hz : SameB bb d zz) => ?_) ?_; clear_value zz; rotate_left; subst zz) | clear_value zz | skip) | apply Device.settleMeter_same | apply Device.countN_same | apply Device.modFrame_same | apply Device.flowEnd_same | split | (apply Same.foldl; intro _ _ _) | dsimp only | apply Same.upd)

theorem Device.dropTrap_same {bb : Bool} {d : Device} {e : Device} (x1 : Sys2Proof.Machine.TrapPkt) (x2 : Nat) (h : SameB bb d e) :
    SameB bb d (Device.dropTrap e x1 x2) := by
  unfold Device.dropTrap
  repeat' with_reducible (first | assumption | (extract_lets +onlyGivenNames zz; first | (refine (fun (hz : SameB bb d zz) => ?_) ?_; clear_value zz; rotate_left; subst zz) | clear_value zz | skip) | apply Device.loseOne_same | apply Device.flowFinish_same | apply Device.releaseFrame_same | split | dsimp only | apply Same.upd)

theorem Device.loseMirrors_same {bb : Bool} {d : Device} {e : Device} (x1 : Sys2Proof.Machine.Frame) (x2 : Sys2Proof.Machine.DropInfo) (x3 : List Nat) (h : SameB bb d e) :
    SameB bb d (Device.loseMirrors e x1 x2 x3) := by
  unfold Device.loseMirrors
  repeat' with_reducible (first | assumption | apply Device.loseOne_same | split | (apply Same.foldl; intro _ _ _) | dsimp only | apply Same.upd)

theorem Device.failFlight_same {bb : Bool} {d : Device} {e : Device} (x1 : Nat) (x2 : Nat) (h : SameB bb d e) :
    SameB bb d (Device.failFlight e x1 x2) := by
  unfold Device.failFlight
  repeat' with_reducible (first | assumption | (extract_lets +onlyGivenNames zz; first | (refine (fun (hz : SameB bb d zz) => ?_) ?_; clear_value zz; rotate_left; subst zz) | clear_value zz | skip) | apply Device.loseMirrors_same | apply Device.dropFlight_same | apply Device.setFlight_same | split | dsimp only | apply Same.upd)

theorem Device.loseEgMirrors_same {bb : Bool} {d : Device} {e : Device} (x1 : Sys2Proof.Machine.Frame) (x2 : Sys2Proof.Machine.Copy) (x3 : Nat) (x4 : Nat) (h : SameB bb d e) :
    SameB bb d (Device.loseEgMirrors e x1 x2 x3 x4) := by
  unfold Device.loseEgMirrors
  repeat' with_reducible (first | assumption | apply Device.loseMirrors_same | dsimp only | apply Same.upd)

theorem Device.failFrame_same {bb : Bool} {d : Device} {e : Device} (x1 : Nat) (x2 : Nat) (h : SameB bb d e) :
    SameB bb d (Device.failFrame e x1 x2) := by
  unfold Device.failFrame
  repeat' with_reducible (first | assumption | (extract_lets +onlyGivenNames zz; first | (refine (fun (hz : SameB bb d zz) => ?_) ?_; clear_value zz; rotate_left; subst zz) | clear_value zz | skip) | apply Device.endReceiving_same | apply Device.setFrame_same | apply Device.settleEnd_same | apply Device.countEnq_same | apply Device.loseOne_same | apply Device.dropTrap_same | apply Device.failFlight_same | apply Device.dropCopies_same | apply Device.loseEgMirrors_same | apply Device.releaseFrame_same | split | (apply Same.foldl; intro _ _ _) | dsimp only | apply Same.upd)

theorem Device.showPort_same {bb : Bool} {d : Device} {e : Device} (x1 : Nat) (h : SameB bb d e) :
    SameB bb d (Device.showPort e x1) := by
  unfold Device.showPort
  repeat' with_reducible (first | assumption | (extract_lets +onlyGivenNames zz; first | clear_value zz | skip) | apply Device.autoMembers_same | apply Device.modPort_same | split | dsimp only | apply Same.upd)

theorem Device.portDown_same {bb : Bool} {d : Device} {e : Device} (x1 : Nat) (h : SameB bb d e) :
    SameB bb d (Device.portDown e x1) := by
  unfold Device.portDown
  repeat' with_reducible (first | assumption | (extract_lets +onlyGivenNames zz; first | (refine (fun (hz : SameB bb d zz) => ?_) ?_; clear_value zz; rotate_left; subst zz) | skip) | apply Device.modPort_same | apply Device.flushPort_same | apply Device.portCount_same | apply Device.failFrame_same | apply Device.modBring_same | apply Device.showPort_same | split | dsimp only | apply Same.upd)

theorem Device.dropPort_same {bb : Bool} {d : Device} {e : Device} (x1 : Nat) (h : SameB bb d e) :
    SameB bb d (Device.dropPort e x1) := by
  unfold Device.dropPort
  repeat' with_reducible (first | assumption | apply Device.portDown_same | split | dsimp only | apply Same.upd)

theorem Device.endInterruption_same {bb : Bool} {d : Device} {e : Device} (h : SameB bb d e) :
    SameB bb d (Device.endInterruption e) := by
  unfold Device.endInterruption
  repeat' with_reducible (first | assumption | (extract_lets +onlyGivenNames zz; first | (refine (fun (hz : SameB bb d zz) => ?_) ?_; clear_value zz; rotate_left; subst zz) | clear_value zz | skip) | apply Device.countN_same | split | dsimp only | apply Same.upd)

theorem Device.endMirrors_same {bb : Bool} {d : Device} {e : Device} (x1 : Nat) (h : SameB bb d e) :
    SameB bb d (Device.endMirrors e x1) := by
  unfold Device.endMirrors
  repeat' with_reducible (first | assumption | (extract_lets +onlyGivenNames zz; first | (refine (fun (hz : SameB bb d zz) => ?_) ?_; clear_value zz; rotate_left; subst zz) | clear_value zz | skip) | apply Device.egressMirrors_same | apply Device.egressMirror_same | split | (apply Same.foldl; intro _ _ _) | dsimp only | apply Same.upd)

theorem Device.fftBoundary_same {bb : Bool} {d : Device} {e : Device} (h : SameB bb d e) :
    SameB bb d (Device.fftBoundary e) := by
  unfold Device.fftBoundary
  repeat' with_reducible (first | assumption | (extract_lets +onlyGivenNames zz; first | clear_value zz | skip) | split | (apply Same.foldl; intro _ _ _) | dsimp only | apply Same.upd)

theorem Device.learnJoin_same {bb : Bool} {d : Device} {e : Device} (x1 : Sys2Proof.Machine.LearnEvent) (h : SameB bb d e) :
    SameB bb d (Device.learnJoin e x1) := by
  unfold Device.learnJoin
  repeat' with_reducible (first | assumption | (extract_lets +onlyGivenNames zz; first | clear_value zz | skip) | apply Device.count_same | apply Device.raise_same | split | dsimp only | apply Same.upd)

theorem Device.learnBoundary_same {bb : Bool} {d : Device} {e : Device} (h : SameB bb d e) :
    SameB bb d (Device.learnBoundary e) := by
  unfold Device.learnBoundary
  repeat' with_reducible (first | assumption | (extract_lets +onlyGivenNames zz; first | clear_value zz | skip) | apply Device.learnJoin_same | (apply Same.foldl; intro _ _ _) | dsimp only | apply Same.upd)

theorem Device.watchdogBoundary_same {bb : Bool} {d : Device} {e : Device} (h : SameB bb d e) :
    SameB bb d (Device.watchdogBoundary e) := by
  unfold Device.watchdogBoundary
  repeat' with_reducible (first | assumption | (extract_lets +onlyGivenNames zz; first | clear_value zz | skip) | (apply Same.foldl; intro _ _ _) | dsimp only | apply Same.upd)

theorem Device.pcBoundary_same {bb : Bool} {d : Device} {e : Device} (h : SameB bb d e) :
    SameB bb d (Device.pcBoundary e) := by
  unfold Device.pcBoundary
  repeat' with_reducible (first | assumption | (extract_lets +onlyGivenNames zz; first | (refine (fun (hz : SameB bb d zz) => ?_) ?_; clear_value zz; rotate_left; subst zz) | clear_value zz | skip) | apply Device.pcSync_same | apply Device.pcAdd_same | split | (apply Same.foldl; intro _ _ _) | dsimp only | apply Same.upd)

theorem Device.replaceSlot_same {bb : Bool} {d : Device} {e : Device} (x1 : Nat) (x2 : Nat) (h : SameB bb d e) :
    SameB bb d (Device.replaceSlot e x1 x2) := by
  unfold Device.replaceSlot
  repeat' with_reducible (first | assumption | (extract_lets +onlyGivenNames zz; first | (refine (fun (hz : SameB bb d zz) => ?_) ?_; clear_value zz; rotate_left; subst zz) | clear_value zz | skip) | apply Device.countMoves_same | apply Device.notifyEntry_same | apply Device.raise_same | apply Device.count_same | split | dsimp only | apply Same.upd)

theorem Device.replaceRow_same {bb : Bool} {d : Device} {e : Device} (x1 : Nat) (h : SameB bb d e) :
    SameB bb d (Device.replaceRow e x1) := by
  unfold Device.replaceRow
  repeat' with_reducible (first | assumption | (extract_lets +onlyGivenNames zz; first | clear_value zz | skip) | apply Device.replaceSlot_same | split | (apply Same.foldl; intro _ _ _) | dsimp only | apply Same.upd)

theorem Device.replaceWalk_same {bb : Bool} {d : Device} {e : Device} (x1 : Nat) (h : SameB bb d e) :
    SameB bb d (Device.replaceWalk e x1) := by
  unfold Device.replaceWalk
  repeat' with_reducible (first | assumption | (extract_lets +onlyGivenNames zz; first | (refine (fun (hz : SameB bb d zz) => ?_) ?_; clear_value zz; rotate_left; subst zz) | clear_value zz | skip) | apply Device.replaceRow_same | split | (apply Same.foldl; intro _ _ _) | dsimp only | apply Same.upd)

theorem Device.sweepVisit_same {bb : Bool} {d : Device} {e : Device} (h : SameB bb d e) :
    SameB bb d (Device.sweepVisit e) := by
  unfold Device.sweepVisit
  repeat' with_reducible (first | assumption | (extract_lets +onlyGivenNames zz; first | (refine (fun (hz : SameB bb d zz) => ?_) ?_; clear_value zz; rotate_left; subst zz) | clear_value zz | skip) | apply Device.ageRow_same | split | (apply Same.foldl; intro _ _ _) | dsimp only | apply Same.upd)

theorem Device.maintenance_same {bb : Bool} {d : Device} {e : Device} (h : SameB bb d e) :
    SameB bb d (Device.maintenance e) := by
  unfold Device.maintenance
  repeat' with_reducible (first | assumption | (extract_lets +onlyGivenNames zz; first | clear_value zz | skip) | apply Device.replaceWalk_same | apply Device.sweepVisit_same | dsimp only | apply Same.upd)

theorem Device.stairBoundary_same {bb : Bool} {d : Device} {e : Device} (h : SameB bb d e) :
    SameB bb d (Device.stairBoundary e) := by
  unfold Device.stairBoundary
  repeat' with_reducible (first | assumption | (extract_lets +onlyGivenNames zz; first | (refine (fun (hz : SameB bb d zz) => ?_) ?_; clear_value zz; rotate_left; subst zz) | clear_value zz | skip) | apply Device.count_same | split | (apply Same.foldl; intro _ _ _) | dsimp only | apply Same.upd)

theorem Device.seqLooks_same {bb : Bool} {d : Device} {e : Device} (h : SameB bb d e) :
    SameB bb d (Device.seqLooks e) := by
  unfold Device.seqLooks
  repeat' with_reducible (first | assumption | apply Device.seqLook_same | (apply Same.foldl; intro _ _ _) | dsimp only | apply Same.upd)

theorem Device.entrySignal_same {bb : Bool} {d : Device} {e : Device} (x1 : Nat) (h : SameB bb d e) :
    SameB bb d (Device.entrySignal e x1) := by
  unfold Device.entrySignal
  repeat' with_reducible (first | assumption | (extract_lets +onlyGivenNames zz; first | clear_value zz | skip) | apply Device.send_same | split | dsimp only | apply Same.upd)

theorem Device.signal_same {bb : Bool} {d : Device} {e : Device} (x1 : Nat) (x2 : Nat) (h : SameB bb d e) :
    SameB bb d (Device.signal e x1 x2) := by
  unfold Device.signal
  repeat' with_reducible (first | assumption | apply Device.countSat_same | apply Device.entrySignal_same | split | dsimp only | apply Same.upd)

theorem Device.msixBoundary_same {bb : Bool} {d : Device} {e : Device} (h : SameB bb d e) :
    SameB bb d (Device.msixBoundary e) := by
  unfold Device.msixBoundary
  repeat' with_reducible (first | assumption | (extract_lets +onlyGivenNames zz; first | (refine (fun (hz : SameB bb d zz) => ?_) ?_; clear_value zz; rotate_left; subst zz) | clear_value zz | skip) | apply Device.signal_same | (apply Same.foldl; intro _ _ _) | dsimp only | apply Same.upd)

theorem Device.pcClear_same {bb : Bool} {d : Device} {e : Device} (h : SameB bb d e) :
    SameB bb d (Device.pcClear e) := by
  unfold Device.pcClear
  repeat' with_reducible (first | assumption | (extract_lets +onlyGivenNames zz; first | (refine (fun (hz : SameB bb d zz) => ?_) ?_; clear_value zz; rotate_left; subst zz) | clear_value zz | skip) | apply Device.setReg_same | split | (apply Same.foldl; intro _ _ _) | dsimp only | apply Same.upd)

theorem Device.keepEdges_same {bb : Bool} {d : Device} {e : Device} (h : SameB bb d e) :
    SameB bb d (Device.keepEdges e) := by
  unfold Device.keepEdges
  repeat' with_reducible (first | assumption | (extract_lets +onlyGivenNames zz; first | (have hq : GenUnit := zz; clear hq; subst zz) | clear_value zz | skip) | dsimp only | apply Same.upd | apply Same.updGen | exact rfl)

theorem Device.endStroke_same {bb : Bool} {d : Device} {e : Device} (x1 : Nat) (h : SameB bb d e) :
    SameB bb d (Device.endStroke e x1) := by
  unfold Device.endStroke
  repeat' with_reducible (first | assumption | (extract_lets +onlyGivenNames zz; first | (refine (fun (hz : SameB bb d zz) => ?_) ?_; clear_value zz; rotate_left; subst zz) | skip) | apply Device.fftBoundary_same | apply Device.learnBoundary_same | apply Device.dropBoundary_same | apply Device.watchdogBoundary_same | apply Device.pcBoundary_same | apply Device.maintenance_same | apply Device.bulkBoundary_same | apply Device.stairBoundary_same | apply Device.anvilBoundary_same | apply Device.seqLooks_same | apply Device.msixBoundary_same | apply Device.pcClear_same | apply Device.keepEdges_same | dsimp only | apply Same.upd)

theorem Device.ringEmpty_same {bb : Bool} {d : Device} {e : Device} (x1 : Nat) (h : SameB bb d e) :
    SameB bb d (Device.ringEmpty e x1) := by
  unfold Device.ringEmpty
  repeat' with_reducible (first | assumption | apply Device.modRing_same | dsimp only | apply Same.upd)

theorem Device.haltNow_same {bb : Bool} {d : Device} {e : Device} (x1 : Nat) (x2 : Nat) (x3 : Nat) (x4 : Nat) (h : SameB bb d e) :
    SameB bb d (Device.haltNow e x1 x2 x3 x4) := by
  unfold Device.haltNow
  repeat' with_reducible (first | assumption | (extract_lets +onlyGivenNames zz; first | (refine (fun (hz : SameB bb d zz) => ?_) ?_; clear_value zz; rotate_left; subst zz) | skip) | apply Device.ringNoWait_same | apply Device.ringOff_same | apply Device.modRing_same | apply Device.raise_same | apply Device.setW1c_same | split | dsimp only | apply Same.upd)

theorem Device.haltAt_same {bb : Bool} {d : Device} {e : Device} (x1 : Nat) (x2 : Nat) (x3 : Nat) (h : SameB bb d e) :
    SameB bb d (Device.haltAt e x1 x2 x3) := by
  unfold Device.haltAt
  repeat' with_reducible (first | assumption | apply Device.haltNow_same | apply Device.modRing_same | apply Device.noWait_same | split | dsimp only | apply Same.upd)

theorem Device.ringDone_same {bb : Bool} {d : Device} {e : Device} (x1 : Nat) (h : SameB bb d e) :
    SameB bb d (Device.ringDone e x1) := by
  unfold Device.ringDone
  repeat' with_reducible (first | assumption | (extract_lets +onlyGivenNames zz; first | (refine (fun (hz : SameB bb d zz) => ?_) ?_; clear_value zz; rotate_left; subst zz) | skip) | apply Device.count_same | apply Device.modRing_same | dsimp only | apply Same.upd)

theorem Device.txInject_same {bb : Bool} {d : Device} {e : Device} (x1 : Nat) (x2 : Sys2Proof.Bytes) (x3 : Sys2Proof.Bytes) (h : SameB bb d e) :
    SameB bb d (Device.txInject e x1 x2 x3) := by
  unfold Device.txInject
  repeat' with_reducible (first | assumption | (extract_lets +onlyGivenNames zz; first | (refine (fun (hz : SameB bb d zz) => ?_) ?_; clear_value zz; rotate_left; subst zz) | clear_value zz | skip) | apply Device.count_same | apply Device.dropFenced_same | apply Device.drop_same | apply Device.direct_same | apply Device.injectFrame_same | split | dsimp only | apply Same.upd)

theorem Device.takeEntry_same {bb : Bool} {d : Device} {e : Device} (x1 : Nat) (x2 : Sys2Proof.Bytes) (x3 : Option Sys2Proof.Bytes) (h : SameB bb d e) :
    SameB bb d (Device.takeEntry e x1 x2 x3) := by
  unfold Device.takeEntry
  repeat' with_reducible (first | assumption | (extract_lets +onlyGivenNames zz; first | (refine (fun (hz : SameB bb d zz) => ?_) ?_; clear_value zz; rotate_left; subst zz) | clear_value zz | skip) | apply Device.setRing_same | apply Device.ringDone_same | apply Device.txInject_same | apply Device.modRing_same | split | dsimp only | apply Same.upd)

theorem Device.entryCome_same {bb : Bool} {d : Device} {e : Device} (x1 : Nat) (x2 : Sys2Proof.Bytes) (x3 : Option Sys2Proof.Bytes) (h : SameB bb d e) :
    SameB bb d (Device.entryCome e x1 x2 x3) := by
  unfold Device.entryCome
  repeat' with_reducible (first | assumption | (extract_lets +onlyGivenNames zz; first | (refine (fun (hz : SameB bb d zz) => ?_) ?_; clear_value zz; rotate_left; subst zz) | clear_value zz | skip) | apply Device.dmaEvent_same | apply Device.ringEmpty_same | apply Device.haltAt_same | apply Device.takeEntry_same | split | dsimp only | apply Same.upd)

theorem Device.errAgain_same {bb : Bool} {d : Device} {e : Device} (x1 : Nat) (h : SameB bb d e) :
    SameB bb d (Device.errAgain e x1) := by
  unfold Device.errAgain
  repeat' with_reducible (first | assumption | apply Device.errWord_same | split | (apply Same.foldl; intro _ _ _) | dsimp only | apply Same.upd)

theorem Device.extBoundary_same {bb : Bool} {d : Device} {e : Device} (h : SameB bb d e) :
    SameB bb d (Device.extBoundary e) := by
  unfold Device.extBoundary
  repeat' with_reducible (first | assumption | apply Device.issueExt_same | (apply Same.foldl; intro _ _ _) | dsimp only | apply Same.upd)

theorem Device.extBuild_same {bb : Bool} {d : Device} {e : Device} (h : SameB bb d e) :
    SameB bb d (Device.extBuild e) := by
  unfold Device.extBuild
  repeat' with_reducible (first | assumption | (extract_lets +onlyGivenNames zz; first | clear_value zz | skip) | apply Device.bulkAsk_same | apply Device.raise_same | split | dsimp only | apply Same.upd)

theorem Device.extLookup_same {bb : Bool} {d : Device} {e : Device} (x1 : Nat) (x2 : Sys2Proof.Machine.EmKey) (h : SameB bb d e) :
    SameB bb d (Device.extLookup e x1 x2).2 := by
  unfold Device.extLookup
  repeat' with_reducible (first | assumption | (extract_lets +onlyGivenNames zz; first | (refine (fun (hz : SameB bb d zz) => ?_) ?_; clear_value zz; rotate_left; subst zz) | clear_value zz | skip) | apply Device.count_same | split | exact SameP.ofNone | apply SameP.ofSome | (apply Same.snd2 (by assumption)) | (apply Same.snd (by assumption)) | (apply Same.fst (by assumption)) | (apply SameO.get (by assumption)) | (apply SameP.get2 (by assumption)) | (apply SameP.get1 (by assumption)) | dsimp only | apply Same.upd)

theorem Device.failDownload_same {bb : Bool} {d : Device} {e : Device} (h : SameB bb d e) :
    SameB bb d (Device.failDownload e) := by
  unfold Device.failDownload
  repeat' with_reducible (first | assumption | (extract_lets +onlyGivenNames zz; first | (have hq : BootUnit := zz; clear hq; subst zz) | clear_value zz | skip) | split | dsimp only | apply Same.upd | apply Same.updBoot | exact rfl)

theorem Device.retireLink_same {bb : Bool} {d : Device} {e : Device} (x1 : Nat) (x2 : Nat) (x3 : Nat) (x4 : Nat) (x5 : Nat) (h : SameB bb d e) :
    SameB bb d (Device.retireLink e x1 x2 x3 x4 x5) := by
  unfold Device.retireLink
  repeat' with_reducible (first | assumption | (extract_lets +onlyGivenNames zz; first | (refine (fun (hz : SameB bb d zz) => ?_) ?_; clear_value zz; rotate_left; subst zz) | clear_value zz | skip) | apply Device.retireRecord_same | apply Device.coverLanes_same | apply Device.logFault_same | apply Device.setLink_same | apply Device.holdRetired_same | split | (apply Same.foldl; intro _ _ _) | dsimp only | apply Same.upd)

theorem Device.repairLane_same {bb : Bool} {d : Device} {e : Device} (x1 : Nat) (x2 : Nat) (x3 : Nat) (x4 : Nat) (x5 : Nat) (h : SameB bb d e) :
    SameB bb d (Device.repairLane e x1 x2 x3 x4 x5) := by
  unfold Device.repairLane
  repeat' with_reducible (first | assumption | (extract_lets +onlyGivenNames zz; first | clear_value zz | skip) | apply Device.retireLink_same | apply Device.retireRecord_same | apply Device.logFault_same | apply Device.setLink_same | split | dsimp only | apply Same.upd)

theorem Device.failedLane_same {bb : Bool} {d : Device} {e : Device} (x1 : Nat) (x2 : Nat) (x3 : Nat) (h : SameB bb d e) :
    SameB bb d (Device.failedLane e x1 x2 x3) := by
  unfold Device.failedLane
  repeat' with_reducible (first | assumption | apply Device.repairLane_same | split | dsimp only | apply Same.upd)

theorem Device.fatalNow_same {bb : Bool} {d : Device} {e : Device} (x1 : Sys2Proof.Machine.FaultPlace) (x2 : Nat) (h : SameB bb d e) :
    SameB bb d (Device.fatalNow e x1 x2) := by
  unfold Device.fatalNow
  repeat' with_reducible (first | assumption | (extract_lets +onlyGivenNames zz; first | (refine (fun (hz : SameB bb d zz) => ?_) ?_; clear_value zz; rotate_left; subst zz) | (have hq : DevCtl := zz; clear hq; subst zz) | clear_value zz | skip) | apply Device.logFault_same | dsimp only | apply Same.upd | apply Same.updDev | exact rfl)

theorem Device.faultFence_same {bb : Bool} {d : Device} {e : Device} (x1 : Nat) (h : SameB bb d e) :
    SameB bb d (Device.faultFence e x1) := by
  unfold Device.faultFence
  repeat' with_reducible (first | assumption | (extract_lets +onlyGivenNames zz; first | (refine (fun (hz : SameB bb d zz) => ?_) ?_; clear_value zz; rotate_left; subst zz) | (have hq : DevCtl := zz; clear hq; subst zz) | clear_value zz | skip) | apply Device.retireRecord_same | split | dsimp only | apply Same.upd | apply Same.updDev | exact rfl)

theorem Device.xonClasses_same {bb : Bool} {d : Device} {e : Device} (h : SameB bb d e) :
    SameB bb d (Device.xonClasses e) := by
  unfold Device.xonClasses
  repeat' with_reducible (first | assumption | (extract_lets +onlyGivenNames zz; first | clear_value zz | skip) | apply Device.setClassSt_same | split | (apply Same.foldl; intro _ _ _) | dsimp only | apply Same.upd)

theorem Device.fcBoundary_same {bb : Bool} {d : Device} {e : Device} (h : SameB bb d e) :
    SameB bb d (Device.fcBoundary e) := by
  unfold Device.fcBoundary
  repeat' with_reducible (first | assumption | (extract_lets +onlyGivenNames zz; first | (refine (fun (hz : SameB bb d zz) => ?_) ?_; clear_value zz; rotate_left; subst zz) | clear_value zz | skip) | apply Device.modPort_same | apply Device.askFc_same | apply Device.xonClasses_same | split | (apply Same.foldl; intro _ _ _) | dsimp only | apply Same.upd)

theorem Device.fenceCharge_same {bb : Bool} {d : Device} {e : Device} (x1 : Sys2Proof.Machine.Copy) (x2 : Nat) (h : SameB bb d e) :
    SameB bb d (Device.fenceCharge e x1 x2) := by
  unfold Device.fenceCharge
  repeat' with_reducible (first | assumption | (extract_lets +onlyGivenNames zz; first | (refine (fun (hz : SameB bb d zz) => ?_) ?_; clear_value zz; rotate_left; subst zz) | clear_value zz | skip) | apply Device.addCharge_same | apply Device.dropCharge_same | apply Device.modCopy_same | split | (apply Same.foldl; intro _ _ _) | dsimp only | apply Same.upd)

theorem Device.fenceStair_same {bb : Bool} {d : Device} {e : Device} (x1 : Sys2Proof.Machine.Flight) (x2 : Nat) (h : SameB bb d e) :
    SameB bb d (Device.fenceStair e x1 x2) := by
  unfold Device.fenceStair
  repeat' with_reducible (first | assumption | (extract_lets +onlyGivenNames zz; first | (refine (fun (hz : SameB bb d zz) => ?_) ?_; clear_value zz; rotate_left; subst zz) | clear_value zz | skip) | apply Device.gainShared_same | apply Device.addCharge_same | apply Device.dropCharge_same | apply Device.setFlight_same | dsimp only | apply Same.upd)

theorem Device.fenceCharges_same {bb : Bool} {d : Device} {e : Device} (h : SameB bb d e) :
    SameB bb d (Device.fenceCharges e) := by
  unfold Device.fenceCharges
  repeat' with_reducible (first | assumption | (extract_lets +onlyGivenNames zz; first | (refine (fun (hz : SameB bb d zz) => ?_) ?_; clear_value zz; rotate_left; subst zz) | clear_value zz | skip) | apply Device.fenceCharge_same | apply Device.fenceStair_same | apply Device.modFrame_same | apply Device.gainShared_same | split | (apply Same.foldl; intro _ _ _) | dsimp only | apply Same.upd)

theorem Device.fenceLoss_same {bb : Bool} {d : Device} {e : Device} (x1 : Sys2Proof.Machine.Copy) (x2 : Sys2Proof.Machine.Frame) (x3 : Nat) (x4 : Bool) (h : SameB bb d e) :
    SameB bb d (Device.fenceLoss e x1 x2 x3 x4) := by
  unfold Device.fenceLoss
  repeat' with_reducible (first | assumption | (extract_lets +onlyGivenNames zz; first | (refine (fun (hz : SameB bb d zz) => ?_) ?_; clear_value zz; rotate_left; subst zz) | skip) | apply Device.loseOne_same | apply Device.loseEgMirrors_same | apply Device.flowCopy_same | split | dsimp only | apply Same.upd)

theorem Device.fenceCopy_same {bb : Bool} {d : Device} {e : Device} (x1 : Sys2Proof.Machine.Copy) (x2 : Nat) (h : SameB bb d e) :
    SameB bb d (Device.fenceCopy e x1 x2) := by
  unfold Device.fenceCopy
  repeat' with_reducible (first | assumption | (extract_lets +onlyGivenNames zz; first | (refine (fun (hz : SameB bb d zz) => ?_) ?_; clear_value zz; rotate_left; subst zz) | clear_value zz | skip) | apply Device.endCopy_same | apply Device.fenceLoss_same | apply Device.modCopy_same | split | dsimp only | apply Same.upd)

theorem Device.fenceCut_same {bb : Bool} {d : Device} {e : Device} (x1 : Sys2Proof.Machine.Copy) (x2 : Nat) (h : SameB bb d e) :
    SameB bb d (Device.fenceCut e x1 x2) := by
  unfold Device.fenceCut
  repeat' with_reducible (first | assumption | apply Device.endCopy_same | apply Device.modCopy_same | apply Device.stopSending_same | apply Device.fenceLoss_same | split | dsimp only | apply Same.upd)

theorem Device.fenceDoneBoundary_same {bb : Bool} {d : Device} {e : Device} (h : SameB bb d e) :
    SameB bb d (Device.fenceDoneBoundary e) := by
  unfold Device.fenceDoneBoundary
  repeat' with_reducible (first | assumption | (extract_lets +onlyGivenNames zz; first | (refine (fun (hz : SameB bb d zz) => ?_) ?_; clear_value zz; rotate_left; subst zz) | (have hq : DevCtl := zz; clear hq; subst zz) | clear_value zz | skip) | apply Device.raise_same | split | (apply Same.foldl; intro _ _ _) | dsimp only | apply Same.upd | apply Same.updDev | exact rfl)

theorem Device.fenceFatal_same {bb : Bool} {d : Device} {e : Device} (h : SameB bb d e) :
    SameB bb d (Device.fenceFatal e) := by
  unfold Device.fenceFatal
  repeat' with_reducible (first | assumption | (extract_lets +onlyGivenNames zz; first | (refine (fun (hz : SameB bb d zz) => ?_) ?_; clear_value zz; rotate_left; subst zz) | clear_value zz | skip) | apply Device.endInterruption_same | apply Device.raise_same | split | dsimp only | apply Same.upd)

theorem Device.fenceFlight_same {bb : Bool} {d : Device} {e : Device} (x1 : Sys2Proof.Machine.Flight) (h : SameB bb d e) :
    SameB bb d (Device.fenceFlight e x1) := by
  unfold Device.fenceFlight
  repeat' with_reducible (first | assumption | (extract_lets +onlyGivenNames zz; first | (refine (fun (hz : SameB bb d zz) => ?_) ?_; clear_value zz; rotate_left; subst zz) | skip) | apply Device.endFlight_same | apply Device.loseOne_same | apply Device.flowOfFlight_same | apply Device.freeStair_same | apply Device.flowFinish_same | apply Device.releaseFrame_same | split | dsimp only | apply Same.upd)

theorem Device.fenceFrame_same {bb : Bool} {d : Device} {e : Device} (x1 : Nat) (h : SameB bb d e) :
    SameB bb d (Device.fenceFrame e x1) := by
  unfold Device.fenceFrame
  repeat' with_reducible (first | assumption | (extract_lets +onlyGivenNames zz; first | (refine (fun (hz : SameB bb d zz) => ?_) ?_; clear_value zz; rotate_left; subst zz) | skip) | apply Device.endReceiving_same | apply Device.setFrame_same | apply Device.settleEnd_same | apply Device.countEnq_same | split | dsimp only | apply Same.upd)

theorem Device.idleLanes_same {bb : Bool} {d : Device} {e : Device} (x1 : Nat) (h : SameB bb d e) :
    SameB bb d (Device.idleLanes e x1) := by
  unfold Device.idleLanes
  repeat' with_reducible (first | assumption | (extract_lets +onlyGivenNames zz; first | clear_value zz | skip) | apply Device.laneTo_same | split | (apply Same.foldl; intro _ _ _) | dsimp only | apply Same.upd)

theorem Device.fencePort_same {bb : Bool} {d : Device} {e : Device} (x1 : Nat) (h : SameB bb d e) :
    SameB bb d (Device.fencePort e x1) := by
  unfold Device.fencePort
  repeat' with_reducible (first | assumption | (extract_lets +onlyGivenNames zz; first | (refine (fun (hz : SameB bb d zz) => ?_) ?_; clear_value zz; rotate_left; subst zz) | clear_value zz | skip) | apply Device.uncharge_same | apply Device.laneTo_same | apply Device.settleFault_same | apply Device.modBring_same | apply Device.modPort_same | apply Device.fenceFrame_same | apply Device.showPort_same | split | (apply Same.foldl; intro _ _ _) | dsimp only | apply Same.upd)

theorem Device.fenceSending_same {bb : Bool} {d : Device} {e : Device} (x1 : Nat) (x2 : List Nat) (h : SameB bb d e) :
    SameB bb d (Device.fenceSending e x1 x2) := by
  unfold Device.fenceSending
  repeat' with_reducible (first | assumption | (extract_lets +onlyGivenNames zz; first | clear_value zz | skip) | apply Device.fenceCut_same | apply Device.stompOut_same | split | (apply Same.foldl; intro _ _ _) | dsimp only | apply Same.upd)

theorem Device.fenceOne_same {bb : Bool} {d : Device} {e : Device} (x1 : Nat) (h : SameB bb d e) :
    SameB bb d (Device.fenceOne e x1) := by
  unfold Device.fenceOne
  repeat' with_reducible (first | assumption | (extract_lets +onlyGivenNames zz; first | (refine (fun (hz : SameB bb d zz) => ?_) ?_; clear_value zz; rotate_left; subst zz) | clear_value zz | skip) | apply Device.idleLanes_same | apply Device.fencePort_same | apply Device.fenceFrame_same | apply Device.fenceSending_same | apply Device.setLink_same | apply Device.releaseFrame_same | apply Device.disableGroup_same | apply Device.dropAsks_same | apply Device.fenceFlight_same | split | (apply Same.foldl; intro _ _ _) | dsimp only | apply Same.upd)

theorem Device.fenceTrap_same {bb : Bool} {d : Device} {e : Device} (x1 : Sys2Proof.Machine.TrapPkt) (h : SameB bb d e) :
    SameB bb d (Device.fenceTrap e x1) := by
  unfold Device.fenceTrap
  repeat' with_reducible (first | assumption | (extract_lets +onlyGivenNames zz; first | (refine (fun (hz : SameB bb d zz) => ?_) ?_; clear_value zz; rotate_left; subst zz) | clear_value zz | skip) | apply Device.loseOne_same | apply Device.flowFinish_same | apply Device.releaseFrame_same | split | dsimp only | apply Same.upd)

theorem Device.fillHeld_same {bb : Bool} {d : Device} {e : Device} (x1 : Nat) (h : SameB bb d e) :
    SameB bb d (Device.fillHeld e x1) := by
  unfold Device.fillHeld
  repeat' with_reducible (first | assumption | apply Device.ringDone_same | apply Device.modRing_same | dsimp only | apply Same.upd)

theorem Device.findOrder_same {bb : Bool} {d : Device} {e : Device} (x1 : Nat) (x2 : Bool) (h : SameB bb d e) :
    SameB bb d (Device.findOrder e x1 x2) := by
  unfold Device.findOrder
  repeat' with_reducible (first | assumption | (extract_lets +onlyGivenNames zz; first | clear_value zz | skip) | apply Device.settleFault_same | apply Device.modLane_same | split | dsimp only | apply Same.upd)

theorem Device.flowBilletsFree_same {bb : Bool} {d : Device} {e : Device} (h : SameB bb d e) :
    SameB bb d (Device.flowBilletsFree e) := by
  unfold Device.flowBilletsFree
  repeat' with_reducible (first | assumption | (extract_lets +onlyGivenNames zz; first | clear_value zz | skip) | apply Device.freeBillet_same | (apply Same.foldl; intro _ _ _) | dsimp only | apply Same.upd)

theorem Device.flowBilletsTake_same {bb : Bool} {d : Device} {e : Device} (h : SameB bb d e) :
    SameB bb d (Device.flowBilletsTake e) := by
  unfold Device.flowBilletsTake
  repeat' with_reducible (first | assumption | apply Device.bulkAsk_same | split | dsimp only | apply Same.upd)

theorem Device.flowResize_same {bb : Bool} {d : Device} {e : Device} (x1 : Nat) (x2 : Nat) (h : SameB bb d e) :
    SameB bb d (Device.flowResize e x1 x2) := by
  unfold Device.flowResize
  repeat' with_reducible (first | assumption | (extract_lets +onlyGivenNames zz; first | (refine (fun (hz : SameB bb d zz) => ?_) ?_; clear_value zz; rotate_left; subst zz) | clear_value zz | skip) | apply Device.bucketUpd_same | apply Device.countN_same | apply Device.flowBilletsTake_same | split | (apply Same.foldl; intro _ _ _) | dsimp only | apply Same.upd)

theorem Device.forget_same {bb : Bool} {d : Device} {e : Device} (x1 : Sys2Proof.Machine.FaultPlace) (h : SameB bb d e) :
    SameB bb d (Device.forget e x1) := by
  unfold Device.forget
  repeat' with_reducible (first | assumption | (extract_lets +onlyGivenNames zz; first | clear_value zz | skip) | dsimp only | apply Same.upd)

theorem Device.formBoundary_same {bb : Bool} {d : Device} {e : Device} (h : SameB bb d e) :
    SameB bb d (Device.formBoundary e) := by
  unfold Device.formBoundary
  repeat' with_reducible (first | assumption | apply Device.formNext_same | (apply Same.foldl; intro _ _ _) | dsimp only | apply Same.upd)

theorem Device.nameH0_same {bb : Bool} {d : Device} {e : Device} (x1 : Nat) (x2 : Nat) (x3 : Nat) (h : SameB bb d e) :
    SameB bb d (Device.nameH0 e x1 x2 x3) := by
  unfold Device.nameH0
  repeat' with_reducible (first | assumption | (extract_lets +onlyGivenNames zz; first | clear_value zz | skip) | split | dsimp only | apply Same.upd)

theorem Device.keepPdelay_same {bb : Bool} {d : Device} {e : Device} (x1 : Nat) (h : SameB bb d e) :
    SameB bb d (Device.keepPdelay e x1) := by
  unfold Device.keepPdelay
  repeat' with_reducible (first | assumption | apply Device.releaseFrame_same | apply Device.setFrame_same | apply Device.endFlight_same | split | dsimp only | apply Same.upd)

theorem Device.parseStep_same {bb : Bool} {d : Device} {e : Device} (x1 : Nat) (h : SameB bb d e) :
    SameB bb d (Device.parseStep e x1) := by
  unfold Device.parseStep
  repeat' with_reducible (first | assumption | (extract_lets +onlyGivenNames zz; first | (refine (fun (hz : SameB bb d zz) => ?_) ?_; clear_value zz; rotate_left; subst zz) | clear_value zz | skip) | apply Device.count_same | apply Device.setFlight_same | apply Device.setFrame_same | apply Device.countMany_same | apply Device.modFrame_same | apply Device.nameH0_same | apply Device.keepPdelay_same | split | dsimp only | apply Same.upd)

theorem Device.readFrame_same {bb : Bool} {d : Device} {e : Device} (x1 : Nat) (h : SameB bb d e) :
    SameB bb d (Device.readFrame e x1) := by
  unfold Device.readFrame
  repeat' with_reducible (first | assumption | apply Device.readCells_same | (apply Same.foldl; intro _ _ _) | dsimp only | apply Same.upd)

theorem Device.stairCell_same {bb : Bool} {d : Device} {e : Device} (x1 : Sys2Proof.Machine.Flight) (x2 : Nat) (h : SameB bb d e) :
    SameP bb d (·.1) (Device.stairCell e x1 x2) := by
  unfold Device.stairCell
  repeat' with_reducible (first | assumption | (extract_lets +onlyGivenNames zz; first | (refine (fun (hz : SameB bb d zz) => ?_) ?_; clear_value zz; rotate_left; subst zz) | clear_value zz | skip) | apply Device.addCharge_same | split | exact SameP.ofNone | apply SameP.ofSome | (apply Same.snd2 (by assumption)) | (apply Same.snd (by assumption)) | (apply Same.fst (by assumption)) | (apply SameO.get (by assumption)) | (apply SameP.get2 (by assumption)) | (apply SameP.get1 (by assumption)) | dsimp only | apply Same.upd)

theorem Device.stairCells_same {bb : Bool} {d : Device} {e : Device} (x1 : Sys2Proof.Machine.Flight) (x2 : Nat) (x3 : Nat) (h : SameB bb d e) :
    SameB bb d (Device.stairCells e x1 x2 x3) := by
  induction x3 generalizing e x1 x2 with
  | zero =>
    unfold Device.stairCells
    repeat' with_reducible (first | assumption | apply Device.setFlight_same | apply Device.stairCell_same | apply Device.dropFlight_same | apply Device.count_same | split | (apply Same.snd2 (by assumption)) | (apply Same.snd (by assumption)) | (apply Same.fst (by assumption)) | (apply SameO.get (by assumption)) | (apply SameP.get2 (by assumption)) | (apply SameP.get1 (by assumption)) | dsimp only | apply Same.upd)
  | succ n ih =>
    unfold Device.stairCells
    repeat' with_reducible (first | assumption | apply ih | apply Device.setFlight_same | apply Device.stairCell_same | apply Device.dropFlight_same | apply Device.count_same | split | (apply Same.snd2 (by assumption)) | (apply Same.snd (by assumption)) | (apply Same.fst (by assumption)) | (apply SameO.get (by assumption)) | (apply SameP.get2 (by assumption)) | (apply SameP.get1 (by assumption)) | dsimp only | apply Same.upd)

theorem Device.stairGrow_same {bb : Bool} {d : Device} {e : Device} (x1 : Nat) (h : SameB bb d e) :
    SameB bb d (Device.stairGrow e x1) := by
  unfold Device.stairGrow
  repeat' with_reducible (first | assumption | (extract_lets +onlyGivenNames zz; first | (refine (fun (hz : SameB bb d zz) => ?_) ?_; clear_value zz; rotate_left; subst zz) | clear_value zz | skip) | apply Device.stairCells_same | apply Device.event_same | apply Device.spend_same | apply Device.allocCells_same | split | dsimp only | apply Same.upd)

theorem Device.frameComplete_same {bb : Bool} {d : Device} {e : Device} (x1 : Nat) (h : SameB bb d e) :
    SameB bb d (Device.frameComplete e x1) := by
  unfold Device.frameComplete
  repeat' with_reducible (first | assumption | (extract_lets +onlyGivenNames zz; first | (refine (fun (hz : SameB bb d zz) => ?_) ?_; clear_value zz; rotate_left; subst zz) | clear_value zz | skip) | apply Device.parseStep_same | apply Device.readFrame_same | apply Device.growFrame_same | apply Device.stairGrow_same | apply Device.endMirrors_same | apply Device.settleEnd_same | apply Device.countEnq_same | apply Device.completeChecks_same | apply Device.correctCharge_same | apply Device.releaseFrame_same | split | (apply Same.foldl; intro _ _ _) | dsimp only | apply Same.upd)

theorem Device.freeCells_same {bb : Bool} {d : Device} {e : Device} (x1 : Sys2Proof.Machine.Copy) (h : SameB bb d e) :
    SameB bb d (Device.freeCells e x1) := by
  unfold Device.freeCells
  repeat' with_reducible (first | assumption | (extract_lets +onlyGivenNames zz; first | (refine (fun (hz : SameB bb d zz) => ?_) ?_; clear_value zz; rotate_left; subst zz) | clear_value zz | skip) | apply Device.modCopy_same | apply Device.setFrame_same | split | dsimp only | apply Same.upd)

theorem Device.freeRow_same {bb : Bool} {d : Device} {e : Device} (x1 : Nat) (x2 : Nat) (h : SameB bb d e) :
    SameB bb d (Device.freeRow e x1 x2) := by
  unfold Device.freeRow
  repeat' with_reducible (first | assumption | (extract_lets +onlyGivenNames zz; first | clear_value zz | skip) | apply Device.setPoolRow_same | split | (apply Same.foldl; intro _ _ _) | dsimp only | apply Same.upd)

theorem Device.rebuildTake_same {bb : Bool} {d : Device} {e : Device} (h : SameB bb d e) :
    SameB bb d (Device.rebuildTake e) := by
  unfold Device.rebuildTake
  repeat' with_reducible (first | assumption | (extract_lets +onlyGivenNames zz; first | (refine (fun (hz : SameB bb d zz) => ?_) ?_; clear_value zz; rotate_left; subst zz) | (have hq : GenUnit := zz; clear hq; subst zz) | clear_value zz | skip) | apply Device.free_same | apply Device.spend_same | split | (apply Same.snd2 (by assumption)) | (apply Same.snd (by assumption)) | (apply Same.fst (by assumption)) | dsimp only | apply Same.upd | apply Same.updDev | apply Same.updStroke | apply Same.updGen | apply Same.updProf | apply Same.updBoot | exact rfl)

theorem Device.genBoundary_same {bb : Bool} {d : Device} {e : Device} (h : SameB bb d e) :
    SameB bb d (Device.genBoundary e) := by
  unfold Device.genBoundary
  repeat' with_reducible (first | assumption | (extract_lets +onlyGivenNames zz; first | (refine (fun (hz : SameB bb d zz) => ?_) ?_; clear_value zz; rotate_left; subst zz) | (have hq : GenUnit := zz; clear hq; subst zz) | clear_value zz | skip) | apply Device.rebuildTake_same | split | dsimp only | apply Same.upd | apply Same.updGen | exact rfl)

theorem Device.genNotice_same {bb : Bool} {d : Device} {e : Device} (x1 : Sys2Proof.Machine.GenState) (h : SameB bb d e) :
    SameB bb d (Device.genNotice e x1) := by
  unfold Device.genNotice
  repeat' with_reducible (first | assumption | (extract_lets +onlyGivenNames zz; first | (have hq : GenUnit := zz; clear hq; subst zz) | clear_value zz | skip) | apply Device.postWrite_same | apply Device.markSet_same | apply Device.signal_same | split | (apply SameO.get (by assumption)) | dsimp only | apply Same.upd | apply Same.updGen | exact rfl)

theorem Device.hallRelease_same {bb : Bool} {d : Device} {e : Device} (h : SameB bb d e) :
    SameB bb d (Device.hallRelease e) := by
  unfold Device.hallRelease
  repeat' with_reducible (first | assumption | (extract_lets +onlyGivenNames zz; first | (refine (fun (hz : SameB bb d zz) => ?_) ?_; clear_value zz; rotate_left; subst zz) | clear_value zz | skip) | apply Device.dropCharge_same | apply Device.gainShared_same | (apply Same.foldl; intro _ _ _) | dsimp only | apply Same.upd)

theorem Device.hdrmReserve_same {bb : Bool} {d : Device} {e : Device} (x1 : Nat) (x2 : Nat) (x3 : Bool) (h : SameB bb d e) :
    SameB bb d (Device.hdrmReserve e x1 x2 x3).1 := by
  unfold Device.hdrmReserve
  try dsimp only
  repeat' with_reducible (first | assumption | apply Device.modPort_same | split | (apply Same.snd2 (by assumption)) | (apply Same.snd (by assumption)) | (apply Same.fst (by assumption)) | dsimp only | apply Same.upd)

theorem Device.hdrmPort_same {bb : Bool} {d : Device} {e : Device} (x1 : Nat) (h : SameB bb d e) :
    SameB bb d (Device.hdrmPort e x1) := by
  unfold Device.hdrmPort
  extract_lets n d1 k d2 r
  have h1 : SameB bb d d1 := Device.modPort_same _ _ h
  have h2 : SameB bb d d2 := Same.foldl _ (fun e x k => Device.setFld_same _ _ _ k) h1
  have h3 : SameB bb d r.1 := by
    have : ∀ (l : List Nat) (b : Device × Bool), SameB bb d b.1 →
        SameB bb d (l.foldl (fun r c => ((r.1.hdrmReserve x1 c n).1, r.2 || (r.1.hdrmReserve x1 c n).2)) b).1 := by
      intro l
      induction l with
      | nil => exact fun _ h => h
      | cons a t ih => exact fun b hb => ih _ (Device.hdrmReserve_same _ _ _ hb)
    exact this _ _ h2
  exact Device.modPort_same _ _ h3

theorem Device.hdrmBoundary_same {bb : Bool} {d : Device} {e : Device} (h : SameB bb d e) :
    SameB bb d (Device.hdrmBoundary e) := by
  unfold Device.hdrmBoundary
  repeat' with_reducible (first | assumption | (extract_lets +onlyGivenNames zz; first | (refine (fun (hz : SameB bb d zz) => ?_) ?_; clear_value zz; rotate_left; subst zz) | clear_value zz | skip) | apply Device.hdrmPort_same | apply Device.raise_same | split | (apply Same.foldl; intro _ _ _) | dsimp only | apply Same.upd)

theorem Device.headPost_same {bb : Bool} {d : Device} {e : Device} (x1 : Nat) (h : SameB bb d e) :
    SameB bb d (Device.headPost e x1) := by
  unfold Device.headPost
  repeat' with_reducible (first | assumption | (extract_lets +onlyGivenNames zz; first | clear_value zz | skip) | apply Device.postWrite_same | apply Device.dmaEvent_same | apply Device.spend_same | apply Device.haltAt_same | split | (apply SameO.get (by assumption)) | dsimp only | apply Same.upd)

theorem Device.headWrite_same {bb : Bool} {d : Device} {e : Device} (x1 : Nat) (h : SameB bb d e) :
    SameB bb d (Device.headWrite e x1) := by
  unfold Device.headWrite
  repeat' with_reducible (first | assumption | (extract_lets +onlyGivenNames zz; first | (refine (fun (hz : SameB bb d zz) => ?_) ?_; clear_value zz; rotate_left; subst zz) | clear_value zz | skip) | apply Device.mustWait_same | apply Device.headPost_same | apply Device.signal_same | apply Device.modRing_same | split | dsimp only | apply Same.upd)

theorem Device.heldFails_same {bb : Bool} {d : Device} {e : Device} (x1 : Nat) (x2 : Nat) (x3 : Nat) (h : SameB bb d e) :
    SameB bb d (Device.heldFails e x1 x2 x3) := by
  unfold Device.heldFails
  repeat' with_reducible (first | assumption | apply Device.haltAt_same | apply Device.modRing_same | dsimp only | apply Same.upd)

theorem Device.stopRing_same {bb : Bool} {d : Device} {e : Device} (x1 : Nat) (h : SameB bb d e) :
    SameB bb d (Device.stopRing e x1) := by
  unfold Device.stopRing
  repeat' with_reducible (first | assumption | apply Device.modRing_same | apply Device.ringIdle_same | dsimp only | apply Same.upd)

theorem Device.stopRings_same {bb : Bool} {d : Device} {e : Device} (h : SameB bb d e) :
    SameB bb d (Device.stopRings e) := by
  unfold Device.stopRings
  repeat' with_reducible (first | assumption | apply Device.stopRing_same | (apply Same.foldl; intro _ _ _) | dsimp only | apply Same.upd)

theorem Device.hostReset_same {bb : Bool} {d : Device} {e : Device} (h : SameB bb d e) :
    SameB bb d (Device.hostReset e) := by
  unfold Device.hostReset
  repeat' with_reducible (first | assumption | apply Device.failDownload_same | apply Device.clearHost_same | apply Device.stopRings_same | dsimp only | apply Same.upd)

theorem busWrite_same {d : Device} {e : Device} (x1 : Sys2Proof.Source) (x2 : Nat) (x3 : Nat) (x4 : Sys2Proof.Word) (h : SameB false d e) :
    SameB false d (busWrite e x1 x2 x3 x4) := by
  unfold busWrite
  repeat' with_reducible (first | assumption | apply Device.err_same | apply Device.writeReg_same | split | dsimp only | apply Same.upd)

theorem Device.inTurn_same {d : Device} {e : Device} (x1 : Source) (x2 : Nat) (x3 : Nat) (x4 : Word) (x5 : Device → Device)
    (h : SameB false d e) (hf : ∀ e, SameB false d e → SameB false d (x5 e)) :
    SameB false d (Device.inTurn e x1 x2 x3 x4 x5) := by
  unfold Device.inTurn
  extract_lets after relock was f1 d1 f2 d2 d3 acc
  have k1 : SameB false d d1 := hf _ (Same.ite (Same.upd h) h)
  clear_value d1
  have k2 : SameB false d d2 := Same.ite (Same.upd k1) k1
  clear_value d2
  have k3 : SameB false d d3 := Same.foldl _ (fun e x k => busWrite_same _ _ _ _ k) k2
  clear_value d3
  exact Same.upd k3

theorem Device.injBoundary_same {bb : Bool} {d : Device} {e : Device} (h : SameB bb d e) :
    SameB bb d (Device.injBoundary e) := by
  unfold Device.injBoundary
  repeat' with_reducible (first | assumption | apply Device.modLane_same | apply Device.inject_same | split | (apply Same.foldl; intro _ _ _) | dsimp only | apply Same.upd)

theorem Device.jtagLoad_same {bb : Bool} {d : Device} {e : Device} (x1 : Sys2Proof.Machine.JtagInstr) (x2 : Nat) (h : SameB bb d e) :
    SameB bb d (Device.jtagLoad e x1 x2) := by
  unfold Device.jtagLoad
  repeat' with_reducible (first | assumption | (extract_lets +onlyGivenNames zz; first | clear_value zz | skip) | split | dsimp only | apply Same.upd)

theorem Device.ladderFlip_same {bb : Bool} {d : Device} {e : Device} (x1 : Nat) (h : SameB bb d e) :
    SameB bb d (Device.ladderFlip e x1) := by
  unfold Device.ladderFlip
  repeat' with_reducible (first | assumption | (extract_lets +onlyGivenNames zz; first | (refine (fun (hz : SameB bb d zz) => ?_) ?_; clear_value zz; rotate_left; subst zz) | clear_value zz | skip) | apply Device.ladderApply_same | apply Device.raise_same | split | dsimp only | apply Same.upd)

theorem Device.setServes_same {bb : Bool} {d : Device} {e : Device} (x1 : Nat) (x2 : Nat) (x3 : Nat) (x4 : Bool) (h : SameB bb d e) :
    SameB bb d (Device.setServes e x1 x2 x3 x4) := by
  unfold Device.setServes
  repeat' with_reducible (first | assumption | (extract_lets +onlyGivenNames zz; first | clear_value zz | skip) | apply Device.setGroup_same | split | dsimp only | apply Same.upd)

theorem Device.lateContrib_same {bb : Bool} {d : Device} {e : Device} (x1 : Nat) (x2 : Sys2Proof.Machine.Copy) (x3 : Sys2Proof.Machine.Frame) (x4 : Nat) (x5 : Sys2Proof.Machine.RedMsg) (x6 : Bool) (h : SameB bb d e) :
    SameB bb d (Device.lateContrib e x1 x2 x3 x4 x5 x6) := by
  unfold Device.lateContrib
  repeat' with_reducible (first | assumption | (extract_lets +onlyGivenNames zz; first | (refine (fun (hz : SameB bb d zz) => ?_) ?_; clear_value zz; rotate_left; subst zz) | clear_value zz | skip) | apply Device.dropMsg_same | apply Device.count_same | apply Device.inPieces_same | apply Device.setServes_same | apply Device.event_same | apply Device.injectMsg_same | split | (apply Same.snd2 (by assumption)) | (apply Same.snd (by assumption)) | (apply Same.fst (by assumption)) | dsimp only | apply Same.upd)

theorem Device.learnDo_same {bb : Bool} {d : Device} {e : Device} (x1 : Sys2Proof.Machine.LearnFate) (x2 : Sys2Proof.Machine.LearnEvent) (h : SameB bb d e) :
    SameB bb d (Device.learnDo e x1 x2) := by
  unfold Device.learnDo
  repeat' with_reducible (first | assumption | (extract_lets +onlyGivenNames zz; first | (refine (fun (hz : SameB bb d zz) => ?_) ?_; clear_value zz; rotate_left; subst zz) | clear_value zz | skip) | apply Device.count_same | apply Device.notifyEntry_same | apply Device.setPoolRow_same | apply Device.countMoves_same | apply Device.event_same | apply Device.raise_same | split | dsimp only | apply Same.upd)

theorem Device.ledgerExport_same {bb : Bool} {d : Device} {e : Device} (x1 : List (Nat × Nat)) (h : SameB bb d e) :
    SameB bb d (Device.ledgerExport e x1) := by
  induction x1 generalizing e with
  | nil =>
    unfold Device.ledgerExport
    repeat' with_reducible (first | assumption | (extract_lets +onlyGivenNames zz; first | (refine (fun (hz : SameB bb d zz) => ?_) ?_; clear_value zz; rotate_left; subst zz) | clear_value zz | skip) | apply Device.spend_same | apply Device.ledgerWrite_same | apply Device.mustWait_same | split | dsimp only | apply Same.upd)
  | cons a t ih =>
    unfold Device.ledgerExport
    repeat' with_reducible (first | assumption | apply ih | (extract_lets +onlyGivenNames zz; first | (refine (fun (hz : SameB bb d zz) => ?_) ?_; clear_value zz; rotate_left; subst zz) | clear_value zz | skip) | apply Device.spend_same | apply Device.ledgerWrite_same | apply Device.mustWait_same | split | dsimp only | apply Same.upd)

theorem Device.ledgerStore_same {bb : Bool} {d : Device} {e : Device} (x1 : Nat) (x2 : Sys2Proof.Bytes) (h : SameB bb d e) :
    SameB bb d (Device.ledgerStore e x1 x2) := by
  unfold Device.ledgerStore
  try dsimp only
  repeat' with_reducible (first | assumption | apply Device.free_same | apply Device.ledgerExport_same | split | (apply Same.snd2 (by assumption)) | (apply Same.snd (by assumption)) | (apply Same.fst (by assumption)) | dsimp only | apply Same.upd)

theorem Device.ledgerAgain_same {bb : Bool} {d : Device} {e : Device} (x1 : Nat) (x2 : Nat) (h : SameB bb d e) :
    SameB bb d (Device.ledgerAgain e x1 x2) := by
  unfold Device.ledgerAgain
  repeat' with_reducible (first | assumption | (extract_lets +onlyGivenNames zz; first | (refine (fun (hz : SameB bb d zz) => ?_) ?_; clear_value zz; rotate_left; subst zz) | clear_value zz | skip) | apply Device.ledgerStore_same | split | dsimp only | apply Same.upd)

theorem Device.ledgerPut_same {bb : Bool} {d : Device} {e : Device} (x1 : Nat) (x2 : Sys2Proof.Bytes) (h : SameB bb d e) :
    SameB bb d (Device.ledgerPut e x1 x2) := by
  unfold Device.ledgerPut
  repeat' with_reducible (first | assumption | (extract_lets +onlyGivenNames zz; first | (refine (fun (hz : SameB bb d zz) => ?_) ?_; clear_value zz; rotate_left; subst zz) | clear_value zz | skip) | apply Device.raise_same | apply Device.event_same | apply Device.ledgerStore_same | apply Device.spend_same | apply Device.mustWait_same | split | dsimp only | apply Same.upd)

theorem Device.ledgerBoundary_same {bb : Bool} {d : Device} {e : Device} (h : SameB bb d e) :
    SameB bb d (Device.ledgerBoundary e) := by
  unfold Device.ledgerBoundary
  repeat' with_reducible (first | assumption | (extract_lets +onlyGivenNames zz; first | (refine (fun (hz : SameB bb d zz) => ?_) ?_; clear_value zz; rotate_left; subst zz) | clear_value zz | skip) | apply Device.ledgerPut_same | apply Device.ledgerExport_same | (apply Same.foldl; intro _ _ _) | dsimp only | apply Same.upd)

theorem Device.ledgerLost_same {bb : Bool} {d : Device} {e : Device} (h : SameB bb d e) :
    SameB bb d (Device.ledgerLost e) := by
  unfold Device.ledgerLost
  repeat' with_reducible (first | assumption | apply Device.countSat_same | dsimp only | apply Same.upd)

theorem Device.ledgerMake_same {bb : Bool} {d : Device} {e : Device} (x1 : Nat) (x2 : Nat) (h : SameB bb d e) :
    SameB bb d (Device.ledgerMake e x1 x2) := by
  unfold Device.ledgerMake
  repeat' with_reducible (first | assumption | (extract_lets +onlyGivenNames zz; first | (refine (fun (hz : SameB bb d zz) => ?_) ?_; clear_value zz; rotate_left; subst zz) | clear_value zz | skip) | apply Device.ledgerLost_same | apply Device.countSat_same | apply Device.ledgerPut_same | split | dsimp only | apply Same.upd)

theorem Device.ledgerTake_same {bb : Bool} {d : Device} {e : Device} (h : SameB bb d e) :
    SameB bb d (Device.ledgerTake e) := by
  unfold Device.ledgerTake
  repeat' with_reducible (first | assumption | (extract_lets +onlyGivenNames zz; first | clear_value zz | skip) | apply Device.bulkAsk_same | split | dsimp only | apply Same.upd)

theorem Device.lhPermanent_same {bb : Bool} {d : Device} {e : Device} (x1 : Sys2Proof.Machine.FaultPlace) (x2 : Nat) (x3 : Nat) (x4 : Bool) (h : SameB bb d e) :
    SameB bb d (Device.lhPermanent e x1 x2 x3 x4) := by
  unfold Device.lhPermanent
  repeat' with_reducible (first | assumption | (extract_lets +onlyGivenNames zz; first | (refine (fun (hz : SameB bb d zz) => ?_) ?_; clear_value zz; rotate_left; subst zz) | clear_value zz | skip) | apply Device.forget_same | apply Device.retireRecord_same | apply Device.logFault_same | apply Device.count_same | apply Device.fatalNow_same | split | dsimp only | apply Same.upd)

theorem Device.lhFailed_same {bb : Bool} {d : Device} {e : Device} (x1 : Sys2Proof.Machine.FaultPlace) (x2 : Nat) (h : SameB bb d e) :
    SameB bb d (Device.lhFailed e x1 x2) := by
  unfold Device.lhFailed
  repeat' with_reducible (first | assumption | apply Device.free_same | apply Device.lhPermanent_same | split | (apply Same.snd2 (by assumption)) | (apply Same.snd (by assumption)) | (apply Same.fst (by assumption)) | dsimp only | apply Same.upd)

theorem Device.lhIssue_same {bb : Bool} {d : Device} {e : Device} (x1 : Nat) (x2 : Nat) (x3 : Nat) (x4 : Nat) (x5 : Bool) (h : SameB bb d e) :
    SameB bb d (Device.lhIssue e x1 x2 x3 x4 x5) := by
  unfold Device.lhIssue
  repeat' with_reducible (first | assumption | apply Device.seqFault_same | apply Device.seqFlow_same | apply Device.modSeq_same | split | dsimp only | apply Same.upd)

theorem Device.lhLoad_same {bb : Bool} {d : Device} {e : Device} (x1 : Nat) (h : SameB bb d e) :
    SameB bb d (Device.lhLoad e x1).2 := by
  unfold Device.lhLoad
  repeat' with_reducible (first | assumption | apply Device.free_same | split | (apply Same.snd2 (by assumption)) | (apply Same.snd (by assumption)) | (apply Same.fst (by assumption)) | dsimp only | apply Same.upd)

theorem Device.lhStore_same {bb : Bool} {d : Device} {e : Device} (x1 : Nat) (x2 : Nat) (h : SameB bb d e) :
    SameB bb d (Device.lhStore e x1 x2) := by
  unfold Device.lhStore
  repeat' with_reducible (first | assumption | (extract_lets +onlyGivenNames zz; first | clear_value zz | skip) | split | dsimp only | apply Same.upd)

theorem Device.lhMove_same {bb : Bool} {d : Device} {e : Device} (x1 : Nat) (x2 : Sys2Proof.Machine.SeqLh) (x3 : Nat) (h : SameB bb d e) :
    SameB bb d (Device.lhMove e x1 x2 x3) := by
  unfold Device.lhMove
  repeat' with_reducible (first | assumption | apply Device.lhLoad_same | apply Device.modSeq_same | apply Device.free_same | apply Device.lhStore_same | split | (apply Same.snd2 (by assumption)) | (apply Same.snd (by assumption)) | (apply Same.fst (by assumption)) | dsimp only | apply Same.upd)

theorem Device.linkSpilled_same {bb : Bool} {d : Device} {e : Device} (x1 : Nat) (x2 : Nat) (h : SameB bb d e) :
    SameB bb d (Device.linkSpilled e x1 x2) := by
  unfold Device.linkSpilled
  repeat' with_reducible (first | assumption | apply Device.modCopy_same | split | dsimp only | apply Same.upd)

theorem Device.loadEnds_same {bb : Bool} {d : Device} {e : Device} (x1 : Nat) (x2 : Nat) (x3 : Sys2Proof.Machine.SeqBank) (h : SameB bb d e) :
    SameB bb d (Device.loadEnds e x1 x2 x3) := by
  unfold Device.loadEnds
  repeat' with_reducible (first | assumption | (extract_lets +onlyGivenNames zz; first | (refine (fun (hz : SameB bb d zz) => ?_) ?_; clear_value zz; rotate_left; subst zz) | clear_value zz | skip) | apply Device.modSeq_same | apply Device.modRole_same | apply Device.raise_same | split | (apply Same.foldl; intro _ _ _) | dsimp only | apply Same.upd)

theorem Device.meanOf_same {bb : Bool} {d : Device} {e : Device} (x1 : List Int) (h : SameB bb d e) :
    SameB bb d (Device.meanOf e x1).2 := by
  unfold Device.meanOf
  repeat' with_reducible (first | assumption | apply Device.roundDiv_same | dsimp only | apply Same.upd)

theorem Device.setTsu_same {bb : Bool} {d : Device} {e : Device} (x1 : Nat) (x2 : Sys2Proof.Machine.TsuSt) (h : SameB bb d e) :
    SameB bb d (Device.setTsu e x1 x2) := by
  unfold Device.setTsu
  repeat' with_reducible (first | assumption | dsimp only | apply Same.upd)

theorem Device.loopSample_same {bb : Bool} {d : Device} {e : Device} (x1 : Nat) (x2 : Int) (x3 : Int) (h : SameB bb d e) :
    SameB bb d (Device.loopSample e x1 x2 x3) := by
  unfold Device.loopSample
  repeat' with_reducible (first | assumption | (extract_lets +onlyGivenNames zz; first | (refine (fun (hz : SameB bb d zz) => ?_) ?_; clear_value zz; rotate_left; subst zz) | clear_value zz | skip) | apply Device.roundDiv_same | apply Device.meanOf_same | apply Device.setTsu_same | apply Device.setReg_same | apply Device.count_same | split | (apply Same.snd2 (by assumption)) | (apply Same.snd (by assumption)) | (apply Same.fst (by assumption)) | dsimp only | apply Same.upd)

theorem Device.lpiBoundary_same {bb : Bool} {d : Device} {e : Device} (h : SameB bb d e) :
    SameB bb d (Device.lpiBoundary e) := by
  unfold Device.lpiBoundary
  repeat' with_reducible (first | assumption | (extract_lets +onlyGivenNames zz; first | (refine (fun (hz : SameB bb d zz) => ?_) ?_; clear_value zz; rotate_left; subst zz) | (refine (fun (hf : ∀ x a b c, SameB bb d x → SameB bb d (zz x a b c)) => ?_) ?_; clear_value zz; rotate_left; subst zz) | (refine (fun (hf : ∀ x a b, SameB bb d x → SameB bb d (zz x a b)) => ?_) ?_; clear_value zz; rotate_left; subst zz) | (refine (fun (hf : ∀ y x, SameB bb d x.d → SameB bb d (zz y x)) => ?_) ?_; clear_value zz; rotate_left; subst zz) | (refine (fun (hf : ∀ x, SameB bb d x.d → SameB bb d (zz x).1.d) => ?_) ?_; clear_value zz; rotate_left; subst zz) | clear_value zz | skip) | apply Device.modPort_same | apply Device.portCount_same | apply hf | split | intro _ | (apply Same.foldl; intro _ _ _) | dsimp only | apply Same.upd)

theorem Device.setStop_same {bb : Bool} {d : Device} {e : Device} (x1 : Nat) (x2 : Nat) (x3 : Nat) (h : SameB bb d e) :
    SameB bb d (Device.setStop e x1 x2 x3) := by
  unfold Device.setStop
  repeat' with_reducible (first | assumption | (extract_lets +onlyGivenNames zz; first | clear_value zz | skip) | apply Device.modPort_same | split | dsimp only | apply Same.upd)

theorem pfcReceive_same {bb : Bool} {d : Device} {e : Device} (x1 : Nat) (x2 : Nat) (x3 : List Nat) (h : SameB bb d e) :
    SameB bb d (pfcReceive e x1 x2 x3) := by
  unfold pfcReceive
  repeat' with_reducible (first | assumption | (extract_lets +onlyGivenNames zz; first | (refine (fun (hz : SameB bb d zz) => ?_) ?_; clear_value zz; rotate_left; subst zz) | skip) | apply Device.portCount_same | apply Device.setStop_same | split | (apply Same.foldl; intro _ _ _) | dsimp only | apply Same.upd)

theorem pauseReceive_same {bb : Bool} {d : Device} {e : Device} (x1 : Nat) (x2 : Nat) (h : SameB bb d e) :
    SameB bb d (pauseReceive e x1 x2) := by
  unfold pauseReceive
  repeat' with_reducible (first | assumption | (extract_lets +onlyGivenNames zz; first | (refine (fun (hz : SameB bb d zz) => ?_) ?_; clear_value zz; rotate_left; subst zz) | skip) | apply Device.portCount_same | apply Device.setStop_same | split | dsimp only | apply Same.upd)

theorem Device.macControl_same {bb : Bool} {d : Device} {e : Device} (x1 : Nat) (x2 : Sys2Proof.Bytes) (h : SameB bb d e) :
    SameB bb d (Device.macControl e x1 x2) := by
  unfold Device.macControl
  repeat' with_reducible (first | assumption | apply pfcReceive_same | apply pauseReceive_same | split | dsimp only | apply Same.upd)

theorem Device.markSaThresh_same {bb : Bool} {d : Device} {e : Device} (x1 : Nat) (x2 : Nat) (h : SameB bb d e) :
    SameB bb d (Device.markSaThresh e x1 x2) := by
  unfold Device.markSaThresh
  repeat' with_reducible (first | assumption | apply Device.markSet_same | split | dsimp only | apply Same.upd)

theorem Device.tokenRefill_same {bb : Bool} {d : Device} {e : Device} (x1 : Nat) (x2 : Nat) (h : SameB bb d e) :
    SameB bb d (Device.tokenRefill e x1 x2).2 := by
  unfold Device.tokenRefill
  repeat' with_reducible (first | assumption | apply Device.roundDiv_same | dsimp only | apply Same.upd)

theorem Device.meterBoundary_same {bb : Bool} {d : Device} {e : Device} (x1 : Nat) (h : SameB bb d e) :
    SameB bb d (Device.meterBoundary e x1) := by
  unfold Device.meterBoundary
  repeat' with_reducible (first | assumption | (extract_lets +onlyGivenNames zz; first | (refine (fun (hz : SameB bb d zz) => ?_) ?_; clear_value zz; rotate_left; subst zz) | (refine (fun (hf : ∀ x a b c, SameB bb d x → SameB bb d (zz x a b c)) => ?_) ?_; clear_value zz; rotate_left; subst zz) | (refine (fun (hf : ∀ x a b, SameB bb d x → SameB bb d (zz x a b)) => ?_) ?_; clear_value zz; rotate_left; subst zz) | (refine (fun (hf : ∀ y x, SameB bb d x.d → SameB bb d (zz y x)) => ?_) ?_; clear_value zz; rotate_left; subst zz) | (refine (fun (hf : ∀ x, SameB bb d x.d → SameB bb d (zz x).1.d) => ?_) ?_; clear_value zz; rotate_left; subst zz) | clear_value zz | skip) | apply Device.tokenRefill_same | apply hf | split | intro _ | (apply Same.foldl; intro _ _ _) | (apply Same.snd2 (by assumption)) | (apply Same.snd (by assumption)) | (apply Same.fst (by assumption)) | dsimp only | apply Same.upd)

theorem Device.minBoundary_same {bb : Bool} {d : Device} {e : Device} (h : SameB bb d e) :
    SameB bb d (Device.minBoundary e) := by
  unfold Device.minBoundary
  repeat' with_reducible (first | assumption | (extract_lets +onlyGivenNames zz; first | clear_value zz | skip) | dsimp only | apply Same.upd)

theorem Device.mirrorBoundary_same {bb : Bool} {d : Device} {e : Device} (h : SameB bb d e) :
    SameB bb d (Device.mirrorBoundary e) := by
  unfold Device.mirrorBoundary
  repeat' with_reducible (first | assumption | (extract_lets +onlyGivenNames zz; first | (refine (fun (hz : SameB bb d zz) => ?_) ?_; clear_value zz; rotate_left; subst zz) | clear_value zz | skip) | apply Device.event_same | apply Device.spend_same | apply Device.releaseFrame_same | apply Device.modFrame_same | split | (apply Same.foldl; intro _ _ _) | dsimp only | apply Same.upd)

theorem Device.nackNow_same {bb : Bool} {d : Device} {e : Device} (x1 : Nat) (x2 : Sys2Proof.Machine.Chunk) (h : SameB bb d e) :
    SameB bb d (Device.nackNow e x1 x2) := by
  unfold Device.nackNow
  repeat' with_reducible (first | assumption | (extract_lets +onlyGivenNames zz; first | (refine (fun (hz : SameB bb d zz) => ?_) ?_; clear_value zz; rotate_left; subst zz) | clear_value zz | skip) | apply Device.abortChunk_same | apply Device.inPieces_same | apply Device.event_same | apply Device.setChunk_same | apply Device.count_same | apply Device.sendMsg_same | split | (apply Same.snd2 (by assumption)) | (apply Same.snd (by assumption)) | (apply Same.fst (by assumption)) | dsimp only | apply Same.upd)

theorem Device.noteFixed_same {bb : Bool} {d : Device} {e : Device} (x1 : Sys2Proof.Machine.FaultPlace) (h : SameB bb d e) :
    SameB bb d (Device.noteFixed e x1) := by
  unfold Device.noteFixed
  repeat' with_reducible (first | assumption | (extract_lets +onlyGivenNames zz; first | clear_value zz | skip) | split | dsimp only | apply Same.upd)

theorem Device.occupancyBoundary_same {bb : Bool} {d : Device} {e : Device} (h : SameB bb d e) :
    SameB bb d (Device.occupancyBoundary e) := by
  unfold Device.occupancyBoundary
  repeat' with_reducible (first | assumption | (extract_lets +onlyGivenNames zz; first | (refine (fun (hz : SameB bb d zz) => ?_) ?_; clear_value zz; rotate_left; subst zz) | clear_value zz | skip) | apply Device.setQueueSt_same | (apply Same.foldl; intro _ _ _) | dsimp only | apply Same.upd)

theorem Device.occurrence_same {bb : Bool} {d : Device} {e : Device} (x1 : Sys2Proof.Machine.FaultPlace) (h : SameB bb d e) :
    SameB bb d (Device.occurrence e x1).2 := by
  unfold Device.occurrence
  repeat' with_reducible (first | assumption | apply Device.track_same | dsimp only | apply Same.upd)

theorem Device.openStair_same {bb : Bool} {d : Device} {e : Device} (x1 : Sys2Proof.Machine.Flight) (x2 : Nat) (h : SameB bb d e) :
    SameB bb d (Device.openStair e x1 x2) := by
  unfold Device.openStair
  repeat' with_reducible (first | assumption | (extract_lets +onlyGivenNames zz; first | (refine (fun (hz : SameB bb d zz) => ?_) ?_; clear_value zz; rotate_left; subst zz) | clear_value zz | skip) | apply Device.dropCharge_same | apply Device.setFlight_same | dsimp only | apply Same.upd)

theorem Device.retireBank_same {bb : Bool} {d : Device} {e : Device} (x1 : Nat) (h : SameB bb d e) :
    SameB bb d (Device.retireBank e x1) := by
  unfold Device.retireBank
  repeat' with_reducible (first | assumption | (extract_lets +onlyGivenNames zz; first | (refine (fun (hz : SameB bb d zz) => ?_) ?_; clear_value zz; rotate_left; subst zz) | clear_value zz | skip) | apply Device.bankStart_same | split | dsimp only | apply Same.upd)

theorem Device.retireHallBank_same {bb : Bool} {d : Device} {e : Device} (x1 : Sys2Proof.Machine.FaultPlace) (x2 : Nat) (x3 : Nat) (h : SameB bb d e) :
    SameB bb d (Device.retireHallBank e x1 x2 x3) := by
  unfold Device.retireHallBank
  repeat' with_reducible (first | assumption | (extract_lets +onlyGivenNames zz; first | (refine (fun (hz : SameB bb d zz) => ?_) ?_; clear_value zz; rotate_left; subst zz) | clear_value zz | skip) | apply Device.logFault_same | apply Device.retireRecord_same | apply Device.retireBank_same | split | dsimp only | apply Same.upd)

theorem Device.outOfService_same {bb : Bool} {d : Device} {e : Device} (x1 : Sys2Proof.Machine.FaultPlace) (x2 : Nat) (x3 : Nat) (h : SameB bb d e) :
    SameB bb d (Device.outOfService e x1 x2 x3) := by
  unfold Device.outOfService
  try dsimp only
  repeat' with_reducible (first | assumption | apply Device.retireHallBank_same | apply Device.retireRecord_same | apply Device.logFault_same | apply Device.faultFence_same | apply Device.storeBad_same | split | dsimp only | apply Same.upd)

theorem Device.oversized_same {bb : Bool} {d : Device} {e : Device} (x1 : Sys2Proof.Machine.Frame) (h : SameB bb d e) :
    SameB bb d (Device.oversized e x1) := by
  unfold Device.oversized
  repeat' with_reducible (first | assumption | apply Device.failFrame_same | apply Device.portCount_same | dsimp only | apply Same.upd)

theorem Device.packRecord_same {bb : Bool} {d : Device} {e : Device} (x1 : Nat) (x2 : Nat) (x3 : Sys2Proof.Bytes) (h : SameB bb d e) :
    SameB bb d (Device.packRecord e x1 x2 x3) := by
  unfold Device.packRecord
  repeat' with_reducible (first | assumption | (extract_lets +onlyGivenNames zz; first | (refine (fun (hz : SameB bb d zz) => ?_) ?_; clear_value zz; rotate_left; subst zz) | clear_value zz | skip) | apply Device.count_same | apply Device.askBillet_same | split | (apply Same.foldl; intro _ _ _) | dsimp only | apply Same.upd)

theorem Device.packDrops_same {bb : Bool} {d : Device} {e : Device} (x1 : List Sys2Proof.Machine.DropRec) (h : SameB bb d e) :
    SameB bb d (Device.packDrops e x1) := by
  induction x1 generalizing e with
  | nil =>
    unfold Device.packDrops
    repeat' with_reducible (first | assumption | (extract_lets +onlyGivenNames zz; first | (refine (fun (hf : ∀ x, SameB bb d x → SameB bb d (zz x)) => ?_) ?_; clear_value zz; rotate_left; subst zz) | clear_value zz | skip) | apply Device.mustWait_same | apply Device.packRecord_same | apply Device.lhMoved_same | apply Device.spend_same | apply hf | split | intro _ | dsimp only | apply Same.upd)
  | cons a t ih =>
    unfold Device.packDrops
    repeat' with_reducible (first | assumption | apply ih | (extract_lets +onlyGivenNames zz; first | (refine (fun (hf : ∀ x, SameB bb d x → SameB bb d (zz x)) => ?_) ?_; clear_value zz; rotate_left; subst zz) | clear_value zz | skip) | apply Device.mustWait_same | apply Device.packRecord_same | apply Device.lhMoved_same | apply Device.spend_same | apply hf | split | intro _ | dsimp only | apply Same.upd)

theorem Device.packOld_same {bb : Bool} {d : Device} {e : Device} (x1 : List (Nat × Sys2Proof.Machine.FlowRec)) (h : SameB bb d e) :
    SameB bb d (Device.packOld e x1) := by
  induction x1 generalizing e with
  | nil =>
    unfold Device.packOld
    repeat' with_reducible (first | assumption | (extract_lets +onlyGivenNames zz; first | (refine (fun (hf : ∀ x, SameB bb d x → SameB bb d (zz x)) => ?_) ?_; clear_value zz; rotate_left; subst zz) | clear_value zz | skip) | apply Device.packRecord_same | apply Device.lhMoved_same | apply Device.spend_same | apply hf | split | intro _ | dsimp only | apply Same.upd)
  | cons a t ih =>
    unfold Device.packOld
    repeat' with_reducible (first | assumption | apply ih | (extract_lets +onlyGivenNames zz; first | (refine (fun (hf : ∀ x, SameB bb d x → SameB bb d (zz x)) => ?_) ?_; clear_value zz; rotate_left; subst zz) | clear_value zz | skip) | apply Device.packRecord_same | apply Device.lhMoved_same | apply Device.spend_same | apply hf | split | intro _ | dsimp only | apply Same.upd)

theorem askQueue_same {bb : Bool} {d : Device} {e : Admits} (x0 : Sys2Proof.Machine.Flight) (x1 : Sys2Proof.Machine.Phv) (x3 : Nat × Sys2Proof.Machine.CopyKind) (h : SameB bb d e.d) :
    SameB bb d (askQueue x0 x1 e x3).d := by
  unfold askQueue
  repeat' with_reducible (first | assumption | (extract_lets +onlyGivenNames zz; first | clear_value zz | skip) | apply Device.admitCopy_same | split | (apply Same.snd2 (by assumption)) | (apply Same.snd (by assumption)) | (apply Same.fst (by assumption)) | (apply Same.fstR (by assumption)) | dsimp only | apply Same.upd)

theorem Device.passAdmit_same {bb : Bool} {d : Device} {e : Device} (x1 : Sys2Proof.Machine.Flight) (x2 : Sys2Proof.Machine.Phv) (x3 : List (Nat × Sys2Proof.Machine.CopyKind)) (h : SameB bb d e) :
    SameB bb d (Device.passAdmit e x1 x2 x3) := by
  unfold Device.passAdmit
  split
  · exact h
  extract_lets r
  have k1 : SameB bb d r.d := by
    have : ∀ (l : List (Nat × CopyKind)) (b : Admits), SameB bb d b.d → SameB bb d (l.foldl (askQueue x1 x2) b).d := by
      intro l
      induction l with
      | nil => exact fun _ h => h
      | cons m t ih => exact fun b hb => ih _ (askQueue_same _ _ _ hb)
    exact this _ _ (Device.openStair_same _ _ h)
  clear_value r
  split
  rename_i d1 own hq
  have k2 : SameB bb d d1 := Same.fst hq (Device.ingressMirrors_same _ _ _ _ k1)
  extract_lets d2 d3
  have k3 : SameB bb d d2 := by
    refine Device.endFlight_same _ ?_
    split
    · exact Device.closeStair_same _ k2
    · exact k2
  clear_value d2
  have k4 : SameB bb d d3 := by
    dsimp only [d3]
    repeat' with_reducible (first | assumption | apply Device.openStair_same | apply Device.releaseFrame_same | apply Device.closeStair_same | apply Device.endFlight_same | apply Device.ingressMirrors_same | apply askQueue_same | apply Device.cutThrough_same | apply Device.flowFinish_same | split | (apply Same.foldl; intro _ _ _) | (apply Same.snd (by assumption)) | (apply Same.fst (by assumption)) | (apply SameO.get (by assumption)) | (apply SameP.get2 (by assumption)) | (apply SameP.get1 (by assumption)) | dsimp only)
  clear_value d3
  exact Same.foldl _ (fun e x k => Device.cutThrough_same _ _ k) k4

theorem Device.passAnvil_same {bb : Bool} {d : Device} {e : Device} (x1 : Sys2Proof.Machine.Flight) (h : SameB bb d e) :
    SameB bb d (Device.passAnvil e x1) := by
  unfold Device.passAnvil
  repeat' with_reducible (first | assumption | (extract_lets +onlyGivenNames zz; first | clear_value zz | skip) | apply Device.formIngress_same | apply Device.passAdmit_same | apply Device.dropFlight_same | apply Device.countBad_same | split | (apply Same.snd2 (by assumption)) | (apply Same.snd (by assumption)) | (apply Same.fst (by assumption)) | dsimp only | apply Same.upd)

theorem Device.passForward_same {bb : Bool} {d : Device} {e : Device} (x1 : Sys2Proof.Machine.Flight) (x2 : Nat) (h : SameB bb d e) :
    SameB bb d (Device.passForward e x1 x2) := by
  unfold Device.passForward
  repeat' with_reducible (first | assumption | apply Device.formIngress_same | apply Device.passAdmit_same | split | (apply Same.snd2 (by assumption)) | (apply Same.snd (by assumption)) | (apply Same.fst (by assumption)) | dsimp only | apply Same.upd)

theorem Device.passReplicate_same {bb : Bool} {d : Device} {e : Device} (x1 : Sys2Proof.Machine.Flight) (x2 : Nat) (x3 : Nat) (h : SameB bb d e) :
    SameB bb d (Device.passReplicate e x1 x2 x3) := by
  unfold Device.passReplicate
  repeat' with_reducible (first | assumption | apply Device.dropFlight_same | apply Device.formIngress_same | apply Device.passAdmit_same | split | (apply Same.snd2 (by assumption)) | (apply Same.snd (by assumption)) | (apply Same.fst (by assumption)) | dsimp only | apply Same.upd)

theorem Device.passTrap_same {bb : Bool} {d : Device} {e : Device} (x1 : Sys2Proof.Machine.Flight) (x2 : Nat) (x3 : Nat) (x4 : Option (Nat × Nat)) (h : SameB bb d e) :
    SameB bb d (Device.passTrap e x1 x2 x3 x4) := by
  unfold Device.passTrap
  repeat' with_reducible (first | assumption | (extract_lets +onlyGivenNames zz; first | (refine (fun (hz : SameB bb d zz) => ?_) ?_; clear_value zz; rotate_left; subst zz) | skip) | apply Device.formIngress_same | apply Device.ingressMirrors_same | apply Device.trapFlight_same | split | (apply Same.snd2 (by assumption)) | (apply Same.snd (by assumption)) | (apply Same.fst (by assumption)) | dsimp only | apply Same.upd)

theorem Device.pdelayFail_same {bb : Bool} {d : Device} {e : Device} (x1 : Nat) (h : SameB bb d e) :
    SameB bb d (Device.pdelayFail e x1) := by
  unfold Device.pdelayFail
  repeat' with_reducible (first | assumption | (extract_lets +onlyGivenNames zz; first | (refine (fun (hz : SameB bb d zz) => ?_) ?_; clear_value zz; rotate_left; subst zz) | clear_value zz | skip) | apply Device.portCount_same | apply Device.modPort_same | split | dsimp only | apply Same.upd)

theorem Device.phaseTime_same {bb : Bool} {d : Device} {e : Device} (x1 : Nat) (x2 : Int) (h : SameB bb d e) :
    SameB bb d (Device.phaseTime e x1 x2).2 := by
  unfold Device.phaseTime
  repeat' with_reducible (first | assumption | apply Device.roundDiv_same | split | (apply Same.snd2 (by assumption)) | (apply Same.snd (by assumption)) | (apply Same.fst (by assumption)) | dsimp only | apply Same.upd)

theorem Device.poisonRow_same {bb : Bool} {d : Device} {e : Device} (x1 : Sys2Proof.Machine.FaultPlace) (h : SameB bb d e) :
    SameB bb d (Device.poisonRow e x1) := by
  unfold Device.poisonRow
  repeat' with_reducible (first | assumption | (extract_lets +onlyGivenNames zz; first | (refine (fun (hz : SameB bb d zz) => ?_) ?_; clear_value zz; rotate_left; subst zz) | clear_value zz | skip) | apply Device.zeroWord_same | (apply Same.foldl; intro _ _ _) | dsimp only | apply Same.upd)

theorem Device.poolSplit_same {bb : Bool} {d : Device} {e : Device} (h : SameB bb d e) :
    SameB bb d (Device.poolSplit e) := by
  unfold Device.poolSplit
  repeat' with_reducible (first | assumption | (extract_lets +onlyGivenNames zz; first | clear_value zz | skip) | split | dsimp only | apply Same.upd)

theorem Device.popRing_same {bb : Bool} {d : Device} {e : Device} (x1 : Nat) (h : SameB bb d e) :
    SameP bb d (·.2) (Device.popRing e x1) := by
  unfold Device.popRing
  repeat' with_reducible (first | assumption | (extract_lets +onlyGivenNames zz; first | clear_value zz | skip) | apply Device.setPool_same | split | exact SameP.ofNone | apply SameP.ofSome | (apply Same.snd2 (by assumption)) | (apply Same.snd (by assumption)) | (apply Same.fst (by assumption)) | (apply SameO.get (by assumption)) | (apply SameP.get2 (by assumption)) | (apply SameP.get1 (by assumption)) | dsimp only | apply Same.upd)

theorem Device.raiseLanes_same {bb : Bool} {d : Device} {e : Device} (x1 : Nat) (h : SameB bb d e) :
    SameB bb d (Device.raiseLanes e x1) := by
  unfold Device.raiseLanes
  repeat' with_reducible (first | assumption | (extract_lets +onlyGivenNames zz; first | (refine (fun (hz : SameB bb d zz) => ?_) ?_; clear_value zz; rotate_left; subst zz) | skip) | apply Device.modBring_same | apply Device.portTo_same | split | dsimp only | apply Same.upd)

theorem Device.portBoundary_same {bb : Bool} {d : Device} {e : Device} (h : SameB bb d e) :
    SameB bb d (Device.portBoundary e) := by
  unfold Device.portBoundary
  repeat' with_reducible (first | assumption | (extract_lets +onlyGivenNames zz; first | (refine (fun (hz : SameB bb d zz) => ?_) ?_; clear_value zz; rotate_left; subst zz) | skip) | apply Device.raiseLanes_same | apply Device.dropPort_same | apply Device.settlePort_same | apply Device.showPort_same | (apply Same.foldl; intro _ _ _) | dsimp only | apply Same.upd)

theorem Device.ppsLower_same {bb : Bool} {d : Device} {e : Device} (x1 : Nat) (h : SameB bb d e) :
    SameB bb d (Device.ppsLower e x1) := by
  unfold Device.ppsLower
  repeat' with_reducible (first | assumption | (extract_lets +onlyGivenNames zz; first | clear_value zz | skip) | apply Device.send_same | split | dsimp only | apply Same.upd)

theorem Device.ppsOffset_same {bb : Bool} {d : Device} {e : Device} (x1 : Nat) (h : SameB bb d e) :
    SameB bb d (Device.ppsOffset e x1).2 := by
  unfold Device.ppsOffset
  repeat' with_reducible (first | assumption | (extract_lets +onlyGivenNames zz; first | clear_value zz | skip) | apply Device.free_same | split | (apply Same.snd2 (by assumption)) | (apply Same.snd (by assumption)) | (apply Same.fst (by assumption)) | dsimp only | apply Same.upd)

theorem Device.ppsRuns_same {bb : Bool} {d : Device} {e : Device} (x1 : Nat) (x2 : Nat) (h : SameB bb d e) :
    SameB bb d (Device.ppsRuns e x1 x2) := by
  unfold Device.ppsRuns
  repeat' with_reducible (first | assumption | (extract_lets +onlyGivenNames zz; first | (refine (fun (hz : SameB bb d zz) => ?_) ?_; clear_value zz; rotate_left; subst zz) | clear_value zz | skip) | apply Device.ppsLower_same | apply Device.send_same | split | dsimp only | apply Same.upd)

theorem Device.profileBoundary_same {bb : Bool} {d : Device} {e : Device} (h : SameB bb d e) :
    SameB bb d (Device.profileBoundary e) := by
  unfold Device.profileBoundary
  repeat' with_reducible (first | assumption | (extract_lets +onlyGivenNames zz; first | (have hq : ProfileUnit := zz; clear hq; subst zz) | clear_value zz | skip) | apply Device.showBusy_same | dsimp only | apply Same.upd | apply Same.updDev | apply Same.updStroke | apply Same.updGen | apply Same.updProf | apply Same.updBoot | exact rfl)

theorem Device.psT_same {bb : Bool} {d : Device} {e : Device} (x1 : Int) (h : SameB bb d e) :
    SameB bb d (Device.psT e x1).2 := by
  unfold Device.psT
  repeat' with_reducible (first | assumption | apply Device.roundDiv_same | dsimp only | apply Same.upd)

theorem Device.ptpCheck_same {bb : Bool} {d : Device} {e : Device} (x1 : Nat) (x2 : Sys2Proof.Bytes) (x3 : Nat) (x4 : Nat) (x5 : Nat) (h : SameB bb d e) :
    SameB bb d (Device.ptpCheck e x1 x2 x3 x4 x5).1 := by
  unfold Device.ptpCheck
  repeat' with_reducible (first | assumption | (extract_lets +onlyGivenNames zz; first | clear_value zz | skip) | apply Device.count_same | split | (apply Same.snd2 (by assumption)) | (apply Same.snd (by assumption)) | (apply Same.fst (by assumption)) | dsimp only | apply Same.upd)

theorem Device.purgeOversize_same {bb : Bool} {d : Device} {e : Device} (x1 : Nat) (x2 : Nat) (h : SameB bb d e) :
    SameB bb d (Device.purgeOversize e x1 x2) := by
  induction x2 generalizing e x1 with
  | zero =>
    unfold Device.purgeOversize
    repeat' with_reducible (first | assumption | apply Device.dropHead_same | split | dsimp only | apply Same.upd)
  | succ n ih =>
    unfold Device.purgeOversize
    repeat' with_reducible (first | assumption | apply ih | apply Device.dropHead_same | split | dsimp only | apply Same.upd)

theorem Device.runParse_same {bb : Bool} {d : Device} {e : Device} (x1 : Nat) (h : SameB bb d e) :
    SameB bb d (Device.runParse e x1) := by
  unfold Device.runParse
  repeat' with_reducible (first | assumption | apply Device.completeChecks_same | apply Device.parseStep_same | dsimp only | apply Same.upd)

theorem Device.pushBytes_same {bb : Bool} {d : Device} {e : Device} (x1 : Nat) (h : SameB bb d e) :
    SameB bb d (Device.pushBytes e x1) := by
  unfold Device.pushBytes
  repeat' with_reducible (first | assumption | (extract_lets +onlyGivenNames zz; first | (refine (fun (hz : SameB bb d zz) => ?_) ?_; clear_value zz; rotate_left; subst zz) | clear_value zz | skip) | apply Device.runParse_same | apply Device.readFrame_same | apply Device.growFrame_same | apply Device.stairGrow_same | split | dsimp only | apply Same.upd)

theorem Device.rclkBoundary_same {bb : Bool} {d : Device} {e : Device} (h : SameB bb d e) :
    SameB bb d (Device.rclkBoundary e) := by
  unfold Device.rclkBoundary
  repeat' with_reducible (first | assumption | (extract_lets +onlyGivenNames zz; first | clear_value zz | skip) | apply Device.send_same | split | (apply Same.foldl; intro _ _ _) | dsimp only | apply Same.upd)

theorem Device.readTimedOut_same {bb : Bool} {d : Device} {e : Device} (x1 : Nat) (x2 : Nat) (x3 : Nat) (h : SameB bb d e) :
    SameB bb d (Device.readTimedOut e x1 x2 x3) := by
  unfold Device.readTimedOut
  repeat' with_reducible (first | assumption | (extract_lets +onlyGivenNames zz; first | clear_value zz | skip) | apply Device.logFault_same | split | dsimp only | apply Same.upd)

theorem Device.readLate_same {bb : Bool} {d : Device} {e : Device} (x1 : Nat) (x2 : Nat) (h : SameB bb d e) :
    SameB bb d (Device.readLate e x1 x2) := by
  unfold Device.readLate
  repeat' with_reducible (first | assumption | apply Device.readTimedOut_same | dsimp only | apply Same.upd)

theorem Device.readAgain_same {bb : Bool} {d : Device} {e : Device} (x1 : Nat) (x2 : Sys2Proof.HostRead) (h : SameB bb d e) :
    SameB bb d (Device.readAgain e x1 x2) := by
  unfold Device.readAgain
  repeat' with_reducible (first | assumption | apply Device.modRing_same | apply Device.count_same | apply Device.readLate_same | dsimp only | apply Same.upd)

theorem Device.readBoundary_same {bb : Bool} {d : Device} {e : Device} (h : SameB bb d e) :
    SameB bb d (Device.readBoundary e) := by
  unfold Device.readBoundary
  repeat' with_reducible (first | assumption | apply Device.readCells_same | (apply Same.foldl; intro _ _ _) | dsimp only | apply Same.upd)

theorem Device.searchState_same {bb : Bool} {d : Device} {e : Device} (x1 : Nat) (h : SameB bb d e) :
    SameB bb d (Device.searchState e x1).2 := by
  unfold Device.searchState
  repeat' with_reducible (first | assumption | apply Device.free_same | split | (apply Same.snd2 (by assumption)) | (apply Same.snd (by assumption)) | (apply Same.fst (by assumption)) | dsimp only | apply Same.upd)

theorem Device.readTable_same {bb : Bool} {d : Device} {e : Device} (x1 : Nat) (x2 : Nat) (x3 : Nat) (h : SameB bb d e) :
    SameB bb d (Device.readTable e x1 x2 x3).2 := by
  unfold Device.readTable
  repeat' with_reducible (first | assumption | (extract_lets +onlyGivenNames zz; first | clear_value zz | skip) | apply Device.searchState_same | split | (apply Same.snd2 (by assumption)) | (apply Same.snd (by assumption)) | (apply Same.fst (by assumption)) | dsimp only | apply Same.upd)

theorem Device.rebuildGive_same {bb : Bool} {d : Device} {e : Device} (h : SameB bb d e) :
    SameB bb d (Device.rebuildGive e) := by
  unfold Device.rebuildGive
  repeat' with_reducible (first | assumption | (extract_lets +onlyGivenNames zz; first | (have hq : GenUnit := zz; clear hq; subst zz) | clear_value zz | skip) | dsimp only | apply Same.upd | apply Same.updDev | apply Same.updStroke | apply Same.updGen | apply Same.updProf | apply Same.updBoot | exact rfl)

theorem Device.rebuildSlot_same {bb : Bool} {d : Device} {e : Device} (h : SameB bb d e) :
    SameB bb d (Device.rebuildSlot e) := by
  unfold Device.rebuildSlot
  repeat' with_reducible (first | assumption | (extract_lets +onlyGivenNames zz; first | clear_value zz | skip) | apply Device.copySlot_same | split | (apply Same.foldl; intro _ _ _) | dsimp only | apply Same.upd)

theorem Device.resumePort_same {bb : Bool} {d : Device} {e : Device} (x1 : Nat) (h : SameB bb d e) :
    SameB bb d (Device.resumePort e x1) := by
  unfold Device.resumePort
  repeat' with_reducible (first | assumption | apply Device.goDormant_same | apply Device.tryStart_same | split | dsimp only | apply Same.upd)

theorem Device.refBoundary_same {bb : Bool} {d : Device} {e : Device} (h : SameB bb d e) :
    SameB bb d (Device.refBoundary e) := by
  unfold Device.refBoundary
  repeat' with_reducible (first | assumption | (extract_lets +onlyGivenNames zz; first | (refine (fun (hz : SameB bb d zz) => ?_) ?_; clear_value zz; rotate_left; subst zz) | clear_value zz | skip) | apply Device.settleLane_same | apply Device.resumePort_same | split | (apply Same.foldl; intro _ _ _) | dsimp only | apply Same.upd)

theorem Device.refill_same {bb : Bool} {d : Device} {e : Device} (x1 : Nat) (x2 : Nat) (h : SameB bb d e) :
    SameB bb d (Device.refill e x1 x2) := by
  induction x2 generalizing e x1 with
  | zero =>
    unfold Device.refill
    repeat' with_reducible (first | assumption | (extract_lets +onlyGivenNames zz; first | (refine (fun (hz : SameB bb d zz) => ?_) ?_; clear_value zz; rotate_left; subst zz) | clear_value zz | skip) | apply Device.popRing_same | apply Device.setPool_same | apply Device.billetErr_same | split | (apply Same.snd2 (by assumption)) | (apply Same.snd (by assumption)) | (apply Same.fst (by assumption)) | (apply SameO.get (by assumption)) | (apply SameP.get2 (by assumption)) | (apply SameP.get1 (by assumption)) | dsimp only | apply Same.upd)
  | succ n ih =>
    unfold Device.refill
    repeat' with_reducible (first | assumption | apply ih | (extract_lets +onlyGivenNames zz; first | (refine (fun (hz : SameB bb d zz) => ?_) ?_; clear_value zz; rotate_left; subst zz) | clear_value zz | skip) | apply Device.popRing_same | apply Device.setPool_same | apply Device.billetErr_same | split | (apply Same.snd2 (by assumption)) | (apply Same.snd (by assumption)) | (apply Same.fst (by assumption)) | (apply SameO.get (by assumption)) | (apply SameP.get2 (by assumption)) | (apply SameP.get1 (by assumption)) | dsimp only | apply Same.upd)

theorem Device.repairRow_same {bb : Bool} {d : Device} {e : Device} (x1 : Sys2Proof.Machine.FaultPlace) (h : SameB bb d e) :
    SameO bb d (Device.repairRow e x1) := by
  unfold Device.repairRow
  repeat' with_reducible (first | assumption | (extract_lets +onlyGivenNames zz; first | clear_value zz | skip) | split | exact SameO.ofNone | apply SameO.ofSome | (apply SameO.get (by assumption)) | dsimp only | apply Same.upd)

theorem Device.replaceStart_same {bb : Bool} {d : Device} {e : Device} (x1 : Nat) (x2 : Nat) (h : SameB bb d e) :
    SameB bb d (Device.replaceStart e x1 x2) := by
  unfold Device.replaceStart
  repeat' with_reducible (first | assumption | (extract_lets +onlyGivenNames zz; first | clear_value zz | skip) | split | dsimp only | apply Same.upd)

theorem Device.retime_same {bb : Bool} {d : Device} {e : Device} (x1 : Nat) (h : SameB bb d e) :
    SameB bb d (Device.retime e x1) := by
  unfold Device.retime
  repeat' with_reducible (first | assumption | (extract_lets +onlyGivenNames zz; first | clear_value zz | skip) | split | dsimp only | apply Same.upd)

theorem Device.retrain_same {bb : Bool} {d : Device} {e : Device} (x1 : Nat) (x2 : Nat) (h : SameB bb d e) :
    SameB bb d (Device.retrain e x1 x2) := by
  unfold Device.retrain
  repeat' with_reducible (first | assumption | (extract_lets +onlyGivenNames zz; first | (refine (fun (hz : SameB bb d zz) => ?_) ?_; clear_value zz; rotate_left; subst zz) | clear_value zz | skip) | apply Device.modBring_same | apply Device.setCause_same | apply Device.beginTrain_same | apply Device.settlePort_same | apply Device.chargeLane_same | split | dsimp only | apply Same.upd)

theorem Device.ringResume_same {bb : Bool} {d : Device} {e : Device} (x1 : Nat) (h : SameB bb d e) :
    SameB bb d (Device.ringResume e x1) := by
  unfold Device.ringResume
  repeat' with_reducible (first | assumption | (extract_lets +onlyGivenNames zz; first | clear_value zz | skip) | apply Device.setRing_same | split | dsimp only | apply Same.upd)

theorem Device.ringBoundary_same {bb : Bool} {d : Device} {e : Device} (h : SameB bb d e) :
    SameB bb d (Device.ringBoundary e) := by
  unfold Device.ringBoundary
  repeat' with_reducible (first | assumption | apply Device.ringResume_same | apply Device.headWrite_same | (apply Same.foldl; intro _ _ _) | dsimp only | apply Same.upd)

theorem Device.ringPay_same {bb : Bool} {d : Device} {e : Device} (x1 : Nat) (x2 : Nat) (x3 : Bool) (h : SameB bb d e) :
    SameB bb d (Device.ringPay e x1 x2 x3).1 := by
  unfold Device.ringPay
  repeat' with_reducible (first | assumption | (extract_lets +onlyGivenNames zz; first | (refine (fun (hz : SameB bb d zz) => ?_) ?_; clear_value zz; rotate_left; subst zz) | clear_value zz | skip) | apply Device.takePieces_same | apply Device.setRing_same | split | (apply Same.snd2 (by assumption)) | (apply Same.snd (by assumption)) | (apply Same.fst (by assumption)) | dsimp only | apply Same.upd)

theorem Device.ringSettle_same {bb : Bool} {d : Device} {e : Device} (x1 : Nat) (h : SameB bb d e) :
    SameB bb d (Device.ringSettle e x1) := by
  unfold Device.ringSettle
  repeat' with_reducible (first | assumption | (extract_lets +onlyGivenNames zz; first | clear_value zz | skip) | apply Device.ringIdle_same | apply Device.haltNow_same | split | dsimp only | apply Same.upd)

theorem Device.rowPermanent_same {bb : Bool} {d : Device} {e : Device} (x1 : Sys2Proof.Machine.FaultPlace) (x2 : Nat) (x3 : Nat) (h : SameB bb d e) :
    SameB bb d (Device.rowPermanent e x1 x2 x3) := by
  unfold Device.rowPermanent
  repeat' with_reducible (first | assumption | (extract_lets +onlyGivenNames zz; first | (refine (fun (hz : SameB bb d zz) => ?_) ?_; clear_value zz; rotate_left; subst zz) | skip) | apply Device.forget_same | apply Device.repairRow_same | apply Device.logFault_same | apply Device.retireHallBank_same | apply Device.count_same | split | (apply SameO.get (by assumption)) | dsimp only | apply Same.upd)

theorem Device.rowCorrected_same {bb : Bool} {d : Device} {e : Device} (x1 : Sys2Proof.Machine.FaultPlace) (h : SameB bb d e) :
    SameB bb d (Device.rowCorrected e x1) := by
  unfold Device.rowCorrected
  repeat' with_reducible (first | assumption | (extract_lets +onlyGivenNames zz; first | (refine (fun (hz : SameB bb d zz) => ?_) ?_; clear_value zz; rotate_left; subst zz) | clear_value zz | skip) | apply Device.count_same | apply Device.noteFixed_same | apply Device.occurrence_same | apply Device.logFault_same | apply Device.rowPermanent_same | split | (apply Same.snd2 (by assumption)) | (apply Same.snd (by assumption)) | (apply Same.fst (by assumption)) | dsimp only | apply Same.upd)

theorem Device.rowDone_same {bb : Bool} {d : Device} {e : Device} (x1 : Nat) (h : SameB bb d e) :
    SameB bb d (Device.rowDone e x1) := by
  unfold Device.rowDone
  repeat' with_reducible (first | assumption | (extract_lets +onlyGivenNames zz; first | clear_value zz | skip) | apply Device.setRing_same | apply Device.ringSettle_same | apply Device.ringDone_same | split | dsimp only | apply Same.upd)

theorem Device.rowFails_same {bb : Bool} {d : Device} {e : Device} (x1 : Nat) (x2 : Nat) (x3 : Sys2Proof.Machine.TdmaJob) (h : SameB bb d e) :
    SameB bb d (Device.rowFails e x1 x2 x3) := by
  unfold Device.rowFails
  repeat' with_reducible (first | assumption | apply Device.haltNow_same | dsimp only | apply Same.upd)

theorem Device.rowSlot_same {bb : Bool} {d : Device} {e : Device} (x1 : Nat) (x2 : Bool) (h : SameB bb d e) :
    SameB bb d (Device.rowSlot e x1 x2).1 := by
  unfold Device.rowSlot
  repeat' with_reducible (first | assumption | apply Device.mustWait_same | apply Device.ringPay_same | apply Device.spend_same | split | (apply Same.snd2 (by assumption)) | (apply Same.snd (by assumption)) | (apply Same.fst (by assumption)) | dsimp only | apply Same.upd)

theorem Device.rxAdvance_same {bb : Bool} {d : Device} {e : Device} (x1 : Nat) (x2 : Sys2Proof.Machine.RxCheck) (h : SameB bb d e) :
    SameB bb d (Device.rxAdvance e x1 x2) := by
  unfold Device.rxAdvance
  repeat' with_reducible (first | assumption | (extract_lets +onlyGivenNames zz; first | (refine (fun (hz : SameB bb d zz) => ?_) ?_; clear_value zz; rotate_left; subst zz) | clear_value zz | skip) | apply Device.setSa_same | apply Device.raise_same | split | dsimp only | apply Same.upd)

theorem Device.storeScrub_same {bb : Bool} {d : Device} {e : Device} (h : SameB bb d e) :
    SameB bb d (Device.storeScrub e) := by
  unfold Device.storeScrub
  repeat' with_reducible (first | assumption | (extract_lets +onlyGivenNames zz; first | clear_value zz | skip) | dsimp only | apply Same.upd)

theorem Device.scrubVisit_same {bb : Bool} {d : Device} {e : Device} (h : SameB bb d e) :
    SameB bb d (Device.scrubVisit e) := by
  unfold Device.scrubVisit
  repeat' with_reducible (first | assumption | (extract_lets +onlyGivenNames zz; first | (refine (fun (hz : SameB bb d zz) => ?_) ?_; clear_value zz; rotate_left; subst zz) | clear_value zz | skip) | apply Device.storeScrub_same | apply Device.lhMoved_same | apply Device.spend_same | split | dsimp only | apply Same.upd)

theorem Device.secDecide_same {bb : Bool} {d : Device} {e : Device} (x1 : Nat) (h : SameB bb d e) :
    SameB bb d (Device.secDecide e x1) := by
  unfold Device.secDecide
  repeat' with_reducible (first | assumption | (extract_lets +onlyGivenNames zz; first | (refine (fun (hz : SameB bb d zz) => ?_) ?_; clear_value zz; rotate_left; subst zz) | skip) | apply Device.count_same | apply Device.failFrame_same | apply Device.setFrame_same | split | (apply Same.foldl; intro _ _ _) | dsimp only | apply Same.upd)

theorem Device.select_same {bb : Bool} {d : Device} {e : Device} (x1 : Nat) (x2 : Nat) (x3 : Nat) (h : SameB bb d e) :
    SameB bb d (Device.select e x1 x2 x3).2 := by
  unfold Device.select
  repeat' with_reducible (first | assumption | (extract_lets +onlyGivenNames zz; first | (refine (fun (hz : SameB bb d zz) => ?_) ?_; clear_value zz; rotate_left; subst zz) | clear_value zz | skip) | apply Device.count_same | split | (apply Same.snd2 (by assumption)) | (apply Same.snd (by assumption)) | (apply Same.fst (by assumption)) | dsimp only | apply Same.upd)

theorem Device.selectOne_same {bb : Bool} {d : Device} {e : Device} (x1 : Nat) (x2 : Nat) (x3 : Nat) (h : SameB bb d e) :
    SameB bb d (Device.selectOne e x1 x2 x3) := by
  induction x3 generalizing e x1 x2 with
  | zero =>
    unfold Device.selectOne
    repeat' with_reducible (first | assumption | (extract_lets +onlyGivenNames zz; first | clear_value zz | skip) | apply Device.dropHead_same | apply Device.startEgress_same | apply Device.chargeShapers_same | apply Device.setDwrr_same | split | dsimp only | apply Same.upd)
  | succ n ih =>
    unfold Device.selectOne
    repeat' with_reducible (first | assumption | apply ih | (extract_lets +onlyGivenNames zz; first | clear_value zz | skip) | apply Device.dropHead_same | apply Device.startEgress_same | apply Device.chargeShapers_same | apply Device.setDwrr_same | split | dsimp only | apply Same.upd)

theorem Device.txLatch_same {bb : Bool} {d : Device} {e : Device} (x1 : Nat) (h : SameB bb d e) :
    SameB bb d (Device.txLatch e x1).1 := by
  unfold Device.txLatch
  repeat' with_reducible (first | assumption | (extract_lets +onlyGivenNames zz; first | (refine (fun (hz : SameB bb d zz) => ?_) ?_; clear_value zz; rotate_left; subst zz) | clear_value zz | skip) | apply Device.count_same | apply Device.setSa_same | apply Device.raise_same | apply Device.markSaThresh_same | split | (apply Same.snd2 (by assumption)) | (apply Same.snd (by assumption)) | (apply Same.fst (by assumption)) | dsimp only | apply Same.upd)

theorem Device.sendOwn_same {bb : Bool} {d : Device} {e : Device} (x1 : Nat) (x2 : Sys2Proof.Bytes) (h : SameB bb d e) :
    SameB bb d (Device.sendOwn e x1 x2) := by
  unfold Device.sendOwn
  repeat' with_reducible (first | assumption | (extract_lets +onlyGivenNames zz; first | (refine (fun (hz : SameB bb d zz) => ?_) ?_; clear_value zz; rotate_left; subst zz) | skip) | apply Device.leaveLpiTx_same | apply Device.txLatch_same | apply Device.drop_same | apply Device.send_same | split | (apply Same.snd2 (by assumption)) | (apply Same.snd (by assumption)) | (apply Same.fst (by assumption)) | dsimp only | apply Same.upd)

theorem Device.seqBoundary_same {bb : Bool} {d : Device} {e : Device} (h : SameB bb d e) :
    SameB bb d (Device.seqBoundary e) := by
  unfold Device.seqBoundary
  repeat' with_reducible (first | assumption | (extract_lets +onlyGivenNames zz; first | clear_value zz | skip) | apply Device.modSeq_same | apply Device.seqStart_same | apply Device.busFinish_same | split | (apply Same.foldl; intro _ _ _) | dsimp only | apply Same.upd)

theorem Device.uncount_same {bb : Bool} {d : Device} {e : Device} (x1 : Nat) (h : SameB bb d e) :
    SameB bb d (Device.uncount e x1) := by
  unfold Device.uncount
  repeat' with_reducible (first | assumption | (extract_lets +onlyGivenNames zz; first | clear_value zz | skip) | dsimp only | apply Same.upd)

theorem Device.seqOp_same {bb : Bool} {d : Device} {e : Device} (x1 : Nat) (x2 : Nat) (h : SameB bb d e) :
    SameB bb d (Device.seqOp e x1 x2) := by
  unfold Device.seqOp
  generalize mwOp x2 = op
  generalize mwImm x2 = imm
  have hp : ∀ v, SameB bb d ((e.setSeq x1 ((e.seqSt x1).put (mwDst x2) v)).seqFlow x1) :=
    fun v => Device.seqFlow_same _ (Device.setSeq_same _ _ h)
  refine Same.ite (hp _) (Same.ite (Device.seqFlow_same _ (Device.setSeq_same _ _ h)) (Same.ite (Device.seqFlow_same _ (Device.setSeq_same _ _ h)) (Same.ite ?_ (Same.ite (hp _) (Same.ite (hp _) (Same.ite (hp _) (Same.ite (hp _) (Same.ite (hp _) (Same.ite (Device.busIssue_same _ _ _ h) (Same.ite (Device.busIssue_same _ _ _ h) (Same.ite (Device.busIssue_same _ _ _ h) (Same.ite ?_ (Same.ite (Device.lhIssue_same _ _ _ _ _ h) (Same.ite (Device.lhIssue_same _ _ _ _ _ h) (Same.ite (Device.seqFlow_same _ (Device.raise_same _ _ (Device.setW1c_same _ _ h))) (Device.seqFlow_same _ h))))))))))))))))
  · have k := Device.free_same 1 h
    generalize e.free 1 = p at k ⊢
    rcases p with ⟨cb, c⟩
    exact Device.seqFlow_same _ (Device.setSeq_same _ _ k)
  · exact Device.seqFlow_same _ (Same.ite (Device.uncount_same _ (Device.setSeq_same _ _ h)) (Device.setSeq_same _ _ h))

theorem servoLossTimeout_same {bb : Bool} {d : Device} {e : Device} (h : SameB bb d e) :
    SameB bb d (servoLossTimeout e) := by
  unfold servoLossTimeout
  repeat' with_reducible (first | assumption | (extract_lets +onlyGivenNames zz; first | clear_value zz | skip) | apply Device.holdover_same | apply Device.srvState_same | split | dsimp only | apply Same.upd)

theorem Device.servoLoop_same {bb : Bool} {d : Device} {e : Device} (x1 : Int) (x2 : Nat) (h : SameB bb d e) :
    SameB bb d (Device.servoLoop e x1 x2) := by
  unfold Device.servoLoop
  repeat' with_reducible (first | assumption | (extract_lets +onlyGivenNames zz; first | clear_value zz | skip) | apply Device.free_same | apply Device.toRate_same | apply Device.clockRate_same | split | (apply Same.snd2 (by assumption)) | (apply Same.snd (by assumption)) | (apply Same.fst (by assumption)) | dsimp only | apply Same.upd)

theorem Device.servoDrive_same {bb : Bool} {d : Device} {e : Device} (x1 : Int) (x2 : Option Nat) (x3 : Nat) (h : SameB bb d e) :
    SameB bb d (Device.servoDrive e x1 x2 x3) := by
  unfold Device.servoDrive
  repeat' with_reducible (first | assumption | apply Device.servoLoop_same | split | dsimp only | apply Same.upd)

theorem Device.stepClock_same {bb : Bool} {d : Device} {e : Device} (x1 : Nat) (h : SameB bb d e) :
    SameB bb d (Device.stepClock e x1) := by
  unfold Device.stepClock
  try dsimp only
  repeat' with_reducible (first | assumption | apply Device.ledgerAgain_same | apply Device.ledgerMake_same | apply Device.raise_same | apply Device.retime_same | split | (apply Same.foldl; intro _ _ _) | dsimp only | apply Same.upd)

theorem Device.servoDecide_same {bb : Bool} {d : Device} {e : Device} (x1 : Int) (x2 : Option Nat) (x3 : Nat) (h : SameB bb d e) :
    SameB bb d (Device.servoDecide e x1 x2 x3) := by
  unfold Device.servoDecide
  repeat' with_reducible (first | assumption | (extract_lets +onlyGivenNames zz; first | (refine (fun (hz : SameB bb d zz) => ?_) ?_; clear_value zz; rotate_left; subst zz) | clear_value zz | skip) | apply Device.srvState_same | apply Device.servoDrive_same | apply Device.stepClock_same | split | dsimp only | apply Same.upd)

theorem Device.servoAccept_same {bb : Bool} {d : Device} {e : Device} (x1 : Int) (x2 : Int) (h : SameB bb d e) :
    SameB bb d (Device.servoAccept e x1 x2) := by
  unfold Device.servoAccept
  try dsimp only
  repeat' with_reducible (first | assumption | apply servoLossTimeout_same | apply Device.count_same | apply Device.roundDiv_same | apply Device.setReg_same | apply Device.holdover_same | apply Device.servoDecide_same | split | (apply Same.snd2 (by assumption)) | (apply Same.snd (by assumption)) | (apply Same.fst (by assumption)) | dsimp only | apply Same.upd)

theorem Device.servoSample_same {bb : Bool} {d : Device} {e : Device} (x1 : Int) (x2 : Int) (h : SameB bb d e) :
    SameB bb d (Device.servoSample e x1 x2) := by
  unfold Device.servoSample
  repeat' with_reducible (first | assumption | (extract_lets +onlyGivenNames zz; first | (refine (fun (hz : SameB bb d zz) => ?_) ?_; clear_value zz; rotate_left; subst zz) | clear_value zz | skip) | apply Device.count_same | apply Device.servoAccept_same | split | (apply Same.foldl; intro _ _ _) | dsimp only | apply Same.upd)

theorem Device.setKeySlot_same {bb : Bool} {d : Device} {e : Device} (x1 : Nat) (x2 : Sys2Proof.Machine.KeySlot) (h : SameB bb d e) :
    SameB bb d (Device.setKeySlot e x1 x2) := by
  unfold Device.setKeySlot
  repeat' with_reducible (first | assumption | (extract_lets +onlyGivenNames zz; first | clear_value zz | skip) | dsimp only | apply Same.upd)

theorem Device.settleHeld_same {bb : Bool} {d : Device} {e : Device} (h : SameB bb d e) :
    SameB bb d (Device.settleHeld e) := by
  unfold Device.settleHeld
  repeat' with_reducible (first | assumption | (extract_lets +onlyGivenNames zz; first | clear_value zz | skip) | (apply Same.foldl; intro _ _ _) | dsimp only | apply Same.upd)

theorem Device.stairDrop_same {bb : Bool} {d : Device} {e : Device} (x1 : Sys2Proof.Machine.Flight) (x2 : Nat) (h : SameB bb d e) :
    SameB bb d (Device.stairDrop e x1 x2) := by
  unfold Device.stairDrop
  repeat' with_reducible (first | assumption | apply Device.dropFlight_same | apply Device.count_same | split | dsimp only | apply Same.upd)

theorem Device.toBack_same {bb : Bool} {d : Device} {e : Device} (x1 : Sys2Proof.Machine.Flight) (h : SameB bb d e) :
    SameB bb d (Device.toBack e x1) := by
  unfold Device.toBack
  repeat' with_reducible (first | assumption | (extract_lets +onlyGivenNames zz; first | clear_value zz | skip) | dsimp only | apply Same.upd)

theorem Device.stairJoin_same {bb : Bool} {d : Device} {e : Device} (x1 : Nat) (h : SameB bb d e) :
    SameB bb d (Device.stairJoin e x1) := by
  unfold Device.stairJoin
  repeat' with_reducible (first | assumption | (extract_lets +onlyGivenNames zz; first | (refine (fun (hz : SameB bb d zz) => ?_) ?_; clear_value zz; rotate_left; subst zz) | clear_value zz | skip) | apply Device.stairDrop_same | apply Device.modFrame_same | apply Device.toBack_same | apply Device.stairGrow_same | split | dsimp only | apply Same.upd)

theorem Device.settlePass_same {bb : Bool} {d : Device} {e : Device} (x1 : Sys2Proof.Machine.Flight) (x2 : Sys2Proof.Machine.Frame) (h : SameB bb d e) :
    SameB bb d (Device.settlePass e x1 x2) := by
  unfold Device.settlePass
  repeat' with_reducible (first | assumption | apply Device.dropFlight_same | apply Device.passTrap_same | apply Device.stairJoin_same | apply Device.passForward_same | apply Device.passAnvil_same | apply Device.select_same | apply Device.spend_same | apply Device.passReplicate_same | apply Device.count_same | split | (apply Same.snd2 (by assumption)) | (apply Same.snd (by assumption)) | (apply Same.fst (by assumption)) | dsimp only | apply Same.upd)

theorem Device.shaperBoundary_same {bb : Bool} {d : Device} {e : Device} (x1 : Nat) (h : SameB bb d e) :
    SameB bb d (Device.shaperBoundary e x1) := by
  unfold Device.shaperBoundary
  repeat' with_reducible (first | assumption | (extract_lets +onlyGivenNames zz; first | (refine (fun (hz : SameB bb d zz) => ?_) ?_; clear_value zz; rotate_left; subst zz) | clear_value zz | skip) | apply Device.setTokens_same | apply Device.tokenRefill_same | apply Device.markSet_same | split | (apply Same.foldl; intro _ _ _) | (apply Same.snd2 (by assumption)) | (apply Same.snd (by assumption)) | (apply Same.fst (by assumption)) | dsimp only | apply Same.upd)

theorem Device.skidHeader_same {bb : Bool} {d : Device} {e : Device} (x1 : Nat) (x2 : Nat) (x3 : Sys2Proof.Machine.EvPkt) (h : SameB bb d e) :
    SameB bb d (Device.skidHeader e x1 x2 x3) := by
  unfold Device.skidHeader
  repeat' with_reducible (first | assumption | (extract_lets +onlyGivenNames zz; first | (refine (fun (hz : SameB bb d zz) => ?_) ?_; clear_value zz; rotate_left; subst zz) | clear_value zz | skip) | apply Device.pushSample_same | split | (apply Same.foldl; intro _ _ _) | dsimp only | apply Same.upd)

theorem Device.smbBlock_same {d : Device} {e : Device} (x1 : Nat) (x2 : Sys2Proof.SmbBlock) (x3 : Option Sys2Proof.Byte) (h : SameB false d e) :
    SameB false d (Device.smbBlock e x1 x2 x3) := by
  unfold Device.smbBlock
  repeat' with_reducible (first | assumption | (extract_lets +onlyGivenNames zz; first | clear_value zz | skip) | apply busWrite_same | apply Device.send_same | split | dsimp only | apply Same.upd)

theorem Device.snapBoundary_same {bb : Bool} {d : Device} {e : Device} (h : SameB bb d e) :
    SameB bb d (Device.snapBoundary e) := by
  unfold Device.snapBoundary
  repeat' with_reducible (first | assumption | (extract_lets +onlyGivenNames zz; first | clear_value zz | skip) | split | dsimp only | apply Same.upd)

theorem Device.spillBoundary_same {bb : Bool} {d : Device} {e : Device} (h : SameB bb d e) :
    SameB bb d (Device.spillBoundary e) := by
  unfold Device.spillBoundary
  repeat' with_reducible (first | assumption | (extract_lets +onlyGivenNames zz; first | clear_value zz | skip) | apply Device.setQueueSt_same | split | (apply Same.foldl; intro _ _ _) | dsimp only | apply Same.upd)

theorem Device.squelch_same {bb : Bool} {d : Device} {e : Device} (h : SameB bb d e) :
    SameB bb d (Device.squelch e) := by
  unfold Device.squelch
  repeat' with_reducible (first | assumption | (extract_lets +onlyGivenNames zz; first | clear_value zz | skip) | apply Device.send_same | split | (apply Same.foldl; intro _ _ _) | dsimp only | apply Same.upd)

theorem Device.stampAt_same {bb : Bool} {d : Device} {e : Device} (x1 : Nat) (x2 : Nat) (x3 : Int) (x4 : Bool) (h : SameB bb d e) :
    SameB bb d (Device.stampAt e x1 x2 x3 x4).2.2 := by
  unfold Device.stampAt
  repeat' with_reducible (first | assumption | (extract_lets +onlyGivenNames zz; first | clear_value zz | skip) | apply Device.psT_same | split | (apply Same.snd2 (by assumption)) | (apply Same.snd (by assumption)) | (apply Same.fst (by assumption)) | dsimp only | apply Same.upd)

theorem Device.stateDue_same {bb : Bool} {d : Device} {e : Device} (h : SameB bb d e) :
    SameB bb d (Device.stateDue e) := by
  unfold Device.stateDue
  repeat' with_reducible (first | assumption | (extract_lets +onlyGivenNames zz; first | (have hq : DevCtl := zz; clear hq; subst zz) | clear_value zz | skip) | dsimp only | apply Same.upd | apply Same.updDev | exact rfl)

theorem Device.stompKnown_same {bb : Bool} {d : Device} {e : Device} (x1 : Sys2Proof.Machine.Copy) (x2 : Sys2Proof.Machine.Frame) (x3 : Nat) (x4 : Sys2Proof.Bytes) (h : SameB bb d e) :
    SameB bb d (Device.stompKnown e x1 x2 x3 x4) := by
  unfold Device.stompKnown
  repeat' with_reducible (first | assumption | (extract_lets +onlyGivenNames zz; first | (refine (fun (hz : SameB bb d zz) => ?_) ?_; clear_value zz; rotate_left; subst zz) | clear_value zz | skip) | apply Device.send_same | apply Device.countStomped_same | apply Device.correctTo_same | apply Device.loseOne_same | apply Device.flowCopy_same | apply Device.endCopy_same | apply Device.stopSending_same | split | dsimp only | apply Same.upd)

theorem Device.subHeld_same {bb : Bool} {d : Device} {e : Device} (x1 : Nat) (x2 : Nat) (x3 : Nat) (h : SameB bb d e) :
    SameB bb d (Device.subHeld e x1 x2 x3) := by
  unfold Device.subHeld
  repeat' with_reducible (first | assumption | (extract_lets +onlyGivenNames zz; first | clear_value zz | skip) | dsimp only | apply Same.upd)

theorem Device.sweepOn_same {bb : Bool} {d : Device} {e : Device} (h : SameB bb d e) :
    SameB bb d (Device.sweepOn e) := by
  unfold Device.sweepOn
  repeat' with_reducible (first | assumption | (extract_lets +onlyGivenNames zz; first | clear_value zz | skip) | split | dsimp only | apply Same.upd)

theorem Device.syncSample_same {bb : Bool} {d : Device} {e : Device} (x1 : Nat) (x2 : Int) (h : SameB bb d e) :
    SameB bb d (Device.syncSample e x1 x2) := by
  unfold Device.syncSample
  repeat' with_reducible (first | assumption | (extract_lets +onlyGivenNames zz; first | (refine (fun (hz : SameB bb d zz) => ?_) ?_; clear_value zz; rotate_left; subst zz) | clear_value zz | skip) | apply Device.psT_same | apply Device.servoSample_same | split | (apply Same.snd2 (by assumption)) | (apply Same.snd (by assumption)) | (apply Same.fst (by assumption)) | dsimp only | apply Same.upd)

theorem Device.takePosition_same {bb : Bool} {d : Device} {e : Device} (x1 : Nat) (h : SameB bb d e) :
    SameB bb d (Device.takePosition e x1) := by
  unfold Device.takePosition
  repeat' with_reducible (first | assumption | (extract_lets +onlyGivenNames zz; first | clear_value zz | skip) | dsimp only | apply Same.upd)

theorem Device.takeSnapshot_same {bb : Bool} {d : Device} {e : Device} (h : SameB bb d e) :
    SameB bb d (Device.takeSnapshot e) := by
  unfold Device.takeSnapshot
  repeat' with_reducible (first | assumption | (extract_lets +onlyGivenNames zz; first | clear_value zz | skip) | dsimp only | apply Same.upd | apply Same.updStroke | apply Same.updGen | exact rfl)

theorem Device.takeStorage_same {bb : Bool} {d : Device} {e : Device} (h : SameB bb d e) :
    SameB bb d (Device.takeStorage e) := by
  unfold Device.takeStorage
  repeat' with_reducible (first | assumption | (extract_lets +onlyGivenNames zz; first | (refine (fun (hz : SameB bb d zz) => ?_) ?_; clear_value zz; rotate_left; subst zz) | clear_value zz | skip) | apply Device.poolSplit_same | apply Device.flowBilletsTake_same | apply Device.extBuild_same | apply Device.ledgerTake_same | dsimp only | apply Same.upd)

theorem Device.tcUpdate_same {bb : Bool} {d : Device} {e : Device} (x1 : Sys2Proof.Machine.Copy) (x2 : Sys2Proof.Machine.Frame) (x3 : Nat) (h : SameB bb d e) :
    SameB bb d (Device.tcUpdate e x1 x2 x3).1 := by
  unfold Device.tcUpdate
  repeat' with_reducible (first | assumption | (extract_lets +onlyGivenNames zz; first | (refine (fun (hz : SameB bb d zz) => ?_) ?_; clear_value zz; rotate_left; subst zz) | clear_value zz | skip) | apply Device.psT_same | apply Device.count_same | split | (apply Same.snd2 (by assumption)) | (apply Same.snd (by assumption)) | (apply Same.fst (by assumption)) | dsimp only | apply Same.upd)

theorem Device.tcPatch_same {bb : Bool} {d : Device} {e : Device} (x1 : Nat) (x2 : Sys2Proof.Machine.Copy) (x3 : Sys2Proof.Machine.Frame) (h : SameB bb d e) :
    SameB bb d (Device.tcPatch e x1 x2 x3).1 := by
  unfold Device.tcPatch
  repeat' with_reducible (first | assumption | apply Device.tcUpdate_same | split | (apply Same.snd2 (by assumption)) | (apply Same.snd (by assumption)) | (apply Same.fst (by assumption)) | dsimp only | apply Same.upd)

theorem Device.telemBoundary_same {bb : Bool} {d : Device} {e : Device} (h : SameB bb d e) :
    SameB bb d (Device.telemBoundary e) := by
  unfold Device.telemBoundary
  repeat' with_reducible (first | assumption | (extract_lets +onlyGivenNames zz; first | (refine (fun (hz : SameB bb d zz) => ?_) ?_; clear_value zz; rotate_left; subst zz) | clear_value zz | skip) | apply Device.dropAsks_same | apply Device.countN_same | apply Device.packDrops_same | apply Device.packOld_same | apply Device.flowBilletsFree_same | apply Device.raise_same | apply Device.flowBilletsTake_same | split | (apply Same.foldl; intro _ _ _) | dsimp only | apply Same.upd)

theorem Device.testLanes_same {bb : Bool} {d : Device} {e : Device} (h : SameB bb d e) :
    SameB bb d (Device.testLanes e) := by
  unfold Device.testLanes
  repeat' with_reducible (first | assumption | apply Device.moveLane_same | split | (apply Same.foldl; intro _ _ _) | dsimp only | apply Same.upd)

theorem Device.timeLow_same {bb : Bool} {d : Device} {e : Device} (h : SameB bb d e) :
    SameB bb d (Device.timeLow e) := by
  unfold Device.timeLow
  repeat' with_reducible (first | assumption | apply Device.squelch_same | apply Device.ppsLower_same | (apply Same.foldl; intro _ _ _) | dsimp only | apply Same.upd)

theorem Device.trigRuns_same {bb : Bool} {d : Device} {e : Device} (x1 : Nat) (h : SameB bb d e) :
    SameB bb d (Device.trigRuns e x1) := by
  unfold Device.trigRuns
  repeat' with_reducible (first | assumption | (extract_lets +onlyGivenNames zz; first | clear_value zz | skip) | apply Device.send_same | apply Device.setTrig_same | split | dsimp only | apply Same.upd)

theorem Device.timeRuns_same {bb : Bool} {d : Device} {e : Device} (x1 : Nat) (h : SameB bb d e) :
    SameB bb d (Device.timeRuns e x1) := by
  unfold Device.timeRuns
  repeat' with_reducible (first | assumption | (extract_lets +onlyGivenNames zz; first | (refine (fun (hz : SameB bb d zz) => ?_) ?_; clear_value zz; rotate_left; subst zz) | clear_value zz | skip) | apply Device.advance_same | apply Device.ppsRuns_same | apply Device.trigRuns_same | apply Device.setFld_same | split | (apply Same.foldl; intro _ _ _) | dsimp only | apply Same.upd)

theorem Device.upNow_same {bb : Bool} {d : Device} {e : Device} (x1 : Nat) (x2 : Sys2Proof.Machine.Chunk) (h : SameB bb d e) :
    SameB bb d (Device.upNow e x1 x2) := by
  unfold Device.upNow
  repeat' with_reducible (first | assumption | (extract_lets +onlyGivenNames zz; first | (refine (fun (hz : SameB bb d zz) => ?_) ?_; clear_value zz; rotate_left; subst zz) | clear_value zz | skip) | apply Device.abortChunk_same | apply Device.setChunk_same | apply Device.count_same | apply Device.sendUp_same | split | dsimp only | apply Same.upd)

theorem Device.timeoutFirst_same {bb : Bool} {d : Device} {e : Device} (x1 : Nat) (x2 : Nat) (x3 : Nat) (x4 : Nat) (h : SameB bb d e) :
    SameB bb d (Device.timeoutFirst e x1 x2 x3 x4).1 := by
  unfold Device.timeoutFirst
  repeat' with_reducible (first | assumption | (extract_lets +onlyGivenNames zz; first | (refine (fun (hz : SameB bb d zz) => ?_) ?_; clear_value zz; rotate_left; subst zz) | skip) | apply Device.nackNow_same | apply Device.upNow_same | split | (apply Same.snd2 (by assumption)) | (apply Same.snd (by assumption)) | (apply Same.fst (by assumption)) | dsimp only | apply Same.upd)

theorem Device.tornRecord_same {bb : Bool} {d : Device} {e : Device} (h : SameB bb d e) :
    SameB bb d (Device.tornRecord e).2 := by
  unfold Device.tornRecord
  repeat' with_reducible (first | assumption | (extract_lets +onlyGivenNames zz; first | clear_value zz | skip) | apply Device.free_same | split | (apply Same.snd2 (by assumption)) | (apply Same.snd (by assumption)) | (apply Same.fst (by assumption)) | dsimp only | apply Same.upd)

theorem Device.tsuQueue_same {bb : Bool} {d : Device} {e : Device} (x1 : Nat) (x2 : Sys2Proof.Bytes) (x3 : Option Nat) (h : SameB bb d e) :
    SameB bb d (Device.tsuQueue e x1 x2 x3).1 := by
  unfold Device.tsuQueue
  repeat' with_reducible (first | assumption | (extract_lets +onlyGivenNames zz; first | clear_value zz | skip) | apply Device.direct_same | dsimp only | apply Same.upd)

theorem Device.vfElse_same {bb : Bool} {d : Device} {e : Device} (x1 : Nat) (x2 : Nat) (h : SameB bb d e) :
    SameB bb d (Device.vfElse e x1 x2) := by
  unfold Device.vfElse
  repeat' with_reducible (first | assumption | apply Device.err_same | split | dsimp only | apply Same.upd)

theorem busReadStep_same {bb : Bool} {d : Device} {e : Device} (x1 : Sys2Proof.Source) (x2 : Nat) (x3 : Nat) (h : SameB bb d e) :
    SameB bb d (busReadStep e x1 x2 x3) := by
  unfold busReadStep
  repeat' with_reducible (first | assumption | (extract_lets +onlyGivenNames zz; first | clear_value zz | skip) | apply Device.busRead_same | split | (apply Same.snd2 (by assumption)) | (apply Same.snd (by assumption)) | (apply Same.fst (by assumption)) | (apply SameO.get (by assumption)) | (apply SameP.get2 (by assumption)) | (apply SameP.get1 (by assumption)) | dsimp only | apply Same.upd)

theorem Device.viaRead_same {bb : Bool} {d : Device} {e : Device} (x1 : Sys2Proof.Via) (x2 : Nat) (x3 : Nat) (h : SameB bb d e) :
    SameB bb d (Device.viaRead e x1 x2 x3) := by
  unfold Device.viaRead
  repeat' with_reducible (first | assumption | (extract_lets +onlyGivenNames zz; first | clear_value zz | skip) | apply busReadStep_same | apply Device.answer_same | apply Device.vfElse_same | split | dsimp only | apply Same.upd)

theorem Device.viaWrite_same {d : Device} {e : Device} (x1 : Sys2Proof.Via) (x2 : Nat) (x3 : Nat) (x4 : Sys2Proof.Word) (h : SameB false d e) :
    SameB false d (Device.viaWrite e x1 x2 x3 x4) := by
  unfold Device.viaWrite
  repeat' with_reducible (first | assumption | apply Device.configWrite_same | apply busWrite_same | apply Device.vfElse_same | split | dsimp only | apply Same.upd)

theorem Device.viaRing_same {d : Device} {e : Device} (x1 : Sys2Proof.Via) (x2 : Nat) (x3 : Sys2Proof.Word) (h : SameB false d e) :
    SameB false d (Device.viaRing e x1 x2 x3) := by
  unfold Device.viaRing
  repeat' with_reducible (first | assumption | apply Device.viaWrite_same | split | dsimp only | apply Same.upd)

theorem Device.visitBucket_same {bb : Bool} {d : Device} {e : Device} (x1 : Nat) (h : SameB bb d e) :
    SameB bb d (Device.visitBucket e x1) := by
  unfold Device.visitBucket
  repeat' with_reducible (first | assumption | (extract_lets +onlyGivenNames zz; first | (refine (fun (hz : SameB bb d zz) => ?_) ?_; clear_value zz; rotate_left; subst zz) | clear_value zz | skip) | apply Device.count_same | apply Device.packRecord_same | split | (apply Same.foldl; intro _ _ _) | dsimp only | apply Same.upd)

theorem Device.warmKeep_same {bb : Bool} {d : Device} {e : Device} (x1 : Sys2Proof.Machine.Device) (h : SameB bb d e) :
    SameB bb d (Device.warmKeep e x1) := by
  unfold Device.warmKeep
  repeat' with_reducible (first | assumption | (extract_lets +onlyGivenNames zz; first | (refine (fun (hz : SameB bb d zz) => ?_) ?_; clear_value zz; rotate_left; subst zz) | clear_value zz | skip) | apply Device.countN_same | (apply Same.foldl; intro _ _ _) | dsimp only | apply Same.upd)

theorem Device.writeIn_same {d : Device} {e : Device} (x1 : Via) (x2 : Nat) (x3 : Nat) (x4 : Word) (x5 : Nat) (h : SameB false d e) :
    SameB false d (Device.writeIn e x1 x2 x3 x4 x5) := by
  unfold Device.writeIn
  have k0 : SameB false d (e.atCyc x5) := Device.atCyc_same _ h
  generalize e.atCyc x5 = e0 at k0 ⊢
  dsimp only
  split
  · exact Device.viaWrite_same _ _ _ _ k0
  rename_i at_ _
  have kp : SameB false d { e0 with perf := { e0.perf with committed := none } } := Same.upd k0
  have k1 := Device.inTurn_same (srcOf x1) at_ x3 x4 (fun d => busWrite d (srcOf x1) at_ x3 (x4 &&& ~~~ d.newBits at_))
    kp (fun _ k => busWrite_same _ _ _ _ k)
  generalize Device.inTurn _ _ _ _ _ _ = e1 at k1 ⊢
  repeat' with_reducible (first | assumption | apply Device.countAgain_same | apply Device.errAgain_same | split)

theorem Device.writeAt_same {d : Device} {e : Device} (x1 : Sys2Proof.Via) (x2 : Nat) (x3 : Nat) (x4 : Sys2Proof.Word) (x5 : Option Nat) (h : SameB false d e) :
    SameB false d (Device.writeAt e x1 x2 x3 x4 x5) := by
  unfold Device.writeAt
  repeat' with_reducible (first | assumption | apply Device.viaWrite_same | apply Device.writeIn_same | split | dsimp only | apply Same.upd)

theorem Device.writeTable_same {bb : Bool} {d : Device} {e : Device} (x1 : Nat) (x2 : Nat) (x3 : Nat) (x4 : Nat) (h : SameB bb d e) :
    SameB bb d (Device.writeTable e x1 x2 x3 x4) := by
  unfold Device.writeTable
  repeat' with_reducible (first | assumption | (extract_lets +onlyGivenNames zz; first | (refine (fun (hz : SameB bb d zz) => ?_) ?_; clear_value zz; rotate_left; subst zz) | clear_value zz | skip) | apply Device.setPoolRow_same | split | dsimp only | apply Same.upd)

theorem abortReceive_same {bb : Bool} {d : Device} {e : Device} (x1 : Nat) (h : SameB bb d e) :
    SameB bb d (abortReceive e x1) := by
  unfold abortReceive
  repeat' with_reducible (first | assumption | apply Device.anvilTake_same | apply Device.dropMsg_same | apply Device.abortChunk_same | apply Device.takeMsg_same | split | (apply Same.snd2 (by assumption)) | (apply Same.snd (by assumption)) | (apply Same.fst (by assumption)) | dsimp only | apply Same.upd)

theorem ageSweepStart_same {bb : Bool} {d : Device} {e : Device} (h : SameB bb d e) :
    SameB bb d (ageSweepStart e) := by
  unfold ageSweepStart
  repeat' with_reducible (first | assumption | (extract_lets +onlyGivenNames zz; first | clear_value zz | skip) | split | dsimp only | apply Same.upd)

theorem anPageReceive_same {bb : Bool} {d : Device} {e : Device} (x1 : Nat) (x2 : Nat) (x3 : Nat) (h : SameB bb d e) :
    SameB bb d (anPageReceive e x1 x2 x3) := by
  unfold anPageReceive
  repeat' with_reducible (first | assumption | (extract_lets +onlyGivenNames zz; first | (refine (fun (hz : SameB bb d zz) => ?_) ?_; clear_value zz; rotate_left; subst zz) | clear_value zz | skip) | apply Device.setReg_same | apply Device.setFld_same | apply Device.modPort_same | apply Device.beginTrain_same | apply Device.setRate_same | split | dsimp only | apply Same.upd)

theorem avsReadback_same {bb : Bool} {d : Device} {e : Device} (x1 : Bool) (x2 : Nat) (x3 : Nat) (h : SameB bb d e) :
    SameB bb d (avsReadback e x1 x2 x3) := by
  unfold avsReadback
  repeat' with_reducible (first | assumption | (extract_lets +onlyGivenNames zz; first | (refine (fun (hz : SameB bb d zz) => ?_) ?_; clear_value zz; rotate_left; subst zz) | clear_value zz | skip) | apply Device.avsFail_same | split | dsimp only | apply Same.upd)

theorem bankCopy_same {bb : Bool} {d : Device} {e : Device} (x1 : Bool) (h : SameB bb d e) :
    SameB bb d (bankCopy e x1) := by
  unfold bankCopy
  repeat' with_reducible (first | assumption | (extract_lets +onlyGivenNames zz; first | (refine (fun (hz : SameB bb d zz) => ?_) ?_; clear_value zz; rotate_left; subst zz) | (refine (fun (hf : ∀ x a b c, SameB bb d x → SameB bb d (zz x a b c)) => ?_) ?_; clear_value zz; rotate_left; subst zz) | (refine (fun (hf : ∀ x a b, SameB bb d x → SameB bb d (zz x a b)) => ?_) ?_; clear_value zz; rotate_left; subst zz) | (refine (fun (hf : ∀ y x, SameB bb d x.d → SameB bb d (zz y x)) => ?_) ?_; clear_value zz; rotate_left; subst zz) | (refine (fun (hf : ∀ x, SameB bb d x.d → SameB bb d (zz x).1.d) => ?_) ?_; clear_value zz; rotate_left; subst zz) | clear_value zz | skip) | apply Device.mustWait_same | apply Device.spend_same | apply Device.cellLost_same | apply Device.countN_same | apply hf | split | intro _ | dsimp only | apply Same.upd)

theorem bankLost_same {bb : Bool} {d : Device} {e : Device} (h : SameB bb d e) :
    SameB bb d (bankLost e) := by
  unfold bankLost
  repeat' with_reducible (first | assumption | (extract_lets +onlyGivenNames zz; first | (refine (fun (hz : SameB bb d zz) => ?_) ?_; clear_value zz; rotate_left; subst zz) | clear_value zz | skip) | apply Device.raise_same | apply Device.resizeShared_same | split | dsimp only | apply Same.upd)

theorem bankRemap_same {bb : Bool} {d : Device} {e : Device} (h : SameB bb d e) :
    SameB bb d (bankRemap e) := by
  unfold bankRemap
  repeat' with_reducible (first | assumption | (extract_lets +onlyGivenNames zz; first | (refine (fun (hz : SameB bb d zz) => ?_) ?_; clear_value zz; rotate_left; subst zz) | clear_value zz | skip) | apply Device.raise_same | apply Device.bankStart_same | split | dsimp only | apply Same.upd)

theorem billetFree_same {bb : Bool} {d : Device} {e : Device} (x1 : Nat) (h : SameB bb d e) :
    SameB bb d (billetFree e x1) := by
  unfold billetFree
  repeat' with_reducible (first | assumption | (extract_lets +onlyGivenNames zz; first | (refine (fun (hz : SameB bb d zz) => ?_) ?_; clear_value zz; rotate_left; subst zz) | clear_value zz | skip) | apply Device.setPool_same | apply Device.billetErr_same | apply Device.subHeld_same | split | dsimp only | apply Same.upd)

theorem billetGrant_same {bb : Bool} {d : Device} {e : Device} (x1 : Nat) (h : SameB bb d e) :
    SameB bb d (billetGrant e x1) := by
  unfold billetGrant
  repeat' with_reducible (first | assumption | apply Device.countWaits_same | apply Device.grantOne_same | dsimp only | apply Same.upd)

theorem billetRefill_same {bb : Bool} {d : Device} {e : Device} (x1 : Nat) (h : SameB bb d e) :
    SameB bb d (billetRefill e x1) := by
  unfold billetRefill
  repeat' with_reducible (first | assumption | (extract_lets +onlyGivenNames zz; first | clear_value zz | skip) | apply Device.mustWait_same | apply Device.refill_same | apply Device.lhMoved_same | apply Device.spend_same | split | dsimp only | apply Same.upd)

theorem billetWriteback_same {bb : Bool} {d : Device} {e : Device} (x1 : Nat) (h : SameB bb d e) :
    SameB bb d (billetWriteback e x1) := by
  unfold billetWriteback
  repeat' with_reducible (first | assumption | (extract_lets +onlyGivenNames zz; first | clear_value zz | skip) | apply Device.mustWait_same | apply Device.setPool_same | apply Device.lhMoved_same | apply Device.spend_same | split | dsimp only | apply Same.upd)

theorem blockLockAcquired_same {bb : Bool} {d : Device} {e : Device} (x1 : Nat) (x2 : Bool) (x3 : Bool) (x4 : Int) (h : SameB bb d e) :
    SameB bb d (blockLockAcquired e x1 x2 x3 x4) := by
  unfold blockLockAcquired
  repeat' with_reducible (first | assumption | (extract_lets +onlyGivenNames zz; first | (refine (fun (hz : SameB bb d zz) => ?_) ?_; clear_value zz; rotate_left; subst zz) | clear_value zz | skip) | apply Device.modLane_same | apply Device.phaseTime_same | apply Device.findOrder_same | apply Device.setTsu_same | split | (apply Same.snd2 (by assumption)) | (apply Same.snd (by assumption)) | (apply Same.fst (by assumption)) | dsimp only | apply Same.upd)

theorem blockLockLost_same {bb : Bool} {d : Device} {e : Device} (x1 : Nat) (x2 : Nat) (h : SameB bb d e) :
    SameB bb d (blockLockLost e x1 x2) := by
  unfold blockLockLost
  repeat' with_reducible (first | assumption | (extract_lets +onlyGivenNames zz; first | (refine (fun (hz : SameB bb d zz) => ?_) ?_; clear_value zz; rotate_left; subst zz) | skip) | apply Device.atCyc_same | apply Device.modLane_same | apply Device.settleFault_same | apply Device.retrain_same | split | dsimp only | apply Same.upd)

theorem bootSourceAttempt_same {bb : Bool} {d : Device} {e : Device} (x1 : Option Sys2Proof.Bytes) (h : SameB bb d e) :
    SameB bb d (bootSourceAttempt e x1) := by
  unfold bootSourceAttempt
  repeat' with_reducible (first | assumption | (extract_lets +onlyGivenNames zz; first | (have hq : BootUnit := zz; clear hq; subst zz) | clear_value zz | skip) | apply Device.bootFails_same | apply Device.bootCheck_same | apply Device.takePieces_same | apply Device.event_same | split | (apply Same.snd2 (by assumption)) | (apply Same.snd (by assumption)) | (apply Same.fst (by assumption)) | dsimp only | apply Same.upd | apply Same.updBoot | exact rfl)

theorem busAccessComplete_same {bb : Bool} {d : Device} {e : Device} (x1 : Nat) (x2 : Nat) (h : SameB bb d e) :
    SameB bb d (busAccessComplete e x1 x2) := by
  unfold busAccessComplete
  repeat' with_reducible (first | assumption | (extract_lets +onlyGivenNames zz; first | (refine (fun (hz : SameB bb d zz) => ?_) ?_; clear_value zz; rotate_left; subst zz) | skip) | apply Device.atCyc_same | apply Device.busEffect_same | apply Device.modSeq_same | apply Device.seqFlow_same | split | dsimp only | apply Same.upd)

theorem cellEcc_same {bb : Bool} {d : Device} {e : Device} (x1 : Nat) (h : SameB bb d e) :
    SameB bb d (cellEcc e x1) := by
  unfold cellEcc
  repeat' with_reducible (first | assumption | (extract_lets +onlyGivenNames zz; first | (refine (fun (hz : SameB bb d zz) => ?_) ?_; clear_value zz; rotate_left; subst zz) | clear_value zz | skip) | apply Device.dropCopy_same | apply Device.count_same | apply Device.rowBad_same | split | dsimp only | apply Same.upd)

theorem clockStepDone_same {bb : Bool} {d : Device} {e : Device} (x1 : Nat) (h : SameB bb d e) :
    SameB bb d (clockStepDone e x1) := by
  unfold clockStepDone
  try dsimp only
  repeat' with_reducible (first | assumption | apply Device.atCyc_same | apply Device.stepClock_same | split | dsimp only | apply Same.upd)

theorem contribReceive_same {bb : Bool} {d : Device} {e : Device} (x1 : Nat) (h : SameB bb d e) :
    SameB bb d (contribReceive e x1) := by
  unfold contribReceive
  repeat' with_reducible (first | assumption | (extract_lets +onlyGivenNames zz; first | clear_value zz | skip) | apply Device.anvilTake_same | apply Device.timeoutFirst_same | apply Device.lateContrib_same | apply Device.issue_same | apply Device.takeMsg_same | apply Device.count_same | apply Device.contribTake_same | split | (apply Same.snd2 (by assumption)) | (apply Same.snd (by assumption)) | (apply Same.fst (by assumption)) | dsimp only | apply Same.upd)

theorem coreFreqDown_same {bb : Bool} {d : Device} {e : Device} (h : SameB bb d e) :
    SameB bb d (coreFreqDown e) := by
  unfold coreFreqDown
  repeat' with_reducible (first | assumption | (extract_lets +onlyGivenNames zz; first | clear_value zz | skip) | apply Device.avsWrite_same | split | dsimp only | apply Same.upd)

theorem coreFreqUp_same {bb : Bool} {d : Device} {e : Device} (h : SameB bb d e) :
    SameB bb d (coreFreqUp e) := by
  unfold coreFreqUp
  repeat' with_reducible (first | assumption | (extract_lets +onlyGivenNames zz; first | clear_value zz | skip) | split | dsimp only | apply Same.upd)

theorem ctUnderrun_same {bb : Bool} {d : Device} {e : Device} (x1 : Nat) (h : SameB bb d e) :
    SameB bb d (ctUnderrun e x1) := by
  unfold ctUnderrun
  repeat' with_reducible (first | assumption | (extract_lets +onlyGivenNames zz; first | (refine (fun (hz : SameB bb d zz) => ?_) ?_; clear_value zz; rotate_left; subst zz) | skip) | apply Device.count_same | apply Device.stompOut_same | apply Device.flowCopy_same | apply Device.endCopy_same | apply Device.stopSending_same | split | dsimp only | apply Same.upd)

theorem cycleCounterWrap_same {bb : Bool} {d : Device} {e : Device} (x1 : Option Nat) (x2 : Nat) (x3 : Nat) (h : SameB bb d e) :
    SameB bb d (cycleCounterWrap e x1 x2 x3) := by
  unfold cycleCounterWrap
  repeat' with_reducible (first | assumption | (extract_lets +onlyGivenNames zz; first | (refine (fun (hz : SameB bb d zz) => ?_) ?_; clear_value zz; rotate_left; subst zz) | skip) | apply Device.atCyc_same | apply Device.pcSync_same | dsimp only | apply Same.upd)

theorem d2dFlitReplay_same {bb : Bool} {d : Device} {e : Device} (x1 : Nat) (x2 : Nat) (x3 : List Nat) (x4 : Bool) (h : SameB bb d e) :
    SameB bb d (d2dFlitReplay e x1 x2 x3 x4) := by
  unfold d2dFlitReplay
  repeat' with_reducible (first | assumption | (extract_lets +onlyGivenNames zz; first | (refine (fun (hz : SameB bb d zz) => ?_) ?_; clear_value zz; rotate_left; subst zz) | clear_value zz | skip) | apply Device.count_same | apply Device.setLink_same | apply Device.track_same | apply Device.repairLane_same | apply Device.forget_same | split | (apply Same.foldl; intro _ _ _) | dsimp only | apply Same.upd)

theorem d2dSleep_same {bb : Bool} {d : Device} {e : Device} (x1 : Nat) (x2 : Nat) (h : SameB bb d e) :
    SameB bb d (d2dSleep e x1 x2) := by
  unfold d2dSleep
  repeat' with_reducible (first | assumption | (extract_lets +onlyGivenNames zz; first | clear_value zz | skip) | apply Device.setLink_same | split | dsimp only | apply Same.upd)

theorem d2dWake_same {bb : Bool} {d : Device} {e : Device} (x1 : Nat) (x2 : Nat) (h : SameB bb d e) :
    SameB bb d (d2dWake e x1 x2) := by
  unfold d2dWake
  repeat' with_reducible (first | assumption | apply Device.setLink_same | split | dsimp only | apply Same.upd)

theorem datagramClose_same {bb : Bool} {d : Device} {e : Device} (x1 : Nat) (x2 : Nat) (x3 : Nat) (h : SameB bb d e) :
    SameB bb d (datagramClose e x1 x2 x3) := by
  unfold datagramClose
  repeat' with_reducible (first | assumption | (extract_lets +onlyGivenNames zz; first | (refine (fun (hz : SameB bb d zz) => ?_) ?_; clear_value zz; rotate_left; subst zz) | clear_value zz | skip) | apply Device.mustWait_same | apply Device.takeGrant_same | apply Device.lhMoved_same | apply Device.spend_same | apply Device.dgramSend_same | apply Device.freeBillet_same | split | dsimp only | apply Same.upd)

theorem delayReqSend_same {bb : Bool} {d : Device} {e : Device} (x1 : Nat) (h : SameB bb d e) :
    SameB bb d (delayReqSend e x1) := by
  unfold delayReqSend
  repeat' with_reducible (first | assumption | (extract_lets +onlyGivenNames zz; first | (refine (fun (hz : SameB bb d zz) => ?_) ?_; clear_value zz; rotate_left; subst zz) | clear_value zz | skip) | apply Device.atCyc_same | apply Device.setTsu_same | apply Device.tsuQueue_same | apply Device.count_same | split | (apply Same.snd2 (by assumption)) | (apply Same.snd (by assumption)) | (apply Same.fst (by assumption)) | dsimp only | apply Same.upd)

theorem delayRespMissed_same {bb : Bool} {d : Device} {e : Device} (h : SameB bb d e) :
    SameB bb d (delayRespMissed e) := by
  unfold delayRespMissed
  repeat' with_reducible (first | assumption | (extract_lets +onlyGivenNames zz; first | clear_value zz | skip) | apply Device.count_same | split | dsimp only | apply Same.upd)

theorem delayRespReceive_same {bb : Bool} {d : Device} {e : Device} (x1 : Nat) (x2 : Nat) (x3 : Sys2Proof.PtpMsg) (h : SameB bb d e) :
    SameB bb d (delayRespReceive e x1 x2 x3) := by
  unfold delayRespReceive
  repeat' with_reducible (first | assumption | (extract_lets +onlyGivenNames zz; first | (refine (fun (hz : SameB bb d zz) => ?_) ?_; clear_value zz; rotate_left; subst zz) | clear_value zz | skip) | apply Device.atCyc_same | apply Device.roundDiv_same | split | (apply Same.snd2 (by assumption)) | (apply Same.snd (by assumption)) | (apply Same.fst (by assumption)) | dsimp only | apply Same.upd)

theorem delayRespSend_same {bb : Bool} {d : Device} {e : Device} (x1 : Nat) (x2 : Nat) (x3 : Nat) (x4 : Int) (x5 : Sys2Proof.PtpMsg) (h : SameB bb d e) :
    SameB bb d (delayRespSend e x1 x2 x3 x4 x5) := by
  unfold delayRespSend
  repeat' with_reducible (first | assumption | (extract_lets +onlyGivenNames zz; first | (refine (fun (hz : SameB bb d zz) => ?_) ?_; clear_value zz; rotate_left; subst zz) | clear_value zz | skip) | apply Device.atCyc_same | apply Device.stampAt_same | apply Device.tsuQueue_same | apply Device.count_same | split | (apply Same.snd2 (by assumption)) | (apply Same.snd (by assumption)) | (apply Same.fst (by assumption)) | dsimp only | apply Same.upd)

theorem egressFirstByte_same {bb : Bool} {d : Device} {e : Device} (x1 : Nat) (x2 : Nat) (x3 : Nat) (x4 : Int) (h : SameB bb d e) :
    SameB bb d (egressFirstByte e x1 x2 x3 x4) := by
  unfold egressFirstByte
  repeat' with_reducible (first | assumption | (extract_lets +onlyGivenNames zz; first | (refine (fun (hz : SameB bb d zz) => ?_) ?_; clear_value zz; rotate_left; subst zz) | clear_value zz | skip) | apply Device.atCyc_same | apply Device.dropCopy_same | apply Device.txLatch_same | apply Device.stampAt_same | apply Device.dreqLeaves_same | apply Device.count_same | apply Device.tcPatch_same | apply Device.chargeMac_same | apply Device.modCopy_same | split | (apply Same.snd2 (by assumption)) | (apply Same.snd (by assumption)) | (apply Same.fst (by assumption)) | dsimp only | apply Same.upd)

theorem egressSelect_same {bb : Bool} {d : Device} {e : Device} (x1 : Nat) (x2 : Nat) (h : SameB bb d e) :
    SameB bb d (egressSelect e x1 x2) := by
  unfold egressSelect
  repeat' with_reducible (first | assumption | (extract_lets +onlyGivenNames zz; first | (refine (fun (hz : SameB bb d zz) => ?_) ?_; clear_value zz; rotate_left; subst zz) | clear_value zz | skip) | apply Device.atCyc_same | apply Device.purgeOversize_same | apply Device.selectOne_same | split | (apply Same.foldl; intro _ _ _) | dsimp only | apply Same.upd)

theorem errorInjectPeriodic_same {bb : Bool} {d : Device} {e : Device} (x1 : Nat) (x2 : Nat) (h : SameB bb d e) :
    SameB bb d (errorInjectPeriodic e x1 x2) := by
  unfold errorInjectPeriodic
  repeat' with_reducible (first | assumption | (extract_lets +onlyGivenNames zz; first | (refine (fun (hz : SameB bb d zz) => ?_) ?_; clear_value zz; rotate_left; subst zz) | skip) | apply Device.atCyc_same | apply Device.modLane_same | apply Device.inject_same | split | dsimp only | apply Same.upd)

theorem ext10mLost_same {bb : Bool} {d : Device} {e : Device} (x1 : Nat) (h : SameB bb d e) :
    SameB bb d (ext10mLost e x1) := by
  unfold ext10mLost
  repeat' with_reducible (first | assumption | (extract_lets +onlyGivenNames zz; first | (refine (fun (hz : SameB bb d zz) => ?_) ?_; clear_value zz; rotate_left; subst zz) | clear_value zz | skip) | apply Device.atCyc_same | apply Device.setReg_same | apply Device.raise_same | split | dsimp only | apply Same.upd)

theorem ext10mRestored_same {bb : Bool} {d : Device} {e : Device} (x1 : Nat) (h : SameB bb d e) :
    SameB bb d (ext10mRestored e x1) := by
  unfold ext10mRestored
  repeat' with_reducible (first | assumption | (extract_lets +onlyGivenNames zz; first | (refine (fun (hz : SameB bb d zz) => ?_) ?_; clear_value zz; rotate_left; subst zz) | clear_value zz | skip) | apply Device.atCyc_same | dsimp only | apply Same.upd)

theorem extReturn_same {bb : Bool} {d : Device} {e : Device} (x1 : Nat) (h : SameB bb d e) :
    SameB bb d (extReturn e x1) := by
  unfold extReturn
  repeat' with_reducible (first | assumption | (extract_lets +onlyGivenNames zz; first | (refine (fun (hz : SameB bb d zz) => ?_) ?_; clear_value zz; rotate_left; subst zz) | clear_value zz | skip) | apply Device.extLookup_same | apply Device.count_same | apply Device.setFlight_same | split | (apply Same.snd2 (by assumption)) | (apply Same.snd (by assumption)) | (apply Same.fst (by assumption)) | (apply SameO.get (by assumption)) | (apply SameP.get2 (by assumption)) | (apply SameP.get1 (by assumption)) | dsimp only | apply Same.upd)

theorem fatalFault_same {bb : Bool} {d : Device} {e : Device} (x1 : Nat) (h : SameB bb d e) :
    SameB bb d (fatalFault e x1) := by
  unfold fatalFault
  repeat' with_reducible (first | assumption | (extract_lets +onlyGivenNames zz; first | clear_value zz | skip) | apply Device.free_same | apply Device.fatalNow_same | apply Device.count_same | apply Device.occurrence_same | apply Device.logFault_same | apply Device.forget_same | split | (apply Same.snd2 (by assumption)) | (apply Same.snd (by assumption)) | (apply Same.fst (by assumption)) | dsimp only | apply Same.upd)

theorem fecUncorrLimit_same {bb : Bool} {d : Device} {e : Device} (x1 : Nat) (x2 : Nat) (x3 : Nat) (h : SameB bb d e) :
    SameB bb d (fecUncorrLimit e x1 x2 x3) := by
  unfold fecUncorrLimit
  repeat' with_reducible (first | assumption | (extract_lets +onlyGivenNames zz; first | (refine (fun (hz : SameB bb d zz) => ?_) ?_; clear_value zz; rotate_left; subst zz) | skip) | apply Device.atCyc_same | apply Device.addUncorr_same | apply Device.portCount_same | apply Device.retrain_same | split | dsimp only | apply Same.upd)

theorem fenceDiscardStep_same {bb : Bool} {d : Device} {e : Device} (h : SameB bb d e) :
    SameB bb d (fenceDiscardStep e) := by
  unfold fenceDiscardStep
  repeat' with_reducible (first | assumption | (extract_lets +onlyGivenNames zz; first | clear_value zz | skip) | apply Device.inPieces_same | apply Device.fenceFlight_same | apply Device.fenceTrap_same | apply Device.fenceCopy_same | apply Device.lhMoved_same | split | (apply Same.snd2 (by assumption)) | (apply Same.snd (by assumption)) | (apply Same.fst (by assumption)) | dsimp only | apply Same.upd)

theorem fftEntryExpire_same {bb : Bool} {d : Device} {e : Device} (x1 : Nat) (h : SameB bb d e) :
    SameB bb d (fftEntryExpire e x1) := by
  unfold fftEntryExpire
  repeat' with_reducible (first | assumption | apply Device.setFft_same | dsimp only | apply Same.upd)

theorem flowMissFetch_same {bb : Bool} {d : Device} {e : Device} (h : SameB bb d e) :
    SameB bb d (flowMissFetch e) := by
  unfold flowMissFetch
  repeat' with_reducible (first | assumption | (extract_lets +onlyGivenNames zz; first | (refine (fun (hz : SameB bb d zz) => ?_) ?_; clear_value zz; rotate_left; subst zz) | clear_value zz | skip) | apply Device.bucketUpd_same | apply Device.setCache_same | apply Device.mustWait_same | apply Device.lhMoved_same | apply Device.spend_same | apply Device.count_same | split | dsimp only | apply Same.upd)

theorem flowSweepVisit_same {bb : Bool} {d : Device} {e : Device} (h : SameB bb d e) :
    SameB bb d (flowSweepVisit e) := by
  unfold flowSweepVisit
  repeat' with_reducible (first | assumption | (extract_lets +onlyGivenNames zz; first | (refine (fun (hz : SameB bb d zz) => ?_) ?_; clear_value zz; rotate_left; subst zz) | clear_value zz | skip) | apply Device.mustWait_same | apply Device.spend_same | apply Device.sweepOn_same | apply Device.visitBucket_same | apply Device.lhMoved_same | apply Device.packRecord_same | split | dsimp only | apply Same.upd)

theorem followUpReceive_same {bb : Bool} {d : Device} {e : Device} (x1 : Nat) (x2 : Nat) (x3 : Sys2Proof.PtpMsg) (h : SameB bb d e) :
    SameB bb d (followUpReceive e x1 x2 x3) := by
  unfold followUpReceive
  repeat' with_reducible (first | assumption | (extract_lets +onlyGivenNames zz; first | (refine (fun (hz : SameB bb d zz) => ?_) ?_; clear_value zz; rotate_left; subst zz) | clear_value zz | skip) | apply Device.atCyc_same | apply Device.syncSample_same | split | dsimp only | apply Same.upd)

theorem fragReenter_same {bb : Bool} {d : Device} {e : Device} (x1 : Nat) (h : SameB bb d e) :
    SameB bb d (fragReenter e x1) := by
  unfold fragReenter
  repeat' with_reducible (first | assumption | (extract_lets +onlyGivenNames zz; first | (refine (fun (hz : SameB bb d zz.d) => ?_) ?_; clear_value zz; rotate_left; subst zz) | clear_value zz | skip) | apply Device.mustWait_same | apply Device.spend_same | apply fftStep_same | apply Device.keepStages_same | split | dsimp only | apply Same.upd)

theorem frameReceiveEnd_same {bb : Bool} {d : Device} {e : Device} (x1 : Nat) (x2 : Nat) (x3 : Sys2Proof.Bytes) (x4 : List (Nat × Nat)) (h : SameB bb d e) :
    SameB bb d (frameReceiveEnd e x1 x2 x3 x4) := by
  unfold frameReceiveEnd
  repeat' with_reducible (first | assumption | (extract_lets +onlyGivenNames zz; first | (refine (fun (hz : SameB bb d zz) => ?_) ?_; clear_value zz; rotate_left; subst zz) | clear_value zz | skip) | apply Device.atStage_same | apply Device.codewords_same | apply Device.endReceiving_same | apply Device.modFrame_same | apply Device.addBytes_same | apply Device.failFrame_same | apply Device.portCount_same | apply Device.oversized_same | apply Device.releaseFrame_same | apply Device.macControl_same | apply Device.event_same | apply Device.secDecide_same | apply Device.setFrame_same | apply Device.frameComplete_same | split | (apply Same.snd2 (by assumption)) | (apply Same.snd (by assumption)) | (apply Same.fst (by assumption)) | dsimp only | apply Same.upd)

theorem frameReceiveStart_same {bb : Bool} {d : Device} {e : Device} (x1 : Nat) (x2 : Nat) (x3 : Nat) (x4 : Int) (x5 : Bool) (x6 : Sys2Proof.Bytes) (h : SameB bb d e) :
    SameB bb d (frameReceiveStart e x1 x2 x3 x4 x5 x6) := by
  unfold frameReceiveStart
  try dsimp only
  repeat' with_reducible (first | assumption | apply Device.atStage_same | apply Device.portCount_same | apply Device.stampAt_same | apply Device.addBytes_same | apply Device.oversized_same | split | (apply Same.snd2 (by assumption)) | (apply Same.snd (by assumption)) | (apply Same.fst (by assumption)) | dsimp only | apply Same.upd)

theorem frameTransmitEnd_same {bb : Bool} {d : Device} {e : Device} (x1 : Nat) (h : SameB bb d e) :
    SameB bb d (frameTransmitEnd e x1) := by
  unfold frameTransmitEnd
  repeat' with_reducible (first | assumption | (extract_lets +onlyGivenNames zz; first | (refine (fun (hz : SameB bb d zz) => ?_) ?_; clear_value zz; rotate_left; subst zz) | clear_value zz | skip) | apply Device.stompKnown_same | apply Device.count_same | apply Device.send_same | apply Device.countSent_same | apply Device.event_same | apply Device.flowCopy_same | apply Device.endCopy_same | apply Device.stopSending_same | split | dsimp only | apply Same.upd)

theorem functionLevelReset_same {bb : Bool} {d : Device} {e : Device} (x1 : Nat) (h : SameB bb d e) :
    SameB bb d (functionLevelReset e x1) := by
  unfold functionLevelReset
  repeat' with_reducible (first | assumption | (extract_lets +onlyGivenNames zz; first | (refine (fun (hz : SameB bb d zz) => ?_) ?_; clear_value zz; rotate_left; subst zz) | clear_value zz | skip) | apply Device.modRing_same | apply Device.ringIdle_same | apply Device.raise_same | (apply Same.foldl; intro _ _ _) | dsimp only | apply Same.upd)

theorem galleryParityError_same {bb : Bool} {d : Device} {e : Device} (x1 : Nat) (h : SameB bb d e) :
    SameB bb d (galleryParityError e x1) := by
  unfold galleryParityError
  repeat' with_reducible (first | assumption | (extract_lets +onlyGivenNames zz; first | clear_value zz | skip) | apply Device.occurrence_same | apply Device.logFault_same | apply Device.faultFence_same | apply Device.forget_same | split | (apply Same.snd2 (by assumption)) | (apply Same.snd (by assumption)) | (apply Same.fst (by assumption)) | dsimp only | apply Same.upd)

theorem galleryWatchdog_same {bb : Bool} {d : Device} {e : Device} (x1 : Nat) (h : SameB bb d e) :
    SameB bb d (galleryWatchdog e x1) := by
  unfold galleryWatchdog
  repeat' with_reducible (first | assumption | (extract_lets +onlyGivenNames zz; first | (refine (fun (hz : SameB bb d zz) => ?_) ?_; clear_value zz; rotate_left; subst zz) | clear_value zz | skip) | apply Device.faultFence_same | apply Device.logFault_same | split | dsimp only | apply Same.upd)

theorem gateEdge_same {bb : Bool} {d : Device} {e : Device} (x1 : Nat) (x2 : Nat) (h : SameB bb d e) :
    SameB bb d (gateEdge e x1 x2) := by
  unfold gateEdge
  repeat' with_reducible (first | assumption | (extract_lets +onlyGivenNames zz; first | (refine (fun (hz : SameB bb d zz) => ?_) ?_; clear_value zz; rotate_left; subst zz) | clear_value zz | skip) | apply Device.atCyc_same | apply Device.setGate_same | split | dsimp only | apply Same.upd)

theorem gateTakeover_same {bb : Bool} {d : Device} {e : Device} (x1 : Nat) (x2 : Nat) (h : SameB bb d e) :
    SameB bb d (gateTakeover e x1 x2) := by
  unfold gateTakeover
  repeat' with_reducible (first | assumption | (extract_lets +onlyGivenNames zz; first | (refine (fun (hz : SameB bb d zz) => ?_) ?_; clear_value zz; rotate_left; subst zz) | clear_value zz | skip) | apply Device.atCyc_same | apply Device.setGate_same | split | (apply Same.foldl; intro _ _ _) | dsimp only | apply Same.upd)

theorem genReclaim_same {bb : Bool} {d : Device} {e : Device} (h : SameB bb d e) :
    SameB bb d (genReclaim e) := by
  unfold genReclaim
  repeat' with_reducible (first | assumption | (extract_lets +onlyGivenNames zz; first | (refine (fun (hz : SameB bb d zz) => ?_) ?_; clear_value zz; rotate_left; subst zz) | (have hq : GenUnit := zz; clear hq; subst zz) | clear_value zz | skip) | apply Device.genNotice_same | apply Device.rebuildTake_same | apply Device.rebuildSlot_same | apply Device.setFld_same | split | dsimp only | apply Same.upd | apply Same.updGen | exact rfl)

theorem genResyncEnd_same {bb : Bool} {d : Device} {e : Device} (h : SameB bb d e) :
    SameB bb d (genResyncEnd e) := by
  unfold genResyncEnd
  repeat' with_reducible (first | assumption | (extract_lets +onlyGivenNames zz; first | (refine (fun (hz : SameB bb d zz) => ?_) ?_; clear_value zz; rotate_left; subst zz) | (have hq : GenUnit := zz; clear hq; subst zz) | clear_value zz | skip) | apply Device.genNotice_same | apply Device.rebuildGive_same | split | dsimp only | apply Same.upd | apply Same.updGen | exact rfl)

theorem headerAccept_same {bb : Bool} {d : Device} {e : Device} (x1 : Nat) (x2 : Nat) (h : SameB bb d e) :
    SameB bb d (headerAccept e x1 x2) := by
  unfold headerAccept
  repeat' with_reducible (first | assumption | (extract_lets +onlyGivenNames zz; first | (refine (fun (hz : SameB bb d zz) => ?_) ?_; clear_value zz; rotate_left; subst zz) | clear_value zz | skip) | apply Device.atStage_same | apply Device.allWait_same | apply Device.takePosition_same | apply Device.spend_same | apply Device.skidHeader_same | apply Device.event_same | apply Device.modFrame_same | apply Device.toBack_same | apply Device.runParse_same | split | dsimp only | apply Same.upd)

theorem hostReadRetry_same {bb : Bool} {d : Device} {e : Device} (x1 : Nat) (h : SameB bb d e) :
    SameB bb d (hostReadRetry e x1) := by
  unfold hostReadRetry
  repeat' with_reducible (first | assumption | apply Device.modRing_same | split | dsimp only | apply Same.upd)

theorem hostReadTimeout_same {bb : Bool} {d : Device} {e : Device} (x1 : Nat) (x2 : Sys2Proof.HostRead) (h : SameB bb d e) :
    SameB bb d (hostReadTimeout e x1 x2) := by
  unfold hostReadTimeout
  repeat' with_reducible (first | assumption | (extract_lets +onlyGivenNames zz; first | clear_value zz | skip) | apply Device.rowFails_same | apply Device.readLate_same | apply Device.readAgain_same | apply Device.haltAt_same | split | dsimp only | apply Same.upd)

theorem icvCheckResult_same {bb : Bool} {d : Device} {e : Device} (x1 : Nat) (x2 : Nat) (h : SameB bb d e) :
    SameB bb d (icvCheckResult e x1 x2) := by
  unfold icvCheckResult
  repeat' with_reducible (first | assumption | (extract_lets +onlyGivenNames zz; first | (refine (fun (hz : SameB bb d zz) => ?_) ?_; clear_value zz; rotate_left; subst zz) | clear_value zz | skip) | apply Device.atStage_same | apply Device.rxAdvance_same | apply Device.count_same | apply Device.raise_same | apply Device.failFrame_same | apply Device.ptpCheck_same | apply Device.modFrame_same | apply Device.releaseFrame_same | split | (apply Same.snd2 (by assumption)) | (apply Same.snd (by assumption)) | (apply Same.fst (by assumption)) | dsimp only | apply Same.upd)

theorem imageLoadDone_same {bb : Bool} {d : Device} {e : Device} (x1 : Nat) (x2 : Sys2Proof.Bytes) (h : SameB bb d e) :
    SameB bb d (imageLoadDone e x1 x2) := by
  unfold imageLoadDone
  repeat' with_reducible (first | assumption | (extract_lets +onlyGivenNames zz; first | (refine (fun (hz : SameB bb d zz) => ?_) ?_; clear_value zz; rotate_left; subst zz) | clear_value zz | skip) | apply Device.loadEnds_same | apply Device.takePieces_same | apply Device.modRole_same | apply Device.event_same | split | (apply Same.snd2 (by assumption)) | (apply Same.snd (by assumption)) | (apply Same.fst (by assumption)) | dsimp only | apply Same.upd)

theorem roleReadTimeout_same {bb : Bool} {d : Device} {e : Device} (x1 : Nat) (h : SameB bb d e) :
    SameB bb d (roleReadTimeout e x1) := by
  unfold roleReadTimeout
  repeat' with_reducible (first | assumption | (extract_lets +onlyGivenNames zz; first | clear_value zz | skip) | apply Device.loadEnds_same | apply Device.readTimedOut_same | apply Device.modRole_same | split | dsimp only | apply Same.upd)

theorem imageReadTimeout_same {bb : Bool} {d : Device} {e : Device} (x1 : Nat) (h : SameB bb d e) :
    SameB bb d (imageReadTimeout e x1) := by
  unfold imageReadTimeout
  repeat' with_reducible (first | assumption | (extract_lets +onlyGivenNames zz; first | (refine (fun (hz : SameB bb d zz) => ?_) ?_; clear_value zz; rotate_left; subst zz) | (have hq : BootUnit := zz; clear hq; subst zz) | clear_value zz | skip) | apply roleReadTimeout_same | apply Device.bootFails_same | apply Device.readTimedOut_same | split | dsimp only | apply Same.upd | apply Same.updBoot | exact rfl)

theorem imageSwitchMade_same {bb : Bool} {d : Device} {e : Device} (x1 : Nat) (h : SameB bb d e) :
    SameB bb d (imageSwitchMade e x1) := by
  unfold imageSwitchMade
  repeat' with_reducible (first | assumption | (extract_lets +onlyGivenNames zz; first | (refine (fun (hz : SameB bb d zz) => ?_) ?_; clear_value zz; rotate_left; subst zz) | skip) | apply Device.busFinish_same | apply Device.modRole_same | apply Device.seqStart_same | apply Device.modSeq_same | apply Device.raise_same | split | (apply Same.foldl; intro _ _ _) | dsimp only | apply Same.upd)

theorem imageSwitchTimeout_same {bb : Bool} {d : Device} {e : Device} (x1 : Nat) (h : SameB bb d e) :
    SameB bb d (imageSwitchTimeout e x1) := by
  unfold imageSwitchTimeout
  repeat' with_reducible (first | assumption | apply Device.modRole_same | split | dsimp only | apply Same.upd)

theorem ingressPassEnd_same {bb : Bool} {d : Device} {e : Device} (x1 : Nat) (x2 : Nat) (h : SameB bb d e) :
    SameB bb d (ingressPassEnd e x1 x2) := by
  unfold ingressPassEnd
  repeat' with_reducible (first | assumption | (extract_lets +onlyGivenNames zz; first | (refine (fun (hz : SameB bb d zz) => ?_) ?_; clear_value zz; rotate_left; subst zz) | skip) | apply Device.atStage_same | apply Device.settlePass_same | split | dsimp only | apply Same.upd)

theorem jtagBypass_same {bb : Bool} {d : Device} {e : Device} (h : SameB bb d e) :
    SameB bb d (jtagBypass e) := by
  unfold jtagBypass
  repeat' with_reducible (first | assumption | apply Device.jtagLoad_same | dsimp only | apply Same.upd)

theorem jtagClamp_same {bb : Bool} {d : Device} {e : Device} (h : SameB bb d e) :
    SameB bb d (jtagClamp e) := by
  unfold jtagClamp
  repeat' with_reducible (first | assumption | apply Device.jtagLoad_same | dsimp only | apply Same.upd)

theorem jtagExtest_same {bb : Bool} {d : Device} {e : Device} (x1 : Sys2Proof.BallLevels) (h : SameB bb d e) :
    SameB bb d (jtagExtest e x1) := by
  unfold jtagExtest
  repeat' with_reducible (first | assumption | (extract_lets +onlyGivenNames zz; first | (refine (fun (hz : SameB bb d zz) => ?_) ?_; clear_value zz; rotate_left; subst zz) | clear_value zz | skip) | apply Device.jtagLoad_same | split | dsimp only | apply Same.upd)

theorem jtagHighz_same {bb : Bool} {d : Device} {e : Device} (h : SameB bb d e) :
    SameB bb d (jtagHighz e) := by
  unfold jtagHighz
  repeat' with_reducible (first | assumption | apply Device.jtagLoad_same | dsimp only | apply Same.upd)

theorem jtagIdcode_same {bb : Bool} {d : Device} {e : Device} (h : SameB bb d e) :
    SameB bb d (jtagIdcode e) := by
  unfold jtagIdcode
  repeat' with_reducible (first | assumption | apply Device.jtagLoad_same | dsimp only | apply Same.upd)

theorem jtagSample_same {bb : Bool} {d : Device} {e : Device} (x1 : Sys2Proof.BallLevels) (x2 : Sys2Proof.BallLevels) (h : SameB bb d e) :
    SameB bb d (jtagSample e x1 x2) := by
  unfold jtagSample
  repeat' with_reducible (first | assumption | (extract_lets +onlyGivenNames zz; first | (refine (fun (hz : SameB bb d zz) => ?_) ?_; clear_value zz; rotate_left; subst zz) | clear_value zz | skip) | apply Device.jtagLoad_same | split | dsimp only | apply Same.upd)

theorem jtagTrst_same {bb : Bool} {d : Device} {e : Device} (x1 : Bool) (h : SameB bb d e) :
    SameB bb d (jtagTrst e x1) := by
  unfold jtagTrst
  repeat' with_reducible (first | assumption | (extract_lets +onlyGivenNames zz; first | clear_value zz | skip) | split | dsimp only | apply Same.upd)

theorem keyCommitPoint_same {bb : Bool} {d : Device} {e : Device} (x1 : Nat) (h : SameB bb d e) :
    SameB bb d (keyCommitPoint e x1) := by
  unfold keyCommitPoint
  repeat' with_reducible (first | assumption | (extract_lets +onlyGivenNames zz; first | (refine (fun (hz : SameB bb d zz) => ?_) ?_; clear_value zz; rotate_left; subst zz) | clear_value zz | skip) | apply Device.setKeySlot_same | split | (apply Same.foldl; intro _ _ _) | dsimp only | apply Same.upd)

theorem laneUp_same {bb : Bool} {d : Device} {e : Device} (x1 : Nat) (h : SameB bb d e) :
    SameB bb d (laneUp e x1) := by
  unfold laneUp
  repeat' with_reducible (first | assumption | (extract_lets +onlyGivenNames zz; first | (refine (fun (hz : SameB bb d zz) => ?_) ?_; clear_value zz; rotate_left; subst zz) | skip) | apply Device.modBring_same | apply Device.rclkBoundary_same | apply Device.raiseLanes_same | split | dsimp only | apply Same.upd)

theorem learnAdmit_same {bb : Bool} {d : Device} {e : Device} (x1 : Nat) (h : SameB bb d e) :
    SameB bb d (learnAdmit e x1) := by
  unfold learnAdmit
  repeat' with_reducible (first | assumption | (extract_lets +onlyGivenNames zz; first | (refine (fun (hz : SameB bb d zz) => ?_) ?_; clear_value zz; rotate_left; subst zz) | clear_value zz | skip) | apply Device.atStage_same | apply Device.mustWait_same | apply Device.spend_same | apply Device.learnDo_same | split | (apply Same.foldl; intro _ _ _) | dsimp only | apply Same.upd)

theorem ledgerCopyDone_same {bb : Bool} {d : Device} {e : Device} (h : SameB bb d e) :
    SameB bb d (ledgerCopyDone e) := by
  unfold ledgerCopyDone
  repeat' with_reducible (first | assumption | (extract_lets +onlyGivenNames zz; first | (refine (fun (hz : SameB bb d zz) => ?_) ?_; clear_value zz; rotate_left; subst zz) | clear_value zz | skip) | apply Device.copyRecords_same | apply Device.mustWait_same | apply Device.raise_same | split | dsimp only | apply Same.upd)

theorem ledgerRecord_same {bb : Bool} {d : Device} {e : Device} (x1 : Nat) (h : SameB bb d e) :
    SameB bb d (ledgerRecord e x1) := by
  unfold ledgerRecord
  repeat' with_reducible (first | assumption | (extract_lets +onlyGivenNames zz; first | (refine (fun (hz : SameB bb d zz) => ?_) ?_; clear_value zz; rotate_left; subst zz) | clear_value zz | skip) | apply Device.atCyc_same | apply Device.mustWait_same | apply Device.ledgerMake_same | apply Device.spend_same | split | dsimp only | apply Same.upd)

theorem lhEccCorrected_same {bb : Bool} {d : Device} {e : Device} (x1 : Nat) (x2 : Nat) (x3 : Bool) (h : SameB bb d e) :
    SameB bb d (lhEccCorrected e x1 x2 x3) := by
  unfold lhEccCorrected
  repeat' with_reducible (first | assumption | (extract_lets +onlyGivenNames zz; first | clear_value zz | skip) | apply Device.occurrence_same | apply Device.noteFixed_same | apply Device.count_same | apply Device.logFault_same | apply Device.lhPermanent_same | split | (apply Same.snd2 (by assumption)) | (apply Same.snd (by assumption)) | (apply Same.fst (by assumption)) | dsimp only | apply Same.upd)

theorem lhTransferComplete_same {bb : Bool} {d : Device} {e : Device} (x1 : Nat) (h : SameB bb d e) :
    SameB bb d (lhTransferComplete e x1) := by
  unfold lhTransferComplete
  repeat' with_reducible (first | assumption | (extract_lets +onlyGivenNames zz; first | (refine (fun (hz : SameB bb d zz) => ?_) ?_; clear_value zz; rotate_left; subst zz) | skip) | apply Device.inPieces_same | apply Device.event_same | apply Device.lhMove_same | apply Device.seqLook_same | apply Device.modSeq_same | split | (apply Same.foldl; intro _ _ _) | (apply Same.snd2 (by assumption)) | (apply Same.snd (by assumption)) | (apply Same.fst (by assumption)) | dsimp only | apply Same.upd)

theorem linkTrain_same {bb : Bool} {d : Device} {e : Device} (x1 : Nat) (x2 : List Nat) (x3 : List Nat) (h : SameB bb d e) :
    SameB bb d (linkTrain e x1 x2 x3) := by
  unfold linkTrain
  repeat' with_reducible (first | assumption | (extract_lets +onlyGivenNames zz; first | (refine (fun (hz : SameB bb d zz) => ?_) ?_; clear_value zz; rotate_left; subst zz) | clear_value zz | skip) | apply Device.failedLane_same | apply Device.setLink_same | apply Device.tryStart_same | split | (apply Same.foldl; intro _ _ _) | dsimp only | apply Same.upd)

theorem lockExpire_same {bb : Bool} {d : Device} {e : Device} (x1 : Nat) (h : SameB bb d e) :
    SameB bb d (lockExpire e x1) := by
  unfold lockExpire
  repeat' with_reducible (first | assumption | (extract_lets +onlyGivenNames zz; first | (refine (fun (hz : SameB bb d zz) => ?_) ?_; clear_value zz; rotate_left; subst zz) | clear_value zz | skip) | apply Device.setReg_same | apply Device.raise_same | apply Device.count_same | apply Device.notify_same | split | dsimp only | apply Same.upd)

theorem lpiEnter_same {bb : Bool} {d : Device} {e : Device} (x1 : Nat) (x2 : Nat) (h : SameB bb d e) :
    SameB bb d (lpiEnter e x1 x2) := by
  unfold lpiEnter
  repeat' with_reducible (first | assumption | (extract_lets +onlyGivenNames zz; first | (refine (fun (hz : SameB bb d zz) => ?_) ?_; clear_value zz; rotate_left; subst zz) | clear_value zz | skip) | apply Device.atCyc_same | apply Device.modPort_same | apply Device.modLane_same | split | (apply Same.foldl; intro _ _ _) | dsimp only | apply Same.upd)

theorem lpiExit_same {bb : Bool} {d : Device} {e : Device} (x1 : Nat) (x2 : Nat) (h : SameB bb d e) :
    SameB bb d (lpiExit e x1 x2) := by
  unfold lpiExit
  repeat' with_reducible (first | assumption | (extract_lets +onlyGivenNames zz; first | (refine (fun (hz : SameB bb d zz) => ?_) ?_; clear_value zz; rotate_left; subst zz) | skip) | apply Device.atCyc_same | apply Device.leaveLpiTx_same | split | dsimp only | apply Same.upd)

theorem lpiPartner_same {bb : Bool} {d : Device} {e : Device} (x1 : Nat) (x2 : Nat) (x3 : Bool) (h : SameB bb d e) :
    SameB bb d (lpiPartner e x1 x2 x3) := by
  unfold lpiPartner
  repeat' with_reducible (first | assumption | (extract_lets +onlyGivenNames zz; first | (refine (fun (hz : SameB bb d zz) => ?_) ?_; clear_value zz; rotate_left; subst zz) | (refine (fun (hf : ∀ x a, SameB bb d x → SameB bb d (zz x a)) => ?_) ?_; clear_value zz; rotate_left; subst zz) | clear_value zz | skip) | apply Device.atCyc_same | apply Device.modLane_same | apply Device.modPort_same | apply Device.portCount_same | apply hf | split | intro _ | (apply Same.foldl; intro _ _ _) | dsimp only | apply Same.upd)

theorem microwordIssue_same {bb : Bool} {d : Device} {e : Device} (x1 : Nat) (x2 : Nat) (h : SameB bb d e) :
    SameB bb d (microwordIssue e x1 x2) := by
  unfold microwordIssue
  repeat' with_reducible (first | assumption | (extract_lets +onlyGivenNames zz; first | (refine (fun (hz : SameB bb d zz) => ?_) ?_; clear_value zz; rotate_left; subst zz) | clear_value zz | skip) | apply Device.atCyc_same | apply Device.mustWait_same | apply Device.event_same | apply Device.count_same | apply Device.spend_same | apply Device.modSeq_same | apply Device.seqFault_same | apply Device.seqOp_same | split | dsimp only | apply Same.upd)

theorem msixVectorUnmask_same {bb : Bool} {d : Device} {e : Device} (x1 : Nat) (h : SameB bb d e) :
    SameB bb d (msixVectorUnmask e x1) := by
  unfold msixVectorUnmask
  repeat' with_reducible (first | assumption | (extract_lets +onlyGivenNames zz; first | (refine (fun (hz : SameB bb d zz) => ?_) ?_; clear_value zz; rotate_left; subst zz) | clear_value zz | skip) | apply Device.entrySignal_same | split | dsimp only | apply Same.upd)

theorem nackReceive_same {bb : Bool} {d : Device} {e : Device} (x1 : Nat) (h : SameB bb d e) :
    SameB bb d (nackReceive e x1) := by
  unfold nackReceive
  repeat' with_reducible (first | assumption | (extract_lets +onlyGivenNames zz; first | clear_value zz | skip) | apply Device.anvilTake_same | apply Device.timeoutFirst_same | apply Device.takeMsg_same | apply Device.count_same | apply Device.sendUp_same | apply Device.setChunk_same | split | (apply Same.snd2 (by assumption)) | (apply Same.snd (by assumption)) | (apply Same.fst (by assumption)) | dsimp only | apply Same.upd)

theorem nackTimer_same {bb : Bool} {d : Device} {e : Device} (x1 : Nat) (h : SameB bb d e) :
    SameB bb d (nackTimer e x1) := by
  unfold nackTimer
  repeat' with_reducible (first | assumption | apply Device.nackNow_same | split | dsimp only | apply Same.upd)

theorem noticeWrite_same {bb : Bool} {d : Device} {e : Device} (h : SameB bb d e) :
    SameB bb d (noticeWrite e) := by
  unfold noticeWrite
  try dsimp only
  repeat' with_reducible (first | assumption | apply Device.count_same | apply Device.ringPay_same | apply Device.postWrite_same | apply Device.heldFails_same | apply Device.fillHeld_same | apply Device.dmaEvent_same | split | (apply Same.snd2 (by assumption)) | (apply Same.snd (by assumption)) | (apply Same.fst (by assumption)) | (apply SameO.get (by assumption)) | (apply SameP.get2 (by assumption)) | (apply SameP.get1 (by assumption)) | dsimp only | apply Same.upd)

theorem p7DormantEntry_same {bb : Bool} {d : Device} {e : Device} (x1 : Nat) (h : SameB bb d e) :
    SameB bb d (p7DormantEntry e x1) := by
  unfold p7DormantEntry
  repeat' with_reducible (first | assumption | apply Device.goDormant_same | split | dsimp only | apply Same.upd)

theorem p7WakeTimeout_same {bb : Bool} {d : Device} {e : Device} (x1 : Nat) (h : SameB bb d e) :
    SameB bb d (p7WakeTimeout e x1) := by
  unfold p7WakeTimeout
  repeat' with_reducible (first | assumption | apply Device.goDormant_same | split | dsimp only | apply Same.upd)

theorem paceLevelStep_same {bb : Bool} {d : Device} {e : Device} (h : SameB bb d e) :
    SameB bb d (paceLevelStep e) := by
  unfold paceLevelStep
  repeat' with_reducible (first | assumption | (extract_lets +onlyGivenNames zz; first | clear_value zz | skip) | split | dsimp only | apply Same.upd)

theorem pacingPeriod_same {bb : Bool} {d : Device} {e : Device} (h : SameB bb d e) :
    SameB bb d (pacingPeriod e) := by
  unfold pacingPeriod
  repeat' with_reducible (first | assumption | (extract_lets +onlyGivenNames zz; first | clear_value zz | skip) | split | dsimp only | apply Same.upd)

theorem parseResume_same {bb : Bool} {d : Device} {e : Device} (x1 : Nat) (x2 : Nat) (x3 : Sys2Proof.Bytes) (h : SameB bb d e) :
    SameB bb d (parseResume e x1 x2 x3) := by
  unfold parseResume
  repeat' with_reducible (first | assumption | (extract_lets +onlyGivenNames zz; first | (refine (fun (hz : SameB bb d zz) => ?_) ?_; clear_value zz; rotate_left; subst zz) | clear_value zz | skip) | apply Device.atStage_same | apply Device.addBytes_same | apply Device.oversized_same | apply Device.pushBytes_same | split | dsimp only | apply Same.upd)

theorem pdelayExchange_same {bb : Bool} {d : Device} {e : Device} (x1 : Nat) (x2 : Nat) (x3 : Nat) (x4 : Int) (h : SameB bb d e) :
    SameB bb d (pdelayExchange e x1 x2 x3 x4) := by
  unfold pdelayExchange
  repeat' with_reducible (first | assumption | (extract_lets +onlyGivenNames zz; first | (refine (fun (hz : SameB bb d zz) => ?_) ?_; clear_value zz; rotate_left; subst zz) | clear_value zz | skip) | apply Device.atCyc_same | apply Device.pdelayFail_same | apply Device.stampAt_same | apply Device.modPort_same | apply Device.sendOwn_same | split | (apply Same.snd2 (by assumption)) | (apply Same.snd (by assumption)) | (apply Same.fst (by assumption)) | dsimp only | apply Same.upd)

theorem pdelayReqAnswer_same {bb : Bool} {d : Device} {e : Device} (x1 : Nat) (x2 : Nat) (x3 : Nat) (x4 : Int) (x5 : Nat) (x6 : Int) (x7 : Nat) (x8 : Nat) (x9 : Nat) (h : SameB bb d e) :
    SameB bb d (pdelayReqAnswer e x1 x2 x3 x4 x5 x6 x7 x8 x9) := by
  unfold pdelayReqAnswer
  repeat' with_reducible (first | assumption | (extract_lets +onlyGivenNames zz; first | (refine (fun (hz : SameB bb d zz) => ?_) ?_; clear_value zz; rotate_left; subst zz) | clear_value zz | skip) | apply Device.atCyc_same | apply Device.stampAt_same | apply Device.sendOwn_same | split | (apply Same.snd2 (by assumption)) | (apply Same.snd (by assumption)) | (apply Same.fst (by assumption)) | dsimp only | apply Same.upd)

theorem pdelayRespReceive_same {bb : Bool} {d : Device} {e : Device} (x1 : Nat) (x2 : Nat) (x3 : Nat) (x4 : Int) (x5 : Nat) (x6 : Nat) (x7 : Nat) (x8 : Nat) (h : SameB bb d e) :
    SameB bb d (pdelayRespReceive e x1 x2 x3 x4 x5 x6 x7 x8) := by
  unfold pdelayRespReceive
  repeat' with_reducible (first | assumption | (extract_lets +onlyGivenNames zz; first | (refine (fun (hz : SameB bb d zz) => ?_) ?_; clear_value zz; rotate_left; subst zz) | clear_value zz | skip) | apply Device.atCyc_same | apply Device.stampAt_same | apply Device.roundDiv_same | apply Device.modPort_same | apply Device.loopSample_same | split | (apply Same.snd2 (by assumption)) | (apply Same.snd (by assumption)) | (apply Same.fst (by assumption)) | dsimp only | apply Same.upd)

theorem pfcStopExpire_same {bb : Bool} {d : Device} {e : Device} (x1 : Nat) (x2 : Nat) (h : SameB bb d e) :
    SameB bb d (pfcStopExpire e x1 x2) := by
  unfold pfcStopExpire
  repeat' with_reducible (first | assumption | (extract_lets +onlyGivenNames zz; first | (refine (fun (hz : SameB bb d zz) => ?_) ?_; clear_value zz; rotate_left; subst zz) | skip) | apply Device.atCyc_same | apply Device.modPort_same | dsimp only | apply Same.upd)

theorem pfcXoffRepeat_same {bb : Bool} {d : Device} {e : Device} (x1 : Nat) (x2 : Nat) (h : SameB bb d e) :
    SameB bb d (pfcXoffRepeat e x1 x2) := by
  unfold pfcXoffRepeat
  repeat' with_reducible (first | assumption | (extract_lets +onlyGivenNames zz; first | (refine (fun (hz : SameB bb d zz) => ?_) ?_; clear_value zz; rotate_left; subst zz) | clear_value zz | skip) | apply Device.atCyc_same | apply Device.askFc_same | split | (apply Same.foldl; intro _ _ _) | dsimp only | apply Same.upd)

theorem portDown_same {bb : Bool} {d : Device} {e : Device} (x1 : Nat) (x2 : Nat) (h : SameB bb d e) :
    SameB bb d (portDown e x1 x2) := by
  unfold portDown
  repeat' with_reducible (first | assumption | (extract_lets +onlyGivenNames zz; first | (refine (fun (hz : SameB bb d zz) => ?_) ?_; clear_value zz; rotate_left; subst zz) | clear_value zz | skip) | apply Device.settlePort_same | apply Device.modPort_same | apply Device.dropPort_same | split | dsimp only | apply Same.upd)

theorem portUp_same {bb : Bool} {d : Device} {e : Device} (x1 : Nat) (h : SameB bb d e) :
    SameB bb d (portUp e x1) := by
  unfold portUp
  repeat' with_reducible (first | assumption | (extract_lets +onlyGivenNames zz; first | (refine (fun (hz : SameB bb d zz) => ?_) ?_; clear_value zz; rotate_left; subst zz) | clear_value zz | skip) | apply Device.modPort_same | apply Device.modBring_same | apply Device.showPort_same | split | dsimp only | apply Same.upd)

theorem ppsInEdge_same {bb : Bool} {d : Device} {e : Device} (x1 : Nat) (x2 : Nat) (x3 : Nat) (h : SameB bb d e) :
    SameB bb d (ppsInEdge e x1 x2 x3) := by
  unfold ppsInEdge
  repeat' with_reducible (first | assumption | (extract_lets +onlyGivenNames zz; first | (refine (fun (hz : SameB bb d zz) => ?_) ?_; clear_value zz; rotate_left; subst zz) | clear_value zz | skip) | apply Device.atCyc_same | apply Device.raise_same | apply Device.ppsOffset_same | apply Device.servoSample_same | split | (apply Same.snd2 (by assumption)) | (apply Same.snd (by assumption)) | (apply Same.fst (by assumption)) | dsimp only | apply Same.upd)

theorem ppsOutEdge_same {bb : Bool} {d : Device} {e : Device} (x1 : Nat) (x2 : Nat) (h : SameB bb d e) :
    SameB bb d (ppsOutEdge e x1 x2) := by
  unfold ppsOutEdge
  repeat' with_reducible (first | assumption | (extract_lets +onlyGivenNames zz; first | (refine (fun (hz : SameB bb d zz) => ?_) ?_; clear_value zz; rotate_left; subst zz) | clear_value zz | skip) | apply Device.atCyc_same | apply Device.ppsLower_same | apply Device.send_same | split | dsimp only | apply Same.upd)

theorem prbsLock_same {bb : Bool} {d : Device} {e : Device} (x1 : Nat) (h : SameB bb d e) :
    SameB bb d (prbsLock e x1) := by
  unfold prbsLock
  repeat' with_reducible (first | assumption | apply Device.modLane_same | split | dsimp only | apply Same.upd)

theorem prbsLockLost_same {bb : Bool} {d : Device} {e : Device} (x1 : Nat) (x2 : Nat) (h : SameB bb d e) :
    SameB bb d (prbsLockLost e x1 x2) := by
  unfold prbsLockLost
  repeat' with_reducible (first | assumption | (extract_lets +onlyGivenNames zz; first | (refine (fun (hz : SameB bb d zz) => ?_) ?_; clear_value zz; rotate_left; subst zz) | skip) | apply Device.countN_same | apply Device.raise_same | apply Device.modLane_same | split | dsimp only | apply Same.upd)

theorem quenchRelease_same {bb : Bool} {d : Device} {e : Device} (x1 : Nat) (h : SameB bb d e) :
    SameB bb d (quenchRelease e x1) := by
  unfold quenchRelease
  repeat' with_reducible (first | assumption | (extract_lets +onlyGivenNames zz; first | (refine (fun (hz : SameB bb d zz) => ?_) ?_; clear_value zz; rotate_left; subst zz) | clear_value zz | skip) | apply Device.atCyc_same | apply Device.causeTime_same | split | dsimp only | apply Same.upd)

theorem quenchStart_same {bb : Bool} {d : Device} {e : Device} (x1 : Sys2Proof.Droop) (h : SameB bb d e) :
    SameB bb d (quenchStart e x1) := by
  unfold quenchStart
  repeat' with_reducible (first | assumption | (extract_lets +onlyGivenNames zz; first | (refine (fun (hz : SameB bb d zz) => ?_) ?_; clear_value zz; rotate_left; subst zz) | clear_value zz | skip) | apply Device.atCyc_same | apply Device.raise_same | split | dsimp only | apply Same.upd)

theorem recordWrite_same {bb : Bool} {d : Device} {e : Device} (x1 : Bool) (h : SameB bb d e) :
    SameB bb d (recordWrite e x1) := by
  unfold recordWrite
  repeat' with_reducible (first | assumption | (extract_lets +onlyGivenNames zz; first | (refine (fun (hz : SameB bb d zz) => ?_) ?_; clear_value zz; rotate_left; subst zz) | clear_value zz | skip) | apply Device.send_same | apply Device.raise_same | apply Device.setW1c_same | split | dsimp only | apply Same.upd)

theorem refClockLost_same {bb : Bool} {d : Device} {e : Device} (x1 : Nat) (h : SameB bb d e) :
    SameB bb d (refClockLost e x1) := by
  unfold refClockLost
  repeat' with_reducible (first | assumption | (extract_lets +onlyGivenNames zz; first | (refine (fun (hz : SameB bb d zz) => ?_) ?_; clear_value zz; rotate_left; subst zz) | clear_value zz | skip) | apply Device.settleLane_same | apply Device.settlePort_same | split | (apply Same.foldl; intro _ _ _) | dsimp only | apply Same.upd)

theorem refClockRestored_same {bb : Bool} {d : Device} {e : Device} (x1 : Nat) (h : SameB bb d e) :
    SameB bb d (refClockRestored e x1) := by
  unfold refClockRestored
  repeat' with_reducible (first | assumption | (extract_lets +onlyGivenNames zz; first | clear_value zz | skip) | split | dsimp only | apply Same.upd)

theorem replaceDone_same {bb : Bool} {d : Device} {e : Device} (h : SameB bb d e) :
    SameB bb d (replaceDone e) := by
  unfold replaceDone
  repeat' with_reducible (first | assumption | (extract_lets +onlyGivenNames zz; first | clear_value zz | skip) | apply Device.raise_same | split | dsimp only | apply Same.upd)

theorem resultReceive_same {bb : Bool} {d : Device} {e : Device} (x1 : Nat) (h : SameB bb d e) :
    SameB bb d (resultReceive e x1) := by
  unfold resultReceive
  repeat' with_reducible (first | assumption | (extract_lets +onlyGivenNames zz; first | (refine (fun (hz : SameB bb d zz) => ?_) ?_; clear_value zz; rotate_left; subst zz) | clear_value zz | skip) | apply Device.anvilTake_same | apply Device.timeoutFirst_same | apply Device.dropMsg_same | apply Device.issue_same | apply Device.msgBytes_same | apply Device.count_same | apply Device.releaseChunk_same | apply Device.sendResult_same | apply Device.takeMsg_same | apply Device.retain_same | split | (apply Same.snd2 (by assumption)) | (apply Same.snd (by assumption)) | (apply Same.fst (by assumption)) | dsimp only | apply Same.upd)

theorem retainComplete_same {bb : Bool} {d : Device} {e : Device} (x1 : Nat) (h : SameB bb d e) :
    SameB bb d (retainComplete e x1) := by
  unfold retainComplete
  repeat' with_reducible (first | assumption | (extract_lets +onlyGivenNames zz; first | (refine (fun (hz : SameB bb d zz) => ?_) ?_; clear_value zz; rotate_left; subst zz) | clear_value zz | skip) | apply Device.inPieces_same | apply Device.takeGrant_same | apply Device.event_same | apply Device.freeBillet_same | apply Device.setGroup_same | split | (apply Same.snd2 (by assumption)) | (apply Same.snd (by assumption)) | (apply Same.fst (by assumption)) | dsimp only | apply Same.upd)

theorem retainExpire_same {bb : Bool} {d : Device} {e : Device} (x1 : Nat) (h : SameB bb d e) :
    SameB bb d (retainExpire e x1) := by
  unfold retainExpire
  repeat' with_reducible (first | assumption | (extract_lets +onlyGivenNames zz; first | clear_value zz | skip) | apply Device.freeBillet_same | apply Device.setGroup_same | split | dsimp only | apply Same.upd)

theorem ringEntryRead_same {bb : Bool} {d : Device} {e : Device} (x1 : Nat) (x2 : Option Sys2Proof.Bytes) (x3 : Option Sys2Proof.Bytes) (h : SameB bb d e) :
    SameB bb d (ringEntryRead e x1 x2 x3) := by
  unfold ringEntryRead
  repeat' with_reducible (first | assumption | (extract_lets +onlyGivenNames zz; first | clear_value zz | skip) | apply Device.ringPay_same | apply Device.haltAt_same | apply Device.ringSettle_same | apply Device.entryCome_same | split | (apply Same.snd2 (by assumption)) | (apply Same.snd (by assumption)) | (apply Same.fst (by assumption)) | dsimp only | apply Same.upd)

theorem ringPoll_same {bb : Bool} {d : Device} {e : Device} (x1 : Nat) (h : SameB bb d e) :
    SameB bb d (ringPoll e x1) := by
  unfold ringPoll
  repeat' with_reducible (first | assumption | (extract_lets +onlyGivenNames zz; first | clear_value zz | skip) | apply Device.setRing_same | split | dsimp only | apply Same.upd)

theorem rowRepairSwitch_same {bb : Bool} {d : Device} {e : Device} (h : SameB bb d e) :
    SameB bb d (rowRepairSwitch e) := by
  unfold rowRepairSwitch
  repeat' with_reducible (first | assumption | (extract_lets +onlyGivenNames zz; first | (refine (fun (hz : SameB bb d zz) => ?_) ?_; clear_value zz; rotate_left; subst zz) | clear_value zz | skip) | apply Device.inPieces_same | apply Device.retireRecord_same | apply Device.count_same | split | (apply Same.foldl; intro _ _ _) | (apply Same.snd2 (by assumption)) | (apply Same.snd (by assumption)) | (apply Same.fst (by assumption)) | dsimp only | apply Same.upd)

theorem rowTestComplete_same {bb : Bool} {d : Device} {e : Device} (x1 : Sys2Proof.Machine.FaultPlace) (x2 : Bool) (h : SameB bb d e) :
    SameB bb d (rowTestComplete e x1 x2) := by
  unfold rowTestComplete
  repeat' with_reducible (first | assumption | (extract_lets +onlyGivenNames zz; first | (refine (fun (hz : SameB bb d zz) => ?_) ?_; clear_value zz; rotate_left; subst zz) | (refine (fun (hf : ∀ x, SameB bb d x → SameB bb d (zz x)) => ?_) ?_; clear_value zz; rotate_left; subst zz) | clear_value zz | skip) | apply Device.inPieces_same | apply Device.lhMoved_same | apply Device.occurrence_same | apply Device.logFault_same | apply Device.lhFailed_same | apply Device.rowPermanent_same | apply Device.forget_same | apply Device.repairRow_same | apply Device.outOfService_same | apply hf | split | intro _ | (apply Same.snd2 (by assumption)) | (apply Same.snd (by assumption)) | (apply Same.fst (by assumption)) | (apply SameO.get (by assumption)) | (apply SameP.get2 (by assumption)) | (apply SameP.get1 (by assumption)) | dsimp only | apply Same.upd)

theorem rxPacketWrite_same {bb : Bool} {d : Device} {e : Device} (x1 : Nat) (h : SameB bb d e) :
    SameB bb d (rxPacketWrite e x1) := by
  unfold rxPacketWrite
  repeat' with_reducible (first | assumption | (extract_lets +onlyGivenNames zz; first | (refine (fun (hz : SameB bb d zz) => ?_) ?_; clear_value zz; rotate_left; subst zz) | (refine (fun (hf : ∀ x, SameB bb d x → SameB bb d (zz x)) => ?_) ?_; clear_value zz; rotate_left; subst zz) | clear_value zz | skip) | apply Device.dropTrap_same | apply Device.count_same | apply Device.ringPay_same | apply Device.postWrite_same | apply Device.heldFails_same | apply Device.fillHeld_same | apply Device.dmaEvent_same | apply Device.flowFinish_same | apply Device.releaseFrame_same | apply hf | split | intro _ | (apply Same.snd2 (by assumption)) | (apply Same.snd (by assumption)) | (apply Same.fst (by assumption)) | (apply SameO.get (by assumption)) | (apply SameP.get2 (by assumption)) | (apply SameP.get1 (by assumption)) | dsimp only | apply Same.upd)

theorem sampleSkidEnd_same {bb : Bool} {d : Device} {e : Device} (x1 : Nat) (x2 : Nat) (h : SameB bb d e) :
    SameB bb d (sampleSkidEnd e x1 x2) := by
  unfold sampleSkidEnd
  repeat' with_reducible (first | assumption | (extract_lets +onlyGivenNames zz; first | (refine (fun (hz : SameB bb d zz) => ?_) ?_; clear_value zz; rotate_left; subst zz) | clear_value zz | skip) | apply Device.atCyc_same | apply Device.pushSample_same | split | (apply Same.foldl; intro _ _ _) | dsimp only | apply Same.upd)

theorem seqEventPost_same {bb : Bool} {d : Device} {e : Device} (x1 : Nat) (x2 : Nat) (h : SameB bb d e) :
    SameB bb d (seqEventPost e x1 x2) := by
  unfold seqEventPost
  repeat' with_reducible (first | assumption | (extract_lets +onlyGivenNames zz; first | (refine (fun (hz : SameB bb d zz) => ?_) ?_; clear_value zz; rotate_left; subst zz) | skip) | apply Device.count_same | apply Device.modSeq_same | apply Device.seqLook_same | split | dsimp only | apply Same.upd)

theorem signalDetect_same {bb : Bool} {d : Device} {e : Device} (x1 : Nat) (x2 : Nat) (h : SameB bb d e) :
    SameB bb d (signalDetect e x1 x2) := by
  unfold signalDetect
  repeat' with_reducible (first | assumption | (extract_lets +onlyGivenNames zz; first | (refine (fun (hz : SameB bb d zz) => ?_) ?_; clear_value zz; rotate_left; subst zz) | clear_value zz | skip) | apply Device.modLane_same | apply Device.atCyc_same | apply Device.raise_same | apply Device.wakePort_same | apply Device.modBring_same | apply Device.tryStart_same | split | dsimp only | apply Same.upd)

theorem signalLost_same {bb : Bool} {d : Device} {e : Device} (x1 : Nat) (x2 : Nat) (h : SameB bb d e) :
    SameB bb d (signalLost e x1 x2) := by
  unfold signalLost
  repeat' with_reducible (first | assumption | (extract_lets +onlyGivenNames zz; first | (refine (fun (hz : SameB bb d zz) => ?_) ?_; clear_value zz; rotate_left; subst zz) | skip) | apply Device.modLane_same | apply Device.atCyc_same | apply Device.leavePort_same | apply Device.setCause_same | split | dsimp only | apply Same.upd)

theorem smbusRead_same {bb : Bool} {d : Device} {e : Device} (x1 : Nat) (x2 : Sys2Proof.SmbRead) (h : SameB bb d e) :
    SameB bb d (smbusRead e x1 x2) := by
  unfold smbusRead
  repeat' with_reducible (first | assumption | (extract_lets +onlyGivenNames zz; first | (refine (fun (hz : SameB bb d zz) => ?_) ?_; clear_value zz; rotate_left; subst zz) | clear_value zz | skip) | apply Device.send_same | apply busReadStep_same | split | dsimp only | apply Same.upd)

theorem smbusSetAddress_same {d : Device} {e : Device} (x1 : Nat) (x2 : Sys2Proof.SmbBlock) (x3 : Option Sys2Proof.Byte) (h : SameB false d e) :
    SameB false d (smbusSetAddress e x1 x2 x3) := by
  unfold smbusSetAddress
  repeat' with_reducible (first | assumption | apply Device.smbBlock_same | dsimp only | apply Same.upd)

theorem smbusTimeout_same {bb : Bool} {d : Device} {e : Device} (h : SameB bb d e) :
    SameB bb d (smbusTimeout e) := by
  unfold smbusTimeout
  repeat' with_reducible (first | assumption | (extract_lets +onlyGivenNames zz; first | clear_value zz | skip) | dsimp only | apply Same.upd)

theorem smbusWrite_same {d : Device} {e : Device} (x1 : Nat) (x2 : Sys2Proof.SmbBlock) (x3 : Option Sys2Proof.Byte) (h : SameB false d e) :
    SameB false d (smbusWrite e x1 x2 x3) := by
  unfold smbusWrite
  repeat' with_reducible (first | assumption | apply Device.smbBlock_same | dsimp only | apply Same.upd)

theorem snapCopiesComplete_same {bb : Bool} {d : Device} {e : Device} (h : SameB bb d e) :
    SameB bb d (snapCopiesComplete e) := by
  unfold snapCopiesComplete
  repeat' with_reducible (first | assumption | (extract_lets +onlyGivenNames zz; first | clear_value zz | skip) | dsimp only | apply Same.upd)

theorem snapPeriodic_same {bb : Bool} {d : Device} {e : Device} (h : SameB bb d e) :
    SameB bb d (snapPeriodic e) := by
  unfold snapPeriodic
  repeat' with_reducible (first | assumption | (extract_lets +onlyGivenNames zz; first | clear_value zz | skip) | apply Device.takeSnapshot_same | split | dsimp only | apply Same.upd)

theorem snapshotTake_same {bb : Bool} {d : Device} {e : Device} (h : SameB bb d e) :
    SameB bb d (snapshotTake e) := by
  unfold snapshotTake
  repeat' with_reducible (first | assumption | apply Device.takeSnapshot_same | split | dsimp only | apply Same.upd)

theorem snrLow_same {bb : Bool} {d : Device} {e : Device} (x1 : Nat) (x2 : Nat) (x3 : Nat) (h : SameB bb d e) :
    SameB bb d (snrLow e x1 x2 x3) := by
  unfold snrLow
  repeat' with_reducible (first | assumption | (extract_lets +onlyGivenNames zz; first | (refine (fun (hz : SameB bb d zz) => ?_) ?_; clear_value zz; rotate_left; subst zz) | skip) | apply Device.modLane_same | apply Device.atCyc_same | apply Device.retrain_same | split | dsimp only | apply Same.upd)

theorem spillMove_same {bb : Bool} {d : Device} {e : Device} (x1 : Nat) (x2 : Bool) (h : SameB bb d e) :
    SameB bb d (spillMove e x1 x2) := by
  unfold spillMove
  split
  · exact h
  split
  · exact h
  refine Same.ite h (Same.ite ?_ ?_)
  · cases (List.head? _) with
    | none => exact h
    | some a => exact Device.cellLost_same _ h
  extract_lets l sizes d1 ptrs units inst
  have k1 : SameB bb d d1 := Same.foldl _ (fun e x k => Same.ite k (Device.askBillet_same _ _ _ k)) h
  clear_value d1 ptrs
  refine Same.ite k1 ?_
  split
  rename_i d2 w hq
  have k2 : SameB bb d d2 := Same.fst hq (Device.inPieces_same _ _ _ _ k1)
  refine Same.ite k2 ?_
  extract_lets d3 d4 d5 d6 d7 s s2
  have k3 : SameB bb d d4 := Same.foldl _ (fun e x k => Device.takeGrant_same _ _ k) (Device.event_same _ _ _ _ _ k2)
  exact Device.count_same _ (Device.setQueueSt_same _ _ (Device.modCopy_same _ _ (Device.linkSpilled_same _ _ (Device.freeCells_same _ k3))))

theorem spillReturn_same {bb : Bool} {d : Device} {e : Device} (x1 : Nat) (x2 : Bool) (h : SameB bb d e) :
    SameB bb d (spillReturn e x1 x2) := by
  unfold spillReturn
  repeat' with_reducible (first | assumption | (extract_lets +onlyGivenNames zz; first | (refine (fun (hz : SameB bb d zz) => ?_) ?_; clear_value zz; rotate_left; subst zz) | clear_value zz | skip) | apply Device.mustWait_same | apply Device.inPieces_same | apply Device.event_same | apply Device.dropCopy_same | apply Device.leaveLower_same | apply Device.spend_same | apply Device.allocCells_same | apply Device.modFrame_same | apply Device.addCharge_same | apply Device.modCopy_same | apply Device.count_same | split | (apply Same.snd2 (by assumption)) | (apply Same.snd (by assumption)) | (apply Same.fst (by assumption)) | dsimp only | apply Same.upd)

theorem sramEccCorrected_same {bb : Bool} {d : Device} {e : Device} (x1 : Sys2Proof.Machine.FaultPlace) (h : SameB bb d e) :
    SameB bb d (sramEccCorrected e x1) := by
  unfold sramEccCorrected
  repeat' with_reducible (first | assumption | apply Device.rowCorrected_same | split | dsimp only | apply Same.upd)

theorem sramEccUncorrectable_same {bb : Bool} {d : Device} {e : Device} (x1 : Sys2Proof.Machine.FaultPlace) (h : SameB bb d e) :
    SameB bb d (sramEccUncorrectable e x1) := by
  unfold sramEccUncorrectable
  repeat' with_reducible (first | assumption | (extract_lets +onlyGivenNames zz; first | (refine (fun (hz : SameB bb d zz) => ?_) ?_; clear_value zz; rotate_left; subst zz) | clear_value zz | skip) | apply Device.rowBad_same | apply Device.cellLost_same | apply Device.freeRow_same | apply Device.poisonRow_same | apply Device.storeBad_same | apply Device.raise_same | split | dsimp only | apply Same.upd)

theorem stairExpire_same {bb : Bool} {d : Device} {e : Device} (x1 : Nat) (h : SameB bb d e) :
    SameB bb d (stairExpire e x1) := by
  unfold stairExpire
  repeat' with_reducible (first | assumption | apply Device.stairDrop_same | apply Device.count_same | split | dsimp only | apply Same.upd)

theorem stairGrant_same {bb : Bool} {d : Device} {e : Device} (x1 : Nat) (x2 : Nat) (h : SameB bb d e) :
    SameB bb d (stairGrant e x1 x2) := by
  unfold stairGrant
  repeat' with_reducible (first | assumption | (extract_lets +onlyGivenNames zz; first | (refine (fun (hz : SameB bb d zz) => ?_) ?_; clear_value zz; rotate_left; subst zz) | clear_value zz | skip) | apply Device.atStage_same | apply Device.allWait_same | apply Device.takePosition_same | apply Device.spend_same | apply Device.skidHeader_same | apply Device.event_same | apply Device.count_same | apply Device.modFrame_same | apply Device.toBack_same | apply Device.stairGrow_same | apply Device.runParse_same | split | dsimp only | apply Same.upd)

theorem syncReceiveSample_same {bb : Bool} {d : Device} {e : Device} (x1 : Nat) (x2 : Nat) (x3 : Nat) (x4 : Int) (x5 : Sys2Proof.PtpMsg) (h : SameB bb d e) :
    SameB bb d (syncReceiveSample e x1 x2 x3 x4 x5) := by
  unfold syncReceiveSample
  repeat' with_reducible (first | assumption | (extract_lets +onlyGivenNames zz; first | (refine (fun (hz : SameB bb d zz) => ?_) ?_; clear_value zz; rotate_left; subst zz) | clear_value zz | skip) | apply Device.atCyc_same | apply Device.stampAt_same | apply Device.syncSample_same | split | (apply Same.snd2 (by assumption)) | (apply Same.snd (by assumption)) | (apply Same.fst (by assumption)) | dsimp only | apply Same.upd)

theorem syncSend_same {bb : Bool} {d : Device} {e : Device} (x1 : Nat) (x2 : Nat) (h : SameB bb d e) :
    SameB bb d (syncSend e x1 x2) := by
  unfold syncSend
  repeat' with_reducible (first | assumption | (extract_lets +onlyGivenNames zz; first | (refine (fun (hz : SameB bb d zz) => ?_) ?_; clear_value zz; rotate_left; subst zz) | clear_value zz | skip) | apply Device.atCyc_same | apply Device.setTsu_same | apply Device.roundDiv_same | apply Device.tsuQueue_same | apply Device.count_same | split | (apply Same.snd2 (by assumption)) | (apply Same.snd (by assumption)) | (apply Same.fst (by assumption)) | dsimp only | apply Same.upd)

theorem tdmaLock_same {bb : Bool} {d : Device} {e : Device} (x1 : Nat) (h : SameB bb d e) :
    SameB bb d (tdmaLock e x1) := by
  unfold tdmaLock
  repeat' with_reducible (first | assumption | (extract_lets +onlyGivenNames zz; first | (refine (fun (hz : SameB bb d zz) => ?_) ?_; clear_value zz; rotate_left; subst zz) | clear_value zz | skip) | apply Device.rowFails_same | apply Device.rowSlot_same | apply lockExpire_same | apply Device.rowDone_same | split | (apply Same.snd2 (by assumption)) | (apply Same.snd (by assumption)) | (apply Same.fst (by assumption)) | dsimp only | apply Same.upd)

theorem tdmaRead_same {bb : Bool} {d : Device} {e : Device} (x1 : Nat) (h : SameB bb d e) :
    SameB bb d (tdmaRead e x1) := by
  unfold tdmaRead
  repeat' with_reducible (first | assumption | apply Device.rowFails_same | apply Device.rowSlot_same | apply Device.readTable_same | apply Device.postWrite_same | apply Device.rowDone_same | apply Device.dmaEvent_same | split | (apply Same.snd2 (by assumption)) | (apply Same.snd (by assumption)) | (apply Same.fst (by assumption)) | (apply SameO.get (by assumption)) | (apply SameP.get2 (by assumption)) | (apply SameP.get1 (by assumption)) | dsimp only | apply Same.upd)

theorem tdmaUnlock_same {bb : Bool} {d : Device} {e : Device} (x1 : Nat) (h : SameB bb d e) :
    SameB bb d (tdmaUnlock e x1) := by
  unfold tdmaUnlock
  repeat' with_reducible (first | assumption | (extract_lets +onlyGivenNames zz; first | (refine (fun (hz : SameB bb d zz) => ?_) ?_; clear_value zz; rotate_left; subst zz) | clear_value zz | skip) | apply Device.rowFails_same | apply Device.rowSlot_same | apply lockExpire_same | apply Device.count_same | apply Device.rowDone_same | split | (apply Same.snd2 (by assumption)) | (apply Same.snd (by assumption)) | (apply Same.fst (by assumption)) | dsimp only | apply Same.upd)

theorem tdmaWrite_same {bb : Bool} {d : Device} {e : Device} (x1 : Nat) (x2 : Option Sys2Proof.Bytes) (h : SameB bb d e) :
    SameB bb d (tdmaWrite e x1 x2) := by
  unfold tdmaWrite
  repeat' with_reducible (first | assumption | (extract_lets +onlyGivenNames zz; first | (refine (fun (hz : SameB bb d zz) => ?_) ?_; clear_value zz; rotate_left; subst zz) | clear_value zz | skip) | apply Device.rowSlot_same | apply Device.rowFails_same | apply Device.dmaEvent_same | apply Device.rowDone_same | apply Device.writeTable_same | split | (apply Same.snd2 (by assumption)) | (apply Same.snd (by assumption)) | (apply Same.fst (by assumption)) | dsimp only | apply Same.upd)

theorem thermalDemandStep_same {bb : Bool} {d : Device} {e : Device} (h : SameB bb d e) :
    SameB bb d (thermalDemandStep e) := by
  unfold thermalDemandStep
  repeat' with_reducible (first | assumption | (extract_lets +onlyGivenNames zz; first | (refine (fun (hz : SameB bb d zz) => ?_) ?_; clear_value zz; rotate_left; subst zz) | clear_value zz | skip) | apply Device.episode_same | apply Device.raise_same | split | dsimp only | apply Same.upd)

theorem thermalSensorRead_same {bb : Bool} {d : Device} {e : Device} (x1 : List Nat) (h : SameB bb d e) :
    SameB bb d (thermalSensorRead e x1) := by
  unfold thermalSensorRead
  repeat' with_reducible (first | assumption | (extract_lets +onlyGivenNames zz; first | clear_value zz | skip) | (apply Same.foldl; intro _ _ _) | dsimp only | apply Same.upd)

theorem timeEvtEdge_same {bb : Bool} {d : Device} {e : Device} (x1 : Nat) (x2 : Nat) (x3 : Nat) (x4 : Bool) (h : SameB bb d e) :
    SameB bb d (timeEvtEdge e x1 x2 x3 x4) := by
  unfold timeEvtEdge
  repeat' with_reducible (first | assumption | (extract_lets +onlyGivenNames zz; first | (refine (fun (hz : SameB bb d zz) => ?_) ?_; clear_value zz; rotate_left; subst zz) | clear_value zz | skip) | apply Device.atCyc_same | apply Device.raise_same | split | dsimp only | apply Same.upd)

theorem trainingConverged_same {bb : Bool} {d : Device} {e : Device} (x1 : Nat) (h : SameB bb d e) :
    SameB bb d (trainingConverged e x1) := by
  unfold trainingConverged
  repeat' with_reducible (first | assumption | (extract_lets +onlyGivenNames zz; first | (refine (fun (hz : SameB bb d zz) => ?_) ?_; clear_value zz; rotate_left; subst zz) | skip) | apply Device.modBring_same | apply Device.beginAlign_same | apply Device.modLane_same | split | (apply Same.foldl; intro _ _ _) | dsimp only | apply Same.upd)

theorem trainingTimeout_same {bb : Bool} {d : Device} {e : Device} (x1 : Nat) (h : SameB bb d e) :
    SameB bb d (trainingTimeout e x1) := by
  unfold trainingTimeout
  repeat' with_reducible (first | assumption | (extract_lets +onlyGivenNames zz; first | (refine (fun (hz : SameB bb d zz) => ?_) ?_; clear_value zz; rotate_left; subst zz) | clear_value zz | skip) | apply Device.modLane_same | apply Device.modBring_same | apply Device.portTo_same | apply Device.setReg_same | apply Device.beginTrain_same | split | (apply Same.foldl; intro _ _ _) | dsimp only | apply Same.upd)

theorem triggerPulse_same {bb : Bool} {d : Device} {e : Device} (x1 : Nat) (x2 : Nat) (h : SameB bb d e) :
    SameB bb d (triggerPulse e x1 x2) := by
  unfold triggerPulse
  repeat' with_reducible (first | assumption | (extract_lets +onlyGivenNames zz; first | (refine (fun (hz : SameB bb d zz) => ?_) ?_; clear_value zz; rotate_left; subst zz) | clear_value zz | skip) | apply Device.atCyc_same | apply Device.setTrig_same | apply Device.send_same | split | dsimp only | apply Same.upd)

theorem upTimer_same {bb : Bool} {d : Device} {e : Device} (x1 : Nat) (h : SameB bb d e) :
    SameB bb d (upTimer e x1) := by
  unfold upTimer
  repeat' with_reducible (first | assumption | apply Device.upNow_same | split | dsimp only | apply Same.upd)

theorem vrThrottleAssert_same {bb : Bool} {d : Device} {e : Device} (h : SameB bb d e) :
    SameB bb d (vrThrottleAssert e) := by
  unfold vrThrottleAssert
  repeat' with_reducible (first | assumption | (extract_lets +onlyGivenNames zz; first | clear_value zz | skip) | apply Device.raise_same | split | dsimp only | apply Same.upd)

theorem vrThrottleRelease_same {bb : Bool} {d : Device} {e : Device} (h : SameB bb d e) :
    SameB bb d (vrThrottleRelease e) := by
  unfold vrThrottleRelease
  repeat' with_reducible (first | assumption | (extract_lets +onlyGivenNames zz; first | clear_value zz | skip) | dsimp only | apply Same.upd)

theorem waitConditionMet_same {bb : Bool} {d : Device} {e : Device} (x1 : Nat) (x2 : Nat) (h : SameB bb d e) :
    SameB bb d (waitConditionMet e x1 x2) := by
  unfold waitConditionMet
  repeat' with_reducible (first | assumption | (extract_lets +onlyGivenNames zz; first | (refine (fun (hz : SameB bb d zz) => ?_) ?_; clear_value zz; rotate_left; subst zz) | clear_value zz | skip) | apply Device.atCyc_same | apply Device.seqLook_same | apply Device.modSeq_same | split | dsimp only | apply Same.upd)

theorem waitTimeout_same {bb : Bool} {d : Device} {e : Device} (x1 : Nat) (h : SameB bb d e) :
    SameB bb d (waitTimeout e x1) := by
  unfold waitTimeout
  repeat' with_reducible (first | assumption | (extract_lets +onlyGivenNames zz; first | clear_value zz | skip) | apply Device.modSeq_same | apply Device.count_same | split | dsimp only | apply Same.upd)

end Sys2Proof.Machine
end

