-- ==== Sys2Proof/Laws/Modes.lean ====
section
/-! SUPPORT. The functions that do change the device's modes, and what each makes of them. -/

set_option linter.all false
set_option Elab.async false

namespace Sys2Proof.Machine

theorem Device.ext10m_same {d e : Device} (p : Bool) {f : Device → Device} (hf : ∀ e, Same d e → Same d (f e)) (h : Same d e) :
    Same d (Device.ext10m p f e) := by
  unfold Device.ext10m
  split
  · exact hf e h
  · exact Same.upd h

/-- The modes of a device right after a reset. -/
structure Blank (e : Device) : Prop where
  state : e.dev.state = .reset
  fenced : e.dev.fenced = 0#32
  num : e.stroke.num = 0#64
  active : e.gen.active = 0#32
  prof : e.profile.active = 0

theorem Device.countN_blank {d : Device} (a n : Nat) (h : Blank d) : Blank (d.countN a n) := ⟨h.1, h.2, h.3, h.4, h.5⟩

theorem Device.coldImage_blank (d : Device) (c : List Bytes) (w : Bool) : Blank (d.coldImage c w) := ⟨rfl, rfl, rfl, rfl, rfl⟩

theorem Device.warmKeep_blank {n : Device} (d : Device) (h : Blank n) : Blank (n.warmKeep d) := by
  unfold Device.warmKeep
  have : ∀ (l : List (Nat × Nat)) (m : Device), Blank m → Blank (l.foldl (fun n e => n.countN e.1 e.2) m) := by
    intro l
    induction l with
    | nil => exact fun _ h => h
    | cons x t ih => exact fun m hm => ih _ (Device.countN_blank _ _ hm)
  exact this _ _ ⟨h.1, h.2, h.3, h.4, h.5⟩

/-- A cold or a warm reset leaves the modes at their reset values (R408, R409). -/
theorem Device.fullReset_blank (d : Device) (w : Bool) : Blank (d.fullReset w) := by
  unfold Device.fullReset
  extract_lets d1 d2 d3
  split
  extract_lets new
  have k : Blank new := Device.countN_blank _ _ (Device.coldImage_blank _ _ _)
  clear_value new
  cases w
  · exact k
  · exact Device.warmKeep_blank _ k

theorem Device.toState_modes (d : Device) (st : DevState) : (d.toState st).dev.state = st ∧ (d.toState st).dev.fenced = d.dev.fenced ∧
    (d.toState st).stroke.num = d.stroke.num ∧ (d.toState st).gen.active = d.gen.active ∧
    (d.toState st).profile.active = d.profile.active := by
  unfold Device.toState
  by_cases h : d.dev.state = st
  · rw [if_pos h]
    exact ⟨h, rfl, rfl, rfl, rfl⟩
  · rw [if_neg h]
    have k : Same _ _ := Device.raise_same 0 0 (Same.refl { d with dev := { d.dev with state := st } })
    exact ⟨k.1, k.2, k.3, k.4, k.5⟩

theorem Device.resetBoundary_modes (d : Device) :
    (d.resetBoundary = d ∧ d.boot.cold = false ∧ d.boot.warm = false) ∨
      (Blank d.resetBoundary ∧ (d.boot.cold = true ∨ d.boot.warm = true)) := by
  unfold Device.resetBoundary
  by_cases h : d.boot.cold = true ∨ d.boot.warm = true
  · rw [if_pos h]
    have k := Device.fullReset_blank d (!d.boot.cold)
    exact .inr ⟨⟨k.1, k.2, k.3, k.4, k.5⟩, h⟩
  · rw [if_neg h]
    simp only [not_or, Bool.not_eq_true] at h
    exact .inl ⟨rfl, h⟩

theorem Device.beginStroke_modes (d : Device) (v : Nat) : ∃ p, d.beginStroke v = p.resetBoundary ∧ SameB true d p := by
  refine ⟨_, rfl, ?_⟩
  repeat' with_reducible (first | exact Same.refl _ | apply Device.scrubVisit_same | apply Device.rclkBoundary_same | apply Device.ledgerBoundary_same | apply Device.telemBoundary_same | apply Device.ringBoundary_same | apply Device.ageApply_same | apply Device.seqBoundary_same | apply Device.ageBoundary_same | apply Device.injBoundary_same | apply Device.refBoundary_same | apply Device.lpiBoundary_same | apply Device.fcBoundary_same | apply Device.hdrmBoundary_same | apply Device.portBoundary_same | apply Device.meterBoundary_same | apply Device.shaperBoundary_same | apply Device.extBoundary_same | apply Device.formBoundary_same | apply Device.readBoundary_same | apply Device.mirrorBoundary_same | apply Device.occupancyBoundary_same | apply Device.spillBoundary_same | apply Device.hallRelease_same | apply Device.fenceDoneBoundary_same | apply Device.stateDue_same | apply Device.profileBoundary_same | apply Device.genBoundary_same | apply Device.snapBoundary_same | apply Device.budgetBoundary_same | apply Device.avsBoundary_same | apply Device.avsLate_same | apply Device.damperBoundary_same | apply Device.minBoundary_same | apply Device.settleHeld_same | apply Same.upd)

/-- A boundary: one stroke more, and then a reset that was asked for. -/
theorem strokeBoundary_modes {d : Device} (hc : d.clocked = true) : ∃ p : Device, strokeBoundary d = p.resetBoundary ∧
    p.dev.state = d.dev.state ∧ p.dev.fenced = d.dev.fenced ∧ p.stroke.num = d.stroke.num + 1 ∧ p.gen.active = d.gen.active ∧
    p.profile.active = d.profile.active ∧ p.boot.cold = d.boot.cold ∧ p.boot.warm = d.boot.warm := by
  unfold strokeBoundary
  rw [hc]
  simp only [Bool.not_true, Bool.false_eq_true, if_false]
  generalize hd1 : d.catchUp (d.strokeNo * 256 + 255) = d1
  have k1 : SameB true d d1 := by
    rw [← hd1]
    exact Device.catchUp_same _ (Same.refl d)
  generalize d1.stroke.inT + (256 - d1.stroke.cyc) * d1.cycleLen = t
  generalize hd2 : d1.endStroke t = d2
  have k2 : SameB true d d2 := by
    rw [← hd2]
    exact Device.endStroke_same _ k1
  obtain ⟨p, hp, k⟩ := Device.beginStroke_modes (d2.tick t) ((d2.tick t).clock.stepFree / 2 ^ 48 - d1.clock.stepFree / 2 ^ 48)
  exact ⟨p, hp, k.1.trans k2.1, k.2.trans k2.2, k.3.trans (congrArg (· + 1) k2.3), k.4.trans k2.4, k.5.trans k2.5,
    Bool.eq_iff_iff.2 ⟨k2.8 rfl ∘ k.8 rfl, k.6 ∘ k2.6⟩, Bool.eq_iff_iff.2 ⟨k2.9 rfl ∘ k.9 rfl, k.7 ∘ k2.7⟩⟩

theorem Device.bootEnd_same {d e : Device} (st : DevState) (h : Same d e) : (e.toState st).dev.state = st ∧
    (e.toState st).dev.fenced = d.dev.fenced ∧ (e.toState st).stroke.num = d.stroke.num ∧
    (e.toState st).gen.active = d.gen.active ∧ (e.toState st).profile.active = d.profile.active := by
  obtain ⟨k1, k2, k3, k4, k5⟩ := Device.toState_modes e st
  exact ⟨k1, k2.trans h.2, k3.trans h.3, k4.trans h.4, k5.trans h.5⟩

/-- BOOT ends in CONFIG, whatever the image holds (R26, R414). -/
theorem bootImageComplete_modes (d : Device) (ack : Bool) (sp : List Nat) (fl : List (Nat × Nat × Nat)) :
    Same d (bootImageComplete d ack sp fl) ∨
      (d.dev.state = .boot ∧ ∃ e, bootImageComplete d ack sp fl = (e.toState .config).testLanes ∧ Same d e) := by
  unfold bootImageComplete
  split
  · exact .inl (Same.refl d)
  · split
    · exact .inl (Same.refl d)
    · rename_i h
      refine .inr ⟨by simpa using h, _, rfl, ?_⟩
      dsimp only
      with_reducible apply Same.updBoot
      · with_reducible apply Device.bootSequencers_same
        with_reducible apply Device.bootMemories_same
        refine Same.foldl _ (fun e x k => linkTrain_same _ _ _ k) ?_
        exact Device.applyRecord_same _ (Device.bootLowerHall_same (Device.bootVoltage_same _ (Device.bootRegisters_same _ (Same.refl d))))
      · with_reducible exact rfl
      · with_reducible exact rfl

/-- ENTER_RUN: RUN with every gallery in service, DEGRADED otherwise (R26). -/
theorem enterRun_modes (d : Device) : enterRun d = d ∨ (d.dev.goDue = true ∧ d.dev.state = .config ∧
    ∃ e, enterRun d = e.toState (if d.dev.fenced = 0#32 then .run else .degraded) ∧ Same d e) := by
  unfold enterRun
  split
  · exact .inl rfl
  · rename_i h
    simp only [Bool.not_eq_true', not_or, Bool.not_eq_false, ne_eq, Decidable.not_not] at h
    refine .inr ⟨h.1, h.2.1, _, rfl, ?_⟩
    dsimp only
    with_reducible apply Device.takeStorage_same
    with_reducible apply Device.endInterruption_same
    exact Same.updDev (Same.refl d) rfl rfl

/-- GALLERY_FENCE: every gallery that is due is fenced, and RUN becomes DEGRADED (R26, R30). -/
theorem galleryFence_modes (d : Device) : (galleryFence d).dev.fenced = (d.dev.fenced ||| (d.dev.fenceDue &&& ~~~ d.dev.fenced)) ∧
    (galleryFence d).stroke.num = d.stroke.num ∧ (galleryFence d).gen.active = d.gen.active ∧
    (galleryFence d).profile.active = d.profile.active ∧
    (galleryFence d).dev.state = (if d.dev.fenceDue &&& ~~~ d.dev.fenced ≠ 0#32 ∧ d.dev.state = .run then .degraded else d.dev.state) := by
  unfold galleryFence
  extract_lets due dv ns e f0 f g
  by_cases h0 : due = 0#32
  · rw [if_pos h0, if_neg (fun k => k.1 h0)]
    have k : Same _ _ := Device.fenceFatal_same (Same.refl { d with dev := { d.dev with fenceDue := 0 } })
    refine ⟨?_, k.3, k.4, k.5, k.1⟩
    rw [k.2]
    show d.dev.fenced = d.dev.fenced ||| due
    rw [h0, BitVec.or_zero]
  rw [if_neg h0]
  have k : Same e f := by
    dsimp only [f, f0]
    exact Device.raise_same _ _ (Device.fenceCharges_same (Same.foldl _ (fun e x k => Device.fenceOne_same _ k) (Same.refl e)))
  have t : ∀ g, Same g g.fenceFatal.fenceDoneBoundary := fun g => Device.fenceDoneBoundary_same (Device.fenceFatal_same (Same.refl g))
  have hs : f.dev.state = d.dev.state := k.1
  have h2 : f.dev.fenced = d.dev.fenced ||| (d.dev.fenceDue &&& ~~~ d.dev.fenced) := k.2
  have h3 : f.stroke.num = d.stroke.num := k.3
  have h4 : f.gen.active = d.gen.active := k.4
  have h5 : f.profile.active = d.profile.active := k.5
  have q := t g
  rw [q.1, q.2, q.3, q.4, q.5]
  dsimp only [g]
  clear q t g
  clear_value f
  by_cases hr : f.dev.state = .run
  · have hb : (f.dev.state == .run) = true := by simp [hr]
    rw [if_pos hb]
    obtain ⟨t1, t2, t3, t4, t5⟩ := Device.toState_modes f .degraded
    rw [t1, t2, t3, t4, t5, if_pos ⟨h0, hs ▸ hr⟩]
    exact ⟨h2, h3, h4, h5, rfl⟩
  · have hb : ¬(f.dev.state == .run) = true := by simpa using hr
    rw [if_neg hb, if_neg (fun w => hr (hs.trans w.2))]
    exact ⟨h2, h3, h4, h5, hs⟩

theorem Device.profileFlip_modes (d : Device) : d.profileFlip.dev.state = d.dev.state ∧ d.profileFlip.dev.fenced = d.dev.fenced ∧
    d.profileFlip.stroke.num = d.stroke.num ∧ d.profileFlip.gen.active = d.gen.active ∧
    d.profileFlip.profile.active = d.profile.staged := by
  by_cases hp : d.profile.active = d.profile.staged
  · have e : d.profileFlip = d := by
      unfold Device.profileFlip
      exact if_pos hp
    rw [e]
    exact ⟨rfl, rfl, rfl, rfl, hp⟩
  · have k : Same { d with profile := { d.profile with active := d.profile.staged, vacate := d.profile.staged } } d.profileFlip := by
      unfold Device.profileFlip
      extract_lets old new lost pv d1 d2 scaled hv d3 d4 d5
      rw [if_neg hp]
      have k2 : Same d1 d2 := Device.replaceStart_same _ _ (Device.resizeShared_same _ (Same.refl d1))
      clear_value d2 scaled
      have k3 : Same d1 d3 := Same.upd k2
      clear_value d3
      have k4 : Same d1 d4 := by
        dsimp only [d4]
        exact Same.ite (Device.raise_same _ _ k3) k3
      clear_value d4
      exact Device.flowResize_same _ _ (Device.ladderFlip_same _ (Same.upd k4))
    exact ⟨k.1, k.2, k.3, k.4, k.5⟩

/-- GEN_FLIP: the next generation and the staged profile, or nothing (R47, R68). -/
theorem genFlip_modes (d : Device) : Same d (genFlip d) ∨ (d.gen.flipDue = true ∧ (genFlip d).dev.state = d.dev.state ∧
    (genFlip d).dev.fenced = d.dev.fenced ∧ (genFlip d).stroke.num = d.stroke.num ∧
    (genFlip d).gen.active = d.gen.active + 1#32 ∧ (genFlip d).profile.active = d.profile.staged) := by
  unfold genFlip
  split
  · exact .inl (Same.refl d)
  rename_i h
  simp only [Bool.not_eq_true', not_or, Bool.not_eq_false, ne_eq, Decidable.not_not] at h
  extract_lets gv e g gv2 f
  split
  · refine .inl (Device.flipRefused_same _ ?_)
    with_reducible apply Same.updGen
    · exact Device.showBusy_same _ (Same.updGen (Same.refl d) rfl)
    · exact rfl
  · refine .inr ⟨h.1, ?_⟩
    have kb : Same f f.bankFlip := Device.bankFlip_same (Same.refl f)
    have hst : f.bankFlip.profile.staged = d.profile.staged := by
      unfold Device.bankFlip
      dsimp only
      split <;> rfl
    obtain ⟨p1, p2, p3, p4, p5⟩ := Device.profileFlip_modes f.bankFlip
    have q : Same _ _ := Device.showBusy_same none (Same.refl f.bankFlip.profileFlip)
    rw [q.1, q.2, q.3, q.4, q.5, p1, p2, p3, p4, p5, kb.1, kb.2, kb.3, kb.4, hst]
    exact ⟨rfl, rfl, rfl, rfl, rfl⟩

/-- Every command but eleven keeps the modes. -/
theorem exec_same (c : Instr) (h : c.changesModes = false) : ∃ f : Device → Device, (∀ d, Same d (f d)) ∧ ∀ s : State, exec c s = s.run c f := by
  cases c with
  | powerUp _ => exact absurd h (fun h => nomatch (h : true = false))
  | supplyOutOfRange => exact absurd h (fun h => nomatch (h : true = false))
  | resetRelease _ _ => exact absurd h (fun h => nomatch (h : true = false))
  | bootSourceAttempt img => exact ⟨fun d => bootSourceAttempt d img, fun d => by repeat' with_reducible (first | exact Same.refl _ | apply Same.ite | apply bootSourceAttempt_same), fun _ => rfl⟩
  | bootImageComplete _ _ _ => exact absurd h (fun h => nomatch (h : true = false))
  | bootDlGo src => exact ⟨fun d => busWrite d src A.TOP_BOOT_DL_CMD 0xF (F.TOP_BOOT_DL_CMD_GO.put 0 1), fun d => by repeat' with_reducible (first | exact Same.refl _ | apply Same.ite | apply busWrite_same), fun _ => rfl⟩
  | devGo src => exact ⟨fun d => busWrite d src A.TOP_DEV_CTRL 0xF (F.TOP_DEV_CTRL_GO.put 0 1), fun d => by repeat' with_reducible (first | exact Same.refl _ | apply Same.ite | apply busWrite_same), fun _ => rfl⟩
  | enterRun => exact absurd h (fun h => nomatch (h : true = false))
  | thermalShutdown _ => exact absurd h (fun h => nomatch (h : true = false))
  | coldReset src => exact ⟨fun d => busWrite d src A.TOP_RESET_CTRL 0xF (F.TOP_RESET_CTRL_COLD.put 0 1), fun d => by repeat' with_reducible (first | exact Same.refl _ | apply Same.ite | apply busWrite_same), fun _ => rfl⟩
  | warmReset src => exact ⟨fun d => busWrite d src A.TOP_RESET_CTRL 0xF (F.TOP_RESET_CTRL_WARM.put 0 1), fun d => by repeat' with_reducible (first | exact Same.refl _ | apply Same.ite | apply busWrite_same), fun _ => rfl⟩
  | perstFall => exact absurd h (fun h => nomatch (h : true = false))
  | resetHoldExpire _ => exact absurd h (fun h => nomatch (h : true = false))
  | galFenceReq src mask => exact ⟨fun d => busWrite d src A.TOP_GAL_FENCE_REQ 0xF mask, fun d => by repeat' with_reducible (first | exact Same.refl _ | apply Same.ite | apply busWrite_same), fun _ => rfl⟩
  | galleryFence => exact absurd h (fun h => nomatch (h : true = false))
  | fenceDiscardStep => exact ⟨fun d => if d.clocked then (fenceDiscardStep d) else d, fun d => by repeat' with_reducible (first | exact Same.refl _ | apply Same.ite | apply fenceDiscardStep_same), fun _ => rfl⟩
  | galleryWatchdog gal => exact ⟨fun d => if d.clocked then (galleryWatchdog d gal) else d, fun d => by repeat' with_reducible (first | exact Same.refl _ | apply Same.ite | apply galleryWatchdog_same), fun _ => rfl⟩
  | galleryParityError gal => exact ⟨fun d => if d.clocked then (galleryParityError d gal) else d, fun d => by repeat' with_reducible (first | exact Same.refl _ | apply Same.ite | apply galleryParityError_same), fun _ => rfl⟩
  | fatalFault kind => exact ⟨fun d => if d.clocked then (fatalFault d kind) else d, fun d => by repeat' with_reducible (first | exact Same.refl _ | apply Same.ite | apply fatalFault_same), fun _ => rfl⟩
  | strokeBoundary => exact absurd h (fun h => nomatch (h : true = false))
  | genFlipRequest src data => exact ⟨fun d => busWrite d src A.TOP_GEN_CTRL 0xF (F.TOP_GEN_CTRL_FLIP.put data 1), fun d => by repeat' with_reducible (first | exact Same.refl _ | apply Same.ite | apply busWrite_same), fun _ => rfl⟩
  | genFlip => exact absurd h (fun h => nomatch (h : true = false))
  | genReclaim => exact ⟨fun d => if d.clocked then (genReclaim d) else d, fun d => by repeat' with_reducible (first | exact Same.refl _ | apply Same.ite | apply genReclaim_same), fun _ => rfl⟩
  | genResyncEnd => exact ⟨fun d => if d.clocked then (genResyncEnd d) else d, fun d => by repeat' with_reducible (first | exact Same.refl _ | apply Same.ite | apply genResyncEnd_same), fun _ => rfl⟩
  | snapReq src => exact ⟨fun d => busWrite d src A.TOP_SNAP_CTRL 0xF (F.TOP_SNAP_CTRL_REQ.put 0 1), fun d => by repeat' with_reducible (first | exact Same.refl _ | apply Same.ite | apply busWrite_same), fun _ => rfl⟩
  | snapPeriodWrite src period => exact ⟨fun d => busWrite d src A.TOP_SNAP_PERIOD 0xF period, fun d => by repeat' with_reducible (first | exact Same.refl _ | apply Same.ite | apply busWrite_same), fun _ => rfl⟩
  | snapshot => exact ⟨fun d => if d.clocked then (snapshotTake d) else d, fun d => by repeat' with_reducible (first | exact Same.refl _ | apply Same.ite | apply snapshotTake_same), fun _ => rfl⟩
  | snapPeriodic => exact ⟨fun d => if d.clocked then (snapPeriodic d) else d, fun d => by repeat' with_reducible (first | exact Same.refl _ | apply Same.ite | apply snapPeriodic_same), fun _ => rfl⟩
  | snapCopiesComplete => exact ⟨fun d => if d.clocked then (snapCopiesComplete d) else d, fun d => by repeat' with_reducible (first | exact Same.refl _ | apply Same.ite | apply snapCopiesComplete_same), fun _ => rfl⟩
  | snapMergedRead src => exact ⟨fun d => busReadStep d src A.TOP_SNAP_CTRL 0xF, fun d => by repeat' with_reducible (first | exact Same.refl _ | apply Same.ite | apply busReadStep_same), fun _ => rfl⟩
  | profileStage src staged => exact ⟨fun d => busWrite d src A.TOP_PROFILE 0xF (F.TOP_PROFILE_STAGED.put 0 staged), fun d => by repeat' with_reducible (first | exact Same.refl _ | apply Same.ite | apply busWrite_same), fun _ => rfl⟩
  | coreFreqDown => exact ⟨fun d => if d.clocked then (coreFreqDown d) else d, fun d => by repeat' with_reducible (first | exact Same.refl _ | apply Same.ite | apply coreFreqDown_same), fun _ => rfl⟩
  | coreFreqUp => exact ⟨fun d => if d.clocked then (coreFreqUp d) else d, fun d => by repeat' with_reducible (first | exact Same.refl _ | apply Same.ite | apply coreFreqUp_same), fun _ => rfl⟩
  | avsReadback ack mv amps => exact ⟨fun d => if d.clocked then (avsReadback d ack mv amps) else d, fun d => by repeat' with_reducible (first | exact Same.refl _ | apply Same.ite | apply avsReadback_same), fun _ => rfl⟩
  | refClockLost chiplet => exact ⟨fun d => refClockLost d chiplet, fun d => by repeat' with_reducible (first | exact Same.refl _ | apply Same.ite | apply refClockLost_same), fun _ => rfl⟩
  | refClockRestored chiplet => exact ⟨fun d => refClockRestored d chiplet, fun d => by repeat' with_reducible (first | exact Same.refl _ | apply Same.ite | apply refClockRestored_same), fun _ => rfl⟩
  | signalDetect lane cyc => exact ⟨fun d => if d.clocked then (signalDetect d lane cyc) else d, fun d => by repeat' with_reducible (first | exact Same.refl _ | apply Same.ite | apply signalDetect_same), fun _ => rfl⟩
  | signalLost lane cyc => exact ⟨fun d => if d.clocked then (signalLost d lane cyc) else d, fun d => by repeat' with_reducible (first | exact Same.refl _ | apply Same.ite | apply signalLost_same), fun _ => rfl⟩
  | anPageReceive port rates fec => exact ⟨fun d => if d.clocked then (anPageReceive d port rates fec) else d, fun d => by repeat' with_reducible (first | exact Same.refl _ | apply Same.ite | apply anPageReceive_same), fun _ => rfl⟩
  | trainingConverged port => exact ⟨fun d => if d.clocked then (trainingConverged d port) else d, fun d => by repeat' with_reducible (first | exact Same.refl _ | apply Same.ite | apply trainingConverged_same), fun _ => rfl⟩
  | trainingTimeout port => exact ⟨fun d => if d.clocked then (trainingTimeout d port) else d, fun d => by repeat' with_reducible (first | exact Same.refl _ | apply Same.ite | apply trainingTimeout_same), fun _ => rfl⟩
  | blockLockAcquired lane inverted reversed phase => exact ⟨fun d => if d.clocked then (blockLockAcquired d lane inverted reversed phase) else d, fun d => by repeat' with_reducible (first | exact Same.refl _ | apply Same.ite | apply blockLockAcquired_same), fun _ => rfl⟩
  | laneUp port => exact ⟨fun d => if d.clocked then (laneUp d port) else d, fun d => by repeat' with_reducible (first | exact Same.refl _ | apply Same.ite | apply laneUp_same), fun _ => rfl⟩
  | blockLockLost lane cyc => exact ⟨fun d => if d.clocked then (blockLockLost d lane cyc) else d, fun d => by repeat' with_reducible (first | exact Same.refl _ | apply Same.ite | apply blockLockLost_same), fun _ => rfl⟩
  | fecUncorrLimit lane n cyc => exact ⟨fun d => if d.clocked then (fecUncorrLimit d lane n cyc) else d, fun d => by repeat' with_reducible (first | exact Same.refl _ | apply Same.ite | apply fecUncorrLimit_same), fun _ => rfl⟩
  | snrLow lane snr cyc => exact ⟨fun d => if d.clocked then (snrLow d lane snr cyc) else d, fun d => by repeat' with_reducible (first | exact Same.refl _ | apply Same.ite | apply snrLow_same), fun _ => rfl⟩
  | laneDisable src lane data => exact ⟨fun d => busWrite d src (ofLane A.LANE_LN_CTRL lane) 0xF (F.LANE_LN_CTRL_EN.put data 0), fun d => by repeat' with_reducible (first | exact Same.refl _ | apply Same.ite | apply busWrite_same), fun _ => rfl⟩
  | laneTestEnter src lane data => exact ⟨fun d => busWrite d src (ofLane A.LANE_LN_CTRL lane) 0xF (F.LANE_LN_CTRL_TEST.put data 1), fun d => by repeat' with_reducible (first | exact Same.refl _ | apply Same.ite | apply busWrite_same), fun _ => rfl⟩
  | laneTestExit src lane data => exact ⟨fun d => busWrite d src (ofLane A.LANE_LN_CTRL lane) 0xF (F.LANE_LN_CTRL_TEST.put data 0), fun d => by repeat' with_reducible (first | exact Same.refl _ | apply Same.ite | apply busWrite_same), fun _ => rfl⟩
  | dormantRequest src port data => exact ⟨fun d => busWrite d src (ofLane A.LANE_LN_BRINGUP port) 0xF (F.LANE_LN_BRINGUP_DORMANT_REQ.put data 1), fun d => by repeat' with_reducible (first | exact Same.refl _ | apply Same.ite | apply busWrite_same), fun _ => rfl⟩
  | dormantRelease src port data => exact ⟨fun d => busWrite d src (ofLane A.LANE_LN_BRINGUP port) 0xF (F.LANE_LN_BRINGUP_DORMANT_REQ.put data 0), fun d => by repeat' with_reducible (first | exact Same.refl _ | apply Same.ite | apply busWrite_same), fun _ => rfl⟩
  | p7DormantEntry port => exact ⟨fun d => if d.clocked then (p7DormantEntry d port) else d, fun d => by repeat' with_reducible (first | exact Same.refl _ | apply Same.ite | apply p7DormantEntry_same), fun _ => rfl⟩
  | p7WakeTimeout port => exact ⟨fun d => if d.clocked then (p7WakeTimeout d port) else d, fun d => by repeat' with_reducible (first | exact Same.refl _ | apply Same.ite | apply p7WakeTimeout_same), fun _ => rfl⟩
  | lpiEnter port cyc => exact ⟨fun d => if d.clocked then (lpiEnter d port cyc) else d, fun d => by repeat' with_reducible (first | exact Same.refl _ | apply Same.ite | apply lpiEnter_same), fun _ => rfl⟩
  | lpiExit port cyc => exact ⟨fun d => if d.clocked then (lpiExit d port cyc) else d, fun d => by repeat' with_reducible (first | exact Same.refl _ | apply Same.ite | apply lpiExit_same), fun _ => rfl⟩
  | lpiPartnerSignal port cyc enter => exact ⟨fun d => if d.clocked then (lpiPartner d port cyc enter) else d, fun d => by repeat' with_reducible (first | exact Same.refl _ | apply Same.ite | apply lpiPartner_same), fun _ => rfl⟩
  | prbsLock lane => exact ⟨fun d => if d.clocked then (prbsLock d lane) else d, fun d => by repeat' with_reducible (first | exact Same.refl _ | apply Same.ite | apply prbsLock_same), fun _ => rfl⟩
  | prbsLockLost lane errs => exact ⟨fun d => if d.clocked then (prbsLockLost d lane errs) else d, fun d => by repeat' with_reducible (first | exact Same.refl _ | apply Same.ite | apply prbsLockLost_same), fun _ => rfl⟩
  | prbsClear src lane data => exact ⟨fun d => busWrite d src (ofLane A.LANE_LN_PRBS lane) 0xF (F.LANE_LN_PRBS_CLEAR.put data 1), fun d => by repeat' with_reducible (first | exact Same.refl _ | apply Same.ite | apply busWrite_same), fun _ => rfl⟩
  | errorInjectGo src lane data => exact ⟨fun d => busWrite d src (ofLane A.LANE_LN_INJ lane) 0xF (F.LANE_LN_INJ_GO.put data 1), fun d => by repeat' with_reducible (first | exact Same.refl _ | apply Same.ite | apply busWrite_same), fun _ => rfl⟩
  | errorInjectPeriodic lane cyc => exact ⟨fun d => if d.clocked then (errorInjectPeriodic d lane cyc) else d, fun d => by repeat' with_reducible (first | exact Same.refl _ | apply Same.ite | apply errorInjectPeriodic_same), fun _ => rfl⟩
  | bitslip src lane => exact ⟨fun d => busWrite d src (ofLane A.LANE_LN_BITSLIP lane) 0xF (F.LANE_LN_BITSLIP_SLIP.put 0 1), fun d => by repeat' with_reducible (first | exact Same.refl _ | apply Same.ite | apply busWrite_same), fun _ => rfl⟩
  | linkTrain link failedOut failedIn => exact ⟨fun d => if d.clocked then (linkTrain d link failedOut failedIn) else d, fun d => by repeat' with_reducible (first | exact Same.refl _ | apply Same.ite | apply linkTrain_same), fun _ => rfl⟩
  | linkRetrain src link data => exact ⟨fun d => busWrite d src (ofLink A.D2D_LK_CTRL link) 0xF (F.D2D_LK_CTRL_RETRAIN.put data 1), fun d => by repeat' with_reducible (first | exact Same.refl _ | apply Same.ite | apply busWrite_same), fun _ => rfl⟩
  | d2dFlitReplay link dir lanes delivered => exact ⟨fun d => if d.clocked then (d2dFlitReplay d link dir lanes delivered) else d, fun d => by repeat' with_reducible (first | exact Same.refl _ | apply Same.ite | apply d2dFlitReplay_same), fun _ => rfl⟩
  | d2dSleep link dir => exact ⟨fun d => if d.clocked then (d2dSleep d link dir) else d, fun d => by repeat' with_reducible (first | exact Same.refl _ | apply Same.ite | apply d2dSleep_same), fun _ => rfl⟩
  | d2dWake link dir => exact ⟨fun d => if d.clocked then (d2dWake d link dir) else d, fun d => by repeat' with_reducible (first | exact Same.refl _ | apply Same.ite | apply d2dWake_same), fun _ => rfl⟩
  | lkSlipGo src link data => exact ⟨fun d => busWrite d src (ofLink A.D2D_LK_SLIP link) 0xF (F.D2D_LK_SLIP_GO.put data 1), fun d => by repeat' with_reducible (first | exact Same.refl _ | apply Same.ite | apply busWrite_same), fun _ => rfl⟩
  | portEnable src port data => exact ⟨fun d => busWrite d src (ofPort A.PORT_PT_CFG port) 0xF (F.PORT_PT_CFG_EN.put data 1), fun d => by repeat' with_reducible (first | exact Same.refl _ | apply Same.ite | apply busWrite_same), fun _ => rfl⟩
  | portDisable src port data => exact ⟨fun d => busWrite d src (ofPort A.PORT_PT_CFG port) 0xF (F.PORT_PT_CFG_EN.put data 0), fun d => by repeat' with_reducible (first | exact Same.refl _ | apply Same.ite | apply busWrite_same), fun _ => rfl⟩
  | portUp port => exact ⟨fun d => if d.clocked then (portUp d port) else d, fun d => by repeat' with_reducible (first | exact Same.refl _ | apply Same.ite | apply portUp_same), fun _ => rfl⟩
  | portDown port fault => exact ⟨fun d => if d.clocked then (portDown d port fault) else d, fun d => by repeat' with_reducible (first | exact Same.refl _ | apply Same.ite | apply portDown_same | apply Device.portDown_same), fun _ => rfl⟩
  | frameReceiveStart port cyc lane raw sfd bytes => exact ⟨fun d => if d.clocked then (frameReceiveStart d port cyc lane raw sfd bytes) else d, fun d => by repeat' with_reducible (first | exact Same.refl _ | apply Same.ite | apply frameReceiveStart_same), fun _ => rfl⟩
  | headerAccept gal cyc => exact ⟨fun d => if d.clocked then (headerAccept d gal cyc) else d, fun d => by repeat' with_reducible (first | exact Same.refl _ | apply Same.ite | apply headerAccept_same), fun _ => rfl⟩
  | parseResume port cyc bytes => exact ⟨fun d => if d.clocked then (parseResume d port cyc bytes) else d, fun d => by repeat' with_reducible (first | exact Same.refl _ | apply Same.ite | apply parseResume_same), fun _ => rfl⟩
  | fragmentHoldReenter gal => exact ⟨fun d => if d.clocked then (fragReenter d gal) else d, fun d => by repeat' with_reducible (first | exact Same.refl _ | apply Same.ite | apply fragReenter_same), fun _ => rfl⟩
  | fftEntryExpire index => exact ⟨fun d => if d.clocked then (fftEntryExpire d index) else d, fun d => by repeat' with_reducible (first | exact Same.refl _ | apply Same.ite | apply fftEntryExpire_same), fun _ => rfl⟩
  | fftFlush src data => exact ⟨fun d => busWrite d src A.TABLE_FFT_CFG 0xF (F.TABLE_FFT_CFG_FLUSH.put data 1), fun d => by repeat' with_reducible (first | exact Same.refl _ | apply Same.ite | apply busWrite_same), fun _ => rfl⟩
  | extLookupReturn gal => exact ⟨fun d => if d.clocked then (extReturn d gal) else d, fun d => by repeat' with_reducible (first | exact Same.refl _ | apply Same.ite | apply extReturn_same), fun _ => rfl⟩
  | ingressPassEnd gal cyc => exact ⟨fun d => if d.clocked then (ingressPassEnd d gal cyc) else d, fun d => by repeat' with_reducible (first | exact Same.refl _ | apply Same.ite | apply ingressPassEnd_same), fun _ => rfl⟩
  | stairGrant gal cyc => exact ⟨fun d => if d.clocked then (stairGrant d gal cyc) else d, fun d => by repeat' with_reducible (first | exact Same.refl _ | apply Same.ite | apply stairGrant_same), fun _ => rfl⟩
  | stairWaitExpire gal => exact ⟨fun d => if d.clocked then (stairExpire d gal) else d, fun d => by repeat' with_reducible (first | exact Same.refl _ | apply Same.ite | apply stairExpire_same), fun _ => rfl⟩
  | frameReceiveEnd port cyc bytes codewords => exact ⟨fun d => if d.clocked then (frameReceiveEnd d port cyc bytes codewords) else d, fun d => by repeat' with_reducible (first | exact Same.refl _ | apply Same.ite | apply frameReceiveEnd_same), fun _ => rfl⟩
  | icvCheckResult port cyc => exact ⟨fun d => if d.clocked then (icvCheckResult d port cyc) else d, fun d => by repeat' with_reducible (first | exact Same.refl _ | apply Same.ite | apply icvCheckResult_same), fun _ => rfl⟩
  | pfcReceive port en quanta => exact ⟨fun d => if d.clocked then (pfcReceive d port en quanta) else d, fun d => by repeat' with_reducible (first | exact Same.refl _ | apply Same.ite | apply pfcReceive_same), fun _ => rfl⟩
  | pauseReceive port quanta => exact ⟨fun d => if d.clocked then (pauseReceive d port quanta) else d, fun d => by repeat' with_reducible (first | exact Same.refl _ | apply Same.ite | apply pauseReceive_same), fun _ => rfl⟩
  | pfcStopExpire port cyc => exact ⟨fun d => if d.clocked then (pfcStopExpire d port cyc) else d, fun d => by repeat' with_reducible (first | exact Same.refl _ | apply Same.ite | apply pfcStopExpire_same), fun _ => rfl⟩
  | pfcXoffRepeat port cyc => exact ⟨fun d => if d.clocked then (pfcXoffRepeat d port cyc) else d, fun d => by repeat' with_reducible (first | exact Same.refl _ | apply Same.ite | apply pfcXoffRepeat_same), fun _ => rfl⟩
  | pdelayExchange port cyc lane raw => exact ⟨fun d => if d.clocked then (pdelayExchange d port cyc lane raw) else d, fun d => by repeat' with_reducible (first | exact Same.refl _ | apply Same.ite | apply pdelayExchange_same), fun _ => rfl⟩
  | pdelayRespReceive port cyc lane raw seq reqId t2 t3 => exact ⟨fun d => if d.clocked then (pdelayRespReceive d port cyc lane raw seq reqId t2 t3) else d, fun d => by repeat' with_reducible (first | exact Same.refl _ | apply Same.ite | apply pdelayRespReceive_same), fun _ => rfl⟩
  | pdelayReqAnswer port cyc rxLane rxRaw txLane txRaw seq srcId corr => exact ⟨fun d => if d.clocked then (pdelayReqAnswer d port cyc rxLane rxRaw txLane txRaw seq srcId corr) else d, fun d => by repeat' with_reducible (first | exact Same.refl _ | apply Same.ite | apply pdelayReqAnswer_same), fun _ => rfl⟩
  | parseBankSwitchReq src => exact ⟨fun d => busWrite d src A.TOP_PARSE_BANK 0xF (F.TOP_PARSE_BANK_SWITCH.put 0 1), fun d => by repeat' with_reducible (first | exact Same.refl _ | apply Same.ite | apply busWrite_same), fun _ => rfl⟩
  | actWordWrite src gal => exact ⟨fun d => busWrite d src (A.MATCH_ACT_CMD gal) 0xF (F.MATCH_ACT_CMD_WRITE.put 0 1), fun d => by repeat' with_reducible (first | exact Same.refl _ | apply Same.ite | apply busWrite_same), fun _ => rfl⟩
  | actWordRead src gal => exact ⟨fun d => busWrite d src (A.MATCH_ACT_CMD gal) 0xF (F.MATCH_ACT_CMD_READ.put 0 1), fun d => by repeat' with_reducible (first | exact Same.refl _ | apply Same.ite | apply busWrite_same), fun _ => rfl⟩
  | egressSelect port cyc => exact ⟨fun d => if d.clocked then (egressSelect d port cyc) else d, fun d => by repeat' with_reducible (first | exact Same.refl _ | apply Same.ite | apply egressSelect_same), fun _ => rfl⟩
  | egressFirstByte port cyc lane raw => exact ⟨fun d => if d.clocked then (egressFirstByte d port cyc lane raw) else d, fun d => by repeat' with_reducible (first | exact Same.refl _ | apply Same.ite | apply egressFirstByte_same), fun _ => rfl⟩
  | frameTransmitEnd port => exact ⟨fun d => if d.clocked then (frameTransmitEnd d port) else d, fun d => by repeat' with_reducible (first | exact Same.refl _ | apply Same.ite | apply frameTransmitEnd_same), fun _ => rfl⟩
  | ctUnderrun port => exact ⟨fun d => if d.clocked then (ctUnderrun d port) else d, fun d => by repeat' with_reducible (first | exact Same.refl _ | apply Same.ite | apply ctUnderrun_same), fun _ => rfl⟩
  | cellEccUncorrectable port => exact ⟨fun d => if d.clocked then (cellEcc d port) else d, fun d => by repeat' with_reducible (first | exact Same.refl _ | apply Same.ite | apply cellEcc_same), fun _ => rfl⟩
  | spillMove gal bad => exact ⟨fun d => if d.clocked then (spillMove d gal bad) else d, fun d => by repeat' with_reducible (first | exact Same.refl _ | apply Same.ite | apply spillMove_same), fun _ => rfl⟩
  | spillReturn gal bad => exact ⟨fun d => if d.clocked then (spillReturn d gal bad) else d, fun d => by repeat' with_reducible (first | exact Same.refl _ | apply Same.ite | apply spillReturn_same), fun _ => rfl⟩
  | bankCopy bad => exact ⟨fun d => if d.clocked then (bankCopy d bad) else d, fun d => by repeat' with_reducible (first | exact Same.refl _ | apply Same.ite | apply bankCopy_same), fun _ => rfl⟩
  | bankRemap => exact ⟨fun d => if d.clocked then (bankRemap d) else d, fun d => by repeat' with_reducible (first | exact Same.refl _ | apply Same.ite | apply bankRemap_same), fun _ => rfl⟩
  | bankLost => exact ⟨fun d => if d.clocked then (bankLost d) else d, fun d => by repeat' with_reducible (first | exact Same.refl _ | apply Same.ite | apply bankLost_same), fun _ => rfl⟩
  | repListWrite src => exact ⟨fun d => busWrite d src A.HALL_REP_CMD 0xF (F.HALL_REP_CMD_WRITE.put 0 1), fun d => by repeat' with_reducible (first | exact Same.refl _ | apply Same.ite | apply busWrite_same), fun _ => rfl⟩
  | repListRead src => exact ⟨fun d => busWrite d src A.HALL_REP_CMD 0xF (F.HALL_REP_CMD_READ.put 0 1), fun d => by repeat' with_reducible (first | exact Same.refl _ | apply Same.ite | apply busWrite_same), fun _ => rfl⟩
  | billetGrant pool => exact ⟨fun d => if d.clocked then (billetGrant d pool) else d, fun d => by repeat' with_reducible (first | exact Same.refl _ | apply Same.ite | apply billetGrant_same), fun _ => rfl⟩
  | billetFree pool => exact ⟨fun d => if d.clocked then (billetFree d pool) else d, fun d => by repeat' with_reducible (first | exact Same.refl _ | apply Same.ite | apply billetFree_same), fun _ => rfl⟩
  | billetCacheRefill pool => exact ⟨fun d => if d.clocked then (billetRefill d pool) else d, fun d => by repeat' with_reducible (first | exact Same.refl _ | apply Same.ite | apply billetRefill_same), fun _ => rfl⟩
  | billetCacheWriteback pool => exact ⟨fun d => if d.clocked then (billetWriteback d pool) else d, fun d => by repeat' with_reducible (first | exact Same.refl _ | apply Same.ite | apply billetWriteback_same), fun _ => rfl⟩
  | gateCommit src port data => exact ⟨fun d => busWrite d src (ofPort A.GATE_GT_CTRL port) 0xF (F.GATE_GT_CTRL_COMMIT.put data 1), fun d => by repeat' with_reducible (first | exact Same.refl _ | apply Same.ite | apply busWrite_same), fun _ => rfl⟩
  | gateListTakeover port cyc => exact ⟨fun d => if d.clocked then (gateTakeover d port cyc) else d, fun d => by repeat' with_reducible (first | exact Same.refl _ | apply Same.ite | apply gateTakeover_same), fun _ => rfl⟩
  | gateEdge port cyc => exact ⟨fun d => if d.clocked then (gateEdge d port cyc) else d, fun d => by repeat' with_reducible (first | exact Same.refl _ | apply Same.ite | apply gateEdge_same), fun _ => rfl⟩
  | keyCommit src aes256 => exact ⟨fun d => busWrite d src A.KEYS_KEY_CMD 0xF (F.KEYS_KEY_CMD_CIPHER.put (F.KEYS_KEY_CMD_COMMIT.put 0 1) (b2n aes256)), fun d => by repeat' with_reducible (first | exact Same.refl _ | apply Same.ite | apply busWrite_same), fun _ => rfl⟩
  | keyErase src aes256 => exact ⟨fun d => busWrite d src A.KEYS_KEY_CMD 0xF (F.KEYS_KEY_CMD_CIPHER.put (F.KEYS_KEY_CMD_ERASE.put 0 1) (b2n aes256)), fun d => by repeat' with_reducible (first | exact Same.refl _ | apply Same.ite | apply busWrite_same), fun _ => rfl⟩
  | keyCommitPoint at_ => exact ⟨fun d => if d.clocked then (keyCommitPoint d at_) else d, fun d => by repeat' with_reducible (first | exact Same.refl _ | apply Same.ite | apply keyCommitPoint_same), fun _ => rfl⟩
  | saPnWrite src gal hi => exact ⟨fun d => busWrite d src (A.INTEG_SA_PN_HI gal) 0xF hi, fun d => by repeat' with_reducible (first | exact Same.refl _ | apply Same.ite | apply busWrite_same), fun _ => rfl⟩
  | clockStepSet src => exact ⟨fun d => busWrite d src A.TIME_STEP_CTRL 0xF (F.TIME_STEP_CTRL_SET.put 0 1), fun d => by repeat' with_reducible (first | exact Same.refl _ | apply Same.ite | apply busWrite_same), fun _ => rfl⟩
  | clockStepAdd src => exact ⟨fun d => busWrite d src A.TIME_STEP_CTRL 0xF (F.TIME_STEP_CTRL_ADD.put 0 1), fun d => by repeat' with_reducible (first | exact Same.refl _ | apply Same.ite | apply busWrite_same), fun _ => rfl⟩
  | clockStepDone cyc => exact ⟨fun d => if d.clocked then (clockStepDone d cyc) else d, fun d => by repeat' with_reducible (first | exact Same.refl _ | apply Same.ite | apply clockStepDone_same), fun _ => rfl⟩
  | nowRead src => exact ⟨fun d => busReadStep d src A.TIME_NOW_FRAC 0xF, fun d => by repeat' with_reducible (first | exact Same.refl _ | apply Same.ite | apply busReadStep_same), fun _ => rfl⟩
  | ext10mLost cyc => exact ⟨fun d => Device.ext10m false (fun d => ext10mLost d cyc) d, fun d => by repeat' with_reducible (first | exact Same.refl _ | apply Same.ite | intro _ _ | assumption | apply Device.ext10m_same | apply ext10mLost_same), fun _ => rfl⟩
  | ext10mRestored cyc => exact ⟨fun d => Device.ext10m true (fun d => ext10mRestored d cyc) d, fun d => by repeat' with_reducible (first | exact Same.refl _ | apply Same.ite | intro _ _ | assumption | apply Device.ext10m_same | apply ext10mRestored_same), fun _ => rfl⟩
  | ledgerRecord cyc => exact ⟨fun d => if d.clocked then (ledgerRecord d cyc) else d, fun d => by repeat' with_reducible (first | exact Same.refl _ | apply Same.ite | apply ledgerRecord_same), fun _ => rfl⟩
  | ledgerCopy src data => exact ⟨fun d => busWrite d src A.TIME_LEDGER_CTRL 0xF (F.TIME_LEDGER_CTRL_COPY.put data 1), fun d => by repeat' with_reducible (first | exact Same.refl _ | apply Same.ite | apply busWrite_same), fun _ => rfl⟩
  | ledgerCopyDone => exact ⟨fun d => if d.clocked then (ledgerCopyDone d) else d, fun d => by repeat' with_reducible (first | exact Same.refl _ | apply Same.ite | apply ledgerCopyDone_same), fun _ => rfl⟩
  | syncSend port cyc => exact ⟨fun d => if d.clocked then (syncSend d port cyc) else d, fun d => by repeat' with_reducible (first | exact Same.refl _ | apply Same.ite | apply syncSend_same), fun _ => rfl⟩
  | delayRespSend port cyc lane raw m => exact ⟨fun d => if d.clocked then (delayRespSend d port cyc lane raw m) else d, fun d => by repeat' with_reducible (first | exact Same.refl _ | apply Same.ite | apply delayRespSend_same), fun _ => rfl⟩
  | delayReqSend cyc => exact ⟨fun d => if d.clocked then (delayReqSend d cyc) else d, fun d => by repeat' with_reducible (first | exact Same.refl _ | apply Same.ite | apply delayReqSend_same), fun _ => rfl⟩
  | delayRespReceive port cyc m => exact ⟨fun d => if d.clocked then (delayRespReceive d port cyc m) else d, fun d => by repeat' with_reducible (first | exact Same.refl _ | apply Same.ite | apply delayRespReceive_same), fun _ => rfl⟩
  | syncReceiveSample port cyc lane raw m => exact ⟨fun d => if d.clocked then (syncReceiveSample d port cyc lane raw m) else d, fun d => by repeat' with_reducible (first | exact Same.refl _ | apply Same.ite | apply syncReceiveSample_same), fun _ => rfl⟩
  | followUpReceive port cyc m => exact ⟨fun d => if d.clocked then (followUpReceive d port cyc m) else d, fun d => by repeat' with_reducible (first | exact Same.refl _ | apply Same.ite | apply followUpReceive_same), fun _ => rfl⟩
  | servoLossTimeout => exact ⟨fun d => if d.clocked then (servoLossTimeout d) else d, fun d => by repeat' with_reducible (first | exact Same.refl _ | apply Same.ite | apply servoLossTimeout_same), fun _ => rfl⟩
  | ppsInEdge k cyc raw => exact ⟨fun d => if d.clocked then (ppsInEdge d k cyc raw) else d, fun d => by repeat' with_reducible (first | exact Same.refl _ | apply Same.ite | apply ppsInEdge_same), fun _ => rfl⟩
  | timeEvtEdge k cyc raw rising => exact ⟨fun d => if d.clocked then (timeEvtEdge d k cyc raw rising) else d, fun d => by repeat' with_reducible (first | exact Same.refl _ | apply Same.ite | apply timeEvtEdge_same), fun _ => rfl⟩
  | evtFifoRead src k => exact ⟨fun d => busReadStep d src (A.TIME_EV_FRAC k) 0xF, fun d => by repeat' with_reducible (first | exact Same.refl _ | apply Same.ite | apply busReadStep_same), fun _ => rfl⟩
  | ppsOutEdge k cyc => exact ⟨fun d => if d.clocked then (ppsOutEdge d k cyc) else d, fun d => by repeat' with_reducible (first | exact Same.refl _ | apply Same.ite | apply ppsOutEdge_same), fun _ => rfl⟩
  | triggerEnable src k data => exact ⟨fun d => busWrite d src (A.TIME_TR_CTRL k) 0xF (F.TIME_TR_CTRL_EN.put data 1), fun d => by repeat' with_reducible (first | exact Same.refl _ | apply Same.ite | apply busWrite_same), fun _ => rfl⟩
  | triggerPulse k cyc => exact ⟨fun d => if d.clocked then (triggerPulse d k cyc) else d, fun d => by repeat' with_reducible (first | exact Same.refl _ | apply Same.ite | apply triggerPulse_same), fun _ => rfl⟩
  | flowMissFetch => exact ⟨fun d => if d.clocked then (flowMissFetch d) else d, fun d => by repeat' with_reducible (first | exact Same.refl _ | apply Same.ite | apply flowMissFetch_same), fun _ => rfl⟩
  | flowSweepVisit => exact ⟨fun d => if d.clocked then (flowSweepVisit d) else d, fun d => by repeat' with_reducible (first | exact Same.refl _ | apply Same.ite | apply flowSweepVisit_same), fun _ => rfl⟩
  | flowFlush src data => exact ⟨fun d => busWrite d src A.TELEM_FS_CFG 0xF (F.TELEM_FS_CFG_FLUSH.put data 1), fun d => by repeat' with_reducible (first | exact Same.refl _ | apply Same.ite | apply busWrite_same), fun _ => rfl⟩
  | datagramClose packer coll kind => exact ⟨fun d => if d.clocked then (datagramClose d packer coll kind) else d, fun d => by repeat' with_reducible (first | exact Same.refl _ | apply Same.ite | apply datagramClose_same), fun _ => rfl⟩
  | groupEnable src data => exact ⟨fun d => busWrite d src A.ANVIL_G_CFG 0xF (F.ANVIL_G_CFG_VALID.put data 1), fun d => by repeat' with_reducible (first | exact Same.refl _ | apply Same.ite | apply busWrite_same), fun _ => rfl⟩
  | groupDisable src data => exact ⟨fun d => busWrite d src A.ANVIL_G_CFG 0xF (F.ANVIL_G_CFG_VALID.put data 0), fun d => by repeat' with_reducible (first | exact Same.refl _ | apply Same.ite | apply busWrite_same), fun _ => rfl⟩
  | contribReceive anvil => exact ⟨fun d => if d.clocked then (contribReceive d anvil) else d, fun d => by repeat' with_reducible (first | exact Same.refl _ | apply Same.ite | apply contribReceive_same), fun _ => rfl⟩
  | resultReceive anvil => exact ⟨fun d => if d.clocked then (resultReceive d anvil) else d, fun d => by repeat' with_reducible (first | exact Same.refl _ | apply Same.ite | apply resultReceive_same), fun _ => rfl⟩
  | nackReceive anvil => exact ⟨fun d => if d.clocked then (nackReceive d anvil) else d, fun d => by repeat' with_reducible (first | exact Same.refl _ | apply Same.ite | apply nackReceive_same), fun _ => rfl⟩
  | abortReceive anvil => exact ⟨fun d => if d.clocked then (abortReceive d anvil) else d, fun d => by repeat' with_reducible (first | exact Same.refl _ | apply Same.ite | apply abortReceive_same), fun _ => rfl⟩
  | nackTimerExpire group => exact ⟨fun d => if d.clocked then (nackTimer d group) else d, fun d => by repeat' with_reducible (first | exact Same.refl _ | apply Same.ite | apply nackTimer_same), fun _ => rfl⟩
  | upTimerExpire group => exact ⟨fun d => if d.clocked then (upTimer d group) else d, fun d => by repeat' with_reducible (first | exact Same.refl _ | apply Same.ite | apply upTimer_same), fun _ => rfl⟩
  | retainComplete anvil => exact ⟨fun d => if d.clocked then (retainComplete d anvil) else d, fun d => by repeat' with_reducible (first | exact Same.refl _ | apply Same.ite | apply retainComplete_same), fun _ => rfl⟩
  | retainExpire group => exact ⟨fun d => if d.clocked then (retainExpire d group) else d, fun d => by repeat' with_reducible (first | exact Same.refl _ | apply Same.ite | apply retainExpire_same), fun _ => rfl⟩
  | microwordIssue seq cyc => exact ⟨fun d => if d.clocked then (microwordIssue d seq cyc) else d, fun d => by repeat' with_reducible (first | exact Same.refl _ | apply Same.ite | apply microwordIssue_same), fun _ => rfl⟩
  | waitConditionMet seq cyc => exact ⟨fun d => if d.clocked then (waitConditionMet d seq cyc) else d, fun d => by repeat' with_reducible (first | exact Same.refl _ | apply Same.ite | apply waitConditionMet_same), fun _ => rfl⟩
  | waitTimeout seq => exact ⟨fun d => if d.clocked then (waitTimeout d seq) else d, fun d => by repeat' with_reducible (first | exact Same.refl _ | apply Same.ite | apply waitTimeout_same), fun _ => rfl⟩
  | busAccessComplete seq cyc => exact ⟨fun d => if d.clocked then (busAccessComplete d seq cyc) else d, fun d => by repeat' with_reducible (first | exact Same.refl _ | apply Same.ite | apply busAccessComplete_same), fun _ => rfl⟩
  | lhTransferComplete seq => exact ⟨fun d => if d.clocked then (lhTransferComplete d seq) else d, fun d => by repeat' with_reducible (first | exact Same.refl _ | apply Same.ite | apply lhTransferComplete_same), fun _ => rfl⟩
  | seqEventPost seq ev => exact ⟨fun d => if d.clocked then (seqEventPost d seq ev) else d, fun d => by repeat' with_reducible (first | exact Same.refl _ | apply Same.ite | apply seqEventPost_same), fun _ => rfl⟩
  | imageLoad src role data => exact ⟨fun d => busWrite d src (A.SEQ_RL_CMD (role - 1)) 0xF (F.SEQ_RL_CMD_LOAD.put data 1), fun d => by repeat' with_reducible (first | exact Same.refl _ | apply Same.ite | apply busWrite_same), fun _ => rfl⟩
  | imageLoadDone role img => exact ⟨fun d => if d.clocked then (imageLoadDone d role img) else d, fun d => by repeat' with_reducible (first | exact Same.refl _ | apply Same.ite | apply imageLoadDone_same), fun _ => rfl⟩
  | imageSwitch src role data => exact ⟨fun d => busWrite d src (A.SEQ_RL_CMD (role - 1)) 0xF (F.SEQ_RL_CMD_SWITCH.put data 1), fun d => by repeat' with_reducible (first | exact Same.refl _ | apply Same.ite | apply busWrite_same), fun _ => rfl⟩
  | imageSwitchMade role => exact ⟨fun d => if d.clocked then (imageSwitchMade d role) else d, fun d => by repeat' with_reducible (first | exact Same.refl _ | apply Same.ite | apply imageSwitchMade_same), fun _ => rfl⟩
  | imageSwitchTimeout role => exact ⟨fun d => if d.clocked then (imageSwitchTimeout d role) else d, fun d => by repeat' with_reducible (first | exact Same.refl _ | apply Same.ite | apply imageSwitchTimeout_same), fun _ => rfl⟩
  | seqRestart src seq => exact ⟨fun d => busWrite d src (A.SEQ_SQ_CTRL seq) 0xF (F.SEQ_SQ_CTRL_RESTART.put 0 1), fun d => by repeat' with_reducible (first | exact Same.refl _ | apply Same.ite | apply busWrite_same), fun _ => rfl⟩
  | seqStop src seq => exact ⟨fun d => busWrite d src (A.SEQ_SQ_CTRL seq) 0xF (F.SEQ_SQ_CTRL_STOP.put 0 1), fun d => by repeat' with_reducible (first | exact Same.refl _ | apply Same.ite | apply busWrite_same), fun _ => rfl⟩
  | mboxWrite src seq value => exact ⟨fun d => busWrite d src (A.SEQ_SQ_MBOX_IN seq) 0xF value, fun d => by repeat' with_reducible (first | exact Same.refl _ | apply Same.ite | apply busWrite_same), fun _ => rfl⟩
  | learnAdmit cyc => exact ⟨fun d => if d.clocked then (learnAdmit d cyc) else d, fun d => by repeat' with_reducible (first | exact Same.refl _ | apply Same.ite | apply learnAdmit_same), fun _ => rfl⟩
  | ageSweepStart => exact ⟨fun d => if d.clocked then (ageSweepStart d) else d, fun d => by repeat' with_reducible (first | exact Same.refl _ | apply Same.ite | apply ageSweepStart_same), fun _ => rfl⟩
  | replaceDone => exact ⟨fun d => if d.clocked then (replaceDone d) else d, fun d => by repeat' with_reducible (first | exact Same.refl _ | apply Same.ite | apply replaceDone_same), fun _ => rfl⟩
  | lockExpire row => exact ⟨fun d => if d.clocked then (lockExpire d row) else d, fun d => by repeat' with_reducible (first | exact Same.refl _ | apply Same.ite | apply lockExpire_same), fun _ => rfl⟩
  | tdmaRead ring => exact ⟨fun d => if d.clocked then (tdmaRead d ring) else d, fun d => by repeat' with_reducible (first | exact Same.refl _ | apply Same.ite | apply tdmaRead_same), fun _ => rfl⟩
  | tdmaWrite ring data => exact ⟨fun d => if d.clocked then (tdmaWrite d ring data) else d, fun d => by repeat' with_reducible (first | exact Same.refl _ | apply Same.ite | apply tdmaWrite_same), fun _ => rfl⟩
  | tdmaLock ring => exact ⟨fun d => if d.clocked then (tdmaLock d ring) else d, fun d => by repeat' with_reducible (first | exact Same.refl _ | apply Same.ite | apply tdmaLock_same), fun _ => rfl⟩
  | tdmaUnlock ring => exact ⟨fun d => if d.clocked then (tdmaUnlock d ring) else d, fun d => by repeat' with_reducible (first | exact Same.refl _ | apply Same.ite | apply tdmaUnlock_same), fun _ => rfl⟩
  | ringEnable via ring data => exact ⟨fun d => d.viaRing via ring (F.RINGS_RW_CTRL_EN.put data 1), fun d => by repeat' with_reducible (first | exact Same.refl _ | apply Same.ite | apply Device.viaRing_same), fun _ => rfl⟩
  | ringDisable via ring data => exact ⟨fun d => d.viaRing via ring (F.RINGS_RW_CTRL_EN.put data 0), fun d => by repeat' with_reducible (first | exact Same.refl _ | apply Same.ite | apply Device.viaRing_same), fun _ => rfl⟩
  | ringPoll ring => exact ⟨fun d => if d.clocked then (ringPoll d ring) else d, fun d => by repeat' with_reducible (first | exact Same.refl _ | apply Same.ite | apply ringPoll_same), fun _ => rfl⟩
  | ringEntryRead ring entry body => exact ⟨fun d => if d.clocked then (ringEntryRead d ring entry body) else d, fun d => by repeat' with_reducible (first | exact Same.refl _ | apply Same.ite | apply ringEntryRead_same), fun _ => rfl⟩
  | rxPacketWrite ring => exact ⟨fun d => if d.clocked then (rxPacketWrite d ring) else d, fun d => by repeat' with_reducible (first | exact Same.refl _ | apply Same.ite | apply rxPacketWrite_same), fun _ => rfl⟩
  | noticeWrite => exact ⟨fun d => if d.clocked then (noticeWrite d) else d, fun d => by repeat' with_reducible (first | exact Same.refl _ | apply Same.ite | apply noticeWrite_same), fun _ => rfl⟩
  | hostReadTimeout ring row => exact ⟨fun d => if d.clocked then (hostReadTimeout d ring row) else d, fun d => by repeat' with_reducible (first | exact Same.refl _ | apply Same.ite | apply hostReadTimeout_same), fun _ => rfl⟩
  | hostReadRetry ring => exact ⟨fun d => if d.clocked then (hostReadRetry d ring) else d, fun d => by repeat' with_reducible (first | exact Same.refl _ | apply Same.ite | apply hostReadRetry_same), fun _ => rfl⟩
  | ringResume via ring data => exact ⟨fun d => d.viaRing via ring (F.RINGS_RW_CTRL_RESUME.put data 1), fun d => by repeat' with_reducible (first | exact Same.refl _ | apply Same.ite | apply Device.viaRing_same), fun _ => rfl⟩
  | functionLevelReset vf => exact ⟨fun d => if d.clocked then (functionLevelReset d vf) else d, fun d => by repeat' with_reducible (first | exact Same.refl _ | apply Same.ite | apply functionLevelReset_same), fun _ => rfl⟩
  | registerWrite via addr be data cyc => exact ⟨fun d => d.writeAt via addr be data cyc, fun d => by repeat' with_reducible (first | exact Same.refl _ | apply Same.ite | apply Device.writeAt_same), fun _ => rfl⟩
  | loReadLatch via addr be => exact ⟨fun d => d.viaRead via addr be, fun d => by repeat' with_reducible (first | exact Same.refl _ | apply Same.ite | apply Device.viaRead_same), fun _ => rfl⟩
  | bootLock src => exact ⟨fun d => busWrite d src A.TOP_BOOT_LOCK 0xF (F.TOP_BOOT_LOCK_LOCKED.put 0 1), fun d => by repeat' with_reducible (first | exact Same.refl _ | apply Same.ite | apply busWrite_same), fun _ => rfl⟩
  | errClr src page cyc => exact ⟨fun d => d.writeAt (viaOf src) (pageBase page + 0x08) 0xF 1 cyc, fun d => by repeat' with_reducible (first | exact Same.refl _ | apply Same.ite | apply Device.writeAt_same), fun _ => rfl⟩
  | irqForce src page bits => exact ⟨fun d => busWrite d src (pageBase page + 0x18) 0xF bits, fun d => by repeat' with_reducible (first | exact Same.refl _ | apply Same.ite | apply busWrite_same), fun _ => rfl⟩
  | stairPeakRead src gal => exact ⟨fun d => busReadStep d src (A.STAIR_STAT gal) 0xF, fun d => by repeat' with_reducible (first | exact Same.refl _ | apply Same.ite | apply busReadStep_same), fun _ => rfl⟩
  | damperPeakRead src temp => exact ⟨fun d => busReadStep d src (if temp then A.DAMPER_TEMP else A.DAMPER_PEAK) 0xF, fun d => by repeat' with_reducible (first | exact Same.refl _ | apply Same.ite | apply busReadStep_same), fun _ => rfl⟩
  | rasLogRead src => exact ⟨fun d => busReadStep d src (A.RAS_LOG 0) 0xF, fun d => by repeat' with_reducible (first | exact Same.refl _ | apply Same.ite | apply busReadStep_same), fun _ => rfl⟩
  | sampleFifoRead src gal => exact ⟨fun d => busReadStep d src (A.GCNT_SMP gal 0) 0xF, fun d => by repeat' with_reducible (first | exact Same.refl _ | apply Same.ite | apply busReadStep_same), fun _ => rfl⟩
  | pcValCommit src page k hi cyc =>
    cases page with
    | none => exact ⟨fun d => d.writeAt (viaOf src) (A.CNT_PC_VAL_HI k) 0xF hi cyc, fun d => Device.writeAt_same _ _ _ _ _ (Same.refl d), fun _ => rfl⟩
    | some n => exact ⟨fun d => d.writeAt (viaOf src) (A.GCNT_PC_VAL_HI n k) 0xF hi cyc, fun d => Device.writeAt_same _ _ _ _ _ (Same.refl d), fun _ => rfl⟩
  | pcClearAll src page freeze =>
    cases page with
    | none => exact ⟨fun d => busWrite d src (A.CNT_PC_GCTL) 0xF (F.GCNT_PC_GCTL_FREEZE.put 2 (b2n freeze)), fun d => busWrite_same _ _ _ _ (Same.refl d), fun _ => rfl⟩
    | some n => exact ⟨fun d => busWrite d src (A.GCNT_PC_GCTL n) 0xF (F.GCNT_PC_GCTL_FREEZE.put 2 (b2n freeze)), fun d => busWrite_same _ _ _ _ (Same.refl d), fun _ => rfl⟩
  | sampleSkidEnd gal cyc => exact ⟨fun d => if d.clocked then (sampleSkidEnd d gal cyc) else d, fun d => by repeat' with_reducible (first | exact Same.refl _ | apply Same.ite | apply sampleSkidEnd_same), fun _ => rfl⟩
  | vrThrottleAssert => exact ⟨fun d => vrThrottleAssert d, fun d => by repeat' with_reducible (first | exact Same.refl _ | apply Same.ite | apply vrThrottleAssert_same), fun _ => rfl⟩
  | vrThrottleRelease => exact ⟨fun d => vrThrottleRelease d, fun d => by repeat' with_reducible (first | exact Same.refl _ | apply Same.ite | apply vrThrottleRelease_same), fun _ => rfl⟩
  | thermalSensorRead temps => exact ⟨fun d => if d.clocked then (thermalSensorRead d temps) else d, fun d => by repeat' with_reducible (first | exact Same.refl _ | apply Same.ite | apply thermalSensorRead_same), fun _ => rfl⟩
  | thermalDemandStep => exact ⟨fun d => if d.clocked then (thermalDemandStep d) else d, fun d => by repeat' with_reducible (first | exact Same.refl _ | apply Same.ite | apply thermalDemandStep_same), fun _ => rfl⟩
  | paceLevelStep => exact ⟨fun d => if d.clocked then (paceLevelStep d) else d, fun d => by repeat' with_reducible (first | exact Same.refl _ | apply Same.ite | apply paceLevelStep_same), fun _ => rfl⟩
  | pacingPeriod => exact ⟨fun d => if d.clocked then (pacingPeriod d) else d, fun d => by repeat' with_reducible (first | exact Same.refl _ | apply Same.ite | apply pacingPeriod_same), fun _ => rfl⟩
  | quenchStart cyc => exact ⟨fun d => if d.clocked then (quenchStart d cyc) else d, fun d => by repeat' with_reducible (first | exact Same.refl _ | apply Same.ite | apply quenchStart_same), fun _ => rfl⟩
  | quenchRelease cyc => exact ⟨fun d => if d.clocked then (quenchRelease d cyc) else d, fun d => by repeat' with_reducible (first | exact Same.refl _ | apply Same.ite | apply quenchRelease_same), fun _ => rfl⟩
  | sramEccCorrected unit inst addr => exact ⟨fun d => if d.clocked then (sramEccCorrected d ⟨unit, inst, addr⟩) else d, fun d => by repeat' with_reducible (first | exact Same.refl _ | apply Same.ite | apply sramEccCorrected_same), fun _ => rfl⟩
  | sramEccUncorrectable unit inst addr => exact ⟨fun d => if d.clocked then (sramEccUncorrectable d ⟨unit, inst, addr⟩) else d, fun d => by repeat' with_reducible (first | exact Same.refl _ | apply Same.ite | apply sramEccUncorrectable_same), fun _ => rfl⟩
  | rowTestComplete unit inst addr ok => exact ⟨fun d => if d.clocked then (rowTestComplete d ⟨unit, inst, addr⟩ ok) else d, fun d => by repeat' with_reducible (first | exact Same.refl _ | apply Same.ite | apply rowTestComplete_same), fun _ => rfl⟩
  | rowRepairSwitch => exact ⟨fun d => if d.clocked then (rowRepairSwitch d) else d, fun d => by repeat' with_reducible (first | exact Same.refl _ | apply Same.ite | apply rowRepairSwitch_same), fun _ => rfl⟩
  | lhEccCorrected stack unit resource => exact ⟨fun d => if d.clocked then (lhEccCorrected d stack unit resource) else d, fun d => by repeat' with_reducible (first | exact Same.refl _ | apply Same.ite | apply lhEccCorrected_same), fun _ => rfl⟩
  | recordWrite ok => exact ⟨fun d => if d.clocked then (recordWrite d ok) else d, fun d => by repeat' with_reducible (first | exact Same.refl _ | apply Same.ite | apply recordWrite_same), fun _ => rfl⟩
  | rrClear src data => exact ⟨fun d => busWrite d src A.RAS_RR_CFG 0xF (F.RAS_RR_CFG_CLEAR.put data 1), fun d => by repeat' with_reducible (first | exact Same.refl _ | apply Same.ite | apply busWrite_same), fun _ => rfl⟩
  | smbusWrite to_ data pec => exact ⟨fun d => smbusWrite d to_ data pec, fun d => by repeat' with_reducible (first | exact Same.refl _ | apply Same.ite | apply smbusWrite_same), fun _ => rfl⟩
  | smbusSetAddress to_ data pec => exact ⟨fun d => smbusSetAddress d to_ data pec, fun d => by repeat' with_reducible (first | exact Same.refl _ | apply Same.ite | apply smbusSetAddress_same), fun _ => rfl⟩
  | smbusRead to_ clocked => exact ⟨fun d => smbusRead d to_ clocked, fun d => by repeat' with_reducible (first | exact Same.refl _ | apply Same.ite | apply smbusRead_same), fun _ => rfl⟩
  | smbusTimeout => exact ⟨fun d => smbusTimeout d, fun d => by repeat' with_reducible (first | exact Same.refl _ | apply Same.ite | apply smbusTimeout_same), fun _ => rfl⟩
  | jtagIdcode => exact ⟨fun d => jtagIdcode d, fun d => by repeat' with_reducible (first | exact Same.refl _ | apply Same.ite | apply jtagIdcode_same), fun _ => rfl⟩
  | jtagBypass => exact ⟨fun d => jtagBypass d, fun d => by repeat' with_reducible (first | exact Same.refl _ | apply Same.ite | apply jtagBypass_same), fun _ => rfl⟩
  | jtagSamplePreload levels preload => exact ⟨fun d => jtagSample d levels preload, fun d => by repeat' with_reducible (first | exact Same.refl _ | apply Same.ite | apply jtagSample_same), fun _ => rfl⟩
  | jtagExtest levels => exact ⟨fun d => jtagExtest d levels, fun d => by repeat' with_reducible (first | exact Same.refl _ | apply Same.ite | apply jtagExtest_same), fun _ => rfl⟩
  | jtagClamp => exact ⟨fun d => jtagClamp d, fun d => by repeat' with_reducible (first | exact Same.refl _ | apply Same.ite | apply jtagClamp_same), fun _ => rfl⟩
  | jtagHighz => exact ⟨fun d => jtagHighz d, fun d => by repeat' with_reducible (first | exact Same.refl _ | apply Same.ite | apply jtagHighz_same), fun _ => rfl⟩
  | jtagTrst low => exact ⟨fun d => jtagTrst d low, fun d => by repeat' with_reducible (first | exact Same.refl _ | apply Same.ite | apply jtagTrst_same), fun _ => rfl⟩
  | msixVectorUnmask entry => exact ⟨fun d => if d.clocked then (msixVectorUnmask d entry) else d, fun d => by repeat' with_reducible (first | exact Same.refl _ | apply Same.ite | apply msixVectorUnmask_same), fun _ => rfl⟩
  | delayRespMissed => exact ⟨fun d => if d.clocked then (delayRespMissed d) else d, fun d => by repeat' with_reducible (first | exact Same.refl _ | apply Same.ite | apply delayRespMissed_same), fun _ => rfl⟩
  | ppsInCapRead src k => exact ⟨fun d => busReadStep d src (A.TIME_PPS_IN_CAP_FRAC k) 0xF, fun d => by repeat' with_reducible (first | exact Same.refl _ | apply Same.ite | apply busReadStep_same), fun _ => rfl⟩
  | rasLogStatRead src => exact ⟨fun d => busReadStep d src A.RAS_LOG_STAT 0xF, fun d => by repeat' with_reducible (first | exact Same.refl _ | apply Same.ite | apply busReadStep_same), fun _ => rfl⟩
  | cycleCounterWrap page k cyc => exact ⟨fun d => if d.clocked then (cycleCounterWrap d page k cyc) else d, fun d => by repeat' with_reducible (first | exact Same.refl _ | apply Same.ite | apply cycleCounterWrap_same), fun _ => rfl⟩
  | imageReadTimeout role => exact ⟨fun d => if d.clocked then (imageReadTimeout d role) else d, fun d => by repeat' with_reducible (first | exact Same.refl _ | apply Same.ite | apply imageReadTimeout_same), fun _ => rfl⟩

end Sys2Proof.Machine
end

