-- ==== Sys2Proof/Laws/Tab.lean ====
section
/-! SUPPORT. Sparse tables: what a key reads after a write, and that every write keeps the canonical form. -/

namespace Sys2Proof.Machine

variable {α : Type} {dflt : Nat → α}

theorem tabGet_tabPut_same (t : Tab α) (k : Nat) (v : α) : tabGet dflt (tabPut t k v) k = v := by
  induction t with
  | nil => simp [tabPut, tabGet]
  | cons e t ih =>
    obtain ⟨j, w⟩ := e
    by_cases h : k = j
    · simp [tabPut, tabGet, h]
    · by_cases h' : k < j
      · simp [tabPut, tabGet, h, h']
      · simp [tabPut, tabGet, h, h', ih]

theorem tabGet_tabPut_other (t : Tab α) {k i : Nat} (v : α) (hne : i ≠ k) :
    tabGet dflt (tabPut t k v) i = tabGet dflt t i := by
  induction t with
  | nil => simp [tabPut, tabGet, hne]
  | cons e t ih =>
    obtain ⟨j, w⟩ := e
    by_cases h : k = j
    · simp [tabPut, tabGet, h ▸ hne, h]
    · by_cases h' : k < j
      · by_cases hi : i < k
        · have : i < j := by omega
          have : i ≠ j := by omega
          simp [tabPut, tabGet, *]
        · simp [tabPut, tabGet, h, h', hi, hne]
      · simp [tabPut, tabGet, h, h', ih]

variable [DecidableEq α]

/-- Below the first key of a canonical table nothing is listed. -/
theorem tabGet_low {lo i : Nat} {t : Tab α} (hw : tabWfFrom dflt lo t = true) (hi : i < lo) : tabGet dflt t i = dflt i := by
  cases t with
  | nil => rfl
  | cons e t =>
    obtain ⟨j, w⟩ := e
    simp only [tabWfFrom, Bool.and_eq_true, decide_eq_true_eq] at hw
    have h1 : i ≠ j := by omega
    have h2 : i < j := by omega
    simp [tabGet, h1, h2]

theorem tabWfFrom_mono {lo lo' : Nat} {t : Tab α} (hw : tabWfFrom dflt lo t = true) (hl : lo' ≤ lo) :
    tabWfFrom dflt lo' t = true := by
  cases t with
  | nil => rfl
  | cons e t =>
    obtain ⟨j, w⟩ := e
    simp only [tabWfFrom, Bool.and_eq_true, decide_eq_true_eq] at hw ⊢
    exact ⟨⟨by omega, hw.1.2⟩, hw.2⟩

theorem tabGet_tabErase_same {lo : Nat} {t : Tab α} (k : Nat) (hw : tabWfFrom dflt lo t = true) :
    tabGet dflt (tabErase t k) k = dflt k := by
  induction t generalizing lo with
  | nil => rfl
  | cons e t ih =>
    obtain ⟨j, w⟩ := e
    simp only [tabWfFrom, Bool.and_eq_true, decide_eq_true_eq] at hw
    by_cases h : k = j
    · simpa [tabErase, h] using tabGet_low hw.2 (Nat.lt_succ_self j)
    · by_cases h' : k < j
      · simp [tabErase, tabGet, h, h']
      · simp [tabErase, tabGet, h, h', ih hw.2]

theorem tabGet_tabErase_other {lo : Nat} {t : Tab α} {k i : Nat} (hne : i ≠ k) (hw : tabWfFrom dflt lo t = true) :
    tabGet dflt (tabErase t k) i = tabGet dflt t i := by
  induction t generalizing lo with
  | nil => rfl
  | cons e t ih =>
    obtain ⟨j, w⟩ := e
    simp only [tabWfFrom, Bool.and_eq_true, decide_eq_true_eq] at hw
    by_cases h : k = j
    · subst h
      by_cases h2 : i < k
      · simp [tabErase, tabGet, hne, h2, tabGet_low hw.2 (show i < k + 1 by omega)]
      · simp [tabErase, tabGet, hne, h2]
    · by_cases h' : k < j
      · simp [tabErase, tabGet, h, h']
      · simp [tabErase, tabGet, h, h', ih hw.2]

/-- A key reads what was last written there. -/
theorem tabGet_tabSet_same {t : Tab α} (k : Nat) (v : α) (hw : tabWf dflt t = true) : tabGet dflt (tabSet dflt t k v) k = v := by
  by_cases h : v = dflt k
  · simp [tabSet, h, tabGet_tabErase_same k hw]
  · simp [tabSet, h, tabGet_tabPut_same]

/-- The same of a value that is not the unlisted one, whatever the table. -/
theorem tabGet_tabSet_ne (t : Tab α) {k : Nat} {v : α} (hv : v ≠ dflt k) : tabGet dflt (tabSet dflt t k v) k = v := by
  simp [tabSet, hv, tabGet_tabPut_same]

/-- Every other key reads as before. -/
theorem tabGet_tabSet_other {t : Tab α} {k i : Nat} (v : α) (hne : i ≠ k) (hw : tabWf dflt t = true) :
    tabGet dflt (tabSet dflt t k v) i = tabGet dflt t i := by
  by_cases h : v = dflt k
  · simp [tabSet, h, tabGet_tabErase_other hne hw]
  · simp [tabSet, h, tabGet_tabPut_other t v hne]

theorem tabPut_wf {lo : Nat} {t : Tab α} {k : Nat} {v : α} (hw : tabWfFrom dflt lo t = true) (hl : lo ≤ k) (hv : v ≠ dflt k) :
    tabWfFrom dflt lo (tabPut t k v) = true := by
  induction t generalizing lo with
  | nil => simp [tabPut, tabWfFrom, hl, hv]
  | cons e t ih =>
    obtain ⟨j, w⟩ := e
    simp only [tabWfFrom, Bool.and_eq_true, decide_eq_true_eq] at hw
    by_cases h : k = j
    · subst h
      simp [tabPut, tabWfFrom, hl, hv, hw]
    · by_cases h' : k < j
      · simp [tabPut, tabWfFrom, h, h', hl, hv, hw, show k + 1 ≤ j by omega]
      · simp [tabPut, tabWfFrom, h, h', hw, ih hw.2 (by omega)]

theorem tabErase_wf {lo : Nat} {t : Tab α} (k : Nat) (hw : tabWfFrom dflt lo t = true) :
    tabWfFrom dflt lo (tabErase t k) = true := by
  induction t generalizing lo with
  | nil => rfl
  | cons e t ih =>
    obtain ⟨j, w⟩ := e
    simp only [tabWfFrom, Bool.and_eq_true, decide_eq_true_eq] at hw
    by_cases h : k = j
    · simpa [tabErase, h] using tabWfFrom_mono hw.2 (by omega)
    · by_cases h' : k < j
      · simp [tabErase, tabWfFrom, h, h', hw]
      · simp [tabErase, tabWfFrom, h, h', hw, ih hw.2]

/-- A write keeps the canonical form. -/
theorem tabSet_wf {t : Tab α} (k : Nat) (v : α) (hw : tabWf dflt t = true) : tabWf dflt (tabSet dflt t k v) = true := by
  by_cases h : v = dflt k
  · rw [tabSet, if_pos h]
    exact tabErase_wf k hw
  · rw [tabSet, if_neg h]
    exact tabPut_wf hw (Nat.zero_le k) h

theorem tabSetMany_wf {t : Tab α} (k : Nat) (vs : List α) (hw : tabWf dflt t = true) :
    tabWf dflt (tabSetMany dflt t k vs) = true := by
  induction vs generalizing t k with
  | nil => exact hw
  | cons v vs ih => exact ih (k + 1) (tabSet_wf k v hw)

end Sys2Proof.Machine
end

