-- ==== Sys2Proof/Laws/State.lean ====
section
/-! SUPPORT. What the named operations of Ops.lean leave: one lemma for each unit of the device that an operation does not
touch, and what a register, a counter and a port read after a write. -/

namespace Sys2Proof.Machine

variable (d : Device)

/-- A recorded word changes the register file only. -/
theorem Device.errWord_file (b : Nat) (w : Word) : ∃ f, d.errWord b w = { d with file := f } := by
  unfold Device.errWord
  extract_lets n e
  by_cases h : n = 0
  · exact ⟨_, by rw [show e = _ from if_pos h]; rfl⟩
  · exact ⟨_, by rw [show e = _ from if_neg h]; rfl⟩

/-- Recording an access changes the register file only. -/
theorem Device.err_file (b o : Nat) (k : ErrKind) (s : Source) : ∃ f, d.err b o k s = { d with file := f } := by
  unfold Device.err
  extract_lets w e
  obtain ⟨f, h⟩ := Device.errWord_file d b w
  exact ⟨_, by rw [show e = _ from h]⟩

/-- Raising an event changes the register file only. -/
theorem Device.raise_file (b n : Nat) : ∃ f, d.raise b n = { d with file := f } := by
  unfold Device.raise
  extract_lets was e
  split
  · exact ⟨_, rfl⟩
  · exact ⟨_, rfl⟩

@[simp] theorem Device.setReg_dev (a : Nat) (v : Word) : (d.setReg a v).dev = d.dev := rfl
@[simp] theorem Device.setReg_stroke (a : Nat) (v : Word) : (d.setReg a v).stroke = d.stroke := rfl
@[simp] theorem Device.setReg_gen (a : Nat) (v : Word) : (d.setReg a v).gen = d.gen := rfl
@[simp] theorem Device.setReg_snap (a : Nat) (v : Word) : (d.setReg a v).snap = d.snap := rfl
@[simp] theorem Device.setReg_budget (a : Nat) (v : Word) : (d.setReg a v).budget = d.budget := rfl
@[simp] theorem Device.setReg_profile (a : Nat) (v : Word) : (d.setReg a v).profile = d.profile := rfl
@[simp] theorem Device.setReg_lane (a : Nat) (v : Word) : (d.setReg a v).lane = d.lane := rfl
@[simp] theorem Device.setReg_ports (a : Nat) (v : Word) : (d.setReg a v).ports = d.ports := rfl
@[simp] theorem Device.setReg_fft (a : Nat) (v : Word) : (d.setReg a v).fft = d.fft := rfl
@[simp] theorem Device.setReg_pkt (a : Nat) (v : Word) : (d.setReg a v).pkt = d.pkt := rfl
@[simp] theorem Device.setReg_hall (a : Nat) (v : Word) : (d.setReg a v).hall = d.hall := rfl
@[simp] theorem Device.setReg_table (a : Nat) (v : Word) : (d.setReg a v).table = d.table := rfl
@[simp] theorem Device.setReg_billet (a : Nat) (v : Word) : (d.setReg a v).billet = d.billet := rfl
@[simp] theorem Device.setReg_sched (a : Nat) (v : Word) : (d.setReg a v).sched = d.sched := rfl
@[simp] theorem Device.setReg_drops (a : Nat) (v : Word) : (d.setReg a v).drops = d.drops := rfl
@[simp] theorem Device.setReg_clock (a : Nat) (v : Word) : (d.setReg a v).clock = d.clock := rfl
@[simp] theorem Device.setReg_servo (a : Nat) (v : Word) : (d.setReg a v).servo = d.servo := rfl
@[simp] theorem Device.setReg_pulse (a : Nat) (v : Word) : (d.setReg a v).pulse = d.pulse := rfl
@[simp] theorem Device.setReg_ledger (a : Nat) (v : Word) : (d.setReg a v).ledger = d.ledger := rfl
@[simp] theorem Device.setReg_tsu (a : Nat) (v : Word) : (d.setReg a v).tsu = d.tsu := rfl
@[simp] theorem Device.setReg_damper (a : Nat) (v : Word) : (d.setReg a v).damper = d.damper := rfl
@[simp] theorem Device.setReg_telem (a : Nat) (v : Word) : (d.setReg a v).telem = d.telem := rfl
@[simp] theorem Device.setReg_integ (a : Nat) (v : Word) : (d.setReg a v).integ = d.integ := rfl
@[simp] theorem Device.setReg_host (a : Nat) (v : Word) : (d.setReg a v).host = d.host := rfl
@[simp] theorem Device.setReg_perf (a : Nat) (v : Word) : (d.setReg a v).perf = d.perf := rfl
@[simp] theorem Device.setReg_anvil (a : Nat) (v : Word) : (d.setReg a v).anvil = d.anvil := rfl
@[simp] theorem Device.setReg_ras (a : Nat) (v : Word) : (d.setReg a v).ras = d.ras := rfl
@[simp] theorem Device.setReg_seq (a : Nat) (v : Word) : (d.setReg a v).seq = d.seq := rfl
@[simp] theorem Device.setReg_boot (a : Nat) (v : Word) : (d.setReg a v).boot = d.boot := rfl
@[simp] theorem Device.setReg_mgmt (a : Nat) (v : Word) : (d.setReg a v).mgmt = d.mgmt := rfl
@[simp] theorem Device.setReg_sent (a : Nat) (v : Word) : (d.setReg a v).sent = d.sent := rfl
@[simp] theorem Device.setReg_freeCtr (a : Nat) (v : Word) : (d.setReg a v).freeCtr = d.freeCtr := rfl

@[simp] theorem Device.setRegHeld_dev (a : Nat) (v : Word) : (d.setRegHeld a v).dev = d.dev := rfl
@[simp] theorem Device.setRegHeld_stroke (a : Nat) (v : Word) : (d.setRegHeld a v).stroke = d.stroke := rfl
@[simp] theorem Device.setRegHeld_gen (a : Nat) (v : Word) : (d.setRegHeld a v).gen = d.gen := rfl
@[simp] theorem Device.setRegHeld_snap (a : Nat) (v : Word) : (d.setRegHeld a v).snap = d.snap := rfl
@[simp] theorem Device.setRegHeld_budget (a : Nat) (v : Word) : (d.setRegHeld a v).budget = d.budget := rfl
@[simp] theorem Device.setRegHeld_profile (a : Nat) (v : Word) : (d.setRegHeld a v).profile = d.profile := rfl
@[simp] theorem Device.setRegHeld_lane (a : Nat) (v : Word) : (d.setRegHeld a v).lane = d.lane := rfl
@[simp] theorem Device.setRegHeld_ports (a : Nat) (v : Word) : (d.setRegHeld a v).ports = d.ports := rfl
@[simp] theorem Device.setRegHeld_fft (a : Nat) (v : Word) : (d.setRegHeld a v).fft = d.fft := rfl
@[simp] theorem Device.setRegHeld_pkt (a : Nat) (v : Word) : (d.setRegHeld a v).pkt = d.pkt := rfl
@[simp] theorem Device.setRegHeld_hall (a : Nat) (v : Word) : (d.setRegHeld a v).hall = d.hall := rfl
@[simp] theorem Device.setRegHeld_table (a : Nat) (v : Word) : (d.setRegHeld a v).table = d.table := rfl
@[simp] theorem Device.setRegHeld_billet (a : Nat) (v : Word) : (d.setRegHeld a v).billet = d.billet := rfl
@[simp] theorem Device.setRegHeld_sched (a : Nat) (v : Word) : (d.setRegHeld a v).sched = d.sched := rfl
@[simp] theorem Device.setRegHeld_drops (a : Nat) (v : Word) : (d.setRegHeld a v).drops = d.drops := rfl
@[simp] theorem Device.setRegHeld_clock (a : Nat) (v : Word) : (d.setRegHeld a v).clock = d.clock := rfl
@[simp] theorem Device.setRegHeld_servo (a : Nat) (v : Word) : (d.setRegHeld a v).servo = d.servo := rfl
@[simp] theorem Device.setRegHeld_pulse (a : Nat) (v : Word) : (d.setRegHeld a v).pulse = d.pulse := rfl
@[simp] theorem Device.setRegHeld_ledger (a : Nat) (v : Word) : (d.setRegHeld a v).ledger = d.ledger := rfl
@[simp] theorem Device.setRegHeld_tsu (a : Nat) (v : Word) : (d.setRegHeld a v).tsu = d.tsu := rfl
@[simp] theorem Device.setRegHeld_damper (a : Nat) (v : Word) : (d.setRegHeld a v).damper = d.damper := rfl
@[simp] theorem Device.setRegHeld_telem (a : Nat) (v : Word) : (d.setRegHeld a v).telem = d.telem := rfl
@[simp] theorem Device.setRegHeld_integ (a : Nat) (v : Word) : (d.setRegHeld a v).integ = d.integ := rfl
@[simp] theorem Device.setRegHeld_host (a : Nat) (v : Word) : (d.setRegHeld a v).host = d.host := rfl
@[simp] theorem Device.setRegHeld_perf (a : Nat) (v : Word) : (d.setRegHeld a v).perf = d.perf := rfl
@[simp] theorem Device.setRegHeld_anvil (a : Nat) (v : Word) : (d.setRegHeld a v).anvil = d.anvil := rfl
@[simp] theorem Device.setRegHeld_ras (a : Nat) (v : Word) : (d.setRegHeld a v).ras = d.ras := rfl
@[simp] theorem Device.setRegHeld_seq (a : Nat) (v : Word) : (d.setRegHeld a v).seq = d.seq := rfl
@[simp] theorem Device.setRegHeld_boot (a : Nat) (v : Word) : (d.setRegHeld a v).boot = d.boot := rfl
@[simp] theorem Device.setRegHeld_mgmt (a : Nat) (v : Word) : (d.setRegHeld a v).mgmt = d.mgmt := rfl
@[simp] theorem Device.setRegHeld_sent (a : Nat) (v : Word) : (d.setRegHeld a v).sent = d.sent := rfl
@[simp] theorem Device.setRegHeld_freeCtr (a : Nat) (v : Word) : (d.setRegHeld a v).freeCtr = d.freeCtr := rfl

@[simp] theorem Device.setFld_dev (a : Nat) (f : Fld) (n : Nat) : (d.setFld a f n).dev = d.dev := rfl
@[simp] theorem Device.setFld_stroke (a : Nat) (f : Fld) (n : Nat) : (d.setFld a f n).stroke = d.stroke := rfl
@[simp] theorem Device.setFld_gen (a : Nat) (f : Fld) (n : Nat) : (d.setFld a f n).gen = d.gen := rfl
@[simp] theorem Device.setFld_snap (a : Nat) (f : Fld) (n : Nat) : (d.setFld a f n).snap = d.snap := rfl
@[simp] theorem Device.setFld_budget (a : Nat) (f : Fld) (n : Nat) : (d.setFld a f n).budget = d.budget := rfl
@[simp] theorem Device.setFld_profile (a : Nat) (f : Fld) (n : Nat) : (d.setFld a f n).profile = d.profile := rfl
@[simp] theorem Device.setFld_lane (a : Nat) (f : Fld) (n : Nat) : (d.setFld a f n).lane = d.lane := rfl
@[simp] theorem Device.setFld_ports (a : Nat) (f : Fld) (n : Nat) : (d.setFld a f n).ports = d.ports := rfl
@[simp] theorem Device.setFld_fft (a : Nat) (f : Fld) (n : Nat) : (d.setFld a f n).fft = d.fft := rfl
@[simp] theorem Device.setFld_pkt (a : Nat) (f : Fld) (n : Nat) : (d.setFld a f n).pkt = d.pkt := rfl
@[simp] theorem Device.setFld_hall (a : Nat) (f : Fld) (n : Nat) : (d.setFld a f n).hall = d.hall := rfl
@[simp] theorem Device.setFld_table (a : Nat) (f : Fld) (n : Nat) : (d.setFld a f n).table = d.table := rfl
@[simp] theorem Device.setFld_billet (a : Nat) (f : Fld) (n : Nat) : (d.setFld a f n).billet = d.billet := rfl
@[simp] theorem Device.setFld_sched (a : Nat) (f : Fld) (n : Nat) : (d.setFld a f n).sched = d.sched := rfl
@[simp] theorem Device.setFld_drops (a : Nat) (f : Fld) (n : Nat) : (d.setFld a f n).drops = d.drops := rfl
@[simp] theorem Device.setFld_clock (a : Nat) (f : Fld) (n : Nat) : (d.setFld a f n).clock = d.clock := rfl
@[simp] theorem Device.setFld_servo (a : Nat) (f : Fld) (n : Nat) : (d.setFld a f n).servo = d.servo := rfl
@[simp] theorem Device.setFld_pulse (a : Nat) (f : Fld) (n : Nat) : (d.setFld a f n).pulse = d.pulse := rfl
@[simp] theorem Device.setFld_ledger (a : Nat) (f : Fld) (n : Nat) : (d.setFld a f n).ledger = d.ledger := rfl
@[simp] theorem Device.setFld_tsu (a : Nat) (f : Fld) (n : Nat) : (d.setFld a f n).tsu = d.tsu := rfl
@[simp] theorem Device.setFld_damper (a : Nat) (f : Fld) (n : Nat) : (d.setFld a f n).damper = d.damper := rfl
@[simp] theorem Device.setFld_telem (a : Nat) (f : Fld) (n : Nat) : (d.setFld a f n).telem = d.telem := rfl
@[simp] theorem Device.setFld_integ (a : Nat) (f : Fld) (n : Nat) : (d.setFld a f n).integ = d.integ := rfl
@[simp] theorem Device.setFld_host (a : Nat) (f : Fld) (n : Nat) : (d.setFld a f n).host = d.host := rfl
@[simp] theorem Device.setFld_perf (a : Nat) (f : Fld) (n : Nat) : (d.setFld a f n).perf = d.perf := rfl
@[simp] theorem Device.setFld_anvil (a : Nat) (f : Fld) (n : Nat) : (d.setFld a f n).anvil = d.anvil := rfl
@[simp] theorem Device.setFld_ras (a : Nat) (f : Fld) (n : Nat) : (d.setFld a f n).ras = d.ras := rfl
@[simp] theorem Device.setFld_seq (a : Nat) (f : Fld) (n : Nat) : (d.setFld a f n).seq = d.seq := rfl
@[simp] theorem Device.setFld_boot (a : Nat) (f : Fld) (n : Nat) : (d.setFld a f n).boot = d.boot := rfl
@[simp] theorem Device.setFld_mgmt (a : Nat) (f : Fld) (n : Nat) : (d.setFld a f n).mgmt = d.mgmt := rfl
@[simp] theorem Device.setFld_sent (a : Nat) (f : Fld) (n : Nat) : (d.setFld a f n).sent = d.sent := rfl
@[simp] theorem Device.setFld_freeCtr (a : Nat) (f : Fld) (n : Nat) : (d.setFld a f n).freeCtr = d.freeCtr := rfl

@[simp] theorem Device.countN_dev (a n : Nat) : (d.countN a n).dev = d.dev := rfl
@[simp] theorem Device.countN_stroke (a n : Nat) : (d.countN a n).stroke = d.stroke := rfl
@[simp] theorem Device.countN_gen (a n : Nat) : (d.countN a n).gen = d.gen := rfl
@[simp] theorem Device.countN_snap (a n : Nat) : (d.countN a n).snap = d.snap := rfl
@[simp] theorem Device.countN_budget (a n : Nat) : (d.countN a n).budget = d.budget := rfl
@[simp] theorem Device.countN_profile (a n : Nat) : (d.countN a n).profile = d.profile := rfl
@[simp] theorem Device.countN_lane (a n : Nat) : (d.countN a n).lane = d.lane := rfl
@[simp] theorem Device.countN_ports (a n : Nat) : (d.countN a n).ports = d.ports := rfl
@[simp] theorem Device.countN_fft (a n : Nat) : (d.countN a n).fft = d.fft := rfl
@[simp] theorem Device.countN_pkt (a n : Nat) : (d.countN a n).pkt = d.pkt := rfl
@[simp] theorem Device.countN_hall (a n : Nat) : (d.countN a n).hall = d.hall := rfl
@[simp] theorem Device.countN_table (a n : Nat) : (d.countN a n).table = d.table := rfl
@[simp] theorem Device.countN_billet (a n : Nat) : (d.countN a n).billet = d.billet := rfl
@[simp] theorem Device.countN_sched (a n : Nat) : (d.countN a n).sched = d.sched := rfl
@[simp] theorem Device.countN_drops (a n : Nat) : (d.countN a n).drops = d.drops := rfl
@[simp] theorem Device.countN_clock (a n : Nat) : (d.countN a n).clock = d.clock := rfl
@[simp] theorem Device.countN_servo (a n : Nat) : (d.countN a n).servo = d.servo := rfl
@[simp] theorem Device.countN_pulse (a n : Nat) : (d.countN a n).pulse = d.pulse := rfl
@[simp] theorem Device.countN_ledger (a n : Nat) : (d.countN a n).ledger = d.ledger := rfl
@[simp] theorem Device.countN_tsu (a n : Nat) : (d.countN a n).tsu = d.tsu := rfl
@[simp] theorem Device.countN_damper (a n : Nat) : (d.countN a n).damper = d.damper := rfl
@[simp] theorem Device.countN_telem (a n : Nat) : (d.countN a n).telem = d.telem := rfl
@[simp] theorem Device.countN_integ (a n : Nat) : (d.countN a n).integ = d.integ := rfl
@[simp] theorem Device.countN_host (a n : Nat) : (d.countN a n).host = d.host := rfl
@[simp] theorem Device.countN_perf (a n : Nat) : (d.countN a n).perf = d.perf := rfl
@[simp] theorem Device.countN_anvil (a n : Nat) : (d.countN a n).anvil = d.anvil := rfl
@[simp] theorem Device.countN_ras (a n : Nat) : (d.countN a n).ras = d.ras := rfl
@[simp] theorem Device.countN_seq (a n : Nat) : (d.countN a n).seq = d.seq := rfl
@[simp] theorem Device.countN_boot (a n : Nat) : (d.countN a n).boot = d.boot := rfl
@[simp] theorem Device.countN_mgmt (a n : Nat) : (d.countN a n).mgmt = d.mgmt := rfl
@[simp] theorem Device.countN_sent (a n : Nat) : (d.countN a n).sent = d.sent := rfl
@[simp] theorem Device.countN_freeCtr (a n : Nat) : (d.countN a n).freeCtr = d.freeCtr := rfl

@[simp] theorem Device.count_dev (a : Nat) : (d.count a).dev = d.dev := rfl
@[simp] theorem Device.count_stroke (a : Nat) : (d.count a).stroke = d.stroke := rfl
@[simp] theorem Device.count_gen (a : Nat) : (d.count a).gen = d.gen := rfl
@[simp] theorem Device.count_snap (a : Nat) : (d.count a).snap = d.snap := rfl
@[simp] theorem Device.count_budget (a : Nat) : (d.count a).budget = d.budget := rfl
@[simp] theorem Device.count_profile (a : Nat) : (d.count a).profile = d.profile := rfl
@[simp] theorem Device.count_lane (a : Nat) : (d.count a).lane = d.lane := rfl
@[simp] theorem Device.count_ports (a : Nat) : (d.count a).ports = d.ports := rfl
@[simp] theorem Device.count_fft (a : Nat) : (d.count a).fft = d.fft := rfl
@[simp] theorem Device.count_pkt (a : Nat) : (d.count a).pkt = d.pkt := rfl
@[simp] theorem Device.count_hall (a : Nat) : (d.count a).hall = d.hall := rfl
@[simp] theorem Device.count_table (a : Nat) : (d.count a).table = d.table := rfl
@[simp] theorem Device.count_billet (a : Nat) : (d.count a).billet = d.billet := rfl
@[simp] theorem Device.count_sched (a : Nat) : (d.count a).sched = d.sched := rfl
@[simp] theorem Device.count_drops (a : Nat) : (d.count a).drops = d.drops := rfl
@[simp] theorem Device.count_clock (a : Nat) : (d.count a).clock = d.clock := rfl
@[simp] theorem Device.count_servo (a : Nat) : (d.count a).servo = d.servo := rfl
@[simp] theorem Device.count_pulse (a : Nat) : (d.count a).pulse = d.pulse := rfl
@[simp] theorem Device.count_ledger (a : Nat) : (d.count a).ledger = d.ledger := rfl
@[simp] theorem Device.count_tsu (a : Nat) : (d.count a).tsu = d.tsu := rfl
@[simp] theorem Device.count_damper (a : Nat) : (d.count a).damper = d.damper := rfl
@[simp] theorem Device.count_telem (a : Nat) : (d.count a).telem = d.telem := rfl
@[simp] theorem Device.count_integ (a : Nat) : (d.count a).integ = d.integ := rfl
@[simp] theorem Device.count_host (a : Nat) : (d.count a).host = d.host := rfl
@[simp] theorem Device.count_perf (a : Nat) : (d.count a).perf = d.perf := rfl
@[simp] theorem Device.count_anvil (a : Nat) : (d.count a).anvil = d.anvil := rfl
@[simp] theorem Device.count_ras (a : Nat) : (d.count a).ras = d.ras := rfl
@[simp] theorem Device.count_seq (a : Nat) : (d.count a).seq = d.seq := rfl
@[simp] theorem Device.count_boot (a : Nat) : (d.count a).boot = d.boot := rfl
@[simp] theorem Device.count_mgmt (a : Nat) : (d.count a).mgmt = d.mgmt := rfl
@[simp] theorem Device.count_sent (a : Nat) : (d.count a).sent = d.sent := rfl
@[simp] theorem Device.count_freeCtr (a : Nat) : (d.count a).freeCtr = d.freeCtr := rfl

@[simp] theorem Device.countSat_dev (a : Nat) (f : Fld) : (d.countSat a f).dev = d.dev := rfl
@[simp] theorem Device.countSat_stroke (a : Nat) (f : Fld) : (d.countSat a f).stroke = d.stroke := rfl
@[simp] theorem Device.countSat_gen (a : Nat) (f : Fld) : (d.countSat a f).gen = d.gen := rfl
@[simp] theorem Device.countSat_snap (a : Nat) (f : Fld) : (d.countSat a f).snap = d.snap := rfl
@[simp] theorem Device.countSat_budget (a : Nat) (f : Fld) : (d.countSat a f).budget = d.budget := rfl
@[simp] theorem Device.countSat_profile (a : Nat) (f : Fld) : (d.countSat a f).profile = d.profile := rfl
@[simp] theorem Device.countSat_lane (a : Nat) (f : Fld) : (d.countSat a f).lane = d.lane := rfl
@[simp] theorem Device.countSat_ports (a : Nat) (f : Fld) : (d.countSat a f).ports = d.ports := rfl
@[simp] theorem Device.countSat_fft (a : Nat) (f : Fld) : (d.countSat a f).fft = d.fft := rfl
@[simp] theorem Device.countSat_pkt (a : Nat) (f : Fld) : (d.countSat a f).pkt = d.pkt := rfl
@[simp] theorem Device.countSat_hall (a : Nat) (f : Fld) : (d.countSat a f).hall = d.hall := rfl
@[simp] theorem Device.countSat_table (a : Nat) (f : Fld) : (d.countSat a f).table = d.table := rfl
@[simp] theorem Device.countSat_billet (a : Nat) (f : Fld) : (d.countSat a f).billet = d.billet := rfl
@[simp] theorem Device.countSat_sched (a : Nat) (f : Fld) : (d.countSat a f).sched = d.sched := rfl
@[simp] theorem Device.countSat_drops (a : Nat) (f : Fld) : (d.countSat a f).drops = d.drops := rfl
@[simp] theorem Device.countSat_clock (a : Nat) (f : Fld) : (d.countSat a f).clock = d.clock := rfl
@[simp] theorem Device.countSat_servo (a : Nat) (f : Fld) : (d.countSat a f).servo = d.servo := rfl
@[simp] theorem Device.countSat_pulse (a : Nat) (f : Fld) : (d.countSat a f).pulse = d.pulse := rfl
@[simp] theorem Device.countSat_ledger (a : Nat) (f : Fld) : (d.countSat a f).ledger = d.ledger := rfl
@[simp] theorem Device.countSat_tsu (a : Nat) (f : Fld) : (d.countSat a f).tsu = d.tsu := rfl
@[simp] theorem Device.countSat_damper (a : Nat) (f : Fld) : (d.countSat a f).damper = d.damper := rfl
@[simp] theorem Device.countSat_telem (a : Nat) (f : Fld) : (d.countSat a f).telem = d.telem := rfl
@[simp] theorem Device.countSat_integ (a : Nat) (f : Fld) : (d.countSat a f).integ = d.integ := rfl
@[simp] theorem Device.countSat_host (a : Nat) (f : Fld) : (d.countSat a f).host = d.host := rfl
@[simp] theorem Device.countSat_perf (a : Nat) (f : Fld) : (d.countSat a f).perf = d.perf := rfl
@[simp] theorem Device.countSat_anvil (a : Nat) (f : Fld) : (d.countSat a f).anvil = d.anvil := rfl
@[simp] theorem Device.countSat_ras (a : Nat) (f : Fld) : (d.countSat a f).ras = d.ras := rfl
@[simp] theorem Device.countSat_seq (a : Nat) (f : Fld) : (d.countSat a f).seq = d.seq := rfl
@[simp] theorem Device.countSat_boot (a : Nat) (f : Fld) : (d.countSat a f).boot = d.boot := rfl
@[simp] theorem Device.countSat_mgmt (a : Nat) (f : Fld) : (d.countSat a f).mgmt = d.mgmt := rfl
@[simp] theorem Device.countSat_sent (a : Nat) (f : Fld) : (d.countSat a f).sent = d.sent := rfl
@[simp] theorem Device.countSat_freeCtr (a : Nat) (f : Fld) : (d.countSat a f).freeCtr = d.freeCtr := rfl

@[simp] theorem Device.raise_dev (b n : Nat) : (d.raise b n).dev = d.dev := by
  obtain ⟨f, h⟩ := d.raise_file b n
  rw [h]
@[simp] theorem Device.raise_stroke (b n : Nat) : (d.raise b n).stroke = d.stroke := by
  obtain ⟨f, h⟩ := d.raise_file b n
  rw [h]
@[simp] theorem Device.raise_gen (b n : Nat) : (d.raise b n).gen = d.gen := by
  obtain ⟨f, h⟩ := d.raise_file b n
  rw [h]
@[simp] theorem Device.raise_snap (b n : Nat) : (d.raise b n).snap = d.snap := by
  obtain ⟨f, h⟩ := d.raise_file b n
  rw [h]
@[simp] theorem Device.raise_budget (b n : Nat) : (d.raise b n).budget = d.budget := by
  obtain ⟨f, h⟩ := d.raise_file b n
  rw [h]
@[simp] theorem Device.raise_profile (b n : Nat) : (d.raise b n).profile = d.profile := by
  obtain ⟨f, h⟩ := d.raise_file b n
  rw [h]
@[simp] theorem Device.raise_lane (b n : Nat) : (d.raise b n).lane = d.lane := by
  obtain ⟨f, h⟩ := d.raise_file b n
  rw [h]
@[simp] theorem Device.raise_ports (b n : Nat) : (d.raise b n).ports = d.ports := by
  obtain ⟨f, h⟩ := d.raise_file b n
  rw [h]
@[simp] theorem Device.raise_fft (b n : Nat) : (d.raise b n).fft = d.fft := by
  obtain ⟨f, h⟩ := d.raise_file b n
  rw [h]
@[simp] theorem Device.raise_pkt (b n : Nat) : (d.raise b n).pkt = d.pkt := by
  obtain ⟨f, h⟩ := d.raise_file b n
  rw [h]
@[simp] theorem Device.raise_hall (b n : Nat) : (d.raise b n).hall = d.hall := by
  obtain ⟨f, h⟩ := d.raise_file b n
  rw [h]
@[simp] theorem Device.raise_table (b n : Nat) : (d.raise b n).table = d.table := by
  obtain ⟨f, h⟩ := d.raise_file b n
  rw [h]
@[simp] theorem Device.raise_billet (b n : Nat) : (d.raise b n).billet = d.billet := by
  obtain ⟨f, h⟩ := d.raise_file b n
  rw [h]
@[simp] theorem Device.raise_sched (b n : Nat) : (d.raise b n).sched = d.sched := by
  obtain ⟨f, h⟩ := d.raise_file b n
  rw [h]
@[simp] theorem Device.raise_drops (b n : Nat) : (d.raise b n).drops = d.drops := by
  obtain ⟨f, h⟩ := d.raise_file b n
  rw [h]
@[simp] theorem Device.raise_clock (b n : Nat) : (d.raise b n).clock = d.clock := by
  obtain ⟨f, h⟩ := d.raise_file b n
  rw [h]
@[simp] theorem Device.raise_servo (b n : Nat) : (d.raise b n).servo = d.servo := by
  obtain ⟨f, h⟩ := d.raise_file b n
  rw [h]
@[simp] theorem Device.raise_pulse (b n : Nat) : (d.raise b n).pulse = d.pulse := by
  obtain ⟨f, h⟩ := d.raise_file b n
  rw [h]
@[simp] theorem Device.raise_ledger (b n : Nat) : (d.raise b n).ledger = d.ledger := by
  obtain ⟨f, h⟩ := d.raise_file b n
  rw [h]
@[simp] theorem Device.raise_tsu (b n : Nat) : (d.raise b n).tsu = d.tsu := by
  obtain ⟨f, h⟩ := d.raise_file b n
  rw [h]
@[simp] theorem Device.raise_damper (b n : Nat) : (d.raise b n).damper = d.damper := by
  obtain ⟨f, h⟩ := d.raise_file b n
  rw [h]
@[simp] theorem Device.raise_telem (b n : Nat) : (d.raise b n).telem = d.telem := by
  obtain ⟨f, h⟩ := d.raise_file b n
  rw [h]
@[simp] theorem Device.raise_integ (b n : Nat) : (d.raise b n).integ = d.integ := by
  obtain ⟨f, h⟩ := d.raise_file b n
  rw [h]
@[simp] theorem Device.raise_host (b n : Nat) : (d.raise b n).host = d.host := by
  obtain ⟨f, h⟩ := d.raise_file b n
  rw [h]
@[simp] theorem Device.raise_perf (b n : Nat) : (d.raise b n).perf = d.perf := by
  obtain ⟨f, h⟩ := d.raise_file b n
  rw [h]
@[simp] theorem Device.raise_anvil (b n : Nat) : (d.raise b n).anvil = d.anvil := by
  obtain ⟨f, h⟩ := d.raise_file b n
  rw [h]
@[simp] theorem Device.raise_ras (b n : Nat) : (d.raise b n).ras = d.ras := by
  obtain ⟨f, h⟩ := d.raise_file b n
  rw [h]
@[simp] theorem Device.raise_seq (b n : Nat) : (d.raise b n).seq = d.seq := by
  obtain ⟨f, h⟩ := d.raise_file b n
  rw [h]
@[simp] theorem Device.raise_boot (b n : Nat) : (d.raise b n).boot = d.boot := by
  obtain ⟨f, h⟩ := d.raise_file b n
  rw [h]
@[simp] theorem Device.raise_mgmt (b n : Nat) : (d.raise b n).mgmt = d.mgmt := by
  obtain ⟨f, h⟩ := d.raise_file b n
  rw [h]
@[simp] theorem Device.raise_sent (b n : Nat) : (d.raise b n).sent = d.sent := by
  obtain ⟨f, h⟩ := d.raise_file b n
  rw [h]
@[simp] theorem Device.raise_freeCtr (b n : Nat) : (d.raise b n).freeCtr = d.freeCtr := by
  obtain ⟨f, h⟩ := d.raise_file b n
  rw [h]

@[simp] theorem Device.err_dev (b o : Nat) (k : ErrKind) (s : Source) : (d.err b o k s).dev = d.dev := by
  obtain ⟨f, h⟩ := d.err_file b o k s
  rw [h]
@[simp] theorem Device.err_stroke (b o : Nat) (k : ErrKind) (s : Source) : (d.err b o k s).stroke = d.stroke := by
  obtain ⟨f, h⟩ := d.err_file b o k s
  rw [h]
@[simp] theorem Device.err_gen (b o : Nat) (k : ErrKind) (s : Source) : (d.err b o k s).gen = d.gen := by
  obtain ⟨f, h⟩ := d.err_file b o k s
  rw [h]
@[simp] theorem Device.err_snap (b o : Nat) (k : ErrKind) (s : Source) : (d.err b o k s).snap = d.snap := by
  obtain ⟨f, h⟩ := d.err_file b o k s
  rw [h]
@[simp] theorem Device.err_budget (b o : Nat) (k : ErrKind) (s : Source) : (d.err b o k s).budget = d.budget := by
  obtain ⟨f, h⟩ := d.err_file b o k s
  rw [h]
@[simp] theorem Device.err_profile (b o : Nat) (k : ErrKind) (s : Source) : (d.err b o k s).profile = d.profile := by
  obtain ⟨f, h⟩ := d.err_file b o k s
  rw [h]
@[simp] theorem Device.err_lane (b o : Nat) (k : ErrKind) (s : Source) : (d.err b o k s).lane = d.lane := by
  obtain ⟨f, h⟩ := d.err_file b o k s
  rw [h]
@[simp] theorem Device.err_ports (b o : Nat) (k : ErrKind) (s : Source) : (d.err b o k s).ports = d.ports := by
  obtain ⟨f, h⟩ := d.err_file b o k s
  rw [h]
@[simp] theorem Device.err_fft (b o : Nat) (k : ErrKind) (s : Source) : (d.err b o k s).fft = d.fft := by
  obtain ⟨f, h⟩ := d.err_file b o k s
  rw [h]
@[simp] theorem Device.err_pkt (b o : Nat) (k : ErrKind) (s : Source) : (d.err b o k s).pkt = d.pkt := by
  obtain ⟨f, h⟩ := d.err_file b o k s
  rw [h]
@[simp] theorem Device.err_hall (b o : Nat) (k : ErrKind) (s : Source) : (d.err b o k s).hall = d.hall := by
  obtain ⟨f, h⟩ := d.err_file b o k s
  rw [h]
@[simp] theorem Device.err_table (b o : Nat) (k : ErrKind) (s : Source) : (d.err b o k s).table = d.table := by
  obtain ⟨f, h⟩ := d.err_file b o k s
  rw [h]
@[simp] theorem Device.err_billet (b o : Nat) (k : ErrKind) (s : Source) : (d.err b o k s).billet = d.billet := by
  obtain ⟨f, h⟩ := d.err_file b o k s
  rw [h]
@[simp] theorem Device.err_sched (b o : Nat) (k : ErrKind) (s : Source) : (d.err b o k s).sched = d.sched := by
  obtain ⟨f, h⟩ := d.err_file b o k s
  rw [h]
@[simp] theorem Device.err_drops (b o : Nat) (k : ErrKind) (s : Source) : (d.err b o k s).drops = d.drops := by
  obtain ⟨f, h⟩ := d.err_file b o k s
  rw [h]
@[simp] theorem Device.err_clock (b o : Nat) (k : ErrKind) (s : Source) : (d.err b o k s).clock = d.clock := by
  obtain ⟨f, h⟩ := d.err_file b o k s
  rw [h]
@[simp] theorem Device.err_servo (b o : Nat) (k : ErrKind) (s : Source) : (d.err b o k s).servo = d.servo := by
  obtain ⟨f, h⟩ := d.err_file b o k s
  rw [h]
@[simp] theorem Device.err_pulse (b o : Nat) (k : ErrKind) (s : Source) : (d.err b o k s).pulse = d.pulse := by
  obtain ⟨f, h⟩ := d.err_file b o k s
  rw [h]
@[simp] theorem Device.err_ledger (b o : Nat) (k : ErrKind) (s : Source) : (d.err b o k s).ledger = d.ledger := by
  obtain ⟨f, h⟩ := d.err_file b o k s
  rw [h]
@[simp] theorem Device.err_tsu (b o : Nat) (k : ErrKind) (s : Source) : (d.err b o k s).tsu = d.tsu := by
  obtain ⟨f, h⟩ := d.err_file b o k s
  rw [h]
@[simp] theorem Device.err_damper (b o : Nat) (k : ErrKind) (s : Source) : (d.err b o k s).damper = d.damper := by
  obtain ⟨f, h⟩ := d.err_file b o k s
  rw [h]
@[simp] theorem Device.err_telem (b o : Nat) (k : ErrKind) (s : Source) : (d.err b o k s).telem = d.telem := by
  obtain ⟨f, h⟩ := d.err_file b o k s
  rw [h]
@[simp] theorem Device.err_integ (b o : Nat) (k : ErrKind) (s : Source) : (d.err b o k s).integ = d.integ := by
  obtain ⟨f, h⟩ := d.err_file b o k s
  rw [h]
@[simp] theorem Device.err_host (b o : Nat) (k : ErrKind) (s : Source) : (d.err b o k s).host = d.host := by
  obtain ⟨f, h⟩ := d.err_file b o k s
  rw [h]
@[simp] theorem Device.err_perf (b o : Nat) (k : ErrKind) (s : Source) : (d.err b o k s).perf = d.perf := by
  obtain ⟨f, h⟩ := d.err_file b o k s
  rw [h]
@[simp] theorem Device.err_anvil (b o : Nat) (k : ErrKind) (s : Source) : (d.err b o k s).anvil = d.anvil := by
  obtain ⟨f, h⟩ := d.err_file b o k s
  rw [h]
@[simp] theorem Device.err_ras (b o : Nat) (k : ErrKind) (s : Source) : (d.err b o k s).ras = d.ras := by
  obtain ⟨f, h⟩ := d.err_file b o k s
  rw [h]
@[simp] theorem Device.err_seq (b o : Nat) (k : ErrKind) (s : Source) : (d.err b o k s).seq = d.seq := by
  obtain ⟨f, h⟩ := d.err_file b o k s
  rw [h]
@[simp] theorem Device.err_boot (b o : Nat) (k : ErrKind) (s : Source) : (d.err b o k s).boot = d.boot := by
  obtain ⟨f, h⟩ := d.err_file b o k s
  rw [h]
@[simp] theorem Device.err_mgmt (b o : Nat) (k : ErrKind) (s : Source) : (d.err b o k s).mgmt = d.mgmt := by
  obtain ⟨f, h⟩ := d.err_file b o k s
  rw [h]
@[simp] theorem Device.err_sent (b o : Nat) (k : ErrKind) (s : Source) : (d.err b o k s).sent = d.sent := by
  obtain ⟨f, h⟩ := d.err_file b o k s
  rw [h]
@[simp] theorem Device.err_freeCtr (b o : Nat) (k : ErrKind) (s : Source) : (d.err b o k s).freeCtr = d.freeCtr := by
  obtain ⟨f, h⟩ := d.err_file b o k s
  rw [h]

@[simp] theorem Device.refuse_dev (s : Source) (a : Nat) : (d.refuse s a).dev = d.dev := d.err_dev _ _ _ _
@[simp] theorem Device.refuse_stroke (s : Source) (a : Nat) : (d.refuse s a).stroke = d.stroke := d.err_stroke _ _ _ _
@[simp] theorem Device.refuse_gen (s : Source) (a : Nat) : (d.refuse s a).gen = d.gen := d.err_gen _ _ _ _
@[simp] theorem Device.refuse_snap (s : Source) (a : Nat) : (d.refuse s a).snap = d.snap := d.err_snap _ _ _ _
@[simp] theorem Device.refuse_budget (s : Source) (a : Nat) : (d.refuse s a).budget = d.budget := d.err_budget _ _ _ _
@[simp] theorem Device.refuse_profile (s : Source) (a : Nat) : (d.refuse s a).profile = d.profile := d.err_profile _ _ _ _
@[simp] theorem Device.refuse_lane (s : Source) (a : Nat) : (d.refuse s a).lane = d.lane := d.err_lane _ _ _ _
@[simp] theorem Device.refuse_ports (s : Source) (a : Nat) : (d.refuse s a).ports = d.ports := d.err_ports _ _ _ _
@[simp] theorem Device.refuse_fft (s : Source) (a : Nat) : (d.refuse s a).fft = d.fft := d.err_fft _ _ _ _
@[simp] theorem Device.refuse_pkt (s : Source) (a : Nat) : (d.refuse s a).pkt = d.pkt := d.err_pkt _ _ _ _
@[simp] theorem Device.refuse_hall (s : Source) (a : Nat) : (d.refuse s a).hall = d.hall := d.err_hall _ _ _ _
@[simp] theorem Device.refuse_table (s : Source) (a : Nat) : (d.refuse s a).table = d.table := d.err_table _ _ _ _
@[simp] theorem Device.refuse_billet (s : Source) (a : Nat) : (d.refuse s a).billet = d.billet := d.err_billet _ _ _ _
@[simp] theorem Device.refuse_sched (s : Source) (a : Nat) : (d.refuse s a).sched = d.sched := d.err_sched _ _ _ _
@[simp] theorem Device.refuse_drops (s : Source) (a : Nat) : (d.refuse s a).drops = d.drops := d.err_drops _ _ _ _
@[simp] theorem Device.refuse_clock (s : Source) (a : Nat) : (d.refuse s a).clock = d.clock := d.err_clock _ _ _ _
@[simp] theorem Device.refuse_servo (s : Source) (a : Nat) : (d.refuse s a).servo = d.servo := d.err_servo _ _ _ _
@[simp] theorem Device.refuse_pulse (s : Source) (a : Nat) : (d.refuse s a).pulse = d.pulse := d.err_pulse _ _ _ _
@[simp] theorem Device.refuse_ledger (s : Source) (a : Nat) : (d.refuse s a).ledger = d.ledger := d.err_ledger _ _ _ _
@[simp] theorem Device.refuse_tsu (s : Source) (a : Nat) : (d.refuse s a).tsu = d.tsu := d.err_tsu _ _ _ _
@[simp] theorem Device.refuse_damper (s : Source) (a : Nat) : (d.refuse s a).damper = d.damper := d.err_damper _ _ _ _
@[simp] theorem Device.refuse_telem (s : Source) (a : Nat) : (d.refuse s a).telem = d.telem := d.err_telem _ _ _ _
@[simp] theorem Device.refuse_integ (s : Source) (a : Nat) : (d.refuse s a).integ = d.integ := d.err_integ _ _ _ _
@[simp] theorem Device.refuse_host (s : Source) (a : Nat) : (d.refuse s a).host = d.host := d.err_host _ _ _ _
@[simp] theorem Device.refuse_perf (s : Source) (a : Nat) : (d.refuse s a).perf = d.perf := d.err_perf _ _ _ _
@[simp] theorem Device.refuse_anvil (s : Source) (a : Nat) : (d.refuse s a).anvil = d.anvil := d.err_anvil _ _ _ _
@[simp] theorem Device.refuse_ras (s : Source) (a : Nat) : (d.refuse s a).ras = d.ras := d.err_ras _ _ _ _
@[simp] theorem Device.refuse_seq (s : Source) (a : Nat) : (d.refuse s a).seq = d.seq := d.err_seq _ _ _ _
@[simp] theorem Device.refuse_boot (s : Source) (a : Nat) : (d.refuse s a).boot = d.boot := d.err_boot _ _ _ _
@[simp] theorem Device.refuse_mgmt (s : Source) (a : Nat) : (d.refuse s a).mgmt = d.mgmt := d.err_mgmt _ _ _ _
@[simp] theorem Device.refuse_sent (s : Source) (a : Nat) : (d.refuse s a).sent = d.sent := d.err_sent _ _ _ _
@[simp] theorem Device.refuse_freeCtr (s : Source) (a : Nat) : (d.refuse s a).freeCtr = d.freeCtr := d.err_freeCtr _ _ _ _

@[simp] theorem Device.send_dev (o : Output) : (d.send o).dev = d.dev := rfl
@[simp] theorem Device.send_stroke (o : Output) : (d.send o).stroke = d.stroke := rfl
@[simp] theorem Device.send_file (o : Output) : (d.send o).file = d.file := rfl
@[simp] theorem Device.send_gen (o : Output) : (d.send o).gen = d.gen := rfl
@[simp] theorem Device.send_snap (o : Output) : (d.send o).snap = d.snap := rfl
@[simp] theorem Device.send_budget (o : Output) : (d.send o).budget = d.budget := rfl
@[simp] theorem Device.send_profile (o : Output) : (d.send o).profile = d.profile := rfl
@[simp] theorem Device.send_lane (o : Output) : (d.send o).lane = d.lane := rfl
@[simp] theorem Device.send_ports (o : Output) : (d.send o).ports = d.ports := rfl
@[simp] theorem Device.send_fft (o : Output) : (d.send o).fft = d.fft := rfl
@[simp] theorem Device.send_pkt (o : Output) : (d.send o).pkt = d.pkt := rfl
@[simp] theorem Device.send_hall (o : Output) : (d.send o).hall = d.hall := rfl
@[simp] theorem Device.send_table (o : Output) : (d.send o).table = d.table := rfl
@[simp] theorem Device.send_billet (o : Output) : (d.send o).billet = d.billet := rfl
@[simp] theorem Device.send_sched (o : Output) : (d.send o).sched = d.sched := rfl
@[simp] theorem Device.send_drops (o : Output) : (d.send o).drops = d.drops := rfl
@[simp] theorem Device.send_clock (o : Output) : (d.send o).clock = d.clock := rfl
@[simp] theorem Device.send_servo (o : Output) : (d.send o).servo = d.servo := rfl
@[simp] theorem Device.send_pulse (o : Output) : (d.send o).pulse = d.pulse := rfl
@[simp] theorem Device.send_ledger (o : Output) : (d.send o).ledger = d.ledger := rfl
@[simp] theorem Device.send_tsu (o : Output) : (d.send o).tsu = d.tsu := rfl
@[simp] theorem Device.send_damper (o : Output) : (d.send o).damper = d.damper := rfl
@[simp] theorem Device.send_telem (o : Output) : (d.send o).telem = d.telem := rfl
@[simp] theorem Device.send_integ (o : Output) : (d.send o).integ = d.integ := rfl
@[simp] theorem Device.send_host (o : Output) : (d.send o).host = d.host := rfl
@[simp] theorem Device.send_perf (o : Output) : (d.send o).perf = d.perf := rfl
@[simp] theorem Device.send_anvil (o : Output) : (d.send o).anvil = d.anvil := rfl
@[simp] theorem Device.send_ras (o : Output) : (d.send o).ras = d.ras := rfl
@[simp] theorem Device.send_seq (o : Output) : (d.send o).seq = d.seq := rfl
@[simp] theorem Device.send_boot (o : Output) : (d.send o).boot = d.boot := rfl
@[simp] theorem Device.send_mgmt (o : Output) : (d.send o).mgmt = d.mgmt := rfl
@[simp] theorem Device.send_freeCtr (o : Output) : (d.send o).freeCtr = d.freeCtr := rfl

@[simp] theorem Device.readData_dev (s : Source) (v : Nat) : (d.readData s v).dev = d.dev := by
  cases s <;> rfl
@[simp] theorem Device.readData_stroke (s : Source) (v : Nat) : (d.readData s v).stroke = d.stroke := by
  cases s <;> rfl
@[simp] theorem Device.readData_gen (s : Source) (v : Nat) : (d.readData s v).gen = d.gen := by
  cases s <;> rfl
@[simp] theorem Device.readData_snap (s : Source) (v : Nat) : (d.readData s v).snap = d.snap := by
  cases s <;> rfl
@[simp] theorem Device.readData_budget (s : Source) (v : Nat) : (d.readData s v).budget = d.budget := by
  cases s <;> rfl
@[simp] theorem Device.readData_profile (s : Source) (v : Nat) : (d.readData s v).profile = d.profile := by
  cases s <;> rfl
@[simp] theorem Device.readData_lane (s : Source) (v : Nat) : (d.readData s v).lane = d.lane := by
  cases s <;> rfl
@[simp] theorem Device.readData_ports (s : Source) (v : Nat) : (d.readData s v).ports = d.ports := by
  cases s <;> rfl
@[simp] theorem Device.readData_fft (s : Source) (v : Nat) : (d.readData s v).fft = d.fft := by
  cases s <;> rfl
@[simp] theorem Device.readData_pkt (s : Source) (v : Nat) : (d.readData s v).pkt = d.pkt := by
  cases s <;> rfl
@[simp] theorem Device.readData_hall (s : Source) (v : Nat) : (d.readData s v).hall = d.hall := by
  cases s <;> rfl
@[simp] theorem Device.readData_table (s : Source) (v : Nat) : (d.readData s v).table = d.table := by
  cases s <;> rfl
@[simp] theorem Device.readData_billet (s : Source) (v : Nat) : (d.readData s v).billet = d.billet := by
  cases s <;> rfl
@[simp] theorem Device.readData_sched (s : Source) (v : Nat) : (d.readData s v).sched = d.sched := by
  cases s <;> rfl
@[simp] theorem Device.readData_drops (s : Source) (v : Nat) : (d.readData s v).drops = d.drops := by
  cases s <;> rfl
@[simp] theorem Device.readData_clock (s : Source) (v : Nat) : (d.readData s v).clock = d.clock := by
  cases s <;> rfl
@[simp] theorem Device.readData_servo (s : Source) (v : Nat) : (d.readData s v).servo = d.servo := by
  cases s <;> rfl
@[simp] theorem Device.readData_pulse (s : Source) (v : Nat) : (d.readData s v).pulse = d.pulse := by
  cases s <;> rfl
@[simp] theorem Device.readData_ledger (s : Source) (v : Nat) : (d.readData s v).ledger = d.ledger := by
  cases s <;> rfl
@[simp] theorem Device.readData_tsu (s : Source) (v : Nat) : (d.readData s v).tsu = d.tsu := by
  cases s <;> rfl
@[simp] theorem Device.readData_damper (s : Source) (v : Nat) : (d.readData s v).damper = d.damper := by
  cases s <;> rfl
@[simp] theorem Device.readData_telem (s : Source) (v : Nat) : (d.readData s v).telem = d.telem := by
  cases s <;> rfl
@[simp] theorem Device.readData_integ (s : Source) (v : Nat) : (d.readData s v).integ = d.integ := by
  cases s <;> rfl
@[simp] theorem Device.readData_host (s : Source) (v : Nat) : (d.readData s v).host = d.host := by
  cases s <;> rfl
@[simp] theorem Device.readData_perf (s : Source) (v : Nat) : (d.readData s v).perf = d.perf := by
  cases s <;> rfl
@[simp] theorem Device.readData_anvil (s : Source) (v : Nat) : (d.readData s v).anvil = d.anvil := by
  cases s <;> rfl
@[simp] theorem Device.readData_ras (s : Source) (v : Nat) : (d.readData s v).ras = d.ras := by
  cases s <;> rfl
@[simp] theorem Device.readData_seq (s : Source) (v : Nat) : (d.readData s v).seq = d.seq := by
  cases s <;> rfl
@[simp] theorem Device.readData_boot (s : Source) (v : Nat) : (d.readData s v).boot = d.boot := by
  cases s <;> rfl
@[simp] theorem Device.readData_mgmt (s : Source) (v : Nat) : (d.readData s v).mgmt = d.mgmt := by
  cases s <;> rfl
@[simp] theorem Device.readData_sent (s : Source) (v : Nat) : (d.readData s v).sent = d.sent := by
  cases s <;> rfl
@[simp] theorem Device.readData_freeCtr (s : Source) (v : Nat) : (d.readData s v).freeCtr = d.freeCtr := by
  cases s <;> rfl

@[simp] theorem Device.spend_dev (a i n t : Nat) : (d.spend a i n t).dev = d.dev := rfl
@[simp] theorem Device.spend_stroke (a i n t : Nat) : (d.spend a i n t).stroke = d.stroke := rfl
@[simp] theorem Device.spend_file (a i n t : Nat) : (d.spend a i n t).file = d.file := rfl
@[simp] theorem Device.spend_gen (a i n t : Nat) : (d.spend a i n t).gen = d.gen := rfl
@[simp] theorem Device.spend_snap (a i n t : Nat) : (d.spend a i n t).snap = d.snap := rfl
@[simp] theorem Device.spend_profile (a i n t : Nat) : (d.spend a i n t).profile = d.profile := rfl
@[simp] theorem Device.spend_lane (a i n t : Nat) : (d.spend a i n t).lane = d.lane := rfl
@[simp] theorem Device.spend_ports (a i n t : Nat) : (d.spend a i n t).ports = d.ports := rfl
@[simp] theorem Device.spend_fft (a i n t : Nat) : (d.spend a i n t).fft = d.fft := rfl
@[simp] theorem Device.spend_pkt (a i n t : Nat) : (d.spend a i n t).pkt = d.pkt := rfl
@[simp] theorem Device.spend_hall (a i n t : Nat) : (d.spend a i n t).hall = d.hall := rfl
@[simp] theorem Device.spend_table (a i n t : Nat) : (d.spend a i n t).table = d.table := rfl
@[simp] theorem Device.spend_billet (a i n t : Nat) : (d.spend a i n t).billet = d.billet := rfl
@[simp] theorem Device.spend_sched (a i n t : Nat) : (d.spend a i n t).sched = d.sched := rfl
@[simp] theorem Device.spend_drops (a i n t : Nat) : (d.spend a i n t).drops = d.drops := rfl
@[simp] theorem Device.spend_clock (a i n t : Nat) : (d.spend a i n t).clock = d.clock := rfl
@[simp] theorem Device.spend_servo (a i n t : Nat) : (d.spend a i n t).servo = d.servo := rfl
@[simp] theorem Device.spend_pulse (a i n t : Nat) : (d.spend a i n t).pulse = d.pulse := rfl
@[simp] theorem Device.spend_ledger (a i n t : Nat) : (d.spend a i n t).ledger = d.ledger := rfl
@[simp] theorem Device.spend_tsu (a i n t : Nat) : (d.spend a i n t).tsu = d.tsu := rfl
@[simp] theorem Device.spend_damper (a i n t : Nat) : (d.spend a i n t).damper = d.damper := rfl
@[simp] theorem Device.spend_telem (a i n t : Nat) : (d.spend a i n t).telem = d.telem := rfl
@[simp] theorem Device.spend_integ (a i n t : Nat) : (d.spend a i n t).integ = d.integ := rfl
@[simp] theorem Device.spend_host (a i n t : Nat) : (d.spend a i n t).host = d.host := rfl
@[simp] theorem Device.spend_perf (a i n t : Nat) : (d.spend a i n t).perf = d.perf := rfl
@[simp] theorem Device.spend_anvil (a i n t : Nat) : (d.spend a i n t).anvil = d.anvil := rfl
@[simp] theorem Device.spend_ras (a i n t : Nat) : (d.spend a i n t).ras = d.ras := rfl
@[simp] theorem Device.spend_seq (a i n t : Nat) : (d.spend a i n t).seq = d.seq := rfl
@[simp] theorem Device.spend_boot (a i n t : Nat) : (d.spend a i n t).boot = d.boot := rfl
@[simp] theorem Device.spend_mgmt (a i n t : Nat) : (d.spend a i n t).mgmt = d.mgmt := rfl
@[simp] theorem Device.spend_sent (a i n t : Nat) : (d.spend a i n t).sent = d.sent := rfl
@[simp] theorem Device.spend_freeCtr (a i n t : Nat) : (d.spend a i n t).freeCtr = d.freeCtr := rfl

@[simp] theorem Device.atCyc_dev (c : Nat) : (d.atCyc c).dev = d.dev := rfl
@[simp] theorem Device.atCyc_file (c : Nat) : (d.atCyc c).file = d.file := rfl
@[simp] theorem Device.atCyc_gen (c : Nat) : (d.atCyc c).gen = d.gen := rfl
@[simp] theorem Device.atCyc_snap (c : Nat) : (d.atCyc c).snap = d.snap := rfl
@[simp] theorem Device.atCyc_budget (c : Nat) : (d.atCyc c).budget = d.budget := rfl
@[simp] theorem Device.atCyc_profile (c : Nat) : (d.atCyc c).profile = d.profile := rfl
@[simp] theorem Device.atCyc_lane (c : Nat) : (d.atCyc c).lane = d.lane := rfl
@[simp] theorem Device.atCyc_ports (c : Nat) : (d.atCyc c).ports = d.ports := rfl
@[simp] theorem Device.atCyc_fft (c : Nat) : (d.atCyc c).fft = d.fft := rfl
@[simp] theorem Device.atCyc_pkt (c : Nat) : (d.atCyc c).pkt = d.pkt := rfl
@[simp] theorem Device.atCyc_hall (c : Nat) : (d.atCyc c).hall = d.hall := rfl
@[simp] theorem Device.atCyc_table (c : Nat) : (d.atCyc c).table = d.table := rfl
@[simp] theorem Device.atCyc_billet (c : Nat) : (d.atCyc c).billet = d.billet := rfl
@[simp] theorem Device.atCyc_sched (c : Nat) : (d.atCyc c).sched = d.sched := rfl
@[simp] theorem Device.atCyc_drops (c : Nat) : (d.atCyc c).drops = d.drops := rfl
@[simp] theorem Device.atCyc_clock (c : Nat) : (d.atCyc c).clock = d.clock := rfl
@[simp] theorem Device.atCyc_servo (c : Nat) : (d.atCyc c).servo = d.servo := rfl
@[simp] theorem Device.atCyc_pulse (c : Nat) : (d.atCyc c).pulse = d.pulse := rfl
@[simp] theorem Device.atCyc_ledger (c : Nat) : (d.atCyc c).ledger = d.ledger := rfl
@[simp] theorem Device.atCyc_tsu (c : Nat) : (d.atCyc c).tsu = d.tsu := rfl
@[simp] theorem Device.atCyc_damper (c : Nat) : (d.atCyc c).damper = d.damper := rfl
@[simp] theorem Device.atCyc_telem (c : Nat) : (d.atCyc c).telem = d.telem := rfl
@[simp] theorem Device.atCyc_integ (c : Nat) : (d.atCyc c).integ = d.integ := rfl
@[simp] theorem Device.atCyc_host (c : Nat) : (d.atCyc c).host = d.host := rfl
@[simp] theorem Device.atCyc_perf (c : Nat) : (d.atCyc c).perf = d.perf := rfl
@[simp] theorem Device.atCyc_anvil (c : Nat) : (d.atCyc c).anvil = d.anvil := rfl
@[simp] theorem Device.atCyc_ras (c : Nat) : (d.atCyc c).ras = d.ras := rfl
@[simp] theorem Device.atCyc_seq (c : Nat) : (d.atCyc c).seq = d.seq := rfl
@[simp] theorem Device.atCyc_boot (c : Nat) : (d.atCyc c).boot = d.boot := rfl
@[simp] theorem Device.atCyc_mgmt (c : Nat) : (d.atCyc c).mgmt = d.mgmt := rfl
@[simp] theorem Device.atCyc_sent (c : Nat) : (d.atCyc c).sent = d.sent := rfl
@[simp] theorem Device.atCyc_freeCtr (c : Nat) : (d.atCyc c).freeCtr = d.freeCtr := rfl

@[simp] theorem Device.setPort_dev (p : Nat) (v : PortSt) : (d.setPort p v).dev = d.dev := rfl
@[simp] theorem Device.setPort_stroke (p : Nat) (v : PortSt) : (d.setPort p v).stroke = d.stroke := rfl
@[simp] theorem Device.setPort_file (p : Nat) (v : PortSt) : (d.setPort p v).file = d.file := rfl
@[simp] theorem Device.setPort_gen (p : Nat) (v : PortSt) : (d.setPort p v).gen = d.gen := rfl
@[simp] theorem Device.setPort_snap (p : Nat) (v : PortSt) : (d.setPort p v).snap = d.snap := rfl
@[simp] theorem Device.setPort_budget (p : Nat) (v : PortSt) : (d.setPort p v).budget = d.budget := rfl
@[simp] theorem Device.setPort_profile (p : Nat) (v : PortSt) : (d.setPort p v).profile = d.profile := rfl
@[simp] theorem Device.setPort_lane (p : Nat) (v : PortSt) : (d.setPort p v).lane = d.lane := rfl
@[simp] theorem Device.setPort_fft (p : Nat) (v : PortSt) : (d.setPort p v).fft = d.fft := rfl
@[simp] theorem Device.setPort_pkt (p : Nat) (v : PortSt) : (d.setPort p v).pkt = d.pkt := rfl
@[simp] theorem Device.setPort_hall (p : Nat) (v : PortSt) : (d.setPort p v).hall = d.hall := rfl
@[simp] theorem Device.setPort_table (p : Nat) (v : PortSt) : (d.setPort p v).table = d.table := rfl
@[simp] theorem Device.setPort_billet (p : Nat) (v : PortSt) : (d.setPort p v).billet = d.billet := rfl
@[simp] theorem Device.setPort_sched (p : Nat) (v : PortSt) : (d.setPort p v).sched = d.sched := rfl
@[simp] theorem Device.setPort_drops (p : Nat) (v : PortSt) : (d.setPort p v).drops = d.drops := rfl
@[simp] theorem Device.setPort_clock (p : Nat) (v : PortSt) : (d.setPort p v).clock = d.clock := rfl
@[simp] theorem Device.setPort_servo (p : Nat) (v : PortSt) : (d.setPort p v).servo = d.servo := rfl
@[simp] theorem Device.setPort_pulse (p : Nat) (v : PortSt) : (d.setPort p v).pulse = d.pulse := rfl
@[simp] theorem Device.setPort_ledger (p : Nat) (v : PortSt) : (d.setPort p v).ledger = d.ledger := rfl
@[simp] theorem Device.setPort_tsu (p : Nat) (v : PortSt) : (d.setPort p v).tsu = d.tsu := rfl
@[simp] theorem Device.setPort_damper (p : Nat) (v : PortSt) : (d.setPort p v).damper = d.damper := rfl
@[simp] theorem Device.setPort_telem (p : Nat) (v : PortSt) : (d.setPort p v).telem = d.telem := rfl
@[simp] theorem Device.setPort_integ (p : Nat) (v : PortSt) : (d.setPort p v).integ = d.integ := rfl
@[simp] theorem Device.setPort_host (p : Nat) (v : PortSt) : (d.setPort p v).host = d.host := rfl
@[simp] theorem Device.setPort_perf (p : Nat) (v : PortSt) : (d.setPort p v).perf = d.perf := rfl
@[simp] theorem Device.setPort_anvil (p : Nat) (v : PortSt) : (d.setPort p v).anvil = d.anvil := rfl
@[simp] theorem Device.setPort_ras (p : Nat) (v : PortSt) : (d.setPort p v).ras = d.ras := rfl
@[simp] theorem Device.setPort_seq (p : Nat) (v : PortSt) : (d.setPort p v).seq = d.seq := rfl
@[simp] theorem Device.setPort_boot (p : Nat) (v : PortSt) : (d.setPort p v).boot = d.boot := rfl
@[simp] theorem Device.setPort_mgmt (p : Nat) (v : PortSt) : (d.setPort p v).mgmt = d.mgmt := rfl
@[simp] theorem Device.setPort_sent (p : Nat) (v : PortSt) : (d.setPort p v).sent = d.sent := rfl
@[simp] theorem Device.setPort_freeCtr (p : Nat) (v : PortSt) : (d.setPort p v).freeCtr = d.freeCtr := rfl

@[simp] theorem Device.modPort_dev (p : Nat) (f : PortSt → PortSt) : (d.modPort p f).dev = d.dev := rfl
@[simp] theorem Device.modPort_stroke (p : Nat) (f : PortSt → PortSt) : (d.modPort p f).stroke = d.stroke := rfl
@[simp] theorem Device.modPort_file (p : Nat) (f : PortSt → PortSt) : (d.modPort p f).file = d.file := rfl
@[simp] theorem Device.modPort_gen (p : Nat) (f : PortSt → PortSt) : (d.modPort p f).gen = d.gen := rfl
@[simp] theorem Device.modPort_snap (p : Nat) (f : PortSt → PortSt) : (d.modPort p f).snap = d.snap := rfl
@[simp] theorem Device.modPort_budget (p : Nat) (f : PortSt → PortSt) : (d.modPort p f).budget = d.budget := rfl
@[simp] theorem Device.modPort_profile (p : Nat) (f : PortSt → PortSt) : (d.modPort p f).profile = d.profile := rfl
@[simp] theorem Device.modPort_lane (p : Nat) (f : PortSt → PortSt) : (d.modPort p f).lane = d.lane := rfl
@[simp] theorem Device.modPort_fft (p : Nat) (f : PortSt → PortSt) : (d.modPort p f).fft = d.fft := rfl
@[simp] theorem Device.modPort_pkt (p : Nat) (f : PortSt → PortSt) : (d.modPort p f).pkt = d.pkt := rfl
@[simp] theorem Device.modPort_hall (p : Nat) (f : PortSt → PortSt) : (d.modPort p f).hall = d.hall := rfl
@[simp] theorem Device.modPort_table (p : Nat) (f : PortSt → PortSt) : (d.modPort p f).table = d.table := rfl
@[simp] theorem Device.modPort_billet (p : Nat) (f : PortSt → PortSt) : (d.modPort p f).billet = d.billet := rfl
@[simp] theorem Device.modPort_sched (p : Nat) (f : PortSt → PortSt) : (d.modPort p f).sched = d.sched := rfl
@[simp] theorem Device.modPort_drops (p : Nat) (f : PortSt → PortSt) : (d.modPort p f).drops = d.drops := rfl
@[simp] theorem Device.modPort_clock (p : Nat) (f : PortSt → PortSt) : (d.modPort p f).clock = d.clock := rfl
@[simp] theorem Device.modPort_servo (p : Nat) (f : PortSt → PortSt) : (d.modPort p f).servo = d.servo := rfl
@[simp] theorem Device.modPort_pulse (p : Nat) (f : PortSt → PortSt) : (d.modPort p f).pulse = d.pulse := rfl
@[simp] theorem Device.modPort_ledger (p : Nat) (f : PortSt → PortSt) : (d.modPort p f).ledger = d.ledger := rfl
@[simp] theorem Device.modPort_tsu (p : Nat) (f : PortSt → PortSt) : (d.modPort p f).tsu = d.tsu := rfl
@[simp] theorem Device.modPort_damper (p : Nat) (f : PortSt → PortSt) : (d.modPort p f).damper = d.damper := rfl
@[simp] theorem Device.modPort_telem (p : Nat) (f : PortSt → PortSt) : (d.modPort p f).telem = d.telem := rfl
@[simp] theorem Device.modPort_integ (p : Nat) (f : PortSt → PortSt) : (d.modPort p f).integ = d.integ := rfl
@[simp] theorem Device.modPort_host (p : Nat) (f : PortSt → PortSt) : (d.modPort p f).host = d.host := rfl
@[simp] theorem Device.modPort_perf (p : Nat) (f : PortSt → PortSt) : (d.modPort p f).perf = d.perf := rfl
@[simp] theorem Device.modPort_anvil (p : Nat) (f : PortSt → PortSt) : (d.modPort p f).anvil = d.anvil := rfl
@[simp] theorem Device.modPort_ras (p : Nat) (f : PortSt → PortSt) : (d.modPort p f).ras = d.ras := rfl
@[simp] theorem Device.modPort_seq (p : Nat) (f : PortSt → PortSt) : (d.modPort p f).seq = d.seq := rfl
@[simp] theorem Device.modPort_boot (p : Nat) (f : PortSt → PortSt) : (d.modPort p f).boot = d.boot := rfl
@[simp] theorem Device.modPort_mgmt (p : Nat) (f : PortSt → PortSt) : (d.modPort p f).mgmt = d.mgmt := rfl
@[simp] theorem Device.modPort_sent (p : Nat) (f : PortSt → PortSt) : (d.modPort p f).sent = d.sent := rfl
@[simp] theorem Device.modPort_freeCtr (p : Nat) (f : PortSt → PortSt) : (d.modPort p f).freeCtr = d.freeCtr := rfl

@[simp] theorem Device.countN_regs (a n : Nat) : (d.countN a n).file.regs = d.file.regs := rfl
@[simp] theorem Device.countN_held (a n : Nat) : (d.countN a n).file.held = d.file.held := rfl
@[simp] theorem Device.countN_locked (a n : Nat) : (d.countN a n).file.locked = d.file.locked := rfl
@[simp] theorem Device.countN_reg (a n b : Nat) : (d.countN a n).reg b = d.reg b := rfl
@[simp] theorem Device.countN_cfg (a n b : Nat) : (d.countN a n).cfg b = d.cfg b := rfl

/-- What every step of a loop leaves, the loop leaves. -/
theorem foldl_frame {β γ : Type} (g : Device → γ) {f : Device → β → Device} (h : ∀ d x, g (f d x) = g d) (l : List β)
    (d : Device) : g (l.foldl f d) = g d := by
  induction l generalizing d with
  | nil => rfl
  | cons x t ih => rw [List.foldl_cons, ih, h]

/-- How every step of a loop stands to what it began with, the loop does. -/
theorem foldl_rel {β : Type} {R : Device → Device → Prop} (hr : ∀ d, R d d) (ht : ∀ a b c, R a b → R b c → R a c)
    {f : Device → β → Device} (h : ∀ d x, R d (f d x)) (l : List β) (d : Device) : R d (l.foldl f d) := by
  induction l generalizing d with
  | nil => exact hr d
  | cons x t ih => exact ht _ _ _ (h d x) (ih (f d x))

variable {d}

/-- A register reads what was stored (R7), in a register file in canonical form. -/
theorem Device.reg_setReg_same (hw : tabWf regReset d.file.regs = true) (a : Nat) (v : Word) : (d.setReg a v).reg a = v :=
  tabGet_tabSet_same a v hw

/-- Every other register reads as before. -/
theorem Device.reg_setReg_other (hw : tabWf regReset d.file.regs = true) {a b : Nat} (v : Word) (hne : b ≠ a) :
    (d.setReg a v).reg b = d.reg b := tabGet_tabSet_other v hne hw

/-- A store keeps the register file in canonical form. -/
theorem Device.setReg_wf (hw : tabWf regReset d.file.regs = true) (a : Nat) (v : Word) :
    tabWf regReset (d.setReg a v).file.regs = true := tabSet_wf a v hw

/-- A value other than the reset value reads back whatever the file. -/
theorem Device.reg_setReg_ne {a : Nat} {v : Word} (hv : v ≠ regReset a) : (d.setReg a v).reg a = v :=
  tabGet_tabSet_ne d.file.regs hv

/-- Raising an event leaves its bit of IRQ_STAT set and the rest of that register as it was (R354). -/
theorem Device.raise_reg (d : Device) (b n : Nat) : (d.raise b n).file.regs =
    (d.setReg (b + 0x10) (d.reg (b + 0x10) ||| BitVec.ofNat 32 (2 ^ n))).file.regs := by
  unfold Device.raise
  simp only []
  split <;> rfl

@[simp] theorem Device.raise_cnt (d : Device) (b n : Nat) : (d.raise b n).file.cnt = d.file.cnt := by
  unfold Device.raise
  simp only []
  split <;> rfl

@[simp] theorem Device.raise_held (d : Device) (b n : Nat) : (d.raise b n).file.held = d.file.held := by
  unfold Device.raise
  simp only []
  split <;> rfl

@[simp] theorem Device.raise_locked (d : Device) (b n : Nat) : (d.raise b n).file.locked = d.file.locked := by
  unfold Device.raise
  simp only []
  split <;> rfl

/-- A port reads what was stored, in a table in canonical form. -/
theorem Device.port_setPort_same (hw : tabWf (fun _ => ({} : PortSt)) d.ports = true) (p : Nat) (v : PortSt) :
    (d.setPort p v).port p = v := tabGet_tabSet_same p v hw

theorem Device.port_setPort_other (hw : tabWf (fun _ => ({} : PortSt)) d.ports = true) {p q : Nat} (v : PortSt) (hne : q ≠ p) :
    (d.setPort p v).port q = d.port q := tabGet_tabSet_other v hne hw

/-- A waiting sequencer that looks at its condition changes nothing, or remembers that it held in time (R42, R320). -/
theorem Device.seqLook_cases (s : Nat) : d.seqLook s = d ∨
    ((d.seqSt s).st = .waiting ∧ (d.seqSt s).held = false ∧ (d.seqSt s).late d.strokeNo = false ∧ d.seqHolds s = true ∧
      d.seqLook s = d.modSeq s fun q => { q with held := true }) := by
  unfold Device.seqLook
  simp only []
  split
  · rename_i h
    simp only [Bool.not_eq_true'] at h
    exact .inr ⟨h.1, h.2.1, h.2.2.1, h.2.2.2, rfl⟩
  · exact .inl rfl

/-- A message for a chunk is taken at once, or the chunk's matured timeout is made before it (R42, R309). -/
theorem Device.timeoutFirst_cases (a g seq uid : Nat) :
    d.timeoutFirst a g seq uid = (d, false) ∨
    ∃ c, (d.redGroup g).chunk seq = some c ∧ d.chunkDue g c = true ∧
      ((c.st = .gathering ∧ (d.timeoutFirst a g seq uid).1 = d.nackNow g c) ∨
       (c.st = .awaitParent ∧ (d.timeoutFirst a g seq uid).1 = d.upNow g c) ∨
       (c.st = .forming ∧ (d.timeoutFirst a g seq uid).1 = d)) := by
  unfold Device.timeoutFirst
  cases hc : (d.redGroup g).chunk seq with
  | none => exact .inl rfl
  | some c =>
    simp only []
    split
    · exact .inl rfl
    · rename_i h
      refine .inr ⟨c, rfl, by simp only [not_or, Bool.not_eq_true', Bool.not_eq_false] at h; exact h.1, ?_⟩
      cases hs : c.st with
      | gathering => exact .inl ⟨rfl, rfl⟩
      | awaitParent => exact .inr (.inl ⟨rfl, rfl⟩)
      | forming => exact .inr (.inr ⟨rfl, rfl⟩)

/-- A second's record: none while the ledger is off, one more LOST, or one made of the next number (R273, R274). -/
theorem Device.ledgerMake_cases (sec ns : Nat) :
    d.ledgerMake sec ns = d ∨ d.ledgerMake sec ns = d.ledgerLost ∨
    ∃ f : RegFile, d.ledgerMake sec ns =
      ({ d with
        file := f
        ledger := { d.ledger with
          seq := (d.ledger.seq + 1) % 2 ^ 64
          stepped := false
          madeAt := some d.absCyc } } : Device).ledgerPut d.ledger.seq (d.ledgerForm d.ledger.seq sec ns) := by
  unfold Device.ledgerMake
  split
  · exact .inl rfl
  · split
    · exact .inr (.inl rfl)
    · refine .inr (.inr ?_)
      by_cases h : d.allFenced = true
      · exact ⟨_, by simp only [h, if_true]; rfl⟩
      · exact ⟨d.file, by simp only [if_neg h]⟩

/-- PPS output `k` falls, or was low (R271). -/
theorem Device.ppsLower_cases (k : Nat) : d.ppsLower k = d ∨
    (d.pulse.ppsHigh.getD k false = true ∧ d.ppsLower k =
      ({ d with pulse := { d.pulse with ppsHigh := d.pulse.ppsHigh.set k false } }).send (.pin (ppsName k) false)) := by
  unfold Device.ppsLower
  split
  · rename_i h; exact .inr ⟨h, rfl⟩
  · exact .inl rfl

/-- A completion timeout changes only what is reported of it (R389, R398). -/
theorem Device.readTimedOut_eq (fn addr act : Nat) : ∃ l, d.readTimedOut fn addr act =
    ({ d with host := { d.host with aer := l } } : Device).logFault ⟨8, fn, addr⟩ 5 act 1 := ⟨_, rfl⟩

end Sys2Proof.Machine
end

