-- ==== Sys2Proof/Laws/Targets.lean ====
section
/-! SUPPORT. Where the registers that a command names lie: the row, page and indices that the decode of R351 finds. -/

set_option Elab.async false

namespace Sys2Proof.Machine

theorem targetOf_block {a inst base rest : Nat} {p : Page} {r : RegRow} {ix : List Nat} (hw : a < 0x4000000)
    (hp : pageOf a = some (p, inst, base)) (hn : p = .rings ∨ 0x100 ≤ a - base)
    (hf : findRow (a - base) (rowsOf p) = some (r, ix, rest)) : targetOf a = .block ⟨r, inst, base, ix, rest⟩ := by
  have h1 : ¬(0x4000000 ≤ a ∧ a < 0x8000000) := by omega
  have h2 : ¬(p ≠ .rings ∧ a - base < 0x100) := by
    rintro ⟨h, h'⟩
    cases hn with
    | inl e => exact h e
    | inr g => omega
  simp only [targetOf, if_neg h1, hp, if_neg h2, hf]

theorem pageOf_lane {c o : Nat} (hc : c < 8) (ho : o < 0x10000) :
    pageOf (0x200000 + c * 0x10000 + o) = some (.lane, c, 0x200000 + c * 0x10000) := by
  have h : (0x200000 + c * 0x10000 + o) / 0x10000 = 0x20 + c := by omega
  unfold pageOf
  simp only [h]
  rw [if_neg (by omega), if_neg (by omega), if_pos (by omega)]
  simp
  omega

theorem pageOf_d2d {c o : Nat} (hc : c < 8) (ho : o < 0x10000) :
    pageOf (0x300000 + c * 0x10000 + o) = some (.d2d, c, 0x300000 + c * 0x10000) := by
  have h : (0x300000 + c * 0x10000 + o) / 0x10000 = 0x30 + c := by omega
  unfold pageOf
  simp only [h]
  rw [if_neg (by omega), if_neg (by omega), if_neg (by omega), if_pos (by omega)]
  simp
  omega

theorem pageOf_rings {o : Nat} (ho : o < 0x20000) : pageOf (0x100000 + o) = some (.rings, 0, 0x100000) := by
  unfold pageOf
  simp only []
  rw [if_neg (by omega), if_pos (by omega)]

theorem pageOf_sub {n s o : Nat} {p : Page} (hn : n < 32) (hs : s < 16) (ho : o < 0x10000) (hp : subPage s = some p) :
    pageOf (0x1000000 + n * 0x100000 + s * 0x10000 + o) = some (p, n, 0x1000000 + n * 0x100000 + s * 0x10000) := by
  have h : (0x1000000 + n * 0x100000 + s * 0x10000 + o) / 0x10000 = 0x100 + 16 * n + s := by omega
  have h2 : (0x100 + 16 * n + s) % 16 = s := by omega
  unfold pageOf
  simp only [h, h2, hp]
  rw [if_neg (by omega), if_neg (by omega), if_neg (by omega), if_neg (by omega), if_pos (by omega)]
  simp
  omega

/-- The place of TOP_BOOT_DL_CMD. -/
def hit_TOP_BOOT_DL_CMD : RegHit :=
  ⟨⟨.TOP_BOOT_DL_CMD, .top, 0x1fc, [], 416, [.live, .hook],
    [⟨"GO", 0, 1, .w1s, 0⟩, ⟨"BUSY", 1, 1, .ro, 0⟩]⟩,
    0, 0x0, [], 0⟩

theorem target_TOP_BOOT_DL_CMD : targetOf A.TOP_BOOT_DL_CMD = .block (hit_TOP_BOOT_DL_CMD) := rfl

/-- The place of TOP_DEV_CTRL. -/
def hit_TOP_DEV_CTRL : RegHit :=
  ⟨⟨.TOP_DEV_CTRL, .top, 0x108, [], 29, [.hook],
    [⟨"GO", 0, 1, .w1s, 0⟩]⟩,
    0, 0x0, [], 0⟩

theorem target_TOP_DEV_CTRL : targetOf A.TOP_DEV_CTRL = .block (hit_TOP_DEV_CTRL) := rfl

/-- The place of TOP_RESET_CTRL. -/
def hit_TOP_RESET_CTRL : RegHit :=
  ⟨⟨.TOP_RESET_CTRL, .top, 0x1e4, [], 416, [.hook],
    [⟨"COLD", 0, 1, .w1s, 0⟩, ⟨"WARM", 1, 1, .w1s, 0⟩]⟩,
    0, 0x0, [], 0⟩

theorem target_TOP_RESET_CTRL : targetOf A.TOP_RESET_CTRL = .block (hit_TOP_RESET_CTRL) := rfl

/-- The place of TOP_GAL_FENCE_REQ. -/
def hit_TOP_GAL_FENCE_REQ : RegHit :=
  ⟨⟨.TOP_GAL_FENCE_REQ, .top, 0x114, [], 29, [.live, .hook],
    [⟨"REQ", 0, 32, .w1s, 0⟩]⟩,
    0, 0x0, [], 0⟩

theorem target_TOP_GAL_FENCE_REQ : targetOf A.TOP_GAL_FENCE_REQ = .block (hit_TOP_GAL_FENCE_REQ) := rfl

/-- The place of TOP_GEN_CTRL. -/
def hit_TOP_GEN_CTRL : RegHit :=
  ⟨⟨.TOP_GEN_CTRL, .top, 0x13c, [], 52, [.live, .hook],
    [⟨"FLIP", 0, 1, .w1s, 0⟩, ⟨"AT_EN", 1, 1, .rw, 0⟩, ⟨"NOTIFY_EN", 2, 1, .rw, 0⟩, ⟨"NOTIFY_VEC", 3, 11, .rw, 0x7ff⟩]⟩,
    0, 0x0, [], 0⟩

theorem target_TOP_GEN_CTRL : targetOf A.TOP_GEN_CTRL = .block (hit_TOP_GEN_CTRL) := rfl

/-- The place of TOP_SNAP_CTRL. -/
def hit_TOP_SNAP_CTRL : RegHit :=
  ⟨⟨.TOP_SNAP_CTRL, .top, 0x160, [], 55, [.live, .hook],
    [⟨"REQ", 0, 1, .w1s, 0⟩, ⟨"MERGED", 16, 8, .ro, 0⟩]⟩,
    0, 0x0, [], 0⟩

theorem target_TOP_SNAP_CTRL : targetOf A.TOP_SNAP_CTRL = .block (hit_TOP_SNAP_CTRL) := rfl

/-- The place of TOP_SNAP_PERIOD. -/
def hit_TOP_SNAP_PERIOD : RegHit :=
  ⟨⟨.TOP_SNAP_PERIOD, .top, 0x164, [], 55, [.atBoundary, .hook],
    [⟨"PERIOD", 0, 32, .rw, 0⟩]⟩,
    0, 0x0, [], 0⟩

theorem target_TOP_SNAP_PERIOD : targetOf A.TOP_SNAP_PERIOD = .block (hit_TOP_SNAP_PERIOD) := rfl

/-- The place of TOP_PROFILE. -/
def hit_TOP_PROFILE : RegHit :=
  ⟨⟨.TOP_PROFILE, .top, 0x1a0, [], 64, [.live, .hook],
    [⟨"ACTIVE", 0, 3, .ro, 0⟩, ⟨"STAGED", 4, 3, .rw, 0⟩]⟩,
    0, 0x0, [], 0⟩

theorem target_TOP_PROFILE : targetOf A.TOP_PROFILE = .block (hit_TOP_PROFILE) := rfl

/-- The place of TOP_PARSE_BANK. -/
def hit_TOP_PARSE_BANK : RegHit :=
  ⟨⟨.TOP_PARSE_BANK, .top, 0x1c0, [], 119, [.live, .hook],
    [⟨"ACTIVE", 0, 1, .ro, 0⟩, ⟨"SWITCH", 1, 1, .w1s, 0⟩, ⟨"OLD_HELD", 2, 1, .ro, 0⟩]⟩,
    0, 0x0, [], 0⟩

theorem target_TOP_PARSE_BANK : targetOf A.TOP_PARSE_BANK = .block (hit_TOP_PARSE_BANK) := rfl

/-- The place of TOP_BOOT_LOCK. -/
def hit_TOP_BOOT_LOCK : RegHit :=
  ⟨⟨.TOP_BOOT_LOCK, .top, 0x1e0, [], 359, [.live, .hook],
    [⟨"LOCKED", 0, 1, .w1s, 0⟩]⟩,
    0, 0x0, [], 0⟩

theorem target_TOP_BOOT_LOCK : targetOf A.TOP_BOOT_LOCK = .block (hit_TOP_BOOT_LOCK) := rfl

/-- The place of TABLE_FFT_CFG. -/
def hit_TABLE_FFT_CFG : RegHit :=
  ⟨⟨.TABLE_FFT_CFG, .table, 0x400, [], 130, [.live, .hook],
    [⟨"TTL_MS", 0, 16, .rw, 0xfa⟩, ⟨"REMOVE_ON_LAST", 16, 1, .rw, 0⟩, ⟨"FLUSH", 17, 1, .w1s, 0⟩]⟩,
    0, 0x80000, [], 0⟩

theorem target_TABLE_FFT_CFG : targetOf A.TABLE_FFT_CFG = .block (hit_TABLE_FFT_CFG) := rfl

/-- The place of HALL_REP_CMD. -/
def hit_HALL_REP_CMD : RegHit :=
  ⟨⟨.HALL_REP_CMD, .hall, 0x208, [], 190, [.hook],
    [⟨"WRITE", 0, 1, .w1s, 0⟩, ⟨"READ", 1, 1, .w1s, 0⟩, ⟨"BUSY", 2, 1, .ro, 0⟩]⟩,
    0, 0x90000, [], 0⟩

theorem target_HALL_REP_CMD : targetOf A.HALL_REP_CMD = .block (hit_HALL_REP_CMD) := rfl

/-- The place of KEYS_KEY_CMD. -/
def hit_KEYS_KEY_CMD : RegHit :=
  ⟨⟨.KEYS_KEY_CMD, .keys, 0x140, [], 250, [.live, .hook],
    [⟨"COMMIT", 0, 1, .w1s, 0⟩, ⟨"ERASE", 1, 1, .w1s, 0⟩, ⟨"CIPHER", 2, 1, .rw, 0⟩, ⟨"BUSY", 3, 1, .ro, 0⟩]⟩,
    0, 0xe0000, [], 0⟩

theorem target_KEYS_KEY_CMD : targetOf A.KEYS_KEY_CMD = .block (hit_KEYS_KEY_CMD) := rfl

/-- The place of TIME_STEP_CTRL. -/
def hit_TIME_STEP_CTRL : RegHit :=
  ⟨⟨.TIME_STEP_CTRL, .time, 0x124, [], 257, [.live, .hook],
    [⟨"SET", 0, 1, .w1s, 0⟩, ⟨"ADD", 1, 1, .w1s, 0⟩, ⟨"BUSY", 2, 1, .ro, 0⟩]⟩,
    0, 0x30000, [], 0⟩

theorem target_TIME_STEP_CTRL : targetOf A.TIME_STEP_CTRL = .block (hit_TIME_STEP_CTRL) := rfl

/-- The place of TIME_LEDGER_CTRL. -/
def hit_TIME_LEDGER_CTRL : RegHit :=
  ⟨⟨.TIME_LEDGER_CTRL, .time, 0x600, [], 275, [.live, .hook],
    [⟨"EN", 0, 1, .rw, 1⟩, ⟨"EXPORT_EN", 1, 1, .rw, 0⟩, ⟨"EXP_LOG2", 2, 4, .rw, 0⟩, ⟨"COPY", 6, 1, .w1s, 0⟩, ⟨"COPY_BUSY", 7, 1, .ro, 0⟩]⟩,
    0, 0x30000, [], 0⟩

theorem target_TIME_LEDGER_CTRL : targetOf A.TIME_LEDGER_CTRL = .block (hit_TIME_LEDGER_CTRL) := rfl

/-- The place of TELEM_FS_CFG. -/
def hit_TELEM_FS_CFG : RegHit :=
  ⟨⟨.TELEM_FS_CFG, .telem, 0x100, [], 294, [.atBoundary, .live, .hook],
    [⟨"EXPORT_S", 0, 8, .rw, 0xa⟩, ⟨"IDLE_S", 8, 8, .rw, 0x1e⟩, ⟨"EN", 16, 1, .rw, 1⟩, ⟨"FLUSH", 17, 1, .w1s, 0⟩]⟩,
    0, 0xd0000, [], 0⟩

theorem target_TELEM_FS_CFG : targetOf A.TELEM_FS_CFG = .block (hit_TELEM_FS_CFG) := rfl

/-- The place of ANVIL_G_CFG. -/
def hit_ANVIL_G_CFG : RegHit :=
  ⟨⟨.ANVIL_G_CFG, .anvil, 0x114, [], 315, [.live, .bankG, .hook],
    [⟨"VALID", 0, 1, .rw, 0⟩, ⟨"ANVIL", 1, 6, .rw, 0⟩, ⟨"ETYPE", 7, 4, .rw, 0⟩, ⟨"OP", 11, 2, .rw, 0⟩, ⟨"ROOT", 13, 1, .rw, 0⟩, ⟨"WINDOW_M1", 14, 6, .rw, 7⟩, ⟨"CHUNK_64", 20, 7, .rw, 0x40⟩]⟩,
    0, 0xc0000, [], 0⟩

theorem target_ANVIL_G_CFG : targetOf A.ANVIL_G_CFG = .block (hit_ANVIL_G_CFG) := rfl

/-- The place of RAS_RR_CFG. -/
def hit_RAS_RR_CFG : RegHit :=
  ⟨⟨.RAS_RR_CFG, .ras, 0x140, [], 402, [.hook],
    [⟨"APPLY", 0, 1, .rwl, 1⟩, ⟨"CLEAR", 1, 1, .w1s, 0⟩]⟩,
    0, 0x50000, [], 0⟩

theorem target_RAS_RR_CFG : targetOf A.RAS_RR_CFG = .block (hit_RAS_RR_CFG) := rfl

/-- The place of CNT_PC_GCTL. -/
def hit_CNT_PC_GCTL : RegHit :=
  ⟨⟨.CNT_PC_GCTL, .cnt, 0x100, [], 365, [.atBoundary, .hook],
    [⟨"FREEZE", 0, 1, .rw, 0⟩, ⟨"CLR_ALL", 1, 1, .w1s, 0⟩]⟩,
    0, 0x70000, [], 0⟩

theorem target_CNT_PC_GCTL : targetOf A.CNT_PC_GCTL = .block (hit_CNT_PC_GCTL) := rfl

/-- The place of TIME_NOW_FRAC. -/
def hit_TIME_NOW_FRAC : RegHit :=
  ⟨⟨.TIME_NOW_FRAC, .time, 0x100, [], 257, [.live, .group0],
    [⟨"FRAC", 0, 16, .ro, 0⟩]⟩,
    0, 0x30000, [], 0⟩

theorem target_TIME_NOW_FRAC : targetOf A.TIME_NOW_FRAC = .block (hit_TIME_NOW_FRAC) := rfl

/-- The place of DAMPER_TEMP. -/
def hit_DAMPER_TEMP : RegHit :=
  ⟨⟨.DAMPER_TEMP, .damper, 0x11c, [], 387, [.live],
    [⟨"TJ_MAX", 0, 8, .ro, 0⟩, ⟨"TJ_PEAK", 8, 8, .ro, 0⟩, ⟨"SENSOR", 16, 7, .ro, 0⟩]⟩,
    0, 0x40000, [], 0⟩

theorem target_DAMPER_TEMP : targetOf A.DAMPER_TEMP = .block (hit_DAMPER_TEMP) := rfl

/-- The place of DAMPER_PEAK. -/
def hit_DAMPER_PEAK : RegHit :=
  ⟨⟨.DAMPER_PEAK, .damper, 0x110, [], 387, [.live, .hook],
    [⟨"PEAK_W", 0, 12, .ro, 0⟩]⟩,
    0, 0x40000, [], 0⟩

theorem target_DAMPER_PEAK : targetOf A.DAMPER_PEAK = .block (hit_DAMPER_PEAK) := rfl

/-- The place of RAS_LOG_STAT. -/
def hit_RAS_LOG_STAT : RegHit :=
  ⟨⟨.RAS_LOG_STAT, .ras, 0x100, [], 402, [.live],
    [⟨"LEVEL", 0, 9, .ro, 0⟩, ⟨"OVF", 9, 16, .ro, 0⟩]⟩,
    0, 0x50000, [], 0⟩

theorem target_RAS_LOG_STAT : targetOf A.RAS_LOG_STAT = .block (hit_RAS_LOG_STAT) := rfl

/-- The place of RAS_LOG. -/
def hit_RAS_LOG (i : Nat) : RegHit :=
  ⟨⟨.RAS_LOG, .ras, 0x110, [(8, 0x4)], 402, [.live],
    [⟨"DATA", 0, 32, .ro, 0⟩]⟩,
    0, 0x50000, [i], 0⟩

theorem find_RAS_LOG : ∀ i < 8,
    findRow (0x110 + i * 0x4) (rowsOf .ras) = some ((hit_RAS_LOG 0).row, [i], 0) := by
  decide +kernel

theorem target_RAS_LOG {i : Nat} (hi : i < 8) : targetOf (A.RAS_LOG i) = .block (hit_RAS_LOG i) := by
  have h : ∀ i < 8, targetOf (A.RAS_LOG i) = .block (hit_RAS_LOG i) := by decide +kernel
  exact h i hi

/-- The place of TIME_PPS_IN_CAP_FRAC. -/
def hit_TIME_PPS_IN_CAP_FRAC (i : Nat) : RegHit :=
  ⟨⟨.TIME_PPS_IN_CAP_FRAC, .time, 0x220, [(2, 0x10)], 272, [.live, .group0],
    [⟨"FRAC", 0, 16, .ro, 0⟩]⟩,
    0, 0x30000, [i], 0⟩

theorem find_TIME_PPS_IN_CAP_FRAC : ∀ i < 2,
    findRow (0x220 + i * 0x10) (rowsOf .time) = some ((hit_TIME_PPS_IN_CAP_FRAC 0).row, [i], 0) := by
  decide +kernel

theorem target_TIME_PPS_IN_CAP_FRAC {i : Nat} (hi : i < 2) : targetOf (A.TIME_PPS_IN_CAP_FRAC i) = .block (hit_TIME_PPS_IN_CAP_FRAC i) := by
  have h : ∀ i < 2, targetOf (A.TIME_PPS_IN_CAP_FRAC i) = .block (hit_TIME_PPS_IN_CAP_FRAC i) := by decide +kernel
  exact h i hi

/-- The place of TIME_EV_FRAC. -/
def hit_TIME_EV_FRAC (i : Nat) : RegHit :=
  ⟨⟨.TIME_EV_FRAC, .time, 0x404, [(4, 0x20)], 272, [.live, .group0],
    [⟨"FRAC", 0, 16, .ro, 0⟩, ⟨"EDGE", 31, 1, .ro, 0⟩]⟩,
    0, 0x30000, [i], 0⟩

theorem find_TIME_EV_FRAC : ∀ i < 4,
    findRow (0x404 + i * 0x20) (rowsOf .time) = some ((hit_TIME_EV_FRAC 0).row, [i], 0) := by
  decide +kernel

theorem target_TIME_EV_FRAC {i : Nat} (hi : i < 4) : targetOf (A.TIME_EV_FRAC i) = .block (hit_TIME_EV_FRAC i) := by
  have h : ∀ i < 4, targetOf (A.TIME_EV_FRAC i) = .block (hit_TIME_EV_FRAC i) := by decide +kernel
  exact h i hi

/-- The place of TIME_TR_CTRL. -/
def hit_TIME_TR_CTRL (i : Nat) : RegHit :=
  ⟨⟨.TIME_TR_CTRL, .time, 0x300, [(4, 0x20)], 272, [.live, .hook],
    [⟨"EN", 0, 1, .rw, 0⟩, ⟨"POL", 1, 1, .rw, 0⟩, ⟨"ARMED", 2, 1, .ro, 0⟩]⟩,
    0, 0x30000, [i], 0⟩

theorem find_TIME_TR_CTRL : ∀ i < 4,
    findRow (0x300 + i * 0x20) (rowsOf .time) = some ((hit_TIME_TR_CTRL 0).row, [i], 0) := by
  decide +kernel

theorem target_TIME_TR_CTRL {i : Nat} (hi : i < 4) : targetOf (A.TIME_TR_CTRL i) = .block (hit_TIME_TR_CTRL i) := by
  have h : ∀ i < 4, targetOf (A.TIME_TR_CTRL i) = .block (hit_TIME_TR_CTRL i) := by decide +kernel
  exact h i hi

/-- The place of SEQ_RL_CMD. -/
def hit_SEQ_RL_CMD (i : Nat) : RegHit :=
  ⟨⟨.SEQ_RL_CMD, .seq, 0x140, [(5, 0x40)], 329, [.live, .hook],
    [⟨"LOAD", 0, 1, .w1s, 0⟩, ⟨"SWITCH", 1, 1, .w1s, 0⟩, ⟨"LOAD_CLASS", 2, 3, .rw, 7⟩]⟩,
    0, 0x60000, [i], 0⟩

theorem find_SEQ_RL_CMD : ∀ i < 5,
    findRow (0x140 + i * 0x40) (rowsOf .seq) = some ((hit_SEQ_RL_CMD 0).row, [i], 0) := by
  decide +kernel

theorem target_SEQ_RL_CMD {i : Nat} (hi : i < 5) : targetOf (A.SEQ_RL_CMD i) = .block (hit_SEQ_RL_CMD i) := by
  have h : ∀ i < 5, targetOf (A.SEQ_RL_CMD i) = .block (hit_SEQ_RL_CMD i) := by decide +kernel
  exact h i hi

/-- The place of SEQ_SQ_CTRL. -/
def hit_SEQ_SQ_CTRL (i : Nat) : RegHit :=
  ⟨⟨.SEQ_SQ_CTRL, .seq, 0x1000, [(16, 0x100)], 329, [.live, .hook],
    [⟨"RESTART", 0, 1, .w1s, 0⟩, ⟨"STOP", 1, 1, .w1s, 0⟩]⟩,
    0, 0x60000, [i], 0⟩

theorem find_SEQ_SQ_CTRL : ∀ i < 16,
    findRow (0x1000 + i * 0x100) (rowsOf .seq) = some ((hit_SEQ_SQ_CTRL 0).row, [i], 0) := by
  decide +kernel

theorem target_SEQ_SQ_CTRL {i : Nat} (hi : i < 16) : targetOf (A.SEQ_SQ_CTRL i) = .block (hit_SEQ_SQ_CTRL i) := by
  have h : ∀ i < 16, targetOf (A.SEQ_SQ_CTRL i) = .block (hit_SEQ_SQ_CTRL i) := by decide +kernel
  exact h i hi

/-- The place of SEQ_SQ_MBOX_IN. -/
def hit_SEQ_SQ_MBOX_IN (i : Nat) : RegHit :=
  ⟨⟨.SEQ_SQ_MBOX_IN, .seq, 0x100c, [(16, 0x100)], 329, [.hook],
    [⟨"V", 0, 32, .rw, 0⟩]⟩,
    0, 0x60000, [i], 0⟩

theorem find_SEQ_SQ_MBOX_IN : ∀ i < 16,
    findRow (0x100c + i * 0x100) (rowsOf .seq) = some ((hit_SEQ_SQ_MBOX_IN 0).row, [i], 0) := by
  decide +kernel

theorem target_SEQ_SQ_MBOX_IN {i : Nat} (hi : i < 16) : targetOf (A.SEQ_SQ_MBOX_IN i) = .block (hit_SEQ_SQ_MBOX_IN i) := by
  have h : ∀ i < 16, targetOf (A.SEQ_SQ_MBOX_IN i) = .block (hit_SEQ_SQ_MBOX_IN i) := by decide +kernel
  exact h i hi

/-- The place of CNT_PC_VAL_HI. -/
def hit_CNT_PC_VAL_HI (i : Nat) : RegHit :=
  ⟨⟨.CNT_PC_VAL_HI, .cnt, 0x1014, [(16, 0x40)], 365, [.live, .pairHi, .hook],
    [⟨"VALUE", 0, 16, .rw, 0⟩]⟩,
    0, 0x70000, [i], 0⟩

theorem find_CNT_PC_VAL_HI : ∀ i < 16,
    findRow (0x1014 + i * 0x40) (rowsOf .cnt) = some ((hit_CNT_PC_VAL_HI 0).row, [i], 0) := by
  decide +kernel

theorem target_CNT_PC_VAL_HI {i : Nat} (hi : i < 16) : targetOf (A.CNT_PC_VAL_HI i) = .block (hit_CNT_PC_VAL_HI i) := by
  have h : ∀ i < 16, targetOf (A.CNT_PC_VAL_HI i) = .block (hit_CNT_PC_VAL_HI i) := by decide +kernel
  exact h i hi

/-- The place of LANE_LN_CTRL. -/
def hit_LANE_LN_CTRL (c i : Nat) : RegHit :=
  ⟨⟨.LANE_LN_CTRL, .lane, 0x1000, [(128, 0x80)], 74, [.hook],
    [⟨"EN", 0, 1, .rw, 0⟩, ⟨"RATE", 1, 2, .rw, 3⟩, ⟨"TX_POL_INV", 3, 1, .rw, 0⟩, ⟨"RX_POL_AUTO", 4, 1, .rw, 1⟩, ⟨"RX_POL_INV", 5, 1, .rw, 0⟩, ⟨"TEST", 6, 1, .rw, 0⟩]⟩,
    c, 0x200000 + c * 0x10000, [i], 0⟩

theorem find_LANE_LN_CTRL : ∀ i < 128,
    findRow (0x1000 + i * 0x80) (rowsOf .lane) = some ((hit_LANE_LN_CTRL 0 0).row, [i], 0) := by
  decide +kernel

theorem target_LANE_LN_CTRL {c i : Nat} (hc : c < 8) (hi : i < 128) : targetOf (A.LANE_LN_CTRL c i) = .block (hit_LANE_LN_CTRL c i) := by
  have ha : A.LANE_LN_CTRL c i = 0x200000 + c * 0x10000 + (0x1000 + i * 0x80) := by simp only [A.LANE_LN_CTRL]; omega
  have hb : 0x200000 + c * 0x10000 + (0x1000 + i * 0x80) - (0x200000 + c * 0x10000) = 0x1000 + i * 0x80 := by omega
  rw [ha]
  refine targetOf_block (by omega) (pageOf_lane hc (by omega)) (.inr (by omega)) ?_
  rw [hb]
  exact find_LANE_LN_CTRL i hi

/-- The place of LANE_LN_BRINGUP. -/
def hit_LANE_LN_BRINGUP (c i : Nat) : RegHit :=
  ⟨⟨.LANE_LN_BRINGUP, .lane, 0x1010, [(128, 0x80)], 79, [.hook],
    [⟨"MODE", 0, 1, .rw, 1⟩, ⟨"TRAIN_EN", 1, 1, .rw, 1⟩, ⟨"REV_AUTO", 2, 1, .rw, 1⟩, ⟨"DORMANT_REQ", 3, 1, .rw, 0⟩, ⟨"WAKE_SD", 4, 1, .rw, 1⟩, ⟨"TRAIN_TMO", 5, 8, .rw, 0x96⟩, ⟨"RETRAIN_UNC", 13, 8, .rw, 0x10⟩, ⟨"SNR_MIN", 21, 8, .rw, 0x38⟩]⟩,
    c, 0x200000 + c * 0x10000, [i], 0⟩

theorem find_LANE_LN_BRINGUP : ∀ i < 128,
    findRow (0x1010 + i * 0x80) (rowsOf .lane) = some ((hit_LANE_LN_BRINGUP 0 0).row, [i], 0) := by
  decide +kernel

theorem target_LANE_LN_BRINGUP {c i : Nat} (hc : c < 8) (hi : i < 128) : targetOf (A.LANE_LN_BRINGUP c i) = .block (hit_LANE_LN_BRINGUP c i) := by
  have ha : A.LANE_LN_BRINGUP c i = 0x200000 + c * 0x10000 + (0x1010 + i * 0x80) := by simp only [A.LANE_LN_BRINGUP]; omega
  have hb : 0x200000 + c * 0x10000 + (0x1010 + i * 0x80) - (0x200000 + c * 0x10000) = 0x1010 + i * 0x80 := by omega
  rw [ha]
  refine targetOf_block (by omega) (pageOf_lane hc (by omega)) (.inr (by omega)) ?_
  rw [hb]
  exact find_LANE_LN_BRINGUP i hi

/-- The place of LANE_LN_PRBS. -/
def hit_LANE_LN_PRBS (c i : Nat) : RegHit :=
  ⟨⟨.LANE_LN_PRBS, .lane, 0x101c, [(128, 0x80)], 84, [.live, .hook],
    [⟨"TX_PAT", 0, 4, .rw, 0⟩, ⟨"RX_PAT", 4, 4, .rw, 0⟩, ⟨"TX_EN", 8, 1, .rw, 0⟩, ⟨"RX_EN", 9, 1, .rw, 0⟩, ⟨"RX_LOCK", 10, 1, .ro, 0⟩, ⟨"CLEAR", 11, 1, .w1s, 0⟩]⟩,
    c, 0x200000 + c * 0x10000, [i], 0⟩

theorem find_LANE_LN_PRBS : ∀ i < 128,
    findRow (0x101c + i * 0x80) (rowsOf .lane) = some ((hit_LANE_LN_PRBS 0 0).row, [i], 0) := by
  decide +kernel

theorem target_LANE_LN_PRBS {c i : Nat} (hc : c < 8) (hi : i < 128) : targetOf (A.LANE_LN_PRBS c i) = .block (hit_LANE_LN_PRBS c i) := by
  have ha : A.LANE_LN_PRBS c i = 0x200000 + c * 0x10000 + (0x101c + i * 0x80) := by simp only [A.LANE_LN_PRBS]; omega
  have hb : 0x200000 + c * 0x10000 + (0x101c + i * 0x80) - (0x200000 + c * 0x10000) = 0x101c + i * 0x80 := by omega
  rw [ha]
  refine targetOf_block (by omega) (pageOf_lane hc (by omega)) (.inr (by omega)) ?_
  rw [hb]
  exact find_LANE_LN_PRBS i hi

/-- The place of LANE_LN_INJ. -/
def hit_LANE_LN_INJ (c i : Nat) : RegHit :=
  ⟨⟨.LANE_LN_INJ, .lane, 0x1020, [(128, 0x80)], 85, [.live, .hook],
    [⟨"KIND", 0, 2, .rw, 0⟩, ⟨"LEN", 2, 8, .rw, 2⟩, ⟨"GO", 10, 1, .w1s, 0⟩, ⟨"PERIODIC", 11, 1, .rw, 0⟩, ⟨"PERIOD", 12, 16, .rw, 0x3e8⟩]⟩,
    c, 0x200000 + c * 0x10000, [i], 0⟩

theorem find_LANE_LN_INJ : ∀ i < 128,
    findRow (0x1020 + i * 0x80) (rowsOf .lane) = some ((hit_LANE_LN_INJ 0 0).row, [i], 0) := by
  decide +kernel

theorem target_LANE_LN_INJ {c i : Nat} (hc : c < 8) (hi : i < 128) : targetOf (A.LANE_LN_INJ c i) = .block (hit_LANE_LN_INJ c i) := by
  have ha : A.LANE_LN_INJ c i = 0x200000 + c * 0x10000 + (0x1020 + i * 0x80) := by simp only [A.LANE_LN_INJ]; omega
  have hb : 0x200000 + c * 0x10000 + (0x1020 + i * 0x80) - (0x200000 + c * 0x10000) = 0x1020 + i * 0x80 := by omega
  rw [ha]
  refine targetOf_block (by omega) (pageOf_lane hc (by omega)) (.inr (by omega)) ?_
  rw [hb]
  exact find_LANE_LN_INJ i hi

/-- The place of LANE_LN_BITSLIP. -/
def hit_LANE_LN_BITSLIP (c i : Nat) : RegHit :=
  ⟨⟨.LANE_LN_BITSLIP, .lane, 0x102c, [(128, 0x80)], 85, [.hook],
    [⟨"SLIP", 0, 1, .wo, 0⟩]⟩,
    c, 0x200000 + c * 0x10000, [i], 0⟩

theorem find_LANE_LN_BITSLIP : ∀ i < 128,
    findRow (0x102c + i * 0x80) (rowsOf .lane) = some ((hit_LANE_LN_BITSLIP 0 0).row, [i], 0) := by
  decide +kernel

theorem target_LANE_LN_BITSLIP {c i : Nat} (hc : c < 8) (hi : i < 128) : targetOf (A.LANE_LN_BITSLIP c i) = .block (hit_LANE_LN_BITSLIP c i) := by
  have ha : A.LANE_LN_BITSLIP c i = 0x200000 + c * 0x10000 + (0x102c + i * 0x80) := by simp only [A.LANE_LN_BITSLIP]; omega
  have hb : 0x200000 + c * 0x10000 + (0x102c + i * 0x80) - (0x200000 + c * 0x10000) = 0x102c + i * 0x80 := by omega
  rw [ha]
  refine targetOf_block (by omega) (pageOf_lane hc (by omega)) (.inr (by omega)) ?_
  rw [hb]
  exact find_LANE_LN_BITSLIP i hi

/-- The place of D2D_LK_CTRL. -/
def hit_D2D_LK_CTRL (c i : Nat) : RegHit :=
  ⟨⟨.D2D_LK_CTRL, .d2d, 0x1000, [(16, 0x100)], 93, [.live, .hook],
    [⟨"SLEEP_EN", 0, 1, .rw, 1⟩, ⟨"RETRAIN", 1, 1, .w1s, 0⟩, ⟨"TEST", 2, 1, .rw, 0⟩]⟩,
    c, 0x300000 + c * 0x10000, [i], 0⟩

theorem find_D2D_LK_CTRL : ∀ i < 16,
    findRow (0x1000 + i * 0x100) (rowsOf .d2d) = some ((hit_D2D_LK_CTRL 0 0).row, [i], 0) := by
  decide +kernel

theorem target_D2D_LK_CTRL {c i : Nat} (hc : c < 8) (hi : i < 16) : targetOf (A.D2D_LK_CTRL c i) = .block (hit_D2D_LK_CTRL c i) := by
  have ha : A.D2D_LK_CTRL c i = 0x300000 + c * 0x10000 + (0x1000 + i * 0x100) := by simp only [A.D2D_LK_CTRL]; omega
  have hb : 0x300000 + c * 0x10000 + (0x1000 + i * 0x100) - (0x300000 + c * 0x10000) = 0x1000 + i * 0x100 := by omega
  rw [ha]
  refine targetOf_block (by omega) (pageOf_d2d hc (by omega)) (.inr (by omega)) ?_
  rw [hb]
  exact find_D2D_LK_CTRL i hi

/-- The place of D2D_LK_SLIP. -/
def hit_D2D_LK_SLIP (c i : Nat) : RegHit :=
  ⟨⟨.D2D_LK_SLIP, .d2d, 0x1020, [(16, 0x100)], 93, [.hook],
    [⟨"LANE", 0, 7, .rw, 0⟩, ⟨"DIR", 7, 1, .rw, 0⟩, ⟨"GO", 8, 1, .w1s, 0⟩]⟩,
    c, 0x300000 + c * 0x10000, [i], 0⟩

theorem find_D2D_LK_SLIP : ∀ i < 16,
    findRow (0x1020 + i * 0x100) (rowsOf .d2d) = some ((hit_D2D_LK_SLIP 0 0).row, [i], 0) := by
  decide +kernel

theorem target_D2D_LK_SLIP {c i : Nat} (hc : c < 8) (hi : i < 16) : targetOf (A.D2D_LK_SLIP c i) = .block (hit_D2D_LK_SLIP c i) := by
  have ha : A.D2D_LK_SLIP c i = 0x300000 + c * 0x10000 + (0x1020 + i * 0x100) := by simp only [A.D2D_LK_SLIP]; omega
  have hb : 0x300000 + c * 0x10000 + (0x1020 + i * 0x100) - (0x300000 + c * 0x10000) = 0x1020 + i * 0x100 := by omega
  rw [ha]
  refine targetOf_block (by omega) (pageOf_d2d hc (by omega)) (.inr (by omega)) ?_
  rw [hb]
  exact find_D2D_LK_SLIP i hi

/-- The place of PORT_PT_CFG. -/
def hit_PORT_PT_CFG (n i : Nat) : RegHit :=
  ⟨⟨.PORT_PT_CFG, .port, 0x1000, [(32, 0x400)], 97, [.hook],
    [⟨"EN", 0, 1, .rw, 0⟩, ⟨"WIDTH", 1, 2, .rw, 0⟩, ⟨"SPEED", 3, 3, .rw, 3⟩, ⟨"FEC", 6, 2, .rw, 2⟩, ⟨"FEC_LL", 8, 1, .rw, 0⟩, ⟨"SF", 9, 1, .rw, 0⟩, ⟨"LPI_EN", 10, 1, .rw, 0⟩, ⟨"FC_MODE", 11, 2, .rw, 0⟩]⟩,
    n, 0x1000000 + n * 0x100000 + 0x10000, [i], 0⟩

theorem find_PORT_PT_CFG : ∀ i < 32,
    findRow (0x1000 + i * 0x400) (rowsOf .port) = some ((hit_PORT_PT_CFG 0 0).row, [i], 0) := by
  decide +kernel

theorem target_PORT_PT_CFG {n i : Nat} (hn : n < 32) (hi : i < 32) : targetOf (A.PORT_PT_CFG n i) = .block (hit_PORT_PT_CFG n i) := by
  have ha : A.PORT_PT_CFG n i = 0x1000000 + n * 0x100000 + 1 * 0x10000 + (0x1000 + i * 0x400) := by simp only [A.PORT_PT_CFG]; omega
  have hb : 0x1000000 + n * 0x100000 + 1 * 0x10000 + (0x1000 + i * 0x400) - (0x1000000 + n * 0x100000 + 1 * 0x10000) = 0x1000 + i * 0x400 := by omega
  rw [ha]
  refine targetOf_block (by omega) (pageOf_sub hn (by omega) (by omega) (s := 1) rfl) (.inr (by omega)) ?_
  rw [hb]
  exact find_PORT_PT_CFG i hi

/-- The place of GATE_GT_CTRL. -/
def hit_GATE_GT_CTRL (n i : Nat) : RegHit :=
  ⟨⟨.GATE_GT_CTRL, .gate, 0x100, [(32, 0x20)], 221, [.hook],
    [⟨"EN", 0, 1, .rw, 0⟩, ⟨"COMMIT", 1, 1, .w1s, 0⟩, ⟨"LEN", 2, 7, .rw, 1⟩]⟩,
    n, 0x1000000 + n * 0x100000 + 0x70000, [i], 0⟩

theorem find_GATE_GT_CTRL : ∀ i < 32,
    findRow (0x100 + i * 0x20) (rowsOf .gate) = some ((hit_GATE_GT_CTRL 0 0).row, [i], 0) := by
  decide +kernel

theorem target_GATE_GT_CTRL {n i : Nat} (hn : n < 32) (hi : i < 32) : targetOf (A.GATE_GT_CTRL n i) = .block (hit_GATE_GT_CTRL n i) := by
  have ha : A.GATE_GT_CTRL n i = 0x1000000 + n * 0x100000 + 7 * 0x10000 + (0x100 + i * 0x20) := by simp only [A.GATE_GT_CTRL]; omega
  have hb : 0x1000000 + n * 0x100000 + 7 * 0x10000 + (0x100 + i * 0x20) - (0x1000000 + n * 0x100000 + 7 * 0x10000) = 0x100 + i * 0x20 := by omega
  rw [ha]
  refine targetOf_block (by omega) (pageOf_sub hn (by omega) (by omega) (s := 7) rfl) (.inr (by omega)) ?_
  rw [hb]
  exact find_GATE_GT_CTRL i hi

/-- The place of MATCH_ACT_CMD. -/
def hit_MATCH_ACT_CMD (n : Nat) : RegHit :=
  ⟨⟨.MATCH_ACT_CMD, .match, 0x114, [], 149, [.hook],
    [⟨"WRITE", 0, 1, .w1s, 0⟩, ⟨"READ", 1, 1, .w1s, 0⟩, ⟨"BUSY", 2, 1, .ro, 0⟩]⟩,
    n, 0x1000000 + n * 0x100000 + 0x30000, [], 0⟩

theorem target_MATCH_ACT_CMD {n : Nat} (hn : n < 32) : targetOf (A.MATCH_ACT_CMD n) = .block (hit_MATCH_ACT_CMD n) := by
  have ha : A.MATCH_ACT_CMD n = 0x1000000 + n * 0x100000 + 3 * 0x10000 + 0x114 := by simp only [A.MATCH_ACT_CMD]
  have hb : 0x1000000 + n * 0x100000 + 3 * 0x10000 + 0x114 - (0x1000000 + n * 0x100000 + 3 * 0x10000) = 0x114 := by omega
  rw [ha]
  refine targetOf_block (by omega) (pageOf_sub hn (by omega) (by omega) (s := 3) rfl) (.inr (by omega)) ?_
  rw [hb]
  rfl

/-- The place of INTEG_SA_PN_HI. -/
def hit_INTEG_SA_PN_HI (n : Nat) : RegHit :=
  ⟨⟨.INTEG_SA_PN_HI, .integ, 0x40c, [], 251, [.live, .pairHi, .bankSA, .hook],
    [⟨"PN", 0, 32, .rw, 0⟩]⟩,
    n, 0x1000000 + n * 0x100000 + 0x90000, [], 0⟩

theorem target_INTEG_SA_PN_HI {n : Nat} (hn : n < 32) : targetOf (A.INTEG_SA_PN_HI n) = .block (hit_INTEG_SA_PN_HI n) := by
  have ha : A.INTEG_SA_PN_HI n = 0x1000000 + n * 0x100000 + 9 * 0x10000 + 0x40c := by simp only [A.INTEG_SA_PN_HI]
  have hb : 0x1000000 + n * 0x100000 + 9 * 0x10000 + 0x40c - (0x1000000 + n * 0x100000 + 9 * 0x10000) = 0x40c := by omega
  rw [ha]
  refine targetOf_block (by omega) (pageOf_sub hn (by omega) (by omega) (s := 9) rfl) (.inr (by omega)) ?_
  rw [hb]
  rfl

/-- The place of GCNT_PC_VAL_HI. -/
def hit_GCNT_PC_VAL_HI (n i : Nat) : RegHit :=
  ⟨⟨.GCNT_PC_VAL_HI, .gcnt, 0x1014, [(8, 0x40)], 365, [.live, .pairHi, .hook],
    [⟨"VALUE", 0, 16, .rw, 0⟩]⟩,
    n, 0x1000000 + n * 0x100000 + 0xb0000, [i], 0⟩

theorem find_GCNT_PC_VAL_HI : ∀ i < 8,
    findRow (0x1014 + i * 0x40) (rowsOf .gcnt) = some ((hit_GCNT_PC_VAL_HI 0 0).row, [i], 0) := by
  decide +kernel

theorem target_GCNT_PC_VAL_HI {n i : Nat} (hn : n < 32) (hi : i < 8) : targetOf (A.GCNT_PC_VAL_HI n i) = .block (hit_GCNT_PC_VAL_HI n i) := by
  have ha : A.GCNT_PC_VAL_HI n i = 0x1000000 + n * 0x100000 + 11 * 0x10000 + (0x1014 + i * 0x40) := by simp only [A.GCNT_PC_VAL_HI]; omega
  have hb : 0x1000000 + n * 0x100000 + 11 * 0x10000 + (0x1014 + i * 0x40) - (0x1000000 + n * 0x100000 + 11 * 0x10000) = 0x1014 + i * 0x40 := by omega
  rw [ha]
  refine targetOf_block (by omega) (pageOf_sub hn (by omega) (by omega) (s := 11) rfl) (.inr (by omega)) ?_
  rw [hb]
  exact find_GCNT_PC_VAL_HI i hi

/-- The place of GCNT_PC_GCTL. -/
def hit_GCNT_PC_GCTL (n : Nat) : RegHit :=
  ⟨⟨.GCNT_PC_GCTL, .gcnt, 0x100, [], 365, [.atBoundary, .hook],
    [⟨"FREEZE", 0, 1, .rw, 0⟩, ⟨"CLR_ALL", 1, 1, .w1s, 0⟩]⟩,
    n, 0x1000000 + n * 0x100000 + 0xb0000, [], 0⟩

theorem target_GCNT_PC_GCTL {n : Nat} (hn : n < 32) : targetOf (A.GCNT_PC_GCTL n) = .block (hit_GCNT_PC_GCTL n) := by
  have ha : A.GCNT_PC_GCTL n = 0x1000000 + n * 0x100000 + 11 * 0x10000 + 0x100 := by simp only [A.GCNT_PC_GCTL]
  have hb : 0x1000000 + n * 0x100000 + 11 * 0x10000 + 0x100 - (0x1000000 + n * 0x100000 + 11 * 0x10000) = 0x100 := by omega
  rw [ha]
  refine targetOf_block (by omega) (pageOf_sub hn (by omega) (by omega) (s := 11) rfl) (.inr (by omega)) ?_
  rw [hb]
  rfl

/-- The place of GCNT_SMP. -/
def hit_GCNT_SMP (n i : Nat) : RegHit :=
  ⟨⟨.GCNT_SMP, .gcnt, 0x2010, [(6, 0x4)], 368, [.live],
    [⟨"WORD", 0, 32, .ro, 0⟩]⟩,
    n, 0x1000000 + n * 0x100000 + 0xb0000, [i], 0⟩

theorem find_GCNT_SMP : ∀ i < 6,
    findRow (0x2010 + i * 0x4) (rowsOf .gcnt) = some ((hit_GCNT_SMP 0 0).row, [i], 0) := by
  decide +kernel

theorem target_GCNT_SMP {n i : Nat} (hn : n < 32) (hi : i < 6) : targetOf (A.GCNT_SMP n i) = .block (hit_GCNT_SMP n i) := by
  have ha : A.GCNT_SMP n i = 0x1000000 + n * 0x100000 + 11 * 0x10000 + (0x2010 + i * 0x4) := by simp only [A.GCNT_SMP]; omega
  have hb : 0x1000000 + n * 0x100000 + 11 * 0x10000 + (0x2010 + i * 0x4) - (0x1000000 + n * 0x100000 + 11 * 0x10000) = 0x2010 + i * 0x4 := by omega
  rw [ha]
  refine targetOf_block (by omega) (pageOf_sub hn (by omega) (by omega) (s := 11) rfl) (.inr (by omega)) ?_
  rw [hb]
  exact find_GCNT_SMP i hi

/-- The place of STAIR_STAT. -/
def hit_STAIR_STAT (n : Nat) : RegHit :=
  ⟨⟨.STAIR_STAT, .stair, 0x104, [], 150, [.live],
    [⟨"DEPTH", 0, 9, .ro, 0⟩, ⟨"PEAK", 9, 9, .ro, 0⟩]⟩,
    n, 0x1000000 + n * 0x100000 + 0x40000, [], 0⟩

theorem target_STAIR_STAT {n : Nat} (hn : n < 32) : targetOf (A.STAIR_STAT n) = .block (hit_STAIR_STAT n) := by
  have ha : A.STAIR_STAT n = 0x1000000 + n * 0x100000 + 4 * 0x10000 + 0x104 := by simp only [A.STAIR_STAT]
  have hb : 0x1000000 + n * 0x100000 + 4 * 0x10000 + 0x104 - (0x1000000 + n * 0x100000 + 4 * 0x10000) = 0x104 := by omega
  rw [ha]
  refine targetOf_block (by omega) (pageOf_sub hn (by omega) (by omega) (s := 4) rfl) (.inr (by omega)) ?_
  rw [hb]
  rfl

/-- The place of RINGS_RW_CTRL. -/
def hit_RINGS_RW_CTRL (i : Nat) : RegHit :=
  ⟨⟨.RINGS_RW_CTRL, .rings, 0x0, [(512, 0x100)], 347, [.hook],
    [⟨"EN", 0, 1, .rw, 0⟩, ⟨"TYPE", 1, 3, .rw, 0⟩, ⟨"LOG2_SIZE", 4, 5, .rw, 4⟩, ⟨"CLASS", 9, 3, .rw, 0⟩, ⟨"IRQ_EN", 12, 1, .rw, 0⟩, ⟨"VEC", 13, 11, .rw, 0⟩, ⟨"RESUME", 24, 1, .w1s, 0⟩]⟩,
    0, 0x100000, [i], 0⟩

theorem find_RINGS_RW_CTRL : ∀ i < 512,
    findRow (0x0 + i * 0x100) (rowsOf .rings) = some ((hit_RINGS_RW_CTRL 0).row, [i], 0) := by
  decide +kernel

theorem target_RINGS_RW_CTRL {i : Nat} (hi : i < 512) : targetOf (A.RINGS_RW_CTRL i) = .block (hit_RINGS_RW_CTRL i) := by
  have ha : A.RINGS_RW_CTRL i = 0x100000 + (0x0 + i * 0x100) := by simp only [A.RINGS_RW_CTRL]; omega
  have hb : 0x100000 + (0x0 + i * 0x100) - 0x100000 = 0x0 + i * 0x100 := by omega
  rw [ha]
  refine targetOf_block (by omega) (pageOf_rings (by omega)) (.inl rfl) ?_
  rw [hb]
  exact find_RINGS_RW_CTRL i hi

end Sys2Proof.Machine
end

