-- ==== Sys2Proof/Laws/Writes.lean ====
section
/-! SUPPORT. What a write or a read of each register that a command names comes to, once the device takes it: one lemma for the
shared path, and one for each register. -/

set_option Elab.async false

namespace Sys2Proof.Machine

/-- A write that the device takes reaches its block register. -/
theorem busWrite_block {d : Device} {src : Source} {a : Nat} {w : Word} {h : RegHit} (hg : d.reachable src)
    (ha : a % 4 = 0) (ht : targetOf a = .block h) : busWrite d src a 0xF w = d.writeBlock src h a w := by
  simp [busWrite, show d.gate src = .open_ from hg, Device.writeReg, wholeWord, ha, ht]

/-- The same for the TOP page, which BOOT answers too (R414). -/
theorem busWrite_top {d : Device} {src : Source} {a : Nat} {w : Word} {h : RegHit} (hg : d.topReachable src)
    (ha : a % 4 = 0) (hl : a < 0x10000) (ht : targetOf a = .block h) : busWrite d src a 0xF w = d.writeBlock src h a w := by
  rcases hg with hg | hg
  · exact busWrite_block hg ha ht
  · simp [busWrite, hg, Device.writeReg, wholeWord, ha, ht]
    omega

/-- A register that is written by itself, and not as part of a pair or a group (R11, R272). -/
def RegRow.oneWord (r : RegRow) : Bool :=
  !r.attrs.contains .pairLo && !r.attrs.contains .tripleLo && !r.attrs.contains .pairHi && !r.attrs.contains .tripleHi

/-- A block register that no rule withholds, and whose write acts, does what its hook says. -/
theorem writeBlock_hook {d e : Device} {src : Source} {a : Nat} {w : Word} {h : RegHit}
    (hf : d.fencedPage h.base h.inst = false) (hh : d.hiddenReg h = false) (hb : d.blocked h a = false)
    (hs : d.syncPage h = d) (ht : h.row.oneWord = true) (hk : d.hookWrite src h a w = some e) : d.writeBlock src h a w = e.settleWord h a := by
  simp only [RegRow.oneWord, Bool.and_eq_true, Bool.not_eq_true'] at ht
  simp [Device.writeBlock, hf, hh, hb, hs, ht, hk, -List.contains_eq_mem]

/-- The same for the HI half of a pair. -/
theorem writeBlock_pair {d : Device} {src : Source} {a : Nat} {w : Word} {h : RegHit}
    (hf : d.fencedPage h.base h.inst = false) (hh : d.hiddenReg h = false) (hb : d.blocked h a = false)
    (ht : (!h.row.attrs.contains .pairLo && !h.row.attrs.contains .tripleLo && h.row.attrs.contains .pairHi) = true) :
    d.writeBlock src h a w = ((d.syncPage h).commitPair src h a w).settleWord h a := by
  simp only [Bool.and_eq_true, Bool.not_eq_true'] at ht
  simp [Device.writeBlock, hf, hh, hb, ht, -List.contains_eq_mem]

/-- Off the galleries no configuration word is under repair. -/
theorem settleWord_off {d : Device} {h : RegHit} {a : Nat} (hp : galleryPage h.base = false) : d.settleWord h a = d := by
  simp [Device.settleWord, hp]

/-- A gallery all of whose words are in service has nothing to settle. -/
theorem settleWord_whole {d : Device} {h : RegHit} {a : Nat} (hw : d.wordsWhole h.inst) : d.settleWord h a = d := by
  by_cases hp : galleryPage h.base = true
  · simp [Device.settleWord, hp, (hw _).1, (hw _).2]
  · exact settleWord_off (by simpa using hp)

/-- A read that the device takes reaches its block register. -/
theorem busRead_block {d : Device} {src : Source} {a : Nat} {h : RegHit} (hg : d.reachable src)
    (ha : a % 4 = 0) (ht : targetOf a = .block h) :
    d.busRead src a 0xF = (some (d.readBlock src h a).1, (d.readBlock src h a).2) := by
  simp [Device.busRead, show d.gate src = .open_ from hg, Device.readReg, wholeWord, ha, ht]

/-- The data of a read is what its source read last. -/
theorem busReadStep_block {d : Device} {src : Source} {a : Nat} {h : RegHit} (hg : d.reachable src)
    (ha : a % 4 = 0) (ht : targetOf a = .block h) :
    busReadStep d src a 0xF = (d.readBlock src h a).2.readData src (d.readBlock src h a).1 := by
  simp only [busReadStep, busRead_block hg ha ht]
  cases src <;> rfl

theorem galleryPage_lane {c : Nat} (hc : c < 8) : galleryPage (0x200000 + c * 0x10000) = false := by
  simp [galleryPage]
  omega

theorem galleryPage_d2d {c : Nat} (hc : c < 8) : galleryPage (0x300000 + c * 0x10000) = false := by
  simp [galleryPage]
  omega

theorem write_TOP_BOOT_DL_CMD {d : Device} {src : Source} (hg : d.topReachable src) (w : Word) :
    busWrite d src A.TOP_BOOT_DL_CMD 0xF w = bootDlWrite d src w := by
  rw [busWrite_top hg (by decide) (by decide) target_TOP_BOOT_DL_CMD,
    writeBlock_hook rfl rfl rfl rfl rfl rfl, settleWord_off rfl]

theorem write_TOP_DEV_CTRL {d : Device} {src : Source} (hg : d.topReachable src) (w : Word) :
    busWrite d src A.TOP_DEV_CTRL 0xF w = devGoWrite d src w := by
  rw [busWrite_top hg (by decide) (by decide) target_TOP_DEV_CTRL,
    writeBlock_hook rfl rfl rfl rfl rfl rfl, settleWord_off rfl]

theorem write_TOP_RESET_CTRL {d : Device} {src : Source} (hg : d.topReachable src) (w : Word) :
    busWrite d src A.TOP_RESET_CTRL 0xF w = resetCtrlWrite d w := by
  rw [busWrite_top hg (by decide) (by decide) target_TOP_RESET_CTRL,
    writeBlock_hook rfl rfl rfl rfl rfl rfl, settleWord_off rfl]

theorem write_TOP_GAL_FENCE_REQ {d : Device} {src : Source} (hg : d.topReachable src) (w : Word) :
    busWrite d src A.TOP_GAL_FENCE_REQ 0xF w = fenceReqWrite d w := by
  rw [busWrite_top hg (by decide) (by decide) target_TOP_GAL_FENCE_REQ,
    writeBlock_hook rfl rfl rfl rfl rfl rfl, settleWord_off rfl]

theorem write_TOP_GEN_CTRL {d : Device} {src : Source} (hg : d.topReachable src) (w : Word) :
    busWrite d src A.TOP_GEN_CTRL 0xF w = genCtrlWrite d src w := by
  rw [busWrite_top hg (by decide) (by decide) target_TOP_GEN_CTRL,
    writeBlock_hook rfl rfl rfl rfl rfl rfl, settleWord_off rfl]

theorem write_TOP_SNAP_CTRL {d : Device} {src : Source} (hg : d.topReachable src) (w : Word) :
    busWrite d src A.TOP_SNAP_CTRL 0xF w = snapCtrlWrite d w := by
  rw [busWrite_top hg (by decide) (by decide) target_TOP_SNAP_CTRL,
    writeBlock_hook rfl rfl rfl rfl rfl rfl, settleWord_off rfl]

theorem write_TOP_SNAP_PERIOD {d : Device} {src : Source} (hg : d.topReachable src) (w : Word) :
    busWrite d src A.TOP_SNAP_PERIOD 0xF w = Sys2Proof.Machine.snapPeriodWrite d w := by
  rw [busWrite_top hg (by decide) (by decide) target_TOP_SNAP_PERIOD,
    writeBlock_hook rfl rfl rfl rfl rfl rfl, settleWord_off rfl]

theorem write_TOP_PROFILE {d : Device} {src : Source} (hg : d.topReachable src) (w : Word) :
    busWrite d src A.TOP_PROFILE 0xF w = profileStage d src w := by
  rw [busWrite_top hg (by decide) (by decide) target_TOP_PROFILE,
    writeBlock_hook rfl rfl rfl rfl rfl rfl, settleWord_off rfl]

theorem write_TOP_PARSE_BANK {d : Device} {src : Source} (hg : d.topReachable src) (w : Word) :
    busWrite d src A.TOP_PARSE_BANK 0xF w = parseBankWrite d w := by
  rw [busWrite_top hg (by decide) (by decide) target_TOP_PARSE_BANK,
    writeBlock_hook rfl rfl rfl rfl rfl rfl, settleWord_off rfl]

theorem write_TOP_BOOT_LOCK {d : Device} {src : Source} (hg : d.topReachable src) (w : Word) :
    busWrite d src A.TOP_BOOT_LOCK 0xF w = (if bit w.toNat 0 then { d with file := { d.file with locked := true } } else d) := by
  rw [busWrite_top hg (by decide) (by decide) target_TOP_BOOT_LOCK,
    writeBlock_hook rfl rfl rfl rfl rfl rfl, settleWord_off rfl]

theorem write_HALL_REP_CMD {d : Device} {src : Source} (hg : d.reachable src) (w : Word) :
    busWrite d src A.HALL_REP_CMD 0xF w = repCommand d src w := by
  rw [busWrite_block hg (by decide) target_HALL_REP_CMD,
    writeBlock_hook rfl rfl rfl rfl rfl rfl, settleWord_off rfl]

theorem write_KEYS_KEY_CMD {d : Device} {src : Source} (hg : d.reachable src) (w : Word) :
    busWrite d src A.KEYS_KEY_CMD 0xF w = keyCmdWrite d src w := by
  rw [busWrite_block hg (by decide) target_KEYS_KEY_CMD,
    writeBlock_hook rfl rfl rfl rfl rfl rfl, settleWord_off rfl]

theorem write_TIME_STEP_CTRL {d : Device} {src : Source} (hg : d.reachable src) (w : Word) :
    busWrite d src A.TIME_STEP_CTRL 0xF w = stepCtrlWrite d src w := by
  rw [busWrite_block hg (by decide) target_TIME_STEP_CTRL,
    writeBlock_hook rfl rfl rfl rfl rfl rfl, settleWord_off rfl]

theorem write_TIME_LEDGER_CTRL {d : Device} {src : Source} (hg : d.reachable src) (w : Word) :
    busWrite d src A.TIME_LEDGER_CTRL 0xF w = ledgerCtrlWrite d src w := by
  rw [busWrite_block hg (by decide) target_TIME_LEDGER_CTRL,
    writeBlock_hook rfl rfl rfl rfl rfl rfl, settleWord_off rfl]

theorem write_ANVIL_G_CFG {d : Device} {src : Source} (hg : d.reachable src) (w : Word) :
    busWrite d src A.ANVIL_G_CFG 0xF w = d.writeGroup src hit_ANVIL_G_CFG A.ANVIL_G_CFG w := by
  rw [busWrite_block hg (by decide) target_ANVIL_G_CFG,
    writeBlock_hook rfl rfl rfl rfl rfl rfl, settleWord_off rfl]

theorem write_TABLE_FFT_CFG {d : Device} {src : Source} (hg : d.reachable src) (w : Word) :
    busWrite d src A.TABLE_FFT_CFG 0xF w = (if F.TABLE_FFT_CFG_FLUSH.get w = 1 then (d.writeFields src hit_TABLE_FFT_CFG A.TABLE_FFT_CFG w).fftFlushAsk
      else d.writeFields src hit_TABLE_FFT_CFG A.TABLE_FFT_CFG w) := by
  rw [busWrite_block hg (by decide) target_TABLE_FFT_CFG,
    writeBlock_hook rfl rfl rfl rfl rfl rfl, settleWord_off rfl]

theorem write_TELEM_FS_CFG {d : Device} {src : Source} (hg : d.reachable src) (w : Word) :
    busWrite d src A.TELEM_FS_CFG 0xF w = (if F.TELEM_FS_CFG_FLUSH.get w = 1 then (d.writeFields src hit_TELEM_FS_CFG A.TELEM_FS_CFG w).flowFlushAsk
      else d.writeFields src hit_TELEM_FS_CFG A.TELEM_FS_CFG w) := by
  rw [busWrite_block hg (by decide) target_TELEM_FS_CFG,
    writeBlock_hook rfl rfl rfl rfl rfl rfl, settleWord_off rfl]

theorem write_TIME_TR_CTRL {d : Device} {src : Source} {i : Nat} (hg : d.reachable src) (hi : i < 4) (w : Word) :
    busWrite d src (A.TIME_TR_CTRL i) 0xF w = trCtrlWrite d src i w := by
  rw [busWrite_block hg (by simp only [A.TIME_TR_CTRL]; omega) (target_TIME_TR_CTRL hi),
    writeBlock_hook rfl rfl rfl rfl rfl rfl, settleWord_off rfl]
  rfl

theorem write_SEQ_RL_CMD {d : Device} {src : Source} {i : Nat} (hg : d.reachable src) (hi : i < 5) (w : Word) :
    busWrite d src (A.SEQ_RL_CMD i) 0xF w = rlCmdWrite d src (i + 1) w := by
  rw [busWrite_block hg (by simp only [A.SEQ_RL_CMD]; omega) (target_SEQ_RL_CMD hi),
    writeBlock_hook rfl rfl rfl rfl rfl rfl, settleWord_off rfl]
  rfl

theorem write_SEQ_SQ_CTRL {d : Device} {src : Source} {i : Nat} (hg : d.reachable src) (hi : i < 16) (w : Word) :
    busWrite d src (A.SEQ_SQ_CTRL i) 0xF w = sqCtrlWrite d src i w := by
  rw [busWrite_block hg (by simp only [A.SEQ_SQ_CTRL]; omega) (target_SEQ_SQ_CTRL hi),
    writeBlock_hook rfl rfl rfl rfl rfl rfl, settleWord_off rfl]
  rfl

theorem write_SEQ_SQ_MBOX_IN {d : Device} {src : Source} {i : Nat} (hg : d.reachable src) (hi : i < 16) (w : Word) :
    busWrite d src (A.SEQ_SQ_MBOX_IN i) 0xF w = Sys2Proof.Machine.mboxWrite d i w := by
  rw [busWrite_block hg (by simp only [A.SEQ_SQ_MBOX_IN]; omega) (target_SEQ_SQ_MBOX_IN hi),
    writeBlock_hook rfl rfl rfl rfl rfl rfl, settleWord_off rfl]
  rfl

theorem write_RINGS_RW_CTRL {d : Device} {src : Source} {i : Nat} (hg : d.reachable src) (hi : i < 512) (w : Word) :
    busWrite d src (A.RINGS_RW_CTRL i) 0xF w = ringCtrlWrite d src i w := by
  rw [busWrite_block hg (by simp only [A.RINGS_RW_CTRL]; omega) (target_RINGS_RW_CTRL hi),
    writeBlock_hook rfl rfl rfl rfl rfl rfl, settleWord_off rfl]
  rfl

theorem write_LANE_LN_CTRL {d : Device} {src : Source} {l : Nat} (hg : d.reachable src) (hl : l < 1024) (w : Word) :
    busWrite d src (ofLane A.LANE_LN_CTRL l) 0xF w = lnCtrlWrite d src l w := by
  have hc : l / 128 < 8 := by omega
  have h128 : 128 * (l / 128) + l % 128 = l := by omega
  rw [ofLane, busWrite_block hg (by simp only [A.LANE_LN_CTRL]; omega) (target_LANE_LN_CTRL hc (by omega)),
    writeBlock_hook (by simp [Device.fencedPage, hit_LANE_LN_CTRL, galleryPage_lane hc]) (by simp [Device.hiddenReg, hit_LANE_LN_CTRL]) rfl rfl rfl rfl, settleWord_off (by simp [hit_LANE_LN_CTRL, galleryPage_lane hc])]
  simp [hit_LANE_LN_CTRL, h128]

theorem write_LANE_LN_PRBS {d : Device} {src : Source} {l : Nat} (hg : d.reachable src) (hl : l < 1024) (w : Word) :
    busWrite d src (ofLane A.LANE_LN_PRBS l) 0xF w = lnPrbsWrite d src l w := by
  have hc : l / 128 < 8 := by omega
  have h128 : 128 * (l / 128) + l % 128 = l := by omega
  rw [ofLane, busWrite_block hg (by simp only [A.LANE_LN_PRBS]; omega) (target_LANE_LN_PRBS hc (by omega)),
    writeBlock_hook (by simp [Device.fencedPage, hit_LANE_LN_PRBS, galleryPage_lane hc]) (by simp [Device.hiddenReg, hit_LANE_LN_PRBS]) rfl rfl rfl rfl, settleWord_off (by simp [hit_LANE_LN_PRBS, galleryPage_lane hc])]
  simp [hit_LANE_LN_PRBS, h128]

theorem write_LANE_LN_INJ {d : Device} {src : Source} {l : Nat} (hg : d.reachable src) (hl : l < 1024) (w : Word) :
    busWrite d src (ofLane A.LANE_LN_INJ l) 0xF w = lnInjWrite d src l w := by
  have hc : l / 128 < 8 := by omega
  have h128 : 128 * (l / 128) + l % 128 = l := by omega
  rw [ofLane, busWrite_block hg (by simp only [A.LANE_LN_INJ]; omega) (target_LANE_LN_INJ hc (by omega)),
    writeBlock_hook (by simp [Device.fencedPage, hit_LANE_LN_INJ, galleryPage_lane hc]) (by simp [Device.hiddenReg, hit_LANE_LN_INJ]) rfl rfl rfl rfl, settleWord_off (by simp [hit_LANE_LN_INJ, galleryPage_lane hc])]
  simp [hit_LANE_LN_INJ, h128]

theorem write_LANE_LN_BITSLIP {d : Device} {src : Source} {l : Nat} (hg : d.reachable src) (hl : l < 1024) (w : Word) :
    busWrite d src (ofLane A.LANE_LN_BITSLIP l) 0xF w = lnBitslipWrite d src l w := by
  have hc : l / 128 < 8 := by omega
  have h128 : 128 * (l / 128) + l % 128 = l := by omega
  rw [ofLane, busWrite_block hg (by simp only [A.LANE_LN_BITSLIP]; omega) (target_LANE_LN_BITSLIP hc (by omega)),
    writeBlock_hook (by simp [Device.fencedPage, hit_LANE_LN_BITSLIP, galleryPage_lane hc]) (by simp [Device.hiddenReg, hit_LANE_LN_BITSLIP]) rfl rfl rfl rfl, settleWord_off (by simp [hit_LANE_LN_BITSLIP, galleryPage_lane hc])]
  simp [hit_LANE_LN_BITSLIP, h128]

theorem write_LANE_LN_BRINGUP {d : Device} {src : Source} {l : Nat} (hg : d.reachable src) (hh : d.innerLane l = false) (hl : l < 1024) (w : Word) :
    busWrite d src (ofLane A.LANE_LN_BRINGUP l) 0xF w = lnBringupWrite d src l w := by
  have hc : l / 128 < 8 := by omega
  have h128 : 128 * (l / 128) + l % 128 = l := by omega
  rw [ofLane, busWrite_block hg (by simp only [A.LANE_LN_BRINGUP]; omega) (target_LANE_LN_BRINGUP hc (by omega)),
    writeBlock_hook (by simp [Device.fencedPage, hit_LANE_LN_BRINGUP, galleryPage_lane hc]) (by simpa [Device.hiddenReg, hit_LANE_LN_BRINGUP, h128] using hh) rfl rfl rfl rfl, settleWord_off (by simp [hit_LANE_LN_BRINGUP, galleryPage_lane hc])]
  simp [hit_LANE_LN_BRINGUP, h128]

theorem write_D2D_LK_CTRL {d : Device} {src : Source} {k : Nat} (hg : d.reachable src) (hl : k < 128) (w : Word) :
    busWrite d src (ofLink A.D2D_LK_CTRL k) 0xF w = lkCtrlWrite d k w := by
  have hc : k / 16 < 8 := by omega
  have h16 : 16 * (k / 16) + k % 16 = k := by omega
  rw [ofLink, busWrite_block hg (by simp only [A.D2D_LK_CTRL]; omega) (target_D2D_LK_CTRL hc (by omega)),
    writeBlock_hook (by simp [Device.fencedPage, hit_D2D_LK_CTRL, galleryPage_d2d hc]) rfl rfl rfl rfl rfl, settleWord_off (by simp [hit_D2D_LK_CTRL, galleryPage_d2d hc])]
  simp [hit_D2D_LK_CTRL, h16]

theorem write_D2D_LK_SLIP {d : Device} {src : Source} {k : Nat} (hg : d.reachable src) (hl : k < 128) (w : Word) :
    busWrite d src (ofLink A.D2D_LK_SLIP k) 0xF w = lkSlipWrite d src k w := by
  have hc : k / 16 < 8 := by omega
  have h16 : 16 * (k / 16) + k % 16 = k := by omega
  rw [ofLink, busWrite_block hg (by simp only [A.D2D_LK_SLIP]; omega) (target_D2D_LK_SLIP hc (by omega)),
    writeBlock_hook (by simp [Device.fencedPage, hit_D2D_LK_SLIP, galleryPage_d2d hc]) rfl rfl rfl rfl rfl, settleWord_off (by simp [hit_D2D_LK_SLIP, galleryPage_d2d hc])]
  simp [hit_D2D_LK_SLIP, h16]

theorem wordsWhole_of_ras {d e : Device} {n : Nat} (h : e.ras = d.ras) (hw : d.wordsWhole n) : e.wordsWhole n := by
  intro a
  simpa [Device.wordDead, Device.wordPoisoned, h] using hw a

theorem galleryPage_sub {n s : Nat} (hn : n < 32) (hs : s < 16) :
    galleryPage (0x1000000 + n * 0x100000 + s * 0x10000) = true := by
  simp [galleryPage]
  omega

theorem write_PORT_PT_CFG {d : Device} {src : Source} {p : Nat} (hg : d.reachable src) (hp : p < 1024)
    (hf : d.isFenced (p / 32) = false) (hh : d.innerLane p = false) (w : Word)
    (hw : (ptCfgWrite d src p w).wordsWhole (p / 32)) :
    busWrite d src (ofPort A.PORT_PT_CFG p) 0xF w = ptCfgWrite d src p w := by
  have hc : p / 32 < 32 := by omega
  have h32 : 32 * (p / 32) + p % 32 = p := by omega
  have hk : d.hookWrite src (hit_PORT_PT_CFG (p / 32) (p % 32)) (A.PORT_PT_CFG (p / 32) (p % 32)) w =
      some (ptCfgWrite d src p w) := by simp [Device.hookWrite, hit_PORT_PT_CFG, h32]
  rw [ofPort, busWrite_block hg (by simp only [A.PORT_PT_CFG]; omega) (target_PORT_PT_CFG hc (by omega)),
    writeBlock_hook (by simp [Device.fencedPage, hit_PORT_PT_CFG, hf])
      (by simpa [Device.hiddenReg, hit_PORT_PT_CFG, h32] using hh) rfl rfl rfl hk]
  exact settleWord_whole hw

theorem write_GATE_GT_CTRL {d : Device} {src : Source} {p : Nat} (hg : d.reachable src) (hp : p < 1024)
    (hf : d.isFenced (p / 32) = false) (w : Word)
    (hw : (d.writeGateCtrl src (hit_GATE_GT_CTRL (p / 32) (p % 32)) (ofPort A.GATE_GT_CTRL p) w).wordsWhole (p / 32)) :
    busWrite d src (ofPort A.GATE_GT_CTRL p) 0xF w =
      d.writeGateCtrl src (hit_GATE_GT_CTRL (p / 32) (p % 32)) (ofPort A.GATE_GT_CTRL p) w := by
  have hc : p / 32 < 32 := by omega
  rw [ofPort, busWrite_block hg (by simp only [A.GATE_GT_CTRL]; omega) (target_GATE_GT_CTRL hc (by omega)),
    writeBlock_hook (by simp [Device.fencedPage, hit_GATE_GT_CTRL, hf]) rfl rfl rfl rfl rfl]
  exact settleWord_whole hw

theorem write_MATCH_ACT_CMD {d : Device} {src : Source} {n : Nat} (hg : d.reachable src) (hn : n < 32)
    (hf : d.isFenced n = false) (w : Word) (hw : (actCommand d src n w).wordsWhole n) :
    busWrite d src (A.MATCH_ACT_CMD n) 0xF w = actCommand d src n w := by
  rw [busWrite_block hg (by simp only [A.MATCH_ACT_CMD]; omega) (target_MATCH_ACT_CMD hn),
    writeBlock_hook (by simp [Device.fencedPage, hit_MATCH_ACT_CMD, hf]) rfl rfl rfl rfl rfl]
  exact settleWord_whole hw

theorem write_INTEG_SA_PN_HI {d : Device} {src : Source} {n : Nat} (hg : d.reachable src) (hn : n < 32)
    (hf : d.isFenced n = false) (w : Word)
    (hw : (d.commitPair src (hit_INTEG_SA_PN_HI n) (A.INTEG_SA_PN_HI n) w).wordsWhole n) :
    busWrite d src (A.INTEG_SA_PN_HI n) 0xF w = d.commitPair src (hit_INTEG_SA_PN_HI n) (A.INTEG_SA_PN_HI n) w := by
  rw [busWrite_block hg (by simp only [A.INTEG_SA_PN_HI]; omega) (target_INTEG_SA_PN_HI hn),
    writeBlock_pair (by simp [Device.fencedPage, hit_INTEG_SA_PN_HI, hf]) rfl rfl rfl]
  exact settleWord_whole hw

theorem write_RAS_RR_CFG {d : Device} {src : Source} (hg : d.reachable src) (hs : d.dev.state = .config) (w : Word) :
    busWrite d src A.RAS_RR_CFG 0xF w =
      (if F.RAS_RR_CFG_CLEAR.get w = 1 then rrClear (d.writeFields src hit_RAS_RR_CFG A.RAS_RR_CFG w) src
        else d.writeFields src hit_RAS_RR_CFG A.RAS_RR_CFG w) := by
  rw [busWrite_block hg (by decide) target_RAS_RR_CFG,
    writeBlock_hook rfl rfl (by simp [Device.blocked, hit_RAS_RR_CFG, hs]) rfl rfl rfl, settleWord_off rfl]

theorem write_CNT_PC_GCTL {d : Device} {src : Source} (hg : d.reachable src) (w : Word) :
    busWrite d src A.CNT_PC_GCTL 0xF w =
      (d.syncPage hit_CNT_PC_GCTL).writePcCtrl src hit_CNT_PC_GCTL A.CNT_PC_GCTL w := by
  rw [busWrite_block hg (by decide) target_CNT_PC_GCTL]
  simp [Device.writeBlock, Device.fencedPage, hit_CNT_PC_GCTL, galleryPage, Device.hiddenReg, Device.blocked, Device.hookWrite,
    Device.settleWord]

theorem write_GCNT_PC_GCTL {d : Device} {src : Source} {n : Nat} (hg : d.reachable src) (hn : n < 32)
    (hf : d.isFenced n = false) (w : Word)
    (hw : ((d.syncPage (hit_GCNT_PC_GCTL n)).writePcCtrl src (hit_GCNT_PC_GCTL n) (A.GCNT_PC_GCTL n) w).wordsWhole n) :
    busWrite d src (A.GCNT_PC_GCTL n) 0xF w =
      (d.syncPage (hit_GCNT_PC_GCTL n)).writePcCtrl src (hit_GCNT_PC_GCTL n) (A.GCNT_PC_GCTL n) w := by
  rw [busWrite_block hg (by simp only [A.GCNT_PC_GCTL]; omega) (target_GCNT_PC_GCTL hn)]
  refine Eq.trans ?_ (settleWord_whole (h := hit_GCNT_PC_GCTL n) (a := A.GCNT_PC_GCTL n) hw)
  simp [Device.writeBlock, Device.fencedPage, hit_GCNT_PC_GCTL, hf, Device.hiddenReg, Device.blocked, Device.hookWrite]

theorem write_CNT_PC_VAL_HI {d : Device} {src : Source} {i : Nat} (hg : d.reachable src) (hi : i < 16) (w : Word) :
    busWrite d src (A.CNT_PC_VAL_HI i) 0xF w =
      (d.syncPage (hit_CNT_PC_VAL_HI i)).commitPair src (hit_CNT_PC_VAL_HI i) (A.CNT_PC_VAL_HI i) w := by
  rw [busWrite_block hg (by simp only [A.CNT_PC_VAL_HI]; omega) (target_CNT_PC_VAL_HI hi),
    writeBlock_pair rfl rfl rfl rfl, settleWord_off rfl]

theorem write_GCNT_PC_VAL_HI {d : Device} {src : Source} {n i : Nat} (hg : d.reachable src) (hn : n < 32) (hi : i < 8)
    (hf : d.isFenced n = false) (w : Word)
    (hw : ((d.syncPage (hit_GCNT_PC_VAL_HI n i)).commitPair src (hit_GCNT_PC_VAL_HI n i) (A.GCNT_PC_VAL_HI n i) w).wordsWhole n) :
    busWrite d src (A.GCNT_PC_VAL_HI n i) 0xF w =
      (d.syncPage (hit_GCNT_PC_VAL_HI n i)).commitPair src (hit_GCNT_PC_VAL_HI n i) (A.GCNT_PC_VAL_HI n i) w := by
  rw [busWrite_block hg (by simp only [A.GCNT_PC_VAL_HI]; omega) (target_GCNT_PC_VAL_HI hn hi),
    writeBlock_pair (by simp [Device.fencedPage, hit_GCNT_PC_VAL_HI, hf]) rfl rfl rfl]
  exact settleWord_whole hw

end Sys2Proof.Machine
end

