-- ==== Sys2Proof/Laws/Reads.lean ====
section
/-! SUPPORT. What a read of each register that a command names comes to, once the device takes it. -/

set_option Elab.async false

namespace Sys2Proof.Machine

/-- A read of the TOP page, which BOOT answers too (R414). -/
theorem busReadStep_top {d : Device} {src : Source} {a : Nat} {h : RegHit} (hg : d.topReachable src)
    (ha : a % 4 = 0) (hl : a < 0x10000) (ht : targetOf a = .block h) :
    busReadStep d src a 0xF = (d.readBlock src h a).2.readData src (d.readBlock src h a).1 := by
  rcases hg with hg | hg
  · exact busReadStep_block hg ha ht
  · have e : d.busRead src a 0xF = (some (d.readBlock src h a).1, (d.readBlock src h a).2) := by
      have hn : ¬ 0x10000 ≤ a := by omega
      simp [Device.busRead, hg, Device.readReg, wholeWord, ha, ht, hn]
    simp only [busReadStep, e]
    cases src <;> rfl

/-- A register whose read does more than return a value. -/
theorem readBlock_special {d : Device} {src : Source} {a : Nat} {h : RegHit} {r : Nat × Device}
    (hf : d.fencedPage h.base h.inst = false) (hh : d.hiddenReg h = false) (hk : (d.syncPage h).specialRead src h a = some r) :
    d.readBlock src h a = r := by simp [Device.readBlock, hf, hh, hk]

/-- The first word of a group. -/
theorem readBlock_group {d : Device} {src : Source} {a : Nat} {h : RegHit}
    (hf : d.fencedPage h.base h.inst = false) (hh : d.hiddenReg h = false) (hs : d.syncPage h = d)
    (hk : d.specialRead src h a = none) (hg : h.row.attrs.contains .group0 = true) :
    d.readBlock src h a = d.groupRead src h a := by
  simp only [List.contains_eq_mem, decide_eq_true_eq] at hg
  simp [Device.readBlock, hf, hh, hs, hk, hg]

theorem read_TOP_SNAP_CTRL {d : Device} {src : Source} (hg : d.topReachable src) :
    busReadStep d src A.TOP_SNAP_CTRL 0xF = ({ d with snap := { d.snap with merged := 0 } }).readData src d.snapCtrl := by
  rw [busReadStep_top hg (by decide) (by decide) target_TOP_SNAP_CTRL, readBlock_special rfl rfl rfl]
  rfl

theorem read_DAMPER_PEAK {d : Device} {src : Source} (hg : d.reachable src) :
    busReadStep d src A.DAMPER_PEAK 0xF =
      ({ d with damper := { d.damper with peakW := 0 } }).readData src (d.damper.peakW % 4096) := by
  rw [busReadStep_block hg (by decide) target_DAMPER_PEAK, readBlock_special rfl rfl rfl]
  rfl

theorem read_DAMPER_TEMP {d : Device} {src : Source} (hg : d.reachable src) :
    busReadStep d src A.DAMPER_TEMP 0xF = ({ d with damper := { d.damper with tjPeak := 0 } }).readData src
      (d.damper.tj % 256 + d.damper.tjPeak % 256 * 256 + d.damper.sensor % 128 * 2 ^ 16) := by
  rw [busReadStep_block hg (by decide) target_DAMPER_TEMP, readBlock_special rfl rfl rfl]
  rfl

theorem read_RAS_LOG {d : Device} {src : Source} (hg : d.reachable src) :
    busReadStep d src (A.RAS_LOG 0) 0xF = d.logPop.2.readData src d.logPop.1 := by
  rw [busReadStep_block hg (by decide) (target_RAS_LOG (by decide)), readBlock_special rfl rfl rfl]
  rfl

theorem read_RAS_LOG_STAT {d : Device} {src : Source} (hg : d.reachable src) :
    busReadStep d src A.RAS_LOG_STAT 0xF = ({ d with ras := { d.ras with logOvf := 0 } }).readData src
      (d.ras.log.length + d.ras.logOvf * 512) := by
  rw [busReadStep_block hg (by decide) target_RAS_LOG_STAT, readBlock_special rfl rfl rfl]
  rfl

theorem read_STAIR_STAT {d : Device} {src : Source} {n : Nat} (hg : d.reachable src) (hn : n < 32) (hf : d.isFenced n = false) :
    busReadStep d src (A.STAIR_STAT n) 0xF =
      ({ d with pkt := { d.pkt with stairPeak := tnatSet d.pkt.stairPeak n (d.stairDepth n) } }).readData src
        (d.stairDepth n + max (d.stairDepth n) (tnat d.pkt.stairPeak n) * 512) := by
  rw [busReadStep_block hg (by simp only [A.STAIR_STAT]; omega) (target_STAIR_STAT hn),
    readBlock_special (by simp [Device.fencedPage, hit_STAIR_STAT, hf]) rfl rfl]
  rfl

theorem syncPage_counted {d : Device} {n i : Nat} : d.syncPage (hit_GCNT_SMP n i) = d.counted (some n) := rfl

theorem read_GCNT_SMP {d : Device} {src : Source} {n : Nat} (hg : d.reachable src) (hn : n < 32) (hf : d.isFenced n = false) :
    busReadStep d src (A.GCNT_SMP n 0) 0xF =
      (((d.counted (some n)).samplePop n).2.latchRest src (A.GCNT_SMP n 0 + 4) (((d.counted (some n)).samplePop n).1.drop 1)).readData
        src (((d.counted (some n)).samplePop n).1.headD 0) := by
  rw [busReadStep_block hg (by simp only [A.GCNT_SMP]; omega) (target_GCNT_SMP hn (by decide)),
    readBlock_special (by simp [Device.fencedPage, hit_GCNT_SMP, hf]) rfl rfl]
  rfl

theorem read_TIME_NOW_FRAC {d : Device} {src : Source} (hg : d.reachable src) :
    busReadStep d src A.TIME_NOW_FRAC 0xF =
      (d.latchRest src (A.TIME_NOW_FRAC + 4) (d.nowWords.drop 1)).readData src (d.nowWords.headD 0) := by
  rw [busReadStep_block hg (by decide) target_TIME_NOW_FRAC, readBlock_group rfl rfl rfl rfl rfl]
  rfl

theorem read_TIME_EV_FRAC {d : Device} {src : Source} {k : Nat} (hg : d.reachable src) (hk : k < 4) :
    busReadStep d src (A.TIME_EV_FRAC k) 0xF =
      ((d.evtPop k).2.latchRest src (A.TIME_EV_FRAC k + 4) ((d.evtPop k).1.drop 1)).readData src ((d.evtPop k).1.headD 0) := by
  rw [busReadStep_block hg (by simp only [A.TIME_EV_FRAC]; omega) (target_TIME_EV_FRAC hk), readBlock_group rfl rfl rfl rfl rfl]
  rfl

theorem read_TIME_PPS_IN_CAP_FRAC {d : Device} {src : Source} {k : Nat} (hg : d.reachable src) (hk : k < 2) :
    busReadStep d src (A.TIME_PPS_IN_CAP_FRAC k) 0xF =
      (d.latchRest src (A.TIME_PPS_IN_CAP_FRAC k + 4)
        ((((d.pulse.ppsIn.getD k none).map Capture.words).getD [0, 0, 0, 0]).drop 1)).readData src
        ((((d.pulse.ppsIn.getD k none).map Capture.words).getD [0, 0, 0, 0]).headD 0) := by
  rw [busReadStep_block hg (by simp only [A.TIME_PPS_IN_CAP_FRAC]; omega) (target_TIME_PPS_IN_CAP_FRAC hk),
    readBlock_group rfl rfl rfl rfl rfl]
  rfl

/-- The data of a read is what it answered. -/
theorem lastRead_readData (d : Device) (src : Source) (v : Nat) : (d.readData src v).lastRead src = BitVec.ofNat 32 v := by
  cases src <;> rfl

/-- Latching the rest of a group changes the register file only. -/
theorem latchRest_file (d : Device) (src : Source) (a : Nat) (ws : List Nat) : ∃ f, d.latchRest src a ws = { d with file := f } :=
  foldl_rel (R := fun a b => ∃ f, b = { a with file := f }) (fun d => ⟨d.file, rfl⟩)
    (fun a b c ⟨f, e⟩ ⟨f', e'⟩ => ⟨f', by rw [e', e]⟩) (fun d r => ⟨_, rfl⟩) _ d

theorem readData_file (d : Device) (src : Source) (v : Nat) : ∃ f, d.readData src v = { d with file := f } := by
  cases src <;> exact ⟨_, rfl⟩

/-- The page that an offset within a page lies on (R351). -/
theorem pageOf_within (ix o : Nat) (ho : o < 65536) : pageOf (ix * 65536 + o) = pageOf (ix * 65536) := by
  have h1 : (ix * 65536 + o) / 65536 = ix := by omega
  have h2 : ix * 65536 / 65536 = ix := Nat.mul_div_cancel _ (by decide)
  have c1 : (ix * 65536 + o < 0xF0000) ↔ (ix * 65536 < 0xF0000) := by omega
  have c2 : (0x100000 ≤ ix * 65536 + o ∧ ix * 65536 + o < 0x120000) ↔
      (0x100000 ≤ ix * 65536 ∧ ix * 65536 < 0x120000) := by omega
  have c3 : (0x200000 ≤ ix * 65536 + o ∧ ix * 65536 + o < 0x280000) ↔
      (0x200000 ≤ ix * 65536 ∧ ix * 65536 < 0x280000) := by omega
  have c4 : (0x300000 ≤ ix * 65536 + o ∧ ix * 65536 + o < 0x380000) ↔
      (0x300000 ≤ ix * 65536 ∧ ix * 65536 < 0x380000) := by omega
  have c5 : (0x1000000 ≤ ix * 65536 + o ∧ ix * 65536 + o < 0x3000000) ↔
      (0x1000000 ≤ ix * 65536 ∧ ix * 65536 < 0x3000000) := by omega
  unfold pageOf
  simp only [h1, h2, c1, c2, c3, c4, c5]

end Sys2Proof.Machine
end

