-- ==== Sys2Proof/Laws/Run.lean ====
section
/-! SUPPORT. How a command completes: from the shape of its meaning to the statements of Safety.lean. -/

namespace Sys2Proof.Machine

theorem run_eq {s : State} {c : Instr} {f : Device → Device} (hw : c.wf = true) :
    s.run c f = .next { s with dev := f s.dev } := by simp [State.run, hw]

theorem onClock_eq {s : State} {c : Instr} {f : Device → Device} (hw : c.wf = true) (hc : s.dev.clocked = true) :
    s.onClock c f = .next { s with dev := f s.dev } := by simp [State.onClock, State.run, hw, hc]

/-- With the core clock stopped, an event on that clock changes nothing. -/
theorem onClock_stopped {s : State} {c : Instr} {f : Device → Device} (hw : c.wf = true) (hc : s.dev.clocked = false) :
    s.onClock c f = .next s := by simp [State.onClock, State.run, hw, hc]

theorem completes_run {c : Instr} {s : State} {f : Device → Device} {P : Device → Prop} (he : exec c s = s.run c f)
    (hw : c.wf = true) (hp : P (f s.dev)) : Completes c s P :=
  ⟨{ s with dev := f s.dev }, by rw [he, run_eq hw], rfl, hp⟩

theorem completes_clock {c : Instr} {s : State} {f : Device → Device} {P : Device → Prop} (he : exec c s = s.onClock c f)
    (hw : c.wf = true) (hc : s.dev.clocked = true) (hp : P (f s.dev)) : Completes c s P :=
  ⟨{ s with dev := f s.dev }, by rw [he, onClock_eq hw hc], rfl, hp⟩

theorem makes_run {c : Instr} {s : State} {f g : Device → Device} (he : exec c s = s.run c f) (hw : c.wf = true)
    (hg : f s.dev = g s.dev) : Makes c s g := by rw [Makes, he, run_eq hw, hg]

theorem makes_clock {c : Instr} {s : State} {f g : Device → Device} (he : exec c s = s.onClock c f) (hw : c.wf = true)
    (hc : s.dev.clocked = true) (hg : f s.dev = g s.dev) : Makes c s g := by rw [Makes, he, onClock_eq hw hc, hg]

end Sys2Proof.Machine
end

