-- ==== Sys2Proof/Laws/Units.lean ====
section
/-! SUPPORT. What the functions of each unit do and leave, said once for the proofs that meet them. -/

set_option linter.all false
set_option Elab.async false

namespace Sys2Proof.Machine

theorem raise_wf {d : Device} (hw : tabWf regReset d.file.regs = true) (b n : Nat) : tabWf regReset (d.raise b n).file.regs = true := by
  rw [Device.raise_reg]
  exact Device.setReg_wf hw _ _

/-- Raising an event sets its bit of IRQ_STAT and no other (R354). -/
theorem raise_bit {d : Device} (hw : tabWf regReset d.file.regs = true) (b n k : Nat) (hk : k < 32) :
    bit ((d.raise b n).reg (b + 0x10)).toNat k = (bit (d.reg (b + 0x10)).toNat k || decide (k = n)) := by
  have e : (d.raise b n).reg (b + 0x10) = d.reg (b + 0x10) ||| BitVec.ofNat 32 (2 ^ n) := by
    rw [Device.reg, Device.raise_reg]
    exact Device.reg_setReg_same hw _ _
  rw [e]
  simp only [bit, BitVec.toNat_or, Nat.testBit_or, BitVec.toNat_ofNat, Nat.testBit_mod_two_pow, Nat.testBit_two_pow, hk,
    decide_true, Bool.true_and]
  congr 1
  exact decide_eq_decide.2 eq_comm

/-- Forcing a list of events sets their bits and no other. -/
theorem raiseAll_bit (l : List Nat) {d : Device} (hw : tabWf regReset d.file.regs = true) (b k : Nat) (hk : k < 32) :
    bit ((l.foldl (fun d n => d.raise b n) d).reg (b + 0x10)).toNat k = (bit (d.reg (b + 0x10)).toNat k || l.contains k) := by
  induction l generalizing d with
  | nil => simp
  | cons n t ih =>
    rw [List.foldl_cons, ih (raise_wf hw b n), raise_bit hw b n k hk]
    simp only [List.contains_cons, Bool.or_assoc]
    rfl

theorem errWord_wf {d : Device} (hw : tabWf regReset d.file.regs = true) (b : Nat) (w : Word) :
    tabWf regReset (d.errWord b w).file.regs = true := by
  unfold Device.errWord
  extract_lets n e
  refine Device.setReg_wf ?_ _ _
  by_cases h : n = 0
  · rw [show e = _ from if_pos h]
    exact Device.setReg_wf hw _ _
  · rw [show e = _ from if_neg h]
    exact hw

theorem err_wf {d : Device} (hw : tabWf regReset d.file.regs = true) (b o : Nat) (k : ErrKind) (s : Source) :
    tabWf regReset (d.err b o k s).file.regs = true := errWord_wf hw b _

/-- An event that is raised stands in IRQ_STAT. -/
theorem irqSet_raise {d : Device} (hw : tabWf regReset d.file.regs = true) (b n : Nat) (hn : n < 32) : (d.raise b n).irqSet b n = true := by
  unfold Device.irqSet
  rw [raise_bit hw b n n hn]
  simp

/-- And it stands there after any other event. -/
theorem irqSet_keep {d : Device} (hw : tabWf regReset d.file.regs = true) (b n k : Nat) (hk : k < 32) (h : d.irqSet b k = true) :
    (d.raise b n).irqSet b k = true := by
  unfold Device.irqSet at *
  rw [raise_bit hw b n k hk, h]
  rfl

theorem viaWrite_src {d : Device} {src : Source} {a : Nat} {w : Word} : d.viaWrite (viaOf src) a 0xF w = busWrite d src a 0xF w := by
  cases src <;> rfl

theorem viaRead_src {d : Device} {src : Source} {a : Nat} : d.viaRead (viaOf src) a 0xF = busReadStep d src a 0xF := by
  cases src <;> rfl

/-- A register whose writes only store is written by the access types of its fields (R7). -/
theorem writeBlock_plain {d : Device} {src : Source} {a : Nat} {w : Word} {h : RegHit}
    (hf : d.fencedPage h.base h.inst = false) (hh : d.hiddenReg h = false) (hb : d.blocked h a = false)
    (hs : d.syncPage h = d) (ht : h.row.oneWord = true) (hk : d.hookWrite src h a w = none) :
    d.writeBlock src h a w = (d.writeFields src h a w).settleWord h a := by
  simp only [RegRow.oneWord, Bool.and_eq_true, Bool.not_eq_true'] at ht
  simp [Device.writeBlock, hf, hh, hb, hs, ht, hk, -List.contains_eq_mem]

theorem recordAt_file (d : Device) (src : Source) (h : RegHit) (a : Nat) (k : ErrKind) :
    ∃ f, d.recordAt src h a k = { d with file := f } := by
  unfold Device.recordAt
  split <;> exact Device.err_file _ _ _ _ _

theorem recordAt_wf {d : Device} (hw : tabWf regReset d.file.regs = true) (src : Source) (h : RegHit) (a : Nat) (k : ErrKind) :
    tabWf regReset (d.recordAt src h a k).file.regs = true := by
  unfold Device.recordAt
  split <;> exact err_wf hw _ _ _ _

/-- A store leaves the word at the register's key, and changes the register file only, and what the integrity engine keeps of
its past words. -/
theorem store_reg {d : Device} (hw : tabWf regReset d.file.regs = true) (h : RegHit) (a v : Nat) :
    (d.store h a v).reg (d.keyOf h a) = BitVec.ofNat 32 v ∧ ∃ f i, d.store h a v = { d with file := f, integ := i } := by
  unfold Device.store
  extract_lets k e
  have he : ∃ i, e = { d with integ := i } := by
    dsimp only [e]
    split
    · exact ⟨_, rfl⟩
    · exact ⟨d.integ, rfl⟩
  clear_value e
  obtain ⟨i, rfl⟩ := he
  split
  · exact ⟨tabGet_tabSet_same _ _ hw, _, _, rfl⟩
  · exact ⟨tabGet_tabSet_same _ _ hw, _, _, rfl⟩

/-- Whether a register stands behind a selector does not depend on the state. -/
theorem selOf_none {d e : Device} {h : RegHit} (hs : d.selOf h = none) : e.selOf h = none := by
  unfold Device.selOf at *
  simp only [] at *
  split at hs
  · contradiction
  split at hs
  · contradiction
  split at hs
  · contradiction
  split at hs
  · contradiction
  split at hs
  · contradiction
  split at hs
  · contradiction
  · simp_all

theorem writeFields_reg {d : Device} (hw : tabWf regReset d.file.regs = true) (src : Source) (h : RegHit) (a : Nat) (w : Word)
    (hs : d.selOf h = none ∨ (h.row.written d.file.locked (d.reg (d.keyOf h a)).toNat w.toNat).2 = false) :
    (d.writeFields src h a w).reg (d.keyOf h a) =
      BitVec.ofNat 32 (h.row.written d.file.locked (d.reg (d.keyOf h a)).toNat w.toNat).1 ∧
      ∃ f i, d.writeFields src h a w = { d with file := f, integ := i } := by
  unfold Device.writeFields
  generalize hr : h.row.written d.file.locked (d.reg (d.keyOf h a)).toNat w.toNat = r at *
  obtain ⟨v, l⟩ := r
  simp only []
  cases l
  · exact store_reg hw h a v
  · have hn : d.selOf h = none := by
      rcases hs with hs | hs
      · exact hs
      · cases hs
    obtain ⟨h1, g, i, e⟩ := store_reg (recordAt_wf hw src h a .locked) h a v
    obtain ⟨f, e'⟩ := recordAt_file d src h a .locked
    have k1 : d.keyOf h a = a := by simp [Device.keyOf, hn]
    have k2 : (d.recordAt src h a .locked).keyOf h a = a := by simp [Device.keyOf, selOf_none (e := d.recordAt src h a .locked) hn]
    rw [k2] at h1
    rw [k1, if_pos rfl]
    exact ⟨h1, g, i, by rw [e, e']⟩

/-- The base of a page with a header is that of its index (R351). -/
theorem pageOf_base {ix inst base : Nat} {p : Page} (hp : pageOf (ix * 65536) = some (p, inst, base)) (hr : p ≠ .rings) :
    base = ix * 65536 := by
  have h2 : ix * 65536 / 65536 = ix := Nat.mul_div_cancel _ (by decide)
  unfold pageOf at hp
  simp only [h2] at hp
  split at hp
  · split at hp <;> simp_all <;> omega
  split at hp
  · simp_all
  split at hp
  · simp_all
  split at hp
  · simp_all
  split at hp
  · rw [Option.map_eq_some_iff] at hp
    obtain ⟨q, -, e⟩ := hp
    simp_all
  · contradiction

theorem pageOf_ne_rings {ix inst base : Nat} {p : Page} (hi : headerPage ix = true)
    (hp : pageOf (pageBase ix) = some (p, inst, base)) : p ≠ .rings := by
  unfold headerPage at hi
  rw [show ix * 0x10000 = pageBase ix from rfl, hp] at hi
  simpa using hi

theorem pageOf_lt {a inst base : Nat} {p : Page} (hp : pageOf a = some (p, inst, base)) : a < 0x4000000 := by
  unfold pageOf at hp
  simp only [] at hp
  split at hp
  · omega
  split at hp
  · omega
  split at hp
  · omega
  split at hp
  · omega
  split at hp
  · omega
  · contradiction

/-- The header register at an offset of a page (R351, R354). -/
theorem targetOf_header {ix o inst base : Nat} {p : Page} (hi : headerPage ix = true)
    (hp : pageOf (pageBase ix) = some (p, inst, base)) (ho : o < 0x100) : targetOf (pageBase ix + o) = .header p inst base o := by
  have hr := pageOf_ne_rings hi hp
  have hb : base = pageBase ix := pageOf_base hp hr
  have hl := pageOf_lt hp
  have hq : pageOf (pageBase ix + o) = some (p, inst, base) := by
    rw [show pageBase ix = ix * 65536 from rfl, pageOf_within ix o (by omega)]
    exact hp
  have hlt := pageOf_lt hq
  have h1 : ¬(0x4000000 ≤ pageBase ix + o ∧ pageBase ix + o < 0x8000000) := by omega
  have h2 : p ≠ .rings ∧ pageBase ix + o - base < 0x100 := ⟨hr, by omega⟩
  have h3 : pageBase ix + o - base = o := by omega
  simp only [targetOf, if_neg h1, hq, h3, if_pos (⟨hr, ho⟩ : p ≠ .rings ∧ o < 0x100)]

/-- A header write that the device takes. -/
theorem write_header {d : Device} {src : Source} {ix o inst base : Nat} {p : Page} {w : Word} (hg : d.reachable src)
    (hi : headerPage ix = true) (hp : pageOf (pageBase ix) = some (p, inst, base)) (ho : o < 0x100) (h4 : o % 4 = 0) :
    busWrite d src (pageBase ix + o) 0xF w = d.headerWrite src p inst base o w := by
  have ha : (pageBase ix + o) % 4 = 0 := by unfold pageBase; omega
  simp [busWrite, show d.gate src = .open_ from hg, Device.writeReg, wholeWord, ha, targetOf_header hi hp ho]

/-- CLR_ALL asks for the page to be cleared at the boundary (R365). -/
theorem writePcCtrl_clear {d : Device} (src : Source) (h : RegHit) (a : Nat) (w : Word) (hw : bit w.toNat 1 = true) :
    h.base ∈ (d.writePcCtrl src h a w).perf.clearAll := by
  simp [Device.writePcCtrl, hw]

theorem store_file (d : Device) (h : RegHit) (a v : Nat) : ∃ f i, d.store h a v = { d with file := f, integ := i } := by
  unfold Device.store
  extract_lets k e
  have he : ∃ i, e = { d with integ := i } := by
    dsimp only [e]
    split
    · exact ⟨_, rfl⟩
    · exact ⟨d.integ, rfl⟩
  clear_value e
  obtain ⟨i, rfl⟩ := he
  split <;> exact ⟨_, _, rfl⟩

theorem writeFields_file (d : Device) (src : Source) (h : RegHit) (a : Nat) (w : Word) :
    ∃ f i, d.writeFields src h a w = { d with file := f, integ := i } := by
  unfold Device.writeFields
  generalize h.row.written d.file.locked (d.reg (d.keyOf h a)).toNat w.toNat = r
  obtain ⟨v, l⟩ := r
  simp only []
  cases l
  · exact store_file d h a v
  · obtain ⟨f, e⟩ := recordAt_file d src h a .locked
    obtain ⟨g, i, e'⟩ := store_file (d.recordAt src h a .locked) h a v
    rw [if_pos rfl]
    exact ⟨g, i, by rw [e', e]⟩

theorem writePcCtrl_ras (d : Device) (src : Source) (h : RegHit) (a : Nat) (w : Word) : (d.writePcCtrl src h a w).ras = d.ras := by
  obtain ⟨f, i, e⟩ := writeFields_file d src h a w
  unfold Device.writePcCtrl
  rw [e]
  split <;> rfl

theorem tornRecord_2 (d : Device) : ∃ n, d.tornRecord.2 = { d with freeCtr := n } := by
  unfold Device.tornRecord
  split
  · exact ⟨_, rfl⟩
  · exact ⟨_, rfl⟩

theorem ringIdle_host (d : Device) (r : Nat) : ∃ h f b, d.ringIdle r = { d with host := h, file := f, budget := b } := by
  have hn : ∀ (d : Device) (a i t : Nat), ∃ b, d.noWait a i t = { d with budget := b } := fun _ _ _ _ => ⟨_, rfl⟩
  obtain ⟨b, e⟩ : ∃ b, d.ringNoWait r = { d with budget := b } := by
    obtain ⟨b1, e1⟩ := hn d 0x0E (d.ringCtl r F.RINGS_RW_CTRL_CLASS) (2 * r)
    obtain ⟨b2, e2⟩ := hn (d.noWait 0x0E (d.ringCtl r F.RINGS_RW_CTRL_CLASS) (2 * r)) 0x0E (d.ringCtl r F.RINGS_RW_CTRL_CLASS) (2 * r + 1)
    exact ⟨b2, e2.trans (by rw [e1])⟩
  unfold Device.ringIdle
  rw [e]
  exact ⟨_, _, b, rfl⟩

theorem stopRing_host (d : Device) (r : Nat) : ∃ h f b, d.stopRing r = { d with host := h, file := f, budget := b } := by
  unfold Device.stopRing
  obtain ⟨h, f, b, e⟩ := ringIdle_host (d.modRing r fun s => { s with jobs := [] }) r
  rw [e]
  exact ⟨_, f, b, rfl⟩

theorem stopRings_host (d : Device) : ∃ h f b, d.stopRings = { d with host := h, file := f, budget := b } :=
  foldl_rel (R := fun a b => ∃ h f u, b = { a with host := h, file := f, budget := u }) (f := Device.stopRing)
    (fun d => ⟨d.host, d.file, d.budget, rfl⟩)
    (fun a b c ⟨h, f, u, e⟩ ⟨h', f', u', e'⟩ => ⟨h', f', u', by rw [e', e]⟩) stopRing_host _ d

/-- Squelching the recovered clocks changes nothing but their outputs. -/
theorem squelch_shape (d : Device) : ∃ p s, d.squelch = { d with pulse := p, sent := s } :=
  foldl_rel (R := fun a b => ∃ p s, b = { a with pulse := p, sent := s }) (fun d => ⟨d.pulse, d.sent, rfl⟩)
    (fun a b c ⟨p, s, e⟩ ⟨p', s', e'⟩ => ⟨p', s', by rw [e', e]⟩)
    (fun d k => by
      split
      · exact ⟨d.pulse, d.sent, rfl⟩
      · exact ⟨_, _, rfl⟩) _ d

/-- Driving the time outputs low changes nothing but those outputs. -/
theorem timeLow_shape (d : Device) : ∃ p s, d.timeLow = { d with pulse := p, sent := s } := by
  unfold Device.timeLow
  obtain ⟨p, s, e⟩ : ∃ p s, (List.range 2).foldl Device.ppsLower d = { d with pulse := p, sent := s } :=
    foldl_rel (R := fun a b => ∃ p s, b = { a with pulse := p, sent := s }) (fun d => ⟨d.pulse, d.sent, rfl⟩)
      (fun a b c ⟨p, s, e⟩ ⟨p', s', e'⟩ => ⟨p', s', by rw [e', e]⟩)
      (fun d k => by
        unfold Device.ppsLower
        split
        · exact ⟨_, _, rfl⟩
        · exact ⟨d.pulse, d.sent, rfl⟩) _ d
  obtain ⟨p', s', e'⟩ := squelch_shape ((List.range 2).foldl Device.ppsLower d)
  exact ⟨p', s', by rw [e', e]⟩

theorem failDownload_eq (d : Device) : d.failDownload.dev = d.dev ∧ d.failDownload.host = d.host ∧ d.failDownload.gen = d.gen ∧
    d.failDownload.lane = d.lane ∧ d.failDownload.boot.perstLow = d.boot.perstLow := by
  unfold Device.failDownload
  split <;> exact ⟨rfl, rfl, rfl, rfl, rfl⟩

theorem hostReset_eq (d : Device) : d.hostReset.dev = d.dev ∧ d.hostReset.host.rings = [] ∧ d.hostReset.gen = d.gen ∧
    d.hostReset.lane = d.lane ∧ d.hostReset.boot.perstLow = d.boot.perstLow := by
  obtain ⟨h, f, b, e⟩ := stopRings_host d
  obtain ⟨h1, h2, h3, h4, h5⟩ := failDownload_eq d.stopRings.clearHost
  unfold Device.hostReset
  rw [h1, h2, h3, h4, h5, e]
  exact ⟨rfl, rfl, rfl, rfl, rfl⟩

theorem warmKeep_eq (n d : Device) : (n.warmKeep d).dev = n.dev ∧ (n.warmKeep d).boot = n.boot ∧ (n.warmKeep d).sent = n.sent := by
  unfold Device.warmKeep
  extract_lets
  refine ⟨?_, ?_, ?_⟩
  · exact foldl_frame (·.dev) (fun d (e : Nat × Nat) => Device.countN_dev d e.1 e.2) _ _
  · exact foldl_frame (·.boot) (fun d (e : Nat × Nat) => Device.countN_boot d e.1 e.2) _ _
  · exact foldl_frame (·.sent) (fun d (e : Nat × Nat) => Device.countN_sent d e.1 e.2) _ _

theorem fullReset_eq (d : Device) (w : Bool) : (d.fullReset w).boot.perstLow = d.boot.perstLow ∧ (d.fullReset w).dev = {} := by
  unfold Device.fullReset
  extract_lets d1 st d2 d3
  have h3 : d3.boot.perstLow = d.boot.perstLow := by
    dsimp only [d3]
    cases w
    · obtain ⟨p, s, e⟩ := timeLow_shape d2
      rw [if_neg (by decide), e]
      rfl
    · obtain ⟨p, s, e⟩ := squelch_shape d2
      rw [if_pos rfl, e]
      rfl
  clear_value d3
  obtain ⟨n, h⟩ := tornRecord_2 d3
  simp only [h]
  cases w
  · exact ⟨h3, rfl⟩
  · simp only [if_true, warmKeep_eq]
    exact ⟨h3, rfl⟩

theorem fullReset_cold (d : Device) : (d.fullReset false).file.regs = [] := rfl

theorem clocked_of_config {d : Device} (h : d.dev.state = .config) : d.clocked = true := by simp [Device.clocked, h]

theorem toState_state (d : Device) (st : DevState) : (d.toState st).dev.state = st := by
  unfold Device.toState
  split
  · assumption
  · simp

theorem toState_shape (d : Device) (st : DevState) : ∃ f, d.toState st = { d with dev := { d.dev with state := st }, file := f } := by
  unfold Device.toState
  split
  · rename_i h
    exact ⟨d.file, by rw [← h]⟩
  · obtain ⟨f, h⟩ := ({ d with dev := { d.dev with state := st } } : Device).raise_file 0 0
    exact ⟨f, h⟩

theorem modRole_frame {d : Device} (l : List (Nat × SeqBank)) :
    ∃ q, l.foldl (fun d b => d.modRole b.1 fun v => v.setIdle b.2) d = { d with seq := q } :=
  foldl_rel (R := fun a b => ∃ q, b = { a with seq := q }) (fun d => ⟨d.seq, rfl⟩)
    (fun a b c ⟨h, e⟩ ⟨h', e'⟩ => ⟨h', by rw [e', e]⟩) (fun d r => ⟨_, rfl⟩) _ d

theorem toState_keeps (d : Device) (st : DevState) : (d.toState st).boot = d.boot ∧ (d.toState st).file.locked = d.file.locked := by
  unfold Device.toState
  split
  · exact ⟨rfl, rfl⟩
  · simp

/-- What any of the eleven makes of the modes: each either keeps them or is one of the arcs. -/
structure Keeps (d e : Device) : Prop where
  fenced : e.dev.fenced = d.dev.fenced
  num : e.stroke.num = d.stroke.num
  active : e.gen.active = d.gen.active
  prof : e.profile.active = d.profile.active

theorem Same.keeps {d e : Device} (h : Same d e) : Keeps d e := ⟨h.2, h.3, h.4, h.5⟩

theorem Device.toState_keepsModes {d e : Device} (st : DevState) (h : Same d e) : Keeps d (e.toState st) := by
  obtain ⟨_, k2, k3, k4, k5⟩ := Device.bootEnd_same st h
  exact ⟨k2, k3, k4, k5⟩

theorem Device.enterBoot_modes (d : Device) (g ns : Nat) : (d.enterBoot g ns).dev.state = .boot ∧ Keeps d (d.enterBoot g ns) := by
  unfold Device.enterBoot
  extract_lets d1 bv mv d2
  have k1 : Same d d1 := by
    dsimp only [d1]
    exact Same.ite (Device.timeRuns_same _ (Same.refl d)) (Same.ite (Same.upd (Same.refl d)) (Same.refl d))
  have k2 : Same d d2 := Same.updBoot k1 rfl rfl
  exact ⟨(Device.toState_modes d2 .boot).1, Device.toState_keepsModes _ k2⟩

/-- What a power or reset command leaves: the modes as they were, BOOT entered, or everything at reset. -/
theorem resetRelease_modes (d : Device) (g ns : Nat) : Same d (resetRelease d g ns) ∨
    (d.dev.state = .reset ∧ (resetRelease d g ns).dev.state = .boot ∧ Keeps d (resetRelease d g ns)) := by
  unfold resetRelease
  extract_lets bv d1
  have k1 : Same d d1 := Same.updBoot (Same.refl d) rfl rfl
  by_cases h : d1.dev.state ≠ .reset ∨ d1.boot.hold = true
  · rw [if_pos h]
    exact .inl k1
  · rw [if_neg h]
    simp only [ne_eq, not_or, Decidable.not_not] at h
    obtain ⟨a, b⟩ := Device.enterBoot_modes d1 g ns
    exact .inr ⟨h.1, a, b.1, b.2, b.3, b.4⟩

theorem resetHoldExpire_modes (d : Device) (g : Nat) : Same d (resetHoldExpire d g) ∨
    (d.dev.state = .reset ∧ (resetHoldExpire d g).dev.state = .boot ∧ Keeps d (resetHoldExpire d g)) := by
  unfold resetHoldExpire
  by_cases h : d.dev.state ≠ .reset ∨ (!d.boot.hold) = true
  · rw [if_pos h]
    exact .inl (Same.refl d)
  · rw [if_neg h]
    simp only [ne_eq, not_or, Decidable.not_not] at h
    obtain ⟨a, b⟩ := Device.enterBoot_modes d g 1000000
    exact .inr ⟨h.1, a, b⟩

theorem powerUp_modes (d : Device) (a : Nat) : Same d (powerUp d a) ∨ (d.dev.state = .off ∧ Blank (powerUp d a)) := by
  unfold powerUp
  by_cases h : d.dev.state = .off
  · rw [if_neg (fun k => k h)]
    have k := Device.fullReset_blank d false
    exact .inr ⟨h, k.1, k.2, k.3, k.4, k.5⟩
  · rw [if_pos h]
    exact .inl (Same.refl d)

theorem perstFall_modes (d : Device) : Same d (perstFall d) ∨ (d.dev.state ≠ .off ∧ Blank (perstFall d)) := by
  unfold perstFall
  extract_lets mode bv d1
  have k1 : Same d d1 := Same.updBoot (Same.refl d) rfl rfl
  split
  · exact .inl k1
  · split
    · exact .inl k1
    · split
      · exact .inl (Same.updBoot k1 rfl rfl)
      · rename_i h _ _
        exact .inr ⟨fun k => by simp [show d.dev.state = .reset from h] at k, Device.fullReset_blank _ _⟩
  · rename_i h1 h2
    split
    · exact .inl (Device.hostReset_same k1)
    · exact .inr ⟨h1, Device.fullReset_blank _ _⟩

theorem thermalShutdown_modes (d : Device) (c : Int) : Same d (thermalShutdown d c) ∨
    (120 ≤ c ∧ d.dev.state ≠ .off ∧ (thermalShutdown d c).dev.state = .thermal ∧ Keeps d (thermalShutdown d c)) := by
  unfold thermalShutdown
  by_cases h : c < 120 ∨ d.dev.state = .off
  · rw [if_pos h]
    exact .inl (Same.refl d)
  · rw [if_neg h]
    simp only [not_or, Int.not_lt] at h
    have k := Device.toState_keepsModes .thermal (Device.timeLow_same (Same.refl d))
    exact .inr ⟨h.1, h.2, (Device.toState_modes _ .thermal).1, k.1, k.2, k.3, k.4⟩

theorem supplyOutOfRange_modes (d : Device) : supplyOutOfRange d = d ∨ ((supplyOutOfRange d).dev.state = .off ∧
    (supplyOutOfRange d).dev.fenced = 0#32 ∧ (supplyOutOfRange d).stroke.num = 0#64 ∧ (supplyOutOfRange d).gen.active = 0#32 ∧
    (supplyOutOfRange d).profile.active = 0) := by
  unfold supplyOutOfRange
  split
  · exact .inl rfl
  · have k := Device.fullReset_blank d false
    exact .inr ⟨rfl, k.2, k.3, k.4, k.5⟩

/-- A command that answers a next state ran its function on the device. -/
theorem run_next {s t : State} {c : Instr} {f : Device → Device} (he : exec c s = s.run c f) (h : exec c s = .next t) :
    t.dev = f s.dev := by
  rw [he] at h
  unfold State.run at h
  split at h
  · cases h
    rfl
  · cases h

theorem onClock_next {s t : State} {c : Instr} {f : Device → Device} (he : exec c s = s.onClock c f) (h : exec c s = .next t) :
    t.dev = s.dev ∨ (s.dev.clocked = true ∧ t.dev = f s.dev) := by
  have k := run_next (f := fun d => if d.clocked then f d else d) he h
  by_cases hc : s.dev.clocked = true
  · exact .inr ⟨hc, k.trans (if_pos hc)⟩
  · exact .inl (k.trans (if_neg hc))

theorem strokeBoundary_cases (d : Device) : strokeBoundary d = d ∨ (d.clocked = true ∧
    (((strokeBoundary d).dev.state = d.dev.state ∧ (strokeBoundary d).dev.fenced = d.dev.fenced ∧
      (strokeBoundary d).stroke.num = d.stroke.num + 1 ∧ (strokeBoundary d).gen.active = d.gen.active ∧
      (strokeBoundary d).profile.active = d.profile.active ∧ d.boot.cold ≠ true ∧ d.boot.warm ≠ true) ∨ Blank (strokeBoundary d))) := by
  by_cases hc : d.clocked = true
  · obtain ⟨p, hp, h1, h2, h3, h4, h5, h6, h7⟩ := strokeBoundary_modes hc
    rw [hp]
    rcases Device.resetBoundary_modes p with ⟨e, a, b⟩ | ⟨e, -⟩
    · rw [e]
      refine .inr ⟨hc, .inl ⟨h1, h2, h3, h4, h5, ?_, ?_⟩⟩
      · exact fun k => Bool.noConfusion ((h6.trans k).symm.trans a)
      · exact fun k => Bool.noConfusion ((h7.trans k).symm.trans b)
    · exact .inr ⟨hc, .inr e⟩
  · exact .inl (if_pos (by simpa using hc))

/-- Whatever a command makes of the modes, case by case. -/
theorem exec_modes {c : Instr} {s t : State} (h : exec c s = .next t) : Same s.dev t.dev ∨
    (∃ a, c = .powerUp a ∧ s.dev.dev.state = .off ∧ Blank t.dev) ∨
    (c.changesModes = true ∧ Keeps s.dev t.dev ∧ (((∃ g n, c = .resetRelease g n) ∨ ∃ g, c = .resetHoldExpire g) ∧
        s.dev.dev.state = .reset ∧ t.dev.dev.state = .boot ∨
      (∃ a b e, c = .bootImageComplete a b e) ∧ s.dev.dev.state = .boot ∧ t.dev.dev.state = .config ∨
      c = .enterRun ∧ s.dev.dev.state = .config ∧ s.dev.dev.goDue = true ∧
        t.dev.dev.state = (if s.dev.dev.fenced = 0#32 then .run else .degraded) ∨
      ∃ v, c = .thermalShutdown v ∧ 120 ≤ v ∧ s.dev.dev.state ≠ .off ∧ t.dev.dev.state = .thermal)) ∨
    (c = .galleryFence ∧ t.dev = galleryFence s.dev) ∨ (c = .genFlip ∧ t.dev = genFlip s.dev) ∨
    (c = .perstFall ∧ s.dev.dev.state ≠ .off ∧ Blank t.dev) ∨ (c = .strokeBoundary ∧ t.dev = strokeBoundary s.dev) ∨
    (c = .supplyOutOfRange ∧ t.dev = supplyOutOfRange s.dev) := by
  by_cases hm : c.changesModes = false
  · obtain ⟨f, hf, he⟩ := exec_same c hm
    rw [run_next (he s) h]
    exact .inl (hf _)
  · cases c with
    | powerUp a =>
      have k : t.dev = powerUp s.dev a := run_next (f := fun d => powerUp d a) rfl h
      rw [k]
      rcases powerUp_modes s.dev a with q | ⟨q, r⟩
      · exact .inl q
      · exact .inr (.inl ⟨a, rfl, q, r⟩)
    | supplyOutOfRange =>
      have k : t.dev = supplyOutOfRange s.dev := run_next (f := fun d => supplyOutOfRange d) rfl h
      exact .inr (.inr (.inr (.inr (.inr (.inr (.inr ⟨rfl, k⟩))))))
    | resetRelease g n =>
      have k : t.dev = resetRelease s.dev g n := run_next (f := fun d => resetRelease d g n) rfl h
      rw [k]
      rcases resetRelease_modes s.dev g n with q | ⟨q, r, w⟩
      · exact .inl q
      · exact .inr (.inr (.inl ⟨rfl, w, .inl ⟨.inl ⟨g, n, rfl⟩, q, r⟩⟩))
    | resetHoldExpire g =>
      have k : t.dev = resetHoldExpire s.dev g := run_next (f := fun d => resetHoldExpire d g) rfl h
      rw [k]
      rcases resetHoldExpire_modes s.dev g with q | ⟨q, r, w⟩
      · exact .inl q
      · exact .inr (.inr (.inl ⟨rfl, w, .inl ⟨.inr ⟨g, rfl⟩, q, r⟩⟩))
    | perstFall =>
      have k : t.dev = perstFall s.dev := run_next (f := fun d => perstFall d) rfl h
      rw [k]
      rcases perstFall_modes s.dev with q | ⟨q, r⟩
      · exact .inl q
      · exact .inr (.inr (.inr (.inr (.inr (.inl ⟨rfl, q, r⟩)))))
    | thermalShutdown v =>
      have k : t.dev = thermalShutdown s.dev v := run_next (f := fun d => thermalShutdown d v) rfl h
      rw [k]
      rcases thermalShutdown_modes s.dev v with q | ⟨q, r, w, z⟩
      · exact .inl q
      · exact .inr (.inr (.inl ⟨rfl, z, .inr (.inr (.inr ⟨v, rfl, q, r, w⟩))⟩))
    | bootImageComplete a b e =>
      have k : t.dev = bootImageComplete s.dev a b e := run_next (f := fun d => bootImageComplete d a b e) rfl h
      rw [k]
      rcases bootImageComplete_modes s.dev a b e with q | ⟨q, x, r, w⟩
      · exact .inl q
      · refine .inr (.inr (.inl ⟨rfl, ?_, .inr (.inl ⟨⟨a, b, e, rfl⟩, q, ?_⟩)⟩))
        · rw [r]
          have k : Same _ _ := Device.testLanes_same (Same.refl (x.toState .config))
          have q := Device.toState_keepsModes .config w
          exact ⟨k.2.trans q.1, k.3.trans q.2, k.4.trans q.3, k.5.trans q.4⟩
        · rw [r]
          have t : Same _ _ := Device.testLanes_same (Same.refl (x.toState .config))
          exact t.state.trans (Device.toState_modes x .config).1
    | enterRun =>
      rcases onClock_next (f := enterRun) rfl h with k | ⟨-, k⟩
      · rw [k]
        exact .inl (Same.refl _)
      · rw [k]
        rcases enterRun_modes s.dev with q | ⟨q, r, x, w, z⟩
        · rw [q]
          exact .inl (Same.refl _)
        · refine .inr (.inr (.inl ⟨rfl, ?_, .inr (.inr (.inl ⟨rfl, r, q, ?_⟩))⟩))
          · rw [w]
            exact Device.toState_keepsModes _ z
          · rw [w]
            exact (Device.toState_modes x _).1
    | galleryFence =>
      rcases onClock_next (f := galleryFence) rfl h with k | ⟨-, k⟩
      · rw [k]
        exact .inl (Same.refl _)
      · exact .inr (.inr (.inr (.inl ⟨rfl, k⟩)))
    | genFlip =>
      rcases onClock_next (f := genFlip) rfl h with k | ⟨-, k⟩
      · rw [k]
        exact .inl (Same.refl _)
      · exact .inr (.inr (.inr (.inr (.inl ⟨rfl, k⟩))))
    | strokeBoundary =>
      have k : t.dev = strokeBoundary s.dev := run_next (f := fun d => strokeBoundary d) rfl h
      exact .inr (.inr (.inr (.inr (.inr (.inr (.inl ⟨rfl, k⟩))))))
    | _ => exact absurd rfl hm

structure KeepFlights (d e : Device) : Prop where
  flights : e.pkt.flights = d.pkt.flights
  dev : e.dev = d.dev

theorem KeepFlights.refl (d : Device) : KeepFlights d d := ⟨rfl, rfl⟩
theorem KeepFlights.trans {a b c : Device} (h : KeepFlights a b) (k : KeepFlights b c) : KeepFlights a c := ⟨k.1.trans h.1, k.2.trans h.2⟩
theorem KeepFlights.foldl {α : Type} {f : Device → α → Device} {d : Device} (l : List α) {e : Device}
    (h : ∀ e x, KeepFlights d e → KeepFlights d (f e x)) (h0 : KeepFlights d e) : KeepFlights d (l.foldl f e) := by
  induction l generalizing e with
  | nil => exact h0
  | cons x t ih => exact ih (h e x h0)
theorem KeepFlights.ite {d a b : Device} {c : Prop} [Decidable c] (ha : KeepFlights d a) (hb : KeepFlights d b) : KeepFlights d (if c then a else b) := by
  by_cases h : c
  · rwa [if_pos h]
  · rwa [if_neg h]
theorem KeepFlights.snd {α : Type} {p : α × Device} {a : α} {d e : Device} (h : p = (a, e)) (k : KeepFlights d p.2) : KeepFlights d e := by rw [h] at k; exact k
theorem KeepFlights.snd2 {α β : Type} {p : α × β × Device} {a : α} {b : β} {d e : Device} (h : p = (a, b, e)) (k : KeepFlights d p.2.2) : KeepFlights d e := by rw [h] at k; exact k
theorem KeepFlights.fst {α : Type} {p : Device × α} {a : α} {d e : Device} (h : p = (e, a)) (k : KeepFlights d p.1) : KeepFlights d e := by rw [h] at k; exact k
theorem KeepFlights.pair {α : Type} {a : α} {d e : Device} (k : KeepFlights d e) : KeepFlights d (a, e).2 := k
theorem KeepFlights.pair1 {α : Type} {a : α} {d e : Device} (k : KeepFlights d e) : KeepFlights d (e, a).1 := k
def KeepFlightsO (d : Device) (o : Option Device) : Prop := ∀ e, o = some e → KeepFlights d e
theorem KeepFlightsO.ofNone {d : Device} : KeepFlightsO d none := fun _ h => nomatch h
theorem KeepFlightsO.ofSome {d e : Device} (h : KeepFlights d e) : KeepFlightsO d (some e) := fun _ k => by cases k; exact h
theorem KeepFlightsO.get {d e : Device} {o : Option Device} (h : o = some e) (k : KeepFlightsO d o) : KeepFlights d e := k e h
theorem KeepFlights.fstR {α : Type} {p : StageRun × α} {a : α} {d : Device} {e : StageRun} (h : p = (e, a)) (k : KeepFlights d p.1.d) : KeepFlights d e.d := by rw [h] at k; exact k
def KeepFlightsP {α : Type} (d : Device) (f : α → Device) (o : Option α) : Prop := ∀ a, o = some a → KeepFlights d (f a)
theorem KeepFlightsP.ofNone {α : Type} {f : α → Device} {d : Device} : KeepFlightsP d f none := fun _ h => nomatch h
theorem KeepFlightsP.ofSome {α : Type} {f : α → Device} {d : Device} {a : α} (h : KeepFlights d (f a)) : KeepFlightsP d f (some a) := fun _ k => by cases k; exact h
theorem KeepFlightsP.get2 {α : Type} {o : Option (α × Device)} {a : α} {d e : Device} (h : o = some (a, e)) (k : KeepFlightsP d (·.2) o) : KeepFlights d e := k _ h
theorem KeepFlightsP.get1 {α : Type} {o : Option (Device × α)} {a : α} {d e : Device} (h : o = some (e, a)) (k : KeepFlightsP d (·.1) o) : KeepFlights d e := k _ h
theorem KeepFlights.upd {d e : Device} {xstroke : StrokeCtl} {xfile : RegFile} {xgen : GenUnit} {xsnap : SnapUnit} {xbudget : BudgetUnit} {xprofile : ProfileUnit} {xlane : LaneUnit} {xports : Tab PortSt} {xfft : FftUnit} {xhall : HallUnit} {xtable : TableUnit} {xbillet : BilletUnit} {xsched : SchedUnit} {xdrops : DropUnit} {xclock : ClockUnit} {xservo : ServoUnit} {xpulse : PulseUnit} {xledger : LedgerUnit} {xtsu : Tab TsuSt} {xdamper : DamperUnit} {xtelem : TelemUnit} {xinteg : IntegUnit} {xhost : HostUnit} {xperf : PerfUnit} {xanvil : AnvilUnit} {xras : RasUnit} {xseq : SeqUnit} {xboot : BootUnit} {xmgmt : MgmtUnit} {xsent : List Output} {xfreeCtr : Nat} (h : KeepFlights d e) :
    KeepFlights d (Device.mk e.dev xstroke xfile xgen xsnap xbudget xprofile xlane xports xfft e.pkt xhall xtable xbillet xsched xdrops xclock xservo xpulse xledger xtsu xdamper xtelem xinteg xhost xperf xanvil xras xseq xboot xmgmt xsent xfreeCtr) := ⟨h.1, h.2⟩
theorem KeepFlights.updPkt {d e : Device} {xstroke : StrokeCtl} {xfile : RegFile} {xgen : GenUnit} {xsnap : SnapUnit} {xbudget : BudgetUnit} {xprofile : ProfileUnit} {xlane : LaneUnit} {xports : Tab PortSt} {xfft : FftUnit} {xhall : HallUnit} {xtable : TableUnit} {xbillet : BilletUnit} {xsched : SchedUnit} {xdrops : DropUnit} {xclock : ClockUnit} {xservo : ServoUnit} {xpulse : PulseUnit} {xledger : LedgerUnit} {xtsu : Tab TsuSt} {xdamper : DamperUnit} {xtelem : TelemUnit} {xinteg : IntegUnit} {xhost : HostUnit} {xperf : PerfUnit} {xanvil : AnvilUnit} {xras : RasUnit} {xseq : SeqUnit} {xboot : BootUnit} {xsent : List Output} {xfreeCtr : Nat} {z : PacketUnit} (h : KeepFlights d e) (hflights : z.flights = e.pkt.flights) :
    KeepFlights d (Device.mk e.dev xstroke xfile xgen xsnap xbudget xprofile xlane xports xfft z xhall xtable xbillet xsched xdrops xclock xservo xpulse xledger xtsu xdamper xtelem xinteg xhost xperf xanvil xras xseq xboot e.mgmt xsent xfreeCtr) := ⟨hflights.trans h.1, h.2⟩

theorem Device.markSet_keepFlights {d : Device} {e : Device} (x1 : Nat) (x2 : Nat) (h : KeepFlights d e) :
    KeepFlights d (Device.markSet e x1 x2) := by
  unfold Device.markSet
  repeat' with_reducible (first | assumption | (extract_lets +onlyGivenNames zz; first | clear_value zz | skip) | dsimp only | apply KeepFlights.upd | apply KeepFlights.updPkt | exact rfl)

theorem Device.countN_keepFlights {d : Device} {e : Device} (x1 : Nat) (x2 : Nat) (h : KeepFlights d e) :
    KeepFlights d (Device.countN e x1 x2) := by
  unfold Device.countN
  repeat' with_reducible (first | assumption | (extract_lets +onlyGivenNames zz; first | clear_value zz | skip) | dsimp only | apply KeepFlights.upd | apply KeepFlights.updPkt | exact rfl)

theorem Device.count_keepFlights {d : Device} {e : Device} (x1 : Nat) (h : KeepFlights d e) :
    KeepFlights d (Device.count e x1) := by
  unfold Device.count
  repeat' with_reducible (first | assumption | apply Device.countN_keepFlights | dsimp only | apply KeepFlights.upd | apply KeepFlights.updPkt | exact rfl)

theorem Device.setReg_keepFlights {d : Device} {e : Device} (x1 : Nat) (x2 : Sys2Proof.Word) (h : KeepFlights d e) :
    KeepFlights d (Device.setReg e x1 x2) := by
  unfold Device.setReg
  repeat' with_reducible (first | assumption | (extract_lets +onlyGivenNames zz; first | clear_value zz | skip) | dsimp only | apply KeepFlights.upd | apply KeepFlights.updPkt | exact rfl)

theorem Device.setW1c_keepFlights {d : Device} {e : Device} (x1 : Nat) (x2 : Nat) (h : KeepFlights d e) :
    KeepFlights d (Device.setW1c e x1 x2) := by
  unfold Device.setW1c
  repeat' with_reducible (first | assumption | apply Device.setReg_keepFlights | apply Device.markSet_keepFlights | dsimp only | apply KeepFlights.upd | apply KeepFlights.updPkt | exact rfl)

theorem Device.raise_keepFlights {d : Device} {e : Device} (x1 : Nat) (x2 : Nat) (h : KeepFlights d e) :
    KeepFlights d (Device.raise e x1 x2) := by
  unfold Device.raise
  repeat' with_reducible (first | assumption | (extract_lets +onlyGivenNames zz; first | (refine (fun (hz : KeepFlights d zz) => ?_) ?_; clear_value zz; rotate_left; subst zz) | clear_value zz | skip) | apply Device.setW1c_keepFlights | split | dsimp only | apply KeepFlights.upd | apply KeepFlights.updPkt | exact rfl)

theorem Device.aggregate_keepFlights {d : Device} {e : Device} (x1 : Nat) (x2 : Nat) (h : KeepFlights d e) :
    KeepFlights d (Device.aggregate e x1 x2) := by
  unfold Device.aggregate
  repeat' with_reducible (first | assumption | (extract_lets +onlyGivenNames zz; first | (refine (fun (hz : KeepFlights d zz) => ?_) ?_; clear_value zz; rotate_left; subst zz) | clear_value zz | skip) | apply Device.markSet_keepFlights | apply Device.count_keepFlights | apply Device.setReg_keepFlights | apply Device.raise_keepFlights | split | dsimp only | apply KeepFlights.upd | apply KeepFlights.updPkt | exact rfl)

theorem Device.overflowUpd_keepFlights {d : Device} {e : Device} (x1 : Nat) (x2 : Sys2Proof.Machine.FlowUpd) (h : KeepFlights d e) :
    KeepFlights d (Device.overflowUpd e x1 x2) := by
  unfold Device.overflowUpd
  repeat' with_reducible (first | assumption | (extract_lets +onlyGivenNames zz; first | clear_value zz | skip) | dsimp only | apply KeepFlights.upd | apply KeepFlights.updPkt | exact rfl)

theorem Device.bucketUpd_keepFlights {d : Device} {e : Device} (x1 : Nat) (x2 : Sys2Proof.Machine.FlowUpd) (h : KeepFlights d e) :
    KeepFlights d (Device.bucketUpd e x1 x2) := by
  unfold Device.bucketUpd
  try dsimp only
  repeat' with_reducible (first | assumption | apply Device.overflowUpd_keepFlights | apply Device.count_keepFlights | split | dsimp only | apply KeepFlights.upd | apply KeepFlights.updPkt | exact rfl)

theorem Device.pushRecord_keepFlights {d : Device} {e : Device} (x1 : Sys2Proof.Machine.DropInfo) (h : KeepFlights d e) :
    KeepFlights d (Device.pushRecord e x1) := by
  unfold Device.pushRecord
  repeat' with_reducible (first | assumption | (extract_lets +onlyGivenNames zz; first | clear_value zz | skip) | apply Device.raise_keepFlights | apply Device.count_keepFlights | apply Device.aggregate_keepFlights | split | dsimp only | apply KeepFlights.upd | apply KeepFlights.updPkt | exact rfl)

theorem Device.recordDrop_keepFlights {d : Device} {e : Device} (x1 : Sys2Proof.Machine.DropInfo) (h : KeepFlights d e) :
    KeepFlights d (Device.recordDrop e x1) := by
  unfold Device.recordDrop
  repeat' with_reducible (first | assumption | (extract_lets +onlyGivenNames zz; first | clear_value zz | skip) | apply Device.pushRecord_keepFlights | apply Device.aggregate_keepFlights | split | dsimp only | apply KeepFlights.upd | apply KeepFlights.updPkt | exact rfl)

theorem Device.noteAdded_keepFlights {d : Device} {e : Device} (x1 : Nat) (x2 : Nat) (x3 : Option Sys2Proof.Machine.EvPkt) (h : KeepFlights d e) :
    KeepFlights d (Device.noteAdded e x1 x2 x3) := by
  unfold Device.noteAdded
  repeat' with_reducible (first | assumption | (extract_lets +onlyGivenNames zz; first | clear_value zz | skip) | dsimp only | apply KeepFlights.upd | apply KeepFlights.updPkt | exact rfl)

theorem Device.noteWrap_keepFlights {d : Device} {e : Device} (x1 : Nat) (x2 : Bool) (x3 : Bool) (x4 : Nat) (h : KeepFlights d e) :
    KeepFlights d (Device.noteWrap e x1 x2 x3 x4) := by
  unfold Device.noteWrap
  repeat' with_reducible (first | assumption | (extract_lets +onlyGivenNames zz; first | clear_value zz | skip) | dsimp only | apply KeepFlights.upd | apply KeepFlights.updPkt | exact rfl)

theorem Device.pushSample_keepFlights {d : Device} {e : Device} (x1 : Nat) (x2 : Sys2Proof.Machine.Sample) (h : KeepFlights d e) :
    KeepFlights d (Device.pushSample e x1 x2) := by
  unfold Device.pushSample
  repeat' with_reducible (first | assumption | (extract_lets +onlyGivenNames zz; first | (refine (fun (hz : KeepFlights d zz) => ?_) ?_; clear_value zz; rotate_left; subst zz) | clear_value zz | skip) | apply Device.raise_keepFlights | split | dsimp only | apply KeepFlights.upd | apply KeepFlights.updPkt | exact rfl)

theorem Device.pcAdd_keepFlights {d : Device} {e : Device} (x1 : Option Nat) (x2 : Nat) (x3 : Nat) (x4 : Option Sys2Proof.Machine.EvPkt) (x5 : Nat) (h : KeepFlights d e) :
    KeepFlights d (Device.pcAdd e x1 x2 x3 x4 x5) := by
  unfold Device.pcAdd
  repeat' with_reducible (first | assumption | (extract_lets +onlyGivenNames zz; first | (refine (fun (hz : KeepFlights d zz) => ?_) ?_; clear_value zz; rotate_left; subst zz) | clear_value zz | skip) | apply Device.setW1c_keepFlights | apply Device.noteWrap_keepFlights | apply Device.pushSample_keepFlights | split | dsimp only | apply KeepFlights.upd | apply KeepFlights.updPkt | exact rfl)

theorem Device.event_keepFlights {d : Device} {e : Device} (x1 : Option Nat) (x2 : Nat) (x3 : Nat) (x4 : Option Nat) (x5 : Sys2Proof.Machine.EvPkt) (h : KeepFlights d e) :
    KeepFlights d (Device.event e x1 x2 x3 x4 x5) := by
  unfold Device.event
  repeat' with_reducible (first | assumption | (extract_lets +onlyGivenNames zz; first | clear_value zz | skip) | apply Device.noteAdded_keepFlights | apply Device.pcAdd_keepFlights | split | (apply KeepFlights.foldl; intro _ _ _) | dsimp only | apply KeepFlights.upd | apply KeepFlights.updPkt | exact rfl)

theorem Device.dropCount_keepFlights {d : Device} {e : Device} (x1 : Sys2Proof.Machine.DropInfo) (h : KeepFlights d e) :
    KeepFlights d (Device.dropCount e x1) := by
  unfold Device.dropCount
  repeat' with_reducible (first | assumption | apply Device.count_keepFlights | apply Device.event_keepFlights | split | dsimp only | apply KeepFlights.upd | apply KeepFlights.updPkt | exact rfl)

theorem Device.drop_keepFlights {d : Device} {e : Device} (x1 : Sys2Proof.Machine.DropInfo) (h : KeepFlights d e) :
    KeepFlights d (Device.drop e x1) := by
  unfold Device.drop
  repeat' with_reducible (first | assumption | apply Device.recordDrop_keepFlights | apply Device.dropCount_keepFlights | split | dsimp only | apply KeepFlights.upd | apply KeepFlights.updPkt | exact rfl)

theorem Device.setCache_keepFlights {d : Device} {e : Device} (x1 : Nat) (x2 : List (Nat × Bool)) (h : KeepFlights d e) :
    KeepFlights d (Device.setCache e x1 x2) := by
  unfold Device.setCache
  repeat' with_reducible (first | assumption | (extract_lets +onlyGivenNames zz; first | clear_value zz | skip) | dsimp only | apply KeepFlights.upd | apply KeepFlights.updPkt | exact rfl)

theorem Device.flowEnd_keepFlights {d : Device} {e : Device} (x1 : Bool) (x2 : Sys2Proof.Machine.FlowUpd) (h : KeepFlights d e) :
    KeepFlights d (Device.flowEnd e x1 x2) := by
  unfold Device.flowEnd
  repeat' with_reducible (first | assumption | (extract_lets +onlyGivenNames zz; first | clear_value zz | skip) | apply Device.overflowUpd_keepFlights | apply Device.bucketUpd_keepFlights | apply Device.setCache_keepFlights | apply Device.raise_keepFlights | apply Device.count_keepFlights | split | dsimp only | apply KeepFlights.upd | apply KeepFlights.updPkt | exact rfl)

theorem Device.setFrame_keepFlights {d : Device} {e : Device} (x1 : Sys2Proof.Machine.Frame) (h : KeepFlights d e) :
    KeepFlights d (Device.setFrame e x1) := by
  unfold Device.setFrame
  repeat' with_reducible (first | assumption | (extract_lets +onlyGivenNames zz; first | (have hq : PacketUnit := zz; clear hq; subst zz) | clear_value zz | skip) | dsimp only | apply KeepFlights.upd | apply KeepFlights.updPkt | exact rfl)

theorem Device.flowFinish_keepFlights {d : Device} {e : Device} (x1 : Nat) (x2 : Option Nat) (x3 : Option Nat) (h : KeepFlights d e) :
    KeepFlights d (Device.flowFinish e x1 x2 x3) := by
  unfold Device.flowFinish
  repeat' with_reducible (first | assumption | (extract_lets +onlyGivenNames zz; first | (refine (fun (hz : KeepFlights d zz) => ?_) ?_; clear_value zz; rotate_left; subst zz) | skip) | apply Device.setFrame_keepFlights | apply Device.flowEnd_keepFlights | split | dsimp only | apply KeepFlights.upd | apply KeepFlights.updPkt | exact rfl)

theorem Device.modFrame_keepFlights {d : Device} {e : Device} (x1 : Nat) (x2 : Sys2Proof.Machine.Frame → Sys2Proof.Machine.Frame) (h : KeepFlights d e) :
    KeepFlights d (Device.modFrame e x1 x2) := by
  unfold Device.modFrame
  repeat' with_reducible (first | assumption | apply Device.setFrame_keepFlights | split | dsimp only | apply KeepFlights.upd | apply KeepFlights.updPkt | exact rfl)

theorem Device.flowOfFlight_keepFlights {d : Device} {e : Device} (x1 : Sys2Proof.Machine.Flight) (h : KeepFlights d e) :
    KeepFlights d (Device.flowOfFlight e x1) := by
  unfold Device.flowOfFlight
  repeat' with_reducible (first | assumption | (extract_lets +onlyGivenNames zz; first | clear_value zz | skip) | apply Device.modFrame_keepFlights | dsimp only | apply KeepFlights.upd | apply KeepFlights.updPkt | exact rfl)

theorem Device.freeStair_keepFlights {d : Device} {e : Device} (x1 : Sys2Proof.Machine.Flight) (x2 : Nat) (h : KeepFlights d e) :
    KeepFlights d (Device.freeStair e x1 x2) := by
  unfold Device.freeStair
  repeat' with_reducible (first | assumption | (extract_lets +onlyGivenNames zz; first | clear_value zz | skip) | split | dsimp only | apply KeepFlights.upd | apply KeepFlights.updPkt | exact rfl)

theorem Device.loseOne_keepFlights {d : Device} {e : Device} (x1 : Sys2Proof.Machine.Frame) (x2 : Sys2Proof.Machine.DropInfo) (h : KeepFlights d e) :
    KeepFlights d (Device.loseOne e x1 x2) := by
  unfold Device.loseOne
  repeat' with_reducible (first | assumption | (extract_lets +onlyGivenNames zz; first | (refine (fun (hz : KeepFlights d zz) => ?_) ?_; clear_value zz; rotate_left; subst zz) | skip) | apply Device.count_keepFlights | apply Device.dropCount_keepFlights | apply Device.drop_keepFlights | split | dsimp only | apply KeepFlights.upd | apply KeepFlights.updPkt | exact rfl)

theorem Device.releaseFrame_keepFlights {d : Device} {e : Device} (x1 : Nat) (h : KeepFlights d e) :
    KeepFlights d (Device.releaseFrame e x1) := by
  unfold Device.releaseFrame
  repeat' with_reducible (first | assumption | (extract_lets +onlyGivenNames zz; first | (refine (fun (hz : KeepFlights d zz) => ?_) ?_; clear_value zz; rotate_left; subst zz) | (have hq : PacketUnit := zz; clear hq; subst zz) | clear_value zz | skip) | apply Device.setFrame_keepFlights | split | dsimp only | apply KeepFlights.upd | apply KeepFlights.updPkt | exact rfl)

structure KeepDev (d e : Device) : Prop where
  dev : e.dev = d.dev
  int : e.ras.intFrom = d.ras.intFrom
  pend : e.ras.fatalPending = d.ras.fatalPending

theorem KeepDev.refl (d : Device) : KeepDev d d := ⟨rfl, rfl, rfl⟩
theorem KeepDev.trans {a b c : Device} (h : KeepDev a b) (k : KeepDev b c) : KeepDev a c := ⟨k.1.trans h.1, k.2.trans h.2, k.3.trans h.3⟩
theorem KeepDev.foldl {α : Type} {f : Device → α → Device} {d : Device} (l : List α) {e : Device}
    (h : ∀ e x, KeepDev d e → KeepDev d (f e x)) (h0 : KeepDev d e) : KeepDev d (l.foldl f e) := by
  induction l generalizing e with
  | nil => exact h0
  | cons x t ih => exact ih (h e x h0)
theorem KeepDev.ite {d a b : Device} {c : Prop} [Decidable c] (ha : KeepDev d a) (hb : KeepDev d b) : KeepDev d (if c then a else b) := by
  by_cases h : c
  · rwa [if_pos h]
  · rwa [if_neg h]
theorem KeepDev.snd {α : Type} {p : α × Device} {a : α} {d e : Device} (h : p = (a, e)) (k : KeepDev d p.2) : KeepDev d e := by rw [h] at k; exact k
theorem KeepDev.snd2 {α β : Type} {p : α × β × Device} {a : α} {b : β} {d e : Device} (h : p = (a, b, e)) (k : KeepDev d p.2.2) : KeepDev d e := by rw [h] at k; exact k
theorem KeepDev.fst {α : Type} {p : Device × α} {a : α} {d e : Device} (h : p = (e, a)) (k : KeepDev d p.1) : KeepDev d e := by rw [h] at k; exact k
theorem KeepDev.pair {α : Type} {a : α} {d e : Device} (k : KeepDev d e) : KeepDev d (a, e).2 := k
theorem KeepDev.pair1 {α : Type} {a : α} {d e : Device} (k : KeepDev d e) : KeepDev d (e, a).1 := k
def KeepDevO (d : Device) (o : Option Device) : Prop := ∀ e, o = some e → KeepDev d e
theorem KeepDevO.ofNone {d : Device} : KeepDevO d none := fun _ h => nomatch h
theorem KeepDevO.ofSome {d e : Device} (h : KeepDev d e) : KeepDevO d (some e) := fun _ k => by cases k; exact h
theorem KeepDevO.get {d e : Device} {o : Option Device} (h : o = some e) (k : KeepDevO d o) : KeepDev d e := k e h
theorem KeepDev.fstR {α : Type} {p : StageRun × α} {a : α} {d : Device} {e : StageRun} (h : p = (e, a)) (k : KeepDev d p.1.d) : KeepDev d e.d := by rw [h] at k; exact k
def KeepDevP {α : Type} (d : Device) (f : α → Device) (o : Option α) : Prop := ∀ a, o = some a → KeepDev d (f a)
theorem KeepDevP.ofNone {α : Type} {f : α → Device} {d : Device} : KeepDevP d f none := fun _ h => nomatch h
theorem KeepDevP.ofSome {α : Type} {f : α → Device} {d : Device} {a : α} (h : KeepDev d (f a)) : KeepDevP d f (some a) := fun _ k => by cases k; exact h
theorem KeepDevP.get2 {α : Type} {o : Option (α × Device)} {a : α} {d e : Device} (h : o = some (a, e)) (k : KeepDevP d (·.2) o) : KeepDev d e := k _ h
theorem KeepDevP.get1 {α : Type} {o : Option (Device × α)} {a : α} {d e : Device} (h : o = some (e, a)) (k : KeepDevP d (·.1) o) : KeepDev d e := k _ h
theorem KeepDev.upd {d e : Device} {xstroke : StrokeCtl} {xfile : RegFile} {xgen : GenUnit} {xsnap : SnapUnit} {xbudget : BudgetUnit} {xprofile : ProfileUnit} {xlane : LaneUnit} {xports : Tab PortSt} {xfft : FftUnit} {xpkt : PacketUnit} {xhall : HallUnit} {xtable : TableUnit} {xbillet : BilletUnit} {xsched : SchedUnit} {xdrops : DropUnit} {xclock : ClockUnit} {xservo : ServoUnit} {xpulse : PulseUnit} {xledger : LedgerUnit} {xtsu : Tab TsuSt} {xdamper : DamperUnit} {xtelem : TelemUnit} {xinteg : IntegUnit} {xhost : HostUnit} {xperf : PerfUnit} {xanvil : AnvilUnit} {xseq : SeqUnit} {xboot : BootUnit} {xmgmt : MgmtUnit} {xsent : List Output} {xfreeCtr : Nat} (h : KeepDev d e) :
    KeepDev d (Device.mk e.dev xstroke xfile xgen xsnap xbudget xprofile xlane xports xfft xpkt xhall xtable xbillet xsched xdrops xclock xservo xpulse xledger xtsu xdamper xtelem xinteg xhost xperf xanvil e.ras xseq xboot xmgmt xsent xfreeCtr) := ⟨h.1, h.2, h.3⟩
theorem KeepDev.updRas {d e : Device} {xstroke : StrokeCtl} {xfile : RegFile} {xgen : GenUnit} {xsnap : SnapUnit} {xbudget : BudgetUnit} {xprofile : ProfileUnit} {xlane : LaneUnit} {xports : Tab PortSt} {xfft : FftUnit} {xpkt : PacketUnit} {xhall : HallUnit} {xtable : TableUnit} {xbillet : BilletUnit} {xsched : SchedUnit} {xdrops : DropUnit} {xclock : ClockUnit} {xservo : ServoUnit} {xpulse : PulseUnit} {xledger : LedgerUnit} {xtsu : Tab TsuSt} {xdamper : DamperUnit} {xtelem : TelemUnit} {xinteg : IntegUnit} {xhost : HostUnit} {xperf : PerfUnit} {xanvil : AnvilUnit} {xseq : SeqUnit} {xboot : BootUnit} {xsent : List Output} {xfreeCtr : Nat} {z : RasUnit} (h : KeepDev d e) (hint : z.intFrom = e.ras.intFrom) (hpend : z.fatalPending = e.ras.fatalPending) :
    KeepDev d (Device.mk e.dev xstroke xfile xgen xsnap xbudget xprofile xlane xports xfft xpkt xhall xtable xbillet xsched xdrops xclock xservo xpulse xledger xtsu xdamper xtelem xinteg xhost xperf xanvil z xseq xboot e.mgmt xsent xfreeCtr) := ⟨h.1, hint.trans h.2, hpend.trans h.3⟩

theorem Device.countN_keepDev {d : Device} {e : Device} (x1 : Nat) (x2 : Nat) (h : KeepDev d e) :
    KeepDev d (Device.countN e x1 x2) := by
  unfold Device.countN
  repeat' with_reducible (first | assumption | (extract_lets +onlyGivenNames zz; first | clear_value zz | skip) | dsimp only | apply KeepDev.upd | apply KeepDev.updRas | exact rfl)

theorem Device.count_keepDev {d : Device} {e : Device} (x1 : Nat) (h : KeepDev d e) :
    KeepDev d (Device.count e x1) := by
  unfold Device.count
  repeat' with_reducible (first | assumption | apply Device.countN_keepDev | dsimp only | apply KeepDev.upd | apply KeepDev.updRas | exact rfl)

theorem Device.evict_keepDev {d : Device} {e : Device} (x1 : Sys2Proof.Machine.FaultHist) (h : KeepDev d e) :
    KeepDev d (Device.evict e x1) := by
  unfold Device.evict
  repeat' with_reducible (first | assumption | (extract_lets +onlyGivenNames zz; first | (refine (fun (hz : KeepDev d zz) => ?_) ?_; clear_value zz; rotate_left; subst zz) | clear_value zz | skip) | apply Device.count_keepDev | split | dsimp only | apply KeepDev.upd | apply KeepDev.updRas | exact rfl)

theorem Device.forget_keepDev {d : Device} {e : Device} (x1 : Sys2Proof.Machine.FaultPlace) (h : KeepDev d e) :
    KeepDev d (Device.forget e x1) := by
  unfold Device.forget
  repeat' with_reducible (first | assumption | (extract_lets +onlyGivenNames zz; first | (have hq : RasUnit := zz; clear hq; subst zz) | clear_value zz | skip) | dsimp only | apply KeepDev.upd | apply KeepDev.updRas | exact rfl)

theorem Device.setReg_keepDev {d : Device} {e : Device} (x1 : Nat) (x2 : Sys2Proof.Word) (h : KeepDev d e) :
    KeepDev d (Device.setReg e x1 x2) := by
  unfold Device.setReg
  repeat' with_reducible (first | assumption | (extract_lets +onlyGivenNames zz; first | clear_value zz | skip) | dsimp only | apply KeepDev.upd | apply KeepDev.updRas | exact rfl)

theorem Device.markSet_keepDev {d : Device} {e : Device} (x1 : Nat) (x2 : Nat) (h : KeepDev d e) :
    KeepDev d (Device.markSet e x1 x2) := by
  unfold Device.markSet
  repeat' with_reducible (first | assumption | (extract_lets +onlyGivenNames zz; first | clear_value zz | skip) | dsimp only | apply KeepDev.upd | apply KeepDev.updRas | exact rfl)

theorem Device.setW1c_keepDev {d : Device} {e : Device} (x1 : Nat) (x2 : Nat) (h : KeepDev d e) :
    KeepDev d (Device.setW1c e x1 x2) := by
  unfold Device.setW1c
  repeat' with_reducible (first | assumption | apply Device.setReg_keepDev | apply Device.markSet_keepDev | dsimp only | apply KeepDev.upd | apply KeepDev.updRas | exact rfl)

theorem Device.raise_keepDev {d : Device} {e : Device} (x1 : Nat) (x2 : Nat) (h : KeepDev d e) :
    KeepDev d (Device.raise e x1 x2) := by
  unfold Device.raise
  repeat' with_reducible (first | assumption | (extract_lets +onlyGivenNames zz; first | (refine (fun (hz : KeepDev d zz) => ?_) ?_; clear_value zz; rotate_left; subst zz) | clear_value zz | skip) | apply Device.setW1c_keepDev | split | dsimp only | apply KeepDev.upd | apply KeepDev.updRas | exact rfl)

theorem Device.logFault_keepDev {d : Device} {e : Device} (x1 : Sys2Proof.Machine.FaultPlace) (x2 : Nat) (x3 : Nat) (x4 : Nat) (h : KeepDev d e) :
    KeepDev d (Device.logFault e x1 x2 x3 x4) := by
  unfold Device.logFault
  repeat' with_reducible (first | assumption | (extract_lets +onlyGivenNames zz; first | (have hq : RasUnit := zz; clear hq; subst zz) | clear_value zz | skip) | apply Device.raise_keepDev | split | dsimp only | apply KeepDev.upd | apply KeepDev.updRas | exact rfl)

theorem Device.track_keepDev {d : Device} {e : Device} (x1 : Sys2Proof.Machine.FaultPlace) (h : KeepDev d e) :
    KeepDev d (Device.track e x1) := by
  unfold Device.track
  repeat' with_reducible (first | assumption | (extract_lets +onlyGivenNames zz; first | (refine (fun (hz : KeepDev d zz) => ?_) ?_; clear_value zz; rotate_left; subst zz) | (have hq : RasUnit := zz; clear hq; subst zz) | clear_value zz | skip) | apply Device.evict_keepDev | split | (apply KeepDev.foldl; intro _ _ _) | dsimp only | apply KeepDev.upd | apply KeepDev.updRas | exact rfl)

theorem Device.occurrence_keepDev {d : Device} {e : Device} (x1 : Sys2Proof.Machine.FaultPlace) (h : KeepDev d e) :
    KeepDev d (Device.occurrence e x1).2 := by
  unfold Device.occurrence
  repeat' with_reducible (first | assumption | apply Device.track_keepDev | dsimp only | apply KeepDev.upd | apply KeepDev.updRas | exact rfl)

theorem Device.retireRecord_keepDev {d : Device} {e : Device} (x1 : Nat) (x2 : Sys2Proof.Machine.FaultPlace) (x3 : Nat) (h : KeepDev d e) :
    KeepDev d (Device.retireRecord e x1 x2 x3) := by
  unfold Device.retireRecord
  repeat' with_reducible (first | assumption | (extract_lets +onlyGivenNames zz; first | (refine (fun (hz : KeepDev d zz) => ?_) ?_; clear_value zz; rotate_left; subst zz) | (have hq : RasUnit := zz; clear hq; subst zz) | clear_value zz | skip) | apply Device.raise_keepDev | split | dsimp only | apply KeepDev.upd | apply KeepDev.updRas | exact rfl)

theorem fenceFlight_flights (d : Device) (x : Flight) : (d.fenceFlight x).pkt.flights = d.pkt.flights.filter (fun y => y.id ≠ x.id) ∧
    (d.fenceFlight x).dev = d.dev := by
  unfold Device.fenceFlight
  split
  · exact ⟨rfl, rfl⟩
  · rename_i f hf
    extract_lets d1 d0 d3
    obtain ⟨d2, hd2⟩ : ∃ q, q = (d1.freeStair x f.inPort).endFlight x.id := ⟨_, rfl⟩
    have k0 : KeepFlights d2 d0 := by
      rw [hd2]
      exact Device.flowOfFlight_keepFlights x (KeepFlights.refl _)
    clear_value d0
    have k1 : KeepFlights d d1 := Device.loseOne_keepFlights _ _ (KeepFlights.refl d)
    clear_value d1
    have k2 := Device.freeStair_keepFlights x f.inPort k1
    have h2 : d2.pkt.flights = d.pkt.flights.filter (fun y => y.id ≠ x.id) ∧ d2.dev = d.dev := by
      rw [hd2]
      refine ⟨?_, k2.2⟩
      show (d1.freeStair x f.inPort).pkt.flights.filter _ = _
      rw [k2.1]
    clear hd2
    have k3 : KeepFlights d2 d3 := by
      dsimp only [d3]
      split
      · exact k0
      · exact Device.flowFinish_keepFlights _ _ _ k0
    have k4 := Device.releaseFrame_keepFlights x.id k3
    exact ⟨k4.1.trans h2.1, k4.2.trans h2.2⟩

theorem faultFence_keep {d : Device} {n : Nat} (hf : d.isFenced n = false) (hb : bit d.dev.hwFence.toNat n = false) :
    (d.faultFence n).dev = { d.dev with hwFence := d.dev.hwFence ||| BitVec.ofNat 32 (2 ^ n) } ∧
    (d.faultFence n).ras.intFrom = d.ras.intFrom ∧ (d.faultFence n).ras.fatalPending = d.ras.fatalPending := by
  unfold Device.faultFence
  rw [if_neg (by simp [hf, hb])]
  have k := Device.retireRecord_keepDev 7 ⟨9, n, n⟩ 0xFFFF
    (KeepDev.refl ({ d with dev := { d.dev with hwFence := d.dev.hwFence ||| BitVec.ofNat 32 (2 ^ n) } } : Device))
  exact ⟨k.1, k.2, k.3⟩

structure KeepGen (d e : Device) : Prop where
  gen : e.gen = d.gen

theorem KeepGen.refl (d : Device) : KeepGen d d := ⟨rfl⟩
theorem KeepGen.trans {a b c : Device} (h : KeepGen a b) (k : KeepGen b c) : KeepGen a c := ⟨k.1.trans h.1⟩
theorem KeepGen.foldl {α : Type} {f : Device → α → Device} {d : Device} (l : List α) {e : Device}
    (h : ∀ e x, KeepGen d e → KeepGen d (f e x)) (h0 : KeepGen d e) : KeepGen d (l.foldl f e) := by
  induction l generalizing e with
  | nil => exact h0
  | cons x t ih => exact ih (h e x h0)
theorem KeepGen.ite {d a b : Device} {c : Prop} [Decidable c] (ha : KeepGen d a) (hb : KeepGen d b) : KeepGen d (if c then a else b) := by
  by_cases h : c
  · rwa [if_pos h]
  · rwa [if_neg h]
theorem KeepGen.snd {α : Type} {p : α × Device} {a : α} {d e : Device} (h : p = (a, e)) (k : KeepGen d p.2) : KeepGen d e := by rw [h] at k; exact k
theorem KeepGen.snd2 {α β : Type} {p : α × β × Device} {a : α} {b : β} {d e : Device} (h : p = (a, b, e)) (k : KeepGen d p.2.2) : KeepGen d e := by rw [h] at k; exact k
theorem KeepGen.fst {α : Type} {p : Device × α} {a : α} {d e : Device} (h : p = (e, a)) (k : KeepGen d p.1) : KeepGen d e := by rw [h] at k; exact k
theorem KeepGen.pair {α : Type} {a : α} {d e : Device} (k : KeepGen d e) : KeepGen d (a, e).2 := k
theorem KeepGen.pair1 {α : Type} {a : α} {d e : Device} (k : KeepGen d e) : KeepGen d (e, a).1 := k
def KeepGenO (d : Device) (o : Option Device) : Prop := ∀ e, o = some e → KeepGen d e
theorem KeepGenO.ofNone {d : Device} : KeepGenO d none := fun _ h => nomatch h
theorem KeepGenO.ofSome {d e : Device} (h : KeepGen d e) : KeepGenO d (some e) := fun _ k => by cases k; exact h
theorem KeepGenO.get {d e : Device} {o : Option Device} (h : o = some e) (k : KeepGenO d o) : KeepGen d e := k e h
theorem KeepGen.fstR {α : Type} {p : StageRun × α} {a : α} {d : Device} {e : StageRun} (h : p = (e, a)) (k : KeepGen d p.1.d) : KeepGen d e.d := by rw [h] at k; exact k
def KeepGenP {α : Type} (d : Device) (f : α → Device) (o : Option α) : Prop := ∀ a, o = some a → KeepGen d (f a)
theorem KeepGenP.ofNone {α : Type} {f : α → Device} {d : Device} : KeepGenP d f none := fun _ h => nomatch h
theorem KeepGenP.ofSome {α : Type} {f : α → Device} {d : Device} {a : α} (h : KeepGen d (f a)) : KeepGenP d f (some a) := fun _ k => by cases k; exact h
theorem KeepGenP.get2 {α : Type} {o : Option (α × Device)} {a : α} {d e : Device} (h : o = some (a, e)) (k : KeepGenP d (·.2) o) : KeepGen d e := k _ h
theorem KeepGenP.get1 {α : Type} {o : Option (Device × α)} {a : α} {d e : Device} (h : o = some (e, a)) (k : KeepGenP d (·.1) o) : KeepGen d e := k _ h
theorem KeepGen.upd {d e : Device} {xdev : DevCtl} {xstroke : StrokeCtl} {xfile : RegFile} {xsnap : SnapUnit} {xbudget : BudgetUnit} {xprofile : ProfileUnit} {xlane : LaneUnit} {xports : Tab PortSt} {xfft : FftUnit} {xpkt : PacketUnit} {xhall : HallUnit} {xtable : TableUnit} {xbillet : BilletUnit} {xsched : SchedUnit} {xdrops : DropUnit} {xclock : ClockUnit} {xservo : ServoUnit} {xpulse : PulseUnit} {xledger : LedgerUnit} {xtsu : Tab TsuSt} {xdamper : DamperUnit} {xtelem : TelemUnit} {xinteg : IntegUnit} {xhost : HostUnit} {xperf : PerfUnit} {xanvil : AnvilUnit} {xras : RasUnit} {xseq : SeqUnit} {xboot : BootUnit} {xmgmt : MgmtUnit} {xsent : List Output} {xfreeCtr : Nat} (h : KeepGen d e) :
    KeepGen d (Device.mk xdev xstroke xfile e.gen xsnap xbudget xprofile xlane xports xfft xpkt xhall xtable xbillet xsched xdrops xclock xservo xpulse xledger xtsu xdamper xtelem xinteg xhost xperf xanvil xras xseq xboot xmgmt xsent xfreeCtr) := ⟨h.1⟩

theorem Device.addHeld_keepGen {d : Device} {e : Device} (x1 : Nat) (x2 : Nat) (x3 : Nat) (h : KeepGen d e) :
    KeepGen d (Device.addHeld e x1 x2 x3) := by
  unfold Device.addHeld
  repeat' with_reducible (first | assumption | (extract_lets +onlyGivenNames zz; first | clear_value zz | skip) | dsimp only | apply KeepGen.upd)

theorem Device.setReg_keepGen {d : Device} {e : Device} (x1 : Nat) (x2 : Sys2Proof.Word) (h : KeepGen d e) :
    KeepGen d (Device.setReg e x1 x2) := by
  unfold Device.setReg
  repeat' with_reducible (first | assumption | (extract_lets +onlyGivenNames zz; first | clear_value zz | skip) | dsimp only | apply KeepGen.upd)

theorem Device.bankFlip_keepGen {d : Device} {e : Device} (h : KeepGen d e) :
    KeepGen d (Device.bankFlip e) := by
  unfold Device.bankFlip
  repeat' with_reducible (first | assumption | (extract_lets +onlyGivenNames zz; first | clear_value zz | skip) | apply Device.setReg_keepGen | split | dsimp only | apply KeepGen.upd)

theorem Device.overflowUpd_keepGen {d : Device} {e : Device} (x1 : Nat) (x2 : Sys2Proof.Machine.FlowUpd) (h : KeepGen d e) :
    KeepGen d (Device.overflowUpd e x1 x2) := by
  unfold Device.overflowUpd
  repeat' with_reducible (first | assumption | (extract_lets +onlyGivenNames zz; first | clear_value zz | skip) | dsimp only | apply KeepGen.upd)

theorem Device.countN_keepGen {d : Device} {e : Device} (x1 : Nat) (x2 : Nat) (h : KeepGen d e) :
    KeepGen d (Device.countN e x1 x2) := by
  unfold Device.countN
  repeat' with_reducible (first | assumption | (extract_lets +onlyGivenNames zz; first | clear_value zz | skip) | dsimp only | apply KeepGen.upd)

theorem Device.count_keepGen {d : Device} {e : Device} (x1 : Nat) (h : KeepGen d e) :
    KeepGen d (Device.count e x1) := by
  unfold Device.count
  repeat' with_reducible (first | assumption | apply Device.countN_keepGen | dsimp only | apply KeepGen.upd)

theorem Device.bucketUpd_keepGen {d : Device} {e : Device} (x1 : Nat) (x2 : Sys2Proof.Machine.FlowUpd) (h : KeepGen d e) :
    KeepGen d (Device.bucketUpd e x1 x2) := by
  unfold Device.bucketUpd
  try dsimp only
  repeat' with_reducible (first | assumption | apply Device.overflowUpd_keepGen | apply Device.count_keepGen | split | dsimp only | apply KeepGen.upd)

theorem Device.bulkAsk_keepGen {d : Device} {e : Device} (x1 : Nat) (x2 : Nat) (x3 : Nat) (h : KeepGen d e) :
    KeepGen d (Device.bulkAsk e x1 x2 x3) := by
  unfold Device.bulkAsk
  repeat' with_reducible (first | assumption | (extract_lets +onlyGivenNames zz; first | clear_value zz | skip) | split | dsimp only | apply KeepGen.upd)

theorem Device.flowBilletsTake_keepGen {d : Device} {e : Device} (h : KeepGen d e) :
    KeepGen d (Device.flowBilletsTake e) := by
  unfold Device.flowBilletsTake
  repeat' with_reducible (first | assumption | apply Device.bulkAsk_keepGen | split | dsimp only | apply KeepGen.upd)

theorem Device.flowResize_keepGen {d : Device} {e : Device} (x1 : Nat) (x2 : Nat) (h : KeepGen d e) :
    KeepGen d (Device.flowResize e x1 x2) := by
  unfold Device.flowResize
  repeat' with_reducible (first | assumption | (extract_lets +onlyGivenNames zz; first | (refine (fun (hz : KeepGen d zz) => ?_) ?_; clear_value zz; rotate_left; subst zz) | clear_value zz | skip) | apply Device.bucketUpd_keepGen | apply Device.countN_keepGen | apply Device.flowBilletsTake_keepGen | split | (apply KeepGen.foldl; intro _ _ _) | dsimp only | apply KeepGen.upd)

theorem Device.gainShared_keepGen {d : Device} {e : Device} (x1 : Nat) (h : KeepGen d e) :
    KeepGen d (Device.gainShared e x1) := by
  unfold Device.gainShared
  repeat' with_reducible (first | assumption | (extract_lets +onlyGivenNames zz; first | clear_value zz | skip) | dsimp only | apply KeepGen.upd)

theorem Device.ladderApply_keepGen {d : Device} {e : Device} (h : KeepGen d e) :
    KeepGen d (Device.ladderApply e) := by
  unfold Device.ladderApply
  repeat' with_reducible (first | assumption | (extract_lets +onlyGivenNames zz; first | clear_value zz | skip) | dsimp only | apply KeepGen.upd)

theorem Device.markSet_keepGen {d : Device} {e : Device} (x1 : Nat) (x2 : Nat) (h : KeepGen d e) :
    KeepGen d (Device.markSet e x1 x2) := by
  unfold Device.markSet
  repeat' with_reducible (first | assumption | (extract_lets +onlyGivenNames zz; first | clear_value zz | skip) | dsimp only | apply KeepGen.upd)

theorem Device.setW1c_keepGen {d : Device} {e : Device} (x1 : Nat) (x2 : Nat) (h : KeepGen d e) :
    KeepGen d (Device.setW1c e x1 x2) := by
  unfold Device.setW1c
  repeat' with_reducible (first | assumption | apply Device.setReg_keepGen | apply Device.markSet_keepGen | dsimp only | apply KeepGen.upd)

theorem Device.raise_keepGen {d : Device} {e : Device} (x1 : Nat) (x2 : Nat) (h : KeepGen d e) :
    KeepGen d (Device.raise e x1 x2) := by
  unfold Device.raise
  repeat' with_reducible (first | assumption | (extract_lets +onlyGivenNames zz; first | (refine (fun (hz : KeepGen d zz) => ?_) ?_; clear_value zz; rotate_left; subst zz) | clear_value zz | skip) | apply Device.setW1c_keepGen | split | dsimp only | apply KeepGen.upd)

theorem Device.ladderFlip_keepGen {d : Device} {e : Device} (x1 : Nat) (h : KeepGen d e) :
    KeepGen d (Device.ladderFlip e x1) := by
  unfold Device.ladderFlip
  repeat' with_reducible (first | assumption | (extract_lets +onlyGivenNames zz; first | (refine (fun (hz : KeepGen d zz) => ?_) ?_; clear_value zz; rotate_left; subst zz) | clear_value zz | skip) | apply Device.ladderApply_keepGen | apply Device.raise_keepGen | split | dsimp only | apply KeepGen.upd)

theorem Device.replaceStart_keepGen {d : Device} {e : Device} (x1 : Nat) (x2 : Nat) (h : KeepGen d e) :
    KeepGen d (Device.replaceStart e x1 x2) := by
  unfold Device.replaceStart
  repeat' with_reducible (first | assumption | (extract_lets +onlyGivenNames zz; first | clear_value zz | skip) | split | dsimp only | apply KeepGen.upd)

theorem Device.resizeShared_keepGen {d : Device} {e : Device} (x1 : Nat) (h : KeepGen d e) :
    KeepGen d (Device.resizeShared e x1) := by
  unfold Device.resizeShared
  repeat' with_reducible (first | assumption | (extract_lets +onlyGivenNames zz; first | (refine (fun (hz : KeepGen d zz) => ?_) ?_; clear_value zz; rotate_left; subst zz) | clear_value zz | skip) | apply Device.gainShared_keepGen | split | dsimp only | apply KeepGen.upd)

theorem Device.profileFlip_keepGen {d : Device} {e : Device} (h : KeepGen d e) :
    KeepGen d (Device.profileFlip e) := by
  unfold Device.profileFlip
  repeat' with_reducible (first | assumption | (extract_lets +onlyGivenNames zz; first | (refine (fun (hz : KeepGen d zz) => ?_) ?_; clear_value zz; rotate_left; subst zz) | clear_value zz | skip) | apply Device.replaceStart_keepGen | apply Device.resizeShared_keepGen | apply Device.raise_keepGen | apply Device.flowResize_keepGen | apply Device.ladderFlip_keepGen | split | dsimp only | apply KeepGen.upd)

theorem Device.setPool_keepGen {d : Device} {e : Device} (x1 : Nat) (x2 : Sys2Proof.Machine.Pool) (h : KeepGen d e) :
    KeepGen d (Device.setPool e x1 x2) := by
  unfold Device.setPool
  repeat' with_reducible (first | assumption | (extract_lets +onlyGivenNames zz; first | clear_value zz | skip) | dsimp only | apply KeepGen.upd)

theorem Device.showBusy_keepGen {d : Device} {e : Device} (x1 : Option (Nat × Nat)) (h : KeepGen d e) :
    KeepGen d (Device.showBusy e x1) := by
  unfold Device.showBusy
  repeat' with_reducible (first | assumption | (extract_lets +onlyGivenNames zz; first | clear_value zz | skip) | dsimp only | apply KeepGen.upd)

structure KeepPhase (d e : Device) : Prop where
  state : e.gen.state = d.gen.state
  drainStk : e.gen.drainStk = d.gen.drainStk
  resyncStk : e.gen.resyncStk = d.gen.resyncStk
  active : e.gen.active = d.gen.active
  phase : e.gen.phaseStk = d.gen.phaseStk

theorem KeepPhase.refl (d : Device) : KeepPhase d d := ⟨rfl, rfl, rfl, rfl, rfl⟩
theorem KeepPhase.trans {a b c : Device} (h : KeepPhase a b) (k : KeepPhase b c) : KeepPhase a c := ⟨k.1.trans h.1, k.2.trans h.2, k.3.trans h.3, k.4.trans h.4, k.5.trans h.5⟩
theorem KeepPhase.foldl {α : Type} {f : Device → α → Device} {d : Device} (l : List α) {e : Device}
    (h : ∀ e x, KeepPhase d e → KeepPhase d (f e x)) (h0 : KeepPhase d e) : KeepPhase d (l.foldl f e) := by
  induction l generalizing e with
  | nil => exact h0
  | cons x t ih => exact ih (h e x h0)
theorem KeepPhase.ite {d a b : Device} {c : Prop} [Decidable c] (ha : KeepPhase d a) (hb : KeepPhase d b) : KeepPhase d (if c then a else b) := by
  by_cases h : c
  · rwa [if_pos h]
  · rwa [if_neg h]
theorem KeepPhase.snd {α : Type} {p : α × Device} {a : α} {d e : Device} (h : p = (a, e)) (k : KeepPhase d p.2) : KeepPhase d e := by rw [h] at k; exact k
theorem KeepPhase.snd2 {α β : Type} {p : α × β × Device} {a : α} {b : β} {d e : Device} (h : p = (a, b, e)) (k : KeepPhase d p.2.2) : KeepPhase d e := by rw [h] at k; exact k
theorem KeepPhase.fst {α : Type} {p : Device × α} {a : α} {d e : Device} (h : p = (e, a)) (k : KeepPhase d p.1) : KeepPhase d e := by rw [h] at k; exact k
theorem KeepPhase.pair {α : Type} {a : α} {d e : Device} (k : KeepPhase d e) : KeepPhase d (a, e).2 := k
theorem KeepPhase.pair1 {α : Type} {a : α} {d e : Device} (k : KeepPhase d e) : KeepPhase d (e, a).1 := k
def KeepPhaseO (d : Device) (o : Option Device) : Prop := ∀ e, o = some e → KeepPhase d e
theorem KeepPhaseO.ofNone {d : Device} : KeepPhaseO d none := fun _ h => nomatch h
theorem KeepPhaseO.ofSome {d e : Device} (h : KeepPhase d e) : KeepPhaseO d (some e) := fun _ k => by cases k; exact h
theorem KeepPhaseO.get {d e : Device} {o : Option Device} (h : o = some e) (k : KeepPhaseO d o) : KeepPhase d e := k e h
theorem KeepPhase.fstR {α : Type} {p : StageRun × α} {a : α} {d : Device} {e : StageRun} (h : p = (e, a)) (k : KeepPhase d p.1.d) : KeepPhase d e.d := by rw [h] at k; exact k
def KeepPhaseP {α : Type} (d : Device) (f : α → Device) (o : Option α) : Prop := ∀ a, o = some a → KeepPhase d (f a)
theorem KeepPhaseP.ofNone {α : Type} {f : α → Device} {d : Device} : KeepPhaseP d f none := fun _ h => nomatch h
theorem KeepPhaseP.ofSome {α : Type} {f : α → Device} {d : Device} {a : α} (h : KeepPhase d (f a)) : KeepPhaseP d f (some a) := fun _ k => by cases k; exact h
theorem KeepPhaseP.get2 {α : Type} {o : Option (α × Device)} {a : α} {d e : Device} (h : o = some (a, e)) (k : KeepPhaseP d (·.2) o) : KeepPhase d e := k _ h
theorem KeepPhaseP.get1 {α : Type} {o : Option (Device × α)} {a : α} {d e : Device} (h : o = some (e, a)) (k : KeepPhaseP d (·.1) o) : KeepPhase d e := k _ h
theorem KeepPhase.upd {d e : Device} {xdev : DevCtl} {xstroke : StrokeCtl} {xfile : RegFile} {xsnap : SnapUnit} {xbudget : BudgetUnit} {xprofile : ProfileUnit} {xlane : LaneUnit} {xports : Tab PortSt} {xfft : FftUnit} {xpkt : PacketUnit} {xhall : HallUnit} {xtable : TableUnit} {xbillet : BilletUnit} {xsched : SchedUnit} {xdrops : DropUnit} {xclock : ClockUnit} {xservo : ServoUnit} {xpulse : PulseUnit} {xledger : LedgerUnit} {xtsu : Tab TsuSt} {xdamper : DamperUnit} {xtelem : TelemUnit} {xinteg : IntegUnit} {xhost : HostUnit} {xperf : PerfUnit} {xanvil : AnvilUnit} {xras : RasUnit} {xseq : SeqUnit} {xboot : BootUnit} {xmgmt : MgmtUnit} {xsent : List Output} {xfreeCtr : Nat} (h : KeepPhase d e) :
    KeepPhase d (Device.mk xdev xstroke xfile e.gen xsnap xbudget xprofile xlane xports xfft xpkt xhall xtable xbillet xsched xdrops xclock xservo xpulse xledger xtsu xdamper xtelem xinteg xhost xperf xanvil xras xseq xboot xmgmt xsent xfreeCtr) := ⟨h.1, h.2, h.3, h.4, h.5⟩
theorem KeepPhase.updGen {d e : Device} {xdev : DevCtl} {xstroke : StrokeCtl} {xfile : RegFile} {xsnap : SnapUnit} {xbudget : BudgetUnit} {xprofile : ProfileUnit} {xlane : LaneUnit} {xports : Tab PortSt} {xfft : FftUnit} {xpkt : PacketUnit} {xhall : HallUnit} {xtable : TableUnit} {xbillet : BilletUnit} {xsched : SchedUnit} {xdrops : DropUnit} {xclock : ClockUnit} {xservo : ServoUnit} {xpulse : PulseUnit} {xledger : LedgerUnit} {xtsu : Tab TsuSt} {xdamper : DamperUnit} {xtelem : TelemUnit} {xinteg : IntegUnit} {xhost : HostUnit} {xperf : PerfUnit} {xanvil : AnvilUnit} {xras : RasUnit} {xseq : SeqUnit} {xboot : BootUnit} {xsent : List Output} {xfreeCtr : Nat} {z : GenUnit} (h : KeepPhase d e) (hstate : z.state = e.gen.state) (hdrainStk : z.drainStk = e.gen.drainStk) (hresyncStk : z.resyncStk = e.gen.resyncStk) (hactive : z.active = e.gen.active) (hphase : z.phaseStk = e.gen.phaseStk) :
    KeepPhase d (Device.mk xdev xstroke xfile z xsnap xbudget xprofile xlane xports xfft xpkt xhall xtable xbillet xsched xdrops xclock xservo xpulse xledger xtsu xdamper xtelem xinteg xhost xperf xanvil xras xseq xboot e.mgmt xsent xfreeCtr) := ⟨hstate.trans h.1, hdrainStk.trans h.2, hresyncStk.trans h.3, hactive.trans h.4, hphase.trans h.5⟩

theorem Device.setReg_keepPhase {d : Device} {e : Device} (x1 : Nat) (x2 : Sys2Proof.Word) (h : KeepPhase d e) :
    KeepPhase d (Device.setReg e x1 x2) := by
  unfold Device.setReg
  repeat' with_reducible (first | assumption | (extract_lets +onlyGivenNames zz; first | clear_value zz | skip) | dsimp only | apply KeepPhase.upd | apply KeepPhase.updGen | exact rfl)

theorem Device.copySlot_keepPhase {d : Device} {e : Device} (x1 : Nat) (x2 : Nat) (h : KeepPhase d e) :
    KeepPhase d (Device.copySlot e x1 x2) := by
  unfold Device.copySlot
  repeat' with_reducible (first | assumption | (extract_lets +onlyGivenNames zz; first | (refine (fun (hz : KeepPhase d zz) => ?_) ?_; clear_value zz; rotate_left; subst zz) | clear_value zz | skip) | apply Device.setReg_keepPhase | split | (apply KeepPhase.foldl; intro _ _ _) | dsimp only | apply KeepPhase.upd | apply KeepPhase.updGen | exact rfl)

theorem Device.setFld_keepPhase {d : Device} {e : Device} (x1 : Nat) (x2 : Sys2Proof.Machine.Fld) (x3 : Nat) (h : KeepPhase d e) :
    KeepPhase d (Device.setFld e x1 x2 x3) := by
  unfold Device.setFld
  repeat' with_reducible (first | assumption | apply Device.setReg_keepPhase | dsimp only | apply KeepPhase.upd | apply KeepPhase.updGen | exact rfl)

theorem Device.countSat_keepPhase {d : Device} {e : Device} (x1 : Nat) (x2 : Sys2Proof.Machine.Fld) (h : KeepPhase d e) :
    KeepPhase d (Device.countSat e x1 x2) := by
  unfold Device.countSat
  repeat' with_reducible (first | assumption | (extract_lets +onlyGivenNames zz; first | clear_value zz | skip) | apply Device.setFld_keepPhase | split | dsimp only | apply KeepPhase.upd | apply KeepPhase.updGen | exact rfl)

theorem Device.send_keepPhase {d : Device} {e : Device} (x1 : Sys2Proof.Machine.Output) (h : KeepPhase d e) :
    KeepPhase d (Device.send e x1) := by
  unfold Device.send
  repeat' with_reducible (first | assumption | dsimp only | apply KeepPhase.upd | apply KeepPhase.updGen | exact rfl)

theorem Device.entrySignal_keepPhase {d : Device} {e : Device} (x1 : Nat) (h : KeepPhase d e) :
    KeepPhase d (Device.entrySignal e x1) := by
  unfold Device.entrySignal
  repeat' with_reducible (first | assumption | (extract_lets +onlyGivenNames zz; first | clear_value zz | skip) | apply Device.send_keepPhase | split | dsimp only | apply KeepPhase.upd | apply KeepPhase.updGen | exact rfl)

theorem Device.postWrite_keepPhase {d : Device} {e : Device} (x1 : Nat) (x2 : Nat) (x3 : Sys2Proof.Bytes) (h : KeepPhase d e) :
    KeepPhaseO d (Device.postWrite e x1 x2 x3) := by
  unfold Device.postWrite
  repeat' with_reducible (first | assumption | apply Device.send_keepPhase | split | exact KeepPhaseO.ofNone | apply KeepPhaseO.ofSome | (apply KeepPhaseO.get (by assumption)) | dsimp only | apply KeepPhase.upd | apply KeepPhase.updGen | exact rfl)

theorem Device.markSet_keepPhase {d : Device} {e : Device} (x1 : Nat) (x2 : Nat) (h : KeepPhase d e) :
    KeepPhase d (Device.markSet e x1 x2) := by
  unfold Device.markSet
  repeat' with_reducible (first | assumption | (extract_lets +onlyGivenNames zz; first | clear_value zz | skip) | dsimp only | apply KeepPhase.upd | apply KeepPhase.updGen | exact rfl)

theorem Device.signal_keepPhase {d : Device} {e : Device} (x1 : Nat) (x2 : Nat) (h : KeepPhase d e) :
    KeepPhase d (Device.signal e x1 x2) := by
  unfold Device.signal
  repeat' with_reducible (first | assumption | apply Device.countSat_keepPhase | apply Device.entrySignal_keepPhase | split | dsimp only | apply KeepPhase.upd | apply KeepPhase.updGen | exact rfl)

theorem Device.genNotice_keepPhase {d : Device} {e : Device} (x1 : Sys2Proof.Machine.GenState) (h : KeepPhase d e) :
    KeepPhase d (Device.genNotice e x1) := by
  unfold Device.genNotice
  repeat' with_reducible (first | assumption | (extract_lets +onlyGivenNames zz; first | (have hq : GenUnit := zz; clear hq; subst zz) | clear_value zz | skip) | apply Device.postWrite_keepPhase | apply Device.markSet_keepPhase | apply Device.signal_keepPhase | split | (apply KeepPhaseO.get (by assumption)) | dsimp only | apply KeepPhase.upd | apply KeepPhase.updGen | exact rfl)

theorem Device.rebuildSlot_keepPhase {d : Device} {e : Device} (h : KeepPhase d e) :
    KeepPhase d (Device.rebuildSlot e) := by
  unfold Device.rebuildSlot
  repeat' with_reducible (first | assumption | (extract_lets +onlyGivenNames zz; first | clear_value zz | skip) | apply Device.copySlot_keepPhase | split | (apply KeepPhase.foldl; intro _ _ _) | dsimp only | apply KeepPhase.upd | apply KeepPhase.updGen | exact rfl)

theorem reachable_open {d : Device} {src : Source} (hg : d.reachable src) : (d.dev.state == .config || d.running) = true := by
  unfold Device.reachable Device.gate at hg
  unfold Device.running
  generalize d.dev.state = st at *
  cases st <;> first | rfl | (exfalso; revert hg; cases src <;> simp <;> split <;> simp)

/-- GEN_CTRL written with FLIP where flips may be asked for: its other fields are stored, and the flip is asked for. -/
theorem genCtrl_flip {d : Device} {src : Source} (w : Word) (hg : d.reachable src) :
    genCtrlWrite d src (F.TOP_GEN_CTRL_FLIP.put w 1) = (d.setReg A.TOP_GEN_CTRL (BitVec.ofNat 32 (F.TOP_GEN_CTRL_AT_EN.get w * 2 +
      F.TOP_GEN_CTRL_NOTIFY_EN.get w * 4 + F.TOP_GEN_CTRL_NOTIFY_VEC.get w * 8))).flipAsk := by
  unfold genCtrlWrite
  have h1 : F.TOP_GEN_CTRL_FLIP.get (F.TOP_GEN_CTRL_FLIP.put w 1) = 1 := Fld.get_put _ _ _ (by decide)
  have h2 : F.TOP_GEN_CTRL_AT_EN.get (F.TOP_GEN_CTRL_FLIP.put w 1) = F.TOP_GEN_CTRL_AT_EN.get w := Fld.get_put_other _ _ _ _ (by decide) (by decide)
  have h3 : F.TOP_GEN_CTRL_NOTIFY_EN.get (F.TOP_GEN_CTRL_FLIP.put w 1) = F.TOP_GEN_CTRL_NOTIFY_EN.get w := Fld.get_put_other _ _ _ _ (by decide) (by decide)
  have h4 : F.TOP_GEN_CTRL_NOTIFY_VEC.get (F.TOP_GEN_CTRL_FLIP.put w 1) = F.TOP_GEN_CTRL_NOTIFY_VEC.get w := Fld.get_put_other _ _ _ _ (by decide) (by decide)
  simp only [h1, h2, h3, h4, reachable_open hg, Bool.not_true, Bool.false_and, Bool.false_eq_true, if_false, if_true, and_self]

/-- A register whose change waits for the boundary stays in force until then. -/
theorem cfg_setRegHeld (d : Device) (a : Nat) (v : Word) : (d.setRegHeld a v).cfg a = d.cfg a := by
  unfold Device.setRegHeld Device.cfg
  by_cases h : (assoc d.file.held a).isSome = true
  · obtain ⟨w, hw⟩ := Option.isSome_iff_exists.1 h
    simp only [hw, Option.isSome_some, if_true, Option.getD_some]
  · have hn : assoc d.file.held a = none := by simpa using h
    simp only [hn, Option.isSome_none, Bool.false_eq_true, if_false, Option.getD_none]
    simp [assoc]

theorem avsReadback_shows {d : Device} (mv amps : Nat) (h : d.avsOn = true) : ∃ e : Device, e.damper.vRead = mv % 1024 ∧
    e.damper.iRead = amps % 1024 ∧ e.damper.slow = d.damper.slow ∧ e.damper.vTarget = d.damper.vTarget ∧
    avsReadback d true mv amps = e := by
  unfold avsReadback
  extract_lets t low from_
  rw [if_neg (by simp [h]), if_neg (by simp)]
  refine ⟨_, ?_, ?_, ?_, ?_, rfl⟩ <;> rfl

theorem busyRegion_same {d : Device} (h : d.profile.staged = d.profile.active) : d.busyRegion = none := if_pos h

/-- The registers that hold key data read zero after a commit or an erase begins (R250). -/
theorem clearKeyData_zero {d : Device} (hw : tabWf regReset d.file.regs = true) :
    (∀ i < 8, d.clearKeyData.reg (A.KEYS_KEY_DATA i) = 0#32) ∧ (∀ i < 3, d.clearKeyData.reg (A.KEYS_KEY_SALT i) = 0#32) ∧
      d.clearKeyData.integ = d.integ := by
  have go : ∀ (f : Nat → Nat) (l : List Nat) (e : Device), tabWf regReset e.file.regs = true →
      tabWf regReset (l.foldl (fun d i => d.setReg (f i) 0) e).file.regs = true ∧
      (∀ a, e.reg a = 0#32 → (l.foldl (fun d i => d.setReg (f i) 0) e).reg a = 0#32) ∧
      ∀ i ∈ l, (l.foldl (fun d i => d.setReg (f i) 0) e).reg (f i) = 0#32 := by
    intro f l
    induction l with
    | nil => exact fun e h => ⟨h, fun _ k => k, fun _ m => (List.not_mem_nil m).elim⟩
    | cons x t ih =>
      intro e h
      obtain ⟨w1, w2, w3⟩ := ih _ (Device.setReg_wf h (f x) 0)
      refine ⟨w1, fun a k => w2 a ?_, fun i m => ?_⟩
      · by_cases q : a = f x
        · subst q
          exact Device.reg_setReg_same h _ _
        · rw [Device.reg_setReg_other h _ q]
          exact k
      · rcases List.mem_cons.1 m with m | m
        · subst m
          exact w2 _ (Device.reg_setReg_same h _ _)
        · exact w3 i m
  obtain ⟨a1, -, a3⟩ := go A.KEYS_KEY_DATA (List.range 8) d hw
  obtain ⟨-, b2, b3⟩ := go A.KEYS_KEY_SALT (List.range 3) _ a1
  refine ⟨fun i h => b2 _ (a3 i (List.mem_range.2 h)), fun i h => b3 i (List.mem_range.2 h), ?_⟩
  exact (foldl_frame (·.integ) (f := fun d i => d.setReg (A.KEYS_KEY_SALT i) 0) (fun _ _ => rfl) _ _).trans
    (foldl_frame (·.integ) (f := fun d i => d.setReg (A.KEYS_KEY_DATA i) 0) (fun _ _ => rfl) _ _)

theorem keyData_cipher {d : Device} (hw : tabWf regReset d.file.regs = true) (n : Nat) (big : Bool) :
    (d.setFld A.KEYS_KEY_CMD F.KEYS_KEY_CMD_CIPHER n).keyData big = d.keyData big := by
  have h : ∀ a, a ≠ A.KEYS_KEY_CMD → (d.setFld A.KEYS_KEY_CMD F.KEYS_KEY_CMD_CIPHER n).reg a = d.reg a :=
    fun a k => Device.reg_setReg_other hw _ k
  have h1 : ∀ i, (d.setFld A.KEYS_KEY_CMD F.KEYS_KEY_CMD_CIPHER n).reg (A.KEYS_KEY_DATA i) = d.reg (A.KEYS_KEY_DATA i) ∨ i > 7 := by
    intro i
    by_cases q : i ≤ 7
    · exact .inl (h _ (by simp only [A.KEYS_KEY_DATA, A.KEYS_KEY_CMD]; omega))
    · exact .inr (by omega)
  have h2 : ∀ i, (d.setFld A.KEYS_KEY_CMD F.KEYS_KEY_CMD_CIPHER n).reg (A.KEYS_KEY_SALT i) = d.reg (A.KEYS_KEY_SALT i) ∨ i > 2 := by
    intro i
    by_cases q : i ≤ 2
    · exact .inl (h _ (by simp only [A.KEYS_KEY_SALT, A.KEYS_KEY_CMD]; omega))
    · exact .inr (by omega)
  have e1 := fun i (q : i ≤ 7) => (h1 i).resolve_right (by omega)
  have e2 := fun i (q : i ≤ 2) => (h2 i).resolve_right (by omega)
  generalize d.setFld A.KEYS_KEY_CMD F.KEYS_KEY_CMD_CIPHER n = e at *
  have r8 : List.range 8 = [0, 1, 2, 3, 4, 5, 6, 7] := rfl
  have r4 : List.range 4 = [0, 1, 2, 3] := rfl
  have r3 : List.range 3 = [0, 1, 2] := rfl
  unfold Device.keyData
  cases big
  · simp only [Bool.false_eq_true, if_false, r4, r3, List.flatMap_cons, List.flatMap_nil, List.foldl_cons, List.foldl_nil,
      e1 0 (by decide), e1 1 (by decide), e1 2 (by decide), e1 3 (by decide), e2 0 (by decide), e2 1 (by decide), e2 2 (by decide)]
  · simp only [if_true, r8, r3, List.flatMap_cons, List.flatMap_nil, List.foldl_cons, List.foldl_nil,
      e1 0 (by decide), e1 1 (by decide), e1 2 (by decide), e1 3 (by decide), e1 4 (by decide), e1 5 (by decide), e1 6 (by decide),
      e1 7 (by decide), e2 0 (by decide), e2 1 (by decide), e2 2 (by decide)]

/-- What every slot of a job holds after its commit point, and every other slot. -/
theorem commit_slots (g : KeySlot → KeySlot) (F : Nat → Prop) [DecidablePred F] (l : List Nat) (d : Device) (hn : l.Nodup)
    (hw : tabWf (fun _ => {}) d.integ.slots = true) :
    (∀ k ∈ l, ¬F k → (l.foldl (fun d k => if F k then d else d.setKeySlot k (g (d.keySlot k))) d).keySlot k = g (d.keySlot k)) ∧
    (∀ k, (k ∈ l → F k) → (l.foldl (fun d k => if F k then d else d.setKeySlot k (g (d.keySlot k))) d).keySlot k = d.keySlot k) ∧
    (l.foldl (fun d k => if F k then d else d.setKeySlot k (g (d.keySlot k))) d).integ.job = d.integ.job ∧
    (l.foldl (fun d k => if F k then d else d.setKeySlot k (g (d.keySlot k))) d).integ.sas = d.integ.sas := by
  induction l generalizing d with
  | nil => exact ⟨fun _ m => (List.not_mem_nil m).elim, fun _ _ => rfl, rfl, rfl⟩
  | cons x t ih =>
    rw [List.nodup_cons] at hn
    simp only [List.foldl_cons]
    by_cases hf : F x
    · rw [if_pos hf]
      obtain ⟨a, b, c, e⟩ := ih d hn.2 hw
      refine ⟨fun k m q => ?_, fun k m => b k fun z => m (List.mem_cons_of_mem _ z), c, e⟩
      rcases List.mem_cons.1 m with m | m
      · exact absurd (m ▸ hf) q
      · exact a k m q
    · rw [if_neg hf]
      obtain ⟨a, b, c, e⟩ := ih (d.setKeySlot x (g (d.keySlot x))) hn.2 (tabSet_wf _ _ hw)
      have same : (d.setKeySlot x (g (d.keySlot x))).keySlot x = g (d.keySlot x) := tabGet_tabSet_same _ _ hw
      have other : ∀ k, k ≠ x → (d.setKeySlot x (g (d.keySlot x))).keySlot k = d.keySlot k := fun k q => tabGet_tabSet_other _ q hw
      refine ⟨fun k m q => ?_, fun k m => ?_, c, e⟩
      · rcases List.mem_cons.1 m with m | m
        · subst m
          rw [b k fun z => absurd z hn.1]
          exact same
        · rw [a k m q, other k fun z => hn.1 (z ▸ m)]
      · have q : k ≠ x := fun z => hf (m (z ▸ List.mem_cons_self ..) |> fun y => z ▸ y)
        rw [b k fun z => m (List.mem_cons_of_mem _ z), other k q]

structure KeepMgmt (d e : Device) : Prop where
  mgmt : e.mgmt = d.mgmt

theorem KeepMgmt.refl (d : Device) : KeepMgmt d d := ⟨rfl⟩
theorem KeepMgmt.trans {a b c : Device} (h : KeepMgmt a b) (k : KeepMgmt b c) : KeepMgmt a c := ⟨k.1.trans h.1⟩
theorem KeepMgmt.foldl {α : Type} {f : Device → α → Device} {d : Device} (l : List α) {e : Device}
    (h : ∀ e x, KeepMgmt d e → KeepMgmt d (f e x)) (h0 : KeepMgmt d e) : KeepMgmt d (l.foldl f e) := by
  induction l generalizing e with
  | nil => exact h0
  | cons x t ih => exact ih (h e x h0)
theorem KeepMgmt.ite {d a b : Device} {c : Prop} [Decidable c] (ha : KeepMgmt d a) (hb : KeepMgmt d b) : KeepMgmt d (if c then a else b) := by
  by_cases h : c
  · rwa [if_pos h]
  · rwa [if_neg h]
theorem KeepMgmt.snd {α : Type} {p : α × Device} {a : α} {d e : Device} (h : p = (a, e)) (k : KeepMgmt d p.2) : KeepMgmt d e := by rw [h] at k; exact k
theorem KeepMgmt.snd2 {α β : Type} {p : α × β × Device} {a : α} {b : β} {d e : Device} (h : p = (a, b, e)) (k : KeepMgmt d p.2.2) : KeepMgmt d e := by rw [h] at k; exact k
theorem KeepMgmt.fst {α : Type} {p : Device × α} {a : α} {d e : Device} (h : p = (e, a)) (k : KeepMgmt d p.1) : KeepMgmt d e := by rw [h] at k; exact k
theorem KeepMgmt.pair {α : Type} {a : α} {d e : Device} (k : KeepMgmt d e) : KeepMgmt d (a, e).2 := k
theorem KeepMgmt.pair1 {α : Type} {a : α} {d e : Device} (k : KeepMgmt d e) : KeepMgmt d (e, a).1 := k
def KeepMgmtO (d : Device) (o : Option Device) : Prop := ∀ e, o = some e → KeepMgmt d e
theorem KeepMgmtO.ofNone {d : Device} : KeepMgmtO d none := fun _ h => nomatch h
theorem KeepMgmtO.ofSome {d e : Device} (h : KeepMgmt d e) : KeepMgmtO d (some e) := fun _ k => by cases k; exact h
theorem KeepMgmtO.get {d e : Device} {o : Option Device} (h : o = some e) (k : KeepMgmtO d o) : KeepMgmt d e := k e h
theorem KeepMgmt.fstR {α : Type} {p : StageRun × α} {a : α} {d : Device} {e : StageRun} (h : p = (e, a)) (k : KeepMgmt d p.1.d) : KeepMgmt d e.d := by rw [h] at k; exact k
def KeepMgmtP {α : Type} (d : Device) (f : α → Device) (o : Option α) : Prop := ∀ a, o = some a → KeepMgmt d (f a)
theorem KeepMgmtP.ofNone {α : Type} {f : α → Device} {d : Device} : KeepMgmtP d f none := fun _ h => nomatch h
theorem KeepMgmtP.ofSome {α : Type} {f : α → Device} {d : Device} {a : α} (h : KeepMgmt d (f a)) : KeepMgmtP d f (some a) := fun _ k => by cases k; exact h
theorem KeepMgmtP.get2 {α : Type} {o : Option (α × Device)} {a : α} {d e : Device} (h : o = some (a, e)) (k : KeepMgmtP d (·.2) o) : KeepMgmt d e := k _ h
theorem KeepMgmtP.get1 {α : Type} {o : Option (Device × α)} {a : α} {d e : Device} (h : o = some (e, a)) (k : KeepMgmtP d (·.1) o) : KeepMgmt d e := k _ h
theorem KeepMgmt.upd {d e : Device} {xdev : DevCtl} {xstroke : StrokeCtl} {xfile : RegFile} {xgen : GenUnit} {xsnap : SnapUnit} {xbudget : BudgetUnit} {xprofile : ProfileUnit} {xlane : LaneUnit} {xports : Tab PortSt} {xfft : FftUnit} {xpkt : PacketUnit} {xhall : HallUnit} {xtable : TableUnit} {xbillet : BilletUnit} {xsched : SchedUnit} {xdrops : DropUnit} {xclock : ClockUnit} {xservo : ServoUnit} {xpulse : PulseUnit} {xledger : LedgerUnit} {xtsu : Tab TsuSt} {xdamper : DamperUnit} {xtelem : TelemUnit} {xinteg : IntegUnit} {xhost : HostUnit} {xperf : PerfUnit} {xanvil : AnvilUnit} {xras : RasUnit} {xseq : SeqUnit} {xboot : BootUnit} {xsent : List Output} {xfreeCtr : Nat} (h : KeepMgmt d e) :
    KeepMgmt d (Device.mk xdev xstroke xfile xgen xsnap xbudget xprofile xlane xports xfft xpkt xhall xtable xbillet xsched xdrops xclock xservo xpulse xledger xtsu xdamper xtelem xinteg xhost xperf xanvil xras xseq xboot e.mgmt xsent xfreeCtr) := ⟨h.1⟩

theorem Device.setReg_keepMgmt {d : Device} {e : Device} (x1 : Nat) (x2 : Sys2Proof.Word) (h : KeepMgmt d e) :
    KeepMgmt d (Device.setReg e x1 x2) := by
  unfold Device.setReg
  repeat' with_reducible (first | assumption | (extract_lets +onlyGivenNames zz; first | clear_value zz | skip) | dsimp only | apply KeepMgmt.upd)

theorem Device.errWord_keepMgmt {d : Device} {e : Device} (x1 : Nat) (x2 : Sys2Proof.Word) (h : KeepMgmt d e) :
    KeepMgmt d (Device.errWord e x1 x2) := by
  unfold Device.errWord
  repeat' with_reducible (first | assumption | (extract_lets +onlyGivenNames zz; first | (refine (fun (hz : KeepMgmt d zz) => ?_) ?_; clear_value zz; rotate_left; subst zz) | clear_value zz | skip) | apply Device.setReg_keepMgmt | split | dsimp only | apply KeepMgmt.upd)

theorem Device.err_keepMgmt {d : Device} {e : Device} (x1 : Nat) (x2 : Nat) (x3 : Sys2Proof.Machine.ErrKind) (x4 : Sys2Proof.Source) (h : KeepMgmt d e) :
    KeepMgmt d (Device.err e x1 x2 x3 x4) := by
  unfold Device.err
  repeat' with_reducible (first | assumption | (extract_lets +onlyGivenNames zz; first | (refine (fun (hz : KeepMgmt d zz) => ?_) ?_; clear_value zz; rotate_left; subst zz) | clear_value zz | skip) | apply Device.errWord_keepMgmt | split | dsimp only | apply KeepMgmt.upd)

theorem Device.badAccess_keepMgmt {d : Device} {e : Device} (x1 : Sys2Proof.Source) (x2 : Nat) (h : KeepMgmt d e) :
    KeepMgmt d (Device.badAccess e x1 x2) := by
  unfold Device.badAccess
  repeat' with_reducible (first | assumption | apply Device.err_keepMgmt | split | dsimp only | apply KeepMgmt.upd)

theorem Device.markSet_keepMgmt {d : Device} {e : Device} (x1 : Nat) (x2 : Nat) (h : KeepMgmt d e) :
    KeepMgmt d (Device.markSet e x1 x2) := by
  unfold Device.markSet
  repeat' with_reducible (first | assumption | (extract_lets +onlyGivenNames zz; first | clear_value zz | skip) | dsimp only | apply KeepMgmt.upd)

theorem Device.setW1c_keepMgmt {d : Device} {e : Device} (x1 : Nat) (x2 : Nat) (h : KeepMgmt d e) :
    KeepMgmt d (Device.setW1c e x1 x2) := by
  unfold Device.setW1c
  repeat' with_reducible (first | assumption | apply Device.setReg_keepMgmt | apply Device.markSet_keepMgmt | dsimp only | apply KeepMgmt.upd)

theorem Device.noteWrap_keepMgmt {d : Device} {e : Device} (x1 : Nat) (x2 : Bool) (x3 : Bool) (x4 : Nat) (h : KeepMgmt d e) :
    KeepMgmt d (Device.noteWrap e x1 x2 x3 x4) := by
  unfold Device.noteWrap
  repeat' with_reducible (first | assumption | (extract_lets +onlyGivenNames zz; first | clear_value zz | skip) | dsimp only | apply KeepMgmt.upd)

theorem Device.raise_keepMgmt {d : Device} {e : Device} (x1 : Nat) (x2 : Nat) (h : KeepMgmt d e) :
    KeepMgmt d (Device.raise e x1 x2) := by
  unfold Device.raise
  repeat' with_reducible (first | assumption | (extract_lets +onlyGivenNames zz; first | (refine (fun (hz : KeepMgmt d zz) => ?_) ?_; clear_value zz; rotate_left; subst zz) | clear_value zz | skip) | apply Device.setW1c_keepMgmt | split | dsimp only | apply KeepMgmt.upd)

theorem Device.pushSample_keepMgmt {d : Device} {e : Device} (x1 : Nat) (x2 : Sys2Proof.Machine.Sample) (h : KeepMgmt d e) :
    KeepMgmt d (Device.pushSample e x1 x2) := by
  unfold Device.pushSample
  repeat' with_reducible (first | assumption | (extract_lets +onlyGivenNames zz; first | (refine (fun (hz : KeepMgmt d zz) => ?_) ?_; clear_value zz; rotate_left; subst zz) | clear_value zz | skip) | apply Device.raise_keepMgmt | split | dsimp only | apply KeepMgmt.upd)

theorem Device.pcAdd_keepMgmt {d : Device} {e : Device} (x1 : Option Nat) (x2 : Nat) (x3 : Nat) (x4 : Option Sys2Proof.Machine.EvPkt) (x5 : Nat) (h : KeepMgmt d e) :
    KeepMgmt d (Device.pcAdd e x1 x2 x3 x4 x5) := by
  unfold Device.pcAdd
  repeat' with_reducible (first | assumption | (extract_lets +onlyGivenNames zz; first | (refine (fun (hz : KeepMgmt d zz) => ?_) ?_; clear_value zz; rotate_left; subst zz) | clear_value zz | skip) | apply Device.setW1c_keepMgmt | apply Device.noteWrap_keepMgmt | apply Device.pushSample_keepMgmt | split | dsimp only | apply KeepMgmt.upd)

theorem Device.pcSync_keepMgmt {d : Device} {e : Device} (x1 : Option Nat) (x2 : Nat) (x3 : Nat) (h : KeepMgmt d e) :
    KeepMgmt d (Device.pcSync e x1 x2 x3) := by
  unfold Device.pcSync
  repeat' with_reducible (first | assumption | (extract_lets +onlyGivenNames zz; first | (refine (fun (hz : KeepMgmt d zz) => ?_) ?_; clear_value zz; rotate_left; subst zz) | clear_value zz | skip) | apply Device.pcAdd_keepMgmt | split | dsimp only | apply KeepMgmt.upd)

theorem Device.syncPage_keepMgmt {d : Device} {e : Device} (x1 : Sys2Proof.Machine.RegHit) (h : KeepMgmt d e) :
    KeepMgmt d (Device.syncPage e x1) := by
  unfold Device.syncPage
  repeat' with_reducible (first | assumption | apply Device.pcSync_keepMgmt | split | (apply KeepMgmt.foldl; intro _ _ _) | dsimp only | apply KeepMgmt.upd)

theorem Device.samplePop_keepMgmt {d : Device} {e : Device} (x1 : Nat) (h : KeepMgmt d e) :
    KeepMgmt d (Device.samplePop e x1).2 := by
  unfold Device.samplePop
  repeat' with_reducible (first | assumption | (extract_lets +onlyGivenNames zz; first | clear_value zz | skip) | split | (apply KeepMgmt.snd2 (by assumption)) | (apply KeepMgmt.snd (by assumption)) | (apply KeepMgmt.fst (by assumption)) | dsimp only | apply KeepMgmt.upd)

theorem Device.setLatch_keepMgmt {d : Device} {e : Device} (x1 : Sys2Proof.Source) (x2 : Nat) (x3 : Nat) (h : KeepMgmt d e) :
    KeepMgmt d (Device.setLatch e x1 x2 x3) := by
  unfold Device.setLatch
  repeat' with_reducible (first | assumption | (extract_lets +onlyGivenNames zz; first | clear_value zz | skip) | dsimp only | apply KeepMgmt.upd)

theorem Device.latchRest_keepMgmt {d : Device} {e : Device} (x1 : Sys2Proof.Source) (x2 : Nat) (x3 : List Nat) (h : KeepMgmt d e) :
    KeepMgmt d (Device.latchRest e x1 x2 x3) := by
  unfold Device.latchRest
  repeat' with_reducible (first | assumption | apply Device.setLatch_keepMgmt | (apply KeepMgmt.foldl; intro _ _ _) | dsimp only | apply KeepMgmt.upd)

theorem Device.logPop_keepMgmt {d : Device} {e : Device} (h : KeepMgmt d e) :
    KeepMgmt d (Device.logPop e).2 := by
  unfold Device.logPop
  repeat' with_reducible (first | assumption | (extract_lets +onlyGivenNames zz; first | clear_value zz | skip) | dsimp only | apply KeepMgmt.upd)

theorem Device.free_keepMgmt {d : Device} {e : Device} (x1 : Nat) (h : KeepMgmt d e) :
    KeepMgmt d (Device.free e x1).2 := by
  unfold Device.free
  repeat' with_reducible (first | assumption | dsimp only | apply KeepMgmt.upd)

theorem Device.specialRead_keepMgmt {d : Device} {e : Device} (x1 : Sys2Proof.Source) (x2 : Sys2Proof.Machine.RegHit) (x3 : Nat) (h : KeepMgmt d e) :
    KeepMgmtP d (·.2) (Device.specialRead e x1 x2 x3) := by
  unfold Device.specialRead
  repeat' with_reducible (first | assumption | (extract_lets +onlyGivenNames zz; first | clear_value zz | skip) | apply Device.samplePop_keepMgmt | apply Device.latchRest_keepMgmt | apply Device.logPop_keepMgmt | apply Device.free_keepMgmt | split | exact KeepMgmtP.ofNone | apply KeepMgmtP.ofSome | (apply KeepMgmt.snd2 (by assumption)) | (apply KeepMgmt.snd (by assumption)) | (apply KeepMgmt.fst (by assumption)) | (apply KeepMgmtO.get (by assumption)) | (apply KeepMgmtP.get2 (by assumption)) | (apply KeepMgmtP.get1 (by assumption)) | dsimp only | apply KeepMgmt.upd)

theorem Device.evtPop_keepMgmt {d : Device} {e : Device} (x1 : Nat) (h : KeepMgmt d e) :
    KeepMgmt d (Device.evtPop e x1).2 := by
  unfold Device.evtPop
  repeat' with_reducible (first | assumption | (extract_lets +onlyGivenNames zz; first | clear_value zz | skip) | split | (apply KeepMgmt.snd2 (by assumption)) | (apply KeepMgmt.snd (by assumption)) | (apply KeepMgmt.fst (by assumption)) | dsimp only | apply KeepMgmt.upd)

theorem Device.groupRead_keepMgmt {d : Device} {e : Device} (x1 : Sys2Proof.Source) (x2 : Sys2Proof.Machine.RegHit) (x3 : Nat) (h : KeepMgmt d e) :
    KeepMgmt d (Device.groupRead e x1 x2 x3).2 := by
  unfold Device.groupRead
  repeat' with_reducible (first | assumption | (extract_lets +onlyGivenNames zz; first | clear_value zz | skip) | apply Device.evtPop_keepMgmt | apply Device.latchRest_keepMgmt | split | (apply KeepMgmt.snd2 (by assumption)) | (apply KeepMgmt.snd (by assumption)) | (apply KeepMgmt.fst (by assumption)) | dsimp only | apply KeepMgmt.upd)

theorem Device.readBlock_keepMgmt {d : Device} {e : Device} (x1 : Sys2Proof.Source) (x2 : Sys2Proof.Machine.RegHit) (x3 : Nat) (h : KeepMgmt d e) :
    KeepMgmt d (Device.readBlock e x1 x2 x3).2 := by
  unfold Device.readBlock
  repeat' with_reducible (first | assumption | (extract_lets +onlyGivenNames zz; first | (refine (fun (hz : KeepMgmt d zz) => ?_) ?_; clear_value zz; rotate_left; subst zz) | clear_value zz | skip) | apply Device.syncPage_keepMgmt | apply Device.specialRead_keepMgmt | apply Device.groupRead_keepMgmt | apply Device.setLatch_keepMgmt | split | (apply KeepMgmt.snd2 (by assumption)) | (apply KeepMgmt.snd (by assumption)) | (apply KeepMgmt.fst (by assumption)) | (apply KeepMgmtO.get (by assumption)) | (apply KeepMgmtP.get2 (by assumption)) | (apply KeepMgmtP.get1 (by assumption)) | dsimp only | apply KeepMgmt.upd)

theorem Device.readReg_keepMgmt {d : Device} {e : Device} (x1 : Sys2Proof.Source) (x2 : Nat) (x3 : Nat) (h : KeepMgmt d e) :
    KeepMgmt d (Device.readReg e x1 x2 x3).2 := by
  unfold Device.readReg
  repeat' with_reducible (first | assumption | apply Device.badAccess_keepMgmt | apply Device.err_keepMgmt | apply Device.readBlock_keepMgmt | split | (apply KeepMgmt.snd2 (by assumption)) | (apply KeepMgmt.snd (by assumption)) | (apply KeepMgmt.fst (by assumption)) | dsimp only | apply KeepMgmt.upd)

theorem Device.busRead_keepMgmt {d : Device} {e : Device} (x1 : Sys2Proof.Source) (x2 : Nat) (x3 : Nat) (h : KeepMgmt d e) :
    KeepMgmt d (Device.busRead e x1 x2 x3).2 := by
  unfold Device.busRead
  repeat' with_reducible (first | assumption | apply Device.readReg_keepMgmt | split | exact KeepMgmtP.ofNone | apply KeepMgmtP.ofSome | (apply KeepMgmt.snd2 (by assumption)) | (apply KeepMgmt.snd (by assumption)) | (apply KeepMgmt.fst (by assumption)) | (apply KeepMgmtO.get (by assumption)) | (apply KeepMgmtP.get2 (by assumption)) | (apply KeepMgmtP.get1 (by assumption)) | dsimp only | apply KeepMgmt.upd)

theorem busReadStep_keepMgmt {d : Device} {e : Device} (x1 : Sys2Proof.Source) (x2 : Nat) (x3 : Nat) (h : KeepMgmt d e) :
    KeepMgmt d (busReadStep e x1 x2 x3) := by
  unfold busReadStep
  repeat' with_reducible (first | assumption | (extract_lets +onlyGivenNames zz; first | clear_value zz | skip) | apply Device.busRead_keepMgmt | split | (apply KeepMgmt.snd2 (by assumption)) | (apply KeepMgmt.snd (by assumption)) | (apply KeepMgmt.fst (by assumption)) | (apply KeepMgmtO.get (by assumption)) | (apply KeepMgmtP.get2 (by assumption)) | (apply KeepMgmtP.get1 (by assumption)) | dsimp only | apply KeepMgmt.upd)

/-- A record of the skid FIFO goes last: its packet is of a later cycle (R368, R373). -/
theorem placeSample_skid (l : List Sample) {s : Sample} (h : bit (s.words.headD 0) 3 = true) : placeSample l s = l ++ [s] := by
  unfold placeSample
  extract_lets later k
  have hk : k = 0 := by
    have : ∀ o, later o = false := fun o => by simp only [later, h, Bool.not_true, Bool.and_false, Bool.false_and]
    show (l.reverse.takeWhile later).length = 0
    cases l.reverse with
    | nil => rfl
    | cons o t => simp [List.takeWhile, this o]
  rw [hk]
  simp

/-- A skid record that the FIFO has room for goes last (R368). -/
theorem pushSample_room {d : Device} {n : Nat} {s : Sample} (h : (tabGet (fun _ => ([] : List Sample)) d.perf.fifo n).length < 16)
    (hs : bit (s.words.headD 0) 3 = true) :
    tabGet (fun _ => ([] : List Sample)) (d.pushSample n s).perf.fifo n = tabGet (fun _ => ([] : List Sample)) d.perf.fifo n ++ [s] ∧
    (d.pushSample n s).perf.skids = d.perf.skids ∧ (d.pushSample n s).perf.val = d.perf.val ∧ (d.pushSample n s).dev = d.dev := by
  obtain ⟨d1, hd⟩ : ∃ q : Device, q = { d with perf := { d.perf with
      fifo := tabSet (fun _ => ([] : List Sample)) d.perf.fifo n (tabGet (fun _ => ([] : List Sample)) d.perf.fifo n ++ [s]) } } := ⟨_, rfl⟩
  have e : d.pushSample n s = if (tabGet (fun _ => ([] : List Sample)) d.perf.fifo n).isEmpty then d1.raise (galBase n 11) 0 else d1 := by
    rw [hd]
    unfold Device.pushSample
    extract_lets l p d2
    have ht : (placeSample l s).take 16 = l ++ [s] := by
      rw [placeSample_skid l hs]
      exact List.take_of_length_le (by rw [List.length_append]; exact Nat.succ_le_of_lt h)
    rw [if_neg (Nat.not_le.2 h)]
    simp only [d2, p, ht]
    rfl
  have g : tabGet (fun _ => ([] : List Sample)) d1.perf.fifo n = tabGet (fun _ => ([] : List Sample)) d.perf.fifo n ++ [s] := by
    rw [hd]
    exact tabGet_tabSet_ne _ (by simp)
  have r : d1.perf.skids = d.perf.skids ∧ d1.perf.val = d.perf.val ∧ d1.dev = d.dev := by
    rw [hd]
    exact ⟨rfl, rfl, rfl⟩
  rw [e]
  split
  · rw [Device.raise_perf, Device.raise_dev]
    exact ⟨g, r⟩
  · exact ⟨g, r⟩

theorem setLane_at {d : Device} (hw : lanesWf d) (l : Nat) (s : LaneSt) :
    ∃ z o i, (d.setLane l s).laneSt l = { s with frozenAt := z, outQuiet := o, inQuiet := i } := ⟨_, _, _, tabGet_tabSet_same _ _ hw⟩

theorem setLane_other {d : Device} (hw : lanesWf d) (l m : Nat) (s : LaneSt) (h : m ≠ l) : (d.setLane l s).laneSt m = d.laneSt m :=
  tabGet_tabSet_other _ h hw

theorem setLane_wf {d : Device} (hw : lanesWf d) (l : Nat) (s : LaneSt) : lanesWf (d.setLane l s) := tabSet_wf _ _ hw

theorem modLane_at {d : Device} (hw : lanesWf d) (l : Nat) (f : LaneSt → LaneSt) :
    ∃ z o i, (d.modLane l f).laneSt l = { f (d.laneSt l) with frozenAt := z, outQuiet := o, inQuiet := i } := setLane_at hw l _

theorem laneEvent_lane (d : Device) (l : Nat) (u : Bool) : (d.laneEvent l u).lane = d.lane := by
  unfold Device.laneEvent
  dsimp only
  rw [Device.raise_lane]
  rfl

theorem laneTo_lane (d : Device) (l : Nat) (st : LaneState) : ∃ e : Device, e.lane = d.lane ∧
    (d.laneTo l st).lane = (e.setLane l { d.laneSt l with
      st := st
      blockLock := (d.laneSt l).blockLock && (st == .align || st == .up)
      cdr := (d.laneSt l).cdr && (st == .align || st == .up || st == .train || st == .retrain || st == .test)
      txLpi := (d.laneSt l).txLpi && st == .up
      rxLpi := (d.laneSt l).rxLpi && st == .up
      prbsLock := (d.laneSt l).prbsLock && st == .test }).lane := by
  unfold Device.laneTo
  extract_lets old e f
  refine ⟨e, ?_, ?_⟩
  · dsimp only [e]
    split <;> rfl
  · split
    · exact laneEvent_lane _ _ _
    · split
      · exact laneEvent_lane _ _ _
      · rfl

/-- What a lane is after a move to a state, and what every other lane is. -/
theorem laneTo_spec {d : Device} (hw : lanesWf d) (l : Nat) (st : LaneState) :
    lanesWf (d.laneTo l st) ∧ ((d.laneTo l st).laneSt l).st = st ∧ ((d.laneTo l st).laneSt l).kept = (d.laneSt l).kept ∧
      ∀ m ≠ l, (d.laneTo l st).laneSt m = d.laneSt m := by
  obtain ⟨e, he, h0⟩ := laneTo_lane d l st
  have we : lanesWf e := by
    unfold lanesWf
    rw [he]
    exact hw
  have hl : ∀ q : Device, (d.laneTo l st).lane = q.lane → ∀ m, (d.laneTo l st).laneSt m = q.laneSt m := fun q k m => by
    unfold Device.laneSt
    rw [k]
  obtain ⟨z, o, i, h⟩ := setLane_at we l { d.laneSt l with
    st := st
    blockLock := (d.laneSt l).blockLock && (st == .align || st == .up)
    cdr := (d.laneSt l).cdr && (st == .align || st == .up || st == .train || st == .retrain || st == .test)
    txLpi := (d.laneSt l).txLpi && st == .up
    rxLpi := (d.laneSt l).rxLpi && st == .up
    prbsLock := (d.laneSt l).prbsLock && st == .test }
  have g := (hl _ h0 l).trans h
  refine ⟨?_, congrArg (·.st) g, congrArg (·.kept) g, fun m hm => ?_⟩
  · unfold lanesWf
    rw [h0]
    exact setLane_wf we _ _
  · rw [hl _ h0 m, setLane_other we l m _ hm]
    unfold Device.laneSt
    rw [he]

/-- What a loop over lanes does to each, when every step changes its own lane only. -/
theorem lane_loop {R : LaneSt → LaneSt → Prop} {h : Device → Nat → Device} (hw : ∀ d l, lanesWf d → lanesWf (h d l))
    (hs : ∀ d l, lanesWf d → R (d.laneSt l) ((h d l).laneSt l)) (ho : ∀ d l m, lanesWf d → m ≠ l → (h d l).laneSt m = d.laneSt m)
    (ls : List Nat) (hn : ls.Nodup) (d : Device) (hd : lanesWf d) :
    lanesWf (ls.foldl h d) ∧ (∀ l ∈ ls, R (d.laneSt l) ((ls.foldl h d).laneSt l)) ∧ ∀ m, m ∉ ls → (ls.foldl h d).laneSt m = d.laneSt m := by
  induction ls generalizing d with
  | nil => exact ⟨hd, fun l hl => (List.not_mem_nil hl).elim, fun _ _ => rfl⟩
  | cons x t ih =>
    rw [List.nodup_cons] at hn
    obtain ⟨a, b, c⟩ := ih hn.2 (h d x) (hw d x hd)
    refine ⟨a, fun l hl => ?_, fun m hm => ?_⟩
    · rcases List.mem_cons.1 hl with e | hl
      · subst e
        rw [List.foldl_cons, c l hn.1]
        exact hs d l hd
      · have ne : l ≠ x := fun e => hn.1 (e ▸ hl)
        rw [← ho d x l hd ne]
        exact b l hl
    · rw [List.mem_cons, not_or] at hm
      rw [List.foldl_cons, c m hm.2, ho d x m hd hm.1]

theorem portLanes_nodup (d : Device) (p : Nat) : (d.portLanes p).Nodup := by
  unfold Device.portLanes
  refine List.Pairwise.map _ ?_ List.nodup_range
  intro a b h
  omega

theorem mem_portLanes {d : Device} {p l : Nat} : l ∈ d.portLanes p ↔ p ≤ l ∧ l < p + d.portWidth p := by
  unfold Device.portLanes
  rw [List.mem_map]
  constructor
  · rintro ⟨k, hk, rfl⟩
    rw [List.mem_range] at hk
    omega
  · rintro ⟨a, b⟩
    exact ⟨l - p, List.mem_range.2 (by omega), by omega⟩

/-- The lanes of a port that are free move together, and no other. -/
theorem portTo_spec {d : Device} (hw : lanesWf d) (p : Nat) (st : LaneState) :
    lanesWf (d.portTo p st) ∧
      (∀ l ∈ d.portLanes p, ((d.portTo p st).laneSt l).st = (if (d.laneSt l).free then st else (d.laneSt l).st) ∧
        ((d.portTo p st).laneSt l).kept = (d.laneSt l).kept) ∧
      ∀ m, m ∉ d.portLanes p → (d.portTo p st).laneSt m = d.laneSt m :=
  lane_loop (h := fun d l => if (d.laneSt l).free then d.laneTo l st else d)
    (R := fun a b => b.st = (if a.free then st else a.st) ∧ b.kept = a.kept)
    (fun _ l h => by
      split
      · exact (laneTo_spec h l st).1
      · exact h)
    (fun d l h => by
      by_cases k : (d.laneSt l).free = true
      · rw [if_pos k, if_pos k]
        exact ⟨(laneTo_spec h l st).2.1, (laneTo_spec h l st).2.2.1⟩
      · rw [if_neg k, if_neg k]
        exact ⟨rfl, rfl⟩)
    (fun _ l m h q => by
      split
      · exact (laneTo_spec h l st).2.2.2 m q
      · rfl)
    _ (portLanes_nodup d p) d hw

/-- Lanes keep what no move changes, and are in `A` wherever they moved. -/
structure LaneMove (T : LaneState → Prop) (d e : Device) : Prop where
  wf : lanesWf d → lanesWf e
  each : lanesWf d → ∀ l, (e.laneSt l).kept = (d.laneSt l).kept ∧ ((e.laneSt l).st = (d.laneSt l).st ∨ T (e.laneSt l).st)

theorem LaneMove.ofLane {T : LaneState → Prop} {d e : Device} (h : e.lane.lanes = d.lane.lanes) : LaneMove T d e := by
  constructor
  · intro w
    unfold lanesWf at *
    rw [h]
    exact w
  · intro _ l
    unfold Device.laneSt
    rw [h]
    exact ⟨rfl, .inl rfl⟩

theorem LaneMove.trans {T : LaneState → Prop} {a b c : Device} (h : LaneMove T a b) (k : LaneMove T b c) : LaneMove T a c := by
  refine ⟨fun w => k.wf (h.wf w), fun w l => ?_⟩
  obtain ⟨h1, h2⟩ := h.each w l
  obtain ⟨k1, k2⟩ := k.each (h.wf w) l
  refine ⟨k1.trans h1, ?_⟩
  rcases k2 with k2 | k2
  · rw [k2]
    exact h2
  · exact .inr k2

theorem LaneMove.laneTo {T : LaneState → Prop} (d : Device) (l : Nat) {st : LaneState} (ha : T st) : LaneMove T d (d.laneTo l st) := by
  refine ⟨fun w => (laneTo_spec w l st).1, fun w m => ?_⟩
  obtain ⟨-, h1, h2, h3⟩ := laneTo_spec w l st
  by_cases e : m = l
  · subst e
    exact ⟨h2, .inr (by rw [h1]; exact ha)⟩
  · rw [h3 m e]
    exact ⟨rfl, .inl rfl⟩

theorem LaneMove.portTo {T : LaneState → Prop} (d : Device) (p : Nat) {st : LaneState} (ha : T st) : LaneMove T d (d.portTo p st) :=
  foldl_rel (R := LaneMove T) (fun _ => .ofLane rfl) (fun _ _ _ => .trans) (fun d l => by
    split
    · exact .laneTo d l ha
    · exact .ofLane rfl) _ _

theorem setRate_lane (d : Device) (p r : Nat) : (d.setRate p r).lane = d.lane :=
  foldl_frame (·.lane) (f := fun d l =>
    if (d.laneSt l).st = .test then d else d.setFld (ofLane A.LANE_LN_CTRL l) F.LANE_LN_CTRL_RATE r) (fun _ _ => by
      split <;> rfl) _ _

theorem LaneMove.beginTrain {T : LaneState → Prop} (d : Device) (p : Nat) {st : LaneState} (ha : T st) : LaneMove T d (d.beginTrain p st) :=
  (LaneMove.portTo d p ha).trans (.ofLane rfl)

/-- The configuration of the galleries reads as before (R95 to R97): only pages below theirs were written. -/
structure CfgKeep (d e : Device) : Prop where
  wf : tabWf regReset d.file.regs = true → tabWf regReset e.file.regs = true
  held : e.file.held = d.file.held
  reg : tabWf regReset d.file.regs = true → ∀ a, 0x1000000 ≤ a → e.reg a = d.reg a

theorem CfgKeep.ofFile {d e : Device} (h : e.file = d.file) : CfgKeep d e := by
  refine ⟨fun w => ?_, ?_, fun _ a _ => ?_⟩
  · rw [h]
    exact w
  · rw [h]
  · unfold Device.reg
    rw [h]

theorem CfgKeep.trans {a b c : Device} (h : CfgKeep a b) (k : CfgKeep b c) : CfgKeep a c :=
  ⟨fun w => k.wf (h.wf w), k.held.trans h.held, fun w x q => (k.reg (h.wf w) x q).trans (h.reg w x q)⟩

theorem CfgKeep.setReg (d : Device) (a : Nat) (v : Word) (ha : a < 0x1000000) : CfgKeep d (d.setReg a v) :=
  ⟨fun w => Device.setReg_wf w _ _, rfl, fun w x q => Device.reg_setReg_other w _ (by omega)⟩

/-- A W1C bit marked as set in the present cycle (R10). -/
theorem CfgKeep.mark (d : Device) (a n : Nat) : CfgKeep d (d.markSet a n) :=
  ⟨fun w => w, rfl, fun _ _ _ => rfl⟩

theorem CfgKeep.raise (d : Device) (b n : Nat) (hb : b + 0x10 < 0x1000000) : CfgKeep d (d.raise b n) := by
  refine ⟨fun w => raise_wf w _ _, Device.raise_held _ _ _, fun w x q => ?_⟩
  unfold Device.reg
  rw [Device.raise_reg]
  exact Device.reg_setReg_other w _ (by omega)

theorem CfgKeep.laneEvent (d : Device) (l : Nat) (u : Bool) (hl : l < 2048) : CfgKeep d (d.laneEvent l u) := by
  unfold Device.laneEvent Device.setW1c
  dsimp only
  refine ((CfgKeep.setReg _ _ _ ?_).trans (.mark _ _ _)).trans (CfgKeep.raise _ _ _ ?_)
  · split <;> simp only [A.LANE_EVT_UP, A.LANE_EVT_DOWN] <;> omega
  · unfold laneBase
    omega

theorem CfgKeep.laneTo (d : Device) (l : Nat) (st : LaneState) (hl : l < 2048) : CfgKeep d (d.laneTo l st) := by
  unfold Device.laneTo
  extract_lets old e f
  have k : CfgKeep d e := by
    dsimp only [e]
    split
    · refine CfgKeep.setReg _ _ _ ?_
      simp only [ofLane, A.LANE_LN_TXEQ]
      omega
    · exact .ofFile rfl
  have k2 : CfgKeep d f := k.trans (.ofFile rfl)
  clear_value f
  split
  · exact k2.trans (CfgKeep.laneEvent f l _ hl)
  · split
    · exact k2.trans (CfgKeep.laneEvent f l _ hl)
    · exact k2

theorem CfgKeep.cfg {d e : Device} (h : CfgKeep d e) (w : tabWf regReset d.file.regs = true) {a : Nat} (ha : 0x1000000 ≤ a) : e.cfg a = d.cfg a := by
  unfold Device.cfg
  rw [h.held, h.reg w a ha]

theorem CfgKeep.portWidth {d e : Device} (h : CfgKeep d e) (w : tabWf regReset d.file.regs = true) (p : Nat) : e.portWidth p = d.portWidth p := by
  unfold Device.portWidth Device.fld
  rw [h.cfg w (by simp only [ofPort, A.PORT_PT_CFG]; omega)]

theorem CfgKeep.portEn {d e : Device} (h : CfgKeep d e) (w : tabWf regReset d.file.regs = true) (p : Nat) : e.portEn p = d.portEn p := by
  unfold Device.portEn Device.flag Device.fld
  rw [h.cfg w (by simp only [ofPort, A.PORT_PT_CFG]; omega)]

theorem CfgKeep.portLanes {d e : Device} (h : CfgKeep d e) (w : tabWf regReset d.file.regs = true) (p : Nat) : e.portLanes p = d.portLanes p := by
  unfold Device.portLanes
  rw [h.portWidth w]

theorem CfgKeep.portOf {d e : Device} (h : CfgKeep d e) (w : tabWf regReset d.file.regs = true) (l : Nat) : e.portOf l = d.portOf l := by
  unfold Device.portOf
  simp only [h.portEn w, h.portWidth w]

theorem portWidth_le (d : Device) (p : Nat) : d.portWidth p ≤ 8 := by
  unfold Device.portWidth Device.fld
  have h : F.PORT_PT_CFG_WIDTH.get (d.cfg (ofPort A.PORT_PT_CFG p)) < 4 := by
    have : ∀ w : Word, F.PORT_PT_CFG_WIDTH.get w < 4 := by
      intro w
      simp only [Fld.get, bitsOf, F.PORT_PT_CFG_WIDTH]
      omega
    exact this _
  calc 2 ^ _ ≤ 2 ^ 3 := Nat.pow_le_pow_right (by decide) (by omega)
    _ = 8 := rfl

/-- The port of a lane holds it among its lanes, and is enabled. -/
theorem portOf_spec {d : Device} {l p : Nat} (h : d.portOf l = some p) : d.portEn p = true ∧ l ∈ d.portLanes p ∧ p ≤ l := by
  unfold Device.portOf at h
  have h1 := List.find?_some h
  have h2 := List.mem_of_find?_eq_some h
  simp only [Bool.and_eq_true, decide_eq_true_eq] at h1
  have h3 : p ≤ l := by
    simp only [List.map_cons, List.map_nil, List.mem_cons, List.not_mem_nil, or_false] at h2
    rcases h2 with e | e | e | e <;> subst e <;> exact Nat.div_mul_le_self _ _
  exact ⟨h1.1, mem_portLanes.2 ⟨h3, h1.2⟩, h3⟩

/-- A port one of whose lanes does not wait for signal does not start. -/
theorem tryStart_still {d : Device} {p l : Nat} (hl : l ∈ d.portLanes p) (hs : (d.laneSt l).st ≠ .waitSignal) : d.tryStart p = d := by
  unfold Device.tryStart
  dsimp only
  have : ((d.portLanes p).all fun l => (d.laneSt l).st == .waitSignal) = false := by
    rw [List.all_eq_false]
    exact ⟨l, hl, by simpa using hs⟩
  rw [this]
  exact if_pos (by simp)

/-- Lanes that bring-up leaves alone: in TEST, disabled, retired, or sending a fault sequence. -/
def LaneSt.apart (s : LaneSt) : Prop := s.st = .test ∨ s.st = .disabled ∨ s.st = .retired ∨ s.st = .faultTx

structure KeepLanes (d e : Device) : Prop where
  lanes : e.lane.lanes = d.lane.lanes
  refBad : e.lane.refBad = d.lane.refBad

theorem KeepLanes.refl (d : Device) : KeepLanes d d := ⟨rfl, rfl⟩
theorem KeepLanes.trans {a b c : Device} (h : KeepLanes a b) (k : KeepLanes b c) : KeepLanes a c := ⟨k.1.trans h.1, k.2.trans h.2⟩
theorem KeepLanes.foldl {α : Type} {f : Device → α → Device} {d : Device} (l : List α) {e : Device}
    (h : ∀ e x, KeepLanes d e → KeepLanes d (f e x)) (h0 : KeepLanes d e) : KeepLanes d (l.foldl f e) := by
  induction l generalizing e with
  | nil => exact h0
  | cons x t ih => exact ih (h e x h0)
theorem KeepLanes.ite {d a b : Device} {c : Prop} [Decidable c] (ha : KeepLanes d a) (hb : KeepLanes d b) : KeepLanes d (if c then a else b) := by
  by_cases h : c
  · rwa [if_pos h]
  · rwa [if_neg h]
theorem KeepLanes.snd {α : Type} {p : α × Device} {a : α} {d e : Device} (h : p = (a, e)) (k : KeepLanes d p.2) : KeepLanes d e := by rw [h] at k; exact k
theorem KeepLanes.snd2 {α β : Type} {p : α × β × Device} {a : α} {b : β} {d e : Device} (h : p = (a, b, e)) (k : KeepLanes d p.2.2) : KeepLanes d e := by rw [h] at k; exact k
theorem KeepLanes.fst {α : Type} {p : Device × α} {a : α} {d e : Device} (h : p = (e, a)) (k : KeepLanes d p.1) : KeepLanes d e := by rw [h] at k; exact k
theorem KeepLanes.pair {α : Type} {a : α} {d e : Device} (k : KeepLanes d e) : KeepLanes d (a, e).2 := k
theorem KeepLanes.pair1 {α : Type} {a : α} {d e : Device} (k : KeepLanes d e) : KeepLanes d (e, a).1 := k
def KeepLanesO (d : Device) (o : Option Device) : Prop := ∀ e, o = some e → KeepLanes d e
theorem KeepLanesO.ofNone {d : Device} : KeepLanesO d none := fun _ h => nomatch h
theorem KeepLanesO.ofSome {d e : Device} (h : KeepLanes d e) : KeepLanesO d (some e) := fun _ k => by cases k; exact h
theorem KeepLanesO.get {d e : Device} {o : Option Device} (h : o = some e) (k : KeepLanesO d o) : KeepLanes d e := k e h
theorem KeepLanes.fstR {α : Type} {p : StageRun × α} {a : α} {d : Device} {e : StageRun} (h : p = (e, a)) (k : KeepLanes d p.1.d) : KeepLanes d e.d := by rw [h] at k; exact k
def KeepLanesP {α : Type} (d : Device) (f : α → Device) (o : Option α) : Prop := ∀ a, o = some a → KeepLanes d (f a)
theorem KeepLanesP.ofNone {α : Type} {f : α → Device} {d : Device} : KeepLanesP d f none := fun _ h => nomatch h
theorem KeepLanesP.ofSome {α : Type} {f : α → Device} {d : Device} {a : α} (h : KeepLanes d (f a)) : KeepLanesP d f (some a) := fun _ k => by cases k; exact h
theorem KeepLanesP.get2 {α : Type} {o : Option (α × Device)} {a : α} {d e : Device} (h : o = some (a, e)) (k : KeepLanesP d (·.2) o) : KeepLanes d e := k _ h
theorem KeepLanesP.get1 {α : Type} {o : Option (Device × α)} {a : α} {d e : Device} (h : o = some (e, a)) (k : KeepLanesP d (·.1) o) : KeepLanes d e := k _ h
theorem KeepLanes.upd {d e : Device} {xdev : DevCtl} {xstroke : StrokeCtl} {xfile : RegFile} {xgen : GenUnit} {xsnap : SnapUnit} {xbudget : BudgetUnit} {xprofile : ProfileUnit} {xports : Tab PortSt} {xfft : FftUnit} {xpkt : PacketUnit} {xhall : HallUnit} {xtable : TableUnit} {xbillet : BilletUnit} {xsched : SchedUnit} {xdrops : DropUnit} {xclock : ClockUnit} {xservo : ServoUnit} {xpulse : PulseUnit} {xledger : LedgerUnit} {xtsu : Tab TsuSt} {xdamper : DamperUnit} {xtelem : TelemUnit} {xinteg : IntegUnit} {xhost : HostUnit} {xperf : PerfUnit} {xanvil : AnvilUnit} {xras : RasUnit} {xseq : SeqUnit} {xboot : BootUnit} {xmgmt : MgmtUnit} {xsent : List Output} {xfreeCtr : Nat} (h : KeepLanes d e) :
    KeepLanes d (Device.mk xdev xstroke xfile xgen xsnap xbudget xprofile e.lane xports xfft xpkt xhall xtable xbillet xsched xdrops xclock xservo xpulse xledger xtsu xdamper xtelem xinteg xhost xperf xanvil xras xseq xboot xmgmt xsent xfreeCtr) := ⟨h.1, h.2⟩
theorem KeepLanes.updLane {d e : Device} {xdev : DevCtl} {xstroke : StrokeCtl} {xfile : RegFile} {xgen : GenUnit} {xsnap : SnapUnit} {xbudget : BudgetUnit} {xprofile : ProfileUnit} {xports : Tab PortSt} {xfft : FftUnit} {xpkt : PacketUnit} {xhall : HallUnit} {xtable : TableUnit} {xbillet : BilletUnit} {xsched : SchedUnit} {xdrops : DropUnit} {xclock : ClockUnit} {xservo : ServoUnit} {xpulse : PulseUnit} {xledger : LedgerUnit} {xtsu : Tab TsuSt} {xdamper : DamperUnit} {xtelem : TelemUnit} {xinteg : IntegUnit} {xhost : HostUnit} {xperf : PerfUnit} {xanvil : AnvilUnit} {xras : RasUnit} {xseq : SeqUnit} {xboot : BootUnit} {xsent : List Output} {xfreeCtr : Nat} {z : LaneUnit} (h : KeepLanes d e) (hlanes : z.lanes = e.lane.lanes) (hrefBad : z.refBad = e.lane.refBad) :
    KeepLanes d (Device.mk xdev xstroke xfile xgen xsnap xbudget xprofile z xports xfft xpkt xhall xtable xbillet xsched xdrops xclock xservo xpulse xledger xtsu xdamper xtelem xinteg xhost xperf xanvil xras xseq xboot e.mgmt xsent xfreeCtr) := ⟨hlanes.trans h.1, hrefBad.trans h.2⟩

theorem Device.setQueueSt_keepLanes {d : Device} {e : Device} (x1 : Nat) (x2 : Sys2Proof.Machine.QueueSt) (h : KeepLanes d e) :
    KeepLanes d (Device.setQueueSt e x1 x2) := by
  unfold Device.setQueueSt
  repeat' with_reducible (first | assumption | (extract_lets +onlyGivenNames zz; first | clear_value zz | skip) | dsimp only | apply KeepLanes.upd | apply KeepLanes.updLane | exact rfl)

theorem Device.setClassSt_keepLanes {d : Device} {e : Device} (x1 : Nat) (x2 : Nat) (x3 : Sys2Proof.Machine.ClassSt) (h : KeepLanes d e) :
    KeepLanes d (Device.setClassSt e x1 x2 x3) := by
  unfold Device.setClassSt
  repeat' with_reducible (first | assumption | (extract_lets +onlyGivenNames zz; first | clear_value zz | skip) | dsimp only | apply KeepLanes.upd | apply KeepLanes.updLane | exact rfl)

theorem Device.addCharge_keepLanes {d : Device} {e : Device} (x1 : Nat) (x2 : Sys2Proof.Machine.Charge) (x3 : Nat) (h : KeepLanes d e) :
    KeepLanes d (Device.addCharge e x1 x2 x3) := by
  unfold Device.addCharge
  repeat' with_reducible (first | assumption | (extract_lets +onlyGivenNames zz; first | clear_value zz | skip) | apply Device.setQueueSt_keepLanes | apply Device.setClassSt_keepLanes | split | dsimp only | apply KeepLanes.upd | apply KeepLanes.updLane | exact rfl)

theorem Device.setDwrr_keepLanes {d : Device} {e : Device} (x1 : Nat) (x2 : Sys2Proof.Machine.DwrrSt) (h : KeepLanes d e) :
    KeepLanes d (Device.setDwrr e x1 x2) := by
  unfold Device.setDwrr
  repeat' with_reducible (first | assumption | (extract_lets +onlyGivenNames zz; first | clear_value zz | skip) | dsimp only | apply KeepLanes.upd | apply KeepLanes.updLane | exact rfl)

theorem Device.addDeficit_keepLanes {d : Device} {e : Device} (x1 : Nat) (x2 : Int) (h : KeepLanes d e) :
    KeepLanes d (Device.addDeficit e x1 x2) := by
  unfold Device.addDeficit
  repeat' with_reducible (first | assumption | (extract_lets +onlyGivenNames zz; first | clear_value zz | skip) | apply Device.setDwrr_keepLanes | split | dsimp only | apply KeepLanes.upd | apply KeepLanes.updLane | exact rfl)

theorem Device.countN_keepLanes {d : Device} {e : Device} (x1 : Nat) (x2 : Nat) (h : KeepLanes d e) :
    KeepLanes d (Device.countN e x1 x2) := by
  unfold Device.countN
  repeat' with_reducible (first | assumption | (extract_lets +onlyGivenNames zz; first | clear_value zz | skip) | dsimp only | apply KeepLanes.upd | apply KeepLanes.updLane | exact rfl)

theorem Device.count_keepLanes {d : Device} {e : Device} (x1 : Nat) (h : KeepLanes d e) :
    KeepLanes d (Device.count e x1) := by
  unfold Device.count
  repeat' with_reducible (first | assumption | apply Device.countN_keepLanes | dsimp only | apply KeepLanes.upd | apply KeepLanes.updLane | exact rfl)

theorem Device.portCount_keepLanes {d : Device} {e : Device} (x1 : Nat) (x2 : Nat) (x3 : Nat) (h : KeepLanes d e) :
    KeepLanes d (Device.portCount e x1 x2 x3) := by
  unfold Device.portCount
  repeat' with_reducible (first | assumption | apply Device.countN_keepLanes | split | dsimp only | apply KeepLanes.upd | apply KeepLanes.updLane | exact rfl)

theorem Device.queueCount_keepLanes {d : Device} {e : Device} (x1 : Nat) (x2 : Nat) (x3 : Nat) (h : KeepLanes d e) :
    KeepLanes d (Device.queueCount e x1 x2 x3) := by
  unfold Device.queueCount
  repeat' with_reducible (first | assumption | apply Device.countN_keepLanes | split | dsimp only | apply KeepLanes.upd | apply KeepLanes.updLane | exact rfl)

theorem Device.noteAdded_keepLanes {d : Device} {e : Device} (x1 : Nat) (x2 : Nat) (x3 : Option Sys2Proof.Machine.EvPkt) (h : KeepLanes d e) :
    KeepLanes d (Device.noteAdded e x1 x2 x3) := by
  unfold Device.noteAdded
  repeat' with_reducible (first | assumption | (extract_lets +onlyGivenNames zz; first | clear_value zz | skip) | dsimp only | apply KeepLanes.upd | apply KeepLanes.updLane | exact rfl)

theorem Device.setReg_keepLanes {d : Device} {e : Device} (x1 : Nat) (x2 : Sys2Proof.Word) (h : KeepLanes d e) :
    KeepLanes d (Device.setReg e x1 x2) := by
  unfold Device.setReg
  repeat' with_reducible (first | assumption | (extract_lets +onlyGivenNames zz; first | clear_value zz | skip) | dsimp only | apply KeepLanes.upd | apply KeepLanes.updLane | exact rfl)

theorem Device.markSet_keepLanes {d : Device} {e : Device} (x1 : Nat) (x2 : Nat) (h : KeepLanes d e) :
    KeepLanes d (Device.markSet e x1 x2) := by
  unfold Device.markSet
  repeat' with_reducible (first | assumption | (extract_lets +onlyGivenNames zz; first | clear_value zz | skip) | dsimp only | apply KeepLanes.upd | apply KeepLanes.updLane | exact rfl)

theorem Device.setW1c_keepLanes {d : Device} {e : Device} (x1 : Nat) (x2 : Nat) (h : KeepLanes d e) :
    KeepLanes d (Device.setW1c e x1 x2) := by
  unfold Device.setW1c
  repeat' with_reducible (first | assumption | apply Device.setReg_keepLanes | apply Device.markSet_keepLanes | dsimp only | apply KeepLanes.upd | apply KeepLanes.updLane | exact rfl)

theorem Device.noteWrap_keepLanes {d : Device} {e : Device} (x1 : Nat) (x2 : Bool) (x3 : Bool) (x4 : Nat) (h : KeepLanes d e) :
    KeepLanes d (Device.noteWrap e x1 x2 x3 x4) := by
  unfold Device.noteWrap
  repeat' with_reducible (first | assumption | (extract_lets +onlyGivenNames zz; first | clear_value zz | skip) | dsimp only | apply KeepLanes.upd | apply KeepLanes.updLane | exact rfl)

theorem Device.raise_keepLanes {d : Device} {e : Device} (x1 : Nat) (x2 : Nat) (h : KeepLanes d e) :
    KeepLanes d (Device.raise e x1 x2) := by
  unfold Device.raise
  repeat' with_reducible (first | assumption | (extract_lets +onlyGivenNames zz; first | (refine (fun (hz : KeepLanes d zz) => ?_) ?_; clear_value zz; rotate_left; subst zz) | clear_value zz | skip) | apply Device.setW1c_keepLanes | split | dsimp only | apply KeepLanes.upd | apply KeepLanes.updLane | exact rfl)

theorem Device.pushSample_keepLanes {d : Device} {e : Device} (x1 : Nat) (x2 : Sys2Proof.Machine.Sample) (h : KeepLanes d e) :
    KeepLanes d (Device.pushSample e x1 x2) := by
  unfold Device.pushSample
  repeat' with_reducible (first | assumption | (extract_lets +onlyGivenNames zz; first | (refine (fun (hz : KeepLanes d zz) => ?_) ?_; clear_value zz; rotate_left; subst zz) | clear_value zz | skip) | apply Device.raise_keepLanes | split | dsimp only | apply KeepLanes.upd | apply KeepLanes.updLane | exact rfl)

theorem Device.pcAdd_keepLanes {d : Device} {e : Device} (x1 : Option Nat) (x2 : Nat) (x3 : Nat) (x4 : Option Sys2Proof.Machine.EvPkt) (x5 : Nat) (h : KeepLanes d e) :
    KeepLanes d (Device.pcAdd e x1 x2 x3 x4 x5) := by
  unfold Device.pcAdd
  repeat' with_reducible (first | assumption | (extract_lets +onlyGivenNames zz; first | (refine (fun (hz : KeepLanes d zz) => ?_) ?_; clear_value zz; rotate_left; subst zz) | clear_value zz | skip) | apply Device.setW1c_keepLanes | apply Device.noteWrap_keepLanes | apply Device.pushSample_keepLanes | split | dsimp only | apply KeepLanes.upd | apply KeepLanes.updLane | exact rfl)

theorem Device.event_keepLanes {d : Device} {e : Device} (x1 : Option Nat) (x2 : Nat) (x3 : Nat) (x4 : Option Nat) (x5 : Sys2Proof.Machine.EvPkt) (h : KeepLanes d e) :
    KeepLanes d (Device.event e x1 x2 x3 x4 x5) := by
  unfold Device.event
  repeat' with_reducible (first | assumption | (extract_lets +onlyGivenNames zz; first | clear_value zz | skip) | apply Device.noteAdded_keepLanes | apply Device.pcAdd_keepLanes | split | (apply KeepLanes.foldl; intro _ _ _) | dsimp only | apply KeepLanes.upd | apply KeepLanes.updLane | exact rfl)

theorem Device.dropCount_keepLanes {d : Device} {e : Device} (x1 : Sys2Proof.Machine.DropInfo) (h : KeepLanes d e) :
    KeepLanes d (Device.dropCount e x1) := by
  unfold Device.dropCount
  repeat' with_reducible (first | assumption | apply Device.count_keepLanes | apply Device.event_keepLanes | split | dsimp only | apply KeepLanes.upd | apply KeepLanes.updLane | exact rfl)

theorem Device.aggregate_keepLanes {d : Device} {e : Device} (x1 : Nat) (x2 : Nat) (h : KeepLanes d e) :
    KeepLanes d (Device.aggregate e x1 x2) := by
  unfold Device.aggregate
  repeat' with_reducible (first | assumption | (extract_lets +onlyGivenNames zz; first | (refine (fun (hz : KeepLanes d zz) => ?_) ?_; clear_value zz; rotate_left; subst zz) | clear_value zz | skip) | apply Device.markSet_keepLanes | apply Device.count_keepLanes | apply Device.setReg_keepLanes | apply Device.raise_keepLanes | split | dsimp only | apply KeepLanes.upd | apply KeepLanes.updLane | exact rfl)

theorem Device.pushRecord_keepLanes {d : Device} {e : Device} (x1 : Sys2Proof.Machine.DropInfo) (h : KeepLanes d e) :
    KeepLanes d (Device.pushRecord e x1) := by
  unfold Device.pushRecord
  repeat' with_reducible (first | assumption | (extract_lets +onlyGivenNames zz; first | clear_value zz | skip) | apply Device.raise_keepLanes | apply Device.count_keepLanes | apply Device.aggregate_keepLanes | split | dsimp only | apply KeepLanes.upd | apply KeepLanes.updLane | exact rfl)

theorem Device.recordDrop_keepLanes {d : Device} {e : Device} (x1 : Sys2Proof.Machine.DropInfo) (h : KeepLanes d e) :
    KeepLanes d (Device.recordDrop e x1) := by
  unfold Device.recordDrop
  repeat' with_reducible (first | assumption | (extract_lets +onlyGivenNames zz; first | clear_value zz | skip) | apply Device.pushRecord_keepLanes | apply Device.aggregate_keepLanes | split | dsimp only | apply KeepLanes.upd | apply KeepLanes.updLane | exact rfl)

theorem Device.drop_keepLanes {d : Device} {e : Device} (x1 : Sys2Proof.Machine.DropInfo) (h : KeepLanes d e) :
    KeepLanes d (Device.drop e x1) := by
  unfold Device.drop
  repeat' with_reducible (first | assumption | apply Device.recordDrop_keepLanes | apply Device.dropCount_keepLanes | split | dsimp only | apply KeepLanes.upd | apply KeepLanes.updLane | exact rfl)

theorem Device.loseOne_keepLanes {d : Device} {e : Device} (x1 : Sys2Proof.Machine.Frame) (x2 : Sys2Proof.Machine.DropInfo) (h : KeepLanes d e) :
    KeepLanes d (Device.loseOne e x1 x2) := by
  unfold Device.loseOne
  repeat' with_reducible (first | assumption | (extract_lets +onlyGivenNames zz; first | (refine (fun (hz : KeepLanes d zz) => ?_) ?_; clear_value zz; rotate_left; subst zz) | skip) | apply Device.count_keepLanes | apply Device.dropCount_keepLanes | apply Device.drop_keepLanes | split | dsimp only | apply KeepLanes.upd | apply KeepLanes.updLane | exact rfl)

theorem Device.refuseAdmission_keepLanes {d : Device} {e : Device} (x1 : Sys2Proof.Machine.Frame) (x2 : Sys2Proof.Machine.AdmitReq) (x3 : Nat) (h : KeepLanes d e) :
    KeepLanes d (Device.refuseAdmission e x1 x2 x3) := by
  unfold Device.refuseAdmission
  repeat' with_reducible (first | assumption | (extract_lets +onlyGivenNames zz; first | (refine (fun (hz : KeepLanes d zz) => ?_) ?_; clear_value zz; rotate_left; subst zz) | skip) | apply Device.count_keepLanes | apply Device.portCount_keepLanes | apply Device.queueCount_keepLanes | apply Device.loseOne_keepLanes | split | dsimp only | apply KeepLanes.upd | apply KeepLanes.updLane | exact rfl)

theorem Device.free_keepLanes {d : Device} {e : Device} (x1 : Nat) (h : KeepLanes d e) :
    KeepLanes d (Device.free e x1).2 := by
  unfold Device.free
  repeat' with_reducible (first | assumption | dsimp only | apply KeepLanes.upd | apply KeepLanes.updLane | exact rfl)

theorem Device.setFrame_keepLanes {d : Device} {e : Device} (x1 : Sys2Proof.Machine.Frame) (h : KeepLanes d e) :
    KeepLanes d (Device.setFrame e x1) := by
  unfold Device.setFrame
  repeat' with_reducible (first | assumption | (extract_lets +onlyGivenNames zz; first | clear_value zz | skip) | dsimp only | apply KeepLanes.upd | apply KeepLanes.updLane | exact rfl)

theorem Device.modFrame_keepLanes {d : Device} {e : Device} (x1 : Nat) (x2 : Sys2Proof.Machine.Frame → Sys2Proof.Machine.Frame) (h : KeepLanes d e) :
    KeepLanes d (Device.modFrame e x1 x2) := by
  unfold Device.modFrame
  repeat' with_reducible (first | assumption | apply Device.setFrame_keepLanes | split | dsimp only | apply KeepLanes.upd | apply KeepLanes.updLane | exact rfl)

theorem Device.allocCells_keepLanes {d : Device} {e : Device} (x1 : Nat) (x2 : Nat) (x3 : Nat) (h : KeepLanes d e) :
    KeepLanes d (Device.allocCells e x1 x2 x3) := by
  induction x3 generalizing e x1 x2 with
  | zero =>
    unfold Device.allocCells
    repeat' with_reducible (first | assumption | (extract_lets +onlyGivenNames zz; first | (refine (fun (hz : KeepLanes d zz) => ?_) ?_; clear_value zz; rotate_left; subst zz) | clear_value zz | skip) | apply Device.modFrame_keepLanes | split | dsimp only | apply KeepLanes.upd | apply KeepLanes.updLane | exact rfl)
  | succ n ih =>
    unfold Device.allocCells
    repeat' with_reducible (first | assumption | apply ih | (extract_lets +onlyGivenNames zz; first | (refine (fun (hz : KeepLanes d zz) => ?_) ?_; clear_value zz; rotate_left; subst zz) | clear_value zz | skip) | apply Device.modFrame_keepLanes | split | dsimp only | apply KeepLanes.upd | apply KeepLanes.updLane | exact rfl)

theorem Device.spend_keepLanes {d : Device} {e : Device} (x1 : Nat) (x2 : Nat) (x3 : Nat) (x4 : Nat) (h : KeepLanes d e) :
    KeepLanes d (Device.spend e x1 x2 x3 x4) := by
  unfold Device.spend
  repeat' with_reducible (first | assumption | (extract_lets +onlyGivenNames zz; first | clear_value zz | skip) | dsimp only | apply KeepLanes.upd | apply KeepLanes.updLane | exact rfl)

theorem Device.modCopy_keepLanes {d : Device} {e : Device} (x1 : Nat) (x2 : Sys2Proof.Machine.Copy → Sys2Proof.Machine.Copy) (h : KeepLanes d e) :
    KeepLanes d (Device.modCopy e x1 x2) := by
  unfold Device.modCopy
  repeat' with_reducible (first | assumption | (extract_lets +onlyGivenNames zz; first | clear_value zz | skip) | split | dsimp only | apply KeepLanes.upd | apply KeepLanes.updLane | exact rfl)

theorem Device.chargeMore_keepLanes {d : Device} {e : Device} (x1 : Sys2Proof.Machine.Copy) (x2 : Nat) (h : KeepLanes d e) :
    KeepLanes d (Device.chargeMore e x1 x2) := by
  unfold Device.chargeMore
  repeat' with_reducible (first | assumption | (extract_lets +onlyGivenNames zz; first | (refine (fun (hz : KeepLanes d zz) => ?_) ?_; clear_value zz; rotate_left; subst zz) | clear_value zz | skip) | apply Device.addCharge_keepLanes | apply Device.modCopy_keepLanes | apply Device.modFrame_keepLanes | split | dsimp only | apply KeepLanes.upd | apply KeepLanes.updLane | exact rfl)

theorem Device.growFrame_keepLanes {d : Device} {e : Device} (x1 : Nat) (h : KeepLanes d e) :
    KeepLanes d (Device.growFrame e x1) := by
  unfold Device.growFrame
  repeat' with_reducible (first | assumption | (extract_lets +onlyGivenNames zz; first | (refine (fun (hz : KeepLanes d zz) => ?_) ?_; clear_value zz; rotate_left; subst zz) | clear_value zz | skip) | apply Device.allocCells_keepLanes | apply Device.event_keepLanes | apply Device.spend_keepLanes | apply Device.chargeMore_keepLanes | split | (apply KeepLanes.foldl; intro _ _ _) | dsimp only | apply KeepLanes.upd | apply KeepLanes.updLane | exact rfl)

theorem Device.admitCopy_keepLanes {d : Device} {e : Device} (x1 : Sys2Proof.Machine.AdmitReq) (x2 : Bool) (x3 : Nat) (h : KeepLanes d e) :
    KeepLanes d (Device.admitCopy e x1 x2 x3).1 := by
  unfold Device.admitCopy
  repeat' with_reducible (first | assumption | (extract_lets +onlyGivenNames zz; first | (refine (fun (hz : KeepLanes d zz) => ?_) ?_; clear_value zz; rotate_left; subst zz) | clear_value zz | skip) | apply Device.refuseAdmission_keepLanes | apply Device.setQueueSt_keepLanes | apply Device.free_keepLanes | apply Device.count_keepLanes | apply Device.modFrame_keepLanes | apply Device.queueCount_keepLanes | apply Device.event_keepLanes | apply Device.growFrame_keepLanes | split | (apply KeepLanes.snd2 (by assumption)) | (apply KeepLanes.snd (by assumption)) | (apply KeepLanes.fst (by assumption)) | dsimp only | apply KeepLanes.upd | apply KeepLanes.updLane | exact rfl)

theorem Device.autoMembers_keepLanes {d : Device} {e : Device} (x1 : Nat) (x2 : Bool) (h : KeepLanes d e) :
    KeepLanes d (Device.autoMembers e x1 x2) := by
  unfold Device.autoMembers
  repeat' with_reducible (first | assumption | (extract_lets +onlyGivenNames zz; first | clear_value zz | skip) | split | (apply KeepLanes.foldl; intro _ _ _) | dsimp only | apply KeepLanes.upd | apply KeepLanes.updLane | exact rfl)

theorem Device.overflowUpd_keepLanes {d : Device} {e : Device} (x1 : Nat) (x2 : Sys2Proof.Machine.FlowUpd) (h : KeepLanes d e) :
    KeepLanes d (Device.overflowUpd e x1 x2) := by
  unfold Device.overflowUpd
  repeat' with_reducible (first | assumption | (extract_lets +onlyGivenNames zz; first | clear_value zz | skip) | dsimp only | apply KeepLanes.upd | apply KeepLanes.updLane | exact rfl)

theorem Device.bucketUpd_keepLanes {d : Device} {e : Device} (x1 : Nat) (x2 : Sys2Proof.Machine.FlowUpd) (h : KeepLanes d e) :
    KeepLanes d (Device.bucketUpd e x1 x2) := by
  unfold Device.bucketUpd
  try dsimp only
  repeat' with_reducible (first | assumption | apply Device.overflowUpd_keepLanes | apply Device.count_keepLanes | split | dsimp only | apply KeepLanes.upd | apply KeepLanes.updLane | exact rfl)

theorem Device.setTokens_keepLanes {d : Device} {e : Device} (x1 : Nat) (x2 : Int) (h : KeepLanes d e) :
    KeepLanes d (Device.setTokens e x1 x2) := by
  unfold Device.setTokens
  repeat' with_reducible (first | assumption | (extract_lets +onlyGivenNames zz; first | clear_value zz | skip) | dsimp only | apply KeepLanes.upd | apply KeepLanes.updLane | exact rfl)

theorem Device.giveBack_keepLanes {d : Device} {e : Device} (x1 : Sys2Proof.Machine.Copy) (x2 : Int) (h : KeepLanes d e) :
    KeepLanes d (Device.giveBack e x1 x2) := by
  unfold Device.giveBack
  repeat' with_reducible (first | assumption | (extract_lets +onlyGivenNames zz; first | (refine (fun (hz : KeepLanes d zz) => ?_) ?_; clear_value zz; rotate_left; subst zz) | skip) | apply Device.setTokens_keepLanes | apply Device.addDeficit_keepLanes | split | (apply KeepLanes.foldl; intro _ _ _) | dsimp only | apply KeepLanes.upd | apply KeepLanes.updLane | exact rfl)

theorem Device.correctTo_keepLanes {d : Device} {e : Device} (x1 : Sys2Proof.Machine.Copy) (x2 : Nat) (h : KeepLanes d e) :
    KeepLanes d (Device.correctTo e x1 x2) := by
  unfold Device.correctTo
  repeat' with_reducible (first | assumption | apply Device.giveBack_keepLanes | split | dsimp only | apply KeepLanes.upd | apply KeepLanes.updLane | exact rfl)

theorem Device.countSent_keepLanes {d : Device} {e : Device} (x1 : Nat) (x2 : Nat) (h : KeepLanes d e) :
    KeepLanes d (Device.countSent e x1 x2) := by
  unfold Device.countSent
  repeat' with_reducible (first | assumption | apply Device.queueCount_keepLanes | apply Device.portCount_keepLanes | dsimp only | apply KeepLanes.upd | apply KeepLanes.updLane | exact rfl)

theorem Device.countStomped_keepLanes {d : Device} {e : Device} (x1 : Sys2Proof.Machine.Copy) (x2 : Nat) (h : KeepLanes d e) :
    KeepLanes d (Device.countStomped e x1 x2) := by
  unfold Device.countStomped
  repeat' with_reducible (first | assumption | (extract_lets +onlyGivenNames zz; first | (refine (fun (hz : KeepLanes d zz) => ?_) ?_; clear_value zz; rotate_left; subst zz) | skip) | apply Device.event_keepLanes | apply Device.portCount_keepLanes | apply Device.countSent_keepLanes | split | dsimp only | apply KeepLanes.upd | apply KeepLanes.updLane | exact rfl)

theorem Device.freeStair_keepLanes {d : Device} {e : Device} (x1 : Sys2Proof.Machine.Flight) (x2 : Nat) (h : KeepLanes d e) :
    KeepLanes d (Device.freeStair e x1 x2) := by
  unfold Device.freeStair
  repeat' with_reducible (first | assumption | (extract_lets +onlyGivenNames zz; first | clear_value zz | skip) | split | dsimp only | apply KeepLanes.upd | apply KeepLanes.updLane | exact rfl)

theorem Device.flowOfFlight_keepLanes {d : Device} {e : Device} (x1 : Sys2Proof.Machine.Flight) (h : KeepLanes d e) :
    KeepLanes d (Device.flowOfFlight e x1) := by
  unfold Device.flowOfFlight
  repeat' with_reducible (first | assumption | (extract_lets +onlyGivenNames zz; first | clear_value zz | skip) | apply Device.modFrame_keepLanes | dsimp only | apply KeepLanes.upd | apply KeepLanes.updLane | exact rfl)

theorem Device.endFlight_keepLanes {d : Device} {e : Device} (x1 : Nat) (h : KeepLanes d e) :
    KeepLanes d (Device.endFlight e x1) := by
  unfold Device.endFlight
  repeat' with_reducible (first | assumption | (extract_lets +onlyGivenNames zz; first | clear_value zz | skip) | dsimp only | apply KeepLanes.upd | apply KeepLanes.updLane | exact rfl)

theorem Device.formIngress_keepLanes {d : Device} {e : Device} (x1 : Sys2Proof.Machine.Flight) (h : KeepLanes d e) :
    KeepLanes d (Device.formIngress e x1).1 := by
  unfold Device.formIngress
  repeat' with_reducible (first | assumption | (extract_lets +onlyGivenNames zz; first | clear_value zz | skip) | apply Device.setFrame_keepLanes | split | (apply KeepLanes.snd2 (by assumption)) | (apply KeepLanes.snd (by assumption)) | (apply KeepLanes.fst (by assumption)) | dsimp only | apply KeepLanes.upd | apply KeepLanes.updLane | exact rfl)

theorem Device.ingressMirrors_keepLanes {d : Device} {e : Device} (x1 : Sys2Proof.Machine.Flight) (x2 : Sys2Proof.Machine.Phv) (x3 : Bool) (x4 : Nat) (h : KeepLanes d e) :
    KeepLanes d (Device.ingressMirrors e x1 x2 x3 x4).1 := by
  unfold Device.ingressMirrors
  have : ∀ (l : List Nat) (b : Device × Bool), KeepLanes d b.1 → KeepLanes d (l.foldl (fun (r : Device × Bool) m =>
    match r.1.mirrorOf m with
    | none => r
    | some (q, trunc) =>
      let (d, a) := r.1.admitCopy
        { frame := x1.id, queue := q, kind := .mirror, colour := x1.acts.colour, phv := x2, pass := x1.pass, trunc := trunc,
          gal := x1.gal } r.2 (if r.2 then x4 else 0)
      match a with
      | .copy _ => (d, false)
      | .refused _ => (d, r.2)) b).1 := by
    intro l
    induction l with
    | nil => exact fun _ h => h
    | cons m t ih =>
      intro b hb
      refine ih _ ?_
      dsimp only
      split
      · exact hb
      have k := fun q t => Device.admitCopy_keepLanes { frame := x1.id, queue := q, kind := .mirror, colour := x1.acts.colour, phv := x2, pass := x1.pass, trunc := t, gal := x1.gal } b.2 (if b.2 then x4 else 0) hb
      split <;> exact k _ _
  exact this _ _ h

theorem Device.mirrorEnded_keepLanes {d : Device} {e : Device} (x1 : Sys2Proof.Machine.Flight) (h : KeepLanes d e) :
    KeepLanes d (Device.mirrorEnded e x1) := by
  unfold Device.mirrorEnded
  repeat' with_reducible (first | assumption | apply Device.formIngress_keepLanes | apply Device.ingressMirrors_keepLanes | split | (apply KeepLanes.snd2 (by assumption)) | (apply KeepLanes.snd (by assumption)) | (apply KeepLanes.fst (by assumption)) | dsimp only | apply KeepLanes.upd | apply KeepLanes.updLane | exact rfl)

theorem Device.setCache_keepLanes {d : Device} {e : Device} (x1 : Nat) (x2 : List (Nat × Bool)) (h : KeepLanes d e) :
    KeepLanes d (Device.setCache e x1 x2) := by
  unfold Device.setCache
  repeat' with_reducible (first | assumption | (extract_lets +onlyGivenNames zz; first | clear_value zz | skip) | dsimp only | apply KeepLanes.upd | apply KeepLanes.updLane | exact rfl)

theorem Device.flowEnd_keepLanes {d : Device} {e : Device} (x1 : Bool) (x2 : Sys2Proof.Machine.FlowUpd) (h : KeepLanes d e) :
    KeepLanes d (Device.flowEnd e x1 x2) := by
  unfold Device.flowEnd
  repeat' with_reducible (first | assumption | (extract_lets +onlyGivenNames zz; first | clear_value zz | skip) | apply Device.overflowUpd_keepLanes | apply Device.bucketUpd_keepLanes | apply Device.setCache_keepLanes | apply Device.raise_keepLanes | apply Device.count_keepLanes | split | dsimp only | apply KeepLanes.upd | apply KeepLanes.updLane | exact rfl)

theorem Device.flowFinish_keepLanes {d : Device} {e : Device} (x1 : Nat) (x2 : Option Nat) (x3 : Option Nat) (h : KeepLanes d e) :
    KeepLanes d (Device.flowFinish e x1 x2 x3) := by
  unfold Device.flowFinish
  repeat' with_reducible (first | assumption | (extract_lets +onlyGivenNames zz; first | (refine (fun (hz : KeepLanes d zz) => ?_) ?_; clear_value zz; rotate_left; subst zz) | skip) | apply Device.setFrame_keepLanes | apply Device.flowEnd_keepLanes | split | dsimp only | apply KeepLanes.upd | apply KeepLanes.updLane | exact rfl)

theorem Device.releaseFrame_keepLanes {d : Device} {e : Device} (x1 : Nat) (h : KeepLanes d e) :
    KeepLanes d (Device.releaseFrame e x1) := by
  unfold Device.releaseFrame
  repeat' with_reducible (first | assumption | (extract_lets +onlyGivenNames zz; first | (refine (fun (hz : KeepLanes d zz) => ?_) ?_; clear_value zz; rotate_left; subst zz) | clear_value zz | skip) | apply Device.setFrame_keepLanes | split | dsimp only | apply KeepLanes.upd | apply KeepLanes.updLane | exact rfl)

theorem Device.dropFlight_keepLanes {d : Device} {e : Device} (x1 : Nat) (x2 : Nat) (x3 : Option (Nat × Nat)) (h : KeepLanes d e) :
    KeepLanes d (Device.dropFlight e x1 x2 x3) := by
  unfold Device.dropFlight
  repeat' with_reducible (first | assumption | (extract_lets +onlyGivenNames zz; first | (refine (fun (hz : KeepLanes d zz) => ?_) ?_; clear_value zz; rotate_left; subst zz) | skip) | apply Device.freeStair_keepLanes | apply Device.loseOne_keepLanes | apply Device.flowOfFlight_keepLanes | apply Device.endFlight_keepLanes | apply Device.mirrorEnded_keepLanes | apply Device.flowFinish_keepLanes | apply Device.releaseFrame_keepLanes | split | dsimp only | apply KeepLanes.upd | apply KeepLanes.updLane | exact rfl)

theorem Device.dropTrap_keepLanes {d : Device} {e : Device} (x1 : Sys2Proof.Machine.TrapPkt) (x2 : Nat) (h : KeepLanes d e) :
    KeepLanes d (Device.dropTrap e x1 x2) := by
  unfold Device.dropTrap
  repeat' with_reducible (first | assumption | (extract_lets +onlyGivenNames zz; first | (refine (fun (hz : KeepLanes d zz) => ?_) ?_; clear_value zz; rotate_left; subst zz) | clear_value zz | skip) | apply Device.loseOne_keepLanes | apply Device.flowFinish_keepLanes | apply Device.releaseFrame_keepLanes | split | dsimp only | apply KeepLanes.upd | apply KeepLanes.updLane | exact rfl)

theorem Device.leaveLower_keepLanes {d : Device} {e : Device} (x1 : Sys2Proof.Machine.Copy) (x2 : Nat) (h : KeepLanes d e) :
    KeepLanes d (Device.leaveLower e x1 x2) := by
  unfold Device.leaveLower
  repeat' with_reducible (first | assumption | (extract_lets +onlyGivenNames zz; first | (refine (fun (hz : KeepLanes d zz) => ?_) ?_; clear_value zz; rotate_left; subst zz) | clear_value zz | skip) | apply Device.setQueueSt_keepLanes | apply Device.modCopy_keepLanes | dsimp only | apply KeepLanes.upd | apply KeepLanes.updLane | exact rfl)

theorem Device.noWait_keepLanes {d : Device} {e : Device} (x1 : Nat) (x2 : Nat) (x3 : Nat) (h : KeepLanes d e) :
    KeepLanes d (Device.noWait e x1 x2 x3) := by
  unfold Device.noWait
  repeat' with_reducible (first | assumption | (extract_lets +onlyGivenNames zz; first | clear_value zz | skip) | dsimp only | apply KeepLanes.upd | apply KeepLanes.updLane | exact rfl)

theorem Device.setPort_keepLanes {d : Device} {e : Device} (x1 : Nat) (x2 : Sys2Proof.Machine.PortSt) (h : KeepLanes d e) :
    KeepLanes d (Device.setPort e x1 x2) := by
  unfold Device.setPort
  repeat' with_reducible (first | assumption | dsimp only | apply KeepLanes.upd | apply KeepLanes.updLane | exact rfl)

theorem Device.modPort_keepLanes {d : Device} {e : Device} (x1 : Nat) (x2 : Sys2Proof.Machine.PortSt → Sys2Proof.Machine.PortSt) (h : KeepLanes d e) :
    KeepLanes d (Device.modPort e x1 x2) := by
  unfold Device.modPort
  repeat' with_reducible (first | assumption | apply Device.setPort_keepLanes | dsimp only | apply KeepLanes.upd | apply KeepLanes.updLane | exact rfl)

theorem Device.returnCells_keepLanes {d : Device} {e : Device} (x1 : Sys2Proof.Machine.Copy) (x2 : Nat) (h : KeepLanes d e) :
    KeepLanes d (Device.returnCells e x1 x2) := by
  unfold Device.returnCells
  repeat' with_reducible (first | assumption | (extract_lets +onlyGivenNames zz; first | (refine (fun (hz : KeepLanes d zz) => ?_) ?_; clear_value zz; rotate_left; subst zz) | clear_value zz | skip) | apply Device.modCopy_keepLanes | dsimp only | apply KeepLanes.upd | apply KeepLanes.updLane | exact rfl)

theorem Device.freeRead_keepLanes {d : Device} {e : Device} (x1 : Nat) (h : KeepLanes d e) :
    KeepLanes d (Device.freeRead e x1) := by
  unfold Device.freeRead
  repeat' with_reducible (first | assumption | (extract_lets +onlyGivenNames zz; first | (refine (fun (hz : KeepLanes d zz) => ?_) ?_; clear_value zz; rotate_left; subst zz) | clear_value zz | skip) | apply Device.setFrame_keepLanes | apply Device.returnCells_keepLanes | split | (apply KeepLanes.foldl; intro _ _ _) | dsimp only | apply KeepLanes.upd | apply KeepLanes.updLane | exact rfl)

theorem Device.endCopy_keepLanes {d : Device} {e : Device} (x1 : Nat) (h : KeepLanes d e) :
    KeepLanes d (Device.endCopy e x1) := by
  unfold Device.endCopy
  repeat' with_reducible (first | assumption | (extract_lets +onlyGivenNames zz; first | (refine (fun (hz : KeepLanes d zz) => ?_) ?_; clear_value zz; rotate_left; subst zz) | clear_value zz | skip) | apply Device.leaveLower_keepLanes | apply Device.noWait_keepLanes | apply Device.modPort_keepLanes | apply Device.freeRead_keepLanes | apply Device.releaseFrame_keepLanes | split | dsimp only | apply KeepLanes.upd | apply KeepLanes.updLane | exact rfl)

theorem Device.endReceiving_keepLanes {d : Device} {e : Device} (x1 : Nat) (h : KeepLanes d e) :
    KeepLanes d (Device.endReceiving e x1) := by
  unfold Device.endReceiving
  repeat' with_reducible (first | assumption | (extract_lets +onlyGivenNames zz; first | clear_value zz | skip) | dsimp only | apply KeepLanes.upd | apply KeepLanes.updLane | exact rfl)

theorem Device.meterCount_keepLanes {d : Device} {e : Device} (x1 : Nat) (x2 : Sys2Proof.Machine.MeterCharge) (x3 : Nat) (h : KeepLanes d e) :
    KeepLanes d (Device.meterCount e x1 x2 x3) := by
  unfold Device.meterCount
  repeat' with_reducible (first | assumption | (extract_lets +onlyGivenNames zz; first | (refine (fun (hz : KeepLanes d zz) => ?_) ?_; clear_value zz; rotate_left; subst zz) | clear_value zz | skip) | apply Device.countN_keepLanes | apply Device.count_keepLanes | split | dsimp only | apply KeepLanes.upd | apply KeepLanes.updLane | exact rfl)

theorem Device.setBring_keepLanes {d : Device} {e : Device} (x1 : Nat) (x2 : Sys2Proof.Machine.BringUp) (h : KeepLanes d e) :
    KeepLanes d (Device.setBring e x1 x2) := by
  unfold Device.setBring
  repeat' with_reducible (first | assumption | (extract_lets +onlyGivenNames zz; first | (have hq : LaneUnit := zz; clear hq; subst zz) | clear_value zz | skip) | dsimp only | apply KeepLanes.upd | apply KeepLanes.updLane | exact rfl)

theorem Device.modBring_keepLanes {d : Device} {e : Device} (x1 : Nat) (x2 : Sys2Proof.Machine.BringUp → Sys2Proof.Machine.BringUp) (h : KeepLanes d e) :
    KeepLanes d (Device.modBring e x1 x2) := by
  unfold Device.modBring
  repeat' with_reducible (first | assumption | apply Device.setBring_keepLanes | dsimp only | apply KeepLanes.upd | apply KeepLanes.updLane | exact rfl)

theorem Device.send_keepLanes {d : Device} {e : Device} (x1 : Sys2Proof.Machine.Output) (h : KeepLanes d e) :
    KeepLanes d (Device.send e x1) := by
  unfold Device.send
  repeat' with_reducible (first | assumption | dsimp only | apply KeepLanes.upd | apply KeepLanes.updLane | exact rfl)

theorem Device.settleMeter_keepLanes {d : Device} {e : Device} (x1 : Nat) (x2 : Nat) (x3 : Sys2Proof.Machine.MeterCharge) (h : KeepLanes d e) :
    KeepLanes d (Device.settleMeter e x1 x2 x3) := by
  unfold Device.settleMeter
  repeat' with_reducible (first | assumption | (extract_lets +onlyGivenNames zz; first | clear_value zz | skip) | apply Device.meterCount_keepLanes | split | dsimp only | apply KeepLanes.upd | apply KeepLanes.updLane | exact rfl)

theorem Device.settleEnd_keepLanes {d : Device} {e : Device} (x1 : Nat) (h : KeepLanes d e) :
    KeepLanes d (Device.settleEnd e x1) := by
  unfold Device.settleEnd
  repeat' with_reducible (first | assumption | (extract_lets +onlyGivenNames zz; first | (refine (fun (hz : KeepLanes d zz) => ?_) ?_; clear_value zz; rotate_left; subst zz) | clear_value zz | skip) | apply Device.settleMeter_keepLanes | apply Device.countN_keepLanes | apply Device.modFrame_keepLanes | apply Device.flowEnd_keepLanes | split | (apply KeepLanes.foldl; intro _ _ _) | dsimp only | apply KeepLanes.upd | apply KeepLanes.updLane | exact rfl)

theorem Device.settleFault_keepLanes {d : Device} {e : Device} (x1 : Nat) (h : KeepLanes d e) :
    KeepLanes d (Device.settleFault e x1) := by
  unfold Device.settleFault
  repeat' with_reducible (first | assumption | (extract_lets +onlyGivenNames zz; first | clear_value zz | skip) | apply Device.send_keepLanes | apply Device.modPort_keepLanes | split | dsimp only | apply KeepLanes.upd | apply KeepLanes.updLane | exact rfl)

theorem Device.settlePort_keepLanes {d : Device} {e : Device} (x1 : Nat) (h : KeepLanes d e) :
    KeepLanes d (Device.settlePort e x1) := by
  unfold Device.settlePort
  repeat' with_reducible (first | assumption | (extract_lets +onlyGivenNames zz; first | (refine (fun (hz : KeepLanes d zz) => ?_) ?_; clear_value zz; rotate_left; subst zz) | skip) | apply Device.settleFault_keepLanes | apply Device.modPort_keepLanes | split | dsimp only | apply KeepLanes.upd | apply KeepLanes.updLane | exact rfl)

theorem Device.stompOut_keepLanes {d : Device} {e : Device} (x1 : Sys2Proof.Machine.Copy) (h : KeepLanes d e) :
    KeepLanes d (Device.stompOut e x1) := by
  unfold Device.stompOut
  repeat' with_reducible (first | assumption | apply Device.free_keepLanes | apply Device.send_keepLanes | apply Device.countStomped_keepLanes | apply Device.correctTo_keepLanes | split | (apply KeepLanes.snd2 (by assumption)) | (apply KeepLanes.snd (by assumption)) | (apply KeepLanes.fst (by assumption)) | dsimp only | apply KeepLanes.upd | apply KeepLanes.updLane | exact rfl)

theorem settlePort_laneSt (d : Device) (p l : Nat) : (d.settlePort p).laneSt l = d.laneSt l := by
  unfold Device.laneSt
  rw [(Device.settlePort_keepLanes p (KeepLanes.refl d)).1]

theorem settlePort_lanesWf {d : Device} (h : lanesWf d) (p : Nat) : lanesWf (d.settlePort p) := by
  unfold lanesWf
  rw [(Device.settlePort_keepLanes p (KeepLanes.refl d)).1]
  exact h

/-- Setting a bit leaves it set. -/
theorem bit_setBit (n k : Nat) : bit (setBit n k) k = true := by
  unfold bit setBit
  rw [Nat.testBit_or, Nat.testBit_two_pow_self, Bool.or_true]

/-- A key that reads other than its default is listed. -/
theorem tabGet_mem {α : Type} {dflt : Nat → α} {t : Tab α} {k : Nat} (h : tabGet dflt t k ≠ dflt k) : (k, tabGet dflt t k) ∈ t := by
  induction t with
  | nil => exact absurd rfl h
  | cons e t ih =>
    obtain ⟨j, v⟩ := e
    have e : tabGet dflt ((j, v) :: t) k = if k = j then v else if k < j then dflt k else tabGet dflt t k := rfl
    rw [e] at h ⊢
    by_cases q : k = j
    · rw [if_pos q, q]
      exact List.mem_cons_self ..
    · rw [if_neg q] at h ⊢
      by_cases q2 : k < j
      · rw [if_pos q2] at h
        exact absurd rfl h
      · rw [if_neg q2] at h ⊢
        exact List.mem_cons_of_mem _ (ih h)

/-- Moving a list of lanes to one state, whatever its order. -/
theorem lanesTo_spec (st : LaneState) (ls : List Nat) (d : Device) (hw : lanesWf d) :
    lanesWf (ls.foldl (fun d l => d.laneTo l st) d) ∧ (∀ l ∈ ls, ((ls.foldl (fun d l => d.laneTo l st) d).laneSt l).st = st) ∧
      (∀ l, l ∉ ls → (ls.foldl (fun d l => d.laneTo l st) d).laneSt l = d.laneSt l) := by
  induction ls generalizing d with
  | nil => exact ⟨hw, fun l hl => (List.not_mem_nil hl).elim, fun _ _ => rfl⟩
  | cons x t ih =>
    obtain ⟨w, a, -, o⟩ := laneTo_spec hw x st
    obtain ⟨i1, i2, i3⟩ := ih (d.laneTo x st) w
    refine ⟨i1, fun l hl => ?_, fun l hl => ?_⟩
    · by_cases m : l ∈ t
      · exact i2 l m
      · rw [List.foldl_cons, i3 l m]
        rcases List.mem_cons.1 hl with e | e
        · rw [e]
          exact a
        · exact absurd e m
    · rw [List.mem_cons, not_or] at hl
      rw [List.foldl_cons, i3 l hl.2, o l hl.1]

/-- Moving the lanes of a port keeps the galleries' configuration. -/
theorem CfgKeep.portTo (d : Device) {p : Nat} (hp : p < 1024) (st : LaneState) : CfgKeep d (d.portTo p st) := by
  have bnd : ∀ m ∈ d.portLanes p, m < 2048 := fun m h => by
    have := (mem_portLanes.1 h).2
    have := portWidth_le d p
    omega
  unfold Device.portTo
  generalize d.portLanes p = ls at bnd
  induction ls generalizing d with
  | nil => exact .ofFile rfl
  | cons x t ih =>
    rw [List.foldl_cons]
    split
    · exact (CfgKeep.laneTo d x st (bnd x (List.mem_cons_self ..))).trans (ih (d.laneTo x st) fun m h => bnd m (List.mem_cons_of_mem _ h))
    · exact ih d fun m h => bnd m (List.mem_cons_of_mem _ h)

theorem CfgKeep.setRate (d : Device) {p : Nat} (hp : p < 1024) (r : Nat) : CfgKeep d (d.setRate p r) := by
  have bnd : ∀ m ∈ d.portLanes p, m < 2048 := fun m h => by
    have := (mem_portLanes.1 h).2
    have := portWidth_le d p
    omega
  unfold Device.setRate
  generalize d.portLanes p = ls at bnd
  induction ls generalizing d with
  | nil => exact .ofFile rfl
  | cons x t ih =>
    rw [List.foldl_cons]
    split
    · exact ih d fun m h => bnd m (List.mem_cons_of_mem _ h)
    refine (CfgKeep.setReg d (ofLane A.LANE_LN_CTRL x) _ ?_).trans
      (ih (d.setFld (ofLane A.LANE_LN_CTRL x) F.LANE_LN_CTRL_RATE r) fun m h => bnd m (List.mem_cons_of_mem _ h))
    have := bnd x (List.mem_cons_self ..)
    simp only [ofLane, A.LANE_LN_CTRL]
    omega

/-- Training begins in every lane of the port. -/
theorem beginTrain_spec {d : Device} (hw : lanesWf d) (p : Nat) (st : LaneState) :
    lanesWf (d.beginTrain p st) ∧
      (∀ l ∈ d.portLanes p, ((d.beginTrain p st).laneSt l).st = (if (d.laneSt l).free then st else (d.laneSt l).st) ∧
        ((d.beginTrain p st).laneSt l).kept = (d.laneSt l).kept) ∧
      (∀ m, m ∉ d.portLanes p → (d.beginTrain p st).laneSt m = d.laneSt m) := portTo_spec hw p st

theorem CfgKeep.beginTrain (d : Device) {p : Nat} (hp : p < 1024) (st : LaneState) : CfgKeep d (d.beginTrain p st) :=
  (CfgKeep.portTo d hp st).trans (.ofFile rfl)

structure KeepLanesAll (d e : Device) : Prop where
  lanes : e.lane.lanes = d.lane.lanes

theorem KeepLanesAll.refl (d : Device) : KeepLanesAll d d := ⟨rfl⟩
theorem KeepLanesAll.trans {a b c : Device} (h : KeepLanesAll a b) (k : KeepLanesAll b c) : KeepLanesAll a c := ⟨k.1.trans h.1⟩
theorem KeepLanesAll.foldl {α : Type} {f : Device → α → Device} {d : Device} (l : List α) {e : Device}
    (h : ∀ e x, KeepLanesAll d e → KeepLanesAll d (f e x)) (h0 : KeepLanesAll d e) : KeepLanesAll d (l.foldl f e) := by
  induction l generalizing e with
  | nil => exact h0
  | cons x t ih => exact ih (h e x h0)
theorem KeepLanesAll.ite {d a b : Device} {c : Prop} [Decidable c] (ha : KeepLanesAll d a) (hb : KeepLanesAll d b) : KeepLanesAll d (if c then a else b) := by
  by_cases h : c
  · rwa [if_pos h]
  · rwa [if_neg h]
theorem KeepLanesAll.snd {α : Type} {p : α × Device} {a : α} {d e : Device} (h : p = (a, e)) (k : KeepLanesAll d p.2) : KeepLanesAll d e := by rw [h] at k; exact k
theorem KeepLanesAll.snd2 {α β : Type} {p : α × β × Device} {a : α} {b : β} {d e : Device} (h : p = (a, b, e)) (k : KeepLanesAll d p.2.2) : KeepLanesAll d e := by rw [h] at k; exact k
theorem KeepLanesAll.fst {α : Type} {p : Device × α} {a : α} {d e : Device} (h : p = (e, a)) (k : KeepLanesAll d p.1) : KeepLanesAll d e := by rw [h] at k; exact k
theorem KeepLanesAll.pair {α : Type} {a : α} {d e : Device} (k : KeepLanesAll d e) : KeepLanesAll d (a, e).2 := k
theorem KeepLanesAll.pair1 {α : Type} {a : α} {d e : Device} (k : KeepLanesAll d e) : KeepLanesAll d (e, a).1 := k
def KeepLanesAllO (d : Device) (o : Option Device) : Prop := ∀ e, o = some e → KeepLanesAll d e
theorem KeepLanesAllO.ofNone {d : Device} : KeepLanesAllO d none := fun _ h => nomatch h
theorem KeepLanesAllO.ofSome {d e : Device} (h : KeepLanesAll d e) : KeepLanesAllO d (some e) := fun _ k => by cases k; exact h
theorem KeepLanesAllO.get {d e : Device} {o : Option Device} (h : o = some e) (k : KeepLanesAllO d o) : KeepLanesAll d e := k e h
theorem KeepLanesAll.fstR {α : Type} {p : StageRun × α} {a : α} {d : Device} {e : StageRun} (h : p = (e, a)) (k : KeepLanesAll d p.1.d) : KeepLanesAll d e.d := by rw [h] at k; exact k
def KeepLanesAllP {α : Type} (d : Device) (f : α → Device) (o : Option α) : Prop := ∀ a, o = some a → KeepLanesAll d (f a)
theorem KeepLanesAllP.ofNone {α : Type} {f : α → Device} {d : Device} : KeepLanesAllP d f none := fun _ h => nomatch h
theorem KeepLanesAllP.ofSome {α : Type} {f : α → Device} {d : Device} {a : α} (h : KeepLanesAll d (f a)) : KeepLanesAllP d f (some a) := fun _ k => by cases k; exact h
theorem KeepLanesAllP.get2 {α : Type} {o : Option (α × Device)} {a : α} {d e : Device} (h : o = some (a, e)) (k : KeepLanesAllP d (·.2) o) : KeepLanesAll d e := k _ h
theorem KeepLanesAllP.get1 {α : Type} {o : Option (Device × α)} {a : α} {d e : Device} (h : o = some (e, a)) (k : KeepLanesAllP d (·.1) o) : KeepLanesAll d e := k _ h
theorem KeepLanesAll.upd {d e : Device} {xdev : DevCtl} {xstroke : StrokeCtl} {xfile : RegFile} {xgen : GenUnit} {xsnap : SnapUnit} {xbudget : BudgetUnit} {xprofile : ProfileUnit} {xports : Tab PortSt} {xfft : FftUnit} {xpkt : PacketUnit} {xhall : HallUnit} {xtable : TableUnit} {xbillet : BilletUnit} {xsched : SchedUnit} {xdrops : DropUnit} {xclock : ClockUnit} {xservo : ServoUnit} {xpulse : PulseUnit} {xledger : LedgerUnit} {xtsu : Tab TsuSt} {xdamper : DamperUnit} {xtelem : TelemUnit} {xinteg : IntegUnit} {xhost : HostUnit} {xperf : PerfUnit} {xanvil : AnvilUnit} {xras : RasUnit} {xseq : SeqUnit} {xboot : BootUnit} {xmgmt : MgmtUnit} {xsent : List Output} {xfreeCtr : Nat} (h : KeepLanesAll d e) :
    KeepLanesAll d (Device.mk xdev xstroke xfile xgen xsnap xbudget xprofile e.lane xports xfft xpkt xhall xtable xbillet xsched xdrops xclock xservo xpulse xledger xtsu xdamper xtelem xinteg xhost xperf xanvil xras xseq xboot xmgmt xsent xfreeCtr) := ⟨h.1⟩
theorem KeepLanesAll.updLane {d e : Device} {xdev : DevCtl} {xstroke : StrokeCtl} {xfile : RegFile} {xgen : GenUnit} {xsnap : SnapUnit} {xbudget : BudgetUnit} {xprofile : ProfileUnit} {xports : Tab PortSt} {xfft : FftUnit} {xpkt : PacketUnit} {xhall : HallUnit} {xtable : TableUnit} {xbillet : BilletUnit} {xsched : SchedUnit} {xdrops : DropUnit} {xclock : ClockUnit} {xservo : ServoUnit} {xpulse : PulseUnit} {xledger : LedgerUnit} {xtsu : Tab TsuSt} {xdamper : DamperUnit} {xtelem : TelemUnit} {xinteg : IntegUnit} {xhost : HostUnit} {xperf : PerfUnit} {xanvil : AnvilUnit} {xras : RasUnit} {xseq : SeqUnit} {xboot : BootUnit} {xsent : List Output} {xfreeCtr : Nat} {z : LaneUnit} (h : KeepLanesAll d e) (hlanes : z.lanes = e.lane.lanes) :
    KeepLanesAll d (Device.mk xdev xstroke xfile xgen xsnap xbudget xprofile z xports xfft xpkt xhall xtable xbillet xsched xdrops xclock xservo xpulse xledger xtsu xdamper xtelem xinteg xhost xperf xanvil xras xseq xboot e.mgmt xsent xfreeCtr) := ⟨hlanes.trans h.1⟩

theorem Device.setReg_keepLanesAll {d : Device} {e : Device} (x1 : Nat) (x2 : Sys2Proof.Word) (h : KeepLanesAll d e) :
    KeepLanesAll d (Device.setReg e x1 x2) := by
  unfold Device.setReg
  repeat' with_reducible (first | assumption | (extract_lets +onlyGivenNames zz; first | clear_value zz | skip) | dsimp only | apply KeepLanesAll.upd | apply KeepLanesAll.updLane | exact rfl)

theorem Device.markSet_keepLanesAll {d : Device} {e : Device} (x1 : Nat) (x2 : Nat) (h : KeepLanesAll d e) :
    KeepLanesAll d (Device.markSet e x1 x2) := by
  unfold Device.markSet
  repeat' with_reducible (first | assumption | (extract_lets +onlyGivenNames zz; first | clear_value zz | skip) | dsimp only | apply KeepLanesAll.upd | apply KeepLanesAll.updLane | exact rfl)

theorem Device.setW1c_keepLanesAll {d : Device} {e : Device} (x1 : Nat) (x2 : Nat) (h : KeepLanesAll d e) :
    KeepLanesAll d (Device.setW1c e x1 x2) := by
  unfold Device.setW1c
  repeat' with_reducible (first | assumption | apply Device.setReg_keepLanesAll | apply Device.markSet_keepLanesAll | dsimp only | apply KeepLanesAll.upd | apply KeepLanesAll.updLane | exact rfl)

theorem Device.raise_keepLanesAll {d : Device} {e : Device} (x1 : Nat) (x2 : Nat) (h : KeepLanesAll d e) :
    KeepLanesAll d (Device.raise e x1 x2) := by
  unfold Device.raise
  repeat' with_reducible (first | assumption | (extract_lets +onlyGivenNames zz; first | (refine (fun (hz : KeepLanesAll d zz) => ?_) ?_; clear_value zz; rotate_left; subst zz) | clear_value zz | skip) | apply Device.setW1c_keepLanesAll | split | dsimp only | apply KeepLanesAll.upd | apply KeepLanesAll.updLane | exact rfl)

theorem Device.logFault_keepLanesAll {d : Device} {e : Device} (x1 : Sys2Proof.Machine.FaultPlace) (x2 : Nat) (x3 : Nat) (x4 : Nat) (h : KeepLanesAll d e) :
    KeepLanesAll d (Device.logFault e x1 x2 x3 x4) := by
  unfold Device.logFault
  repeat' with_reducible (first | assumption | (extract_lets +onlyGivenNames zz; first | clear_value zz | skip) | apply Device.raise_keepLanesAll | split | dsimp only | apply KeepLanesAll.upd | apply KeepLanesAll.updLane | exact rfl)

theorem Device.retireRecord_keepLanesAll {d : Device} {e : Device} (x1 : Nat) (x2 : Sys2Proof.Machine.FaultPlace) (x3 : Nat) (h : KeepLanesAll d e) :
    KeepLanesAll d (Device.retireRecord e x1 x2 x3) := by
  unfold Device.retireRecord
  repeat' with_reducible (first | assumption | (extract_lets +onlyGivenNames zz; first | (refine (fun (hz : KeepLanesAll d zz) => ?_) ?_; clear_value zz; rotate_left; subst zz) | clear_value zz | skip) | apply Device.raise_keepLanesAll | split | dsimp only | apply KeepLanesAll.upd | apply KeepLanesAll.updLane | exact rfl)

structure KeepClock (d e : Device) : Prop where
  clock : e.clock = d.clock
  stroke : e.stroke = d.stroke

theorem KeepClock.refl (d : Device) : KeepClock d d := ⟨rfl, rfl⟩
theorem KeepClock.trans {a b c : Device} (h : KeepClock a b) (k : KeepClock b c) : KeepClock a c := ⟨k.1.trans h.1, k.2.trans h.2⟩
theorem KeepClock.foldl {α : Type} {f : Device → α → Device} {d : Device} (l : List α) {e : Device}
    (h : ∀ e x, KeepClock d e → KeepClock d (f e x)) (h0 : KeepClock d e) : KeepClock d (l.foldl f e) := by
  induction l generalizing e with
  | nil => exact h0
  | cons x t ih => exact ih (h e x h0)
theorem KeepClock.ite {d a b : Device} {c : Prop} [Decidable c] (ha : KeepClock d a) (hb : KeepClock d b) : KeepClock d (if c then a else b) := by
  by_cases h : c
  · rwa [if_pos h]
  · rwa [if_neg h]
theorem KeepClock.snd {α : Type} {p : α × Device} {a : α} {d e : Device} (h : p = (a, e)) (k : KeepClock d p.2) : KeepClock d e := by rw [h] at k; exact k
theorem KeepClock.snd2 {α β : Type} {p : α × β × Device} {a : α} {b : β} {d e : Device} (h : p = (a, b, e)) (k : KeepClock d p.2.2) : KeepClock d e := by rw [h] at k; exact k
theorem KeepClock.fst {α : Type} {p : Device × α} {a : α} {d e : Device} (h : p = (e, a)) (k : KeepClock d p.1) : KeepClock d e := by rw [h] at k; exact k
theorem KeepClock.pair {α : Type} {a : α} {d e : Device} (k : KeepClock d e) : KeepClock d (a, e).2 := k
theorem KeepClock.pair1 {α : Type} {a : α} {d e : Device} (k : KeepClock d e) : KeepClock d (e, a).1 := k
def KeepClockO (d : Device) (o : Option Device) : Prop := ∀ e, o = some e → KeepClock d e
theorem KeepClockO.ofNone {d : Device} : KeepClockO d none := fun _ h => nomatch h
theorem KeepClockO.ofSome {d e : Device} (h : KeepClock d e) : KeepClockO d (some e) := fun _ k => by cases k; exact h
theorem KeepClockO.get {d e : Device} {o : Option Device} (h : o = some e) (k : KeepClockO d o) : KeepClock d e := k e h
theorem KeepClock.fstR {α : Type} {p : StageRun × α} {a : α} {d : Device} {e : StageRun} (h : p = (e, a)) (k : KeepClock d p.1.d) : KeepClock d e.d := by rw [h] at k; exact k
def KeepClockP {α : Type} (d : Device) (f : α → Device) (o : Option α) : Prop := ∀ a, o = some a → KeepClock d (f a)
theorem KeepClockP.ofNone {α : Type} {f : α → Device} {d : Device} : KeepClockP d f none := fun _ h => nomatch h
theorem KeepClockP.ofSome {α : Type} {f : α → Device} {d : Device} {a : α} (h : KeepClock d (f a)) : KeepClockP d f (some a) := fun _ k => by cases k; exact h
theorem KeepClockP.get2 {α : Type} {o : Option (α × Device)} {a : α} {d e : Device} (h : o = some (a, e)) (k : KeepClockP d (·.2) o) : KeepClock d e := k _ h
theorem KeepClockP.get1 {α : Type} {o : Option (Device × α)} {a : α} {d e : Device} (h : o = some (e, a)) (k : KeepClockP d (·.1) o) : KeepClock d e := k _ h
theorem KeepClock.upd {d e : Device} {xdev : DevCtl} {xfile : RegFile} {xgen : GenUnit} {xsnap : SnapUnit} {xbudget : BudgetUnit} {xprofile : ProfileUnit} {xlane : LaneUnit} {xports : Tab PortSt} {xfft : FftUnit} {xpkt : PacketUnit} {xhall : HallUnit} {xtable : TableUnit} {xbillet : BilletUnit} {xsched : SchedUnit} {xdrops : DropUnit} {xservo : ServoUnit} {xpulse : PulseUnit} {xledger : LedgerUnit} {xtsu : Tab TsuSt} {xdamper : DamperUnit} {xtelem : TelemUnit} {xinteg : IntegUnit} {xhost : HostUnit} {xperf : PerfUnit} {xanvil : AnvilUnit} {xras : RasUnit} {xseq : SeqUnit} {xboot : BootUnit} {xmgmt : MgmtUnit} {xsent : List Output} {xfreeCtr : Nat} (h : KeepClock d e) :
    KeepClock d (Device.mk xdev e.stroke xfile xgen xsnap xbudget xprofile xlane xports xfft xpkt xhall xtable xbillet xsched xdrops e.clock xservo xpulse xledger xtsu xdamper xtelem xinteg xhost xperf xanvil xras xseq xboot xmgmt xsent xfreeCtr) := ⟨h.1, h.2⟩

theorem Device.setBring_keepClock {d : Device} {e : Device} (x1 : Nat) (x2 : Sys2Proof.Machine.BringUp) (h : KeepClock d e) :
    KeepClock d (Device.setBring e x1 x2) := by
  unfold Device.setBring
  repeat' with_reducible (first | assumption | (extract_lets +onlyGivenNames zz; first | clear_value zz | skip) | dsimp only | apply KeepClock.upd)

theorem Device.modBring_keepClock {d : Device} {e : Device} (x1 : Nat) (x2 : Sys2Proof.Machine.BringUp → Sys2Proof.Machine.BringUp) (h : KeepClock d e) :
    KeepClock d (Device.modBring e x1 x2) := by
  unfold Device.modBring
  repeat' with_reducible (first | assumption | apply Device.setBring_keepClock | dsimp only | apply KeepClock.upd)

theorem Device.setReg_keepClock {d : Device} {e : Device} (x1 : Nat) (x2 : Sys2Proof.Word) (h : KeepClock d e) :
    KeepClock d (Device.setReg e x1 x2) := by
  unfold Device.setReg
  repeat' with_reducible (first | assumption | (extract_lets +onlyGivenNames zz; first | clear_value zz | skip) | dsimp only | apply KeepClock.upd)

theorem Device.setLane_keepClock {d : Device} {e : Device} (x1 : Nat) (x2 : Sys2Proof.Machine.LaneSt) (h : KeepClock d e) :
    KeepClock d (Device.setLane e x1 x2) := by
  unfold Device.setLane
  repeat' with_reducible (first | assumption | (extract_lets +onlyGivenNames zz; first | clear_value zz | skip) | split | dsimp only | apply KeepClock.upd)

theorem Device.markSet_keepClock {d : Device} {e : Device} (x1 : Nat) (x2 : Nat) (h : KeepClock d e) :
    KeepClock d (Device.markSet e x1 x2) := by
  unfold Device.markSet
  repeat' with_reducible (first | assumption | (extract_lets +onlyGivenNames zz; first | clear_value zz | skip) | dsimp only | apply KeepClock.upd)

theorem Device.setW1c_keepClock {d : Device} {e : Device} (x1 : Nat) (x2 : Nat) (h : KeepClock d e) :
    KeepClock d (Device.setW1c e x1 x2) := by
  unfold Device.setW1c
  repeat' with_reducible (first | assumption | apply Device.setReg_keepClock | apply Device.markSet_keepClock | dsimp only | apply KeepClock.upd)

theorem Device.raise_keepClock {d : Device} {e : Device} (x1 : Nat) (x2 : Nat) (h : KeepClock d e) :
    KeepClock d (Device.raise e x1 x2) := by
  unfold Device.raise
  repeat' with_reducible (first | assumption | (extract_lets +onlyGivenNames zz; first | (refine (fun (hz : KeepClock d zz) => ?_) ?_; clear_value zz; rotate_left; subst zz) | clear_value zz | skip) | apply Device.setW1c_keepClock | split | dsimp only | apply KeepClock.upd)

theorem Device.laneEvent_keepClock {d : Device} {e : Device} (x1 : Nat) (x2 : Bool) (h : KeepClock d e) :
    KeepClock d (Device.laneEvent e x1 x2) := by
  unfold Device.laneEvent
  repeat' with_reducible (first | assumption | (extract_lets +onlyGivenNames zz; first | clear_value zz | skip) | apply Device.raise_keepClock | apply Device.setW1c_keepClock | split | dsimp only | apply KeepClock.upd)

theorem Device.laneTo_keepClock {d : Device} {e : Device} (x1 : Nat) (x2 : Sys2Proof.Machine.LaneState) (h : KeepClock d e) :
    KeepClock d (Device.laneTo e x1 x2) := by
  unfold Device.laneTo
  repeat' with_reducible (first | assumption | (extract_lets +onlyGivenNames zz; first | (refine (fun (hz : KeepClock d zz) => ?_) ?_; clear_value zz; rotate_left; subst zz) | clear_value zz | skip) | apply Device.setReg_keepClock | apply Device.setLane_keepClock | apply Device.laneEvent_keepClock | split | dsimp only | apply KeepClock.upd)

theorem Device.portTo_keepClock {d : Device} {e : Device} (x1 : Nat) (x2 : Sys2Proof.Machine.LaneState) (h : KeepClock d e) :
    KeepClock d (Device.portTo e x1 x2) := by
  unfold Device.portTo
  repeat' with_reducible (first | assumption | apply Device.laneTo_keepClock | split | (apply KeepClock.foldl; intro _ _ _) | dsimp only | apply KeepClock.upd)

theorem Device.beginTrain_keepClock {d : Device} {e : Device} (x1 : Nat) (x2 : Sys2Proof.Machine.LaneState) (h : KeepClock d e) :
    KeepClock d (Device.beginTrain e x1 x2) := by
  unfold Device.beginTrain
  repeat' with_reducible (first | assumption | (extract_lets +onlyGivenNames zz; first | clear_value zz | skip) | apply Device.modBring_keepClock | apply Device.portTo_keepClock | dsimp only | apply KeepClock.upd)

/-- The highest of four that a test lets through. -/
theorem last_filter4 {g : Nat → Bool} {r : Nat} (hr : r < 4) (good : g r = true) (bad : ∀ q, r < q → q < 4 → g q = false) :
    ((List.range 4).filter g).getLast? = some r := by
  have e : List.range 4 = [0, 1, 2, 3] := rfl
  rw [e]
  simp only [List.filter_cons, List.filter_nil]
  have h : r = 0 ∨ r = 1 ∨ r = 2 ∨ r = 3 := by omega
  rcases h with h | h | h | h <;> subst h
  · rw [good, bad 1 (by omega) (by omega), bad 2 (by omega) (by omega), bad 3 (by omega) (by omega)]
    rfl
  · rw [good, bad 2 (by omega) (by omega), bad 3 (by omega) (by omega)]
    cases g 0 <;> rfl
  · rw [good, bad 3 (by omega) (by omega)]
    cases g 0 <;> cases g 1 <;> rfl
  · rw [good]
    cases g 0 <;> cases g 1 <;> cases g 2 <;> rfl

theorem CfgKeep.logFault (d : Device) (pl : FaultPlace) (ev ac n : Nat) : CfgKeep d (d.logFault pl ev ac n) := by
  unfold Device.logFault
  have go : ∀ e : Device, e.file = d.file → CfgKeep d (e.raise 0x50000 0) :=
    fun e h => (CfgKeep.ofFile h).trans (CfgKeep.raise e _ _ (by decide))
  exact go _ rfl

theorem CfgKeep.retireRecord (d : Device) (k : Nat) (pl : FaultPlace) (n : Nat) : CfgKeep d (d.retireRecord k pl n) := by
  unfold Device.retireRecord
  dsimp only
  split <;> exact (CfgKeep.raise d _ _ (by decide)).trans (.ofFile rfl)

theorem laneSt_of_lanes {d e : Device} (h : e.lane.lanes = d.lane.lanes) (l : Nat) : e.laneSt l = d.laneSt l := by
  unfold Device.laneSt
  rw [h]

theorem lanesWf_of_lanes {d e : Device} (h : e.lane.lanes = d.lane.lanes) (w : lanesWf d) : lanesWf e := by
  unfold lanesWf
  rw [h]
  exact w

/-- Storing one field of a register leaves its other fields as they were. -/
theorem fld_setFld_other {d : Device} (hw : tabWf regReset d.file.regs = true) (a : Nat) {f g : Fld} (n : Nat) (hf : f.lo + f.w ≤ 32)
    (hg : g.lo + g.w ≤ f.lo ∨ f.lo + f.w ≤ g.lo) : (d.setFld a f n).fld a g = d.fld a g := by
  unfold Device.fld Device.cfg
  have e1 : (d.setFld a f n).file.held = d.file.held := rfl
  rw [e1]
  cases assoc d.file.held a with
  | some v => rfl
  | none =>
    rw [Option.getD_none, Option.getD_none]
    have e2 : (d.setFld a f n).reg a = f.put (d.reg a) n := Device.reg_setReg_same hw _ _
    rw [e2, Fld.get_put_other _ _ _ _ hf hg]

/-- A field below a mask of low bits reads through it. -/
theorem Fld.get_mask (f : Fld) (w m : Word) (k : Nat) (hm : m.toNat = 2 ^ k - 1) (hf : f.lo + f.w ≤ k) : f.get (w &&& m) = f.get w := by
  have dv : 2 ^ (f.lo + f.w) ∣ 2 ^ k := ⟨2 ^ (k - (f.lo + f.w)), by rw [← Nat.pow_add]; congr 1; omega⟩
  rw [Fld.get, Fld.get, bitsOf_low, bitsOf_low, BitVec.toNat_and, hm, Nat.and_two_pow_sub_one_eq_mod, Nat.mod_mod_of_dvd _ dv]

/-- A field all of whose bits a mask lets through reads through it. -/
theorem Fld.get_masked (f : Fld) (w m : Word) (h : ∀ i < f.w, m.toNat.testBit (f.lo + i) = true) : f.get (w &&& m) = f.get w := by
  rw [Fld.get, Fld.get]
  unfold bitsOf
  apply Nat.eq_of_testBit_eq
  intro i
  rw [Nat.testBit_mod_two_pow, Nat.testBit_mod_two_pow, Nat.testBit_div_two_pow, Nat.testBit_div_two_pow, BitVec.toNat_and, Nat.testBit_and]
  by_cases hi : i < f.w
  · rw [show i + f.lo = f.lo + i by omega, h i hi, Bool.and_true]
  · simp [hi]

theorem setFld_wf {d : Device} (hw : tabWf regReset d.file.regs = true) (a : Nat) (f : Fld) (n : Nat) :
    tabWf regReset (d.setFld a f n).file.regs = true := Device.setReg_wf hw _ _

theorem err_cnt (d : Device) (b o : Nat) (k : ErrKind) (q : Source) : (d.err b o k q).file.cnt = d.file.cnt := by
  unfold Device.err
  extract_lets n d1
  have h : d1.file.cnt = d.file.cnt := by
    show (if _ then _ else _ : Device).file.cnt = _
    split <;> rfl
  exact h

structure KeepRasAll (d e : Device) : Prop where
  ras : e.ras = d.ras

theorem KeepRasAll.refl (d : Device) : KeepRasAll d d := ⟨rfl⟩
theorem KeepRasAll.trans {a b c : Device} (h : KeepRasAll a b) (k : KeepRasAll b c) : KeepRasAll a c := ⟨k.1.trans h.1⟩
theorem KeepRasAll.foldl {α : Type} {f : Device → α → Device} {d : Device} (l : List α) {e : Device}
    (h : ∀ e x, KeepRasAll d e → KeepRasAll d (f e x)) (h0 : KeepRasAll d e) : KeepRasAll d (l.foldl f e) := by
  induction l generalizing e with
  | nil => exact h0
  | cons x t ih => exact ih (h e x h0)
theorem KeepRasAll.ite {d a b : Device} {c : Prop} [Decidable c] (ha : KeepRasAll d a) (hb : KeepRasAll d b) : KeepRasAll d (if c then a else b) := by
  by_cases h : c
  · rwa [if_pos h]
  · rwa [if_neg h]
theorem KeepRasAll.snd {α : Type} {p : α × Device} {a : α} {d e : Device} (h : p = (a, e)) (k : KeepRasAll d p.2) : KeepRasAll d e := by rw [h] at k; exact k
theorem KeepRasAll.snd2 {α β : Type} {p : α × β × Device} {a : α} {b : β} {d e : Device} (h : p = (a, b, e)) (k : KeepRasAll d p.2.2) : KeepRasAll d e := by rw [h] at k; exact k
theorem KeepRasAll.fst {α : Type} {p : Device × α} {a : α} {d e : Device} (h : p = (e, a)) (k : KeepRasAll d p.1) : KeepRasAll d e := by rw [h] at k; exact k
theorem KeepRasAll.pair {α : Type} {a : α} {d e : Device} (k : KeepRasAll d e) : KeepRasAll d (a, e).2 := k
theorem KeepRasAll.pair1 {α : Type} {a : α} {d e : Device} (k : KeepRasAll d e) : KeepRasAll d (e, a).1 := k
def KeepRasAllO (d : Device) (o : Option Device) : Prop := ∀ e, o = some e → KeepRasAll d e
theorem KeepRasAllO.ofNone {d : Device} : KeepRasAllO d none := fun _ h => nomatch h
theorem KeepRasAllO.ofSome {d e : Device} (h : KeepRasAll d e) : KeepRasAllO d (some e) := fun _ k => by cases k; exact h
theorem KeepRasAllO.get {d e : Device} {o : Option Device} (h : o = some e) (k : KeepRasAllO d o) : KeepRasAll d e := k e h
theorem KeepRasAll.fstR {α : Type} {p : StageRun × α} {a : α} {d : Device} {e : StageRun} (h : p = (e, a)) (k : KeepRasAll d p.1.d) : KeepRasAll d e.d := by rw [h] at k; exact k
def KeepRasAllP {α : Type} (d : Device) (f : α → Device) (o : Option α) : Prop := ∀ a, o = some a → KeepRasAll d (f a)
theorem KeepRasAllP.ofNone {α : Type} {f : α → Device} {d : Device} : KeepRasAllP d f none := fun _ h => nomatch h
theorem KeepRasAllP.ofSome {α : Type} {f : α → Device} {d : Device} {a : α} (h : KeepRasAll d (f a)) : KeepRasAllP d f (some a) := fun _ k => by cases k; exact h
theorem KeepRasAllP.get2 {α : Type} {o : Option (α × Device)} {a : α} {d e : Device} (h : o = some (a, e)) (k : KeepRasAllP d (·.2) o) : KeepRasAll d e := k _ h
theorem KeepRasAllP.get1 {α : Type} {o : Option (Device × α)} {a : α} {d e : Device} (h : o = some (e, a)) (k : KeepRasAllP d (·.1) o) : KeepRasAll d e := k _ h
theorem KeepRasAll.upd {d e : Device} {xdev : DevCtl} {xstroke : StrokeCtl} {xfile : RegFile} {xgen : GenUnit} {xsnap : SnapUnit} {xbudget : BudgetUnit} {xprofile : ProfileUnit} {xlane : LaneUnit} {xports : Tab PortSt} {xfft : FftUnit} {xpkt : PacketUnit} {xhall : HallUnit} {xtable : TableUnit} {xbillet : BilletUnit} {xsched : SchedUnit} {xdrops : DropUnit} {xclock : ClockUnit} {xservo : ServoUnit} {xpulse : PulseUnit} {xledger : LedgerUnit} {xtsu : Tab TsuSt} {xdamper : DamperUnit} {xtelem : TelemUnit} {xinteg : IntegUnit} {xhost : HostUnit} {xperf : PerfUnit} {xanvil : AnvilUnit} {xseq : SeqUnit} {xboot : BootUnit} {xmgmt : MgmtUnit} {xsent : List Output} {xfreeCtr : Nat} (h : KeepRasAll d e) :
    KeepRasAll d (Device.mk xdev xstroke xfile xgen xsnap xbudget xprofile xlane xports xfft xpkt xhall xtable xbillet xsched xdrops xclock xservo xpulse xledger xtsu xdamper xtelem xinteg xhost xperf xanvil e.ras xseq xboot xmgmt xsent xfreeCtr) := ⟨h.1⟩

theorem Device.setQueueSt_keepRasAll {d : Device} {e : Device} (x1 : Nat) (x2 : Sys2Proof.Machine.QueueSt) (h : KeepRasAll d e) :
    KeepRasAll d (Device.setQueueSt e x1 x2) := by
  unfold Device.setQueueSt
  repeat' with_reducible (first | assumption | (extract_lets +onlyGivenNames zz; first | clear_value zz | skip) | dsimp only | apply KeepRasAll.upd)

theorem Device.setClassSt_keepRasAll {d : Device} {e : Device} (x1 : Nat) (x2 : Nat) (x3 : Sys2Proof.Machine.ClassSt) (h : KeepRasAll d e) :
    KeepRasAll d (Device.setClassSt e x1 x2 x3) := by
  unfold Device.setClassSt
  repeat' with_reducible (first | assumption | (extract_lets +onlyGivenNames zz; first | clear_value zz | skip) | dsimp only | apply KeepRasAll.upd)

theorem Device.addCharge_keepRasAll {d : Device} {e : Device} (x1 : Nat) (x2 : Sys2Proof.Machine.Charge) (x3 : Nat) (h : KeepRasAll d e) :
    KeepRasAll d (Device.addCharge e x1 x2 x3) := by
  unfold Device.addCharge
  repeat' with_reducible (first | assumption | (extract_lets +onlyGivenNames zz; first | clear_value zz | skip) | apply Device.setQueueSt_keepRasAll | apply Device.setClassSt_keepRasAll | split | dsimp only | apply KeepRasAll.upd)

theorem Device.setDwrr_keepRasAll {d : Device} {e : Device} (x1 : Nat) (x2 : Sys2Proof.Machine.DwrrSt) (h : KeepRasAll d e) :
    KeepRasAll d (Device.setDwrr e x1 x2) := by
  unfold Device.setDwrr
  repeat' with_reducible (first | assumption | (extract_lets +onlyGivenNames zz; first | clear_value zz | skip) | dsimp only | apply KeepRasAll.upd)

theorem Device.addDeficit_keepRasAll {d : Device} {e : Device} (x1 : Nat) (x2 : Int) (h : KeepRasAll d e) :
    KeepRasAll d (Device.addDeficit e x1 x2) := by
  unfold Device.addDeficit
  repeat' with_reducible (first | assumption | (extract_lets +onlyGivenNames zz; first | clear_value zz | skip) | apply Device.setDwrr_keepRasAll | split | dsimp only | apply KeepRasAll.upd)

theorem Device.countN_keepRasAll {d : Device} {e : Device} (x1 : Nat) (x2 : Nat) (h : KeepRasAll d e) :
    KeepRasAll d (Device.countN e x1 x2) := by
  unfold Device.countN
  repeat' with_reducible (first | assumption | (extract_lets +onlyGivenNames zz; first | clear_value zz | skip) | dsimp only | apply KeepRasAll.upd)

theorem Device.count_keepRasAll {d : Device} {e : Device} (x1 : Nat) (h : KeepRasAll d e) :
    KeepRasAll d (Device.count e x1) := by
  unfold Device.count
  repeat' with_reducible (first | assumption | apply Device.countN_keepRasAll | dsimp only | apply KeepRasAll.upd)

theorem Device.portCount_keepRasAll {d : Device} {e : Device} (x1 : Nat) (x2 : Nat) (x3 : Nat) (h : KeepRasAll d e) :
    KeepRasAll d (Device.portCount e x1 x2 x3) := by
  unfold Device.portCount
  repeat' with_reducible (first | assumption | apply Device.countN_keepRasAll | split | dsimp only | apply KeepRasAll.upd)

theorem Device.queueCount_keepRasAll {d : Device} {e : Device} (x1 : Nat) (x2 : Nat) (x3 : Nat) (h : KeepRasAll d e) :
    KeepRasAll d (Device.queueCount e x1 x2 x3) := by
  unfold Device.queueCount
  repeat' with_reducible (first | assumption | apply Device.countN_keepRasAll | split | dsimp only | apply KeepRasAll.upd)

theorem Device.noteAdded_keepRasAll {d : Device} {e : Device} (x1 : Nat) (x2 : Nat) (x3 : Option Sys2Proof.Machine.EvPkt) (h : KeepRasAll d e) :
    KeepRasAll d (Device.noteAdded e x1 x2 x3) := by
  unfold Device.noteAdded
  repeat' with_reducible (first | assumption | (extract_lets +onlyGivenNames zz; first | clear_value zz | skip) | dsimp only | apply KeepRasAll.upd)

theorem Device.setReg_keepRasAll {d : Device} {e : Device} (x1 : Nat) (x2 : Sys2Proof.Word) (h : KeepRasAll d e) :
    KeepRasAll d (Device.setReg e x1 x2) := by
  unfold Device.setReg
  repeat' with_reducible (first | assumption | (extract_lets +onlyGivenNames zz; first | clear_value zz | skip) | dsimp only | apply KeepRasAll.upd)

theorem Device.markSet_keepRasAll {d : Device} {e : Device} (x1 : Nat) (x2 : Nat) (h : KeepRasAll d e) :
    KeepRasAll d (Device.markSet e x1 x2) := by
  unfold Device.markSet
  repeat' with_reducible (first | assumption | (extract_lets +onlyGivenNames zz; first | clear_value zz | skip) | dsimp only | apply KeepRasAll.upd)

theorem Device.setW1c_keepRasAll {d : Device} {e : Device} (x1 : Nat) (x2 : Nat) (h : KeepRasAll d e) :
    KeepRasAll d (Device.setW1c e x1 x2) := by
  unfold Device.setW1c
  repeat' with_reducible (first | assumption | apply Device.setReg_keepRasAll | apply Device.markSet_keepRasAll | dsimp only | apply KeepRasAll.upd)

theorem Device.noteWrap_keepRasAll {d : Device} {e : Device} (x1 : Nat) (x2 : Bool) (x3 : Bool) (x4 : Nat) (h : KeepRasAll d e) :
    KeepRasAll d (Device.noteWrap e x1 x2 x3 x4) := by
  unfold Device.noteWrap
  repeat' with_reducible (first | assumption | (extract_lets +onlyGivenNames zz; first | clear_value zz | skip) | dsimp only | apply KeepRasAll.upd)

theorem Device.raise_keepRasAll {d : Device} {e : Device} (x1 : Nat) (x2 : Nat) (h : KeepRasAll d e) :
    KeepRasAll d (Device.raise e x1 x2) := by
  unfold Device.raise
  repeat' with_reducible (first | assumption | (extract_lets +onlyGivenNames zz; first | (refine (fun (hz : KeepRasAll d zz) => ?_) ?_; clear_value zz; rotate_left; subst zz) | clear_value zz | skip) | apply Device.setW1c_keepRasAll | split | dsimp only | apply KeepRasAll.upd)

theorem Device.pushSample_keepRasAll {d : Device} {e : Device} (x1 : Nat) (x2 : Sys2Proof.Machine.Sample) (h : KeepRasAll d e) :
    KeepRasAll d (Device.pushSample e x1 x2) := by
  unfold Device.pushSample
  repeat' with_reducible (first | assumption | (extract_lets +onlyGivenNames zz; first | (refine (fun (hz : KeepRasAll d zz) => ?_) ?_; clear_value zz; rotate_left; subst zz) | clear_value zz | skip) | apply Device.raise_keepRasAll | split | dsimp only | apply KeepRasAll.upd)

theorem Device.pcAdd_keepRasAll {d : Device} {e : Device} (x1 : Option Nat) (x2 : Nat) (x3 : Nat) (x4 : Option Sys2Proof.Machine.EvPkt) (x5 : Nat) (h : KeepRasAll d e) :
    KeepRasAll d (Device.pcAdd e x1 x2 x3 x4 x5) := by
  unfold Device.pcAdd
  repeat' with_reducible (first | assumption | (extract_lets +onlyGivenNames zz; first | (refine (fun (hz : KeepRasAll d zz) => ?_) ?_; clear_value zz; rotate_left; subst zz) | clear_value zz | skip) | apply Device.setW1c_keepRasAll | apply Device.noteWrap_keepRasAll | apply Device.pushSample_keepRasAll | split | dsimp only | apply KeepRasAll.upd)

theorem Device.event_keepRasAll {d : Device} {e : Device} (x1 : Option Nat) (x2 : Nat) (x3 : Nat) (x4 : Option Nat) (x5 : Sys2Proof.Machine.EvPkt) (h : KeepRasAll d e) :
    KeepRasAll d (Device.event e x1 x2 x3 x4 x5) := by
  unfold Device.event
  repeat' with_reducible (first | assumption | (extract_lets +onlyGivenNames zz; first | clear_value zz | skip) | apply Device.noteAdded_keepRasAll | apply Device.pcAdd_keepRasAll | split | (apply KeepRasAll.foldl; intro _ _ _) | dsimp only | apply KeepRasAll.upd)

theorem Device.dropCount_keepRasAll {d : Device} {e : Device} (x1 : Sys2Proof.Machine.DropInfo) (h : KeepRasAll d e) :
    KeepRasAll d (Device.dropCount e x1) := by
  unfold Device.dropCount
  repeat' with_reducible (first | assumption | apply Device.count_keepRasAll | apply Device.event_keepRasAll | split | dsimp only | apply KeepRasAll.upd)

theorem Device.aggregate_keepRasAll {d : Device} {e : Device} (x1 : Nat) (x2 : Nat) (h : KeepRasAll d e) :
    KeepRasAll d (Device.aggregate e x1 x2) := by
  unfold Device.aggregate
  repeat' with_reducible (first | assumption | (extract_lets +onlyGivenNames zz; first | (refine (fun (hz : KeepRasAll d zz) => ?_) ?_; clear_value zz; rotate_left; subst zz) | clear_value zz | skip) | apply Device.markSet_keepRasAll | apply Device.count_keepRasAll | apply Device.setReg_keepRasAll | apply Device.raise_keepRasAll | split | dsimp only | apply KeepRasAll.upd)

theorem Device.pushRecord_keepRasAll {d : Device} {e : Device} (x1 : Sys2Proof.Machine.DropInfo) (h : KeepRasAll d e) :
    KeepRasAll d (Device.pushRecord e x1) := by
  unfold Device.pushRecord
  repeat' with_reducible (first | assumption | (extract_lets +onlyGivenNames zz; first | clear_value zz | skip) | apply Device.raise_keepRasAll | apply Device.count_keepRasAll | apply Device.aggregate_keepRasAll | split | dsimp only | apply KeepRasAll.upd)

theorem Device.recordDrop_keepRasAll {d : Device} {e : Device} (x1 : Sys2Proof.Machine.DropInfo) (h : KeepRasAll d e) :
    KeepRasAll d (Device.recordDrop e x1) := by
  unfold Device.recordDrop
  repeat' with_reducible (first | assumption | (extract_lets +onlyGivenNames zz; first | clear_value zz | skip) | apply Device.pushRecord_keepRasAll | apply Device.aggregate_keepRasAll | split | dsimp only | apply KeepRasAll.upd)

theorem Device.drop_keepRasAll {d : Device} {e : Device} (x1 : Sys2Proof.Machine.DropInfo) (h : KeepRasAll d e) :
    KeepRasAll d (Device.drop e x1) := by
  unfold Device.drop
  repeat' with_reducible (first | assumption | apply Device.recordDrop_keepRasAll | apply Device.dropCount_keepRasAll | split | dsimp only | apply KeepRasAll.upd)

theorem Device.loseOne_keepRasAll {d : Device} {e : Device} (x1 : Sys2Proof.Machine.Frame) (x2 : Sys2Proof.Machine.DropInfo) (h : KeepRasAll d e) :
    KeepRasAll d (Device.loseOne e x1 x2) := by
  unfold Device.loseOne
  repeat' with_reducible (first | assumption | (extract_lets +onlyGivenNames zz; first | (refine (fun (hz : KeepRasAll d zz) => ?_) ?_; clear_value zz; rotate_left; subst zz) | skip) | apply Device.count_keepRasAll | apply Device.dropCount_keepRasAll | apply Device.drop_keepRasAll | split | dsimp only | apply KeepRasAll.upd)

theorem Device.refuseAdmission_keepRasAll {d : Device} {e : Device} (x1 : Sys2Proof.Machine.Frame) (x2 : Sys2Proof.Machine.AdmitReq) (x3 : Nat) (h : KeepRasAll d e) :
    KeepRasAll d (Device.refuseAdmission e x1 x2 x3) := by
  unfold Device.refuseAdmission
  repeat' with_reducible (first | assumption | (extract_lets +onlyGivenNames zz; first | (refine (fun (hz : KeepRasAll d zz) => ?_) ?_; clear_value zz; rotate_left; subst zz) | skip) | apply Device.count_keepRasAll | apply Device.portCount_keepRasAll | apply Device.queueCount_keepRasAll | apply Device.loseOne_keepRasAll | split | dsimp only | apply KeepRasAll.upd)

theorem Device.free_keepRasAll {d : Device} {e : Device} (x1 : Nat) (h : KeepRasAll d e) :
    KeepRasAll d (Device.free e x1).2 := by
  unfold Device.free
  repeat' with_reducible (first | assumption | dsimp only | apply KeepRasAll.upd)

theorem Device.setFrame_keepRasAll {d : Device} {e : Device} (x1 : Sys2Proof.Machine.Frame) (h : KeepRasAll d e) :
    KeepRasAll d (Device.setFrame e x1) := by
  unfold Device.setFrame
  repeat' with_reducible (first | assumption | (extract_lets +onlyGivenNames zz; first | clear_value zz | skip) | dsimp only | apply KeepRasAll.upd)

theorem Device.modFrame_keepRasAll {d : Device} {e : Device} (x1 : Nat) (x2 : Sys2Proof.Machine.Frame → Sys2Proof.Machine.Frame) (h : KeepRasAll d e) :
    KeepRasAll d (Device.modFrame e x1 x2) := by
  unfold Device.modFrame
  repeat' with_reducible (first | assumption | apply Device.setFrame_keepRasAll | split | dsimp only | apply KeepRasAll.upd)

theorem Device.allocCells_keepRasAll {d : Device} {e : Device} (x1 : Nat) (x2 : Nat) (x3 : Nat) (h : KeepRasAll d e) :
    KeepRasAll d (Device.allocCells e x1 x2 x3) := by
  induction x3 generalizing e x1 x2 with
  | zero =>
    unfold Device.allocCells
    repeat' with_reducible (first | assumption | (extract_lets +onlyGivenNames zz; first | (refine (fun (hz : KeepRasAll d zz) => ?_) ?_; clear_value zz; rotate_left; subst zz) | clear_value zz | skip) | apply Device.modFrame_keepRasAll | split | dsimp only | apply KeepRasAll.upd)
  | succ n ih =>
    unfold Device.allocCells
    repeat' with_reducible (first | assumption | apply ih | (extract_lets +onlyGivenNames zz; first | (refine (fun (hz : KeepRasAll d zz) => ?_) ?_; clear_value zz; rotate_left; subst zz) | clear_value zz | skip) | apply Device.modFrame_keepRasAll | split | dsimp only | apply KeepRasAll.upd)

theorem Device.spend_keepRasAll {d : Device} {e : Device} (x1 : Nat) (x2 : Nat) (x3 : Nat) (x4 : Nat) (h : KeepRasAll d e) :
    KeepRasAll d (Device.spend e x1 x2 x3 x4) := by
  unfold Device.spend
  repeat' with_reducible (first | assumption | (extract_lets +onlyGivenNames zz; first | clear_value zz | skip) | dsimp only | apply KeepRasAll.upd)

theorem Device.modCopy_keepRasAll {d : Device} {e : Device} (x1 : Nat) (x2 : Sys2Proof.Machine.Copy → Sys2Proof.Machine.Copy) (h : KeepRasAll d e) :
    KeepRasAll d (Device.modCopy e x1 x2) := by
  unfold Device.modCopy
  repeat' with_reducible (first | assumption | (extract_lets +onlyGivenNames zz; first | clear_value zz | skip) | split | dsimp only | apply KeepRasAll.upd)

theorem Device.chargeMore_keepRasAll {d : Device} {e : Device} (x1 : Sys2Proof.Machine.Copy) (x2 : Nat) (h : KeepRasAll d e) :
    KeepRasAll d (Device.chargeMore e x1 x2) := by
  unfold Device.chargeMore
  repeat' with_reducible (first | assumption | (extract_lets +onlyGivenNames zz; first | (refine (fun (hz : KeepRasAll d zz) => ?_) ?_; clear_value zz; rotate_left; subst zz) | clear_value zz | skip) | apply Device.addCharge_keepRasAll | apply Device.modCopy_keepRasAll | apply Device.modFrame_keepRasAll | split | dsimp only | apply KeepRasAll.upd)

theorem Device.growFrame_keepRasAll {d : Device} {e : Device} (x1 : Nat) (h : KeepRasAll d e) :
    KeepRasAll d (Device.growFrame e x1) := by
  unfold Device.growFrame
  repeat' with_reducible (first | assumption | (extract_lets +onlyGivenNames zz; first | (refine (fun (hz : KeepRasAll d zz) => ?_) ?_; clear_value zz; rotate_left; subst zz) | clear_value zz | skip) | apply Device.allocCells_keepRasAll | apply Device.event_keepRasAll | apply Device.spend_keepRasAll | apply Device.chargeMore_keepRasAll | split | (apply KeepRasAll.foldl; intro _ _ _) | dsimp only | apply KeepRasAll.upd)

theorem Device.admitCopy_keepRasAll {d : Device} {e : Device} (x1 : Sys2Proof.Machine.AdmitReq) (x2 : Bool) (x3 : Nat) (h : KeepRasAll d e) :
    KeepRasAll d (Device.admitCopy e x1 x2 x3).1 := by
  unfold Device.admitCopy
  repeat' with_reducible (first | assumption | (extract_lets +onlyGivenNames zz; first | (refine (fun (hz : KeepRasAll d zz) => ?_) ?_; clear_value zz; rotate_left; subst zz) | clear_value zz | skip) | apply Device.refuseAdmission_keepRasAll | apply Device.setQueueSt_keepRasAll | apply Device.free_keepRasAll | apply Device.count_keepRasAll | apply Device.modFrame_keepRasAll | apply Device.queueCount_keepRasAll | apply Device.event_keepRasAll | apply Device.growFrame_keepRasAll | split | (apply KeepRasAll.snd2 (by assumption)) | (apply KeepRasAll.snd (by assumption)) | (apply KeepRasAll.fst (by assumption)) | dsimp only | apply KeepRasAll.upd)

theorem Device.setPort_keepRasAll {d : Device} {e : Device} (x1 : Nat) (x2 : Sys2Proof.Machine.PortSt) (h : KeepRasAll d e) :
    KeepRasAll d (Device.setPort e x1 x2) := by
  unfold Device.setPort
  repeat' with_reducible (first | assumption | dsimp only | apply KeepRasAll.upd)

theorem Device.modPort_keepRasAll {d : Device} {e : Device} (x1 : Nat) (x2 : Sys2Proof.Machine.PortSt → Sys2Proof.Machine.PortSt) (h : KeepRasAll d e) :
    KeepRasAll d (Device.modPort e x1 x2) := by
  unfold Device.modPort
  repeat' with_reducible (first | assumption | apply Device.setPort_keepRasAll | dsimp only | apply KeepRasAll.upd)

theorem Device.setLane_keepRasAll {d : Device} {e : Device} (x1 : Nat) (x2 : Sys2Proof.Machine.LaneSt) (h : KeepRasAll d e) :
    KeepRasAll d (Device.setLane e x1 x2) := by
  unfold Device.setLane
  repeat' with_reducible (first | assumption | (extract_lets +onlyGivenNames zz; first | clear_value zz | skip) | split | dsimp only | apply KeepRasAll.upd)

theorem Device.modLane_keepRasAll {d : Device} {e : Device} (x1 : Nat) (x2 : Sys2Proof.Machine.LaneSt → Sys2Proof.Machine.LaneSt) (h : KeepRasAll d e) :
    KeepRasAll d (Device.modLane e x1 x2) := by
  unfold Device.modLane
  repeat' with_reducible (first | assumption | apply Device.setLane_keepRasAll | dsimp only | apply KeepRasAll.upd)

theorem Device.leaveLpiTx_keepRasAll {d : Device} {e : Device} (x1 : Nat) (h : KeepRasAll d e) :
    KeepRasAll d (Device.leaveLpiTx e x1) := by
  unfold Device.leaveLpiTx
  repeat' with_reducible (first | assumption | (extract_lets +onlyGivenNames zz; first | (refine (fun (hz : KeepRasAll d zz) => ?_) ?_; clear_value zz; rotate_left; subst zz) | skip) | apply Device.modPort_keepRasAll | apply Device.portCount_keepRasAll | apply Device.modLane_keepRasAll | split | (apply KeepRasAll.foldl; intro _ _ _) | dsimp only | apply KeepRasAll.upd)

theorem Device.send_keepRasAll {d : Device} {e : Device} (x1 : Sys2Proof.Machine.Output) (h : KeepRasAll d e) :
    KeepRasAll d (Device.send e x1) := by
  unfold Device.send
  repeat' with_reducible (first | assumption | dsimp only | apply KeepRasAll.upd)

theorem Device.sendFc_keepRasAll {d : Device} {e : Device} (x1 : Nat) (x2 : Nat) (x3 : Nat) (h : KeepRasAll d e) :
    KeepRasAll d (Device.sendFc e x1 x2 x3) := by
  unfold Device.sendFc
  repeat' with_reducible (first | assumption | (extract_lets +onlyGivenNames zz; first | (refine (fun (hz : KeepRasAll d zz) => ?_) ?_; clear_value zz; rotate_left; subst zz) | clear_value zz | skip) | apply Device.modPort_keepRasAll | apply Device.leaveLpiTx_keepRasAll | apply Device.send_keepRasAll | apply Device.portCount_keepRasAll | split | dsimp only | apply KeepRasAll.upd)

theorem Device.askFc_keepRasAll {d : Device} {e : Device} (x1 : Nat) (x2 : Nat) (h : KeepRasAll d e) :
    KeepRasAll d (Device.askFc e x1 x2) := by
  unfold Device.askFc
  repeat' with_reducible (first | assumption | apply Device.modPort_keepRasAll | apply Device.sendFc_keepRasAll | split | dsimp only | apply KeepRasAll.upd)

theorem Device.autoMembers_keepRasAll {d : Device} {e : Device} (x1 : Nat) (x2 : Bool) (h : KeepRasAll d e) :
    KeepRasAll d (Device.autoMembers e x1 x2) := by
  unfold Device.autoMembers
  repeat' with_reducible (first | assumption | (extract_lets +onlyGivenNames zz; first | clear_value zz | skip) | split | (apply KeepRasAll.foldl; intro _ _ _) | dsimp only | apply KeepRasAll.upd)

theorem Device.settleFault_keepRasAll {d : Device} {e : Device} (x1 : Nat) (h : KeepRasAll d e) :
    KeepRasAll d (Device.settleFault e x1) := by
  unfold Device.settleFault
  repeat' with_reducible (first | assumption | (extract_lets +onlyGivenNames zz; first | clear_value zz | skip) | apply Device.send_keepRasAll | apply Device.modPort_keepRasAll | split | dsimp only | apply KeepRasAll.upd)

theorem Device.laneEvent_keepRasAll {d : Device} {e : Device} (x1 : Nat) (x2 : Bool) (h : KeepRasAll d e) :
    KeepRasAll d (Device.laneEvent e x1 x2) := by
  unfold Device.laneEvent
  repeat' with_reducible (first | assumption | (extract_lets +onlyGivenNames zz; first | clear_value zz | skip) | apply Device.raise_keepRasAll | apply Device.setW1c_keepRasAll | split | dsimp only | apply KeepRasAll.upd)

theorem Device.laneTo_keepRasAll {d : Device} {e : Device} (x1 : Nat) (x2 : Sys2Proof.Machine.LaneState) (h : KeepRasAll d e) :
    KeepRasAll d (Device.laneTo e x1 x2) := by
  unfold Device.laneTo
  repeat' with_reducible (first | assumption | (extract_lets +onlyGivenNames zz; first | (refine (fun (hz : KeepRasAll d zz) => ?_) ?_; clear_value zz; rotate_left; subst zz) | clear_value zz | skip) | apply Device.setReg_keepRasAll | apply Device.setLane_keepRasAll | apply Device.laneEvent_keepRasAll | split | dsimp only | apply KeepRasAll.upd)

theorem Device.portTo_keepRasAll {d : Device} {e : Device} (x1 : Nat) (x2 : Sys2Proof.Machine.LaneState) (h : KeepRasAll d e) :
    KeepRasAll d (Device.portTo e x1 x2) := by
  unfold Device.portTo
  repeat' with_reducible (first | assumption | apply Device.laneTo_keepRasAll | split | (apply KeepRasAll.foldl; intro _ _ _) | dsimp only | apply KeepRasAll.upd)

theorem Device.beginAlign_keepRasAll {d : Device} {e : Device} (x1 : Nat) (h : KeepRasAll d e) :
    KeepRasAll d (Device.beginAlign e x1) := by
  unfold Device.beginAlign
  repeat' with_reducible (first | assumption | apply Device.settleFault_keepRasAll | apply Device.portTo_keepRasAll | dsimp only | apply KeepRasAll.upd)

theorem Device.setBring_keepRasAll {d : Device} {e : Device} (x1 : Nat) (x2 : Sys2Proof.Machine.BringUp) (h : KeepRasAll d e) :
    KeepRasAll d (Device.setBring e x1 x2) := by
  unfold Device.setBring
  repeat' with_reducible (first | assumption | (extract_lets +onlyGivenNames zz; first | clear_value zz | skip) | dsimp only | apply KeepRasAll.upd)

theorem Device.modBring_keepRasAll {d : Device} {e : Device} (x1 : Nat) (x2 : Sys2Proof.Machine.BringUp → Sys2Proof.Machine.BringUp) (h : KeepRasAll d e) :
    KeepRasAll d (Device.modBring e x1 x2) := by
  unfold Device.modBring
  repeat' with_reducible (first | assumption | apply Device.setBring_keepRasAll | dsimp only | apply KeepRasAll.upd)

theorem Device.beginTrain_keepRasAll {d : Device} {e : Device} (x1 : Nat) (x2 : Sys2Proof.Machine.LaneState) (h : KeepRasAll d e) :
    KeepRasAll d (Device.beginTrain e x1 x2) := by
  unfold Device.beginTrain
  repeat' with_reducible (first | assumption | (extract_lets +onlyGivenNames zz; first | clear_value zz | skip) | apply Device.modBring_keepRasAll | apply Device.portTo_keepRasAll | dsimp only | apply KeepRasAll.upd)

theorem Device.overflowUpd_keepRasAll {d : Device} {e : Device} (x1 : Nat) (x2 : Sys2Proof.Machine.FlowUpd) (h : KeepRasAll d e) :
    KeepRasAll d (Device.overflowUpd e x1 x2) := by
  unfold Device.overflowUpd
  repeat' with_reducible (first | assumption | (extract_lets +onlyGivenNames zz; first | clear_value zz | skip) | dsimp only | apply KeepRasAll.upd)

theorem Device.bucketUpd_keepRasAll {d : Device} {e : Device} (x1 : Nat) (x2 : Sys2Proof.Machine.FlowUpd) (h : KeepRasAll d e) :
    KeepRasAll d (Device.bucketUpd e x1 x2) := by
  unfold Device.bucketUpd
  try dsimp only
  repeat' with_reducible (first | assumption | apply Device.overflowUpd_keepRasAll | apply Device.count_keepRasAll | split | dsimp only | apply KeepRasAll.upd)

theorem Device.setTokens_keepRasAll {d : Device} {e : Device} (x1 : Nat) (x2 : Int) (h : KeepRasAll d e) :
    KeepRasAll d (Device.setTokens e x1 x2) := by
  unfold Device.setTokens
  repeat' with_reducible (first | assumption | (extract_lets +onlyGivenNames zz; first | clear_value zz | skip) | dsimp only | apply KeepRasAll.upd)

theorem Device.giveBack_keepRasAll {d : Device} {e : Device} (x1 : Sys2Proof.Machine.Copy) (x2 : Int) (h : KeepRasAll d e) :
    KeepRasAll d (Device.giveBack e x1 x2) := by
  unfold Device.giveBack
  repeat' with_reducible (first | assumption | (extract_lets +onlyGivenNames zz; first | (refine (fun (hz : KeepRasAll d zz) => ?_) ?_; clear_value zz; rotate_left; subst zz) | skip) | apply Device.setTokens_keepRasAll | apply Device.addDeficit_keepRasAll | split | (apply KeepRasAll.foldl; intro _ _ _) | dsimp only | apply KeepRasAll.upd)

theorem Device.correctTo_keepRasAll {d : Device} {e : Device} (x1 : Sys2Proof.Machine.Copy) (x2 : Nat) (h : KeepRasAll d e) :
    KeepRasAll d (Device.correctTo e x1 x2) := by
  unfold Device.correctTo
  repeat' with_reducible (first | assumption | apply Device.giveBack_keepRasAll | split | dsimp only | apply KeepRasAll.upd)

theorem Device.countEnq_keepRasAll {d : Device} {e : Device} (x1 : Nat) (h : KeepRasAll d e) :
    KeepRasAll d (Device.countEnq e x1) := by
  unfold Device.countEnq
  repeat' with_reducible (first | assumption | apply Device.queueCount_keepRasAll | apply Device.modFrame_keepRasAll | split | (apply KeepRasAll.foldl; intro _ _ _) | dsimp only | apply KeepRasAll.upd)

theorem Device.countSent_keepRasAll {d : Device} {e : Device} (x1 : Nat) (x2 : Nat) (h : KeepRasAll d e) :
    KeepRasAll d (Device.countSent e x1 x2) := by
  unfold Device.countSent
  repeat' with_reducible (first | assumption | apply Device.queueCount_keepRasAll | apply Device.portCount_keepRasAll | dsimp only | apply KeepRasAll.upd)

theorem Device.countStomped_keepRasAll {d : Device} {e : Device} (x1 : Sys2Proof.Machine.Copy) (x2 : Nat) (h : KeepRasAll d e) :
    KeepRasAll d (Device.countStomped e x1 x2) := by
  unfold Device.countStomped
  repeat' with_reducible (first | assumption | (extract_lets +onlyGivenNames zz; first | (refine (fun (hz : KeepRasAll d zz) => ?_) ?_; clear_value zz; rotate_left; subst zz) | skip) | apply Device.event_keepRasAll | apply Device.portCount_keepRasAll | apply Device.countSent_keepRasAll | split | dsimp only | apply KeepRasAll.upd)

theorem Device.leaveLower_keepRasAll {d : Device} {e : Device} (x1 : Sys2Proof.Machine.Copy) (x2 : Nat) (h : KeepRasAll d e) :
    KeepRasAll d (Device.leaveLower e x1 x2) := by
  unfold Device.leaveLower
  repeat' with_reducible (first | assumption | (extract_lets +onlyGivenNames zz; first | (refine (fun (hz : KeepRasAll d zz) => ?_) ?_; clear_value zz; rotate_left; subst zz) | clear_value zz | skip) | apply Device.setQueueSt_keepRasAll | apply Device.modCopy_keepRasAll | dsimp only | apply KeepRasAll.upd)

theorem Device.noWait_keepRasAll {d : Device} {e : Device} (x1 : Nat) (x2 : Nat) (x3 : Nat) (h : KeepRasAll d e) :
    KeepRasAll d (Device.noWait e x1 x2 x3) := by
  unfold Device.noWait
  repeat' with_reducible (first | assumption | (extract_lets +onlyGivenNames zz; first | clear_value zz | skip) | dsimp only | apply KeepRasAll.upd)

theorem Device.returnCells_keepRasAll {d : Device} {e : Device} (x1 : Sys2Proof.Machine.Copy) (x2 : Nat) (h : KeepRasAll d e) :
    KeepRasAll d (Device.returnCells e x1 x2) := by
  unfold Device.returnCells
  repeat' with_reducible (first | assumption | (extract_lets +onlyGivenNames zz; first | (refine (fun (hz : KeepRasAll d zz) => ?_) ?_; clear_value zz; rotate_left; subst zz) | clear_value zz | skip) | apply Device.modCopy_keepRasAll | dsimp only | apply KeepRasAll.upd)

theorem Device.freeRead_keepRasAll {d : Device} {e : Device} (x1 : Nat) (h : KeepRasAll d e) :
    KeepRasAll d (Device.freeRead e x1) := by
  unfold Device.freeRead
  repeat' with_reducible (first | assumption | (extract_lets +onlyGivenNames zz; first | (refine (fun (hz : KeepRasAll d zz) => ?_) ?_; clear_value zz; rotate_left; subst zz) | clear_value zz | skip) | apply Device.setFrame_keepRasAll | apply Device.returnCells_keepRasAll | split | (apply KeepRasAll.foldl; intro _ _ _) | dsimp only | apply KeepRasAll.upd)

theorem Device.releaseFrame_keepRasAll {d : Device} {e : Device} (x1 : Nat) (h : KeepRasAll d e) :
    KeepRasAll d (Device.releaseFrame e x1) := by
  unfold Device.releaseFrame
  repeat' with_reducible (first | assumption | (extract_lets +onlyGivenNames zz; first | (refine (fun (hz : KeepRasAll d zz) => ?_) ?_; clear_value zz; rotate_left; subst zz) | clear_value zz | skip) | apply Device.setFrame_keepRasAll | split | dsimp only | apply KeepRasAll.upd)

theorem Device.endCopy_keepRasAll {d : Device} {e : Device} (x1 : Nat) (h : KeepRasAll d e) :
    KeepRasAll d (Device.endCopy e x1) := by
  unfold Device.endCopy
  repeat' with_reducible (first | assumption | (extract_lets +onlyGivenNames zz; first | (refine (fun (hz : KeepRasAll d zz) => ?_) ?_; clear_value zz; rotate_left; subst zz) | clear_value zz | skip) | apply Device.leaveLower_keepRasAll | apply Device.noWait_keepRasAll | apply Device.modPort_keepRasAll | apply Device.freeRead_keepRasAll | apply Device.releaseFrame_keepRasAll | split | dsimp only | apply KeepRasAll.upd)

theorem Device.stompOut_keepRasAll {d : Device} {e : Device} (x1 : Sys2Proof.Machine.Copy) (h : KeepRasAll d e) :
    KeepRasAll d (Device.stompOut e x1) := by
  unfold Device.stompOut
  repeat' with_reducible (first | assumption | apply Device.free_keepRasAll | apply Device.send_keepRasAll | apply Device.countStomped_keepRasAll | apply Device.correctTo_keepRasAll | split | (apply KeepRasAll.snd2 (by assumption)) | (apply KeepRasAll.snd (by assumption)) | (apply KeepRasAll.fst (by assumption)) | dsimp only | apply KeepRasAll.upd)

theorem Device.setCache_keepRasAll {d : Device} {e : Device} (x1 : Nat) (x2 : List (Nat × Bool)) (h : KeepRasAll d e) :
    KeepRasAll d (Device.setCache e x1 x2) := by
  unfold Device.setCache
  repeat' with_reducible (first | assumption | (extract_lets +onlyGivenNames zz; first | clear_value zz | skip) | dsimp only | apply KeepRasAll.upd)

theorem Device.flowEnd_keepRasAll {d : Device} {e : Device} (x1 : Bool) (x2 : Sys2Proof.Machine.FlowUpd) (h : KeepRasAll d e) :
    KeepRasAll d (Device.flowEnd e x1 x2) := by
  unfold Device.flowEnd
  repeat' with_reducible (first | assumption | (extract_lets +onlyGivenNames zz; first | clear_value zz | skip) | apply Device.overflowUpd_keepRasAll | apply Device.bucketUpd_keepRasAll | apply Device.setCache_keepRasAll | apply Device.raise_keepRasAll | apply Device.count_keepRasAll | split | dsimp only | apply KeepRasAll.upd)

theorem Device.flowFinish_keepRasAll {d : Device} {e : Device} (x1 : Nat) (x2 : Option Nat) (x3 : Option Nat) (h : KeepRasAll d e) :
    KeepRasAll d (Device.flowFinish e x1 x2 x3) := by
  unfold Device.flowFinish
  repeat' with_reducible (first | assumption | (extract_lets +onlyGivenNames zz; first | (refine (fun (hz : KeepRasAll d zz) => ?_) ?_; clear_value zz; rotate_left; subst zz) | skip) | apply Device.setFrame_keepRasAll | apply Device.flowEnd_keepRasAll | split | dsimp only | apply KeepRasAll.upd)

theorem Device.flowCopy_keepRasAll {d : Device} {e : Device} (x1 : Sys2Proof.Machine.Copy) (x2 : Option Nat) (x3 : Option Nat) (h : KeepRasAll d e) :
    KeepRasAll d (Device.flowCopy e x1 x2 x3) := by
  unfold Device.flowCopy
  repeat' with_reducible (first | assumption | apply Device.flowFinish_keepRasAll | apply Device.modFrame_keepRasAll | split | dsimp only | apply KeepRasAll.upd)

theorem Device.stopSending_keepRasAll {d : Device} {e : Device} (x1 : Nat) (h : KeepRasAll d e) :
    KeepRasAll d (Device.stopSending e x1) := by
  unfold Device.stopSending
  repeat' with_reducible (first | assumption | (extract_lets +onlyGivenNames zz; first | (refine (fun (hz : KeepRasAll d zz) => ?_) ?_; clear_value zz; rotate_left; subst zz) | clear_value zz | skip) | apply Device.askFc_keepRasAll | split | (apply KeepRasAll.foldl; intro _ _ _) | dsimp only | apply KeepRasAll.upd)

theorem Device.dropCopy_keepRasAll {d : Device} {e : Device} (x1 : Nat) (x2 : Nat) (x3 : Nat) (x4 : Bool) (x5 : Option (Nat × Nat)) (h : KeepRasAll d e) :
    KeepRasAll d (Device.dropCopy e x1 x2 x3 x4 x5) := by
  unfold Device.dropCopy
  repeat' with_reducible (first | assumption | (extract_lets +onlyGivenNames zz; first | (refine (fun (hz : KeepRasAll d zz) => ?_) ?_; clear_value zz; rotate_left; subst zz) | clear_value zz | skip) | apply Device.endCopy_keepRasAll | apply Device.stompOut_keepRasAll | apply Device.giveBack_keepRasAll | apply Device.loseOne_keepRasAll | apply Device.flowCopy_keepRasAll | apply Device.stopSending_keepRasAll | split | dsimp only | apply KeepRasAll.upd)

theorem Device.dropCopies_keepRasAll {d : Device} {e : Device} (x1 : Nat) (x2 : Nat) (x3 : Nat) (x4 : Sys2Proof.Machine.Copy → Bool) (h : KeepRasAll d e) :
    KeepRasAll d (Device.dropCopies e x1 x2 x3 x4) := by
  unfold Device.dropCopies
  repeat' with_reducible (first | assumption | apply Device.dropCopy_keepRasAll | (apply KeepRasAll.foldl; intro _ _ _) | dsimp only | apply KeepRasAll.upd)

theorem Device.freeStair_keepRasAll {d : Device} {e : Device} (x1 : Sys2Proof.Machine.Flight) (x2 : Nat) (h : KeepRasAll d e) :
    KeepRasAll d (Device.freeStair e x1 x2) := by
  unfold Device.freeStair
  repeat' with_reducible (first | assumption | (extract_lets +onlyGivenNames zz; first | clear_value zz | skip) | split | dsimp only | apply KeepRasAll.upd)

theorem Device.flowOfFlight_keepRasAll {d : Device} {e : Device} (x1 : Sys2Proof.Machine.Flight) (h : KeepRasAll d e) :
    KeepRasAll d (Device.flowOfFlight e x1) := by
  unfold Device.flowOfFlight
  repeat' with_reducible (first | assumption | (extract_lets +onlyGivenNames zz; first | clear_value zz | skip) | apply Device.modFrame_keepRasAll | dsimp only | apply KeepRasAll.upd)

theorem Device.endFlight_keepRasAll {d : Device} {e : Device} (x1 : Nat) (h : KeepRasAll d e) :
    KeepRasAll d (Device.endFlight e x1) := by
  unfold Device.endFlight
  repeat' with_reducible (first | assumption | (extract_lets +onlyGivenNames zz; first | clear_value zz | skip) | dsimp only | apply KeepRasAll.upd)

theorem Device.formIngress_keepRasAll {d : Device} {e : Device} (x1 : Sys2Proof.Machine.Flight) (h : KeepRasAll d e) :
    KeepRasAll d (Device.formIngress e x1).1 := by
  unfold Device.formIngress
  repeat' with_reducible (first | assumption | (extract_lets +onlyGivenNames zz; first | clear_value zz | skip) | apply Device.setFrame_keepRasAll | split | (apply KeepRasAll.snd2 (by assumption)) | (apply KeepRasAll.snd (by assumption)) | (apply KeepRasAll.fst (by assumption)) | dsimp only | apply KeepRasAll.upd)

theorem Device.ingressMirrors_keepRasAll {d : Device} {e : Device} (x1 : Sys2Proof.Machine.Flight) (x2 : Sys2Proof.Machine.Phv) (x3 : Bool) (x4 : Nat) (h : KeepRasAll d e) :
    KeepRasAll d (Device.ingressMirrors e x1 x2 x3 x4).1 := by
  unfold Device.ingressMirrors
  have : ∀ (l : List Nat) (b : Device × Bool), KeepRasAll d b.1 → KeepRasAll d (l.foldl (fun (r : Device × Bool) m =>
    match r.1.mirrorOf m with
    | none => r
    | some (q, trunc) =>
      let (d, a) := r.1.admitCopy
        { frame := x1.id, queue := q, kind := .mirror, colour := x1.acts.colour, phv := x2, pass := x1.pass, trunc := trunc,
          gal := x1.gal } r.2 (if r.2 then x4 else 0)
      match a with
      | .copy _ => (d, false)
      | .refused _ => (d, r.2)) b).1 := by
    intro l
    induction l with
    | nil => exact fun _ h => h
    | cons m t ih =>
      intro b hb
      refine ih _ ?_
      dsimp only
      split
      · exact hb
      have k := fun q t => Device.admitCopy_keepRasAll { frame := x1.id, queue := q, kind := .mirror, colour := x1.acts.colour, phv := x2, pass := x1.pass, trunc := t, gal := x1.gal } b.2 (if b.2 then x4 else 0) hb
      split <;> exact k _ _
  exact this _ _ h

theorem Device.mirrorEnded_keepRasAll {d : Device} {e : Device} (x1 : Sys2Proof.Machine.Flight) (h : KeepRasAll d e) :
    KeepRasAll d (Device.mirrorEnded e x1) := by
  unfold Device.mirrorEnded
  repeat' with_reducible (first | assumption | apply Device.formIngress_keepRasAll | apply Device.ingressMirrors_keepRasAll | split | (apply KeepRasAll.snd2 (by assumption)) | (apply KeepRasAll.snd (by assumption)) | (apply KeepRasAll.fst (by assumption)) | dsimp only | apply KeepRasAll.upd)

theorem Device.dropFlight_keepRasAll {d : Device} {e : Device} (x1 : Nat) (x2 : Nat) (x3 : Option (Nat × Nat)) (h : KeepRasAll d e) :
    KeepRasAll d (Device.dropFlight e x1 x2 x3) := by
  unfold Device.dropFlight
  repeat' with_reducible (first | assumption | (extract_lets +onlyGivenNames zz; first | (refine (fun (hz : KeepRasAll d zz) => ?_) ?_; clear_value zz; rotate_left; subst zz) | skip) | apply Device.freeStair_keepRasAll | apply Device.loseOne_keepRasAll | apply Device.flowOfFlight_keepRasAll | apply Device.endFlight_keepRasAll | apply Device.mirrorEnded_keepRasAll | apply Device.flowFinish_keepRasAll | apply Device.releaseFrame_keepRasAll | split | dsimp only | apply KeepRasAll.upd)

theorem Device.dropTrap_keepRasAll {d : Device} {e : Device} (x1 : Sys2Proof.Machine.TrapPkt) (x2 : Nat) (h : KeepRasAll d e) :
    KeepRasAll d (Device.dropTrap e x1 x2) := by
  unfold Device.dropTrap
  repeat' with_reducible (first | assumption | (extract_lets +onlyGivenNames zz; first | (refine (fun (hz : KeepRasAll d zz) => ?_) ?_; clear_value zz; rotate_left; subst zz) | clear_value zz | skip) | apply Device.loseOne_keepRasAll | apply Device.flowFinish_keepRasAll | apply Device.releaseFrame_keepRasAll | split | dsimp only | apply KeepRasAll.upd)

theorem Device.endReceiving_keepRasAll {d : Device} {e : Device} (x1 : Nat) (h : KeepRasAll d e) :
    KeepRasAll d (Device.endReceiving e x1) := by
  unfold Device.endReceiving
  repeat' with_reducible (first | assumption | (extract_lets +onlyGivenNames zz; first | clear_value zz | skip) | dsimp only | apply KeepRasAll.upd)

theorem Device.errWord_keepRasAll {d : Device} {e : Device} (x1 : Nat) (x2 : Sys2Proof.Word) (h : KeepRasAll d e) :
    KeepRasAll d (Device.errWord e x1 x2) := by
  unfold Device.errWord
  repeat' with_reducible (first | assumption | (extract_lets +onlyGivenNames zz; first | (refine (fun (hz : KeepRasAll d zz) => ?_) ?_; clear_value zz; rotate_left; subst zz) | clear_value zz | skip) | apply Device.setReg_keepRasAll | split | dsimp only | apply KeepRasAll.upd)

theorem Device.err_keepRasAll {d : Device} {e : Device} (x1 : Nat) (x2 : Nat) (x3 : Sys2Proof.Machine.ErrKind) (x4 : Sys2Proof.Source) (h : KeepRasAll d e) :
    KeepRasAll d (Device.err e x1 x2 x3 x4) := by
  unfold Device.err
  repeat' with_reducible (first | assumption | (extract_lets +onlyGivenNames zz; first | (refine (fun (hz : KeepRasAll d zz) => ?_) ?_; clear_value zz; rotate_left; subst zz) | clear_value zz | skip) | apply Device.errWord_keepRasAll | split | dsimp only | apply KeepRasAll.upd)

theorem Device.loseMirrors_keepRasAll {d : Device} {e : Device} (x1 : Sys2Proof.Machine.Frame) (x2 : Sys2Proof.Machine.DropInfo) (x3 : List Nat) (h : KeepRasAll d e) :
    KeepRasAll d (Device.loseMirrors e x1 x2 x3) := by
  unfold Device.loseMirrors
  repeat' with_reducible (first | assumption | apply Device.loseOne_keepRasAll | split | (apply KeepRasAll.foldl; intro _ _ _) | dsimp only | apply KeepRasAll.upd)

theorem Device.setFlight_keepRasAll {d : Device} {e : Device} (x1 : Sys2Proof.Machine.Flight) (h : KeepRasAll d e) :
    KeepRasAll d (Device.setFlight e x1) := by
  unfold Device.setFlight
  repeat' with_reducible (first | assumption | (extract_lets +onlyGivenNames zz; first | clear_value zz | skip) | split | dsimp only | apply KeepRasAll.upd)

theorem Device.failFlight_keepRasAll {d : Device} {e : Device} (x1 : Nat) (x2 : Nat) (h : KeepRasAll d e) :
    KeepRasAll d (Device.failFlight e x1 x2) := by
  unfold Device.failFlight
  repeat' with_reducible (first | assumption | (extract_lets +onlyGivenNames zz; first | (refine (fun (hz : KeepRasAll d zz) => ?_) ?_; clear_value zz; rotate_left; subst zz) | clear_value zz | skip) | apply Device.loseMirrors_keepRasAll | apply Device.dropFlight_keepRasAll | apply Device.setFlight_keepRasAll | split | dsimp only | apply KeepRasAll.upd)

theorem Device.meterCount_keepRasAll {d : Device} {e : Device} (x1 : Nat) (x2 : Sys2Proof.Machine.MeterCharge) (x3 : Nat) (h : KeepRasAll d e) :
    KeepRasAll d (Device.meterCount e x1 x2 x3) := by
  unfold Device.meterCount
  repeat' with_reducible (first | assumption | (extract_lets +onlyGivenNames zz; first | (refine (fun (hz : KeepRasAll d zz) => ?_) ?_; clear_value zz; rotate_left; subst zz) | clear_value zz | skip) | apply Device.countN_keepRasAll | apply Device.count_keepRasAll | split | dsimp only | apply KeepRasAll.upd)

theorem Device.settleMeter_keepRasAll {d : Device} {e : Device} (x1 : Nat) (x2 : Nat) (x3 : Sys2Proof.Machine.MeterCharge) (h : KeepRasAll d e) :
    KeepRasAll d (Device.settleMeter e x1 x2 x3) := by
  unfold Device.settleMeter
  repeat' with_reducible (first | assumption | (extract_lets +onlyGivenNames zz; first | clear_value zz | skip) | apply Device.meterCount_keepRasAll | split | dsimp only | apply KeepRasAll.upd)

theorem Device.settleEnd_keepRasAll {d : Device} {e : Device} (x1 : Nat) (h : KeepRasAll d e) :
    KeepRasAll d (Device.settleEnd e x1) := by
  unfold Device.settleEnd
  repeat' with_reducible (first | assumption | (extract_lets +onlyGivenNames zz; first | (refine (fun (hz : KeepRasAll d zz) => ?_) ?_; clear_value zz; rotate_left; subst zz) | clear_value zz | skip) | apply Device.settleMeter_keepRasAll | apply Device.countN_keepRasAll | apply Device.modFrame_keepRasAll | apply Device.flowEnd_keepRasAll | split | (apply KeepRasAll.foldl; intro _ _ _) | dsimp only | apply KeepRasAll.upd)

theorem Device.loseEgMirrors_keepRasAll {d : Device} {e : Device} (x1 : Sys2Proof.Machine.Frame) (x2 : Sys2Proof.Machine.Copy) (x3 : Nat) (x4 : Nat) (h : KeepRasAll d e) :
    KeepRasAll d (Device.loseEgMirrors e x1 x2 x3 x4) := by
  unfold Device.loseEgMirrors
  repeat' with_reducible (first | assumption | apply Device.loseMirrors_keepRasAll | dsimp only | apply KeepRasAll.upd)

theorem Device.failFrame_keepRasAll {d : Device} {e : Device} (x1 : Nat) (x2 : Nat) (h : KeepRasAll d e) :
    KeepRasAll d (Device.failFrame e x1 x2) := by
  unfold Device.failFrame
  repeat' with_reducible (first | assumption | (extract_lets +onlyGivenNames zz; first | (refine (fun (hz : KeepRasAll d zz) => ?_) ?_; clear_value zz; rotate_left; subst zz) | clear_value zz | skip) | apply Device.endReceiving_keepRasAll | apply Device.setFrame_keepRasAll | apply Device.settleEnd_keepRasAll | apply Device.countEnq_keepRasAll | apply Device.loseOne_keepRasAll | apply Device.dropTrap_keepRasAll | apply Device.failFlight_keepRasAll | apply Device.dropCopies_keepRasAll | apply Device.loseEgMirrors_keepRasAll | apply Device.releaseFrame_keepRasAll | split | (apply KeepRasAll.foldl; intro _ _ _) | dsimp only | apply KeepRasAll.upd)

theorem Device.setFld_keepRasAll {d : Device} {e : Device} (x1 : Nat) (x2 : Sys2Proof.Machine.Fld) (x3 : Nat) (h : KeepRasAll d e) :
    KeepRasAll d (Device.setFld e x1 x2 x3) := by
  unfold Device.setFld
  repeat' with_reducible (first | assumption | apply Device.setReg_keepRasAll | dsimp only | apply KeepRasAll.upd)

theorem Device.setRate_keepRasAll {d : Device} {e : Device} (x1 : Nat) (x2 : Nat) (h : KeepRasAll d e) :
    KeepRasAll d (Device.setRate e x1 x2) := by
  unfold Device.setRate
  repeat' with_reducible (first | assumption | apply Device.setFld_keepRasAll | split | (apply KeepRasAll.foldl; intro _ _ _) | dsimp only | apply KeepRasAll.upd)

theorem Device.fixRate_keepRasAll {d : Device} {e : Device} (x1 : Nat) (h : KeepRasAll d e) :
    KeepRasAll d (Device.fixRate e x1) := by
  unfold Device.fixRate
  repeat' with_reducible (first | assumption | apply Device.setRate_keepRasAll | split | dsimp only | apply KeepRasAll.upd)

theorem Device.flushPort_keepRasAll {d : Device} {e : Device} (x1 : Nat) (h : KeepRasAll d e) :
    KeepRasAll d (Device.flushPort e x1) := by
  unfold Device.flushPort
  repeat' with_reducible (first | assumption | (extract_lets +onlyGivenNames zz; first | (refine (fun (hz : KeepRasAll d zz) => ?_) ?_; clear_value zz; rotate_left; subst zz) | skip) | apply Device.queueCount_keepRasAll | apply Device.portCount_keepRasAll | apply Device.dropCopy_keepRasAll | (apply KeepRasAll.foldl; intro _ _ _) | dsimp only | apply KeepRasAll.upd)

theorem Device.setCause_keepRasAll {d : Device} {e : Device} (x1 : Nat) (x2 : Nat) (h : KeepRasAll d e) :
    KeepRasAll d (Device.setCause e x1 x2) := by
  unfold Device.setCause
  repeat' with_reducible (first | assumption | apply Device.modLane_keepRasAll | dsimp only | apply KeepRasAll.upd)

theorem Device.settlePort_keepRasAll {d : Device} {e : Device} (x1 : Nat) (h : KeepRasAll d e) :
    KeepRasAll d (Device.settlePort e x1) := by
  unfold Device.settlePort
  repeat' with_reducible (first | assumption | (extract_lets +onlyGivenNames zz; first | (refine (fun (hz : KeepRasAll d zz) => ?_) ?_; clear_value zz; rotate_left; subst zz) | skip) | apply Device.settleFault_keepRasAll | apply Device.modPort_keepRasAll | split | dsimp only | apply KeepRasAll.upd)

theorem Device.goDormant_keepRasAll {d : Device} {e : Device} (x1 : Nat) (h : KeepRasAll d e) :
    KeepRasAll d (Device.goDormant e x1) := by
  unfold Device.goDormant
  repeat' with_reducible (first | assumption | (extract_lets +onlyGivenNames zz; first | (refine (fun (hz : KeepRasAll d zz) => ?_) ?_; clear_value zz; rotate_left; subst zz) | clear_value zz | skip) | apply Device.setCause_keepRasAll | apply Device.laneTo_keepRasAll | apply Device.settlePort_keepRasAll | apply Device.modBring_keepRasAll | split | (apply KeepRasAll.foldl; intro _ _ _) | dsimp only | apply KeepRasAll.upd)

theorem Device.portDisable_keepRasAll {d : Device} {e : Device} (x1 : Nat) (h : KeepRasAll d e) :
    KeepRasAll d (Device.portDisable e x1) := by
  unfold Device.portDisable
  repeat' with_reducible (first | assumption | (extract_lets +onlyGivenNames zz; first | (refine (fun (hz : KeepRasAll d zz) => ?_) ?_; clear_value zz; rotate_left; subst zz) | clear_value zz | skip) | apply Device.setReg_keepRasAll | apply Device.setCause_keepRasAll | apply Device.laneTo_keepRasAll | apply Device.settlePort_keepRasAll | apply Device.modBring_keepRasAll | split | (apply KeepRasAll.foldl; intro _ _ _) | dsimp only | apply KeepRasAll.upd)

theorem Device.showPort_keepRasAll {d : Device} {e : Device} (x1 : Nat) (h : KeepRasAll d e) :
    KeepRasAll d (Device.showPort e x1) := by
  unfold Device.showPort
  repeat' with_reducible (first | assumption | (extract_lets +onlyGivenNames zz; first | clear_value zz | skip) | apply Device.autoMembers_keepRasAll | apply Device.modPort_keepRasAll | split | dsimp only | apply KeepRasAll.upd)

theorem Device.portDown_keepRasAll {d : Device} {e : Device} (x1 : Nat) (h : KeepRasAll d e) :
    KeepRasAll d (Device.portDown e x1) := by
  unfold Device.portDown
  repeat' with_reducible (first | assumption | (extract_lets +onlyGivenNames zz; first | (refine (fun (hz : KeepRasAll d zz) => ?_) ?_; clear_value zz; rotate_left; subst zz) | skip) | apply Device.modPort_keepRasAll | apply Device.flushPort_keepRasAll | apply Device.portCount_keepRasAll | apply Device.failFrame_keepRasAll | apply Device.modBring_keepRasAll | apply Device.showPort_keepRasAll | split | dsimp only | apply KeepRasAll.upd)

theorem Device.refuse_keepRasAll {d : Device} {e : Device} (x1 : Sys2Proof.Source) (x2 : Nat) (h : KeepRasAll d e) :
    KeepRasAll d (Device.refuse e x1 x2) := by
  unfold Device.refuse
  repeat' with_reducible (first | assumption | apply Device.err_keepRasAll | dsimp only | apply KeepRasAll.upd)

theorem Device.tryStart_keepRasAll {d : Device} {e : Device} (x1 : Nat) (h : KeepRasAll d e) :
    KeepRasAll d (Device.tryStart e x1) := by
  unfold Device.tryStart
  repeat' with_reducible (first | assumption | (extract_lets +onlyGivenNames zz; first | (refine (fun (hz : KeepRasAll d zz) => ?_) ?_; clear_value zz; rotate_left; subst zz) | clear_value zz | skip) | apply Device.portTo_keepRasAll | apply Device.fixRate_keepRasAll | apply Device.modPort_keepRasAll | apply Device.beginTrain_keepRasAll | apply Device.beginAlign_keepRasAll | split | dsimp only | apply KeepRasAll.upd)

theorem Device.restart_keepRasAll {d : Device} {e : Device} (x1 : Nat) (h : KeepRasAll d e) :
    KeepRasAll d (Device.restart e x1) := by
  unfold Device.restart
  repeat' with_reducible (first | assumption | (extract_lets +onlyGivenNames zz; first | (refine (fun (hz : KeepRasAll d zz) => ?_) ?_; clear_value zz; rotate_left; subst zz) | clear_value zz | skip) | apply Device.laneTo_keepRasAll | apply Device.settleFault_keepRasAll | apply Device.tryStart_keepRasAll | apply Device.fixRate_keepRasAll | apply Device.modBring_keepRasAll | split | (apply KeepRasAll.foldl; intro _ _ _) | dsimp only | apply KeepRasAll.upd)

theorem ptCfgWrite_keepRasAll {d : Device} {e : Device} (x1 : Sys2Proof.Source) (x2 : Nat) (x3 : Sys2Proof.Word) (h : KeepRasAll d e) :
    KeepRasAll d (ptCfgWrite e x1 x2 x3) := by
  unfold ptCfgWrite
  repeat' with_reducible (first | assumption | (extract_lets +onlyGivenNames zz; first | (refine (fun (hz : KeepRasAll d zz) => ?_) ?_; clear_value zz; rotate_left; subst zz) | clear_value zz | skip) | apply Device.setReg_keepRasAll | apply Device.modPort_keepRasAll | apply Device.restart_keepRasAll | apply Device.modBring_keepRasAll | apply Device.goDormant_keepRasAll | apply Device.refuse_keepRasAll | apply Device.portDisable_keepRasAll | split | dsimp only | apply KeepRasAll.upd)

structure KeepPorts2 (d e : Device) : Prop where
  ports : e.ports = d.ports

theorem KeepPorts2.refl (d : Device) : KeepPorts2 d d := ⟨rfl⟩
theorem KeepPorts2.trans {a b c : Device} (h : KeepPorts2 a b) (k : KeepPorts2 b c) : KeepPorts2 a c := ⟨k.1.trans h.1⟩
theorem KeepPorts2.foldl {α : Type} {f : Device → α → Device} {d : Device} (l : List α) {e : Device}
    (h : ∀ e x, KeepPorts2 d e → KeepPorts2 d (f e x)) (h0 : KeepPorts2 d e) : KeepPorts2 d (l.foldl f e) := by
  induction l generalizing e with
  | nil => exact h0
  | cons x t ih => exact ih (h e x h0)
theorem KeepPorts2.ite {d a b : Device} {c : Prop} [Decidable c] (ha : KeepPorts2 d a) (hb : KeepPorts2 d b) : KeepPorts2 d (if c then a else b) := by
  by_cases h : c
  · rwa [if_pos h]
  · rwa [if_neg h]
theorem KeepPorts2.snd {α : Type} {p : α × Device} {a : α} {d e : Device} (h : p = (a, e)) (k : KeepPorts2 d p.2) : KeepPorts2 d e := by rw [h] at k; exact k
theorem KeepPorts2.snd2 {α β : Type} {p : α × β × Device} {a : α} {b : β} {d e : Device} (h : p = (a, b, e)) (k : KeepPorts2 d p.2.2) : KeepPorts2 d e := by rw [h] at k; exact k
theorem KeepPorts2.fst {α : Type} {p : Device × α} {a : α} {d e : Device} (h : p = (e, a)) (k : KeepPorts2 d p.1) : KeepPorts2 d e := by rw [h] at k; exact k
theorem KeepPorts2.pair {α : Type} {a : α} {d e : Device} (k : KeepPorts2 d e) : KeepPorts2 d (a, e).2 := k
theorem KeepPorts2.pair1 {α : Type} {a : α} {d e : Device} (k : KeepPorts2 d e) : KeepPorts2 d (e, a).1 := k
def KeepPorts2O (d : Device) (o : Option Device) : Prop := ∀ e, o = some e → KeepPorts2 d e
theorem KeepPorts2O.ofNone {d : Device} : KeepPorts2O d none := fun _ h => nomatch h
theorem KeepPorts2O.ofSome {d e : Device} (h : KeepPorts2 d e) : KeepPorts2O d (some e) := fun _ k => by cases k; exact h
theorem KeepPorts2O.get {d e : Device} {o : Option Device} (h : o = some e) (k : KeepPorts2O d o) : KeepPorts2 d e := k e h
theorem KeepPorts2.fstR {α : Type} {p : StageRun × α} {a : α} {d : Device} {e : StageRun} (h : p = (e, a)) (k : KeepPorts2 d p.1.d) : KeepPorts2 d e.d := by rw [h] at k; exact k
def KeepPorts2P {α : Type} (d : Device) (f : α → Device) (o : Option α) : Prop := ∀ a, o = some a → KeepPorts2 d (f a)
theorem KeepPorts2P.ofNone {α : Type} {f : α → Device} {d : Device} : KeepPorts2P d f none := fun _ h => nomatch h
theorem KeepPorts2P.ofSome {α : Type} {f : α → Device} {d : Device} {a : α} (h : KeepPorts2 d (f a)) : KeepPorts2P d f (some a) := fun _ k => by cases k; exact h
theorem KeepPorts2P.get2 {α : Type} {o : Option (α × Device)} {a : α} {d e : Device} (h : o = some (a, e)) (k : KeepPorts2P d (·.2) o) : KeepPorts2 d e := k _ h
theorem KeepPorts2P.get1 {α : Type} {o : Option (Device × α)} {a : α} {d e : Device} (h : o = some (e, a)) (k : KeepPorts2P d (·.1) o) : KeepPorts2 d e := k _ h
theorem KeepPorts2.upd {d e : Device} {xdev : DevCtl} {xstroke : StrokeCtl} {xfile : RegFile} {xgen : GenUnit} {xsnap : SnapUnit} {xbudget : BudgetUnit} {xprofile : ProfileUnit} {xlane : LaneUnit} {xfft : FftUnit} {xpkt : PacketUnit} {xhall : HallUnit} {xtable : TableUnit} {xbillet : BilletUnit} {xsched : SchedUnit} {xdrops : DropUnit} {xclock : ClockUnit} {xservo : ServoUnit} {xpulse : PulseUnit} {xledger : LedgerUnit} {xtsu : Tab TsuSt} {xdamper : DamperUnit} {xtelem : TelemUnit} {xinteg : IntegUnit} {xhost : HostUnit} {xperf : PerfUnit} {xanvil : AnvilUnit} {xras : RasUnit} {xseq : SeqUnit} {xboot : BootUnit} {xmgmt : MgmtUnit} {xsent : List Output} {xfreeCtr : Nat} (h : KeepPorts2 d e) :
    KeepPorts2 d (Device.mk xdev xstroke xfile xgen xsnap xbudget xprofile xlane e.ports xfft xpkt xhall xtable xbillet xsched xdrops xclock xservo xpulse xledger xtsu xdamper xtelem xinteg xhost xperf xanvil xras xseq xboot xmgmt xsent xfreeCtr) := ⟨h.1⟩

theorem Device.setReg_keepPorts2 {d : Device} {e : Device} (x1 : Nat) (x2 : Sys2Proof.Word) (h : KeepPorts2 d e) :
    KeepPorts2 d (Device.setReg e x1 x2) := by
  unfold Device.setReg
  repeat' with_reducible (first | assumption | (extract_lets +onlyGivenNames zz; first | clear_value zz | skip) | dsimp only | apply KeepPorts2.upd)

theorem Device.markSet_keepPorts2 {d : Device} {e : Device} (x1 : Nat) (x2 : Nat) (h : KeepPorts2 d e) :
    KeepPorts2 d (Device.markSet e x1 x2) := by
  unfold Device.markSet
  repeat' with_reducible (first | assumption | (extract_lets +onlyGivenNames zz; first | clear_value zz | skip) | dsimp only | apply KeepPorts2.upd)

theorem Device.setW1c_keepPorts2 {d : Device} {e : Device} (x1 : Nat) (x2 : Nat) (h : KeepPorts2 d e) :
    KeepPorts2 d (Device.setW1c e x1 x2) := by
  unfold Device.setW1c
  repeat' with_reducible (first | assumption | apply Device.setReg_keepPorts2 | apply Device.markSet_keepPorts2 | dsimp only | apply KeepPorts2.upd)

theorem Device.raise_keepPorts2 {d : Device} {e : Device} (x1 : Nat) (x2 : Nat) (h : KeepPorts2 d e) :
    KeepPorts2 d (Device.raise e x1 x2) := by
  unfold Device.raise
  repeat' with_reducible (first | assumption | (extract_lets +onlyGivenNames zz; first | (refine (fun (hz : KeepPorts2 d zz) => ?_) ?_; clear_value zz; rotate_left; subst zz) | clear_value zz | skip) | apply Device.setW1c_keepPorts2 | split | dsimp only | apply KeepPorts2.upd)

theorem Device.laneEvent_keepPorts2 {d : Device} {e : Device} (x1 : Nat) (x2 : Bool) (h : KeepPorts2 d e) :
    KeepPorts2 d (Device.laneEvent e x1 x2) := by
  unfold Device.laneEvent
  repeat' with_reducible (first | assumption | (extract_lets +onlyGivenNames zz; first | clear_value zz | skip) | apply Device.raise_keepPorts2 | apply Device.setW1c_keepPorts2 | split | dsimp only | apply KeepPorts2.upd)

theorem Device.setLane_keepPorts2 {d : Device} {e : Device} (x1 : Nat) (x2 : Sys2Proof.Machine.LaneSt) (h : KeepPorts2 d e) :
    KeepPorts2 d (Device.setLane e x1 x2) := by
  unfold Device.setLane
  repeat' with_reducible (first | assumption | (extract_lets +onlyGivenNames zz; first | clear_value zz | skip) | split | dsimp only | apply KeepPorts2.upd)

theorem Device.laneTo_keepPorts2 {d : Device} {e : Device} (x1 : Nat) (x2 : Sys2Proof.Machine.LaneState) (h : KeepPorts2 d e) :
    KeepPorts2 d (Device.laneTo e x1 x2) := by
  unfold Device.laneTo
  repeat' with_reducible (first | assumption | (extract_lets +onlyGivenNames zz; first | (refine (fun (hz : KeepPorts2 d zz) => ?_) ?_; clear_value zz; rotate_left; subst zz) | clear_value zz | skip) | apply Device.setReg_keepPorts2 | apply Device.setLane_keepPorts2 | apply Device.laneEvent_keepPorts2 | split | dsimp only | apply KeepPorts2.upd)

structure KeepPorts (d e : Device) : Prop where
  ports : e.ports = d.ports

theorem KeepPorts.refl (d : Device) : KeepPorts d d := ⟨rfl⟩
theorem KeepPorts.trans {a b c : Device} (h : KeepPorts a b) (k : KeepPorts b c) : KeepPorts a c := ⟨k.1.trans h.1⟩
theorem KeepPorts.foldl {α : Type} {f : Device → α → Device} {d : Device} (l : List α) {e : Device}
    (h : ∀ e x, KeepPorts d e → KeepPorts d (f e x)) (h0 : KeepPorts d e) : KeepPorts d (l.foldl f e) := by
  induction l generalizing e with
  | nil => exact h0
  | cons x t ih => exact ih (h e x h0)
theorem KeepPorts.ite {d a b : Device} {c : Prop} [Decidable c] (ha : KeepPorts d a) (hb : KeepPorts d b) : KeepPorts d (if c then a else b) := by
  by_cases h : c
  · rwa [if_pos h]
  · rwa [if_neg h]
theorem KeepPorts.snd {α : Type} {p : α × Device} {a : α} {d e : Device} (h : p = (a, e)) (k : KeepPorts d p.2) : KeepPorts d e := by rw [h] at k; exact k
theorem KeepPorts.snd2 {α β : Type} {p : α × β × Device} {a : α} {b : β} {d e : Device} (h : p = (a, b, e)) (k : KeepPorts d p.2.2) : KeepPorts d e := by rw [h] at k; exact k
theorem KeepPorts.fst {α : Type} {p : Device × α} {a : α} {d e : Device} (h : p = (e, a)) (k : KeepPorts d p.1) : KeepPorts d e := by rw [h] at k; exact k
theorem KeepPorts.pair {α : Type} {a : α} {d e : Device} (k : KeepPorts d e) : KeepPorts d (a, e).2 := k
theorem KeepPorts.pair1 {α : Type} {a : α} {d e : Device} (k : KeepPorts d e) : KeepPorts d (e, a).1 := k
def KeepPortsO (d : Device) (o : Option Device) : Prop := ∀ e, o = some e → KeepPorts d e
theorem KeepPortsO.ofNone {d : Device} : KeepPortsO d none := fun _ h => nomatch h
theorem KeepPortsO.ofSome {d e : Device} (h : KeepPorts d e) : KeepPortsO d (some e) := fun _ k => by cases k; exact h
theorem KeepPortsO.get {d e : Device} {o : Option Device} (h : o = some e) (k : KeepPortsO d o) : KeepPorts d e := k e h
theorem KeepPorts.fstR {α : Type} {p : StageRun × α} {a : α} {d : Device} {e : StageRun} (h : p = (e, a)) (k : KeepPorts d p.1.d) : KeepPorts d e.d := by rw [h] at k; exact k
def KeepPortsP {α : Type} (d : Device) (f : α → Device) (o : Option α) : Prop := ∀ a, o = some a → KeepPorts d (f a)
theorem KeepPortsP.ofNone {α : Type} {f : α → Device} {d : Device} : KeepPortsP d f none := fun _ h => nomatch h
theorem KeepPortsP.ofSome {α : Type} {f : α → Device} {d : Device} {a : α} (h : KeepPorts d (f a)) : KeepPortsP d f (some a) := fun _ k => by cases k; exact h
theorem KeepPortsP.get2 {α : Type} {o : Option (α × Device)} {a : α} {d e : Device} (h : o = some (a, e)) (k : KeepPortsP d (·.2) o) : KeepPorts d e := k _ h
theorem KeepPortsP.get1 {α : Type} {o : Option (Device × α)} {a : α} {d e : Device} (h : o = some (e, a)) (k : KeepPortsP d (·.1) o) : KeepPorts d e := k _ h
theorem KeepPorts.upd {d e : Device} {xdev : DevCtl} {xstroke : StrokeCtl} {xfile : RegFile} {xgen : GenUnit} {xsnap : SnapUnit} {xbudget : BudgetUnit} {xprofile : ProfileUnit} {xlane : LaneUnit} {xfft : FftUnit} {xpkt : PacketUnit} {xhall : HallUnit} {xtable : TableUnit} {xbillet : BilletUnit} {xsched : SchedUnit} {xdrops : DropUnit} {xclock : ClockUnit} {xservo : ServoUnit} {xpulse : PulseUnit} {xledger : LedgerUnit} {xtsu : Tab TsuSt} {xdamper : DamperUnit} {xtelem : TelemUnit} {xinteg : IntegUnit} {xhost : HostUnit} {xperf : PerfUnit} {xanvil : AnvilUnit} {xras : RasUnit} {xseq : SeqUnit} {xboot : BootUnit} {xmgmt : MgmtUnit} {xsent : List Output} {xfreeCtr : Nat} (h : KeepPorts d e) :
    KeepPorts d (Device.mk xdev xstroke xfile xgen xsnap xbudget xprofile xlane e.ports xfft xpkt xhall xtable xbillet xsched xdrops xclock xservo xpulse xledger xtsu xdamper xtelem xinteg xhost xperf xanvil xras xseq xboot xmgmt xsent xfreeCtr) := ⟨h.1⟩

theorem Device.setQueueSt_keepPorts {d : Device} {e : Device} (x1 : Nat) (x2 : Sys2Proof.Machine.QueueSt) (h : KeepPorts d e) :
    KeepPorts d (Device.setQueueSt e x1 x2) := by
  unfold Device.setQueueSt
  repeat' with_reducible (first | assumption | (extract_lets +onlyGivenNames zz; first | clear_value zz | skip) | dsimp only | apply KeepPorts.upd)

theorem Device.setClassSt_keepPorts {d : Device} {e : Device} (x1 : Nat) (x2 : Nat) (x3 : Sys2Proof.Machine.ClassSt) (h : KeepPorts d e) :
    KeepPorts d (Device.setClassSt e x1 x2 x3) := by
  unfold Device.setClassSt
  repeat' with_reducible (first | assumption | (extract_lets +onlyGivenNames zz; first | clear_value zz | skip) | dsimp only | apply KeepPorts.upd)

theorem Device.addCharge_keepPorts {d : Device} {e : Device} (x1 : Nat) (x2 : Sys2Proof.Machine.Charge) (x3 : Nat) (h : KeepPorts d e) :
    KeepPorts d (Device.addCharge e x1 x2 x3) := by
  unfold Device.addCharge
  repeat' with_reducible (first | assumption | (extract_lets +onlyGivenNames zz; first | clear_value zz | skip) | apply Device.setQueueSt_keepPorts | apply Device.setClassSt_keepPorts | split | dsimp only | apply KeepPorts.upd)

theorem Device.setDwrr_keepPorts {d : Device} {e : Device} (x1 : Nat) (x2 : Sys2Proof.Machine.DwrrSt) (h : KeepPorts d e) :
    KeepPorts d (Device.setDwrr e x1 x2) := by
  unfold Device.setDwrr
  repeat' with_reducible (first | assumption | (extract_lets +onlyGivenNames zz; first | clear_value zz | skip) | dsimp only | apply KeepPorts.upd)

theorem Device.addDeficit_keepPorts {d : Device} {e : Device} (x1 : Nat) (x2 : Int) (h : KeepPorts d e) :
    KeepPorts d (Device.addDeficit e x1 x2) := by
  unfold Device.addDeficit
  repeat' with_reducible (first | assumption | (extract_lets +onlyGivenNames zz; first | clear_value zz | skip) | apply Device.setDwrr_keepPorts | split | dsimp only | apply KeepPorts.upd)

theorem Device.countN_keepPorts {d : Device} {e : Device} (x1 : Nat) (x2 : Nat) (h : KeepPorts d e) :
    KeepPorts d (Device.countN e x1 x2) := by
  unfold Device.countN
  repeat' with_reducible (first | assumption | (extract_lets +onlyGivenNames zz; first | clear_value zz | skip) | dsimp only | apply KeepPorts.upd)

theorem Device.count_keepPorts {d : Device} {e : Device} (x1 : Nat) (h : KeepPorts d e) :
    KeepPorts d (Device.count e x1) := by
  unfold Device.count
  repeat' with_reducible (first | assumption | apply Device.countN_keepPorts | dsimp only | apply KeepPorts.upd)

theorem Device.portCount_keepPorts {d : Device} {e : Device} (x1 : Nat) (x2 : Nat) (x3 : Nat) (h : KeepPorts d e) :
    KeepPorts d (Device.portCount e x1 x2 x3) := by
  unfold Device.portCount
  repeat' with_reducible (first | assumption | apply Device.countN_keepPorts | split | dsimp only | apply KeepPorts.upd)

theorem Device.queueCount_keepPorts {d : Device} {e : Device} (x1 : Nat) (x2 : Nat) (x3 : Nat) (h : KeepPorts d e) :
    KeepPorts d (Device.queueCount e x1 x2 x3) := by
  unfold Device.queueCount
  repeat' with_reducible (first | assumption | apply Device.countN_keepPorts | split | dsimp only | apply KeepPorts.upd)

theorem Device.noteAdded_keepPorts {d : Device} {e : Device} (x1 : Nat) (x2 : Nat) (x3 : Option Sys2Proof.Machine.EvPkt) (h : KeepPorts d e) :
    KeepPorts d (Device.noteAdded e x1 x2 x3) := by
  unfold Device.noteAdded
  repeat' with_reducible (first | assumption | (extract_lets +onlyGivenNames zz; first | clear_value zz | skip) | dsimp only | apply KeepPorts.upd)

theorem Device.setReg_keepPorts {d : Device} {e : Device} (x1 : Nat) (x2 : Sys2Proof.Word) (h : KeepPorts d e) :
    KeepPorts d (Device.setReg e x1 x2) := by
  unfold Device.setReg
  repeat' with_reducible (first | assumption | (extract_lets +onlyGivenNames zz; first | clear_value zz | skip) | dsimp only | apply KeepPorts.upd)

theorem Device.markSet_keepPorts {d : Device} {e : Device} (x1 : Nat) (x2 : Nat) (h : KeepPorts d e) :
    KeepPorts d (Device.markSet e x1 x2) := by
  unfold Device.markSet
  repeat' with_reducible (first | assumption | (extract_lets +onlyGivenNames zz; first | clear_value zz | skip) | dsimp only | apply KeepPorts.upd)

theorem Device.setW1c_keepPorts {d : Device} {e : Device} (x1 : Nat) (x2 : Nat) (h : KeepPorts d e) :
    KeepPorts d (Device.setW1c e x1 x2) := by
  unfold Device.setW1c
  repeat' with_reducible (first | assumption | apply Device.setReg_keepPorts | apply Device.markSet_keepPorts | dsimp only | apply KeepPorts.upd)

theorem Device.noteWrap_keepPorts {d : Device} {e : Device} (x1 : Nat) (x2 : Bool) (x3 : Bool) (x4 : Nat) (h : KeepPorts d e) :
    KeepPorts d (Device.noteWrap e x1 x2 x3 x4) := by
  unfold Device.noteWrap
  repeat' with_reducible (first | assumption | (extract_lets +onlyGivenNames zz; first | clear_value zz | skip) | dsimp only | apply KeepPorts.upd)

theorem Device.raise_keepPorts {d : Device} {e : Device} (x1 : Nat) (x2 : Nat) (h : KeepPorts d e) :
    KeepPorts d (Device.raise e x1 x2) := by
  unfold Device.raise
  repeat' with_reducible (first | assumption | (extract_lets +onlyGivenNames zz; first | (refine (fun (hz : KeepPorts d zz) => ?_) ?_; clear_value zz; rotate_left; subst zz) | clear_value zz | skip) | apply Device.setW1c_keepPorts | split | dsimp only | apply KeepPorts.upd)

theorem Device.pushSample_keepPorts {d : Device} {e : Device} (x1 : Nat) (x2 : Sys2Proof.Machine.Sample) (h : KeepPorts d e) :
    KeepPorts d (Device.pushSample e x1 x2) := by
  unfold Device.pushSample
  repeat' with_reducible (first | assumption | (extract_lets +onlyGivenNames zz; first | (refine (fun (hz : KeepPorts d zz) => ?_) ?_; clear_value zz; rotate_left; subst zz) | clear_value zz | skip) | apply Device.raise_keepPorts | split | dsimp only | apply KeepPorts.upd)

theorem Device.pcAdd_keepPorts {d : Device} {e : Device} (x1 : Option Nat) (x2 : Nat) (x3 : Nat) (x4 : Option Sys2Proof.Machine.EvPkt) (x5 : Nat) (h : KeepPorts d e) :
    KeepPorts d (Device.pcAdd e x1 x2 x3 x4 x5) := by
  unfold Device.pcAdd
  repeat' with_reducible (first | assumption | (extract_lets +onlyGivenNames zz; first | (refine (fun (hz : KeepPorts d zz) => ?_) ?_; clear_value zz; rotate_left; subst zz) | clear_value zz | skip) | apply Device.setW1c_keepPorts | apply Device.noteWrap_keepPorts | apply Device.pushSample_keepPorts | split | dsimp only | apply KeepPorts.upd)

theorem Device.event_keepPorts {d : Device} {e : Device} (x1 : Option Nat) (x2 : Nat) (x3 : Nat) (x4 : Option Nat) (x5 : Sys2Proof.Machine.EvPkt) (h : KeepPorts d e) :
    KeepPorts d (Device.event e x1 x2 x3 x4 x5) := by
  unfold Device.event
  repeat' with_reducible (first | assumption | (extract_lets +onlyGivenNames zz; first | clear_value zz | skip) | apply Device.noteAdded_keepPorts | apply Device.pcAdd_keepPorts | split | (apply KeepPorts.foldl; intro _ _ _) | dsimp only | apply KeepPorts.upd)

theorem Device.dropCount_keepPorts {d : Device} {e : Device} (x1 : Sys2Proof.Machine.DropInfo) (h : KeepPorts d e) :
    KeepPorts d (Device.dropCount e x1) := by
  unfold Device.dropCount
  repeat' with_reducible (first | assumption | apply Device.count_keepPorts | apply Device.event_keepPorts | split | dsimp only | apply KeepPorts.upd)

theorem Device.aggregate_keepPorts {d : Device} {e : Device} (x1 : Nat) (x2 : Nat) (h : KeepPorts d e) :
    KeepPorts d (Device.aggregate e x1 x2) := by
  unfold Device.aggregate
  repeat' with_reducible (first | assumption | (extract_lets +onlyGivenNames zz; first | (refine (fun (hz : KeepPorts d zz) => ?_) ?_; clear_value zz; rotate_left; subst zz) | clear_value zz | skip) | apply Device.markSet_keepPorts | apply Device.count_keepPorts | apply Device.setReg_keepPorts | apply Device.raise_keepPorts | split | dsimp only | apply KeepPorts.upd)

theorem Device.pushRecord_keepPorts {d : Device} {e : Device} (x1 : Sys2Proof.Machine.DropInfo) (h : KeepPorts d e) :
    KeepPorts d (Device.pushRecord e x1) := by
  unfold Device.pushRecord
  repeat' with_reducible (first | assumption | (extract_lets +onlyGivenNames zz; first | clear_value zz | skip) | apply Device.raise_keepPorts | apply Device.count_keepPorts | apply Device.aggregate_keepPorts | split | dsimp only | apply KeepPorts.upd)

theorem Device.recordDrop_keepPorts {d : Device} {e : Device} (x1 : Sys2Proof.Machine.DropInfo) (h : KeepPorts d e) :
    KeepPorts d (Device.recordDrop e x1) := by
  unfold Device.recordDrop
  repeat' with_reducible (first | assumption | (extract_lets +onlyGivenNames zz; first | clear_value zz | skip) | apply Device.pushRecord_keepPorts | apply Device.aggregate_keepPorts | split | dsimp only | apply KeepPorts.upd)

theorem Device.drop_keepPorts {d : Device} {e : Device} (x1 : Sys2Proof.Machine.DropInfo) (h : KeepPorts d e) :
    KeepPorts d (Device.drop e x1) := by
  unfold Device.drop
  repeat' with_reducible (first | assumption | apply Device.recordDrop_keepPorts | apply Device.dropCount_keepPorts | split | dsimp only | apply KeepPorts.upd)

theorem Device.loseOne_keepPorts {d : Device} {e : Device} (x1 : Sys2Proof.Machine.Frame) (x2 : Sys2Proof.Machine.DropInfo) (h : KeepPorts d e) :
    KeepPorts d (Device.loseOne e x1 x2) := by
  unfold Device.loseOne
  repeat' with_reducible (first | assumption | (extract_lets +onlyGivenNames zz; first | (refine (fun (hz : KeepPorts d zz) => ?_) ?_; clear_value zz; rotate_left; subst zz) | skip) | apply Device.count_keepPorts | apply Device.dropCount_keepPorts | apply Device.drop_keepPorts | split | dsimp only | apply KeepPorts.upd)

theorem Device.refuseAdmission_keepPorts {d : Device} {e : Device} (x1 : Sys2Proof.Machine.Frame) (x2 : Sys2Proof.Machine.AdmitReq) (x3 : Nat) (h : KeepPorts d e) :
    KeepPorts d (Device.refuseAdmission e x1 x2 x3) := by
  unfold Device.refuseAdmission
  repeat' with_reducible (first | assumption | (extract_lets +onlyGivenNames zz; first | (refine (fun (hz : KeepPorts d zz) => ?_) ?_; clear_value zz; rotate_left; subst zz) | skip) | apply Device.count_keepPorts | apply Device.portCount_keepPorts | apply Device.queueCount_keepPorts | apply Device.loseOne_keepPorts | split | dsimp only | apply KeepPorts.upd)

theorem Device.free_keepPorts {d : Device} {e : Device} (x1 : Nat) (h : KeepPorts d e) :
    KeepPorts d (Device.free e x1).2 := by
  unfold Device.free
  repeat' with_reducible (first | assumption | dsimp only | apply KeepPorts.upd)

theorem Device.setFrame_keepPorts {d : Device} {e : Device} (x1 : Sys2Proof.Machine.Frame) (h : KeepPorts d e) :
    KeepPorts d (Device.setFrame e x1) := by
  unfold Device.setFrame
  repeat' with_reducible (first | assumption | (extract_lets +onlyGivenNames zz; first | clear_value zz | skip) | dsimp only | apply KeepPorts.upd)

theorem Device.modFrame_keepPorts {d : Device} {e : Device} (x1 : Nat) (x2 : Sys2Proof.Machine.Frame → Sys2Proof.Machine.Frame) (h : KeepPorts d e) :
    KeepPorts d (Device.modFrame e x1 x2) := by
  unfold Device.modFrame
  repeat' with_reducible (first | assumption | apply Device.setFrame_keepPorts | split | dsimp only | apply KeepPorts.upd)

theorem Device.allocCells_keepPorts {d : Device} {e : Device} (x1 : Nat) (x2 : Nat) (x3 : Nat) (h : KeepPorts d e) :
    KeepPorts d (Device.allocCells e x1 x2 x3) := by
  induction x3 generalizing e x1 x2 with
  | zero =>
    unfold Device.allocCells
    repeat' with_reducible (first | assumption | (extract_lets +onlyGivenNames zz; first | (refine (fun (hz : KeepPorts d zz) => ?_) ?_; clear_value zz; rotate_left; subst zz) | clear_value zz | skip) | apply Device.modFrame_keepPorts | split | dsimp only | apply KeepPorts.upd)
  | succ n ih =>
    unfold Device.allocCells
    repeat' with_reducible (first | assumption | apply ih | (extract_lets +onlyGivenNames zz; first | (refine (fun (hz : KeepPorts d zz) => ?_) ?_; clear_value zz; rotate_left; subst zz) | clear_value zz | skip) | apply Device.modFrame_keepPorts | split | dsimp only | apply KeepPorts.upd)

theorem Device.spend_keepPorts {d : Device} {e : Device} (x1 : Nat) (x2 : Nat) (x3 : Nat) (x4 : Nat) (h : KeepPorts d e) :
    KeepPorts d (Device.spend e x1 x2 x3 x4) := by
  unfold Device.spend
  repeat' with_reducible (first | assumption | (extract_lets +onlyGivenNames zz; first | clear_value zz | skip) | dsimp only | apply KeepPorts.upd)

theorem Device.modCopy_keepPorts {d : Device} {e : Device} (x1 : Nat) (x2 : Sys2Proof.Machine.Copy → Sys2Proof.Machine.Copy) (h : KeepPorts d e) :
    KeepPorts d (Device.modCopy e x1 x2) := by
  unfold Device.modCopy
  repeat' with_reducible (first | assumption | (extract_lets +onlyGivenNames zz; first | clear_value zz | skip) | split | dsimp only | apply KeepPorts.upd)

theorem Device.chargeMore_keepPorts {d : Device} {e : Device} (x1 : Sys2Proof.Machine.Copy) (x2 : Nat) (h : KeepPorts d e) :
    KeepPorts d (Device.chargeMore e x1 x2) := by
  unfold Device.chargeMore
  repeat' with_reducible (first | assumption | (extract_lets +onlyGivenNames zz; first | (refine (fun (hz : KeepPorts d zz) => ?_) ?_; clear_value zz; rotate_left; subst zz) | clear_value zz | skip) | apply Device.addCharge_keepPorts | apply Device.modCopy_keepPorts | apply Device.modFrame_keepPorts | split | dsimp only | apply KeepPorts.upd)

theorem Device.growFrame_keepPorts {d : Device} {e : Device} (x1 : Nat) (h : KeepPorts d e) :
    KeepPorts d (Device.growFrame e x1) := by
  unfold Device.growFrame
  repeat' with_reducible (first | assumption | (extract_lets +onlyGivenNames zz; first | (refine (fun (hz : KeepPorts d zz) => ?_) ?_; clear_value zz; rotate_left; subst zz) | clear_value zz | skip) | apply Device.allocCells_keepPorts | apply Device.event_keepPorts | apply Device.spend_keepPorts | apply Device.chargeMore_keepPorts | split | (apply KeepPorts.foldl; intro _ _ _) | dsimp only | apply KeepPorts.upd)

theorem Device.admitCopy_keepPorts {d : Device} {e : Device} (x1 : Sys2Proof.Machine.AdmitReq) (x2 : Bool) (x3 : Nat) (h : KeepPorts d e) :
    KeepPorts d (Device.admitCopy e x1 x2 x3).1 := by
  unfold Device.admitCopy
  repeat' with_reducible (first | assumption | (extract_lets +onlyGivenNames zz; first | (refine (fun (hz : KeepPorts d zz) => ?_) ?_; clear_value zz; rotate_left; subst zz) | clear_value zz | skip) | apply Device.refuseAdmission_keepPorts | apply Device.setQueueSt_keepPorts | apply Device.free_keepPorts | apply Device.count_keepPorts | apply Device.modFrame_keepPorts | apply Device.queueCount_keepPorts | apply Device.event_keepPorts | apply Device.growFrame_keepPorts | split | (apply KeepPorts.snd2 (by assumption)) | (apply KeepPorts.snd (by assumption)) | (apply KeepPorts.fst (by assumption)) | dsimp only | apply KeepPorts.upd)

theorem Device.autoMembers_keepPorts {d : Device} {e : Device} (x1 : Nat) (x2 : Bool) (h : KeepPorts d e) :
    KeepPorts d (Device.autoMembers e x1 x2) := by
  unfold Device.autoMembers
  repeat' with_reducible (first | assumption | (extract_lets +onlyGivenNames zz; first | clear_value zz | skip) | split | (apply KeepPorts.foldl; intro _ _ _) | dsimp only | apply KeepPorts.upd)

theorem Device.overflowUpd_keepPorts {d : Device} {e : Device} (x1 : Nat) (x2 : Sys2Proof.Machine.FlowUpd) (h : KeepPorts d e) :
    KeepPorts d (Device.overflowUpd e x1 x2) := by
  unfold Device.overflowUpd
  repeat' with_reducible (first | assumption | (extract_lets +onlyGivenNames zz; first | clear_value zz | skip) | dsimp only | apply KeepPorts.upd)

theorem Device.bucketUpd_keepPorts {d : Device} {e : Device} (x1 : Nat) (x2 : Sys2Proof.Machine.FlowUpd) (h : KeepPorts d e) :
    KeepPorts d (Device.bucketUpd e x1 x2) := by
  unfold Device.bucketUpd
  try dsimp only
  repeat' with_reducible (first | assumption | apply Device.overflowUpd_keepPorts | apply Device.count_keepPorts | split | dsimp only | apply KeepPorts.upd)

theorem Device.setTokens_keepPorts {d : Device} {e : Device} (x1 : Nat) (x2 : Int) (h : KeepPorts d e) :
    KeepPorts d (Device.setTokens e x1 x2) := by
  unfold Device.setTokens
  repeat' with_reducible (first | assumption | (extract_lets +onlyGivenNames zz; first | clear_value zz | skip) | dsimp only | apply KeepPorts.upd)

theorem Device.giveBack_keepPorts {d : Device} {e : Device} (x1 : Sys2Proof.Machine.Copy) (x2 : Int) (h : KeepPorts d e) :
    KeepPorts d (Device.giveBack e x1 x2) := by
  unfold Device.giveBack
  repeat' with_reducible (first | assumption | (extract_lets +onlyGivenNames zz; first | (refine (fun (hz : KeepPorts d zz) => ?_) ?_; clear_value zz; rotate_left; subst zz) | skip) | apply Device.setTokens_keepPorts | apply Device.addDeficit_keepPorts | split | (apply KeepPorts.foldl; intro _ _ _) | dsimp only | apply KeepPorts.upd)

theorem Device.correctTo_keepPorts {d : Device} {e : Device} (x1 : Sys2Proof.Machine.Copy) (x2 : Nat) (h : KeepPorts d e) :
    KeepPorts d (Device.correctTo e x1 x2) := by
  unfold Device.correctTo
  repeat' with_reducible (first | assumption | apply Device.giveBack_keepPorts | split | dsimp only | apply KeepPorts.upd)

theorem Device.countSent_keepPorts {d : Device} {e : Device} (x1 : Nat) (x2 : Nat) (h : KeepPorts d e) :
    KeepPorts d (Device.countSent e x1 x2) := by
  unfold Device.countSent
  repeat' with_reducible (first | assumption | apply Device.queueCount_keepPorts | apply Device.portCount_keepPorts | dsimp only | apply KeepPorts.upd)

theorem Device.countStomped_keepPorts {d : Device} {e : Device} (x1 : Sys2Proof.Machine.Copy) (x2 : Nat) (h : KeepPorts d e) :
    KeepPorts d (Device.countStomped e x1 x2) := by
  unfold Device.countStomped
  repeat' with_reducible (first | assumption | (extract_lets +onlyGivenNames zz; first | (refine (fun (hz : KeepPorts d zz) => ?_) ?_; clear_value zz; rotate_left; subst zz) | skip) | apply Device.event_keepPorts | apply Device.portCount_keepPorts | apply Device.countSent_keepPorts | split | dsimp only | apply KeepPorts.upd)

theorem Device.freeStair_keepPorts {d : Device} {e : Device} (x1 : Sys2Proof.Machine.Flight) (x2 : Nat) (h : KeepPorts d e) :
    KeepPorts d (Device.freeStair e x1 x2) := by
  unfold Device.freeStair
  repeat' with_reducible (first | assumption | (extract_lets +onlyGivenNames zz; first | clear_value zz | skip) | split | dsimp only | apply KeepPorts.upd)

theorem Device.flowOfFlight_keepPorts {d : Device} {e : Device} (x1 : Sys2Proof.Machine.Flight) (h : KeepPorts d e) :
    KeepPorts d (Device.flowOfFlight e x1) := by
  unfold Device.flowOfFlight
  repeat' with_reducible (first | assumption | (extract_lets +onlyGivenNames zz; first | clear_value zz | skip) | apply Device.modFrame_keepPorts | dsimp only | apply KeepPorts.upd)

theorem Device.endFlight_keepPorts {d : Device} {e : Device} (x1 : Nat) (h : KeepPorts d e) :
    KeepPorts d (Device.endFlight e x1) := by
  unfold Device.endFlight
  repeat' with_reducible (first | assumption | (extract_lets +onlyGivenNames zz; first | clear_value zz | skip) | dsimp only | apply KeepPorts.upd)

theorem Device.formIngress_keepPorts {d : Device} {e : Device} (x1 : Sys2Proof.Machine.Flight) (h : KeepPorts d e) :
    KeepPorts d (Device.formIngress e x1).1 := by
  unfold Device.formIngress
  repeat' with_reducible (first | assumption | (extract_lets +onlyGivenNames zz; first | clear_value zz | skip) | apply Device.setFrame_keepPorts | split | (apply KeepPorts.snd2 (by assumption)) | (apply KeepPorts.snd (by assumption)) | (apply KeepPorts.fst (by assumption)) | dsimp only | apply KeepPorts.upd)

theorem Device.ingressMirrors_keepPorts {d : Device} {e : Device} (x1 : Sys2Proof.Machine.Flight) (x2 : Sys2Proof.Machine.Phv) (x3 : Bool) (x4 : Nat) (h : KeepPorts d e) :
    KeepPorts d (Device.ingressMirrors e x1 x2 x3 x4).1 := by
  unfold Device.ingressMirrors
  have : ∀ (l : List Nat) (b : Device × Bool), KeepPorts d b.1 → KeepPorts d (l.foldl (fun (r : Device × Bool) m =>
    match r.1.mirrorOf m with
    | none => r
    | some (q, trunc) =>
      let (d, a) := r.1.admitCopy
        { frame := x1.id, queue := q, kind := .mirror, colour := x1.acts.colour, phv := x2, pass := x1.pass, trunc := trunc,
          gal := x1.gal } r.2 (if r.2 then x4 else 0)
      match a with
      | .copy _ => (d, false)
      | .refused _ => (d, r.2)) b).1 := by
    intro l
    induction l with
    | nil => exact fun _ h => h
    | cons m t ih =>
      intro b hb
      refine ih _ ?_
      dsimp only
      split
      · exact hb
      have k := fun q t => Device.admitCopy_keepPorts { frame := x1.id, queue := q, kind := .mirror, colour := x1.acts.colour, phv := x2, pass := x1.pass, trunc := t, gal := x1.gal } b.2 (if b.2 then x4 else 0) hb
      split <;> exact k _ _
  exact this _ _ h

theorem Device.mirrorEnded_keepPorts {d : Device} {e : Device} (x1 : Sys2Proof.Machine.Flight) (h : KeepPorts d e) :
    KeepPorts d (Device.mirrorEnded e x1) := by
  unfold Device.mirrorEnded
  repeat' with_reducible (first | assumption | apply Device.formIngress_keepPorts | apply Device.ingressMirrors_keepPorts | split | (apply KeepPorts.snd2 (by assumption)) | (apply KeepPorts.snd (by assumption)) | (apply KeepPorts.fst (by assumption)) | dsimp only | apply KeepPorts.upd)

theorem Device.setCache_keepPorts {d : Device} {e : Device} (x1 : Nat) (x2 : List (Nat × Bool)) (h : KeepPorts d e) :
    KeepPorts d (Device.setCache e x1 x2) := by
  unfold Device.setCache
  repeat' with_reducible (first | assumption | (extract_lets +onlyGivenNames zz; first | clear_value zz | skip) | dsimp only | apply KeepPorts.upd)

theorem Device.flowEnd_keepPorts {d : Device} {e : Device} (x1 : Bool) (x2 : Sys2Proof.Machine.FlowUpd) (h : KeepPorts d e) :
    KeepPorts d (Device.flowEnd e x1 x2) := by
  unfold Device.flowEnd
  repeat' with_reducible (first | assumption | (extract_lets +onlyGivenNames zz; first | clear_value zz | skip) | apply Device.overflowUpd_keepPorts | apply Device.bucketUpd_keepPorts | apply Device.setCache_keepPorts | apply Device.raise_keepPorts | apply Device.count_keepPorts | split | dsimp only | apply KeepPorts.upd)

theorem Device.flowFinish_keepPorts {d : Device} {e : Device} (x1 : Nat) (x2 : Option Nat) (x3 : Option Nat) (h : KeepPorts d e) :
    KeepPorts d (Device.flowFinish e x1 x2 x3) := by
  unfold Device.flowFinish
  repeat' with_reducible (first | assumption | (extract_lets +onlyGivenNames zz; first | (refine (fun (hz : KeepPorts d zz) => ?_) ?_; clear_value zz; rotate_left; subst zz) | skip) | apply Device.setFrame_keepPorts | apply Device.flowEnd_keepPorts | split | dsimp only | apply KeepPorts.upd)

theorem Device.releaseFrame_keepPorts {d : Device} {e : Device} (x1 : Nat) (h : KeepPorts d e) :
    KeepPorts d (Device.releaseFrame e x1) := by
  unfold Device.releaseFrame
  repeat' with_reducible (first | assumption | (extract_lets +onlyGivenNames zz; first | (refine (fun (hz : KeepPorts d zz) => ?_) ?_; clear_value zz; rotate_left; subst zz) | clear_value zz | skip) | apply Device.setFrame_keepPorts | split | dsimp only | apply KeepPorts.upd)

theorem Device.dropFlight_keepPorts {d : Device} {e : Device} (x1 : Nat) (x2 : Nat) (x3 : Option (Nat × Nat)) (h : KeepPorts d e) :
    KeepPorts d (Device.dropFlight e x1 x2 x3) := by
  unfold Device.dropFlight
  repeat' with_reducible (first | assumption | (extract_lets +onlyGivenNames zz; first | (refine (fun (hz : KeepPorts d zz) => ?_) ?_; clear_value zz; rotate_left; subst zz) | skip) | apply Device.freeStair_keepPorts | apply Device.loseOne_keepPorts | apply Device.flowOfFlight_keepPorts | apply Device.endFlight_keepPorts | apply Device.mirrorEnded_keepPorts | apply Device.flowFinish_keepPorts | apply Device.releaseFrame_keepPorts | split | dsimp only | apply KeepPorts.upd)

theorem Device.dropTrap_keepPorts {d : Device} {e : Device} (x1 : Sys2Proof.Machine.TrapPkt) (x2 : Nat) (h : KeepPorts d e) :
    KeepPorts d (Device.dropTrap e x1 x2) := by
  unfold Device.dropTrap
  repeat' with_reducible (first | assumption | (extract_lets +onlyGivenNames zz; first | (refine (fun (hz : KeepPorts d zz) => ?_) ?_; clear_value zz; rotate_left; subst zz) | clear_value zz | skip) | apply Device.loseOne_keepPorts | apply Device.flowFinish_keepPorts | apply Device.releaseFrame_keepPorts | split | dsimp only | apply KeepPorts.upd)

theorem Device.endReceiving_keepPorts {d : Device} {e : Device} (x1 : Nat) (h : KeepPorts d e) :
    KeepPorts d (Device.endReceiving e x1) := by
  unfold Device.endReceiving
  repeat' with_reducible (first | assumption | (extract_lets +onlyGivenNames zz; first | clear_value zz | skip) | dsimp only | apply KeepPorts.upd)

theorem Device.meterCount_keepPorts {d : Device} {e : Device} (x1 : Nat) (x2 : Sys2Proof.Machine.MeterCharge) (x3 : Nat) (h : KeepPorts d e) :
    KeepPorts d (Device.meterCount e x1 x2 x3) := by
  unfold Device.meterCount
  repeat' with_reducible (first | assumption | (extract_lets +onlyGivenNames zz; first | (refine (fun (hz : KeepPorts d zz) => ?_) ?_; clear_value zz; rotate_left; subst zz) | clear_value zz | skip) | apply Device.countN_keepPorts | apply Device.count_keepPorts | split | dsimp only | apply KeepPorts.upd)

theorem Device.send_keepPorts {d : Device} {e : Device} (x1 : Sys2Proof.Machine.Output) (h : KeepPorts d e) :
    KeepPorts d (Device.send e x1) := by
  unfold Device.send
  repeat' with_reducible (first | assumption | dsimp only | apply KeepPorts.upd)

theorem Device.settleMeter_keepPorts {d : Device} {e : Device} (x1 : Nat) (x2 : Nat) (x3 : Sys2Proof.Machine.MeterCharge) (h : KeepPorts d e) :
    KeepPorts d (Device.settleMeter e x1 x2 x3) := by
  unfold Device.settleMeter
  repeat' with_reducible (first | assumption | (extract_lets +onlyGivenNames zz; first | clear_value zz | skip) | apply Device.meterCount_keepPorts | split | dsimp only | apply KeepPorts.upd)

theorem Device.settleEnd_keepPorts {d : Device} {e : Device} (x1 : Nat) (h : KeepPorts d e) :
    KeepPorts d (Device.settleEnd e x1) := by
  unfold Device.settleEnd
  repeat' with_reducible (first | assumption | (extract_lets +onlyGivenNames zz; first | (refine (fun (hz : KeepPorts d zz) => ?_) ?_; clear_value zz; rotate_left; subst zz) | clear_value zz | skip) | apply Device.settleMeter_keepPorts | apply Device.countN_keepPorts | apply Device.modFrame_keepPorts | apply Device.flowEnd_keepPorts | split | (apply KeepPorts.foldl; intro _ _ _) | dsimp only | apply KeepPorts.upd)

theorem Device.stompOut_keepPorts {d : Device} {e : Device} (x1 : Sys2Proof.Machine.Copy) (h : KeepPorts d e) :
    KeepPorts d (Device.stompOut e x1) := by
  unfold Device.stompOut
  repeat' with_reducible (first | assumption | apply Device.free_keepPorts | apply Device.send_keepPorts | apply Device.countStomped_keepPorts | apply Device.correctTo_keepPorts | split | (apply KeepPorts.snd2 (by assumption)) | (apply KeepPorts.snd (by assumption)) | (apply KeepPorts.fst (by assumption)) | dsimp only | apply KeepPorts.upd)

theorem errWord_reg_other {d : Device} (hw : tabWf regReset d.file.regs = true) (b : Nat) (w : Word) {x : Nat} (h1 : x ≠ b + 0x20)
    (h2 : x ≠ b + 0x24) : (d.errWord b w).reg x = d.reg x := by
  unfold Device.errWord
  extract_lets n d1
  have w1 : tabWf regReset d1.file.regs = true := by
    show tabWf regReset (if _ then _ else _ : Device).file.regs = true
    split
    · exact Device.setReg_wf hw _ _
    · exact hw
  have e1 : d1.reg x = d.reg x := by
    show (if _ then _ else _ : Device).reg x = _
    split
    · exact Device.reg_setReg_other hw _ h1
    · rfl
  rw [Device.reg_setReg_other w1 _ h2, e1]

theorem err_reg_other {d : Device} (hw : tabWf regReset d.file.regs = true) (b o : Nat) (k : ErrKind) (q : Source) {x : Nat} (h1 : x ≠ b + 0x20)
    (h2 : x ≠ b + 0x24) : (d.err b o k q).reg x = d.reg x := errWord_reg_other hw b _ h1 h2

theorem err_held (d : Device) (b o : Nat) (k : ErrKind) (q : Source) : (d.err b o k q).file.held = d.file.held := by
  unfold Device.err
  extract_lets n d1
  have h : d1.file.held = d.file.held := by
    show (if _ then _ else _ : Device).file.held = _
    split <;> rfl
  exact h

/-- Fields that a mask takes from two words. -/
theorem Fld.get_or_masked (f : Fld) (v w m n : Word) (h0 : ∀ i < f.w, m.toNat.testBit (f.lo + i) = false)
    (h1 : ∀ i < f.w, n.toNat.testBit (f.lo + i) = true) : f.get ((v &&& m) ||| (w &&& n)) = f.get w := by
  rw [Fld.get, Fld.get]
  unfold bitsOf
  apply Nat.eq_of_testBit_eq
  intro i
  rw [Nat.testBit_mod_two_pow, Nat.testBit_mod_two_pow, Nat.testBit_div_two_pow, Nat.testBit_div_two_pow, BitVec.toNat_or, BitVec.toNat_and,
    BitVec.toNat_and, Nat.testBit_or, Nat.testBit_and, Nat.testBit_and]
  by_cases hi : i < f.w
  · rw [show i + f.lo = f.lo + i by omega, h0 i hi, h1 i hi, Bool.and_true, Bool.and_false, Bool.false_or]
  · simp [hi]

theorem Fld.get_or_masked_left (f : Fld) (v w m n : Word) (h0 : ∀ i < f.w, m.toNat.testBit (f.lo + i) = true)
    (h1 : ∀ i < f.w, n.toNat.testBit (f.lo + i) = false) : f.get ((v &&& m) ||| (w &&& n)) = f.get v := by
  rw [BitVec.or_comm]
  exact Fld.get_or_masked f w v n m h1 h0

/-- What is held for one priority after a stop is set, replaced or ended (R105). -/
theorem setStop_stops {d : Device} (hw : portsWf d) (p k n j : Nat) : ((d.setStop p k n).port p).stops.filter (fun x => x.1 = j) =
    if j = k then if n = 0 then [] else [(k, d.now + d.quantaTime p n)] else (d.port p).stops.filter fun x => x.1 = j := by
  have e : (d.setStop p k n).port p = _ := tabGet_tabSet_same _ _ hw
  rw [e]
  dsimp only
  by_cases h : j = k
  · subst h
    rw [if_pos rfl]
    have z : ((d.port p).stops.filter fun e => e.1 ≠ j).filter (fun x => x.1 = j) = [] := by
      rw [List.filter_eq_nil_iff]
      intro x hx
      rw [List.mem_filter] at hx
      simpa using hx.2
    split
    · exact z
    · rw [List.filter_append, z]
      simp
  · rw [if_neg h]
    have z : ((d.port p).stops.filter fun e => e.1 ≠ k).filter (fun x => x.1 = j) = (d.port p).stops.filter fun x => x.1 = j := by
      rw [List.filter_filter]
      apply List.filter_congr
      intro x _
      by_cases q : x.1 = j
      · simp [q, h]
      · simp [q]
    split
    · exact z
    · rw [List.filter_append, z]
      simp [Ne.symm h]
theorem Device.setReg_heldD (d : Device) (a : Nat) (v : Word) : (d.setReg a v).file.held = d.file.held := rfl
theorem Device.setReg_portsD (d : Device) (a : Nat) (v : Word) : (d.setReg a v).ports = d.ports := rfl

/-- A rounded quotient takes at most a free value. -/
theorem roundDiv_shape (d : Device) (n : Int) (m : Nat) : ∃ v k, d.roundDiv n m = (v, { d with freeCtr := k }) := by
  unfold Device.roundDiv
  split
  · exact ⟨_, d.freeCtr, rfl⟩
  · exact ⟨_, d.freeCtr + 1, rfl⟩

/-- A timestamp takes at most a free value. -/
theorem stampAt_shape (d : Device) (p l : Nat) (raw : Int) (rx : Bool) : ∃ a b k, d.stampAt p l raw rx = (a, b, { d with freeCtr := k }) := by
  unfold Device.stampAt Device.psT
  dsimp only
  obtain ⟨v, k, h⟩ := roundDiv_shape d ((if rx = true then
    -(Int.ofNat (if rx = true then Config.tsCalRx l else Config.tsCalTx l).toNat +
      Int.ofNat (d.fld (A.TSU_TS_BOARD (p / 32) (p % 32)) (if rx = true then F.TSU_TS_BOARD_RX else F.TSU_TS_BOARD_TX)))
    else Int.ofNat (if rx = true then Config.tsCalRx l else Config.tsCalTx l).toNat +
      Int.ofNat (d.fld (A.TSU_TS_BOARD (p / 32) (p % 32)) (if rx = true then F.TSU_TS_BOARD_RX else F.TSU_TS_BOARD_TX))) * 8192) 125
  rw [h]
  exact ⟨_, _, k, rfl⟩

theorem portCount_same (d : Device) (p x n : Nat) : (d.portCount p x n).sent = d.sent ∧ (d.portCount p x n).ports = d.ports ∧
    (d.portCount p x n).file.regs = d.file.regs ∧ (d.portCount p x n).file.held = d.file.held ∧ (d.portCount p x n).now = d.now := by
  unfold Device.portCount
  split <;> exact ⟨rfl, rfl, rfl, rfl, rfl⟩

theorem lanes_loop_same (f : LaneSt → LaneSt) (ls : List Nat) (e : Device) :
    (ls.foldl (fun d l => d.modLane l f) e).sent = e.sent ∧ (ls.foldl (fun d l => d.modLane l f) e).ports = e.ports :=
  ⟨foldl_frame (·.sent) (f := fun d l => d.modLane l f) (fun _ _ => rfl) ls e,
    foldl_frame (·.ports) (f := fun d l => d.modLane l f) (fun _ _ => rfl) ls e⟩

theorem port_of_ports {d e : Device} (h : e.ports = d.ports) (q : Nat) : e.port q = d.port q := by
  unfold Device.port
  rw [h]

theorem modPort_at {d : Device} (hw : portsWf d) (p : Nat) (f : PortSt → PortSt) : (d.modPort p f).port p = f (d.port p) :=
  tabGet_tabSet_same _ _ hw

theorem modPort_other {d : Device} (hw : portsWf d) (p : Nat) (f : PortSt → PortSt) {q : Nat} (h : q ≠ p) : (d.modPort p f).port q = d.port q :=
  tabGet_tabSet_other _ h hw

theorem modPort_wf {d : Device} (hw : portsWf d) (p : Nat) (f : PortSt → PortSt) : portsWf (d.modPort p f) := tabSet_wf _ _ hw

/-- A port that leaves low-power idle in its transmit direction. -/
theorem leaveLpiTx_spec {d : Device} (hw : portsWf d) (p : Nat) : (d.leaveLpiTx p).sent = d.sent ∧
    (d.leaveLpiTx p).port p = { d.port p with lpiTxAt := none } ∧ ∀ q, q ≠ p → (d.leaveLpiTx p).port q = d.port q := by
  unfold Device.leaveLpiTx
  split
  · rename_i h
    refine ⟨rfl, ?_, fun _ _ => rfl⟩
    rw [← h]
  · rename_i t _
    extract_lets d1
    obtain ⟨a, b⟩ := lanes_loop_same (fun s => { s with txLpi := false }) (d1.portLanes p) d1
    obtain ⟨k1, k2, -⟩ := portCount_same d p 17 ((d.now - t) / usT 1)
    have w : portsWf (d.portCount p 17 ((d.now - t) / usT 1)) := by
      unfold portsWf
      rw [k2]
      exact hw
    refine ⟨a.trans k1, ?_, fun q h => ?_⟩
    · rw [port_of_ports b]
      show (Device.modPort _ p _).port p = _
      rw [modPort_at w, port_of_ports k2]
    · rw [port_of_ports b]
      show (Device.modPort _ p _).port q = _
      rw [modPort_other w p _ h, port_of_ports k2]

/-- An exchange without its response ends. -/
theorem pdelayFail_spec {d : Device} (hw : portsWf d) (p : Nat) : portsWf (d.pdelayFail p) ∧ (d.pdelayFail p).sent = d.sent ∧
    (d.pdelayFail p).now = d.now ∧ ((d.pdelayFail p).port p).pdelaySeq = (d.port p).pdelaySeq ∧ ∀ q, q ≠ p → (d.pdelayFail p).port q = d.port q := by
  unfold Device.pdelayFail
  split
  · exact ⟨hw, rfl, rfl, rfl, fun _ _ => rfl⟩
  · obtain ⟨k1, k2, -, -, k5⟩ := portCount_same d p 20 1
    extract_lets d1 n df
    have w : portsWf d1 := by
      show tabWf _ (d.portCount p 20 1).ports = true
      rw [k2]
      exact hw
    have g : ∀ f, ((d1.modPort p f).port p) = f (d.port p) := fun f => by
      rw [modPort_at w]
      exact congrArg f (port_of_ports k2 p)
    refine ⟨modPort_wf w _ _, k1, k5, ?_, fun q h => ?_⟩
    · rw [g]
    · rw [modPort_other w _ _ h]
      exact port_of_ports k2 q

theorem roundDiv_ports {d e : Device} {n : Int} {m : Nat} {v : Int} (h : d.roundDiv n m = (v, e)) : e.ports = d.ports := by
  obtain ⟨a, k, h'⟩ := roundDiv_shape d n m
  rw [h'] at h
  cases h
  rfl

theorem loopSample_ports (d : Device) (p : Nat) (f r : Int) : (d.loopSample p f r).ports = d.ports := by
  unfold Device.loopSample Device.meanOf
  split
  rename_i f1 d1 h1
  split
  rename_i f2 d2 h2
  dsimp only
  have e : d2.ports = d.ports := (roundDiv_ports h2).trans (roundDiv_ports h1)
  rw [← e]
  have q : ∀ (d : Device) (n : Int) (m : Nat), (d.roundDiv n m).2.ports = d.ports := fun d n m => roundDiv_ports (v := (d.roundDiv n m).1) rfl
  rw [Device.count_ports, Device.setReg_ports, Device.setReg_ports, q, q]
  rfl

structure KeepLinks (d e : Device) : Prop where
  links : e.lane.links = d.lane.links

theorem KeepLinks.refl (d : Device) : KeepLinks d d := ⟨rfl⟩
theorem KeepLinks.trans {a b c : Device} (h : KeepLinks a b) (k : KeepLinks b c) : KeepLinks a c := ⟨k.1.trans h.1⟩
theorem KeepLinks.foldl {α : Type} {f : Device → α → Device} {d : Device} (l : List α) {e : Device}
    (h : ∀ e x, KeepLinks d e → KeepLinks d (f e x)) (h0 : KeepLinks d e) : KeepLinks d (l.foldl f e) := by
  induction l generalizing e with
  | nil => exact h0
  | cons x t ih => exact ih (h e x h0)
theorem KeepLinks.ite {d a b : Device} {c : Prop} [Decidable c] (ha : KeepLinks d a) (hb : KeepLinks d b) : KeepLinks d (if c then a else b) := by
  by_cases h : c
  · rwa [if_pos h]
  · rwa [if_neg h]
theorem KeepLinks.snd {α : Type} {p : α × Device} {a : α} {d e : Device} (h : p = (a, e)) (k : KeepLinks d p.2) : KeepLinks d e := by rw [h] at k; exact k
theorem KeepLinks.snd2 {α β : Type} {p : α × β × Device} {a : α} {b : β} {d e : Device} (h : p = (a, b, e)) (k : KeepLinks d p.2.2) : KeepLinks d e := by rw [h] at k; exact k
theorem KeepLinks.fst {α : Type} {p : Device × α} {a : α} {d e : Device} (h : p = (e, a)) (k : KeepLinks d p.1) : KeepLinks d e := by rw [h] at k; exact k
theorem KeepLinks.pair {α : Type} {a : α} {d e : Device} (k : KeepLinks d e) : KeepLinks d (a, e).2 := k
theorem KeepLinks.pair1 {α : Type} {a : α} {d e : Device} (k : KeepLinks d e) : KeepLinks d (e, a).1 := k
def KeepLinksO (d : Device) (o : Option Device) : Prop := ∀ e, o = some e → KeepLinks d e
theorem KeepLinksO.ofNone {d : Device} : KeepLinksO d none := fun _ h => nomatch h
theorem KeepLinksO.ofSome {d e : Device} (h : KeepLinks d e) : KeepLinksO d (some e) := fun _ k => by cases k; exact h
theorem KeepLinksO.get {d e : Device} {o : Option Device} (h : o = some e) (k : KeepLinksO d o) : KeepLinks d e := k e h
theorem KeepLinks.fstR {α : Type} {p : StageRun × α} {a : α} {d : Device} {e : StageRun} (h : p = (e, a)) (k : KeepLinks d p.1.d) : KeepLinks d e.d := by rw [h] at k; exact k
def KeepLinksP {α : Type} (d : Device) (f : α → Device) (o : Option α) : Prop := ∀ a, o = some a → KeepLinks d (f a)
theorem KeepLinksP.ofNone {α : Type} {f : α → Device} {d : Device} : KeepLinksP d f none := fun _ h => nomatch h
theorem KeepLinksP.ofSome {α : Type} {f : α → Device} {d : Device} {a : α} (h : KeepLinks d (f a)) : KeepLinksP d f (some a) := fun _ k => by cases k; exact h
theorem KeepLinksP.get2 {α : Type} {o : Option (α × Device)} {a : α} {d e : Device} (h : o = some (a, e)) (k : KeepLinksP d (·.2) o) : KeepLinks d e := k _ h
theorem KeepLinksP.get1 {α : Type} {o : Option (Device × α)} {a : α} {d e : Device} (h : o = some (e, a)) (k : KeepLinksP d (·.1) o) : KeepLinks d e := k _ h
theorem KeepLinks.upd {d e : Device} {xdev : DevCtl} {xstroke : StrokeCtl} {xfile : RegFile} {xgen : GenUnit} {xsnap : SnapUnit} {xbudget : BudgetUnit} {xprofile : ProfileUnit} {xports : Tab PortSt} {xfft : FftUnit} {xpkt : PacketUnit} {xhall : HallUnit} {xtable : TableUnit} {xbillet : BilletUnit} {xsched : SchedUnit} {xdrops : DropUnit} {xclock : ClockUnit} {xservo : ServoUnit} {xpulse : PulseUnit} {xledger : LedgerUnit} {xtsu : Tab TsuSt} {xdamper : DamperUnit} {xtelem : TelemUnit} {xinteg : IntegUnit} {xhost : HostUnit} {xperf : PerfUnit} {xanvil : AnvilUnit} {xras : RasUnit} {xseq : SeqUnit} {xboot : BootUnit} {xmgmt : MgmtUnit} {xsent : List Output} {xfreeCtr : Nat} (h : KeepLinks d e) :
    KeepLinks d (Device.mk xdev xstroke xfile xgen xsnap xbudget xprofile e.lane xports xfft xpkt xhall xtable xbillet xsched xdrops xclock xservo xpulse xledger xtsu xdamper xtelem xinteg xhost xperf xanvil xras xseq xboot xmgmt xsent xfreeCtr) := ⟨h.1⟩
theorem KeepLinks.updLane {d e : Device} {xdev : DevCtl} {xstroke : StrokeCtl} {xfile : RegFile} {xgen : GenUnit} {xsnap : SnapUnit} {xbudget : BudgetUnit} {xprofile : ProfileUnit} {xports : Tab PortSt} {xfft : FftUnit} {xpkt : PacketUnit} {xhall : HallUnit} {xtable : TableUnit} {xbillet : BilletUnit} {xsched : SchedUnit} {xdrops : DropUnit} {xclock : ClockUnit} {xservo : ServoUnit} {xpulse : PulseUnit} {xledger : LedgerUnit} {xtsu : Tab TsuSt} {xdamper : DamperUnit} {xtelem : TelemUnit} {xinteg : IntegUnit} {xhost : HostUnit} {xperf : PerfUnit} {xanvil : AnvilUnit} {xras : RasUnit} {xseq : SeqUnit} {xboot : BootUnit} {xsent : List Output} {xfreeCtr : Nat} {z : LaneUnit} (h : KeepLinks d e) (hlinks : z.links = e.lane.links) :
    KeepLinks d (Device.mk xdev xstroke xfile xgen xsnap xbudget xprofile z xports xfft xpkt xhall xtable xbillet xsched xdrops xclock xservo xpulse xledger xtsu xdamper xtelem xinteg xhost xperf xanvil xras xseq xboot e.mgmt xsent xfreeCtr) := ⟨hlinks.trans h.1⟩

theorem Device.setQueueSt_keepLinks {d : Device} {e : Device} (x1 : Nat) (x2 : Sys2Proof.Machine.QueueSt) (h : KeepLinks d e) :
    KeepLinks d (Device.setQueueSt e x1 x2) := by
  unfold Device.setQueueSt
  repeat' with_reducible (first | assumption | (extract_lets +onlyGivenNames zz; first | clear_value zz | skip) | dsimp only | apply KeepLinks.upd | apply KeepLinks.updLane | exact rfl)

theorem Device.setClassSt_keepLinks {d : Device} {e : Device} (x1 : Nat) (x2 : Nat) (x3 : Sys2Proof.Machine.ClassSt) (h : KeepLinks d e) :
    KeepLinks d (Device.setClassSt e x1 x2 x3) := by
  unfold Device.setClassSt
  repeat' with_reducible (first | assumption | (extract_lets +onlyGivenNames zz; first | clear_value zz | skip) | dsimp only | apply KeepLinks.upd | apply KeepLinks.updLane | exact rfl)

theorem Device.addCharge_keepLinks {d : Device} {e : Device} (x1 : Nat) (x2 : Sys2Proof.Machine.Charge) (x3 : Nat) (h : KeepLinks d e) :
    KeepLinks d (Device.addCharge e x1 x2 x3) := by
  unfold Device.addCharge
  repeat' with_reducible (first | assumption | (extract_lets +onlyGivenNames zz; first | clear_value zz | skip) | apply Device.setQueueSt_keepLinks | apply Device.setClassSt_keepLinks | split | dsimp only | apply KeepLinks.upd | apply KeepLinks.updLane | exact rfl)

theorem Device.setDwrr_keepLinks {d : Device} {e : Device} (x1 : Nat) (x2 : Sys2Proof.Machine.DwrrSt) (h : KeepLinks d e) :
    KeepLinks d (Device.setDwrr e x1 x2) := by
  unfold Device.setDwrr
  repeat' with_reducible (first | assumption | (extract_lets +onlyGivenNames zz; first | clear_value zz | skip) | dsimp only | apply KeepLinks.upd | apply KeepLinks.updLane | exact rfl)

theorem Device.addDeficit_keepLinks {d : Device} {e : Device} (x1 : Nat) (x2 : Int) (h : KeepLinks d e) :
    KeepLinks d (Device.addDeficit e x1 x2) := by
  unfold Device.addDeficit
  repeat' with_reducible (first | assumption | (extract_lets +onlyGivenNames zz; first | clear_value zz | skip) | apply Device.setDwrr_keepLinks | split | dsimp only | apply KeepLinks.upd | apply KeepLinks.updLane | exact rfl)

theorem Device.countN_keepLinks {d : Device} {e : Device} (x1 : Nat) (x2 : Nat) (h : KeepLinks d e) :
    KeepLinks d (Device.countN e x1 x2) := by
  unfold Device.countN
  repeat' with_reducible (first | assumption | (extract_lets +onlyGivenNames zz; first | clear_value zz | skip) | dsimp only | apply KeepLinks.upd | apply KeepLinks.updLane | exact rfl)

theorem Device.count_keepLinks {d : Device} {e : Device} (x1 : Nat) (h : KeepLinks d e) :
    KeepLinks d (Device.count e x1) := by
  unfold Device.count
  repeat' with_reducible (first | assumption | apply Device.countN_keepLinks | dsimp only | apply KeepLinks.upd | apply KeepLinks.updLane | exact rfl)

theorem Device.portCount_keepLinks {d : Device} {e : Device} (x1 : Nat) (x2 : Nat) (x3 : Nat) (h : KeepLinks d e) :
    KeepLinks d (Device.portCount e x1 x2 x3) := by
  unfold Device.portCount
  repeat' with_reducible (first | assumption | apply Device.countN_keepLinks | split | dsimp only | apply KeepLinks.upd | apply KeepLinks.updLane | exact rfl)

theorem Device.queueCount_keepLinks {d : Device} {e : Device} (x1 : Nat) (x2 : Nat) (x3 : Nat) (h : KeepLinks d e) :
    KeepLinks d (Device.queueCount e x1 x2 x3) := by
  unfold Device.queueCount
  repeat' with_reducible (first | assumption | apply Device.countN_keepLinks | split | dsimp only | apply KeepLinks.upd | apply KeepLinks.updLane | exact rfl)

theorem Device.noteAdded_keepLinks {d : Device} {e : Device} (x1 : Nat) (x2 : Nat) (x3 : Option Sys2Proof.Machine.EvPkt) (h : KeepLinks d e) :
    KeepLinks d (Device.noteAdded e x1 x2 x3) := by
  unfold Device.noteAdded
  repeat' with_reducible (first | assumption | (extract_lets +onlyGivenNames zz; first | clear_value zz | skip) | dsimp only | apply KeepLinks.upd | apply KeepLinks.updLane | exact rfl)

theorem Device.setReg_keepLinks {d : Device} {e : Device} (x1 : Nat) (x2 : Sys2Proof.Word) (h : KeepLinks d e) :
    KeepLinks d (Device.setReg e x1 x2) := by
  unfold Device.setReg
  repeat' with_reducible (first | assumption | (extract_lets +onlyGivenNames zz; first | clear_value zz | skip) | dsimp only | apply KeepLinks.upd | apply KeepLinks.updLane | exact rfl)

theorem Device.markSet_keepLinks {d : Device} {e : Device} (x1 : Nat) (x2 : Nat) (h : KeepLinks d e) :
    KeepLinks d (Device.markSet e x1 x2) := by
  unfold Device.markSet
  repeat' with_reducible (first | assumption | (extract_lets +onlyGivenNames zz; first | clear_value zz | skip) | dsimp only | apply KeepLinks.upd | apply KeepLinks.updLane | exact rfl)

theorem Device.setW1c_keepLinks {d : Device} {e : Device} (x1 : Nat) (x2 : Nat) (h : KeepLinks d e) :
    KeepLinks d (Device.setW1c e x1 x2) := by
  unfold Device.setW1c
  repeat' with_reducible (first | assumption | apply Device.setReg_keepLinks | apply Device.markSet_keepLinks | dsimp only | apply KeepLinks.upd | apply KeepLinks.updLane | exact rfl)

theorem Device.noteWrap_keepLinks {d : Device} {e : Device} (x1 : Nat) (x2 : Bool) (x3 : Bool) (x4 : Nat) (h : KeepLinks d e) :
    KeepLinks d (Device.noteWrap e x1 x2 x3 x4) := by
  unfold Device.noteWrap
  repeat' with_reducible (first | assumption | (extract_lets +onlyGivenNames zz; first | clear_value zz | skip) | dsimp only | apply KeepLinks.upd | apply KeepLinks.updLane | exact rfl)

theorem Device.raise_keepLinks {d : Device} {e : Device} (x1 : Nat) (x2 : Nat) (h : KeepLinks d e) :
    KeepLinks d (Device.raise e x1 x2) := by
  unfold Device.raise
  repeat' with_reducible (first | assumption | (extract_lets +onlyGivenNames zz; first | (refine (fun (hz : KeepLinks d zz) => ?_) ?_; clear_value zz; rotate_left; subst zz) | clear_value zz | skip) | apply Device.setW1c_keepLinks | split | dsimp only | apply KeepLinks.upd | apply KeepLinks.updLane | exact rfl)

theorem Device.pushSample_keepLinks {d : Device} {e : Device} (x1 : Nat) (x2 : Sys2Proof.Machine.Sample) (h : KeepLinks d e) :
    KeepLinks d (Device.pushSample e x1 x2) := by
  unfold Device.pushSample
  repeat' with_reducible (first | assumption | (extract_lets +onlyGivenNames zz; first | (refine (fun (hz : KeepLinks d zz) => ?_) ?_; clear_value zz; rotate_left; subst zz) | clear_value zz | skip) | apply Device.raise_keepLinks | split | dsimp only | apply KeepLinks.upd | apply KeepLinks.updLane | exact rfl)

theorem Device.pcAdd_keepLinks {d : Device} {e : Device} (x1 : Option Nat) (x2 : Nat) (x3 : Nat) (x4 : Option Sys2Proof.Machine.EvPkt) (x5 : Nat) (h : KeepLinks d e) :
    KeepLinks d (Device.pcAdd e x1 x2 x3 x4 x5) := by
  unfold Device.pcAdd
  repeat' with_reducible (first | assumption | (extract_lets +onlyGivenNames zz; first | (refine (fun (hz : KeepLinks d zz) => ?_) ?_; clear_value zz; rotate_left; subst zz) | clear_value zz | skip) | apply Device.setW1c_keepLinks | apply Device.noteWrap_keepLinks | apply Device.pushSample_keepLinks | split | dsimp only | apply KeepLinks.upd | apply KeepLinks.updLane | exact rfl)

theorem Device.event_keepLinks {d : Device} {e : Device} (x1 : Option Nat) (x2 : Nat) (x3 : Nat) (x4 : Option Nat) (x5 : Sys2Proof.Machine.EvPkt) (h : KeepLinks d e) :
    KeepLinks d (Device.event e x1 x2 x3 x4 x5) := by
  unfold Device.event
  repeat' with_reducible (first | assumption | (extract_lets +onlyGivenNames zz; first | clear_value zz | skip) | apply Device.noteAdded_keepLinks | apply Device.pcAdd_keepLinks | split | (apply KeepLinks.foldl; intro _ _ _) | dsimp only | apply KeepLinks.upd | apply KeepLinks.updLane | exact rfl)

theorem Device.dropCount_keepLinks {d : Device} {e : Device} (x1 : Sys2Proof.Machine.DropInfo) (h : KeepLinks d e) :
    KeepLinks d (Device.dropCount e x1) := by
  unfold Device.dropCount
  repeat' with_reducible (first | assumption | apply Device.count_keepLinks | apply Device.event_keepLinks | split | dsimp only | apply KeepLinks.upd | apply KeepLinks.updLane | exact rfl)

theorem Device.aggregate_keepLinks {d : Device} {e : Device} (x1 : Nat) (x2 : Nat) (h : KeepLinks d e) :
    KeepLinks d (Device.aggregate e x1 x2) := by
  unfold Device.aggregate
  repeat' with_reducible (first | assumption | (extract_lets +onlyGivenNames zz; first | (refine (fun (hz : KeepLinks d zz) => ?_) ?_; clear_value zz; rotate_left; subst zz) | clear_value zz | skip) | apply Device.markSet_keepLinks | apply Device.count_keepLinks | apply Device.setReg_keepLinks | apply Device.raise_keepLinks | split | dsimp only | apply KeepLinks.upd | apply KeepLinks.updLane | exact rfl)

theorem Device.pushRecord_keepLinks {d : Device} {e : Device} (x1 : Sys2Proof.Machine.DropInfo) (h : KeepLinks d e) :
    KeepLinks d (Device.pushRecord e x1) := by
  unfold Device.pushRecord
  repeat' with_reducible (first | assumption | (extract_lets +onlyGivenNames zz; first | clear_value zz | skip) | apply Device.raise_keepLinks | apply Device.count_keepLinks | apply Device.aggregate_keepLinks | split | dsimp only | apply KeepLinks.upd | apply KeepLinks.updLane | exact rfl)

theorem Device.recordDrop_keepLinks {d : Device} {e : Device} (x1 : Sys2Proof.Machine.DropInfo) (h : KeepLinks d e) :
    KeepLinks d (Device.recordDrop e x1) := by
  unfold Device.recordDrop
  repeat' with_reducible (first | assumption | (extract_lets +onlyGivenNames zz; first | clear_value zz | skip) | apply Device.pushRecord_keepLinks | apply Device.aggregate_keepLinks | split | dsimp only | apply KeepLinks.upd | apply KeepLinks.updLane | exact rfl)

theorem Device.drop_keepLinks {d : Device} {e : Device} (x1 : Sys2Proof.Machine.DropInfo) (h : KeepLinks d e) :
    KeepLinks d (Device.drop e x1) := by
  unfold Device.drop
  repeat' with_reducible (first | assumption | apply Device.recordDrop_keepLinks | apply Device.dropCount_keepLinks | split | dsimp only | apply KeepLinks.upd | apply KeepLinks.updLane | exact rfl)

theorem Device.loseOne_keepLinks {d : Device} {e : Device} (x1 : Sys2Proof.Machine.Frame) (x2 : Sys2Proof.Machine.DropInfo) (h : KeepLinks d e) :
    KeepLinks d (Device.loseOne e x1 x2) := by
  unfold Device.loseOne
  repeat' with_reducible (first | assumption | (extract_lets +onlyGivenNames zz; first | (refine (fun (hz : KeepLinks d zz) => ?_) ?_; clear_value zz; rotate_left; subst zz) | skip) | apply Device.count_keepLinks | apply Device.dropCount_keepLinks | apply Device.drop_keepLinks | split | dsimp only | apply KeepLinks.upd | apply KeepLinks.updLane | exact rfl)

theorem Device.refuseAdmission_keepLinks {d : Device} {e : Device} (x1 : Sys2Proof.Machine.Frame) (x2 : Sys2Proof.Machine.AdmitReq) (x3 : Nat) (h : KeepLinks d e) :
    KeepLinks d (Device.refuseAdmission e x1 x2 x3) := by
  unfold Device.refuseAdmission
  repeat' with_reducible (first | assumption | (extract_lets +onlyGivenNames zz; first | (refine (fun (hz : KeepLinks d zz) => ?_) ?_; clear_value zz; rotate_left; subst zz) | skip) | apply Device.count_keepLinks | apply Device.portCount_keepLinks | apply Device.queueCount_keepLinks | apply Device.loseOne_keepLinks | split | dsimp only | apply KeepLinks.upd | apply KeepLinks.updLane | exact rfl)

theorem Device.free_keepLinks {d : Device} {e : Device} (x1 : Nat) (h : KeepLinks d e) :
    KeepLinks d (Device.free e x1).2 := by
  unfold Device.free
  repeat' with_reducible (first | assumption | dsimp only | apply KeepLinks.upd | apply KeepLinks.updLane | exact rfl)

theorem Device.setFrame_keepLinks {d : Device} {e : Device} (x1 : Sys2Proof.Machine.Frame) (h : KeepLinks d e) :
    KeepLinks d (Device.setFrame e x1) := by
  unfold Device.setFrame
  repeat' with_reducible (first | assumption | (extract_lets +onlyGivenNames zz; first | clear_value zz | skip) | dsimp only | apply KeepLinks.upd | apply KeepLinks.updLane | exact rfl)

theorem Device.modFrame_keepLinks {d : Device} {e : Device} (x1 : Nat) (x2 : Sys2Proof.Machine.Frame → Sys2Proof.Machine.Frame) (h : KeepLinks d e) :
    KeepLinks d (Device.modFrame e x1 x2) := by
  unfold Device.modFrame
  repeat' with_reducible (first | assumption | apply Device.setFrame_keepLinks | split | dsimp only | apply KeepLinks.upd | apply KeepLinks.updLane | exact rfl)

theorem Device.allocCells_keepLinks {d : Device} {e : Device} (x1 : Nat) (x2 : Nat) (x3 : Nat) (h : KeepLinks d e) :
    KeepLinks d (Device.allocCells e x1 x2 x3) := by
  induction x3 generalizing e x1 x2 with
  | zero =>
    unfold Device.allocCells
    repeat' with_reducible (first | assumption | (extract_lets +onlyGivenNames zz; first | (refine (fun (hz : KeepLinks d zz) => ?_) ?_; clear_value zz; rotate_left; subst zz) | clear_value zz | skip) | apply Device.modFrame_keepLinks | split | dsimp only | apply KeepLinks.upd | apply KeepLinks.updLane | exact rfl)
  | succ n ih =>
    unfold Device.allocCells
    repeat' with_reducible (first | assumption | apply ih | (extract_lets +onlyGivenNames zz; first | (refine (fun (hz : KeepLinks d zz) => ?_) ?_; clear_value zz; rotate_left; subst zz) | clear_value zz | skip) | apply Device.modFrame_keepLinks | split | dsimp only | apply KeepLinks.upd | apply KeepLinks.updLane | exact rfl)

theorem Device.spend_keepLinks {d : Device} {e : Device} (x1 : Nat) (x2 : Nat) (x3 : Nat) (x4 : Nat) (h : KeepLinks d e) :
    KeepLinks d (Device.spend e x1 x2 x3 x4) := by
  unfold Device.spend
  repeat' with_reducible (first | assumption | (extract_lets +onlyGivenNames zz; first | clear_value zz | skip) | dsimp only | apply KeepLinks.upd | apply KeepLinks.updLane | exact rfl)

theorem Device.modCopy_keepLinks {d : Device} {e : Device} (x1 : Nat) (x2 : Sys2Proof.Machine.Copy → Sys2Proof.Machine.Copy) (h : KeepLinks d e) :
    KeepLinks d (Device.modCopy e x1 x2) := by
  unfold Device.modCopy
  repeat' with_reducible (first | assumption | (extract_lets +onlyGivenNames zz; first | clear_value zz | skip) | split | dsimp only | apply KeepLinks.upd | apply KeepLinks.updLane | exact rfl)

theorem Device.chargeMore_keepLinks {d : Device} {e : Device} (x1 : Sys2Proof.Machine.Copy) (x2 : Nat) (h : KeepLinks d e) :
    KeepLinks d (Device.chargeMore e x1 x2) := by
  unfold Device.chargeMore
  repeat' with_reducible (first | assumption | (extract_lets +onlyGivenNames zz; first | (refine (fun (hz : KeepLinks d zz) => ?_) ?_; clear_value zz; rotate_left; subst zz) | clear_value zz | skip) | apply Device.addCharge_keepLinks | apply Device.modCopy_keepLinks | apply Device.modFrame_keepLinks | split | dsimp only | apply KeepLinks.upd | apply KeepLinks.updLane | exact rfl)

theorem Device.growFrame_keepLinks {d : Device} {e : Device} (x1 : Nat) (h : KeepLinks d e) :
    KeepLinks d (Device.growFrame e x1) := by
  unfold Device.growFrame
  repeat' with_reducible (first | assumption | (extract_lets +onlyGivenNames zz; first | (refine (fun (hz : KeepLinks d zz) => ?_) ?_; clear_value zz; rotate_left; subst zz) | clear_value zz | skip) | apply Device.allocCells_keepLinks | apply Device.event_keepLinks | apply Device.spend_keepLinks | apply Device.chargeMore_keepLinks | split | (apply KeepLinks.foldl; intro _ _ _) | dsimp only | apply KeepLinks.upd | apply KeepLinks.updLane | exact rfl)

theorem Device.admitCopy_keepLinks {d : Device} {e : Device} (x1 : Sys2Proof.Machine.AdmitReq) (x2 : Bool) (x3 : Nat) (h : KeepLinks d e) :
    KeepLinks d (Device.admitCopy e x1 x2 x3).1 := by
  unfold Device.admitCopy
  repeat' with_reducible (first | assumption | (extract_lets +onlyGivenNames zz; first | (refine (fun (hz : KeepLinks d zz) => ?_) ?_; clear_value zz; rotate_left; subst zz) | clear_value zz | skip) | apply Device.refuseAdmission_keepLinks | apply Device.setQueueSt_keepLinks | apply Device.free_keepLinks | apply Device.count_keepLinks | apply Device.modFrame_keepLinks | apply Device.queueCount_keepLinks | apply Device.event_keepLinks | apply Device.growFrame_keepLinks | split | (apply KeepLinks.snd2 (by assumption)) | (apply KeepLinks.snd (by assumption)) | (apply KeepLinks.fst (by assumption)) | dsimp only | apply KeepLinks.upd | apply KeepLinks.updLane | exact rfl)

theorem Device.setPort_keepLinks {d : Device} {e : Device} (x1 : Nat) (x2 : Sys2Proof.Machine.PortSt) (h : KeepLinks d e) :
    KeepLinks d (Device.setPort e x1 x2) := by
  unfold Device.setPort
  repeat' with_reducible (first | assumption | dsimp only | apply KeepLinks.upd | apply KeepLinks.updLane | exact rfl)

theorem Device.modPort_keepLinks {d : Device} {e : Device} (x1 : Nat) (x2 : Sys2Proof.Machine.PortSt → Sys2Proof.Machine.PortSt) (h : KeepLinks d e) :
    KeepLinks d (Device.modPort e x1 x2) := by
  unfold Device.modPort
  repeat' with_reducible (first | assumption | apply Device.setPort_keepLinks | dsimp only | apply KeepLinks.upd | apply KeepLinks.updLane | exact rfl)

theorem Device.setLane_keepLinks {d : Device} {e : Device} (x1 : Nat) (x2 : Sys2Proof.Machine.LaneSt) (h : KeepLinks d e) :
    KeepLinks d (Device.setLane e x1 x2) := by
  unfold Device.setLane
  repeat' with_reducible (first | assumption | (extract_lets +onlyGivenNames zz; first | (have hq : LaneUnit := zz; clear hq; subst zz) | clear_value zz | skip) | split | dsimp only | apply KeepLinks.upd | apply KeepLinks.updLane | exact rfl)

theorem Device.modLane_keepLinks {d : Device} {e : Device} (x1 : Nat) (x2 : Sys2Proof.Machine.LaneSt → Sys2Proof.Machine.LaneSt) (h : KeepLinks d e) :
    KeepLinks d (Device.modLane e x1 x2) := by
  unfold Device.modLane
  repeat' with_reducible (first | assumption | apply Device.setLane_keepLinks | dsimp only | apply KeepLinks.upd | apply KeepLinks.updLane | exact rfl)

theorem Device.leaveLpiTx_keepLinks {d : Device} {e : Device} (x1 : Nat) (h : KeepLinks d e) :
    KeepLinks d (Device.leaveLpiTx e x1) := by
  unfold Device.leaveLpiTx
  repeat' with_reducible (first | assumption | (extract_lets +onlyGivenNames zz; first | (refine (fun (hz : KeepLinks d zz) => ?_) ?_; clear_value zz; rotate_left; subst zz) | skip) | apply Device.modPort_keepLinks | apply Device.portCount_keepLinks | apply Device.modLane_keepLinks | split | (apply KeepLinks.foldl; intro _ _ _) | dsimp only | apply KeepLinks.upd | apply KeepLinks.updLane | exact rfl)

theorem Device.send_keepLinks {d : Device} {e : Device} (x1 : Sys2Proof.Machine.Output) (h : KeepLinks d e) :
    KeepLinks d (Device.send e x1) := by
  unfold Device.send
  repeat' with_reducible (first | assumption | dsimp only | apply KeepLinks.upd | apply KeepLinks.updLane | exact rfl)

theorem Device.sendFc_keepLinks {d : Device} {e : Device} (x1 : Nat) (x2 : Nat) (x3 : Nat) (h : KeepLinks d e) :
    KeepLinks d (Device.sendFc e x1 x2 x3) := by
  unfold Device.sendFc
  repeat' with_reducible (first | assumption | (extract_lets +onlyGivenNames zz; first | (refine (fun (hz : KeepLinks d zz) => ?_) ?_; clear_value zz; rotate_left; subst zz) | clear_value zz | skip) | apply Device.modPort_keepLinks | apply Device.leaveLpiTx_keepLinks | apply Device.send_keepLinks | apply Device.portCount_keepLinks | split | dsimp only | apply KeepLinks.upd | apply KeepLinks.updLane | exact rfl)

theorem Device.askFc_keepLinks {d : Device} {e : Device} (x1 : Nat) (x2 : Nat) (h : KeepLinks d e) :
    KeepLinks d (Device.askFc e x1 x2) := by
  unfold Device.askFc
  repeat' with_reducible (first | assumption | apply Device.modPort_keepLinks | apply Device.sendFc_keepLinks | split | dsimp only | apply KeepLinks.upd | apply KeepLinks.updLane | exact rfl)

theorem Device.autoMembers_keepLinks {d : Device} {e : Device} (x1 : Nat) (x2 : Bool) (h : KeepLinks d e) :
    KeepLinks d (Device.autoMembers e x1 x2) := by
  unfold Device.autoMembers
  repeat' with_reducible (first | assumption | (extract_lets +onlyGivenNames zz; first | clear_value zz | skip) | split | (apply KeepLinks.foldl; intro _ _ _) | dsimp only | apply KeepLinks.upd | apply KeepLinks.updLane | exact rfl)

theorem Device.settleFault_keepLinks {d : Device} {e : Device} (x1 : Nat) (h : KeepLinks d e) :
    KeepLinks d (Device.settleFault e x1) := by
  unfold Device.settleFault
  repeat' with_reducible (first | assumption | (extract_lets +onlyGivenNames zz; first | clear_value zz | skip) | apply Device.send_keepLinks | apply Device.modPort_keepLinks | split | dsimp only | apply KeepLinks.upd | apply KeepLinks.updLane | exact rfl)

theorem Device.laneEvent_keepLinks {d : Device} {e : Device} (x1 : Nat) (x2 : Bool) (h : KeepLinks d e) :
    KeepLinks d (Device.laneEvent e x1 x2) := by
  unfold Device.laneEvent
  repeat' with_reducible (first | assumption | (extract_lets +onlyGivenNames zz; first | clear_value zz | skip) | apply Device.raise_keepLinks | apply Device.setW1c_keepLinks | split | dsimp only | apply KeepLinks.upd | apply KeepLinks.updLane | exact rfl)

theorem Device.laneTo_keepLinks {d : Device} {e : Device} (x1 : Nat) (x2 : Sys2Proof.Machine.LaneState) (h : KeepLinks d e) :
    KeepLinks d (Device.laneTo e x1 x2) := by
  unfold Device.laneTo
  repeat' with_reducible (first | assumption | (extract_lets +onlyGivenNames zz; first | (refine (fun (hz : KeepLinks d zz) => ?_) ?_; clear_value zz; rotate_left; subst zz) | clear_value zz | skip) | apply Device.setReg_keepLinks | apply Device.setLane_keepLinks | apply Device.laneEvent_keepLinks | split | dsimp only | apply KeepLinks.upd | apply KeepLinks.updLane | exact rfl)

theorem Device.portTo_keepLinks {d : Device} {e : Device} (x1 : Nat) (x2 : Sys2Proof.Machine.LaneState) (h : KeepLinks d e) :
    KeepLinks d (Device.portTo e x1 x2) := by
  unfold Device.portTo
  repeat' with_reducible (first | assumption | apply Device.laneTo_keepLinks | split | (apply KeepLinks.foldl; intro _ _ _) | dsimp only | apply KeepLinks.upd | apply KeepLinks.updLane | exact rfl)

theorem Device.beginAlign_keepLinks {d : Device} {e : Device} (x1 : Nat) (h : KeepLinks d e) :
    KeepLinks d (Device.beginAlign e x1) := by
  unfold Device.beginAlign
  repeat' with_reducible (first | assumption | apply Device.settleFault_keepLinks | apply Device.portTo_keepLinks | dsimp only | apply KeepLinks.upd | apply KeepLinks.updLane | exact rfl)

theorem Device.setBring_keepLinks {d : Device} {e : Device} (x1 : Nat) (x2 : Sys2Proof.Machine.BringUp) (h : KeepLinks d e) :
    KeepLinks d (Device.setBring e x1 x2) := by
  unfold Device.setBring
  repeat' with_reducible (first | assumption | (extract_lets +onlyGivenNames zz; first | (have hq : LaneUnit := zz; clear hq; subst zz) | clear_value zz | skip) | dsimp only | apply KeepLinks.upd | apply KeepLinks.updLane | exact rfl)

theorem Device.modBring_keepLinks {d : Device} {e : Device} (x1 : Nat) (x2 : Sys2Proof.Machine.BringUp → Sys2Proof.Machine.BringUp) (h : KeepLinks d e) :
    KeepLinks d (Device.modBring e x1 x2) := by
  unfold Device.modBring
  repeat' with_reducible (first | assumption | apply Device.setBring_keepLinks | dsimp only | apply KeepLinks.upd | apply KeepLinks.updLane | exact rfl)

theorem Device.beginTrain_keepLinks {d : Device} {e : Device} (x1 : Nat) (x2 : Sys2Proof.Machine.LaneState) (h : KeepLinks d e) :
    KeepLinks d (Device.beginTrain e x1 x2) := by
  unfold Device.beginTrain
  repeat' with_reducible (first | assumption | (extract_lets +onlyGivenNames zz; first | clear_value zz | skip) | apply Device.modBring_keepLinks | apply Device.portTo_keepLinks | dsimp only | apply KeepLinks.upd | apply KeepLinks.updLane | exact rfl)

theorem Device.overflowUpd_keepLinks {d : Device} {e : Device} (x1 : Nat) (x2 : Sys2Proof.Machine.FlowUpd) (h : KeepLinks d e) :
    KeepLinks d (Device.overflowUpd e x1 x2) := by
  unfold Device.overflowUpd
  repeat' with_reducible (first | assumption | (extract_lets +onlyGivenNames zz; first | clear_value zz | skip) | dsimp only | apply KeepLinks.upd | apply KeepLinks.updLane | exact rfl)

theorem Device.bucketUpd_keepLinks {d : Device} {e : Device} (x1 : Nat) (x2 : Sys2Proof.Machine.FlowUpd) (h : KeepLinks d e) :
    KeepLinks d (Device.bucketUpd e x1 x2) := by
  unfold Device.bucketUpd
  try dsimp only
  repeat' with_reducible (first | assumption | apply Device.overflowUpd_keepLinks | apply Device.count_keepLinks | split | dsimp only | apply KeepLinks.upd | apply KeepLinks.updLane | exact rfl)

theorem Device.setTokens_keepLinks {d : Device} {e : Device} (x1 : Nat) (x2 : Int) (h : KeepLinks d e) :
    KeepLinks d (Device.setTokens e x1 x2) := by
  unfold Device.setTokens
  repeat' with_reducible (first | assumption | (extract_lets +onlyGivenNames zz; first | clear_value zz | skip) | dsimp only | apply KeepLinks.upd | apply KeepLinks.updLane | exact rfl)

theorem Device.giveBack_keepLinks {d : Device} {e : Device} (x1 : Sys2Proof.Machine.Copy) (x2 : Int) (h : KeepLinks d e) :
    KeepLinks d (Device.giveBack e x1 x2) := by
  unfold Device.giveBack
  repeat' with_reducible (first | assumption | (extract_lets +onlyGivenNames zz; first | (refine (fun (hz : KeepLinks d zz) => ?_) ?_; clear_value zz; rotate_left; subst zz) | skip) | apply Device.setTokens_keepLinks | apply Device.addDeficit_keepLinks | split | (apply KeepLinks.foldl; intro _ _ _) | dsimp only | apply KeepLinks.upd | apply KeepLinks.updLane | exact rfl)

theorem Device.correctTo_keepLinks {d : Device} {e : Device} (x1 : Sys2Proof.Machine.Copy) (x2 : Nat) (h : KeepLinks d e) :
    KeepLinks d (Device.correctTo e x1 x2) := by
  unfold Device.correctTo
  repeat' with_reducible (first | assumption | apply Device.giveBack_keepLinks | split | dsimp only | apply KeepLinks.upd | apply KeepLinks.updLane | exact rfl)

theorem Device.countEnq_keepLinks {d : Device} {e : Device} (x1 : Nat) (h : KeepLinks d e) :
    KeepLinks d (Device.countEnq e x1) := by
  unfold Device.countEnq
  repeat' with_reducible (first | assumption | apply Device.queueCount_keepLinks | apply Device.modFrame_keepLinks | split | (apply KeepLinks.foldl; intro _ _ _) | dsimp only | apply KeepLinks.upd | apply KeepLinks.updLane | exact rfl)

theorem Device.countSent_keepLinks {d : Device} {e : Device} (x1 : Nat) (x2 : Nat) (h : KeepLinks d e) :
    KeepLinks d (Device.countSent e x1 x2) := by
  unfold Device.countSent
  repeat' with_reducible (first | assumption | apply Device.queueCount_keepLinks | apply Device.portCount_keepLinks | dsimp only | apply KeepLinks.upd | apply KeepLinks.updLane | exact rfl)

theorem Device.countStomped_keepLinks {d : Device} {e : Device} (x1 : Sys2Proof.Machine.Copy) (x2 : Nat) (h : KeepLinks d e) :
    KeepLinks d (Device.countStomped e x1 x2) := by
  unfold Device.countStomped
  repeat' with_reducible (first | assumption | (extract_lets +onlyGivenNames zz; first | (refine (fun (hz : KeepLinks d zz) => ?_) ?_; clear_value zz; rotate_left; subst zz) | skip) | apply Device.event_keepLinks | apply Device.portCount_keepLinks | apply Device.countSent_keepLinks | split | dsimp only | apply KeepLinks.upd | apply KeepLinks.updLane | exact rfl)

theorem Device.leaveLower_keepLinks {d : Device} {e : Device} (x1 : Sys2Proof.Machine.Copy) (x2 : Nat) (h : KeepLinks d e) :
    KeepLinks d (Device.leaveLower e x1 x2) := by
  unfold Device.leaveLower
  repeat' with_reducible (first | assumption | (extract_lets +onlyGivenNames zz; first | (refine (fun (hz : KeepLinks d zz) => ?_) ?_; clear_value zz; rotate_left; subst zz) | clear_value zz | skip) | apply Device.setQueueSt_keepLinks | apply Device.modCopy_keepLinks | dsimp only | apply KeepLinks.upd | apply KeepLinks.updLane | exact rfl)

theorem Device.noWait_keepLinks {d : Device} {e : Device} (x1 : Nat) (x2 : Nat) (x3 : Nat) (h : KeepLinks d e) :
    KeepLinks d (Device.noWait e x1 x2 x3) := by
  unfold Device.noWait
  repeat' with_reducible (first | assumption | (extract_lets +onlyGivenNames zz; first | clear_value zz | skip) | dsimp only | apply KeepLinks.upd | apply KeepLinks.updLane | exact rfl)

theorem Device.returnCells_keepLinks {d : Device} {e : Device} (x1 : Sys2Proof.Machine.Copy) (x2 : Nat) (h : KeepLinks d e) :
    KeepLinks d (Device.returnCells e x1 x2) := by
  unfold Device.returnCells
  repeat' with_reducible (first | assumption | (extract_lets +onlyGivenNames zz; first | (refine (fun (hz : KeepLinks d zz) => ?_) ?_; clear_value zz; rotate_left; subst zz) | clear_value zz | skip) | apply Device.modCopy_keepLinks | dsimp only | apply KeepLinks.upd | apply KeepLinks.updLane | exact rfl)

theorem Device.freeRead_keepLinks {d : Device} {e : Device} (x1 : Nat) (h : KeepLinks d e) :
    KeepLinks d (Device.freeRead e x1) := by
  unfold Device.freeRead
  repeat' with_reducible (first | assumption | (extract_lets +onlyGivenNames zz; first | (refine (fun (hz : KeepLinks d zz) => ?_) ?_; clear_value zz; rotate_left; subst zz) | clear_value zz | skip) | apply Device.setFrame_keepLinks | apply Device.returnCells_keepLinks | split | (apply KeepLinks.foldl; intro _ _ _) | dsimp only | apply KeepLinks.upd | apply KeepLinks.updLane | exact rfl)

theorem Device.releaseFrame_keepLinks {d : Device} {e : Device} (x1 : Nat) (h : KeepLinks d e) :
    KeepLinks d (Device.releaseFrame e x1) := by
  unfold Device.releaseFrame
  repeat' with_reducible (first | assumption | (extract_lets +onlyGivenNames zz; first | (refine (fun (hz : KeepLinks d zz) => ?_) ?_; clear_value zz; rotate_left; subst zz) | clear_value zz | skip) | apply Device.setFrame_keepLinks | split | dsimp only | apply KeepLinks.upd | apply KeepLinks.updLane | exact rfl)

theorem Device.endCopy_keepLinks {d : Device} {e : Device} (x1 : Nat) (h : KeepLinks d e) :
    KeepLinks d (Device.endCopy e x1) := by
  unfold Device.endCopy
  repeat' with_reducible (first | assumption | (extract_lets +onlyGivenNames zz; first | (refine (fun (hz : KeepLinks d zz) => ?_) ?_; clear_value zz; rotate_left; subst zz) | clear_value zz | skip) | apply Device.leaveLower_keepLinks | apply Device.noWait_keepLinks | apply Device.modPort_keepLinks | apply Device.freeRead_keepLinks | apply Device.releaseFrame_keepLinks | split | dsimp only | apply KeepLinks.upd | apply KeepLinks.updLane | exact rfl)

theorem Device.stompOut_keepLinks {d : Device} {e : Device} (x1 : Sys2Proof.Machine.Copy) (h : KeepLinks d e) :
    KeepLinks d (Device.stompOut e x1) := by
  unfold Device.stompOut
  repeat' with_reducible (first | assumption | apply Device.free_keepLinks | apply Device.send_keepLinks | apply Device.countStomped_keepLinks | apply Device.correctTo_keepLinks | split | (apply KeepLinks.snd2 (by assumption)) | (apply KeepLinks.snd (by assumption)) | (apply KeepLinks.fst (by assumption)) | dsimp only | apply KeepLinks.upd | apply KeepLinks.updLane | exact rfl)

theorem Device.setCache_keepLinks {d : Device} {e : Device} (x1 : Nat) (x2 : List (Nat × Bool)) (h : KeepLinks d e) :
    KeepLinks d (Device.setCache e x1 x2) := by
  unfold Device.setCache
  repeat' with_reducible (first | assumption | (extract_lets +onlyGivenNames zz; first | clear_value zz | skip) | dsimp only | apply KeepLinks.upd | apply KeepLinks.updLane | exact rfl)

theorem Device.flowEnd_keepLinks {d : Device} {e : Device} (x1 : Bool) (x2 : Sys2Proof.Machine.FlowUpd) (h : KeepLinks d e) :
    KeepLinks d (Device.flowEnd e x1 x2) := by
  unfold Device.flowEnd
  repeat' with_reducible (first | assumption | (extract_lets +onlyGivenNames zz; first | clear_value zz | skip) | apply Device.overflowUpd_keepLinks | apply Device.bucketUpd_keepLinks | apply Device.setCache_keepLinks | apply Device.raise_keepLinks | apply Device.count_keepLinks | split | dsimp only | apply KeepLinks.upd | apply KeepLinks.updLane | exact rfl)

theorem Device.flowFinish_keepLinks {d : Device} {e : Device} (x1 : Nat) (x2 : Option Nat) (x3 : Option Nat) (h : KeepLinks d e) :
    KeepLinks d (Device.flowFinish e x1 x2 x3) := by
  unfold Device.flowFinish
  repeat' with_reducible (first | assumption | (extract_lets +onlyGivenNames zz; first | (refine (fun (hz : KeepLinks d zz) => ?_) ?_; clear_value zz; rotate_left; subst zz) | skip) | apply Device.setFrame_keepLinks | apply Device.flowEnd_keepLinks | split | dsimp only | apply KeepLinks.upd | apply KeepLinks.updLane | exact rfl)

theorem Device.flowCopy_keepLinks {d : Device} {e : Device} (x1 : Sys2Proof.Machine.Copy) (x2 : Option Nat) (x3 : Option Nat) (h : KeepLinks d e) :
    KeepLinks d (Device.flowCopy e x1 x2 x3) := by
  unfold Device.flowCopy
  repeat' with_reducible (first | assumption | apply Device.flowFinish_keepLinks | apply Device.modFrame_keepLinks | split | dsimp only | apply KeepLinks.upd | apply KeepLinks.updLane | exact rfl)

theorem Device.stopSending_keepLinks {d : Device} {e : Device} (x1 : Nat) (h : KeepLinks d e) :
    KeepLinks d (Device.stopSending e x1) := by
  unfold Device.stopSending
  repeat' with_reducible (first | assumption | (extract_lets +onlyGivenNames zz; first | (refine (fun (hz : KeepLinks d zz) => ?_) ?_; clear_value zz; rotate_left; subst zz) | clear_value zz | skip) | apply Device.askFc_keepLinks | split | (apply KeepLinks.foldl; intro _ _ _) | dsimp only | apply KeepLinks.upd | apply KeepLinks.updLane | exact rfl)

theorem Device.dropCopy_keepLinks {d : Device} {e : Device} (x1 : Nat) (x2 : Nat) (x3 : Nat) (x4 : Bool) (x5 : Option (Nat × Nat)) (h : KeepLinks d e) :
    KeepLinks d (Device.dropCopy e x1 x2 x3 x4 x5) := by
  unfold Device.dropCopy
  repeat' with_reducible (first | assumption | (extract_lets +onlyGivenNames zz; first | (refine (fun (hz : KeepLinks d zz) => ?_) ?_; clear_value zz; rotate_left; subst zz) | clear_value zz | skip) | apply Device.endCopy_keepLinks | apply Device.stompOut_keepLinks | apply Device.giveBack_keepLinks | apply Device.loseOne_keepLinks | apply Device.flowCopy_keepLinks | apply Device.stopSending_keepLinks | split | dsimp only | apply KeepLinks.upd | apply KeepLinks.updLane | exact rfl)

theorem Device.dropCopies_keepLinks {d : Device} {e : Device} (x1 : Nat) (x2 : Nat) (x3 : Nat) (x4 : Sys2Proof.Machine.Copy → Bool) (h : KeepLinks d e) :
    KeepLinks d (Device.dropCopies e x1 x2 x3 x4) := by
  unfold Device.dropCopies
  repeat' with_reducible (first | assumption | apply Device.dropCopy_keepLinks | (apply KeepLinks.foldl; intro _ _ _) | dsimp only | apply KeepLinks.upd | apply KeepLinks.updLane | exact rfl)

theorem Device.freeStair_keepLinks {d : Device} {e : Device} (x1 : Sys2Proof.Machine.Flight) (x2 : Nat) (h : KeepLinks d e) :
    KeepLinks d (Device.freeStair e x1 x2) := by
  unfold Device.freeStair
  repeat' with_reducible (first | assumption | (extract_lets +onlyGivenNames zz; first | clear_value zz | skip) | split | dsimp only | apply KeepLinks.upd | apply KeepLinks.updLane | exact rfl)

theorem Device.flowOfFlight_keepLinks {d : Device} {e : Device} (x1 : Sys2Proof.Machine.Flight) (h : KeepLinks d e) :
    KeepLinks d (Device.flowOfFlight e x1) := by
  unfold Device.flowOfFlight
  repeat' with_reducible (first | assumption | (extract_lets +onlyGivenNames zz; first | clear_value zz | skip) | apply Device.modFrame_keepLinks | dsimp only | apply KeepLinks.upd | apply KeepLinks.updLane | exact rfl)

theorem Device.endFlight_keepLinks {d : Device} {e : Device} (x1 : Nat) (h : KeepLinks d e) :
    KeepLinks d (Device.endFlight e x1) := by
  unfold Device.endFlight
  repeat' with_reducible (first | assumption | (extract_lets +onlyGivenNames zz; first | clear_value zz | skip) | dsimp only | apply KeepLinks.upd | apply KeepLinks.updLane | exact rfl)

theorem Device.formIngress_keepLinks {d : Device} {e : Device} (x1 : Sys2Proof.Machine.Flight) (h : KeepLinks d e) :
    KeepLinks d (Device.formIngress e x1).1 := by
  unfold Device.formIngress
  repeat' with_reducible (first | assumption | (extract_lets +onlyGivenNames zz; first | clear_value zz | skip) | apply Device.setFrame_keepLinks | split | (apply KeepLinks.snd2 (by assumption)) | (apply KeepLinks.snd (by assumption)) | (apply KeepLinks.fst (by assumption)) | dsimp only | apply KeepLinks.upd | apply KeepLinks.updLane | exact rfl)

theorem Device.ingressMirrors_keepLinks {d : Device} {e : Device} (x1 : Sys2Proof.Machine.Flight) (x2 : Sys2Proof.Machine.Phv) (x3 : Bool) (x4 : Nat) (h : KeepLinks d e) :
    KeepLinks d (Device.ingressMirrors e x1 x2 x3 x4).1 := by
  unfold Device.ingressMirrors
  have : ∀ (l : List Nat) (b : Device × Bool), KeepLinks d b.1 → KeepLinks d (l.foldl (fun (r : Device × Bool) m =>
    match r.1.mirrorOf m with
    | none => r
    | some (q, trunc) =>
      let (d, a) := r.1.admitCopy
        { frame := x1.id, queue := q, kind := .mirror, colour := x1.acts.colour, phv := x2, pass := x1.pass, trunc := trunc,
          gal := x1.gal } r.2 (if r.2 then x4 else 0)
      match a with
      | .copy _ => (d, false)
      | .refused _ => (d, r.2)) b).1 := by
    intro l
    induction l with
    | nil => exact fun _ h => h
    | cons m t ih =>
      intro b hb
      refine ih _ ?_
      dsimp only
      split
      · exact hb
      have k := fun q t => Device.admitCopy_keepLinks { frame := x1.id, queue := q, kind := .mirror, colour := x1.acts.colour, phv := x2, pass := x1.pass, trunc := t, gal := x1.gal } b.2 (if b.2 then x4 else 0) hb
      split <;> exact k _ _
  exact this _ _ h

theorem Device.mirrorEnded_keepLinks {d : Device} {e : Device} (x1 : Sys2Proof.Machine.Flight) (h : KeepLinks d e) :
    KeepLinks d (Device.mirrorEnded e x1) := by
  unfold Device.mirrorEnded
  repeat' with_reducible (first | assumption | apply Device.formIngress_keepLinks | apply Device.ingressMirrors_keepLinks | split | (apply KeepLinks.snd2 (by assumption)) | (apply KeepLinks.snd (by assumption)) | (apply KeepLinks.fst (by assumption)) | dsimp only | apply KeepLinks.upd | apply KeepLinks.updLane | exact rfl)

theorem Device.dropFlight_keepLinks {d : Device} {e : Device} (x1 : Nat) (x2 : Nat) (x3 : Option (Nat × Nat)) (h : KeepLinks d e) :
    KeepLinks d (Device.dropFlight e x1 x2 x3) := by
  unfold Device.dropFlight
  repeat' with_reducible (first | assumption | (extract_lets +onlyGivenNames zz; first | (refine (fun (hz : KeepLinks d zz) => ?_) ?_; clear_value zz; rotate_left; subst zz) | skip) | apply Device.freeStair_keepLinks | apply Device.loseOne_keepLinks | apply Device.flowOfFlight_keepLinks | apply Device.endFlight_keepLinks | apply Device.mirrorEnded_keepLinks | apply Device.flowFinish_keepLinks | apply Device.releaseFrame_keepLinks | split | dsimp only | apply KeepLinks.upd | apply KeepLinks.updLane | exact rfl)

theorem Device.dropTrap_keepLinks {d : Device} {e : Device} (x1 : Sys2Proof.Machine.TrapPkt) (x2 : Nat) (h : KeepLinks d e) :
    KeepLinks d (Device.dropTrap e x1 x2) := by
  unfold Device.dropTrap
  repeat' with_reducible (first | assumption | (extract_lets +onlyGivenNames zz; first | (refine (fun (hz : KeepLinks d zz) => ?_) ?_; clear_value zz; rotate_left; subst zz) | clear_value zz | skip) | apply Device.loseOne_keepLinks | apply Device.flowFinish_keepLinks | apply Device.releaseFrame_keepLinks | split | dsimp only | apply KeepLinks.upd | apply KeepLinks.updLane | exact rfl)

theorem Device.endReceiving_keepLinks {d : Device} {e : Device} (x1 : Nat) (h : KeepLinks d e) :
    KeepLinks d (Device.endReceiving e x1) := by
  unfold Device.endReceiving
  repeat' with_reducible (first | assumption | (extract_lets +onlyGivenNames zz; first | clear_value zz | skip) | dsimp only | apply KeepLinks.upd | apply KeepLinks.updLane | exact rfl)

theorem Device.loseMirrors_keepLinks {d : Device} {e : Device} (x1 : Sys2Proof.Machine.Frame) (x2 : Sys2Proof.Machine.DropInfo) (x3 : List Nat) (h : KeepLinks d e) :
    KeepLinks d (Device.loseMirrors e x1 x2 x3) := by
  unfold Device.loseMirrors
  repeat' with_reducible (first | assumption | apply Device.loseOne_keepLinks | split | (apply KeepLinks.foldl; intro _ _ _) | dsimp only | apply KeepLinks.upd | apply KeepLinks.updLane | exact rfl)

theorem Device.setFlight_keepLinks {d : Device} {e : Device} (x1 : Sys2Proof.Machine.Flight) (h : KeepLinks d e) :
    KeepLinks d (Device.setFlight e x1) := by
  unfold Device.setFlight
  repeat' with_reducible (first | assumption | (extract_lets +onlyGivenNames zz; first | clear_value zz | skip) | split | dsimp only | apply KeepLinks.upd | apply KeepLinks.updLane | exact rfl)

theorem Device.failFlight_keepLinks {d : Device} {e : Device} (x1 : Nat) (x2 : Nat) (h : KeepLinks d e) :
    KeepLinks d (Device.failFlight e x1 x2) := by
  unfold Device.failFlight
  repeat' with_reducible (first | assumption | (extract_lets +onlyGivenNames zz; first | (refine (fun (hz : KeepLinks d zz) => ?_) ?_; clear_value zz; rotate_left; subst zz) | clear_value zz | skip) | apply Device.loseMirrors_keepLinks | apply Device.dropFlight_keepLinks | apply Device.setFlight_keepLinks | split | dsimp only | apply KeepLinks.upd | apply KeepLinks.updLane | exact rfl)

theorem Device.meterCount_keepLinks {d : Device} {e : Device} (x1 : Nat) (x2 : Sys2Proof.Machine.MeterCharge) (x3 : Nat) (h : KeepLinks d e) :
    KeepLinks d (Device.meterCount e x1 x2 x3) := by
  unfold Device.meterCount
  repeat' with_reducible (first | assumption | (extract_lets +onlyGivenNames zz; first | (refine (fun (hz : KeepLinks d zz) => ?_) ?_; clear_value zz; rotate_left; subst zz) | clear_value zz | skip) | apply Device.countN_keepLinks | apply Device.count_keepLinks | split | dsimp only | apply KeepLinks.upd | apply KeepLinks.updLane | exact rfl)

theorem Device.settleMeter_keepLinks {d : Device} {e : Device} (x1 : Nat) (x2 : Nat) (x3 : Sys2Proof.Machine.MeterCharge) (h : KeepLinks d e) :
    KeepLinks d (Device.settleMeter e x1 x2 x3) := by
  unfold Device.settleMeter
  repeat' with_reducible (first | assumption | (extract_lets +onlyGivenNames zz; first | clear_value zz | skip) | apply Device.meterCount_keepLinks | split | dsimp only | apply KeepLinks.upd | apply KeepLinks.updLane | exact rfl)

theorem Device.settleEnd_keepLinks {d : Device} {e : Device} (x1 : Nat) (h : KeepLinks d e) :
    KeepLinks d (Device.settleEnd e x1) := by
  unfold Device.settleEnd
  repeat' with_reducible (first | assumption | (extract_lets +onlyGivenNames zz; first | (refine (fun (hz : KeepLinks d zz) => ?_) ?_; clear_value zz; rotate_left; subst zz) | clear_value zz | skip) | apply Device.settleMeter_keepLinks | apply Device.countN_keepLinks | apply Device.modFrame_keepLinks | apply Device.flowEnd_keepLinks | split | (apply KeepLinks.foldl; intro _ _ _) | dsimp only | apply KeepLinks.upd | apply KeepLinks.updLane | exact rfl)

theorem Device.loseEgMirrors_keepLinks {d : Device} {e : Device} (x1 : Sys2Proof.Machine.Frame) (x2 : Sys2Proof.Machine.Copy) (x3 : Nat) (x4 : Nat) (h : KeepLinks d e) :
    KeepLinks d (Device.loseEgMirrors e x1 x2 x3 x4) := by
  unfold Device.loseEgMirrors
  repeat' with_reducible (first | assumption | apply Device.loseMirrors_keepLinks | dsimp only | apply KeepLinks.upd | apply KeepLinks.updLane | exact rfl)

theorem Device.failFrame_keepLinks {d : Device} {e : Device} (x1 : Nat) (x2 : Nat) (h : KeepLinks d e) :
    KeepLinks d (Device.failFrame e x1 x2) := by
  unfold Device.failFrame
  repeat' with_reducible (first | assumption | (extract_lets +onlyGivenNames zz; first | (refine (fun (hz : KeepLinks d zz) => ?_) ?_; clear_value zz; rotate_left; subst zz) | clear_value zz | skip) | apply Device.endReceiving_keepLinks | apply Device.setFrame_keepLinks | apply Device.settleEnd_keepLinks | apply Device.countEnq_keepLinks | apply Device.loseOne_keepLinks | apply Device.dropTrap_keepLinks | apply Device.failFlight_keepLinks | apply Device.dropCopies_keepLinks | apply Device.loseEgMirrors_keepLinks | apply Device.releaseFrame_keepLinks | split | (apply KeepLinks.foldl; intro _ _ _) | dsimp only | apply KeepLinks.upd | apply KeepLinks.updLane | exact rfl)

theorem Device.setFld_keepLinks {d : Device} {e : Device} (x1 : Nat) (x2 : Sys2Proof.Machine.Fld) (x3 : Nat) (h : KeepLinks d e) :
    KeepLinks d (Device.setFld e x1 x2 x3) := by
  unfold Device.setFld
  repeat' with_reducible (first | assumption | apply Device.setReg_keepLinks | dsimp only | apply KeepLinks.upd | apply KeepLinks.updLane | exact rfl)

theorem Device.setRate_keepLinks {d : Device} {e : Device} (x1 : Nat) (x2 : Nat) (h : KeepLinks d e) :
    KeepLinks d (Device.setRate e x1 x2) := by
  unfold Device.setRate
  repeat' with_reducible (first | assumption | apply Device.setFld_keepLinks | split | (apply KeepLinks.foldl; intro _ _ _) | dsimp only | apply KeepLinks.upd | apply KeepLinks.updLane | exact rfl)

theorem Device.fixRate_keepLinks {d : Device} {e : Device} (x1 : Nat) (h : KeepLinks d e) :
    KeepLinks d (Device.fixRate e x1) := by
  unfold Device.fixRate
  repeat' with_reducible (first | assumption | apply Device.setRate_keepLinks | split | dsimp only | apply KeepLinks.upd | apply KeepLinks.updLane | exact rfl)

theorem Device.flushPort_keepLinks {d : Device} {e : Device} (x1 : Nat) (h : KeepLinks d e) :
    KeepLinks d (Device.flushPort e x1) := by
  unfold Device.flushPort
  repeat' with_reducible (first | assumption | (extract_lets +onlyGivenNames zz; first | (refine (fun (hz : KeepLinks d zz) => ?_) ?_; clear_value zz; rotate_left; subst zz) | skip) | apply Device.queueCount_keepLinks | apply Device.portCount_keepLinks | apply Device.dropCopy_keepLinks | (apply KeepLinks.foldl; intro _ _ _) | dsimp only | apply KeepLinks.upd | apply KeepLinks.updLane | exact rfl)

theorem Device.logFault_keepLinks {d : Device} {e : Device} (x1 : Sys2Proof.Machine.FaultPlace) (x2 : Nat) (x3 : Nat) (x4 : Nat) (h : KeepLinks d e) :
    KeepLinks d (Device.logFault e x1 x2 x3 x4) := by
  unfold Device.logFault
  repeat' with_reducible (first | assumption | (extract_lets +onlyGivenNames zz; first | clear_value zz | skip) | apply Device.raise_keepLinks | split | dsimp only | apply KeepLinks.upd | apply KeepLinks.updLane | exact rfl)

theorem Device.showPort_keepLinks {d : Device} {e : Device} (x1 : Nat) (h : KeepLinks d e) :
    KeepLinks d (Device.showPort e x1) := by
  unfold Device.showPort
  repeat' with_reducible (first | assumption | (extract_lets +onlyGivenNames zz; first | clear_value zz | skip) | apply Device.autoMembers_keepLinks | apply Device.modPort_keepLinks | split | dsimp only | apply KeepLinks.upd | apply KeepLinks.updLane | exact rfl)

theorem Device.portDown_keepLinks {d : Device} {e : Device} (x1 : Nat) (h : KeepLinks d e) :
    KeepLinks d (Device.portDown e x1) := by
  unfold Device.portDown
  repeat' with_reducible (first | assumption | (extract_lets +onlyGivenNames zz; first | (refine (fun (hz : KeepLinks d zz) => ?_) ?_; clear_value zz; rotate_left; subst zz) | skip) | apply Device.modPort_keepLinks | apply Device.flushPort_keepLinks | apply Device.portCount_keepLinks | apply Device.failFrame_keepLinks | apply Device.modBring_keepLinks | apply Device.showPort_keepLinks | split | dsimp only | apply KeepLinks.upd | apply KeepLinks.updLane | exact rfl)

theorem Device.tryStart_keepLinks {d : Device} {e : Device} (x1 : Nat) (h : KeepLinks d e) :
    KeepLinks d (Device.tryStart e x1) := by
  unfold Device.tryStart
  repeat' with_reducible (first | assumption | (extract_lets +onlyGivenNames zz; first | (refine (fun (hz : KeepLinks d zz) => ?_) ?_; clear_value zz; rotate_left; subst zz) | clear_value zz | skip) | apply Device.portTo_keepLinks | apply Device.fixRate_keepLinks | apply Device.modPort_keepLinks | apply Device.beginTrain_keepLinks | apply Device.beginAlign_keepLinks | split | dsimp only | apply KeepLinks.upd | apply KeepLinks.updLane | exact rfl)

theorem Device.restart_keepLinks {d : Device} {e : Device} (x1 : Nat) (h : KeepLinks d e) :
    KeepLinks d (Device.restart e x1) := by
  unfold Device.restart
  repeat' with_reducible (first | assumption | (extract_lets +onlyGivenNames zz; first | (refine (fun (hz : KeepLinks d zz) => ?_) ?_; clear_value zz; rotate_left; subst zz) | clear_value zz | skip) | apply Device.laneTo_keepLinks | apply Device.settleFault_keepLinks | apply Device.tryStart_keepLinks | apply Device.fixRate_keepLinks | apply Device.modBring_keepLinks | split | (apply KeepLinks.foldl; intro _ _ _) | dsimp only | apply KeepLinks.upd | apply KeepLinks.updLane | exact rfl)

theorem Device.retireRecord_keepLinks {d : Device} {e : Device} (x1 : Nat) (x2 : Sys2Proof.Machine.FaultPlace) (x3 : Nat) (h : KeepLinks d e) :
    KeepLinks d (Device.retireRecord e x1 x2 x3) := by
  unfold Device.retireRecord
  repeat' with_reducible (first | assumption | (extract_lets +onlyGivenNames zz; first | (refine (fun (hz : KeepLinks d zz) => ?_) ?_; clear_value zz; rotate_left; subst zz) | clear_value zz | skip) | apply Device.raise_keepLinks | split | dsimp only | apply KeepLinks.upd | apply KeepLinks.updLane | exact rfl)

theorem Device.settlePort_keepLinks {d : Device} {e : Device} (x1 : Nat) (h : KeepLinks d e) :
    KeepLinks d (Device.settlePort e x1) := by
  unfold Device.settlePort
  repeat' with_reducible (first | assumption | (extract_lets +onlyGivenNames zz; first | (refine (fun (hz : KeepLinks d zz) => ?_) ?_; clear_value zz; rotate_left; subst zz) | skip) | apply Device.settleFault_keepLinks | apply Device.modPort_keepLinks | split | dsimp only | apply KeepLinks.upd | apply KeepLinks.updLane | exact rfl)

theorem linkSt_of_lane {d e : Device} (h : e.lane.links = d.lane.links) (j : Nat) : e.linkSt j = d.linkSt j := by
  unfold Device.linkSt
  rw [h]

theorem setLink_at {d : Device} (hw : tabWf (fun _ => ({} : LinkSt)) d.lane.links = true) (k : Nat) (v : LinkSt) :
    (d.setLink k v).linkSt k = v ∧ (∀ j, j ≠ k → (d.setLink k v).linkSt j = d.linkSt j) ∧
      tabWf (fun _ => ({} : LinkSt)) (d.setLink k v).lane.links = true :=
  ⟨tabGet_tabSet_same _ _ hw, fun _ h => tabGet_tabSet_other _ h hw, tabSet_wf _ _ hw⟩

/-- A lane that fails while a spare is free (R90). -/
theorem repairLane_room {d : Device} (hw : tabWf (fun _ => ({} : LinkSt)) d.lane.links = true) {k l j : Nat} (dir ev n : Nat)
    (hr : (d.linkSt k).lanesRetired = false) (hj : freeSpare ((d.linkSt k).repairs dir) = some j) :
    tabWf (fun _ => ({} : LinkSt)) (d.repairLane k dir l ev n).lane.links = true ∧
    (d.repairLane k dir l ev n).linkSt k = (d.linkSt k).move dir j l := by
  unfold Device.repairLane
  extract_lets s
  rw [if_neg (by rw [show s.lanesRetired = false from hr]; decide), show freeSpare (s.repairs dir) = some j from hj]
  have hk := (Device.retireRecord_keepLinks 5 (d2dPlace k dir l) j (Device.logFault_keepLinks (d2dPlace k dir l) ev 5 n
    (KeepLinks.refl (d.setLink k (s.move dir j l))))).1
  obtain ⟨a, -, c⟩ := setLink_at hw k (s.move dir j l)
  exact ⟨by rw [hk]; exact c, (linkSt_of_lane hk k).trans a⟩

theorem foldl_max_eq {l : List Nat} {h : Nat} (hm : h ∈ l) (hle : ∀ t ∈ l, t ≤ h) : l.foldl max 0 = h := by
  have key : ∀ (l : List Nat) (a : Nat), (∀ t ∈ l, t ≤ h) → a ≤ h → (h ∈ l ∨ a = h) → l.foldl max a = h := by
    intro l
    induction l with
    | nil =>
      intro a _ _ k
      rcases k with k | k
      · cases k
      · exact k
    | cons x t ih =>
      intro a hle ha k
      refine ih (max a x) (fun y hy => hle y (List.mem_cons_of_mem _ hy)) (Nat.max_le.2 ⟨ha, hle x List.mem_cons_self⟩) ?_
      rcases k with k | k
      · rcases List.mem_cons.1 k with k | k
        · right
          have := hle x List.mem_cons_self
          omega
        · exact .inl k
      · right
        have := hle x List.mem_cons_self
        omega
  exact key l 0 hle (Nat.zero_le _) (.inl hm)

structure KeepDamp (d e : Device) : Prop where
  level : e.damper.level = d.damper.level
  thermD : e.damper.thermD = d.damper.thermD
  quench : e.damper.quench = d.damper.quench
  quenched : e.damper.quenched = d.damper.quenched
  stroke : e.stroke = d.stroke
  profile : e.profile = d.profile

theorem KeepDamp.refl (d : Device) : KeepDamp d d := ⟨rfl, rfl, rfl, rfl, rfl, rfl⟩
theorem KeepDamp.trans {a b c : Device} (h : KeepDamp a b) (k : KeepDamp b c) : KeepDamp a c := ⟨k.1.trans h.1, k.2.trans h.2, k.3.trans h.3, k.4.trans h.4, k.5.trans h.5, k.6.trans h.6⟩
theorem KeepDamp.foldl {α : Type} {f : Device → α → Device} {d : Device} (l : List α) {e : Device}
    (h : ∀ e x, KeepDamp d e → KeepDamp d (f e x)) (h0 : KeepDamp d e) : KeepDamp d (l.foldl f e) := by
  induction l generalizing e with
  | nil => exact h0
  | cons x t ih => exact ih (h e x h0)
theorem KeepDamp.ite {d a b : Device} {c : Prop} [Decidable c] (ha : KeepDamp d a) (hb : KeepDamp d b) : KeepDamp d (if c then a else b) := by
  by_cases h : c
  · rwa [if_pos h]
  · rwa [if_neg h]
theorem KeepDamp.snd {α : Type} {p : α × Device} {a : α} {d e : Device} (h : p = (a, e)) (k : KeepDamp d p.2) : KeepDamp d e := by rw [h] at k; exact k
theorem KeepDamp.snd2 {α β : Type} {p : α × β × Device} {a : α} {b : β} {d e : Device} (h : p = (a, b, e)) (k : KeepDamp d p.2.2) : KeepDamp d e := by rw [h] at k; exact k
theorem KeepDamp.fst {α : Type} {p : Device × α} {a : α} {d e : Device} (h : p = (e, a)) (k : KeepDamp d p.1) : KeepDamp d e := by rw [h] at k; exact k
theorem KeepDamp.pair {α : Type} {a : α} {d e : Device} (k : KeepDamp d e) : KeepDamp d (a, e).2 := k
theorem KeepDamp.pair1 {α : Type} {a : α} {d e : Device} (k : KeepDamp d e) : KeepDamp d (e, a).1 := k
def KeepDampO (d : Device) (o : Option Device) : Prop := ∀ e, o = some e → KeepDamp d e
theorem KeepDampO.ofNone {d : Device} : KeepDampO d none := fun _ h => nomatch h
theorem KeepDampO.ofSome {d e : Device} (h : KeepDamp d e) : KeepDampO d (some e) := fun _ k => by cases k; exact h
theorem KeepDampO.get {d e : Device} {o : Option Device} (h : o = some e) (k : KeepDampO d o) : KeepDamp d e := k e h
theorem KeepDamp.fstR {α : Type} {p : StageRun × α} {a : α} {d : Device} {e : StageRun} (h : p = (e, a)) (k : KeepDamp d p.1.d) : KeepDamp d e.d := by rw [h] at k; exact k
def KeepDampP {α : Type} (d : Device) (f : α → Device) (o : Option α) : Prop := ∀ a, o = some a → KeepDamp d (f a)
theorem KeepDampP.ofNone {α : Type} {f : α → Device} {d : Device} : KeepDampP d f none := fun _ h => nomatch h
theorem KeepDampP.ofSome {α : Type} {f : α → Device} {d : Device} {a : α} (h : KeepDamp d (f a)) : KeepDampP d f (some a) := fun _ k => by cases k; exact h
theorem KeepDampP.get2 {α : Type} {o : Option (α × Device)} {a : α} {d e : Device} (h : o = some (a, e)) (k : KeepDampP d (·.2) o) : KeepDamp d e := k _ h
theorem KeepDampP.get1 {α : Type} {o : Option (Device × α)} {a : α} {d e : Device} (h : o = some (e, a)) (k : KeepDampP d (·.1) o) : KeepDamp d e := k _ h
theorem KeepDamp.upd {d e : Device} {xdev : DevCtl} {xfile : RegFile} {xgen : GenUnit} {xsnap : SnapUnit} {xbudget : BudgetUnit} {xlane : LaneUnit} {xports : Tab PortSt} {xfft : FftUnit} {xpkt : PacketUnit} {xhall : HallUnit} {xtable : TableUnit} {xbillet : BilletUnit} {xsched : SchedUnit} {xdrops : DropUnit} {xclock : ClockUnit} {xservo : ServoUnit} {xpulse : PulseUnit} {xledger : LedgerUnit} {xtsu : Tab TsuSt} {xtelem : TelemUnit} {xinteg : IntegUnit} {xhost : HostUnit} {xperf : PerfUnit} {xanvil : AnvilUnit} {xras : RasUnit} {xseq : SeqUnit} {xboot : BootUnit} {xmgmt : MgmtUnit} {xsent : List Output} {xfreeCtr : Nat} (h : KeepDamp d e) :
    KeepDamp d (Device.mk xdev e.stroke xfile xgen xsnap xbudget e.profile xlane xports xfft xpkt xhall xtable xbillet xsched xdrops xclock xservo xpulse xledger xtsu e.damper xtelem xinteg xhost xperf xanvil xras xseq xboot xmgmt xsent xfreeCtr) := ⟨h.1, h.2, h.3, h.4, h.5, h.6⟩
theorem KeepDamp.updDamper {d e : Device} {xdev : DevCtl} {xfile : RegFile} {xgen : GenUnit} {xsnap : SnapUnit} {xbudget : BudgetUnit} {xlane : LaneUnit} {xports : Tab PortSt} {xfft : FftUnit} {xpkt : PacketUnit} {xhall : HallUnit} {xtable : TableUnit} {xbillet : BilletUnit} {xsched : SchedUnit} {xdrops : DropUnit} {xclock : ClockUnit} {xservo : ServoUnit} {xpulse : PulseUnit} {xledger : LedgerUnit} {xtsu : Tab TsuSt} {xtelem : TelemUnit} {xinteg : IntegUnit} {xhost : HostUnit} {xperf : PerfUnit} {xanvil : AnvilUnit} {xras : RasUnit} {xseq : SeqUnit} {xboot : BootUnit} {xsent : List Output} {xfreeCtr : Nat} {z : DamperUnit} (h : KeepDamp d e) (hlevel : z.level = e.damper.level) (hthermD : z.thermD = e.damper.thermD) (hquench : z.quench = e.damper.quench) (hquenched : z.quenched = e.damper.quenched) :
    KeepDamp d (Device.mk xdev e.stroke xfile xgen xsnap xbudget e.profile xlane xports xfft xpkt xhall xtable xbillet xsched xdrops xclock xservo xpulse xledger xtsu z xtelem xinteg xhost xperf xanvil xras xseq xboot e.mgmt xsent xfreeCtr) := ⟨hlevel.trans h.1, hthermD.trans h.2, hquench.trans h.3, hquenched.trans h.4, h.5, h.6⟩

theorem Device.countN_keepDamp {d : Device} {e : Device} (x1 : Nat) (x2 : Nat) (h : KeepDamp d e) :
    KeepDamp d (Device.countN e x1 x2) := by
  unfold Device.countN
  repeat' with_reducible (first | assumption | (extract_lets +onlyGivenNames zz; first | clear_value zz | skip) | dsimp only | apply KeepDamp.upd | apply KeepDamp.updDamper | exact rfl)

theorem Device.causeTime_keepDamp {d : Device} {e : Device} (x1 : Nat) (x2 : Nat) (h : KeepDamp d e) :
    KeepDamp d (Device.causeTime e x1 x2) := by
  unfold Device.causeTime
  repeat' with_reducible (first | assumption | (extract_lets +onlyGivenNames zz; first | (refine (fun (hz : KeepDamp d zz) => ?_) ?_; clear_value zz; rotate_left; subst zz) | (have hq : DamperUnit := zz; clear hq; subst zz) | clear_value zz | skip) | apply Device.countN_keepDamp | split | dsimp only | apply KeepDamp.upd | apply KeepDamp.updDamper | exact rfl)

theorem Device.count_keepDamp {d : Device} {e : Device} (x1 : Nat) (h : KeepDamp d e) :
    KeepDamp d (Device.count e x1) := by
  unfold Device.count
  repeat' with_reducible (first | assumption | apply Device.countN_keepDamp | dsimp only | apply KeepDamp.upd | apply KeepDamp.updDamper | exact rfl)

theorem Device.episode_keepDamp {d : Device} {e : Device} (x1 : Nat) (x2 : Nat) (x3 : Nat) (h : KeepDamp d e) :
    KeepDamp d (Device.episode e x1 x2 x3) := by
  unfold Device.episode
  repeat' with_reducible (first | assumption | apply Device.count_keepDamp | split | dsimp only | apply KeepDamp.upd | apply KeepDamp.updDamper | exact rfl)

theorem Device.markSet_keepDamp {d : Device} {e : Device} (x1 : Nat) (x2 : Nat) (h : KeepDamp d e) :
    KeepDamp d (Device.markSet e x1 x2) := by
  unfold Device.markSet
  repeat' with_reducible (first | assumption | (extract_lets +onlyGivenNames zz; first | clear_value zz | skip) | dsimp only | apply KeepDamp.upd | apply KeepDamp.updDamper | exact rfl)

theorem Device.setReg_keepDamp {d : Device} {e : Device} (x1 : Nat) (x2 : Sys2Proof.Word) (h : KeepDamp d e) :
    KeepDamp d (Device.setReg e x1 x2) := by
  unfold Device.setReg
  repeat' with_reducible (first | assumption | (extract_lets +onlyGivenNames zz; first | clear_value zz | skip) | dsimp only | apply KeepDamp.upd | apply KeepDamp.updDamper | exact rfl)

theorem Device.setW1c_keepDamp {d : Device} {e : Device} (x1 : Nat) (x2 : Nat) (h : KeepDamp d e) :
    KeepDamp d (Device.setW1c e x1 x2) := by
  unfold Device.setW1c
  repeat' with_reducible (first | assumption | apply Device.setReg_keepDamp | apply Device.markSet_keepDamp | dsimp only | apply KeepDamp.upd | apply KeepDamp.updDamper | exact rfl)

theorem Device.raise_keepDamp {d : Device} {e : Device} (x1 : Nat) (x2 : Nat) (h : KeepDamp d e) :
    KeepDamp d (Device.raise e x1 x2) := by
  unfold Device.raise
  repeat' with_reducible (first | assumption | (extract_lets +onlyGivenNames zz; first | (refine (fun (hz : KeepDamp d zz) => ?_) ?_; clear_value zz; rotate_left; subst zz) | clear_value zz | skip) | apply Device.setW1c_keepDamp | split | dsimp only | apply KeepDamp.upd | apply KeepDamp.updDamper | exact rfl)

theorem logFault_logged (d : Device) (pl : FaultPlace) (ev ac n : Nat) : (d.logFault pl ev ac n).logged pl ev ac n := by
  refine ⟨if 256 ≤ d.ras.log.length then d.ras.log.drop 1 else d.ras.log,
    beBytes 8 d.strokeNo ++ beBytes 6 (clkSec d.clockNow) ++ beBytes 4 (clkNs d.clockNow), ?_, ?_⟩
  · rfl
  · unfold Device.logFault
    simp only [Device.raise_ras]

structure KeepRas (d e : Device) : Prop where
  log : e.ras.log = d.ras.log
  testing : e.ras.testing = d.ras.testing
  repairs : e.ras.repairs = d.ras.repairs
  lhQuar : e.ras.lhQuar = d.ras.lhQuar
  dev : e.dev = d.dev

theorem KeepRas.refl (d : Device) : KeepRas d d := ⟨rfl, rfl, rfl, rfl, rfl⟩
theorem KeepRas.trans {a b c : Device} (h : KeepRas a b) (k : KeepRas b c) : KeepRas a c := ⟨k.1.trans h.1, k.2.trans h.2, k.3.trans h.3, k.4.trans h.4, k.5.trans h.5⟩
theorem KeepRas.foldl {α : Type} {f : Device → α → Device} {d : Device} (l : List α) {e : Device}
    (h : ∀ e x, KeepRas d e → KeepRas d (f e x)) (h0 : KeepRas d e) : KeepRas d (l.foldl f e) := by
  induction l generalizing e with
  | nil => exact h0
  | cons x t ih => exact ih (h e x h0)
theorem KeepRas.ite {d a b : Device} {c : Prop} [Decidable c] (ha : KeepRas d a) (hb : KeepRas d b) : KeepRas d (if c then a else b) := by
  by_cases h : c
  · rwa [if_pos h]
  · rwa [if_neg h]
theorem KeepRas.snd {α : Type} {p : α × Device} {a : α} {d e : Device} (h : p = (a, e)) (k : KeepRas d p.2) : KeepRas d e := by rw [h] at k; exact k
theorem KeepRas.snd2 {α β : Type} {p : α × β × Device} {a : α} {b : β} {d e : Device} (h : p = (a, b, e)) (k : KeepRas d p.2.2) : KeepRas d e := by rw [h] at k; exact k
theorem KeepRas.fst {α : Type} {p : Device × α} {a : α} {d e : Device} (h : p = (e, a)) (k : KeepRas d p.1) : KeepRas d e := by rw [h] at k; exact k
theorem KeepRas.pair {α : Type} {a : α} {d e : Device} (k : KeepRas d e) : KeepRas d (a, e).2 := k
theorem KeepRas.pair1 {α : Type} {a : α} {d e : Device} (k : KeepRas d e) : KeepRas d (e, a).1 := k
def KeepRasO (d : Device) (o : Option Device) : Prop := ∀ e, o = some e → KeepRas d e
theorem KeepRasO.ofNone {d : Device} : KeepRasO d none := fun _ h => nomatch h
theorem KeepRasO.ofSome {d e : Device} (h : KeepRas d e) : KeepRasO d (some e) := fun _ k => by cases k; exact h
theorem KeepRasO.get {d e : Device} {o : Option Device} (h : o = some e) (k : KeepRasO d o) : KeepRas d e := k e h
theorem KeepRas.fstR {α : Type} {p : StageRun × α} {a : α} {d : Device} {e : StageRun} (h : p = (e, a)) (k : KeepRas d p.1.d) : KeepRas d e.d := by rw [h] at k; exact k
def KeepRasP {α : Type} (d : Device) (f : α → Device) (o : Option α) : Prop := ∀ a, o = some a → KeepRas d (f a)
theorem KeepRasP.ofNone {α : Type} {f : α → Device} {d : Device} : KeepRasP d f none := fun _ h => nomatch h
theorem KeepRasP.ofSome {α : Type} {f : α → Device} {d : Device} {a : α} (h : KeepRas d (f a)) : KeepRasP d f (some a) := fun _ k => by cases k; exact h
theorem KeepRasP.get2 {α : Type} {o : Option (α × Device)} {a : α} {d e : Device} (h : o = some (a, e)) (k : KeepRasP d (·.2) o) : KeepRas d e := k _ h
theorem KeepRasP.get1 {α : Type} {o : Option (Device × α)} {a : α} {d e : Device} (h : o = some (e, a)) (k : KeepRasP d (·.1) o) : KeepRas d e := k _ h
theorem KeepRas.upd {d e : Device} {xstroke : StrokeCtl} {xfile : RegFile} {xgen : GenUnit} {xsnap : SnapUnit} {xbudget : BudgetUnit} {xprofile : ProfileUnit} {xlane : LaneUnit} {xports : Tab PortSt} {xfft : FftUnit} {xpkt : PacketUnit} {xhall : HallUnit} {xtable : TableUnit} {xbillet : BilletUnit} {xsched : SchedUnit} {xdrops : DropUnit} {xclock : ClockUnit} {xservo : ServoUnit} {xpulse : PulseUnit} {xledger : LedgerUnit} {xtsu : Tab TsuSt} {xdamper : DamperUnit} {xtelem : TelemUnit} {xinteg : IntegUnit} {xhost : HostUnit} {xperf : PerfUnit} {xanvil : AnvilUnit} {xseq : SeqUnit} {xboot : BootUnit} {xmgmt : MgmtUnit} {xsent : List Output} {xfreeCtr : Nat} (h : KeepRas d e) :
    KeepRas d (Device.mk e.dev xstroke xfile xgen xsnap xbudget xprofile xlane xports xfft xpkt xhall xtable xbillet xsched xdrops xclock xservo xpulse xledger xtsu xdamper xtelem xinteg xhost xperf xanvil e.ras xseq xboot xmgmt xsent xfreeCtr) := ⟨h.1, h.2, h.3, h.4, h.5⟩
theorem KeepRas.updRas {d e : Device} {xstroke : StrokeCtl} {xfile : RegFile} {xgen : GenUnit} {xsnap : SnapUnit} {xbudget : BudgetUnit} {xprofile : ProfileUnit} {xlane : LaneUnit} {xports : Tab PortSt} {xfft : FftUnit} {xpkt : PacketUnit} {xhall : HallUnit} {xtable : TableUnit} {xbillet : BilletUnit} {xsched : SchedUnit} {xdrops : DropUnit} {xclock : ClockUnit} {xservo : ServoUnit} {xpulse : PulseUnit} {xledger : LedgerUnit} {xtsu : Tab TsuSt} {xdamper : DamperUnit} {xtelem : TelemUnit} {xinteg : IntegUnit} {xhost : HostUnit} {xperf : PerfUnit} {xanvil : AnvilUnit} {xseq : SeqUnit} {xboot : BootUnit} {xsent : List Output} {xfreeCtr : Nat} {z : RasUnit} (h : KeepRas d e) (hlog : z.log = e.ras.log) (htesting : z.testing = e.ras.testing) (hrepairs : z.repairs = e.ras.repairs) (hlhQuar : z.lhQuar = e.ras.lhQuar) :
    KeepRas d (Device.mk e.dev xstroke xfile xgen xsnap xbudget xprofile xlane xports xfft xpkt xhall xtable xbillet xsched xdrops xclock xservo xpulse xledger xtsu xdamper xtelem xinteg xhost xperf xanvil z xseq xboot e.mgmt xsent xfreeCtr) := ⟨hlog.trans h.1, htesting.trans h.2, hrepairs.trans h.3, hlhQuar.trans h.4, h.5⟩

theorem Device.countN_keepRas {d : Device} {e : Device} (x1 : Nat) (x2 : Nat) (h : KeepRas d e) :
    KeepRas d (Device.countN e x1 x2) := by
  unfold Device.countN
  repeat' with_reducible (first | assumption | (extract_lets +onlyGivenNames zz; first | clear_value zz | skip) | dsimp only | apply KeepRas.upd | apply KeepRas.updRas | exact rfl)

theorem Device.count_keepRas {d : Device} {e : Device} (x1 : Nat) (h : KeepRas d e) :
    KeepRas d (Device.count e x1) := by
  unfold Device.count
  repeat' with_reducible (first | assumption | apply Device.countN_keepRas | dsimp only | apply KeepRas.upd | apply KeepRas.updRas | exact rfl)

theorem Device.evict_keepRas {d : Device} {e : Device} (x1 : Sys2Proof.Machine.FaultHist) (h : KeepRas d e) :
    KeepRas d (Device.evict e x1) := by
  unfold Device.evict
  repeat' with_reducible (first | assumption | (extract_lets +onlyGivenNames zz; first | (refine (fun (hz : KeepRas d zz) => ?_) ?_; clear_value zz; rotate_left; subst zz) | clear_value zz | skip) | apply Device.count_keepRas | split | dsimp only | apply KeepRas.upd | apply KeepRas.updRas | exact rfl)

theorem Device.forget_keepRas {d : Device} {e : Device} (x1 : Sys2Proof.Machine.FaultPlace) (h : KeepRas d e) :
    KeepRas d (Device.forget e x1) := by
  unfold Device.forget
  repeat' with_reducible (first | assumption | (extract_lets +onlyGivenNames zz; first | (have hq : RasUnit := zz; clear hq; subst zz) | clear_value zz | skip) | dsimp only | apply KeepRas.upd | apply KeepRas.updRas | exact rfl)

theorem Device.setPoolRow_keepRas {d : Device} {e : Device} (x1 : Nat) (x2 : Nat) (h : KeepRas d e) :
    KeepRas d (Device.setPoolRow e x1 x2) := by
  unfold Device.setPoolRow
  repeat' with_reducible (first | assumption | (extract_lets +onlyGivenNames zz; first | clear_value zz | skip) | dsimp only | apply KeepRas.upd | apply KeepRas.updRas | exact rfl)

theorem Device.freeRow_keepRas {d : Device} {e : Device} (x1 : Nat) (x2 : Nat) (h : KeepRas d e) :
    KeepRas d (Device.freeRow e x1 x2) := by
  unfold Device.freeRow
  repeat' with_reducible (first | assumption | (extract_lets +onlyGivenNames zz; first | clear_value zz | skip) | apply Device.setPoolRow_keepRas | split | (apply KeepRas.foldl; intro _ _ _) | dsimp only | apply KeepRas.upd | apply KeepRas.updRas | exact rfl)

theorem Device.markSet_keepRas {d : Device} {e : Device} (x1 : Nat) (x2 : Nat) (h : KeepRas d e) :
    KeepRas d (Device.markSet e x1 x2) := by
  unfold Device.markSet
  repeat' with_reducible (first | assumption | (extract_lets +onlyGivenNames zz; first | clear_value zz | skip) | dsimp only | apply KeepRas.upd | apply KeepRas.updRas | exact rfl)

theorem Device.setRole_keepRas {d : Device} {e : Device} (x1 : Nat) (x2 : Sys2Proof.Machine.SeqRole) (h : KeepRas d e) :
    KeepRas d (Device.setRole e x1 x2) := by
  unfold Device.setRole
  repeat' with_reducible (first | assumption | (extract_lets +onlyGivenNames zz; first | clear_value zz | skip) | dsimp only | apply KeepRas.upd | apply KeepRas.updRas | exact rfl)

theorem Device.modRole_keepRas {d : Device} {e : Device} (x1 : Nat) (x2 : Sys2Proof.Machine.SeqRole → Sys2Proof.Machine.SeqRole) (h : KeepRas d e) :
    KeepRas d (Device.modRole e x1 x2) := by
  unfold Device.modRole
  repeat' with_reducible (first | assumption | apply Device.setRole_keepRas | dsimp only | apply KeepRas.upd | apply KeepRas.updRas | exact rfl)

theorem Device.setSeq_keepRas {d : Device} {e : Device} (x1 : Nat) (x2 : Sys2Proof.Machine.SeqSt) (h : KeepRas d e) :
    KeepRas d (Device.setSeq e x1 x2) := by
  unfold Device.setSeq
  repeat' with_reducible (first | assumption | (extract_lets +onlyGivenNames zz; first | clear_value zz | skip) | dsimp only | apply KeepRas.upd | apply KeepRas.updRas | exact rfl)

theorem Device.modSeq_keepRas {d : Device} {e : Device} (x1 : Nat) (x2 : Sys2Proof.Machine.SeqSt → Sys2Proof.Machine.SeqSt) (h : KeepRas d e) :
    KeepRas d (Device.modSeq e x1 x2) := by
  unfold Device.modSeq
  repeat' with_reducible (first | assumption | apply Device.setSeq_keepRas | dsimp only | apply KeepRas.upd | apply KeepRas.updRas | exact rfl)

theorem Device.track_keepRas {d : Device} {e : Device} (x1 : Sys2Proof.Machine.FaultPlace) (h : KeepRas d e) :
    KeepRas d (Device.track e x1) := by
  unfold Device.track
  repeat' with_reducible (first | assumption | (extract_lets +onlyGivenNames zz; first | (refine (fun (hz : KeepRas d zz) => ?_) ?_; clear_value zz; rotate_left; subst zz) | (have hq : RasUnit := zz; clear hq; subst zz) | clear_value zz | skip) | apply Device.evict_keepRas | split | (apply KeepRas.foldl; intro _ _ _) | dsimp only | apply KeepRas.upd | apply KeepRas.updRas | exact rfl)

theorem Device.occurrence_keepRas {d : Device} {e : Device} (x1 : Sys2Proof.Machine.FaultPlace) (h : KeepRas d e) :
    KeepRas d (Device.occurrence e x1).2 := by
  unfold Device.occurrence
  repeat' with_reducible (first | assumption | apply Device.track_keepRas | dsimp only | apply KeepRas.upd | apply KeepRas.updRas | exact rfl)

theorem Device.setReg_keepRas {d : Device} {e : Device} (x1 : Nat) (x2 : Sys2Proof.Word) (h : KeepRas d e) :
    KeepRas d (Device.setReg e x1 x2) := by
  unfold Device.setReg
  repeat' with_reducible (first | assumption | (extract_lets +onlyGivenNames zz; first | clear_value zz | skip) | dsimp only | apply KeepRas.upd | apply KeepRas.updRas | exact rfl)

theorem Device.setW1c_keepRas {d : Device} {e : Device} (x1 : Nat) (x2 : Nat) (h : KeepRas d e) :
    KeepRas d (Device.setW1c e x1 x2) := by
  unfold Device.setW1c
  repeat' with_reducible (first | assumption | apply Device.setReg_keepRas | apply Device.markSet_keepRas | dsimp only | apply KeepRas.upd | apply KeepRas.updRas | exact rfl)

theorem Device.raise_keepRas {d : Device} {e : Device} (x1 : Nat) (x2 : Nat) (h : KeepRas d e) :
    KeepRas d (Device.raise e x1 x2) := by
  unfold Device.raise
  repeat' with_reducible (first | assumption | (extract_lets +onlyGivenNames zz; first | (refine (fun (hz : KeepRas d zz) => ?_) ?_; clear_value zz; rotate_left; subst zz) | clear_value zz | skip) | apply Device.setW1c_keepRas | split | dsimp only | apply KeepRas.upd | apply KeepRas.updRas | exact rfl)

theorem Device.setCfg_keepRas {d : Device} {e : Device} (x1 : Nat) (x2 : Sys2Proof.Word) (h : KeepRas d e) :
    KeepRas d (Device.setCfg e x1 x2) := by
  unfold Device.setCfg
  repeat' with_reducible (first | assumption | (extract_lets +onlyGivenNames zz; first | clear_value zz | skip) | split | dsimp only | apply KeepRas.upd | apply KeepRas.updRas | exact rfl)

theorem Device.storeBad_keepRas {d : Device} {e : Device} (x1 : Sys2Proof.Machine.FaultPlace) (h : KeepRas d e) :
    KeepRas d (Device.storeBad e x1) := by
  unfold Device.storeBad
  repeat' with_reducible (first | assumption | (extract_lets +onlyGivenNames zz; first | (refine (fun (hz : KeepRas d zz) => ?_) ?_; clear_value zz; rotate_left; subst zz) | clear_value zz | skip) | apply Device.modSeq_keepRas | apply Device.modRole_keepRas | split | dsimp only | apply KeepRas.upd | apply KeepRas.updRas | exact rfl)

theorem Device.zeroWord_keepRas {d : Device} {e : Device} (x1 : Nat) (x2 : Nat) (h : KeepRas d e) :
    KeepRas d (Device.zeroWord e x1 x2) := by
  unfold Device.zeroWord
  repeat' with_reducible (first | assumption | (extract_lets +onlyGivenNames zz; first | clear_value zz | skip) | apply Device.setCfg_keepRas | split | dsimp only | apply KeepRas.upd | apply KeepRas.updRas | exact rfl)

structure KeepTest (d e : Device) : Prop where
  testing : e.ras.testing = d.ras.testing
  repairs : e.ras.repairs = d.ras.repairs
  lhQuar : e.ras.lhQuar = d.ras.lhQuar
  dev : e.dev = d.dev

theorem KeepTest.refl (d : Device) : KeepTest d d := ⟨rfl, rfl, rfl, rfl⟩
theorem KeepTest.trans {a b c : Device} (h : KeepTest a b) (k : KeepTest b c) : KeepTest a c := ⟨k.1.trans h.1, k.2.trans h.2, k.3.trans h.3, k.4.trans h.4⟩
theorem KeepTest.foldl {α : Type} {f : Device → α → Device} {d : Device} (l : List α) {e : Device}
    (h : ∀ e x, KeepTest d e → KeepTest d (f e x)) (h0 : KeepTest d e) : KeepTest d (l.foldl f e) := by
  induction l generalizing e with
  | nil => exact h0
  | cons x t ih => exact ih (h e x h0)
theorem KeepTest.ite {d a b : Device} {c : Prop} [Decidable c] (ha : KeepTest d a) (hb : KeepTest d b) : KeepTest d (if c then a else b) := by
  by_cases h : c
  · rwa [if_pos h]
  · rwa [if_neg h]
theorem KeepTest.snd {α : Type} {p : α × Device} {a : α} {d e : Device} (h : p = (a, e)) (k : KeepTest d p.2) : KeepTest d e := by rw [h] at k; exact k
theorem KeepTest.snd2 {α β : Type} {p : α × β × Device} {a : α} {b : β} {d e : Device} (h : p = (a, b, e)) (k : KeepTest d p.2.2) : KeepTest d e := by rw [h] at k; exact k
theorem KeepTest.fst {α : Type} {p : Device × α} {a : α} {d e : Device} (h : p = (e, a)) (k : KeepTest d p.1) : KeepTest d e := by rw [h] at k; exact k
theorem KeepTest.pair {α : Type} {a : α} {d e : Device} (k : KeepTest d e) : KeepTest d (a, e).2 := k
theorem KeepTest.pair1 {α : Type} {a : α} {d e : Device} (k : KeepTest d e) : KeepTest d (e, a).1 := k
def KeepTestO (d : Device) (o : Option Device) : Prop := ∀ e, o = some e → KeepTest d e
theorem KeepTestO.ofNone {d : Device} : KeepTestO d none := fun _ h => nomatch h
theorem KeepTestO.ofSome {d e : Device} (h : KeepTest d e) : KeepTestO d (some e) := fun _ k => by cases k; exact h
theorem KeepTestO.get {d e : Device} {o : Option Device} (h : o = some e) (k : KeepTestO d o) : KeepTest d e := k e h
theorem KeepTest.fstR {α : Type} {p : StageRun × α} {a : α} {d : Device} {e : StageRun} (h : p = (e, a)) (k : KeepTest d p.1.d) : KeepTest d e.d := by rw [h] at k; exact k
def KeepTestP {α : Type} (d : Device) (f : α → Device) (o : Option α) : Prop := ∀ a, o = some a → KeepTest d (f a)
theorem KeepTestP.ofNone {α : Type} {f : α → Device} {d : Device} : KeepTestP d f none := fun _ h => nomatch h
theorem KeepTestP.ofSome {α : Type} {f : α → Device} {d : Device} {a : α} (h : KeepTest d (f a)) : KeepTestP d f (some a) := fun _ k => by cases k; exact h
theorem KeepTestP.get2 {α : Type} {o : Option (α × Device)} {a : α} {d e : Device} (h : o = some (a, e)) (k : KeepTestP d (·.2) o) : KeepTest d e := k _ h
theorem KeepTestP.get1 {α : Type} {o : Option (Device × α)} {a : α} {d e : Device} (h : o = some (e, a)) (k : KeepTestP d (·.1) o) : KeepTest d e := k _ h
theorem KeepTest.upd {d e : Device} {xstroke : StrokeCtl} {xfile : RegFile} {xgen : GenUnit} {xsnap : SnapUnit} {xbudget : BudgetUnit} {xprofile : ProfileUnit} {xlane : LaneUnit} {xports : Tab PortSt} {xfft : FftUnit} {xpkt : PacketUnit} {xhall : HallUnit} {xtable : TableUnit} {xbillet : BilletUnit} {xsched : SchedUnit} {xdrops : DropUnit} {xclock : ClockUnit} {xservo : ServoUnit} {xpulse : PulseUnit} {xledger : LedgerUnit} {xtsu : Tab TsuSt} {xdamper : DamperUnit} {xtelem : TelemUnit} {xinteg : IntegUnit} {xhost : HostUnit} {xperf : PerfUnit} {xanvil : AnvilUnit} {xseq : SeqUnit} {xboot : BootUnit} {xmgmt : MgmtUnit} {xsent : List Output} {xfreeCtr : Nat} (h : KeepTest d e) :
    KeepTest d (Device.mk e.dev xstroke xfile xgen xsnap xbudget xprofile xlane xports xfft xpkt xhall xtable xbillet xsched xdrops xclock xservo xpulse xledger xtsu xdamper xtelem xinteg xhost xperf xanvil e.ras xseq xboot xmgmt xsent xfreeCtr) := ⟨h.1, h.2, h.3, h.4⟩
theorem KeepTest.updRas {d e : Device} {xstroke : StrokeCtl} {xfile : RegFile} {xgen : GenUnit} {xsnap : SnapUnit} {xbudget : BudgetUnit} {xprofile : ProfileUnit} {xlane : LaneUnit} {xports : Tab PortSt} {xfft : FftUnit} {xpkt : PacketUnit} {xhall : HallUnit} {xtable : TableUnit} {xbillet : BilletUnit} {xsched : SchedUnit} {xdrops : DropUnit} {xclock : ClockUnit} {xservo : ServoUnit} {xpulse : PulseUnit} {xledger : LedgerUnit} {xtsu : Tab TsuSt} {xdamper : DamperUnit} {xtelem : TelemUnit} {xinteg : IntegUnit} {xhost : HostUnit} {xperf : PerfUnit} {xanvil : AnvilUnit} {xseq : SeqUnit} {xboot : BootUnit} {xsent : List Output} {xfreeCtr : Nat} {z : RasUnit} (h : KeepTest d e) (htesting : z.testing = e.ras.testing) (hrepairs : z.repairs = e.ras.repairs) (hlhQuar : z.lhQuar = e.ras.lhQuar) :
    KeepTest d (Device.mk e.dev xstroke xfile xgen xsnap xbudget xprofile xlane xports xfft xpkt xhall xtable xbillet xsched xdrops xclock xservo xpulse xledger xtsu xdamper xtelem xinteg xhost xperf xanvil z xseq xboot e.mgmt xsent xfreeCtr) := ⟨htesting.trans h.1, hrepairs.trans h.2, hlhQuar.trans h.3, h.4⟩

theorem Device.countN_keepTest {d : Device} {e : Device} (x1 : Nat) (x2 : Nat) (h : KeepTest d e) :
    KeepTest d (Device.countN e x1 x2) := by
  unfold Device.countN
  repeat' with_reducible (first | assumption | (extract_lets +onlyGivenNames zz; first | clear_value zz | skip) | dsimp only | apply KeepTest.upd | apply KeepTest.updRas | exact rfl)

theorem Device.count_keepTest {d : Device} {e : Device} (x1 : Nat) (h : KeepTest d e) :
    KeepTest d (Device.count e x1) := by
  unfold Device.count
  repeat' with_reducible (first | assumption | apply Device.countN_keepTest | dsimp only | apply KeepTest.upd | apply KeepTest.updRas | exact rfl)

theorem Device.noteAdded_keepTest {d : Device} {e : Device} (x1 : Nat) (x2 : Nat) (x3 : Option Sys2Proof.Machine.EvPkt) (h : KeepTest d e) :
    KeepTest d (Device.noteAdded e x1 x2 x3) := by
  unfold Device.noteAdded
  repeat' with_reducible (first | assumption | (extract_lets +onlyGivenNames zz; first | clear_value zz | skip) | dsimp only | apply KeepTest.upd | apply KeepTest.updRas | exact rfl)

theorem Device.setReg_keepTest {d : Device} {e : Device} (x1 : Nat) (x2 : Sys2Proof.Word) (h : KeepTest d e) :
    KeepTest d (Device.setReg e x1 x2) := by
  unfold Device.setReg
  repeat' with_reducible (first | assumption | (extract_lets +onlyGivenNames zz; first | clear_value zz | skip) | dsimp only | apply KeepTest.upd | apply KeepTest.updRas | exact rfl)

theorem Device.markSet_keepTest {d : Device} {e : Device} (x1 : Nat) (x2 : Nat) (h : KeepTest d e) :
    KeepTest d (Device.markSet e x1 x2) := by
  unfold Device.markSet
  repeat' with_reducible (first | assumption | (extract_lets +onlyGivenNames zz; first | clear_value zz | skip) | dsimp only | apply KeepTest.upd | apply KeepTest.updRas | exact rfl)

theorem Device.setW1c_keepTest {d : Device} {e : Device} (x1 : Nat) (x2 : Nat) (h : KeepTest d e) :
    KeepTest d (Device.setW1c e x1 x2) := by
  unfold Device.setW1c
  repeat' with_reducible (first | assumption | apply Device.setReg_keepTest | apply Device.markSet_keepTest | dsimp only | apply KeepTest.upd | apply KeepTest.updRas | exact rfl)

theorem Device.noteWrap_keepTest {d : Device} {e : Device} (x1 : Nat) (x2 : Bool) (x3 : Bool) (x4 : Nat) (h : KeepTest d e) :
    KeepTest d (Device.noteWrap e x1 x2 x3 x4) := by
  unfold Device.noteWrap
  repeat' with_reducible (first | assumption | (extract_lets +onlyGivenNames zz; first | clear_value zz | skip) | dsimp only | apply KeepTest.upd | apply KeepTest.updRas | exact rfl)

theorem Device.raise_keepTest {d : Device} {e : Device} (x1 : Nat) (x2 : Nat) (h : KeepTest d e) :
    KeepTest d (Device.raise e x1 x2) := by
  unfold Device.raise
  repeat' with_reducible (first | assumption | (extract_lets +onlyGivenNames zz; first | (refine (fun (hz : KeepTest d zz) => ?_) ?_; clear_value zz; rotate_left; subst zz) | clear_value zz | skip) | apply Device.setW1c_keepTest | split | dsimp only | apply KeepTest.upd | apply KeepTest.updRas | exact rfl)

theorem Device.pushSample_keepTest {d : Device} {e : Device} (x1 : Nat) (x2 : Sys2Proof.Machine.Sample) (h : KeepTest d e) :
    KeepTest d (Device.pushSample e x1 x2) := by
  unfold Device.pushSample
  repeat' with_reducible (first | assumption | (extract_lets +onlyGivenNames zz; first | (refine (fun (hz : KeepTest d zz) => ?_) ?_; clear_value zz; rotate_left; subst zz) | clear_value zz | skip) | apply Device.raise_keepTest | split | dsimp only | apply KeepTest.upd | apply KeepTest.updRas | exact rfl)

theorem Device.pcAdd_keepTest {d : Device} {e : Device} (x1 : Option Nat) (x2 : Nat) (x3 : Nat) (x4 : Option Sys2Proof.Machine.EvPkt) (x5 : Nat) (h : KeepTest d e) :
    KeepTest d (Device.pcAdd e x1 x2 x3 x4 x5) := by
  unfold Device.pcAdd
  repeat' with_reducible (first | assumption | (extract_lets +onlyGivenNames zz; first | (refine (fun (hz : KeepTest d zz) => ?_) ?_; clear_value zz; rotate_left; subst zz) | clear_value zz | skip) | apply Device.setW1c_keepTest | apply Device.noteWrap_keepTest | apply Device.pushSample_keepTest | split | dsimp only | apply KeepTest.upd | apply KeepTest.updRas | exact rfl)

theorem Device.event_keepTest {d : Device} {e : Device} (x1 : Option Nat) (x2 : Nat) (x3 : Nat) (x4 : Option Nat) (x5 : Sys2Proof.Machine.EvPkt) (h : KeepTest d e) :
    KeepTest d (Device.event e x1 x2 x3 x4 x5) := by
  unfold Device.event
  repeat' with_reducible (first | assumption | (extract_lets +onlyGivenNames zz; first | clear_value zz | skip) | apply Device.noteAdded_keepTest | apply Device.pcAdd_keepTest | split | (apply KeepTest.foldl; intro _ _ _) | dsimp only | apply KeepTest.upd | apply KeepTest.updRas | exact rfl)

theorem Device.evict_keepTest {d : Device} {e : Device} (x1 : Sys2Proof.Machine.FaultHist) (h : KeepTest d e) :
    KeepTest d (Device.evict e x1) := by
  unfold Device.evict
  repeat' with_reducible (first | assumption | (extract_lets +onlyGivenNames zz; first | (refine (fun (hz : KeepTest d zz) => ?_) ?_; clear_value zz; rotate_left; subst zz) | clear_value zz | skip) | apply Device.count_keepTest | split | dsimp only | apply KeepTest.upd | apply KeepTest.updRas | exact rfl)

theorem Device.spend_keepTest {d : Device} {e : Device} (x1 : Nat) (x2 : Nat) (x3 : Nat) (x4 : Nat) (h : KeepTest d e) :
    KeepTest d (Device.spend e x1 x2 x3 x4) := by
  unfold Device.spend
  repeat' with_reducible (first | assumption | (extract_lets +onlyGivenNames zz; first | clear_value zz | skip) | dsimp only | apply KeepTest.upd | apply KeepTest.updRas | exact rfl)

theorem Device.mustWait_keepTest {d : Device} {e : Device} (x1 : Nat) (x2 : Nat) (x3 : Nat) (x4 : Nat) (h : KeepTest d e) :
    KeepTest d (Device.mustWait e x1 x2 x3 x4) := by
  unfold Device.mustWait
  repeat' with_reducible (first | assumption | (extract_lets +onlyGivenNames zz; first | (refine (fun (hz : KeepTest d zz) => ?_) ?_; clear_value zz; rotate_left; subst zz) | clear_value zz | skip) | apply Device.event_keepTest | split | dsimp only | apply KeepTest.upd | apply KeepTest.updRas | exact rfl)

theorem Device.spendPart_keepTest {d : Device} {e : Device} (x1 : Nat) (x2 : Nat) (x3 : Nat) (x4 : Nat) (x5 : Nat) (h : KeepTest d e) :
    KeepTest d (Device.spendPart e x1 x2 x3 x4 x5) := by
  unfold Device.spendPart
  repeat' with_reducible (first | assumption | (extract_lets +onlyGivenNames zz; first | (refine (fun (hz : KeepTest d zz) => ?_) ?_; clear_value zz; rotate_left; subst zz) | clear_value zz | skip) | apply Device.mustWait_keepTest | dsimp only | apply KeepTest.upd | apply KeepTest.updRas | exact rfl)

theorem Device.takePieces_keepTest {d : Device} {e : Device} (x1 : Nat) (x2 : Nat) (x3 : Nat) (x4 : Nat) (x5 : Nat) (h : KeepTest d e) :
    KeepTest d (Device.takePieces e x1 x2 x3 x4 x5).1 := by
  unfold Device.takePieces
  repeat' with_reducible (first | assumption | (extract_lets +onlyGivenNames zz; first | clear_value zz | skip) | apply Device.spend_keepTest | apply Device.spendPart_keepTest | split | (apply KeepTest.snd2 (by assumption)) | (apply KeepTest.snd (by assumption)) | (apply KeepTest.fst (by assumption)) | dsimp only | apply KeepTest.upd | apply KeepTest.updRas | exact rfl)

theorem Device.inPieces_keepTest {d : Device} {e : Device} (x1 : Nat) (x2 : Nat) (x3 : Nat) (x4 : Nat) (h : KeepTest d e) :
    KeepTest d (Device.inPieces e x1 x2 x3 x4).1 := by
  unfold Device.inPieces
  repeat' with_reducible (first | assumption | (extract_lets +onlyGivenNames zz; first | clear_value zz | skip) | apply Device.takePieces_keepTest | split | (apply KeepTest.snd2 (by assumption)) | (apply KeepTest.snd (by assumption)) | (apply KeepTest.fst (by assumption)) | dsimp only | apply KeepTest.upd | apply KeepTest.updRas | exact rfl)

theorem Device.logFault_keepTest {d : Device} {e : Device} (x1 : Sys2Proof.Machine.FaultPlace) (x2 : Nat) (x3 : Nat) (x4 : Nat) (h : KeepTest d e) :
    KeepTest d (Device.logFault e x1 x2 x3 x4) := by
  unfold Device.logFault
  repeat' with_reducible (first | assumption | (extract_lets +onlyGivenNames zz; first | (have hq : RasUnit := zz; clear hq; subst zz) | clear_value zz | skip) | apply Device.raise_keepTest | split | dsimp only | apply KeepTest.upd | apply KeepTest.updRas | exact rfl)

theorem Device.track_keepTest {d : Device} {e : Device} (x1 : Sys2Proof.Machine.FaultPlace) (h : KeepTest d e) :
    KeepTest d (Device.track e x1) := by
  unfold Device.track
  repeat' with_reducible (first | assumption | (extract_lets +onlyGivenNames zz; first | (refine (fun (hz : KeepTest d zz) => ?_) ?_; clear_value zz; rotate_left; subst zz) | (have hq : RasUnit := zz; clear hq; subst zz) | clear_value zz | skip) | apply Device.evict_keepTest | split | (apply KeepTest.foldl; intro _ _ _) | dsimp only | apply KeepTest.upd | apply KeepTest.updRas | exact rfl)

theorem Device.occurrence_keepTest {d : Device} {e : Device} (x1 : Sys2Proof.Machine.FaultPlace) (h : KeepTest d e) :
    KeepTest d (Device.occurrence e x1).2 := by
  unfold Device.occurrence
  repeat' with_reducible (first | assumption | apply Device.track_keepTest | dsimp only | apply KeepTest.upd | apply KeepTest.updRas | exact rfl)

theorem Device.retireRecord_keepTest {d : Device} {e : Device} (x1 : Nat) (x2 : Sys2Proof.Machine.FaultPlace) (x3 : Nat) (h : KeepTest d e) :
    KeepTest d (Device.retireRecord e x1 x2 x3) := by
  unfold Device.retireRecord
  repeat' with_reducible (first | assumption | (extract_lets +onlyGivenNames zz; first | (refine (fun (hz : KeepTest d zz) => ?_) ?_; clear_value zz; rotate_left; subst zz) | (have hq : RasUnit := zz; clear hq; subst zz) | clear_value zz | skip) | apply Device.raise_keepTest | split | dsimp only | apply KeepTest.upd | apply KeepTest.updRas | exact rfl)

structure KeepTests (d e : Device) : Prop where
  testing : e.ras.testing = d.ras.testing

theorem KeepTests.refl (d : Device) : KeepTests d d := ⟨rfl⟩
theorem KeepTests.trans {a b c : Device} (h : KeepTests a b) (k : KeepTests b c) : KeepTests a c := ⟨k.1.trans h.1⟩
theorem KeepTests.foldl {α : Type} {f : Device → α → Device} {d : Device} (l : List α) {e : Device}
    (h : ∀ e x, KeepTests d e → KeepTests d (f e x)) (h0 : KeepTests d e) : KeepTests d (l.foldl f e) := by
  induction l generalizing e with
  | nil => exact h0
  | cons x t ih => exact ih (h e x h0)
theorem KeepTests.ite {d a b : Device} {c : Prop} [Decidable c] (ha : KeepTests d a) (hb : KeepTests d b) : KeepTests d (if c then a else b) := by
  by_cases h : c
  · rwa [if_pos h]
  · rwa [if_neg h]
theorem KeepTests.snd {α : Type} {p : α × Device} {a : α} {d e : Device} (h : p = (a, e)) (k : KeepTests d p.2) : KeepTests d e := by rw [h] at k; exact k
theorem KeepTests.snd2 {α β : Type} {p : α × β × Device} {a : α} {b : β} {d e : Device} (h : p = (a, b, e)) (k : KeepTests d p.2.2) : KeepTests d e := by rw [h] at k; exact k
theorem KeepTests.fst {α : Type} {p : Device × α} {a : α} {d e : Device} (h : p = (e, a)) (k : KeepTests d p.1) : KeepTests d e := by rw [h] at k; exact k
theorem KeepTests.pair {α : Type} {a : α} {d e : Device} (k : KeepTests d e) : KeepTests d (a, e).2 := k
theorem KeepTests.pair1 {α : Type} {a : α} {d e : Device} (k : KeepTests d e) : KeepTests d (e, a).1 := k
def KeepTestsO (d : Device) (o : Option Device) : Prop := ∀ e, o = some e → KeepTests d e
theorem KeepTestsO.ofNone {d : Device} : KeepTestsO d none := fun _ h => nomatch h
theorem KeepTestsO.ofSome {d e : Device} (h : KeepTests d e) : KeepTestsO d (some e) := fun _ k => by cases k; exact h
theorem KeepTestsO.get {d e : Device} {o : Option Device} (h : o = some e) (k : KeepTestsO d o) : KeepTests d e := k e h
theorem KeepTests.fstR {α : Type} {p : StageRun × α} {a : α} {d : Device} {e : StageRun} (h : p = (e, a)) (k : KeepTests d p.1.d) : KeepTests d e.d := by rw [h] at k; exact k
def KeepTestsP {α : Type} (d : Device) (f : α → Device) (o : Option α) : Prop := ∀ a, o = some a → KeepTests d (f a)
theorem KeepTestsP.ofNone {α : Type} {f : α → Device} {d : Device} : KeepTestsP d f none := fun _ h => nomatch h
theorem KeepTestsP.ofSome {α : Type} {f : α → Device} {d : Device} {a : α} (h : KeepTests d (f a)) : KeepTestsP d f (some a) := fun _ k => by cases k; exact h
theorem KeepTestsP.get2 {α : Type} {o : Option (α × Device)} {a : α} {d e : Device} (h : o = some (a, e)) (k : KeepTestsP d (·.2) o) : KeepTests d e := k _ h
theorem KeepTestsP.get1 {α : Type} {o : Option (Device × α)} {a : α} {d e : Device} (h : o = some (e, a)) (k : KeepTestsP d (·.1) o) : KeepTests d e := k _ h
theorem KeepTests.upd {d e : Device} {xdev : DevCtl} {xstroke : StrokeCtl} {xfile : RegFile} {xgen : GenUnit} {xsnap : SnapUnit} {xbudget : BudgetUnit} {xprofile : ProfileUnit} {xlane : LaneUnit} {xports : Tab PortSt} {xfft : FftUnit} {xpkt : PacketUnit} {xhall : HallUnit} {xtable : TableUnit} {xbillet : BilletUnit} {xsched : SchedUnit} {xdrops : DropUnit} {xclock : ClockUnit} {xservo : ServoUnit} {xpulse : PulseUnit} {xledger : LedgerUnit} {xtsu : Tab TsuSt} {xdamper : DamperUnit} {xtelem : TelemUnit} {xinteg : IntegUnit} {xhost : HostUnit} {xperf : PerfUnit} {xanvil : AnvilUnit} {xseq : SeqUnit} {xboot : BootUnit} {xmgmt : MgmtUnit} {xsent : List Output} {xfreeCtr : Nat} (h : KeepTests d e) :
    KeepTests d (Device.mk xdev xstroke xfile xgen xsnap xbudget xprofile xlane xports xfft xpkt xhall xtable xbillet xsched xdrops xclock xservo xpulse xledger xtsu xdamper xtelem xinteg xhost xperf xanvil e.ras xseq xboot xmgmt xsent xfreeCtr) := ⟨h.1⟩
theorem KeepTests.updRas {d e : Device} {xdev : DevCtl} {xstroke : StrokeCtl} {xfile : RegFile} {xgen : GenUnit} {xsnap : SnapUnit} {xbudget : BudgetUnit} {xprofile : ProfileUnit} {xlane : LaneUnit} {xports : Tab PortSt} {xfft : FftUnit} {xpkt : PacketUnit} {xhall : HallUnit} {xtable : TableUnit} {xbillet : BilletUnit} {xsched : SchedUnit} {xdrops : DropUnit} {xclock : ClockUnit} {xservo : ServoUnit} {xpulse : PulseUnit} {xledger : LedgerUnit} {xtsu : Tab TsuSt} {xdamper : DamperUnit} {xtelem : TelemUnit} {xinteg : IntegUnit} {xhost : HostUnit} {xperf : PerfUnit} {xanvil : AnvilUnit} {xseq : SeqUnit} {xboot : BootUnit} {xsent : List Output} {xfreeCtr : Nat} {z : RasUnit} (h : KeepTests d e) (htesting : z.testing = e.ras.testing) :
    KeepTests d (Device.mk xdev xstroke xfile xgen xsnap xbudget xprofile xlane xports xfft xpkt xhall xtable xbillet xsched xdrops xclock xservo xpulse xledger xtsu xdamper xtelem xinteg xhost xperf xanvil z xseq xboot e.mgmt xsent xfreeCtr) := ⟨htesting.trans h.1⟩

theorem Device.bankStart_keepTests {d : Device} {e : Device} (x1 : Nat) (h : KeepTests d e) :
    KeepTests d (Device.bankStart e x1) := by
  unfold Device.bankStart
  repeat' with_reducible (first | assumption | (extract_lets +onlyGivenNames zz; first | clear_value zz | skip) | dsimp only | apply KeepTests.upd | apply KeepTests.updRas | exact rfl)

theorem Device.countN_keepTests {d : Device} {e : Device} (x1 : Nat) (x2 : Nat) (h : KeepTests d e) :
    KeepTests d (Device.countN e x1 x2) := by
  unfold Device.countN
  repeat' with_reducible (first | assumption | (extract_lets +onlyGivenNames zz; first | clear_value zz | skip) | dsimp only | apply KeepTests.upd | apply KeepTests.updRas | exact rfl)

theorem Device.count_keepTests {d : Device} {e : Device} (x1 : Nat) (h : KeepTests d e) :
    KeepTests d (Device.count e x1) := by
  unfold Device.count
  repeat' with_reducible (first | assumption | apply Device.countN_keepTests | dsimp only | apply KeepTests.upd | apply KeepTests.updRas | exact rfl)

theorem Device.evict_keepTests {d : Device} {e : Device} (x1 : Sys2Proof.Machine.FaultHist) (h : KeepTests d e) :
    KeepTests d (Device.evict e x1) := by
  unfold Device.evict
  repeat' with_reducible (first | assumption | (extract_lets +onlyGivenNames zz; first | (refine (fun (hz : KeepTests d zz) => ?_) ?_; clear_value zz; rotate_left; subst zz) | clear_value zz | skip) | apply Device.count_keepTests | split | dsimp only | apply KeepTests.upd | apply KeepTests.updRas | exact rfl)

theorem Device.setReg_keepTests {d : Device} {e : Device} (x1 : Nat) (x2 : Sys2Proof.Word) (h : KeepTests d e) :
    KeepTests d (Device.setReg e x1 x2) := by
  unfold Device.setReg
  repeat' with_reducible (first | assumption | (extract_lets +onlyGivenNames zz; first | clear_value zz | skip) | dsimp only | apply KeepTests.upd | apply KeepTests.updRas | exact rfl)

theorem Device.markSet_keepTests {d : Device} {e : Device} (x1 : Nat) (x2 : Nat) (h : KeepTests d e) :
    KeepTests d (Device.markSet e x1 x2) := by
  unfold Device.markSet
  repeat' with_reducible (first | assumption | (extract_lets +onlyGivenNames zz; first | clear_value zz | skip) | dsimp only | apply KeepTests.upd | apply KeepTests.updRas | exact rfl)

theorem Device.setW1c_keepTests {d : Device} {e : Device} (x1 : Nat) (x2 : Nat) (h : KeepTests d e) :
    KeepTests d (Device.setW1c e x1 x2) := by
  unfold Device.setW1c
  repeat' with_reducible (first | assumption | apply Device.setReg_keepTests | apply Device.markSet_keepTests | dsimp only | apply KeepTests.upd | apply KeepTests.updRas | exact rfl)

theorem Device.raise_keepTests {d : Device} {e : Device} (x1 : Nat) (x2 : Nat) (h : KeepTests d e) :
    KeepTests d (Device.raise e x1 x2) := by
  unfold Device.raise
  repeat' with_reducible (first | assumption | (extract_lets +onlyGivenNames zz; first | (refine (fun (hz : KeepTests d zz) => ?_) ?_; clear_value zz; rotate_left; subst zz) | clear_value zz | skip) | apply Device.setW1c_keepTests | split | dsimp only | apply KeepTests.upd | apply KeepTests.updRas | exact rfl)

theorem Device.logFault_keepTests {d : Device} {e : Device} (x1 : Sys2Proof.Machine.FaultPlace) (x2 : Nat) (x3 : Nat) (x4 : Nat) (h : KeepTests d e) :
    KeepTests d (Device.logFault e x1 x2 x3 x4) := by
  unfold Device.logFault
  repeat' with_reducible (first | assumption | (extract_lets +onlyGivenNames zz; first | (have hq : RasUnit := zz; clear hq; subst zz) | clear_value zz | skip) | apply Device.raise_keepTests | split | dsimp only | apply KeepTests.upd | apply KeepTests.updRas | exact rfl)

theorem Device.fatalNow_keepTests {d : Device} {e : Device} (x1 : Sys2Proof.Machine.FaultPlace) (x2 : Nat) (h : KeepTests d e) :
    KeepTests d (Device.fatalNow e x1 x2) := by
  unfold Device.fatalNow
  repeat' with_reducible (first | assumption | (extract_lets +onlyGivenNames zz; first | (refine (fun (hz : KeepTests d zz) => ?_) ?_; clear_value zz; rotate_left; subst zz) | (have hq : RasUnit := zz; clear hq; subst zz) | clear_value zz | skip) | apply Device.logFault_keepTests | dsimp only | apply KeepTests.upd | apply KeepTests.updRas | exact rfl)

theorem Device.forget_keepTests {d : Device} {e : Device} (x1 : Sys2Proof.Machine.FaultPlace) (h : KeepTests d e) :
    KeepTests d (Device.forget e x1) := by
  unfold Device.forget
  repeat' with_reducible (first | assumption | (extract_lets +onlyGivenNames zz; first | (have hq : RasUnit := zz; clear hq; subst zz) | clear_value zz | skip) | dsimp only | apply KeepTests.upd | apply KeepTests.updRas | exact rfl)

theorem Device.retireRecord_keepTests {d : Device} {e : Device} (x1 : Nat) (x2 : Sys2Proof.Machine.FaultPlace) (x3 : Nat) (h : KeepTests d e) :
    KeepTests d (Device.retireRecord e x1 x2 x3) := by
  unfold Device.retireRecord
  repeat' with_reducible (first | assumption | (extract_lets +onlyGivenNames zz; first | (refine (fun (hz : KeepTests d zz) => ?_) ?_; clear_value zz; rotate_left; subst zz) | (have hq : RasUnit := zz; clear hq; subst zz) | clear_value zz | skip) | apply Device.raise_keepTests | split | dsimp only | apply KeepTests.upd | apply KeepTests.updRas | exact rfl)

theorem Device.lhPermanent_keepTests {d : Device} {e : Device} (x1 : Sys2Proof.Machine.FaultPlace) (x2 : Nat) (x3 : Nat) (x4 : Bool) (h : KeepTests d e) :
    KeepTests d (Device.lhPermanent e x1 x2 x3 x4) := by
  unfold Device.lhPermanent
  repeat' with_reducible (first | assumption | (extract_lets +onlyGivenNames zz; first | (refine (fun (hz : KeepTests d zz) => ?_) ?_; clear_value zz; rotate_left; subst zz) | (have hq : RasUnit := zz; clear hq; subst zz) | clear_value zz | skip) | apply Device.forget_keepTests | apply Device.retireRecord_keepTests | apply Device.logFault_keepTests | apply Device.count_keepTests | apply Device.fatalNow_keepTests | split | dsimp only | apply KeepTests.upd | apply KeepTests.updRas | exact rfl)

theorem Device.track_keepTests {d : Device} {e : Device} (x1 : Sys2Proof.Machine.FaultPlace) (h : KeepTests d e) :
    KeepTests d (Device.track e x1) := by
  unfold Device.track
  repeat' with_reducible (first | assumption | (extract_lets +onlyGivenNames zz; first | (refine (fun (hz : KeepTests d zz) => ?_) ?_; clear_value zz; rotate_left; subst zz) | (have hq : RasUnit := zz; clear hq; subst zz) | clear_value zz | skip) | apply Device.evict_keepTests | split | (apply KeepTests.foldl; intro _ _ _) | dsimp only | apply KeepTests.upd | apply KeepTests.updRas | exact rfl)

theorem Device.occurrence_keepTests {d : Device} {e : Device} (x1 : Sys2Proof.Machine.FaultPlace) (h : KeepTests d e) :
    KeepTests d (Device.occurrence e x1).2 := by
  unfold Device.occurrence
  repeat' with_reducible (first | assumption | apply Device.track_keepTests | dsimp only | apply KeepTests.upd | apply KeepTests.updRas | exact rfl)

theorem Device.repairRow_keepTests {d : Device} {e : Device} (x1 : Sys2Proof.Machine.FaultPlace) (h : KeepTests d e) :
    KeepTestsO d (Device.repairRow e x1) := by
  unfold Device.repairRow
  repeat' with_reducible (first | assumption | (extract_lets +onlyGivenNames zz; first | (have hq : RasUnit := zz; clear hq; subst zz) | clear_value zz | skip) | split | exact KeepTestsO.ofNone | apply KeepTestsO.ofSome | (apply KeepTestsO.get (by assumption)) | dsimp only | apply KeepTests.upd | apply KeepTests.updRas | exact rfl)

theorem Device.retireBank_keepTests {d : Device} {e : Device} (x1 : Nat) (h : KeepTests d e) :
    KeepTests d (Device.retireBank e x1) := by
  unfold Device.retireBank
  repeat' with_reducible (first | assumption | (extract_lets +onlyGivenNames zz; first | (refine (fun (hz : KeepTests d zz) => ?_) ?_; clear_value zz; rotate_left; subst zz) | clear_value zz | skip) | apply Device.bankStart_keepTests | split | dsimp only | apply KeepTests.upd | apply KeepTests.updRas | exact rfl)

theorem Device.retireHallBank_keepTests {d : Device} {e : Device} (x1 : Sys2Proof.Machine.FaultPlace) (x2 : Nat) (x3 : Nat) (h : KeepTests d e) :
    KeepTests d (Device.retireHallBank e x1 x2 x3) := by
  unfold Device.retireHallBank
  repeat' with_reducible (first | assumption | (extract_lets +onlyGivenNames zz; first | (refine (fun (hz : KeepTests d zz) => ?_) ?_; clear_value zz; rotate_left; subst zz) | clear_value zz | skip) | apply Device.logFault_keepTests | apply Device.retireRecord_keepTests | apply Device.retireBank_keepTests | split | dsimp only | apply KeepTests.upd | apply KeepTests.updRas | exact rfl)

theorem Device.rowPermanent_keepTests {d : Device} {e : Device} (x1 : Sys2Proof.Machine.FaultPlace) (x2 : Nat) (x3 : Nat) (h : KeepTests d e) :
    KeepTests d (Device.rowPermanent e x1 x2 x3) := by
  unfold Device.rowPermanent
  repeat' with_reducible (first | assumption | (extract_lets +onlyGivenNames zz; first | (refine (fun (hz : KeepTests d zz) => ?_) ?_; clear_value zz; rotate_left; subst zz) | skip) | apply Device.forget_keepTests | apply Device.repairRow_keepTests | apply Device.logFault_keepTests | apply Device.retireHallBank_keepTests | apply Device.count_keepTests | split | (apply KeepTestsO.get (by assumption)) | dsimp only | apply KeepTests.upd | apply KeepTests.updRas | exact rfl)

structure KeepSwitch (d e : Device) : Prop where
  repairs : e.ras.repairs = d.ras.repairs
  spared : e.ras.spared = d.ras.spared
  dev : e.dev = d.dev

theorem KeepSwitch.refl (d : Device) : KeepSwitch d d := ⟨rfl, rfl, rfl⟩
theorem KeepSwitch.trans {a b c : Device} (h : KeepSwitch a b) (k : KeepSwitch b c) : KeepSwitch a c := ⟨k.1.trans h.1, k.2.trans h.2, k.3.trans h.3⟩
theorem KeepSwitch.foldl {α : Type} {f : Device → α → Device} {d : Device} (l : List α) {e : Device}
    (h : ∀ e x, KeepSwitch d e → KeepSwitch d (f e x)) (h0 : KeepSwitch d e) : KeepSwitch d (l.foldl f e) := by
  induction l generalizing e with
  | nil => exact h0
  | cons x t ih => exact ih (h e x h0)
theorem KeepSwitch.ite {d a b : Device} {c : Prop} [Decidable c] (ha : KeepSwitch d a) (hb : KeepSwitch d b) : KeepSwitch d (if c then a else b) := by
  by_cases h : c
  · rwa [if_pos h]
  · rwa [if_neg h]
theorem KeepSwitch.snd {α : Type} {p : α × Device} {a : α} {d e : Device} (h : p = (a, e)) (k : KeepSwitch d p.2) : KeepSwitch d e := by rw [h] at k; exact k
theorem KeepSwitch.snd2 {α β : Type} {p : α × β × Device} {a : α} {b : β} {d e : Device} (h : p = (a, b, e)) (k : KeepSwitch d p.2.2) : KeepSwitch d e := by rw [h] at k; exact k
theorem KeepSwitch.fst {α : Type} {p : Device × α} {a : α} {d e : Device} (h : p = (e, a)) (k : KeepSwitch d p.1) : KeepSwitch d e := by rw [h] at k; exact k
theorem KeepSwitch.pair {α : Type} {a : α} {d e : Device} (k : KeepSwitch d e) : KeepSwitch d (a, e).2 := k
theorem KeepSwitch.pair1 {α : Type} {a : α} {d e : Device} (k : KeepSwitch d e) : KeepSwitch d (e, a).1 := k
def KeepSwitchO (d : Device) (o : Option Device) : Prop := ∀ e, o = some e → KeepSwitch d e
theorem KeepSwitchO.ofNone {d : Device} : KeepSwitchO d none := fun _ h => nomatch h
theorem KeepSwitchO.ofSome {d e : Device} (h : KeepSwitch d e) : KeepSwitchO d (some e) := fun _ k => by cases k; exact h
theorem KeepSwitchO.get {d e : Device} {o : Option Device} (h : o = some e) (k : KeepSwitchO d o) : KeepSwitch d e := k e h
theorem KeepSwitch.fstR {α : Type} {p : StageRun × α} {a : α} {d : Device} {e : StageRun} (h : p = (e, a)) (k : KeepSwitch d p.1.d) : KeepSwitch d e.d := by rw [h] at k; exact k
def KeepSwitchP {α : Type} (d : Device) (f : α → Device) (o : Option α) : Prop := ∀ a, o = some a → KeepSwitch d (f a)
theorem KeepSwitchP.ofNone {α : Type} {f : α → Device} {d : Device} : KeepSwitchP d f none := fun _ h => nomatch h
theorem KeepSwitchP.ofSome {α : Type} {f : α → Device} {d : Device} {a : α} (h : KeepSwitch d (f a)) : KeepSwitchP d f (some a) := fun _ k => by cases k; exact h
theorem KeepSwitchP.get2 {α : Type} {o : Option (α × Device)} {a : α} {d e : Device} (h : o = some (a, e)) (k : KeepSwitchP d (·.2) o) : KeepSwitch d e := k _ h
theorem KeepSwitchP.get1 {α : Type} {o : Option (Device × α)} {a : α} {d e : Device} (h : o = some (e, a)) (k : KeepSwitchP d (·.1) o) : KeepSwitch d e := k _ h
theorem KeepSwitch.upd {d e : Device} {xstroke : StrokeCtl} {xfile : RegFile} {xgen : GenUnit} {xsnap : SnapUnit} {xbudget : BudgetUnit} {xprofile : ProfileUnit} {xlane : LaneUnit} {xports : Tab PortSt} {xfft : FftUnit} {xpkt : PacketUnit} {xhall : HallUnit} {xtable : TableUnit} {xbillet : BilletUnit} {xsched : SchedUnit} {xdrops : DropUnit} {xclock : ClockUnit} {xservo : ServoUnit} {xpulse : PulseUnit} {xledger : LedgerUnit} {xtsu : Tab TsuSt} {xdamper : DamperUnit} {xtelem : TelemUnit} {xinteg : IntegUnit} {xhost : HostUnit} {xperf : PerfUnit} {xanvil : AnvilUnit} {xseq : SeqUnit} {xboot : BootUnit} {xmgmt : MgmtUnit} {xsent : List Output} {xfreeCtr : Nat} (h : KeepSwitch d e) :
    KeepSwitch d (Device.mk e.dev xstroke xfile xgen xsnap xbudget xprofile xlane xports xfft xpkt xhall xtable xbillet xsched xdrops xclock xservo xpulse xledger xtsu xdamper xtelem xinteg xhost xperf xanvil e.ras xseq xboot xmgmt xsent xfreeCtr) := ⟨h.1, h.2, h.3⟩
theorem KeepSwitch.updRas {d e : Device} {xstroke : StrokeCtl} {xfile : RegFile} {xgen : GenUnit} {xsnap : SnapUnit} {xbudget : BudgetUnit} {xprofile : ProfileUnit} {xlane : LaneUnit} {xports : Tab PortSt} {xfft : FftUnit} {xpkt : PacketUnit} {xhall : HallUnit} {xtable : TableUnit} {xbillet : BilletUnit} {xsched : SchedUnit} {xdrops : DropUnit} {xclock : ClockUnit} {xservo : ServoUnit} {xpulse : PulseUnit} {xledger : LedgerUnit} {xtsu : Tab TsuSt} {xdamper : DamperUnit} {xtelem : TelemUnit} {xinteg : IntegUnit} {xhost : HostUnit} {xperf : PerfUnit} {xanvil : AnvilUnit} {xseq : SeqUnit} {xboot : BootUnit} {xsent : List Output} {xfreeCtr : Nat} {z : RasUnit} (h : KeepSwitch d e) (hrepairs : z.repairs = e.ras.repairs) (hspared : z.spared = e.ras.spared) :
    KeepSwitch d (Device.mk e.dev xstroke xfile xgen xsnap xbudget xprofile xlane xports xfft xpkt xhall xtable xbillet xsched xdrops xclock xservo xpulse xledger xtsu xdamper xtelem xinteg xhost xperf xanvil z xseq xboot e.mgmt xsent xfreeCtr) := ⟨hrepairs.trans h.1, hspared.trans h.2, h.3⟩

theorem Device.countN_keepSwitch {d : Device} {e : Device} (x1 : Nat) (x2 : Nat) (h : KeepSwitch d e) :
    KeepSwitch d (Device.countN e x1 x2) := by
  unfold Device.countN
  repeat' with_reducible (first | assumption | (extract_lets +onlyGivenNames zz; first | clear_value zz | skip) | dsimp only | apply KeepSwitch.upd | apply KeepSwitch.updRas | exact rfl)

theorem Device.count_keepSwitch {d : Device} {e : Device} (x1 : Nat) (h : KeepSwitch d e) :
    KeepSwitch d (Device.count e x1) := by
  unfold Device.count
  repeat' with_reducible (first | assumption | apply Device.countN_keepSwitch | dsimp only | apply KeepSwitch.upd | apply KeepSwitch.updRas | exact rfl)

theorem Device.noteAdded_keepSwitch {d : Device} {e : Device} (x1 : Nat) (x2 : Nat) (x3 : Option Sys2Proof.Machine.EvPkt) (h : KeepSwitch d e) :
    KeepSwitch d (Device.noteAdded e x1 x2 x3) := by
  unfold Device.noteAdded
  repeat' with_reducible (first | assumption | (extract_lets +onlyGivenNames zz; first | clear_value zz | skip) | dsimp only | apply KeepSwitch.upd | apply KeepSwitch.updRas | exact rfl)

theorem Device.setReg_keepSwitch {d : Device} {e : Device} (x1 : Nat) (x2 : Sys2Proof.Word) (h : KeepSwitch d e) :
    KeepSwitch d (Device.setReg e x1 x2) := by
  unfold Device.setReg
  repeat' with_reducible (first | assumption | (extract_lets +onlyGivenNames zz; first | clear_value zz | skip) | dsimp only | apply KeepSwitch.upd | apply KeepSwitch.updRas | exact rfl)

theorem Device.markSet_keepSwitch {d : Device} {e : Device} (x1 : Nat) (x2 : Nat) (h : KeepSwitch d e) :
    KeepSwitch d (Device.markSet e x1 x2) := by
  unfold Device.markSet
  repeat' with_reducible (first | assumption | (extract_lets +onlyGivenNames zz; first | clear_value zz | skip) | dsimp only | apply KeepSwitch.upd | apply KeepSwitch.updRas | exact rfl)

theorem Device.setW1c_keepSwitch {d : Device} {e : Device} (x1 : Nat) (x2 : Nat) (h : KeepSwitch d e) :
    KeepSwitch d (Device.setW1c e x1 x2) := by
  unfold Device.setW1c
  repeat' with_reducible (first | assumption | apply Device.setReg_keepSwitch | apply Device.markSet_keepSwitch | dsimp only | apply KeepSwitch.upd | apply KeepSwitch.updRas | exact rfl)

theorem Device.noteWrap_keepSwitch {d : Device} {e : Device} (x1 : Nat) (x2 : Bool) (x3 : Bool) (x4 : Nat) (h : KeepSwitch d e) :
    KeepSwitch d (Device.noteWrap e x1 x2 x3 x4) := by
  unfold Device.noteWrap
  repeat' with_reducible (first | assumption | (extract_lets +onlyGivenNames zz; first | clear_value zz | skip) | dsimp only | apply KeepSwitch.upd | apply KeepSwitch.updRas | exact rfl)

theorem Device.raise_keepSwitch {d : Device} {e : Device} (x1 : Nat) (x2 : Nat) (h : KeepSwitch d e) :
    KeepSwitch d (Device.raise e x1 x2) := by
  unfold Device.raise
  repeat' with_reducible (first | assumption | (extract_lets +onlyGivenNames zz; first | (refine (fun (hz : KeepSwitch d zz) => ?_) ?_; clear_value zz; rotate_left; subst zz) | clear_value zz | skip) | apply Device.setW1c_keepSwitch | split | dsimp only | apply KeepSwitch.upd | apply KeepSwitch.updRas | exact rfl)

theorem Device.pushSample_keepSwitch {d : Device} {e : Device} (x1 : Nat) (x2 : Sys2Proof.Machine.Sample) (h : KeepSwitch d e) :
    KeepSwitch d (Device.pushSample e x1 x2) := by
  unfold Device.pushSample
  repeat' with_reducible (first | assumption | (extract_lets +onlyGivenNames zz; first | (refine (fun (hz : KeepSwitch d zz) => ?_) ?_; clear_value zz; rotate_left; subst zz) | clear_value zz | skip) | apply Device.raise_keepSwitch | split | dsimp only | apply KeepSwitch.upd | apply KeepSwitch.updRas | exact rfl)

theorem Device.pcAdd_keepSwitch {d : Device} {e : Device} (x1 : Option Nat) (x2 : Nat) (x3 : Nat) (x4 : Option Sys2Proof.Machine.EvPkt) (x5 : Nat) (h : KeepSwitch d e) :
    KeepSwitch d (Device.pcAdd e x1 x2 x3 x4 x5) := by
  unfold Device.pcAdd
  repeat' with_reducible (first | assumption | (extract_lets +onlyGivenNames zz; first | (refine (fun (hz : KeepSwitch d zz) => ?_) ?_; clear_value zz; rotate_left; subst zz) | clear_value zz | skip) | apply Device.setW1c_keepSwitch | apply Device.noteWrap_keepSwitch | apply Device.pushSample_keepSwitch | split | dsimp only | apply KeepSwitch.upd | apply KeepSwitch.updRas | exact rfl)

theorem Device.event_keepSwitch {d : Device} {e : Device} (x1 : Option Nat) (x2 : Nat) (x3 : Nat) (x4 : Option Nat) (x5 : Sys2Proof.Machine.EvPkt) (h : KeepSwitch d e) :
    KeepSwitch d (Device.event e x1 x2 x3 x4 x5) := by
  unfold Device.event
  repeat' with_reducible (first | assumption | (extract_lets +onlyGivenNames zz; first | clear_value zz | skip) | apply Device.noteAdded_keepSwitch | apply Device.pcAdd_keepSwitch | split | (apply KeepSwitch.foldl; intro _ _ _) | dsimp only | apply KeepSwitch.upd | apply KeepSwitch.updRas | exact rfl)

theorem Device.spend_keepSwitch {d : Device} {e : Device} (x1 : Nat) (x2 : Nat) (x3 : Nat) (x4 : Nat) (h : KeepSwitch d e) :
    KeepSwitch d (Device.spend e x1 x2 x3 x4) := by
  unfold Device.spend
  repeat' with_reducible (first | assumption | (extract_lets +onlyGivenNames zz; first | clear_value zz | skip) | dsimp only | apply KeepSwitch.upd | apply KeepSwitch.updRas | exact rfl)

theorem Device.mustWait_keepSwitch {d : Device} {e : Device} (x1 : Nat) (x2 : Nat) (x3 : Nat) (x4 : Nat) (h : KeepSwitch d e) :
    KeepSwitch d (Device.mustWait e x1 x2 x3 x4) := by
  unfold Device.mustWait
  repeat' with_reducible (first | assumption | (extract_lets +onlyGivenNames zz; first | (refine (fun (hz : KeepSwitch d zz) => ?_) ?_; clear_value zz; rotate_left; subst zz) | clear_value zz | skip) | apply Device.event_keepSwitch | split | dsimp only | apply KeepSwitch.upd | apply KeepSwitch.updRas | exact rfl)

theorem Device.spendPart_keepSwitch {d : Device} {e : Device} (x1 : Nat) (x2 : Nat) (x3 : Nat) (x4 : Nat) (x5 : Nat) (h : KeepSwitch d e) :
    KeepSwitch d (Device.spendPart e x1 x2 x3 x4 x5) := by
  unfold Device.spendPart
  repeat' with_reducible (first | assumption | (extract_lets +onlyGivenNames zz; first | (refine (fun (hz : KeepSwitch d zz) => ?_) ?_; clear_value zz; rotate_left; subst zz) | clear_value zz | skip) | apply Device.mustWait_keepSwitch | dsimp only | apply KeepSwitch.upd | apply KeepSwitch.updRas | exact rfl)

theorem Device.takePieces_keepSwitch {d : Device} {e : Device} (x1 : Nat) (x2 : Nat) (x3 : Nat) (x4 : Nat) (x5 : Nat) (h : KeepSwitch d e) :
    KeepSwitch d (Device.takePieces e x1 x2 x3 x4 x5).1 := by
  unfold Device.takePieces
  repeat' with_reducible (first | assumption | (extract_lets +onlyGivenNames zz; first | clear_value zz | skip) | apply Device.spend_keepSwitch | apply Device.spendPart_keepSwitch | split | (apply KeepSwitch.snd2 (by assumption)) | (apply KeepSwitch.snd (by assumption)) | (apply KeepSwitch.fst (by assumption)) | dsimp only | apply KeepSwitch.upd | apply KeepSwitch.updRas | exact rfl)

theorem Device.inPieces_keepSwitch {d : Device} {e : Device} (x1 : Nat) (x2 : Nat) (x3 : Nat) (x4 : Nat) (h : KeepSwitch d e) :
    KeepSwitch d (Device.inPieces e x1 x2 x3 x4).1 := by
  unfold Device.inPieces
  repeat' with_reducible (first | assumption | (extract_lets +onlyGivenNames zz; first | clear_value zz | skip) | apply Device.takePieces_keepSwitch | split | (apply KeepSwitch.snd2 (by assumption)) | (apply KeepSwitch.snd (by assumption)) | (apply KeepSwitch.fst (by assumption)) | dsimp only | apply KeepSwitch.upd | apply KeepSwitch.updRas | exact rfl)

theorem Device.retireRecord_keepSwitch {d : Device} {e : Device} (x1 : Nat) (x2 : Sys2Proof.Machine.FaultPlace) (x3 : Nat) (h : KeepSwitch d e) :
    KeepSwitch d (Device.retireRecord e x1 x2 x3) := by
  unfold Device.retireRecord
  repeat' with_reducible (first | assumption | (extract_lets +onlyGivenNames zz; first | (refine (fun (hz : KeepSwitch d zz) => ?_) ?_; clear_value zz; rotate_left; subst zz) | (have hq : RasUnit := zz; clear hq; subst zz) | clear_value zz | skip) | apply Device.raise_keepSwitch | split | dsimp only | apply KeepSwitch.upd | apply KeepSwitch.updRas | exact rfl)

theorem writeFields_ras (d : Device) (src : Source) (h : RegHit) (a : Nat) (w : Word) : (d.writeFields src h a w).ras = d.ras ∧
    (d.writeFields src h a w).dev = d.dev := by
  obtain ⟨f, i, e⟩ := writeFields_file d src h a w
  rw [e]
  exact ⟨rfl, rfl⟩

theorem readData_shape (d : Device) (src : Source) (v : Nat) : ∃ f, d.readData src v = { d with file := f } ∧ f.latch = d.file.latch := by
  cases src <;> exact ⟨_, rfl, rfl⟩

theorem latched_readData (d : Device) (s src : Source) (v a : Nat) : (d.readData s v).latched src a = d.latched src a := by
  cases s <;> rfl

theorem latched_setLatch_same {d : Device} (hw : tabWf latchReset d.file.latch = true) (src : Source) (a v : Nat) :
    (d.setLatch src a v).latched src a = v := tabGet_tabSet_same _ _ hw

theorem latched_setLatch_other {d : Device} (hw : tabWf latchReset d.file.latch = true) (src : Source) {a b : Nat} (v : Nat)
    (hne : b ≠ a) : (d.setLatch src a v).latched src b = d.latched src b :=
  tabGet_tabSet_other v (by unfold latchKey; split <;> omega) hw

theorem setLatch_wf {d : Device} (hw : tabWf latchReset d.file.latch = true) (src : Source) (a v : Nat) :
    tabWf latchReset (d.setLatch src a v).file.latch = true := tabSet_wf _ _ hw

/-- Three words latched one after the other read back as latched. -/
theorem latchRest_three {d : Device} (hw : tabWf latchReset d.file.latch = true) (src : Source) (a x y z : Nat) :
    (d.latchRest src a [x, y, z]).latched src a = x ∧ (d.latchRest src a [x, y, z]).latched src (a + 4) = y ∧
      (d.latchRest src a [x, y, z]).latched src (a + 8) = z := by
  have e : d.latchRest src a [x, y, z] = ((d.setLatch src a x).setLatch src (a + 4) y).setLatch src (a + 8) z := rfl
  have w1 := setLatch_wf hw src a x
  have w2 := setLatch_wf w1 src (a + 4) y
  rw [e]
  refine ⟨?_, ?_, ?_⟩
  · rw [latched_setLatch_other w2 src z (by omega), latched_setLatch_other w1 src y (by omega), latched_setLatch_same hw]
  · rw [latched_setLatch_other w2 src z (by omega), latched_setLatch_same w1]
  · rw [latched_setLatch_same w2]

theorem busWrite_unmapped {d : Device} {src : Source} {a : Nat} {w : Word} (hg : d.topReachable src) (ha : a % 4 = 0)
    (ht : targetOf a = .unmapped) : busWrite d src a 0xF w = d.err 0 a .unmapped src := by
  rcases hg with hg | hg <;> simp [busWrite, hg, Device.writeReg, wholeWord, ha, ht]

theorem busReadStep_unmapped {d : Device} {src : Source} {a : Nat} (hg : d.topReachable src) (ha : a % 4 = 0)
    (ht : targetOf a = .unmapped) : busReadStep d src a 0xF = (d.err 0 a .unmapped src).readData src 0 := by
  rcases hg with hg | hg <;> cases src <;> simp [busReadStep, Device.busRead, hg, Device.readReg, wholeWord, ha, ht, Device.readData]

end Sys2Proof.Machine
end

