-- ==== Sys2Proof/Tests/Slice0.lean ====
section
/-! SUPPORT. Tests on small states: commands that do not exist are refused, and for every statement with hypotheses a state and
operands that meet them all. -/

set_option Elab.async false

namespace Sys2Proof.Tests
open Sys2Proof Sys2Proof.Machine

/-- A small state: reset, with the device as `f` makes it. -/
def at_ (f : Device → Device) : State := { State.reset with dev := f {} }

/-- The device in state `st`, with PERST_N high. -/
def inState (st : DevState) (d : Device) : Device :=
  { d with dev := { d.dev with state := st }, boot := { d.boot with perstLow := false } }

/-- A block in RUN whose port 0 is enabled with one lane, which is as `l` says, and whose bring-up sequencer runs. -/
def laneDev (l : LaneSt) : Device :=
  inState .run { (({} : Device).setReg (ofPort A.PORT_PT_CFG 0) 1) with
    lane := { lanes := [(0, l)] }
    seq := { seqs := [(0, { st := .running })] } }

theorem witness_queueOk : State.queueOk { State.reset with pending := [.powerUp 3, .strokeBoundary, .devGo .pcie] } = true := by decide
theorem witness_clockStopped : State.reset.dev.clocked = false ∧ (Instr.galleryFence).wf = true ∧
    (Instr.galleryFence).onCoreClock = true := by decide
theorem illFormed_gallery : (Instr.galleryWatchdog 32).wf = false ∧ exec (.galleryWatchdog 32) State.reset = .refused .noSuchCommand :=
  ⟨by decide, rfl⟩

theorem witness_powerUp : ((inState .off {}).dev.state = .off) ∧ (2 < 4) := by decide
theorem witness_supplyOutOfRange : State.reset.dev.dev.state ≠ .off := by decide
theorem witness_resetRelease : State.reset.dev.dev.state = .reset ∧ State.reset.dev.boot.hold = false ∧ 3 < 4 := by decide
theorem witness_resetHoldExpire : (at_ fun d => { d with boot := { d.boot with hold := true } }).dev.dev.state = .reset ∧
    (at_ fun d => { d with boot := { d.boot with hold := true } }).dev.boot.hold = true := by decide
theorem witness_perstFall : (at_ (inState .run)).dev.dev.state ≠ .off ∧ (at_ (inState .run)).dev.dev.state ≠ .reset := by decide

/-- In BOOT, PERST_N high, with what `f` sets. -/
def inBoot (f : BootUnit → BootUnit) : State := at_ fun d => inState .boot { d with boot := f d.boot }

theorem witness_bootSourceAttempt : (inBoot id).dev.dev.state = .boot ∧ (inBoot id).dev.boot.ready = none ∧
    (inBoot id).dev.boot.tried < (inBoot id).dev.bootSlots ∧ (inBoot id).dev.boot.sampling = false ∧ beAt [] 0 4 ≠ 0x4C584249 ∧
    ([] : Bytes).length ≤ 2 ^ 24 ∧ (inBoot fun b => { b with sampling := true }).dev.boot.sampling = true := by decide
theorem witness_bootImageComplete : (inBoot fun b => { b with ready := some ([], true) }).dev.dev.state = .boot ∧
    (inBoot fun b => { b with ready := some ([], true) }).dev.boot.ready = some ([], true) ∧ stacksOk [3] = true ∧
    failedOk [(127, 1, 63)] = true := by decide
/-- In BOOT with the HOST strap, both slots tried. -/
def hostBoot : Device := (inBoot fun b => { b with tried := 2, strap := 2 }).dev
theorem witness_bootDlGo : hostBoot.topReachable .pcie ∧ hostBoot.dev.state = .boot ∧ hostBoot.boot.dl = none ∧
    hostBoot.boot.ready = none ∧ hostBoot.bootSlots ≤ hostBoot.boot.tried ∧ hostBoot.bootHost = true :=
  ⟨.inr rfl, by decide⟩
theorem witness_imageReadTimeout : (inBoot fun b => { b with dl := some { cls := 0 } }).dev.clocked = true ∧
    (inBoot fun b => { b with dl := some { cls := 0 } }).dev.boot.dl = some { cls := 0 } := by decide
theorem witness_devGo : (at_ (inState .config)).dev.reachable .pcie ∧ (at_ (inState .config)).dev.dev.state = .config := ⟨rfl, rfl⟩
theorem witness_devGo_elsewhere : (at_ (inState .run)).dev.topReachable .smbus ∧ (at_ (inState .run)).dev.dev.state ≠ .config :=
  ⟨.inl rfl, by decide⟩
theorem witness_enterRun : (at_ fun d => inState .config { d with dev := { d.dev with goDue := true } }).dev.dev.state = .config ∧
    (at_ fun d => inState .config { d with dev := { d.dev with goDue := true } }).dev.dev.goDue = true ∧
    (at_ fun d => inState .config { d with dev := { d.dev with goDue := true } }).dev.dev.fenceDue = 0#32 := by decide
theorem witness_thermalShutdown : (120 : Int) ≤ 120 ∧ State.reset.dev.dev.state ≠ .off := by decide
theorem witness_coldReset : (at_ (inState .run)).dev.topReachable .pcie := .inl rfl

theorem witness_modesKept : (Instr.devGo .pcie).changesModes = false ∧ ∃ t, exec (.devGo .pcie) (at_ (inState .config)) = .next t :=
  ⟨rfl, _, rfl⟩
theorem witness_deviceStateMoves : ∃ t, exec (.powerUp 0) (at_ (inState .off)) = .next t ∧
    t.dev.dev.state ≠ (at_ (inState .off)).dev.dev.state := ⟨_, rfl, by decide⟩
theorem witness_boundary : (at_ (inState .run)).dev.clocked = true ∧ (at_ (inState .run)).dev.boot.cold = false ∧
    (at_ (inState .run)).dev.boot.warm = false := ⟨rfl, rfl, rfl⟩
theorem witness_boundaryReset : ∃ d : Device, d.clocked = true ∧ d.boot.warm = true ∧ d.boot.cold = false :=
  ⟨{ (inState .run {}) with boot := { perstLow := false, warm := true } }, rfl, rfl, rfl⟩

/-- A device in RUN in which galleries 3 and 5 are asked to be fenced, 5 by hardware. -/
def fencing (d : Device) : Device := inState .run { d with dev := { d.dev with fenceReq := 8#32, hwFence := 32#32, fenceDue := 40#32 } }
theorem witness_galleryFence : (at_ fencing).dev.clocked = true ∧ (at_ fencing).dev.topReachable .smbus := ⟨rfl, .inl rfl⟩
theorem witness_discard : ∃ d : Device, d.clocked = true ∧ d.seqOn 15 = true ∧
    (d.pkt.flights.find? fun x => d.isFenced x.gal).isSome = true ∧ (d.inPieces 0x11 0 (0 + 0) (stairTag 0)).2 = true :=
  ⟨{ (inState .run {}) with
      dev := { (inState .run {}).dev with fenced := 8#32 }
      pkt := { flights := [{ id := 0, gal := 3, src := .port 0, ready := 0 }] }
      seq := { seqs := [(15, { st := .running })] } }, by decide +kernel⟩
theorem witness_watchdog : ∃ d : Device, d.clocked = true ∧ d.watchdogOf 7 = some 9 ∧ d.isFenced 7 = false ∧ bit d.dev.hwFence.toNat 7 = false :=
  ⟨{ (inState .run {}) with ras := { stallGal := [(7, (64, 9))] } }, rfl, rfl, rfl, rfl⟩
theorem witness_parity : (at_ (inState .run)).dev.clocked = true ∧ ((at_ (inState .run)).dev.occurrence ⟨9, 3, 0⟩).1 < 3 := ⟨rfl, by decide⟩
theorem witness_parityThird : ∃ d : Device, d.clocked = true ∧ 3 ≤ (d.occurrence ⟨9, 3, 0⟩).1 ∧ d.isFenced 3 = false ∧ d.ras.fatal = false ∧
    d.ras.fatalPending = false ∧ bit d.dev.hwFence.toNat 3 = false ∧ 3 ≤ (d.occurrence ⟨0xA, 2, 0⟩).1 :=
  ⟨{ (inState .run {}) with ras := { hist := [⟨⟨9, 3, 0⟩, [0, 0]⟩, ⟨⟨0xA, 2, 0⟩, [0, 0]⟩] } }, by decide⟩

/-- A device in RUN with its generation unit as `f` makes it. -/
def genAs (f : GenUnit → GenUnit) (d : Device) : Device := inState .run { d with gen := f d.gen }
theorem witness_flipRequest : (at_ (inState .config)).dev.reachable .pcie ∧ (at_ (inState .config)).dev.gen.state = .steady ∧
    (at_ (inState .config)).dev.profile.staged = (at_ (inState .config)).dev.profile.active := ⟨rfl, rfl, rfl⟩
theorem witness_flipRefused : (at_ (genAs fun g => { g with state := .pending })).dev.reachable .smbus ∧
    (at_ (genAs fun g => { g with state := .draining })).dev.gen.state = .draining := ⟨rfl, rfl⟩
/-- A device in RUN that is to change to profile 1 while the exact-match region still moves. -/
def busyDevice : Device :=
  { (inState .run {}) with
    profile := { staged := 1 }
    table := { replacing := some ⟨2, 12, 0, 5, []⟩ } }
theorem busyDevice_busy : (busyDevice.setReg A.TOP_GEN_CTRL 0).busyRegion.isSome = true := by decide +kernel
theorem witness_flipBusy : busyDevice.reachable .pcie ∧ busyDevice.gen.state = .steady ∧
    ∃ b, (busyDevice.setReg A.TOP_GEN_CTRL 0).busyRegion = some b := ⟨rfl, rfl, Option.isSome_iff_exists.1 busyDevice_busy⟩
theorem witness_genFlip : ∃ d : Device, d.clocked = true ∧ d.gen.flipDue = true ∧ d.dev.fenceDue = 0#32 ∧ d.busyRegion = none :=
  ⟨genAs (fun g => { g with flipDue := true, state := .pending }) {}, rfl, rfl, rfl, rfl⟩
theorem witness_genReclaim : ∃ d : Device, d.clocked = true ∧ d.gen.state = .draining ∧ d.gen.phaseStk ≠ 0 ∧ d.stroke.cyc = 0 ∧
    d.stampInUse d.gen.drain = false :=
  ⟨genAs (fun g => { g with state := .draining, phaseStk := 3 }) {}, rfl, rfl, by decide, rfl, rfl⟩
theorem witness_genResyncEnd : ∃ d : Device, d.clocked = true ∧ d.gen.state = .resync ∧ d.gen.phaseStk ≠ 0 ∧ d.stroke.cyc = 0 :=
  ⟨genAs (fun g => { g with state := .resync, phaseStk := 3 }) {}, rfl, rfl, by decide, rfl⟩
theorem witness_snapshot : ∃ d : Device, d.clocked = true ∧ d.snap.due = true ∧ d.snap.periodDue = true ∧ d.snap.copying = false :=
  ⟨inState .run { snap := { due := true, periodDue := true } }, rfl, rfl, rfl, rfl⟩
theorem witness_snapMerged : ∃ d : Device, d.clocked = true ∧ d.snap.periodDue = true ∧ d.snap.copying = true :=
  ⟨inState .run { snap := { periodDue := true, copying := true } }, rfl, rfl, rfl⟩
theorem witness_freqDown : ∃ d : Device, d.clocked = true ∧ d.stroke.cyc = 0 ∧ d.wantSlow = true ∧ d.damper.slow = false ∧ d.freqMay = true :=
  ⟨inState .run { profile := { active := 7 }, damper := { slow := false } }, by decide⟩
theorem witness_freqUp : ∃ d : Device, d.clocked = true ∧ d.dev.state ≠ .boot ∧ d.stroke.cyc = 0 ∧ d.wantSlow = false ∧ d.damper.slow = true ∧ d.freqMay = true ∧
    d.damper.upFrom.isSome = true ∧ d.damper.vTarget ≤ d.damper.vRead :=
  ⟨inState .run { damper := { slow := true, upFrom := some 0 } }, by decide⟩
theorem witness_avs : ∃ d : Device, d.clocked = true ∧ d.avsOn = true ∧ tabWf regReset d.file.regs = true :=
  ⟨inState .run (({} : Device).setFld A.DAMPER_AVS_CFG F.DAMPER_AVS_CFG_AVS_EN 1), rfl, rfl, by decide +kernel⟩

theorem witness_keyBegin : (at_ (inState .run)).dev.reachable .pcie ∧ (at_ (inState .run)).dev.integ.job = none ∧
    ∀ k ∈ (at_ (inState .run)).dev.selectedSlots ((at_ (inState .run)).dev.reg A.KEYS_KEY_SEL), k < 262144 →
      (at_ (inState .run)).dev.isFenced (k / 8192) = false :=
  ⟨rfl, rfl, by decide +kernel⟩
theorem witness_keyBusy : ∃ d : Device, d.reachable .smbus ∧ d.integ.job.isSome = true :=
  ⟨inState .run { integ := { job := some ⟨[3], none⟩ } }, rfl, rfl⟩
theorem witness_keyFenced : ∃ d : Device, d.reachable .pcie ∧ 0 ∈ d.selectedSlots (d.reg A.KEYS_KEY_SEL) ∧ d.isFenced (0 / 8192) = true :=
  ⟨inState .run { dev := { fenced := 1 } }, rfl, by decide +kernel, rfl⟩
theorem witness_keyCommitPoint : ∃ d : Device, d.clocked = true ∧ d.integ.job = some ⟨[3, 262145], none⟩ ∧ [3, 262145].Nodup ∧
    tabWf (fun _ => {}) d.integ.slots = true :=
  ⟨inState .run { integ := { job := some ⟨[3, 262145], none⟩ } }, rfl, rfl, by decide, rfl⟩
theorem witness_saPnTaken : ∃ d : Device, d.reachable .pcie ∧ d.isFenced 31 = false ∧ d.wordsWhole 31 ∧
    assoc d.file.loHeld (latchKey .pcie (A.INTEG_SA_PN_HI 31 - 4)) = some 7 ∧
    F.INTEG_SA_CFG_DIR.get (d.reg (saReg A.INTEG_SA_CFG 31 (F.INTEG_SA_SEL_SA.get (d.reg (A.INTEG_SA_SEL 31))))) = 0 :=
  ⟨inState .run { file := { loHeld := [(latchKey .pcie (A.INTEG_SA_PN_HI 31 - 4), 7)] } }, rfl, rfl, fun _ => ⟨rfl, rfl⟩,
    by decide +kernel⟩
theorem witness_saPnRefused : ∃ d : Device, d.reachable .pcie ∧
    F.INTEG_SA_CFG_DIR.get (d.reg (saReg A.INTEG_SA_CFG 0 (F.INTEG_SA_SEL_SA.get (d.reg (A.INTEG_SA_SEL 0))))) = 1 ∧
    F.INTEG_SA_CFG_VALID.get (d.reg (saReg A.INTEG_SA_CFG 0 (F.INTEG_SA_SEL_SA.get (d.reg (A.INTEG_SA_SEL 0))))) = 1 ∧
    (d.saSt 0 0).exhausted = false ∧ (d.keySlot 0).seq ≤ (d.saSt 0 0).wrote :=
  ⟨inState .run (({} : Device).setReg (saReg A.INTEG_SA_CFG 0 0) 3), rfl, by decide +kernel⟩

/-- A device in state `st` with TRST_N high. -/
def jtagIn (st : DevState) : Device := inState st { mgmt := { trstLow := false } }
theorem witness_smbus : (at_ (inState .run)).dev.dev.state ≠ .off ∧ (at_ (inState .run)).dev.smbAddress < 128 ∧
    (⟨1, List.replicate 8 0⟩ : SmbBlock).data.length = 8 ∧ (⟨2, List.replicate 4 0⟩ : SmbBlock).data.length = 4 ∧
    (⟨3, true⟩ : SmbRead).cmd = 3#8 ∧ (⟨4, false⟩ : SmbRead).cmd ≠ 3#8 := ⟨by decide, by decide, rfl, rfl, rfl, by decide⟩
theorem witness_smbusPec : (9 : Byte) ≠ BitVec.ofNat 8 (pecOf ([BitVec.ofNat 8 (2 * (at_ id).dev.smbAddress), 1#8, 0#8] ++ [])) ∧
    (9 : Byte) ≠ BitVec.ofNat 8 (pecOf ([BitVec.ofNat 8 (2 * (at_ id).dev.smbAddress), 2#8, 0#8] ++ [])) := by decide +kernel
theorem witness_smbusNak : (inState .run {}).dev.state ≠ .off ∧ ¬((⟨1, []⟩ : SmbBlock).cmd = 1#8 ∧ ([] : Bytes).length = 8) ∧
    ¬((⟨1, []⟩ : SmbBlock).cmd = 2#8 ∧ ([] : Bytes).length = 4) := by decide
theorem witness_jtag : (jtagIn .reset).dev.state = .reset ∧ (jtagIn .run).dev.state ≠ .off ∧ (jtagIn .run).dev.state ≠ .reset ∧
    (jtagIn .run).dev.state ≠ .config ∧ (jtagIn .run).mgmt.trstLow = false := ⟨rfl, by decide, by decide, by decide, rfl⟩
theorem witness_jtagHeld : State.reset.dev.mgmt.trstLow = true ∧ State.reset.dev.mgmt.jtag = .idcode := ⟨rfl, rfl⟩

theorem witness_skid : ∃ d : Device, d.clocked = true ∧ d.isFenced 31 = false ∧ d.isFenced 0 = true ∧ d.perf.skids = [⟨31, 7, 0, 3⟩] ∧
    0 * 256 + 3 + 16 < d.strokeNo * 256 + max d.stroke.cyc 20 ∧ (tabGet (fun _ => ([] : List Sample)) d.perf.fifo 31).length < 16 :=
  ⟨inState .run { dev := { fenced := 1 }, perf := { skids := [⟨31, 7, 0, 3⟩] } }, rfl, rfl, rfl, rfl, by decide +kernel, by decide⟩
theorem witness_cycles : ∃ d : Device, d.clocked = true ∧ d.pcCycles none 15 = true ∧
    tnat d.perf.cycDone (pcWin (pcPage none) 15) ≤ max d.stroke.cyc 255 ∧ tabWf zeroNat d.perf.val = true ∧
    d.pcValue (pcWin (pcPage none) 15) + (max d.stroke.cyc 255 + 1 - tnat d.perf.cycDone (pcWin (pcPage none) 15)) < 2 ^ 48 :=
  ⟨inState .run (({} : Device).setReg (pcWin 0x70000 15) 0x10001), rfl, by decide +kernel⟩
theorem witness_cyclesWrap : ∃ d : Device, d.clocked = true ∧ d.pcCycles (some 31) 7 = true ∧
    bit (d.cfg (pcWin (pcPage (some 31)) 7)).toNat 17 = false ∧ tabWf zeroNat d.perf.val = true ∧
    2 ^ 48 ≤ d.pcValue (pcWin (pcPage (some 31)) 7) + (max d.stroke.cyc 0 + 1 - tnat d.perf.cycDone (pcWin (pcPage (some 31)) 7)) :=
  ⟨inState .run { (({} : Device).setReg (pcWin (pcPage (some 31)) 7) 0x10001) with
      perf := { val := [(pcWin (pcPage (some 31)) 7, 2 ^ 48 - 1)] } }, rfl, by decide +kernel⟩

theorem laneDev_port : (laneDev { st := .up }).clocked = true ∧ lanesWf (laneDev { st := .up }) ∧
    tabWf regReset (laneDev { st := .up }).file.regs = true ∧ (laneDev { st := .up }).portOf 0 = some 0 ∧
    (laneDev { st := .up }).linkSeq 0 = true ∧ (laneDev { st := .up }).portEn 0 = true :=
  ⟨rfl, by unfold lanesWf; decide +kernel, by decide +kernel⟩
theorem witness_wake : ∃ d : Device, d.portOf 0 = some 0 ∧ d.linkSeq 0 = true ∧ (d.laneSt 0).st = .dormant ∧ d.profile.active = 7 :=
  ⟨{ (laneDev { st := .dormant }) with profile := { active := 7 } }, by decide +kernel, by decide +kernel, rfl, rfl⟩
theorem witness_signalLost : ((laneDev { st := .up }).laneSt 0).st = .up ∧ ((laneDev { st := .an }).laneSt 0).st ≠ .up := ⟨rfl, by decide⟩
theorem witness_anPage : ((laneDev { st := .an }).laneSt 0).st = .an ∧
    0 = (laneDev { st := .an }).fld (ofPort A.PORT_PT_CFG 0) F.PORT_PT_CFG_WIDTH ∧ laneRate (3 + 0) 0 = some 3 ∧ Nat.testBit 8 3 = true ∧
    (F.LANE_LN_AN_ADV_RATES.get ((laneDev { st := .an }).reg (ofLane A.LANE_LN_AN_ADV 0))).testBit 3 = true := by decide +kernel
theorem witness_anNoCommon : ∀ q < 4, ¬(Nat.testBit 0 q = true ∧
    (F.LANE_LN_AN_ADV_RATES.get ((laneDev { st := .an }).reg (ofLane A.LANE_LN_AN_ADV 0))).testBit q = true) := fun q _ h => by simp at h
theorem witness_trains : (laneDev { st := .train }).training 0 = true ∧ (laneDev { st := .retrain }).training 0 = true := by decide +kernel
theorem witness_trainTimeout : ∃ d : Device, d.training 0 = true ∧ d.portEn 0 = true ∧ d.linkSeq 0 = true ∧ (d.bring 0).trainBy = some 0 ∧
    d.matured 0 = true :=
  ⟨{ (laneDev { st := .train }) with lane := { lanes := [(0, { st := .train })], bring := [(0, { trainBy := some 0 })] } },
    by decide +kernel, by decide +kernel, by decide +kernel, rfl, by decide +kernel⟩
theorem witness_align : ∀ l ∈ (laneDev { st := .align, blockLock := true }).portLanes 0,
    ((laneDev { st := .align, blockLock := true }).laneSt l).st = .align ∧ ((laneDev { st := .align, blockLock := true }).laneSt l).blockLock = true := by
  decide +kernel
theorem witness_retrain : ∃ d : Device, (d.laneSt 0).st = .up ∧ ((d.atCyc 0).recent 0).length < 2 ∧ (d.port 0).fecInUse ≠ 0 ∧
    F.LANE_LN_BRINGUP_RETRAIN_UNC.get (d.bringReg 0) < 255 ∧ 0 < F.LANE_LN_BRINGUP_SNR_MIN.get (d.bringReg 0) ∧
    ¬255 < F.LANE_LN_BRINGUP_SNR_MIN.get (d.bringReg 0) :=
  ⟨{ (laneDev { st := .up }) with ports := [(0, { fecInUse := 1 })] }, by decide +kernel⟩
theorem witness_retire : ((laneDev { st := .up, charges := [0, 0] }).laneSt 0).st = .up ∧
    2 ≤ (((laneDev { st := .up, charges := [0, 0] }).atCyc 255).recent 0).length := by decide +kernel
theorem witness_refLost : ((laneDev { st := .up }).laneSt 0).free = true ∧ (laneDev { st := .up }).isFenced (0 / 32) = false ∧
    ((laneDev { st := .up }).laneSt 0).st ≠ .disabled := by decide
theorem witness_refRestored : bit ({} : Device).lane.refBad 7 = false ∧ ∃ d : Device, bit d.lane.refBad 7 = true :=
  ⟨rfl, { lane := { refBad := 128 } }, rfl⟩

theorem witness_laneCtl : (laneDev { st := .up }).reachable .pcie ∧ ((laneDev { st := .up }).laneSt 0).free = true ∧
    (laneDev { st := .up }).isFenced (0 / 32) = false ∧ bit (laneDev { st := .up }).lane.refBad (0 / 128) = false ∧
    ((laneDev { st := .test }).laneSt 0).st = .test ∧ ((laneDev { st := .up }).laneSt 0).st ≠ .test := ⟨rfl, by decide⟩
/-- A port of four lanes, in profile 7 with its link down. -/
def wideDev (l : LaneSt) (b : BringUp) (bring : Word) : Device :=
  inState .run { ((({} : Device).setReg (ofPort A.PORT_PT_CFG 0) 5).setReg (ofLane A.LANE_LN_BRINGUP 0) bring) with
    profile := { active := 7 }
    clock := { stepFree := 65536 * 1000000000 * 2 ^ 48 }
    lane := { lanes := [(0, l)], bring := [(0, b)] }
    seq := { seqs := [(0, { st := .running })] } }
theorem wideDev_quiet : (∀ l ∈ (wideDev { st := .up } {} 0).portLanes 0,
      ((wideDev { st := .up } {} 0).laneSt l).sigIn ≠ (wideDev { st := .up } {} 0).strokeNo + 1) ∧
    bit (wideDev { st := .up } {} 0).lane.refBad (0 / 128) = false ∧ (wideDev { st := .up } {} 0).isFenced (0 / 32) = false ∧
    (wideDev { st := .an } {} 0).isDormant 0 = false := by decide +kernel
theorem witness_dormantReq : (wideDev { st := .up } {} 0).reachable .pcie ∧ (wideDev { st := .up } {} 0).innerLane 0 = false ∧
    ((wideDev { st := .up } {} 0).laneSt 0).st ≠ .retired ∧ 4 ≤ (wideDev { st := .up } {} 0).portWidth 0 ∧
    (wideDev { st := .up } {} 0).portEn 0 = true ∧
    F.LANE_LN_BRINGUP_DORMANT_REQ.get ((wideDev { st := .up } {} 0).reg (ofLane A.LANE_LN_BRINGUP 0)) = 0 :=
  ⟨rfl, by decide +kernel, by decide, by decide +kernel⟩
theorem witness_dormantNarrow : (laneDev {}).portWidth 0 < 4 ∧ (laneDev {}).innerLane 0 = false := by decide +kernel
theorem witness_dormantRelease : ((wideDev { st := .dormant } {} 8).laneSt 0).st = .dormant ∧
    F.LANE_LN_BRINGUP_DORMANT_REQ.get ((wideDev { st := .dormant } {} 8).reg (ofLane A.LANE_LN_BRINGUP 0)) = 1 := by decide +kernel
theorem witness_p7 : (wideDev { st := .an } {} 0).linkSeq 0 = true ∧ ((wideDev { st := .an } {} 0).port 0).up = false ∧
    ((wideDev { st := .an } {} 0).bring 0).wokeAt = none ∧
    (wideDev { st := .an } {} 0).matured (((wideDev { st := .an } {} 0).bring 0).downSince + secT 1) = true ∧
    ((wideDev { st := .an } { wokeAt := some 0 } 0).bring 0).wokeAt = some 0 := by decide +kernel
theorem witness_prbs : ∃ d : Device, d.clocked = true ∧ d.checking 0 = true ∧ (d.laneSt 0).prbsLock = true ∧ 64 < 65 ∧ ¬64 < 64 :=
  ⟨{ (laneDev { st := .test, prbsLock := true }) with
      file := ((laneDev { st := .test }).setReg (ofLane A.LANE_LN_PRBS 0) 0x200).file }, by decide +kernel⟩
theorem witness_inject : F.LANE_LN_INJ_KIND.get 1 ≠ 0 ∧ F.LANE_LN_INJ_PERIODIC.get 1 = 0 ∧ F.LANE_LN_INJ_PERIODIC.get 0x801 = 1 ∧
    ((laneDev { st := .up }).laneSt 0).injPending = false ∧ ((laneDev { injNext := some 0 }).laneSt 0).injNext = some 0 ∧
    (laneDev { injNext := some 0 }).matured 0 = true := by decide +kernel

theorem witness_portEnable : ∃ d : Device, d.reachable .pcie ∧ d.isFenced 0 = false ∧ d.innerLane 0 = false ∧
    tabWf regReset d.file.regs = true ∧ F.PORT_PT_CFG_EN.get (d.reg (ofPort A.PORT_PT_CFG 0)) = 0 ∧
    d.portCfgOk 0 (F.PORT_PT_CFG_EN.put 0 1 &&& 0x1FFF#32) = true ∧ d.portCfgOk 0 (F.PORT_PT_CFG_EN.put 6 1 &&& 0x1FFF#32) = false :=
  ⟨inState .run {}, rfl, by decide +kernel⟩
theorem witness_portDisable : tabWf regReset (laneDev { st := .up }).file.regs = true ∧ portsWf (laneDev { st := .up }) ∧
    assoc (laneDev { st := .up }).file.held (ofPort A.PORT_PT_CFG 0) = none ∧
    F.PORT_PT_CFG_EN.get ((laneDev { st := .up }).reg (ofPort A.PORT_PT_CFG 0)) = 1 ∧ 0 ∈ (laneDev { st := .up }).portLanes 0 :=
  ⟨by decide +kernel, by unfold portsWf; decide +kernel, rfl, by decide +kernel⟩
theorem witness_portUp : ((laneDev { st := .up }).port 0).up = false ∧ (laneDev { st := .up }).portEn 0 = true ∧
    (laneDev { st := .up }).isFenced 0 = false ∧ (laneDev { st := .up }).lanesUp 0 = true := by decide +kernel
/-- A block in RUN whose port 0 is up, with flow control of kind `m`. -/
def upPort (m : Word) (s : PortSt) : Device :=
  inState .run { (({} : Device).setReg (ofPort A.PORT_PT_CFG 0) (1 + m * 0x800)) with
    clock := { stepFree := 65536 * 1000000000 * 2 ^ 48 }
    ports := [(0, s)] }
theorem witness_flow : portsWf (upPort 2 { up := true, xoff := 1 }) ∧ ((upPort 2 { up := true, xoff := 1 }).port 0).up = true ∧
    (upPort 2 { up := true }).fcMode 0 = 2 ∧ (upPort 1 { up := true }).fcMode 0 = 1 ∧ (upPort 0 { up := true }).fcMode 0 = 0 ∧
    bit ((upPort 2 { up := true, xoff := 1 }).port 0).xoff 0 = true ∧ (upPort 2 { up := true, xoff := 1, xoffAt := [(0, 0)] }).xoffDue 0 0 = true ∧
    ((upPort 1 { up := true, xoff := 1 }).port 0).xoff ≠ 0 ∧ (upPort 1 { up := true, xoff := 1, xoffAt := [(8, 0)] }).xoffDue 0 8 = true ∧
    ((upPort 2 { up := true, xoff := 1 }).pkt.sending.any fun e => e.1 = 0) = false :=
  ⟨by unfold portsWf; decide +kernel, by decide +kernel⟩

theorem witness_delay : ∃ d : Device, portsWf d ∧ d.clocked = true ∧ (d.port 0).up = true ∧ (d.port 0).pdelayNext = some 0 ∧
    d.matured 0 = true ∧ (d.port 0).pdelayOpen = some (0, 5) ∧ F.INTEG_P_CFG_TX_EN.get (d.integCfg 0) = 0 ∧
    d.fld (ofPort A.PORT_PT_DELAY_CFG 0) F.PORT_PT_DELAY_CFG_EXCH_EN ≠ 0 ∧ ((d.port 1).pdelayOpen ≠ some (0, 5)) :=
  ⟨inState .run { (({} : Device).setReg (ofPort A.PORT_PT_DELAY_CFG 0) 0xFFFFFFFF) with
      ports := [(0, { up := true, pdelayNext := some 0, pdelayOpen := some (0, 5) })] },
    by unfold portsWf; decide +kernel, by decide +kernel⟩
theorem witness_lpi : ∃ d : Device, (d.port 0).up = true ∧ (d.port 0).lpiTxAt = none ∧
    d.fld (ofPort A.PORT_PT_CFG 0) F.PORT_PT_CFG_LPI_EN = 1 ∧ d.queuesEmpty 0 = true ∧ d.lanesUp 0 = true ∧ (d.port 0).fcEn = 0 ∧
    d.matured ((d.port 0).idleSince + usT (d.lpiIdle 0)) = true ∧ d.xoffPris 0 = (d.port 0).xoff :=
  ⟨inState .run { (({} : Device).setReg (ofPort A.PORT_PT_CFG 0) 0x401) with
      clock := { stepFree := 65536 * 1000000000 * 2 ^ 48 }
      lane := { lanes := [(0, { st := .up })] }
      ports := [(0, { up := true })] }, by decide +kernel⟩
theorem witness_lpiExit : ∃ d : Device, d.queuesEmpty 0 = false ∧ (d.port 0).lpiRxAt = some 3 :=
  ⟨{ ports := [(0, { lpiRxAt := some 3 })], hall := { copies := [{ uid := 0, frame := 0, queue := 0 }] } }, by decide +kernel⟩

theorem witness_link : ∃ d : Device, d.reachable .pcie ∧ d.clocked = true ∧ tabWf (fun _ => ({} : LinkSt)) d.lane.links = true ∧
    (d.linkSt 0).st ≠ .up ∧ (d.linkSt 0).lanesRetired = false ∧ spareOf (d.linkSt 0).repairOut 3 = none ∧
    freeSpare (d.linkSt 0).repairOut = some 0 ∧ spareOf (d.linkSt 0).repairIn 3 = none ∧ freeSpare (d.linkSt 0).repairIn = some 0 ∧
    (d.linkSt 1).st = .up ∧ d.linkIdle 1 0 9 = true ∧ d.linkIdle 2 0 0 = false ∧
    F.D2D_LK_CTRL_SLEEP_EN.get (d.reg (ofLink A.D2D_LK_CTRL 1)) = 1 ∧ F.D2D_LK_CTRL_TEST.get (d.reg (ofLink A.D2D_LK_CTRL 1)) = 1 ∧
    F.D2D_LK_CTRL_TEST.get (d.reg (ofLink A.D2D_LK_CTRL 0)) = 0 ∧ tabWf regReset d.file.regs = true :=
  ⟨inState .run { (({} : Device).setReg (ofLink A.D2D_LK_CTRL 1) 5) with
      lane := { links := [(1, { st := .up })], lanes := [(16, { st := .up })] }
      stroke := { num := 100 } }, rfl, by decide +kernel⟩

/-- A device in RUN with its Damper as `f` makes it. -/
def damperAs (f : DamperUnit → DamperUnit) (d : Device) : Device := inState .run { d with damper := f d.damper }
theorem witness_vrThrottle : (at_ id).dev.damper.vrLow = false ∧ tabWf regReset (at_ id).dev.file.regs = true := ⟨rfl, rfl⟩
theorem witness_sensor : (at_ (inState .run)).dev.clocked = true ∧ (Instr.thermalSensorRead (List.replicate 84 95)).wf = true ∧
    95 ∈ List.replicate 84 95 ∧ ∀ t ∈ List.replicate 84 95, t ≤ 95 := ⟨rfl, by decide +kernel⟩
theorem witness_thermalStep : ∃ d : Device, d.clocked = true ∧ d.matured d.damper.thermNext = true :=
  ⟨inState .run { clock := { stepFree := 65536000000 * 2 ^ 48 } }, rfl, by decide⟩
theorem witness_pace : ∃ d : Device, d.clocked = true ∧ d.pacing = true ∧ d.matured d.damper.paceNext = true ∧
    d.damper.pacePeriod ≠ some (d.clockNow / usT 32) :=
  ⟨inState .run { (({} : Device).setFld A.DAMPER_CAP F.DAMPER_CAP_ADMIT_PACING 1) with clock := { stepFree := 65536000000 * 2 ^ 48 } }, rfl,
    by decide +kernel⟩
theorem witness_quench : (at_ (damperAs fun s => { s with quench := true })).dev.damper.quench = true ∧
    (at_ (inState .run)).dev.damper.quench = false := ⟨rfl, rfl⟩
theorem witness_droop : ((inState .run {}).atCyc 7).droopMv < 81 ∧ 20 ≤ ((inState .run {}).atCyc 7).droopMv ∧
    0 + ((inState .run {}).atCyc 255).holdCyc ≤ ((inState .run {}).atCyc 255).absCyc ∧
    ((inState .run {}).atCyc 0).absCyc < 0 + ((inState .run {}).atCyc 0).holdCyc := by decide +kernel

theorem witness_eccFew : (at_ (inState .run)).dev.clocked = true ∧
    (((at_ (inState .run)).dev.count (rasCnt 0)).occurrence ⟨1, 0, 5⟩).1 < 3 ∧
    (((at_ (inState .run)).dev.count (rasCnt 0)).occurrence ⟨5, 2, 5⟩).1 < 3 := by decide +kernel
theorem witness_eccThird : ∃ d : Device, d.clocked = true ∧ 3 ≤ ((d.count (rasCnt 0)).occurrence ⟨1, 0, 5⟩).1 ∧
    (d.ras.repairs.any fun r => r.place = ⟨1, 0, 5⟩) = false ∧ d.ras.testing.contains ⟨1, 0, 5⟩ = false ∧
    tnat d.ras.spares (d.sparesOf ⟨1, 0, 5⟩).1 < (d.sparesOf ⟨1, 0, 5⟩).2 ∧
    d.fixedNow ⟨1, 0, 5⟩ = false :=
  ⟨inState .run { ras := { hist := [⟨⟨1, 0, 5⟩, [0, 0]⟩] } }, rfl, by decide +kernel⟩
theorem witness_eccBad : (at_ (inState .run)).dev.clocked = true ∧
    (at_ (inState .run)).dev.ras.testing.contains ⟨1, 0, 5⟩ = false := ⟨rfl, rfl⟩
theorem witness_rowTest : ∃ d : Device, d.clocked = true ∧ d.ras.testing.contains ⟨1, 0, 5⟩ = true ∧ d.ras.testing.contains ⟨5, 0, 5⟩ = true ∧
    d.seqOn 15 = true ∧ (d.inPieces 0x11 0 4 (placeTag ⟨1, 0, 5⟩)).2 = true ∧
    (d.inPieces 0x12 0 4 (placeTag ⟨5, 0, 5⟩)).2 = true :=
  ⟨inState .run { ras := { testing := [⟨1, 0, 5⟩, ⟨5, 0, 5⟩] }, seq := { seqs := [(15, { st := .running })] } }, rfl, rfl, rfl,
    by decide +kernel⟩
theorem witness_rowSwitch : ∃ d : Device, d.clocked = true ∧ d.seqOn 15 = true ∧ d.ras.repairs ≠ [] ∧
    (d.inPieces 0x11 0 d.ras.repairs.length (2 ^ 80 + 1)).2 = true :=
  ⟨inState .run { ras := { repairs := [⟨⟨1, 0, 5⟩, 0⟩] }, seq := { seqs := [(15, { st := .running })] } }, rfl,
    by decide +kernel, by decide, by decide +kernel⟩
theorem witness_record : ∃ d : Device, d.clocked = true ∧ d.ras.writeBy.isSome = true :=
  ⟨inState .run { ras := { writeBy := some 7 } }, rfl, rfl⟩
theorem witness_rrClear : (at_ (inState .config)).dev.reachable .pcie ∧ (at_ (inState .config)).dev.dev.state = .config := ⟨rfl, rfl⟩

theorem witness_snapMergedRead : (at_ (inState .run)).dev.topReachable .pcie := .inl rfl
theorem witness_stairPeakRead : (at_ (inState .run)).dev.reachable .pcie ∧ 31 < 32 ∧ (at_ (inState .run)).dev.isFenced 31 = false :=
  ⟨rfl, by decide⟩
theorem witness_damperPeakRead : (at_ (inState .degraded)).dev.reachable .smbus := rfl
/-- A block in RUN whose sample FIFO of gallery 5 holds one sample. -/
def sampled : State := at_ fun d => inState .run { d with perf := { d.perf with fifo := [(5, [{ words := [1, 2, 3, 4, 5, 6] }])] } }
theorem witness_sampleFifoRead : sampled.dev.reachable .pcie ∧
    tabGet (fun _ => []) (sampled.dev.counted (some 5)).perf.fifo 5 = { words := [1, 2, 3, 4, 5, 6] } :: [] := ⟨rfl, by decide⟩
theorem witness_nowRead : (at_ (inState .config)).dev.reachable .smbus ∧
    tabWf latchReset (at_ (inState .config)).dev.file.latch = true := ⟨rfl, rfl⟩
theorem witness_evtFifoRead : (at_ fun d => inState .run { d with pulse := { d.pulse with evt := [[], [], [], [{}]] } }).dev.reachable .pcie ∧
    (at_ fun d => inState .run { d with pulse := { d.pulse with evt := [[], [], [], [{}]] } }).dev.pulse.evt.getD 3 [] = [{}] :=
  ⟨rfl, rfl⟩
theorem witness_ppsInCapRead : (at_ fun d => inState .run { d with pulse := { d.pulse with ppsIn := [none, some {}] } }).dev.reachable .pcie ∧
    (at_ fun d => inState .run { d with pulse := { d.pulse with ppsIn := [none, some {}] } }).dev.pulse.ppsIn.getD 1 none = some {} :=
  ⟨rfl, rfl⟩

theorem witness_registerWrite : ∃ h, (at_ (inState .run)).dev.reachable .pcie ∧ A.TOP_GPIO_OUT % 4 = 0 ∧ A.TOP_GPIO_OUT < 2 ^ 28 ∧
    targetOf A.TOP_GPIO_OUT = .block h ∧ (at_ (inState .run)).dev.fencedPage h.base h.inst = false ∧
    (at_ (inState .run)).dev.hiddenReg h = false ∧ (at_ (inState .run)).dev.blocked h A.TOP_GPIO_OUT = false ∧
    (at_ (inState .run)).dev.syncPage h = (at_ (inState .run)).dev ∧
    (at_ (inState .run)).dev.hookWrite .pcie h A.TOP_GPIO_OUT 5 = none ∧
    (h.row.attrs.any fun x => x == .pairLo || x == .tripleLo || x == .pairHi || x == .tripleHi) = false ∧
    galleryPage h.base = false ∧ tabWf regReset (at_ (inState .run)).dev.file.regs = true ∧
    (at_ (inState .run)).dev.selOf h = none :=
  ⟨_, rfl, rfl, by decide, rfl, rfl, rfl, rfl, rfl, rfl, rfl, rfl, rfl, rfl⟩
theorem witness_loReadLatch : ∃ h, (at_ (inState .run)).dev.reachable .smbus ∧ A.TOP_STROKE_LO % 4 = 0 ∧
    targetOf A.TOP_STROKE_LO = .block h ∧ (at_ (inState .run)).dev.fencedPage h.base h.inst = false ∧
    (at_ (inState .run)).dev.hiddenReg h = false ∧ (at_ (inState .run)).dev.syncPage h = (at_ (inState .run)).dev ∧
    (at_ (inState .run)).dev.specialRead .smbus h A.TOP_STROKE_LO = none ∧ h.rest ≠ 4 ∧
    (h.row.attrs.any fun x => x == .group0 || x == .groupN || x == .roHi || x == .pairHi || x == .cntArr) = false ∧
    (h.row.attrs.any fun x => x == .roLo || x == .pairLo) = true ∧ tabWf latchReset (at_ (inState .run)).dev.file.latch = true :=
  ⟨_, rfl, rfl, rfl, rfl, rfl, rfl, rfl, by decide, rfl, rfl, rfl⟩
theorem witness_errClr : (at_ (inState .run)).dev.reachable .pcie ∧ headerPage 0x10B = true ∧
    pageOf (pageBase 0x10B) = some (.gcnt, 0, 0x10B0000) ∧ (at_ (inState .run)).dev.fencedPage 0x10B0000 0 = false :=
  ⟨rfl, by decide⟩
theorem witness_pcValCommit : (at_ fun d => inState .run { d with file := { d.file with loHeld := [(0xE2020, 7)] } }).dev.reachable .pcie ∧
    assoc ((at_ fun d => inState .run { d with file := { d.file with loHeld := [(0xE2020, 7)] } }).dev.counted none).file.loHeld
      (latchKey .pcie (A.CNT_PC_VAL_HI 0 - 4)) = some 7 ∧
    tabWf zeroNat ((at_ fun d => inState .run { d with file := { d.file with loHeld := [(0xE2020, 7)] } }).dev.counted none).perf.val = true :=
  ⟨rfl, by decide +kernel⟩
theorem witness_pcValCommit_gallery : ∃ l, (at_ fun d => inState .run { d with file := { d.file with loHeld := l } }).dev.isFenced 31 = false ∧
    assoc ((at_ fun d => inState .run { d with file := { d.file with loHeld := l } }).dev.counted (some 31)).file.loHeld
      (latchKey .pcie (A.GCNT_PC_VAL_HI 31 7 - 4)) = some 7 ∧
    ((at_ fun d => inState .run { d with file := { d.file with loHeld := l } }).dev.counted (some 31)).wordsWhole 31 :=
  ⟨[(latchKey .pcie (A.GCNT_PC_VAL_HI 31 7 - 4), 7)], rfl, by decide +kernel, fun _ => ⟨rfl, rfl⟩⟩
theorem witness_pcClearAll : (at_ (inState .run)).dev.reachable .smbus ∧ (at_ (inState .run)).dev.isFenced 0 = false ∧
    ((at_ (inState .run)).dev.counted (some 0)).wordsWhole 0 := ⟨rfl, rfl, fun _ => ⟨rfl, rfl⟩⟩

theorem witness_recorded : tabWf regReset ({} : Device).file.regs = true ∧ (({} : Device).reg 0x24).toNat = 0 ∧
    ((({} : Device).err 0 0 .refused .pcie).reg 0x24).toNat ≠ 0 := by decide +kernel
theorem witness_unmapped : (inState .run {}).topReachable .pcie ∧ (inState .boot {}).topReachable .smbus ∧
    targetOf 0x20000 = .unmapped ∧ targetOf 0x8000000 = .unmapped := ⟨.inl rfl, .inr rfl, by decide +kernel⟩
theorem witness_badAccess : (inState .run {}).reachable .pcie ∧ pageOf 0x20001 = none ∧ pageOf 0x30001 = some (.time, 0, 0x30000) ∧
    Page.time ≠ .rings := ⟨rfl, by decide +kernel, by decide +kernel, by decide⟩
theorem witness_closed : ({} : Device).gate .pcie = .silent ∧ ({} : Device).gate .smbus = .closed ∧ (inState .boot {}).gate .smbus = .bootOnly ∧
    targetOf 0x30000 ≠ .unmapped := ⟨rfl, rfl, rfl, by decide +kernel⟩

theorem witness_portDown : ∃ d : Device, (d.port 0).up = true ∧ d.stroke.cyc = 0 ∧ (d.port 1).up = true ∧ (d.atCyc 9).stroke.cyc ≠ 0 :=
  ⟨inState .run { ports := [(0, { up := true }), (1, { up := true })] }, by decide +kernel⟩
theorem witness_laneUp : ∃ d : Device, d.stroke.cyc = 9 ∧ (d.laneSt 0).st = .align ∧ (d.laneSt 0).blockLock = true :=
  ⟨{ (laneDev { st := .align, blockLock := true }) with stroke := { cyc := 9 } }, by decide +kernel⟩

/-- Port 0 up, receiving frame 0 of the bytes `bs`. -/
def receivingDev (bs : Bytes) : Device :=
  { (upPort 0 { up := true, fecInUse := 1 }) with
    pkt := { frames := [(0, { id := 0, gal := 0, inPort := 0, raw := bs, maxFrame := 1518 })], receiving := [(0, 0)], nextId := 1 } }
theorem witness_frameBegin : (Instr.frameReceiveStart 0 0 0 0 true [1, 2]).wf = true ∧ (upPort 0 { up := true }).clocked = true ∧
    ((upPort 0 { up := true }).atStage 0).receives 0 = true ∧ ((upPort 0 { up := true }).atStage 0).receivingOn 0 = none ∧
    ((upPort 0 { up := true }).atStage 0).frame ((upPort 0 { up := true }).atStage 0).pkt.nextId = none := by decide +kernel
theorem witness_parseResume : (Instr.parseResume 0 0 [1]).wf = true ∧
    (((receivingDev [1]).atStage 0).receivingOn 0).isSome = true ∧ (((receivingDev [1]).atStage 0).frame 0).isSome = true := by decide +kernel
theorem witness_frameEnd : (Instr.frameReceiveEnd 0 0 [] [(0, 0)]).wf = true ∧
    (((receivingDev (List.replicate 64 0)).atStage 0).codewords 0 [(7, 1)]).2 = false ∧
    (((receivingDev (List.replicate 64 0)).atStage 0).codewords 0 [(8, 1)]).2 = true ∧
    fcsGood (List.replicate 60 0 ++ fcsOf (List.replicate 60 0)) = true ∧ beAt (List.replicate 60 0) 12 2 ≠ 0x8808 ∧
    fcsGood (List.replicate 12 0 ++ [0x88, 8] ++ List.replicate 46 0 ++ fcsOf (List.replicate 12 0 ++ [0x88, 8] ++ List.replicate 46 0)) = true ∧
    fcsGood (List.replicate 64 0) = false := by decide +kernel

theorem witness_icvCheck : ∃ d : Device, d.clocked = true ∧
    (((d.atStage 0).pkt.frames.find? fun e => e.2.inPort = 0 ∧ e.2.rx ∧ e.2.ended ∧ !e.2.checked).map (·.1)) = some 4 ∧
    (d.atStage 0).ptpAuth 0 0 = false :=
  ⟨{ (upPort 0 { up := true }) with pkt := { frames := [(4, { id := 4, gal := 0, inPort := 0, ended := true, checked := false })] } },
    by decide +kernel⟩
/-- In RUN: frame 2 of gallery 3 with a flight as `x` says, and the bring-up sequencer. -/
def flightDev (x : Flight) : Device :=
  inState .run { pkt := { frames := [(2, { id := 2, gal := 3, inPort := 96 })], flights := [x], nextId := 3 } }
theorem witness_headerAccept : ((flightDev { id := 2, gal := 3, src := .port 96, ready := 0 }).atStage 0).running = true ∧
    (((flightDev { id := 2, gal := 3, src := .port 96, ready := 0 }).atStage 0).nextHeader 3).isSome = true ∧
    ((flightDev { id := 2, gal := 3, src := .port 96, ready := 0 }).atStage 0).taken 3 < 4 ∧
    ((flightDev { id := 2, gal := 3, src := .port 96, ready := 0 }).atStage 0).canAdmit 0x01 3 1 1 0 2 = true := by decide +kernel
theorem witness_hold : ((flightDev { id := 2, gal := 3, src := .port 96, ready := 0, phase := .hold }).pkt.flights.find?
      fun x => x.gal = 3 ∧ x.phase = .hold).isSome = true ∧
    ({ stroke := { num := 1 } } : Device).strokeNo = 1 ∧
    (flightDev { id := 2, gal := 3, src := .port 96, ready := 0 }).canAdmit 0x03 (3 * 5 + 4) 1 1 0 2 = true := by decide +kernel
theorem witness_extReturn : (({} : Device).extLookup 0 ⟨0, false, 5⟩).1 = none ∧
    ((flightDev { id := 2, gal := 3, src := .port 96, ready := 0, ext := some ⟨5, 0, false, false, 0, true, none⟩ }).pkt.flights.find?
      fun x => x.gal = 3 ∧ (x.ext.map fun e => e.issued && e.result.isNone).getD false).isSome = true := by decide +kernel
theorem witness_passEnd (v : Option Verdict) (a : PassActs) :
    ((flightDev { id := 2, gal := 3, src := .port 96, ready := 0, phase := .stages, verdict := v, acts := a }).nextEnd 3).map (·.verdict) = some v ∧
    ((flightDev { id := 2, gal := 3, src := .port 96, ready := 0, phase := .stages, verdict := v, acts := a }).nextEnd 3).map (·.acts) = some a :=
  ⟨rfl, rfl⟩
theorem witness_stair : ∃ d : Device, d.clocked = true ∧ d.running = true ∧
    (d.pkt.flights.find? fun x => x.gal = 3 ∧ x.grantable d.absCyc).isSome = true ∧
    (d.pkt.flights.find? fun x => x.gal = 3 ∧ x.phase = .stair ∧ x.waited > d.waitMax 3).isSome = true ∧
    d.canAdmit 0x01 3 1 1 1 2 = true ∧ d.canAdmit 0x02 3 1 1 1 2 = true :=
  ⟨{ (flightDev { id := 2, gal := 3, src := .port 96, ready := 0, phase := .stair, waited := 2 ^ 40 }) with stroke := { cyc := 1 } },
    by decide +kernel⟩
theorem witness_actWord : ∃ d : Device, d.reachable .pcie ∧ d.slotOpen 0 = true ∧ d.slotOpen 1 = false ∧
    F.MATCH_ACT_ADDR_BCAST.get (d.reg (A.MATCH_ACT_ADDR 0)) = 1 ∧ F.MATCH_ACT_ADDR_BCAST.get (d.reg (A.MATCH_ACT_ADDR 31)) = 0 ∧
    tabWf zeroNat d.pkt.acts = true :=
  ⟨{ (inState .run (({} : Device).setReg (A.MATCH_ACT_ADDR 0) (F.MATCH_ACT_ADDR_BCAST.put 0 1))) with
      gen := { active := 1 } }, rfl, by decide +kernel⟩

theorem witness_egress : ∃ d : Device, d.clocked = true ∧ d.canStart 0 = true ∧ d.conforms (portBucket 0) = true ∧ d.gated 0 = false ∧
    (d.pickQueue 0 0).isSome = true ∧ ((d.headOf 4).map d.aged) = some false :=
  ⟨{ (upPort 0 { up := true }) with
      pkt := { frames := [(0, { id := 0, gal := 0, inPort := 1, bytes := List.replicate 64 0, got := 64, ended := true })] }
      hall := { copies := [{ uid := 0, frame := 0, queue := 4 }] } }, by decide +kernel⟩
/-- Port 0 with a copy of frame 0, of 64 bytes. -/
def sendDev (c : Copy) (sending : List (Nat × Nat)) : Device :=
  { (upPort 0 { up := true }) with
    pkt := { frames := [(0, { id := 0, gal := 0, inPort := 1, bytes := List.replicate 64 0, got := 64, ended := true, cells := [7] })]
             sending := sending }
    hall := { copies := [c] } }
theorem witness_firstByte : (((sendDev { uid := 0, frame := 0, queue := 4, phase := .selected, read := 1 } []).hall.copies.find?
      fun c => c.queue / 16 = 0 ∧ c.phase = .selected ∧
        !(sendDev { uid := 0, frame := 0, queue := 4, phase := .selected, read := 1 } []).doomed c).isSome) = true ∧
    ((sendDev { uid := 0, frame := 0, queue := 4, phase := .selected, read := 1 } []).pkt.sending.any fun e => e.1 = 0) = false ∧
    ((sendDev { uid := 0, frame := 0, queue := 4, phase := .sending } [(0, 0)]).pkt.sending.any fun e => e.1 = 0) = true := by decide +kernel
theorem witness_transmitEnd : ∃ (d : Device) (c : Copy) (f : Frame), d.clocked = true ∧ d.sendingOn 0 = some c ∧ d.frame c.frame = some f ∧
    d.tooLong c f = false ∧ f.ended = true ∧ cellsOf (c.bytesOf f) ≤ c.read ∧ d.retagOf c f (c.out f) ≠ .unchecked ∧
    c.lastCell = some 7 :=
  ⟨sendDev { uid := 0, frame := 0, queue := 4, phase := .sending, read := 1, lastCell := some 7 } [(0, 0)],
    { uid := 0, frame := 0, queue := 4, phase := .sending, read := 1, lastCell := some 7 },
    { id := 0, gal := 0, inPort := 1, bytes := List.replicate 64 0, got := 64, ended := true, cells := [7] }, by decide +kernel⟩
theorem witness_underrun : ∃ d : Device, d.portGb 1 < d.portGb 0 :=
  ⟨(({} : Device).setReg (ofPort A.PORT_PT_CFG 1) 1), by decide +kernel⟩

theorem witness_spill : ∃ (d : Device) (c : Copy), d.clocked = true ∧ d.nextSpill 0 = some c ∧ d.copy c.uid = some c ∧
    ((List.range 32).any fun g => d.returnReady g) = false ∧ (d.frame c.frame).map (·.whole) = some true ∧
    d.grantedFor 0 (spillTag c.uid 0) = some 9 ∧ (spillSizes 60).length = 1 ∧ (d.inPieces 0x06 0 (spillUnits 60) c.uid).2 = true :=
  ⟨{ (sendDev { uid := 0, frame := 0, queue := 4, seg := .landing } []) with
      billet := { granted := [(0, spillTag 0 0, 9)] } }, { uid := 0, frame := 0, queue := 4, seg := .landing }, by decide +kernel⟩
theorem witness_spillReturn : ∃ d : Device, d.clocked = true ∧ ((d.nextReturn 0).map (·.1.uid)) = some 0 ∧
    cellsOf 60 ≤ d.hall.free ∧ d.canAdmit 0x04 0 (cellsOf 60) 1 0 0 = true :=
  ⟨sendDev { uid := 0, frame := 0, queue := 4, seg := .middle } [], by decide +kernel⟩
theorem witness_bankCopy : ∃ d : Device, d.clocked = true ∧ d.hall.copying = some ⟨0, 1200, [7, 8], 0⟩ ∧
    ([7, 8].filter d.cellLive) = [7] ∧ d.canAdmit 0x11 0 1 1 0 (bankTag 0) = true ∧ 0 < d.strokeNo :=
  ⟨{ (sendDev { uid := 0, frame := 0, queue := 4 } []) with
      stroke := { num := 1 }
      hall := { copying := some ⟨0, 1200, [7, 8], 0⟩ } }, by decide +kernel⟩
theorem witness_bankLost : ∃ d : Device, (d.hall.bankDrain.find? fun b => (d.bankCells b).isEmpty ∧ tnat d.hall.bankMap b ≠ 0xFFFF) = some 3 :=
  ⟨{ hall := { bankDrain := [3] } }, by decide +kernel⟩
theorem witness_repList : F.HALL_REP_ADDR_WORD.get 0x20FFF = 32 ∧ F.HALL_REP_ADDR_WORD.get 0x21000 = 33 ∧ F.HALL_REP_ADDR_LIST.get 0x20FFF = 4095 := by
  decide
theorem witness_billetGrant : ∃ d : Device, d.clocked = true ∧ d.billet.pools.length = 4 ∧ (d.pool 0).cache = [5, 6] ∧
    rotateTo (d.pool 0).rot (((d.pool 0).waiting.map (·.1) ++
      ((d.billet.jobs.filter fun j => j.pool = 0).map (·.req))).filter fun r => d.billetEligible (ownerOf r) 0 1) = some 3 ∧
    ((d.pool 0).waiting.find? fun w => w.1 = 3) = some (3, 11) ∧ ((d.pool 0).waiting.find? fun w => w.1 = 96) = none :=
  ⟨inState .run { billet := { pools := [{ size := 2000000, cache := [5, 6], waiting := [(3, 11)] }, {}, {}, {}], jobs := [⟨96, 0, 1, false⟩] } }, by decide +kernel⟩
theorem witness_billetFree : ∃ d : Device, d.clocked = true ∧ d.billet.pools.length = 4 ∧
    rotateTo (d.pool 0).freeRot ((d.billet.freeing.filter fun f => ptrPool f.2 = 0).map (·.1)) = some 3 ∧
    ((d.billet.freeing.filter fun f => ptrPool f.2 = 0).find? fun f => f.1 = 3) = some (3, 1048576) ∧ d.ptrOk 1048576 = true ∧
    tnat d.billet.out 1048576 = 4 ∧ d.billet.quarantined.contains 1048576 = false ∧ d.ptrOk (2 ^ 31) = false ∧ tnat d.billet.out 6 = 0 ∧
    tabWf zeroNat d.billet.out = true :=
  ⟨inState .run { billet := { freeing := [(3, 1048576)], out := [(1048576, 4)] } }, by decide +kernel⟩
theorem witness_billetCache : ∃ d : Device, (d.pool 0).cache.length < 128 ∧ (d.pool 0).ringCount ≠ 0 ∧ 448 < (d.pool 1).cache.length ∧
    512 ≤ (d.pool 2).cache.length ∧ d.canAdmit 0x12 0 4 1 0 (cacheTag 0 false) = true ∧ d.canAdmit 0x12 0 4 1 0 (cacheTag 1 true) = true :=
  ⟨inState .run { billet := { pools := [{ ring := [1] }, { cache := List.replicate 449 0 }, { cache := List.replicate 512 0 }, {}] } },
    by decide +kernel⟩
theorem witness_gates : ∃ d : Device, d.reachable .pcie ∧ (d.gateSt 0).pending = false ∧ (d.gateSt 1).pending = true ∧
    (d.gateSt 1).takeAt ≤ (d.atCyc 0).clockNow ∧ (d.gateSt 2).len ≠ 0 ∧
    F.GATE_GT_CYCLE_CYCLE.get (d.reg (ofPort A.GATE_GT_CYCLE 0)) = 1000 ∧
    ((d.gateEntries 0 1 1).any fun e => e.2 < 8) = true ∧ F.GATE_GT_CTRL_LEN.get 256 = 64 ∧ F.GATE_GT_CTRL_LEN.get 260 = 65 :=
  ⟨inState .run { (({} : Device).setReg (ofPort A.GATE_GT_CYCLE 0) 1000) with
      sched := { gates := [(1, { pending := true, pendLen := 1 }), (2, { len := 1, cycle := 1000 })] } }, rfl, by decide +kernel⟩

theorem witness_clockStep : ∃ d : Device, d.clocked = true ∧ d.clock.stepBusy = some true ∧ ({} : Device).clock.stepBusy = none ∧
    d.clockExact = 0 ∧ F.TIME_STEP_NS_NEG.get (d.cfg A.TIME_STEP_NS) = 0 ∧
    F.TIME_CLK_CFG_AUTO_FALLBACK.get (({} : Device).reg A.TIME_CLK_CFG) = 1 ∧ tabWf regReset d.file.regs = true :=
  ⟨inState .run { clock := { stepBusy := some true } }, by decide +kernel⟩
theorem witness_ledgerRecord : ∃ d : Device, d.clocked = true ∧ clkSec d.clockNow ≠ d.ledger.lastSec ∧ d.ledger.granted = true ∧
    d.seqOn 15 = true ∧ F.TIME_LEDGER_CTRL_EN.get (d.cfg A.TIME_LEDGER_CTRL) = 1 ∧
    F.TIME_LEDGER_CTRL_EXPORT_EN.get (d.cfg A.TIME_LEDGER_CTRL) = 0 ∧ d.canAdmit 0x0A 0 1 1 0 d.ledger.seq = true ∧ d.allFenced = false ∧
    ({ d with budget := { used := [(budKey 0x0A 0, 1000)] } }).canAdmit 0x0A 0 1 1 0 d.ledger.seq = false ∧
    F.TIME_LEDGER_CTRL_EN.get ((({} : Device).setReg A.TIME_LEDGER_CTRL 0).cfg A.TIME_LEDGER_CTRL) = 0 :=
  ⟨inState .run { (({} : Device).setReg A.TIME_LEDGER_CTRL 1) with
      ledger := { granted := true, lastSec := 5 }
      seq := { seqs := [(15, { st := .running })] } }, by decide +kernel⟩
theorem witness_ledgerCopy : ∃ d : Device, d.clocked = true ∧ d.ledger.copyBusy = true ∧ d.ledger.copyCount ≤ d.ledger.copied ∧
    (inState .run {}).ledger.copyBusy = false ∧ tabWf regReset d.file.regs = true :=
  ⟨inState .run { ledger := { copyBusy := true } }, by decide +kernel⟩
/-- Port 0 up, as the role `r` of R268 says, with templates of 60 bytes, and the servo on port 0 enabled. -/
def ptpDev (r : Nat) (s : ServoUnit) : Device :=
  inState .run { ((((((({} : Device).setReg (A.TSU_TS_CFG 0 0) (F.TSU_TS_CFG_ROLE.put 0 r)).setReg (A.TSU_TPL_CFG 0 0)
      (F.TSU_TPL_CFG_LEN.put 0 60)).setReg (A.TSU_TPL_CFG 0 1) (F.TSU_TPL_CFG_LEN.put 0 60)).setReg (A.TSU_TPL_CFG 0 2)
      (F.TSU_TPL_CFG_LEN.put 0 60)).setReg A.TIME_SERVO_CTRL (F.TIME_SERVO_CTRL_EN.put (F.TIME_SERVO_CTRL_SRC_KIND.put 0 1) 1))) with
    ports := [(0, { up := true })]
    clock := { stepFree := 65536 * 2000000000 * 2 ^ 48 }
    servo := s
    seq := { seqs := [(13, { st := .running })] } }
/-- A message in which every field is 0. -/
def zeroMsg : PtpMsg := ⟨0, 0, 0, 0, 0, false, 0, 0, 0, 0, 0⟩
theorem witness_master : (ptpDev 1 {}).tsCfg 0 F.TSU_TS_CFG_ROLE = 1 ∧ (ptpDev 1 {}).tsuReady 0 0 = true ∧ (ptpDev 1 {}).tsuReady 0 2 = true ∧
    (ptpDev 1 {}).receives 0 = true ∧ ((ptpDev 1 {}).tsuSt 0).syncNext = none ∧ (Instr.syncSend 0 255).wf = true ∧
    byteAt ((ptpDev 1 {}).tsuTpl 0 2).1 (((ptpDev 1 {}).tsuTpl 0 2).2.1 + 4) = zeroMsg.domain.toNat := by decide +kernel
theorem witness_servo : (ptpDev 2 {}).srvCtl F.TIME_SERVO_CTRL_SRC_PORT = 0 ∧ (ptpDev 2 {}).srvPort 0 = true ∧
    (ptpDev 2 {}).srvCtl F.TIME_SERVO_CTRL_DELAY_MODE = 0 ∧ (ptpDev 2 {}).seqOn 13 = true ∧ (ptpDev 2 {}).tsuReady 0 1 = true ∧
    (ptpDev 2 {}).fromSource 0 zeroMsg = true ∧ (ptpDev 1 {}).fromSource 0 zeroMsg = false ∧
    ({ zeroMsg with twoStep := true }).twoStep = true := by decide +kernel
theorem witness_delayResp : ∃ d : Device, d.fromSource 0 zeroMsg = true ∧
    zeroMsg.reqId.toNat * 65536 + zeroMsg.reqPort.toNat = d.ptpIdentity 0 ∧
    (d.servo.dreqs.find? fun q => q.seq = 0 ∧ q.t3.isSome ∧ d.freeAtStart < q.since + secT 1) =
      some ⟨0, 7, some 5, secT 2⟩ :=
  ⟨ptpDev 2 { dreqs := [⟨0, 7, some 5, secT 2⟩] }, by decide +kernel⟩
theorem witness_missed : ∃ d : Device, d.clocked = true ∧ d.servo.dreqs ≠ [] ∧
    (d.servo.dreqs.find? fun q => q.since + secT 1 ≤ d.freeAtStart) = some ⟨0, 7, none, secT 1⟩ :=
  ⟨ptpDev 2 { dreqs := [⟨0, 7, none, secT 1⟩] }, by decide +kernel⟩
theorem witness_followUp : (ptpDev 2 { syncOpen := some (0, 0, 0, secT 2) }).freeAtStart < secT 2 + secT 1 ∧
    secT 1 + secT 1 ≤ (ptpDev 2 { syncOpen := some (0, 0, 0, secT 1) }).freeAtStart := by decide +kernel
theorem witness_loss : ∃ d : Device, d.servo.state = .acquiring ∧ d.servo.everLocked = true ∧
    d.servo.lossFrom + secT (max 1 (F.TIME_SERVO_THRESH_LOSS_S.get (d.reg A.TIME_SERVO_THRESH))) ≤ d.freeAtStart :=
  ⟨{ (ptpDev 2 { state := .acquiring, everLocked := true }) with clock := { stepFree := 65536 * 1000000000 * 1000 * 2 ^ 48 } },
    by decide +kernel⟩
theorem witness_ppsIn : ∃ d : Device, d.clocked = true ∧ d.srvCtl F.TIME_SERVO_CTRL_EN = 1 ∧ d.srvCtl F.TIME_SERVO_CTRL_SRC_KIND = 2 + 1 ∧
    d.seqOn 12 = true ∧ (Instr.ppsInEdge 1 0 0).wf = true :=
  ⟨inState .run { (({} : Device).setReg A.TIME_SERVO_CTRL (F.TIME_SERVO_CTRL_EN.put (F.TIME_SERVO_CTRL_SRC_KIND.put 0 3) 1)) with
      seq := { seqs := [(12, { st := .running })] } }, by decide +kernel⟩
theorem witness_evtEdge : ∃ d : Device, bit (F.TIME_EV_CTRL_EDGE.get (d.cfg (A.TIME_EV_CTRL 0))) 0 = true ∧
    bit (F.TIME_EV_CTRL_EDGE.get (d.cfg (A.TIME_EV_CTRL 1))) 0 = false ∧ (d.pulse.evt.getD 0 []).length < 16 ∧
    16 ≤ (d.pulse.evt.getD 1 []).length ∧ d.pulse.evtLast.getD 2 none = some 0 ∧ d.stepFreeNow + 0 ≤ 0 + nsT 2 :=
  ⟨{ (({} : Device).setReg (A.TIME_EV_CTRL 0) (F.TIME_EV_CTRL_EDGE.put 0 1)) with
      pulse := { evt := [[], List.replicate 16 {}, [], []], evtLast := [none, none, some 0, none] } }, by decide +kernel⟩
theorem witness_ppsOut : ∃ d : Device, d.pulse.ppsHigh.getD 0 false = true ∧ d.pulse.ppsFall.getD 0 0 ≤ d.stepFreeNow ∧
    d.pulse.ppsHigh.getD 1 false = false ∧ F.TIME_PPS_OUT_CFG_EN.get (d.reg (A.TIME_PPS_OUT_CFG 1)) = 1 ∧
    d.pulse.ppsRose.getD 1 0 ≠ d.strokeNo + 1 ∧ ppsIndex 0 (Int.ofNat d.clockNow) ≠ ppsIndex 0 (Int.ofNat (d.clock.clk / 2 ^ 48) - 1) :=
  ⟨{ (({} : Device).setReg (A.TIME_PPS_OUT_CFG 1) 1) with pulse := { ppsHigh := [true, false] } }, by decide +kernel⟩
theorem witness_trigger : ∃ d : Device, d.reachable .pcie ∧ (d.trig 0).armed = false ∧ F.TIME_TR_WIDTH_NS.get (d.reg (A.TIME_TR_WIDTH 0)) = 2 ∧
    (d.reg (A.TIME_TR_PERIOD 0)).toNat = 3 ∧ (d.trig 1).armed = true ∧ (d.trig 1).next ≤ d.clockNow ∧
    F.TIME_TR_WIDTH_NS.get (d.reg (A.TIME_TR_WIDTH 2)) < 2 ∧ (d.reg (A.TIME_TR_PERIOD 2)).toNat = 0 :=
  ⟨inState .run { (((({} : Device).setReg (A.TIME_TR_WIDTH 0) 2).setReg (A.TIME_TR_WIDTH 2) 1).setReg (A.TIME_TR_PERIOD 0) 3) with
      pulse := { trig := [(1, { armed := true })] } }, rfl, by decide +kernel⟩
theorem witness_flowMiss : ∃ d : Device, d.clocked = true ∧ d.telem.misses = [(5, { inPort := 0, key := 0, iclass := 0, gal := 0, len := 64, tsClk := 0 })] ∧
    ((d.cacheSet 5).any fun e => e.1 = 5) = false ∧ ((d.cacheSet 6).any fun e => e.1 = 6) = true ∧
    d.canAdmit 0x08 0 4 1 0 5 = true :=
  ⟨inState .run { telem := { misses := [(5, { inPort := 0, key := 0, iclass := 0, gal := 0, len := 64, tsClk := 0 })], cache := [(6, [(6, true)])] } }, by decide +kernel⟩
theorem witness_flowSweep : ∃ d : Device, d.clocked = true ∧ d.visitDue = true ∧ d.telem.sweep = 0 ∧
    d.telem.sweep < flowBuckets d.profile.active ∧ d.canAdmit 0x08 0 4 1 0 1000000 = true ∧ d.canAdmit 0x0B 0 0 1 0 1000000 = true ∧
    (d.packRoom 0 1 && d.packRoom 0 2) = true ∧ d.portEn 0 = true ∧ d.seqOn 4 = true ∧ d.packRoom 0 4 = true :=
  ⟨inState .run { (({} : Device).setReg (ofPort A.PORT_PT_CFG 0) 1) with seq := { seqs := [(4, { st := .running })] } }, by decide +kernel⟩
theorem witness_datagram : ∃ d : Device, (d.openDgrams 0 0 1).head? = some ⟨3, 0, 0, 1, [[]], 0, none⟩ ∧ d.grantedFor 99 3 = some 9 ∧
    d.dgramDue ⟨3, 0, 0, 1, [[]], 0, none⟩ = true ∧ d.seqOn 4 = true ∧ (Instr.datagramClose 0 0 1).wf = true :=
  ⟨inState .run { (({} : Device).setReg (A.TELEM_C_CFG 0) (F.TELEM_C_CFG_MAX_RECS.put 0 1)) with
      telem := { open_ := [⟨3, 0, 0, 1, [[]], 0, none⟩] }
      billet := { granted := [(99, 3, 9)] }
      seq := { seqs := [(4, { st := .running })] } }, by decide +kernel⟩
/-- In RUN, group 0 valid with the chunks `ks`, and a message of type `typ` for its chunk 0 at the head of anvil 0's queue. -/
def redDev (typ : Byte) (ks : List Chunk) : Device :=
  inState .run { (({} : Device).setReg (gReg A.ANVIL_G_MEMBERS 0) 0) with
    pkt := { frames := [(0, { id := 0, gal := 0, inPort := 1, ended := true, got := 100, cells := [7], bytes := [typ, 0, 0, 64] ++ List.replicate 96 0 })] }
    hall := { copies := [{ uid := 0, frame := 0, queue := anvilQueue 0, phv := { hdrs := [{ id := 0, ofs := 0, len := 32 }] } }] }
    anvil := { groups := [(0, { valid := true, chunks := ks })] }
    seq := { seqs := [(8, { st := .running })] } }
theorem witness_contrib : ((redDev 1 []).anvilTake 0 1).2.isSome = true ∧ ((redDev 1 []).anvilTake 0 2).2 = none ∧
    ((redDev 1 []).redGroup 0).chunk 0 = none ∧ (((redDev 1 []).anvilTake 0 1).2.map fun x => x.2.2.2.seq) = some 0 ∧
    ((redDev 1 [{ seq := 0, len := 64, st := .awaitParent }]).redGroup 0).chunk 0 = some { seq := 0, len := 64, st := .awaitParent } ∧
    ((redDev 1 []).inPieces 0x0D 0 1 0).2 = true := by decide +kernel
/-- The same with anvil 0's issue budget used up, and chunk 0's timer matured. -/
def lateDev : Device :=
  { (redDev 1 [{ seq := 0, len := 64 }]) with budget := { used := [(budKey 0x0D 0, 1000000000)] } }
theorem witness_timeoutFirst : ((redDev 1 []).timeoutFirst 0 0 0 0).2 = false ∧ (lateDev.timeoutFirst 0 0 0 0).2 = true := by decide +kernel
theorem witness_result : ((redDev 2 [{ seq := 0, len := 64, st := .awaitParent }]).anvilTake 0 2).2.isSome = true ∧
    ((redDev 3 [{ seq := 0, len := 64, st := .awaitParent }]).anvilTake 0 3).2.isSome = true ∧
    ((redDev 4 [{ seq := 0, len := 64, st := .awaitParent }]).anvilTake 0 4).2.isSome = true ∧
    ((redDev 3 []).anvilTake 0 3).2.isSome = true := by decide +kernel
theorem witness_group : F.ANVIL_G_SEL_GROUP.get (({} : Device).reg A.ANVIL_G_SEL) = 0 ∧ (({} : Device).redGroup 0).valid = false ∧
    ((redDev 1 []).redGroup 0).valid = true := by decide +kernel
theorem witness_redTimers : ∃ d : Device, d.clocked = true ∧ d.anvilSeq 0 = true ∧
    d.matureChunk 0 .gathering = some { seq := 0, len := 64, tries := 3 } ∧
    d.matureChunk 0 .awaitParent = some { seq := 1, len := 64, st := .awaitParent } ∧
    d.gFld A.ANVIL_G_TMR 0 F.ANVIL_G_TMR_NACK_MAX = 4 ∧ d.gFld A.ANVIL_G_TMR 0 F.ANVIL_G_TMR_UP_MAX = 0 ∧
    (d.inPieces 0x0D (d.gAnvil 0) 2 (2 ^ 32)).2 = true :=
  ⟨{ (redDev 1 [{ seq := 0, len := 64, tries := 3 }, { seq := 1, len := 64, st := .awaitParent }]) with
      file := ((redDev 1 []).setReg (gReg A.ANVIL_G_TMR 0) (F.ANVIL_G_TMR_NACK_MAX.put 0 4)).file }, by decide +kernel⟩
theorem witness_retain : ∃ d : Device, d.clocked = true ∧
    (d.anvil.staged.find? fun t => t.anvil = 0 ∧ (d.grantedFor (32 + 0) (2 * t.tag + 1)).isSome) = some { tag := 4, anvil := 0, group := 0, seq := 0, payload := [1], sat := false, folded := 1, dies := 0, since := 0 } ∧
    d.grantedFor 32 (2 * 4 + 1) = some 6 ∧ (d.inPieces 0x09 0 2 (2 ^ 33 + 4)).2 = true ∧
    (((d.redGroup 9).kept.find? fun k => d.matured k.2.dies && k.2.serves.isEmpty).map (·.1)) = some 5 :=
  ⟨inState .run { billet := { granted := [(32, 9, 6)] }
                  anvil := { groups := [(9, { kept := [(5, { seq := 5, payload := [], sat := false, folded := 1, billet := 7, dies := 0, since := 0 })] })], staged := [{ tag := 4, anvil := 0, group := 0, seq := 0, payload := [1], sat := false, folded := 1, dies := 0, since := 0 }] } },
    by decide +kernel⟩

/-- In RUN, sequencer 2 as `q` says. -/
def seqDev (q : SeqSt) : Device := inState .run { seq := { seqs := [(2, q)] } }
theorem witness_issue : ((seqDev { st := .running }).seqSt 2).st = .running ∧ (seqDev { st := .running }).canAdmit 0x0F 2 1 1 0 0 = true ∧
    ((seqDev { st := .running, bad := [(0, 0)] }).seqSt 2).bad.contains (((seqDev {}).role (roleOf 2)).active, 0) = true ∧
    mwBad ((seqDev { st := .running }).seqWord 2) = false ∧ mwBad (2 ^ 256 - 1) = true := by decide +kernel
theorem witness_wait : ((seqDev { st := .waiting, due := some 1 }).seqSt 2).late 0 = false ∧ ((seqDev { st := .waiting, due := some 0 }).seqSt 2).late 1 = true ∧
    (seqDev { st := .waiting }).switchNow (roleOf 2) = false ∧ ((seqDev { evq := List.replicate 63 0 }).seqSt 2).evq.length < 64 ∧
    64 ≤ ((seqDev { evq := List.replicate 64 0 }).seqSt 2).evq.length ∧
    ((seqDev { lh := [⟨false, 0, 0, 4, 0x0E, 0⟩] }).inPieces 0x0E 0 4 5000002).2 = true := by decide +kernel
theorem witness_waitMet : ((seqDev { st := .waiting }).seqHolds 2) = true ∧ ((seqDev { st := .waiting }).seqSt 2).held = false ∧
    ((seqDev { st := .waiting, held := true }).seqSt 2).held = true ∧
    ((seqDev { st := .running, issuedAt := some 3 }).seqSt 2).issuedAt ≠ some ((seqDev {}).atCyc 4).absCyc := by decide +kernel
theorem witness_lhMove : tnat ((seqDev { scratch := [(3, 6)] }).seqSt 2).scratch (2 + 1) = 5 + 1 ∧ (seqDev {}).lhRing (4 + 1) = none ∧
    ((seqDev {}).lhLoad 5).2 = { (seqDev {}) with freeCtr := (seqDev {}).freeCtr + 1 } := by decide +kernel
theorem witness_imageTimeout : ∃ d : Device, (d.role 2).load = some { addr := 0, len := 256, cls := 0, late := true } ∧
    (d.role 3).load = some { addr := 0, len := 512, cls := 0, paid := 256, late := true } :=
  ⟨inState .run { seq := { roles := [(2, { load := some { addr := 0, len := 256, cls := 0, late := true } }),
    (3, { load := some { addr := 0, len := 512, cls := 0, paid := 256, late := true } })] } }, by decide +kernel⟩
theorem witness_seqRestart : (((seqDev {}).role (roleOf 2)).live.st ≠ 2) ∧
    ((({ (seqDev {}) with seq := { roles := [(roleOf 2, { banks := [{ st := 2 }, {}] })] } } : Device).role (roleOf 2)).live.st = 2) := by
  decide +kernel
theorem witness_images : ∃ d : Device, d.clocked = true ∧ roleOk 1 = true ∧ (d.role 1).switchBy = some 5 ∧ d.switchNow 1 = true ∧
    (d.role 2).load = some { addr := 0, len := 256, cls := 0 } ∧ d.busOn 0 = true ∧ d.inWindow 0 0 256 = true ∧
    (d.role 3).idle.st = 2 ∧ (d.role 3).load = none ∧ (d.role 4).switchBy = some 3 ∧ 3 < d.strokeNo ∧
    tabWf (fun _ => ({} : SeqRole)) d.seq.roles = true ∧ tabWf (fun _ => ({} : SeqSt)) d.seq.seqs = true :=
  ⟨inState .run { (({} : Device).setReg (A.HOST_FN_WIN_LIMIT_LO 0) 0xFFFF) with
      stroke := { num := 5 }
      seq := { roles := [(1, { switchBy := some 5, banks := [{}, { st := 2 }] }), (2, { load := some { addr := 0, len := 256, cls := 0 } }), (3, { banks := [{}, { st := 2 }] }),
        (4, { switchBy := some 3 })] } }, by decide +kernel⟩

theorem witness_learn : ∃ d : Device, d.clocked = true ∧ d.table.queue = [⟨0, false, 5, false, 0, 0, 0, 0⟩] ∧
    d.canAdmit 0x0C 0 1 (d.learnFate ⟨0, false, 5, false, 0, 0, 0, 0⟩).cycles 0 d.table.learned = true :=
  ⟨inState .run { table := { queue := [⟨0, false, 5, false, 0, 0, 0, 0⟩] } }, by decide +kernel⟩
theorem witness_sweep : ∃ d : Device, d.sweepDue = true ∧ d.seqOn 14 = true ∧ d.table.replacing = some ⟨0, 0, 5, 5, []⟩ ∧
    ({} : Device).sweepDue = false ∧ assoc d.table.locks 7 = some 0 ∧ 0 ≤ d.strokeNo :=
  ⟨inState .run { table := { ageOn := true, sweepNext := some 0, replacing := some ⟨0, 0, 5, 5, []⟩, locks := [(7, 0)] }
                  seq := { seqs := [(14, { st := .running })] } }, by decide +kernel⟩
/-- Ring 3 enabled, of type 3 and 16 entries, its window all of memory, and as `q` says. -/
def ringDev (q : RingSt) : Device :=
  inState .run { ((((({} : Device).setReg (A.RINGS_RW_BASE_LO 3) 0x100000).setReg (A.RINGS_RW_HEAD_ADDR_LO 3) 0x200000).setReg (A.RINGS_RW_CTRL 3) (F.RINGS_RW_CTRL_EN.put (F.RINGS_RW_CTRL_TYPE.put
      (F.RINGS_RW_CTRL_LOG2_SIZE.put 0 4) 3) 1)).setReg (A.HOST_FN_WIN_LIMIT_LO 0) 0xFFFFFFFF) with
    host := { rings := [(3, q)] } }
theorem witness_tdma : ∃ d : Device, d.clocked = true ∧ (d.frontJob 3 0).isSome = true ∧ (d.frontJob 3 1) = none ∧
    ((d.frontJob 3 0).map fun j => d.tdmaCheck j 0) = some none ∧ (d.rowSlot 3 true).2 = true ∧ (d.rowSlot 3 false).2 = true ∧
    d.rowLocked 7 = false ∧ d.tdmaCheck ⟨0, 2, false, 0, 1, 7, 1, 0, 0⟩ 0 = some 5 ∧ d.tdmaCheck ⟨0, 2, false, 0, 0, 7, 1, 0, 0⟩ 0 = none :=
  ⟨ringDev { st := .active, jobs := [⟨0, 0, false, 0, 0, 7, 1, 4096, 0⟩] }, by decide +kernel⟩
theorem witness_tdmaWrite : ∃ d : Device, d.clocked = true ∧ (d.frontJob 3 1).isSome = true ∧
    ((d.frontJob 3 1).map fun j => d.tdmaCheck j 0) = some none ∧ d.busOn (d.ringFn 3) = true :=
  ⟨ringDev { st := .active, jobs := [⟨0, 1, false, 1, 0, 7, 1, 4096, 0⟩] }, by decide +kernel⟩
theorem witness_ringWindow : (ringDev {}).reachable .pcie ∧ (ringDev {}).ringOn 3 = true ∧ (ringDev {}).ringOn 4 = false ∧
    (ringDev {}).ringFn 3 = 0 ∧ vfOk 1 = true ∧ tabWf (fun _ => ({} : RingSt)) (ringDev { st := .halted }).host.rings = true ∧
    (ringDev {}).host.held.contains 5 = false ∧ (ringDev { st := .halted }).ring 3 = { st := .halted } ∧
    (ringDev {}).ringCheck 4 (F.RINGS_RW_CTRL_EN.put 0 1) ≠ none := ⟨rfl, by decide +kernel⟩
theorem witness_ringEnables : (ringDev {}).ringCheck 4 (F.RINGS_RW_CTRL_EN.put (F.RINGS_RW_CTRL_TYPE.put
    (F.RINGS_RW_CTRL_LOG2_SIZE.put 0 6) 3) 1) = none := by decide +kernel
theorem witness_ringPoll : (ringDev { st := .polling }).clocked = true ∧ ((ringDev { st := .polling }).ring 3).pollAt ≤ (ringDev {}).strokeNo ∧
    ((ringDev { retryAt := some 0 }).ring 3).retryAt = some 0 ∧ (ringDev { retryAt := some 0 }).matured 0 = true ∧
    (ringDev { st := .polling }).mayRead 3 = false ∧ (ringDev { st := .active }).mayRead 3 = true := by decide +kernel
theorem witness_entry : entryOk (some (List.replicate 64 0)) = true ∧ (ringDev { st := .active }).entData 3 (List.replicate 64 0) = 0 ∧
    ((ringDev { st := .active }).ringPay 3 64 false).2 = true ∧ (ringDev {}).busOn 0 = true ∧
    entFld ([1] ++ List.replicate 63 0) 0 1 0 1 = 1 - 0 / (ringDev {}).ringSize 3 % 2 ∧ entGood 3 (List.replicate 64 0) = false ∧
    entGood 3 ([1, 3, 0, 0, 0, 0, 1] ++ List.replicate 57 0) = true ∧
    (ringDev {}).badAddr 3 0 64 64 = false ∧ (ringDev {}).badAddr 3 1 64 64 = true := by decide +kernel
theorem witness_rxPacket : ∃ d : Device, d.clocked = true ∧ (d.host.traps.find? fun t => t.ring = 3).isSome = true ∧
    ((d.frame 0).map fun f => f.ended && f.checked) = some true ∧ d.ringTakes 3 2 = true ∧ (d.ring 3).held ≠ [] ∧ (d.ring 3).st ≠ .halted ∧
    (d.ringPay 3 124 true).2 = true ∧ (d.postWrite 0 0 []).isSome = true :=
  ⟨{ (ringDev { st := .active, held := [⟨0, 0, 2048⟩] }) with
      file := ((ringDev {}).setReg (A.RINGS_RW_CTRL 3) (F.RINGS_RW_CTRL_EN.put (F.RINGS_RW_CTRL_TYPE.put
        (F.RINGS_RW_CTRL_LOG2_SIZE.put 0 4) 2) 1)).file
      pkt := { frames := [(0, { id := 0, gal := 0, inPort := 1, ended := true, bytes := List.replicate 64 0 })] }
      host := { (ringDev { st := .active, held := [⟨0, 0, 2048⟩] }).host with traps := [⟨0, 3, 1, {}, 0, 0xFF, 0, 0, 0⟩] } },
    by decide +kernel⟩
theorem witness_notice : ∃ d : Device, d.clocked = true ∧ d.table.notices ≠ [] ∧
    d.ringTakes (F.TABLE_LEARN_CFG_NOTIFY_RING.get (d.cfg A.TABLE_LEARN_CFG)) 4 = false :=
  ⟨inState .run { table := { notices := [⟨.insert, 0, 0, 0, 0, 0⟩] } }, by decide +kernel⟩
theorem witness_outside : (ringDev {}).inWindow ((ringDev {}).ringFn 3) ((ringDev {}).ringBase 3 + 64 * (0 % (ringDev {}).ringSize 3)) 64 = true ∧
    ((ringDev {}).setReg (A.HOST_FN_WIN_LIMIT_HI 0) 0).inWindow 0 (2 ^ 33) 64 = false := by decide +kernel
theorem witness_frameTimeout : ∃ d : Device, d.mayRead 3 = true ∧ d.ringType 3 = 1 ∧ (d.ring 3).lateData = true :=
  ⟨{ (ringDev { st := .active, lateData := true }) with
      file := ((ringDev {}).setReg (A.RINGS_RW_CTRL 3) (F.RINGS_RW_CTRL_EN.put (F.RINGS_RW_CTRL_TYPE.put
        (F.RINGS_RW_CTRL_LOG2_SIZE.put 0 4) 1) 1)).file }, by decide +kernel⟩
theorem witness_hostTimeout : (ringDev { st := .active, lateEntry := true }).mayRead 3 = true ∧
    ((ringDev { st := .active, lateEntry := true }).ring 3).lateEntry = true ∧
    ((ringDev { st := .active, lateRow := true, jobs := [⟨0, 1, false, 0, 0, 7, 1, 0, 0⟩] }).frontJob 3 1).isSome = true := by decide +kernel

end Sys2Proof.Tests
end

/-! What recording an access leaves in the header of its page, and the accesses that are recorded and do nothing else
(R352, R355). -/

namespace Sys2Proof.Machine

-- Recording an access (R355) ----------------------------------------------------------------------------------------

/-- The first access since a clear is kept in ERR_FIRST, and the count becomes 1. -/
theorem errWord_of_count_eq_zero {d : Device} {b : Nat} (w : Word) (h : (d.reg (b + 0x24)).toNat = 0) :
    d.errWord b w = (d.setReg (b + 0x20) w).setReg (b + 0x24) 1#32 := by
  simp [Device.errWord, h]

/-- A later access is counted alone. -/
theorem errWord_of_count_ne_zero {d : Device} {b : Nat} (w : Word) (h : (d.reg (b + 0x24)).toNat ≠ 0) :
    d.errWord b w = d.setReg (b + 0x24) (BitVec.ofNat 32 (min ((d.reg (b + 0x24)).toNat + 1) 0xFFFF)) := by
  simp [Device.errWord, h]

section
variable {d : Device} (hw : tabWf regReset d.file.regs = true) (b : Nat) (w : Word)
include hw

/-- ERR_COUNT counts one more, up to 0xFFFF. -/
theorem errWord_count :
    ((d.errWord b w).reg (b + 0x24)).toNat = min ((d.reg (b + 0x24)).toNat + 1) 0xFFFF := by
  by_cases h : (d.reg (b + 0x24)).toNat = 0
  · rw [errWord_of_count_eq_zero w h, Device.reg_setReg_same (Device.setReg_wf hw _ _), h]
    rfl
  · rw [errWord_of_count_ne_zero w h, Device.reg_setReg_same hw, BitVec.toNat_ofNat]
    omega

/-- ERR_FIRST takes the access where the count was 0. -/
theorem errWord_first_of_count_eq_zero (h : (d.reg (b + 0x24)).toNat = 0) : (d.errWord b w).reg (b + 0x20) = w := by
  rw [errWord_of_count_eq_zero w h, Device.reg_setReg_other (Device.setReg_wf hw _ _) _ (by omega),
    Device.reg_setReg_same hw]

/-- ERR_FIRST keeps the earlier access where the count was not 0. -/
theorem errWord_first_of_count_ne_zero (h : (d.reg (b + 0x24)).toNat ≠ 0) :
    (d.errWord b w).reg (b + 0x20) = d.reg (b + 0x20) := by
  rw [errWord_of_count_ne_zero w h, Device.reg_setReg_other hw _ (by omega)]

end

/-- Beyond `errWord`, recording an access only notes it for an ERR_CLR of the same cycle (R361): the registers are those that
`errWord` leaves. -/
theorem err_reg (d : Device) (b o : Nat) (k : ErrKind) (src : Source) (a : Nat) : (d.err b o k src).reg a =
    (d.errWord b (BitVec.ofNat 32 (o % 65536 + k.code * 65536 + if src = .smbus then 0x80000 else 0))).reg a := rfl

/-- Settles O35: the two cases of ERR_COUNT, and the frame of `errWord` for every other register. -/
theorem recordedAccesses : Obligations.RecordedAccesses := by
  unfold Obligations.RecordedAccesses
  intro d base off k src hw
  have other : ∀ a, a ≠ base + 0x20 → a ≠ base + 0x24 → (d.err base off k src).reg a = d.reg a :=
    fun _ h1 h2 => err_reg_other hw base off k src h1 h2
  refine ⟨?count, ?first, ?kept, other, ?irq, Device.err_file d base off k src⟩
  case count => rw [err_reg, errWord_count hw]
  case first => exact fun h => (err_reg ..).trans (errWord_first_of_count_eq_zero hw base _ h)
  case kept => exact fun h => (err_reg ..).trans (errWord_first_of_count_ne_zero hw base _ h)
  case irq =>
    intro n
    rw [Device.irqSet, other _ (by omega) (by omega), Device.irqSet]

-- Accesses that reach nothing (R352) --------------------------------------------------------------------------------

/-- The operands of a whole-word access by a source's path to BAR0 lie in their ranges. -/
theorem wordAccess_ok (src : Source) {a : Nat} (ha : a < 2 ^ 28) :
    ((viaOf src).ok && bar0Ok a && byteEnOk 0xF) = true := by
  have hb : bar0Ok a = true := decide_eq_true ha
  cases src <;> simp [viaOf, Via.ok, hb, byteEnOk, ltOk]

/-- What a whole-word register write that names no cycle makes of the device is what the bus makes of it. -/
theorem makes_registerWrite_word {s : State} {src : Source} {a : Nat} {w : Word} {g : Device → Device} (ha : a < 2 ^ 28)
    (hg : busWrite s.dev src a 0xF w = g s.dev) : Makes (.registerWrite (viaOf src) a 0xF w none) s g :=
  makes_run (f := fun d => d.viaWrite (viaOf src) a 0xF w) rfl
    ((Bool.and_true _).trans (wordAccess_ok src ha)) (viaWrite_src.trans hg)

/-- What a whole-word register read makes of the device is what the bus makes of it. -/
theorem makes_loReadLatch_word {s : State} {src : Source} {a : Nat} {g : Device → Device} (ha : a < 2 ^ 28)
    (hg : busReadStep s.dev src a 0xF = g s.dev) : Makes (.loReadLatch (viaOf src) a 0xF) s g :=
  makes_run (f := fun d => d.viaRead (viaOf src) a 0xF) rfl (wordAccess_ok src ha) (viaRead_src.trans hg)

/-- The counter-table window lies at 0x4000000 to 0x7FFFFFF (R370). -/
theorem targetOf_table {a : Nat} (hlo : 0x4000000 ≤ a) (hhi : a < 0x8000000) : targetOf a = .table (a - 0x4000000) :=
  if_pos ⟨hlo, hhi⟩

/-- A write to the counter-table window is recorded in TOP and has no other effect. -/
theorem busWrite_table {d : Device} {src : Source} {a o : Nat} {w : Word} (hg : d.reachable src) (ha : a % 4 = 0)
    (ht : targetOf a = .table o) : busWrite d src a 0xF w = d.err 0 a .unmapped src := by
  simp [busWrite, show d.gate src = .open_ from hg, Device.writeReg, wholeWord, ha, ht]

/-- Settles O36: on each of the three paths the bus comes to the record in TOP, and the read to 0 besides. -/
theorem unmappedAccesses : Obligations.UnmappedAccesses := by
  unfold Obligations.UnmappedAccesses
  refine ⟨?unmappedWrite, ?tableWrite, ?unmappedRead⟩
  case unmappedWrite =>
    intro s src a w hg ha hlt ht
    exact makes_registerWrite_word hlt (busWrite_unmapped hg ha ht)
  case tableWrite =>
    intro s src a w hg ha hlo hhi
    exact makes_registerWrite_word (by omega) (busWrite_table hg ha (targetOf_table hlo hhi))
  case unmappedRead =>
    intro s src a hg ha hlt ht
    exact makes_loReadLatch_word hlt (busReadStep_unmapped hg ha ht)

end Sys2Proof.Machine

/-! The queue, and what every command keeps to: each command that exists completes and takes nothing from the queue; and the
device's modes change along the arcs of R26, R30, R35, R47 and R68 only. -/

namespace Sys2Proof.Machine

-- The queue (log entries 1 and 2) -----------------------------------------------------------------------------------

/-- A command that exists answers a next state that differs in the device at most, and in the same device whatever waits. -/
theorem exec_wf {c : Instr} (hw : c.wf = true) (s : State) :
    ∃ d, ∀ p, exec c { s with pending := p } = .next { dev := d, pending := p } := by
  obtain ⟨f, hf⟩ := exec_shape c s
  exact ⟨f s.dev, fun p => (hf p).trans (run_eq hw)⟩

/-- A command with an operand out of its range is refused by name. -/
theorem exec_not_wf {c : Instr} (hw : c.wf = false) (s : State) : exec c s = .refused .noSuchCommand := by
  obtain ⟨f, hf⟩ := exec_shape c s
  refine (hf s.pending).trans ?_
  simp [State.run, hw]

/-- A step takes the command at the front and carries it out with the rest of the queue. -/
theorem step_cons {s : State} {c : Instr} {rest : List Instr} (h : s.pending = c :: rest) :
    step s = exec c { s with pending := rest } := by
  simp [step, h]

/-- With no command waiting the block idles. -/
theorem step_nil {s : State} (h : s.pending = []) : step s = .next s := by
  simp [step, h]

/-- Of a queue whose commands all exist, the first does and the rest do. -/
theorem queueOk_cons {s : State} {c : Instr} {rest : List Instr} (hq : s.queueOk = true) (h : s.pending = c :: rest) :
    c.wf = true ∧ ∀ d, ({ dev := d, pending := rest } : State).queueOk = true := by
  have k : (c.wf && rest.all Instr.wf) = true := by simpa only [State.queueOk, h, List.all_cons] using hq
  exact ⟨(Bool.and_eq_true_iff.1 k).1, fun _ => (Bool.and_eq_true_iff.1 k).2⟩

/-- Settles O1. -/
theorem stepTakesTheFrontCommand : Obligations.StepTakesTheFrontCommand := by
  unfold Obligations.StepTakesTheFrontCommand
  exact ⟨fun _ _ => step_cons rfl, fun _ => step_nil⟩

/-- Settles O2. -/
theorem commandsComplete : Obligations.CommandsComplete := by
  unfold Obligations.CommandsComplete
  intro c s
  refine ⟨fun hw => ?_, fun hw => exec_not_wf hw s⟩
  obtain ⟨d, hd⟩ := exec_wf hw s
  exact ⟨d, hd s.pending⟩

/-- Settles O4: a step on an empty queue idles, and one on another carries out its first command. -/
theorem queueInvariant : Obligations.QueueInvariant := by
  unfold Obligations.QueueInvariant
  intro s hq
  match h : s.pending with
  | [] => exact ⟨s, step_nil h, hq⟩
  | c :: rest =>
    obtain ⟨hw, hrest⟩ := queueOk_cons hq h
    obtain ⟨d, hd⟩ := exec_wf hw s
    exact ⟨_, (step_cons h).trans (hd rest), hrest d⟩

/-- One more step of a run, when that step answers a next state. -/
theorem run_succ {s t : State} (h : step s = .next t) (n : Nat) : Host.Core.run core (n + 1) s = Host.Core.run core n t := by
  have hM : ∀ {M : Host.Core} {s t : M.State}, M.step s = .next t → M.run (n + 1) s = M.run n t := by
    intro M s t h
    rw [Host.Core.run, h]
  exact hM (M := core) (s := s) (t := t) h

/-- A queue of commands that exist runs dry in as many steps as it has commands. -/
theorem run_queue (q : List Instr) : ∀ d : Device, ({ dev := d, pending := q } : State).queueOk = true →
    ∃ e, Host.Core.run core q.length ({ dev := d, pending := q } : State) = .next ({ dev := e, pending := [] } : State) := by
  induction q with
  | nil => exact fun d _ => ⟨d, rfl⟩
  | cons c rest ih =>
    intro d hq
    obtain ⟨hw, hrest⟩ := queueOk_cons hq rfl
    obtain ⟨e, he⟩ := exec_wf hw { dev := d, pending := [] }
    obtain ⟨g, hg⟩ := ih e (hrest e)
    have hs : step { dev := d, pending := c :: rest } = .next { dev := e, pending := rest } := (step_cons rfl).trans (he rest)
    exact ⟨g, (run_succ hs rest.length).trans hg⟩

/-- Settles O6: the run of the queue is the run of its rest from what its first command leaves. -/
theorem runsToTheEnd : Obligations.RunsToTheEnd := by
  unfold Obligations.RunsToTheEnd
  rintro ⟨dev, q⟩ hq
  obtain ⟨d, hd⟩ := run_queue q dev hq
  refine ⟨d, hd, fun c rest h => ?_⟩
  obtain rfl : q = c :: rest := h
  obtain ⟨e, he⟩ := exec_wf (queueOk_cons hq rfl).1 { dev := dev, pending := [] }
  have hs : step { dev := dev, pending := c :: rest } = .next { dev := e, pending := rest } := (step_cons rfl).trans (he rest)
  exact ⟨e, he [], (run_succ hs rest.length).symm.trans hd⟩

/-- Settles O7. -/
theorem deviceAfterReset : Obligations.DeviceAfterReset := by
  unfold Obligations.DeviceAfterReset
  exact ⟨rfl, rfl, rfl, fun _ => rfl, fun _ => rfl, rfl, rfl, rfl, rfl, by decide +kernel, by decide +kernel⟩

-- The modes (R26, R30, R35, R47, R68) -------------------------------------------------------------------------------

/-- Settles O11: every other command runs a function of the device that keeps the modes. -/
theorem modesChangeOnlyByEleven : Obligations.ModesChangeOnlyByEleven := by
  unfold Obligations.ModesChangeOnlyByEleven
  intro c s t hc ht
  obtain ⟨f, hf, he⟩ := exec_same c hc
  have k : Same s.dev t.dev := by
    rw [run_next (he s) ht]
    exact hf s.dev
  exact ⟨k.state, k.fenced, k.num, k.active, k.prof, k.cold, k.warm⟩

/-- Settles O12: case by case of what a command can make of the modes. -/
theorem deviceStateMoves : Obligations.DeviceStateMoves := by
  unfold Obligations.DeviceStateMoves
  intro c s t ht hne
  rcases exec_modes ht with k | ⟨a, rfl, hoff, hb⟩ | ⟨-, -, hc⟩ | ⟨rfl, e⟩ | ⟨rfl, e⟩ | ⟨rfl, hoff, hb⟩ | ⟨rfl, e⟩ | ⟨rfl, e⟩
  case inl => exact absurd k.state hne
  case inr.inl => exact ⟨hoff, hb.state⟩
  case inr.inr.inl =>
    rcases hc with ⟨⟨g, n, rfl⟩ | ⟨g, rfl⟩, h⟩ | ⟨⟨a, b, e, rfl⟩, h⟩ | ⟨rfl, h⟩ | ⟨v, rfl, h⟩ <;> exact h
  case inr.inr.inr.inl =>
    have hs := (galleryFence_modes s.dev).2.2.2.2
    rw [← e] at hs
    split at hs
    · rename_i h
      exact ⟨h.2, h.1, hs⟩
    · exact absurd hs hne
  case inr.inr.inr.inr.inl =>
    rw [e] at hne
    rcases genFlip_modes s.dev with k | ⟨-, hs, -⟩
    · exact absurd k.state hne
    · exact absurd hs hne
  case inr.inr.inr.inr.inr.inl => exact ⟨hoff, hb.state⟩
  case inr.inr.inr.inr.inr.inr.inl =>
    rw [e] at hne
    rcases strokeBoundary_cases s.dev with h | ⟨hc, ⟨hs, -⟩ | hb⟩
    · exact absurd (congrArg (·.dev.state) h) hne
    · exact absurd hs hne
    · exact ⟨hc, e ▸ hb.state⟩
  case inr.inr.inr.inr.inr.inr.inr =>
    rw [e] at hne
    rcases supplyOutOfRange_modes s.dev with h | ⟨hs, -⟩
    · exact absurd (congrArg (·.dev.state) h) hne
    · exact e ▸ hs

/-- Settles O13: a power, reset or boundary command that does not keep the fenced galleries leaves none. -/
theorem fencedUntilReset : Obligations.FencedUntilReset := by
  unfold Obligations.FencedUntilReset
  intro c s t ht
  rcases exec_modes ht with k | ⟨a, rfl, -, hb⟩ | ⟨-, k, -⟩ | ⟨rfl, e⟩ | ⟨rfl, e⟩ | ⟨rfl, -, hb⟩ | ⟨rfl, e⟩ | ⟨rfl, e⟩
  case inl => exact .inl k.fenced
  case inr.inl => exact .inr (.inr ⟨hb.fenced, .inl hb.state, .inr (.inr (.inr ⟨a, rfl⟩))⟩)
  case inr.inr.inl => exact .inl k.fenced
  case inr.inr.inr.inl => exact .inr (.inl ⟨rfl, e ▸ (galleryFence_modes s.dev).1⟩)
  case inr.inr.inr.inr.inl =>
    rw [e]
    rcases genFlip_modes s.dev with k | ⟨-, -, hf, -⟩
    · exact .inl k.fenced
    · exact .inl hf
  case inr.inr.inr.inr.inr.inl => exact .inr (.inr ⟨hb.fenced, .inl hb.state, .inr (.inl rfl)⟩)
  case inr.inr.inr.inr.inr.inr.inl =>
    rw [e]
    rcases strokeBoundary_cases s.dev with h | ⟨-, ⟨-, hf, -⟩ | hb⟩
    · exact .inl (congrArg (·.dev.fenced) h)
    · exact .inl hf
    · exact .inr (.inr ⟨hb.fenced, .inl hb.state, .inl rfl⟩)
  case inr.inr.inr.inr.inr.inr.inr =>
    rw [e]
    rcases supplyOutOfRange_modes s.dev with h | ⟨hs, hf, -⟩
    · exact .inl (congrArg (·.dev.fenced) h)
    · exact .inr (.inr ⟨hf, .inr hs, .inr (.inr (.inl rfl))⟩)

/-- Settles O14: a flip counts the generation, a boundary the stroke, and what resets the device leaves all three at 0. -/
theorem generationsAndProfilesFlipOnly : Obligations.GenerationsAndProfilesFlipOnly := by
  unfold Obligations.GenerationsAndProfilesFlipOnly
  intro c s t ht
  have blank : Blank t.dev → t.dev.gen.active = 0#32 ∧ t.dev.profile.active = 0 ∧ t.dev.stroke.num = 0#64 ∧
      (t.dev.dev.state = .reset ∨ t.dev.dev.state = .off) := fun hb => ⟨hb.active, hb.prof, hb.num, .inl hb.state⟩
  rcases exec_modes ht with k | ⟨a, rfl, -, hb⟩ | ⟨-, k, -⟩ | ⟨rfl, e⟩ | ⟨rfl, e⟩ | ⟨rfl, -, hb⟩ | ⟨rfl, e⟩ | ⟨rfl, e⟩
  case inl => exact .inl ⟨k.active, k.prof, k.num⟩
  case inr.inl => exact .inr (.inr (.inr (blank hb)))
  case inr.inr.inl => exact .inl ⟨k.active, k.prof, k.num⟩
  case inr.inr.inr.inl =>
    obtain ⟨-, hn, ha, hp, -⟩ := galleryFence_modes s.dev
    exact .inl (e ▸ ⟨ha, hp, hn⟩)
  case inr.inr.inr.inr.inl =>
    rw [e]
    rcases genFlip_modes s.dev with k | ⟨hd, -, -, hn, ha, hp⟩
    · exact .inl ⟨k.active, k.prof, k.num⟩
    · exact .inr (.inl ⟨rfl, hd, ha, hp, hn⟩)
  case inr.inr.inr.inr.inr.inl => exact .inr (.inr (.inr (blank hb)))
  case inr.inr.inr.inr.inr.inr.inl =>
    rcases strokeBoundary_cases s.dev with h | ⟨-, ⟨-, -, hn, ha, hp, -⟩ | hb⟩
    · exact .inl (by rw [e, h]; exact ⟨rfl, rfl, rfl⟩)
    · exact .inr (.inr (.inl (e ▸ ⟨rfl, ha, hp, hn⟩)))
    · exact .inr (.inr (.inr (blank (e ▸ hb))))
  case inr.inr.inr.inr.inr.inr.inr =>
    rw [e]
    rcases supplyOutOfRange_modes s.dev with h | ⟨hs, -, hn, ha, hp⟩
    · exact .inl (by rw [h]; exact ⟨rfl, rfl, rfl⟩)
    · exact .inr (.inr (.inr ⟨ha, hp, hn, .inr hs⟩))

/-- A boundary with a reset asked for leaves the device blank and held in RESET (R408). -/
theorem resetBoundary_made {d : Device} (h : d.boot.cold = true ∨ d.boot.warm = true) :
    Blank d.resetBoundary ∧ d.resetBoundary.boot.hold = true := by
  refine ⟨?_, ?_⟩
  · rcases d.resetBoundary_modes with ⟨-, hc, hw⟩ | ⟨hb, -⟩
    · simp [hc, hw] at h
    · exact hb
  · simp [Device.resetBoundary, h]

/-- Settles O15: what a boundary makes of the modes comes before the reset that was asked for. -/
theorem boundaryCountsAndResets : Obligations.BoundaryCountsAndResets := by
  unfold Obligations.BoundaryCountsAndResets
  refine ⟨fun s hc hcold hwarm => ?none, fun s hc hask => ?asked⟩
  case none =>
    obtain ⟨p, hp, hs, hf, hn, ha, hpr, hpc, hpw⟩ := strokeBoundary_modes hc
    have hp' : strokeBoundary s.dev = p := by
      rw [hp]
      simp [Device.resetBoundary, hpc, hpw, hcold, hwarm]
    refine completes_run (f := strokeBoundary) rfl rfl ?_
    rw [hp']
    exact ⟨hn, hs, hf, ha, hpr, hpc.trans hcold, hpw.trans hwarm⟩
  case asked =>
    obtain ⟨p, hp, -, -, -, -, -, hpc, hpw⟩ := strokeBoundary_modes hc
    obtain ⟨hb, hh⟩ := resetBoundary_made (d := p) (by rwa [hpc, hpw])
    refine completes_run (f := strokeBoundary) rfl rfl ?_
    rw [hp]
    exact ⟨hb.state, hb.fenced, hb.num, hb.active, hb.prof, hh⟩

end Sys2Proof.Machine

/-! Accesses that break R6 or that the device does not answer (R26, R28, R353, R414). -/

namespace Sys2Proof.Machine

/-- The operands of an access by a source's path to BAR0 lie in their ranges. -/
theorem access_ok (src : Source) {a be : Nat} (ha : a < 2 ^ 28) (hb : be < 256) :
    ((viaOf src).ok && bar0Ok a && byteEnOk be) = true := by
  have h1 : bar0Ok a = true := decide_eq_true ha
  have h2 : byteEnOk be = true := decide_eq_true hb
  cases src <;> simp [viaOf, Via.ok, h1, h2]

/-- What a register write that names no cycle makes of the device is what the bus makes of it. -/
theorem makes_registerWrite {s : State} {src : Source} {a be : Nat} {w : Word} {g : Device → Device} (ha : a < 2 ^ 28)
    (hb : be < 256) (hg : busWrite s.dev src a be w = g s.dev) : Makes (.registerWrite (viaOf src) a be w none) s g := by
  refine makes_run (f := fun d => d.viaWrite (viaOf src) a be w) rfl ((Bool.and_true _).trans (access_ok src ha hb)) ?_
  cases src <;> exact hg

/-- What a register read makes of the device is what the bus makes of it. -/
theorem makes_loReadLatch {s : State} {src : Source} {a be : Nat} {g : Device → Device} (ha : a < 2 ^ 28)
    (hb : be < 256) (hg : busReadStep s.dev src a be = g s.dev) : Makes (.loReadLatch (viaOf src) a be) s g := by
  refine makes_run (f := fun d => d.viaRead (viaOf src) a be) rfl (access_ok src ha hb) ?_
  cases src <;> exact hg

-- Broken accesses (R353) --------------------------------------------------------------------------------------------

section
variable {d : Device} {src : Source} {a be : Nat} (hg : d.reachable src) (hbad : a % 4 ≠ 0 ∨ be ≠ 15)
include hg hbad

/-- A write that is not one whole aligned word is recorded alone. -/
theorem busWrite_bad (w : Word) : busWrite d src a be w = d.badAccess src a := by
  have hw : wholeWord a be = false := decide_eq_false (by omega)
  simp [busWrite, show d.gate src = .open_ from hg, Device.writeReg, hw]

/-- And so is such a read, which returns 0. -/
theorem busReadStep_bad : busReadStep d src a be = (d.badAccess src a).readData src 0 := by
  have hw : wholeWord a be = false := decide_eq_false (by omega)
  cases src <;>
    simp [busReadStep, Device.busRead, show d.gate _ = .open_ from hg, Device.readReg, hw, Device.readData]

end

/-- Where nothing is mapped, the record is TOP's. -/
theorem badAccess_unmapped {d : Device} {src : Source} {a : Nat} (h : pageOf a = none) :
    d.badAccess src a = d.err 0 a .badAccess src := by
  simp [Device.badAccess, h]

/-- Otherwise it is the addressed page's. -/
theorem badAccess_page {d : Device} {src : Source} {a inst base : Nat} {p : Page} (h : pageOf a = some (p, inst, base))
    (hp : p ≠ .rings) : d.badAccess src a = d.err base (a - base) .badAccess src := by
  simp only [Device.badAccess, h]

/-- Settles O37. -/
theorem badAccesses : Obligations.BadAccesses := by
  unfold Obligations.BadAccesses
  refine ⟨fun s src a be w hg ha hb hbad => ⟨fun h => ?_, fun p inst base h hp => ?_⟩,
    fun s src a be hg ha hb hbad => ⟨fun h => ?_, fun p inst base h hp => ?_⟩⟩
  · exact makes_registerWrite ha hb ((busWrite_bad hg hbad w).trans (badAccess_unmapped h))
  · exact makes_registerWrite ha hb ((busWrite_bad hg hbad w).trans (badAccess_page h hp))
  · exact makes_loReadLatch ha hb ((busReadStep_bad hg hbad).trans (by rw [badAccess_unmapped h]))
  · exact makes_loReadLatch ha hb ((busReadStep_bad hg hbad).trans (by rw [badAccess_page h hp]))

-- Accesses that are not answered (R26, R28, R406, R414) -------------------------------------------------------------

/-- A write that the device does not answer, or that the management block answers alone, changes nothing. -/
theorem busWrite_shut {d : Device} {src : Source} (a be : Nat) (w : Word) (hg : d.gate src = .silent ∨ d.gate src = .closed) :
    busWrite d src a be w = d := by
  rcases hg with h | h <;> simp [busWrite, h]

/-- In BOOT a whole-word write off the TOP page is refused. -/
theorem busWrite_boot {d : Device} {src : Source} {a : Nat} (w : Word) (hg : d.gate src = .bootOnly) (ha : a % 4 = 0)
    (hlo : 0x10000 ≤ a) (ht : targetOf a ≠ .unmapped) : busWrite d src a 0xF w = d.err 0 a .refused src := by
  simp [busWrite, hg, hlo, ht, wholeWord, ha]

/-- Settles O38: the two kinds of a write that is not carried out, and the gate in each device state. -/
theorem closedAccesses : Obligations.ClosedAccesses := by
  unfold Obligations.ClosedAccesses
  refine ⟨fun s src a be w hg ha hb => ?shut, fun s src a w hg ha hlo hlt ht => ?boot, fun d => ⟨fun h src => ?off, ?closed, ?perst⟩⟩
  case shut => exact makes_registerWrite (g := fun d => d) ha hb (busWrite_shut a be w hg)
  case boot => exact makes_registerWrite_word hlt (busWrite_boot w hg ha hlo ht)
  case off => cases src <;> simp [Device.gate, h]
  case closed => rintro (h | h) <;> simp [Device.gate, h]
  case perst =>
    intro h hp
    cases hs : d.dev.state <;> simp_all [Device.gate]

end Sys2Proof.Machine

/-! Power, resets and GO (R26, R28, R76, R384, R405 to R417). -/

namespace Sys2Proof.Machine

-- Operands in their ranges ------------------------------------------------------------------------------------------

@[simp] theorem ltOk_iff {n k : Nat} : ltOk n k = true ↔ k < n := decide_eq_true_iff
@[simp] theorem galOk_iff {n : Nat} : galOk n = true ↔ n < 32 := ltOk_iff
@[simp] theorem portOk_iff {p : Nat} : portOk p = true ↔ p < 1024 := ltOk_iff
@[simp] theorem laneOk_iff {l : Nat} : laneOk l = true ↔ l < 1024 := ltOk_iff
@[simp] theorem linkOk_iff {k : Nat} : linkOk k = true ↔ k < 128 := ltOk_iff
@[simp] theorem chipletOk_iff {c : Nat} : chipletOk c = true ↔ c < 8 := ltOk_iff
@[simp] theorem cycOk_iff {c : Nat} : cycOk c = true ↔ c < 256 := ltOk_iff
@[simp] theorem seqOk_iff {q : Nat} : seqOk q = true ↔ q < 16 := ltOk_iff
@[simp] theorem roleOk_iff {r : Nat} : roleOk r = true ↔ 1 ≤ r ∧ r ≤ 5 := decide_eq_true_iff
@[simp] theorem imageOk_iff {r : Nat} : imageOk r = true ↔ r < 6 := ltOk_iff
@[simp] theorem ringOk_iff {r : Nat} : ringOk r = true ↔ r < 512 := ltOk_iff
@[simp] theorem poolOk_iff {p : Nat} : poolOk p = true ↔ p < 4 := ltOk_iff
@[simp] theorem anvilOk_iff {a : Nat} : anvilOk a = true ↔ a < 64 := ltOk_iff
@[simp] theorem groupOk_iff {g : Nat} : groupOk g = true ↔ g < 65536 := ltOk_iff
@[simp] theorem vfOk_iff {f : Nat} : vfOk f = true ↔ 1 ≤ f ∧ f ≤ 31 := decide_eq_true_iff

-- Resets (R408, R409) -----------------------------------------------------------------------------------------------

/-- Two devices whose outputs stand alike: on the balls, and in what has been sent. -/
def SameOut (d e : Device) : Prop := d.pulse = e.pulse ∧ d.sent = e.sent

theorem SameOut.ppsLower {d e : Device} (h : SameOut d e) (k : Nat) : SameOut (d.ppsLower k) (e.ppsLower k) := by
  obtain ⟨hp, hs⟩ := h
  unfold Device.ppsLower SameOut
  rw [hp]
  split <;> simp [hp, hs, Device.send]

theorem SameOut.squelch {d e : Device} (h : SameOut d e) : SameOut d.squelch e.squelch := by
  unfold Device.squelch
  refine List.foldl_rel h fun k _ d e h => ?_
  obtain ⟨hp, hs⟩ := h
  dsimp only
  unfold SameOut
  rw [hp]
  split <;> simp [hp, hs, Device.send]

/-- How the time outputs stand decides what is sent to drive them low. -/
theorem SameOut.timeLow {d e : Device} (h : SameOut d e) : SameOut d.timeLow e.timeLow := by
  unfold Device.timeLow
  exact (List.foldl_rel h fun k _ _ _ h => h.ppsLower k).squelch

/-- A cold reset sends what drives the time outputs low, and nothing else. -/
theorem fullReset_sent (d : Device) : (d.fullReset false).sent = d.timeLow.sent := by
  unfold Device.fullReset
  extract_lets d1 stroke d2 d3
  have h3 : d3.sent = d.timeLow.sent := (SameOut.timeLow (d := d2) (e := d) ⟨rfl, rfl⟩).2
  clear_value d3
  obtain ⟨n, h⟩ := tornRecord_2 d3
  simp only [h]
  exact h3

/-- With no register written, every register reads its reset value. -/
theorem reg_of_regs_nil {d : Device} (h : d.file.regs = []) (r : Nat) : d.reg r = regReset r := by
  simp [Device.reg, h, tabGet]

/-- POWER_UP. -/
theorem powerUp_off {d : Device} (a : Nat) (h : d.dev.state = .off) : (powerUp d a).dev.state = .reset ∧
    (powerUp d a).boot.perstLow = true ∧ (powerUp d a).mgmt.smbStrap = a % 4 ∧ (∀ r, (powerUp d a).reg r = regReset r) ∧
    (powerUp d a).sent = d.timeLow.sent := by
  rw [powerUp, if_neg (by simp [h])]
  exact ⟨(d.fullReset_blank false).state, rfl, rfl, reg_of_regs_nil (fullReset_cold d), fullReset_sent d⟩

/-- SUPPLY_OUT_OF_RANGE. -/
theorem supplyOutOfRange_on {d : Device} (h : d.dev.state ≠ .off) : (supplyOutOfRange d).dev.state = .off ∧
    (∀ r, (supplyOutOfRange d).reg r = regReset r) ∧ (∀ r, (supplyOutOfRange d).cnt r = 0) ∧
    (supplyOutOfRange d).sent = d.timeLow.sent := by
  rw [supplyOutOfRange, if_neg h]
  exact ⟨rfl, reg_of_regs_nil (fullReset_cold d), fun _ => rfl, fullReset_sent d⟩

-- The end of RESET (R403, R409, R410) -------------------------------------------------------------------------------

/-- The units that time running on through a warm reset, and an interruption that goes on, leave alone. -/
def Device.offTime (d : Device) : DevCtl × BootUnit × GenUnit × RasUnit × MgmtUnit × DamperUnit :=
  (d.dev, d.boot, d.gen, d.ras, d.mgmt, d.damper)

theorem ppsLower_offTime (d : Device) (k : Nat) : (d.ppsLower k).offTime = d.offTime := by
  unfold Device.ppsLower
  split <;> rfl

theorem ppsRuns_offTime (d : Device) (was k : Nat) : (d.ppsRuns was k).offTime = d.offTime := by
  unfold Device.ppsRuns
  extract_lets width ofs now n d1 since high whole d2 d3
  have h1 : d1.offTime = d.offTime := by
    dsimp only [d1]
    split
    · exact ppsLower_offTime d k
    · rfl
  have h2 : d2.offTime = d1.offTime := by
    dsimp only [d2]
    split <;> rfl
  clear_value d1 d2
  split <;> exact h2.trans h1

theorem trigRuns_offTime (d : Device) (k : Nat) : (d.trigRuns k).offTime = d.offTime := by
  unfold Device.trigRuns
  extract_lets
  split <;> rfl

theorem timeRuns_offTime (d : Device) (t : Nat) : (d.timeRuns t).offTime = d.offTime := by
  unfold Device.timeRuns
  extract_lets was d1 d2 d3 sec lost d4
  calc _ = d3.offTime := by simp [Device.offTime, d4]
    _ = d2.offTime := foldl_frame Device.offTime (fun d k => trigRuns_offTime d k) _ d2
    _ = d1.offTime := foldl_frame Device.offTime (fun d k => ppsRuns_offTime d was k) _ d1

/-- BOOT is entered at 1.600 GHz, with the boot source sampled; and but for the time after a warm reset nothing else moves. -/
theorem enterBoot_spec (d : Device) (g ns : Nat) (hg : g < 4) : (d.enterBoot g ns).dev.state = .boot ∧
    (d.enterBoot g ns).boot.perstLow = d.boot.perstLow ∧ (d.enterBoot g ns).boot.hold = false ∧
    (d.enterBoot g ns).boot.strap = min g 2 ∧ (d.enterBoot g ns).damper.slow = true ∧ (d.enterBoot g ns).gen = d.gen ∧
    (d.enterBoot g ns).ras = d.ras ∧ (d.enterBoot g ns).mgmt = d.mgmt ∧
    (d.boot.wasWarm = false → (d.enterBoot g ns).sent = d.sent ∧ (d.enterBoot g ns).clock = d.clock) := by
  unfold Device.enterBoot
  extract_lets d1 x y d2
  have h1 : d1.offTime = d.offTime ∧ (d.boot.wasWarm = false → d1.sent = d.sent ∧ d1.clock = d.clock) := by
    dsimp only [d1]
    split
    · exact ⟨timeRuns_offTime _ _, fun h => by simp_all⟩
    · split <;> exact ⟨rfl, fun _ => ⟨rfl, rfl⟩⟩
  obtain ⟨f, e⟩ := toState_shape d2 .boot
  clear_value d1
  obtain ⟨hk, hc⟩ := h1
  simp only [Device.offTime, Prod.mk.injEq] at hk
  obtain ⟨-, hb, hgen, hras, hmgmt, -⟩ := hk
  rw [e]
  refine ⟨rfl, congrArg (·.perstLow) hb, rfl, ?_, rfl, hgen, hras, hmgmt, hc⟩
  show min (g % 4) 2 = min g 2
  rw [Nat.mod_eq_of_lt hg]

-- PERST_N (R408, R417) ----------------------------------------------------------------------------------------------

/-- Settles O8. -/
theorem powerAndResetEvents : Obligations.PowerAndResetEvents := by
  unfold Obligations.PowerAndResetEvents
  refine ⟨?powerUp, ?supplies, ?release, ?hold, ?perstOff, ?perstReset, ?perstElse⟩
  case powerUp =>
    intro s a ha h
    refine completes_run (f := fun d => powerUp d a) rfl (by simp [Instr.wf, ha]) ?_
    simpa [Nat.mod_eq_of_lt ha] using powerUp_off a h
  case supplies => exact fun s h => completes_run (f := supplyOutOfRange) rfl rfl (supplyOutOfRange_on h)
  case release =>
    intro s g ns hg h hh
    refine completes_run (f := fun d => resetRelease d g ns) rfl (by simp [Instr.wf, hg]) ?_
    have he : resetRelease s.dev g ns = ({ s.dev with boot := { s.dev.boot with perstLow := false } } : Device).enterBoot g ns := by
      simp [resetRelease, h, hh]
    obtain ⟨h1, h2, -, h4⟩ := enterBoot_spec { s.dev with boot := { s.dev.boot with perstLow := false } } g ns hg
    rw [he]
    exact ⟨h1, h2, h4⟩
  case hold =>
    intro s g hg h hh
    refine completes_run (f := fun d => resetHoldExpire d g) rfl (by simp [Instr.wf, hg]) ?_
    have he : resetHoldExpire s.dev g = s.dev.enterBoot g 1000000 := by simp [resetHoldExpire, h, hh]
    obtain ⟨h1, -, h3⟩ := enterBoot_spec s.dev g 1000000 hg
    rw [he]
    exact ⟨h1, h3⟩
  case perstOff =>
    intro s h
    exact makes_run (f := perstFall) rfl rfl (by simp [perstFall, h])
  case perstReset =>
    intro s m h hm
    refine ⟨fun h0 => ?_, fun h1 => ?_, fun h0 h1 => ?_⟩
    · exact makes_run (f := perstFall) rfl rfl (by simp [perstFall, h, hm, h0])
    · exact makes_run (f := perstFall) rfl rfl (by simp [perstFall, h, hm, h1])
    · refine completes_run (f := perstFall) rfl rfl ?_
      have he : perstFall s.dev = ({ s.dev with boot := { s.dev.boot with perstLow := true } } : Device).fullReset false := by
        simp [perstFall, h, hm, h0, h1]
      have hb := Device.fullReset_blank { s.dev with boot := { s.dev.boot with perstLow := true } } false
      rw [he]
      exact ⟨hb.state, hb.num, hb.active⟩
  case perstElse =>
    intro s ho hr
    refine completes_run (f := perstFall) rfl rfl ?_
    generalize hm : F.TOP_RESET_CFG_PERST_MODE.get (s.dev.reg A.TOP_RESET_CFG) = m
    generalize hd : ({ s.dev with boot := { s.dev.boot with perstLow := true } } : Device) = d
    have he : perstFall s.dev = if m = 0 then d.hostReset else d.fullReset (m == 1) := by
      unfold perstFall
      extract_lets mode b e
      obtain rfl : e = d := hd
      obtain rfl : mode = m := hm
      split
      · exact absurd ‹_› ho
      · exact absurd ‹_› hr
      · rfl
    rw [he]
    by_cases h0 : m = 0
    · obtain ⟨h1, h2, h3, h4, h5⟩ := hostReset_eq d
      simp only [h0, if_true]
      subst hd
      exact ⟨h5, h1, h2, h3, h4⟩
    · simp only [h0, if_false]
      subst hd
      exact ⟨(fullReset_eq _ _).1, (Device.fullReset_blank _ _).state⟩

-- GO, shutdown and the register-made resets (R26, R28, R384, R408) --------------------------------------------------

/-- DEV_GO (R26). -/
theorem devGoWrite_go (d : Device) (src : Source) : devGoWrite d src (F.TOP_DEV_CTRL_GO.put 0 1) =
    if d.dev.state = .config then { d with dev := { d.dev with
      goPending := true, hwFence := d.dev.hwFence ||| BitVec.ofNat 32 d.ras.fenceAtGo } } else d.err 0 0x108 .refused src := by
  have hb : bit (F.TOP_DEV_CTRL_GO.put 0 1 : Word).toNat 0 = true := by decide
  unfold devGoWrite
  rw [hb]
  by_cases h : d.dev.state = .config
  · simp [h]
  · simp [h]
    rfl

/-- ENTER_RUN, when GO is due and no fence is. -/
theorem enterRun_state {d : Device} (hs : d.dev.state = .config) (hg : d.dev.goDue = true) (hf : d.dev.fenceDue = 0#32) :
    (enterRun d).dev.state = if d.dev.fenced = 0#32 then .run else .degraded := by
  obtain ⟨e, he⟩ : ∃ e : Device, enterRun d = e.toState (if d.dev.fenced = 0#32 then .run else .degraded) := by
    unfold enterRun
    split
    · simp_all
    · exact ⟨_, rfl⟩
  rw [he, toState_state]

/-- THERMAL_SHUTDOWN leaves all but the state, the register file and the outputs. -/
theorem thermalShutdown_hot {d : Device} {c : Int} (hc : 120 ≤ c) (hs : d.dev.state ≠ .off) :
    ∃ f p l, thermalShutdown d c = { d with dev := { d.dev with state := .thermal }, file := f, pulse := p, sent := l } := by
  obtain ⟨p, l, h1⟩ := timeLow_shape d
  obtain ⟨f, h2⟩ := toState_shape d.timeLow .thermal
  refine ⟨f, p, l, ?_⟩
  rw [thermalShutdown, if_neg (by simp [hs]; omega), h2, h1]

/-- Settles O10. -/
theorem goAndShutdownEvents : Obligations.GoAndShutdownEvents := by
  unfold Obligations.GoAndShutdownEvents
  refine ⟨?go, ?goElse, ?enterRun, ?thermal, ?cold, ?warm⟩
  case go =>
    intro s src hg hs
    refine makes_run (f := fun d => busWrite d src A.TOP_DEV_CTRL 0xF (F.TOP_DEV_CTRL_GO.put 0 1)) rfl rfl ?_
    rw [write_TOP_DEV_CTRL (.inl hg), devGoWrite_go, if_pos hs]
  case goElse =>
    intro s src hg hs
    refine makes_run (f := fun d => busWrite d src A.TOP_DEV_CTRL 0xF (F.TOP_DEV_CTRL_GO.put 0 1)) rfl rfl ?_
    rw [write_TOP_DEV_CTRL hg, devGoWrite_go, if_neg hs]
  case enterRun =>
    exact fun s hs hg hf => completes_clock (f := enterRun) rfl rfl (clocked_of_config hs) (enterRun_state hs hg hf)
  case thermal =>
    intro s c hc hs
    refine completes_run (f := fun d => thermalShutdown d c) rfl rfl ?_
    obtain ⟨f, p, l, h⟩ := thermalShutdown_hot hc hs
    rw [h]
    exact ⟨fun _ => rfl, rfl, f, p, l, rfl⟩
  case cold =>
    intro s src hg
    refine makes_run (f := fun d => busWrite d src A.TOP_RESET_CTRL 0xF (F.TOP_RESET_CTRL_COLD.put 0 1)) rfl rfl ?_
    have h1 : F.TOP_RESET_CTRL_COLD.get (F.TOP_RESET_CTRL_COLD.put 0 1) = 1 := by decide
    have h2 : F.TOP_RESET_CTRL_WARM.get (F.TOP_RESET_CTRL_COLD.put 0 1) = 0 := by decide
    rw [write_TOP_RESET_CTRL hg, resetCtrlWrite, h1, h2]
    simp
  case warm =>
    intro s src hg
    refine makes_run (f := fun d => busWrite d src A.TOP_RESET_CTRL 0xF (F.TOP_RESET_CTRL_WARM.put 0 1)) rfl rfl ?_
    have h1 : F.TOP_RESET_CTRL_COLD.get (F.TOP_RESET_CTRL_WARM.put 0 1) = 0 := by decide
    have h2 : F.TOP_RESET_CTRL_WARM.get (F.TOP_RESET_CTRL_WARM.put 0 1) = 1 := by decide
    rw [write_TOP_RESET_CTRL hg, resetCtrlWrite, h1, h2]
    simp

end Sys2Proof.Machine

/-! BOOT (R399, R410 to R416). -/

namespace Sys2Proof.Machine

-- What the lane page's operations leave -----------------------------------------------------------------------------

/-- All of the device but the lane unit, the ports, what is sent and, of the register file, all but the boot lock. -/
def Device.offLanes (d : Device) : Device := { d with lane := {}, ports := [], sent := [], file := { locked := d.file.locked } }

@[simp] theorem setReg_offLanes (d : Device) (a : Nat) (v : Word) : (d.setReg a v).offLanes = d.offLanes := rfl
@[simp] theorem setFld_offLanes (d : Device) (a : Nat) (f : Fld) (n : Nat) : (d.setFld a f n).offLanes = d.offLanes := rfl
@[simp] theorem setW1c_offLanes (d : Device) (a n : Nat) : (d.setW1c a n).offLanes = d.offLanes := rfl
@[simp] theorem setLane_offLanes (d : Device) (l : Nat) (s : LaneSt) : (d.setLane l s).offLanes = d.offLanes := rfl
@[simp] theorem modPort_offLanes (d : Device) (p : Nat) (f : PortSt → PortSt) : (d.modPort p f).offLanes = d.offLanes := rfl
@[simp] theorem modBring_offLanes (d : Device) (p : Nat) (f : BringUp → BringUp) : (d.modBring p f).offLanes = d.offLanes := rfl
@[simp] theorem send_offLanes (d : Device) (o : Output) : (d.send o).offLanes = d.offLanes := rfl

@[simp] theorem raise_offLanes (d : Device) (b n : Nat) : (d.raise b n).offLanes = d.offLanes := by
  unfold Device.raise
  extract_lets was e
  split <;> rfl

@[simp] theorem laneEvent_offLanes (d : Device) (l : Nat) (up : Bool) : (d.laneEvent l up).offLanes = d.offLanes := by
  simp [Device.laneEvent]

@[simp] theorem laneTo_offLanes (d : Device) (l : Nat) (st : LaneState) : (d.laneTo l st).offLanes = d.offLanes := by
  unfold Device.laneTo
  extract_lets old d1 d2
  have h2 : d2.offLanes = d.offLanes := by
    simp only [d2, d1, setLane_offLanes]
    split <;> simp
  clear_value d2
  split
  · simp [h2]
  · split <;> simp [h2]

@[simp] theorem portTo_offLanes (d : Device) (p : Nat) (st : LaneState) : (d.portTo p st).offLanes = d.offLanes :=
  foldl_frame Device.offLanes (fun d l => by split <;> simp) _ d

@[simp] theorem settleFault_offLanes (d : Device) (p : Nat) : (d.settleFault p).offLanes = d.offLanes := by
  unfold Device.settleFault
  extract_lets on
  split <;> simp

@[simp] theorem settlePort_offLanes (d : Device) (p : Nat) : (d.settlePort p).offLanes = d.offLanes := by
  unfold Device.settlePort
  extract_lets d1
  have h1 : d1.offLanes = d.offLanes := settleFault_offLanes d p
  split <;> simp [h1]

@[simp] theorem setRate_offLanes (d : Device) (p r : Nat) : (d.setRate p r).offLanes = d.offLanes :=
  foldl_frame Device.offLanes (fun d l => by split <;> simp) _ d

@[simp] theorem fixRate_offLanes (d : Device) (p : Nat) : (d.fixRate p).offLanes = d.offLanes := by
  unfold Device.fixRate
  split
  · rfl
  · split <;> simp

@[simp] theorem beginAlign_offLanes (d : Device) (p : Nat) : (d.beginAlign p).offLanes = d.offLanes := by
  simp [Device.beginAlign]

@[simp] theorem beginTrain_offLanes (d : Device) (p : Nat) (st : LaneState) : (d.beginTrain p st).offLanes = d.offLanes := by
  simp [Device.beginTrain]

@[simp] theorem tryStart_offLanes (d : Device) (p : Nat) : (d.tryStart p).offLanes = d.offLanes := by
  unfold Device.tryStart
  extract_lets ls ready d1 d2
  have h2 : d2.offLanes = d.offLanes := by simp [d2, d1]
  clear_value d2 ready
  split
  · rfl
  · split
    · split <;> simp
    · split
      · split <;> simp [h2]
      · rfl

@[simp] theorem restart_offLanes (d : Device) (p : Nat) : (d.restart p).offLanes = d.offLanes := by
  simp only [Device.restart, settleFault_offLanes, tryStart_offLanes, fixRate_offLanes, modBring_offLanes]
  exact foldl_frame Device.offLanes (fun d l => by split <;> simp) _ d

@[simp] theorem wakePort_offLanes (d : Device) (p : Nat) : (d.wakePort p).offLanes = d.offLanes := by
  simp only [Device.wakePort, restart_offLanes]
  exact foldl_frame Device.offLanes (fun d l => by split <;> simp) _ d

@[simp] theorem leavePort_offLanes (d : Device) (l : Nat) : (d.leavePort l).offLanes = d.offLanes := by
  unfold Device.leavePort
  split <;> simp

@[simp] theorem settleLane_offLanes (d : Device) (l : Nat) : (d.settleLane l).offLanes = d.offLanes := by
  unfold Device.settleLane
  split
  · split <;> simp
  · rfl

@[simp] theorem moveLane_offLanes (d : Device) (l : Nat) : (d.moveLane l).offLanes = d.offLanes := by
  unfold Device.moveLane
  extract_lets was d1 now d2 d3
  have h1 : d1.offLanes = d.offLanes := settleLane_offLanes d l
  have h3 : d3.offLanes = d.offLanes := by simp [d3, d2, h1]
  clear_value d1 d3
  split
  · exact h1
  · split
    · split <;> simp [h3]
    · split
      · split <;> simp [h1]
      · simp [h1]

/-- Testing the lanes changes none of the other units, nor the boot lock. -/
theorem testLanes_offLanes (d : Device) : d.testLanes.offLanes = d.offLanes :=
  foldl_frame Device.offLanes (fun d l => by split <;> simp) _ d

/-- Devices alike off the lanes have the same device control, boot state and boot lock. -/
theorem keeps_of_offLanes {d e : Device} (h : e.offLanes = d.offLanes) : e.dev = d.dev ∧ e.boot = d.boot ∧
    e.file.locked = d.file.locked :=
  ⟨congrArg (·.dev) h, congrArg (·.boot) h, congrArg (·.file.locked) h⟩

-- The boot image (R412, R413) ---------------------------------------------------------------------------------------

/-- Which sequencer banks an image fills does not depend on how far BOOT has come. -/
theorem bootRoles_boot (d : Device) (b : BootUnit) (l : List Bytes) : ({ d with boot := b } : Device).bootRoles l = d.bootRoles l := by
  induction l with
  | nil => rfl
  | cons x rest ih =>
    unfold Device.bootRoles
    rw [ih]
    rfl

/-- A header, size, table, key or SVN check that fails, fails the attempt. -/
theorem bootCheck_fails {d : Device} {n : Nat} {img : Bytes} (h : bootHeader img none ≠ 0) :
    d.bootCheck n none img = d.bootFails (bootHeader img none) := by
  simp [Device.bootCheck, h]

/-- An image that passes every check is ready to be applied. -/
theorem bootCheck_passes {d : Device} {n : Nat} {img : Bytes} {banks : List (Nat × SeqBank)} (h : bootHeader img none = 0)
    (hb : d.bootRoles (sectionsOf (img.take (beAt img 16 4)) 1) = some banks)
    (hv : ecdsaVerify (sliceBytes (img.take (beAt img 16 4)) 64 96)
      (sha384 ((img.take (beAt img 16 4)).take 160 ++ (img.take (beAt img 16 4)).drop 256))
      (sliceBytes (img.take (beAt img 16 4)) 160 96) = true) :
    (d.bootCheck n none img).boot.from_ = n ∧
      (d.bootCheck n none img).boot.svn = beAt (img.take (beAt img 16 4)) 8 4 ∧ (d.bootCheck n none img).boot.ready.isSome = true := by
  unfold Device.bootCheck
  rw [if_neg (by simp [h])]
  simp only [hb, hv]
  exact ⟨rfl, rfl, rfl⟩

/-- No check of an image touches the device control. -/
theorem bootCheck_dev (d : Device) (n : Nat) (img : Bytes) : (d.bootCheck n none img).dev = d.dev := by
  unfold Device.bootCheck
  extract_lets c len img'
  split
  · rfl
  · split
    · rfl
    · rename_i banks _
      split
      · rfl
      · obtain ⟨q, hq⟩ := modRole_frame (d := d) banks
        simp only [hq]

-- The end of BOOT (R414) --------------------------------------------------------------------------------------------

/-- BOOT_IMAGE_COMPLETE leaves CONFIG, with the image applied and its lock set. -/
theorem bootImageComplete_ready {d : Device} {list : List (Nat × Nat)} {lock : Bool} (ack : Bool) (spent : List Nat)
    (failed : List (Nat × Nat × Nat)) (hs : d.dev.state = .boot) (hr : d.boot.ready = some (list, lock)) :
    (bootImageComplete d ack spent failed).dev.state = .config ∧ (bootImageComplete d ack spent failed).boot.ready = none ∧
    (bootImageComplete d ack spent failed).boot.imageLocked = lock ∧
    (lock = true → (bootImageComplete d ack spent failed).file.locked = true) := by
  obtain ⟨x, he, hb, hi, hl⟩ : ∃ x : Device, bootImageComplete d ack spent failed = (x.toState .config).testLanes ∧
      x.boot.ready = none ∧ x.boot.imageLocked = lock ∧ (lock = true → x.file.locked = true) := by
    unfold bootImageComplete
    rw [hr]
    simp only [hs, ne_eq, not_true_eq_false, if_false]
    exact ⟨_, rfl, rfl, rfl, fun h => by simp [h]⟩
  obtain ⟨k1, k2, k3⟩ := keeps_of_offLanes (testLanes_offLanes (x.toState .config))
  obtain ⟨t2, t3⟩ := toState_keeps x .config
  rw [he, k1, k2, k3, t2, t3]
  exact ⟨toState_state x .config, hb, hi, hl⟩

-- A read of the host that is not answered (R345, R390) --------------------------------------------------------------

/-- A fault that is logged changes the error log and the register file only. -/
theorem logFault_shape (d : Device) (pl : FaultPlace) (ev ac n : Nat) : ∃ r f, d.logFault pl ev ac n = { d with ras := r, file := f } := by
  unfold Device.logFault
  extract_lets t e full log ovf
  obtain ⟨f, h⟩ := ({ d with ras := { d.ras with log := log, logOvf := ovf } } : Device).raise_file 0x50000 0
  exact ⟨_, f, h⟩

/-- So does a read time-out, but for Advanced Error Reporting. -/
theorem readTimedOut_shape (d : Device) (fn addr act : Nat) :
    ∃ h r f, d.readTimedOut fn addr act = { d with host := h, ras := r, file := f } := by
  obtain ⟨l, e⟩ := d.readTimedOut_eq fn addr act
  obtain ⟨r, f, e'⟩ := logFault_shape ({ d with host := { d.host with aer := l } } : Device) ⟨8, fn, addr⟩ 5 act 1
  exact ⟨_, r, f, e.trans e'⟩

/-- Settles O9. -/
theorem bootEvents : Obligations.BootEvents := by
  unfold Obligations.BootEvents
  refine ⟨?noRead, ?noMagic, ?image, ?complete, ?download, ?timeout⟩
  case noRead =>
    intro s hs hr ht
    exact makes_run (f := fun d => bootSourceAttempt d none) rfl rfl (by simp [bootSourceAttempt, hs, hr, ht, Device.bootFails])
  case noMagic =>
    intro s img hs hr ht hsmp hm
    refine completes_run (f := fun d => bootSourceAttempt d (some img)) rfl rfl ?_
    have he : bootSourceAttempt s.dev (some img) = s.dev.bootFails 0xB := by simp [bootSourceAttempt, hs, hr, ht, hsmp, hm]
    rw [he]
    exact ⟨rfl, rfl, rfl, hr⟩
  case image =>
    intro s img hs hr ht hlen hm
    refine completes_run (f := fun d => bootSourceAttempt d (some img)) rfl rfl ?_
    generalize hd : ({ s.dev with boot := { s.dev.boot with sampling := true } } : Device) = d
    have he : bootSourceAttempt s.dev (some img) = d.bootCheck (s.dev.boot.tried + 1) none img := by
      have hn : ¬((!s.dev.boot.sampling) = true ∧ beAt img 0 4 ≠ 0x4C584249) := by
        rcases hm with h | h <;> simp [h]
      unfold bootSourceAttempt
      rw [if_neg (by simp [hs, hr]), if_pos ht]
      dsimp only
      rw [if_neg hn, hd, List.take_of_length_le hlen]
    rw [he]
    refine ⟨?_, fun h => ?_, fun banks h hb hv => ?_⟩
    · rw [bootCheck_dev, ← hd]
    · rw [bootCheck_fails h, ← hd]
      exact ⟨rfl, rfl, hr⟩
    · refine bootCheck_passes (banks := banks) h ?_ hv
      rw [← hd, bootRoles_boot]
      exact hb
  case complete =>
    intro s ack spent failed list lock h1 h2 hs hr
    exact completes_run (f := fun d => bootImageComplete d ack spent failed) rfl (by simp [Instr.wf, h1, h2])
      (bootImageComplete_ready ack spent failed hs hr)
  case download =>
    intro s src hg hs hdl hr ht hh
    refine makes_run (f := fun d => busWrite d src A.TOP_BOOT_DL_CMD 0xF (F.TOP_BOOT_DL_CMD_GO.put 0 1)) rfl rfl ?_
    have hgo : F.TOP_BOOT_DL_CMD_GO.get (F.TOP_BOOT_DL_CMD_GO.put 0 1) ≠ 0 := by decide
    rw [write_TOP_BOOT_DL_CMD hg, bootDlWrite, if_neg hgo, if_neg (by simp [hs, hdl, hr, hh, Nat.not_lt.2 ht])]
    rfl
  case timeout =>
    intro s l hc hl
    refine completes_clock (f := fun d => imageReadTimeout d 0) rfl rfl hc ?_
    cases hlate : l.late with
    | true =>
      obtain ⟨h, r, f, e⟩ := readTimedOut_shape s.dev 0 0x10000 0
      have he : imageReadTimeout s.dev 0 = (s.dev.readTimedOut 0 0x10000 0).bootFails 8 := by
        simp [imageReadTimeout, hl, hlate]
      rw [he, e]
      exact ⟨rfl, fun h => Bool.noConfusion h, fun _ => ⟨rfl, rfl⟩⟩
    | false =>
      obtain ⟨h, r, f, e⟩ := readTimedOut_shape s.dev 0 0x10000 2
      simp only [imageReadTimeout, hl, hlate, e]
      exact ⟨rfl, fun _ => rfl, fun h => Bool.noConfusion h⟩

end Sys2Proof.Machine

/-! Fences and the faults that fence (R29 to R31, R391, R396, R397, R403). -/

namespace Sys2Proof.Machine

-- What budgets and faults leave -------------------------------------------------------------------------------------

/-- A request that waits, or is taken in pieces, leaves the packets in ingress and the device control. -/
theorem mustWait_keepFlights (d : Device) (act inst tag size : Nat) : KeepFlights d (d.mustWait act inst tag size) := by
  unfold Device.mustWait
  split
  · exact ⟨rfl, rfl⟩
  · extract_lets b e
    have h : KeepFlights d e := ⟨rfl, rfl⟩
    split <;> exact Device.event_keepFlights _ _ _ _ _ h

theorem inPieces_keepFlights (d : Device) (act inst need tag : Nat) : KeepFlights d (d.inPieces act inst need tag).1 := by
  obtain ⟨e, he, hk⟩ : ∃ e, (d.inPieces act inst need tag).1 = { e with budget := (d.inPieces act inst need tag).1.budget } ∧
      KeepFlights d e := by
    refine ⟨(d.takePieces act inst need ((assoc d.budget.partly (reqKey act inst tag)).getD 0) tag).1, rfl, ?_⟩
    unfold Device.takePieces
    extract_lets more n
    split
    · exact ⟨rfl, rfl⟩
    · have h := mustWait_keepFlights d act inst tag (more - n)
      exact ⟨h.flights, h.dev⟩
  rw [he]
  exact ⟨hk.flights, hk.dev⟩

/-- A fault that is logged leaves the interruption and the stuck galleries alone. -/
theorem logFault_ras (d : Device) (pl : FaultPlace) (ev ac n : Nat) : (d.logFault pl ev ac n).ras.stuck = d.ras.stuck ∧
    (d.logFault pl ev ac n).ras.intFrom = d.ras.intFrom ∧ (d.logFault pl ev ac n).ras.intTo = d.ras.intTo ∧
    (d.logFault pl ev ac n).ras.fatalPending = d.ras.fatalPending ∧ (d.logFault pl ev ac n).dev = d.dev := by
  simp [Device.logFault]

/-- So does an entry of the retirement record. -/
theorem retireRecord_ras (d : Device) (k : Nat) (pl : FaultPlace) (sp : Nat) : (d.retireRecord k pl sp).ras.stuck = d.ras.stuck ∧
    (d.retireRecord k pl sp).ras.intFrom = d.ras.intFrom ∧ (d.retireRecord k pl sp).ras.intTo = d.ras.intTo := by
  unfold Device.retireRecord
  extract_lets d1
  have h1 : d1.ras = d.ras := Device.raise_ras d 0x50000 1
  clear_value d1
  split <;> exact ⟨congrArg (·.stuck) h1, congrArg (·.intFrom) h1, congrArg (·.intTo) h1⟩

/-- A gallery's fence that is asked for by the hardware leaves the stuck galleries and what ended last alone. -/
theorem faultFence_ras (d : Device) (n : Nat) : (d.faultFence n).ras.stuck = d.ras.stuck ∧
    (d.faultFence n).ras.intFrom = d.ras.intFrom ∧ (d.faultFence n).ras.intTo = d.ras.intTo := by
  unfold Device.faultFence
  split
  · exact ⟨rfl, rfl, rfl⟩
  · exact retireRecord_ras _ _ _ _

-- The galleries' faults (R396) --------------------------------------------------------------------------------------

/-- GALLERY_WATCHDOG of a stalled gallery asks for its fence, and the interruption counts from the stall. -/
theorem galleryWatchdog_stalled {d : Device} {n t : Nat} (hw : d.watchdogOf n = some t) (hf : d.isFenced n = false)
    (hb : bit d.dev.hwFence.toNat n = false) :
    (galleryWatchdog d n).dev = { d.dev with hwFence := d.dev.hwFence ||| BitVec.ofNat 32 (2 ^ n) } ∧
    (galleryWatchdog d n).ras.intFrom = some (d.ras.intFrom.getD (max t d.ras.intTo)) ∧
    (galleryWatchdog d n).ras.stuck = d.ras.stuck ++ [n] := by
  obtain ⟨l1, l2, l3, -, l5⟩ := logFault_ras d ⟨9, n, 0⟩ 6 9 1
  obtain ⟨k, -, -⟩ := faultFence_keep (d := d.logFault ⟨9, n, 0⟩ 6 9 1) (n := n) (by rwa [Device.isFenced, l5]) (by rwa [l5])
  obtain ⟨r1, r2, r3⟩ := faultFence_ras (d.logFault ⟨9, n, 0⟩ 6 9 1) n
  simp only [galleryWatchdog, hw, hf, hb, Bool.false_eq_true, or_self, if_false]
  rw [k, r1, r2, r3, l1, l2, l3, l5]
  exact ⟨rfl, rfl, rfl⟩

/-- An occurrence that enters a place's history leaves the device control. -/
theorem occurrence_dev (d : Device) (pl : FaultPlace) : (d.occurrence pl).2.dev = d.dev :=
  (Device.occurrence_keepDev pl (KeepDev.refl d)).dev

/-- A parity error of a gallery below the third is logged. -/
theorem galleryParityError_few {d : Device} {n : Nat} (h : (d.occurrence ⟨9, n, 0⟩).1 < 3) :
    galleryParityError d n = (d.occurrence ⟨9, n, 0⟩).2.logFault ⟨9, n, 0⟩ 7 0 (d.occurrence ⟨9, n, 0⟩).1 := by
  simp only [galleryParityError]
  rw [if_pos h]

/-- At the third it asks for the gallery's fence. -/
theorem galleryParityError_third {d : Device} {n : Nat} (h : 3 ≤ (d.occurrence ⟨9, n, 0⟩).1) (hf : d.isFenced n = false)
    (hb : bit d.dev.hwFence.toNat n = false) :
    (galleryParityError d n).dev = { d.dev with hwFence := d.dev.hwFence ||| BitVec.ofNat 32 (2 ^ n) } := by
  simp only [galleryParityError]
  rw [if_neg (Nat.not_lt.2 h)]
  generalize hx : ((d.occurrence ⟨9, n, 0⟩).2.logFault ⟨9, n, 0⟩ 7 9 (d.occurrence ⟨9, n, 0⟩).1).forget ⟨9, n, 0⟩ = x
  have hd : x.dev = d.dev := by
    rw [← hx]
    exact (logFault_ras _ _ _ _ _).2.2.2.2.trans (occurrence_dev d _)
  rw [(faultFence_keep (d := x) (n := n) (by rwa [Device.isFenced, hd]) (by rwa [hd])).1, hd]

-- Fatal faults (R397) -----------------------------------------------------------------------------------------------

/-- A fatal fault asks for every gallery to be fenced. -/
theorem fatalNow_spec (d : Device) (pl : FaultPlace) (ev : Nat) : (d.fatalNow pl ev).ras.fatalPending = true ∧
    (d.fatalNow pl ev).dev = { d.dev with hwFence := BitVec.ofNat 32 (2 ^ 32 - 1) } :=
  ⟨rfl, by simp only [Device.fatalNow, (logFault_ras d pl ev 0xA 1).2.2.2.2]⟩

/-- FATAL_FAULT, while none is pending, is fatal at once; a crossbar parity error at its third. -/
theorem fatalFault_fatal {d : Device} {kind : Nat} (hf : d.ras.fatal = false) (hp : d.ras.fatalPending = false)
    (h3 : kind = 2 → 3 ≤ (d.occurrence ⟨0xA, 2, 0⟩).1) (hk : kind < 3) :
    ∃ (e : Device) (pl : FaultPlace) (ev : Nat), fatalFault d kind = e.fatalNow pl ev ∧ e.dev = d.dev := by
  simp only [fatalFault, hf, hp, Bool.false_eq_true, or_self, if_false]
  split
  · exact ⟨_, _, _, rfl, rfl⟩
  · exact ⟨_, _, _, rfl, rfl⟩
  · rename_i h0 h1
    obtain rfl : kind = 2 := by
      have k0 : kind ≠ 0 := h0
      have k1 : kind ≠ 1 := h1
      omega
    rw [if_neg (Nat.not_lt.2 (h3 rfl))]
    exact ⟨_, _, _, rfl, occurrence_dev d _⟩

/-- A crossbar parity error below its third is logged alone. -/
theorem fatalFault_few {d : Device} (hf : d.ras.fatal = false) (hp : d.ras.fatalPending = false)
    (h3 : (d.occurrence ⟨0xA, 2, 0⟩).1 < 3) : (fatalFault d 2).dev = d.dev ∧ (fatalFault d 2).ras.fatalPending = false := by
  have k := Device.occurrence_keepDev ⟨0xA, 2, 0⟩ (KeepDev.refl d)
  obtain ⟨-, -, -, l4, l5⟩ := logFault_ras (d.occurrence ⟨0xA, 2, 0⟩).2 ⟨0xA, 2, 0⟩ 7 0 (d.occurrence ⟨0xA, 2, 0⟩).1
  simp only [fatalFault, hf, hp, Bool.false_eq_true, or_self, if_false]
  rw [if_pos h3, l4, l5]
  exact ⟨k.dev, k.pend.trans hp⟩

-- Discards (R31) ----------------------------------------------------------------------------------------------------

/-- FENCE_DISCARD_STEP takes the first packet of a fenced gallery out of ingress. -/
theorem fenceDiscardStep_flight {d : Device} {x : Flight} (hq : d.seqOn 15 = true)
    (hx : (d.pkt.flights.find? fun x => d.isFenced x.gal) = some x)
    (hp : (d.inPieces 0x11 0 (x.stairMin + x.stairShared) (stairTag x.id)).2 = true) :
    (fenceDiscardStep d).pkt.flights = d.pkt.flights.filter (fun y => y.id ≠ x.id) ∧ (fenceDiscardStep d).dev = d.dev := by
  have k := inPieces_keepFlights d 0x11 0 (x.stairMin + x.stairShared) (stairTag x.id)
  have he : fenceDiscardStep d = (d.inPieces 0x11 0 (x.stairMin + x.stairShared) (stairTag x.id)).1.fenceFlight x := by
    simp only [fenceDiscardStep, hq, Bool.not_true, Bool.false_eq_true, if_false, hx]
    rw [hp, if_pos rfl]
  obtain ⟨h1, h2⟩ := fenceFlight_flights (d.inPieces 0x11 0 (x.stairMin + x.stairShared) (stairTag x.id)).1 x
  rw [he, h1, h2, k.flights]
  exact ⟨rfl, k.dev⟩

/-- Settles O16. -/
theorem fencesAndGalleryFaults : Obligations.FencesAndGalleryFaults := by
  unfold Obligations.FencesAndGalleryFaults
  refine ⟨?request, ?fence, ?discard, ?watchdog, ?parityFew, ?parityThird, ?fatal, ?fatalFew⟩
  case request =>
    intro s src mask hg
    exact makes_run (f := fun d => busWrite d src A.TOP_GAL_FENCE_REQ 0xF mask) rfl rfl (write_TOP_GAL_FENCE_REQ hg mask)
  case fence =>
    intro s hc
    refine completes_clock (f := galleryFence) rfl rfl hc ?_
    obtain ⟨hf, hn, ha, -, hs⟩ := galleryFence_modes s.dev
    exact ⟨hf, hs, hn, ha⟩
  case discard =>
    intro s x hc hq hx hp
    refine completes_clock (f := fenceDiscardStep) rfl rfl hc ?_
    obtain ⟨hfl, hdev⟩ := fenceDiscardStep_flight hq hx hp
    rw [hfl]
    exact ⟨fun y hy => by simpa using (List.mem_filter.1 hy).2,
      fun y hy hne => List.mem_filter.2 ⟨hy, by simpa using hne⟩, hdev⟩
  case watchdog =>
    intro s n t hc hn hw hf hb
    refine completes_clock (f := fun d => galleryWatchdog d n) rfl (by simp [Instr.wf, hn]) hc ?_
    obtain ⟨h1, h2, h3⟩ := galleryWatchdog_stalled hw hf hb
    rw [h1]
    exact ⟨rfl, h2, h3, rfl, rfl⟩
  case parityFew =>
    intro s n hc hn h3
    refine completes_clock (f := fun d => galleryParityError d n) rfl (by simp [Instr.wf, hn]) hc ?_
    rw [galleryParityError_few h3]
    exact ⟨rfl, (logFault_ras _ _ _ _ _).2.2.2.2.trans (occurrence_dev _ _)⟩
  case parityThird =>
    intro s n hc hn h3 hf hb
    refine completes_clock (f := fun d => galleryParityError d n) rfl (by simp [Instr.wf, hn]) hc ?_
    rw [galleryParityError_third h3 hf hb]
    exact ⟨rfl, rfl⟩
  case fatal =>
    intro s kind hc hk hf hp h3
    refine completes_clock (f := fun d => fatalFault d kind) rfl (by simp [Instr.wf, hk]) hc ?_
    obtain ⟨e, pl, ev, he, hd⟩ := fatalFault_fatal hf hp h3 hk
    obtain ⟨f1, f2⟩ := fatalNow_spec e pl ev
    rw [he, f2, hd]
    exact ⟨rfl, f1, rfl⟩
  case fatalFew =>
    exact fun s hc hf hp h3 => completes_clock (f := fun d => fatalFault d 2) rfl rfl hc (fatalFault_few hf hp h3)

end Sys2Proof.Machine

/-! Generations (R46, R47, R49, R50, R65, R67). -/

namespace Sys2Proof.Machine

-- Flip requests (R46, R64, R67) -------------------------------------------------------------------------------------

/-- In DRAINING and RESYNC a flip request is refused with 1. -/
theorem flipAsk_busy {d : Device} (h : d.gen.state = .draining ∨ d.gen.state = .resync) : d.flipAsk = d.flipRefused 1 := by
  rw [Device.flipAsk, if_pos h]

/-- Otherwise with 2 where a region is in the way. -/
theorem flipAsk_region {d : Device} {b : Nat × Nat} (h : ¬(d.gen.state = .draining ∨ d.gen.state = .resync))
    (hb : d.busyRegion = some b) : d.flipAsk = (d.showBusy (some b)).flipRefused 2 := by
  rw [Device.flipAsk, if_neg h, hb]

/-- With 3 while a flip is pending; and else the flip is pending. -/
theorem flipAsk_free {d : Device} (h : ¬(d.gen.state = .draining ∨ d.gen.state = .resync)) (hb : d.busyRegion = none) :
    d.flipAsk = if d.gen.state = .pending then d.flipRefused 3 else { d with gen := { d.gen with state := .pending } } := by
  rw [Device.flipAsk, if_neg h, hb]

/-- GEN_FLIP_REQUEST stores the other fields of GEN_CTRL and asks for the flip. -/
theorem completes_genFlipRequest {s : State} {src : Source} {w : Word} {P : Device → Prop} (hg : s.dev.reachable src)
    (hp : ∀ v, v = BitVec.ofNat 32 (F.TOP_GEN_CTRL_AT_EN.get w * 2 + F.TOP_GEN_CTRL_NOTIFY_EN.get w * 4 +
      F.TOP_GEN_CTRL_NOTIFY_VEC.get w * 8) → P (s.dev.setReg A.TOP_GEN_CTRL v).flipAsk) :
    Completes (.genFlipRequest src w) s P := by
  refine completes_run (f := fun d => busWrite d src A.TOP_GEN_CTRL 0xF (F.TOP_GEN_CTRL_FLIP.put w 1)) rfl rfl ?_
  rw [write_TOP_GEN_CTRL (.inl hg), genCtrl_flip w hg]
  exact hp _ rfl

-- The flip (R47, R67, R68) ------------------------------------------------------------------------------------------

/-- With a region in the way the flip is refused with 2. -/
theorem genFlip_region {d : Device} {b : Nat × Nat} (hd : d.gen.flipDue = true) (hf : d.dev.fenceDue = 0#32)
    (hb : d.busyRegion = some b) : genFlip d = { d with
      gen := { d.gen with flipDue := false, state := .steady, result := 2 }
      profile := { d.profile with busyRegion := b.1, busyRemain := b.2 % 2 ^ 24 } } := by
  unfold genFlip
  rw [if_neg (by simp [hd, hf])]
  extract_lets g e g' a
  have hb' : e.busyRegion = some b := hb
  rw [hb']
  rfl

/-- With nothing in the way it makes the next generation active and the old one draining. -/
theorem genFlip_gen {d : Device} (hd : d.gen.flipDue = true) (hf : d.dev.fenceDue = 0#32) (hb : d.busyRegion = none) :
    (genFlip d).gen = { d.gen with
      flipDue := false, state := .draining, active := d.gen.active + 1#32, drain := d.gen.active, result := 0, phaseStk := 0 } := by
  unfold genFlip
  rw [if_neg (by simp [hd, hf])]
  extract_lets g e a g' x
  have hb' : e.busyRegion = none := hb
  rw [hb']
  have k : KeepGen x x.bankFlip := ⟨by unfold Device.bankFlip; dsimp only; split <;> rfl⟩
  exact (Device.showBusy_keepGen none (Device.profileFlip_keepGen k)).gen

-- Reclaim and rebuild (R49 to R51) ----------------------------------------------------------------------------------

/-- What the rebuild takes of the budget, and gives back, leaves how far the generation unit has come. -/
theorem rebuildTake_keepPhase {d e : Device} (h : KeepPhase d e) : KeepPhase d e.rebuildTake :=
  ⟨h.state, h.drainStk, h.resyncStk, h.active, h.phase⟩

theorem rebuildGive_keepPhase {d e : Device} (h : KeepPhase d e) : KeepPhase d e.rebuildGive :=
  ⟨h.state, h.drainStk, h.resyncStk, h.active, h.phase⟩

/-- GEN_RECLAIM enters RESYNC and keeps how long the drain took. -/
theorem genReclaim_done {d : Device} (hs : d.gen.state = .draining) (hp : d.gen.phaseStk ≠ 0) (hc : d.stroke.cyc = 0)
    (hu : d.stampInUse d.gen.drain = false) : (genReclaim d).gen.state = .resync ∧
    (genReclaim d).gen.drainStk = BitVec.ofNat 32 d.gen.phaseStk ∧ (genReclaim d).gen.active = d.gen.active ∧
    (genReclaim d).gen.phaseStk = 0 := by
  unfold genReclaim
  rw [if_neg (by simp [hs, hp, hc, hu])]
  extract_lets g e
  have k : KeepPhase e ((e.setFld A.TOP_PARSE_BANK F.TOP_PARSE_BANK_OLD_HELD 0).rebuildSlot.rebuildTake.genNotice .resync) :=
    Device.genNotice_keepPhase _ (rebuildTake_keepPhase (Device.rebuildSlot_keepPhase (Device.setFld_keepPhase _ _ _ ⟨rfl, rfl, rfl, rfl, rfl⟩)))
  exact ⟨k.state, k.drainStk, k.active, k.phase⟩

/-- GEN_RESYNC_END enters STEADY and keeps how long the rebuild took. -/
theorem genResyncEnd_done {d : Device} (hs : d.gen.state = .resync) (hp : d.gen.phaseStk ≠ 0) (hc : d.stroke.cyc = 0) :
    (genResyncEnd d).gen.state = .steady ∧ (genResyncEnd d).gen.resyncStk = BitVec.ofNat 32 d.gen.phaseStk ∧
    (genResyncEnd d).gen.active = d.gen.active ∧ (genResyncEnd d).gen.phaseStk = 0 := by
  unfold genResyncEnd
  rw [if_neg (by simp [hs, hp, hc])]
  extract_lets g e
  have k : KeepPhase e (e.rebuildGive.genNotice .steady) :=
    Device.genNotice_keepPhase _ (rebuildGive_keepPhase ⟨rfl, rfl, rfl, rfl, rfl⟩)
  exact ⟨k.state, k.resyncStk, k.active, k.phase⟩

/-- Settles O17. -/
theorem generationEvents : Obligations.GenerationEvents := by
  unfold Obligations.GenerationEvents
  refine ⟨?steady, ?busy, ?pending, ?region, ?flip, ?flipRegion, ?reclaim, ?resyncEnd⟩
  case steady =>
    intro s src w hg hs hp
    refine completes_genFlipRequest hg fun v _ => ?_
    rw [flipAsk_free (d := s.dev.setReg A.TOP_GEN_CTRL v) (by simp [hs]) (busyRegion_same hp), if_neg (by simp [hs])]
    exact ⟨rfl, rfl, rfl⟩
  case busy =>
    intro s src w hg hs
    refine completes_genFlipRequest hg fun v _ => ?_
    rw [flipAsk_busy (d := s.dev.setReg A.TOP_GEN_CTRL v) (by exact hs)]
    exact ⟨rfl, rfl⟩
  case pending =>
    intro s src w hg hs hp
    refine completes_genFlipRequest hg fun v _ => ?_
    rw [flipAsk_free (d := s.dev.setReg A.TOP_GEN_CTRL v) (by simp [hs]) (busyRegion_same hp), if_pos (by exact hs)]
    exact ⟨rfl, rfl⟩
  case region =>
    intro s src w v b hg hs hv hb
    refine completes_genFlipRequest hg fun _ hv' => ?_
    rw [hv', ← hv, flipAsk_region (d := s.dev.setReg A.TOP_GEN_CTRL v) (by simp [hs]) hb]
    exact ⟨rfl, rfl⟩
  case flip =>
    intro s hc hd hf hb
    refine completes_clock (f := genFlip) rfl rfl hc ?_
    have hgen := genFlip_gen hd hf hb
    rcases genFlip_modes s.dev with k | ⟨-, hst, -, hnum, -, hprof⟩
    · have ha : (genFlip s.dev).gen.active = s.dev.gen.active + 1#32 := by rw [hgen]
      rw [k.active] at ha
      bv_omega
    · exact ⟨hgen, hprof, hnum, hst⟩
  case flipRegion => exact fun s b hc hd hf hb => makes_clock (f := genFlip) rfl rfl hc (genFlip_region hd hf hb)
  case reclaim => exact fun s hc hs hp hcyc hu => completes_clock (f := genReclaim) rfl rfl hc (genReclaim_done hs hp hcyc hu)
  case resyncEnd => exact fun s hc hs hp hcyc => completes_clock (f := genResyncEnd) rfl rfl hc (genResyncEnd_done hs hp hcyc)

end Sys2Proof.Machine

/-! The profile, the core frequency and AVSBus (R64, R375, R376), and the packet numbers' keys (R246). -/

namespace Sys2Proof.Machine

-- Profile and frequency (R64, R375, R376) ---------------------------------------------------------------------------

/-- CORE_FREQ_DOWN steps down and, with AVSBus in use and no error, sends the lower target. -/
theorem coreFreqDown_step {d : Device} (hc : d.stroke.cyc = 0) (hw : d.wantSlow = true) (hs : d.damper.slow = false)
    (hm : d.freqMay = true) : coreFreqDown d = ({ d with damper := { d.damper with slow := true } } : Device).avsWrite true := by
  rw [coreFreqDown, if_pos (by simp [hc, hw, hs, hm])]

theorem avsWrite_used {d : Device} (slow : Bool) (h : d.avsOn = true) (he : d.damper.avsErr = false) :
    d.avsWrite slow = ({ d with damper := { d.damper with vTarget := d.avsTarget slow } } : Device).send (.mgmt "AVS" (d.avsTarget slow)) := by
  rw [Device.avsWrite, if_neg (by simp [h, he])]

theorem avsWrite_unused {d : Device} (slow : Bool) (h : d.avsOn = false ∨ d.damper.avsErr = true) : d.avsWrite slow = d := by
  rw [Device.avsWrite, if_pos (by simpa using h)]

/-- CORE_FREQ_UP steps back. -/
theorem coreFreqUp_step {d : Device} (hb : d.dev.state ≠ .boot) (hc : d.stroke.cyc = 0) (hw : d.wantSlow = false)
    (hs : d.damper.slow = true) (hm : d.freqMay = true)
    (hr : d.avsOn = false ∨ (d.damper.upFrom.isSome = true ∧ d.damper.vTarget ≤ d.damper.vRead)) :
    coreFreqUp d = { d with damper := { d.damper with slow := false, upFrom := none } } := by
  have ready : (!d.avsOn || (d.damper.upFrom.isSome && decide (d.damper.vTarget ≤ d.damper.vRead))) = true := by
    rcases hr with h | ⟨h1, h2⟩ <;> simp [*]
  simp [coreFreqUp, hb, hc, hw, hs, hm, ready]

/-- A readback that is not acknowledged sets AVS_ERR and its event. -/
theorem avsReadback_nak {d : Device} (mv amps : Nat) (h : d.avsOn = true) (hw : tabWf regReset d.file.regs = true) :
    (avsReadback d false mv amps).damper.avsErr = true ∧ (avsReadback d false mv amps).damper.vRead = d.damper.vRead ∧
    (avsReadback d false mv amps).irqSet 0x40000 6 = true := by
  have he : avsReadback d false mv amps = d.avsFail := by simp [avsReadback, h]
  rw [he]
  rw [Device.avsFail]
  refine ⟨?_, ?_, irqSet_raise ?_ 0x40000 6 (by decide)⟩
  · rw [Device.raise_damper]
    rfl
  · rw [Device.raise_damper]
    rfl
  · exact hw

/-- Settles O19. -/
theorem profileAndFrequencyEvents : Obligations.ProfileAndFrequencyEvents := by
  unfold Obligations.ProfileAndFrequencyEvents
  have staged : ∀ p < 8, F.TOP_PROFILE_STAGED.get (F.TOP_PROFILE_STAGED.put 0 p) = p := fun p hp => by
    rw [Fld.get_put _ _ _ (by decide)]
    exact Nat.mod_eq_of_lt hp
  refine ⟨?stage, ?refused, ?down, ?up, ?shown, ?nak⟩
  case stage =>
    intro s src p hg hp hs
    refine makes_run (f := fun d => busWrite d src A.TOP_PROFILE 0xF (F.TOP_PROFILE_STAGED.put 0 p)) rfl (by simp [Instr.wf, hp]) ?_
    rw [write_TOP_PROFILE hg, profileStage, if_neg (by simp [hs]), staged p hp]
  case refused =>
    intro s src p hg hp hs
    refine makes_run (f := fun d => busWrite d src A.TOP_PROFILE 0xF (F.TOP_PROFILE_STAGED.put 0 p)) rfl (by simp [Instr.wf, hp]) ?_
    rw [write_TOP_PROFILE hg, profileStage, if_pos hs]
    rfl
  case down =>
    intro s hc hcyc hw hs hm
    refine completes_clock (f := coreFreqDown) rfl rfl hc ?_
    rw [coreFreqDown_step hcyc hw hs hm]
    by_cases hu : s.dev.avsOn = true ∧ s.dev.damper.avsErr = false
    · rw [avsWrite_used true (by exact hu.1) (by exact hu.2)]
      refine ⟨rfl, fun _ _ => ⟨rfl, rfl⟩, fun h => ?_, rfl, rfl, rfl⟩
      simp [hu.1, hu.2] at h
    · have hn : s.dev.avsOn = false ∨ s.dev.damper.avsErr = true := by
        rcases h : s.dev.avsOn <;> simp_all
      rw [avsWrite_unused true (by exact hn)]
      exact ⟨rfl, fun h1 h2 => absurd ⟨h1, h2⟩ hu, fun _ => ⟨rfl, rfl⟩, rfl, rfl, rfl⟩
  case up =>
    exact fun s hc hb hcyc hw hs hm hr => makes_clock (f := coreFreqUp) rfl rfl hc (coreFreqUp_step hb hcyc hw hs hm hr)
  case shown =>
    intro s mv amps hc h hmv hamps
    refine completes_clock (f := fun d => avsReadback d true mv amps) rfl (by simp [Instr.wf, hmv, hamps]) hc ?_
    obtain ⟨e, h1, h2, h3, h4, he⟩ := avsReadback_shows mv amps h
    rw [he]
    exact ⟨h1, h2, h3, h4⟩
  case nak =>
    intro s mv amps hc h hmv hamps hw
    exact completes_clock (f := fun d => avsReadback d false mv amps) rfl (by simp [Instr.wf, hmv, hamps]) hc
      (avsReadback_nak mv amps h hw)

-- Keys (R246) -------------------------------------------------------------------------------------------------------

/-- A block in RUN in which no frame needs an old key: an erase of slot 3 is in progress, the slot holds a key since cycle 5, and
held none before. -/
def erasing : State := { State.reset with
  dev := {
    dev := { state := .run }
    integ := { job := some ⟨[3], none⟩, slots := [(3, { mat := some { key := [] }, past := [(5, none)] })] } } }

/-- Refutes O20: with no frame that needs an old key, the commit point drops what the slot held before its last commit. For a frame
that started in cycle 3 the slot of `erasing` then gives the key of cycle 5, where it gave none before. -/
theorem not_keyAndPacketNumberEvents : ¬ Obligations.KeyAndPacketNumberEvents := by
  unfold Obligations.KeyAndPacketNumberEvents
  rintro ⟨-, -, -, -, h, -⟩
  obtain ⟨t, he, -, -, -, hs, -⟩ := h erasing 10 ⟨[3], none⟩ rfl rfl (by decide) (by decide)
  have ht : t = { erasing with dev := keyCommitPoint erasing.dev 10 } := (Host.Outcome.next.inj he).symm
  have hk := (hs 3 (by decide) fun _ => rfl).2 3 (by decide)
  rw [ht] at hk
  exact absurd hk (by decide)

end Sys2Proof.Machine

/-! The management ports (R435, R437) and the counters (R363, R364, R368). -/

namespace Sys2Proof.Machine

-- SMBus (R435) ------------------------------------------------------------------------------------------------------

/-- A fold over a list that is not empty ends in what each of its steps ends in. -/
theorem foldl_of_step {α β : Type} {p : β → Prop} {f : β → α → β} (hf : ∀ x a, p (f x a)) (l : List α) (b : β)
    (hl : l ≠ []) : p (l.foldl f b) := by
  obtain ⟨l, a, rfl⟩ := (List.eq_nil_or_concat l).resolve_left hl
  rw [List.concat_eq_append, List.foldl_append]
  exact hf _ a

/-- The packet error code is one byte: each shift of it keeps to eight bits. -/
theorem pecByte_lt (c : Nat) (b : Byte) : pecByte c b < 256 := by
  refine foldl_of_step (p := (· < 256)) (fun x _ => ?_) (List.range 8) _ (by decide)
  have hx : 2 * x % 256 < 2 ^ 8 := Nat.mod_lt _ (by decide)
  split
  · exact Nat.xor_lt_two_pow hx (by decide)
  · exact hx

theorem pecOf_lt (bs : Bytes) : pecOf bs < 256 := by
  cases bs with
  | nil => exact Nat.zero_lt_succ 255
  | cons b bs => exact foldl_of_step (p := (· < 256)) pecByte_lt (b :: bs) 0 (List.cons_ne_nil b bs)

/-- A PEC byte matches where it is the packet error code. -/
theorem pec_matches (p : Byte) (bs : Bytes) : p.toNat = pecOf bs ↔ p = BitVec.ofNat 8 (pecOf bs) := by
  have h := pecOf_lt bs
  constructor
  · intro hp
    rw [← hp]
    simp
  · intro hp
    rw [hp, BitVec.toNat_ofNat, Nat.mod_eq_of_lt h]

/-- What a Block Write has to be for the command `cmd` with `count` bytes. -/
theorem smbTakes_iff {dest cmd count : Nat} {x : SmbBlock} {pec : Option Byte} (hc : cmd < 256) :
    smbTakes dest cmd count x pec = true ↔ (x.cmd = BitVec.ofNat 8 cmd ∧ x.data.length = count) ∧
      (pec = none ∨ pec = some (BitVec.ofNat 8
        (pecOf ([BitVec.ofNat 8 (2 * dest), BitVec.ofNat 8 cmd, BitVec.ofNat 8 count] ++ x.data)))) := by
  have h1 : x.cmd.toNat = cmd ↔ x.cmd = BitVec.ofNat 8 cmd := by
    rw [← BitVec.toNat_inj, BitVec.toNat_ofNat, Nat.mod_eq_of_lt hc]
  unfold smbTakes
  simp only [Bool.and_eq_true, beq_iff_eq, h1]
  cases pec with
  | none => simp
  | some p => simp only [beq_iff_eq, pec_matches, reduceCtorEq, false_or, Option.some.injEq]

section
variable {d : Device} (ho : d.dev.state ≠ .off)
include ho

/-- A block that is a register write is that write, with SMBus as its source. -/
theorem smbBlock_write {x : SmbBlock} {pec : Option Byte} (h : smbTakes d.smbAddress 1 8 x pec = true) :
    d.smbBlock d.smbAddress x pec = busWrite d .smbus (beAt x.data 0 4) 0xF (BitVec.ofNat 32 (beAt x.data 4 4)) := by
  rw [Device.smbBlock, if_neg (by simp [ho]), if_pos h]

/-- A block that sets the address sets it. -/
theorem smbBlock_address {x : SmbBlock} {pec : Option Byte} (h1 : smbTakes d.smbAddress 1 8 x pec = false)
    (h2 : smbTakes d.smbAddress 2 4 x pec = true) :
    d.smbBlock d.smbAddress x pec = { d with mgmt := { d.mgmt with smbAddr := BitVec.ofNat 32 (beAt x.data 0 4) } } := by
  rw [Device.smbBlock, if_neg (by simp [ho]), if_neg (by simp [h1]), if_pos h2]

/-- Any other is not acknowledged. -/
theorem smbBlock_nak {x : SmbBlock} {pec : Option Byte} (h1 : smbTakes d.smbAddress 1 8 x pec = false)
    (h2 : smbTakes d.smbAddress 2 4 x pec = false) : d.smbBlock d.smbAddress x pec = d.send .smbusNak := by
  rw [Device.smbBlock, if_neg (by simp [ho]), if_neg (by simp [h1]), if_neg (by simp [h2])]

/-- A Block Read answers the data at the set address, which advances by 4. -/
theorem smbusRead_data {x : SmbRead} (hc : x.cmd = 3#8) :
    (smbusRead d d.smbAddress x).mgmt = { d.mgmt with smbAddr := d.mgmt.smbAddr + 4 } ∧
    ∃ l t, (smbusRead d d.smbAddress x).sent = l ++ [.smbus (4#8 :: beBytes 4 (smbusRead d d.smbAddress x).file.smbusData.toNat ++ t)] ∧
      t.length = if x.pec then 1 else 0 := by
  unfold smbusRead
  rw [if_neg (by simp [ho]), if_neg (by simp [hc])]
  extract_lets e body head sent m
  have hm : e.mgmt = d.mgmt := (busReadStep_keepMgmt _ _ _ (KeepMgmt.refl d)).mgmt
  refine ⟨?_, e.sent, if x.pec then [BitVec.ofNat 8 (pecOf (head ++ body))] else [], ?_, ?_⟩
  · exact congrArg (fun m : MgmtUnit => { m with smbAddr := m.smbAddr + 4 }) hm
  · dsimp only [Device.send, sent, body]
    cases x.pec <;> simp
  · cases x.pec <;> rfl

end

/-- Settles O21: which block a Block Write is, and the TAP's instruction in each device state. -/
theorem managementEvents : Obligations.ManagementEvents := by
  unfold Obligations.ManagementEvents
  have makes : ∀ {s : State} {x : SmbBlock} {pec : Option Byte} {g : Device → Device}, s.dev.smbAddress < 128 →
      s.dev.smbBlock s.dev.smbAddress x pec = g s.dev → Makes (.smbusWrite s.dev.smbAddress x pec) s g ∧
        Makes (.smbusSetAddress s.dev.smbAddress x pec) s g := fun {s x pec g} ha h =>
    ⟨makes_run (f := fun d => smbusWrite d s.dev.smbAddress x pec) rfl (by simp [Instr.wf, ha]) h,
      makes_run (f := fun d => smbusSetAddress d s.dev.smbAddress x pec) rfl (by simp [Instr.wf, ha]) h⟩
  have ne_of : ∀ {b : Bool} {p : Prop}, (b = true ↔ p) → ¬p → b = false := fun h hn => by simpa using fun hb => hn (h.1 hb)
  refine ⟨?write, ?address, ?badPec, ?badCommand, ?read, ?badRead, ?timeout, ?idcode, ?sample, ?active, ?passive, ?trst, ?held⟩
  case write =>
    intro s x pec ho ha hc hl hp
    exact (makes (g := fun d => busWrite d .smbus (beAt x.data 0 4) 0xF (BitVec.ofNat 32 (beAt x.data 4 4))) ha
      (smbBlock_write ho ((smbTakes_iff (by decide)).2 ⟨⟨hc, hl⟩, hp⟩))).1
  case address =>
    intro s x pec ho ha hc hl hp
    exact (makes (g := fun d => { d with mgmt := { d.mgmt with smbAddr := BitVec.ofNat 32 (beAt x.data 0 4) } }) ha
      (smbBlock_address ho (ne_of (smbTakes_iff (by decide)) (by simp [hc]))
        ((smbTakes_iff (by decide)).2 ⟨⟨hc, hl⟩, hp⟩))).2
  case badPec =>
    intro s x p ho ha hp
    have bad : ∀ cmd count, cmd < 256 → smbTakes s.dev.smbAddress cmd count x (some p) = false := fun cmd count hc =>
      ne_of (smbTakes_iff hc) (by
        rintro ⟨⟨h1, h2⟩, h | h⟩
        · cases h
        · rw [← h1, ← h2] at h
          exact hp (Option.some.inj h))
    exact makes ha (smbBlock_nak ho (bad 1 8 (by decide)) (bad 2 4 (by decide)))
  case badCommand =>
    intro s x pec ho ha h1 h2
    exact makes ha (smbBlock_nak ho (ne_of (smbTakes_iff (by decide)) fun h => h1 h.1)
      (ne_of (smbTakes_iff (by decide)) fun h => h2 h.1))
  case read =>
    exact fun s x ho ha hc => completes_run (f := fun d => smbusRead d s.dev.smbAddress x) rfl (by simp [Instr.wf, ha])
      (smbusRead_data ho hc)
  case badRead =>
    exact fun s x ho ha hc => makes_run (f := fun d => smbusRead d s.dev.smbAddress x) rfl (by simp [Instr.wf, ha])
      (by simp [smbusRead, ho, hc])
  case timeout => exact fun s => makes_run (f := smbusTimeout) rfl rfl rfl
  case idcode =>
    intro s ho ht
    have hl : ∀ i n, s.dev.jtagLoad i n = { s.dev with mgmt := { s.dev.mgmt with jtag := i, shift := n } } :=
      fun i n => by simp [Device.jtagLoad, ho, ht]
    exact ⟨completes_run (f := jtagIdcode) rfl rfl (by rw [jtagIdcode, hl]; exact ⟨rfl, rfl⟩),
      completes_run (f := jtagBypass) rfl rfl (by rw [jtagBypass, hl]; exact ⟨rfl, rfl⟩)⟩
  case sample =>
    intro s levels pre ho ht
    refine completes_run (f := fun d => jtagSample d levels pre) rfl rfl ?_
    simp [jtagSample, Device.jtagLoad, ho, ht, Device.ballDrive, Device.jtagActs]
  case active =>
    intro s levels hs ht
    have ho : s.dev.dev.state ≠ .off := by rcases hs with h | h <;> simp [h]
    refine ⟨completes_run (f := fun d => jtagExtest d levels) rfl rfl ?_, completes_run (f := jtagClamp) rfl rfl ?_,
      completes_run (f := jtagHighz) rfl rfl ?_⟩
    · simp [jtagExtest, Device.jtagLoad, ho, ht, Device.ballDrive, Device.jtagActs, hs]
    · simp [jtagClamp, Device.jtagLoad, ho, ht, Device.ballDrive, Device.jtagActs, hs]
    · simp [jtagHighz, Device.jtagLoad, ho, ht, Device.ballDrive, Device.jtagActs, hs]
  case passive =>
    intro s levels ho hr hc ht
    refine ⟨completes_run (f := fun d => jtagExtest d levels) rfl rfl ?_, completes_run (f := jtagClamp) rfl rfl ?_,
      completes_run (f := jtagHighz) rfl rfl ?_⟩
    · simp [jtagExtest, Device.jtagLoad, ho, ht, Device.ballDrive, Device.jtagActs, hr, hc]
    · simp [jtagClamp, Device.jtagLoad, ho, ht, Device.ballDrive, Device.jtagActs, hr, hc]
    · simp [jtagHighz, Device.jtagLoad, ho, ht, Device.ballDrive, Device.jtagActs, hr, hc]
  case trst =>
    exact fun s => ⟨completes_run (f := fun d => jtagTrst d true) rfl rfl ⟨rfl, rfl⟩,
      makes_run (f := fun d => jtagTrst d false) rfl rfl rfl⟩
  case held =>
    intro s levels pre ht hj
    have hl : ∀ i n, s.dev.jtagLoad i n = s.dev := fun i n => by simp [Device.jtagLoad, ht]
    refine ⟨makes_run (f := jtagIdcode) rfl rfl (hl _ _), makes_run (f := jtagBypass) rfl rfl (hl _ _),
      makes_run (f := fun d => jtagSample d levels pre) rfl rfl ?_, makes_run (f := fun d => jtagExtest d levels) rfl rfl ?_,
      makes_run (f := jtagClamp) rfl rfl (hl _ _), makes_run (f := jtagHighz) rfl rfl (hl _ _)⟩
    · simp [jtagSample, hl, ht]
    · simp [jtagExtest, hl, ht]

-- Counters (R363, R364, R368) ---------------------------------------------------------------------------------------

/-- A W1C bit that the hardware sets reads so, and nothing but the register file changes. -/
theorem setW1c_sets {d : Device} (hw : tabWf regReset d.file.regs = true) (a n : Nat) (hn : n < 32) :
    bit ((d.setW1c a n).reg a).toNat n = true := by
  have e : (d.setW1c a n).reg a = d.reg a ||| BitVec.ofNat 32 (2 ^ n) := Device.reg_setReg_same (d := d.markSet a n) hw a _
  rw [e, bit, BitVec.toNat_or, BitVec.toNat_ofNat, Nat.testBit_or, Nat.testBit_mod_two_pow, Nat.testBit_two_pow_self]
  simp [hn]

/-- A counter below its wrap has what is added to it. -/
theorem pcAdd_below {d : Device} {g : Option Nat} {k n : Nat} (pkt : Option EvPkt) (cyc : Nat)
    (h : d.pcValue (pcWin (pcPage g) k) + n < 2 ^ 48) : d.pcAdd g k n pkt cyc =
    { d with perf := { d.perf with val := tnatSet d.perf.val (pcWin (pcPage g) k) (d.pcValue (pcWin (pcPage g) k) + n) } } := by
  rw [Device.pcAdd]
  exact if_pos h

/-- One that does not sample wraps at 2^48, and OVF is set. -/
theorem pcAdd_wraps {d : Device} {g : Option Nat} {k n : Nat} (pkt : Option EvPkt) (cyc : Nat)
    (hs : g = none ∨ bit (d.cfg (pcWin (pcPage g) k)).toNat 17 = false)
    (h : 2 ^ 48 ≤ d.pcValue (pcWin (pcPage g) k) + n) : ∃ o, d.pcAdd g k n pkt cyc =
    (({ d with perf := { d.perf with
          val := tnatSet d.perf.val (pcWin (pcPage g) k) ((d.pcValue (pcWin (pcPage g) k) + n) % 2 ^ 48) } } : Device).setW1c (pcWin (pcPage g) k + 0x28) 0).noteWrap
        (pcWin (pcPage g) k) o false 3 := by
  refine ⟨bit (d.reg (pcWin (pcPage g) k + 0x28)).toNat 0, ?_⟩
  have hsum : ¬ tnat d.perf.val (pcWin (pcPage g) k) + n < 2 ^ 48 := Nat.not_lt.2 h
  have hsmp : ¬(g.isSome = true ∧ bit (d.cfg (pcWin (pcPage g) k)).toNat 17 = true) := by
    rcases hs with rfl | h <;> simp [*]
  unfold Device.pcAdd
  extract_lets w sum perf0 sel sampling reload v ovf d1
  rw [if_neg hsum]
  have hv : v = sum % 2 ^ 48 := if_neg hsmp
  have hsamp : decide sampling = false := decide_eq_false hsmp
  have hd : (d1.setW1c (w + 0x28) 0).noteWrap w ovf false 3 =
      (({ d with perf := { d.perf with val := tnatSet d.perf.val w (sum % 2 ^ 48) } } : Device).setW1c (w + 0x28) 0).noteWrap
        w ovf false 3 := by simp only [d1, hv, perf0]
  cases g with
  | none => exact hd
  | some m =>
    simp only [hsamp, Bool.false_and, Bool.false_eq_true, if_false]
    exact hd

/-- A counter of CYCLES that its filter lets count, at cycle `c`. -/
theorem cycleCounterWrap_adds {d : Device} {g : Option Nat} {k c : Nat} (hc : d.pcCycles g k = true)
    (hd : tnat d.perf.cycDone (pcWin (pcPage g) k) ≤ max d.stroke.cyc c) : ∃ (e : Device) (cyc : Nat),
    cycleCounterWrap d g k c =
      e.pcAdd g k (max d.stroke.cyc c + 1 - tnat d.perf.cycDone (pcWin (pcPage g) k)) none cyc ∧
    e.perf.val = d.perf.val ∧ e.file = d.file ∧ e.dev = d.dev := by
  unfold cycleCounterWrap Device.pcSync
  rw [if_pos (show (d.atCyc c).pcCycles g k = true from hc)]
  extract_lets w dn p d2
  have hdn : ¬(d.atCyc c).stroke.cyc + 1 ≤ dn := Nat.not_le.2 (Nat.lt_succ_of_le hd)
  rw [if_neg hdn]
  exact ⟨d2, _, rfl, rfl, rfl, rfl⟩

/-- A sample that names no packet, as its words. -/
theorem sampleOf_none (k st c0 : Nat) (hk : k < 8) : bit ((sampleOf k true 0 st c0 {}).words.headD 0) 3 = true := by
  have h : (sampleOf k true 0 st c0 {}).words.headD 0 = k + 8 := rfl
  rw [h, bit, Nat.testBit, Nat.shiftRight_eq_div_pow, show (k + 8) / 2 ^ 3 = 1 by omega]
  rfl

/-- When 16 cycles have passed, the one waiting sample is taken up: it is lost in a fenced gallery, and goes to the FIFO in
another. -/
theorem sampleSkidEnd_one {d : Device} {n k st c0 c : Nat} (hs : d.perf.skids = [⟨n, k, st, c0⟩])
    (ht : st * 256 + c0 + 16 < d.strokeNo * 256 + max d.stroke.cyc c) : sampleSkidEnd d n c =
    if d.isFenced n then { d.atCyc c with perf := { d.perf with skids := [] } }
    else ({ d.atCyc c with perf := { d.perf with skids := [] } } : Device).pushSample n (sampleOf k true 0 st c0 {}) := by
  have ht' : st * 256 + c0 + 16 < (d.atCyc c).strokeNo * 256 + (d.atCyc c).stroke.cyc := ht
  unfold sampleSkidEnd
  extract_lets d1 late mine p d2
  have hl : late ⟨n, k, st, c0⟩ = true := by simpa [late, d1] using ht'
  have hm : mine = [⟨n, k, st, c0⟩] := by simp [mine, d1, hs, hl]
  have h2 : d2 = { d.atCyc c with perf := { d.perf with skids := [] } } := by simp [d2, p, d1, hs, hl]
  rw [hm, h2]
  rfl

/-- Settles O22. -/
theorem counterEvents : Obligations.CounterEvents := by
  unfold Obligations.CounterEvents
  refine ⟨?sample, ?fenced, ?below, ?wraps⟩
  case sample =>
    intro s n c k st c0 hck hn hc hk hf hs ht hroom
    refine completes_clock (f := fun d => sampleSkidEnd d n c) rfl (by simp [Instr.wf, hn, hc]) hck ?_
    rw [sampleSkidEnd_one hs ht, if_neg (by simp [hf])]
    obtain ⟨h1, h2, h3, h4⟩ := pushSample_room (d := { s.dev.atCyc c with perf := { s.dev.perf with skids := [] } }) (n := n)
      hroom (sampleOf_none k st c0 hk)
    exact ⟨h2, h3, h4, h1⟩
  case fenced =>
    intro s n c k st c0 hck hn hc hf hs ht
    refine completes_clock (f := fun d => sampleSkidEnd d n c) rfl (by simp [Instr.wf, hn, hc]) hck ?_
    rw [sampleSkidEnd_one hs ht, if_pos hf]
  case below =>
    intro s g k c hck hg hk hc hcy hd hw hsum
    refine completes_clock (f := fun d => cycleCounterWrap d g k c) rfl (by simp [Instr.wf, pcOk, pcPageOk, hg, hk, hc]) hck ?_
    obtain ⟨e, cyc, he, hval, hfile, hdev⟩ := cycleCounterWrap_adds hcy hd
    have hv : ∀ w, e.pcValue w = s.dev.pcValue w := fun w => congrArg (fun t => tnat t w) hval
    have hwe : tabWf zeroNat e.perf.val = true := by rwa [hval]
    rw [he, pcAdd_below none cyc (by rwa [hv]), ← hv]
    exact ⟨tabGet_tabSet_same _ _ hwe, fun w hne => (tabGet_tabSet_other _ hne hwe).trans (hv w), hfile, hdev⟩
  case wraps =>
    intro s g k c hck hg hk hc hcy hd hw hr hsamp hsum
    refine completes_clock (f := fun d => cycleCounterWrap d g k c) rfl (by simp [Instr.wf, pcOk, pcPageOk, hg, hk, hc]) hck ?_
    obtain ⟨e, cyc, he, hval, hfile, hdev⟩ := cycleCounterWrap_adds hcy hd
    have hv : ∀ w, e.pcValue w = s.dev.pcValue w := fun w => congrArg (fun t => tnat t w) hval
    have hwe : tabWf zeroNat e.perf.val = true := by rwa [hval]
    obtain ⟨o, ho⟩ := pcAdd_wraps (d := e) (g := g) (k := k) none cyc
      (by rwa [Device.cfg, Device.reg, hfile]) (by rwa [hv])
    rw [he, ho, ← hv]
    exact ⟨tabGet_tabSet_same _ _ hwe, fun w hne => (tabGet_tabSet_other _ hne hwe).trans (hv w),
      setW1c_sets (d := { e with perf := _ }) (by rwa [hfile]) _ 0 (by decide), hdev⟩

end Sys2Proof.Machine

/-! How bring-up moves the lanes of a port, and the signal and reference-clock events (R73, R79, R81, R86, R444). -/

namespace Sys2Proof.Machine

-- What the operations of bring-up make of the lanes ------------------------------------------------------------------

theorem LaneMove.refl {T : LaneState → Prop} (d : Device) : LaneMove T d d := .ofLane rfl

theorem settleFault_lanes (d : Device) (p : Nat) : (d.settleFault p).lane.lanes = d.lane.lanes :=
  (Device.settleFault_keepLanes p (KeepLanes.refl d)).lanes

theorem settlePort_lanes (d : Device) (p : Nat) : (d.settlePort p).lane.lanes = d.lane.lanes :=
  (Device.settlePort_keepLanes p (KeepLanes.refl d)).lanes

theorem fixRate_lane (d : Device) (p : Nat) : (d.fixRate p).lane = d.lane := by
  unfold Device.fixRate
  split
  · rfl
  · split
    · exact setRate_lane d p _
    · rfl

/-- The states that a port's bring-up takes its lanes to from WAIT_SIGNAL. -/
def LaneState.starting (s : LaneState) : Prop := s = .an ∨ s = .train ∨ s = .align

/-- The states that a port's restart takes its lanes to. -/
def LaneState.restarting (s : LaneState) : Prop := s = .waitSignal ∨ s.starting

theorem LaneState.restarting.ne {s : LaneState} (h : s.restarting) : s ≠ .dormant ∧ s ≠ .up ∧ s ≠ .test ∧ s ≠ .retired := by
  rcases h with rfl | rfl | rfl | rfl <;> decide

section
variable {T : LaneState → Prop} (d : Device) (p : Nat)

theorem LaneMove.beginAlign (ha : T .align) : LaneMove T d (d.beginAlign p) :=
  (LaneMove.portTo d p ha).trans (.ofLane (settleFault_lanes _ p))

theorem LaneMove.tryStart (hT : ∀ s : LaneState, s.starting → T s) : LaneMove T d (d.tryStart p) := by
  have ht : T .train := hT _ (.inr (.inl rfl))
  have ha : T .align := hT _ (.inr (.inr rfl))
  unfold Device.tryStart
  extract_lets ls ready e f
  have hf : LaneMove T d f := .ofLane (congrArg (·.lanes) (fixRate_lane d p))
  clear_value f
  split
  · exact .refl d
  · split
    · split
      · exact .portTo d p (hT _ (.inl rfl))
      · exact .refl d
    · split
      · split
        · exact hf.trans (.beginTrain f p ht)
        · exact hf.trans (.beginAlign f p ha)
      · exact .refl d

/-- The lanes of a port that are in its bring-up or use go back to WAIT_SIGNAL. -/
theorem LaneMove.toWait (hw : T .waitSignal) : LaneMove T d ((d.portLanes p).foldl (fun d l =>
    let s := d.laneSt l
    if s.inPort then d.laneTo l .waitSignal else d) d) :=
  foldl_rel (R := LaneMove T) .refl (fun _ _ _ => .trans) (fun d l => by
    dsimp only
    split
    · exact .laneTo d l hw
    · exact .refl d) _ _

theorem LaneMove.restart (hT : ∀ s : LaneState, s.restarting → T s) : LaneMove T d (d.restart p) := by
  unfold Device.restart
  extract_lets e
  have he : LaneMove T d e := .toWait d p (hT _ (.inl rfl))
  clear_value e
  refine he.trans (.trans ?_ (.ofLane (settleFault_lanes _ p)))
  refine .trans (.ofLane ?_) (.tryStart _ p fun s hs => hT s (.inr hs))
  exact congrArg (·.lanes) (fixRate_lane _ p)

theorem LaneMove.leavePort (l : Nat) (hT : ∀ s : LaneState, s.restarting → T s) : LaneMove T d (d.leavePort l) := by
  unfold Device.leavePort
  split
  · exact .refl d
  · exact (LaneMove.restart d _ hT).trans (.ofLane (settlePort_lanes _ _))

theorem LaneMove.wakePort (hT : ∀ s : LaneState, s.restarting → T s) : LaneMove T d (d.wakePort p) := by
  refine .trans (foldl_rel (R := LaneMove T) .refl (fun _ _ _ => .trans) (fun d l => ?_) _ _) (.restart _ p hT)
  split
  · exact .laneTo d l (hT _ (.inl rfl))
  · exact .refl d

end

/-- A lane that moves only to states of `T` ends in one of them, or where it was. -/
theorem LaneMove.st_ne {T : LaneState → Prop} {d e : Device} (h : LaneMove T d e) (hw : lanesWf d) {l : Nat} {s : LaneState}
    (h0 : (d.laneSt l).st ≠ s) (hT : ¬T s) : (e.laneSt l).st ≠ s := by
  rcases (h.each hw l).2 with h1 | h1
  · rwa [h1]
  · exact fun h2 => hT (h2 ▸ h1)

/-- The lanes of the port that are in its use have left UP when their loop is over. -/
theorem toWait_spec {d : Device} (hw : lanesWf d) (p : Nat) :
    lanesWf ((d.portLanes p).foldl (fun d l =>
      let s := d.laneSt l
      if s.inPort then d.laneTo l .waitSignal else d) d) ∧
    (∀ l ∈ d.portLanes p, (((d.portLanes p).foldl (fun d l =>
        let s := d.laneSt l
        if s.inPort then d.laneTo l .waitSignal else d) d).laneSt l).st =
      if (d.laneSt l).inPort then .waitSignal else (d.laneSt l).st) :=
  have h := lane_loop (h := fun d l => if (d.laneSt l).inPort then d.laneTo l .waitSignal else d)
    (R := fun a b => b.st = if a.inPort then .waitSignal else a.st)
    (fun _ l h => by
      split
      · exact (laneTo_spec h l _).1
      · exact h)
    (fun d l h => by
      by_cases k : (d.laneSt l).inPort = true
      · rw [if_pos k, if_pos k]
        exact (laneTo_spec h l _).2.1
      · rw [if_neg k, if_neg k])
    (fun _ l m h q => by
      split
      · exact (laneTo_spec h l _).2.2.2 m q
      · rfl)
    _ (portLanes_nodup d p) d hw
  ⟨h.1, h.2.1⟩

/-- A lane of the port that was UP is not UP after the port's restart. -/
theorem restart_leaves_up {d : Device} (hw : lanesWf d) {p l : Nat} (hl : l ∈ d.portLanes p) : ((d.restart p).laneSt l).st ≠ .up := by
  unfold Device.restart
  extract_lets e
  obtain ⟨we, he⟩ := toWait_spec hw p
  have hs : (e.laneSt l).st ≠ .up := by
    rw [show (e.laneSt l).st = _ from he l hl]
    split
    · decide
    · intro h
      simp_all [LaneSt.inPort, LaneSt.free]
  have we : lanesWf e := we
  clear_value e
  have m : LaneMove (fun s => s ≠ .up) e ((((e.modBring p fun b => { b with trainBy := none, upDue := false }).fixRate p).tryStart
      p).settleFault p) :=
    .trans (.trans (.ofLane (congrArg (·.lanes) (fixRate_lane _ p))) (.tryStart _ p fun s h => (LaneState.restarting.ne (.inr h)).2.1))
      (.ofLane (settleFault_lanes _ p))
  exact m.st_ne we hs fun h => h rfl

/-- A lane of the port that was DORMANT has left it for WAIT_SIGNAL or the states of bring-up after the port's wake. -/
theorem wakePort_leaves_dormant {d : Device} (hw : lanesWf d) {p l : Nat} (hl : l ∈ d.portLanes p)
    (hd : (d.laneSt l).st = .dormant) : ((d.wakePort p).laneSt l).st.restarting := by
  have h := lane_loop (h := fun d l => if (d.laneSt l).st = .dormant then d.laneTo l .waitSignal else d)
    (R := fun a b => a.st = .dormant → b.st = .waitSignal)
    (fun _ l h => by
      split
      · exact (laneTo_spec h l _).1
      · exact h)
    (fun d l h k => by
      rw [if_pos k]
      exact (laneTo_spec h l _).2.1)
    (fun _ l m h q => by
      split
      · exact (laneTo_spec h l _).2.2.2 m q
      · rfl)
    _ (portLanes_nodup d p) d hw
  rcases ((LaneMove.restart (T := LaneState.restarting) _ p fun _ => id).each h.1 l).2 with e | e
  · exact .inl (e.trans (h.2.1 l hl hd))
  · exact e

/-- A loop over lanes with an invariant of the device, where every step changes its own lane only. -/
theorem lane_loop_inv {I : Device → Prop} {R : Nat → LaneSt → LaneSt → Prop} {h : Device → Nat → Device}
    (hi : ∀ d l, I d → I (h d l)) (ls : List Nat) (hs : ∀ d l, l ∈ ls → I d → R l (d.laneSt l) ((h d l).laneSt l))
    (ho : ∀ d l m, I d → m ≠ l → (h d l).laneSt m = d.laneSt m) (hn : ls.Nodup) (d : Device) (hd : I d) :
    I (ls.foldl h d) ∧ (∀ l ∈ ls, R l (d.laneSt l) ((ls.foldl h d).laneSt l)) ∧
      ∀ m, m ∉ ls → (ls.foldl h d).laneSt m = d.laneSt m := by
  induction ls generalizing d with
  | nil => exact ⟨hd, fun l hl => (List.not_mem_nil hl).elim, fun _ _ => rfl⟩
  | cons x t ih =>
    rw [List.nodup_cons] at hn
    obtain ⟨a, b, c⟩ := ih (fun d l hl => hs d l (List.mem_cons_of_mem _ hl)) hn.2 (h d x) (hi d x hd)
    refine ⟨a, fun l hl => ?_, fun m hm => ?_⟩
    · rcases List.mem_cons.1 hl with rfl | hl
      · rw [List.foldl_cons, c l hn.1]
        exact hs d l (List.mem_cons_self ..) hd
      · have ne : l ≠ x := fun e => hn.1 (e ▸ hl)
        rw [← ho d x l hd ne]
        exact b l hl
    · rw [List.mem_cons, not_or] at hm
      rw [List.foldl_cons, c m hm.2, ho d x m hd hm.1]

-- Signal (R79, R81, R86) ----------------------------------------------------------------------------------------------

/-- What a change of one lane leaves of it, but for the strokes in which it became quiet and the cycle of its freezing. -/
theorem modLane_kept {d : Device} (hw : lanesWf d) (l : Nat) (f : LaneSt → LaneSt) :
    ((d.modLane l f).laneSt l).kept = (f (d.laneSt l)).kept ∧ ((d.modLane l f).laneSt l).st = (f (d.laneSt l)).st := by
  obtain ⟨z, o, i, h⟩ := modLane_at hw l f
  rw [h]
  exact ⟨rfl, rfl⟩

theorem modLane_other {d : Device} (hw : lanesWf d) {l m : Nat} (f : LaneSt → LaneSt) (h : m ≠ l) :
    (d.modLane l f).laneSt m = d.laneSt m := setLane_other hw l m _ h

theorem modLane_wf {d : Device} (hw : lanesWf d) (l : Nat) (f : LaneSt → LaneSt) : lanesWf (d.modLane l f) := setLane_wf hw l _

/-- SIGNAL_DETECT sets SIG_DET, and then only moves lanes. -/
theorem signalDetect_moves (d : Device) (l c : Nat) : LaneMove (fun _ => True) ((d.atCyc c).modLane l fun s =>
    { s with sigDet := true, sigIn := if s.sigDet then s.sigIn else (d.strokeNo + 1) }) (signalDetect d l c) := by
  unfold signalDetect
  extract_lets e
  split
  · exact .refl e
  · extract_lets fresh f
    split
    · refine .trans (.ofLane (e := f.modBring _ _) ?_) (.wakePort _ _ fun _ _ => trivial)
      show f.lane.lanes = e.lane.lanes
      dsimp only [f]
      split
      · rfl
      · exact congrArg (·.lanes) (Device.raise_lane _ _ _)
    · exact .tryStart e _ fun _ _ => trivial

/-- A dormant port wakes where signal detect may wake it (R86). -/
theorem signalDetect_wakes {d : Device} {l p c : Nat} (hl : l < 1024) (hw : lanesWf d) (hr : tabWf regReset d.file.regs = true)
    (hp : d.portOf l = some p) (hs : d.linkSeq p = true) (hd : (d.laneSt p).st = .dormant)
    (hwk : d.profile.active = 7 ∨ F.LANE_LN_BRINGUP_WAKE_SD.get (d.bringReg p) = 1) :
    ((signalDetect d l c).laneSt p).st.restarting := by
  have hpl := (portOf_spec hp).2.2
  have mem : p ∈ d.portLanes p := mem_portLanes.2 ⟨Nat.le_refl _, Nat.lt_add_of_pos_right (Nat.two_pow_pos _)⟩
  unfold signalDetect
  extract_lets e
  have we : lanesWf e := modLane_wf (d := d.atCyc c) hw l _
  have hd' : (e.laneSt p).st = .dormant := by
    by_cases h : p = l
    · subst h
      exact (modLane_kept (d := d.atCyc c) hw p _).2.trans hd
    · exact (congrArg (·.st) (modLane_other (d := d.atCyc c) hw _ h)).trans hd
  rw [show e.portOf l = some p from hp]
  dsimp only
  have dorm : e.isDormant p = true := List.any_eq_true.2 ⟨p, mem, by simpa using hd'⟩
  have wakes : e.wakes p = true := by
    show (d.profile.active == 7 || F.LANE_LN_BRINGUP_WAKE_SD.get (d.bringReg p) == 1) = true
    simpa using hwk
  rw [if_pos ⟨hs, dorm, .inl wakes⟩]
  have wake : ∀ (x : Device) (g : BringUp → BringUp), x.lane.lanes = e.lane.lanes → x.portLanes p = e.portLanes p →
      (((x.modBring p g).wakePort p).laneSt p).st.restarting := fun x g hx hlanes =>
    wakePort_leaves_dormant (d := x.modBring p g) (lanesWf_of_lanes hx we) (show p ∈ x.portLanes p by rw [hlanes]; exact mem)
      ((congrArg (·.st) (laneSt_of_lanes hx p)).trans hd')
  split
  · exact wake e _ rfl rfl
  · exact wake _ _ (congrArg (·.lanes) (Device.raise_lane e (laneBase p) 4))
      ((CfgKeep.raise e (laneBase p) 4 (by unfold laneBase; omega)).portLanes hr p)

/-- Losing SIG_DET in UP: cause 4, and the lane has left UP (R81). -/
theorem signalLost_up {d : Device} {l p c : Nat} (hw : lanesWf d) (hp : d.portOf l = some p) (hs : d.linkSeq l = true)
    (hu : (d.laneSt l).st = .up) : ((signalLost d l c).laneSt l).sigDet = false ∧ ((signalLost d l c).laneSt l).downCause = 4 ∧
      ((signalLost d l c).laneSt l).st ≠ .up := by
  unfold signalLost
  extract_lets e
  have we : lanesWf e := modLane_wf (d := d.atCyc c) hw l _
  obtain ⟨hk, hst⟩ := modLane_kept (d := d.atCyc c) hw l fun s => { s with sigDet := false }
  rw [if_pos ⟨hst.trans hu, hs⟩]
  have wc : lanesWf (e.setCause l 4) := modLane_wf we l _
  obtain ⟨ck, cst⟩ := modLane_kept we l fun s => { s with downCause := 4 }
  have kept := ((LaneMove.leavePort (T := fun _ => True) (e.setCause l 4) l fun _ _ => trivial).each wc l).1.trans ck
  refine ⟨(congrArg (·.sigDet) kept).trans (congrArg (·.sigDet) hk), congrArg (·.downCause) kept, ?_⟩
  unfold Device.leavePort
  rw [show (e.setCause l 4).portOf l = some p from hp]
  dsimp only
  rw [settlePort_laneSt]
  exact restart_leaves_up wc (portOf_spec hp).2.1

-- Reference clocks (R73) ----------------------------------------------------------------------------------------------

theorem laneTo_refBad (d : Device) (l : Nat) (st : LaneState) : (d.laneTo l st).lane.refBad = d.lane.refBad := by
  obtain ⟨e, he, h⟩ := laneTo_lane d l st
  rw [h, ← he]
  rfl

/-- A lane whose reference is bad, outside a fence, rests in WAIT_SIGNAL while it is free. -/
theorem restState_refBad {d : Device} {l : Nat} (hf : (d.laneSt l).free = true) (hn : d.isFenced (l / 32) = false)
    (hb : bit d.lane.refBad (l / 128) = true) : d.restState l = some .waitSignal := by
  simp [Device.restState, hf, hn, hb]

theorem settleLane_wf {d : Device} (hw : lanesWf d) (l : Nat) : lanesWf (d.settleLane l) := by
  unfold Device.settleLane
  split
  · split
    · exact hw
    · exact (laneTo_spec hw l _).1
  · exact hw

theorem settleLane_other {d : Device} (hw : lanesWf d) {l m : Nat} (h : m ≠ l) : (d.settleLane l).laneSt m = d.laneSt m := by
  unfold Device.settleLane
  split
  · split
    · rfl
    · exact (laneTo_spec hw l _).2.2.2 m h
  · rfl

theorem settleLane_refBad (d : Device) (l : Nat) : (d.settleLane l).lane.refBad = d.lane.refBad := by
  unfold Device.settleLane
  split
  · split
    · rfl
    · exact laneTo_refBad d l _
  · rfl

/-- A lane enters the state that its controls hold it in. -/
theorem settleLane_rest {d : Device} (hw : lanesWf d) {l : Nat} {st : LaneState} (h : d.restState l = some st) :
    ((d.settleLane l).laneSt l).st = st ∧ ((d.settleLane l).laneSt l).kept = (d.laneSt l).kept := by
  unfold Device.settleLane
  rw [h]
  dsimp only
  split
  · next e => exact ⟨e.symm, rfl⟩
  · exact ⟨(laneTo_spec hw l st).2.1, (laneTo_spec hw l st).2.2.1⟩

theorem chipletLanes_nodup (c : Nat) : (chipletLanes c).Nodup :=
  List.Pairwise.map _ (fun a b (h : a ≠ b) => by omega) List.nodup_range

theorem mem_chipletLanes {c l : Nat} : l ∈ chipletLanes c ↔ l / 128 = c := by
  unfold chipletLanes
  rw [List.mem_map]
  constructor
  · rintro ⟨k, hk, rfl⟩
    rw [List.mem_range] at hk
    omega
  · rintro rfl
    exact ⟨l % 128, List.mem_range.2 (by omega), by omega⟩

/-- What the loss of a reference leaves as it goes through the lanes of the chiplet. -/
structure RefLost (d e : Device) (c : Nat) : Prop where
  wf : lanesWf e
  bad : bit e.lane.refBad c = true
  fenced : e.dev.fenced = d.dev.fenced

theorem refClockLost_spec {d : Device} (hw : lanesWf d) (c : Nat) : bit (refClockLost d c).lane.refBad c = true ∧
    (∀ l, l / 128 = c → (d.laneSt l).free = true → d.isFenced (l / 32) = false → ((refClockLost d c).laneSt l).st = .waitSignal) ∧
    ∀ l, l / 128 ≠ c → (refClockLost d c).laneSt l = d.laneSt l := by
  unfold refClockLost
  extract_lets z e f
  have he : RefLost d e c := ⟨hw, bit_setBit _ _, rfl⟩
  have loop := lane_loop_inv (I := fun x => RefLost d x c) (h := fun d l => d.settleLane l)
    (R := fun l a b => a.free = true → d.isFenced (l / 32) = false → b.st = .waitSignal)
    (fun x l h => ⟨settleLane_wf h.wf l, by rw [settleLane_refBad]; exact h.bad,
      ((Device.settleLane_same (bb := false) l (Same.refl x)).fenced).trans h.fenced⟩) (chipletLanes c)
    (fun x l hl h hfree hn => (settleLane_rest h.wf (restState_refBad hfree (by rw [Device.isFenced, h.fenced]; exact hn)
      (by rw [mem_chipletLanes.1 hl]; exact h.bad))).1)
    (fun x l m h hne => settleLane_other h.wf hne) (chipletLanes_nodup c) e he
  rw [show (chipletLanes c).foldl (fun d l => d.settleLane l) e = f from rfl] at loop
  clear_value f
  obtain ⟨hf, each, other⟩ := loop
  have ports : KeepLanes f ((f.ports.map (·.1)).foldl (fun d p => if p / 128 = c then d.settlePort p else d) f) :=
    KeepLanes.foldl _ (fun e p h => .ite (Device.settlePort_keepLanes p h) h) (.refl f)
  refine ⟨by rw [ports.refBad]; exact hf.bad, fun l hl hfree hn => ?_, fun l hl => ?_⟩
  · rw [laneSt_of_lanes ports.lanes]
    exact each l (mem_chipletLanes.2 hl) hfree hn
  · rw [laneSt_of_lanes ports.lanes]
    exact other l fun h => hl (mem_chipletLanes.1 h)

/-- Settles O23. -/
theorem laneSignals : Obligations.LaneSignals := by
  unfold Obligations.LaneSignals
  refine ⟨?detect, ?wakes, ?lostUp, ?lostOther, ?refLost, ?refBack, ?refGood⟩
  case detect =>
    intro s l c hck hl hc hw
    refine completes_clock (f := fun d => signalDetect d l c) rfl (by simp [Instr.wf, hl, hc]) hck ?_
    have wm := modLane_wf (d := s.dev.atCyc c) hw l fun x =>
      { x with sigDet := true, sigIn := if x.sigDet then x.sigIn else (s.dev.strokeNo + 1) }
    have each := (signalDetect_moves s.dev l c).each wm
    refine ⟨(congrArg (·.sigDet) (each l).1).trans (congrArg (·.sigDet) (modLane_kept (d := s.dev.atCyc c) hw l _).1), fun m hm => ?_⟩
    rw [(each m).1, modLane_other (d := s.dev.atCyc c) hw _ hm]
    rfl
  case wakes =>
    intro s l p c hck hl hc hw hr hp hs hd hwk
    refine completes_clock (f := fun d => signalDetect d l c) rfl (by simp [Instr.wf, hl, hc]) hck ?_
    have h := (signalDetect_wakes (c := c) hl hw hr hp hs hd hwk).ne
    exact ⟨h.1, h.2.1⟩
  case lostUp =>
    exact fun s l p c hck hl hc hw hp hs hu _ =>
      completes_clock (f := fun d => signalLost d l c) rfl (by simp [Instr.wf, hl, hc]) hck (signalLost_up hw hp hs hu)
  case lostOther =>
    intro s l c hck hl hc hw hu
    refine completes_clock (f := fun d => signalLost d l c) rfl (by simp [Instr.wf, hl, hc]) hck ?_
    obtain ⟨hk, hst⟩ := modLane_kept (d := s.dev.atCyc c) hw l fun s => { s with sigDet := false }
    have e : signalLost s.dev l c = (s.dev.atCyc c).modLane l fun s => { s with sigDet := false } := by
      unfold signalLost
      exact if_neg fun h => hu (hst.symm.trans h.1)
    rw [e]
    exact ⟨hk, hst, fun m hm => modLane_other (d := s.dev.atCyc c) hw _ hm⟩
  case refLost =>
    exact fun s c hc hw => completes_run (f := fun d => refClockLost d c) rfl (by simp [Instr.wf, hc]) (refClockLost_spec hw c)
  case refBack =>
    exact fun s c hc hb => makes_run (f := fun d => refClockRestored d c) rfl (by simp [Instr.wf, hc]) (if_pos hb)
  case refGood =>
    exact fun s c hc hb => makes_run (f := fun d => refClockRestored d c) rfl (by simp [Instr.wf, hc]) (if_neg (by simp [hb]))

end Sys2Proof.Machine

/-! A lane's bring-up: negotiation, training, alignment, block lock and LANE_UP (R79, R80, R96). -/

namespace Sys2Proof.Machine

-- Negotiation (R79) ---------------------------------------------------------------------------------------------------

/-- Storing PT_CFG.SPEED leaves the ports as wide as they were. -/
theorem portLanes_setSpeed {d : Device} (hr : tabWf regReset d.file.regs = true) (p n : Nat) :
    (d.setFld (ofPort A.PORT_PT_CFG p) F.PORT_PT_CFG_SPEED n).portLanes p = d.portLanes p := by
  unfold Device.portLanes Device.portWidth
  rw [fld_setFld_other hr _ n (by decide) (by decide)]

/-- The partner's page shows a rate common to both, and the highest of them is taken (R79, R96). -/
theorem anPageReceive_common {d : Device} {p rates fec r w : Nat} (hs : (d.laneSt p).st = .an) (he : d.portEn p = true)
    (hq : d.linkSeq p = true) (hw : w = d.fld (ofPort A.PORT_PT_CFG p) F.PORT_PT_CFG_WIDTH) (hr : r < 4)
    (hrate : laneRate (r + w) w = some r) (h1 : rates.testBit r = true)
    (h2 : (F.LANE_LN_AN_ADV_RATES.get (d.reg (ofLane A.LANE_LN_AN_ADV p))).testBit r = true)
    (hmax : ∀ q, r < q → q < 4 → ¬(rates.testBit q = true ∧ laneRate (q + w) w = some q ∧
      (F.LANE_LN_AN_ADV_RATES.get (d.reg (ofLane A.LANE_LN_AN_ADV p))).testBit q = true)) :
    ∃ (v : Word) (f : PortSt → PortSt), anPageReceive d p rates fec = (((((d.setReg (ofLane A.LANE_LN_AN_LP p) v).setFld
      (ofPort A.PORT_PT_CFG p) F.PORT_PT_CFG_SPEED (r + w)).modPort p f).setRate p r).beginTrain p .train) := by
  have last := last_filter4 (g := fun r => bit (F.LANE_LN_AN_ADV_RATES.get (d.reg (ofLane A.LANE_LN_AN_ADV p))) r && bit rates r &&
      laneRate (r + w) w == some r) hr (by simp [bit, h1, h2, hrate]) fun q hq1 hq2 => by
    refine Bool.eq_false_iff.2 fun hc => ?_
    simp only [Bool.and_eq_true, beq_iff_eq, bit] at hc
    obtain ⟨⟨hadv, hrates⟩, hlane⟩ := hc
    exact hmax q hq1 hq2 ⟨hrates, hlane, hadv⟩
  unfold anPageReceive
  rw [if_neg (by simp [hs, he, hq])]
  subst hw
  dsimp only
  rw [last]
  exact ⟨_, _, rfl⟩

theorem laneRate_le {r w : Nat} (h : laneRate (r + w) w = some r) : r + w ≤ 6 := by
  unfold laneRate at h
  split at h
  · next hc => exact hc.2.2.1
  · cases h

theorem anPageReceive_trains {d : Device} {p rates fec r w : Nat} (hp : p < 1024) (hwf : lanesWf d)
    (hregs : tabWf regReset d.file.regs = true) (hs : (d.laneSt p).st = .an) (he : d.portEn p = true)
    (hq : d.linkSeq p = true) (hw : w = d.fld (ofPort A.PORT_PT_CFG p) F.PORT_PT_CFG_WIDTH) (hr : r < 4)
    (hrate : laneRate (r + w) w = some r) (h1 : rates.testBit r = true)
    (h2 : (F.LANE_LN_AN_ADV_RATES.get (d.reg (ofLane A.LANE_LN_AN_ADV p))).testBit r = true)
    (hmax : ∀ q, r < q → q < 4 → ¬(rates.testBit q = true ∧ laneRate (q + w) w = some q ∧
      (F.LANE_LN_AN_ADV_RATES.get (d.reg (ofLane A.LANE_LN_AN_ADV p))).testBit q = true)) :
    (∀ l ∈ d.portLanes p, (d.laneSt l).free = true → ((anPageReceive d p rates fec).laneSt l).st = .train) ∧
      F.PORT_PT_CFG_SPEED.get ((anPageReceive d p rates fec).reg (ofPort A.PORT_PT_CFG p)) = r + w := by
  obtain ⟨v, f, e⟩ := anPageReceive_common (fec := fec) hs he hq hw hr hrate h1 h2 hmax
  have lp : ofLane A.LANE_LN_AN_LP p < 0x1000000 := by simp only [ofLane, A.LANE_LN_AN_LP]; omega
  have k1 := CfgKeep.setReg d _ v lp
  have w1 := k1.wf hregs
  have l2 := (portLanes_setSpeed w1 p (r + w)).trans (k1.portLanes hregs p)
  rw [e]
  generalize hd2 : (d.setReg (ofLane A.LANE_LN_AN_LP p) v).setFld (ofPort A.PORT_PT_CFG p) F.PORT_PT_CFG_SPEED (r + w) = d2 at l2
  have w2 : tabWf regReset d2.file.regs = true := hd2 ▸ setFld_wf w1 _ _ _
  have lane2 : d2.lane = d.lane := hd2 ▸ (Device.setReg_lane _ _ _).trans (Device.setReg_lane d _ _)
  have speed : F.PORT_PT_CFG_SPEED.get (d2.reg (ofPort A.PORT_PT_CFG p)) = r + w := by
    rw [← hd2, Device.setFld, Device.reg_setReg_same w1, Fld.get_put _ _ _ (by decide)]
    have := laneRate_le hrate
    exact Nat.mod_eq_of_lt (show r + w < 8 by omega)
  have k3 : CfgKeep d2 ((d2.modPort p f).setRate p r) := (CfgKeep.ofFile (d := d2) (e := d2.modPort p f) rfl).trans (CfgKeep.setRate (d2.modPort p f) hp r)
  have lane3 : ((d2.modPort p f).setRate p r).lane = d.lane := (setRate_lane _ p r).trans lane2
  have l3 := (k3.portLanes w2 p).trans l2
  generalize (d2.modPort p f).setRate p r = d3 at k3 lane3 l3
  have hl3 : d3.lane.lanes = d.lane.lanes := congrArg (·.lanes) lane3
  obtain ⟨-, hmem, -⟩ := beginTrain_spec (lanesWf_of_lanes hl3 hwf) p .train
  refine ⟨fun l hl hf => ?_, ?_⟩
  · rw [(hmem l (l3 ▸ hl)).1, laneSt_of_lanes hl3, if_pos hf]
  · rw [(CfgKeep.beginTrain d3 hp .train).reg (k3.wf w2) _ (by simp only [ofPort, A.PORT_PT_CFG]; omega),
      k3.reg w2 _ (by simp only [ofPort, A.PORT_PT_CFG]; omega), speed]

/-- No rate is common to both: NO_COMMON is shown. -/
theorem anPageReceive_none {d : Device} {p rates fec : Nat} (hregs : tabWf regReset d.file.regs = true) (hs : (d.laneSt p).st = .an)
    (he : d.portEn p = true) (hq : d.linkSeq p = true)
    (hno : ∀ q < 4, ¬(rates.testBit q = true ∧ (F.LANE_LN_AN_ADV_RATES.get (d.reg (ofLane A.LANE_LN_AN_ADV p))).testBit q = true)) :
    F.LANE_LN_AN_LP_NO_COMMON.get ((anPageReceive d p rates fec).reg (ofLane A.LANE_LN_AN_LP p)) = 1 ∧
      (anPageReceive d p rates fec).lane = d.lane ∧ ∃ f, anPageReceive d p rates fec = { d with file := f } := by
  have none : ∀ w, ((List.range 4).filter fun r => bit (F.LANE_LN_AN_ADV_RATES.get (d.reg (ofLane A.LANE_LN_AN_ADV p))) r && bit rates r &&
      laneRate (r + w) w == some r).getLast? = none := fun w => by
    rw [List.getLast?_eq_none_iff, List.filter_eq_nil_iff]
    intro q hq hc
    simp only [Bool.and_eq_true, bit] at hc
    exact hno q (List.mem_range.1 hq) ⟨hc.1.2, hc.1.1⟩
  have e : anPageReceive d p rates fec = d.setReg (ofLane A.LANE_LN_AN_LP p)
      (BitVec.ofNat 32 (rates % 16 + fec % 4 * 16 + 0x2000)) := by
    unfold anPageReceive
    rw [if_neg (by simp [hs, he, hq])]
    dsimp only
    rw [none]
  rw [e, Device.reg_setReg_same hregs]
  refine ⟨?_, Device.setReg_lane d _ _, _, rfl⟩
  simp only [Fld.get, bitsOf, F.LANE_LN_AN_LP_NO_COMMON, BitVec.toNat_ofNat]
  omega

-- Training (R79) ------------------------------------------------------------------------------------------------------

/-- A lane that trains is free. -/
theorem training_free {d : Device} {p l : Nat} (ht : d.training p = true) (hl : l ∈ d.portLanes p) : (d.laneSt l).free = true := by
  have h := List.all_eq_true.1 ht l hl
  simp only [Bool.or_eq_true, beq_iff_eq] at h
  unfold LaneSt.free
  rcases h with h | h <;> rw [h] <;> rfl

/-- A change of every lane of a list in the same way. -/
theorem modLanes_spec (f : LaneSt → LaneSt) (ls : List Nat) (hn : ls.Nodup) {d : Device} (hw : lanesWf d) :
    lanesWf (ls.foldl (fun d l => d.modLane l f) d) ∧
    (∀ l ∈ ls, ∃ z o i, (ls.foldl (fun d l => d.modLane l f) d).laneSt l =
      { f (d.laneSt l) with frozenAt := z, outQuiet := o, inQuiet := i }) ∧
    ∀ m, m ∉ ls → (ls.foldl (fun d l => d.modLane l f) d).laneSt m = d.laneSt m :=
  lane_loop (R := fun a b => ∃ z o i, b = { f a with frozenAt := z, outQuiet := o, inQuiet := i }) (fun _ l h => modLane_wf h l f)
    (fun _ l h => modLane_at h l f) (fun _ _ _ h => modLane_other h f) ls hn d hw

theorem trainingConverged_aligns {d : Device} {p : Nat} (hp : p < 1024) (hw : lanesWf d) (hregs : tabWf regReset d.file.regs = true)
    (he : d.portEn p = true) (ht : d.training p = true) (hq : d.linkSeq p = true) (hdue : d.trainDue p = false) :
    (∀ l ∈ d.portLanes p, ((trainingConverged d p).laneSt l).st = .align ∧ ((trainingConverged d p).laneSt l).cdr = true ∧
      ((trainingConverged d p).laneSt l).kept = (d.laneSt l).kept) ∧
    ∀ m, m ∉ d.portLanes p → (trainingConverged d p).laneSt m = d.laneSt m := by
  unfold trainingConverged
  rw [if_neg (by simp [he, ht, hq, hdue])]
  extract_lets e
  obtain ⟨w1, h1, o1⟩ := portTo_spec hw p .align
  have hlanes : e.lane.lanes = (d.portTo p .align).lane.lanes := settleFault_lanes _ p
  have hports : e.portLanes p = d.portLanes p := by
    have hf : e.file = (d.portTo p .align).file := by
      show ((d.portTo p .align).settleFault p).file = _
      unfold Device.settleFault
      dsimp only
      split <;> rfl
    exact ((CfgKeep.portTo d hp .align).trans (.ofFile hf)).portLanes hregs p
  clear_value e
  obtain ⟨-, h2, o2⟩ := modLanes_spec (fun s => { s with cdr := true }) (e.portLanes p) (portLanes_nodup e p)
    (lanesWf_of_lanes hlanes w1)
  rw [hports] at h2 o2 ⊢
  refine ⟨fun l hl => ?_, fun m hm => ?_⟩
  · obtain ⟨z, o, i, h⟩ := h2 l hl
    rw [h, laneSt_of_lanes hlanes]
    exact ⟨by rw [(h1 l hl).1, if_pos (training_free ht hl)], rfl, (h1 l hl).2⟩
  · rw [o2 m hm, laneSt_of_lanes hlanes, o1 m hm]

theorem trainingTimeout_restarts {d : Device} {p t : Nat} (hw : lanesWf d) (he : d.portEn p = true) (ht : d.training p = true)
    (hq : d.linkSeq p = true) (hby : (d.bring p).trainBy = some t) (hm : d.matured t = true) :
    (∀ l ∈ d.portLanes p, ((trainingTimeout d p).laneSt l).st = (if d.negotiates p then .an else .train) ∧
      ((trainingTimeout d p).laneSt l).kept = { (d.laneSt l).kept with trainFails := min ((d.laneSt l).trainFails + 1) 0xFFFF }) ∧
    ∀ m, m ∉ d.portLanes p → (trainingTimeout d p).laneSt m = d.laneSt m := by
  have hdue : d.trainDue p = true := by rw [Device.trainDue, hby]; exact hm
  have hfile : ∀ (ls : List Nat) (f : LaneSt → LaneSt), (ls.foldl (fun d l => d.modLane l f) d).file = d.file :=
    fun ls f => foldl_frame (·.file) (f := fun d l => d.modLane l f) (fun _ _ => rfl) ls d
  unfold trainingTimeout
  rw [if_neg (by simp [he, ht, hq, hdue])]
  extract_lets e e2
  obtain ⟨w1, h1, o1⟩ := modLanes_spec (fun s => { s with trainFails := min (s.trainFails + 1) 0xFFFF }) (d.portLanes p)
    (portLanes_nodup d p) hw
  have hf : e.file = d.file := hfile _ _
  change lanesWf e at w1
  have h1 : ∀ l ∈ d.portLanes p, ∃ z o i, e.laneSt l = { d.laneSt l with
    trainFails := min ((d.laneSt l).trainFails + 1) 0xFFFF, frozenAt := z, outQuiet := o, inQuiet := i } := h1
  have o1 : ∀ m, m ∉ d.portLanes p → e.laneSt m = d.laneSt m := o1
  have hports : e.portLanes p = d.portLanes p := by
    unfold Device.portLanes Device.portWidth Device.fld Device.cfg Device.reg
    rw [hf]
  have hneg : e.negotiates p = d.negotiates p := by
    unfold Device.negotiates Device.bringReg Device.reg
    rw [hf]
  have next : ∀ (st : LaneState) (x : Device), x.lane.lanes = (e.portTo p st).lane.lanes →
      (∀ l ∈ d.portLanes p, (x.laneSt l).st = st ∧
        (x.laneSt l).kept = { (d.laneSt l).kept with trainFails := min ((d.laneSt l).trainFails + 1) 0xFFFF }) ∧
      ∀ m, m ∉ d.portLanes p → x.laneSt m = d.laneSt m := fun st x hx => by
    obtain ⟨-, h2, o2⟩ := portTo_spec w1 p st
    rw [hports] at h2 o2
    refine ⟨fun l hl => ?_, fun m hm => ?_⟩
    · obtain ⟨z, o, i, h⟩ := h1 l hl
      have hfree : (e.laneSt l).free = true := by rw [h]; exact training_free ht hl
      rw [laneSt_of_lanes hx, (h2 l hl).1, (h2 l hl).2, if_pos hfree, h]
      exact ⟨rfl, rfl⟩
    · rw [laneSt_of_lanes hx, o2 m hm, o1 m hm]
  rw [hneg]
  split
  · exact next .an _ rfl
  · exact next .train _ rfl

-- Block lock and LANE_UP (R80) ----------------------------------------------------------------------------------------

theorem phaseTime_lane (d : Device) (rate : Nat) (ph : Int) : (d.phaseTime rate ph).2.lane = d.lane := by
  unfold Device.phaseTime
  split
  · obtain ⟨v, k, h⟩ := roundDiv_shape d (ph * 1024 * 32) 825
    rw [h]
  · obtain ⟨v, k, h⟩ := roundDiv_shape d (ph * 1024 * Int.ofNat (32 / 2 ^ rate)) 425
    rw [h]

/-- What the remap of a port's lanes leaves of each lane. -/
theorem findOrder_lane {d : Device} (hw : lanesWf d) (l m : Nat) (rv : Bool) : ((d.findOrder l rv).laneSt m).st = (d.laneSt m).st ∧
    ((d.findOrder l rv).laneSt m).blockLock = (d.laneSt m).blockLock ∧ ((d.findOrder l rv).laneSt m).cdr = (d.laneSt m).cdr ∧
    ((d.findOrder l rv).laneSt m).polDet = (d.laneSt m).polDet := by
  unfold Device.findOrder
  split
  · exact ⟨rfl, rfl, rfl, rfl⟩
  · extract_lets found
    rw [laneSt_of_lanes (settleFault_lanes _ _)]
    next p _ =>
    by_cases h : m = p
    · subst h
      obtain ⟨z, o, i, h⟩ := modLane_at hw m fun s => { s with revDet := found }
      rw [h]
      exact ⟨rfl, rfl, rfl, rfl⟩
    · rw [modLane_other hw _ h]
      exact ⟨rfl, rfl, rfl, rfl⟩

theorem blockLockAcquired_locks {d : Device} {l : Nat} {inv rv : Bool} {ph : Int} (hw : lanesWf d) (hs : (d.laneSt l).st = .align) :
    ((blockLockAcquired d l inv rv ph).laneSt l).blockLock = true ∧ ((blockLockAcquired d l inv rv ph).laneSt l).cdr = true ∧
    ((blockLockAcquired d l inv rv ph).laneSt l).st = .align ∧ ((blockLockAcquired d l inv rv ph).laneSt l).polDet =
      (if F.LANE_LN_CTRL_RX_POL_AUTO.get (d.reg (ofLane A.LANE_LN_CTRL l)) = 1 then inv
        else F.LANE_LN_CTRL_RX_POL_INV.get (d.reg (ofLane A.LANE_LN_CTRL l)) == 1) := by
  unfold blockLockAcquired
  rw [if_neg (by simp [hs])]
  extract_lets cfg pol e
  have we : lanesWf e := modLane_wf hw l _
  obtain ⟨z, o, i, he⟩ := modLane_at hw l fun s => { s with blockLock := true, cdr := true, polDet := pol }
  have hphase := phaseTime_lane e (F.LANE_LN_CTRL_RATE.get cfg) ph
  generalize e.phaseTime (F.LANE_LN_CTRL_RATE.get cfg) ph = x at hphase
  obtain ⟨v, x⟩ := x
  have hx : (x.setTsu l { x.tsuSt l with phase := v }).lane.lanes = e.lane.lanes := congrArg (·.lanes) hphase
  obtain ⟨h1, h2, h3, h4⟩ := findOrder_lane (lanesWf_of_lanes hx we) l l rv
  rw [laneSt_of_lanes hx, show e.laneSt l = _ from he] at h1 h2 h3 h4
  exact ⟨h2, h3, h1.trans hs, h4⟩

theorem rclkBoundary_lane (d : Device) : d.rclkBoundary.lane = d.lane :=
  foldl_frame (·.lane) (fun _ _ => by dsimp only; split <;> rfl) _ _

theorem modBring_at {d : Device} (hw : tabWf (fun _ => ({} : BringUp)) d.lane.bring = true) (p : Nat) (f : BringUp → BringUp) :
    (d.modBring p f).bring p = f (d.bring p) := tabGet_tabSet_same _ _ hw

theorem laneUp_raises {d : Device} {p : Nat} (hw : lanesWf d) (hb : tabWf (fun _ => ({} : BringUp)) d.lane.bring = true)
    (he : d.portEn p = true) (hq : d.linkSeq p = true) (hc : d.stroke.cyc = 0)
    (hl : ∀ l ∈ d.portLanes p, (d.laneSt l).st = .align ∧ (d.laneSt l).blockLock = true) :
    (∀ l ∈ d.portLanes p, ((laneUp d p).laneSt l).st = .up ∧ ((laneUp d p).laneSt l).kept = (d.laneSt l).kept) ∧
    ∀ m, m ∉ d.portLanes p → (laneUp d p).laneSt m = d.laneSt m := by
  unfold laneUp
  extract_lets e
  rw [if_pos (show e.stroke.cyc = 0 from hc)]
  have hdue : (e.bring p).upDue = true := congrArg (·.upDue) (modBring_at hb p _)
  have raise : e.raiseLanes p = (e.modBring p fun b => { b with upDue := false }).portTo p .up := by
    unfold Device.raiseLanes
    rw [if_neg (by simp [hdue])]
    exact if_pos ⟨he, hq, List.all_eq_true.2 fun l h => by
      have hs : (d.laneSt l).st = .align ∧ (d.laneSt l).blockLock = true := hl l h
      exact Bool.and_eq_true_iff.2 ⟨beq_iff_eq.2 hs.1, hs.2⟩⟩
  have hx : (e.raiseLanes p).rclkBoundary.lane.lanes = ((e.modBring p fun b => { b with upDue := false }).portTo p .up).lane.lanes := by
    rw [rclkBoundary_lane, raise]
  obtain ⟨-, h1, o1⟩ := portTo_spec (d := e.modBring p fun b => { b with upDue := false }) hw p .up
  refine ⟨fun l h => ?_, fun m h => ?_⟩
  · have hfree : (d.laneSt l).free = true := by unfold LaneSt.free; rw [(hl l h).1]; rfl
    rw [laneSt_of_lanes hx]
    exact ⟨(h1 l h).1.trans (if_pos hfree), (h1 l h).2⟩
  · rw [laneSt_of_lanes hx]
    exact o1 m h

/-- Settles O24. -/
theorem laneBringUp : Obligations.LaneBringUp := by
  unfold Obligations.LaneBringUp
  refine ⟨?common, ?none, ?converged, ?timeout, ?lock, ?up, ?later⟩
  case common =>
    exact fun s p rates fec r w hck hp h1 h2 hwf hregs hs he hq hw hr hrate hb1 hb2 hmax =>
      completes_clock (f := fun d => anPageReceive d p rates fec) rfl (by simp [Instr.wf, hp, h1, h2]) hck
        (anPageReceive_trains hp hwf hregs hs he hq hw hr hrate hb1 hb2 hmax)
  case none =>
    exact fun s p rates fec hck hp h1 h2 hregs hs he hq hno =>
      completes_clock (f := fun d => anPageReceive d p rates fec) rfl (by simp [Instr.wf, hp, h1, h2]) hck
        (anPageReceive_none hregs hs he hq hno)
  case converged =>
    exact fun s p hck hp hw hregs he ht hq hdue => completes_clock (f := fun d => trainingConverged d p) rfl (by simp [Instr.wf, hp]) hck
      (trainingConverged_aligns hp hw hregs he ht hq hdue)
  case timeout =>
    exact fun s p t hck hp hw he ht hq hby hm => completes_clock (f := fun d => trainingTimeout d p) rfl (by simp [Instr.wf, hp]) hck
      (trainingTimeout_restarts hw he ht hq hby hm)
  case lock =>
    exact fun s l inv rv ph hck hl hw hs => completes_clock (f := fun d => blockLockAcquired d l inv rv ph) rfl
      (by simp [Instr.wf, hl]) hck (blockLockAcquired_locks hw hs)
  case up =>
    exact fun s p hck hp hw hb he hq hc hl => completes_clock (f := fun d => laneUp d p) rfl (by simp [Instr.wf, hp]) hck
      (laneUp_raises hw hb he hq hc hl)
  case later =>
    exact fun s p hck hp hc => makes_clock (f := fun d => laneUp d p) rfl (by simp [Instr.wf, hp]) hck (if_neg hc)

end Sys2Proof.Machine

/-! The SNR of a lane: the operand of SNR_LOW is a byte (R81). -/

namespace Sys2Proof.Machine

/-- A device in RUN whose port 0 is enabled, on lane 0. -/
def onePort : State := { State.reset with
  dev := { dev := { state := .run }, file := { regs := [(ofPort A.PORT_PT_CFG 0, F.PORT_PT_CFG_EN.put 0 1)] } } }

/-- Refutes O25: the SNR in SNR_LOW is not bounded by its last clause, and the command refuses one that is not a byte. -/
theorem not_laneRetrains : ¬ Obligations.LaneRetrains := by
  unfold Obligations.LaneRetrains
  rintro ⟨-, -, above⟩
  have byte : ∀ w : Word, ¬ 256 < F.LANE_LN_BRINGUP_SNR_MIN.get w := fun w => by
    simp only [Fld.get, bitsOf, F.LANE_LN_BRINGUP_SNR_MIN]
    omega
  obtain ⟨t, h, -⟩ := above onePort 0 0 256 0 rfl (by decide) (by decide) rfl (by decide) (byte _)
  rw [show exec (.snrLow 0 256 0) onePort = .refused _ from rfl] at h
  cases h

end Sys2Proof.Machine

/-! A lane's own controls and the dormant state (R57, R73, R74, R81, R84, R86, R87). -/

namespace Sys2Proof.Machine

-- Lanes that bring-up leaves alone ------------------------------------------------------------------------------------

theorem CfgKeep.refl (d : Device) : CfgKeep d d := .ofFile rfl

theorem CfgKeep.foldl {ls : List Nat} {h : Device → Nat → Device} (hk : ∀ d, ∀ l ∈ ls, CfgKeep d (h d l)) (d : Device) :
    CfgKeep d (ls.foldl h d) := by
  induction ls generalizing d with
  | nil => exact .refl d
  | cons x t ih => exact (hk d x (List.mem_cons_self ..)).trans (ih (fun d l hl => hk d l (List.mem_cons_of_mem _ hl)) (h d x))

theorem portLanes_lt {d : Device} {p l : Nat} (hp : p < 1024) (hl : l ∈ d.portLanes p) : l < 2048 := by
  have h1 := (mem_portLanes.1 hl).2
  have h2 := portWidth_le d p
  omega

theorem CfgKeep.fixRate (d : Device) {p : Nat} (hp : p < 1024) : CfgKeep d (d.fixRate p) := by
  unfold Device.fixRate
  split
  · exact .refl d
  · split
    · exact .setRate d hp _
    · exact .refl d

/-- What bring-up leaves as it was: the lane `l` and what the ports are made of. -/
structure LeavesLane (d e : Device) (l : Nat) : Prop where
  wf : lanesWf e
  cfg : CfgKeep d e
  lane : e.laneSt l = d.laneSt l

section
variable {d : Device} (hw : lanesWf d) (hr : tabWf regReset d.file.regs = true)
include hw

/-- A loop that takes lanes back to WAIT_SIGNAL leaves a lane that it passes over. -/
theorem waitLoop_leaves {c : LaneSt → Prop} [DecidablePred c] {p l : Nat} (hp : p < 1024) (hc : ¬c (d.laneSt l)) :
    LeavesLane d ((d.portLanes p).foldl (fun d l => if c (d.laneSt l) then d.laneTo l .waitSignal else d) d) l := by
  have h := lane_loop_inv (I := lanesWf) (h := fun d l => if c (d.laneSt l) then d.laneTo l .waitSignal else d)
    (R := fun _ a b => ¬c a → b = a)
    (fun d l w => by
      split
      · exact (laneTo_spec w l _).1
      · exact w) (d.portLanes p) (fun d l _ _ k => by rw [if_neg k])
    (fun d l m w hne => by
      split
      · exact (laneTo_spec w l _).2.2.2 m hne
      · rfl) (portLanes_nodup d p) d hw
  refine ⟨h.1, CfgKeep.foldl (fun e m hm => ?_) d, ?_⟩
  · split
    · exact .laneTo e m _ (portLanes_lt hp hm)
    · exact .refl e
  · by_cases hl : l ∈ d.portLanes p
    · exact h.2.1 l hl hc
    · exact h.2.2 l hl

include hr

/-- A restart of a port leaves a lane of it that is in TEST, disabled, retired or sending a fault sequence. -/
theorem restart_apart {p l : Nat} (hp : p < 1024) (hl : l ∈ d.portLanes p) (ha : (d.laneSt l).apart) :
    (d.restart p).laneSt l = d.laneSt l := by
  have hin : ¬(d.laneSt l).inPort = true := by
    rcases ha with h | h | h | h <;> simp [LaneSt.inPort, LaneSt.free, h]
  have hwait : (d.laneSt l).st ≠ .waitSignal := by rcases ha with h | h | h | h <;> simp [h]
  unfold Device.restart
  extract_lets e
  obtain ⟨-, hcfg, hlane⟩ : LeavesLane d e l := waitLoop_leaves hw (c := fun s => s.inPort = true) hp hin
  clear_value e
  rw [laneSt_of_lanes (settleFault_lanes _ p)]
  generalize hf : ((e.modBring p fun b => { b with trainBy := none, upDue := false }).fixRate p) = f
  have hlf : f.laneSt l = d.laneSt l := by
    rw [← hf, laneSt_of_lanes (congrArg (·.lanes) (fixRate_lane _ p))]
    exact hlane
  have kf : CfgKeep d f := hcfg.trans (hf ▸ (CfgKeep.ofFile (d := e) (e := e.modBring p _) rfl).trans (.fixRate _ hp))
  rw [tryStart_still (l := l) (by rw [kf.portLanes hr]; exact hl) (by rwa [hlf]), hlf]

theorem wakePort_apart {p l : Nat} (hp : p < 1024) (hl : l ∈ d.portLanes p) (ha : (d.laneSt l).apart) :
    (d.wakePort p).laneSt l = d.laneSt l := by
  have hd : ¬(d.laneSt l).st = .dormant := by rcases ha with h | h | h | h <;> simp [h]
  obtain ⟨we, ke, he⟩ := waitLoop_leaves hw (c := fun s => s.st = .dormant) hp hd
  unfold Device.wakePort
  rw [restart_apart we (ke.wf hr) hp (by rw [ke.portLanes hr]; exact hl) (by rwa [he]), he]

theorem leavePort_apart {l : Nat} (hl : l < 1024) (ha : (d.laneSt l).apart) : (d.leavePort l).laneSt l = d.laneSt l := by
  unfold Device.leavePort
  split
  · rfl
  · next p hp =>
    obtain ⟨-, hmem, hle⟩ := portOf_spec hp
    rw [settlePort_laneSt]
    exact restart_apart hw hr (Nat.lt_of_le_of_lt hle hl) hmem ha

end

-- A lane's controls (R74, R84) ----------------------------------------------------------------------------------------

theorem restState_disabled {d : Device} {l : Nat} (hfree : (d.laneSt l).free = true) (hn : d.isFenced (l / 32) = false)
    (hb : bit d.lane.refBad (l / 128) = false) (ht : F.LANE_LN_CTRL_TEST.get (d.reg (ofLane A.LANE_LN_CTRL l)) = 0)
    (he : F.LANE_LN_CTRL_EN.get (d.reg (ofLane A.LANE_LN_CTRL l)) = 0) : d.restState l = some .disabled := by
  simp [Device.restState, hfree, hn, hb, ht, he]

theorem restState_test {d : Device} {l : Nat} (hfree : (d.laneSt l).free = true) (hn : d.isFenced (l / 32) = false)
    (hb : bit d.lane.refBad (l / 128) = false) (ht : F.LANE_LN_CTRL_TEST.get (d.reg (ofLane A.LANE_LN_CTRL l)) = 1)
    (ho : d.dev.state = .config ∨ d.running = true) : d.restState l = some .test := by
  simp [Device.restState, hfree, hn, hb, ht, ho]

/-- A lane whose TEST is cleared leaves it: disabled with EN = 0 while its reference is good, and else waiting for signal. -/
theorem restState_exit {d : Device} {l : Nat} (hs : (d.laneSt l).st = .test) (hn : d.isFenced (l / 32) = false)
    (ht : F.LANE_LN_CTRL_TEST.get (d.reg (ofLane A.LANE_LN_CTRL l)) = 0) : d.restState l = some
      (if bit d.lane.refBad (l / 128) = false ∧ F.LANE_LN_CTRL_EN.get (d.reg (ofLane A.LANE_LN_CTRL l)) = 0 then .disabled
        else .waitSignal) := by
  have hfree : (d.laneSt l).free = true := by unfold LaneSt.free; rw [hs]; rfl
  cases hb : bit d.lane.refBad (l / 128)
  · by_cases he : F.LANE_LN_CTRL_EN.get (d.reg (ofLane A.LANE_LN_CTRL l)) = 0
    · simp [Device.restState, hfree, hn, hb, ht, he]
    · simp [Device.restState, hfree, hn, hb, ht, he, hs]
  · simp [Device.restState, hfree, hn, hb]

/-- What follows once a lane's controls have moved it: its port's restart, which leaves a lane that is apart. -/
theorem moveLane_rests {d : Device} (hw : lanesWf d) (hr : tabWf regReset d.file.regs = true) {l : Nat} {t : LaneState} (hl : l < 1024)
    (h : d.restState l = some t) : ((d.moveLane l).laneSt l).kept = (d.laneSt l).kept ∧
      (((d.moveLane l).laneSt l).st = t ∨ ((d.moveLane l).laneSt l).st.restarting) ∧
      (t = .test ∨ t = .disabled → ((d.moveLane l).laneSt l).st = t) := by
  unfold Device.moveLane
  extract_lets was e now e1 e2
  obtain ⟨hst, hkept⟩ := settleLane_rest hw h
  have we : lanesWf e := settleLane_wf hw l
  have ke : CfgKeep d e := by
    show CfgKeep d (d.settleLane l)
    unfold Device.settleLane
    split
    · split
      · exact .refl d
      · exact .laneTo d l _ (by omega)
    · exact .refl d
  change (e.laneSt l).st = t at hst
  change (e.laneSt l).kept = _ at hkept
  have hnow : now = t := hst
  clear_value e
  have done : ∀ x : Device, LaneMove LaneState.restarting e x → ((e.laneSt l).apart → x.laneSt l = e.laneSt l) →
      (x.laneSt l).kept = (d.laneSt l).kept ∧ ((x.laneSt l).st = t ∨ (x.laneSt l).st.restarting) ∧
        (t = .test ∨ t = .disabled → (x.laneSt l).st = t) := fun x hm ha => by
    obtain ⟨h1, h2⟩ := hm.each we l
    refine ⟨h1.trans hkept, h2.imp_left (·.trans hst), fun ht => ?_⟩
    rw [ha (by unfold LaneSt.apart; rw [hst]; exact ht.imp_right .inl), hst]
  split
  · exact done e (.refl e) fun _ => rfl
  split
  · have we2 : lanesWf e2 := we
    have ofl : ∀ k, k < 1024 → ofLane A.LANE_LN_PRBS k < 0x1000000 := fun k hk => by simp only [ofLane, A.LANE_LN_PRBS]; omega
    have k2 : CfgKeep e e2 := (CfgKeep.setReg e _ _ (ofl l hl)).trans (CfgKeep.setReg e1 _ _ (ofl l hl))
    have hr2 := k2.wf (ke.wf hr)
    split
    · next p hp =>
      obtain ⟨-, hmem, hle⟩ := portOf_spec hp
      refine done _ (.trans (.ofLane (e := e2) rfl) (.trans (.wakePort e2 p fun _ => id) (.ofLane (settlePort_lanes _ _)))) fun ha => ?_
      rw [settlePort_laneSt]
      exact wakePort_apart we2 hr2 (Nat.lt_of_le_of_lt hle hl) hmem ha
    · exact done e2 (.ofLane rfl) fun _ => rfl
  split
  · split
    · next p hp =>
      refine done _ (.tryStart e p fun _ => .inr) fun ha => ?_
      rw [tryStart_still (portOf_spec hp).2.1]
      rcases ha with h | h | h | h <;> simp [h]
    · exact done e (.refl e) fun _ => rfl
  · exact done _ (.leavePort e l fun _ => id) (leavePort_apart we (ke.wf hr) hl)

theorem settlePrbs_lane {d : Device} (hw : lanesWf d) (l : Nat) : ((d.settlePrbs l).laneSt l).st = (d.laneSt l).st ∧
    ((d.settlePrbs l).laneSt l).kept = (d.laneSt l).kept := by
  unfold Device.settlePrbs
  split
  · exact ⟨rfl, rfl⟩
  · obtain ⟨h1, h2⟩ := modLane_kept hw l fun s => { s with prbsLock := false }
    exact ⟨h2, h1⟩

theorem moveLane_wf {d : Device} (hw : lanesWf d) (l : Nat) : lanesWf (d.moveLane l) := by
  unfold Device.moveLane
  extract_lets was e now e1 e2
  have we : lanesWf e := settleLane_wf hw l
  clear_value e
  split
  · exact we
  split
  · split
    · exact settlePort_lanesWf ((LaneMove.wakePort (T := fun _ => True) e2 _ fun _ _ => trivial).wf we) _
    · exact we
  split
  · split
    · exact (LaneMove.tryStart (T := fun _ => True) e _ fun _ _ => trivial).wf we
    · exact we
  · exact (LaneMove.leavePort (T := fun _ => True) e l fun _ _ => trivial).wf we

/-- A device in which what a lane's controls depend on is as in `d`, and LN_CTRL has the EN and TEST of `w`. -/
structure CtlReady (d f : Device) (l : Nat) (w : Word) : Prop where
  wf : lanesWf f
  regs : tabWf regReset f.file.regs = true
  dev : f.dev.fenced = d.dev.fenced ∧ f.dev.state = d.dev.state
  bad : f.lane.refBad = d.lane.refBad
  st : (f.laneSt l).st = (d.laneSt l).st
  en : F.LANE_LN_CTRL_EN.get (f.reg (ofLane A.LANE_LN_CTRL l)) = F.LANE_LN_CTRL_EN.get w
  test : F.LANE_LN_CTRL_TEST.get (f.reg (ofLane A.LANE_LN_CTRL l)) = F.LANE_LN_CTRL_TEST.get w

section
variable {d : Device} {l : Nat} {w : Word} (hw : lanesWf d) (hr : tabWf regReset d.file.regs = true)

/-- A device before the write, with its lane where it was. -/
structure CtlBefore (d e : Device) (l : Nat) : Prop where
  wf : lanesWf e
  regs : tabWf regReset e.file.regs = true
  dev : e.dev.fenced = d.dev.fenced ∧ e.dev.state = d.dev.state
  bad : e.lane.refBad = d.lane.refBad
  st : (e.laneSt l).st = (d.laneSt l).st

theorem CtlBefore.setReg {d e : Device} {l : Nat} (h : CtlBefore d e l) {w v : Word}
    (he : F.LANE_LN_CTRL_EN.get v = F.LANE_LN_CTRL_EN.get w) (ht : F.LANE_LN_CTRL_TEST.get v = F.LANE_LN_CTRL_TEST.get w) :
    CtlReady d (e.setReg (ofLane A.LANE_LN_CTRL l) v) l w :=
  ⟨h.wf, Device.setReg_wf h.regs _ _, h.dev, h.bad, h.st, by rw [Device.reg_setReg_same h.regs, he],
    by rw [Device.reg_setReg_same h.regs, ht]⟩

theorem CtlReady.modLane {d e : Device} {l : Nat} {w : Word} (h : CtlReady d e l w) (f : LaneSt → LaneSt) (hf : ∀ s, (f s).st = s.st) :
    CtlReady d (e.modLane l f) l w :=
  ⟨modLane_wf h.wf l f, h.regs, h.dev, h.bad, (modLane_kept h.wf l f).2.trans ((hf _).trans h.st), h.en, h.test⟩

include hw hr

theorem CtlBefore.uncharge (hfree : (d.laneSt l).free = true) : CtlBefore d (d.uncharge l) l := by
  have hn : ¬(d.laneSt l).st = .retired := by
    intro h
    simp [LaneSt.free, h] at hfree
  unfold Device.uncharge
  extract_lets s e z f
  have hf : f = e := if_neg fun h => hn h.1
  rw [hf]
  exact ⟨modLane_wf (d := e) hw l _, hr, ⟨rfl, rfl⟩, rfl, (modLane_kept (d := e) hw l _).2⟩

/-- A write of LN_CTRL to a lane that is free: the controls it sets take effect, with cause 5 where they end UP. -/
theorem lnCtrlWrite_settles {t : LaneState} {src : Source} (hfree : (d.laneSt l).free = true) (htu : t ≠ .up)
    (hrest : ∀ g, CtlReady d g l w → g.restState l = some t) : ∃ f, CtlReady d f l w ∧
      lnCtrlWrite d src l w = (f.moveLane l).settlePrbs l ∧ ((d.laneSt l).st = .up → (f.laneSt l).downCause = 5) ∧
      (t ≠ .test → (d.laneSt l).st ≠ .up → (f.laneSt l).kept = (d.laneSt l).kept) := by
  have mask : ∀ f : Fld, f.lo + f.w ≤ 7 → f.get (w &&& 0x7F#32) = f.get w := fun f hf => Fld.get_mask f w 0x7F#32 7 rfl hf
  have un := CtlBefore.uncharge hw hr hfree
  unfold lnCtrlWrite
  extract_lets a old v en test wins e s er mine to_ own e1 e2 e3
  have unready : CtlReady d ((d.uncharge l).setReg a v) l w := un.setReg (mask _ (by decide)) (mask _ (by decide))
  have before : CtlBefore d e l := by
    show CtlBefore d (if wins then _ else _) l
    split
    · obtain ⟨hk, hst⟩ := modLane_kept un.wf l fun s => { s with downCause := 5 }
      exact ⟨modLane_wf un.wf l _, un.regs, un.dev, un.bad, hst.trans un.st⟩
    · exact ⟨hw, hr, ⟨rfl, rfl⟩, rfl, rfl⟩
  have same : t ≠ .test → e = d := fun ht => if_neg fun h => ht (Option.some.inj ((hrest _ unready).symm.trans h.2))
  clear_value e
  have hn : ¬s.st = .retired := by
    intro h
    have : (d.laneSt l).st = .retired := before.st.symm.trans h
    simp [LaneSt.free, this] at hfree
  rw [if_neg hn]
  have hto : to_ = t := by
    show ((e.setReg a v).restState l).getD _ = t
    rw [hrest _ (before.setReg (mask _ (by decide)) (mask _ (by decide)))]
    rfl
  have r1 : CtlReady d e1 l w := by
    show CtlReady d (e.setReg a (if own then v else _)) l w
    refine before.setReg ?_ ?_
    · split
      · exact mask _ (by decide)
      · rw [Fld.get_put_other _ _ _ _ (by decide) (by decide), mask _ (by decide)]
    · split
      · exact mask _ (by decide)
      · rw [Fld.get_put_other _ _ _ _ (by decide) (by decide), mask _ (by decide)]
  have l1 : e1.laneSt l = e.laneSt l := rfl
  clear_value e1
  have hup : s.st = .up ↔ (d.laneSt l).st = .up := by rw [show s.st = _ from before.st]
  have r2 : CtlReady d e2 l w := by
    show CtlReady d (if _ then _ else _) l w
    split
    · exact r1.modLane _ fun _ => rfl
    · exact r1
  have c2 : (d.laneSt l).st = .up → (e2.laneSt l).downCause = 5 := fun h => by
    have : e2 = e1.setCause l 5 := if_pos ⟨hup.2 h, by rw [hto]; exact htu⟩
    rw [this]
    exact congrArg (·.downCause) (modLane_kept r1.wf l _).1
  have k2 : (d.laneSt l).st ≠ .up → e2 = e1 := fun h => if_neg fun hc => h (hup.1 hc.1)
  clear_value e2
  refine ⟨e3, ?_, rfl, fun h => ?_, fun ht h => ?_⟩
  · show CtlReady d (if _ then _ else _) l w
    split
    · exact r2.modLane _ fun _ => rfl
    · exact r2
  · show ((if _ then _ else _ : Device).laneSt l).downCause = 5
    split
    · refine (congrArg (·.downCause) (modLane_kept r2.wf l _).1).trans ?_
      exact c2 h
    · exact c2 h
  · have : e3 = e2 := if_neg fun hc => h (hup.1 hc.1)
    rw [this, k2 h, l1, same ht]

end

/-- What a write that only settles a lane makes of it: the state, and what no move changes. -/
theorem settled_lane {d f : Device} {l : Nat} {w : Word} {t : LaneState} (hl : l < 1024) (hf : CtlReady d f l w)
    (hrest : f.restState l = some t) : (((f.moveLane l).settlePrbs l).laneSt l).kept = (f.laneSt l).kept ∧
      ((((f.moveLane l).settlePrbs l).laneSt l).st = t ∨ (((f.moveLane l).settlePrbs l).laneSt l).st.restarting) ∧
      (t = .test ∨ t = .disabled → (((f.moveLane l).settlePrbs l).laneSt l).st = t) := by
  obtain ⟨h1, h2, h3⟩ := moveLane_rests hf.wf hf.regs hl hrest
  obtain ⟨p1, p2⟩ := settlePrbs_lane (moveLane_wf hf.wf l) l
  rw [p1, p2]
  exact ⟨h1, h2, h3⟩

section
variable {d g : Device} {l : Nat} {w : Word} (h : CtlReady d g l w)
include h

theorem CtlReady.free (hf : (d.laneSt l).free = true) : (g.laneSt l).free = true := by
  unfold LaneSt.free at hf ⊢
  rwa [h.st]

theorem CtlReady.fenced (hn : d.isFenced (l / 32) = false) : g.isFenced (l / 32) = false := by
  rw [Device.isFenced, h.dev.1]
  exact hn

theorem CtlReady.refBad (hb : bit d.lane.refBad (l / 128) = false) : bit g.lane.refBad (l / 128) = false := by rwa [h.bad]

theorem CtlReady.open_ {src : Source} (hg : d.reachable src) : g.dev.state = .config ∨ g.running = true := by
  have := reachable_open hg
  rw [Device.running, h.dev.2]
  simpa [Device.running] using this

end

-- The dormant state (R86, R87) ----------------------------------------------------------------------------------------

theorem portLanes_of_file {d e : Device} (h : e.file = d.file) (p : Nat) : e.portLanes p = d.portLanes p := by
  unfold Device.portLanes Device.portWidth Device.fld Device.cfg Device.reg
  rw [h]

/-- A port that goes dormant takes its lanes in bring-up or use there, and no other lane. -/
theorem goDormant_spec {d : Device} (hw : lanesWf d) {p : Nat} (hs : ∀ l ∈ d.portLanes p, (d.laneSt l).sigIn ≠ d.strokeNo + 1)
    (hb : bit d.lane.refBad (p / 128) = false) (hn : d.isFenced (p / 32) = false) :
    (∀ l ∈ d.portLanes p, (d.laneSt l).inPort = true → ((d.goDormant p).laneSt l).st = .dormant) ∧
    ∀ m, m ∉ d.portLanes p → (d.goDormant p).laneSt m = d.laneSt m := by
  have hsig : ¬(d.portLanes p).any (fun l => decide ((d.laneSt l).sigIn = d.strokeNo + 1)) = true := by
    simpa using hs
  have hself : p ∈ d.portLanes p := mem_portLanes.2 ⟨Nat.le_refl _, Nat.lt_add_of_pos_right (Nat.two_pow_pos _)⟩
  unfold Device.goDormant
  rw [if_neg (by simp [hsig, hb, hn])]
  extract_lets e f
  have we : lanesWf e := by
    show lanesWf (if _ then _ else _)
    split
    · exact modLane_wf hw p _
    · exact hw
  have se : ∀ l, (e.laneSt l).st = (d.laneSt l).st := fun l => by
    show ((if _ then _ else _ : Device).laneSt l).st = _
    split
    · by_cases hl : l = p
      · subst hl
        exact (modLane_kept hw l fun s => { s with downCause := 6 }).2
      · exact congrArg (·.st) (modLane_other hw _ hl)
    · rfl
  have oe : ∀ m, m ∉ d.portLanes p → e.laneSt m = d.laneSt m := fun m hm => by
    show (if _ then _ else _ : Device).laneSt m = _
    split
    · exact modLane_other hw _ fun h => hm (h ▸ hself)
    · rfl
  have fe : e.file = d.file := by
    show (if _ then _ else _ : Device).file = _
    split <;> rfl
  have le := portLanes_of_file fe p
  clear_value e
  have loop := lane_loop_inv (I := lanesWf)
    (h := fun d l => if (d.laneSt l).free ∧ (d.laneSt l).st ≠ .test ∧ (d.laneSt l).st ≠ .disabled then d.laneTo l .dormant else d)
    (R := fun _ a b => a.free = true → a.st ≠ .test → a.st ≠ .disabled → b.st = .dormant)
    (fun d l w => by
      split
      · exact (laneTo_spec w l _).1
      · exact w) (e.portLanes p)
    (fun d l _ w h1 h2 h3 => by
      rw [if_pos ⟨h1, h2, h3⟩]
      exact (laneTo_spec w l _).2.1)
    (fun d l m w hne => by
      split
      · exact (laneTo_spec w l _).2.2.2 m hne
      · rfl) (portLanes_nodup e p) e we
  rw [show (e.portLanes p).foldl (fun d l => if (d.laneSt l).free ∧ (d.laneSt l).st ≠ .test ∧ (d.laneSt l).st ≠ .disabled
    then d.laneTo l .dormant else d) e = f from rfl] at loop
  clear_value f
  obtain ⟨-, each, other⟩ := loop
  rw [le] at each other
  refine ⟨fun l hl hin => ?_, fun m hm => ?_⟩
  · simp only [LaneSt.inPort, LaneSt.free, Bool.and_eq_true, bne_iff_ne] at hin
    rw [settlePort_laneSt]
    refine each l hl ?_ ?_ ?_
    · simp [LaneSt.free, se, hin.1.1.1.1, hin.1.1.1.2]
    · rw [se]; exact hin.1.1.2
    · rw [se]; exact hin.1.2
  · rw [settlePort_laneSt]
    exact (other m hm).trans (oe m hm)

theorem setBringup_cfg (d : Device) {p : Nat} (hp : p < 1024) (v : Word) : CfgKeep d (d.setReg (ofLane A.LANE_LN_BRINGUP p) v) :=
  .setReg d _ v (by simp only [ofLane, A.LANE_LN_BRINGUP]; omega)

section
variable {d : Device} {src : Source} {p : Nat} {w : Word} (hin : d.innerLane p = false)

/-- A mask of LN_BRINGUP lets DORMANT_REQ through. -/
theorem dormantReq_masked (w : Word) :
    F.LANE_LN_BRINGUP_DORMANT_REQ.get (w &&& 0x1FFFFFFF#32) = F.LANE_LN_BRINGUP_DORMANT_REQ.get w :=
  Fld.get_mask _ w 0x1FFFFFFF#32 29 rfl (by decide)

include hin

/-- DORMANT_REQ is set on a port of four lanes or more. -/
theorem lnBringupWrite_request (hn : (d.laneSt p).st ≠ .retired) (h4 : 4 ≤ d.portWidth p)
    (hreq : F.LANE_LN_BRINGUP_DORMANT_REQ.get w = 1)
    (hwas : F.LANE_LN_BRINGUP_DORMANT_REQ.get (d.reg (ofLane A.LANE_LN_BRINGUP p)) = 0) (hp : p < 1024)
    (hr : tabWf regReset d.file.regs = true) (he : d.portEn p = true) : lnBringupWrite d src p w =
      (d.setReg (ofLane A.LANE_LN_BRINGUP p) (w &&& 0x1FFFFFFF#32)).goDormant p := by
  have hnarrow : ¬d.portWidth p < 4 := by omega
  have hen : ∀ v, (d.setReg (ofLane A.LANE_LN_BRINGUP p) v).portEn p = true := fun v =>
    ((setBringup_cfg d hp v).portEn hr p).trans he
  unfold lnBringupWrite
  rw [if_neg (by simp [hin]), if_neg hn]
  simp [hnarrow, hen, dormantReq_masked, hreq, hwas]

/-- DORMANT_REQ is cleared on a dormant port. -/
theorem lnBringupWrite_release (hn : (d.laneSt p).st = .dormant) (h4 : 4 ≤ d.portWidth p)
    (hreq : F.LANE_LN_BRINGUP_DORMANT_REQ.get w = 0)
    (hwas : F.LANE_LN_BRINGUP_DORMANT_REQ.get (d.reg (ofLane A.LANE_LN_BRINGUP p)) = 1) (hp : p < 1024)
    (hr : tabWf regReset d.file.regs = true) (he : d.portEn p = true) : lnBringupWrite d src p w =
      (d.setReg (ofLane A.LANE_LN_BRINGUP p) (w &&& 0x1FFFFFFF#32)).wakePort p := by
  have hnarrow : ¬d.portWidth p < 4 := by omega
  have hself : p ∈ d.portLanes p := mem_portLanes.2 ⟨Nat.le_refl _, Nat.lt_add_of_pos_right (Nat.two_pow_pos _)⟩
  have hen : ∀ v, (d.setReg (ofLane A.LANE_LN_BRINGUP p) v).portEn p = true := fun v =>
    ((setBringup_cfg d hp v).portEn hr p).trans he
  have hdorm : ∀ v, (d.setReg (ofLane A.LANE_LN_BRINGUP p) v).isDormant p = true := fun v => by
    unfold Device.isDormant
    rw [(setBringup_cfg d hp v).portLanes hr]
    exact List.any_eq_true.2 ⟨p, hself, beq_iff_eq.2 hn⟩
  unfold lnBringupWrite
  rw [if_neg (by simp [hin]), if_neg (by simp [hn])]
  simp [hnarrow, hen, hdorm, dormantReq_masked, hreq, hwas]

/-- On a narrower port no lane moves. -/
theorem lnBringupWrite_narrow (h4 : d.portWidth p < 4) : (lnBringupWrite d src p w).lane = d.lane := by
  unfold lnBringupWrite
  extract_lets a old v req was narrow e f
  rw [if_neg (by simp [hin])]
  split
  · exact Device.refuse_lane _ _ _
  · rw [if_pos (.inr h4)]
    show e.lane = d.lane
    show (if _ then _ else _ : Device).lane = d.lane
    split
    · exact Device.refuse_lane _ _ _
    · rfl

end

/-- Settles O26. -/
theorem laneControl : Obligations.LaneControl := by
  unfold Obligations.LaneControl
  refine ⟨?disable, ?enter, ?exit, ?request, ?narrow, ?release, ?p7, ?wake⟩
  case disable =>
    intro s src l w hg hl hw hr hfree hn hb ht
    refine completes_run (f := fun d => busWrite d src (ofLane A.LANE_LN_CTRL l) 0xF (F.LANE_LN_CTRL_EN.put w 0)) rfl
      (by simp [Instr.wf, hl]) ?_
    rw [write_LANE_LN_CTRL hg hl]
    have rest : ∀ g, CtlReady s.dev g l (F.LANE_LN_CTRL_EN.put w 0) → g.restState l = some .disabled := fun g hg =>
      restState_disabled (hg.free hfree) (hg.fenced hn) (hg.refBad hb)
        (hg.test.trans ((Fld.get_put_other _ _ _ _ (by decide) (by decide)).trans ht))
        (hg.en.trans (Fld.get_put _ _ _ (by decide)))
    obtain ⟨f, hf, e, hup, -⟩ := lnCtrlWrite_settles (src := src) hw hr hfree (by decide) rest
    obtain ⟨h1, -, h3⟩ := settled_lane hl hf (rest f hf)
    rw [e]
    exact ⟨h3 (.inr rfl), fun h => (congrArg (·.downCause) h1).trans (hup h)⟩
  case enter =>
    intro s src l w hg hl hw hr hfree hn hb
    refine completes_run (f := fun d => busWrite d src (ofLane A.LANE_LN_CTRL l) 0xF (F.LANE_LN_CTRL_TEST.put w 1)) rfl
      (by simp [Instr.wf, hl]) ?_
    rw [write_LANE_LN_CTRL hg hl]
    have rest : ∀ g, CtlReady s.dev g l (F.LANE_LN_CTRL_TEST.put w 1) → g.restState l = some .test := fun g hg' =>
      restState_test (hg'.free hfree) (hg'.fenced hn) (hg'.refBad hb) (hg'.test.trans (Fld.get_put _ _ _ (by decide))) (hg'.open_ hg)
    obtain ⟨f, hf, e, hup, -⟩ := lnCtrlWrite_settles (src := src) hw hr hfree (by decide) rest
    obtain ⟨h1, -, h3⟩ := settled_lane hl hf (rest f hf)
    rw [e]
    exact ⟨h3 (.inl rfl), fun h => (congrArg (·.downCause) h1).trans (hup h)⟩
  case exit =>
    intro s src l w hg hl hw hr hs hn
    refine completes_run (f := fun d => busWrite d src (ofLane A.LANE_LN_CTRL l) 0xF (F.LANE_LN_CTRL_TEST.put w 0)) rfl
      (by simp [Instr.wf, hl]) ?_
    rw [write_LANE_LN_CTRL hg hl]
    have hfree : (s.dev.laneSt l).free = true := by unfold LaneSt.free; rw [hs]; rfl
    generalize ht : (if bit s.dev.lane.refBad (l / 128) = false ∧ F.LANE_LN_CTRL_EN.get w = 0 then LaneState.disabled
      else .waitSignal) = t
    have hto : t = .disabled ∨ t = .waitSignal := by
      subst ht
      split
      · exact .inl rfl
      · exact .inr rfl
    have rest : ∀ g, CtlReady s.dev g l (F.LANE_LN_CTRL_TEST.put w 0) → g.restState l = some t := fun g hg' => by
      have hen : F.LANE_LN_CTRL_EN.get (g.reg (ofLane A.LANE_LN_CTRL l)) = F.LANE_LN_CTRL_EN.get w :=
        hg'.en.trans (Fld.get_put_other _ _ _ _ (by decide) (by decide))
      rw [restState_exit (hg'.st.trans hs) (hg'.fenced hn) (hg'.test.trans (Fld.get_put _ _ _ (by decide))), hen, hg'.bad, ht]
    obtain ⟨f, hf, e, -, hkept⟩ := lnCtrlWrite_settles (src := src) hw hr hfree (by rcases hto with h | h <;> simp [h]) rest
    obtain ⟨h1, h2, h3⟩ := settled_lane hl hf (rest f hf)
    rw [e]
    refine ⟨?_, fun he hb => ?_, h1.trans (hkept (by rcases hto with h | h <;> simp [h]) (by simp [hs]))⟩
    · rcases h2 with h2 | h2
      · rw [h2]
        rcases hto with h | h <;> simp [h]
      · exact h2.ne.2.2.1
    · rw [if_pos ⟨hb, he⟩] at ht
      rw [h3 (.inr ht.symm), ht]
  case request =>
    intro s src p w hg hp hw hin hn h4 he hr hwas hsig hb hf
    refine completes_run (f := fun d => busWrite d src (ofLane A.LANE_LN_BRINGUP p) 0xF (F.LANE_LN_BRINGUP_DORMANT_REQ.put w 1)) rfl
      (by simp [Instr.wf, hp]) ?_
    rw [write_LANE_LN_BRINGUP hg hin hp, lnBringupWrite_request hin hn h4 (Fld.get_put _ _ _ (by decide)) hwas hp hr he]
    have hl := (setBringup_cfg s.dev hp (F.LANE_LN_BRINGUP_DORMANT_REQ.put w 1 &&& 0x1FFFFFFF#32)).portLanes hr p
    have := goDormant_spec (d := s.dev.setReg (ofLane A.LANE_LN_BRINGUP p) (F.LANE_LN_BRINGUP_DORMANT_REQ.put w 1 &&& 0x1FFFFFFF#32))
      hw (p := p) (by rw [hl]; exact hsig) hb hf
    rw [hl] at this
    exact this
  case narrow =>
    intro s src p w hg hp hin h4
    refine completes_run (f := fun d => busWrite d src (ofLane A.LANE_LN_BRINGUP p) 0xF (F.LANE_LN_BRINGUP_DORMANT_REQ.put w 1)) rfl
      (by simp [Instr.wf, hp]) ?_
    rw [write_LANE_LN_BRINGUP hg hin hp]
    exact lnBringupWrite_narrow hin h4
  case release =>
    intro s src p w hg hp hw hin h4 he hr hd hwas
    refine completes_run (f := fun d => busWrite d src (ofLane A.LANE_LN_BRINGUP p) 0xF (F.LANE_LN_BRINGUP_DORMANT_REQ.put w 0)) rfl
      (by simp [Instr.wf, hp]) ?_
    rw [write_LANE_LN_BRINGUP hg hin hp, lnBringupWrite_release hin hd h4 (Fld.get_put _ _ _ (by decide)) hwas hp hr he]
    generalize hx : s.dev.setReg (ofLane A.LANE_LN_BRINGUP p) (F.LANE_LN_BRINGUP_DORMANT_REQ.put w 0 &&& 0x1FFFFFFF#32) = x
    have wx : x.lane = s.dev.lane := hx ▸ Device.setReg_lane _ _ _
    have hlx := laneSt_of_lanes (congrArg (·.lanes) wx)
    have wf := lanesWf_of_lanes (congrArg (·.lanes) wx) hw
    refine ⟨(wakePort_leaves_dormant wf (mem_portLanes.2 ⟨Nat.le_refl _, Nat.lt_add_of_pos_right (Nat.two_pow_pos _)⟩)
      (by rw [hlx, hd])).ne.1, ?_⟩
    rw [← hlx]
    exact ((LaneMove.wakePort (T := fun _ => True) x p fun _ _ => trivial).each wf p).1
  case p7 =>
    intro s p hck hp hw ha hq he h4 hu hd hwk hm hsig hb hf
    refine completes_clock (f := fun d => p7DormantEntry d p) rfl (by simp [Instr.wf, hp]) hck ?_
    rw [p7DormantEntry, if_pos (by simp [ha, hq, he, h4, hu, hd, hwk, hm])]
    exact goDormant_spec hw hsig hb hf
  case wake =>
    intro s p t hck hp hw ha hq he hu hwk hm hsig hb hf
    refine completes_clock (f := fun d => p7WakeTimeout d p) rfl (by simp [Instr.wf, hp]) hck ?_
    rw [p7WakeTimeout, hwk]
    dsimp only
    rw [if_pos (by simp [ha, hq, he, hu, hm])]
    exact goDormant_spec hw hsig hb hf

end Sys2Proof.Machine

/-! The test tools of a lane: PRBS checking, error injection and bit slip (R84, R85). -/

namespace Sys2Proof.Machine

-- PRBS (R85) ----------------------------------------------------------------------------------------------------------

theorem prbsLockLost_many {d : Device} {l n : Nat} (hw : lanesWf d) (hr : tabWf regReset d.file.regs = true)
    (hc : tabWf zeroNat d.file.cnt = true) (hk : (d.laneSt l).prbsLock = true) (hn : 64 < n) :
    ((prbsLockLost d l n).laneSt l).prbsLock = false ∧ (prbsLockLost d l n).irqSet (laneBase l) 3 = true ∧
      (prbsLockLost d l n).cnt (ofLane A.LANE_LN_PRBS_ERR_LO l) = (d.cnt (ofLane A.LANE_LN_PRBS_ERR_LO l) + n) % 2 ^ 64 := by
  have e : prbsLockLost d l n = ((d.countN (ofLane A.LANE_LN_PRBS_ERR_LO l) n).modLane l fun s =>
      { s with prbsLock := false }).raise (laneBase l) 3 := by
    rw [prbsLockLost, if_pos hk]
    exact if_neg (Nat.not_le.2 hn)
  rw [e]
  refine ⟨?_, irqSet_raise (d := (d.countN _ n).modLane l _) hr _ 3 (by decide), ?_⟩
  · rw [laneSt_of_lanes (congrArg (·.lanes) (Device.raise_lane _ _ _))]
    obtain ⟨z, o, i, h⟩ := modLane_at (d := d.countN (ofLane A.LANE_LN_PRBS_ERR_LO l) n) hw l fun s => { s with prbsLock := false }
    rw [h]
  · rw [Device.cnt, Device.raise_cnt]
    exact tabGet_tabSet_same _ _ hc

theorem settlePrbs_file (d : Device) (l : Nat) : (d.settlePrbs l).file = d.file := by
  unfold Device.settlePrbs
  split <;> rfl

theorem refuse_cnt (d : Device) (src : Source) (a : Nat) : (d.refuse src a).file.cnt = d.file.cnt := err_cnt d _ _ _ _

/-- CLEAR zeroes the error count, whatever else the write asks for. -/
theorem lnPrbsWrite_clear {d : Device} {src : Source} {l : Nat} {w : Word} (hc : tabWf zeroNat d.file.cnt = true)
    (hw : F.LANE_LN_PRBS_CLEAR.get w = 1) : (lnPrbsWrite d src l w).cnt (ofLane A.LANE_LN_PRBS_ERR_LO l) = 0 := by
  have refused : ∀ (p : Prop) [Decidable p] (d : Device) (a : Nat), (if p then d.refuse src a else d).file.cnt = d.file.cnt :=
    fun p _ d a => by
      split
      · exact refuse_cnt d src a
      · rfl
  unfold lnPrbsWrite
  extract_lets a rate inTest z e asks f bad g v
  have he : e.file.cnt = tnatSet d.file.cnt (ofLane A.LANE_LN_PRBS_ERR_LO l) 0 := by
    show (if _ then _ else _ : Device).file.cnt = _
    rw [if_pos hw]
  have hg : g.file.cnt = e.file.cnt := (refused _ f a).trans (refused _ e a)
  rw [Device.cnt, settlePrbs_file, show (g.setReg a v).file.cnt = g.file.cnt from rfl, hg, he]
  exact tabGet_tabSet_same _ _ hc

-- Error injection (R85) -----------------------------------------------------------------------------------------------

/-- The fields of an injection read through the mask of LN_INJ, and past GO. -/
theorem injField_masked (w : Word) (f : Fld) (h1 : ∀ i < f.w, (0xFFFFBFF#32).toNat.testBit (f.lo + i) = true)
    (h2 : f.lo + f.w ≤ F.LANE_LN_INJ_GO.lo ∨ F.LANE_LN_INJ_GO.lo + F.LANE_LN_INJ_GO.w ≤ f.lo) :
    f.get (F.LANE_LN_INJ_GO.put w 1 &&& 0xFFFFBFF#32) = f.get w ∧ f.get (F.LANE_LN_INJ_GO.put w 1) = f.get w :=
  have h := Fld.get_put_other F.LANE_LN_INJ_GO f w 1 (by decide) h2
  ⟨(Fld.get_masked f _ _ h1).trans h, h⟩

section
variable {d : Device} {src : Source} {l : Nat} {w : Word} (hk : F.LANE_LN_INJ_KIND.get w ≠ 0)
  (hp : (d.laneSt l).injPending = false)
include hk hp

/-- A one-shot waits for the boundary. -/
theorem lnInjWrite_once (h : F.LANE_LN_INJ_PERIODIC.get w = 0) : lnInjWrite d src l (F.LANE_LN_INJ_GO.put w 1) =
    (((d.setReg (ofLane A.LANE_LN_INJ l) (F.LANE_LN_INJ_GO.put w 1 &&& 0xFFFFBFF#32)).modLane l fun s =>
      { s with injNext := none }).modLane l fun s => { s with injPending := true }) := by
  have kind := (injField_masked w F.LANE_LN_INJ_KIND (by decide) (by decide)).2
  have per := (injField_masked w F.LANE_LN_INJ_PERIODIC (by decide) (by decide)).2
  have go : F.LANE_LN_INJ_GO.get (F.LANE_LN_INJ_GO.put w 1) = 1 := Fld.get_put _ w 1 (by decide)
  simp [lnInjWrite, kind, per, go, hk, hp, h]

/-- Periodic injection starts with its first injection. -/
theorem lnInjWrite_periodic (h : F.LANE_LN_INJ_PERIODIC.get w = 1) : lnInjWrite d src l (F.LANE_LN_INJ_GO.put w 1) =
    ((d.setReg (ofLane A.LANE_LN_INJ l) (F.LANE_LN_INJ_GO.put w 1 &&& 0xFFFFBFF#32)).inject l).modLane l fun s => { s with
      injNext := some (d.now + (d.setReg (ofLane A.LANE_LN_INJ l) (F.LANE_LN_INJ_GO.put w 1 &&& 0xFFFFBFF#32)).injPeriod l) } := by
  have kind := (injField_masked w F.LANE_LN_INJ_KIND (by decide) (by decide)).2
  have per := (injField_masked w F.LANE_LN_INJ_PERIODIC (by decide) (by decide)).2
  have go : F.LANE_LN_INJ_GO.get (F.LANE_LN_INJ_GO.put w 1) = 1 := Fld.get_put _ w 1 (by decide)
  have e : lnInjWrite d src l (F.LANE_LN_INJ_GO.put w 1) =
      ((d.setReg (ofLane A.LANE_LN_INJ l) (F.LANE_LN_INJ_GO.put w 1 &&& 0xFFFFBFF#32)).inject l).modLane l fun s => { s with
        injNext := some ((d.setReg (ofLane A.LANE_LN_INJ l) (F.LANE_LN_INJ_GO.put w 1 &&& 0xFFFFBFF#32)).now +
          (d.setReg (ofLane A.LANE_LN_INJ l) (F.LANE_LN_INJ_GO.put w 1 &&& 0xFFFFBFF#32)).injPeriod l) } := by
    simp [lnInjWrite, kind, per, go, hk, hp, h]
  exact e

end

/-- Settles O27. -/
theorem laneTestTools : Obligations.LaneTestTools := by
  unfold Obligations.LaneTestTools
  refine ⟨?lock, ?lost, ?few, ?clear, ?inject, ?periodic, ?slip, ?noSlip⟩
  case lock =>
    intro s l hck hl hw hc
    refine completes_clock (f := fun d => prbsLock d l) rfl (by simp [Instr.wf, hl]) hck ?_
    rw [prbsLock, if_pos hc]
    obtain ⟨z, o, i, h⟩ := modLane_at hw l fun s => { s with prbsLock := true }
    exact ⟨by rw [h], fun m hm => modLane_other hw _ hm⟩
  case lost =>
    exact fun s l n hck hl hw hr hc hk hn => completes_clock (f := fun d => prbsLockLost d l n) rfl (by simp [Instr.wf, hl]) hck
      (prbsLockLost_many hw hr hc hk hn)
  case few =>
    exact fun s l n hck hl hk hn => makes_clock (f := fun d => prbsLockLost d l n) rfl (by simp [Instr.wf, hl]) hck
      (by rw [prbsLockLost, if_pos hk]; exact if_pos hn)
  case clear =>
    intro s src l w hg hl hc
    refine completes_run (f := fun d => busWrite d src (ofLane A.LANE_LN_PRBS l) 0xF (F.LANE_LN_PRBS_CLEAR.put w 1)) rfl
      (by simp [Instr.wf, hl]) ?_
    rw [write_LANE_LN_PRBS hg hl]
    exact lnPrbsWrite_clear hc (Fld.get_put _ _ _ (by decide))
  case inject =>
    intro s src l w hg hl hw hk hp
    refine ⟨fun h => ?_, fun h hr => ?_⟩ <;>
    refine completes_run (f := fun d => busWrite d src (ofLane A.LANE_LN_INJ l) 0xF (F.LANE_LN_INJ_GO.put w 1)) rfl
      (by simp [Instr.wf, hl]) ?_ <;>
    rw [write_LANE_LN_INJ hg hl]
    · rw [lnInjWrite_once hk hp h]
      generalize hx : s.dev.setReg (ofLane A.LANE_LN_INJ l) (F.LANE_LN_INJ_GO.put w 1 &&& 0xFFFFBFF#32) = x
      have wx : lanesWf x := hx ▸ hw
      have sx : x.sent = s.dev.sent := hx ▸ Device.setReg_sent _ _ _
      obtain ⟨z, o, i, h1⟩ := modLane_at wx l fun s => { s with injNext := none }
      obtain ⟨z2, o2, i2, h2⟩ := modLane_at (modLane_wf wx l fun s => { s with injNext := none }) l fun s => { s with injPending := true }
      rw [h2, h1]
      exact ⟨rfl, rfl, sx⟩
    · have kept := fun f h1 h2 => (injField_masked w f h1 h2).1
      rw [lnInjWrite_periodic hk hp h]
      generalize hv : F.LANE_LN_INJ_GO.put w 1 &&& 0xFFFFBFF#32 = v at kept
      have len : injLen v = injLen w := by
        rw [injLen, injLen, kept F.LANE_LN_INJ_KIND (by decide) (by decide), kept F.LANE_LN_INJ_LEN (by decide) (by decide)]
      have reg : (s.dev.setReg (ofLane A.LANE_LN_INJ l) v).reg (ofLane A.LANE_LN_INJ l) = v := Device.reg_setReg_same hr _ _
      have per : (s.dev.setReg (ofLane A.LANE_LN_INJ l) v).injPeriod l = usT (max 1 (F.LANE_LN_INJ_PERIOD.get w)) := by
        rw [Device.injPeriod, reg, kept F.LANE_LN_INJ_PERIOD (by decide) (by decide)]
      have sent : ((s.dev.setReg (ofLane A.LANE_LN_INJ l) v).inject l).sent =
          s.dev.sent ++ [.inject l (F.LANE_LN_INJ_KIND.get w) (injLen w)] := by
        rw [Device.inject, reg, kept F.LANE_LN_INJ_KIND (by decide) (by decide), len]
        rfl
      generalize hx : (s.dev.setReg (ofLane A.LANE_LN_INJ l) v).inject l = x at sent
      have wx : lanesWf x := hx ▸ hw
      rw [per]
      obtain ⟨z, o, i, h1⟩ := modLane_at wx l fun q => { q with injNext := some (s.dev.now + usT (max 1 (F.LANE_LN_INJ_PERIOD.get w))) }
      exact ⟨sent, by rw [h1]⟩
  case periodic =>
    intro s l c t hck hl hc hw ht hm
    refine completes_clock (f := fun d => errorInjectPeriodic d l c) rfl (by simp [Instr.wf, hl, hc]) hck ?_
    have e : errorInjectPeriodic s.dev l c = ((s.dev.atCyc c).inject l).modLane l fun q =>
        { q with injNext := some (t + s.dev.injPeriod l) } := by
      unfold errorInjectPeriodic
      extract_lets e
      rw [show (e.laneSt l).injNext = some t from ht]
      exact if_pos hm
    rw [e]
    obtain ⟨z, o, i, h1⟩ := modLane_at (d := (s.dev.atCyc c).inject l) hw l fun q => { q with injNext := some (t + s.dev.injPeriod l) }
    exact ⟨rfl, by rw [h1]⟩
  case slip =>
    intro s src l hg hl hw ht
    refine completes_run (f := fun d => busWrite d src (ofLane A.LANE_LN_BITSLIP l) 0xF (F.LANE_LN_BITSLIP_SLIP.put 0 1)) rfl
      (by simp [Instr.wf, hl]) ?_
    rw [write_LANE_LN_BITSLIP hg hl, lnBitslipWrite, if_neg (by decide), if_neg (by simp [ht])]
    obtain ⟨z, o, i, h1⟩ := modLane_at hw l fun s => { s with slips := s.slips + 1, prbsLock := false }
    rw [h1]
    exact ⟨rfl, rfl, rfl⟩
  case noSlip =>
    intro s src l hg hl ht
    refine makes_run (f := fun d => busWrite d src (ofLane A.LANE_LN_BITSLIP l) 0xF (F.LANE_LN_BITSLIP_SLIP.put 0 1)) rfl
      (by simp [Instr.wf, hl]) ?_
    rw [write_LANE_LN_BITSLIP hg hl, lnBitslipWrite, if_neg (by decide), if_pos ht]

end Sys2Proof.Machine

/-! What the end of a copy, of a packet and of a received frame leaves of the ports, and a port's going down (R98, R105, R108). -/

namespace Sys2Proof.Machine

/-- Every port is up or down as before, with the fault it received and the stops it holds. -/
structure PortsStay (d e : Device) : Prop where
  wf : portsWf d → portsWf e
  up : portsWf d → ∀ q, (e.port q).up = (d.port q).up
  fault : portsWf d → ∀ q, (e.port q).rxFault = (d.port q).rxFault
  stops : portsWf d → ∀ q, (e.port q).stops = (d.port q).stops

namespace PortsStay

theorem ofPorts {d e : Device} (h : e.ports = d.ports) : PortsStay d e := by
  refine ⟨fun w => ?_, fun _ q => ?_, fun _ q => ?_, fun _ q => ?_⟩
  · unfold portsWf
    rw [h]
    exact w
  all_goals rw [port_of_ports h]

theorem keeps {d e : Device} (h : KeepPorts d e) : PortsStay d e := ofPorts h.ports

theorem refl (d : Device) : PortsStay d d := ofPorts rfl

theorem trans {a b c : Device} (h : PortsStay a b) (k : PortsStay b c) : PortsStay a c :=
  ⟨fun w => k.wf (h.wf w), fun w q => (k.up (h.wf w) q).trans (h.up w q), fun w q => (k.fault (h.wf w) q).trans (h.fault w q),
    fun w q => (k.stops (h.wf w) q).trans (h.stops w q)⟩

theorem modPort (d : Device) (p : Nat) (f : PortSt → PortSt) (hf : ∀ s, (f s).up = s.up ∧ (f s).rxFault = s.rxFault ∧ (f s).stops = s.stops) :
    PortsStay d (d.modPort p f) := by
  refine ⟨fun w => modPort_wf w p f, fun w q => ?_, fun w q => ?_, fun w q => ?_⟩ <;>
  · by_cases h : q = p
    · subst h
      rw [modPort_at w]
      simp [hf]
    · rw [modPort_other w p f h]

theorem foldl {α : Type} {f : Device → α → Device} (h : ∀ d x, PortsStay d (f d x)) (l : List α) (d : Device) : PortsStay d (l.foldl f d) :=
  foldl_rel refl (fun _ _ _ => trans) h l d

theorem ite {c : Prop} [Decidable c] {d a b : Device} (ha : PortsStay d a) (hb : PortsStay d b) : PortsStay d (if c then a else b) := by
  split
  · exact ha
  · exact hb

/-- A step after one that leaves the ports. -/
theorem then_ {d e x : Device} (h : PortsStay e x) (k : e.ports = d.ports) : PortsStay d x := (ofPorts k).trans h

end PortsStay

section
variable (d : Device)

theorem portCount_stay (p x n : Nat) : PortsStay d (d.portCount p x n) := .ofPorts (portCount_same d p x n).2.1

theorem leaveLpiTx_stay (p : Nat) : PortsStay d (d.leaveLpiTx p) := by
  unfold Device.leaveLpiTx
  split
  · exact .refl d
  · next t _ =>
    extract_lets e
    have he : PortsStay d e := (portCount_stay d p 17 _).trans (.modPort _ p _ fun _ => ⟨rfl, rfl, rfl⟩)
    exact he.trans (.ofPorts (lanes_loop_same _ _ _).2)

theorem sendFc_stay (p en stop : Nat) : PortsStay d (d.sendFc p en stop) := by
  unfold Device.sendFc
  extract_lets e quanta f q g
  have he : PortsStay d e := .modPort d p _ fun _ => ⟨rfl, rfl, rfl⟩
  have sent : ∀ (g : PortSt → PortSt) (x : Nat) (b : Bytes), (∀ s, (g s).up = s.up ∧ (g s).rxFault = s.rxFault ∧ (g s).stops = s.stops) →
      PortsStay e ((((e.leaveLpiTx p).modPort p g).portCount p x 1).send (.frame p b)) := fun g x b hg =>
    (leaveLpiTx_stay e p).trans ((PortsStay.modPort _ p g hg).trans ((portCount_stay _ p x 1).trans (.ofPorts rfl)))
  split
  · exact he
  · split
    · exact he.trans (sent _ 12 _ fun _ => ⟨rfl, rfl, rfl⟩)
    · split
      · exact he.trans (sent _ 11 _ fun _ => ⟨rfl, rfl, rfl⟩)
      · exact he

theorem askFc_stay (p en : Nat) : PortsStay d (d.askFc p en) :=
  .ite (.modPort d p _ fun _ => ⟨rfl, rfl, rfl⟩) (sendFc_stay d p _ _)

theorem stopSending_stay (uid : Nat) : PortsStay d (d.stopSending uid) := by
  unfold Device.stopSending
  extract_lets ports pk e
  exact .then_ (.foldl (fun d p => askFc_stay d p 0) ports e) rfl

theorem Device.returnCells_ports (c : Copy) (n : Nat) : (d.returnCells c n).ports = d.ports := rfl

theorem freeRead_ports (id : Nat) : (d.freeRead id).ports = d.ports := by
  unfold Device.freeRead
  split
  · rfl
  · extract_lets
    split
    · rfl
    · exact foldl_frame (·.ports) (fun _ _ => by exact Device.returnCells_ports _ _ _) _ _

theorem endCopy_stay (uid : Nat) : PortsStay d (d.endCopy uid) := by
  unfold Device.endCopy
  split
  · exact .refl d
  · extract_lets a h b pk e f g
    have ha : a.ports = d.ports := by
      show (if _ then _ else _ : Device).ports = _
      split <;> rfl
    have he : e.ports = a.ports := by
      show (if _ then _ else _ : Device).ports = _
      split <;> rfl
    have hf : f.ports = d.ports := he.trans ha
    have hg : PortsStay f g := by
      show PortsStay f (if _ then _ else _)
      split
      · exact .modPort f _ _ fun _ => ⟨rfl, rfl, rfl⟩
      · exact .refl f
    refine .trans (.then_ hg hf) (.ofPorts ?_)
    rw [freeRead_ports]
    exact (Device.releaseFrame_keepPorts _ (KeepPorts.refl g)).ports

theorem flowCopy_ports (c : Copy) (x y : Option Nat) : (d.flowCopy c x y).ports = d.ports := by
  unfold Device.flowCopy
  split
  · rfl
  · exact (Device.flowFinish_keepPorts _ _ _ (Device.modFrame_keepPorts _ _ (KeepPorts.refl d))).ports

theorem dropCopy_stay (uid code gal : Nat) (eg : Bool) (act : Option (Nat × Nat)) : PortsStay d (d.dropCopy uid code gal eg act) := by
  unfold Device.dropCopy
  split
  · exact .refl d
  · split
    · exact .refl d
    · split
      · exact endCopy_stay d uid
      · extract_lets begun e info f g
        have he : KeepPorts d e := by
          show KeepPorts d (if _ then _ else _)
          split
          · exact Device.stompOut_keepPorts _ (.refl d)
          · exact Device.giveBack_keepPorts _ _ (.refl d)
        have hf : KeepPorts d f := Device.loseOne_keepPorts _ _ he
        have hg : g.ports = f.ports := by
          show (if _ then _ else _ : Device).ports = _
          split
          · rfl
          · exact flowCopy_ports f _ _ _
        exact .then_ ((stopSending_stay g uid).trans (endCopy_stay _ uid)) (hg.trans hf.ports)

theorem dropCopies_stay (id code gal : Nat) (w : Copy → Bool) : PortsStay d (d.dropCopies id code gal w) :=
  .foldl (f := fun d (c : Copy) => d.dropCopy c.uid code gal false none) (fun d c => dropCopy_stay d c.uid code gal false none) _ d

theorem flushPort_stay (p : Nat) : PortsStay d (d.flushPort p) :=
  .foldl (f := fun d (c : Copy) => ((d.portCount p 22 1).queueCount c.queue 7 1).dropCopy c.uid 0x61 (p / 32) false none) (fun d c => by
    refine .then_ (dropCopy_stay _ _ _ _ _ _) ?_
    exact (Device.queueCount_keepPorts _ _ _ (Device.portCount_keepPorts _ _ _ (KeepPorts.refl d))).ports) _ d

theorem loseMirrors_keepPorts (f : Frame) (info : DropInfo) (ms : List Nat) : KeepPorts d (d.loseMirrors f info ms) :=
  KeepPorts.foldl ms (fun e m h => by
    split
    · exact h
    · exact Device.loseOne_keepPorts _ _ h) (.refl d)

theorem failFlight_keepPorts (id code : Nat) : KeepPorts d (d.failFlight id code) := by
  unfold Device.failFlight
  split
  · extract_lets e
    exact Device.dropFlight_keepPorts _ _ _ (KeepPorts.trans (loseMirrors_keepPorts d _ _ _) ⟨rfl⟩)
  · exact .refl d

theorem countEnq_keepPorts (id : Nat) : KeepPorts d (d.countEnq id) := by
  unfold Device.countEnq
  split
  · exact .refl d
  · exact KeepPorts.foldl _ (fun e x h => Device.queueCount_keepPorts _ _ _ h) (Device.modFrame_keepPorts _ _ (.refl d))

theorem failFrame_stay (id code : Nat) : PortsStay d (d.failFrame id code) := by
  unfold Device.failFrame
  split
  · exact .refl d
  · extract_lets a b c e f pk g
    have ha : KeepPorts d a := ⟨rfl⟩
    have hb : KeepPorts d b := Device.settleEnd_keepPorts _ (ha.trans (countEnq_keepPorts a id))
    have hc : KeepPorts d c := by
      show KeepPorts d (if _ then _ else _)
      split
      · exact Device.loseOne_keepPorts _ _ hb
      · exact hb
    have he : KeepPorts d e := KeepPorts.foldl _ (fun _ t h => Device.dropTrap_keepPorts t code h) hc
    have hf : PortsStay d f := .trans (.keeps he) (.trans (dropCopies_stay e id code _ _) (.keeps (failFlight_keepPorts _ id code)))
    have hk : KeepPorts f pk := KeepPorts.foldl _ (fun x c h => h.trans (loseMirrors_keepPorts x _ _ _)) (.refl f)
    exact hf.trans (.keeps (Device.releaseFrame_keepPorts _ (.trans hk ⟨rfl⟩)))

theorem showPort_stay (p : Nat) : PortsStay d (d.showPort p) := by
  unfold Device.showPort
  extract_lets s
  split
  · exact .refl d
  · have h := PortsStay.modPort d p (fun s => { s with shown := s.up }) fun _ => ⟨rfl, rfl, rfl⟩
    exact h.trans (.keeps (Device.autoMembers_keepPorts _ _ (.refl _)))

theorem settleFault_stay (p : Nat) : PortsStay d (d.settleFault p) := by
  unfold Device.settleFault
  extract_lets on
  have h := PortsStay.modPort d p (fun s => { s with txRemote := on }) fun _ => ⟨rfl, rfl, rfl⟩
  exact .ite (.refl d) (h.trans (.ofPorts rfl))

theorem settlePort_stay (p : Nat) : PortsStay d (d.settlePort p) := by
  unfold Device.settlePort
  extract_lets e
  exact (settleFault_stay d p).trans (.ite (.modPort e p _ fun _ => ⟨rfl, rfl, rfl⟩) (.refl e))

end

-- A port goes down (R108) ---------------------------------------------------------------------------------------------

/-- A port that is up goes down with every stop cleared; every other port stays. -/
theorem Device.portDown_spec {d : Device} (hw : portsWf d) (p : Nat) : ((d.portDown p).port p).up = false ∧
    ((d.portDown p).port p).rxFault = (d.port p).rxFault ∧ ((d.port p).up = true → ((d.portDown p).port p).stops = []) ∧
    ∀ q, q ≠ p → ((d.portDown p).port q).up = (d.port q).up ∧ ((d.portDown p).port q).rxFault = (d.port q).rxFault ∧
      ((d.portDown p).port q).stops = (d.port q).stops := by
  unfold Device.portDown
  by_cases hup : (d.port p).up = true
  · rw [if_neg (by simp [hup])]
    extract_lets a b c
    have wa : portsWf a := modPort_wf hw p _
    have pa : a.port p = (d.port p).lose := modPort_at hw p _
    have hb : PortsStay a b := (portCount_stay a p 19 1).trans (flushPort_stay _ p)
    have hc : PortsStay b c := by
      show PortsStay b (match b.receivingOn p with | some f => _ | none => b)
      split
      · exact (portCount_stay b p 2 1).trans (failFrame_stay _ _ _)
      · exact .refl b
    have hs : PortsStay a ((c.showPort p).modBring p fun x => { x with downSince := c.now }) :=
      (hb.trans hc).trans ((showPort_stay c p).trans (.ofPorts rfl))
    refine ⟨?_, ?_, fun _ => ?_, fun q hq => ?_⟩
    · rw [hs.up wa, pa]; rfl
    · rw [hs.fault wa, pa]; rfl
    · rw [hs.stops wa, pa]; rfl
    · rw [hs.up wa, hs.fault wa, hs.stops wa, show a.port q = d.port q from modPort_other hw p _ hq]
      exact ⟨rfl, rfl, rfl⟩
  · rw [if_pos (by simpa using hup)]
    exact ⟨by simpa using hup, rfl, fun h => absurd h hup, fun _ _ => ⟨rfl, rfl, rfl⟩⟩

end Sys2Proof.Machine

/-! Ports enabled, disabled, up and down, and stopped by flow control (R81, R96, R104 to R106, R108). -/

namespace Sys2Proof.Machine

-- What settling a port leaves -----------------------------------------------------------------------------------------

theorem settleFault_file (d : Device) (p : Nat) : (d.settleFault p).file = d.file := by
  unfold Device.settleFault
  extract_lets on
  split <;> rfl

theorem settlePort_file (d : Device) (p : Nat) : (d.settlePort p).file = d.file := by
  unfold Device.settlePort
  extract_lets e
  split <;> exact settleFault_file d p

theorem portEn_of_file {d e : Device} (h : e.file = d.file) (p : Nat) : e.portEn p = d.portEn p := by
  unfold Device.portEn Device.flag Device.fld Device.cfg Device.reg
  rw [h]

/-- The fault that a port sends is a matter of its own. -/
theorem settleFault_port {d : Device} (hw : portsWf d) (p : Nat) : portsWf (d.settleFault p) ∧
    (∃ b, (d.settleFault p).port p = { d.port p with txRemote := b }) ∧ ∀ q, q ≠ p → (d.settleFault p).port q = d.port q := by
  unfold Device.settleFault
  extract_lets on
  split
  · exact ⟨hw, ⟨_, rfl⟩, fun _ _ => rfl⟩
  · let f := fun s : PortSt => { s with txRemote := on }
    exact ⟨modPort_wf hw p f, ⟨on, modPort_at hw p f⟩, fun q h => modPort_other hw p f h⟩

/-- A port settles: it is due to go down where it is up and may not be. -/
theorem settlePort_port {d : Device} (hw : portsWf d) (p : Nat) : portsWf (d.settlePort p) ∧
    (∃ b c, (d.settlePort p).port p = { d.port p with txRemote := b, downDue := c } ∧
      ((d.port p).up = true → d.portEn p = false ∨ (d.port p).rxFault ≠ .none → c = true)) ∧
    ∀ q, q ≠ p → (d.settlePort p).port q = d.port q := by
  unfold Device.settlePort
  extract_lets e
  obtain ⟨we, ⟨b, he⟩, oe⟩ := settleFault_port hw p
  have hen : e.portEn p = d.portEn p := portEn_of_file (settleFault_file d p) p
  change e.port p = _ at he
  change portsWf e at we
  have oe : ∀ q, q ≠ p → e.port q = d.port q := oe
  clear_value e
  split
  · exact ⟨modPort_wf we p _, ⟨b, true, by rw [modPort_at we, he], fun _ _ => rfl⟩, fun q h => (modPort_other we p _ h).trans (oe q h)⟩
  · next hn =>
    refine ⟨we, ⟨b, (d.port p).downDue, he, fun hu hx => absurd ?_ hn⟩, oe⟩
    rw [Device.mayBeUp, hen, he]
    rcases hx with hx | hx <;> simp [hu, hx]

-- PT_CFG (R96) --------------------------------------------------------------------------------------------------------

theorem CfgKeep.tryStart (d : Device) {p : Nat} (hp : p < 1024) : CfgKeep d (d.tryStart p) := by
  have fault : ∀ e : Device, CfgKeep e (e.settleFault p) := fun e => .ofFile (settleFault_file e p)
  unfold Device.tryStart
  extract_lets ls ready e f
  have hf : CfgKeep d f := (CfgKeep.fixRate d hp).trans (.ofFile rfl)
  clear_value f
  split
  · exact .refl d
  · split
    · split
      · exact .portTo d hp _
      · exact .refl d
    · split
      · split
        · exact hf.trans (.beginTrain f hp _)
        · exact hf.trans ((CfgKeep.portTo f hp _).trans (fault _))
      · exact .refl d

theorem CfgKeep.restart (d : Device) {p : Nat} (hp : p < 1024) : CfgKeep d (d.restart p) := by
  unfold Device.restart
  extract_lets e
  have he : CfgKeep d e := CfgKeep.foldl (fun x m hm => by
    dsimp only
    split
    · exact .laneTo x m _ (portLanes_lt hp hm)
    · exact .refl x) d
  clear_value e
  have hb : CfgKeep e (e.modBring p fun b => { b with trainBy := none, upDue := false }) := .ofFile rfl
  exact he.trans (hb.trans ((CfgKeep.fixRate _ hp).trans ((CfgKeep.tryStart _ hp).trans (.ofFile (settleFault_file _ p)))))

theorem CfgKeep.goDormant (d : Device) {p : Nat} (hp : p < 1024) : CfgKeep d (d.goDormant p) := by
  unfold Device.goDormant
  split
  · exact .refl d
  · extract_lets e f
    have fe : e.file = d.file := by
      show (if _ then _ else _ : Device).file = _
      split <;> rfl
    have hf : CfgKeep e f := CfgKeep.foldl (fun x m hm => by
      dsimp only
      split
      · exact .laneTo x m _ (portLanes_lt hp hm)
      · exact .refl x) e
    clear_value e f
    exact (CfgKeep.ofFile fe).trans (hf.trans (.ofFile (settlePort_file (f.modBring p _) p)))

/-- The word that a write of PT_CFG stores has the EN that is written. -/
theorem ptCfg_en (w : Word) (n : Nat) : F.PORT_PT_CFG_EN.get (F.PORT_PT_CFG_EN.put w n &&& 0x1FFF#32) = n % 2 :=
  (Fld.get_mask _ _ 0x1FFF#32 13 rfl (by decide)).trans (Fld.get_put _ _ _ (by decide))

theorem ofPort_cfg_ge (p : Nat) : 0x1000000 ≤ ofPort A.PORT_PT_CFG p := by
  simp only [ofPort, A.PORT_PT_CFG]
  omega

section
variable {d : Device} {src : Source} {p : Nat} {w : Word} (hin : d.innerLane p = false)
include hin

/-- An enable that passes the checks stores the word and starts the port's bring-up. -/
theorem ptCfgWrite_start (h0 : F.PORT_PT_CFG_EN.get (d.reg (ofPort A.PORT_PT_CFG p)) = 0)
    (hok : d.portCfgOk p (F.PORT_PT_CFG_EN.put w 1 &&& 0x1FFF#32) = true) : ∃ (f : PortSt → PortSt) (g : BringUp → BringUp) (e : Device),
    e = (((d.setReg (ofPort A.PORT_PT_CFG p) (F.PORT_PT_CFG_EN.put w 1 &&& 0x1FFF#32)).modPort p f).modBring p g).restart p ∧
    ptCfgWrite d src p (F.PORT_PT_CFG_EN.put w 1) = if e.asksDormant p then e.goDormant p else e := by
  unfold ptCfgWrite
  extract_lets a v e f
  rw [if_neg (by simp [hin]), if_pos h0, if_neg (by rw [ptCfg_en]; decide), if_pos hok]
  exact ⟨_, _, f, rfl, rfl⟩

theorem ptCfgWrite_enable (hp : p < 1024) (hr : tabWf regReset d.file.regs = true)
    (h0 : F.PORT_PT_CFG_EN.get (d.reg (ofPort A.PORT_PT_CFG p)) = 0)
    (hok : d.portCfgOk p (F.PORT_PT_CFG_EN.put w 1 &&& 0x1FFF#32) = true) :
    (ptCfgWrite d src p (F.PORT_PT_CFG_EN.put w 1)).reg (ofPort A.PORT_PT_CFG p) = F.PORT_PT_CFG_EN.put w 1 &&& 0x1FFF#32 := by
  obtain ⟨f, g, e, he, h⟩ := ptCfgWrite_start (src := src) hin h0 hok
  have hv := Device.reg_setReg_same hr (ofPort A.PORT_PT_CFG p) (F.PORT_PT_CFG_EN.put w 1 &&& 0x1FFF#32)
  have hw := Device.setReg_wf hr (ofPort A.PORT_PT_CFG p) (F.PORT_PT_CFG_EN.put w 1 &&& 0x1FFF#32)
  generalize d.setReg (ofPort A.PORT_PT_CFG p) (F.PORT_PT_CFG_EN.put w 1 &&& 0x1FFF#32) = x at he hv hw
  have ke : CfgKeep x e := by
    rw [he]
    exact (CfgKeep.ofFile (d := x) (e := (x.modPort p f).modBring p g) rfl).trans (.restart _ hp)
  have k : CfgKeep x (ptCfgWrite d src p (F.PORT_PT_CFG_EN.put w 1)) := by
    rw [h]
    split
    · exact ke.trans (.goDormant e hp)
    · exact ke
  exact (k.reg hw (ofPort A.PORT_PT_CFG p) (ofPort_cfg_ge p)).trans hv

/-- One that fails them is refused, and stores nothing. -/
theorem ptCfgWrite_bad (h0 : F.PORT_PT_CFG_EN.get (d.reg (ofPort A.PORT_PT_CFG p)) = 0)
    (hok : d.portCfgOk p (F.PORT_PT_CFG_EN.put w 1 &&& 0x1FFF#32) = false) :
    ptCfgWrite d src p (F.PORT_PT_CFG_EN.put w 1) = d.refuse src (ofPort A.PORT_PT_CFG p) := by
  unfold ptCfgWrite
  extract_lets a v e f
  rw [if_neg (by simp [hin]), if_pos h0, if_neg (by rw [ptCfg_en]; decide), if_neg (by rw [hok]; decide)]

end

/-- A lane leaves its port, which is disabled: cause 5, and WAIT_SIGNAL where it serves the port (R81). -/
def Device.disableLane (d : Device) (l : Nat) : Device :=
  (if (d.laneSt l).free ∧ (d.laneSt l).st ≠ .test ∧ (d.laneSt l).st ≠ .disabled then d.laneTo l .waitSignal else d).setCause l 5

theorem portDisable_eq (d : Device) (p : Nat) : d.portDisable p = (((d.portLanes p).foldl Device.disableLane
    (d.setReg (ofPort A.PORT_PT_CFG p) (F.PORT_PT_CFG_EN.put (d.reg (ofPort A.PORT_PT_CFG p)) 0))).modBring p fun b =>
      { b with trainBy := none, wokeAt := none, upDue := false }).settlePort p := rfl

theorem disableLane_wf {d : Device} (hw : lanesWf d) (l : Nat) : lanesWf (d.disableLane l) := by
  refine modLane_wf ?_ l _
  split
  · exact (laneTo_spec hw l _).1
  · exact hw

theorem disableLane_cfg (d : Device) {l : Nat} (hl : l < 2048) : CfgKeep d (d.disableLane l) := by
  refine CfgKeep.trans (b := if (d.laneSt l).free ∧ (d.laneSt l).st ≠ .test ∧ (d.laneSt l).st ≠ .disabled
    then d.laneTo l .waitSignal else d) ?_ (.ofFile rfl)
  split
  · exact .laneTo d l _ hl
  · exact .refl d

theorem disableLane_ports (d : Device) (l : Nat) : (d.disableLane l).ports = d.ports := by
  unfold Device.disableLane
  split
  · exact (Device.laneTo_keepPorts2 l _ (KeepPorts2.refl d)).ports
  · rfl

theorem disableLane_lane {d : Device} (hw : lanesWf d) (l : Nat) : ((d.disableLane l).laneSt l).downCause = 5 ∧
    ((d.laneSt l).inPort = true → ((d.disableLane l).laneSt l).st = .waitSignal) := by
  unfold Device.disableLane
  generalize hx : (if (d.laneSt l).free ∧ (d.laneSt l).st ≠ .test ∧ (d.laneSt l).st ≠ .disabled then d.laneTo l .waitSignal else d) = x
  have wx : lanesWf x := by
    rw [← hx]
    split
    · exact (laneTo_spec hw l _).1
    · exact hw
  obtain ⟨hk, hs⟩ := modLane_kept wx l fun s => { s with downCause := 5 }
  refine ⟨congrArg (·.downCause) hk, fun hin => hs.trans ?_⟩
  simp only [LaneSt.inPort, Bool.and_eq_true, bne_iff_ne] at hin
  rw [← hx, if_pos ⟨hin.1.1.1, hin.1.1.2, hin.1.2⟩]
  exact (laneTo_spec hw l _).2.1

theorem disableLane_other {d : Device} (hw : lanesWf d) {l m : Nat} (h : m ≠ l) : (d.disableLane l).laneSt m = d.laneSt m := by
  unfold Device.disableLane
  split
  · exact (modLane_other (laneTo_spec hw l _).1 _ h).trans ((laneTo_spec hw l _).2.2.2 m h)
  · exact modLane_other hw _ h

/-- What the disable of a port leaves: its bit EN, its state and its lanes. -/
theorem portDisable_spec {d : Device} {p : Nat} (hp : p < 1024) (hw : lanesWf d) (hpw : portsWf d)
    (hr : tabWf regReset d.file.regs = true) (hh : assoc d.file.held (ofPort A.PORT_PT_CFG p) = none) :
    (d.portDisable p).portEn p = false ∧ ((d.portDisable p).port p).up = (d.port p).up ∧
    ((d.port p).up = true → ((d.portDisable p).port p).downDue = true) ∧
    ∀ l ∈ d.portLanes p, ((d.portDisable p).laneSt l).downCause = 5 ∧
      ((d.laneSt l).inPort = true → ((d.portDisable p).laneSt l).st = .waitSignal) := by
  rw [portDisable_eq]
  generalize hv : F.PORT_PT_CFG_EN.put (d.reg (ofPort A.PORT_PT_CFG p)) 0 = v
  have env : F.PORT_PT_CFG_EN.get v = 0 := hv ▸ Fld.get_put _ _ _ (by decide)
  have re := Device.reg_setReg_same hr (ofPort A.PORT_PT_CFG p) v
  have we := Device.setReg_wf hr (ofPort A.PORT_PT_CFG p) v
  have hl := Device.setReg_lane d (ofPort A.PORT_PT_CFG p) v
  have he := Device.setReg_heldD d (ofPort A.PORT_PT_CFG p) v
  have pe := Device.setReg_ports d (ofPort A.PORT_PT_CFG p) v
  generalize d.setReg (ofPort A.PORT_PT_CFG p) v = e at re we hl he pe ⊢
  obtain ⟨-, lf, -⟩ := lane_loop_inv (I := lanesWf) (fun _ l w => disableLane_wf w l) (d.portLanes p)
    (R := fun _ a b => b.downCause = 5 ∧ (a.inPort = true → b.st = .waitSignal))
    (fun _ l _ w => disableLane_lane w l) (fun _ _ _ w => disableLane_other w) (portLanes_nodup d p) e
    (lanesWf_of_lanes (congrArg (·.lanes) hl) hw)
  have kf := CfgKeep.foldl (fun x l hl => disableLane_cfg x (portLanes_lt (d := d) hp hl)) e
  have pf := (foldl_frame (·.ports) disableLane_ports (d.portLanes p) e).trans pe
  generalize (d.portLanes p).foldl Device.disableLane e = f at lf kf pf ⊢
  generalize hx : (f.modBring p fun b => { b with trainBy := none, wokeAt := none, upDue := false }) = x
  have xf : x.file = f.file := by rw [← hx]; rfl
  have xl : x.lane.lanes = f.lane.lanes := by rw [← hx]; rfl
  have xp : x.ports = d.ports := by rw [← hx]; exact pf
  have hen : x.portEn p = false := by
    have hcfg : f.cfg (ofPort A.PORT_PT_CFG p) = v := by
      rw [kf.cfg we (ofPort_cfg_ge p), Device.cfg, he, hh, Option.getD_none, re]
    rw [portEn_of_file xf, Device.portEn, Device.flag, Device.fld, hcfg, env]
    rfl
  have xw : portsWf x := (PortsStay.ofPorts xp).wf hpw
  obtain ⟨-, ⟨b, c, hport, hdue⟩, -⟩ := settlePort_port xw p
  rw [port_of_ports xp] at hport hdue
  refine ⟨(portEn_of_file (settlePort_file x p) p).trans hen, by rw [hport], fun hu => ?_, fun l hm => ?_⟩
  · rw [hport]
    exact hdue hu (.inl hen)
  · rw [settlePort_laneSt, laneSt_of_lanes xl, ← laneSt_of_lanes (congrArg (·.lanes) hl) l]
    exact lf l hm

section
variable {d : Device} {src : Source} {p : Nat} {w : Word} (hin : d.innerLane p = false)
include hin

/-- A disable of an enabled port keeps its WIDTH, SPEED, FEC and FEC_LL, and disables it. -/
theorem ptCfgWrite_disable_eq (h1 : F.PORT_PT_CFG_EN.get (d.reg (ofPort A.PORT_PT_CFG p)) = 1) : ∃ e v, (e = d ∨
      e = d.refuse src (ofPort A.PORT_PT_CFG p)) ∧ ptCfgWrite d src p (F.PORT_PT_CFG_EN.put w 0) =
    ((e.setReg (ofPort A.PORT_PT_CFG p) (v &&& 0x1E01#32 ||| (d.reg (ofPort A.PORT_PT_CFG p)) &&& 0x1FE#32)).modPort p fun s =>
      { s with hdrmDirty := true }).portDisable p := by
  unfold ptCfgWrite
  extract_lets a v e0 f0 old kept e f
  rw [if_neg (by simp [hin]), if_neg (by rw [h1]; decide), if_pos (by rw [ptCfg_en])]
  refine ⟨e, v, ?_, rfl⟩
  show (if _ then _ else _) = d ∨ (if _ then _ else _) = _
  split
  · exact .inl rfl
  · exact .inr rfl

theorem ptCfgWrite_disable (hp : p < 1024) (hr : tabWf regReset d.file.regs = true) (hpw : portsWf d) (hw : lanesWf d)
    (hh : assoc d.file.held (ofPort A.PORT_PT_CFG p) = none) (h1 : F.PORT_PT_CFG_EN.get (d.reg (ofPort A.PORT_PT_CFG p)) = 1) :
    (ptCfgWrite d src p (F.PORT_PT_CFG_EN.put w 0)).portEn p = false ∧
    ((ptCfgWrite d src p (F.PORT_PT_CFG_EN.put w 0)).port p).up = (d.port p).up ∧
    ((d.port p).up = true → ((ptCfgWrite d src p (F.PORT_PT_CFG_EN.put w 0)).port p).downDue = true) ∧
    ∀ l ∈ d.portLanes p, ((ptCfgWrite d src p (F.PORT_PT_CFG_EN.put w 0)).laneSt l).downCause = 5 ∧
      ((d.laneSt l).inPort = true → ((ptCfgWrite d src p (F.PORT_PT_CFG_EN.put w 0)).laneSt l).st = .waitSignal) := by
  obtain ⟨e, v, he, h⟩ := ptCfgWrite_disable_eq (src := src) (w := w) hin h1
  have ke : e.file.held = d.file.held ∧ tabWf regReset e.file.regs = true ∧ e.lane = d.lane ∧ e.ports = d.ports := by
    rcases he with rfl | rfl
    · exact ⟨rfl, hr, rfl, rfl⟩
    · exact ⟨err_held _ _ _ _ _, err_wf hr _ _ _ _, Device.refuse_lane _ _ _, Device.refuse_ports _ _ _⟩
  obtain ⟨eh, er, el, ep⟩ := ke
  generalize hold : d.reg (ofPort A.PORT_PT_CFG p) = old at h
  have rv := Device.reg_setReg_same er (ofPort A.PORT_PT_CFG p) (v &&& 0x1E01#32 ||| old &&& 0x1FE#32)
  have wv := Device.setReg_wf er (ofPort A.PORT_PT_CFG p) (v &&& 0x1E01#32 ||| old &&& 0x1FE#32)
  have hl := Device.setReg_lane e (ofPort A.PORT_PT_CFG p) (v &&& 0x1E01#32 ||| old &&& 0x1FE#32)
  have hps := Device.setReg_ports e (ofPort A.PORT_PT_CFG p) (v &&& 0x1E01#32 ||| old &&& 0x1FE#32)
  have hheld := Device.setReg_heldD e (ofPort A.PORT_PT_CFG p) (v &&& 0x1E01#32 ||| old &&& 0x1FE#32)
  generalize e.setReg (ofPort A.PORT_PT_CFG p) (v &&& 0x1E01#32 ||| old &&& 0x1FE#32) = x at h rv wv hl hps hheld
  have wx : portsWf x := (PortsStay.ofPorts (hps.trans ep)).wf hpw
  have hwidth : x.portLanes p = d.portLanes p := by
    unfold Device.portLanes Device.portWidth Device.fld Device.cfg
    rw [hheld, eh, hh, Option.getD_none, Option.getD_none, rv, hold,
      Fld.get_or_masked F.PORT_PT_CFG_WIDTH v old 0x1E01#32 0x1FE#32 (by decide) (by decide)]
  generalize hy : (x.modPort p fun s => { s with hdrmDirty := true }) = y at h
  have yf : y.file = x.file := by rw [← hy, Device.modPort_file]
  have yl : y.lane.lanes = d.lane.lanes := by rw [← hy, Device.modPort_lane, hl, el]
  have yp : (y.port p).up = (d.port p).up := by rw [← hy, modPort_at wx, port_of_ports (hps.trans ep)]
  have yw : portsWf y := hy ▸ modPort_wf wx p _
  have spec := portDisable_spec hp (lanesWf_of_lanes yl hw) yw (by rw [yf]; exact wv) (by rw [yf, hheld, eh]; exact hh)
  rw [← h, portLanes_of_file yf, hwidth, yp] at spec
  simpa only [laneSt_of_lanes yl] using spec

end

-- Up and down (R106, R108) --------------------------------------------------------------------------------------------

/-- A port whose conditions hold comes up. -/
theorem portUp_spec {d : Device} (hw : portsWf d) {p : Nat} (hu : (d.port p).up = false) (he : d.portEn p = true)
    (hn : d.isFenced (p / 32) = false) (hl : d.lanesUp p = true) : ((portUp d p).port p).up = true ∧
    ((portUp d p).port p).rxFault = .none ∧ ((portUp d p).port p).hdrmDirty = true ∧ ((portUp d p).port p).pdelayNext = none ∧
    ((portUp d p).port p).delay = (if F.PORT_PT_DELAY_CFG_EXCH_EN.get (d.cfg (ofPort A.PORT_PT_DELAY_CFG p)) = 1 then (d.port p).delay
      else 4 * F.PORT_PT_DELAY_CFG_DELAY_DEFAULT.get (d.cfg (ofPort A.PORT_PT_DELAY_CFG p))) ∧
    ∀ q, q ≠ p → (portUp d p).port q = d.port q := by
  unfold portUp
  extract_lets e cfg exch f g
  have we : portsWf e := modPort_wf hw p _
  have pe : e.port p = { d.port p with rxFault := .none } := modPort_at hw p _
  have oe : ∀ q, q ≠ p → e.port q = d.port q := fun q h => modPort_other hw p _ h
  have may : e.mayBeUp p = true := by
    show (d.portEn p && !d.isFenced (p / 32) && d.lanesUp p && (e.port p).rxFault == .none) = true
    rw [he, hn, hl, pe]
    rfl
  rw [if_neg (by rw [pe, may]; simp [hu])]
  have wf : portsWf f := modPort_wf we p _
  have pf : f.port p = _ := modPort_at we p _
  have of : ∀ q, q ≠ p → f.port q = d.port q := fun q h => (modPort_other we p _ h).trans (oe q h)
  have gf : g.ports = f.ports := rfl
  have wg : portsWf g := (PortsStay.ofPorts gf).wf wf
  have hg : (g.port p).up = true ∧ (g.port p).rxFault = .none ∧ (g.port p).hdrmDirty = true ∧ (g.port p).pdelayNext = none ∧
      (g.port p).delay = (if exch then (d.port p).delay else 4 * F.PORT_PT_DELAY_CFG_DELAY_DEFAULT.get cfg) := by
    rw [port_of_ports gf, pf, pe]
    exact ⟨rfl, rfl, rfl, rfl, rfl⟩
  have og : ∀ q, q ≠ p → g.port q = d.port q := fun q h => (port_of_ports gf q).trans (of q h)
  clear_value g
  split
  · unfold Device.showPort
    extract_lets s
    split
    · exact ⟨hg.1, hg.2.1, hg.2.2.1, hg.2.2.2.1, hg.2.2.2.2, og⟩
    · have ports := (Device.autoMembers_keepPorts p s.up (KeepPorts.refl (g.modPort p fun s => { s with shown := s.up }))).ports
      rw [port_of_ports ports, modPort_at wg]
      exact ⟨hg.1, hg.2.1, hg.2.2.1, hg.2.2.2.1, hg.2.2.2.2, fun q h => by
        rw [port_of_ports ports, modPort_other wg p _ h, og q h]⟩
  · exact ⟨hg.1, hg.2.1, hg.2.2.1, hg.2.2.2.1, hg.2.2.2.2, og⟩

/-- What PORT_DOWN leaves before the boundary: the fault it names, and a port that is up due to go down. -/
theorem portDown_settles {d : Device} (hw : portsWf d) (p : Nat) {f : DownReason} (hf : f ≠ .none) :
    portsWf ((d.modPort p fun s => { s with rxFault := f }).settlePort p) ∧
    (((d.modPort p fun s => { s with rxFault := f }).settlePort p).port p).up = (d.port p).up ∧
    (((d.modPort p fun s => { s with rxFault := f }).settlePort p).port p).rxFault = f ∧
    ((d.port p).up = true → (((d.modPort p fun s => { s with rxFault := f }).settlePort p).port p).downDue = true) ∧
    ∀ q, q ≠ p → ((d.modPort p fun s => { s with rxFault := f }).settlePort p).port q = d.port q := by
  obtain ⟨w, ⟨b, c, hp, hdue⟩, o⟩ := settlePort_port (modPort_wf hw p fun s => { s with rxFault := f }) p
  rw [modPort_at hw] at hp hdue
  refine ⟨w, by rw [hp], by rw [hp], fun hu => ?_, fun q h => (o q h).trans (modPort_other hw p _ h)⟩
  rw [hp]
  exact hdue hu (.inr hf)


-- Stops (R105) --------------------------------------------------------------------------------------------------------

theorem setStop_same (d : Device) (p k n : Nat) : (d.setStop p k n).now = d.now ∧ (d.setStop p k n).file = d.file := ⟨rfl, rfl⟩

theorem quantaTime_of_file {d e : Device} (h : e.file = d.file) (p n : Nat) : e.quantaTime p n = d.quantaTime p n := by
  unfold Device.quantaTime Device.lineTime Device.portGb Device.portSpeed Device.fld Device.cfg Device.reg
  rw [h]

/-- The stops that a PFC frame names are set one after the other, each of its own priority. -/
theorem setStops_stops {p : Nat} {step : Device → Nat → Device} {c : Nat → Bool} {v : Nat → Nat} {z : RegFile}
    (hs : ∀ d q, d.file = z → step d q = if c q then d.setStop p q (v q) else d) (ls : List Nat) (hn : ls.Nodup) (d : Device)
    (hz : d.file = z) (hw : portsWf d) (j : Nat) : ((ls.foldl step d).port p).stops.filter (fun x => x.1 = j) =
      if j ∈ ls ∧ c j then if v j = 0 then [] else [(j, d.now + d.quantaTime p (v j))] else (d.port p).stops.filter fun x => x.1 = j := by
  induction ls generalizing d with
  | nil => simp
  | cons x t ih =>
    rw [List.nodup_cons] at hn
    rw [List.foldl_cons, hs d x hz]
    by_cases hc : c x = true
    · rw [if_pos hc, ih hn.2 (d.setStop p x (v x)) hz (modPort_wf hw p _), (setStop_same d p x _).1,
        quantaTime_of_file (setStop_same d p x _).2, setStop_stops hw]
      by_cases hj : j = x
      · subst hj
        simp [hn.1, hc]
      · simp [hj]
    · rw [if_neg hc, ih hn.2 d hz hw]
      by_cases hj : j = x
      · subst hj
        simp [hn.1, hc]
      · simp [hj]

theorem portCount_keepsTime (d : Device) (p x n : Nat) : (d.portCount p x n).now = d.now ∧
    (∀ q a f, (d.portCount q x n).fld a f = d.fld a f) ∧ ∀ k, (d.portCount p x n).quantaTime p k = d.quantaTime p k := by
  have cfg : ∀ q a, (d.portCount q x n).cfg a = d.cfg a := fun q a => by
    obtain ⟨-, -, h3, h4, -⟩ := portCount_same d q x n
    unfold Device.cfg Device.reg
    rw [h3, h4]
  have fld : ∀ q a f, (d.portCount q x n).fld a f = d.fld a f := fun q a f => by rw [Device.fld, cfg, Device.fld]
  refine ⟨(portCount_same d p x n).2.2.2.2, fld, fun k => ?_⟩
  unfold Device.quantaTime Device.lineTime Device.portGb Device.portSpeed
  rw [fld]

theorem pfcReceive_stops {d : Device} (hw : portsWf d) {p en : Nat} {quanta : List Nat} (hu : (d.port p).up = true)
    (hm : d.fcMode p = 2) (k : Nat) : ((pfcReceive d p en quanta).port p).stops.filter (fun x => x.1 = k) =
      if k < 8 ∧ bit en k = true ∧ bit (d.fld (ofPort A.PORT_PT_PFC p) F.PORT_PT_PFC_RX_EN) k = true then
        if quanta.getD k 0 % 65536 = 0 then [] else [(k, d.now + d.quantaTime p (quanta.getD k 0 % 65536))]
      else (d.port p).stops.filter fun x => x.1 = k := by
  obtain ⟨hnow, hfld, hq⟩ := portCount_keepsTime d p 7 1
  have ports := (portCount_same d p 7 1).2.1
  have we : portsWf (d.portCount p 7 1) := (PortsStay.ofPorts ports).wf hw
  have hmode : (d.portCount p 7 1).fcMode p = 2 := (hfld p _ _).trans hm
  have e : pfcReceive d p en quanta = (List.range 8).foldl (fun e q =>
      if bit en q ∧ bit (e.fld (ofPort A.PORT_PT_PFC p) F.PORT_PT_PFC_RX_EN) q then e.setStop p q (quanta.getD q 0 % 65536) else e)
      (d.portCount p 7 1) := by
    unfold pfcReceive
    rw [if_neg (by simp [hu])]
    dsimp only
    rw [if_neg (by simp [hmode])]
  rw [e, setStops_stops (c := fun q => bit en q && bit (d.fld (ofPort A.PORT_PT_PFC p) F.PORT_PT_PFC_RX_EN) q)
    (v := fun q => quanta.getD q 0 % 65536) (z := (d.portCount p 7 1).file) ?same _ List.nodup_range _ rfl we, port_of_ports ports, hnow, hq]
  case same =>
    intro x q hx
    have : x.fld (ofPort A.PORT_PT_PFC p) F.PORT_PT_PFC_RX_EN = d.fld (ofPort A.PORT_PT_PFC p) F.PORT_PT_PFC_RX_EN := by
      rw [← hfld p, Device.fld, Device.cfg, Device.reg, hx]
      rfl
    rw [this]
    simp
  simp

theorem pauseReceive_stops {d : Device} (hw : portsWf d) {p n : Nat} (hn : n < 65536) (hu : (d.port p).up = true)
    (hm : d.fcMode p = 1) (k : Nat) : ((pauseReceive d p n).port p).stops.filter (fun x => x.1 = k) =
      if k = 8 then if n = 0 then [] else [(8, d.now + d.quantaTime p n)] else (d.port p).stops.filter fun x => x.1 = k := by
  obtain ⟨hnow, hfld, hq⟩ := portCount_keepsTime d p 6 1
  have ports := (portCount_same d p 6 1).2.1
  have hmode : (d.portCount p 6 1).fcMode p = 1 := (hfld p _ _).trans hm
  have e : pauseReceive d p n = (d.portCount p 6 1).setStop p 8 n := by
    unfold pauseReceive
    rw [if_neg (by simp [hu])]
    dsimp only
    rw [if_pos hmode, Nat.mod_eq_of_lt hn]
  rw [e, setStop_stops ((PortsStay.ofPorts ports).wf hw), port_of_ports ports, hnow, hq]

/-- A control frame of another mode is counted, and stops nothing. -/
theorem pfcReceive_mode {d : Device} {p en : Nat} {quanta : List Nat} (hm : d.fcMode p ≠ 2) : (pfcReceive d p en quanta).ports = d.ports := by
  have hmode : (d.portCount p 7 1).fcMode p ≠ 2 := fun h => hm (((portCount_keepsTime d p 7 1).2.1 p _ _).symm.trans h)
  unfold pfcReceive
  split
  · rfl
  · dsimp only
    rw [if_pos hmode]
    exact (portCount_same d p 7 1).2.1

theorem pauseReceive_mode {d : Device} {p n : Nat} (hm : d.fcMode p ≠ 1) : (pauseReceive d p n).ports = d.ports := by
  have hmode : (d.portCount p 6 1).fcMode p ≠ 1 := fun h => hm (((portCount_keepsTime d p 6 1).2.1 p _ _).symm.trans h)
  unfold pauseReceive
  split
  · rfl
  · dsimp only
    rw [if_neg hmode]
    exact (portCount_same d p 6 1).2.1

-- XOFF sent again (R104) ----------------------------------------------------------------------------------------------

/-- The frame itself, once the port is out of low-power idle. -/
def Device.sendControl (d : Device) (p : Nat) (f : PortSt → PortSt) (x : Nat) (fr : Bytes) : Device :=
  ((d.modPort p f).portCount p x 1).send (.frame p fr)

theorem sendControl_spec {d : Device} (hw : portsWf d) (p : Nat) (f : PortSt → PortSt) (x : Nat) (fr : Bytes) :
    (d.sendControl p f x fr).sent = d.sent ++ [.frame p fr] ∧ (d.sendControl p f x fr).port p = f (d.port p) ∧
    ∀ q, q ≠ p → (d.sendControl p f x fr).port q = d.port q := by
  obtain ⟨cs, cp, -⟩ := portCount_same (d.modPort p f) p x 1
  have ports : (d.sendControl p f x fr).ports = (d.modPort p f).ports := cp
  exact ⟨congrArg (· ++ _) cs, by rw [port_of_ports ports, modPort_at hw], fun q h => by rw [port_of_ports ports, modPort_other hw p _ h]⟩

/-- A flow-control frame that leaves at once. -/
theorem sendFc_sends {d : Device} (hw : portsWf d) {p en stop : Nat} (hu : (d.port p).up = true) (he : en ≠ 0)
    (hm : d.fcMode p = 1 ∨ d.fcMode p = 2) : (∃ bs, (d.sendFc p en stop).sent = d.sent ++ [.frame p bs]) ∧
    ((d.sendFc p en stop).port p).xoff = (d.port p).xoff ∧
    ((d.sendFc p en stop).port p).xoffAt = ((d.port p).sentFc (d.fcMode p == 1) en stop d.now).xoffAt ∧
    ∀ q, q ≠ p → (d.sendFc p en stop).port q = d.port q := by
  unfold Device.sendFc
  extract_lets e quanta f q g
  have we : portsWf e := modPort_wf hw p _
  have pe : e.port p = { d.port p with fcEn := 0 } := modPort_at hw p _
  have oe : ∀ q, q ≠ p → e.port q = d.port q := fun q h => modPort_other hw p _ h
  have me : e.fcMode p = d.fcMode p := rfl
  have hsent : e.sent = d.sent := rfl
  have hnow : e.now = d.now := rfl
  obtain ⟨ls, lp, lo⟩ := leaveLpiTx_spec we p
  have lw : portsWf (e.leaveLpiTx p) := (leaveLpiTx_stay e p).wf we
  have hf : f = (e.leaveLpiTx p).modPort p fun s => s.sentFc false en stop d.now := rfl
  have hg : g = (e.leaveLpiTx p).modPort p fun s => s.sentFc true en stop d.now := rfl
  clear_value f g e
  rw [if_neg (by rw [pe]; simp [hu, he])]
  have sends : ∀ (b : Bool) (x : Nat) (fr : Bytes) (y : Device), y = (e.leaveLpiTx p).sendControl p (fun s => s.sentFc b en stop d.now) x fr →
      (∃ bs, y.sent = d.sent ++ [.frame p bs]) ∧ (y.port p).xoff = (d.port p).xoff ∧
      (y.port p).xoffAt = ((d.port p).sentFc b en stop d.now).xoffAt ∧ ∀ q, q ≠ p → y.port q = d.port q := by
    rintro b x fr y rfl
    obtain ⟨h1, h2, h3⟩ := sendControl_spec lw p (fun s => s.sentFc b en stop d.now) x fr
    exact ⟨⟨fr, by rw [h1, ls, hsent]⟩, by rw [h2, lp, pe]; rfl, by rw [h2, lp, pe]; rfl, fun q h => by rw [h3 q h, lo q h, oe q h]⟩
  rcases hm with hm | hm
  · rw [if_neg (by rw [me, hm]; decide), if_pos (by rw [me, hm]), hm, hg]
    exact sends true 11 _ _ rfl
  · rw [if_pos (by rw [me, hm]), hm, hf]
    exact sends false 12 _ _ rfl

theorem bit_setBit_of_bit {m k : Nat} (j : Nat) (h : bit m k = true) : bit (setBit m j) k = true := by
  unfold bit setBit at *
  rw [Nat.testBit_or, h, Bool.true_or]

/-- Bits gathered one after the other. -/
theorem bit_gathered {c : Nat → Bool} {k : Nat} (hc : c k = true) : ∀ (l : List Nat) (m : Nat), k ∈ l ∨ bit m k = true →
    bit (l.foldl (fun m q => if c q then setBit m q else m) m) k = true
  | [], m, h => h.resolve_left (by simp)
  | q :: l, m, h => by
    refine bit_gathered hc l _ ?_
    by_cases hq : k = q
    · subst hq
      exact .inr (by dsimp only; rw [if_pos hc]; exact bit_setBit m k)
    · refine h.imp (fun h => (List.mem_cons.1 h).resolve_left hq) fun h => ?_
      dsimp only
      split
      · exact bit_setBit_of_bit q h
      · exact h

theorem sentFc_pfc (s : PortSt) {en stop k : Nat} (now : Nat) (hk : k < 8) (he : bit en k = true) (hs : bit stop k = true) :
    (k, now) ∈ (s.sentFc false en stop now).xoffAt := by
  refine List.mem_append_right _ (List.mem_map.2 ⟨k, List.mem_filter.2 ⟨List.mem_filter.2 ⟨List.mem_range.2 hk, he⟩, ?_⟩, rfl⟩)
  rw [if_neg (by omega)]
  simpa using hs

theorem sentFc_pause (s : PortSt) {en stop : Nat} (now : Nat) (hs : stop ≠ 0) : (8, now) ∈ (s.sentFc true en stop now).xoffAt :=
  List.mem_append_right _ (List.mem_map.2 ⟨8, List.mem_filter.2 ⟨List.mem_singleton.2 rfl, by simpa using hs⟩, rfl⟩)

/-- With no frame in transmission the frame is sent again at once. -/
theorem askFc_now {d : Device} {p en : Nat} (h : (d.pkt.sending.any fun e => e.1 = p) = false) :
    d.askFc p en = d.sendFc p ((d.port p).fcEn ||| en) (d.port p).xoff := by
  rw [Device.askFc, if_neg (by rw [h]; decide)]

section
variable {d : Device} {p : Nat} (c : Nat) (hw : portsWf d) (hu : (d.port p).up = true)
  (hs : (d.pkt.sending.any fun e => e.1 = p) = false)
include hw hu hs

theorem askFc_sends {en : Nat} (he : en ≠ 0) (hm : d.fcMode p = 1 ∨ d.fcMode p = 2) :
    (∃ bs, (d.askFc p en).sent = d.sent ++ [.frame p bs]) ∧ ((d.askFc p en).port p).xoff = (d.port p).xoff ∧
    ((d.askFc p en).port p).xoffAt =
      ((d.port p).sentFc (d.fcMode p == 1) ((d.port p).fcEn ||| en) (d.port p).xoff d.now).xoffAt ∧
    ∀ q, q ≠ p → (d.askFc p en).port q = d.port q := by
  rw [askFc_now hs]
  exact sendFc_sends hw hu (fun h => he (Nat.or_eq_zero_iff.1 h).2) hm

theorem pfcXoffRepeat_pfc {k : Nat} (hk : k < 8) (hm : d.fcMode p = 2) (hx : bit (d.port p).xoff k = true) (hd : d.xoffDue p k = true) :
    (∃ bs, (pfcXoffRepeat d p c).sent = d.sent ++ [.frame p bs]) ∧ (k, (d.atCyc c).now) ∈ ((pfcXoffRepeat d p c).port p).xoffAt ∧
    ((pfcXoffRepeat d p c).port p).xoff = (d.port p).xoff ∧ ∀ q, q ≠ p → (pfcXoffRepeat d p c).port q = d.port q := by
  unfold pfcXoffRepeat
  extract_lets e s due
  have em : e.fcMode p = 2 := hm
  have es : s = d.port p := rfl
  have ed : ∀ q, e.xoffDue p q = d.xoffDue p q := fun _ => rfl
  have hdue : bit due k = true := by
    show bit (if _ then _ else _) k = true
    rw [if_neg (by rw [em]; decide)]
    exact bit_gathered (c := fun q => bit s.xoff q && e.xoffDue p q) (by simp [es, ed, hx, hd]) (List.range 8) 0
      (.inl (List.mem_range.2 hk))
  clear_value due
  have h0 : due ≠ 0 := fun h => by
    rw [h] at hdue
    simp [bit] at hdue
  rw [if_neg h0]
  obtain ⟨h1, h2, h3, h4⟩ := askFc_sends (d := e) hw hu hs h0 (.inr em)
  refine ⟨h1, ?_, h2, h4⟩
  rw [h3, em]
  refine sentFc_pfc _ _ hk ?_ hx
  unfold bit at *
  rw [Nat.testBit_or, hdue, Bool.or_true]

theorem pfcXoffRepeat_pause (hm : d.fcMode p = 1) (hx : (d.port p).xoff ≠ 0) (hd : d.xoffDue p 8 = true) :
    (∃ bs, (pfcXoffRepeat d p c).sent = d.sent ++ [.frame p bs]) ∧ (8, (d.atCyc c).now) ∈ ((pfcXoffRepeat d p c).port p).xoffAt ∧
    ((pfcXoffRepeat d p c).port p).xoff = (d.port p).xoff ∧ ∀ q, q ≠ p → (pfcXoffRepeat d p c).port q = d.port q := by
  unfold pfcXoffRepeat
  extract_lets e s due
  have em : e.fcMode p = 1 := hm
  have h0 : due ≠ 0 := by
    show (if _ then _ else _) ≠ 0
    rw [if_pos em, if_pos ⟨hx, hd⟩]
    decide
  clear_value due
  rw [if_neg h0]
  obtain ⟨h1, h2, h3, h4⟩ := askFc_sends (d := e) hw hu hs h0 (.inl em)
  refine ⟨h1, ?_, h2, h4⟩
  rw [h3, em]
  exact sentFc_pause _ _ hx

end

theorem settlePort_stroke (d : Device) (p : Nat) : (d.settlePort p).stroke = d.stroke := by
  unfold Device.settlePort Device.settleFault
  extract_lets on e
  have he : e.stroke = d.stroke := by
    show (if _ then _ else _ : Device).stroke = _
    split <;> rfl
  split <;> exact he

/-- The fault that PORT_DOWN names. -/
theorem portDown_settled {d : Device} (hw : portsWf d) {p f : Nat} (hf : f = 1 ∨ f = 2) : ∃ e : Device,
    portDown d p f = (if d.stroke.cyc = 0 then e.dropPort p else e) ∧ portsWf e ∧ (e.port p).up = (d.port p).up ∧
    (e.port p).rxFault = (if f = 1 then .localFault else .remoteFault) ∧ ((d.port p).up = true → (e.port p).downDue = true) ∧
    ∀ q, q ≠ p → e.port q = d.port q := by
  have hx : (if f = 1 then DownReason.localFault else if f = 2 then .remoteFault else .none) =
      (if f = 1 then .localFault else .remoteFault) := by
    rcases hf with rfl | rfl <;> rfl
  refine ⟨(d.modPort p fun s => { s with rxFault := if f = 1 then .localFault else .remoteFault }).settlePort p, ?_,
    portDown_settles hw p (by split <;> decide)⟩
  unfold portDown
  extract_lets x e
  have he : e = (d.modPort p fun s => { s with rxFault := if f = 1 then .localFault else .remoteFault }).settlePort p := by
    show (d.modPort p fun s => { s with rxFault := if f = 1 then .localFault else if f = 2 then .remoteFault else .none }).settlePort p = _
    rw [hx]
  have hs : e.stroke = d.stroke := settlePort_stroke _ p
  clear_value e
  rw [hs, he]

/-- PORT_DOWN at a stroke's first cycle. -/
theorem portDown_boundary {d : Device} (hw : portsWf d) {p f : Nat} (hf : f = 1 ∨ f = 2) (hc : d.stroke.cyc = 0) :
    ((portDown d p f).port p).up = false ∧
    ((portDown d p f).port p).rxFault = (if f = 1 then .localFault else .remoteFault) ∧
    ((d.port p).up = true → ((portDown d p f).port p).stops = []) ∧
    ∀ q, q ≠ p → ((portDown d p f).port q).up = (d.port q).up ∧ ((portDown d p f).port q).rxFault = (d.port q).rxFault ∧
      ((portDown d p f).port q).stops = (d.port q).stops := by
  obtain ⟨e, h, we, hu, hx, hdue, ho⟩ := portDown_settled hw hf
  rw [h, if_pos hc, Device.dropPort]
  by_cases hd : (e.port p).downDue = true
  · rw [if_pos hd]
    obtain ⟨h1, h2, h3, h4⟩ := Device.portDown_spec we p
    exact ⟨h1, h2.trans hx, fun u => h3 (hu.trans u), fun q hq => ho q hq ▸ h4 q hq⟩
  · rw [if_neg hd]
    have down : (d.port p).up ≠ true := fun u => hd (hdue u)
    exact ⟨hu.trans (by simpa using down), hx, fun u => absurd u down, fun q hq => by rw [ho q hq]; exact ⟨rfl, rfl, rfl⟩⟩

/-- Settles O28. -/
theorem portEvents : Obligations.PortEvents := by
  unfold Obligations.PortEvents
  refine ⟨?enable, ?disable, ?up, ?downNow, ?downLater, ?pfc, ?pause, ?mode, ?expire, ?pfcRepeat, ?pauseRepeat⟩
  case enable =>
    intro s src p w hg hp hf hin hwh hr h0
    have e := write_PORT_PT_CFG hg hp hf hin (F.PORT_PT_CFG_EN.put w 1)
      (wordsWhole_of_ras (ptCfgWrite_keepRasAll _ _ _ (KeepRasAll.refl _)).ras hwh)
    refine ⟨fun hok => ?_, fun hok => ?_⟩
    · refine completes_run (f := fun d => busWrite d src (ofPort A.PORT_PT_CFG p) 0xF (F.PORT_PT_CFG_EN.put w 1)) rfl
        (by simp [Instr.wf, hp]) ?_
      rw [e]
      exact ptCfgWrite_enable hin hp hr h0 hok
    · refine makes_run (f := fun d => busWrite d src (ofPort A.PORT_PT_CFG p) 0xF (F.PORT_PT_CFG_EN.put w 1)) rfl
        (by simp [Instr.wf, hp]) ?_
      rw [e]
      exact ptCfgWrite_bad hin h0 hok
  case disable =>
    intro s src p w hg hp hf hin hwh hr hpw hw hh h1
    refine completes_run (f := fun d => busWrite d src (ofPort A.PORT_PT_CFG p) 0xF (F.PORT_PT_CFG_EN.put w 0)) rfl
      (by simp [Instr.wf, hp]) ?_
    rw [write_PORT_PT_CFG hg hp hf hin (F.PORT_PT_CFG_EN.put w 0)
      (wordsWhole_of_ras (ptCfgWrite_keepRasAll _ _ _ (KeepRasAll.refl _)).ras hwh)]
    exact ptCfgWrite_disable hin hp hr hpw hw hh h1
  case up =>
    intro s p hck hp hw hu he hn hl
    exact completes_clock (f := fun d => portUp d p) rfl (by simp [Instr.wf, hp]) hck (portUp_spec hw hu he hn hl)
  case downNow =>
    intro s p f hck hp hw hf hc
    exact completes_clock (f := fun d => portDown d p f) rfl (by rcases hf with rfl | rfl <;> simp [Instr.wf, hp]) hck
      (portDown_boundary hw hf hc)
  case downLater =>
    intro s p f hck hp hw hf hc
    obtain ⟨e, h, -, spec⟩ := portDown_settled (p := p) hw hf
    refine completes_clock (f := fun d => portDown d p f) rfl (by rcases hf with rfl | rfl <;> simp [Instr.wf, hp]) hck ?_
    rw [h, if_neg hc]
    exact spec
  case pfc =>
    intro s p en quanta hck hp he hq hw hu hm
    exact completes_clock (f := fun d => pfcReceive d p en quanta) rfl (by simp [Instr.wf, hp, he, hq]) hck (pfcReceive_stops hw hu hm)
  case pause =>
    intro s p n hck hp hn hw hu hm
    exact completes_clock (f := fun d => pauseReceive d p n) rfl (by simp [Instr.wf, hp, hn]) hck (pauseReceive_stops hw hn hu hm)
  case mode =>
    intro s p en n quanta hck hp he hn hq
    exact ⟨fun hm => completes_clock (f := fun d => pfcReceive d p en quanta) rfl (by simp [Instr.wf, hp, he, hq]) hck (pfcReceive_mode hm),
      fun hm => completes_clock (f := fun d => pauseReceive d p n) rfl (by simp [Instr.wf, hp, hn]) hck (pauseReceive_mode hm)⟩
  case expire =>
    intro s p c hck hp hc hw
    exact completes_clock (f := fun d => pfcStopExpire d p c) rfl (by simp [Instr.wf, hp, hc]) hck
      ⟨modPort_at (d := s.dev.atCyc c) hw p _, fun q h => modPort_other (d := s.dev.atCyc c) hw p _ h⟩
  case pfcRepeat =>
    intro s p c k hck hp hc hk hw hu hm hx hd hs
    exact completes_clock (f := fun d => pfcXoffRepeat d p c) rfl (by simp [Instr.wf, hp, hc]) hck (pfcXoffRepeat_pfc c hw hu hs hk hm hx hd)
  case pauseRepeat =>
    intro s p c hck hp hc hw hu hm hx hd hs
    exact completes_clock (f := fun d => pfcXoffRepeat d p c) rfl (by simp [Instr.wf, hp, hc]) hck (pfcXoffRepeat_pause c hw hu hs hm hx hd)

end Sys2Proof.Machine

/-! The peer-delay exchange of a port (R106), and its low-power idle in each direction (R102). -/

namespace Sys2Proof.Machine

theorem lanes_loop_file (f : LaneSt → LaneSt) (ls : List Nat) (e : Device) : (ls.foldl (fun d l => d.modLane l f) e).file = e.file :=
  foldl_frame (·.file) (f := fun d l => d.modLane l f) (fun _ _ => rfl) ls e

theorem leaveLpiTx_regs (d : Device) (p : Nat) : (d.leaveLpiTx p).file.regs = d.file.regs := by
  unfold Device.leaveLpiTx
  split
  · rfl
  · next t _ =>
    extract_lets e
    rw [lanes_loop_file]
    exact (portCount_same d p 17 ((d.now - t) / usT 1)).2.2.1

theorem pdelayFail_regs (d : Device) (p : Nat) : (d.pdelayFail p).file.regs = d.file.regs := by
  unfold Device.pdelayFail
  split
  · rfl
  · exact (portCount_same d p 20 1).2.2.1

theorem integCfg_of_regs {d e : Device} (h : e.file.regs = d.file.regs) (p : Nat) : e.integCfg p = d.integCfg p := by
  unfold Device.integCfg Device.reg
  rw [h]

/-- A frame of the port's own leaves it where MACsec is not in use. -/
theorem sendOwn_spec {d : Device} (hw : portsWf d) {p : Nat} (ht : F.INTEG_P_CFG_TX_EN.get (d.integCfg p) = 0) (body : Bytes) :
    (d.sendOwn p body).sent = d.sent ++ [.frame p (body ++ fcsOf body)] ∧
    (d.sendOwn p body).port p = { d.port p with lpiTxAt := none } ∧ ∀ q, q ≠ p → (d.sendOwn p body).port q = d.port q := by
  obtain ⟨hs, hp, ho⟩ := leaveLpiTx_spec hw p
  have off : (d.leaveLpiTx p).txLatch p = (d.leaveLpiTx p, .off) := by
    unfold Device.txLatch
    exact if_pos (by rw [integCfg_of_regs (leaveLpiTx_regs d p), ht])
  have e : d.sendOwn p body = (d.leaveLpiTx p).send (.frame p (body ++ fcsOf body)) := by
    unfold Device.sendOwn
    dsimp only
    rw [off]
  rw [e]
  exact ⟨congrArg (· ++ _) hs, hp, ho⟩

-- The exchange (R106) -------------------------------------------------------------------------------------------------

/-- A request leaves the port, and the exchange is open. -/
theorem pdelayRequest_spec {d : Device} (hw : portsWf d) {p seq t1 next : Nat} (ht : F.INTEG_P_CFG_TX_EN.get (d.integCfg p) = 0)
    (body : Bytes) {e : Device} (he : e = (d.modPort p fun s => { s with
      pdelayOpen := some (seq, t1), pdelaySeq := (seq + 1) % 65536, pdelayNext := some next }).sendOwn p body) :
    (e.port p).pdelayOpen = some (seq, t1) ∧ (e.port p).pdelaySeq = (seq + 1) % 65536 ∧ (e.port p).pdelayNext = some next ∧
    (∃ bs, e.sent = d.sent ++ [.frame p bs]) ∧ ∀ q, q ≠ p → e.port q = d.port q := by
  have pm := modPort_at hw p fun s => { s with pdelayOpen := some (seq, t1), pdelaySeq := (seq + 1) % 65536, pdelayNext := some next }
  have om := fun q => modPort_other (q := q) hw p fun s =>
    { s with pdelayOpen := some (seq, t1), pdelaySeq := (seq + 1) % 65536, pdelayNext := some next }
  obtain ⟨hs, hp, ho⟩ := sendOwn_spec (d := d.modPort p fun s => { s with
    pdelayOpen := some (seq, t1), pdelaySeq := (seq + 1) % 65536, pdelayNext := some next }) (modPort_wf hw p _) (p := p) ht body
  rw [he, hp, pm]
  exact ⟨rfl, rfl, rfl, ⟨_, hs⟩, fun q h => (ho q h).trans (om q h)⟩

theorem pdelayExchange_spec {d : Device} (hw : portsWf d) {p c l t : Nat} {raw : Int} (hu : (d.port p).up = true)
    (hn : (d.port p).pdelayNext = some t) (hm : d.matured t = true) (ht : F.INTEG_P_CFG_TX_EN.get (d.integCfg p) = 0)
    (hx : d.fld (ofPort A.PORT_PT_DELAY_CFG p) F.PORT_PT_DELAY_CFG_EXCH_EN ≠ 0) :
    (∃ t1, ((pdelayExchange d p c l raw).port p).pdelayOpen = some ((d.port p).pdelaySeq, t1)) ∧
    ((pdelayExchange d p c l raw).port p).pdelaySeq = ((d.port p).pdelaySeq + 1) % 65536 ∧
    ((pdelayExchange d p c l raw).port p).pdelayNext = some ((d.atCyc c).now + secT 1) ∧
    (∃ bs, (pdelayExchange d p c l raw).sent = d.sent ++ [.frame p bs]) ∧
    ∀ q, q ≠ p → (pdelayExchange d p c l raw).port q = d.port q := by
  unfold pdelayExchange
  extract_lets e due x
  have hd : due = true := by
    show (match (d.port p).pdelayNext with | some t => e.matured t | none => true) = true
    rw [hn]
    exact hm
  rw [if_neg (by rw [hd]; simp [show (e.port p).up = true from hu, show e.fld _ F.PORT_PT_DELAY_CFG_EXCH_EN ≠ 0 from hx])]
  obtain ⟨xw, xs, xn, xq, xo⟩ := pdelayFail_spec (d := e) hw p
  have xr : x.file.regs = d.file.regs := pdelayFail_regs e p
  change portsWf x at xw
  change x.sent = _ at xs
  change x.now = _ at xn
  change (x.port p).pdelaySeq = _ at xq
  have xo : ∀ q, q ≠ p → x.port q = d.port q := xo
  clear_value x
  obtain ⟨a, b, k, h⟩ := stampAt_shape x p l raw false
  rw [h]
  dsimp only
  obtain ⟨h1, h2, h3, ⟨bs, h4⟩, h5⟩ := pdelayRequest_spec (d := { x with freeCtr := k }) xw (p := p) (seq := (x.port p).pdelaySeq) (t1 := a)
    (next := x.now + secT 1) ((congrArg _ (integCfg_of_regs (e := { x with freeCtr := k }) xr p)).trans ht) _ rfl
  exact ⟨⟨a, h1.trans (congrArg (fun n => some (n, a)) xq)⟩, h2.trans (congrArg (fun n => (n + 1) % 65536) xq),
    h3.trans (congrArg (fun n => some (n + secT 1)) xn), ⟨bs, h4.trans (congrArg (· ++ _) xs)⟩, fun q hq => (h5 q hq).trans (xo q hq)⟩

/-- The response to the open request gives the delay. -/
theorem pdelayRespReceive_open {d : Device} (hw : portsWf d) {p c l seq t1 t2 t3 : Nat} {raw : Int}
    (ho : (d.port p).pdelayOpen = some (seq, t1)) :
    ((pdelayRespReceive d p c l raw seq (d.ptpIdentity p) t2 t3).port p).pdelayOpen = none ∧
    ((pdelayRespReceive d p c l raw seq (d.ptpIdentity p) t2 t3).port p).delayFails = 0 ∧
    ((pdelayRespReceive d p c l raw seq (d.ptpIdentity p) t2 t3).port p).delaySrc = 1 ∧
    ((pdelayRespReceive d p c l raw seq (d.ptpIdentity p) t2 t3).port p).delay ≤ 0xFFFFFF ∧
    ((pdelayRespReceive d p c l raw seq (d.ptpIdentity p) t2 t3).port p).hdrmNewD = true ∧
    ∀ q, q ≠ p → (pdelayRespReceive d p c l raw seq (d.ptpIdentity p) t2 t3).port q = d.port q := by
  unfold pdelayRespReceive
  extract_lets e
  rw [show (e.port p).pdelayOpen = some (seq, t1) from ho]
  dsimp only
  rw [if_neg (by simp [show e.ptpIdentity p = d.ptpIdentity p from rfl])]
  obtain ⟨a, b, k, h⟩ := stampAt_shape e p l raw true
  rw [h]
  dsimp only
  obtain ⟨v, k2, h2⟩ := roundDiv_shape { e with freeCtr := k } ((Int.ofNat a - Int.ofNat t1) - (Int.ofNat t3 - Int.ofNat t2)) 32768
  rw [h2]
  dsimp only
  rw [port_of_ports (loopSample_ports _ _ _ _), modPort_at (d := { e with freeCtr := k2 }) hw]
  exact ⟨rfl, rfl, rfl, Nat.min_le_right _ _, rfl, fun q hq => by
    rw [port_of_ports (loopSample_ports _ _ _ _), modPort_other (d := { e with freeCtr := k2 }) hw p _ hq]
    rfl⟩

theorem pdelayRespReceive_other {d : Device} {p c l seq id t2 t3 : Nat} {raw : Int}
    (h : (∀ t1, (d.port p).pdelayOpen ≠ some (seq, t1)) ∨ id ≠ d.ptpIdentity p) :
    pdelayRespReceive d p c l raw seq id t2 t3 = d.atCyc c := by
  unfold pdelayRespReceive
  extract_lets e
  split
  · rfl
  · next s t1 hs =>
    have hs : (d.port p).pdelayOpen = some (s, t1) := hs
    refine if_pos (h.imp (fun h hq => ?_) fun h => h)
    subst hq
    exact h t1 hs

theorem pdelayReqAnswer_spec {d : Device} (hw : portsWf d) {p c rl tl seq id corr : Nat} {rr tr : Int} (hu : (d.port p).up = true)
    (ht : F.INTEG_P_CFG_TX_EN.get (d.integCfg p) = 0) :
    (∃ bs, (pdelayReqAnswer d p c rl rr tl tr seq id corr).sent = d.sent ++ [.frame p bs]) ∧
    ((pdelayReqAnswer d p c rl rr tl tr seq id corr).port p).pdelayOpen = (d.port p).pdelayOpen ∧
    ((pdelayReqAnswer d p c rl rr tl tr seq id corr).port p).lpiTxAt = none ∧
    ∀ q, q ≠ p → (pdelayReqAnswer d p c rl rr tl tr seq id corr).port q = d.port q := by
  unfold pdelayReqAnswer
  extract_lets e
  rw [if_neg (by simp [show (e.port p).up = true from hu])]
  obtain ⟨a, b, k, h⟩ := stampAt_shape e p rl rr true
  rw [h]
  dsimp only
  obtain ⟨a2, b2, k2, h2⟩ := stampAt_shape { e with freeCtr := k } p tl tr false
  rw [h2]
  dsimp only
  obtain ⟨h1, h2, h3⟩ := sendOwn_spec (d := { e with freeCtr := k2 }) hw (p := p) ht _
  rw [h2]
  exact ⟨⟨_, h1⟩, rfl, rfl, h3⟩

-- Low-power idle (R102) -----------------------------------------------------------------------------------------------

theorem lpiEnter_spec {d : Device} (hw : portsWf d) {p c : Nat} (hu : (d.port p).up = true)
    (hn : (d.port p).lpiTxAt = none) (he : d.fld (ofPort A.PORT_PT_CFG p) F.PORT_PT_CFG_LPI_EN = 1) (hq : d.queuesEmpty p = true)
    (hl : d.lanesUp p = true) (hf : (d.port p).fcEn = 0) (hm : d.matured ((d.port p).idleSince + usT (d.lpiIdle p)) = true)
    (hx : d.xoffPris p = (d.port p).xoff) : (lpiEnter d p c).port p = { d.port p with lpiTxAt := some (d.atCyc c).now } ∧
    ∀ q, q ≠ p → (lpiEnter d p c).port q = d.port q := by
  unfold lpiEnter
  extract_lets e s idle f
  have hs : s = d.port p := rfl
  rw [if_pos (by
    rw [hs]
    exact ⟨hu, hl, hf, by rw [hn]; rfl, he, hq, hm, hx⟩)]
  have hp := (lanes_loop_same (fun s => { s with txLpi := true }) (f.portLanes p) f).2
  rw [port_of_ports hp]
  exact ⟨modPort_at (d := e) hw p _, fun q hq => (port_of_ports hp q).trans (modPort_other (d := e) hw p _ hq)⟩

theorem lpiPartner_enter {d : Device} (hw : portsWf d) {p c : Nat} (hu : (d.port p).up = true) (hn : (d.port p).lpiRxAt = none) :
    (lpiPartner d p c true).port p = { d.port p with lpiRxAt := some (d.atCyc c).now } ∧
    ∀ q, q ≠ p → (lpiPartner d p c true).port q = d.port q := by
  unfold lpiPartner
  extract_lets e s lanes
  have hs : s.lpiRxAt = none := hn
  rw [hs]
  dsimp only
  rw [if_pos ⟨rfl, hu⟩]
  have hp : ∀ (x : Device) b, (lanes x b).ports = x.ports := fun x b => (lanes_loop_same (fun s => { s with rxLpi := b }) _ x).2
  rw [port_of_ports (hp _ _)]
  exact ⟨modPort_at (d := e) hw p _, fun q hq => (port_of_ports (hp _ _) q).trans (modPort_other (d := e) hw p _ hq)⟩

theorem lpiPartner_leave {d : Device} (hw : portsWf d) {p c t : Nat} (hn : (d.port p).lpiRxAt = some t) :
    (lpiPartner d p c false).port p = { d.port p with lpiRxAt := none } ∧
    ∀ q, q ≠ p → (lpiPartner d p c false).port q = d.port q := by
  unfold lpiPartner
  extract_lets e s lanes
  have hs : s.lpiRxAt = some t := hn
  rw [hs]
  dsimp only
  rw [if_neg (by decide)]
  have hp : ∀ (x : Device) b, (lanes x b).ports = x.ports := fun x b => (lanes_loop_same (fun s => { s with rxLpi := b }) _ x).2
  have cp := (portCount_same e p 18 ((e.now - t) / usT 1)).2.1
  have cw : portsWf (e.portCount p 18 ((e.now - t) / usT 1)) := (PortsStay.ofPorts cp).wf hw
  rw [port_of_ports (hp _ _), modPort_at cw, port_of_ports cp]
  exact ⟨rfl, fun q hq => (port_of_ports (hp _ _) q).trans ((modPort_other cw p _ hq).trans (port_of_ports cp q))⟩

/-- Settles O29. -/
theorem delayAndLowPower : Obligations.DelayAndLowPower := by
  unfold Obligations.DelayAndLowPower
  refine ⟨?exchange, ?response, ?otherResponse, ?answer, ?enter, ?exit, ?partnerEnters, ?partnerLeaves⟩
  case exchange =>
    intro s p c l raw t hck hp hc hl hw hu hn hm ht hx
    exact completes_clock (f := fun d => pdelayExchange d p c l raw) rfl
      (by simp [Instr.wf, hp, hc, hl]) hck (pdelayExchange_spec hw hu hn hm ht hx)
  case response =>
    intro s p c l raw seq id t2 t3 t1 hck hp hc hl hs hw ho hid
    subst hid
    exact completes_clock (f := fun d => pdelayRespReceive d p c l raw seq (s.dev.ptpIdentity p) t2 t3) rfl
      (by simp [Instr.wf, hp, hc, hs, hl]) hck (pdelayRespReceive_open hw ho)
  case otherResponse =>
    intro s p c l raw seq id t2 t3 hck hp hc hl hs h
    exact makes_clock (f := fun d => pdelayRespReceive d p c l raw seq id t2 t3) rfl
      (by simp [Instr.wf, hp, hc, hs, hl]) hck (pdelayRespReceive_other h)
  case answer =>
    intro s p c rl tl rr tr seq id corr hck hp hc hrl htl hs hw hu ht
    exact completes_clock (f := fun d => pdelayReqAnswer d p c rl rr tl tr seq id corr) rfl
      (by simp [Instr.wf, hp, hc, hs, hrl, htl]) hck (pdelayReqAnswer_spec hw hu ht)
  case enter =>
    intro s p c hck hp hc hw hu hn he hq hl hf hm hx
    exact completes_clock (f := fun d => lpiEnter d p c) rfl (by simp [Instr.wf, hp, hc]) hck (lpiEnter_spec hw hu hn he hq hl hf hm hx)
  case exit =>
    intro s p c hck hp hc hw hq
    refine completes_clock (f := fun d => lpiExit d p c) rfl (by simp [Instr.wf, hp, hc]) hck ?_
    have e : lpiExit s.dev p c = (s.dev.atCyc c).leaveLpiTx p :=
      if_pos (.inl (by simp [show (s.dev.atCyc c).queuesEmpty p = s.dev.queuesEmpty p from rfl, hq]))
    rw [e]
    exact (leaveLpiTx_spec (d := s.dev.atCyc c) hw p).2
  case partnerEnters =>
    intro s p c hck hp hc hw hu hn
    exact completes_clock (f := fun d => lpiPartner d p c true) rfl (by simp [Instr.wf, hp, hc]) hck (lpiPartner_enter hw hu hn)
  case partnerLeaves =>
    intro s p c t hck hp hc hw hn
    exact completes_clock (f := fun d => lpiPartner d p c false) rfl (by simp [Instr.wf, hp, hc]) hck (lpiPartner_leave hw hn)

end Sys2Proof.Machine

/-! The die-to-die links: training, replay, sleep, wake and slip (R88 to R94). -/

namespace Sys2Proof.Machine

theorem evict_keepLinks (d : Device) (h : FaultHist) : KeepLinks d (d.evict h) := by
  unfold Device.evict
  extract_lets e s
  split <;> exact ⟨rfl⟩

theorem track_keepLinks (d : Device) (pl : FaultPlace) : KeepLinks d (d.track pl) := by
  unfold Device.track
  extract_lets now old others oldest gone e
  have he : KeepLinks d e := by
    show KeepLinks d (match gone with | some h => d.evict h | none => d)
    cases gone with
    | none => exact .refl d
    | some h => exact evict_keepLinks d h
  exact ⟨he.links⟩

theorem tryStarts_keepLinks (ps : List Nat) (d : Device) : KeepLinks d (ps.foldl (fun d p => d.tryStart p) d) :=
  KeepLinks.foldl (f := fun d p => d.tryStart p) ps (fun _ p h => Device.tryStart_keepLinks p h) (.refl d)

theorem wakePort_keepLinks (d : Device) (p : Nat) : KeepLinks d (d.wakePort p) := by
  unfold Device.wakePort
  refine Device.restart_keepLinks p (KeepLinks.foldl _ (fun e l h => ?_) (.refl d))
  exact .ite (Device.laneTo_keepLinks _ _ h) h

theorem restartLink_keepLinks (d : Device) (k : Nat) : KeepLinks d (d.restartLink k) :=
  KeepLinks.foldl (f := fun d p => (d.wakePort p).settlePort p) _
    (fun e p h => Device.settlePort_keepLinks p (h.trans (wakePort_keepLinks e p))) (.refl d)

section
variable {d : Device} {k : Nat} (hw : tabWf (fun _ => ({} : LinkSt)) d.lane.links = true)
include hw

/-- The links after a step that leaves them all but one. -/
theorem linkSt_after {e : Device} {v : LinkSt} (h : KeepLinks (d.setLink k v) e) :
    e.linkSt k = v ∧ ∀ j, j ≠ k → e.linkSt j = d.linkSt j := by
  obtain ⟨hk, ho, -⟩ := setLink_at hw k v
  exact ⟨(linkSt_of_lane h.links k).trans hk, fun j hj => (linkSt_of_lane h.links j).trans (ho j hj)⟩

end

-- Training (R88, R90) -------------------------------------------------------------------------------------------------

theorem linkTrain_eq {d : Device} {k : Nat} {fo fi : List Nat} (h : (d.linkSt k).st ≠ .up) :
    ∃ x : Device, x = fi.foldl (fun d l => d.failedLane k 1 (l % 64)) (fo.foldl (fun d l => d.failedLane k 0 (l % 64)) d) ∧
      KeepLinks (x.setLink k { x.linkSt k with st := .up, retraining := false }) (linkTrain d k fo fi) := by
  refine ⟨_, rfl, ?_⟩
  unfold linkTrain
  rw [if_neg h]
  exact tryStarts_keepLinks _ _

theorem linkTrain_whole {d : Device} {k : Nat} (hw : tabWf (fun _ => ({} : LinkSt)) d.lane.links = true) (h : (d.linkSt k).st ≠ .up) :
    (linkTrain d k [] []).linkSt k = { d.linkSt k with st := .up, retraining := false } ∧
    ∀ j, j ≠ k → (linkTrain d k [] []).linkSt j = d.linkSt j := by
  obtain ⟨x, rfl, hk⟩ := linkTrain_eq (fo := []) (fi := []) h
  exact linkSt_after hw hk

theorem failedLane_repaired {d : Device} {k dir l j : Nat} (hw : tabWf (fun _ => ({} : LinkSt)) d.lane.links = true)
    (hr : (d.linkSt k).lanesRetired = false) (hs : spareOf ((d.linkSt k).repairs dir) l = none)
    (hj : freeSpare ((d.linkSt k).repairs dir) = some j) :
    tabWf (fun _ => ({} : LinkSt)) (d.failedLane k dir l).lane.links = true ∧
    (d.failedLane k dir l).linkSt k = (d.linkSt k).move dir j l := by
  rw [Device.failedLane, if_neg (by rw [hs]; decide)]
  exact repairLane_room hw dir 8 1 hr hj

theorem linkTrain_failed {d : Device} {k l j : Nat} (hw : tabWf (fun _ => ({} : LinkSt)) d.lane.links = true) (hl : l < 64)
    (h : (d.linkSt k).st ≠ .up) (hr : (d.linkSt k).lanesRetired = false) :
    (spareOf (d.linkSt k).repairOut l = none → freeSpare (d.linkSt k).repairOut = some j →
      ((linkTrain d k [l] []).linkSt k).st = .up ∧ ((linkTrain d k [l] []).linkSt k).repairOut = (d.linkSt k).repairOut ++ [(j, l)]) ∧
    (spareOf (d.linkSt k).repairIn l = none → freeSpare (d.linkSt k).repairIn = some j →
      ((linkTrain d k [] [l]).linkSt k).st = .up ∧ ((linkTrain d k [] [l]).linkSt k).repairIn = (d.linkSt k).repairIn ++ [(j, l)]) := by
  refine ⟨fun hs hj => ?_, fun hs hj => ?_⟩
  · obtain ⟨x, hx, hk⟩ := linkTrain_eq (fo := [l]) (fi := []) h
    obtain ⟨xw, xk⟩ := failedLane_repaired (dir := 0) hw hr hs hj
    rw [show x = d.failedLane k 0 l by rw [hx, List.foldl_nil, List.foldl_cons, List.foldl_nil, Nat.mod_eq_of_lt hl]] at hk
    rw [(linkSt_after xw hk).1, xk]
    exact ⟨rfl, rfl⟩
  · obtain ⟨x, hx, hk⟩ := linkTrain_eq (fo := []) (fi := [l]) h
    obtain ⟨xw, xk⟩ := failedLane_repaired (dir := 1) hw hr hs hj
    rw [show x = d.failedLane k 1 l by rw [hx, List.foldl_nil, List.foldl_cons, List.foldl_nil, Nat.mod_eq_of_lt hl]] at hk
    rw [(linkSt_after xw hk).1, xk]
    exact ⟨rfl, rfl⟩

/-- RETRAIN takes the link to clock lock, awake, and its ports down (R88, R94). -/
theorem lkCtrlWrite_retrain {d : Device} {k : Nat} (hw : tabWf (fun _ => ({} : LinkSt)) d.lane.links = true) (w : Word) :
    (lkCtrlWrite d k (F.D2D_LK_CTRL_RETRAIN.put w 1)).linkSt k = { d.linkSt k with
      st := .clockLock, retraining := true, outSleep := false, inSleep := false, retrainIn := d.strokeNo + 1 } ∧
    ∀ j, j ≠ k → (lkCtrlWrite d k (F.D2D_LK_CTRL_RETRAIN.put w 1)).linkSt j = d.linkSt j := by
  unfold lkCtrlWrite
  extract_lets a was test x y v z
  have hx : x.lane = d.lane := Device.setReg_lane d a _
  have xs : x.strokeNo = d.strokeNo := rfl
  have hy : y = x ∨ y = x.setLink k (((x.linkSt k).wake 0).wake 1) := by
    show (if _ then _ else _) = x ∨ (if _ then _ else _) = _
    split
    · exact .inr rfl
    · exact .inl rfl
  have hz : z = y.setLink k { ((y.linkSt k).wake 0).wake 1 with st := .clockLock, retraining := true, retrainIn := y.strokeNo + 1 } := rfl
  clear_value x y z
  rw [if_pos (show F.D2D_LK_CTRL_RETRAIN.get _ = 1 from Fld.get_put F.D2D_LK_CTRL_RETRAIN w 1 (by decide))]
  have xw : tabWf (fun _ => ({} : LinkSt)) x.lane.links = true := by rw [hx]; exact hw
  have xl : ∀ j, x.linkSt j = d.linkSt j := fun j => linkSt_of_lane (congrArg (·.links) hx) j
  obtain ⟨yk, yo, yw⟩ := setLink_at xw k (((x.linkSt k).wake 0).wake 1)
  have yl : ((y.linkSt k).wake 0).wake 1 = ((d.linkSt k).wake 0).wake 1 ∧ (∀ j, j ≠ k → y.linkSt j = d.linkSt j) ∧
      tabWf (fun _ => ({} : LinkSt)) y.lane.links = true ∧ y.strokeNo = d.strokeNo := by
    rcases hy with rfl | rfl
    · exact ⟨by rw [xl], fun j _ => xl j, xw, xs⟩
    · exact ⟨by rw [yk, xl]; rfl, fun j hj => (yo j hj).trans (xl j), yw, xs⟩
  obtain ⟨y1, y2, y3, y4⟩ := yl
  rw [y1, y4] at hz
  have hk := restartLink_keepLinks z k
  rw [hz] at hk ⊢
  obtain ⟨h1, h2⟩ := linkSt_after y3 hk
  exact ⟨h1, fun j hj => (h2 j hj).trans (y2 j hj)⟩

-- Replay (R89) --------------------------------------------------------------------------------------------------------

theorem d2dFlitReplay_charged {d : Device} {k dir l : Nat} {ok : Bool} (hw : tabWf (fun _ => ({} : LinkSt)) d.lane.links = true)
    (hd : dir < 2) (hl : l < 64) (hu : (d.linkSt k).st = .up)
    (hn : (((d.linkSt k).charged.filter fun e => d.clockNow < e.2 + secT 1) ++ [(64 * dir + l, d.clockNow)]).length < 16) :
    (d2dFlitReplay d k dir [l] ok).linkSt k = { d.linkSt k with
      charged := ((d.linkSt k).charged.filter fun e => d.clockNow < e.2 + secT 1) ++ [(64 * dir + l, d.clockNow)] } ∧
    ∀ j, j ≠ k → (d2dFlitReplay d k dir [l] ok).linkSt j = d.linkSt j := by
  unfold d2dFlitReplay
  rw [Nat.mod_eq_of_lt hd]
  extract_lets dir' x y
  rw [if_neg (by simp [hu])]
  have hy : KeepLinks d y ∧ y.clockNow = d.clockNow := by
    show KeepLinks d (if _ then _ else _) ∧ (if _ then _ else _ : Device).clockNow = _
    split
    · exact ⟨⟨rfl⟩, rfl⟩
    · exact ⟨⟨rfl⟩, rfl⟩
  clear_value y
  obtain ⟨ky, yn⟩ := hy
  rw [List.foldl_cons, List.foldl_nil]
  extract_lets l' now st z st'
  have hz : z = (y.track (d2dPlace k dir l)).setLink k { d.linkSt k with
      charged := ((d.linkSt k).charged.filter fun e => d.clockNow < e.2 + secT 1) ++ [(64 * dir + l, d.clockNow)] } := by
    show (y.track (d2dPlace k dir (l % 64))).setLink k { y.linkSt k with
      charged := ((y.linkSt k).charged.filter fun e => y.clockNow < e.2 + secT 1) ++ [(64 * dir + l % 64, y.clockNow)] } = _
    rw [Nat.mod_eq_of_lt hl, yn, linkSt_of_lane ky.links k]
  clear_value z
  subst hz
  generalize ((d.linkSt k).charged.filter fun e => d.clockNow < e.2 + secT 1) ++ [(64 * dir + l, d.clockNow)] = ch at hn st' ⊢
  have kt : KeepLinks d (y.track (d2dPlace k dir l)) := ky.trans (track_keepLinks y _)
  generalize y.track (d2dPlace k dir l) = t at kt st' ⊢
  have tw : tabWf (fun _ => ({} : LinkSt)) t.lane.links = true := by rw [kt.links]; exact hw
  obtain ⟨h1, h2, -⟩ := setLink_at tw k { d.linkSt k with charged := ch }
  have few : (t.setLink k { d.linkSt k with charged := ch }).replays k dir l' < 16 := by
    unfold Device.replays
    rw [h1]
    exact Nat.lt_of_le_of_lt (List.length_filter_le _ _) hn
  rw [if_pos few]
  exact ⟨h1, fun j hj => (h2 j hj).trans (linkSt_of_lane kt.links j)⟩

-- Slip (R93) ----------------------------------------------------------------------------------------------------------

section
variable {d : Device} {k : Nat} (hr : tabWf regReset d.file.regs = true)
include hr

theorem lkSlip_test (v : Word) : (d.setReg (ofLink A.D2D_LK_SLIP k) v).reg (ofLink A.D2D_LK_CTRL k) = d.reg (ofLink A.D2D_LK_CTRL k) :=
  Device.reg_setReg_other hr _ (by simp only [ofLink, A.D2D_LK_SLIP, A.D2D_LK_CTRL]; omega)

/-- GO outside TEST is refused. -/
theorem lkSlipWrite_refused {src : Source} (w : Word) (ht : F.D2D_LK_CTRL_TEST.get (d.reg (ofLink A.D2D_LK_CTRL k)) = 0) :
    lkSlipWrite d src k (F.D2D_LK_SLIP_GO.put w 1) =
      (d.setReg (ofLink A.D2D_LK_SLIP k) (F.D2D_LK_SLIP_GO.put w 1 &&& 0xFF#32)).refuse src (ofLink A.D2D_LK_SLIP k) := by
  rw [lkSlipWrite]
  dsimp only
  rw [if_neg (by rw [Fld.get_put _ _ _ (by decide)]; decide), if_pos (by rw [lkSlip_test hr, ht])]

/-- GO in TEST slips the lane that the word names. -/
theorem lkSlipWrite_slips {src : Source} {lane dir : Nat} (hl : lane < 68) (hd : dir < 2)
    (hw : tabWf (fun _ => ({} : LinkSt)) d.lane.links = true) (ht : F.D2D_LK_CTRL_TEST.get (d.reg (ofLink A.D2D_LK_CTRL k)) = 1) :
    (lkSlipWrite d src k (F.D2D_LK_SLIP_GO.put (BitVec.ofNat 32 (128 * dir + lane)) 1)).linkSt k = { d.linkSt k with
      slipped := tnatSet (d.linkSt k).slipped (128 * dir + lane) (tnat (d.linkSt k).slipped (128 * dir + lane) + 1) } := by
  have hlane : F.D2D_LK_SLIP_LANE.get (F.D2D_LK_SLIP_GO.put (BitVec.ofNat 32 (128 * dir + lane)) 1) = lane := by
    rw [Fld.get_put_other _ _ _ _ (by decide) (by decide)]
    simp only [Fld.get, bitsOf, F.D2D_LK_SLIP_LANE, BitVec.toNat_ofNat]
    omega
  have hdir : F.D2D_LK_SLIP_DIR.get (F.D2D_LK_SLIP_GO.put (BitVec.ofNat 32 (128 * dir + lane)) 1) = dir := by
    rw [Fld.get_put_other _ _ _ _ (by decide) (by decide)]
    simp only [Fld.get, bitsOf, F.D2D_LK_SLIP_DIR, BitVec.toNat_ofNat]
    omega
  rw [lkSlipWrite]
  dsimp only
  rw [if_neg (by rw [Fld.get_put _ _ _ (by decide)]; decide), if_neg (by rw [lkSlip_test hr, ht]; decide), hlane, hdir,
    if_neg (by omega)]
  exact (setLink_at (d := d.setReg (ofLink A.D2D_LK_SLIP k) _) hw k _).1

end

/-- Settles O30. -/
theorem linkEvents : Obligations.LinkEvents := by
  unfold Obligations.LinkEvents
  refine ⟨?train, ?failed, ?retrain, ?replay, ?charged, ?sleep, ?wake, ?slip, ?noSlip⟩
  case train =>
    intro s k hck hk hw h
    exact completes_clock (f := fun d => linkTrain d k [] []) rfl (by simp [Instr.wf, hk, dataLanesOk]) hck (linkTrain_whole hw h)
  case failed =>
    intro s k l j hck hk hl hw h hr
    obtain ⟨h1, h2⟩ := linkTrain_failed (j := j) hw hl h hr
    exact ⟨fun hs hj => completes_clock (f := fun d => linkTrain d k [l] []) rfl (by simp [Instr.wf, hk, hl, dataLanesOk]) hck (h1 hs hj),
      fun hs hj => completes_clock (f := fun d => linkTrain d k [] [l]) rfl (by simp [Instr.wf, hk, hl, dataLanesOk]) hck (h2 hs hj)⟩
  case retrain =>
    intro s src k w hg hk hw
    refine completes_run (f := fun d => busWrite d src (ofLink A.D2D_LK_CTRL k) 0xF (F.D2D_LK_CTRL_RETRAIN.put w 1)) rfl
      (by simp [Instr.wf, hk]) ?_
    rw [write_D2D_LK_CTRL hg hk]
    exact lkCtrlWrite_retrain hw w
  case replay =>
    intro s k dir ok hck hk hd hu
    refine makes_clock (f := fun d => d2dFlitReplay d k dir [] ok) rfl (by simp [Instr.wf, hk, hd, dataLanesOk]) hck ?_
    unfold d2dFlitReplay
    extract_lets dir' x y
    rw [if_neg (by simp [hu])]
    rfl
  case charged =>
    intro s k dir l ok hck hk hd hl hu hw hn
    exact completes_clock (f := fun d => d2dFlitReplay d k dir [l] ok) rfl (by simp [Instr.wf, hk, hd, hl, dataLanesOk]) hck
      (d2dFlitReplay_charged hw hd hl hu hn)
  case sleep =>
    intro s k dir hck hk hd hu hs hq
    refine makes_clock (f := fun d => d2dSleep d k dir) rfl (by simp [Instr.wf, hk, hd]) hck ?_
    rw [d2dSleep]
    dsimp only
    rw [Nat.mod_eq_of_lt hd, if_pos ⟨hu, hs, hq⟩]
  case wake =>
    intro s k dir hck hk hd hq
    refine makes_clock (f := fun d => d2dWake d k dir) rfl (by simp [Instr.wf, hk, hd]) hck ?_
    rw [d2dWake, Nat.mod_eq_of_lt hd, if_neg (by rw [hq]; decide)]
    rfl
  case slip =>
    intro s src k lane dir hg hk hl hd ht hr hw
    refine completes_run (f := fun d => busWrite d src (ofLink A.D2D_LK_SLIP k) 0xF
      (F.D2D_LK_SLIP_GO.put (BitVec.ofNat 32 (128 * dir + lane)) 1)) rfl (by simp [Instr.wf, hk]) ?_
    rw [write_D2D_LK_SLIP hg hk]
    exact lkSlipWrite_slips hr hl hd hw ht
  case noSlip =>
    intro s src k w hg hk ht hr
    refine makes_run (f := fun d => busWrite d src (ofLink A.D2D_LK_SLIP k) 0xF (F.D2D_LK_SLIP_GO.put w 1)) rfl
      (by simp [Instr.wf, hk]) ?_
    rw [write_D2D_LK_SLIP hg hk]
    exact lkSlipWrite_refused hr w ht

end Sys2Proof.Machine

/-! The Damper: the regulator's pin, the sensors, the thermal and pacing steps, and quench (R379 to R388). -/

namespace Sys2Proof.Machine

theorem episode_file (d : Device) (x old new : Nat) : ∃ f, d.episode x old new = { d with file := f } := by
  unfold Device.episode
  split
  · exact ⟨_, rfl⟩
  · exact ⟨d.file, rfl⟩

theorem thermalSensorRead_hottest {d : Device} {temps : List Nat} {h : Nat} (hm : h ∈ temps) (hle : ∀ t ∈ temps, t ≤ h) :
    thermalSensorRead d temps = { d with damper := { d.damper with
      tj := h % 256, tjPeak := max d.damper.tjPeak (h % 256), sensor := (temps.findIdx? fun t => t = h).getD 0 % 128 } } := by
  rw [thermalSensorRead, foldl_max_eq hm hle]

theorem thermalDemandStep_due {d : Device} (hm : d.matured d.damper.thermNext = true) :
    (thermalDemandStep d).damper.thermD =
      (if d.throttleC ≤ d.damper.tj then min (d.damper.thermD + 1) (levelMax d.profile.active)
        else if d.damper.tj + d.fld A.DAMPER_THERM_CFG F.DAMPER_THERM_CFG_HYST_C ≤ d.throttleC then d.damper.thermD - 1
        else d.damper.thermD) ∧
    (thermalDemandStep d).damper.thermNext = d.elapsed + msT 1 ∧ (thermalDemandStep d).damper.level = d.damper.level := by
  unfold thermalDemandStep
  extract_lets s m c h t x y z
  rw [if_neg (by rw [show d.matured s.thermNext = true from hm]; decide)]
  obtain ⟨f, hx⟩ := episode_file d 2 s.thermD t
  have hy : ∃ f, y = { d with file := f } := by
    show ∃ f, (if s.thermD = 0 ∧ 0 < t then x.raise 0x40000 4 else x) = { d with file := f }
    rw [show x = { d with file := f } from hx]
    obtain ⟨g, hg⟩ := Device.raise_file (d := { d with file := f }) 0x40000 4
    split
    · exact ⟨g, hg⟩
    · exact ⟨f, rfl⟩
  obtain ⟨g, hy⟩ := hy
  clear_value y
  subst hy
  exact ⟨rfl, rfl, rfl⟩

/-- A droop past DROOP_MV begins a quench. -/
theorem quenchStart_begins {d : Device} {c mv : Nat} (hq : d.damper.quench = false) (hm : (d.atCyc c).droopMv < mv) :
    quenchStart d ⟨c, mv⟩ = ({ d.atCyc c with damper := { d.damper with
      quench := true, quenched := true, quenchFrom := (d.atCyc c).now, quenchCyc := (d.atCyc c).absCyc } } : Device).raise 0x40000 5 :=
  if_neg fun h => h.elim (fun h => by simp [hq] at h) fun h => absurd h (Nat.not_le.2 hm)

theorem quenchRelease_ends {d : Device} {c : Nat} (hq : d.damper.quench = true)
    (hm : d.damper.quenchCyc + (d.atCyc c).holdCyc ≤ (d.atCyc c).absCyc) :
    (quenchRelease d c).damper.quench = false ∧ (quenchRelease d c).damper.quenched = d.damper.quenched ∧
    (quenchRelease d c).damper.level = d.damper.level ∧ (quenchRelease d c).stroke = (d.atCyc c).stroke ∧
    (quenchRelease d c).profile = d.profile := by
  have e : quenchRelease d c = (let x := (d.atCyc c).causeTime 4 ((d.atCyc c).now - d.damper.quenchFrom)
      { x with damper := { x.damper with quench := false } }) :=
    if_neg fun h => h.elim (fun h => by simp [hq] at h) fun h => absurd h (Nat.not_lt.2 hm)
  have k := Device.causeTime_keepDamp 4 ((d.atCyc c).now - d.damper.quenchFrom) (KeepDamp.refl (d.atCyc c))
  rw [e]
  exact ⟨rfl, k.quenched, k.level, k.stroke, k.profile⟩

/-- Settles O31. -/
theorem damperEvents : Obligations.DamperEvents := by
  unfold Obligations.DamperEvents
  refine ⟨?assert, fun s => makes_run (f := vrThrottleRelease) rfl rfl rfl, ?sensors, ?therm, ?pace, ?period, ?start, ?noStart,
    ?release, ?noRelease⟩
  case assert =>
    intro s hv hr
    refine completes_run (f := vrThrottleAssert) rfl rfl ?_
    rw [vrThrottleAssert, if_neg (by rw [hv]; decide)]
    exact ⟨irqSet_raise (d := { s.dev with damper := { s.dev.damper with vrLow := true, vrSeen := true } }) hr _ 3 (by decide),
      Device.raise_file _ _ _⟩
  case sensors =>
    intro s temps h hck hwf hm hle
    exact makes_clock (f := fun d => thermalSensorRead d temps) rfl hwf hck (thermalSensorRead_hottest hm hle)
  case therm =>
    intro s hck hm
    exact completes_clock (f := thermalDemandStep) rfl rfl hck (thermalDemandStep_due hm)
  case pace =>
    intro s hck hp hm
    exact makes_clock (f := paceLevelStep) rfl rfl hck (if_neg (by rw [hp, hm]; decide))
  case period =>
    intro s hck hp hn
    exact makes_clock (f := pacingPeriod) rfl rfl hck (if_neg (by simp [hp, hn]))
  case start =>
    intro s c mv hck hc hq hm hr
    refine completes_clock (f := fun d => quenchStart d ⟨c, mv⟩) rfl (by simp [Instr.wf, hc]) hck ?_
    rw [quenchStart_begins hq hm]
    exact ⟨Device.raise_damper _ _ _, irqSet_raise (d := { s.dev.atCyc c with damper := _ }) hr _ 5 (by decide),
      Device.raise_stroke _ _ _, Device.raise_profile _ _ _⟩
  case noStart =>
    intro s c mv hck hc h
    exact makes_clock (f := fun d => quenchStart d ⟨c, mv⟩) rfl (by simp [Instr.wf, hc]) hck (if_pos h)
  case release =>
    intro s c hck hc hq hm
    exact completes_clock (f := fun d => quenchRelease d c) rfl (by simp [Instr.wf, hc]) hck (quenchRelease_ends hq hm)
  case noRelease =>
    intro s c hck hc h
    exact makes_clock (f := fun d => quenchRelease d c) rfl (by simp [Instr.wf, hc]) hck
      (if_pos (h.imp (fun h => by simpa using h) fun h => h))

end Sys2Proof.Machine

/-! An uncorrectable error of an Upper Hall row: the unit's number in its place (R389, R401). -/

namespace Sys2Proof.Machine

/-- A device in RUN with nothing in it. -/
def idleRun : State := { State.reset with dev := { dev := { state := .run } } }

/-- Refutes O32: an Upper Hall row under a place whose `inst` is not 0 is taken under test twice: under that place, and as the
place of its cell, whose `inst` is 0. -/
theorem not_faultAndRepairEvents : ¬ Obligations.FaultAndRepairEvents := by
  unfold Obligations.FaultAndRepairEvents
  rintro ⟨-, -, lost, -⟩
  obtain ⟨t, he, -, ht, -⟩ := lost idleRun 1 1 0 rfl (by decide) (by decide) (by decide)
  have hd : t = { idleRun with dev := sramEccUncorrectable idleRun.dev ⟨1, 1, 0⟩ } := (Host.Outcome.next.inj he).symm
  have two : (sramEccUncorrectable idleRun.dev ⟨1, 1, 0⟩).ras.testing = [⟨1, 1, 0⟩, ⟨1, 0, 0⟩] := rfl
  rw [hd] at ht
  exact absurd (two.symm.trans ht) (by decide)

end Sys2Proof.Machine

/-! Frames at the receive MAC: what the table of frames holds as bytes come in (R21, R98, R111). -/

namespace Sys2Proof.Machine

-- The table of frames -------------------------------------------------------------------------------------------------

@[simp] theorem assoc_assocSet {α : Type} (t : List (Nat × α)) (k : Nat) (v : α) : assoc (assocSet t k v) k = some v := by
  induction t with
  | nil => simp [assocSet, assoc]
  | cons x t ih =>
    obtain ⟨j, w⟩ := x
    by_cases h : k = j <;> simp [assocSet, assoc, h, ih]

theorem assoc_append {α : Type} {t : List (Nat × α)} {k : Nat} (h : assoc t k = none) (v : α) : assoc (t ++ [(k, v)]) k = some v := by
  induction t with
  | nil => simp [assoc]
  | cons x t ih =>
    obtain ⟨j, w⟩ := x
    by_cases hj : k = j
    · simp [assoc, hj] at h
    · simp only [assoc, hj, if_false] at h
      simp [assoc, hj, ih h]

theorem frame_setFrame (d : Device) (f : Frame) : (d.setFrame f).frame f.id = some f := assoc_assocSet _ _ _

theorem modFrame_of_frame {d : Device} {id : Nat} {f : Frame} (h : d.frame id = some f) (g : Frame → Frame) :
    d.modFrame id g = d.setFrame (g f) := by
  rw [Device.modFrame, h]

-- Bytes that come in (R98, R242) --------------------------------------------------------------------------------------

/-- The frame has the bytes, the port and the time that it had. -/
structure SameBytes (f g : Frame) : Prop where
  id : g.id = f.id
  gal : g.gal = f.gal
  inPort : g.inPort = f.inPort
  raw : g.raw = f.raw
  start : g.start = f.start
  iclass : g.iclass = f.iclass
  maxFrame : g.maxFrame = f.maxFrame
  ended : g.ended = f.ended

theorem SameBytes.refl (f : Frame) : SameBytes f f := ⟨rfl, rfl, rfl, rfl, rfl, rfl, rfl, rfl⟩

theorem SameBytes.trans {f g h : Frame} (a : SameBytes f g) (b : SameBytes g h) : SameBytes f h :=
  ⟨b.id.trans a.id, b.gal.trans a.gal, b.inPort.trans a.inPort, b.raw.trans a.raw, b.start.trans a.start, b.iclass.trans a.iclass,
    b.maxFrame.trans a.maxFrame, b.ended.trans a.ended⟩

/-- What a frame's bytes leave of the device: the numbering, the ports that receive, and the Upper Hall. -/
structure KeepRx (d e : Device) : Prop where
  nextId : e.pkt.nextId = d.pkt.nextId
  receiving : e.pkt.receiving = d.pkt.receiving
  hall : e.hall = d.hall

theorem KeepRx.refl (d : Device) : KeepRx d d := ⟨rfl, rfl, rfl⟩

theorem KeepRx.trans {a b c : Device} (h : KeepRx a b) (k : KeepRx b c) : KeepRx a c :=
  ⟨k.nextId.trans h.nextId, k.receiving.trans h.receiving, k.hall.trans h.hall⟩

theorem secTry_frame {d : Device} {id : Nat} {f : Frame} (h : d.frame id = some f) (hi : f.id = id) :
    (∃ g, (d.secTry id).frame id = some g ∧ SameBytes f g) ∧ KeepRx d (d.secTry id) ∧ (d.secTry id).pkt.flights = d.pkt.flights := by
  subst hi
  unfold Device.secTry
  rw [h]
  dsimp only
  split
  · exact ⟨⟨f, h, .refl f⟩, .refl d, rfl⟩
  · split
    · exact ⟨⟨_, frame_setFrame d { f with secOpen := false }, ⟨rfl, rfl, rfl, rfl, rfl, rfl, rfl, rfl⟩⟩, ⟨rfl, rfl, rfl⟩, rfl⟩
    · next k _ =>
      exact ⟨⟨_, frame_setFrame d { f with
        secOpen := false, sec := some k, bytes := f.bytes.take 12 ++ f.bytes.drop (12 + k.tag) }, ⟨rfl, rfl, rfl, rfl, rfl, rfl, rfl, rfl⟩⟩,
        ⟨rfl, rfl, rfl⟩, rfl⟩

theorem isControl_short {bs : Bytes} (h : bs.length < 14) : isControl bs = false := by
  simp [isControl, Nat.not_le.2 h]

theorem ownPdelay_short (d : Device) (p : Nat) {bs : Bytes} (h : bs.length < 15) : d.ownPdelay p bs = none :=
  if_neg fun k => absurd k.1 (Nat.not_le.2 h)

theorem Frame.plain_length (f : Frame) : f.plain.length ≤ f.raw.length := by
  unfold Frame.plain
  split
  · rw [List.length_append, List.length_take, List.length_drop]
    omega
  · exact Nat.le_refl _

theorem takeOwn_frame {d : Device} {id : Nat} {f : Frame} (h : d.frame id = some f) (hi : f.id = id) :
    (∃ g, (d.takeOwn id).frame id = some g ∧ SameBytes f g) ∧ KeepRx d (d.takeOwn id) ∧
    (f.raw.length < 14 → (d.takeOwn id).pkt.flights = d.pkt.flights) := by
  subst hi
  unfold Device.takeOwn
  rw [h]
  dsimp -zeta only
  by_cases hc : f.consumed = true
  · rw [if_pos hc]
    exact ⟨⟨f, h, .refl f⟩, .refl d, fun _ => rfl⟩
  · rw [if_neg hc]
    extract_lets own
    have short : f.raw.length < 14 → own = none := fun hl => by
      show (match d.ownPdelay f.inPort f.raw with | some o => some o | none => if f.secOpen then none else d.ownPdelay f.inPort f.plain) = none
      rw [ownPdelay_short d _ (by omega), ownPdelay_short d _ (by have := f.plain_length; omega)]
      exact ite_self _
    clear_value own
    split
    · next ho =>
      refine ⟨⟨_, frame_setFrame (d.endFlight f.id) { f with consumed := true, ptpOfs := own }, ⟨rfl, rfl, rfl, rfl, rfl, rfl, rfl, rfl⟩⟩,
        ⟨rfl, rfl, rfl⟩, fun hl => ?_⟩
      rw [isControl_short hl, short hl] at ho
      exact absurd ho (by decide)
    · exact ⟨⟨f, h, .refl f⟩, .refl d, fun _ => rfl⟩

theorem secTry_takeOwn_frame {d : Device} {id : Nat} {f : Frame} (h : d.frame id = some f) (hi : f.id = id) :
    (∃ g, ((d.secTry id).takeOwn id).frame id = some g ∧ SameBytes f g) ∧ KeepRx d ((d.secTry id).takeOwn id) ∧
    (f.raw.length < 14 → ((d.secTry id).takeOwn id).pkt.flights = d.pkt.flights) := by
  obtain ⟨⟨g1, h1, s1⟩, k1, f1⟩ := secTry_frame h hi
  obtain ⟨⟨g2, h2, s2⟩, k2, f2⟩ := takeOwn_frame h1 (s1.id.trans hi)
  exact ⟨⟨g2, h2, s1.trans s2⟩, k1.trans k2, fun hl => (f2 (by rw [s1.raw]; exact hl)).trans f1⟩

/-- Bytes that come in lengthen the frame, up to its MAX_FRAME. -/
theorem addBytes_frame {d : Device} {id : Nat} {f : Frame} (h : d.frame id = some f) (hi : f.id = id) (bs : Bytes) :
    (∃ g, (d.addBytes id bs).frame id = some g ∧ SameBytes { f with raw := f.raw ++ bs.take (f.maxFrame - f.raw.length) } g) ∧
    KeepRx d (d.addBytes id bs) ∧
    ((f.raw ++ bs.take (f.maxFrame - f.raw.length)).length < 14 → (d.addBytes id bs).pkt.flights = d.pkt.flights) := by
  obtain ⟨f', e, hs, hf'⟩ : ∃ f' : Frame, d.addBytes id bs = ((d.setFrame f').secTry id).takeOwn id ∧
      SameBytes { f with raw := f.raw ++ bs.take (f.maxFrame - f.raw.length) } f' ∧ f'.id = id := by
    unfold Device.addBytes
    rw [modFrame_of_frame h]
    exact ⟨_, rfl, ⟨rfl, rfl, rfl, rfl, rfl, rfl, rfl, rfl⟩, hi⟩
  obtain ⟨⟨g, hg, hsg⟩, k, hfl⟩ := secTry_takeOwn_frame (hf' ▸ frame_setFrame d f') hf'
  rw [e]
  exact ⟨⟨g, hg, hs.trans hsg⟩, ⟨k.nextId, k.receiving, k.hall⟩, fun hl => hfl (by rw [hs.raw]; exact hl)⟩

-- A frame begins and grows --------------------------------------------------------------------------------------------

/-- A frame that begins: its record, its header, and its first bytes. -/
theorem frameReceiveStart_begins {s d : Device} {p c lane : Nat} {raw : Int} {bs : Bytes} (hd : s.atStage c = d)
    (hr : d.receives p = true) (hn : d.receivingOn p = none) (hf : d.frame d.pkt.nextId = none) : ∃ (g : Device) (f : Frame),
      g.frame d.pkt.nextId = some f ∧ f.id = d.pkt.nextId ∧ f.inPort = p ∧ f.gal = p / 32 ∧ f.raw = bs.take (d.maxFrame p) ∧
      f.start = d.absCyc ∧ f.iclass = d.portClass p ∧ f.maxFrame = d.maxFrame p ∧ f.ended = false ∧
      g.pkt.nextId = d.pkt.nextId + 1 ∧ g.pkt.receiving = d.pkt.receiving ++ [(p, d.pkt.nextId)] ∧ g.hall = d.hall ∧
      (bs.length < 14 → g.pkt.flights = d.pkt.flights ++
        [{ id := d.pkt.nextId, gal := p / 32, src := .port p, ready := d.absCyc, iclass := d.portClass p }]) ∧
      frameReceiveStart s p c lane raw true bs = if d.maxFrame p < bs.length then g.oversized f else g := by
  unfold frameReceiveStart
  extract_lets d'
  have hd' : d' = d := hd
  clear_value d'
  subst hd'
  rw [if_neg (by simp [hr, hn]), if_neg (by decide)]
  obtain ⟨a, b, k, h⟩ := stampAt_shape d' p lane raw true
  rw [h]
  dsimp -zeta only
  extract_lets id cls f x pk y ol z
  have hy : y.frame id = some f := assoc_append (t := d'.pkt.frames) hf f
  obtain ⟨⟨g, hg, hs⟩, hk, hfl⟩ := addBytes_frame hy rfl bs
  refine ⟨z, g, hg, hs.id, hs.inPort, hs.gal, by rw [hs.raw]; rfl, hs.start, hs.iclass, hs.maxFrame, hs.ended, hk.nextId, hk.receiving,
    hk.hall, fun hl => hfl ?_, ?_⟩
  · show ([] ++ bs.take _).length < 14
    rw [List.nil_append, List.length_take]
    omega
  · show (match z.frame id with | some f => if ol then z.oversized f else z | none => z) = _
    rw [show z.frame id = some g from hg]
    have ho : ol = decide (d'.maxFrame p < bs.length) := by
      show decide (d'.maxFrame p < 0 + bs.length) = _
      rw [Nat.zero_add]
    rw [ho]
    simp only [decide_eq_true_eq]

theorem parseResume_grows {s d : Device} {p c : Nat} {bs : Bytes} {f : Frame} (hd : s.atStage c = d)
    (hr : d.receivingOn p = some f) (hf : d.frame f.id = some f) : ∃ g, (d.addBytes f.id bs).frame f.id = some g ∧
      g.raw = f.raw ++ bs.take (f.maxFrame - f.raw.length) ∧ g.inPort = f.inPort ∧ g.start = f.start ∧
      parseResume s p c bs = if f.maxFrame < f.raw.length + bs.length then (d.addBytes f.id bs).oversized g
        else (d.addBytes f.id bs).pushBytes f.id := by
  obtain ⟨⟨g, hg, hs⟩, -, -⟩ := addBytes_frame hf rfl bs
  refine ⟨g, hg, hs.raw, hs.inPort, hs.start, ?_⟩
  unfold parseResume
  rw [hd]
  dsimp only
  rw [hr]
  dsimp only
  rw [hg]
  dsimp only
  rw [hs.id]
  simp only [Frame.exceeds, decide_eq_true_eq]

/-- Settles O39. -/
theorem framesBegin : Obligations.FramesBegin := by
  unfold Obligations.FramesBegin
  refine ⟨?noDelimiter, ?begins, ?grows, ?nothing⟩
  case noDelimiter =>
    intro s d p c lane raw bs hwf hck hd hr hn
    refine makes_clock (f := fun d => frameReceiveStart d p c lane raw false bs) rfl hwf hck ?_
    unfold frameReceiveStart
    rw [hd]
    dsimp only
    rw [if_neg (by simp [hr, hn]), if_pos (by decide)]
  case begins =>
    intro s d p c lane raw bs hwf hck hd hr hn hf
    exact completes_clock (f := fun d => frameReceiveStart d p c lane raw true bs) rfl hwf hck (frameReceiveStart_begins hd hr hn hf)
  case grows =>
    intro s d p c bs f hwf hck hd hr hf
    exact completes_clock (f := fun d => parseResume d p c bs) rfl hwf hck (parseResume_grows hd hr hf)
  case nothing =>
    intro s d p c bs hwf hck hd hr
    refine makes_clock (f := fun d => parseResume d p c bs) rfl hwf hck ?_
    unfold parseResume
    rw [hd]
    dsimp only
    rw [hr]

end Sys2Proof.Machine

/-! Frames that end at the receive MAC, and the integrity check that follows (R98, R99, R242, R247, R248). -/

namespace Sys2Proof.Machine

/-- The frame that ends, with its last bytes. -/
theorem frameEnds_raw {d b : Device} {f0 f : Frame} {bs : Bytes} (h0 : d.frame f0.id = some f0)
    (hb : (((d.modFrame f0.id fun f => { f with ended := true }).endReceiving f0.id).addBytes f0.id bs) = b)
    (hf : b.frame f0.id = some f) : f.raw = f0.raw ++ bs.take (f0.maxFrame - f0.raw.length) := by
  rw [modFrame_of_frame h0] at hb
  obtain ⟨⟨g, hg, hs⟩, -, -⟩ := addBytes_frame (d := (d.setFrame { f0 with ended := true }).endReceiving f0.id)
    (frame_setFrame d { f0 with ended := true }) rfl bs
  rw [hb, hf] at hg
  cases hg
  exact hs.raw

/-- Counting does not change what programmable counters see of a packet. -/
theorem evOf_portCount (d : Device) (p x n : Nat) (f : Frame) (k : Nat) (c : Bool) : (d.portCount p x n).evOf f k c = d.evOf f k c := by
  unfold Device.portCount
  split <;> rfl

/-- What becomes of a frame once its last bytes are in (R98, R99). -/
def Device.endOf (b : Device) (p : Nat) (f0 f : Frame) (long bad : Bool) : Device :=
  if f.raw.length < 64 then (b.portCount p 3 1).failFrame f0.id 0x24
  else if long then b.oversized f
  else if bad ∨ !fcsGood f.raw then (b.portCount p 2 1).failFrame f0.id 0x22
  else if beAt f.raw 12 2 = 0x8808 then ((b.macControl p f.raw).modFrame f0.id fun f => { f with checked := true }).releaseFrame f0.id
  else
    let g := (((b.portCount p 0 1).portCount p 1 f.raw.length).event (some (p / 32)) 0x1003 f.raw.length (some p)
      (((b.portCount p 0 1).portCount p 1 f.raw.length).evOf f 0 false)).secDecide f0.id
    Device.frameComplete (match g.frame f0.id with
      | some f => if g.unchecked f then g.setFrame { f with checked := true } else g
      | none => g) f0.id

theorem frameReceiveEnd_eq {s d b : Device} {p c : Nat} {bs : Bytes} {cws : List (Nat × Nat)} {bad : Bool} {f0 f : Frame}
    (hd : (if ((s.atStage c).port p).up then (s.atStage c).codewords p cws else (s.atStage c, false)) = (d, bad))
    (hr : d.receivingOn p = some f0)
    (hb : (((d.modFrame f0.id fun f => { f with ended := true }).endReceiving f0.id).addBytes f0.id bs) = b)
    (hf : b.frame f0.id = some f) :
    frameReceiveEnd s p c bs cws = b.endOf p f0 f (decide (f0.maxFrame < f0.raw.length + bs.length)) bad := by
  unfold frameReceiveEnd
  extract_lets d'
  rw [show (if (d'.port p).up then d'.codewords p cws else (d', false)) = (d, bad) from hd]
  dsimp -zeta only
  rw [hr]
  dsimp only
  rw [hb, hf]
  rfl

/-- With no frame on the port nothing ends. -/
theorem frameReceiveEnd_none {s d : Device} {p c : Nat} {bs : Bytes} {cws : List (Nat × Nat)} {bad : Bool}
    (hd : (if ((s.atStage c).port p).up then (s.atStage c).codewords p cws else (s.atStage c, false)) = (d, bad))
    (hr : d.receivingOn p = none) : frameReceiveEnd s p c bs cws = d := by
  unfold frameReceiveEnd
  extract_lets d'
  rw [show (if (d'.port p).up then d'.codewords p cws else (d', false)) = (d, bad) from hd]
  dsimp -zeta only
  rw [hr]

section
variable {b : Device} {p : Nat} {f0 f : Frame} {long bad : Bool}

theorem endOf_short (h : f.raw.length < 64) : b.endOf p f0 f long bad = (b.portCount p 3 1).failFrame f0.id 0x24 := if_pos h

theorem endOf_long (h : 64 ≤ f.raw.length) : b.endOf p f0 f true bad = b.oversized f :=
  (if_neg (Nat.not_lt.2 h)).trans (if_pos rfl)

variable (h : 64 ≤ f.raw.length)
include h

theorem endOf_bad (hb : bad = true ∨ fcsGood f.raw = false) :
    b.endOf p f0 f false bad = (b.portCount p 2 1).failFrame f0.id 0x22 := by
  rw [Device.endOf, if_neg (Nat.not_lt.2 h), if_neg (by decide), if_pos (by simpa using hb)]

variable (hb : bad = false) (hg : fcsGood f.raw = true)
include hb hg

theorem endOf_control (hc : beAt f.raw 12 2 = 0x8808) : b.endOf p f0 f false bad =
    ((b.macControl p f.raw).modFrame f0.id fun f => { f with checked := true }).releaseFrame f0.id := by
  rw [Device.endOf, if_neg (Nat.not_lt.2 h), if_neg (by decide), if_neg (by simp [hb, hg]), if_pos hc]

/-- A good frame that is no MAC control frame is counted, judged and completed. -/
theorem endOf_good (hc : beAt f.raw 12 2 ≠ 0x8808) : ∃ g : Device,
    g = (((b.portCount p 0 1).portCount p 1 f.raw.length).event (some (p / 32)) 0x1003 f.raw.length (some p)
      (b.evOf f 0 false)).secDecide f0.id ∧
    (g.frame f0.id = none → b.endOf p f0 f false bad = g.frameComplete f0.id) ∧
    ∀ f1, g.frame f0.id = some f1 →
      b.endOf p f0 f false bad = (if g.unchecked f1 then g.setFrame { f1 with checked := true } else g).frameComplete f0.id := by
  rw [Device.endOf, if_neg (Nat.not_lt.2 h), if_neg (by decide), if_neg (by simp [hb, hg]), if_neg hc,
    evOf_portCount, evOf_portCount]
  extract_lets g
  refine ⟨g, rfl, fun hn => ?_, fun f1 h1 => ?_⟩
  · rw [hn]
  · rw [h1]

end

-- The integrity check (R242, R247, R248) ------------------------------------------------------------------------------

/-- The check of a frame's association, and whether the frame fails by it (R242, R247). -/
def Device.icvJudge (d : Device) (f : Frame) : Device × Bool :=
  match f.sec with
  | none => (d, false)
  | some k =>
    if k.key.isNone then (d, false)
    else if k.verifies f.raw then ((d.count (integCnt f.gal 0)).rxAdvance f.gal k, false)
    else (if k.strict then (d.count (integCnt f.gal 1)).raise (galBase f.gal 9) 2 else d.count (integCnt f.gal 1), k.strict)

/-- The check of a PTP message in it, and the frame's end (R248). -/
def Device.icvFinish (d : Device) (p id : Nat) (f : Frame) (auth bad : Bool) : Device :=
  if bad then d.failFrame id 0x70
  else
    let r : Device × Option Bool := match f.ptpOfs with
      | some o => if auth then d.ptpCheck p f.plain o f.start f.integSeq else (d, none)
      | none => (d, none)
    if r.2 = some false then (r.1.modFrame id fun f => { f with ptpOk := r.2 }).failFrame id 0x70
    else (r.1.modFrame id fun f => { f with ptpOk := r.2, checked := true }).releaseFrame id

/-- The parse of the packet has not passed yet. -/
def Device.unparsed (d : Device) (id : Nat) : Bool :=
  ((d.flight id).map fun x => decide (x.pass = 0) && (x.phase == .ready || x.phase == .parsing)).getD false

section
variable {d : Device} {p id : Nat} {f : Frame}

theorem icvCheckResult_eq {s : Device} {c : Nat} (hd : s.atStage c = d)
    (hf : (d.pkt.frames.find? fun e => e.2.inPort = p ∧ e.2.rx ∧ e.2.ended ∧ !e.2.checked) = some (id, f)) :
    icvCheckResult s p c = if d.ptpAuth f.integSeq p ∧ d.unparsed id then d
      else (d.icvJudge f).1.icvFinish p id f (d.ptpAuth f.integSeq p) (d.icvJudge f).2 := by
  unfold icvCheckResult
  rw [hd]
  dsimp only
  rw [hf]
  rfl

theorem icvFinish_bad (auth : Bool) : d.icvFinish p id f auth true = d.failFrame id 0x70 := if_pos rfl

/-- With no PTP authentication a frame that does not fail is released. -/
theorem icvFinish_good : d.icvFinish p id f false false =
    (d.modFrame id fun f => { f with ptpOk := none, checked := true }).releaseFrame id := by
  rw [Device.icvFinish, if_neg (by decide)]
  cases f.ptpOfs <;> rfl

/-- A PTP message is authenticated. -/
theorem icvFinish_ptp {o : Nat} {ok : Option Bool} {g : Device} (ho : f.ptpOfs = some o)
    (hc : d.ptpCheck p f.plain o f.start f.integSeq = (g, ok)) : d.icvFinish p id f true false =
      if ok = some false then (g.modFrame id fun f => { f with ptpOk := ok }).failFrame id 0x70
      else (g.modFrame id fun f => { f with ptpOk := ok, checked := true }).releaseFrame id := by
  rw [Device.icvFinish, if_neg (by decide), ho]
  dsimp only
  rw [if_pos rfl, hc]

theorem icvJudge_none (h : f.sec = none) : d.icvJudge f = (d, false) := by
  rw [Device.icvJudge, h]

variable {k : RxCheck} (hs : f.sec = some k) (hk : k.key.isSome = true)
include hs hk

theorem icvJudge_good (hv : k.verifies f.raw = true) : d.icvJudge f = ((d.count (integCnt f.gal 0)).rxAdvance f.gal k, false) := by
  rw [Device.icvJudge, hs]
  dsimp only
  rw [if_neg (by simp [Option.isNone_eq_false_iff.2 hk]), if_pos hv]

theorem icvJudge_bad (hv : k.verifies f.raw = false) : d.icvJudge f =
    (if k.strict then (d.count (integCnt f.gal 1)).raise (galBase f.gal 9) 2 else d.count (integCnt f.gal 1), k.strict) := by
  rw [Device.icvJudge, hs]
  dsimp only
  rw [if_neg (by simp [Option.isNone_eq_false_iff.2 hk]), if_neg (by simp [hv])]

end

/-- Settles O40. -/
theorem framesEnd : Obligations.FramesEnd := by
  unfold Obligations.FramesEnd
  refine ⟨?ends, ?nothing, ?check⟩
  case ends =>
    intro s d b p c bs cws bad f0 f hwf hck hd hr h0 hb hf
    have e := frameReceiveEnd_eq hd hr hb hf
    have make : ∀ x, b.endOf p f0 f (decide (f0.maxFrame < f0.raw.length + bs.length)) bad = x →
        Makes (.frameReceiveEnd p c bs cws) s fun _ => x := fun x hx =>
      makes_clock (f := fun d => frameReceiveEnd d p c bs cws) rfl hwf hck (e.trans hx)
    refine ⟨frameEnds_raw h0 hb hf, fun h => make _ (endOf_short h), fun h hl => make _ ?_, fun h hl => ?_⟩
    · rw [decide_eq_true hl]
      exact endOf_long h
    · rw [decide_eq_false (Nat.not_lt.2 hl)] at make e
      refine ⟨fun hx => make _ (endOf_bad h hx), fun hx hg => ⟨fun hc => make _ (endOf_control h hx hg hc), fun hc => ?_⟩⟩
      refine completes_clock (f := fun d => frameReceiveEnd d p c bs cws) rfl hwf hck ?_
      rw [e]
      exact endOf_good h hx hg hc
  case nothing =>
    intro s d p c bs cws bad hwf hck hd hr
    exact makes_clock (f := fun d => frameReceiveEnd d p c bs cws) rfl hwf hck (frameReceiveEnd_none hd hr)
  case check =>
    intro s d p c id f hwf hck hd hf
    have make : ∀ x, (if d.ptpAuth f.integSeq p ∧ d.unparsed id then d
        else (d.icvJudge f).1.icvFinish p id f (d.ptpAuth f.integSeq p) (d.icvJudge f).2) = x →
        Makes (.icvCheckResult p c) s fun _ => x := fun x hx =>
      makes_clock (f := fun d => icvCheckResult d p c) rfl hwf hck ((icvCheckResult_eq hd hf).trans hx)
    have plain : d.ptpAuth f.integSeq p = false → ∀ x, (d.icvJudge f).1.icvFinish p id f false (d.icvJudge f).2 = x →
        Makes (.icvCheckResult p c) s fun _ => x := fun ha x hx =>
      make x (by rw [ha, if_neg (by simp), hx])
    refine ⟨fun k hs hk hv hst ha => plain ha _ ?_, fun k hs hk hv hst ha => plain ha _ ?_, fun k hs hk hv ha => plain ha _ ?_,
      fun hs ha => plain ha _ ?_, fun o ok g hs ha hx ho hc => make _ ?_, fun x ha hx h0 hp => make _ ?_⟩
    · rw [icvJudge_bad hs hk hv, hst, if_pos rfl]
      exact icvFinish_bad false
    · rw [icvJudge_bad hs hk hv, hst, if_neg (by decide)]
      exact icvFinish_good
    · rw [icvJudge_good hs hk hv]
      exact icvFinish_good
    · rw [icvJudge_none hs]
      exact icvFinish_good
    · rw [icvJudge_none hs, ha, if_neg (by simp [Device.unparsed, hx])]
      exact icvFinish_ptp ho hc
    · refine if_pos ⟨ha, ?_⟩
      rcases hp with hp | hp <;> simp [Device.unparsed, hx, h0, hp]

end Sys2Proof.Machine

/-! A header whose class is beyond the sixteen: the class's configuration word is then any word of the gallery (R113, R368). -/

namespace Sys2Proof.Machine

/-- The device that a command on the core clock leaves. -/
theorem dev_of_clock {c : Instr} {s t : State} {f : Device → Device} (he : exec c s = s.onClock c f) (hw : c.wf = true)
    (hc : s.dev.clocked = true) (ht : exec c s = .next t) : t.dev = f s.dev := by
  rw [he, onClock_eq hw hc] at ht
  cases ht
  rfl

/-- With the SecTAG still looked for the parse leaves all as it is (R242). -/
theorem runParse_open {d : Device} {id : Nat} {x : Flight} {f : Frame} (hx : d.flight id = some x) (hf : d.frame id = some f)
    (ho : f.secOpen = true) (hd : f.ended = false) : d.runParse id = d := by
  have step : d.parseStep id = d := by
    rw [Device.parseStep, hx, hf]
    exact if_pos ho
  rw [Device.runParse, step, Device.completeChecks, hf]
  exact if_pos (.inl (by rw [hd]; rfl))

/-- The packets are as they were. -/
structure KeepPkt (d e : Device) : Prop where
  pkt : e.pkt = d.pkt

theorem KeepPkt.refl (d : Device) : KeepPkt d d := ⟨rfl⟩

theorem KeepPkt.trans {a b c : Device} (h : KeepPkt a b) (k : KeepPkt b c) : KeepPkt a c := ⟨k.pkt.trans h.pkt⟩

theorem KeepPkt.ite {d a b : Device} {c : Prop} [Decidable c] (ha : KeepPkt d a) (hb : KeepPkt d b) : KeepPkt d (if c then a else b) := by
  split
  · exact ha
  · exact hb

theorem KeepPkt.foldl {α : Type} {f : Device → α → Device} (h : ∀ e x, KeepPkt e (f e x)) (l : List α) (d : Device) :
    KeepPkt d (l.foldl f d) := by
  induction l generalizing d with
  | nil => exact .refl d
  | cons x t ih => exact (h d x).trans (ih _)

theorem pushSample_keepPkt (d : Device) (n : Nat) (s : Sample) : KeepPkt d (d.pushSample n s) := by
  unfold Device.pushSample
  extract_lets l e
  exact .ite ⟨Device.raise_pkt _ _ _⟩ (.ite ⟨Device.raise_pkt _ _ _⟩ ⟨rfl⟩)

/-- A header that names the samples that wait leaves every packet as it was. -/
theorem skidHeader_keepPkt (d : Device) (n c : Nat) (p : EvPkt) : KeepPkt d (d.skidHeader n c p) := by
  unfold Device.skidHeader
  extract_lets mine now first pf e
  have he : KeepPkt d e := ⟨rfl⟩
  exact he.trans (.foldl (fun x s => .ite (pushSample_keepPkt x n _) (pushSample_keepPkt x n _)) mine e)

/-- The header that waits in `oddClass`: the CFG word of its class is IRQ_STAT of the gallery's counters. -/
def oddHeader : Flight := { id := 0, gal := 0, src := .port 0, ready := 0, iclass := 0x8FE1 }

def oddFrame : Frame := { id := 0, gal := 0, inPort := 0, secOpen := true }

/-- A device in RUN with one header waiting, the counters of gallery 0 frozen, and a sample of it that waits for a header. -/
def oddClass : State := { State.reset with dev := {
  dev := { state := .run }
  pkt := { frames := [(0, oddFrame)], flights := [oddHeader] }
  file := { regs := [(A.GCNT_PC_GCTL 0, 1#32)] }
  perf := { skids := [⟨0, 0, 0, 0⟩] } } }

/-- The header of `oddClass` is accepted with the start state that IRQ_STAT then gives, and its parse waits. -/
theorem oddClass_start : ∃ x, (headerAccept oddClass.dev 0 0).flight 0 = some x ∧ x.start = 1 := by
  unfold headerAccept
  extract_lets d
  have hd : d = oddClass.dev := rfl
  clear_value d
  subst hd
  rw [if_neg (by decide), show oddClass.dev.nextHeader 0 = some oddHeader from rfl]
  dsimp -zeta only
  rw [if_neg (by decide), show oddClass.dev.frame oddHeader.id = some oddFrame from rfl]
  dsimp -zeta only
  extract_lets st ev0 ev d2 x d3
  have hd2 : d2 = st.skidHeader 0 0 ev := by
    show (st.event (some 0) 0x1001 1 (some 0) ev).skidHeader 0 0 ev = _
    rw [show st.event (some 0) 0x1001 1 (some 0) ev = st from if_pos (.inl (by decide))]
  have hreg : d2.cfg 0x10b0010 = 1#32 := by
    rw [hd2]
    decide
  have hp : d2.pkt = st.pkt := by rw [hd2, (skidHeader_keepPkt _ _ _ _).pkt]
  clear_value d2
  have hx : x.start = 1 := by
    show F.PARSE_IC_CFG_START.get (d2.cfg (A.PARSE_IC_CFG 0 0x8FE1)) = 1
    rw [show A.PARSE_IC_CFG 0 0x8FE1 = 0x10b0010 from rfl, hreg]
    rfl
  have hi : x.id = 0 := rfl
  clear_value x
  have hf : (d2.toBack x).frame x.id = some oddFrame := by
    rw [hi]
    show assoc d2.pkt.frames 0 = _
    rw [hp]
    rfl
  have hfl : d3.flight x.id = some x := by
    show ((d2.toBack x).modFrame x.id _).flight x.id = _
    rw [modFrame_of_frame hf]
    show ((d2.pkt.flights.filter fun y => y.id ≠ x.id) ++ [x]).find? (fun y => y.id = x.id) = some x
    rw [hp, hi]
    simp [st, oddHeader, hi, oddClass, Device.takePosition, Device.spend]
  have hfr : ∃ f, d3.frame x.id = some f ∧ f.secOpen = true ∧ f.ended = false := by
    show ∃ f, ((d2.toBack x).modFrame x.id _).frame x.id = some f ∧ _
    rw [modFrame_of_frame hf, hi]
    exact ⟨_, frame_setFrame _ _, rfl, rfl⟩
  obtain ⟨f, hf, ho, he⟩ := hfr
  rw [runParse_open hfl hf ho he, ← hi]
  exact ⟨x, hfl, hx⟩

/-- Refutes O41: HEADER_ACCEPT names the waiting sample, which sets bit 0 of IRQ_STAT, before it reads the start state of the
header's class there. -/
theorem not_headersAndHolds : ¬ Obligations.HeadersAndHolds := by
  unfold Obligations.HeadersAndHolds
  rintro ⟨accept, -⟩
  obtain ⟨t, he, -, g, y, hg, hy, -, -, -, hf, hyx⟩ := (accept oddClass oddClass.dev 0 0 oddHeader oddFrame (by decide) rfl rfl rfl
    (by decide) (by decide) rfl rfl rfl).2 (by decide)
  have hd : t.dev = headerAccept oddClass.dev 0 0 := dev_of_clock (f := fun d => headerAccept d 0 0) rfl (by decide) rfl he
  rw [runParse_open hy hf rfl rfl] at hg
  obtain ⟨x, hx, h1⟩ := oddClass_start
  rw [← hd, hg, show g.flight 0 = some y from hy] at hx
  rw [← Option.some.inj hx, hyx] at h1
  exact absurd h1 (by decide)

end Sys2Proof.Machine

/-! A packet on the stair whose class is beyond the sixteen (R113, R144, R368). -/

namespace Sys2Proof.Machine

/-- With no byte beyond the window the stair takes no cell. -/
theorem stairGrow_none {d : Device} {id : Nat} {x : Flight} {f : Frame} (hx : d.flight id = some x) (hf : d.frame id = some f)
    (hb : f.bytes = []) : d.stairGrow id = d := by
  rw [Device.stairGrow, hx, hf]
  exact if_pos (.inr (.inl (by simp [hb, cellsOf, ceilDiv])))

/-- The packet that waits in `oddStair`: the CFG word of its class is IRQ_STAT of the gallery's counters. -/
def stairHeader : Flight := { oddHeader with phase := .stair, startOfClass := true }

/-- A device in RUN with one packet on the stair, the counters of gallery 0 frozen, and a sample of it that waits for a header. -/
def oddStair : State := { oddClass with dev := { oddClass.dev with
  stroke := { num := 1#64 }
  pkt := { frames := [(0, oddFrame)], flights := [stairHeader] } } }

/-- The packet of `oddStair` is granted its pass with the start state that IRQ_STAT then gives, and its parse waits. -/
theorem oddStair_start : ∃ x, (stairGrant oddStair.dev 0 0).flight 0 = some x ∧ x.start = 1 := by
  unfold stairGrant
  extract_lets d firsts
  have hd : d = oddStair.dev := rfl
  have hn : firsts = 0 := rfl
  clear_value firsts d
  subst hd hn
  rw [if_neg (by decide), show oddStair.dev.pkt.flights.find? (oddStair.dev.mayGrant 0) = some stairHeader from rfl]
  dsimp -zeta only
  rw [if_neg (by decide), if_neg (by decide), show oddStair.dev.frame stairHeader.id = some oddFrame from rfl]
  dsimp -zeta only
  extract_lets st ev0 ev d2 d3 x d4
  have hd2 : d2 = st.skidHeader 0 0 ev := by
    show ((st.event (some 0) 0x1001 1 (some 0) ev).event (some 0) 0x1002 1 (some 0) ev).skidHeader 0 0 ev = _
    have off : ∀ code, st.event (some 0) code 1 (some 0) ev = st := fun _ => if_pos (.inl (by decide))
    rw [off, off]
  have hreg : d2.cfg 0x10b0010 = 1#32 := by
    rw [hd2]
    decide
  have hp : d2.pkt = st.pkt := by rw [hd2, (skidHeader_keepPkt _ _ _ _).pkt]
  have hx : x.start = 1 := by
    show F.PARSE_IC_CFG_START.get (d2.cfg (A.PARSE_IC_CFG 0 0x8FE1)) = 1
    rw [show A.PARSE_IC_CFG 0 0x8FE1 = 0x10b0010 from rfl, hreg]
    rfl
  have hp3 : d3.pkt = st.pkt := hp
  have hi : x.id = 0 := rfl
  clear_value x d3
  have hf : (d3.toBack x).frame x.id = some oddFrame := by
    rw [hi]
    show assoc d3.pkt.frames 0 = _
    rw [hp3]
    rfl
  have hfl : d4.flight x.id = some x := by
    show ((d3.toBack x).modFrame x.id _).flight x.id = _
    rw [modFrame_of_frame hf]
    show ((d3.pkt.flights.filter fun y => y.id ≠ x.id) ++ [x]).find? (fun y => y.id = x.id) = some x
    rw [hp3, hi]
    simp [st, stairHeader, oddHeader, hi, oddStair, Device.takePosition, Device.spend]
  have hfr : ∃ f, d4.frame x.id = some f ∧ f.secOpen = true ∧ f.ended = false ∧ f.bytes = [] := by
    show ∃ f, ((d3.toBack x).modFrame x.id _).frame x.id = some f ∧ _
    rw [modFrame_of_frame hf, hi]
    exact ⟨_, frame_setFrame _ _, rfl, rfl, rfl⟩
  obtain ⟨f, hf, ho, he, hb⟩ := hfr
  rw [runParse_open hfl hf ho he, stairGrow_none hfl hf hb, ← hi]
  exact ⟨x, hfl, hx⟩

/-- Refutes O42: STAIR_GRANT names the waiting sample, which sets bit 0 of IRQ_STAT, before it reads the start state of the packet's
class there. -/
theorem not_passesAndStair : ¬ Obligations.PassesAndStair := by
  unfold Obligations.PassesAndStair
  rintro ⟨-, -, grant, -⟩
  obtain ⟨t, he, -, g, y, hg, hy, -, -, hf, hyx⟩ := (grant oddStair oddStair.dev 0 0 stairHeader oddFrame (by decide) rfl rfl rfl
    (by decide) (by decide) rfl rfl rfl).2.2 (by decide) (by decide)
  have hd : t.dev = stairGrant oddStair.dev 0 0 := dev_of_clock (f := fun d => stairGrant d 0 0) rfl (by decide) rfl he
  rw [runParse_open hy hf rfl rfl, stairGrow_none hy hf rfl] at hg
  obtain ⟨x, hx, h1⟩ := oddStair_start
  rw [← hd, hg, show g.flight 0 = some y from hy] at hx
  rw [← Option.some.inj hx, hyx] at h1
  exact absurd h1 (by decide)

end Sys2Proof.Machine

/-! The parser's bank switch, the action words of a gallery, and the fragment-follow table (R119, R130, R149). -/

namespace Sys2Proof.Machine

-- Action words (R149) -------------------------------------------------------------------------------------------------

/-- The word that the ACT_DATA registers of a gallery hold. -/
def Device.actData (d : Device) (n : Nat) : Nat :=
  ((List.range 4).map fun i => (d.reg (A.MATCH_ACT_DATA n i)).toNat * 2 ^ (32 * i)).sum

/-- An action word is stored in gallery `g`. -/
def Device.putAct (d : Device) (place st sl ix word g : Nat) : Device :=
  let d := d.wordWritten g place
  let v := if d.wordDead g place then 0 else word
  { d with pkt := { d.pkt with acts := tnatSet d.pkt.acts (actKey g st sl ix) v } }

/-- What a write of action words leaves: all but the words and the rows to be rewritten. -/
structure KeepAct (d e : Device) : Prop where
  file : e.file = d.file
  gen : e.gen = d.gen
  dev : e.dev = d.dev
  hall : e.hall = d.hall

theorem putAct_keep (d : Device) (place st sl ix word g : Nat) : KeepAct d (d.putAct place st sl ix word g) := ⟨rfl, rfl, rfl, rfl⟩

/-- With every word in service a write stores the word itself, and no word comes to need another. -/
theorem putAct_whole {d : Device} (h : ∀ g, d.wordsWhole g) (place st sl ix word g : Nat) :
    (d.putAct place st sl ix word g).pkt = { d.pkt with acts := tnatSet d.pkt.acts (actKey g st sl ix) word } ∧
    ∀ k, (d.putAct place st sl ix word g).wordsWhole k := by
  have hd : (d.wordWritten g place).wordDead g place = false := (h g place).1
  refine ⟨?_, fun k a => ⟨(h k a).1, ?_⟩⟩
  · show ({ (d.wordWritten g place).pkt with acts := tnatSet _ _ (if (d.wordWritten g place).wordDead g place = true then 0 else word) } : PacketUnit) = _
    rw [hd]
    rfl
  · show (d.ras.poison.filter fun q => q ≠ ⟨3, g, place⟩).contains ⟨3, k, a⟩ = false
    have hp : d.ras.poison.contains ⟨3, k, a⟩ = false := (h k a).2
    rw [List.contains_eq_mem, decide_eq_false_iff_not] at hp ⊢
    exact fun hm => hp (List.mem_filter.1 hm).1

/-- The words of the galleries written, one after the other. -/
theorem putActs_whole {place st sl ix word : Nat} : ∀ (gs : List Nat) (d : Device), (∀ g, d.wordsWhole g) →
    KeepAct d (gs.foldl (fun d g => d.putAct place st sl ix word g) d) ∧
    (∀ k, (gs.foldl (fun d g => d.putAct place st sl ix word g) d).wordsWhole k) ∧
    (tabWf zeroNat d.pkt.acts = true → tabWf zeroNat (gs.foldl (fun d g => d.putAct place st sl ix word g) d).pkt.acts = true ∧
      ∀ g, tnat (gs.foldl (fun d g => d.putAct place st sl ix word g) d).pkt.acts (actKey g st sl ix) =
        if g ∈ gs then word else tnat d.pkt.acts (actKey g st sl ix))
  | [], d, h => ⟨⟨rfl, rfl, rfl, rfl⟩, h, fun hw => ⟨hw, fun g => by simp⟩⟩
  | a :: gs, d, h => by
    obtain ⟨hp, hwh⟩ := putAct_whole h place st sl ix word a
    have k := putAct_keep d place st sl ix word a
    obtain ⟨kk, hh, ht⟩ := putActs_whole (place := place) (st := st) (sl := sl) (ix := ix) (word := word) gs _ hwh
    refine ⟨⟨kk.file.trans k.file, kk.gen.trans k.gen, kk.dev.trans k.dev, kk.hall.trans k.hall⟩, hh, fun hw => ?_⟩
    have hacts : (d.putAct place st sl ix word a).pkt.acts = tnatSet d.pkt.acts (actKey a st sl ix) word := by rw [hp]
    have hw1 : tabWf zeroNat (d.putAct place st sl ix word a).pkt.acts = true := by
      rw [hacts]
      exact tabSet_wf _ _ hw
    obtain ⟨hw2, hg⟩ := ht hw1
    refine ⟨hw2, fun g => ?_⟩
    rw [List.foldl_cons, hg g, hacts]
    by_cases hm : g ∈ gs
    · simp [hm]
    · rw [if_neg hm]
      by_cases ha : g = a
      · subst ha
        rw [if_pos (by simp)]
        exact tabGet_tabSet_same _ _ hw
      · rw [if_neg (by simp [ha, hm])]
        exact tabGet_tabSet_other _ (by unfold actKey; omega) hw

section
variable {d : Device} {src : Source} {n st sl ix : Nat} (hwh : ∀ g, d.wordsWhole g)
  (hix : F.MATCH_ACT_ADDR_INDEX.get (d.reg (A.MATCH_ACT_ADDR n)) = ix)
  (hst : F.MATCH_ACT_ADDR_STAGE.get (d.reg (A.MATCH_ACT_ADDR n)) = st)
  (hsl : F.MATCH_ACT_ADDR_SLOT.get (d.reg (A.MATCH_ACT_ADDR n)) = sl)
include hix hst hsl

/-- The galleries that a write of an action word names. -/
def Device.actTargets (d : Device) (n : Nat) : List Nat :=
  if F.MATCH_ACT_ADDR_BCAST.get (d.reg (A.MATCH_ACT_ADDR n)) = 1 then (List.range 32).filter fun g => !d.isFenced g else [n]

theorem actCommand_write (ho : d.slotOpen sl = true) (hn : d.actTargets n ≠ []) :
    actCommand d src n (F.MATCH_ACT_CMD_WRITE.put 0 1) = (d.actTargets n).foldl
      (fun e g => e.putAct (0x100000 + 8192 * st + 4096 * sl + ix) st sl ix (d.actData n) g) d := by
  subst hix hst hsl
  unfold actCommand
  extract_lets ad ix st sl place word all targets e v
  have ht : targets = d.actTargets n := if_pos ho
  rw [if_pos (by decide)]
  show (if F.MATCH_ACT_CMD_WRITE.get _ = 0 then d else if targets.isEmpty then _ else _) = _
  rw [if_neg (by decide), ht, if_neg (by simpa using hn)]
  rfl

omit hix hst in
include hwh in
theorem actCommand_closed (ho : d.slotOpen sl = false) :
    actCommand d src n (F.MATCH_ACT_CMD_WRITE.put 0 1) = d.refuse src (A.MATCH_ACT_CMD n) := by
  subst hsl
  unfold actCommand
  extract_lets ad ix st sl place word all targets e v
  have ht : targets = [] := by
    show (if d.slotOpen sl then all else all.filter fun g => d.wordPoisoned g place) = []
    rw [if_neg (by rw [show d.slotOpen sl = false from ho]; decide), List.filter_eq_nil_iff]
    intro g _
    rw [(hwh g place).2]
    decide
  rw [if_pos (by decide)]
  show (if F.MATCH_ACT_CMD_WRITE.get _ = 0 then d else if targets.isEmpty then _ else _) = _
  rw [if_neg (by decide), ht]
  exact if_pos rfl

theorem actCommand_read : actCommand d src n (F.MATCH_ACT_CMD_READ.put 0 1) =
    (List.range 4).foldl (fun e i => e.setReg (A.MATCH_ACT_DATA n i)
      (BitVec.ofNat 32 (bitsOf (tnat d.pkt.acts (actKey n st sl ix)) (32 * i) 32))) d := by
  subst hix hst hsl
  unfold actCommand
  extract_lets ad ix st sl place word all targets e v
  have he : e = d := if_pos (by decide)
  rw [if_neg (by decide)]
  clear_value e
  subst he
  rfl

end

/-- ACT_DATA gives the four words of the action word that is read. -/
theorem actRead_data {d : Device} (hr : tabWf regReset d.file.regs = true) (n : Nat) (f : Nat → Word) {i : Nat} (hi : i < 4) :
    ((List.range 4).foldl (fun e i => e.setReg (A.MATCH_ACT_DATA n i) (f i)) d).reg (A.MATCH_ACT_DATA n i) = f i := by
  have ne : ∀ {a b : Nat}, a ≠ b → A.MATCH_ACT_DATA n a ≠ A.MATCH_ACT_DATA n b := fun h => by
    unfold A.MATCH_ACT_DATA
    omega
  show (((((d.setReg _ (f 0)).setReg _ (f 1)).setReg _ (f 2)).setReg _ (f 3))).reg _ = _
  have w1 := Device.setReg_wf hr (A.MATCH_ACT_DATA n 0) (f 0)
  have w2 := Device.setReg_wf w1 (A.MATCH_ACT_DATA n 1) (f 1)
  have w3 := Device.setReg_wf w2 (A.MATCH_ACT_DATA n 2) (f 2)
  match i, hi with
  | 0, _ => rw [Device.reg_setReg_other w3 _ (ne (by decide : 0 ≠ 3)), Device.reg_setReg_other w2 _ (ne (by decide : 0 ≠ 2)),
      Device.reg_setReg_other w1 _ (ne (by decide : 0 ≠ 1)), Device.reg_setReg_same hr]
  | 1, _ => rw [Device.reg_setReg_other w3 _ (ne (by decide : 1 ≠ 3)), Device.reg_setReg_other w2 _ (ne (by decide : 1 ≠ 2)),
      Device.reg_setReg_same w1]
  | 2, _ => rw [Device.reg_setReg_other w3 _ (ne (by decide : 2 ≠ 3)), Device.reg_setReg_same w2]
  | 3, _ => rw [Device.reg_setReg_same w3]

/-- Writes of registers change the register file alone. -/
theorem setRegs_file (g : Nat → Nat) (v : Nat → Word) : ∀ (l : List Nat) (d : Device),
    ∃ f, l.foldl (fun e i => e.setReg (g i) (v i)) d = { d with file := f }
  | [], d => ⟨d.file, rfl⟩
  | _ :: l, d => setRegs_file g v l (d.setReg _ _)

/-- Settles O43. -/
theorem parserAndActionAccesses : Obligations.ParserAndActionAccesses := by
  unfold Obligations.ParserAndActionAccesses
  refine ⟨?bank, ?acts, ?expire, ?flush⟩
  case bank =>
    intro s src hg
    refine makes_run (f := fun d => busWrite d src A.TOP_PARSE_BANK 0xF (F.TOP_PARSE_BANK_SWITCH.put 0 1)) rfl rfl ?_
    rw [write_TOP_PARSE_BANK hg]
    exact if_pos (by decide)
  case acts =>
    intro s src n st sl ix hg hn hf hwh hix hst hsl
    have hwr := write_MATCH_ACT_CMD hg hn hf (F.MATCH_ACT_CMD_WRITE.put 0 1)
    have wf : (Instr.actWordWrite src n).wf = true := by simp [Instr.wf, hn]
    refine ⟨fun ho hb => ?one, fun ho hb hw => ?all, fun ho => ?closed, fun hr => ?read⟩
    case one =>
      refine completes_run (f := fun d => busWrite d src (A.MATCH_ACT_CMD n) 0xF (F.MATCH_ACT_CMD_WRITE.put 0 1)) rfl wf ?_
      have ht : s.dev.actTargets n = [n] := if_neg (by rw [hb]; decide)
      have e := actCommand_write (src := src) hix hst hsl ho (by rw [ht]; exact List.cons_ne_nil _ _)
      rw [ht, List.foldl_cons, List.foldl_nil] at e
      obtain ⟨hp, hh⟩ := putAct_whole hwh (0x100000 + 8192 * st + 4096 * sl + ix) st sl ix (s.dev.actData n) n
      have k := putAct_keep s.dev (0x100000 + 8192 * st + 4096 * sl + ix) st sl ix (s.dev.actData n) n
      rw [hwr (by rw [e]; exact hh n), e]
      exact ⟨hp, k.file, k.gen, k.dev, k.hall⟩
    case all =>
      refine completes_run (f := fun d => busWrite d src (A.MATCH_ACT_CMD n) 0xF (F.MATCH_ACT_CMD_WRITE.put 0 1)) rfl wf ?_
      have ht : s.dev.actTargets n = (List.range 32).filter fun g => !s.dev.isFenced g := if_pos hb
      have mem : ∀ g, g < 32 → s.dev.isFenced g = false → g ∈ s.dev.actTargets n := fun g h hg => by
        rw [ht, List.mem_filter]
        exact ⟨List.mem_range.2 h, by rw [hg]; rfl⟩
      have e := actCommand_write (src := src) hix hst hsl ho (List.ne_nil_of_mem (mem n hn hf))
      obtain ⟨k, hh, hacts⟩ := putActs_whole (place := 0x100000 + 8192 * st + 4096 * sl + ix) (st := st) (sl := sl) (ix := ix)
        (word := s.dev.actData n) (s.dev.actTargets n) s.dev hwh
      rw [hwr (by rw [e]; exact hh n), e]
      exact ⟨k.file, k.gen, k.dev, fun g h hg => ((hacts hw).2 g).trans (if_pos (mem g h hg))⟩
    case closed =>
      refine makes_run (f := fun d => busWrite d src (A.MATCH_ACT_CMD n) 0xF (F.MATCH_ACT_CMD_WRITE.put 0 1)) rfl wf ?_
      have e := actCommand_closed (src := src) hwh hsl ho
      rw [hwr (by rw [e]; exact wordsWhole_of_ras (Device.refuse_ras _ _ _) (hwh n)), e]
    case read =>
      refine completes_run (f := fun d => busWrite d src (A.MATCH_ACT_CMD n) 0xF (F.MATCH_ACT_CMD_READ.put 0 1)) rfl
        (by simp [Instr.wf, hn]) ?_
      have e := actCommand_read (src := src) hix hst hsl
      obtain ⟨fl, hfl⟩ := setRegs_file (A.MATCH_ACT_DATA n) (fun i =>
        BitVec.ofNat 32 (bitsOf (tnat s.dev.pkt.acts (actKey n st sl ix)) (32 * i) 32)) (List.range 4) s.dev
      rw [write_MATCH_ACT_CMD hg hn hf (F.MATCH_ACT_CMD_READ.put 0 1) (by rw [e, hfl]; exact hwh n), e]
      refine ⟨fun i hi => actRead_data hr n _ hi, ?_⟩
      rw [hfl]
      exact ⟨rfl, rfl, rfl⟩
  case expire =>
    intro s ix hck hi
    exact makes_clock (f := fun d => fftEntryExpire d ix) rfl (by simp [Instr.wf, hi]) hck rfl
  case flush =>
    intro s src w hg
    refine completes_run (f := fun d => busWrite d src A.TABLE_FFT_CFG 0xF (F.TABLE_FFT_CFG_FLUSH.put w 1)) rfl rfl ?_
    rw [write_TABLE_FFT_CFG hg, if_pos (show F.TABLE_FFT_CFG_FLUSH.get _ = 1 from Fld.get_put _ w 1 (by decide))]
    obtain ⟨f, i, h⟩ := writeFields_file s.dev src hit_TABLE_FFT_CFG A.TABLE_FFT_CFG (F.TABLE_FFT_CFG_FLUSH.put w 1)
    rw [h]
    exact ⟨rfl, rfl, rfl⟩

end Sys2Proof.Machine

/-! A copy is selected for its port, and its first byte leaves (R98, R207, R214, R219, R244 to R248). -/

namespace Sys2Proof.Machine

/-- Packets, copies and sent frames are as they were, and so is the cycle. -/
structure KeepTx (d e : Device) : Prop where
  pkt : e.pkt = d.pkt
  hall : e.hall = d.hall
  sent : e.sent = d.sent
  stroke : e.stroke = d.stroke

theorem KeepTx.refl (d : Device) : KeepTx d d := ⟨rfl, rfl, rfl, rfl⟩

theorem KeepTx.trans {a b c : Device} (h : KeepTx a b) (k : KeepTx b c) : KeepTx a c :=
  ⟨k.pkt.trans h.pkt, k.hall.trans h.hall, k.sent.trans h.sent, k.stroke.trans h.stroke⟩

theorem KeepTx.ite {d a b : Device} {c : Prop} [Decidable c] (ha : KeepTx d a) (hb : KeepTx d b) : KeepTx d (if c then a else b) := by
  split
  · exact ha
  · exact hb

theorem KeepTx.foldl {α : Type} {f : Device → α → Device} (h : ∀ e x, KeepTx e (f e x)) (l : List α) (d : Device) :
    KeepTx d (l.foldl f d) := by
  induction l generalizing d with
  | nil => exact .refl d
  | cons x t ih => exact (h d x).trans (ih _)

theorem raise_keepTx (d : Device) (b n : Nat) : KeepTx d (d.raise b n) := by
  obtain ⟨f, h⟩ := Device.raise_file d b n
  rw [h]
  exact ⟨rfl, rfl, rfl, rfl⟩

theorem markSaThresh_keepTx (d : Device) (n sa : Nat) : KeepTx d (d.markSaThresh n sa) :=
  .ite ⟨rfl, rfl, rfl, rfl⟩ (.refl d)

/-- The frame's latch of its association changes the association, its marks and its counters. -/
theorem txLatch_keepTx (d : Device) (p : Nat) : KeepTx d (d.txLatch p).1 := by
  unfold Device.txLatch
  extract_lets n w sa cfg st key xpn pn lim atThresh atMax st1 d1 d2 d3 sci
  have h1 : KeepTx d d1 := ⟨rfl, rfl, rfl, rfl⟩
  have h2 : KeepTx d1 d2 := .ite ((markSaThresh_keepTx d1 n sa).trans (raise_keepTx _ _ _)) (.refl d1)
  have h3 : KeepTx d2 d3 := .ite (raise_keepTx d2 _ _) (.refl d2)
  have kt : KeepTx d (d3.count (integCnt n 7)) := (h1.trans (h2.trans h3)).trans ⟨rfl, rfl, rfl, rfl⟩
  clear_value d3 key
  by_cases he : F.INTEG_P_CFG_TX_EN.get w = 0
  · rw [if_pos he]
    exact .refl d
  rw [if_neg he]
  cases key with
  | none => exact .refl d
  | some k =>
    dsimp -zeta only
    by_cases hv : F.INTEG_SA_CFG_VALID.get cfg = 0 ∨ F.INTEG_SA_CFG_DIR.get cfg = 0
    · rw [if_pos hv]
      exact .refl d
    · rw [if_neg hv]
      by_cases hx : st.exhausted = true
      · rw [if_pos hx]
        exact ⟨rfl, rfl, rfl, rfl⟩
      · rw [if_neg hx]
        exact kt

theorem psT_keepTx (d : Device) (ps : Int) : KeepTx d (d.psT ps).2 := by
  obtain ⟨v, k, h⟩ := roundDiv_shape d (ps * 8192) 125
  rw [Device.psT, h]
  exact ⟨rfl, rfl, rfl, rfl⟩

theorem tcUpdate_keepTx (d : Device) (c : Copy) (f : Frame) (o : Nat) : KeepTx d (d.tcUpdate c f o).1 := by
  unfold Device.tcUpdate
  extract_lets p bs t res asym cf top
  split
  · exact .refl d
  · generalize hp : (if t = 0 ∧ d.tsCfg f.inPort F.TSU_TS_CFG_TC_P2P = 1 then _ else (res, d) : Int × Device) = r
    have hr : KeepTx d r.2 := by
      rw [← hp]
      split
      · exact psT_keepTx d asym
      · exact .refl d
    obtain ⟨add, e⟩ := r
    dsimp only
    split
    · exact hr
    · exact hr.trans ⟨rfl, rfl, rfl, rfl⟩

/-- What the first byte leaves of its copy, but its patches: `x` is the copy selected and `cyc` the cycle. -/
structure Begun (x y : Copy) (cyc : Nat) : Prop where
  uid : y.uid = x.uid
  phase : y.phase = .sending
  queue : y.queue = x.queue
  frame : y.frame = x.frame
  txCyc : y.txCyc = cyc
  charges : y.charges = x.charges

theorem started_begun (x : Copy) (f : Frame) (clk free cyc seq : Nat) : Begun x (x.started f clk free cyc seq) cyc := by
  unfold Copy.started
  dsimp only
  split <;> exact ⟨rfl, rfl, rfl, rfl, rfl, rfl⟩

theorem tcPatch_begun {x y : Copy} {cyc : Nat} (d : Device) (p : Nat) (f : Frame) (h : Begun x y cyc) :
    KeepTx d (d.tcPatch p y f).1 ∧ Begun x (d.tcPatch p y f).2 cyc := by
  unfold Device.tcPatch
  split
  · exact ⟨.refl d, h⟩
  · next o _ =>
    have k := tcUpdate_keepTx d y f o
    generalize d.tcUpdate y f o = r at k
    obtain ⟨e, u⟩ := r
    cases u with
    | none => exact ⟨k, h⟩
    | some patch => exact ⟨k, h.uid, h.phase, h.queue, h.frame, h.txCyc, h.charges⟩

/-- The copy that a change of one copy leaves under its number. -/
theorem copy_modCopy {d : Device} {u : Nat} {x : Copy} (hx : d.copy u = some x) {g : Copy → Copy} (hg : (g x).uid = u) :
    (d.modCopy u g).copy u = some (g x) := by
  have go : ∀ l : List Copy, (l.find? fun c => c.uid = u) = some x →
      ((l.map fun c => if c.uid = u then g c else c).find? fun c => c.uid = u) = some (g x) := by
    intro l
    induction l with
    | nil => intro h; cases h
    | cons a l ih =>
      intro h
      by_cases ha : a.uid = u
      · rw [List.find?_cons_of_pos (by simpa using ha)] at h
        rw [Option.some.inj h] at ha ⊢
        rw [List.map_cons, if_pos ha]
        exact List.find?_cons_of_pos (by simpa using hg)
      · rw [List.find?_cons_of_neg (by simpa using ha)] at h
        rw [List.map_cons, if_neg ha, List.find?_cons_of_neg (by simpa using ha)]
        exact ih h
  exact go _ hx

theorem giveBack_keepTx (d : Device) (c : Copy) (n : Int) : KeepTx d (d.giveBack c n) := by
  unfold Device.giveBack
  extract_lets e
  have he : KeepTx d e :=
    KeepTx.foldl (f := fun d k => d.setTokens k (d.tokens k + n * 65536)) (fun _ _ => ⟨rfl, rfl, rfl, rfl⟩) _ _
  clear_value e
  refine he.trans (.ite (.refl e) ?_)
  unfold Device.addDeficit
  exact .ite (.refl e) ⟨rfl, rfl, rfl, rfl⟩

/-- The correction of a charge leaves what the first byte fixed. -/
theorem chargeMac_begun {d : Device} {x y : Copy} {cyc : Nat} (hy : d.copy x.uid = some y) (h : Begun x y cyc) :
    (d.chargeMac x.uid).pkt = d.pkt ∧ (d.chargeMac x.uid).sent = d.sent ∧
    ∃ z, (d.chargeMac x.uid).copy x.uid = some z ∧ Begun x z cyc ∧ z.mac = y.mac := by
  unfold Device.chargeMac
  rw [hy]
  dsimp -zeta only
  extract_lets more
  split
  · exact ⟨rfl, rfl, y, hy, h, rfl⟩
  · have k := giveBack_keepTx d y (-more)
    have hz : (d.giveBack y (-more)).copy x.uid = some y := by
      unfold Device.copy
      rw [k.hall]
      exact hy
    exact ⟨k.pkt, k.sent, _, copy_modCopy (g := fun c => { c with charged := c.charged + more, secAt := d.secAdds c }) hz h.uid,
      ⟨h.uid, h.phase, h.queue, h.frame, h.txCyc, h.charges⟩, rfl⟩

/-- What the first byte of copy `x` makes of the device, once its frame has `sa` from its association. -/
def Device.firstByte (d : Device) (x : Copy) (f : Frame) (sa : TxSa) (p lane : Nat) (raw : Int) : Device :=
  let (clk, free, d) := d.stampAt p lane raw false
  let d := d.dreqLeaves f.id clk
  let d := { d with pkt := { d.pkt with portStarts := p :: d.pkt.portStarts } }
  let d := match x.ioamCnt with
    | some k => d.count (telCnt k)
    | none => d
  let (d, c) := d.tcPatch p (x.started f clk free d.absCyc d.integ.writes) f
  let c := match sa with
    | .took m => { c with mac := some m }
    | _ => c
  let d := (d.modCopy c.uid fun _ => c).chargeMac c.uid
  { d with pkt := { d.pkt with sending := d.pkt.sending ++ [(p, c.uid)] } }

theorem egressFirstByte_eq {s d : Device} {p c lane : Nat} {raw : Int} {x : Copy} {f : Frame} (hd : s.atCyc c = d)
    (hb : (d.pkt.sending.any fun e => e.1 = p) = false)
    (hx : (d.hall.copies.find? fun c => c.queue / 16 = p ∧ c.phase = .selected ∧ !d.doomed c) = some x)
    (hf : d.frame x.frame = some f) :
    egressFirstByte s p c lane raw = if x.read = 0 then d
      else if f.ended && d.tooLong x f then d.dropCopy x.uid 0x23 (p / 32) true none
      else match d.txLatch p with
      | (d, .lost code) => d.dropCopy x.uid code (p / 32) true none
      | (d, sa) => d.firstByte x f sa p lane raw := by
  unfold egressFirstByte
  extract_lets e
  have he : e = d := hd
  clear_value e
  subst he
  rw [hb, if_neg (by decide), hx]
  dsimp -zeta only
  rw [hf]
  rfl

/-- The copy of which the first byte leaves, and what is sent. -/
theorem firstByte_spec {d g : Device} {x : Copy} (hx : d.copy x.uid = some x) (f : Frame) (k : KeepTx d g) (sa : TxSa) (p lane : Nat)
    (raw : Int) {e : Device} (he : g.firstByte x f sa p lane raw = e) :
    e.pkt.sending = d.pkt.sending ++ [(p, x.uid)] ∧ e.sent = d.sent ∧ ∃ y, e.copy x.uid = some y ∧ y.phase = .sending ∧
      y.queue = x.queue ∧ y.frame = x.frame ∧ y.txCyc = d.absCyc ∧ y.charges = x.charges ∧ ∀ m, sa = .took m → y.mac = some m := by
  unfold Device.firstByte at he
  obtain ⟨clk, free, k2, hs⟩ := stampAt_shape g p lane raw false
  rw [hs] at he
  dsimp -zeta only at he
  extract_lets da pk db d1 c3 d3 at he
  have k1 : d1.pkt.sending = g.pkt.sending ∧ d1.hall = g.hall ∧ d1.sent = g.sent ∧ d1.stroke = g.stroke := by
    have hdb : db.pkt.sending = g.pkt.sending ∧ db.hall = g.hall ∧ db.sent = g.sent ∧ db.stroke = g.stroke := ⟨rfl, rfl, rfl, rfl⟩
    show (match x.ioamCnt with
      | some k => db.count (telCnt k)
      | none => db : Device).pkt.sending = _ ∧ _
    clear_value db
    cases h : x.ioamCnt with
    | none => simpa [d1, h] using hdb
    | some k => simpa [d1, h] using hdb
  obtain ⟨ksend, khall, ksent, kstroke⟩ := k1
  have hcyc : d1.absCyc = d.absCyc := by
    unfold Device.absCyc Device.strokeNo
    rw [kstroke, k.stroke]
  clear_value d1
  obtain ⟨kt, hb⟩ := tcPatch_begun d1 p f (started_begun x f clk free d1.absCyc d1.integ.writes)
  have hc3 : Begun x c3 d.absCyc ∧ ∀ m, sa = .took m → c3.mac = some m := by
    rw [← hcyc]
    cases sa with
    | took m => exact ⟨⟨hb.uid, hb.phase, hb.queue, hb.frame, hb.txCyc, hb.charges⟩, fun _ h => by cases h; rfl⟩
    | off => exact ⟨hb, fun _ h => nomatch h⟩
    | lost _ => exact ⟨hb, fun _ h => nomatch h⟩
  have hd3 : d3 = ((d1.tcPatch p (x.started f clk free d1.absCyc d1.integ.writes) f).1.modCopy c3.uid fun _ => c3).chargeMac c3.uid := rfl
  clear_value c3 d3
  generalize (d1.tcPatch p (x.started f clk free d1.absCyc d1.integ.writes) f).1 = d2 at kt hd3
  obtain ⟨hc3, hmac⟩ := hc3
  rw [hc3.uid] at he hd3
  have hx2 : d2.copy x.uid = some x := by
    unfold Device.copy
    rw [kt.hall, khall, k.hall]
    exact hx
  obtain ⟨hp, hse, z, hz, hzb, hzm⟩ := chargeMac_begun (copy_modCopy (g := fun _ => c3) hx2 hc3.uid) hc3
  rw [← hd3] at hp hse hz
  subst he
  refine ⟨?_, hse.trans (kt.sent.trans (ksent.trans k.sent)), z, hz, hzb.phase, hzb.queue, hzb.frame, hzb.txCyc, hzb.charges,
    fun m hm => hzm.trans (hmac m hm)⟩
  show d3.pkt.sending ++ _ = _
  rw [hp]
  show d2.pkt.sending ++ _ = _
  rw [kt.pkt, ksend, k.pkt]

/-- Settles O44. -/
theorem egressBegins : Obligations.EgressBegins := by
  unfold Obligations.EgressBegins
  refine ⟨?select, ?first, ?busy⟩
  case select =>
    intro s d g p c wf hc hd hg
    have go : egressSelect s.dev p c = if !d.canStart p then d else if !g.conforms (portBucket p) then g
        else g.selectOne p (Device.clockGain g (g.selectLead * g.cycleLen) / 2 ^ 48) (d.hall.copies.length + 1) := by
      subst hg hd
      rfl
    refine ⟨fun hn => ?closed, fun hs => ⟨fun hn => ?short, fun hf => ⟨fun hq => ?none, fun k q x hq hx => ⟨fun ha => ?pick, fun ha => ?aged⟩⟩⟩⟩
    case closed => exact makes_clock (f := fun d => egressSelect d p c) rfl wf hc (go.trans (by rw [hn]; rfl))
    case short => exact makes_clock (f := fun d => egressSelect d p c) rfl wf hc (go.trans (by rw [hs, hn]; rfl))
    all_goals
      refine makes_clock (f := fun d => egressSelect d p c) rfl wf hc (go.trans ?_)
      rw [hs, hf, if_neg (by decide), if_neg (by decide), Device.selectOne, hq]
    case pick =>
      dsimp -zeta only
      rw [hx]
      exact if_neg (by rw [ha]; decide)
    case aged =>
      dsimp -zeta only
      rw [hx]
      exact if_pos ha
  case first =>
    intro s d p c lane raw x f wf hc hd hb hx hu hf
    have go := egressFirstByte_eq (lane := lane) (raw := raw) hd hb hx hf
    refine ⟨fun hr => ?_, fun hr => ⟨fun he hl => ?_, fun g sa hok hla => ⟨fun code hs => ?_, fun hs => ?_⟩⟩⟩
    · exact makes_clock (f := fun d => egressFirstByte d p c lane raw) rfl wf hc (go.trans (if_pos hr))
    · exact makes_clock (f := fun d => egressFirstByte d p c lane raw) rfl wf hc
        (go.trans (by rw [if_neg hr, he, hl]; rfl))
    · refine makes_clock (f := fun d => egressFirstByte d p c lane raw) rfl wf hc (go.trans ?_)
      rw [if_neg hr, if_neg (by rcases hok with h | h <;> simp [h]), hla, hs]
    · refine completes_clock (f := fun d => egressFirstByte d p c lane raw) rfl wf hc ?_
      have k : KeepTx d g := by
        have h := txLatch_keepTx d p
        rw [hla] at h
        exact h
      rw [go, if_neg hr, if_neg (by rcases hok with h | h <;> simp [h]), hla]
      refine firstByte_spec hu f k sa p lane raw ?_
      cases sa with
      | lost code => exact absurd rfl (hs code)
      | off => rfl
      | took m => rfl
  case busy =>
    intro s p c lane raw wf hc hb
    exact makes_clock (f := fun d => egressFirstByte d p c lane raw) rfl wf hc (if_pos hb)

end Sys2Proof.Machine

/-! A transmission ends, underruns, or meets a bad cell (R98, R179, R180, R216, R248, R277). -/

namespace Sys2Proof.Machine

theorem sendingOn_none_end {d : Device} {p : Nat} (h : d.sendingOn p = none) : frameTransmitEnd d p = d ∧ ctUnderrun d p = d := by
  unfold frameTransmitEnd ctUnderrun
  rw [h]
  exact ⟨rfl, rfl⟩

section
variable {d : Device} {p : Nat} {c : Copy} {f : Frame} (hs : d.sendingOn p = some c) (hf : d.frame c.frame = some f)
include hs hf

theorem frameTransmitEnd_tooLong (h : d.tooLong c f = true) : frameTransmitEnd d p =
    d.stompKnown c f 0x23 ((d.wireBytes c f).take (d.maxFrame p - 4) ++ invertBytes (fcsOf ((d.wireBytes c f).take (d.maxFrame p - 4)))) := by
  unfold frameTransmitEnd
  rw [hs]
  dsimp -zeta only
  rw [hf]
  exact if_pos h

theorem frameTransmitEnd_waits (h : d.tooLong c f = false) (hw : f.ended = false ∨ c.read < cellsOf (c.bytesOf f)) :
    frameTransmitEnd d p = d := by
  unfold frameTransmitEnd
  rw [hs]
  dsimp -zeta only
  rw [hf]
  dsimp -zeta only
  rw [if_neg (by rw [h]; decide)]
  exact if_pos (hw.imp_left fun h => by rw [h]; rfl)

/-- A frame whose end and cells are there leaves, or is ended where its PTP message was not verified. -/
theorem frameTransmitEnd_ends (h : d.tooLong c f = false) (he : f.ended = true) (hr : cellsOf (c.bytesOf f) ≤ c.read) :
    frameTransmitEnd d p =
      if d.retagOf c f (c.out f) = .unchecked then
        d.stompKnown c f 0x70 ((d.wireBytes c f).take ((d.wireBytes c f).length - 4) ++
          invertBytes (fcsOf ((d.wireBytes c f).take ((d.wireBytes c f).length - 4))))
      else
        let bs := d.wireBytes c f
        let g := if d.retagOf c f (c.out f) = .none_ then d else d.count (integCnt (p / 32) 11)
        let h := (g.countSent c.queue bs.length).send (.frame p bs)
        let k := h.event (some (p / 32)) 0x4002 bs.length (some p) (h.evOf f c.pass (c.kind == .mirror || c.kind == .replica))
        ((k.flowCopy c none (some (c.txFree - f.tsFree))).stopSending c.uid).endCopy c.uid := by
  unfold frameTransmitEnd
  rw [hs]
  dsimp -zeta only
  rw [hf]
  dsimp -zeta only
  rw [if_neg (by rw [h]; decide), if_neg (by rw [he]; simpa using hr)]

theorem ctUnderrun_spec : ctUnderrun d p = if !c.cut ∨ f.ended ∨ d.portGb p ≤ d.portGb f.inPort then d
    else ((((d.stompOut c).count (hallCnt 4)).flowCopy c none (some (c.txFree - f.tsFree))).stopSending c.uid).endCopy c.uid := by
  unfold ctUnderrun
  rw [hs]
  dsimp -zeta only
  rw [hf]

end

theorem portCount_keepTx (d : Device) (p x n : Nat) : KeepTx d (d.portCount p x n) := .ite (.refl d) ⟨rfl, rfl, rfl, rfl⟩

theorem queueCount_keepTx (d : Device) (q x n : Nat) : KeepTx d (d.queueCount q x n) := .ite (.refl d) ⟨rfl, rfl, rfl, rfl⟩

theorem countSent_keepTx (d : Device) (q n : Nat) : KeepTx d (d.countSent q n) :=
  (portCount_keepTx d _ _ _).trans ((portCount_keepTx _ _ _ _).trans ((queueCount_keepTx _ _ _ _).trans (queueCount_keepTx _ _ _ _)))

/-- The frame on the line is what a transmission adds to what is sent. -/
theorem sendFrame_sent (g : Device) (q n p : Nat) (bs : Bytes) : ((g.countSent q n).send (.frame p bs)).sent = g.sent ++ [.frame p bs] :=
  congrArg (· ++ _) (countSent_keepTx g q n).sent

theorem cellEcc_hit {d : Device} {p : Nat} {c : Copy} (h : d.sendingOn p = some c ∨ (d.sendingOn p = none ∧
      (d.hall.copies.find? fun c => c.queue / 16 = p ∧ c.phase = .selected) = some c)) :
    cellEcc d p = match c.lastCell with
      | some a => ((d.count (hallCnt 5)).dropCopy c.uid 0xB1 (p / 32) true none).rowBad (cellPlace a)
      | none => (d.count (hallCnt 5)).dropCopy c.uid 0xB1 (p / 32) true none := by
  unfold cellEcc
  rcases h with h | ⟨h, hc⟩
  · rw [h] <;> rfl
  · rw [h]
    dsimp -zeta only
    rw [hc] <;> rfl

/-- Settles O45. -/
theorem egressEnds : Obligations.EgressEnds := by
  unfold Obligations.EgressEnds
  have wfEnd : ∀ p, p < 1024 → (Instr.frameTransmitEnd p).wf = true := fun p h => by simp [Instr.wf, h]
  have wfUnder : ∀ p, p < 1024 → (Instr.ctUnderrun p).wf = true := fun p h => by simp [Instr.wf, h]
  refine ⟨?fin, ?none, ?under, ?cell⟩
  case fin =>
    intro s p c f hp hc hs hf
    refine ⟨fun hl => ?_, fun hl => ⟨fun hw => ?_, fun he hr => ⟨fun hu => ?_, fun hu => ?_⟩⟩⟩
    · exact makes_clock (f := fun d => frameTransmitEnd d p) rfl (wfEnd p hp) hc (frameTransmitEnd_tooLong hs hf hl)
    · exact makes_clock (f := fun d => frameTransmitEnd d p) (g := id) rfl (wfEnd p hp) hc (frameTransmitEnd_waits hs hf hl hw)
    · exact makes_clock (f := fun d => frameTransmitEnd d p) rfl (wfEnd p hp) hc
        ((frameTransmitEnd_ends hs hf hl he hr).trans (if_pos hu))
    · refine completes_clock (f := fun d => frameTransmitEnd d p) rfl (wfEnd p hp) hc ⟨_, _, rfl, rfl, ?_, _, rfl,
        (frameTransmitEnd_ends hs hf hl he hr).trans (if_neg hu)⟩
      rw [sendFrame_sent]
      split <;> rfl
  case none =>
    intro s p hp hc hs
    obtain ⟨h1, h2⟩ := sendingOn_none_end hs
    exact ⟨makes_clock (f := fun d => frameTransmitEnd d p) (g := id) rfl (wfEnd p hp) hc h1,
      makes_clock (f := fun d => ctUnderrun d p) (g := id) rfl (wfUnder p hp) hc h2⟩
  case under =>
    intro s p c f hp hc hs hf
    refine ⟨fun hn => ?_, fun hcut he hg => ?_⟩
    · exact makes_clock (f := fun d => ctUnderrun d p) (g := id) rfl (wfUnder p hp) hc
        ((ctUnderrun_spec hs hf).trans (if_pos (hn.imp_left fun h => by rw [h]; rfl)))
    · refine completes_clock (f := fun d => ctUnderrun d p) rfl (wfUnder p hp) hc ⟨_, rfl, (ctUnderrun_spec hs hf).trans (if_neg ?_)⟩
      simp [hcut, he, hg]
  case cell =>
    intro s p c hp hc hit
    have wf : (Instr.cellEccUncorrectable p).wf = true := by simp [Instr.wf, hp]
    exact ⟨fun hl => makes_clock (f := fun d => cellEcc d p) rfl wf hc ((cellEcc_hit hit).trans (by rw [hl])),
      fun a hl => makes_clock (f := fun d => cellEcc d p) rfl wf hc ((cellEcc_hit hit).trans (by rw [hl]))⟩

end Sys2Proof.Machine

/-! What the counting of an event and a wait for a budget change: registers and counters, the programmable counters, the budget unit and the
free values (R38, R40, R363 to R368). -/

namespace Sys2Proof.Machine

/-- At most the register file, the programmable counters, the budget unit and the free values differ. -/
def Told (d e : Device) : Prop := ∃ f p b k, e = { d with file := f, perf := p, budget := b, freeCtr := k }

namespace Told
variable {d e g : Device}

theorem refl (d : Device) : Told d d := ⟨_, _, _, _, rfl⟩

theorem trans (h : Told d e) (k : Told e g) : Told d g := by
  obtain ⟨f, p, b, c, rfl⟩ := h
  obtain ⟨f', p', b', c', rfl⟩ := k
  exact ⟨_, _, _, _, rfl⟩

theorem ite {c : Prop} [Decidable c] (h : Told d e) (k : Told d g) : Told d (if c then e else g) := by
  split
  · exact h
  · exact k

theorem foldl {α : Type} {f : Device → α → Device} (h : ∀ e x, Told e (f e x)) (l : List α) (d : Device) : Told d (l.foldl f d) := by
  induction l generalizing d with
  | nil => exact refl d
  | cons x t ih => exact (h d x).trans (ih _)

variable (h : Told d e)
include h

theorem dev : e.dev = d.dev := by obtain ⟨_, _, _, _, rfl⟩ := h; rfl
theorem stroke : e.stroke = d.stroke := by obtain ⟨_, _, _, _, rfl⟩ := h; rfl
theorem gen : e.gen = d.gen := by obtain ⟨_, _, _, _, rfl⟩ := h; rfl
theorem ports : e.ports = d.ports := by obtain ⟨_, _, _, _, rfl⟩ := h; rfl
theorem pkt : e.pkt = d.pkt := by obtain ⟨_, _, _, _, rfl⟩ := h; rfl
theorem hall : e.hall = d.hall := by obtain ⟨_, _, _, _, rfl⟩ := h; rfl
theorem table : e.table = d.table := by obtain ⟨_, _, _, _, rfl⟩ := h; rfl
theorem billet : e.billet = d.billet := by obtain ⟨_, _, _, _, rfl⟩ := h; rfl
theorem sched : e.sched = d.sched := by obtain ⟨_, _, _, _, rfl⟩ := h; rfl
theorem clock : e.clock = d.clock := by obtain ⟨_, _, _, _, rfl⟩ := h; rfl
theorem servo : e.servo = d.servo := by obtain ⟨_, _, _, _, rfl⟩ := h; rfl
theorem ledger : e.ledger = d.ledger := by obtain ⟨_, _, _, _, rfl⟩ := h; rfl
theorem telem : e.telem = d.telem := by obtain ⟨_, _, _, _, rfl⟩ := h; rfl
theorem host : e.host = d.host := by obtain ⟨_, _, _, _, rfl⟩ := h; rfl
theorem anvil : e.anvil = d.anvil := by obtain ⟨_, _, _, _, rfl⟩ := h; rfl
theorem ras : e.ras = d.ras := by obtain ⟨_, _, _, _, rfl⟩ := h; rfl
theorem seq : e.seq = d.seq := by obtain ⟨_, _, _, _, rfl⟩ := h; rfl
theorem sent : e.sent = d.sent := by obtain ⟨_, _, _, _, rfl⟩ := h; rfl

end Told

-- Registers and counters ----------------------------------------------------------------------------------------------

theorem raise_told (d : Device) (b n : Nat) : Told d (d.raise b n) := by
  obtain ⟨f, h⟩ := Device.raise_file d b n
  exact ⟨f, d.perf, d.budget, d.freeCtr, h⟩

theorem countN_told (d : Device) (a n : Nat) : Told d (d.countN a n) := ⟨_, _, _, _, rfl⟩

theorem setReg_told (d : Device) (a : Nat) (v : Word) : Told d (d.setReg a v) := ⟨_, _, _, _, rfl⟩

theorem setW1c_told (d : Device) (a n : Nat) : Told d (d.setW1c a n) := ⟨_, _, _, _, rfl⟩

theorem free_told (d : Device) (w : Nat) : Told d (d.free w).2 := ⟨_, _, _, _, rfl⟩

-- Events (R363 to R368) -----------------------------------------------------------------------------------------------

theorem pushSample_told (d : Device) (n : Nat) (s : Sample) : Told d (d.pushSample n s) := by
  unfold Device.pushSample
  extract_lets l pf e
  have he : Told d e := ⟨_, _, _, _, rfl⟩
  clear_value e
  refine he.trans (.ite ?_ (.ite (raise_told _ _ _) (.refl e)))
  exact .trans ⟨_, _, _, _, rfl⟩ (raise_told _ _ _)

theorem noteWrap_told (d : Device) (w : Nat) (o i : Bool) (m : Nat) : Told d (d.noteWrap w o i m) := ⟨_, _, _, _, rfl⟩

theorem pcAdd_told (d : Device) (gal : Option Nat) (k n : Nat) (p : Option EvPkt) (c : Nat) : Told d (d.pcAdd gal k n p c) := by
  unfold Device.pcAdd
  extract_lets w sum src sel sampling reload v ovf d1 d2 src2 d3 src3
  have h2 : Told d d2 := ⟨_, _, _, _, rfl⟩
  clear_value d2
  refine .ite ⟨_, _, _, _, rfl⟩ ?_
  cases gal with
  | none => exact h2.trans (noteWrap_told _ _ _ _ _)
  | some n =>
    dsimp -zeta only
    refine .ite ?_ (h2.trans (noteWrap_told _ _ _ _ _))
    extract_lets irq full

    have h3 : Told d d3 := h2.trans ⟨_, _, _, _, rfl⟩
    clear_value d3
    split
    · exact h3.trans ((pushSample_told _ _ _).trans (noteWrap_told _ _ _ _ _))
    · exact h3.trans (.trans ⟨_, _, _, _, rfl⟩ (noteWrap_told _ _ _ _ _))

theorem event_told (d : Device) (gal : Option Nat) (code n : Nat) (attr : Option Nat) (p : EvPkt) :
    Told d (d.event gal code n attr p) := by
  unfold Device.event
  extract_lets base
  refine .ite (.refl d) (.foldl (fun e k => .ite ?_ (.refl e)) _ d)
  exact (pcAdd_told e gal k n _ _).trans ⟨_, _, _, _, rfl⟩

theorem lhMoved_told (d : Device) (n : Nat) (attr : Option Nat) : Told d (d.lhMoved n attr) := by
  unfold Device.lhMoved
  refine .ite (.refl d) ?_
  cases attr with
  | some a => exact event_told d _ _ _ _ _
  | none => exact (free_told d 24).trans (event_told _ _ _ _ _ _)

-- Budgets (R38, R40) --------------------------------------------------------------------------------------------------

theorem spend_told (d : Device) (act inst n tag : Nat) : Told d (d.spend act inst n tag) := ⟨_, _, _, _, rfl⟩

theorem mustWait_told (d : Device) (act inst tag n : Nat) : Told d (d.mustWait act inst tag n) := by
  unfold Device.mustWait
  extract_lets b e
  have he : Told d e := ⟨_, _, _, _, rfl⟩
  clear_value e
  refine .ite ⟨_, _, _, _, rfl⟩ ?_
  split
  · exact he.trans (event_told e _ _ _ _ _)
  · exact he.trans (event_told e _ _ _ _ _)

theorem spendPart_told (d : Device) (act inst take rest tag : Nat) : Told d (d.spendPart act inst take rest tag) :=
  (mustWait_told d act inst tag rest).trans ⟨_, _, _, _, rfl⟩

theorem takePieces_told (d : Device) (act inst need had tag : Nat) : Told d (d.takePieces act inst need had tag).1 := by
  unfold Device.takePieces
  dsimp only
  split
  · exact spend_told _ _ _ _ _
  · exact spendPart_told _ _ _ _ _ _

theorem inPieces_told (d : Device) (act inst need tag : Nat) : Told d (d.inPieces act inst need tag).1 :=
  (takePieces_told d act inst need _ tag).trans ⟨_, _, _, _, rfl⟩

end Sys2Proof.Machine

/-! Spill to the Lower Hall and return from it, the sparing of banks, and replication lists (R180, R188 to R193). -/

namespace Sys2Proof.Machine

-- Replication lists ---------------------------------------------------------------------------------------------------

section
variable {d : Device} {src : Source} {l w : Nat} (hl : F.HALL_REP_ADDR_LIST.get (d.reg A.HALL_REP_ADDR) = l)
  (hw : F.HALL_REP_ADDR_WORD.get (d.reg A.HALL_REP_ADDR) = w)
include hl hw

theorem repCommand_write (h : w ≤ 32) : repCommand d src (F.HALL_REP_CMD_WRITE.put 0 1) = { d with hall := { d.hall with
    replNew := assocSet d.hall.replNew (64 * l + w)
      (if w = 32 then (d.reg A.HALL_REP_DATA).toNat % 2 else (d.reg A.HALL_REP_DATA).toNat) } } := by
  subst hl hw
  unfold repCommand
  extract_lets ad word key v0 v hal e
  rw [if_neg (by decide), if_neg (show ¬ 32 < word from Nat.not_lt.2 h), if_pos (by decide)]
  exact if_neg (by decide)

theorem repCommand_read (h : w ≤ 32) : repCommand d src (F.HALL_REP_CMD_READ.put 0 1) = d.setReg A.HALL_REP_DATA
    (BitVec.ofNat 32 ((assoc d.hall.replNew (64 * l + w)).getD (tnat d.hall.repl (64 * l + w)))) := by
  subst hl hw
  unfold repCommand
  extract_lets ad word key v0 v hal e
  have he : e = d := if_pos (by decide)
  rw [if_neg (by decide), if_neg (show ¬ 32 < word from Nat.not_lt.2 h), if_neg (by decide)]
  clear_value e
  subst he
  rfl

omit hl in
theorem repCommand_beyond (h : 32 < w) {c : Word} (hc : F.HALL_REP_CMD_WRITE.get c ≠ 0 ∨ F.HALL_REP_CMD_READ.get c ≠ 0) :
    repCommand d src c = d.refuse src A.HALL_REP_CMD := by
  subst hw
  unfold repCommand
  extract_lets ad word key v0 v hal e
  rw [if_neg fun ⟨hw, hr⟩ => hc.elim (· hw) (· hr)]
  exact if_pos h

end

-- Banks (R188, R189) --------------------------------------------------------------------------------------------------

/-- The bank whose live cells are copied is remapped to its spare, and the next retired bank takes its place. -/
theorem bankRemap_spec {d : Device} {k : BankCopy} (hk : d.hall.copying = some k) (hl : k.todo.filter d.cellLive = [])
    (hs : k.last < d.strokeNo) (hc : d.stroke.cyc = 0) (hz : k.spare ≠ 0) :
    tnat (bankRemap d).hall.bankMap k.bank = k.spare ∧ (bankRemap d).hall.sparesUsed = d.hall.sparesUsed + 1 ∧
    (d.hall.bankQueue = [] → (bankRemap d).hall.copying = none) ∧
    ∀ b l, d.hall.bankQueue = b :: l → (bankRemap d).hall.bankQueue = l ∧ ((bankRemap d).hall.copying.map (·.bank)) = some b := by
  unfold bankRemap
  rw [hk]
  dsimp -zeta only
  rw [if_neg (by rw [hl]; simp [hc, hs])]
  extract_lets hal d1 ras d2 d3
  have h3 : d3.hall = { d.hall with bankMap := tnatSet d.hall.bankMap k.bank k.spare, sparesUsed := d.hall.sparesUsed + 1, copying := none } :=
    Device.raise_hall d2 _ _
  have map : tnat (tnatSet d.hall.bankMap k.bank k.spare) k.bank = k.spare := tabGet_tabSet_ne _ hz
  clear_value d3
  cases hq : d.hall.bankQueue with
  | nil =>
    rw [show d3.hall.bankQueue = [] from (congrArg (·.bankQueue) h3).trans hq]
    dsimp only
    rw [h3]
    exact ⟨map, rfl, fun _ => rfl, fun _ _ h => nomatch h⟩
  | cons b l =>
    rw [show d3.hall.bankQueue = b :: l from (congrArg (·.bankQueue) h3).trans hq]
    refine ⟨(congrArg (fun h => tnat h.bankMap k.bank) h3).trans map, congrArg (·.sparesUsed) h3, fun h => absurd h (List.cons_ne_nil _ _), fun b' l' h => ?_⟩
    cases h
    exact ⟨rfl, rfl⟩

/-- Live cells of the bank are copied, as many as one piece holds and the budget admits. -/
theorem bankCopy_live {d : Device} {k : BankCopy} {bad : Bool} (hk : d.hall.copying = some k) {a : Nat} {l : List Nat} {m : Nat}
    (hl : k.todo.filter d.cellLive = a :: l) (hm : m = (if bad then 1 else min 4 (l.length + 1))) :
    bankCopy d bad = if !d.canAdmit 0x11 0 m 1 d.stroke.cyc (bankTag k.bank) then
        ({ d with hall := { d.hall with copying := some { k with todo := a :: l } } }).mustWait 0x11 0 (bankTag k.bank) m
      else
        let g : Device := { d.spend 0x11 0 m (bankTag k.bank) with
          hall := { d.hall with copying := some { k with todo := (a :: l).drop m, last := d.strokeNo } } }
        if bad then g.cellLost a else g.countN (hallCnt 10) m := by
  have hn : (if bad then min 1 (a :: l).length else min 4 (a :: l).length) = m := by
    rw [hm, List.length_cons]
    cases bad
    · rfl
    · exact Nat.min_eq_left (Nat.le_add_left 1 l.length)
  have hpos : m ≠ 0 := by
    rw [hm]
    split <;> omega
  unfold bankCopy
  rw [hk]
  dsimp -zeta only
  rw [hl]
  extract_lets live n keep e
  have hnm : n = m := hn
  clear_value n
  subst hnm
  rw [if_neg hpos]
  rfl

-- Spill (R191 to R194) ------------------------------------------------------------------------------------------------

/-- The copies in the queues and what is sent are as they were. -/
structure KeepCopies (d e : Device) : Prop where
  copies : e.hall.copies = d.hall.copies
  sent : e.sent = d.sent

theorem KeepCopies.refl (d : Device) : KeepCopies d d := ⟨rfl, rfl⟩

theorem KeepCopies.trans {a b c : Device} (h : KeepCopies a b) (k : KeepCopies b c) : KeepCopies a c :=
  ⟨k.copies.trans h.copies, k.sent.trans h.sent⟩

theorem KeepCopies.ite {d a b : Device} {c : Prop} [Decidable c] (ha : KeepCopies d a) (hb : KeepCopies d b) :
    KeepCopies d (if c then a else b) := by
  split
  · exact ha
  · exact hb

theorem KeepCopies.copy {d e : Device} (h : KeepCopies d e) (u : Nat) : e.copy u = d.copy u := by
  rw [Device.copy, h.copies]
  rfl

theorem Told.keepCopies {d e : Device} (h : Told d e) : KeepCopies d e := ⟨congrArg (·.copies) h.hall, h.sent⟩

theorem modFrame_keepCopies (d : Device) (id : Nat) (g : Frame → Frame) : KeepCopies d (d.modFrame id g) := by
  unfold Device.modFrame
  split
  · exact ⟨rfl, rfl⟩
  · exact .refl d

theorem allocCells_keepCopies (id gal : Nat) : ∀ (n : Nat) (d : Device), KeepCopies d (d.allocCells id gal n)
  | 0, d => .refl d
  | n + 1, d => by
    unfold Device.allocCells
    split
    · exact .refl d
    · extract_lets hal e
      have he : KeepCopies d e := ⟨rfl, rfl⟩
      exact he.trans ((modFrame_keepCopies e _ _).trans (allocCells_keepCopies id gal n _))

section
variable {d : Device} {n : Nat} {bad : Bool} {c : Copy} {f : Frame} (hn : d.nextReturn n = some (c, f))
include hn

theorem spillReturn_full (h : d.hall.free < cellsOf (c.bytesOf f)) : spillReturn d n bad = d := by
  unfold spillReturn
  rw [hn]
  exact if_pos h

variable (hf : cellsOf (c.bytesOf f) ≤ d.hall.free)
include hf

theorem spillReturn_waits (ha : d.canAdmit 0x04 n (cellsOf (c.bytesOf f)) 1 d.stroke.cyc c.uid = false) :
    spillReturn d n bad = d.mustWait 0x04 n c.uid (cellsOf (c.bytesOf f)) := by
  unfold spillReturn
  rw [hn]
  dsimp -zeta only
  rw [if_neg (Nat.not_lt.2 hf)]
  exact if_pos (by rw [ha]; rfl)

variable (ha : d.canAdmit 0x04 n (cellsOf (c.bytesOf f)) 1 d.stroke.cyc c.uid = true)
include ha

theorem spillReturn_part (hw : (d.inPieces 0x06 (2 * n + 1) (spillUnits (c.bytesOf f)) c.uid).2 = false) :
    spillReturn d n bad = (d.inPieces 0x06 (2 * n + 1) (spillUnits (c.bytesOf f)) c.uid).1 := by
  unfold spillReturn
  rw [hn]
  dsimp -zeta only
  rw [if_neg (Nat.not_lt.2 hf), ha, if_neg (by decide)]
  exact if_pos (by rw [hw]; rfl)

theorem spillReturn_bad (hw : (d.inPieces 0x06 (2 * n + 1) (spillUnits (c.bytesOf f)) c.uid).2 = true) :
    spillReturn d n true = ((d.inPieces 0x06 (2 * n + 1) (spillUnits (c.bytesOf f)) c.uid).1.event none 0x8003
      (spillUnits (c.bytesOf f)) (c.billets.head?.map lhAttr) {}).dropCopy c.uid 0xB1 n true none := by
  unfold spillReturn
  rw [hn]
  dsimp -zeta only
  rw [if_neg (Nat.not_lt.2 hf), ha, if_neg (by decide), if_neg (by rw [hw]; decide), if_pos rfl]

end

/-- What a return of a whole packet makes of it. -/
theorem spillReturn_whole {d : Device} {n : Nat} {c : Copy} {f : Frame} (hn : d.nextReturn n = some (c, f))
    (hu : d.copy c.uid = some c) (hw : (d.inPieces 0x06 (2 * n + 1) (spillUnits (c.bytesOf f)) c.uid).2 = true)
    (hf : cellsOf (c.bytesOf f) ≤ d.hall.free)
    (ha : d.canAdmit 0x04 n (cellsOf (c.bytesOf f)) 1 d.stroke.cyc c.uid = true) {e : Device} (he : spillReturn d n false = e) :
    e.sent = d.sent ∧ ∃ y, e.copy c.uid = some y ∧ y.seg = .head ∧ y.billets = [] ∧ y.queue = c.queue ∧
      y.charges = [(.qShared, cellsOf (c.bytesOf f))] := by
  have kg := (inPieces_told d 0x06 (2 * n + 1) (spillUnits (c.bytesOf f)) c.uid).keepCopies
  unfold spillReturn at he
  rw [hn] at he
  dsimp -zeta only at he
  extract_lets q l cells units inst d1 d2 d3 d4 d5 d6 hal d7 d8 d9 at he
  rw [if_neg (Nat.not_lt.2 hf), ha, if_neg (by decide), if_neg (by rw [show (d.inPieces 6 inst units c.uid).2 = true from hw]; decide),
    if_neg (by decide)] at he
  have k1 : KeepCopies d d1 := kg.trans (event_told _ _ _ _ _ _).keepCopies
  have u2 : d2.copy c.uid = some { c with billets := [], spillHdr := none } :=
    copy_modCopy (g := fun c => { c with billets := [], spillHdr := none }) ((k1.copy c.uid).trans hu) rfl
  have s2 : d2.sent = d.sent := k1.sent
  clear_value d2
  have k3 : KeepCopies d2 d3 := ⟨rfl, rfl⟩
  have k4 : KeepCopies d2 d4 := k3.trans (event_told d3 _ _ _ _ _).keepCopies
  clear_value d4
  have k5 : KeepCopies d4 d5 := .ite ((modFrame_keepCopies _ _ _).trans (allocCells_keepCopies _ _ _ _)) (.refl _)
  clear_value d5
  have k7 : KeepCopies d5 d7 := ⟨rfl, rfl⟩
  have k8 : KeepCopies d5 d8 := k7.trans (modFrame_keepCopies d7 _ _)
  clear_value d8
  have k := k4.trans (k5.trans k8)
  subst he
  exact ⟨k.sent.trans s2, _, copy_modCopy (g := fun c => { c with
    seg := .head, charges := [(.qShared, cells)], returned := 0, read := 0, poolCharge := .qShared, ownCells := true })
    ((k.copy c.uid).trans u2) rfl, rfl, rfl, rfl, rfl⟩

/-- The accounts of the queues, the copies' numbers and what is sent are as they were. -/
structure KeepAccounts (d e : Device) : Prop where
  queues : e.hall.queues = d.hall.queues
  sent : e.sent = d.sent

theorem Told.keepAccounts {d e : Device} (h : Told d e) : KeepAccounts d e := ⟨congrArg (·.queues) h.hall, h.sent⟩

theorem KeepAccounts.trans {a b c : Device} (h : KeepAccounts a b) (k : KeepAccounts b c) : KeepAccounts a c :=
  ⟨k.queues.trans h.queues, k.sent.trans h.sent⟩

/-- The cells of a copy that leaves the Upper Hall are free at the boundary; the copy is charged nothing. -/
theorem freeCells_spec {d : Device} {c : Copy} (hu : d.copy c.uid = some c) :
    (d.freeCells c).copy c.uid = some { c with charges := [] } ∧ KeepAccounts d (d.freeCells c) := by
  unfold Device.freeCells
  extract_lets rel hal d1 others d2
  have u2 : d2.copy c.uid = some { c with charges := [] } := copy_modCopy (g := fun c => { c with charges := [] }) hu rfl
  have k2 : KeepAccounts d d2 := ⟨rfl, rfl⟩
  clear_value d2
  split
  · exact ⟨u2, k2⟩
  · split
    · exact ⟨u2, k2⟩
    · exact ⟨u2, k2.queues, k2.sent⟩

/-- A change of one copy leaves those of other numbers. -/
theorem copy_modCopy_other {d : Device} {l u : Nat} {g : Copy → Copy} (hg : ∀ c, (g c).uid = c.uid) (h : l ≠ u) :
    (d.modCopy l g).copy u = d.copy u := by
  show (d.hall.copies.map _).find? _ = d.hall.copies.find? _
  induction d.hall.copies with
  | nil => rfl
  | cons a t ih =>
    have ha : (if a.uid = l then g a else a).uid = a.uid := by
      split
      · exact hg a
      · rfl
    rw [List.map_cons, List.find?_cons, List.find?_cons, ha, ih]
    by_cases hu : a.uid = u
    · rw [if_neg (by omega)]
    · simp [hu]

/-- The link to a packet moved to the Lower Hall is kept in the one before. -/
theorem linkSpilled_spec {d : Device} {u : Nat} {x : Copy} (hu : d.copy u = some x) (q ptr : Nat) :
    (∃ h, (d.linkSpilled q ptr).copy u = some { x with spillHdr := h }) ∧ KeepAccounts d (d.linkSpilled q ptr) := by
  unfold Device.linkSpilled
  split
  · exact ⟨⟨x.spillHdr, hu⟩, rfl, rfl⟩
  · next l _ =>
    refine ⟨?_, rfl, rfl⟩
    by_cases h : l.uid = u
    · rw [h]
      have hx : x.uid = u := by simpa using List.find?_some hu
      exact ⟨_, copy_modCopy (g := fun c => { c with spillHdr := c.spillHdr.map fun h => { h with next := ptr } }) hu hx⟩
    · exact ⟨x.spillHdr, (copy_modCopy_other (g := fun c => { c with spillHdr := c.spillHdr.map fun h => { h with next := ptr } })
        (fun _ => rfl) h).trans hu⟩

/-- The billets that the next packet to spill needs are asked for. -/
def Device.spillAsk (d : Device) (n : Nat) (c : Copy) (f : Frame) : Device :=
  (List.range (spillSizes (c.bytesOf f)).length).foldl (fun d k =>
    if d.askedBillet n (spillTag c.uid k) then d else d.askBillet n ((spillSizes (c.bytesOf f)).getD k 0) (spillTag c.uid k)) d

theorem spillAsk_hall (d : Device) (n : Nat) (c : Copy) (f : Frame) :
    (d.spillAsk n c f).hall = d.hall ∧ (d.spillAsk n c f).sent = d.sent := by
  have h : ∀ (e : Device) (k : Nat), (if e.askedBillet n (spillTag c.uid k) then e
      else e.askBillet n ((spillSizes (c.bytesOf f)).getD k 0) (spillTag c.uid k)).hall = e.hall ∧
      (if e.askedBillet n (spillTag c.uid k) then e
      else e.askBillet n ((spillSizes (c.bytesOf f)).getD k 0) (spillTag c.uid k)).sent = e.sent := fun e k => by
    split
    · exact ⟨rfl, rfl⟩
    · exact ⟨rfl, rfl⟩
  exact ⟨foldl_frame (·.hall) (f := fun d k => if d.askedBillet n (spillTag c.uid k) then d
      else d.askBillet n ((spillSizes (c.bytesOf f)).getD k 0) (spillTag c.uid k)) (fun e k => (h e k).1) _ d,
    foldl_frame (·.sent) (f := fun d k => if d.askedBillet n (spillTag c.uid k) then d
      else d.askBillet n ((spillSizes (c.bytesOf f)).getD k 0) (spillTag c.uid k)) (fun e k => (h e k).2) _ d⟩

section
variable {d : Device} {n : Nat} {c : Copy} {f : Frame} (hn : d.nextSpill n = some c) (hf : d.frame c.frame = some f)
  (hw : f.whole = true) (hr : ((List.range 32).any fun g => d.returnReady g) = false)
include hn hf hw hr

theorem spillMove_bad {a : Nat} {l : List Nat} (hc : f.cells = a :: l) : spillMove d n true = d.cellLost a := by
  unfold spillMove
  rw [hn]
  dsimp -zeta only
  rw [hf]
  dsimp -zeta only
  rw [if_neg (by rw [hw, hr]; decide), if_pos rfl, hc]
  rfl

variable {g : Device} (hg : d.spillAsk n c f = g) {ptrs : List Nat}
  (hp : ((List.range (spillSizes (c.bytesOf f)).length).filterMap fun k => g.grantedFor n (spillTag c.uid k)) = ptrs)
include hg hp

theorem spillMove_short (hs : ptrs.length < (spillSizes (c.bytesOf f)).length) : spillMove d n false = g := by
  unfold spillMove
  rw [hn]
  dsimp -zeta only
  rw [hf]
  dsimp -zeta only
  rw [if_neg (by rw [hw, hr]; decide), if_neg (by decide)]
  extract_lets l sizes e qs
  have he : e = g := hg
  clear_value e
  subst he
  have hq : qs = ptrs := hp
  clear_value qs
  subst hq
  exact if_pos hs

theorem spillMove_part (hs : ptrs.length = (spillSizes (c.bytesOf f)).length)
    (hq : (g.inPieces 0x06 (2 * n) (spillUnits (c.bytesOf f)) c.uid).2 = false) :
    spillMove d n false = (g.inPieces 0x06 (2 * n) (spillUnits (c.bytesOf f)) c.uid).1 := by
  unfold spillMove
  rw [hn]
  dsimp -zeta only
  rw [hf]
  dsimp -zeta only
  rw [if_neg (by rw [hw, hr]; decide), if_neg (by decide)]
  extract_lets l sizes e qs
  have he : e = g := hg
  clear_value e
  subst he
  have hq : qs = ptrs := hp
  clear_value qs
  subst hq
  rw [if_neg (Nat.not_lt.2 (Nat.le_of_eq hs.symm))]
  exact if_pos (by rw [hq]; rfl)

/-- What a spill of a whole packet makes of it and of its queue's account. -/
theorem spillMove_whole (hu : d.copy c.uid = some c) (hs : ptrs.length = (spillSizes (c.bytesOf f)).length)
    (hq : (g.inPieces 0x06 (2 * n) (spillUnits (c.bytesOf f)) c.uid).2 = true) {e : Device} (he : spillMove d n false = e) :
    (∃ y, e.copy c.uid = some y ∧ y.seg = .middle ∧ y.billets = ptrs ∧ y.charges = [] ∧ y.queue = c.queue) ∧
    (e.queueSt c.queue).lhPkts = (d.queueSt c.queue).lhPkts + 1 ∧
    (e.queueSt c.queue).lhBytes = (d.queueSt c.queue).lhBytes + spillBytes (c.bytesOf f) ∧ e.sent = d.sent := by
  obtain ⟨ghall, gsent⟩ := spillAsk_hall d n c f
  rw [hg] at ghall gsent
  have kp := inPieces_told g 0x06 (2 * n) (spillUnits (c.bytesOf f)) c.uid
  unfold spillMove at he
  rw [hn] at he
  dsimp -zeta only at he
  rw [hf] at he
  dsimp -zeta only at he
  rw [if_neg (by rw [hw, hr]; decide), if_neg (by decide)] at he
  extract_lets l sizes d0 qs units inst d1 d2 d3 d4 d5 st st' at he
  have h0 : d0 = g := hg
  clear_value d0
  subst h0
  have hqs : qs = ptrs := hp
  clear_value qs
  subst hqs
  rw [if_neg (Nat.not_lt.2 (Nat.le_of_eq hs.symm)), if_neg (by rw [show (d0.inPieces 6 inst units c.uid).2 = true from hq]; decide)] at he
  have k1 : Told d0 d1 := kp.trans (event_told _ _ _ _ _ _)
  clear_value d1
  have h2 : d2.hall = d1.hall ∧ d2.sent = d1.sent := ⟨foldl_frame (·.hall) (f := fun d k => d.takeGrant n (spillTag c.uid k)) (fun _ _ => rfl) _ d1,
    foldl_frame (·.sent) (f := fun d k => d.takeGrant n (spillTag c.uid k)) (fun _ _ => rfl) _ d1⟩
  clear_value d2
  have hall2 : d2.hall = d.hall := h2.1.trans (k1.hall.trans ghall)
  have sent2 : d2.sent = d.sent := h2.2.trans (k1.sent.trans gsent)
  have u2 : d2.copy c.uid = some c := by
    rw [Device.copy, hall2]
    exact hu
  obtain ⟨u3, k3⟩ := freeCells_spec u2
  obtain ⟨⟨sh, u4⟩, k4⟩ := linkSpilled_spec u3 c.queue (qs.headD 0)
  have k := k3.trans k4
  have u5 : d5.copy c.uid = some { c with charges := [], seg := .middle, billets := qs
                                          spillHdr := some { second := qs.getD 1 0, len := l, colour := c.colour, stamp := f.stamp, queued := c.at16 } } :=
    copy_modCopy (g := fun c => { c with
      seg := .middle, billets := qs
      spillHdr := some { second := qs.getD 1 0, len := l, colour := c.colour, stamp := f.stamp, queued := c.at16 } }) u4 rfl
  have k5 : d5.hall.queues = d.hall.queues := k.queues.trans (congrArg (·.queues) hall2)
  have s5 : d5.sent = d.sent := k.sent.trans sent2
  clear_value d5
  have hst : st = d.queueSt c.queue := by
    show tabGet _ d5.hall.queues _ = tabGet _ d.hall.queues _
    rw [k5]
  have hset : tabGet (fun _ => ({} : QueueSt)) (tabSet (fun _ => ({} : QueueSt)) d5.hall.queues c.queue st') c.queue = st' :=
    tabGet_tabSet_ne _ fun h => absurd (congrArg (·.lhPkts) h) (Nat.succ_ne_zero _)
  rw [← hst]
  subst he
  exact ⟨⟨_, u5, rfl, rfl, rfl, rfl⟩, congrArg (·.lhPkts) hset, congrArg (·.lhBytes) hset, s5⟩

end

/-- Settles O46. -/
theorem spillAndBanks : Obligations.SpillAndBanks := by
  unfold Obligations.SpillAndBanks
  refine ⟨?spill, ?back, ?copy, ?remap, ?lost, ?rep⟩
  case spill =>
    intro s g n c f hn hc hsp hu hf hw hr hg
    have wf : ∀ b, (Instr.spillMove n b).wf = true := fun b => by simp [Instr.wf, hn]
    refine ⟨fun a l hl => makes_clock (f := fun d => spillMove d n true) rfl (wf _) hc (spillMove_bad hsp hf hw hr hl),
      fun ptrs hp => ⟨fun hs => makes_clock (f := fun d => spillMove d n false) rfl (wf _) hc (spillMove_short hsp hf hw hr hg hp hs),
        fun hs h whole hq => ⟨fun hb => ?_, fun hb => ?_⟩⟩⟩
    · refine makes_clock (f := fun d => spillMove d n false) rfl (wf _) hc ?_
      rw [spillMove_part hsp hf hw hr hg hp hs (by rw [hq]; exact hb), hq]
    · exact completes_clock (f := fun d => spillMove d n false) rfl (wf _) hc
        (spillMove_whole hsp hf hw hr hg hp hu hs (by rw [hq]; exact hb) rfl)
  case back =>
    intro s g n bad whole c f hn hc hr hu hp
    have wf : ∀ b, (Instr.spillReturn n b).wf = true := fun b => by simp [Instr.wf, hn]
    refine ⟨fun h => ?_, fun h => ⟨fun ha => ?_, fun ha => ⟨fun hw => ?_, fun hw hb => ?_, fun hw hb => ?_⟩⟩⟩
    · exact makes_clock (f := fun d => spillReturn d n bad) (g := id) rfl (wf _) hc (spillReturn_full hr h)
    · exact makes_clock (f := fun d => spillReturn d n bad) rfl (wf _) hc (spillReturn_waits hr h ha)
    · refine makes_clock (f := fun d => spillReturn d n bad) rfl (wf _) hc ?_
      rw [spillReturn_part hr h ha (by rw [hp]; exact hw), hp]
    · refine makes_clock (f := fun d => spillReturn d n bad) rfl (wf _) hc ?_
      rw [hb, spillReturn_bad hr h ha (by rw [hp]; exact hw), hp]
    · subst hb
      exact completes_clock (f := fun d => spillReturn d n false) rfl (wf _) hc
        (spillReturn_whole hr hu (by rw [hp]; exact hw) h ha rfl)
  case copy =>
    intro s k bad hc hk
    refine ⟨fun hl => makes_clock (f := fun d => bankCopy d bad) rfl rfl hc ?_, fun a l m hl hm => ⟨fun ha => ?_, fun ha => ?_⟩⟩
    · show bankCopy s.dev bad = _
      unfold bankCopy
      rw [hk]
      dsimp -zeta only
      rw [hl]
      extract_lets live n keep e
      exact if_pos (show (if bad then min 1 0 else min 4 0) = 0 by split <;> rfl)
    · exact makes_clock (f := fun d => bankCopy d bad) rfl rfl hc ((bankCopy_live hk hl hm).trans (by rw [ha]; rfl))
    · have h := (bankCopy_live hk hl hm).trans (if_neg (by rw [ha]; decide))
      refine completes_clock (f := fun d => bankCopy d bad) rfl rfl hc ⟨_, ?_, ?_, h⟩
      · rfl
      · rfl
  case remap =>
    intro s k hc hk hl hs h0 hz
    exact completes_clock (f := bankRemap) rfl rfl hc (bankRemap_spec hk hl hs h0 hz)
  case lost =>
    intro s b hc h0 hb
    refine makes_clock (f := bankLost) rfl rfl hc ?_
    unfold bankLost
    rw [hb]
    exact if_neg (not_not_intro h0)
  case rep =>
    intro s src l w hg hl hw
    refine ⟨fun h => ⟨?_, ?_⟩, fun h => ⟨?_, ?_⟩⟩
    · refine makes_run (f := fun d => busWrite d src A.HALL_REP_CMD 0xF (F.HALL_REP_CMD_WRITE.put 0 1)) rfl rfl ?_
      exact (write_HALL_REP_CMD hg _).trans (repCommand_write hl hw h)
    · refine makes_run (f := fun d => busWrite d src A.HALL_REP_CMD 0xF (F.HALL_REP_CMD_READ.put 0 1)) rfl rfl ?_
      exact (write_HALL_REP_CMD hg _).trans (repCommand_read hl hw h)
    · refine makes_run (f := fun d => busWrite d src A.HALL_REP_CMD 0xF (F.HALL_REP_CMD_WRITE.put 0 1)) rfl rfl ?_
      exact (write_HALL_REP_CMD hg _).trans (repCommand_beyond hw h (.inl (by decide)))
    · refine makes_run (f := fun d => busWrite d src A.HALL_REP_CMD 0xF (F.HALL_REP_CMD_READ.put 0 1)) rfl rfl ?_
      exact (write_HALL_REP_CMD hg _).trans (repCommand_beyond hw h (.inr (by decide)))

end Sys2Proof.Machine

/-! Grants and frees of billets, and the pointer caches of the pools (R196, R198 to R201). -/

namespace Sys2Proof.Machine

theorem modifyAt_length {α : Type} (f : α → α) : ∀ (l : List α) (i : Nat), (modifyAt l i f).length = l.length
  | [], _ => rfl
  | _ :: _, 0 => rfl
  | _ :: l, i + 1 => congrArg (· + 1) (modifyAt_length f l i)

theorem getD_modifyAt {α : Type} (f : α → α) (z : α) : ∀ (l : List α) (i : Nat), i < l.length →
    (modifyAt l i f).getD i z = f (l.getD i z)
  | [], _, h => absurd h (Nat.not_lt_zero _)
  | _ :: _, 0, _ => rfl
  | _ :: l, i + 1, h => getD_modifyAt f z l i (Nat.lt_of_succ_lt_succ h)

/-- A pool reads what was last set. -/
theorem pool_setPool {d : Device} {p : Nat} (hl : d.billet.pools.length = 4) (hp : p < 4) (v : Pool) : (d.setPool p v).pool p = v :=
  getD_modifyAt (fun _ => v) {} d.billet.pools p (by rw [hl]; exact hp)

theorem setPool_length (d : Device) (p : Nat) (v : Pool) : (d.setPool p v).billet.pools.length = d.billet.pools.length :=
  modifyAt_length _ _ _

theorem Told.pool {d e : Device} (h : Told d e) (p : Nat) : e.pool p = d.pool p := by rw [Device.pool, h.billet]; rfl

-- Grants (R199, R200) -------------------------------------------------------------------------------------------------

/-- What a grant of the first pointer in the cache leaves. -/
structure Granted (d e : Device) (p r ptr : Nat) (cache : List Nat) : Prop where
  length : e.billet.pools.length = 4
  cache : (e.pool p).cache = cache
  waiting : (e.pool p).waiting = (d.pool p).waiting
  rot : (e.pool p).rot = (r + 1) % 100
  granted : e.billet.granted = d.billet.granted
  out : tnat e.billet.out ptr = 1 + r
  held : e.ownHeld (ownerOf r) p = d.ownHeld (ownerOf r) p + 1

theorem grantTo_spec {d : Device} {p : Nat} (hl : d.billet.pools.length = 4) (hp : p < 4) (r ptr : Nat) (cache : List Nat) :
    Granted d (d.grantTo p r ptr cache) p r ptr cache := by
  unfold Device.grantTo
  extract_lets s before d1 b d2 d3
  have pool3 : d3.pool p = { s with cache := cache, rot := (r + 1) % 100, grants := s.grants + 1 } :=
    pool_setPool hl hp _
  have hb : d3.billet.pools.length = 4 ∧ d3.billet.granted = d.billet.granted ∧ tnat d3.billet.out ptr = 1 + r ∧
      d3.ownHeld (ownerOf r) p = d.ownHeld (ownerOf r) p + 1 :=
    ⟨(setPool_length d p _).trans hl, rfl, tabGet_tabSet_ne _ (by unfold zeroNat; omega),
      tabGet_tabSet_ne (dflt := zeroNat) (v := d.ownHeld (ownerOf r) p + 1) d.billet.held (Nat.succ_ne_zero _)⟩
  obtain ⟨hlen, hgr, hout, hheld⟩ := hb
  have kt : Told d3 ((d3.poolEmptied p before).event none 0x8004 1 (some r) {}) :=
    (Told.ite (raise_told d3 _ _) (.refl d3)).trans (event_told _ _ _ _ _ _)
  clear_value d3
  constructor
  · rw [kt.billet, hlen]
  · rw [kt.pool, pool3]
  · rw [kt.pool, pool3]
  · rw [kt.pool, pool3]
  · rw [kt.billet, hgr]
  · rw [kt.billet, hout]
  · rw [← hheld, Device.ownHeld, kt.billet]
    rfl

/-- The requester that a pool's next grant goes to. -/
def Device.grantee (d : Device) (p : Nat) : Option Nat :=
  rotateTo (d.pool p).rot (((d.pool p).waiting.map (·.1) ++ ((d.billet.jobs.filter fun j => j.pool = p).map (·.req))).filter fun r =>
    d.billetEligible (ownerOf r) p 1)

theorem grantOne_waiting {d : Device} {p r ptr : Nat} {cache : List Nat} {w : Nat × Nat} (hl : d.billet.pools.length = 4) (hp : p < 4)
    (hc : (d.pool p).cache = ptr :: cache) (hr : d.grantee p = some r) (hw : ((d.pool p).waiting.find? fun w => w.1 = r) = some w) :
    ((d.grantOne p).pool p).cache = cache ∧ ((d.grantOne p).pool p).waiting = (d.pool p).waiting.erase w ∧
    ((d.grantOne p).pool p).rot = (r + 1) % 100 ∧ (d.grantOne p).billet.granted = d.billet.granted ++ [(r, w.2, ptr)] ∧
    tnat (d.grantOne p).billet.out ptr = 1 + r ∧ (d.grantOne p).ownHeld (ownerOf r) p = d.ownHeld (ownerOf r) p + 1 ∧
    (d.grantOne p).billet.pools.length = 4 := by
  have g := grantTo_spec hl hp r ptr cache
  unfold Device.grantOne
  extract_lets s can
  rw [show s.cache = ptr :: cache from hc, show rotateTo s.rot can = some r from hr]
  dsimp -zeta only
  extract_lets e s2
  rw [show (s.waiting.find? fun w => w.1 = r) = some w from hw]
  dsimp -zeta only
  extract_lets f bil
  have hf : f.pool p = { s2 with waiting := s2.waiting.erase w, counted := s2.counted.erase w } := pool_setPool g.length hp _
  refine ⟨?_, ?_, ?_, ?_, g.out, g.held, (setPool_length e p _).trans g.length⟩
  · exact (congrArg (·.cache) hf).trans g.cache
  · exact (congrArg (·.waiting) hf).trans (by rw [show s2.waiting = (d.pool p).waiting from g.waiting])
  · exact (congrArg (·.rot) hf).trans g.rot
  · exact congrArg (· ++ _) g.granted

/-- The count of requests that wait changes their marks alone. -/
theorem countWaits_spec {d : Device} {p : Nat} (hl : d.billet.pools.length = 4) (hp : p < 4) :
    (∃ c, (d.countWaits p).pool p = { d.pool p with counted := c }) ∧ (d.countWaits p).billet.granted = d.billet.granted ∧
    (d.countWaits p).billet.out = d.billet.out ∧ (d.countWaits p).billet.held = d.billet.held :=
  ⟨⟨_, pool_setPool (d := { d with billet := { d.billet with
    jobs := d.billet.jobs.map fun (j : BulkJob) => if j.pool = p then { j with counted := true } else j } }) hl hp _⟩, rfl, rfl, rfl⟩

-- Frees (R200, R201) --------------------------------------------------------------------------------------------------

section
variable {d g : Device} {p r : Nat} {f : Nat × Nat} (hc : (d.pool p).cache.length < 512)
  (hr : rotateTo (d.pool p).freeRot ((d.billet.freeing.filter fun f => ptrPool f.2 = p).map (·.1)) = some r)
  (hf : ((d.billet.freeing.filter fun f => ptrPool f.2 = p).find? fun f => f.1 = r) = some f)
  (hg : ({ d with billet := { d.billet with freeing := d.billet.freeing.erase f } }).setPool p
    { d.pool p with freeRot := (r + 1) % 100 } = g)
include hc hr hf hg

theorem billetFree_eq : billetFree d p = if !d.ptrOk f.2 then g.billetErr f.2 r 1
    else if tnat d.billet.out f.2 = 0 then g.billetErr f.2 r 2
    else if d.billet.quarantined.contains f.2 then g.subHeld (ownerOf r) p 1
    else
      let e := g.subHeld (ownerOf r) p 1
      let e := { e with billet := { e.billet with out := tnatSet e.billet.out f.2 0 } }
      e.setPool p { e.pool p with cache := (e.pool p).cache ++ [f.2] } := by
  subst hg
  unfold billetFree
  extract_lets s mine
  rw [if_neg (Nat.not_le.2 hc), show rotateTo s.freeRot (mine.map (·.1)) = some r from hr]
  dsimp -zeta only
  rw [show (mine.find? fun f => f.1 = r) = some f from hf]
  rfl

theorem billetFree_taken (hl : d.billet.pools.length = 4) (hp : p < 4) (ho : d.ptrOk f.2 = true) (hn : tnat d.billet.out f.2 ≠ 0)
    (hq : d.billet.quarantined.contains f.2 = false) (hw : tabWf zeroNat d.billet.out = true) {e : Device} (he : billetFree d p = e) :
    (e.pool p).cache = (d.pool p).cache ++ [f.2] ∧ tnat e.billet.out f.2 = 0 ∧ e.billet.freeing = d.billet.freeing.erase f ∧
    e.file = d.file := by
  rw [billetFree_eq hc hr hf hg, ho, if_neg (by decide), if_neg hn, if_neg (by rw [hq]; decide)] at he
  extract_lets e1 bil e2 at he
  subst hg
  have hp2 : e2.pool p = { d.pool p with freeRot := (r + 1) % 100 } :=
    pool_setPool (d := { d with billet := { d.billet with freeing := d.billet.freeing.erase f } }) hl hp _
  have hl2 : e2.billet.pools.length = 4 := (setPool_length _ p _).trans hl
  have h2 : tnat e2.billet.out f.2 = 0 ∧ e2.billet.freeing = d.billet.freeing.erase f ∧ e2.file = d.file :=
    ⟨tabGet_tabSet_same (dflt := zeroNat) f.2 0 hw, rfl, rfl⟩
  clear_value e2
  obtain ⟨ho2, hf2, hfile⟩ := h2
  subst he
  refine ⟨?_, ho2, hf2, hfile⟩
  rw [pool_setPool hl2 hp, hp2]

end

/-- Settles O47. -/
theorem billets : Obligations.Billets := by
  unfold Obligations.Billets
  refine ⟨?grant, ?job, ?none, ?free, ?full, ?refill, ?back⟩
  case grant =>
    intro s p r ptr cache w hc hp hl hca hr hw
    obtain ⟨h1, h2, h3, h4, h5, h6, h7⟩ := grantOne_waiting hl hp hca hr hw
    obtain ⟨⟨k, hk⟩, hg, ho, hh⟩ := countWaits_spec h7 hp
    refine completes_clock (f := fun d => billetGrant d p) rfl (by simp [Instr.wf, hp]) hc ⟨rfl, ?_, ?_, ?_, ?_, ?_, ?_⟩
    all_goals rw [billetGrant]
    · rw [hk, h1]
    · rw [hk, h2]
    · rw [hk, h3]
    · rw [hg, h4]
    · rw [ho, h5]
    · rw [← h6, Device.ownHeld, hh]
      rfl
  case job =>
    intro s p r ptr cache hc hp hl hca hr hw
    refine makes_clock (f := fun d => billetGrant d p) rfl (by simp [Instr.wf, hp]) hc ?_
    show (s.dev.grantOne p).countWaits p = _
    unfold Device.grantOne
    extract_lets x can
    rw [show x.cache = ptr :: cache from hca, show rotateTo x.rot can = some r from hr]
    dsimp -zeta only
    rw [show (x.waiting.find? fun w => w.1 = r) = none from hw]
  case none =>
    intro s p hc hp hn
    refine makes_clock (f := fun d => billetGrant d p) rfl (by simp [Instr.wf, hp]) hc ?_
    show (s.dev.grantOne p).countWaits p = s.dev.countWaits p
    congr 1
    unfold Device.grantOne
    extract_lets x can
    rcases hn with h | h
    · rw [show x.cache = [] from h]
    · rw [show rotateTo x.rot can = none from h]
      cases x.cache with
      | nil => rfl
      | cons _ _ => rfl
  case free =>
    intro s g p r f hc hp hl hca hr hf hg
    have wf : (Instr.billetFree p).wf = true := by simp [Instr.wf, hp]
    have eq := billetFree_eq hca hr hf hg
    refine ⟨fun h => ?_, fun h h0 => ?_, fun h h0 => ⟨fun hq => ?_, fun hq hw => ?_⟩⟩
    · exact makes_clock (f := fun d => billetFree d p) rfl wf hc (eq.trans (if_pos (by rw [h]; rfl)))
    · refine makes_clock (f := fun d => billetFree d p) rfl wf hc (eq.trans ?_)
      rw [h, if_neg (by decide), if_pos h0]
    · refine makes_clock (f := fun d => billetFree d p) rfl wf hc (eq.trans ?_)
      rw [h, if_neg (by decide), if_neg h0, if_pos hq]
    · exact completes_clock (f := fun d => billetFree d p) rfl wf hc (billetFree_taken hca hr hf hg hl hp h h0 hq hw rfl)
  case full =>
    intro s p hc hp hf
    exact makes_clock (f := fun d => billetFree d p) (g := id) rfl (by simp [Instr.wf, hp]) hc (if_pos hf)
  case refill =>
    intro s p hc hp
    have wf : (Instr.billetCacheRefill p).wf = true := by simp [Instr.wf, hp]
    refine ⟨fun h => makes_clock (f := fun d => billetRefill d p) (g := id) rfl wf hc (if_pos h), fun h hr => ?_⟩
    have hn : ¬ (128 ≤ (s.dev.pool p).cache.length ∨ (s.dev.pool p).ringCount = 0) := by omega
    exact ⟨fun ha => makes_clock (f := fun d => billetRefill d p) rfl wf hc ((if_neg hn).trans (if_neg (by rw [ha]; decide))),
      fun ha => makes_clock (f := fun d => billetRefill d p) rfl wf hc ((if_neg hn).trans (if_pos (by rw [ha]; rfl)))⟩
  case back =>
    intro s p hc hp hl
    have wf : (Instr.billetCacheWriteback p).wf = true := by simp [Instr.wf, hp]
    refine ⟨fun h => makes_clock (f := fun d => billetWriteback d p) (g := id) rfl wf hc (if_pos h), fun h => ⟨fun ha => ?_, fun ha => ?_⟩⟩
    · refine completes_clock (f := fun d => billetWriteback d p) rfl wf hc ?_
      have k := (spend_told s.dev 0x12 0 4 (cacheTag p true)).trans (lhMoved_told _ 4 none)
      have eq : billetWriteback s.dev p = ((s.dev.spend 0x12 0 4 (cacheTag p true)).lhMoved 4 none).setPool p
          { s.dev.pool p with cache := (s.dev.pool p).cache.drop 64, ring := (s.dev.pool p).ring ++ (s.dev.pool p).cache.take 64 } :=
        (if_neg (Nat.not_le.2 h)).trans (if_neg (by rw [ha]; decide))
      rw [eq, pool_setPool (by rw [k.billet]; exact hl) hp]
      refine ⟨rfl, rfl, ?_⟩
      simp only [Pool.free, Pool.ringCount, List.length_append, List.length_drop, List.length_take]
      omega
    · exact makes_clock (f := fun d => billetWriteback d p) rfl wf hc ((if_neg (Nat.not_le.2 h)).trans (if_pos (by rw [ha]; rfl)))

end Sys2Proof.Machine

/-! Gate lists: their commit, their takeover and their edges (R217, R219 to R221, R225). -/

namespace Sys2Proof.Machine

-- Commit (R220) -------------------------------------------------------------------------------------------------------

/-- What the commit of the pending list of port `p` reads. -/
structure SameList (d e : Device) (p : Nat) : Prop where
  gate : e.gateSt p = d.gateSt p
  cycle : e.reg (ofPort A.GATE_GT_CYCLE p) = d.reg (ofPort A.GATE_GT_CYCLE p)
  ns : e.reg (ofPort A.GATE_GT_BASE_NS p) = d.reg (ofPort A.GATE_GT_BASE_NS p)
  sec : e.pair (ofPort A.GATE_GT_BASE_SEC_LO p) (ofPort A.GATE_GT_BASE_SEC_HI p) =
    d.pair (ofPort A.GATE_GT_BASE_SEC_LO p) (ofPort A.GATE_GT_BASE_SEC_HI p)
  entries : ∀ bank len, bank ≤ 1 → len ≤ 64 → e.gateEntries p bank len = d.gateEntries p bank len
  now : e.clockNow = d.clockNow

theorem clockNow_congr {d e : Device} (hc : e.clock = d.clock) (hs : e.stroke = d.stroke) : e.clockNow = d.clockNow := by
  unfold Device.clockNow Device.clockGain Device.inStroke
  rw [hc, hs]

theorem setReg_clockNow {d : Device} (a : Nat) (v : Word) : (d.setReg a v).clockNow = d.clockNow := clockNow_congr rfl rfl

theorem setReg_gateSt {d : Device} (a : Nat) (v : Word) (p : Nat) : (d.setReg a v).gateSt p = d.gateSt p := rfl

section
variable {d : Device} (hw : tabWf regReset d.file.regs = true)
include hw

theorem cfg_setReg_other {a b : Nat} (v : Word) (h : b ≠ a) : (d.setReg a v).cfg b = d.cfg b := by
  rw [Device.cfg, Device.cfg, Device.reg_setReg_other hw v h]
  rfl

theorem gateEntries_setReg {p a : Nat} (v : Word) {bank len : Nat} (h : ∀ k < len, A.GATE_GT_GATES (p / 32) (p % 32) bank k ≠ a ∧
    A.GATE_GT_INTERVAL (p / 32) (p % 32) bank k ≠ a) : (d.setReg a v).gateEntries p bank len = d.gateEntries p bank len := by
  unfold Device.gateEntries
  refine List.map_congr_left fun k hk => ?_
  obtain ⟨h1, h2⟩ := h k (List.mem_range.1 hk)
  rw [Device.reg_setReg_other hw v h1, Device.reg_setReg_other hw v h2]

/-- A write of GT_CTRL leaves the rest of the list. -/
theorem sameList_setReg (p : Nat) (v : Word) : SameList d (d.setReg (ofPort A.GATE_GT_CTRL p) v) p where
  gate := setReg_gateSt _ v p
  cycle := Device.reg_setReg_other hw v (by simp only [ofPort, A.GATE_GT_CYCLE, A.GATE_GT_CTRL]; omega)
  ns := Device.reg_setReg_other hw v (by simp only [ofPort, A.GATE_GT_BASE_NS, A.GATE_GT_CTRL]; omega)
  sec := by
    rw [Device.pair, Device.pair,
      cfg_setReg_other hw (b := ofPort A.GATE_GT_BASE_SEC_LO p) v (by simp only [ofPort, A.GATE_GT_BASE_SEC_LO, A.GATE_GT_CTRL]; omega),
      cfg_setReg_other hw (b := ofPort A.GATE_GT_BASE_SEC_HI p) v (by simp only [ofPort, A.GATE_GT_BASE_SEC_HI, A.GATE_GT_CTRL]; omega)]
  entries bank len hb hl := gateEntries_setReg hw v fun k hk => by
    have hm : p % 32 < 32 := Nat.mod_lt _ (by decide)
    simp only [ofPort, A.GATE_GT_GATES, A.GATE_GT_INTERVAL, A.GATE_GT_CTRL]
    omega
  now := setReg_clockNow _ v

end

/-- LEN of the word that GT_CTRL takes. -/
theorem ctrlLen_get (w : Word) : F.GATE_GT_CTRL_LEN.get (BitVec.ofNat 32 (F.GATE_GT_CTRL_EN.get w + F.GATE_GT_CTRL_LEN.get w * 4)) =
    F.GATE_GT_CTRL_LEN.get w := by
  simp only [Fld.get, bitsOf, F.GATE_GT_CTRL_LEN, F.GATE_GT_CTRL_EN, BitVec.toNat_ofNat]
  omega

/-- The commit as the list that it reads decides. -/
theorem gateCommit_spec {d e : Device} {p len cycle ns sec : Nat} (k : SameList d e p)
    (hlen : F.GATE_GT_CTRL_LEN.get (e.reg (ofPort A.GATE_GT_CTRL p)) = len)
    (hcyc : F.GATE_GT_CYCLE_CYCLE.get (d.reg (ofPort A.GATE_GT_CYCLE p)) = cycle)
    (hns : F.GATE_GT_BASE_NS_NS.get (d.reg (ofPort A.GATE_GT_BASE_NS p)) = ns)
    (hsec : d.pair (ofPort A.GATE_GT_BASE_SEC_LO p) (ofPort A.GATE_GT_BASE_SEC_HI p) % 2 ^ 48 = sec)
    (hp : (d.gateSt p).pending = false) :
    (len = 0 ∨ 64 < len ∨ cycle < 1000 ∨ 1000000000 < cycle ∨ 1000000000 ≤ ns ∨
        ((d.gateEntries p (1 - (d.gateSt p).bank) (min len 64)).any fun e => e.2 < 8) = true →
      (gateCommit e p).gateSt p = { d.gateSt p with commitBad := true }) ∧
    (0 < len → len ≤ 64 → 1000 ≤ cycle → cycle ≤ 1000000000 → ns < 1000000000 →
      ((d.gateEntries p (1 - (d.gateSt p).bank) len).any fun e => e.2 < 8) = false →
      (gateCommit e p).gateSt p = { d.gateSt p with
        pending := true
        pendLen := len
        pendCycle := cycle
        pendBase := secT sec + nsT ns
        takeAt := if d.clockNow ≤ secT sec + nsT ns then secT sec + nsT ns
          else secT sec + nsT ns + ceilDiv (d.clockNow - (secT sec + nsT ns)) (nsT cycle) * nsT cycle }) := by
  unfold gateCommit
  extract_lets n s len' cycle' ns' sec' bank short base now start
  have hs : s = d.gateSt p := k.gate
  have hl : len' = len := hlen
  have hc : cycle' = cycle := (congrArg F.GATE_GT_CYCLE_CYCLE.get k.cycle).trans hcyc
  have hn : ns' = ns := (congrArg F.GATE_GT_BASE_NS_NS.get k.ns).trans hns
  have he : sec' = sec := (congrArg (· % 2 ^ 48) k.sec).trans hsec
  have hnow : now = d.clockNow := k.now
  have hb : bank = 1 - (d.gateSt p).bank := by rw [← hs]
  have hsh : short = (d.gateEntries p (1 - (d.gateSt p).bank) (min len 64)).any fun e => e.2 < 8 := by
    rw [← k.entries _ _ (Nat.sub_le 1 _) (Nat.min_le_right _ _), ← hb, ← hl]
  clear_value len' cycle' ns' sec' now s bank short
  subst hl hc hn he hnow hs
  rw [if_neg (by rw [hp]; decide)]
  refine ⟨fun h => ?_, fun h0 h1 h2 h3 h4 h5 => ?_⟩
  · rw [if_pos (by rw [hsh]; exact Or.imp_right (Or.imp_right (Or.imp_right (Or.imp_right Or.symm))) h)]
    exact tabGet_tabSet_ne _ fun h => Bool.noConfusion (show true = false from congrArg (·.commitBad) h)
  · rw [Nat.min_eq_left h1] at hsh
    rw [if_neg (by rw [hsh, h5]; simp; omega)]
    exact tabGet_tabSet_ne _ fun h => Bool.noConfusion (show true = false from congrArg (·.pending) h)

theorem gateCommit_ras (d : Device) (p : Nat) : (gateCommit d p).ras = d.ras := by
  unfold gateCommit
  dsimp only
  split
  · rfl
  · split <;> rfl

section
variable {d : Device} {src : Source} {p a : Nat} {h : RegHit} (hq : 32 * h.inst + h.ix.headD 0 = p)
include hq

/-- With no list pending GT_CTRL takes the word, and its COMMIT is carried out. -/
theorem writeGateCtrl_idle (hp : (d.gateSt p).pending = false) (w : Word) :
    d.writeGateCtrl src h a (F.GATE_GT_CTRL_COMMIT.put w 1) =
      gateCommit (d.setReg a (BitVec.ofNat 32 (F.GATE_GT_CTRL_EN.get w + F.GATE_GT_CTRL_LEN.get w * 4))) p := by
  unfold Device.writeGateCtrl
  extract_lets q f old hel d1 d2
  have hh : hel = false := by rw [← hp, ← hq]
  have hd : d1 = d := if_neg fun h => absurd (hh.symm.trans h.1) Bool.false_ne_true
  rw [if_pos (show F.GATE_GT_CTRL_COMMIT.get (F.GATE_GT_CTRL_COMMIT.put w 1) = 1 from Fld.get_put _ w 1 (by decide)), ← hq]
  show gateCommit (d1.setReg _ (BitVec.ofNat 32 (F.GATE_GT_CTRL_EN.get (F.GATE_GT_CTRL_COMMIT.put w 1) +
    (if hel then old else F.GATE_GT_CTRL_LEN.get (F.GATE_GT_CTRL_COMMIT.put w 1)) * 4))) _ = _
  rw [hd, hh, if_neg Bool.false_ne_true, Fld.get_put_other F.GATE_GT_CTRL_COMMIT F.GATE_GT_CTRL_EN w 1 (by decide) (by decide),
    Fld.get_put_other F.GATE_GT_CTRL_COMMIT F.GATE_GT_CTRL_LEN w 1 (by decide) (by decide)]

/-- While a list is pending a write of GT_CTRL changes the register file alone. -/
theorem writeGateCtrl_pending (hp : (d.gateSt p).pending = true) (w : Word) :
    ∃ f, d.writeGateCtrl src h a w = { d with file := f } := by
  unfold Device.writeGateCtrl
  extract_lets q f old hel d1 d2
  have h1 : ∃ f, d1 = { d with file := f } := by
    show ∃ f, (if hel = true ∧ _ then _ else d) = _
    split
    · exact recordAt_file _ _ _ _ _
    · exact ⟨d.file, rfl⟩
  clear_value d1
  obtain ⟨f1, rfl⟩ := h1
  have hg : gateCommit d2 q = d2 := if_pos (show (d.gateSt q).pending = true by rw [← hp, ← hq])
  rw [hg, ite_self]
  exact ⟨_, rfl⟩

end

theorem takeover_waits {d : Device} {p c : Nat} (h : (d.gateSt p).pending = false ∨ (d.atCyc c).clockNow < (d.gateSt p).takeAt) :
    gateTakeover d p c = d.atCyc c :=
  if_pos (h.imp_left fun h => by rw [show ((d.atCyc c).gateSt p).pending = false from h]; rfl)

/-- The list that was committed governs the gates of its port. -/
theorem takeover_spec {d : Device} {p c : Nat} {q : GateSt} (hq : d.gateSt p = q) (hp : q.pending = true)
    (ht : q.takeAt ≤ (d.atCyc c).clockNow) (hw : tabWf (fun _ => ({} : GateSt)) d.sched.gates = true) {e : Device}
    (he : gateTakeover d p c = e) :
    (e.gateSt p).pending = false ∧ (e.gateSt p).bank = 1 - q.bank ∧ (e.gateSt p).len = q.pendLen ∧ (e.gateSt p).cycle = q.pendCycle ∧
    (e.gateSt p).base = q.pendBase ∧ (∀ k, k ≠ p → e.gateSt k = d.gateSt k) ∧
    ((d.atCyc c).sendingOn p = none → (e.gateSt p).overrun = q.overrun) := by
  subst hq
  unfold gateTakeover at he
  extract_lets d0 s s1 d1 segs never gates closes at he
  have hs : s = d.gateSt p := rfl
  rw [if_neg (fun h => h.elim (fun h => absurd (hp.symm.trans (by simpa using h : s.pending = false)) (by decide)) (Nat.not_lt.2 ht))] at he
  have hw1 : tabWf (fun _ => ({} : GateSt)) d1.sched.gates = true := tabSet_wf _ _ hw
  have same : e.gateSt p = { s1 with
      neverOpen := never, gates := gates, overrun := if closes then min (s1.overrun + 1) 0xFFFFFFFF else s1.overrun } := by
    rw [← he]
    exact tabGet_tabSet_same _ _ hw1
  have other : ∀ k, k ≠ p → e.gateSt k = d.gateSt k := fun k h => by
    rw [← he]
    exact (tabGet_tabSet_other _ h hw1).trans (tabGet_tabSet_other _ h hw)
  rw [same]
  refine ⟨rfl, rfl, rfl, rfl, rfl, other, fun hn => ?_⟩
  have hc : closes = false := by
    show (d1.gated p && ((d1.sendingOn p).map _).getD false) = false
    rw [show d1.sendingOn p = none from hn]
    exact Bool.and_false _
  rw [hc]
  rfl

/-- Settles O48. -/
theorem gateLists : Obligations.GateLists := by
  unfold Obligations.GateLists
  have port : ∀ p, 32 * (hit_GATE_GT_CTRL (p / 32) (p % 32)).inst + (hit_GATE_GT_CTRL (p / 32) (p % 32)).ix.headD 0 = p :=
    fun p => Nat.div_add_mod p 32
  refine ⟨?commit, ?pending, ?takeover, ?edge⟩
  case commit =>
    intro s src p w len cycle ns sec hg hp hf hwh hlen hcyc hns hsec hpend hreg
    refine completes_run (f := fun d => busWrite d src (ofPort A.GATE_GT_CTRL p) 0xF (F.GATE_GT_CTRL_COMMIT.put w 1)) rfl
      (by simp [Instr.wf, hp]) ?_
    have eq : s.dev.writeGateCtrl src (hit_GATE_GT_CTRL (p / 32) (p % 32)) (ofPort A.GATE_GT_CTRL p) (F.GATE_GT_CTRL_COMMIT.put w 1) =
        gateCommit (s.dev.setReg (ofPort A.GATE_GT_CTRL p)
          (BitVec.ofNat 32 (F.GATE_GT_CTRL_EN.get w + F.GATE_GT_CTRL_LEN.get w * 4))) p :=
      writeGateCtrl_idle (port p) hpend w
    rw [write_GATE_GT_CTRL hg hp hf _ (by rw [eq]; exact wordsWhole_of_ras ((gateCommit_ras _ _).trans (Device.setReg_ras _ _ _)) hwh), eq]
    refine gateCommit_spec (sameList_setReg hreg p _) ?_ hcyc hns hsec hpend
    rw [Device.reg_setReg_same hreg, ctrlLen_get, hlen]
  case pending =>
    intro s src p w hg hp hf hwh hpend
    refine completes_run (f := fun d => busWrite d src (ofPort A.GATE_GT_CTRL p) 0xF (F.GATE_GT_CTRL_COMMIT.put w 1)) rfl
      (by simp [Instr.wf, hp]) ?_
    obtain ⟨f, eq⟩ := writeGateCtrl_pending (src := src) (port p) hpend (F.GATE_GT_CTRL_COMMIT.put w 1)
    rw [write_GATE_GT_CTRL hg hp hf _ (by rw [eq]; exact wordsWhole_of_ras rfl hwh), eq]
  case takeover =>
    intro s p c q wf hc hq
    refine ⟨fun h => ?_, fun hp ht hw => ?_⟩
    · subst hq
      exact makes_clock (f := fun d => gateTakeover d p c) rfl wf hc (takeover_waits h)
    · exact completes_clock (f := fun d => gateTakeover d p c) rfl wf hc (takeover_spec hq hp ht hw rfl)
  case edge =>
    intro s d p c wf hc hd
    subst hd
    exact ⟨fun h => makes_clock (f := fun d => gateEdge d p c) rfl wf hc (if_pos h),
      fun h => makes_clock (f := fun d => gateEdge d p c) rfl wf hc (if_neg h)⟩

end Sys2Proof.Machine

/-! Steps of the device clock, and the 10 MHz input (R255 to R257, R273, R276). -/

namespace Sys2Proof.Machine

-- What the making of a ledger record changes (R273 to R275) -------------------------------------------------------------

/-- At most registers, counters, budgets, free values, posted writes and the records that wait to be sent differ. -/
def Posted (d e : Device) : Prop := ∃ f p b k s x, e = { d with
  file := f, perf := p, budget := b, freeCtr := k, sent := s, ledger := { d.ledger with exports := x } }

theorem Posted.refl (d : Device) : Posted d d := ⟨_, _, _, _, _, _, rfl⟩

theorem Posted.trans {d e g : Device} (h : Posted d e) (k : Posted e g) : Posted d g := by
  obtain ⟨f, p, b, c, s, x, rfl⟩ := h
  obtain ⟨f', p', b', c', s', x', rfl⟩ := k
  exact ⟨_, _, _, _, _, _, rfl⟩

theorem Told.posted {d e : Device} (h : Told d e) : Posted d e := by
  obtain ⟨f, p, b, k, rfl⟩ := h
  exact ⟨_, _, _, _, _, _, rfl⟩

theorem Posted.keepClock {d e : Device} (h : Posted d e) : KeepClock d e := by
  obtain ⟨_, _, _, _, _, _, rfl⟩ := h
  exact ⟨rfl, rfl⟩

theorem Posted.ledger {d e : Device} (h : Posted d e) : ∃ x, e.ledger = { d.ledger with exports := x } := by
  obtain ⟨_, _, _, _, _, x, rfl⟩ := h
  exact ⟨x, rfl⟩

theorem countSat_told (d : Device) (a : Nat) (f : Fld) : Told d (d.countSat a f) := ⟨_, _, _, _, rfl⟩

theorem ledgerWrite_posted (d : Device) (a : Nat) (bs : Bytes) : Posted d (d.ledgerWrite a bs) := by
  unfold Device.ledgerWrite Device.postWrite
  by_cases h : d.mayDma 0 a bs.length = true
  · rw [if_pos h]
    have hs : Posted d (d.send (.hostWrite 0 a bs)) := ⟨_, _, _, _, _, _, rfl⟩
    exact hs.trans (event_told _ _ _ _ _ _).posted
  · rw [if_neg h]
    exact (countSat_told d _ _).posted

theorem ledgerExport_posted : ∀ (l : List (Nat × Nat)) (d : Device), Posted d (d.ledgerExport l)
  | [], d => by
    unfold Device.ledgerExport
    exact ⟨_, _, _, _, _, _, rfl⟩
  | (seq, cls) :: t, d => by
    unfold Device.ledgerExport
    split
    · extract_lets e a
      have he : Posted d e := (spend_told d _ _ _ _).posted
      exact he.trans ((ledgerWrite_posted e a _).trans (ledgerExport_posted t _))
    · extract_lets e led
      have he : Posted d e := (mustWait_told d _ _ _ _).posted
      exact he.trans ⟨_, _, _, _, _, _, rfl⟩

/-- A record is stored in its place of the ring. -/
theorem ledgerStore_posted (d : Device) (seq : Nat) (bs : Bytes) : Posted { d with ledger := { d.ledger with
    ring := tabSet (fun _ => ([] : Bytes)) d.ledger.ring (seq % 2 ^ 20) bs
    wrote := some (d.absCyc, seq % 2 ^ 20) } } (d.ledgerStore seq bs) := by
  unfold Device.ledgerStore
  extract_lets led e
  split
  · exact (free_told e 3).posted.trans (ledgerExport_posted _ _)
  · exact .refl e

theorem ledgerStore_keepClock (d : Device) (seq : Nat) (bs : Bytes) : KeepClock d (d.ledgerStore seq bs) :=
  have h := (ledgerStore_posted d seq bs).keepClock
  ⟨h.clock, h.stroke⟩

theorem ledgerPut_keepClock (d : Device) (seq : Nat) (bs : Bytes) : KeepClock d (d.ledgerPut seq bs) := by
  unfold Device.ledgerPut
  split
  · exact (spend_told d _ _ _ _).posted.keepClock.trans ((ledgerStore_keepClock _ seq bs).trans
      ((event_told _ _ _ _ _ _).trans (raise_told _ _ _)).posted.keepClock)
  · have h := (mustWait_told d 0x0A 0 seq 1).posted.keepClock
    exact ⟨h.clock, h.stroke⟩

theorem ledgerMake_keepClock (d : Device) (sec ns : Nat) : KeepClock d (d.ledgerMake sec ns) := by
  unfold Device.ledgerMake
  split
  · exact .refl d
  · split
    · exact (countSat_told d _ _).posted.keepClock
    · extract_lets seq bs e led
      have he : Told d e := .ite (countSat_told d _ _) (.refl d)
      clear_value e
      have h := ledgerPut_keepClock { e with ledger := { led with seq := (seq + 1) % 2 ^ 64, stepped := false, madeAt := some e.absCyc } } seq bs
      exact ⟨h.clock.trans he.clock, h.stroke.trans he.stroke⟩

theorem ledgerAgain_keepClock (d : Device) (sec ns : Nat) : KeepClock d (d.ledgerAgain sec ns) := by
  unfold Device.ledgerAgain
  extract_lets seq bs led e led'
  split
  · exact ⟨rfl, rfl⟩
  · have h := ledgerStore_keepClock e seq bs
    exact ⟨h.clock, h.stroke⟩

theorem retime_keepClock (d : Device) (k : Nat) : KeepClock d (d.retime k) := by
  unfold Device.retime
  extract_lets t start per now next pul
  split
  · exact ⟨rfl, rfl⟩
  · exact .refl d

-- Steps (R257) --------------------------------------------------------------------------------------------------------

theorem clockGain_congr {d e : Device} (hc : e.clock.rate = d.clock.rate) (hs : e.stroke = d.stroke) :
    e.clockGain e.inStroke = d.clockGain d.inStroke := by
  unfold Device.clockGain Device.inStroke
  rw [hc, hs]

theorem clockExact_congr {d e : Device} (hc : e.clock = d.clock) (hs : e.stroke = d.stroke) : e.clockExact = d.clockExact := by
  unfold Device.clockExact Device.clockGain Device.inStroke
  rw [hc, hs]

/-- The count that shows `t` once `g` is gained. -/
theorem stepped_exact (t g w : Nat) (hw : 0 < w) : ((t % w + w - g % w) % w + g) % w = t % w := by
  have h : g % w < w := Nat.mod_lt g hw
  calc ((t % w + w - g % w) % w + g) % w
      = ((t % w + w - g % w) + g % w) % w := by rw [Nat.mod_add_mod, Nat.add_mod_mod]
    _ = (t % w + w) % w := by rw [Nat.sub_add_cancel (by omega)]
    _ = t % w := by rw [Nat.add_mod_right, Nat.mod_mod]

theorem clockExact_stepped {d e : Device} {t : Nat}
    (hk : e.clock.clk = (t % clockWrap + clockWrap - d.clockGain d.inStroke % clockWrap) % clockWrap)
    (hr : e.clock.rate = d.clock.rate) (hs : e.stroke = d.stroke) : e.clockExact = t % clockWrap := by
  rw [Device.clockExact, hk, clockGain_congr hr hs]
  exact stepped_exact _ _ _ (by decide)

/-- After a step the clock shows its target; the rate, the step-free counter and the request stay. -/
theorem stepClock_spec (d : Device) (target : Nat) :
    (d.stepClock target).clockExact = target % clockWrap ∧ (d.stepClock target).clock.stepBusy = d.clock.stepBusy ∧
    (d.stepClock target).clock.stepFree = d.clock.stepFree := by
  unfold Device.stepClock
  extract_lets before carried gain clk d1 sec led2 d2 d3 led4 d4
  have k3 : KeepClock d2 d3 := by
    show KeepClock d2 (if _ then _ else if _ then _ else _)
    split
    · exact ledgerAgain_keepClock _ _ _
    · split
      · exact ledgerMake_keepClock _ _ _
      · exact .refl d2
  clear_value d3
  have k4 : KeepClock d1 d4 := ⟨k3.clock, k3.stroke⟩
  clear_value d4
  clear k3
  clear_value d2 sec
  have hd : d1.clock = { d.clock with clk := (target % clockWrap + clockWrap - gain % clockWrap) % clockWrap } := rfl
  have hs : d1.stroke = d.stroke := rfl
  have k : KeepClock d1 (((List.range 4).foldl Device.retime d4).raise 0x30000 1) :=
    k4.trans ((KeepClock.foldl _ (fun e x h => h.trans (retime_keepClock e x)) (.refl d4)).trans (raise_told _ 0x30000 1).posted.keepClock)
  generalize ((List.range 4).foldl Device.retime d4).raise 0x30000 1 = e at k
  clear_value d1
  have he := k.clock.trans hd
  refine ⟨clockExact_stepped (congrArg (·.clk) he) (congrArg (·.rate) he) (k.stroke.trans hs), ?_, ?_⟩
  · rw [he]
  · rw [he]

theorem stepCtrlWrite_set (d : Device) (src : Source) : stepCtrlWrite d src (F.TIME_STEP_CTRL_SET.put 0 1) =
    if d.clock.stepBusy.isSome then d.refuse src A.TIME_STEP_CTRL else { d with clock := { d.clock with stepBusy := some true } } := by
  unfold stepCtrlWrite
  extract_lets ask e
  rw [if_neg (by decide)]
  exact if_pos (by decide)

theorem stepCtrlWrite_add (d : Device) (src : Source) : stepCtrlWrite d src (F.TIME_STEP_CTRL_ADD.put 0 1) =
    if d.clock.stepBusy.isSome then d.refuse src A.TIME_STEP_CTRL else { d with clock := { d.clock with stepBusy := some false } } := by
  unfold stepCtrlWrite
  extract_lets ask e
  rw [if_pos (by decide), show e = d from if_neg (by decide)]

/-- The step that waits is made. -/
theorem clockStepDone_some {s d : Device} {c : Nat} (hd : s.atCyc c = d) {set_ : Bool} (hb : d.clock.stepBusy = some set_) {g : Device}
    (hg : { d with clock := { d.clock with stepBusy := none } } = g) : clockStepDone s c =
      if set_ then g.stepClock d.stepValue
      else if F.TIME_STEP_NS_NEG.get (d.cfg A.TIME_STEP_NS) = 1 then g.stepClock (d.clockExact + clockWrap - d.stepValue % clockWrap)
      else g.stepClock (d.clockExact + d.stepValue) := by
  subst hd hg
  unfold clockStepDone
  extract_lets e
  rw [hb]
  rfl

/-- Raising an event leaves every register but IRQ_STAT. -/
theorem reg_raise_other {d : Device} (hw : tabWf regReset d.file.regs = true) {b n a : Nat} (h : a ≠ b + 0x10) :
    (d.raise b n).reg a = d.reg a := by
  rw [Device.reg, Device.raise_reg]
  exact Device.reg_setReg_other hw _ h

/-- The loss of the input with AUTO_FALLBACK takes the clock back to the core clock. -/
theorem ext10mLost_back {d : Device} {c : Nat} {e : Device} (hs : F.TIME_CLK_CFG_SRC.get (d.reg A.TIME_CLK_CFG) ≠ 0)
    (ha : F.TIME_CLK_CFG_AUTO_FALLBACK.get (d.reg A.TIME_CLK_CFG) = 1) (he : ext10mLost d c = e) :
    e.clock = { (d.atCyc c).clock with ext10m := false, srcExt := false } ∧ e.servo = (d.atCyc c).servo ∧
    (tabWf regReset d.file.regs = true → e.reg A.TIME_CLK_CFG = F.TIME_CLK_CFG_SRC.put (d.reg A.TIME_CLK_CFG) 0) := by
  unfold ext10mLost at he
  extract_lets d0 clk d1 w d2 clk2 d3 at he
  rw [if_neg (show ¬ F.TIME_CLK_CFG_SRC.get w = 0 from hs)] at he
  have h3 : d3 = { d2 with clock := { clk2 with srcExt := false } } := if_pos (show F.TIME_CLK_CFG_AUTO_FALLBACK.get w = 1 from ha)
  subst he
  rw [h3]
  refine ⟨Device.raise_clock _ _ _, Device.raise_servo _ _ _, fun hw => ?_⟩
  have h := reg_raise_other (d := { d2 with clock := { clk2 with srcExt := false } }) (b := 0x30000) (n := 8) (a := A.TIME_CLK_CFG)
    (Device.setReg_wf (d := d1) hw _ _) (by decide)
  exact h.trans (Device.reg_setReg_same (d := d1) hw _ _)

/-- Settles O49. -/
theorem clockSteps : Obligations.ClockSteps := by
  unfold Obligations.ClockSteps
  refine ⟨?ask, ?done, ?stopped, ?input⟩
  case ask =>
    intro s src hg
    have hset := write_TIME_STEP_CTRL hg (F.TIME_STEP_CTRL_SET.put 0 1)
    have hadd := write_TIME_STEP_CTRL hg (F.TIME_STEP_CTRL_ADD.put 0 1)
    rw [stepCtrlWrite_set] at hset
    rw [stepCtrlWrite_add] at hadd
    have free : s.dev.clock.stepBusy = none → ¬ s.dev.clock.stepBusy.isSome = true := fun h => by simp [h]
    refine ⟨fun hb => ⟨?_, ?_⟩, fun hb => ⟨?_, ?_⟩⟩
    · exact makes_run (f := fun d => busWrite d src A.TIME_STEP_CTRL 0xF (F.TIME_STEP_CTRL_SET.put 0 1)) rfl rfl
        (hset.trans (if_neg (free hb)))
    · exact makes_run (f := fun d => busWrite d src A.TIME_STEP_CTRL 0xF (F.TIME_STEP_CTRL_ADD.put 0 1)) rfl rfl
        (hadd.trans (if_neg (free hb)))
    · exact makes_run (f := fun d => busWrite d src A.TIME_STEP_CTRL 0xF (F.TIME_STEP_CTRL_SET.put 0 1)) rfl rfl (hset.trans (if_pos hb))
    · exact makes_run (f := fun d => busWrite d src A.TIME_STEP_CTRL 0xF (F.TIME_STEP_CTRL_ADD.put 0 1)) rfl rfl (hadd.trans (if_pos hb))
  case done =>
    intro s d g c hc hk hd hg
    have wf : (Instr.clockStepDone c).wf = true := by simp [Instr.wf, hc]
    have hbusy : g.clock.stepBusy = none ∧ g.clock.stepFree = d.clock.stepFree := by
      rw [← hg]
      exact ⟨rfl, rfl⟩
    have made : ∀ t, (g.stepClock t).clock.stepBusy = none ∧ (g.stepClock t).clock.stepFree = d.clock.stepFree := fun t => by
      obtain ⟨-, h1, h2⟩ := stepClock_spec g t
      exact ⟨h1.trans hbusy.1, h2.trans hbusy.2⟩
    refine ⟨fun hb => ?_, fun hb => ?_, fun hb hn => ?_, fun hb hn => ?_⟩
    · refine makes_clock (f := fun d => clockStepDone d c) rfl wf hk ?_
      subst hd
      unfold clockStepDone
      extract_lets e
      rw [hb]
    · refine completes_clock (f := fun d => clockStepDone d c) rfl wf hk ?_
      rw [clockStepDone_some hd hb hg, if_pos rfl]
      exact ⟨rfl, (stepClock_spec g _).1, made _⟩
    · refine completes_clock (f := fun d => clockStepDone d c) rfl wf hk ?_
      rw [clockStepDone_some hd hb hg, if_neg Bool.false_ne_true, if_neg hn]
      exact ⟨rfl, (stepClock_spec g _).1, made _⟩
    · refine completes_clock (f := fun d => clockStepDone d c) rfl wf hk ?_
      rw [clockStepDone_some hd hb hg, if_neg Bool.false_ne_true, if_pos hn]
      exact ⟨rfl, made _⟩
  case stopped =>
    intro s c hc hk hn
    have off : ¬ (s.dev.clocked ∨ (s.dev.dev.state = .reset ∧ s.dev.boot.wasWarm)) := by
      rw [hk]
      rcases hn with h | h <;> simp [h]
    exact ⟨makes_run (f := fun d => Device.ext10m false (fun d => ext10mLost d c) d) rfl (by simp [Instr.wf, hc]) (if_neg off),
      makes_run (f := fun d => Device.ext10m true (fun d => ext10mRestored d c) d) rfl (by simp [Instr.wf, hc]) (if_neg off)⟩
  case input =>
    intro s d g c hc hk hd hg
    subst hd hg
    have wfl : (Instr.ext10mLost c).wf = true := by simp [Instr.wf, hc]
    refine ⟨?_, fun h => ?_, fun h => ⟨fun ha => ?_, fun ha => ?_⟩⟩
    · exact makes_run (f := fun d => Device.ext10m true (fun d => ext10mRestored d c) d) rfl (by simp [Instr.wf, hc]) (if_pos hk)
    · exact makes_run (f := fun d => Device.ext10m false (fun d => ext10mLost d c) d) rfl wfl ((if_pos hk).trans (if_pos h))
    · refine makes_run (f := fun d => Device.ext10m false (fun d => ext10mLost d c) d) rfl wfl ((if_pos hk).trans ((if_neg h).trans ?_))
      exact congrArg (fun e : Device => e.raise 0x30000 8) (if_neg ha)
    · refine completes_run (f := fun d => Device.ext10m false (fun d => ext10mLost d c) d) rfl wfl ?_
      rw [show Device.ext10m false (fun d => ext10mLost d c) s.dev = ext10mLost s.dev c from if_pos hk]
      exact ext10mLost_back h ha rfl

end Sys2Proof.Machine

/-! The time ledger: its records, and the copies made of them (R38, R273 to R275). -/

namespace Sys2Proof.Machine

theorem ledgerBytes_ne_nil (d : Device) (seq sec ns : Nat) (key : Option KeyMat) : d.ledgerBytes seq sec ns key ≠ [] := by
  have h : beBytes 8 seq ≠ [] := by simp [beBytes, leBytes]
  unfold Device.ledgerBytes
  dsimp only
  split <;> simp [h]

/-- A record of number `seq` at the present tick: where its place in the budget is not free it waits. -/
theorem ledgerPut_waits {d : Device} {seq : Nat} {bs : Bytes} (h : d.canAdmit 0x0A 0 1 1 d.stroke.cyc seq = false) :
    (d.ledgerPut seq bs).ledger = { d.ledger with waits := d.ledger.waits ++ [(seq, bs)] } := by
  unfold Device.ledgerPut
  rw [if_neg (by rw [h]; decide)]

theorem ledgerPut_stores {d : Device} {seq : Nat} {bs : Bytes} (hb : bs ≠ []) (h : d.canAdmit 0x0A 0 1 1 d.stroke.cyc seq = true)
    {e : Device} (he : d.ledgerPut seq bs = e) :
    e.ledger.seq = d.ledger.seq ∧ e.ledger.stepped = d.ledger.stepped ∧ e.ledger.waits = d.ledger.waits ∧
    tabGet (fun _ => ([] : Bytes)) e.ledger.ring (seq % 2 ^ 20) = bs := by
  unfold Device.ledgerPut at he
  rw [if_pos h] at he
  obtain ⟨x, hx⟩ := (ledgerStore_posted (d.spend 0x0A 0 1 seq) seq bs).ledger
  have k := (event_told ((d.spend 0x0A 0 1 seq).ledgerStore seq bs) none 0x8003 1 (d.ledgerAttr seq) {}).trans
    (raise_told _ 0x30000 7)
  have hl : e.ledger = ((d.spend 0x0A 0 1 seq).ledgerStore seq bs).ledger := by
    rw [← he]
    exact k.ledger
  rw [hl, hx]
  exact ⟨rfl, rfl, rfl, tabGet_tabSet_ne _ hb⟩

section
variable {d : Device} {sec ns : Nat} (hen : F.TIME_LEDGER_CTRL_EN.get (d.cfg A.TIME_LEDGER_CTRL) ≠ 0)
include hen

theorem ledgerMake_lost (h : d.ledger.granted = false ∨ d.seqOn 15 = false) : d.ledgerMake sec ns = d.ledgerLost := by
  unfold Device.ledgerMake
  rw [if_neg (show ¬ d.fld A.TIME_LEDGER_CTRL F.TIME_LEDGER_CTRL_EN = 0 from hen)]
  exact if_pos (h.imp (fun h => by rw [h]; rfl) fun h => by rw [h]; rfl)

theorem ledgerMake_makes (hg : d.ledger.granted = true) (hs : d.seqOn 15 = true) (hf : d.allFenced = false) {seq : Nat}
    (hq : seq = d.ledger.seq) : d.ledgerMake sec ns = ({ d with ledger := { d.ledger with
      seq := (seq + 1) % 2 ^ 64
      stepped := false
      madeAt := some d.absCyc } }).ledgerPut seq (d.ledgerBytes seq sec ns (d.keySlot (devSlot 0)).mat) := by
  subst hq
  unfold Device.ledgerMake
  rw [if_neg (show ¬ d.fld A.TIME_LEDGER_CTRL F.TIME_LEDGER_CTRL_EN = 0 from hen), if_neg (by rw [hg, hs]; decide)]
  extract_lets seq bs e led
  have he : e = d := if_neg (by rw [hf]; decide)
  have hb : bs = d.ledgerBytes seq sec ns (d.keySlot (devSlot 0)).mat := by
    show d.ledgerBytes _ _ _ (if d.allFenced then _ else _) = _
    rw [if_neg (by rw [hf]; decide)]
  clear_value bs e
  subst hb he
  rfl

end

theorem ledgerRecord_new {s d : Device} {c sec : Nat} (hd : s.atCyc c = d) (hs : clkSec d.clockNow = sec) (hn : sec ≠ d.ledger.lastSec) :
    ledgerRecord s c = { d.ledgerMake sec 0 with ledger := { (d.ledgerMake sec 0).ledger with lastSec := sec } } := by
  subst hs hd
  exact if_neg hn

-- Copies (R275) -------------------------------------------------------------------------------------------------------

theorem ledgerCtrlWrite_busy {d : Device} {src : Source} {w : Word} (hb : d.ledger.copyBusy = true) (hw : F.TIME_LEDGER_CTRL_COPY.get w ≠ 0) :
    ledgerCtrlWrite d src w = (d.setReg A.TIME_LEDGER_CTRL
      (F.TIME_LEDGER_CTRL_COPY.put (F.TIME_LEDGER_CTRL_COPY_BUSY.put (w &&& 0x7F#32) 0) 0)).refuse src A.TIME_LEDGER_CTRL := by
  unfold ledgerCtrlWrite
  extract_lets f keep e
  rw [if_neg hw]
  exact if_pos hb

theorem ledgerCtrlWrite_copy {d : Device} {src : Source} {w : Word} (hb : d.ledger.copyBusy = false) (hw : F.TIME_LEDGER_CTRL_COPY.get w ≠ 0)
    (hr : tabWf regReset d.file.regs = true) {e : Device} (he : ledgerCtrlWrite d src w = e) :
    e.ledger = { d.ledger with
      copyBusy := true
      copied := 0
      copyClass := e.ledger.copyClass
      copyFrom := d.pair A.TIME_COPY_FROM_LO A.TIME_COPY_FROM_HI
      copyCount := F.TIME_COPY_COUNT_COUNT.get (d.cfg A.TIME_COPY_COUNT)
      copyAddr := d.pair A.TIME_COPY_ADDR_LO A.TIME_COPY_ADDR_HI } ∧ e.dev = d.dev ∧ e.sent = d.sent := by
  have hp : ∀ lo hi (v : Word), lo ≠ A.TIME_LEDGER_CTRL → hi ≠ A.TIME_LEDGER_CTRL →
      (d.setReg A.TIME_LEDGER_CTRL v).pair lo hi = d.pair lo hi := fun lo hi v h1 h2 => by
    rw [Device.pair, Device.pair, cfg_setReg_other hr v h1, cfg_setReg_other hr v h2]
  unfold ledgerCtrlWrite at he
  extract_lets f keep d1 at he
  rw [if_neg hw, if_neg (show ¬ d1.ledger.copyBusy = true by rw [show d1.ledger.copyBusy = false from hb]; decide)] at he
  subst he
  refine ⟨?_, rfl, rfl⟩
  have h1 := hp A.TIME_COPY_FROM_LO A.TIME_COPY_FROM_HI keep (by decide) (by decide)
  have h2 := hp A.TIME_COPY_ADDR_LO A.TIME_COPY_ADDR_HI keep (by decide) (by decide)
  have h3 := cfg_setReg_other (a := A.TIME_LEDGER_CTRL) (b := A.TIME_COPY_COUNT) hr keep (by decide)
  rw [← h1, ← h2, ← h3]
  rfl

/-- Settles O50. -/
theorem timeLedger : Obligations.TimeLedger := by
  unfold Obligations.TimeLedger
  refine ⟨?record, ?copy, ?done⟩
  case record =>
    intro s d c sec hc hk hd hsec
    have wf : (Instr.ledgerRecord c).wf = true := by simp [Instr.wf, hc]
    refine ⟨fun h => ?_, fun hn => ⟨fun he => ?_, fun he h => ?_, fun he hg hs hf seq bs hq hb => ⟨fun ha => ?_, fun ha => ?_⟩⟩⟩
    · subst hd hsec
      exact makes_clock (f := fun d => ledgerRecord d c) rfl wf hk (if_pos h)
    · refine makes_clock (f := fun d => ledgerRecord d c) rfl wf hk ?_
      rw [ledgerRecord_new hd hsec hn, show d.ledgerMake sec 0 = d from if_pos he]
    all_goals
      refine completes_clock (f := fun d => ledgerRecord d c) rfl wf hk ?_
      rw [ledgerRecord_new hd hsec hn]
    · rw [ledgerMake_lost he h]
      exact ⟨rfl, rfl⟩
    · rw [ledgerMake_makes he hg hs hf hq, ← hb]
      have h := ledgerPut_waits (d := { d with ledger := { d.ledger with seq := (seq + 1) % 2 ^ 64, stepped := false, madeAt := some d.absCyc } })
        (bs := bs) ha
      dsimp only
      rw [h]
    · rw [ledgerMake_makes he hg hs hf hq, ← hb]
      obtain ⟨h1, h2, h3, h4⟩ := ledgerPut_stores (d := { d with ledger := { d.ledger with
        seq := (seq + 1) % 2 ^ 64, stepped := false, madeAt := some d.absCyc } }) (bs := bs) (by rw [hb]; exact ledgerBytes_ne_nil _ _ _ _ _) ha rfl
      exact ⟨h1, h2, rfl, h3, h4⟩
  case copy =>
    intro s src w hg hr
    have hw : F.TIME_LEDGER_CTRL_COPY.get (F.TIME_LEDGER_CTRL_COPY.put w 1) ≠ 0 := by
      rw [Fld.get_put _ w 1 (by decide)]
      decide
    refine ⟨fun hb => ?_, fun hb => ?_⟩
    all_goals
      refine completes_run (f := fun d => busWrite d src A.TIME_LEDGER_CTRL 0xF (F.TIME_LEDGER_CTRL_COPY.put w 1)) rfl rfl ?_
      rw [write_TIME_LEDGER_CTRL hg]
    · exact ledgerCtrlWrite_copy hb hw hr rfl
    · rw [ledgerCtrlWrite_busy hb hw]
      exact ⟨Device.refuse_ledger _ _ _, _, rfl, rfl⟩
  case done =>
    intro s g hc hg
    refine ⟨fun hb => ?_, fun hb => ⟨fun h => ?_, fun h => ?_⟩⟩
    · exact makes_clock (f := ledgerCopyDone) (g := id) rfl rfl hc (if_pos (by rw [hb]; rfl))
    all_goals
      refine makes_clock (f := ledgerCopyDone) rfl rfl hc ?_
      subst hg
      refine (if_neg (by rw [hb]; decide)).trans ?_
    · exact if_pos h
    · exact if_neg (Nat.not_lt.2 h)

end Sys2Proof.Machine

/-! What the admission of a frame to a queue, its refusal and the end of its life change (R184 to R187, R277 to R280, R298). -/

namespace Sys2Proof.Machine

/-- At most registers and counters, budgets, free values, packets, the hall, drop records and flow records differ. -/
def Forwarded (d e : Device) : Prop := ∃ f p b k pk h dr t, e = { d with
  file := f, perf := p, budget := b, freeCtr := k, pkt := pk, hall := h, drops := dr, telem := t }

namespace Forwarded
variable {d e g : Device}

theorem refl (d : Device) : Forwarded d d := ⟨_, _, _, _, _, _, _, _, rfl⟩

theorem trans (h : Forwarded d e) (k : Forwarded e g) : Forwarded d g := by
  obtain ⟨f, p, b, c, pk, h, dr, t, rfl⟩ := h
  obtain ⟨f', p', b', c', pk', h', dr', t', rfl⟩ := k
  exact ⟨_, _, _, _, _, _, _, _, rfl⟩

theorem ite {c : Prop} [Decidable c] (h : Forwarded d e) (k : Forwarded d g) : Forwarded d (if c then e else g) := by
  split
  · exact h
  · exact k

theorem iteFst {α : Type} {c : Prop} [Decidable c] {x y : Device × α} (h : Forwarded d x.1) (k : Forwarded d y.1) :
    Forwarded d (if c then x else y).1 := by
  split
  · exact h
  · exact k

theorem admission {dec : Admission} {a : Nat → Device × Admitted} {b : Charge → Device × Admitted}
    (h : ∀ code, Forwarded d (a code).1) (k : ∀ pool, Forwarded d (b pool).1) :
    Forwarded d (match dec with
      | .refused code => a code
      | .to pool => b pool).1 := by
  match dec with
  | .refused code => exact h code
  | .to pool => exact k pool

theorem foldl {α : Type} {f : Device → α → Device} (h : ∀ e x, Forwarded e (f e x)) (l : List α) (d : Device) :
    Forwarded d (l.foldl f d) := by
  induction l generalizing d with
  | nil => exact refl d
  | cons x t ih => exact (h d x).trans (ih _)

variable (h : Forwarded d e)
include h

theorem servo : e.servo = d.servo := by obtain ⟨_, _, _, _, _, _, _, _, rfl⟩ := h; rfl
theorem tsu : e.tsu = d.tsu := by obtain ⟨_, _, _, _, _, _, _, _, rfl⟩ := h; rfl
theorem clock : e.clock = d.clock := by obtain ⟨_, _, _, _, _, _, _, _, rfl⟩ := h; rfl
theorem stroke : e.stroke = d.stroke := by obtain ⟨_, _, _, _, _, _, _, _, rfl⟩ := h; rfl

end Forwarded

theorem Told.forwarded {d e : Device} (h : Told d e) : Forwarded d e := by
  obtain ⟨f, p, b, k, rfl⟩ := h
  exact ⟨_, _, _, _, _, _, _, _, rfl⟩

-- Drops (R298) --------------------------------------------------------------------------------------------------------

theorem count_told (d : Device) (a : Nat) : Told d (d.count a) := countN_told d a 1

theorem portCount_told (d : Device) (p x n : Nat) : Told d (d.portCount p x n) := .ite (.refl d) (countN_told d _ _)

theorem queueCount_told (d : Device) (q x n : Nat) : Told d (d.queueCount q x n) := .ite (.refl d) (countN_told d _ _)

theorem markSet_told (d : Device) (a n : Nat) : Told d (d.markSet a n) := ⟨_, _, _, _, rfl⟩

theorem dropCount_told (d : Device) (i : DropInfo) : Told d (d.dropCount i) :=
  .ite (count_told d _) ((count_told d _).trans (event_told _ _ _ _ _ _))

theorem aggregate_forwarded (d : Device) (n code : Nat) : Forwarded d (d.aggregate n code) := by
  unfold Device.aggregate
  extract_lets dr d1 a d2 d3
  have h1 : Forwarded d d1 := ⟨_, _, _, _, _, _, _, _, rfl⟩
  have h2 : Told d1 d2 := (Told.ite (.refl d1) (count_told d1 _)).trans (markSet_told _ _ _)
  exact h1.trans ((h2.trans ((setReg_told d2 _ _).trans (raise_told _ _ _))).forwarded)

theorem pushRecord_forwarded (d : Device) (i : DropInfo) : Forwarded d (d.pushRecord i) :=
  .ite ((aggregate_forwarded d _ _).trans ((count_told _ _).trans (raise_told _ _ _)).forwarded) ⟨_, _, _, _, _, _, _, _, rfl⟩

theorem recordDrop_forwarded (d : Device) (i : DropInfo) : Forwarded d (d.recordDrop i) := by
  unfold Device.recordDrop
  extract_lets made
  refine .ite ?_ (aggregate_forwarded d _ _)
  exact .trans ⟨_, _, _, _, _, _, _, _, rfl⟩ (pushRecord_forwarded _ i)

theorem drop_forwarded (d : Device) (i : DropInfo) : Forwarded d (d.drop i) :=
  (dropCount_told d i).forwarded.trans (recordDrop_forwarded _ _)

theorem loseOne_forwarded (d : Device) (f : Frame) (i : DropInfo) : Forwarded d (d.loseOne f i) := by
  unfold Device.loseOne
  extract_lets e
  have he : Forwarded d e := by
    show Forwarded d (match f.coll with
      | some k => _
      | none => _)
    split
    · exact ((dropCount_told d i).trans (count_told _ _)).forwarded
    · exact drop_forwarded d i
  clear_value e
  split
  · exact he.trans (count_told e _).forwarded
  · exact he

theorem refuseAdmission_forwarded (d : Device) (f : Frame) (r : AdmitReq) (code : Nat) : Forwarded d (d.refuseAdmission f r code) := by
  unfold Device.refuseAdmission
  extract_lets d1 d2 d3 d4
  have h1 : Told d d1 := by
    show Told d (match refusalCnt code with
      | some x => _
      | none => _)
    split
    · exact count_told d _
    · exact .refl d
  clear_value d1
  have h2 : Told d1 d2 := .ite (portCount_told d1 _ _ _) (.refl d1)
  clear_value d2
  have h3 : Told d2 d3 := .ite ((portCount_told d2 _ _ _).trans (queueCount_told _ _ _ _)) (.ite (queueCount_told d2 _ _ _) (.refl d2))
  clear_value d3
  have h4 : Told d3 d4 := .ite (count_told d3 _) (.refl d3)
  exact (h1.trans (h2.trans (h3.trans h4))).forwarded.trans (loseOne_forwarded _ _ _)

-- Cells and copies (R184 to R187) -------------------------------------------------------------------------------------

theorem setFrame_forwarded (d : Device) (f : Frame) : Forwarded d (d.setFrame f) := ⟨_, _, _, _, _, _, _, _, rfl⟩

theorem modFrame_forwarded (d : Device) (id : Nat) (g : Frame → Frame) : Forwarded d (d.modFrame id g) := by
  unfold Device.modFrame
  split
  · exact setFrame_forwarded d _
  · exact .refl d

theorem setQueueSt_forwarded (d : Device) (q : Nat) (v : QueueSt) : Forwarded d (d.setQueueSt q v) := ⟨_, _, _, _, _, _, _, _, rfl⟩

theorem addCharge_forwarded (d : Device) (q : Nat) (c : Charge) (n : Nat) : Forwarded d (d.addCharge q c n) := by
  cases c <;> exact ⟨_, _, _, _, _, _, _, _, rfl⟩

theorem chargeMore_forwarded (d : Device) (c : Copy) (n : Nat) : Forwarded d (d.chargeMore c n) := by
  unfold Device.chargeMore
  split
  · exact .refl d
  generalize d.minRoom c.queue c.poolCharge = mr
  obtain ⟨mc, room⟩ := mr
  dsimp -zeta only
  extract_lets m rest add d1 d2 d3
  have h1 : Forwarded d d1 := addCharge_forwarded d _ _ _
  clear_value d1
  have h2 : Forwarded d1 d2 := .ite (.refl d1) (addCharge_forwarded d1 _ _ _)
  clear_value d2
  have h3 : Forwarded d2 d3 := ⟨_, _, _, _, _, _, _, _, rfl⟩
  have h := h1.trans (h2.trans h3)
  exact .ite (h.trans (.trans ⟨_, _, _, _, _, _, _, _, rfl⟩ (modFrame_forwarded _ _ _))) h

theorem allocCells_forwarded (id gal : Nat) : ∀ (n : Nat) (d : Device), Forwarded d (d.allocCells id gal n)
  | 0, d => .refl d
  | n + 1, d => by
    unfold Device.allocCells
    split
    · exact .refl d
    · extract_lets hal e
      have he : Forwarded d e := ⟨_, _, _, _, _, _, _, _, rfl⟩
      exact he.trans ((modFrame_forwarded e _ _).trans (allocCells_forwarded id gal n _))

theorem growFrame_forwarded (d : Device) (id : Nat) : Forwarded d (d.growFrame id) := by
  unfold Device.growFrame
  split
  · exact .refl d
  · extract_lets cs n d1 waits d2
    have h1 : Forwarded d d1 := allocCells_forwarded _ _ _ d
    clear_value d1
    have h2 : Forwarded d1 d2 := .ite (.refl d1) ((spend_told d1 _ _ _ _).trans (event_told _ _ _ _ _ _)).forwarded
    clear_value d2
    exact .ite (.refl d) (h1.trans (h2.trans (.foldl (fun e c => chargeMore_forwarded e c _) cs d2)))

-- Flow records (R277 to R280) -----------------------------------------------------------------------------------------

theorem overflowUpd_forwarded (d : Device) (x : Nat) (u : FlowUpd) : Forwarded d (d.overflowUpd x u) := ⟨_, _, _, _, _, _, _, _, rfl⟩

theorem bucketUpd_forwarded (d : Device) (b : Nat) (u : FlowUpd) : Forwarded d (d.bucketUpd b u) := by
  unfold Device.bucketUpd
  extract_lets rs put tel e
  have hput : ∀ (l : List FlowRec) (n : Nat) (d : Device), Forwarded d (put l n d) := fun _ _ _ => ⟨_, _, _, _, _, _, _, _, rfl⟩
  clear_value put
  have he : Forwarded d e := .ite ⟨_, _, _, _, _, _, _, _, rfl⟩ (.refl d)
  clear_value e
  split
  · exact hput _ _ d
  · refine .ite (overflowUpd_forwarded d _ _) (.ite ?_ (he.trans ((hput _ _ e).trans (count_told _ _).forwarded)))
    split
    · exact overflowUpd_forwarded d _ _
    · extract_lets l g tel
      have hg : Forwarded d g := hput _ _ d
      clear_value g
      exact hg.trans (.trans ⟨_, _, _, _, _, _, _, _, rfl⟩ (overflowUpd_forwarded _ _ _))

theorem flowEnd_forwarded (d : Device) (t : Bool) (u : FlowUpd) : Forwarded d (d.flowEnd t u) := by
  unfold Device.flowEnd
  extract_lets v b
  refine .ite (overflowUpd_forwarded d _ _) (.ite (bucketUpd_forwarded d _ _) (.ite (overflowUpd_forwarded d _ _)
    (.ite ?_ (.ite ((overflowUpd_forwarded d _ _).trans ((count_told _ _).trans (raise_told _ _ _)).forwarded)
      ⟨_, _, _, _, _, _, _, _, rfl⟩))))
  exact .trans ⟨_, _, _, _, _, _, _, _, rfl⟩ (bucketUpd_forwarded _ _ _)

theorem flowFinish_forwarded (d : Device) (id : Nat) (drop res : Option Nat) : Forwarded d (d.flowFinish id drop res) := by
  unfold Device.flowFinish
  split
  · exact .refl d
  · extract_lets e
    have he : Forwarded d e := setFrame_forwarded d _
    clear_value e
    exact .ite (.refl d) (.ite (he.trans (flowEnd_forwarded e _ _)) he)

theorem releaseFrame_forwarded (d : Device) (id : Nat) : Forwarded d (d.releaseFrame id) := by
  unfold Device.releaseFrame
  split
  · exact .refl d
  · extract_lets busy hal e
    have he : Forwarded d e := ⟨_, _, _, _, _, _, _, _, rfl⟩
    clear_value e
    exact .ite (.refl d) (.ite (he.trans ⟨_, _, _, _, _, _, _, _, rfl⟩) (he.trans (setFrame_forwarded e _)))

-- Admission (R184 to R187) and the direct queue (R340) ----------------------------------------------------------------

theorem admitCopy_forwarded (d : Device) (r : AdmitReq) (own : Bool) (extra : Nat) :
    Forwarded d (d.admitCopy r own extra).1 := by
  unfold Device.admitCopy
  split
  · exact .refl d
  · next f _ =>
    extract_lets egPort proto l n free cls
    refine .iteFst (refuseAdmission_forwarded d _ _ _) (.iteFst (refuseAdmission_forwarded d _ _ _) ?_)
    dsimp -zeta only
    extract_lets d1
    have h1 : Forwarded d d1 := .ite (setQueueSt_forwarded d _ _) (.refl d)
    clear_value d1
    refine .admission (fun code => h1.trans (refuseAdmission_forwarded d1 _ _ _)) fun pool => ?_
    have h2 : Forwarded d1 (d1.free 8).2 := (free_told d1 8).forwarded
    generalize d1.free 8 = g at h2
    obtain ⟨rnd, d2⟩ := g
    dsimp -zeta only at h2 ⊢
    extract_lets tested mark d3 pool' c hal d4 d5 d6 d7 d8
    refine (h1.trans h2).trans (.iteFst (refuseAdmission_forwarded d2 _ _ _) ?_)
    have h3 : Forwarded d2 d3 := .ite (count_told d2 _).forwarded (.refl d2)
    clear_value d3
    have h4 : Forwarded d3 d4 := ⟨_, _, _, _, _, _, _, _, rfl⟩
    clear_value d4
    have h5 : Forwarded d4 d5 := .ite (.refl d4) (modFrame_forwarded d4 _ _)
    clear_value d5
    have h6 : Forwarded d5 d6 := .ite (.refl d5) (.ite ((queueCount_told d5 _ _ _).trans (queueCount_told _ _ _ _)).forwarded
      ((queueCount_told d5 _ _ _).forwarded.trans (modFrame_forwarded _ _ _)))
    clear_value d6
    have h7 : Forwarded d6 d7 := .ite (count_told d6 _).forwarded (.refl d6)
    clear_value d7
    exact h3.trans (h4.trans (h5.trans (h6.trans (h7.trans
      ((event_told d7 _ _ _ _ _).forwarded.trans (growFrame_forwarded _ _))))))

theorem addFrame_forwarded (d : Device) (f : Frame) : Forwarded d (d.addFrame f) := ⟨_, _, _, _, _, _, _, _, rfl⟩

theorem direct_forwarded (d : Device) (f : Frame) (q : Nat) (at_ : Option Nat) : Forwarded d (d.direct f q at_) := by
  unfold Device.direct
  extract_lets f' d1
  have h1 : Forwarded d d1 := addFrame_forwarded d f'
  have h2 := admitCopy_forwarded d1 { frame := f'.id, queue := q, kind := .direct, gal := f'.gal, originAt := at_ } true 0
  generalize d1.admitCopy _ true 0 = g at h2 ⊢
  obtain ⟨d2, uid⟩ := g
  cases uid with
  | copy n => exact h1.trans h2
  | refused code => exact (h1.trans h2).trans ((flowFinish_forwarded d2 _ _ _).trans (releaseFrame_forwarded _ _))

theorem tsuQueue_forwarded (d : Device) (p : Nat) (bs : Bytes) (at_ : Option Nat) : Forwarded d (d.tsuQueue p bs at_).1 :=
  direct_forwarded d _ _ _

end Sys2Proof.Machine

/-! PTP messages that the TSU sends and receives, and the servo's losses (R264 to R267). -/

namespace Sys2Proof.Machine

-- The servo's state (R267) --------------------------------------------------------------------------------------------

theorem toRate_shape (d : Device) (x : Rat) : ∃ v k, d.toRate x = (v, { d with freeCtr := k }) := by
  obtain ⟨v, k, h⟩ := roundDiv_shape d (x.num * 2 ^ 48) x.den
  unfold Device.toRate Device.rateFrom
  rw [h]
  dsimp only
  split
  · exact ⟨v, k, rfl⟩
  · exact ⟨_, _, rfl⟩

section
variable (d : Device) (s : ServoState)

theorem srvState_state : (d.srvState s).servo.state = s := by
  unfold Device.srvState
  split
  · assumption
  · exact congrArg ServoUnit.state (Device.raise_servo _ _ _)

theorem srvState_told : ∃ x, Told { d with servo := x } (d.srvState s) := by
  unfold Device.srvState
  split
  · exact ⟨d.servo, .refl d⟩
  · exact ⟨_, raise_told _ _ _⟩

theorem srvState_clock : (d.srvState s).clock = d.clock := by
  obtain ⟨x, h⟩ := srvState_told d s
  exact h.clock

theorem srvState_dev : (d.srvState s).dev = d.dev := by
  obtain ⟨x, h⟩ := srvState_told d s
  exact h.dev

theorem holdover_state : d.holdover.servo.state = .holdover := by
  unfold Device.holdover
  split
  · assumption
  · exact srvState_state _ _

theorem clockRate_dev (r : Int) : (d.clockRate r).dev = d.dev := by
  unfold Device.clockRate
  rfl

theorem holdover_dev : d.holdover.dev = d.dev := by
  obtain ⟨v, k, h⟩ := toRate_shape d d.servo.integ
  unfold Device.holdover
  split
  · rfl
  · rw [h]
    exact (srvState_dev _ _).trans (clockRate_dev _ v)

end

theorem syncSend_sends {s : State} {d : Device} {p c : Nat} (hr : d.tsCfg p F.TSU_TS_CFG_ROLE = 1) (hy : d.tsuReady p 0 = true)
    (hd : s.dev.atCyc c = d) (ht : ∀ t, (d.tsuSt p).syncNext = some t → t ≤ d.freeAtStart) :
    ∃ (g : Device) (bs : Bytes), syncSend s.dev p c = (g.tsuQueue p bs (some (d.tsuTpl (p / 32) 0).2.1)).1.count (tsuCnt (p / 32) 2) ∧
      (g.tsuSt p).seqSync = ((d.tsuSt p).seqSync + 1) % 65536 ∧
      (g.tsuSt p).syncNext = some ((d.tsuSt p).syncNext.getD d.stepFreeNow + logTime (d.tsCfg p F.TSU_TS_CFG_SYNC_LOG)) ∧
      g.hall = d.hall ∧ g.file = d.file ∧
      (F.TSU_TPL_CFG_TLV_FILL.get (d.cfg (A.TSU_TPL_CFG (p / 32) 0)) ≠ 1 →
        bs = d.tsuFill p (d.tsuSt p).seqSync (d.tsuTpl (p / 32) 0) fun b => b) := by
  unfold syncSend
  rw [hd]
  extract_lets d' n due st every e tpl
  subst d'
  have hdue : due = true := by
    show (match (d.tsuSt p).syncNext with
      | none => true
      | some t => decide (t ≤ d.freeAtStart)) = true
    cases h : (d.tsuSt p).syncNext with
    | none => rfl
    | some t => exact decide_eq_true (ht t h)
  have hst : e.tsuSt p = { st with
      seqSync := (st.seqSync + 1) % 65536
      syncNext := some (st.syncNext.getD d.stepFreeNow + every) } := tabGet_tabSet_ne _ (by simp)
  obtain ⟨v, k, hv⟩ := roundDiv_shape e e.clock.rate 128
  rw [if_neg (by simp [hr, hy, hdue]), hv]
  refine ⟨{ e with freeCtr := k }, _, rfl, congrArg TsuSt.seqSync hst, congrArg TsuSt.syncNext hst, rfl, rfl, fun hf => ?_⟩
  exact congrArg (d.tsuFill p st.seqSync (d.tsuTpl n 0)) (funext fun b => if_neg hf)

theorem delayReqSend_sends {s : State} {d : Device} {p c : Nat} (hd : s.dev.atCyc c = d)
    (hp : d.srvCtl F.TIME_SERVO_CTRL_SRC_PORT = p) (hs : d.srvPort p = true) (hm : d.srvCtl F.TIME_SERVO_CTRL_DELAY_MODE = 0)
    (h13 : d.seqOn 13 = true) (hy : d.tsuReady p 1 = true) (ht : ∀ t, (d.tsuSt p).dreqNext = some t → t ≤ d.freeAtStart)
    {e : Device} (he : delayReqSend s.dev c = e) :
    (∃ q, e.servo.dreqs = d.servo.dreqs ++ [q] ∧ q.seq = (d.tsuSt p).seqDreq ∧ q.since = d.stepFreeNow ∧ q.t3 = none) ∧
    (e.tsuSt p).seqDreq = ((d.tsuSt p).seqDreq + 1) % 65536 ∧
    (e.tsuSt p).dreqNext = some ((d.tsuSt p).dreqNext.getD d.stepFreeNow + logTime (d.srvCtl F.TIME_SERVO_CTRL_DREQ_LOG)) := by
  unfold delayReqSend at he
  rw [hd] at he
  extract_lets d' p' due st every g at he
  subst d'
  have hdue : due = true := by
    show (match (d.tsuSt p').dreqNext with
      | none => true
      | some t => decide (t ≤ d.freeAtStart)) = true
    rw [show p' = p from hp]
    cases h : (d.tsuSt p).dreqNext with
    | none => rfl
    | some t => exact decide_eq_true (ht t h)
  rw [if_neg (by simp [p', hp, hs, hm, h13, hy, hdue])] at he
  have hst : g.tsuSt p = { st with
      seqDreq := (st.seqDreq + 1) % 65536
      dreqNext := some (st.dreqNext.getD d.stepFreeNow + every) } := by
    rw [← hp]
    exact tabGet_tabSet_ne _ (by simp)
  have hg : g.servo = d.servo ∧ g.clock = d.clock ∧ g.stroke = d.stroke := ⟨rfl, rfl, rfl⟩
  clear_value g
  obtain ⟨gs, gc, gr⟩ := hg
  have hq := tsuQueue_forwarded g p' (g.tsuFill p' st.seqDreq (g.tsuTpl (p' / 32) 1) fun bs => bs) none
  generalize g.tsuQueue p' (g.tsuFill p' st.seqDreq (g.tsuTpl (p' / 32) 1) fun bs => bs) none = r at hq he
  obtain ⟨x, id⟩ := r
  dsimp -zeta only at hq he
  extract_lets q srv y at he
  have k := count_told y (A.TIME_SRV_CNT 2)
  rw [he] at k
  have hx : x.tsuSt p = g.tsuSt p := congrArg (fun t => tabGet (fun _ => ({} : TsuSt)) t p) hq.tsu
  have ht' : e.tsuSt p = x.tsuSt p := congrArg (fun t => tabGet (fun _ => ({} : TsuSt)) t p) k.forwarded.tsu
  have hnow : x.stepFreeNow = d.stepFreeNow := by
    unfold Device.stepFreeNow Device.clockGain Device.inStroke
    rw [hq.clock, hq.stroke, gc, gr]
  rw [ht', hx, hst, ← hp]
  refine ⟨⟨q, ?_, rfl, hnow, rfl⟩, rfl, rfl⟩
  rw [k.servo, ← gs, ← hq.servo]

theorem delayRespReceive_takes {s : State} {d : Device} {p c : Nat} {m : PtpMsg} {q : DreqOpen} (hd : s.dev.atCyc c = d)
    (hf : d.fromSource p m = true) (hm : m.reqId.toNat * 65536 + m.reqPort.toNat = d.ptpIdentity p)
    (hq : (d.servo.dreqs.find? fun q => q.seq = m.seq.toNat ∧ q.t3.isSome ∧ d.freeAtStart < q.since + secT 1) = some q)
    {e : Device} (he : delayRespReceive s.dev p c m = e) : e.servo.dreqs = d.servo.dreqs.filter (fun x => x ≠ q) ∧
      (d.servo.lastForward = none → e.servo.delayM = d.servo.delayM) ∧
      ∀ t3 fwd, q.t3 = some t3 → d.servo.lastForward = some fwd → ∃ v g,
        ({ d with servo := { d.servo with dreqs := d.servo.dreqs.filter fun x => x ≠ q } }).roundDiv
          (fwd + (ptpTime m - t3 - ptpCorr m)) 2 = (v, g) ∧ e = { g with servo := { g.servo with delayM := some v } } := by
  unfold delayRespReceive at he
  rw [hd] at he
  extract_lets d' mine srv at he
  subst d'
  rw [if_neg (by simp [mine, hf, hm]), hq] at he
  dsimp -zeta only at he
  extract_lets g at he
  show _ ∧ _ ∧ ∀ t3 fwd, _ → _ → ∃ v x, g.roundDiv _ 2 = (v, x) ∧ _
  have hg : g.servo.dreqs = d.servo.dreqs.filter (fun x => x ≠ q) ∧ g.servo.delayM = d.servo.delayM ∧
    g.servo.lastForward = d.servo.lastForward := ⟨rfl, rfl, rfl⟩
  clear_value g
  obtain ⟨gq, gm, gl⟩ := hg
  rw [← gq, ← gm, ← gl]
  split at he
  · next t3 fwd h3 hl =>
    obtain ⟨v, k, hv⟩ := roundDiv_shape g (fwd + (ptpTime m - t3 - ptpCorr m)) 2
    rw [hv] at he
    subst he
    refine ⟨rfl, fun h => absurd (hl.symm.trans h) (by simp), fun t3' fwd' h3' hl' => ?_⟩
    cases h3.symm.trans h3'
    cases hl.symm.trans hl'
    exact ⟨_, _, hv, rfl⟩
  · next hno =>
    subst he
    exact ⟨rfl, fun _ => rfl, fun t3 fwd h3 hl => (hno t3 fwd h3 hl).elim⟩

/-- Settles O51. -/
theorem ptpAndServo : Obligations.PtpAndServo := by
  unfold Obligations.PtpAndServo
  refine ⟨?_, ?_, ?_, ?_, ?_, ?_, ?_, ?_⟩
  · intro s d p c wf hc hd
    refine ⟨fun h => ?_, fun hr hy => ⟨fun t ht hlt => ?_, fun h => completes_clock (f := fun d => syncSend d p c) rfl wf hc
      (syncSend_sends hr hy hd h)⟩⟩ <;>
      subst hd <;>
      refine makes_clock (f := fun d => syncSend d p c) rfl wf hc ?_ <;>
      unfold syncSend <;>
      dsimp only
    · exact if_pos (by rcases h with h | h <;> simp [h])
    · rw [ht]
      exact if_pos (by simp [hlt])
  · intro s d g p c lane raw m t4 fr wf hc hd hg
    subst hd
    refine ⟨fun h => ?_, fun hr hy hv hm o ho => ?_⟩ <;>
      refine makes_clock (f := fun d => delayRespSend d p c lane raw m) rfl wf hc ?_ <;>
      unfold delayRespSend <;>
      dsimp only
    · exact if_pos (by simpa using h)
    · rw [if_neg (by simp [hr, hy, hv, hm]), hg, ← ho]
  · intro s d p c hlt hc hd hp hs hm h13 hy
    have wf : (Instr.delayReqSend c).wf = true := by simpa [Instr.wf] using hlt
    refine ⟨fun t ht hlt => ?_, fun h => completes_clock (f := fun d => delayReqSend d c) rfl wf hc
      (delayReqSend_sends hd hp hs hm h13 hy h rfl)⟩
    subst hd hp
    refine makes_clock (f := fun d => delayReqSend d c) rfl wf hc ?_
    unfold delayReqSend
    dsimp only
    rw [ht]
    exact if_pos (by simp [hlt])
  · intro s d p c m q wf hc hd hf hm hq
    exact completes_clock (f := fun d => delayRespReceive d p c m) rfl wf hc (delayRespReceive_takes hd hf hm hq rfl)
  · intro s d g p c lane raw m t2 fr wf hc hd hg
    subst hd
    refine ⟨fun hf => ?_, fun hf h2 => ?_, fun hf h2 => ?_⟩ <;>
      refine makes_clock (f := fun d => syncReceiveSample d p c lane raw m) rfl wf hc ?_ <;>
      unfold syncReceiveSample
    · exact if_pos (by rw [hf]; rfl)
    all_goals
      dsimp only
      rw [if_neg (by rw [hf]; decide), hg]
    · exact if_pos h2
    · exact if_neg (by rw [h2]; decide)
  · intro s d p c m seq at_ t2 cs wf hc hd ho
    subst hd
    refine ⟨fun h => ?_, fun hf hs hm ha => ?_⟩ <;>
      refine makes_clock (f := fun d => followUpReceive d p c m) rfl wf hc ?_ <;>
      unfold followUpReceive <;>
      dsimp only <;>
      rw [ho]
    · exact if_pos (by simpa using h)
    · exact if_neg (by simp [hf, hs, hm, ha])
  · intro s hc
    refine ⟨fun h => makes_clock (f := servoLossTimeout) (g := id) rfl rfl hc (if_pos h), fun h => ?_⟩
    have hs : servoLossTimeout s.dev = match s.dev.servo.state with
      | .locked => s.dev.holdover
      | .acquiring => if s.dev.servo.everLocked then s.dev.holdover else s.dev.srvState .free
      | _ => s.dev := if_neg (Nat.not_lt.2 h)
    refine ⟨fun hl => ?_, fun ha he => ?_, fun ha he => ?_, fun hl => ?_⟩
    · refine completes_clock (f := servoLossTimeout) rfl rfl hc ?_
      rw [hs, hl]
      exact ⟨holdover_state _, holdover_dev _⟩
    · refine completes_clock (f := servoLossTimeout) rfl rfl hc ?_
      rw [hs, ha, he]
      exact ⟨holdover_state _, holdover_dev _⟩
    · refine completes_clock (f := servoLossTimeout) rfl rfl hc ?_
      rw [hs, ha, he]
      exact ⟨srvState_state _ _, srvState_clock _ _⟩
    · refine makes_clock (f := servoLossTimeout) (g := id) rfl rfl hc (hs.trans ?_)
      rcases hl with hl | hl <;> rw [hl] <;> rfl
  · intro s hc
    refine ⟨fun h => makes_clock (f := delayRespMissed) (g := id) rfl rfl hc ?_,
      fun q hq => makes_clock (f := delayRespMissed) rfl rfl hc ?_⟩ <;>
      unfold delayRespMissed
    · rw [h]
      rfl
    · rw [hq]

end Sys2Proof.Machine

/-! Captures, PPS outputs and triggers (R266, R271, R272). -/

namespace Sys2Proof.Machine

-- Triggers (R271) -----------------------------------------------------------------------------------------------------

section
variable {d : Device} {src : Source} {k per width : Nat} {w : Word} (he : F.TIME_TR_CTRL_EN.get w ≠ 0)
  (hp : (d.reg (A.TIME_TR_PERIOD k)).toNat = per) (hw : F.TIME_TR_WIDTH_NS.get (d.reg (A.TIME_TR_WIDTH k)) = width)
include he hp hw

theorem trCtrlWrite_badWidth (hb : width < 2 ∨ (per ≠ 0 ∧ per ≤ width)) :
    trCtrlWrite d src k w = d.refuse src (A.TIME_TR_CTRL k) := by
  subst hp hw
  unfold trCtrlWrite
  dsimp only
  rw [if_neg he]
  exact if_pos hb

theorem trCtrlWrite_armed (h2 : 2 ≤ width) (h0 : per = 0 ∨ width < per) (ha : (d.trig k).armed = true) :
    trCtrlWrite d src k w = d.setReg (A.TIME_TR_CTRL k) (w &&& 3#32) := by
  subst hp hw
  unfold trCtrlWrite
  dsimp only
  rw [if_neg he, if_neg (by omega)]
  exact if_pos ha

theorem trCtrlWrite_arms (h2 : 2 ≤ width) (h0 : per = 0 ∨ width < per) (ha : (d.trig k).armed = false) {start : Nat}
    (hs : start = nsT ((d.trig k).startSec * 1000000000 + (d.trig k).startNs)) {e : Device}
    (hd : d.setReg (A.TIME_TR_CTRL k) (w &&& 3#32) = e) :
    trCtrlWrite d src k w =
      if d.clockNow < start then e.setTrig k { d.trig k with armed := true, next := start, given := 0 }
      else if per = 0 then (e.setTrig k { d.trig k with armed := false }).raise 0x30000 6
      else e.setTrig k { d.trig k with
        armed := true
        next := start + ((d.clockNow + usT 1 - start) / nsT per + 1) * nsT per
        given := 0 } := by
  subst hp hw hs
  have hn : e.clockNow = d.clockNow := hd ▸ setReg_clockNow _ _
  unfold trCtrlWrite
  dsimp only
  rw [if_neg he, if_neg (by omega), if_neg (by rw [ha]; decide), hd, hn]

end

theorem triggerPulse_gives {s d : Device} {k c per count : Nat} (hd : s.atCyc c = d) (hp : (d.reg (A.TIME_TR_PERIOD k)).toNat = per)
    (hc : (d.reg (A.TIME_TR_COUNT k)).toNat = count) (ha : (d.trig k).armed = true) (hn : (d.trig k).next ≤ d.clockNow)
    {e : Device} (he : triggerPulse s k c = e) :
    e.sent = d.sent ++ [.pulse k (F.TIME_TR_CTRL_POL.get (d.reg (A.TIME_TR_CTRL k)) = 1)
      (F.TIME_TR_WIDTH_NS.get (d.reg (A.TIME_TR_WIDTH k)))] ∧
    (e.trig k).given = (d.trig k).given + 1 ∧ (per = 0 → (e.trig k).armed = false) ∧
    (count ≠ 0 → count ≤ (d.trig k).given + 1 → (e.trig k).armed = false) ∧
    (per ≠ 0 → count = 0 ∨ (d.trig k).given + 1 < count → (e.trig k).armed = true ∧
      (e.trig k).next = (d.trig k).next + ((d.clockNow - (d.trig k).next) / nsT per + 1) * nsT per) := by
  subst hp hc
  have hz : ∀ n, nsT n = 0 ↔ n = 0 := fun n => by unfold nsT; omega
  unfold triggerPulse at he
  rw [hd] at he
  extract_lets d' t now per count last next g at he
  subst d'
  have ht : g.trig k = { t with armed := !decide last, given := t.given + 1, next := next } := tabGet_tabSet_ne _ (by simp)
  rw [if_neg (by simp [t, now, ha, hn])] at he
  subst he
  refine ⟨rfl, congrArg Trigger.given ht, fun h => ?_, fun h1 h2 => ?_, fun h1 h2 => ⟨?_, ?_⟩⟩
  · refine (congrArg Trigger.armed ht).trans ?_
    simp [last, per, hz, h]
  · refine (congrArg Trigger.armed ht).trans ?_
    simp only [last, count]
    simp [h1, h2, t]
  · refine (congrArg Trigger.armed ht).trans ?_
    simp only [last, count, per, hz, t]
    simp only [Bool.not_eq_true', decide_eq_false_iff_not]
    omega
  · refine (congrArg Trigger.next ht).trans (if_neg ?_)
    simpa [per, hz] using h1

/-- Settles O52. -/
theorem pulsesAndCaptures : Obligations.PulsesAndCaptures := by
  unfold Obligations.PulsesAndCaptures
  refine ⟨?_, ?_, ?_, ?_, ?_⟩
  · intro s d g k c raw wf hc hd hg
    subst hd hg
    refine ⟨fun h => ?_, fun he hk hq o h ho => ?_⟩ <;>
      refine makes_clock (f := fun d => ppsInEdge d k c raw) rfl wf hc ?_ <;>
      unfold ppsInEdge <;>
      dsimp only
    · exact if_neg fun ⟨a, b, q⟩ => h.elim (· a) (·.elim (· b) fun h => absurd (q.symm.trans h) (by decide))
    · rw [if_pos ⟨he, hk, hq⟩, ho]
  · intro s d k c raw rising wf hc hd
    subst hd
    refine ⟨fun h => ?_, fun t ht hle => ?_, fun hb hn => ⟨fun hl => ?_, fun hl => ?_⟩⟩ <;>
      refine makes_clock (f := fun d => timeEvtEdge d k c raw rising) rfl wf hc ?_ <;>
      unfold timeEvtEdge <;>
      extract_lets d sel at_ close d1 l
    · exact if_pos (.inl (by rw [show bit sel _ = false from h]; rfl))
    · refine if_pos (.inr ?_)
      simp only [close]
      rw [ht]
      exact decide_eq_true hle
    all_goals
      have hclose : close = false := by
        simp only [close]
        split
        · next t ht => exact decide_eq_false (Nat.not_le.2 (hn t ht))
        · rfl
      rw [if_neg (by rw [hclose, show bit sel _ = true from hb]; decide)]
    · exact if_neg (Nat.not_le.2 hl)
    · exact if_pos hl
  · intro s d k c ofs now start wf hc hd ho hn hs
    subst hd ho hn hs
    refine ⟨fun hh => ⟨fun hf => ?_, fun hf => ?_⟩, fun hh => ⟨fun h => ?_, fun he hr hi => ?_⟩⟩ <;>
      refine makes_clock (f := fun d => ppsOutEdge d k c) rfl wf hc ?_
    · exact (if_pos hh).trans (if_pos hf)
    · exact (if_pos hh).trans ((if_neg (Nat.not_lt.2 hf)).trans (if_pos hh))
    · exact (if_neg (by rw [hh]; decide)).trans (if_pos h)
    · exact (if_neg (by rw [hh]; decide)).trans (if_neg fun h => h.elim he (·.elim hr hi))
  · intro s src k per width w v hr hk hv hp hw
    have wf : (Instr.triggerEnable src k w).wf = true := by simpa [Instr.wf] using hk
    have hen : F.TIME_TR_CTRL_EN.get (F.TIME_TR_CTRL_EN.put w 1) ≠ 0 := by
      rw [Fld.get_put _ _ _ (by decide)]
      decide
    have made : ∀ f : Device → Device, trCtrlWrite s.dev src k (F.TIME_TR_CTRL_EN.put w 1) = f s.dev →
        Makes (.triggerEnable src k w) s f := fun f h =>
      makes_run (f := fun d => busWrite d src (A.TIME_TR_CTRL k) 0xF (F.TIME_TR_CTRL_EN.put w 1)) rfl wf
        ((write_TIME_TR_CTRL hr hk _).trans h)
    subst hv
    refine ⟨fun h => made _ (trCtrlWrite_badWidth hen hp hw h), fun h2 h0 => ⟨fun ha => made _ (trCtrlWrite_armed hen hp hw h2 h0 ha),
      fun ha start hs => ?_⟩⟩
    have key := trCtrlWrite_arms (src := src) hen hp hw h2 h0 ha hs rfl
    refine ⟨fun hl => made _ ?_, fun hl hz => made _ ?_, fun hl hz => made _ ?_⟩
    · rw [key, if_pos hl]
    · rw [key, if_neg (Nat.not_lt.2 hl), if_pos hz]
    · rw [key, if_neg (Nat.not_lt.2 hl), if_neg hz]
  · intro s d k c per count wf hc hd hp hn
    refine ⟨fun h => ?_, fun ha hle => completes_clock (f := fun d => triggerPulse d k c) rfl wf hc
      (triggerPulse_gives hd hp hn ha hle rfl)⟩
    subst hd
    exact makes_clock (f := fun d => triggerPulse d k c) rfl wf hc (if_pos (by simpa using h))

end Sys2Proof.Machine

/-! Flow records fetched and swept, and datagrams closed (R280, R283, R290 to R293). -/

namespace Sys2Proof.Machine

-- FLOW_MISS_FETCH (R280) ----------------------------------------------------------------------------------------------

section
variable {d : Device} {b : Nat} {u : FlowUpd} {rest : List (Nat × FlowUpd)} (hm : d.telem.misses = (b, u) :: rest)
include hm

theorem flowMissFetch_cached (hc : ((d.cacheSet b).any fun e => e.1 = b) = true) : flowMissFetch d =
    (({ d with telem := { d.telem with misses := rest } }).setCache b
      ((b, true) :: (d.cacheSet b).filter fun e => e.1 ≠ b)).bucketUpd b u := by
  unfold flowMissFetch
  rw [hm]
  exact if_pos hc

variable {dirty : Bool} {size : Nat} (hc : ((d.cacheSet b).any fun e => e.1 = b) = false)
  (hd : dirty = ((if (d.cacheSet b).length ≥ 8 then (d.cacheSet b).getLast? else none).map (·.2)).getD false)
  (hs : size = if dirty then 8 else 4)
include hc hd hs

theorem flowMissFetch_waits (ha : d.canAdmit 0x08 0 size 1 d.stroke.cyc b = false) : flowMissFetch d = d.mustWait 0x08 0 b size := by
  subst hd hs
  unfold flowMissFetch
  rw [hm]
  exact (if_neg (by rw [hc]; decide)).trans (if_pos (by rw [ha]; rfl))

theorem flowMissFetch_fetches (ha : d.canAdmit 0x08 0 size 1 d.stroke.cyc b = true) : ∃ g h : Device,
    g = (d.spend 0x08 0 size b).lhMoved size none ∧ h = { g with telem := { g.telem with misses := rest } } ∧
    flowMissFetch d = (((if dirty then h.count (telCnt 4) else h).count (telCnt 3)).setCache b
      ((b, true) :: (d.cacheSet b).take 7)).bucketUpd b u := by
  subst hd hs
  refine ⟨_, _, rfl, rfl, ?_⟩
  unfold flowMissFetch
  rw [hm]
  exact (if_neg (by rw [hc]; decide)).trans (if_neg (by rw [ha]; decide))

end

-- FLOW_SWEEP_VISIT (R283, R285) ---------------------------------------------------------------------------------------

theorem flowSweepVisit_early {d : Device} (h : d.visitDue = false) : flowSweepVisit d = d := if_pos (by rw [h]; rfl)

section
variable {d : Device} {b fetch cost : Nat} {rs : List FlowRec} (hv : d.visitDue = true) (hb : d.telem.sweep = b)
  (hl : b < flowBuckets d.profile.active)
  (hr : rs = if d.seqOn (4 + b % 4) then tabGet (fun _ => ([] : List FlowRec)) d.telem.buckets b else [])
  (hf : fetch = if flowOnDie d.profile.active ∨ (d.cacheSet b).any (fun e => e.1 = b) then 0 else 4)
  (hc : cost = (rs.map fun r => d.packCost (if d.closes r then 2 else 1)).sum)
include hv hb hl hr hf hc

/-- A visit of bucket `b` that is due: the records, the room for them, and both budgets. -/
theorem flowSweepVisit_bucket : flowSweepVisit d =
    if !(rs.isEmpty ∨ (d.packRoom (b % 4) 1 && d.packRoom (b % 4) 2)) then d
    else if !d.canAdmit 0x08 0 fetch 1 d.stroke.cyc (1000000 + b) then d.mustWait 0x08 0 (1000000 + b) fetch
    else if !d.canAdmit 0x0B 0 cost 1 d.stroke.cyc (1000000 + b) then d.mustWait 0x0B 0 (1000000 + b) cost
    else (((((d.spend 0x08 0 fetch (1000000 + b)).spend 0x0B 0 cost (1000000 + b)).lhMoved fetch none).lhMoved cost
      none).visitBucket b).sweepOn := by
  subst hc hf hr hb
  exact (if_neg (by rw [hv]; decide)).trans (if_pos hl)

end

section
variable {d : Device} {p : Nat} (hv : d.visitDue = true) (hb : d.telem.sweep = flowBuckets d.profile.active + p)
include hv hb

/-- A visit of a port's overflow bucket that is due: the port and its sequencer, the room and the budget. -/
theorem flowSweepVisit_port {x : Device} (h : (if !d.portEn p ∨ !d.seqOn (4 + p / 256) then d.sweepOn
    else if !d.packRoom (p / 256) 4 then d
    else if !d.canAdmit 0x0B 0 (d.packCost 4) 1 d.stroke.cyc (1000000 + d.telem.sweep) then
      d.mustWait 0x0B 0 (1000000 + d.telem.sweep) (d.packCost 4)
    else
      let o := tabGet (fun _ => ({} : OverflowRec)) d.telem.overflow p
      let o := { o with body := { o.body with inPort := p } }
      let g := ((d.spend 0x0B 0 (d.packCost 4) (1000000 + d.telem.sweep)).lhMoved (d.packCost 4) none).packRecord (p / 256) 4 o.bytes
      ({ g with telem := { g.telem with
        overflow := tabSet (fun _ => ({} : OverflowRec)) g.telem.overflow p { o with body := o.body.restart } } }).sweepOn) = x) :
    flowSweepVisit d = x := by
  have hp : d.telem.sweep - flowBuckets d.profile.active = p := by omega
  subst hp
  exact ((if_neg (by rw [hv]; decide)).trans (if_neg (by omega))).trans h

end

/-- The oldest open datagram with its billet granted: its time, its sequencer and the budget. -/
theorem datagramClose_granted {d : Device} {j k t ptr units : Nat} {g : Datagram} (hg : (d.openDgrams j k t).head? = some g)
    (hp : d.grantedFor 99 g.id = some ptr) (hu : g.records.length * rtypeUnits t = units) : datagramClose d j k t =
      if !d.dgramDue g ∨ !d.seqOn (4 + j) then d
      else if !d.canAdmit 0x0B 0 units 1 d.stroke.cyc (2000000 + g.id) then d.mustWait 0x0B 0 (2000000 + g.id) units
      else
        let h := ((d.spend 0x0B 0 units (2000000 + g.id)).lhMoved units (some (lhAttr ptr))).takeGrant 99 g.id
        (({ h with telem := { h.telem with open_ := h.telem.open_.filter fun o => o ≠ g } }).freeBillet 99 ptr).dgramSend g := by
  subst hu
  unfold datagramClose
  rw [hg]
  dsimp only
  rw [hp]

/-- Settles O53. -/
theorem flowsAndDatagrams : Obligations.FlowsAndDatagrams := by
  unfold Obligations.FlowsAndDatagrams
  refine ⟨?_, ?_, ?_, ?_, ?_, ?_, ?_⟩
  · intro s b u rest hc hm
    refine ⟨fun h => makes_clock (f := flowMissFetch) rfl rfl hc (flowMissFetch_cached hm h), fun h dirty size hd hs =>
      ⟨fun ha => makes_clock (f := flowMissFetch) rfl rfl hc (flowMissFetch_waits hm h hd hs ha),
        fun ha => completes_clock (f := flowMissFetch) rfl rfl hc (flowMissFetch_fetches hm h hd hs ha)⟩⟩
  · intro s hc hm
    refine makes_clock (f := flowMissFetch) (g := id) rfl rfl hc ?_
    unfold flowMissFetch
    rw [hm]
    rfl
  · exact fun s hc hv => makes_clock (f := flowSweepVisit) (g := id) rfl rfl hc (flowSweepVisit_early hv)
  · intro s b fetch cost rs hc hv hb hl hr hf hk
    have key := flowSweepVisit_bucket hv hb hl hr hf hk
    refine ⟨fun hn hp => ?_, fun hn => ?_⟩
    · exact makes_clock (f := flowSweepVisit) (g := id) rfl rfl hc (key.trans (if_pos (by simp [hn, hp])))
    · have hroom : ¬ (!(rs.isEmpty ∨ (s.dev.packRoom (b % 4) 1 && s.dev.packRoom (b % 4) 2))) = true := by
        rcases hn with h | h
        · rw [h]
          simp
        · rw [h]
          simp
      rw [if_neg hroom] at key
      refine ⟨fun h8 => ?_, fun h8 => ⟨fun hB => ?_, fun hB => ?_⟩⟩ <;>
        refine makes_clock (f := flowSweepVisit) rfl rfl hc (key.trans ?_)
      · exact if_pos (by rw [h8]; rfl)
      · exact (if_neg (by rw [h8]; decide)).trans (if_pos (by rw [hB]; rfl))
      · exact (if_neg (by rw [h8]; decide)).trans (if_neg (by rw [hB]; decide))
  · intro s p hc hv hb
    refine ⟨fun h => ?_, fun he hs => ⟨fun hr => ?_, fun hr b hbb => ?_⟩⟩
    · exact makes_clock (f := flowSweepVisit) rfl rfl hc (flowSweepVisit_port hv hb (if_pos (by simpa using h)))
    all_goals
      have hon : ¬ ((!s.dev.portEn p) = true ∨ (!s.dev.seqOn (4 + p / 256)) = true) := by simp [he, hs]
    · exact makes_clock (f := flowSweepVisit) (g := id) rfl rfl hc
        (flowSweepVisit_port hv hb ((if_neg hon).trans (if_pos (by rw [hr]; rfl))))
    · have hroom : ¬ (!s.dev.packRoom (p / 256) 4) = true := by rw [hr]; decide
      subst hbb
      refine ⟨fun ha => ?_, fun ha => ?_⟩
      · exact makes_clock (f := flowSweepVisit) rfl rfl hc
          (flowSweepVisit_port hv hb ((if_neg hon).trans ((if_neg hroom).trans (if_pos (by rw [ha]; rfl)))))
      · refine completes_clock (f := flowSweepVisit) rfl rfl hc ⟨_, _, ⟨_, rfl, rfl⟩, rfl, ?_⟩
        exact flowSweepVisit_port hv hb ((if_neg hon).trans ((if_neg hroom).trans (if_neg (by rw [ha]; decide))))
  · intro s src w hr
    refine completes_run (f := fun d => busWrite d src A.TELEM_FS_CFG 0xF (F.TELEM_FS_CFG_FLUSH.put w 1)) rfl rfl ?_
    obtain ⟨f, i, hw⟩ := writeFields_file s.dev src hit_TELEM_FS_CFG A.TELEM_FS_CFG (F.TELEM_FS_CFG_FLUSH.put w 1)
    have h1 : F.TELEM_FS_CFG_FLUSH.get (F.TELEM_FS_CFG_FLUSH.put w 1) = 1 := Fld.get_put _ _ _ (by decide)
    rw [write_TELEM_FS_CFG hr, if_pos h1, hw]
    exact ⟨rfl, rfl, rfl⟩
  · intro s j k t ptr units g wf hc hg hp hu
    have key := datagramClose_granted hg hp hu
    refine ⟨fun h => makes_clock (f := fun d => datagramClose d j k t) (g := id) rfl wf hc (key.trans (if_pos (by simpa using h))),
      fun hd hs => ?_⟩
    rw [if_neg (by simp [hd, hs])] at key
    refine ⟨fun ha => makes_clock (f := fun d => datagramClose d j k t) rfl wf hc (key.trans (if_pos (by rw [ha]; rfl))), fun ha =>
      completes_clock (f := fun d => datagramClose d j k t) rfl wf hc ⟨_, rfl, key.trans (if_neg (by rw [ha]; decide))⟩⟩

end Sys2Proof.Machine

/-! Reduction: groups, the messages that an anvil takes, chunk timers and retained results (R303 to R312). -/

namespace Sys2Proof.Machine

-- Groups (R304 to R306) -----------------------------------------------------------------------------------------------

theorem redGroup_setGroup {d : Device} {n : Nat} {v : RedGroup} (h : v ≠ {}) : (d.setGroup n v).redGroup n = v :=
  tabGet_tabSet_ne _ h

section
variable {d : Device} {src : Source} {w : Word} {n : Nat} (hn : F.ANVIL_G_SEL_GROUP.get (d.reg A.ANVIL_G_SEL) = n)
include hn

theorem writeGroup_valid (hv : (d.redGroup n).valid = true) : d.writeGroup src hit_ANVIL_G_CFG A.ANVIL_G_CFG w =
    if F.ANVIL_G_CFG_VALID.get w = 1 then d.err 0xC0000 (A.ANVIL_G_CFG % 0x10000) .refused src
    else d.setGroup n { d.redGroup n with want := some false, wantSrc := src } := by
  subst hn
  exact if_pos hv

theorem writeGroup_invalid (hv : (d.redGroup n).valid = false) : d.writeGroup src hit_ANVIL_G_CFG A.ANVIL_G_CFG w =
    (d.setReg (gReg A.ANVIL_G_CFG n) (F.ANVIL_G_CFG_VALID.put w 0 &&& 0x07FFFFFF#32)).setGroup n
      { d.redGroup n with want := if F.ANVIL_G_CFG_VALID.get w = 1 then some true else none, wantSrc := src } := by
  subst hn
  exact if_neg (by rw [hv]; decide)

end

theorem groups_settled {s : State} {src : Source} {w : Word} {n : Nat} (hr : s.dev.reachable src)
    (hn : F.ANVIL_G_SEL_GROUP.get (s.dev.reg A.ANVIL_G_SEL) = n) :
    ((s.dev.redGroup n).valid = true →
      (Makes (.groupEnable src w) s fun d => d.err 0xC0000 (A.ANVIL_G_CFG % 0x10000) .refused src) ∧
      Makes (.groupDisable src w) s fun d => d.setGroup n { d.redGroup n with want := some false, wantSrc := src }) ∧
    ((s.dev.redGroup n).valid = false →
      (Completes (.groupEnable src w) s fun e => (e.redGroup n).want = some true ∧ (e.redGroup n).wantSrc = src ∧
        (e.redGroup n).valid = false ∧ e.dev = s.dev.dev ∧ e.sent = s.dev.sent) ∧
      Makes (.groupDisable src w) s fun d =>
        (d.setReg (gReg A.ANVIL_G_CFG n) (F.ANVIL_G_CFG_VALID.put (F.ANVIL_G_CFG_VALID.put w 0) 0 &&& 0x07FFFFFF#32)).setGroup n
          { d.redGroup n with want := none, wantSrc := src }) := by
  have h1 : F.ANVIL_G_CFG_VALID.get (F.ANVIL_G_CFG_VALID.put w 1) = 1 := Fld.get_put _ _ _ (by decide)
  have h0 : F.ANVIL_G_CFG_VALID.get (F.ANVIL_G_CFG_VALID.put w 0) ≠ 1 := by
    rw [Fld.get_put _ _ _ (by decide)]
    decide
  have wr := fun v => write_ANVIL_G_CFG (w := v) hr
  refine ⟨fun hv => ⟨?_, ?_⟩, fun hv => ⟨?_, ?_⟩⟩
  · refine makes_run (f := fun d => busWrite d src A.ANVIL_G_CFG 0xF (F.ANVIL_G_CFG_VALID.put w 1)) rfl rfl ?_
    rw [wr, writeGroup_valid hn hv, if_pos h1]
  · refine makes_run (f := fun d => busWrite d src A.ANVIL_G_CFG 0xF (F.ANVIL_G_CFG_VALID.put w 0)) rfl rfl ?_
    rw [wr, writeGroup_valid hn hv, if_neg h0]
  · refine completes_run (f := fun d => busWrite d src A.ANVIL_G_CFG 0xF (F.ANVIL_G_CFG_VALID.put w 1)) rfl rfl ?_
    rw [wr, writeGroup_invalid hn hv, if_pos h1, redGroup_setGroup (by simp)]
    exact ⟨rfl, rfl, hv, rfl, rfl⟩
  · refine makes_run (f := fun d => busWrite d src A.ANVIL_G_CFG 0xF (F.ANVIL_G_CFG_VALID.put w 0)) rfl rfl ?_
    rw [wr, writeGroup_invalid hn hv, if_neg h0]

-- Messages (R303, R307 to R311) ---------------------------------------------------------------------------------------

/-- The chunk that the first CONTRIB of its SEQ opens (R307, R309). -/
def Device.freshChunk (d : Device) (m : RedMsg) : Chunk :=
  { seq := m.seq
    len := m.len
    acc := List.replicate (m.len / elemBytes (d.gEtype m.group)) {}
    armed := d.strokeNo
    due := d.strokeNo + max 1 (d.gFld A.ANVIL_G_TMR m.group F.ANVIL_G_TMR_NACK_STK) + 1 }

section
variable {d g0 g : Device} {a o : Nat} {wait : Bool} {c : Copy} {f : Frame} {m : RedMsg}

/-- CONTRIB_RECEIVE of a message that has passed the checks, after a timeout that had to come first. -/
theorem contribReceive_takes (ht : d.anvilTake a 1 = (g0, some (c, f, o, m)))
    (hw : g0.timeoutFirst a m.group m.seq c.uid = (g, wait)) {r : RedGroup} (hr : g.redGroup m.group = r) {old : Option Chunk}
    (ho : r.chunk m.seq = old) {k : Chunk} (hk : k = old.getD (g.freshChunk m)) :
    contribReceive d a =
      if wait then g
      else if (old.map fun k => k.st == .awaitParent).getD false ∨ r.released.contains m.seq ∨ beforeMod 32 m.seq r.low then
        g.lateContrib a c f o m ((old.map fun k => k.st == .awaitParent).getD false)
      else if bit k.bits m.member then
        if (g.issue a (ceilDiv m.len 64) c).2 then
          (((g.issue a (ceilDiv m.len 64) c).1.count (anvCnt 0)).count (anvCnt 1)).takeMsg c
        else (g.issue a (ceilDiv m.len 64) c).1
      else g.contribTake a c f o m k := by
  subst hk ho hr
  unfold contribReceive
  rw [ht]
  dsimp only
  rw [hw]
  rfl

theorem contribTake_waits {k : Chunk} {h : Device} (hi : d.issue a (ceilDiv m.len 64) c = (h, false)) :
    d.contribTake a c f o m k = h := by
  unfold Device.contribTake
  dsimp only
  rw [hi]
  rfl

theorem contribTake_adds {k k2 : Chunk} {h h2 : Device} {payload : Bytes} (hi : d.issue a (ceilDiv m.len 64) c = (h, true))
    (hb : h.msgBytes (f.bytes.take (f.bytes.length - 4)) (o + 32) m.len = (h2, payload))
    (hk : k.addMember (h2.gEtype m.group) (h2.gOp m.group) m payload = k2) :
    d.contribTake a c f o m k =
      if popCount k2.bits 1024 = h2.gMembers m.group then
        (((h2.count (anvCnt 0)).takeMsg c).setChunk m.group { k2 with st := .forming }).formNext m.group { k2 with st := .forming }
      else ((h2.count (anvCnt 0)).takeMsg c).setChunk m.group k2 := by
  subst hk
  unfold Device.contribTake
  dsimp only
  rw [hi]
  dsimp only
  rw [if_neg (by decide), hb]
  dsimp only
  split <;> rfl

end

/-- Settles O54. -/
theorem reductionMessages : Obligations.ReductionMessages := by
  unfold Obligations.ReductionMessages
  refine ⟨fun s src w n hr hn => groups_settled hr hn, ?_, ?_, ?_, ?_, ?_⟩
  · intro s a g wf hc
    refine ⟨fun h => makes_clock (f := fun d => contribReceive d a) rfl wf hc ?_,
      fun h => makes_clock (f := fun d => resultReceive d a) rfl wf hc ?_,
      fun h => makes_clock (f := fun d => nackReceive d a) rfl wf hc ?_,
      fun h => makes_clock (f := fun d => abortReceive d a) rfl wf hc ?_⟩
    · unfold contribReceive
      rw [h]
    · unfold resultReceive
      rw [h]
    · unfold nackReceive
      rw [h]
    · unfold abortReceive
      rw [h]
  · intro s a g0 g wait c f o m r old wf hc ht hw hr ho
    have key := contribReceive_takes ht hw hr ho rfl
    have made : ∀ x, contribReceive s.dev a = x → Makes (.contribReceive a) s fun _ => x := fun x h =>
      makes_clock (f := fun d => contribReceive d a) rfl wf hc h
    refine ⟨fun h => made _ ?_, fun h k hk hs => made _ ?_, fun h hs => ?_⟩
    · rw [key, if_pos h]
    · rw [key, if_neg (by rw [h]; decide), hk]
      simp [hs]
    · have hawait : (old.map fun k => k.st == .awaitParent).getD false = false := by
        cases old with
        | none => rfl
        | some k => simpa using hs k rfl
      rw [if_neg (by rw [h]; decide), hawait] at key
      refine ⟨fun hl => made _ (key.trans (if_pos (by simpa using hl))), fun hm hb => ?_⟩
      rw [if_neg (by simp [hm, hb])] at key
      refine ⟨fun x hx => made _ ?_, fun x k hx hk hbit => made _ ?_, fun x h2 payload k hx hb2 hk k2 hk2 => ?_⟩
      · rw [key]
        split
        · rw [hx]
          rfl
        · exact contribTake_waits hx
      · subst hk
        rw [key, Option.getD_some, if_pos hbit, hx]
        rfl
      · have hbit : bit k.bits m.member = false := by
          rcases hk with ⟨_, hk⟩ | ⟨_, rfl⟩
          · exact hk
          · simp [bit]
        have hold : old.getD (g.freshChunk m) = k := by
          rcases hk with ⟨rfl, _⟩ | ⟨rfl, rfl⟩ <;> rfl
        rw [hold, if_neg (by rw [hbit]; decide), contribTake_adds hx hb2 hk2] at key
        exact ⟨fun hp => made _ (key.trans (if_neg hp)), fun hp => made _ (key.trans (if_pos hp))⟩
  · intro s a g0 g c f o m wf hc ht hg
    subst hg
    refine ⟨fun hn => ?_, fun hs => ⟨fun h hi => ?_, fun h h2 payload hi hb => ?_⟩⟩ <;>
      refine makes_clock (f := fun d => resultReceive d a) rfl wf hc ?_ <;>
      unfold resultReceive <;>
      rw [ht] <;>
      dsimp only
    · rw [hn]
    all_goals
      obtain ⟨k, hk⟩ := Option.isSome_iff_exists.1 hs
      rw [hk]
      dsimp only
      rw [hi]
    · rfl
    · dsimp only
      rw [if_neg (by decide), hb]
  · intro s a g0 g c f o m named old wf hc ht hg hn ho
    subst hg hn ho
    refine ⟨fun h => ?_, fun k hk hn => ⟨fun hs => ?_, fun hs => ?_⟩⟩ <;>
      refine makes_clock (f := fun d => nackReceive d a) rfl wf hc ?_ <;>
      unfold nackReceive <;>
      rw [ht] <;>
      dsimp only
    · split
      · rfl
      · next k hk =>
        exact if_pos (by rw [h.resolve_left (by rw [hk]; simp)]; rfl)
    · rw [hk]
      exact (if_neg (by rw [hn]; decide)).trans (if_pos hs)
    · rw [hk]
      exact (if_neg (by rw [hn]; decide)).trans (if_neg (by simpa using hs))
  · intro s a g c f o m wf hc ht
    refine ⟨fun hn => ?_, fun hs => ?_⟩ <;>
      refine makes_clock (f := fun d => abortReceive d a) rfl wf hc ?_ <;>
      unfold abortReceive <;>
      rw [ht] <;>
      dsimp only
    · rw [hn]
    · obtain ⟨k, hk⟩ := Option.isSome_iff_exists.1 hs
      rw [hk]

-- Timers and retained results (R309, R310, R312) ----------------------------------------------------------------------

theorem nackNow_nacks {d h : Device} {n : Nat} {k : Chunk} (ht : k.tries < d.gFld A.ANVIL_G_TMR n F.ANVIL_G_TMR_NACK_MAX)
    (hi : d.inPieces 0x0D (d.gAnvil n) 2 (2 ^ 32 + n) = (h, true)) : ∃ g : Device,
      g = (h.event none 0x8007 2 (some (h.gAnvil n)) {}).setChunk n { k with
        tries := k.tries + 1
        armed := d.strokeNo
        due := d.strokeNo + max 1 (h.gFld A.ANVIL_G_TMR n F.ANVIL_G_TMR_NACK_STK) + 1 } ∧
      d.nackNow n k = (g.sendMsg n (g.tplDown n) (g.msgOf n 3 k.seq 128 0 0 false) false (nackBytes (g.gMembers n) k.bits)).count
        (anvCnt 10) := by
  have hs : (h.event none 0x8007 2 (some (h.gAnvil n)) {}).strokeNo = d.strokeNo := by
    have h1 := inPieces_told d 0x0D (d.gAnvil n) 2 (2 ^ 32 + n)
    rw [hi] at h1
    have h2 := h1.trans (event_told h none 0x8007 2 (some (h.gAnvil n)) {})
    unfold Device.strokeNo
    rw [h2.forwarded.stroke]
  refine ⟨_, rfl, ?_⟩
  unfold Device.nackNow
  rw [if_neg (Nat.not_le.2 ht), hi]
  dsimp only
  rw [if_neg (by decide), hs]

theorem matureChunk_seqOff {d : Device} {n : Nat} (h : d.anvilSeq n = false) (st : ChunkState) : d.matureChunk n st = none := by
  unfold Device.matureChunk Device.chunkDue
  simp [h]

/-- Settles O55. -/
theorem reductionTimers : Obligations.ReductionTimers := by
  unfold Obligations.ReductionTimers
  refine ⟨?_, ?_, ?_, ?_, ?_, ?_⟩
  · intro s n hn hc
    have hg : groupOk n = true := by simpa [groupOk, ltOk] using hn
    refine ⟨fun h => makes_clock (f := fun d => nackTimer d n) (g := id) rfl hg hc ?_,
      fun h => makes_clock (f := fun d => upTimer d n) (g := id) rfl hg hc ?_⟩
    · unfold nackTimer
      rw [h.elim id fun h => matureChunk_seqOff h _]
      rfl
    · unfold upTimer
      rw [h.elim id fun h => matureChunk_seqOff h _]
      rfl
  · intro s n k hn hc hs hk
    have hg : groupOk n = true := by simpa [groupOk, ltOk] using hn
    have key : nackTimer s.dev n = s.dev.nackNow n k := by
      unfold nackTimer
      rw [hk]
    refine ⟨fun hm => makes_clock (f := fun d => nackTimer d n) rfl hg hc (key.trans (if_pos hm)), fun ht => ⟨fun h hi => ?_, fun h hi => ?_⟩⟩
    · refine makes_clock (f := fun d => nackTimer d n) rfl hg hc (key.trans ((if_neg (Nat.not_le.2 ht)).trans ?_))
      rw [hi]
      rfl
    · obtain ⟨g, hg', he⟩ := nackNow_nacks ht hi
      exact completes_clock (f := fun d => nackTimer d n) rfl hg hc ⟨g, hg', key.trans he⟩
  · intro s n k hn hc hs hk
    have hg : groupOk n = true := by simpa [groupOk, ltOk] using hn
    have key : upTimer s.dev n = s.dev.upNow n k := by
      unfold upTimer
      rw [hk]
    exact ⟨fun hm => makes_clock (f := fun d => upTimer d n) rfl hg hc (key.trans (if_pos hm)),
      fun ht => makes_clock (f := fun d => upTimer d n) rfl hg hc (key.trans (if_neg (Nat.not_le.2 ht)))⟩
  · intro s a ha hc hn
    refine makes_clock (f := fun d => retainComplete d a) (g := id) rfl (by simpa [Instr.wf, anvilOk, ltOk] using ha) hc ?_
    unfold retainComplete
    rw [hn]
    rfl
  · intro s a ptr units t ha hc ht hp hu
    have wf : anvilOk a = true := by simpa [anvilOk, ltOk] using ha
    subst hu
    refine ⟨fun h hi => makes_clock (f := fun d => retainComplete d a) rfl wf hc ?_, fun h g hi hg =>
      completes_clock (f := fun d => retainComplete d a) rfl wf hc ⟨_, rfl, ?_⟩⟩ <;>
      unfold retainComplete <;>
      rw [ht] <;>
      dsimp only <;>
      rw [hp] <;>
      dsimp only <;>
      rw [hi]
    · rfl
    · subst hg
      exact if_neg Bool.false_ne_true
  · intro s n hn hc
    have hg : groupOk n = true := by simpa [groupOk, ltOk] using hn
    refine ⟨fun h => makes_clock (f := fun d => retainExpire d n) (g := id) rfl hg hc ?_,
      fun k r h => makes_clock (f := fun d => retainExpire d n) rfl hg hc ?_⟩ <;>
      unfold retainExpire <;>
      dsimp only <;>
      rw [h]
    rfl

end Sys2Proof.Machine

/-! The sequencers: microwords, waits, accesses, events and mailboxes (R318 to R323, R329, R330). -/

namespace Sys2Proof.Machine

-- A sequencer's state -------------------------------------------------------------------------------------------------

theorem seqSt_modSeq {d : Device} {n : Nat} {f : SeqSt → SeqSt} (h : f (d.seqSt n) ≠ {}) : (d.modSeq n f).seqSt n = f (d.seqSt n) :=
  tabGet_tabSet_ne _ h

theorem seqWord_modSeq {d : Device} {n : Nat} {f : SeqSt → SeqSt} (h : f (d.seqSt n) ≠ {}) (hp : (f (d.seqSt n)).pc = (d.seqSt n).pc) :
    (d.modSeq n f).seqWord n = d.seqWord n := by
  unfold Device.seqWord
  rw [seqSt_modSeq h, hp]
  rfl

theorem Told.strokeNo {d e : Device} (h : Told d e) : e.strokeNo = d.strokeNo := by
  unfold Device.strokeNo
  rw [h.forwarded.stroke]

theorem Told.absCyc {d e : Device} (h : Told d e) : e.absCyc = d.absCyc := by
  unfold Device.absCyc
  rw [h.strokeNo, h.forwarded.stroke]

theorem Told.seqSt {d e : Device} (h : Told d e) (n : Nat) : e.seqSt n = d.seqSt n := by
  unfold Device.seqSt
  rw [h.seq]

-- Microwords (R320) ---------------------------------------------------------------------------------------------------

section
variable {s d : Device} {n c : Nat} {q : SeqSt} (hd : s.atCyc c = d) (hq : d.seqSt n = q)
include hd hq

theorem microwordIssue_idle (h : q.st ≠ .running ∨ q.bus.isSome = true ∨ q.issuedAt = some d.absCyc ∨ d.dev.state = .thermal) :
    microwordIssue s n c = d := by
  subst hq hd
  exact if_pos h

variable (hr : q.st = .running) (hb : q.bus = none) (hi : q.issuedAt ≠ some d.absCyc) (hh : d.dev.state ≠ .thermal)
include hr hb hi hh

theorem microwordIssue_waits (ha : d.canAdmit 0x0F n 1 1 d.stroke.cyc 0 = false) : microwordIssue s n c = d.mustWait 0x0F n 0 1 := by
  have hn : ¬ (q.st ≠ .running ∨ q.bus.isSome = true ∨ q.issuedAt = some d.absCyc ∨ d.dev.state = .thermal) := by
    simp [hr, hb, hi, hh]
  subst hq hd
  exact (if_neg hn).trans (if_pos (by rw [ha]; rfl))

theorem microwordIssue_issues (ha : d.canAdmit 0x0F n 1 1 d.stroke.cyc 0 = true) {g : Device} (hg : g =
      (((d.spend 0x0F n 1 0).count (A.SEQ_SQ_CNT n 0)).event none 0x8006 1 (some n) {}).modSeq n
        fun q => { q with issued := d.strokeNo, issuedAt := some d.absCyc }) :
    microwordIssue s n c = if q.bad.contains ((g.role (roleOf n)).active, q.pc) then g.seqFault n 3
      else if mwBad (g.seqWord n) then g.seqFault n 1
      else g.seqOp n (g.seqWord n) := by
  have k := ((spend_told d 0x0F n 1 0).trans (count_told _ (A.SEQ_SQ_CNT n 0))).trans (event_told _ none 0x8006 1 (some n) {})
  have hn : ¬ (q.st ≠ .running ∨ q.bus.isSome = true ∨ q.issuedAt = some d.absCyc ∨ d.dev.state = .thermal) := by
    simp [hr, hb, hi, hh]
  rw [← k.strokeNo, ← k.absCyc] at hg
  subst hq hd hg
  exact (if_neg hn).trans (if_neg (by rw [ha]; decide))

end

-- Waits (R320) --------------------------------------------------------------------------------------------------------

theorem seqLook_stays {d : Device} {n : Nat} (h : (d.seqSt n).st ≠ .waiting ∨ (d.seqSt n).held = true ∨
    (d.seqSt n).late d.strokeNo = true ∨ d.seqHolds n = false) : d.seqLook n = d := by
  refine if_neg fun ⟨hs, hh, hl, ho⟩ => ?_
  rcases h with h | h | h | h
  · exact h hs
  · simp [h] at hh
  · simp [h] at hl
  · simp [h] at ho

/-- How a wait ends whose condition held (R320). -/
def Device.seqGoOn (d : Device) (n : Nat) : Device :=
  d.modSeq n fun q => { q with st := .running, pc := mwNext (d.seqWord n), due := none, held := false }

theorem waitConditionMet_eq (d : Device) (n c : Nat) : waitConditionMet d n c =
    if (((d.atCyc c).seqLook n).seqSt n).st = .waiting ∧ (((d.atCyc c).seqLook n).seqSt n).held then
      ((d.atCyc c).seqLook n).seqGoOn n
    else (d.atCyc c).seqLook n := rfl

theorem waitConditionMet_finds {s d : Device} {n c : Nat} (hd : s.atCyc c = d) (hs : (d.seqSt n).st = .waiting)
    (hh : (d.seqSt n).held = false) (hl : (d.seqSt n).late d.strokeNo = false) (ho : d.seqHolds n = true) :
    waitConditionMet s n c = (d.modSeq n fun q => { q with held := true }).modSeq n fun q =>
      { q with st := .running, pc := mwNext (d.seqWord n), due := none, held := false } := by
  have hlook : d.seqLook n = d.modSeq n fun q => { q with held := true } := if_pos ⟨hs, by rw [hh]; rfl, by rw [hl]; rfl, ho⟩
  have hst := seqSt_modSeq (d := d) (n := n) (f := fun q => { q with held := true }) (by simp)
  rw [waitConditionMet_eq, hd, hlook, if_pos (by rw [hst]; exact ⟨hs, rfl⟩)]
  unfold Device.seqGoOn
  rw [seqWord_modSeq (by simp) rfl]

-- Lower Hall transfers (R321) -----------------------------------------------------------------------------------------

theorem tnat_tnatSet_succ (t : Tab Nat) (k v : Nat) : tnat (tnatSet t k (v + 1)) k = v + 1 := tabGet_tabSet_ne t (Nat.succ_ne_zero v)

theorem tnatSet_succ_ne_nil (t : Tab Nat) (k v : Nat) : tnatSet t k (v + 1) ≠ [] := fun h => by
  have := tnat_tnatSet_succ t k v
  rw [h] at this
  cases this

theorem fill_seqSt (d : Device) (n k v : Nat) : (d.modSeq n fun q => { q with scratch := tnatSet q.scratch k (v + 1) }).seqSt n =
    { d.seqSt n with scratch := tnatSet (d.seqSt n).scratch k (v + 1) } :=
  seqSt_modSeq fun hq => tnatSet_succ_ne_nil _ _ _ (congrArg SeqSt.scratch hq)

/-- A load of the Lower Hall changes the free values at most. -/
theorem lhLoad_shape (d : Device) (u : Nat) : ∃ v k, d.lhLoad u = (v, { d with freeCtr := k }) := by
  unfold Device.lhLoad
  split
  · exact ⟨_, d.freeCtr, rfl⟩
  · split
    · exact ⟨_, _, rfl⟩
    · exact ⟨_, d.freeCtr, rfl⟩

theorem lhStore_shape (d : Device) (u v : Nat) : ∃ l m, d.lhStore u v = { d with ledger := l, seq := { d.seq with lhMem := m } } := by
  unfold Device.lhStore
  split
  · exact ⟨_, d.seq.lhMem, rfl⟩
  · exact ⟨d.ledger, _, rfl⟩

/-- A unit moved out of scratch leaves every sequencer; one moved in changes scratch alone. -/
theorem lhMove_frame (d : Device) (n : Nat) (t : SeqLh) (i : Nat) : (d.lhMove n t i).dev = d.dev ∧ (d.lhMove n t i).sent = d.sent ∧
    ((d.lhMove n t i).seqSt n).g = (d.seqSt n).g ∧ (t.toScratch = false → (d.lhMove n t i).seq.seqs = d.seq.seqs) := by
  unfold Device.lhMove
  split
  · next ht =>
    obtain ⟨v, k, h⟩ := lhLoad_shape d (t.addr + i)
    rw [h]
    dsimp only
    have hg := congrArg SeqSt.g (fill_seqSt { d with freeCtr := k } n (t.ofs + i) v)
    exact ⟨rfl, rfl, hg, fun hf => by rw [ht] at hf; cases hf⟩
  · split
    · dsimp only
      obtain ⟨l, m, h⟩ := lhStore_shape (d.free 512).2 (t.addr + i) (d.free 512).1
      rw [h]
      exact ⟨rfl, rfl, rfl, fun _ => rfl⟩
    · next v _ =>
      obtain ⟨l, m, h⟩ := lhStore_shape d (t.addr + i) v
      rw [h]
      exact ⟨rfl, rfl, rfl, fun _ => rfl⟩

theorem lhMoves_frame (n : Nat) (t : SeqLh) (l : List Nat) (d g : Device) (hg : g = l.foldl (fun g i => g.lhMove n t i) d) :
    g.dev = d.dev ∧ g.sent = d.sent ∧ (g.seqSt n).g = (d.seqSt n).g ∧ (t.toScratch = false → g.seq.seqs = d.seq.seqs) := by
  induction l generalizing d with
  | nil =>
    subst hg
    exact ⟨rfl, rfl, rfl, fun _ => rfl⟩
  | cons i l ih =>
    obtain ⟨h1, h2, h3, h4⟩ := ih _ hg
    obtain ⟨k1, k2, k3, k4⟩ := lhMove_frame d n t i
    exact ⟨h1.trans k1, h2.trans k2, h3.trans k3, fun ht => (h4 ht).trans (k4 ht)⟩

theorem lhMove_stores {d : Device} {n : Nat} {t : SeqLh} {i v : Nat} (ht : t.toScratch = false)
    (hs : tnat (d.seqSt n).scratch (t.ofs + i) = v + 1) (hr : d.lhRing (t.addr + i) = none) :
    tnat (d.lhMove n t i).seq.lhMem (t.addr + i) = v + 1 := by
  unfold Device.lhMove
  rw [if_neg (by rw [ht]; decide), hs]
  dsimp only
  unfold Device.lhStore
  rw [hr]
  exact tnat_tnatSet_succ _ _ _

theorem lhMove_loads {d g : Device} {n : Nat} {t : SeqLh} {i v : Nat} (ht : t.toScratch = true) (hl : d.lhLoad (t.addr + i) = (v, g)) :
    tnat ((d.lhMove n t i).seqSt n).scratch (t.ofs + i) = v + 1 := by
  unfold Device.lhMove
  rw [if_pos ht, hl]
  dsimp only
  rw [fill_seqSt]
  exact tnat_tnatSet_succ _ _ _

theorem lhTransferComplete_moves {d h : Device} {n : Nat} {t : SeqLh} {rest : List SeqLh} (hl : (d.seqSt n).lh = t :: rest)
    (hi : d.inPieces t.act t.inst t.units (5000000 + n) = (h, true)) : ∃ g : Device,
      g = (List.range t.units).foldl (fun g i => g.lhMove n t i) (h.event none 0x8003 t.units (some (t.addr / 1024)) {}) ∧
      lhTransferComplete d n = (g.modSeq n fun q => { q with lh := rest, lhDone := rest.isEmpty }).seqLook n ∧
      g.dev = h.dev ∧ g.sent = h.sent ∧ (g.seqSt n).g = (h.seqSt n).g ∧ (t.toScratch = false → g.seq.seqs = h.seq.seqs) := by
  have k := event_told h none 0x8003 t.units (some (t.addr / 1024)) {}
  obtain ⟨h1, h2, h3, h4⟩ := lhMoves_frame n t (List.range t.units) _ _ rfl
  refine ⟨_, rfl, ?_, h1.trans k.dev, h2.trans k.sent, h3.trans (congrArg SeqSt.g (k.seqSt n)), fun ht => (h4 ht).trans (congrArg SeqUnit.seqs k.seq)⟩
  unfold lhTransferComplete
  rw [hl]
  dsimp only
  rw [hi]
  exact if_neg Bool.false_ne_true

-- Events (R322) -------------------------------------------------------------------------------------------------------

theorem seqEventPost_full {d : Device} {n ev : Nat} (hl : 64 ≤ (d.seqSt n).evq.length) {e : Device} (he : seqEventPost d n ev = e) :
    (e.seqSt n).evq = (d.seqSt n).evq ∧ e.dev = d.dev ∧ e.sent = d.sent ∧ ∃ at_, (e.seqSt n).lost = some at_ := by
  have k := count_told d (A.SEQ_SQ_CNT n 2)
  unfold seqEventPost at he
  rw [if_pos hl] at he
  generalize d.count (A.SEQ_SQ_CNT n 2) = g at k he
  dsimp only at he
  rw [← k.seqSt n]
  split at he
  · next h =>
    obtain ⟨x, hx, _⟩ := Option.map_eq_some_iff.1 h
    subst he
    exact ⟨rfl, k.dev, k.sent, x, hx⟩
  · subst he
    have hst := seqSt_modSeq (d := g) (n := n) (f := fun q => { q with lost := some (ev, g.absCyc) }) (by simp)
    rw [hst]
    exact ⟨rfl, k.dev, k.sent, _, rfl⟩

-- Control (R329) -----------------------------------------------------------------------------------------------------

theorem sqCtrlWrite_restart (d : Device) (src : Source) (n : Nat) : sqCtrlWrite d src n (F.SEQ_SQ_CTRL_RESTART.put 0 1) =
    if (d.role (roleOf n)).live.st ≠ 2 then d.refuse src (A.SEQ_SQ_CTRL n) else d.modSeq n fun q => { q with restart := true } := by
  have hr : F.SEQ_SQ_CTRL_RESTART.get (F.SEQ_SQ_CTRL_RESTART.put 0 1) ≠ 0 := by decide
  have hs : F.SEQ_SQ_CTRL_STOP.get (F.SEQ_SQ_CTRL_RESTART.put 0 1) = 0 := by decide
  unfold sqCtrlWrite
  rw [if_pos hs, if_neg hr]

theorem sqCtrlWrite_stop (d : Device) (src : Source) (n : Nat) : sqCtrlWrite d src n (F.SEQ_SQ_CTRL_STOP.put 0 1) =
    d.modSeq n fun q => { q with stop := true } := by
  have hr : F.SEQ_SQ_CTRL_RESTART.get (F.SEQ_SQ_CTRL_STOP.put 0 1) = 0 := by decide
  have hs : F.SEQ_SQ_CTRL_STOP.get (F.SEQ_SQ_CTRL_STOP.put 0 1) ≠ 0 := by decide
  unfold sqCtrlWrite
  rw [if_neg hs, if_pos hr]

/-- Settles O56. -/
theorem sequencerWords : Obligations.SequencerWords := by
  unfold Obligations.SequencerWords
  have seq16 : ∀ n, n < 16 → seqOk n = true := fun n h => by simpa [seqOk, ltOk] using h
  have cyc256 : ∀ n c, n < 16 → c < 256 → (seqOk n && cycOk c) = true := fun n c hn hc => by simp [seqOk, cycOk, ltOk, hn, hc]
  refine ⟨?_, ?_, ?_, ?_⟩
  · intro s d n c q hn hk hc hd hq
    have made : ∀ x, microwordIssue s.dev n c = x → Makes (.microwordIssue n c) s fun _ => x := fun x h =>
      makes_clock (f := fun d => microwordIssue d n c) rfl (cyc256 n c hn hk) hc h
    refine ⟨fun h => made _ (microwordIssue_idle hd hq h), fun hr hb hi hh => ⟨fun ha => made _ (microwordIssue_waits hd hq hr hb hi hh ha),
      fun ha g w r hg hw hr' => ?_⟩⟩
    have key := microwordIssue_issues hd hq hr hb hi hh ha hg
    refine ⟨fun h => made _ (key.trans (if_pos h)), fun h => ?_⟩
    subst hw hr'
    rw [if_neg (by rw [h]; decide)] at key
    refine ⟨fun hb => made _ (key.trans (if_pos hb)), fun hb => ?_⟩
    rw [if_neg (by rw [hb]; decide)] at key
    refine ⟨made _ key, ?_⟩
    refine ⟨?_, ?_, ?_, ?_, ?_, ?_, ?_, ?_, ?_, ?_⟩ <;>
    · intro ho
      refine made _ (key.trans ?_)
      unfold Device.seqOp
      rw [ho]
      rfl
  · intro s d n c hn hk hc hd
    have made : ∀ x, waitConditionMet s.dev n c = x → Makes (.waitConditionMet n c) s fun _ => x := fun x h =>
      makes_clock (f := fun d => waitConditionMet d n c) rfl (cyc256 n c hn hk) hc h
    refine ⟨fun ⟨hs, hh, hl, ho⟩ => made _ (waitConditionMet_finds hd hs hh hl ho), fun ⟨hs, hh⟩ => made _ ?_, fun h => made _ ?_,
      fun hb => ?_, fun b g hb hg => ?_⟩
    · rw [waitConditionMet_eq, hd, seqLook_stays (.inr (.inl hh)), if_pos ⟨hs, hh⟩]
      rfl
    · rw [waitConditionMet_eq, hd, seqLook_stays (h.imp_right fun h => .inr h.2), if_neg]
      exact fun ⟨hs, hh⟩ => h.elim (· hs) fun h => absurd (hh.symm.trans h.1) (by decide)
    all_goals
      refine makes_clock (f := fun d => busAccessComplete d n c) rfl (cyc256 n c hn hk) hc ?_
      unfold busAccessComplete
      rw [hd]
      dsimp only
      rw [hb]
    dsimp only
    rw [hg]
  · intro s n ev hn hev hc
    have wf := seq16 n hn
    refine ⟨fun ⟨hs, hh⟩ => ?_, fun ⟨hs, hh, hl, hw⟩ => ?_, fun h => ?_, fun hl => ?_, fun t rest h hl hi => ?_, fun t rest h hl hi => ?_,
      fun d t i v => lhMove_stores, fun d g t i v => lhMove_loads, fun hl => ?_, fun hl => ?_⟩
    · exact makes_clock (f := fun d => waitTimeout d n) rfl wf hc (if_pos ⟨hs, hh⟩)
    · refine makes_clock (f := fun d => waitTimeout d n) rfl wf hc ((if_neg ?_).trans (if_pos ⟨hs, hl, by rw [hw]; rfl⟩))
      rw [hh]
      exact fun h => Bool.false_ne_true h.2
    · refine makes_clock (f := fun d => waitTimeout d n) (g := id) rfl wf hc ((if_neg ?_).trans (if_neg ?_))
      · exact fun ⟨hs, hh⟩ => h.elim (· hs) fun h => absurd (hh.symm.trans h.1) (by decide)
      · rintro ⟨hs, hl, hw⟩
        rcases h with h | ⟨_, h | h⟩
        · exact h hs
        · rw [h] at hl
          cases hl
        · rw [h] at hw
          cases hw
    · refine makes_clock (f := fun d => lhTransferComplete d n) (g := id) rfl wf hc ?_
      unfold lhTransferComplete
      rw [hl]
      rfl
    · refine makes_clock (f := fun d => lhTransferComplete d n) rfl wf hc ?_
      unfold lhTransferComplete
      rw [hl]
      dsimp only
      rw [hi]
      rfl
    · exact completes_clock (f := fun d => lhTransferComplete d n) rfl wf hc (lhTransferComplete_moves hl hi)
    · exact makes_clock (f := fun d => seqEventPost d n ev) rfl (by simp [Instr.wf, seqOk, ltOk, hn, hev]) hc
        (if_neg (Nat.not_le.2 hl))
    · exact completes_clock (f := fun d => seqEventPost d n ev) rfl (by simp [Instr.wf, seqOk, ltOk, hn, hev]) hc
        (seqEventPost_full hl rfl)
  · intro s src n w hr hn
    have wf := seq16 n hn
    have ctrl := fun v => write_SEQ_SQ_CTRL (w := v) hr hn
    refine ⟨fun h => ?_, fun h => ?_, ?_, ?_⟩
    · exact makes_run (f := fun d => busWrite d src (A.SEQ_SQ_CTRL n) 0xF (F.SEQ_SQ_CTRL_RESTART.put 0 1)) rfl wf
        ((ctrl _).trans ((sqCtrlWrite_restart _ _ _).trans (if_neg (not_not_intro h))))
    · exact makes_run (f := fun d => busWrite d src (A.SEQ_SQ_CTRL n) 0xF (F.SEQ_SQ_CTRL_RESTART.put 0 1)) rfl wf
        ((ctrl _).trans ((sqCtrlWrite_restart _ _ _).trans (if_pos h)))
    · exact makes_run (f := fun d => busWrite d src (A.SEQ_SQ_CTRL n) 0xF (F.SEQ_SQ_CTRL_STOP.put 0 1)) rfl wf
        ((ctrl _).trans (sqCtrlWrite_stop _ _ _))
    · exact makes_run (f := fun d => busWrite d src (A.SEQ_SQ_MBOX_IN n) 0xF w) rfl wf (write_SEQ_SQ_MBOX_IN hr hn w)

end Sys2Proof.Machine

/-! The sequencers' images: loaded, retried, switched to or given up (R326, R328, R330). -/

namespace Sys2Proof.Machine

-- RL_CMD (R326, R328) -------------------------------------------------------------------------------------------------

theorem role_modRole {d : Device} {r : Nat} {f : SeqRole → SeqRole} (h : f (d.role r) ≠ {}) : (d.modRole r f).role r = f (d.role r) :=
  tabGet_tabSet_ne _ h

/-- A load or a switch of the role is in progress (R330). -/
def Device.roleBusy (d : Device) (r : Nat) : Bool := (d.role r).load.isSome || (d.role r).switchBy.isSome

/-- What LOAD of RL_CMD does (R326). -/
def Device.askLoad (d : Device) (r : Nat) (v : Word) : Device :=
  if d.roleBusy r then d.modRole r fun q => { q with result := 9 }
  else d.modRole r fun q => { q.setIdle { q.idle with st := 1 } with
    load := some { addr := d.pair (A.SEQ_RL_LOAD_ADDR_LO (r - 1)) (A.SEQ_RL_LOAD_ADDR_HI (r - 1)) / 64 * 64
                   len := F.SEQ_RL_LOAD_LEN_LEN.get (d.cfg (A.SEQ_RL_LOAD_LEN (r - 1)))
                   cls := F.SEQ_RL_CMD_LOAD_CLASS.get v } }

/-- What SWITCH of RL_CMD does (R328). -/
def Device.askSwitch (d : Device) (src : Source) (r : Nat) : Device :=
  if d.roleBusy r then d.modRole r fun q => { q with result := 9 }
  else if (d.role r).idle.st ≠ 2 then d.refuse src (A.SEQ_RL_CMD (r - 1))
  else d.modRole r fun q => { q with switchBy := some (d.strokeNo + 8192) }

theorem setReg_role (d : Device) (a : Nat) (v : Word) (r : Nat) : (d.setReg a v).role r = d.role r := rfl

theorem rlCmdWrite_eq (d : Device) (src : Source) (r : Nat) (v : Word) {g : Device}
    (hg : d.setReg (A.SEQ_RL_CMD (r - 1)) (v &&& 0x1C#32) = g) : rlCmdWrite d src r v =
      if F.SEQ_RL_CMD_SWITCH.get v = 0 then if F.SEQ_RL_CMD_LOAD.get v = 0 then g else g.askLoad r v
      else (if F.SEQ_RL_CMD_LOAD.get v = 0 then g else g.askLoad r v).askSwitch src r := by
  subst hg
  rfl

theorem askLoad_busy (d : Device) (r : Nat) (v : Word) : (d.askLoad r v).roleBusy r = true := by
  unfold Device.askLoad
  split
  · next h =>
    unfold Device.roleBusy
    rw [role_modRole (by simp)]
    exact h
  · unfold Device.roleBusy
    rw [role_modRole (by simp)]
    rfl

theorem askSwitch_busy {d : Device} {src : Source} {r : Nat} (h : d.roleBusy r = true) :
    d.askSwitch src r = d.modRole r fun q => { q with result := 9 } := if_pos h

-- IMAGE_SWITCH_MADE (R328) --------------------------------------------------------------------------------------------

/-- The table of the sequencers is in canonical form. -/
def Device.seqsWf (d : Device) : Prop := tabWf (fun _ => ({} : SeqSt)) d.seq.seqs = true

/-- The roles stay, and the sequencers' table stays in canonical form. -/
def KeepRoles (d e : Device) : Prop := e.seq.roles = d.seq.roles ∧ (d.seqsWf → e.seqsWf)

namespace KeepRoles
variable {d e g : Device}

theorem of_seq (h : e.seq = d.seq) : KeepRoles d e := by
  unfold KeepRoles Device.seqsWf
  rw [h]
  exact ⟨rfl, id⟩

theorem trans (h : KeepRoles d e) (k : KeepRoles e g) : KeepRoles d g := ⟨k.1.trans h.1, fun w => k.2 (h.2 w)⟩

theorem modSeq (d : Device) (n : Nat) (f : SeqSt → SeqSt) : KeepRoles d (d.modSeq n f) := ⟨rfl, fun w => tabSet_wf _ _ w⟩

theorem busEffect (d : Device) (n : Nat) (b : SeqBus) : KeepRoles d (d.busEffect n b) := by
  unfold Device.busEffect
  extract_lets at_ fenced masked out
  clear_value at_ fenced masked out
  have stays : KeepRoles d d := of_seq rfl
  split
  · split
    · exact modSeq d n _
    · exact modSeq d n _
    · split
      · exact modSeq d n _
      · exact (of_seq (e := (d.free 32).2) rfl).trans (modSeq _ n _)
    · exact stays
  · split
    · exact of_seq rfl
    · split
      · exact stays
      · exact ⟨rfl, id⟩
    · exact stays
  · split
    · exact of_seq rfl
    · split
      · exact stays
      · exact ⟨rfl, id⟩
    · exact stays

theorem busFinish (d : Device) (n : Nat) : KeepRoles d (d.busFinish n) := by
  unfold Device.busFinish
  split
  · exact (modSeq d n _).trans (busEffect _ n _)
  · exact of_seq rfl

theorem foldl {f : Device → Nat → Device} (h : ∀ d n, KeepRoles d (f d n)) (l : List Nat) (d : Device) :
    KeepRoles d (l.foldl f d) := by
  induction l generalizing d with
  | nil => exact of_seq rfl
  | cons n l ih => exact (h d n).trans (ih _)

end KeepRoles

theorem linkResume_seq (d : Device) (n : Nat) : (d.linkResume n).seq = d.seq := by
  unfold Device.linkResume
  split
  · rfl
  · refine foldl_frame (·.seq) (fun d l => ?_) _ _
    split
    · split
      · next p _ =>
        have h := congrArg Device.seq (tryStart_offLanes d p)
        exact h
      · rfl
    · rfl

/-- A sequencer of the role that is switched is cleared and started (R328). -/
def Device.seqFresh (d : Device) (n : Nat) : Device :=
  (d.modSeq n fun q => { q with g := [], z := false, n := false, c := false, v := false }).seqStart n

/-- The sequencer runs, at the entry of its role's active bank. -/
def Device.seqAtEntry (d : Device) (n : Nat) : Prop :=
  (d.seqSt n).st = .running ∧ (d.seqSt n).pc = (d.role (roleOf n)).live.entry

theorem seqFresh_seq (d : Device) (n : Nat) : ∃ v : SeqSt, v.st = .running ∧ v.pc = (d.role (roleOf n)).live.entry ∧
    (d.seqFresh n).seq = { d.seq with
      seqs := tabSet (fun _ => {}) (tabSet (fun _ => {}) d.seq.seqs n
        { d.seqSt n with g := [], z := false, n := false, c := false, v := false }) n v } :=
  ⟨_, rfl, rfl, linkResume_seq _ n⟩

theorem seqFresh_keepRoles (d : Device) (n : Nat) : KeepRoles d (d.seqFresh n) := by
  obtain ⟨v, _, _, h⟩ := seqFresh_seq d n
  unfold KeepRoles Device.seqsWf
  rw [h]
  exact ⟨rfl, fun w => tabSet_wf _ _ (tabSet_wf _ _ w)⟩

theorem seqAtEntry_congr {d e : Device} {n : Nat} (hs : e.seqSt n = d.seqSt n) (hr : e.seq.roles = d.seq.roles) (h : d.seqAtEntry n) :
    e.seqAtEntry n := by
  unfold Device.seqAtEntry Device.role
  rw [hs, hr]
  exact h

theorem seqFresh_atEntry {d : Device} (hw : d.seqsWf) (n m : Nat) (h : m = n ∨ d.seqAtEntry m) : (d.seqFresh n).seqAtEntry m := by
  obtain ⟨v, hst, hpc, hv⟩ := seqFresh_seq d n
  have hr : (d.seqFresh n).seq.roles = d.seq.roles := by rw [hv]
  by_cases hm : m = n
  · subst hm
    have hs : (d.seqFresh m).seqSt m = v := by
      unfold Device.seqSt
      rw [hv]
      exact tabGet_tabSet_same _ _ (tabSet_wf _ _ hw)
    unfold Device.seqAtEntry Device.role
    rw [hs, hr]
    exact ⟨hst, hpc⟩
  · have hs : (d.seqFresh n).seqSt m = d.seqSt m := by
      unfold Device.seqSt
      rw [hv]
      exact (tabGet_tabSet_other _ hm (tabSet_wf _ _ hw)).trans (tabGet_tabSet_other _ hm hw)
    exact seqAtEntry_congr hs hr (h.resolve_left hm)

theorem seqFreshes_atEntry (l : List Nat) {d : Device} (hw : d.seqsWf) (m : Nat) (h : m ∈ l ∨ d.seqAtEntry m) :
    (l.foldl Device.seqFresh d).seqAtEntry m := by
  induction l generalizing d with
  | nil => exact h.resolve_left (by simp)
  | cons n l ih =>
    refine ih ((seqFresh_keepRoles d n).2 hw) ?_
    rw [List.mem_cons, or_assoc, or_left_comm] at h
    exact h.imp_right (seqFresh_atEntry hw n m)

theorem imageSwitchMade_switches {d : Device} {r : Nat} (hn : d.switchNow r = true)
    (hr : tabWf (fun _ => ({} : SeqRole)) d.seq.roles = true) (hw : d.seqsWf) {e : Device} (he : imageSwitchMade d r = e) :
    (e.role r).active = 1 - (d.role r).active ∧ (e.role r).switchBy = none ∧ (e.role r).result = 0 ∧
    (e.role r).banks = (d.role r).banks ∧
    ∀ n, n ∈ roleSeqs r → (e.seqSt n).st = .running ∧ (e.seqSt n).pc = (d.role r).idle.entry := by
  unfold imageSwitchMade at he
  rw [if_neg (by rw [hn]; decide)] at he
  extract_lets d1 d2 d3 at he
  have k1 : KeepRoles d d1 := .foldl KeepRoles.busFinish _ d
  have h1 : d1.role r = d.role r := congrArg (fun t => tabGet (fun _ => ({} : SeqRole)) t r) k1.1
  have w2 : d2.seqsWf := k1.2 hw
  have h2 : d2.role r = { d.role r with active := 1 - (d.role r).active, switchBy := none, result := 0 } := by
    rw [← h1]
    exact tabGet_tabSet_same _ _ (by rw [k1.1]; exact hr)
  clear_value d2
  have k3 : KeepRoles d2 d3 := .foldl seqFresh_keepRoles _ d2
  have e3 := seqFreshes_atEntry (roleSeqs r) w2
  have hseq : e.seq = d3.seq := by
    rw [← he]
    exact (raise_told d3 _ _).seq
  have he' : e.role r = d2.role r :=
    congrArg (fun t => tabGet (fun _ => ({} : SeqRole)) t r) ((congrArg SeqUnit.roles hseq).trans k3.1)
  rw [he', h2]
  refine ⟨rfl, rfl, rfl, rfl, fun n hm => ?_⟩
  have hn : roleOf n = r := by simpa [roleSeqs] using (List.mem_filter.1 hm).2
  have hs : e.seqSt n = d3.seqSt n := congrArg (fun t => tabGet (fun _ => ({} : SeqSt)) t n) (congrArg SeqUnit.seqs hseq)
  obtain ⟨hst, hpc⟩ := e3 n (.inl hm)
  have h3 : d3.role r = d2.role r := congrArg (fun t => tabGet (fun _ => ({} : SeqRole)) t r) k3.1
  rw [hs]
  refine ⟨hst, hpc.trans ?_⟩
  show (d3.role (roleOf n)).live.entry = _
  rw [hn, h3, h2]
  rfl

-- IMAGE_LOAD_DONE (R326) ----------------------------------------------------------------------------------------------

section
variable {d : Device} {r : Nat} {img : Bytes} {l : SeqLoad} (hl : (d.role r).load = some l)
include hl

theorem imageLoadDone_early {t : Nat} (ht : l.retryAt = some t) (hm : d.matured t = false) : imageLoadDone d r img = d := by
  unfold imageLoadDone
  rw [hl]
  dsimp only
  rw [ht]
  exact if_pos (congrArg Bool.not hm)

variable (ht : ∀ t, l.retryAt = some t → d.matured t = true)
include ht

theorem imageLoadDone_fails (h : d.busOn 0 = false ∨ d.inWindow 0 l.addr (max 256 l.len) = false) :
    imageLoadDone d r img = d.loadEnds r 8 {} := by
  unfold imageLoadDone
  rw [hl]
  dsimp -zeta only
  extract_lets +onlyGivenNames waits
  rw [if_neg (show ¬ waits = true from ?_)]
  · exact if_pos (by simpa using h)
  · show ¬ (match l.retryAt with
      | some t => !d.matured t
      | none => false) = true
    split
    · next t h => exact ne_true_of_eq_false (congrArg Bool.not (ht t h))
    · exact Bool.false_ne_true

/-- A load whose read may be made, as far as the budget has paid for it. -/
theorem imageLoadDone_reads (hb : d.busOn 0 = true) (hw : d.inWindow 0 l.addr (max 256 l.len) = true) {need got : Nat} {h g : Device}
    (hn : need = if (d.headerFails r l.len img).isSome then 256 else l.len)
    (hp : d.takePieces 0x0E l.cls need l.paid (6000000 + r) = (h, got)) (hg : h.event none 0x8005 need none { fn := some 0 } = g) :
    imageLoadDone d r img = if l.paid + got < need then h.modRole r fun v => { v with load := some { l with paid := l.paid + got } }
      else g.loadEnds r (g.imageResult r l.len img) (imageBank img) := by
  unfold imageLoadDone
  rw [hl]
  dsimp -zeta only
  extract_lets +onlyGivenNames waits need'
  have hn' : need' = need := hn.symm
  clear_value need'
  subst hn'
  rw [if_neg (show ¬ waits = true from ?_), if_neg (by simp [hb, hw]), hp]
  · subst hg
    rfl
  · show ¬ (match l.retryAt with
      | some t => !d.matured t
      | none => false) = true
    split
    · next t h => exact ne_true_of_eq_false (congrArg Bool.not (ht t h))
    · exact Bool.false_ne_true

end

theorem imageReadTimeout_role {r : Nat} (h : 1 ≤ r) (d : Device) : imageReadTimeout d r = roleReadTimeout d r :=
  if_pos (Nat.ne_of_gt h)

theorem roleReadTimeout_eq {d : Device} {r : Nat} {l : SeqLoad} (hl : (d.role r).load = some l) : roleReadTimeout d r =
    if (if decide (256 ≤ l.paid) = true then l.lateBody else l.late) then (d.readTimedOut 0 (0x10000 + r) 0).loadEnds r 8 {}
    else (d.readTimedOut 0 (0x10000 + r) 2).modRole r fun v => { v with load := some { l with
      late := l.late || !decide (256 ≤ l.paid)
      lateBody := l.lateBody || decide (256 ≤ l.paid)
      retryAt := some (d.now + msT 1) } } := by
  unfold roleReadTimeout
  rw [hl]

/-- Settles O57. -/
theorem sequencerImages : Obligations.SequencerImages := by
  unfold Obligations.SequencerImages
  refine ⟨?_, ?_, ?_⟩
  · intro s src r w v g h busy hr hrole hg hb hh
    have hrr : 1 ≤ r ∧ r ≤ 5 := by simpa [roleOk] using hrole
    have hr1 : r - 1 + 1 = r := by omega
    have wr : busWrite s.dev src (A.SEQ_RL_CMD (r - 1)) 0xF v = rlCmdWrite s.dev src r v :=
      (write_SEQ_RL_CMD hr (by omega) v).trans (by rw [hr1])
    rw [rlCmdWrite_eq _ _ _ _ hg] at wr
    have hgb : g.roleBusy r = busy := by
      subst hg
      rw [Device.roleBusy, setReg_role]
      exact hb
    have hask : g.askLoad r v = h := by
      rw [hh, ← hgb]
      rfl
    have hbusy : h.roleBusy r = true := hask ▸ askLoad_busy g r v
    refine ⟨fun hv => ?_, fun hv => ?_⟩ <;> subst hv
    · have h1 : F.SEQ_RL_CMD_LOAD.get (F.SEQ_RL_CMD_LOAD.put w 1) ≠ 0 := by
        rw [Fld.get_put _ _ _ (by decide)]
        decide
      rw [if_neg h1, hask, askSwitch_busy hbusy] at wr
      exact ⟨fun h0 => makes_run (f := fun d => busWrite d src (A.SEQ_RL_CMD (r - 1)) 0xF (F.SEQ_RL_CMD_LOAD.put w 1)) rfl hrole
          (wr.trans (if_pos h0)),
        fun h0 => makes_run (f := fun d => busWrite d src (A.SEQ_RL_CMD (r - 1)) 0xF (F.SEQ_RL_CMD_LOAD.put w 1)) rfl hrole
          (wr.trans (if_neg h0))⟩
    · have made : ∀ x, busWrite s.dev src (A.SEQ_RL_CMD (r - 1)) 0xF (F.SEQ_RL_CMD_SWITCH.put w 1) = x →
          Makes (.imageSwitch src r w) s fun _ => x := fun x hx =>
        makes_run (f := fun d => busWrite d src (A.SEQ_RL_CMD (r - 1)) 0xF (F.SEQ_RL_CMD_SWITCH.put w 1)) rfl hrole hx
      have h1 : F.SEQ_RL_CMD_SWITCH.get (F.SEQ_RL_CMD_SWITCH.put w 1) ≠ 0 := by
        rw [Fld.get_put _ _ _ (by decide)]
        decide
      rw [if_neg h1] at wr
      refine ⟨fun h0 => made _ ?_, fun h0 => ?_⟩
      · rw [wr, if_neg h0, hask, askSwitch_busy hbusy]
      · rw [if_pos h0] at wr
        have hgi : (g.role r).idle.st = (s.dev.role r).idle.st ∧ g.strokeNo = s.dev.strokeNo := by
          subst hg
          rw [setReg_role]
          exact ⟨rfl, rfl⟩
        refine ⟨fun hb => made _ (wr.trans (askSwitch_busy (hgb.trans hb))), fun hb hi => made _ ?_, fun hb hi => made _ ?_⟩
        · rw [wr, Device.askSwitch, if_neg (by rw [hgb, hb]; decide), if_pos (by rw [hgi.1]; exact hi)]
        · rw [wr, Device.askSwitch, if_neg (by rw [hgb, hb]; decide), if_neg (by rw [hgi.1]; exact not_not_intro hi), hgi.2]
  · intro s r img hrole hc
    refine ⟨fun hn => ?_, fun l hl => ⟨fun t ht hm => ?_, fun ht => ?_⟩⟩
    · refine makes_clock (f := fun d => imageLoadDone d r img) (g := id) rfl hrole hc ?_
      unfold imageLoadDone
      rw [hn]
      rfl
    · exact makes_clock (f := fun d => imageLoadDone d r img) (g := id) rfl hrole hc (imageLoadDone_early hl ht hm)
    · have made : ∀ x, imageLoadDone s.dev r img = x → Makes (.imageLoadDone r img) s fun _ => x := fun x h =>
        makes_clock (f := fun d => imageLoadDone d r img) rfl hrole hc h
      refine ⟨fun h => makes_clock (f := fun d => imageLoadDone d r img) rfl hrole hc (imageLoadDone_fails hl ht h),
        fun hb hw need got h hn hp => ⟨fun hlt => ?_, fun hle g hg => ?_⟩⟩
      · exact made _ ((imageLoadDone_reads hl ht hb hw hn hp rfl).trans (if_pos hlt))
      · exact made _ ((imageLoadDone_reads hl ht hb hw hn hp hg).trans (if_neg (Nat.not_lt.2 hle)))
  · intro s r hrole hc
    have hpos : 1 ≤ r ∧ r ≤ 5 := by simpa [roleOk] using hrole
    have img : imageOk r = true := by
      simp only [imageOk, ltOk, decide_eq_true_eq]
      omega
    refine ⟨fun h => ?_, fun h hr hw => ?_, fun h => ?_, fun l body hl hb => ⟨fun h => ?_, fun h => ?_⟩, fun h => ?_, fun t ht hlt => ?_⟩
    · exact makes_clock (f := fun d => imageSwitchMade d r) (g := id) rfl hrole hc (if_pos (by rw [h]; rfl))
    · exact completes_clock (f := fun d => imageSwitchMade d r) rfl hrole hc (imageSwitchMade_switches h hr hw rfl)
    · refine makes_clock (f := fun d => imageReadTimeout d r) (g := id) rfl img hc ((imageReadTimeout_role hpos.1 _).trans ?_)
      unfold roleReadTimeout
      rw [h]
      rfl
    · subst hb
      exact makes_clock (f := fun d => imageReadTimeout d r) rfl img hc
        ((imageReadTimeout_role hpos.1 _).trans ((roleReadTimeout_eq hl).trans (if_pos h)))
    · subst hb
      exact makes_clock (f := fun d => imageReadTimeout d r) rfl img hc
        ((imageReadTimeout_role hpos.1 _).trans ((roleReadTimeout_eq hl).trans (if_neg (ne_true_of_eq_false h))))
    · refine makes_clock (f := fun d => imageSwitchTimeout d r) (g := id) rfl hrole hc ?_
      unfold imageSwitchTimeout
      split
      · rfl
      · next t ht => exact if_neg (Nat.not_lt.2 (h t ht))
    · refine makes_clock (f := fun d => imageSwitchTimeout d r) rfl hrole hc ?_
      unfold imageSwitchTimeout
      rw [ht]
      exact if_pos hlt

end Sys2Proof.Machine

/-! Tables: learn events, sweeps, row locks and table DMA (R159, R166, R168 to R172, R344). -/

namespace Sys2Proof.Machine

theorem mustWait_table (d : Device) (act inst key n : Nat) : (d.mustWait act inst key n).table = d.table := by
  obtain ⟨_, _, _, _, h⟩ := mustWait_told d act inst key n
  rw [h]

-- Learning (R166) -----------------------------------------------------------------------------------------------------

section
variable {s d : Device} {c : Nat} {e : LearnEvent} {rest : List LearnEvent} (hd : s.atStage c = d) (hq : d.table.queue = e :: rest)
include hd hq

theorem learnAdmit_waits (ha : d.canAdmit 0x0C 0 1 (d.learnFate e).cycles d.stroke.cyc d.table.learned = false) :
    learnAdmit s c = (List.range (rest.length + 1)).foldl (fun g k => g.mustWait 0x0C 0 (d.table.learned + k) 1) d := by
  have hold : ∀ (l : List Nat) (g : Device), g.table = d.table →
      l.foldl (fun d k => d.mustWait 0x0C 0 (d.table.learned + k) 1) g = l.foldl (fun g k => g.mustWait 0x0C 0 (d.table.learned + k) 1) g := by
    intro l
    induction l with
    | nil => exact fun _ _ => rfl
    | cons k l ih =>
      intro g hg
      rw [List.foldl_cons, List.foldl_cons, hg]
      exact ih _ ((mustWait_table _ _ _ _ _).trans hg)
  unfold learnAdmit
  rw [hd]
  dsimp only
  rw [hq]
  exact (if_pos (by rw [ha]; rfl)).trans (hold _ d rfl)

theorem learnAdmit_admits (ha : d.canAdmit 0x0C 0 1 (d.learnFate e).cycles d.stroke.cyc d.table.learned = true) {g : Device}
    (hg : g = d.spend 0x0C 0 1 d.table.learned) : learnAdmit s c =
      ({ g with table := { g.table with queue := rest, learned := d.table.learned + 1 } }).learnDo (d.learnFate e) e := by
  unfold learnAdmit
  rw [hd]
  dsimp only
  rw [hq]
  subst hg
  exact if_neg (by rw [ha]; decide)

end

-- Table DMA (R169 to R172, R344) --------------------------------------------------------------------------------------

section
variable {d g : Device} {r : Nat} {j : TdmaJob}

theorem tdmaRead_slot (hf : d.frontJob r 0 = some j) (hk : d.tdmaCheck j 0 = none) {go : Bool} (hs : d.rowSlot r true = (g, go)) :
    tdmaRead d r = if !go then g else
      match (g.readTable j.table j.slot (j.row + j.next)).2.postWrite ((g.readTable j.table j.slot (j.row + j.next)).2.ringFn r)
        (j.addr + 64 * j.next) (leBytes 64 (g.readTable j.table j.slot (j.row + j.next)).1) with
      | none => (g.readTable j.table j.slot (j.row + j.next)).2.rowFails r
        ((g.readTable j.table j.slot (j.row + j.next)).2.dmaFault ((g.readTable j.table j.slot (j.row + j.next)).2.ringFn r)
          (j.addr + 64 * j.next) 64) j
      | some k => (k.dmaEvent r 64).rowDone r := by
  unfold tdmaRead
  rw [hf]
  dsimp only
  rw [hk, hs] <;> rfl

theorem tdmaWrite_slot {data : Option Bytes} (hf : d.frontJob r 1 = some j) {go : Bool} (hs : d.rowSlot r true = (g, go)) :
    tdmaWrite d r data = if !go then g else
      match data with
      | none => g.rowFails r (g.dmaFault (g.ringFn r) (j.addr + 64 * j.next) 64) j
      | some bs =>
        if !g.mayDma (g.ringFn r) (j.addr + 64 * j.next) 64 then
          g.rowFails r (g.dmaFault (g.ringFn r) (j.addr + 64 * j.next) 64) j
        else match (g.dmaEvent r 64).tdmaCheck j (leNat (sliceBytes bs 0 64)) with
          | some code => (g.dmaEvent r 64).rowFails r code j
          | none => ((g.dmaEvent r 64).writeTable j.table j.slot (j.row + j.next) (leNat (sliceBytes bs 0 64))).rowDone r := by
  unfold tdmaWrite
  rw [hf]
  dsimp only
  rw [hs] <;> rfl

theorem tdmaLock_slot (hf : d.frontJob r 2 = some j) (hk : d.tdmaCheck j 0 = none) {go : Bool} (hs : d.rowSlot r false = (g, go)) :
    tdmaLock d r = if !go then g else
      ({ lockExpire g (j.row + j.next) with table := { (lockExpire g (j.row + j.next)).table with
        locks := assocSet (lockExpire g (j.row + j.next)).table.locks (j.row + j.next) (lockExpire g (j.row + j.next)).lockDue } }).rowDone r := by
  unfold tdmaLock
  rw [hf]
  dsimp only
  rw [hk, hs]

theorem tdmaUnlock_slot (hf : d.frontJob r 3 = some j) (hk : d.tdmaCheck j 0 = none) {go : Bool} (hs : d.rowSlot r false = (g, go)) :
    tdmaUnlock d r = if !go then g else
      (if (lockExpire g (j.row + j.next)).rowLocked (j.row + j.next) then { lockExpire g (j.row + j.next) with
          table := { (lockExpire g (j.row + j.next)).table with
            locks := assocDel (lockExpire g (j.row + j.next)).table.locks (j.row + j.next) } }
        else (lockExpire g (j.row + j.next)).count (tblCnt 11)).rowDone r := by
  unfold tdmaUnlock
  rw [hf]
  dsimp only
  rw [hk, hs]

end

/-- Settles O58. -/
theorem tablesAndTdma : Obligations.TablesAndTdma := by
  unfold Obligations.TablesAndTdma
  have ring512 : ∀ r, r < 512 → ringOk r = true := fun r h => by simpa [ringOk, ltOk] using h
  refine ⟨?_, ?_, ?_, ?_, ?_, ?_, ?_, ?_⟩
  · intro s d c hlt hc hd
    have wf : cycOk c = true := by simpa [cycOk, ltOk] using hlt
    refine ⟨fun h => ?_, fun e rest hq => ⟨fun ha => ?_, fun ha g hg => ?_⟩⟩ <;>
      refine makes_clock (f := fun d => learnAdmit d c) rfl wf hc ?_
    · unfold learnAdmit
      rw [hd]
      dsimp only
      rw [h]
    · exact learnAdmit_waits hd hq ha
    · exact learnAdmit_admits hd hq ha hg
  · intro s hc
    refine ⟨fun h => ?_, fun hs hq => ?_, fun h => ?_, fun w hw => ⟨fun ⟨hp, ha⟩ => ?_, fun h => ?_⟩⟩
    · exact makes_clock (f := ageSweepStart) (g := id) rfl rfl hc (if_pos (by simpa using h))
    · exact makes_clock (f := ageSweepStart) rfl rfl hc (if_neg (by simp [hs, hq]))
    · refine makes_clock (f := replaceDone) (g := id) rfl rfl hc ?_
      unfold replaceDone
      rw [h]
      rfl
    · refine makes_clock (f := replaceDone) rfl rfl hc ?_
      unfold replaceDone
      rw [hw]
      exact if_pos (by simp [Replacing.left, ha, hp])
    · refine makes_clock (f := replaceDone) (g := id) rfl rfl hc ?_
      unfold replaceDone
      rw [hw]
      refine if_neg fun h0 => ?_
      have h0 : w.stop - w.pos + w.again.length = 0 := h0
      rcases h with h | h
      · omega
      · exact h (List.eq_nil_of_length_eq_zero (by omega))
  · intro s row hrow hc
    have wf : (Instr.lockExpire row).wf = true := by simpa [Instr.wf, ltOk] using hrow
    refine ⟨fun h => ?_, fun due h hlt => ?_, fun due h hle => ?_⟩
    · refine makes_clock (f := fun d => lockExpire d row) (g := id) rfl wf hc ?_
      unfold lockExpire
      rw [h]
      rfl
    · refine makes_clock (f := fun d => lockExpire d row) (g := id) rfl wf hc ?_
      unfold lockExpire
      rw [h]
      exact if_pos hlt
    · refine completes_clock (f := fun d => lockExpire d row) rfl wf hc ⟨_, rfl, ?_⟩
      unfold lockExpire
      rw [h]
      exact if_neg (Nat.not_lt.2 hle)
  · intro s r data hr hc
    have wf := ring512 r hr
    refine ⟨fun h => makes_clock (f := fun d => tdmaRead d r) (g := id) rfl wf hc ?_,
      fun h => makes_clock (f := fun d => tdmaWrite d r data) (g := id) rfl wf hc ?_,
      fun h => makes_clock (f := fun d => tdmaLock d r) (g := id) rfl wf hc ?_,
      fun h => makes_clock (f := fun d => tdmaUnlock d r) (g := id) rfl wf hc ?_⟩
    · unfold tdmaRead
      rw [h]
      rfl
    · unfold tdmaWrite
      rw [h]
      rfl
    · unfold tdmaLock
      rw [h]
      rfl
    · unfold tdmaUnlock
      rw [h]
      rfl
  · intro s r code j hr hc hk
    have wf := ring512 r hr
    refine ⟨fun h => makes_clock (f := fun d => tdmaRead d r) rfl wf hc ?_, fun h => makes_clock (f := fun d => tdmaLock d r) rfl wf hc ?_,
      fun h => makes_clock (f := fun d => tdmaUnlock d r) rfl wf hc ?_⟩
    · unfold tdmaRead
      rw [h]
      dsimp only
      rw [hk]
    · unfold tdmaLock
      rw [h]
      dsimp only
      rw [hk]
    · unfold tdmaUnlock
      rw [h]
      dsimp only
      rw [hk]
  · intro s g r j hr hc hf hk
    have wf := ring512 r hr
    refine ⟨fun hs => makes_clock (f := fun d => tdmaRead d r) rfl wf hc ((tdmaRead_slot hf hk hs).trans (if_pos rfl)), fun hs v h hv => ?_⟩
    have key := (tdmaRead_slot hf hk hs).trans (if_neg Bool.false_ne_true)
    rw [hv] at key
    refine ⟨fun hp => makes_clock (f := fun d => tdmaRead d r) rfl wf hc (key.trans ?_),
      fun k hp => makes_clock (f := fun d => tdmaRead d r) rfl wf hc (key.trans ?_)⟩
    · rw [hp] <;> rfl
    · rw [hp]
  · intro s g r j data hr hc hf
    have wf := ring512 r hr
    have made : ∀ x, tdmaWrite s.dev r data = x → Makes (.tdmaWrite r data) s fun _ => x := fun x h =>
      makes_clock (f := fun d => tdmaWrite d r data) rfl wf hc h
    refine ⟨fun hs => made _ ((tdmaWrite_slot hf hs).trans (if_pos rfl)), fun hs => ?_⟩
    have key := (tdmaWrite_slot (data := data) hf hs).trans (if_neg Bool.false_ne_true)
    have fault : ∀ b, g.inWindow (g.ringFn r) (j.addr + 64 * j.next) 64 = b →
        g.dmaFault (g.ringFn r) (j.addr + 64 * j.next) 64 = if b then 2 else 1 := fun b h => by rw [Device.dmaFault, h]
    refine ⟨fun hw => made _ (key.trans ?_), fun hw hd => made _ (key.trans ?_), fun hw hb bs h v hd hh hv => ?_⟩
    · rw [fault _ hw]
      cases data with
      | none => rfl
      | some bs => exact if_pos (by rw [Device.mayDma, hw, Bool.and_false]; rfl)
    · rw [fault _ hw]
      cases data with
      | none => rfl
      | some bs => exact if_pos (by rw [Device.mayDma, hd.resolve_left (by simp)]; rfl)
    · subst hd hh hv
      have key := key.trans (if_neg (by rw [Device.mayDma, hb, hw]; decide))
      refine ⟨fun code hk => made _ (key.trans ?_), fun hk => made _ (key.trans ?_)⟩ <;> rw [hk]
  · intro s g r row j hr hc hk hrow
    subst hrow
    have wf := ring512 r hr
    refine ⟨fun hs => ⟨fun hf => ?_, fun hf => ?_⟩, fun hs h hh => ⟨fun hf => ?_, fun hf => ⟨fun hl => ?_, fun hl => ?_⟩⟩⟩
    · exact makes_clock (f := fun d => tdmaLock d r) rfl wf hc ((tdmaLock_slot hf hk hs).trans (if_pos rfl))
    · exact makes_clock (f := fun d => tdmaUnlock d r) rfl wf hc ((tdmaUnlock_slot hf hk hs).trans (if_pos rfl))
    all_goals subst hh
    · exact makes_clock (f := fun d => tdmaLock d r) rfl wf hc ((tdmaLock_slot hf hk hs).trans (if_neg Bool.false_ne_true))
    · refine makes_clock (f := fun d => tdmaUnlock d r) rfl wf hc ((tdmaUnlock_slot hf hk hs).trans ((if_neg Bool.false_ne_true).trans ?_))
      rw [if_pos hl]
    · refine makes_clock (f := fun d => tdmaUnlock d r) rfl wf hc ((tdmaUnlock_slot hf hk hs).trans ((if_neg Bool.false_ne_true).trans ?_))
      rw [if_neg (ne_true_of_eq_false hl)]

end Sys2Proof.Machine

/-! Ring windows (R332, R336, R347, R350, R357). -/

namespace Sys2Proof.Machine

-- Where a write of RW_CTRL enters (R332, R372) ------------------------------------------------------------------------

/-- A source that reaches ring `r`'s window: BAR0 of the PF, SMBus, or the BAR0 of the VF that owns the ring. -/
def ringSource (d : Device) (via : Via) (src : Source) (r : Nat) : Prop :=
  (via = .pf ∧ src = .pcie) ∨ (via = .smbus ∧ src = .smbus) ∨ (∃ f, via = .vf f ∧ vfOk f = true ∧ d.ringFn r = f ∧ src = .pcie)

theorem reaches_ownRing {d : Device} {f r : Nat} (hr : r < 512) (hf : d.ringFn r = f) :
    d.reaches (.vf f) (r * 0x100) = some (A.RINGS_RW_CTRL r) := by
  have hsees : d.vfSees f (r * 0x100) = true := by
    simp only [Device.vfSees, Nat.mul_div_cancel r (by decide : 0 < 0x100), hf, BEq.rfl, Bool.and_true, decide_eq_true_eq]
    omega
  have haddr : 0x100000 + r * 0x100 = A.RINGS_RW_CTRL r := rfl
  rw [← haddr]
  exact if_pos hsees

theorem reaches_otherRing {d : Device} {f r : Nat} (hf : d.ringFn r ≠ f) : d.reaches (.vf f) (r * 0x100) = none := by
  have hsees : d.vfSees f (r * 0x100) = false := by
    simp [Device.vfSees, hf]
  exact if_neg (by simp [hsees])

theorem reaches_view_ring (d : Device) (f r : Nat) : d.reaches (.view f) (A.RINGS_RW_CTRL r) = none :=
  if_pos (.inr (.inr (.inl (by simp only [A.RINGS_RW_CTRL]; omega))))

theorem vfElse_word (d : Device) {a : Nat} (ha : a % 4 = 0) : d.vfElse a 0xF = d := if_pos (.inr (by simp [wholeWord, ha]))

theorem viaRing_reaches {d : Device} {via : Via} {src : Source} {r : Nat} (hg : d.reachable src) (hr : r < 512)
    (hs : ringSource d via src r) (w : Word) : d.viaRing via r w = ringCtrlWrite d src r w := by
  rw [← write_RINGS_RW_CTRL hg hr w]
  obtain ⟨rfl, rfl⟩ | ⟨rfl, rfl⟩ | ⟨f, rfl, -, hf, rfl⟩ := hs
  · rfl
  · rfl
  · unfold Device.viaRing Device.viaWrite
    dsimp only
    rw [reaches_ownRing hr hf]
    rfl

theorem viaRing_view (d : Device) (f r : Nat) (w : Word) : d.viaRing (.view f) r w = d := by
  unfold Device.viaRing Device.viaWrite
  dsimp only
  rw [reaches_view_ring]
  exact vfElse_word d (by simp only [A.RINGS_RW_CTRL]; omega)

theorem viaRing_otherVf {d : Device} {f r : Nat} (hf : d.ringFn r ≠ f) (w : Word) : d.viaRing (.vf f) r w = d := by
  unfold Device.viaRing Device.viaWrite
  dsimp only
  rw [reaches_otherRing hf]
  exact vfElse_word d (by omega)

-- RW_CTRL (R346, R347) ------------------------------------------------------------------------------------------------

section
variable {d : Device} {src : Source} {r : Nat} {w : Word}

theorem ringCtrlWrite_off (ho : d.ringOn r = false) (he : F.RINGS_RW_CTRL_EN.get w = 0) :
    ringCtrlWrite d src r w = d.setReg (A.RINGS_RW_CTRL r) (ringCtlKept w) := by
  unfold ringCtrlWrite
  extract_lets a old en
  have hen : en = false := by simp only [en, he]; rfl
  exact (if_pos (by rw [ho]; rfl)).trans (if_neg (ne_true_of_eq_false hen))

theorem ringCtrlWrite_starts (ho : d.ringOn r = false) (he : F.RINGS_RW_CTRL_EN.get w = 1) :
    ringCtrlWrite d src r w = d.ringStart src r w := by
  unfold ringCtrlWrite
  extract_lets a old en
  have hen : en = true := by simp only [en, he]; rfl
  exact (if_pos (by rw [ho]; rfl)).trans (if_pos hen)

theorem ringStart_refused {code : Nat} (h : d.ringCheck r w = some code) : d.ringStart src r w =
    ((d.setReg (A.RINGS_RW_CTRL r) (F.RINGS_RW_CTRL_EN.put (ringCtlKept w) 0)).modRing r fun q => { q with code := code }).refuseRing
      src (r * 0x100) := by
  unfold Device.ringStart
  dsimp only
  rw [h]

theorem regReset_RINGS_RW_CTRL (hr : r < 512) : regReset (A.RINGS_RW_CTRL r) = 0x40#32 := by
  have ha : A.RINGS_RW_CTRL r % 0x10000000 = 0x100000 + r * 0x100 := by simp only [A.RINGS_RW_CTRL]; omega
  have hb : 0x100000 + r * 0x100 - 0x100000 = 0x0 + r * 0x100 := by omega
  have hrow : rowAt (0x100000 + r * 0x100) = some ((hit_RINGS_RW_CTRL 0).row, [r], 0) := by
    unfold rowAt
    rw [pageOf_rings (by omega)]
    dsimp only
    rw [hb]
    exact find_RINGS_RW_CTRL r hr
  unfold regReset
  dsimp only
  rw [ha, hrow]
  rfl

/-- A value of RW_CTRL with EN = 1 is not the reset value, in which EN is 0. -/
theorem ringCtlKept_ne_reset (hr : r < 512) (he : F.RINGS_RW_CTRL_EN.get w = 1) : ringCtlKept w ≠ regReset (A.RINGS_RW_CTRL r) := by
  intro h
  have hodd : F.RINGS_RW_CTRL_EN.get (ringCtlKept w) = 1 := by
    simp only [Fld.get, F.RINGS_RW_CTRL_EN, bitsOf, ringCtlKept, BitVec.toNat_ofNat] at he ⊢
    omega
  rw [h, regReset_RINGS_RW_CTRL hr] at hodd
  exact absurd hodd (by decide)

end

/-- Every other register reads as before where a value that is not the reset value is stored. -/
theorem reg_setReg_other_ne {d : Device} {a b : Nat} {v : Word} (hv : v ≠ regReset a) (hb : b ≠ a) : (d.setReg a v).reg b = d.reg b := by
  unfold Device.reg Device.setReg tabSet
  dsimp only
  rw [if_neg hv]
  exact tabGet_tabPut_other _ _ hb

theorem ring_setRing_ne {d : Device} {r : Nat} {q : RingSt} (hq : q ≠ {}) : (d.setRing r q).ring r = q := tabGet_tabSet_ne _ hq

theorem ringStart_starts {d : Device} {src : Source} {r : Nat} {w : Word} (hr : r < 512) (he : F.RINGS_RW_CTRL_EN.get w = 1)
    (hc : d.ringCheck r w = none) {e : Device} (hd : d.ringStart src r w = e) :
    (e.ring r).st = .polling ∧ e.ringOn r = true ∧ (e.ring r).k = (d.reg (A.RINGS_RW_START r)).toNat ∧
      (e.ring r).done = (d.reg (A.RINGS_RW_START r)).toNat ∧ (e.ring r).jobs = [] ∧ (e.ring r).held = [] ∧
      (e.ring r).base = d.strokeNo ∧ (e.ring r).pollAt = nextPoll d.strokeNo (d.pollEvery r) d.strokeNo ∧ e.dev = d.dev ∧
      e.sent = d.sent := by
  have hv := ringCtlKept_ne_reset hr he
  have hpoll : (d.setReg (A.RINGS_RW_CTRL r) (ringCtlKept w)).pollEvery r = d.pollEvery r := by
    unfold Device.pollEvery
    rw [reg_setReg_other_ne hv (by simp only [A.RINGS_RW_CTRL, A.RINGS_RW_POLL]; omega)]
  unfold Device.ringStart at hd
  dsimp only at hd
  rw [hc] at hd
  dsimp only at hd
  rw [hpoll] at hd
  have hring := (congrArg (Device.ring · r) hd).symm.trans (ring_setRing_ne (fun h => nomatch congrArg RingSt.st h))
  have hon : e.ringOn r = true := by
    have hreg : e.reg (A.RINGS_RW_CTRL r) = ringCtlKept w := (congrArg (Device.reg · (A.RINGS_RW_CTRL r)) hd).symm.trans (Device.reg_setReg_ne hv)
    simp only [Device.ringOn, Device.ringCtl, hreg, beq_iff_eq]
    simp only [Fld.get, F.RINGS_RW_CTRL_EN, bitsOf, ringCtlKept, BitVec.toNat_ofNat] at he ⊢
    omega
  rw [hring]
  exact ⟨rfl, hon, rfl, rfl, rfl, rfl, rfl, rfl, by rw [← hd]; rfl, by rw [← hd]; rfl⟩

section
variable {d h : Device} {src : Source} {r : Nat} {w : Word} (ho : d.ringOn r = true)
    (hh : h = (if bitsOf w.toNat 1 11 = bitsOf (d.reg (A.RINGS_RW_CTRL r)).toNat 1 11 then d
        else d.refuseRing src (r * 0x100)).setReg (A.RINGS_RW_CTRL r) (BitVec.ofNat 32
          (bitsOf (d.reg (A.RINGS_RW_CTRL r)).toNat 1 11 * 2 + bitsOf w.toNat 12 12 * 2 ^ 12 + 1)))
include ho hh

theorem ringCtrlWrite_stops (he : F.RINGS_RW_CTRL_EN.get w = 0) : ringCtrlWrite d src r w = h.ringStop r := by
  rw [hh]
  unfold ringCtrlWrite
  extract_lets a old en
  have hen : en = false := by simp only [en, he]; rfl
  exact (if_neg (by rw [ho]; decide)).trans (if_pos (by rw [hen]; rfl))

theorem ringCtrlWrite_on (he : F.RINGS_RW_CTRL_EN.get w = 1) : ringCtrlWrite d src r w =
    if F.RINGS_RW_CTRL_RESUME.get w = 1 ∧ (h.ring r).st = .halted then h.modRing r fun q => { q with resume := true } else h := by
  rw [hh]
  unfold ringCtrlWrite
  extract_lets a old en
  have hen : en = true := by simp only [en, he]; rfl
  exact (if_neg (by rw [ho]; decide)).trans (if_neg (by rw [hen]; decide))

end

theorem ring_refuseRing (d : Device) (src : Source) (off r : Nat) : (d.refuseRing src off).ring r = d.ring r := by
  obtain ⟨f, h⟩ := Device.err_file d 0x10000 off .refused src
  unfold Device.refuseRing
  rw [h]
  rfl

theorem ring_setReg (d : Device) (a : Nat) (v : Word) (r : Nat) : (d.setReg a v).ring r = d.ring r := rfl

-- FUNCTION_LEVEL_RESET (R350) -----------------------------------------------------------------------------------------

/-- A ring that a function reset leaves: IDLE, without work, entries or a head write. -/
def RingSt.atRest (q : RingSt) : Prop := q.st = .idle ∧ q.jobs = [] ∧ q.held = [] ∧ q.headDue = false

/-- What the function reset does to one ring. -/
def resetRing (d : Device) (r : Nat) : Device :=
  ((d.modRing r fun s => { s with jobs := [] }).ringIdle r).modRing r fun s => { s with
    headDue := false, haltIrq := false, wentIdle := false, fresh := 0 }

/-- The table of rings is in canonical form. -/
def ringsWf (d : Device) : Prop := tabWf (fun _ => ({} : RingSt)) d.host.rings = true

section
variable {d : Device}

theorem ring_setRing_same (hw : ringsWf d) (r : Nat) (q : RingSt) : (d.setRing r q).ring r = q := tabGet_tabSet_same r q hw

theorem ring_setRing_other (hw : ringsWf d) {r i : Nat} (q : RingSt) (hi : i ≠ r) : (d.setRing r q).ring i = d.ring i :=
  tabGet_tabSet_other q hi hw

theorem setRing_wf (hw : ringsWf d) (r : Nat) (q : RingSt) : ringsWf (d.setRing r q) := tabSet_wf r q hw

end

/-- In `e` ring `r` is `q`, and every other ring, the modes and what was sent are as in `d`. -/
structure RingBecomes (d : Device) (r : Nat) (q : RingSt) (e : Device) : Prop where
  wf : ringsWf e
  same : e.ring r = q
  other : ∀ i, i ≠ r → e.ring i = d.ring i
  dev : e.dev = d.dev
  sent : e.sent = d.sent

theorem setRing_becomes {d : Device} (hw : ringsWf d) (r : Nat) (q : RingSt) : RingBecomes d r q (d.setRing r q) :=
  ⟨setRing_wf hw r q, ring_setRing_same hw r q, fun _ hi => ring_setRing_other hw q hi, rfl, rfl⟩

theorem RingBecomes.then {d e g : Device} {r : Nat} {q q' : RingSt} (h : RingBecomes d r q e) (k : RingBecomes e r q' g) :
    RingBecomes d r q' g :=
  ⟨k.wf, k.same, fun i hi => (k.other i hi).trans (h.other i hi), k.dev.trans h.dev, k.sent.trans h.sent⟩

theorem ringIdle_becomes {d : Device} (hw : ringsWf d) (r : Nat) :
    ∃ q, RingBecomes d r q (d.ringIdle r) ∧ q.st = .idle ∧ q.jobs = [] ∧ q.held = [] := by
  obtain ⟨b, f, h⟩ : ∃ b f, (d.ringNoWait r).ringOff r = { d with budget := b, file := f } := ⟨_, _, rfl⟩
  unfold Device.ringIdle
  rw [h]
  have hw' : ringsWf { d with budget := b, file := f } := hw
  obtain ⟨wf, same, other, dev, sent⟩ := setRing_becomes hw' r _
  exact ⟨_, ⟨wf, same, other, dev, sent⟩, rfl, rfl, rfl⟩

theorem resetRing_becomes {d : Device} (hw : ringsWf d) (r : Nat) : ∃ q, RingBecomes d r q (resetRing d r) ∧ q.atRest := by
  have h1 := setRing_becomes hw r { d.ring r with jobs := [] }
  obtain ⟨q, h2, hst, hjobs, hheld⟩ := ringIdle_becomes h1.wf r
  refine ⟨_, (h1.then h2).then (setRing_becomes h2.wf r _), ?_⟩
  exact ⟨(congrArg RingSt.st h2.same).trans hst, (congrArg RingSt.jobs h2.same).trans hjobs,
    (congrArg RingSt.held h2.same).trans hheld, rfl⟩

/-- Resetting a list of rings leaves each of them at rest, the others as they were, and nothing sent. -/
theorem resetRings_rest (l : List Nat) {d : Device} (hw : ringsWf d) {e : Device} (he : l.foldl resetRing d = e) :
    (∀ r ∈ l, (e.ring r).atRest) ∧ (∀ r, (d.ring r).atRest → (e.ring r).atRest) ∧ (∀ r, r ∉ l → e.ring r = d.ring r) ∧
      e.sent = d.sent ∧ e.dev = d.dev := by
  induction l generalizing d with
  | nil =>
    subst he
    exact ⟨fun _ h => absurd h List.not_mem_nil, fun _ h => h, fun _ _ => rfl, rfl, rfl⟩
  | cons x l ih =>
    obtain ⟨q, hx, hq⟩ := resetRing_becomes hw x
    obtain ⟨hin, hkeep, hout, hsent, hdev⟩ := ih hx.wf he
    have hxr : (e.ring x).atRest := hkeep x (by rw [hx.same]; exact hq)
    refine ⟨fun r hr => ?_, fun r hr => ?_, fun r hr => ?_, hsent.trans hx.sent, hdev.trans hx.dev⟩
    · obtain rfl | hr := List.mem_cons.mp hr
      · exact hxr
      · exact hin r hr
    · by_cases h : r = x
      · exact h ▸ hxr
      · exact hkeep r (by rw [hx.other r h]; exact hr)
    · obtain ⟨hne, hl⟩ := not_or.mp (fun h => hr (List.mem_cons.mpr h))
      exact (hout r hl).trans (hx.other r hne)

theorem functionLevelReset_rest {d : Device} (hw : ringsWf d) (f : Nat) {e : Device} (he : functionLevelReset d f = e) :
    (∀ r, d.ringFn r = f → (e.ring r).atRest) ∧ (∀ r, d.ringFn r ≠ f → e.ring r = d.ring r) ∧ e.sent = d.sent ∧ e.dev = d.dev := by
  unfold functionLevelReset at he
  extract_lets mine g at he
  have hg : mine.foldl resetRing d = g := rfl
  clear_value g
  obtain ⟨hin, hkeep, hout, hsent, hdev⟩ := resetRings_rest mine hw hg
  have ht : Told g e := he ▸ raise_told g _ _
  have hring : ∀ r, e.ring r = g.ring r := fun r => congrArg (fun u : HostUnit => tabGet (fun _ => ({} : RingSt)) u.rings r) ht.host
  have hmine : ∀ r, r ∈ mine ↔ r ∈ d.host.rings.map (·.1) ∧ d.ringFn r = f := fun r => by simp [mine]
  refine ⟨fun r hr => ?_, fun r hr => ?_, ht.sent.trans hsent, ht.dev.trans hdev⟩
  · rw [hring]
    by_cases hm : r ∈ d.host.rings.map (·.1)
    · exact hin r ((hmine r).mpr ⟨hm, hr⟩)
    · have hun : d.ring r = {} :=
        Classical.byContradiction fun hne => hm (List.mem_map.mpr ⟨_, tabGet_mem hne, rfl⟩)
      exact hkeep r (by rw [hun]; exact ⟨rfl, rfl, rfl, rfl⟩)
  · rw [hring]
    exact hout r fun hm => hr ((hmine r).mp hm).2

-- MSI-X vectors (R357) ------------------------------------------------------------------------------------------------

section
variable {d g : Device} {n : Nat} (hg : g = { d with host := { d.host with
      unmasked := if d.host.unmasked.contains n = true then d.host.unmasked else d.host.unmasked ++ [n]
      held := d.host.held.filter fun x => x ≠ n } })
include hg

theorem msixVectorUnmask_sends (hh : d.host.held.contains n = true) :
    msixVectorUnmask d n = g.send (.msix (g.vectorOf n).1 (g.vectorOf n).2) := by
  have hun : g.host.unmasked.contains n = true := by
    rw [hg]
    dsimp only
    split
    · assumption
    · simp
  unfold msixVectorUnmask
  extract_lets un was src e
  have he : e = g := hg.symm
  clear_value e
  subst he
  refine (if_pos hh).trans ?_
  unfold Device.entrySignal
  exact if_pos hun

theorem msixVectorUnmask_quiet (hh : d.host.held.contains n = false) : msixVectorUnmask d n = g := by
  rw [hg]
  unfold msixVectorUnmask
  extract_lets un was e
  exact if_neg (ne_true_of_eq_false hh)

end

-- RingWindows ---------------------------------------------------------------------------------------------------------

section
variable {s : State} {c : Instr} {via : Via} {r : Nat} {w v : Word}

/-- The three writes of RW_CTRL that have a command of their own. -/
def ringCommand (c : Instr) (via : Via) (r : Nat) (w v : Word) : Prop :=
  (c = .ringEnable via r w ∧ v = F.RINGS_RW_CTRL_EN.put w 1) ∨ (c = .ringDisable via r w ∧ v = F.RINGS_RW_CTRL_EN.put w 0) ∨
    (c = .ringResume via r w ∧ v = F.RINGS_RW_CTRL_RESUME.put w 1)

theorem makes_ringCommand (hc : ringCommand c via r w v) (hv : via.bar = true) (hr : r < 512) {g : Device → Device}
    (h : s.dev.viaRing via r v = g s.dev) : Makes c s g := by
  have hw : (via.bar && ringOk r) = true := by simpa [ringOk, ltOk, hv] using hr
  obtain ⟨rfl, rfl⟩ | ⟨rfl, rfl⟩ | ⟨rfl, rfl⟩ := hc
  · exact makes_run (f := fun d => d.viaRing via r (F.RINGS_RW_CTRL_EN.put w 1)) rfl hw h
  · exact makes_run (f := fun d => d.viaRing via r (F.RINGS_RW_CTRL_EN.put w 0)) rfl hw h
  · exact makes_run (f := fun d => d.viaRing via r (F.RINGS_RW_CTRL_RESUME.put w 1)) rfl hw h

theorem ringSource_bar {d : Device} {src : Source} (hs : ringSource d via src r) : via.bar = true := by
  obtain ⟨rfl, -⟩ | ⟨rfl, -⟩ | ⟨f, rfl, hf, -⟩ := hs
  · rfl
  · rfl
  · exact hf

end

/-- Settles O59: each write of RW_CTRL is the register write it names, at the ring's window or nowhere; a function reset is followed ring by
ring. -/
theorem ringWindows : Obligations.RingWindows := by
  unfold Obligations.RingWindows
  refine ⟨fun s c via src r w v h hg hr hs hc => ?_, fun s c f r w hf hr hc => ?_, fun s f hf hc hw => ?_,
    fun s n g hn hc hg => ?_⟩
  · have hv : s.dev.viaRing via r v = ringCtrlWrite s.dev src r v := viaRing_reaches hg hr hs v
    have hm {g : Device → Device} (hx : ringCtrlWrite s.dev src r v = g s.dev) : Makes c s g :=
      makes_ringCommand hc (ringSource_bar hs) hr (hv.trans hx)
    refine ⟨fun ho => ⟨fun he => hm (ringCtrlWrite_off ho he), fun he => ⟨fun code hk => hm ?_, fun hk => ?_⟩⟩, fun ho hh =>
      ⟨fun he => hm (ringCtrlWrite_stops ho hh he), fun he => ?_⟩⟩
    · exact (ringCtrlWrite_starts ho he).trans (ringStart_refused hk)
    · have hx : Makes c s fun _ => s.dev.ringStart src r v := hm (ringCtrlWrite_starts ho he)
      exact ⟨_, hx, rfl, ringStart_starts hr he hk rfl⟩
    · have hst : h.ring r = s.dev.ring r := by
        rw [hh, ring_setReg]
        split
        · rfl
        · exact ring_refuseRing _ _ _ _
      refine ⟨fun ⟨hres, hhalt⟩ => hm ?_, fun hno => hm ?_⟩
      · exact (ringCtrlWrite_on ho hh he).trans (if_pos ⟨hres, by rw [hst]; exact hhalt⟩)
      · refine (ringCtrlWrite_on ho hh he).trans (if_neg fun ⟨hres, hhalt⟩ => ?_)
        rw [hst] at hhalt
        obtain h0 | hne := hno
        · omega
        · exact hne hhalt
  · have hview (v : Word) (hc : ringCommand c (.view f) r w v) : exec c s = .next s :=
      makes_ringCommand (g := id) hc hf hr (viaRing_view s.dev f r v)
    obtain rfl | rfl | rfl | ⟨hfn, hc⟩ := hc
    · exact hview _ (.inl ⟨rfl, rfl⟩)
    · exact hview _ (.inr (.inl ⟨rfl, rfl⟩))
    · exact hview _ (.inr (.inr ⟨rfl, rfl⟩))
    · have hvf (v : Word) (hc : ringCommand c (.vf f) r w v) : exec c s = .next s :=
        makes_ringCommand (g := id) hc hf hr (viaRing_otherVf hfn v)
      obtain rfl | rfl | rfl := hc
      · exact hvf _ (.inl ⟨rfl, rfl⟩)
      · exact hvf _ (.inr (.inl ⟨rfl, rfl⟩))
      · exact hvf _ (.inr (.inr ⟨rfl, rfl⟩))
  · exact completes_clock (f := fun d => functionLevelReset d f) rfl hf hc (functionLevelReset_rest hw f rfl)
  · have hwf : Instr.wf (.msixVectorUnmask n) = true := by simpa [Instr.wf, ltOk] using hn
    have hm {g : Device → Device} (hx : msixVectorUnmask s.dev n = g s.dev) : Makes (.msixVectorUnmask n) s g :=
      makes_clock (f := fun d => msixVectorUnmask d n) rfl hwf hc hx
    exact ⟨fun hh => hm (msixVectorUnmask_sends hg hh), fun hh => hm (msixVectorUnmask_quiet hg hh)⟩

end Sys2Proof.Machine

/-! Rings at work: polls, entries, packets, notices and read timeouts (R41, R336, R338 to R345). -/

namespace Sys2Proof.Machine

-- What a DMA payment and its events keep (R38, R363) ------------------------------------------------------------------

/-- At most the counters, the budgets and the free values differ, and of the registers the overflow bits of the device's counters. -/
structure DeviceCounted (d e : Device) : Prop where
  told : Told d e
  held : e.file.held = d.file.held
  reg : ∀ a, (∀ k < 16, a ≠ pcWin 0x70000 k + 0x28) → e.reg a = d.reg a

namespace DeviceCounted
variable {d e g : Device}

theorem refl (d : Device) : DeviceCounted d d := ⟨.refl d, rfl, fun _ _ => rfl⟩

theorem trans (h : DeviceCounted d e) (k : DeviceCounted e g) : DeviceCounted d g :=
  ⟨h.told.trans k.told, k.held.trans h.held, fun a ha => (k.reg a ha).trans (h.reg a ha)⟩

theorem ite {c : Prop} [Decidable c] (h : DeviceCounted d e) (k : DeviceCounted d g) : DeviceCounted d (if c then e else g) := by
  split
  · exact h
  · exact k

/-- Anything told that leaves the register file alone. -/
theorem ofTold (h : Told d e) (hf : e.file = d.file) : DeviceCounted d e :=
  ⟨h, by rw [hf], fun _ _ => congrArg (fun f : RegFile => tabGet regReset f.regs _) hf⟩

variable (h : DeviceCounted d e)
include h

theorem cfg {a : Nat} (ha : ∀ k < 16, a ≠ pcWin 0x70000 k + 0x28) : e.cfg a = d.cfg a := by
  unfold Device.cfg
  rw [h.held, h.reg a ha]

theorem portEn (p : Nat) : e.portEn p = d.portEn p := by
  unfold Device.portEn Device.flag Device.fld
  rw [h.cfg fun k _ => by simp only [ofPort, A.PORT_PT_CFG, pcWin]; omega]

theorem ringCtl (r : Nat) (f : Fld) : e.ringCtl r f = d.ringCtl r f := by
  unfold Device.ringCtl
  rw [h.reg _ fun k _ => by simp only [A.RINGS_RW_CTRL, pcWin]; omega]

theorem ring (r : Nat) : e.ring r = d.ring r := congrArg (fun u : HostUnit => tabGet (fun _ => ({} : RingSt)) u.rings r) h.told.host

end DeviceCounted

theorem regReset_pcOvf : ∀ k < 16, regReset (pcWin 0x70000 k + 0x28) = 0#32 := by decide +kernel

theorem setW1c_pcOvf_counted (d : Device) {k : Nat} (hk : k < 16) : DeviceCounted d (d.setW1c (pcWin 0x70000 k + 0x28) 0) := by
  refine ⟨setW1c_told d _ _, rfl, fun a ha => ?_⟩
  refine reg_setReg_other_ne (fun h => ?_) (ha k hk)
  rw [regReset_pcOvf k hk] at h
  exact absurd (congrArg (BitVec.getLsbD · 0) h) (by simp)

theorem pcAdd_counted (d : Device) {k : Nat} (hk : k < 16) (n : Nat) (p : Option EvPkt) (c : Nat) :
    DeviceCounted d (d.pcAdd none k n p c) := by
  unfold Device.pcAdd
  extract_lets w sum src sel sampling reload v ovf d1 d2
  refine .ite (.ofTold ⟨_, _, _, _, rfl⟩ rfl) ?_
  have h1 : DeviceCounted d d1 := .ofTold ⟨_, _, _, _, rfl⟩ rfl
  exact (h1.trans (setW1c_pcOvf_counted d1 hk)).trans (.ofTold ⟨_, _, _, _, rfl⟩ rfl)

/-- An event of the device, and of no gallery, changes no register but the overflow bits of the device's counters. -/
theorem event_counted (d : Device) (code n : Nat) (attr : Option Nat) (p : EvPkt) :
    DeviceCounted d (d.event none code n attr p) := by
  unfold Device.event
  refine .ite (.refl d) ?_
  have hall : ∀ (l : List Nat) (e : Device), (∀ k ∈ l, k < 16) → DeviceCounted d e → DeviceCounted d (l.foldl (fun d k =>
      if d.pcPass (pcWin (pcPage none) k) code attr p then
        let pkt := if packetEvent code then some p else none
        (d.pcAdd none k n pkt d.stroke.cyc).noteAdded (pcWin (pcPage none) k) n pkt
      else d) e) := by
    intro l
    induction l with
    | nil => exact fun _ _ h => h
    | cons k l ih =>
      intro e hl h
      have hk : k < 16 := hl k (List.mem_cons_self ..)
      refine ih _ (fun i hi => hl i (List.mem_cons_of_mem _ hi)) (.ite ?_ h)
      exact (h.trans (pcAdd_counted e hk _ _ _)).trans (.ofTold ⟨_, _, _, _, rfl⟩ rfl)
  exact hall _ d (fun k hk => List.mem_range.mp hk) (.refl d)

theorem dmaEvent_counted (d : Device) (r n : Nat) : DeviceCounted d (d.dmaEvent r n) := event_counted d _ _ _ _

theorem takePieces_dma_counted (d : Device) (cls need had tag : Nat) :
    DeviceCounted d (d.takePieces 0x0E cls need had tag).1 := by
  have hwait (n : Nat) : DeviceCounted d (d.mustWait 0x0E cls tag n) := by
    unfold Device.mustWait
    extract_lets b e
    refine .ite (.ofTold ⟨_, _, _, _, rfl⟩ rfl) ?_
    have he : DeviceCounted d e := .ofTold ⟨_, _, _, _, rfl⟩ rfl
    exact he.trans (event_counted e _ _ _ _)
  unfold Device.takePieces
  dsimp only
  refine iteInduction (motive := fun x : Device × Nat => DeviceCounted d x.1) (fun _ => .ofTold ⟨_, _, _, _, rfl⟩ rfl) fun _ => ?_
  exact (hwait _).trans (.ofTold ⟨_, _, _, _, rfl⟩ rfl)

-- Entries (R335, R340, R344) ------------------------------------------------------------------------------------------

/-- What the reading of ring `r`'s next entry asks about is the same in `e`: the entry's number, RW_CTRL, the ports and the fences. -/
structure SameEntry (r : Nat) (d e : Device) : Prop where
  k : (e.ring r).k = (d.ring r).k
  ctl : ∀ f, e.ringCtl r f = d.ringCtl r f
  portEn : ∀ p, e.portEn p = d.portEn p
  dev : e.dev = d.dev

theorem SameEntry.entData {r : Nat} {d e : Device} (h : SameEntry r d e) (b : Bytes) : e.entData r b = d.entData r b := by
  unfold Device.entData Device.txBad Device.isFenced Device.ringType Device.ringSize
  rw [h.k, h.ctl, h.ctl, h.portEn, h.dev]

theorem DeviceCounted.sameEntry {d e : Device} (h : DeviceCounted d e) (r : Nat) : SameEntry r d e :=
  ⟨by rw [h.ring], h.ringCtl r, h.portEn, h.told.dev⟩

theorem mayRead_notIdle {d : Device} {r : Nat} (h : d.mayRead r = true) : (d.ring r).st ≠ .idle := by
  intro hi
  simp [Device.mayRead, hi] at h

theorem ringPay_sameEntry {d h : Device} {r need : Nat} {whole : Bool} (hr : (d.ring r).st ≠ .idle)
    (hp : d.ringPay r need false = (h, whole)) : SameEntry r d h := by
  unfold Device.ringPay at hp
  extract_lets q cls had at hp
  dsimp -zeta only at hp
  have hc : DeviceCounted d (d.takePieces 0x0E cls need had (2 * r + b2n false)).1 := takePieces_dma_counted d _ _ _ _
  generalize (d.takePieces 0x0E cls need had (2 * r + b2n false)).1 = e, (d.takePieces 0x0E cls need had (2 * r + b2n false)).2 = m at hp hc
  extract_lets whole' left g at hp
  have hg : SameEntry r d g := by
    refine ⟨?_, hc.ringCtl r, hc.portEn, hc.told.dev⟩
    have hne : ({ q with paid := left } : RingSt) ≠ {} := fun h => hr (congrArg RingSt.st h)
    have hring : g.ring r = { q with paid := left } := ring_setRing_ne hne
    rw [hring]
  clear_value g
  obtain ⟨rfl, -⟩ := Prod.mk.inj hp
  split
  · exact ⟨hg.k, hg.ctl, hg.portEn, hg.dev⟩
  · exact hg

section
variable {d h g : Device} {r k n : Nat} {entry body : Option Bytes} {bs : Bytes}

theorem ringEntryRead_unread (hm : d.mayRead r = false) : ringEntryRead d r entry body = d := if_pos (by rw [hm]; rfl)

section
variable (hm : d.mayRead r = true) (hb : entry.getD [] = bs) (hn : d.entData r bs = n)
include hm hb hn

theorem ringEntryRead_waits (hp : d.ringPay r (64 + n) false = (h, false)) : ringEntryRead d r entry body = h := by
  unfold ringEntryRead
  refine (if_neg (by rw [hm]; decide)).trans ?_
  extract_lets q e
  have he : e = bs := hb
  rw [he, hn, hp]
  rfl

variable (hk : (d.ring r).k = k) (hp : d.ringPay r (64 + n) false = (h, true))
include hk hp

theorem ringEntryRead_paid : ringEntryRead d r entry body =
    if (!h.mayDma (h.ringFn r) (h.ringBase r + 64 * (k % h.ringSize r)) 64) = true ∨ entry.isNone = true then
      h.haltAt r (h.dmaFault (h.ringFn r) (h.ringBase r + 64 * (k % h.ringSize r)) 64) k
    else (h.entryCome r bs body).ringSettle r := by
  unfold ringEntryRead
  refine (if_neg (by rw [hm]; decide)).trans ?_
  extract_lets q e
  have he : e = bs := hb
  have hq : q.k = k := hk
  rw [he, hn, hp, hq]
  rfl

theorem ringEntryRead_outside (hi : h.inWindow (h.ringFn r) (h.ringBase r + 64 * (k % h.ringSize r)) 64 = false) :
    ringEntryRead d r entry body = h.haltAt r 1 k := by
  rw [ringEntryRead_paid hm hb hn hk hp, Device.dmaFault, Device.mayDma, hi]
  exact if_pos (.inl (by simp))

theorem ringEntryRead_fails (hi : h.inWindow (h.ringFn r) (h.ringBase r + 64 * (k % h.ringSize r)) 64 = true)
    (hf : h.busOn (h.ringFn r) = false ∨ entry = none) : ringEntryRead d r entry body = h.haltAt r 2 k := by
  rw [ringEntryRead_paid hm hb hn hk hp, Device.dmaFault, Device.mayDma, hi]
  refine if_pos ?_
  obtain hf | rfl := hf
  · exact .inl (by rw [hf]; rfl)
  · exact .inr rfl

theorem ringEntryRead_comes (hi : h.inWindow (h.ringFn r) (h.ringBase r + 64 * (k % h.ringSize r)) 64 = true)
    (hf : h.busOn (h.ringFn r) = true) (he : entry = some bs) :
    ringEntryRead d r entry body = (h.entryCome r bs body).ringSettle r := by
  rw [ringEntryRead_paid hm hb hn hk hp, Device.mayDma, hi, hf, he]
  exact if_neg (by simp)

end

/-- A completed read, judged in the device `g` that has counted it (R344). -/
theorem entryCome_eq (hk : (h.ring r).k = k) (hn : h.entData r bs = n) (hg : h.dmaEvent r (64 + n) = g) : h.entryCome r bs body =
    if entFld bs 0 1 0 1 ≠ 1 - k / g.ringSize r % 2 then g.ringEmpty r
    else if entFld bs 2 2 0 16 ≠ k % 65536 then g.haltAt r 3 k
    else if (!entGood (g.ringType r) bs) = true then g.haltAt r 4 k
    else if ((entSpan (g.ringType r) bs).any fun x => g.badAddr r x.1 x.2.1 x.2.2) = true then g.haltAt r 1 k
    else if 0 < n ∧ body.isNone = true then g.haltAt r 2 k
    else g.takeEntry r bs body := by
  have hgn : g.entData r bs = n := hg ▸ ((dmaEvent_counted h r (64 + n)).sameEntry r).entData bs |>.trans hn
  unfold Device.entryCome
  extract_lets q e bad
  have he : e = g := by rw [← hg, ← hn]
  have hq : q.k = k := hk
  have hbad : bad = (entSpan (g.ringType r) bs).any fun x => g.badAddr r x.1 x.2.1 x.2.2 := by
    simp only [bad, he]
    cases entSpan (g.ringType r) bs with
    | none => rfl
    | some x => rfl
  rw [hbad, he, hq, hgn]

section
variable (hk : (h.ring r).k = k) (hn : h.entData r bs = n) (hg : h.dmaEvent r (64 + n) = g)
include hk hn hg

theorem entryCome_empty (hv : entFld bs 0 1 0 1 ≠ 1 - k / g.ringSize r % 2) : h.entryCome r bs body = g.ringEmpty r :=
  (entryCome_eq hk hn hg).trans (if_pos hv)

variable (hv : entFld bs 0 1 0 1 = 1 - k / g.ringSize r % 2)
include hv

theorem entryCome_misplaced (hs : entFld bs 2 2 0 16 ≠ k % 65536) : h.entryCome r bs body = g.haltAt r 3 k := by
  rw [entryCome_eq hk hn hg, if_neg (not_not_intro hv), if_pos hs]

variable (hs : entFld bs 2 2 0 16 = k % 65536)
include hs

theorem entryCome_bad (hb : entGood (g.ringType r) bs = false) : h.entryCome r bs body = g.haltAt r 4 k := by
  rw [entryCome_eq hk hn hg, if_neg (not_not_intro hv), if_neg (not_not_intro hs), hb]
  rfl

variable (hb : entGood (g.ringType r) bs = true)
include hb

theorem entryCome_good : h.entryCome r bs body =
    if ((entSpan (g.ringType r) bs).any fun x => g.badAddr r x.1 x.2.1 x.2.2) = true then g.haltAt r 1 k
    else if 0 < n ∧ body.isNone = true then g.haltAt r 2 k
    else g.takeEntry r bs body := by
  rw [entryCome_eq hk hn hg, if_neg (not_not_intro hv), if_neg (not_not_intro hs), hb]
  rfl

theorem entryCome_badAddr {a m al : Nat} (hsp : entSpan (g.ringType r) bs = some (a, m, al)) (ha : g.badAddr r a m al = true) :
    h.entryCome r bs body = g.haltAt r 1 k := by
  rw [entryCome_good hk hn hg hv hs hb, hsp]
  exact if_pos ha

variable (ha : ∀ a m al, entSpan (g.ringType r) bs = some (a, m, al) → g.badAddr r a m al = false)
include ha

theorem entryCome_reachable : h.entryCome r bs body =
    if 0 < n ∧ body.isNone = true then g.haltAt r 2 k else g.takeEntry r bs body := by
  rw [entryCome_good hk hn hg hv hs hb]
  refine if_neg (ne_true_of_eq_false ?_)
  cases hsp : entSpan (g.ringType r) bs with
  | none => rfl
  | some x => exact ha x.1 x.2.1 x.2.2 hsp

theorem entryCome_noBody (h0 : 0 < n) (hx : body = none) : h.entryCome r bs body = g.haltAt r 2 k := by
  rw [entryCome_reachable hk hn hg hv hs hb ha]
  exact if_pos ⟨h0, by rw [hx]; rfl⟩

theorem entryCome_taken (hx : n = 0 ∨ body.isSome = true) : h.entryCome r bs body = g.takeEntry r bs body := by
  rw [entryCome_reachable hk hn hg hv hs hb ha]
  refine if_neg fun ⟨h0, hnone⟩ => ?_
  obtain hx | hx := hx
  · omega
  · simp [Option.isNone_iff_eq_none.mp hnone] at hx

end

end

end Sys2Proof.Machine

/-! The ends of ring work: trapped packets and notices written to the host, read timeouts, and the settling of O60 (R338, R341, R345). -/

namespace Sys2Proof.Machine

-- Polls and retries (R336, R345) --------------------------------------------------------------------------------------

section
variable {d : Device} {r : Nat}

theorem ringPoll_idle (h : (d.ring r).st ≠ .polling ∨ (d.ring r).polled = true ∨ (d.ring r).retryAt.isSome = true ∨
    d.strokeNo < (d.ring r).pollAt) : ringPoll d r = d := by
  refine if_neg fun ⟨hst, hpolled, hretry, hat⟩ => ?_
  obtain h | h | h | h := h
  · exact h hst
  · simp [h] at hpolled
  · simp [Option.isNone_iff_eq_none.mp hretry] at h
  · omega

theorem ringPoll_due (hst : (d.ring r).st = .polling) (hp : (d.ring r).polled = false) (hr : (d.ring r).retryAt = none)
    (ha : (d.ring r).pollAt ≤ d.strokeNo) : ringPoll d r = d.setRing r { d.ring r with
      polled := true
      pollAt := nextPoll (d.ring r).base (d.pollEvery r) d.strokeNo } :=
  if_pos ⟨hst, by rw [hp]; rfl, by rw [hr]; rfl, ha⟩

theorem hostReadRetry_none (h : (d.ring r).retryAt = none) : hostReadRetry d r = d := by
  unfold hostReadRetry
  rw [h]

theorem hostReadRetry_some {t : Nat} (h : (d.ring r).retryAt = some t) :
    hostReadRetry d r = if d.matured t then d.modRing r fun q => { q with retryAt := none } else d := by
  unfold hostReadRetry
  rw [h]

end

/-- What a packet of a trap that the host has taken leaves: its trap gone and its frame released. -/
def rxWritten (t : TrapPkt) (k : Device) : Device :=
  let m : Device := { k with host := { k.host with traps := k.host.traps.filter fun u => u ≠ t } }
  (if m.othersLive t.frame none then m else m.flowFinish t.frame none none).releaseFrame t.frame

/-- The oldest notice is lost, and `rest` remain. -/
def noticeLost (rest : List Notice) (d : Device) : Device := ({ d with table := { d.table with notices := rest } }).count (tblCnt 16)

-- Trapped packets (R338, R341) ----------------------------------------------------------------------------------------

theorem rxPacketWrite_none {d : Device} {r : Nat} (h : (d.host.traps.find? fun t => t.ring = r) = none) : rxPacketWrite d r = d := by
  unfold rxPacketWrite
  rw [h]

section
variable {d : Device} {r : Nat} {t : TrapPkt} (ht : (d.host.traps.find? fun t => t.ring = r) = some t)
include ht

theorem rxPacketWrite_gone (hf : d.frame t.frame = none) : rxPacketWrite d r = d := by
  unfold rxPacketWrite
  rw [ht]
  dsimp only
  rw [hf]

variable {f : Frame} (hf : d.frame t.frame = some f)
include hf

theorem rxPacketWrite_early (he : (f.ended && f.checked) = false) : rxPacketWrite d r = d := by
  unfold rxPacketWrite
  rw [ht]
  dsimp only
  rw [hf]
  exact if_pos (by rw [he]; rfl)

variable (he : (f.ended && f.checked) = true)
include he

theorem rxPacketWrite_noRing (hr : d.ringTakes r 2 = false) : rxPacketWrite d r = (d.count A.HOST_TRAP_NO_RING_LO).dropTrap t 0x90 := by
  unfold rxPacketWrite
  rw [ht]
  dsimp only
  rw [hf]
  exact (if_neg (by rw [he]; decide)).trans (if_pos (by rw [hr]; rfl))

variable (hr : d.ringTakes r 2 = true)
include hr

theorem rxPacketWrite_full (hq : (d.ring r).st = .halted ∨ (d.ring r).held = []) :
    rxPacketWrite d r = (d.count (A.RINGS_RW_NONFATAL_LO r)).dropTrap t 0x90 := by
  unfold rxPacketWrite
  rw [ht]
  dsimp only
  rw [hf]
  refine (if_neg (by rw [he]; decide)).trans ((if_neg (by rw [hr]; decide)).trans ?_)
  obtain hq | hq := hq
  · rw [hq]
  · rw [hq]
    cases (d.ring r).st <;> rfl

/-- The first entry held takes the packet once its bytes are paid for, or the ring halts and the packet is dropped. -/
theorem rxPacketWrite_held (hst : (d.ring r).st ≠ .halted) {b : HeldEntry} {rest : List HeldEntry} {n : Nat} {g : Device} {whole : Bool}
    (hh : (d.ring r).held = b :: rest) (hn : min (f.bytes.length - 4) (b.size - 64) = n) (hp : d.ringPay r (64 + n) true = (g, whole)) :
    rxPacketWrite d r = if (!whole) = true then g
      else (g.postWrite (g.ringFn r) b.addr (rxRecord t f n ++ f.bytes.take n)).elim
        (((g.heldFails r (g.dmaFault (g.ringFn r) b.addr (64 + n)) b.num).count (A.RINGS_RW_NONFATAL_LO r)).dropTrap t 0x90)
        fun h => rxWritten t ((h.dmaEvent r (64 + n)).fillHeld r) := by
  unfold rxPacketWrite
  rw [ht]
  dsimp only
  rw [hf]
  refine (if_neg (by rw [he]; decide)).trans ((if_neg (by rw [hr]; decide)).trans ?_)
  split
  case h_1 heq => exact absurd heq hst
  case h_2 hheld _ => exact absurd (hheld.symm.trans hh) (by simp)
  case h_3 c _ hheld _ =>
    obtain ⟨rfl, -⟩ := List.cons.inj (hheld.symm.trans hh)
    rw [hn, hp]
    dsimp only
    cases g.postWrite (g.ringFn r) c.addr (rxRecord t f n ++ f.bytes.take n) with
    | none => rfl
    | some h => rfl

end

-- Notices (R166, R338, R341) ------------------------------------------------------------------------------------------

section
variable {d : Device} {n : Notice} {rest : List Notice} {r : Nat} (hq : d.table.notices = n :: rest)
    (hr : F.TABLE_LEARN_CFG_NOTIFY_RING.get (d.cfg A.TABLE_LEARN_CFG) = r)
include hq hr

theorem noticeWrite_noRing (ht : d.ringTakes r 4 = false) : noticeWrite d = noticeLost rest d := by
  unfold noticeWrite
  rw [hq]
  subst hr
  exact if_pos (congrArg Bool.not ht)

variable (ht : d.ringTakes r 4 = true)
include ht

theorem noticeWrite_full (hh : (d.ring r).st = .halted ∨ (d.ring r).held = []) :
    noticeWrite d = noticeLost rest (d.count (A.RINGS_RW_NONFATAL_LO r)) := by
  unfold noticeWrite
  rw [hq]
  have hfld : d.fld A.TABLE_LEARN_CFG F.TABLE_LEARN_CFG_NOTIFY_RING = r := hr
  dsimp only
  rw [hfld]
  refine (if_neg (by rw [ht]; decide)).trans ?_
  obtain hh | hh := hh
  · rw [hh]
    rfl
  · rw [hh]
    cases (d.ring r).st <;> rfl

/-- The first entry held takes the notice once its bytes are paid for, or the ring halts and the notice is lost. -/
theorem noticeWrite_held (hst : (d.ring r).st ≠ .halted) {b : HeldEntry} {more : List HeldEntry} {g : Device} {whole : Bool}
    (hh : (d.ring r).held = b :: more) (hp : d.ringPay r 64 true = (g, whole)) :
    noticeWrite d = if (!whole) = true then g
      else (g.postWrite (g.ringFn r) b.addr n.bytes).elim
        (noticeLost rest ((g.heldFails r (g.dmaFault (g.ringFn r) b.addr 64) b.num).count (A.RINGS_RW_NONFATAL_LO r)))
        fun h => let k := (h.dmaEvent r 64).fillHeld r; { k with table := { k.table with notices := rest } } := by
  unfold noticeWrite
  rw [hq]
  have hfld : d.fld A.TABLE_LEARN_CFG F.TABLE_LEARN_CFG_NOTIFY_RING = r := hr
  dsimp only
  rw [hfld]
  refine (if_neg (by rw [ht]; decide)).trans ?_
  split
  case h_1 heq => exact absurd heq hst
  case h_2 hheld _ => exact absurd (hheld.symm.trans hh) (by simp)
  case h_3 c _ hheld _ =>
    obtain ⟨rfl, -⟩ := List.cons.inj (hheld.symm.trans hh)
    rw [hp]
    dsimp only
    cases g.postWrite (g.ringFn r) c.addr n.bytes with
    | none => rfl
    | some h => rfl

end

-- Read timeouts (R345) ------------------------------------------------------------------------------------------------

section
variable {d : Device} {r : Nat}

theorem hostReadTimeout_noRow (h : d.frontJob r 1 = none) : hostReadTimeout d r .tableRow = d := by
  unfold hostReadTimeout
  dsimp only
  rw [h]

theorem hostReadTimeout_row {j : TdmaJob} (h : d.frontJob r 1 = some j) :
    hostReadTimeout d r .tableRow = if (d.ring r).lateRow = true then (d.readLate r 0).rowFails r 2 j else d.readAgain r .tableRow := by
  unfold hostReadTimeout
  dsimp only
  rw [h]

theorem hostReadTimeout_noEntry (h : d.mayRead r = false) : hostReadTimeout d r .entry = d := if_pos (by rw [h]; rfl)

theorem hostReadTimeout_entry (h : d.mayRead r = true) :
    hostReadTimeout d r .entry = if (d.ring r).lateEntry = true then (d.readLate r 0).haltAt r 2 (d.ring r).k else d.readAgain r .entry :=
  if_neg (by rw [h]; decide)

theorem hostReadTimeout_noFrame (h : d.mayRead r = false ∨ d.ringType r ≠ 1) : hostReadTimeout d r .frame = d := by
  refine if_pos ?_
  obtain h | h := h
  · exact .inl (by rw [h]; rfl)
  · exact .inr h

theorem hostReadTimeout_frame (h : d.mayRead r = true) (ht : d.ringType r = 1) :
    hostReadTimeout d r .frame = if (d.ring r).lateData = true then (d.readLate r 0).haltAt r 2 (d.ring r).k else d.readAgain r .frame := by
  refine if_neg fun hor => ?_
  obtain hor | hor := hor
  · rw [h] at hor
    exact absurd hor (by decide)
  · exact hor ht

end

-- RingTransfers -------------------------------------------------------------------------------------------------------

theorem makes_ringEntryRead {s : State} {r : Nat} {entry body : Option Bytes} {g : Device → Device} (hr : r < 512)
    (he : entryOk entry = true) (hc : s.dev.clocked = true) (h : ringEntryRead s.dev r entry body = g s.dev) :
    Makes (.ringEntryRead r entry body) s g :=
  makes_clock (f := fun d => ringEntryRead d r entry body) rfl (by simpa [Instr.wf, ringOk, ltOk, he] using hr) hc h

theorem makes_ringPoll {s : State} {r : Nat} {g : Device → Device} (hr : r < 512) (hc : s.dev.clocked = true)
    (h : ringPoll s.dev r = g s.dev) : Makes (.ringPoll r) s g :=
  makes_clock (f := fun d => ringPoll d r) rfl (by simpa [Instr.wf, ringOk, ltOk] using hr) hc h

theorem makes_hostReadRetry {s : State} {r : Nat} {g : Device → Device} (hr : r < 512) (hc : s.dev.clocked = true)
    (h : hostReadRetry s.dev r = g s.dev) : Makes (.hostReadRetry r) s g :=
  makes_clock (f := fun d => hostReadRetry d r) rfl (by simpa [Instr.wf, ringOk, ltOk] using hr) hc h

theorem makes_rxPacketWrite {s : State} {r : Nat} {g : Device → Device} (hr : r < 512) (hc : s.dev.clocked = true)
    (h : rxPacketWrite s.dev r = g s.dev) : Makes (.rxPacketWrite r) s g :=
  makes_clock (f := fun d => rxPacketWrite d r) rfl (by simpa [Instr.wf, ringOk, ltOk] using hr) hc h

theorem makes_noticeWrite {s : State} {g : Device → Device} (hc : s.dev.clocked = true) (h : noticeWrite s.dev = g s.dev) :
    Makes .noticeWrite s g := makes_clock (f := noticeWrite) rfl rfl hc h

theorem makes_hostReadTimeout {s : State} {r : Nat} {read : HostRead} {g : Device → Device} (hr : r < 512) (hc : s.dev.clocked = true)
    (h : hostReadTimeout s.dev r read = g s.dev) : Makes (.hostReadTimeout r read) s g :=
  makes_clock (f := fun d => hostReadTimeout d r read) rfl (by simpa [Instr.wf, ringOk, ltOk] using hr) hc h

/-- Settles O60: each command is what its work is in each case; the payment and the event of an entry's read keep what the read is
judged by. -/
theorem ringTransfers : Obligations.RingTransfers := by
  unfold Obligations.RingTransfers
  refine ⟨fun s r hr hc => ⟨fun h => ?_, fun hst hp hre ha => ?_, fun h => ?_, fun t ht => ⟨fun hm => ?_, fun hm => ?_⟩⟩,
    fun s r entry body hr he hc hm => ?_,
    fun s r k n entry body h g bs hr he hc hm hk hb hn => ⟨fun hp => ?_, fun hp inside hi => ⟨fun hin => ?_, fun hin hf => ?_,
      fun hin hf hsome hg => ?_⟩⟩,
    fun s r hr hc => ⟨fun h => ?_, fun t ht => ⟨fun hf => ?_, fun f hf => ⟨fun hen => ?_, fun hen => ⟨fun hto => ?_,
      fun hto => ⟨fun hq => ?_, fun hst b rest n g hh hn => ⟨fun hp => ?_, fun hp => ⟨fun hw => ?_, fun e k hw hk => ?_⟩⟩⟩⟩⟩⟩⟩,
    fun s hc hq => ?_,
    fun s n rest r lost hc hq hr hl => ⟨fun hto => ?_, fun hto => ⟨fun hh => ?_, fun hst b more g hh => ⟨fun hp => ?_,
      fun hp => ⟨fun hw => ?_, fun e k hw hk => ?_⟩⟩⟩⟩,
    fun s r g again hr hc hg hag => ?_⟩
  · exact makes_ringPoll (g := id) hr hc (ringPoll_idle h)
  · exact makes_ringPoll hr hc (ringPoll_due hst hp hre ha)
  · exact makes_hostReadRetry (g := id) hr hc (hostReadRetry_none h)
  · exact makes_hostReadRetry (g := id) hr hc ((hostReadRetry_some ht).trans (if_neg (ne_true_of_eq_false hm)))
  · exact makes_hostReadRetry hr hc ((hostReadRetry_some ht).trans (if_pos hm))
  · exact makes_ringEntryRead (g := id) hr he hc (ringEntryRead_unread hm)
  · exact makes_ringEntryRead hr he hc (ringEntryRead_waits hm hb hn hp)
  · exact makes_ringEntryRead hr he hc (ringEntryRead_outside hm hb hn hk hp (hi.symm.trans hin))
  · exact makes_ringEntryRead hr he hc (ringEntryRead_fails hm hb hn hk hp (hi.symm.trans hin) hf)
  · have hsame := ringPay_sameEntry (mayRead_notIdle hm) hp
    have hk' := hsame.k.trans hk
    have hn' := (hsame.entData bs).trans hn
    have hmk {x : Device} (hx : h.entryCome r bs body = x) : Makes (.ringEntryRead r entry body) s fun _ => x.ringSettle r :=
      makes_ringEntryRead hr he hc ((ringEntryRead_comes hm hb hn hk hp (hi.symm.trans hin) hf hsome).trans
        (congrArg (Device.ringSettle · r) hx))
    exact ⟨fun hv => hmk (entryCome_empty hk' hn' hg hv), fun hv => ⟨fun hs => hmk (entryCome_misplaced hk' hn' hg hv hs),
      fun hs => ⟨fun hb => hmk (entryCome_bad hk' hn' hg hv hs hb), fun hb =>
        ⟨fun a m al hsp hbad => hmk (entryCome_badAddr hk' hn' hg hv hs hb hsp hbad), fun ha =>
          ⟨fun h0 hx => hmk (entryCome_noBody hk' hn' hg hv hs hb ha h0 hx),
            fun hx => hmk (entryCome_taken hk' hn' hg hv hs hb ha hx)⟩⟩⟩⟩⟩
  · exact makes_rxPacketWrite (g := id) hr hc (rxPacketWrite_none h)
  · exact makes_rxPacketWrite (g := id) hr hc (rxPacketWrite_gone ht hf)
  · exact makes_rxPacketWrite (g := id) hr hc (rxPacketWrite_early ht hf hen)
  · exact makes_rxPacketWrite hr hc (rxPacketWrite_noRing ht hf hen hto)
  · exact makes_rxPacketWrite hr hc (rxPacketWrite_full ht hf hen hto hq)
  · exact makes_rxPacketWrite hr hc (rxPacketWrite_held ht hf hen hto hst hh hn hp)
  · refine makes_rxPacketWrite hr hc ((rxPacketWrite_held ht hf hen hto hst hh hn hp).trans ?_)
    rw [hw]
    rfl
  · have hx := rxPacketWrite_held ht hf hen hto hst hh hn hp
    rw [hw] at hx
    have hx' : Makes (.rxPacketWrite r) s fun _ => rxWritten t k := makes_rxPacketWrite hr hc (hx.trans (congrArg (rxWritten t) hk))
    exact ⟨_, hx', rfl, _, rfl, rfl⟩
  · refine makes_noticeWrite (g := id) hc ?_
    unfold noticeWrite
    rw [hq]
    rfl
  · exact makes_noticeWrite hc ((noticeWrite_noRing hq hr hto).trans (hl _).symm)
  · exact makes_noticeWrite hc ((noticeWrite_full hq hr hto hh).trans (hl _).symm)
  · exact makes_noticeWrite hc (noticeWrite_held hq hr hto hst hh hp)
  · refine makes_noticeWrite hc ((noticeWrite_held hq hr hto hst hh hp).trans ?_)
    rw [hw, hl]
    rfl
  · refine makes_noticeWrite hc ((noticeWrite_held hq hr hto hst hh hp).trans ?_)
    rw [hw, ← hk]
    rfl
  · have hm {read : HostRead} {x : Device} (hx : hostReadTimeout s.dev r read = x) : Makes (.hostReadTimeout r read) s fun _ => x :=
      makes_hostReadTimeout hr hc hx
    have hlate (act : Nat) : s.dev.readLate r act = g.logFault ⟨8, s.dev.ringFn r, r⟩ 5 act 1 := by
      rw [hg]
      rfl
    have hagain (read : HostRead) : s.dev.readAgain r read = again read := by
      rw [hag read, Device.readAgain, hlate]
    refine ⟨fun h => makes_hostReadTimeout (g := id) hr hc (hostReadTimeout_noRow h), fun j hj => ⟨fun hl => ?_, fun hl => ?_⟩,
      fun h => makes_hostReadTimeout (g := id) hr hc (hostReadTimeout_noEntry h),
      fun h => makes_hostReadTimeout (g := id) hr hc (hostReadTimeout_noFrame h),
      fun h => ⟨fun hl => ?_, fun hl => ?_, fun ht => ⟨fun hl => ?_, fun hl => ?_⟩⟩⟩
    · exact hm ((hostReadTimeout_row hj).trans ((if_pos hl).trans (by rw [hlate])))
    · exact hm ((hostReadTimeout_row hj).trans ((if_neg (ne_true_of_eq_false hl)).trans (hagain _)))
    · exact makes_hostReadTimeout hr hc ((hostReadTimeout_entry h).trans ((if_pos hl).trans (by rw [hlate])))
    · exact hm ((hostReadTimeout_entry h).trans ((if_neg (ne_true_of_eq_false hl)).trans (hagain _)))
    · exact makes_hostReadTimeout hr hc ((hostReadTimeout_frame h ht).trans ((if_pos hl).trans (by rw [hlate])))
    · exact hm ((hostReadTimeout_frame h ht).trans ((if_neg (ne_true_of_eq_false hl)).trans (hagain _)))

end Sys2Proof.Machine
